-- ==== Sys2Proof/Word.lean ====
section
/-! DEFINITION. The machine's words: a byte, a byte string, a 64-bit register. -/

namespace Sys2Proof

/-- Eight bits, the unit of every emitted and every read structure (R11). -/
abbrev Byte := BitVec 8

/-- A run of bytes, lowest offset first. -/
abbrev Bytes := List Byte

/-- A management register (R16). -/
abbrev Word64 := BitVec 64

end Sys2Proof
end

