-- ==== Sys2Proof/Syntax.lean ====
section
/-! DEFINITION. The commands of the block and the types of their operands. -/

namespace Sys2Proof

/-- Status codes (R18, Table 15-16), one constructor per name. -/
inductive Status where
  | ok | pktLength | pktFormat | pktOpcode | pktTag | pktParam | pktPiece
  | resourceClaimed | objectBusy | cpQueueFull | rateLimited | domainLimit | digestCtxFull
  | snapshotLimit | sessionLimit | groupLimit | partnerLimit | fwBusy
  | readUnrecovered | grainLost | metadataLost
  | lockerWithdrawn | lockerUnbound | ctxUnwrap | streamDenied | lockerState | mregDenied
  | sessionAuth | adoptFail | rosterRefused | tokenRefused
  | fwFormat | fwSignature | fwStepping | fwRollback | fwChunk | fwActivateFail
  | fwPeerIncompatible | keySlot | keyLast | keyInUse | lifecycle | importFail
  | cpSignature | cpReplay | classDenied
  | ttFormat | ttSignature | ttReserved | ttStepping | ttPool | ttTermStale | ttMembers
  | ttSheetMissing | ttRoleScope | ttReadGap | ttOversubscribed | ttDieFit | ttDramRate
  | ttDramWindow | ttRefreshRoom | ttDomain | ttStripeSpread | ttBound
  | ttLoadBusy | ttDay | ttNotStaged | ttTooLate
  | poolReadOnly | volumeUnknown | quotaExceeded | poolState | memberState | nsidInUse
  | domainNotEmpty | volumeOffline | snapshotSealed | rootNotSettled | rootKind
  | replBaseMissing | replFpMismatch | replManifest | replFractured | replPeerAbort
  | peerPresent | handoverBusy
  | skxBadHeader | skxBadTable | skxBadCode | skxBadDist | skxOverrun | skxUnderrun | skxTrailing
  | tagFail | digestNotFinal | keyExhausted | digestNotOpen | segOrder | segTruncated
  deriving DecidableEq, Repr

/-- A place from which control packets arrive (ch. 15, "Transports and bindings"). -/
inductive Binding where
  /-- a management-capable NVMe controller, by its CNTLID -/
  | nvme (cntlid : Nat)
  /-- the CPI mailbox -/
  | cpi
  /-- the PFM mailbox -/
  | pfm
  /-- one MCTP endpoint, by its endpoint ID -/
  | mctp (endpoint : Nat)
  /-- the peer head, which forwards a packet that changes pool-wide state (R544) -/
  | peer
  deriving DecidableEq, Repr

/-- What the peer head answered to a forwarded change (R544), with its refusal detail. -/
structure PeerAnswer where
  status : Status
  detail : Bytes
  deriving DecidableEq, Repr

/-- The engine kinds (R52). -/
inductive EngineKind where
  | enc | dec | cip | dig | par
  deriving DecidableEq, Repr

/-- An engine lane of Table 1-2: an active lane (E, D, C, K, P) or a spare (ES, DS, CS, KS, PS). -/
structure LaneId where
  kind  : EngineKind
  spare : Bool
  index : Nat
  deriving DecidableEq, Repr

/-- A degradation of the pair, named as the substitute sheet that covers it (R81, Table 2-7). -/
structure Degradation where
  kind  : Nat
  head  : Nat
  index : Nat
  deriving DecidableEq, Repr

/-- The kinds of DIMM of Table 16-1. -/
inductive DimmKind where
  | rdimm | mrdimm | other
  deriving DecidableEq, Repr

/-- What the SPD of a DIMM says (R552, R553): kind, rated speed [MT/s], part number, capacity [GiB],
ranks, and tRFC [ps]. -/
structure Dimm where
  kind  : DimmKind
  rated : Nat
  part  : Nat
  gib   : Nat
  ranks : Nat
  trfc  : Nat
  deriving DecidableEq, Repr

/-- The data an uncorrectable DRAM burst holds (Table 16-5). -/
inductive DramData where
  /-- a version's block, header, descriptor or mark in staging: root, grain, block, order number -/
  | staging (root grain block order : Nat)
  | journal
  | cacheClean (mpa : Nat)
  | cacheDirty (mpa : Nat)
  | filterLine (line : Nat)
  | indexDelta
  /-- a queue entry or capsule buffer of a connection -/
  | queueEntry (cntlid qid : Nat)
  | context (id : Nat)
  /-- the seal table; whether the pages it is read again from verify -/
  | sealTable (sound : Bool)
  | faculty (core : Nat)
  | other
  deriving DecidableEq, Repr

/-- The faults the pin monitor classes (R631). -/
inductive PinFaultKind where
  | isOpen | shortGround | shortHigh
  deriving DecidableEq, Repr

/-- The reference clocks of Table 18-3. -/
inductive RefClock where
  | xtal | refclk0 | refclk1 | ethref
  deriving DecidableEq, Repr

/-- Why a cold reset falls (Table 18-5). -/
inductive ColdCause where
  /-- supplies become valid after a rail other than VDD_AON left its operating range -/
  | powerOn
  | aonLoss
  /-- COLD_RST_N low for 1 µs -/
  | pin
  deriving DecidableEq, Repr

/-- A firmware slot of the boot flash (R509): its image and its activation count. -/
structure FwSlot where
  image      : Option Bytes
  activation : Nat
  deriving DecidableEq, Repr

/-- The boot flash (Table 14-6) without the sealed store: key records by slot number, the identity
record, Prefect slots A and B, Faculty slots F0 and F1. -/
structure BootFlash where
  records  : List (Nat × Bytes)
  identity : Bytes
  slotA    : FwSlot
  slotB    : FwSlot
  slotF0   : FwSlot
  slotF1   : FwSlot
  deriving DecidableEq, Repr


/-- A command capsule (ch. 3): its fields, the transfer length its SGL gives, the data it carries, the
host-to-controller data or ranges a command brings with it. -/
structure Capsule where
  opcode : Nat
  nsid   : Nat
  slba   : Nat
  /-- blocks -/
  nlb    : Nat
  /-- 0 not fused, 1 first command, 2 second command -/
  fused  : Nat
  cdw10  : Nat
  cdw11  : Nat
  cdw12  : Nat
  /-- bytes its SGL names -/
  sgl    : Nat
  /-- NVMe/TCP, else NVMe/RoCEv2 -/
  tcp    : Bool
  /-- data in the capsule, and its protection information -/
  data   : Option Bytes
  pi     : Bytes
  /-- ranges of Dataset Management: first LBA, blocks -/
  ranges : List (Nat × Nat)
  deriving DecidableEq, Repr

/-- A completion of a bridge (Table 11-5): bay, tag, status, corrected bits, suspends, retry steps, flags,
result. -/
structure BlpDone where
  bay       : Nat
  tag       : Nat
  status    : Nat
  corrected : Nat
  suspends  : Nat
  retry     : Nat
  flags     : Nat
  result    : Nat
  deriving DecidableEq, Repr

/-- The digest functions (Table 7-11). -/
inductive DigestFn where
  | sha3x256 | sha3x384 | sha3x512 | shake128 | shake256 | cshake128 | cshake256 | kmac128 | kmac256
  deriving DecidableEq, Repr

/-- Who stands behind a cipher descriptor (R262). -/
inductive StreamAuth where
  /-- Prefect issued it -/
  | prefect
  /-- a control packet by its binding and tag -/
  | packet (b : Binding) (tag : Nat)
  | other
  deriving DecidableEq, Repr

/-- How a long message starts on a cipher lane: island 0 or 1 for I16 or I17, lane, stream class, key handle, the
generation and domain fields of its key's label, first nonce, destination address. -/
structure CtxStart where
  island  : Nat
  lane    : Nat
  cls     : Nat
  handle  : Nat
  gen     : Nat
  domain  : Nat
  nonce   : Bytes
  dest    : Nat
  decrypt : Bool
  stream  : Bool
  deriving DecidableEq, Repr

/-- A part of what a lane does in a hall pass: whether it begins a segment, additional data, ciphertext. -/
structure PassPart where
  begins : Bool
  aad    : Bytes
  text   : Bytes
  deriving DecidableEq, Repr

/-- A segment as a receiving lane finds it (Table 7-8): frame header, ciphertext, tag. -/
structure SegmentIn where
  frame : Bytes
  text  : Bytes
  tag   : Bytes
  deriving DecidableEq, Repr

/-! Records shared by the journal, the Corridor and the media. -/

namespace Machine

/-- A commit mark record in the Held state (Table 4-4). -/
structure CommitMark where
  seq    : Nat
  volume : Nat
  count  : Nat
  origin : Nat
  lba    : Nat
  deriving DecidableEq, Repr

/-- An entry of RELEASE (Table 4-5): a grain and the released sequence of each quarter, 0 for none. -/
structure RelEntry where
  volume : Nat
  grain  : Nat
  seqs   : List Nat
  deriving DecidableEq, Repr

/-- A content-table record (Table 8-4). -/
structure CtRec where
  psa     : Nat
  refs    : Nat
  gen     : Nat
  domain  : Nat
  fpHead  : Nat
  /-- flags [0] allocated, [1] poisoned, [5:2] quarter poison mask, [6] reclaim chosen, [7] not
  reclaimable, [8] no index record, [9] metadata bytes present -/
  flags   : Nat
  moved   : Nat
  deriving DecidableEq, Repr

/-- The block states of Table 8-7. -/
inductive BlkState where
  | free | isOpen | full | pendingErase | retired
  deriving DecidableEq, Repr

/-- A block ledger entry (Table 8-10). `consumed` is kept in units of 1/(3.6 × 10^12) hour, so that the additions of R320 at
each day boundary are exact; the entry's bytes hold whole hours. -/
structure Ledger where
  state     : BlkState
  dieType   : Nat
  pe        : Nat
  writeTime : Nat
  fullEpoch : Nat
  consumed  : Nat
  live      : Nat
  ratio     : Nat
  calDay    : Nat
  offsets   : List Nat
  deriving DecidableEq, Repr

/-- The body of a journal record (Tables 8-6 and 9-8). -/
inductive JBody where
  | mapSet (tree grain oldEntry newEntry seq : Nat)
  /-- `kind` is the kind of tree (`pageId`): no field of the record tells a map from the trees of a half, the magic of the page it names
  does (Tables 8-6 and 10-6) -/
  | mapPage (kind tree level firstKey oldMpa newMpa : Nat)
  | ctNew (cid : Nat) (r : CtRec)
  | ctMove (cid oldPsa newPsa : Nat)
  | refDelta (l : List (Nat × Int))
  | reclaim (cid action : Nat)
  | indexChange (action domain : Nat) (fp : Bytes) (cid : Nat)
  | blockState (blk : Nat) (state : BlkState) (pe : Nat)
  | counter (handle lane kind value : Nat)
  | usageGrant (locker gen first count : Nat)
  | poison (cid mask : Nat)
  | volume (root action fence parent mpa size : Nat)
  | checkpoint (phase mpa : Nat)
  | epochSeal (records check : Nat)
  | ledger (blk : Nat) (e : Ledger)
  | groupOpen (group layout row : Nat) (blocks : List Nat)
  | stripeOpen (group stripe first count : Nat)
  | stripeClose (group stripe a flags pointer : Nat)
  | parityBlock (group column blk : Nat)
  | blockSubst (group pos oldBlk newBlk : Nat)
  | groupClose (group stripes : Nat)
  | groupRelease (group : Nat)
  | lostPage (group pos page : Nat)
  | sjCheckpoint (phase mpa pages : Nat)
  | triadSubst (triad copy standby : Nat)
  deriving DecidableEq, Repr

/-- A journal record: its position (epoch, head, sequence) and its body (Table 8-5). -/
structure JRec where
  head  : Nat
  seq   : Nat
  epoch : Nat
  body  : JBody
  deriving DecidableEq, Repr

/-- A Diary record (Table 17-1); `repeats` is its repeat field. -/
structure DiaryRec where
  code    : Nat
  repeats : Nat
  island  : Nat
  flags   : Nat
  first   : Nat
  last    : Nat
  arg     : Nat
  deriving DecidableEq, Repr

/-- A version of a block in staging: its descriptor (Table 4-3) and its buffers. `seq` is the fetch
sequence number; `noBuffer` marks a quarter of a zeroed or deallocated whole grain (R136). -/
structure Ver where
  vol     : Nat
  grain   : Nat
  quarter : Nat
  seq     : Nat
  origin  : Nat
  staged  : Bool
  zeros   : Bool
  dealloc : Bool
  noBuffer : Bool
  hasPi   : Bool
  data    : Bytes
  pi      : Bytes
  /-- reads bound to the version and running (R135) -/
  readers : Nat
  /-- named, or older than one named, by a RELEASE (R145) -/
  released : Bool
  /-- its buffer is gone and no copy of it is left: its quarter is poisoned when the grain is completed (R163) -/
  lost : Bool
  deriving DecidableEq, Repr

/-- A staging entry header (Table 4-2) beyond what its versions give. -/
structure Entry where
  vol       : Nat
  grain     : Nat
  lastWrite : Nat
  /-- the job that destages it, and whether this head has destaged it before -/
  destage   : Option Nat
  destaged  : Bool
  /-- 64 periods have passed since its last write (R137) -/
  due       : Bool
  deriving DecidableEq, Repr

/-- A vault image as structured data (Tables 10-15 to 10-17): its ID is the bell of Vault mode entry; records oldest
first; the seal's fields are 0 while it is not sealed; `counters` are the exact nonce counters of R254. -/
structure VaultImage where
  id       : Nat
  head     : Nat
  term     : Nat
  clock    : Nat
  entries  : List Entry
  versions : List Ver
  marks    : List CommitMark
  tail     : List JRec
  mirror   : List JRec
  diary    : List DiaryRec
  sealedAt : Nat
  tOff     : Nat
  durable  : Nat
  day      : Nat
  deriving DecidableEq, Repr

/-- A record of the index delta or of an index page (R186, R187). -/
structure IdxRec where
  domain   : Nat
  fp       : Bytes
  cid      : Nat
  poisoned : Bool
  deriving DecidableEq, Repr

/-- A leaf map page: its birth epoch and its mapped entries (index, CID) (R284, R286). -/
structure LeafPage where
  birth   : Nat
  mpa     : Nat
  entries : List (Nat × Nat)
  deriving DecidableEq, Repr

/-- The kinds of root (Table 12-1). -/
inductive RootKind where
  | volume | snapshot | clone | replica | domain
  deriving DecidableEq, Repr

/-- Root state (Table 12-1). -/
inductive RootState where
  | active | settling | deleting
  deriving DecidableEq, Repr

/-- A root record (Table 12-1) with its map: leaf pages by page key (grain ÷ 504). -/
structure Root where
  id        : Nat
  kind      : RootKind
  state     : RootState
  sealed_   : Bool
  verify    : Bool
  adopted   : Bool
  syncSource : Bool
  nsid      : Nat
  domain    : Nat
  layout    : Nat
  service   : Nat
  size      : Nat
  parent    : Nat
  subsystem : Nat
  ana       : Nat
  fenceBell : Nat
  fenceEpoch : Nat
  until_    : Nat
  created   : Nat
  quota     : Nat
  sourcePool : Bytes
  sourceRoot : Nat
  sourceSnap : Nat
  /-- LBA format code: 0 without metadata, 1 with 64-byte metadata; protection information type 0 to 3 -/
  format    : Nat
  piType    : Nat
  /-- a setting of VOL_SET that takes effect at the next bell -/
  next      : Option (Nat × Nat)
  /-- the fetch sequence N recorded at its fence bell, for a settling snapshot (R427) -/
  fenceSeq  : Nat
  /-- writes below it that the snapshot leaves out (R459) -/
  fenceSkip : List Nat
  leaves    : List (Nat × LeafPage)
  deriving DecidableEq, Repr

/-- A slot placed in a strip: the stripe and position, its first quarter of the strip (0 to 15), its part-0
envelope, its bytes, and the job it belongs to: a destage, or a move with the PSA it leaves. -/
structure Placed where
  cid    : Nat
  stripe : Nat
  pos    : Nat
  at_    : Nat
  tier   : Nat
  env    : Bytes
  bytes  : Bytes
  job    : Nat
  oldPsa : Nat
  deriving DecidableEq, Repr

/-- A stripe of a group: written strips and parity version (R332, R333). -/
structure Stripe where
  number  : Nat
  a       : Nat
  interim : Bool
  final   : Bool
  /-- parity position, none before the first version -/
  pointer : Option Nat
  /-- programmes not complete of the version being written, and that version: position, a, interim -/
  pending : Nat
  writing : Option (Nat × (Nat × Bool))
  /-- positions left unwritten on a member that was not In service (R641) -/
  unwritten : List Nat
  deriving DecidableEq, Repr

/-- A stripe group (R330, R331). -/
structure Group where
  id       : Nat
  layout   : Nat
  row      : Nat
  k        : Nat
  m        : Nat
  /-- data blocks, then the first block of each parity column -/
  blocks   : List Nat
  /-- second block of each parity column, none opened yet being empty -/
  second   : List Nat
  isOpen   : Bool
  /-- its GROUP_OPEN is durable: strips may be programmed (R344) -/
  ready    : Bool
  stripes  : List Stripe
  nextPos  : Nat
  /-- number of the stripe being filled, data strips posted in it, and the parity accumulators (R338, R341) -/
  cur      : Option Nat
  posted   : Nat
  accum    : List Bytes
  /-- slots of the strip being filled, and slots posted whose STRIPE_CLOSE is not written -/
  filling  : List Placed
  waiting  : List Placed
  lastSlot : Nat
  lost     : List (Nat × (Nat × Nat))
  deriving DecidableEq, Repr

/-- The metadata a checkpoint writes: epoch S, the sequence this head's records of S had reached, and
the trees. -/
structure MetaImage where
  epoch    : Nat
  seq      : Nat
  roots    : List Root
  nextRoot : Nat
  ct       : List (Nat × CtRec)
  blocks   : List (Nat × Ledger)
  index    : List IdxRec
  pages    : List (Nat × Nat)
  groups   : List Group
  opened   : Nat
  tails    : List (Nat × Bytes)
  /-- the applied position of each page and writing head (R304) -/
  applied  : List (Nat × (Nat × Nat))
  /-- the MPA of each metadata page written, by `pageId` -/
  mpas    : List (Nat × Nat)
  deriving DecidableEq, Repr

/-- What flash holds of a pool, as a head reads it that did not write all of it: the image of the active timetable copy, the
newest whole checkpoint, the journal records since then, and the newest epoch in journal pages. -/
structure PoolMedia where
  timetable : Bytes
  image     : MetaImage
  log       : List JRec
  flushed   : Nat
  deriving DecidableEq, Repr

end Machine

/-- What a PREFECT_RECORD carries between the two Prefects (R519 to R521); the spec keeps its form to Prefect. -/
inductive PairRecord where
  /-- a handshake message, header included -/
  | handshake (message : Bytes)
  /-- the root key of a pool with the locker table -/
  | rootKey (poolId key table : Bytes)
  /-- a locker's new entry -/
  | locker (domain : Nat) (entry : Bytes)
  /-- a seal table entry: root, retention-until time, fence epoch, pool ID bytes 0 to 7 -/
  | sealEntry (root until_ fence pool : Nat)
  /-- the pair version the sender speaks and the oldest it accepts -/
  | version (pair oldest : Nat)
  /-- a Prefect update pauses, and resumes -/
  | pause
  | resume
  /-- a record as the link carries it once the channel stands: nonce, ciphertext, tag (R519) -/
  | closed (nonce text tag : Bytes)
  deriving DecidableEq, Repr

/-- A vault image as a start finds it in flash: the image, and of each of its segments of 65,536 bytes whether its pages are all
readable and its tag verifies (R163). -/
structure PartImage where
  image : Machine.VaultImage
  sound : List Bool
  deriving DecidableEq, Repr

/-- What a head finds at a start: the DIMMs, a boot flash fitted since the last one, the bays that hold a module, whether
the peer is in service, what flash holds of the pool where another head has written it since, the readable part of its own
image when that is not sealed, the peer's image as its vault-area forms hold it (sealed or not), a gap in the flash journal,
whether the seal table's pages verify, the polarity test of the bank. -/
structure StartEnv where
  dimms      : List (Option Dimm)
  flash      : Option BootFlash
  bays       : List Nat
  peerServes : Bool
  media      : Option Machine.PoolMedia
  own        : Option PartImage
  peer       : Option (PartImage × Bool)
  gap        : Bool
  sealSound  : Bool
  sense      : Int
  deriving DecidableEq, Repr


/-- The commands of the block, one constructor per row of the table of operations and events
(spec/opcode_table.json); the table gives no fields, so the operands are what the rules of the
row need from outside the head. -/
inductive Instr where
  /-- SUPPLIES_VALID (R611): Supplies become valid, cold reset is released and the head starts through the start-up sequence. -/
  | suppliesValid (env : StartEnv)
  /-- FACULTY_CHUNK_LOAD (R513): Faculty requests a remaining image chunk; Prefect loads it, checks its digest and makes it executable. -/
  | facultyChunkLoad (chunk : Nat)
  /-- COLD_RESET (R608): COLD_RST_N low for 1 µs, or a loss of VDD_AON, resets every island and restarts the boot chain from step 1. -/
  | coldReset (cause : ColdCause) (env : StartEnv)
  /-- WARM_RESET (R608): WARM_RST_N low for 1 µs resets every island except PD00 and restarts the boot chain from step 3. -/
  | warmReset (env : StartEnv)
  /-- VDD_AON_ONLY (R600): With VDD_AON alone valid, PD00 runs only the oscillator and the trusted clock counter and holds cold reset. -/
  | vddAonOnly
  /-- SUPPLY_TRIP (R602): A rail stays outside its trip limits for 2 µs; Damrid enters Vault mode and raises SUPPLY_TRIP. -/
  | supplyTrip (rail : Nat) (high : Bool)
  /-- PWR_FAIL_N_LOW (R156): PWR_FAIL_N stays low for 1 µs and Damrid enters Vault mode; shorter pulses are ignored. -/
  | pwrFailNLow
  /-- VAULT_SHEET_ENTRY (R158): At the next period boundary the Vault sheet takes effect, host links go down and islands are gated to the 180 W cap. -/
  | vaultSheetEntry
  /-- VAULT_SEAL (R159): The image trailer is written and verifies; Damrid sends VAULT_DONE and puts DRAM in self-refresh. -/
  | vaultSeal (coldLow warmLow : Bool) (env : StartEnv)
  /-- VAULT_WARM_START (R160): After the seal, with supplies valid and PWR_FAIL_N high for 100 ms, Damrid performs a warm start. -/
  | vaultWarmStart (env : StartEnv)
  /-- EARLY_POWER_FAIL (R617): Power fails before the Bring-up sheet is in force; no image is written and the head waits for power to return. -/
  | earlyPowerFail
  /-- THERMAL_VAULT (R637): The hottest sensor reads 110 °C or more for 1 ms and Damrid enters Vault mode. -/
  | thermalVault (temp : Int) (island : Nat)
  /-- THERMTRIP (R637): A sensor reads 125 °C or more and PD00 asserts THERMTRIP_N independently of firmware. -/
  | thermtrip (temp : Int) (island : Nat)
  /-- REFCLK_LOST (R607): A reference clock stops or drifts beyond 1,000 ppm and Damrid acts as Table 18-4 gives for that reference. -/
  | refclkLost (ref : RefClock)
  /-- REFCLK_RESTORED (R607): A lost reference has been present and in tolerance for 1 s and Damrid retrains what its loss took down. -/
  | refclkRestored (ref : RefClock)
  /-- AVS_ADJUST (R601): Every 64 days Prefect steps the VDD_CORE AVS target toward the temperature-dependent value. -/
  | avsAdjust (targetMv measuredMv : Nat)
  /-- AVS_CONFIRM_TIMEOUT (R601): The regulator does not confirm a new target within 1 ms; Damrid keeps the last confirmed target. -/
  | avsConfirmTimeout
  /-- FULL_TRAINING_COMPLETE (R619): All channels, lane groups, bays, Corridor and vault restore are done; the head leaves the Bring-up sheet at a day boundary. -/
  | fullTrainingComplete
  /-- VAULT_RESTORE_COMPLETE (R616): The block buffers of the vault images are restored and waiting commands on their grains become admissible. -/
  | vaultRestoreComplete
  /-- BELL_TICK (R38): The Bell island starts a new period; islands act on it, refill buckets and windows and post die operations. -/
  | bellTick
  /-- EPOCH_END (R296): Every 8 periods the epoch advances on both heads at the same bell. -/
  | epochEnd
  /-- EPOCH_SEAL_WRITE (R297): Once all of an ended epoch's records are acknowledged and the previous seal written, the head writes and mirrors EPOCH_SEAL. -/
  | epochSealWrite
  /-- TERM_CHANGEOVER (R76): At the bell of day D the Armed term takes effect on both heads and the sheet for the state in force is selected. -/
  | termChangeover
  /-- SHEET_SWITCH (R81): At the switch day both heads select the sheet for the degradations then in force. -/
  | sheetSwitch
  /-- LANE_FAULT (R26): A lane is found faulty or rotated out; its spare takes its slots from the next period boundary. -/
  | laneFault (lane : LaneId)
  /-- LANE_ROTATION (R529): An engine island rotates a lane out against a spare for its periodic known-answer tests. -/
  | laneRotation (lane : LaneId)
  /-- LANE_TEST_COMPLETE (R529): A lane's known-answer tests end; a passing lane returns, a failing one stays out. -/
  | laneTestComplete (lane : LaneId) (pass : Bool)
  /-- RESOURCE_RETURN_DUE (R81): A resource has been in service 64 consecutive days; its head announces the return in SHEET_TRIGGER action 2. -/
  | resourceReturnDue (what : Degradation)
  /-- TT_STAGE (R73): Copies a timetable image piece; after the last piece both heads run the load checks and the image becomes Staged. -/
  | ttStage (b : Binding) (tag : Nat)
  /-- TT_ARM (R74): Arms the staged term for day D, or moves its day, after recording it in the vault. -/
  | ttArm (b : Binding) (tag : Nat) (peer : PeerAnswer)
  /-- TT_DISARM (R75): Discards a Staged or Armed image before day D − 1. -/
  | ttDisarm (b : Binding) (tag : Nat) (peer : PeerAnswer)
  /-- TT_QUERY (R74): Returns the timetable registers and the last refusal detail. -/
  | ttQuery (b : Binding) (tag : Nat)
  /-- CAPSULE_RECEIVE (R93): A command capsule arrives on a host port and is placed in its queue entry; an empty pool backpressures. -/
  | capsuleReceive (cntlid qid cid : Nat) (cap : Capsule) (room : Bool)
  /-- CAPSULE_FETCH (R99): The Dispatcher fetches an admissible capsule, pays its admission and assigns its fetch sequence number. -/
  | capsuleFetch
  /-- METADATA_PAGE_PREFETCH (R295): A read at the head of its connection requests missing map and content-table pages before it can be fetched. -/
  | metadataPagePrefetch (cntlid qid : Nat)
  /-- FSN_REQUEST (R103): The owning head receives a fetch sequence request and assigns the number once it can admit the command. -/
  | fsnRequest (number nsid tag : Nat) (cap : Capsule) (host : Bytes)
  /-- FSN_GRANT (R103): The receiving head gets the fetch sequence number and the command is fetched. -/
  | fsnGrant (nsid tag seq : Nat)
  /-- WRITE_DATA_ARRIVAL (R101): Write data arrives by RDMA Read response or H2CData and is placed in fresh staging buffers. -/
  | writeDataArrival (cntlid qid cid first : Nat) (data pi : Bytes) (ok : Bool)
  /-- DATA_IN_TIMEOUT (R102): A Data-In write is not complete 4 s after fetch; it fails with Data Transfer Error and its mirrored blocks are withdrawn. -/
  | dataInTimeout (cntlid qid cid : Nat)
  /-- CONNECTION_ERROR (R117): A fatal transport error ends the commands of that connection's queue, or the association for the admin queue. -/
  | connectionError (cntlid qid : Nat)
  /-- KEEP_ALIVE_EXPIRY (R115): The keep-alive timer expires and the association is lost under Table 3-11. -/
  | keepAliveExpiry (cntlid : Nat)
  /-- FLUSH (R111): Completes when every write fetched before it on its namespace has completed. -/
  | flush (cntlid qid cid : Nat) (remoteDone : Bool)
  /-- WRITE (R140): Stages the write's blocks, mirrors them, commits the mark and acknowledges. -/
  | write (cntlid qid cid : Nat)
  /-- READ (R105): Returns each block from the overlapping write ordered below it or from flash as bound at fetch. -/
  | read (cntlid qid cid : Nat) (remote : Option (Status × Bytes))
  /-- COMPARE (R105): Reads the range and compares it byte for byte with the supplied data. -/
  | compare (cntlid qid cid : Nat) (remote : Option (Status × Bytes))
  /-- COMPARE_AND_WRITE (R104): A fused Compare and Write holds one number and writes only when the compare matches. -/
  | compareAndWrite (cntlid qid cid : Nat) (remote : Option (Status × Bytes))
  /-- WRITE_ZEROES (R136): Whole grains become CID 0 without buffers; partial grains are staged as zeros. -/
  | writeZeroes (cntlid qid cid : Nat)
  /-- DATASET_MANAGEMENT (R114): Deallocates up to 256 ranges per range and in whole grains. -/
  | datasetManagement (cntlid qid cid : Nat)
  /-- VERIFY (R107): Reads, verifies tags and decodes the range without transferring data. -/
  | verify (cntlid qid cid : Nat) (remote : Option (Status × Bytes))
  /-- RESERVATION_REGISTER (R109): Registers or changes a reservation key, with PTPL supported. -/
  | reservationRegister (cntlid qid cid : Nat)
  /-- RESERVATION_REPORT (R109): Returns the extended reservation data structure. -/
  | reservationReport (cntlid qid cid : Nat)
  /-- RESERVATION_ACQUIRE (R109): Acquires a reservation; commands fetched after it are checked against it. -/
  | reservationAcquire (cntlid qid cid : Nat)
  /-- RESERVATION_RELEASE (R109): Releases a reservation; commands fetched after it are checked against the new state. -/
  | reservationRelease (cntlid qid cid : Nat)
  /-- GET_LOG_PAGE (R98): Returns one of the log pages of Table 3-7. -/
  | getLogPage (cntlid cid lid offset length : Nat) (peer : Bytes)
  /-- IDENTIFY (R91): Returns the identify data for the supported CNS values. -/
  | identify (cntlid cid cns nsid cntid : Nat)
  /-- ABORT (R115): Aborts a command only while it is not yet fetched. -/
  | abort (cntlid cid sqid target : Nat)
  /-- SET_FEATURES (R121): Sets one of the features of Table 3-6, including the power state of the head. -/
  | setFeatures (cntlid cid fid nsid value : Nat) (data : Bytes)
  /-- GET_FEATURES (R121): Returns the value of a supported feature. -/
  | getFeatures (cntlid cid fid nsid value : Nat)
  /-- ASYNC_EVENT_REQUEST (R597): Posts an asynchronous event request that a later notice completes. -/
  | asyncEventRequest (cntlid cid : Nat)
  /-- FIRMWARE_COMMIT (R116): Activates the downloaded Faculty image live, cluster by cluster. -/
  | firmwareCommit (cntlid cid slot action : Nat)
  /-- FIRMWARE_IMAGE_DOWNLOAD (R96): Downloads a Faculty image piece on a management-capable controller. -/
  | firmwareImageDownload (cntlid cid offset : Nat) (data : Bytes)
  /-- KEEP_ALIVE (R115): Restarts the association's keep-alive timer. -/
  | keepAlive (cntlid cid : Nat)
  /-- FABRICS_CONNECT (R90): Creates a controller or connects a queue under the dynamic controller model. -/
  | fabricsConnect (port cntlid qid cid size kato : Nat) (hostNqn subNqn hostId : Bytes)
  /-- PROPERTY_GET (R88): Returns a controller property. -/
  | propertyGet (cntlid cid off : Nat)
  /-- PROPERTY_SET (R115): Sets a controller property; CC.EN to 0 resets the controller as Table 3-11 gives. -/
  | propertySet (cntlid cid off value : Nat)
  /-- DISCONNECT (R115): Ends the association and handles its commands as association loss. -/
  | disconnect (cntlid cid : Nat)
  /-- CONTROL_REPLY_POLL (R95): Reports whether the reply of a packet tag is ready and its Damrid status. -/
  | controlReplyPoll (cntlid cid tag : Nat)
  /-- CONTROL_PACKET_SUBMIT (R97): Submits a control packet over NVMe admin C1h. -/
  | controlPacketSubmit (cntlid cid : Nat) (data : Bytes) (peerInflight : Nat)
  /-- CONTROL_REPLY_FETCH (R97): Returns the reply of a packet tag over NVMe admin C2h. -/
  | controlReplyFetch (cntlid cid tag : Nat)
  /-- CONTROL_PAYLOAD_FETCH (R97): Returns reply payload bytes from an offset over NVMe admin C3h. -/
  | controlPayloadFetch (cntlid cid tag offset length : Nat)
  /-- POWER_STATE_CHANGE (R122): An entry to PS1 or PS2, or exit to a higher state, takes effect at the next bell. -/
  | powerStateChange
  /-- PS3_ENTRY_COMPLETE (R123): The head becomes quiet and enters PS3 after spilling contexts and making exact counters durable. -/
  | ps3EntryComplete
  /-- PS3_ENTRY_ABANDON (R123): PS3 entry has not finished 100 ms after the Set Features and is abandoned. -/
  | ps3EntryAbandon
  /-- PS3_EXIT (R124): An I/O command or work needing a gated island returns the head to its last operational state. -/
  | ps3Exit
  /-- ANA_OWNERSHIP_MOVE (R119): Holds a group's commands, moves its fetch sequence numbers and sends ANA Change notices from both heads. -/
  | anaOwnershipMove (group : Nat)
  /-- MIRROR_DATA (R143): The peer places mirrored blocks in its staging and answers MIRROR_ACK. -/
  | mirrorData (number volume count flags seq lba : Nat) (blocks pi : Bytes)
  /-- MIRROR_ACK (R140): The fetching head records the mirror acknowledgement and sends COMMIT once every block is acknowledged. -/
  | mirrorAck (number held : Nat)
  /-- COMMIT (R140): The peer writes the mark Held, sets the descriptors Staged and answers COMMIT_ACK. -/
  | commit (number : Nat) (mark : Machine.CommitMark)
  /-- COMMIT_ACK (R140): The fetching head writes its own mark Held, the write becomes Staged and is acknowledged. -/
  | commitAck (number : Nat)
  /-- RELEASE (R145): The peer frees the named destaged versions and every older version of each block. -/
  | release (l : List Machine.RelEntry)
  /-- CREDIT (R130): A head receives the peer's staging credit for its next admissions. -/
  | credit (blocks term : Nat) (through : Bool)
  /-- VAULT_NOTICE (R161): The peer presumes the sender down at once and fences its dies except its vault-area forms. -/
  | vaultNotice (time : Nat)
  /-- VAULT_DONE (R161): The peer fences the sender's vault-area forms after its seal. -/
  | vaultDone (time length : Nat)
  /-- VAULT_DONE_TIMEOUT (R161): No VAULT_DONE 2 s after VAULT_NOTICE; the peer fences the vault-area forms. -/
  | vaultDoneTimeout
  /-- MARK_LIST (R162): A head receives up to 127 commit mark records of the peer and answers MIRROR_ACK. -/
  | markList (number : Nat) (marks : List Machine.CommitMark)
  /-- WITHDRAW (R639): The peer frees every block it holds for a failed write whose mark it does not hold. -/
  | withdraw (number volume seq : Nat)
  /-- MESSAGE_RESEND_TIMEOUT (R144): A message has no answer after 4 periods and is sent again with the same number. -/
  | messageResendTimeout (number : Nat)
  /-- DESTAGE_AGE_EXPIRY (R137): An entry becomes eligible for destage 64 periods after its last write. -/
  | destageAgeExpiry (vol grain : Nat)
  /-- DESTAGE_START (R137): The owning head starts destage of an eligible entry, completing a partial grain first. -/
  | destageStart (vol grain : Nat)
  /-- FINGERPRINT_COMPLETE (R275): A digest lane finishes KMAC256 over a grain and passes 24 bytes to the dedup unit. -/
  | fingerprintComplete (job : Nat)
  /-- FINGERPRINT_RESOLVE (R191): The dedup unit takes a fingerprint from the resolution queue and resolves it to an existing or new CID. -/
  | fingerprintResolve
  /-- RESOLVE (R175): The resolving head takes a peer fingerprint and answers within 4 periods. -/
  | resolve (number domain : Nat) (verify through : Bool) (grain : Nat) (fp x : Bytes)
  /-- RESOLVE_ANSWER (R175): The destaging head receives the outcome and CID of a resolution, or pending. -/
  | resolveAnswer (grain cid outcome : Nat)
  /-- RESOLVE_PENDING_TIMEOUT (R175): No final answer 4 periods after pending; the RESOLVE is sent again. -/
  | resolvePendingTimeout (grain : Nat)
  /-- INFLIGHT_WAY_FREE (R178): A way of an in-flight set frees and a waiting grain takes it. -/
  | inflightWayFree
  /-- INDEX_READ_COMPLETE (R192): An index page copy returns; the lookup uses it or reads the next copy. -/
  | indexReadComplete (grain : Nat) (peer sound : Bool)
  /-- MERGE_SWEEP_START (R188): The index delta is half full and a merge sweep starts in Recess. -/
  | mergeSweepStart
  /-- FILTER_REPLACE (R183): The grown filter replaces the old one at a day boundary. -/
  | filterReplace
  /-- REF_DELTA (R176): The owner applies a batch of reference count changes from the peer. -/
  | refDelta (number : Nat) (l : List (Nat × Int))
  /-- PLACE (R293): The owner receives a slot's PSA from the programming head and writes CT_NEW later. -/
  | place (number cid psa gen : Nat) (hasTail : Bool)
  /-- ENCODE_COMPLETE (R221): An encoder lane completes a grain at cycle 2,047 with its tier and mode. -/
  | encodeComplete (job lane : Nat) (faulty : Bool)
  /-- DECODE_COMPLETE (R226): A decoder lane finishes a request and reports its result record. -/
  | decodeComplete (job lane : Nat) (faulty : Option (List (Nat × (Nat × Nat))))
  /-- SLOT_DECRYPT_COMPLETE (R250): A cipher lane verifies a slot's tag and releases it, or zeroises it and retries on the other island. -/
  | slotDecryptComplete (job lane : Nat) (sound : Bool)
  /-- SLOT_ENCRYPT_COMPLETE (R248): A cipher lane encrypts a slot under its domain's current DATA key and counter. -/
  | slotEncryptComplete (job lane : Nat)
  /-- USAGE_GRANT_DRAW (R255): A head draws a grant of 2^20 slots of locker usage over the Corridor. -/
  | usageGrantDraw (locker : Nat)
  /-- HALL_PASS_END (R264): A context's 65,536-byte pass ends and the lane grants another waiting context. -/
  | hallPassEnd (number : Nat) (start : Option CtxStart) (parts : List PassPart) (ended : Bool) (stored : Option Bytes)
  /-- SEGMENT_VERIFY (R260): A receiving lane checks a segment's header, index, length and tag. -/
  | segmentVerify (number : Nat) (start : CtxStart) (auth : StreamAuth) (header : Bytes) (seg : Option SegmentIn)
  /-- STREAM_TAG_FAIL (R263): A stream-mode message fails its tag and every destination byte is zeroised. -/
  | streamTagFail (number : Nat)
  /-- DIGEST_OPEN (R272): Moves a Free digest context to Open with a function and key. -/
  | digestOpen (prefect : Bool) (fn : DigestFn) (handle gen : Nat) (custom : Bytes)
  /-- DIGEST_ABSORB (R272): Adds data to an Open digest context. -/
  | digestAbsorb (number : Nat) (data : Bytes)
  /-- DIGEST_FINALISE (R272): Moves an Open digest context to Final. -/
  | digestFinalise (number : Nat)
  /-- DIGEST_READ (R273): Returns output of a Final context, or zeros and DIGEST_NOT_FINAL. -/
  | digestRead (number length : Nat)
  /-- DIGEST_CLOSE (R272): Returns a context to Free and zeroises it. -/
  | digestClose (number : Nat)
  /-- MR_EXTEND (R276): Prefect extends a measurement register with SHAKE256 of its value and the data. -/
  | mrExtend (faculty : Bool) (reg : Nat) (data : Bytes)
  /-- LOCKER_ROTATE (R243): Raises a locker's generation by 1 from the change bell. -/
  | lockerRotate (b : Binding) (tag : Nat) (peer : PeerAnswer)
  /-- LOCKER_WITHDRAW (R244): Refuses the domain's I/O, destages its writes and erases its keys. -/
  | lockerWithdraw (b : Binding) (tag : Nat) (peer : PeerAnswer)
  /-- LOCKER_RESTORE (R244): Returns a Withdrawn locker to Open with its previous instance and generation. -/
  | lockerRestore (b : Binding) (tag : Nat) (peer : PeerAnswer)
  /-- LOCKER_QUERY (R242): Returns a locker's state, generation and usage. -/
  | lockerQuery (b : Binding) (tag : Nat)
  /-- CHECKPOINT_START (R303): Every 4,096 epochs or at 3/4 tail, a checkpoint writes phase 1 and the dirty pages. -/
  | checkpointStart
  /-- CHECKPOINT_PHASE2 (R303): After the pages and directory are written, CHECKPOINT phase 2 is written. -/
  | checkpointPhase2
  /-- SJ_CHECKPOINT_START (R345): Every 4,096 epochs the stripe journal writes a checkpoint of its groups. -/
  | sjCheckpointStart
  /-- GC_START (R311): A die's Free blocks fall below 8 and garbage collection of a victim starts. -/
  | gcStart (bay die : Nat)
  /-- BLOCK_ERASE_DUE (R307): A Pending-Erase block meets the erase conditions and is erased in Recess. -/
  | blockEraseDue (blk : Nat)
  /-- PSA_RESOLVE_AGAIN (R308): A read that cannot post within 64 periods resolves its PSA again. -/
  | psaResolveAgain (job : Nat)
  /-- RETENTION_ACCRUE (R320): At each day boundary consumed retention is raised by hours times the acceleration factor. -/
  | retentionAccrue
  /-- CALIBRATION_DUE (R319): A block reaches a calibration trigger and is calibrated in Recess. -/
  | calibrationDue (blk page : Nat)
  /-- REFRESH_DUE (R321): A block becomes due for retention refresh and its live slots are moved. -/
  | refreshDue (blk : Nat)
  /-- TIME_TOKEN_WAIT_EXPIRY (R322): The 60 s wait for a time token ends and blocks are triaged. -/
  | timeTokenWaitExpiry
  /-- SPARE_STATE_CHANGE (R316): Spare remaining crosses a threshold and the pool takes a new spare state. -/
  | spareStateChange
  /-- STRIPE_IDLE_CLOSE (R339): A stripe has received no slot for 64 periods and closes early with interim parity. -/
  | stripeIdleClose (group : Nat)
  /-- STRIPE_EXTEND (R341): Data for a group with an interim stripe extends it with new strips and parity. -/
  | stripeExtend (group : Nat)
  /-- GROUP_OPEN (R330): A head opens a stripe group on a qualifying row of a data layout. -/
  | groupOpen (layout : Nat)
  /-- RECONSTRUCTION_COMBINE (R348): A parity group combines returned source ranges into the reconstructed slot. -/
  | reconstructionCombine (job : Nat)
  /-- PATROL_STRIPE (R350): Patrol reads a stripe, recomputes parity and locates a faulty strip on mismatch. -/
  | patrolStripe (strips : List (Nat × Bytes))
  /-- DETENTION_PROBE (R355): At a Recess bell with no probe outstanding, a probe READ is posted to the member. -/
  | detentionProbe (form die block page : Nat)
  /-- DETENTION_TIMEOUT (R355): 30 s pass in Detention without 64 on-time operations and the member becomes Failed. -/
  | detentionTimeout (bay : Nat)
  /-- MISSING_TIMEOUT (R357): A Missing member stays away 30 s and becomes Failed where redundancy allows. -/
  | missingTimeout (bay : Nat)
  /-- REBUILD_BLOCK (R359): Rebuild reconstructs a block of a Failed member onto a replacement and writes BLOCK_SUBST. -/
  | rebuildBlock (sources : List (Nat × List (Nat × Bytes)))
  /-- LOST_SWEEP (R363): A content-table sweep poisons slots that meet a LOST_PAGE within a day. -/
  | lostSweep
  /-- VOLUME_OFFLINE (R358): Missing members exceed a stripe's redundancy and its layout's volumes go offline. -/
  | volumeOffline
  /-- BLP_READ_COMPLETE (R402): A READ completion arrives with the quarters and tag area, and its status is acted on. -/
  | blpReadComplete (d : BlpDone) (data tags : Bytes)
  /-- BLP_PROGRAM_COMPLETE (R401): A PROGRAM completes and frees its program buffer; a failure retires the block. -/
  | blpProgramComplete (d : BlpDone)
  /-- BLP_ERASE_COMPLETE (R307): An ERASE completes and the block becomes Free with its P/E count raised. -/
  | blpEraseComplete (d : BlpDone)
  /-- BLP_SUSPEND_COMPLETE (R398): A diagnostic SUSPEND completes. -/
  | blpSuspendComplete (d : BlpDone)
  /-- BLP_RESUME_COMPLETE (R398): A diagnostic RESUME completes. -/
  | blpResumeComplete (d : BlpDone)
  /-- BLP_STATUS_COMPLETE (R478): A die status record returns and, after a fence report, decides whether the peer holds the form. -/
  | blpStatusComplete (d : BlpDone) (record : Bytes)
  /-- BLP_CALIBRATE_COMPLETE (R404): A CALIBRATE returns offsets, which are stored in the block's ledger entry. -/
  | blpCalibrateComplete (d : BlpDone) (offsets counts : List Nat)
  /-- BLP_TELEMETRY_COMPLETE (R408): A telemetry page returns identity or environment data. -/
  | blpTelemetryComplete (d : BlpDone) (page : Bytes)
  /-- BLP_FENCE_COMPLETE (R412): A FENCE completes with the dies raised, or FENCE_STALE. -/
  | blpFenceComplete (d : BlpDone)
  /-- TELEMETRY_POLL (R409): Every 64 days Damrid reads telemetry page 1 of every module. -/
  | telemetryPoll
  /-- BAY_PRESENCE_DETECT (R416): BAY_PRSNT_N low for 100 ms starts power-up and reset release of the bay. -/
  | bayPresenceDetect (bay : Nat)
  /-- BAY_PERST_RELEASE (R416): 100 ms after power enable, BAY_PERST_N is released and link training begins. -/
  | bayPerstRelease (bay : Nat)
  /-- BAY_LINK_UP (R416): The bay reaches L0; Damrid reads the version and identity and classes the module. -/
  | bayLinkUp (bay width rate version : Nat)
  /-- BAY_LINK_TRAIN_TIMEOUT (R416): The link does not reach L0 within 1 s; it is retried once, then the bay is left unused. -/
  | bayLinkTrainTimeout (bay : Nat)
  /-- BAY_PRESENCE_LOST (R419): Presence lost for 1 ms or link down makes the member Missing and writes off its descriptors. -/
  | bayPresenceLost (bay : Nat) (unplugged : Bool)
  /-- BAY_POWER_OFF_TIMEOUT (R419): Presence lost for 100 ms; BAY_PERST_N and BAY_PWREN are driven to rest. -/
  | bayPowerOffTimeout (bay : Nat)
  /-- BAY_RETRAIN_TIMER (R419): While presence stays and the link is down, the link is retrained every 1 s. -/
  | bayRetrainTimer (bay : Nat)
  /-- BAY_LINK_RETURN (R420): A Missing member's link returns; stale completions are discarded and its forms fenced. -/
  | bayLinkReturn (bay width rate : Nat)
  /-- BAY_ATTENTION (R421): BAY_ATTN_N low for 20 ms; Damrid reads and clears BRG_ATTN_CAUSE and acts. -/
  | bayAttention (bay cause : Nat)
  /-- BAY_LINK_DEGRADED (R422): A bay trains below its loaded width or rate and its shares are scaled. -/
  | bayLinkDegraded (bay width rate : Nat)
  /-- BAY_FULL_RETRAIN (R422): Every 1,024 days a Degraded bay or Corridor is fully retrained in Recess. -/
  | bayFullRetrain (bay : Option Nat) (width rate : Nat)
  /-- WITNESS_CAS_COMPLETE (R480): A witness CAS returns; a failed one on an older value is retried once. -/
  | witnessCasComplete (bay old : Nat)
  /-- CORRIDOR_TRAIN (R467): The Corridor trains with tokens, corrects lane order and polarity, and drops bad lanes. -/
  | corridorTrain (own : Bool) (pool : Bytes) (slot failed : Nat) (reversed : Bool) (inverted : Nat)
  /-- CORRIDOR_REFUSED_RETRY (R469): A refused Corridor link is retried every 1 s. -/
  | corridorRefusedRetry
  /-- CORRIDOR_LINK_DOWN (R471): The Corridor link is lost; mirror messages wait and a retrain starts. -/
  | corridorLinkDown
  /-- HEARTBEAT (R475): A peer heartbeat arrives, resets the miss count, or reports a state that makes this head act. -/
  | heartbeat (day term sheet state dirtyMib degradations : Nat)
  /-- HEARTBEAT_MISSED (R475): No heartbeat for day D by D:0512; the third miss starts an arbitration round. -/
  | heartbeatMissed
  /-- ARBITRATION_COUNT (R481): At the bell after the round the head counts witnesses and continues or fences itself. -/
  | arbitrationCount
  /-- ARBITRATION_RETRY (R484): An undecided head starts a new round at period 0512 of every later day. -/
  | arbitrationRetry
  /-- FAILOVER_REPLAY (R486): Under the Peer-absent sheet the survivor replays the peer's tail and takes its CIDs and halves. -/
  | failoverReplay
  /-- FAILOVER_TAKEOVER (R486): After replay the survivor takes the peer's ANA groups and executes the held commands. -/
  | failoverTakeover
  /-- BELL_SYNC (R474): The leader echoes BELL_SYNC, or the follower computes its offset, trims its period and compares day counts. -/
  | bellSync (day sendCycle echoed here : Nat)
  /-- SHEET_TRIGGER (R81): A head learns of a degradation or return and the switch day, and answers. -/
  | sheetTrigger (number kind action index detected switchDay : Nat)
  /-- SNAP_FENCE (R427): Both heads agree the fence bell of a snapshot group and record N for each volume. -/
  | snapFence (number tag bell : Nat) (roots : List Nat)
  /-- TT_IMAGE (R73): A chunk of a timetable image arrives; at the last chunk the image is checked and TT_VERDICT sent. -/
  | ttImage (number term offset : Nat) (bytes : Bytes)
  /-- TT_VERDICT (R73): The receiving head gets the peer's load check result for a staged image. -/
  | ttVerdict (term : Nat) (status : Status) (detail : Bytes)
  /-- SB_CHANGE (R380): The superblock writer receives the other head's change and makes the write. -/
  | sbChange (number offset : Nat) (bytes : Bytes)
  /-- ANA_MOVE (R290): The peer takes a group's ownership and fetch sequence numbers at an epoch boundary. -/
  | anaMove (number group owner boundary : Nat) (next : List (Nat × Nat))
  /-- HELLO (R491): Heads exchange and verify identity records at the start of a handover. -/
  | hello (number : Nat) (record : Bytes)
  /-- RELEASE_NOTICE (R477): The peer presumes the releasing head down and fails over. -/
  | releaseNotice (time : Nat)
  /-- RESYNC_DONE (R491): The joiner reports its copy complete and both heads switch to the primary sheet. -/
  | resyncDone (lastNumber epoch head seq : Nat)
  /-- JOURNAL (R297): The peer appends mirrored journal records to its tail mirror and answers JOURNAL_ACK. -/
  | journal (number : Nat) (l : List Machine.JRec)
  /-- JOURNAL_ACK (R297): The sending head records acknowledgement of its journal records. -/
  | journalAck (number : Nat)
  /-- PREFECT_RECORD (R519): A Prefect receives a pair-channel record: handshake, root key, locker or seal change. -/
  | prefectRecord (number : Nat) (record : PairRecord)
  /-- FORBIDDEN_PEER_MESSAGE (R640): A message from a peer presumed down is dropped unanswered. -/
  | forbiddenPeerMessage
  /-- FED_HEARTBEAT_SEND (R495): Every 64 days each chip sends a UDP heartbeat to every roster chip. -/
  | fedHeartbeatSend
  /-- FED_HEARTBEAT (R495): A chip receives a federation heartbeat and asks for a newer roster if named. -/
  | fedHeartbeat (chip state rosterNo : Nat) (token : Bytes)
  /-- FED_UNREACHABLE (R495): Nothing has arrived from a chip for 8 intervals and it is marked unreachable. -/
  | fedUnreachable (chip : Nat)
  /-- HEAD_ADOPT (R491): Accepts a replacement head by identity digest. -/
  | headAdopt (b : Binding) (tag : Nat)
  /-- HEAD_RELEASE (R490): Moves the head's groups to the peer, sends RELEASE_NOTICE and self-fences. -/
  | headRelease (b : Binding) (tag : Nat)
  /-- FED_ROSTER_LOAD (R494): Adopts and forwards a signed roster with a higher number naming this chip. -/
  | fedRosterLoad (b : Binding) (tag : Nat)
  /-- FED_TIME_TOKEN (R496): Verifies a time token, applies it to the trusted clock and forwards it. -/
  | fedTimeToken (b : Binding) (tag : Nat)
  /-- FED_QUERY (R499): Returns the roster and roll call and arbitration state. -/
  | fedQuery (b : Binding) (tag : Nat)
  /-- CLOCK_RECORD_WRITE (R517): Every 3,600 s of trusted clock Prefect writes a sealed clock record. -/
  | clockRecordWrite
  /-- LOCKSTEP_MISMATCH (R501): The lockstep cores differ; both stop and Prefect restarts through the ROM handover routine. -/
  | lockstepMismatch
  /-- KEY_ENROLL (R505): Burns the digest of a key record into an empty slot and extends MR1. -/
  | keyEnroll (b : Binding) (tag : Nat)
  /-- KEY_REVOKE (R506): Burns a slot's revoke bit unless it is the last OEM slot or in use. -/
  | keyRevoke (b : Binding) (tag : Nat)
  /-- QUOTE (R523): Returns the selected measurement registers signed by the identity keys. -/
  | quote (b : Binding) (tag : Nat)
  /-- MR_READ (R523): Returns the selected measurement registers unsigned. -/
  | mrRead (b : Binding) (tag : Nat)
  /-- IDENTITY_GET (R530): Returns the chip's identity record. -/
  | identityGet (b : Binding) (tag : Nat)
  /-- ESCROW_EXPORT (R522): On the second of two signed packets, produces an escrow package of the root key and lockers. -/
  | escrowExport (b : Binding) (tag : Nat)
  /-- ROOT_IMPORT (R522): Imports a root key package into a head with no bound pool. -/
  | rootImport (b : Binding) (tag : Nat) (copy : Bytes) (media : Machine.PoolMedia)
  /-- DECOMMISSION (R530): Burns the Decommissioned lifecycle state. -/
  | decommission (b : Binding) (tag : Nat)
  /-- FW_DOWNLOAD (R511): Writes a Faculty image piece to the slot not running and checks it after the last piece. -/
  | fwDownload (b : Binding) (tag : Nat)
  /-- FW_ACTIVATE (R525): Activates the downloaded Faculty image cluster by cluster. -/
  | fwActivate (b : Binding) (tag : Nat)
  /-- CLUSTER_REPORT (R525): Faculty reports a cluster empty or healthy during activation. -/
  | clusterReport (island : Nat) (healthy : Bool)
  /-- CLUSTER_REPORT_TIMEOUT (R526): A cluster is not emptied within 50 ms or healthy within 100 ms and activation rolls back. -/
  | clusterReportTimeout (island : Nat)
  /-- PFW_DOWNLOAD (R528): Writes a checked Prefect image to the slot not running. -/
  | pfwDownload (b : Binding) (tag : Nat)
  /-- PFW_ACTIVATE (R528): Hands Prefect over to the new image through the ROM handover routine. -/
  | pfwActivate (b : Binding) (tag : Nat)
  /-- FW_QUERY (R530): Returns slot headers, activation counts and counters. -/
  | fwQuery (b : Binding) (tag : Nat)
  /-- CPI_SUBMIT (R541): SUBMIT takes the packet in the CPI request area and checks it. -/
  | cpiSubmit (packet payload : Bytes) (peerInflight : Nat)
  /-- CPI_ACK (R534): ACK frees the CPI reply area and the next ready reply takes its place. -/
  | cpiAck
  /-- PFM_SUBMIT (R541): SUBMIT takes the packet in the PFM request area for Prefect. -/
  | pfmSubmit (packet payload : Bytes) (peerInflight : Nat)
  /-- PFM_ACK (R534): ACK frees the PFM reply area. -/
  | pfmAck
  /-- MCTP_MESSAGE (R535): An MCTP message is reassembled into a control packet, or dropped when too long. -/
  | mctpMessage (endpoint length : Nat) (body : Bytes) (peerInflight : Nat)
  /-- PIECE_TIMEOUT (R537): No piece of an object arrives for 60 s and the object is discarded. -/
  | pieceTimeout (b : Binding)
  /-- REPLY_RETENTION_EXPIRY (R534): A reply not fetched within 60 s is discarded. -/
  | replyRetentionExpiry (b : Binding) (tag : Nat)
  /-- CLAIM_BINDING_TIMEOUT (R548): A claim is released 60 s after its binding is lost. -/
  | claimBindingTimeout (b : Binding)
  /-- SYS_INFO (R549): Returns identity, slot, states and pool identity. -/
  | sysInfo (b : Binding) (tag : Nat)
  /-- SYS_PORT_MODE (R87): Changes a host port island's mode through a per-island reset. -/
  | sysPortMode (b : Binding) (tag : Nat)
  /-- SYS_BINDING (R96): Sets or removes a host NQN or MCTP binding with its class and weight. -/
  | sysBinding (b : Binding) (tag : Nat) (peer : PeerAnswer)
  /-- SYS_SUBSYSTEM (R89): Creates or deletes an NVM subsystem. -/
  | sysSubsystem (b : Binding) (tag : Nat) (peer : PeerAnswer)
  /-- SYS_DATA_TIMEOUT (R102): Sets the Data-In timeout on both heads. -/
  | sysDataTimeout (b : Binding) (tag : Nat) (peer : PeerAnswer)
  /-- SYS_HOLDUP_CFG (R146): Sets the hold-up values and schedules a measurement within 60 s. -/
  | sysHoldupCfg (b : Binding) (tag : Nat)
  /-- SYS_HOLDUP_MEASURE (R148): Starts a hold-up measurement on operator request. -/
  | sysHoldupMeasure (b : Binding) (tag : Nat) (sense : Int)
  /-- HOLDUP_MEASURE_SCHEDULED (R148): Every 21,600 s at a day boundary a hold-up measurement starts. -/
  | holdupMeasureScheduled (sense : Int)
  /-- HOLDUP_MEASURE_COMPLETE (R147): The 20 ms test load ends; ESR, C and energy are computed and the dirty limit set. -/
  | holdupMeasureComplete (va : List Int) (v10 : Int) (v5 v20 : List Int) (isOpen : Bool)
  /-- HOLDUP_RETRY_TIMER (R149): 60 s after an invalid measurement or reversed polarity, the bank is measured again. -/
  | holdupRetryTimer (sense : Int)
  /-- SYS_CLAIMS (R548): Lists the claims held. -/
  | sysClaims (b : Binding) (tag : Nat)
  /-- SYS_ISLAND_RESET (R610): Resets a host port island or the Corridor island. -/
  | sysIslandReset (b : Binding) (tag : Nat)
  /-- CP_PAYLOAD_FETCH (R549): Returns reply payload bytes for a tag over MCTP or a mailbox. -/
  | cpPayloadFetch (b : Binding) (tag : Nat)
  /-- POOL_FORM (R549): Forms a pool on Unformed modules, draws the root key and writes the superblock. -/
  | poolForm (b : Binding) (tag : Nat) (peer : PeerAnswer)
  /-- POOL_EXTEND (R417): Adds modules as members from the first term that names them. -/
  | poolExtend (b : Binding) (tag : Nat) (peer : PeerAnswer)
  /-- MEMBER_FAIL (R357): Orders a member Failed. -/
  | memberFail (b : Binding) (tag : Nat) (peer : PeerAnswer)
  /-- BAY_WIDTH_SET (R391): Sets the width of an empty quad of bays. -/
  | bayWidthSet (b : Binding) (tag : Nat)
  /-- BAY_POWER (R421): Powers a bay off or on. -/
  | bayPower (b : Binding) (tag : Nat)
  /-- POOL_GROW_FILTER (R183): Raises q by 1 and rebuilds the larger filter in Recess. -/
  | poolGrowFilter (b : Binding) (tag : Nat) (peer : PeerAnswer)
  /-- POOL_GROW_INDEX (R190): Raises n by 1 and splits each bucket in Recess. -/
  | poolGrowIndex (b : Binding) (tag : Nat) (peer : PeerAnswer)
  /-- POOL_QUERY (R549): Returns the newest superblock and each bay's member state. -/
  | poolQuery (b : Binding) (tag : Nat)
  /-- POOL_ERASE (R549): Destroys the root key and lockers and erases every superblock ring. -/
  | poolErase (b : Binding) (tag : Nat) (peer : PeerAnswer)
  /-- MODULE_UNFORM (R418): Erases a module's superblock ring and makes it Unformed. -/
  | moduleUnform (b : Binding) (tag : Nat)
  /-- VOL_CREATE (R549): Creates a volume with its namespace, group, domain and layout. -/
  | volCreate (b : Binding) (tag : Nat) (peer : PeerAnswer)
  /-- VOL_DELETE (R434): Deletes a volume, clone or replica, leaving its snapshots. -/
  | volDelete (b : Binding) (tag : Nat) (peer : PeerAnswer)
  /-- VOL_RESIZE (R549): Changes a root's size, unmapping grains beyond a smaller size. -/
  | volResize (b : Binding) (tag : Nat) (peer : PeerAnswer)
  /-- VOL_SET (R549): Sets a root's service class and quota from the next bell. -/
  | volSet (b : Binding) (tag : Nat) (peer : PeerAnswer)
  /-- ANA_MOVE_GROUP (R119): Moves an ANA group to the other head. -/
  | anaMoveGroup (b : Binding) (tag : Nat)
  /-- DOMAIN_CREATE (R549): Creates a dedup domain and binds its locker, with optional key adoption. -/
  | domainCreate (b : Binding) (tag : Nat) (peer : PeerAnswer)
  /-- DOMAIN_DELETE (R166): Deletes an empty domain and destroys its locker instance. -/
  | domainDelete (b : Binding) (tag : Nat) (peer : PeerAnswer)
  /-- DOMAIN_VERIFY (R194): Turns verify mode on or off for a domain. -/
  | domainVerify (b : Binding) (tag : Nat) (peer : PeerAnswer)
  /-- VOL_QUERY (R549): Returns a root record. -/
  | volQuery (b : Binding) (tag : Nat)
  /-- SNAP_CREATE (R427): Cuts a consistency group of snapshots at a fence bell. -/
  | snapCreate (b : Binding) (tag : Nat)
  /-- SNAPSHOT_SETTLE (R429): At the epoch boundary after all fenced versions are durable, the snapshots take their roots and the reply is sent. -/
  | snapshotSettle (tag : Nat) (peerReady : Bool)
  /-- SNAP_DELETE (R437): Deletes a snapshot once Prefect issues its delete ticket. -/
  | snapDelete (b : Binding) (tag : Nat) (peer : PeerAnswer) (peerClock : Nat)
  /-- SNAP_SEAL (R436): Seals a snapshot until a retention time, or raises that time. -/
  | snapSeal (b : Binding) (tag : Nat) (peer : PeerAnswer)
  /-- CLONE_CREATE (R432): Creates a writable clone of a settled snapshot. -/
  | cloneCreate (b : Binding) (tag : Nat) (peer : PeerAnswer)
  /-- SNAP_QUERY (R465): Returns a root record and its seal entry. -/
  | snapQuery (b : Binding) (tag : Nat)
  /-- REPL_PARTNER_ADD (R442): Enrols a replication partner by chip index and identity digest. -/
  | replPartnerAdd (b : Binding) (tag : Nat)
  /-- REPL_PARTNER_REMOVE (R465): Removes a partner and closes its sessions. -/
  | replPartnerRemove (b : Binding) (tag : Nat)
  /-- REPL_SESSION_OPEN (R443): Opens a replication session and runs its handshake. -/
  | replSessionOpen (b : Binding) (tag : Nat)
  /-- REPL_SESSION_CLOSE (R465): Closes a session after its open transfers end. -/
  | replSessionClose (b : Binding) (tag : Nat)
  /-- REPL_ASYNC_SEND (R451): Sends the difference between two snapshots to a replica. -/
  | replAsyncSend (b : Binding) (tag : Nat)
  /-- REPL_SYNC_SET (R457): Binds, ends or sets a synchronous replication relation. -/
  | replSyncSet (b : Binding) (tag : Nat)
  /-- MIGRATE_EXPORT (R462): Transfers a root's lineage oldest first with end-to-end verification. -/
  | migrateExport (b : Binding) (tag : Nat)
  /-- MIGRATE_CUTOVER (R463): Holds fetch, sends a final full-manifest transfer and moves host paths on success. -/
  | migrateCutover (b : Binding) (tag : Nat)
  /-- REPL_QUERY (R465): Returns session, transfer and relation state. -/
  | replQuery (b : Binding) (tag : Nat)
  /-- OFFER (R445): The acceptor receives an OFFER and answers ACCEPT. -/
  | offer (port : Nat) (message : Bytes)
  /-- ACCEPT (R445): The offerer receives ACCEPT, derives the session secret and sends PROVE. -/
  | accept (reg : Nat) (message : Bytes)
  /-- PROVE (R446): A PROVE is verified against the partner list and answered or the session opens. -/
  | prove (reg : Nat) (message : Bytes)
  /-- REFUSE (R444): The other end refuses the handshake and closes the connection. -/
  | refuse (reg status : Nat)
  /-- HANDSHAKE_TIMEOUT (R444): A handshake message does not arrive within 2 s and the session is refused. -/
  | handshakeTimeout (reg : Nat)
  /-- SESSION_REKEY (R448): After 86,400 s or 2^40 bytes a session is replaced by a new handshake. -/
  | sessionRekey (reg : Nat)
  /-- SEGMENT_SEND_TIMER (R449): A record has waited 1 period and its segment is padded and sent. -/
  | segmentSendTimer (reg : Nat)
  /-- BEGIN (R451): The receiver starts a transfer or aborts with REPL_BASE_MISSING. -/
  | beginTransfer (session transfer root base snap fenceEpoch size domain flags until_ : Nat) (pool : Bytes)
  /-- FINGERPRINTS (R452): The receiver applies entries to the replica's live tree and builds WANTs. -/
  | fingerprints (session transfer : Nat) (entries : Bytes)
  /-- WANT (R451): The source sends a GRAIN for each named index. -/
  | want (session transfer : Nat) (grains : List Nat)
  /-- GRAIN (R452): The receiver decodes and stages a replicated grain as a version of the replica. -/
  | grain (session transfer grain tier : Nat) (slot tail : Bytes)
  /-- END (R453): After all versions are durable the receiver snapshots the replica and sends COMMIT. -/
  | endTransfer (session transfer entries : Nat) (digest : Bytes)
  /-- REPL_COMMIT (R453): The source receives the transfer's COMMIT record and completes the transfer. -/
  | replCommit (session transfer status snapshot : Nat) (digest : Bytes)
  /-- SYNC_WRITE (R458): The receiver stages and commits a synchronous write and answers SYNC_ACK. -/
  | syncWrite (session root count seq lba : Nat) (blocks pi : Bytes)
  /-- SYNC_ACK (R457): The source completes writes up to the acknowledged sequence once committed locally. -/
  | syncAck (session root seq : Nat)
  /-- SYNC_ACK_TIMEOUT (R460): A SYNC_ACK is missing past the timeout and the relation fractures or stalls. -/
  | syncAckTimeout (session root : Nat)
  /-- SYNC_FENCE (R459): The receiver snapshots the replica excluding listed writes and answers COMMIT. -/
  | syncFence (session snapshot bell : Nat) (listed : List (Nat × Nat))
  /-- SYNC_CHECKPOINT (R459): Every 60 s the source cuts a sync checkpoint snapshot and sends SYNC_FENCE. -/
  | syncCheckpoint (session : Nat)
  /-- FRACTURE_RESUME_TIMER (R461): Every 60 s a fractured relation tries an asynchronous catch-up transfer. -/
  | fractureResumeTimer (session : Nat)
  /-- MIGRATE_REPEAT_TIMER (R462): Every 60 s a migration sends a transfer from a fresh snapshot. -/
  | migrateRepeatTimer (session root : Nat)
  /-- KEY_ADOPT (R456): The receiver unwraps and checks the adopted fingerprint key. -/
  | keyAdopt (session domain : Nat) (wrapped check : Bytes)
  /-- REPL_ABORT (R450): A transfer is aborted by the other end and fails. -/
  | replAbort (session transfer status : Nat) (detail : Bytes)
  /-- DIAG_DIE_OP (R549): Posts a diagnostic die operation at a Recess bell. -/
  | diagDieOp (b : Binding) (tag : Nat)
  /-- DIAG_LANE_TEST (R529): Runs a lane's known-answer tests on demand. -/
  | diagLaneTest (b : Binding) (tag : Nat)
  /-- DIAG_LANE_GROUP (R81): Takes a lane group out or in by planned removal. -/
  | diagLaneGroup (b : Binding) (tag : Nat)
  /-- DIAG_DRAM_CHANNEL (R578): Retrains, evacuates or returns a DRAM channel. -/
  | diagDramChannel (b : Binding) (tag : Nat)
  /-- DIAG_BAY_GROUP (R423): Takes a bay port group out or in. -/
  | diagBayGroup (b : Binding) (tag : Nat)
  /-- DIAG_DUMP (R549): Dumps a diagnostic source into a capture buffer. -/
  | diagDump (b : Binding) (tag : Nat) (dump : Bytes)
  /-- DIAG_PIN (R632): Drives, releases or reads a protected bank pin. -/
  | diagPin (b : Binding) (tag : Nat)
  /-- DIAG_CAPTURE (R549): Captures counters and events over a number of days. -/
  | diagCapture (b : Binding) (tag : Nat)
  /-- DIARY_READ (R587): Returns Diary records from a cursor. -/
  | diaryRead (b : Binding) (tag : Nat)
  /-- DIARY_FREEZE (R585): Freezes or unfreezes the Diary. -/
  | diaryFreeze (b : Binding) (tag : Nat)
  /-- DIARY_CTRL_FREEZE_WRITE (R585): A write of DIARY_CTRL.FREEZE freezes or thaws the Diary. -/
  | diaryCtrlFreezeWrite (bit : Bool)
  /-- DIARY_FREEZE_TIMEOUT (R585): A freeze ends 60 s after it was set and the pocket is written to the ring. -/
  | diaryFreezeTimeout
  /-- DIARY_EVENT (R583): An event reaches the Diary intake and becomes a record or a repeat. -/
  | diaryEvent (code island arg : Nat)
  /-- TALLY_READ (R592): Returns samples of a block's counters from the newest sweep. -/
  | tallyRead (b : Binding) (tag : Nat)
  /-- TALLY_CONFIG (R589): Sets a programmable counter's event and mode and claims it. -/
  | tallyConfig (b : Binding) (tag : Nat)
  /-- TALLY_SWEEP (R591): Every 4 periods the Tally reads all 320 counters. -/
  | tallySweep
  /-- BW_WINDOW (R594): Sets up a bandwidth window on a port with a timer. -/
  | bwWindow (b : Binding) (tag : Nat)
  /-- BW_WINDOW_START (R594): A bandwidth window starts counting at a day boundary. -/
  | bwWindowStart (timer : Nat)
  /-- BW_WINDOW_END (R594): A bandwidth window ends, stores its results and releases its claim. -/
  | bwWindowEnd (timer bytesIn bytesOut : Nat)
  /-- REPORT_CARD (R595): Returns the report card. -/
  | reportCard (b : Binding) (tag : Nat)
  /-- EARLY_WARNING_EVAL (R597): Every 3,600 s the early-warning conditions are evaluated and bits set or cleared. -/
  | earlyWarningEval
  /-- HISTOGRAM_MINUTE (R596): Each minute the temperature histogram bins are counted. -/
  | histogramMinute (chip : Int) (modules : List (Nat × Int))
  /-- DRAM_REFRESH_TICK (R567): Each tREFI a rank accrues refresh debt; at debt 8 refreshes are issued back to back. -/
  | dramRefreshTick (channel rank sub : Nat)
  /-- DIMM_TEMP_READ (R568): Every 64 periods each DIMM temperature sets the refresh regime. -/
  | dimmTempRead (channel : Nat) (temp : Int)
  /-- DRAM_SELF_REFRESH_IDLE (R569): A channel with no window and no request for SR_IDLE enters self-refresh. -/
  | dramSelfRefreshIdle (channel : Nat)
  /-- DRAM_CORRECTED (R571): A corrected burst is written back and counted against its device. -/
  | dramCorrected (channel rank device : Nat)
  /-- DRAM_UNCORRECTABLE (R572): An uncorrectable burst is poisoned and its requester acts as Table 16-5 gives. -/
  | dramUncorrectable (channel hpa : Nat) (data : DramData)
  /-- DRAM_SCRUB (R571): Scrub reads each channel's DIMM once in every 86,400 s. -/
  | dramScrub (channel : Nat)
  /-- DRAM_CHANNEL_OUT (R573): A channel meets an out-of-service cause and is evacuated and retrained. -/
  | dramChannelOut (channel : Nat)
  /-- DRAM_CHANNEL_DEAD (R574): A channel stops answering before evacuation and the head fences itself or vaults. -/
  | dramChannelDead (channel : Nat)
  /-- DRAM_EVAC_COPY_DONE (R578): An evacuation or copy-home phase of a channel completes. -/
  | dramEvacCopyDone (channel : Nat)
  /-- DRAM_TRAINING_DONE (R575): A channel finishes training at start-up or retraining. -/
  | dramTrainingDone (channel : Nat) (pass : Bool)
  /-- PIN_FAULT_DETECT (R631): The pin monitor classes a pin open, shorted to ground or shorted high. -/
  | pinFaultDetect (pin : Nat) (kind : PinFaultKind)
  /-- PIN_OPEN_TEST (R631): Once per day each input and high-impedance output is tested with internal pulls. -/
  | pinOpenTest (pin : Nat) (follows edge : Bool)
  /-- PIN_FAULT_CLEAR (R631): A fault clears after 64 consecutive sound tests. -/
  | pinFaultClear (pin : Nat)
  /-- FP_LOCATE (R630): FP_LOCATE_N low for 50 ms toggles the locate LED. -/
  | fpLocate
  /-- SMBUS_READ (R627): An SMBus byte read returns temperature, status or hottest island. -/
  | smbusRead (reg : Nat)
  /-- TAP_BYPASS (R625): JTAG BYPASS instruction. -/
  | tapBypass
  /-- TAP_IDCODE (R625): JTAG IDCODE instruction returns 0x0B2D_6A3B. -/
  | tapIdcode
  /-- TAP_SAMPLE_PRELOAD (R625): JTAG SAMPLE/PRELOAD instruction. -/
  | tapSamplePreload
  /-- TAP_EXTEST (R625): EXTEST acts only while COLD_RST_N is low, else as BYPASS. -/
  | tapExtest
  /-- TAP_EXTEST_PULSE (R625): EXTEST_PULSE acts only while COLD_RST_N is low. -/
  | tapExtestPulse
  /-- TAP_EXTEST_TRAIN (R625): EXTEST_TRAIN acts only while COLD_RST_N is low. -/
  | tapExtestTrain
  /-- TAP_CLAMP (R625): CLAMP acts only while COLD_RST_N is low. -/
  | tapClamp
  /-- TAP_HIGHZ (R625): HIGHZ acts only while COLD_RST_N is low. -/
  | tapHighz
  /-- REGISTER_WRITE (R16): A write to a register with no row of its own behaves as its access type gives. -/
  | registerWrite (window offset : Nat) (value : Word64)
  /-- CNP_RECEIVED (R88): A RoCEv2 CNP arrives on a queue pair and Damrid reduces that QP's rate. -/
  | cnpReceived (cntlid qid : Nat)
  /-- ROSTER_RECEIVED (R494): A roster forwarded by another chip arrives and is adopted under the same checks as FED_ROSTER_LOAD. -/
  | rosterReceived (roster : Bytes)
  /-- KEY_ADOPT_WAIT_EXPIRY (R549): DOMAIN_CREATE with key adoption has waited 60 s without KEY_ADOPT and fails with ADOPT_FAIL. -/
  | keyAdoptWaitExpiry (domain : Nat)
  /-- DELETE_TICKET_HOLD_END (R441): 604,800 s of oscillator time after a clock step or large slew, the delete ticket hold ends and FTL_SEAL.STEP_HOLD clears. -/
  | deleteTicketHoldEnd
  /-- PIN_DRIVE_RESTORED (R631): A pin whose driver was made high-impedance for a short high reads 3.6 V or less for 10 µs and its drive is restored. -/
  | pinDriveRestored (pin : Nat)
  /-- MGMT_PERST (R622): MGMT_PERST_N is asserted and resets only the management endpoint logic of PD02. -/
  | mgmtPerst
  /-- CORRIDOR_MESSAGE_DROP (R472): A Corridor message that fails its CRC32C, or is of a reserved family or type, is dropped, with a Diary event for a reserved one. -/
  | corridorMessageDrop (kind : Option (Nat × Nat))
  deriving DecidableEq, Repr

end Sys2Proof
end

