-- ==== Sys2Proof/Machine/Bits.lean ====
section
/-! DEFINITION. Bit fields, little-endian fields, byte strings and keyed lists: the plain data
operations every other file uses (R10, R11). -/

namespace Sys2Proof

/-- Bits [hi:lo] of a number (R10). -/
def bitField (hi lo v : Nat) : Nat := v / 2 ^ lo % 2 ^ (hi - lo + 1)

/-- Bit n of a number (R10). -/
def bitAt (n v : Nat) : Bool := v / 2 ^ n % 2 == 1

/-- A Bool as the value of a one-bit field. -/
def flagBit (b : Bool) : Nat := if b then 1 else 0

/-- A number with bit n set. -/
def setBit (n v : Nat) : Nat := if bitAt n v then v else v + 2 ^ n

/-- A number with bit n clear. -/
def clearBit (n v : Nat) : Nat := if bitAt n v then v - 2 ^ n else v

/-- The bit mask of a list of bit numbers. -/
def maskOf (l : List Nat) : Nat := l.foldl (fun m n => setBit n m) 0

/-- The numbers below n whose bit is set in a mask, ascending. -/
def bitsOf (n mask : Nat) : List Nat := (List.range n).filter (fun i => bitAt i mask)

/-- The little-endian number of a byte string (R11). -/
def leNat : Bytes → Nat
  | [] => 0
  | b :: r => b.toNat + 256 * leNat r

/-- The big-endian number of a byte string, for fields of published standards (R11). -/
def beNat (b : Bytes) : Nat := b.foldl (fun a x => a * 256 + x.toNat) 0

/-- n bytes of a number, little-endian (R11). -/
def leBytes : (n v : Nat) → Bytes
  | 0, _ => []
  | n + 1, v => BitVec.ofNat 8 v :: leBytes n (v / 256)

/-- n bytes of a number, big-endian. -/
def beBytes (n v : Nat) : Bytes := (leBytes n v).reverse

/-- n bytes of a structure from an offset; shorter where the structure ends. -/
def slice (b : Bytes) (off n : Nat) : Bytes := (b.drop off).take n

/-- The little-endian field of n bytes at an offset. -/
def fieldAt (b : Bytes) (off n : Nat) : Nat := leNat (slice b off n)

/-- n zero bytes: reserved fields of emitted structures (R14). -/
def zeros (n : Nat) : Bytes := List.replicate n 0

/-- A byte string cut or zero-padded to n bytes. -/
def fitBytes (n : Nat) (b : Bytes) : Bytes := b.take n ++ zeros (n - b.length)

/-- Whether every byte is zero. -/
def allZero (b : Bytes) : Bool := b.all (fun x => x == 0)

/-- The bytes of an ASCII text. -/
def ascii (t : String) : Bytes := t.toList.map (fun c => BitVec.ofNat 8 c.toNat)

/-- Byte strings combined byte by byte with exclusive or, over the length of the first. -/
def xorBytes (a b : Bytes) : Bytes := List.zipWith (fun x y => x ^^^ y) a b

/-- n rounded up to a multiple of m. -/
def roundUp (n m : Nat) : Nat := (n + m - 1) / m * m

/-- n divided by m, rounded up. -/
def ceilDiv (n m : Nat) : Nat := (n + m - 1) / m

/-- The sum of a list of numbers. -/
def sumNat (l : List Nat) : Nat := l.foldl (· + ·) 0

/-- A signed number in two's complement of n bits. -/
def signedBits (n : Nat) (v : Int) : Nat := (v % (2 ^ n : Int)).toNat

/-- The value kept under a key of a keyed list. -/
def getKey {α : Type} (k : Nat) : List (Nat × α) → Option α
  | [] => none
  | (j, a) :: r => if j = k then some a else getKey k r

/-- A keyed list with the value of a key set; keys stay ascending. -/
def putKey {α : Type} (k : Nat) (a : α) : List (Nat × α) → List (Nat × α)
  | [] => [(k, a)]
  | (j, b) :: r =>
    if j = k then (k, a) :: r else if k < j then (k, a) :: (j, b) :: r else (j, b) :: putKey k a r

/-- A keyed list without a key. -/
def delKey {α : Type} (k : Nat) (l : List (Nat × α)) : List (Nat × α) := l.filter (fun p => p.1 ≠ k)

/-- The first element of a list that meets a test, changed in place. -/
def modFirst {α : Type} (p : α → Bool) (f : α → α) : List α → List α
  | [] => []
  | a :: r => if p a then f a :: r else a :: modFirst p f r

/-- A list with the first element that meets a test removed. -/
def dropFirst {α : Type} (p : α → Bool) : List α → List α
  | [] => []
  | a :: r => if p a then r else a :: dropFirst p r

/-- An element put before the first element of a list that it is at or before. -/
def insertBy {α : Type} (le : α → α → Bool) (a : α) : List α → List α
  | [] => [a]
  | b :: r => if le a b then a :: b :: r else b :: insertBy le a r

/-- A list in the order of a comparison; elements that compare equal keep their order. -/
def sortBy {α : Type} (le : α → α → Bool) (l : List α) : List α := l.foldr (insertBy le) []

/-- The list with element i replaced. -/
def setAt {α : Type} (i : Nat) (a : α) (l : List α) : List α := l.set i a

end Sys2Proof
end

