-- ==== Sys2Proof/Machine/Gcm.lean ====
section
/-! DEFINITION. AES-256, its GCM mode, AES-KW key wrap (FIPS 197, NIST SP 800-38D, RFC 3394), and the field
of the parity code (R248, R267, R325, R326). -/

namespace Sys2Proof.Machine

/-! ### Fields of bytes -/

/-- Multiplication in GF(2^8) modulo x^8 and the low bits of a polynomial. -/
def gfMulLoop (poly : Byte) : Nat → Byte → Byte → Byte → Byte
  | 0, _, _, acc => acc
  | n + 1, a, b, acc =>
    gfMulLoop poly n (if a.msb then (a <<< 1) ^^^ poly else a <<< 1) (b >>> 1)
      (if b.getLsbD 0 then acc ^^^ a else acc)

/-- The product of two bytes modulo a polynomial. -/
def gfMul (poly a b : Byte) : Byte := gfMulLoop poly 8 a b 0

/-- A byte to a power. -/
def gfPow (poly a : Byte) : Nat → Byte
  | 0 => 1
  | n + 1 => gfMul poly (gfPow poly a n) a

/-- The product of n squares in a row: a^2 · a^4 · … -/
def gfSquares (poly : Byte) : Nat → Byte → Byte → Byte
  | 0, _, acc => acc
  | n + 1, a, acc => gfSquares poly n (gfMul poly a a) (gfMul poly acc (gfMul poly a a))

/-- The inverse of a byte, its power 254; 0 for 0. -/
def gfInv (poly a : Byte) : Byte := gfSquares poly 7 a 1

/-- Multiplication of the parity code: x^8 + x^4 + x^3 + x^2 + 1 (R325). -/
def parityMul (a b : Byte) : Byte := gfMul 0x1D a b

/-- The coefficient c(j, i) of parity strip j and data strip i (R326). -/
def parityCoef (j i : Nat) : Byte := gfInv 0x1D (BitVec.ofNat 8 j ^^^ BitVec.ofNat 8 (4 + i))

/-- A strip scaled by a coefficient. -/
def scale (c : Byte) (b : Bytes) : Bytes := b.map (parityMul c)

/-- Parity strip j of the written data strips, the first of them at position `first` (R326, R340). -/
def paritySum (j first n : Nat) (strips : List Bytes) : Bytes :=
  (List.range strips.length).foldl (fun acc i =>
    xorBytes acc (fitBytes n (scale (parityCoef j (first + i)) (strips.getD i [])))) (zeros n)

/-! ### AES-256 -/

/-- The S-box of a byte: the inverse in the field of AES, then its affine map. -/
def aesSub (x : Byte) : Byte :=
  let b := gfInv 0x1B x
  b ^^^ b.rotateLeft 1 ^^^ b.rotateLeft 2 ^^^ b.rotateLeft 3 ^^^ b.rotateLeft 4 ^^^ 0x63

/-- The S-box as a table. -/
def aesBox : Array Byte := ((List.range 256).map (fun i => aesSub (BitVec.ofNat 8 i))).toArray

/-- The inverse S-box as a table. -/
def aesUnbox : Array Byte :=
  (List.range 256).foldl (fun (t : Array Byte) i => t.set! (aesBox.getD i 0).toNat (BitVec.ofNat 8 i))
    (Array.replicate 256 0)

/-- A word of the key schedule from the last one and the one eight back. -/
def aesWord (i : Nat) (prev back : Bytes) : Bytes :=
  let sub := fun (w : Bytes) => w.map (fun b => aesBox.getD b.toNat 0)
  let t := if i % 8 = 0 then xorBytes (sub (prev.drop 1 ++ prev.take 1)) [gfPow 0x1B 2 (i / 8 - 1), 0, 0, 0]
    else if i % 8 = 4 then sub prev else prev
  xorBytes back t

/-- The 15 round keys of a 32-byte key. -/
def aesKeys (key : Bytes) : List Bytes :=
  let ws := (List.range 52).foldl (fun (l : Array Bytes) i =>
    l.push (aesWord (i + 8) (l.getD (i + 7) []) (l.getD i [])))
    ((List.range 8).map (fun i => slice key (4 * i) 4)).toArray
  (List.range 15).map (fun r => ((List.range 4).map (fun i => ws.getD (4 * r + i) [])).flatten)

/-- The rows of a state shifted: byte i comes from column c + r. -/
def aesShift (back : Bool) (b : Bytes) : Bytes :=
  (List.range 16).map (fun i => b.getD ((i + (if back then 12 * (i % 4) else 4 * (i % 4))) % 16) 0)

/-- The columns of a state mixed with the row of a circulant matrix. -/
def aesMix (row : List Byte) (b : Bytes) : Bytes :=
  (List.range 16).map (fun i =>
    (List.range 4).foldl (fun (a : Byte) k =>
      a ^^^ gfMul 0x1B (row.getD ((k + 4 - i % 4) % 4) 0) (b.getD (i / 4 * 4 + k) 0)) 0)

/-- AES-256 encryption of one block. -/
def aesEnc (keys : List Bytes) (blk : Bytes) : Bytes :=
  (List.range 14).foldl (fun b r =>
    let t := aesShift false (b.map (fun x => aesBox.getD x.toNat 0))
    xorBytes (if r = 13 then t else aesMix [2, 3, 1, 1] t) (keys.getD (r + 1) []))
    (xorBytes blk (keys.getD 0 []))

/-- AES-256 decryption of one block. -/
def aesDec (keys : List Bytes) (blk : Bytes) : Bytes :=
  (List.range 14).foldl (fun b r =>
    let t := xorBytes ((aesShift true b).map (fun x => aesUnbox.getD x.toNat 0)) (keys.getD (13 - r) [])
    if r = 13 then t else aesMix [14, 11, 13, 9] t)
    (xorBytes blk (keys.getD 14 []))

/-! ### GCM -/

/-- Multiplication in the field of GHASH. -/
def ghashMul (x y : BitVec 128) : BitVec 128 :=
  ((List.range 128).foldl (fun (p : BitVec 128 × BitVec 128) i =>
    (if x.getMsbD i then p.1 ^^^ p.2 else p.1,
     if p.2.getLsbD 0 then (p.2 >>> 1) ^^^ (0xE1 <<< 120) else p.2 >>> 1)) (0, y)).1

/-- The blocks of a byte string, the last padded with zeros. -/
def blocks16 (b : Bytes) : List Bytes := (List.range (ceilDiv b.length 16)).map (fun i => fitBytes 16 (slice b (16 * i) 16))

/-- GHASH of whole blocks under a subkey. -/
def ghash (h : BitVec 128) (bs : List Bytes) : BitVec 128 :=
  bs.foldl (fun y b => ghashMul (y ^^^ BitVec.ofNat 128 (beNat b)) h) 0

/-- Counter-mode key stream applied to a text from a counter on. -/
def gcmCrypt (keys : List Bytes) (nonce text : Bytes) : Bytes :=
  ((List.range (ceilDiv text.length 16)).map (fun i =>
    xorBytes (slice text (16 * i) 16) (aesEnc keys (nonce ++ beBytes 4 (i + 2))))).flatten

/-- The tag of a ciphertext and its additional data. -/
def gcmTag (keys : List Bytes) (nonce aad ct : Bytes) : Bytes :=
  let h := BitVec.ofNat 128 (beNat (aesEnc keys (zeros 16)))
  let lens := beBytes 8 (8 * aad.length) ++ beBytes 8 (8 * ct.length)
  let y := ghash h (blocks16 aad ++ blocks16 ct ++ [lens])
  xorBytes (beBytes 16 y.toNat) (aesEnc keys (nonce ++ beBytes 4 1))

/-- AES-256-GCM encryption: ciphertext and 16-byte tag. -/
def gcmSeal (key nonce aad pt : Bytes) : Bytes × Bytes :=
  let ks := aesKeys key
  let ct := gcmCrypt ks nonce pt
  (ct, gcmTag ks nonce aad ct)

/-- AES-256-GCM decryption: the plaintext where the tag verifies. -/
def gcmOpen (key nonce aad ct tag : Bytes) : Option Bytes :=
  let ks := aesKeys key
  if gcmTag ks nonce aad ct = tag then some (gcmCrypt ks nonce ct) else none

/-! ### AES-KW -/

/-- One step of the wrap: register and 8-byte parts. -/
def kwStep (keys : List Bytes) (n : Nat) (st : Bytes × List Bytes) (t : Nat) : Bytes × List Bytes :=
  let i := (t - 1) % n
  let b := aesEnc keys (st.1 ++ st.2.getD i [])
  (xorBytes (b.take 8) (beBytes 8 t), st.2.set i (b.drop 8))

/-- AES-KW of a key or record of whole 8-byte parts. -/
def kwWrap (key plain : Bytes) : Bytes :=
  let n := plain.length / 8
  let r := (List.range (6 * n)).foldl (fun st t => kwStep (aesKeys key) n st (t + 1))
    (List.replicate 8 0xA6, (List.range n).map (fun i => slice plain (8 * i) 8))
  r.1 ++ r.2.flatten

/-- One step of the unwrap. -/
def kwBack (keys : List Bytes) (n : Nat) (st : Bytes × List Bytes) (t : Nat) : Bytes × List Bytes :=
  let i := (t - 1) % n
  let b := aesDec keys (xorBytes st.1 (beBytes 8 t) ++ st.2.getD i [])
  (b.take 8, st.2.set i (b.drop 8))

/-- AES-KW undone where its integrity check holds. -/
def kwUnwrap (key wrapped : Bytes) : Option Bytes :=
  let n := wrapped.length / 8 - 1
  let r := (List.range (6 * n)).foldl (fun st t => kwBack (aesKeys key) n st (6 * n - t))
    (wrapped.take 8, (List.range n).map (fun i => slice wrapped (8 * (i + 1)) 8))
  if r.1 = List.replicate 8 0xA6 then some r.2.flatten else none

end Sys2Proof.Machine
end

