-- ==== Sys2Proof/Machine/Keccak.lean ====
section
/-! DEFINITION. The Keccak family of FIPS 202 and SP 800-185 as the digest lanes and Prefect compute
it (R269), and the CRC32C of staging, journal and metadata records. -/

namespace Sys2Proof

/-- A lane of the Keccak state. -/
abbrev Lane := BitVec 64

/-- Lane (x, y) of a state held as 25 lanes, index x + 5y. -/
def keccakLane (a : List Lane) (x y : Nat) : Lane := a.getD (x % 5 + 5 * (y % 5)) 0

/-- Rotation offsets of step ρ, index x + 5y. -/
def keccakRot : List Nat :=
  [0, 1, 62, 28, 27, 36, 44, 6, 55, 20, 3, 10, 43, 25, 39, 41, 45, 15, 21, 8, 18, 2, 61, 56, 14]

/-- Round constants of step ι. -/
def keccakRc : List Lane :=
  [0x0000000000000001, 0x0000000000008082, 0x800000000000808A, 0x8000000080008000,
   0x000000000000808B, 0x0000000080000001, 0x8000000080008081, 0x8000000000008009,
   0x000000000000008A, 0x0000000000000088, 0x0000000080008009, 0x000000008000000A] ++
  [0x000000008000808B, 0x800000000000008B, 0x8000000000008089, 0x8000000000008003,
   0x8000000000008002, 0x8000000000000080, 0x000000000000800A, 0x800000008000000A,
   0x8000000080008081, 0x8000000000008080, 0x0000000080000001, 0x8000000080008008]

/-- Step θ. -/
def keccakTheta (a : List Lane) : List Lane :=
  let c := (List.range 5).map (fun x =>
    keccakLane a x 0 ^^^ keccakLane a x 1 ^^^ keccakLane a x 2 ^^^ keccakLane a x 3 ^^^ keccakLane a x 4)
  let d := (List.range 5).map (fun x => c.getD ((x + 4) % 5) 0 ^^^ (c.getD ((x + 1) % 5) 0).rotateLeft 1)
  (List.range 25).map (fun i => a.getD i 0 ^^^ d.getD (i % 5) 0)

/-- Steps ρ and π: lane (x, y) takes the rotated lane (x + 3y, x). -/
def keccakRhoPi (a : List Lane) : List Lane :=
  (List.range 25).map (fun i =>
    let j := (i % 5 + 3 * (i / 5)) % 5 + 5 * (i % 5)
    (a.getD j 0).rotateLeft (keccakRot.getD j 0))

/-- Step χ. -/
def keccakChi (a : List Lane) : List Lane :=
  (List.range 25).map (fun i =>
    keccakLane a (i % 5) (i / 5) ^^^ (~~~ (keccakLane a (i % 5 + 1) (i / 5)) &&& keccakLane a (i % 5 + 2) (i / 5)))

/-- One round. -/
def keccakRound (a : List Lane) (rc : Lane) : List Lane :=
  match keccakChi (keccakRhoPi (keccakTheta a)) with
  | [] => []
  | l :: r => (l ^^^ rc) :: r

/-- Keccak-f[1600]. -/
def keccakF (a : List Lane) : List Lane := keccakRc.foldl keccakRound a

/-- A state with a rate block of bytes added. -/
def keccakXor (a : List Lane) (block : Bytes) : List Lane :=
  (List.range 25).map (fun i => a.getD i 0 ^^^ BitVec.ofNat 64 (leNat (slice block (8 * i) 8)))

/-- Absorb whole rate blocks, `n` of them. -/
def keccakAbsorb (rate : Nat) : (n : Nat) → Bytes → List Lane → List Lane
  | 0, _, a => a
  | n + 1, m, a => keccakAbsorb rate n (m.drop rate) (keccakF (keccakXor a (m.take rate)))

/-- The bytes of a state. -/
def keccakBytes (a : List Lane) : Bytes := a.flatMap (fun l => leBytes 8 l.toNat)

/-- Squeeze `n` rate blocks. -/
def keccakSqueeze (rate : Nat) : (n : Nat) → List Lane → Bytes
  | 0, _ => []
  | n + 1, a => (keccakBytes a).take rate ++ keccakSqueeze rate n (keccakF a)

/-- A message padded to whole rate blocks: the domain byte, zeros, and 0x80 in the last byte. -/
def keccakPad (rate : Nat) (domain : Nat) (m : Bytes) : Bytes :=
  let gap := rate - m.length % rate
  if gap = 1 then m ++ [BitVec.ofNat 8 (domain + 0x80)]
  else m ++ [BitVec.ofNat 8 domain] ++ zeros (gap - 2) ++ [0x80]

/-- The sponge: `len` bytes of output. -/
def keccakSponge (rate domain : Nat) (m : Bytes) (len : Nat) : Bytes :=
  let p := keccakPad rate domain m
  (keccakSqueeze rate (ceilDiv len rate) (keccakAbsorb rate (p.length / rate) p (List.replicate 25 0))).take len

/-- SHA3-256. -/
def sha3_256 (m : Bytes) : Bytes := keccakSponge 136 0x06 m 32

/-- SHAKE256 with `len` bytes of output. -/
def shake256 (m : Bytes) (len : Nat) : Bytes := keccakSponge 136 0x1F m len

/-- A number as its fewest big-endian bytes, at least one. -/
def minBytes (v : Nat) : Bytes := (beBytes 8 v).dropWhile (fun b => b == 0) |>.append (if v = 0 then [0] else [])

/-- left_encode of SP 800-185. -/
def leftEncode (v : Nat) : Bytes := BitVec.ofNat 8 (minBytes v).length :: minBytes v

/-- right_encode of SP 800-185. -/
def rightEncode (v : Nat) : Bytes := minBytes v ++ [BitVec.ofNat 8 (minBytes v).length]

/-- encode_string of SP 800-185. -/
def encodeString (b : Bytes) : Bytes := leftEncode (8 * b.length) ++ b

/-- bytepad of SP 800-185. -/
def bytepad (b : Bytes) (w : Nat) : Bytes :=
  let x := leftEncode w ++ b
  x ++ zeros (roundUp x.length w - x.length)

/-- cSHAKE256 with function name and customization. -/
def cshake256 (m : Bytes) (len : Nat) (name cust : Bytes) : Bytes :=
  if name.isEmpty && cust.isEmpty then shake256 m len
  else keccakSponge 136 0x04 (bytepad (encodeString name ++ encodeString cust) 136 ++ m) len

/-- KMAC256 with `len` bytes of output (KMAC256(key, input, 8·len, customization)). -/
def kmac256 (key input : Bytes) (len : Nat) (cust : Bytes) : Bytes :=
  cshake256 (bytepad (encodeString key) 136 ++ input ++ rightEncode (8 * len)) len (ascii "KMAC") cust

/-- One byte of CRC32C (reflected polynomial 0x82F6_3B78). -/
def crc32cByte (c : BitVec 32) (b : Byte) : BitVec 32 :=
  (List.range 8).foldl (fun (x : BitVec 32) _ => if x.getLsbD 0 then (x >>> 1) ^^^ 0x82F63B78#32 else x >>> 1)
    (c ^^^ BitVec.setWidth 32 b)

/-- CRC32C of a byte string, initial value and final inversion 0xFFFF_FFFF. -/
def crc32c (m : Bytes) : Nat := ((m.foldl crc32cByte 0xFFFFFFFF#32) ^^^ 0xFFFFFFFF#32).toNat

end Sys2Proof
end

