-- ==== Sys2Proof/Config.lean ====
section
/-! DEFINITION. What the spec leaves open or leaves to published standards the model does not
compute: opaque constants without a value a proof could use. -/

namespace Sys2Proof

/-- The stream of free values: the value drawn at the n-th draw of a run is `Config.free n`
(random keys, instances and every value the spec does not state). -/
opaque Config.free : Nat → Nat

/-- Ed448 verification (RFC 8032) of a signature over a message under a context (R507).
DESIGN CHOICE: the published algorithm is not recomputed in the model. -/
opaque Config.ed448Verify : (key msg ctx sig : Bytes) → Bool

/-- ML-DSA-87 verification (FIPS 204) of a signature over a message under a context (R507).
DESIGN CHOICE: the published algorithm is not recomputed in the model. -/
opaque Config.mldsaVerify : (key msg ctx sig : Bytes) → Bool

/-- Ed448 signature made with the private part of a key (R523). DESIGN CHOICE: as above. -/
opaque Config.ed448Sign : (key msg ctx : Bytes) → Bytes

/-- ML-DSA-87 signature made with the private part of a key (R523). DESIGN CHOICE: as above. -/
opaque Config.mldsaSign : (key msg ctx : Bytes) → Bytes

/-- X448 (RFC 7748): the shared secret of a private and a public key (R445). DESIGN CHOICE: as above. -/
opaque Config.x448 : (priv pub : Bytes) → Bytes

/-- The X448 public key of a private key. DESIGN CHOICE: as above. -/
opaque Config.x448Public : (priv : Bytes) → Bytes

/-- ML-KEM-1024 (FIPS 203) encapsulation: ciphertext and shared secret from a public key and a seed. -/
opaque Config.mlkemEncaps : (pub seed : Bytes) → Bytes × Bytes

/-- ML-KEM-1024 decapsulation: the shared secret, from a private seed and a ciphertext. -/
opaque Config.mlkemDecaps : (priv ct : Bytes) → Bytes

/-- DEVICE_SEED (Table 14-1): secret, unique to the chip, drawn at manufacture. -/
opaque Config.deviceSeed : Bytes

/-- The SHA3-256 digests of the manufacturing keys held in ROM, by key number 0 to 3 (R504). -/
opaque Config.romKeyDigests : List Bytes

/-- Tirenaloth's IANA enterprise number (SYS_INFO); the spec gives no value. -/
opaque Config.enterpriseNumber : Nat

/-- The fixed-mode candidate of the stepping's encoder for a grain, unpadded (R222, R223): its parse is the
encoder's own. -/
opaque Config.encodeFixed : (grain : Bytes) → Bytes

/-- The coded-mode candidate of the stepping's encoder for a grain, unpadded (R222, R223). -/
opaque Config.encodeCoded : (grain : Bytes) → Bytes

/-- The bytes of the fuse fields LIFECYCLE, KEY_DIGEST, KEY_REVOKED and CTR that MR1 measures (R513): the spec gives
the fields and not their form. Bits burned, revoked slots, digests, counters. -/
opaque Config.fuseBytes : (lifecycle revoked : Nat) → (digests : List (Nat × Bytes)) → (counters : List Nat) → Bytes

/-- The bytes of a record between the two Prefects (R519): the spec keeps its form to Prefect. Kind, numbers, texts. -/
opaque Config.recordBytes : (kind : Nat) → (numbers : List Nat) → (texts : List Bytes) → Bytes

/-- The instance of a system key's label (Table 7-1): purpose, domain field, root key, pool ID. Prefect's random source draws it
when the key is created; every head that holds the root key of the pool derives the same key (R520, R523). -/
opaque Config.systemInstance : (purpose domain : Nat) → (root pool : Bytes) → Nat

/-- The entries Prefect means to program the DRAM region guard with (R34, R513): base, limit, initiator mask, rights
[0] read [1] write [2] execute. The spec gives the entries' form and not their values; what it forbids them is taken out as they are
programmed (R35, R37, R439, R513). -/
opaque Config.regionGuard : List (Nat × (Nat × (Nat × Nat)))

/-- Areas of head DRAM, as base and limit in units of 2 MiB: staging, the wrapped contexts, the metadata, the seal table, and the 16 MiB of
Faculty's code region. The spec names the areas and not their places. -/
opaque Config.stagingArea : Nat × Nat
opaque Config.wrappedArea : Nat × Nat
opaque Config.metadataArea : Nat × Nat
opaque Config.sealArea : Nat × Nat
opaque Config.codeBase : Nat

/-- The bytes an MR5 extend carries for a seal table entry (R436, Table 7-12): the spec gives the register's use and not
the bytes. -/
opaque Config.sealExtend : (entry : Bytes) → Bytes

/-- The ML-KEM-1024 encapsulation key of a private seed (FIPS 203). DESIGN CHOICE: as for encapsulation. -/
opaque Config.mlkemPublic : (seed : Bytes) → Bytes

/-- A 64-byte record of REPL_QUERY: the spec names what it holds (state, round trip [ns], transfers, relations) and not
its layout. -/
opaque Config.replRecord : (session state rttNs transfers relations : Nat) → Bytes

/-- Where the target of a cutover attaches the replica of a source root: NSID, subsystem, ANA group. R498 says the NSID is the
source's and the group one the target owns, and names no message that carries them; R497 has the operator bind them. -/
opaque Config.migratedNs : (pool : Bytes) → (root : Nat) → Nat × (Nat × Nat)

/-- The capsule receive buffers in the pool of a host port beyond its first (R93): the spec gives the pool and not its size. -/
opaque Config.receiveBuffers : (port : Nat) → Nat

/-- The VDD_CORE target [mV] fused into the chip (R601); the spec gives its range and not its value. -/
opaque Config.avsTarget : Nat

/-- F, the vault flush rate [MB/s] that a head derives from its Vault sheet at image load, by term (R152): the spec
gives no derivation, only that it is at most 200 GB/s. -/
opaque Config.flushRate : Nat → Nat

end Sys2Proof
end

