-- ==== Sys2Proof/Machine/State.lean ====
section
/-! DEFINITION. The state of one Damrid as plain data, and its value right after reset. -/

namespace Sys2Proof.Machine

/-- The spec gives the block no stop: whatever happens to a head, it is a further state of it.
No meaning raises a fault. -/
inductive Fault
  deriving DecidableEq, Repr

/-- Why the model has no next state for a command. -/
inductive Refusal where
  /-- raised by a command the model gives no meaning yet, named by its mnemonic; safe -/
  | notModelled (mnemonic : String)
  deriving DecidableEq, Repr

/-! ### Records shared by the journal, the Corridor and the media -/

/-- The body of a Corridor message (Tables 4-5 and 13-1). -/
inductive CorrBody where
  | mirrorData (volume count flags seq lba : Nat) (blocks pi : Bytes)
  | mirrorAck (number held : Nat)
  | commit (mark : CommitMark)
  | commitAck (number : Nat)
  | release (l : List RelEntry)
  | credit (blocks term : Nat)
  | vaultNotice (time : Nat)
  | vaultDone (time length : Nat)
  | markList (l : List CommitMark)
  | withdraw (volume seq : Nat)
  | heartbeat (day term sheet state dirtyMib degradations : Nat)
  | bellSync (day sendCycle echoed : Nat)
  | fsnRequest (nsid tag : Nat)
  | fsnGrant (nsid tag seq : Nat)
  | sheetTrigger (kind action index detected switchDay : Nat)
  | snapFence (tag fenceBell : Nat) (roots : List Nat)
  | ttImage (term offset length : Nat) (bytes : Bytes)
  | ttVerdict (term : Nat) (status : Status) (detail : Bytes)
  | sbChange (offset : Nat) (bytes : Bytes)
  | anaMove (group owner boundary : Nat) (next : List (Nat × Nat))
  | hello (record : Bytes)
  | releaseNotice (time : Nat)
  | resyncDone (lastNumber epoch head seq : Nat)
  | journal (l : List JRec)
  | journalAck (number : Nat)
  | resolve (domain : Nat) (verify writeThrough : Bool) (grain : Nat) (fp : Bytes)
  | resolveAnswer (grain cid outcome : Nat)
  | refDelta (l : List (Nat × Int))
  | place (cid psa gen : Nat) (hasTail : Bool)
  | prefectRecord (record : PairRecord)
  /-- a control packet that the receiving head forwards to its peer (R544) -/
  | forward (opcode cls : Nat) (params payload : Bytes)
  /-- the answer to a forwarded packet: what it came to on this head (R544) -/
  | forwarded (status : Status) (detail : Bytes)
  deriving DecidableEq, Repr

/-- What a die operation serves, by the number of its job where it has one. -/
inductive OpUse where
  /-- the pages of a slot for a read job; source 0 the slot itself, else a strip position of its stripe + 1 -/
  | slot (job source : Nat)
  /-- a metadata page (MPA) of a tree -/
  | metadata (tree key : Nat)
  /-- a copy of an index page for a resolution -/
  | index (grain copy : Nat)
  /-- an index page for Recess work: 0 filter, 1 merge, 2 split; bucket and half; copies tried (R183, R184, R188, R190) -/
  | sweep (work bucket tried : Nat)
  | strip (group stripe pos : Nat)
  | parity (group stripe column pointer : Nat)
  | metaPage (triad copy : Nat)
  | vaultStrip (index : Nat)
  | erase
  | calibrate
  | sample
  | patrol (group stripe pos : Nat)
  | rebuild (group pos strip : Nat)
  | probe
  | telemetry
  | ring
  | superblock
  /-- a page of a timetable copy (R383) -/
  | ttCopy
  | statusOf (form : Nat)
  | fence (forms : List Nat)
  /-- a diagnostic die operation of a packet -/
  | diag (b : Binding) (tag : Nat)
  deriving DecidableEq, Repr

/-- A die operation (Tables 11-3 and 11-4), waiting for its bell or outstanding. -/
structure DieOp where
  tag      : Nat
  opcode   : Nat
  bay      : Nat
  die      : Nat
  block    : Nat
  page     : Nat
  quarters : Nat
  selector : Nat
  flags    : Nat
  fence    : Nat
  operand  : List Nat
  /-- what posting needs: 0 any bell (R410), 1 a foreground read, 2 Lesson-Program, 3 Lesson-Erase,
  4 Recess, 5 Vault -/
  cls      : Nat
  use      : OpUse
  data     : Bytes
  posted   : Option Nat
  deadline : Nat
  reissued : Bool
  /-- suspends that foreground reads have cost the operation (R53) -/
  suspends : Nat
  /-- the stream class it works for; 0 where it pays no lane bucket (R52) -/
  stream   : Nat
  deriving DecidableEq, Repr


/-- An instruction of the test access port (R625). -/
inductive TapInstr where
  | bypass | idcode | samplePreload | extest | extestPulse | extestTrain | clamp | highz
  deriving DecidableEq, Repr

/-! ### What Damrid sends -/

/-- Something Damrid sends or drives, as the outside sees it. -/
inductive Output where
  /-- a reply message to an MCTP endpoint, with the payload bytes it carries inline -/
  | mctpReply (endpoint : Nat) (header params payload : Bytes)
  /-- the byte an SMBus read returns (R627) -/
  | smbusByte (v : Byte)
  /-- what the TAP shifts out for an instruction (R625) -/
  | tapAnswer (i : TapInstr)  (value : Nat)
  /-- a PMBus AVSBus target [mV] (R601) -/
  | avsTarget (mv : Nat)
  /-- a training token, on every lane: pool ID, head slot, random value (R467) -/
  | trainToken (pool : Bytes) (slot random : Nat)
  /-- a Corridor message with its number -/
  | corridor (number : Nat) (body : CorrBody)
  /-- a descriptor written to a bridge's ring -/
  | descriptor (op : DieOp)
  /-- a READ of a form that the peer owns, handed to the peer over the Corridor (R45) -/
  | peerRead (op : DieOp)
  /-- a CompareAndSwap on a bay's witness register (R480) -/
  | witnessCas (bay expected new : Nat)
  /-- a PCIe hot reset of a bay's bridge port, in place of its reset pin (Table 19-6) -/
  | hotReset (bay : Nat)
  /-- a register access of a bridge: read (no value) or write -/
  | bridge (bay offset : Nat) (write : Option Nat)
  /-- an NVMe completion: status type and code, do not retry, Dword 0, SQHD (R94), data returned to the host. Under
  controller 65,536 it is the owning head's answer to the peer, whose data takes class 0 of the Corridor (R120) -/
  | completion (cntlid qid cid sct sc : Nat) (dnr : Bool) (dw0 sqhd : Nat) (data : Bytes)
  /-- an asynchronous event completion: type, information, log page -/
  | notice (cntlid kind info log : Nat)
  /-- a request for some blocks of a command's host data: RDMA Read or R2T -/
  | pullData (cntlid qid cid first count : Nat)
  /-- host data of a Compare, for the head that owns its namespace (R120) -/
  | peerData (cntlid qid cid first : Nat) (data : Bytes)
  /-- a reservation command that took effect here, for the peer's copy of the record (R109) -/
  | reservation (cap : Capsule) (host : Bytes)
  /-- a Send answered with RNR NAK (R93) -/
  | rnrNak (cntlid qid : Nat)
  /-- the NVMe/TCP receive windows of a port close or open (R93) -/
  | window (port : Nat) (isOpen : Bool)
  /-- a connection closed on a fatal transport error, with its cause code -/
  | terminate (cntlid qid cause : Nat)
  /-- a datagram of the federation to a chip index -/
  | federation (chip : Nat) (bytes : Bytes)
  /-- the roster asked of a chip whose heartbeat named a newer one (R495) -/
  | rosterRequest (chip : Nat)
  /-- a segment of a session's channel: its frame, ciphertext and tag (Table 7-8), the stream header first in a
  message's first one -/
  | segment (session : Nat) (bytes : Bytes)
  /-- a handshake message on a session -/
  | handshake (session type : Nat) (body : Bytes)
  /-- the completion word of a stream-mode message that runs: PROVISIONAL (R262) -/
  | provisional (island number : Nat)
  /-- an engine's completion to who asked: engine island, context or register, status, detail, data -/
  | engineReply (island number : Nat) (status : Status) (detail data : Bytes)
  deriving DecidableEq, Repr

/-! ### Identity of the head in its pair -/

/-- Which head this is: its head slot in the pool superblock and its chip index in the federation. -/
structure Sys where
  slot : Nat
  chip : Nat
  deriving DecidableEq, Repr

/-- Before a pool or a roster names the head. -/
def Sys.reset : Sys := ⟨0, 0⟩

/-! ### Control packets (ch. 15) -/

/-- A binding in existence (ch. 15): its 12-bit session number, its highest caller class, the host NQN of a controller (R545), and
the bell at which it was lost (R548). -/
structure BindingRec where
  id      : Binding
  session : Nat
  highest : Nat
  host    : Bytes
  lostAt  : Option Nat
  deriving DecidableEq, Repr

/-- An object a packet locks (R543): its kind code and its number. -/
structure ObjRef where
  kind   : Nat
  number : Nat
  deriving DecidableEq, Repr

/-- An accepted control packet without a reply (R536, R542). -/
structure Packet where
  binding : Binding
  tag     : Nat
  opcode  : Nat
  cls     : Nat
  stream  : Bool
  seq     : Nat
  slot    : Nat
  params  : Bytes
  payload : Bytes
  locks   : List ObjRef
  deriving DecidableEq, Repr

/-- A reply kept for its binding (R533, R534). -/
structure Reply where
  binding : Binding
  tag     : Nat
  opcode  : Nat
  status  : Status
  stream  : Bool
  detail  : Bytes
  params  : Bytes
  /-- the payload's bytes in the engine buffer; none once it is held in DRAM -/
  payload : Bytes
  /-- the payload's length -/
  size    : Nat
  /-- the payload as it is held in DRAM: a stream header, then the segments under the CONTROL key (R30, R534) -/
  box     : List Bytes
  readyAt : Nat
  /-- held until channels 0 to 7 are in service (R613) -/
  held    : Bool
  /-- its mailbox reply area has been freed by ACK -/
  acked   : Bool
  fetched : Nat
  deriving DecidableEq, Repr

/-- A claim on a shared resource (R547, R548). -/
structure Claim where
  resource : Nat
  opcode   : Nat
  cls      : Nat
  tag      : Nat
  binding  : Option Binding
  time     : Nat
  deriving DecidableEq, Repr

/-- An object arriving in pieces from one binding (R537). -/
structure PieceObj where
  binding : Binding
  opcode  : Nat
  total   : Nat
  data    : Bytes
  lastAt  : Nat
  deriving DecidableEq, Repr

/-- The control packet interface. -/
structure Cpi where
  bindings     : List BindingRec
  accepted     : List Packet
  replies      : List Reply
  claims       : List Claim
  pieces       : List PieceObj
  /-- the tag of the reply in each mailbox's reply area (CPI_MBX_STATUS.REPLY_READY) -/
  cpiArea      : Option Nat
  pfmArea      : Option Nat
  /-- CPI_LAST_ERROR -/
  lastStatus   : Status
  lastOpcode   : Nat
  lastTag      : Nat
  /-- packets without a reply on the peer head, as last told (CPI_LOAD.PAIR_INFLIGHT) -/
  peerInflight : Nat
  /-- the highest sequence Prefect has accepted under each key slot since cold reset (R540) -/
  slotSeq      : List (Nat × Nat)
  /-- the first of two signed packets of one opcode, with its parameters, digest of key slot and trusted time (R522) -/
  firstSigned  : List (Nat × (Bytes × (Nat × Nat)))
  deriving DecidableEq, Repr

/-- The interface right after reset: CPI_LOAD.BINDINGS reads 0. -/
def Cpi.reset : Cpi where
  bindings := []
  accepted := []
  replies := []
  claims := []
  pieces := []
  cpiArea := none
  pfmArea := none
  lastStatus := .ok
  lastOpcode := 0
  lastTag := 0
  peerInflight := 0
  slotSeq := []
  firstSigned := []

/-! ### Diary, Tally and the report card (ch. 17) -/

/-- The Diary (R580, R585, R586). Both lists hold the newest record first. -/
structure Diary where
  ring     : List DiaryRec
  /-- DIARY_HEAD -/
  head     : Nat
  frozen   : Bool
  frozenAt : Nat
  pocket   : List DiaryRec
  /-- DIARY_CTRL.MISSED before saturation, and the times of the first and last missed events -/
  missed   : Nat
  missFirst : Nat
  missLast  : Nat
  /-- DIARY_CURSOR -/
  cursor   : Nat
  deriving DecidableEq, Repr

/-- The Diary right after reset, before START is written (R581). -/
def Diary.reset : Diary where
  ring := []
  head := 0
  frozen := false
  frozenAt := 0
  pocket := []
  missed := 0
  missFirst := 0
  missLast := 0
  cursor := 0

/-- A Tally counter (R588 to R590). -/
structure Ctr where
  value     : Nat
  event     : Nat
  saturate  : Bool
  overflow  : Bool
  saturated : Bool
  restarted : Bool
  zeroDue   : Bool
  deriving DecidableEq, Repr

/-- A sample of a sweep (R592). -/
structure Sample where
  counter : Nat
  value   : Nat
  flags   : Nat
  time    : Nat
  deriving DecidableEq, Repr

/-- A bandwidth window (R594); state 0 free, 1 awaiting start, 2 running, 3 complete. -/
structure BwWindow where
  state    : Nat
  port     : Nat
  days     : Nat
  start    : Nat
  stop     : Nat
  bytesIn  : Nat
  bytesOut : Nat
  wait     : Nat
  deriving DecidableEq, Repr

/-- A module's health record on the report card (Table 17-6). -/
structure ModuleHealth where
  uncorrectable : Nat
  histogram     : List Nat
  deriving DecidableEq, Repr

/-- One evaluation's readings for the early warnings (R597). -/
structure WarnSample where
  sparePct   : Nat
  wearPct    : Nat
  debt       : Nat
  /-- per bay of a member: UNCORRECTABLE completions, misses, and mean temperature [0.1 °C] in the hour -/
  bays       : List (Nat × (Nat × (Nat × Int)))
  deriving DecidableEq, Repr

/-- A diagnostic capture under way (DIAG_CAPTURE). -/
structure Capture where
  binding  : Binding
  tag      : Nat
  buffer   : Nat
  timer    : Nat
  event    : Nat
  counters : List Nat
  endsAt   : Nat
  deriving DecidableEq, Repr

/-- Tally, windows, report card counts and early-warning history. -/
structure Tally where
  /-- counters by block × 16 + counter; an unlisted counter is zero in wrap mode without flags -/
  ctrs      : List (Nat × Ctr)
  sweepNo   : Nat
  skew      : Nat
  samples   : List Sample
  /-- TALLY_BW_SEL.TIMER -/
  bwSel     : Nat
  windows   : List (Nat × BwWindow)
  /-- report card counts since cold reset (Table 17-4) -/
  corrected : Nat
  ldpcRecovered : Nat
  parityRecovered : Nat
  minutes   : Nat
  chipHist  : List Nat
  modules   : List (Nat × ModuleHealth)
  /-- warnings bits, and per bit the consecutive inactive evaluations -/
  warnings  : Nat
  inactive  : List (Nat × Nat)
  /-- evaluations, newest first -/
  history   : List WarnSample
  /-- this hour's UNCORRECTABLE completions and misses per bay -/
  hourUnc   : List (Nat × Nat)
  hourMiss  : List (Nat × Nat)
  /-- this hour's temperature readings per bay [0.1 °C]: sum and count -/
  hourTemp  : List (Nat × (Int × Nat))
  /-- valid E_meas values [0.1 J] with the trusted hour they were taken, newest first -/
  energies  : List (Nat × Nat)
  captures  : List Capture
  /-- trusted clock [µs] of the last evaluation -/
  lastEval  : Nat
  deriving DecidableEq, Repr

/-- The Tally right after reset: counters zero (R590). -/
def Tally.reset : Tally where
  ctrs := []
  sweepNo := 0
  skew := 0
  samples := []
  bwSel := 0
  windows := []
  corrected := 0
  ldpcRecovered := 0
  parityRecovered := 0
  minutes := 0
  chipHist := List.replicate 22 0
  modules := []
  warnings := 0
  inactive := []
  history := []
  hourUnc := []
  hourMiss := []
  hourTemp := []
  energies := []
  captures := []
  lastEval := 0

/-! ### The timetable and the engine lanes (ch. 1, ch. 2) -/

/-- TT_LOAD.STATE. -/
inductive LoadState where
  | none | checking | staged | armed
  deriving DecidableEq, Repr

/-- A timetable image, as loaded (R56); every field is read from its bytes. -/
structure TtImage where
  bytes : Bytes
  deriving DecidableEq, Repr

/-- A sheet switch agreed for a day boundary (R81): `enter` for action 1, a return for action 2. -/
structure SheetSwitch where
  day   : Nat
  enter : Bool
  what  : Degradation
  deriving DecidableEq, Repr

/-- An admission bucket (R52): stream class, engine kind, signed bytes. -/
structure Bucket where
  stream : Nat
  kind   : EngineKind
  bytes  : Int
  deriving DecidableEq, Repr

/-- The TT block, the bell and the admission buckets. -/
structure Tt where
  /-- day × 1,024 + period: the timestamp of R13, TT_NOW -/
  now       : Nat
  /-- the length of the running period in cycles: 3,999, 4,000 or 4,001 (R42) -/
  cycles    : Nat
  /-- the measured offset from the leader [ns] (R42) -/
  offset    : Int
  /-- the follower steps its bell phase at the next day boundary (R42, R43) -/
  phaseStep : Bool
  /-- the peer's day count to which this head raises its own at its next day boundary (R43) -/
  raiseTo   : Option Nat
  active    : Option TtImage
  pending   : Option TtImage
  load      : LoadState
  armDay    : Nat
  /-- a TT_ARM whose image and day are being recorded in the vault, before its reply (R74) -/
  arming    : Option (Binding × Nat)
  /-- the packet that awaits the peer's verdict on a staged image (R73) -/
  staging   : Option (Binding × Nat)
  /-- chunks of an image the peer is sending -/
  incoming  : Bytes
  lastStatus : Status
  lastDetail : Bytes
  /-- the sheet in force: number, kind, head, index (TT_SHEET) -/
  sheet     : Nat
  sheetOf   : Degradation
  degraded  : List Degradation
  switches  : List SheetSwitch
  /-- resources back in service, with the day their service began (Table 2-14) -/
  returning : List (Degradation × Nat)
  /-- Vault mode has started; its sheet takes effect at the next period boundary (R85) -/
  vaultDue  : Bool
  buckets   : List Bucket
  /-- bytes left of each service class's share of the period, by class × 8 + resource: engine kind 0 to 4 of stream class
  0x01, 5 the Corridor foreground-write share (R55, R66); and bytes that have returned to each resource's common part -/
  classLeft : List (Nat × Nat)
  classPool : List (Nat × Nat)
  /-- bytes of the Corridor foreground-write share used in this period (R54) -/
  mirrorUsed : Nat
  /-- bytes of the Corridor foreground-read share promised to returning data (R103) -/
  returnUsed : Nat
  deriving DecidableEq, Repr

/-- The TT block right after reset: every register reads 0. -/
def Tt.reset : Tt where
  now := 0
  cycles := 4000
  offset := 0
  phaseStep := false
  raiseTo := none
  active := none
  pending := none
  load := .none
  armDay := 0
  arming := none
  staging := none
  incoming := []
  lastStatus := .ok
  lastDetail := []
  sheet := 0
  sheetOf := ⟨0, 0, 0⟩
  degraded := []
  switches := []
  returning := []
  vaultDue := false
  buckets := []
  classLeft := []
  classPool := []
  mirrorUsed := 0
  returnUsed := 0

/-- Why a lane is out of service (R26, R529). -/
inductive LaneOutCause where
  | test | failed
  deriving DecidableEq, Repr

/-- A lane out of service, the spare that stands in for it, and the bell from which it does (R26). -/
structure LaneOut where
  lane  : LaneId
  cause : LaneOutCause
  spare : Option LaneId
  /-- the bell from which the spare stands in, or the group is out -/
  since : Nat
  deriving DecidableEq, Repr

/-- Engine lanes and lane groups (Table 1-2). -/
structure Lanes where
  /-- lanes out of service, in order of loss -/
  out       : List LaneOut
  /-- lane groups taken out of service whole (R27), numbers of R63 -/
  groupsOut : List Nat
  /-- per engine island, the lane its rotation tests next (R529) and the bell of its last rotation -/
  nextTest  : List (Nat × Nat)
  lastTest  : List (Nat × Nat)
  deriving DecidableEq, Repr

/-- Every lane in service. -/
def Lanes.reset : Lanes where
  out := []
  groupsOut := []
  nextTest := []
  lastTest := []

/-! ### Power, clocks, resets and start-up (ch. 18) -/

/-- Where the head stands in start-up and service (ch. 18, "Start-up"; R617; R159). -/
inductive Stage where
  /-- no supplies: cold reset held -/
  | off
  /-- VDD_AON alone is valid (R600) -/
  | aonOnly
  /-- no valid Prefect image: the ROM answers only requests that carry one (R514) -/
  | recovery
  /-- Prefect runs and Faculty images are not verified yet or at all (R513) -/
  | prefect
  /-- control packets are answered; no pool is bound, or the pool's first term is not in effect (R615) -/
  | control
  /-- the peer is in service; no I/O and no die before step 7 of the handover (R614) -/
  | joining
  /-- waiting for the day boundary at which the Bring-up sheet takes effect (Table 18-6) -/
  | starting
  /-- the head serves -/
  | service
  /-- power failed before the Bring-up sheet was in force (R617) -/
  | earlyWait
  /-- Vault mode, image not sealed (R156) -/
  | vault
  /-- Vault mode, image sealed (R159) -/
  | sealed
  deriving DecidableEq, Repr

/-- Rails, domains, AVS, resets and references. -/
structure Pwr where
  stage     : Stage
  /-- PWR_RAILS -/
  inRange   : Nat
  tripped   : Nat
  /-- PWR_TRIP -/
  tripRail  : Nat
  tripHigh  : Bool
  tripWhen  : Nat
  /-- rails that have tripped since the start (R630) -/
  trippedSinceStart : Bool
  /-- bit d set: PDd powered (PWR_DOMAINS_LO, PWR_DOMAINS_HI) -/
  domains   : Nat
  /-- PWR_AVS, the target sent and not confirmed, and the day of the last step (R601) -/
  avsTarget : Nat
  avsMeasured : Nat
  avsSent   : Option Nat
  avsSentAt : Nat
  avsDay    : Nat
  /-- PWR_RESET -/
  resetKind  : Nat
  resetCause : Nat
  resetWhen  : Nat
  /-- CLK_REFS -/
  refsPresent : Nat
  refsLost  : Nat
  internalOsc : Bool
  /-- CLK_ISLAND_SEL and the Faculty clusters' clocks [MHz] -/
  clkSel    : Nat
  facultyMhz : List Nat
  /-- the head has fenced itself for a dead DRAM channel and makes a warm start (R574) -/
  restartDue : Bool
  /-- a host port island being reset (R87), and islands held in reset -/
  islandsInReset : List Nat
  /-- the bell since which PWR_FAIL_N has been high (R160) -/
  failHighSince : Option Nat
  deriving DecidableEq, Repr

/-- Right after a power-on cold reset. -/
def Pwr.reset : Pwr where
  stage := .off
  inRange := 0x1FF
  tripped := 0
  tripRail := 0xF
  tripHigh := false
  tripWhen := 0
  trippedSinceStart := false
  domains := 0x800000000000000000000003
  avsTarget := 0x320
  avsMeasured := 0
  avsSent := none
  avsSentAt := 0
  avsDay := 0
  resetKind := 1
  resetCause := 1
  resetWhen := 0
  refsPresent := 0xF
  refsLost := 0
  internalOsc := false
  clkSel := 0
  facultyMhz := [2400, 2400, 2400, 2400]
  restartDue := false
  islandsInReset := []
  failHighSince := none

/-! ### Balls and temperature (ch. 19) -/

/-- The class the pin monitor gives a pin (PINS_STATE.FAULT). -/
inductive PinFault where
  | sound | isOpen | shortGround | shortHigh
  deriving DecidableEq, Repr

/-- A protected pin that differs from its rest state. -/
structure Pin where
  fault   : PinFault
  level   : Bool
  driven  : Bool
  high    : Bool
  /-- the driver is held high-impedance while the ball reads above 3.6 V (R631) -/
  clamped : Bool
  /-- consecutive tests that found the pin faulty, and sound ones since (R631) -/
  badTests  : Nat
  goodTests : Nat
  /-- day of the last fault classed -/
  since   : Nat
  deriving DecidableEq, Repr


/-- The protected bank, temperature and test access. -/
structure Pins where
  sel      : Nat
  pins     : List (Nat × Pin)
  lastKind : PinFault
  lastPin  : Nat
  /-- faults found during cold reset, raised as events after the start (R632) -/
  heldFaults : List (Nat × PinFault)
  hottest  : Int
  sensor   : Nat
  thermtrip : Bool
  thermVault : Bool
  alert    : Bool
  /-- Vault mode entered for temperature and not yet ended (R627) -/
  tempVault : Bool
  /-- the bell since which the hottest sensor has been below 95 °C (R637) -/
  coolSince : Option Nat
  locate   : Bool
  tap      : TapInstr
  deriving DecidableEq, Repr

/-- Right after reset: pins at rest and sound. -/
def Pins.reset : Pins where
  sel := 0
  pins := []
  lastKind := .sound
  lastPin := 0
  heldFaults := []
  hottest := 0
  sensor := 0
  thermtrip := false
  thermVault := false
  alert := false
  tempVault := false
  coolSince := none
  locate := false
  tap := .idcode

/-! ### DRAM controller (ch. 16) -/

/-- DRAM_CH_STATE.STATE. -/
inductive ChannelState where
  | absent | training | inService | copyingOut | out | copyingHome | failed | refused
  deriving DecidableEq, Repr

/-- Why a channel was taken out (R573), or that a packet took it. -/
inductive OutCause where
  | corrected | uncorrectable | temperature | packet
  deriving DecidableEq, Repr

/-- Who asks for DRAM bursts (Tables 2-11 and 16-3). -/
inductive Requester where
  | faculty (cluster : Nat)
  | hostPort (port : Nat)
  | fanOut
  | corridor
  | bayPorts (group : Nat)
  | metadata
  | filter
  | vaultFlush
  | replication
  | queueEntry
  | wrapped
  | diary
  | tally
  | scrub
  | evacuation
  deriving DecidableEq, Repr

/-- What a DRAM request does: a fetch is a read that needs the execute right (R559). -/
inductive Access where
  | read | write | fetch
  deriving DecidableEq, Repr

/-- A DRAM request within one chunk (R556, R560). -/
structure DramReq where
  hpa   : Nat
  /-- bytes, in whole bursts -/
  len   : Nat
  kind  : Access
  who   : Requester
  /-- the page hint of Table 16-3 -/
  hint  : Nat
  deriving DecidableEq, Repr

/-- A burst in a bank queue. -/
structure Burst where
  /-- its 64-byte address within the channel, and its row -/
  addr   : Nat
  row    : Nat
  write  : Bool
  who    : Requester
  hint   : Nat
  /-- how often younger bursts have passed it (R562) -/
  passed : Nat
  deriving DecidableEq, Repr

/-- A bank of a channel: its open row and its queue, oldest first (R561, R562). -/
structure BankQueue where
  openRow : Option Nat
  bursts  : List Burst
  deriving DecidableEq, Repr

/-- A DRAM channel. -/
structure Channel where
  state    : ChannelState
  dimm     : Option Dimm
  /-- rate code 0 to 3, as DRAM_CFG.RATE -/
  rate     : Nat
  temp     : Int
  /-- refresh debt by rank × 2 + subchannel (R567) -/
  debts    : List (Nat × Nat)
  selfRefresh : Bool
  refsb    : Bool
  retrains : Nat
  /-- DRAM_ECC -/
  lastDevice : Nat
  lastRank : Nat
  uncorr   : Nat
  corr     : Nat
  /-- per rank × 20 + device, the trusted times [µs] of its last 1,025 corrected bursts, newest first (R573) -/
  devices  : List (Nat × List Nat)
  /-- DRAM_PANIC -/
  panics   : Nat
  lastPort : Nat
  /-- the cause it is out for, or last was, and the trusted second of its last return (R573) -/
  cause    : Option OutCause
  /-- the cause for which it was last out, once it has returned -/
  lastCause : Option OutCause
  /-- a cause of R573 holds and the channel has not been taken out for it yet -/
  outDue   : Bool
  returned : Option Nat
  /-- out until the head is replaced (R573) -/
  stuckOut : Bool
  /-- trusted second of the last whole scrub (R571) -/
  scrubbed : Nat
  /-- reserved bursts left in this period, by port (R565) -/
  windows  : List (Nat × Nat)
  /-- the banks, by rank × 64 + subchannel × 32 + bank (R561) -/
  banks    : List (Nat × BankQueue)
  /-- by service class, the requester its rotating pointer stands at; by subchannel, the bank (R563, R564) -/
  turns    : List (Nat × Nat)
  bankTurns : List (Nat × Nat)
  /-- bursts in the FIFOs of the bell-synchronous ports, and the FIFOs in panic, by port × 2 + 1 for a write FIFO (R566) -/
  fifos    : List (Nat × Nat)
  panicking : List Nat
  /-- the bell of the last request (R569) -/
  lastUse  : Nat
  deriving DecidableEq, Repr

/-- An absent channel. -/
def Channel.reset : Channel where
  state := .absent
  dimm := none
  rate := 0
  temp := 0
  debts := []
  selfRefresh := false
  refsb := false
  retrains := 0
  lastDevice := 0
  lastRank := 0
  uncorr := 0
  corr := 0
  devices := []
  panics := 0
  lastPort := 0
  cause := none
  lastCause := none
  outDue := false
  returned := none
  stuckOut := false
  scrubbed := 0
  windows := []
  banks := []
  turns := []
  bankTurns := []
  fifos := []
  panicking := []
  lastUse := 0

/-- DRAM_EVAC.PHASE. -/
inductive EvacPhase where
  | none | copyingOut | out | copyingHome
  deriving DecidableEq, Repr

/-- An entry of the region guard (R559): base and limit in units of 2 MiB, initiator mask, rights. -/
structure GuardEntry where
  base  : Nat
  limit : Nat
  mask  : Nat
  read  : Bool
  write : Bool
  exec  : Bool
  deriving DecidableEq, Repr

/-- The DRAM controller. -/
structure Dram where
  channels : List Channel
  rateCap  : Nat
  mapLock  : Bool
  grain    : Nat
  srIdle   : Nat
  chSel    : Nat
  /-- the bring-up map is in force (R576) -/
  bringUp  : Bool
  bringUpChannels : List Nat
  /-- DRAM_EVAC -/
  evacChannel : Nat
  evacPhase : EvacPhase
  evacDone : Nat
  /-- the channel taken out next at its switch day, and whether it is to be retrained (R578) -/
  evacNext : Option (Nat × Bool)
  evacRetrain : Bool
  /-- DRAM_ECC_ADDR -/
  eccValid : Bool
  eccHpa   : Nat
  guard    : List GuardEntry
  /-- requests whose bursts have no place yet, oldest first (R561, R579) -/
  waiting  : List DramReq
  deriving DecidableEq, Repr

/-- Right after reset: nothing trained. -/
def Dram.reset : Dram where
  channels := List.replicate 16 Channel.reset
  rateCap := 3
  mapLock := false
  grain := 4
  srIdle := 0x14
  chSel := 0
  bringUp := false
  bringUpChannels := []
  evacChannel := 0
  evacPhase := .none
  evacDone := 0
  evacNext := none
  evacRetrain := false
  eccValid := false
  eccHpa := 0
  guard := []
  waiting := []

/-! ### Prefect, Faculty and live update (ch. 14) -/

/-- The fuse array (Table 14-1) without DEVICE_SEED, which is `Config.deviceSeed`. -/
structure Fuses where
  /-- LIFECYCLE: bits burned (Table 14-2) -/
  lifecycle : Nat
  /-- KEY_DIGEST of the burned slots -/
  digests   : List (Nat × Bytes)
  /-- KEY_REVOKED -/
  revoked   : Nat
  /-- values of CTR[0] to CTR[3] -/
  ctr0 : Nat
  ctr1 : Nat
  ctr2 : Nat
  ctr3 : Nat
  /-- I00_SCAN_OFF -/
  scanOff   : Bool
  deriving DecidableEq, Repr

/-- The pair channel between the two Prefects (R519). -/
structure PairChannel where
  secret   : Bytes
  peer     : Bytes
  sent     : Nat
  received : Nat
  deriving DecidableEq, Repr

/-- The steps of a Faculty activation on one head (R525). -/
inductive ActStep where
  /-- the running image was asked to move its work off this cluster island -/
  | emptying (island : Nat)
  /-- the cluster island was started on the new region -/
  | starting (island : Nat)
  /-- paused while the peer is presumed down (R527); the next cluster island -/
  | paused (island : Nat)
  deriving DecidableEq, Repr

/-- Who asked for an activation and awaits its completion. -/
inductive ActRequester where
  | packet (b : Binding) (tag : Nat)
  | nvme (cntlid cid : Nat)
  deriving DecidableEq, Repr

/-- A Faculty activation in progress (R525). -/
structure Activation where
  step  : ActStep
  since : Nat
  moved : List Nat
  who   : ActRequester
  slot  : Nat
  svn   : Nat
  deriving DecidableEq, Repr

/-- An entry of the seal table (R439): root ID, retention-until time [µs], fence epoch, pool ID bytes 0 to 7. -/
structure Seal where
  root   : Nat
  until_ : Nat
  fence  : Nat
  pool   : Nat
  deriving DecidableEq, Repr

/-- Prefect, its fuses, its boot flash and its clock. -/
structure Trust where
  fuses    : Fuses
  /-- boot flash (Table 14-6) -/
  flash    : BootFlash
  /-- slots whose key record matched its digest at the last start (PFM_KEYSLOTS.ENROLLED) -/
  matched  : Nat
  /-- PFM_STATE.STAGE 0 to 5 -/
  stage    : Nat
  prefectSlot : Nat
  facultySlot : Nat
  prefectRun : Nat
  facultyRun : Nat
  /-- the pair versions of the running Prefect image and of the peer's (R528) -/
  pairVersion : Nat
  oldestPair : Nat
  peerVersion : Nat
  peerOldest : Nat
  /-- a Prefect image loaded into SRAM bank 1 by recovery (R514) runs without a slot -/
  fromRecovery : Bool
  /-- chunks of the running Faculty image loaded and executable (R513 step 6) -/
  chunks   : List Nat
  /-- the Faculty code region is locked shared cache, not yet DRAM (R612) -/
  codeInCache : Bool
  /-- a downloaded Faculty image accepted under R511 waits in the slot not running -/
  downloaded : Bool
  /-- bytes of an image that NVMe Firmware Image Download is bringing (R116) -/
  nvmeImage : Bytes
  activation : Option Activation
  /-- PFM_STATE.HANDOVER, and the peer's Prefect is pausing (R521) -/
  peerPaused : Bool
  /-- the trusted clock [ns] (R440) -/
  clockNs  : Nat
  /-- the trusted clock [µs] of the newest clock record in the sealed store (R517) -/
  clockRecord : Nat
  channel  : Option PairChannel
  /-- the root key held, and the pool it belongs to -/
  rootKey  : Option Bytes
  rootPool : Bytes
  /-- the oscillator's time since VDD_AON became valid [ns] (R440, R441) -/
  oscNs    : Nat
  /-- what the clock still has to catch up by running 1/1,000 fast [ns] (R440) -/
  slewNs   : Nat
  /-- forward slews: oscillator time and amount [ns], newest first (R441) -/
  slews    : List (Nat × Nat)
  /-- oscillator time at which the delete-ticket hold ends [ns] (R441) -/
  holdEnd  : Option Nat
  seals    : List Seal
  deriving DecidableEq, Repr

/-- Right after reset: a chip as manufactured, Provisioned, with a blank boot flash. -/
def Trust.reset : Trust where
  fuses := ⟨1, [], 0, 0, 0, 0, 0, true⟩
  flash := ⟨[], [], ⟨none, 0⟩, ⟨none, 0⟩, ⟨none, 0⟩, ⟨none, 0⟩⟩
  matched := 0
  stage := 0
  prefectSlot := 0
  facultySlot := 0
  prefectRun := 0
  facultyRun := 0
  pairVersion := 0
  oldestPair := 0
  peerVersion := 0
  peerOldest := 0
  fromRecovery := false
  chunks := []
  codeInCache := false
  downloaded := false
  nvmeImage := []
  activation := none
  peerPaused := false
  clockNs := 0
  clockRecord := 0
  channel := none
  rootKey := none
  rootPool := zeros 16
  oscNs := 0
  slewNs := 0
  slews := []
  holdEnd := none
  seals := []


/-! ### Staging and hold-up (ch. 4) -/

/-- A hold-up measurement under way (R147): who asked. -/
inductive HoldupAsk where
  | start | schedule | retry
  | operator (b : Binding) (tag : Nat)
  deriving DecidableEq, Repr

/-- A vault region record (Table 10-13); `erased`: the half is wholly erased (R387). -/
structure VaultHalf where
  head    : Nat
  half    : Nat
  retired : Nat
  first   : Nat
  groups  : Nat
  erased  : Bool
  /-- image ID of the image it holds; 0 none -/
  image   : Nat
  deriving DecidableEq, Repr

/-- Staging, the commit marks and the bank. -/
structure Stg where
  versions  : List Ver
  entries   : List Entry
  /-- the Held records of the commit mark table -/
  marks     : List CommitMark
  /-- marks of the peer's image, as MARK_LIST brings them at a start (R162) -/
  peerMarks : List CommitMark
  /-- blocks left of the credit last granted by the peer (R130) -/
  credit    : Nat
  /-- blocks of writes admitted here and not yet Staged (R130) -/
  admitted  : Nat
  /-- reason of write-through (STG_STATE.REASON); 0 is write-back -/
  reason    : Nat
  /-- the peer is in write-through (R155) -/
  peerThrough : Bool
  limitMib  : Nat
  /-- a new limit, in force at the next bell (R153) -/
  limitNext : Option Nat
  /-- STG_HOLDUP_MEAS: E_meas [0.1 J], ESR [0.1 mΩ], C [µF]; STG_HOLDUP_TIME -/
  energy    : Nat
  esr       : Nat
  cap       : Nat
  when_     : Nat
  /-- STG_HOLDUP_CFG and STG_HOLDUP_V0 -/
  floor     : Nat
  vmin      : Nat
  eff       : Nat
  pdimm     : Nat
  itest     : Nat
  v0        : Nat
  measuring : Option HoldupAsk
  testLoad  : Bool
  chargerOff : Bool
  /-- the bell at which the charger was held off, or the load switched on (R147) -/
  stepAt    : Nat
  /-- E_meas of the last measurement in units of 0.1 J, as a fraction; zero for an invalid one (R149, R151) -/
  meas      : Nat × Nat
  /-- trusted second of the last operator request's measurement, of the last scheduled one, and of the next retry -/
  lastAsk   : Option Nat
  lastRun   : Nat
  retryAt   : Option Nat
  measureDue : Option Nat
  /-- Vault mode entry, and the seal (R156, R159) -/
  vaultAt   : Nat
  sealedAt  : Nat
  /-- the stage of the image: 0 none, 1 flushing, 2 sealed -/
  vault     : Nat
  /-- the image being written in Vault mode, and the sealed images in this head's halves -/
  image     : Option VaultImage
  /-- the first nonce of the image's message, and whether its trailer has been posted -/
  imageNonce : Bytes
  trailer   : Bool
  images    : List VaultImage
  /-- the write-through state of the last WRITE_THROUGH event (R154) -/
  told      : Bool
  /-- blocks of vault images restored at the start (R616), and waiting commands may run -/
  restored  : Bool
  /-- grains with an entry of a vault image not restored yet: volume, grain (R616) -/
  restoring : List (Nat × Nat)
  /-- the halves of an earlier vault layout are to be replaced (R384) -/
  halvesDue : Bool
  /-- halves replaced while they held an image neither retired nor superseded (R384) -/
  oldHalves : List VaultHalf
  deriving DecidableEq, Repr

/-- Right after reset: write-through, no measurement (STG_STATE). -/
def Stg.reset : Stg where
  versions := []
  entries := []
  marks := []
  peerMarks := []
  credit := 0
  admitted := 0
  reason := 5
  peerThrough := false
  limitMib := 0
  limitNext := none
  energy := 0
  esr := 0
  cap := 0
  when_ := 0
  floor := 0x258
  vmin := 0
  eff := 0x5A
  pdimm := 0
  itest := 0
  v0 := 0
  measuring := none
  testLoad := false
  chargerOff := false
  stepAt := 0
  meas := (0, 1)
  lastAsk := none
  lastRun := 0
  retryAt := none
  measureDue := none
  vaultAt := 0
  sealedAt := 0
  vault := 0
  image := none
  imageNonce := []
  trailer := false
  images := []
  told := true
  restored := false
  restoring := []
  halvesDue := false
  oldHalves := []


/-! ### De-duplication (ch. 5) -/

/-- A fingerprint to be resolved on this head (R175, R191): its grain handle, whether the peer asked, and X,
the content it stands for. -/
structure Resolution where
  grain   : Nat
  peer    : Bool
  domain  : Nat
  fp      : Bytes
  verify  : Bool
  through : Bool
  /-- the CID allocated for a write-through grain, 0 before -/
  wcid    : Nat
  /-- the number of the peer's RESOLVE message -/
  number  : Nat
  x       : Bytes
  /-- the bell it came, and whether pending has been answered -/
  at_     : Nat
  told    : Bool
  deriving DecidableEq, Repr

/-- An in-flight entry (R178), with the grains that wait on it, the content of the grain that made it, and that grain: its handle
and whether it is the peer's. -/
structure Inflight where
  domain  : Nat
  fp      : Bytes
  cid     : Nat
  /-- Pending, else Resolving -/
  pending : Bool
  waiters : List Resolution
  x       : Bytes
  maker   : Nat × Bool
  deriving DecidableEq, Repr


/-- A change in the index delta: action 1 insert, 2 remove, 3 poison set, 4 poison cleared. -/
structure DeltaRec where
  action : Nat
  r      : IdxRec
  /-- merged into a page whose epoch is not durable yet (R188) -/
  merged : Bool
  deriving DecidableEq, Repr

/-- The dedup unit and this head's half of the index. -/
structure Ddp where
  inflight : List Inflight
  /-- the resolution queue, in arrival order (R191) -/
  queue    : List Resolution
  /-- grains that wait for a way or for a place on an entry (R178, R179) -/
  blocked  : List Resolution
  /-- shares compared with content read from flash, by the number of the slot read, and the CID (R194) -/
  comparing : List (Nat × (Resolution × Nat))
  /-- fingerprints that await an index read (R193) -/
  indexing : List (Resolution × Nat)
  /-- the multiset of filter entries, as fingerprint bytes 8 to 15 (R182) -/
  filter   : List Nat
  /-- filter state: 0 absent, 1 rebuilding, 2 ready, 3 growing; buckets rebuilt; q; the load passed 0.90 -/
  fstate   : Nat
  rebuilt  : Nat
  /-- index pages that Recess work reads or writes: 0 filter, 1 merge, 2 split; bucket and half (R183, R184, R188, R190) -/
  sweeping : List (Nat × Nat)
  /-- the half being rebuilt, where it is not the whole filter (R184) -/
  half     : Option Nat
  q        : Nat
  stopped  : Bool
  /-- filter lines lost to DRAM and not rebuilt yet (Table 16-5) -/
  badLines : List Nat
  /-- q of the filter being built, ready to replace the old one at a day boundary (R183) -/
  grownQ   : Option Nat
  n        : Nat
  /-- the next bucket to split of a growth to n + 1, with its half (R190) -/
  split    : Option Nat
  deltaBits : Nat
  delta    : List DeltaRec
  /-- the merge sweep's next bucket -/
  sweep    : Option Nat
  /-- records of this head's index pages; of the peer's half as its pages and INDEX_CHANGE records hold them -/
  index    : List IdxRec
  peerHalf : List IdxRec
  /-- the MPA of each bucket's index page, by bucket and half as its header has them (Table 5-2) -/
  pages    : List (Nat × Nat)
  shed     : Nat
  overflow : Nat
  /-- the next CID of the ascending range and the free set (R177, R292) -/
  nextCid  : Nat
  freeCids : List Nat
  /-- reference deltas for CIDs the peer owns, batched for the next REF_DELTA (R176) -/
  deltas   : List (Nat × Int)
  deriving DecidableEq, Repr

/-- Before a pool exists. -/
def Ddp.reset : Ddp where
  inflight := []
  queue := []
  blocked := []
  comparing := []
  indexing := []
  filter := []
  fstate := 0
  rebuilt := 0
  sweeping := []
  half := none
  q := 0
  stopped := false
  badLines := []
  grownQ := none
  n := 0
  split := none
  deltaBits := 0
  delta := []
  sweep := none
  index := []
  peerHalf := []
  pages := []
  shed := 0
  overflow := 0
  nextCid := 1
  freeCids := []
  deltas := []


/-! ### Flash translation (ch. 8) and the volume directory (ch. 12) -/





/-- What waits for an epoch to be durable (R298). -/
inductive After where
  /-- release the versions a destage took, and end its in-flight entry (R145, R180) -/
  | release (job : Nat)
  /-- a CID's content-table record is durable (R180) -/
  | indexed (cid : Nat)
  /-- the index page of a bucket written by a merge is durable (R188), the two pages of a split one are (R190) -/
  | merged (bucket mpa : Nat)
  | split (bucket low high : Nat)
  /-- a Pending-Erase block may be erased 64 periods on (R307) -/
  | erasable (blk : Nat)
  /-- a checkpoint's phase 2 (R303), a stripe journal's (R345) -/
  | checkpoint
  | sjCheckpoint
  /-- a CID freed with its index removal durable (R177) -/
  | freeCid (cid : Nat)
  /-- a block substituted by rebuild (R359) -/
  | substituted (group pos : Nat)
  /-- strips of a group may be programmed (R344) -/
  | groupReady (group : Nat)
  /-- a counter ceiling (R253) -/
  | ceiling (handle lane value : Nat)
  /-- exact counters of a PS3 entry (R125) -/
  | ps3
  deriving DecidableEq, Repr

/-- A garbage-collection, refresh or retirement move under way: its block and the slots left to move. -/
structure MoveJob where
  blk     : Nat
  /-- 1 garbage collection, 2 retention refresh, 3 retirement, 4 wear levelling -/
  why     : Nat
  cids    : List Nat
  deriving DecidableEq, Repr

/-- The flash translation layer. -/
structure Ftl where
  /-- this head's tail, and the mirror of the peer's, oldest first (R299) -/
  tail      : List JRec
  mirror    : List JRec
  tailMib   : Nat
  /-- records written in the running epoch (the next sequence), and the epoch they belong to -/
  seqEpoch  : Nat
  nextSeq   : Nat
  /-- epochs of records sent in a JOURNAL message that awaits its acknowledgement: number, epoch -/
  unacked   : List (Nat × Nat)
  /-- the last epoch of this head whose seal is written, the last whose seal the peer acknowledged, the
  peer's last sealed epoch, and the last durable epoch -/
  sealWritten : Nat
  sealAcked : Nat
  peerSealed : Nat
  durable   : Nat
  /-- FTL_JOURNAL.CHECKPOINT, its epoch S, and the epoch of the last one started -/
  checkpoint : Nat
  ckptEpoch : Nat
  ckptLast  : Nat
  ckptPages : Nat
  /-- the directory of the checkpoint under way, once its pages are written; of a stripe journal's: first page, pages -/
  ckptDir   : Option Nat
  sjDir     : Option (Nat × Nat)
  /-- the applied position of each page and writing head: epoch, sequence (R304, Table 8-3) -/
  applied   : List (Nat × (Nat × Nat))
  /-- the MPA of each metadata page written (tree pages by `pageId`) -/
  mpas      : List (Nat × Nat)
  after     : List (Nat × After)
  roots     : List Root
  nextRoot  : Nat
  /-- the content table by CID -/
  ct        : List (Nat × CtRec)
  /-- block ledger by block; an unlisted block is Free with no erase -/
  blocks    : List (Nat × Ledger)
  /-- blocks that may be erased from a bell on (R307), and reads pinned to a block -/
  erasable  : List (Nat × Nat)
  pinned    : List (Nat × Nat)
  moves     : List MoveJob
  /-- metadata pages that are not resident: tree and page key (R294, R295) -/
  absent    : List (Nat × Nat)
  /-- the resident leaf pages by use, the least recently used first (R294) -/
  used      : List (Nat × Nat)
  /-- copies tried of a page being read, by tree × 2^64 + page; pages whose three copies failed (R283) -/
  metaTries : List (Nat × Nat)
  lostPages : List (Nat × Nat)
  /-- pages found uncorrectable on calibrated blocks, and the blocks calibrated, in this programme cycle (R314, R319) -/
  badPages  : List (Nat × Nat)
  calibrated : List Nat
  /-- blocks that became Full and are not calibrated since (R319) -/
  fullDue   : List Nat
  /-- dies that fell below 2 Free blocks and have not reached 4 again: bay, die (R311) -/
  lowDies   : List (Nat × Nat)
  /-- replay stopped at a gap in the flash journal (Table 9-9); a page of the seal table is unreadable (R439) -/
  journalGap : Bool
  sealFault  : Bool
  /-- pool spare state (Table 8-9), spare remaining [1/1,000] and wear [percent] -/
  spareState : Nat
  spareNext : Option Nat
  /-- members of the pool when Read-Only Retirement began (R317) -/
  spareMembers : Nat
  sparePermille : Nat
  /-- FTL_RETENTION.TRIAGE, the bell its wait for a time token began, and the classes of blocks (1 Due, 2 Urgent) -/
  triage    : Nat
  triageAt  : Nat
  /-- t_off of the last power-off, from which a token counts the unpowered gap [µs] (R322) -/
  offAt     : Nat
  triaged   : List (Nat × Nat)
  /-- the trusted clock [µs] at the last retention accrual -/
  accrued   : Nat
  /-- members' mean temperature since the last accrual [0.1 °C]: sum and count -/
  temps     : List (Nat × (Int × Nat))
  /-- the next page of each triad that metadata writes take: triad, linear page -/
  triadNext : List (Nat × Nat)
  /-- tails of metadata-bearing slots by CID (R371) -/
  tails     : List (Nat × Bytes)
  deriving DecidableEq, Repr

/-- Before a pool exists. -/
def Ftl.reset : Ftl where
  tail := []
  mirror := []
  tailMib := 0
  seqEpoch := 0
  nextSeq := 0
  unacked := []
  sealWritten := 0
  sealAcked := 0
  peerSealed := 0
  durable := 0
  checkpoint := 0
  ckptEpoch := 0
  ckptLast := 0
  ckptPages := 0
  ckptDir := none
  sjDir := none
  applied := []
  mpas := []
  after := []
  roots := []
  nextRoot := 1
  ct := []
  blocks := []
  erasable := []
  pinned := []
  moves := []
  absent := []
  used := []
  metaTries := []
  lostPages := []
  badPages := []
  calibrated := []
  fullDue := []
  lowDies := []
  journalGap := false
  sealFault := false
  spareState := 0
  spareNext := none
  spareMembers := 0
  sparePermille := 1000
  triage := 0
  triageAt := 0
  offAt := 0
  triaged := []
  accrued := 0
  temps := []
  triadNext := []
  tails := []


/-! ### Erasure coding and members (ch. 9) -/

/-- Member states of Table 9-10. -/
inductive MemberState where
  | none | inService | detention | missing | failed
  deriving DecidableEq, Repr

/-- A member (Tables 9-4, 10-14), with its deadline record (R354, R355). -/
structure Member where
  bay     : Nat
  state   : MemberState
  since   : Nat
  domain  : Nat
  weight  : Nat
  dies    : Nat
  dieType : Nat
  serial  : Bytes
  joined  : Nat
  misses  : Nat
  /-- consecutive operations without a miss in Detention (R355) -/
  onTime  : Nat
  /-- the count of misses reached 8: Detention at the next bell (R354) -/
  detain  : Bool
  /-- Failed, and every block of it replaced -/
  rebuilt : Bool
  deriving DecidableEq, Repr




/-- The parity and stripe engine, the members and the rebuild. -/
structure Ec where
  sel      : Nat
  members  : List Member
  groups   : List Group
  opened   : Nat
  openedIn : List (Nat × Nat)
  /-- patrol: next group and stripe, stripes done and in the pass, days of a pass -/
  patrolAt : Nat × Nat
  patrolDone : Nat
  mismatch : Nat
  lost     : Nat
  /-- blocks left to rebuild: group and position; those that patrol found faulty, which are rewritten in its stream class (R352);
  the one whose wait for a replacement is recorded (R362); triad copies left -/
  rebuild  : List (Nat × Nat)
  faulty   : List (Nat × Nat)
  waits    : Option (Nat × Nat)
  rebuildTriads : List (Nat × Nat)
  checkpoint : Nat
  ckptLast : Nat
  /-- the epoch of the newest stripe journal checkpoint whose phase 2 is durable (R345) -/
  sjEpoch  : Nat
  /-- the block being rebuilt: group, position, replacement -/
  replacing : Option (Nat × (Nat × Nat))
  /-- stripes with an unlocated mismatch: one redundancy fewer until rewritten (R351) -/
  weak     : List (Nat × Nat)
  /-- old parity read for an extension: group, column × 4 + page, bytes parity covers of the page (R341) -/
  parityReads : List (Nat × (Nat × Bytes))
  /-- triad copies that stand by: triad, copy, standby form -/
  standbys : List (Nat × (Nat × Nat))
  /-- layouts whose volumes are offline (R358) -/
  offline  : List Nat
  /-- day by which the sweep of a LOST_PAGE starts (R363) -/
  sweepBy  : Option Nat
  /-- the die of each form after which the next probe goes to the next one (R355) -/
  probed   : List (Nat × Nat)
  /-- members whose 30 s have passed and who wait for the operator (R357) -/
  awaiting : List Nat
  deriving DecidableEq, Repr

/-- Before a pool exists. -/
def Ec.reset : Ec where
  sel := 0
  members := []
  groups := []
  opened := 0
  openedIn := []
  patrolAt := (0, 0)
  patrolDone := 0
  mismatch := 0
  lost := 0
  rebuild := []
  faulty := []
  waits := none
  rebuildTriads := []
  checkpoint := 0
  ckptLast := 0
  sjEpoch := 0
  replacing := none
  weak := []
  parityReads := []
  standbys := []
  offline := []
  sweepBy := none
  probed := []
  awaiting := []


/-! ### Module bays (ch. 11) and the pool superblock (ch. 10) -/

/-- BAY_LINK.STATE. -/
inductive BayState where
  | absent | powering | training | up | degraded | down | unused | taken
  deriving DecidableEq, Repr

/-- How a module is classed (R382, R417). -/
inductive ModuleClass where
  | unknown | member | unformed | foreign
  deriving DecidableEq, Repr

/-- What a module's identity page says (Table 11-8). -/
structure Identity where
  dies      : Nat
  blocks    : Nat
  pages     : Nat
  endurance : Nat
  limit     : Nat
  serial    : Bytes
  retention : List (Nat × Nat)
  deriving DecidableEq, Repr

/-- A bay. -/
structure Bay where
  state    : BayState
  width    : Nat
  widthLoaded : Nat
  rate     : Nat
  rateLoaded : Nat
  retrains : Nat
  pwren    : Bool
  /-- this head drives BAY_PERST_N low -/
  perst    : Bool
  /-- the training has been retried once (R416) -/
  retried  : Bool
  ident    : Option Identity
  class_   : ModuleClass
  /-- pool ID of its newest superblock copy -/
  poolId   : Bytes
  fenced   : Nat
  uncorr   : Nat
  linkCorr : Nat
  /-- the register's last known witness value (R480) -/
  witness  : Nat
  /-- completions consumed -/
  cqHead   : Nat
  /-- next page of the superblock ring (R381) -/
  ring     : Nat
  /-- telemetry: highest temperature [0.1 °C], power [0.1 W] -/
  temp     : Int
  power    : Nat
  lastFull : Nat
  /-- the day on which its attention cause was last read (R421, Table 19-6) -/
  attnDay  : Nat
  /-- the bell at which the bay entered its present state -/
  since    : Nat
  /-- the newest superblock copy that a reading of the ring has found so far: generation, written time,
  writer, pool ID -/
  found    : Option (Nat × (Nat × (Nat × Bytes)))
  deriving DecidableEq, Repr

/-- An absent bay: pins at rest, BAY_PERST_N driven low (Table 19-5). -/
def Bay.rest : Bay where
  state := .absent
  width := 0
  widthLoaded := 0
  rate := 0
  rateLoaded := 0
  retrains := 0
  pwren := false
  perst := true
  retried := false
  ident := none
  class_ := .unknown
  poolId := []
  fenced := 0
  uncorr := 0
  linkCorr := 0
  witness := 0
  cqHead := 0
  ring := 0
  temp := 0
  power := 0
  lastFull := 0
  attnDay := 0
  since := 0
  found := none

/-- The bays, their die operations and fences. -/
structure Bays where
  sel     : Nat
  bays    : List (Nat × Bay)
  /-- BAY_WIDTH.QUAD, one code per quad -/
  quads   : List Nat
  /-- die operations that wait for a bell, and those outstanding, in order -/
  waiting : List DieOp
  outstanding : List DieOp
  nextTag : Nat
  /-- the fence epoch this head holds, by form number; and forms it posts nothing to (R406) -/
  fences  : List (Nat × Nat)
  halted  : List Nat
  /-- bay port groups out of service -/
  groupsOut : List Nat
  lastPoll : Nat
  deriving DecidableEq, Repr

/-- No module seated. -/
def Bays.reset : Bays where
  sel := 0
  bays := []
  quads := List.replicate 16 0
  waiting := []
  outstanding := []
  nextTag := 1
  fences := []
  halted := []
  groupsOut := []
  lastPoll := 0

/-- A head slot record (Table 10-11). -/
structure HeadSlot where
  chip   : Nat
  bound  : Bool
  digest : Bytes
  when_  : Nat
  deriving DecidableEq, Repr

/-- A timetable copy record (Table 10-12). -/
structure TtCopy where
  term   : Nat
  length : Nat
  day    : Nat
  copies : List Nat
  deriving DecidableEq, Repr

/-- The pool superblock (Table 10-10) as this head holds it; its member records are the members of the
erasure coding block. -/
structure Pool where
  id         : Bytes
  generation : Nat
  written    : Nat
  origin     : Nat
  kind       : Nat
  stagingGib : Nat
  q          : Nat
  n          : Nat
  deltaBits  : Nat
  layout     : Nat
  tailMib    : Nat
  reserve    : Nat
  /-- the metadata cache's size [GiB] (R294); 0 where this head has not formed the pool, as the superblock does not hold it -/
  cacheGib   : Nat
  term       : Nat
  ckptDir    : Nat
  ckptEpoch  : Nat
  groupPage  : Nat
  groupCount : Nat
  heads      : List HeadSlot
  active     : TtCopy
  armed      : TtCopy
  halves     : List VaultHalf
  /-- bay after which the next anchor write starts -/
  anchor     : Nat
  deriving DecidableEq, Repr


/-! ### Cipher, digest and coding engines (ch. 6, ch. 7) -/

/-- Locker states (Table 7-4). -/
inductive LockerState where
  | unbound | isOpen | exhausted | withdrawn
  deriving DecidableEq, Repr

/-- A locker (R234 to R247). `usage` is the count of its current generation, across the pair. -/
structure Locker where
  state    : LockerState
  gen      : Nat
  inst : Nat
  check    : Nat
  usage    : Nat
  /-- what this head may still encrypt of its last grant (R255) -/
  granted  : Nat
  warned   : Bool
  /-- an adopted fingerprint key (R456) -/
  fpKey    : Option Bytes
  /-- a change that takes effect at the change bell: new state and generation (R234) -/
  change   : Option (LockerState × Nat)
  deriving DecidableEq, Repr

/-- A locker nothing has bound. -/
def Locker.none : Locker where
  state := .unbound
  gen := 0
  inst := 0
  check := 0
  usage := 0
  granted := 0
  warned := false
  fpKey := Option.none
  change := Option.none

/-- A nonce counter of a key and writer lane (R252, R253): handle, generation, lane. -/
structure NonceCtr where
  handle  : Nat
  gen     : Nat
  lane    : Nat
  value   : Nat
  ceiling : Nat
  /-- a ceiling written and not yet durable -/
  next    : Option Nat
  deriving DecidableEq, Repr

/-- A cipher context (Table 7-9). -/
structure CipherCtx where
  number  : Nat
  island  : Nat
  cls     : Nat
  handle  : Nat
  writer  : Nat
  decrypt : Bool
  segmented : Bool
  stream  : Bool
  segment : Nat
  /-- message bytes done, additional data included, and bytes released to the destination -/
  done    : Nat
  released : Nat
  /-- the destination address -/
  dest    : Nat
  prevTag : Bytes
  finalSeen : Bool
  /-- the pre-counter block of the current segment, the GHASH accumulator, and the additional and text bytes
  of the segment done (Table 7-9) -/
  j0      : Bytes
  ghash   : Nat
  aadLen  : Nat
  textLen : Nat
  /-- 0 on a lane, 1 in the island's store, 2 spilled to DRAM -/
  place   : Nat
  savedAt : Nat
  wrapped : Bytes
  lane    : Nat
  deriving DecidableEq, Repr

/-- A digest context (R271, R272): 1 Open, 2 Final; unlisted is Free. -/
structure DigestCtx where
  number  : Nat
  state   : Nat
  fn      : DigestFn
  handle  : Nat
  gen     : Nat
  custom  : Bytes
  data    : Bytes
  read    : Nat
  deriving DecidableEq, Repr

/-- The cipher and digest engines and the key ladder's registers. -/
structure Ciph where
  lockers   : List (Nat × Locker)
  counters  : List NonceCtr
  ctxs      : List CipherCtx
  /-- instances of the WRAP, VAULT and METADATA labels (R239) -/
  wrapInstance : Nat
  failStatus : Nat
  failLane  : Nat
  failLocker : Nat
  failCount : Nat
  skipped   : Nat
  digests   : List DigestCtx
  digestLast : Nat
  digestCount : Nat
  /-- MR0 to MR31 -/
  mrs       : List Bytes
  /-- withdrawals that wait for their domain's staged writes: locker, binding, tag -/
  withdrawing : List (Nat × (Binding × Nat))
  /-- the older-generation cache of each cipher island: island, domain, generation, last used first (R240, Table 7-3) -/
  olderKeys : List (Nat × (Nat × Nat))
  deriving DecidableEq, Repr

/-- Right after cold reset. -/
def Ciph.reset : Ciph where
  lockers := []
  counters := []
  ctxs := []
  wrapInstance := 0
  failStatus := 0
  failLane := 0
  failLocker := 0
  failCount := 0
  skipped := 0
  digests := []
  digestLast := 0
  digestCount := 0
  mrs := List.replicate 32 (zeros 64)
  withdrawing := []
  olderKeys := []

/-- The coding engines' error registers (R231). -/
structure Skx where
  status : Nat
  part   : Nat
  lane   : Nat
  offset : Nat
  when_  : Nat
  count  : Nat
  deriving DecidableEq, Repr

/-- No error since cold reset. -/
def Skx.reset : Skx := ⟨0, 0, 0, 0, 0, 0⟩

/-! ### Work in the engines -/

/-- A destage of a grain (ch. 4, ch. 5), by stage. -/
inductive DestageStage where
  /-- waits for the old grain's quarters (R138) -/
  | completing
  | fingerprint | resolving
  | encode | encrypt | place
  /-- placed in a strip of a group; waits for its STRIPE_CLOSE -/
  | placed
  /-- recorded in the journal; waits for durability -/
  | recorded (epoch : Nat)
  deriving DecidableEq, Repr

/-- A grain's way from staging, garbage collection excluded, to a slot. Its number is its grain handle. -/
structure Destage where
  job     : Nat
  vol     : Nat
  grain   : Nat
  /-- sequence of the version taken of each quarter; 0 none (R145) -/
  taken   : List Nat
  seq     : Nat
  quarters : List (Option Bytes)
  pis     : List Bytes
  /-- some quarter carries protection information (R172) -/
  hasPi   : Bool
  /-- the volume's blocks have 64 bytes of metadata: X goes on with them (R169) -/
  withMeta : Bool
  domain  : Nat
  layout  : Nat
  /-- quarter poison mask of the new content (R324) -/
  mask    : Nat
  through : Bool
  stage   : DestageStage
  /-- the epoch of its map record (R155) -/
  mapped  : Option Nat
  fp      : Bytes
  cid     : Nat
  wcid    : Nat
  /-- resolution outcome: 0 existing, 1 new, 2 shed, 4 heal -/
  outcome : Nat
  /-- the outcome is known -/
  resolved : Bool
  /-- the CID the map changes to after a write-through grain's own (R155); 0 none -/
  final   : Nat
  tier    : Nat
  slot    : Bytes
  env     : Bytes
  gen     : Nat
  deriving DecidableEq, Repr

/-- Why a slot is read. -/
inductive ReadWhy where
  /-- blocks of a host command: controller, queue, command -/
  | host (cntlid qid cid : Nat)
  /-- quarters a destage completes from -/
  | completion (job : Nat)
  /-- content a verify-mode share is compared with, by grain handle -/
  | verify (grain : Nat)
  | move (blk : Nat)
  | patrol
  | transfer (session : Nat)
  deriving DecidableEq, Repr

/-- Where a slot read stands. -/
inductive ReadStage where
  | die | reconstruct | decrypt | decode
  deriving DecidableEq, Repr

/-- A slot read (R280, R281, R347 to R349). -/
structure SlotRead where
  job     : Nat
  why     : ReadWhy
  grain   : Nat
  cid     : Nat
  psa     : Nat
  want    : List Nat
  stage   : ReadStage
  cipher  : Bytes
  envs    : List Bytes
  plain   : Bytes
  /-- strip positions asked as sources and those returned, with the slot's byte range -/
  sources : List (Nat × Option Bytes)
  /-- reconstructions tried, the lane that failed a tag or a decode first, and its errors -/
  tries   : Nat
  rebuilt : Bool
  failLane : Option Nat
  failErrors : List (Nat × (Nat × Nat))
  /-- by when its die read is posted, or its PSA is resolved again (R308) -/
  postBy  : Nat
  /-- the pointer followed was stale: the slot is rewritten once it verifies (R281) -/
  stale   : Bool
  deriving DecidableEq, Repr

/-- The engines' work. -/
structure Jobs where
  next     : Nat
  destages : List Destage
  reads    : List SlotRead
  /-- contents read for a replication session: session, grain, CID, X or none when Lost -/
  handed   : List (Nat × (Nat × (Nat × Option Bytes)))
  /-- slots of moves that wait for a place: layout, slot (R309, R330) -/
  homeless : List (Nat × Placed)
  deriving DecidableEq, Repr

/-- No work. -/
def Jobs.reset : Jobs := ⟨1, [], [], [], []⟩


/-! ### Metadata on flash (R303, R305) -/


/-- Trees without a page. -/
def MetaImage.empty : MetaImage where
  epoch := 0
  seq := 0
  roots := []
  nextRoot := 1
  ct := []
  blocks := []
  index := []
  pages := []
  groups := []
  opened := 0
  tails := []
  applied := []
  mpas := []

/-- The last whole checkpoint, the one under way, and the newest epoch whose records are in journal pages. -/
structure Saved where
  last    : MetaImage
  doing   : Option MetaImage
  flushed : Nat
  /-- journal records on flash since the last whole checkpoint, oldest first -/
  log     : List JRec
  deriving DecidableEq, Repr

/-- Before a pool exists. -/
def Saved.reset : Saved where
  last := MetaImage.empty
  doing := none
  flushed := 0
  log := []


/-! ### Host fabric and command queues (ch. 3) -/

/-- Command states (Table 3-9). -/
inductive CmdState where
  | queued | fetched | dataIn | staged | resolved | completed | failed | discarded
  deriving DecidableEq, Repr

/-- Where a read takes a block from (R105 to R107). -/
inductive Source where
  /-- the version of a write, in staging or still to come, and what stands in its place should the write fail (R106) -/
  | version (grain quarter seq : Nat) (below : Source)
  /-- a quarter of a CID -/
  | flash (cid quarter : Nat)
  /-- zeros: unmapped, deallocated, CID 0 -/
  | zero
  deriving DecidableEq, Repr

/-- A command context: a fetched command until its completion (R92, R101). -/
structure Ctx where
  cntlid : Nat
  qid    : Nat
  cid    : Nat
  cap    : Capsule
  /-- host identifier of its controller -/
  host   : Bytes
  state  : CmdState
  /-- fetch sequence number (R103) and the bell of the fetch -/
  seq    : Nat
  at_    : Nat
  /-- Corridor messages whose answers are awaited: MIRROR_DATA, COMMIT -/
  mirrors : List Nat
  commits : List Nat
  /-- blocks staged so far, and whether COMMIT has been sent -/
  blocks : List (Nat × Bytes)
  committed : Bool
  /-- per block of a read: its source and, once known, its data -/
  reads  : List (Source × Option Bytes)
  /-- write-through: grains whose slots are not durable yet (R155) -/
  through : List Nat
  /-- some block of the write has been mirrored (R639) -/
  sent    : Bool
  /-- the host's blocks asked for so far -/
  pulled  : Nat
  /-- the status of a reservation command, decided at its fetch (R109) -/
  decided : Option (Nat × Nat × Bool × Nat)
  deriving DecidableEq, Repr

/-- An I/O or admin queue of a controller with its connection. -/
structure Queue where
  cntlid : Nat
  qid    : Nat
  size   : Nat
  port   : Nat
  weight : Nat
  /-- capsules not yet fetched, with command identifier and bell of arrival; oldest first -/
  capsules : List (Nat × Capsule × Nat)
  /-- a request for a fetch sequence number from the peer is out (R103): its tag -/
  asked  : Option Nat
  /-- granted number, for the capsule at the head -/
  granted : Option Nat
  sqhd   : Nat
  deriving DecidableEq, Repr

/-- A controller (R90). -/
structure Controller where
  /-- the controller among those of this head, as rows name it -/
  cntlid  : Nat
  /-- its CNTLID, unique in its subsystem (R90) -/
  number  : Nat
  subsystem : Nat
  nqn     : Bytes
  hostId  : Bytes
  /-- CC as last written, and CSTS.RDY -/
  cc      : Nat
  enabled : Bool
  ready   : Bool
  /-- keep-alive timeout [ms] and the bell it was last restarted -/
  kato    : Nat
  alive   : Nat
  queues  : Nat
  /-- feature values set, by FID (Table 3-6) -/
  features : List (Nat × Nat)
  /-- outstanding Asynchronous Event Requests -/
  aers    : List Nat
  /-- Error Information entries, newest first: queue, command, NVMe status, Damrid status, first LBA, NSID; and how
  many there have been -/
  errors  : List (Nat × (Nat × (Nat × (Nat × (Nat × Nat)))))
  errorCount : Nat
  /-- namespaces created, deleted or resized since the list was last read -/
  changed : List Nat
  /-- Reservation Notification entries, oldest first: type, NSID -/
  notices : List (Nat × Nat)
  dataRead : Nat
  dataWritten : Nat
  deriving DecidableEq, Repr

/-- A reservation on a namespace (R109): registrants with their keys, holder, type, PTPL. -/
structure Reservation where
  nsid    : Nat
  gen     : Nat
  keys    : List (Bytes × Nat)
  holder  : Option Bytes
  rtype   : Nat
  ptpl    : Bool
  deriving DecidableEq, Repr

/-- A host NQN binding (R96) to a subsystem: class 0 none, else the class of C0h to C3h, and the weight (R100). -/
structure HostBinding where
  nqn    : Bytes
  subsystem : Nat
  cls    : Nat
  weight : Nat
  deriving DecidableEq, Repr

/-- A subsystem and the hosts that may reach it (R88, R89). -/
structure Subsystem where
  number : Nat
  nqn    : Bytes
  deriving DecidableEq, Repr

/-- Host ports and queues. -/
structure Hq where
  /-- port modes of I05 to I08 -/
  modes    : List Nat
  linkUp   : Nat
  timeout  : Nat
  subsystems : List Subsystem
  hosts    : List HostBinding
  /-- MCTP endpoints with the class the operator bound -/
  endpoints : List (Nat × Nat)
  controllers : List Controller
  queues   : List Queue
  ctxs     : List Ctx
  /-- the next fetch sequence number of each namespace this head owns -/
  fsn      : List (Nat × Nat)
  /-- owner of each ANA group, and groups held during a move (R119) with its boundary epoch -/
  owners   : List (Nat × Nat)
  held     : List Nat
  moving   : List (Nat × (Nat × Nat))
  /-- namespaces whose fetch is held, without failing commands (R461, R463) -/
  heldNs   : List Nat
  reservations : List Reservation
  /-- Dispatcher pointer (R100) -/
  turn     : Nat
  /-- capsules the granted connection has fetched -/
  taken    : Nat
  /-- ports whose NVMe/TCP receive windows are closed (R93) -/
  closed   : List Nat
  /-- completions of admin commands held in the final handover step of an activation (R116) -/
  heldDone : List Output
  nextTag  : Nat
  /-- RoCEv2 queue pairs whose rate CNPs have reduced: controller, queue, rate in 2^-32 of the link's (R88) -/
  cnps     : List (Nat × (Nat × Nat))
  /-- peer's requests for numbers that wait on admission (R103): message number, NSID, tag,
  the command and its host identifier -/
  fsnWaits : List (Nat × (Nat × (Nat × (Capsule × Bytes))))
  /-- power state in force, last operational state, changes that take effect at the next bell: state, controller,
  command, bell of the Set Features -/
  ps       : Nat
  lastPs   : Nat
  psNext   : List (Nat × (Nat × (Nat × Nat)))
  /-- a PS3 entry under way: bell, controller, command, and the epoch of its COUNTER records once written -/
  ps3      : Option (Nat × (Nat × (Nat × Option Nat)))
  ps3Exit  : Option Nat
  nextCntlid : Nat
  deriving DecidableEq, Repr

/-- Right after reset. -/
def Hq.reset : Hq where
  modes := [0, 0, 0, 0]
  linkUp := 0
  timeout := 4
  subsystems := []
  hosts := []
  endpoints := []
  controllers := []
  queues := []
  ctxs := []
  fsn := []
  owners := []
  held := []
  moving := []
  heldNs := []
  reservations := []
  turn := 0
  taken := 0
  closed := []
  heldDone := []
  nextTag := 1
  cnps := []
  fsnWaits := []
  ps := 0
  lastPs := 0
  psNext := []
  ps3 := none
  ps3Exit := none
  nextCntlid := 0


/-! ### Snapshot groups and replication (ch. 12) -/

/-- Why a consistency group is cut. -/
inductive SnapWhy where
  | packet (b : Binding) (tag : Nat)
  /-- the peer head asked for it (SNAP_FENCE) -/
  | peer
  /-- the replica snapshot of a transfer (R453) -/
  | replica (session transfer : Nat)
  /-- a sync checkpoint of a relation, at the source or the receiver (R459) -/
  | checkpoint (session : Nat) (source : Bool)
  /-- a catch-up of a fractured relation (R461) -/
  | resume (session : Nat)
  /-- a fresh snapshot of a migration, and the final one of a cutover (R462, R463) -/
  | migration (session root : Nat)
  | cutover (session root : Nat)
  deriving DecidableEq, Repr

/-- A consistency group that is not settled (R427 to R430): why, its request tag, the volumes, their snapshots, and
the fence bell once it is agreed. -/
structure SnapGroup where
  why    : SnapWhy
  tag    : Nat
  roots  : List Nat
  snaps  : List Nat
  fence  : Option Nat
  until_ : Nat
  /-- the fence bell has come -/
  cut    : Bool
  /-- the request waits for an earlier group of one of the volumes to settle -/
  waits  : Bool
  deriving DecidableEq, Repr

/-- A replication partner (R442): chip index and digest of its identity public keys. -/
structure Partner where
  chip   : Nat
  digest : Bytes
  deriving DecidableEq, Repr

/-- Where a session stands (R444). -/
inductive SessionStep where
  /-- the offerer has sent OFFER -/
  | offered
  /-- the acceptor has sent ACCEPT -/
  | accepted
  /-- the offerer has sent PROVE -/
  | proving
  | isOpen
  deriving DecidableEq, Repr

/-- A replication session by its session register (R443 to R450). -/
structure Session where
  reg      : Nat
  number   : Nat
  peer     : Nat
  /-- TCP port of the connection (R443) -/
  port     : Nat
  offerer  : Bool
  step     : SessionStep
  /-- bell of the last handshake message sent -/
  at_      : Nat
  offer    : Bytes
  accept   : Bytes
  /-- the X448 private value and the ML-KEM-1024 seed drawn for the session -/
  xPriv    : Bytes
  kem      : Bytes
  secret   : Bytes
  hash     : Bytes
  pool     : Bytes
  /-- trusted second at which it opened, and bytes in each direction -/
  opened   : Nat
  sent     : Nat
  received : Nat
  /-- the outgoing message: number, next segment, first nonce, tag before; the text of the next segment and the
  bell at which its first record came -/
  message  : Nat
  segment  : Nat
  nonce    : Bytes
  prevTag  : Bytes
  text     : Bytes
  textAt   : Option Nat
  who      : Option (Binding × Nat)
  closing  : Bool
  /-- a segment of it failed on a cipher lane: the session fails (R450) -/
  failed   : Bool
  /-- the session it takes over from (R448) -/
  replaces : Option Nat
  deriving DecidableEq, Repr

/-- Why a transfer runs. -/
inductive TransferWhy where
  /-- a packet asked for it -/
  | packet (b : Binding) (tag : Nat)
  /-- a migration, by its root; the final transfer of a cutover -/
  | migration (root : Nat)
  | cutover (root : Nat)
  /-- a fractured relation catches up -/
  | resume (root : Nat)
  | received
  deriving DecidableEq, Repr

/-- A transfer (R451 to R455). At the source `root`, `base` and `snap` are its own roots; at the receiver they are the
source's and `replica` is its own. -/
structure Transfer where
  session : Nat
  number  : Nat
  source  : Bool
  why     : TransferWhy
  base    : Nat
  snap    : Nat
  replica : Nat
  flags   : Nat
  until_  : Nat
  /-- the FINGERPRINTS entries, in order -/
  entries : Bytes
  /-- grains wanted and not served yet -/
  wants   : List Nat
  /-- receiver: the F of kind 0 entries that were wanted, by grain -/
  expect  : List (Nat × Bytes)
  /-- receiver: versions staged, grain and sequence -/
  staged  : List (Nat × Nat)
  /-- END came: entries and manifest digest -/
  ended   : Option (Nat × Bytes)
  /-- migration: grains whose slot is read again by reconstruction (R462) -/
  retried : List Nat
  /-- a WANT for the FINGERPRINTS has come -/
  asked   : Bool
  deriving DecidableEq, Repr

/-- A write of a synchronous relation: its root and fetch sequence at the source, the bell it was sent; at the receiver
the fetch sequence it took here. It is acknowledged at the source by SYNC_ACK, at the receiver once it is committed. -/
structure SyncWait where
  root  : Nat
  seq   : Nat
  at_   : Nat
  acked : Bool
  /-- the peer's COMMIT that is answered once the write is acknowledged: number and mark -/
  commit : Option (Nat × CommitMark)
  deriving DecidableEq, Repr

/-- A synchronous relation (R457 to R461), at the source or the receiver. -/
structure SyncRel where
  session : Nat
  source  : Bool
  /-- source root and replica root -/
  roots   : List (Nat × Nat)
  /-- timeout [ms]; stall policy, else fracture -/
  timeout : Nat
  stall   : Bool
  fractured : Bool
  /-- epoch from which writes are sent -/
  fromEpoch : Nat
  /-- SYNC_WRITEs that are not Staged at the source, or not answered at the receiver, in order -/
  waiting : List SyncWait
  /-- the bell of the last checkpoint, and its snapshots: root, snapshot -/
  checkAt : Nat
  checks  : List (Nat × Nat)
  /-- source: snapshots of a checkpoint or catch-up cut last, and whether its COMMIT has come -/
  made    : List (Nat × Nat)
  seen    : Bool
  /-- receiver: what is added to a source's fetch sequence, by source root -/
  bases   : List (Nat × Nat)
  /-- the bell of the last catch-up attempt -/
  triedAt : Nat
  /-- the last catch-up runs with fetch held (R461) -/
  final   : Bool
  /-- round trip of the last SYNC_ACK [bells] -/
  rtt     : Nat
  deriving DecidableEq, Repr

/-- A migration (R462, R463). -/
structure Migration where
  session : Nat
  root    : Nat
  domain  : Nat
  /-- snapshots to transfer, oldest first, and the last one committed -/
  queue   : List Nat
  last    : Nat
  lastAt  : Nat
  /-- MIGRATE_EXPORT that waits for the oldest-first transfers; MIGRATE_CUTOVER with its transit group -/
  who     : Option (Binding × Nat)
  cutover : Option (Binding × Nat)
  transit : Nat
  deriving DecidableEq, Repr

/-- A DOMAIN_CREATE that waits for KEY_ADOPT (R456). -/
structure Adoption where
  domain  : Nat
  session : Nat
  verify  : Bool
  since   : Nat
  who     : Binding × Nat
  deriving DecidableEq, Repr

/-- Snapshot groups and replication. -/
structure Repl where
  groups     : List SnapGroup
  nextGroup  : Nat
  partners   : List Partner
  sessions   : List Session
  transfers  : List Transfer
  nextTransfer : Nat
  syncs      : List SyncRel
  migrations : List Migration
  adoptions  : List Adoption
  /-- replicas this head receives: root IDs -/
  replicas   : List Nat
  /-- the handshake of the pair channel between the two Prefects (R519) -/
  pairing    : Option Session
  deriving DecidableEq, Repr

/-- Right after reset. -/
def Repl.reset : Repl := ⟨[], 1, [], [], [], 1, [], [], [], [], none⟩



/-! ### The head pair and the federation (ch. 13) -/

/-- Roll call states (Table 13-2). -/
inductive RollCall where
  | inService | presumedDown | selfFenced | joining | noPeer
  deriving DecidableEq, Repr

/-- A message that awaits its answer (R144). -/
structure Sent where
  number  : Nat
  body    : CorrBody
  at_     : Nat
  resends : Nat
  /-- a RESOLVE that has been answered pending (R175) -/
  pending : Bool
  deriving DecidableEq, Repr

/-- A federation chip as heard of (R495). -/
structure FedChip where
  chip   : Nat
  heard  : Nat
  unreachable : Bool
  deriving DecidableEq, Repr

/-- The Corridor, roll call, arbitration, failover, handover and the federation. -/
structure Corr where
  /-- CORR_LINK: state 0 down, 1 training, 2 up, 3 Degraded, 4 refused; lanes; retrains; reversal; inverted lanes -/
  link     : Nat
  lanes    : Nat
  retrains : Nat
  reversed : Bool
  inverted : Nat
  roll     : RollCall
  /-- the day of the last heartbeat that came in time, misses, and the last heartbeat's state -/
  beatDay  : Nat
  misses   : Nat
  /-- the heads have exchanged their day counts since the last Corridor training (R43) -/
  daysKnown : Bool
  lastBeat : Nat
  /-- CORR_ARB_ROUND, and CORR_ARB_RESULT: outcome 0 none, 1 continues, 2 self-fenced, 3 undecided -/
  round    : Nat
  running  : Bool
  outcome  : Nat
  held     : Nat
  members  : Nat
  /-- bays whose first CAS of the round failed and was repeated -/
  repeated : List Nat
  /-- witness operations that have not returned: bay, expected value, new value; bays whose value the round has shown -/
  cas      : List (Nat × (Nat × Nat))
  learned  : List Nat
  /-- the day of the last heartbeat missed -/
  missDay  : Option Nat
  nextNumber : Nat
  unanswered : List Sent
  /-- answers given, by message number (R144) -/
  answered : List (Nat × CorrBody)
  /-- bell of the last refusal (R469) -/
  refusedAt : Nat
  /-- a Corridor fault is reported and not yet decided -/
  fault    : Bool
  /-- VAULT_NOTICE received at a bell and its forms not fenced yet (R161); VAULT_DONE came -/
  notice   : Option Nat
  /-- the image ID VAULT_NOTICE carried, until the peer's image is retired (R161) -/
  peerImage : Option Nat
  /-- of the failover under way: 0 nothing, 1 the peer's journal tail is replayed, 2 its groups are taken (R486) -/
  failover : Nat
  /-- groups taken from the peer at the last failover, which move back at the end of a handover -/
  taken    : List Nat
  /-- the peer has sent HELLO since the last training (R640). The handover (R491) as this head stands in it: 0 none, 1 HELLO
  sent, 2 identity verified, 3 root key sent or received, 4 phase stepped, 5 images sent or taken, 6 the copy is due or
  complete, 7 copying, or RESYNC_DONE sent, 8 the primary sheet is due, 9 the groups move back -/
  helloSeen : Bool
  step     : Nat
  joinDay  : Nat
  adopt    : Option Bytes
  /-- HEAD_RELEASE awaiting its moves: binding, tag -/
  releasing : Option (Binding × Nat)
  /-- the head has sent RELEASE_NOTICE for HEAD_RELEASE, and the day boundary at which the peer switches (R490) -/
  released : Bool
  releaseDay : Nat
  /-- the day of the last full retrain of a Degraded link, or of the training that left it Degraded (R470) -/
  lastFull : Nat
  /-- the time token last forwarded (R496) -/
  token    : Bytes
  /-- round-trip of BELL_SYNC: send cycle of the last one sent -/
  syncSent : Nat
  /-- the roster held and its number; chips of it; last FED_HEARTBEAT sent -/
  roster   : Bytes
  rosterNo : Nat
  chips    : List FedChip
  fedSent  : Nat
  deriving DecidableEq, Repr

/-- Right after cold reset: no peer (CORR_ROLLCALL). -/
def Corr.reset : Corr where
  link := 0
  lanes := 0
  retrains := 0
  reversed := false
  inverted := 0
  roll := .noPeer
  beatDay := 0
  misses := 0
  daysKnown := false
  lastBeat := 0
  round := 0
  running := false
  outcome := 0
  held := 0
  members := 0
  repeated := []
  cas := []
  learned := []
  missDay := none
  nextNumber := 0
  unanswered := []
  answered := []
  refusedAt := 0
  fault := false
  notice := none
  peerImage := none
  failover := 0
  taken := []
  helloSeen := false
  step := 0
  joinDay := 0
  adopt := none
  releasing := none
  released := false
  releaseDay := 0
  lastFull := 0
  token := []
  syncSent := 0
  roster := []
  rosterNo := 0
  chips := []
  fedSent := 0

/-! ### The state -/

/-- Everything the spec gives one Damrid, what it has sent, the draws of free values made, and the
queue of the commands that wait. -/
structure State where
  /-- which head this is -/
  sys : Sys
  /-- rails, domains, clocks, resets, start-up -/
  pwr : Pwr
  /-- the protected bank, temperature and test access -/
  pins : Pins
  /-- the DRAM controller -/
  dram : Dram
  /-- Prefect, Faculty, fuses and boot flash -/
  trust : Trust
  /-- the control packet interface -/
  cpi : Cpi
  /-- the Diary -/
  diary : Diary
  /-- Tally, windows, report card counts -/
  tally : Tally
  /-- the timetable, the bell and admission -/
  tt : Tt
  /-- engine lanes -/
  lanes : Lanes
  /-- staging, marks and the capacitor bank -/
  stg : Stg
  /-- the dedup unit -/
  ddp : Ddp
  /-- flash translation, the journal and the volume directory -/
  ftl : Ftl
  /-- erasure coding and members -/
  ec : Ec
  /-- module bays and die operations -/
  bay : Bays
  /-- the pool superblock; none before a pool is bound -/
  pool : Option Pool
  /-- metadata as checkpoints and journal pages hold it -/
  saved : Saved
  /-- cipher and digest engines, lockers, measurement registers -/
  ciph : Ciph
  /-- the coding engines' error registers -/
  skx : Skx
  /-- destages and slot reads in the engines -/
  jobs : Jobs
  /-- host ports, controllers, queues, commands -/
  hq : Hq
  /-- snapshot groups, sessions, transfers, relations, migrations -/
  repl : Repl
  /-- the Corridor, roll call, the federation -/
  corr : Corr
  /-- what Damrid has sent and driven, oldest first -/
  out : List Output
  /-- the number of free values drawn; the next drawn is `Config.free` of it (the model's own field) -/
  draws : Nat
  /-- the commands that wait, first in, first out -/
  pending : List Instr
  deriving DecidableEq, Repr

/-- The machine right after reset. -/
def State.reset : State where
  sys := Sys.reset
  pwr := Pwr.reset
  pins := Pins.reset
  dram := Dram.reset
  trust := Trust.reset
  cpi := Cpi.reset
  diary := Diary.reset
  tally := Tally.reset
  tt := Tt.reset
  lanes := Lanes.reset
  stg := Stg.reset
  ddp := Ddp.reset
  ftl := Ftl.reset
  ec := Ec.reset
  bay := Bays.reset
  pool := none
  saved := Saved.reset
  ciph := Ciph.reset
  skx := Skx.reset
  jobs := Jobs.reset
  hq := Hq.reset
  repl := Repl.reset
  corr := Corr.reset
  out := []
  draws := 0
  pending := []

end Sys2Proof.Machine
end

