-- ==== Sys2Proof/Machine/Ops.lean ====
section
/-! DEFINITION. The named operations every meaning is built from: outcomes, time, what is sent,
free values, the Diary intake, Tally counters, claims, control replies. -/

namespace Sys2Proof.Machine

/-- The outcome of a command that has its effect. -/
abbrev done (s : State) : Host.Outcome State Fault Refusal := .next s

/-- The outcome of a timed or conditional event: its effect when the condition holds, else nothing. -/
def whenDue (c : Prop) [Decidable c] (t s : State) : Host.Outcome State Fault Refusal :=
  .next (if c then t else s)

/-! ### Time -/

/-- The current day (R13, R39). -/
def State.day (s : State) : Nat := s.tt.now / 1024

/-- The current period of the day. -/
def State.period (s : State) : Nat := s.tt.now % 1024

/-- The current FTL epoch: 8 periods (R296). -/
def State.epoch (s : State) : Nat := s.tt.now / 8

/-- Bells in a number of milliseconds, rounded down: a period is 16 µs (R38). -/
def msBells (ms : Nat) : Nat := ms * 125 / 2

/-- Bells in a number of seconds. -/
def secBells (sec : Nat) : Nat := sec * 62500

/-- The trusted clock in µs (R440). -/
def State.clockUs (s : State) : Nat := s.trust.clockNs / 1000

/-- The trusted clock in whole seconds. -/
def State.clockSec (s : State) : Nat := s.trust.clockNs / 1000000000

/-- The first day boundary at least 2 periods after now, as a day number (R81). -/
def State.switchDay (s : State) : Nat := (s.tt.now + 2 + 1023) / 1024

/-! ### Temperature (R627, R637) -/

/-- SMBALERT_N from the hottest sensor: asserted at 100 °C or above, released below 97 °C (R627). -/
def alertAfter (was : Bool) (hottest : Int) : Bool :=
  if 100 ≤ hottest then true else if hottest < 97 then false else was

/-- A reading of the hottest on-die sensor. -/
def noteHottest (temp : Int) (island : Nat) (s : State) : State :=
  { s with pins := { s.pins with
    hottest := temp, sensor := island, alert := alertAfter s.pins.alert temp
    coolSince := if temp < 95 then s.pins.coolSince.or (some s.tt.now) else none } }

/-! ### Emission and free values -/

/-- Damrid sends or drives something. -/
def emit (o : Output) (s : State) : State := { s with out := s.out ++ [o] }

/-- Damrid sends several things in order. -/
def emitAll (os : List Output) (s : State) : State := { s with out := s.out ++ os }

/-- The next free value. -/
def State.free (s : State) : Nat := Config.free s.draws

/-- The free value i draws on. -/
def State.freeAt (s : State) (i : Nat) : Nat := Config.free (s.draws + i)

/-- n free values have been drawn. -/
def drawn (n : Nat) (s : State) : State := { s with draws := s.draws + n }

/-- n random bytes from the next free values (the CTR_DRBG of R500). -/
def State.randomBytes (s : State) (n : Nat) : Bytes :=
  (List.range n).map (fun i => BitVec.ofNat 8 (s.freeAt i))

/-! ### Tally counters (R588 to R590) -/

/-- A counter no setting has touched. -/
def Ctr.zero : Ctr := ⟨0, 0, false, false, false, false, false⟩

/-- A counter's present state. -/
def Tally.ctr (t : Tally) (i : Nat) : Ctr := (getKey i t.ctrs).getD Ctr.zero

/-- A counter after n more occurrences: it wraps with a sticky flag, or saturates (R590). -/
def Ctr.add (c : Ctr) (n : Nat) : Ctr :=
  if c.value + n < 2 ^ 48 then { c with value := c.value + n }
  else if c.saturate then { c with value := 2 ^ 48 - 1, saturated := true }
  else { c with value := (c.value + n) % 2 ^ 48, overflow := true }

/-- Counter c of a block counts n occurrences. -/
def tallyAdd (block c n : Nat) (s : State) : State :=
  { s with tally := { s.tally with
      ctrs := putKey (16 * block + c) ((s.tally.ctr (16 * block + c)).add n) s.tally.ctrs } }

/-- Counter c of DDP counts an occurrence in a domain, and counter c + 5 where TALLY_CONFIG names that domain (Table 17-3,
R589). -/
def tallyDomain (c domain : Nat) (s : State) : State :=
  let s1 := tallyAdd 0x06 c 1 s
  if (s1.tally.ctr (0x60 + c + 5)).event = domain then tallyAdd 0x06 (c + 5) 1 s1 else s1

/-- The programmable counters that count an event code count one occurrence (R589). -/
def Tally.countEvent (t : Tally) (code : Nat) : Tally :=
  { t with ctrs := t.ctrs.map (fun p =>
      if p.1 % 16 ≥ 8 ∧ p.2.event = code ∧ code ≠ 0 then (p.1, p.2.add 1) else p) }

/-! ### The Diary intake (R583, R586) -/

/-- Capacity of the ring (R580) and of the side pocket (R586). -/
def diaryRing : Nat := 1048576

/-- Records the side pocket holds (R586). -/
def diaryPocket : Nat := 4096

/-- DIARY_OLDEST: the lowest record number in the ring. -/
def Diary.oldest (d : Diary) : Nat := d.head - d.ring.length

/-- An event repeats a record: same code, island, head slot and argument (R583). -/
def DiaryRec.same (a b : DiaryRec) : Bool :=
  a.code == b.code && a.island == b.island && a.flags % 2 == b.flags % 2 && a.arg == b.arg

/-- A record after one more identical occurrence (R583). -/
def DiaryRec.again (r : DiaryRec) (now : Nat) : DiaryRec :=
  { r with repeats := min (r.repeats + 1) 0xFFFF, last := now }

/-- A record written to the ring, the oldest overwritten when it is full (R580). -/
def Diary.write (d : Diary) (r : DiaryRec) : Diary :=
  { d with ring := (r :: d.ring).take diaryRing, head := d.head + 1 }

/-- The intake's treatment of one event, with the fixed DIARY counter that counts it:
0 record, 1 repeat, 2 pocket record, 3 missed (Table 17-3). -/
def Diary.intake (d : Diary) (r : DiaryRec) : Diary × Nat :=
  if d.frozen then
    match d.pocket with
    | p :: rest =>
      if p.same r then ({ d with pocket := p.again r.first :: rest }, 1)
      else if d.pocket.length < diaryPocket then ({ d with pocket := r :: d.pocket }, 2)
      else ({ d with missed := d.missed + 1,
                     missFirst := if d.missed = 0 then r.first else d.missFirst,
                     missLast := r.first }, 3)
    | [] => ({ d with pocket := [r] }, 2)
  else
    match d.ring with
    | p :: rest =>
      if p.same r then ({ d with ring := p.again r.first :: rest }, 1) else (d.write r, 0)
    | [] => (d.write r, 0)

/-- An argument built from fields: byte offset and value (Table 17-2). -/
def argOf (l : List (Nat × Nat)) : Nat := l.foldl (fun a p => a + p.2 * 256 ^ p.1) 0

/-- An event reaches the Diary intake from an island; the counters set to its code count it. -/
def event (code island arg : Nat) (s : State) : State :=
  let r : DiaryRec := ⟨code, 0, island, s.sys.slot % 2, s.tt.now, s.tt.now, arg⟩
  let (d, c) := s.diary.intake r
  let t := tallyAdd 0x0F c 1 { s with diary := d }
  { t with tally := t.tally.countEvent code }

/-- A freeze ends: pocket records, RECORDS_MISSED and FREEZE go to the ring at one instant (R586). -/
def Diary.thaw (d : Diary) (slot now how : Nat) : Diary :=
  let d1 := d.pocket.reverse.foldl (fun a r => a.write { r with flags := r.flags % 2 + 2 }) d
  let d2 := if d.missed = 0 then d1
    else d1.write ⟨0xF001, 0, 30, slot, d.missFirst, d.missLast, d.missed⟩
  let d3 := d2.write ⟨0xF002, 0, 30, slot, now, now, how⟩
  { d3 with frozen := false, pocket := [], missed := 0, missFirst := 0, missLast := 0 }

/-- The Diary freezes; FREEZE opens the pocket. A freeze while frozen changes nothing (R585). -/
def freezeDiary (s : State) : State :=
  if s.diary.frozen then s
  else event 0xF002 30 1 { s with diary := { s.diary with frozen := true, frozenAt := s.tt.now } }

/-- The seal table's pages are read: one whose MAC fails is a security event, and no delete ticket is issued for a sealed root
until a verified copy is there (R439). -/
def sealsRead (sound : Bool) (s : State) : State :=
  if sound then { s with ftl := { s.ftl with sealFault := false } }
  else event 0xB003 0 2 { s with ftl := { s.ftl with sealFault := true } }

/-- A freeze in force ends with FREEZE argument `how` (R585). -/
def thawDiary (how : Nat) (s : State) : State :=
  if s.diary.frozen then { s with diary := s.diary.thaw (s.sys.slot % 2) s.tt.now how } else s

/-! ### Claims (R546 to R548) -/

/-- The claim that holds a resource. -/
def Cpi.holder (c : Cpi) (res : Nat) : Option Claim := c.claims.find? (fun k => k.resource == res)

/-- The first of some resources, in ascending order, that another feature holds (R547). -/
def Cpi.blocked (c : Cpi) (res : List Nat) (mine : Claim → Bool) : Option Claim :=
  (sortBy (· ≤ ·) res).findSome? (fun r => (c.holder r).bind (fun k => if mine k then none else some k))

/-- Every resource of a feature is claimed at once (R547). -/
def claimAll (res : List Nat) (opcode cls tag : Nat) (b : Option Binding) (s : State) : State :=
  { s with cpi := { s.cpi with
      claims := s.cpi.claims.filter (fun k => !res.contains k.resource) ++
        res.map (fun r => ⟨r, opcode, cls, tag, b, s.tt.now⟩) } }

/-- Claims on resources are released (R548). -/
def releaseClaims (res : List Nat) (s : State) : State :=
  { s with cpi := { s.cpi with
      claims := s.cpi.claims.filter (fun k => !res.contains k.resource) } }

/-- A binding as a number of 4 bytes in the records of R547 and R548. -/
def bindingNumber : Option Binding → Nat
  | none => 0
  | some (.nvme c) => 0x01000000 + c % 65536
  | some .cpi => 0x02000000
  | some .pfm => 0x03000000
  | some (.mctp e) => 0x04000000 + e % 256
  | some .peer => 0x05000000

/-- Fields laid one after another, little-endian: size and value. -/
def fields (l : List (Nat × Nat)) : Bytes := l.flatMap (fun p => leBytes p.1 p.2)

/-- A 16-byte detail from its leading fields. -/
def detailOf (l : List (Nat × Nat)) : Bytes := fitBytes 16 (fields l)

/-- No detail. -/
def noDetail : Bytes := zeros 16

/-- The detail of PKT_LENGTH, PKT_FORMAT and PKT_PARAM: offset of the faulty field and value expected (R541). -/
def faultyField (off : Nat) (expected : Option Nat) : Bytes :=
  detailOf [(4, off), (4, expected.getD 0xFFFFFFFF)]

/-- The detail of RESOURCE_CLAIMED (R547). -/
def Claim.detail (k : Claim) : Bytes :=
  detailOf [(4, k.resource), (2, k.opcode), (1, k.cls), (1, 0), (4, k.tag), (4, bindingNumber k.binding)]

/-! ### Corridor messages (R143, R144, R471, R521) -/

/-- A message that needs an answer (Tables 4-5, 13-1). TT_IMAGE is answered at its last chunk. -/
def needsAnswer : CorrBody → Bool
  | .mirrorData .. => true
  | .commit _ => true
  | .markList _ => true
  | .withdraw .. => true
  | .fsnRequest .. => true
  | .sheetTrigger .. => true
  | .snapFence .. => true
  | .sbChange .. => true
  | .anaMove .. => true
  | .hello _ => true
  | .journal _ => true
  | .resolve .. => true
  | .refDelta _ => true
  | .place .. => true
  | .prefectRecord _ => true
  | .ttImage .. => true
  | .bellSync .. => false
  | .mirrorAck .. => false
  | .commitAck _ => false
  | .release _ => false
  | .credit .. => false
  | .vaultNotice _ => false
  | .vaultDone .. => false
  | .heartbeat .. => false
  | .fsnGrant .. => false
  | .ttVerdict .. => false
  | .releaseNotice _ => false
  | .resyncDone .. => false
  | .journalAck _ => false
  | .resolveAnswer .. => false
  | .forward .. => true
  | .forwarded .. => false

/-- A message of the Prefects. -/
def isPrefect : CorrBody → Bool
  | .prefectRecord _ => true
  | _ => false

/-- The Corridor carries messages: up, or Degraded. -/
def Corr.up (c : Corr) : Bool := c.link == 2 || c.link == 3

/-- A record of Prefect's as bytes: its form is Prefect's own. -/
def bytesOfRecord : PairRecord → Bytes
  | .handshake m => m
  | .rootKey id key table => Config.recordBytes 1 [] [id, key, table]
  | .locker d e => Config.recordBytes 2 [d] [e]
  | .sealEntry root t fence pool => Config.recordBytes 3 [root, t, fence, pool] []
  | .version v o => Config.recordBytes 4 [v, o] []
  | .pause => Config.recordBytes 5 [] []
  | .resume => Config.recordBytes 6 [] []
  | .closed _ text _ => text

/-- A record under the key of the pair channel: the nonce is the head slot and the message count (R519). No additional data. -/
def closeRecord (slot : Nat) (c : PairChannel) (r : PairRecord) : PairRecord :=
  let nonce := leBytes 1 slot ++ leBytes 11 c.sent
  let (text, tag) := gcmSeal (kmac256 c.secret (ascii "PP") 32 (ascii "BIRCA-PAIR-K")) nonce [] (bytesOfRecord r)
  .closed nonce text tag

/-- A message goes out on the link. A record of Prefect's other than the handshake goes under the key of the pair channel, so that no port
shows a key (R33, R519); before the channel stands it does not go out. -/
def transmit (n : Nat) (b : CorrBody) (s : State) : State :=
  match b with
  | .prefectRecord (.handshake m) => tallyAdd 0x0D 0 1 (emit (.corridor n (.prefectRecord (.handshake m))) s)
  | .prefectRecord r =>
    match s.trust.channel with
    | none => s
    | some c =>
      tallyAdd 0x0D 0 1 (emit (.corridor n (.prefectRecord (closeRecord s.sys.slot c r))) { s with trust := { s.trust with
        channel := some { c with sent := c.sent + 1 } } })
  | b => tallyAdd 0x0D 0 1 (emit (.corridor n b) s)

/-- A message is sent with the next number; where it needs an answer it waits for one (R144), held while
the link is down (R471); a Prefect record also while the peer's Prefect pauses (R521). -/
def send (b : CorrBody) (s : State) : State :=
  let n := s.corr.nextNumber
  let s1 := { s with corr := { s.corr with
    nextNumber := n + 1
    unanswered := if needsAnswer b then s.corr.unanswered ++ [⟨n, b, s.tt.now, 0, false⟩] else s.corr.unanswered } }
  if s.corr.up && !(s.trust.peerPaused && isPrefect b) then transmit n b s1 else s1

/-- An answer is sent and kept for resends of the message it answers (R144). -/
def reply (number : Nat) (b : CorrBody) (s : State) : State :=
  send b { s with corr := { s.corr with answered := putKey number b s.corr.answered } }

/-! ### Status codes (Table 15-16) -/

/-- The 16-bit code of a status. -/
def statusCode : Status → Nat
  | .ok => 0x0000 | .pktLength => 0x0101 | .pktFormat => 0x0102 | .pktOpcode => 0x0103
  | .pktTag => 0x0104 | .pktParam => 0x0105 | .pktPiece => 0x0106
  | .resourceClaimed => 0x0201 | .objectBusy => 0x0202 | .cpQueueFull => 0x0203
  | .rateLimited => 0x0204 | .domainLimit => 0x0240 | .digestCtxFull => 0x0241
  | .snapshotLimit => 0x0250 | .sessionLimit => 0x0251 | .groupLimit => 0x0252
  | .partnerLimit => 0x0253 | .fwBusy => 0x0260
  | .readUnrecovered => 0x0301 | .grainLost => 0x0302 | .metadataLost => 0x0303
  | .lockerWithdrawn => 0x0401 | .lockerUnbound => 0x0402 | .ctxUnwrap => 0x0403
  | .streamDenied => 0x0404 | .lockerState => 0x0405 | .mregDenied => 0x0406
  | .sessionAuth => 0x0410 | .adoptFail => 0x0411 | .rosterRefused => 0x0420
  | .tokenRefused => 0x0421 | .fwFormat => 0x0430 | .fwSignature => 0x0431
  | .fwStepping => 0x0432 | .fwRollback => 0x0433 | .fwChunk => 0x0434
  | .fwActivateFail => 0x0435 | .fwPeerIncompatible => 0x0436 | .keySlot => 0x0437
  | .keyLast => 0x0438 | .keyInUse => 0x0439 | .lifecycle => 0x043A | .importFail => 0x043B
  | .cpSignature => 0x0440 | .cpReplay => 0x0441 | .classDenied => 0x0442
  | .ttFormat => 0x0501 | .ttSignature => 0x0502 | .ttReserved => 0x0503 | .ttStepping => 0x0504
  | .ttPool => 0x0505 | .ttTermStale => 0x0506 | .ttMembers => 0x0507 | .ttSheetMissing => 0x0508
  | .ttRoleScope => 0x0509 | .ttReadGap => 0x050A | .ttOversubscribed => 0x050B
  | .ttDieFit => 0x050C | .ttDramRate => 0x050D | .ttDramWindow => 0x050E
  | .ttRefreshRoom => 0x050F | .ttDomain => 0x0510 | .ttStripeSpread => 0x0511 | .ttBound => 0x0512
  | .ttLoadBusy => 0x0513 | .ttDay => 0x0514 | .ttNotStaged => 0x0515 | .ttTooLate => 0x0516
  | .poolReadOnly => 0x0601 | .volumeUnknown => 0x0602 | .quotaExceeded => 0x0603
  | .poolState => 0x0604 | .memberState => 0x0605 | .nsidInUse => 0x0606
  | .domainNotEmpty => 0x0640 | .volumeOffline => 0x0650 | .snapshotSealed => 0x0660
  | .rootNotSettled => 0x0661 | .rootKind => 0x0662 | .replBaseMissing => 0x0670
  | .replFpMismatch => 0x0671 | .replManifest => 0x0672 | .replFractured => 0x0673
  | .replPeerAbort => 0x0674 | .peerPresent => 0x0680 | .handoverBusy => 0x0681
  | .skxBadHeader => 0x0701 | .skxBadTable => 0x0702 | .skxBadCode => 0x0703
  | .skxBadDist => 0x0704 | .skxOverrun => 0x0705 | .skxUnderrun => 0x0706 | .skxTrailing => 0x0707
  | .tagFail => 0x0710 | .digestNotFinal => 0x0711 | .keyExhausted => 0x0712
  | .digestNotOpen => 0x0713 | .segOrder => 0x0714 | .segTruncated => 0x0715

/-! ### Control replies (R533, R534) -/

/-- The 32-byte reply header (R533). -/
def Reply.header (r : Reply) : Bytes :=
  fields [(4, r.tag), (2, statusCode r.status),
    (2, flagBit (r.size != 0) + 2 * flagBit (r.stream && r.size != 0))] ++
  fitBytes 16 r.detail ++ fields [(2, r.params.length), (2, 0), (4, r.size)]

/-- The binding under which a reply of a tag is kept for a binding: its own, or the lost one of the same host NQN (R545). -/
def Cpi.keeperOf (c : Cpi) (b : Binding) (tag : Nat) : Binding :=
  if c.replies.any (fun r => r.binding == b && r.tag == tag) then b
  else
    match c.bindings.find? (fun r => r.id == b) with
    | none => b
    | some me =>
      ((c.bindings.find? (fun r => r.lostAt.isSome && me.host != [] && r.host == me.host &&
        c.replies.any (fun x => x.binding == r.id && x.tag == tag))).map (·.id)).getD b

/-- The reply of a tag of a binding. -/
def Cpi.replyOf (c : Cpi) (b : Binding) (tag : Nat) : Option Reply :=
  c.replies.find? (fun r => r.binding == b && r.tag == tag)

/-- A mailbox whose reply area is free shows its oldest ready reply (CPI_MBX_STATUS.REPLY_READY). -/
def Cpi.showReplies (c : Cpi) : Cpi :=
  { c with
    cpiArea := c.cpiArea.or ((c.replies.find? (fun r => r.binding == .cpi && !r.held && !r.acked)).map (·.tag))
    pfmArea := c.pfmArea.or ((c.replies.find? (fun r => r.binding == .pfm && !r.held && !r.acked)).map (·.tag)) }

/-- Eight channels are in service: reply payloads have a place in DRAM (R613). -/
def Dram.upEight (d : Dram) : Bool :=
  8 ≤ (d.channels.filter (fun c => c.state == .inService || c.state == .copyingOut ||
    c.state == .out || c.state == .copyingHome)).length

/-- A reply leaves for its endpoint, when its binding is an MCTP endpoint and it is not held. -/
def sendMctp (r : Reply) (s : State) : State :=
  match r.binding with
  | .mctp e =>
    if r.held then s
    else
      let t := emit (.mctpReply e r.header r.params (r.payload.take 61440)) s
      if r.size ≤ 61440 then
        tallyAdd 0x02 2 1 { t with cpi := { t.cpi with
          replies := t.cpi.replies.filter (fun x => !(x.binding == r.binding && x.tag == r.tag)) } }
      else t
  | _ => s

/-- A reply becomes ready: it is kept for its binding, shown in a free mailbox area, or sent whole to
an MCTP endpoint with up to 61,440 bytes of payload (Table 15-2). -/
def postReply (r : Reply) (s : State) : State :=
  let s1 := { s with cpi := Cpi.showReplies { s.cpi with
    replies := s.cpi.replies ++ [r]
    lastStatus := if r.status = .ok then s.cpi.lastStatus else r.status
    lastOpcode := if r.status = .ok then s.cpi.lastOpcode else r.opcode
    lastTag := if r.status = .ok then s.cpi.lastTag else r.tag } }
  sendMctp r s1

/-- The accepted packet of a tag of a binding, when its opcode is the one given. -/
def Cpi.packet (c : Cpi) (b : Binding) (tag opcode : Nat) : Option Packet :=
  c.accepted.find? (fun p => p.binding == b && p.tag == tag && p.opcode == opcode)

/-- An accepted packet is answered: it leaves the accepted packets, its locks are released, and its
reply is ready. A status other than OK carries no parameters and no payload (R533, R543). The reply goes to the binding that
the packet came from; of a packet that the peer forwarded the peer is told the status (R544). -/
def answer (p : Packet) (st : Status) (detail params payload : Bytes) (s : State) : State :=
  let s1 := { s with cpi := { s.cpi with
    accepted := s.cpi.accepted.filter (fun q => !(q.binding == p.binding && q.tag == p.tag)) } }
  let s2 := if st = .resourceClaimed then tallyAdd 0x02 3 1 s1 else s1
  if p.binding = .peer then reply p.tag (.forwarded st (fitBytes 16 detail)) s1
  else postReply ⟨p.binding, p.tag, p.opcode, st, p.stream, fitBytes 16 detail,
    if st = .ok then params else [], if st = .ok then payload else [], if st = .ok then payload.length else 0, [], s.tt.now,
    !s.dram.upEight && (!payload.isEmpty || !p.payload.isEmpty), false, 0⟩ s2

/-- A packet is refused at step 10 (R541). -/
def refuse (p : Packet) (st : Status) (detail : Bytes) (s : State) : State := answer p st detail [] [] s

/-- A packet fails with PKT_PARAM, naming the faulty parameter by its offset in the parameters. -/
def badParam (p : Packet) (off : Nat) (s : State) : State :=
  refuse p .pktParam (faultyField (32 + off) none) s

/-- A change made by a packet is a Diary event (Table 17-2, CONFIG_CHANGE), and the packet is answered OK. -/
def changed (p : Packet) (params : Bytes) (s : State) : State :=
  answer p .ok noDetail params [] (event 0xD001 9 (argOf [(0, p.opcode), (4, p.tag)]) s)

/-- A read-only packet is answered OK. -/
def answered (p : Packet) (params payload : Bytes) (s : State) : State :=
  answer p .ok noDetail params payload s

/-- The effect of an opcode's row: step 10 and the effect on the accepted packet named; nothing when the
binding has no such packet. -/
def onPacket (b : Binding) (tag opcode : Nat) (f : Packet → State → State) (s : State) :
    Host.Outcome State Fault Refusal :=
  match s.cpi.packet b tag opcode with
  | none => .next s
  | some p => .next (f p s)

/-- The parameter of n bytes at an offset of an accepted packet. -/
def Packet.param (p : Packet) (off n : Nat) : Nat := fieldAt p.params off n

end Sys2Proof.Machine
end

