-- ==== Sys2Proof/Machine/Image.lean ====
section
/-! DEFINITION. Reading a timetable image: header, sections, sheets, forms, die types, grids, windows and
shares (R56 to R68). -/

namespace Sys2Proof.Machine

/-- A little-endian field of the image. -/
def TtImage.u (i : TtImage) (off n : Nat) : Nat := fieldAt i.bytes off n

/-- Term of the image (Table 2-3). -/
def TtImage.term (i : TtImage) : Nat := i.u 0x0C 4
/-- Section count. -/
def TtImage.sectionCount (i : TtImage) : Nat := i.u 0x14 2
/-- Sheet count. -/
def TtImage.sheetCount (i : TtImage) : Nat := i.u 0x16 2
/-- Form count. -/
def TtImage.formCount (i : TtImage) : Nat := i.u 0x18 2
/-- Die type count. -/
def TtImage.dieTypeCount (i : TtImage) : Nat := i.u 0x1A 1
/-- Service class count. -/
def TtImage.serviceCount (i : TtImage) : Nat := i.u 0x1E 1
/-- EXTENDED_BOUND. -/
def TtImage.extended (i : TtImage) : Bool := bitAt 0 (i.u 0x1C 2)
/-- The read bound field, which is the bound in force of an image in force (R72). -/
def TtImage.readBound (i : TtImage) : Nat := i.u 0x64 4

/-- A section table entry (Table 2-4). -/
structure TtSection where
  kind : Nat
  rsv1 : Nat
  off  : Nat
  len  : Nat
  rsv2 : Nat
  deriving DecidableEq, Repr

/-- Entry e of the section table. -/
def TtImage.sect (i : TtImage) (e : Nat) : TtSection :=
  let a := 0x100 + 16 * e
  ⟨i.u a 2, i.u (a + 2) 2, i.u (a + 4) 4, i.u (a + 8) 4, i.u (a + 12) 4⟩

/-- Every section entry, in table order. -/
def TtImage.sects (i : TtImage) : List TtSection := (List.range i.sectionCount).map i.sect

/-- The first section of a type. -/
def TtImage.sectOf (i : TtImage) (kind : Nat) : Option TtSection := i.sects.find? (fun x => x.kind == kind)

/-- The offset of the first section of a type. -/
def TtImage.base (i : TtImage) (kind : Nat) : Nat := ((i.sectOf kind).map (·.off)).getD 0

/-- A sheet record (Table 2-6). -/
structure TtSheet where
  number : Nat
  kind   : Nat
  head   : Nat
  index  : Nat
  rate   : Nat
  classGrid : Nat
  laneGrid  : Nat
  windows   : Nat
  shares    : Nat
  admission : Nat
  rsv1   : Nat
  mask0  : Nat
  mask1  : Nat
  rsv2   : Nat
  deriving DecidableEq, Repr

/-- Sheet record n. -/
def TtImage.sheet (i : TtImage) (n : Nat) : TtSheet :=
  let a := i.base 1 + 48 * n
  ⟨i.u a 2, i.u (a + 2) 1, i.u (a + 3) 1, i.u (a + 4) 2, i.u (a + 6) 2, i.u (a + 8) 2, i.u (a + 0xA) 2,
   i.u (a + 0xC) 2, i.u (a + 0xE) 2, i.u (a + 0x10) 2, i.u (a + 0x12) 2, i.u (a + 0x14) 12, i.u (a + 0x20) 12,
   i.u (a + 0x2C) 4⟩

/-- Every sheet, in ascending order. -/
def TtImage.sheets (i : TtImage) : List TtSheet := (List.range i.sheetCount).map i.sheet

/-- The domain mask of a head in a sheet. -/
def TtSheet.mask (x : TtSheet) (h : Nat) : Nat := if h = 0 then x.mask0 else x.mask1

/-- A form descriptor (Table 2-8). -/
structure TtForm where
  bay   : Nat
  group : Nat
  die   : Nat
  owner : Nat
  role  : Nat
  rsv   : Nat
  deriving DecidableEq, Repr

/-- Form descriptor f. -/
def TtImage.form (i : TtImage) (f : Nat) : TtForm :=
  let a := i.base 2 + 8 * f
  ⟨i.u a 1, i.u (a + 1) 1, i.u (a + 2) 1, i.u (a + 3) 1, i.u (a + 4) 1, i.u (a + 5) 3⟩

/-- Every form, in form number order. -/
def TtImage.forms (i : TtImage) : List TtForm := (List.range i.formCount).map i.form

/-- The form that holds a die of a bay: its number. -/
def TtImage.formOf (i : TtImage) (bay die : Nat) : Option Nat :=
  (List.range i.formCount).find? (fun f => (i.form f).bay == bay && (i.form f).group == die / 16)

/-- A die type record (Table 2-9), times in nanoseconds. -/
structure TtDieType where
  number : Nat
  smax   : Nat
  rsv1   : Nat
  tR     : Nat
  tProg  : Nat
  tBers  : Nat
  tSusp  : Nat
  tResume : Nat
  tXfer  : Nat
  rsv2   : Nat
  deriving DecidableEq, Repr

/-- Die type record d. -/
def TtImage.dieType (i : TtImage) (d : Nat) : TtDieType :=
  let a := i.base 8 + 32 * d
  ⟨i.u a 1, i.u (a + 1) 1, i.u (a + 2) 2, i.u (a + 4) 4, i.u (a + 8) 4, i.u (a + 0xC) 4, i.u (a + 0x10) 4,
   i.u (a + 0x14) 4, i.u (a + 0x18) 4, i.u (a + 0x1C) 4⟩

/-- Every die type. -/
def TtImage.dieTypes (i : TtImage) : List TtDieType := (List.range i.dieTypeCount).map i.dieType

/-- Worst-case time of a programme [ns] (R61). -/
def TtDieType.programTime (d : TtDieType) : Nat := d.tProg + d.smax * (d.tSusp + d.tR + d.tResume)

/-- Worst-case time of an erase [ns] (R61). -/
def TtDieType.eraseTime (d : TtDieType) : Nat := d.tBers + d.smax * (d.tSusp + d.tR + d.tResume)

/-- The class of form f in period p under a sheet: the nibble of R62. -/
def TtImage.classOf (i : TtImage) (x : TtSheet) (f p : Nat) : Nat :=
  let b := i.u ((i.sect x.classGrid).off + f * 512 + p / 2) 1
  if p % 2 = 0 then b % 16 else b / 16

/-- The stream class that owns lane group g of head h in period p (R63). -/
def TtImage.laneClass (i : TtImage) (x : TtSheet) (h g p : Nat) : Nat :=
  i.u ((i.sect x.laneGrid).off + (h * 20 + g) * 1024 + p) 1

/-- Bursts channel c of head h reserves in period p for port q (R64). -/
def TtImage.bursts (i : TtImage) (x : TtSheet) (h c p q : Nat) : Nat :=
  i.u ((i.sect x.windows).off + ((h * 16 + c) * 1024 + p) * 32 + q * 2) 2

/-- The share of link l of head h in period p for traffic class k, in 1/1,024 (R65). -/
def TtImage.share (i : TtImage) (x : TtSheet) (h l p k : Nat) : Nat :=
  i.u ((i.sect x.shares).off + ((h * 65 + l) * 1024 + p) * 16 + k * 2) 2

/-- The owner of a form under a sheet (R68): the survivor of a Peer-absent sheet owns every form; a
Bay-port-group-out sheet passes the forms of the group's bays to the other head. -/
def ownerUnder (x : TtSheet) (fm : TtForm) : Nat :=
  if x.kind = 1 then x.head
  else if x.kind = 4 ∧ fm.owner = x.head ∧ fm.bay / 16 = x.index then 1 - x.head
  else fm.owner

/-- The engine kind of a lane group of R63. -/
def groupKind (g : Nat) : EngineKind :=
  if g < 4 then .enc else if g < 10 then .dec else if g < 14 then .cip else if g < 18 then .dig else .par

/-- Lanes of a group of R63 (Table 1-2). -/
def groupLanes (g : Nat) : Nat := if g < 10 then 8 else if g < 18 then 6 else 4

/-- Bytes a lane of a kind moves in a period: the rate of Table 1-2 times 16 µs. -/
def laneBytes : EngineKind → Nat
  | .enc => 204800
  | .dec => 204800
  | .cip => 409600
  | .dig => 288000
  | .par => 1638400

/-- The lane capacity of an engine kind that a sheet gives a stream class on head h in period p (R52). -/
def TtImage.capacity (i : TtImage) (x : TtSheet) (h stream : Nat) (k : EngineKind) (p : Nat) : Nat :=
  sumNat ((List.range 20).map (fun g =>
    if groupKind g = k ∧ i.laneClass x h g p = stream then groupLanes g * laneBytes k else 0))

/-- The power domain of a lane group (Table 1-2). -/
def groupDomain (g : Nat) : Nat :=
  [34, 35, 37, 38, 40, 41, 42, 44, 45, 46, 48, 49, 51, 52, 54, 55, 56, 57, 59, 60].getD g 0

end Sys2Proof.Machine
end

