-- ==== Sys2Proof/Machine/Operands.lean ====
section
/-! DEFINITION. The operand forms: the parameters of every control packet opcode (Tables 15-6 to
15-15), their lengths, their reserved fields and ranges, and the objects a packet locks (R543). -/

namespace Sys2Proof.Machine

/-- A parameter field: its size and what step 9 of Table 15-4 asks of it. -/
inductive PField where
  /-- any value -/
  | a (n : Nat)
  /-- reserved: zero -/
  | r (n : Nat)
  /-- from lo to hi -/
  | g (n lo hi : Nat)
  /-- one of some values -/
  | s (n : Nat) (l : List Nat)
  /-- flags: bits outside the mask are reserved -/
  | m (n mask : Nat)
  deriving DecidableEq, Repr

/-- The size of a field in bytes. -/
def PField.size : PField → Nat
  | .a n => n
  | .r n => n
  | .g n _ _ => n
  | .s n _ => n
  | .m n _ => n

/-- How many entries follow the fixed fields. -/
inductive PCount where
  /-- none -/
  | none
  /-- a count field of n bytes at an offset -/
  | field (off n : Nat)
  /-- one for each bit set in the 8-byte bitmap at an offset -/
  | bitmap (off : Nat)
  deriving DecidableEq, Repr

/-- An opcode: its code, the code of its least caller class, its fields, the entries after them. -/
structure OpSpec where
  code  : Nat
  cls   : Nat
  fixed : List PField
  count : PCount
  entry : List PField
  deriving DecidableEq, Repr

/-- An opcode with fixed parameters. -/
def op (code cls : Nat) (fixed : List PField) : OpSpec := ⟨code, cls, fixed, .none, []⟩

/-- The member entries of POOL_FORM and POOL_EXTEND: domain, reserved, weight. -/
def memberEntry : List PField := [.a 1, .r 1, .a 2]

/-- System opcodes (Table 15-6). -/
def opsSystem : List OpSpec :=
  [op 0x0101 4 [],
   op 0x0102 2 [.g 1 0 3, .g 1 0 3, .r 6],
   op 0x0103 2 [.g 1 1 2, .g 1 1 2, .s 1 [0, 2, 3], .g 1 1 16, .a 2, .a 1, .r 1, .a 256],
   op 0x0104 2 [.a 2, .g 1 1 2, .r 5, .a 256],
   op 0x0105 2 [.g 2 1 60, .r 6],
   op 0x0106 2 [.a 2, .a 2, .a 1, .r 1, .a 2, .a 2, .g 2 200 10000, .r 4],
   op 0x0107 2 [],
   op 0x0108 3 [.a 4, .r 4],
   op 0x0109 2 [.s 1 [5, 6, 7, 8, 25], .r 7],
   op 0x010A 3 [.a 4, .r 4, .a 8, .g 4 1 61440, .r 4]]

/-- Pool and member opcodes (Table 15-7; the ranges of POOL_FORM are those of Table 10-10). -/
def opsPool : List OpSpec :=
  [⟨0x0201, 2, [.g 1 0 1, .g 1 1 64, .g 1 24 41, .g 1 16 36, .g 1 20 32, .a 1, .g 2 32 128, .g 2 20 200,
      .a 2, .r 4, .a 8], .bitmap 16, memberEntry⟩,
   ⟨0x0202, 2, [.a 8], .bitmap 0, memberEntry⟩,
   op 0x0203 2 [.g 1 0 63, .r 7],
   op 0x0204 2 [.g 1 0 15, .g 1 0 4, .r 6],
   op 0x0205 2 [.g 1 0 63, .g 1 1 2, .r 6],
   op 0x0206 2 [],
   op 0x0207 2 [],
   op 0x0208 3 [],
   op 0x0209 1 [.a 16],
   op 0x020A 2 [.g 1 0 63, .r 7, .a 16]]

/-- Volume and domain opcodes (Table 15-8). -/
def opsVolume : List OpSpec :=
  [op 0x0301 2 [.g 4 1 0xFFFFFFFE, .a 2, .a 2, .a 2, .a 1, .a 1, .g 1 0 3, .r 3, .a 8, .a 8],
   op 0x0302 2 [.a 4, .r 4],
   op 0x0303 2 [.a 4, .r 4, .a 8],
   op 0x0304 2 [.a 4, .a 1, .r 3, .a 8],
   op 0x0305 2 [.a 2, .g 1 0 1, .r 5],
   op 0x0306 2 [.g 2 0 4095, .m 2 3, .a 2, .r 2],
   op 0x0307 2 [.g 2 0 4095, .r 6],
   op 0x0308 2 [.g 2 0 4095, .g 1 0 1, .r 5],
   op 0x0309 3 [.a 4, .r 4]]

/-- Snapshot opcodes (Table 15-9, Table 12-5). -/
def opsSnapshot : List OpSpec :=
  [⟨0x0401, 2, [.g 2 1 65535, .m 2 1, .r 4, .a 8], .field 0 2, [.a 4]⟩,
   op 0x0402 2 [.a 4, .r 4],
   op 0x0403 2 [.a 4, .r 4, .a 8],
   op 0x0404 2 [.a 4, .a 4, .a 2, .a 2, .r 4],
   op 0x0405 3 [.a 4, .r 4]]

/-- Replication and federation opcodes (Table 15-10, Table 12-5, Table 13-5). -/
def opsReplication : List OpSpec :=
  [op 0x0501 2 [.a 2, .r 6, .a 32],
   op 0x0502 2 [.a 2, .r 6],
   op 0x0503 2 [.a 2, .a 2, .r 4],
   op 0x0504 2 [.a 2, .r 6],
   op 0x0505 2 [.a 2, .r 2, .a 4, .a 4, .r 4],
   ⟨0x0506, 2, [.a 2, .g 1 1 3, .g 1 0 1, .a 2, .a 2], .field 6 2, [.a 4, .a 4]⟩,
   op 0x0507 2 [.a 2, .a 2, .a 4],
   op 0x0508 2 [.a 2, .a 2, .a 4],
   op 0x0509 3 [.a 2, .r 6],
   op 0x0510 2 [.a 32],
   op 0x0511 2 [],
   op 0x0512 2 [],
   op 0x0513 2 [],
   op 0x0514 3 []]

/-- Timetable opcodes (Table 15-11). -/
def opsTimetable : List OpSpec :=
  [op 0x0601 2 [.a 4, .r 4, .a 8, .a 8],
   op 0x0602 2 [.a 4, .r 4, .a 8],
   op 0x0603 2 [.a 4, .r 4],
   op 0x0604 3 []]

/-- Key and security opcodes; LOCKER_BIND is internal and not among them (Table 15-12, Table 14-14). -/
def opsSecurity : List OpSpec :=
  [op 0x0702 2 [.g 2 0 4095, .r 6],
   op 0x0703 2 [.g 2 0 4095, .r 6],
   op 0x0704 1 [.g 2 0 4095, .r 6],
   op 0x0705 3 [.g 2 0 4095, .r 6],
   op 0x0710 1 [.g 2 0 19, .r 6],
   op 0x0711 1 [.g 2 0 19, .r 6],
   op 0x0712 3 [.a 4, .r 4, .a 32],
   op 0x0713 3 [.a 4, .r 4],
   op 0x0714 3 [],
   op 0x0715 1 [.g 2 16 19, .r 6],
   op 0x0716 1 [],
   op 0x0717 1 []]

/-- Diagnostic opcodes (Table 15-13). -/
def opsDiagnostic : List OpSpec :=
  [op 0x0801 2 [.g 1 0 63, .g 1 4 8, .a 2, .a 2, .a 2],
   op 0x0802 2 [.g 1 12 19, .a 1, .r 6],
   op 0x0803 2 [.g 1 0 19, .g 1 1 2, .r 6],
   op 0x0804 2 [.g 1 0 15, .g 1 1 3, .r 6],
   op 0x0805 2 [.g 1 0 3, .g 1 1 2, .r 6],
   op 0x0806 2 [.g 1 0 7, .g 1 1 3, .r 2, .a 4],
   op 0x0807 2 [.g 2 0 330, .g 1 1 4, .r 5],
   ⟨0x0808, 2, [.g 1 0 7, .g 1 0 15, .a 2, .a 2, .r 2, .g 4 1 1024, .r 4], .field 4 2, [.a 4]⟩]

/-- Firmware opcodes (Table 15-14, Table 14-14). -/
def opsFirmware : List OpSpec :=
  [op 0x0901 2 [.a 8, .a 8], op 0x0902 2 [], op 0x0903 2 [.a 8, .a 8], op 0x0904 2 [], op 0x0905 3 []]

/-- Observability opcodes (Table 15-15). -/
def opsObserve : List OpSpec :=
  [op 0x0A01 3 [.a 8, .g 4 1 131072, .r 4],
   op 0x0A02 2 [.g 1 1 2, .r 7],
   op 0x0A03 4 [.g 1 0 0x13, .r 1, .a 2, .r 4],
   op 0x0A04 2 [.g 1 0 0x13, .g 1 0 15, .a 2, .g 1 0 1, .r 3],
   op 0x0A05 2 [.g 1 0 80, .g 1 0 15, .g 2 1 1024, .r 4],
   op 0x0A06 3 []]

/-- Every opcode a packet may carry (R549). -/
def opTable : List OpSpec :=
  opsSystem ++ opsPool ++ opsVolume ++ opsSnapshot ++ opsReplication ++ opsTimetable ++ opsSecurity ++
  opsDiagnostic ++ opsFirmware ++ opsObserve

/-- The specification of an opcode. -/
def opSpec (code : Nat) : Option OpSpec := opTable.find? (fun o => o.code == code)

/-- Bytes of some fields. -/
def fieldsSize (l : List PField) : Nat := sumNat (l.map PField.size)

/-- Entries that a packet's count or bitmap calls for. -/
def OpSpec.entries (o : OpSpec) (params : Bytes) : Nat :=
  match o.count with
  | .none => 0
  | .field off n => fieldAt params off n
  | .bitmap off => (bitsOf 64 (fieldAt params off 8)).length

/-- The parameter length an opcode asks for, padding included (R549). -/
def OpSpec.length (o : OpSpec) (params : Bytes) : Nat :=
  roundUp (fieldsSize o.fixed + o.entries params * fieldsSize o.entry) 8

/-- The fields of a packet, entries included. -/
def OpSpec.layout (o : OpSpec) (params : Bytes) : List PField :=
  o.fixed ++ (List.replicate (o.entries params) o.entry).flatten

/-- A field's reserved content is not zero. -/
def PField.dirty (f : PField) (v : Nat) : Bool :=
  match f with
  | .r _ => v != 0
  | .m n mask => (bitsOf (8 * n) v).any (fun i => !bitAt i mask)
  | _ => false

/-- A field's value lies outside its stated range. -/
def PField.outside (f : PField) (v : Nat) : Bool :=
  match f with
  | .g _ lo hi => v < lo || hi < v
  | .s _ l => !l.contains v
  | _ => false

/-- The first field, from an offset on, that meets a test: its offset. -/
def firstField (bad : PField → Nat → Bool) (params : Bytes) : List PField → Nat → Option Nat
  | [], _ => none
  | f :: r, off =>
    if bad f (fieldAt params off f.size) then some off else firstField bad params r (off + f.size)

/-- Step 9 of Table 15-4: reserved fields and padding first, then ranges; status and offset of the fault. -/
def OpSpec.checkFields (o : OpSpec) (params : Bytes) : Option (Status × Nat) :=
  let l := o.layout params
  match firstField PField.dirty params l 0 with
  | some off => some (.pktFormat, off)
  | none =>
    match ((List.range (params.length - fieldsSize l)).map (· + fieldsSize l)).find?
        (fun i => fieldAt params i 1 != 0) with
    | some off => some (.pktFormat, off)
    | none => (firstField PField.outside params l 0).map (fun off => (.pktParam, off))

/-- The objects a state-changing packet changes (R543): kind and number. -/
def lockedObjects (code : Nat) (params : Bytes) : List ObjRef :=
  let v := fun off n => fieldAt params off n
  if code = 0x0102 then [⟨10, v 0 1⟩]
  else if code = 0x0104 then [⟨12, v 0 2⟩]
  else if code = 0x0109 then (if v 0 1 ≤ 8 then [⟨10, v 0 1 - 5⟩] else [])
  else if code = 0x0201 ∨ code = 0x0202 ∨ code = 0x0206 ∨ code = 0x0207 ∨ code = 0x0209 then [⟨9, 0⟩]
  else if code = 0x0203 ∨ code = 0x0205 ∨ code = 0x020A then [⟨4, v 0 1⟩]
  else if code = 0x0204 then [⟨5, v 0 1⟩]
  else if code = 0x0302 ∨ code = 0x0303 ∨ code = 0x0304 then [⟨1, v 0 4⟩]
  else if code = 0x0305 then [⟨6, v 0 2⟩]
  else if code = 0x0306 ∨ code = 0x0307 then [⟨2, v 0 2⟩, ⟨3, v 0 2⟩]
  else if code = 0x0308 then [⟨2, v 0 2⟩]
  else if code = 0x0401 then (List.range (v 0 2)).map (fun i => ⟨1, v (16 + 4 * i) 4⟩)
  else if code = 0x0402 ∨ code = 0x0403 ∨ code = 0x0404 then [⟨1, v 0 4⟩]
  else if code = 0x0504 then [⟨7, v 0 2⟩]
  else if code = 0x0506 then (List.range (v 6 2)).map (fun i => ⟨1, v (8 + 8 * i) 4⟩)
  else if code = 0x0507 ∨ code = 0x0508 then [⟨1, v 4 4⟩]
  else if code = 0x0602 ∨ code = 0x0603 then [⟨8, 0⟩]
  else if code = 0x0702 ∨ code = 0x0703 ∨ code = 0x0704 then [⟨3, v 0 2⟩]
  else if code = 0x0804 then [⟨11, v 0 1⟩]
  else []

/-- Rank of a caller class (Table 15-3). -/
def classRank (cls : Nat) : Nat :=
  if cls = 1 then 4 else if cls = 2 then 3 else if cls = 3 then 2 else if cls = 4 then 1 else 0

end Sys2Proof.Machine
end

