-- ==== Sys2Proof/Machine/Signature.lean ====
section
/-! DEFINITION. Key slots, dual signatures and the chip's identity (R503 to R508, R515, R516). -/

namespace Sys2Proof.Machine

/-- The bytes of a key record that its slot digest covers (R504). -/
def keyRecordBody (r : Bytes) : Bytes := slice r 0 0xA68

/-- The fuse digest of a key record. -/
def keyRecordDigest (r : Bytes) : Bytes := sha3_256 (keyRecordBody r)

/-- The burned slots whose key record matches its fuse digest (R504). -/
def Trust.recordsOk (t : Trust) : Nat :=
  maskOf ((t.fuses.digests.map (·.1)).filter (fun n => match getKey n t.flash.records, getKey n t.fuses.digests with
    | some r, some d => keyRecordDigest r == d
    | _, _ => false))

/-- Whether a slot is enrolled with a matching record and not revoked. -/
def Trust.slotUsable (t : Trust) (slot : Nat) : Bool :=
  bitAt slot t.matched && !bitAt slot t.fuses.revoked

/-- The keys of a slot: Ed448 and ML-DSA-87 public keys of its record (Table 14-4). -/
def Trust.slotKeys (t : Trust) (slot : Nat) : Bytes × Bytes :=
  let r := (getKey slot t.flash.records).getD []
  (slice r 0x008 57, slice r 0x048 2592)

/-- The parts of a 4,800-byte signature block (R67). -/
def sigSlot (b : Bytes) : Nat := fieldAt b 0 2
/-- The Ed448 signature of a block. -/
def sigEd (b : Bytes) : Bytes := slice b 4 114
/-- The ML-DSA-87 signature of a block. -/
def sigMl (b : Bytes) : Bytes := slice b 120 4627
/-- The reserved and trailing bytes of a block are zero. -/
def sigClean (b : Bytes) : Bool :=
  allZero (slice b 2 2) && allZero (slice b 118 2) && allZero (slice b 4747 53)

/-- The check of a signature block over a message in the order of R507: none when it holds, else the
reason 3 slot, 1 Ed448, 2 ML-DSA-87, 4 reserved bytes. -/
def checkBlock (usable : Bool) (keys : Bytes × Bytes) (msg ctx block : Bytes) : Option Nat :=
  if !usable then some 3
  else if !Config.ed448Verify keys.1 msg ctx (sigEd block) then some 1
  else if !Config.mldsaVerify keys.2 msg ctx (sigMl block) then some 2
  else if !sigClean block then some 4
  else none

/-- A signature block under an enrolled, unrevoked OEM slot, 0 to 7 (R507, Table 14-5). -/
def Trust.checkOem (t : Trust) (msg : Bytes) (ctx : String) (block : Bytes) : Option Nat :=
  let slot := sigSlot block
  checkBlock (slot ≤ 7 && t.slotUsable slot) (t.slotKeys slot) msg (ascii ctx) block

/-- A manufacturing key's record matches the digest in ROM (R504). -/
def Trust.romKeyOk (t : Trust) (slot : Nat) : Bool :=
  24 ≤ slot && slot ≤ 27 &&
  match getKey slot t.flash.records with
  | none => false
  | some r => Config.romKeyDigests[slot - 24]? == some (keyRecordDigest r)

/-- A signature block under a Tirenaloth manufacturing key, 24 to 27 (Table 14-5). -/
def Trust.checkMaker (t : Trust) (msg : Bytes) (ctx : String) (block : Bytes) : Option Nat :=
  let slot := sigSlot block
  checkBlock (t.romKeyOk slot) (t.slotKeys slot) msg (ascii ctx) block

/-- Two signatures without a slot field: the first unrevoked slot of a range under which both verify
(R508). The answer on failure is the reason of R507 for the last slot tried, 3 with no slot. -/
def Trust.checkAny (t : Trust) (lo n : Nat) (msg : Bytes) (ctx : String) (ed ml : Bytes) : Option Nat :=
  ((List.range n).map (· + lo)).foldl (fun (r : Option Nat) slot =>
    match r with
    | none => none
    | some why =>
      if !t.slotUsable slot then some why
      else if !Config.ed448Verify (t.slotKeys slot).1 msg (ascii ctx) ed then some 1
      else if !Config.mldsaVerify (t.slotKeys slot).2 msg (ascii ctx) ml then some 2
      else none) (some 3)

/-- The identity key digest of an identity record: SHA3-256 of bytes 0x0040 to 0x10FF (R516). -/
def identityDigest (record : Bytes) : Bytes := sha3_256 (slice record 0x40 0x10C0)

/-- This chip's identity key digest. -/
def State.identity (s : State) : Bytes := identityDigest s.trust.flash.identity

/-- An identity record verifies (R516). -/
def Trust.identityOk (t : Trust) (r : Bytes) : Bool :=
  slice r 0 8 == ascii "BRCIDREC" && fieldAt r 8 1 == 1 && allZero (slice r 0x0A 6) &&
  allZero (slice r 0x28 24) && allZero (slice r 0x79 7) && allZero (slice r 0xAD8 8) &&
  (t.checkMaker (slice r 0 0x1100) "BIRCA-ID" (slice r 0x1100 4800)).isNone

/-- The chip's Ed448 private key (R515). -/
def identityEdKey : Bytes := kmac256 Config.deviceSeed (ascii "ED448") 57 (ascii "BIRCA-IDK")

/-- The chip's ML-DSA-87 seed (R515). -/
def identityMlKey : Bytes := kmac256 Config.deviceSeed (ascii "MLDSA87") 32 (ascii "BIRCA-IDK")

/-- The chip's X448 import private key (R515). -/
def identityX448 : Bytes := kmac256 Config.deviceSeed (ascii "X448") 56 (ascii "BIRCA-IDK")

/-- The chip's ML-KEM-1024 seeds d and z (R515). -/
def identityKem : Bytes := kmac256 Config.deviceSeed (ascii "MLKEM1024") 64 (ascii "BIRCA-IDK")

/-- A signature block made with the chip's identity keys, slot field 0xFFFF (R523). -/
def identityBlock (msg : Bytes) (ctx : String) : Bytes :=
  leBytes 2 0xFFFF ++ zeros 2 ++ fitBytes 114 (Config.ed448Sign identityEdKey msg (ascii ctx)) ++ zeros 2 ++
  fitBytes 4627 (Config.mldsaSign identityMlKey msg (ascii ctx)) ++ zeros 53

end Sys2Proof.Machine
end

