-- ==== Sys2Proof/Machine/Packets.lean ====
section
/-! DEFINITION. The transports and checks of control packets: submission, acceptance, pieces, reply
polling, fetch and retention, claims of lost bindings (R531 to R550). -/

namespace Sys2Proof.Machine

/-- The parts of a packet's bytes: descriptors, signature block, and where the payload begins. -/
structure PacketParts where
  params : Bytes
  descs  : Bytes
  block  : Bytes
  base   : Nat

/-- Whether a packet carries a signature block: Prefect-signed, or not when it is the unsigned enrolment
of slot 0 on the PFM binding in the Provisioned state (R538). -/
def carriesBlock (cls : Nat) : Bool := cls == 1

/-- The parts of a packet's bytes (R531). -/
def packetParts (d : Bytes) : PacketParts :=
  let pl := fieldAt d 0x08 2
  let dc := fieldAt d 0x0B 1
  let base := 32 + pl + 16 * dc
  let sl := if carriesBlock (fieldAt d 0x0A 1) then 4800 else 0
  ⟨slice d 32 pl, slice d (32 + pl) (16 * dc), slice d base sl, base + sl⟩

/-- The sum of the lengths of the input descriptors (R532). -/
def inputSum (descs : Bytes) (count : Nat) : Nat :=
  sumNat ((List.range count).map (fun i =>
    if bitAt 0 (fieldAt descs (16 * i + 12) 4) then 0 else fieldAt descs (16 * i + 8) 4))

/-- The highest caller class of a binding (Table 15-2, R538): an MCTP endpoint's is Monitor, or as SYS_BINDING sets; 0 allows none. -/
def State.highest (s : State) (b : Binding) : Nat :=
  match b with
  | .mctp e => (getKey e s.hq.endpoints).getD 3
  | _ =>
    match s.cpi.bindings.find? (fun r => r.id == b) with
    | some r => r.highest
    | none => 3

/-- Packets of a binding that have no reply yet (R536). -/
def Cpi.openOf (c : Cpi) (b : Binding) : List Packet := c.accepted.filter (fun p => p.binding == b)

/-- A refusal of the checks: status and detail. -/
abbrev PacketFault := Option (Status × Bytes)

/-- Steps 1 and 2 of Table 15-4 on a packet whose payload comes with it on MCTP and NVMe, or by DMA on a
mailbox (R531, R532, R535). -/
def checkLength (b : Binding) (d : Bytes) : PacketFault :=
  let pl := fieldAt d 0x08 2
  let dc := fieldAt d 0x0B 1
  let pay := fieldAt d 0x0C 4
  let p := packetParts d
  let inl := match b with | .nvme _ => pay | .mctp _ => pay | _ => 0
  if d.length < 32 then some (.pktLength, faultyField 0 (some 32))
  else if pl % 8 ≠ 0 ∨ 4096 < pl then some (.pktLength, faultyField 0x08 none)
  else if 16 < dc then some (.pktLength, faultyField 0x0B none)
  else if 4194304 < pay then some (.pktLength, faultyField 0x0C none)
  else if d.length ≠ p.base + inl then
    some (.pktLength, faultyField 0x08 (if p.base + inl ≤ pl + d.length then some (pl + d.length - (p.base + inl)) else none))
  else
    match b with
    | .mctp _ => none
    | _ =>
      if pay ≠ inputSum p.descs dc then some (.pktLength, faultyField 0x0C (some (inputSum p.descs dc)))
      else none

/-- Steps 3 and 4: the opcode is assigned, and its parameter length is the one it asks for. -/
def checkOpcode (d : Bytes) : PacketFault :=
  match opSpec (fieldAt d 0 2) with
  | none => some (.pktOpcode, noDetail)
  | some o =>
    let p := packetParts d
    if p.params.length ≠ o.length p.params then
      some (.pktLength, faultyField 0x08 (some (o.length p.params)))
    else none

/-- A mailbox binding (R532). -/
def isMailbox : Binding → Bool
  | .cpi => true
  | .pfm => true
  | _ => false

/-- An MCTP binding (R535). -/
def isMctp : Binding → Bool
  | .mctp _ => true
  | _ => false

/-- Step 5: reserved header fields, flags and descriptor flags are zero; output descriptors lie on a
mailbox only; no descriptors on MCTP. -/
def checkHeader (b : Binding) (d : Bytes) : PacketFault :=
  let cls := fieldAt d 0x0A 1
  let dc := fieldAt d 0x0B 1
  let p := packetParts d
  if 1 < fieldAt d 2 2 then some (.pktFormat, faultyField 2 none)
  else if cls = 0 ∨ 4 < cls then some (.pktFormat, faultyField 0x0A none)
  else if fieldAt d 0x18 8 ≠ 0 then some (.pktFormat, faultyField 0x18 (some 0))
  else if isMctp b = true ∧ dc ≠ 0 then some (.pktFormat, faultyField 0x0B (some 0))
  else
    match (List.range dc).find? (fun i =>
        let f := fieldAt p.descs (16 * i + 12) 4
        1 < f || (f == 1 && !isMailbox b)) with
    | some i => some (.pktFormat, faultyField (32 + p.params.length + 16 * i + 12) none)
    | none => none

/-- Step 6: the tag is not in use, and the binding and the pair are below their limits (R536). -/
def checkQueue (b : Binding) (d : Bytes) (c : Cpi) : PacketFault :=
  if (c.openOf b).any (fun p => p.tag == fieldAt d 4 4) then some (.pktTag, noDetail)
  else if 64 ≤ (c.openOf b).length ∨ 4096 ≤ (c.accepted.filter (fun p => p.binding != .peer)).length + c.peerInflight then some (.cpQueueFull, noDetail)
  else none

/-- The one unsigned enrolment: KEY_ENROLL of slot 0 on the PFM binding in the Provisioned state (R505, R538). -/
def firstEnrolment (b : Binding) (d : Bytes) (t : Trust) : Bool :=
  b == .pfm && fieldAt d 0 2 == 0x0710 && fieldAt d 32 2 == 0 && fieldAt d 0x0A 1 == 2 && t.fuses.lifecycle == 1

/-- Step 7: the caller class (R538); on the PFM mailbox only groups 0x07 and 0x09 (Table 15-2). -/
def checkClass (b : Binding) (d : Bytes) (s : State) : PacketFault :=
  let cls := fieldAt d 0x0A 1
  let code := fieldAt d 0 2
  let top := s.highest b
  let least := if firstEnrolment b d s.trust then 2 else ((opSpec code).map (·.cls)).getD 2
  if cls ≠ 1 ∧ classRank top < classRank cls then some (.classDenied, detailOf [(1, top)])
  else if classRank cls < classRank least then some (.classDenied, detailOf [(1, least)])
  else if b = .pfm ∧ cls ≠ 1 ∧ code / 256 ≠ 7 ∧ code / 256 ≠ 9 then some (.classDenied, detailOf [(1, top)])
  else none

/-- What the signatures of a Prefect-signed packet cover (R539). -/
def signedBytes (d payload identity : Bytes) : Bytes :=
  let p := packetParts d
  slice d 0 32 ++ p.params ++ p.descs ++ sha3_256 payload ++ identity

/-- Step 8: the signature block under an OEM slot, and the sequence (R539, R540). -/
def checkSigned (d payload : Bytes) (s : State) : PacketFault :=
  if !carriesBlock (fieldAt d 0x0A 1) then none
  else
    let p := packetParts d
    let seq := fieldAt d 0x10 8
    let last := getKey (sigSlot p.block) s.cpi.slotSeq
    match s.trust.checkOem (signedBytes d payload s.identity) "BIRCA-CP" p.block with
    | some why => some (.cpSignature, detailOf [(1, why)])
    | none =>
      if seq + 600000000 < s.clockUs ∨ s.clockUs + 60000000 < seq ∨ last.any (fun x => seq ≤ x) then
        some (.cpReplay, detailOf [(8, s.clockUs)])
      else none

/-- Step 9: reserved parameter fields, padding and ranges. -/
def checkParams (d : Bytes) : PacketFault :=
  match opSpec (fieldAt d 0 2) with
  | none => none
  | some o => (o.checkFields (packetParts d).params).map (fun f => (f.1, faultyField (32 + f.2) none))

/-- The checks of Table 15-4 up to step 9, in order (R541). -/
def checkPacket (b : Binding) (d payload : Bytes) (s : State) : PacketFault :=
  ((((((checkLength b d).or (checkOpcode d)).or (checkHeader b d)).or (checkQueue b d s.cpi)).or
    (checkClass b d s)).or (checkSigned d payload s)).or (checkParams d)

/-- Opcodes whose own busy status takes precedence over OBJECT_BUSY (R543). -/
def hasOwnBusy (code : Nat) : Bool := code == 0x0601 || code == 0x0510 || code / 256 == 9

/-- The accepted packet that holds an object a packet of an opcode needs (R543); a second SNAP_CREATE of a volume is not
turned away but waits for the first (R430). -/
def Cpi.lockHolder (c : Cpi) (code : Nat) (o : ObjRef) : Option Packet :=
  c.accepted.find? (fun p => p.locks.contains o && !(code == 0x0401 && p.opcode == 0x0401))

/-- The first object of a packet that another packet holds: OBJECT_BUSY with its detail. -/
def checkLocks (code : Nat) (objs : List ObjRef) (c : Cpi) : PacketFault :=
  if hasOwnBusy code then none
  else objs.findSome? (fun o => (c.lockHolder code o).map (fun h =>
    (Status.objectBusy, detailOf [(1, o.kind), (3, 0), (4, o.number), (4, h.tag)])))

/-- Opcodes Prefect interprets (R550; "applied by Prefect" in Tables 15-8, 12-5 and 13-5). -/
def toPrefect (code : Nat) : Bool :=
  code / 256 == 7 || [0x0306, 0x0307, 0x0403, 0x0501, 0x0502, 0x0510, 0x0512, 0x0513].contains code

/-- Whether Damrid answers a packet of an opcode on a binding at all in its stage: none in Vault mode
(R545); in ROM recovery only requests that carry a Prefect image (R514); without Faculty only groups
0x07 and 0x09 on the PFM mailbox and MCTP (R514). Without REFCLK0 the management PCIe endpoint, and with it both mailboxes, is
down (Table 18-4). -/
def answers (b : Binding) (code : Nat) (s : State) : Bool :=
  let side := match b with | .pfm => true | .mctp _ => true | _ => false
  let reached := match b with | .cpi => bitAt 1 s.pwr.refsPresent | .pfm => bitAt 1 s.pwr.refsPresent | _ => true
  reached && match s.pwr.stage with
  | .off => false
  | .aonOnly => false
  | .earlyWait => false
  | .vault => false
  | .sealed => false
  | .recovery => side && code == 0x0903
  | .prefect => side && (code / 256 == 7 || code / 256 == 9)
  | _ => true

/-- A packet that failed a check is answered with the status and its detail; it has no effect (R541). -/
def refusePacket (b : Binding) (d : Bytes) (st : Status) (detail : Bytes) (s : State) : State :=
  let s1 := tallyAdd 0x02 1 1 (if st = .cpSignature then tallyAdd 0x01 3 1 s else s)
  let s2 := if st = .resourceClaimed then tallyAdd 0x02 3 1 s1 else s1
  postReply ⟨b, fieldAt d 4 4, fieldAt d 0 2, st, false, fitBytes 16 detail, [], [], 0, [], s.tt.now, false, false, 0⟩ s2

/-- A packet is accepted: step 10 begins, its objects are locked, its sequence is taken (R540, R542, R543). -/
def acceptPacket (b : Binding) (d payload : Bytes) (s : State) : State :=
  let parts := packetParts d
  let code := fieldAt d 0 2
  let cls := fieldAt d 0x0A 1
  let seq := fieldAt d 0x10 8
  let slot := if carriesBlock cls then sigSlot parts.block else 0
  let p : Packet := ⟨b, fieldAt d 4 4, code, cls, bitAt 0 (fieldAt d 2 2), seq, slot, parts.params, payload,
    lockedObjects code parts.params⟩
  let s1 := { s with cpi := { s.cpi with
    accepted := s.cpi.accepted ++ [p]
    slotSeq := if carriesBlock cls then putKey slot seq s.cpi.slotSeq else s.cpi.slotSeq } }
  let s2 := tallyAdd 0x02 0 1 s1
  if toPrefect code then tallyAdd 0x01 0 1 s2 else s2

/-- A packet that the peer has accepted and forwards is taken as it is, under the number of its message (R544). -/
def acceptForward (number opcode cls : Nat) (params payload : Bytes) (s : State) : State :=
  { s with cpi := { s.cpi with
      accepted := s.cpi.accepted ++ [⟨.peer, number, opcode, cls, false, 0, 0, params, payload, lockedObjects opcode params⟩] } }

/-- A packet reaches the intake: the checks, the locks, acceptance or refusal (R541 to R543). -/
def submitPacket (b : Binding) (d payload : Bytes) (peerInflight : Nat) (s0 : State) : State :=
  let s := { s0 with cpi := { s0.cpi with peerInflight := peerInflight } }
  let code := fieldAt d 0 2
  if !answers b code s then s
  else
    match checkPacket b d payload s with
    | some (st, detail) => refusePacket b d st detail s
    | none =>
      match checkLocks code (lockedObjects code (packetParts d).params) s.cpi with
      | some (st, detail) => refusePacket b d st detail s
      | none => acceptPacket b d payload s

/-- A binding comes into existence with a session number drawn for it (ch. 15); the claims of a lost one of the same host NQN are
its own from now on (R548). -/
def bind (b : Binding) (highest : Nat) (host : Bytes) (s : State) : State :=
  if s.cpi.bindings.any (fun r => r.id == b) then
    { s with cpi := { s.cpi with
        bindings := s.cpi.bindings.map (fun r => if r.id == b then { r with highest := highest, lostAt := none } else r) } }
  else
    let lost := (s.cpi.bindings.filter (fun r => r.lostAt.isSome && host != [] && r.host == host)).map (fun r => some r.id)
    drawn 1 { s with cpi := { s.cpi with
      bindings := s.cpi.bindings ++ [⟨b, s.free % 4096, highest, host, none⟩]
      claims := s.cpi.claims.map (fun k => if lost.contains k.binding then { k with binding := some b } else k) } }

/-- A binding is lost (R545, R548): its packets run on, its claims are kept 60 s. -/
def loseBinding (b : Binding) (s : State) : State :=
  { s with cpi := { s.cpi with
      bindings := s.cpi.bindings.map (fun r => if r.id == b then { r with lostAt := some s.tt.now } else r) } }

/-- A mailbox's binding comes into existence with the first packet the head answers there. -/
def bindMailbox (b : Binding) (packet : Bytes) (s : State) : State :=
  if answers b (fieldAt packet 0 2) s && !s.cpi.bindings.any (fun r => r.id == b) then bind b 2 [] s else s

/-- SUBMIT on the CPI mailbox (R541); the payload is what the input descriptors' DMA brings. -/
def execCpiSubmit (packet payload : Bytes) (peerInflight : Nat) (s : State) : Host.Outcome State Fault Refusal :=
  .next (submitPacket .cpi packet payload peerInflight (bindMailbox .cpi packet s))

/-- SUBMIT on the PFM mailbox (R541). -/
def execPfmSubmit (packet payload : Bytes) (peerInflight : Nat) (s : State) : Host.Outcome State Fault Refusal :=
  .next (submitPacket .pfm packet payload peerInflight (bindMailbox .pfm packet s))

/-- An MCTP message (R535): dropped above 65,536 bytes with MCTP_DROP, else taken as a packet whose
payload follows the parameters and the signature block. -/
def execMctpMessage (endpoint length : Nat) (body : Bytes) (peerInflight : Nat) (s : State) :
    Host.Outcome State Fault Refusal :=
  if 65536 < length then
    .next (event 0xD003 9 (argOf [(0, endpoint % 256), (4, length % 2 ^ 32)]) s)
  else
    let s1 := if s.cpi.bindings.any (fun r => r.id == .mctp endpoint) then s else bind (.mctp endpoint) 3 [] s
    .next (submitPacket (.mctp endpoint) body (body.drop (packetParts body).base) peerInflight s1)

/-- The reply payload of a tag has been fetched in full: the reply is discarded (R534). -/
def dropReply (b : Binding) (tag : Nat) (c : Cpi) : Cpi :=
  { c with replies := c.replies.filter (fun r => !(r.binding == b && r.tag == tag)) }

/-- ACK on a mailbox: its reply leaves the reply area; a reply without payload left to fetch is
discarded, and the next ready reply takes the area (R534). -/
def ackMailbox (b : Binding) (tag : Nat) (c : Cpi) : Cpi :=
  match c.replyOf b tag with
  | none => c
  | some r =>
    if r.size ≤ r.fetched then dropReply b tag c
    else { c with replies := c.replies.map (fun x =>
        if x.binding == b && x.tag == tag then { x with acked := true } else x) }

/-- ACK frees the CPI reply area and the next ready reply takes its place (R534). -/
def execCpiAck (s : State) : Host.Outcome State Fault Refusal :=
  match s.cpi.cpiArea with
  | none => .next s
  | some tag =>
    .next (tallyAdd 0x02 2 1 { s with cpi := Cpi.showReplies { ackMailbox .cpi tag s.cpi with cpiArea := none } })

/-- ACK frees the PFM reply area and the next ready reply takes its place (R534). -/
def execPfmAck (s : State) : Host.Outcome State Fault Refusal :=
  match s.cpi.pfmArea with
  | none => .next s
  | some tag =>
    .next (tallyAdd 0x02 2 1 { s with cpi := Cpi.showReplies { ackMailbox .pfm tag s.cpi with pfmArea := none } })

/-- No piece of an object of a binding has arrived for 60 s: the object is discarded (R537). -/
def execPieceTimeout (b : Binding) (s : State) : Host.Outcome State Fault Refusal :=
  .next { s with cpi := { s.cpi with
    pieces := s.cpi.pieces.filter (fun o => !(o.binding == b && o.lastAt + secBells 60 ≤ s.tt.now)) } }

/-- A reply not fetched within 60 s of being ready is discarded (R534). -/
def execReplyRetentionExpiry (b : Binding) (tag : Nat) (s : State) : Host.Outcome State Fault Refusal :=
  match s.cpi.replyOf b tag with
  | none => .next s
  | some r =>
    whenDue (r.held = false ∧ r.readyAt + secBells 60 ≤ s.tt.now)
      { s with cpi := Cpi.showReplies { dropReply b tag s.cpi with
          cpiArea := if b = .cpi ∧ s.cpi.cpiArea = some tag then none else s.cpi.cpiArea
          pfmArea := if b = .pfm ∧ s.cpi.pfmArea = some tag then none else s.cpi.pfmArea } } s

/-- 60 s after a binding is lost its claims are released, unless it has been bound again (R548). Its record stays while a packet of it
runs or a reply is kept (R545). -/
def execClaimBindingTimeout (b : Binding) (s : State) : Host.Outcome State Fault Refusal :=
  match s.cpi.bindings.find? (fun r => r.id == b) with
  | none => .next s
  | some r =>
    match r.lostAt with
    | none => .next s
    | some t =>
      whenDue (t + secBells 60 ≤ s.tt.now)
        { s with cpi := { s.cpi with
            claims := s.cpi.claims.filter (fun k => k.binding != some b)
            bindings := s.cpi.bindings.filter (fun x => !(x.id == b) ||
              s.cpi.accepted.any (fun p => p.binding == b) || s.cpi.replies.any (fun y => y.binding == b)) } } s

/-- A 32-byte record of SYS_CLAIMS: the detail of R547, the claim time and 8 reserved bytes (R548). -/
def Claim.record (k : Claim) : Bytes := k.detail ++ leBytes 8 k.time ++ zeros 8

/-- SYS_CLAIMS: the claims held, from the first record named, at most 127 (R548, Table 15-6). -/
def execSysClaims (b : Binding) (tag : Nat) (s : State) : Host.Outcome State Fault Refusal :=
  onPacket b tag 0x0108 (fun p s =>
    answered p (fields [(4, s.cpi.claims.length), (4, 0)] ++
      ((s.cpi.claims.drop (p.param 0 4)).take 127).flatMap Claim.record) [] s) s

/-- Reply payload bytes fetched up to an offset: the reply goes once the whole payload is out (R534). -/
def noteFetched (b : Binding) (tag upTo : Nat) (c : Cpi) : Cpi :=
  match c.replyOf b tag with
  | none => c
  | some r =>
    if r.size ≤ upTo then dropReply b tag c
    else { c with replies := c.replies.map (fun x =>
        if x.binding == b && x.tag == tag then { x with fetched := max x.fetched upTo } else x) }

/-- What taking a piece of an object gives (R537): more to come, the whole object, or a broken rule. -/
inductive PieceResult where
  | more
  | whole (data : Bytes)
  | broken
  deriving DecidableEq, Repr

/-- A piece of an object from a binding: pieces come in ascending order without gap or overlap, with one
total length; a broken rule discards the object (R537). -/
def takePiece (p : Packet) (offset total : Nat) (s : State) : State × PieceResult :=
  let mine := fun (o : PieceObj) => o.binding == p.binding && o.opcode == p.opcode
  let held := s.cpi.pieces.find? mine
  let rest := s.cpi.pieces.filter (fun o => !mine o)
  let have_ := (held.map (·.data)).getD []
  let sameTotal := (held.map (·.total)).getD total == total
  if offset ≠ have_.length ∨ !sameTotal ∨ total < offset + p.payload.length ∨ total = 0 then
    ({ s with cpi := { s.cpi with pieces := rest } }, .broken)
  else if offset + p.payload.length = total then
    ({ s with cpi := { s.cpi with pieces := rest } }, .whole (have_ ++ p.payload))
  else
    ({ s with cpi := { s.cpi with
        pieces := rest ++ [⟨p.binding, p.opcode, total, have_ ++ p.payload, s.tt.now⟩] } }, .more)

end Sys2Proof.Machine
end

