-- ==== Sys2Proof/Machine/Observability.lean ====
section
/-! DEFINITION. The Diary, the Tally, bandwidth windows and diagnostic captures (R580 to R594, R596). -/

namespace Sys2Proof.Machine

/-- A record as its 32 bytes (Table 17-1). -/
def DiaryRec.bytes (r : DiaryRec) : Bytes :=
  fields [(2, r.code), (2, r.repeats), (1, r.island), (1, r.flags), (2, 0), (8, r.first), (8, r.last), (8, r.arg)]

/-- Record n of the ring, when it lies from DIARY_OLDEST to DIARY_HEAD − 1. -/
def Diary.record (d : Diary) (n : Nat) : Option DiaryRec :=
  if d.oldest ≤ n ∧ n < d.head then d.ring[d.head - 1 - n]? else none

/-- The 128 records of DIARY_WINDOW from DIARY_CURSOR onward; zeros outside the ring (R587). -/
def Diary.window (d : Diary) : Bytes :=
  (List.range 128).flatMap (fun i => ((d.record (d.cursor + i)).map DiaryRec.bytes).getD (zeros 32))

/-- The records DIARY_READ returns from a cursor, and the next cursor (R587). -/
def Diary.read (d : Diary) (cursor count : Nat) : Nat × List DiaryRec :=
  let start := max cursor d.oldest
  let n := min count (d.head - start)
  (start + n, (List.range n).filterMap (fun i => d.record (start + i)))

/-- DIARY_READ (R587). -/
def execDiaryRead (b : Binding) (tag : Nat) (s : State) : Host.Outcome State Fault Refusal :=
  onPacket b tag 0x0A01 (fun p s =>
    let (next, recs) := s.diary.read (p.param 0 8) (p.param 8 4)
    answered p (leBytes 8 next) (recs.flatMap DiaryRec.bytes) s) s

/-- DIARY_FREEZE: action 1 freezes, action 2 ends a freeze (R585). -/
def execDiaryFreeze (b : Binding) (tag : Nat) (s : State) : Host.Outcome State Fault Refusal :=
  onPacket b tag 0x0A02 (fun p s =>
    changed p [] (if p.param 0 1 = 1 then freezeDiary s else thawDiary 2 s)) s

/-- A write of DIARY_CTRL.FREEZE freezes or thaws the Diary (R585). -/
def execDiaryCtrlFreezeWrite (bit : Bool) (s : State) : Host.Outcome State Fault Refusal :=
  .next (if bit then freezeDiary s else thawDiary 2 s)

/-- A freeze ends 60 s after it was set (R585). -/
def execDiaryFreezeTimeout (s : State) : Host.Outcome State Fault Refusal :=
  whenDue (s.diary.frozen = true ∧ s.diary.frozenAt + secBells 60 ≤ s.tt.now) (thawDiary 3 s) s

/-- An event from an island of its own reaches the intake (R583); code 0x0000 is never a record. -/
def execDiaryEvent (code island arg : Nat) (s : State) : Host.Outcome State Fault Refusal :=
  .next (if code % 65536 = 0 then s else event (code % 65536) (island % 32) (arg % 2 ^ 64) s)

/-! ### Tally -/

/-- Flags of a sample: sticky overflow, saturated, restarted (R592). -/
def Ctr.flags (c : Ctr) : Nat := flagBit c.overflow + 2 * flagBit c.saturated + 4 * flagBit c.restarted

/-- A sample as its 16 bytes: value, flags, counter number, timestamp (R592). -/
def Sample.bytes (x : Sample) : Bytes := fields [(6, x.value), (1, x.flags), (1, x.counter % 16), (8, x.time)]

/-- The sample of counter i in a sweep whose last sample falls `skew` ns after its first: samples are read
in ascending order and carry the timestamp of the period they are read in (R591). -/
def Tally.sampleOf (t : Tally) (now skew i : Nat) : Sample :=
  ⟨i, (t.ctr i).value, (t.ctr i).flags, now + skew * i / 319 / 16000⟩

/-- A sweep reads the 320 counters; the restarted flag goes with the first sample after it was set (R590, R591). -/
def sweep (s : State) : State :=
  let skew := s.free % 39876
  drawn 1 { s with tally := { s.tally with
    sweepNo := s.tally.sweepNo + 1
    skew := skew
    samples := (List.range 320).map (s.tally.sampleOf s.tt.now skew)
    ctrs := s.tally.ctrs.map (fun p => (p.1, { p.2 with restarted := false })) } }

/-- TALLY_SWEEP: at the bell of every period whose number is a multiple of 4 (R591). -/
def execTallySweep (s : State) : Host.Outcome State Fault Refusal :=
  whenDue (s.tt.now % 4 = 0) (tallyAdd 0x10 0 1 (sweep s)) s

/-- The counters of the Compat-User subset: HQ 0 to 4, STG 0, BAY 0 to 2 (R593). -/
def compatCounters (block : Nat) : List Nat :=
  if block = 0x04 then [0, 1, 2, 3, 4] else if block = 0x05 then [0] else if block = 0x0C then [0, 1, 2] else []

/-- TALLY_READ: the sweep header and the samples of the counters in the mask (R592, R593). -/
def execTallyRead (b : Binding) (tag : Nat) (s : State) : Host.Outcome State Fault Refusal :=
  onPacket b tag 0x0A03 (fun p s =>
    let block := p.param 0 1
    let ctrs := bitsOf 16 (p.param 2 2)
    if p.cls = 4 ∧ ctrs.any (fun c => !(compatCounters block).contains c) then
      refuse p .classDenied (detailOf [(1, 3)]) s
    else
      answered p [] (fields [(8, s.tally.sweepNo), (4, s.tally.skew), (4, 0)] ++
        ctrs.flatMap (fun c => ((s.tally.samples[16 * block + c]?).map Sample.bytes).getD
          (fields [(6, 0), (1, 0), (1, c), (8, 0)]))) s) s

/-- The event field TALLY_CONFIG may give a counter: any for a programmable one, a domain for DDP 6 and
7, 0 for every other fixed counter (R589). -/
def tallyEventOk (block c ev : Nat) : Bool :=
  8 ≤ c || (block == 6 && (c == 6 || c == 7) && ev ≤ 4095) || ev == 0

/-- TALLY_CONFIG: sets a counter's event and mode, claims it, or releases the claim with event 0 and
mode 0; the counter is zeroed at the next bell (R589). -/
def execTallyConfig (b : Binding) (tag : Nat) (s : State) : Host.Outcome State Fault Refusal :=
  onPacket b tag 0x0A04 (fun p s =>
    let block := p.param 0 1
    let c := p.param 1 1
    let ev := p.param 2 2
    let mode := p.param 4 1
    let i := 16 * block + c
    let res := 0x04000000 + i
    if !tallyEventOk block c ev then badParam p 2 s
    else
      match s.cpi.blocked [res] (fun k => k.binding == some b && k.opcode == 0x0A04) with
      | some k => refuse p .resourceClaimed k.detail s
      | none =>
        let s1 := { s with tally := { s.tally with
          ctrs := putKey i { s.tally.ctr i with event := ev, saturate := mode == 1, zeroDue := true } s.tally.ctrs } }
        changed p [] (if ev = 0 ∧ mode = 0 then releaseClaims [res] s1
          else claimAll [res] 0x0A04 p.cls p.tag (some b) s1)) s

/-- At a bell the counters a TALLY_CONFIG named are zeroed with their flags (R589). -/
def Tally.zeroDue (t : Tally) : Tally :=
  { t with ctrs := t.ctrs.map (fun p =>
      if p.2.zeroDue then (p.1, { p.2 with value := 0, overflow := false, saturated := false, zeroDue := false })
      else p) }

/-- The counters of a block are zero after its island's reset or power-down, and the next sample carries
the restarted flag (R590). -/
def Tally.restartBlock (t : Tally) (block : Nat) : Tally :=
  { t with ctrs := (List.range 16).foldl (fun l c =>
      putKey (16 * block + c) { t.ctr (16 * block + c) with
        value := 0, overflow := false, saturated := false, restarted := true } l) t.ctrs }

/-! ### Bandwidth windows -/

/-- BW_WINDOW: a window on a port with an interval timer it claims (R594). -/
def execBwWindow (b : Binding) (tag : Nat) (s : State) : Host.Outcome State Fault Refusal :=
  onPacket b tag 0x0A05 (fun p s =>
    let timer := p.param 1 1
    let res := 0x02000000 + timer
    match s.cpi.blocked [res] (fun _ => false) with
    | some k => refuse p .resourceClaimed k.detail s
    | none =>
      changed p [] (claimAll [res] 0x0A05 p.cls p.tag (some b) { s with tally := { s.tally with
        windows := putKey timer ⟨1, p.param 0 1, p.param 2 2, 0, 0, 0, 0, 0⟩ s.tally.windows } })) s

/-- A window starts counting at the first day boundary after its reply (R594). -/
def execBwWindowStart (timer : Nat) (s : State) : Host.Outcome State Fault Refusal :=
  match getKey timer s.tally.windows with
  | none => .next s
  | some w =>
    whenDue (w.state = 1 ∧ s.tt.now % 1024 = 0)
      { s with tally := { s.tally with
          windows := putKey timer { w with state := 2, start := s.tt.now } s.tally.windows } } s

/-- A window ends at its day boundary: the bytes its port counted are stored, and the claim is released (R594). -/
def execBwWindowEnd (timer bytesIn bytesOut : Nat) (s : State) : Host.Outcome State Fault Refusal :=
  match getKey timer s.tally.windows with
  | none => .next s
  | some w =>
    whenDue (w.state = 2 ∧ w.start + 1024 * w.days ≤ s.tt.now)
      (releaseClaims [0x02000000 + timer] { s with tally := { s.tally with
        windows := putKey timer { w with state := 3, stop := s.tt.now, bytesIn := bytesIn % 2 ^ 64, bytesOut := bytesOut % 2 ^ 64 }
          s.tally.windows } }) s

/-- A command fetched from a host port after waiting for admission: the running windows on the port sum
the wait (R594). -/
def Tally.noteWait (t : Tally) (port wait : Nat) : Tally :=
  { t with windows := t.windows.map (fun p =>
      if p.2.state = 2 ∧ p.2.port = port then (p.1, { p.2 with wait := p.2.wait + wait }) else p) }

/-! ### Histograms and captures -/

/-- The bin of a temperature in °C (R596). -/
def tempBin (c : Int) : Nat := min 21 (c.toNat / 5)

/-- A histogram with one more minute in a bin. -/
def histAdd (h : List Nat) (bin : Nat) : List Nat :=
  (List.range 22).map (fun i => h.getD i 0 + (if i = bin then 1 else 0))

/-- HISTOGRAM_MINUTE: each minute of trusted clock the bins of the highest readings are counted; the chip's is the hottest
sensor's reading (R596). -/
def execHistogramMinute (chip : Int) (modules : List (Nat × Int)) (s : State) : Host.Outcome State Fault Refusal :=
  let s := noteHottest chip s.pins.sensor s
  .next { s with tally := { s.tally with
    minutes := min (s.tally.minutes + 1) 0xFFFFFFFF
    chipHist := histAdd s.tally.chipHist (tempBin chip)
    modules := modules.foldl (fun l m =>
      let h := (getKey m.1 l).getD ⟨0, []⟩
      putKey m.1 { h with histogram := histAdd h.histogram (tempBin m.2) } l) s.tally.modules } }

/-- DIAG_CAPTURE: claims its buffer, timer and counters, and runs for a number of days (Table 15-13). -/
def execDiagCapture (b : Binding) (tag : Nat) (s : State) : Host.Outcome State Fault Refusal :=
  onPacket b tag 0x0808 (fun p s =>
    let n := p.param 4 2
    let ctrs := (List.range n).map (fun i => p.param (16 + 4 * i) 4)
    let res := [0x03000000 + p.param 0 1, 0x02000000 + p.param 1 1] ++ ctrs
    match (List.range n).find? (fun i =>
        let r := ctrs.getD i 0
        r < 0x04000000 || 0x04000000 + 320 ≤ r) with
    | some i => badParam p (16 + 4 * i) s
    | none =>
      match s.cpi.blocked res (fun _ => false) with
      | some k => refuse p .resourceClaimed k.detail s
      | none =>
        claimAll res 0x0808 p.cls p.tag (some b) { s with tally := { s.tally with
          captures := s.tally.captures ++
            [⟨b, tag, p.param 0 1, p.param 1 1, p.param 2 2, ctrs, s.tt.now + 1024 * p.param 8 4⟩] } }) s

/-- Captures whose days are over are answered; the spec states no layout for their payload, so its bytes
are free. The claims go with the reply (R548). -/
def endCapture (c : Capture) (s : State) : State :=
  match s.cpi.packet c.binding c.tag 0x0808 with
  | none => s
  | some p =>
    let n := s.free % 1048577
    let bytes := (List.range n).map (fun i => BitVec.ofNat 8 (s.freeAt (1 + i)))
    releaseClaims ([0x03000000 + c.buffer, 0x02000000 + c.timer] ++ c.counters)
      (answered p [] bytes (drawn (n + 1) s))

/-- At a bell the captures that are over end. -/
def endCaptures (s : State) : State :=
  let ended := s.tally.captures.filter (fun c => c.endsAt ≤ s.tt.now)
  ended.foldl (fun t c => endCapture c t)
    { s with tally := { s.tally with captures := s.tally.captures.filter (fun c => s.tt.now < c.endsAt) } }

/-- DIAG_DUMP: a diagnostic source is dumped through a capture buffer claimed for the dump's duration;
the bytes the source holds come with the command (Table 15-13). -/
def execDiagDump (b : Binding) (tag : Nat) (dump : Bytes) (s : State) : Host.Outcome State Fault Refusal :=
  onPacket b tag 0x0806 (fun p s =>
    match s.cpi.blocked [0x03000000 + p.param 0 1] (fun _ => false) with
    | some k => refuse p .resourceClaimed k.detail s
    | none => answered p [] (dump.take (min (p.param 4 4) 1048576)) s) s

end Sys2Proof.Machine
end

