-- ==== Sys2Proof/Machine/Pair.lean ====
section
/-! DEFINITION. The Corridor's message rules (R143, R144, R472, R640), the journal and its durability
(R296 to R302), what the sheet in force gives this head. -/

namespace Sys2Proof.Machine

/-! ### The sheet in force -/

/-- The Peer-absent sheet is in force for this head as the survivor (R141, R174). -/
def State.peerAbsent (s : State) : Bool := s.tt.sheetOf.kind == 1 && s.tt.sheetOf.head == s.sys.slot

/-- The class of a form in the current period. -/
def State.formClass (s : State) (f : Nat) : Nat :=
  match s.tt.active with
  | none => 0
  | some i => i.classOf (i.sheet s.tt.sheet) f s.period

/-- The forms this head owns in the sheet in force (R68). -/
def State.ownForms (s : State) : List Nat :=
  match s.tt.active with
  | none => []
  | some i => (List.range i.formCount).filter (fun f => ownerUnder (i.sheet s.tt.sheet) (i.form f) == s.sys.slot)

/-- The form that holds a die. -/
def State.formAt (s : State) (bay die : Nat) : Option Nat := s.tt.active.bind (fun i => i.formOf bay die)

/-- Whether this head owns the form of a die. -/
def State.ownsDie (s : State) (bay die : Nat) : Bool := (s.formAt bay die).any (fun f => s.ownForms.contains f)

/-- Both heads of the pair are in service to each other. -/
def State.paired (s : State) : Bool := s.corr.roll == .inService && !s.peerAbsent

/-- Writes take the steps of R140 through the peer: until the Peer-absent sheet is in force, those of a peer that is gone
wait (R141, R471). -/
def State.mirrors (s : State) : Bool := (s.corr.roll == .inService || s.corr.roll == .presumedDown) && !s.peerAbsent

/-- The survivor copies its writes and records to a joiner (R491 step 6). -/
def State.copying (s : State) : Bool := s.corr.roll == .joining && 7 ≤ s.corr.step && s.pwr.stage == .service

/-! ### Corridor messages -/

/-- Family, type and traffic class of a message (Tables 4-5, 13-1); a forwarded packet and its answer have none in the spec
(R544). -/
def CorrBody.kind : CorrBody → Option (Nat × (Nat × Nat))
  | .mirrorData .. => some (0, (0x01, 1))
  | .mirrorAck .. => some (0, (0x02, 1))
  | .commit _ => some (0, (0x03, 4))
  | .commitAck _ => some (0, (0x04, 4))
  | .release _ => some (0, (0x05, 4))
  | .credit .. => some (0, (0x06, 4))
  | .vaultNotice _ => some (0, (0x07, 4))
  | .vaultDone .. => some (0, (0x08, 4))
  | .markList _ => some (0, (0x09, 5))
  | .withdraw .. => some (0, (0x0A, 4))
  | .heartbeat .. => some (1, (0x01, 4))
  | .bellSync .. => some (1, (0x02, 4))
  | .fsnRequest .. => some (1, (0x03, 4))
  | .fsnGrant .. => some (1, (0x04, 4))
  | .sheetTrigger .. => some (1, (0x05, 4))
  | .snapFence .. => some (1, (0x06, 4))
  | .ttImage .. => some (1, (0x07, 5))
  | .ttVerdict .. => some (1, (0x08, 4))
  | .sbChange .. => some (1, (0x09, 4))
  | .anaMove .. => some (1, (0x0A, 4))
  | .hello _ => some (1, (0x0B, 4))
  | .releaseNotice _ => some (1, (0x0C, 4))
  | .resyncDone .. => some (1, (0x0D, 4))
  | .journal _ => some (2, (0x01, 2))
  | .journalAck _ => some (2, (0x02, 2))
  | .resolve .. => some (2, (0x03, 2))
  | .resolveAnswer .. => some (2, (0x04, 2))
  | .refDelta _ => some (2, (0x05, 2))
  | .place .. => some (2, (0x06, 2))
  | .prefectRecord _ => some (3, (0x01, 4))
  | .forward .. => none
  | .forwarded .. => none

/-- A family or type that Tables 4-5 and 13-1 reserve (R472). -/
def reservedMessage (family type : Nat) : Bool :=
  type = 0 || 3 < family || type > [0x0A, 0x0D, 0x06, 0x01].getD family 0

/-- A message that needs a gated island returns the head from PS3 (R125). -/
def wake (needs : Bool) (s : State) : State :=
  if needs ∧ s.hq.ps = 3 ∧ s.hq.ps3Exit.isNone = true then { s with hq := { s.hq with ps3Exit := some s.tt.now } } else s

/-- A message is sent while the head has a peer in service, or one that joins and takes its copies. -/
def sendPeer (b : CorrBody) (s : State) : State := if s.paired || s.copying then send b s else s

/-- The message a number names, when it still awaits its answer. -/
def Corr.awaiting (c : Corr) (number : Nat) : Option Sent := c.unanswered.find? (fun m => m.number == number)

/-- The message a message of its own type answers: the oldest unanswered one that matches (Table 13-1). -/
def Corr.answerOf (c : Corr) (p : CorrBody → Bool) : Option Sent := c.unanswered.find? (fun m => p m.body)

/-- A message has its answer. -/
def settleNumber (number : Nat) (s : State) : State :=
  { s with corr := { s.corr with unanswered := s.corr.unanswered.filter (fun m => m.number != number) } }

/-- Messages a head takes from a peer it presumes down (R640). -/
def takenWhenDown : CorrBody → Bool
  | .heartbeat .. => true
  | .vaultNotice _ => true
  | .vaultDone .. => true
  | .releaseNotice _ => true
  | .hello _ => true
  | _ => false

/-- A message from the peer is dropped, unanswered: the peer is presumed down and the handover has not
begun (R640), or no link carries it. -/
def State.drops (s : State) (b : CorrBody) : Bool :=
  s.corr.roll == .presumedDown && !s.corr.helloSeen && !takenWhenDown b

/-- A message arrives: dropped under R640; answered again without effect when its number has been answered
(R144); else it takes effect. -/
def onMessage (number : Nat) (b : CorrBody) (f : State → State) (s : State) : Host.Outcome State Fault Refusal :=
  .next <|
    let s1 := tallyAdd 0x0D 1 1 s
    if s1.drops b then s1
    else
      match getKey number s1.corr.answered with
      | some a => send a s1
      | none => f s1

/-- A message without an answer arrives (R640). -/
def onWord (b : CorrBody) (f : State → State) (s : State) : Host.Outcome State Fault Refusal :=
  .next <|
    let s1 := tallyAdd 0x0D 1 1 s
    if s1.drops b then s1 else f s1

/-- The peer is presumed down and the Peer-absent sheet is due: what both heads apply waits for it (R544). -/
def State.awaitsAlone (s : State) : Bool :=
  s.corr.roll == .presumedDown && !s.peerAbsent &&
  s.tt.switches.any (fun x => x.enter && x.what.kind == 1 && x.what.head == s.sys.slot)

/-- A packet that changes pool-wide state: forwarded to the peer, applied on both heads, or refused with the
peer's status; alone under the Peer-absent sheet, for which it waits once that is due (R544). DESIGN CHOICE, log 77: a head whose peer
is absent and which no such sheet awaits applies it alone too. The peer's answer comes with the command. One that the peer has
forwarded is applied here. -/
def pairWide (p : Packet) (peer : PeerAnswer) (f : State → State) (s : State) : State :=
  if s.paired ∧ p.binding ≠ .peer then
    let n := s.corr.nextNumber
    let s1 := settleNumber n (send (.forward p.opcode p.cls p.params p.payload) s)
    if peer.status = .ok then f s1 else refuse p peer.status peer.detail s1
  else if s.awaitsAlone = true ∧ p.binding ≠ .peer then s
  else f s

/-! ### Pages and their applied positions (R301, R304, Table 8-3) -/

/-- The head slot that owns a CID (R176). -/
def cidOwner (cid : Nat) : Nat := cid / 2 ^ 47 % 2

/-- A tree page by kind (1 map, 2 content table, 3 ledger, 4 tail table, 5 index directory, 6 volume directory),
tree, level and page number. -/
def pageId (kind tree level key : Nat) : Nat := 2 ^ 112 * kind + 2 ^ 72 * tree + 2 ^ 64 * level + key

/-- The leaf pages a record dirties: kind, tree, page number. -/
def dirtyOf : JBody → List (Nat × (Nat × Nat))
  | .mapSet t g _ _ _ => [(1, (t, g / 504))]
  | .ctNew c _ => [(2, (cidOwner c, c % 2 ^ 47 / 126))]
  | .ctMove c _ _ => [(2, (cidOwner c, c % 2 ^ 47 / 126))]
  | .refDelta l => l.map (fun p => (2, (cidOwner p.1, p.1 % 2 ^ 47 / 126)))
  | .reclaim c _ => [(2, (cidOwner c, c % 2 ^ 47 / 126))]
  | .poison c _ => [(2, (cidOwner c, c % 2 ^ 47 / 126))]
  | .blockState b _ _ => [(3, (0, b / 63))]
  | .ledger b _ => [(3, (0, b / 63))]
  | .volume r _ _ _ _ _ => [(6, (0, r / 31))]
  | .mapPage .. => []
  | .indexChange .. => []
  | .counter .. => []
  | .usageGrant .. => []
  | .checkpoint .. => []
  | .epochSeal .. => []
  | .groupOpen .. => []
  | .stripeOpen .. => []
  | .stripeClose .. => []
  | .parityBlock .. => []
  | .blockSubst .. => []
  | .groupClose .. => []
  | .groupRelease _ => []
  | .lostPage .. => []
  | .sjCheckpoint .. => []
  | .triadSubst .. => []

/-- The key of a page's applied position by the records of a head. -/
def appliedKey (p : Nat × (Nat × Nat)) (head : Nat) : Nat := 2 * pageId p.1 p.2.1 0 p.2.2 + head

/-- The name of a leaf page in the metadata cache: map trees by root, content table by half above 2^32; none for other trees. -/
def cacheName (p : Nat × (Nat × Nat)) : Option (Nat × Nat) :=
  if p.1 = 1 then some p.2 else if p.1 = 2 then some (2 ^ 32 + p.2.1, p.2.2) else none

/-- Resident leaf pages are used: they become the most recently used (R294). -/
def touchPages (l : List (Nat × Nat)) (s : State) : State :=
  let here := l.eraseDups.filter (fun p => !s.ftl.absent.contains p)
  { s with ftl := { s.ftl with used := s.ftl.used.filter (fun p => !here.contains p) ++ here } }

/-- A record's position is above the applied position of a page (R304). DEDUCED: a page has two writers (R293), and the records of
one come here out of position order with those of the other; a page therefore has a position for each, and its header shows the
higher. -/
def JRec.above (applied : List (Nat × (Nat × Nat))) (r : JRec) (p : Nat × (Nat × Nat)) : Bool :=
  (getKey (appliedKey p r.head) applied).all (fun x => x.1 < r.epoch || (x.1 == r.epoch && x.2 < r.seq))

/-- The applied positions of the pages that a record changes become its position (R304), and the pages are used (R294). -/
def noteApplied (r : JRec) (s : State) : State :=
  let s1 := touchPages ((dirtyOf r.body).filterMap cacheName) s
  { s1 with ftl := { s1.ftl with
    applied := (dirtyOf r.body).foldl (fun l p => putKey (appliedKey p r.head) (r.epoch, r.seq) l) s.ftl.applied } }

/-! ### The journal -/

/-- A record of this head's running epoch, with its sequence (R301). -/
def State.record (s : State) (b : JBody) : JRec :=
  ⟨s.sys.slot, if s.ftl.seqEpoch = s.epoch then s.ftl.nextSeq else 0, s.epoch, b⟩

/-- A metadata change is journalled: the record goes to the tail and, mirrored, to the peer (R297). -/
def journal (b : JBody) (s : State) : State :=
  let r := s.record b
  let s0 := noteApplied r s
  let s1 := tallyAdd 0x0A 2 1 { s0 with ftl := { s0.ftl with
    tail := s.ftl.tail ++ [r], seqEpoch := s.epoch, nextSeq := r.seq + 1 } }
  if s.paired then
    let n := s1.corr.nextNumber
    send (.journal [r]) { s1 with ftl := { s1.ftl with unacked := s1.ftl.unacked ++ [(n, s.epoch)] } }
  else sendPeer (.journal [r]) s1

/-- What is done once an epoch is durable. -/
def afterDurable (epoch : Nat) (a : After) (s : State) : State :=
  { s with ftl := { s.ftl with after := s.ftl.after ++ [(epoch, a)] } }

/-- The bytes of a journal record: its header of 16 bytes and its body (Tables 8-5, 8-6, 9-8). -/
def jbodySize : JBody → Nat
  | .mapSet .. => 40
  | .mapPage .. => 32
  | .ctNew .. => 40
  | .ctMove .. => 24
  | .refDelta l => 8 + 16 * l.length
  | .reclaim .. => 16
  | .indexChange .. => 40
  | .blockState .. => 16
  | .counter .. => 24
  | .usageGrant .. => 24
  | .poison .. => 16
  | .volume .. => 40
  | .checkpoint .. => 16
  | .epochSeal .. => 16
  | .ledger .. => 72
  | .groupOpen _ _ _ bs => 16 + 8 * bs.length
  | .stripeOpen .. => 16
  | .stripeClose .. => 16
  | .parityBlock .. => 24
  | .blockSubst .. => 32
  | .groupClose .. => 16
  | .groupRelease _ => 8
  | .lostPage .. => 16
  | .sjCheckpoint .. => 32
  | .triadSubst .. => 16

/-- Bytes of the tail in use (FTL_JOURNAL.USED_MIB, R300). -/
def Ftl.tailBytes (f : Ftl) : Nat := sumNat (f.tail.map (fun r => 16 + jbodySize r.body))

/-- The tail is 7/8 full: the head admits no write (R300). -/
def Ftl.tailFull (f : Ftl) : Bool := 7 * f.tailMib * 2 ^ 20 ≤ 8 * f.tailBytes

/-- The last durable epoch as the seals stand: both heads' seals in both tails, or the survivor's own seal
under the Peer-absent sheet (R298). -/
def State.durableNow (s : State) : Nat :=
  if s.paired then min s.ftl.sealAcked s.ftl.peerSealed else s.ftl.sealWritten

end Sys2Proof.Machine
end

