-- ==== Sys2Proof/Machine/Admission.lean ====
section
/-! DEFINITION. Admission buckets (R52, R121). -/

namespace Sys2Proof.Machine

/-- The engine kinds. -/
def engineKinds : List EngineKind := [.enc, .dec, .cip, .dig, .par]

/-- The admission scale of a power state, in quarters (Table 3-13). -/
def psScale (ps : Nat) : Nat := if ps = 0 then 4 else if ps = 1 then 3 else if ps = 2 then 2 else 0

/-- A sheet gives a lane group work in some period of the day. -/
def TtImage.usesGroup (i : TtImage) (x : TtSheet) (h g : Nat) : Bool := (List.range 1024).any (fun p => i.laneClass x h g p != 0)

/-- The row of the lane grid that names a lane group: its own number; in a Bring-up sheet numbers are roles, and the n-th role
of a kind that has work is bound to the n-th group of that kind in service. A group out of service has none (R82, R83). -/
def State.groupRole (s : State) (i : TtImage) (x : TtSheet) (g : Nat) : Option Nat :=
  if s.lanes.groupsOut.contains g then none
  else if x.kind = 5 then
    let kin := (List.range 20).filter (fun y => groupKind y == groupKind g)
    let n := (kin.filter (fun y => y < g && !s.lanes.groupsOut.contains y)).length
    (kin.filter (i.usesGroup x s.sys.slot))[n]?
  else some g

/-- The lane capacity of an engine kind that the groups in service give a stream class in this period (R52, R82, R83). -/
def State.laneCapacity (s : State) (i : TtImage) (stream : Nat) (k : EngineKind) : Nat :=
  let x := i.sheet s.tt.sheet
  sumNat ((List.range 20).map (fun g =>
    if groupKind g = k ∧ (s.groupRole i x g).any (fun r => i.laneClass x s.sys.slot r s.period == stream) = true then
      groupLanes g * laneBytes k else 0))

/-- The lane capacity that the sheet in force gives a stream class in this period, scaled by the power state, which the Vault
class is not. A Throttled pool fills the buckets of written data at the greater of 1/64 and spare remaining over 5 % of their rate (R316). -/
def State.capacityNow (s : State) (stream : Nat) (k : EngineKind) : Nat :=
  match s.tt.active with
  | none => 0
  | some i =>
    let c := s.laneCapacity i stream k * (if stream = 11 then 4 else psScale s.hq.ps) / 4
    if stream = 2 ∧ s.ftl.spareState = 2 then c * max 16 (min 1000 (s.ftl.sparePermille * 20)) / 1000 else c

/-- A bucket's limit: half of the period's capacity. -/
def State.limitNow (s : State) (stream : Nat) (k : EngineKind) : Nat := s.capacityNow stream k / 2

/-- A bucket's signed value. -/
def Tt.bucket (t : Tt) (stream : Nat) (k : EngineKind) : Int :=
  ((t.buckets.find? (fun b => b.stream == stream && b.kind == k)).map (·.bytes)).getD 0

/-- A bucket's value set. -/
def Tt.setBucket (t : Tt) (stream : Nat) (k : EngineKind) (v : Int) : Tt :=
  { t with buckets := t.buckets.filter (fun b => !(b.stream == stream && b.kind == k)) ++ [⟨stream, k, v⟩] }

/-- A bucket can pay some bytes: it holds them, or they exceed its limit and it stands at a limit above 0. -/
def State.canPay (s : State) (stream : Nat) (k : EngineKind) (bytes : Nat) : Bool :=
  bytes == 0 || (bytes : Int) ≤ s.tt.bucket stream k ||
  (s.limitNow stream k < bytes && 0 < s.limitNow stream k && s.tt.bucket stream k == (s.limitNow stream k : Int))

/-- Bytes are paid; the bucket may go into debt. -/
def pay (stream : Nat) (k : EngineKind) (bytes : Nat) (s : State) : State :=
  if bytes = 0 then s else { s with tt := s.tt.setBucket stream k (s.tt.bucket stream k - bytes) }

/-- Every cost of a list can be paid. -/
def State.canPayAll (s : State) (stream : Nat) (l : List (EngineKind × Nat)) : Bool := l.all (fun c => s.canPay stream c.1 c.2)

/-- Every cost of a list is paid. -/
def payAll (stream : Nat) (l : List (EngineKind × Nat)) (s : State) : State := l.foldl (fun t c => pay stream c.1 c.2 t) s

/-- Work posted to an engine: it pays its class's bucket and acts, or waits while the bucket cannot pay (R52). -/
def posted (stream : Nat) (l : List (EngineKind × Nat)) (f : State → State) (s : State) : Host.Outcome State Fault Refusal :=
  whenDue (s.canPayAll stream l = true) (f (payAll stream l s)) s

/-! ### Service classes (R55, R66) -/

/-- A resource that service classes share in a period: an engine kind of stream class 0x01 (0 to 4), the Corridor foreground-write
share (5). -/
def resourceOf : EngineKind → Nat
  | .enc => 0
  | .dec => 1
  | .cip => 2
  | .dig => 3
  | .par => 4

/-- What is left of a service class's share of a resource in this period. -/
def Tt.left (t : Tt) (cls r : Nat) : Option Nat := getKey (8 * cls + r) t.classLeft

/-- What has returned to all classes of a resource. -/
def Tt.common (t : Tt) (r : Nat) : Nat := (getKey r t.classPool).getD 0

/-- A service class may take some bytes of a resource: of its share, or of what has returned. A class without a record in the
admission section shares nothing out and is bounded by the whole alone. -/
def State.classPays (s : State) (cls r bytes : Nat) : Bool :=
  match s.tt.left cls r with
  | none => true
  | some l => bytes ≤ l + s.tt.common r

/-- Bytes of a resource are taken from a class's share first, then from what has returned. -/
def payClass (cls r bytes : Nat) (s : State) : State :=
  match s.tt.left cls r with
  | none => s
  | some l => { s with tt := { s.tt with
      classLeft := putKey (8 * cls + r) (l - bytes) s.tt.classLeft
      classPool := putKey r (s.tt.common r - (bytes - l)) s.tt.classPool } }

/-- At a bell what a class has left of a resource returns, and its share of the new period begins; what has returned is capped
at the limit of the resource (R55). -/
def shareOut (r capacity limit : Nat) (share : Nat → Nat) (classes : List Nat) (s : State) : State :=
  let back := sumNat (classes.map (fun c => (s.tt.left c r).getD 0))
  { s with tt := { s.tt with
      classLeft := s.tt.classLeft.filter (fun p => p.1 % 8 != r) ++ classes.map (fun c => (8 * c + r, capacity * share c / 1024))
      classPool := putKey r (min limit (s.tt.common r + back)) s.tt.classPool } }

/-- At each bell every bucket takes its capacity of the new period and is capped at half of it (R52). -/
def refillBuckets (s : State) : State :=
  (List.range 12).foldl (fun t stream => engineKinds.foldl (fun u k =>
    let c := s.capacityNow stream k
    { u with tt := u.tt.setBucket stream k (min (u.tt.bucket stream k + c) (c / 2 : Nat)) }) t) s

/-- The cipher bytes of a slot: its tier size, and 256 with metadata bytes (Table 2-16). -/
def slotBytes (tier : Nat) (pi : Bool) : Nat := 4096 * tier + (if pi then 256 else 0)

end Sys2Proof.Machine
end

