-- ==== Sys2Proof/Machine/Flash.lean ====
section
/-! DEFINITION. Flash translation: addresses, maps, the content table, blocks (R279 to R293, R306 to R314). -/

namespace Sys2Proof.Machine

/-! ### Addresses -/

/-- A block's key: bay, die, block. -/
def blkKey (bay die block : Nat) : Nat := 2 ^ 24 * bay + die * 2 ^ 13 + block

/-- The bay of a block key. -/
def blkBay (b : Nat) : Nat := b / 2 ^ 24
/-- The die of a block key. -/
def blkDie (b : Nat) : Nat := b / 2 ^ 13 % 2 ^ 11
/-- The block number of a block key. -/
def blkNo (b : Nat) : Nat := b % 2 ^ 13

/-- A PSA from its fields (Table 8-1); `tier` is 1 to 4. -/
def psaOf (blk page quarter tier stamp : Nat) : Nat :=
  2 ^ 58 * blkBay blk + 2 ^ 47 * blkDie blk + 2 ^ 34 * blkNo blk + 2 ^ 22 * page + 2 ^ 20 * quarter +
    2 ^ 18 * (tier - 1) + stamp % 2 ^ 18

/-- The block of a PSA. -/
def psaBlk (p : Nat) : Nat := blkKey (bitField 63 58 p) (bitField 57 47 p) (bitField 46 34 p)
/-- The page of a PSA. -/
def psaPage (p : Nat) : Nat := bitField 33 22 p
/-- The quarter offset of a PSA. -/
def psaQuarter (p : Nat) : Nat := bitField 21 20 p
/-- The tier of a PSA, 1 to 4. -/
def psaTier (p : Nat) : Nat := bitField 19 18 p + 1
/-- The stamp of a PSA. -/
def psaStamp (p : Nat) : Nat := bitField 17 0 p

/-- An MPA from its fields (Table 8-2). -/
def mpaOf (triad die block page quarter epoch : Nat) : Nat :=
  2 ^ 50 * triad + 2 ^ 46 * die + 2 ^ 33 * block + 2 ^ 21 * page + 2 ^ 19 * quarter + epoch % 2 ^ 19

/-- A block as an event argument: bay, die, block. -/
def blkArg (b : Nat) : List (Nat × Nat) := [(0, blkBay b), (2, blkDie b), (4, blkNo b)]

/-! ### Blocks -/

/-- A block nothing has happened to: Free, no erase; its die type from the image. -/
def Ledger.free (dieType : Nat) : Ledger := ⟨.free, dieType, 0, 0, 0, 0, 0, 0, 0, List.replicate 16 0⟩

/-- The ledger entry of a block. -/
def Ftl.ledger (f : Ftl) (b : Nat) : Ledger := (getKey b f.blocks).getD (Ledger.free 0)

/-- The code of a block state (Table 8-7). -/
def blkCode : BlkState → Nat
  | .free => 0
  | .isOpen => 1
  | .full => 2
  | .pendingErase => 3
  | .retired => 4

/-- A ledger entry replaced, without a record. -/
def putLedger (b : Nat) (e : Ledger) (s : State) : State :=
  { s with ftl := { s.ftl with blocks := putKey b e s.ftl.blocks } }

/-- A ledger entry replaced with its LEDGER record (R318). -/
def setLedger (b : Nat) (e : Ledger) (s : State) : State := journal (.ledger b e) (putLedger b e s)

/-- A ledger entry replaced, with its record where this head's half holds it: that of the forms it owns (R318). -/
def setOwnLedger (b : Nat) (e : Ledger) (s : State) : State :=
  if s.ownsDie (blkBay b) (blkDie b) then setLedger b e s else putLedger b e s

/-- A block takes a new state, with its BLOCK_STATE record (Table 8-6); one that becomes Full is due for calibration (R319). -/
def setBlkState (b : Nat) (st : BlkState) (s : State) : State :=
  let e := s.ftl.ledger b
  journal (.blockState b st e.pe) (putLedger b { e with
    state := st, fullEpoch := if st = .full then s.epoch else e.fullEpoch }
    { s with ftl := { s.ftl with fullDue := if st = .full then s.ftl.fullDue ++ [b] else s.ftl.fullDue.filter (· != b) } })

/-- A block becomes Pending-Erase, and is erased in Recess once its record is durable (R313, Table 8-7). -/
def freeBlock (b : Nat) (s : State) : State := afterDurable s.epoch (.erasable b) (setBlkState b .pendingErase s)

/-- A block opens at its first programme, with its BLOCK_STATE and LEDGER records (R318, Table 8-7, Table 8-10). -/
def openBlock (b dieType : Nat) (s : State) : State :=
  let e := s.ftl.ledger b
  let e1 := { e with state := .isOpen, dieType := dieType, writeTime := s.clockSec, consumed := 0, live := 0, ratio := 0 }
  setLedger b e1 (journal (.blockState b .isOpen e.pe) { s with ftl := { s.ftl with
    badPages := s.ftl.badPages.filter (fun p => p.1 != b), calibrated := s.ftl.calibrated.filter (· != b) } })

/-- A block is Retired: its event, and its live slots are to be moved in Recess (R314). -/
def retireBlock (b why : Nat) (s : State) : State :=
  if (s.ftl.ledger b).state = .retired then s
  else
    let live := (s.ftl.ct.filter (fun c => psaBlk c.2.psa == b && bitAt 0 c.2.flags && !bitAt 6 c.2.flags)).map (·.1)
    let s1 := event 0x7003 20 (argOf (blkArg b ++ [(6, why)])) (setBlkState b .retired s)
    if live = [] then s1 else { s1 with ftl := { s1.ftl with moves := s1.ftl.moves ++ [⟨b, 3, live⟩] } }

/-- Free blocks of a die, ascending P/E count then block number, the superblock ring's blocks apart (R313, R379). -/
def State.freeBlocks (s : State) (bay die nblocks : Nat) : List Nat :=
  let cand := (List.range nblocks).filter (fun n => !(die == 0 && n < 4))
  let free := (cand.map (fun n => blkKey bay die n)).filter (fun b => (s.ftl.ledger b).state == .free)
  (sortBy (fun a b => (s.ftl.ledger a).pe < (s.ftl.ledger b).pe ||
    ((s.ftl.ledger a).pe == (s.ftl.ledger b).pe && a ≤ b)) free)

/-- The head's DRAM [GiB]: its DIMMs. -/
def Dram.gib (d : Dram) : Nat := sumNat (d.channels.map (fun c => (c.dimm.map (·.gib)).getD 0))

/-- At a bell dies of this head's data-role forms with fewer than 2 Free blocks are noted, until they have 4 again: new stripes avoid
their forms (R311). -/
def diesBell (s : State) : State :=
  match s.tt.active with
  | none => s
  | some i =>
    let dies := (s.ownForms.filter (fun f => bitAt 0 (i.form f).role)).flatMap (fun f =>
      (List.range 16).map (fun d => ((i.form f).bay, 16 * (i.form f).group + d)))
    let free := fun (x : Nat × Nat) =>
      (s.freeBlocks x.1 x.2 ((((getKey x.1 s.bay.bays).bind (·.ident)).map (·.blocks)).getD 0)).length
    { s with ftl := { s.ftl with
      lowDies := dies.filter (fun x => free x < 2 || (s.ftl.lowDies.contains x && free x < 4)) } }

/-! ### CIDs and the content table -/

/-- Whether this head owns a CID: its own, or every one under the Peer-absent sheet (R176). -/
def State.ownsCid (s : State) (cid : Nat) : Bool := cidOwner cid == s.sys.slot || s.peerAbsent

/-- The content-table record of a CID. -/
def Ftl.ctRec (f : Ftl) (cid : Nat) : Option CtRec := getKey cid f.ct

/-- A content-table record put in place. -/
def putRec (cid : Nat) (r : CtRec) (s : State) : State :=
  { s with ftl := { s.ftl with ct := putKey cid r s.ftl.ct } }

/-- A CID is poisoned as a whole. -/
def CtRec.lost (r : CtRec) : Bool := bitAt 1 r.flags

/-- The quarter poison mask of a record. -/
def CtRec.mask (r : CtRec) : Nat := bitField 5 2 r.flags

/-- A match on the CID may share it: allocated, not reclaim-chosen (R199). DESIGN CHOICE: a CID marked not reclaimable after a metadata
fault (bit 7, R200) is still shared; the spec takes usable(c) away only by the choice for reclaim. -/
def CtRec.usable (r : CtRec) : Bool := bitAt 0 r.flags && !bitAt 6 r.flags

/-- A CID allocated by this head: ascending, then from the free set (R292, R177). -/
def allocateCid (s : State) : State × Nat :=
  let top := 2 ^ 47 * s.sys.slot
  if s.ddp.nextCid < 2 ^ 47 then
    ({ s with ddp := { s.ddp with nextCid := s.ddp.nextCid + 1 } }, top + s.ddp.nextCid)
  else
    match s.ddp.freeCids with
    | [] => (s, 0)
    | c :: r => ({ s with ddp := { s.ddp with freeCids := r } }, c)

/-- A count changes on its owner: it stops at 0 with a metadata fault below it (R200), and at 0xFFFF_FFFF. -/
def addRef (cid : Nat) (d : Int) (s : State) : State :=
  match s.ftl.ctRec cid with
  | none => s
  | some r =>
    let n : Int := r.refs + d
    if n < 0 then
      event 0x7001 20 (argOf [(0, 3), (2, cid % 2 ^ 48)]) (putRec cid { r with refs := 0, flags := setBit 7 r.flags } s)
    else putRec cid { r with refs := min n.toNat 0xFFFFFFFF } s

/-- A reference change of Table 5-4: applied here by the owner, else batched for the peer (R176). -/
def refChange (cid : Nat) (d : Int) (s : State) : State :=
  if cid = 0 then s
  else if s.ownsCid cid then journal (.refDelta [(cid, d)]) (addRef cid d s)
  else { s with ddp := { s.ddp with deltas := s.ddp.deltas ++ [(cid, d)] } }

/-- The PSA of a CID changes, with CT_MOVE and the moved epoch (Table 8-4, R293). -/
def moveCid (cid psa : Nat) (s : State) : State :=
  match s.ftl.ctRec cid with
  | none => s
  | some r =>
    journal (.ctMove cid r.psa psa) (putRec cid { r with psa := psa, moved := s.epoch % 2 ^ 48 } s)

/-- A RECLAIM record and its flag (R199, R309): 1 chosen, 2 dropped, 3 freed, 4 revived. -/
def reclaim (cid action : Nat) (s : State) : State :=
  match s.ftl.ctRec cid with
  | none => s
  | some r =>
    let s1 := journal (.reclaim cid action) s
    if action = 1 then putRec cid { r with flags := setBit 6 r.flags } s1
    else if action = 4 then putRec cid { r with refs := 1 } s1
    else if action = 2 then putRec cid { r with psa := 0 } s1
    else
      let s2 := { s1 with ftl := { s1.ftl with ct := delKey cid s1.ftl.ct, tails := delKey cid s1.ftl.tails } }
      { s2 with ddp := { s2.ddp with freeCids := s2.ddp.freeCids ++ [cid] } }

/-! ### Roots and maps -/

/-- A root by ID. -/
def Ftl.root (f : Ftl) (id : Nat) : Option Root := f.roots.find? (fun r => r.id == id && r.kind != .domain)

/-- The root whose namespace an NSID names. -/
def Ftl.ofNsid (f : Ftl) (nsid : Nat) : Option Root :=
  if nsid = 0 then none
  else if 2 ^ 32 ≤ nsid then f.roots.find? (fun r => r.kind == .replica && r.id == nsid - 2 ^ 32)
  else f.roots.find? (fun r => r.nsid == nsid && (r.kind == .volume || r.kind == .clone || r.kind == .replica))

/-- The record of a dedup domain. -/
def Ftl.domainRec (f : Ftl) (d : Nat) : Option Root := f.roots.find? (fun r => r.kind == .domain && r.domain == d)

/-- A root changed in place. -/
def setRoot (r : Root) (s : State) : State :=
  { s with ftl := { s.ftl with
    roots := s.ftl.roots.map (fun x => if x.id == r.id && x.kind == r.kind then r else x) } }

/-- The leaf page of a page key. -/
def Root.leaf (r : Root) (key : Nat) : LeafPage := (getKey key r.leaves).getD ⟨0, 0, []⟩

/-- The leaf entry of a grain: its CID where it is mapped (R286). -/
def Root.cidOf (r : Root) (grain : Nat) : Option Nat := getKey (grain % 504) (r.leaf (grain / 504)).entries

/-- A leaf entry as its 8 bytes (R286). -/
def leafEntry : Option Nat → Nat
  | none => 0
  | some c => c + 2 ^ 48

/-- The newest fence of a root: of its settled snapshots, and of itself for a clone (R288). A page born at or
before it is shared. -/
def Ftl.fenceOf (f : Ftl) (r : Root) : Option Nat :=
  let l := (f.roots.filter (fun x => x.kind == .snapshot && x.parent == r.id && x.state == .active)).map (·.fenceEpoch)
  (if r.kind = .clone then r.fenceEpoch :: l else l).max?

/-- The depth of a map: the smallest d with 504^d at least the grains (R285). -/
def mapDepth (grains : Nat) : Nat :=
  if grains ≤ 504 then 1 else if grains ≤ 504 ^ 2 then 2 else if grains ≤ 504 ^ 3 then 3
  else if grains ≤ 504 ^ 4 then 4 else 5

/-- A leaf page becomes the root's own: a shared page is copied with the current epoch as birth, +1 for each
mapped entry with a CID; an empty page is born now (R288, Table 5-4). -/
def ownLeaf (r : Root) (key : Nat) (s : State) : State × LeafPage :=
  match getKey key r.leaves with
  | none => (s, ⟨s.epoch, 0, []⟩)
  | some p =>
    if (s.ftl.fenceOf r).any (fun e => p.birth ≤ e) then
      (p.entries.foldl (fun t e => refChange e.2 1 t) s, { p with birth := s.epoch })
    else (s, p)

/-- One leaf entry changes: its MAP_SET record, and the −1 of the CID it named, after the new CID's +1
(R196, R197, R288). -/
def setMap (rootId grain : Nat) (new : Option Nat) (seq : Nat) (s : State) : State :=
  match s.ftl.root rootId with
  | none => s
  | some r =>
    let (s1, p) := ownLeaf r (grain / 504) s
    let old := getKey (grain % 504) p.entries
    let es := match new with
      | none => delKey (grain % 504) p.entries
      | some c => putKey (grain % 504) c p.entries
    let s2 := setRoot { r with leaves := putKey (grain / 504) { p with entries := es } r.leaves } s1
    let s3 := journal (.mapSet rootId grain (leafEntry old) (leafEntry new) seq) s2
    match old with
    | none => s3
    | some c => refChange c (-1) s3

/-- Grains of a root that are mapped (quota, R167). -/
def Root.mapped (r : Root) : Nat := sumNat (r.leaves.map (fun l => l.2.entries.length))

/-- The lineage of a root: the root it was taken of, itself otherwise. -/
def Root.line (r : Root) : Nat := if r.kind = .snapshot then r.parent else r.id

/-- Roots walked with a deleted one: the next newer of its lineage, and every clone of it (R289). -/
def Ftl.walked (f : Ftl) (r : Root) : List Root :=
  let newer := f.roots.filter (fun x => x.kind != .domain && x.id != r.id && x.line == r.line &&
    (x.kind != .snapshot || r.fenceEpoch < x.fenceEpoch))
  let next := newer.filter (fun x => newer.all (fun y =>
    x.id == y.id || (x.kind == .snapshot && (y.kind != .snapshot || x.fenceEpoch ≤ y.fenceEpoch))))
  next.take 1 ++ f.roots.filter (fun x => x.kind == .clone && x.parent == r.id)

/-- The fence of the next older root of a lineage. -/
def Ftl.olderFence (f : Ftl) (r : Root) : Option Nat :=
  ((f.roots.filter (fun x => x.kind == .snapshot && x.id != r.id && x.parent == r.line &&
    (r.kind != .snapshot || x.fenceEpoch < r.fenceEpoch))).map (·.fenceEpoch) ++
   (if r.kind = .clone then [r.fenceEpoch] else [])).max?

/-- A root is deleted: it frees the pages no other root reaches, with the −1 of each mapped entry (R289). -/
def freeMap (r : Root) (s : State) : State :=
  let older := s.ftl.olderFence r
  let others := s.ftl.walked r
  r.leaves.foldl (fun t l =>
    if older.any (fun e => l.2.birth ≤ e) || others.any (fun o => (getKey l.1 o.leaves).any (fun p => p.birth == l.2.birth))
    then t
    else l.2.entries.foldl (fun u e => refChange e.2 (-1) u) t) s

/-- A root record leaves the directory. -/
def dropRoot (id : Nat) (s : State) : State :=
  { s with ftl := { s.ftl with roots := s.ftl.roots.filter (fun x => !(x.id == id && x.kind != .domain)) } }

/-- A root enters the directory. -/
def addRoot (r : Root) (s : State) : State :=
  { s with ftl := { s.ftl with roots := s.ftl.roots ++ [r], nextRoot := max s.ftl.nextRoot (r.id + 1) } }

end Sys2Proof.Machine
end

