-- ==== Sys2Proof/Machine/Keys.lean ====
section
/-! DEFINITION. The key ladder, nonces, and the layouts of ch. 10 that Damrid emits: page headers, envelopes,
the pool superblock (R236 to R254, R365 to R382). -/

namespace Sys2Proof.Machine

/-! ### Keys (R236 to R238) -/

/-- A key label (Table 7-1). -/
def keyLabel (purpose domain gen inst : Nat) (pool : Bytes) : Bytes :=
  fields [(1, 1), (1, purpose), (2, domain % 4096), (2, gen), (2, 0), (8, inst)] ++ fitBytes 16 pool

/-- The key of a label under a derivation key (R238). -/
def keyOf (root label : Bytes) : Bytes := kmac256 root label 32 (ascii "BIRCA-KEY")

/-- The root key held, zeros before a pool. -/
def State.rootKey (s : State) : Bytes := s.trust.rootKey.getD (zeros 32)

/-- A locker. -/
def Ciph.locker (c : Ciph) (d : Nat) : Locker := (getKey d c.lockers).getD Locker.none

/-- A locker replaced. -/
def setLocker (d : Nat) (l : Locker) (s : State) : State :=
  { s with ciph := { s.ciph with lockers := putKey d l s.ciph.lockers } }

/-- A DATA key of a domain's generation (Table 7-2). -/
def State.dataKey (s : State) (d gen : Nat) : Bytes :=
  keyOf s.rootKey (keyLabel 0x01 d gen (s.ciph.locker d).inst s.trust.rootPool)

/-- The FINGERPRINT key of a domain, adopted or derived (Table 7-2, R456). -/
def State.fpKey (s : State) (d : Nat) : Bytes :=
  match (s.ciph.locker d).fpKey with
  | some k => k
  | none => keyOf s.rootKey (keyLabel 0x02 d 0 (s.ciph.locker d).inst s.trust.rootPool)

/-- A system key: VAULT of a head, METADATA, WRAP (Table 7-2). -/
def State.systemKey (s : State) (purpose domain : Nat) : Bytes :=
  keyOf s.rootKey (keyLabel purpose domain 0
    (if purpose = 0x12 then s.ciph.wrapInstance else Config.systemInstance purpose domain s.rootKey s.trust.rootPool) s.trust.rootPool)

/-- The handle of a locker (R247). -/
def lockerHandle (d : Nat) (l : Locker) : Nat := 0x01000000 + d * 4096 + l.check % 4096

/-- The handle of a system register. -/
def systemHandle (reg : Nat) : Nat := 0x03000000 + reg * 4096

/-- The handle of a session register. -/
def sessionHandle (session : Nat) : Nat := 0x02000000 + session * 4096

/-! ### Nonces (R251 to R254) -/

/-- The counter of a key, generation and writer lane. -/
def Ciph.counter (c : Ciph) (handle gen lane : Nat) : NonceCtr :=
  (c.counters.find? (fun x => x.handle == handle && x.gen == gen && x.lane == lane)).getD
    ⟨handle, gen, lane, 0, 0, none⟩

/-- A counter replaced. -/
def setCounter (n : NonceCtr) (s : State) : State :=
  { s with ciph := { s.ciph with
      counters :=
        s.ciph.counters.filter (fun x => !(x.handle == n.handle && x.gen == n.gen && x.lane == n.lane)) ++ [n] } }

/-- A nonce: writer ID and counter, most significant byte first (Table 7-6). -/
def nonceOf (chip lane value : Nat) : Bytes := beBytes 2 (chip * 32 + lane) ++ beBytes 10 value

/-- A segmented-message key: every one but DATA and METADATA (R253). -/
def longKey (handle : Nat) : Bool := handle / 2 ^ 24 != 1 && handle != systemHandle 2

/-- How close to its ceiling a counter asks for a new one, and how much higher it is (R253). -/
def ceilingStep (handle : Nat) : Nat × Nat := if longKey handle then (2 ^ 33, 2 ^ 34) else (2 ^ 23, 2 ^ 24)

/-- A new ceiling is written to the journal when a counter comes close to it (R253). -/
def raiseCeiling (n : NonceCtr) (s : State) : State :=
  let (near, step) := ceilingStep n.handle
  let top := n.next.getD n.ceiling
  if top < n.value + near then
    afterDurable s.epoch (.ceiling n.handle n.lane (top + step))
      (journal (.counter n.handle n.lane 1 (top + step)) (setCounter { n with next := some (top + step) } s))
  else setCounter n s

/-- The next nonce of a key and lane, `by_` counts on: none while the counter would pass its durable ceiling,
which is then asked for (R252, R253, R258). -/
def takeNonce (handle gen lane by_ : Nat) (s : State) : State × Option Bytes :=
  let n := s.ciph.counter handle gen lane
  if n.ceiling < by_ + n.value then (raiseCeiling n s, none)
  else (raiseCeiling { n with value := by_ + n.value } s, some (nonceOf s.sys.chip lane n.value))

/-! ### Pages and envelopes -/

/-- A structure with the CRC32C of its other bytes at an offset, that field taken as zero. -/
def withCheck (off : Nat) (b : Bytes) : Bytes :=
  let z := b.take off ++ zeros 4 ++ b.drop (off + 4)
  b.take off ++ leBytes 4 (crc32c z) ++ b.drop (off + 4)

/-- A page header (Table 10-1). -/
def pageHeader (kind page position owner strip written layout epoch parityPos : Nat) : Bytes :=
  let h := ascii "BRPG" ++ fields [(1, 1), (1, kind), (1, page), (1, position), (8, owner), (2, strip), (1, written),
    (1, layout), (6, epoch), (2, parityPos)]
  h ++ leBytes 4 (crc32c h)

/-- The check of a page header. -/
def headerOk (h : Bytes) : Bool := slice h 0 4 == ascii "BRPG" && fieldAt h 0x1C 4 == crc32c (slice h 0 0x1C)

/-- An envelope (Table 10-3). -/
def envelope (kind part tier flags domain gen name epoch : Nat) (nonce tag : Bytes) : Bytes :=
  let e := fields [(1, kind), (1, part), (1, tier), (1, flags), (2, domain), (2, gen), (8, name), (8, epoch)] ++
    fitBytes 12 nonce ++ fitBytes 16 tag
  e ++ leBytes 4 (crc32c e)

/-- An envelope with another part number (R369). -/
def envelopePart (e : Bytes) (part : Nat) : Bytes :=
  let b := e.take 1 ++ leBytes 1 part ++ slice e 2 0x32
  b ++ leBytes 4 (crc32c b)

/-- The check of an envelope. -/
def envelopeOk (e : Bytes) : Bool := fieldAt e 0x34 4 == crc32c (slice e 0 0x34)

/-- The additional data of a slot, built from its part-0 envelope (R370, Table 7-5). -/
def slotAad (e : Bytes) : Bytes :=
  fields [(1, 1), (1, fieldAt e 2 1), (2, fieldAt e 4 2), (2, fieldAt e 6 2), (6, fieldAt e 8 6), (8, fieldAt e 0x10 8),
    (1, fieldAt e 3 1 % 4), (11, 0)]

/-- The envelopes of a slot agree: checks, parts in order, nothing else differing (R370). -/
def envelopesOk (l : List Bytes) : Bool :=
  match l with
  | [] => false
  | e :: _ =>
    l.all envelopeOk && (List.range l.length).all (fun i =>
      let x := l.getD i []
      fieldAt x 1 1 == i && x.take 1 == e.take 1 && slice x 2 0x32 == slice e 2 0x32)

/-- A slot's envelope agrees with the pointer followed: CID and stamp (R281). -/
def pointerOk (e : Bytes) (cid psa : Nat) : Bool :=
  fieldAt e 8 6 == cid && fieldAt e 0x10 8 % 2 ^ 18 == psaStamp psa

/-! ### The pool superblock (Table 10-10) -/

/-- A block address (R343). -/
def blkAddress (b : Nat) : Bytes := fields [(1, blkBay b), (1, 0), (2, blkDie b), (2, blkNo b), (2, 0)]

/-- The code of a member state (Table 9-10). -/
def memberCode : MemberState → Nat
  | .none => 0
  | .inService => 1
  | .detention => 2
  | .missing => 3
  | .failed => 4

/-- A member record (Table 10-14). -/
def Member.bytes (m : Member) : Bytes :=
  fields [(1, 1 + 2 * flagBit (m.state == .inService)), (1, m.domain), (1, memberCode m.state), (1, m.dieType),
    (2, m.dies), (2, m.weight)] ++ fitBytes 16 m.serial ++ leBytes 8 m.joined

/-- A head slot record (Table 10-11). -/
def HeadSlot.bytes (h : HeadSlot) : Bytes :=
  fields [(2, h.chip), (1, flagBit h.bound), (5, 0)] ++ fitBytes 32 h.digest ++ fields [(8, h.when_), (16, 0)]

/-- A timetable copy record (Table 10-12). -/
def TtCopy.bytes (c : TtCopy) : Bytes :=
  fields [(4, c.term), (4, c.length), (8, c.day)] ++ fitBytes 24 (c.copies.flatMap blkAddress) ++ zeros 24

/-- A vault region record (Table 10-13). -/
def VaultHalf.bytes (v : VaultHalf) : Bytes :=
  fields [(1, v.head), (1, v.half), (6, 0), (8, v.retired), (8, v.first), (4, v.groups), (36, 0)]

/-- A superblock copy: kind of write 1 configuration, 2 anchor (Table 10-10). -/
def superblockBytes (p : Pool) (ms : List Member) (writer kind : Nat) (metaKey : Bytes) : Bytes :=
  let b := ascii "BRCPOOLS" ++ fields [(2, 1), (1, writer), (1, kind), (4, 0)] ++ fitBytes 16 p.id ++
    fields [(8, p.generation), (8, p.written), (8, p.origin), (1, p.kind), (1, p.stagingGib), (1, p.q), (1, p.n),
      (1, p.deltaBits), (1, p.layout), (2, p.tailMib), (2, p.reserve), (1, ms.length), (1, 0), (4, p.term),
      (8, p.ckptDir), (8, p.ckptEpoch), (8, p.groupPage), (4, p.groupCount), (28, 0)] ++
    fitBytes 128 (p.heads.flatMap HeadSlot.bytes) ++ p.active.bytes ++ p.armed.bytes ++
    fitBytes 256 (p.halves.flatMap VaultHalf.bytes) ++
    (List.range 64).flatMap (fun bay => ((ms.find? (fun m => m.bay == bay)).map Member.bytes).getD (zeros 32)) ++
    zeros 13632
  let c := withCheck 0x0C (b.take 0x3FC0)
  c ++ kmac256 metaKey c 64 (ascii "BIRCA-SB")

/-- A superblock copy whose check passes (R382). -/
def superblockOk (b : Bytes) : Bool :=
  slice b 0 8 == ascii "BRCPOOLS" && fieldAt b 8 2 == 1 &&
  fieldAt b 0x0C 4 == crc32c (b.take 0x0C ++ zeros 4 ++ slice b 0x10 0x3FB0)

/-- A superblock copy whose MAC verifies under the METADATA key (R382). -/
def superblockMacOk (b metaKey : Bytes) : Bool := slice b 0x3FC0 64 == kmac256 metaKey (b.take 0x3FC0) 64 (ascii "BIRCA-SB")

end Sys2Proof.Machine
end

