-- ==== Sys2Proof/Machine/LoadChecks.lean ====
section
/-! DEFINITION. The load checks of Table 2-12 but for those of the LAYOUT section (R69 to R71, R638). -/

namespace Sys2Proof.Machine

/-- A member as the load checks see it: bay, dies, and bay width code 0 ×2, 1 ×4, 2 ×8. -/
structure MemberView where
  bay   : Nat
  dies  : Nat
  width : Nat
  deriving DecidableEq, Repr

/-- What a head checks an image against. -/
structure LoadEnv where
  head    : Nat
  poolId  : Bytes
  term    : Nat
  members : List MemberView
  /-- the lowest rate its channels in service are trained at [MT/s] -/
  rate    : Nat
  /-- tRFC of its DIMMs [ps] -/
  trfc    : Nat

/-- A violation: its status and its refusal detail. -/
abbrev Violation := Option (Status × Bytes)

/-- A refusal detail (Table 2-13); a field that does not apply is 0xFF in every byte. -/
def ttDetail (head : Nat) (sheet sect res period excess : Option Nat) : Bytes :=
  fields [(2, sheet.getD 0xFFFF), (2, sect.getD 0xFFFF), (4, res.getD 0xFFFFFFFF), (2, period.getD 0xFFFF),
    (1, head), (1, 0), (4, excess.getD 0xFFFFFFFF)]

/-- A violation when a condition fails, without place. -/
def failUnless (ok : Bool) (st : Status) (head : Nat) : Violation :=
  if ok then none else some (st, ttDetail head none none none none none)

/-- The first violation over a range of numbers. -/
def firstOver (n : Nat) (f : Nat → Violation) : Violation := (List.range n).findSome? f

/-- The first violation over the sheets, ascending. -/
def overSheets (i : TtImage) (f : TtSheet → Violation) : Violation := i.sheets.findSome? f

/-! ### TT_FORMAT -/

/-- The length a section of a type must have, where Table 2-5 gives one. -/
def sectionLength (i : TtImage) (kind : Nat) : Option Nat :=
  if kind = 1 then some (i.sheetCount * 48) else if kind = 2 then some (i.formCount * 8)
  else if kind = 3 then some (i.formCount * 512) else if kind = 4 then some 40960
  else if kind = 5 then some 1048576 else if kind = 6 then some 2129920
  else if kind = 7 then some (i.serviceCount * 8) else if kind = 8 then some (i.dieTypeCount * 32)
  else if kind = 0xFF then some 4800 else none

/-- Section bounds, alignment and lengths, and no overlap. -/
def sectionsOk (i : TtImage) : Bool :=
  let l := i.sects
  l.all (fun x => x.off % 64 == 0 && 0x100 + 16 * i.sectionCount ≤ x.off && x.off + x.len ≤ i.bytes.length &&
    (match sectionLength i x.kind with | some n => x.len == n | none => true)) &&
  (List.range l.length).all (fun a => (List.range l.length).all (fun b =>
    a == b || (i.sect a).off + (i.sect a).len ≤ (i.sect b).off || (i.sect b).off + (i.sect b).len ≤ (i.sect a).off))

/-- Exactly one section of each single type, and SIGNATURE last. -/
def singlesOk (i : TtImage) : Bool :=
  [1, 2, 8, 9, 0xFF].all (fun k => (i.sects.filter (fun x => x.kind == k)).length == 1) &&
  (i.sects.getLast?.map (·.kind)) == some 0xFF &&
  i.sects.all (fun x => x.kind == 0xFF || x.off + x.len ≤ i.base 0xFF)

/-- The head and index fields of a sheet as Table 2-7 gives for its kind. -/
def sheetFieldsOk (x : TtSheet) : Bool :=
  if x.kind = 0 then x.head == 0xFF && x.index == 0
  else if x.kind = 1 ∨ x.kind = 5 ∨ x.kind = 6 then x.head ≤ 1 && x.index == 0
  else if x.kind = 2 then x.head ≤ 1 && x.index ≤ 19
  else if x.kind = 3 then x.head ≤ 1 && x.index ≤ 15
  else if x.kind = 4 then x.head ≤ 1 && x.index ≤ 3
  else true

/-- The section entry numbers of a sheet name sections of the types their fields require. -/
def sheetSectionsOk (i : TtImage) (x : TtSheet) : Bool :=
  let is := fun e k => e < i.sectionCount && (i.sect e).kind == k
  is x.classGrid 3 && is x.laneGrid 4 && is x.windows 5 && is x.shares 6 && is x.admission 7

/-- The place of a sheet in the order of R59: kind, head, index. The primary's head field, 0xFF, stands alone in its kind. -/
def sheetKey (x : TtSheet) : Nat := 2 ^ 24 * x.kind + 2 ^ 16 * x.head + x.index

/-- The first sheet record outside its stated ranges and equalities: its fields, its sections, its place in the order of R59,
sheet 0 the primary, and the zero mask of the head that a Bring-up or Vault sheet does not govern. Table 2-12 names no status for
an image that breaks what R59 says of the order and of that mask. DEDUCED: TT_FORMAT. -/
def badSheet (i : TtImage) : Option Nat :=
  (List.range i.sheetCount).find? (fun n =>
    let x := i.sheet n
    !(x.number == n && sheetFieldsOk x && sheetSectionsOk i x && (n == 0 || sheetKey (i.sheet (n - 1)) ≤ sheetKey x) &&
      (n != 0 || x.kind == 0) && ((x.kind != 5 && x.kind != 6) || x.mask (1 - x.head) == 0)))

/-- The first form descriptor outside its stated ranges. -/
def badFormRec (i : TtImage) : Option Nat :=
  (List.range i.formCount).find? (fun n =>
    let f := i.form n
    !(f.bay ≤ 63 && f.group ≤ 127 && f.die < i.dieTypeCount && f.owner ≤ 1))

/-- The first die type record outside its stated ranges. -/
def badDieType (i : TtImage) : Option Nat :=
  (List.range i.dieTypeCount).find? (fun n =>
    let d := i.dieType n
    !(d.number == n && 1 ≤ d.smax && d.smax ≤ 15))

/-- The header and the section table are as Tables 2-3 to 2-5 give. -/
def imageHeaderOk (i : TtImage) : Bool :=
  256 ≤ i.bytes.length && slice i.bytes 0 8 == ascii "BRCTTIMG" && i.u 8 2 == 1 && i.u 0xA 2 == 0x100 &&
  i.u 0x10 4 == i.bytes.length && 0x100 + 16 * i.sectionCount ≤ i.bytes.length &&
  1 ≤ i.formCount && i.formCount ≤ 8192 && 1 ≤ i.dieTypeCount && i.dieTypeCount ≤ 32 &&
  1 ≤ i.serviceCount && i.serviceCount ≤ 64 && sectionsOk i && singlesOk i

/-- TT_FORMAT without the LAYOUT section's part. The detail names the section, and the sheet, form or die type, in which the
fault lies; the header and the section table lie in none (R70). -/
def checkFormat (i : TtImage) (head : Nat) : Violation :=
  if !imageHeaderOk i then some (.ttFormat, ttDetail head none none none none none)
  else
    (((badSheet i).map (fun n => (Status.ttFormat, ttDetail head (some n) (some 1) none none none))).or
      ((badFormRec i).map (fun n => (Status.ttFormat, ttDetail head none (some 2) (some n) none none)))).or
    ((badDieType i).map (fun n => (Status.ttFormat, ttDetail head none (some 8) (some n) none none)))

/-! ### TT_SIGNATURE, TT_RESERVED, TT_STEPPING, TT_POOL, TT_TERM_STALE -/

/-- TT_SIGNATURE: both signatures verify under an enrolled, unrevoked OEM key (R67, R507). -/
def ttSigned (i : TtImage) (t : Trust) : Bool :=
  (t.checkOem (i.bytes.take (i.base 0xFF)) "BIRCA-TT" (slice i.bytes (i.base 0xFF) 4800)).isNone

/-- Reserved fields of the header, the section table, sheets, forms, die types and admission records, each named by the section,
sheet, form or die type in which it lies (R70). -/
def plainReserved (i : TtImage) (head : Nat) : Violation :=
  let bad := fun sheet sect res => some (Status.ttReserved, ttDetail head sheet sect res none none)
  (((if i.u 0x1C 2 ≤ 1 && i.u 0x1F 1 == 0 && allZero (slice i.bytes 0x68 152) then none else bad none none none).or
    (i.sects.findSome? (fun x => if x.rsv1 == 0 && x.rsv2 == 0 && ((1 ≤ x.kind && x.kind ≤ 9) || x.kind == 0xFF) then none
      else bad none (some x.kind) none))).or
   ((i.sheets.findSome? (fun x => if x.kind ≤ 6 && x.rsv1 == 0 && x.rsv2 == 0 then none else bad (some x.number) (some 1) none)).or
    (firstOver i.formCount (fun n => if (i.form n).role < 32 && (i.form n).rsv == 0 then none else bad none (some 2) (some n))))).or
  ((firstOver i.dieTypeCount (fun n =>
      if (i.dieType n).rsv1 == 0 && (i.dieType n).rsv2 == 0 then none else bad none (some 8) (some n))).or
   ((i.sects.filter (fun x => x.kind == 7)).findSome? (fun x => firstOver i.serviceCount (fun n =>
      if i.u (x.off + 8 * n + 1) 1 == 0 && i.u (x.off + 8 * n + 6) 2 == 0 then none else bad none (some 7) none))))

/-- Reserved period classes, stream classes, DRAM ports and traffic classes, sheet by sheet. -/
def gridReserved (i : TtImage) (head : Nat) (x : TtSheet) : Violation :=
  let bad := fun sect res p => some (Status.ttReserved, ttDetail head (some x.number) (some sect) (some res) (some p) none)
  ((firstOver i.formCount (fun f => firstOver 1024 (fun p =>
      if 5 < i.classOf x f p then bad 3 f p else none))).or
    (firstOver 2 (fun h => firstOver 20 (fun g => firstOver 1024 (fun p =>
      if 0x0B < i.laneClass x h g p then bad 4 g p else none))))).or
    ((firstOver 2 (fun h => firstOver 16 (fun c => firstOver 1024 (fun p =>
      if i.bursts x h c p 14 ≠ 0 ∨ i.bursts x h c p 15 ≠ 0 then bad 5 c p else none)))).or
    (firstOver 2 (fun h => firstOver 65 (fun l => firstOver 1024 (fun p =>
      if i.share x h l p 6 ≠ 0 ∨ i.share x h l p 7 ≠ 0 then bad 6 l p else none)))))

/-- TT_TERM_STALE: R44, and the predecessor is 0 or the term in force. -/
def termOk (i : TtImage) (term : Nat) : Bool :=
  i.term != 0xFFFFFFFF && term < i.term && (i.u 0x60 4 == 0 || i.u 0x60 4 == term)

/-! ### TT_MEMBERS, TT_SHEET_MISSING (R638) -/

/-- The first form that names an absent module, a group beyond its dies, or dies already covered. -/
def badForm (i : TtImage) (ms : List MemberView) : Option Nat :=
  (List.range i.formCount).find? (fun f =>
    let fm := i.form f
    match ms.find? (fun m => m.bay == fm.bay) with
    | none => true
    | some m => m.dies < 16 * fm.group + 16 ||
        (List.range f).any (fun e => (i.form e).bay == fm.bay && (i.form e).group == fm.group))

/-- The lowest bay and die of a member that no form covers. -/
def uncovered (i : TtImage) (ms : List MemberView) : Option (Nat × Nat) :=
  ms.findSome? (fun m => ((List.range m.dies).find? (fun d => (i.formOf m.bay d).isNone)).map (fun d => (m.bay, d)))

/-- TT_MEMBERS. -/
def checkMembers (i : TtImage) (e : LoadEnv) : Violation :=
  match badForm i e.members with
  | some f => some (.ttMembers, ttDetail e.head none (some 2) (some f) none none)
  | none => (uncovered i e.members).map (fun bd =>
      (.ttMembers, ttDetail e.head none (some 2) (some (0x80000000 + bd.1 * 65536 + bd.2)) none none))

/-- The 87 required sheets in ascending kind, head, index (R80). -/
def requiredSheets : List (Nat × Nat × Nat) :=
  [(0, 0xFF, 0), (1, 0, 0), (1, 1, 0)] ++
  [2, 3, 4].flatMap (fun k => [0, 1].flatMap (fun h =>
    (List.range (if k = 2 then 20 else if k = 3 then 16 else 4)).map (fun n => (k, h, n)))) ++
  [(5, 0, 0), (5, 1, 0), (6, 0, 0), (6, 1, 0)]

/-- TT_SHEET_MISSING. -/
def checkSheets (i : TtImage) (head : Nat) : Violation :=
  requiredSheets.findSome? (fun q =>
    let l := i.sheets.filter (fun x => x.kind == q.1 && x.head == q.2.1 && x.index == q.2.2)
    let res := some (q.1 + q.2.1 * 256 + q.2.2 * 65536)
    match l with
    | [] => some (.ttSheetMissing, ttDetail head none (some 1) res none none)
    | [_] => none
    | _ :: x :: _ => some (.ttSheetMissing, ttDetail head (some x.number) (some 1) res none none))

/-! ### TT_ROLE_SCOPE, TT_READ_GAP -/

/-- A lane group is used by a head when it owns a stream class in some period. -/
def groupUsed (i : TtImage) (x : TtSheet) (h g : Nat) : Bool :=
  (List.range 1024).any (fun p => i.laneClass x h g p != 0)

/-- A channel is used by a head when it reserves bursts for some port. -/
def channelUsed (i : TtImage) (x : TtSheet) (h c : Nat) : Bool :=
  (List.range 1024).any (fun p => (List.range 16).any (fun q => i.bursts x h c p q != 0))

/-- TT_ROLE_SCOPE: a Bring-up sheet uses at most 8 channels and one lane group of each engine kind. -/
def checkRoleScope (i : TtImage) (head : Nat) : Violation :=
  overSheets i (fun x =>
    if x.kind ≠ 5 then none
    else
      let chs := (List.range 16).filter (channelUsed i x x.head)
      let excess := [EngineKind.enc, .dec, .cip, .dig, .par].findSome? (fun k =>
        ((List.range 20).filter (fun g => groupKind g == k && groupUsed i x x.head g))[1]?)
      if 8 < chs.length then
        some (.ttRoleScope, ttDetail head (some x.number) (some 5) (chs[8]?) none none)
      else excess.map (fun g => (.ttRoleScope, ttDetail head (some x.number) (some 4) (some g) none none)))

/-- A role that forbids Idle periods: bits [2:0] or [4]. -/
def readRole (r : Nat) : Bool := r % 8 != 0 || bitAt 4 r

/-- TT_READ_GAP. -/
def checkReadGap (i : TtImage) (head : Nat) : Violation :=
  overSheets i (fun x =>
    if x.kind = 6 then none
    else firstOver i.formCount (fun f =>
      if readRole (i.form f).role then
        firstOver 1024 (fun p => if i.classOf x f p = 0 then
          some (.ttReadGap, ttDetail head (some x.number) (some 3) (some f) (some p) none) else none)
      else none))

/-! ### TT_OVERSUBSCRIBED -/

/-- Bytes a bay carries in a period, by width code. -/
def bayBytes (w : Nat) : Nat := if w = 0 then 240000 else if w = 1 then 480000 else 960000

/-- Bytes of the 16 program buffers of a Lesson-Program bell (R401). -/
def bellBytes : Nat := 16 * 66560

/-- The number of forms that head h owns on a bay under a sheet with a Lesson-Program bell in period p. -/
def programBells (i : TtImage) (x : TtSheet) (h bay p : Nat) : Nat :=
  ((List.range i.formCount).filter (fun f =>
    (i.form f).bay == bay && ownerUnder x (i.form f) == h && i.classOf x f p == 2)).length

/-- Excess of the link shares of a period over 1,024. R69 orders resources and not the two heads' slices of one sheet: head 0's
resources come first, then head 1's, here and in TT_DRAM_WINDOW, TT_DOMAIN and the reserved grid fields. DESIGN CHOICE (log 67). -/
def checkShares (i : TtImage) (head : Nat) (x : TtSheet) : Violation :=
  firstOver 2 (fun h => firstOver 65 (fun l => firstOver 1024 (fun p =>
    let t := sumNat ((List.range 8).map (fun k => i.share x h l p k))
    if 1024 < t then some (.ttOversubscribed, ttDetail head (some x.number) (some 6) (some l) (some p) (some (t - 1024)))
    else none)))

/-- For every pair of Lesson-Program bells p to p + n, cyclically, the buffers fit in the class-1 share of the
periods from 8 before p to the period before p + n. The shares of the periods are summed before they are turned into bytes, and
the sum is rounded down once; the spec says nothing of the rounding. DESIGN CHOICE (log 67). -/
def checkProgramData (i : TtImage) (head : Nat) (x : TtSheet) (m : MemberView) (h : Nat) : Violation :=
  firstOver 1024 (fun p =>
    if programBells i x h m.bay p = 0 then none
    else firstOver 1024 (fun n =>
      if programBells i x h m.bay ((p + n) % 1024) = 0 then none
      else
        let need := sumNat ((List.range (n + 1)).map (fun d => programBells i x h m.bay ((p + d) % 1024))) * bellBytes
        let room := sumNat ((List.range (n + 8)).map (fun d =>
          i.share x h (m.bay + 1) ((p + 1024 - 8 + d) % 1024) 1)) * bayBytes m.width / 1024
        if room < need then
          some (.ttOversubscribed, ttDetail head (some x.number) (some 6) (some (m.bay + 1)) (some p) (some (need - room)))
        else none))

/-- Program buffers a head holds on a bay in a period: 16 from 8 periods before each bell to the end of the
worst-case programme, for each day's bell whose span covers the period. -/
def buffersHeld (i : TtImage) (x : TtSheet) (h bay p : Nat) : Nat :=
  sumNat ((List.range i.formCount).map (fun f =>
    let fm := i.form f
    if fm.bay = bay ∧ ownerUnder x fm = h then
      let w := 8 + ceilDiv (i.dieType fm.die).programTime 16000
      16 * sumNat ((List.range 1024).map (fun b =>
        if i.classOf x f b == 2 then ceilDiv (w - (p + 1024 + 8 - b) % 1024) 1024 else 0))
    else 0))

/-- TT_OVERSUBSCRIBED. -/
def checkOversubscribed (i : TtImage) (e : LoadEnv) : Violation :=
  overSheets i (fun x => (checkShares i e.head x).or
    ((firstOver 2 (fun h => e.members.findSome? (fun m => checkProgramData i e.head x m h))).or
     (firstOver 2 (fun h => e.members.findSome? (fun m => firstOver 1024 (fun p =>
        let n := buffersHeld i x h m.bay p
        if 1024 < n then
          some (.ttOversubscribed, ttDetail e.head (some x.number) (some 3) (some (m.bay + 1)) (some p) (some (n - 1024)))
        else none))))))

/-! ### TT_DIE_FIT -/

/-- Periods from a Lesson-Program or Lesson-Erase bell to the form's next such bell, cyclically. -/
def nextBell (i : TtImage) (x : TtSheet) (f p : Nat) : Nat :=
  (((List.range 1024).map (· + 1)).find? (fun n =>
    let c := i.classOf x f ((p + n) % 1024)
    c == 2 || c == 3)).getD 1024

/-- TT_DIE_FIT. -/
def checkDieFit (i : TtImage) (head : Nat) : Violation :=
  ((List.range i.dieTypeCount).findSome? (fun d =>
    if 16000 < (i.dieType d).tSusp then
      some (Status.ttDieFit, ttDetail head none (some 8) (some d) none (some ((i.dieType d).tSusp - 16000)))
    else none)).or
  (overSheets i (fun x => firstOver i.formCount (fun f => firstOver 1024 (fun p =>
    let c := i.classOf x f p
    let d := i.dieType (i.form f).die
    if c = 2 ∨ c = 3 then
      let t := if c = 2 then d.programTime else d.eraseTime
      let room := nextBell i x f p * 16000
      if room < t then
        some (.ttDieFit, ttDetail head (some x.number) (some 3) (some f) (some p) (some (t - room)))
      else none
    else none))))

/-! ### TT_DRAM_RATE, TT_DRAM_WINDOW, TT_REFRESH_ROOM -/

/-- TT_DRAM_RATE. -/
def checkDramRate (i : TtImage) (e : LoadEnv) : Violation :=
  overSheets i (fun x => if e.rate < x.rate then
    some (.ttDramRate, ttDetail e.head (some x.number) (some 1) none none (some (x.rate - e.rate))) else none)

/-- Bursts a channel may reserve in a period at a rate: 85 % (Table 2-12). -/
def burstLimit (rate : Nat) : Nat :=
  if rate = 8800 then 14960 else if rate = 6400 then 10880 else if rate = 4800 then 8160 else rate * 17 / 10

/-- Bursts reserved on a channel in a period, all ports. -/
def reserved (i : TtImage) (x : TtSheet) (h c p : Nat) : Nat :=
  sumNat ((List.range 16).map (fun q => i.bursts x h c p q))

/-- TT_DRAM_WINDOW; head 0's channels, then head 1's. DESIGN CHOICE (log 67). -/
def checkDramWindow (i : TtImage) (head : Nat) : Violation :=
  overSheets i (fun x => firstOver 2 (fun h => firstOver 16 (fun c => firstOver 1024 (fun p =>
    let n := reserved i x h c p
    if burstLimit x.rate < n then
      some (.ttDramWindow, ttDetail head (some x.number) (some 5) (some c) (some p) (some (n - burstLimit x.rate)))
    else none))))

/-- TT_REFRESH_ROOM: 16 µs less the bursts' transfer time leaves 5 tRFC; a burst takes 8,000 ÷ rate ns. -/
def checkRefreshRoom (i : TtImage) (e : LoadEnv) : Violation :=
  overSheets i (fun x => firstOver 16 (fun c => firstOver 1024 (fun p =>
    let need := reserved i x e.head c p * 8000000 + 5 * e.trfc * x.rate
    if 16000000 * x.rate < need then
      some (.ttRefreshRoom, ttDetail e.head (some x.number) (some 5) (some c) (some p)
        (some (ceilDiv (need - 16000000 * x.rate) (1000 * x.rate))))
    else none)))

/-! ### TT_DOMAIN, TT_BOUND -/

/-- A bay is used by a head when a form it owns there has a class other than Idle, or its link has a share. -/
def bayUsed (i : TtImage) (x : TtSheet) (h b : Nat) : Bool :=
  (List.range i.formCount).any (fun f => (i.form f).bay == b && ownerUnder x (i.form f) == h &&
    (List.range 1024).any (fun p => i.classOf x f p != 0)) ||
  (List.range 1024).any (fun p => (List.range 8).any (fun k => i.share x h (b + 1) p k != 0))

/-- A host port island is used when its DRAM port reserves bursts on some channel in some period. -/
def portUsed (i : TtImage) (x : TtSheet) (h q : Nat) : Bool :=
  (List.range 16).any (fun c => (List.range 1024).any (fun p => i.bursts x h c p q != 0))

/-- The SerDes domain that holds a bay's lanes, and the BLP controller domain of its group (Table 18-2). -/
def bayDomains (b : Nat) : List Nat := [64 + 3 * (b / 16) + b % 16 / 8, 66 + 3 * (b / 16)]

/-- TT_DOMAIN: what a sheet uses has its domains set in the sheet's mask. A Bring-up or Vault sheet uses the slice of its own head
alone (R59). -/
def checkDomain (i : TtImage) (head : Nat) : Violation :=
  overSheets i (fun x => firstOver 2 (fun h =>
    if (x.kind = 5 ∨ x.kind = 6) ∧ h ≠ x.head then none else
    let m := x.mask h
    let bad := fun sect res => some (Status.ttDomain, ttDetail head (some x.number) (some sect) (some res) none none)
    ((firstOver 20 (fun g => if groupUsed i x h g ∧ !bitAt (groupDomain g) m then bad 4 g else none)).or
     (firstOver 16 (fun c => if channelUsed i x h c ∧ !bitAt (78 + c) m then bad 5 c else none))).or
    ((firstOver 64 (fun b => if bayUsed i x h b ∧ (bayDomains b).any (fun d => !bitAt d m) then bad 6 (b + 1) else none)).or
     (firstOver 4 (fun q => if portUsed i x h q ∧ (!bitAt (19 + 2 * q) m || !bitAt (20 + 2 * q) m) then bad 5 q else none)))))

/-- The read bound formula: 26 µs + 32 µs + 2 × tR_max + t_xfer at its largest over the die types of forms
that hold data (R71). -/
def readBoundFormula (i : TtImage) : Nat :=
  (i.forms.filter (fun f => bitAt 0 f.role)).foldl (fun b f =>
    max b (58000 + 2 * (i.dieType f.die).tR + (i.dieType f.die).tXfer)) 0

/-- TT_BOUND; the excess is over 190,000 ns where the formula holds. -/
def checkBound (i : TtImage) (head : Nat) : Violation :=
  if i.readBound ≠ readBoundFormula i then some (.ttBound, ttDetail head none none none none none)
  else if i.extended || i.readBound ≤ 190000 then none
  else some (.ttBound, ttDetail head none none none none (some (i.readBound - 190000)))

/-! ### Service class shares (R66) -/

/-- The ADMISSION record of a service class in a sheet: its host-read and write shares in 1/1,024; none where the section has no
record of the class. -/
def TtImage.serviceShare (i : TtImage) (x : TtSheet) (service : Nat) : Option (Nat × Nat) :=
  let a := fun n => (i.sect x.admission).off + 8 * n
  ((List.range i.serviceCount).find? (fun n => i.u (a n) 1 == service)).map (fun n => (i.u (a n + 2) 2, i.u (a n + 4) 2))

end Sys2Proof.Machine
end

