-- ==== Sys2Proof/Machine/Media.lean ====
section
/-! DEFINITION. Die operations: queueing, posting at bells, deadlines, the program buffers; superblock writes
(R47 to R51, R354, R380, R381, R394 to R401). -/

namespace Sys2Proof.Machine

/-- A bay's present state. -/
def Bays.bayOf (b : Bays) (n : Nat) : Bay := (getKey n b.bays).getD Bay.rest

/-- A bay replaced. -/
def setBay (n : Nat) (x : Bay) (s : State) : State := { s with bay := { s.bay with bays := putKey n x s.bay.bays } }

/-- A bay's link carries operations. -/
def Bay.linkUp (b : Bay) : Bool := b.state == .up || b.state == .degraded

/-- A member record. -/
def Ec.member (e : Ec) (bay : Nat) : Option Member := e.members.find? (fun m => m.bay == bay)

/-- A member replaced. -/
def setMember (m : Member) (s : State) : State :=
  { s with ec := { s.ec with members := s.ec.members.map (fun x => if x.bay == m.bay then m else x) } }

/-- Whether a member is In service. -/
def Ec.serving (e : Ec) (bay : Nat) : Bool := (e.member bay).any (fun m => m.state == .inService)

/-- An operation waits for its bell, unless the head posts nothing at all (R483). -/
def queueOp (op : DieOp) (s : State) : State :=
  if s.corr.roll = .selfFenced then s
  else { s with bay := { s.bay with
    waiting := s.bay.waiting ++ [{ op with tag := s.bay.nextTag }], nextTag := s.bay.nextTag + 1 } }

/-- An operation on a block: opcode, block, page or strip, quarters, what posting needs, use, data. -/
def blkOp (opcode blk page quarters cls : Nat) (use : OpUse) (data : Bytes) : DieOp :=
  ⟨0, opcode, blkBay blk, blkDie blk, blkNo blk, page, quarters, 0, 0, 0, [], cls, use, data, none, 0, false, 0, 0⟩

/-- A module-level operation: opcode, bay, selector or operand, use. -/
def bayOp (opcode bay selector fence : Nat) (operand : List Nat) (cls : Nat) (use : OpUse) : DieOp :=
  ⟨0, opcode, bay, 0, 0, 0, 0, selector, 0, fence, operand, cls, use, [], none, 0, false, 0, 0⟩

/-- A READ of quarters of a page with the block's offsets (R319, R402). -/
def readOp (blk page quarters cls : Nat) (use : OpUse) (s : State) : State :=
  queueOp { blkOp 1 blk page quarters cls use [] with operand := (s.ftl.ledger blk).offsets } s

/-! ### Posting -/

/-- A period class admits what an operation needs (Table 2-2, R49, R50). Work on a superblock ring or a timetable copy
(need 0) takes the class of its kind: a read that of a foreground read, a programme Lesson-Program or Vault, an erase
Lesson-Erase or Vault; Table 2-2 names metadata without the ring (DEDUCED). Module-level operations and STATUS start in any. -/
def classAdmits (need opcode cls : Nat) : Bool :=
  if need = 0 then
    if opcode = 1 ∨ opcode = 7 then 1 ≤ cls && cls ≤ 4
    else if opcode = 2 then cls == 2 || cls == 5
    else if opcode = 3 then cls == 3 || cls == 5
    else true
  else if need = 1 then 1 ≤ cls && cls ≤ 4
  else cls == need

/-- The die type record of a die. -/
def State.dieTypeOf (s : State) (bay die : Nat) : TtDieType :=
  match s.tt.active, s.formAt bay die with
  | some i, some f => i.dieType (i.form f).die
  | _, _ => ⟨0, 1, 0, 0, 0, 0, 0, 0, 0, 0⟩

/-- The worst time of an operation [ns] (Table 11-4). -/
def worstTime (t : TtDieType) (opcode : Nat) : Nat :=
  if opcode = 1 then t.tR + t.tXfer
  else if opcode = 2 then t.programTime
  else if opcode = 3 then t.eraseTime
  else if opcode = 4 then t.tSusp
  else if opcode = 5 then t.tResume
  else if opcode = 6 then 2000
  else if opcode = 7 then 8 * t.tR + t.tXfer
  else if opcode = 8 then 20000
  else max t.programTime t.eraseTime + 8000

/-- The operations outstanding on a die. -/
def Bays.onDie (b : Bays) (bay die : Nat) : List DieOp := b.outstanding.filter (fun o => o.bay == bay && o.die == die)

/-- A die runs a programme or erase. -/
def Bays.busy (b : Bays) (bay die : Nat) : Bool := (b.onDie bay die).any (fun o => o.opcode == 2 || o.opcode == 3)

/-- The deadline of an operation posted now: the waits its die may make it take and its worst time, in whole
periods (R354). -/
def State.deadlineOf (s : State) (op : DieOp) : Nat :=
  let t := s.dieTypeOf op.bay op.die
  let wait := if op.opcode = 1 then
      (if op.cls = 1 ∧ s.bay.busy op.bay op.die = true then t.tSusp else 0) +
      (if (s.bay.onDie op.bay op.die).any (fun o => o.opcode == 1 || o.opcode == 7) then t.tR else 0)
    else 0
  s.tt.now + ceilDiv (wait + worstTime t op.opcode) 16000

/-- Periods from now to a form's next Lesson-Program or Lesson-Erase bell. -/
def State.toNextBell (s : State) (f : Nat) : Nat :=
  match s.tt.active with
  | none => 1024
  | some i => nextBell i (i.sheet s.tt.sheet) f s.period

/-- No admitted foreground read of a die is outstanding: neither posted nor waiting for its bell (R50). -/
def Bays.readFree (b : Bays) (bay die : Nat) : Bool :=
  !(b.waiting ++ b.outstanding).any (fun o => o.bay == bay && o.die == die && o.cls == 1 && o.opcode == 1)

/-- On day D − 1 of an Armed image an operation that may run past the bell of day D is not started (R77). -/
def State.endsInTerm (s : State) (worst : Nat) : Bool :=
  s.tt.load != .armed || s.tt.armDay != s.day + 1 || 16000 * s.tt.now + worst ≤ 16000 * (1024 * s.tt.armDay)

/-- The room an operation needs: ring, port, die, program buffer, for Recess work its time, and for programmes, erases and
Recess reads the term's (R50, R77, R395, R401, Table 2-2). -/
def State.roomFor (s : State) (op : DieOp) : Bool :=
  let out := s.bay.outstanding.filter (fun o => o.bay == op.bay)
  let ring := out.filter (fun o => o.die / 16 == op.die / 16)
  let here := s.bay.onDie op.bay op.die
  let worst := worstTime (s.dieTypeOf op.bay op.die) op.opcode
  let postedNow := here.any (fun o => o.posted == some s.tt.now && (o.opcode == 2 || o.opcode == 3))
  let recessOk := match s.formAt op.bay op.die with
    | none => here == []
    | some f => s.bay.readFree op.bay op.die && worst < 16000 * s.toNextBell f
  ring.length < 64 && out.length < 8192 &&
  (if op.opcode = 2 ∨ op.opcode = 3 then !postedNow else true) &&
  (if op.opcode = 2 ∨ op.opcode = 3 ∨ (op.cls = 4 ∧ (op.opcode = 1 ∨ op.opcode = 7)) then s.endsInTerm worst else true) &&
  (if op.opcode = 2 then (out.filter (fun o => o.opcode == 2)).length < 1024 else true) &&
  (if op.cls = 4 ∧ op.opcode ≤ 7 then recessOk else if op.cls = 0 ∧ op.opcode ≤ 7 then here == [] else true)

/-- The class of the period for an operation's die; any for a module without a form (R410). -/
def State.admitsNow (s : State) (op : DieOp) : Bool :=
  match s.formAt op.bay op.die with
  | none => op.cls == 0 || op.opcode == 6 || 8 ≤ op.opcode
  | some f => classAdmits op.cls op.opcode (s.formClass f)

/-- Work on a superblock ring, a module-level operation or STATUS: it goes to a module whichever head owns the form. The
ring's writer writes it on every member (R380) though R45 lets the owner alone post: DESIGN CHOICE, R380 taken. -/
def DieOp.anyOwner (op : DieOp) : Bool := op.cls == 0 || op.opcode == 6 || 8 ≤ op.opcode

/-- An operation goes to a form that this head owns, or is a READ that the owner posts for it (R45). A READ of a form that the
peer owns is handed to the peer, which posts it: the spec names no message for it (DESIGN CHOICE). -/
def State.mayPost (s : State) (op : DieOp) : Bool :=
  op.anyOwner || (s.formAt op.bay op.die).isNone || s.ownsDie op.bay op.die || (op.opcode == 1 && s.paired)

/-- The operation is a READ that the peer posts. -/
def State.peerPosts (s : State) (op : DieOp) : Bool :=
  !op.anyOwner && (s.formAt op.bay op.die).isSome && !s.ownsDie op.bay op.die
/-- The fence epoch a descriptor carries: that of the die's form held by this head; 0 for a ring read, and where none is held
(Table 11-3, R411). -/
def State.fenceFor (s : State) (op : DieOp) : Nat :=
  if op.opcode = 9 then s.tt.now
  else if op.cls = 0 ∧ op.opcode = 1 then 0
  else ((s.formAt op.bay op.die).bind (fun f => getKey f s.bay.fences)).getD 0

/-- The stream class whose parity bucket a data strip pays (Table 2-16). -/
def DieOp.parClass (op : DieOp) : Nat := if op.stream = 0 then 2 else op.stream

/-- What a strip of a vault image pays of the Vault class: a data strip the segment bytes it holds and its parity, a parity
strip nothing of its own (Table 2-16). -/
def DieOp.vaultCosts (op : DieOp) : List (EngineKind × Nat) := if op.stream = 11 then [(.cip, 65536), (.par, 66432)] else []

/-- An operation is posted: its descriptor is written, its deadline set, its posting counted (Table 17-3). Reads that ask a die
to suspend at one bell share the suspend (R53). -/
def postOp (op : DieOp) (s : State) : State :=
  let flags := if op.opcode = 2 ∨ op.opcode = 3 then 1
    else if op.opcode = 1 ∧ op.cls = 1 ∧ s.bay.busy op.bay op.die = true then 2 else op.flags
  let o := { op with posted := some s.tt.now, deadline := s.deadlineOf op, flags := flags, fence := s.fenceFor op }
  let shared := (s.bay.onDie op.bay op.die).any (fun r => r.opcode == 1 && r.flags == 2 && r.posted == some s.tt.now)
  let running := s.bay.outstanding.map (fun r =>
    if flags = 2 ∧ o.opcode = 1 ∧ shared = false ∧ r.bay = op.bay ∧ r.die = op.die ∧ (r.opcode = 2 ∨ r.opcode = 3) then { r with suspends := r.suspends + 1 } else r)
  let s1 := emit (if s.peerPosts op then .peerRead o else .descriptor o) { s with bay := { s.bay with outstanding := running ++ [o] } }
  if o.opcode = 1 then (if flags = 2 then tallyAdd 0x0C 3 1 (tallyAdd 0x0C 0 1 s1) else tallyAdd 0x0C 0 1 s1)
  else if o.opcode = 2 then
    (match o.use with
     | .strip .. => pay op.parClass .par 66432 (tallyAdd 0x0C 1 1 s1)
     | .vaultStrip _ => payAll op.stream op.vaultCosts (tallyAdd 0x0C 1 1 s1)
     | _ => tallyAdd 0x0C 1 1 s1)
  else if o.opcode = 3 then tallyAdd 0x0C 2 1 s1 else s1

/-- A STRIPE_OPEN record that a strip's programme waits for is still on its way to the peer (R344). -/
def State.stripeOpenSent (s : State) (group stripe pos : Nat) : Bool :=
  s.corr.unanswered.any (fun m =>
    match m.body with
    | .journal l => l.any (fun r => r.body == .stripeOpen group stripe pos 1)
    | _ => false)

/-- A data strip of a stripe below a position is not posted yet: the strips of a stripe are posted in ascending order, and its
parity after them (R332). -/
def Bays.stripBefore (b : Bays) (group stripe pos : Nat) : Bool :=
  b.waiting.any (fun o => match o.use with
    | .strip g x p => g == group && x == stripe && p < pos
    | _ => false)

/-- A programme of a group waits until its GROUP_OPEN is durable and its STRIPE_OPEN is in both tails (R344), a data strip also
for those before it (R332) and until the parity lanes' bucket can pay it (Table 2-16). -/
def State.groupAdmits (s : State) (op : DieOp) : Bool :=
  let ready := fun (id : Nat) => (s.ec.groups.find? (fun g => g.id == id)).any (fun g => g.ready)
  match op.use with
  | .strip g x p => ready g && !s.stripeOpenSent g x p && !s.bay.stripBefore g x p && s.canPay op.parClass .par 66432
  | .parity g x _ _ => ready g && !s.bay.stripBefore g x 32
  | .vaultStrip _ => s.canPayAll op.stream op.vaultCosts
  | _ => true

/-- A FENCE that names a form waits or is outstanding. -/
def Bays.fencing (b : Bays) (f : Nat) : Bool :=
  (b.waiting ++ b.outstanding).any (fun o =>
    match o.use with
    | .fence l => l.contains f
    | _ => false)

/-- An operation may go to its form: nothing but STATUS is posted to a form whose fence is in doubt, and nothing before
its FENCE is complete (R406, R413, R478). -/
def Bays.formServes (b : Bays) (f : Option Nat) (op : DieOp) : Bool :=
  op.opcode == 6 || 8 ≤ op.opcode || op.cls == 0 || f.all (fun f => !b.halted.contains f && !b.fencing f)

/-- A programme waits behind an erase of its block that was queued before it. -/
def Bays.eraseFirst (b : Bays) (op : DieOp) : Bool :=
  op.opcode == 2 && b.waiting.any (fun o => o.opcode == 3 && o.bay == op.bay && o.die == op.die && o.block == op.block && o.tag < op.tag)

/-- A member takes an operation: one that is not In service takes no new programme, erase or calibration (R356, R641). Superblock
rings and modules that are no members are another matter. -/
def State.memberTakes (s : State) (op : DieOp) : Bool :=
  op.anyOwner || op.opcode == 1 || (s.ec.member op.bay).all (fun m => m.state == .inService)

/-- A foreground read. -/
def DieOp.foreground (op : DieOp) : Bool := op.opcode == 1 && op.cls == 1

/-- Die operations are held until the heads have exchanged their day counts after a Corridor training (R43). -/
def State.daysAgreed (s : State) : Bool := s.corr.daysKnown || s.corr.roll != .inService

/-- The operations whose bell this is are posted, foreground reads first, then the others, each in order (R46, R47). -/
def postOps (s : State) : State :=
  let l := s.bay.waiting.filter DieOp.foreground ++ s.bay.waiting.filter (fun op => !op.foreground)
  l.foldl (fun t op =>
    if (t.bay.bayOf op.bay).linkUp && t.corr.roll != .selfFenced && t.daysAgreed && t.mayPost op && t.memberTakes op && t.admitsNow op && !t.bay.eraseFirst op && t.bay.formServes (t.formAt op.bay op.die) op && t.groupAdmits op && t.roomFor op then
      postOp op { t with bay := { t.bay with waiting := t.bay.waiting.filter (fun o => o.tag != op.tag) } }
    else t) s

/-! ### Fences (R411 to R413) -/

/-- Forms of a list are fenced: one FENCE for each bay whose link is up (R412). -/
def fenceForms (forms : List Nat) (s : State) : State :=
  match s.tt.active with
  | none => s
  | some i =>
    ((forms.map (fun f => (i.form f).bay)).eraseDups).foldl (fun t b =>
      let fs := forms.filter (fun f => (i.form f).bay == b && !t.bay.fencing f)
      if fs = [] ∨ !(t.bay.bayOf b).linkUp then t
      else queueOp (bayOp 9 b 0 0 (fs.map (fun f => (i.form f).group)) 0 (.fence fs)) t) s

/-- The forms this head owns that no FENCE of its own covers are fenced (R413). -/
def fenceOwned (s : State) : State :=
  fenceForms (s.ownForms.filter (fun f => (getKey f s.bay.fences).isNone)) s

/-- Standby forms that took a copy's place, by the forms of the image now in force; where its triad names that form the copy is at home
(R360). -/
def carryStandbys (old s : State) : State :=
  match old.tt.active, s.tt.active with
  | some a, some i => { s with ec := { s.ec with standbys := s.ec.standbys.filterMap (fun x =>
      (s.formAt (a.form x.2.2).bay (16 * (a.form x.2.2).group)).bind (fun f =>
        if i.u (i.base 9 + 0x540 + 8 * x.1 + 2 * x.2.1) 2 = f then none else some (x.1, (x.2.1, f)))) } }
  | _, _ => s

/-- The epochs of the fences by the forms of the image now in force. -/
def carryFences (old : State) (s : State) : State :=
  match s.tt.active with
  | none => { s with bay := { s.bay with fences := [] } }
  | some i =>
    carryStandbys old { s with bay := { s.bay with fences := (List.range i.formCount).filterMap (fun f =>
        let fm := i.form f
        ((old.formAt fm.bay (16 * fm.group)).bind (fun g => getKey g old.bay.fences)).map (fun e => (f, e))) } }

/-- After a change of sheet the epochs of the forms that stay with this head stand, and the forms it gains are fenced
(R413). -/
def refence (old : State) (s : State) : State :=
  let s1 := carryFences old s
  fenceOwned { s1 with bay := { s1.bay with fences := s1.bay.fences.filter (fun p => s1.ownForms.contains p.1) } }

/-! ### Completions -/

/-- The outstanding operation a completion names. -/
def Bays.find (b : Bays) (bay tag : Nat) : Option DieOp := b.outstanding.find? (fun o => o.bay == bay && o.tag == tag)

/-- An operation is no longer outstanding. -/
def dropOp (op : DieOp) (s : State) : State :=
  { s with bay := { s.bay with outstanding := s.bay.outstanding.filter (fun o => !(o.bay == op.bay && o.tag == op.tag)) } }

/-- The deadline record after a completion: 4 or more periods late, or a refused suspend, is a miss; the
eighth in a row leads to Detention at the next bell; 64 in time end it (R354, R355, R400). -/
def noteDeadline (op : DieOp) (late : Bool) (s : State) : State :=
  match s.ec.member op.bay with
  | none => s
  | some m =>
    if late then
      tallyAdd 0x0C 5 1 (setMember { m with
        misses := min (m.misses + 1) 8, onTime := 0, detain := m.detain || (7 ≤ m.misses && m.state == .inService) }
        { s with tally := { s.tally with
            hourMiss := putKey op.bay ((getKey op.bay s.tally.hourMiss).getD 0 + 1) s.tally.hourMiss } })
    else setMember { m with misses := 0, onTime := m.onTime + 1 } s

/-- A programme or erase that ran on a die is complete: those posted behind it start now, and the wait is theirs by right (R51,
R354). -/
def dieFrees (op : DieOp) (s : State) : State :=
  if op.opcode = 2 ∨ op.opcode = 3 then
    { s with bay := { s.bay with outstanding := s.bay.outstanding.map (fun o =>
        if o.bay = op.bay ∧ o.die = op.die ∧ (o.opcode = 2 ∨ o.opcode = 3) then
          { o with deadline := max o.deadline (s.tt.now + ceilDiv (worstTime (s.dieTypeOf o.bay o.die) o.opcode) 16000) }
        else o) } }
  else s

/-- A completion is taken from the ring: the operation is no longer outstanding and its deadline is judged. -/
def takeDone (op : DieOp) (d : BlpDone) (s : State) : State :=
  let b := s.bay.bayOf op.bay
  noteDeadline op (decide (op.deadline + 4 ≤ s.tt.now) || bitAt 2 d.flags)
    (setBay op.bay { b with cqHead := b.cqHead + 1 } (dieFrees op (dropOp op s)))

/-! ### Superblock writes (R380, R381) -/

/-- This head writes the superblock. -/
def State.writer (s : State) : Bool := s.sys.slot == 0 || s.peerAbsent || s.corr.roll == .noPeer

/-- A copy of the superblock is programmed on a member: the next page of its ring (R381). -/
def ringWrite (bay : Nat) (bytes : Bytes) (s : State) : State :=
  let b := s.bay.bayOf bay
  let pages := (b.ident.map (·.pages)).getD 4096
  let block := b.ring / pages % 4
  let page := b.ring % pages
  let hdr := pageHeader 5 0 0 0 0 0 0 s.epoch 0
  let s1 := if page = 0 then queueOp (blkOp 3 (blkKey bay 0 block) 0 0 0 .ring []) s else s
  queueOp (blkOp 2 (blkKey bay 0 block) (page / 4) 0 0 .superblock (bytes ++ hdr ++ zeros 224))
    (setBay bay { b with ring := b.ring + 1 } s1)

/-- The members In service. -/
def Ec.servingBays (e : Ec) : List Nat := (e.members.filter (fun m => m.state == .inService)).map (·.bay)

/-- A configuration write: every member In service takes a copy of the next generation (R380). -/
def configWrite (s : State) : State :=
  match s.pool with
  | none => s
  | some p =>
    let q := { p with generation := p.generation + 1, written := s.tt.now }
    let bytes := superblockBytes q s.ec.members s.sys.slot 1 (s.systemKey 0x11 0)
    let s1 := { s with pool := some q }
    if s.writer then s.ec.servingBays.foldl (fun t b => ringWrite b bytes t) s1
    else sendPeer (.sbChange 0 bytes) s1

/-- The three members an anchor write goes to: in distinct failure domains, ascending after the last (R380). -/
def anchorBays (ms : List Member) (after : Nat) : List Nat :=
  let l := sortBy (fun a b => a.bay ≤ b.bay) (ms.filter (fun m => m.state == .inService))
  let turn := l.filter (fun m => after < m.bay) ++ l.filter (fun m => m.bay ≤ after)
  ((turn.foldl (fun (acc : List Member) m =>
    if acc.any (fun x => x.domain == m.domain) then acc else acc ++ [m]) []).take 3).map (·.bay)

/-- An anchor write: the checkpoint fields, on three members (R380). -/
def anchorWrite (s : State) : State :=
  match s.pool with
  | none => s
  | some p =>
    let bays := anchorBays s.ec.members p.anchor
    let q := { p with generation := p.generation + 1, written := s.tt.now, anchor := (bays.getLast?).getD p.anchor }
    let bytes := superblockBytes q s.ec.members s.sys.slot 2 (s.systemKey 0x11 0)
    let s1 := { s with pool := some q }
    if s.writer then bays.foldl (fun t b => ringWrite b bytes t) s1
    else sendPeer (.sbChange 0x48 (slice bytes 0x48 28)) s1

end Sys2Proof.Machine
end

