-- ==== Sys2Proof/Machine/Stripes.lean ====
section
/-! DEFINITION. Layouts, stripe groups, strips, parity and reconstruction (R326 to R349). -/

namespace Sys2Proof.Machine

/-! ### The LAYOUT section (R335) -/

/-- A layout record (Table 9-5). -/
structure LayoutRec where
  purpose : Nat
  k       : Nat
  m       : Nat
  first   : Nat
  rows    : Nat
  deriving DecidableEq, Repr

/-- Layout record n of an image. -/
def TtImage.layoutRec (i : TtImage) (n : Nat) : LayoutRec :=
  let a := i.base 9 + 0x440 + 16 * n
  ⟨i.u a 1, i.u (a + 1) 1, i.u (a + 2) 1, i.u (a + 4) 4, i.u (a + 8) 4⟩

/-- The triad count of an image. -/
def TtImage.triads (i : TtImage) : Nat := i.u (i.base 9 + 0x0C) 2

/-- A triad record: its three forms and its standby (Table 9-6). -/
def TtImage.triad (i : TtImage) (t : Nat) : List Nat :=
  (List.range 4).map (fun c => i.u (i.base 9 + 0x540 + 8 * t + 2 * c) 2)

/-- The forms of a triad's copies, standbys that took a place included (R360). -/
def State.triadForms (s : State) (t : Nat) : List Nat :=
  match s.tt.active with
  | none => []
  | some i => (List.range 3).map (fun c =>
      (((s.ec.standbys.find? (fun x => x.1 == t && x.2.1 == c)).map (·.2.2))).getD ((i.triad t).getD c 0))

/-- The bays of row r: its first n bytes. -/
def TtImage.row (i : TtImage) (r n : Nat) : List Nat :=
  (List.range n).map (fun c => i.u (i.base 9 + 0x540 + 8 * i.triads + 36 * r + c) 1)

/-- Flags, failure domain, weight and dies of a bay's member record (Table 9-4). -/
def TtImage.memberRec (i : TtImage) (bay : Nat) : Nat × (Nat × (Nat × Nat)) :=
  let a := i.base 9 + 0x40 + 16 * bay
  (i.u a 1, i.u (a + 1) 1, i.u (a + 2) 2, i.u (a + 4) 2)

/-! ### Opening a group (R330, R331) -/

/-- Blocks per die of a bay's module. -/
def State.blocksPerDie (s : State) (bay : Nat) : Nat := (((s.bay.bayOf bay).ident).map (·.blocks)).getD 0

/-- The forms of a bay that this head owns with role bit 0. -/
def State.dataForms (s : State) (bay : Nat) : List Nat :=
  match s.tt.active with
  | none => []
  | some i => s.ownForms.filter (fun f => (i.form f).bay == bay && bitAt 0 (i.form f).role)

/-- Periods to a form's next Lesson-Program bell. -/
def State.toProgram (s : State) (f : Nat) : Nat :=
  match s.tt.active with
  | none => 1024
  | some i => (((List.range 1024).map (· + 1)).find? (fun n =>
      i.classOf (i.sheet s.tt.sheet) f ((s.period + n) % 1024) == 2)).getD 1025

/-- Periods to a form's next bell whose class is not Idle (R347). -/
def State.toNonIdle (s : State) (f : Nat) : Nat :=
  match s.tt.active with
  | none => 1025
  | some i => (((List.range 1024).map (· + 1)).find? (fun n =>
      i.classOf (i.sheet s.tt.sheet) f ((s.period + n) % 1024) != 0)).getD 1025

/-- The block of a bay a group takes: the form whose Lesson-Program bell comes first among those with a die
above the Free-block floor, the lowest such die, its first Free block; forms of a die that ran low are avoided (R330, R311, R313). -/
def State.pickBlock (s : State) (bay : Nat) : Option Nat :=
  match s.tt.active with
  | none => none
  | some i =>
    let n := s.blocksPerDie bay
    let die := fun (f : Nat) => ((List.range 16).map (fun d => 16 * (i.form f).group + d)).find? (fun d =>
      4 < (s.freeBlocks bay d n).length)
    let low := fun (f : Nat) => s.ftl.lowDies.any (fun x => x.1 == bay && x.2 / 16 == (i.form f).group)
    let forms := (s.dataForms bay).filter (fun f => (die f).isSome && !low f)
    match forms.find? (fun f => forms.all (fun g => s.toProgram f ≤ s.toProgram g)) with
    | none => none
    | some f => (die f).bind (fun d => (s.freeBlocks bay d n).head?)

/-- The second block of a parity column, on the member of the first (R333): as a group's block is taken, or any Free block where no
die is above the floor, since the log has no other place to go on. DESIGN CHOICE: the spec does not say which Free block it is. -/
def State.logBlock (s : State) (bay : Nat) : Option Nat :=
  match s.tt.active with
  | none => none
  | some i => (s.pickBlock bay).or ((s.dataForms bay).findSome? (fun f => (List.range 16).findSome? (fun d =>
      (s.freeBlocks bay (16 * (i.form f).group + d) (s.blocksPerDie bay)).head?)))

/-- The row a new group of a layout takes: the first from g mod R on whose members are all In service and
each offer a block. -/
def State.pickRow (s : State) (i : TtImage) (layout : Nat) : Option (Nat × List Nat) :=
  let l := i.layoutRec layout
  let g := (getKey layout s.ec.openedIn).getD 0
  (List.range l.rows).findSome? (fun n =>
    let r := (g + n) % (max l.rows 1)
    let bays := i.row (l.first + r) (l.k + l.m)
    if bays.all s.ec.serving then
      let bs := bays.map s.pickBlock
      if bs.all Option.isSome then some (r, bs.map (·.getD 0)) else none
    else none)

/-- A group opens on a qualifying row, with GROUP_OPEN and its blocks Open; none when no row qualifies (R330). -/
def openGroup (layout : Nat) (s : State) : State :=
  match s.tt.active with
  | none => s
  | some i =>
    match s.pickRow i layout with
    | none => s
    | some (row, blocks) =>
      let l := i.layoutRec layout
      let g : Group := ⟨2 ^ 63 * s.sys.slot + s.ec.opened, layout, row, l.k, l.m, blocks, [], true, false, [], 0, none, 0,
        [], [], [], s.tt.now, []⟩
      let s1 := { s with ec := { s.ec with
        groups := s.ec.groups ++ [g], opened := s.ec.opened + 1
        openedIn := putKey layout ((getKey layout s.ec.openedIn).getD 0 + 1) s.ec.openedIn } }
      let s2 := journal (.groupOpen g.id layout row blocks) s1
      afterDurable s.epoch (.groupReady g.id)
        (blocks.foldl (fun t b => openBlock b (s.dieTypeOf (blkBay b) (blkDie b)).number t) s2)

/-! ### Strips -/

/-- Group by ID. -/
def Ec.group (e : Ec) (id : Nat) : Option Group := e.groups.find? (fun g => g.id == id)

/-- A group replaced. -/
def setGroup (g : Group) (s : State) : State :=
  { s with ec := { s.ec with groups := s.ec.groups.map (fun x => if x.id == g.id then g else x) } }

/-- The slot of a list that covers quarter n of a strip, and the quarter of the slot. -/
def covering (l : List Placed) (n : Nat) : Option (Placed × Nat) :=
  (l.find? (fun p => p.at_ ≤ n && n < p.at_ + p.tier)).map (fun p => (p, n - p.at_))

/-- The data of a quarter of a strip, and its envelope; Empty where no slot fills it (R369). -/
def quarterBytes (l : List Placed) (n : Nat) : Bytes × Bytes :=
  match covering l n with
  | none => (zeros 4096, zeros 56)
  | some (p, q) => (fitBytes 4096 (slice p.bytes (4096 * q) 4096), envelopePart p.env q)

/-- The bytes parity covers of a strip: per page the data, then its envelopes (R327). -/
def coveredBytes (l : List Placed) : Bytes :=
  (List.range 4).flatMap (fun pg =>
    (List.range 4).flatMap (fun q => (quarterBytes l (4 * pg + q)).1) ++
    (List.range 4).flatMap (fun q => (quarterBytes l (4 * pg + q)).2))

/-- A strip's programme data from the bytes parity covers and its page headers: per page the data, the header,
the envelopes (R365, R401). -/
def stripData (covered : Bytes) (header : Nat → Bytes) : Bytes :=
  (List.range 4).flatMap (fun pg =>
    slice covered (16608 * pg) 16384 ++ header pg ++ slice covered (16608 * pg + 16384) 224)

/-- Where the next slot of a tier goes in a strip: its quarters never cross a page (R280). -/
def nextQuarter (l : List Placed) (tier : Nat) : Option Nat :=
  let used := ((l.getLast?).map (fun p => p.at_ + p.tier)).getD 0
  let at_ := if used % 4 + tier ≤ 4 then used else roundUp used 4
  if at_ + tier ≤ 16 then some at_ else none

/-- The stripe of a number. -/
def Group.stripe (g : Group) (n : Nat) : Option Stripe := g.stripes.find? (fun x => x.number == n)

/-- A stripe replaced. -/
def Group.setStripe (g : Group) (x : Stripe) : Group :=
  { g with stripes := g.stripes.map (fun y => if y.number == x.number then x else y) }

/-- The stripe to fill next: an interim latest stripe is extended before a new one opens, once its parity
is in the accumulators (R341). -/
def Group.begin (g : Group) : Group :=
  match g.cur with
  | some _ => g
  | none =>
    match g.stripes.getLast? with
    | some x =>
      if x.interim && !x.final && x.a < g.k then
        (if x.a = 0 ∨ g.accum ≠ [] then { g with cur := some x.number, posted := x.a } else g)
      else { g with cur := some (x.number + 1), posted := 0, accum := []
                    stripes := g.stripes ++ [⟨x.number + 1, 0, false, false, none, 0, none, []⟩] }
    | none => { g with cur := some 0, posted := 0, accum := []
                       stripes := [⟨0, 0, false, false, none, 0, none, []⟩] }

/-- The column of a position of a group's blocks: a second block of a parity column is of the same column. -/
def columnOf (g : Group) (pos : Nat) : Nat := if pos < g.k then pos else g.k + (pos - g.k) % g.m

/-- The parity columns' block and strip of a position (R333). -/
def Group.parityAt (g : Group) (j pos : Nat) : Nat × Nat :=
  if pos < 1024 then (g.blocks.getD (g.k + j) 0, pos) else (g.second.getD j 0, pos - 1024)

/-- Slots seek another place: those of destages, and those of moves (R314, R333, R641). -/
def seekPlace (layout : Nat) (l : List Placed) (s : State) : State :=
  let back := fun (d : Destage) => if l.any (fun p => p.job == d.job && p.job != 0) then { d with stage := .place } else d
  { s with jobs := { s.jobs with
    destages := s.jobs.destages.map back
    homeless := s.jobs.homeless ++ (l.filter (fun p => p.job == 0)).map (fun p => (layout, p)) } }

/-- The group writes no further stripe: GROUP_CLOSE, and its data blocks count as Full; slots not yet posted seek
another place (R333). -/
def closeGroup (id : Nat) (s : State) : State :=
  match s.ec.group id with
  | none => s
  | some g =>
    if !g.isOpen then s
    else
      let n := (g.stripes.filter (fun x => x.pointer.isSome || x.writing.isSome)).length
      let s1 := journal (.groupClose id n) (setGroup { g with isOpen := false, cur := none, filling := [] } (seekPlace g.layout g.filling s))
      (g.blocks ++ g.second).foldl (fun t b => if (t.ftl.ledger b).state = .isOpen then setBlkState b .full t else t) s1

/-- The parity version of the stripe being filled is programmed at the next position of every column;
position 2,048 closes the group first (R333, R339, R340). A stripe whose log finds no second block waits for one. -/
def closeStripe (id : Nat) (interim : Bool) (s : State) : State :=
  match s.ec.group id with
  | none => s
  | some g =>
    match g.cur.bind g.stripe with
    | none => s
    | some x =>
      if g.posted = 0 then setGroup { g with cur := none, stripes := g.stripes.map (fun y =>
          if y.number == x.number then { y with final := true } else y) } s
      else
        let needSecond := g.nextPos == 1024 && g.second == []
        let picks := (List.range g.m).map (fun j => s.logBlock (blkBay (g.blocks.getD (g.k + j) 0)))
        if needSecond ∧ !picks.all Option.isSome then s else
        let g1 := if needSecond then { g with second := picks.map (·.getD 0) } else g
        let s1 := if needSecond then
            (List.range g.m).foldl (fun t j => journal (.parityBlock id j (g1.second.getD j 0))
              (openBlock (g1.second.getD j 0) (s.dieTypeOf (blkBay (g1.second.getD j 0)) (blkDie (g1.second.getD j 0))).number t)) s
          else s
        let live := (List.range g.m).filter (fun j => s.ec.serving (blkBay (g1.parityAt j g.nextPos).1))
        let left := ((List.range g.m).filter (fun j => !live.contains j)).map (· + g.k)
        let g2 := (g1.setStripe { x with
          writing := some (g.nextPos, g.posted, interim), pending := x.pending + live.length
          unwritten := x.unwritten ++ left })
        let g3 := { g2 with nextPos := g.nextPos + 1, cur := none, posted := 0 }
        let s2 := tallyAdd 0x0B (if interim then 1 else 0) 1 (setGroup g3 s1)
        let s3 := live.foldl (fun t j =>
          let (b, strip) := g1.parityAt j g.nextPos
          let hdr := fun pg => pageHeader 2 pg (g.k + j) id x.number (g.posted + 64 * flagBit interim) g.layout s.epoch g.nextPos
          queueOp (blkOp 2 b strip 0 2 (.parity id x.number j g.nextPos) (stripData (g.accum.getD j []) hdr)) t) s2
        if g.nextPos + 1 = 2048 ∨ (x.number = 1023 ∧ g.posted = g.k) then closeGroup id s3 else s3

/-- The stream class whose parity work a strip is: destage where it holds a slot of one, else that of the moves that filled
it (Table 2-16). -/
def State.stripClass (s : State) (l : List Placed) : Nat :=
  if l.any (fun p => p.job != 0) then 2
  else if s.ftl.moves.any (fun m => m.why == 2 && l.any (fun p => psaBlk p.oldPsa == m.blk)) then 8 else 5

/-- The strip being filled is posted: STRIPE_OPEN, its programme, its part in the parity accumulators; the
k-th strip closes the stripe (R332, R338, R344). -/
def postStrip (id : Nat) (s : State) : State :=
  match s.ec.group id with
  | none => s
  | some g0 =>
    let g := g0.begin
    match (g.cur.bind g.stripe).filter (fun _ => g.posted < g.k) with
    | none => s
    | some x =>
      let cov := coveredBytes g.filling
      let blk := g.blocks.getD g.posted 0
      let hdr := fun pg => pageHeader 1 pg g.posted id x.number 0 g.layout s.epoch 0
      let acc := (List.range g.m).map (fun j =>
        xorBytes (scale (parityCoef j g.posted) cov) (fitBytes cov.length (g.accum.getD j [])))
      let moved := g.filling.map (fun p => { p with stripe := x.number, pos := g.posted })
      let g1 := { g.setStripe { x with pending := x.pending + 1 } with
        accum := acc, filling := [], waiting := g.waiting ++ moved, posted := g.posted + 1 }
      let s1 := journal (.stripeOpen id x.number g.posted 1) (setGroup g1 s)
      let s2 := if g0.cur = none ∧ 0 < x.a then tallyAdd 0x0B 2 1 s1 else s1
      let s3 := queueOp { blkOp 2 blk x.number 0 2 (.strip id x.number g.posted) (stripData cov hdr) with
        stream := s.stripClass g.filling } s2
      if g1.posted = g.k then closeStripe id false s3 else s3

/-- At a bell a stripe whose last strip is posted and whose log waited for its second block closes (R333). -/
def closeFull (s : State) : State :=
  s.ec.groups.foldl (fun t g => if g.id / 2 ^ 63 = s.sys.slot ∧ g.isOpen ∧ g.cur.isSome = true ∧ g.posted = g.k ∧ 0 < g.k then closeStripe g.id false t else t) s

/-- A stripe closes early: the partly filled strip is padded and posted, then interim parity follows; a data
strip due on a member not In service leaves the stripe at a − 1 (R339, R641). -/
def closeEarly (id : Nat) (s : State) : State :=
  match s.ec.group id with
  | none => s
  | some g =>
    if g.cur.isNone && g.filling == [] then s
    else
      let here := s.ec.serving (blkBay (g.blocks.getD g.begin.posted 0))
      let s1 := if g.filling ≠ [] ∧ here = true then postStrip id s else s
      closeStripe id true s1

/-- The open group of a layout that this head fills. -/
def State.openGroupOf (s : State) (layout : Nat) : Option Group :=
  s.ec.groups.find? (fun g => g.isOpen && g.layout == layout && g.id / 2 ^ 63 == s.sys.slot && g.nextPos < 2048)

/-- A slot goes into the strip being filled; a strip without room is posted first; with no open group one is
opened where a row qualifies. The answer says whether the slot found a place (R330, R280). -/
def placeSlot (layout : Nat) (p : Placed) (s : State) : State × Bool :=
  let s1 := if (s.openGroupOf layout).isNone then openGroup layout s else s
  match s1.openGroupOf layout with
  | none => (s1, false)
  | some g =>
    let s2 := if (nextQuarter g.filling p.tier).isNone then postStrip g.id s1 else s1
    match s2.ec.group g.id with
    | none => (s2, false)
    | some h =>
      if !h.isOpen ∨ (nextQuarter h.filling p.tier).isNone = true then (s2, false)
      else (setGroup { h with
          filling := h.filling ++ [{ p with at_ := (nextQuarter h.filling p.tier).getD 0 }], lastSlot := s.tt.now } s2, true)

/-- A moved slot takes a place, or waits for one. -/
def placeMoved (layout : Nat) (p : Placed) (s : State) : State :=
  match placeSlot layout p s with
  | (t, true) => t
  | (t, false) => seekPlace layout [p] t

/-- At a bell the slots of moves that wait seek a place again. -/
def placeHomeless (s : State) : State :=
  s.jobs.homeless.foldl (fun t x => placeMoved x.1 x.2 t) { s with jobs := { s.jobs with homeless := [] } }

/-- The PSA of a placed slot (Table 8-1). -/
def Group.psa (g : Group) (p : Placed) : Nat :=
  psaOf (g.blocks.getD p.pos 0) (4 * p.stripe + p.at_ / 4) (p.at_ % 4) p.tier (fieldAt p.env 0x10 8)

/-- The group and position of a block (R331). -/
def Ec.locate (e : Ec) (blk : Nat) : Option (Group × Nat) :=
  e.groups.findSome? (fun g => ((List.range g.blocks.length).find? (fun i => g.blocks.getD i 0 == blk)).map (fun i => (g, i)))

/-! ### Reconstruction (R328) -/

/-- A row of the generator: position i of a stripe with k data strips. -/
def generatorRow (k i : Nat) : List Byte :=
  if i < k then (List.range k).map (fun c => if c = i then 1 else 0) else (List.range k).map (fun c => parityCoef (i - k) c)

/-- A row scaled and added to another. -/
def addRow (c : Byte) (a b : List Byte × Bytes) : List Byte × Bytes :=
  (List.zipWith (fun x y => x ^^^ parityMul c y) b.1 a.1, List.zipWith (fun x y => x ^^^ parityMul c y) b.2 a.2)

/-- Elimination of column c among the rows: the pivot row is brought to place c. -/
def eliminate (rows : List (List Byte × Bytes)) (c : Nat) : List (List Byte × Bytes) :=
  match (List.range rows.length).find? (fun r => c ≤ r && (rows.getD r ([], [])).1.getD c 0 != 0) with
  | none => rows
  | some r =>
    let p := rows.getD r ([], [])
    let sw := (rows.set r (rows.getD c ([], []))).set c p
    let inv := gfInv 0x1D (p.1.getD c 0)
    let unit := (p.1.map (parityMul inv), scale inv p.2)
    (List.range sw.length).map (fun i =>
      let x := sw.getD i ([], [])
      if i = c then unit else addRow (x.1.getD c 0) unit x)

/-- The data strips' bytes of a range, from k strips of the stripe by position (R328). -/
def solveStripe (k : Nat) (sources : List (Nat × Bytes)) : List Bytes :=
  ((List.range k).foldl eliminate ((sources.take k).map (fun p => (generatorRow k p.1, p.2)))).map (·.2)

/-- The bytes of a position reconstructed from k other strips (R328); an unwritten strip counts as zero. -/
def reconstruct (k pos : Nat) (sources : List (Nat × Bytes)) : Bytes :=
  let data := solveStripe k sources
  if pos < k then data.getD pos []
  else paritySum (pos - k) 0 ((data.getD 0 []).length) data

end Sys2Proof.Machine
end

