-- ==== Sys2Proof/Machine/MetaPages.lean ====
section
/-! DEFINITION. Journal records and metadata pages as bytes, and the writing of metadata pages to triads
(R282 to R287, R291, R301, R302, R343, R374 to R378). -/

namespace Sys2Proof.Machine

/-! ### Records as bytes -/

/-- A content-table record (Table 8-4). -/
def CtRec.bytes (r : CtRec) : Bytes :=
  fields [(8, r.psa), (4, r.refs), (2, r.gen), (2, r.domain), (8, r.fpHead), (2, r.flags), (6, r.moved)]

/-- A ledger entry (Table 8-10). -/
def Ledger.bytes (e : Ledger) : Bytes :=
  fields [(1, blkCode e.state), (1, e.dieType), (2, 0), (4, e.pe), (8, e.writeTime), (8, e.fullEpoch), (4, e.consumed / 3600000000000),
    (4, e.live), (2, e.ratio), (2, 0), (4, e.calDay)] ++ fitBytes 16 (e.offsets.map (BitVec.ofNat 8)) ++ zeros 8

/-- A signed 4-byte delta. -/
def deltaBytes (d : Int) : Bytes := leBytes 4 (signedBits 32 d)

/-- Journal, kind code and body of a record (Tables 8-6, 9-8): journal 1 FTL, 2 stripe. -/
def jbodyBytes : JBody → Nat × Nat × Bytes
  | .mapSet t g o n q => (1, 0x01, fields [(4, t), (4, 0), (8, g), (8, o), (8, n), (8, q)])
  | .mapPage _ t l k o n => (1, 0x02, fields [(4, t), (1, l), (3, 0), (8, k), (8, o), (8, n)])
  | .ctNew c r => (1, 0x03, leBytes 8 c ++ r.bytes)
  | .ctMove c o n => (1, 0x04, fields [(8, c), (8, o), (8, n)])
  | .refDelta l => (1, 0x05, fields [(2, l.length), (6, 0)] ++ l.flatMap (fun p => leBytes 8 p.1 ++ deltaBytes p.2 ++ zeros 4))
  | .reclaim c a => (1, 0x06, fields [(8, c), (1, a), (7, 0)])
  | .indexChange a d f c => (1, 0x07, fields [(1, a), (1, 0), (2, d), (4, 0)] ++ fitBytes 24 f ++ leBytes 8 c)
  | .blockState b st pe => (1, 0x08, fields [(1, blkBay b), (1, 0), (2, blkDie b), (2, blkNo b), (1, blkCode st), (1, 0), (4, pe), (4, 0)])
  | .counter h l k v => (1, 0x09, fields [(4, h), (1, l), (1, k), (2, 0), (10, v), (6, 0)])
  | .usageGrant l g f c => (1, 0x0A, fields [(2, l), (2, g), (4, 0), (8, f), (8, c)])
  | .poison c m => (1, 0x0B, fields [(8, c), (1, m), (7, 0)])
  | .volume r a f p m z => (1, 0x0C, fields [(4, r), (1, a), (3, 0), (8, f), (4, p), (4, 0), (8, m), (8, z)])
  | .checkpoint p m => (1, 0x0D, fields [(1, p), (7, 0), (8, m)])
  | .epochSeal n c => (1, 0x0E, fields [(4, n), (4, 0), (4, c), (4, 0)])
  | .ledger b e => (1, 0x0F, fields [(1, blkBay b), (1, 0), (2, blkDie b), (2, blkNo b), (2, 0)] ++ e.bytes)
  | .groupOpen g l r bs => (2, 0x01, fields [(8, g), (1, l), (1, 0), (2, r), (4, 0)] ++ bs.flatMap blkAddress)
  | .stripeOpen g x f n => (2, 0x02, fields [(8, g), (2, x), (1, f), (1, n), (4, 0)])
  | .stripeClose g x a f p => (2, 0x03, fields [(8, g), (2, x), (1, a), (1, f), (2, p), (2, 0)])
  | .parityBlock g c b => (2, 0x04, fields [(8, g), (1, c), (7, 0)] ++ blkAddress b)
  | .blockSubst g p o n => (2, 0x05, fields [(8, g), (1, p), (7, 0)] ++ blkAddress o ++ blkAddress n)
  | .groupClose g n => (2, 0x06, fields [(8, g), (2, n), (6, 0)])
  | .groupRelease g => (2, 0x07, leBytes 8 g)
  | .lostPage g p n => (2, 0x08, fields [(8, g), (1, p), (1, n), (6, 0)])
  | .sjCheckpoint p m n => (2, 0x09, fields [(1, p), (7, 0), (8, m), (4, n), (4, 0)])
  | .triadSubst t c f => (2, 0x0A, fields [(2, t), (1, c), (5, 0), (2, f), (6, 0)])

/-- A journal record with its header (Table 8-5). -/
def JRec.bytes (r : JRec) : Bytes :=
  let b := (jbodyBytes r.body).2.2
  fields [(1, (jbodyBytes r.body).2.1), (1, r.head), (2, b.length), (4, r.seq), (8, r.epoch)] ++ b

/-- The journal a record belongs to. -/
def JRec.journal (r : JRec) : Nat := (jbodyBytes r.body).1

/-- The body of the EPOCH_SEAL of some records: their number and their CRC32C (Table 8-6). -/
def sealOf (rs : List JRec) : JBody := .epochSeal rs.length (crc32c (rs.flatMap JRec.bytes))

/-- Records packed in journal pages: none crosses a page (R301, R376). -/
def packRecords : List JRec → List JRec → Nat → List (List JRec)
  | [], [], _ => []
  | [], cur, _ => [cur]
  | r :: rest, cur, used =>
    let n := r.bytes.length
    if used + n ≤ 4096 then packRecords rest (cur ++ [r]) (used + n)
    else cur :: packRecords rest [r] (16 + n)

/-- A journal page (Table 10-7). -/
def journalPage (journal head : Nat) (rs : List JRec) : Bytes :=
  let b := rs.flatMap JRec.bytes
  fitBytes 4096 (withCheck 0x0C (fitBytes 4096 (ascii "BRJN" ++
    fields [(1, journal), (1, head), (2, rs.length), (2, 16 + b.length), (1, 1), (1, 0), (4, 0)] ++ b)))

/-! ### Tree pages -/

/-- A metadata page of Table 8-3: magic, tree, level, used, first key, birth, applied position, entries. -/
def treePage (magic : String) (tree level used key birth epoch head seq : Nat) (entries : Bytes) : Bytes :=
  withCheck 0x30 (fitBytes 4096 (ascii magic ++ fields [(4, tree), (1, level), (1, 1), (2, used), (8, key), (8, birth),
    (8, epoch), (1, head), (3, 0), (4, seq), (4, 0), (12, 0)] ++ entries))

/-- Entries laid out by their index. -/
def layEntries (n size : Nat) (l : List (Nat × Bytes)) : Bytes :=
  (List.range n).flatMap (fun i => fitBytes size ((getKey i l).getD []))

/-- A leaf map page (R286). -/
def mapLeaf (tree key : Nat) (p : LeafPage) (epoch head seq : Nat) : Bytes :=
  treePage "BRCMAPPG" tree 0 p.entries.length (504 * key) p.birth epoch head seq
    (layEntries 504 8 (p.entries.map (fun e => (e.1, leBytes 8 (leafEntry (some e.2))))))

/-- An internal page: the MPAs of its children by index (R287). -/
def innerPage (magic : String) (tree level key birth epoch head seq : Nat) (kids : List (Nat × Nat)) : Bytes :=
  treePage magic tree level kids.length key birth epoch head seq (layEntries 504 8 (kids.map (fun e => (e.1, leBytes 8 e.2))))

/-- A content-table page of the half of a head: page key and records (R291). -/
def ctPage (half key epoch head seq : Nat) (rs : List (Nat × CtRec)) : Bytes :=
  treePage "BRCCTBPG" half 0 rs.length key 0 epoch head seq (layEntries 126 32 (rs.map (fun r => (r.1 % 2 ^ 47 % 126, r.2.bytes))))

/-- A ledger page: 63 entries of a half. -/
def ledgerPage (half key epoch head seq : Nat) (es : List (Nat × Ledger)) : Bytes :=
  treePage "BRCLEDPG" half 0 es.length key 0 epoch head seq (layEntries 63 64 (es.map (fun e => (e.1 % 63, e.2.bytes))))

/-- An index record (Table 5-3). -/
def IdxRec.bytes (r : IdxRec) : Bytes := fitBytes 24 r.fp ++ fields [(6, r.cid), (2, r.domain + 4096 * flagBit r.poisoned)]

/-- An index page (Table 5-2). -/
def indexPage (bucket half n epoch : Nat) (rs : List IdxRec) : Bytes :=
  let srt := sortBy (fun a b => a.domain < b.domain || (a.domain == b.domain && beNat a.fp ≤ beNat b.fp)) rs
  withCheck 0x1C (fitBytes 4096 (ascii "BRCIDXPG" ++ fields [(8, bucket + 2 ^ 36 * half), (8, epoch), (2, rs.length), (1, n), (1, 1),
    (4, 0), (32, 0)] ++ srt.flatMap IdxRec.bytes))

/-- A tail page (Table 10-5): page key, tails. -/
def tailPage (half key epoch head seq : Nat) (ts : List (Nat × Bytes)) : Bytes :=
  let l := ts.map (fun t => (t.1 % 2 ^ 47 % 15, t.2))
  treePage "BRCTALPG" half 0 l.length key 0 epoch head seq
    (fields [(2, maskOf (l.map (·.1))), (62, 0)] ++ layEntries 15 256 l ++ zeros 128)

/-- A checkpoint directory (Table 10-8): volume directory, then the roots of both halves of each tree. -/
def directoryPage (head epoch previous volumes : Nat) (roots : List Nat) : Bytes :=
  withCheck 0x0C (fitBytes 4096 (ascii "BRCCKDIR" ++ fields [(1, 1), (1, head), (2, 0), (4, 0), (8, epoch), (8, previous), (8, volumes)] ++
    roots.flatMap (leBytes 8)))

/-- A stripe's state byte (Table 10-9). -/
def Stripe.stateByte (x : Stripe) : Nat :=
  if x.pointer.isNone then 0 else x.a + 64 * flagBit x.interim + 128 * flagBit x.final

/-- A group record page (Table 10-9). -/
def groupPage (g : Group) (next : Nat) : Bytes :=
  let at_ := fun n => g.stripe n
  withCheck 0x20 (fitBytes 4096 (ascii "BRCGRPRC" ++ fields [(8, g.id), (8, next), (1, g.layout), (1, if g.isOpen then 1 else 2), (2, g.row),
      (2, (g.stripes.filter (fun x => x.pointer.isSome)).length), (2, g.nextPos), (4, 0), (4, 0)] ++
    fitBytes 288 (g.blocks.flatMap blkAddress) ++ fitBytes 32 (g.second.flatMap blkAddress) ++
    (List.range 1024).flatMap (fun n => leBytes 1 (((at_ n).map Stripe.stateByte).getD 0)) ++
    (List.range 1024).flatMap (fun n => leBytes 2 (((at_ n).bind (·.pointer)).getD 0)) ++
    (g.lost.take 83).flatMap (fun l => fields [(1, l.1), (1, l.2.1), (2, l.2.2), (4, 0)]) ++
    List.replicate (8 * (83 - min 83 g.lost.length)) 0xFF))

/-- The MPA of a page of a tree by its residency name: map trees by root, content table by half above 2^32, tails
above 2^33. -/
def Ftl.mpaOfPage (f : Ftl) (tree key : Nat) : Nat :=
  let id := if tree < 2 ^ 32 then pageId 1 tree 0 key
    else if tree < 2 ^ 33 then pageId 2 (tree - 2 ^ 32) 0 key else pageId 4 (tree - 2 ^ 33) 0 key
  (getKey id f.mpas).getD 0

/-! ### Writing to triads (R282, R374) -/

/-- The strip of a triad that the next metadata strip takes: die within the form, block, strip; at strip 0 a block is to be opened. -/
def Ftl.triadPos (f : Ftl) (t : Nat) : Nat := (getKey t f.triadNext).getD 0

/-- Strips written to a triad so far. -/
def Ftl.triadUse (f : Ftl) (t : Nat) : Nat := (getKey (2 ^ 14 + t) f.triadNext).getD 0

/-- A triad's forms carry a role bit (Table 2-8): 1 metadata, 2 dedup index, 4 journal. -/
def TtImage.triadRole (i : TtImage) (t role : Nat) : Bool := bitAt role (i.form ((i.triad t).getD 0 0)).role

/-- The triad of a role that metadata goes to next: the one with the least written so far, the lowest among equals; the head's
own choice. -/
def State.nextTriad (s : State) (role : Nat) : Option Nat :=
  match s.tt.active with
  | none => none
  | some i =>
    let l := (List.range i.triads).filter (fun t => i.triadRole t role)
    l.find? (fun t => l.all (fun u => s.ftl.triadUse t ≤ s.ftl.triadUse u))

/-- The block key of a copy: the same die within its form and block as the triad's other copies. -/
def State.copyBlock (s : State) (form pos : Nat) : Nat :=
  match s.tt.active with
  | none => 0
  | some i => blkKey (i.form form).bay (16 * (i.form form).group + pos / 2 ^ 23 % 16) (pos / 1024 % 8192)

/-- The block that a triad's next metadata strips open, as die, block and strip 0: Free in all three forms at the same place (R282), of the
lowest die that has one, the lowest P/E count first (R313). -/
def State.triadBlock (s : State) (t : Nat) : Option Nat :=
  match s.tt.active with
  | none => none
  | some i =>
    let fs := (s.triadForms t).map i.form
    let key := fun (f : TtForm) (d b : Nat) => blkKey f.bay (16 * f.group + d) b
    let n := ((fs.map (fun f => s.blocksPerDie f.bay)).min?).getD 0
    let pe := fun (d b : Nat) => (fs.head?.map (fun f => (s.ftl.ledger (key f d b)).pe)).getD 0
    (List.range 16).findSome? (fun d =>
      let l := (List.range n).filter (fun b => fs.all (fun f =>
        !(f.group == 0 && d == 0 && b < 4) && (s.ftl.ledger (key f d b)).state == .free))
      (l.find? (fun b => l.all (fun c => pe d b < pe d c || (pe d b == pe d c && b ≤ c)))).map (fun b => 2 ^ 23 * d + 1024 * b))

/-- Where a triad's next metadata strip goes; none while no block can be opened. -/
def State.nextStrip (s : State) (t : Nat) : Option Nat :=
  if s.ftl.triadPos t % 1024 = 0 then s.triadBlock t else some (s.ftl.triadPos t)

/-- A metadata page sealed under the METADATA key: ciphertext and envelope; none while no counter is durable (R374). -/
def sealMeta (mpa : Nat) (plain : Bytes) (s : State) : State × Option (Bytes × Bytes) :=
  match takeNonce (systemHandle 2) 0 0 1 s with
  | (s1, none) => (s1, none)
  | (s1, some n) =>
    let aad := fields [(1, 2), (1, 0), (1, 0), (1, 0), (2, 0), (2, 0), (8, mpa), (8, s.epoch)]
    let (ct, tag) := gcmSeal (s.systemKey 0x11 0) n aad (fitBytes 4096 plain)
    (s1, some (ct, envelope 2 0 0 0 0 0 mpa s.epoch n tag))

/-- A copy of a metadata page as its quarter and tag area come from the bridge: its plaintext, none where its envelope fails its check, is of
another kind or names another MPA, or its tag fails (R374). -/
def State.openMeta (s : State) (mpa : Nat) (data tags : Bytes) : Option Bytes :=
  let env := slice tags (32 + 56 * bitField 20 19 mpa) 56
  if envelopeOk env && fieldAt env 0 1 == 2 && fieldAt env 8 8 == mpa then
    gcmOpen (s.systemKey 0x11 0) (slice env 0x18 12) (slice env 0 0x18) (fitBytes 4096 data) (slice env 0x24 16)
  else none

/-- Some pages sealed at consecutive quarters from an MPA on. -/
def sealPages (mpa : Nat → Nat) : List Bytes → Nat → State → State × List (Bytes × Bytes)
  | [], _, s => (s, [])
  | p :: r, i, s =>
    match sealMeta (mpa i) p s with
    | (s1, none) => (s1, [])
    | (s1, some x) =>
      let (s2, l) := sealPages mpa r (i + 1) s1
      (s2, x :: l)

/-- Up to 16 metadata pages are written as one strip, three identical copies on a triad of a role (R282), in a class of die work;
their MPAs, none while no counter is durable, no triad exists or none has a block. -/
def writeStrip (role cls : Nat) (pages : List Bytes) (s : State) : State × List Nat :=
  match (s.nextTriad role).bind (fun t => (s.nextStrip t).map (fun pos => (t, pos))) with
  | none => (s, [])
  | some (t, pos) =>
    let mpa := fun (i : Nat) => mpaOf t (pos / 2 ^ 23 % 16) (pos / 1024 % 8192) (4 * (pos % 1024) + i / 4) (i % 4) s.epoch
    match sealPages mpa pages 0 s with
    | (s1, l) =>
      if l.length < pages.length then (s1, [])
      else
        let page := fun (copy pg : Nat) =>
          (List.range 4).flatMap (fun q => ((l[4 * pg + q]?).map (·.1)).getD (zeros 4096)) ++
          pageHeader 3 pg copy t (pos % 1024) 0 0 s.epoch 0 ++
          (List.range 4).flatMap (fun q => ((l[4 * pg + q]?).map (·.2)).getD (zeros 56))
        let s2 := { s1 with ftl := { s1.ftl with
          triadNext := putKey t (pos + 1) (putKey (2 ^ 14 + t) (s1.ftl.triadUse t + 1) s1.ftl.triadNext) } }
        let s3 := (List.range 3).foldl (fun u c =>
          let b := u.copyBlock ((u.triadForms t).getD c 0) pos
          let u1 := if pos % 1024 = 0 then openBlock b (u.dieTypeOf (blkBay b) (blkDie b)).number u else u
          let u2 := queueOp (blkOp 2 b (pos % 1024) 0 cls (.metaPage t c) ((List.range 4).flatMap (page c))) u1
          if pos % 1024 = 1023 then setBlkState b .full u2 else u2) s2
        (s3, (List.range pages.length).map mpa)

/-- Metadata pages are written, 16 to a strip; the MPAs of those that were. -/
def writePages (role cls : Nat) : Nat → List Bytes → State → State × List Nat
  | 0, _, s => (s, [])
  | n + 1, ps, s =>
    if ps = [] then (s, [])
    else
      match writeStrip role cls (ps.take 16) s with
      | (s1, []) => (s1, [])
      | (s1, l) =>
        let (s2, m) := writePages role cls n (ps.drop 16) s1
        (s2, l ++ m)

/-- A list of metadata pages written whole, or not at all as far as the MPAs say. -/
def writeMetaAs (role cls : Nat) (ps : List Bytes) (s : State) : State × List Nat := writePages role cls (ps.length + 1) ps s

/-- Pages of the metadata role, written in Lesson-Program periods. -/
def writeMeta (ps : List Bytes) (s : State) : State × List Nat := writeMetaAs 1 2 ps s

/-! ### Reading copies (R192, R283) -/

/-- Periods to a form's next bell at which a foreground read may be posted. -/
def State.toRead (s : State) (f : Nat) : Nat :=
  match s.tt.active with
  | none => 1025
  | some i => (((List.range 1024).map (· + 1)).find? (fun n =>
      classAdmits 1 1 (i.classOf (i.sheet s.tt.sheet) f ((s.period + n) % 1024)))).getD 1025

/-- The copies of a triad in the order they are read: the form whose next bell comes first leads (R192). -/
def State.copyOrder (s : State) (t : Nat) : List Nat :=
  (sortBy (fun a b => s.toRead ((s.triadForms t).getD a 0) ≤ s.toRead ((s.triadForms t).getD b 0)) (List.range 3))

/-- The next copy of a metadata page to read: the first in the order of R192 that a mask of copies tried does not hold. -/
def State.nextCopy (s : State) (mpa tried : Nat) : Nat := ((s.copyOrder (bitField 63 50 mpa)).find? (fun c => !bitAt c tried)).getD 0

/-- The block and page of a copy of a metadata page. -/
def State.metaPlace (s : State) (mpa copy : Nat) : Nat × Nat :=
  let page := bitField 32 21 mpa
  let pos := 2 ^ 23 * bitField 49 46 mpa + bitField 45 33 mpa * 1024 + page / 4
  (s.copyBlock ((s.triadForms (bitField 63 50 mpa)).getD copy 0) pos, page)

/-- A copy of a metadata page is read in a class of die work: the next that has not been tried. -/
def readMetaAs (cls mpa tried : Nat) (use : OpUse) (s : State) : State :=
  let (b, page) := s.metaPlace mpa (s.nextCopy mpa tried)
  readOp b page (2 ^ bitField 20 19 mpa) cls use s

/-- A copy is read as a foreground read. -/
def readMeta (mpa tried : Nat) (use : OpUse) (s : State) : State := readMetaAs 1 mpa tried use s

/-- A mask of copies tried, with the next one. -/
def State.triedNext (s : State) (mpa tried : Nat) : Nat := setBit (s.nextCopy mpa tried) tried

/-- A page of a tree is read: its next copy, which counts as tried (R192, R283, R295). -/
def fetchMeta (tree key mpa : Nat) (s : State) : State :=
  let k := 2 ^ 64 * tree + key
  let tried := (getKey k s.ftl.metaTries).getD 0
  readMeta mpa tried (.metadata tree key) { s with ftl := { s.ftl with metaTries := putKey k (s.triedNext mpa tried) s.ftl.metaTries } }

end Sys2Proof.Machine
end

