-- ==== Sys2Proof/Machine/Checkpoint.lean ====
section
/-! DEFINITION. Checkpoints of the FTL journal and of the stripe journal: dirty pages, their trees, the
directory (R303, R345, R377, R378, R425). -/

namespace Sys2Proof.Machine

/-! ### Root records (Table 12-1) -/

/-- The code of a root kind. -/
def rootKindCode : RootKind → Nat
  | .volume => 1
  | .snapshot => 2
  | .clone => 3
  | .replica => 4
  | .domain => 5

/-- The code of a root state. -/
def rootStateCode : RootState → Nat
  | .active => 1
  | .settling => 2
  | .deleting => 3

/-- The 64-byte sealed form of an adopted fingerprint key (R425; "Prefect keeps"). -/
def State.sealedFpKey (s : State) (d : Nat) (key : Bytes) : Bytes :=
  leBytes 2 d ++ zeros 6 ++ fitBytes 40 (kwWrap (kmac256 s.rootKey (ascii "ADOPT" ++ leBytes 2 d) 32 (ascii "BIRCA-ADOPT-S")) key) ++
    zeros 16

/-- A root record with the MPA of its top map page (Table 12-1). -/
def State.rootBytes (s : State) (r : Root) (mpa : Nat) : Bytes :=
  let flags := flagBit r.sealed_ + 2 * flagBit r.verify + 4 * flagBit r.adopted + 8 * flagBit r.syncSource
  if r.kind = .domain then
    let wrapped := match (s.ciph.locker r.domain).fpKey with
      | some k => if r.adopted then s.sealedFpKey r.domain k else zeros 64
      | none => zeros 64
    fitBytes 128 (fields [(4, 0xFFFFF000 + r.domain), (1, 5), (1, 0), (2, flags), (4, 0), (2, r.domain), (2, 0)] ++ wrapped ++
      fitBytes 16 r.sourcePool)
  else
    fitBytes 128 (fields [(4, r.id), (1, rootKindCode r.kind), (1, rootStateCode r.state), (2, flags), (4, r.nsid), (2, r.domain),
      (1, r.layout), (1, r.service), (8, mpa), (8, r.size), (4, r.parent), (2, r.subsystem), (2, r.ana), (8, r.fenceBell),
      (8, r.fenceEpoch), (8, r.until_), (8, r.created), (8, r.quota)] ++ fitBytes 16 r.sourcePool ++
      fields [(4, r.sourceRoot), (4, r.sourceSnap)])

/-! ### Dirty pages -/

/-- The number of a root's record: its own, or the reserved one of a domain. -/
def Root.number (r : Root) : Nat := if r.kind = .domain then 0xFFFFF000 + r.domain else r.id

/-- A leaf as the trees of this head name it: its ledger half is its own. -/
def State.ownHalf (s : State) (p : Nat × (Nat × Nat)) : Nat × (Nat × Nat) := if p.1 = 3 then (3, (s.sys.slot, p.2.2)) else p

/-- The leaves this head's records since its last checkpoint dirty; a head that carries the pair answers for the peer's as well. -/
def State.dirtyLeaves (s : State) (upTo : Nat) : List (Nat × (Nat × Nat)) :=
  let l := s.ftl.tail ++ (if s.peerAbsent then s.ftl.mirror else [])
  ((l.filter (fun r => s.saved.last.epoch ≤ r.epoch && r.epoch ≤ upTo)).flatMap (fun r => (dirtyOf r.body).map s.ownHalf)).eraseDups

/-- The applied position of a page in an image: the higher of its two writers'; the image's own where no record has changed it. -/
def MetaImage.position (m : MetaImage) (slot : Nat) (p : Nat × (Nat × Nat)) : Nat × (Nat × Nat) :=
  match getKey (appliedKey p 0) m.applied, getKey (appliedKey p 1) m.applied with
  | none, none => (m.epoch, (slot, m.seq))
  | some a, none => (a.1, (0, a.2))
  | none, some b => (b.1, (1, b.2))
  | some a, some b => if a.1 ≤ b.1 then (b.1, (1, b.2)) else (a.1, (0, a.2))

/-- The bytes of a leaf as an image holds it. -/
def State.leafBytes (s : State) (m : MetaImage) (p : Nat × (Nat × Nat)) : Bytes :=
  let tree := p.2.1
  let key := p.2.2
  let (e, h, q) := m.position s.sys.slot (if p.1 = 3 then (3, (0, p.2.2)) else p)
  if p.1 = 1 then
    mapLeaf tree key (((m.roots.find? (fun r => r.id == tree && r.kind != .domain)).bind (fun r => getKey key r.leaves)).getD
      ⟨m.epoch, 0, []⟩) e h q
  else if p.1 = 2 then
    ctPage tree key e h q (m.ct.filter (fun c => cidOwner c.1 == tree && c.1 % 2 ^ 47 / 126 == key))
  else if p.1 = 3 then
    ledgerPage tree key e h q (m.blocks.filter (fun b => b.1 / 63 == key && s.ownsDie (blkBay b.1) (blkDie b.1)))
  else
    let rs := m.roots.filter (fun r => r.number / 31 == key)
    treePage "BRCVOLDR" 0 0 rs.length key 0 e h q
      (layEntries 31 128 (rs.map (fun r => (r.number % 31, s.rootBytes r ((getKey (pageId 1 r.id (mapDepth r.size - 1) 0) s.ftl.mpas).getD 0)))))

/-- The magic of a tree's internal pages. -/
def treeMagic (kind : Nat) : String :=
  if kind = 1 then "BRCMAPPG" else if kind = 2 then "BRCCTBPG" else if kind = 3 then "BRCLEDPG"
  else if kind = 4 then "BRCTALPG" else if kind = 5 then "BRCIDXDR" else "BRCVOLDR"

/-- The first key a page covers: a grain index in a map, a page key in the other trees (Table 8-3). -/
def firstKey (kind level key : Nat) : Nat := key * 504 ^ (if kind = 1 then level + 1 else level)

/-- Pages of one level are written; each takes its MPA with a MAP_PAGE record (R283, Table 8-6). -/
def writeLevel (level : Nat) (pages : List ((Nat × (Nat × Nat)) × Bytes)) (s : State) : State :=
  let (s1, l) := writeMeta (pages.map (·.2)) s
  (pages.zip l).foldl (fun t x =>
    let p := x.1.1
    let id := pageId p.1 p.2.1 level p.2.2
    let old := (getKey id t.ftl.mpas).getD 0
    let t1 := journal (.mapPage p.1 p.2.1 level (firstKey p.1 level p.2.2) old x.2)
      { t with ftl := { t.ftl with mpas := putKey id x.2 t.ftl.mpas, ckptPages := t.ftl.ckptPages + 1 } }
    if p.1 = 1 ∧ level = 0 then
      match t1.ftl.root p.2.1 with
      | none => t1
      | some r => setRoot { r with leaves := r.leaves.map (fun y => if y.1 == p.2.2 then (y.1, { y.2 with mpa := x.2 }) else y) } t1
    else t1) s1

/-- The internal page above some pages: the MPAs of its children (R287). Index pages stand below the level 0 of their directory (Table 10-6). -/
def State.innerBytes (s : State) (m : MetaImage) (level : Nat) (p : Nat × (Nat × Nat)) : Bytes :=
  let kids := (List.range 504).filterMap (fun i =>
    (getKey (pageId p.1 p.2.1 (level - 1) (504 * p.2.2 + i)) s.ftl.mpas).map (fun a => (i, a)))
  innerPage (treeMagic p.1) p.2.1 (if p.1 = 5 then level - 1 else level) (firstKey p.1 level p.2.2) 0 m.epoch s.sys.slot m.seq kids

/-- Tail pages and index pages of this head's half written since the last checkpoint: the pages above them are dirty (R303). -/
def State.movedLeaves (s : State) : List (Nat × (Nat × Nat)) :=
  (s.ftl.mpas.filter (fun x => (x.1 / 2 ^ 112 == 4 || x.1 / 2 ^ 112 == 5) && x.1 / 2 ^ 64 % 256 == 0 &&
    getKey x.1 s.saved.last.mpas != some x.2 && (x.1 / 2 ^ 72 % 2 ^ 40 == s.sys.slot || s.peerAbsent))).map (fun x =>
      (x.1 / 2 ^ 112, (x.1 / 2 ^ 72 % 2 ^ 40, x.1 % 2 ^ 64)))

/-- The tree is whole at a level: one page, with no page of the level beyond the first; an index page has a directory page above it. -/
def State.topAt (s : State) (level kind tree : Nat) : Bool :=
  !(kind == 5 && level == 0) && !s.ftl.mpas.any (fun x => pageId kind tree level 1 ≤ x.1 && x.1 < pageId kind tree (level + 1) 0)

/-- Levels above written pages, up to the root of each tree (R284, R285): `n` bounds the depth. -/
def writeUp (m : MetaImage) : Nat → Nat → List (Nat × (Nat × Nat)) → State → State
  | 0, _, _, s => s
  | n + 1, level, below, s =>
    let up := ((below.filter (fun p => !s.topAt (level - 1) p.1 p.2.1)).map (fun p => (p.1, (p.2.1, p.2.2 / 504)))).eraseDups
    if up = [] then s
    else writeUp m n (level + 1) up (writeLevel level (up.map (fun p => (p, s.innerBytes m level p))) s)

/-- The root of a tree: the highest page numbered 0 that is written. -/
def State.treeRoot (s : State) (kind tree : Nat) : Nat :=
  (((if kind = 5 then [6, 5, 4, 3, 2, 1] else [5, 4, 3, 2, 1, 0]).findSome? (fun l => getKey (pageId kind tree l 0) s.ftl.mpas))).getD 0

/-- The metadata as it stands, as a checkpoint at this epoch holds it. -/
def State.metaImage (s : State) : MetaImage where
  epoch := s.epoch
  seq := s.ftl.nextSeq
  roots := s.ftl.roots
  nextRoot := s.ftl.nextRoot
  ct := s.ftl.ct
  blocks := s.ftl.blocks
  index := s.ddp.index
  pages := s.ddp.pages
  groups := s.ec.groups
  opened := s.ec.opened
  tails := s.ftl.tails
  applied := s.ftl.applied
  mpas := s.ftl.mpas

/-- Three quarters of the tail are full (R303). -/
def Ftl.tailHigh (f : Ftl) : Bool := 3 * f.tailMib * 2 ^ 20 ≤ 4 * f.tailBytes

/-- CHECKPOINT_START: 4,096 epochs after the last one, or when the tail is 3/4 full: CHECKPOINT phase 1 at epoch S
(R303 step 1). -/
def execCheckpointStart (s : State) : Host.Outcome State Fault Refusal :=
  whenDue (s.pool.isSome ∧ s.ftl.checkpoint = 0 ∧ (s.ftl.ckptLast + 4096 ≤ s.epoch ∨ s.ftl.tailHigh = true))
    (let t := journal (.checkpoint 1 0) s
     { t with
       saved := { t.saved with doing := some t.metaImage }
       ftl := { t.ftl with checkpoint := 1, ckptEpoch := s.epoch, ckptLast := s.epoch, ckptPages := 0, ckptDir := none } }) s

/-- The pages of a checkpoint whose epochs are durable are written, and the directory after them (R303 steps 2
and 3). -/
def checkpointPages (s : State) : State :=
  match s.saved.doing with
  | none => s
  | some m =>
    if s.ftl.checkpoint ≠ 1 ∨ s.ftl.durable < s.ftl.ckptEpoch ∨ s.ftl.ckptDir.isSome = true then s
    else
      let ds : List (Nat × (Nat × Nat)) := (s.dirtyLeaves m.epoch).filter (fun p => p.1 != 6)
      let s1 := writeUp m 6 1 (ds ++ s.movedLeaves) (writeLevel 0 (ds.map (fun p => (p, s.leafBytes m p))) s)
      let vs : List (Nat × (Nat × Nat)) := ((s.dirtyLeaves m.epoch).filter (fun (p : Nat × (Nat × Nat)) => p.1 == 6) ++
        (ds.filter (fun (p : Nat × (Nat × Nat)) => p.1 == 1)).map (fun (p : Nat × (Nat × Nat)) => (6, (0, p.2.1 / 31)))).eraseDups
      let s2 := writeUp m 5 1 vs (writeLevel 0 (vs.map (fun p => (p, s1.leafBytes m p))) s1)
      let dir := directoryPage s.sys.slot m.epoch ((s.pool.map (·.ckptDir)).getD 0) (s2.treeRoot 6 0)
        [s2.treeRoot 2 0, s2.treeRoot 2 1, s2.treeRoot 5 0, s2.treeRoot 5 1, s2.treeRoot 3 0, s2.treeRoot 3 1,
         s2.treeRoot 4 0, s2.treeRoot 4 1]
      match writeMeta [dir] s2 with
      | (s3, mpa :: _) => { s3 with ftl := { s3.ftl with ckptDir := some mpa, ckptPages := s3.ftl.ckptPages + 1 } }
      | (s3, []) => s3

/-- A programme of a metadata page is waiting or outstanding. -/
def State.metaBusy (s : State) : Bool :=
  (s.bay.waiting ++ s.bay.outstanding).any (fun o => match o.use with
    | .metaPage .. => true
    | _ => false)

/-- CHECKPOINT_PHASE2: the pages and the directory are written: CHECKPOINT phase 2 with the directory's MPA
(R303 step 4). -/
def execCheckpointPhase2 (s : State) : Host.Outcome State Fault Refusal :=
  match s.ftl.ckptDir with
  | none => .next s
  | some mpa =>
    whenDue (s.ftl.checkpoint = 1 ∧ s.metaBusy = false)
      (afterDurable s.epoch .checkpoint
        (journal (.checkpoint 2 mpa) { s with ftl := { s.ftl with checkpoint := 2 } })) s

/-! ### Metadata blocks that hold nothing live (R283, R303, R306) -/

/-- The MPAs of the pages that stand: of the trees, the index and the checkpoint directory. -/
def State.livePages (s : State) : List Nat :=
  s.ftl.mpas.map (·.2) ++ s.ddp.pages.map (·.2) ++ s.ftl.ckptDir.toList ++ (s.pool.map (·.ckptDir)).toList

/-- An MPA lies in a block of a triad: die within the form, block. -/
def mpaIn (mpa t die block : Nat) : Bool :=
  mpa != 0 && bitField 63 50 mpa == t && bitField 49 46 mpa == die && bitField 45 33 mpa == block

/-- A Full block of a triad holds no live page: none of a tree or of the index, and, where the triad carries the journal, no page of an
epoch that a replay begins at (R300, R303, R345). -/
def State.deadIn (s : State) (i : TtImage) (t : Nat) (b : Nat) : Bool :=
  let replay := min ((s.pool.map (·.ckptEpoch)).getD 0) s.ec.sjEpoch
  !s.livePages.any (fun m => mpaIn m t (blkDie b % 16) (blkNo b)) && (!i.triadRole t 4 || (s.ftl.ledger b).fullEpoch < replay)

/-- Full metadata blocks that hold nothing live any more become Pending-Erase and are erased under R307. -/
def freeDead (s : State) : State :=
  match s.tt.active with
  | none => s
  | some i =>
    let grouped := s.ec.groups.flatMap (fun g => g.blocks ++ g.second)
    (List.range i.triads).foldl (fun t n =>
      (t.triadForms n).foldl (fun u f =>
        ((u.ftl.blocks.filter (fun e => e.2.state == .full && blkBay e.1 == (i.form f).bay && blkDie e.1 / 16 == (i.form f).group &&
          !grouped.contains e.1 && u.ownsDie (blkBay e.1) (blkDie e.1) && u.deadIn i n e.1)).map (·.1)).foldl (fun v b =>
            afterDurable v.epoch (.erasable b) (setBlkState b .pendingErase v)) u) t) s

/-- The checkpoint whose phase 2 is durable is the pool's newest: records before its epoch S are dead, and the
superblock names it in an anchor write (R300, R303, R380). -/
def checkpointDone (s : State) : State :=
  match s.saved.doing with
  | none => s
  | some m =>
    let keep := fun (r : JRec) => m.epoch ≤ r.epoch
    let s1 := freeDead { s with
      saved := ⟨m, none, s.saved.flushed, s.saved.log.filter keep⟩
      ftl := { s.ftl with checkpoint := 0, tail := s.ftl.tail.filter keep, mirror := s.ftl.mirror.filter keep }
      pool := s.pool.map (fun p => { p with ckptDir := s.ftl.ckptDir.getD p.ckptDir, ckptEpoch := m.epoch }) }
    tallyAdd 0x0A 7 1 (anchorWrite s1)

/-! ### Stripe journal checkpoints (R345) -/

/-- The group record pages, in the journal-role triads, each naming the next: written from the last to the first, so that a page knows its
successor's MPA. -/
def writeGroups : List Group → State → State × Nat
  | [], s => (s, 0)
  | g :: r, s =>
    let (s1, next) := writeGroups r s
    match writeMetaAs 4 2 [groupPage g next] s1 with
    | (s2, mpa :: _) => (s2, mpa)
    | (s2, []) => (s2, 0)

/-! ### The metadata cache (R294) -/

/-- Pages the metadata cache has room for: its size, 1/8 of the head's DRAM where this head was not told it (R294; DESIGN CHOICE: the
least the rule allows, as no superblock holds the size), less the internal pages, which stay. -/
def State.cachePages (s : State) : Nat :=
  let all := match (s.pool.map (·.cacheGib)).getD 0 with
    | 0 => s.dram.gib * 2 ^ 15
    | n => n * 2 ^ 18
  all - (s.ftl.mpas.filter (fun x => (x.1 / 2 ^ 112 == 1 || x.1 / 2 ^ 112 == 2) && x.1 / 2 ^ 64 % 256 != 0)).length

/-- The tree page of a name in the cache. -/
def namedPage (p : Nat × Nat) : Nat := if p.1 < 2 ^ 32 then pageId 1 p.1 0 p.2 else pageId 2 (p.1 - 2 ^ 32) 0 p.2

/-- At a bell the cache is brought to its size, the least recently used leaf pages first, dirty ones kept; and pages that records
changed while they were not resident are read in (R294). DESIGN CHOICE: such a read is a foreground read, as those of R295 are. -/
def cacheBell (s : State) : State :=
  let excess := s.ftl.used.length - s.cachePages
  if excess = 0 ∧ s.ftl.absent = [] then s
  else
    let dirty := (s.dirtyLeaves s.epoch).filterMap cacheName
    let out := (s.ftl.used.filter (fun p => !dirty.contains p && (getKey (namedPage p) s.ftl.mpas).isSome)).take excess
    let s1 := { s with ftl := { s.ftl with
      used := s.ftl.used.filter (fun p => !out.contains p), absent := s.ftl.absent ++ out.filter (fun p => !s.ftl.absent.contains p) } }
    (dirty.filter (fun p => s1.ftl.absent.contains p && !s1.ftl.lostPages.contains p)).foldl (fun t p =>
      if (t.bay.waiting ++ t.bay.outstanding).any (fun o => o.use == .metadata p.1 p.2) then t
      else fetchMeta p.1 p.2 ((getKey (namedPage p) t.ftl.mpas).getD 0) t) s1

/-- The leaf pages that a checkpoint's trees hold on flash: after a start none of them is resident (R294, R305). -/
def MetaImage.leafPages (m : MetaImage) : List (Nat × Nat) :=
  (m.mpas.filter (fun x => (x.1 / 2 ^ 112 == 1 || x.1 / 2 ^ 112 == 2) && x.1 / 2 ^ 64 % 256 == 0)).map (fun x =>
    ((if x.1 / 2 ^ 112 = 2 then 2 ^ 32 else 0) + x.1 / 2 ^ 72 % 2 ^ 40, x.1 % 2 ^ 64))

/-- SJ_CHECKPOINT_START: every 4,096 epochs the stripe journal writes a checkpoint: phase 1, the record of every
group not yet released, ascending, and phase 2 (R345, R378). -/
def execSjCheckpointStart (s : State) : Host.Outcome State Fault Refusal :=
  whenDue (s.pool.isSome ∧ s.ec.checkpoint = 0 ∧ s.ec.ckptLast + 4096 ≤ s.epoch)
    (let gs := sortBy (fun a b => a.id ≤ b.id) (s.ec.groups.filter (fun g => g.id / 2 ^ 63 == s.sys.slot))
     let s1 := journal (.sjCheckpoint 1 0 0) { s with ec := { s.ec with checkpoint := 2, ckptLast := s.epoch } }
     let (s2, mpa) := writeGroups gs s1
     afterDurable s.epoch .sjCheckpoint (journal (.sjCheckpoint 2 mpa gs.length)
       { s2 with ftl := { s2.ftl with sjDir := some (mpa, gs.length) } })) s

/-- The stripe journal checkpoint whose phase 2 is durable is named by the superblock (R345, R380). -/
def sjCheckpointDone (s : State) : State :=
  match s.ftl.sjDir with
  | none => s
  | some (mpa, n) =>
    anchorWrite { s with
      ec := { s.ec with checkpoint := 0, sjEpoch := s.ec.ckptLast }
      ftl := { s.ftl with sjDir := none }
      pool := s.pool.map (fun p => { p with groupPage := mpa, groupCount := n }) }

end Sys2Proof.Machine
end

