-- ==== Sys2Proof/Machine/Members.lean ====
section
/-! DEFINITION. Member states, detention, failure, offline volumes and what is left to rebuild (R353 to R362,
R641). -/

namespace Sys2Proof.Machine

/-- The island of a bay port group. -/
def bayIsland (bay : Nat) : Nat := 21 + bay / 16

/-- A member whose strips do not serve: Failed, or Missing and not rebuilt (R357, R361). -/
def Member.gone (m : Member) : Bool := (m.state == .failed || m.state == .missing) && !m.rebuilt

/-- Positions of a group on members that are gone. -/
def Ec.goneIn (e : Ec) (g : Group) : List Nat :=
  (List.range g.blocks.length).filter (fun i => (e.member (blkBay (g.blocks.getD i 0))).any Member.gone)

/-- The most strips that stripes of a group lack beside those on members that are gone: strips left unwritten, which count as lying
on a member that is not In service (R641), and one for a mismatch that is not located (R351). -/
def Ec.lacks (e : Ec) (g : Group) : Nat :=
  ((g.stripes.map (fun x => (x.unwritten.filter (fun i => !(e.goneIn g).contains i)).eraseDups.length +
    (if e.weak.contains (g.id, x.number) then 1 else 0))).max?).getD 0

/-- The redundancy left of a group (R361). -/
def Ec.left (e : Ec) (g : Group) : Nat := g.m - ((e.goneIn g).length + e.lacks g)

/-- A member may become Failed: no stripe would have more than m strips on members that are gone (R357). -/
def Ec.mayFail (e : Ec) (bay : Nat) : Bool :=
  e.groups.all (fun g =>
    let l := (List.range g.blocks.length).filter (fun i =>
      let b := blkBay (g.blocks.getD i 0)
      b == bay || (e.member b).any Member.gone)
    !(g.blocks.any (fun b => blkBay b == bay)) || l.length ≤ g.m)

/-- Layouts with a stripe of which Missing members hold more than m strips (R358). -/
def Ec.offlineNow (e : Ec) : List Nat :=
  ((e.groups.filter (fun g =>
    g.m < ((List.range g.blocks.length).filter (fun i =>
      (e.member (blkBay (g.blocks.getD i 0))).any (fun m => m.state == .missing))).length)).map (·.layout)).eraseDups

/-- The bytes parity covers of a strip as they stand in a programme's data (R327, R401). -/
def coveredOf (data : Bytes) : Bytes :=
  (List.range 4).flatMap (fun pg => slice data (16640 * pg) 16384 ++ slice data (16640 * pg + 16416) 224)

/-- An operation programmes data strips of a stripe from a position on. -/
def DieOp.stripFrom (op : DieOp) (group stripe pos : Nat) : Bool :=
  match op.use with
  | .strip g x p => g == group && x == stripe && pos ≤ p
  | _ => false

/-- An operation programmes a parity strip of a stripe. -/
def DieOp.parityOf (op : DieOp) (group stripe : Nat) : Bool :=
  match op.use with
  | .parity g x _ _ => g == group && x == stripe
  | _ => false

/-- The parity of a stripe without some of its strips: that of its waiting parity programmes, or of the accumulators while it is
being filled, less what those strips put in. -/
def Group.accumWithout (g : Group) (x : Stripe) (strips parity : List DieOp) : List Bytes :=
  (List.range g.m).map (fun j =>
    let whole := match parity.find? (fun o => match o.use with
        | .parity _ _ c _ => c == j
        | _ => false) with
      | some o => coveredOf o.data
      | none => if x.writing.isSome then [] else g.accum.getD j []
    strips.foldl (fun acc o => match o.use with
      | .strip _ _ p => xorBytes (scale (parityCoef j p) (coveredOf o.data)) (fitBytes 66432 acc)
      | _ => acc) whole)

/-- A stripe whose data strip at a position is not posted and lies on a member that takes it no more ends before that strip: what waits
of it is withdrawn, the slots of the strips seek another place, and it closes with what it has; with nothing new it keeps the version
it had, or has none (R641). -/
def cutStripe (id number pos : Nat) (s : State) : State :=
  match (s.ec.group id).bind (fun g => (g.stripe number).map (fun x => (g, x))) with
  | none => s
  | some (g, x) =>
    let strips := s.bay.waiting.filter (fun o => o.stripFrom id number pos)
    let parity := s.bay.waiting.filter (fun o => o.parityOf id number)
    let here := g.waiting.filter (fun p => p.stripe == number && pos ≤ p.pos)
    let y := { x with
      pending := x.pending - (strips.length + parity.length), writing := none
      unwritten := x.unwritten.filter (fun i => i < g.k), final := x.final || decide (pos ≤ x.a) }
    let filling := if g.cur = some number then [] else g.filling
    let s1 := seekPlace g.layout (here ++ (if g.cur = some number then g.filling else [])) { s with bay := { s.bay with
      waiting := s.bay.waiting.filter (fun o => !o.stripFrom id number pos && !o.parityOf id number) } }
    let g1 := { g.setStripe y with
      waiting := g.waiting.filter (fun p => !(p.stripe == number && pos ≤ p.pos))
      accum := g.accumWithout x strips parity, cur := some number, posted := pos, filling := [] }
    let s2 := if pos ≤ x.a then setGroup { g1 with cur := none, posted := 0 } s1 else closeStripe id true (setGroup g1 s1)
    match s2.ec.group id with
    | none => s2
    | some h =>
      if !h.isOpen then seekPlace h.layout filling s2
      else if g.cur = some number ∨ g.cur = none then setGroup { h with filling := filling } s2
      else setGroup { h with cur := g.cur, posted := g.posted, accum := g.accum, filling := filling } s2

/-- The first data strip of a stripe that waits for a member: group, stripe, position. -/
def Bays.firstOn (b : Bays) (bay : Nat) : List (Nat × (Nat × Nat)) :=
  let l := b.waiting.filterMap (fun o => match o.use with
    | .strip g x p => if o.bay == bay then some (g, (x, p)) else none
    | _ => none)
  l.filter (fun a => l.all (fun c => c.1 != a.1 || c.2.1 != a.2.1 || a.2.2 ≤ c.2.2))

/-- A parity strip that waits for a member that takes it no more is left unwritten (R641); so are its strips of a vault image. -/
def dropParity (bay : Nat) (s : State) : State :=
  let gone := s.bay.waiting.filter (fun o => o.bay == bay && (match o.use with
    | .parity .. => true
    | .vaultStrip _ => o.opcode == 2
    | _ => false))
  gone.foldl (fun t o => match o.use with
    | .parity g x j _ => (match t.ec.group g with
      | none => t
      | some y => setGroup { y with stripes := y.stripes.map (fun z =>
          if z.number = x then { z with pending := z.pending - 1, unwritten := z.unwritten ++ [y.k + j] } else z) } t)
    | _ => t) { s with bay := { s.bay with waiting := s.bay.waiting.filter (fun o => !gone.any (fun w => w.tag == o.tag)) } }

/-- Programmes that wait for a member that left service are withdrawn: no strip of a stripe is programmed on it (R356, R641). A Failed
member takes nothing at all. -/
def withdrawOn (bay : Nat) (s : State) : State :=
  let s1 := dropParity bay ((s.bay.firstOn bay).foldl (fun t a => cutStripe a.1 a.2.1 a.2.2 t) s)
  if (s1.ec.member bay).any (fun m => m.state == .failed) then
    { s1 with bay := { s1.bay with waiting := s1.bay.waiting.filter (fun o => o.bay != bay || (o.opcode != 2 && o.opcode != 3)) } }
  else s1

/-- The open groups of this head with a block on a bay close after their stripe closes early (R641). -/
def closeGroupsOn (bay : Nat) (s : State) : State :=
  (s.ec.groups.filter (fun g => g.isOpen && g.id / 2 ^ 63 == s.sys.slot &&
    (g.blocks ++ g.second).any (fun b => blkBay b == bay))).foldl (fun t g => closeGroup g.id (closeEarly g.id t)) s

/-- The blocks of this head's groups on a bay: group and position (R359). -/
def State.groupBlocksOn (s : State) (bay : Nat) : List (Nat × Nat) :=
  (s.ec.groups.filter (fun g => g.id / 2 ^ 63 == s.sys.slot || s.peerAbsent)).flatMap (fun g =>
    ((List.range (g.blocks.length + g.second.length)).filter (fun i =>
      blkBay ((g.blocks ++ g.second).getD i 0) == bay)).map (fun i => (g.id, i)))

/-- The triad copies on a bay: triad and copy (R360). -/
def State.triadCopiesOn (s : State) (bay : Nat) : List (Nat × Nat) :=
  match s.tt.active with
  | none => []
  | some i => (List.range i.triads).flatMap (fun t =>
      ((List.range 3).filter (fun c => (i.form ((s.triadForms t).getD c 0)).bay == bay)).map (fun c => (t, c)))

/-- Layouts whose condition holds go offline; a return waits for the bell (R358). -/
def goOffline (s : State) : State :=
  { s with ec := { s.ec with offline := (s.ec.offline ++ s.ec.offlineNow).eraseDups } }

/-- A member moves to a state of Table 9-10: the event, the configuration write, and what follows for its
groups and for the volumes (R353, R358, R380, R641). -/
def memberTo (bay : Nat) (st : MemberState) (s : State) : State :=
  match s.ec.member bay with
  | none => s
  | some m =>
    if m.state = st ∨ m.state = .failed then s
    else
      let s1 := setMember { m with
        state := st, since := s.tt.now, misses := 0, onTime := 0, detain := false }
        { s with ec := { s.ec with awaiting := s.ec.awaiting.filter (· != bay) } }
      let s2 := event 0x8001 (bayIsland bay) (argOf [(0, bay), (1, memberCode m.state), (2, memberCode st)]) s1
      let s3 := if m.state = .inService then closeGroupsOn bay (withdrawOn bay s2)
        else if st = .failed then withdrawOn bay s2 else s2
      let s4 := if st = .failed then
          { s3 with ec := { s3.ec with
            rebuild := s3.ec.rebuild ++ s3.groupBlocksOn bay
            rebuildTriads := s3.ec.rebuildTriads ++ s3.triadCopiesOn bay } }
        else s3
      let s5 := if st = .inService then
          let left := (s4.ec.groups.filter (fun g => g.stripes.any (fun x => x.unwritten.any (fun i =>
            blkBay ((g.blocks ++ g.second).getD i 0) == bay)))).flatMap (fun g =>
              ((List.range (g.blocks.length + g.second.length)).filter (fun i =>
                blkBay ((g.blocks ++ g.second).getD i 0) == bay)).map (fun i => (g.id, i)))
          { s4 with ec := { s4.ec with rebuild := s4.ec.rebuild ++ left } }
        else s4
      configWrite (goOffline s5)

/-- A member fails where redundancy allows; else it stays and waits for the operator, and the event says so once (R357). -/
def failIfAllowed (bay : Nat) (s : State) : State :=
  if s.ec.mayFail bay then memberTo bay .failed s
  else if s.ec.awaiting.contains bay then s
  else event 0x8002 (bayIsland bay) bay { s with ec := { s.ec with awaiting := s.ec.awaiting ++ [bay] } }

/-- A bridge that cannot continue makes its member Failed; one in Detention or Missing only where redundancy allows
(R357, Table 11-6). -/
def bridgeFailed (bay : Nat) (s : State) : State :=
  if s.ec.serving bay then memberTo bay .failed s else failIfAllowed bay s

/-- At a bell members whose misses reached 8 enter Detention, members with 64 operations on time leave it, and
volumes go offline or return (R354, R355, R358). -/
def memberBell (s : State) : State :=
  let s1 := s.ec.members.foldl (fun t m =>
    if m.detain && m.state == .inService then memberTo m.bay .detention t
    else if m.state == .detention && 64 ≤ m.onTime then memberTo m.bay .inService t
    else t) s
  { s1 with ec := { s1.ec with offline := s1.ec.offlineNow } }

/-- A die has a written block. -/
def Ftl.written (f : Ftl) (bay die : Nat) : Bool :=
  f.blocks.any (fun e => blkBay e.1 == bay && blkDie e.1 == die && (e.2.state == .isOpen || e.2.state == .full))

/-- The die of a form that its next probe goes to: in ascending order, round, over the dies that have a written block (R355). -/
def State.probeDie (s : State) (form bay group : Nat) : Option Nat :=
  let l := ((List.range 16).map (16 * group + ·)).filter (s.ftl.written bay)
  match getKey form s.ec.probed with
  | none => l.head?
  | some d => (l.find? (fun x => d < x)).or l.head?

/-- DETENTION_PROBE: at a Recess bell of a form of a member in Detention with no probe outstanding, a READ of
a written page is posted, of the form's dies in turn; the block and page are the head's own choice (R355). -/
def execDetentionProbe (form die block page : Nat) (s : State) : Host.Outcome State Fault Refusal :=
  match s.tt.active with
  | none => .next s
  | some i =>
    let fm := i.form form
    let busy := (s.bay.outstanding ++ s.bay.waiting).any (fun o =>
      o.bay == fm.bay && o.die / 16 == fm.group && o.use == .probe)
    let b := blkKey fm.bay die block
    whenDue ((s.ec.member fm.bay).any (fun m => m.state == .detention) = true ∧ busy = false ∧ s.formClass form = 4 ∧
        s.probeDie form fm.bay fm.group = some die ∧ ((s.ftl.ledger b).state = .isOpen ∨ (s.ftl.ledger b).state = .full))
      (readOp b page 0 4 .probe { s with ec := { s.ec with probed := putKey form die s.ec.probed } }) s

/-- DETENTION_TIMEOUT: 30 s in Detention without 64 operations on time, and the member becomes Failed where
redundancy allows (R355, R357). -/
def execDetentionTimeout (bay : Nat) (s : State) : Host.Outcome State Fault Refusal :=
  whenDue ((s.ec.member bay).any (fun m => m.state == .detention && m.since + secBells 30 ≤ s.tt.now) = true)
    (failIfAllowed bay s) s

/-- MISSING_TIMEOUT: 30 s Missing, and the member becomes Failed where redundancy allows (R355, R357). -/
def execMissingTimeout (bay : Nat) (s : State) : Host.Outcome State Fault Refusal :=
  whenDue ((s.ec.member bay).any (fun m => m.state == .missing && m.since + secBells 30 ≤ s.tt.now) = true)
    (failIfAllowed bay s) s

/-- VOLUME_OFFLINE: Missing members hold more than m strips of some stripe of a layout; its volumes are refused (R358). -/
def execVolumeOffline (s : State) : Host.Outcome State Fault Refusal :=
  .next (goOffline s)

end Sys2Proof.Machine
end

