-- ==== Sys2Proof/Machine/Blocks.lean ====
section
/-! DEFINITION. The end of a block's life: live slots, Pending-Erase, the release of a group (R306, R307, R309, R334). -/

namespace Sys2Proof.Machine

/-- A content-table record keeps its slot live: allocated, with a PSA, not reclaim-chosen (R309). -/
def CtRec.live (r : CtRec) : Bool := bitAt 0 r.flags && r.psa != 0 && !bitAt 6 r.flags

/-- The CIDs whose live slot lies in a block. -/
def Ftl.liveIn (f : Ftl) (blk : Nat) : List Nat := (f.ct.filter (fun c => c.2.live && psaBlk c.2.psa == blk)).map (·.1)

/-- Every data block of a group is Pending-Erase, or Retired without a live slot. -/
def State.groupSpent (s : State) (g : Group) : Bool :=
  !g.isOpen && g.waiting == [] && (g.blocks.take g.k).all (fun b =>
    let e := s.ftl.ledger b
    e.state == .pendingErase || (e.state == .retired && s.ftl.liveIn b == []))

/-- A group whose data blocks are all Pending-Erase is released: GROUP_RELEASE, its parity blocks Pending-Erase, and its
blocks may be erased from 64 periods after the epoch is durable (R307, R334). -/
def releaseGroup (id : Nat) (s : State) : State :=
  match s.ec.group id with
  | none => s
  | some g =>
    if !s.groupSpent g then s
    else
      let parity := g.blocks.drop g.k ++ g.second
      let s1 := journal (.groupRelease id) { s with ec := { s.ec with groups := s.ec.groups.filter (fun x => x.id != id) } }
      let s2 := parity.foldl (fun t b => if (t.ftl.ledger b).state = .full then setBlkState b .pendingErase t else t) s1
      (g.blocks ++ g.second).foldl (fun t b =>
        if (t.ftl.ledger b).state = .pendingErase then afterDurable t.epoch (.erasable b) t else t) s2

/-- A Full block whose last live slot has been relocated or dropped becomes Pending-Erase, its move ends, and its group
is released when it was the last (R306, R334). -/
def settleBlock (blk : Nat) (s : State) : State :=
  if s.ftl.liveIn blk ≠ [] then s
  else
    let s1 := { s with ftl := { s.ftl with moves := s.ftl.moves.filter (fun m => m.blk != blk) } }
    let e := s1.ftl.ledger blk
    let s2 := if e.state = .full then setBlkState blk .pendingErase s1 else s1
    match s2.ec.locate blk with
    | none => if e.state = .full then afterDurable s2.epoch (.erasable blk) s2 else s2
    | some (g, _) => releaseGroup g.id s2

end Sys2Proof.Machine
end

