-- ==== Sys2Proof/Machine/Reads.lean ====
section
/-! DEFINITION. Slot reads: the die read of a slot, the sources of a reconstruction (R280, R308, R347 to R349,
R356). -/

namespace Sys2Proof.Machine

/-- The slot read of a number. -/
def Jobs.read (j : Jobs) (job : Nat) : Option SlotRead := j.reads.find? (fun r => r.job == job)

/-- A slot read replaced. -/
def setRead (r : SlotRead) (s : State) : State :=
  { s with jobs := { s.jobs with reads := s.jobs.reads.map (fun x => if x.job == r.job then r else x) } }

/-- A slot read ends. -/
def dropRead (job : Nat) (s : State) : State :=
  { s with jobs := { s.jobs with reads := s.jobs.reads.filter (fun x => x.job != job) } }

/-- Background work is posted as Recess reads, everything else as foreground reads (R46, R194). -/
def readClass : ReadWhy → Nat
  | .move _ => 4
  | .patrol => 4
  | .transfer _ => 4
  | .host .. => 1
  | .completion _ => 1
  | .verify _ => 1

/-- The bytes of a slot in a strip that parity covers: its quarters and their envelopes (R327). -/
def coveredLength (tier : Nat) : Nat := tier * (4096 + 56)

/-- A written strip of a stripe as a source: its position, the block and strip that hold it; none for a data
strip beyond a, which counts as zero. -/
def Group.sourceAt (g : Group) (x : Stripe) (i : Nat) : Option (Nat × Nat) :=
  if i < g.k then (if i < x.a then some (g.blocks.getD i 0, x.number) else none)
  else x.pointer.map (fun p => g.parityAt (i - g.k) p)

/-- A strip of a stripe lost one of its pages: what stands there are zeros (R363). -/
def Group.lostAt (g : Group) (x : Stripe) (i page : Nat) : Bool :=
  let p := x.pointer.getD 0
  if i < g.k then g.lost.any (fun l => l.1 == i && l.2.1 == 4 * x.number + page)
  else g.lost.any (fun l => l.1 == (if p < 1024 then i else i + g.m) && l.2.1 == 4 * (p % 1024) + page)

/-- The positions a slot at a position may be reconstructed from, by the page of the strip it lies in: zero strips first, then strips on
members In service in the order their forms' bells come (R347); a lost page is no source. -/
def State.candidates (s : State) (g : Group) (x : Stripe) (pos page : Nat) : List Nat :=
  let all := (List.range (g.k + g.m)).filter (fun i =>
    i != pos && !x.unwritten.contains i && !g.lostAt x i page && (i < g.k || x.pointer.isSome))
  let zero := all.filter (fun i => (g.sourceAt x i).isNone)
  let live := all.filter (fun i => (g.sourceAt x i).any (fun b => s.ec.serving (blkBay b.1)))
  let bell := fun (i : Nat) => match g.sourceAt x i with
    | none => 0
    | some (b, _) => ((s.formAt (blkBay b) (blkDie b)).map s.toNonIdle).getD 1025
  zero ++ (sortBy (fun a b => bell a ≤ bell b) live)

/-- The sources of the n-th attempt: the first k candidates, one exchanged for each repeat (R349). -/
def chosen (k attempt : Nat) (c : List Nat) : List Nat :=
  if attempt = 0 then c.take k else (c.eraseIdx (attempt - 1)).take k

/-- The stripe of a slot's address, with its group and position. -/
def Ec.stripeOf (e : Ec) (psa : Nat) : Option (Group × Stripe × Nat) :=
  match e.locate (psaBlk psa) with
  | none => none
  | some (g, pos) => (g.stripe (psaPage psa / 4)).map (fun x => (g, x, pos))

/-- The quarters of a slot in its page, as a mask. -/
def slotMask (psa : Nat) : Nat := (2 ^ psaTier psa - 1) * 2 ^ psaQuarter psa

/-- One source of a reconstruction is read: the pages that hold the slot's byte range. -/
def postSource (r : SlotRead) (b strip i : Nat) (s : State) : State :=
  readOp b (4 * strip + psaPage r.psa % 4) (slotMask r.psa) (readClass r.why) (.slot r.job (i + 1)) s

/-- A reconstruction of the slot begins, or is repeated with a source exchanged; none when the stripe offers too
few sources (R347, R349). -/
def reconstructSlot (job : Nat) (s : State) : Option State :=
  match s.jobs.read job with
  | none => none
  | some r =>
    match s.ec.stripeOf r.psa with
    | none => none
    | some (g, x, pos) =>
      let c := s.candidates g x pos (psaPage r.psa % 4)
      let pick := chosen g.k r.tries c
      if pick.length < g.k ∨ g.m < r.tries then none
      else
        let src := pick.map (fun i => (i, if (g.sourceAt x i).isNone then some (zeros (coveredLength (psaTier r.psa))) else none))
        let s1 := setRead { r with stage := .reconstruct, sources := src, tries := r.tries + 1, rebuilt := true } s
        some (pick.foldl (fun t i =>
          match g.sourceAt x i with
          | none => t
          | some (b, strip) => postSource r b strip i t) s1)

/-- A failed source is replaced by another strip of the stripe; none when there is none left (R349). -/
def replaceSource (job i : Nat) (s : State) : Option State :=
  match s.jobs.read job with
  | none => none
  | some r =>
    match s.ec.stripeOf r.psa with
    | none => none
    | some (g, x, pos) =>
      match (s.candidates g x pos (psaPage r.psa % 4)).find? (fun c => c != i && !r.sources.any (fun p => p.1 == c)) with
      | none => none
      | some c =>
        let keep := r.sources.filter (fun p => p.1 != i)
        match g.sourceAt x c with
        | none => some (setRead { r with sources := keep ++ [(c, some (zeros (coveredLength (psaTier r.psa))))] } s)
        | some (b, strip) => some (postSource r b strip c (setRead { r with sources := keep ++ [(c, none)] } s))

/-- A slot on a member is read directly, or reconstructed: In service directly; in Detention reconstructed when
every source lies on members In service; on any other member reconstructed (R347, R356). -/
def State.readsDirect (s : State) (psa : Nat) : Bool :=
  match s.ec.member (blkBay (psaBlk psa)) with
  | none => true
  | some m =>
    match m.state with
    | .inService => true
    | .detention => (s.ec.stripeOf psa).all (fun y => (s.candidates y.1 y.2.1 y.2.2 (psaPage psa % 4)).length < y.1.k)
    | _ => false

/-- The die read of a slot is queued, or its reconstruction begun. -/
def postRead (r : SlotRead) (s : State) : State :=
  if s.readsDirect r.psa then
    readOp (psaBlk r.psa) (psaPage r.psa) (slotMask r.psa) (readClass r.why) (.slot r.job 0) s
  else (reconstructSlot r.job s).getD s

/-- A slot read starts: its PSA is resolved and its die read is to be posted within 64 periods (R308). -/
def startRead (why : ReadWhy) (grain cid : Nat) (want : List Nat) (s : State) : State :=
  let psa := ((s.ftl.ctRec cid).map (·.psa)).getD 0
  let r : SlotRead := ⟨s.jobs.next, why, grain, cid, psa, want, .die, [], [], [], [], 0, false, none, [], s.tt.now + 64, false⟩
  postRead r { s with
    jobs := { s.jobs with next := s.jobs.next + 1, reads := s.jobs.reads ++ [r] }
    ftl := { s.ftl with pinned := s.ftl.pinned ++ [(psaBlk psa, r.job)] } }

/-- A read no longer pins its block (R307). -/
def unpinBlock (job : Nat) (s : State) : State :=
  { s with ftl := { s.ftl with pinned := s.ftl.pinned.filter (fun p => p.2 != job) } }

/-- A slot read ends and pins nothing. -/
def endRead (job : Nat) (s : State) : State := unpinBlock job (dropRead job s)

end Sys2Proof.Machine
end

