-- ==== Sys2Proof/Machine/Commands.lean ====
section
/-! DEFINITION. Command contexts, the versions they read, and completions (R101, R107, R126, R135, R142, Table 3-14). -/

namespace Sys2Proof.Machine

/-- The fetched command of a queue with a command identifier. -/
def Hq.ctx (h : Hq) (cntlid qid cid : Nat) : Option Ctx :=
  h.ctxs.find? (fun x => x.cntlid == cntlid && x.qid == qid && x.cid == cid)

/-- Two contexts are of one command. -/
def Ctx.same (a b : Ctx) : Bool := a.cntlid == b.cntlid && a.qid == b.qid && a.cid == b.cid

/-- A context replaced. -/
def setCtx (x : Ctx) (s : State) : State :=
  { s with hq := { s.hq with ctxs := s.hq.ctxs.map (fun y => if y.same x then x else y) } }

/-- A context freed. -/
def dropCtx (x : Ctx) (s : State) : State :=
  { s with hq := { s.hq with ctxs := s.hq.ctxs.filter (fun y => !y.same x) } }

/-- A queue of a controller. -/
def Hq.queue (h : Hq) (cntlid qid : Nat) : Option Queue := h.queues.find? (fun q => q.cntlid == cntlid && q.qid == qid)

/-- A queue replaced. -/
def setQueue (q : Queue) (s : State) : State :=
  { s with hq := { s.hq with queues := s.hq.queues.map (fun y => if y.cntlid == q.cntlid && y.qid == q.qid then q else y) } }

/-- A controller. -/
def Hq.controller (h : Hq) (cntlid : Nat) : Option Controller := h.controllers.find? (fun c => c.cntlid == cntlid)

/-- A controller replaced. -/
def setController (c : Controller) (s : State) : State :=
  { s with hq := { s.hq with controllers := s.hq.controllers.map (fun y => if y.cntlid == c.cntlid then c else y) } }

/-- An NVMe status as Damrid decides it: status code type, status code, do not retry, Damrid status. -/
abbrev NvmeStatus := Nat × Nat × Bool × Nat

/-- Successful (0h/00h). -/
def nvmeOk : NvmeStatus := (0, 0, false, 0)
/-- Invalid Command Opcode (0h/01h). -/
def nvmeBadOpcode : NvmeStatus := (0, 1, true, 0)
/-- Invalid Field (0h/02h). -/
def nvmeBadField : NvmeStatus := (0, 2, true, 0)
/-- Data Transfer Error (0h/04h), DNR 0. -/
def nvmeTransfer : NvmeStatus := (0, 4, false, 0)
/-- Command Abort Requested (0h/07h). -/
def nvmeAborted : NvmeStatus := (0, 7, false, 0)
/-- LBA Out of Range (0h/80h). -/
def nvmeRange : NvmeStatus := (0, 0x80, true, 0)
/-- Reservation Conflict (0h/83h). -/
def nvmeReserved : NvmeStatus := (0, 0x83, true, 0)
/-- Compare Failure (2h/85h). -/
def nvmeCompare : NvmeStatus := (2, 0x85, true, 0)
/-- Data SGL Length Invalid (0h/0Fh). -/
def nvmeSgl : NvmeStatus := (0, 0x0F, false, 0)
/-- Feature Not Changeable (1h/0Eh). -/
def nvmeFixed : NvmeStatus := (1, 0x0E, true, 0)
/-- Invalid Firmware Image (1h/07h). -/
def nvmeFirmware : NvmeStatus := (1, 7, true, 0)
/-- Asymmetric Access Inaccessible (3h/02h), the path status of a head that fences itself (R483). -/
def nvmeInaccessible : NvmeStatus := (3, 2, false, 0)

/-- The NVMe status of a Damrid status (Table 3-14). -/
def nvmeOf (st : Status) : NvmeStatus :=
  let c := statusCode st
  match st with
  | .ok => nvmeOk
  | .lockerWithdrawn => (2, 0x86, true, c)
  | .poolReadOnly => (1, 0x20, true, c)
  | .volumeUnknown => (0, 0x0B, true, c)
  | .quotaExceeded => (0, 0x81, true, c)
  | .volumeOffline => (0, 0x82, false, c)
  | .keyExhausted => (7, 0x80, true, c)
  | .tagFail => (2, 0x81, true, c)
  | _ =>
    if c / 256 = 3 ∨ (0x701 ≤ c ∧ c ≤ 0x707) then (2, 0x81, true, c) else (7, 0xFF, true, c)

/-- The first LBA of a command. -/
def Ctx.lba (x : Ctx) : Nat := x.cap.slba

/-- A command counts as a write under the overlap order (R104). -/
def Ctx.isWrite (x : Ctx) : Bool :=
  x.cap.opcode == 0x01 || x.cap.opcode == 0x08 || x.cap.opcode == 0x09

/-- The blocks a command of an LBA range touches: one range, or the ranges of Dataset Management. -/
def Ctx.ranges (x : Ctx) : List (Nat × Nat) := if x.cap.opcode = 0x09 then x.cap.ranges else [(x.cap.slba, x.cap.nlb)]

/-- A command touches a block. -/
def Ctx.touches (x : Ctx) (lba : Nat) : Bool := x.ranges.any (fun r => r.1 ≤ lba && lba < r.1 + r.2)

/-- A command that the peer received and this head executes or orders as the owner (R103, R120): its context stands
under controller 65,536 and its request tag. -/
def Ctx.forPeer (x : Ctx) : Bool := x.cntlid == 65536

/-! ### Versions that reads are bound to (R106, R107, R135, R142) -/

/-- The half this head's next image goes to: the one that does not hold its newest unretired image (R387). -/
def Pool.nextHalf (p : Pool) (head : Nat) : Option VaultHalf :=
  let mine := p.halves.filter (fun v => v.head == head)
  let live := mine.filter (fun v => v.retired < v.image)
  mine.find? (fun v => !live.any (fun n => n.half == v.half && live.all (fun m => m.image ≤ n.image)))

/-- The half of the next image has its groups and is wholly erased, and no new halves are awaited (R384, R387, R618). -/
def State.halfReady (s : State) : Bool :=
  !s.stg.halvesDue && s.pool.all (fun p => (p.nextHalf s.sys.slot).any (fun v => v.groups != 0 && v.erased))

/-- A version is of a block. -/
def Ver.at_ (v : Ver) (vol grain quarter : Nat) : Bool := v.vol == vol && v.grain == grain && v.quarter == quarter

/-- A source is a version, or would fall back to it. -/
def Source.names (g q n : Nat) : Source → Bool
  | .version a b m r => (a == g && b == q && m == n) || r.names g q n
  | .flash .. => false
  | .zero => false

/-- The CID a source is, or would fall back to. -/
def Source.flashCid : Source → Option Nat
  | .version _ _ _ r => r.flashCid
  | .flash c _ => some c
  | .zero => none

/-- The reads bound to a version and not yet completed. -/
def Hq.readersOf (h : Hq) (v : Ver) : Nat :=
  sumNat (h.ctxs.map (fun x => if x.cap.nsid = v.vol then (x.reads.filter (fun r => r.1.names v.grain v.quarter v.seq)).length else 0))

/-- Every version counts its readers. -/
def noteReaders (s : State) : State :=
  { s with stg := { s.stg with versions := s.stg.versions.map (fun v => { v with readers := s.hq.readersOf v }) } }

/-- Settling snapshots of a volume whose fence bell has come (R428). -/
def Ftl.fencing (f : Ftl) (nsid : Nat) : List Root :=
  match f.ofNsid nsid with
  | none => []
  | some r => f.roots.filter (fun x => x.kind == .snapshot && x.parent == r.id && x.state == .settling && x.fenceSeq != 0)

/-- The fence sequences of settling snapshots of a volume (R427, R428). -/
def Ftl.fences (f : Ftl) (nsid : Nat) : List Nat := (f.fencing nsid).map (·.fenceSeq)

/-- A newer version of the block is Staged (R135). -/
def Stg.superseded (t : Stg) (v : Ver) : Bool :=
  t.versions.any (fun w => w.at_ v.vol v.grain v.quarter && v.seq < w.seq && w.staged)

/-- The version is the newest of its block below a snapshot fence that has not settled (R428). -/
def State.fenced (s : State) (v : Ver) : Bool :=
  (s.ftl.fences v.vol).any (fun n => v.seq < n &&
    !s.stg.versions.any (fun w => w.at_ v.vol v.grain v.quarter && v.seq < w.seq && w.seq < n && w.staged))

/-- A destage has taken the version (R135). -/
def State.inDestage (s : State) (v : Ver) : Bool :=
  s.jobs.destages.any (fun d => d.vol == v.vol && d.grain == v.grain && d.taken.getD v.quarter 0 == v.seq)

/-- Staging is write-through: this head's reason, the peer's, or a half not erased (R155, R387). -/
def State.through (s : State) : Bool := s.stg.reason != 0 || s.stg.peerThrough || !s.halfReady

/-- A write that is not acknowledged before its grains are durable waits for the version's grain (R155). -/
def State.awaited (s : State) (v : Ver) : Bool :=
  s.hq.ctxs.any (fun x => x.isWrite && x.cap.nsid == v.vol && x.seq == v.seq &&
    (x.through.contains v.grain || (x.state != .staged && s.through)))

/-- The version may be freed: released, or superseded, with no read bound to it, not being destaged, not
needed below a fence, no write-through acknowledgement waiting for its grain (R135, R155, R428). -/
def State.mayFree (s : State) (v : Ver) : Bool :=
  v.readers == 0 && (v.released || (v.staged && s.stg.superseded v && !s.inDestage v && !s.fenced v && !s.awaited v))

/-- A mark covers a block of a version. -/
def CommitMark.covers (m : CommitMark) (v : Ver) : Bool :=
  v.vol == m.volume && v.seq == m.seq && m.lba ≤ 4 * v.grain + v.quarter && 4 * v.grain + v.quarter < m.lba + m.count

/-- Versions that may be freed are; entries without a version go, and marks whose every block has been released or superseded
(R135, R142). -/
def freeVersions (s : State) : State :=
  let vs := s.stg.versions.filter (fun v => !s.mayFree v)
  { s with stg := { s.stg with
    versions := vs
    entries := s.stg.entries.filter (fun e => vs.any (fun v => v.vol == e.vol && v.grain == e.grain))
    marks := s.stg.marks.filter (fun m => s.stg.versions.any (fun v => m.covers v && !v.released && !s.stg.superseded v)) } }

/-- A command that ran, or was thrown away, no longer binds the versions it read (R107, R135). -/
def unpin (s : State) : State := freeVersions (noteReaders s)

/-! ### Completions -/

/-- An error enters the controller's Error Information log (Table 3-7: 256 entries): its queue, command, status, Damrid status,
first affected LBA, namespace. -/
def logError (cntlid qid cid lba nsid : Nat) (st : NvmeStatus) (s : State) : State :=
  match s.hq.controller cntlid with
  | none => s
  | some c => setController { c with
      errors := ((qid, (cid, (st.2.1 + 256 * st.1 + 16384 * flagBit st.2.2.1, (st.2.2.2, (lba, nsid))))) :: c.errors).take 256
      errorCount := c.errorCount + 1 } s

/-- A completion with the SQHD that the queue's fetches have reached (R94). -/
def State.completionOf (s : State) (cntlid qid cid : Nat) (st : NvmeStatus) (dw0 : Nat) (data : Bytes) : Output :=
  .completion cntlid qid cid st.1 st.2.1 st.2.2.1 dw0 (((s.hq.queue cntlid qid).map (·.sqhd)).getD 0) data

/-- A completion that carries an error is counted and enters the Error Information log (R126, Table 17-3). -/
def noteError (cntlid qid cid lba nsid : Nat) (st : NvmeStatus) (s : State) : State :=
  if st.1 = 0 ∧ st.2.1 = 0 then s else tallyAdd 0x04 6 1 (logError cntlid qid cid lba nsid st s)

/-- A completion is sent. -/
def sendCompletion (cntlid qid cid lba nsid : Nat) (st : NvmeStatus) (dw0 : Nat) (data : Bytes) (s : State) : State :=
  noteError cntlid qid cid lba nsid st (emit (s.completionOf cntlid qid cid st dw0 data) s)

/-- A command completes, an error naming its first affected LBA: its context is freed, the versions it read are, and, while its
queue exists, its completion is sent (Table 3-9, Table 3-11). -/
def completeAt (lba : Nat) (x : Ctx) (st : NvmeStatus) (dw0 : Nat) (data : Bytes) (s : State) : State :=
  let s1 := unpin (dropCtx x s)
  match s1.hq.queue x.cntlid x.qid with
  | none => if x.forPeer then emit (s1.completionOf x.cntlid x.qid x.cid st dw0 data) s1 else s1
  | some _ => sendCompletion x.cntlid x.qid x.cid lba x.cap.nsid st dw0 data s1

/-- A command completes. -/
def complete (x : Ctx) (st : NvmeStatus) (dw0 : Nat) (data : Bytes) (s : State) : State := completeAt x.lba x st dw0 data s

/-- A command fails: the completion carries the error, and the command had no effect. -/
def failCtx (x : Ctx) (st : NvmeStatus) (s : State) : State := complete x st 0 [] s

/-- A write that takes effect is acknowledged (Table 17-3). -/
def ackWrite (x : Ctx) (s : State) : State :=
  if x.cntlid = 65537 then complete x nvmeOk 0 [] s else
  let s1 := match s.hq.controller x.cntlid with
    | none => s
    | some c => setController { c with dataWritten := c.dataWritten + x.cap.nlb } s
  tallyAdd 0x04 2 1 (tallyAdd 0x04 4 x.cap.nlb (complete x nvmeOk 0 [] s1))

/-- The bit of Asynchronous Event Configuration that allows an event of a type and information: the critical warnings,
Namespace Attribute, Firmware Activation, ANA Change (Table 3-6); none for the types that no bit masks. PRESUMED: NVMe gives the
bits' places. -/
def eventBit (kind info : Nat) : Option Nat :=
  if kind = 1 then some info
  else if kind = 2 ∧ info = 0 then some 8
  else if kind = 2 ∧ info = 1 then some 9
  else if kind = 2 ∧ info = 3 then some 11
  else none

/-- Asynchronous Event Configuration as set; never set, every event of Table 3-6 is reported (DESIGN CHOICE). -/
def Controller.eventConfig (c : Controller) : Nat := (getKey 0x0B c.features).getD 0xBFF

/-- An asynchronous event completes one of a controller's outstanding requests, unless the configuration masks it: type,
information, log page (Tables 3-4, 3-6). -/
def notify (cntlid kind info log : Nat) (s : State) : State :=
  match s.hq.controller cntlid with
  | none => s
  | some c =>
    if (eventBit kind info).any (fun b => !bitAt b c.eventConfig) then s
    else
      match c.aers with
      | [] => s
      | cid :: r => emit (s.completionOf cntlid 0 cid nvmeOk (kind + 256 * info + 65536 * log) [])
          (setController { c with aers := r } s)

/-- Every controller is notified. -/
def notifyAll (kind info log : Nat) (s : State) : State :=
  s.hq.controllers.foldl (fun t c => notify c.cntlid kind info log t) s

/-- The capsules that wait in the receive buffers of a port (R93). -/
def Hq.buffered (h : Hq) (port : Nat) : Nat := sumNat ((h.queues.filter (fun q => q.port == port)).map (·.capsules.length))

/-- The receive pool of a port is empty: it holds one buffer, and those of `Config.receiveBuffers` beside it (R93). -/
def Hq.poolEmpty (h : Hq) (port : Nat) : Bool := Config.receiveBuffers port + 1 ≤ h.buffered port

/-- The NVMe/TCP receive windows of ports whose pool has a buffer again open (R93). -/
def openWindows (s : State) : State :=
  let ready := s.hq.closed.filter (fun p => !s.hq.poolEmpty p)
  emitAll (ready.map (fun p => .window p true)) { s with hq := { s.hq with closed := s.hq.closed.filter (fun p => s.hq.poolEmpty p) } }

end Sys2Proof.Machine
end

