-- ==== Sys2Proof/Machine/Staging.lean ====
section
/-! DEFINITION. Staging: versions, credit, commit marks, mirror messages (R128 to R145, R639). -/

namespace Sys2Proof.Machine

/-! ### Room -/

/-- STG_STATE.REASON: this head's reason, or 2 while only the peer's holds staging in write-through (R154, R155). -/
def State.throughReason (s : State) : Nat := if s.stg.reason = 0 ∧ s.stg.peerThrough = true then 2 else s.stg.reason

/-- Dirty bytes: block buffers that hold a version not yet released (R129). -/
def Stg.dirty (t : Stg) : Nat := 4096 * (t.versions.filter (fun v => !v.noBuffer && !v.released)).length

/-- The staging size in bytes (R128). -/
def State.stagingSize (s : State) : Nat := 2 ^ 30 * ((s.pool.map (·.stagingGib)).getD 0)

/-- The dirty bytes staging may hold: the dirty limit, or the staging size in write-through (R54, R130). -/
def State.stagingRoom (s : State) : Nat := if s.through then s.stagingSize else 2 ^ 20 * s.stg.limitMib

/-- The credit a head grants: half of its free room, in blocks (R130). -/
def State.creditNow (s : State) : Nat := (s.stagingRoom - s.stg.dirty - 4096 * s.stg.admitted) / 8192

/-- Marks a write of some blocks needs: one, or one for each grain of a write above 512 blocks (R113, R139). -/
def marksFor (lba count : Nat) : Nat := if count ≤ 512 then 1 else (lba + count - 1) / 4 - lba / 4 + 1

/-- The marks that the writes of some ranges need, each range its own (R113, R114, R139). -/
def marksNeeded (l : List (Nat × Nat)) : Nat := sumNat (l.map (fun r => if r.2 = 0 then 0 else marksFor r.1 r.2))

/-- The marks that writes fetched and not Staged have still to take. -/
def State.marksDue (s : State) : Nat :=
  sumNat (s.hq.ctxs.map (fun x => if x.isWrite && (x.state == .fetched || x.state == .dataIn) then
    marksNeeded x.ranges - (s.stg.marks.filter (fun m => m.volume == x.cap.nsid && m.seq == x.seq)).length else 0))

/-- A write of some blocks and ranges is admitted: dirty limit, the peer's credit, a free record of the mark table for each mark
(R130). -/
def State.admitsWrite (s : State) (ranges : List (Nat × Nat)) (count : Nat) : Bool :=
  s.stg.dirty + 4096 * (s.stg.admitted + count) ≤ s.stagingRoom &&
  (!s.paired || count ≤ s.stg.credit) &&
  s.stg.marks.length + s.marksDue + marksNeeded ranges ≤ 1048576

/-! ### Versions -/

/-- Numbers of writes of a block that may still take effect: commands fetched or in Data-In, and versions whose mark is not Held
(R104, R106). -/
def State.pendingWrites (s : State) (nsid lba : Nat) : List Nat :=
  (s.hq.ctxs.filter (fun x => x.isWrite && x.cap.nsid == nsid && x.touches lba &&
    (x.state == .fetched || x.state == .dataIn))).map (·.seq) ++
  (s.stg.versions.filter (fun v => v.at_ nsid (lba / 4) (lba % 4) && !v.staged)).map (·.seq)

/-- An entry of a grain. -/
def Stg.entry (t : Stg) (vol grain : Nat) : Option Entry := t.entries.find? (fun e => e.vol == vol && e.grain == grain)

/-- An entry changed in place. -/
def modEntry (vol grain : Nat) (f : Entry → Entry) (s : State) : State :=
  { s with stg := { s.stg with
      entries := s.stg.entries.map (fun e => if e.vol == vol && e.grain == grain then f e else e) } }

/-- A version takes its place in staging, with the reads that wait for it, and an entry for its grain (R131, R134). -/
def addVersion (v : Ver) (s : State) : State :=
  let es := if (s.stg.entry v.vol v.grain).isSome then s.stg.entries
    else s.stg.entries ++ [⟨v.vol, v.grain, s.tt.now, none, false, false⟩]
  { s with stg := { s.stg with versions := s.stg.versions ++ [{ v with readers := s.hq.readersOf v }], entries := es } }

/-- The versions of consecutive blocks of a write: flags are those of MIRROR_DATA (Table 4-5). -/
def writeVersions (vol seq origin lba count flags : Nat) (blocks pi : Bytes) : List Ver :=
  (List.range count).map (fun i =>
    let b := lba + i
    let zero := bitAt 0 flags || bitAt 1 flags
    ⟨vol, b / 4, b % 4, seq, origin, false, bitAt 0 flags, bitAt 1 flags, bitAt 3 flags, bitAt 2 flags && !bitAt 1 flags,
      if zero then (if bitAt 3 flags then [] else zeros 4096) else slice blocks (4096 * i) 4096,
      if bitAt 2 flags && !bitAt 1 flags then slice pi (64 * i) 64 else [], 0, false, false⟩)

/-- The data of a version: zeros where it keeps none. -/
def Ver.bytes (v : Ver) : Bytes := if v.zeros || v.dealloc then List.replicate 4096 0 else fitBytes 4096 v.data

/-- The blocks a mark covers become Staged and the mark is Held (R140). -/
def holdMark (m : CommitMark) (s : State) : State :=
  let hit := fun (v : Ver) => m.covers v
  let new := (s.stg.versions.filter (fun v => hit v && !v.staged)).length
  let s1 := { s with stg := { s.stg with
    marks := if s.stg.marks.contains m then s.stg.marks else s.stg.marks ++ [m]
    versions := s.stg.versions.map (fun v => if hit v then { v with staged := true } else v)
    entries := s.stg.entries.map (fun e =>
      if s.stg.versions.any (fun v => hit v && v.grain == e.grain && v.vol == e.vol) then
        { e with lastWrite := s.tt.now, due := false } else e) } }
  freeVersions (tallyAdd 0x05 0 new s1)

/-- The blocks of a write that never was are freed (R639, R157). -/
def dropWrite (vol seq : Nat) (s : State) : State :=
  freeVersions { s with stg := { s.stg with
    versions := s.stg.versions.filter (fun v => !(v.vol == vol && v.seq == seq && !v.staged)) } }

/-- The marks of a write (R139). -/
def writeMarks (vol seq origin lba count : Nat) : List CommitMark :=
  if count ≤ 512 then [⟨seq, vol, count, origin, lba⟩]
  else (List.range ((lba + count - 1) / 4 - lba / 4 + 1)).map (fun i =>
    let lo := max lba (4 * (lba / 4 + i))
    let hi := min (lba + count) (4 * (lba / 4 + i) + 4)
    ⟨seq, vol, hi - lo, origin, lo⟩)

/-! ### Release (R145) -/

/-- The version of a quarter that a release names and every older one are released. -/
def releaseVersions (vol grain : Nat) (seqs : List Nat) (s : State) : State :=
  freeVersions { s with stg := { s.stg with
    versions := s.stg.versions.map (fun v =>
      if v.vol == vol && v.grain == grain && seqs.getD v.quarter 0 != 0 && v.seq ≤ seqs.getD v.quarter 0 then
        { v with released := true } else v) } }

/-! ### Messages of staging (Table 4-5) -/

/-- MIRROR_DATA: the peer's blocks are placed in this head's staging, and MIRROR_ACK answers (R143). -/
def execMirrorData (number volume count flags seq lba : Nat) (blocks pi : Bytes) (s : State) :
    Host.Outcome State Fault Refusal :=
  onMessage number (.mirrorData volume count flags seq lba blocks pi) (fun s =>
    reply number (.mirrorAck number count)
      ((writeVersions volume seq (1 - s.sys.slot) lba count flags blocks pi).foldl (fun t v => addVersion v t)
        (tallyAdd 0x05 1 1 s))) s

/-- RELEASE: the versions named and older ones are freed (R145). -/
def execRelease (l : List RelEntry) (s : State) : Host.Outcome State Fault Refusal :=
  onWord (.release l) (fun s => l.foldl (fun t e => releaseVersions e.volume e.grain e.seqs t) s) s

/-- CREDIT: the credit for this head's next admissions, and whether the peer is in write-through (R130, R155). -/
def execCredit (blocks term : Nat) (through : Bool) (s : State) : Host.Outcome State Fault Refusal :=
  onWord (.credit blocks term) (fun s => { s with stg := { s.stg with credit := blocks, peerThrough := through } }) s

/-- Two marks of one write's range. -/
def sameMark (a b : CommitMark) : Bool := a.volume == b.volume && a.seq == b.seq && a.lba == b.lba

/-- MARK_LIST messages of some marks: 127 to a message (Table 4-5). The last one holds fewer, none where need be, and so ends
the table: DESIGN CHOICE, the spec gives no end. -/
def markLists (l : List CommitMark) : List CorrBody :=
  (List.range (l.length / 127 + 1)).map (fun i => .markList ((l.drop (127 * i)).take 127))

/-- Both heads' marks are known at a start: a write exists when both hold its mark, and blocks and marks of any other are
discarded (R162). -/
def settleMarks (s : State) : State :=
  let ms := s.stg.marks.filter (fun m => s.stg.peerMarks.any (sameMark m))
  let vs := s.stg.versions.filter (fun v => !v.staged || ms.any (fun m => m.covers v))
  { s with stg := { s.stg with
    marks := ms, versions := vs, peerMarks := []
    entries := s.stg.entries.filter (fun e => vs.any (fun v => v.vol == e.vol && v.grain == e.grain))
    restoring := s.stg.restoring.filter (fun g => vs.any (fun v => v.vol == g.1 && v.grain == g.2)) } }

/-- MARK_LIST: MIRROR_ACK answers. At a start they are the marks of the peer's image, and with the last list it is settled which
writes exist (R162). In service, or on a head that joins, the marks stand for the blocks that the peer copies here: they are Held
(R491, Table 16-5), and with the last list a joiner has its copy. -/
def execMarkList (number : Nat) (marks : List CommitMark) (s : State) : Host.Outcome State Fault Refusal :=
  onMessage number (.markList marks) (fun s =>
    let last := decide (marks.length < 127)
    reply number (.mirrorAck number 0)
      (if s.pwr.stage = .service ∨ s.pwr.stage = .joining then
        let t := marks.foldl (fun t m => holdMark m t) s
        { t with corr := { t.corr with step := if last = true ∧ s.pwr.stage = .joining ∧ s.corr.step = 5 then 6 else s.corr.step } }
       else
        let t : State := { s with stg := { s.stg with peerMarks := s.stg.peerMarks ++ marks } }
        if last then settleMarks t else t)) s

/-- MESSAGE_RESEND_TIMEOUT: 4 periods without an answer, and the message is sent again with its number; after
three resends Damrid reports a Corridor fault (R144). A RESOLVE answered pending waits under R175. -/
def execMessageResendTimeout (number : Nat) (s : State) : Host.Outcome State Fault Refusal :=
  match s.corr.awaiting number with
  | none => .next s
  | some m =>
    if m.pending ∨ s.tt.now < m.at_ + 4 ∨ s.corr.fault then .next s
    else if 3 ≤ m.resends then
      .next (event 0xA004 25 (argOf [(0, 1), (1, s.corr.lanes)]) { s with corr := { s.corr with
        fault := true, link := 1, retrains := s.corr.retrains + 1 } })
    else
      .next (tallyAdd 0x05 2 1 (transmit number m.body { s with corr := { s.corr with
        unanswered := s.corr.unanswered.map (fun x =>
          if x.number == number then { x with at_ := s.tt.now, resends := x.resends + 1 } else x) } }))

/-- DESTAGE_AGE_EXPIRY: 64 periods after its last write an entry is eligible for destage (R137). -/
def execDestageAgeExpiry (vol grain : Nat) (s : State) : Host.Outcome State Fault Refusal :=
  match s.stg.entry vol grain with
  | none => .next s
  | some e => whenDue (e.lastWrite + 64 ≤ s.tt.now) (modEntry vol grain (fun x => { x with due := true }) s) s

end Sys2Proof.Machine
end

