-- ==== Sys2Proof/Machine/Dedup.lean ====
section
/-! DEFINITION. De-duplication: resolution, the in-flight table, filter and index (R164 to R203). -/

namespace Sys2Proof.Machine

/-! ### Fingerprint fields (Table 5-1) -/

/-- Bytes 0 to 7 of a fingerprint. -/
def fpF (fp : Bytes) : Nat := fieldAt fp 0 8
/-- Bytes 8 to 15. -/
def fpG (fp : Bytes) : Nat := fieldAt fp 8 8
/-- The in-flight set. -/
def fpSet (fp : Bytes) : Nat := fieldAt fp 16 2 % 8192

/-- A bucket with the head slot of its half, as an index page has them (Table 5-2). -/
def bucketOf (half b : Nat) : Nat := b + 2 ^ 36 * half

/-- The unsplit bucket of a fingerprint. -/
def Ddp.low (d : Ddp) (fp : Bytes) : Nat := bucketOf (fpF fp % 2) (fpF fp / 2 % 2 ^ d.n)

/-- The unsplit bucket that a bucket is, or came of. -/
def Ddp.lowOf (d : Ddp) (b : Nat) : Nat := bucketOf (b / 2 ^ 36) (b % 2 ^ d.n)

/-- A bucket has been split in the growth under way (R190). -/
def Ddp.isSplit (d : Ddp) (b : Nat) : Bool := d.split.any (fun k => d.lowOf b < k)

/-- The index bucket: under a split, buckets already split take one bit more (R190). -/
def Ddp.bucket (d : Ddp) (fp : Bytes) : Nat :=
  if d.isSplit (d.low fp) then bucketOf (fpF fp % 2) (fpF fp / 2 % 2 ^ (d.n + 1)) else d.low fp

/-- The bucket bits of a bucket's page (Table 5-2). -/
def Ddp.bits (d : Ddp) (b : Nat) : Nat := if d.isSplit b then d.n + 1 else d.n

/-- The head resolves a fingerprint (R174). DESIGN CHOICE: between the loss of the peer and the Peer-absent sheet, where R174 names
neither case, the head resolves every fingerprint, as it does then. -/
def State.resolvesHere (s : State) (fp : Bytes) : Bool := !s.paired || fpF fp % 2 == s.sys.slot

/-- The halves whose index this head keeps, its own first (R174). -/
def State.indexHalves (s : State) : List Nat := if s.paired then [s.sys.slot] else [s.sys.slot, 1 - s.sys.slot]

/-! ### Filter (R182 to R184) -/

/-- Quotient and remainder of a fingerprint's bytes 8 to 15 (Table 5-1). -/
def Ddp.parts (d : Ddp) (g : Nat) : Nat × Nat := (g % 2 ^ d.q, g / 2 ^ d.q % 128)

/-- Quotients and remainders in ascending order take the slots of a quotient filter: each its quotient's slot or the next free one
after it (R182). -/
def laySlots : List (Nat × Nat) → Nat → List (Nat × (Nat × Nat))
  | [], _ => []
  | x :: l, free => (max free x.1, x) :: laySlots l (max free x.1 + 1)

/-- The slots in use: number, quotient, remainder. DESIGN CHOICE: the slots that the last quotients need beyond the last slot follow
it; the spec gives no wrap. -/
def Ddp.slots (d : Ddp) : List (Nat × (Nat × Nat)) :=
  laySlots (sortBy (fun a b => a.1 < b.1 || (a.1 == b.1 && a.2 ≤ b.2)) (d.filter.map d.parts)) 0

/-- A slot of 10 bits: occupied [0], continuation [1], shifted [2], the remainder [9:3] (R182). DEDUCED: the order in which R182
names them. -/
def slotBits (l : List (Nat × (Nat × Nat))) (i : Nat) : Nat :=
  flagBit (l.any (fun x => x.2.1 == i)) +
  (match getKey i l with
   | none => 0
   | some x => 2 * flagBit (l.any (fun y => y.1 + 1 == i && y.2.1 == x.1)) + 4 * flagBit (x.1 != i) + 8 * x.2)

/-- A 64-byte line of the filter: 51 slots in ascending bit order, the top 2 bits unused (R182). -/
def Ddp.filterLine (d : Ddp) (k : Nat) : Nat := sumNat ((List.range 51).map (fun j => slotBits d.slots (51 * k + j) * 2 ^ (10 * j)))

/-- A fingerprint lies in the part of the filter being rebuilt: all of it, or after a failover the peer's half (R184). -/
def Ddp.inRebuild (d : Ddp) (fp : Bytes) : Bool := d.half.all (fun h => fpF fp % 2 == h)

/-- The place of an unsplit bucket in the order of a rebuild: ascending, this head's half first (R184). -/
def Ddp.unit (d : Ddp) (slot b : Nat) : Nat := b % 2 ^ d.n + (if d.half.isSome ∨ b / 2 ^ 36 = slot then 0 else 2 ^ d.n)

/-- The halves of a rebuild. -/
def State.rebuildHalves (s : State) : List Nat :=
  match s.ddp.half with
  | some h => [h]
  | none => s.indexHalves

/-- The next bucket of a rebuild. -/
def State.rebuildBucket (s : State) : Nat :=
  bucketOf (s.rebuildHalves.getD (s.ddp.rebuilt / 2 ^ s.ddp.n) s.sys.slot) (s.ddp.rebuilt % 2 ^ s.ddp.n)

/-- The bucket of a fingerprint is not rebuilt yet (R184). -/
def State.notRebuilt (s : State) (fp : Bytes) : Bool :=
  s.ddp.fstate == 1 && s.ddp.inRebuild fp && s.ddp.rebuilt ≤ s.ddp.unit s.sys.slot (s.ddp.low fp)

/-- A probe of a quotient's run hits: a slot of the run holds the remainder, or the run, or the slot of the quotient where it has
none, lies in a line that is lost (R182, Table 16-5). -/
def Ddp.hits (d : Ddp) (g : Nat) : Bool :=
  let run := d.slots.filter (fun x => x.2.1 == (d.parts g).1)
  if run = [] then d.badLines.contains ((d.parts g).1 / 51)
  else run.any (fun x => d.badLines.contains (x.1 / 51) || x.2.2 == (d.parts g).2)

/-- A probe hits, or its bucket is not rebuilt yet (R182, R184). -/
def State.probe (s : State) (fp : Bytes) : Bool := s.notRebuilt fp || s.ddp.hits (fpG fp)

/-- The filter's load passes 0.90 (R183). -/
def Ddp.overLoad (d : Ddp) : Bool := 9 * 2 ^ d.q < 10 * d.filter.length

/-- A CID of a fingerprint takes a slot; inserting stops once the load passes 0.90, with an event (R183). -/
def takeSlot (fp : Bytes) (s : State) : State :=
  if s.ddp.stopped then s
  else
    let d := { s.ddp with filter := fpG fp :: s.ddp.filter }
    if d.overLoad then event 0x5001 11 s.sys.slot { s with ddp := { d with stopped := true } }
    else { s with ddp := d }

/-- A CID's fingerprint enters the filter; one of a bucket not rebuilt yet enters with its bucket (R180, R184). -/
def filterInsert (fp : Bytes) (s : State) : State := if s.notRebuilt fp then s else takeSlot fp s

/-- The removal of one CID removes one slot (R182). -/
def filterRemove (fp : Bytes) (s : State) : State :=
  { s with ddp := { s.ddp with filter := dropFirst (· == fpG fp) s.ddp.filter } }

/-! ### Index (R185 to R190) -/

/-- The delta is full (R187, R190). -/
def Ddp.deltaFull (d : Ddp) : Bool := 2 ^ d.deltaBits ≤ d.delta.length

/-- A change of the index: journalled and kept in the delta; an insert is dropped and counted while the delta is full; a removal
takes its slot from the filter (R182, R187, R190). -/
def indexChange (action : Nat) (r : IdxRec) (s : State) : State :=
  if action = 1 ∧ s.ddp.deltaFull = true then
    { s with ddp := { s.ddp with overflow := min (s.ddp.overflow + 1) (2 ^ 48 - 1) } }
  else
    let s1 := if action = 2 then filterRemove r.fp s else s
    journal (.indexChange action r.domain r.fp r.cid)
      { s1 with ddp := { s1.ddp with delta := s1.ddp.delta ++ [⟨action, r, false⟩] } }

/-- Two index records are of one CID under one domain and fingerprint. -/
def IdxRec.same (a b : IdxRec) : Bool := a.domain == b.domain && a.fp == b.fp && a.cid == b.cid

/-- A change applied to some records, oldest first: a removal hides the record it names, and poison is set or cleared on it
(R189). -/
def applyChange (l : List IdxRec) (x : DeltaRec) : List IdxRec :=
  if x.action = 1 then l ++ [x.r]
  else if x.action = 2 then l.filter (fun r => !r.same x.r)
  else l.map (fun r => if r.same x.r then { r with poisoned := x.action == 3 } else r)

/-- The newest record of a domain and fingerprint that the delta inserts, as its later changes leave it (R189). -/
def Ddp.deltaFind (d : Ddp) (domain : Nat) (fp : Bytes) : Option IdxRec :=
  ((d.delta.filter (fun x => x.r.domain == domain && x.r.fp == fp)).foldl applyChange []).getLast?

/-- The newest record that an index page gives of a domain and fingerprint, as the delta's changes leave it (R189). -/
def Ddp.indexFind (d : Ddp) (domain : Nat) (fp : Bytes) : Option IdxRec :=
  ((d.delta.filter (fun x => x.action != 1)).foldl applyChange
    (d.index.filter (fun r => r.domain == domain && r.fp == fp))).getLast?

/-- Every record of the index: those of its pages with the delta's changes. -/
def Ddp.records (d : Ddp) : List IdxRec := d.delta.foldl applyChange d.index

/-- The record that names a CID. -/
def Ddp.recOf (d : Ddp) (cid : Nat) : Option IdxRec := d.records.find? (fun x => x.cid == cid)

/-! ### Outcomes -/

/-- A destage changed in place. -/
def modDestage (job : Nat) (f : Destage → Destage) (s : State) : State :=
  { s with jobs := { s.jobs with destages := s.jobs.destages.map (fun d => if d.job == job then f d else d) } }

/-- The map entry of a destage's grain still names a CID. -/
def State.mapNames (s : State) (d : Destage) (cid : Nat) : Bool :=
  ((s.ftl.ofNsid d.vol).bind (fun r => r.cidOf d.grain)) == some cid

/-- A destage's grain is mapped; the reference of a grain whose volume is gone is given back, so that the count stays that of the
map entries (R196). -/
def mapGrain (d : Destage) (cid : Option Nat) (s : State) : State :=
  match s.ftl.ofNsid d.vol, cid with
  | some r, _ => setMap r.id d.grain cid d.seq s
  | none, some c => refChange c (-1) s
  | none, none => s

/-- The map of a write-through grain changes from its own CID to the one it came to; where the entry no longer names its own, the
reference is given back (R155, R196, R197). -/
def moveMap (d : Destage) (cid : Nat) (s : State) : State :=
  if s.mapNames d d.wcid then mapGrain d (some cid) s else refChange cid (-1) s

/-- What a destage does with its outcome: a new or healed grain goes to an encoder; a share is mapped. A write-through grain is
already on its way under its own CID: a share changes its map, and a heal stores it a second time, under the healed CID (R155, R180,
R191, R201). -/
def takeOutcome (job kind cid : Nat) (s : State) : State :=
  match s.jobs.destages.find? (fun d => d.job == job) with
  | none => s
  | some d =>
    if d.through ∧ d.wcid ≠ 0 then
      if cid = d.wcid then modDestage job (fun d => { d with resolved := true, outcome := kind }) s
      else if d.mapped.isNone then modDestage job (fun d => { d with resolved := true, outcome := kind, final := cid }) s
      else if kind = 4 then
        modDestage job (fun d => { d with resolved := true, outcome := 4, final := cid, cid := cid, stage := .encode }) s
      else moveMap d cid (modDestage job (fun d => { d with resolved := true, outcome := kind, final := cid }) s)
    else if kind = 0 then
      afterDurable s.epoch (.release job)
        (modDestage job (fun d => { d with
          resolved := true, outcome := 0, cid := cid, stage := .recorded s.epoch, mapped := some s.epoch }) (mapGrain d (some cid) s))
    else modDestage job (fun d => { d with
      resolved := true, outcome := kind, cid := cid, stage := .encode }) s

/-- A resolution has its outcome: RESOLVE_ANSWER to the peer, or the destage of this head goes on (R175). -/
def tellOutcome (r : Resolution) (kind cid : Nat) (s : State) : State :=
  if r.peer then reply r.number (.resolveAnswer r.grain cid kind) s else takeOutcome r.grain kind cid s

/-- The pending answer, with the CID of a write-through grain (R155, R175). -/
def tellPending (r : Resolution) (s : State) : State :=
  if r.peer then send (.resolveAnswer r.grain r.wcid 3) s
  else if r.through then modDestage r.grain (fun d => { d with
    wcid := r.wcid, cid := r.wcid, stage := if d.stage = .resolving then .encode else d.stage }) s
  else s

/-- A CID for new content: its record with count 1, without a PSA yet (R180, R196). -/
def newRecord (domain : Nat) (fp : Bytes) (noIndex : Bool) (s : State) : State × Nat :=
  let (s1, c) := allocateCid s
  (putRec c ⟨0, 1, 0, domain, fpF fp, 1 + 256 * flagBit noIndex, 0⟩ s1, c)

/-- The in-flight entry of a domain and fingerprint (R179). -/
def Ddp.entry (d : Ddp) (domain : Nat) (fp : Bytes) : Option Inflight :=
  d.inflight.find? (fun e => e.domain == domain && e.fp == fp)

/-- The entry replaced. -/
def setEntry (e : Inflight) (s : State) : State :=
  { s with ddp := { s.ddp with
      inflight := s.ddp.inflight.map (fun x => if x.domain == e.domain && x.fp == e.fp then e else x) } }

/-- The entry leaves the table. -/
def dropEntry (domain : Nat) (fp : Bytes) (s : State) : State :=
  { s with ddp := { s.ddp with inflight := s.ddp.inflight.filter (fun x => !(x.domain == domain && x.fp == fp)) } }

/-- The grain is new content: under the CID already given to a write-through grain, else a fresh one. With
`index` its entry becomes Pending for that CID (R180); without, it takes no index record (R195). -/
def newContent (r : Resolution) (kind : Nat) (index : Bool) (s : State) : State :=
  let (s1, c) := if r.wcid ≠ 0 then (s, r.wcid) else newRecord r.domain r.fp (!index) s
  let s2 := if r.wcid = 0 then s1
    else match s1.ftl.ctRec c with
      | none => s1
      | some x => putRec c { x with flags := if index then clearBit 8 x.flags else setBit 8 x.flags } s1
  let s3 := if index then
      match s2.ddp.entry r.domain r.fp with
      | none => s2
      | some e => setEntry { e with cid := c, pending := true, x := r.x } s2
    else s2
  tellOutcome r kind c (tallyDomain 2 r.domain s3)

/-- A fingerprint enters the resolution queue of this head (R191). -/
def enqueue (r : Resolution) (s : State) : State := { s with ddp := { s.ddp with queue := s.ddp.queue ++ [r] } }

/-- The reference is added: +1, a revival at 0, or new content at the highest count (R196, R198, R199). New content takes its index
record from its in-flight entry; a grain whose entry is gone by then is resolved again. -/
def addShare (r : Resolution) (cid : Nat) (s : State) : State :=
  let refs := ((s.ftl.ctRec cid).map (·.refs)).getD 0
  if 0xFFFFFFFF ≤ refs then (if (s.ddp.entry r.domain r.fp).isSome then newContent r 1 true s else enqueue r s)
  else
    let s1 := if refs = 0 then reclaim cid 4 s else refChange cid 1 s
    tellOutcome r 0 cid (tallyDomain 1 r.domain s1)

/-- The comparison found a difference: new content without an index record, and two events (R195). -/
def differs (r : Resolution) (cid : Nat) (s : State) : State :=
  let s1 := event 0x5002 11 (argOf [(0, r.domain), (2, cid)]) (tallyAdd 0x06 5 1 s)
  let s2 := newContent r 1 false s1
  let c := if r.wcid ≠ 0 then r.wcid else
    (2 ^ 47 * s.sys.slot + (if s.ddp.nextCid < 2 ^ 47 then s.ddp.nextCid else s.ddp.freeCids.headD 0 % 2 ^ 47))
  event 0x5005 11 (argOf [(0, r.domain), (2, c)]) s2

/-- The slot read of a comparison from flash, in the verify stream class (R194). -/
def startVerify (r : Resolution) (cid : Nat) (s : State) : State :=
  startRead (.verify r.grain) 0 cid [0, 1, 2, 3]
    { s with ddp := { s.ddp with comparing := s.ddp.comparing ++ [(s.jobs.next, (r, cid))] } }

/-- share(c): in verify mode the content is compared before the reference is added (R194). -/
def share (r : Resolution) (cid : Nat) (copy : Option Bytes) (s : State) : State :=
  if r.verify then
    match copy with
    | some x => if x = r.x then addShare r cid s else differs r cid s
    | none => startVerify r cid s
  else addShare r cid s

/-- A CID's content-table record is durable: its in-flight entry leaves the table, and it enters the filter and the index delta,
unless it takes no index record or, as healed content, has one (R180, R195, R201). -/
def indexCid (cid : Nat) (s : State) : State :=
  match s.ftl.ctRec cid, s.ddp.inflight.find? (fun e => e.cid == cid && e.pending) with
  | some r, some e =>
    let s1 := dropEntry e.domain e.fp s
    if bitAt 8 r.flags ∨ (s.ddp.recOf cid).isSome then s1 else indexChange 1 ⟨e.domain, e.fp, cid, false⟩ (filterInsert e.fp s1)
  | _, _ => s

/-- A CID's content-table record stands with its place in a durable epoch; CID 0 needs none (R155, R181). -/
def State.cidDurable (s : State) (cid : Nat) : Bool :=
  cid == 0 || (s.ftl.ctRec cid).any (fun r => r.psa != 0 && r.moved ≤ s.ftl.durable)

/-- New content whose record is durable by the time its resolution ends, as a write-through grain's may be, is indexed at once
(R155, R180). -/
def indexStored (cid : Nat) (s : State) : State := if s.cidDurable cid && !(s.ftl.ctRec cid).any CtRec.lost then indexCid cid s else s

/-- A grain that waited takes the CID of its entry, or, with the entry not Pending, an existing one (R179). -/
def shareWaiter (existing : Nat) (w : Resolution) (s : State) : State :=
  match (s.ddp.entry w.domain w.fp).filter (·.pending) with
  | some e => share w e.cid (some e.x) s
  | none => share w existing none s

/-- The grains that wait on an entry take its CID, or an existing one; an entry that resolved to an existing CID then leaves the
table (R179, R180). -/
def wakeWaiters (domain : Nat) (fp : Bytes) (existing : Nat) (s : State) : State :=
  match s.ddp.entry domain fp with
  | none => s
  | some e =>
    let s1 := e.waiters.foldl (fun t w => shareWaiter existing w t) (setEntry { e with waiters := [] } s)
    match s1.ddp.entry domain fp with
    | none => s1
    | some e => if e.pending then indexStored e.cid s1 else dropEntry domain fp s1

/-- A comparison has ended. The grain that made the entry lets those that wait on it go on: they take the CID compared, or the new
one where the share became new content (R194, R195, R198). -/
def compared (r : Resolution) (cid : Nat) (same : Bool) (s : State) : State :=
  let s1 := if same then addShare r cid s else differs r cid s
  if (s.ddp.entry r.domain r.fp).any (fun e => e.maker == (r.grain, r.peer) && !e.pending) then wakeWaiters r.domain r.fp cid s1
  else s1

/-- A poisoned record outside verify mode is healed: the grain becomes the CID's content (R201). -/
def heal (r : Resolution) (cid : Nat) (s : State) : State :=
  let s1 := match s.ddp.entry r.domain r.fp with
    | none => s
    | some e => setEntry { e with cid := cid, pending := true, x := r.x } s
  let s2 := event 0x5003 11 cid (refChange cid 1 s1)
  wakeWaiters r.domain r.fp cid (tellOutcome r 4 cid s2)

/-- The lookup has its record, or none (R191). -/
def useRecord (r : Resolution) (rec : Option IdxRec) (s : State) : State :=
  let fresh := fun (_ : Unit) => wakeWaiters r.domain r.fp 0 (newContent r 1 true s)
  match rec with
  | none => fresh ()
  | some x =>
    if x.poisoned then (if r.verify then fresh () else heal r x.cid s)
    else if (s.ftl.ctRec x.cid).any CtRec.usable then
      if r.verify then share r x.cid none s else wakeWaiters r.domain r.fp x.cid (share r x.cid none s)
    else fresh ()

/-- Fingerprints that may await an index read (R193). -/
def indexQueue : Nat := 262144

/-- A filter hit without a delta record: the index page is read, unless the queue is full and the grain is shed,
or the bucket has no page (R192, R193). -/
def askIndex (r : Resolution) (s : State) : State :=
  match getKey (s.ddp.bucket r.fp) s.ddp.pages with
  | none => useRecord r none s
  | some mpa =>
    if indexQueue ≤ s.ddp.indexing.length then
      wakeWaiters r.domain r.fp 0 (newContent r 2 true (tallyAdd 0x06 3 1
        { s with ddp := { s.ddp with shed := min (s.ddp.shed + 1) (2 ^ 48 - 1) } }))
    else
      tallyAdd 0x06 4 1 (readMeta mpa 0 (.index r.grain (s.triedNext mpa 0))
        { s with ddp := { s.ddp with indexing := s.ddp.indexing ++ [(r, s.triedNext mpa 0)] } })

/-- A domain is in verify mode (R194). -/
def State.verifies (s : State) (domain : Nat) : Bool := (s.ftl.domainRec domain).any (·.verify)

/-- A write-through grain is given its CID before any lookup (R155). -/
def giveCid (r : Resolution) (s : State) : State × Resolution :=
  if r.through ∧ r.wcid = 0 then
    let (s1, c) := newRecord r.domain r.fp true s
    let r1 := { r with wcid := c, told := true }
    (tellPending r1 s1, r1)
  else (s, r)

/-- The resolution sequence of R191 on a fingerprint taken from the queue; verify mode counts as it is set now (R194). -/
def resolveOne (r0 : Resolution) (s0 : State) : State :=
  let (s, r) := giveCid { r0 with verify := (r0.peer && r0.verify) || s0.verifies r0.domain } s0
  match s.ddp.entry r.domain r.fp with
  | some e =>
    if e.pending then share r e.cid (some e.x) s
    else if e.waiters.length < 64 then setEntry { e with waiters := e.waiters ++ [r] } s
    else { s with ddp := { s.ddp with blocked := s.ddp.blocked ++ [r] } }
  | none =>
    if 8 ≤ (s.ddp.inflight.filter (fun e => fpSet e.fp == fpSet r.fp)).length then
      { s with ddp := { s.ddp with blocked := s.ddp.blocked ++ [r] } }
    else
      let s1 := { s with ddp := { s.ddp with inflight := s.ddp.inflight ++ [(⟨r.domain, r.fp, 0, false, [], r.x, (r.grain, r.peer)⟩ : Inflight)] } }
      if s1.probe r.fp then
        match s1.ddp.deltaFind r.domain r.fp with
        | some x => useRecord r (some x) s1
        | none => askIndex r s1
      else wakeWaiters r.domain r.fp 0 (newContent r 1 true s1)

/-! ### Rows -/

/-- FINGERPRINT_RESOLVE: the front of the resolution queue is resolved (R191). -/
def execFingerprintResolve (s : State) : Host.Outcome State Fault Refusal :=
  match s.ddp.queue with
  | [] => .next s
  | r :: q => .next (resolveOne r (tallyAdd 0x06 0 1 { s with ddp := { s.ddp with queue := q } }))

/-- INFLIGHT_WAY_FREE: the first waiting grain whose set has a way, or whose entry has a place, goes on
(R178, R179). -/
def execInflightWayFree (s : State) : Host.Outcome State Fault Refusal :=
  let goes := fun (r : Resolution) =>
    match s.ddp.entry r.domain r.fp with
    | some e => e.pending || decide (e.waiters.length < 64)
    | none => decide ((s.ddp.inflight.filter (fun e => fpSet e.fp == fpSet r.fp)).length < 8)
  match s.ddp.blocked.find? goes with
  | none => .next s
  | some r => .next (resolveOne r { s with ddp := { s.ddp with
      blocked := dropFirst (fun x => x.grain == r.grain && x.peer == r.peer) s.ddp.blocked } })

/-- RESOLVE: the peer's fingerprint enters the queue. A resend is answered with the state at that time: the
outcome once known, else pending (R175). `x` is the content of the peer's grain as this head's staging holds it. -/
def execResolve (number domain : Nat) (verify through : Bool) (grain : Nat) (fp x : Bytes) (s : State) :
    Host.Outcome State Fault Refusal :=
  let mine := fun (r : Resolution) => r.peer && r.number == number
  onMessage number (.resolve domain verify through grain fp) (fun s0 =>
    let s := wake true s0
    let known := (s.ddp.queue ++ s.ddp.blocked ++ s.ddp.indexing.map (·.1) ++ s.ddp.comparing.map (·.2.1) ++
      s.ddp.inflight.flatMap (·.waiters)).find? mine
    match known with
    | some r => send (.resolveAnswer grain r.wcid 3) s
    | none => enqueue ⟨grain, true, domain, fp, verify, through, 0, number, x, s.tt.now, false⟩ s) s

/-- The RESOLVE of a grain that awaits its answer. -/
def Corr.resolveOf (c : Corr) (grain : Nat) : Option Sent :=
  c.unanswered.find? (fun m => match m.body with | .resolve _ _ _ g _ => g == grain | _ => false)

/-- RESOLVE_ANSWER: pending restarts the count of resends and may bring a write-through CID; any other outcome
settles the message (R175). -/
def execResolveAnswer (grain cid outcome : Nat) (s : State) : Host.Outcome State Fault Refusal :=
  onWord (.resolveAnswer grain cid outcome) (fun s =>
    match s.corr.resolveOf grain with
    | none => s
    | some m =>
      if outcome = 3 then
        let s1 := { s with corr := { s.corr with
          unanswered := s.corr.unanswered.map (fun x =>
            if x.number == m.number then { x with at_ := s.tt.now, resends := 0, pending := true } else x) } }
        if cid = 0 then s1 else modDestage grain (fun d => { d with
          wcid := cid, cid := cid, stage := if d.stage = .resolving then .encode else d.stage }) s1
      else takeOutcome grain outcome cid (settleNumber m.number s)) s

/-- RESOLVE_PENDING_TIMEOUT: 4 periods after a pending answer without another, the RESOLVE is sent again with
its number (R175). -/
def execResolvePendingTimeout (grain : Nat) (s : State) : Host.Outcome State Fault Refusal :=
  match s.corr.resolveOf grain with
  | none => .next s
  | some m =>
    whenDue (m.pending = true ∧ m.at_ + 4 ≤ s.tt.now)
      (tallyAdd 0x05 2 1 (emit (.corridor m.number m.body) { s with corr := { s.corr with
        unanswered := s.corr.unanswered.map (fun x =>
          if x.number == m.number then { x with at_ := s.tt.now, resends := 0, pending := false } else x) } })) s

/-- INDEX_READ_COMPLETE: a copy of an index page returned, sound or not; the lookup uses it, reads the next copy,
or after three bad copies finds nothing and records the media event (R192). -/
def execIndexReadComplete (grain : Nat) (peer sound : Bool) (s : State) : Host.Outcome State Fault Refusal :=
  match s.ddp.indexing.find? (fun p => p.1.grain == grain && p.1.peer == peer) with
  | none => .next s
  | some (r, n) =>
    let gone := { s with ddp := { s.ddp with
      indexing := dropFirst (fun p => p.1.grain == grain && p.1.peer == peer) s.ddp.indexing } }
    let b := s.ddp.bucket r.fp
    if sound then .next (useRecord r (s.ddp.indexFind r.domain r.fp) gone)
    else if n < 7 then
      let mpa := (getKey b s.ddp.pages).getD 0
      let m := s.triedNext mpa n
      .next (readMeta mpa n (.index grain m) { s with ddp := { s.ddp with
        indexing := s.ddp.indexing.map (fun p => if p.1.grain == grain && p.1.peer == peer then (r, m) else p) } })
    else .next (useRecord r none (event 0x5004 11 (b % 2 ^ 40) gone))

/-- REF_DELTA: the owner applies the peer's batch of count changes; JOURNAL_ACK answers (R176). -/
def execRefDelta (number : Nat) (l : List (Nat × Int)) (s : State) : Host.Outcome State Fault Refusal :=
  onMessage number (.refDelta l) (fun s =>
    reply number (.journalAck number) (journal (.refDelta l) (l.foldl (fun t p => addRef p.1 p.2 t) (wake true s)))) s

/-- The records of a bucket after the delta's changes: inserts up to 126 records, the rest counted as overflow
(R188, R190). -/
def mergeBucket (n : Nat) (old : List IdxRec) (changes : List DeltaRec) : List IdxRec × Nat :=
  changes.foldl (fun acc x => if x.action = 1 ∧ n ≤ acc.1.length then (acc.1, acc.2 + 1) else (applyChange acc.1 x, acc.2)) (old, 0)

/-! ### Recess work on the index (R183, R184, R188, R190) -/

/-- The records of the index pages in a bucket. -/
def Ddp.indexIn (d : Ddp) (b : Nat) : List IdxRec := d.index.filter (fun r => d.bucket r.fp == b)

/-- Some form whose role includes dedup index is in a Recess period (R188). -/
def State.indexRecess (s : State) : Bool :=
  s.tt.active.any (fun i => (List.range i.formCount).any (fun f => bitAt 2 (i.form f).role && s.formClass f == 4))

/-- Recess work has begun on a bucket's page, or has done with it. -/
def beginSweep (work b : Nat) (s : State) : State := { s with ddp := { s.ddp with sweeping := (work, b) :: s.ddp.sweeping } }

/-- Recess work has done with a bucket's page. -/
def endSweep (work b : Nat) (s : State) : State :=
  { s with ddp := { s.ddp with sweeping := s.ddp.sweeping.filter (fun x => x != (work, b)) } }

/-- Some Recess work of a kind is under way. -/
def Ddp.sweeps (d : Ddp) (work : Nat) : Bool := d.sweeping.any (fun x => x.1 == work)

/-- A bucket is merged: a page with the old records and every delta record the bucket holds is written to all three copies. Its
records count as merged once its epoch is durable; till then lookups see the old page and the delta (R188). -/
def mergeOne (b : Nat) (s : State) : State :=
  let here := fun (fp : Bytes) => s.ddp.bucket fp == b
  let (rs, excess) := mergeBucket 126 (s.ddp.indexIn b) (s.ddp.delta.filter (fun x => here x.r.fp))
  match writeMetaAs 2 4 [indexPage (b % 2 ^ 36) (b / 2 ^ 36) (s.ddp.bits b) s.epoch rs] s with
  | (s1, []) => endSweep 1 b s1
  | (s1, mpa :: _) =>
    let old := (getKey b s.ddp.pages).getD 0
    afterDurable s.epoch (.merged b mpa) (journal (.mapPage 5 (b / 2 ^ 36) 0 (b % 2 ^ 36) old mpa) { s1 with
      ftl := { s1.ftl with mpas := putKey (pageId 5 (b / 2 ^ 36) 0 (b % 2 ^ 36)) mpa s1.ftl.mpas }
      ddp := { s1.ddp with
        sweep := s1.ddp.sweep.map (fun _ => b + 1)
        overflow := min (s1.ddp.overflow + excess) (2 ^ 48 - 1)
        delta := s1.ddp.delta.map (fun x => if here x.r.fp then { x with merged := true } else x) } })

/-- The page of a merge is durable: it stands for its bucket, and the records merged leave the delta (R188). -/
def mergeDone (b mpa : Nat) (s : State) : State :=
  let gone := fun (x : DeltaRec) => x.merged && s.ddp.bucket x.r.fp == b
  let rs := (mergeBucket 126 (s.ddp.indexIn b) (s.ddp.delta.filter gone)).1
  endSweep 1 b { s with ddp := { s.ddp with
    index := s.ddp.index.filter (fun r => s.ddp.bucket r.fp != b) ++ rs
    pages := putKey b mpa s.ddp.pages
    delta := s.ddp.delta.filter (fun x => !gone x) } }

/-- A bucket is split on the next bit of f: its two pages are written; a bucket without records and without a page has none. The
unsplit bucket is read until they are durable (R190). -/
def splitOne (b : Nat) (s : State) : State :=
  let rs := s.ddp.indexIn b
  let low := rs.filter (fun r => fpF r.fp / 2 % 2 ^ (s.ddp.n + 1) == b % 2 ^ 36)
  let high := rs.filter (fun r => fpF r.fp / 2 % 2 ^ (s.ddp.n + 1) != b % 2 ^ 36)
  let page := fun (k : Nat) (l : List IdxRec) => indexPage k (b / 2 ^ 36) (s.ddp.n + 1) s.epoch l
  if rs = [] ∧ (getKey b s.ddp.pages).isNone = true then endSweep 2 b { s with ddp := { s.ddp with split := some (b + 1) } }
  else
    match writeMetaAs 2 4 [page (b % 2 ^ 36) low, page (b % 2 ^ 36 + 2 ^ s.ddp.n) high] s with
    | (s1, [x, y]) =>
      let old := (getKey b s.ddp.pages).getD 0
      let k := b % 2 ^ 36
      afterDurable s.epoch (.split b x y) (journal (.mapPage 5 (b / 2 ^ 36) 0 (k + 2 ^ s.ddp.n) 0 y)
        (journal (.mapPage 5 (b / 2 ^ 36) 0 k old x) { s1 with ftl := { s1.ftl with
          mpas := putKey (pageId 5 (b / 2 ^ 36) 0 (k + 2 ^ s.ddp.n)) y (putKey (pageId 5 (b / 2 ^ 36) 0 k) x s1.ftl.mpas) } }))
    | (s1, _) => endSweep 2 b s1

/-- The pages of a split are durable: they stand for the two buckets (R190). -/
def splitDone (b x y : Nat) (s : State) : State :=
  endSweep 2 b { s with ddp := { s.ddp with
    pages := putKey (b + 2 ^ s.ddp.n) y (putKey b x s.ddp.pages), split := some (b + 1) } }

/-- The bucket of a filter being built is whole: of a rebuild its CIDs take their slots, delta records included (R183, R184). -/
def filterOne (b : Nat) (s : State) : State :=
  let s1 := endSweep 0 b s
  let l := if s.ddp.fstate = 1 then s.ddp.records.filter (fun r => s.ddp.low r.fp == s.ddp.lowOf b) else []
  let s2 := l.foldl (fun t r => takeSlot r.fp t) s1
  { s2 with ddp := { s2.ddp with rebuilt := s2.ddp.rebuilt + 1 } }

/-- A bucket's page has been read, or it has none: the work goes on. -/
def sweepPage (work b : Nat) (s : State) : State :=
  if work = 0 then filterOne b s else if work = 1 then mergeOne b s else splitOne b s

/-- Work on a bucket: its page is read in a Recess period of the form that holds the copy; one without a page is worked on in a Recess
period of some dedup-index form. -/
def askSweep (work b : Nat) (s : State) : State :=
  match getKey b s.ddp.pages with
  | some mpa => readMetaAs 4 mpa 0 (.sweep work b (s.triedNext mpa 0)) (beginSweep work b s)
  | none => if s.indexRecess then sweepPage work b (beginSweep work b s) else s

/-- A copy of an index page arrives for Recess work, sound or not: the next copy is read after a bad one; after three the page's
records are lost, with the media event of a lookup (DESIGN CHOICE: R192 gives it for a lookup, no rule for Recess work). The filter
reads both pages of a split bucket. -/
def sweepArrived (work b tried : Nat) (sound : Bool) (s : State) : State :=
  if !s.ddp.sweeping.contains (work, b) then s
  else if !sound && tried < 7 then
    match getKey b s.ddp.pages with
    | some mpa => readMetaAs 4 mpa tried (.sweep work b (s.triedNext mpa tried)) s
    | none => sweepPage work b s
  else
    let s1 := if sound then s else event 0x5004 11 (b % 2 ^ 40) { s with ddp := { s.ddp with
      index := s.ddp.index.filter (fun r => s.ddp.bucket r.fp != b) } }
    if work = 0 ∧ s.ddp.isSplit b = true ∧ b % 2 ^ 36 < 2 ^ s.ddp.n then askSweep 0 (b + 2 ^ s.ddp.n) (endSweep 0 b s1)
    else sweepPage work b s1

/-- The next bucket at or above one that holds delta records. -/
def Ddp.nextMerge (d : Ddp) (from_ : Nat) : Option Nat :=
  ((d.delta.filter (fun x => !x.merged)).map (fun x => d.bucket x.r.fp)).filter (from_ ≤ ·) |>.min?

/-- The sweep at a bell: the next bucket is begun, one at a time and none that a split works on; at the end the sweep stops, or
starts again at once while the delta is half full (R188). -/
def mergeStep (s : State) : State :=
  match s.ddp.sweep with
  | none => s
  | some b =>
    if s.ddp.sweeps 1 then s
    else
      match s.ddp.nextMerge b with
      | some k => if s.ddp.sweeping.contains (2, s.ddp.lowOf k) then s else askSweep 1 k s
      | none => { s with ddp := { s.ddp with
          sweep := if 2 ^ s.ddp.deltaBits ≤ 2 * (s.ddp.delta.filter (fun x => !x.merged)).length then some 0 else none } }

/-- MERGE_SWEEP_START: the delta is half full and no sweep runs (R188). -/
def execMergeSweepStart (s : State) : Host.Outcome State Fault Refusal :=
  whenDue (s.ddp.sweep = none ∧ s.ddp.n ≠ 0 ∧ 2 ^ s.ddp.deltaBits ≤ 2 * s.ddp.delta.length)
    { s with ddp := { s.ddp with sweep := some 0 } } s

/-- The filter's work at a bell: lost lines are rebuilt in Recess; the next bucket is begun, ascending: of a rebuild, or of a larger
filter. A rebuild that is complete leaves the filter ready, or growing where a larger one is asked for (R183, R184, Table 16-5). -/
def filterStep (s : State) : State :=
  let d := if s.indexRecess then { s.ddp with badLines := s.ddp.badLines.drop 1 } else s.ddp
  if d.fstate ≠ 1 ∧ d.fstate ≠ 3 then { s with ddp := d }
  else if s.rebuildHalves.length * 2 ^ d.n ≤ d.rebuilt then
    (if d.fstate = 3 then { s with ddp := d }
     else if d.grownQ.isSome then { s with ddp := { d with fstate := 3, half := none, rebuilt := 0 } }
     else { s with ddp := { d with fstate := 2, half := none } })
  else if d.sweeps 0 then { s with ddp := d }
  else askSweep 0 s.rebuildBucket { s with ddp := d }

/-- The split at a bell: the next bucket is begun, one at a time and none that a merge works on; after the last bucket of the last
half n is one higher (R190). -/
def splitStep (s : State) : State :=
  match s.ddp.split with
  | none => s
  | some k =>
    if s.ddp.sweeps 2 ∨ s.ddp.sweeping.contains (1, k) = true then s
    else if k % 2 ^ 36 < 2 ^ s.ddp.n then askSweep 2 k s
    else if k < 2 ^ 36 ∧ s.indexHalves.contains 1 = true then { s with ddp := { s.ddp with split := some (2 ^ 36) } }
    else { s with ddp := { s.ddp with n := s.ddp.n + 1, split := none } }

/-- The first bucket of a split. -/
def State.firstSplit (s : State) : Nat := if s.indexHalves.contains 0 then 0 else 2 ^ 36

/-- FILTER_REPLACE: at a day boundary the grown filter, complete, replaces the old one (R183). -/
def execFilterReplace (s : State) : Host.Outcome State Fault Refusal :=
  match s.ddp.grownQ with
  | none => .next s
  | some q =>
    whenDue (s.period = 0 ∧ s.ddp.fstate = 3 ∧ s.rebuildHalves.length * 2 ^ s.ddp.n ≤ s.ddp.rebuilt)
      { s with ddp := { s.ddp with
        q := q, grownQ := none, fstate := 2, filter := s.ddp.records.map (fun r => fpG r.fp), stopped := false } } s

end Sys2Proof.Machine
end

