-- ==== Sys2Proof/Machine/DramBus.lean ====
section
/-! DEFINITION. DRAM as its requesters meet it: the address map, the region guard, requests and their hints, bank queues, command slots and
service classes, panic, the copy pointer (R34 to R37, R555 to R566, R569, R576, R579, R612). -/

namespace Sys2Proof.Machine

/-- A DRAM channel's present state. -/
def Dram.ch (d : Dram) (c : Nat) : Channel := d.channels.getD c Channel.reset

/-- A channel changed. -/
def Dram.setCh (d : Dram) (c : Nat) (x : Channel) : Dram := { d with channels := d.channels.set c x }

/-- A channel of the state changed. -/
def setChannel (c : Nat) (x : Channel) (s : State) : State := { s with dram := s.dram.setCh c x }

/-! ### Address map -/

/-- The reference DIMM: that of the lowest-numbered populated channel (R553). -/
def Dram.reference (d : Dram) : Option Dimm := d.channels.findSome? (fun c => c.dimm)

/-- C, the capacity of one DIMM, in bytes. -/
def Dram.capacity (d : Dram) : Nat := 2 ^ 30 * ((d.reference.map (·.gib)).getD 0)

/-- G, the interleave grain in bytes (R556). -/
def Dram.g (d : Dram) : Nat := 2 ^ (8 + d.grain)

/-- Home channel of an HPA (R556). -/
def Dram.home (d : Dram) (hpa : Nat) : Nat := hpa / d.g % 16

/-- Channel offset of an HPA (R556). -/
def Dram.offset (d : Dram) (hpa : Nat) : Nat := hpa / d.g / 16 * d.g + hpa % d.g

/-- Where a channel offset of an evacuated home channel lands: channel and offset (R558). -/
def Dram.redirect (d : Dram) (home off : Nat) : Nat × Nat :=
  let u := off / d.g
  let i := u % 15
  (if i < home then i else i + 1, 15 * d.capacity / 16 + u / 15 * d.g + off % d.g)

/-- The fields the offset bits select: subchannel, bank group, column, bank, rank, row (Table 16-2). -/
def offsetFields (ranks off : Nat) : List Nat :=
  let r := Nat.log2 ranks
  [off / 2 ^ 6 % 2, off / 2 ^ 7 % 8, off / 2 ^ 10 % 128, off / 2 ^ 17 % 4, off / 2 ^ 19 % 2 ^ r, off / 2 ^ (19 + r)]

/-- The region guard grants an access of `len` bytes: one entry covers it, names the initiator's mask bit
and gives the right: 1 read, 2 write, 3 execute (R559). -/
def Dram.grants (d : Dram) (initiator right hpa len : Nat) : Bool :=
  d.guard.any (fun e =>
    e.base * 2 ^ 21 ≤ hpa && hpa + len ≤ 2 ^ 21 * e.limit && bitAt initiator e.mask &&
    (if right = 1 then e.read else if right = 2 then e.write else e.exec))

/-- An initiator's bit in a guard entry (R559): Faculty clusters, host ports, the Corridor. Others do not pass the guard (R34). -/
def Requester.initiator : Requester → Option Nat
  | .faculty n => some (n % 4)
  | .hostPort n => some (4 + n % 4)
  | .corridor => some 8
  | .fanOut => none
  | .bayPorts _ => none
  | .metadata => none
  | .filter => none
  | .vaultFlush => none
  | .replication => none
  | .queueEntry => none
  | .wrapped => none
  | .diary => none
  | .tally => none
  | .scrub => none
  | .evacuation => none

/-- The right an access needs. -/
def Access.right : Access → Nat
  | .read => 1 | .write => 2 | .fetch => 3

/-- The Faculty code region, in units of 2 MiB: 16 MiB (R612). -/
def codeArea : Nat × Nat := (Config.codeBase, Config.codeBase + 8)

/-- An entry meets an area. -/
def GuardEntry.meets (e : GuardEntry) (a : Nat × Nat) : Bool := decide (e.base < a.2) && decide (a.1 < e.limit)

/-- What Prefect programs of an entry it means: Faculty gets neither staging nor wrapped contexts, and never writes its code region; host
ports get no metadata, wrapped contexts or code; the seal table is Prefect's alone (R35, R37, R439, R513). While the code region is locked
cache, no entry grants its place in DRAM (R612). -/
def GuardEntry.allowed (inCache : Bool) (e : GuardEntry) : List GuardEntry :=
  let faculty := { e with mask := e.mask % 16, write := e.write && !e.meets codeArea }
  let host := { e with mask := e.mask / 16 % 16 * 16 }
  let other := { e with mask := e.mask / 256 % 2 * 256 }
  if e.meets Config.sealArea || (inCache && e.meets codeArea) then []
  else
    ((if e.meets Config.stagingArea || e.meets Config.wrappedArea then [] else [faculty]) ++
      (if e.meets Config.metadataArea || e.meets Config.wrappedArea || e.meets codeArea then [] else [host]) ++
      [other]).filter (fun x => x.mask != 0)

/-- The region guard as Prefect programs it, 64 entries at most (R34, R513 step 4, R559). -/
def programGuard (s : State) : State :=
  { s with dram := { s.dram with guard := (Config.regionGuard.flatMap (fun e =>
      GuardEntry.allowed s.trust.codeInCache
        ⟨e.1, e.2.1, e.2.2.1, bitAt 0 e.2.2.2, bitAt 1 e.2.2.2, bitAt 2 e.2.2.2⟩)).take 64 } }

/-- Eight channels are in service: Prefect copies the code region from the locked cache to DRAM, grants it, and the cache returns to
caching (R612). -/
def returnCache (s : State) : State :=
  if s.trust.codeInCache then programGuard { s with trust := { s.trust with codeInCache := false } } else s

/-- The image of the running Faculty slot. -/
def Trust.facultyImage (t : Trust) : Bytes := ((if t.facultySlot = 0 then t.flash.slotF0 else t.flash.slotF1).image).getD []

/-- Code is executable at an HPA: outside the code region, or in a loaded chunk whose entry says so (Table 14-8, R513 step 6). -/
def Trust.executable (t : Trust) (hpa : Nat) : Bool :=
  let off := hpa - 2 ^ 21 * codeArea.1
  if 2 ^ 21 * codeArea.1 ≤ hpa ∧ hpa < 2 ^ 21 * codeArea.2 then
    t.chunks.any (fun i =>
      let a := 64 + 64 * i
      let b := t.facultyImage
      decide (fieldAt b (a + 8) 8 ≤ off) && decide (off < fieldAt b (a + 8) 8 + fieldAt b (a + 4) 4) && bitAt 1 (fieldAt b (a + 0x10) 4))
  else true

/-- A request passes the guard (R34, R559). -/
def State.admitsAccess (s : State) (r : DramReq) : Bool :=
  match r.who.initiator with
  | none => true
  | some i => s.dram.grants i r.kind.right r.hpa r.len && (r.kind != .fetch || s.trust.executable r.hpa)

/-- An access outside the granted regions is recorded as a security event (R34). -/
def guardEvent (initiator right hpa : Nat) (s : State) : State :=
  event 0xB001 0 (argOf [(0, initiator), (1, right), (2, hpa % 2 ^ 48)]) s

/-- A channel in service for requests. -/
def Channel.up (c : Channel) : Bool :=
  c.state == .inService || c.state == .copyingOut || c.state == .copyingHome

/-! ### Requesters and hints (Tables 2-11 and 16-3) -/

/-- The requesters in the order their rotating pointers take them. DESIGN CHOICE: the spec orders the ports of Table 2-11 and no others. -/
def requesters : List Requester :=
  (List.range 4).map .hostPort ++ [.fanOut, .corridor] ++ (List.range 4).map .bayPorts ++ [.metadata, .filter, .vaultFlush, .replication] ++
  (List.range 4).map .faculty ++ [.queueEntry, .wrapped, .diary, .tally, .scrub, .evacuation]

/-- The place of a requester in that order. -/
def Requester.number (r : Requester) : Nat := requesters.findIdx (· == r)

/-- A requester is a bell-synchronous port, of its number in Table 2-11. -/
def Requester.port (r : Requester) : Option Nat := if r.number < 14 then some r.number else none

/-- The page hint a requester sends (Table 16-3): 0 auto, 1 open, 2 close; 3 is never sent. -/
def Requester.hint : Requester → Nat
  | .faculty _ => 0
  | .diary => 0
  | .tally => 0
  | .scrub => 0
  | .hostPort _ => 1
  | .fanOut => 1
  | .corridor => 1
  | .bayPorts _ => 1
  | .vaultFlush => 1
  | .replication => 1
  | .evacuation => 1
  | .metadata => 2
  | .filter => 2
  | .queueEntry => 2
  | .wrapped => 2

/-! ### Where a request is served (R556 to R558, R576, R579) -/

/-- The bring-up channel whose reserve holds the units of a channel that is not in service: the lowest-numbered such channel has the lowest
bring-up channel, and so on (R576). -/
def Dram.paired (d : Dram) (c : Nat) : Option Nat :=
  let missing := (List.range 16).filter (fun x => !d.bringUpChannels.contains x && !(d.ch x).up)
  if missing.contains c then d.bringUpChannels[missing.findIdx (· == c)]? else none

/-- Units a copy moves: those of the live region, below C only while the bring-up map is in force (R558, R576). -/
def Dram.copyUnits (d : Dram) : Nat := (if d.bringUp then d.capacity / 16 else 15 * d.capacity / 16) / d.g

/-- Channel and offset at which a request is served: none while its unit is being copied, and while no channel can hold it. The copy
pointer is DRAM_EVAC.DONE: units below it are copied, the unit at it is being copied (R579). -/
def Dram.place (d : Dram) (hpa : Nat) : Option (Nat × Nat) :=
  let h := d.home hpa
  let off := d.offset hpa
  let u := off / d.g
  let there := some (d.redirect h off)
  if d.evacPhase != .none && d.evacChannel == h then
    match d.evacPhase with
    | .none => none
    | .copyingOut => if u < d.evacDone then there else if u = d.evacDone ∧ u < d.copyUnits then none else some (h, off)
    | .out => there
    | .copyingHome => if u < d.evacDone then some (h, off) else if u = d.evacDone ∧ u < d.copyUnits then none else there
  else if (d.ch h).up then some (h, off)
  else if d.bringUp then (d.paired h).map (fun p => (p, 15 * d.capacity / 16 + off))
  else if 15 ≤ ((List.range 16).filter (fun c => (d.ch c).up)).length then there
  else none

/-! ### Bank queues (R561, R562) -/

/-- A bank's queue. -/
def Channel.bank (c : Channel) (b : Nat) : BankQueue := (getKey b c.banks).getD ⟨none, []⟩

/-- The bank and the burst at a channel offset (Table 16-2). -/
def burstAt (ranks off : Nat) (r : DramReq) : Nat × Burst :=
  match offsetFields ranks off with
  | [sub, group, _, bank, rank, row] => (rank * 64 + sub * 32 + group * 4 + bank, ⟨off / 64, row, r.kind == .write, r.who, r.hint, 0⟩)
  | _ => (0, ⟨off / 64, 0, r.kind == .write, r.who, r.hint, 0⟩)

/-- One burst takes its place in its bank's queue of 32, where there is room and the channel serves; a channel in self-refresh leaves it
(R561, R569). -/
def Dram.putBurst (d : Dram) (now : Nat) (r : DramReq) : Option Dram :=
  match d.place r.hpa with
  | none => none
  | some (c, off) =>
    let x := d.ch c
    let (b, u) := burstAt ((x.dimm.map (·.ranks)).getD 1) off r
    let q := x.bank b
    if 32 ≤ q.bursts.length then none
    else some (d.setCh c { x with
      selfRefresh := false
      lastUse := now
      banks := putKey b { q with bursts := q.bursts ++ [u] } x.banks })

/-- The bursts of a request take their places in order, `n` of them at most; what finds no place is left. -/
def Dram.putBursts (now : Nat) : (n : Nat) → DramReq → Dram → Dram × DramReq
  | 0, r, d => (d, r)
  | n + 1, r, d =>
    if r.len = 0 then (d, r)
    else
      match d.putBurst now r with
      | none => (d, r)
      | some d1 => d1.putBursts now n { r with hpa := r.hpa + 64, len := r.len - 64 }

/-- The requests in order: one whose requester already waits, or whose bursts do not all find a place, waits (R561, R579). -/
def Dram.issue (now : Nat) (l : List DramReq) (d : Dram) : Dram :=
  l.foldl (fun d r =>
    if d.waiting.any (fun w => w.who == r.who) then { d with waiting := d.waiting ++ [r] }
    else
      let (d1, left) := d.putBursts now (r.len / 64) r
      if left.len = 0 then d1 else { d1 with waiting := d1.waiting ++ [left] }) { d with waiting := [] }

/-- The burst of a bank that goes next: one to the open row may pass older ones, the oldest at most 16 times and none to its own 64-byte
address; else the oldest (R562). DESIGN CHOICE: a burst that may pass does. -/
def BankQueue.next (q : BankQueue) : Option Nat :=
  match q.bursts with
  | [] => none
  | o :: _ =>
    let hit := fun i => match q.bursts[i]? with
      | none => false
      | some b => some b.row == q.openRow && (q.bursts.take i).all (fun x => x.addr != b.addr)
    if o.passed < 16 then some (((List.range q.bursts.length).find? hit).getD 0) else some 0

/-- The bank after its burst i: those it passed have been passed once more, and the row is left as the hint says (Table 16-3, R562). -/
def BankQueue.after (q : BankQueue) (i : Nat) (b : Burst) : BankQueue :=
  let rest := (q.bursts.take i).map (fun x => { x with passed := x.passed + 1 }) ++ q.bursts.drop (i + 1)
  let stays := b.hint == 1 || (b.hint == 0 && rest.any (fun x => x.row == b.row))
  ⟨if stays then some b.row else none, rest⟩

/-! ### Command slots (R563 to R565) -/

/-- The service class of a burst (Table 16-4, R565, R566). -/
def Channel.classOf (c : Channel) (b : Burst) : Nat :=
  if b.who = .scrub then 6
  else
    match b.who.port with
    | none => 5
    | some p =>
      if c.panicking.contains (2 * p + flagBit b.write) then 2
      else if 0 < (getKey p c.windows).getD 0 then 3
      else 5

/-- The first at or after a rotating pointer, over numbers below n (R23). -/
def firstFrom (n pointer : Nat) (ready : Nat → Bool) : Option Nat :=
  ((List.range n).map (fun i => (pointer + i) % n)).find? ready

/-- What a command slot of a subchannel may take: bank, place in its queue, burst. A bank whose next command the DIMM's timing does not
allow in the slot is passed over (R563): which banks is a free value, by bits of `skip`. -/
def Channel.ready (c : Channel) (sub skip : Nat) : List (Nat × (Nat × Burst)) :=
  c.banks.filterMap (fun (k, q) =>
    if k / 32 % 2 != sub || bitAt k skip then none
    else q.next.bind (fun i => (q.bursts[i]?).map (fun b => (k, (i, b)))))

/-- A refresh of a rank of a subchannel repays one of debt; its open rows are precharged (R567). -/
def Channel.refresh (c : Channel) (key : Nat) : Channel :=
  { c with
    debts := putKey key ((getKey key c.debts).getD 0 - 1) c.debts
    banks := c.banks.map (fun (x : Nat × BankQueue) =>
      if x.1 / 64 == key / 2 && x.1 / 32 % 2 == key % 2 then (x.1, { x.2 with openRow := none }) else x) }

/-- The rank of a subchannel with the highest debt, and the debt. -/
def Channel.debtOf (c : Channel) (sub : Nat) : Nat × Nat :=
  (c.debts.filter (fun x => x.1 % 2 == sub)).foldl (fun m x => if m.2 < x.2 then x else m) (sub, 0)

/-- A burst goes: the bank's queue moves on, its pointers pass it, and a port's window counts it (R563 to R566). -/
def Channel.serve (c : Channel) (cls k i : Nat) (b : Burst) : Channel :=
  let q := c.bank k
  let fifo := fun (p : Nat) => 2 * p + flagBit b.write
  let level := fun (p : Nat) => (getKey (fifo p) c.fifos).getD 0
  { c with
    banks := putKey k (q.after i b) c.banks
    turns := if cls = 6 then c.turns else putKey cls (b.who.number + 1) c.turns
    bankTurns := putKey (k / 32 % 2) (k + 1) c.bankTurns
    windows := match b.who.port with
      | none => c.windows
      | some p => c.windows.map (fun w => if w.1 == p then (p, w.2 - 1) else w)
    fifos := match b.who.port with
      | none => c.fifos
      | some p => putKey (fifo p) (if b.write then level p - 1 else level p + 1) c.fifos }

/-- A command slot of a subchannel goes to the first class with work ready: panic, windows, refresh at debt 4 and more, dynamic bursts,
then refresh at debt 1 to 3 and scrub reads (Table 16-4). Within classes 2, 3 and 5 the rotating pointer over the requesters decides, and
among a requester's banks the pointer over the banks (R563, R564). The class served: 0 none, 1 refresh. -/
def Channel.slot (sub skip : Nat) (c : Channel) : Channel × Nat :=
  let l := c.ready sub skip
  let best := (l.map (fun x => c.classOf x.2.2)).foldl min 7
  let debt := c.debtOf sub
  if (4 ≤ debt.2 ∧ 3 < best) ∨ (1 ≤ debt.2 ∧ 5 < best) then (c.refresh debt.1, 1)
  else
    let mine := l.filter (fun x => c.classOf x.2.2 == best)
    let who := firstFrom requesters.length ((getKey best c.turns).getD 0) (fun n => mine.any (fun x => x.2.2.who.number == n))
    let here := if best = 6 then mine else mine.filter (fun x => some x.2.2.who.number == who)
    match firstFrom 256 ((getKey sub c.bankTurns).getD 0) (fun k => here.any (fun x => x.1 == k)) with
    | none => (c, 0)
    | some k =>
      match here.find? (fun x => x.1 == k) with
      | none => (c, 0)
      | some x => (c.serve best k x.2.1 x.2.2, best)

/-- The counters of the Tally that a served slot raises (Table 17-3). -/
def tallySlot (cls : Nat) (s : State) : State :=
  if cls = 0 then s
  else if cls = 1 then tallyAdd 0x0E 3 1 s
  else
    let s1 := tallyAdd 0x0E 0 1 s
    if cls = 2 then tallyAdd 0x0E 2 1 s1 else if cls = 3 then tallyAdd 0x0E 1 1 s1 else s1

/-- A channel's command slots since the last one seen: how many there were, of which subchannel each, and which banks the DIMM's timing
held back are free values. -/
def serveSlots (channel : Nat) (s : State) : State :=
  let n := s.free
  (List.range n).foldl (fun t i =>
    let (c, cls) := (t.dram.ch channel).slot (s.freeAt (1 + 2 * i) % 2) (s.freeAt (2 + 2 * i))
    tallySlot cls (setChannel channel c t)) (drawn (1 + 2 * n) s)

/-! ### Panic (R566) -/

/-- The watermark of a port's FIFOs: one eighth of its window in the period, at least 16 bursts. -/
def watermark (window : Nat) : Nat := max 16 (window / 8)

/-- A FIFO raises panic: a read FIFO below its watermark, a write FIFO above it. -/
def fifoPanics (write : Bool) (mark level : Nat) : Bool := if write then decide (mark < level) else decide (level < mark)

/-- A FIFO's panic ends 64 bursts past its watermark on the good side. -/
def fifoCalm (write : Bool) (mark level : Nat) : Bool := if write then decide (level + 64 ≤ mark) else decide (mark + 64 ≤ level)

/-- The FIFOs of a channel's ports with a window in the period: their levels are free values, as who fills and drains them is unseen; panic
is raised and ends by them. A write FIFO also calms once it is empty (DESIGN CHOICE: below 64 bursts of watermark the rule's end is out of
reach). -/
def Channel.fifoBell (c : Channel) (level : Nat → Nat) : Channel :=
  let ports := c.windows.filter (fun w => w.2 != 0)
  let now := ports.flatMap (fun w => [(2 * w.1, level (2 * w.1)), (2 * w.1 + 1, level (2 * w.1 + 1))])
  let mark := fun (f : Nat) => watermark ((getKey (f / 2) c.windows).getD 0)
  let up := (now.filter (fun x => fifoPanics (x.1 % 2 == 1) (mark x.1) x.2 && !c.panicking.contains x.1)).map (·.1)
  let stays := c.panicking.filter (fun f =>
    match getKey f now with
    | none => false
    | some v => !fifoCalm (f % 2 == 1) (mark f) v && !(f % 2 == 1 && v == 0))
  { c with
    fifos := now
    panicking := stays ++ up
    panics := min (c.panics + up.length) (2 ^ 48 - 1)
    lastPort := (up.getLast?.map (· / 2)).getD c.lastPort }

/-! ### A period's traffic -/

/-- A request of a period: who, where and what it is are free values, within one chunk of the HPA space, which is below C while the bring-up
map is in force (R555, R556, R560, R576). -/
def Dram.drawnReq (d : Dram) (n : Nat → Nat) : DramReq :=
  let space := if d.bringUp then d.capacity else 15 * d.capacity
  let bursts := d.g / 64
  let chunk := n 1 % (space / d.g)
  let first := n 2 % bursts
  let who := requesters.getD (n 0 % requesters.length) .evacuation
  let kind := match who with
    | .scrub => Access.read
    | .faculty _ => if n 4 % 3 = 0 then .read else if n 4 % 3 = 1 then .write else .fetch
    | _ => if n 4 % 2 = 0 then .read else .write
  ⟨chunk * d.g + 64 * first, 64 * (1 + n 3 % (bursts - first)), kind, who, who.hint⟩

/-- A request meets the guard: outside its initiator's regions it is dropped, a read with zeros for its answer, and the security event
recorded (R34). -/
def guardRequest (r : DramReq) (s : State) : State × Option DramReq :=
  if s.admitsAccess r then (s, some r) else (guardEvent ((r.who.initiator).getD 0) r.kind.right r.hpa s, none)

/-- The copy pointer moves on: at no less than 16 GB/s, 32 GB/s home during bring-up, which is 256,000 and 512,000 bytes in a period; how
much faster is a free value (R578, Table 16-6). -/
def copyBell (s : State) : State :=
  let d := s.dram
  if d.evacPhase = .copyingOut ∨ d.evacPhase = .copyingHome then
    let least := ceilDiv (if d.bringUp ∧ d.evacPhase = .copyingHome then 512000 else 256000) d.g
    drawn 1 { s with dram := { d with evacDone := min d.copyUnits (d.evacDone + least + s.free) } }
  else s

/-- The DRAM traffic of a period, once eight channels serve: the copy pointer's advance, a free number of requests through the guard behind
those that wait, the FIFOs of the ports, and the command slots of every channel. -/
def dramBell (s : State) : State :=
  if s.dram.upEight = false then s
  else
    let s1 := copyBell s
    let m := s1.free
    let asked := (List.range m).map (fun i => s1.dram.drawnReq (fun k => s1.freeAt (1 + 5 * i + k)))
    let (s2, l) := asked.foldl (fun (a : State × List DramReq) r =>
      let (t, o) := guardRequest r a.1
      (t, a.2 ++ o.toList)) (drawn (1 + 5 * m) s1, [])
    let s3 : State := { s2 with dram := s2.dram.issue s2.tt.now (s2.dram.waiting ++ l) }
    let s4 := drawn 448 { s3 with dram := { s3.dram with channels := (List.range 16).map (fun c =>
      (s3.dram.ch c).fifoBell (fun f => s3.freeAt (28 * c + f))) } }
    (List.range 16).foldl (fun t c => serveSlots c t) s4

end Sys2Proof.Machine
end

