-- ==== Sys2Proof/Machine/Dram.lean ====
section
/-! DEFINITION. The DRAM controller: refresh, errors, training steps that need no other block (R552 to R579). -/

namespace Sys2Proof.Machine

/-! ### DIMM acceptance and rates -/

/-- A DIMM that Damrid trains beside the reference DIMM (R552, R553). -/
def dimmAccepted (ref : Option Dimm) (d : Dimm) : Bool :=
  match ref with
  | none => false
  | some r => d.kind != .other && d.part == r.part && d.gib == r.gib && d.ranks == r.ranks

/-- The highest rate code of Table 16-1 within the DIMM's rating, its kind and RATE_CAP (R552). -/
def targetRate (d : Dimm) (cap : Nat) : Nat :=
  match d.kind with
  | .rdimm => if 6400 ≤ d.rated ∧ 2 ≤ cap then 2 else 1
  | .mrdimm => if 8800 ≤ d.rated ∧ 3 ≤ cap then 3 else 1
  | .other => 0

/-- The rate of a code in MT/s (DRAM_CFG.RATE). -/
def rateMts (code : Nat) : Nat := if code = 1 then 4800 else if code = 2 then 6400 else if code = 3 then 8800 else 0

/-- A channel whose DIMM R553 accepts and which has not failed or been refused. -/
def Channel.usable (c : Channel) : Bool := c.dimm.isSome && c.state != .refused && c.state != .failed

/-- The event of a channel's state (DRAM_CHANNEL, Table 17-2). -/
def channelCode : ChannelState → Nat
  | .absent => 0 | .training => 1 | .inService => 2 | .copyingOut => 3
  | .out => 4 | .copyingHome => 5 | .failed => 6 | .refused => 7

/-- The island of a channel's DRAM group. -/
def channelIsland (c : Nat) : Nat := 26 + c / 4

/-- DRAM_CHANNEL is recorded for a channel's present state. -/
def channelEvent (c : Nat) (s : State) : State :=
  event 0xC001 (channelIsland c) (argOf [(0, c), (1, channelCode (s.dram.ch c).state)]) s

/-! ### Refresh, temperature, self-refresh -/

/-- Refresh debt of a rank of a subchannel after one tREFI: one more; at 8, refreshes run back to back, before any other class, until it
is 4 (R567, Table 16-4). -/
def debtAfter (debt : Nat) : Nat := if 8 ≤ debt + 1 then 4 else debt + 1

/-- DRAM_REFRESH_TICK: a rank of a subchannel accrues one refresh; refreshes at lower debt find their slots by class (R564, R567). -/
def execDramRefreshTick (channel rank sub : Nat) (s : State) : Host.Outcome State Fault Refusal :=
  let c := s.dram.ch channel
  let i := rank * 2 + sub % 2
  let debt := (getKey i c.debts).getD 0
  let after := debtAfter debt
  whenDue (c.up = true ∧ c.selfRefresh = false)
    (serveSlots channel (tallyAdd 0x0E 3 (debt + 1 - after)
      (setChannel channel { c with
        debts := putKey i after c.debts
        banks := if after = 4 ∧ debt = 7 then (c.refresh i).banks else c.banks } s))) s

/-- DIMM_TEMP_READ: a DIMM's temperature sets the refresh regime; above 95 °C the channel is to be taken
out (R568, R573). -/
def execDimmTempRead (channel : Nat) (temp : Int) (s : State) : Host.Outcome State Fault Refusal :=
  let c := s.dram.ch channel
  let sb : Bool := decide (85 < temp)
  let hot : Bool := decide (95 < temp)
  let s1 := setChannel channel { c with
    temp := temp, refsb := sb
    cause := if hot then some .temperature else c.cause
    outDue := c.outDue || (hot && c.state == .inService) } s
  let s2 := if sb = c.refsb then s1
    else event 0xC003 (channelIsland channel)
      (argOf [(0, channel), (1, flagBit sb), (2, signedBits 8 temp)]) s1
  let s3 := if hot && c.state == .inService then channelEvent channel s2 else s2
  whenDue (s.tt.now % 64 = 0 ∧ c.up = true) s3 s

/-- A channel without a window in the sheet in force that has seen no request for SR_IDLE enters
self-refresh (R569). -/
def execDramSelfRefreshIdle (channel : Nat) (s : State) : Host.Outcome State Fault Refusal :=
  let c := s.dram.ch channel
  whenDue (c.state = .inService ∧ c.windows.all (fun w => w.2 == 0) = true ∧ 100 * s.dram.srIdle ≤ 16 * (s.tt.now - c.lastUse) ∧
      c.banks.all (fun b => b.2.bursts.isEmpty) = true)
    (setChannel channel { c with selfRefresh := true } s) s

/-! ### Errors -/

/-- The times of a device's last 1,025 corrected bursts with one more. -/
def noteCorrected (now : Nat) (l : List Nat) : List Nat := (now :: l).take 1025

/-- More than 1,024 corrected bursts of the device within 3,600 s of trusted clock (R573). -/
def tooManyCorrected (now : Nat) (l : List Nat) : Bool :=
  match l[1024]? with
  | some t => now ≤ t + 3600000000
  | none => false

/-- DRAM_CORRECTED: a corrected burst is written back and counted against its device (R571, R573). -/
def execDramCorrected (channel rank device : Nat) (s : State) : Host.Outcome State Fault Refusal :=
  let c := s.dram.ch channel
  let i := rank * 20 + device % 20
  let l := noteCorrected s.clockUs ((getKey i c.devices).getD [])
  let bad := tooManyCorrected s.clockUs l && c.state == .inService
  .next (tallyAdd 0x0E 4 1 (setChannel channel { c with
    corr := min (c.corr + 1) (2 ^ 48 - 1), lastDevice := device % 20, lastRank := rank % 4
    devices := putKey i l c.devices
    cause := if bad then some .corrected else c.cause
    outDue := c.outDue || bad } s))

/-- An uncorrectable burst: counted, its HPA kept, its event raised, its channel to be taken out (R572, R573). -/
def noteUncorrectable (channel hpa : Nat) (s : State) : State :=
  let c := s.dram.ch channel
  let serving := c.state == .inService
  let s1 := setChannel channel { c with
    uncorr := min (c.uncorr + 1) 255
    cause := if serving then some .uncorrectable else c.cause
    outDue := c.outDue || serving } s
  tallyAdd 0x0E 5 1 (event 0xC002 (channelIsland channel) (argOf [(0, hpa % 2 ^ 48)])
    { s1 with dram := { s1.dram with eccValid := true, eccHpa := hpa % 2 ^ 48 } })

/-- DRAM_SCRUB: scrub has read a channel's whole DIMM, once in every 86,400 s of trusted clock (R571). -/
def execDramScrub (channel : Nat) (s : State) : Host.Outcome State Fault Refusal :=
  let c := s.dram.ch channel
  whenDue (c.up = true ∧ c.scrubbed + 86400 ≤ s.clockSec)
    (setChannel channel { c with scrubbed := s.clockSec } s) s

/-! ### Training steps -/

/-- Channels whose DIMM R553 accepts, in ascending order. -/
def Dram.accepted (d : Dram) : List Nat := (List.range 16).filter (fun c => (d.ch c).usable)

/-- A channel starts training: RATE_CAP is read now (DRAM_CFG.RATE_CAP), at 4,800 MT/s in bring-up. -/
def startTraining (c : Nat) (s : State) : State :=
  setChannel c { s.dram.ch c with state := .training, selfRefresh := false, debts := [] } s

/-- SPD is read: channels with a DIMM R553 refuses are refused with their event; the eight lowest accepted
channels start training (R553, R575, R576). -/
def readSpd (dimms : List (Option Dimm)) (s : State) : State :=
  let ref := dimms.findSome? id
  let s1 := { s with dram := { s.dram with
    channels := (List.range 16).map (fun c =>
      match dimms.getD c none with
      | none => { Channel.reset with state := .absent }
      | some d => { Channel.reset with
          dimm := some d, state := if dimmAccepted ref d then .absent else .refused })
    bringUp := false, bringUpChannels := [], evacPhase := .none, evacDone := 0, evacNext := none } }
  let s2 := ((List.range 16).filter (fun c => (s1.dram.ch c).state == .refused)).foldl (fun t c => channelEvent c t) s1
  (s2.dram.accepted.take 8).foldl (fun t c => startTraining c t) s2

/-- The bring-up channels as trained so far. -/
def Dram.trained (d : Dram) : List Nat := (List.range 16).filter (fun c => (d.ch c).up)

/-- The rate a channel trains to: 4,800 MT/s before the bring-up map is in force, its target after. -/
def Dram.trainRate (d : Dram) (c : Nat) : Nat :=
  if d.bringUp then ((d.ch c).dimm.map (fun x => targetRate x d.rateCap)).getD 0 else 1

/-- Eight channels are in service: the bring-up map takes effect, GRAIN is locked, and the other accepted
channels start training at their target rate; the Faculty code region moves to DRAM (Table 16-6, R612). -/
def bringUpReady (s : State) : State :=
  let up := s.dram.trained
  let s1 := returnCache { s with dram := { s.dram with bringUp := true, bringUpChannels := up, mapLock := true } }
  (s1.dram.accepted.filter (fun c => !up.contains c)).foldl (fun t c => startTraining c t) s1

/-- The next bring-up channel below its target rate is evacuated for retraining, one at a time; with none
left the full map takes effect (Table 16-6, R576). -/
def nextBringUp (s : State) : State :=
  match s.dram.bringUpChannels.find? (fun c =>
      (s.dram.ch c).state == .inService && !(s.dram.ch c).stuckOut &&
      (s.dram.ch c).rate < (((s.dram.ch c).dimm.map (fun x => targetRate x s.dram.rateCap)).getD 0)) with
  | some c =>
    let s1 := setChannel c { s.dram.ch c with state := .copyingOut } s
    { s1 with dram := { s1.dram with evacChannel := c, evacPhase := .copyingOut, evacDone := 0, evacRetrain := true } }
  | none =>
    if 15 ≤ s.dram.trained.length then { s with dram := { s.dram with bringUp := false } } else s

/-- Every accepted channel outside the bring-up channels is in service or out. -/
def Dram.othersDone (d : Dram) : Bool :=
  d.accepted.all (fun c => d.bringUpChannels.contains c ||
    (d.ch c).state == .inService || (d.ch c).state == .out)

end Sys2Proof.Machine
end

