-- ==== Sys2Proof/Machine/Sheets.lean ====
section
/-! DEFINITION. Degradations, sheet triggers and switches; lanes and lane groups (R26, R27, R80 to R85, R529). -/

namespace Sys2Proof.Machine

/-! ### Triggers (R81) -/

/-- A switch is agreed for a day, once. -/
def addSwitch (x : SheetSwitch) (s : State) : State :=
  if (s.tt.switches.filter (fun y => y.what == x.what)).getLast?.any (fun y => y.enter == x.enter) then s
  else { s with tt := { s.tt with switches := s.tt.switches ++ [x] } }

/-- A degradation in force concerns a head's choice of sheet: another head's Bring-up does not (R84). -/
def Degradation.concerns (slot : Nat) (d : Degradation) : Bool := !(d.kind == 5 && d.head != slot)

/-- One sheet covers every degradation: the only one there is, the head's own Bring-up, or a Peer-absent sheet
where the others lie on the absent head. -/
def coveringSheet (slot : Nat) (l : List Degradation) : Option Degradation :=
  match l with
  | [d] => some d
  | _ =>
    match l.find? (fun d => d.kind == 5 && d.head == slot) with
    | some d => some d
    | none => l.find? (fun d => d.kind == 1 && l.all (fun e => e == d || e.head != d.head))

/-- The sheet record of a head for the degradations in force (R78, R83, R84). -/
def State.sheetOfHead (s : State) (slot : Nat) : Degradation :=
  match s.tt.degraded.filter (Degradation.concerns slot) with
  | [] => ⟨0, 0xFF, 0⟩
  | l => (coveringSheet slot l).getD ⟨5, slot, 0⟩

/-- The sheet record for the degradations in force (R78, R83). -/
def State.sheetFor (s : State) : Degradation := s.sheetOfHead s.sys.slot

/-- The degradations in force once some switches have been made. -/
def switched (l : List Degradation) (xs : List SheetSwitch) : List Degradation :=
  xs.foldl (fun l x =>
    if x.enter then (if l.contains x.what then l else l ++ [x.what]) else l.filter (fun d => d != x.what)) l

/-- The degradations that the switches agreed so far lead to leave this head no sheet but its Bring-up sheet (R83). -/
def State.towardsBringUp (s : State) : Bool :=
  let l := (switched s.tt.degraded s.tt.switches).filter (Degradation.concerns s.sys.slot)
  2 ≤ l.length && (coveringSheet s.sys.slot l).isNone

/-- A head that is about to enter its Bring-up sheet under R83, or to leave it, tells the peer in SHEET_TRIGGER (R81, R84). -/
def tellBringUp (was : Bool) (s : State) : State :=
  if s.towardsBringUp = was then s
  else sendPeer (.sheetTrigger 5 (if was then 2 else 1) 0 s.tt.now s.switchDay) s

/-- A degradation is in force, or agreed, and no return of it is agreed. -/
def State.standing (s : State) (d : Degradation) : Bool := (switched s.tt.degraded s.tt.switches).contains d

/-- A trigger of Table 2-14 detected here, or a return, named by the kind and index of the sheet that covers it:
the switch day is the first day boundary at least 2 periods on, and SHEET_TRIGGER tells the peer (R81). A loss ends the days in
service that the resource's return counts, which have to be consecutive (Table 2-14). -/
def trigger (enter : Bool) (kind index : Nat) (s0 : State) : State :=
  let d : Degradation := ⟨kind, s0.sys.slot, index⟩
  let s := if enter then { s0 with tt := { s0.tt with returning := s0.tt.returning.filter (fun x => x.1 != d) } } else s0
  if enter && s.standing d then s
  else
    tellBringUp s.towardsBringUp
      (sendPeer (.sheetTrigger kind (if enter then 1 else 2) index s.tt.now s.switchDay) (addSwitch ⟨s.switchDay, enter, d⟩ s))

/-- The number of a sheet in the image in force. -/
def State.sheetNumber (s : State) (d : Degradation) : Nat :=
  (s.tt.active.bind (fun i => (List.range i.sheetCount).find? (fun k =>
    (i.sheet k).kind == d.kind && (i.sheet k).head == d.head && (i.sheet k).index == d.index))).getD 0

/-- A sheet takes effect: its number, the event, the count, the fences of the forms this head gains. -/
def putSheet (d : Degradation) (s : State) : State :=
  refence s (tallyAdd 0x03 0 1 (event 0x2002 31 (argOf [(0, d.kind), (1, d.head), (2, d.index)])
    { s with tt := { s.tt with sheet := s.sheetNumber d, sheetOf := d } }))

/-- At a switch day the sheet for the degradations in force is selected; more than one without a sheet for all
is an event that names up to four (R83). -/
def selectSheet (s : State) : State :=
  let l := s.tt.degraded.filter (Degradation.concerns s.sys.slot)
  let s1 := if 2 ≤ l.length ∧ (coveringSheet s.sys.slot l).isNone = true then
      event 0x2003 31 (argOf ((List.range (min 4 l.length)).flatMap (fun i =>
        let d := l.getD i ⟨0, 0, 0⟩
        [(2 * i, d.kind % 256), (2 * i + 1, d.index % 256)]))) s
    else s
  if s.tt.vaultDue || s.tt.sheetOf.kind == 6 then s1
  else if s.sheetFor = s.tt.sheetOf then s1 else putSheet s.sheetFor s1

/-- The switches due on a day change the degradations in force. -/
def applySwitches (s : State) : State :=
  let now := s.tt.switches.filter (fun x => x.day ≤ s.day)
  { s with tt := { s.tt with
    switches := s.tt.switches.filter (fun x => !(x.day ≤ s.day))
    degraded := switched s.tt.degraded now } }

/-- Resources switched out by plan leave service at the switch; a channel's copy starts (R81, R575). -/
def takeOut (x : SheetSwitch) (s : State) : State :=
  if !x.enter || x.what.head != s.sys.slot then s
  else if x.what.kind = 2 then
    { s with lanes := { s.lanes with
        groupsOut := if s.lanes.groupsOut.contains x.what.index then s.lanes.groupsOut else s.lanes.groupsOut ++ [x.what.index] } }
  else if x.what.kind = 4 then
    { s with bay := { s.bay with
        groupsOut := if s.bay.groupsOut.contains x.what.index then s.bay.groupsOut else s.bay.groupsOut ++ [x.what.index] } }
  else if x.what.kind = 3 then
    match s.dram.evacNext with
    | none => s
    | some (c, re) =>
      if c = x.what.index then
        channelEvent c (setChannel c { s.dram.ch c with state := .copyingOut } { s with dram := { s.dram with
          evacChannel := c, evacPhase := .copyingOut, evacDone := 0, evacNext := none, evacRetrain := re } })
      else s
  else s

/-- A trigger during a handover stops it: it starts again from step 5 (R492). -/
def handoverAgain (due : List SheetSwitch) (s : State) : State :=
  if s.corr.roll = .joining ∧ 5 ≤ s.corr.step ∧ due.any (·.enter) = true then
    { s with corr := { s.corr with step := 4 } }
  else s

/-- The switches whose day has come. -/
def State.switchesDue (s : State) : List SheetSwitch := s.tt.switches.filter (fun x => x.day ≤ s.day)

/-- At a switch day the head selects the sheet for the degradations then in force; what leaves by plan leaves (R81). -/
def switchBell (s : State) : State :=
  let due := s.switchesDue
  if due = [] then s else handoverAgain due (due.foldl (fun t x => takeOut x t) (selectSheet (applySwitches s)))

/-- SHEET_SWITCH: at its day boundary both heads select the sheet for the degradations then in force (R81). The bell of that
boundary has done it before any other work of its period; the row does what is still due. -/
def execSheetSwitch (s : State) : Host.Outcome State Fault Refusal := .next (switchBell s)

/-- SHEET_TRIGGER: the peer names a degradation or a return and the switch day; the same message answers (R81). -/
def execSheetTrigger (number kind action index detected switchDay : Nat) (s : State) :
    Host.Outcome State Fault Refusal :=
  onMessage number (.sheetTrigger kind action index detected switchDay) (fun s =>
   match s.corr.answerOf (fun b => b == .sheetTrigger kind action index detected switchDay) with
   | some m => settleNumber m.number s
   | none =>
    reply number (.sheetTrigger kind action index detected switchDay)
      (if action = 1 ∨ action = 2 then
        tellBringUp s.towardsBringUp (addSwitch ⟨switchDay, action == 1, ⟨kind, 1 - s.sys.slot, index⟩⟩ s) else s)) s

/-- A resource is back in service: its 64 days begin (Table 2-14). -/
def beginReturn (d : Degradation) (s : State) : State :=
  { s with tt := { s.tt with returning := (s.tt.returning.filter (fun x => x.1 != d)) ++ [(d, s.day)] } }

/-- RESOURCE_RETURN_DUE: 64 consecutive days in service, and the return is announced (R81, Table 2-14). -/
def execResourceReturnDue (what : Degradation) (s : State) : Host.Outcome State Fault Refusal :=
  whenDue (s.tt.returning.any (fun x => x.1 == what && x.2 + 64 ≤ s.day && what.head == s.sys.slot) = true)
    (trigger false what.kind what.index { s with tt := { s.tt with returning := s.tt.returning.filter (fun x => x.1 != what) } })
    s

/-! ### Lanes (R26, R27, R529) -/

/-- The islands of an engine kind, two per kind but for digest and parity. -/
def laneIsland (l : LaneId) : Nat :=
  match l.kind with
  | .enc => if l.spare then 12 + l.index else 12 + l.index / 16
  | .dec => if l.spare then 14 + l.index / 2 else 14 + l.index / 24
  | .cip => if l.spare then 16 + l.index else 16 + l.index / 12
  | .dig => 18
  | .par => 19

/-- Active and spare lanes of an engine island: kind, first active, actives, first spare, spares (Table 1-2). -/
def islandLanes (island : Nat) : EngineKind × Nat × Nat × Nat × Nat :=
  if island = 12 then (.enc, 0, 16, 0, 1) else if island = 13 then (.enc, 16, 16, 1, 1)
  else if island = 14 then (.dec, 0, 24, 0, 2) else if island = 15 then (.dec, 24, 24, 2, 2)
  else if island = 16 then (.cip, 0, 12, 0, 1) else if island = 17 then (.cip, 12, 12, 1, 1)
  else if island = 18 then (.dig, 0, 24, 0, 2) else (.par, 0, 8, 0, 1)

/-- Lanes of a kind. -/
def laneCount : EngineKind → Nat × Nat
  | .enc => (32, 2)
  | .dec => (48, 4)
  | .cip => (24, 2)
  | .dig => (24, 2)
  | .par => (8, 1)

/-- A lane exists. -/
def laneOk (l : LaneId) : Bool := if l.spare then l.index < (laneCount l.kind).2 else l.index < (laneCount l.kind).1

/-- The lane group of an active lane, as R63 numbers them. -/
def laneGroup (l : LaneId) : Nat :=
  match l.kind with
  | .enc => l.index / 8
  | .dec => 4 + l.index / 8
  | .cip => 10 + l.index / 6
  | .dig => 14 + l.index / 6
  | .par => 18 + l.index / 4

/-- The number of a lane in events and records: spares follow the active lanes (Table 6-8). -/
def laneNumber (l : LaneId) : Nat := if l.spare then (laneCount l.kind).1 + l.index else l.index

/-- The lane of a number. -/
def laneOf (k : EngineKind) (n : Nat) : LaneId :=
  if n < (laneCount k).1 then ⟨k, false, n⟩ else ⟨k, true, n - (laneCount k).1⟩

/-- A LANE event (Table 17-2): 1 out for test, 2 failed, 3 group out. -/
def laneEvent (l : LaneId) (why : Nat) (s : State) : State :=
  event 0x6002 (laneIsland l) (argOf [(0, laneIsland l), (1, laneNumber l), (2, why)]) s

/-- A lane is out of service. -/
def Lanes.isOut (n : Lanes) (l : LaneId) : Bool := n.out.any (fun o => o.lane == l)

/-- The spares of a lane's island that are sound and stand in for no lane. -/
def Lanes.freeSpares (n : Lanes) (l : LaneId) : List LaneId :=
  let (k, _, _, first, count) := islandLanes (laneIsland l)
  ((List.range count).map (fun i => (⟨k, true, first + i⟩ : LaneId))).filter (fun x =>
    !n.isOut x && !n.out.any (fun o => o.spare == some x))

/-- The whole group of a lane leaves service, and the switch is agreed (R27). -/
def groupOut (l : LaneId) (s : State) : State :=
  let g := laneGroup l
  if s.lanes.groupsOut.contains g then s
  else trigger true 2 g (laneEvent l 3 { s with lanes := { s.lanes with groupsOut := s.lanes.groupsOut ++ [g] } })

/-- A free spare of its island stands in for a lane that is out, from the next period boundary; with none left the lane's whole
group leaves (R26, R27). -/
def coverLane (l : LaneId) (s : State) : State :=
  let spare := (s.lanes.freeSpares l).head?
  let s1 := { s with lanes := { s.lanes with
    out := s.lanes.out.map (fun o => if o.lane == l then { o with spare := spare, since := s.tt.now + 1 } else o) } }
  if spare.isSome then s1 else groupOut l s1

/-- A lane leaves service for a test or as failed: a spare is found for it, or, where it is a spare that stands in, for the lane
it stands in for (R26, R27). -/
def laneOut (l : LaneId) (cause : LaneOutCause) (s : State) : State :=
  if s.lanes.isOut l then
    if cause = .failed then { s with lanes := { s.lanes with
        out := s.lanes.out.map (fun o => if o.lane == l then { o with cause := .failed } else o) } } else s
  else
    let s1 := laneEvent l (if cause = .failed then 2 else 1)
      { s with lanes := { s.lanes with out := s.lanes.out ++ [⟨l, cause, none, s.tt.now + 1⟩] } }
    if l.spare then
      match s1.lanes.out.find? (fun o => o.spare == some l) with
      | some o => coverLane o.lane s1
      | none => s1
    else coverLane l s1

/-- A lane works: it is in service, or the spare that stands in for a lane of the timetable, from its bell on (R26, R27). -/
def State.laneWorks (s : State) (l : LaneId) : Bool :=
  !s.lanes.isOut l &&
  (if l.spare then s.lanes.out.any (fun o => o.spare == some l && decide (o.since ≤ s.tt.now) && !s.lanes.groupsOut.contains (laneGroup o.lane))
   else !s.lanes.groupsOut.contains (laneGroup l))

/-- The lane under whose writer ID and counters a cipher lane encrypts: of a spare, the lane it stands in for (R252). -/
def State.writerLane (s : State) (lane : Nat) : Nat :=
  let l := laneOf .cip lane
  if l.spare then ((s.lanes.out.find? (fun o => o.spare == some l)).map (fun o => o.lane.index)).getD lane else lane

/-- A second try of a slot goes to a lane of the other island than the first (R232, R250). -/
def otherIsland (k : EngineKind) (first : Option Nat) (lane : Nat) : Bool :=
  match first with
  | none => true
  | some f => laneIsland (laneOf k f) != laneIsland (laneOf k lane)

/-- The output of a lane is taken: the lane exists and works, or it was rotated out in this period or the last and completes the
grain it had started, which takes less than a period (R221, R225). -/
def State.laneDelivers (s : State) (l : LaneId) : Bool :=
  laneOk l &&
  (s.laneWorks l || s.lanes.out.any (fun o => o.lane == l && o.cause == .test && decide (s.tt.now ≤ o.since)))

/-- A lane is back in service. -/
def laneBack (l : LaneId) (s : State) : State :=
  { s with lanes := { s.lanes with out := s.lanes.out.filter (fun o => o.lane != l) } }

/-- LANE_FAULT: a lane is found faulty during work and leaves service for its self-test (R26, R225). -/
def execLaneFault (lane : LaneId) (s : State) : Host.Outcome State Fault Refusal :=
  whenDue (laneOk lane = true) (laneOut lane .failed s) s

/-- The lane an island's rotation tests next, in order, spares last (R529). -/
def Lanes.turn (n : Lanes) (island : Nat) : LaneId :=
  let (k, first, count, fs, cs) := islandLanes island
  let i := ((getKey island n.nextTest).getD 0) % (count + cs)
  if i < count then ⟨k, false, first + i⟩ else ⟨k, true, fs + (i - count)⟩

/-- LANE_ROTATION: the lane whose turn it is leaves service for its known-answer tests, one lane of an island at
a time, once a spare is free to stand in for it (R26, R529). -/
def execLaneRotation (lane : LaneId) (s : State) : Host.Outcome State Fault Refusal :=
  let island := laneIsland lane
  whenDue (laneOk lane = true ∧ s.lanes.turn island = lane ∧
      s.lanes.out.any (fun o => o.cause == .test && laneIsland o.lane == island) = false ∧
      (lane.spare = true ∨ s.lanes.freeSpares lane ≠ [] ∨ s.lanes.isOut lane = true))
    (laneOut lane .test { s with lanes := { s.lanes with
      nextTest := putKey island ((getKey island s.lanes.nextTest).getD 0 + 1) s.lanes.nextTest
      lastTest := putKey island s.tt.now s.lanes.lastTest } }) s

/-- A lane's test has its result: a lane that passes returns, one that fails stays out with an event (R529). -/
def testDone (lane : LaneId) (pass : Bool) (s : State) : State :=
  if !s.lanes.isOut lane then s
  else if pass then laneBack lane s
  else
    let s1 := laneEvent lane 2 { s with lanes := { s.lanes with
      out := s.lanes.out.map (fun o => if o.lane == lane then { o with cause := .failed } else o) } }
    let o := s1.lanes.out.find? (fun o => o.lane == lane)
    if lane.spare ∨ o.any (fun x => x.spare.isSome) = true then s1 else coverLane lane s1

/-- LANE_TEST_COMPLETE: the known-answer tests of a lane out for test end (R529). A DIAG_LANE_TEST that waits on
the lane is answered with the result. -/
def execLaneTestComplete (lane : LaneId) (pass : Bool) (s : State) : Host.Outcome State Fault Refusal :=
  let asked := s.cpi.accepted.find? (fun p => p.opcode == 0x0802 && p.param 0 1 == laneIsland lane &&
    laneOf lane.kind (p.param 1 1) == lane && s.lanes.isOut lane)
  let s1 := testDone lane pass s
  match asked with
  | none => .next s1
  | some p => .next (changed p (fields [(1, flagBit (!pass)), (7, 0)]) s1)

/-- DIAG_LANE_TEST: a lane leaves service for its tests on demand; the reply follows them (R529, Table 15-13). -/
def execDiagLaneTest (b : Binding) (tag : Nat) (s : State) : Host.Outcome State Fault Refusal :=
  onPacket b tag 0x0802 (fun p s =>
    let island := p.param 0 1
    let (k, first, count, fs, cs) := islandLanes island
    let l := laneOf k (p.param 1 1)
    if !laneOk l || laneIsland l != island || (!l.spare && !(first ≤ l.index && l.index < first + count)) ||
        (l.spare && !(fs ≤ l.index && l.index < fs + cs)) then badParam p 1 s
    else laneOut l .test s) s

/-- DIAG_LANE_GROUP: a lane group leaves by planned removal, switch first, or is put back and begins its 64 days
(R81, Table 15-13). The reply carries the switch day of a removal; for a return the day its 64 days end. -/
def execDiagLaneGroup (b : Binding) (tag : Nat) (s : State) : Host.Outcome State Fault Refusal :=
  onPacket b tag 0x0803 (fun p s =>
    let g := p.param 0 1
    if p.param 1 1 = 1 then changed p (leBytes 8 s.switchDay) (trigger true 2 g s)
    else changed p (leBytes 8 (s.day + 64)) (beginReturn ⟨2, s.sys.slot, g⟩
      { s with lanes := { s.lanes with groupsOut := s.lanes.groupsOut.filter (fun x => x != g) } })) s

/-- DIAG_BAY_GROUP: a bay port group leaves or returns in the same way (R423, Table 15-13). -/
def execDiagBayGroup (b : Binding) (tag : Nat) (s : State) : Host.Outcome State Fault Refusal :=
  onPacket b tag 0x0805 (fun p s =>
    let g := p.param 0 1
    if p.param 1 1 = 1 then changed p (leBytes 8 s.switchDay) (trigger true 4 g s)
    else changed p (leBytes 8 (s.day + 64)) (beginReturn ⟨4, s.sys.slot, g⟩
      { s with bay := { s.bay with groupsOut := s.bay.groupsOut.filter (fun x => x != g) } })) s

end Sys2Proof.Machine
end

