-- ==== Sys2Proof/Machine/Skehox.lean ====
section
/-! DEFINITION. Skehox coding: the decoder to the bit, and the encoder's selection of tier and mode
(R204 to R231). -/

namespace Sys2Proof.Machine

/-- An error of the decoder: its status and bit offset (Table 6-7). -/
structure SkxError where
  status : Status
  offset : Nat
  deriving DecidableEq, Repr

/-- The size of a tier (Table 6-1). -/
def tierSize (tier : Nat) : Nat := 4096 * tier

/-- The bits of a part, bit 0 of its first byte first (R209). -/
def partBits (b : Bytes) : List Bool :=
  b.flatMap (fun x => (List.range 8).map (fun i => x.getLsbD i))

/-- A fixed-width integer, least significant bit first (R210). -/
def lsbNat : List Bool → Nat
  | [] => 0
  | b :: r => flagBit b + 2 * lsbNat r

/-! ### Header (R208) -/

/-- A grain header (Table 6-2). -/
structure SkxHeader where
  tierCode : Nat
  coded    : Bool
  table    : Nat
  lens     : List Nat
  total    : Nat
  deriving DecidableEq, Repr

/-- The header at offset 0 of a slot. -/
def skxHeader (b : Bytes) : SkxHeader :=
  let q := fieldAt b 4 7
  ⟨fieldAt b 1 1 % 4, fieldAt b 1 1 / 4 % 4 == 1, fieldAt b 2 2,
   [q % 16384, q / 2 ^ 14 % 16384, q / 2 ^ 28 % 16384, q / 2 ^ 42 % 16384], fieldAt b 0x0C 2⟩

/-- The bit offset of the first faulty field of a header, checked in field order (R229). DESIGN CHOICE: where Table 6-2 packs several
items into one field, the item counts as the faulty field: the table mode at bit 10 and the reserved bits at bit 12 of the format byte, and
quarter length Li at bit 32 + 14 i; the rule says only "first bit of the first faulty field". -/
def headerFault (b : Bytes) (tier : Nat) : Option Nat :=
  let h := skxHeader b
  let mode := fieldAt b 1 1 / 4 % 4
  if fieldAt b 0 1 ≠ 1 then some 0
  else if h.tierCode = 3 ∨ h.tierCode + 1 ≠ tier then some 8
  else if 1 < mode then some 10
  else if fieldAt b 1 1 / 16 ≠ 0 then some 12
  else if (mode = 1 ∧ h.table = 0) ∨ (mode = 0 ∧ h.table ≠ 0) ∨ 160 < h.table then some 16
  else
    match (List.range 4).find? (fun i => h.lens.getD i 0 == 0) with
    | some i => some (32 + 14 * i)
    | none =>
      if h.total ≠ 32 + h.table + sumNat h.lens ∨ tierSize tier < h.total then some 96
      else ((List.range 144).find? (fun i => bitAt (i % 8) (fieldAt b (0x0E + i / 8) 1))).map (· + 112)

/-! ### Code lengths (R215 to R218) -/

/-- The fixed-mode lengths of the 320 positions (R215). -/
def fixedLengths : List Nat :=
  List.replicate 256 9 ++ List.replicate 32 6 ++ List.replicate 8 4 ++ List.replicate 16 5 ++ List.replicate 8 0

/-- The sum over the symbols of 2^(11 − length), which is 2,048 for a complete code. -/
def kraft (l : List Nat) : Nat := sumNat (l.map (fun n => if n = 0 then 0 else 2 ^ (11 - n)))

/-- An alphabet's code is complete, or has exactly one symbol of length 1 (R217). -/
def codeOk (l : List Nat) : Bool := kraft l == 2048 || l.filter (· != 0) == [1]

/-- A set of 320 code lengths is valid (R217). -/
def lengthsOk (l : List Nat) : Bool :=
  let lit := l.take 288
  let dst := l.drop 288
  codeOk lit && (dst.drop 24).all (· == 0) &&
  (if (lit.drop 256).any (· != 0) then codeOk dst else dst.all (· == 0) || codeOk dst)

/-- The first code of each length 1 to 11 (R218). -/
def firstCodes (l : List Nat) : List Nat :=
  ((List.range 11).foldl (fun (acc : List Nat × Nat × Nat) i =>
    let code := (acc.2.1 + acc.2.2) * 2
    (acc.1 ++ [code], code, (l.filter (· == i + 1)).length)) ([], 0, 0)).1

/-- The code of symbol s: the first code of its length plus its rank among the symbols of that length. -/
def codeOf (l firsts : List Nat) (s : Nat) : Nat :=
  let n := l.getD s 0
  firsts.getD (n - 1) 0 + ((l.take s).filter (· == n)).length

/-- The canonical code of an alphabet as (length, code, symbol) entries (R218). -/
def canonical (l : List Nat) : List (Nat × Nat × Nat) :=
  let f := firstCodes l
  ((List.range l.length).filter (fun s => l.getD s 0 != 0)).map (fun s => (l.getD s 0, codeOf l f s, s))

/-- Items of a code-length table until position 319 is filled (R216): lengths so far, bit position. -/
def tableItems : Nat → List Bool → Nat → List Nat → Except SkxError (List Nat × Nat)
  | 0, _, pos, _ => .error ⟨.skxBadTable, pos⟩
  | fuel + 1, bits, pos, lens =>
    if 320 ≤ lens.length then .ok (lens, pos)
    else
      let rest := bits.drop pos
      let it := lsbNat (rest.take 4)
      let extra := if it = 12 then 2 else if it = 13 then 3 else if it = 14 then 7 else 0
      if rest.length < 4 ∨ (it ≠ 15 ∧ rest.length < 4 + extra) then .error ⟨.skxBadTable, pos⟩
      else if it = 15 ∨ (it = 12 ∧ lens = []) then .error ⟨.skxBadTable, pos⟩
      else
        let x := lsbNat ((rest.drop 4).take extra)
        let run := if it < 12 then [it]
          else if it = 12 then List.replicate (3 + x) ((lens.getLast?).getD 0)
          else if it = 13 then List.replicate (3 + x) 0
          else List.replicate (11 + x) 0
        if 320 < lens.length + run.length then .error ⟨.skxBadTable, pos⟩
        else tableItems fuel bits (pos + 4 + extra) (lens ++ run)

/-- The code-length table of a coded-mode grain (R216, R229). -/
def readTable (t : Bytes) : Except SkxError (List Nat) :=
  let bits := partBits t
  match tableItems 321 bits 0 [] with
  | .error e => .error e
  | .ok (lens, pos) =>
    match (List.range (roundUp pos 8 - pos)).find? (fun i => bits.getD (pos + i) false) with
    | some i => .error ⟨.skxBadTable, pos + i⟩
    | none =>
      if roundUp pos 8 < bits.length then .error ⟨.skxBadTable, roundUp pos 8⟩
      else if !lengthsOk lens then .error ⟨.skxBadTable, pos⟩
      else .ok lens

/-! ### Symbols (Tables 6-3 and 6-4) -/

/-- Extra bits of a match length symbol. -/
def lenExtra (s : Nat) : Nat := if s < 268 then 0 else (s - 266) / 2

/-- Base length of a match length symbol. -/
def lenBase (s : Nat) : Nat :=
  if s < 268 then s - 252
  else 16 + sumNat ((List.range (s - 268)).map (fun i => 2 ^ lenExtra (268 + i)))

/-- Extra bits of a distance symbol. -/
def distExtra (s : Nat) : Nat := if s < 4 then 0 else (s - 2) / 2

/-- Base distance of a distance symbol. -/
def distBase (s : Nat) : Nat := 1 + sumNat ((List.range s).map (fun i => 2 ^ distExtra i))

/-- A code read from the bits left, b bits of value v already taken: its symbol and length, `inl true`
past the end, `inl false` where the bits form no code (R210). -/
def readCodeFrom (codes : List (Nat × Nat × Nat)) : Nat → List Bool → Nat → Nat → Bool ⊕ (Nat × Nat)
  | 0, _, _, _ => .inl false
  | _ + 1, [], _, _ => .inl true
  | fuel + 1, x :: r, b, v =>
    match codes.find? (fun c => c.1 == b + 1 && c.2.1 == 2 * v + flagBit x) with
    | some c => .inr (c.2.2, b + 1)
    | none => readCodeFrom codes fuel r (b + 1) (2 * v + flagBit x)

/-- A code of at most 11 bits read from the bits left. -/
def readCode (codes : List (Nat × Nat × Nat)) (bits : List Bool) : Bool ⊕ (Nat × Nat) :=
  readCodeFrom codes 11 bits 0 0

/-- n copies of the byte d back from the end of an output kept newest first (R214). -/
def copyBack : Nat → Nat → Bytes → Bytes
  | 0, _, out => out
  | n + 1, d, out => copyBack n d (out.getD (d - 1) 0 :: out)

/-- The padding after the end of a quarter (R220). -/
def quarterEnd (rest : List Bool) (pos fin : Nat) (out : Bytes) : Except SkxError Bytes :=
  match (List.range rest.length).find? (fun i => rest.getD i false) with
  | some i => .error ⟨.skxTrailing, pos + i⟩
  | none => if 8 ≤ fin - pos then .error ⟨.skxTrailing, roundUp pos 8⟩ else .ok out.reverse

/-- The sequences of a quarter stream (R219, R229); the output is kept newest first. -/
def quarterLoop (lit dst : List (Nat × Nat × Nat)) (fin : Nat) :
    Nat → List Bool → Nat → Bytes → Except SkxError Bytes
  | 0, rest, pos, out => quarterEnd rest pos fin out
  | fuel + 1, rest, pos, out =>
    if 4096 ≤ out.length then quarterEnd rest pos fin out
    else if rest = [] then .error ⟨.skxUnderrun, fin⟩
    else
      match readCode lit rest with
      | .inl true => .error ⟨.skxOverrun, pos⟩
      | .inl false => .error ⟨.skxBadCode, pos⟩
      | .inr (sym, n) =>
        if sym < 256 then quarterLoop lit dst fin fuel (rest.drop n) (pos + n) (BitVec.ofNat 8 sym :: out)
        else
          let r1 := rest.drop n
          let le := lenExtra sym
          if r1.length < le then .error ⟨.skxOverrun, pos⟩
          else
            let len := lenBase sym + lsbNat (r1.take le)
            if 4096 < len then .error ⟨.skxBadCode, pos⟩
            else if 4096 < out.length + len then .error ⟨.skxOverrun, pos⟩
            else
              let r2 := r1.drop le
              let dpos := pos + n + le
              match readCode dst r2 with
              | .inl true => .error ⟨.skxOverrun, dpos⟩
              | .inl false => .error ⟨.skxBadCode, dpos⟩
              | .inr (ds, m) =>
                let r3 := r2.drop m
                let de := distExtra ds
                if r3.length < de then .error ⟨.skxOverrun, dpos⟩
                else
                  let d := distBase ds + lsbNat (r3.take de)
                  if out.length < d then .error ⟨.skxBadDist, dpos⟩
                  else quarterLoop lit dst fin fuel (r3.drop de) (dpos + m + de) (copyBack len d out)

/-- One quarter stream decoded (R220). -/
def decodeQuarter (lit dst : List (Nat × Nat × Nat)) (stream : Bytes) : Except SkxError Bytes :=
  quarterLoop lit dst (8 * stream.length) 4097 (partBits stream) 0 []

/-- What a decoder lane gives for a request: the failing parts in order of finding, and the quarters
released (R230, R231). -/
structure SkxResult where
  errors   : List (Nat × SkxError)
  released : List (Nat × Bytes)
  deriving DecidableEq, Repr

/-- A request for quarters of a slot: the checks of R228 in order, then each wanted quarter. -/
def skxDecode (slot : Bytes) (tier : Nat) (want : List Nat) : SkxResult :=
  if tier = 4 then ⟨[], want.map (fun q => (q, slice slot (4096 * q) 4096))⟩
  else
    match headerFault slot tier with
    | some off => ⟨[(4, ⟨.skxBadHeader, off⟩)], []⟩
    | none =>
      let h := skxHeader slot
      let lens := if h.coded then readTable (slice slot 32 h.table) else .ok fixedLengths
      match lens with
      | .error e => ⟨[(5, e)], []⟩
      | .ok l =>
        match (List.range (tierSize tier - h.total)).find? (fun i => fieldAt slot (h.total + i) 1 != 0) with
        | some i => ⟨[(6, ⟨.skxTrailing, 8 * i⟩)], []⟩
        | none =>
          let lit := canonical (l.take 288)
          let dst := canonical (l.drop 288)
          let res := want.map (fun q =>
            (q, decodeQuarter lit dst (slice slot (32 + h.table + sumNat (h.lens.take q)) (h.lens.getD q 0))))
          ⟨res.filterMap (fun r => match r.2 with | .error e => some (r.1, e) | .ok _ => none),
           res.filterMap (fun r => match r.2 with | .ok b => some (r.1, b) | .error _ => none)⟩

/-- The 16-byte result record of a request (Table 6-8). -/
def SkxResult.record (r : SkxResult) (lane tier : Nat) : Bytes :=
  match r.errors with
  | [] => fields [(2, 0), (1, 0xFF), (1, maskOf (r.released.map (·.1))), (4, 0), (1, lane), (1, tier), (6, 0)]
  | (part, e) :: _ =>
    fields [(2, statusCode e.status), (1, part), (1, maskOf (r.released.map (·.1))), (4, e.offset), (1, lane),
      (1, tier), (6, 0)]

/-! ### The encoder (R222, R223) -/

/-- A slot as an encoder lane leaves it: tier and the padded slot bytes; tier 4 is RAW (R204, R205). -/
structure Coded where
  tier : Nat
  slot : Bytes
  deriving DecidableEq, Repr

/-- The smallest tier of 1 to 3 that a candidate size fits, else 4 (R222). -/
def tierOf (size : Nat) : Nat :=
  if size ≤ 4096 then 1 else if size ≤ 8192 then 2 else if size ≤ 12288 then 3 else 4

/-- A candidate is one this stepping may emit: its header gives the table mode asked for, encoder ID 0x00 (A0) and a coded length that
is its size, and it decodes to the grain (R208, R222, R223). -/
def candidateOk (coded : Bool) (grain cand : Bytes) (tier : Nat) : Bool :=
  (skxHeader cand).coded == coded && fieldAt cand 0x0B 1 == 0 && (skxHeader cand).total == cand.length &&
  (skxDecode (fitBytes (tierSize tier) cand) tier [0, 1, 2, 3]) ==
    ⟨[], [0, 1, 2, 3].map (fun q => (q, slice grain (4096 * q) 4096))⟩

/-- The encoder's slot for a grain (R222): the candidates are the stepping's own, emitted only where the
decoder gives the grain back (R223), else RAW. -/
def skxEncode (grain : Bytes) : Coded :=
  let c0 := Config.encodeFixed grain
  let c1 := Config.encodeCoded grain
  let tier := tierOf (min c0.length c1.length)
  let coded := decide (tierSize tier < c0.length)
  let pick := if coded then c1 else c0
  if tier = 4 ∨ !candidateOk coded grain pick tier then ⟨4, fitBytes 16384 grain⟩
  else ⟨tier, fitBytes (tierSize tier) pick⟩

end Sys2Proof.Machine
end

