-- ==== Sys2Proof/Machine/Destage.lean ====
section
/-! DEFINITION. Destage: eligibility, completion, fingerprint, encoding, encryption, placement, recording
(R137, R138, R145, R155, R169, R171 to R173, R221, R248, R293, R324, R428). -/

namespace Sys2Proof.Machine

/-! ### Eligibility and the versions taken -/

/-- The head that owns an ANA group (R118). -/
def State.ownsGroup (s : State) (ana : Nat) : Bool := (getKey ana s.hq.owners).getD 0 == s.sys.slot

/-- This head owns a root: its ANA group, or, for a replica, the session that writes it (R443). -/
def State.ownsRoot (s : State) (r : Root) : Bool :=
  if r.kind = .replica then s.repl.replicas.contains r.id else s.ownsGroup r.ana

/-- Staged versions of a grain not yet released. -/
def Stg.live (t : Stg) (vol grain : Nat) : List Ver :=
  t.versions.filter (fun v => v.vol == vol && v.grain == grain && v.staged && !v.released)

/-- The lowest fence of a settling snapshot with a version of the grain below it: its destage comes first (R428). -/
def State.fenceOn (s : State) (vol grain : Nat) : Option Nat :=
  ((s.ftl.fences vol).filter (fun n => (s.stg.live vol grain).any (fun v => v.seq < n))).min?

/-- The version a destage takes of a quarter: the newest Staged, below the fence where there is one. Destages of a grain run in
fetch sequence order, so a version waits until no lower-numbered write of its block can still come (R104, R137). -/
def State.takes (s : State) (vol grain q : Nat) : Option Ver :=
  let due := s.pendingWrites vol (4 * grain + q)
  let l := (s.stg.live vol grain).filter (fun v => v.quarter == q && due.all (fun n => v.seq ≤ n) &&
    (s.ftl.fencing vol).all (fun x => v.seq < x.fenceSeq && !x.fenceSkip.contains v.seq))
  l.find? (fun v => l.all (fun w => w.seq ≤ v.seq))

/-- An entry is eligible for destage (R137): this head owns the group, no destage of the grain runs, and every
quarter is Staged, or 64 periods have passed, or dirty bytes exceed 75 % of the limit. DESIGN CHOICE: it is eligible at once too
below a snapshot fence (R428) and while staging is write-through, where an acknowledgement waits for the destage (R155); the rule
lists neither. -/
def State.eligible (s : State) (vol grain : Nat) : Bool :=
  match s.stg.entry vol grain, s.ftl.ofNsid vol with
  | some e, some r =>
    s.ownsRoot r && e.destage.isNone && (List.range 4).any (fun q => (s.takes vol grain q).isSome) &&
    ((List.range 4).all (fun q => (s.takes vol grain q).isSome) || e.due || (s.fenceOn vol grain).isSome || s.through ||
      3 * s.stg.limitMib * 2 ^ 20 < 4 * s.stg.dirty)
  | _, _ => false

/-! ### Recording (R293) -/

/-- A destage's map entry is written: the grain names its CID, and the final one of a write-through grain after it, unless that is
healed and the grain has still to be stored under it; the release waits for the epoch (R145, R155, R191, R197). -/
def mapDestage (d : Destage) (cid : Option Nat) (s : State) : State :=
  let again := d.mapped.isSome
  let s1 := if again then moveMap d d.final s else mapGrain d cid s
  let heals := !again && d.final != 0 && d.outcome == 4
  let s2 := if again || d.final = 0 || heals then s1 else moveMap d d.final s1
  let s3 := modDestage d.job (fun x => { x with
    mapped := x.mapped.or (some s2.epoch)
    stage := if heals then .encode else .recorded s2.epoch
    cid := if heals then x.final else x.cid }) s2
  if heals then s3 else afterDurable s3.epoch (.release d.job) s3

/-- A grain's CID needs no slot: unmapped, or the zero grain (R172, R173). -/
def mapPlain (job : Nat) (cid : Option Nat) (s : State) : State :=
  match s.jobs.destages.find? (fun d => d.job == job) with
  | none => s
  | some d => mapDestage d cid (modDestage job (fun x => { x with resolved := true }) s)

/-- A content-table record takes its PSA: with CT_NEW on the owner, by PLACE to the owner otherwise (R293). A CID that was Lost is
healed: the owner clears the poison of its record and of its index record (R175, R201). -/
def recordPsa (cid psa gen : Nat) (hasTail : Bool) (mask : Nat) (s : State) : State :=
  if s.ownsCid cid then
    match s.ftl.ctRec cid with
    | none => s
    | some r =>
      let f0 := if r.lost then clearBit 1 (r.flags - 4 * r.mask) else r.flags
      let f1 := if hasTail then setBit 9 f0 else f0
      let rec_ := { r with psa := psa, gen := gen, moved := s.epoch % 2 ^ 48, flags := f1 - 4 * bitField 5 2 f1 + 4 * mask }
      let s1 := afterDurable s.epoch (.indexed cid) (journal (.ctNew cid rec_) (putRec cid rec_ s))
      match (s1.ddp.recOf cid).filter (fun _ => r.lost) with
      | none => s1
      | some x => indexChange 4 { x with poisoned := false } s1
  else sendPeer (.place cid psa gen hasTail) s

/-- Live slot units of a block change; the LEDGER record is of the head whose half holds the entry (R318). -/
def addLive (blk : Nat) (d : Int) (s : State) : State :=
  let e := s.ftl.ledger blk
  setOwnLedger blk { e with live := ((e.live : Int) + d).toNat } s

/-- A CID some read or command is bound to. -/
def State.boundCid (s : State) (cid : Nat) : Bool :=
  s.jobs.reads.any (fun r => r.cid == cid) || s.hq.ctxs.any (fun x => x.reads.any (fun r => r.2.isNone && r.1.flashCid == some cid)) ||
  s.ddp.inflight.any (fun e => e.cid == cid)

/-- The owner chooses a CID of count 0 for reclaim: its slot is dropped, its index record removed, and the CID is freed once
the removal is durable (R177, R199, R309). -/
def dropCid (cid : Nat) (s : State) : State :=
  match s.ftl.ctRec cid with
  | none => s
  | some r =>
    let s1 := addLive (psaBlk r.psa) (-(psaTier r.psa : Int)) (reclaim cid 2 (reclaim cid 1 s))
    let s2 := match s.ddp.recOf cid with
      | none => s1
      | some x => indexChange 2 x s1
    afterDurable s2.epoch (.freeCid cid) s2

/-- A slot whose STRIPE_CLOSE is written is recorded: a move by CT_MOVE while its CID still names the old
place; a destage's slot by its content-table record and its map entry (R344, R32). -/
def recordSlot (g : Group) (p : Placed) (s : State) : State :=
  let psa := g.psa p
  let s0 := addLive (psaBlk psa) p.tier s
  if p.job = 0 then
    match s0.ftl.ctRec p.cid with
    | none => s0
    | some r =>
      if r.psa = p.oldPsa then settleBlock (psaBlk p.oldPsa) (addLive (psaBlk p.oldPsa) (-(p.tier : Int)) (moveCid p.cid psa s0))
      else addLive (psaBlk psa) (-(p.tier : Int)) s0
  else
    match s0.jobs.destages.find? (fun d => d.job == p.job) with
    | none => s0
    | some d =>
      let s1 := if d.mask = 0 then s0
        else if s0.stg.versions.any (fun v => v.lost && v.vol == d.vol && v.grain == d.grain && d.taken.getD v.quarter 0 == v.seq) then
          event 0x8004 20 (argOf [(0, d.cid), (6, 3)]) s0
        else event 0x7004 20 (argOf [(0, d.cid), (6, d.mask)]) s0
      mapDestage d (some d.cid) (recordPsa d.cid psa d.gen d.withMeta d.mask s1)

/-- A version of a stripe's parity is whole: STRIPE_CLOSE, and the slots in its strips are recorded (R332, R344). -/
def stripeClosed (id number : Nat) (s : State) : State :=
  match s.ec.group id with
  | none => s
  | some g =>
    match g.stripe number with
    | none => s
    | some x =>
      match x.writing with
      | none => s
      | some (pos, a, interim) =>
        let y := { x with pointer := some pos, a := a, interim := interim, final := x.final || a == g.k, writing := none }
        let here := g.waiting.filter (fun p => p.stripe == number && p.pos < a)
        let g1 := { g.setStripe y with waiting := g.waiting.filter (fun p => !(p.stripe == number && p.pos < a)) }
        let s1 := journal (.stripeClose id number a (flagBit interim) pos) (setGroup g1 s)
        here.foldl (fun t p => recordSlot g p t) s1

/-- A programme of a stripe completed: the last one of a version closes it. -/
def stripDone (id number : Nat) (s : State) : State :=
  match (s.ec.group id).bind (fun g => (g.stripe number).map (fun x => (g, x))) with
  | none => s
  | some (g, x) =>
    let s1 := setGroup (g.setStripe { x with pending := x.pending - 1 }) s
    if x.pending ≤ 1 ∧ x.writing.isSome = true then stripeClosed id number s1 else s1

/-- At a bell versions of which nothing more is to be written close: their last strip was left unwritten (R641). -/
def closeWritten (s : State) : State :=
  s.ec.groups.foldl (fun t g => g.stripes.foldl (fun u x =>
    if g.id / 2 ^ 63 = s.sys.slot ∧ x.writing.isSome = true ∧ x.pending = 0 then stripeClosed g.id x.number u else u) t) s

/-! ### The way of a grain -/

/-- The content is whole: content with poisoned quarters is new and unshared under a CID of this head (R324); any
other waits for its fingerprint (R171). -/
def contentReady (job : Nat) (s : State) : State :=
  match s.jobs.destages.find? (fun d => d.job == job) with
  | none => s
  | some d =>
    if d.mask ≠ 0 then
      let (s1, c) := newRecord d.domain (zeros 24) true s
      modDestage job (fun x => { x with cid := c, resolved := true, outcome := 1, stage := .encode }) s1
    else modDestage job (fun x => { x with stage := .fingerprint }) s

/-- The quarters of the old grain a partial destage needs, and those of them that are Lost (R138, R324). -/
def oldQuarters (r : Option CtRec) (missing : List Nat) : List Nat × List Nat :=
  match r with
  | none => ([], [])
  | some r => if r.lost then ([], missing) else
      (missing.filter (fun q => !bitAt q r.mask), missing.filter (fun q => bitAt q r.mask))

/-- Quarters take given content, and the poisoned ones zeros and their mask bit. A quarter from flash carries protection information
where its metadata bytes are not all zero: DESIGN CHOICE, no flag of a slot tells which quarters do. -/
def fillQuarters (d : Destage) (known : List (Nat × (Bytes × Bytes))) (lost : List Nat) : Destage :=
  let bad := lost.filter (fun q => (d.quarters.getD q none).isNone)
  let used := known.filter (fun x => (d.quarters.getD x.1 none).isNone)
  { d with
    hasPi := d.hasPi || used.any (fun x => !allZero x.2.2)
    quarters := (List.range 4).map (fun q => match d.quarters.getD q none with
      | some b => some b
      | none => match getKey q known with
        | some x => some x.1
        | none => if bad.contains q then some (zeros 4096) else none)
    pis := (List.range 4).map (fun q => match d.quarters.getD q none with
      | some _ => d.pis.getD q []
      | none => match getKey q known with
        | some x => x.2
        | none => [])
    mask := d.mask + maskOf bad }

/-- DESTAGE_START: the owning head takes the newest Staged version of each quarter of an eligible entry. A whole
grain deallocated is unmapped, one zeroed maps to CID 0, a partial one is completed first (R137, R138, R173). -/
def execDestageStart (vol grain : Nat) (s : State) : Host.Outcome State Fault Refusal :=
  match s.ftl.ofNsid vol with
  | none => .next s
  | some r =>
    if !s.eligible vol grain then .next s
    else
      let vs := (List.range 4).map (s.takes vol grain)
      let taken := vs.map (fun v => (v.map (·.seq)).getD 0)
      let job := s.jobs.next
      let d : Destage := ⟨job, vol, grain, taken, taken.foldl max 0, vs.map (fun v => (v.filter (fun x => !x.lost)).map Ver.bytes),
        vs.map (fun v => (v.map (fun x => fitBytes 64 x.pi)).getD []), r.format != 0 && vs.any (fun v => v.any (·.hasPi)), r.format != 0,
        r.domain, r.layout, 0, s.through, .fingerprint, none, [], 0, 0, 1, false, 0, 0, [], [], 0⟩
      let s1 := modEntry vol grain (fun e => { e with destage := some job, due := false })
        { s with jobs := { s.jobs with next := job + 1, destages := s.jobs.destages ++ [d] } }
      let all := fun (f : Ver → Bool) => vs.all (fun v => v.any f)
      if all (fun v => v.noBuffer && v.dealloc) then .next (mapPlain job none s1)
      else if all (fun v => v.noBuffer && v.zeros && !v.dealloc) then .next (mapPlain job (some 0) s1)
      else
        let missing := (List.range 4).filter (fun q => (vs.getD q none).isNone)
        let old := (r.cidOf grain).getD 0
        let rec_ := if old = 0 then none else s.ftl.ctRec old
        let (want, lostOld) := oldQuarters rec_ missing
        let lost := lostOld ++ (List.range 4).filter (fun q => (vs.getD q none).any (·.lost))
        let zero := if rec_.isNone then missing.map (fun q => (q, (zeros 4096, ([] : Bytes)))) else []
        let s2 := modDestage job (fun x => fillQuarters x zero lost) s1
        if want = [] then .next (contentReady job s2)
        else .next (startRead (.completion job) grain old want (modDestage job (fun x => { x with stage := .completing }) s2))

/-- X of a destage: its data, and its metadata bytes where its volume has them (R169). -/
def Destage.content (d : Destage) : Bytes :=
  d.quarters.flatMap (fun q => fitBytes 4096 (q.getD [])) ++ (if d.withMeta then d.pis.flatMap (fitBytes 64) else [])

/-- The grain is the zero grain: zero data and no protection information (R172). -/
def Destage.isZero (d : Destage) : Bool := !d.hasPi && allZero d.content

/-- FINGERPRINT_COMPLETE: a digest lane has passed over the grain. The zero grain maps to CID 0; any other is
resolved here or by the peer (R169, R172 to R175, R275). -/
def execFingerprintComplete (job : Nat) (s : State) : Host.Outcome State Fault Refusal :=
  match s.jobs.destages.find? (fun d => d.job == job && d.stage == .fingerprint) with
  | none => .next s
  | some d =>
    posted 2 [(.dig, 16384 + (if d.withMeta then 256 else 0))] (fun s =>
      let fp := (kmac256 (s.fpKey d.domain) d.content 32 (ascii "BIRCA-FP")).take 24
      let s1 := tallyAdd 0x09 0 4 (modDestage job (fun x => { x with fp := fp, stage := .resolving }) s)
      if d.isZero then mapPlain job (some 0) s1
      else if s.resolvesHere fp then
        enqueue ⟨job, false, d.domain, fp, false, d.through, 0, 0, d.content, s.tt.now, false⟩ s1
      else sendPeer (.resolve d.domain (s.verifies d.domain) d.through job fp) s1) s

/-- ENCODE_COMPLETE: an encoder lane has coded a grain to its tier. The output of a lane found faulty, or of one that is out as
failed or stands in for none, is discarded and the grain coded again on a lane that works, the spare (R221 to R225). -/
def execEncodeComplete (job lane : Nat) (faulty : Bool) (s : State) : Host.Outcome State Fault Refusal :=
  match s.jobs.destages.find? (fun d => d.job == job && d.stage == .encode) with
  | none => .next s
  | some d =>
    if s.laneDelivers (laneOf .enc lane) = false then .next s
    else posted 2 [(.enc, 16384)] (fun s =>
      if faulty then laneOut (laneOf .enc lane) .failed s
      else
        let c := skxEncode (d.content.take 16384)
        tallyAdd 0x07 c.tier 1 (tallyAdd 0x07 0 1 (modDestage job (fun x => { x with
          tier := c.tier, slot := c.slot, stage := .encrypt }) s))) s

/-- The tail of a slot is kept, and its page, in the tree of the half that owns the CID, written with the MAP_PAGE record that names it
(R371 to R373). DESIGN CHOICE: the head that encrypts the slot writes the page, also for a CID that the peer owns, as no message carries a
tail to its owner. -/
def writeTail (cid : Nat) (tail : Bytes) (s : State) : State :=
  let s1 := { s with ftl := { s.ftl with tails := putKey cid tail s.ftl.tails } }
  let key := cid % 2 ^ 47 / 15
  let here := s1.ftl.tails.filter (fun t => t.1 % 2 ^ 47 / 15 == key && cidOwner t.1 == cidOwner cid)
  match writeMeta [tailPage (cidOwner cid) key s.epoch s.sys.slot s.ftl.nextSeq here] s1 with
  | (s2, mpa :: _) =>
    let id := pageId 4 (cidOwner cid) 0 key
    journal (.mapPage 4 (cidOwner cid) 0 key ((getKey id s2.ftl.mpas).getD 0) mpa)
      { s2 with ftl := { s2.ftl with mpas := putKey id mpa s2.ftl.mpas } }
  | (s2, []) => s2

/-- A slot seeks its place in an open group of its layout (R330); without one it waits for the next bell. -/
def placeDestage (job : Nat) (s : State) : State :=
  match s.jobs.destages.find? (fun d => d.job == job && d.stage == .place) with
  | none => s
  | some d =>
    match placeSlot d.layout ⟨d.cid, 0, 0, 0, d.tier, d.env, d.slot, job, 0⟩ s with
    | (s1, false) => s1
    | (s1, true) => modDestage job (fun x => { x with stage := .placed }) s1

/-- SLOT_ENCRYPT_COMPLETE: a cipher lane encrypts the slot as one message under the domain's current DATA key and
the lane's counter; it waits without a usage grant or below no durable ceiling, or for a lane that works, and at a count of 2^48 the lane
refuses (R248 to R256, R370, R371). -/
def execSlotEncryptComplete (job lane : Nat) (s : State) : Host.Outcome State Fault Refusal :=
  match s.jobs.destages.find? (fun d => d.job == job && d.stage == .encrypt) with
  | none => .next s
  | some d =>
    let l := s.ciph.locker d.domain
    if s.laneDelivers (laneOf .cip lane) = false then .next s
    else if l.granted = 0 then
      .next (if 2 ^ 48 ≤ l.usage then
        emit (.engineReply (laneIsland (laneOf .cip lane)) lane .keyExhausted (detailOf [(2, d.domain), (2, l.gen)]) [])
          { s with ciph := { s.ciph with failStatus := statusCode .keyExhausted, failLane := lane, failLocker := d.domain } }
       else s)
    else
      posted 2 [(.cip, slotBytes d.tier d.withMeta)] (fun s =>
        match takeNonce (lockerHandle d.domain l) l.gen (s.writerLane lane) 1 s with
        | (s1, none) => s1
        | (s1, some nonce) =>
          let flags := flagBit (d.tier == 4) + 2 * flagBit d.withMeta
          let e0 := envelope 1 0 d.tier flags d.domain l.gen d.cid s.epoch nonce []
          let (ct, tag) := gcmSeal (s.dataKey d.domain l.gen) nonce (slotAad e0)
            (d.slot ++ (if d.withMeta then d.pis.flatMap (fitBytes 64) else []))
          let env := envelope 1 0 d.tier flags d.domain l.gen d.cid s.epoch nonce tag
          let s2 := tallyAdd 0x08 0 1 (setLocker d.domain { l with granted := l.granted - 1 } s1)
          let s3 := if d.withMeta then writeTail d.cid (ct.drop (4096 * d.tier)) s2 else s2
          placeDestage job (modDestage job (fun x => { x with
            slot := ct.take (4096 * d.tier), env := env, gen := l.gen, stage := .place }) s3)) s

/-- At a bell slots without a place seek one again. -/
def placeWaiting (s : State) : State :=
  (s.jobs.destages.filter (fun d => d.stage == .place)).foldl (fun t d => placeDestage d.job t) s

/-- PLACE: the owner takes the PSA of a slot the peer programmed into its record, with CT_NEW, and clears the poison of healed
content; JOURNAL_ACK answers (R175, R201, R293). -/
def execPlace (number cid psa gen : Nat) (hasTail : Bool) (s : State) : Host.Outcome State Fault Refusal :=
  onMessage number (.place cid psa gen hasTail) (fun s =>
    reply number (.journalAck number) (recordPsa cid psa gen hasTail
      (((s.ftl.ctRec cid).filter (fun r => !r.lost)).map CtRec.mask |>.getD 0) s)) s

end Sys2Proof.Machine
end

