-- ==== Sys2Proof/Machine/Durable.lean ====
section
/-! DEFINITION. Durability: what an epoch's durability releases, the seals, journal messages, the application and
replay of records (R145, R155, R177, R180, R296 to R305, R344 to R346). -/

namespace Sys2Proof.Machine

/-! ### Acknowledgement in write-through (R155) -/

/-- The grains of a command. -/
def Ctx.grains (x : Ctx) : List Nat :=
  if x.cap.nlb = 0 then [] else (List.range ((x.cap.slba + x.cap.nlb - 1) / 4 - x.cap.slba / 4 + 1)).map (x.cap.slba / 4 + ·)

/-- A destage's map entry and the content-table record of the CID it was stored under are durable: a write-through grain's is its
own, whatever resolution comes to (R155, R168). -/
def State.destageDurable (s : State) (d : Destage) : Bool :=
  d.mapped.any (fun e => e ≤ s.ftl.durable && s.cidDurable (if d.wcid ≠ 0 then d.wcid else d.cid))

/-- A grain of a write is durable under R155: a destage that took its version, or a newer one of each block, is; or, on the head
that does not own the volume, a durable MAP_SET of the owner carries the write's number. -/
def State.grainDurable (s : State) (x : Ctx) (g : Nat) : Bool :=
  (s.stg.versions.filter (fun v => v.vol == x.cap.nsid && v.grain == g && v.seq == x.seq && !v.released)).all (fun v =>
    s.jobs.destages.any (fun d => d.vol == v.vol && d.grain == v.grain && v.seq ≤ d.taken.getD v.quarter 0 && s.destageDurable d)) ||
  s.ftl.mirror.any (fun r => r.epoch ≤ s.ftl.durable &&
    match r.body with
    | .mapSet t k _ _ n => k == g && x.seq ≤ n && (s.ftl.ofNsid x.cap.nsid).any (fun q => q.id == t)
    | _ => false)

/-- Writes that wait in write-through are acknowledged once every grain they touch is durable; those that came in
write-back wait for nothing. -/
def ackThrough (s : State) : State :=
  s.hq.ctxs.foldl (fun t x =>
    if x.state = .staged ∧ x.through ≠ [] then
      let left := x.through.filter (fun g => !t.grainDurable x g)
      if left = [] then ackWrite x t else setCtx { x with through := left } t
    else t) s

/-! ### What durability releases -/

/-- The destage's map record is written. -/
def DestageStage.isRecorded : DestageStage → Bool
  | .recorded _ => true
  | _ => false

/-- A destage whose record is durable: its versions are released on both heads (R145). A grain waits until the content-table record
of the CID it names is durable (R181, R293), and a write-through grain until its resolution has said which that is: DESIGN CHOICE,
as R145 names no such wait and R181 releases a share only then. -/
def releaseJob (job : Nat) (s : State) : State :=
  match s.jobs.destages.find? (fun d => d.job == job) with
  | none => s
  | some d =>
    let cid := if d.final ≠ 0 then d.final else d.cid
    if !d.resolved || !d.stage.isRecorded || !s.cidDurable cid then afterDurable (s.ftl.durable + 1) (.release job) s
    else
      let s1 := releaseVersions d.vol d.grain d.taken (modEntry d.vol d.grain (fun e => { e with destage := none, destaged := true }) s)
      let s2 := sendPeer (.release [⟨d.vol, d.grain, d.taken⟩]) (tallyAdd 0x05 3 1 s1)
      { s2 with jobs := { s2.jobs with destages := s2.jobs.destages.filter (fun x => x.job != job) } }

/-- What waited for an epoch is done. -/
def runAfter (a : After) (s : State) : State :=
  match a with
  | .release job => releaseJob job s
  | .indexed cid => indexCid cid s
  | .merged b mpa => mergeDone b mpa s
  | .split b x y => splitDone b x y s
  | .erasable b => { s with ftl := { s.ftl with erasable := s.ftl.erasable ++ [(b, s.tt.now + 64)] } }
  | .checkpoint => checkpointDone s
  | .sjCheckpoint => sjCheckpointDone s
  | .freeCid cid => if s.ddp.inflight.any (fun e => e.cid == cid) then afterDurable (s.ftl.durable + 1) (.freeCid cid) s
      else reclaim cid 3 s
  | .substituted g p => { s with ec := { s.ec with rebuild := s.ec.rebuild.filter (fun x => x != (g, p)) } }
  | .groupReady g => { s with ec := { s.ec with groups := s.ec.groups.map (fun x => if x.id == g then { x with ready := true } else x) } }
  | .ceiling h l v => { s with ciph := { s.ciph with counters := s.ciph.counters.map (fun c =>
      if c.handle == h && c.lane == l && c.next == some v then { c with ceiling := v, next := none } else c) } }
  | .ps3 => s

/-- Records of durable epochs go to journal pages of their journal (R300, R345). -/
def flushJournal (upTo : Nat) (s : State) : State :=
  let rs := s.ftl.tail.filter (fun r => s.saved.flushed < r.epoch && r.epoch ≤ upTo)
  let page := fun (j : Nat) => (packRecords (rs.filter (fun r => r.journal == j)) [] 16).map (journalPage j s.sys.slot)
  let (s1, l) := writeMetaAs 4 2 (page 1 ++ page 2) s
  if l.length < (page 1 ++ page 2).length then s1
  else { s1 with saved := { s1.saved with flushed := upTo, log := s1.saved.log ++ rs } }

/-- The last durable epoch advances as the seals stand, and what waited for it is done (R298). -/
def advanceDurable (s : State) : State :=
  let d := s.durableNow
  if d ≤ s.ftl.durable then s
  else
    let due := s.ftl.after.filter (fun a => a.1 ≤ d)
    let s1 := { s with ftl := { s.ftl with durable := d, after := s.ftl.after.filter (fun a => d < a.1) } }
    ackThrough (checkpointPages (flushJournal d (due.foldl (fun t a => runAfter a.2 t) s1)))

/-! ### Seals -/

/-- Records of this head's tail of an epoch, the seal apart. -/
def Ftl.recordsOf (f : Ftl) (head epoch : Nat) : List JRec :=
  f.tail.filter (fun r => r.head == head && r.epoch == epoch)

/-- EPOCH_SEAL_WRITE: the oldest ended epoch without a seal is sealed once the peer has acknowledged all its records
(R297). -/
def execEpochSealWrite (s : State) : Host.Outcome State Fault Refusal :=
  let e := s.ftl.sealWritten + 1
  whenDue (s.pool.isSome ∧ e < s.epoch ∧ (s.paired = true → s.ftl.unacked.all (fun u => e < u.2) = true))
    (let rs := s.ftl.recordsOf s.sys.slot e
     let r : JRec := ⟨s.sys.slot, rs.length, e, sealOf rs⟩
     let s1 := { s with ftl := { s.ftl with tail := s.ftl.tail ++ [r], sealWritten := e } }
     let s2 := sendPeer (.journal [r]) s1
     advanceDurable (tallyAdd 0x0A 3 1 s2)) s

/-- EPOCH_END: at a bell that is a multiple of 8 the epoch advances: the records of the new epoch begin at sequence 0
(R296, R301). -/
def execEpochEnd (s : State) : Host.Outcome State Fault Refusal :=
  whenDue (s.tt.now % 8 = 0 ∧ s.ftl.seqEpoch ≠ s.epoch)
    { s with ftl := { s.ftl with seqEpoch := s.epoch, nextSeq := 0 } } s

/-! ### Applying records (R304) -/

/-- A count changed by a record of the owner: one that would fall below 0 stays at 0, and its CID is not reclaimable (R200). -/
def applyDelta (c : Nat × Int) (s : State) : State :=
  match s.ftl.ctRec c.1 with
  | none => s
  | some r =>
    let n : Int := r.refs + c.2
    putRec c.1 { r with refs := min n.toNat 0xFFFFFFFF, flags := if n < 0 then setBit 7 r.flags else r.flags } s

/-- A group changed by a record. -/
def applyGroup (id : Nat) (f : Group → Group) (s : State) : State :=
  { s with ec := { s.ec with groups := s.ec.groups.map (fun g => if g.id == id then f g else g) } }

/-- A tree page has a new MPA, by a record of the peer or of a replay: an index page's is its bucket's; a tail page is to be read before the
tails in it are known here (R373). -/
def movePage (kind t l k new : Nat) (s : State) : State :=
  let key := k / 504 ^ (if kind = 1 then l + 1 else l)
  let s1 := { s with ftl := { s.ftl with mpas := putKey (pageId kind t l key) new s.ftl.mpas } }
  if kind = 5 ∧ l = 0 then { s1 with ddp := { s1.ddp with pages := putKey (2 ^ 36 * t + key) new s1.ddp.pages } }
  else if kind = 4 ∧ l = 0 ∧ s1.ftl.absent.contains (2 ^ 33 + t, key) = false then
    { s1 with ftl := { s1.ftl with absent := s1.ftl.absent ++ [(2 ^ 33 + t, key)] } }
  else s1

/-- What a record changes of the metadata it names (R293). -/
def applyBody (r : JRec) (s : State) : State :=
  match r.body with
  | .mapSet t g _ new _ =>
    match s.ftl.root t with
    | none => s
    | some q =>
      let p := q.leaf (g / 504)
      let own := if (s.ftl.fenceOf q).any (fun e => p.birth ≤ e) ∨ p.entries = [] then { p with birth := r.epoch } else p
      let es := if new = 0 then delKey (g % 504) own.entries else putKey (g % 504) (new % 2 ^ 48) own.entries
      setRoot { q with leaves := putKey (g / 504) { own with entries := es } q.leaves } s
  | .mapPage kind t l k _ new => movePage kind t l k new s
  | .ctNew c q => putRec c q s
  | .ctMove c _ new =>
    match s.ftl.ctRec c with
    | none => s
    | some q => putRec c { q with psa := new, moved := r.epoch % 2 ^ 48 } s
  | .refDelta l => l.foldl (fun t c => applyDelta c t) s
  | .reclaim c a =>
    match s.ftl.ctRec c with
    | none => s
    | some q =>
      if a = 1 then putRec c { q with flags := setBit 6 q.flags } s
      else if a = 4 then putRec c { q with refs := 1 } s
      else if a = 2 then putRec c { q with psa := 0 } s
      else { s with ftl := { s.ftl with ct := delKey c s.ftl.ct, tails := delKey c s.ftl.tails } }
  | .indexChange a d f c =>
    if r.head = s.sys.slot then s
    else
      let l := s.ddp.peerHalf.filter (fun x => !(x.domain == d && x.fp == f && (a == 1 || x.cid == c)))
      let x : IdxRec := ⟨d, f, c, a == 3⟩
      { s with ddp := { s.ddp with peerHalf := if a = 2 then l else l ++ [x] } }
  | .blockState b st pe =>
    let e := s.ftl.ledger b
    putLedger b { e with state := st, pe := pe, fullEpoch := if st = .full then r.epoch else e.fullEpoch } s
  | .ledger b e => putLedger b e s
  | .counter h l k v =>
    if r.head ≠ s.sys.slot then s
    else { s with ciph := { s.ciph with counters := s.ciph.counters.map (fun c =>
      if c.handle == h && c.lane == l then (if k = 1 then { c with ceiling := max c.ceiling v } else { c with value := v }) else c) } }
  | .usageGrant d g first n =>
    let l := s.ciph.locker d
    if l.gen = g then setLocker d { l with usage := max l.usage (first + n) } s else s
  | .poison c m =>
    match s.ftl.ctRec c with
    | none => s
    | some q => putRec c { q with flags := if m = 0 then setBit 1 q.flags else q.flags - 4 * q.mask + 4 * (m % 16) } s
  | .volume t a fence parent _ _ =>
    if a = 4 ∨ a = 5 then
      match s.ftl.root t, s.ftl.root parent with
      | some q, some o => setRoot { q with
          leaves := o.leaves, fenceEpoch := fence, state := .active, size := o.size, domain := o.domain, layout := o.layout } s
      | _, _ => s
    else if a = 2 ∧ r.head ≠ s.sys.slot then dropRoot t s
    else s
  | .checkpoint .. => s
  | .epochSeal .. => s
  | .groupOpen g l row bs =>
    match s.tt.active with
    | none => s
    | some i =>
      if (s.ec.group g).isSome then s
      else { s with ec := { s.ec with groups := s.ec.groups ++ [⟨g, l, row, (i.layoutRec l).k, (i.layoutRec l).m, bs, [], true, true,
        [], 0, none, 0, [], [], [], 0, []⟩] } }
  | .stripeOpen g x _ _ => applyGroup g (fun y => match y.stripe x with
      | some z => y.setStripe { z with pending := max z.pending 1 }
      | none => { y with stripes := y.stripes ++ [⟨x, 0, false, false, none, 1, none, []⟩] }) s
  | .stripeClose g x a f p => applyGroup g (fun y =>
      match y.stripe x with
      | none => y
      | some z => { y.setStripe { z with
          a := a, interim := bitAt 0 f, final := z.final || bitAt 1 f || a == y.k, pointer := some p, pending := 0, writing := none } with
          nextPos := max y.nextPos (p + 1) }) s
  | .parityBlock g c b => applyGroup g (fun y => { y with second := setAt c b (y.second ++ List.replicate (y.m - y.second.length) 0) }) s
  | .blockSubst g p _ b => applyGroup g (fun y =>
      if p < y.blocks.length then { y with blocks := setAt p b y.blocks }
      else { y with second := setAt (p - y.blocks.length) b y.second }) s
  | .groupClose g _ => applyGroup g (fun y => { y with isOpen := false }) s
  | .groupRelease g => { s with ec := { s.ec with groups := s.ec.groups.filter (fun y => y.id != g) } }
  | .lostPage g p n => applyGroup g (fun y => { y with lost := if y.lost.contains (p, (n, 0)) then y.lost else y.lost ++ [(p, (n, 0))] }) s
  | .sjCheckpoint .. => s
  | .triadSubst t c f => { s with ec := { s.ec with
      standbys := s.ec.standbys.filter (fun x => !(x.1 == t && x.2.1 == c)) ++ [(t, (c, f))] } }

/-- A record of the peer, or of a replay, is applied: it changes a page only when its position is above the page's applied position,
which then becomes its position; a batch of count changes is taken page by page (R304). -/
def applyRec (r : JRec) (s : State) : State :=
  match r.body with
  | .refDelta l =>
    noteApplied r (applyBody { r with body := .refDelta (l.filter (fun c =>
      r.above s.ftl.applied (2, (cidOwner c.1, c.1 % 2 ^ 47 / 126)))) } s)
  | _ => if (dirtyOf r.body).all (r.above s.ftl.applied) then noteApplied r (applyBody r s) else s

/-- The metadata as an image holds it. -/
def withImage (m : MetaImage) (s : State) : State :=
  { s with
    ftl := { s.ftl with roots := m.roots, ct := m.ct, blocks := m.blocks, tails := m.tails, applied := m.applied, mpas := m.mpas }
    ddp := { s.ddp with index := m.index, pages := m.pages }
    ec := { s.ec with groups := m.groups } }

/-- A record of an epoch before a checkpoint's that comes from the peer while the checkpoint is under way belongs to its image, as
replay begins at the checkpoint's epoch (R303, R305). -/
def bringForward (r : JRec) (s : State) : State :=
  match s.saved.doing with
  | none => s
  | some m =>
    if m.epoch ≤ r.epoch then s
    else
      let t := applyRec r (withImage m s)
      { s with saved := { s.saved with doing := some { m with
          roots := t.ftl.roots, ct := t.ftl.ct, blocks := t.ftl.blocks, tails := t.ftl.tails, applied := t.ftl.applied, mpas := t.ftl.mpas
          groups := t.ec.groups } } }

/-! ### Messages -/

/-- What a record of the peer asks of this head as the owner of the CID it names: the index record of content found Lost is poisoned
(R201), and a CID of count 0 whose slot the peer has moved is chosen for reclaim (R199). DESIGN CHOICE: the spec names no message by
which the head that collects a form asks the owner of a dead slot there; the owner learns of it by the move. -/
def ownerActs (r : JRec) (s : State) : State :=
  match r.body with
  | .poison c 0 =>
    match (s.ddp.recOf c).filter (fun x => s.ownsCid c && !x.poisoned) with
    | none => s
    | some x => indexChange 3 x s
  | .ctMove c _ _ =>
    if s.ownsCid c && (s.ftl.ctRec c).any (fun q => q.refs == 0 && q.usable && !bitAt 7 q.flags) && !s.boundCid c then dropCid c s else s
  | _ => s

/-- The peer's owner has dropped a slot: its block holds so much less (R309). -/
def dropLive (r : JRec) (s : State) : State :=
  match r.body with
  | .reclaim c 2 =>
    match s.ftl.ctRec c with
    | none => s
    | some q => if q.psa = 0 then s else addLive (psaBlk q.psa) (-(psaTier q.psa : Int)) s
  | _ => s

/-- JOURNAL: the peer's records go to the tail mirror and to the pages this head caches; a seal advances durability;
JOURNAL_ACK answers (R293, R297). -/
def execJournal (number : Nat) (l : List JRec) (s : State) : Host.Outcome State Fault Refusal :=
  onMessage number (.journal l) (fun s =>
    let s1 := l.foldl (fun t r =>
      let u := ownerActs r (applyRec r (dropLive r (bringForward r { t with ftl := { t.ftl with mirror := t.ftl.mirror ++ [r] } })))
      match r.body with
      | .epochSeal .. => { u with ftl := { u.ftl with peerSealed := max u.ftl.peerSealed r.epoch } }
      | _ => u) s
    let seals := l.all (fun r => match r.body with
      | .epochSeal .. => true
      | _ => false)
    advanceDurable (reply number (.journalAck number) (wake (!seals) s1))) s

/-- JOURNAL_ACK: the records, deltas or places of a message are held by the peer (R297, R293, R176). -/
def execJournalAck (number : Nat) (s : State) : Host.Outcome State Fault Refusal :=
  onWord (.journalAck number) (fun s =>
    match s.corr.awaiting number with
    | none => s
    | some m =>
      let s1 := settleNumber number { s with ftl := { s.ftl with unacked := s.ftl.unacked.filter (fun u => u.1 != number) } }
      let s2 := match m.body with
        | .journal l => l.foldl (fun t r =>
            match r.body with
            | .epochSeal .. => { t with ftl := { t.ftl with sealAcked := max t.ftl.sealAcked r.epoch } }
            | _ => t) s1
        | _ => s1
      advanceDurable s2) s

/-! ### Replay (R305) -/

/-- Position order of R301. -/
def JRec.before (a b : JRec) : Bool :=
  a.epoch < b.epoch || (a.epoch == b.epoch && (a.head < b.head || (a.head == b.head && a.seq ≤ b.seq)))

/-- The records a replay applies: those of durable epochs from epoch S on, on flash, in the tail and in the mirror,
by position, once each. -/
def State.replayRecords (s : State) : List JRec :=
  let all := (s.saved.log ++ s.ftl.tail ++ s.ftl.mirror).filter (fun r => s.saved.last.epoch ≤ r.epoch && r.epoch ≤ s.ftl.durable)
  (sortBy JRec.before (all.eraseDups))

/-- An INDEX_CHANGE record of this head rebuilds its index delta: those of its half, and of the peer's while it carried the pair
(R187, R305). -/
def replayDelta (r : JRec) (s : State) : State :=
  match r.body with
  | .indexChange a d f c =>
    if r.head = s.sys.slot then { s with ddp := { s.ddp with delta := s.ddp.delta ++ [⟨a, ⟨d, f, c, false⟩, false⟩] } } else s
  | _ => s

/-- Stripes of a head's groups opened and not closed at a power loss take STRIPE_CLOSE with flag [1] at their last durable version, and
strips beyond are dead; one without a version is skipped, and the group continues with the next (Table 9-9). -/
def closeTorn (head : Nat) (s : State) : State :=
  (s.ec.groups.filter (fun g => g.id / 2 ^ 63 == head)).foldl (fun t g =>
    let isTorn := fun (x : Stripe) => x.pending ≠ 0 || x.writing.isSome || (x.pointer.isNone && !x.final)
    let torn := g.stripes.filter isTorn
    let t1 := torn.foldl (fun u x =>
      match x.pointer with
      | none => u
      | some p => journal (.stripeClose g.id x.number x.a (2 + flagBit x.interim) p) u) t
    applyGroup g.id (fun y => { y with
      filling := [], waiting := [], accum := [], cur := none, posted := 0
      stripes := y.stripes.map (fun x => { x with pending := 0, writing := none, final := x.final || isTorn x }) }) t1) s

/-- Replay after a start: the metadata is the last whole checkpoint's with the durable records after it applied;
records of epochs that are not durable have no effect. Root records, which the volume directory holds, keep their
settings. New CIDs come after every one that stands (R177, R305). -/
def replay (s : State) : State :=
  let m := s.saved.last
  let next := fun (t : State) => ((t.ftl.ct.filter (fun c => cidOwner c.1 == t.sys.slot)).map (fun c => c.1 % 2 ^ 47 + 1)).foldl max t.ddp.nextCid
  let leavesOf := fun (r : Root) => ((m.roots.find? (fun x => x.id == r.id && x.kind == r.kind)).map (·.leaves)).getD []
  let s0 := { s with
    ftl := { s.ftl with
      roots := s.ftl.roots.map (fun r => { r with leaves := leavesOf r })
      ct := m.ct, blocks := m.blocks, tails := m.tails, applied := m.applied, after := [], unacked := [], moves := [], erasable := [], pinned := []
      absent := m.leafPages, used := [], mpas := m.mpas
      checkpoint := 0, ckptDir := none, sjDir := none
      tail := s.ftl.tail.filter (fun r => r.epoch ≤ s.ftl.durable)
      mirror := s.ftl.mirror.filter (fun r => r.epoch ≤ s.ftl.durable) }
    ddp := { s.ddp with
      index := m.index, pages := m.pages, sweeping := [], delta := [], inflight := [], queue := [], blocked := [], indexing := [], comparing := [], deltas := [] }
    ec := { s.ec with groups := m.groups, checkpoint := 0 }
    saved := { s.saved with doing := none }
    jobs := { s.jobs with destages := [], reads := [] } }
  let rs := s.replayRecords
  let s1 := rs.foldl (fun t r => replayDelta r (applyRec r t)) s0
  closeTorn s.sys.slot { s1 with
    ddp := { s1.ddp with nextCid := next s1 }
    stg := { s1.stg with
    entries := s1.stg.entries.map (fun e => { e with destage := none })
    versions := s1.stg.versions.map (fun v => { v with readers := 0 }) } }

/-! ### A pool as flash holds it (R305, R382, R383) -/

/-- The day count a pool's bell origin gives, never below the day after one recorded (R40, R41). -/
def State.dayOf (s : State) (recorded : Option Nat) : Nat :=
  let d := (s.clockUs - (s.pool.map (·.origin)).getD 0) / 16384
  match recorded with
  | none => d
  | some r => if d ≤ r then r + 1 else d

/-- The metadata and the timetable copy become those that flash holds. The copy counts when it is of the active record's
term, or of the armed one's, and its signatures verify under a key slot enrolled now (R36, R383); the image passed the load
checks before it was armed (R73, R74). -/
def takeMedia (m : PoolMedia) (s : State) : State :=
  let i : TtImage := ⟨m.timetable⟩
  let term := fun (f : Pool → TtCopy) => (s.pool.map (fun p => (f p).term)).getD 0
  { s with
    saved := ⟨m.image, none, m.flushed, m.log⟩
    ftl := { s.ftl with
      roots := m.image.roots, nextRoot := m.image.nextRoot, durable := max s.ftl.durable m.flushed }
    ec := { s.ec with opened := m.image.opened }
    tt := { s.tt with
      active := if ttSigned i { s.trust with matched := s.trust.recordsOk } ∧ i.term ≠ 0 ∧ (i.term = term (·.active) ∨ i.term = term (·.armed)) then some i else s.tt.active } }

/-- A pool that comes to this head as it runs: the parameters of its superblock, its metadata replayed, and the day count
of its bell origin from the next day boundary on (R40, R305). -/
def adoptPool (m : PoolMedia) (s : State) : State :=
  let p := fun (f : Pool → Nat) => (s.pool.map f).getD 0
  let s1 : State := { s with
    ftl := { Ftl.reset with tailMib := p (·.tailMib), seqEpoch := s.epoch }
    ddp := { Ddp.reset with q := p (·.q), n := p (·.n), deltaBits := p (·.deltaBits), fstate := 1 }
    tt := { s.tt with raiseTo := some (s.dayOf (some (max s.day (p (·.written) / 1024)))) } }
  replay (takeMedia m s1)

end Sys2Proof.Machine
end

