-- ==== Sys2Proof/Machine/HostReads.lean ====
section
/-! DEFINITION. Host reads: binding under the overlap order, the slot reads they need, their completion
(R104 to R107, R126). -/

namespace Sys2Proof.Machine

/-! ### Binding -/

/-- The source of a block for a read below a number: the overlapping write with the highest number below it, Staged or still to
come. Behind a write still to come stand the writes below it, down to the newest Staged, or to the block as the map gives it now
(R105 to R107). -/
def State.bindBlock (s : State) (nsid lba below : Nat) : Source :=
  let g := lba / 4
  let q := lba % 4
  let due := (s.pendingWrites nsid lba).filter (· < below)
  let lay := fun (base : Source) (from_ : Nat) =>
    (sortBy (fun a b => a ≤ b) (due.filter (from_ < ·)).eraseDups).foldl (fun src n => Source.version g q n src) base
  match ((s.stg.versions.filter (fun v => v.at_ nsid g q && v.seq < below && v.staged && !v.released)).map (·.seq)).max? with
  | some n => lay (.version g q n .zero) n
  | none => lay (match (s.ftl.ofNsid nsid).bind (fun r => r.cidOf g) with
      | none => .zero
      | some c => if c = 0 then .zero else .flash c q) 0

/-- A read is bound, block by block, at its fetch; its versions stay until it completes (R107, R135). -/
def bindReads (x : Ctx) (s : State) : Ctx :=
  { x with reads := (List.range x.cap.nlb).map (fun i => (s.bindBlock x.cap.nsid (x.cap.slba + i) x.seq, none)) }

/-! ### Data -/

/-- The namespace has 64-byte metadata. -/
def State.hasMeta (s : State) (nsid : Nat) : Bool := (s.ftl.ofNsid nsid).any (fun r => r.format != 0)

/-- A block as a host sees it: its data, and its metadata where the format has it. The spec states no metadata for a
block written without it: free bytes. -/
def hostBlock (nsid : Nat) (data pi : Bytes) (s : State) : Bytes × State :=
  if !s.hasMeta nsid then (data, s)
  else if pi.length = 64 then (data ++ pi, s)
  else (data ++ s.randomBytes 64, drawn 64 s)

/-- A version is there and Staged, or to come, or its write has failed. -/
inductive VersionNow where
  | ready (data pi : Bytes)
  | waits
  | failed
  | lost
  deriving DecidableEq, Repr

/-- What has become of the version a read is bound to (R106). -/
def State.versionNow (s : State) (nsid g q n : Nat) : VersionNow :=
  match s.stg.versions.find? (fun v => v.at_ nsid g q && v.seq == n) with
  | some v => if v.staged && v.lost then .lost else if v.staged then .ready v.bytes (if v.hasPi then v.pi else []) else .waits
  | none => if (s.pendingWrites nsid (4 * g + q)).contains n then .waits else .failed

/-- A source whose write has failed gives way to what stands behind it (R106). -/
def State.settled (s : State) (nsid : Nat) : Source → Source
  | .version g q n b => match s.versionNow nsid g q n with
    | .failed => s.settled nsid b
    | _ => .version g q n b
  | .flash c q => .flash c q
  | .zero => .zero

/-- The entries of a read that can be filled from staging are. -/
def fillReads (x : Ctx) (s : State) : Ctx × State :=
  x.reads.foldl (fun (acc : Ctx × State) r =>
    let (y, t) := acc
    let keep := fun (e : Source × Option Bytes) (u : State) => ({ y with reads := y.reads ++ [e] }, u)
    match r.2 with
    | some _ => keep r t
    | none =>
      match t.settled x.cap.nsid r.1 with
      | .zero =>
        let (b, t1) := hostBlock x.cap.nsid (zeros 4096) [] t
        keep (.zero, some b) t1
      | .flash c q => keep (.flash c q, none) t
      | .version g q n o =>
        match t.versionNow x.cap.nsid g q n with
        | .ready d p =>
          let (b, t1) := hostBlock x.cap.nsid d p t
          keep (.version g q n o, some b) t1
        | _ => keep (.version g q n o, none) t) ({ x with reads := [] }, s)

/-- The slots a read still needs: CID, grain, quarters. -/
def Ctx.slots (x : Ctx) : List (Nat × List Nat) :=
  let l := x.reads.filterMap (fun r => match r.1, r.2 with
    | .flash c q, none => some (c, q)
    | _, _ => none)
  (l.map (·.1)).eraseDups.map (fun c => (c, ((l.filter (fun p => p.1 == c)).map (·.2)).eraseDups))

/-- The first block of a read that a CID is to fill. -/
def Ctx.firstOf (x : Ctx) (cid : Nat) : Nat :=
  x.lba + (x.reads.findIdx? (fun r => r.2.isNone && r.1.flashCid == some cid)).getD 0

/-- A slot read of a command for a CID runs. -/
def Jobs.reading (j : Jobs) (x : Ctx) (cid : Nat) : Bool :=
  j.reads.any (fun r => r.cid == cid && r.why == .host x.cntlid x.qid x.cid)

/-- The slot reads a command needs and has not started are started. -/
def startSlots (x : Ctx) (s : State) : State :=
  x.slots.foldl (fun t p =>
    if t.jobs.reading x p.1 then t
    else startRead (.host x.cntlid x.qid x.cid) 0 p.1 p.2 t) s

/-! ### Completion -/

/-- The data of a read whose blocks are all there. -/
def Ctx.readData (x : Ctx) : Bytes := x.reads.flatMap (fun r => r.2.getD [])

/-- The host data a Compare brought, in block order. -/
def Ctx.hostData (x : Ctx) : Bytes := (List.range x.cap.nlb).flatMap (fun i => (getKey i x.blocks).getD [])

/-- A completed read is counted (Table 17-3, Table 3-8). -/
def countRead (x : Ctx) (s : State) : State :=
  let s1 := match s.hq.controller x.cntlid with
    | none => s
    | some c => setController { c with dataRead := c.dataRead + x.cap.nlb } s
  tallyAdd 0x04 1 1 (tallyAdd 0x04 3 x.cap.nlb s1)

/-- Aborted because the first command of a fused pair failed (0h/09h). PRESUMED: NVMe Base gives the status. -/
def nvmeFusedFail : NvmeStatus := (0, 9, false, 0)

/-- The write half of a fused Compare and Write: the write with the same number of the same queue. -/
def Hq.otherHalf (h : Hq) (x : Ctx) : Option Ctx :=
  h.ctxs.find? (fun y => y.cntlid == x.cntlid && y.qid == x.qid && y.seq == x.seq && y.cap.fused == 2 && x.cap.fused == 1)

/-- This head owns the namespace of a command (R120). -/
def State.ownsNsid (s : State) (nsid : Nat) : Bool := (s.ftl.ofNsid nsid).any (fun r => s.ownsRoot r)

/-- Host data of a command is asked for: all of it by RDMA Read; over NVMe/TCP by R2Ts of 32 blocks, 128 KiB, of which at most 16
are outstanding (Table 3-2; the size of an R2T is a DESIGN CHOICE). -/
def askData (x : Ctx) (s : State) : State :=
  let goal := if x.cap.tcp then min x.cap.nlb (x.blocks.length + 512) else x.cap.nlb
  let left := goal - x.pulled
  let asks := if x.cap.tcp then (List.range (ceilDiv left 32)).map (fun i =>
      Output.pullData x.cntlid x.qid x.cid (x.pulled + 32 * i) (min 32 (left - 32 * i)))
    else if left = 0 then [] else [.pullData x.cntlid x.qid x.cid x.pulled left]
  emitAll asks (setCtx { x with pulled := max x.pulled goal } s)

/-- A write's data is asked for: RDMA Read or R2T (R101: Data-In). -/
def startDataIn (x : Ctx) (s : State) : State := askData { x with state := .dataIn } s

/-- The write half of a fused pair ends without effect: what it was admitted with is free again, and the head that orders its
namespace learns of it (R106). -/
def failHalf (w : Ctx) (s : State) : State :=
  failCtx w nvmeFusedFail (let s1 := { s with stg := { s.stg with admitted := s.stg.admitted - w.cap.nlb } }
    if s.ownsNsid w.cap.nsid then s1 else sendPeer (.withdraw w.cap.nsid w.seq) s1)

/-- A Compare is decided: Successful, or Compare Failure naming the first block that differs; the write half may proceed then, or
ends without effect (R104, Table 3-14). -/
def decideCompare (x : Ctx) (same : Bool) (lba : Nat) (s : State) : State :=
  let s1 := completeAt lba x (if same then nvmeOk else nvmeCompare) 0 [] s
  match s.hq.otherHalf x with
  | none => s1
  | some w => if same then s1 else failHalf w s1

/-- A Compare whose range and host data are there decides. -/
def finishCompare (x : Ctx) (s : State) : State :=
  let n := if s.hasMeta x.cap.nsid then 4160 else 4096
  let bad := (List.range x.cap.nlb).find? (fun i => slice x.readData (n * i) n != slice x.hostData (n * i) n)
  decideCompare x (x.readData == x.hostData) (x.lba + bad.getD 0) s

/-- A read whose blocks are all there completes: Read with its data, Verify without, Compare by its decision. -/
def finishRead (x : Ctx) (s : State) : State :=
  if x.cap.opcode = 0x05 then
    (if x.blocks.length < x.cap.nlb then setCtx x s else finishCompare x s)
  else if x.cap.opcode = 0x0C then complete x nvmeOk 0 [] s
  else complete x nvmeOk 0 x.readData (countRead x s)

/-- A read ends with a Damrid status, naming its first affected block: a fused write ends with it. -/
def failRead (x : Ctx) (st : Status) (lba : Nat) (s : State) : State :=
  let s1 := completeAt lba x (nvmeOf st) 0 [] s
  match s.hq.otherHalf x with
  | none => s1
  | some w => failHalf w s1

/-- The first Lost block of a read, on flash or in staging (R163, R324, R363). -/
def State.firstLost (s : State) (x : Ctx) : Option Nat :=
  let lost := fun (r : Source × Option Bytes) => match r.1, r.2 with
    | .version g q n _, none => s.versionNow x.cap.nsid g q n == .lost
    | .flash c q, none => (s.ftl.ctRec c).any (fun k => k.lost || bitAt q k.mask)
    | _, _ => false
  (x.reads.findIdx? lost).map (x.lba + ·)

/-- A read goes on as far as its sources allow (R106). -/
def readProgress (x : Ctx) (s : State) : State :=
  let (y, s1) := fillReads x s
  match s1.firstLost y with
  | some lba => failRead y .grainLost lba s1
  | none => if y.reads.all (fun r => r.2.isSome) then finishRead y (setCtx y s1)
    else startSlots y (setCtx y s1)

/-- A command is a read bound and running. -/
def Ctx.isRead (x : Ctx) : Bool :=
  (x.cap.opcode == 0x02 || x.cap.opcode == 0x05 || x.cap.opcode == 0x0C) && x.state == .resolved

/-- Reads that wait for writes go on after a write is Staged or has failed (R106). -/
def wakeReads (s : State) : State :=
  s.hq.ctxs.foldl (fun t x =>
    match t.hq.ctx x.cntlid x.qid x.cid with
    | none => t
    | some y => if y.isRead then readProgress y t else t) s

/-- The quarters of a slot arrive for a command: good ones with their metadata, and the Lost. -/
def hostQuarters (x : Ctx) (cid : Nat) (good : List (Nat × (Bytes × Bytes))) (s : State) : State :=
  let (y, s1) := x.reads.foldl (fun (acc : Ctx × State) r =>
    let (y, t) := acc
    match r.1, r.2 with
    | .flash c q, none =>
      match (if c = cid then getKey q good else none) with
      | some d =>
        let (b, t1) := hostBlock x.cap.nsid d.1 d.2 t
        ({ y with reads := y.reads ++ [(r.1, some b)] }, t1)
      | none => ({ y with reads := y.reads ++ [r] }, t)
    | _, _ => ({ y with reads := y.reads ++ [r] }, t)) ({ x with reads := [] }, s)
  readProgress y (setCtx y s1)

/-! ### Rows -/

/-- A read of this head starts: its slots are read and it completes when its blocks are there. A command on a Non-Optimized path
executes on the owning head: what that head answers comes with the row, a Read's data, or whether a Compare's range equals the host
data, as a byte of 1 (R120). -/
def runRead (opcode cntlid qid cid : Nat) (remote : Option (Status × Bytes)) (s : State) : State :=
  match s.hq.ctx cntlid qid cid with
  | none => s
  | some x =>
    if x.cap.opcode ≠ opcode ∨ x.state ≠ .fetched then s
    else
      let owned := (s.ftl.ofNsid x.cap.nsid).any (fun r => s.ownsGroup r.ana)
      if owned then readProgress { x with state := .resolved } (setCtx { x with state := .resolved } s)
      else
        match remote with
        | none => s
        | some (st, d) =>
          if st ≠ .ok then failRead x st x.lba s
          else if opcode = 0x05 then decideCompare x (d.head? == some 1) x.lba s
          else
            let n := if s.hasMeta x.cap.nsid then 4160 else 4096
            finishRead { x with state := .resolved, reads := (List.range x.cap.nlb).map (fun i => (Source.zero, some (slice d (n * i) n))) }
              (setCtx { x with state := .resolved } s)

/-- READ: each block from the overlapping write ordered below it, or from flash as bound at fetch (R105 to R107). -/
def execRead (cntlid qid cid : Nat) (remote : Option (Status × Bytes)) (s : State) : Host.Outcome State Fault Refusal :=
  done (runRead 0x02 cntlid qid cid remote s)

/-- VERIFY: reads, verifies tags and decodes the range; transfers no data (Table 3-5). -/
def execVerify (cntlid qid cid : Nat) (remote : Option (Status × Bytes)) (s : State) : Host.Outcome State Fault Refusal :=
  done (runRead 0x0C cntlid qid cid remote s)

/-- The host data of a Compare is asked for where its capsule did not carry it, by the head that received the command; what its
capsule carried goes to the owning head where that is the other (R120). -/
def pullCompare (cntlid qid cid : Nat) (s : State) : State :=
  match s.hq.ctx cntlid qid cid with
  | none => s
  | some x =>
    if x.cap.opcode = 0x05 ∧ x.state = .fetched ∧ x.forPeer = false ∧ x.pulled = 0 then
      (if x.blocks = [] then askData x s
       else if s.ownsNsid x.cap.nsid then s
       else emit (.peerData cntlid qid cid 0 x.hostData) (setCtx { x with pulled := x.cap.nlb } s))
    else s

/-- COMPARE: reads the range and compares it byte for byte with the host's data (Table 3-5). -/
def execCompare (cntlid qid cid : Nat) (remote : Option (Status × Bytes)) (s : State) : Host.Outcome State Fault Refusal :=
  match s.hq.ctx cntlid qid cid with
  | none => .next s
  | some x => whenDue (x.cap.fused = 0) (runRead 0x05 cntlid qid cid remote (pullCompare cntlid qid cid s)) s

/-- COMPARE_AND_WRITE: the Compare half runs; the write half, under the same number, only when it matches (R104). -/
def execCompareAndWrite (cntlid qid cid : Nat) (remote : Option (Status × Bytes)) (s : State) : Host.Outcome State Fault Refusal :=
  match s.hq.ctx cntlid qid cid with
  | none => .next s
  | some x => whenDue (x.cap.fused = 1) (runRead 0x05 cntlid qid cid remote (pullCompare cntlid qid cid s)) s

end Sys2Proof.Machine
end

