-- ==== Sys2Proof/Machine/SlotRows.lean ====
section
/-! DEFINITION. The rows of a slot's way back: bridge completions of reads, reconstruction, decryption, decode, and
what each reader does with the content (R226 to R233, R249, R250, R281, R308, R347 to R349, R363, R402, R406). -/

namespace Sys2Proof.Machine

/-! ### Lost content (R201, R363) -/

/-- A CID becomes Lost as a whole: POISON, its flag, its index record poisoned, the event and the count; `why` is 1
rebuild, 2 decode, 3 vault restore (R201, R363). -/
def loseCid (cid why : Nat) (s : State) : State :=
  match s.ftl.ctRec cid with
  | none => s
  | some r =>
    if r.lost then s
    else
      let s1 := journal (.poison cid 0) (putRec cid { r with flags := setBit 1 r.flags } s)
      let s2 := event 0x8004 19 (argOf [(0, cid), (6, why)]) { s1 with ec := { s1.ec with lost := s1.ec.lost + 1 } }
      match (s2.ddp.recOf cid).filter (fun _ => s2.ownsCid cid) with
      | none => s2
      | some x => indexChange 3 x s2

/-! ### What the reader does with the content -/

/-- The stream class a slot's engine work is posted in (Table 2-16); host reads paid at admission. -/
def streamOf : ReadWhy → Nat
  | .host .. => 1
  | .completion _ => 3
  | .verify _ => 4
  | .move _ => 5
  | .patrol => 6
  | .transfer _ => 9

/-- A slot moved: its bytes and envelopes go to a new place, byte for byte; a CT_MOVE follows once its stripe is
closed (R32, R281, R309). -/
def moveSlot (r : SlotRead) (s : State) : State :=
  let layout := ((s.ec.stripeOf r.psa).map (fun y => y.1.layout)).getD 0
  placeMoved layout ⟨r.cid, 0, 0, 0, psaTier r.psa, r.envs.headD [], r.cipher, 0, r.psa⟩ s

/-- The metadata bytes of a quarter of a slot's plaintext. -/
def SlotRead.pi (r : SlotRead) (q : Nat) : Bytes :=
  if r.plain.length ≤ 4096 * psaTier r.psa then [] else slice r.plain (4096 * psaTier r.psa + 64 * q) 64

/-- X of a slot whose four quarters were decoded. -/
def SlotRead.content (r : SlotRead) (good : List (Nat × Bytes)) : Bytes :=
  (List.range 4).flatMap (fun q => (getKey q good).getD (zeros 4096)) ++ r.plain.drop (4096 * psaTier r.psa)

/-- The quarters arrive at their reader. -/
def deliver (r : SlotRead) (good : List (Nat × Bytes)) (s : State) : State :=
  let s1 := endRead r.job s
  let s2 := if r.stale then moveSlot r s1 else s1
  let withPi := good.map (fun p => (p.1, (p.2, r.pi p.1)))
  match r.why with
  | .host c q i =>
    match s2.hq.ctx c q i with
    | none => s2
    | some x => if x.isRead then hostQuarters x r.cid withPi s2 else s2
  | .completion job => contentReady job (modDestage job (fun d => fillQuarters d withPi []) s2)
  | .verify _ =>
    match getKey r.job s2.ddp.comparing with
    | none => s2
    | some (res, c) =>
      let s3 := { s2 with ddp := { s2.ddp with comparing := delKey r.job s2.ddp.comparing } }
      compared res c (r.content good == res.x) s3
  | .move blk =>
    let refresh := s2.ftl.moves.any (fun m => m.blk == blk && m.why == 2)
    tallyAdd 0x0A (if refresh then 6 else 4) 1 s2
  | .patrol => s2
  | .transfer sess => { s2 with jobs := { s2.jobs with handed := s2.jobs.handed ++ [(sess, (r.grain, (r.cid, some r.plain)))] } }

/-- The content is Lost for its reader: a host read fails, a completed grain takes poisoned quarters, a comparison
counts as a difference, a move drops the slot (R232, R324, R363). -/
def deliverLost (r : SlotRead) (why : Nat) (s : State) : State :=
  let s1 := loseCid r.cid why (endRead r.job s)
  match r.why with
  | .host c q i =>
    match s1.hq.ctx c q i with
    | none => s1
    | some x => if x.isRead then failRead x .readUnrecovered (x.firstOf r.cid) s1 else s1
  | .completion job => contentReady job (modDestage job (fun d => fillQuarters d [] r.want) s1)
  | .verify _ =>
    match getKey r.job s1.ddp.comparing with
    | none => s1
    | some (res, c) => compared res c false { s1 with ddp := { s1.ddp with comparing := delKey r.job s1.ddp.comparing } }
  | .move _ => s1
  | .patrol => s1
  | .transfer sess => { s1 with jobs := { s1.jobs with handed := s1.jobs.handed ++ [(sess, (r.grain, (r.cid, none)))] } }

/-- The slot is reconstructed, or its content is Lost when no set of sources is left (R347, R349). -/
def rebuildOrLose (job why : Nat) (s : State) : State :=
  match reconstructSlot job s with
  | some t => tallyAdd 0x0B 3 1 t
  | none =>
    match s.jobs.read job with
    | none => s
    | some r => deliverLost r why s

/-! ### Completions of reads -/

/-- A read reports its corrected bits: the block's ratio and the report card's counts (R407, Table 17-4). -/
def noteRead (op : DieOp) (d : BlpDone) (s : State) : State :=
  let b := blkKey op.bay op.die op.block
  let limit := (((s.bay.bayOf op.bay).ident).map (·.limit)).getD 0
  let ratio := if limit = 0 then 0 else min 1024 (d.corrected * 1024 / limit)
  let e := s.ftl.ledger b
  let s1 := if e.ratio < ratio then setLedger b { e with ratio := ratio } s else s
  let t := s1.tally
  if d.status ≠ 0 then s1
  else if d.retry ≠ 0 then tallyAdd 0x0C 6 1 { s1 with tally := { t with ldpcRecovered := t.ldpcRecovered + 1 } }
  else if d.corrected ≠ 0 then { s1 with tally := { t with corrected := t.corrected + 1 } }
  else s1

/-- An uncorrectable page is counted on its bay; two pages of a block uncorrectable after calibration in one
programme cycle retire it (R314, R406). -/
def noteUncorrectablePage (op : DieOp) (s : State) : State :=
  let b := blkKey op.bay op.die op.block
  let y := s.bay.bayOf op.bay
  let s1 := tallyAdd 0x0C 4 1 (setBay op.bay { y with uncorr := y.uncorr + 1 } { s with tally := { s.tally with
    hourUnc := putKey op.bay ((getKey op.bay s.tally.hourUnc).getD 0 + 1) s.tally.hourUnc } })
  if !s1.ftl.calibrated.contains b then s1
  else
    let bad := if s1.ftl.badPages.contains (b, op.page) then s1.ftl.badPages else s1.ftl.badPages ++ [(b, op.page)]
    let s2 := { s1 with ftl := { s1.ftl with badPages := bad } }
    if 2 ≤ (bad.filter (fun p => p.1 == b)).length then retireBlock b 3 s2 else s2

/-- The event of a bridge error (Table 17-2). -/
def bridgeEvent (op : DieOp) (status : Nat) (s : State) : State :=
  event 0x9004 (bayIsland op.bay) (argOf [(0, op.bay), (1, status), (2, op.die)]) s

/-- The form of a die takes no more operations and roll call asks the die who owns it: FENCED (R406, R478). -/
def haltForm (f : Nat) (s : State) : State :=
  match s.tt.active with
  | none => s
  | some i =>
    let fm := i.form f
    let s1 := { s with bay := { s.bay with
      halted := if s.bay.halted.contains f then s.bay.halted else s.bay.halted ++ [f] } }
    let y := s1.bay.bayOf fm.bay
    queueOp { blkOp 6 (blkKey fm.bay (16 * fm.group) 0) 0 0 0 (.statusOf f) [] with die := 16 * fm.group }
      (setBay fm.bay { y with fenced := y.fenced + 1 } s1)

/-- Every block of a die that no longer answers is rebuilt as though its member had Failed, and is Retired (R406). -/
def dieFault (bay die : Nat) (s : State) : State :=
  let here := s.ec.groups.flatMap (fun g => (List.range (g.blocks.length + g.second.length)).filterMap (fun i =>
    let b := (g.blocks ++ g.second).getD i 0
    if b != 0 && blkBay b == bay && blkDie b == die then some (g.id, i) else none))
  let blks := (s.ftl.blocks.filter (fun e => blkBay e.1 == bay && blkDie e.1 == die && e.2.state != .retired)).map (·.1)
  blks.foldl (fun t b => setBlkState b .retired t)
    { s with ec := { s.ec with rebuild := s.ec.rebuild ++ here.filter (fun x => !s.ec.rebuild.contains x) } }

/-- What a status of Table 11-6 asks for whatever the operation was: true when the operation is issued again and its
use waits for that. -/
def bridgeStatus (op : DieOp) (status : Nat) (s : State) : Bool × State :=
  if status = 5 then
    (true, match s.formAt op.bay op.die with
      | none => queueOp { op with posted := none } s
      | some f => queueOp { op with posted := none } (haltForm f s))
  else if status = 8 then (false, dieFault op.bay op.die (bridgeEvent op 8 s))
  else if status = 9 then (false, bridgeFailed op.bay (bridgeEvent op 9 s))
  else if status ≤ 4 ∨ status = 0x0A then (false, s)
  else if op.reissued then (false, bridgeFailed op.bay (bridgeEvent op status s))
  else (true, queueOp { op with reissued := true, posted := none } (bridgeEvent op status s))

/-- The envelopes of a slot in a page's tag area. -/
def tagEnvelopes (tags : Bytes) (psa : Nat) : List Bytes :=
  (List.range (psaTier psa)).map (fun i => slice tags (32 + 56 * (psaQuarter psa + i)) 56)

/-- A page header that fails its check is an event, and the page is still read (R367). -/
def checkHeaderOf (tags : Bytes) (name : Nat) (s : State) : State :=
  if headerOk tags then s else event 0x7001 20 (argOf [(0, 4), (2, name % 2 ^ 48)]) s

/-- The die read of a slot returned. A moved slot is neither decrypted nor encrypted: once its envelopes and pointer agree
it goes to its new place (R32, R281). -/
def slotArrived (r : SlotRead) (source : Nat) (data tags : Bytes) (s : State) : State :=
  let envs := tagEnvelopes tags r.psa
  if source = 0 then
    let r1 := { r with cipher := data, envs := envs, stage := .decrypt }
    let s1 := setRead r1 (checkHeaderOf tags r.cid s)
    match r.why with
    | .move _ => if envelopesOk envs ∧ pointerOk (envs.headD []) r.cid r.psa then deliver { r1 with stale := true } [] s1 else s1
    | _ => s1
  else
    let bytes := fitBytes (4096 * psaTier r.psa) data ++ envs.flatMap (fitBytes 56)
    setRead { r with sources := r.sources.map (fun p => if p.1 == source - 1 then (p.1, some bytes) else p) } s

/-- A read of a slot or of a source of one did not return its bytes (R347, R349, Table 11-6). -/
def slotUnread (r : SlotRead) (source status : Nat) (s : State) : State :=
  let s1 := if status = 2 then event 0x7001 20 (argOf [(0, 5), (2, r.cid % 2 ^ 48)]) s else s
  if source = 0 then rebuildOrLose r.job 1 s1
  else
    match replaceSource r.job (source - 1) s1 with
    | some t => t
    | none => deliverLost r 1 s1

/-- The tails of a tail page that has been read (Table 10-5). -/
def takeTails (half key : Nat) (page : Option Bytes) (s : State) : State :=
  match page with
  | none => s
  | some b => { s with ftl := { s.ftl with tails := (List.range 15).foldl (fun l i =>
      if bitAt i (fieldAt b 0x40 2) then putKey (2 ^ 47 * half + 15 * key + i) (slice b (0x80 + 256 * i) 256) l else l) s.ftl.tails } }

/-- A metadata page is resident now, or its next copy is read, or after three bad copies it is lost (R283, R295). -/
def metaArrived (tree key : Nat) (page : Option Bytes) (s0 : State) : State :=
  let k := 2 ^ 64 * tree + key
  let n := (getKey k s0.ftl.metaTries).getD 0
  let s := if tree < 2 ^ 33 then s0 else takeTails (tree - 2 ^ 33) key page s0
  if page.isSome then touchPages [(tree, key)] { s with ftl := { s.ftl with
    absent := s.ftl.absent.filter (fun p => p != (tree, key)), metaTries := delKey k s.ftl.metaTries } }
  else if n < 7 then fetchMeta tree key (s.ftl.mpaOfPage tree key) s
  else
    event 0x7001 20 (argOf [(0, 2), (2, s.ftl.mpaOfPage tree key % 2 ^ 48)]) { s with ftl := { s.ftl with
      absent := s.ftl.absent.filter (fun p => p != (tree, key)), metaTries := delKey k s.ftl.metaTries
      lostPages := s.ftl.lostPages ++ [(tree, key)] } }

/-! ### Reconstruction, decryption, decode -/

/-- RECONSTRUCTION_COMBINE: every source of a reconstruction has returned; a parity group combines them by byte range
and the slot goes to its tag check (R328, R348). The combine is posted whatever the bucket holds (Table 2-16). -/
def execReconstructionCombine (job : Nat) (s : State) : Host.Outcome State Fault Refusal :=
  match s.jobs.read job with
  | none => .next s
  | some r =>
    match s.ec.stripeOf r.psa with
    | none => .next s
    | some (g, _, pos) =>
      whenDue (r.stage = .reconstruct ∧ r.sources.all (fun p => p.2.isSome) = true ∧ r.sources ≠ [])
        (let bytes := reconstruct g.k pos (r.sources.map (fun p => (p.1, p.2.getD [])))
         let n := 4096 * psaTier r.psa
         pay (streamOf r.why) .par (coveredLength (psaTier r.psa) * r.sources.length)
           (setRead { r with
             stage := .decrypt, cipher := bytes.take n
             envs := (List.range (psaTier r.psa)).map (fun i => slice bytes (n + 56 * i) 56) } s)) s

/-- The bytes a lane decrypts: the slot, and the tail of a slot with metadata bytes (R371). -/
def State.slotText (s : State) (r : SlotRead) : Bytes :=
  r.cipher ++ (if bitAt 1 (fieldAt (r.envs.headD []) 3 1) then (getKey r.cid s.ftl.tails).getD (zeros 256) else [])

/-- The costs of slot work that is not a host command's (Table 2-16). -/
def slotCost (r : SlotRead) (k : EngineKind) (n : Nat) : List (EngineKind × Nat) :=
  match r.why with
  | .host .. => []
  | _ => [(k, n)]

/-- A tag failed on a lane: the first time the other cipher island tries; the second time the slot is reconstructed
(R250). -/
def tagFailed (r : SlotRead) (lane domain : Nat) (s : State) : State :=
  let s1 := event 0x6003 (laneIsland (laneOf .cip lane)) (argOf [(0, laneIsland (laneOf .cip lane)), (1, lane), (2, domain)])
    (tallyAdd 0x08 2 1 { s with ciph := { s.ciph with
      failStatus := 0x0710, failLane := lane, failLocker := domain, failCount := min (s.ciph.failCount + 1) (2 ^ 48 - 1) } })
  match r.failLane with
  | none => if r.rebuilt then rebuildOrLose r.job 1 s1 else setRead { r with failLane := some lane } s1
  | some _ => rebuildOrLose r.job 1 (setRead { r with failLane := none } s1)

/-- A slot whose tag holds: a lane whose failure this second opening confirms goes out, and the plaintext goes to the decoder or, for a move
or a transfer, to what asked for it (R250). -/
def slotOpened (r : SlotRead) (plain : Bytes) (s : State) : State :=
  let s1 := match r.failLane with
    | none => s
    | some l => laneOut (laneOf .cip l) .test s
  let s2 := if r.rebuilt then { s1 with tally := { s1.tally with parityRecovered := s1.tally.parityRecovered + 1 } } else s1
  let s3 := tallyAdd 0x08 1 1 s2
  let r1 := { r with plain := plain, stage := .decode, failLane := none }
  match r.why with
  | .move _ => deliver { r1 with stale := true } [] s3
  | .transfer _ => deliver r1 [] s3
  | _ => setRead r1 s3

/-- A DATA key of a generation older than the current and the previous one is in the island's cache of 512, the one used longest ago
replaced (R240, Table 7-3). -/
def useOlder (island domain gen : Nat) (s : State) : State :=
  if (s.ciph.locker domain).gen ≤ gen + 1 then s
  else
    let k := (island, (domain, gen))
    let rest := s.ciph.olderKeys.filter (fun x => x != k)
    { s with ciph := { s.ciph with
      olderKeys := k :: ((rest.filter (fun x => x.1 == island)).take 511 ++ rest.filter (fun x => x.1 != island)) } }

/-- SLOT_DECRYPT_COMPLETE: a cipher lane checks the envelopes and the pointer and verifies the slot's tag; only then is
the plaintext released. A lane that is out delivers nothing. A second lane that verifies what the first did not takes the first out for self-test (R250,
R281, R370). -/
def execSlotDecryptComplete (job lane : Nat) (sound : Bool) (s : State) : Host.Outcome State Fault Refusal :=
  match s.jobs.read job with
  | none => .next s
  | some r =>
    if r.stage ≠ .decrypt ∨ s.laneDelivers (laneOf .cip lane) = false ∨ otherIsland .cip r.failLane lane = false then .next s
    else
      let e := r.envs.headD []
      let text := s.slotText r
      posted (streamOf r.why) (slotCost r .cip text.length) (fun s =>
        if !envelopesOk r.envs ∨ !pointerOk e r.cid r.psa then
          let stale := envelopesOk r.envs
          let s1 := if stale then event 0x7001 20 (argOf [(0, 1), (2, r.cid % 2 ^ 48)]) s else s
          rebuildOrLose job 1 (setRead { r with stale := r.stale || stale } s1)
        else
          let domain := fieldAt e 4 2
          let s := useOlder (laneIsland (laneOf .cip lane)) domain (fieldAt e 6 2) s
          match (if sound then gcmOpen (s.dataKey domain (fieldAt e 6 2)) (slice e 0x18 12) (slotAad e) text (slice e 0x24 16) else none) with
          | none => tagFailed r lane domain s
          | some plain =>
            slotOpened r plain s) s

/-- A decoder error is recorded: one event for each failing part, and the error registers (R231). -/
def noteDecodeErrors (lane : Nat) (l : List (Nat × SkxError)) (s : State) : State :=
  l.foldl (fun t p =>
    event 0x6001 (laneIsland (laneOf .dec lane))
      (argOf [(0, statusCode p.2.status), (2, p.1), (3, lane), (4, p.2.offset)])
      (tallyAdd 0x07 6 1 { t with skx := ⟨statusCode p.2.status, p.1, lane, p.2.offset, t.tt.now, t.skx.count + 1⟩ })) s

/-- The errors of a decode as its retry compares them (R232). -/
def errorKeys (l : List (Nat × SkxError)) : List (Nat × (Nat × Nat)) := l.map (fun p => (p.1, (statusCode p.2.status, p.2.offset)))

/-- DECODE_COMPLETE: a decoder lane decodes the wanted quarters of a verified slot. A failed decode is made again on
the other island; the same failure leads to reconstruction, a different one also takes both lanes out, and a failure
of the reconstructed slot makes the grain Lost (R226 to R232). `faulty` is what a failing lane reports in place of
the decode. -/
def execDecodeComplete (job lane : Nat) (faulty : Option (List (Nat × (Nat × Nat)))) (s : State) :
    Host.Outcome State Fault Refusal :=
  match s.jobs.read job with
  | none => .next s
  | some r =>
    if r.stage ≠ .decode ∨ s.laneDelivers (laneOf .dec lane) = false ∨ otherIsland .dec r.failLane lane = false then .next s
    else
      posted (streamOf r.why) (slotCost r .dec (4096 * r.want.length)) (fun s =>
        let res := skxDecode (r.plain.take (4096 * psaTier r.psa)) (psaTier r.psa) r.want
        let keys := match faulty with
          | some k => k
          | none => errorKeys res.errors
        if keys = [] then
          let s1 := match r.failLane with
            | none => s
            | some l => laneOut (laneOf .dec l) .test s
          deliver r res.released (tallyAdd 0x07 5 r.want.length s1)
        else
          let s1 := match faulty with
            | none => noteDecodeErrors lane res.errors s
            | some k => k.foldl (fun t p => event 0x6001 (laneIsland (laneOf .dec lane))
                (argOf [(0, p.2.1), (2, p.1), (3, lane), (4, p.2.2)])
                (tallyAdd 0x07 6 1 { t with skx := ⟨p.2.1, p.1, lane, p.2.2, t.tt.now, t.skx.count + 1⟩ })) s
          match r.failLane with
          | none => setRead { r with failLane := some lane, failErrors := keys } s1
          | some first =>
            let s2 := if r.failErrors = keys then s1
              else laneOut (laneOf .dec lane) .test (laneOut (laneOf .dec first) .test s1)
            if r.rebuilt then deliverLost r 2 s2
            else rebuildOrLose job 2 (setRead { r with failLane := none, failErrors := [] } s2)) s

/-- PSA_RESOLVE_AGAIN: a read whose die read is not posted within 64 periods resolves its PSA again first (R308). -/
def execPsaResolveAgain (job : Nat) (s : State) : Host.Outcome State Fault Refusal :=
  match s.jobs.read job with
  | none => .next s
  | some r =>
    let mine := fun (o : DieOp) => match o.use with
      | .slot j _ => j == job
      | _ => false
    whenDue (r.stage = .die ∧ r.postBy ≤ s.tt.now ∧ s.bay.waiting.any mine = true)
      (let psa := ((s.ftl.ctRec r.cid).map (·.psa)).getD r.psa
       let s1 := { s with
         bay := { s.bay with waiting := s.bay.waiting.filter (fun o => !mine o) }
         ftl := { s.ftl with pinned := s.ftl.pinned.map (fun p => if p.2 == job then (psaBlk psa, job) else p) } }
       let r1 := { r with psa := psa, postBy := s.tt.now + 64 }
       postRead r1 (setRead r1 s1)) s

end Sys2Proof.Machine
end

