-- ==== Sys2Proof/Machine/Background.lean ====
section
/-! DEFINITION. Background flash work: garbage collection, erase, retention, calibration, refresh, triage, spare,
stripes, patrol, rebuild, and the completions of programmes, erases and calibrations (R306 to R323, R330, R339 to R341,
R350 to R352, R359 to R363, R401, R404). -/

namespace Sys2Proof.Machine

/-! ### Garbage collection (R309 to R311) -/

/-- A block's live slots are moved: slots of count 0 that this head owns are dropped first; the moves' reads start in Recess
(R309). `why`: 1 garbage collection, 2 refresh, 4 wear levelling. -/
def startMove (blk why : Nat) (s : State) : State :=
  let dead := (s.ftl.liveIn blk).filter (fun c =>
    s.ownsCid c && (s.ftl.ctRec c).any (fun r => r.refs == 0 && !bitAt 7 r.flags) && !s.boundCid c)
  let s1 := dead.foldl (fun t c => dropCid c t) s
  let live := s1.ftl.liveIn blk
  if live = [] then settleBlock blk s1
  else { s1 with ftl := { s1.ftl with moves := s1.ftl.moves ++ [⟨blk, why, live⟩] } }

/-- At a bell the slot reads of moves that have not started are queued as Recess reads. -/
def startMoves (s : State) : State :=
  let due := s.ftl.moves.filter (fun m => m.cids != [])
  let s1 := { s with ftl := { s.ftl with moves := s.ftl.moves.map (fun m => { m with cids := [] }) } }
  due.foldl (fun t m => m.cids.foldl (fun u c => startRead (.move m.blk) 0 c [] u) t) s1

/-- Data units of a block: quarters of its data strips. -/
def State.blockUnits (s : State) (bay : Nat) : Nat := 4 * (((s.bay.bayOf bay).ident).map (·.pages)).getD 4096

/-- Whole days since a block became Full, capped (R310). -/
def State.ageDays (s : State) (e : Ledger) : Nat := min ((s.epoch - e.fullEpoch) / 128) 65535

/-- A score is at least another: (1 − u)(a + 1) ÷ (1 + u) compared without division (R310). -/
def State.scoreGe (s : State) (x y : Nat) : Bool :=
  let f := fun (b : Nat) =>
    let e := s.ftl.ledger b
    let d := s.blockUnits (blkBay b)
    ((d - min e.live d) * (s.ageDays e + 1), d + e.live)
  (f y).1 * (f x).2 < (f x).1 * (f y).2 || ((f y).1 * (f x).2 == (f x).1 * (f y).2 && x ≤ y)

/-- The rated retention of a block in hours at 40 °C: the first point at or above its P/E count (R409). -/
def State.rated (s : State) (b : Nat) : Nat :=
  let pts := (((s.bay.bayOf (blkBay b)).ident).map (·.retention)).getD []
  ((pts.find? (fun p => (s.ftl.ledger b).pe ≤ p.1)).map (·.2)).getD 0

/-- A block is due for refresh: consumed at least 0.8 of its rated retention, or a corrected ratio of 768 (R321). -/
def State.refreshDue (s : State) (b : Nat) : Bool :=
  let e := s.ftl.ledger b
  decide (8 * s.rated b * 3600000000000 ≤ 10 * e.consumed) || decide (768 ≤ e.ratio)

/-- The mean P/E count of a die's blocks, and a block below it by more than a tenth of the rated endurance (R313). -/
def State.wearCandidate (s : State) (b : Nat) : Bool :=
  let bay := blkBay b
  let n := s.blocksPerDie bay
  let total := sumNat ((s.ftl.blocks.filter (fun e => blkBay e.1 == bay && blkDie e.1 == blkDie b)).map (fun e => e.2.pe))
  let rated := (((s.bay.bayOf bay).ident).map (·.endurance)).getD 0
  decide (10 * n * (s.ftl.ledger b).pe + n * rated < 10 * total)

/-- Full data blocks of a die of groups this head knows, not being moved. -/
def State.fullBlocks (s : State) (bay die : Nat) : List Nat :=
  ((s.ftl.blocks.filter (fun e => blkBay e.1 == bay && blkDie e.1 == die && e.2.state == .full)).map (·.1)).filter (fun b =>
    (s.ec.locate b).any (fun y => y.2 < y.1.k) && !s.ftl.moves.any (fun m => m.blk == b))

/-- GC_START: the Free blocks of a die of this head's data-role forms fall below 8: the victim is a block due for refresh or
a wear-levelling candidate, else the one with the highest score (R309 to R311, R313). -/
def execGcStart (bay die : Nat) (s : State) : Host.Outcome State Fault Refusal :=
  let full := s.fullBlocks bay die
  let first := full.filter (fun b => s.refreshDue b || s.wearCandidate b)
  let pool := if first = [] then full.filter (fun b => (s.ftl.ledger b).live < s.blockUnits bay) else first
  match pool.find? (fun b => pool.all (fun c => s.scoreGe b c)) with
  | none => .next s
  | some b =>
    whenDue ((s.dataForms bay).any (fun f => s.formAt bay die == some f) = true ∧
        (s.freeBlocks bay die (s.blocksPerDie bay)).length < 8 ∧
        s.ftl.moves.all (fun m => !(blkBay m.blk == bay && blkDie m.blk == die)) = true)
      (startMove b (if first = [] then 1 else if s.refreshDue b then 2 else 4) s) s

/-- REFRESH_DUE: a due block's live slots are moved in Recess (R321). -/
def execRefreshDue (blk : Nat) (s : State) : Host.Outcome State Fault Refusal :=
  whenDue ((s.fullBlocks (blkBay blk) (blkDie blk)).contains blk = true ∧ s.ownsDie (blkBay blk) (blkDie blk) = true ∧
      s.refreshDue blk = true)
    (startMove blk 2 s) s

/-- BLOCK_ERASE_DUE: a Pending-Erase block whose relocation has been durable for 64 periods and to which no read is pinned
is erased in Recess (R307). -/
def execBlockEraseDue (blk : Nat) (s : State) : Host.Outcome State Fault Refusal :=
  whenDue (s.ftl.erasable.any (fun e => e.1 == blk && e.2 ≤ s.tt.now) = true ∧ s.ftl.pinned.all (fun p => p.1 != blk) = true ∧
      (s.ftl.ledger blk).state = .pendingErase)
    (queueOp (blkOp 3 blk 0 0 4 .erase [])
      { s with ftl := { s.ftl with erasable := s.ftl.erasable.filter (fun e => e.1 != blk) } }) s

/-- BLP_ERASE_COMPLETE: the block becomes Free with its P/E count raised by 1; an erase that did not verify retires it
(R307, R314). -/
def execBlpEraseComplete (d : BlpDone) (s : State) : Host.Outcome State Fault Refusal :=
  match s.bay.find d.bay d.tag with
  | none => .next s
  | some op =>
    if op.opcode ≠ 3 then .next s
    else
      let blk := blkKey op.bay op.die op.block
      let (again, s1) := bridgeStatus op d.status (takeDone op d s)
      if again then .next s1
      else
        match op.use with
        | .erase =>
          if d.status = 0 then
            let e := s1.ftl.ledger blk
            .next (tallyAdd 0x0A 5 1 (setBlkState blk .free (setOwnLedger blk { e with pe := e.pe + 1, live := 0 } s1)))
          else if d.status = 4 then .next (retireBlock blk 2 s1)
          else .next { s1 with ftl := { s1.ftl with erasable := s1.ftl.erasable ++ [(blk, s1.tt.now)] } }
        | .ring => .next s1
        | .vaultStrip _ =>
          if d.status = 4 then .next (retireBlock blk 2 s1)
          else .next (setOwnLedger blk { s1.ftl.ledger blk with pe := (s1.ftl.ledger blk).pe + 1 } s1)
        | _ => .next (if d.status = 4 then retireBlock blk 2 s1 else s1)

/-! ### Retention and calibration (R319 to R321, R407, R409) -/

/-- The blocks that hold data. -/
def Ftl.dataBlocks (f : Ftl) : List Nat := (f.blocks.filter (fun e => e.2.state == .isOpen || e.2.state == .full)).map (·.1)

/-- AF × 1,000 in steps of 1 °C from -40 to 125 °C, each rounded up to a tenth, as the 60.3 at 75 °C shows (R320).
DEDUCED. -/
def afTable : List Nat :=
  [100, 100, 100, 100, 100, 100, 100, 100, 100, 100, 100, 100, 100, 100] ++
  [100, 100, 100, 100, 100, 100, 100, 100, 100, 100, 100, 100, 100, 100] ++
  [100, 100, 100, 100, 100, 100, 100, 100, 100, 100, 100, 100, 100, 100] ++
  [100, 100, 100, 100, 100, 100, 100, 100, 100, 100, 100, 100, 100, 100] ++
  [100, 100, 100, 100, 100, 100, 100, 100, 200, 200, 200, 200, 200, 300] ++
  [300, 300, 400, 400, 500, 600, 600, 700, 800, 900, 1000, 1200, 1300, 1500] ++
  [1700, 1900, 2200, 2500, 2800, 3200, 3600, 4000, 4600, 5100, 5800, 6500, 7300, 8200] ++
  [9200, 10300, 11600, 13000, 14600, 16300, 18300, 20400, 22800, 25500, 28400, 31700, 35300, 39400] ++
  [43800, 48800, 54200, 60300, 66900, 74300, 82400, 91400, 101300, 112100, 124100, 137300, 151800, 167700] ++
  [185200, 204400, 225400, 248500, 273900, 301600, 332000, 365300, 401600, 441400, 484900, 532300, 584200, 640700] ++
  [702400, 769700, 842900, 922700, 1009600, 1104100, 1206900, 1318700, 1440100, 1572000, 1715200, 1870600, 2039200, 2221900] ++
  [2420000, 2634500, 2866800, 3118300, 3390300, 3684600, 4002600, 4346300, 4717500, 5118300, 5550900, 6017600]

/-- AF × 1,000 at a temperature in 0.1 °C, taken to the next whole degree up (R320). -/
def accelFactor (temp : Int) : Nat :=
  let t : Int := -((-temp) / 10)
  afTable.getD ((max 0 (min 165 (t + 40))).toNat) 0

/-- The mean of a bay's temperatures since the last accrual, the last one read where there is none (R409). -/
def State.meanTemp (s : State) (bay : Nat) : Int :=
  match getKey bay s.ftl.temps with
  | some (sum, n) => if n = 0 then (s.bay.bayOf bay).temp else sum / (n : Int)
  | none => (s.bay.bayOf bay).temp

/-- The blocks that hold data, of the forms this head owns. -/
def State.ownData (s : State) : List Nat := s.ftl.dataBlocks.filter (fun b => s.ownsDie (blkBay b) (blkDie b))

/-- Consumed values rise, each change with its LEDGER record (R318). -/
def consume (bs : List Nat) (add : Nat → Nat) (s : State) : State :=
  bs.foldl (fun t b => setLedger b { t.ftl.ledger b with consumed := (t.ftl.ledger b).consumed + add b } t) s

/-- RETENTION_ACCRUE: at a day boundary the consumed value of each Open and Full block of this head's half rises by the time since the
last addition times AF (R320). -/
def execRetentionAccrue (s : State) : Host.Outcome State Fault Refusal :=
  let dt := s.clockUs - s.ftl.accrued
  whenDue (s.period = 0 ∧ s.pool.isSome = true)
    (consume s.ownData (fun b => dt * accelFactor (s.meanTemp (blkBay b))) { s with ftl := { s.ftl with
      accrued := s.clockUs
      temps := [] } }) s

/-- A calibration trigger: the block became Full, a corrected ratio of 512, or 30 days since the last calibration (R319), a day being
1,024 periods as the spec defines it; the ledger holds bits [31:0] of the day count (Table 8-10). -/
def State.calibrationDue (s : State) (b : Nat) : Bool :=
  let e := s.ftl.ledger b
  let data := e.state == .full || e.state == .isOpen
  s.ftl.fullDue.contains b || (512 ≤ e.ratio && data) ||
  (data && e.calDay != 0 && 30 ≤ (s.day + 2 ^ 32 - e.calDay) % 2 ^ 32)

/-- CALIBRATION_DUE: a due block is calibrated on one of its pages in Recess (R319, R404). -/
def execCalibrationDue (blk page : Nat) (s : State) : Host.Outcome State Fault Refusal :=
  let busy := (s.bay.outstanding ++ s.bay.waiting).any (fun o =>
    o.opcode == 7 && blkKey o.bay o.die o.block == blk)
  whenDue (s.calibrationDue blk = true ∧ s.ownsDie (blkBay blk) (blkDie blk) = true ∧ busy = false)
    (queueOp { blkOp 7 blk page 0 4 .calibrate [] with operand := (s.ftl.ledger blk).offsets } s) s

/-- BLP_CALIBRATE_COMPLETE: the offsets go to the block's ledger entry (R404); a diagnostic calibration answers its
packet with the 64-byte result. -/
def execBlpCalibrateComplete (d : BlpDone) (offsets counts : List Nat) (s : State) : Host.Outcome State Fault Refusal :=
  match s.bay.find d.bay d.tag with
  | none => .next s
  | some op =>
    if op.opcode ≠ 7 then .next s
    else
      let blk := blkKey op.bay op.die op.block
      let (again, s1) := bridgeStatus op d.status (takeDone op d s)
      if again then .next s1
      else
        match op.use with
        | .diag b tag =>
          match s1.cpi.packet b tag 0x0801 with
          | none => .next s1
          | some p => .next (answered p (fitBytes 64 (offsets.flatMap (leBytes 1) ++ counts.flatMap (leBytes 2))) [] s1)
        | _ =>
          if d.status ≠ 0 then .next s1
          else .next (setLedger blk { s1.ftl.ledger blk with
              offsets := (offsets ++ List.replicate 16 0).take 16, calDay := s1.day % 2 ^ 32, ratio := 0 }
            { s1 with ftl := { s1.ftl with fullDue := s1.ftl.fullDue.filter (· != blk), calibrated := if s1.ftl.calibrated.contains blk then s1.ftl.calibrated
                else s1.ftl.calibrated ++ [blk] } })

/-! ### Triage (R322, R323) -/

/-- The block is the oldest-written on its die. -/
def Ftl.oldest (f : Ftl) (b : Nat) : Bool :=
  f.dataBlocks.all (fun c => blkBay c != blkBay b || blkDie c != blkDie b ||
    (f.ledger b).writeTime < (f.ledger c).writeTime || ((f.ledger b).writeTime == (f.ledger c).writeTime && b ≤ c))

/-- The class of a block: 2 Urgent, 1 Due, 0 Sound (Table 8-11). -/
def State.triageClass (s : State) (unknown : Bool) (b : Nat) : Nat :=
  let used := (s.ftl.ledger b).consumed
  let r := s.rated b * 3600000000000
  if 8 * r ≤ 10 * used ∨ (unknown = true ∧ s.ftl.oldest b = true) then 2
  else if r ≤ 2 * used then 1
  else 0

/-- The blocks are triaged: each class is recorded, and the blocks to be sampled are read: one page of each programme group
of every Urgent block and of one Due block on each die, in Recess, oldest write time first; an Urgent block is calibrated after that (R322,
R323). -/
def triage (unknown : Bool) (s : State) : State :=
  let cls := s.ftl.dataBlocks.map (fun b => (b, s.triageClass unknown b))
  let byTime := fun (a b : Nat × Nat) => decide ((s.ftl.ledger a.1).writeTime ≤ (s.ftl.ledger b.1).writeTime)
  let urgent := sortBy byTime (cls.filter (fun p => p.2 == 2))
  let due := (sortBy byTime (cls.filter (fun p => p.2 == 1))).foldl (fun (acc : List (Nat × Nat)) p =>
    if acc.any (fun q => blkBay q.1 == blkBay p.1 && blkDie q.1 == blkDie p.1) then acc else acc ++ [p]) []
  let sample := fun (t : State) (b : Nat) =>
    (List.range (ceilDiv ((((t.bay.bayOf (blkBay b)).ident).map (·.pages)).getD 4) 4)).foldl
      (fun u strip => readOp b (4 * strip) 0 4 .sample u) t
  let calibrate := fun (t : State) (b : Nat) => queueOp { blkOp 7 b 0 0 4 .calibrate [] with operand := (t.ftl.ledger b).offsets } t
  (urgent ++ due).foldl (fun t p =>
      if !t.ownsDie (blkBay p.1) (blkDie p.1) then t else if p.2 = 2 then calibrate (sample t p.1) p.1 else sample t p.1)
    { s with ftl := { s.ftl with triage := 2, triaged := cls.filter (fun p => p.2 != 0) } }

/-- A known gap is added to every consumed value at AF = 1, and the blocks are triaged (R322). -/
def triageWithGap (gapUs : Nat) (s : State) : State :=
  triage false (consume (s.ftl.blocks.map (·.1) |>.filter (fun b => s.ownsDie (blkBay b) (blkDie b))) (fun _ => 1000 * gapUs) s)

/-- A sample shows a ratio of 768 or more: the block is Urgent and every block of its die moves up one class (R323). -/
def sampled (blk : Nat) (s : State) : State :=
  if 768 ≤ (s.ftl.ledger blk).ratio then
    let die := fun (b : Nat) => blkBay b == blkBay blk && blkDie b == blkDie blk
    let up := (s.ftl.dataBlocks.filter die).map (fun b =>
      (b, if b = blk then 2 else min 2 ((getKey b s.ftl.triaged).getD 0 + 1)))
    { s with ftl := { s.ftl with triaged := s.ftl.triaged.filter (fun p => !die p.1) ++ up } }
  else s

/-- At a bell triaged blocks are refreshed, Urgent before Due, oldest write time first, one at a time; the last one
completes the triage (R322). -/
def triageStep (s : State) : State :=
  if s.ftl.triage ≠ 2 then s
  else
    let left := s.ftl.triaged.filter (fun p => (s.ftl.ledger p.1).state == .full || (s.ftl.ledger p.1).state == .isOpen)
    let s1 := { s with ftl := { s.ftl with triaged := left, triage := if left = [] then 3 else 2 } }
    let busy := (s1.bay.waiting ++ s1.bay.outstanding).any (fun o => o.use == .sample || o.use == .calibrate)
    let mine := left.filter (fun p => s1.ownsDie (blkBay p.1) (blkDie p.1) && (s1.ftl.ledger p.1).state == .full &&
      !s1.ftl.moves.any (fun m => m.blk == p.1))
    let before := fun (a b : Nat × Nat) => b.2 < a.2 || (a.2 == b.2 && decide ((s1.ftl.ledger a.1).writeTime ≤ (s1.ftl.ledger b.1).writeTime))
    if busy || s1.ftl.moves.any (fun m => m.why == 2) then s1
    else
      match mine.find? (fun a => mine.all (fun b => before a b)) with
      | none => s1
      | some a => startMove a.1 2 s1

/-- TIME_TOKEN_WAIT_EXPIRY: no token within 60 s of the start: the gap is unknown, and the blocks are triaged (R322). -/
def execTimeTokenWaitExpiry (s : State) : Host.Outcome State Fault Refusal :=
  whenDue (s.ftl.triage = 1 ∧ s.ftl.triageAt + secBells 60 ≤ s.tt.now) (triage true s) s

/-! ### Spare (R315, R316) -/

/-- Data units of a block: 4,096-byte units of its data strips. -/
def State.unitsPerBlock (s : State) : Nat :=
  match s.ec.members.head? with
  | none => 16384
  | some m => s.blockUnits m.bay

/-- The data-role forms in service. -/
def State.dataFormList (s : State) : List Nat :=
  match s.tt.active with
  | none => []
  | some i => (List.range i.formCount).filter (fun f => bitAt 0 (i.form f).role && s.ec.serving (i.form f).bay)

/-- P and S0 of R315, in blocks. B_head counts, of the domain that holds the most, the blocks with live slots and the metadata blocks of its
triad forms (R338). -/
def State.spareBlocks (s : State) : Int × Nat :=
  match s.tt.active with
  | none => (1, 0)
  | some i =>
    let forms := s.dataFormList
    let inForm := fun (b : Nat) => forms.any (fun f => (i.form f).bay == blkBay b && (i.form f).group == blkDie b / 16)
    let total := sumNat (forms.map (fun f => 16 * s.blocksPerDie (i.form f).bay))
    let good := total - (s.ftl.blocks.filter (fun e => inForm e.1 && e.2.state == .retired)).length
    let inTriad := fun (b : Nat) => (List.range i.triads).any (fun t => (s.triadForms t).any (fun f =>
      (i.form f).bay == blkBay b && (i.form f).group == blkDie b / 16))
    let held := s.ftl.blocks.filter (fun e => (e.2.state == .full || e.2.state == .isOpen) && (e.2.live != 0 || ((s.ec.locate e.1).isNone && inTriad e.1)))
    let inDomain := fun (d : Nat) => (held.filter (fun e => (s.ec.member (blkBay e.1)).any (fun m => m.domain == d))).length
    let head := (((List.range 64).map inDomain).max?).getD 0
    let l := i.layoutRec ((s.pool.map (·.layout)).getD 0)
    let perBlock := 4096 * s.unitsPerBlock
    let afterParity := fun (bytes : Nat) => ceilDiv (bytes * (l.k + l.m)) (l.k * perBlock)
    let gc := 64 * forms.length + afterParity (2 * s.stagingSize)
    let need := afterParity (4096 * sumNat (s.ftl.blocks.map (fun e => e.2.live)))
    ((good : Int) - head - gc - need, good * ((s.pool.map (·.reserve)).getD 50) / 1000)

/-- The spare remaining in 1/1,000: min(1, P ÷ S0) (R315). -/
def State.spareNow (s : State) : Nat :=
  let (p, s0) := s.spareBlocks
  if s0 = 0 then (if 0 < p then 1000 else 0) else min 1000 (p.toNat * 1000 / s0)

/-- The state of Table 8-9 that follows a state at a value; Read-Only Retirement ends only when added members raise it to 10 %
(R316, R317). -/
def spareStateAfter (old permille : Nat) (none_ grown : Bool) : Nat :=
  if none_ then 3
  else if old = 3 ∧ (permille < 100 ∨ grown = false) then 3
  else if permille < 50 then 2
  else if permille < 250 then 1
  else if permille < 270 ∧ old ≠ 0 then 1
  else 0

/-- SPARE_STATE_CHANGE: the spare remaining is worked out; a state reached is entered at the next bell (R316). -/
def execSpareStateChange (s : State) : Host.Outcome State Fault Refusal :=
  let permille := s.spareNow
  let n := spareStateAfter s.ftl.spareState permille (decide (s.spareBlocks.1 ≤ 0)) (decide (s.ftl.spareMembers < s.ec.members.length))
  .next { s with ftl := { s.ftl with
    sparePermille := permille
    spareNext := if n = s.ftl.spareState then none else some n } }

/-- At a bell the pool enters the state reached (R316). -/
def spareBell (s : State) : State :=
  match s.ftl.spareNext with
  | none => s
  | some n => event 0x7002 20 (argOf [(0, s.ftl.spareState), (1, n)])
      { s with ftl := { s.ftl with
        spareState := n, spareNext := none, spareMembers := if n = 3 then s.ec.members.length else s.ftl.spareMembers } }

/-! ### Stripes -/

/-- STRIPE_IDLE_CLOSE: a stripe that has received no slot for 64 periods closes early with interim parity (R339). -/
def execStripeIdleClose (group : Nat) (s : State) : Host.Outcome State Fault Refusal :=
  match s.ec.group group with
  | none => .next s
  | some g => whenDue (g.isOpen = true ∧ g.lastSlot + 64 ≤ s.tt.now ∧ (g.filling ≠ [] ∨ (g.cur.isSome = true ∧ 0 < g.posted)))
      (closeEarly group s) s

/-- In write-through a stripe with slots closes early (R339). -/
def closeForThrough (s : State) : State :=
  if !s.through then s
  else s.ec.groups.foldl (fun t g => if g.isOpen ∧ (g.filling ≠ [] ∨ (g.cur.isSome = true ∧ 0 < g.posted)) then closeEarly g.id t else t) s

/-- The old parity of the stripe to be extended is read: four pages of each column, in Lesson-Program periods where a destage extends
the stripe, in Recess where moves do (R341). DEDUCED: those are the periods in which that class's programmes and reads are posted. -/
def readOldParity (g : Group) (x : Stripe) (s : State) : State :=
  match x.pointer with
  | none => s
  | some pos => (List.range g.m).foldl (fun t j =>
      let (b, strip) := g.parityAt j pos
      (List.range 4).foldl (fun u pg =>
        readOp b (4 * strip + pg) 15 (if s.stripClass g.filling = 2 then 2 else 4) (.parity g.id x.number j pos) u) t) s

/-- STRIPE_EXTEND: data for a group whose latest stripe is interim extends it; parity no longer in the accumulators is read
from flash first (R341). -/
def execStripeExtend (group : Nat) (s : State) : Host.Outcome State Fault Refusal :=
  match s.ec.group group with
  | none => .next s
  | some g =>
    match g.stripes.getLast? with
    | none => .next s
    | some x =>
      if !g.isOpen ∨ !x.interim ∨ x.final ∨ g.k ≤ x.a ∨ g.cur.isSome = true ∨ g.filling = [] then .next s
      else if g.accum ≠ [] then .next (postStrip group s)
      else
        let here := s.ec.parityReads.filter (fun p => p.1 == group)
        let busy := (s.bay.waiting ++ s.bay.outstanding).any (fun o => o.opcode == 1 && (match o.use with
          | .parity y _ _ _ => y == group
          | _ => false))
        if here.length = 4 * g.m then
          let col := fun (j : Nat) => (List.range 4).flatMap (fun pg => ((here.find? (fun p => p.2.1 == 4 * j + pg)).map (fun p => p.2.2)).getD [])
          .next (postStrip group (setGroup { g with accum := (List.range g.m).map col }
            { s with ec := { s.ec with parityReads := s.ec.parityReads.filter (fun p => p.1 != group) } }))
        else if busy then .next s
        else .next (readOldParity g x { s with ec := { s.ec with parityReads := s.ec.parityReads.filter (fun p => p.1 != group) } })

/-- GROUP_OPEN: a group opens on a qualifying row of a data layout in which this head fills none (R330). -/
def execGroupOpen (layout : Nat) (s : State) : Host.Outcome State Fault Refusal :=
  match s.tt.active with
  | none => .next s
  | some i => whenDue ((i.layoutRec layout).purpose = 1 ∧ (s.openGroupOf layout).isNone = true) (openGroup layout s) s

/-! ### Patrol (R350 to R352) -/

/-- The stripes of this head's groups in patrol order: group, stripe. -/
def State.patrolList (s : State) : List (Nat × Nat) :=
  (sortBy (fun a b => a.id ≤ b.id) (s.ec.groups.filter (fun g => g.id / 2 ^ 63 == s.sys.slot))).flatMap (fun g =>
    (sortBy (· ≤ ·) ((g.stripes.filter (fun x => x.pointer.isSome)).map (·.number))) |>.map (fun n => (g.id, n)))

/-- The next stripe of the pass. -/
def State.patrolNext (s : State) : Option (Nat × Nat) :=
  let l := s.patrolList
  (l.find? (fun p => s.ec.patrolAt.1 < p.1 || (s.ec.patrolAt.1 == p.1 && s.ec.patrolAt.2 ≤ p.2))).or l.head?

/-- The slots of a strip from its covered bytes: ciphertext and part-0 envelope. -/
def stripSlots (cov : Bytes) : List (Bytes × Bytes) :=
  (List.range 16).filterMap (fun n =>
    let pg := n / 4
    let e := slice cov (16608 * pg + 16384 + 56 * (n % 4)) 56
    if fieldAt e 0 1 == 1 && fieldAt e 1 1 == 0 then
      some (slice cov (16608 * pg + 4096 * (n % 4)) (4096 * fieldAt e 2 1), e)
    else none)

/-- Every slot of a strip verifies; slots of a Withdrawn locker count as verified (R245, R351). -/
def State.stripVerifies (s : State) (cov : Bytes) : Bool :=
  (stripSlots cov).all (fun p =>
    let e := p.2
    let text := p.1 ++ (if bitAt 1 (fieldAt e 3 1) then (getKey (fieldAt e 8 6) s.ftl.tails).getD (zeros 256) else [])
    (s.ciph.locker (fieldAt e 4 2)).state == .withdrawn ||
    (envelopeOk e && (gcmOpen (s.dataKey (fieldAt e 4 2) (fieldAt e 6 2)) (slice e 0x18 12) (slotAad e) text (slice e 0x24 16)).isSome))

/-- Slots of a strip whose locker is Withdrawn: patrol skips them (R245). -/
def State.stripSkips (s : State) (cov : Bytes) : Nat :=
  ((stripSlots cov).filter (fun p => (s.ciph.locker (fieldAt p.2 4 2)).state == .withdrawn)).length

/-- The strips of a stripe that patrol reads: those written, on members In service (R347, R350, R641). -/
def State.patrolReads (s : State) (g : Group) (x : Stripe) : List Nat :=
  (List.range (g.k + g.m)).filter (fun i =>
    !x.unwritten.contains i && (g.sourceAt x i).any (fun b => s.ec.serving (blkBay b.1)))

/-- The data of a stripe from strips read of it: a strip beyond a is zeros, one that was not read is reconstructed from k others. -/
def stripeData (g : Group) (x : Stripe) (strips : List (Nat × Bytes)) : List Bytes :=
  let zero := ((List.range g.k).filter (fun i => x.a ≤ i)).map (fun i => (i, zeros 66432))
  let all := zero ++ strips
  (List.range g.k).map (fun i => (getKey i all).getD (if all.length < g.k then [] else reconstruct g.k i all))

/-- The position patrol finds faulty: the first data strip with a slot that fails; else the one parity strip whose
reconstruction makes every parity agree (R351). -/
def State.locateFault (s : State) (g : Group) (x : Stripe) (strips : List (Nat × Bytes)) : Option Nat :=
  let data := stripeData g x strips
  match (List.range x.a).find? (fun i => (getKey i strips).any (fun b => !s.stripVerifies b)) with
  | some i => some i
  | none =>
    if g.m = 1 then some g.k
    else
      let bad := (List.range g.m).filter (fun j => (getKey (g.k + j) strips).any (fun b => b != paritySum j 0 66432 data))
      match bad with
      | [j] => some (g.k + j)
      | _ => none

/-- The parities read of a stripe agree with its data. -/
def parityAgrees (g : Group) (x : Stripe) (strips : List (Nat × Bytes)) : Bool :=
  let data := stripeData g x strips
  (List.range g.m).all (fun j => (getKey (g.k + j) strips).all (fun b => b == paritySum j 0 66432 data))

/-- PATROL_STRIPE: the strips of the next stripe, as the reads of its pages returned them, are checked against its parity;
a mismatch is located and rebuilt in patrol's stream class, or counted as unlocated (R350 to R352). The row does nothing before every
strip that can be read has been. -/
def execPatrolStripe (given : List (Nat × Bytes)) (s : State) : Host.Outcome State Fault Refusal :=
  match s.patrolNext with
  | none => .next s
  | some (id, n) =>
    match (s.ec.group id).bind (fun g => (g.stripe n).map (fun x => (g, x))) with
    | none => .next s
    | some (g, x) =>
      if (s.patrolReads g x).any (fun i => (getKey i given).isNone) then .next s else
      let strips := given.filter (fun p => (s.patrolReads g x).contains p.1)
      posted 6 [(.par, 66432 * strips.length)] (fun s =>
        let l := s.patrolList
        let at_ := (l.findIdx (fun p => p == (id, n))) + 1
        let s1 := tallyAdd 0x0B 4 1 { s with ec := { s.ec with
          patrolAt := (id, n + 1), patrolDone := if at_ = l.length then 0 else at_ } }
        if parityAgrees g x strips then { s1 with ec := { s1.ec with weak := s1.ec.weak.filter (fun p => p != (id, n)) } }
        else
          let skips := sumNat ((List.range x.a).map (fun i => s1.stripSkips ((getKey i strips).getD [])))
          let s2 := tallyAdd 0x0B 5 1 { s1 with
            ec := { s1.ec with mismatch := min (s1.ec.mismatch + 1) (2 ^ 48 - 1) }
            ciph := { s1.ciph with skipped := min (s1.ciph.skipped + skips) (2 ^ 48 - 1) } }
          match s.locateFault g x strips with
          | some pos =>
            event 0x8003 19 (argOf [(0, 1), (1, pos), (2, n), (4, id % 2 ^ 32)]) { s2 with ec := { s2.ec with
              faulty := s2.ec.faulty ++ [(id, pos)]
              rebuild := if s2.ec.rebuild.contains (id, pos) then s2.ec.rebuild else s2.ec.rebuild ++ [(id, pos)] } }
          | none =>
            event 0x8003 19 (argOf [(0, 2), (1, 0xFF), (2, n), (4, id % 2 ^ 32)])
              { s2 with ec := { s2.ec with weak := s2.ec.weak ++ [(id, n)] } }) s

/-! ### Rebuild (R359 to R362) -/

/-- The rebuild class of a triad with so many good copies, or of a group with so much redundancy left (Table 9-11). -/
def State.triadClass (s : State) (t : Nat) : Nat :=
  let lostCopies := (s.ec.rebuildTriads.filter (fun p => p.1 == t)).length
  let journal := match s.tt.active with
    | none => false
    | some i => i.triadRole t 4
  if journal then (if 2 ≤ lostCopies then 1 else 3) else (if 2 ≤ lostCopies then 2 else 5)

/-- A triad copy has a standby form to go to; one without waits for the next image (R360). -/
def State.hasStandby (s : State) (p : Nat × Nat) : Bool :=
  s.tt.active.any (fun i =>
    let standby := (i.triad p.1).getD 3 0xFFFF
    standby != 0xFFFF && !s.ec.standbys.any (fun x => x.2.2 == standby) && s.ec.serving (i.form standby).bay)

/-- The class in progress: the lowest with work (EC_REBUILD.CLASS). -/
def State.rebuildClass (s : State) : Nat :=
  let ts := (s.ec.rebuildTriads.filter s.hasStandby).map (fun p => s.triadClass p.1)
  let gs := s.ec.rebuild.map (fun p => match s.ec.group p.1 with
    | none => 6
    | some g => if s.ec.left g = 0 then 4 else 6)
  ((ts ++ gs).min?).getD 0

/-- The next block to rebuild: ascending redundancy left, then group ID (R361). -/
def State.rebuildNext (s : State) : Option (Nat × Nat) :=
  let left := fun (p : Nat × Nat) => ((s.ec.group p.1).map s.ec.left).getD 0
  s.ec.rebuild.find? (fun p => s.ec.rebuild.all (fun q =>
    left p < left q || (left p == left q && (p.1 < q.1 || (p.1 == q.1 && p.2 ≤ q.2)))))

/-- The replacement of a position: a block of an In service member not in the group, in a failure domain that does not hold
m of the other positions where one exists (R359). -/
def State.replacement (s : State) (g : Group) (pos : Nat) : Option Nat :=
  let bays := g.blocks.map blkBay
  let others := (g.blocks.eraseIdx (columnOf g pos)).map blkBay
  let cand := sortBy (· ≤ ·) (s.ec.servingBays.filter (fun b => !bays.contains b && (s.pickBlock b).isSome))
  let domain := fun (b : Nat) => ((s.ec.member b).map (·.domain)).getD 64
  let roomy := cand.filter (fun b => (others.filter (fun c => domain c == domain b)).length < g.m)
  (roomy.head?.or cand.head?).bind s.pickBlock

/-- The stripe and parity position of a strip of a block, by its column: of a parity block the stripe whose version it holds. -/
def stripeAt (g : Group) (pos strip : Nat) : Option Stripe :=
  if pos < g.k then g.stripe strip
  else g.stripes.find? (fun y => y.pointer == some (if pos < g.k + g.m then strip else strip + 1024))

/-- The strips of a block that were written: stripe numbers of a data position, columns' positions of a parity block. -/
def writtenStrips (g : Group) (pos : Nat) : List Nat :=
  if pos < g.k then (g.stripes.filter (fun x => pos < x.a)).map (·.number)
  else (g.stripes.filterMap (fun x => x.pointer.bind (fun p =>
    if pos < g.k + g.m then (if p < 1024 then some p else none) else (if 1024 ≤ p then some (p - 1024) else none))))

/-- The covered bytes of a strip of a rebuilt block, from the strips of its stripe; none with fewer than k (R328). -/
def rebuildStrip (g : Group) (pos strip : Nat) (sources : List (Nat × Bytes)) : Option Bytes :=
  let col := columnOf g pos
  let a := ((stripeAt g pos strip).map (·.a)).getD 0
  let zero := ((List.range g.k).filter (fun i => a ≤ i && i != col)).map (fun i => (i, zeros 66432))
  let all := zero ++ sources.filter (fun p => p.1 != col && !zero.any (fun z => z.1 == p.1))
  if all.length < g.k then none else some (reconstruct g.k col all)

/-- The header of a page of a rebuilt strip: as its first writer made it, in the running epoch (Table 10-1). -/
def rebuiltHeader (g : Group) (pos strip epoch page : Nat) : Bytes :=
  if pos < g.k then pageHeader 1 page pos g.id strip 0 g.layout epoch 0
  else
    match stripeAt g pos strip with
    | none => pageHeader 2 page (columnOf g pos) g.id strip 0 g.layout epoch 0
    | some x => pageHeader 2 page (columnOf g pos) g.id x.number (x.a + 64 * flagBit x.interim) g.layout epoch (x.pointer.getD 0)

/-- A rebuild of a block begins: a replacement is chosen and opened, and every written strip is reconstructed and programmed
in Recess; pages that cannot be take zeros and LOST_PAGE (R359, R363, R364). -/
def beginRebuild (g : Group) (pos new : Nat) (sources : List (Nat × List (Nat × Bytes))) (s : State) : State :=
  let s1 := openBlock new (s.dieTypeOf (blkBay new) (blkDie new)).number
    { s with ec := { s.ec with replacing := some (g.id, (pos, new)) } }
  (writtenStrips g pos).foldl (fun t n =>
    let made := rebuildStrip g pos n ((getKey n sources).getD [])
    let t1 := match made with
      | some _ => t
      | none => (List.range 4).foldl (fun u pg => journal (.lostPage g.id pos (4 * n + pg))
          (setGroup { ((u.ec.group g.id).getD g) with lost := ((u.ec.group g.id).getD g).lost ++ [(pos, (4 * n + pg, 0))] }
            { u with ec := { u.ec with sweepBy := u.ec.sweepBy.or (some (u.day + 1)) } })) t
    let hdr := rebuiltHeader g pos n t.epoch
    queueOp (blkOp 2 new n 0 4 (.rebuild g.id pos n) (stripData (made.getD (zeros 66432)) hdr)) t1) s1

/-- A programme of the rebuild is waiting or outstanding. -/
def State.rebuildBusy (s : State) : Bool :=
  (s.bay.waiting ++ s.bay.outstanding).any (fun o => match o.use with
    | .rebuild .. => true
    | _ => false)

/-- The replacement is whole: BLOCK_SUBST, CT_MOVE for each live slot of a data block, and the old block is no longer read
once the epoch is durable (R359). -/
def finishRebuild (id pos new : Nat) (s : State) : State :=
  match s.ec.group id with
  | none => { s with ec := { s.ec with replacing := none } }
  | some g =>
    let old := (g.blocks ++ g.second).getD pos 0
    let live := s.ftl.liveIn old
    let g1 := if pos < g.blocks.length then { g with blocks := setAt pos new g.blocks } else { g with second := setAt (pos - g.blocks.length) new g.second }
    let s1 := journal (.blockSubst id pos old new) (setGroup { g1 with
      stripes := g1.stripes.map (fun x => if pos < g.k ∨ (stripeAt g pos ((x.pointer.getD 0) % 1024)).any (fun y => y.number == x.number) = true
        then { x with unwritten := x.unwritten.filter (· != columnOf g pos) } else x) }
      { s with ec := { s.ec with replacing := none, faulty := s.ec.faulty.filter (fun p => p != (id, pos)), rebuild := s.ec.rebuild.filter (fun p => p != (id, pos)) } })
    let s2 := live.foldl (fun t c =>
      match t.ftl.ctRec c with
      | none => t
      | some r => moveCid c (psaOf new (psaPage r.psa) (psaQuarter r.psa) (psaTier r.psa) (psaStamp r.psa)) t) s1
    let s3 := if g.isOpen then s2 else setBlkState new .full s2
    let e := s3.ftl.ledger new
    let s4 := putLedger new { e with live := (s.ftl.ledger old).live } s3
    let s5 := if (s4.ftl.ledger old).state = .retired then s4 else setBlkState old .pendingErase s4
    let bay := blkBay old
    let done_ := s5.ec.rebuild.all (fun p => ((s5.ec.group p.1).map (fun y => blkBay ((y.blocks ++ y.second).getD p.2 0))) != some bay)
    let s6 := if done_ then
        match s5.ec.member bay with
        | none => s5
        | some m => if m.state = .failed then setMember { m with rebuilt := true } s5 else s5
      else s5
    tallyAdd 0x0B 6 1 (afterDurable s6.epoch (.substituted id pos) s6)

/-- A triad copy is rebuilt into its standby form: TRIAD_SUBST and the strips written there from another copy; without a
standby left it waits for the next image (R360). -/
def rebuildTriad (t c : Nat) (sources : List (Nat × List (Nat × Bytes))) (s : State) : State :=
  match s.tt.active with
  | none => s
  | some i =>
    let standby := (i.triad t).getD 3 0xFFFF
    if standby = 0xFFFF ∨ s.ec.standbys.any (fun x => x.2.2 == standby) = true then s
    else
      let s1 := journal (.triadSubst t c standby) { s with ec := { s.ec with
        standbys := s.ec.standbys.filter (fun x => !(x.1 == t && x.2.1 == c)) ++ [(t, (c, standby))]
        rebuildTriads := s.ec.rebuildTriads.filter (fun p => p != (t, c)) } }
      sources.foldl (fun u p =>
        let b := u.copyBlock standby p.1
        let u1 := if p.1 % 1024 = 0 then openBlock b (u.dieTypeOf (blkBay b) (blkDie b)).number u else u
        queueOp (blkOp 2 b (p.1 % 1024) 0 4 (.metaPage t c) ((p.2.head?.map (·.2)).getD [])) u1) s1

/-- REBUILD_BLOCK: the next work of Table 9-11: a triad copy into its standby, or a block of a group onto a replacement, with
the surviving strips as the reads of them returned them, by strip number; once its programmes are complete, BLOCK_SUBST.
Without a replacement block the rebuild waits and the event says so once; what patrol found is rewritten in patrol's stream class (R352,
R359 to R362). -/
def execRebuildBlock (sources : List (Nat × List (Nat × Bytes))) (s : State) : Host.Outcome State Fault Refusal :=
  match s.ec.replacing with
  | some (id, pos, new) =>
    if !s.ec.serving (blkBay new) then .next { s with ec := { s.ec with replacing := none } }
    else whenDue (s.rebuildBusy = false) (finishRebuild id pos new s) s
  | none =>
    let cls := s.rebuildClass
    match (sortBy (fun a b => a.1 < b.1 || (a.1 == b.1 && a.2 ≤ b.2)) s.ec.rebuildTriads).find? (fun p => s.hasStandby p && s.triadClass p.1 == cls) with
    | some (t, c) => .next (rebuildTriad t c sources s)
    | none =>
      match s.rebuildNext with
      | none => .next s
      | some (id, pos) =>
        match s.ec.group id with
        | none => .next { s with ec := { s.ec with rebuild := s.ec.rebuild.filter (fun p => p != (id, pos)) } }
        | some g =>
          match s.replacement g pos with
          | none => .next (if s.ec.waits = some (id, pos) then s
              else event 0x8005 19 (blkBay ((g.blocks ++ g.second).getD pos 0)) { s with ec := { s.ec with waits := some (id, pos) } })
          | some new =>
            posted (if s.ec.faulty.contains (id, pos) then 6 else 7) [(.par, 66432 * sumNat (sources.map (fun p => p.2.length)))]
              (fun s => beginRebuild g pos new sources { s with ec := { s.ec with waits := none } }) s

/-- LOST_SWEEP: within a day of a LOST_PAGE the slots whose bytes meet it are poisoned (R363). -/
def execLostSweep (s : State) : Host.Outcome State Fault Refusal :=
  let hit := fun (r : CtRec) => s.ec.groups.any (fun g => g.lost.any (fun l =>
    r.live && g.blocks.getD l.1 0 == psaBlk r.psa && l.2.1 == psaPage r.psa))
  whenDue (s.ec.sweepBy.isSome = true)
    ((s.ftl.ct.filter (fun c => hit c.2)).foldl (fun t c => loseCid c.1 1 t)
      { s with ec := { s.ec with sweepBy := none } }) s

/-! ### Programmes -/

/-- A strip that did not verify: its block is Retired, its slots seek another place, the position is no source of its
stripe and is rebuilt, and the group closes (R314). -/
def stripFailed (id stripe pos blk : Nat) (s : State) : State :=
  match s.ec.group id with
  | none => retireBlock blk 1 s
  | some g =>
    let here := g.waiting.filter (fun p => p.stripe == stripe && p.pos == pos)
    let g1 := { g with
      waiting := g.waiting.filter (fun p => !(p.stripe == stripe && p.pos == pos))
      stripes := g.stripes.map (fun x => if x.number == stripe then { x with unwritten := x.unwritten ++ [pos] } else x) }
    let s1 := setGroup g1 (seekPlace g.layout here s)
    let s2 := retireBlock blk 1 { s1 with ec := { s1.ec with
      rebuild := if s1.ec.rebuild.contains (id, pos) then s1.ec.rebuild else s1.ec.rebuild ++ [(id, pos)] } }
    closeGroup id (closeEarly id s2)

/-- A programme that ended, well or not, and what used it (R127, R314, R344). DESIGN CHOICE: PROGRAM_FAULT names island 9 (I09), where
the failed write would have been completed to the host; the spec gives the event no island. -/
def programEnded (op : DieOp) (ok : Bool) (s : State) : State :=
  let blk := blkKey op.bay op.die op.block
  let s := if ok then s else event 0x3004 9 (argOf [(0, op.bay), (2, op.die), (4, op.block)]) s
  match op.use with
  | .strip g x p => stripDone g x (if ok then s else stripFailed g x p blk s)
  | .parity g x j _ =>
    let k := ((s.ec.group g).map (·.k)).getD 0
    stripDone g x (if ok then s else stripFailed g x (k + j) blk s)
  | .metaPage t c =>
    if ok then s
    else
      let s1 := retireBlock blk 1 s
      { s1 with ec := { s1.ec with
        rebuildTriads := if s1.ec.rebuildTriads.contains (t, c) then s1.ec.rebuildTriads else s1.ec.rebuildTriads ++ [(t, c)] } }
  | .rebuild g p _ =>
    if ok then s
    else
      let s1 := retireBlock blk 1 s
      { s1 with ec := { s1.ec with
        replacing := none
        rebuild := if s1.ec.rebuild.contains (g, p) then s1.ec.rebuild else s1.ec.rebuild ++ [(g, p)] } }
  | _ => if ok then s else retireBlock blk 1 s

/-- BLP_PROGRAM_COMPLETE: the program buffer is free; a strip of a stripe counts toward its version; a failure retires the
block (R314, R344, R401). -/
def execBlpProgramComplete (d : BlpDone) (s : State) : Host.Outcome State Fault Refusal :=
  match s.bay.find d.bay d.tag with
  | none => .next s
  | some op =>
    if op.opcode ≠ 2 then .next s
    else
      let (again, s1) := bridgeStatus op d.status (takeDone op d s)
      if again then .next s1 else .next (programEnded op (d.status == 0) s1)

end Sys2Proof.Machine
end

