-- ==== Sys2Proof/Machine/Balls.lean ====
section
/-! DEFINITION. The protected sideband bank, the pin monitor, SMBus and test access (R625 to R632). -/

namespace Sys2Proof.Machine

/-- A pin of the LED group (R628). -/
def isLed (i : Nat) : Bool := 264 ≤ i && i ≤ 330

/-- An output of the protected bank (Table 19-5). -/
def isOutputPin (i : Nat) : Bool :=
  (i < 256 && (i % 4 == 1 || i % 4 == 2)) || i == 259 || i == 260 || isLed i

/-- The rest level of a pin's wire (Table 19-5). -/
def restHigh (i : Nat) : Bool :=
  (i < 256 && (i % 4 == 0 || i % 4 == 3)) || (261 ≤ i && i ≤ 330)

/-- A pin that nothing has moved from rest: sound, outputs driven to their rest level, LED pins
high-impedance (R630). -/
def Pin.rest (i : Nat) : Pin :=
  ⟨.sound, restHigh i, isOutputPin i && !isLed i, restHigh i && isOutputPin i && !isLed i, false, 0, 0, 0⟩

/-- A pin's present state. -/
def Pins.pin (p : Pins) (i : Nat) : Pin := (getKey i p.pins).getD (Pin.rest i)

/-- A pin changed. -/
def Pins.setPin (p : Pins) (i : Nat) (x : Pin) : Pins := { p with pins := putKey i x p.pins }

/-- A pin of the state changed. -/
def updPin (i : Nat) (x : Pin) (s : State) : State := { s with pins := s.pins.setPin i x }

/-- The level an input is seen at. -/
def setLevel (i : Nat) (high : Bool) (s : State) : State :=
  updPin i { s.pins.pin i with level := high } s

/-- The level at the ball of a driven pin: a short holds it (R631). -/
def Pin.ballLevel (x : Pin) (high : Bool) : Bool :=
  match x.fault with
  | .shortGround => false
  | .shortHigh => true
  | _ => high

/-- An output driven high or low; a clamped driver stays at high impedance, and the ball of a shorted pin at its level (R631). -/
def drivePin (i : Nat) (high : Bool) (s : State) : State :=
  let x := s.pins.pin i
  updPin i (if x.clamped then { x with high := high } else { x with driven := true, high := high, level := x.ballLevel high }) s

/-- A pin at fault. -/
def Pins.faulty (p : Pins) (i : Nat) : Bool := (p.pin i).fault != .sound

/-- The code of a fault class (PINS_STATE.FAULT). -/
def faultCode : PinFault → Nat
  | .sound => 0
  | .isOpen => 1
  | .shortGround => 2
  | .shortHigh => 3

/-- The class of a fault kind. -/
def faultOf : PinFaultKind → PinFault
  | .isOpen => .isOpen
  | .shortGround => .shortGround
  | .shortHigh => .shortHigh

/-- The event of a classed fault (PIN_FAULT, Table 17-2). -/
def pinFaultEvent (i : Nat) (f : PinFault) (s : State) : State :=
  event 0x9002 0 (argOf [(0, i), (2, faultCode f)]) s

/-- A pin is classed at fault: PINS_STATE and PINS_FAULTS show it, and its event is raised, or held until
the start when it is found during cold reset; a ball above 3.6 V puts its driver to high impedance
(R631, R632). -/
def classFault (i : Nat) (f : PinFault) (s : State) : State :=
  let x := s.pins.pin i
  let p1 := s.pins.setPin i { x with
    fault := f, clamped := f == .shortHigh, driven := x.driven && f != .shortHigh, goodTests := 0, since := s.day
    level := if f = .shortGround then false else if f = .shortHigh then true else x.level }
  let s1 := tallyAdd 0x13 0 1 { s with pins := { p1 with lastKind := f, lastPin := i } }
  if s.pwr.stage = .off ∨ s.pwr.stage = .aonOnly then
    { s1 with pins := { s1.pins with heldFaults := s1.pins.heldFaults ++ [(i, f)] } }
  else pinFaultEvent i f s1

/-- The pin monitor finds a pin open, shorted to ground or shorted high: at once for the 10 µs cases, on
the second consecutive finding for an open (R631). -/
def pinFound (i : Nat) (k : PinFaultKind) (s : State) : State :=
  if k = .isOpen ∧ (s.pins.pin i).badTests = 0 then
    updPin i { s.pins.pin i with badTests := 1, goodTests := 0 } s
  else if (s.pins.pin i).fault = faultOf k then
    updPin i { s.pins.pin i with goodTests := 0, since := s.day } s
  else classFault i (faultOf k) s

/-- A pin fault takes the pin from its function as Table 19-6 has it for a pin of one kind of fault alone. -/
def Pins.isOpen (p : Pins) (i : Nat) : Bool := (p.pin i).fault == .isOpen

/-- A reset pin that is shorted to ground is ignored until it has been high for 100 ms (Table 19-6). The pin that falls again has been high:
DEDUCED, log 77: for that long, once 7 days have passed since the short was last found. -/
def State.resetIgnored (s : State) (i : Nat) : Bool :=
  (s.pins.pin i).fault == .shortGround && decide (s.day < (s.pins.pin i).since + 7)

/-- At a bell a reset pin that was low has been released, unless it is shorted. DEDUCED, log 77: the command that names the fall of the pin
says nothing of its rise. -/
def resetPinsBell (s : State) : State :=
  [261, 262].foldl (fun t i => if (t.pins.pin i).level || (t.pins.pin i).fault == .shortGround then t else setLevel i true t) s

/-- An open test of an input or high-impedance output: a pin that follows both internal pulls is open; a
real edge discards the result, and a driven output has no such test (R631). -/
def execPinOpenTest (pin : Nat) (follows edge : Bool) (s : State) : Host.Outcome State Fault Refusal :=
  if edge ∨ 330 < pin ∨ (s.pins.pin pin).driven = true then .next s
  else if follows then .next (pinFound pin .isOpen s)
  else
    .next <| updPin pin { s.pins.pin pin with badTests := 0, goodTests := (s.pins.pin pin).goodTests + 1 } s

/-- The ball of a clamped pin has read 3.6 V or less for 10 µs: its drive is restored (R631). -/
def execPinDriveRestored (pin : Nat) (s : State) : Host.Outcome State Fault Refusal :=
  let x := s.pins.pin pin
  whenDue (x.clamped = true)
    (updPin pin { x with
        clamped := false, driven := isOutputPin pin && !isLed pin, since := s.day } s) s

/-- FP_LOCATE_N low for 50 ms toggles the locate LED; a faulty pin is ignored (R630, Table 19-6). -/
def execFpLocate (s : State) : Host.Outcome State Fault Refusal :=
  whenDue (s.pins.faulty 263 = false) { s with pins := { s.pins with locate := !s.pins.locate } } s

/-- A byte read of an SMBus register (R627). -/
def smbusRegister (reg : Nat) (s : State) : Byte :=
  if reg = 0 then BitVec.ofInt 8 s.pins.hottest
  else if reg = 1 then
    BitVec.ofNat 8 (flagBit (decide (100 ≤ s.pins.hottest)) + 2 * flagBit s.pins.tempVault +
      4 * flagBit (s.pwr.stage == .vault || s.pwr.stage == .sealed))
  else if reg = 2 then BitVec.ofNat 8 s.pins.sensor
  else 0

/-- SMBUS_READ: the target answers whenever PD02 is powered, from supplies valid onward (R627). -/
def execSmbusRead (reg : Nat) (s : State) : Host.Outcome State Fault Refusal :=
  whenDue (s.pwr.stage ≠ .off ∧ s.pwr.stage ≠ .aonOnly) (emit (.smbusByte (smbusRegister reg s)) s) s

/-! ### Test access (R625) -/

/-- The IDCODE of stepping A0 (R625). -/
def tapIdcode : Nat := 0x0B2D6A3B

/-- COLD_RST_N is held low; a shorted pin is ignored (Table 19-6). -/
def coldHeld (s : State) : Bool := !s.resetIgnored 261 && !(s.pins.pin 261).level

/-- The TAP takes an instruction that it answers at all times. -/
def tapTake (i : TapInstr) (v : Nat) (s : State) : State :=
  emit (.tapAnswer i v) { s with pins := { s.pins with tap := i } }

/-- The TAP takes an instruction that acts only while COLD_RST_N is held low, else as BYPASS. -/
def tapGated (i : TapInstr) (s : State) : State :=
  if coldHeld s then tapTake i 0 s else tapTake .bypass 0 s

/-- BYPASS (R625). -/
def execTapBypass (s : State) : Host.Outcome State Fault Refusal := .next (tapTake .bypass 0 s)

/-- IDCODE (R625). -/
def execTapIdcode (s : State) : Host.Outcome State Fault Refusal := .next (tapTake .idcode tapIdcode s)

/-- SAMPLE/PRELOAD: the ball levels sampled are a free value; the balls of I00 are not in the register (R625). -/
def execTapSamplePreload (s : State) : Host.Outcome State Fault Refusal :=
  .next (drawn 1 (tapTake .samplePreload s.free s))

/-- EXTEST (R625). -/
def execTapExtest (s : State) : Host.Outcome State Fault Refusal := .next (tapGated .extest s)

/-- EXTEST_PULSE (R625). -/
def execTapExtestPulse (s : State) : Host.Outcome State Fault Refusal := .next (tapGated .extestPulse s)

/-- EXTEST_TRAIN (R625). -/
def execTapExtestTrain (s : State) : Host.Outcome State Fault Refusal := .next (tapGated .extestTrain s)

/-- CLAMP (R625). -/
def execTapClamp (s : State) : Host.Outcome State Fault Refusal := .next (tapGated .clamp s)

/-- HIGHZ (R625). -/
def execTapHighz (s : State) : Host.Outcome State Fault Refusal := .next (tapGated .highz s)

/-- MGMT_PERST_N is asserted: only the management endpoint logic of PD02 is reset (R622). Its mailbox reply
areas empty; nothing else of the head changes. -/
def execMgmtPerst (s : State) : Host.Outcome State Fault Refusal :=
  .next { s with cpi := { s.cpi with cpiArea := none, pfmArea := none } }

end Sys2Proof.Machine
end

