-- ==== Sys2Proof/Machine/Superblock.lean ====
section
/-! DEFINITION. Reading the pool superblock of Table 10-10 back from its bytes (R380, R382). -/

namespace Sys2Proof.Machine

/-- A block address (R343) as a block. -/
def blkOfAddress (b : Bytes) (off : Nat) : Nat := blkKey (fieldAt b off 1) (fieldAt b (off + 2) 2) (fieldAt b (off + 4) 2)

/-- A head slot record (Table 10-11). -/
def headSlotOf (b : Bytes) : HeadSlot where
  chip := fieldAt b 0 2
  bound := fieldAt b 2 1 == 1
  digest := slice b 8 32
  when_ := fieldAt b 0x28 8

/-- A timetable copy record (Table 10-12). -/
def ttCopyOf (b : Bytes) : TtCopy where
  term := fieldAt b 0 4
  length := fieldAt b 4 4
  day := fieldAt b 8 8
  copies := if fieldAt b 0 4 = 0 then [] else (List.range 3).map (fun i => blkOfAddress b (0x10 + 8 * i))

/-- A vault region record (Table 10-13). What a half holds and whether it is erased is not in the record: as this head
knows it. -/
def vaultHalfOf (known : List VaultHalf) (b : Bytes) : VaultHalf :=
  let v : VaultHalf := ⟨fieldAt b 0 1, fieldAt b 1 1, fieldAt b 8 8, fieldAt b 0x10 8, fieldAt b 0x18 4, false, 0⟩
  match known.find? (fun w => w.head == v.head && w.half == v.half && w.first == v.first) with
  | some w => { v with erased := w.erased, image := w.image }
  | none => v

/-- The superblock of a copy; `old` is the one held before. -/
def poolOf (old : Option Pool) (b : Bytes) : Pool where
  id := slice b 0x10 16
  generation := fieldAt b 0x20 8
  written := fieldAt b 0x28 8
  origin := fieldAt b 0x30 8
  kind := fieldAt b 0x38 1
  stagingGib := fieldAt b 0x39 1
  q := fieldAt b 0x3A 1
  n := fieldAt b 0x3B 1
  deltaBits := fieldAt b 0x3C 1
  layout := fieldAt b 0x3D 1
  tailMib := fieldAt b 0x3E 2
  reserve := fieldAt b 0x40 2
  cacheGib := (old.map (·.cacheGib)).getD 0
  term := fieldAt b 0x44 4
  ckptDir := fieldAt b 0x48 8
  ckptEpoch := fieldAt b 0x50 8
  groupPage := fieldAt b 0x58 8
  groupCount := fieldAt b 0x60 4
  heads := [headSlotOf (slice b 0x80 64), headSlotOf (slice b 0xC0 64)]
  active := ttCopyOf (slice b 0x100 64)
  armed := ttCopyOf (slice b 0x140 64)
  halves := ((List.range 4).map (fun i => slice b (0x180 + 64 * i) 64)).filterMap (fun r =>
    if fieldAt r 0x18 4 = 0 then none else some (vaultHalfOf ((old.map (·.halves)).getD []) r))
  anchor := (old.map (·.anchor)).getD 0

/-- The state of a code of Table 9-10. -/
def memberOfCode (n : Nat) : MemberState :=
  if n = 1 then .inService else if n = 2 then .detention else if n = 3 then .missing else if n = 4 then .failed else .none

/-- The members of a copy (Table 10-14); counts of misses are each head's own. -/
def membersOf (known : List Member) (now : Nat) (b : Bytes) : List Member :=
  (List.range 64).filterMap (fun bay =>
    let r := slice b (0x280 + 32 * bay) 32
    if !bitAt 0 (fieldAt r 0 1) then none
    else
      let st := memberOfCode (fieldAt r 2 1)
      let old := known.find? (fun m => m.bay == bay && m.serial == slice r 8 16)
      let m : Member := ⟨bay, st, now, fieldAt r 1 1, fieldAt r 6 2, fieldAt r 4 2, fieldAt r 3 1, slice r 8 16,
        fieldAt r 0x18 8, 0, 0, false, false⟩
      match old with
      | some o => if o.state = st then some { m with
            since := o.since, misses := o.misses, onTime := o.onTime, detain := o.detain, rebuilt := o.rebuilt }
          else some { m with rebuilt := o.rebuilt }
      | none => some m)

/-- A copy becomes the superblock this head holds. -/
def takeSuperblock (b : Bytes) (s : State) : State :=
  { s with
    pool := some (poolOf s.pool b)
    ec := { s.ec with members := membersOf s.ec.members s.tt.now b } }

end Sys2Proof.Machine
end

