-- ==== Sys2Proof/Machine/Bays.lean ====
section
/-! DEFINITION. Module bays: presence, power-up, classing, write-off, attention, Degraded links, telemetry, fences,
read completions, and the packets of bays and members (R390 to R423, Table 15-7). -/

namespace Sys2Proof.Machine

/-! ### Read completions -/

/-- The ring of a module was read to its end: the module is classed by its newest copy (R382, R417). -/
def classModule (bay : Nat) (s : State) : State :=
  let y := s.bay.bayOf bay
  let known := s.pool.map (·.id)
  let told := fun (what : Nat) (c : ModuleClass) (id : Bytes) =>
    event 0x9001 (bayIsland bay) (argOf [(0, bay), (1, what)])
      (setBay bay { y with class_ := c, poolId := id, found := none } s)
  match y.found with
  | none => told 2 .unformed []
  | some (_, _, _, id) =>
    if known = some id ∧ (s.ec.member bay).isSome = true then
      let s1 := told 1 .member id
      if (s.ec.member bay).any (fun m => m.state == .missing) then memberTo bay .inService s1 else s1
    else told 3 .foreign id

/-- The next page of a module's ring is read, block by block; an erased page ends its block (R381, R410). -/
def ringNext (bay block page : Nat) (ended : Bool) (s : State) : State :=
  let pages := (((s.bay.bayOf bay).ident).map (·.pages)).getD 4096
  let (b, p) := if ended ∨ pages ≤ page + 1 then (block + 1, 0) else (block, page + 1)
  if 4 ≤ b then classModule bay s
  else queueOp (blkOp 1 (blkKey bay 0 b) p 15 0 .ring []) s

/-- A page of the ring: a copy whose check passes counts, unless it names this pool and its MAC fails, which is a security
event; the highest generation wins, then the later time, then head slot 0. During a start the newest copy of the pool Prefect
holds becomes the superblock (R382). -/
def ringPage (bay block page : Nat) (data : Bytes) (s : State) : State :=
  let y := s.bay.bayOf bay
  let id := slice data 0x10 16
  let pages := ((y.ident).map (·.pages)).getD 4096
  if !superblockOk data then s
  else if s.trust.rootKey.isSome && s.trust.rootPool == id && !superblockMacOk data (s.systemKey 0x11 0) then
    event 0xB003 (bayIsland bay) (argOf [(0, 1), (1, bay)]) s
  else
    let g := fieldAt data 0x20 8
    let w := fieldAt data 0x28 8
    let h := fieldAt data 0x0A 1
    let newer := match y.found with
      | none => true
      | some (g', w', h', _) => g' < g || (g' == g && (w' < w || (w' == w && h < h')))
    let s1 := if newer then setBay bay { y with found := some (g, (w, (h, id))), ring := block * pages + page + 1 } s else s
    if s.trust.rootKey.isSome ∧ id = s.trust.rootPool ∧ s.pwr.stage ≠ .service ∧
        s.pool.all (fun p => p.generation < g || (p.generation == g && p.written < w)) = true then takeSuperblock data s1
    else s1

/-- BLP_READ_COMPLETE: the quarters and the tag area of a read, or the status in their place (R402, R405, R406). -/
def execBlpReadComplete (d : BlpDone) (data tags : Bytes) (s : State) : Host.Outcome State Fault Refusal :=
  match s.bay.find d.bay d.tag with
  | none => .next s
  | some op =>
    if op.opcode ≠ 1 then .next s
    else
      let s1 := noteRead op d (takeDone op d s)
      let s2 := if d.status = 1 then noteUncorrectablePage op s1 else s1
      let (again, s3) := bridgeStatus op d.status s2
      if again then .next s3
      else
        match op.use with
        | .slot job source =>
          match s3.jobs.read job with
          | none => .next s3
          | some r => .next (if d.status = 0 then slotArrived r source data tags s3 else slotUnread r source d.status s3)
        | .metadata t k => .next (metaArrived t k (if d.status = 0 then s3.openMeta (s3.ftl.mpaOfPage t k) data tags else none) s3)
        | .sweep w b n => .next (sweepArrived w b n (d.status == 0 && (s3.openMeta ((getKey b s3.ddp.pages).getD 0) data tags).isSome) s3)
        | .sample => .next (sampled (blkKey op.bay op.die op.block) s3)
        | .parity g _ j _ =>
          .next { s3 with ec := { s3.ec with
            parityReads := s3.ec.parityReads ++ [(g, (4 * j + op.page % 4, fitBytes 16384 data ++ fitBytes 224 (slice tags 32 224)))] } }
        | .ring =>
          .next (ringNext op.bay op.block op.page (d.status == 2)
            (if d.status = 0 then ringPage op.bay op.block op.page data s3 else s3))
        | _ => .next s3

/-! ### Telemetry, status, diagnostics -/

/-- The identity page breaks no limit of Table 11-8, and is of version 1 (R408). -/
def identityOk (p : Bytes) : Bool :=
  fieldAt p 0 2 == 1 && 16 ≤ fieldAt p 2 2 && fieldAt p 2 2 ≤ 2048 && fieldAt p 2 2 % 16 == 0 &&
  1 ≤ fieldAt p 4 2 && fieldAt p 4 2 ≤ 8192 && 4 ≤ fieldAt p 6 2 && fieldAt p 6 2 ≤ 4096 && fieldAt p 6 2 % 4 == 0 &&
  1 ≤ fieldAt p 0x0A 1 && fieldAt p 0x0A 1 ≤ 16

/-- The identity of Table 11-8. -/
def identityOf (p : Bytes) : Identity where
  dies := fieldAt p 2 2
  blocks := fieldAt p 4 2
  pages := fieldAt p 6 2
  endurance := fieldAt p 0x0C 4
  limit := fieldAt p 0x10 2
  serial := slice p 0x20 16
  retention := (List.range 16).map (fun i => (fieldAt p (0x40 + 8 * i) 4, fieldAt p (0x44 + 8 * i) 4)) |>.filter (fun x => x != (0, 0))

/-- A module is not taken into the pool: its identity is refused (R408). -/
def identityRefused (bay : Nat) (s : State) : State :=
  event 0x9001 (bayIsland bay) (argOf [(0, bay), (1, 4)])
    (setBay bay { s.bay.bayOf bay with class_ := .unknown } s)

/-- A signed 16-bit field. -/
def signed16 (p : Bytes) (off : Nat) : Int :=
  let v := fieldAt p off 2
  if v < 32768 then v else (v : Int) - 65536

/-- The highest sensor of a telemetry page 1 [0.1 °C] (R409). -/
def hottestSensor (p : Bytes) : Int := ((List.range 8).map (fun i => signed16 p (2 * i))).foldl max (signed16 p 0)

/-- A sample of a module's environment: the bay's present values, the means of the accrual interval and the hour. -/
def noteEnvironment (bay : Nat) (page : Bytes) (s : State) : State :=
  let t := hottestSensor page
  let add := fun (l : List (Nat × (Int × Nat))) =>
    let old := (getKey bay l).getD (0, 0)
    putKey bay (old.1 + t, old.2 + 1) l
  let s1 := setBay bay { s.bay.bayOf bay with temp := t, power := fieldAt page 16 2 } s
  { s1 with
    ftl := { s1.ftl with temps := add s1.ftl.temps }
    tally := { s1.tally with hourTemp := add s1.tally.hourTemp } }

/-- A diagnostic operation answers its packet: 64 bytes of result, or a page as the payload (Table 15-12). -/
def answerDiag (b : Binding) (tag : Nat) (result payload : Bytes) (s : State) : State :=
  match s.cpi.packet b tag 0x0801 with
  | none => s
  | some p => answered p (fitBytes 64 result) payload s

/-- A completion of an operation of an opcode: what Table 11-6 asks for, then its effect. -/
def onDone (d : BlpDone) (opcode : Nat) (f : DieOp → State → State) (s : State) : Host.Outcome State Fault Refusal :=
  match s.bay.find d.bay d.tag with
  | none => .next s
  | some op =>
    if op.opcode ≠ opcode then .next s
    else
      let (again, s1) := bridgeStatus op d.status (takeDone op d s)
      .next (if again then s1 else f op s1)

/-- The diagnostic packet an operation belongs to is answered. -/
def endDiag (result payload : Bytes) (op : DieOp) (s : State) : State :=
  match op.use with
  | .diag b tag => answerDiag b tag result payload s
  | _ => s

/-- BLP_SUSPEND_COMPLETE: only a diagnostic packet suspends alone (R398). -/
def execBlpSuspendComplete (d : BlpDone) (s : State) : Host.Outcome State Fault Refusal := onDone d 4 (endDiag [] []) s

/-- BLP_RESUME_COMPLETE (R398). -/
def execBlpResumeComplete (d : BlpDone) (s : State) : Host.Outcome State Fault Refusal := onDone d 5 (endDiag [] []) s

/-- BLP_TELEMETRY_COMPLETE: page 0 gives the identity, and the superblock ring is read next; page 1 the environment
(R408, R409, R416). -/
def execBlpTelemetryComplete (d : BlpDone) (page : Bytes) (s : State) : Host.Outcome State Fault Refusal :=
  onDone d 8 (fun op s =>
    match op.use with
    | .diag b tag => answerDiag b tag [] page s
    | _ =>
      if d.status ≠ 0 then s
      else if op.selector = 0 then
        if identityOk page then
          queueOp (blkOp 1 (blkKey op.bay 0 0) 0 15 0 .ring [])
            (setBay op.bay { s.bay.bayOf op.bay with ident := some (identityOf page), found := none } s)
        else identityRefused op.bay s
      else if op.selector = 1 then noteEnvironment op.bay page s
      else s) s

/-- BLP_FENCE_COMPLETE: the forms carry the new epoch; FENCE_STALE is a fence report on each of them (R412, R413,
R478). -/
def execBlpFenceComplete (d : BlpDone) (s : State) : Host.Outcome State Fault Refusal :=
  onDone d 9 (fun op s =>
    match op.use with
    | .fence forms =>
      if d.status = 0 then
        { s with bay := { s.bay with fences := forms.foldl (fun l f => putKey f op.fence l) s.bay.fences } }
      else if d.status = 0x0A then forms.foldl (fun t f => haltForm f t) s
      else s
    | _ => s) s

/-- TELEMETRY_POLL: every 64 days page 1 of every module is read (R409). -/
def execTelemetryPoll (s : State) : Host.Outcome State Fault Refusal :=
  whenDue (s.bay.lastPoll + 64 ≤ s.day)
    ((s.bay.bays.filter (fun p => p.2.linkUp)).foldl (fun t p => queueOp (bayOp 8 p.1 1 0 [] 0 .telemetry) t)
      { s with bay := { s.bay with lastPoll := s.day } }) s

/-- DIAG_DIE_OP: a SUSPEND, RESUME, STATUS, CALIBRATE or TELEMETRY is posted at a Recess bell of the die's form, or under
R410 where the module has no form; the reply follows its completion (Table 15-12). -/
def execDiagDieOp (b : Binding) (tag : Nat) (s : State) : Host.Outcome State Fault Refusal :=
  onPacket b tag 0x0801 (fun p s =>
    let bay := p.param 0 1
    let die := p.param 2 2
    let cls := if (s.formAt bay die).isSome then 4 else 0
    queueOp { blkOp (p.param 1 1) (blkKey bay die (p.param 4 2)) (p.param 6 2) 0 cls (.diag b tag) [] with
      selector := if p.param 1 1 = 8 then p.param 6 2 % 256 else 0 } s) s

/-! ### Presence and links (R415 to R420) -/

/-- The pins of a bay: BAY_PRSNT_N, BAY_PWREN, BAY_PERST_N, BAY_ATTN_N (Table 19-5). -/
def prsntPin (bay : Nat) : Nat := 4 * bay
/-- BAY_PWREN. -/
def pwrenPin (bay : Nat) : Nat := 4 * bay + 1
/-- BAY_PERST_N. -/
def perstPin (bay : Nat) : Nat := 4 * bay + 2
/-- BAY_ATTN_N. -/
def attnPin (bay : Nat) : Nat := 4 * bay + 3

/-- A bay holds a module: by BAY_PRSNT_N, or by its link while that pin is at fault (R415). -/
def State.present (s : State) (bay : Nat) : Bool :=
  if s.pins.faulty (prsntPin bay) then (s.bay.bayOf bay).linkUp
  else (s.bay.bayOf bay).state != .taken && !(s.pins.pin (prsntPin bay)).level

/-- A bay enters a state now. -/
def bayTo (bay : Nat) (st : BayState) (s : State) : State :=
  setBay bay { s.bay.bayOf bay with state := st, since := s.tt.now } s

/-- BAY_PWREN asserted or at rest. -/
def drivePower (bay : Nat) (on : Bool) (s : State) : State :=
  drivePin (pwrenPin bay) on (setBay bay { s.bay.bayOf bay with pwren := on } s)

/-- BAY_PERST_N driven low or released; with the pin shorted high the bridge port is reset by PCIe hot reset (Table 19-6). -/
def driveReset (bay : Nat) (held : Bool) (s : State) : State :=
  let s1 := drivePin (perstPin bay) (!held) (setBay bay { s.bay.bayOf bay with perst := held } s)
  if held ∧ (s.pins.pin (perstPin bay)).fault = .shortHigh then emit (.hotReset bay) s1 else s1

/-- A module is powered up: BAY_PWREN, its reset still held (R416). -/
def powerUp (bay : Nat) (s : State) : State :=
  bayTo bay .powering (driveReset bay true (drivePower bay true
    (setBay bay { s.bay.bayOf bay with retried := false, class_ := .unknown, found := none } s)))

/-- BAY_PRESENCE_DETECT: BAY_PRSNT_N has been low for 100 ms; a faulty pin, or that of a bay whose lanes a wider module
uses, is ignored (R390, R415, R416). -/
def execBayPresenceDetect (bay : Nat) (s : State) : Host.Outcome State Fault Refusal :=
  whenDue (bay < 64 ∧ s.pins.faulty (prsntPin bay) = false ∧ (s.bay.bayOf bay).state = .absent)
    (powerUp bay (setLevel (prsntPin bay) false s)) s

/-- BAY_PERST_RELEASE: 100 ms after power, and 100 ms into a reset pulse, the reset is released and training begins
(R416). -/
def execBayPerstRelease (bay : Nat) (s : State) : Host.Outcome State Fault Refusal :=
  whenDue ((s.bay.bayOf bay).state = .powering ∧ (s.bay.bayOf bay).since + msBells 100 ≤ s.tt.now)
    (bayTo bay .training (driveReset bay false s)) s

/-- A link carries operations at a width and rate: Degraded below what it had when the term in force was loaded (R422). -/
def linkAt (bay width rate : Nat) (s : State) : State :=
  let y := s.bay.bayOf bay
  let below := y.widthLoaded != 0 && (width < y.widthLoaded || rate < y.rateLoaded)
  let s1 := setBay bay { y with
    state := if below then .degraded else .up, width := width, rate := rate, since := s.tt.now } s
  if below ∧ y.state ≠ .degraded then event 0x9005 (bayIsland bay) (argOf [(0, bay), (1, width), (2, rate), (3, 1)]) s1
  else if !below ∧ y.state = .degraded then event 0x9005 (bayIsland bay) (argOf [(0, bay), (1, width), (2, rate), (3, 2)]) s1
  else s1

/-- The forms on a bay lose their epochs, and this head fences those it owns before anything else (R413). -/
def fenceBay (bay : Nat) (s : State) : State :=
  let here := fun (f : Nat) => (s.tt.active.map (fun i => (i.form f).bay)) == some bay
  fenceOwned { s with bay := { s.bay with fences := s.bay.fences.filter (fun p => !here p.1) } }

/-- BAY_LINK_UP: L0: the version is read, the mirror address written, the identity page asked for; the forms this head owns
are fenced first (R413, R416). The mirror's address is the head's own choice. -/
def execBayLinkUp (bay width rate version : Nat) (s : State) : Host.Outcome State Fault Refusal :=
  whenDue ((s.bay.bayOf bay).state = .training)
    (let s1 := drawn 1 (emitAll [.bridge bay 0 none, .bridge bay 0x200 (some s.free)] (linkAt bay width rate s))
     if version ≠ 1 then identityRefused bay s1
     else queueOp (bayOp 8 bay 0 0 [] 0 .telemetry) (fenceBay bay s1)) s

/-- BAY_LINK_TRAIN_TIMEOUT: no L0 within 1 s: one retry after a reset pulse of 100 ms, then the bay is left powered but
unused (R416). -/
def execBayLinkTrainTimeout (bay : Nat) (s : State) : Host.Outcome State Fault Refusal :=
  let y := s.bay.bayOf bay
  whenDue (y.state = .training ∧ y.since + secBells 1 ≤ s.tt.now)
    (if y.retried then event 0x9001 (bayIsland bay) (argOf [(0, bay), (1, 5)]) (bayTo bay .unused s)
     else bayTo bay .powering (driveReset bay true (setBay bay { y with retried := true } s))) s

/-- What becomes of an operation whose bay is gone: a read is served by reconstruction, a programme counts as failed, an
erase leaves its block Pending-Erase and is made again; a diagnostic operation waits for the module (R419). -/
def writeOff (op : DieOp) (s : State) : State :=
  if op.opcode = 1 then
    match op.use with
    | .slot job source =>
      match s.jobs.read job with
      | none => s
      | some r => slotUnread r source 1 s
    | .metadata t k => metaArrived t k none s
    | .sweep w b n => sweepArrived w b n false s
    | _ => s
  else if op.opcode = 2 then
    match op.use with
    | .superblock => s
    | .ttCopy => s
    | _ => programEnded op false s
  else if op.opcode = 3 then
    match op.use with
    | .erase => { s with ftl := { s.ftl with erasable := s.ftl.erasable ++ [(blkKey op.bay op.die op.block, s.tt.now)] } }
    | _ => s
  else
    match op.use with
    | .diag .. => queueOp { op with posted := none } s
    | _ => s

/-- The outstanding operations of a bay are written off, those that wait for it with them (R419). -/
def writeOffBay (bay : Nat) (s : State) : State :=
  let gone := s.bay.outstanding.filter (fun o => o.bay == bay) ++ s.bay.waiting.filter (fun o => o.bay == bay)
  let keep := fun (l : List DieOp) => l.filter (fun o => o.bay != bay)
  gone.foldl (fun t o => writeOff o t)
    { s with bay := { s.bay with outstanding := keep s.bay.outstanding, waiting := keep s.bay.waiting } }

/-- A bay lost its module or its link: a member In service is Missing at once, and its operations are written off
(R419). -/
def bayLost (bay : Nat) (s : State) : State :=
  let y := s.bay.bayOf bay
  let s1 := setBay bay { y with state := .down, width := 0, rate := 0, since := s.tt.now } s
  writeOffBay bay (if s.ec.serving bay then memberTo bay .missing s1 else s1)

/-- BAY_PRESENCE_LOST: presence lost for 1 ms, or the link down (R419). -/
def execBayPresenceLost (bay : Nat) (unplugged : Bool) (s : State) : Host.Outcome State Fault Refusal :=
  let st := (s.bay.bayOf bay).state
  let s1 := if unplugged then setLevel (prsntPin bay) true s else s
  whenDue (bay < 64 ∧ st ≠ .absent ∧ st ≠ .taken ∧ (unplugged = true → s.pins.faulty (prsntPin bay) = false))
    (if st = .down then s1 else bayLost bay s1) s

/-- BAY_POWER_OFF_TIMEOUT: presence lost for 100 ms: both outputs return to rest (R419). -/
def execBayPowerOffTimeout (bay : Nat) (s : State) : Host.Outcome State Fault Refusal :=
  whenDue ((s.bay.bayOf bay).state = .down ∧ s.present bay = false ∧ (s.bay.bayOf bay).since + msBells 100 ≤ s.tt.now)
    (drivePower bay false (driveReset bay true (setBay bay { s.bay.bayOf bay with
      state := .absent, ident := none, class_ := .unknown, poolId := [], witness := 0, cqHead := 0, ring := 0 } s))) s

/-- BAY_RETRAIN_TIMER: while the module is present and its link down, the link is retrained every 1 s (R419). -/
def execBayRetrainTimer (bay : Nat) (s : State) : Host.Outcome State Fault Refusal :=
  let y := s.bay.bayOf bay
  whenDue (y.state = .down ∧ s.present bay = true ∧ y.since + secBells 1 ≤ s.tt.now)
    (setBay bay { y with retrains := min (y.retrains + 1) 65535, since := s.tt.now } s) s

/-- BAY_LINK_RETURN: the completion ring is read from BRG_CQ_HEAD to its end and what it holds of written-off descriptors
discarded; the head fences its forms before it posts anything, and the ring of superblock copies says whose module it
is (R355, R420). -/
def execBayLinkReturn (bay width rate : Nat) (s : State) : Host.Outcome State Fault Refusal :=
  whenDue ((s.bay.bayOf bay).state = .down)
    (queueOp (bayOp 8 bay 0 0 [] 0 .telemetry)
      (fenceBay bay (emitAll [.bridge bay (0x200000 + 32 * ((s.bay.bayOf bay).cqHead % 8192)) none,
        .bridge bay 0x208 (some ((s.bay.bayOf bay).cqHead % 2 ^ 32))] (linkAt bay width rate s)))) s

/-- A module is powered down: both outputs at rest, its operations written off (R421). -/
def powerDown (bay : Nat) (s : State) : State :=
  let s1 := writeOffBay bay (setBay bay { s.bay.bayOf bay with state := .absent, width := 0, rate := 0, since := s.tt.now } s)
  drivePower bay false (driveReset bay true s1)

/-- BAY_ATTENTION: BAY_ATTN_N low for 20 ms: the cause is read and cleared, and acted on: fatal makes the member Failed, a
removal request powers a module down that is not a member (R421). While the pin is open the cause is read every 64 days in its place
(Table 19-6); a reading that finds no cause raises no event. -/
def execBayAttention (bay cause : Nat) (s : State) : Host.Outcome State Fault Refusal :=
  whenDue ((s.bay.bayOf bay).linkUp = true ∧
      (s.pins.isOpen (attnPin bay) = true → (s.bay.bayOf bay).attnDay + 64 ≤ s.day))
    (let s0 := setBay bay { s.bay.bayOf bay with attnDay := s.day }
       (emitAll [.bridge bay 0x108 none, .bridge bay 0x108 (some cause)] s)
     let s1 := if s.pins.isOpen (attnPin bay) = true ∧ cause % 256 = 0 then s0
       else event 0x9003 (bayIsland bay) (argOf [(0, bay), (1, cause % 256)]) s0
     let s2 := if bitAt 1 cause then bridgeFailed bay s1 else s1
     if bitAt 0 cause ∧ (s2.ec.member bay).isNone = true then powerDown bay s2 else s2) s

/-- BAY_LINK_DEGRADED: the link runs at another width or rate; below its loaded values the bay is Degraded and its shares
scale with it (R422). -/
def execBayLinkDegraded (bay width rate : Nat) (s : State) : Host.Outcome State Fault Refusal :=
  whenDue ((s.bay.bayOf bay).linkUp = true)
    (let s1 := linkAt bay width rate s
     let y := s1.bay.bayOf bay
     setBay bay { y with retrains := min (y.retrains + 1) 65535, lastFull := s.day } s1) s

/-- BAY_FULL_RETRAIN: every 1,024 days a Degraded bay, or the Corridor, is fully retrained in Recess; for the Corridor
`width` is its lanes (R422, R470). -/
def execBayFullRetrain (bay : Option Nat) (width rate : Nat) (s : State) : Host.Outcome State Fault Refusal :=
  match bay with
  | none =>
    whenDue (s.corr.link = 3 ∧ s.corr.lastFull + 1024 ≤ s.day ∧ 8 ≤ width ∧ width ≤ 32 ∧ width % 8 = 0)
      { s with corr := { s.corr with
        lanes := width, link := if width = 32 then 2 else 3, lastFull := s.day, retrains := min (s.corr.retrains + 1) 65535 } } s
  | some b =>
    let y := s.bay.bayOf b
    let recess := match s.tt.active with
      | none => true
      | some i => s.ownForms.all (fun f => (i.form f).bay != b || s.formClass f == 4)
    whenDue (y.state = .degraded ∧ y.lastFull + 1024 ≤ s.day ∧ recess = true)
      (let s1 := linkAt b width rate s
       let z := s1.bay.bayOf b
       setBay b { z with retrains := min (z.retrains + 1) 65535, lastFull := s.day } s1) s

/-! ### Packets of bays and members -/

/-- The bays of a quad whose lanes a wider module uses under a width code (BAY_WIDTH). -/
def takenBays (quad code : Nat) : List Nat :=
  (if code = 1 then [1, 3] else if code = 2 then [1] else if code = 3 then [3] else if code = 4 then [1, 2, 3] else []).map
    (· + 4 * quad)

/-- BAY_WIDTH_SET: the width of an empty quad; a module present holds the resource (R391, R547). -/
def execBayWidthSet (b : Binding) (tag : Nat) (s : State) : Host.Outcome State Fault Refusal :=
  onPacket b tag 0x0204 (fun p s =>
    let quad := p.param 0 1
    let code := p.param 1 1
    match ((List.range 4).map (· + 4 * quad)).find? s.present with
    | some bay => refuse p .resourceClaimed (detailOf [(4, 0x06000000 + quad), (2, 0), (1, 0), (1, 0), (4, bay), (4, 0)]) s
    | none =>
      let s1 := ((List.range 4).map (· + 4 * quad)).foldl (fun t n =>
        setBay n { t.bay.bayOf n with state := if (takenBays quad code).contains n then .taken else .absent } t) s
      changed p [] { s1 with bay := { s1.bay with quads := setAt quad code s1.bay.quads } }) s

/-- BAY_POWER: 1 off, 2 on; not for a member In service or in Detention (R421). -/
def execBayPower (b : Binding) (tag : Nat) (s : State) : Host.Outcome State Fault Refusal :=
  onPacket b tag 0x0205 (fun p s =>
    let bay := p.param 0 1
    match (s.ec.member bay).filter (fun m => m.state == .inService || m.state == .detention) with
    | some m => refuse p .memberState (detailOf [(1, bay), (1, memberCode m.state)]) s
    | none => changed p [] (if p.param 1 1 = 1 then powerDown bay s else powerUp bay s)) s

/-- A sealed snapshot of the pool whose time has not come: its T (R437, R438). -/
def State.sealedUntil (s : State) : Option Nat :=
  (s.trust.seals.map (·.until_)).find? (fun t => s.clockUs < t)

/-- SNAPSHOT_SEALED with T and the lower of the two clocks (R437). -/
def refuseSealed (p : Packet) (t clock : Nat) (s : State) : State := refuse p .snapshotSealed (detailOf [(8, t), (8, clock)]) s

/-- MEMBER_FAIL: the operator orders a member Failed; a bay without a member in Detention, Missing or In service fails with
MEMBER_STATE, and a removal beyond the redundancy fails while a sealed snapshot stands (Table 15-7, R357, R438). -/
def execMemberFail (b : Binding) (tag : Nat) (peer : PeerAnswer) (s : State) : Host.Outcome State Fault Refusal :=
  onPacket b tag 0x0203 (fun p s =>
    let bay := p.param 0 1
    match s.ec.member bay with
    | none => refuse p .memberState (detailOf [(1, bay), (1, 0xFF)]) s
    | some m =>
      if m.state = .failed ∨ m.state = .none then refuse p .memberState (detailOf [(1, bay), (1, memberCode m.state)]) s
      else
        match (if s.ec.mayFail bay then none else s.sealedUntil) with
        | some t => refuseSealed p t s.clockUs s
        | none => pairWide p peer (fun s => changed p [] (memberTo bay .failed s)) s) s

/-- The members a packet names: bay, domain, weight, ascending by bay (Table 15-7). -/
def newMembers (p : Packet) (bitmap : Nat) : List (Nat × (Nat × Nat)) :=
  let bays := bitsOf 64 (p.param bitmap 8)
  (List.range bays.length).map (fun i => (bays.getD i 0, (p.param (bitmap + 8 + 4 * i) 1, p.param (bitmap + 10 + 4 * i) 2)))

/-- A bay that does not hold an Unformed module. -/
def State.notUnformed (s : State) (l : List (Nat × (Nat × Nat))) : Option Nat :=
  (l.map (·.1)).find? (fun b => (s.bay.bayOf b).class_ != .unformed || !(s.bay.bayOf b).linkUp)

/-- Modules become members, In service (Table 9-10); each is a MEMBER_STATE event. -/
def addMembers (l : List (Nat × (Nat × Nat))) (s : State) : State :=
  l.foldl (fun t x =>
    let y := t.bay.bayOf x.1
    let dieType := (t.tt.active.bind (fun i => (i.forms.find? (fun f => f.bay == x.1)).map (·.die))).getD 0
    let m : Member := ⟨x.1, .inService, t.tt.now, x.2.1, x.2.2, (y.ident.map (·.dies)).getD 0, dieType,
      (y.ident.map (·.serial)).getD [], t.epoch, 0, 0, false, false⟩
    let t1 := setBay x.1 { y with class_ := .member, poolId := (t.pool.map (·.id)).getD [], ring := 0 } t
    event 0x8001 (bayIsland x.1) (argOf [(0, x.1), (1, 0), (2, 1)])
      { t1 with ec := { t1.ec with members := (sortBy (fun a b => a.bay ≤ b.bay) (t1.ec.members.filter (fun z => z.bay != x.1) ++ [m])) } }) s

/-- POOL_EXTEND: Unformed modules join; they serve from the first term whose forms name them (R417, Table 15-7). -/
def execPoolExtend (b : Binding) (tag : Nat) (peer : PeerAnswer) (s : State) : Host.Outcome State Fault Refusal :=
  onPacket b tag 0x0202 (fun p s =>
    let l := newMembers p 0
    if s.pool.isNone then refuse p .poolState noDetail s
    else
      match l.find? (fun x => 63 < x.2.1) with
      | some _ => badParam p 8 s
      | none =>
        match s.notUnformed l with
        | some bay => refuse p .memberState (detailOf [(1, bay), (1, ((s.ec.member bay).map (fun m => memberCode m.state)).getD 0xFF)]) s
        | none => pairWide p peer (fun s => changed p [] (configWrite (addMembers l s))) s) s

/-- MODULE_UNFORM: the superblock ring of a module of another pool, or of a Failed member nothing names any longer, is
erased (R418). -/
def execModuleUnform (b : Binding) (tag : Nat) (s : State) : Host.Outcome State Fault Refusal :=
  onPacket b tag 0x020A (fun p s =>
    let bay := p.param 0 1
    let y := s.bay.bayOf bay
    let wipe := fun (t : State) => event 0x9001 (bayIsland bay) (argOf [(0, bay), (1, 2)])
      ((List.range 4).foldl (fun u n => queueOp (blkOp 3 (blkKey bay 0 n) 0 0 0 .ring []) u)
        (setBay bay { t.bay.bayOf bay with class_ := .unformed, poolId := [], ring := 0 } t))
    let named := s.groupBlocksOn bay != [] || s.triadCopiesOn bay != [] || s.ec.standbys.any (fun x =>
      (s.tt.active.map (fun i => (i.form x.2.2).bay)) == some bay)
    if y.poolId = [] ∨ y.poolId ≠ slice p.params 8 16 then badParam p 8 s
    else
      match (if y.class_ = .foreign then none else s.ec.member bay) with
      | none => changed p [] (wipe s)
      | some m =>
        if m.state ≠ .failed ∨ named then refuse p .memberState (detailOf [(1, bay), (1, memberCode m.state)]) s
        else changed p [] (wipe (configWrite { s with ec := { s.ec with members := s.ec.members.filter (fun z => z.bay != bay) } }))) s

end Sys2Proof.Machine
end

