-- ==== Sys2Proof/Machine/Channel.lean ====
section
/-! DEFINITION. The channel of a replication session: segments, records, the writes a synchronous relation waits for
(R257 to R259, R447 to R450, R457). -/

namespace Sys2Proof.Machine

/-! ### Segments -/

/-- The nonce of segment i: the first nonce with i added to its counter field (R258). -/
def segmentNonce (first : Bytes) (i : Nat) : Bytes :=
  first.take 2 ++ beBytes 10 (beNat (slice first 2 10) + i)

/-- A segment: frame, ciphertext, tag (Table 7-8, R259). -/
def sealSegment (key header prev nonce : Bytes) (index : Nat) (final : Bool) (text : Bytes) : Bytes × Bytes :=
  let frame := fields [(4, index), (4, flagBit final), (8, text.length)]
  let (ct, tag) := gcmSeal key (segmentNonce nonce index) (header ++ frame ++ prev) text
  (frame ++ ct ++ tag, tag)

/-- A stream header of segmented mode (Table 7-7). -/
def streamHeader (purpose domain gen : Nat) (nonce context : Bytes) : Bytes :=
  ascii "BRCSAEAD" ++ fields [(1, 1), (1, 0), (1, purpose), (1, 0), (2, domain), (2, gen)] ++ fitBytes 12 nonce ++ zeros 4 ++
    fitBytes 16 context ++ zeros 16

/-! ### Sessions -/

/-- The session of a register. -/
def Repl.session (r : Repl) (reg : Nat) : Option Session := r.sessions.find? (fun x => x.reg == reg)

/-- A session takes the place of the one of its register. -/
def setSession (x : Session) (s : State) : State :=
  { s with repl := { s.repl with sessions := s.repl.sessions.map (fun y => if y.reg == x.reg then x else y) } }

/-- The session key (R447). -/
def Session.key (x : Session) : Bytes := keyOf x.secret (keyLabel 0x14 x.number 0 (leNat (x.hash.take 8)) x.pool)

/-- The stream header of the outgoing message (R449). -/
def Session.header (x : Session) : Bytes :=
  streamHeader 0x14 x.number 0 x.nonce (fields [(2, x.number), (2, 0), (4, x.message), (8, 0)])

/-- A message starts with its header and a nonce range of 2^32 (R258); where the nonce counter waits for its ceiling, it does
not start. A message under way goes on. -/
def startMessage (reg : Nat) (x : Session) (s : State) : State × Option Session :=
  if x.segment ≠ 0 then (s, some x)
  else
    let r := takeNonce (sessionHandle reg) 0 0 (2 ^ 32) s
    (r.1, r.2.map (fun n => { x with nonce := n, prevTag := zeros 16 }))

/-- A segment of the outgoing message goes out; a message ends with its 2^32nd segment (R258, R449). -/
def sendSegment (reg n : Nat) (final : Bool) (s : State) : State :=
  match s.repl.session reg with
  | none => s
  | some x =>
    match startMessage reg x s with
    | (s1, none) => s1
    | (s1, some y) =>
      let last := final || y.segment == 2 ^ 32 - 1
      let text := y.text.take n
      let (b, tag) := sealSegment y.key y.header y.prevTag y.nonce y.segment last text
      let bytes := (if y.segment = 0 then y.header else []) ++ b
      let rest := y.text.drop n
      emit (.segment reg bytes) (setSession { y with
        text := rest
        textAt := if rest = [] then none else some s.tt.now
        sent := y.sent + bytes.length
        segment := if last then 0 else y.segment + 1
        message := if last then y.message + 1 else y.message
        prevTag := tag } s1)

/-- Full segments go out. -/
def sendFull (reg : Nat) : Nat → State → State
  | 0, s => s
  | n + 1, s =>
    match s.repl.session reg with
    | none => s
    | some x => if x.text.length < 65536 then s else sendFull reg n (sendSegment reg 65536 false s)

/-- A record joins the text of a session's outgoing message (R450). -/
def sendRecord (reg kind transfer : Nat) (body : Bytes) (s : State) : State :=
  match s.repl.session reg with
  | none => s
  | some x =>
    let text := x.text ++ fields [(1, kind), (1, 0), (2, 0), (4, body.length), (4, transfer), (4, 0)] ++ body
    sendFull reg (text.length / 65536)
      (setSession { x with text := text, textAt := x.textAt.or (some s.tt.now) } s)

/-! ### Writes of a synchronous relation (R457) -/

/-- Relations that send a volume's writes now. -/
def Repl.syncing (r : Repl) (root epoch : Nat) : List SyncRel :=
  r.syncs.filter (fun y => y.source && !y.fractured && y.fromEpoch ≤ epoch && y.roots.any (fun p => p.1 == root))

/-- A write waits for its SYNC_ACK. -/
def State.syncWaits (s : State) (nsid seq : Nat) : Bool :=
  s.repl.syncs.any (fun y => y.source && y.waiting.any (fun w => w.seq == seq && !w.acked &&
    (s.ftl.ofNsid nsid).any (fun r => r.id == w.root)))

/-- The bytes of a block of a write in staging, its protection information after it. -/
def State.stagedBlock (s : State) (nsid seq lba : Nat) : Bytes × Bytes :=
  match s.stg.versions.find? (fun v => v.vol == nsid && v.grain == lba / 4 && v.quarter == lba % 4 && v.seq == seq) with
  | none => (zeros 4096, zeros 64)
  | some v => if v.zeros ∨ v.dealloc then (zeros 4096, zeros 64) else (fitBytes 4096 v.data, fitBytes 64 v.pi)

/-- SYNC_WRITE of a range of a write whose data is in staging, once for each relation of its volume; the peer's COMMIT,
where the write came from the peer, is answered with the acknowledgement. -/
def sendSyncWrite (nsid seq : Nat) (ranges : List (Nat × Nat)) (commit : Option (Nat × CommitMark)) (s : State) : State :=
  match s.ftl.ofNsid nsid with
  | none => s
  | some r =>
    (s.repl.syncing r.id s.epoch).foldl (fun t y =>
      if y.waiting.any (fun w => w.root == r.id && w.seq == seq && w.commit == commit) then t
      else
        let runs := ranges.flatMap (fun p => (List.range (ceilDiv p.2 4096)).map (fun i => (p.1 + 4096 * i, min 4096 (p.2 - 4096 * i))))
        let t1 := runs.foldl (fun u p =>
          let bs := (List.range p.2).map (fun i => s.stagedBlock nsid seq (p.1 + i))
          sendRecord y.session 7 0 (fields [(4, r.id), (2, p.2), (2, 0), (8, seq), (8, p.1)] ++ bs.flatMap (·.1) ++
            (if r.format = 0 then [] else bs.flatMap (·.2))) u) t
        { t1 with repl := { t1.repl with syncs := t1.repl.syncs.map (fun z =>
            if z.session == y.session && z.source && z.roots == y.roots
            then { z with waiting := z.waiting ++ [⟨r.id, seq, s.tt.now, false, commit⟩] } else z) } }) s

/-- A write is Staged: no relation waits for it any more. -/
def syncDone (nsid seq : Nat) (s : State) : State :=
  { s with repl := { s.repl with syncs := s.repl.syncs.map (fun y =>
      if y.source then { y with waiting := y.waiting.filter (fun w => !(w.seq == seq && w.commit.isNone &&
        (s.ftl.ofNsid nsid).any (fun r => r.id == w.root))) } else y) } }

end Sys2Proof.Machine
end

