-- ==== Sys2Proof/Machine/HostWrites.lean ====
section
/-! DEFINITION. Host writes: staging, mirroring, commit and acknowledgement; Write Zeroes, Deallocate, Flush; failure
and withdrawal (R101, R102, R110 to R117, R139 to R144, R155, R639). -/

namespace Sys2Proof.Machine

/-! ### Pieces of a range -/

/-- A run of blocks of a write: first LBA, blocks, MIRROR_DATA flags (Table 4-5). -/
abbrev Piece := Nat × (Nat × Nat)

/-- A run cut into runs of at most 32 blocks (Table 4-5). -/
def chunks (p : Piece) : List Piece :=
  (List.range (ceilDiv p.2.1 32)).map (fun i => (p.1 + 32 * i, (min 32 (p.2.1 - 32 * i), p.2.2)))

/-- A range of zeros or deallocation: the covered blocks of partly covered grains as zeros, and the whole grains without
buffers (R114, R136). -/
def zeroPieces (lba n : Nat) (dealloc : Bool) : List Piece :=
  let whole := if dealloc then 2 + 8 else 1 + 8
  let a := roundUp lba 4
  let b := (lba + n) / 4 * 4
  if b ≤ a then (if n = 0 then [] else [(lba, (n, 1))])
  else ([(lba, (a - lba, 1)), (a, (b - a, whole)), (b, (lba + n - b, 1))] : List Piece).filter (fun p => p.2.1 != 0)

/-- Blocks that take a buffer. -/
def bufferedBlocks (l : List Piece) : Nat := sumNat (l.map (fun p => if bitAt 3 p.2.2 then 0 else p.2.1))

/-- Blocks of a fetched write that take a buffer: what its admission counts (R130). -/
def stagedBlocks (c : Capsule) : Nat :=
  if c.opcode = 0x01 then c.nlb
  else if c.opcode = 0x08 then bufferedBlocks (zeroPieces c.slba c.nlb false)
  else if c.opcode = 0x09 then sumNat (c.ranges.map (fun r => bufferedBlocks (zeroPieces r.1 r.2 true)))
  else 0

/-- The ranges a write's marks cover. -/
def writeRanges (c : Capsule) : List (Nat × Nat) := if c.opcode = 0x09 then c.ranges else [(c.slba, c.nlb)]

/-- The marks of a write: by range (R112 to R114, R139). -/
def State.marksOf (s : State) (x : Ctx) : List CommitMark :=
  (writeRanges x.cap).flatMap (fun r => if r.2 = 0 then [] else writeMarks x.cap.nsid x.seq s.sys.slot r.1 r.2)

/-! ### Progress -/

/-- The blocks of a write that reach its relations (R457). -/
def syncWrite (x : Ctx) (s : State) : State :=
  if x.cntlid = 65537 then s else sendSyncWrite x.cap.nsid x.seq (writeRanges x.cap) none s

/-- A write is Staged: it completes, or, in write-through, once its grains are durable (R155); what waited for it goes
on (R106). -/
def writeStaged (x : Ctx) (s : State) : State :=
  let y := { x with state := .staged }
  let s1 := if s.through then ackThrough (setCtx { y with through := y.ranges.flatMap (fun r =>
      ({ y with cap := { y.cap with slba := r.1, nlb := r.2 } } : Ctx).grains) } s)
    else ackWrite y s
  wakeReads s1

/-- A write that both its local commit and its relations have done with is Staged: its marks are Held (R457). -/
def stageWrite (x : Ctx) (s : State) : State :=
  let ms := (s.marksOf x).filter (fun m => !s.stg.marks.contains m)
  let keep := fun (m : CommitMark) => s.stg.versions.any (fun v => m.covers v && !v.staged)
  writeStaged x (syncDone x.cap.nsid x.seq ((ms.filter keep).foldl (fun t m => holdMark m t) s))

/-- A write whose blocks are all placed and mirrored is committed: COMMIT to the peer for each mark, or, alone, the
marks Held at once (R140, R141). -/
def commitWrite (x : Ctx) (s : State) : State :=
  let ms := s.marksOf x
  if ms = [] then writeStaged { x with committed := true } s
  else if ¬ s.mirrors ∧ s.syncWaits x.cap.nsid x.seq then setCtx { x with committed := true } s
  else if s.mirrors then
    let first := s.corr.nextNumber
    let s1 := ms.foldl (fun t m => send (.commit m) t) s
    setCtx { x with committed := true, commits := (List.range ms.length).map (first + ·) } s1
  else stageWrite { x with committed := true } (ms.foldl (fun t m => sendPeer (.commit m) (holdMark m t)) s)

/-- A write met by a reset in Data-In, above 512 blocks, whose grains that both heads hold are committed: its other blocks go at
the peer, which keeps those of Held marks (R113, R639; DESIGN CHOICE: a mark is of its grain). -/
def dropRest (x : Ctx) (s : State) : State := if x.cntlid = 65538 ∧ x.sent then sendPeer (.withdraw x.cap.nsid x.seq) s else s

/-- A write goes on as far as its blocks and its mirror acknowledgements allow. -/
def writeProgress (x : Ctx) (s : State) : State :=
  if x.committed ∨ x.state ≠ .dataIn ∨ (x.cap.opcode = 0x01 ∧ x.blocks.length < x.cap.nlb) then setCtx x s
  else
    let s1 := syncWrite x (setCtx x s)
    if x.mirrors ≠ [] then s1 else commitWrite x s1

/-- A run of blocks of a write is placed in this head's staging and mirrored (R140 steps 1 and 2); the blocks are no
longer merely admitted (R130). -/
def placePiece (x : Ctx) (p : Piece) (data pi : Bytes) (s : State) : Ctx × State :=
  let s1 := (writeVersions x.cap.nsid x.seq s.sys.slot p.1 p.2.1 p.2.2 data pi).foldl (fun t v => addVersion v t) s
  let s2 := { s1 with stg := { s1.stg with admitted := s1.stg.admitted - (if bitAt 3 p.2.2 then 0 else p.2.1) } }
  if s2.mirrors then
    let n := s2.corr.nextNumber
    ({ x with mirrors := x.mirrors ++ [n], sent := true },
      tallyAdd 0x05 1 1 (send (.mirrorData x.cap.nsid p.2.1 p.2.2 x.seq p.1 data pi) s2))
  else (x, sendPeer (.mirrorData x.cap.nsid p.2.1 p.2.2 x.seq p.1 data pi) s2)

/-- Zeros or deallocation by pieces. -/
def placeZeros (x : Ctx) (l : List Piece) (s : State) : Ctx × State :=
  (l.flatMap chunks).foldl (fun (acc : Ctx × State) p => placePiece acc.1 p [] [] acc.2) (x, s)

/-- Data of a write from a block on: whole blocks, in runs of at most 32. -/
def placeData (x : Ctx) (first : Nat) (data pi : Bytes) (s : State) : Ctx × State :=
  let n := data.length / 4096
  let flags := if s.hasMeta x.cap.nsid then 4 else 0
  let y := { x with blocks := x.blocks ++ (List.range n).map (fun i => (first + i, [])) }
  (chunks (x.cap.slba + first, (n, flags))).foldl (fun (acc : Ctx × State) p =>
    let at_ := p.1 - x.cap.slba - first
    placePiece acc.1 p (slice data (4096 * at_) (4096 * p.2.1)) (if flags = 4 then slice pi (64 * at_) (64 * p.2.1) else []) acc.2) (y, s)

/-! ### Failure -/

/-- Blocks a write was admitted with and has not placed are no longer admitted. -/
def unadmit (x : Ctx) (s : State) : State :=
  { s with stg := { s.stg with admitted := s.stg.admitted - (stagedBlocks x.cap - x.blocks.length) } }

/-- The blocks of a write that will not take effect go, at the peer by WITHDRAW where any was mirrored (R639). DESIGN CHOICE: a
peer that orders the write learns of its failure by the same message where none was, since reads there wait for it (R106). -/
def withdrawWrite (x : Ctx) (s : State) : State :=
  let s1 := if x.sent ∨ ¬ s.ownsNsid x.cap.nsid then sendPeer (.withdraw x.cap.nsid x.seq) s else s
  unadmit x (syncDone x.cap.nsid x.seq (dropWrite x.cap.nsid x.seq s1))

/-- A write fails: no effect, and reads that waited for it go on (R102, R106). A write whose COMMIT has been sent is
never failed (R140). -/
def failWrite (x : Ctx) (st : NvmeStatus) (s : State) : State :=
  if x.committed then s else wakeReads (failCtx x st (withdrawWrite x s))

/-- A command whose queue is gone goes on under a number of its own, so that its completion reaches no later queue of that name
(Table 3-11: completion lost). -/
def orphan (x : Ctx) (s : State) : Ctx × State :=
  let y := { x with cntlid := 65538, qid := 0, cid := s.hq.nextTag }
  (y, { s with hq := { s.hq with
    nextTag := s.hq.nextTag + 1
    ctxs := s.hq.ctxs.map (fun z => if z.same x then y else z) } })

/-- The marks of a write above 512 blocks whose grains have reached staging of both heads: every block placed here, and none in a
message that awaits its answer (R113). -/
def State.wholeMarks (s : State) (x : Ctx) : List CommitMark :=
  let sent := s.corr.unanswered.filterMap (fun m => match m.body with
    | .mirrorData _ n _ _ lba _ _ => if x.mirrors.contains m.number then some (lba, n) else none
    | _ => none)
  (s.marksOf x).filter (fun m => (List.range m.count).all (fun i =>
    s.stg.versions.any (fun v => v.at_ m.volume ((m.lba + i) / 4) ((m.lba + i) % 4) && v.seq == m.seq) &&
    !sent.any (fun r => r.1 ≤ m.lba + i && m.lba + i < r.1 + r.2)))

/-- A write above 512 blocks that a reset meets in Data-In takes effect for each grain that reached staging of both
heads: those grains are committed, its other blocks go (R113, Table 3-11). -/
def partialCommit (x : Ctx) (s : State) : State :=
  let ms := s.wholeMarks x
  if ms = [] then dropCtx x (withdrawWrite x s)
  else
    let keep := fun (v : Ver) => !(v.vol == x.cap.nsid && v.seq == x.seq && !v.staged) || ms.any (fun m => m.covers v)
    let (y, s1) := orphan x (unadmit x { s with stg := { s.stg with versions := s.stg.versions.filter keep } })
    if s1.mirrors then
      let first := s1.corr.nextNumber
      setCtx { y with committed := true, mirrors := [], commits := (List.range ms.length).map (first + ·) }
        (ms.foldl (fun t m => send (.commit m) t) s1)
    else stageWrite { y with committed := true } (ms.foldl (fun t m => sendPeer (.commit m) (holdMark m t)) s1)

/-- A command is discarded: nothing is sent. A write whose COMMIT has been sent, or that is Staged, goes on without a
completion; a reservation command has taken effect (Table 3-11). -/
def discardCtx (x : Ctx) (s : State) : State :=
  if x.isWrite then
    if x.committed ∨ x.state = .staged then (orphan x s).2
    else if 512 < x.cap.nlb ∧ x.state = .dataIn then wakeReads (partialCommit x s)
    else wakeReads (dropCtx x (withdrawWrite x s))
  else unpin (dropCtx x s)

/-- The Dispatcher's pointer stays on its connection when another one ends; where that one itself ends it stands on the next. -/
def Hq.without (h : Hq) (cntlid qid : Nat) : Hq :=
  match h.queues.findIdx? (fun y => y.cntlid == cntlid && y.qid == qid) with
  | none => h
  | some i => { h with
      queues := h.queues.eraseIdx i
      turn := if i < h.turn then h.turn - 1 else h.turn
      taken := if i = h.turn then 0 else h.taken }

/-- A capsule whose number has been asked of the peer leaves its queue unfetched: what it was admitted with is free again. The
number, when it comes, is withdrawn. -/
def unask (q : Queue) (s : State) : State :=
  let need := match q.capsules with
    | [] => 0
    | c :: rest => stagedBlocks c.2.1 + (if c.2.1.fused = 1 then ((rest.head?.map (fun d => stagedBlocks d.2.1)).getD 0) else 0)
  if q.asked.isNone then s
  else setQueue { q with asked := none } { s with stg := { s.stg with admitted := s.stg.admitted - need } }

/-- A queue ends: its waiting capsules and fetched commands are discarded, and it is gone (R115, R117). -/
def endQueue (q : Queue) (s : State) : State :=
  let s0 := unask q s
  let s1 := openWindows { s0 with hq := s0.hq.without q.cntlid q.qid }
  (s1.hq.ctxs.filter (fun x => x.cntlid == q.cntlid && x.qid == q.qid)).foldl (fun t x => discardCtx x t) s1

/-- A connection ends on a fatal transport error (R117): an I/O queue ends alone. The admin queue's connection is the
association's. -/
def endConnection (cntlid qid cause : Nat) (s : State) : State :=
  let s1 := emit (.terminate cntlid qid cause) s
  match s1.hq.queue cntlid qid with
  | none => s1
  | some q => endQueue q s1

/-- C2HTermReq cause of NVMe/TCP: Data Transfer Out of Range. PRESUMED: NVMe/TCP gives the code. -/
def causeRange : Nat := 4

/-- C2HTermReq cause of NVMe/TCP: PDU Sequence Error. PRESUMED: NVMe/TCP gives the code. -/
def causeSequence : Nat := 2

/-- A Compare whose data does not come fails, a fused write with it. -/
def failCompare (x : Ctx) (s : State) : State :=
  match s.hq.otherHalf x with
  | none => failCtx x nvmeTransfer s
  | some w => failHalf w (failCtx x nvmeTransfer s)

/-! ### Rows -/

/-- The Compare half of a fused write has not decided yet (R104). -/
def Hq.compareRuns (h : Hq) (w : Ctx) : Bool :=
  w.cap.fused == 2 && h.ctxs.any (fun x => x.cntlid == w.cntlid && x.qid == w.qid && x.seq == w.seq && x.cap.fused == 1)

/-- WRITE: its blocks are asked for, or staged at once where the capsule carries them (R101, R140). -/
def execWrite (cntlid qid cid : Nat) (s : State) : Host.Outcome State Fault Refusal :=
  match s.hq.ctx cntlid qid cid with
  | none => .next s
  | some x =>
    whenDue (x.cap.opcode = 0x01 ∧ x.state = .fetched ∧ s.hq.compareRuns x = false)
      (match x.cap.data with
       | none => startDataIn x s
       | some d =>
         let (y, s1) := placeData { x with state := .dataIn } 0 (d.take (4096 * x.cap.nlb)) x.cap.pi s
         writeProgress y s1) s

/-- Data that arrives for a command from a block on lies beyond its transfer length, by its blocks or their metadata (Table
3-12). -/
def Ctx.overruns (x : Ctx) (first : Nat) (data pi : Bytes) : Bool :=
  4096 * x.cap.nlb < 4096 * first + data.length || (pi != [] && 64 * x.cap.nlb < 64 * first + pi.length)

/-- Data of a Compare waits for its reads, on the head that owns its namespace; the other sends it there (R120). -/
def compareData (x : Ctx) (first : Nat) (data pi : Bytes) (s : State) : State :=
  let got := (List.range (min (data.length / 4096) (x.cap.nlb - first))).map (fun i =>
    (first + i, slice data (4096 * i) 4096 ++ (if s.hasMeta x.cap.nsid then slice pi (64 * i) 64 else [])))
  let y := { x with blocks := x.blocks ++ got }
  if ¬ s.ownsNsid x.cap.nsid then
    askData y (emit (.peerData x.cntlid x.qid x.cid first (got.flatMap (·.2))) (setCtx y s))
  else if y.state = .resolved ∧ y.reads.all (fun r => r.2.isSome) then finishRead y (setCtx y s)
  else if x.forPeer then setCtx y s
  else askData y (setCtx y s)

/-- WRITE_DATA_ARRIVAL: data of a command from a block on: a write's blocks go to fresh buffers and are mirrored
(R101, R133, R140), a Compare's wait for its reads; for a command that the peer received it is what the peer has sent on. Data
beyond the transfer length ends an NVMe/TCP connection, at whatever point it comes; a failed RDMA Read fails the command (Table
3-12). -/
def execWriteDataArrival (cntlid qid cid first : Nat) (data pi : Bytes) (ok : Bool) (s : State) :
    Host.Outcome State Fault Refusal :=
  match s.hq.ctx cntlid qid cid with
  | none => .next s
  | some x =>
    .next <|
      if x.cap.opcode ≠ 0x05 ∧ (x.cap.opcode ≠ 0x01 ∨ x.forPeer = true) then s
      else if x.cap.tcp ∧ x.overruns first data pi = true then endConnection cntlid qid causeRange s
      else if x.cap.opcode = 0x05 then (if ok then compareData x first data pi s else failCompare x s)
      else if x.state ≠ .dataIn ∨ x.committed then s
      else if ¬ ok then failWrite x nvmeTransfer s
      else if x.blocks.any (fun b => first ≤ b.1 && b.1 < first + data.length / 4096) then s
      else
        let (y, s1) := placeData x first (data.take (4096 * (x.cap.nlb - first))) pi s
        match (writeProgress y s1).hq.ctx cntlid qid cid with
        | none => writeProgress y s1
        | some z => if z.state = .dataIn ∧ ¬ z.committed then askData z (writeProgress y s1) else writeProgress y s1

/-- DATA_IN_TIMEOUT: a write without all its data when its time is over fails with Data Transfer Error and its mirrored
blocks are withdrawn (R102). A Compare whose data does not come ends the same way (Table 3-12). -/
def execDataInTimeout (cntlid qid cid : Nat) (s : State) : Host.Outcome State Fault Refusal :=
  match s.hq.ctx cntlid qid cid with
  | none => .next s
  | some x =>
    whenDue (x.forPeer = false ∧ x.at_ + secBells s.hq.timeout ≤ s.tt.now ∧ x.blocks.length < x.cap.nlb ∧
        ((x.cap.opcode = 0x01 ∧ x.state = .dataIn) ∨ (x.cap.opcode = 0x05 ∧ x.state = .resolved)))
      (event 0x3003 9 (argOf [(0, ((s.hq.controller x.cntlid).map (·.number)).getD 0xFFFF), (2, x.qid)])
        (if x.cap.opcode = 0x05 then failCompare x s else failWrite x nvmeTransfer s)) s

/-- WRITE_ZEROES: whole grains become zeros without buffers, partial ones are staged as zeros (R136). -/
def execWriteZeroes (cntlid qid cid : Nat) (s : State) : Host.Outcome State Fault Refusal :=
  match s.hq.ctx cntlid qid cid with
  | none => .next s
  | some x =>
    whenDue (x.cap.opcode = 0x08 ∧ x.state = .fetched)
      (let (y, s1) := placeZeros { x with state := .dataIn } (zeroPieces x.cap.slba x.cap.nlb false) s
       writeProgress { y with blocks := (List.range (stagedBlocks x.cap)).map (fun i => (i, [])) } s1) s

/-- DATASET_MANAGEMENT: the ranges are deallocated, each on its own; without the AD attribute the command asks for
nothing Damrid supports and completes (R114, Table 3-5). -/
def execDatasetManagement (cntlid qid cid : Nat) (s : State) : Host.Outcome State Fault Refusal :=
  match s.hq.ctx cntlid qid cid with
  | none => .next s
  | some x =>
    whenDue (x.cap.opcode = 0x09 ∧ x.state = .fetched)
      (if bitAt 2 x.cap.cdw11 then
        let (y, s1) := placeZeros { x with state := .dataIn } (x.cap.ranges.flatMap (fun r => zeroPieces r.1 r.2 true)) s
        writeProgress { y with blocks := (List.range (stagedBlocks x.cap)).map (fun i => (i, [])) } s1
       else complete x nvmeOk 0 [] (unadmit x s)) s

/-- The commands a Flush waits for: writes fetched before it on its namespace, or on every namespace attached to its
controller (R111). -/
def State.flushWaits (s : State) (x : Ctx) : Bool :=
  let sub := ((s.hq.controller x.cntlid).map (·.subsystem)).getD 0
  (s.hq.ctxs.takeWhile (fun y => !y.same x)).any (fun y => y.isWrite &&
    (if x.cap.nsid = 0xFFFFFFFF then (s.ftl.ofNsid y.cap.nsid).any (fun r => r.subsystem == sub) else y.cap.nsid == x.cap.nsid))

/-- The namespaces a command is for are of groups this head owns. -/
def State.ownsAll (s : State) (x : Ctx) : Bool :=
  if x.cap.nsid = 0xFFFFFFFF then
    let sub := ((s.hq.controller x.cntlid).map (·.subsystem)).getD 0
    s.ftl.roots.all (fun r => r.nsid == 0 || r.subsystem != sub || s.ownsGroup r.ana)
  else (s.ftl.ofNsid x.cap.nsid).any (fun r => s.ownsGroup r.ana)

/-- FLUSH: completes when every write fetched before it has completed, on any queue of either head (R111). What the
writes of the other head's namespaces still wait for is the owning head's answer, and comes with the row. -/
def execFlush (cntlid qid cid : Nat) (remoteDone : Bool) (s : State) : Host.Outcome State Fault Refusal :=
  match s.hq.ctx cntlid qid cid with
  | none => .next s
  | some x =>
    whenDue (x.cap.opcode = 0x00 ∧ x.state = .fetched ∧ s.flushWaits x = false ∧ (s.ownsAll x = true ∨ remoteDone = true))
      (complete x nvmeOk 0 [] s) s

/-- MIRROR_ACK: a message of a write is acknowledged; when all are, the write is committed (R140). -/
def mirrorAcked (number : Nat) (s : State) : State :=
  match s.corr.awaiting number with
  | none => s
  | some _ =>
    let s1 := settleNumber number s
    match s1.hq.ctxs.find? (fun x => x.mirrors.contains number) with
    | none => s1
    | some x => writeProgress { x with mirrors := x.mirrors.filter (· != number) } s1

/-- MIRROR_ACK (R140). -/
def execMirrorAck (number held : Nat) (s : State) : Host.Outcome State Fault Refusal :=
  onWord (.mirrorAck number held) (mirrorAcked number) s

/-- A COMMIT is answered: this head's own mark is Held; a write whose marks are all Held is Staged (R140 step 5). -/
def commitAcked (number : Nat) (s : State) : State :=
  match s.corr.awaiting number with
  | none => s
  | some m =>
    match m.body with
    | .commit mark =>
      if s.syncWaits mark.volume mark.seq then
        match s.hq.ctxs.find? (fun x => x.commits.contains number) with
        | none => settleNumber number s
        | some x => setCtx { x with commits := x.commits.filter (· != number) } (settleNumber number s)
      else
        let s1 := wakeReads (holdMark mark (settleNumber number s))
        match s1.hq.ctxs.find? (fun x => x.commits.contains number) with
        | none => s1
        | some x =>
          let y := { x with commits := x.commits.filter (· != number) }
          if y.commits = [] then dropRest y (stageWrite y (setCtx y s1)) else setCtx y s1
    | _ => s

/-- COMMIT_ACK (R140). -/
def execCommitAck (number : Nat) (s : State) : Host.Outcome State Fault Refusal :=
  onWord (.commitAck number) (commitAcked number) s

/-- The peer is gone and the Peer-absent sheet is in force: what its answers would have brought happens without them
(R140, R141, R487). -/
def answersGone (s : State) : State :=
  s.corr.unanswered.foldl (fun t m =>
    match m.body with
    | .mirrorData .. => mirrorAcked m.number t
    | .commit _ => commitAcked m.number t
    | .withdraw .. => settleNumber m.number t
    | _ => t) s

/-- The context that stands for the peer's write of a number, on the head that orders its namespace, goes once the write
is Staged or withdrawn (R103, R106). -/
def peerWriteDone (vol seq : Nat) (s : State) : State :=
  match s.hq.ctxs.find? (fun x => x.forPeer && x.isWrite && x.cap.nsid == vol && x.seq == seq) with
  | none => s
  | some x => wakeReads (dropCtx x s)

/-- COMMIT: the mark is Held, the descriptors are Staged, and COMMIT_ACK answers (R140). -/
def execCommit (number : Nat) (mark : CommitMark) (s : State) : Host.Outcome State Fault Refusal :=
  onMessage number (.commit mark) (fun s0 =>
   let s := if (s0.ftl.ofNsid mark.volume).any (fun r => s0.ownsRoot r) then
      sendSyncWrite mark.volume mark.seq [(mark.lba, mark.count)] (some (number, mark)) s0 else s0
   if s.syncWaits mark.volume mark.seq then s
   else
    let s1 := reply number (.commitAck number) (holdMark mark s)
    if s1.stg.versions.any (fun v => v.vol == mark.volume && v.seq == mark.seq && !v.staged) then wakeReads s1
    else peerWriteDone mark.volume mark.seq s1) s

/-- A SYNC_ACK releases the writes of a root up to a number: those committed here are Staged, the peer's COMMITs are
answered, their marks Held (R457). -/
def syncAcked (session root seq : Nat) (s : State) : State :=
  let mine := fun (y : SyncRel) => y.session == session && y.source && y.roots.any (fun p => p.1 == root)
  let ws := (s.repl.syncs.filter mine).flatMap (fun y => y.waiting.filter (fun w => w.root == root && w.seq ≤ seq && !w.acked))
  let s1 : State := { s with repl := { s.repl with syncs := s.repl.syncs.map (fun y =>
      if mine y then { y with
        waiting := (y.waiting.map (fun w => if w.root == root && w.seq ≤ seq then { w with acked := true } else w)).filter
          (fun w => !(w.acked && w.commit.isSome))
        rtt := match ws.getLast? with | some w => s.tt.now - w.at_ | none => y.rtt } else y) } }
  let s2 := ws.foldl (fun t w =>
    match w.commit with
    | none => t
    | some (n, m) =>
      if t.syncWaits m.volume m.seq then t
      else
        let t1 := wakeReads (reply n (.commitAck n) (holdMark m t))
        if t1.stg.versions.any (fun v => v.vol == m.volume && v.seq == m.seq && !v.staged) then t1
        else peerWriteDone m.volume m.seq t1) s1
  (s2.hq.ctxs.filter (fun x => x.isWrite && x.committed && x.state == .dataIn && x.commits == [] && (x.cntlid < 65536 || x.cntlid == 65538) &&
    ws.any (fun w => w.seq == x.seq && (s.ftl.ofNsid x.cap.nsid).any (fun r => r.id == w.root)))).foldl (fun t x =>
      if t.syncWaits x.cap.nsid x.seq then t else dropRest x (stageWrite x t)) s2

/-- WITHDRAW: the blocks of a failed write go; those of Held marks stay, so that a write whose marks are Held keeps all of them;
MIRROR_ACK answers (R639). -/
def execWithdraw (number volume seq : Nat) (s : State) : Host.Outcome State Fault Refusal :=
  onMessage number (.withdraw volume seq) (fun s =>
    reply number (.mirrorAck number 0)
      (if s.stg.marks.any (fun m => m.volume == volume && m.seq == seq) &&
          !s.stg.versions.any (fun v => v.vol == volume && v.seq == seq && !v.staged) then s
       else peerWriteDone volume seq (dropWrite volume seq s))) s

end Sys2Proof.Machine
end

