-- ==== Sys2Proof/Machine/Roll.lean ====
section
/-! DEFINITION. Roll call: presuming the peer down, fencing itself (R477, R482, R483, R486). -/

namespace Sys2Proof.Machine

/-- The forms the peer owns in the sheet in force. -/
def State.peerForms (s : State) : List Nat :=
  match s.tt.active with
  | none => []
  | some i => (List.range i.formCount).filter (fun f => ownerUnder (i.sheet s.tt.sheet) (i.form f) == 1 - s.sys.slot)

/-- A vault-area form. -/
def State.vaultForm (s : State) (f : Nat) : Bool := s.tt.active.any (fun i => bitAt 3 (i.form f).role)

/-- The ANA groups that stand with the peer, of the roots there are. -/
def State.peerGroups (s : State) : List Nat :=
  ((s.ftl.roots.filter (fun r => r.nsid != 0 && (getKey r.ana s.hq.owners).getD 0 != s.sys.slot)).map (·.ana)).eraseDups

/-- The roll call enters a state, with its event (Table 13-2). -/
def rollTo (r : RollCall) (code : Nat) (s : State) : State :=
  if s.corr.roll = r then s
  else event 0xA002 25 code { s with corr := { s.corr with roll := r } }

/-- A move of a group to a head that is gone ends: the group stays, and a packet that asked for it is refused by its new
owner (R119). -/
def endMoves (s : State) : State :=
  let asked := s.cpi.accepted.filter (fun p => p.opcode == 0x0305)
  asked.foldl (fun t p => badParam p 2 t) { s with
    hq := { s.hq with moving := [] }
    corr := { s.corr with releasing := none } }

/-- The peer is presumed down: this head no longer trims after it (R38), its groups' commands are held, its forms fenced, vault-area forms apart where asked,
and the Peer-absent sheet is due at the first day boundary at least 2 periods on (R477, R482, R486 steps 1 to 4). -/
def presumeDown (keepVault : Bool) (s : State) : State :=
  if s.corr.roll ≠ .inService ∧ s.corr.roll ≠ .joining then s
  else
    let forms := s.peerForms.filter (fun f => !(keepVault && s.vaultForm f))
    let s1 := rollTo .presumedDown 1 { s with
      corr := { s.corr with helloSeen := false, step := 0, failover := 0 }
      tt := { s.tt with cycles := 4000 }
      hq := { s.hq with held := (s.hq.held ++ s.peerGroups).eraseDups } }
    fenceForms forms (trigger true 1 0 (endMoves s1))

/-- The head fences itself: it fetches nothing, completes each fetched command with Asymmetric Access Inaccessible,
and posts no die operation (R483). A write so completed may take effect still: its blocks stay. -/
def selfFence (s : State) : State :=
  let s1 := s.hq.ctxs.foldl (fun t x => complete x nvmeInaccessible 0 [] t) s
  rollTo .selfFenced 2 { s1 with
    bay := { s1.bay with waiting := [] }
    tt := { s1.tt with cycles := 4000 } }

end Sys2Proof.Machine
end

