-- ==== Sys2Proof/Machine/Cipher.lean ====
section
/-! DEFINITION. Long messages, hall passes, digest contexts, measurement registers and the locker packets
(R242 to R247, R255 to R278). -/

namespace Sys2Proof.Machine

/-! ### Keys by handle (R247) -/

/-- The key a handle names, or the status of the refusal and its detail (R247, Tables 7-2 and 7-3). -/
def State.keyFor (s : State) (handle gen domain : Nat) : (Status × Bytes) ⊕ Bytes :=
  let n := handle / 4096 % 4096
  let stale := Sum.inl (Status.lockerUnbound, detailOf [(4, handle)])
  if handle / 2 ^ 24 = 1 then
    let l := s.ciph.locker n
    if l.state = .unbound ∨ handle ≠ lockerHandle n l then stale
    else if l.state = .withdrawn then .inl (.lockerWithdrawn, detailOf [(2, n)])
    else .inr (s.dataKey n gen)
  else if handle / 2 ^ 24 = 2 then
    match s.repl.sessions.find? (fun x => x.reg == n && x.step == .isOpen) with
    | some x => .inr (keyOf x.secret (keyLabel 0x14 x.number 0 (fieldAt x.hash 0 8) x.pool))
    | none => stale
  else if handle / 2 ^ 24 = 3 ∧ n < 16 then
    if n = 0 then .inr (s.systemKey 0x10 s.sys.slot)
    else if n = 1 then .inr (s.systemKey 0x10 (1 - s.sys.slot))
    else if n = 2 then .inr (s.systemKey 0x11 0)
    else if n = 3 then .inr (s.systemKey 0x12 s.sys.slot)
    else .inr (s.systemKey 0x13 domain)
  else stale

/-- The locker of a handle; 0 for system and session keys (CIPH_FAIL_LAST). -/
def handleLocker (handle : Nat) : Nat := if handle / 2 ^ 24 = 1 then handle / 4096 % 4096 else 0

/-- A cipher lane raises a status: CIPH_FAIL_LAST, and CIPH_FAIL_COUNT for a tag (Table 7-13). -/
def cipherStatus (st : Status) (lane locker : Nat) (s : State) : State :=
  { s with ciph := { s.ciph with
      failStatus := statusCode st
      failLane := lane
      failLocker := locker
      failCount := if st = .tagFail then min (s.ciph.failCount + 1) (2 ^ 48 - 1) else s.ciph.failCount } }

/-- A tag did not verify: the registers, the count and the event TAG_FAIL (R250, R263). -/
def laneTagFail (island lane locker : Nat) (s : State) : State :=
  event 0x6003 (16 + island) (argOf [(0, 16 + island), (1, lane), (2, locker)])
    (tallyAdd 0x08 2 1 (cipherStatus .tagFail lane locker s))

/-! ### Contexts and hall passes (R264 to R268) -/

/-- A cipher context. -/
def Ciph.ctx (c : Ciph) (number : Nat) : Option CipherCtx := c.ctxs.find? (fun x => x.number == number)

/-- A context replaced, or added. -/
def setCipherCtx (x : CipherCtx) (s : State) : State :=
  { s with ciph := { s.ciph with
      ctxs := s.ciph.ctxs.filter (fun y => y.number != x.number) ++ [x] } }

/-- A context ends. -/
def dropCipherCtx (number : Nat) (s : State) : State :=
  { s with ciph := { s.ciph with ctxs := s.ciph.ctxs.filter (fun y => y.number != number) } }

/-- A context as a lane starts its message. -/
def startCtx (c : CtxStart) (number : Nat) : CipherCtx where
  number := number
  island := c.island
  cls := c.cls
  handle := c.handle
  writer := beNat (c.nonce.take 2)
  decrypt := c.decrypt
  segmented := !c.stream
  stream := c.stream
  segment := 0
  done := 0
  released := 0
  dest := c.dest
  prevTag := zeros 16
  finalSeen := false
  j0 := fitBytes 12 c.nonce ++ beBytes 4 1
  ghash := 0
  aadLen := 0
  textLen := 0
  place := 0
  savedAt := 0
  wrapped := []
  lane := c.lane

/-- The 96-byte record of a saved context (Table 7-9). -/
def CipherCtx.record (x : CipherCtx) : Bytes :=
  fields [(4, x.handle), (2, x.writer),
    (2, flagBit x.decrypt + 2 * flagBit x.segmented + 4 * flagBit x.stream + 8 * flagBit x.finalSeen)] ++
  fitBytes 16 x.j0 ++ fields [(4, 2 + x.textLen / 16), (4, x.segment)] ++ beBytes 16 x.ghash ++
  fields [(8, x.aadLen), (8, x.textLen)] ++ fitBytes 16 x.prevTag ++ fields [(8, x.dest + x.released), (8, x.released)]

/-- The lane absorbs a part of a pass: the segment moves on where it begins one, and GHASH takes the additional data
and the ciphertext. -/
def CipherCtx.absorb (key : Bytes) (x : CipherCtx) (p : PassPart) : CipherCtx :=
  let y : CipherCtx :=
    if p.begins ∧ 0 < x.done then
      { x with
        segment := x.segment + 1
        j0 := segmentNonce (x.j0.take 12) 1 ++ beBytes 4 1
        ghash := 0
        aadLen := 0
        textLen := 0 }
    else x
  let h := BitVec.ofNat 128 (beNat (aesEnc (aesKeys key) (zeros 16)))
  { y with
    ghash := ((blocks16 p.aad ++ blocks16 p.text).foldl
      (fun (g : BitVec 128) b => ghashMul (g ^^^ BitVec.ofNat 128 (beNat b)) h) (BitVec.ofNat 128 y.ghash)).toNat
    aadLen := y.aadLen + p.aad.length
    textLen := y.textLen + p.text.length
    done := y.done + p.aad.length + p.text.length
    released := if y.decrypt && y.segmented then y.released else y.released + p.text.length }

/-- The waiting contexts of an island and stream class: saved ones. -/
def Ciph.waitingOf (c : Ciph) (island cls : Nat) : List CipherCtx :=
  c.ctxs.filter (fun x => x.island == island && x.cls == cls && x.place != 0)

/-- Records in an island's context store (CIPH_CTX.STORE0, STORE1), and spilled ones. -/
def Ciph.storeOf (c : Ciph) (island : Nat) : List CipherCtx :=
  c.ctxs.filter (fun x => x.island == island && x.place == 1)

/-- Contexts in the wrapped-context area (CIPH_CTX.SPILLED). -/
def Ciph.spilled (c : Ciph) : Nat := (c.ctxs.filter (fun x => x.place == 2)).length

/-- The next context under R23: the first waiting one with a number above the running one's, else the lowest. -/
def Ciph.turn (c : Ciph) (x : CipherCtx) : Option CipherCtx :=
  let w := sortBy (fun a b => a.number ≤ b.number) (c.waitingOf x.island x.cls)
  (w.find? (fun y => x.number < y.number)).or w.head?

/-- A record is wrapped under the head's WRAP key and written to its slot of 128 bytes in DRAM (R267). -/
def spillCtx (x : CipherCtx) (s : State) : State :=
  tallyAdd 0x08 3 1 (setCipherCtx { x with
      place := 2
      wrapped := fields [(4, x.number), (4, 0)] ++ fitBytes 104 (kwWrap (s.systemKey 0x12 s.sys.slot) x.record) ++ zeros 16 } s)

/-- The oldest record of a full store is spilled (R267). -/
def spillOldest (island : Nat) (s : State) : State :=
  match (sortBy (fun a b => a.savedAt ≤ b.savedAt) (s.ciph.storeOf island)).head? with
  | none => s
  | some x => spillCtx x s

/-- The store and the wrapped-context area of an island have room for one more record (R267). -/
def Ciph.roomToSave (c : Ciph) (island : Nat) : Bool := c.spilled < 65536 || (c.storeOf island).length < 1024

/-- A running context is saved, the store's oldest spilled where it is full (R266, R267). -/
def saveCtx (x : CipherCtx) (s : State) : State :=
  let s1 := if 1024 ≤ (s.ciph.storeOf x.island).length then spillOldest x.island s else s
  setCipherCtx { x with
    place := 1, savedAt := s.tt.now } s1

/-- A waiting context takes the lane. A spilled one is unwrapped from the record DRAM returns; when that fails its
integrity check the message fails with CTX_UNWRAP (R267, R268). -/
def resumeCtx (x : CipherCtx) (lane : Nat) (stored : Option Bytes) (s : State) : State :=
  if x.place = 2 ∧ kwUnwrap (s.systemKey 0x12 s.sys.slot) (slice (stored.getD x.wrapped) 8 104) ≠ some x.record then
    emit (.engineReply (16 + x.island) x.number .ctxUnwrap (detailOf [(4, x.number)]) [])
      (event 0xB004 (16 + x.island) (argOf [(0, x.number % 2 ^ 32)])
        (cipherStatus .ctxUnwrap lane (handleLocker x.handle) (dropCipherCtx x.number s)))
  else setCipherCtx { x with
    place := 0, wrapped := [], lane := lane } s

/-- The context of a pass: the listed one, or the one the lane has just started. -/
def Ciph.passCtx (c : Ciph) (number : Nat) (start : Option CtxStart) : Option CipherCtx :=
  (c.ctx number).or (start.map (fun x => startCtx x number))

/-- HALL_PASS_END: a pass of a context ends. Where another context of its class waits on the island, the running one
is saved and the lane granted on; else it keeps the lane; a message that ended leaves the lane (R264 to R268). The
additional data and ciphertext of the pass come with the command; `stored` is what DRAM returns for a spilled record
where it differs from what was written. -/
def execHallPassEnd (number : Nat) (start : Option CtxStart) (parts : List PassPart) (ended : Bool)
    (stored : Option Bytes) (s : State) : Host.Outcome State Fault Refusal :=
  .next <|
    match s.ciph.passCtx number start with
    | none => s
    | some x0 =>
      let label := (start.map (fun c => (c.gen, c.domain))).getD (0, 0)
      match s.keyFor x0.handle label.1 label.2 with
      | .inl (st, detail) =>
        emit (.engineReply (16 + x0.island) number st detail []) (cipherStatus st x0.lane (handleLocker x0.handle) (dropCipherCtx number s))
      | .inr key =>
        let x := parts.foldl (CipherCtx.absorb key) x0
        let s0 := if x0.stream ∧ (s.ciph.ctx number).isNone = true then emit (.provisional (16 + x0.island) number) s else s
        let s1 := tallyAdd 0x08 4 1 s0
        if ended then
          let s2 := dropCipherCtx number s1
          match s2.ciph.turn x with
          | none => s2
          | some y => resumeCtx y x.lane stored s2
        else
          match (s1.ciph.turn x) with
          | none => setCipherCtx { x with
              place := 0 } s1
          | some y =>
            if ¬ s1.ciph.roomToSave x.island then setCipherCtx x s1
            else resumeCtx y x.lane stored (saveCtx x s1)

/-- The stream class of a cipher lane's group in this period; none without a timetable (R63). -/
def State.laneClassNow (s : State) (island lane : Nat) : Option Nat :=
  s.tt.active.map (fun i =>
    let x := i.sheet s.tt.sheet
    ((s.groupRole i x (10 + 2 * island + lane / 6)).map (fun r => i.laneClass x s.sys.slot r s.period)).getD 0)

/-- At a bell a lane whose group goes to another class saves its context (R265). -/
def saveAtBell (s : State) : State :=
  (s.ciph.ctxs.filter (fun x => x.place == 0 && (s.laneClassNow x.island x.lane).any (fun c => c != x.cls))).foldl
    (fun t x => if t.ciph.roomToSave x.island then saveCtx x t else t) s

/-- At a bell a free lane takes a saved context of the class that its group goes to, on any lane of the island (R264, R265). -/
def resumeAtBell (s : State) : State :=
  (List.range 24).foldl (fun t n =>
    let island := n / 12
    let lane := n % 12
    if t.ciph.ctxs.any (fun x => x.place == 0 && x.island == island && x.lane == lane) then t
    else
      match (t.laneClassNow island lane).bind (fun c => (sortBy (fun a b => a.number ≤ b.number) (t.ciph.waitingOf island c)).head?) with
      | none => t
      | some y => resumeCtx y lane none t) s

/-- What a bell does to the contexts of the cipher lanes (R264, R265). -/
def contextBell (s : State) : State := resumeAtBell (saveAtBell s)

/-! ### Segmented messages and stream mode (R257 to R263) -/

/-- Step 1 of R260: the stream header's reserved fields, magic, version and mode. -/
def streamHeaderOk (h : Bytes) : Bool :=
  h.length == 64 && slice h 0 8 == ascii "BRCSAEAD" && fieldAt h 8 1 == 1 && fieldAt h 9 1 < 2 &&
  fieldAt h 0x0B 1 == 0 && allZero (slice h 0x1C 4) && allZero (slice h 0x30 16)

/-- Stream mode is authorised: Prefect's descriptor, or an Operator-class packet with its stream flag (R262). -/
def State.streamAllowed (s : State) (a : StreamAuth) : Bool :=
  match a with
  | .prefect => true
  | .packet b tag => s.cpi.accepted.any (fun p => p.binding == b && p.tag == tag && p.stream && p.cls == 2)
  | .other => false

/-- A message ends with a status: its context goes and the completion leaves. -/
def endMessage (x : CipherCtx) (st : Status) (detail : Bytes) (s : State) : State :=
  let s1 : State := if st ≠ .ok ∧ x.decrypt = true ∧ x.handle / 2 ^ 24 = 2 then { s with repl := { s.repl with
      sessions := s.repl.sessions.map (fun y => if y.reg == x.handle / 4096 % 4096 then { y with failed := true } else y) } } else s
  emit (.engineReply (16 + x.island) x.number st (fitBytes 16 detail) [])
    ((if st = .ok then id else cipherStatus st x.lane (handleLocker x.handle)) (dropCipherCtx x.number s1))

/-- The tag of a stream-mode message fails: every destination byte written is zeroised, and the count reported
(R263). -/
def streamTagFail (x : CipherCtx) (s : State) : State :=
  emit (.engineReply (16 + x.island) x.number .tagFail (detailOf [(8, x.released)]) (zeros x.released))
    (laneTagFail x.island x.lane (handleLocker x.handle) (dropCipherCtx x.number s))

/-- A segment's length obeys Table 7-8, and its frame its layout. -/
def segmentLengthOk (stream : Bool) (i : SegmentIn) : Bool :=
  let n := fieldAt i.frame 8 8
  i.frame.length == 16 && i.text.length == n &&
  (if stream then fieldAt i.frame 4 4 == 1 && n ≤ 4294967296
   else if fieldAt i.frame 4 4 == 1 then n ≤ 65536 else fieldAt i.frame 4 4 == 0 && n == 65536)

/-- A segment of a message after its header check: steps 2 to 4 of R260, and the release of its plaintext
(R261). In stream mode the plaintext has left before the tag (R262). -/
def takeSegment (x : CipherCtx) (key header : Bytes) (i : SegmentIn) (s : State) : State :=
  let index := fieldAt i.frame 0 4
  let expected := if x.done = 0 then 0 else x.segment + 1
  if index ≠ expected ∨ x.finalSeen then endMessage x .segOrder (detailOf [(4, index)]) s
  else if !segmentLengthOk x.stream i then endMessage x .segOrder (detailOf [(4, index)]) s
  else
    let nonce := segmentNonce (slice header 0x10 12) index
    match gcmOpen key nonce (header ++ i.frame ++ x.prevTag) i.text i.tag with
    | none =>
      if x.stream then streamTagFail { x with
          released := i.text.length } s
      else
        emit (.engineReply (16 + x.island) x.number .tagFail (detailOf [(8, i.text.length), (4, index)]) [])
          (laneTagFail x.island x.lane (handleLocker x.handle) (dropCipherCtx x.number s))
    | some text =>
      emit (.engineReply (16 + x.island) x.number .ok noDetail text)
        (setCipherCtx { x with
          segment := index
          done := x.done + 96 + i.text.length
          released := x.released + text.length
          prevTag := i.tag
          finalSeen := fieldAt i.frame 4 4 == 1 } s)

/-- The end of a message's input: whole with a final segment verified, else truncated (R260). The detail's last index
verified has no value when none was: a free one. -/
def endInput (x : CipherCtx) (s : State) : State :=
  if x.finalSeen then endMessage x .ok noDetail s
  else endMessage x .segTruncated (detailOf [(4, if x.done = 0 then s.free % 2 ^ 32 else x.segment)]) (drawn 1 s)

/-- SEGMENT_VERIFY: a receiving lane checks a segment, or finds the input ended (R260 to R262). The first one opens
the message's context from its descriptor. -/
def execSegmentVerify (number : Nat) (start : CtxStart) (auth : StreamAuth) (header : Bytes)
    (seg : Option SegmentIn) (s : State) : Host.Outcome State Fault Refusal :=
  .next <|
    let x := (s.ciph.ctx number).getD (startCtx start number)
    if !streamHeaderOk header then endMessage x .pktFormat noDetail s
    else if fieldAt header 9 1 = 1 ∧ (s.streamAllowed auth = false ∨ fieldAt header 0x0A 1 = 0x01 ∨
        fieldAt header 0x0A 1 = 0x14) then endMessage x .streamDenied noDetail s
    else
      match s.keyFor x.handle (fieldAt header 0x0E 2) (fieldAt header 0x0C 2) with
      | .inl (st, detail) => endMessage x st detail s
      | .inr key =>
        match seg with
        | some i => takeSegment { x with
            stream := fieldAt header 9 1 == 1, segmented := fieldAt header 9 1 == 0 } key header i s
        | none => endInput x s

/-- STREAM_TAG_FAIL: the tag of a stream-mode message fails (R263). -/
def execStreamTagFail (number : Nat) (s : State) : Host.Outcome State Fault Refusal :=
  .next <|
    match s.ciph.ctx number with
    | none => s
    | some x => if x.stream then streamTagFail x s else s

/-! ### Digest contexts (R270 to R274) -/

/-- What a function gives after some input: n bytes of output, `skip` of them already read (Table 7-11). SHA3 gives its
whole digest at each read; KMAC gives a tag of the length asked for. -/
def digestOutput (fn : DigestFn) (key custom data : Bytes) (skip n : Nat) : Bytes :=
  let cs := fun (rate : Nat) (name : Bytes) (m : Bytes) (len : Nat) =>
    if name.isEmpty && custom.isEmpty then keccakSponge rate 0x1F m len
    else keccakSponge rate 0x04 (bytepad (encodeString name ++ encodeString custom) rate ++ m) len
  let km := fun (rate : Nat) =>
    cs rate (ascii "KMAC") (bytepad (encodeString key) rate ++ data ++ rightEncode (8 * n)) n
  match fn with
  | .sha3x256 => (keccakSponge 136 0x06 data 32).take n
  | .sha3x384 => (keccakSponge 104 0x06 data 48).take n
  | .sha3x512 => (keccakSponge 72 0x06 data 64).take n
  | .shake128 => (keccakSponge 168 0x1F data (skip + n)).drop skip
  | .shake256 => (keccakSponge 136 0x1F data (skip + n)).drop skip
  | .cshake128 => (cs 168 [] data (skip + n)).drop skip
  | .cshake256 => (cs 136 [] data (skip + n)).drop skip
  | .kmac128 => km 168
  | .kmac256 => km 136

/-- A function takes a key. -/
def fnKeyed (fn : DigestFn) : Bool := fn == .kmac128 || fn == .kmac256

/-- A DIGEST_* status is returned: DGST_ERR_COUNT and the completion. -/
def digestError (number : Nat) (st : Status) (detail data : Bytes) (s : State) : State :=
  emit (.engineReply 18 number st (fitBytes 16 detail) data) { s with ciph := { s.ciph with
    digestLast := statusCode st
    digestCount := min (s.ciph.digestCount + 1) (2 ^ 48 - 1) } }

/-- A digest context; none is Free. -/
def Ciph.digest (c : Ciph) (number : Nat) : Option DigestCtx := c.digests.find? (fun d => d.number == number)

/-- A digest context replaced. -/
def setDigest (d : DigestCtx) (s : State) : State :=
  { s with ciph := { s.ciph with
      digests := s.ciph.digests.filter (fun x => x.number != d.number) ++ [d] } }

/-- The contexts open to a requester: Prefect's or Faculty's (R271). -/
def digestRange (prefect : Bool) : List Nat :=
  if prefect then (List.range 38).map (· + 26) else (List.range 192).map (· + 64)

/-- DIGEST_OPEN: the lowest free context of the requester's range becomes Open; none free fails with DIGEST_CTX_FULL,
a stale key handle with LOCKER_UNBOUND (R247, R271, R272). The detail's form of the range is unstated: free. -/
def execDigestOpen (prefect : Bool) (fn : DigestFn) (handle gen : Nat) (custom : Bytes) (s : State) :
    Host.Outcome State Fault Refusal :=
  .next <|
    match (digestRange prefect).find? (fun n => (s.ciph.digest n).isNone) with
    | none => digestError 0 .digestCtxFull (detailOf [(2, s.free % 65536)]) [] (drawn 1 s)
    | some n =>
      match (if fnKeyed fn then s.keyFor handle gen 0 else .inr []) with
      | .inl (st, detail) => emit (.engineReply 18 n st (fitBytes 16 detail) []) s
      | .inr _ =>
        emit (.engineReply 18 n .ok noDetail []) (tallyAdd 0x09 1 1 (setDigest ⟨n, 1, fn, handle, gen, custom, [], 0⟩ s))

/-- DIGEST_ABSORB: an Open context takes data; any other fails with DIGEST_NOT_OPEN (R272). -/
def execDigestAbsorb (number : Nat) (data : Bytes) (s : State) : Host.Outcome State Fault Refusal :=
  .next <|
    match s.ciph.digest number with
    | some d =>
      if d.state = 1 then
        emit (.engineReply 18 number .ok noDetail [])
          (tallyAdd 0x09 0 ((d.data.length + data.length) / 4096 - d.data.length / 4096)
            (setDigest { d with
              data := d.data ++ data } s))
      else digestError number .digestNotOpen (detailOf [(1, number)]) [] s
    | none => digestError number .digestNotOpen (detailOf [(1, number)]) [] s

/-- DIGEST_FINALISE: an Open context becomes Final; any other fails with DIGEST_NOT_OPEN (R272). -/
def execDigestFinalise (number : Nat) (s : State) : Host.Outcome State Fault Refusal :=
  .next <|
    match s.ciph.digest number with
    | some d =>
      if d.state = 1 then emit (.engineReply 18 number .ok noDetail []) (setDigest { d with
          state := 2 } s)
      else digestError number .digestNotOpen (detailOf [(1, number)]) [] s
    | none => digestError number .digestNotOpen (detailOf [(1, number)]) [] s

/-- DIGEST_READ: a Final context gives output, the XOFs continuing; any other gives zeros and DIGEST_NOT_FINAL
(R272, R273). -/
def execDigestRead (number length : Nat) (s : State) : Host.Outcome State Fault Refusal :=
  .next <|
    match s.ciph.digest number with
    | some d =>
      if d.state = 2 then
        match (if fnKeyed d.fn then s.keyFor d.handle d.gen 0 else .inr []) with
        | .inl (st, detail) => emit (.engineReply 18 number st (fitBytes 16 detail) []) s
        | .inr key =>
          emit (.engineReply 18 number .ok noDetail (digestOutput d.fn key d.custom d.data d.read length))
            (setDigest { d with
              read := d.read + length } s)
      else digestError number .digestNotFinal (detailOf [(1, number)]) (zeros length) s
    | none => digestError number .digestNotFinal (detailOf [(1, number)]) (zeros length) s

/-- DIGEST_CLOSE: the context is Free and zeroised (R272). -/
def execDigestClose (number : Nat) (s : State) : Host.Outcome State Fault Refusal :=
  .next (emit (.engineReply 18 number .ok noDetail []) { s with ciph := { s.ciph with
    digests := s.ciph.digests.filter (fun d => d.number != number) } })

/-! ### Measurement registers (R276, R277) -/

/-- A register is extended: SHAKE256 of its value and the data, 64 bytes (R276). -/
def extendMr (reg : Nat) (data : Bytes) (s : State) : State :=
  tallyAdd 0x01 2 1 (tallyAdd 0x09 2 1 { s with ciph := { s.ciph with
    mrs := s.ciph.mrs.set reg (shake256 (s.ciph.mrs.getD reg (zeros 64) ++ data) 64) } })

/-- MR_EXTEND: Prefect extends a register, of itself or at Faculty's request; outside Faculty's range a request
fails with MREG_DENIED. The data is 1 to 4,096 bytes (R276, R277). DESIGN CHOICE: a request with no data or with more, or of Prefect's own
for a register above 31, changes nothing and gets no reply; the spec names no answer to it. -/
def execMrExtend (faculty : Bool) (reg : Nat) (data : Bytes) (s : State) : Host.Outcome State Fault Refusal :=
  .next <|
    if faculty ∧ (reg < 16 ∨ 31 < reg) then
      emit (.engineReply 0 reg .mregDenied (detailOf [(1, reg)]) []) s
    else if reg < 32 ∧ 1 ≤ data.length ∧ data.length ≤ 4096 then
      emit (.engineReply 0 reg .ok noDetail []) (extendMr reg data s)
    else s

/-! ### Lockers (R242 to R247, R255, R256) -/

/-- The usage of a locker counts a grant: past 2^47 it warns, at 2^48 − 2^24 it is Exhausted (R255, R256). -/
def countGrant (d : Nat) (s : State) : State :=
  let l := s.ciph.locker d
  let n := min (2 ^ 20) (2 ^ 48 - l.usage)
  let u := l.usage + n
  let s1 := journal (.usageGrant d l.gen l.usage n) (setLocker d { l with
    usage := u
    granted := l.granted + n
    warned := l.warned || 2 ^ 47 ≤ u
    state := if 2 ^ 48 - 2 ^ 24 ≤ u ∧ l.state = .isOpen then .exhausted else l.state } s)
  let s2 := if 2 ^ 47 ≤ u ∧ l.warned = false then
      event 0x6004 16 (argOf [(0, d), (2, l.gen), (4, 1)]) s1 else s1
  if 2 ^ 48 - 2 ^ 24 ≤ u ∧ l.state = .isOpen then event 0x6004 16 (argOf [(0, d), (2, l.gen), (4, 2)]) s2 else s2

/-- USAGE_GRANT_DRAW: a head draws a grant of 2^20 slots of a locker; the draw is journalled. None goes past a count
of 2^48 (R255, R256). -/
def execUsageGrantDraw (locker : Nat) (s : State) : Host.Outcome State Fault Refusal :=
  whenDue ((s.ciph.locker locker).state ≠ .unbound ∧ (s.ciph.locker locker).usage < 2 ^ 48) (countGrant locker s) s

/-- The state and generation a locker has or is about to have. -/
def Locker.ahead (l : Locker) : LockerState × Nat := l.change.getD (l.state, l.gen)

/-- The code of a locker state, as the sealed locker table has it (R516). -/
def lockerCode : LockerState → Nat
  | .unbound => 0
  | .isOpen => 1
  | .exhausted => 2
  | .withdrawn => 3

/-- A locker operation that Table 7-4 forbids. -/
def refuseLocker (p : Packet) (st : LockerState) (s : State) : State :=
  refuse p .lockerState (detailOf [(1, lockerCode st)]) s

/-- A change for the next bell after both Prefects hold it (R234). -/
def changeLocker (d : Nat) (st : LockerState) (gen : Nat) (s : State) : State :=
  setLocker d { s.ciph.locker d with change := some (st, gen) } s

/-- LOCKER_ROTATE: the generation rises by 1 from the change bell (R243). -/
def execLockerRotate (b : Binding) (tag : Nat) (peer : PeerAnswer) (s : State) : Host.Outcome State Fault Refusal :=
  onPacket b tag 0x0702 (fun p s =>
    let d := p.param 0 2
    let (st, gen) := (s.ciph.locker d).ahead
    if (st ≠ .isOpen ∧ st ≠ .exhausted) ∨ 65535 ≤ gen then refuseLocker p st s
    else pairWide p peer (fun s =>
      changed p (fields [(2, gen + 1), (6, 0)]) (changeLocker d .isOpen (gen + 1) s)) s) s

/-- LOCKER_WITHDRAW: from the change bell the domain's commands are refused; the reply waits for its staged writes
and the erasure of its keys (R244). -/
def execLockerWithdraw (b : Binding) (tag : Nat) (peer : PeerAnswer) (s : State) : Host.Outcome State Fault Refusal :=
  onPacket b tag 0x0703 (fun p s =>
    let d := p.param 0 2
    let (st, gen) := (s.ciph.locker d).ahead
    if st ≠ .isOpen ∧ st ≠ .exhausted then refuseLocker p st s
    else pairWide p peer (fun s =>
      let t := changeLocker d .withdrawn gen s
      { t with ciph := { t.ciph with
          withdrawing := t.ciph.withdrawing ++ [(d, (p.binding, p.tag))] } }) s) s

/-- LOCKER_RESTORE: a Withdrawn locker is Open again with its instance and generation (R244). -/
def execLockerRestore (b : Binding) (tag : Nat) (peer : PeerAnswer) (s : State) : Host.Outcome State Fault Refusal :=
  onPacket b tag 0x0704 (fun p s =>
    let d := p.param 0 2
    let (st, gen) := (s.ciph.locker d).ahead
    if st ≠ .withdrawn ∨ s.ciph.withdrawing.any (fun w => w.1 == d) then refuseLocker p st s
    else pairWide p peer (fun s => changed p [] (changeLocker d .isOpen gen s)) s) s

/-- LOCKER_QUERY (Table 15-12). -/
def execLockerQuery (b : Binding) (tag : Nat) (s : State) : Host.Outcome State Fault Refusal :=
  onPacket b tag 0x0705 (fun p s =>
    let l := s.ciph.locker (p.param 0 2)
    answered p (fields [(1, lockerCode l.state), (1, 0), (2, l.gen), (4, 0),
      (8, l.usage)]) [] s) s

/-- The change bell of a locker (R234, R243): a new generation counts from 0 and encrypts only under a grant of its
own. -/
def Locker.atBell (l : Locker) : Locker :=
  match l.change with
  | Option.none => l
  | some (st, gen) =>
    if st = .unbound then { Locker.none with check := l.check }
    else if gen = l.gen then { l with
      state := if st = .isOpen ∧ 2 ^ 48 - 2 ^ 24 ≤ l.usage then .exhausted else st, change := Option.none }
    else { l with
      state := st, gen := gen, usage := 0, granted := 0, warned := false, change := Option.none }

/-- Nothing of a domain is fetched and unanswered, staged or being destaged (R244, R166). -/
def State.domainIdle (s : State) (d : Nat) : Bool :=
  let vols := (s.ftl.roots.filter (fun r => r.domain == d && r.kind != .domain)).map (fun r => r.id)
  let nsids := (s.ftl.roots.filter (fun r => r.domain == d && r.kind != .domain)).map (fun r => r.nsid)
  !(s.stg.versions.any (fun v => vols.contains v.vol)) && !(s.jobs.destages.any (fun j => j.domain == d)) &&
  !(s.hq.ctxs.any (fun c => c.cap.nsid != 0 && nsids.contains c.cap.nsid && c.state != .completed &&
    c.state != .failed && c.state != .discarded))

/-- A withdrawal whose domain is idle: its keys are erased and the reply sent (R244). -/
def endWithdraw (w : Nat × (Binding × Nat)) (s : State) : State :=
  if (s.ciph.locker w.1).state = .withdrawn ∧ s.domainIdle w.1 = true then
    let t := { s with ciph := { s.ciph with
      withdrawing := s.ciph.withdrawing.filter (fun x => x != w)
      olderKeys := s.ciph.olderKeys.filter (fun k => k.2.1 != w.1) } }
    match t.cpi.packet w.2.1 w.2.2 0x0703 with
    | none => t
    | some p => changed p [] t
  else s

/-- The lockers at a bell. -/
def lockerBell (s : State) : State :=
  let s1 := { s with ciph := { s.ciph with
    lockers := s.ciph.lockers.map (fun (x : Nat × Locker) => (x.1, x.2.atBell)) } }
  s1.ciph.withdrawing.foldl (fun t w => endWithdraw w t) s1

end Sys2Proof.Machine
end

