-- ==== Sys2Proof/Machine/Halves.lean ====
section
/-! DEFINITION. The vault regions: the halves of a head, their groups, retirement and erasure (R384, R387). -/

namespace Sys2Proof.Machine

/-- The vault layout of an image: its number (R335). -/
def TtImage.vaultLayout (i : TtImage) : Option Nat := (List.range 16).find? (fun n => (i.layoutRec n).purpose == 2)

/-- The forms of a bay that a head owns in the primary with role bits 0 and 3 (R384). -/
def TtImage.vaultForms (i : TtImage) (head bay : Nat) : List Nat :=
  let primary := ((List.range i.sheetCount).find? (fun k => (i.sheet k).kind == 0)).getD 0
  (List.range i.formCount).filter (fun f =>
    (i.form f).bay == bay && bitAt 0 (i.form f).role && bitAt 3 (i.form f).role &&
    ownerUnder (i.sheet primary) (i.form f) == head)

/-- The erased block of a bay that a vault group takes. -/
def State.vaultBlock (s : State) (i : TtImage) (bay : Nat) : Option Nat :=
  let n := s.blocksPerDie bay
  (i.vaultForms s.sys.slot bay).findSome? (fun f =>
    (List.range 16).findSome? (fun d => (s.freeBlocks bay (16 * (i.form f).group + d) n).head?))

/-- The largest image a pool's sizes allow, segments and header included [bytes] (R384, R385). -/
def Pool.largestImage (p : Pool) : Nat :=
  let n := 2 ^ 18 * p.stagingGib
  let body := 384 + 72 * n + 40 * n + 4160 * n + 2 ^ 26 + 2 * p.tailMib * 2 ^ 20
  64 + body + 32 * (ceilDiv body 65536 + 1)

/-- A vault group opens on the next row of the vault layout; none without a block on each of its bays. -/
def openVaultGroup (i : TtImage) (layout : Nat) (s : State) : Option State :=
  let l := i.layoutRec layout
  let g := (getKey layout s.ec.openedIn).getD 0
  let bays := i.row (l.first + g % max l.rows 1) (l.k + l.m)
  let blocks := bays.map (s.vaultBlock i)
  if blocks.all Option.isSome then
    let bs := blocks.map (·.getD 0)
    let id := 2 ^ 63 * s.sys.slot + s.ec.opened
    let s1 := { s with ec := { s.ec with
      groups := s.ec.groups ++ [⟨id, layout, g % max l.rows 1, l.k, l.m, bs, [], false, true, [], 0, none, 0, [], [], [], s.tt.now, []⟩]
      opened := s.ec.opened + 1
      openedIn := putKey layout (g + 1) s.ec.openedIn } }
    some (bs.foldl (fun t b => openBlock b (s.dieTypeOf (blkBay b) (blkDie b)).number t)
      (journal (.groupOpen id layout (g % max l.rows 1) bs) s1))
  else none

/-- n vault groups open. -/
def openVaultGroups (i : TtImage) (layout : Nat) : Nat → State → Option State
  | 0, s => some s
  | n + 1, s => (openVaultGroup i layout s).bind (openVaultGroups i layout n)

/-- The strips per block of the vault groups' dies. -/
def State.stripsPerBlock (s : State) (bay : Nat) : Nat := (((s.bay.bayOf bay).ident.map (·.pages)).getD 4096) / 4

/-- The vault groups of one half under a layout of an image: what the largest image needs (R384, R387). -/
@[irreducible] def State.vaultNeed (s : State) (i : TtImage) (p : Pool) (layout : Nat) : Nat :=
  let l := i.layoutRec layout
  ceilDiv (ceilDiv p.largestImage 65536) (max (l.k * s.stripsPerBlock ((i.row l.first 1).getD 0 0)) 1)

/-- The records of this head's two halves, opened on groups from `first` on; what the old halves' records retired stays retired. -/
def Pool.halvesOpened (p : Pool) (head first need : Nat) : Pool :=
  let old := p.halves.filter (fun v => v.head == head)
  { p with halves := p.halves.filter (fun v => v.head != head) ++ (List.range 2).map (fun h =>
      ⟨head, h, (old.map (·.retired)).foldl max 0, first + h * need, need, true, 0⟩) }

/-- The blocks of a half. -/
def Ec.halfBlocks (e : Ec) (v : VaultHalf) : List Nat :=
  (e.groups.filter (fun g => v.first ≤ g.id && g.id < v.first + v.groups)).flatMap (·.blocks)

/-- A half of an earlier layout holds an image that is neither retired nor superseded (R384, R387). -/
def State.holdsImage (s : State) (v : VaultHalf) : Bool :=
  v.image != 0 && !s.pool.any (fun p => p.halves.any (fun w => w.head == v.head && (v.image ≤ w.retired || v.image < w.image))) &&
  !s.stg.oldHalves.any (fun w => w.head == v.head && v.image < w.image)

/-- The blocks of replaced halves become Pending-Erase once the image in them is retired or superseded (R384). -/
def freeOldHalves (s : State) : State :=
  (s.stg.oldHalves.filter (fun v => !s.holdsImage v)).foldl
    (fun t v => (s.ec.halfBlocks v).foldl (fun u b => freeBlock b u) t)
    { s with stg := { s.stg with oldHalves := s.stg.oldHalves.filter s.holdsImage } }

/-- The state with the groups of two new halves open: the records of this head's halves move to them by a configuration
write, and the old halves go once their images allow (R384). -/
def halvesMoved (i : TtImage) (p : Pool) (l : Nat) (s t : State) : State :=
  configWrite (freeOldHalves { t with
    pool := t.pool.map (fun q => q.halvesOpened s.sys.slot (2 ^ 63 * s.sys.slot + s.ec.opened) (s.vaultNeed i p l))
    stg := { t.stg with
      halvesDue := false
      oldHalves := t.stg.oldHalves ++ p.halves.filter (fun v => v.head == s.sys.slot && v.groups != 0) } })

/-- Both halves of this head open under the image in force (R384). Nothing changes while the erased blocks do not suffice. -/
def openHalves (s : State) : State :=
  match s.tt.active, s.pool with
  | some i, some p => (i.vaultLayout.bind (fun l => (openVaultGroups i l (2 * s.vaultNeed i p l) s).map (halvesMoved i p l s))).getD s
  | _, _ => s

/-- The vault layout or the vault-role forms of two images differ (R384). -/
def vaultDiffers (a b : TtImage) (head : Nat) : Bool :=
  a.vaultLayout != b.vaultLayout || (a.vaultLayout.map a.layoutRec) != (b.vaultLayout.map b.layoutRec) ||
  (List.range 64).any (fun bay => a.vaultForms head bay != b.vaultForms head bay)

/-- After a changeover the halves open when they are new or no longer fit; until they have moved, they are due (R384). -/
def halvesFor (old : Option TtImage) (s : State) : State :=
  match s.tt.active with
  | none => s
  | some i =>
    if old.all (fun o => vaultDiffers o i s.sys.slot) then
      openHalves { s with stg := { s.stg with halvesDue := true } }
    else s

/-- A half changed. -/
def setHalf (head half : Nat) (f : VaultHalf → VaultHalf) (s : State) : State :=
  { s with pool := s.pool.map (fun p => { p with
      halves := p.halves.map (fun v => if v.head == head && v.half == half then f v else v) }) }

/-- Images of a head up to an ID are retired by a configuration write (R387). -/
def retireImages (head upTo : Nat) (s : State) : State :=
  configWrite { s with
    pool := s.pool.map (fun p => { p with
      halves := p.halves.map (fun v => if v.head == head then { v with retired := max v.retired upTo } else v) })
    stg := { s.stg with images := if head = s.sys.slot then s.stg.images.filter (fun m => upTo < m.id) else s.stg.images } }

/-- Halves whose image is retired or superseded are erased in Recess: an erase of every block is queued; a half
without an image counts as erased once none of them is waiting or outstanding (R387). -/
def eraseHalves (s : State) : State :=
  match s.pool with
  | none => s
  | some p =>
    let done_ := fun (v : VaultHalf) => !(s.bay.waiting ++ s.bay.outstanding).any (fun o =>
      o.opcode == 3 && (s.ec.halfBlocks v).contains (blkKey o.bay o.die o.block))
    let s1 := (p.halves.filter (fun v => v.head == s.sys.slot && v.image == 0 && !v.erased && done_ v)).foldl (fun t v =>
      setHalf v.head v.half (fun w => { w with erased := true }) t) s
    (p.halves.filter (fun v => v.head == s.sys.slot && v.image != 0 &&
      (v.image ≤ v.retired || p.halves.any (fun w => w.head == v.head && v.image < w.image)))).foldl (fun t v =>
        (t.ec.halfBlocks v).foldl (fun u b => queueOp (blkOp 3 b 0 0 4 (.vaultStrip 0) []) u)
          (setHalf v.head v.half (fun w => { w with image := 0, erased := false }) t)) s1

end Sys2Proof.Machine
end

