-- ==== Sys2Proof/Machine/Holdup.lean ====
section
/-! DEFINITION. The capacitor bank: measurement, usable energy, dirty limit, write-through (R146 to R155). -/

namespace Sys2Proof.Machine

/-! ### Energy and limit (R151 to R153) -/

/-- P_vault + P_DIMM in units of 0.1 W (R151). -/
def Stg.power (t : Stg) : Nat := 1800 + t.pdimm

/-- E_meas in units of 0.1 J as a fraction, from C [µF], ESR [0.1 mΩ], V0 and V_min [mV] and η [percent] (R151). -/
def Stg.measured (t : Stg) (cap esr : Nat) : Nat × Nat :=
  let d := t.eff * t.vmin
  let n := t.vmin * d + 1000 * esr * t.power
  (t.eff * cap * (t.v0 ^ 2 * d ^ 2 - n ^ 2), 2 * 10 ^ 13 * d ^ 2)

/-- t_enter [ns]: the largest tPROG_max and tBERS_max over the die types of the vault-area forms (R152). -/
def State.tEnter (s : State) : Nat :=
  match s.tt.active with
  | none => 0
  | some i => ((List.range i.formCount).filter (fun f => bitAt 3 (i.form f).role)).foldl (fun a f =>
      let t := s.dieTypeOf (i.form f).bay (16 * (i.form f).group)
      max a (max t.tProg t.tBers)) 0

/-- F [MB/s], at most 200 GB/s; 0 without an image in force (R152). -/
def State.flushRate (s : State) : Nat :=
  match s.tt.active with
  | none => 0
  | some i => min (Config.flushRate i.term) 200000

/-- The dirty limit [MiB] for an energy of en/ed tenths of a joule: the largest D for which E_req does not exceed it,
rounded down and capped at the staging size (R152, R153). -/
def dirtyLimit (en ed power rate tEnter stagingMib : Nat) : Nat :=
  let b := 13 * power * ed
  min stagingMib
    ((1000 * (rate * 10 ^ 7 * en) - b * rate * tEnter - 1000 * b * 352321536) / (1035 * b * 2 ^ 20))

/-- The dirty limit of an energy on this head. -/
def State.limitFor (s : State) (en ed : Nat) : Nat :=
  dirtyLimit en ed s.stg.power s.flushRate s.tEnter (((s.pool.map (·.stagingGib)).getD 0) * 1024)

/-- The energy that counts now: of the last measurement, zero where it was invalid, the bank is reversed or V_min is zero
(R146, R149, R150). -/
def Stg.counted (t : Stg) : Nat × Nat := if t.reason = 3 ∨ t.vmin = 0 then (0, 1) else t.meas

/-! ### Measurement (R147 to R150) -/

/-- No measurement starts while PWR_FAIL_N is low or Vault mode is in force (R148). -/
def State.mayMeasure (s : State) : Bool :=
  s.pwr.stage != .vault && s.pwr.stage != .sealed && s.pwr.stage != .earlyWait && s.stg.measuring.isNone

/-- The resource of the test load (Table 15-5). -/
def holdupLoad : Nat := 0x05000000

/-- The limit while a measurement drains the bank: less V0 × I_test × 25 ms (R147). -/
def State.drainLimit (s : State) : Nat :=
  let (en, ed) := s.stg.counted
  s.limitFor (en - ceilDiv (s.stg.v0 * s.stg.itest * ed) 400000) ed

/-- A reversed bank: no test load, write-through, a recheck in 60 s (R150). -/
def reversedBank (s : State) : State :=
  event 0x4003 0 2 { s with stg := { s.stg with
    reason := 3, limitNext := some 0, retryAt := some (s.tt.now + secBells 60), measureDue := none } }

/-- HOLDUP_CHG_OFF is asserted or released (R147). -/
def holdCharger (on : Bool) (s : State) : State := drivePin 260 on { s with stg := { s.stg with chargerOff := on, stepAt := s.tt.now } }

/-- HOLDUP_TEST is asserted or released (R147). -/
def switchLoad (on : Bool) (s : State) : State := drivePin 259 on { s with stg := { s.stg with testLoad := on, stepAt := s.tt.now } }

/-- A measurement ends: HOLDUP_TEST is released and then HOLDUP_CHG_OFF (R147, R148). -/
def endMeasure (s : State) : State :=
  if s.stg.measuring.isNone then s
  else
    let t := holdCharger false (switchLoad false s)
    releaseClaims [holdupLoad] { t with stg := { t.stg with measuring := none } }

/-- A measurement starts: the limit is lowered and the charger is held off (R147). -/
def beginMeasure (ask : HoldupAsk) (opcode cls tag : Nat) (b : Option Binding) (s : State) : State :=
  let t := holdCharger true (claimAll [holdupLoad] opcode cls tag b s)
  { t with stg := { t.stg with
    measuring := some ask
    limitNext := some s.drainLimit
    retryAt := none
    measureDue := none
    lastRun := match ask with
      | .operator .. => t.stg.lastRun
      | .start => s.clockSec
      | .schedule => s.clockSec
      | .retry => t.stg.lastRun
    lastAsk := match ask with
      | .operator .. => some s.tt.now
      | .start => t.stg.lastAsk
      | .schedule => t.stg.lastAsk
      | .retry => t.stg.lastAsk } }

/-- An invalid measurement counts as zero energy and is repeated after 60 s (R149). -/
def invalidMeasure (why : Nat) (s : State) : State :=
  event 0x4003 0 why { s with stg := { s.stg with
    energy := 0, meas := (0, 1), reason := if s.stg.reason = 3 then 3 else 4, limitNext := some 0, retryAt := some (s.tt.now + secBells 60) } }

/-- A measurement of Damrid's own: it waits 60 s where a packet holds the load, with an event naming the holder
(R547). -/
def ownMeasure (ask : HoldupAsk) (sense : Int) (s : State) : State :=
  match s.cpi.holder holdupLoad with
  | some k => event 0xD002 0 (argOf [(0, holdupLoad), (4, k.opcode)]) { s with stg := { s.stg with
      measureDue := some (s.tt.now + secBells 60), retryAt := none } }
  | none =>
    if s.pins.faulty 259 ∨ s.pins.faulty 260 then invalidMeasure 1 { s with stg := { s.stg with measureDue := none } }
    else if sense < -500 then reversedBank s
    else beginMeasure ask 0 0 0 none s

/-- HOLDUP_MEASURE_SCHEDULED: at start-up, within 60 s of new values, and every 21,600 s of the trusted clock at the next
day boundary (R148); `sense` is the bank voltage at the pins, P less N [mV]. -/
def execHoldupMeasureScheduled (sense : Int) (s : State) : Host.Outcome State Fault Refusal :=
  whenDue (s.mayMeasure = true ∧ s.stg.vmin ≠ 0 ∧ ((∃ t ∈ s.stg.measureDue, t ≤ s.tt.now) ∨
      (s.period = 0 ∧ s.stg.lastRun + 21600 ≤ s.clockSec)))
    (ownMeasure .schedule sense s) s

/-- HOLDUP_RETRY_TIMER: 60 s after an invalid measurement or a reversed polarity the bank is measured again (R149,
R150). -/
def execHoldupRetryTimer (sense : Int) (s : State) : Host.Outcome State Fault Refusal :=
  whenDue (s.mayMeasure = true ∧ s.stg.vmin ≠ 0 ∧ ∃ t ∈ s.stg.retryAt, t ≤ s.tt.now) (ownMeasure .retry sense s) s

/-- The two registers SYS_HOLDUP_MEASURE returns. -/
def Stg.measRegister (t : Stg) : Nat := t.energy % 65536 * 2 ^ 48 + t.esr % 65536 * 2 ^ 32 + t.cap % 2 ^ 32

/-- A packet that asked for a measurement has its answer. -/
def answerMeasure (ask : Option HoldupAsk) (s : State) : State :=
  match ask with
  | some (.operator b tag) =>
    match s.cpi.packet b tag 0x0107 with
    | some p => changed p (fields [(8, s.stg.measRegister), (8, s.stg.when_)]) s
    | none => s
  | some .start => s
  | some .schedule => s
  | some .retry => s
  | none => s

/-- The reason after a valid measurement of en/ed: below the floor 1; write-through is left at 1.05 times the floor
(R154). -/
def Stg.reasonFor (t : Stg) (en ed : Nat) : Nat :=
  if t.vmin = 0 then 6
  else if en < t.floor * ed then 1
  else if t.reason ≠ 0 ∧ 20 * en < 21 * t.floor * ed then 1
  else 0

/-- A valid measurement is taken: the registers, the limit at the next bell, the reason (R151 to R154). -/
def validMeasure (cap esr : Nat) (s : State) : State :=
  let (en, ed) := s.stg.measured cap esr
  { s with
    stg := { s.stg with
      energy := en / ed
      meas := (en, ed)
      esr := esr
      cap := cap
      when_ := s.tt.now
      reason := if s.pins.isOpen 256 then 4 else s.stg.reasonFor en ed
      limitNext := some (s.limitFor en ed)
      retryAt := none }
    tally := { s.tally with
      energies := (en / ed, s.clockSec / 3600) :: s.tally.energies } }

/-- The sum of some samples. -/
def sumInt (l : List Int) : Int := l.foldl (· + ·) 0

/-- ESR [0.1 mΩ] from the samples before the load and the one 10 µs after it [µV] and I_test [10 mA]: the mean of the former
less the latter over I_test, rounded down (R147). -/
def esrOf (va : List Int) (v10 itest : Int) : Int := (sumInt va - va.length * v10) / (va.length * itest)

/-- What a least-squares line through n equally spaced samples y falls by from the first to the last, times n(n + 1):
6 Σ (n − 1 − 2i) y_i (R147). -/
def lineFall (l : List Int) : Int :=
  6 * sumInt ((List.range l.length).map (fun i => ((l.length : Int) - 1 - 2 * i) * l.getD i 0))

/-- C [µF] from the samples over 15 ms under load [µV] and I_test [10 mA], rounded down (R147). -/
def capOf (l : List Int) (itest : Int) : Int := itest * 150000000 * (l.length * (l.length + 1)) / lineFall l

/-- The 1 ms without the charger is over: the load is switched on; none is where a fault of its pins has come (R147,
Table 19-6). -/
def loadBell (s : State) : State :=
  if s.stg.measuring.isNone ∨ s.stg.testLoad ∨ s.tt.now < s.stg.stepAt + msBells 1 then s
  else if s.pins.faulty 259 ∨ s.pins.faulty 260 then answerMeasure s.stg.measuring (invalidMeasure 1 (endMeasure s))
  else switchLoad true s

/-- HOLDUP_MEASURE_COMPLETE: the load has been on for 20 ms and is released; ESR and C follow from the samples [µV]: `va` those
before the load, `v10` the one 10 µs after it came, `v5` and `v20` those from 5 ms to 20 ms in order, in two parts; and the
energy, the limit and the reason follow from them (R147, R149 to R154). -/
def execHoldupMeasureComplete (va : List Int) (v10 : Int) (v5 v20 : List Int) (isOpen : Bool) (s : State) :
    Host.Outcome State Fault Refusal :=
  whenDue (s.stg.measuring.isSome = true ∧ s.stg.testLoad = true ∧ s.stg.stepAt + msBells 20 ≤ s.tt.now)
    (let s1 := endMeasure s
     let i : Int := s.stg.itest
     let esr := esrOf va v10 i
     let cap := capOf (v5 ++ v20) i
     let bad := s.stg.itest = 0 ∨ va = [] ∨ lineFall (v5 ++ v20) ≤ 0 ∨ cap < 10000 ∨ 100000000 < cap ∨ sumInt va < va.length * v10 ∨
       10000 < esr ∨ sumInt va < va.length * (1000 * s.stg.vmin)
     answerMeasure s.stg.measuring
       (if isOpen ∨ s.pins.faulty 257 = true ∨ s.pins.faulty 258 = true then invalidMeasure 3 s1 else if bad then invalidMeasure 1 s1
        else validMeasure cap.toNat esr.toNat s1)) s

/-! ### Packets -/

/-- SYS_HOLDUP_CFG: the values of STG_HOLDUP_CFG and STG_HOLDUP_V0; a measurement follows within 60 s, and while V_min is
zero staging is write-through (R146, Table 15-6). -/
def execSysHoldupCfg (b : Binding) (tag : Nat) (s : State) : Host.Outcome State Fault Refusal :=
  onPacket b tag 0x0106 (fun p s =>
    let vmin := p.param 2 2
    changed p [] { s with stg := { s.stg with
      v0 := p.param 0 2
      vmin := vmin
      eff := p.param 4 1
      itest := p.param 6 2 % 4096
      pdimm := p.param 8 2 % 4096
      floor := p.param 10 2
      reason := if vmin = 0 then 6 else if s.stg.reason = 6 then 5 else s.stg.reason
      limitNext := if vmin = 0 then some 0 else s.stg.limitNext
      measureDue := some s.tt.now } }) s

/-- SYS_HOLDUP_MEASURE: RESOURCE_CLAIMED while any measurement runs, RATE_LIMITED within 60 s of the last request, else
a measurement, answered when it ends (R148). -/
def execSysHoldupMeasure (b : Binding) (tag : Nat) (sense : Int) (s : State) : Host.Outcome State Fault Refusal :=
  onPacket b tag 0x0107 (fun p s =>
    match s.cpi.holder holdupLoad with
    | some k => refuse p .resourceClaimed k.detail s
    | none =>
      if s.stg.lastAsk.any (fun t => s.tt.now < t + secBells 60) then refuse p .rateLimited noDetail s
      else if s.pins.faulty 259 ∨ s.pins.faulty 260 then answerMeasure (some (.operator b tag)) (invalidMeasure 1 s)
      else if sense < -500 then answerMeasure (some (.operator b tag)) (reversedBank s)
      else beginMeasure (.operator b tag) 0x0107 p.cls p.tag (some b) s) s

/-- The limit due at a bell: the one a measurement set, else, while none runs, what the energy that counts gives under the pool
and the image in force (R153). -/
def State.limitDue (s : State) : Option Nat :=
  match s.stg.limitNext with
  | some l => some l
  | none => if s.stg.measuring.isSome then none else some (s.limitFor s.stg.counted.1 s.stg.counted.2)

/-- The limit in force from a bell, with an event for a change above 1 GiB (R153, R154). -/
def limitBell (s : State) : State :=
  match s.limitDue with
  | none => s
  | some l =>
    let t : State := { s with stg := { s.stg with limitMib := l, limitNext := none } }
    if l + 1024 < s.stg.limitMib ∨ s.stg.limitMib + 1024 < l then event 0x4002 10 l t else t

/-- An entry to or exit from write-through is an event (R154). -/
def throughBell (s : State) : State :=
  if s.through = s.stg.told then s
  else event 0x4001 10 (argOf [(0, if s.through then 1 else 2), (1, s.throughReason)])
    { s with stg := { s.stg with told := s.through } }

end Sys2Proof.Machine
end

