-- ==== Sys2Proof/Machine/Reservations.lean ====
section
/-! DEFINITION. Reservations, which change at the fetch of their commands (R109, Table 3-5). -/

namespace Sys2Proof.Machine

/-- The reservation record of a namespace. -/
def Hq.reservation (h : Hq) (nsid : Nat) : Reservation :=
  (h.reservations.find? (fun r => r.nsid == nsid)).getD ⟨nsid, 0, [], none, 0, false⟩

/-- A reservation record replaced. -/
def setReservation (r : Reservation) (s : State) : State :=
  { s with hq := { s.hq with reservations := s.hq.reservations.filter (fun x => x.nsid != r.nsid) ++ [r] } }

/-- The key a host is registered with. -/
def Reservation.keyOf (r : Reservation) (host : Bytes) : Option Nat := (r.keys.find? (fun k => k.1 == host)).map (·.2)

/-- All Registrants types: every registrant holds the reservation. -/
def Reservation.all (r : Reservation) : Bool := 5 ≤ r.rtype

/-- A host holds the reservation. -/
def Reservation.holds (r : Reservation) (host : Bytes) : Bool :=
  r.holder.isSome && (r.holder == some host || (r.all && (r.keyOf host).isSome))

/-- A registrant goes; a reservation it alone held goes with it. -/
def Reservation.without (r : Reservation) (gone : Bytes × Nat → Bool) : Reservation :=
  let left := r.keys.filter (fun k => !gone k)
  let held := r.holder.any (fun h => left.any (fun k => k.1 == h))
  if held then { r with keys := left }
  else if r.all && left != [] && r.holder.isSome then { r with keys := left, holder := left.head?.map (·.1) }
  else { r with keys := left, holder := none, rtype := 0 }

/-- A reservation event is told to a host's controllers unless masked: 1 registration preempted, 2 reservation released,
3 reservation preempted. -/
def tellReservation (hosts : List Bytes) (kind nsid : Nat) (s : State) : State :=
  (s.hq.controllers.filter (fun c => hosts.contains c.hostId && !bitAt kind ((getKey 0x82 c.features).getD 0))).foldl
    (fun t c => notify c.cntlid 6 0 0x80 (setController { c with notices := c.notices ++ [(kind, nsid)] } t)) s

/-- Capsules that wait in a queue complete with a status and leave it, unfetched: SQHD does not move (R94). -/
def endCapsules (q : Queue) (hit : Nat × Capsule × Nat → Bool) (st : NvmeStatus) (s : State) : State :=
  let s0 := if q.capsules.head?.any hit then unask q s else s
  match s0.hq.queue q.cntlid q.qid with
  | none => s0
  | some y => openWindows ((q.capsules.filter hit).foldl (fun u c =>
      sendCompletion q.cntlid q.qid c.1 c.2.1.slba c.2.1.nsid st 0 [] u)
      (setQueue { y with capsules := y.capsules.filter (fun c => !hit c) } s0))

/-- The queued commands of preempted hosts on a namespace are aborted (Abort reaches only what is not fetched). -/
def abortQueued (hosts : List Bytes) (nsid : Nat) (s : State) : State :=
  s.hq.queues.foldl (fun t q =>
    if (t.hq.controller q.cntlid).any (fun c => hosts.contains c.hostId) then endCapsules q (fun c => c.2.1.nsid == nsid) nvmeAborted t
    else t) s

/-- A key of a reservation command's data. -/
def resKey (c : Capsule) (off : Nat) : Nat := fieldAt (c.data.getD []) off 8

/-- Reservation Register of a host: registers, unregisters or replaces its key; CPTPL sets persistence. -/
def registerKey (c : Capsule) (host : Bytes) (s : State) : NvmeStatus × State :=
  let r := s.hq.reservation c.nsid
  let act := c.cdw10 % 8
  let free := bitAt 3 c.cdw10
  let cptpl := bitField 31 30 c.cdw10
  let mine := r.keyOf host
  let r1 := { r with ptpl := if cptpl = 3 then true else if cptpl = 2 then false else r.ptpl }
  let put := { r1 with gen := r.gen + 1, keys := r.keys.filter (fun k => k.1 != host) ++ [(host, resKey c 8)] }
  if act = 0 then
    (if mine.isSome ∧ mine ≠ some (resKey c 8) then (nvmeReserved, s)
     else (nvmeOk, setReservation (if mine.isSome then r1 else put) s))
  else if act = 1 then
    (if mine.isNone ∨ (¬ free ∧ mine ≠ some (resKey c 0)) then (nvmeReserved, s)
     else
      let y := { r1.without (fun k => k.1 == host) with gen := r.gen + 1 }
      let s1 := setReservation y s
      (nvmeOk, if r.holder.isSome ∧ y.holder.isNone ∧ 3 ≤ r.rtype then tellReservation (y.keys.map (·.1)) 2 c.nsid s1 else s1))
  else if act = 2 then
    (if ¬ free ∧ (mine.isNone ∨ mine ≠ some (resKey c 0)) then (nvmeReserved, s) else (nvmeOk, setReservation put s))
  else (nvmeBadField, s)

/-- Reservation Acquire of a host: acquires a reservation of one of the six types, or preempts. -/
def acquireReservation (c : Capsule) (host : Bytes) (s : State) : NvmeStatus × State :=
  let r := s.hq.reservation c.nsid
  let act := c.cdw10 % 8
  let rtype := bitField 15 8 c.cdw10
  let other := resKey c 8
  if r.keyOf host ≠ some (resKey c 0) then (nvmeReserved, s)
  else if rtype = 0 ∨ 6 < rtype ∨ 2 < act then (nvmeBadField, s)
  else if act = 0 then
    (if r.holder.isNone then (nvmeOk, setReservation { r with holder := some host, rtype := rtype } s)
     else if r.holds host ∧ r.rtype = rtype then (nvmeOk, s)
     else (nvmeReserved, s))
  else
    let wide := r.all && r.holder.isSome && other == 0
    let gone := fun (k : Bytes × Nat) => k.1 != host && (if wide then true else k.2 == other)
    let hit := r.holder.any (fun h => r.keyOf h == some other) || wide
    let lost := (r.keys.filter gone).map (·.1)
    if ¬ hit ∧ lost = [] then (nvmeReserved, s)
    else
      let keys := r.keys.filter (fun k => !gone k)
      let y := if hit then { r with keys := keys, holder := some host, rtype := rtype, gen := r.gen + 1 }
        else { r with keys := keys, gen := r.gen + 1 }
      let s1 := tellReservation lost 1 c.nsid (setReservation y s)
      let s2 := if hit ∧ r.holder.isSome then tellReservation (r.holder.toList.filter (· != host)) 3 c.nsid s1 else s1
      (nvmeOk, if act = 2 then abortQueued lost c.nsid s2 else s2)

/-- Reservation Release of a host: releases the reservation, or clears reservation and registrants. -/
def releaseReservation (c : Capsule) (host : Bytes) (s : State) : NvmeStatus × State :=
  let r := s.hq.reservation c.nsid
  let act := c.cdw10 % 8
  let others := (r.keys.map (·.1)).filter (· != host)
  if r.keyOf host ≠ some (resKey c 0) then (nvmeReserved, s)
  else if act = 0 then
    (if ¬ r.holds host then (nvmeOk, s)
     else if bitField 15 8 c.cdw10 ≠ r.rtype then (nvmeBadField, s)
     else
      let s1 := setReservation { r with holder := none, rtype := 0 } s
      (nvmeOk, if 3 ≤ r.rtype then tellReservation others 2 c.nsid s1 else s1))
  else if act = 1 then
    (nvmeOk, tellReservation others 3 c.nsid (setReservation { r with holder := none, rtype := 0, keys := [], gen := r.gen + 1 } s))
  else (nvmeBadField, s)

/-- The opcodes whose commands change a reservation. -/
def reserves (c : Capsule) : Bool := c.opcode == 0x0D || c.opcode == 0x11 || c.opcode == 0x15

/-- A reservation command takes effect at its fetch, so that every command fetched after it meets what it set (R109). -/
def reserve (c : Capsule) (host : Bytes) (s : State) : NvmeStatus × State :=
  if c.opcode = 0x0D then registerKey c host s
  else if c.opcode = 0x11 then acquireReservation c host s
  else if c.opcode = 0x15 then releaseReservation c host s
  else (nvmeOk, s)

/-- The fetched reservation command of an opcode. -/
def onReservation (opcode cntlid qid cid : Nat) (f : Ctx → Reservation → State → State) (s : State) :
    Host.Outcome State Fault Refusal :=
  match s.hq.ctx cntlid qid cid with
  | none => .next s
  | some x => whenDue (x.cap.opcode = opcode ∧ x.state = .fetched) (f x (s.hq.reservation x.cap.nsid) s) s

/-- RESERVATION_REGISTER: completes with what its fetch decided (R109, Table 3-5). -/
def execReservationRegister (cntlid qid cid : Nat) (s : State) : Host.Outcome State Fault Refusal :=
  onReservation 0x0D cntlid qid cid (fun x _ s => complete x (x.decided.getD nvmeOk) 0 [] s) s

/-- RESERVATION_ACQUIRE: completes with what its fetch decided (R109). -/
def execReservationAcquire (cntlid qid cid : Nat) (s : State) : Host.Outcome State Fault Refusal :=
  onReservation 0x11 cntlid qid cid (fun x _ s => complete x (x.decided.getD nvmeOk) 0 [] s) s

/-- RESERVATION_RELEASE: completes with what its fetch decided (R109). -/
def execReservationRelease (cntlid qid cid : Nat) (s : State) : Host.Outcome State Fault Refusal :=
  onReservation 0x15 cntlid qid cid (fun x _ s => complete x (x.decided.getD nvmeOk) 0 [] s) s

/-- RESERVATION_REPORT: the extended data structure (Table 3-5); a request for the other finds the 128-bit host
identifiers inconsistent with it. -/
def execReservationReport (cntlid qid cid : Nat) (s : State) : Host.Outcome State Fault Refusal :=
  onReservation 0x0E cntlid qid cid (fun x r s =>
    if ¬ bitAt 0 x.cap.cdw11 then complete x (0, 0x18, true, 0) 0 [] s
    else
      let cntl := fun (h : Bytes) => ((s.hq.controllers.find? (fun c => c.hostId == h)).map (·.number)).getD 0xFFFF
      let d := fields [(4, r.gen), (1, r.rtype), (2, r.keys.length), (2, 0), (1, flagBit r.ptpl), (14, 0)] ++ zeros 40 ++
        r.keys.flatMap (fun k => fields [(2, cntl k.1), (1, flagBit (r.holds k.1)), (5, 0), (8, k.2)] ++ fitBytes 16 k.1 ++ zeros 32)
      complete x nvmeOk 0 (fitBytes (4 * (x.cap.cdw10 + 1)) d) s) s

end Sys2Proof.Machine
end

