-- ==== Sys2Proof/Machine/HostFetch.lean ====
section
/-! DEFINITION. Capsules, their checks and admission, fetch and fetch sequence numbers (R93 to R104, R109, R117,
R295, R616). -/

namespace Sys2Proof.Machine

/-- A controller's host NQN is marked management-capable for its subsystem, and the class of its packets (R96). -/
def Hq.managed (h : Hq) (cntlid : Nat) : Option Nat :=
  (h.controller cntlid).bind (fun c =>
    (h.hosts.find? (fun b => b.nqn == c.nqn && b.subsystem == c.subsystem && b.cls != 0)).map (·.cls))

/-- Admin opcodes a controller supports (R95, R96). -/
def adminOpcodes (managed : Bool) : List Nat :=
  [0x01, 0x02, 0x08, 0x09, 0x0A, 0x0C, 0x18, 0x7F] ++ (if managed then [0x10, 0x11, 0xC0, 0xC1, 0xC2, 0xC3] else [])

/-! ### Checks at fetch -/

/-- The I/O opcodes of Table 3-5. -/
def ioOpcodes : List Nat := [0x00, 0x01, 0x02, 0x05, 0x08, 0x09, 0x0C, 0x0D, 0x0E, 0x11, 0x15]

/-- The command carries an LBA range. -/
def hasRange (c : Capsule) : Bool := [0x01, 0x02, 0x05, 0x08, 0x09, 0x0C].contains c.opcode

/-- The command reads host data's place: Read, Compare or Verify. -/
def readsData (c : Capsule) : Bool := c.opcode == 0x02 || c.opcode == 0x05 || c.opcode == 0x0C

/-- The command writes (R104). -/
def writesData (c : Capsule) : Bool := c.opcode == 0x01 || c.opcode == 0x08 || c.opcode == 0x09

/-- The blocks a command touches. -/
def capRanges (c : Capsule) : List (Nat × Nat) := if c.opcode = 0x09 then c.ranges else [(c.slba, c.nlb)]

/-- Access to a namespace under a reservation (R109): the holder always, registrants under types 3 to 6, readers under
the Write Exclusive types 1, 3, 5. PRESUMED: NVMe gives the table of types. -/
def Reservation.admits (r : Reservation) (host : Bytes) (write : Bool) : Bool :=
  r.holder.isNone || r.holder == some host ||
  (3 ≤ r.rtype && r.keys.any (fun k => k.1 == host)) ||
  (!write && (r.rtype == 1 || r.rtype == 3 || r.rtype == 5))

/-- A command conflicts with the reservation in force. -/
def Hq.conflicts (h : Hq) (host : Bytes) (c : Capsule) : Bool :=
  (h.reservations.find? (fun r => r.nsid == c.nsid)).any (fun r =>
    (readsData c && !r.admits host false) || ((writesData c || c.opcode == 0x00) && !r.admits host true))

/-- The map pages, content-table pages and tail pages a command of a range needs: tree and page key (R295, R373). The content-table and
tail pages of a grain are known once its map page is resident. -/
def State.pagesFor (s : State) (c : Capsule) : List (Nat × Nat) :=
  match s.ftl.ofNsid c.nsid with
  | none => []
  | some r =>
    (capRanges c).flatMap (fun g =>
      if g.2 = 0 then [] else
        ((List.range ((g.1 + g.2 - 1) / 4 - g.1 / 4 + 1)).map (g.1 / 4 + ·)).flatMap (fun k =>
          let map := (r.id, k / 504)
          if s.ftl.absent.contains map then [map]
          else map :: (match r.cidOf k with
            | none => []
            | some cid => if cid = 0 then [] else (2 ^ 32 + cidOwner cid, cid % 2 ^ 47 / 126) ::
                (if (s.ftl.ctRec cid).any (fun q => bitAt 9 q.flags) then [(2 ^ 33 + cidOwner cid, cid % 2 ^ 47 / 15)] else [])))) |>.eraseDups

/-- The bytes a command transfers: its blocks, with their metadata where the format has it (Table 3-12). -/
def State.transferBytes (s : State) (c : Capsule) : Nat := c.nlb * (4096 + (if s.hasMeta c.nsid then 64 else 0))

/-- What ends a command at its fetch, with no effect; the order of the checks is a DESIGN CHOICE (Tables 3-12, 3-14,
R95, R109). The reservation is checked by the head that orders the namespace, which is where its commands are fetched. -/
def State.fetchCheck (s : State) (host : Bytes) (subsystem : Nat) (c : Capsule) : Option NvmeStatus :=
  if ¬ ioOpcodes.contains c.opcode then some nvmeBadOpcode
  else if c.opcode = 0x00 ∧ c.nsid = 0xFFFFFFFF then none
  else
    match s.ftl.ofNsid c.nsid with
    | none => some (nvmeOf .volumeUnknown)
    | some r =>
      let write := writesData c
      let locker := s.ciph.locker r.domain
      let quotaHit := c.opcode == 0x01 && r.quota != 0 && r.quota ≤ r.mapped
      if r.subsystem ≠ subsystem ∨ r.state = .deleting then some (nvmeOf .volumeUnknown)
      else if c.opcode = 0x09 ∧ 256 < c.ranges.length then some nvmeBadField
      else if hasRange c ∧ (capRanges c).any (fun g => 4 * r.size < g.1 + g.2) then some nvmeRange
      else if s.ownsGroup r.ana ∧ s.hq.conflicts host c then some nvmeReserved
      else if (c.opcode = 0x01 ∨ c.opcode = 0x02 ∨ c.opcode = 0x05) ∧ 4194304 < s.transferBytes c then some nvmeBadField
      else if ¬ c.tcp ∧ (c.opcode = 0x01 ∨ c.opcode = 0x02 ∨ c.opcode = 0x05) ∧ c.sgl < s.transferBytes c then some nvmeSgl
      else if locker.state = .withdrawn then some (nvmeOf .lockerWithdrawn)
      else if s.ec.offline.contains r.layout then some (nvmeOf .volumeOffline)
      else if (c.opcode = 0x01 ∨ c.opcode = 0x08) ∧ s.ftl.spareState = 3 then some (nvmeOf .poolReadOnly)
      else if quotaHit then some (nvmeOf .quotaExceeded)
      else if (c.opcode = 0x01 ∨ c.opcode = 0x08) ∧ locker.state = .exhausted then some (nvmeOf .keyExhausted)
      else if ¬ write ∧ readsData c ∧ (s.pagesFor c).any (fun p => s.ftl.lostPages.contains p) then some (nvmeOf .metadataLost)
      else none

/-! ### Admission (R52 to R54, R130) -/

/-- The bytes a link share of the Corridor carries in a period: 240 GB/s in each direction over 32 lanes (R65); no more than the
share that the peer's sheet gives the peer (R84). -/
def State.corridorShare (s : State) (cls : Nat) : Nat :=
  match s.tt.active with
  | none => 0
  | some i =>
    let own := i.share (i.sheet s.tt.sheet) s.sys.slot 0 s.period cls
    let peer := i.share (i.sheet (s.sheetNumber (s.sheetOfHead (1 - s.sys.slot)))) (1 - s.sys.slot) 0 s.period cls
    3840000 * s.corr.lanes / 32 * (if s.paired then min own peer else own) / 1024

/-- The bytes of a MIRROR_DATA message of some blocks (Table 4-5). -/
def mirrorBytes (blocks : Nat) (pi : Bool) : Nat := 52 + 4096 * blocks + (if pi then 64 * blocks else 0)

/-- The bytes a write's mirror messages take. -/
def State.mirrorCost (s : State) (c : Capsule) : Nat :=
  let n := stagedBlocks c
  52 * (n / 32 + 1) + 4096 * n + (if s.hasMeta c.nsid then 64 * n else 0)

/-- The service class of a command's volume (R66). -/
def State.serviceOf (s : State) (c : Capsule) : Nat := ((s.ftl.ofNsid c.nsid).map (·.service)).getD 0

/-- Staging and the Corridor have room for a write; the share of the period, and the service class's part of it, may go into debt by
a command above one message (R54, R55, R130). -/
def State.admitsWriteNow (s : State) (c : Capsule) : Bool :=
  let share := min (s.mirrorCost c) (mirrorBytes 32 true)
  s.admitsWrite (writeRanges c) (stagedBlocks c) && !s.ftl.tailFull &&
  (!s.paired || (s.tt.mirrorUsed + share ≤ s.corridorShare 1 && s.classPays (s.serviceOf c) 5 share))

/-- A write is admitted: its blocks count until they are placed, the credit and the share are spent. -/
def payWrite (c : Capsule) (s : State) : State :=
  let n := stagedBlocks c
  let s1 := if s.paired then payClass (s.serviceOf c) 5 (s.mirrorCost c) s else s
  { s1 with
    stg := { s1.stg with admitted := s1.stg.admitted + n, credit := if s.paired then s1.stg.credit - n else s1.stg.credit }
    tt := { s1.tt with mirrorUsed := if s.paired then s1.tt.mirrorUsed + s.mirrorCost c else s1.tt.mirrorUsed } }

/-- The grains of a range with blocks bound to flash at a number: the CID and the quarters of each (R53, Table 2-16). -/
def State.slotsFor (s : State) (c : Capsule) (seq : Nat) : List (Nat × List Nat) :=
  let l := (List.range c.nlb).filterMap (fun i => match s.bindBlock c.nsid (c.slba + i) seq with
    | .flash cid q => some ((c.slba + i) / 4, (cid, q))
    | _ => none)
  (l.map (·.1)).eraseDups.map (fun g =>
    let here := (l.filter (fun p => p.1 == g)).map (·.2)
    ((here.head?.map (·.1)).getD 0, here.map (·.2)))

/-- What a read pays, grain by grain (Table 2-16). -/
def State.readCosts (s : State) (c : Capsule) (seq : Nat) : List (EngineKind × Nat) :=
  let l := s.slotsFor c seq
  [(.dec, sumNat (l.map (fun p => 4096 * p.2.length))),
   (.cip, sumNat (l.map (fun p => match s.ftl.ctRec p.1 with
     | none => 0
     | some r => slotBytes (psaTier r.psa) (bitAt 9 r.flags))))]

/-- The service class of a command has its share of what a read pays; bytes above a bucket's whole limit are the bucket's affair
alone (R52, R55). -/
def State.classReads (s : State) (c : Capsule) (costs : List (EngineKind × Nat)) : Bool :=
  costs.all (fun k => s.limitNow 1 k.1 < k.2 || s.classPays (s.serviceOf c) (resourceOf k.1) k.2)

/-- A read pays its buckets and its service class's share of them, and uses its pages (R294). -/
def payRead (c : Capsule) (costs : List (EngineKind × Nat)) (s : State) : State :=
  touchPages (s.pagesFor c) (costs.foldl (fun t k => payClass (s.serviceOf c) (resourceOf k.1) k.2 t) (payAll 1 costs s))

/-- A slot lies on a die. -/
def onDie (bay die psa : Nat) : Bool := blkBay (psaBlk psa) == bay && blkDie (psaBlk psa) == die

/-- The grains of a fetched read on a die whose slot reads have not started. -/
def State.grainsOn (s : State) (bay die : Nat) (x : Ctx) : Nat :=
  let l := (x.reads.zipIdx).filterMap (fun r => match r.1.1, r.1.2 with
    | .flash cid _, none => if (s.ftl.ctRec cid).any (fun t => onDie bay die t.psa) then some ((x.lba + r.2) / 4) else none
    | _, _ => none)
  l.eraseDups.length

/-- The reads ahead on a die: foreground reads admitted and not completed, and a Recess read or a CALIBRATE in progress
(R53, R404). -/
def State.readsAhead (s : State) (bay die : Nat) : Nat :=
  (s.jobs.reads.filter (fun r => readClass r.why == 1 && r.stage == .die && onDie bay die r.psa)).length +
  sumNat ((s.hq.ctxs.filter (fun x => x.state == .fetched)).map (s.grainsOn bay die)) +
  ((s.bay.onDie bay die).filter (fun o => (o.opcode == 1 && o.cls == 4) || o.opcode == 7)).length

/-- The running programme or erase of a die is below its suspends (R53). -/
def State.dieYields (s : State) (bay die : Nat) : Bool :=
  (s.bay.onDie bay die).all (fun o => !(o.opcode == 2 || o.opcode == 3) || o.suspends < (s.dieTypeOf bay die).smax)

/-- A die admits n foreground reads of one command: each with at most one read ahead of it, where those before it of the same
command count. DESIGN CHOICE: on a die with no read ahead a command's reads are admitted together, however many, since a command
is fetched whole and would else never be. -/
def State.dieAdmits (s : State) (bay die n : Nat) : Bool :=
  (s.readsAhead bay die = 0 || s.readsAhead bay die + n ≤ 2) && s.dieYields bay die

/-- The die of the copy of a metadata page that would be read next admits the read (R53). -/
def State.metaAdmits (s : State) (mpa : Nat) : Bool :=
  let b := (s.metaPlace mpa (s.nextCopy mpa 0)).1
  s.dieAdmits (blkBay b) (blkDie b) 1

/-- The bytes a bay's link carries in a period at a width and rate: 120,000 for a lane at 64 GT/s (Table 2-12). -/
def linkBytes (width rate : Nat) : Nat := 120000 * width * 2 ^ (rate - 4) / 4

/-- The bytes a class share of a bay carries in a period, scaled where its link is Degraded (R422). -/
def State.bayShare (s : State) (bay cls : Nat) : Nat :=
  match s.tt.active with
  | none => 0
  | some i => linkBytes (s.bay.bayOf bay).width (s.bay.bayOf bay).rate * i.share (i.sheet s.tt.sheet) s.sys.slot (bay + 1) s.period cls / 1024

/-- The bytes of the foreground reads a bay takes in this period. -/
def State.bayReads (s : State) (bay : Nat) : Nat :=
  sumNat ((s.bay.waiting ++ s.bay.outstanding.filter (fun o => o.posted == some s.tt.now)).map (fun o =>
    if o.bay = bay ∧ o.opcode = 1 ∧ o.cls = 1 then 4096 * (bitsOf 4 o.quarters).length + 256 else 0))

/-- A Degraded bay admits a foreground read only into the scaled class-0 share of the period (R422). -/
def State.bayAdmits (s : State) (bay tier : Nat) : Bool :=
  (s.bay.bayOf bay).state != .degraded || s.bayReads bay + 4096 * tier + 256 ≤ s.bayShare bay 0

/-- A read of a range is admitted now: buckets, service class, dies, resident pages (R52, R53, R55, R295). -/
def State.admitsRead (s : State) (c : Capsule) (seq : Nat) : Bool :=
  let psas := (s.slotsFor c seq).filterMap (fun p => (s.ftl.ctRec p.1).map (·.psa))
  s.canPayAll 1 (s.readCosts c seq) && s.classReads c (s.readCosts c seq) &&
  psas.all (fun p =>
    let bay := blkBay (psaBlk p)
    let die := blkDie (psaBlk p)
    s.dieAdmits bay die (psas.filter (onDie bay die)).length && s.bayAdmits bay (psaTier p)) &&
  (s.pagesFor c).all (fun p => !s.ftl.absent.contains p)

/-- The next fetch sequence number of a namespace; the first is 1, 0 being no write. -/
def Hq.nextFsn (h : Hq) (nsid : Nat) : Nat := (getKey nsid h.fsn).getD 1

/-- A number is taken. -/
def useFsn (nsid : Nat) (s : State) : State :=
  { s with hq := { s.hq with fsn := putKey nsid (s.hq.nextFsn nsid + 1) s.hq.fsn } }

/-- A command touches a grain whose vault entry is not restored yet (R616). -/
def State.restoringOn (s : State) (c : Capsule) : Bool :=
  s.stg.restoring.any (fun g => g.1 == c.nsid && hasRange c && (capRanges c).any (fun r => r.2 != 0 && r.1 / 4 ≤ g.2 && g.2 ≤ (r.1 + r.2 - 1) / 4))

/-- Contexts a capsule takes: one, or one for each half of a fused pair. -/
def ctxsOf (c : Capsule) : Nat := if c.fused = 1 then 2 else 1

/-- The contexts in use, and those kept for capsules whose number has been asked of the peer (R92). -/
def Hq.load (h : Hq) : Nat :=
  h.ctxs.length + sumNat ((h.queues.filter (fun q => q.asked.isSome)).map (fun q => ((q.capsules.head?.map (fun c => ctxsOf c.2.1))).getD 0))

/-- The head has room for the contexts of a command: 4,194,304 in all (R92). -/
def Hq.hasRoom (h : Hq) (c : Capsule) : Bool := h.load + ctxsOf c ≤ 4194304

/-- The head fetches at all (R118, R124, R614). -/
def State.fetches (s : State) : Bool := s.pwr.stage == .service && s.corr.roll != .selfFenced && s.hq.ps != 3

/-! ### Fetch -/

/-- The context of a capsule. -/
def newCtx (cntlid qid cid : Nat) (cap : Capsule) (host : Bytes) (seq now : Nat) : Ctx where
  cntlid := cntlid
  qid := qid
  cid := cid
  cap := cap
  host := host
  state := .fetched
  seq := seq
  at_ := now
  mirrors := []
  commits := []
  blocks := []
  committed := false
  reads := []
  through := []
  sent := false
  pulled := 0
  decided := none

/-- A Compare whose capsule carries its data has it at once. -/
def withCapsuleData (x : Ctx) (s : State) : Ctx :=
  match x.cap.data with
  | none => x
  | some d =>
    if x.cap.opcode = 0x05 then { x with blocks := (List.range x.cap.nlb).map (fun i =>
      (i, slice d (4096 * i) 4096 ++ (if s.hasMeta x.cap.nsid then slice x.cap.pi (64 * i) 64 else []))) }
    else x

/-- A capsule leaves its queue entry: SQHD advances (R94), its receive buffer is free, the fetch is counted, a wait is (Table 17-3,
R55). -/
def leaveQueue (q : Queue) (n : Nat) (s : State) : State :=
  let at_ := (q.capsules.head?.map (·.2.2)).getD s.tt.now
  let s1 := openWindows (setQueue { q with
    capsules := q.capsules.drop n, asked := none, granted := none, sqhd := (q.sqhd + n) % max q.size 1 } s)
  let s2 := tallyAdd 0x04 0 n s1
  if at_ < s.tt.now then tallyAdd 0x04 5 (s.tt.now - at_) { s2 with tally := s2.tally.noteWait q.port (s.tt.now - at_) } else s2

/-- Contexts are added, and the versions they read count them. -/
def addCtxs (l : List Ctx) (s : State) : State := noteReaders { s with hq := { s.hq with ctxs := s.hq.ctxs ++ l } }

/-- The head of a connection is fetched with a number: one capsule, or both of a fused pair (R99, R104). A read of a
namespace this head owns is bound now (R107); a reservation command takes effect now, and the peer's copy of the record follows
(R109). -/
def takeCapsule (q : Queue) (seq : Nat) (owned : Bool) (host : Bytes) (s : State) : State :=
  match q.capsules with
  | [] => s
  | (cid, cap, _) :: rest =>
    let n := ctxsOf cap
    let x := withCapsuleData (newCtx q.cntlid q.qid cid cap host seq s.tt.now) s
    let y := if owned ∧ readsData cap then bindReads x s else x
    let s1 := leaveQueue q n s
    let half := match rest with
      | (cid2, cap2, _) :: _ => if cap.fused = 1 then [newCtx q.cntlid q.qid cid2 cap2 host seq s.tt.now] else []
      | [] => []
    if reserves cap then
      let (st, s2) := reserve cap host s1
      addCtxs [{ y with decided := some st }]
        (if owned ∧ s.paired ∧ st = nvmeOk then emit (.reservation cap host) s2 else s2)
    else addCtxs ([y] ++ half) s1

/-- The first affected block of a command that fails at its fetch: for a range past the end the first block there (Table 3-7). -/
def State.affected (s : State) (c : Capsule) : Nat :=
  match s.ftl.ofNsid c.nsid with
  | none => c.slba
  | some r => match (capRanges c).find? (fun g => 4 * r.size < g.1 + g.2) with
    | some g => max g.1 (4 * r.size)
    | none => ((capRanges c).head?.map (·.1)).getD c.slba

/-- The head of a connection is fetched and ends with an error at once. -/
def takeFailed (q : Queue) (st : NvmeStatus) (s : State) : State :=
  match q.capsules with
  | [] => s
  | (cid, cap, _) :: _ =>
    sendCompletion q.cntlid q.qid cid (s.affected cap) cap.nsid st 0 [] (leaveQueue q 1 s)

/-- Command Aborted due to Missing Fused Command. PRESUMED: NVMe Base gives the status. -/
def nvmeMissingFused : NvmeStatus := (0, 0x0A, false, 0)

/-- Commands of a group or namespace are held: during a move of its ownership, a cut, or a restore they touch (R119, R461, R616). -/
def State.groupHeld (s : State) (ana : Nat) (c : Capsule) : Bool :=
  s.hq.held.contains ana || s.hq.heldNs.contains c.nsid || s.restoringOn c || s.hq.moving.any (fun m => m.1 == ana)

/-- What becomes of the head of a connection: the state after it, and whether it was fetched; none when it stays and
nothing happens (R92, R99, R103). -/
def tryFetch (q : Queue) (s : State) : Option (State × Bool) :=
  let ctl := s.hq.controller q.cntlid
  let host := (ctl.map (·.hostId)).getD []
  let sub := (ctl.map (·.subsystem)).getD 0
  match q.capsules with
  | [] => none
  | (_, cap, _) :: rest =>
    if q.granted.isSome ∨ s.hq.hasRoom cap = false then none
    else if cap.fused = 2 then some (takeFailed q nvmeMissingFused s, true)
    else if cap.fused = 1 ∧ rest = [] then none
    else if cap.fused = 1 ∧ (rest.head?.any (fun c => c.2.1.fused == 2 && c.2.1.opcode == 0x01)) = false then
      some (takeFailed q nvmeMissingFused s, true)
    else
      let second := rest.head?.map (fun c => c.2.1)
      let bad := match s.fetchCheck host sub cap with
        | some e => some e
        | none => if cap.fused = 1 then second.bind (s.fetchCheck host sub) else none
      match bad with
      | some e => some (takeFailed q e s, true)
      | none =>
        if cap.nsid = 0xFFFFFFFF then some (takeCapsule q 0 true host s, true)
        else
          match s.ftl.ofNsid cap.nsid with
          | none => none
          | some r =>
            let write := if cap.fused = 1 then second else if writesData cap then some cap else none
            let seq := s.hq.nextFsn cap.nsid
            if s.groupHeld r.ana cap then none
            else if s.ownsGroup r.ana then
              if (readsData cap && !s.admitsRead cap seq) || write.any (fun w => !s.admitsWriteNow w) then none
              else
                let s1 := if readsData cap then payRead cap (s.readCosts cap seq) s else s
                let s2 := match write with
                  | some w => payWrite w s1
                  | none => s1
                some (takeCapsule q seq true host (useFsn cap.nsid s2), true)
            else if q.asked.isSome ∨ ¬ s.paired ∨ write.any (fun w => !s.admitsWriteNow w) then none
            else
              let s1 := match write with
                | some w => payWrite w s
                | none => s
              let tag := s1.hq.nextTag
              some (send (.fsnRequest cap.nsid tag) (setQueue { q with asked := some tag }
                { s1 with hq := { s1.hq with nextTag := tag + 1 } }), false)

/-- The connection of an index can act: its next capsule's fate. -/
def tryQueue (i : Nat) (s : State) : Option (State × Bool) := (s.hq.queues[i]?).bind (fun q => tryFetch q s)

/-- The Dispatcher's next act: the connection granted goes on while it has weight left, else the pointer moves to the
next that can act, round to the same one again; it moves past a connection that has fetched its weight or whose next capsule cannot
be fetched now (R23, R100). DESIGN CHOICE: connections stand in the order in which they were made; the spec gives them no order. -/
def dispatch (s : State) : State :=
  let n := s.hq.queues.length
  let weight := fun (i : Nat) => ((s.hq.queues[i]?).map (·.weight)).getD 0
  let tries := (List.range (n + 1)).filterMap (fun k =>
    let i := (s.hq.turn + k) % n
    if k = 0 ∧ weight i ≤ s.hq.taken then none else (tryQueue i s).map (fun r => (k, i, r)))
  match tries with
  | [] => s
  | (k, i, t, fetched) :: _ =>
    let taken := if k = 0 then s.hq.taken + 1 else 1
    let stays := fetched && decide (taken < weight i) && (tryQueue i t).isSome
    { t with hq := { t.hq with
      turn := if stays then i else i + 1
      taken := if stays then taken else 0 } }

/-- The bytes that return over the Corridor for a command the peer received: a Read's blocks, with their metadata. A Verify or a
Compare, which the owning head decides, returns none (R103, R120). -/
def State.returnBytes (s : State) (c : Capsule) : Nat := if c.opcode = 0x02 then s.transferBytes c else 0

/-- The owning head assigns a number to a command that the peer received once it can admit it: for a read it pays
admission and the returning data's share (R103). A command that conflicts with the reservation gets the number 0, which no write
has (DESIGN CHOICE: FSN_GRANT has no status); a reservation command takes effect here at this instant (R109). -/
def grantFsn (number nsid tag : Nat) (cap : Capsule) (host : Bytes) (s : State) : Option State :=
  match s.ftl.ofNsid nsid with
  | none => none
  | some r =>
    let seq := s.hq.nextFsn nsid
    let bytes := s.returnBytes cap
    let shareOk := bytes = 0 || s.tt.returnUsed + min bytes 131072 ≤ s.corridorShare 0
    let settled := fun (t : State) => { t with hq := { t.hq with fsnWaits := t.hq.fsnWaits.filter (fun f => f.1 != number) } }
    if ¬ s.ownsGroup r.ana ∨ s.groupHeld r.ana cap ∨ s.hq.hasRoom cap = false ∨
        (readsData cap ∧ (¬ s.admitsRead cap seq ∨ ¬ shareOk)) then none
    else if s.hq.conflicts host cap then some (reply number (.fsnGrant nsid tag 0) (settled s))
    else
      let s1 := useFsn nsid s
      if reserves cap ∨ cap.opcode = 0x0E then some (reply number (.fsnGrant nsid tag seq) (settled (reserve cap host s1).2))
      else
        let s2 := if readsData cap then
            let p := payRead cap (s.readCosts cap seq) s1
            { p with tt := { p.tt with returnUsed := p.tt.returnUsed + bytes } }
          else s1
        let x := { newCtx 65536 0 tag cap host seq s.tt.now with state := if writesData cap then .dataIn else .fetched }
        let y := if readsData cap then bindReads (withCapsuleData x s2) s2 else x
        let w := if cap.fused = 1 then [{ x with cid := tag, qid := 1, state := .dataIn, cap := { cap with opcode := 0x01, fused := 2 } }] else []
        some (reply number (.fsnGrant nsid tag seq) (settled (addCtxs ([y] ++ w) s2)))

/-- Requests of the peer that wait are tried again, oldest first. -/
def retryGrants (s : State) : State :=
  s.hq.fsnWaits.foldl (fun t f => (grantFsn f.1 f.2.1 f.2.2.1 f.2.2.2.1 f.2.2.2.2 t).getD t) s

/-! ### Rows -/

/-- A capsule takes its queue entry. When the port's pool is then empty, its NVMe/TCP windows close (R93). In PS3, or on the way to
it, an I/O command is accepted (R123, R124). -/
def acceptCapsule (q : Queue) (cid : Nat) (cap : Capsule) (s : State) : State :=
  let s1 := setQueue { q with capsules := q.capsules ++ [(cid, cap, s.tt.now)] } s
  let s2 := if s1.hq.poolEmpty q.port ∧ s1.hq.closed.contains q.port = false then
      emit (.window q.port false) { s1 with hq := { s1.hq with closed := s1.hq.closed ++ [q.port] } } else s1
  if s2.hq.ps = 3 ∧ s2.hq.ps3Exit.isNone then { s2 with hq := { s2.hq with ps3Exit := some s2.tt.now } } else s2

/-- CAPSULE_RECEIVE: a capsule takes its queue entry; while the port's pool is empty a RoCEv2 Send is answered with RNR NAK, and an
NVMe/TCP capsule stays behind its closed window (R93). In-capsule data of another length than the SGL's ends an NVMe/TCP connection
(Table 3-12). An admin capsule with an opcode Damrid does not support completes with Invalid Command Opcode (R95); the others are
rows of their own. From the peer, `cntlid` 65,536, it is a reservation command that took effect there, with the host's identifier in
`pi` (R109; DESIGN CHOICE: the spec gives no message for it). `room` is false while the buffers that waiting I/O capsules leave are
held by other capsules of the port, which the model does not count. -/
def execCapsuleReceive (cntlid qid cid : Nat) (cap : Capsule) (room : Bool) (s : State) : Host.Outcome State Fault Refusal :=
  if cntlid = 65536 then .next (reserve cap cap.pi s).2
  else
    match s.hq.queue cntlid qid with
    | none => .next s
    | some q =>
      .next <|
        if q.qid = 0 then (if (adminOpcodes (s.hq.managed cntlid).isSome).contains cap.opcode then s
          else sendCompletion cntlid 0 cid 0 0 nvmeBadOpcode 0 [] s)
        else if q.size ≤ q.capsules.length then s
        else if room = false ∨ s.hq.poolEmpty q.port = true then (if cap.tcp then s else emit (.rnrNak cntlid qid) s)
        else if cap.tcp ∧ cap.data.any (fun d => d.length + cap.pi.length != cap.sgl) then endConnection cntlid qid causeSequence s
        else acceptCapsule q cid cap s

/-- CAPSULE_FETCH: the Dispatcher's next act (R99, R100). -/
def execCapsuleFetch (s : State) : Host.Outcome State Fault Refusal := whenDue (s.fetches = true) (dispatch s) s

/-- METADATA_PAGE_PREFETCH: the missing pages of the read at the head of a connection are read (R295). -/
def execMetadataPagePrefetch (cntlid qid : Nat) (s : State) : Host.Outcome State Fault Refusal :=
  match s.hq.queue cntlid qid with
  | none => .next s
  | some q =>
    match q.capsules with
    | [] => .next s
    | (_, cap, _) :: _ =>
      whenDue (readsData cap = true ∧ s.fetches = true)
        (((s.pagesFor cap).filter (fun p => s.ftl.absent.contains p && !s.ftl.lostPages.contains p)).foldl (fun t p =>
          let mpa := t.ftl.mpaOfPage p.1 p.2
          if (t.bay.waiting ++ t.bay.outstanding).any (fun o => o.use == .metadata p.1 p.2) then t
          else if !t.metaAdmits mpa then t
          else fetchMeta p.1 p.2 mpa t) s) s

/-- FSN_REQUEST: the number is assigned when this head can admit the command; until then the request waits here (R103).
What the owning head must know of the command comes with the row. A read that meets PS3 starts the exit (R124). -/
def execFsnRequest (number nsid tag : Nat) (cap : Capsule) (host : Bytes) (s : State) : Host.Outcome State Fault Refusal :=
  onMessage number (.fsnRequest nsid tag) (fun s0 =>
    let s := if readsData cap ∧ s0.hq.ps = 3 ∧ s0.hq.ps3Exit.isNone then { s0 with hq := { s0.hq with ps3Exit := some s0.tt.now } } else s0
    if s.hq.fsnWaits.any (fun f => f.1 == number) then s
    else
      match grantFsn number nsid tag cap host s with
      | some t => t
      | none => { s with hq := { s.hq with fsnWaits := s.hq.fsnWaits ++ [(number, (nsid, (tag, (cap, host))))] } }) s

/-- FSN_GRANT: the number arrives and the command is fetched with it, or, with the number 0, fails on the reservation (R103, R109).
The number of a capsule that has left its queue meanwhile is withdrawn (R106). -/
def execFsnGrant (nsid tag seq : Nat) (s : State) : Host.Outcome State Fault Refusal :=
  onWord (.fsnGrant nsid tag seq) (fun s =>
    match s.corr.answerOf (fun b => b == .fsnRequest nsid tag) with
    | none => s
    | some m =>
      let s1 := settleNumber m.number s
      match s1.hq.queues.find? (fun q => q.asked == some tag) with
      | none => if seq = 0 then s1 else sendPeer (.withdraw nsid seq) s1
      | some q =>
        if seq = 0 then takeFailed { q with asked := none } nvmeReserved (unask q s1)
        else takeCapsule { q with granted := some seq } seq false (((s1.hq.controller q.cntlid).map (·.hostId)).getD []) s1) s

end Sys2Proof.Machine
end

