-- ==== Sys2Proof/Machine/Replies.lean ====
section
/-! DEFINITION. Reply payloads as DRAM holds them: segmented messages under the CONTROL key of their binding's session, opened at each
fetch (R30, R257 to R263, R534). -/

namespace Sys2Proof.Machine

/-- The session number of a binding (ch. 15). -/
def Cpi.sessionOf (c : Cpi) (b : Binding) : Nat := ((c.bindings.find? (fun r => r.id == b)).map (·.session)).getD 0

/-- The CONTROL key of a session (Table 7-2). -/
def State.controlKey (s : State) (session : Nat) : Bytes := s.systemKey 0x13 session

/-- The handle of the CONTROL key of a session: a system register from S4 on, the session as its check value (Table 7-3, R247). -/
def controlHandle (session : Nat) : Nat := systemHandle 4 + session % 4096

/-- The stream header of a reply's payload: its context holds the session number, a reserved field, the tag and zeros; a stream reply of
Operator class or above is one message in stream mode (R262, R534). -/
def Reply.boxHeader (r : Reply) (session : Nat) (nonce : Bytes) : Bytes :=
  let h := streamHeader 0x13 session 0 nonce (fields [(2, session), (2, 0), (4, r.tag), (8, 0)])
  h.take 9 ++ leBytes 1 (flagBit r.stream) ++ h.drop 10

/-- The segments of a payload from segment i on, each under the tag of the one before (R259); `fuel` bounds their number. -/
def sealFrom (key header nonce : Bytes) (width : Nat) : (fuel i : Nat) → (prev text : Bytes) → List Bytes
  | 0, _, _, _ => []
  | fuel + 1, i, prev, text =>
    let last := decide (text.length ≤ width)
    let (b, tag) := sealSegment key header prev nonce i last (text.take width)
    b :: (if last then [] else sealFrom key header nonce width fuel (i + 1) tag (text.drop width))

/-- A payload as one message: its stream header, then its segments, of 65,536 bytes but the last, or the one of stream mode. -/
def Reply.boxed (r : Reply) (key : Bytes) (session : Nat) (nonce : Bytes) : List Bytes :=
  let h := r.boxHeader session nonce
  h :: sealFrom key h nonce (if r.stream then r.payload.length else 65536) (r.payload.length / 65536 + 1) 0 (zeros 16) r.payload

/-- The plaintext of segments in their order, up to the first whose tag does not verify (R259 to R261). -/
def openFrom (key header : Bytes) : (i : Nat) → (prev : Bytes) → (frames : List Bytes) → Bytes
  | _, _, [] => []
  | i, prev, f :: rest =>
    let n := fieldAt f 8 8
    let tag := slice f (16 + n) 16
    match gcmOpen key (segmentNonce (slice header 0x10 12) i) (header ++ f.take 16 ++ prev) (slice f 16 n) tag with
    | none => []
    | some t => t ++ openFrom key header (i + 1) tag rest

/-- What leaves Damrid of a reply's payload: its bytes as far as their segments verify (R534). -/
def Reply.text (r : Reply) (key : Bytes) : Bytes :=
  match r.box with
  | [] => r.payload
  | h :: frames => openFrom key h 0 (zeros 16) frames

/-- The payload of a reply, opened under the key of the session that its stream header names. -/
def State.replyText (s : State) (r : Reply) : Bytes := r.text (s.controlKey (fieldAt (r.box.headD []) 0x20 2))

/-- The payload of a ready reply moves from the engine buffer to DRAM as one message under the CONTROL key; where the counter of the key
waits for its durable ceiling, or no root key stands, it stays where it is (R253, R258, R534). -/
def boxReply (r : Reply) (s : State) : State :=
  if r.payload = [] ∨ r.held = true ∨ s.trust.rootKey = none then s
  else
    let n := s.cpi.sessionOf r.binding
    match takeNonce (controlHandle n) 0 0 (2 ^ 32) s with
    | (s1, none) => s1
    | (s1, some nonce) =>
      { s1 with cpi := { s1.cpi with replies := s1.cpi.replies.map (fun x =>
        if x == r then { x with payload := [], box := r.boxed (s.controlKey n) n nonce } else x) } }

/-- At a bell the payloads of ready replies move to DRAM. -/
def boxBell (s : State) : State := s.cpi.replies.foldl (fun t r => boxReply r t) s

/-- CP_PAYLOAD_FETCH: bytes of a reply's payload over MCTP or a mailbox; an unknown tag fails PKT_PARAM, and a range that the payload's
verified segments do not reach fails TAG_FAIL (Table 15-6, R534). -/
def execCpPayloadFetch (b : Binding) (tag : Nat) (s : State) : Host.Outcome State Fault Refusal :=
  onPacket b tag 0x010A (fun p s =>
    let k := s.cpi.keeperOf b (p.param 0 4)
    match s.cpi.replyOf k (p.param 0 4) with
    | none => badParam p 0 s
    | some r =>
      let off := p.param 8 8
      let text := s.replyText r
      if text.length < min r.size (off + p.param 16 4) then refuse p .tagFail noDetail s
      else
        let bytes := slice text off (p.param 16 4)
        answered p [] bytes { s with cpi := noteFetched k (p.param 0 4) (off + bytes.length) s.cpi }) s

end Sys2Proof.Machine
end

