-- ==== Sys2Proof/Machine/Timetable.lean ====
section
/-! DEFINITION. The checks of the LAYOUT section, the whole load check, staging, arming and changeover of a
timetable (R69, R73 to R79, R335, R336, R383). -/

namespace Sys2Proof.Machine

/-! ### LAYOUT (R335, R336) -/

/-- The rows a LAYOUT section holds. -/
def TtImage.rowTotal (i : TtImage) : Nat := i.u (i.base 9 + 0x10) 4

/-- The layout records in use. -/
def TtImage.layouts (i : TtImage) : List (Nat × LayoutRec) :=
  ((List.range 16).map (fun n => (n, i.layoutRec n))).filter (fun l => l.2.purpose != 0)

/-- TT_FORMAT's part on LAYOUT: magic, version, counts in range, length, row bytes past k + m − 1. -/
def layoutFormatOk (i : TtImage) : Bool :=
  let b := i.base 9
  let len := ((i.sectOf 9).map (·.len)).getD 0
  slice i.bytes b 8 == ascii "BRCLAYOT" && i.u (b + 8) 1 == 1 &&
  2 ≤ i.u (b + 9) 1 && i.u (b + 9) 1 ≤ 16 && 1 ≤ i.u (b + 0xA) 1 && i.u (b + 0xA) 1 ≤ 64 &&
  1 ≤ i.u (b + 0xB) 1 && i.u (b + 0xB) 1 ≤ 64 && 1 ≤ i.triads && i.triads ≤ 16384 &&
  len == 1344 + 8 * i.triads + 36 * i.rowTotal &&
  i.layouts.length == i.u (b + 9) 1 &&
  i.layouts.all (fun l => 2 ≤ l.2.k && l.2.k ≤ 32 && 1 ≤ l.2.m && l.2.m ≤ 4 && 1 ≤ l.2.rows && l.2.rows ≤ 65536) &&
  ((List.range 64).filter (fun x => bitAt 0 (i.memberRec x).1)).length == i.u (b + 0xA) 1 &&
  (List.range 64).all (fun x =>
    let m := i.memberRec x
    m.2.1 < 64 && (if bitAt 0 m.1 then 1 ≤ m.2.2.1 && m.2.2.1 ≤ 1024 else m.2.2.1 == 0)) &&
  i.layouts.all (fun l => (List.range l.2.rows).all (fun r =>
    l.2.first + r < i.rowTotal → ((i.row (l.2.first + r) 36).drop (l.2.k + l.2.m)).all (· == 0xFF)))

/-- TT_RESERVED's part on LAYOUT: reserved fields of Tables 9-3 to 9-5 and the purpose codes. -/
def layoutReservedOk (i : TtImage) : Bool :=
  let b := i.base 9
  i.u (b + 0x0E) 2 == 0 && allZero (slice i.bytes (b + 0x14) 44) &&
  (List.range 64).all (fun x => i.u (b + 0x40 + 16 * x) 1 < 4 && allZero (slice i.bytes (b + 0x46 + 16 * x) 10)) &&
  (List.range 16).all (fun n =>
    let a := b + 0x440 + 16 * n
    i.u a 1 ≤ 2 && i.u (a + 3) 1 == 0 && i.u (a + 0xC) 4 == 0 && (i.u a 1 != 0 || allZero (slice i.bytes a 16)))

/-- The forms of a bay that a head owns in the primary, with given role bits. -/
def TtImage.ownedOn (i : TtImage) (bay h mask : Nat) : Bool :=
  i.forms.any (fun f => f.bay == bay && f.owner == h && (bitsOf 8 mask).all (fun n => bitAt n f.role))

/-- A row's bays are distinct, are members in service, and hold for each head a form it may use (R336). -/
def rowOk (i : TtImage) (l : LayoutRec) (r : Nat) : Bool :=
  let bays := i.row (l.first + r) (l.k + l.m)
  bays.eraseDups.length == bays.length &&
  bays.all (fun b => b < 64 && (i.memberRec b).1 % 4 == 3 &&
    [0, 1].all (fun h => i.ownedOn b h (if l.purpose = 2 then 9 else 1)))

/-- The role bits a triad shares. -/
def triadRole (r : Nat) : Bool × Bool × Bool := (bitAt 1 r, bitAt 2 r, bitAt 4 r)

/-- A triad's three forms lie in distinct failure domains with one role; its standby likewise and in no triad. -/
def triadOk (i : TtImage) (t : Nat) : Bool :=
  let fs := (i.triad t).take 3
  let sb := (i.triad t).getD 3 0xFFFF
  let dom := fun (f : Nat) => (i.memberRec (i.form f).bay).2.1
  let role := fun (f : Nat) => triadRole (i.form f).role
  fs.all (fun f => f < i.formCount && bitAt 0 (i.memberRec (i.form f).bay).1) &&
  (fs.map dom).eraseDups.length == 3 && fs.all (fun f => role f == role (fs.headD 0)) &&
  (sb == 0xFFFF || (sb < i.formCount && !(fs.map dom).contains (dom sb) && role sb == role (fs.headD 0) &&
    (List.range i.triads).all (fun u => !((i.triad u).take 3).contains sb)))

/-- TT_STRIPE_SPREAD: every condition of R336, and no layout exceeds the members in service; the detail names
the layout, row or triad. `named` are the layouts that the pool and its roots name, with their k and m. -/
def checkSpread (i : TtImage) (head serving : Nat) (named : List (Nat × (Nat × Nat))) : Violation :=
  let bad := fun (n : Nat) => some (Status.ttStripeSpread, ttDetail head none (some 9) (some n) none none)
  let ls := i.layouts
  if (ls.filter (fun l => l.2.purpose == 2)).length ≠ 1 then bad 0
  else if (ls.filter (fun l => l.2.purpose == 1)).length = 0 then bad 0
  else
    (((ls.findSome? (fun l =>
        if i.rowTotal < l.2.first + l.2.rows ∨ ls.any (fun o => o.1 != l.1 && l.2.first < o.2.first + o.2.rows &&
            o.2.first < l.2.first + l.2.rows) ∨ serving < l.2.k + l.2.m then bad l.1 else none)).or
      (ls.findSome? (fun l => firstOver l.2.rows (fun r => if rowOk i l.2 r then none else bad (l.2.first + r))))).or
      (named.findSome? (fun n =>
        let l := i.layoutRec n.1
        if l.purpose = 1 ∧ l.k = n.2.1 ∧ l.m = n.2.2 then none else bad n.1))).or
      (firstOver i.triads (fun t => if triadOk i t then none else bad t))

/-! ### The load check (R69) -/

/-- Members as the load checks see them: bay, dies, width. -/
def State.memberViews (s : State) : List MemberView :=
  (s.ec.members.filter (fun m => m.state != .failed && m.state != .none)).map (fun m =>
    ⟨m.bay, m.dies, s.bay.quads.getD (m.bay / 4) 0⟩)

/-- What this head checks an image against. -/
def State.loadEnv (s : State) : LoadEnv where
  head := s.sys.slot
  poolId := (s.pool.map (·.id)).getD (zeros 16)
  term := (s.tt.active.map (·.term)).getD 0
  members := s.memberViews
  rate := ((s.dram.trained.map (fun c => rateMts (s.dram.ch c).rate)).min?).getD 0
  trfc := (s.dram.reference.map (·.trfc)).getD 0

/-- The layouts the pool and its roots name, with the k and m the image in force gives them (R336). -/
def State.namedLayouts (s : State) : List (Nat × (Nat × Nat)) :=
  match s.tt.active, s.pool with
  | some i, some p => ((p.layout :: (s.ftl.roots.filter (fun r => r.kind != .domain)).map (·.layout)).eraseDups).map
      (fun n => (n, ((i.layoutRec n).k, (i.layoutRec n).m)))
  | _, _ => []

/-- The checks of Table 2-12, in order, on the whole image. -/
def loadChecks (i : TtImage) (s : State) : Violation :=
  let e := s.loadEnv
  let h := e.head
  let serving := (s.ec.members.filter (fun m => m.state == .inService)).length
  let part := fun (ok : Bool) st (sect : Nat) => if ok then none else some (st, ttDetail h none (some sect) none none none)
  [fun _ => (checkFormat i h).or (part (layoutFormatOk i) .ttFormat 9),
   fun _ => part (ttSigned i s.trust) .ttSignature 0xFF,
   fun _ => ((plainReserved i h).or (overSheets i (gridReserved i h))).or (part (layoutReservedOk i) .ttReserved 9),
   fun _ => failUnless (i.u 0x1B 1 == 0) .ttStepping h,
   fun _ => failUnless (slice i.bytes 0x20 16 == e.poolId) .ttPool h,
   fun _ => failUnless (termOk i e.term) .ttTermStale h,
   fun _ => checkMembers i e,
   fun _ => checkSheets i h,
   fun _ => checkRoleScope i h,
   fun _ => checkReadGap i h,
   fun _ => checkOversubscribed i e,
   fun _ => checkDieFit i h,
   fun _ => checkDramRate i e,
   fun _ => checkDramWindow i h,
   fun _ => checkRefreshRoom i e,
   fun _ => checkDomain i h,
   fun _ => checkSpread i h serving s.namedLayouts,
   fun (_ : Unit) => checkBound i h].findSome? (fun f => f ())

/-! ### Copies of the image (R383) -/

/-- The consecutive blocks that a copy of so many bytes takes on a module (R383). -/
def State.copyBlocks (s : State) (bay length : Nat) : Nat :=
  ceilDiv (4 * ceilDiv length 65536) (max (((s.bay.bayOf bay).ident.map (·.pages)).getD 4096) 4)

/-- The highest run of n Free blocks on a die of a form, lowest die first, the superblock ring's blocks apart: its first block. -/
def State.freeRun (s : State) (bay group n : Nat) : Option Nat :=
  let total := ((s.bay.bayOf bay).ident.map (·.blocks)).getD 8192
  (List.range 16).findSome? (fun d =>
    let die := 16 * group + d
    ((List.range (total + 1 - n)).reverse.find? (fun b => (List.range n).all (fun k =>
      !(die == 0 && b + k < 4) && (s.ftl.ledger (blkKey bay die (b + k))).state == .free))).map (blkKey bay die))

/-- Three vault-role forms of a head in distinct failure domains with room for a copy, lowest form first; which forms, R383
leaves to the head (DESIGN CHOICE, log 78). -/
def State.copyForms (s : State) (owner length : Nat) : List Nat :=
  match s.tt.active.or s.tt.pending with
  | none => []
  | some i =>
    (((List.range i.formCount).filter (fun f =>
      bitAt 3 (i.form f).role && ownerUnder (i.sheet s.tt.sheet) (i.form f) == owner &&
      (s.freeRun (i.form f).bay (i.form f).group (s.copyBlocks (i.form f).bay length)).isSome)).foldl (fun (acc : List Nat) f =>
      if acc.any (fun g => (i.memberRec (i.form g).bay).2.1 == (i.memberRec (i.form f).bay).2.1) then acc else acc ++ [f])
      []).take 3

/-- Image bytes of a page of a copy (Table 10-2, kind 0x06), padded, with its header. -/
def copyPage (bytes : Bytes) (term n epoch : Nat) : Bytes :=
  fitBytes 16384 (slice bytes (16384 * n) 16384) ++ pageHeader 6 0 0 (term + 2 ^ 32 * n) 0 0 0 epoch 0 ++ zeros 224

/-- Three copies of the image are programmed by a head in blocks it takes from the reserve, each on consecutive blocks of one
die. Their first blocks. -/
def writeCopies (owner : Nat) (bytes : Bytes) (term : Nat) (s : State) : State × List Nat :=
  match s.tt.active.or s.tt.pending with
  | none => (s, [])
  | some i =>
    (s.copyForms owner bytes.length).foldl (fun (acc : State × List Nat) f =>
      let fm := i.form f
      let pages := max (((s.bay.bayOf fm.bay).ident.map (·.pages)).getD 4096) 4
      let strips := ceilDiv bytes.length 65536
      let n := s.copyBlocks fm.bay bytes.length
      let b := (s.freeRun fm.bay fm.group n).getD 0
      let t0 := (List.range n).foldl (fun t k => openBlock (b + k) (s.dieTypeOf fm.bay (blkDie b)).number t) acc.1
      let t := (List.range strips).foldl (fun t n =>
        queueOp (blkOp 2 (b + 4 * n / pages) (4 * n % pages / 4) 0 2 .ttCopy
          ((List.range 4).flatMap (fun pg => copyPage bytes term (4 * n + pg) s.epoch))) t) t0
      (t, acc.2 ++ [b])) (s, [])

/-- The blocks of a record's copies that this head owns return to the reserve and are erased in Recess (R383). -/
def freeCopies (c : TtCopy) (s : State) : State :=
  (c.copies.flatMap (fun b => (List.range (s.copyBlocks (blkBay b) c.length)).map (b + ·))).foldl (fun t b =>
    if s.ownsDie (blkBay b) (blkDie b) then freeBlock b t else t) s

/-! ### Staging (R73) -/

/-- The status and detail of the last load command (TT_LOAD.LAST_STATUS, TT_QUERY). -/
def noteLoad (st : Status) (detail : Bytes) (s : State) : State :=
  { s with tt := { s.tt with lastStatus := st, lastDetail := if st = .ok then s.tt.lastDetail else detail } }

/-- An image is refused: the event, the count, nothing staged. -/
def refuseImage (st : Status) (detail : Bytes) (s : State) : State :=
  noteLoad st detail (tallyAdd 0x03 1 1 (event 0x2005 31 (argOf [(0, statusCode st), (2, fieldAt detail 0 2)])
    { s with tt := { s.tt with load := .none, pending := none, staging := none } }))

/-- The image is sent to the peer in chunks, the last of which the peer answers with its verdict. -/
def sendImage (i : TtImage) (s : State) : State :=
  (List.range (ceilDiv i.bytes.length 65536)).foldl (fun t n =>
    send (.ttImage i.term (65536 * n) (slice i.bytes (65536 * n) 65536).length (slice i.bytes (65536 * n) 65536)) t) s

/-- TT_STAGE: pieces of the image; after the last, this head's load checks, then the peer's (R73). R73 names Staged and Armed
alone; while an earlier image is being checked the packet is refused in the same way (DESIGN CHOICE, log 68). -/
def execTtStage (b : Binding) (tag : Nat) (s : State) : Host.Outcome State Fault Refusal :=
  onPacket b tag 0x0601 (fun p s =>
    if s.tt.load ≠ .none then noteLoad .ttLoadBusy [] (refuse p .ttLoadBusy noDetail s)
    else
      match takePiece p (p.param 8 8) (p.param 16 8) s with
      | (s1, .more) => answered p [] [] s1
      | (s1, .broken) => refuse p .pktPiece noDetail s1
      | (s1, .whole data) =>
        let i : TtImage := ⟨data⟩
        match loadChecks i s1 with
        | some (st, detail) => refuse p st detail (refuseImage st detail s1)
        | none =>
          if i.term ≠ p.param 0 4 then badParam p 0 s1
          else
            let s2 := { s1 with tt := { s1.tt with pending := some i, load := .checking, staging := some (b, tag) } }
            if s.paired then sendImage i s2
            else noteLoad .ok [] (changed p [] { s2 with tt := { s2.tt with load := .staged, staging := none } })) s

/-- A joiner's verdict on an image that the survivor sent it: with the last one passed, the copy starts at the next day
boundary (R491 steps 5 and 6). A refusal leaves the handover at step 5. -/
def joinerVerdict (term : Nat) (status : Status) (s : State) : State :=
  if s.corr.roll ≠ .joining ∨ s.corr.step ≠ 5 ∨ s.pwr.stage ≠ .service then s
  else
    let left := s.corr.unanswered.filter (fun m => match m.body with | .ttImage t _ _ _ => t != term | _ => true)
    let more := left.any (fun m => match m.body with | .ttImage .. => true | _ => false)
    { s with corr := { s.corr with
      unanswered := left
      step := if status = .ok ∧ more = false then 6 else 5
      joinDay := s.day + 1 } }

/-- TT_VERDICT: the peer's load check result; a pass stages the image, a refusal refuses it with the peer's
status and detail, and the packet that waits is answered (R73). -/
def execTtVerdict (term : Nat) (status : Status) (detail : Bytes) (s : State) : Host.Outcome State Fault Refusal :=
 onWord (.ttVerdict term status detail) (fun s =>
  match s.tt.staging, s.tt.load with
  | some (b, tag), .checking =>
    if (s.tt.pending.map (·.term)) ≠ some term then s
    else
      let s0 := { s with corr := { s.corr with unanswered := s.corr.unanswered.filter (fun m =>
        match m.body with | .ttImage .. => false | _ => true) } }
      match s0.cpi.packet b tag 0x0601 with
      | none => { s0 with tt := { s0.tt with load := if status = .ok then .staged else .none, staging := none } }
      | some p =>
        if status = .ok then
          noteLoad .ok [] (changed p [] { s0 with tt := { s0.tt with load := .staged, staging := none } })
        else refuse p status detail (refuseImage status detail s0)
  | _, _ => joinerVerdict term status s) s

/-- TT_IMAGE: a chunk of an image the peer stages; at the last chunk this head checks the whole image and answers
TT_VERDICT; an image it passes is Staged here as well (R73). -/
def execTtImage (number term offset : Nat) (bytes : Bytes) (s : State) : Host.Outcome State Fault Refusal :=
  onMessage number (.ttImage term offset bytes.length bytes) (fun s0 =>
    let joins := s0.pwr.stage == .joining
    let s := if joins then { s0 with tt := { s0.tt with load := .none, active := if (s0.pool.any (fun q => q.term == term)) then none else s0.tt.active } } else s0
    let have_ := (if offset = 0 then [] else s.tt.incoming.take offset) ++ bytes
    let s1 := { s with tt := { s.tt with incoming := have_ } }
    if have_.length < fieldAt have_ 0x10 4 then s1
    else
      let i : TtImage := ⟨have_⟩
      let s2 := { s1 with tt := { s1.tt with incoming := [] } }
      match loadChecks i s2 with
      | some (st, detail) => reply number (.ttVerdict term st detail) (refuseImage st detail s2)
      | none => reply number (.ttVerdict term .ok noDetail)
          (if !joins then { s2 with tt := { s2.tt with pending := some i, load := .staged } }
           else if s2.pool.any (fun q => q.term == term) then
            { s2 with
              tt := { s2.tt with active := some i }
              corr := { s2.corr with step := 5 } }
           else { s2 with tt := { s2.tt with
                    pending := some i, load := .armed, armDay := (s2.pool.map (·.armed.day)).getD 0 } })) s

/-! ### Arming (R74, R75) -/

/-- The first bell of day D − 1 has passed for an Armed image. -/
def Tt.tooLate (t : Tt) : Bool := t.load == .armed && 1024 * (t.armDay - 1) ≤ t.now

/-- An image is Staged or Armed, and a packet names its term. -/
def Tt.staged (t : Tt) (term : Nat) : Bool :=
  (t.load == .staged || t.load == .armed) && (t.pending.map (·.term)) == some term

/-- The vault does not yet hold what a TT_ARM records: a copy or a superblock page waits for its die or its completion, or
the peer has not written the superblock. -/
def State.recording (s : State) : Bool :=
  (s.bay.waiting ++ s.bay.outstanding).any (fun o => o.opcode == 2 && (o.use == .ttCopy || o.use == .superblock)) ||
  s.corr.unanswered.any (fun m => match m.body with | .sbChange .. => true | _ => false)

/-- A TT_ARM is answered once both heads have recorded its image and day in the vault (R74). -/
def armBell (s : State) : State :=
  match s.tt.arming with
  | none => s
  | some (b, tag) =>
    if s.recording then s
    else
      let s1 := { s with tt := { s.tt with arming := none } }
      match s1.cpi.packet b tag 0x0602 with
      | none => s1
      | some p => noteLoad .ok [] (changed p [] s1)

/-- The copies of an image being armed, and this head with them programmed; where the peer forwards the packet, the peer
programmes them. -/
def armCopies (b : Binding) (bytes : Bytes) (term : Nat) (s : State) : State × List Nat :=
  if s.tt.load = .armed then (s, (s.pool.map (·.armed.copies)).getD [])
  else
    let (s1, copies) := writeCopies (if b = .peer then 1 - s.sys.slot else s.sys.slot) bytes term s
    (if b = .peer then s else s1, copies)

/-- TT_ARM: both heads record the image and the day D in the vault before the reply; an Armed image moves its day (R74, R383). -/
def execTtArm (b : Binding) (tag : Nat) (peer : PeerAnswer) (s : State) : Host.Outcome State Fault Refusal :=
  onPacket b tag 0x0602 (fun p s =>
    let d := p.param 8 8
    let no := fun st => noteLoad st [] (refuse p st noDetail s)
    if !s.tt.staged (p.param 0 4) then no .ttNotStaged
    else if s.tt.tooLate then no .ttTooLate
    else if d < s.day + 2 ∨ s.day + 65536 < d then no .ttDay
    else
      pairWide p peer (fun s =>
        let bytes := (s.tt.pending.map (·.bytes)).getD []
        let (s1, copies) := armCopies b bytes (p.param 0 4) s
        let s2 := { s1 with
          tt := { s1.tt with load := .armed, armDay := d }
          pool := s1.pool.map (fun q => { q with armed := ⟨p.param 0 4, bytes.length, d, copies⟩ }) }
        if b = .peer then noteLoad .ok [] (changed p [] s2)
        else armBell (configWrite { s2 with tt := { s2.tt with arming := some (b, tag) } })) s) s

/-- TT_DISARM: a Staged or Armed image is discarded; the blocks of its copies return to the reserve as those of old active copies
do, on which R383 is silent (DESIGN CHOICE, log 78) (R75, R383). -/
def execTtDisarm (b : Binding) (tag : Nat) (peer : PeerAnswer) (s : State) : Host.Outcome State Fault Refusal :=
  onPacket b tag 0x0603 (fun p s =>
    let no := fun st => noteLoad st [] (refuse p st noDetail s)
    if !s.tt.staged (p.param 0 4) then no .ttNotStaged
    else if s.tt.tooLate then no .ttTooLate
    else
      pairWide p peer (fun s =>
        let was := s.tt.load
        let s1 := freeCopies ((s.pool.map (·.armed)).getD ⟨0, 0, 0, []⟩) { s with
          tt := { s.tt with load := .none, pending := none, armDay := 0 }
          pool := s.pool.map (fun q => { q with armed := ⟨0, 0, 0, []⟩ }) }
        noteLoad .ok [] (changed p [] (if was = .armed ∧ b ≠ .peer then configWrite s1 else s1))) s) s

/-- TT_NOW as the register shows it. -/
def State.ttNow (s : State) : Nat := s.tt.now % 2 ^ 58
/-- TT_TERM: pending and active term. -/
def State.ttTerm (s : State) : Nat :=
  (s.tt.active.map (·.term)).getD 0 + 2 ^ 32 * (s.tt.pending.map (·.term)).getD 0
/-- TT_SHEET: sheet, kind, head, index. -/
def State.ttSheet (s : State) : Nat :=
  s.tt.sheet * 2 ^ 32 + 2 ^ 24 * s.tt.sheetOf.kind + 2 ^ 16 * s.tt.sheetOf.head + s.tt.sheetOf.index
/-- The code of TT_LOAD.STATE. -/
def loadCode : LoadState → Nat
  | .none => 0
  | .checking => 1
  | .staged => 2
  | .armed => 3
/-- TT_LOAD. -/
def State.ttLoad (s : State) : Nat := 2 ^ 16 * statusCode s.tt.lastStatus + loadCode s.tt.load

/-- TT_QUERY: the four registers and the last refusal detail (Table 15-11). -/
def execTtQuery (b : Binding) (tag : Nat) (s : State) : Host.Outcome State Fault Refusal :=
  onPacket b tag 0x0604 (fun p s =>
    answered p (fields [(8, s.ttNow), (8, s.ttTerm), (8, s.ttSheet), (8, s.ttLoad)] ++ fitBytes 16 s.tt.lastDetail) [] s) s

/-- A bay's present width and rate are those of the term in force (R422). -/
def Bay.loaded (y : Bay) : Bay :=
  { y with
    widthLoaded := y.width
    rateLoaded := y.rate
    state := if y.state = BayState.degraded then BayState.up else y.state }

/-- The day of an Armed image has come (R76). -/
def State.termDue (s : State) : Bool := s.tt.load == .armed && s.tt.armDay ≤ s.day && s.tt.pending.isSome

/-- The sheet for the state in force of an image that takes effect: in Vault mode the Vault sheet, else that of the
degradations in force (R78, R85). -/
def State.sheetOfState (s : State) : Degradation :=
  if s.tt.vaultDue || s.tt.sheetOf.kind == 6 then ⟨6, s.sys.slot, 0⟩ else s.sheetFor

/-- The Armed term takes effect: the sheet for the state in force is selected from it; the armed record becomes the active
one (R76, R78, R383). -/
def changeover (s : State) : State :=
  match s.tt.pending with
  | none => s
  | some i =>
      (let old := (s.pool.map (·.active)).getD ⟨0, 0, 0, []⟩
       let s1 : State := { s with
         tt := { s.tt with active := some i, pending := none, load := .none, armDay := 0 }
         pool := s.pool.map (fun q => { q with active := q.armed, armed := ⟨0, 0, 0, []⟩ })}
       let d := s1.sheetOfState
       let loaded := s1.bay.bays.map (fun y => (y.1, y.2.loaded))
       let s2 := putSheet d (carryFences s { s1 with bay := { s1.bay with
         bays := loaded
         halted := [] } })
       let s3 := event 0x2001 31 (argOf [(0, i.term), (4, s2.tt.sheet)]) s2
       halvesFor s.tt.active (freeCopies old (configWrite s3)))

/-- TERM_CHANGEOVER: at the bell of day D the Armed term takes effect. The bell that starts day D has done it before any other
work of its period; the row does what is still due (R76). -/
def execTermChangeover (s : State) : Host.Outcome State Fault Refusal := whenDue (s.termDue = true) (changeover s) s


end Sys2Proof.Machine
end

