-- ==== Sys2Proof/Machine/ReportCard.lean ====
section
/-! DEFINITION. The report card and the early warnings (R595 to R597, Tables 17-4 to 17-6). -/

namespace Sys2Proof.Machine

/-! ### Values of the pool -/

/-- The mean P/E count of the data-role blocks, over one bay or all, in percent of the rated endurance. -/
def State.wearOf (s : State) (bay : Option Nat) : Nat :=
  match s.tt.active with
  | none => 0
  | some i =>
    let forms := s.dataFormList.filter (fun f => bay.isNone || bay == some (i.form f).bay)
    let inForm := fun (b : Nat) => forms.any (fun f => (i.form f).bay == blkBay b && (i.form f).group == blkDie b / 16)
    let blocks := sumNat (forms.map (fun f => 16 * s.blocksPerDie (i.form f).bay))
    let pe := sumNat ((s.ftl.blocks.filter (fun e => inForm e.1)).map (fun e => e.2.pe))
    let rated := sumNat (forms.map (fun f => 16 * s.blocksPerDie (i.form f).bay *
      (((s.bay.bayOf (i.form f).bay).ident).map (·.endurance)).getD 0))
    if blocks = 0 ∨ rated = 0 then 0 else min 255 (100 * pe / rated)

/-- Retention debt in MiB, rounded up: live bytes of blocks that are due and not yet refreshed (R321). -/
def State.debtMib (s : State) (mine : Bool) : Nat :=
  ceilDiv (4096 * sumNat ((s.ftl.blocks.filter (fun e => (e.2.state == .full || e.2.state == .isOpen) && s.refreshDue e.1 &&
    (!mine || s.ownsDie (blkBay e.1) (blkDie e.1)))).map (fun e => e.2.live))) (2 ^ 20)

/-- Failure domains whose loss exceeds some row's redundancy (R336). -/
def State.domainsAtRisk (s : State) : Nat :=
  match s.tt.active with
  | none => 0
  | some i =>
    let domainOf := fun (b : Nat) => (s.ec.member b).map (·.domain)
    maskOf ((List.range 64).filter (fun d => i.layouts.any (fun l => (List.range l.2.rows).any (fun r =>
      l.2.m < ((i.row (l.2.first + r) (l.2.k + l.2.m)).filter (fun b => domainOf b == some d)).length))))

/-- Triads with a copy on a Failed member and no standby form left (R360). -/
def State.triadsWithoutStandby (s : State) : Nat :=
  match s.tt.active with
  | none => 0
  | some i => ((List.range i.triads).filter (fun t => s.ec.rebuildTriads.any (fun r => r.1 == t) &&
      ((i.triad t).getD 3 0xFFFF == 0xFFFF || s.ec.standbys.any (fun y => y.2.2 == (i.triad t).getD 3 0xFFFF)))).length

/-- CIDs poisoned now. -/
def Ftl.lostCids (f : Ftl) : Nat := (f.ct.filter (fun c => c.2.lost || c.2.mask != 0)).length

/-- A stripe without redundancy left, or a Lost grain (Tables 3-8, 17-4). -/
def State.noRedundancy (s : State) : Bool :=
  s.ec.groups.any (fun g => s.ec.left g == 0) || 0 < s.ftl.lostCids

/-! ### The card -/

/-- The header of the report card (Table 17-4). -/
def State.cardHeader (s : State) : Bytes :=
  let pool := s.pool.isSome
  let when_ := fun (n : Nat) => if pool then n else 0
  fitBytes 256 (ascii "BRCRPTCD" ++ fields [
    (1, 1), (1, s.sys.slot), (1, when_ s.ec.members.length), (1, when_ s.ftl.spareState),
    (1, when_ (s.spareNow / 10)), (1, when_ (s.wearOf none)), (2, s.tally.warnings), (8, s.tt.now),
    (4, ((s.tt.active.map (·.readBound)).getD 0)),
    (4, flagBit ((s.tt.active.map (·.extended)).getD false) + 2 * flagBit s.through + 4 * flagBit s.ftl.journalGap +
      8 * flagBit (pool && s.noRedundancy) + 16 * flagBit s.ftl.sealFault),
    (8, s.tally.corrected), (8, s.tally.ldpcRecovered), (8, s.tally.parityRecovered), (8, when_ s.ftl.lostCids),
    (2, s.stg.energy), (2, s.stg.esr), (4, s.stg.cap), (8, s.stg.when_), (4, s.stg.limitMib), (1, s.throughReason), (3, 0),
    (8, when_ (s.debtMib false)), (8, when_ s.domainsAtRisk), (2, when_ s.triadsWithoutStandby), (2, 0),
    (4, s.tally.minutes)] ++ s.tally.chipHist.flatMap (fun n => leBytes 4 n))

/-- The record of a bay (Table 17-6). -/
def State.cardModule (s : State) (bay : Nat) : Bytes :=
  let m := s.ec.member bay
  let b := s.bay.bayOf bay
  let present := b.state != .absent
  let h := (getKey bay s.tally.modules).getD ⟨0, []⟩
  if m.isNone && !present then zeros 128
  else
    fitBytes 128 (fields [
      (1, flagBit m.isSome + 2 * flagBit present), (1, (m.map (fun x => memberCode x.state)).getD 0), (1, s.wearOf (some bay)),
      (1, (m.map (·.domain)).getD 0), (2, signedBits 16 b.temp), (2, 0),
      (4, (s.ftl.blocks.filter (fun e => blkBay e.1 == bay && e.2.state == .retired)).length),
      (4, min h.uncorrectable 0xFFFFFFFF), (8, 0)] ++
      (List.range 22).flatMap (fun i => leBytes 4 (h.histogram.getD i 0)))

/-- The report card: 8,448 bytes (R595). -/
def State.reportCard (s : State) : Bytes := s.cardHeader ++ (List.range 64).flatMap s.cardModule

/-- REPORT_CARD: returns the report card (R595, Table 17-6). -/
def execReportCard (b : Binding) (tag : Nat) (s : State) : Host.Outcome State Fault Refusal :=
  onPacket b tag 0x0A06 (fun p s => answered p [] s.reportCard s) s

/-! ### Early warnings -/

/-- The least-squares line through hourly values, oldest first, at hour x, times n × d: n values, d the line's
denominator. -/
def fitAt (l : List Nat) (x : Int) : Int × Int :=
  let n : Int := l.length
  let xs := (List.range l.length).map (fun (i : Nat) => (i : Int))
  let sx := xs.foldl (· + ·) 0
  let sxx := (xs.map (fun v => v * v)).foldl (· + ·) 0
  let sy := (l.map (fun (v : Nat) => (v : Int))).foldl (· + ·) 0
  let sxy := (List.zipWith (fun v (y : Nat) => v * (y : Int)) xs l).foldl (· + ·) 0
  let d := n * sxx - sx * sx
  (d * sy + (n * sxy - sx * sy) * (n * x - sx), n * d)

/-- The line through the last 720 hourly values is at or beyond a bound now or some hours on; false with fewer
values. -/
def lineReaches (l : List Nat) (hours : Nat) (beyond : Int → Int → Bool) : Bool :=
  if l.length < 720 then false
  else
    let h := (l.take 720).reverse
    let a := fitAt h 719
    let b := fitAt h (719 + hours)
    beyond a.1 a.2 || beyond b.1 b.2

/-- Twice the median of a list of counts. -/
def twiceMedian (l : List Int) : Int :=
  let m := sortBy (fun a b => a ≤ b) l
  let n := m.length
  if n = 0 then 0 else if n % 2 = 1 then 2 * m.getD (n / 2) 0 else m.getD (n / 2 - 1) 0 + m.getD (n / 2) 0

/-- A count of a bay over the last 24 evaluations. -/
def dayCount (h : List WarnSample) (f : Nat × (Nat × Int) → Nat) (bay : Nat) : Nat :=
  sumNat ((h.take 24).map (fun w => ((getKey bay w.bays).map f).getD 0))

/-- A bay's count over 24 hours is at least a floor and above 4 times the members' median; the bay. -/
def outlier (h : List WarnSample) (members : List Nat) (f : Nat × (Nat × Int) → Nat) (floor : Nat) : Option Nat :=
  if h.length < 24 then none
  else
    let med := twiceMedian (members.map (fun b => ((dayCount h f b : Nat) : Int)))
    members.find? (fun b => floor ≤ dayCount h f b && decide (4 * med < 2 * ((dayCount h f b : Nat) : Int)))

/-- A bay's mean temperature is 10 °C or more above the members' median at the last three evaluations; the bay. -/
def hotBay (h : List WarnSample) (members : List Nat) : Option Nat :=
  if h.length < 3 then none
  else members.find? (fun b => (h.take 3).all (fun w =>
    match getKey b w.bays with
    | none => false
    | some x => decide (twiceMedian (w.bays.map (fun y => y.2.2.2)) + 200 ≤ 2 * x.2.2)))

/-- The conditions of Table 17-5 by bit: active, and the bay, 0xFF for the pool. -/
def State.warnings (s : State) (h : List WarnSample) (hour : Nat) : List (Bool × Nat) :=
  let members := s.ec.members.map (·.bay)
  let unc := outlier h members (fun x => x.1) 16
  let mis := outlier h members (fun x => x.2.1) 64
  let hot := hotBay h members
  let weak := match s.tally.energies with
    | [] => false
    | (e, _) :: r =>
      let old := (r.filter (fun p => hour ≤ p.2 + 720)).map (·.1)
      4 ≤ old.length && decide (10 * e * old.length ≤ 9 * sumNat old)
  let rose := 7 ≤ h.length && (List.range 6).all (fun i =>
    ((h.map (·.debt)).getD (i + 1) 0) < ((h.map (·.debt)).getD i 0))
  [(lineReaches (h.map (·.sparePct)) 2160 (fun v d => v ≤ 25 * d), 0xFF),
   (lineReaches (h.map (·.wearPct)) 8760 (fun v d => 100 * d ≤ v), 0xFF),
   (unc.isSome, unc.getD 0xFF), (mis.isSome, mis.getD 0xFF), (hot.isSome, hot.getD 0xFF), (weak, 0xFF), (rose, 0xFF)]

/-- A condition becomes active: its bit, and in a pool of more than 16 members its event and the vendor specific
notice to every management-capable controller. -/
def raiseWarning (bit bay : Nat) (s : State) : State :=
  let s1 := { s with tally := { s.tally with warnings := setBit bit s.tally.warnings } }
  if s.ec.members.length ≤ 16 then s1
  else
    (s1.hq.controllers.filter (fun c => s1.hq.hosts.any (fun b => b.nqn == c.nqn && b.cls != 0))).foldl
      (fun t c => notify c.cntlid 7 0 0xC0 t) (event (0xE001 + bit) 30 (argOf [(0, bay), (1, bit)]) s1)

/-- EARLY_WARNING_EVAL: every 3,600 s of trusted clock the conditions of Table 17-5 are evaluated; a bit is cleared after 24
inactive evaluations in a row (R597). -/
def execEarlyWarningEval (s : State) : Host.Outcome State Fault Refusal :=
  whenDue (s.tally.lastEval + 3600000000 ≤ s.clockUs)
    (let bays := s.ec.members.map (fun m =>
        let t := (getKey m.bay s.tally.hourTemp).getD (0, 0)
        (m.bay, ((getKey m.bay s.tally.hourUnc).getD 0, ((getKey m.bay s.tally.hourMiss).getD 0,
          if t.2 = 0 then (s.bay.bayOf m.bay).temp else t.1 / t.2))))
     let sample : WarnSample := ⟨s.spareNow / 10, s.wearOf none, s.debtMib false, bays⟩
     let h := (sample :: s.tally.history).take 720
     let s1 := { s with tally := { s.tally with
       history := h, hourUnc := [], hourMiss := [], hourTemp := [], lastEval := s.clockUs } }
     let w := s.warnings h (s.clockSec / 3600)
     (List.range 7).foldl (fun t bit =>
       let (on, bay) := w.getD bit (false, 0xFF)
       if on then
         let u := { t with tally := { t.tally with inactive := delKey bit t.tally.inactive } }
         if bitAt bit t.tally.warnings then u else raiseWarning bit bay u
       else
         let n := (getKey bit t.tally.inactive).getD 0 + 1
         { t with tally := { t.tally with
           inactive := putKey bit n t.tally.inactive
           warnings := if 24 ≤ n then clearBit bit t.tally.warnings else t.tally.warnings } }) s1) s

end Sys2Proof.Machine
end

