-- ==== Sys2Proof/Machine/HostAdmin.lean ====
section
/-! DEFINITION. Controllers and admin commands: reservations, log pages, identify data, features, connect, properties,
association loss, control packets over NVMe (R90, R91, R95 to R98, R109, R115, R117). An admin command comes with its
operands; NVMe and NVMe over Fabrics give its layouts (PRESUMED where Table 3-3 to 3-8 do not). -/

namespace Sys2Proof.Machine

/-! ### Completions of admin commands -/

/-- The final handover step of an activation: the last cluster restarts on the new image. It holds admin commands for 5 ms at most
(R116). DESIGN CHOICE: the spec does not say which step is the final one. -/
def State.handingOver (s : State) : Bool :=
  s.trust.activation.any (fun a => a.step == .starting 1 && s.tt.now < a.since + msBells 5)

/-- An admin command completes; during the final handover step its completion is held (R116). -/
def adminDone (cntlid cid : Nat) (st : NvmeStatus) (dw0 : Nat) (data : Bytes) (s : State) : State :=
  let o := s.completionOf cntlid 0 cid st dw0 data
  noteError cntlid 0 cid 0 0 st
    (if s.handingOver then { s with hq := { s.hq with heldDone := s.hq.heldDone ++ [o] } } else emit o s)

/-- Held completions leave (R116). -/
def releaseHeld (s : State) : State := emitAll s.hq.heldDone { s with hq := { s.hq with heldDone := [] } }

/-- An admin command is taken from its queue: SQHD advances (R94). -/
def adminFetched (cntlid : Nat) (s : State) : State :=
  match s.hq.queue cntlid 0 with
  | none => s
  | some q => setQueue { q with sqhd := (q.sqhd + 1) % max q.size 1 } s

/-- An admin command runs on a controller that exists. -/
def onController (cntlid : Nat) (f : Controller → State → State) (s : State) : Host.Outcome State Fault Refusal :=
  match s.hq.controller cntlid with
  | none => .next s
  | some c => .next (f c (adminFetched cntlid s))

/-! ### Log pages (Table 3-7) -/

/-- An entry laid into a structure at an offset. -/
def lay (base : Bytes) (off : Nat) (b : Bytes) : Bytes := base.take off ++ b ++ base.drop (off + b.length)

/-- Entries laid in turn. -/
def layAll (base : Bytes) (l : List (Nat × Bytes)) : Bytes := l.foldl (fun b p => lay b p.1 p.2) base

/-- The log pages of Table 3-7. -/
def logPages : List Nat := [0x00, 0x01, 0x02, 0x03, 0x04, 0x05, 0x0C, 0x70, 0x80, 0xC0]

/-- The Error Information log. -/
def errorLog (c : Controller) : Bytes :=
  (List.range 256).flatMap (fun i =>
    match c.errors[i]? with
    | none => zeros 64
    | some (q, k, st, d, lba, ns) =>
      layAll (zeros 64) [(0, leBytes 8 (c.errorCount - i)), (8, fields [(2, q), (2, k), (2, 2 * st)]), (16, leBytes 8 lba),
        (24, leBytes 4 ns), (32, leBytes 8 (d % 65536 + 65536 * lba))])

/-- The composite temperature in kelvin: the hottest on-die sensor. DESIGN CHOICE. -/
def State.composite (s : State) : Nat := (s.pins.hottest + 273).toNat

/-- The composite temperature is outside its thresholds, once a host has set them. -/
def State.tempOut (s : State) : Bool :=
  s.hq.controllers.any (fun c =>
    (getKey 0x04 c.features).any (fun v => decide (v ≤ s.composite)) || (getKey 0x1004 c.features).any (fun v => decide (s.composite ≤ v)))

/-- SMART critical warning bits (Table 3-8): a bank below its floor is this head's or the peer's, the values being pool-wide
(R98). -/
def State.critical (s : State) : Nat :=
  flagBit (s.ftl.spareState != 0) + 2 * flagBit s.tempOut + 4 * flagBit s.noRedundancy +
  8 * flagBit (s.ftl.spareState == 3) + 16 * flagBit (s.through && (s.throughReason == 1 || s.throughReason == 2))

/-- A structure whose reserved ranges are zero (R14), whose stated fields are laid, and whose other bytes are free. The places of
fields and reserved ranges are NVMe's (PRESUMED). -/
def State.structured (s : State) (n : Nat) (reserved : List (Nat × Nat)) (l : List (Nat × Bytes)) : Bytes :=
  layAll (s.randomBytes n) (reserved.map (fun r => (r.1, zeros r.2)) ++ l)

/-- SMART / Health: the fields of Table 3-8 and the data units of the controller; every other field is free. -/
def State.smart (s : State) (c : Controller) : Bytes :=
  s.structured 512 [(7, 25), (232, 280)]
    [(0, fields [(1, s.critical), (2, s.composite), (1, s.spareNow / 10), (1, 25), (1, s.wearOf none)]),
    (32, leBytes 16 (ceilDiv (8 * c.dataRead) 1000)), (48, leBytes 16 (ceilDiv (8 * c.dataWritten) 1000)),
    (160, leBytes 16 s.ftl.lostCids), (176, leBytes 16 c.errorCount)]

/-- Firmware Slot Information: slot 1 the running Faculty image, slot 2 the downloaded one; the spec states no revision
strings. -/
def State.firmwareSlots (s : State) : Bytes :=
  layAll (zeros 512) [(0, [0x01]), (8, s.randomBytes 8),
    (16, if s.trust.downloaded then (s.randomBytes 16).drop 8 else zeros 8)]

/-- Commands Supported and Effects: the supported bit; of a supported command's entry the effect bits 1 to 4 and 16 to 19 are free,
the reserved ones zero. -/
def State.effects (s : State) (managed : Bool) : Bytes :=
  let entry := fun (l : List Nat) (base : Nat) (op : Nat) => if l.contains op then leBytes 4 (1 + 2 * (s.freeAt (base + op) % 16) + 65536 * (s.freeAt (base + op) / 16 % 16)) else zeros 4
  (List.range 256).flatMap (entry (adminOpcodes managed) 0) ++ (List.range 256).flatMap (entry ioOpcodes 256) ++ zeros 2048

/-- The ANA state a head reports for a group: 1 Optimized, 2 Non-Optimized, 3 Inaccessible (R118); the transit group of a
migrated volume is Inaccessible at the source (R498). -/
def State.anaState (s : State) (group : Nat) : Nat :=
  if s.corr.roll = .selfFenced ∨ (s.ownsGroup group ∧ s.hq.held.contains group) then 3 else if s.ownsGroup group then 1 else 2

/-- Asymmetric Namespace Access: the groups that hold namespaces of the subsystem; ANAGRPID is the group plus 1. The
change counts are free. -/
def State.anaLog (s : State) (subsystem : Nat) : Bytes :=
  let ns := s.ftl.roots.filter (fun r => r.nsid != 0 && r.subsystem == subsystem)
  let groups := sortBy (fun a b => a ≤ b) ((ns.map (·.ana)).eraseDups)
  leBytes 8 s.free ++ fields [(2, groups.length), (6, 0)] ++ groups.flatMap (fun g =>
    let l := ns.filter (fun r => r.ana == g)
    fields [(4, g + 1), (4, l.length), (8, s.freeAt (1 + g)), (1, s.anaState g), (15, 0)] ++ l.flatMap (fun r => leBytes 4 r.nsid))

/-- The present ports of a head by its island modes (R86). -/
def portsOf (modes : List Nat) : List Nat :=
  (List.range 4).flatMap (fun i =>
    let m := modes.getD i 0
    if m = 0 then [4 * i] else if m = 1 then [4 * i, 4 * i + 2] else [4 * i, 4 * i + 1, 4 * i + 2, 4 * i + 3])

/-- Discovery: for each subsystem the host may reach, every present port of this head, for both transports; the peer's
entries come with the command. Addresses are free. -/
def State.discovery (s : State) (nqn peer : Bytes) : Bytes :=
  let subs := s.hq.subsystems.filter (fun x => s.hq.hosts.any (fun h => h.nqn == nqn && h.subsystem == x.number))
  let entry := fun (x : Subsystem) (p t i : Nat) =>
    layAll (zeros 1024) [(0, [BitVec.ofNat 8 t]), (2, [0x02]), (4, leBytes 2 p), (6, leBytes 2 0xFFFF), (8, leBytes 2 32),
      (32, (s.randomBytes 32)), (256, fitBytes 256 x.nqn), (512, (List.range 256).map (fun k => BitVec.ofNat 8 (s.freeAt (256 * i + k))))]
  let mine := subs.flatMap (fun x => (portsOf s.hq.modes).flatMap (fun p => [entry x p 1 p, entry x p 3 p]))
  let n := mine.length + peer.length / 1024
  fitBytes 1024 (leBytes 8 s.free ++ leBytes 8 n) ++ mine.flatten ++ peer

/-- The Reservation Notification page: the oldest entry. -/
def noticePage (c : Controller) : Bytes :=
  match c.notices with
  | [] => zeros 64
  | (k, ns) :: _ => layAll (zeros 64) [(8, [BitVec.ofNat 8 k, BitVec.ofNat 8 (min 255 (c.notices.length - 1))]), (12, leBytes 4 ns)]

/-- A log page of a controller; none is not supported. The discovery page belongs to discovery controllers, those of
subsystem number 0xFFFF. -/
def State.logPage (s : State) (c : Controller) (lid : Nat) (peer : Bytes) : Option Bytes :=
  if lid = 0x00 then some ((List.range 256).flatMap (fun i => leBytes 4 (flagBit (logPages.contains i && (i != 0x70 || c.subsystem == 0xFFFF)))))
  else if lid = 0x01 then some (errorLog c)
  else if lid = 0x02 then some (s.smart c)
  else if lid = 0x03 then some s.firmwareSlots
  else if lid = 0x04 then some (fitBytes 4096 (c.changed.flatMap (leBytes 4)))
  else if lid = 0x05 then some (s.effects (s.hq.managed c.cntlid).isSome)
  else if lid = 0x0C then some (s.anaLog c.subsystem)
  else if lid = 0x70 ∧ c.subsystem = 0xFFFF then some (s.discovery c.nqn peer)
  else if lid = 0x80 then some (noticePage c)
  else if lid = 0xC0 then some s.reportCard
  else none

/-- Reading a page: the Changed Namespace List is emptied, the oldest notification leaves its page. -/
def readPage (c : Controller) (lid : Nat) (s : State) : State :=
  if lid = 0x04 then setController { c with changed := [] } s
  else if lid = 0x80 then setController { c with notices := c.notices.drop 1 } s
  else s

/-- Invalid Log Page (1h/09h). PRESUMED: NVMe gives the status. -/
def nvmeBadLog : NvmeStatus := (1, 9, true, 0)

/-- GET_LOG_PAGE: bytes of a log page of Table 3-7. -/
def execGetLogPage (cntlid cid lid offset length : Nat) (peer : Bytes) (s : State) : Host.Outcome State Fault Refusal :=
  onController cntlid (fun c s =>
    match s.logPage c lid peer with
    | none => adminDone cntlid cid nvmeBadLog 0 [] s
    | some b => adminDone cntlid cid nvmeOk 0 (slice b offset length) (drawn 8192 (readPage c lid s))) s

/-! ### Identify (R91, Table 3-3) -/

/-- A power state descriptor: maximum power in 0.01 W, operational or not, latencies (Table 3-13). -/
def powerDescriptor (watts : Nat) (oper : Bool) (enter leave : Nat) : Bytes :=
  fitBytes 32 (fields [(2, 100 * watts), (1, 0), (1, if oper then 0 else 2), (4, enter), (4, leave)])

/-- Identify Controller: the values of Table 3-3 and 3-13 where NVMe places them; fields the spec states no value for are
free, reserved ones and the descriptors of states that do not exist zero. -/
def State.identifyController (s : State) (c : Controller) : Bytes :=
  let nqn := ((s.hq.subsystems.find? (fun x => x.number == c.subsystem)).map (·.nqn)).getD []
  s.structured 4096 [(102, 9), (134, 119), (358, 154), (564, 204), (1024, 768), (1806, 242), (2048, 1024)]
    [(77, [10]), (78, leBytes 2 c.number), (259, [7]), (262, [255]), (263, [3]),
    (320, leBytes 2 1), (342, [10]), (343, [0x47]), (344, leBytes 4 1024), (348, leBytes 4 1024),
    (512, [0x66, 0x44]), (514, leBytes 2 65535), (522, leBytes 2 1), (525, [0]), (526, leBytes 2 511), (528, leBytes 2 511),
    (532, leBytes 2 511), (768, fitBytes 256 nqn), (1792, leBytes 4 516), (1796, leBytes 4 1),
    (2048, powerDescriptor 390 true 0 0 ++ powerDescriptor 320 true 16 16 ++ powerDescriptor 250 true 16 16 ++
      powerDescriptor 140 false 1000 2000)]

/-- Identify Namespace: size, format, protection types 1 to 3 with the place of the information free, no boundaries, deallocated
blocks read as zeros, its ANA group. -/
def State.identifyNamespace (s : State) (r : Root) : Bytes :=
  s.structured 4096 [(83, 1), (88, 4), (96, 3), (136, 248)]
    [(0, leBytes 8 (4 * r.size)), (8, leBytes 8 (4 * r.size)), (16, leBytes 8 (4 * r.mapped)),
    (25, [1, BitVec.ofNat 8 (if r.format = 0 then 0 else 0x11)]), (28, [BitVec.ofNat 8 (7 + 8 * (s.freeAt 28 % 4))]),
    (29, [BitVec.ofNat 8 r.piType, 1, 0xFF]), (33, [1]), (34, zeros 12), (46, zeros 2), (92, leBytes 4 (r.ana + 1)),
    (128, fields [(2, 0), (1, 12), (1, 0), (2, 64), (1, 12), (1, 0)])]

/-- Identify data by CNS; none is not supported. -/
def State.identifyData (s : State) (c : Controller) (cns nsid cntid : Nat) : Option Bytes :=
  let ns := sortBy (fun a b => a.nsid ≤ b.nsid) (s.ftl.roots.filter (fun r => r.nsid != 0 && r.subsystem == c.subsystem && r.state != .deleting))
  if cns = 0x00 ∨ cns = 0x05 ∨ cns = 0x08 then
    (match ns.find? (fun r => r.nsid == nsid) with
     | none => some (zeros 4096)
     | some r => some (if cns = 0x08 then s.structured 4096 [(9, 1), (15, 4081)] [(4, leBytes 4 (r.ana + 1))]
       else if cns = 0x05 then s.structured 4096 [(9, 3), (20, 4076)] [] else s.identifyNamespace r))
  else if cns = 0x01 then some (s.identifyController c)
  else if cns = 0x06 then some (s.structured 4096 [(16, 4080)] [])
  else if cns = 0x02 ∨ cns = 0x07 then
    some (fitBytes 4096 (((ns.filter (fun r => nsid < r.nsid)).take 1024).flatMap (fun r => leBytes 4 r.nsid)))
  else if cns = 0x03 then some (fitBytes 4096 ([0x03, 0x10, 0, 0] ++ s.randomBytes 16 ++ [0x04, 1, 0, 0, 0]))
  else if cns = 0x13 then
    let l := sortBy (fun a b => a ≤ b)
      (((s.hq.controllers.filter (fun k => k.subsystem == c.subsystem)).map (·.number)).filter (fun k => cntid ≤ k))
    some (fitBytes 4096 (leBytes 2 (min 2047 l.length) ++ (l.take 2047).flatMap (leBytes 2)))
  else none

/-- IDENTIFY: the identify data of the supported CNS values (R91). -/
def execIdentify (cntlid cid cns nsid cntid : Nat) (s : State) : Host.Outcome State Fault Refusal :=
  onController cntlid (fun c s =>
    match s.identifyData c cns nsid cntid with
    | none => adminDone cntlid cid nvmeBadField 0 [] s
    | some b => adminDone cntlid cid nvmeOk 0 b (drawn 4096 s)) s

/-! ### Abort, features, events -/

/-- ABORT: a command not yet fetched is aborted, one whose number has been asked of the peer too; for a fetched one Dword 0 bit 0 is
1 (Table 3-4, Table 3-11). -/
def execAbort (cntlid cid sqid target : Nat) (s : State) : Host.Outcome State Fault Refusal :=
  onController cntlid (fun _ s =>
    match s.hq.queue cntlid sqid with
    | none => adminDone cntlid cid nvmeOk 1 [] s
    | some q =>
      if q.capsules.any (fun c => c.1 == target) then
        adminDone cntlid cid nvmeOk 0 [] (endCapsules q (fun c => c.1 == target) nvmeAborted s)
      else adminDone cntlid cid nvmeOk 1 [] s) s

/-- The I/O queues a controller may have: as granted by Number of Queues, 128 where it was never asked (Table 3-3). -/
def Controller.granted (c : Controller) : Nat :=
  match getKey 0x07 c.features with
  | none => 128
  | some v => 1 + min (v % 65536) (v / 65536 % 65536)

/-- What is left of the head's 1,048,576 I/O queues for a controller to be granted (R91). -/
def State.queuesLeft (s : State) (c : Controller) : Nat :=
  1048576 - sumNat ((s.hq.controllers.filter (fun k => k.cntlid != c.cntlid && (getKey 0x07 k.features).isSome)).map Controller.granted)

/-- A feature value is kept for a controller. -/
def keepFeature (c : Controller) (fid v : Nat) (s : State) : State := setController { c with features := putKey fid v c.features } s

/-- SET_FEATURES (Table 3-6). The power state of the head changes at the next bell, PS3 after an entry (R121 to R123); DESIGN CHOICE:
a second Set Features for PS3 while an entry is under way completes with Invalid Field, which the spec does not say. Number of Queues
grants what is left of the head's, and is Invalid Field when nothing is (R91; DESIGN CHOICE for the latter). -/
def execSetFeatures (cntlid cid fid nsid value : Nat) (data : Bytes) (s : State) : Host.Outcome State Fault Refusal :=
  onController cntlid (fun c s =>
    let ok := fun (v : Nat) (t : State) => adminDone cntlid cid nvmeOk v [] t
    let bad := adminDone cntlid cid nvmeBadField 0 [] s
    if fid = 0x02 then
      (if (s.hq.managed cntlid).isNone then adminDone cntlid cid nvmeFixed 0 [] s
       else if 3 < value % 32 then bad
       else if value % 32 = 3 then
         (if s.hq.ps = 3 then ok 3 s
          else if s.hq.ps3.isSome then bad
          else { s with hq := { s.hq with ps3 := some (s.tt.now, (cntlid, (cid, none))) } })
       else { s with hq := { s.hq with psNext := s.hq.psNext ++ [(value % 32, (cntlid, (cid, s.tt.now)))] } })
    else if fid = 0x04 then
      (if bitField 19 16 value ≤ 8 ∧ bitField 21 20 value ≤ 1 then
        ok 0 (keepFeature c (4 + 256 * (bitField 19 16 value) + 4096 * bitField 21 20 value) (value % 65536) s)
       else bad)
    else if fid = 0x05 then (if value % 2 ^ 17 = 0 then ok 0 (keepFeature c fid 0 s) else bad)
    else if fid = 0x07 then
      (if value % 65536 = 65535 ∨ value / 65536 % 65536 = 65535 ∨ s.queuesLeft c = 0 then bad
       else
        let top := min 127 (s.queuesLeft c - 1)
        let v := min top (value % 65536) + 65536 * min top (value / 65536 % 65536)
        ok v (keepFeature c fid v s))
    else if fid = 0x0B then ok 0 (keepFeature c fid value s)
    else if fid = 0x0E then ok 0 (keepFeature c fid (fieldAt data 0 6) s)
    else if fid = 0x0F then
      (if 1000 ≤ value ∧ value ≤ 300000 then ok 0 (setController { c with kato := value, alive := s.tt.now } s) else bad)
    else if fid = 0x81 then (if bitAt 0 value then ok 0 (setController { c with hostId := fitBytes 16 data } s) else bad)
    else if fid = 0x82 then ok 0 (keepFeature c fid value s)
    else if fid = 0x83 then
      ok 0 (setReservation { s.hq.reservation nsid with ptpl := bitAt 0 value } s)
    else bad) s

/-- GET_FEATURES (Table 3-6); Power Management reads the state in force on the head. A feature never set reads as
none of its bits, Number of Queues as 128 of each. -/
def execGetFeatures (cntlid cid fid nsid value : Nat) (s : State) : Host.Outcome State Fault Refusal :=
  onController cntlid (fun c s =>
    let ok := fun (v : Nat) (d : Bytes) => adminDone cntlid cid nvmeOk v d s
    if fid = 0x02 then ok s.hq.ps []
    else if fid = 0x04 then ok ((getKey (4 + 256 * bitField 19 16 value + 4096 * bitField 21 20 value) c.features).getD 0) []
    else if fid = 0x0B then ok c.eventConfig []
    else if fid = 0x05 ∨ fid = 0x82 then ok ((getKey fid c.features).getD 0) []
    else if fid = 0x07 then ok ((getKey fid c.features).getD (127 + 65536 * 127)) []
    else if fid = 0x0E then ok 0 (leBytes 8 ((getKey fid c.features).getD 0))
    else if fid = 0x0F then ok c.kato []
    else if fid = 0x81 then ok 1 (fitBytes 16 c.hostId)
    else if fid = 0x83 then ok (flagBit (s.hq.reservation nsid).ptpl) []
    else adminDone cntlid cid nvmeBadField 0 [] s) s

/-- ASYNC_EVENT_REQUEST: up to 8 outstanding requests (Table 3-4); PRESUMED: NVMe gives the status above the limit. -/
def execAsyncEventRequest (cntlid cid : Nat) (s : State) : Host.Outcome State Fault Refusal :=
  onController cntlid (fun c s =>
    if 8 ≤ c.aers.length then adminDone cntlid cid (1, 5, true, 0) 0 [] s
    else setController { c with aers := c.aers ++ [cid] } s) s

/-! ### Associations (R90, R115, R117) -/

/-- The association of a controller is lost: its queues end, it is gone, its binding is lost; why: 1 reset, 2 Disconnect,
3 keep-alive, 4 TCP or QP error, 5 DRAM poison (Table 3-11, Table 17-2). -/
def loseAssociation (cntlid why : Nat) (s : State) : State :=
  match s.hq.controller cntlid with
  | none => s
  | some c =>
    let s1 := (s.hq.queues.filter (fun q => q.cntlid == cntlid)).foldl (fun t q => endQueue q t) s
    event 0x3001 9 (argOf [(0, c.number), (2, why)])
      (loseBinding (.nvme cntlid) { s1 with hq := { s1.hq with
        controllers := s1.hq.controllers.filter (fun c => c.cntlid != cntlid) } })

/-- A controller reset: its I/O queues end, CSTS.RDY becomes 0 (Table 3-11). -/
def resetController (c : Controller) (s : State) : State :=
  let s1 := (s.hq.queues.filter (fun q => q.cntlid == c.cntlid && q.qid != 0)).foldl (fun t q => endQueue q t) s
  event 0x3001 9 (argOf [(0, c.number), (2, 1)])
    (setController { c with enabled := false, ready := false, features := [], aers := [], queues := 0 } s1)

/-- KEEP_ALIVE: the association's timer starts again (R115). -/
def execKeepAlive (cntlid cid : Nat) (s : State) : Host.Outcome State Fault Refusal :=
  onController cntlid (fun c s => adminDone cntlid cid nvmeOk 0 [] (setController { c with alive := s.tt.now } s)) s

/-- KEEP_ALIVE_EXPIRY: the timer is over and the association is lost (R115). -/
def execKeepAliveExpiry (cntlid : Nat) (s : State) : Host.Outcome State Fault Refusal :=
  match s.hq.controller cntlid with
  | none => .next s
  | some c => whenDue (c.kato ≠ 0 ∧ c.alive + msBells c.kato ≤ s.tt.now) (loseAssociation cntlid 3 s) s

/-- CONNECTION_ERROR: a fatal transport error ends the queue, or the association for the admin queue (R117). -/
def execConnectionError (cntlid qid : Nat) (s : State) : Host.Outcome State Fault Refusal :=
  match s.hq.queue cntlid qid with
  | none => .next s
  | some q => .next (if qid = 0 then loseAssociation cntlid 4 s else endQueue q s)

/-- DISCONNECT: the association ends (R115). -/
def execDisconnect (cntlid cid : Nat) (s : State) : Host.Outcome State Fault Refusal :=
  onController cntlid (fun _ s => loseAssociation cntlid 2 (adminDone cntlid cid nvmeOk 0 [] s)) s

/-- The first number from one on, round a range, that is not in use; `fuel` is at least the count of numbers in use. -/
def firstFree (used : List Nat) (base span : Nat) : (fuel k : Nat) → Nat
  | 0, k => base + k % span
  | fuel + 1, k => if used.contains (base + k % span) then firstFree used base span fuel (k + 1) else base + k % span

/-- The CNTLIDs in use in a subsystem, on this head. -/
def Hq.numbersOf (h : Hq) (subsystem : Nat) : List Nat := (h.controllers.filter (fun c => c.subsystem == subsystem)).map (·.number)

/-- The first CNTLID of this head and how many it has (R90). -/
def State.cntlidRange (s : State) : Nat × Nat := if s.sys.slot = 0 then (1, 0x7FFF) else (0x8000, 0x7FF0)

/-- The next CNTLID of this head in a subsystem (R90); one that is in use is passed over. -/
def State.newCntlid (s : State) (subsystem : Nat) : Nat :=
  firstFree (s.hq.numbersOf subsystem) s.cntlidRange.1 s.cntlidRange.2 (s.hq.numbersOf subsystem).length s.hq.nextCntlid

/-- The names of controllers in use: those that are there, and those of lost ones whose binding is still kept (R545, R548). -/
def State.controllerNames (s : State) : List Nat :=
  s.hq.controllers.map (·.cntlid) ++ s.cpi.bindings.filterMap (fun r => match r.id with
    | .nvme c => some c
    | _ => none)

/-- The name under which rows speak of the next controller: the lowest not in use, below 65,536. -/
def State.newController (s : State) : Nat := firstFree s.controllerNames 0 65536 s.controllerNames.length 0

/-- The controller a Connect of an admin queue creates. -/
def State.createController (s : State) (subsystem : Nat) (nqn hostId : Bytes) (kato : Nat) : Controller where
  cntlid := s.newController
  number := s.newCntlid subsystem
  subsystem := subsystem
  nqn := nqn
  hostId := hostId
  cc := 0
  enabled := false
  ready := false
  kato := kato
  alive := s.tt.now
  queues := 0
  features := []
  aers := []
  errors := []
  errorCount := 0
  changed := []
  notices := []
  dataRead := 0
  dataWritten := 0

/-- A queue as its Connect makes it. -/
def newQueue (cntlid qid size port weight : Nat) : Queue := ⟨cntlid, qid, size, port, weight, [], none, none, 0⟩

/-- The weight of a host's connections in a subsystem: the operator's, or 4 (R100). -/
def Hq.weightOf (h : Hq) (nqn : Bytes) (subsystem : Nat) : Nat :=
  ((h.hosts.find? (fun b => b.nqn == nqn && b.subsystem == subsystem)).map (·.weight)).getD 4

/-- I/O queues in existence on the head (R91). -/
def Hq.ioQueues (h : Hq) : Nat := (h.queues.filter (fun q => q.qid != 0)).length

/-- FABRICS_CONNECT: an admin queue's Connect creates a controller of the dynamic model for a host on the subsystem's allow
list; an I/O queue's adds the queue to it, within the controller's grant and the head's 1,048,576 (R90, R91). The completion carries
the CNTLID in Dword 0. A keep-alive timeout outside 1,000 ms to 300,000 ms is refused (Table 3-4). Connect Invalid Parameters (1h/82h)
and Connect Invalid Host (1h/84h) are NVMe over Fabrics' (PRESUMED). An unnamed subsystem is the discovery service's. -/
def execFabricsConnect (port cntlid qid cid size kato : Nat) (hostNqn subNqn hostId : Bytes) (s : State) :
    Host.Outcome State Fault Refusal :=
  let bad := fun (sc : Nat) => .next (emit (s.completionOf cntlid qid cid (1, sc, true, 0) 0 []) s)
  if s.pwr.stage ≠ .service then .next s
  else if ¬ (portsOf s.hq.modes).contains port then bad 0x82
  else if qid = 0 then
    let sub := (s.hq.subsystems.find? (fun x => x.nqn == subNqn)).map (·.number)
    let number := if subNqn = [] then some 0xFFFF else sub
    match number with
    | none => bad 0x82
    | some n =>
      let allowed := s.hq.hosts.any (fun h => h.nqn == hostNqn && (n == 0xFFFF || h.subsystem == n))
      if ¬ allowed then bad 0x84
      else if 65536 ≤ s.controllerNames.length ∨ 31 < size ∨ kato < 1000 ∨ 300000 < kato ∨
          s.cntlidRange.2 ≤ (s.hq.numbersOf n).length then bad 0x82
      else
        let c := s.createController n hostNqn hostId kato
        let s1 := { s with hq := { s.hq with
          controllers := s.hq.controllers ++ [c]
          queues := s.hq.queues ++ [newQueue c.cntlid 0 (size + 1) port (s.hq.weightOf hostNqn n)]
          nextCntlid := c.number - s.cntlidRange.1 + 1 } }
        let s2 := match s1.hq.managed c.cntlid with
          | none => s1
          | some cls => bind (.nvme c.cntlid) cls hostNqn s1
        .next (emit (s2.completionOf c.cntlid 0 cid nvmeOk c.number []) s2)
  else
    match s.hq.controller cntlid with
    | none => bad 0x82
    | some c =>
      if ¬ c.ready ∨ c.granted < qid ∨ 1023 < size ∨ (s.hq.queue cntlid qid).isSome ∨ c.nqn ≠ hostNqn ∨ 1048576 ≤ s.hq.ioQueues then bad 0x82
      else
        let s1 := setController { c with queues := c.queues + 1 } { s with hq := { s.hq with
          queues := s.hq.queues ++ [newQueue cntlid qid (size + 1) port (s.hq.weightOf c.nqn c.subsystem)] } }
        .next (emit (s1.completionOf cntlid qid cid nvmeOk c.number []) s1)

/-- A controller property; CAP carries MQES 1,023 with its other fields free, VS is free, CSTS carries RDY. -/
def State.property (s : State) (c : Controller) (off : Nat) : Option Nat :=
  if off = 0x00 then some (1023 + 65536 * (s.free % 2 ^ 48))
  else if off = 0x08 then some (s.free % 2 ^ 32)
  else if off = 0x14 then some c.cc
  else if off = 0x1C then some (flagBit c.ready + 4 * (if bitField 15 14 c.cc = 0 then 0 else 2))
  else none

/-- PROPERTY_GET (R88). -/
def execPropertyGet (cntlid cid off : Nat) (s : State) : Host.Outcome State Fault Refusal :=
  onController cntlid (fun c s =>
    match s.property c off with
    | none => adminDone cntlid cid nvmeBadField 0 [] s
    | some v => adminDone cntlid cid nvmeOk v [] (drawn 1 s)) s

/-- PROPERTY_SET: CC; EN to 0 resets the controller, EN to 1 makes it ready (R115). -/
def execPropertySet (cntlid cid off value : Nat) (s : State) : Host.Outcome State Fault Refusal :=
  onController cntlid (fun c s =>
    if off ≠ 0x14 then adminDone cntlid cid nvmeBadField 0 [] s
    else
      let c1 := { c with cc := value % 2 ^ 32 }
      if c.enabled ∧ ¬ bitAt 0 value then adminDone cntlid cid nvmeOk 0 [] (resetController c1 (setController c1 s))
      else adminDone cntlid cid nvmeOk 0 [] (setController { c1 with enabled := bitAt 0 value, ready := bitAt 0 value } s)) s

/-! ### Control packets over NVMe (R95 to R97) -/

/-- C0h to C3h on a management-capable controller; elsewhere they are unknown opcodes (R96). -/
def managedOnly (cntlid cid : Nat) (f : State → State) (s : State) : Host.Outcome State Fault Refusal :=
  onController cntlid (fun _ s => if (s.hq.managed cntlid).isNone then adminDone cntlid cid nvmeBadOpcode 0 [] s else f s) s

/-- CONTROL_REPLY_POLL: Dword 0 holds the Damrid status, and bit 16 when the reply is ready (Table 3-4). -/
def execControlReplyPoll (cntlid cid tag : Nat) (s : State) : Host.Outcome State Fault Refusal :=
  managedOnly cntlid cid (fun s =>
    match s.cpi.replyOf (s.cpi.keeperOf (.nvme cntlid) tag) tag with
    | none => adminDone cntlid cid nvmeOk 0 [] s
    | some r => if r.held then adminDone cntlid cid nvmeOk 0 [] s else adminDone cntlid cid nvmeOk (statusCode r.status + 65536) [] s) s

/-- CONTROL_PACKET_SUBMIT: the packet, then its input payload (R97). From the peer, `cntlid` 65,536, it is a packet that the
peer has accepted and forwards in message `cid`: it is taken as it is, and the answer goes to the peer (R544). -/
def execControlPacketSubmit (cntlid cid : Nat) (data : Bytes) (peerInflight : Nat) (s : State) : Host.Outcome State Fault Refusal :=
  if cntlid = 65536 then
    let p := packetParts data
    onMessage cid (.forward (fieldAt data 0 2) (fieldAt data 0x0A 1) p.params (data.drop p.base))
      (acceptForward cid (fieldAt data 0 2) (fieldAt data 0x0A 1) p.params (data.drop p.base)) s
  else managedOnly cntlid cid (fun s =>
    adminDone cntlid cid nvmeOk 0 [] (submitPacket (.nvme cntlid) data (data.drop (packetParts data).base) peerInflight s)) s

/-- CONTROL_REPLY_FETCH: the reply of a tag; it is discarded when its payload has gone too (R534). An unknown tag leaves no
reply to give: Invalid Field (DEDUCED). -/
def execControlReplyFetch (cntlid cid tag : Nat) (s : State) : Host.Outcome State Fault Refusal :=
  managedOnly cntlid cid (fun s =>
    let k := s.cpi.keeperOf (.nvme cntlid) tag
    match s.cpi.replyOf k tag with
    | none => adminDone cntlid cid nvmeBadField 0 [] s
    | some r =>
      if r.held then adminDone cntlid cid nvmeBadField 0 [] s
      else
        let c1 := if r.size = 0 then dropReply k tag s.cpi else s.cpi
        adminDone cntlid cid nvmeOk 0 (r.header ++ r.params) (tallyAdd 0x02 2 1 { s with cpi := c1 })) s

/-- CONTROL_PAYLOAD_FETCH: bytes of a reply's payload, up to MDTS (Table 3-4). A range that the payload's verified segments do not reach
fails as TAG_FAIL, the End-to-end cause of Table 3-14 (R126, R534). -/
def execControlPayloadFetch (cntlid cid tag offset length : Nat) (s : State) : Host.Outcome State Fault Refusal :=
  managedOnly cntlid cid (fun s =>
    let k := s.cpi.keeperOf (.nvme cntlid) tag
    match s.cpi.replyOf k tag with
    | none => adminDone cntlid cid nvmeBadField 0 [] s
    | some r =>
      if r.held ∨ 4194304 < length then adminDone cntlid cid nvmeBadField 0 [] s
      else if (s.replyText r).length < min r.size (offset + length) then adminDone cntlid cid (nvmeOf .tagFail) 0 [] s
      else
        let b := slice (s.replyText r) offset length
        adminDone cntlid cid nvmeOk 0 b { s with cpi := noteFetched k tag (offset + b.length) s.cpi }) s

/-- The rate of a queue pair, in 2^-32 of its link's: whole until a CNP comes (R88). -/
def Hq.rateOf (h : Hq) (cntlid qid : Nat) : Nat :=
  ((h.cnps.find? (fun c => c.1 == cntlid && c.2.1 == qid)).map (·.2.2)).getD (2 ^ 32)

/-- CNP_RECEIVED: the rate of the queue pair is reduced (Table 3-2): below what it was, by how much is a free value. -/
def execCnpReceived (cntlid qid : Nat) (s : State) : Host.Outcome State Fault Refusal :=
  match s.hq.queue cntlid qid with
  | none => .next s
  | some _ =>
    .next (drawn 1 { s with hq := { s.hq with
      cnps := s.hq.cnps.filter (fun c => !(c.1 == cntlid && c.2.1 == qid)) ++
        [(cntlid, (qid, s.free % max 1 (s.hq.rateOf cntlid qid)))] } })

end Sys2Proof.Machine
end

