-- ==== Sys2Proof/Machine/Vault.lean ====
section
/-! DEFINITION. Vault mode: entry, the image and its strips, the sheet, the peer's notices, restore (R156 to R163, R254,
R384 to R387, R616, R617). -/

namespace Sys2Proof.Machine

/-! ### Power domains (Table 18-2) -/

/-- The domains of an island. -/
def islandDomains (i : Nat) : List Nat :=
  if i = 0 then [0, 1, 2]
  else if i ≤ 4 then (List.range 4).map (fun n => 3 + 4 * (i - 1) + n)
  else if i ≤ 8 then [19 + 2 * (i - 5), 20 + 2 * (i - 5)]
  else if i = 9 then [27, 28]
  else if i = 10 then [29, 30, 31]
  else if i = 11 then [32, 33]
  else if i ≤ 13 then (List.range 3).map (fun n => 34 + 3 * (i - 12) + n)
  else if i ≤ 15 then (List.range 4).map (fun n => 40 + 4 * (i - 14) + n)
  else if i ≤ 17 then (List.range 3).map (fun n => 48 + 3 * (i - 16) + n)
  else if i = 18 then (List.range 5).map (fun n => 54 + n)
  else if i = 19 then (List.range 3).map (fun n => 59 + n)
  else if i = 20 then [62, 63]
  else if i ≤ 24 then (List.range 3).map (fun n => 64 + 3 * (i - 21) + n)
  else if i = 25 then [76, 77]
  else if i ≤ 29 then (List.range 4).map (fun n => 78 + 4 * (i - 26) + n)
  else if i = 30 then [94]
  else if i = 31 then [95]
  else []

/-- The Tally blocks that lie in an island, as their windows' registers do. -/
def islandBlocks (i : Nat) : List Nat :=
  if i = 10 then [0x05] else if i = 11 then [0x06] else if i = 12 then [0x07] else if i = 16 then [0x08]
  else if i = 18 then [0x09] else if i = 20 then [0x0A] else if i = 19 then [0x0B] else if i = 21 then [0x0C]
  else if i = 25 then [0x0D] else if i = 26 then [0x0E] else if i = 30 then [0x0F, 0x10] else []

/-- The cipher island of a context. -/
def CipherCtx.inIsland (c : CipherCtx) (i : Nat) : Bool := c.place != 2 && c.island + 16 == i

/-- An island without a powered domain holds no state: its error registers, the contexts on its lanes and in its store, its
digest contexts, its counters (R21, R590). The measurement registers are not its own (Table 18-5). -/
def islandLost (i : Nat) (s : State) : State :=
  { s with
    tally := (islandBlocks i).foldl (fun t b => t.restartBlock b) s.tally
    skx := if i = 14 then Skx.reset else s.skx
    ciph := { s.ciph with
      ctxs := s.ciph.ctxs.filter (fun c => !c.inIsland i)
      failStatus := if i = 16 then 0 else s.ciph.failStatus
      failLane := if i = 16 then 0 else s.ciph.failLane
      failLocker := if i = 16 then 0 else s.ciph.failLocker
      failCount := if i = 16 then 0 else s.ciph.failCount
      digests := if i = 18 then [] else s.ciph.digests
      digestLast := if i = 18 then 0 else s.ciph.digestLast
      digestCount := if i = 18 then 0 else s.ciph.digestCount }
    ec := if i = 19 then { s.ec with sel := 0 } else s.ec }

/-- Some domain of an island is powered. -/
def State.islandOn (s : State) (i : Nat) : Bool := (islandDomains i).any (fun d => bitAt d s.pwr.domains)

/-- The powered domains change to a mask; the switches are counted (Table 17-3), and an island that is switched off loses what it
holds (R21). -/
def setDomains (mask : Nat) (s : State) : State :=
  let s1 := tallyAdd 0x11 0 ((List.range 96).filter (fun d => bitAt d mask != bitAt d s.pwr.domains)).length
    { s with pwr := { s.pwr with domains := mask } }
  ((List.range 32).filter (fun i => s.islandOn i && !s1.islandOn i)).foldl (fun t i => islandLost i t) s1

/-- Some islands alone are powered. -/
def powerIslands (keep : List Nat) (s : State) : State := setDomains (maskOf (keep.flatMap islandDomains)) s

/-- The islands Vault mode keeps (R158). -/
def vaultIslands : List Nat := [0, 1, 10, 16, 19] ++ (List.range 11).map (· + 21)

/-! ### Entry (R157, R254) -/

/-- A command at Vault mode entry: a write whose COMMIT has been sent leaves its marks Held here; a write not Staged goes
with its blocks; a read goes (R140, R157). -/
def leaveForVault (x : Ctx) (s : State) : State :=
  let s1 := unpin (dropCtx x s)
  if x.isWrite ∧ x.state ≠ .staged then
    if x.committed then (s.marksOf x).foldl (fun t m => holdMark m t) s1
    else unadmit x (dropWrite x.cap.nsid x.seq s1)
  else s1

/-- The exact counters go into the journal tail as COUNTER records of kind 2 (R254, R302). -/
def journalCounters (s : State) : State :=
  s.ciph.counters.foldl (fun t c => journal (.counter c.handle c.lane 2 c.value) t) s

/-- Vault mode starts (R156, R157): what was fetched and is not Staged goes, the hold-up test load is released, the exact
counters are journalled, VAULT_NOTICE leaves, and the Vault sheet is due. Once entered it is not entered again. -/
def enterVault (s : State) : State :=
  let s1 := s.hq.ctxs.foldl (fun t x => leaveForVault x t) (thawDiary 2 s)
  let s0 := endMeasure s1
  let s2 : State := { s0 with
    pwr := { s0.pwr with stage := .vault, failHighSince := some s.tt.now }
    cpi := { s0.cpi with accepted := [] }
    stg := { s0.stg with vault := 1, vaultAt := s.tt.now, image := none, trailer := false }
    tt := { s0.tt with vaultDue := true }
    ciph := { s0.ciph with ctxs := [] } }
  event 0x4004 10 1 (sendPeer (.vaultNotice s.tt.now) (journalCounters s2))

/-- Power fails before the Bring-up sheet is in force: no image is written, ports and bays go down, DRAM goes to
self-refresh, and the head waits (R617). -/
def earlyFail (s : State) : State :=
  { s with
    pwr := { s.pwr with stage := .earlyWait, failHighSince := some s.tt.now }
    hq := { s.hq with linkUp := 0, controllers := [], queues := [], ctxs := [] }
    cpi := { s.cpi with accepted := [] }
    bay := { s.bay with
      bays := s.bay.bays.map (fun (x : Nat × Bay) =>
        (x.1, if x.2.linkUp || x.2.state == .training then { x.2 with state := .down } else x.2))
      waiting := [], outstanding := [] }
    dram := { s.dram with channels := s.dram.channels.map (fun c =>
      if c.state = .absent then c else { c with selfRefresh := true }) } }

/-- A stage before the Bring-up sheet is in force, with supplies valid. -/
def Stage.early : Stage → Bool
  | .recovery => true
  | .prefect => true
  | .control => true
  | .joining => true
  | .starting => true
  | .off => false
  | .aonOnly => false
  | .service => false
  | .earlyWait => false
  | .vault => false
  | .sealed => false

/-- What a power failure or a trip does in the present stage (R156, R602, R617). -/
def powerFails (s : State) : State :=
  if s.pwr.stage = .service then enterVault s
  else if s.pwr.stage.early then earlyFail s
  else { s with pwr := { s.pwr with failHighSince := some s.tt.now } }

/-- PWR_FAIL_N_LOW: PWR_FAIL_N stays low for 1 µs; an open pin is ignored (R156, Table 19-6). -/
def execPwrFailNLow (s : State) : Host.Outcome State Fault Refusal :=
  whenDue ((s.pins.pin 256).fault ≠ .isOpen) (powerFails (setLevel 256 false s)) s

/-- EARLY_POWER_FAIL: power fails before the Bring-up sheet is in force (R617). -/
def execEarlyPowerFail (s : State) : Host.Outcome State Fault Refusal :=
  whenDue (s.pwr.stage.early = true) (earlyFail s) s

/-- THERMAL_VAULT: the hottest sensor has read a temperature for 1 ms; at 110 °C or more Vault mode starts (R637, R627). -/
def execThermalVault (temp : Int) (island : Nat) (s0 : State) : Host.Outcome State Fault Refusal :=
  let s := noteHottest temp island s0
  whenDue (110 ≤ temp)
    (let t := powerFails s
     if s.pwr.stage = .service ∨ s.pwr.stage.early = true then
       { t with pins := { t.pins with thermVault := true, tempVault := true } }
     else t) s

/-! ### The image (Tables 10-15 to 10-17) -/

/-- The place of the first element that meets a test; 0xFFFF_FFFF where there is none. -/
def placeOf {α : Type} (p : α → Bool) (l : List α) : Nat :=
  ((List.range l.length).find? (fun i => (l.drop i).head?.any p)).getD 0xFFFFFFFF

/-- A commit mark record (Table 4-4). -/
def CommitMark.bytes (m : CommitMark) : Bytes :=
  let b := fields [(8, m.seq), (4, m.volume), (2, m.count), (1, m.origin), (1, 1), (8, m.lba), (4, 0)]
  b ++ leBytes 4 (crc32c b)

/-- The versions of a block, newest first. -/
def VaultImage.versionsOf (v : VaultImage) (vol grain q : Nat) : List Ver :=
  (sortBy (fun a b => b.seq ≤ a.seq) (v.versions.filter (fun x => x.at_ vol grain q)))

/-- The versions in descriptor order: entry order, then quarter order, newest first; those without a buffer have no
descriptor. -/
def VaultImage.ordered (v : VaultImage) : List Ver :=
  v.entries.flatMap (fun e => (List.range 4).flatMap (fun q =>
    (v.versionsOf e.vol e.grain q).filter (fun x => !x.noBuffer)))

/-- The buffer index of a version: its place in descriptor order. -/
def VaultImage.buffer (v : VaultImage) (x : Ver) : Nat :=
  placeOf (fun (y : Ver) => y.at_ x.vol x.grain x.quarter && y.seq == x.seq) v.ordered

/-- The quarter flags of an entry (Table 4-2). -/
def Ver.flagBits (x : Ver) : Nat := 1 + 2 * flagBit x.zeros + 4 * flagBit x.dealloc + 8 * flagBit x.hasPi

/-- An entry header (Table 4-2). -/
def VaultImage.entryBytes (v : VaultImage) (e : Entry) : Bytes :=
  let top := fun q => (v.versionsOf e.vol e.grain q).head?
  let flags := sumNat ((List.range 4).map (fun q => ((top q).map Ver.flagBits).getD 0 * 16 ^ q))
  let staged := v.versions.filter (fun x => x.vol == e.vol && x.grain == e.grain && x.staged)
  fields [(4, e.vol), (2, (if e.destage.isSome then 2 else 1) + 4 * flagBit e.destaged), (2, flags), (8, e.grain)] ++
  (List.range 4).flatMap (fun q => leBytes 4 (((top q).map v.buffer).getD 0xFFFFFFFF)) ++
  fields [(8, (staged.map (·.seq)).foldl max 0), (8, e.lastWrite),
    (4, sumNat ((v.versions.filter (fun x => x.vol == e.vol && x.grain == e.grain)).map (·.readers)))] ++ zeros 12

/-- A block descriptor (Table 4-3). -/
def VaultImage.descriptor (v : VaultImage) (x : Ver) : Bytes :=
  let older := ((v.versionsOf x.vol x.grain x.quarter).filter (fun y => y.seq < x.seq && !y.noBuffer)).head?
  fields [(8, x.seq), (4, placeOf (fun (e : Entry) => e.vol == x.vol && e.grain == x.grain) v.entries),
    (4, (older.map v.buffer).getD 0xFFFFFFFF), (4, placeOf (fun (m : CommitMark) => m.volume == x.vol && m.seq == x.seq &&
      m.lba ≤ 4 * x.grain + x.quarter && 4 * x.grain + x.quarter < m.lba + m.count) v.marks),
    (2, flagBit x.staged + 2 * x.origin + 4 * flagBit x.hasPi + 8 * flagBit x.zeros), (2, 0), (4, crc32c x.bytes), (4, 0)]

/-- Parts 1 to 4 of the body. -/
def VaultImage.parts (v : VaultImage) : Bytes :=
  let n := v.ordered.length
  ((List.range v.entries.length).flatMap (fun i => leBytes 4 i ++ zeros 4 ++
    ((v.entries[i]?).map v.entryBytes).getD [])) ++
  ((List.range n).flatMap (fun i => leBytes 4 i ++ zeros 4 ++ ((v.ordered[i]?).map v.descriptor).getD [])) ++
  fitBytes (32 * 1048576) (v.marks.flatMap CommitMark.bytes) ++
  v.tail.flatMap JRec.bytes ++ v.mirror.flatMap JRec.bytes ++
  v.ordered.flatMap (fun x => x.bytes ++ (if x.hasPi then fitBytes 64 x.pi else [])) ++
  fitBytes (32 * 1048576) (v.diary.flatMap DiaryRec.bytes)

/-- The bytes of header and parts 1 to 4. -/
def VaultImage.bodyLength (v : VaultImage) : Nat := 256 + v.parts.length

/-- The image header (Table 10-16). -/
def VaultImage.header (v : VaultImage) : Bytes :=
  ascii "BRCVAULT" ++ fields [(1, 1), (1, v.head), (2, 0), (4, v.term), (8, v.id), (8, v.clock), (4, v.entries.length),
    (4, v.ordered.length), (8, (v.tail.flatMap JRec.bytes).length), (8, (v.mirror.flatMap JRec.bytes).length),
    (8, v.bodyLength)] ++ zeros 192

/-- The image trailer (Table 10-17). -/
def VaultImage.trailer (v : VaultImage) : Bytes :=
  ascii "BRCVSEAL" ++ fields [(8, v.id), (8, v.sealedAt), (8, v.tOff), (8, v.bodyLength), (8, v.durable), (8, v.day)] ++ zeros 72

/-- The image of what this head holds (R159). -/
def State.vaultImage (s : State) : VaultImage where
  id := s.stg.vaultAt
  head := s.sys.slot
  term := (s.tt.active.map (·.term)).getD 0
  clock := s.clockUs
  entries := s.stg.entries.filter (fun e => s.stg.versions.any (fun v => v.vol == e.vol && v.grain == e.grain && !v.released))
  versions := s.stg.versions.filter (fun v => !v.released)
  marks := s.stg.marks
  tail := s.ftl.tail
  mirror := s.ftl.mirror
  diary := s.diary.ring.reverse
  sealedAt := 0
  tOff := 0
  durable := 0
  day := 0

/-- The stream header of an image (R385). -/
def vaultStream (v : VaultImage) (nonce poolId : Bytes) : Bytes :=
  ascii "BRCSAEAD" ++ fields [(1, 1), (1, 0), (1, 0x10), (1, 0), (2, v.head), (2, 0)] ++ fitBytes 12 nonce ++ zeros 4 ++
  fields [(8, v.id)] ++ fitBytes 8 poolId ++ zeros 16

/-- Segments one after another from an index and the tag before it; the last one final where asked. -/
def sealSegments (key header nonce : Bytes) (final : Bool) : List Bytes → Nat → Bytes → Bytes × Bytes
  | [], _, prev => ([], prev)
  | t :: r, i, prev =>
    let (b, tag) := sealSegment key header prev nonce i (final && r.isEmpty) t
    let (c, last) := sealSegments key header nonce final r (i + 1) tag
    (b ++ c, last)

/-- A byte string in pieces of n bytes, the last padded with zeros. -/
def piecesOf (n : Nat) (b : Bytes) : List Bytes := (List.range (ceilDiv b.length n)).map (fun i => fitBytes n (slice b (n * i) n))

/-- The stream up to the trailer's segment, and the whole stream (R385). The last segment before the trailer is padded. -/
def imageStream (v : VaultImage) (key nonce poolId : Bytes) : Bytes × Bytes :=
  let h := vaultStream v nonce poolId
  let texts := piecesOf 65536 (v.header ++ v.parts)
  let (body, tag) := sealSegments key h nonce false texts 0 (zeros 16)
  let (last, _) := sealSegment key h tag nonce texts.length true v.trailer
  (h ++ body, h ++ body ++ last)

/-- The bytes parity covers of strip j of a stream: per page its data and its four Vault envelopes (R327, R386). -/
def vaultStrip (stream : Bytes) (id j : Nat) : Bytes :=
  (List.range 4).flatMap (fun pg =>
    let at_ := 65536 * j + 16384 * pg
    fitBytes 16384 (slice stream at_ 16384) ++
    (List.range 4).flatMap (fun q => envelope 3 0 0 0 0 0 (at_ + 4096 * q) id [] []))

/-- Where a strip of a half lies: group, stripe, position (R386). -/
def vaultPlace (v : VaultHalf) (k strips j : Nat) : Nat × (Nat × Nat) :=
  (v.first + j / (k * strips), (j / k % strips, j % k))

/-- A strip of the image is queued, unless its member does not serve: such a strip stays unwritten (R356, R641). -/
def queueImageOp (op : DieOp) (s : State) : State := if s.ec.serving op.bay then queueOp op s else s

/-- A strip of the image is queued for its die; after the last of a stripe, its parity, interim in the last stripe. -/
def queueVaultStrip (v : VaultHalf) (stream : Bytes) (id total j : Nat) (s : State) : State :=
  match s.ec.group (vaultPlace v 1 1 0).1 with
  | none => s
  | some g0 =>
    let spb := s.stripsPerBlock (blkBay (g0.blocks.getD 0 0))
    let (gid, stripe, pos) := vaultPlace v g0.k spb j
    match s.ec.group gid with
    | none => s
    | some g =>
      let hdr := fun kind p written pp => fun pg => pageHeader kind pg p gid stripe written g.layout s.epoch pp
      let s1 := queueImageOp { blkOp 2 (g.blocks.getD pos 0) stripe 0 5 (.vaultStrip j)
        (stripData (vaultStrip stream id j) (hdr 4 pos 0 0)) with stream := 11 } s
      if pos + 1 = g.k ∨ j + 1 = total then
        let n := pos + 1
        let strips := (List.range n).map (fun i => vaultStrip stream id (j + 1 - n + i))
        (List.range g.m).foldl (fun t c =>
          queueImageOp (blkOp 2 (g.blocks.getD (g.k + c) 0) stripe 0 5 (.vaultStrip j)
            (stripData (paritySum c 0 n strips) (hdr 2 (g.k + c) (n + 64 * flagBit (decide (n < g.k))) stripe))) t) s1
      else s1

/-- The strips of the image before its trailer are queued; without a durable ceiling for its nonces the image waits
(R159, R253, R386). -/
def writeImage (s : State) : State :=
  match s.pool.bind (fun p => (p.nextHalf s.sys.slot).map (fun v => (p, v))) with
  | none => { s with stg := { s.stg with image := some s.vaultImage } }
  | some (p, v) =>
    match takeNonce (systemHandle 0) 0 0 (2 ^ 32) s with
    | (s1, none) => s1
    | (s1, some nonce) =>
      let img := s.vaultImage
      let stream := (imageStream img (s.systemKey 0x10 s.sys.slot) nonce p.id).1
      let n := stream.length / 65536
      setHalf v.head v.half (fun w => { w with erased := false })
        ((List.range n).foldl (fun t j => queueVaultStrip v stream img.id (n + 2) j t)
          { s1 with stg := { s1.stg with image := some img, imageNonce := nonce } })

/-- Operations of the image that are not complete. -/
def Bays.flushing (b : Bays) : Bool :=
  (b.waiting ++ b.outstanding).any (fun o =>
    match o.use with
    | .vaultStrip _ => true
    | _ => false)

/-- The strips of an image from one on are queued. -/
def queueLastStrips (v : VaultHalf) (stream : Bytes) (id from_ total : Nat) (s : State) : State :=
  (List.range (total - from_)).foldl (fun t j => queueVaultStrip v stream id total (from_ + j) t) s

/-- Once the strips before it are complete, the trailer and the last strips are queued (R159). -/
def writeTrailer (s : State) : State :=
  match s.stg.image with
  | none => s
  | some img0 =>
    if s.pwr.stage ≠ .vault ∨ s.stg.trailer ∨ s.bay.flushing then s
    else
      let img := { img0 with
        sealedAt := s.tt.now, tOff := s.clockUs, durable := s.ftl.durable, day := s.day }
      let s1 : State := { s with stg := { s.stg with image := some img, trailer := true } }
      match s.pool.bind (fun p => (p.nextHalf s.sys.slot).map (fun v => (p, v))) with
      | none => s1
      | some (p, v) =>
        let r := imageStream img (s.systemKey 0x10 s.sys.slot) s.stg.imageNonce p.id
        queueLastStrips v r.2 img.id (r.1.length / 65536) (ceilDiv r.2.length 65536) s1

/-- Vault mode has started before this period boundary and its sheet is not in force. -/
def State.vaultEntryDue (s : State) : Bool := s.pwr.stage == .vault && s.tt.vaultDue && decide (s.stg.vaultAt < s.tt.now)

/-- The Vault sheet takes effect: host port links go down, every island but those of R158 is gated, and the image is written
(R85, R158, R159). -/
def vaultSheet (s : State) : State :=
  let s1 := s.hq.controllers.foldl (fun t c => loseAssociation c.cntlid 4 t) s
  let s2 := putSheet ⟨6, s.sys.slot, 0⟩ { s1 with
    tt := { s1.tt with vaultDue := false }
    hq := { s1.hq with linkUp := 0 } }
  writeImage (powerIslands vaultIslands { s2 with bay := { s2.bay with
    waiting := s2.bay.waiting.filter (fun o => o.cls == 5 || o.opcode == 9) } })

/-- VAULT_SHEET_ENTRY: at the next period boundary the Vault sheet takes effect; host port links go down, every island but
those of R158 is gated, and the image is written (R85, R158, R159). The bell of that boundary has done it before it posts
anything; the row does what is still due. -/
def execVaultSheetEntry (s : State) : Host.Outcome State Fault Refusal := whenDue (s.vaultEntryDue = true) (vaultSheet s) s

/-! ### The peer's notices (R161) -/

/-- VAULT_NOTICE: the peer is presumed down at once; its dies are fenced, its vault-area forms not yet (R161, R477). -/
def execVaultNotice (time : Nat) (s : State) : Host.Outcome State Fault Refusal :=
  onWord (.vaultNotice time) (fun s => event 0x4004 10 3
    (let t := presumeDown true s
     { t with corr := { t.corr with notice := some s.tt.now, peerImage := some time } })) s

/-- The peer's vault-area forms are fenced, and no notice waits any more. -/
def fenceVaultForms (s : State) : State :=
  fenceForms (s.peerForms.filter s.vaultForm) { s with corr := { s.corr with notice := none } }

/-- VAULT_DONE: the peer's image is sealed; its vault-area forms are fenced (R161). -/
def execVaultDone (time length : Nat) (s : State) : Host.Outcome State Fault Refusal :=
  onWord (.vaultDone time length) (fun s => event 0x4004 10 4
    (if s.corr.notice.isSome then fenceVaultForms s else s)) s

/-- VAULT_DONE_TIMEOUT: 2 s after VAULT_NOTICE without VAULT_DONE, the vault-area forms are fenced (R161). -/
def execVaultDoneTimeout (s : State) : Host.Outcome State Fault Refusal :=
  whenDue (∃ t ∈ s.corr.notice, t + secBells 2 ≤ s.tt.now) (fenceVaultForms s) s

/-! ### Restore (R616) -/

/-- VAULT_RESTORE_COMPLETE: the block buffers of the vault images are restored; commands on their grains become
admissible, and once every block is Staged again the image retires (R387, R616). -/
def execVaultRestoreComplete (s : State) : Host.Outcome State Fault Refusal :=
  whenDue (s.stg.restored = false ∧ (s.pwr.stage = .service ∨ s.pwr.stage = .starting))
    (let t : State := { s with stg := { s.stg with restored := true, restoring := [] } }
     match (s.stg.images.map (·.id)).max? with
     | none => t
     | some id => retireImages s.sys.slot id t) s

end Sys2Proof.Machine
end

