-- ==== Sys2Proof/Machine/Faults.lean ====
section
/-! DEFINITION. Faults of DRAM channels and bursts, live retraining, faults of the protected bank and its LED group
(R554, R572 to R578, R628 to R632). -/

namespace Sys2Proof.Machine

/-! ### Uncorrectable bursts (Table 16-5) -/

/-- A version whose buffer, header, descriptor or mark is gone: the peer's copy is taken, or, alone, it is a block that is in
no available image (R163). -/
def loseVersion (vol grain quarter seq : Nat) (s : State) : State :=
  let hit := fun (v : Ver) => v.vol == vol && v.grain == grain && v.quarter == quarter && v.seq == seq
  if s.paired then { s with stg := { s.stg with versions := s.stg.versions.filter (fun v => !hit v) } }
  else { s with stg := { s.stg with versions := s.stg.versions.map (fun v =>
    if hit v then { v with lost := true, data := [], pi := [] } else v) } }

/-- The tree page at an MPA, among the pages of maps: root and page key. -/
def Ftl.pageAt (f : Ftl) (mpa : Nat) : Option (Nat × Nat) :=
  (f.roots.flatMap (fun r => r.leaves.map (fun l => (r.id, l.1)))).find? (fun p =>
    getKey (pageId 1 p.1 0 p.2) f.mpas == some mpa)

/-- A cached page is read again from flash; a dirty one is then brought forward by the tail's records, which the model's
maps hold already (R304). -/
def refetchPage (mpa : Nat) (s : State) : State :=
  match s.ftl.pageAt mpa with
  | none => s
  | some (t, k) =>
    fetchMeta t k mpa { s with ftl := { s.ftl with
      absent := if s.ftl.absent.contains (t, k) then s.ftl.absent else s.ftl.absent ++ [(t, k)]
      used := s.ftl.used.filter (fun p => p != (t, k)) } }

/-- What the requester of an uncorrectable burst does (Table 16-5). -/
def poisoned (d : DramData) (s : State) : State :=
  match d with
  | .staging v g b n => loseVersion v g b n s
  | .journal => s
  | .cacheClean mpa => refetchPage mpa s
  | .cacheDirty mpa => refetchPage mpa s
  | .filterLine l => { s with ddp := { s.ddp with
      badLines := if s.ddp.badLines.contains l then s.ddp.badLines else s.ddp.badLines ++ [l] } }
  | .indexDelta => s
  | .queueEntry c q => if q = 0 then loseAssociation c 5 s else endConnection c q 4 s
  | .context id => { s with ciph := { s.ciph with ctxs := s.ciph.ctxs.map (fun x =>
      if x.number == id && x.place == 2 then { x with wrapped := [] } else x) } }
  | .sealTable sound => sealsRead sound s
  | .faculty _ => s
  | .other => s

/-- DRAM_UNCORRECTABLE: the burst is poisoned: the event names its HPA, its channel is to be taken out, and its requester
acts (R572, R573). The peer's copy of a staging version comes by MIRROR_DATA and MARK_LIST, those of a journal tail and of
an index delta stand elsewhere. -/
def execDramUncorrectable (channel hpa : Nat) (data : DramData) (s : State) : Host.Outcome State Fault Refusal :=
  .next (poisoned data (noteUncorrectable channel hpa s))

/-! ### A channel out of service (R573, R578) -/

/-- DRAM_CHANNEL_OUT: a cause of R573 holds: the degradation is announced and the channel is evacuated at the switch day; a
cause that recurs within 86,400 s of its return keeps it out (R573, R578). -/
def execDramChannelOut (channel : Nat) (s : State) : Host.Outcome State Fault Refusal :=
  let c := s.dram.ch channel
  whenDue (c.outDue = true ∧ c.state = .inService ∧ s.dram.evacPhase = .none ∧ s.dram.evacNext = none ∧ channel < 16)
    (let stuck := c.cause.isSome && c.cause == c.lastCause && c.returned.any (fun t => s.clockSec ≤ t + 86400)
     let s1 := setChannel channel { c with outDue := false, stuckOut := c.stuckOut || stuck } s
     trigger true 3 channel { s1 with dram := { s1.dram with evacNext := some (channel, !stuck) } }) s

/-- A channel comes home: it is in service, and the return of its degradation begins its 64 days; during bring-up the next
channel follows (Table 2-14, Table 16-6, R578). -/
def channelHome (channel : Nat) (s : State) : State :=
  let c := s.dram.ch channel
  let s1 := channelEvent channel (setChannel channel { c with
    state := .inService, returned := some s.clockSec, lastCause := c.cause } { s with dram := { s.dram with
      evacPhase := .none, evacDone := 0 } })
  if s1.dram.bringUp then nextBringUp s1 else beginReturn ⟨3, s.sys.slot, channel⟩ s1

/-- A channel retrains at the rate in force (R578 step 4). -/
def retrainChannel (channel : Nat) (s : State) : State :=
  let c := s.dram.ch channel
  channelEvent channel (setChannel channel { c with
    state := .training, selfRefresh := false, debts := [], retrains := c.retrains + 1 } { s with dram := { s.dram with
      evacChannel := channel, evacPhase := .out } })

/-- DRAM_EVAC_COPY_DONE: the units of a channel are copied: out, and it is retrained or enters self-refresh; or home, and it
is in service (R578). The copy pointer has then passed every unit. -/
def execDramEvacCopyDone (channel : Nat) (s : State) : Host.Outcome State Fault Refusal :=
  let c := s.dram.ch channel
  .next <|
    if s.dram.evacChannel ≠ channel ∨ s.dram.evacDone < s.dram.copyUnits then s
    else if s.dram.evacPhase = .copyingOut then
      (if s.dram.evacRetrain then retrainChannel channel s
       else channelEvent channel (setChannel channel { c with state := .out, selfRefresh := true } { s with dram := { s.dram with
         evacPhase := .out } }))
    else if s.dram.evacPhase = .copyingHome then channelHome channel s
    else s

/-- After each training during start-up: eight channels in service bring the bring-up map into force; with all others done
the bring-up channels are retrained one at a time (Table 16-6). -/
def bringUpProgress (s : State) : State :=
  if ¬ s.dram.bringUp then (if s.dram.trained.length = 8 then bringUpReady s else s)
  else if s.dram.othersDone ∧ s.dram.evacPhase = .none then nextBringUp s
  else s

/-- A bring-up channel failed: the next accepted channel that has not been tried trains in its place (R576). -/
def nextAccepted (s : State) : State :=
  match s.dram.accepted.find? (fun c => (s.dram.ch c).state == .absent) with
  | none => s
  | some c => startTraining c s

/-- DRAM_TRAINING_DONE: a channel's training ends: at start-up it serves at its rate or stays out with its event; when it was
retrained its units are copied home, or it stays out (R554, R573, R575, R576, R578). -/
def execDramTrainingDone (channel : Nat) (pass : Bool) (s : State) : Host.Outcome State Fault Refusal :=
  let c := s.dram.ch channel
  whenDue (c.state = .training)
    (if s.dram.evacPhase = .out ∧ s.dram.evacChannel = channel then
       (if pass then channelEvent channel (setChannel channel { c with state := .copyingHome, rate := s.dram.trainRate channel }
          { s with dram := { s.dram with evacPhase := .copyingHome, evacDone := 0 } })
        else
          let s1 := channelEvent channel (setChannel channel { c with state := .out, stuckOut := true } { s with dram := { s.dram with
            evacPhase := .none, evacDone := 0 } })
          if s1.dram.bringUp then nextBringUp s1 else s1)
     else if pass then
       bringUpProgress (channelEvent channel (setChannel channel { c with state := .inService, rate := s.dram.trainRate channel } s))
     else if s.dram.bringUp then
       bringUpProgress (trigger true 3 channel (channelEvent channel (setChannel channel { c with state := .out } s)))
     else nextAccepted (trigger true 3 channel (channelEvent channel (setChannel channel { c with state := .failed } s)))) s

/-- DRAM_CHANNEL_DEAD: a channel stops answering before it was evacuated, which is a fault of the head: with the peer in
service it fences itself, tells the peer and makes a warm start; under the Peer-absent sheet it enters Vault mode (R574).
Without a peer in service before that sheet is in force it does the same as under it. -/
def execDramChannelDead (channel : Nat) (s : State) : Host.Outcome State Fault Refusal :=
  let c := s.dram.ch channel
  whenDue (c.up = true)
    (let s1 := channelEvent channel (setChannel channel { c with state := .failed } s)
     if s1.paired then
       let s2 := selfFence s1
       { send (.releaseNotice s.tt.now) s2 with pwr := { s2.pwr with restartDue := true } }
     else if s1.pwr.stage = .service then enterVault s1
     else { s1 with pwr := { s1.pwr with restartDue := true } }) s

/-- DIAG_DRAM_CHANNEL: a channel is taken out and retrained, taken out, or brought back by steps 4 and 5; a second
evacuation while one runs is refused, and so is an action on a channel that is not in the state for it (R578). -/
def execDiagDramChannel (b : Binding) (tag : Nat) (s : State) : Host.Outcome State Fault Refusal :=
  onPacket b tag 0x0804 (fun p s =>
    let ch := p.param 0 1
    let act := p.param 1 1
    let c := s.dram.ch ch
    if act = 3 then
      (if c.state ≠ .out ∨ c.stuckOut = true then badParam p 0 s
       else changed p (leBytes 8 (s.day + 64)) (retrainChannel ch { s with dram := { s.dram with evacRetrain := true } }))
    else if s.dram.evacPhase ≠ .none ∨ s.dram.evacNext.isSome = true then refuse p .objectBusy noDetail s
    else if c.state ≠ .inService then badParam p 0 s
    else changed p (leBytes 8 s.switchDay) (trigger true 3 ch { s with dram := { s.dram with evacNext := some (ch, act == 1) } })) s

/-! ### Pins (R628 to R632) -/

/-- What a classed fault does beyond its event (Table 19-6): an open PWR_FAIL_N puts staging in write-through; the rest is in
the functions of the pins. -/
def pinAction (pin : Nat) (s : State) : State :=
  if pin = 256 ∧ (s.pins.pin 256).fault = .isOpen then { s with stg := { s.stg with
      reason := if s.stg.reason = 3 then 3 else 4, limitNext := some 0 } } else s

/-- PIN_FAULT_DETECT: the pin monitor finds a pin open or shorted (R631, R632). -/
def execPinFaultDetect (pin : Nat) (kind : PinFaultKind) (s : State) : Host.Outcome State Fault Refusal :=
  whenDue (pin ≤ 330) (pinAction pin (pinFound pin kind s)) s

/-- With PWR_FAIL_N sound again, the reason of write-through is again what the last measurement gives (R154, Table 19-6). -/
def failPinSound (s : State) : State :=
  if s.stg.vmin = 0 then { s with stg := { s.stg with reason := 6 } }
  else if s.stg.when_ = 0 ∨ s.stg.energy = 0 then { s with stg := { s.stg with reason := if s.stg.when_ = 0 then 5 else 4 } }
  else { s with stg := { s.stg with
    reason := s.stg.reasonFor s.stg.meas.1 s.stg.meas.2, limitNext := some (s.limitFor s.stg.meas.1 s.stg.meas.2) } }

/-- The level of a pin whose fault has cleared: an output has that of its driver or its termination, a pin that was held low that of its
termination, any other input stays as it is seen. -/
def clearedLevel (pin : Nat) (x : Pin) : Bool :=
  if x.fault ≠ .isOpen ∧ isOutputPin pin = true then (if x.driven then x.high else restHigh pin)
  else if x.fault = .shortGround then restHigh pin
  else x.level

/-- PIN_FAULT_CLEAR: a fault clears after 64 consecutive sound tests, or 64 days for a pin sampled continuously (R631). -/
def execPinFaultClear (pin : Nat) (s : State) : Host.Outcome State Fault Refusal :=
  let x := s.pins.pin pin
  whenDue (x.fault ≠ .sound ∧ x.clamped = false ∧
      (if x.fault = .isOpen then 64 ≤ x.goodTests else x.since + 64 ≤ s.day))
    (let t := updPin pin { x with
        fault := .sound, badTests := 0, goodTests := 0, level := clearedLevel pin x } s
     if pin = 256 ∧ s.stg.reason = 4 then failPinSound t else t) s

/-- The LED pins that are a feature of Damrid's own now (R630): a member Failed, Missing or in Detention; the head at fault, in
Vault mode, located. -/
def State.ledOwned (s : State) (pin : Nat) : Bool :=
  if pin < 328 then (s.ec.member (pin - 264)).any (fun m => m.state == .failed || m.state == .missing || m.state == .detention)
  else if pin = 328 then s.corr.roll == .selfFenced || s.pwr.trippedSinceStart
  else if pin = 329 then s.pins.locate
  else s.pwr.stage == .vault || s.pwr.stage == .sealed

/-- An LED that Damrid lights is lit, but that of a member in Detention blinks at 1 Hz: half a second of each (R630). DESIGN CHOICE, log 77: the
phase is the bell count's. -/
def State.ledOn (s : State) (pin : Nat) : Bool :=
  pin ≥ 328 || (s.ec.member (pin - 264)).all (fun m => m.state != .detention) || s.tt.now / 31250 % 2 == 0

/-- The resource of an LED pin (Table 15-5). -/
def ledResource (pin : Nat) : Nat := 0x01000000 + (pin - 264)

/-- An LED pin off: high impedance (R630). -/
def restLed (pin : Nat) (s : State) : State :=
  updPin pin { s.pins.pin pin with driven := false, level := (s.pins.pin pin).ballLevel true } s

/-- At a bell each LED that Damrid lights is claimed by that feature of its own unless a packet holds it, and one it no
longer lights is released (R547, R630). -/
def ledBell (s : State) : State :=
  (List.range 67).foldl (fun t i =>
    let pin := 264 + i
    match t.cpi.holder (ledResource pin) with
    | some k =>
      if k.opcode ≠ 0 then t
      else if t.ledOwned pin then (if t.ledOn pin then drivePin pin false t else restLed pin t)
      else restLed pin (releaseClaims [ledResource pin] t)
    | none => if t.ledOwned pin then drivePin pin false (claimAll [ledResource pin] 0 0 0 none t) else t) s

/-- DIAG_PIN: an LED pin is driven or released under its claim; any pin is read, with the monitor's class of it. Pins
outside the LED group are never driven by a packet, which only names outputs of that group as resources (R628, R632,
Table 15-5). -/
def execDiagPin (b : Binding) (tag : Nat) (s : State) : Host.Outcome State Fault Refusal :=
  onPacket b tag 0x0807 (fun p s =>
    let pin := p.param 0 2
    let act := p.param 2 1
    let told := fun (t : State) => fields [(1, flagBit (t.pins.pin pin).level), (1, faultCode (t.pins.pin pin).fault), (6, 0)]
    if act = 4 then answered p (told s) [] s
    else if !isLed pin then badParam p 0 s
    else
      match s.cpi.blocked [ledResource pin] (fun k => k.opcode == 0x0807) with
      | some k => refuse p .resourceClaimed k.detail s
      | none =>
        if act = 3 then
          let t := restLed pin (releaseClaims [ledResource pin] s)
          changed p (told t) t
        else
          let t := drivePin pin (act == 2) (claimAll [ledResource pin] 0x0807 p.cls p.tag (some b) s)
          changed p (told t) t) s

end Sys2Proof.Machine
end

