-- ==== Sys2Proof/Machine/Firmware.lean ====
section
/-! DEFINITION. Firmware: images and their checks, slots, the boot chain's steps 3 to 6, download, activation of
Faculty cluster by cluster, A/B activation of Prefect (R116, R501, R509 to R514, R524 to R528). -/

namespace Sys2Proof.Machine

/-! ### Images (R510) -/

/-- Chunks of an image. -/
def imageChunks (b : Bytes) : Nat := fieldAt b 0x0E 2

/-- Bytes before the signature block: header and chunk table. -/
def imageHead (b : Bytes) : Nat := 64 + 64 * imageChunks b

/-- The image digest (R510). -/
def imageDigest (b : Bytes) : Bytes := sha3_256 (b.take (imageHead b))

/-- Security version of an image. -/
def imageSvn (b : Bytes) : Nat := fieldAt b 0x0C 2

/-- Kind of an image: 1 Prefect, 2 Faculty. -/
def imageKind (b : Bytes) : Nat := fieldAt b 9 1

/-- A chunk entry (Table 14-8): offset, length, flags. -/
def chunkEntry (b : Bytes) (i : Nat) : Nat × (Nat × Nat) :=
  let a := 64 + 64 * i
  (fieldAt b a 4, (fieldAt b (a + 4) 4, fieldAt b (a + 0x10) 4))

/-- A chunk matches its digest. -/
def chunkOk (b : Bytes) (i : Nat) : Bool :=
  let (off, len, _) := chunkEntry b i
  sha3_256 (slice b off len) == slice b (64 + 64 * i + 0x20) 32

/-- The boot chunks of an image. -/
def bootChunks (b : Bytes) : List Nat := (List.range (imageChunks b)).filter (fun i => bitAt 0 (chunkEntry b i).2.2)

/-- The format of R510: magic, version, kind, counts, limits, chunk order, reserved fields, SVN. -/
def imageFormatOk (b : Bytes) : Bool :=
  let n := imageChunks b
  let kind := imageKind b
  let es := (List.range n).map (chunkEntry b)
  slice b 0 8 == ascii "BRCFWIMG" && fieldAt b 8 1 == 1 && (kind == 1 || kind == 2) && fieldAt b 0x0B 1 == 0 &&
  imageSvn b ≤ 511 && 1 ≤ n && n ≤ 1024 && fieldAt b 0x20 4 == b.length && allZero (slice b 0x30 16) &&
  (List.range n).all (fun i =>
    let e := es.getD i (0, (0, 0))
    let before := if i = 0 then imageHead b + 4800 else (es.getD (i - 1) (0, (0, 0))).1 + (es.getD (i - 1) (0, (0, 0))).2.1
    e.1 % 4096 == 0 && before ≤ e.1 && e.1 + e.2.1 ≤ b.length && e.2.2 < 4 && allZero (slice b (64 + 64 * i + 0x14) 12)) &&
  (if kind = 1 then n ≤ 16 && b.length ≤ 512 * 1024
   else b.length ≤ 96 * 1048576 - 4096 && es.all (fun e => e.2.1 ≤ 4 * 1048576) && fieldAt b 0x24 4 == 0 &&
     sumNat ((es.filter (fun e => bitAt 0 e.2.2)).map (·.2.1)) ≤ 16 * 1048576)

/-- The counter that guards images of a kind (R503). -/
def Trust.counterOf (t : Trust) (kind : Nat) : Nat := if kind = 1 then t.fuses.ctr0 else t.fuses.ctr1

/-- The signature of an image under the context of its kind (R507, Table 14-5). -/
def imageSigned (t : Trust) (b : Bytes) : Option Nat :=
  let msg := b.take (imageHead b)
  let block := slice b (imageHead b) 4800
  if imageKind b = 1 then t.checkMaker msg "BIRCA-PFW" block else t.checkOem msg "BIRCA-FFW" block

/-- The checks of R511 in order, up to the chunks: a refusal status with its detail, or none. -/
def checkImage (t : Trust) (kind : Nat) (b : Bytes) : Option (Status × Bytes) :=
  if !imageFormatOk b then some (.fwFormat, noDetail)
  else
    match imageSigned t b with
    | some why => some (.fwSignature, detailOf [(1, why)])
    | none =>
      if imageKind b ≠ kind then some (.fwFormat, noDetail)
      else if fieldAt b 0x0A 1 ≠ 0 then some (.fwStepping, noDetail)
      else if imageSvn b < t.counterOf kind then
        some (.fwRollback, detailOf [(2, imageSvn b), (2, t.counterOf kind)])
      else none

/-- A chunk of some that does not match its digest (FW_CHUNK). -/
def checkChunks (b : Bytes) (l : List Nat) : Option (Status × Bytes) :=
  (l.find? (fun i => !chunkOk b i)).map (fun i => (Status.fwChunk, detailOf [(2, i)]))

/-- All of R511, every chunk included. -/
def checkWhole (t : Trust) (kind : Nat) (b : Bytes) : Option (Status × Bytes) :=
  (checkImage t kind b).or (checkChunks b (List.range (imageChunks b)))

/-! ### Slots (R509) -/

/-- A slot of the boot flash: 0 A, 1 B, 2 F0, 3 F1. -/
def Trust.fwSlot (t : Trust) (n : Nat) : FwSlot :=
  if n = 0 then t.flash.slotA else if n = 1 then t.flash.slotB else if n = 2 then t.flash.slotF0 else t.flash.slotF1

/-- A slot changed. -/
def setFwSlot (n : Nat) (x : FwSlot) (s : State) : State :=
  let f := s.trust.flash
  { s with trust := { s.trust with flash :=
      if n = 0 then { f with slotA := x } else if n = 1 then { f with slotB := x }
      else if n = 2 then { f with slotF0 := x } else { f with slotF1 := x } } }

/-- The slot not running of a kind: its number. -/
def Trust.otherSlot (t : Trust) (kind : Nat) : Nat :=
  if kind = 1 then (if t.fromRecovery then 0 else 1 - t.prefectSlot) else 2 + (1 - t.facultySlot)

/-- The image of a slot when R511 accepts it; of a Faculty image its boot chunks are loaded and checked (R513). -/
def Trust.bootable (t : Trust) (kind n : Nat) : Option Bytes :=
  (t.fwSlot n).image.bind (fun b =>
    if (checkImage t kind b).isSome then none
    else if (checkChunks b (if kind = 1 then List.range (imageChunks b) else bootChunks b)).isSome then none
    else some b)

/-- The slot a start selects of a kind: the higher activation count among the bootable, the first on equal counts, those
ruled out apart (R513). -/
def Trust.selectSlot (t : Trust) (kind : Nat) (ruled : List Nat) : Option (Nat × Bytes) :=
  let first := if kind = 1 then 0 else 2
  let get := fun n => if ruled.contains n then none else (t.bootable kind n).map (fun b => (n, b))
  match get first, get (first + 1) with
  | some a, some b => if (t.fwSlot first).activation < (t.fwSlot (first + 1)).activation then some b else some a
  | some a, none => some a
  | none, b => b

/-- The SVN a slot counts at: that of its accepted image, else the running image's (R512). -/
def Trust.slotSvn (t : Trust) (kind n running : Nat) : Nat :=
  match (t.fwSlot n).image with
  | none => running
  | some b => if (checkImage t kind b).isSome then running else imageSvn b

/-- After an activation the counter of the kind rises to the lower SVN of its two slots; it never falls (R512). -/
def raiseCounter (kind : Nat) (s : State) : State :=
  let t := s.trust
  let running := if kind = 1 then t.prefectRun else t.facultyRun
  let first := if kind = 1 then 0 else 2
  let v := min (t.slotSvn kind first running) (t.slotSvn kind (first + 1) running)
  { s with trust := { t with fuses :=
      if kind = 1 then { t.fuses with ctr0 := max t.fuses.ctr0 v } else { t.fuses with ctr1 := max t.fuses.ctr1 v } } }

/-- A slot is activated: its count becomes the higher of the two. -/
def countActivation (n : Nat) (s : State) : State :=
  let other := if n % 2 = 0 then n + 1 else n - 1
  setFwSlot n { s.trust.fwSlot n with activation := max (s.trust.fwSlot n).activation (s.trust.fwSlot other).activation + 1 } s

/-! ### The boot chain, steps 3 to 6 (R513, R514) -/

/-- A Prefect image starts: MR0 is extended, its SVN and pair versions run (R513 step 3, R528). -/
def runPrefect (slot : Option Nat) (b : Bytes) (s : State) : State :=
  let s1 := extendMr 0 (imageDigest b) s
  { s1 with trust := { s1.trust with
    stage := 2
    prefectSlot := slot.getD s1.trust.prefectSlot
    fromRecovery := slot.isNone
    prefectRun := imageSvn b
    pairVersion := fieldAt b 0x24 2
    oldestPair := fieldAt b 0x26 2 } }

/-- Every key record is compared with its digest, those of Tirenaloth's keys with the digests in ROM; one that differs is ignored,
with a security event (R504). -/
def matchRecords (s : State) : State :=
  let ok := s.trust.recordsOk
  let maker := (List.range 4).filter (fun m => m < Config.romKeyDigests.length && !s.trust.romKeyOk (24 + m))
  let mine := (s.trust.fuses.digests.map (·.1)).filter (fun n => !bitAt n ok)
  (mine ++ maker.map (24 + ·)).foldl (fun t n => event 0xB005 0 n t)
    { s with trust := { s.trust with matched := ok } }

/-- Step 4: MR1, the key records, the sealed store, the region guard; MR4 with a bound pool; Prefect's counter rises (R512, R513,
R518). -/
def prefectStep (s : State) : State :=
  let f := s.trust.fuses
  let s1 := programGuard (matchRecords (extendMr 1 (sha3_256 (Config.fuseBytes f.lifecycle f.revoked f.digests
    [f.ctr0, f.ctr1, f.ctr2, f.ctr3])) s))
  raiseCounter 1 (if s1.trust.rootKey.isSome then extendMr 4 (fitBytes 16 s1.trust.rootPool ++ leBytes 1 3) s1 else s1)

/-- Step 5: a Faculty slot is selected, its boot chunks loaded, MR2 extended, the clusters released. Without one no I/O is
served, and only Prefect answers (R513, R514). Before eight channels serve, the code region is locked cache (R612). -/
def runFaculty (ruled : List Nat) (s : State) : State :=
  match s.trust.selectSlot 2 ruled with
  | none => { s with
      trust := { s.trust with stage := 5, chunks := [] }
      pwr := { s.pwr with stage := .prefect } }
  | some (n, b) =>
    let s1 := extendMr 2 (imageDigest b) s
    let boot := bootChunks b
    let s2 : State := { s1 with trust := { s1.trust with
      stage := if boot.length = imageChunks b then 4 else 3
      facultySlot := n - 2
      facultyRun := imageSvn b
      chunks := boot
      codeInCache := !s1.dram.upEight } }
    if s2.trust.stage = 4 then raiseCounter 2 s2 else s2

/-- FACULTY_CHUNK_LOAD: Faculty asks for a remaining chunk; Prefect loads it and checks its digest, and only then is it
executable. An image whose chunk fails is passed over for the other slot (R513 step 6, R511, R514). -/
def execFacultyChunkLoad (chunk : Nat) (s : State) : Host.Outcome State Fault Refusal :=
  let b := s.trust.facultyImage
  whenDue (s.trust.stage = 3 ∧ chunk < imageChunks b ∧ s.trust.chunks.contains chunk = false)
    (if chunkOk b chunk then
      let l := s.trust.chunks ++ [chunk]
      let t : State := { s with trust := { s.trust with
        chunks := l, stage := if l.length = imageChunks b then 4 else 3 } }
      if t.trust.stage = 4 then raiseCounter 2 t else t
     else runFaculty [2 + s.trust.facultySlot] s) s

/-! ### Download -/

/-- A piece of an image on its way to the slot not running; after the last the checks of R511 (R528, Table 15-14). The
slot's former image is gone with the first piece. -/
def downloadPiece (kind : Nat) (p : Packet) (s : State) : State :=
  let n := s.trust.otherSlot kind
  match takePiece p (p.param 0 8) (p.param 8 8) s with
  | (s1, .more) =>
    answered p [] [] (if p.param 0 8 = 0 then setFwSlot n { s1.trust.fwSlot n with image := none } s1 else s1)
  | (s1, .broken) => refuse p .pktPiece noDetail s1
  | (s1, .whole data) =>
    let s2 := setFwSlot n { s1.trust.fwSlot n with image := some data } s1
    match checkImage s2.trust kind data with
    | some (st, detail) =>
      let s3 := if st = .fwSignature then tallyAdd 0x01 3 1 s2 else s2
      refuse p st detail (if kind = 2 then { s3 with trust := { s3.trust with downloaded := false } } else s3)
    | none => changed p [] (if kind = 2 then { s2 with trust := { s2.trust with downloaded := true } } else s2)

/-- FW_DOWNLOAD: a Faculty image piece by piece (R511, Table 15-14). -/
def execFwDownload (b : Binding) (tag : Nat) (s : State) : Host.Outcome State Fault Refusal :=
  onPacket b tag 0x0901 (downloadPiece 2) s

/-! ### Faculty activation (R525 to R527) -/

/-- A cluster island is asked to empty, or restarted: the next step of an activation. -/
def setActivation (a : Option Activation) (s : State) : State := { s with trust := { s.trust with activation := a } }

/-- The islands in the order of R525. -/
def nextCluster (island : Nat) : Option Nat := if island = 1 then none else some (island - 1)

/-- A cluster island is reset at Prefect's order (R525, R610). -/
def clusterReset (island : Nat) (s : State) : State := event 0x1003 0 island (tallyAdd 0x00 3 1 s)

/-- Who asked for an activation gets its end. -/
def endActivation (a : Activation) (st : Status) (detail : Bytes) (s : State) : State :=
  let s1 := releaseHeld (setActivation none s)
  match a.who with
  | .packet b tag =>
    match s1.cpi.packet b tag 0x0902 with
    | none => s1
    | some p => if st = .ok then changed p [] s1 else refuse p st detail s1
  | .nvme cntlid cid =>
    adminDone cntlid cid (if st = .ok then nvmeOk else if st = .fwActivateFail then (1, 0x13, true, statusCode st) else nvmeFirmware)
      0 [] s1

/-- The activation of the image in the Faculty slot not running starts, or what refuses it: FW_BUSY during another, or
R511 with every chunk (R525 steps 1 and 2, R527). The image is loaded, MR2 extended, and the notice sent. -/
def startActivation (who : ActRequester) (s : State) : State ⊕ (Status × Bytes) :=
  if s.trust.activation.isSome then .inr (.fwBusy, noDetail)
  else
    let n := s.trust.otherSlot 2
    match (s.trust.fwSlot n).image with
    | none => .inr (.fwFormat, noDetail)
    | some b =>
      match checkWhole s.trust 2 b with
      | some r => .inr r
      | none =>
        .inl (notifyAll 2 1 3 (setActivation (some ⟨.emptying 4, s.tt.now, [], who, n - 2, imageSvn b⟩)
          (extendMr 2 (imageDigest b) s)))

/-- FW_ACTIVATE (R525). -/
def execFwActivate (b : Binding) (tag : Nat) (s : State) : Host.Outcome State Fault Refusal :=
  onPacket b tag 0x0902 (fun p s =>
    match startActivation (.packet b tag) s with
    | .inl t => t
    | .inr (st, detail) => refuse p st detail s) s

/-- A cluster works on the new image; the next one follows, or the activation is complete: the count is written, the
counter raised, the command answered (R525 steps 3 to 5). With the peer presumed down it pauses (R527). -/
def clusterHealthy (a : Activation) (island : Nat) (s : State) : State :=
  match nextCluster island with
  | some next =>
    let paused := s.corr.roll == .presumedDown && s.corr.failover != 2
    setActivation (some { a with
      step := if paused then .paused next else .emptying next, since := s.tt.now, moved := a.moved ++ [island] }) s
  | none =>
    let b := ((s.trust.fwSlot (2 + a.slot)).image).getD []
    let s1 := countActivation (2 + a.slot) { s with trust := { s.trust with
      facultySlot := a.slot
      facultyRun := a.svn
      downloaded := false
      chunks := List.range (imageChunks b)
      stage := 4 } }
    endActivation a .ok noDetail (raiseCounter 2 s1)

/-- CLUSTER_REPORT: the running image reports a cluster empty, and the cluster is reset onto the new region; the new image
reports it healthy (R525). -/
def execClusterReport (island : Nat) (healthy : Bool) (s : State) : Host.Outcome State Fault Refusal :=
  match s.trust.activation with
  | none => .next s
  | some a =>
    match a.step with
    | .emptying i => whenDue (i = island ∧ healthy = false)
        (setActivation (some { a with step := .starting i, since := s.tt.now }) (clusterReset i s)) s
    | .starting i => whenDue (i = island ∧ healthy = true) (clusterHealthy a i s) s
    | .paused _ => .next s

/-- CLUSTER_REPORT_TIMEOUT: a cluster is not empty within 50 ms, or not healthy within 100 ms: every moved cluster goes
back to the old image in reverse order, MR2 is extended with its digest, and the command fails (R526). -/
def execClusterReportTimeout (island : Nat) (s : State) : Host.Outcome State Fault Refusal :=
  match s.trust.activation with
  | none => .next s
  | some a =>
    let back := fun (clusters : List Nat) (why : Nat) =>
      endActivation a .fwActivateFail (detailOf [(1, island), (1, why)])
        (extendMr 2 (imageDigest s.trust.facultyImage) (clusters.foldl (fun t i => clusterReset i t) s))
    match a.step with
    | .emptying i => whenDue (i = island ∧ a.since + msBells 50 ≤ s.tt.now) (back a.moved.reverse 1) s
    | .starting i => whenDue (i = island ∧ a.since + msBells 100 ≤ s.tt.now) (back (i :: a.moved.reverse) 2) s
    | .paused _ => .next s

/-- An activation paused while the peer was lost goes on (R527). -/
def resumeActivation (s : State) : State :=
  match s.trust.activation with
  | some a =>
    match a.step with
    | .paused next => setActivation (some { a with step := .emptying next, since := s.tt.now }) s
    | _ => s
  | none => s

/-- FIRMWARE_IMAGE_DOWNLOAD: a piece of a Faculty image at its offset, on a management-capable controller (R96). -/
def execFirmwareImageDownload (cntlid cid offset : Nat) (data : Bytes) (s : State) : Host.Outcome State Fault Refusal :=
  managedOnly cntlid cid (fun s =>
    adminDone cntlid cid nvmeOk 0 [] { s with trust := { s.trust with
      nvmeImage := lay (fitBytes (max s.trust.nvmeImage.length offset) s.trust.nvmeImage) offset data } }) s

/-- The image that Firmware Image Download brought goes to the Faculty slot not running (R116). -/
def placeNvmeImage (s : State) : State ⊕ (Status × Bytes) :=
  if s.trust.nvmeImage = [] then .inl s
  else
    let n := s.trust.otherSlot 2
    let b := s.trust.nvmeImage
    match checkImage s.trust 2 b with
    | some r => .inr r
    | none =>
      let s1 := setFwSlot n { s.trust.fwSlot n with image := some b } s
      .inl { s1 with trust := { s1.trust with nvmeImage := [], downloaded := true } }

/-- FIRMWARE_COMMIT: action 000b places the downloaded image in the slot not running, 011b activates it live; others are
Invalid Field. A refused image completes with Invalid Firmware Image (Table 3-3, R116, R511). -/
def execFirmwareCommit (cntlid cid slot action : Nat) (s : State) : Host.Outcome State Fault Refusal :=
  managedOnly cntlid cid (fun s =>
    let no := fun (st : Status) (t : State) => adminDone cntlid cid
      (if st = .fwBusy then (1, 0x13, true, statusCode st) else (1, 7, true, statusCode st)) 0 [] t
    if (action ≠ 0 ∧ action ≠ 3) ∨ 7 < slot then adminDone cntlid cid nvmeBadField 0 [] s
    else
      match placeNvmeImage s with
      | .inr (st, _) => no st { s with trust := { s.trust with nvmeImage := [] } }
      | .inl t =>
        if action = 0 then adminDone cntlid cid nvmeOk 0 [] t
        else
          match startActivation (.nvme cntlid cid) t with
          | .inl u => u
          | .inr (st, _) => no st t) s

/-! ### Prefect A/B (R501, R521, R528) -/

/-- Step 4 onwards of a Prefect image that recovery has taken (R514). -/
def startRecovered (b : Bytes) (s : State) : State :=
  let s1 := prefectStep (runPrefect none b s)
  runFaculty [] { s1 with pwr := { s1.pwr with stage := .control } }

/-- PFW_DOWNLOAD: a Prefect image to the slot not running; in ROM recovery an image that passes R511 starts (R514, R528). -/
def execPfwDownload (b : Binding) (tag : Nat) (s : State) : Host.Outcome State Fault Refusal :=
  onPacket b tag 0x0903 (fun p s =>
    if s.pwr.stage ≠ .recovery then downloadPiece 1 p s
    else
      match takePiece p (p.param 0 8) (p.param 8 8) s with
      | (s1, .more) => answered p [] [] s1
      | (s1, .broken) => refuse p .pktPiece noDetail s1
      | (s1, .whole data) =>
        match checkWhole s1.trust 1 data with
        | some (st, detail) => refuse p st detail s1
        | none => answered p [] [] (startRecovered data s1)) s

/-- The peer's pair version lies outside an image's range, or the image's version outside the peer's (R528 step 1). A range has a
lower bound alone, the oldest version accepted, as Table 14-7 gives no other (DEDUCED, log 76). -/
def pairRefuses (b : Bytes) (t : Trust) : Bool :=
  t.peerVersion < fieldAt b 0x26 2 || fieldAt b 0x24 2 < t.peerOldest

/-- PFW_ACTIVATE: the pair versions, then the ROM handover to the image in the other bank; the notices go to the peer
Prefect. A refused image leaves the old one running (R521, R527, R528). -/
def execPfwActivate (b : Binding) (tag : Nat) (s : State) : Host.Outcome State Fault Refusal :=
  onPacket b tag 0x0904 (fun p s =>
    let n := s.trust.otherSlot 1
    if s.trust.activation.isSome then refuse p .fwBusy noDetail s
    else
      match (s.trust.fwSlot n).image with
      | none => refuse p .fwFormat noDetail s
      | some image =>
        if s.paired && pairRefuses image s.trust then refuse p .fwPeerIncompatible (detailOf [(2, s.trust.peerVersion)]) s
        else
          match checkWhole s.trust 1 image with
          | some (st, detail) => refuse p st detail s
          | none =>
            let s1 := programGuard (countActivation n (runPrefect (some n) image (sendPeer (.prefectRecord .pause) s)))
            changed p [] (raiseCounter 1 (sendPeer (.prefectRecord (.version s1.trust.pairVersion s1.trust.oldestPair))
              (sendPeer (.prefectRecord .resume) s1)))) s

/-- LOCKSTEP_MISMATCH: both cores stop; a security event; Prefect restarts from its running slot through the ROM handover
routine, on the keys already installed (R501). -/
def execLockstepMismatch (s : State) : Host.Outcome State Fault Refusal :=
  whenDue (2 ≤ s.trust.stage)
    (let s1 := event 0xB002 0 0 s
     match s.trust.bootable 1 s.trust.prefectSlot with
     | none => s1
     | some b => { runPrefect (if s.trust.fromRecovery then none else some s.trust.prefectSlot) b s1 with
         trust := { (runPrefect (if s.trust.fromRecovery then none else some s.trust.prefectSlot) b s1).trust with
           stage := s.trust.stage } }) s

/-- PFM_SVN. -/
def State.pfmSvn (s : State) : Nat :=
  s.trust.facultyRun % 2 ^ 16 * 2 ^ 48 + s.trust.prefectRun % 2 ^ 16 * 2 ^ 32 + s.trust.fuses.ctr1 % 2 ^ 16 * 2 ^ 16 +
    s.trust.fuses.ctr0 % 2 ^ 16

/-- FW_QUERY: headers of the four slots, activation counts, PFM_SVN (Table 15-14). -/
def execFwQuery (b : Binding) (tag : Nat) (s : State) : Host.Outcome State Fault Refusal :=
  onPacket b tag 0x0905 (fun p s =>
    answered p [] ((List.range 4).flatMap (fun n => fitBytes 64 (((s.trust.fwSlot n).image).getD [])) ++
      (List.range 4).flatMap (fun n => leBytes 8 (s.trust.fwSlot n).activation) ++ leBytes 8 s.pfmSvn) s) s

end Sys2Proof.Machine
end

