-- ==== Sys2Proof/Machine/Trust.lean ====
section
/-! DEFINITION. Prefect: key slots, quotes, identity, escrow, import, decommissioning, the trusted clock, the federation's
roster, time tokens and heartbeats (R440, R441, R493 to R496, R499, R502 to R508, R516 to R523). -/

namespace Sys2Proof.Machine

/-! ### Key slots (R505, R506) -/

/-- OEM slots that are enrolled and not revoked. -/
def Trust.oemSlots (t : Trust) : List Nat :=
  (List.range 8).filter (fun n => (getKey n t.fuses.digests).isSome && !bitAt n t.fuses.revoked)

/-- The kind a slot's record must have (Table 14-3, Table 14-4). -/
def slotKind (slot : Nat) : Nat := if slot < 16 then 1 else 2

/-- KEY_ENROLL: the digest is burned into an empty slot, the record written, MR1 extended; the first enrolment of slot 0
moves the lifecycle to Enrolled (R505). -/
def execKeyEnroll (b : Binding) (tag : Nat) (s : State) : Host.Outcome State Fault Refusal :=
  onPacket b tag 0x0710 (fun p s =>
    let slot := p.param 0 2
    let r := fitBytes 4096 p.payload
    let t := s.trust
    if (getKey slot t.fuses.digests).isSome ∨ 19 < slot ∨ fieldAt r 0 2 ≠ slot ∨ fieldAt r 2 1 ≠ slotKind slot then
      refuse p .keySlot (detailOf [(1, slot)]) s
    else
      let d := keyRecordDigest r
      changed p [] (extendMr 1 d { s with trust := { t with
        fuses := { t.fuses with
          digests := putKey slot d t.fuses.digests
          lifecycle := max t.fuses.lifecycle 2 }
        flash := { t.flash with records := putKey slot r t.flash.records }
        matched := setBit slot t.matched } })) s

/-- A slot signed the Faculty image of a boot slot (1), or the active or armed timetable copy (2) (R506). -/
def State.slotInUse (s : State) (slot : Nat) : Option Nat :=
  let signed := fun (b : Bytes) => imageFormatOk b && sigSlot (slice b (imageHead b) 4800) == slot
  if [2, 3].any (fun n => ((s.trust.fwSlot n).image).any signed) then some 1
  else
    let copies := [s.tt.active, if s.tt.load = .armed then s.tt.pending else none]
    if copies.any (fun i => i.any (fun x => sigSlot (slice x.bytes (x.base 0xFF) 4800) == slot)) then some 2 else none

/-- KEY_REVOKE: the revoke bit is burned, unless no unrevoked OEM slot would be left or the slot is in use (R506). -/
def execKeyRevoke (b : Binding) (tag : Nat) (s : State) : Host.Outcome State Fault Refusal :=
  onPacket b tag 0x0711 (fun p s =>
    let slot := p.param 0 2
    if s.trust.oemSlots.filter (· != slot) = [] then refuse p .keyLast noDetail s
    else
      match s.slotInUse slot with
      | some why => refuse p .keyInUse (detailOf [(1, why)]) s
      | none => changed p [] { s with trust := { s.trust with
          fuses := { s.trust.fuses with revoked := setBit slot s.trust.fuses.revoked } } }) s

/-! ### Quotes (R523) -/

/-- The code of a roll call state (Table 13-2). -/
def rollCode : RollCall → Nat
  | .inService => 0
  | .presumedDown => 1
  | .selfFenced => 2
  | .joining => 3
  | .noPeer => 4

/-- The registers of a mask, ascending. -/
def State.registers (s : State) (mask : Nat) : Bytes := (bitsOf 32 mask).flatMap (fun r => fitBytes 64 (s.ciph.mrs.getD r []))

/-- The quote of Table 14-11 up to its signature block. -/
def State.quoteBody (s : State) (mask : Nat) (nonce : Bytes) : Bytes :=
  ascii "BRCQUOTE" ++ fields [(1, 1), (1, s.sys.slot), (2, s.sys.chip), (4, mask)] ++ fitBytes 32 nonce ++
  fields [(8, s.clockUs), (8, s.tt.now)] ++ fitBytes 16 ((s.pool.map (·.id)).getD []) ++
  fields [(4, (s.tt.active.map (·.term)).getD 0), (1, s.trust.fuses.lifecycle), (1, rollCode s.corr.roll), (2, 0),
    (2, s.trust.fuses.ctr0), (2, s.trust.fuses.ctr1), (2, s.trust.fuses.ctr2), (2, s.trust.fuses.ctr3),
    (2, s.trust.prefectRun), (2, s.trust.facultyRun), (28, 0)] ++ fitBytes 32 s.identity ++ s.registers mask

/-- QUOTE: the registers of the mask, signed by the identity keys; not once Decommissioned (R523, Table 14-2). -/
def execQuote (b : Binding) (tag : Nat) (s : State) : Host.Outcome State Fault Refusal :=
  onPacket b tag 0x0712 (fun p s =>
    if 3 ≤ s.trust.fuses.lifecycle then refuse p .lifecycle (detailOf [(1, s.trust.fuses.lifecycle)]) s
    else
      let q := s.quoteBody (p.param 0 4) (slice p.params 8 32)
      answered p [] (q ++ identityBlock q "BIRCA-QUOTE") (tallyAdd 0x01 1 1 s)) s

/-- MR_READ: the same registers unsigned (R523). -/
def execMrRead (b : Binding) (tag : Nat) (s : State) : Host.Outcome State Fault Refusal :=
  onPacket b tag 0x0713 (fun p s => answered p [] (s.registers (p.param 0 4)) s) s

/-- IDENTITY_GET: the identity record (Table 14-14). -/
def execIdentityGet (b : Binding) (tag : Nat) (s : State) : Host.Outcome State Fault Refusal :=
  onPacket b tag 0x0714 (fun p s => answered p [] (fitBytes 9152 s.trust.flash.identity) s) s

/-! ### Escrow and import (R522) -/

/-- The locker table as Prefect seals it (R516). -/
def State.lockerTable (s : State) : Bytes :=
  (List.range 4096).flatMap (fun d =>
    let l := s.ciph.locker d
    fields [(1, lockerCode l.state), (1, 0), (2, l.gen), (2, l.check % 4096), (2, 0), (8, if l.state = .unbound then 0 else l.inst)])

/-- A locker table entry. -/
def lockerOf (l : Locker) (e : Bytes) : Locker :=
  let c := fieldAt e 0 1
  { l with
    state := if c = 1 then .isOpen else if c = 2 then .exhausted else if c = 3 then .withdrawn else .unbound
    gen := fieldAt e 2 2
    check := fieldAt e 4 2 % 4096
    inst := fieldAt e 8 8 }

/-- A locker table is taken in: every locker it binds. -/
def takeLockers (table : Bytes) (s : State) : State :=
  (List.range 4096).foldl (fun t d =>
    let e := slice table (16 * d) 16
    if allZero e && (getKey d t.ciph.lockers).isNone then t
    else setLocker d (lockerOf (t.ciph.locker d) e) t) s

/-- The first of two identical packets under distinct OEM slots is kept for 600 s of trusted clock; the second acts (R522). -/
def twiceSigned (p : Packet) (act : State → State) (s : State) : State :=
  match getKey p.opcode s.cpi.firstSigned with
  | some (params, slot, at_) =>
    if params = p.params ∧ slot ≠ p.slot ∧ s.clockSec ≤ at_ + 600 then
      act { s with cpi := { s.cpi with firstSigned := delKey p.opcode s.cpi.firstSigned } }
    else keepFirst p s
  | none => keepFirst p s
where
  /-- the packet waits for its second -/
  keepFirst (p : Packet) (s : State) : State :=
    answer p .ok (detailOf [(1, 1)]) [] [] { s with cpi := { s.cpi with
      firstSigned := putKey p.opcode (p.params, (p.slot, s.clockSec)) s.cpi.firstSigned } }

/-- The clear part of an escrow package, 1,704 bytes (R522). -/
def escrowHead (kind slot : Nat) (digest poolId : Bytes) (clock : Nat) (eph ct : Bytes) : Bytes :=
  ascii "BRCESCRW" ++ fields [(1, 1), (1, kind), (2, slot), (4, 0)] ++ fitBytes 32 digest ++ fitBytes 16 poolId ++
  fields [(8, clock), (8, 0)] ++ fitBytes 56 eph ++ fitBytes 1568 ct

/-- The key of an escrow package. -/
def escrowKey (x k head : Bytes) : Bytes := kmac256 (x ++ k) head 32 (ascii "BIRCA-ESCROW")

/-- ESCROW_EXPORT: on the second of two signed packets, the root key and the locker table for the holder of an escrow slot;
MR4 is extended (R522, R518). -/
def execEscrowExport (b : Binding) (tag : Nat) (s : State) : Host.Outcome State Fault Refusal :=
  onPacket b tag 0x0715 (fun p s =>
    let slot := p.param 0 2
    if slot < 16 ∨ 19 < slot ∨ ¬ s.trust.slotUsable slot then refuse p .keySlot (detailOf [(1, slot)]) s
    else
      match s.trust.rootKey with
      | none => refuse p .poolState noDetail s
      | some root =>
        twiceSigned p (fun s =>
          let r := (getKey slot s.trust.flash.records).getD []
          let priv := s.randomBytes 56
          let (ct, k) := Config.mlkemEncaps (slice r 0x48 1568) ((drawn 56 s).randomBytes 32)
          let x := Config.x448 priv (slice r 8 56)
          let head := escrowHead 1 slot (keyRecordDigest r) s.trust.rootPool s.clockUs (Config.x448Public priv) ct
          let (c, t) := gcmSeal (escrowKey x k head) (zeros 12) head (root ++ s.lockerTable)
          answered p [] (head ++ c ++ t)
            (extendMr 4 (fitBytes 16 s.trust.rootPool ++ leBytes 1 5) (drawn 88 s))) s) s

/-- ROOT_IMPORT: a package for this chip's import keys; its pool must be that of the newest superblock copy whose check
passes, and the copy's MAC verify under the METADATA key of the imported root key. The head has no bound pool. With the
package the pool is bound (R522). -/
def execRootImport (b : Binding) (tag : Nat) (copy : Bytes) (media : PoolMedia) (s : State) : Host.Outcome State Fault Refusal :=
  onPacket b tag 0x0716 (fun p s =>
    let no := fun (why : Nat) => refuse p .importFail (detailOf [(1, why)]) s
    let k := p.payload
    let head := k.take 1704
    let x := Config.x448 identityX448 (slice k 80 56)
    let kem := Config.mlkemDecaps identityKem (slice k 136 1568)
    if s.pool.isSome ∨ s.trust.rootKey.isSome then no 1
    else if slice k 0 8 ≠ ascii "BRCESCRW" ∨ fieldAt k 8 1 ≠ 1 ∨ fieldAt k 9 1 ≠ 2 ∨ slice k 16 32 ≠ s.identity ∨
        k.length ≠ 1704 + 65568 + 16 then no 4
    else
      match gcmOpen (escrowKey x kem head) (zeros 12) head (slice k 1704 65568) (slice k 67272 16) with
      | none => no 4
      | some plain =>
        let id := slice k 48 16
        let s1 : State := { s with trust := { s.trust with rootKey := some (plain.take 32), rootPool := id } }
        if superblockOk copy = false ∨ slice copy 0x10 16 ≠ id then no 2
        else if superblockMacOk copy (s1.systemKey 0x11 0) = false then no 3
        else
          let s2 := adoptPool media (takeSuperblock copy (takeLockers (plain.drop 32) s1))
          changed p (fitBytes 16 id) (extendMr 4 (fitBytes 16 id ++ leBytes 1 2)
            { s2 with pwr := { s2.pwr with stage := if s2.pwr.stage = .control then .starting else s2.pwr.stage } })) s

/-- DECOMMISSION: on the second of two signed packets the lifecycle becomes Decommissioned; only without a pool, or self-fenced
after HEAD_RELEASE (Table 14-14). -/
def execDecommission (b : Binding) (tag : Nat) (s : State) : Host.Outcome State Fault Refusal :=
  onPacket b tag 0x0717 (fun p s =>
    if s.pool.isSome ∧ ¬ (s.corr.roll = .selfFenced ∧ s.corr.released = true) then
      refuse p .lifecycle (detailOf [(1, s.trust.fuses.lifecycle)]) s
    else twiceSigned p (fun s => changed p [] { s with trust := { s.trust with
      fuses := { s.trust.fuses with lifecycle := max s.trust.fuses.lifecycle 3 } } }) s) s

/-! ### The trusted clock (R440, R441, R517) -/

/-- CLOCK_RECORD_WRITE: every 3,600 s of trusted clock a clock record is sealed (R517). -/
def execClockRecordWrite (s : State) : Host.Outcome State Fault Refusal :=
  whenDue (s.trust.clockRecord + 3600000000 ≤ s.clockUs ∧ 2 ≤ s.trust.stage)
    { s with trust := { s.trust with clockRecord := s.clockUs } } s

/-- 604,800 s in nanoseconds. -/
def weekNs : Nat := 604800 * 1000000000

/-- The delete-ticket hold starts, or starts again (R441). -/
def holdTickets (s : State) : State := { s with trust := { s.trust with holdEnd := some (s.trust.oscNs + weekNs) } }

/-- Time from a verified token acts on the clock: ahead by 1 s or less the clock runs fast until it has caught up, ahead by
more it steps, behind it changes nothing. Steps, and slews of more than 60 s within 604,800 s of oscillator time, hold delete
tickets (R440, R441). -/
def applyTime (us : Nat) (s : State) : State :=
  let now := s.clockUs
  if us < now then event 0xB006 0 (argOf [(0, 1), (1, (now - us) % 2 ^ 56)]) s
  else if us ≤ now + 1000000 then
    let ahead := us * 1000 - s.trust.clockNs
    let recent := (s.trust.oscNs, ahead - s.trust.slewNs) :: s.trust.slews.filter (fun x => s.trust.oscNs < x.1 + weekNs)
    let s1 : State := { s with trust := { s.trust with slewNs := max s.trust.slewNs ahead, slews := recent } }
    if 60 * 1000000000 < sumNat (recent.map (·.2)) then holdTickets s1 else s1
  else
    event 0xB006 0 (argOf [(0, 2), (1, (us - now) % 2 ^ 56)])
      (holdTickets { s with trust := { s.trust with clockNs := us * 1000, slewNs := 0 } })

/-- DELETE_TICKET_HOLD_END: 604,800 s of oscillator time after the step or slew (R441). -/
def execDeleteTicketHoldEnd (s : State) : Host.Outcome State Fault Refusal :=
  whenDue (∃ t ∈ s.trust.holdEnd, t ≤ s.trust.oscNs) { s with trust := { s.trust with holdEnd := none } } s

/-! ### The federation (R493 to R496, R499) -/

/-- Entries of a roster. -/
def rosterCount (r : Bytes) : Nat := fieldAt r 12 4

/-- Entry i of a roster: chip, partner, digest. -/
def rosterEntry (r : Bytes) (i : Nat) : Nat × (Nat × Bytes) :=
  let a := 64 + 64 * i
  (fieldAt r a 2, (fieldAt r (a + 2) 2, slice r (a + 8) 32))

/-- The entries of a roster. -/
def rosterEntries (r : Bytes) : List (Nat × (Nat × Bytes)) := (List.range (rosterCount r)).map (rosterEntry r)

/-- The form of R493. -/
def rosterFormOk (r : Bytes) : Bool :=
  let n := rosterCount r
  let es := rosterEntries r
  slice r 0 8 == ascii "BRCFEDRS" && fieldAt r 8 1 == 1 && allZero (slice r 9 3) && 2 ≤ n && n ≤ 2048 &&
  r.length == 64 + 64 * n + 114 + 4627 && allZero (slice r 40 24) &&
  es.all (fun e => e.1 < 2048) && (es.map (·.1)).eraseDups.length == n &&
  (List.range n).all (fun i => allZero (slice r (64 + 64 * i + 4) 4) && allZero (slice r (64 + 64 * i + 56) 8))

/-- Why a roster is not adopted: 1 signature, 2 stale number, 3 chip not named (R494). -/
def State.rosterRefusal (s : State) (r : Bytes) : Option Nat :=
  let n := 64 + 64 * rosterCount r
  if !rosterFormOk r then some 1
  else if (s.trust.checkAny 8 4 (r.take n) "BIRCA-ROSTER" (slice r n 114) (slice r (n + 114) 4627)).isSome then some 1
  else if fieldAt r 32 8 ≤ s.corr.rosterNo then some 2
  else if !(rosterEntries r).any (fun e => e.2.2 == s.identity) then some 3
  else none

/-- The counters of a chip that takes a writer ID anew start at their last durable ceiling plus 2^32 (R254). -/
def restartCounters (s : State) : State :=
  { s with ciph := { s.ciph with counters := s.ciph.counters.map (fun c => { c with value := c.ceiling + 2 ^ 32, next := none }) } }

/-- A datagram to every other chip the roster names. -/
def toChips (bytes : Bytes) (s : State) : State :=
  emitAll ((s.corr.chips.filter (fun c => c.chip != s.sys.chip)).map (fun c => .federation c.chip bytes)) s

/-- A roster is adopted: this chip's index with it, and forwarded to every chip it names (R494). -/
def adoptRoster (r : Bytes) (s : State) : State :=
  let es := rosterEntries r
  let mine := ((es.find? (fun e => e.2.2 == s.identity)).map (·.1)).getD s.sys.chip
  let chips := es.map (fun e => match s.corr.chips.find? (fun c => c.chip == e.1) with
    | some c => c
    | none => ⟨e.1, s.tt.now, false⟩)
  let s1 : State := { s with
    sys := { s.sys with chip := mine }
    corr := { s.corr with roster := r, rosterNo := fieldAt r 32 8, chips := chips } }
  toChips r (if mine = s.sys.chip then s1 else restartCounters s1)

/-- FED_ROSTER_LOAD (R494, Table 15-10). -/
def execFedRosterLoad (b : Binding) (tag : Nat) (s : State) : Host.Outcome State Fault Refusal :=
  onPacket b tag 0x0512 (fun p s =>
    match s.rosterRefusal p.payload with
    | some why => refuse p .rosterRefused (detailOf [(1, why)]) (if why = 1 then tallyAdd 0x01 3 1 s else s)
    | none => changed p (leBytes 8 (fieldAt p.payload 32 8)) (adoptRoster p.payload s)) s

/-- ROSTER_RECEIVED: a roster forwarded by another chip is adopted under the same checks (R494). -/
def execRosterReceived (roster : Bytes) (s : State) : Host.Outcome State Fault Refusal :=
  whenDue (s.rosterRefusal roster = none) (adoptRoster roster s) s

/-- Why a time token is refused: 1 Ed448, 2 ML-DSA-87, 3 federation ID (Table 13-5). A token without a usable slot counts as
Ed448. -/
def State.tokenRefusal (s : State) (k : Bytes) : Option Nat :=
  match s.trust.checkAny 12 4 (k.take 64) "BIRCA-TIME" (slice k 0x40 114) (slice k 0xB4 4627) with
  | some 2 => some 2
  | some _ => some 1
  | none => if s.corr.roster = [] ∨ slice k 8 16 ≠ slice s.corr.roster 16 16 then some 3 else none

/-- The form of Table 13-4. -/
def tokenFormOk (k : Bytes) : Bool :=
  slice k 0 4 == ascii "BRTT" && fieldAt k 4 1 == 1 && allZero (slice k 5 3) && allZero (slice k 0x28 24) &&
  allZero (slice k 0xB2 2) && allZero (slice k 0x12C7 1) && k.length == 0x12C8

/-- A verified token acts on the clock, gives a start that waits for one its unpowered gap, and is forwarded once to every chip
of the roster (R322, R496). -/
def takeToken (k : Bytes) (s : State) : State :=
  let t := fieldAt k 0x18 8
  let s0 := applyTime t s
  let s1 := if s0.ftl.triage = 1 then triageWithGap (t - s0.ftl.offAt) s0 else s0
  if s.corr.token = k then s1 else toChips k { s1 with corr := { s1.corr with token := k } }

/-- FED_TIME_TOKEN (R496). -/
def execFedTimeToken (b : Binding) (tag : Nat) (s : State) : Host.Outcome State Fault Refusal :=
  onPacket b tag 0x0513 (fun p s =>
    if ¬ tokenFormOk p.payload then refuse p .tokenRefused (detailOf [(1, 1)]) s
    else
      match s.tokenRefusal p.payload with
      | some why => refuse p .tokenRefused (detailOf [(1, why)]) (if why < 3 then tallyAdd 0x01 3 1 s else s)
      | none =>
        let t := takeToken p.payload s
        changed p (leBytes 8 t.clockUs) t) s

/-- A federation heartbeat (R495). -/
def State.fedBeat (s : State) : Bytes :=
  ascii "BRFH" ++ fields [(2, s.sys.chip), (1, rollCode s.corr.roll), (1, 0), (8, s.corr.rosterNo), (8, s.clockUs),
    (4, (s.tt.active.map (·.term)).getD 0), (4, 0)]

/-- FED_HEARTBEAT_SEND: every 64 days a datagram goes to each chip the roster names (R495). -/
def execFedHeartbeatSend (s : State) : Host.Outcome State Fault Refusal :=
  whenDue (s.corr.roster ≠ [] ∧ s.corr.fedSent + 64 ≤ s.day)
    (toChips s.fedBeat { s with corr := { s.corr with fedSent := s.day } }) s

/-- FED_HEARTBEAT: a chip of the roster is heard; a higher roster number has its roster asked for; a time token forwarded with
the heartbeat acts when it verifies (R495, R496). -/
def execFedHeartbeat (chip state rosterNo : Nat) (token : Bytes) (s : State) : Host.Outcome State Fault Refusal :=
  whenDue (s.corr.chips.any (fun c => c.chip == chip) = true ∧ state ≤ 4)
    (let s1 : State := { s with corr := { s.corr with
       chips := s.corr.chips.map (fun c => if c.chip == chip then { c with heard := s.tt.now, unreachable := false } else c) } }
     let s2 := if s.corr.rosterNo < rosterNo then emit (.rosterRequest chip) s1 else s1
     if tokenFormOk token ∧ s2.tokenRefusal token = none then takeToken token s2 else s2) s

/-- FED_UNREACHABLE: nothing from a chip for 8 intervals of 64 days (R495). -/
def execFedUnreachable (chip : Nat) (s : State) : Host.Outcome State Fault Refusal :=
  whenDue (s.corr.chips.any (fun c => c.chip == chip && !c.unreachable && c.heard + 524288 ≤ s.tt.now) = true)
    (event 0xA005 25 (argOf [(0, chip)]) { s with corr := { s.corr with
      chips := s.corr.chips.map (fun c => if c.chip == chip then { c with unreachable := true } else c) } }) s

/-- CORR_ROLLCALL. -/
def State.corrRollcall (s : State) : Nat := 2 ^ 60 * rollCode s.corr.roll + 2 ^ 58 * min s.corr.misses 3 + s.corr.lastBeat % 2 ^ 58
/-- CORR_ARB_ROUND. -/
def State.corrArbRound (s : State) : Nat := s.corr.round % 2 ^ 58
/-- CORR_ARB_RESULT. -/
def State.corrArbResult (s : State) : Nat := s.corr.members % 256 * 2 ^ 16 + s.corr.outcome % 4 * 2 ^ 14 + s.corr.held % 128
/-- CORR_FED. -/
def State.corrFed (s : State) : Nat :=
  s.corr.rosterNo % 2 ^ 32 * 2 ^ 32 + 2 ^ 31 * flagBit (s.corr.roster != []) + s.sys.chip % 2048 * 2 ^ 20 +
    (s.corr.chips.filter (·.unreachable)).length % 4096

/-- FED_QUERY: the roster held and four registers (Table 15-10). -/
def execFedQuery (b : Binding) (tag : Nat) (s : State) : Host.Outcome State Fault Refusal :=
  onPacket b tag 0x0514 (fun p s =>
    answered p [] (s.corr.roster ++ fields [(8, s.corrRollcall), (8, s.corrArbRound), (8, s.corrArbResult), (8, s.corrFed)]) s) s

end Sys2Proof.Machine
end

