-- ==== Sys2Proof/Machine/Snapshots.lean ====
section
/-! DEFINITION. Roots: volumes, domains, snapshots, clones, seals, consistency groups (R87, R89, R164 to R166, R424 to
R441). -/

namespace Sys2Proof.Machine

/-! ### Roots -/

/-- A root record of a kind with nothing set (Table 12-1). -/
def Root.blank (id : Nat) (kind : RootKind) : Root where
  id := id
  kind := kind
  state := .active
  sealed_ := false
  verify := false
  adopted := false
  syncSource := false
  nsid := 0
  domain := 0
  layout := 0
  service := 0
  size := 0
  parent := 0
  subsystem := 0
  ana := 0
  fenceBell := 0
  fenceEpoch := 0
  until_ := 0
  created := 0
  quota := 0
  sourcePool := zeros 16
  sourceRoot := 0
  sourceSnap := 0
  format := 0
  piType := 0
  next := none
  fenceSeq := 0
  fenceSkip := []
  leaves := []

/-- Volumes, clones and replicas (R424). -/
def Root.isVolume (r : Root) : Bool := r.kind == .volume || r.kind == .clone || r.kind == .replica

/-- The number a root's blocks go by in staging: its NSID, or its root ID for a replica, which has none. -/
def Root.key (r : Root) : Nat := if r.kind = .replica then 2 ^ 32 + r.id else r.nsid

/-- FTL_ROOTS.VOLUMES and SNAPSHOTS. -/
def Ftl.volumes (f : Ftl) : Nat := (f.roots.filter Root.isVolume).length

/-- Snapshots of the pair (R424). -/
def Ftl.snapshots (f : Ftl) : Nat := (f.roots.filter (fun r => r.kind == .snapshot)).length

/-- Snapshots whose parent a root is (R424). -/
def Ftl.snapshotsOf (f : Ftl) (id : Nat) : Nat := (f.roots.filter (fun r => r.kind == .snapshot && r.parent == id)).length

/-- A root record's change of Table 12-2 goes to the journal. -/
def volumeRecord (r : Root) (action fence : Nat) (s : State) : State :=
  journal (.volume r.id action fence r.parent (s.treeRoot 1 r.id) r.size) s

/-- Controllers of a subsystem learn that a namespace was created, deleted or resized (Table 3-7, log 04h). -/
def namespaceChanged (nsid subsystem : Nat) (s : State) : State :=
  (s.hq.controllers.filter (fun c => c.subsystem == subsystem)).foldl (fun t c =>
    notify c.cntlid 2 0 4 (match t.hq.controller c.cntlid with
      | none => t
      | some d => setController { d with changed := if d.changed.contains nsid then d.changed else d.changed ++ [nsid] } t)) s

/-- The status of a packet that needs a pool: 1 none bound (Table 15-16). -/
def noPool (p : Packet) (s : State) : State := refuse p .poolState (detailOf [(1, 1)]) s

/-- ROOT_KIND with the kind found. -/
def wrongKind (p : Packet) (r : Root) (s : State) : State := refuse p .rootKind (detailOf [(1, rootKindCode r.kind)]) s

/-- A root that is no domain. -/
def Ftl.rootOf (f : Ftl) (id : Nat) : Option Root := f.roots.find? (fun r => r.id == id && r.kind != .domain)

/-! ### Volumes (Table 15-8) -/

/-- An NSID that some namespace has. -/
def Ftl.nsidUsed (f : Ftl) (nsid : Nat) : Bool := f.roots.any (fun r => r.nsid == nsid && r.isVolume)

/-- The checks of a new namespace: NSID and what it is attached to, by parameter offset. -/
def State.badNamespace (s : State) (nsid sub ana offN offS offA : Nat) : Option Nat :=
  if nsid = 0 ∨ nsid = 0xFFFFFFFF then some offN
  else if 1024 ≤ sub ∨ !s.hq.subsystems.any (fun x => x.number == sub) then some offS
  else if 1024 ≤ ana then some offA
  else none

/-- The layout a volume takes: the one named when it is a data layout of the term in force, or the pool's default
(R337). -/
def State.layoutFor (s : State) (layout : Nat) : Option Nat :=
  if layout = 0xFF then s.pool.map (·.layout)
  else s.tt.active.bind (fun i => if layout < 16 ∧ (i.layoutRec layout).purpose = 1 then some layout else none)

/-- VOL_CREATE. -/
def execVolCreate (b : Binding) (tag : Nat) (peer : PeerAnswer) (s : State) : Host.Outcome State Fault Refusal :=
  onPacket b tag 0x0301 (fun p s =>
    let nsid := p.param 0 4
    let fmt := p.param 0x0C 1
    if s.pool.isNone then noPool p s
    else if nsid ≠ 0 ∧ s.ftl.nsidUsed nsid then refuse p .nsidInUse (detailOf [(4, nsid)]) s
    else
      match s.badNamespace nsid (p.param 4 2) (p.param 6 2) 0 4 6, s.layoutFor (p.param 0x0A 1) with
      | some off, _ => badParam p off s
      | none, layout =>
        if (s.ftl.domainRec (p.param 8 2)).isNone then badParam p 8 s
        else
          match layout with
          | none => badParam p 0x0A s
          | some l =>
            if s.tt.active.any (fun i => i.serviceCount ≤ p.param 0x0B 1) then badParam p 0x0B s
            else if p.param 0x10 8 = 0 ∨ 2 ^ 40 < p.param 0x10 8 then badParam p 0x10 s
            else if 65536 ≤ s.ftl.volumes then refuse p .snapshotLimit noDetail s
            else pairWide p peer (fun s =>
              let r : Root := { Root.blank s.ftl.nextRoot .volume with
                nsid := nsid, subsystem := p.param 4 2, ana := p.param 6 2, domain := p.param 8 2, layout := l
                service := p.param 0x0B 1, format := flagBit (fmt != 0), piType := fmt, size := p.param 0x10 8
                quota := p.param 0x18 8, created := s.clockUs }
              changed p (fields [(4, r.id), (4, 0)])
                (namespaceChanged nsid r.subsystem (volumeRecord r 1 s.epoch (addRoot r s)))) s) s

/-- What a deleted volume leaves in staging goes, and its writes that are not Staged fail. -/
def dropVolume (r : Root) (s : State) : State :=
  let s1 := (s.hq.ctxs.filter (fun x => x.cap.nsid == r.key && x.isWrite && x.state == .dataIn && !x.committed)).foldl
    (fun t x => failWrite x (nvmeOf .volumeUnknown) t) s
  { s1 with
    stg := { s1.stg with
      versions := s1.stg.versions.filter (fun v => v.vol != r.key)
      entries := s1.stg.entries.filter (fun e => e.vol != r.key)
      marks := s1.stg.marks.filter (fun m => m.volume != r.key) }
    hq := { s1.hq with
      fsn := delKey r.key s1.hq.fsn
      reservations := s1.hq.reservations.filter (fun x => x.nsid != r.key) } }

/-- A root is deleted: its pages go, then its record (R289, R426). -/
def deleteRoot (r : Root) (s : State) : State := dropRoot r.id (volumeRecord r 2 s.epoch (freeMap r s))

/-- VOL_DELETE: volumes, clones and replicas; snapshots remain (R434). -/
def execVolDelete (b : Binding) (tag : Nat) (peer : PeerAnswer) (s : State) : Host.Outcome State Fault Refusal :=
  onPacket b tag 0x0302 (fun p s =>
    match s.ftl.rootOf (p.param 0 4) with
    | none => badParam p 0 s
    | some r =>
      if ¬ r.isVolume then wrongKind p r s
      else pairWide p peer (fun s =>
        let s1 := deleteRoot r (dropVolume r s)
        changed p [] (if r.nsid = 0 then s1 else namespaceChanged r.nsid r.subsystem s1)) s) s

/-- VOL_RESIZE: a smaller size unmaps the grains beyond it. -/
def execVolResize (b : Binding) (tag : Nat) (peer : PeerAnswer) (s : State) : Host.Outcome State Fault Refusal :=
  onPacket b tag 0x0303 (fun p s =>
    match s.ftl.rootOf (p.param 0 4) with
    | none => badParam p 0 s
    | some r =>
      let size := p.param 8 8
      if r.kind ≠ .volume ∧ r.kind ≠ .clone then wrongKind p r s
      else if size = 0 ∨ 2 ^ 40 < size then badParam p 8 s
      else pairWide p peer (fun s =>
        let beyond := r.leaves.flatMap (fun l => (l.2.entries.map (fun e => 504 * l.1 + e.1)).filter (size ≤ ·))
        let s1 := beyond.foldl (fun t g => setMap r.id g none 0 t) s
        let s2 : State := { s1 with stg := { s1.stg with
          versions := s1.stg.versions.filter (fun v => !(v.vol == r.key && size ≤ v.grain))
          entries := s1.stg.entries.filter (fun e => !(e.vol == r.key && size ≤ e.grain)) } }
        match s2.ftl.root r.id with
        | none => changed p [] s2
        | some q => changed p [] (namespaceChanged r.nsid r.subsystem
            (volumeRecord { q with size := size } 3 s2.epoch (setRoot { q with size := size } s2)))) s) s

/-- VOL_SET: service class and quota from the next bell. -/
def execVolSet (b : Binding) (tag : Nat) (peer : PeerAnswer) (s : State) : Host.Outcome State Fault Refusal :=
  onPacket b tag 0x0304 (fun p s =>
    match s.ftl.rootOf (p.param 0 4) with
    | none => badParam p 0 s
    | some r =>
      if ¬ r.isVolume then wrongKind p r s
      else if s.tt.active.any (fun i => i.serviceCount ≤ p.param 4 1) then badParam p 4 s
      else pairWide p peer (fun s => changed p [] (setRoot { r with next := some (p.param 4 1, p.param 8 8) } s)) s) s

/-- The settings of VOL_SET take effect at a bell. -/
def volumeBell (s : State) : State :=
  { s with ftl := { s.ftl with roots := s.ftl.roots.map (fun r =>
      match r.next with
      | none => r
      | some (c, q) => { r with service := c, quota := q, next := none }) } }

/-- VOL_QUERY: the root record. -/
def execVolQuery (b : Binding) (tag : Nat) (s : State) : Host.Outcome State Fault Refusal :=
  onPacket b tag 0x0309 (fun p s =>
    match s.ftl.rootOf (p.param 0 4) with
    | none => badParam p 0 s
    | some r => answered p (s.rootBytes r (s.treeRoot 1 r.id)) [] s) s

/-! ### Domains (R164 to R166, R242, R246) -/

/-- A domain is created: its record, and its locker is bound and Open from the next bell (R242). -/
def createDomain (d : Nat) (verify : Bool) (adopted : Option (Bytes × Bytes)) (s : State) : State :=
  let r : Root := { Root.blank (0xFFFFF000 + d) .domain with
    domain := d, verify := verify, adopted := adopted.isSome, sourcePool := (adopted.map (·.2)).getD (zeros 16) }
  let l : Locker := { Locker.none with
    inst := s.freeAt 0 % 2 ^ 64, check := s.freeAt 1 % 4096, fpKey := adopted.map (·.1), change := some (.isOpen, 1) }
  let s1 : State := drawn 2 { s with ftl := { s.ftl with roots := s.ftl.roots ++ [r] } }
  setLocker d l (journal (.volume r.id 1 s.epoch 0 0 0) s1)

/-- DOMAIN_CREATE: at once, or once KEY_ADOPT has come on the session (R456). -/
def execDomainCreate (b : Binding) (tag : Nat) (peer : PeerAnswer) (s : State) : Host.Outcome State Fault Refusal :=
  onPacket b tag 0x0306 (fun p s =>
    let d := p.param 0 2
    if s.pool.isNone then noPool p s
    else if 4096 ≤ d ∨ (s.ftl.roots.filter (fun r => r.kind == .domain)).length ≥ 4096 then refuse p .domainLimit noDetail s
    else if (s.ftl.domainRec d).isSome ∨ s.repl.adoptions.any (fun a => a.domain == d) then badParam p 0 s
    else if bitAt 1 (p.param 2 2) then
      if !s.repl.sessions.any (fun x => x.reg == p.param 4 2 && x.step == .isOpen) then badParam p 4 s
      else { s with repl := { s.repl with
          adoptions := s.repl.adoptions ++ [⟨d, p.param 4 2, bitAt 0 (p.param 2 2), s.tt.now, (b, tag)⟩] } }
    else pairWide p peer (fun s => changed p [] (createDomain d (bitAt 0 (p.param 2 2)) none s)) s) s

/-- The index records of a domain leave the index with the next merge sweeps (R166). -/
def dropDomainIndex (d : Nat) (s : State) : State :=
  ((s.ddp.index ++ (s.ddp.delta.map (·.r))).filter (fun x => x.domain == d)).eraseDups.foldl (fun t x => indexChange 2 x t) s

/-- DOMAIN_DELETE: an empty domain; its locker is Unbound and its instance gone (R166, R246). -/
def execDomainDelete (b : Binding) (tag : Nat) (peer : PeerAnswer) (s : State) : Host.Outcome State Fault Refusal :=
  onPacket b tag 0x0307 (fun p s =>
    let d := p.param 0 2
    let mine := s.ftl.roots.filter (fun r => r.kind != .domain && r.domain == d)
    match s.ftl.domainRec d, (mine.filter (fun r => r.sealed_ && s.clockUs < r.until_)).head? with
    | none, _ => badParam p 0 s
    | some _, some r => refuseSealed p r.until_ s.clockUs s
    | some q, none =>
      if mine ≠ [] then refuse p .domainNotEmpty noDetail s
      else pairWide p peer (fun s =>
        let s1 := changeLocker d .unbound 0 (dropDomainIndex d (journal (.volume q.id 2 s.epoch 0 0 0) s))
        changed p [] { s1 with ftl := { s1.ftl with
          roots := s1.ftl.roots.filter (fun r => !(r.kind == .domain && r.domain == d)) } }) s) s

/-- DOMAIN_VERIFY: verify mode on or off (R194). -/
def execDomainVerify (b : Binding) (tag : Nat) (peer : PeerAnswer) (s : State) : Host.Outcome State Fault Refusal :=
  onPacket b tag 0x0308 (fun p s =>
    match s.ftl.domainRec (p.param 0 2) with
    | none => badParam p 0 s
    | some _ => pairWide p peer (fun s => changed p [] { s with ftl := { s.ftl with
        roots := s.ftl.roots.map (fun r =>
          if r.kind == .domain && r.domain == p.param 0 2 then { r with verify := p.param 2 1 != 0 } else r) } }) s) s

/-! ### Seals (R436 to R441) -/

/-- An entry of the seal table (R439). -/
def Seal.bytes (x : Seal) : Bytes := fields [(4, x.root), (4, 0), (8, x.until_), (8, x.fence), (8, x.pool)]

/-- A snapshot is sealed until T, or its T raised: the seal table, MR5, the root record, and the peer's Prefect (R436,
R520). -/
def sealRoot (r : Root) (t : Nat) (s : State) : State :=
  let e : Seal := ⟨r.id, t, r.fenceEpoch, leNat ((s.pool.map (fun q => q.id.take 8)).getD [])⟩
  let s1 : State := { s with trust := { s.trust with seals := s.trust.seals.filter (fun x => x.root != r.id) ++ [e] } }
  let s2 := extendMr 5 (Config.sealExtend e.bytes) s1
  let q := { r with sealed_ := true, until_ := t }
  sendPeer (.prefectRecord (.sealEntry e.root e.until_ e.fence e.pool)) (volumeRecord q 6 t (setRoot q s2))

/-- The clock a delete ticket goes by: the lower of both heads', the survivor's alone under the Peer-absent sheet
(R437). -/
def State.ticketClock (s : State) (peerClock : Nat) : Nat := if s.peerAbsent then s.clockUs else min s.clockUs peerClock

/-- Delete tickets for sealed roots are held: a clock step, or a damaged seal table (R439, R441). -/
def State.ticketsHeld (s : State) : Bool := s.ftl.sealFault || s.trust.holdEnd.any (fun t => s.trust.oscNs < t)

/-- SNAP_SEAL: a seal is set or its time raised, never lowered (R436). -/
def execSnapSeal (b : Binding) (tag : Nat) (peer : PeerAnswer) (s : State) : Host.Outcome State Fault Refusal :=
  onPacket b tag 0x0403 (fun p s =>
    match s.ftl.rootOf (p.param 0 4) with
    | none => badParam p 0 s
    | some r =>
      let t := p.param 8 8
      if r.kind ≠ .snapshot then wrongKind p r s
      else if r.state ≠ .active then refuse p .rootNotSettled (detailOf [(4, r.id)]) s
      else if r.sealed_ ∧ t < r.until_ then refuseSealed p r.until_ s.clockUs s
      else if t = 0 then badParam p 8 s
      else pairWide p peer (fun s => changed p [] (sealRoot r t s)) s) s

/-- SNAP_DELETE: on a delete ticket, which a sealed snapshot gets once T is at or below the clocks (R435, R437). -/
def execSnapDelete (b : Binding) (tag : Nat) (peer : PeerAnswer) (peerClock : Nat) (s : State) :
    Host.Outcome State Fault Refusal :=
  onPacket b tag 0x0402 (fun p s =>
    match s.ftl.rootOf (p.param 0 4) with
    | none => badParam p 0 s
    | some r =>
      if r.kind ≠ .snapshot then wrongKind p r s
      else if r.state ≠ .active then refuse p .rootNotSettled (detailOf [(4, r.id)]) s
      else if r.sealed_ ∧ (s.ticketClock peerClock < r.until_ ∨ s.ticketsHeld) then
        refuseSealed p r.until_ (s.ticketClock peerClock) s
      else pairWide p peer (fun s =>
        let s1 := deleteRoot r s
        changed p [] { s1 with trust := { s1.trust with seals := s1.trust.seals.filter (fun x => x.root != r.id) } }) s) s

/-- SNAP_QUERY: root record and seal table entry. -/
def execSnapQuery (b : Binding) (tag : Nat) (s : State) : Host.Outcome State Fault Refusal :=
  onPacket b tag 0x0405 (fun p s =>
    match s.ftl.rootOf (p.param 0 4) with
    | none => badParam p 0 s
    | some r =>
      let e := ((s.trust.seals.find? (fun x => x.root == r.id)).map Seal.bytes).getD (zeros 32)
      answered p (s.rootBytes r (s.treeRoot 1 r.id) ++ e) [] s) s

/-! ### Clones (R432 to R434) -/

/-- CLONE_CREATE. -/
def execCloneCreate (b : Binding) (tag : Nat) (peer : PeerAnswer) (s : State) : Host.Outcome State Fault Refusal :=
  onPacket b tag 0x0404 (fun p s =>
    let nsid := p.param 4 4
    match s.ftl.rootOf (p.param 0 4) with
    | none => badParam p 0 s
    | some r =>
      if r.kind ≠ .snapshot then wrongKind p r s
      else if r.state ≠ .active then refuse p .rootNotSettled (detailOf [(4, r.id)]) s
      else if nsid ≠ 0 ∧ s.ftl.nsidUsed nsid then refuse p .nsidInUse (detailOf [(4, nsid)]) s
      else
        match s.badNamespace nsid (p.param 8 2) (p.param 0x0A 2) 4 8 0x0A with
        | some off => badParam p off s
        | none =>
          if 65536 ≤ s.ftl.volumes then refuse p .snapshotLimit noDetail s
          else pairWide p peer (fun s =>
            let c : Root := { Root.blank s.ftl.nextRoot .clone with
              nsid := nsid, subsystem := p.param 8 2, ana := p.param 0x0A 2, domain := r.domain, layout := r.layout
              service := r.service, size := r.size, parent := r.id, fenceEpoch := s.epoch, created := s.clockUs
              format := r.format, piType := r.piType, leaves := r.leaves }
            changed p (fields [(4, c.id), (4, 0)])
              (namespaceChanged nsid c.subsystem (volumeRecord c 5 s.epoch (addRoot c s)))) s) s

/-! ### Consistency groups (R427 to R430) -/

/-- Two groups have a volume in common. -/
def SnapGroup.meets (g h : SnapGroup) : Bool := g.roots.any (fun r => h.roots.contains r)

/-- A group changed in place. -/
def setGroupOf (g : SnapGroup) (s : State) : State :=
  { s with repl := { s.repl with groups := s.repl.groups.map (fun x => if x.tag == g.tag then g else x) } }

/-- The fence bell of a group is agreed: with the peer by SNAP_FENCE, alone the next bell; a group with a volume that is
still settling waits for it (R427, R430). -/
def agreeFence (g : SnapGroup) (s : State) : State :=
  if s.repl.groups.any (fun h => h.tag != g.tag && !h.waits && g.meets h) then setGroupOf { g with waits := true } s
  else if s.paired then send (.snapFence g.tag 0 g.roots) (setGroupOf { g with waits := false } s)
  else setGroupOf { g with waits := false, fence := some (s.tt.now + 1) } s

/-- The settling record of a snapshot. -/
def snapOf (id root : Nat) (s : State) : Root :=
  match s.ftl.root root with
  | none => { Root.blank id .snapshot with state := .settling, parent := root, created := s.clockUs }
  | some r => { Root.blank id .snapshot with
      state := .settling, parent := root, domain := r.domain, layout := r.layout, service := r.service, size := r.size
      sourcePool := r.sourcePool, sourceRoot := r.sourceRoot, format := r.format, piType := r.piType, created := s.clockUs }

/-- A group is asked for: a settling snapshot for each volume. -/
def startGroup (why : SnapWhy) (tag : Nat) (roots : List Nat) (until_ : Nat) (s : State) : State × SnapGroup :=
  let (s1, snaps) := roots.foldl (fun (acc : State × List Nat) r =>
    (addRoot (snapOf acc.1.ftl.nextRoot r acc.1) acc.1, acc.2 ++ [acc.1.ftl.nextRoot])) (s, [])
  let g : SnapGroup := ⟨why, tag, roots, snaps, none, until_, false, false⟩
  ({ s1 with repl := { s1.repl with groups := s1.repl.groups ++ [g] } }, g)

/-- A group of this head's own, under a tag no other has. -/
def cutGroup (why : SnapWhy) (roots : List Nat) (until_ : Nat) (s : State) : State :=
  let tag := 2 ^ 63 * s.sys.slot + s.repl.nextGroup
  let (s1, g) := startGroup why tag roots until_ { s with repl := { s.repl with nextGroup := s.repl.nextGroup + 1 } }
  agreeFence g s1

/-- The first root of a list that is named before. -/
def twice : List Nat → List Nat → Option Nat
  | _, [] => none
  | seen, r :: rest => if seen.contains r then some r else twice (r :: seen) rest

/-- SNAP_CREATE: the reply is sent once the group settles (R427 to R430). -/
def execSnapCreate (b : Binding) (tag : Nat) (s : State) : Host.Outcome State Fault Refusal :=
  onPacket b tag 0x0401 (fun p s =>
    let n := p.param 0 2
    let t := p.param 8 8
    let roots := (List.range n).map (fun i => p.param (16 + 4 * i) 4)
    if (bitAt 0 (p.param 2 2)) = (t == 0) then badParam p 8 s
    else if 256 < n then refuse p .groupLimit (detailOf [(4, roots.getD 256 0)]) s
    else
      match twice [] roots with
      | some r => refuse p .groupLimit (detailOf [(4, r)]) s
      | none =>
        match roots.findIdx? (fun r => (s.ftl.rootOf r).isNone) with
        | some i => badParam p (16 + 4 * i) s
        | none =>
          let rs := roots.filterMap s.ftl.rootOf
          match rs.find? (fun r => !r.isVolume), rs.find? (fun r => s.ec.offline.contains r.layout),
            rs.find? (fun r => 16384 ≤ s.ftl.snapshotsOf r.id) with
          | some r, _, _ => wrongKind p r s
          | none, some _, _ => refuse p .volumeOffline noDetail s
          | none, none, some r => refuse p .snapshotLimit (detailOf [(4, r.id)]) s
          | none, none, none =>
            if 1048576 < s.ftl.snapshots + n then refuse p .snapshotLimit noDetail s
            else cutGroup (.packet b tag) roots t s) s

/-- The fence bell of a group has come: each volume this head owns records the number it will assign next (R427). A
checkpoint's SYNC_FENCE lists the writes below it that are not Staged (R459). -/
def cutNow (g : SnapGroup) (bell : Nat) (s : State) : State :=
  let s1 := (g.roots.zip g.snaps).foldl (fun t p =>
    match t.ftl.root p.1, t.ftl.root p.2 with
    | some r, some q => setRoot { q with
        fenceBell := bell, fenceSeq := if t.ownsRoot r then t.hq.nextFsn r.key else 0 } t
    | _, _ => t) (setGroupOf { g with cut := true } s)
  match g.why with
  | .checkpoint session true =>
    let below := fun (w : SyncWait) => (g.roots.zip g.snaps).any (fun p => p.1 == w.root &&
      (s1.ftl.root p.2).any (fun q => w.seq < q.fenceSeq))
    let ws := (s1.repl.syncs.filter (fun y => y.session == session && y.source)).flatMap (fun y => y.waiting.filter below)
    sendRecord session 9 0 (fields [(4, g.snaps.headD 0), (4, ws.length), (8, bell)] ++
      ws.flatMap (fun w => fields [(4, w.root), (4, 0), (8, w.seq)])) s1
  | _ => s1

/-- Groups whose fence bell has come. -/
def fenceBell (s : State) : State :=
  s.repl.groups.foldl (fun t g =>
    match g.fence with
    | none => t
    | some b => if !g.cut && b ≤ s.tt.now then cutNow g b t else t) s

/-- SNAP_FENCE: the peer's request, which this head holds from now on and cuts at its next bell, or the peer's answer
with that bell (R427). -/
def execSnapFence (number tag bell : Nat) (roots : List Nat) (s : State) : Host.Outcome State Fault Refusal :=
  onMessage number (.snapFence tag bell roots) (fun s =>
    match s.corr.answerOf (fun b => match b with | .snapFence t _ _ => t == tag | _ => false) with
    | some m =>
      let s1 := settleNumber m.number s
      match s1.repl.groups.find? (fun g => g.tag == tag) with
      | none => s1
      | some g => if g.cut then s1 else fenceBell (setGroupOf { g with fence := some bell } s1)
    | none =>
      let at_ := s.tt.now + 1
      let s1 := if s.repl.groups.any (fun g => g.tag == tag) then s else (startGroup .peer tag roots 0 s).1
      let s2 := match s1.repl.groups.find? (fun g => g.tag == tag) with
        | none => s1
        | some g => setGroupOf { g with fence := some at_, cut := false } s1
      reply number (.snapFence tag at_ roots) s2) s

/-- Every version below the fence of every volume of a group that this head owns is destaged and durable (R429). -/
def State.groupReady (s : State) (g : SnapGroup) : Bool :=
  g.cut && (g.roots.zip g.snaps).all (fun p =>
    match s.ftl.root p.1, s.ftl.root p.2 with
    | some r, some q =>
      let low := fun (n : Nat) => n != 0 && n < q.fenceSeq && !q.fenceSkip.contains n
      !s.ownsRoot r ||
        (!s.stg.versions.any (fun v => v.vol == r.key && low v.seq && !v.released) &&
         !s.hq.ctxs.any (fun x => x.isWrite && x.cap.nsid == r.key && low x.seq && x.state != .staged) &&
         !s.jobs.destages.any (fun d => d.vol == r.key && d.taken.any low))
    | _, _ => true)

/-- A snapshot settles: it takes its volume's map, size, domain and layout; its fence epoch begins now; it is sealed
where the request says so (R429, R436). -/
def settleSnap (until_ root snap : Nat) (s : State) : State :=
  match s.ftl.root root, s.ftl.root snap with
  | some r, some q =>
    let x := { q with
      state := .active, size := r.size, domain := r.domain, layout := r.layout, leaves := r.leaves
      fenceEpoch := s.epoch, fenceSeq := 0, fenceSkip := [], sourceSnap := q.sourceSnap }
    let s1 := setRoot x s
    let s2 := if s.ownsRoot r then volumeRecord x 4 s.epoch s1 else s1
    if until_ = 0 then s2 else sealRoot x until_ s2
  | _, _ => s

/-- A group settles at an epoch boundary; groups that waited for its volumes take their fences (R429, R430). -/
def settleGroup (g : SnapGroup) (s : State) : State :=
  let s1 := (g.roots.zip g.snaps).foldl (fun t p => settleSnap g.until_ p.1 p.2 t) s
  let s2 : State := { s1 with repl := { s1.repl with groups := s1.repl.groups.filter (fun x => x.tag != g.tag) } }
  let s3 := (s2.repl.groups.filter (·.waits)).foldl (fun t h => agreeFence h t) s2
  match g.why with
  | .packet b tag =>
    match s3.cpi.packet b tag 0x0401 with
    | none => s3
    | some p =>
      let ps := fields ((8, g.fence.getD 0) :: g.snaps.map (fun i => (4, i)))
      changed p (fitBytes (roundUp ps.length 8) ps) s3
  | _ => s3

/-- The survivor of a lost head cuts its groups again, and those the peer was asked for, at the first bell after its replay
(R430). -/
def cutAgain (s : State) : State :=
  { s with
    repl := { s.repl with groups := s.repl.groups.map (fun g =>
      { g with fence := if g.waits then none else some (s.tt.now + 1), cut := false }) }
    ftl := { s.ftl with roots := s.ftl.roots.map (fun r => if r.state == .settling then { r with fenceSeq := 0 } else r) } }

end Sys2Proof.Machine
end

