-- ==== Sys2Proof/Machine/Sessions.lean ====
section
/-! DEFINITION. Replication partners and sessions: handshake, channel, replacement, end (R442 to R450). -/

namespace Sys2Proof.Machine

/-! ### The handshake, shared with the pair channel (R444 to R446, R519) -/

/-- SHA3-512. -/
def sha3_512 (m : Bytes) : Bytes := keccakSponge 72 0x06 m 64

/-- A handshake message: 16-byte header and body (R444). -/
def hsMessage (type : Nat) (body : Bytes) : Bytes :=
  ascii "BRRP" ++ fields [(1, type), (1, 1), (2, 0), (4, body.length), (4, 0)] ++ body

/-- A message has a sound header of its type and its body's length. -/
def hsOk (type length : Nat) (m : Bytes) : Bool :=
  slice m 0 4 == ascii "BRRP" && fieldAt m 4 1 == type && fieldAt m 5 1 == 1 && allZero (slice m 6 2) &&
  allZero (slice m 0x0C 4) && fieldAt m 8 4 == m.length - 16 && m.length == 16 + length

/-- The 12-bit values of an ML-KEM-1024 encapsulation key are below 3,329, as FIPS 203 checks them (R445). -/
def kemKeyOk (ek : Bytes) : Bool :=
  ek.length == 1568 && (List.range 512).all (fun i =>
    let v := fieldAt ek (3 * i) 3
    v % 4096 < 3329 && v / 4096 < 3329)

/-- An OFFER (Table 12-3): the message, the X448 private value and the ML-KEM seed, from fresh random values (R445). -/
def offerOf (number : Nat) (s : State) : Bytes × (Bytes × Bytes) :=
  let r := s.randomBytes 152
  let x := slice r 32 56
  let k := slice r 88 64
  (hsMessage 1 (fields [(2, number), (2, s.sys.chip), (4, 0)] ++ fitBytes 16 ((s.pool.map (·.id)).getD []) ++ slice r 0 32 ++
    fitBytes 56 (Config.x448Public x) ++ fitBytes 1568 (Config.mlkemPublic k)), (x, k))

/-- The session secret from both shared secrets and H (R445, R519). -/
def sessionSecret (label : String) (x k h : Bytes) : Bytes := kmac256 (x ++ k) h 32 (ascii label)

/-- ACCEPT to an OFFER: the message, H, the secret; none where a check of R445 fails. -/
def acceptOf (label : String) (offer : Bytes) (s : State) : Option (Bytes × (Bytes × Bytes)) :=
  if !hsOk 1 1680 offer ∨ !allZero (slice offer 0x14 4) ∨ !kemKeyOk (slice offer 0x80 1568) then none
  else
    let r := s.randomBytes 120
    let x := Config.x448 (slice r 32 56) (slice offer 0x48 56)
    let (ct, k) := Config.mlkemEncaps (slice offer 0x80 1568) (slice r 88 32)
    if allZero x then none
    else
      let m := hsMessage 2 (fields [(2, s.sys.chip), (6, 0)] ++ slice r 0 32 ++ fitBytes 56 (Config.x448Public (slice r 32 56)) ++
        fitBytes 1568 ct)
      let h := sha3_512 (offer ++ m)
      some (m, (h, sessionSecret label x k h))

/-- The offerer's H and secret from ACCEPT; none where a check fails. -/
def acceptedOf (label : String) (offer xPriv kem accept : Bytes) : Option (Bytes × Bytes) :=
  if !hsOk 2 1664 accept ∨ !allZero (slice accept 0x12 6) then none
  else
    let x := Config.x448 xPriv (slice accept 0x38 56)
    let k := Config.mlkemDecaps kem (slice accept 0x70 1568)
    let h := sha3_512 (offer ++ accept)
    if allZero x then none else some (h, sessionSecret label x k h)

/-- PROVE: the identity record and its two signatures of H (R446). -/
def proveOf (h : Bytes) (ctx : String) (s : State) : Bytes :=
  let r := s.trust.flash.identity
  hsMessage 3 (fields [(4, r.length), (4, 0)] ++ r ++ fitBytes 114 (Config.ed448Sign identityEdKey h (ascii ctx)) ++ zeros 2 ++
    fitBytes 4627 (Config.mldsaSign identityMlKey h (ascii ctx)) ++ zeros 1)

/-- The identity record of a PROVE. -/
def proveRecord (m : Bytes) : Bytes := slice m 0x18 (fieldAt m 0x10 4)

/-- Why a PROVE is refused, of reasons 1 to 3 (R446); 3 too for a form that is not PROVE's. -/
def proveRefusal (m h : Bytes) (ctx : String) (s : State) : Option Nat :=
  let n := fieldAt m 0x10 4
  let r := proveRecord m
  if !hsOk 3 (8 + n + 4744) m ∨ !allZero (slice m 0x14 4 ++ slice m (0x18 + n + 114) 2 ++ slice m (0x18 + n + 4743) 1) then some 3
  else if !Config.ed448Verify (slice r 0x40 57) h (ascii ctx) (slice m (0x18 + n) 114) then some 1
  else if !Config.mldsaVerify (slice r 0x80 2592) h (ascii ctx) (slice m (0x18 + n + 116) 4627) then some 2
  else if !s.trust.identityOk r then some 3
  else none

/-! ### The end of transfers and sessions -/

/-- A migration changed in place. -/
def setMigration (m : Migration) (s : State) : State :=
  { s with repl := { s.repl with migrations := s.repl.migrations.map (fun x => if x.root == m.root then m else x) } }

/-- Fetch for a namespace goes on again. -/
def releaseNs (l : List Nat) (s : State) : State :=
  { s with hq := { s.hq with heldNs := s.hq.heldNs.filter (fun n => !l.contains n) } }

/-- The NSID of a root; 0 none. -/
def Ftl.nsidOf (f : Ftl) (id : Nat) : Nat := ((f.rootOf id).map (·.nsid)).getD 0

/-- A cutover ends without effect: fetch resumes on the source, and its packet fails (R463). -/
def cutoverFails (root : Nat) (st : Status) (detail : Bytes) (s : State) : State :=
  let s1 := releaseNs [s.ftl.nsidOf root] s
  match s1.repl.migrations.find? (fun m => m.root == root) with
  | none => s1
  | some m =>
    let s2 := setMigration { m with cutover := none } s1
    match m.cutover.bind (fun w => s2.cpi.packet w.1 w.2 0x0508) with
    | none => s2
    | some p => refuse p st detail s2

/-- The namespaces of a relation's volumes. -/
def SyncRel.namespaces (y : SyncRel) (s : State) : List Nat := y.roots.map (fun p => s.ftl.nsidOf p.1)

/-- A transfer has failed: its packet, its cutover or its catch-up with it; a migration tries again (R450, R454, R461). -/
def failTransfer (t : Transfer) (st : Status) (detail : Bytes) (s : State) : State :=
  let s1 : State := { s with repl := { s.repl with
    transfers := s.repl.transfers.filter (fun x => !(x.session == t.session && x.number == t.number && x.source == t.source)) } }
  match t.why with
  | .packet b tag =>
    match s1.cpi.packet b tag 0x0505 with
    | none => s1
    | some p => refuse p st detail s1
  | .migration root =>
    match s1.repl.migrations.find? (fun m => m.root == root && m.who.isSome) with
    | none => s1
    | some m =>
      let s2 : State := { s1 with repl := { s1.repl with migrations := s1.repl.migrations.filter (fun x => x.root != root) } }
      match m.who.bind (fun w => s2.cpi.packet w.1 w.2 0x0507) with
      | none => s2
      | some p => refuse p st detail s2
  | .cutover root => cutoverFails root st detail s1
  | .resume root =>
    let mine := s1.repl.syncs.filter (fun y => y.source && y.final && y.roots.any (fun p => p.1 == root))
    let s2 := mine.foldl (fun u y => releaseNs (y.namespaces u) u) s1
    { s2 with repl := { s2.repl with syncs := s2.repl.syncs.map (fun y =>
        if y.source && y.roots.any (fun p => p.1 == root) then { y with final := false } else y) } }
  | .received => s1

/-- Every transfer of a session fails with REPL_PEER_ABORT (R450). -/
def failTransfers (reg status : Nat) (s : State) : State :=
  (s.repl.transfers.filter (fun t => t.session == reg)).foldl (fun u t =>
    failTransfer t .replPeerAbort (detailOf [(2, status)]) u) s

/-- What relations and migrations name in place of a session that is gone: its partner, past every session register. -/
def lostSession (peer : Nat) : Nat := 64 + peer

/-- Relations and migrations of one session go over to another (R448, R450). -/
def Repl.rebind (r : Repl) (from_ new : Nat) : Repl :=
  { r with
    migrations := r.migrations.map (fun m => if m.session == from_ then { m with session := new } else m)
    syncs := r.syncs.map (fun y => if y.session == from_ then { y with session := new } else y) }

/-- A session is gone; its relations and migrations wait for the next one with its partner (R450). -/
def dropSession (reg : Nat) (s : State) : State :=
  match s.repl.session reg with
  | none => s
  | some x => { s with repl := { (if x.step = .isOpen then s.repl.rebind reg (lostSession x.peer) else s.repl) with
      sessions := s.repl.sessions.filter (fun x => x.reg != reg) } }

/-- A session ends before or after it opened: the packet that opened it fails, its transfers fail. -/
def endSession (x : Session) (st : Status) (detail : Bytes) (status : Nat) (s : State) : State :=
  let s1 := failTransfers x.reg status (dropSession x.reg s)
  match x.who.bind (fun w => s1.cpi.packet w.1 w.2 0x0503) with
  | none => s1
  | some p => refuse p st detail s1

/-- REFUSE with a status to the other end, and the connection closes (R444). -/
def refuseSession (x : Session) (st : Status) (detail : Bytes) (s : State) : State :=
  endSession x st detail (statusCode st) (emit (.handshake x.reg 4 (hsMessage 4 (fields [(2, statusCode st), (6, 0)]))) s)

/-- A session closes: its message ends with a final segment (R449); the packet that asked is answered. -/
def closeSession (x : Session) (s : State) : State :=
  let s1 := if x.segment ≠ 0 ∨ x.text ≠ [] then sendSegment x.reg 65536 true s else s
  let s2 := failTransfers x.reg 0 (dropSession x.reg s1)
  match x.who.bind (fun w => s2.cpi.packet w.1 w.2 0x0504) with
  | none => s2
  | some p => changed p [] s2

/-- Sessions that were asked to close and have no transfer left. -/
def closeIdle (s : State) : State :=
  (s.repl.sessions.filter (fun x => x.closing && !s.repl.transfers.any (fun t => t.session == x.reg))).foldl
    (fun t x => closeSession x t) s

/-- Sessions whose channel failed on a cipher lane end, with their transfers (R450). -/
def endFailed (s : State) : State :=
  (s.repl.sessions.filter (·.failed)).foldl (fun t x => endSession x .replPeerAbort noDetail 0 t) s

/-! ### Partners -/

/-- REPL_PARTNER_ADD: at most 256 (R442). A chip already enrolled takes the digest named. -/
def execReplPartnerAdd (b : Binding) (tag : Nat) (s : State) : Host.Outcome State Fault Refusal :=
  onPacket b tag 0x0501 (fun p s =>
    let rest := s.repl.partners.filter (fun x => x.chip != p.param 0 2)
    if 256 ≤ rest.length then refuse p .partnerLimit noDetail s
    else changed p [] { s with repl := { s.repl with partners := rest ++ [⟨p.param 0 2, slice p.params 8 32⟩] } }) s

/-- REPL_PARTNER_REMOVE: its open sessions close. -/
def execReplPartnerRemove (b : Binding) (tag : Nat) (s : State) : Host.Outcome State Fault Refusal :=
  onPacket b tag 0x0502 (fun p s =>
    let c := p.param 0 2
    if !s.repl.partners.any (fun x => x.chip == c) then badParam p 0 s
    else
      let s1 : State := { s with repl := { s.repl with partners := s.repl.partners.filter (fun x => x.chip != c) } }
      changed p [] ((s1.repl.sessions.filter (fun x => x.peer == c)).foldl (fun t x => closeSession x t) s1)) s

/-! ### Opening -/

/-- The lowest session register that is free (R443). -/
def Repl.freeReg (r : Repl) : Option Nat := (List.range 64).find? (fun i => !r.sessions.any (fun x => x.reg == i))

/-- A session in its handshake. -/
def newSession (reg number peer port : Nat) (offerer : Bool) (step : SessionStep) (now : Nat) : Session where
  reg := reg
  number := number
  peer := peer
  port := port
  offerer := offerer
  step := step
  at_ := now
  offer := []
  accept := []
  xPriv := []
  kem := []
  secret := []
  hash := []
  pool := []
  opened := 0
  sent := 0
  received := 0
  message := 0
  segment := 0
  nonce := []
  prevTag := zeros 16
  text := []
  textAt := none
  who := none
  closing := false
  failed := false
  replaces := none

/-- OFFER goes out on a session register. The session number is the register's. -/
def offerSession (reg peer port : Nat) (who : Option (Binding × Nat)) (replaces : Option Nat) (s : State) : State :=
  let (m, x, k) := offerOf reg s
  let n : Session := { newSession reg reg peer port true .offered s.tt.now with
    offer := m, xPriv := x, kem := k, pool := (s.pool.map (·.id)).getD [], who := who, replaces := replaces }
  emit (.handshake reg 1 m) (drawn 152 { s with repl := { s.repl with sessions := s.repl.sessions ++ [n] } })

/-- REPL_SESSION_OPEN: the handshake starts; the reply waits for its end (R443 to R446). -/
def execReplSessionOpen (b : Binding) (tag : Nat) (s : State) : Host.Outcome State Fault Refusal :=
  onPacket b tag 0x0503 (fun p s =>
    if s.pool.isNone then noPool p s
    else if !s.repl.partners.any (fun x => x.chip == p.param 0 2) then badParam p 0 s
    else
      match s.repl.freeReg with
      | none => refuse p .sessionLimit noDetail s
      | some reg => offerSession reg (p.param 0 2) (if p.param 2 2 = 0 then 7451 else p.param 2 2) (some (b, tag)) none s) s

/-- OFFER: the acceptor derives the secret and answers ACCEPT, or REFUSE (R445). -/
def execOffer (port : Nat) (message : Bytes) (s : State) : Host.Outcome State Fault Refusal :=
  .next <|
    match s.repl.freeReg, acceptOf "BIRCA-SESS" message s with
    | none, _ => emit (.handshake 64 4 (hsMessage 4 (fields [(2, statusCode .sessionLimit), (6, 0)]))) s
    | some _, none => emit (.handshake 64 4 (hsMessage 4 (fields [(2, statusCode .pktFormat), (6, 0)]))) s
    | some reg, some (m, h, k) =>
      let n : Session := { newSession reg (fieldAt message 0x10 2) (fieldAt message 0x12 2) port false .accepted s.tt.now with
        offer := message, accept := m, hash := h, secret := k, pool := slice message 0x18 16 }
      emit (.handshake reg 2 m) (drawn 120 { s with repl := { s.repl with sessions := s.repl.sessions ++ [n] } })

/-- ACCEPT: the offerer derives the secret, discards its private values and sends PROVE (R445, R446). -/
def execAccept (reg : Nat) (message : Bytes) (s : State) : Host.Outcome State Fault Refusal :=
  match s.repl.session reg with
  | none => .next s
  | some x =>
    whenDue (x.step = .offered)
      (match acceptedOf "BIRCA-SESS" x.offer x.xPriv x.kem message with
       | none => refuseSession x .pktFormat noDetail s
       | some (h, k) =>
         if fieldAt message 0x10 2 ≠ x.peer then refuseSession x .sessionAuth (detailOf [(1, 5)]) s
         else emit (.handshake reg 3 (proveOf h "BIRCA-RP-O" s))
           (setSession { x with
             accept := message, hash := h, secret := k, xPriv := [], kem := [], step := .proving, at_ := s.tt.now } s)) s

/-- Why a PROVE of a session is refused (R446). -/
def sessionRefusal (x : Session) (m : Bytes) (s : State) : Option Nat :=
  let d := identityDigest (proveRecord m)
  (proveRefusal m x.hash (if x.offerer then "BIRCA-RP-A" else "BIRCA-RP-O") s).or
    (if !s.repl.partners.any (fun p => p.digest == d) then some 4
     else if !s.repl.partners.any (fun p => p.digest == d && p.chip == x.peer) then some 5 else none)

/-- A session is open: what it replaces closes when its transfers end, and new work takes the new one, with what an earlier session
with its partner left (R448, R450). -/
def openSession (x : Session) (s : State) : State :=
  let s0 := setSession { x with step := .isOpen, opened := s.clockSec, who := none } s
  let s1 : State := { s0 with repl := s0.repl.rebind (lostSession x.peer) x.reg }
  let s2 := match x.replaces with
    | none => s1
    | some old => closeIdle { s1 with repl := { s1.repl.rebind old x.reg with
        sessions := s1.repl.sessions.map (fun y => if y.reg == old then { y with closing := true } else y) } }
  match x.who.bind (fun w => s2.cpi.packet w.1 w.2 0x0503) with
  | none => s2
  | some p => changed p (fields [(2, x.reg), (6, 0)]) s2

/-- PROVE: the acceptor checks the offerer's and sends its own; the offerer checks the acceptor's (R446). -/
def execProve (reg : Nat) (message : Bytes) (s : State) : Host.Outcome State Fault Refusal :=
  match s.repl.session reg with
  | none => .next s
  | some x =>
    whenDue ((x.offerer = true ∧ x.step = .proving) ∨ (x.offerer = false ∧ x.step = .accepted))
      (match sessionRefusal x message s with
       | some why => refuseSession x .sessionAuth (detailOf [(1, why)]) (if why ≤ 2 then tallyAdd 0x01 3 1 s else s)
       | none =>
         openSession x (if x.offerer then s else emit (.handshake reg 3 (proveOf x.hash "BIRCA-RP-A" s)) s)) s

/-- REFUSE: the other end closes the connection (R444). -/
def execRefuse (reg status : Nat) (s : State) : Host.Outcome State Fault Refusal :=
  match s.repl.session reg with
  | none => .next s
  | some x => whenDue (x.step ≠ .isOpen) (endSession x .replPeerAbort (detailOf [(2, status)]) status s) s

/-- HANDSHAKE_TIMEOUT: no message for 2 s (R444). -/
def execHandshakeTimeout (reg : Nat) (s : State) : Host.Outcome State Fault Refusal :=
  match s.repl.session reg with
  | none => .next s
  | some x => whenDue (x.step ≠ .isOpen ∧ x.at_ + secBells 2 ≤ s.tt.now) (refuseSession x .replPeerAbort noDetail s) s

/-- SESSION_REKEY: after 86,400 s or 2^40 bytes in a direction a new handshake replaces the session (R448). -/
def execSessionRekey (reg : Nat) (s : State) : Host.Outcome State Fault Refusal :=
  match s.repl.session reg, s.repl.freeReg with
  | some x, some new =>
    whenDue (x.step = .isOpen ∧ x.offerer = true ∧ x.closing = false ∧
        s.repl.sessions.all (fun y => y.replaces != some reg) = true ∧
        (x.opened + 86400 ≤ s.clockSec ∨ 2 ^ 40 ≤ x.sent ∨ 2 ^ 40 ≤ x.received))
      (offerSession new x.peer x.port none (some reg) s) s
  | _, _ => .next s

/-- SEGMENT_SEND_TIMER: a record has waited 1 period; one PAD record fills the rest of its segment (R449). -/
def execSegmentSendTimer (reg : Nat) (s : State) : Host.Outcome State Fault Refusal :=
  match s.repl.session reg with
  | none => .next s
  | some x =>
    whenDue (x.text ≠ [] ∧ x.textAt.any (fun t => t + 1 ≤ s.tt.now) = true)
      (let rest := 65536 - x.text.length
       if x.text.length ≥ 65536 then sendFull reg (x.text.length / 65536) s
       else sendRecord reg 0 0 (zeros (if 16 ≤ rest then rest - 16 else rest + 65536 - 16)) s) s

/-- REPL_SESSION_CLOSE: the session closes after its open transfers end. -/
def execReplSessionClose (b : Binding) (tag : Nat) (s : State) : Host.Outcome State Fault Refusal :=
  onPacket b tag 0x0504 (fun p s =>
    match s.repl.session (p.param 0 2) with
    | none => badParam p 0 s
    | some x =>
      if x.step ≠ .isOpen then badParam p 0 s
      else closeIdle (setSession { x with closing := true, who := some (b, tag) } s)) s

end Sys2Proof.Machine
end

