-- ==== Sys2Proof/Machine/Transfers.lean ====
section
/-! DEFINITION. Transfers of asynchronous replication, at the source and at the receiver (R451 to R456). -/

namespace Sys2Proof.Machine

/-- A transfer changed in place. -/
def setTransfer (t : Transfer) (s : State) : State :=
  { s with repl := { s.repl with transfers := s.repl.transfers.map (fun x =>
      if x.session == t.session && x.number == t.number && x.source == t.source then t else x) } }

/-- A transfer of a session by its number, at one end. -/
def Repl.transfer (r : Repl) (session number : Nat) (source : Bool) : Option Transfer :=
  r.transfers.find? (fun t => t.session == session && t.number == number && t.source == source)

/-- A transfer is over. -/
def dropTransfer (t : Transfer) (s : State) : State :=
  closeIdle { s with repl := { s.repl with
    transfers := s.repl.transfers.filter (fun x => !(x.session == t.session && x.number == t.number && x.source == t.source)) } }

/-- ABORT to the other end, and the transfer has failed (R450). -/
def abortTransfer (t : Transfer) (st : Status) (detail : Bytes) (s : State) : State :=
  failTransfer t st detail
    (sendRecord t.session 0x0B t.number (fields [(2, statusCode st), (6, 0)] ++ fitBytes 16 detail) s)

/-! ### The source (R451) -/

/-- The index record that names a CID, of either half: its fingerprint. -/
def State.fpOf (s : State) (cid : Nat) : Option Bytes :=
  ((s.ddp.records ++ s.ddp.peerHalf).find? (fun x => x.cid == cid && !x.poisoned)).map (·.fp)

/-- Grains whose leaf entries differ between a map and its base, with the entry of the map; every mapped grain without a
base. Pages that both name are skipped (R451 step 2). -/
def Root.differs (r : Root) (base : Option Root) : List (Nat × Option Nat) :=
  let old := (base.map (·.leaves)).getD []
  let keys := sortBy (· ≤ ·) (((r.leaves.map (·.1)) ++ (old.map (·.1))).eraseDups)
  keys.flatMap (fun k =>
    let a := getKey k r.leaves
    let b := getKey k old
    let ea := (a.map (·.entries)).getD []
    let eb := (b.map (·.entries)).getD []
    if a.isSome ∧ a.map (·.birth) = b.map (·.birth) ∧ ea = eb then []
    else
      (sortBy (· ≤ ·) (((ea.map (·.1)) ++ (eb.map (·.1))).eraseDups)).filterMap (fun i =>
        if getKey i ea = getKey i eb then none else some (504 * k + i, getKey i ea)))

/-- A FINGERPRINTS entry (Table 12-4). -/
def State.fpEntry (s : State) (e : Nat × Option Nat) : Bytes :=
  match e.2 with
  | none => fields [(6, e.1), (1, 2), (1, 0)] ++ zeros 24
  | some 0 => fields [(6, e.1), (1, 1), (1, 0)] ++ zeros 24
  | some c =>
    match s.fpOf c with
    | none => fields [(6, e.1), (1, 3), (1, 0)] ++ zeros 24
    | some f => fields [(6, e.1), (1, 0), (1, 0)] ++ fitBytes 24 f

/-- A transfer starts: BEGIN, then FINGERPRINTS (R451 steps 1 and 2). -/
def startTransfer (session : Nat) (why : TransferWhy) (snap base domain flags : Nat) (s : State) : State :=
  match s.ftl.rootOf snap with
  | none => s
  | some q =>
    let n := s.repl.nextTransfer
    let fl := flags + flagBit q.sealed_
    let es := (q.differs (if base = 0 then none else s.ftl.rootOf base)).flatMap s.fpEntry
    let t : Transfer := ⟨session, n, true, why, base, snap, 0, fl, q.until_, es, [], [], [], none, [], false⟩
    let s1 : State := { s with repl := { s.repl with nextTransfer := n + 1, transfers := s.repl.transfers ++ [t] } }
    let s2 := sendRecord session 1 n (fields [(4, q.parent), (4, base), (4, snap), (4, 0), (8, q.fenceEpoch), (8, q.size),
      (2, domain), (2, fl), (4, 0), (8, q.until_)] ++ fitBytes 16 ((s.pool.map (·.id)).getD [])) s1
    sendRecord session 2 n (fields [(4, es.length / 32), (4, 0)] ++ es) s2

/-- REPL_ASYNC_SEND: a settled snapshot over a base of the same root, or none; the reply waits for COMMIT. -/
def execReplAsyncSend (b : Binding) (tag : Nat) (s : State) : Host.Outcome State Fault Refusal :=
  onPacket b tag 0x0505 (fun p s =>
    let base := p.param 8 4
    match s.repl.session (p.param 0 2), s.ftl.rootOf (p.param 4 4) with
    | none, _ => badParam p 0 s
    | some _, none => badParam p 4 s
    | some x, some r =>
      if x.step ≠ .isOpen ∨ x.closing then badParam p 0 s
      else if r.kind ≠ .snapshot then wrongKind p r s
      else if r.state ≠ .active then refuse p .rootNotSettled (detailOf [(4, r.id)]) s
      else if base ≠ 0 ∧ !(s.ftl.rootOf base).any (fun q => q.kind == .snapshot && q.parent == r.parent && q.state == .active) then
        badParam p 8 s
      else startTransfer x.reg (.packet b tag) r.id base r.domain 0 s) s

/-- END, once every WANT has been served (R451 step 4, R455). -/
def sendEnd (t : Transfer) (s : State) : State :=
  if t.asked ∧ t.wants = [] ∧ t.ended.isNone then
    let d := sha3_256 t.entries
    sendRecord t.session 5 t.number (fields [(8, t.entries.length / 32)] ++ d)
      (setTransfer { t with ended := some (t.entries.length / 32, d) } s)
  else s

/-- WANT: the slot of each grain named is read in the replication stream class (R451 step 3). -/
def execWant (session transfer : Nat) (grains : List Nat) (s : State) : Host.Outcome State Fault Refusal :=
  match s.repl.transfer session transfer true with
  | none => .next s
  | some t =>
    let q := s.ftl.rootOf t.snap
    let l := grains.filter (fun g => (q.bind (fun r => r.cidOf g)).any (· != 0))
    let t1 := { t with asked := true, wants := t.wants ++ l }
    let s1 := l.foldl (fun u g => startRead (.transfer session) g ((q.bind (fun r => r.cidOf g)).getD 0) [0, 1, 2, 3] u)
      (setTransfer t1 s)
    .next (sendEnd t1 s1)

/-- The content a slot's plaintext stands for, whole, with its metadata bytes. -/
def slotContent (slot tail : Bytes) : Option Bytes :=
  let r := skxDecode slot (tierOf slot.length) [0, 1, 2, 3]
  if r.errors = [] ∧ r.released.length = 4 then some (r.released.flatMap (·.2) ++ tail) else none

/-- A grain read for a transfer goes out as GRAIN; in migration its F is computed again, and a difference is met by
reconstruction, then by ABORT (R451 step 3, R462). -/
def serveGrain (t : Transfer) (grain cid : Nat) (slot : Option Bytes) (s : State) : State :=
  match slot with
  | none => abortTransfer t .readUnrecovered noDetail s
  | some b =>
    let tail := (getKey cid s.ftl.tails).getD []
    let dom := ((s.ftl.rootOf t.snap).map (·.domain)).getD 0
    let differs := bitAt 1 t.flags && (s.fpOf cid).any (fun f =>
      (slotContent b tail).all (fun x => (kmac256 (s.fpKey dom) x 32 (ascii "BIRCA-FP")).take 24 != f))
    let again := fun (_ : Unit) =>
      let job := s.jobs.next
      let s1 := startRead (.transfer t.session) grain cid [0, 1, 2, 3] s
      let s2 := { s1 with bay := { s1.bay with waiting := s1.bay.waiting.filter (fun o => match o.use with
        | .slot j _ => j != job
        | _ => true) } }
      (reconstructSlot job s2).map (setTransfer { t with retried := t.retried ++ [grain] })
    if differs ∧ !t.retried.contains grain then
      match again () with
      | some s3 => s3
      | none => abortTransfer t .replFpMismatch (detailOf [(8, grain)]) s
    else if differs then abortTransfer t .replFpMismatch (detailOf [(8, grain)]) s
    else
      let t1 := { t with wants := t.wants.drop 1 }
      let s1 := sendRecord t.session 4 t.number (fields [(8, grain), (1, tierOf b.length), (1, flagBit (tail != [])), (6, 0)] ++ b ++
        (if tail = [] then [] else fitBytes 256 tail)) (setTransfer t1 s)
      sendEnd t1 s1

/-- Slots read for transfers are served in the order their grains were named. -/
def serveHanded : Nat → State → State
  | 0, s => s
  | n + 1, s =>
    let hit := s.jobs.handed.findSome? (fun h =>
      ((s.repl.transfers.find? (fun t => t.source && t.session == h.1 && t.wants.head? == some h.2.1 &&
        (s.ftl.rootOf t.snap).any (fun q => q.cidOf h.2.1 == some h.2.2.1))).map (fun t => (t, h))))
    match hit with
    | none => s
    | some (t, h) =>
      let s1 := { s with jobs := { s.jobs with handed := dropFirst (fun x => x == h) s.jobs.handed } }
      serveHanded n (serveGrain t h.2.1 h.2.2.1 h.2.2.2 s1)

/-- Slots read for transfers that are over are forgotten. -/
def dropHanded (s : State) : State :=
  { s with jobs := { s.jobs with handed := s.jobs.handed.filter (fun h =>
      s.repl.transfers.any (fun t => t.source && t.session == h.1 && t.wants.contains h.2.1)) } }

/-! ### The receiver (R452 to R455) -/

/-- The replica of a source root. -/
def Ftl.replicaOf (f : Ftl) (pool : Bytes) (root : Nat) : Option Root :=
  f.roots.find? (fun r => r.kind == .replica && r.sourcePool == pool && r.sourceRoot == root)

/-- The newest commit of a replica. -/
def Ftl.newestCommit (f : Ftl) (replica : Nat) : Option Root :=
  let l := f.roots.filter (fun r => r.kind == .snapshot && r.parent == replica && r.state == .active && r.sourceSnap != 0)
  l.find? (fun r => l.all (fun q => q.fenceEpoch ≤ r.fenceEpoch))

/-- The live tree of a replica becomes a map it shares pages with; the pages written since are freed (R454). -/
def returnTree (replica : Nat) (tree : List (Nat × LeafPage)) (s : State) : State :=
  match s.ftl.rootOf replica with
  | none => s
  | some r =>
    let own := r.leaves.filter (fun l => !(getKey l.1 tree).any (fun p => p.birth == l.2.birth) &&
      !(s.ftl.fenceOf r).any (fun e => l.2.birth ≤ e))
    setRoot { r with leaves := tree } (own.foldl (fun t l => l.2.entries.foldl (fun u e => refChange e.2 (-1) u) t) s)

/-- The versions a failed transfer staged go. -/
def dropStaged (t : Transfer) (s : State) : State :=
  let vol := 2 ^ 32 + t.replica
  let mine := fun (n : Nat) => t.staged.any (fun x => x.2 == n)
  { s with
    stg := { s.stg with
      versions := s.stg.versions.filter (fun v => !(v.vol == vol && mine v.seq))
      marks := s.stg.marks.filter (fun m => !(m.volume == vol && mine m.seq))
      entries := s.stg.entries.filter (fun e => !(e.vol == vol && t.staged.any (fun x => x.1 == e.grain))) } }

/-- BEGIN: the replica is the one of the source root, created with the first transfer; its live tree returns to its
newest commit, or is emptied for a full transfer. A base that is not the newest commit's is missing (R451, R454). -/
def execBeginTransfer (session transfer root base snap _fenceEpoch size domain flags until_ : Nat) (pool : Bytes) (s : State) :
    Host.Outcome State Fault Refusal :=
  match s.repl.session session with
  | none => .next s
  | some x =>
    whenDue (x.step = .isOpen)
      (let t : Transfer := ⟨session, transfer, false, .received, base, snap, 0, flags, until_, [], [], [], [], none, [], false⟩
       let s0 := setSession { x with received := x.received + 80 } s
       let old := s0.ftl.replicaOf pool root
       if (s0.ftl.domainRec domain).isNone then abortTransfer t .lockerUnbound noDetail s0
       else if old.isNone ∧ 65536 ≤ s0.ftl.volumes then abortTransfer t .snapshotLimit noDetail s0
       else if base ≠ 0 ∧ !old.any (fun r => r.sourceSnap == base) then abortTransfer t .replBaseMissing (detailOf [(4, base)]) s0
       else
         let s1 := (s0.repl.transfers.filter (fun y => !y.source && old.any (fun r => r.id == y.replica))).foldl (fun u y =>
           failTransfer y .replPeerAbort noDetail (dropStaged y u)) s0
         let (s2, id) : State × Nat := match old with
           | some r => (returnTree r.id (if base = 0 then [] else ((s1.ftl.newestCommit r.id).map Root.leaves).getD []) s1, r.id)
           | none =>
             let r : Root := { Root.blank s1.ftl.nextRoot .replica with
               domain := domain, layout := (s1.pool.map Pool.layout).getD 0, size := size, created := s1.clockUs, sourcePool := pool
               sourceRoot := root }
             (volumeRecord r 1 s1.epoch (addRoot r s1), r.id)
         let s3 := match s2.ftl.rootOf id with
           | none => s2
           | some r => if r.size = size then s2 else volumeRecord { r with size := size } 3 s2.epoch (setRoot { r with size := size } s2)
         { s3 with repl := { s3.repl with
             replicas := if s3.repl.replicas.contains id then s3.repl.replicas else s3.repl.replicas ++ [id]
             transfers := s3.repl.transfers ++ [{ t with replica := id }] } }) s

/-- A content entry's match in the replica's domain, as the index, its delta and the peer's half stand; a CID at the
highest count is no match (R191, R198, R452). -/
def State.matchOf (s : State) (domain : Nat) (fp : Bytes) : Option Nat :=
  let here := s.resolvesHere fp
  let rec_ := if here then (s.ddp.deltaFind domain fp).or (if s.probe fp then s.ddp.indexFind domain fp else none)
    else s.ddp.peerHalf.find? (fun x => x.domain == domain && x.fp == fp)
  match rec_ with
  | none => none
  | some x => if !x.poisoned && (s.ftl.ctRec x.cid).any (fun r => r.usable && r.refs != 0xFFFFFFFF) then some x.cid else none

/-- One entry applied to the replica's live tree; the grains to ask for (R452). -/
def applyEntry (t : Transfer) (domain : Nat) (acc : Transfer × State) (e : Bytes) : Transfer × State :=
  let (u, s) := acc
  let g := fieldAt e 0 6
  let kind := fieldAt e 6 1
  let f := slice e 8 24
  let u1 := { u with entries := u.entries ++ e }
  if kind = 1 then (u1, setMap t.replica g (some 0) 0 s)
  else if kind = 2 then (u1, setMap t.replica g none 0 s)
  else
    match (if kind = 0 ∧ !s.verifies domain then s.matchOf domain f else none) with
    | some c => (u1, setMap t.replica g (some c) 0 (tallyDomain 1 domain (refChange c 1 s)))
    | none => ({ u1 with wants := u1.wants ++ [g], expect := if kind = 0 then u1.expect ++ [(g, f)] else u1.expect }, s)

/-- FINGERPRINTS: each entry is applied; WANT names the grains this end has not (R452). -/
def execFingerprints (session transfer : Nat) (entries : Bytes) (s : State) : Host.Outcome State Fault Refusal :=
  match s.repl.transfer session transfer false, s.repl.session session with
  | some t, some x =>
    let dom := ((s.ftl.rootOf t.replica).map (·.domain)).getD 0
    let es := (List.range (entries.length / 32)).map (fun i => slice entries (32 * i) 32)
    let (u, s1) := es.foldl (applyEntry t dom) ({ t with wants := [] }, setSession { x with received := x.received + entries.length + 24 } s)
    .next (sendRecord session 3 transfer (fields ([(4, u.wants.length), (4, 0)] ++ u.wants.map (fun g => (8, g)))) (setTransfer u s1))
  | _, _ => .next s

/-- A write of a replica under a number this head assigns: staged, mirrored and committed like any write (R452,
R458). -/
def writeReplica (replica session transfer seq lba n : Nat) (data pi : Bytes) (s : State) : State :=
  let vol := 2 ^ 32 + replica
  let cap : Capsule := ⟨1, vol, lba, n, 0, 0, 0, 0, 4096 * n, false, some data, pi, []⟩
  let x : Ctx := { newCtx 65537 session transfer cap [] seq s.tt.now with state := .dataIn }
  let s1 : State := { s with
    stg := { s.stg with admitted := s.stg.admitted + n }
    hq := { s.hq with fsn := putKey vol (max (s.hq.nextFsn vol) (seq + 1)) s.hq.fsn } }
  let s2 := { s1 with hq := { s1.hq with ctxs := s1.hq.ctxs ++ [x] } }
  let (y, s3) := placeData x 0 data pi s2
  writeProgress y s3

/-- GRAIN: decoded, staged as a version of the replica and committed; a slot that does not decode aborts the transfer.
It waits while staging has no room. -/
def execGrain (session transfer grain tier : Nat) (slot tail : Bytes) (s : State) : Host.Outcome State Fault Refusal :=
  match s.repl.transfer session transfer false, s.repl.session session with
  | some t, some x =>
    whenDue (s.admitsWrite [(4 * grain, 4)] 4 = true)
      (let s0 := setSession { x with received := x.received + 32 + slot.length + tail.length } s
       let r := skxDecode (fitBytes (4096 * tier) slot) tier [0, 1, 2, 3]
       if r.errors ≠ [] ∨ r.released.length ≠ 4 then
         abortTransfer t (match r.errors.head? with | some e => e.2.status | none => .skxBadHeader) noDetail (dropStaged t s0)
       else
         let seq := s0.hq.nextFsn (2 ^ 32 + t.replica)
         setTransfer { t with staged := t.staged ++ [(grain, seq)] }
           (writeReplica t.replica session transfer seq (4 * grain) 4 (r.released.flatMap (·.2)) tail s0)) s
  | _, _ => .next s

/-- Destages of replicated grains whose F differs from the source's, where the fingerprint key was adopted (R452, R456). -/
def checkReplicas (s : State) : State :=
  (s.repl.transfers.filter (fun t => !t.source)).foldl (fun u t =>
    let adopted := (s.ftl.rootOf t.replica).any (fun r => (s.ftl.domainRec r.domain).any (·.adopted))
    match s.jobs.destages.find? (fun d => d.vol == 2 ^ 32 + t.replica && d.fp != [] &&
        (getKey d.grain t.expect).any (fun f => f != d.fp)) with
    | none => u
    | some d => if adopted then abortTransfer t .replFpMismatch (detailOf [(8, d.grain)]) (dropStaged t u) else u) s

/-- END: the replica is snapshot once every version of the transfer is durable, with the transfer's grains as its only
writes (R453). -/
def execEndTransfer (session transfer entries : Nat) (digest : Bytes) (s : State) : Host.Outcome State Fault Refusal :=
  match s.repl.transfer session transfer false, s.repl.session session with
  | some t, some x =>
    let s1 := setTransfer { t with ended := some (entries, digest) } (setSession { x with received := x.received + 56 } s)
    let tag := 2 ^ 63 * s1.sys.slot + s1.repl.nextGroup
    let (s2, g) := startGroup (.replica session transfer) tag [t.replica] 0
      { s1 with repl := { s1.repl with nextGroup := s1.repl.nextGroup + 1 } }
    .next (fenceBell (setGroupOf { g with fence := some s2.tt.now } s2))
  | _, _ => .next s

/-- The manifest of a transfer agrees: count and digest; in migration, each entry with this end's own index records for
the replica's map (R455, R463). -/
def State.manifestOk (s : State) (t : Transfer) : Bool :=
  let es := (List.range (t.entries.length / 32)).map (fun i => slice t.entries (32 * i) 32)
  t.ended == some (es.length, sha3_256 t.entries) &&
  (!bitAt 1 t.flags || es.all (fun e =>
    let c := (s.ftl.rootOf t.replica).bind (fun r => r.cidOf (fieldAt e 0 6))
    if fieldAt e 6 1 = 0 then c.any (fun i => s.fpOf i == some (slice e 8 24))
    else if fieldAt e 6 1 = 1 then c == some 0
    else if fieldAt e 6 1 = 2 then c.isNone
    else c.isSome))

/-- The target of a cutover attaches the replica as a volume and sends both notices (R498 step 2). The spec names no message that tells the
target which transfer is the cutover's: the model takes a full transfer of a migration over a replica that has a commit
(DEDUCED, log 76). -/
def attachReplica (id : Nat) (s : State) : State :=
  match s.ftl.rootOf id with
  | none => s
  | some r =>
    let ns := Config.migratedNs r.sourcePool r.sourceRoot
    if s.ftl.nsidUsed ns.1 then s
    else
      let v := { r with kind := .volume, nsid := ns.1, subsystem := ns.2.1, ana := ns.2.2 }
      notifyAll 2 3 0x0C (namespaceChanged v.nsid v.subsystem (setRoot v s))

/-- The replica's snapshot has settled: it is sealed with the T of BEGIN, and COMMIT says OK; or the manifests differ, it is deleted
again unsealed, and COMMIT says REPL_MANIFEST (R453, R455). -/
def commitReplica (session transfer snap : Nat) (s : State) : State :=
  match s.repl.transfer session transfer false with
  | none => s
  | some t =>
    let body := fun (st : Status) => fields [(2, statusCode st), (2, 0), (4, snap)] ++ sha3_256 t.entries
    if s.manifestOk t then
      match s.ftl.rootOf snap, s.ftl.rootOf t.replica with
      | some q, some r =>
        let q1 := { q with sourceSnap := t.snap }
        let s0 := setRoot { r with sourceSnap := t.snap } (setRoot q1 s)
        let s1 := if bitAt 0 t.flags then sealRoot q1 t.until_ s0 else s0
        let s2 := dropTransfer t (sendRecord session 6 transfer (body .ok) (volumeRecord r 7 q.fenceEpoch s1))
        if bitAt 1 t.flags ∧ t.base = 0 ∧ r.sourceSnap ≠ 0 then attachReplica r.id s2 else s2
      | _, _ => dropTransfer t s
    else
      let s1 := match s.ftl.rootOf snap with
        | none => s
        | some q => deleteRoot q s
      dropTransfer t (sendRecord session 6 transfer (body .replManifest) s1)

end Sys2Proof.Machine
end

