-- ==== Sys2Proof/Machine/Relations.lean ====
section
/-! DEFINITION. Synchronous relations, migration, key adoption; the settling of consistency groups and what follows it
(R429, R453, R456 to R464, R498). -/

namespace Sys2Proof.Machine

/-! ### Synchronous relations (R457 to R461) -/

/-- A relation changed in place. -/
def setSync (y z : SyncRel) (s : State) : State :=
  { s with repl := { s.repl with syncs := s.repl.syncs.map (fun x =>
      if x.session == y.session && x.source == y.source && x.roots == y.roots then z else x) } }

/-- The source flag of a relation's volumes (Table 12-1). -/
def markSources (l : List Nat) (on : Bool) (s : State) : State :=
  { s with ftl := { s.ftl with roots := s.ftl.roots.map (fun r =>
      if l.contains r.id && r.kind != .domain then { r with syncSource := on } else r) } }

/-- The waiting writes of a relation become Staged on local commit alone. -/
def releaseWaits (y : SyncRel) (s : State) : State :=
  y.roots.foldl (fun t p => syncAcked y.session p.1 (2 ^ 64) t) s

/-- The entries of REPL_SYNC_SET: source root and matching snapshot. -/
def syncEntries (p : Packet) : List (Nat × Nat) :=
  (List.range (p.param 6 2)).map (fun i => (p.param (8 + 8 * i) 4, p.param (12 + 8 * i) 4))

/-- REPL_SYNC_SET: binds, ends or sets a relation; writes are sent from the next epoch boundary (R457, R460). -/
def execReplSyncSet (b : Binding) (tag : Nat) (s : State) : Host.Outcome State Fault Refusal :=
  onPacket b tag 0x0506 (fun p s =>
    let es := syncEntries p
    let action := p.param 2 1
    let mine := s.repl.syncs.filter (fun y => y.source && y.session == p.param 0 2 &&
      (es == [] || y.roots.any (fun r => es.any (fun e => e.1 == r.1))))
    if !s.repl.sessions.any (fun x => x.reg == p.param 0 2 && x.step == .isOpen) then badParam p 0 s
    else if 1000 < p.param 4 2 then badParam p 4 s
    else if action = 2 then
      changed p [] (mine.foldl (fun t y =>
        let t1 := markSources (y.roots.map (·.1)) false (releaseNs (y.namespaces t) (releaseWaits y t))
        { t1 with repl := { t1.repl with syncs := t1.repl.syncs.filter (fun z =>
            !(z.session == y.session && z.source && z.roots == y.roots)) } }) s)
    else
      let ms := if p.param 4 2 = 0 then 20 else p.param 4 2
      if action = 3 then
        if mine = [] then badParam p 8 s
        else changed p [] (mine.foldl (fun t y => setSync y { y with timeout := ms, stall := p.param 3 1 == 1 } t) s)
      else
        match twice [] (es.map (·.1)), es.findIdx? (fun e => (s.ftl.rootOf e.1).isNone),
          (es.filterMap (fun e => s.ftl.rootOf e.1)).find? (fun r => r.kind != .volume && r.kind != .clone) with
        | some r, _, _ => refuse p .groupLimit (detailOf [(4, r)]) s
        | none, some i, _ => badParam p (8 + 8 * i) s
        | none, none, some r => wrongKind p r s
        | none, none, none =>
          if 256 < es.length then refuse p .groupLimit (detailOf [(4, (es.map (·.1)).getD 256 0)]) s
          else if es = [] ∨ mine ≠ [] then badParam p 6 s
          else
            match es.findIdx? (fun e => !(s.ftl.rootOf e.2).any (fun q => q.kind == .snapshot && q.parent == e.1)),
              es.find? (fun e => (s.ftl.rootOf e.2).any (fun q => q.state != .active)) with
            | some i, _ => badParam p (12 + 8 * i) s
            | none, some e => refuse p .rootNotSettled (detailOf [(4, e.2)]) s
            | none, none =>
              let y : SyncRel := ⟨p.param 0 2, true, es.map (fun e => (e.1, 0)), ms, p.param 3 1 == 1, false, s.epoch + 1, [],
                s.tt.now, es, [], false, [], s.tt.now, false, 0⟩
              changed p [] (markSources (es.map (·.1)) true
                { s with repl := { s.repl with syncs := s.repl.syncs ++ [y] } })) s

/-- SYNC_ACK: writes up to the number are done at the other end (R457). -/
def execSyncAck (session root seq : Nat) (s : State) : Host.Outcome State Fault Refusal :=
  match s.repl.session session with
  | none => .next s
  | some x => .next (syncAcked session root seq (setSession { x with received := x.received + 32 } s))

/-- A relation is fractured: its writes are Staged on local commit alone (R460). -/
def fracture (y : SyncRel) (s : State) : State :=
  let s1 := releaseWaits y (setSync y { y with fractured := true, triedAt := s.tt.now } s)
  y.roots.foldl (fun t p => event 0xA006 9 p.1 t) s1

/-- SYNC_ACK_TIMEOUT: a write has waited longer than the relation's timeout: Fracture or Stall (R460). -/
def execSyncAckTimeout (session root : Nat) (s : State) : Host.Outcome State Fault Refusal :=
  match s.repl.syncs.find? (fun y => y.source && y.session == session && !y.fractured && y.roots.any (fun p => p.1 == root)) with
  | none => .next s
  | some y =>
    whenDue (y.stall = false ∧ y.waiting.any (fun w => !w.acked && w.at_ + msBells y.timeout ≤ s.tt.now) = true)
      (fracture y s) s

/-- SYNC_CHECKPOINT: every 60 s the source cuts a snapshot of the group; SYNC_FENCE follows its fence bell (R459). -/
def execSyncCheckpoint (session : Nat) (s : State) : Host.Outcome State Fault Refusal :=
  .next ((s.repl.syncs.filter (fun y => y.source && y.session == session && !y.fractured && y.checkAt + secBells 60 ≤ s.tt.now &&
      !s.repl.groups.any (fun g => g.why == .checkpoint session true && g.roots == y.roots.map (·.1)))).foldl (fun t y =>
    cutGroup (.checkpoint session true) (y.roots.map (·.1)) 0 (setSync y { y with checkAt := t.tt.now, seen := false, made := [] } t)) s)

/-- Writes of relations that are committed here are answered: SYNC_ACK names the highest number up to which every one
is Staged (R458). -/
def ackSyncs (s : State) : State :=
  s.repl.syncs.foldl (fun t y =>
    if y.source then t
    else
      let ws := y.waiting.map (fun w => { w with acked := w.acked || !t.hq.ctxs.any (fun x => x.cntlid == 65537 && x.seq == w.at_ &&
        y.roots.any (fun p => p.1 == w.root && x.cap.nsid == 2 ^ 32 + p.2)) })
      y.roots.foldl (fun u p =>
        let l := ws.filter (fun w => w.root == p.1)
        let done_ := l.filter (fun w => l.all (fun v => w.seq < v.seq || v.acked))
        let top := (done_.map (·.seq)).foldl max 0
        let before := ((y.waiting.filter (fun w => w.root == p.1 && w.acked)).map (·.seq)).foldl max 0
        if before < top then sendRecord y.session 8 0 (fields [(4, p.1), (4, 0), (8, top)]) u else u)
        (setSync y { y with waiting := ws } t)) s

/-- SYNC_WRITE: staged as versions of the replica, ordered as at the source, and committed on this pair before it is
acknowledged (R458). It waits while staging has no room. -/
def execSyncWrite (session root count seq lba : Nat) (blocks pi : Bytes) (s : State) : Host.Outcome State Fault Refusal :=
  match s.repl.session session, s.ftl.roots.find? (fun r => r.kind == .replica && r.sourceRoot == root) with
  | some x, some r =>
    whenDue (x.step = .isOpen ∧ s.admitsWrite [(lba, count)] count = true)
      (let s0 := setSession { x with received := x.received + 40 + blocks.length + pi.length } s
       let rel : SyncRel := (s0.repl.syncs.find? (fun y => !y.source && y.session == session)).getD
         ⟨session, false, [], 0, false, false, 0, [], 0, [], [], false, [], 0, false, 0⟩
       let s1 : State := if s0.repl.syncs.any (fun y => !y.source && y.session == session) then s0
         else { s0 with repl := { s0.repl with syncs := s0.repl.syncs ++ [rel] } }
       let base := (getKey root rel.bases).getD (s1.hq.nextFsn (2 ^ 32 + r.id))
       let rel1 := { rel with
         roots := if rel.roots.any (fun p => p.1 == root) then rel.roots else rel.roots ++ [(root, r.id)]
         bases := putKey root base rel.bases
         waiting := rel.waiting ++ [⟨root, seq, base + seq, false, none⟩] }
       let s2 : State := { setSync rel rel1 s1 with repl := { (setSync rel rel1 s1).repl with
         replicas := if s1.repl.replicas.contains r.id then s1.repl.replicas else s1.repl.replicas ++ [r.id] } }
       ackSyncs (writeReplica r.id session 0 (base + seq) lba count blocks pi s2)) s
  | _, _ => .next s

/-- SYNC_FENCE: the replicas are snapshot with every SYNC_WRITE that came before, except those listed (R459). -/
def execSyncFence (session snapshot bell : Nat) (listed : List (Nat × Nat)) (s : State) : Host.Outcome State Fault Refusal :=
  match s.repl.syncs.find? (fun y => !y.source && y.session == session) with
  | none => .next s
  | some y =>
    let tag := 2 ^ 63 * s.sys.slot + s.repl.nextGroup
    let (s1, g) := startGroup (.checkpoint session false) tag (y.roots.map (·.2)) 0
      { s with repl := { s.repl with nextGroup := s.repl.nextGroup + 1 } }
    let s2 := fenceBell (setGroupOf { g with fence := some s1.tt.now } s1)
    let s3 := (y.roots.zip g.snaps).foldl (fun t p =>
      match t.ftl.root p.2 with
      | none => t
      | some q => setRoot { q with
          fenceBell := bell, sourceSnap := snapshot
          fenceSkip := (y.waiting.filter (fun w => w.root == p.1.1 && listed.contains (w.root, w.seq))).map (·.at_) } t) s2
    .next (setSync y { y with waiting := y.waiting.filter (fun w => !w.acked || listed.contains (w.root, w.seq)) } s3)

/-- FRACTURE_RESUME_TIMER: every 60 s a fractured relation tries to catch up from a new snapshot (R461). -/
def execFractureResumeTimer (session : Nat) (s : State) : Host.Outcome State Fault Refusal :=
  .next ((s.repl.syncs.filter (fun y => y.source && y.session == session && y.fractured && y.triedAt + secBells 60 ≤ s.tt.now &&
      s.repl.sessions.any (fun x => x.reg == session && x.step == .isOpen) &&
      !s.repl.groups.any (fun g => g.why == .resume session) &&
      !s.repl.transfers.any (fun t => y.roots.any (fun p => t.why == .resume p.1)))).foldl (fun t y =>
    cutGroup (.resume session) (y.roots.map (·.1)) 0 (setSync y { y with triedAt := t.tt.now } t)) s)

/-- Bytes by which a volume differs from its last checkpoint (R461). -/
def State.behind (s : State) (y : SyncRel) : Nat :=
  sumNat (y.roots.map (fun p =>
    match s.ftl.rootOf p.1 with
    | none => 0
    | some r => 16384 * (r.differs ((getKey p.1 y.checks).bind s.ftl.rootOf)).length +
        sumNat ((s.stg.versions.filter (fun v => v.vol == r.key && !v.released)).map (fun _ => 4096))))

/-- A catch-up transfer is committed. With every volume's done: less than 1 GiB left, fetch is held and a final one
follows; after the final one SYNC_WRITE resumes from its fence (R461). -/
def caughtUp (root snap : Nat) (s : State) : State :=
  match s.repl.syncs.find? (fun y => y.source && y.fractured && y.roots.any (fun p => p.1 == root)) with
  | none => s
  | some y =>
    let z := { y with checks := putKey root snap y.checks }
    let s1 := setSync y z s
    if y.made.all (fun m => getKey m.1 z.checks == some m.2) then
      if z.final then releaseNs (z.namespaces s1) (setSync z { z with
        fractured := false, final := false, fromEpoch := s1.epoch, checkAt := s1.tt.now } s1)
      else if s1.behind z < 2 ^ 30 then
        let s2 : State := { s1 with hq := { s1.hq with heldNs := (s1.hq.heldNs ++ z.namespaces s1).eraseDups } }
        cutGroup (.resume z.session) (z.roots.map (·.1)) 0 (setSync z { z with final := true } s2)
      else s1
    else s1

/-! ### Migration (R462 to R464, R498) -/

/-- The oldest snapshot that a migration has not sent goes next, over the one before. -/
def nextMigration (root : Nat) (s : State) : State :=
  match s.repl.migrations.find? (fun m => m.root == root) with
  | none => s
  | some m =>
    match m.queue with
    | [] => s
    | snap :: _ =>
      if s.repl.transfers.any (fun t => t.source && t.why == .migration root) then s
      else startTransfer m.session (.migration root) snap m.last m.domain 6 s

/-- MIGRATE_EXPORT: KEY_ADOPT goes first, then the snapshots of the root oldest first (R456, R462). -/
def execMigrateExport (b : Binding) (tag : Nat) (s : State) : Host.Outcome State Fault Refusal :=
  onPacket b tag 0x0507 (fun p s =>
    match s.repl.session (p.param 0 2), s.ftl.rootOf (p.param 4 4) with
    | none, _ => badParam p 0 s
    | some _, none => badParam p 4 s
    | some x, some r =>
      let d := p.param 2 2
      if x.step ≠ .isOpen ∨ x.closing then badParam p 0 s
      else if 4096 ≤ d then badParam p 2 s
      else if r.kind ≠ .volume ∧ r.kind ≠ .clone then wrongKind p r s
      else
        let wrapped := xorBytes (s.fpKey r.domain) (kmac256 x.secret (leBytes 2 d ++ ascii "W") 32 (ascii "BIRCA-ADOPT"))
        let check := kmac256 x.secret (leBytes 2 d ++ wrapped) 32 (ascii "BIRCA-ADOPT-C")
        let snaps := (sortBy (fun a c => a.fenceEpoch ≤ c.fenceEpoch)
          (s.ftl.roots.filter (fun q => q.kind == .snapshot && q.parent == r.id && q.state == .active))).map (·.id)
        let m : Migration := ⟨x.reg, r.id, d, snaps, 0, s.tt.now, if snaps = [] then none else some (b, tag), none, 0⟩
        let s1 : State := { s with repl := { s.repl with
          migrations := s.repl.migrations.filter (fun y => y.root != r.id) ++ [m] } }
        let s2 := nextMigration r.id (sendRecord x.reg 0x0A 0 (fields [(2, d), (6, 0)] ++ wrapped ++ check) s1)
        if snaps = [] then changed p [] s2 else s2) s

/-- MIGRATE_REPEAT_TIMER: every 60 s a fresh snapshot is cut and sent (R462). -/
def execMigrateRepeatTimer (session root : Nat) (s : State) : Host.Outcome State Fault Refusal :=
  match s.repl.migrations.find? (fun m => m.session == session && m.root == root) with
  | none => .next s
  | some m =>
    whenDue (m.cutover.isNone ∧ m.lastAt + secBells 60 ≤ s.tt.now ∧
        s.repl.sessions.any (fun x => x.reg == session && x.step == .isOpen) = true ∧
        s.repl.groups.all (fun g => g.why != .migration session root) = true ∧
        s.repl.transfers.all (fun t => t.why != .migration root) = true)
      (let s1 := setMigration { m with lastAt := s.tt.now } s
       if m.queue ≠ [] then nextMigration root s1 else cutGroup (.migration session root) [root] 0 s1) s

/-- MIGRATE_CUTOVER: fetch for the namespace is held and a final snapshot is cut (R463). -/
def execMigrateCutover (b : Binding) (tag : Nat) (s : State) : Host.Outcome State Fault Refusal :=
  onPacket b tag 0x0508 (fun p s =>
    let root := p.param 4 4
    match s.repl.migrations.find? (fun m => m.session == p.param 0 2 && m.root == root), s.ftl.rootOf root with
    | none, _ => badParam p 0 s
    | some _, none => badParam p 4 s
    | some m, some r =>
      let transit := p.param 2 2
      if 1024 ≤ transit ∨ s.ftl.roots.any (fun q => q.isVolume && q.nsid != 0 && q.id != root && q.ana == transit) then badParam p 2 s
      else cutGroup (.cutover m.session root) [root] 0
        (setMigration { m with cutover := some (b, tag), transit := transit }
          { s with hq := { s.hq with heldNs := s.hq.heldNs ++ [r.nsid] } })) s

/-- Commands of a namespace that wait in their queues complete with a status; they were never fetched (R498). -/
def failQueued (nsid : Nat) (st : NvmeStatus) (s : State) : State :=
  s.hq.queues.foldl (fun t q => endCapsules q (fun c => c.2.1.nsid == nsid) st t) s

/-- The host paths of a migrated volume move: the transit group, ANA Change and Namespace Attribute notices, held commands
completed Inaccessible; the source detaches the namespace and keeps the root (R464, R498). -/
def movePaths (root transit : Nat) (s : State) : State :=
  match s.ftl.rootOf root with
  | none => s
  | some r =>
    let told := fun (t : State) => notifyAll 2 3 0x0C (namespaceChanged r.nsid r.subsystem t)
    let s1 := told (setRoot { r with ana := transit } s)
    let s2 := told { s1 with hq := { s1.hq with held := if s1.hq.held.contains transit then s1.hq.held else s1.hq.held ++ [transit] } }
    let s3 := failQueued r.nsid nvmeInaccessible s2
    releaseNs [r.nsid] (setRoot { r with ana := transit, nsid := 0, subsystem := 0 } s3)

/-! ### Answers from the receiver -/

/-- REPL_COMMIT: the transfer, or with transfer 0 the sync checkpoint, is committed at the other end (R453, R455, R459,
R463). -/
def execReplCommit (session transfer status snapshot : Nat) (_digest : Bytes) (s : State) : Host.Outcome State Fault Refusal :=
  .next <|
    if transfer = 0 then
      (s.repl.syncs.filter (fun y => y.source && y.session == session && status == 0)).foldl (fun t y =>
        setSync y (if y.made = [] then { y with seen := true } else { y with checks := y.made, made := [] }) t) s
    else
      match s.repl.transfer session transfer true with
      | none => s
      | some t =>
        if status ≠ 0 then
          closeIdle (failTransfer t (if status = 0x0672 then .replManifest else .replPeerAbort)
            (if status = 0x0672 then detailOf [(4, t.number)] else detailOf [(2, status)]) s)
        else
          let s1 := dropTransfer t s
          match t.why with
          | .packet b tag =>
            match s1.cpi.packet b tag 0x0505 with
            | none => s1
            | some p => changed p (fields [(4, snapshot), (4, t.number)]) s1
          | .migration root =>
            match s1.repl.migrations.find? (fun m => m.root == root) with
            | none => s1
            | some m =>
              let n := { m with queue := m.queue.filter (· != t.snap), last := t.snap }
              if n.queue ≠ [] then nextMigration root (setMigration n s1)
              else
                match m.who.bind (fun w => s1.cpi.packet w.1 w.2 0x0507) with
                | none => setMigration n s1
                | some p => changed p [] (setMigration { n with who := none } s1)
          | .cutover root =>
            match s1.repl.migrations.find? (fun m => m.root == root) with
            | none => s1
            | some m =>
              let s2 := movePaths root m.transit { s1 with repl := { s1.repl with
                migrations := s1.repl.migrations.filter (fun x => x.root != root) } }
              match m.cutover.bind (fun w => s2.cpi.packet w.1 w.2 0x0508) with
              | none => s2
              | some p => changed p (fields [(4, snapshot), (4, 0)]) s2
          | .resume root => caughtUp root t.snap s1
          | .received => s1

/-- A migration whose key was not adopted ends; its packet fails (R456). -/
def adoptFailed (session domain : Nat) (s : State) : State :=
  (s.repl.migrations.filter (fun m => m.session == session && m.domain == domain)).foldl (fun t m =>
    let t1 : State := { t with repl := { t.repl with
      migrations := t.repl.migrations.filter (fun x => x.root != m.root)
      transfers := t.repl.transfers.filter (fun x => x.why != .migration m.root) } }
    match m.who.bind (fun w => t1.cpi.packet w.1 w.2 0x0507) with
    | none => t1
    | some p => refuse p .adoptFail (detailOf [(2, domain)]) t1) s

/-- REPL_ABORT: the other end aborts a transfer; a missing base is met by a full transfer (R450, R451). -/
def execReplAbort (session transfer status : Nat) (detail : Bytes) (s : State) : Host.Outcome State Fault Refusal :=
  .next <|
    if transfer = 0 then (if status = 0x0411 then adoptFailed session (fieldAt detail 0 2) s else s)
    else
      match s.repl.transfer session transfer true, s.repl.transfer session transfer false with
      | some t, _ =>
        if status = 0x0670 ∧ t.base ≠ 0 then
          let d := match t.why with
            | .migration root => ((s.repl.migrations.find? (fun m => m.root == root)).map (·.domain)).getD 0
            | _ => ((s.ftl.rootOf t.snap).map (·.domain)).getD 0
          startTransfer session t.why t.snap 0 d (t.flags - t.flags % 2) (dropTransfer t s)
        else closeIdle (failTransfer t .replPeerAbort (detailOf [(2, status)]) s)
      | none, some t => failTransfer t .replPeerAbort (detailOf [(2, status)]) (dropStaged t s)
      | none, none => s

/-! ### Key adoption (R456) -/

/-- KEY_ADOPT: the domain that waits for the key is created with it, or fails with ADOPT_FAIL. -/
def execKeyAdopt (session domain : Nat) (wrapped check : Bytes) (s : State) : Host.Outcome State Fault Refusal :=
  match s.repl.session session with
  | none => .next s
  | some x =>
    let fail := fun (t : State) => sendRecord session 0x0B 0 (fields [(2, statusCode .adoptFail), (6, 0)] ++ detailOf [(2, domain)]) t
    .next <|
      match s.repl.adoptions.find? (fun a => a.domain == domain && a.session == session) with
      | none => fail s
      | some a =>
        let s1 : State := { s with repl := { s.repl with adoptions := s.repl.adoptions.filter (fun y => y.domain != domain) } }
        let p := s1.cpi.packet a.who.1 a.who.2 0x0306
        if kmac256 x.secret (leBytes 2 domain ++ wrapped) 32 (ascii "BIRCA-ADOPT-C") = check then
          let key := xorBytes wrapped (kmac256 x.secret (leBytes 2 domain ++ ascii "W") 32 (ascii "BIRCA-ADOPT"))
          let s2 := createDomain domain a.verify (some (key, x.pool)) s1
          match p with
          | none => s2
          | some p => changed p [] (sendPeer (.forward p.opcode p.cls p.params p.payload) s2)
        else
          match p with
          | none => fail s1
          | some p => refuse p .adoptFail (detailOf [(2, domain)]) (fail s1)

/-- KEY_ADOPT_WAIT_EXPIRY: no KEY_ADOPT within 60 s of DOMAIN_CREATE (R549). -/
def execKeyAdoptWaitExpiry (domain : Nat) (s : State) : Host.Outcome State Fault Refusal :=
  match s.repl.adoptions.find? (fun a => a.domain == domain) with
  | none => .next s
  | some a =>
    whenDue (a.since + secBells 60 ≤ s.tt.now)
      (let s1 : State := { s with repl := { s.repl with adoptions := s.repl.adoptions.filter (fun y => y.domain != domain) } }
       match s1.cpi.packet a.who.1 a.who.2 0x0306 with
       | none => s1
       | some p => refuse p .adoptFail (detailOf [(2, domain)]) s1) s

/-! ### Settling, and what follows it -/

/-- What a settled group was cut for goes on. -/
def afterSettle (g : SnapGroup) (s : State) : State :=
  let pairs := g.roots.zip g.snaps
  match g.why with
  | .packet .. => s
  | .peer => s
  | .replica session transfer => commitReplica session transfer (g.snaps.headD 0) s
  | .checkpoint session true =>
    (s.repl.syncs.filter (fun y => y.source && y.session == session && y.roots.map (·.1) == g.roots)).foldl (fun t y =>
      setSync y (if y.seen then { y with checks := pairs, seen := false } else { y with made := pairs }) t) s
  | .checkpoint session false =>
    let s1 := pairs.foldl (fun t p =>
      match t.ftl.rootOf p.1, t.ftl.rootOf p.2 with
      | some r, some q => volumeRecord r 7 q.fenceEpoch (setRoot { r with sourceSnap := q.sourceSnap } t)
      | _, _ => t) s
    sendRecord session 6 0 (fields [(2, 0), (2, 0), (4, g.snaps.headD 0)] ++ zeros 32) s1
  | .resume session =>
    match s.repl.syncs.find? (fun y => y.source && y.session == session && y.roots.map (·.1) == g.roots) with
    | none => s
    | some y => pairs.foldl (fun t p => startTransfer session (.resume p.1) p.2 ((getKey p.1 y.checks).getD 0)
        (((t.ftl.rootOf p.1).map (·.domain)).getD 0) 0 t) (setSync y { y with made := pairs } s)
  | .migration _ root =>
    match s.repl.migrations.find? (fun m => m.root == root) with
    | none => s
    | some m => nextMigration root (setMigration { m with queue := m.queue ++ g.snaps } s)
  | .cutover session root =>
    match s.repl.migrations.find? (fun m => m.root == root) with
    | none => s
    | some m => startTransfer session (.cutover root) (g.snaps.headD 0) 0 m.domain 6 s

/-- SNAPSHOT_SETTLE: at an epoch boundary at which both heads report every fenced version durable, the snapshots take
their roots and the reply is sent (R429). -/
def execSnapshotSettle (tag : Nat) (peerReady : Bool) (s : State) : Host.Outcome State Fault Refusal :=
  match s.repl.groups.find? (fun g => g.tag == tag) with
  | none => .next s
  | some g =>
    whenDue (s.tt.now % 8 = 0 ∧ s.groupReady g = true ∧ (s.paired = true → peerReady = true))
      (afterSettle g (settleGroup g s)) s

/-! ### REPL_QUERY -/

/-- REPL_QUERY: a record for each session asked for; REPL_FRACTURED while a relation of theirs is fractured (R461). -/
def execReplQuery (b : Binding) (tag : Nat) (s : State) : Host.Outcome State Fault Refusal :=
  onPacket b tag 0x0509 (fun p s =>
    let reg := p.param 0 2
    let xs := s.repl.sessions.filter (fun x => reg == 0xFFFF || x.reg == reg)
    let ys := s.repl.syncs.filter (fun y => y.source && (reg == 0xFFFF || y.session == reg))
    if reg ≠ 0xFFFF ∧ xs = [] then badParam p 0 s
    else
      match ys.find? (·.fractured) with
      | some y => refuse p .replFractured (detailOf [(4, (y.roots.headD (0, 0)).1)]) s
      | none =>
        answered p [] (xs.flatMap (fun x => fitBytes 64 (Config.replRecord x.reg
          (match x.step with | .offered => 0 | .accepted => 1 | .proving => 2 | .isOpen => 3)
          (16000 * ((ys.filter (fun y => y.session == x.reg)).map (·.rtt)).foldl max 0)
          (s.repl.transfers.filter (fun t => t.session == x.reg)).length
          (s.repl.syncs.filter (fun y => y.session == x.reg)).length))) s) s

/-! ### The bell and the start -/

/-- What replication does at a bell. -/
def replBell (s : State) : State :=
  closeIdle (endFailed (dropHanded (serveHanded s.jobs.handed.length (checkReplicas (ackSyncs (fenceBell (volumeBell s)))))))

/-- A start: sessions, transfers and groups are gone, settling snapshots with them; synced relations are fractured; migrations
and partners stand, and wait for a session with their partner (R448). -/
def replStart (s : State) : State :=
  let r := (s.repl.sessions.filter (fun x => x.step == .isOpen)).foldl (fun r x => r.rebind x.reg (lostSession x.peer)) s.repl
  { s with
    repl := { r with
      groups := [], sessions := [], transfers := [], adoptions := [], pairing := none
      syncs := (r.syncs.filter (·.source)).map (fun y => { y with fractured := true, waiting := [], final := false, made := [] })
      migrations := r.migrations.map (fun m => { m with who := none, cutover := none }) }
    ftl := { s.ftl with roots := s.ftl.roots.filter (fun r => r.state != .settling) }
    hq := { s.hq with heldNs := [] } }

end Sys2Proof.Machine
end

