-- ==== Sys2Proof/Machine/HeadPair.lean ====
section
/-! DEFINITION. The head pair: the Corridor, roll call, arbitration, failover, moves of ANA groups, handover and the
channel of the two Prefects (R42, R43, R119, R290, R380, R467 to R492, R519 to R521, R640). -/

namespace Sys2Proof.Machine

/-! ### The Corridor (R467 to R474) -/

/-- This head leads the bell: head slot 0, or the head that serves while the other joins (R42, R491). -/
def State.leads (s : State) : Bool :=
  if s.pwr.stage == .joining then false else if s.corr.roll == .joining then true else s.sys.slot == 0

/-- BELL_SYNC is sent by the follower; its send cycle is the hardware's. -/
def sendSync (s : State) : State :=
  let c := s.free % 4000
  send (.bellSync s.day c 0) (drawn 1 { s with corr := { s.corr with syncSent := c } })

/-- A CORRIDOR event (Table 17-2). -/
def corrEvent (what : Nat) (s : State) : State := event 0xA004 25 (argOf [(0, what), (1, s.corr.lanes)]) s

/-- The link is refused and left down; it is tried again 1 s later (R469). -/
def refuseLink (state what : Nat) (s : State) : State :=
  let s1 := corrEvent what { s with corr := { s.corr with link := state, lanes := 0 } }
  { s1 with corr := { s1.corr with refusedAt := s.tt.now } }

/-- A head that joins asks for the handover: HELLO with its identity record (R491 step 2). -/
def sendHello (s : State) : State :=
  send (.hello s.trust.flash.identity) { s with corr := { s.corr with step := 1, roll := .joining } }

/-- The offerer of the pair channel (R519): the joining head, else head slot 1. -/
def State.pairOfferer (s : State) : Bool :=
  if s.pwr.stage == .joining then true else if s.corr.roll == .joining then false else s.sys.slot == 1

/-- The handshake of the pair channel starts (R519). -/
def openChannel (s : State) : State :=
  let (m, x, k) := offerOf 0 s
  let n : Session := { newSession 0 0 0 0 true .offered s.tt.now with offer := m, xPriv := x, kem := k }
  send (.prefectRecord (.handshake m)) (drawn 152 { s with
    repl := { s.repl with pairing := some n }
    trust := { s.trust with channel := none } })

/-- Messages that wait for their answers are sent again with their numbers (R471). -/
def resendAll (s : State) : State :=
  s.corr.unanswered.foldl (fun t m => tallyAdd 0x05 2 1 (transmit m.number m.body t))
    { s with corr := { s.corr with unanswered := s.corr.unanswered.map (fun m => { m with at_ := s.tt.now, resends := 0 }) } }

/-- Heads that start together exchange the marks of their images: a head whose own image is sealed sends its table as the link
comes up (R162). DESIGN CHOICE: a head without such an image sends none, as its table is not that of an available image. -/
def exchangeMarks (s : State) : State :=
  if s.pwr.stage = .starting ∧ s.stg.images ≠ [] then (markLists s.stg.marks).foldl (fun t b => send b t) s else s

/-- The training token of this head: its pool ID or zeros, its slot, and a value from Prefect's random source (R467). -/
def sendToken (s : State) : State :=
  drawn 1 (emit (.trainToken ((s.pool.map (·.id)).getD (zeros 16)) s.sys.slot (s.free % 2 ^ 64)) s)

/-- CORRIDOR_TRAIN: this head's token is sent; training ended: `own` when the head received its own random value, the peer's pool ID and slot, the
number of lanes that failed, reversal and inverted lanes (R467 to R471). Then day counts are compared, the Prefects
open their channel, a joining head asks for its handover, and heads that start exchange their marks. -/
def execCorridorTrain (own : Bool) (pool : Bytes) (slot failed : Nat) (reversed : Bool) (inverted : Nat) (s : State) :
    Host.Outcome State Fault Refusal :=
  let lanes := 32 - 8 * ceilDiv failed 8
  whenDue (s.corr.link ≤ 1 ∧ failed ≤ 32)
    (let s := sendToken s
     if own then refuseLink 4 2 s
     else if (s.pool.any (fun p => !allZero pool && p.id != pool)) ∨ slot = s.sys.slot then refuseLink 5 3 s
     else
       let c := { s.corr with reversed := reversed, inverted := inverted, lanes := lanes, fault := false, helloSeen := false, daysKnown := false }
       if lanes = 0 then corrEvent 4 { s with corr := { c with link := 0 } }
       else
         let s1 : State := { s with corr := { c with link := if lanes = 32 then 2 else 3, lastFull := s.day } }
         let s2 := resendAll (if lanes < 32 then corrEvent 4 s1 else s1)
         let s3 := if s2.leads then s2 else sendSync s2
         let s4 := if s3.pairOfferer then openChannel s3 else s3
         if s4.pwr.stage = .joining then sendHello s4 else exchangeMarks s4) s

/-- CORRIDOR_REFUSED_RETRY: 1 s after a refusal the link trains again (R469). -/
def execCorridorRefusedRetry (s : State) : Host.Outcome State Fault Refusal :=
  whenDue ((s.corr.link = 4 ∨ s.corr.link = 5) ∧ s.corr.refusedAt + secBells 1 ≤ s.tt.now)
    (tallyAdd 0x0D 3 1 { s with corr := { s.corr with link := 1, retrains := min (s.corr.retrains + 1) 65535 } }) s

/-- CORRIDOR_LINK_DOWN: the link is lost: messages wait, a retrain starts (R467, R471). -/
def execCorridorLinkDown (s : State) : Host.Outcome State Fault Refusal :=
  whenDue (s.corr.up = true)
    (tallyAdd 0x0D 3 1 (corrEvent 1 { s with corr := { s.corr with
      link := 1, retrains := min (s.corr.retrains + 1) 65535 } })) s

/-- CORRIDOR_MESSAGE_DROP: a message of a reserved family or type, as `kind` gives them, is dropped with an event; one whose
CRC32C fails, which has none, is counted, and nothing is sent for it (R143, R472). One of a type that exists is no such event. -/
def execCorridorMessageDrop (kind : Option (Nat × Nat)) (s : State) : Host.Outcome State Fault Refusal :=
  match kind with
  | none => .next (tallyAdd 0x0D 2 1 s)
  | some k => whenDue (reservedMessage k.1 k.2 = true) (corrEvent 5 s) s

/-- FORBIDDEN_PEER_MESSAGE: a message of a peer presumed down is dropped, unanswered (R640). -/
def execForbiddenPeerMessage (s : State) : Host.Outcome State Fault Refusal := .next (tallyAdd 0x0D 1 1 s)

/-- A BELL_OFFSET event: the offset in ns, signed (Table 17-2). -/
def offsetEvent (ns : Int) (s : State) : State := event 0x2004 31 ((ns % 2 ^ 32).toNat) s

/-- Day counts that differ: the lower is raised at its next day boundary, where a follower also steps its phase (R43). -/
def compareDays (day : Nat) (s : State) : State :=
  let joins := s.pwr.stage == .joining
  if day = s.day then { s with tt := { s.tt with phaseStep := s.tt.phaseStep || joins } }
  else
    let s1 := offsetEvent s.tt.offset s
    { s1 with tt := { s1.tt with
      raiseTo := if s.day < day then some (max (day + 1) ((s.tt.raiseTo).getD 0)) else s1.tt.raiseTo
      phaseStep := s1.tt.phaseStep || !s.leads } }

/-- The difference of two cycle counts of a period of 4,000, across a period's edge the shorter way. -/
def cycleDiff (a b : Int) : Int := (a - b + 2000) % 4000 - 2000

/-- The follower's period after a measurement: it trims while the offset exceeds 250 ns and returns to 4,000 cycles once it is
below; at 250 ns it goes on as it was (R42). -/
def trimAfter (was : Nat) (ns : Int) : Nat :=
  if 250 < ns then 3999 else if ns < -250 then 4001 else if ns = 250 ∨ ns = -250 then was else 4000

/-- BELL_SYNC: the leader echoes it with its own cycles; the follower takes half the difference of the two one-way
differences as its offset, and trims while both heads are in service (R42, R474). `here` is the cycle of receipt. With it the heads
have exchanged their day counts (R43). -/
def execBellSync (day sendCycle echoed here : Nat) (s : State) : Host.Outcome State Fault Refusal :=
  onWord (.bellSync day sendCycle echoed) (fun s0 =>
    let s : State := { s0 with corr := { s0.corr with daysKnown := true } }
    if s.leads then send (.bellSync s.day (here % 4000) (here % 4000)) (compareDays day s)
    else
      let ns : Int := 4 * (cycleDiff echoed s.corr.syncSent - cycleDiff here sendCycle) / 2
      let s1 : State := { s with tt := { s.tt with
        offset := ns
        cycles := if s.paired then trimAfter s.tt.cycles ns else 4000 } }
      compareDays day (if 1000 < ns ∨ ns < -1000 then offsetEvent ns s1 else s1)) s

/-! ### Arbitration (R480 to R485) -/

/-- The value of BRG_WITNESS that claims a round (R414). -/
def State.claim (s : State) : Nat := 2 ^ 59 + 2 ^ 58 * s.sys.slot + s.corr.round % 2 ^ 58

/-- A CompareAndSwap on the witness of a bay, from the value last known of it. -/
def postCas (bay new : Nat) (s : State) : State :=
  let old := (s.bay.bayOf bay).witness
  emit (.witnessCas bay old new) { s with corr := { s.corr with
    cas := s.corr.cas.filter (fun x => x.1 != bay) ++ [(bay, (old, new))] } }

/-- The members that can be reached. -/
def State.reached (s : State) : List Nat := (s.ec.members.map (·.bay)).filter (fun b => (s.bay.bayOf b).linkUp)

/-- An arbitration round starts at this bell: a CAS on the witness of every member in reach (R480). -/
def startRound (s : State) : State :=
  let s1 : State := { s with corr := { s.corr with
    round := s.tt.now, running := true, repeated := [], learned := [], cas := [] } }
  s1.reached.foldl (fun t b => postCas b s1.claim t) s1

/-- WITNESS_CAS_COMPLETE: the register held `old`. A CAS that failed on an unclaimed register or an older round is posted
once more (R480). -/
def execWitnessCasComplete (bay old : Nat) (s : State) : Host.Outcome State Fault Refusal :=
  match s.corr.cas.find? (fun x => x.1 == bay) with
  | none => .next s
  | some (_, expected, new) =>
    let won := old == expected
    let s1 := setBay bay { s.bay.bayOf bay with witness := if won then new else old } { s with corr := { s.corr with
      cas := s.corr.cas.filter (fun x => x.1 != bay) } }
    let again := !won && new == s.claim && s.corr.running && !s.corr.repeated.contains bay &&
      (!bitAt 59 old || old % 2 ^ 58 < s.corr.round)
    if again then .next (postCas bay s.claim { s1 with corr := { s1.corr with repeated := s1.corr.repeated ++ [bay] } })
    else if new = s.claim ∧ s.corr.round ≠ 0 then .next { s1 with corr := { s1.corr with
      learned := if s1.corr.learned.contains bay then s1.corr.learned else s1.corr.learned ++ [bay] } }
    else .next s1

/-- The witnesses this head holds, those the peer holds, and those of which nothing is known (R481). -/
def State.witnesses (s : State) : Nat × Nat × Nat :=
  let bays := s.ec.members.map (·.bay)
  let known := bays.filter (fun b => s.corr.learned.contains b)
  let peers := 2 ^ 59 + 2 ^ 58 * (1 - s.sys.slot) + s.corr.round % 2 ^ 58
  ((known.filter (fun b => (s.bay.bayOf b).witness == s.claim)).length,
   (known.filter (fun b => (s.bay.bayOf b).witness == peers)).length, bays.length - known.length)

/-- A head of a slot with a count of witnesses out of M continues (R481). -/
def meets (slot held m : Nat) : Bool := m < 2 * held || (2 * held == m && slot == 0)

/-- ARBITRATION_COUNT: at the first bell after the start of the round. A head that continues fences the peer's forms and
takes the pair; an undecided head that continues leaves Self-fenced without handover (R481, R482, R484). -/
def execArbitrationCount (s : State) : Host.Outcome State Fault Refusal :=
  whenDue (s.corr.running = true ∧ s.corr.round < s.tt.now)
    (let (held, peer, unknown) := s.witnesses
     let m := s.ec.members.length
     let outcome := if meets s.sys.slot held m then 1 else if meets (1 - s.sys.slot) (peer + unknown) m then 2 else 3
     let s1 := event 0xA003 25 (argOf [(0, held), (1, m), (2, outcome)]) { s with corr := { s.corr with
       running := false, outcome := outcome, held := held, members := m } }
     if outcome = 1 then presumeDown false { s1 with corr := { s1.corr with roll := .inService } }
     else if s1.corr.roll = .selfFenced then s1 else selfFence s1) s

/-- ARBITRATION_RETRY: an undecided head starts a new round at period 0512 of every later day (R484). -/
def execArbitrationRetry (s : State) : Host.Outcome State Fault Refusal :=
  whenDue (s.corr.roll = .selfFenced ∧ s.corr.outcome = 3 ∧ s.corr.running = false ∧ s.period = 512 ∧
      s.corr.round / 1024 < s.day)
    (startRound s) s

/-! ### Roll call (R475 to R479) -/

/-- A head that fenced itself gives up what only its service needed and asks to join (R483, R491). -/
def rejoin (s : State) : State :=
  let s1 : State := { s with
    pwr := { s.pwr with stage := .joining }
    stg := { s.stg with versions := [], entries := [], marks := [], peerMarks := [], admitted := 0, credit := 0 }
    ftl := { s.ftl with tail := [], mirror := [], after := [], unacked := [] }
    ddp := { s.ddp with inflight := [], queue := [], blocked := [], comparing := [], indexing := [], deltas := [] }
    jobs := { s.jobs with destages := [], reads := [] }
    bay := { s.bay with waiting := [], fences := [], halted := [] }
    corr := { s.corr with unanswered := [], answered := [] }
    tt := { s.tt with degraded := [⟨1, 1 - s.sys.slot, 0⟩], switches := [], cycles := 4000 } }
  rollTo .joining 3 (sendHello (putSheet ⟨1, 1 - s.sys.slot, 0⟩ s1))

/-- HEARTBEAT: in time for its day, and with the day counts exchanged since the last training (R43), it resets the count of misses; a peer that is Self-fenced is presumed down, and one
that presumes this head down makes it fence itself; two heads that have started apart are each other's peer from their
first heartbeats on (R475 to R479, R485). A self-fenced head that no round leaves
undecided then joins; a released head does not. -/
def execHeartbeat (day term sheet state dirtyMib degradations : Nat) (s : State) : Host.Outcome State Fault Refusal :=
  onWord (.heartbeat day term sheet state dirtyMib degradations) (fun s =>
    let s1 : State := { s with corr := { s.corr with lastBeat := s.tt.now } }
    let s2 := if day = s.day ∧ s.period < 512 ∧ s.corr.daysKnown = true then { s1 with corr := { s1.corr with beatDay := day, misses := 0 } } else s1
    if state = 2 then
      (if s2.corr.roll = .inService ∧ s2.corr.running = false then presumeDown false s2 else s2)
    else if s2.corr.roll = .noPeer ∧ (state = 0 ∨ state = 4) ∧ s2.pool.isSome ∧ s2.pwr.stage ≠ .joining then
      rollTo .inService 0 s2
    else if state = 1 ∧ s2.pwr.stage ≠ .joining then
      (if s2.corr.roll = .inService ∨ s2.corr.roll = .joining ∨ (s2.corr.roll = .noPeer ∧ s2.pool.isSome) then selfFence s2
       else if s2.corr.roll = .selfFenced ∧ s2.corr.outcome ≠ 3 ∧ s2.corr.released = false ∧ s2.pwr.stage = .service then rejoin s2
       else s2)
    else s2) s

/-- The pool names a head in the other slot. -/
def State.hasPeer (s : State) : Bool := s.pool.any (fun p => (p.heads.getD (1 - s.sys.slot) ⟨0, false, [], 0⟩).bound)

/-- HEARTBEAT_MISSED: no heartbeat for day D by the bell of D:0512; the third miss in a row starts an arbitration round
and holds the commands of the peer's groups; a joining head whose survivor is lost fences itself (R475, R476, R486,
R492). -/
def execHeartbeatMissed (s : State) : Host.Outcome State Fault Refusal :=
  whenDue (s.period = 512 ∧ s.corr.beatDay ≠ s.day ∧ s.corr.missDay ≠ some s.day ∧ s.corr.misses < 3 ∧
      (s.corr.roll = .inService ∨ s.corr.roll = .joining ∨ (s.corr.roll = .noPeer ∧ s.pwr.stage = .service ∧ s.hasPeer = true)))
    (let n := s.corr.misses + 1
     let s1 := event 0xA001 25 n { s with corr := { s.corr with misses := n, missDay := some s.day } }
     if n < 3 then s1
     else if s1.pwr.stage = .joining then selfFence s1
     else if s1.corr.roll = .joining then rollTo .presumedDown 1 { s1 with corr := { s1.corr with step := 0, helloSeen := false } }
     else startRound { s1 with hq := { s1.hq with held := (s1.hq.held ++ s1.peerGroups).eraseDups } }) s

/-- RELEASE_NOTICE: the peer has released itself: it is presumed down (R477, R490). -/
def execReleaseNotice (time : Nat) (s : State) : Host.Outcome State Fault Refusal :=
  onWord (.releaseNotice time) (presumeDown false) s

/-- BLP_STATUS_COMPLETE: after a fence report the record says who holds the form. The other port, with an epoch this head
did not write: the head fences itself, with a ROLL_CALL event. This head's port: the operations go out again under that
epoch. No owner: the form is fenced anew (R413, R478). -/
def execBlpStatusComplete (d : BlpDone) (record : Bytes) (s : State) : Host.Outcome State Fault Refusal :=
  onDone d 6 (fun op s =>
    match op.use with
    | .diag .. => endDiag (fitBytes 32 record) [] op s
    | .statusOf f =>
      if d.status ≠ 0 then s
      else
        let port := fieldAt record 2 1
        let epoch := fieldAt record 8 8
        let free := { s with bay := { s.bay with halted := s.bay.halted.filter (· != f) } }
        if port = s.sys.slot then
          { free with bay := { free.bay with
            fences := putKey f epoch free.bay.fences
            waiting := free.bay.waiting.map (fun o => if free.formAt o.bay o.die == some f && o.opcode != 9 then { o with fence := epoch } else o) } }
        else if port = 1 - s.sys.slot then
          (if getKey f s.bay.fences = some epoch then s else selfFence s)
        else fenceForms [f] { free with bay := { free.bay with fences := delKey f free.bay.fences } }
    | _ => s) s

/-! ### Failover (R486 to R489) -/

/-- The peer's blocks whose marks this head does not hold go, and with them the contexts that stood for its commands
(R487, R488). -/
def dropUnmarked (s : State) : State :=
  let s1 := (s.hq.ctxs.filter (·.forPeer)).foldl (fun t x => unpin (dropCtx x t)) s
  let s2 := freeVersions { s1 with stg := { s1.stg with
    versions := s1.stg.versions.filter (fun v => v.staged || v.origin == s.sys.slot) } }
  wakeReads s2

/-- The survivor takes the peer's half of the index: its records, and as delta the changes in the peer's journal tail; the
filter is rebuilt for that half (R184, R187). -/
def takeHalf (s : State) : State :=
  let changes := s.ftl.mirror.filterMap (fun r => match r.body with
    | .indexChange a d f c => some (⟨a, ⟨d, f, c, false⟩, false⟩ : DeltaRec)
    | _ => none)
  { s with ddp := { s.ddp with
    index := s.ddp.index ++ s.ddp.peerHalf.filter (fun r => !changes.any (fun c => c.action == 1 && c.r.same r))
    peerHalf := []
    delta := s.ddp.delta ++ changes
    fstate := if s.ddp.fstate = 0 then 0 else 1
    rebuilt := 0
    half := some (1 - s.sys.slot) } }

/-- A body of RESOLVE. -/
def resolveBody : CorrBody → Option Resolution
  | .resolve d v w g f => some ⟨g, false, d, f, v, w, 0, 0, [], 0, false⟩
  | _ => none

/-- The fingerprints that the peer was to resolve are resolved here, and what this head resolved for the peer's destages is
dropped: entries made for a grain of the peer that never got a slot go, and this head's grains that waited on them are
resolved again (R174, R305). -/
def takeResolutions (s : State) : State :=
  let asked := (s.corr.unanswered.filterMap (fun m => resolveBody m.body)).filterMap (fun r =>
    (s.jobs.destages.find? (fun d => d.job == r.grain)).map (fun d => { r with x := d.content, wcid := d.wcid, at_ := s.tt.now }))
  let keep := fun (l : List Resolution) => l.filter (fun r => !r.peer)
  let dead := fun (e : Inflight) => e.cid != 0 && !s.jobs.destages.any (fun d => d.cid == e.cid || d.wcid == e.cid) &&
    (s.ftl.ctRec e.cid).any (fun r => r.psa == 0)
  let gone := s.ddp.inflight.filter dead
  let s1 : State := { s with ddp := { s.ddp with
    inflight := (s.ddp.inflight.filter (fun e => !dead e)).map (fun e => { e with waiters := keep e.waiters })
    queue := keep s.ddp.queue ++ gone.flatMap (fun e => keep e.waiters) ++ asked
    blocked := keep s.ddp.blocked
    indexing := s.ddp.indexing.filter (fun p => !p.1.peer)
    comparing := s.ddp.comparing.filter (fun p => !p.2.1.peer) } }
  gone.foldl (fun t e => reclaim e.cid 3 t) s1

/-- Changes of counts that the peer had not acknowledged are made here, unless its journal shows that it made them
(R176). -/
def takeDeltas (s : State) : State :=
  let sent := s.corr.unanswered.filterMap (fun m => match m.body with
    | .refDelta l => if s.ftl.mirror.any (fun r => r.body == .refDelta l) then none else some l
    | _ => none)
  (sent.flatMap id ++ s.ddp.deltas).foldl (fun t p => addRef p.1 p.2 t) { s with ddp := { s.ddp with deltas := [] } }

/-- FAILOVER_REPLAY: under the Peer-absent sheet: what only the peer's answers held back goes on, the peer's unmarked
blocks go, its records take effect, its half, CIDs and image are this head's, its open stripes are closed, and snapshot groups are cut
again (R141, R305, R346, R387, R430, R486 step 5, R487). Its records were applied as they came (R304). -/
def execFailoverReplay (s : State) : Host.Outcome State Fault Refusal :=
  whenDue (s.corr.roll = .presumedDown ∧ s.peerAbsent = true ∧ s.corr.failover = 0)
    (let s1 := closeTorn (1 - s.sys.slot) (takeHalf (takeDeltas (takeResolutions (dropUnmarked (answersGone s)))))
     let s2 := cutAgain { s1 with
       ftl := { s1.ftl with unacked := [] }
       hq := { s1.hq with fsnWaits := [], queues := s1.hq.queues.map (fun q => { q with asked := none }) }
       corr := { s1.corr with failover := 1, unanswered := [] } }
     match s2.corr.peerImage with
     | none => advanceDurable s2
     | some id => advanceDurable (retireImages (1 - s2.sys.slot) id { s2 with corr := { s2.corr with peerImage := none } })) s

/-- Reads of groups that this head owns now and that the old owner was to serve are bound here (R488). -/
def bindTaken (groups : List Nat) (s : State) : State :=
  let mine := fun (x : Ctx) => !x.forPeer && x.state == .fetched && x.reads == [] && readsData x.cap &&
    (s.ftl.ofNsid x.cap.nsid).any (fun r => groups.contains r.ana)
  noteReaders ((s.hq.ctxs.filter mine).foldl (fun t x => setCtx (bindReads x t) t) s)

/-- The owner of a group changes: the event and the ANA Change notice (R119). -/
def putOwner (group owner : Nat) (s : State) : State :=
  notifyAll 2 3 0x0C (event 0x3002 9 (argOf [(0, group), (2, owner)]) { s with hq := { s.hq with
    owners := putKey group owner s.hq.owners
    held := s.hq.held.filter (· != group)
    moving := s.hq.moving.filter (fun m => m.1 != group) } })

/-- The highest fetch sequence number this head holds of a namespace. -/
def State.highestSeq (s : State) (nsid : Nat) : Nat :=
  ((s.stg.versions.filter (fun v => v.vol == nsid)).map (·.seq) ++ (s.stg.marks.filter (fun m => m.volume == nsid)).map (·.seq) ++
    (s.hq.ctxs.filter (fun x => x.cap.nsid == nsid)).map (·.seq) ++
    s.ftl.mirror.filterMap (fun r => match r.body with
      | .mapSet t _ _ _ n => if (s.ftl.ofNsid nsid).any (fun q => q.id == t) then some n else none
      | _ => none)).foldl max 0

/-- The namespaces of a group. -/
def State.groupNs (s : State) (group : Nat) : List Nat :=
  ((s.ftl.roots.filter (fun r => r.nsid != 0 && r.ana == group)).map (·.nsid)).eraseDups

/-- FAILOVER_TAKEOVER: after the replay the survivor takes the peer's groups, each number 2^32 above the highest it holds,
and the held commands go on (R486 step 6, R488). An activation that paused goes on (R527). -/
def execFailoverTakeover (s : State) : Host.Outcome State Fault Refusal :=
  whenDue (s.corr.roll = .presumedDown ∧ s.corr.failover = 1)
    (let groups := s.peerGroups
     let s1 : State := { s with
       hq := { s.hq with fsn := (groups.flatMap s.groupNs).foldl (fun l n => putKey n (s.highestSeq n + 2 ^ 32) l) s.hq.fsn }
       corr := { s.corr with failover := 2, taken := groups } }
     resumeActivation (bindTaken groups (groups.foldl (fun t g => putOwner g s.sys.slot t) s1))) s

/-! ### Moves of ANA groups (R119, R290) -/

/-- A group begins to move: its commands are held, and it moves at the next epoch boundary (R119, R290). -/
def beginMove (group owner : Nat) (s : State) : State :=
  if s.hq.moving.any (fun m => m.1 == group) then s
  else { s with hq := { s.hq with moving := s.hq.moving ++ [(group, (owner, s.epoch + 1))] } }

/-- Commands of a group that are fetched and not answered, or a destage of it, hold its move back. -/
def State.groupBusy (s : State) (group : Nat) : Bool :=
  let ns := s.groupNs group
  s.hq.ctxs.any (fun x => ns.contains x.cap.nsid) || s.jobs.destages.any (fun d => ns.contains d.vol)

/-- The message that moves a group. -/
def State.moveMessage (s : State) (m : Nat × (Nat × Nat)) : CorrBody :=
  .anaMove m.1 m.2.1 m.2.2 ((s.groupNs m.1).map (fun n => (n, s.hq.nextFsn n)))

/-- ANA_OWNERSHIP_MOVE: the epoch boundary of a move has come and nothing of the group is under way: ANA_MOVE carries its
numbers to the new owner (R119, R290). -/
def execAnaOwnershipMove (group : Nat) (s : State) : Host.Outcome State Fault Refusal :=
  match s.hq.moving.find? (fun m => m.1 == group) with
  | none => .next s
  | some m =>
    let sent := s.corr.unanswered.any (fun x => match x.body with | .anaMove g .. => g == group | _ => false)
    whenDue (m.2.2 ≤ s.epoch ∧ s.groupBusy group = false ∧ s.ownsGroup group = true ∧ sent = false ∧ s.paired = true)
      (send (s.moveMessage m) s) s

/-- The packets that asked for a group to move are answered. -/
def answerMoves (group : Nat) (s : State) : State :=
  (s.cpi.accepted.filter (fun p => p.opcode == 0x0305 && p.param 0 2 == group)).foldl (fun t p => changed p [] t) s

/-- ANA_MOVE: the new owner takes the group and its numbers and answers; the old owner has its answer (R119, R290). -/
def execAnaMove (number group owner boundary : Nat) (next : List (Nat × Nat)) (s : State) : Host.Outcome State Fault Refusal :=
  onMessage number (.anaMove group owner boundary next) (fun s =>
    match s.corr.answerOf (fun b => b == .anaMove group owner boundary next) with
    | some m =>
      let s1 := settleNumber m.number s
      answerMoves group (putOwner group owner { s1 with hq := { s1.hq with
        fsn := s1.hq.fsn.filter (fun p => !(next.map (·.1)).contains p.1) } })
    | none =>
      let s1 : State := { s with hq := { s.hq with fsn := next.foldl (fun l p => putKey p.1 p.2 l) s.hq.fsn } }
      reply number (.anaMove group owner boundary next) (answerMoves group (bindTaken [group] (putOwner group owner s1)))) s

/-- ANA_MOVE_GROUP: a group moves to a head by request; the reply follows the move. A head that is not in service takes
none (R119). -/
def execAnaMoveGroup (b : Binding) (tag : Nat) (s : State) : Host.Outcome State Fault Refusal :=
  onPacket b tag 0x0305 (fun p s =>
    let g := p.param 0 2
    let to_ := p.param 2 1
    if s.ownsGroup g = (to_ == s.sys.slot) then changed p [] s
    else if ¬ s.paired then badParam p 2 s
    else if s.ownsGroup g then beginMove g to_ s
    else
      let n := s.corr.nextNumber
      settleNumber n (send (.forward p.opcode p.cls p.params p.payload) s)) s

/-! ### Superblock changes (R380) -/

/-- SB_CHANGE: the writer takes the other head's change and writes it, a checkpoint's as an anchor write; the same message
answers (R380). -/
def execSbChange (number offset : Nat) (bytes : Bytes) (s : State) : Host.Outcome State Fault Refusal :=
  onMessage number (.sbChange offset bytes) (fun s =>
    match s.corr.answerOf (fun b => b == .sbChange offset bytes) with
    | some m => settleNumber m.number s
    | none =>
      let have_ := match s.pool with
        | none => zeros 16384
        | some p => superblockBytes p s.ec.members s.sys.slot 1 (s.systemKey 0x11 0)
      let g := (s.pool.map (·.generation)).getD 0
      let s1 := takeSuperblock (lay have_ offset bytes) s
      let s2 : State := { s1 with pool := s1.pool.map (fun p => { p with generation := max g p.generation }) }
      reply number (.sbChange offset bytes) (if offset = 0x48 then anchorWrite s2 else configWrite s2)) s

/-! ### Handover (R490 to R492) -/

/-- A head slot record names a new head: a configuration write (R380, R491 step 2). -/
def bindHead (slot chip : Nat) (digest : Bytes) (s : State) : State :=
  configWrite { s with pool := s.pool.map (fun p => { p with heads := setAt slot ⟨chip, true, digest, s.tt.now⟩ p.heads }) }

/-- The digest by which a head is known in its slot, by the slot record or by HEAD_ADOPT (R491, R519). -/
def State.knows (s : State) (slot : Nat) (digest : Bytes) : Bool :=
  match s.pool with
  | none => true
  | some p =>
    s.corr.adopt == some digest || (p.heads.getD slot ⟨0, false, [], 0⟩).digest == digest ||
    !(p.heads.getD slot ⟨0, false, [], 0⟩).bound

/-- HELLO: the survivor verifies the joiner's identity record and its digest, binds a replacement that HEAD_ADOPT has named,
and answers with its own; the joiner verifies the survivor's. A joiner not accepted gets no answer (R491 step 2). -/
def execHello (number : Nat) (record : Bytes) (s : State) : Host.Outcome State Fault Refusal :=
  onMessage number (.hello record) (fun s =>
    let d := identityDigest record
    let ok := s.trust.identityOk record
    if s.pwr.stage = .joining then
      match s.corr.answerOf (fun b => match b with | .hello _ => true | _ => false) with
      | none => s
      | some m =>
        if ok && s.knows (1 - s.sys.slot) d then
          settleNumber m.number { s with corr := { s.corr with step := max 2 s.corr.step } }
        else s
    else
      let s1 : State := { s with corr := { s.corr with helloSeen := true } }
      if !ok || !s.knows (1 - s.sys.slot) d || s.pwr.stage != .service then
        { s1 with corr := { s1.corr with step := max 1 s1.corr.step } }
      else
        let old := (s.pool.map (fun p => p.heads.getD (1 - s.sys.slot) ⟨0, false, [], 0⟩)).any (fun h => h.digest == d && h.bound)
        let s2 := if old then s1 else bindHead (1 - s.sys.slot) ((s.pool.map (fun p => (p.heads.getD (1 - s.sys.slot) ⟨1 - s.sys.slot, false, [], 0⟩).chip)).getD (1 - s.sys.slot)) d s1
        reply number (.hello s.trust.flash.identity)
          (rollTo .joining 3 { s2 with corr := { s2.corr with step := max 2 s2.corr.step, misses := 0, beatDay := s.day } })) s

/-- The flags of MIRROR_DATA for a version (Table 4-5). -/
def Ver.mirrorFlags (v : Ver) : Nat := flagBit v.zeros + 2 * flagBit v.dealloc + 4 * flagBit v.hasPi + 8 * flagBit v.noBuffer

/-- The version lengthens a message: the next block of the same write with the same flags, at most 32 blocks (Table 4-5). -/
def Ver.extends (v : Ver) : CorrBody → Bool
  | .mirrorData vol count flags seq lba _ _ =>
    vol == v.vol && seq == v.seq && flags == v.mirrorFlags && lba + count == 4 * v.grain + v.quarter && count < 32
  | _ => false

/-- The bytes of a version in a message: none of a zeroed or deallocated one (Table 4-5). -/
def Ver.sentBytes (v : Ver) : Bytes := if v.zeros || v.dealloc then [] else v.bytes

/-- A version more in a list of messages, the newest first. -/
def addCopy (l : List CorrBody) (v : Ver) : List CorrBody :=
  let one : CorrBody := .mirrorData v.vol 1 v.mirrorFlags v.seq (4 * v.grain + v.quarter) v.sentBytes v.pi
  match l with
  | .mirrorData vol count flags seq lba blocks pi :: r =>
    if v.extends (.mirrorData vol count flags seq lba blocks pi) then
      .mirrorData vol (count + 1) flags seq lba (blocks ++ v.sentBytes) (pi ++ v.pi) :: r
    else one :: l
  | _ => one :: l

/-- The survivor's copy for the joiner: every version not released, in runs of blocks, the journal tail, then the marks (R491
step 6). -/
def sendCopy (s : State) : State :=
  let vs := s.stg.versions.filter (fun v => !v.released && !v.lost)
  let s1 := (vs.foldl addCopy []).reverse.foldl (fun t b => send b t) s
  (markLists s.stg.marks).foldl (fun t b => send b t) (send (.journal s.ftl.tail) s1)

/-- The position of the newest record of a journal: epoch, head, sequence. -/
def lastPosition (l : List JRec) : Nat × Nat × Nat := ((l.getLast?).map (fun r => (r.epoch, (r.head, r.seq)))).getD (0, (0, 0))

/-- What a handover does at a bell, on the survivor: root key and locker table once the Prefects' channel stands; at the
next day boundary the images; from the boundary after the joiner's verdict the copy. On the joiner: the phase step, and
RESYNC_DONE once the copy is here. At the switch to the primary sheet the handover ends (R491). -/
def handoverBell (s : State) : State :=
  if s.corr.roll ≠ .joining then s
  else if s.pwr.stage = .joining then
    (if s.corr.step = 3 ∧ s.period = 0 then { s with corr := { s.corr with step := 4 } }
     else if s.corr.step = 6 then
      let p := lastPosition s.ftl.mirror
      send (.resyncDone ((s.corr.answered.map (·.1)).foldl max 0) p.1 p.2.1 p.2.2) { s with corr := { s.corr with step := 7 } }
     else if s.corr.step = 7 ∧ s.tt.sheetOf.kind = 0 then
      rollTo .inService 0 { s with
        pwr := { s.pwr with stage := .service }
        corr := { s.corr with step := 9, adopt := none, misses := 0, beatDay := s.day } }
     else s)
  else if s.corr.step = 2 ∧ s.trust.channel.isSome then
    send (.prefectRecord (.rootKey s.trust.rootPool s.rootKey s.lockerTable)) { s with corr := { s.corr with step := 3 } }
  else if s.corr.step = 4 ∧ s.period = 0 then
    let s1 : State := { s with corr := { s.corr with step := 5 } }
    let s2 := (s1.tt.active.toList).foldl (fun t i => sendImage i t) s1
    if s2.tt.load = .armed then (s2.tt.pending.toList).foldl (fun t i => sendImage i t) s2 else s2
  else if s.corr.step = 6 ∧ s.corr.joinDay ≤ s.day ∧ s.period = 0 then
    sendCopy { s with corr := { s.corr with step := 7 } }
  else if s.corr.step = 8 ∧ s.tt.sheetOf.kind = 0 then
    let s1 := rollTo .inService 0 { s with corr := { s.corr with
      step := 9, adopt := none, misses := 0, beatDay := s.day, taken := [], failover := 0 } }
    s.corr.taken.foldl (fun t g => beginMove g (1 - s.sys.slot) t) s1
  else s

/-- The end of a handover's last step: once no group moves any more, head slot 0 sets every witness to 0 (R491). -/
def handoverEnds (s : State) : State :=
  if s.corr.step = 9 ∧ s.hq.moving = [] then
    let s1 : State := { s with corr := { s.corr with step := 0 } }
    if s.sys.slot = 0 then s1.reached.foldl (fun t b => postCas b 0 t) s1 else s1
  else s

/-- RESYNC_DONE: the joiner has the copy: the return of the Peer-absent degradation is announced, and both heads switch to
the primary sheet (R81, R491 steps 6 and 7). -/
def execResyncDone (lastNumber epoch head seq : Nat) (s : State) : Host.Outcome State Fault Refusal :=
  onWord (.resyncDone lastNumber epoch head seq) (fun s =>
    if s.corr.roll = .joining ∧ s.corr.step = 7 ∧ s.pwr.stage = .service then
      trigger false 1 0 { s with corr := { s.corr with step := 8 } }
    else s) s

/-- HEAD_ADOPT: a replacement head is accepted by its identity digest; a second one during a handover, and one while the
handover of a known head is under way, are refused (R491). -/
def execHeadAdopt (b : Binding) (tag : Nat) (s : State) : Host.Outcome State Fault Refusal :=
  onPacket b tag 0x0510 (fun p s =>
    if s.corr.adopt.isSome then refuse p .handoverBusy noDetail s
    else if s.corr.roll = .joining ∧ 2 ≤ s.corr.step then refuse p .peerPresent noDetail s
    else changed p [] { s with corr := { s.corr with adopt := some (slice p.params 0 32) } }) s

/-- HEAD_RELEASE: this head's groups move to the peer; it releases itself when they are gone and nothing is under way
(R490). -/
def execHeadRelease (b : Binding) (tag : Nat) (s : State) : Host.Outcome State Fault Refusal :=
  onPacket b tag 0x0511 (fun p s =>
    if ¬ s.paired ∨ s.corr.step ≠ 0 ∨ s.corr.releasing.isSome = true then refuse p .peerPresent noDetail s
    else
      let mine := ((s.ftl.roots.filter (fun r => r.nsid != 0 && s.ownsGroup r.ana)).map (·.ana)).eraseDups
      mine.foldl (fun t g => beginMove g (1 - s.sys.slot) t) { s with corr := { s.corr with releasing := some (b, tag) } }) s

/-- At a bell a head with a release under way and nothing left to do sends RELEASE_NOTICE; once the peer has switched to the
Peer-absent sheet, at the first day boundary at least 2 periods on, it fences itself (R81, R490). -/
def releaseBell (s : State) : State :=
  match s.corr.releasing with
  | none => if s.corr.released ∧ s.corr.releaseDay ≤ s.day ∧ s.corr.roll ≠ .selfFenced then selfFence s else s
  | some (b, tag) =>
    if s.hq.moving ≠ [] ∨ s.hq.ctxs ≠ [] ∨ s.jobs.destages ≠ [] then s
    else
      let s1 := send (.releaseNotice s.tt.now) { s with corr := { s.corr with releasing := none, released := true, releaseDay := s.switchDay } }
      match s1.cpi.packet b tag 0x0511 with
      | none => s1
      | some p => changed p [] s1

/-! ### The channel of the Prefects (R519 to R521) -/

/-- The channel stands: its secret, whose key closes every later record. Records that waited for it go out under that key. -/
def standChannel (x : Session) (record : Bytes) (s : State) : State :=
  let s1 : State := { s with
    repl := { s.repl with pairing := none }
    trust := { s.trust with channel := some ⟨x.secret, identityDigest record, 0, 0⟩ } }
  let waits := fun (b : CorrBody) => match b with
    | .prefectRecord (.handshake _) => false
    | b => isPrefect b
  (s1.corr.unanswered.filter (fun m => waits m.body)).foldl (fun t m => transmit m.number m.body t) s1

/-- The pair version of the running Prefect image, and the oldest it accepts, go to the peer's Prefect (R528). -/
def tellVersion (s : State) : State := send (.prefectRecord (.version s.trust.pairVersion s.trust.oldestPair)) s

/-- A PROVE of the pair channel is refused: by R446, or because the digest is not the peer's (R519). -/
def pairRefused (x : Session) (m : Bytes) (s : State) : Bool :=
  (proveRefusal m x.hash (if x.offerer then "BIRCA-PP-A" else "BIRCA-PP-O") s).isSome ||
  !s.knows (1 - s.sys.slot) (identityDigest (proveRecord m))

/-- A handshake message of the pair channel (R444 to R446, R519); a check that fails ends the handshake. -/
def pairHandshake (number : Nat) (m : Bytes) (s : State) : State :=
  let settle := fun (t : State) =>
    match t.corr.answerOf (fun b => match b with | .prefectRecord (.handshake _) => true | _ => false) with
    | none => t
    | some w => settleNumber w.number t
  let fail := fun (t : State) => { t with repl := { t.repl with pairing := none } }
  let type := fieldAt m 4 1
  if type = 1 then
    match acceptOf "BIRCA-PAIR" m s with
    | none => fail s
    | some (a, h, k) =>
      let n : Session := { newSession 0 0 0 0 false .accepted s.tt.now with offer := m, accept := a, hash := h, secret := k }
      reply number (.prefectRecord (.handshake a)) (drawn 120 { s with
        repl := { s.repl with pairing := some n }
        trust := { s.trust with channel := none } })
  else
    match s.repl.pairing with
    | none => s
    | some x =>
      if type = 2 ∧ x.offerer ∧ x.step = .offered then
        match acceptedOf "BIRCA-PAIR" x.offer x.xPriv x.kem m with
        | none => fail (settle s)
        | some (h, k) =>
          send (.prefectRecord (.handshake (proveOf h "BIRCA-PP-O" s))) (settle { s with repl := { s.repl with
            pairing := some { x with accept := m, hash := h, secret := k, xPriv := [], kem := [], step := .proving } } })
      else if type = 3 ∧ x.offerer ∧ x.step = .proving then
        (if pairRefused x m s then fail (settle s) else tellVersion (standChannel x (proveRecord m) (settle s)))
      else if type = 3 ∧ !x.offerer ∧ x.step = .accepted then
        (if pairRefused x m s then fail s
         else tellVersion (reply number (.prefectRecord (.handshake (proveOf x.hash "BIRCA-PP-A" s)))
           (standChannel x (proveRecord m) s)))
      else s

/-- A record of the peer's Prefect takes effect (R234, R439, R520, R521, R528). -/
def takeRecord (r : PairRecord) (s : State) : State :=
  match r with
  | .handshake _ => s
  | .rootKey id key table =>
    let s1 := takeLockers table { s with trust := { s.trust with rootKey := some (fitBytes 32 key), rootPool := fitBytes 16 id } }
    let s2 := extendMr 4 (fitBytes 16 id ++ [4]) s1
    { s2 with corr := { s2.corr with step := if s2.pwr.stage = .joining then max 3 s2.corr.step else s2.corr.step } }
  | .locker d e => setLocker d (lockerOf (s.ciph.locker d) e) s
  | .sealEntry root t fence pool =>
    { s with trust := { s.trust with seals := s.trust.seals.filter (fun x => !(x.root == root && x.pool == pool)) ++ [⟨root, t, fence, pool⟩] } }
  | .version v o => { s with trust := { s.trust with peerVersion := v, peerOldest := o } }
  | .closed .. => s
  | .pause => { s with trust := { s.trust with peerPaused := true } }
  | .resume => { s with trust := { s.trust with peerPaused := false } }

/-- The answer to the survivor's root key moves its handover on (R491 step 3). -/
def recordAnswered (r : PairRecord) (s : State) : State :=
  match r with
  | .rootKey .. => { s with corr := { s.corr with step := if s.corr.roll = .joining ∧ s.corr.step = 3 then 4 else s.corr.step } }
  | _ => s

/-- PREFECT_RECORD: a handshake message of the channel, or a record on it; the same record answers (R519 to R521). `record` is what the
message opens to under the key of the channel; one that does not open is no record. -/
def execPrefectRecord (number : Nat) (record : PairRecord) (s : State) : Host.Outcome State Fault Refusal :=
  onMessage number (.prefectRecord record) (fun s =>
    match record with
    | .handshake m => pairHandshake number m s
    | r =>
      match s.corr.answerOf (fun b => b == .prefectRecord r) with
      | some w => recordAnswered r (settleNumber w.number s)
      | none =>
        if s.trust.channel.isNone then s
        else
          let s1 := takeRecord r { s with trust := { s.trust with
            channel := s.trust.channel.map (fun c => { c with received := c.received + 1 }) } }
          let s2 := reply number (.prefectRecord r) s1
          match r with
          | .resume => resendAll s2
          | _ => s2) s

end Sys2Proof.Machine
end

