-- ==== Sys2Proof/Machine/SysPool.lean ====
section
/-! DEFINITION. System and pool packets (Tables 15-6, 15-7): identity, host bindings, subsystems, island resets, forming,
growing, querying and erasing a pool (R86 to R89, R96, R102, R183, R190, R520, R577, R610). -/

namespace Sys2Proof.Machine

/-! ### The system -/

/-- SYS_INFO: what this head is and stands in. The enterprise number is Tirenaloth's, which the spec does not state. -/
def execSysInfo (b : Binding) (tag : Nat) (s : State) : Host.Outcome State Fault Refusal :=
  onPacket b tag 0x0101 (fun p s =>
    let modes := sumNat ((List.range 4).map (fun i => s.hq.modes.getD i 0 % 4 * 4 ^ i))
    answered p (fitBytes 16 (ascii "BRC-DM2") ++ fields [(1, 0), (1, s.sys.slot), (2, s.sys.chip), (1, rollCode s.corr.roll),
      (1, s.trust.fuses.lifecycle), (1, modes), (1, 0)] ++ fitBytes 16 (slice s.trust.flash.identity 0x10 16) ++
      fitBytes 16 ((s.pool.map (·.id)).getD []) ++ fields [(4, (s.tt.active.map (·.term)).getD 0), (4, Config.enterpriseNumber)]) [] s) s

/-- A per-island reset: its event and count; the counters of its island restart (R590, R610). The island is out until the
next bell. -/
def islandReset (island : Nat) (s : State) : State :=
  let s1 := tallyAdd 0 3 1 (event 0x1003 island island { s with pwr := { s.pwr with
    islandsInReset := s.pwr.islandsInReset ++ [island] } })
  if island = 25 then { s1 with tally := s1.tally.restartBlock 0x0D } else s1

/-- The ports of a host port island in a mode (R86). -/
def islandPorts (h mode : Nat) : List Nat :=
  (if mode = 0 then [0] else if mode = 1 then [0, 2] else [0, 1, 2, 3]).map (4 * h + ·)

/-- The links of a host port island are down or up. -/
def portLinks (h : Nat) (up : Bool) (s : State) : State :=
  let all := maskOf ((List.range 4).map (4 * h + ·))
  let mine := if up then maskOf (islandPorts h (s.hq.modes.getD h 0)) else 0
  { s with hq := { s.hq with linkUp := s.hq.linkUp - (s.hq.linkUp &&& all) + mine } }

/-- A host port island is reset: the connections on it are lost; an association with its admin queue on it ends (R87, Table
3-11). -/
def resetPorts (h : Nat) (s : State) : State :=
  let here := s.hq.queues.filter (fun q => q.port / 4 == h)
  let gone := (here.filter (fun q => q.qid == 0)).map (·.cntlid)
  let s1 := (here.filter (fun q => q.qid != 0 && !gone.contains q.cntlid)).foldl (fun t q => endQueue q t) s
  islandReset (5 + h) (portLinks h false (gone.foldl (fun t c => loseAssociation c 4 t) s1))

/-- A host port island other than one is in reset (R87). -/
def State.otherReset (s : State) (island : Nat) : Bool :=
  s.pwr.islandsInReset.any (fun i => 5 ≤ i && i ≤ 8 && i != island)

/-- SYS_PORT_MODE: the mode of a host port island changes through its reset, one island at a time (R87). -/
def execSysPortMode (b : Binding) (tag : Nat) (s : State) : Host.Outcome State Fault Refusal :=
  onPacket b tag 0x0102 (fun p s =>
    let h := p.param 0 1
    if s.otherReset (5 + h) then refuse p .objectBusy noDetail s
    else
      changed p [] (resetPorts h { s with hq := { s.hq with modes := setAt h (p.param 1 1) s.hq.modes } })) s

/-- SYS_ISLAND_RESET: a host port island, or the Corridor's, which then trains again (R467, R610). -/
def execSysIslandReset (b : Binding) (tag : Nat) (s : State) : Host.Outcome State Fault Refusal :=
  onPacket b tag 0x0109 (fun p s =>
    let i := p.param 0 1
    if i = 25 then
      changed p [] (islandReset 25 { s with corr := { s.corr with
        link := 1, lanes := 0, reversed := false, inverted := 0, retrains := min (s.corr.retrains + 1) 65535 } })
    else if s.otherReset i then refuse p .objectBusy noDetail s
    else changed p [] (resetPorts (i - 5) s)) s

/-- An NQN field without its padding. -/
def nqnOf (b : Bytes) : Bytes := (b.reverse.dropWhile (· == 0)).reverse

/-- The controllers of a host in a subsystem act from now on as SYS_BINDING has it: the class of their binding, and the weight of their
connections (R96, R100). DESIGN CHOICE, log 77: the spec does not say when a new binding of a host with controllers takes effect. -/
def rebindHost (nqn : Bytes) (subsystem : Nat) (s : State) : State :=
  let mine := s.hq.controllers.filter (fun c => c.nqn == nqn && c.subsystem == subsystem)
  let w := s.hq.weightOf nqn subsystem
  let s1 : State := { s with hq := { s.hq with queues := s.hq.queues.map (fun q =>
    if mine.any (fun c => c.cntlid == q.cntlid) then { q with weight := w } else q) } }
  mine.foldl (fun t c =>
    match t.hq.managed c.cntlid with
    | some cls => bind (.nvme c.cntlid) cls nqn t
    | none => loseBinding (.nvme c.cntlid) t) s1

/-- SYS_BINDING: a host NQN is allowed to a subsystem with a class and a weight, or an MCTP endpoint has a class; or the
binding is removed (R88, R96, R100). -/
def execSysBinding (b : Binding) (tag : Nat) (peer : PeerAnswer) (s : State) : Host.Outcome State Fault Refusal :=
  onPacket b tag 0x0103 (fun p s =>
    let cls := p.param 2 1
    pairWide p peer (fun s =>
      changed p [] (if p.param 0 1 = 1 then
        let nqn := nqnOf (slice p.params 8 256)
        let n := p.param 4 2
        let rest := s.hq.hosts.filter (fun h => !(h.nqn == nqn && h.subsystem == n))
        rebindHost nqn n { s with hq := { s.hq with
          hosts := if p.param 1 1 = 1 then rest ++ [⟨nqn, n, cls, p.param 3 1⟩] else rest } }
      else
        let e := p.param 6 1
        { s with hq := { s.hq with
          endpoints := if p.param 1 1 = 1 then putKey e cls s.hq.endpoints else delKey e s.hq.endpoints } })) s) s

/-- SYS_SUBSYSTEM: an NVM subsystem is created or deleted; one with an attached namespace stays. The pair presents up to
1,024 (R89). -/
def execSysSubsystem (b : Binding) (tag : Nat) (peer : PeerAnswer) (s : State) : Host.Outcome State Fault Refusal :=
  onPacket b tag 0x0104 (fun p s =>
    let n := p.param 0 2
    let there := s.hq.subsystems.any (fun x => x.number == n)
    if p.param 2 1 = 1 then
      (if there ∨ 1024 ≤ s.hq.subsystems.length then badParam p 0 s
       else pairWide p peer (fun s => changed p [] { s with hq := { s.hq with
         subsystems := s.hq.subsystems ++ [⟨n, nqnOf (slice p.params 8 256)⟩] } }) s)
    else if !there then badParam p 0 s
    else if s.ftl.roots.any (fun r => r.nsid != 0 && r.subsystem == n) then refuse p .objectBusy noDetail s
    else
      pairWide p peer (fun s =>
        let lost := (s.hq.controllers.filter (fun c => c.subsystem == n)).map (·.cntlid)
        let t := lost.foldl (fun u c => loseAssociation c 2 u) s
        changed p [] { t with hq := { t.hq with
          subsystems := t.hq.subsystems.filter (fun x => x.number != n)
          hosts := t.hq.hosts.filter (fun h => h.subsystem != n) } }) s) s

/-- SYS_DATA_TIMEOUT: the Data-In timeout, on both heads (R102). -/
def execSysDataTimeout (b : Binding) (tag : Nat) (peer : PeerAnswer) (s : State) : Host.Outcome State Fault Refusal :=
  onPacket b tag 0x0105 (fun p s =>
    pairWide p peer (fun s => changed p [] { s with hq := { s.hq with timeout := p.param 0 2 } }) s) s

/-! ### The pool -/

/-- C: the capacity of one DIMM [GiB]. -/
def Dram.dimmGib (d : Dram) : Nat := ((d.channels.findSome? (fun c => if c.state = .absent then none else c.dimm)).map (·.gib)).getD 0

/-- A pool is bound to this head: superblock, root key, the units of the head as a new pool has them (R520, Table 10-10). -/
def bindPool (q : Pool) (root : Bytes) (why : Nat) (s : State) : State :=
  extendMr 4 (fitBytes 16 q.id ++ [BitVec.ofNat 8 why]) { s with
    pool := some q
    trust := { s.trust with rootKey := some root, rootPool := q.id }
    ddp := { Ddp.reset with q := q.q, n := q.n, deltaBits := q.deltaBits, fstate := 2 }
    ftl := { Ftl.reset with tailMib := q.tailMib, durable := s.epoch - 1, sealWritten := s.epoch - 1, sealAcked := s.epoch - 1,
                            peerSealed := s.epoch - 1, seqEpoch := s.epoch }
    ec := { s.ec with groups := [], members := [] }
    saved := Saved.reset }

/-- The superblock of a new pool. -/
def newPool (p : Packet) (id peerDigest : Bytes) (s : State) : Pool where
  id := id
  generation := 0
  written := s.tt.now
  origin := s.clockUs - 16 * s.tt.now
  kind := p.param 0 1
  stagingGib := p.param 1 1
  q := p.param 2 1
  n := p.param 3 1
  deltaBits := p.param 4 1
  layout := p.param 5 1
  tailMib := p.param 6 2
  reserve := p.param 8 2
  cacheGib := p.param 10 2
  term := 0
  ckptDir := 0
  ckptEpoch := 0
  groupPage := 0
  groupCount := 0
  heads := setAt s.sys.slot ⟨s.sys.chip, true, s.identity, s.tt.now⟩
    [⟨0, peerDigest != [], peerDigest, s.tt.now⟩, ⟨1, peerDigest != [], peerDigest, s.tt.now⟩]
  active := ⟨0, 0, 0, []⟩
  armed := ⟨0, 0, 0, []⟩
  halves := []
  anchor := 0

/-- POOL_FORM: on Unformed modules a pool is formed: its root key is drawn and goes to the peer's Prefect, the superblock is
written to every member. A staging size above C ÷ 4 is refused, and so is a metadata cache below 1/8 of the head's DRAM (DEDUCED:
R294 gives the least size and no status) (R520, R577, Table 15-7). -/
def execPoolForm (b : Binding) (tag : Nat) (peer : PeerAnswer) (s : State) : Host.Outcome State Fault Refusal :=
  onPacket b tag 0x0201 (fun p s =>
    let l := newMembers p 16
    if s.pool.isSome then refuse p .poolState (detailOf [(1, 2)]) s
    else if s.dram.dimmGib < 4 * p.param 1 1 then badParam p 1 s
    else if 8 * p.param 10 2 < s.dram.gib then badParam p 10 s
    else if l = [] ∨ (l.any (fun x => 63 < x.2.1)) = true then badParam p 16 s
    else
      match s.notUnformed l with
      | some bay => refuse p .memberState (detailOf [(1, bay), (1, ((s.ec.member bay).map (fun m => memberCode m.state)).getD 0xFF)]) s
      | none =>
        if s.corr.up ∧ peer.status ≠ .ok then refuse p peer.status peer.detail s
        else
          let r := s.randomBytes 48
          let q := newPool p (slice r 0 16) ((s.trust.channel.map (·.peer)).getD []) s
          let s1 := bindPool q (slice r 16 32) 1 (drawn 48 s)
          let s2 := if s.corr.up then
              let n := s1.corr.nextNumber
              send (.prefectRecord (.rootKey q.id (slice r 16 32) s1.lockerTable))
                (settleNumber n (send (.forward p.opcode p.cls p.params p.payload) s1))
            else s1
          changed p (slice r 0 16) (configWrite (addMembers l s2))) s

/-- POOL_GROW_FILTER: q is one higher: the larger filter is built in Recess; not at q = 41 (R183). -/
def execPoolGrowFilter (b : Binding) (tag : Nat) (peer : PeerAnswer) (s : State) : Host.Outcome State Fault Refusal :=
  onPacket b tag 0x0206 (fun p s =>
    if s.pool.isNone then noPool p s
    else if s.ddp.grownQ.isSome then refuse p .objectBusy noDetail s
    else if 41 ≤ s.ddp.q then badParam p 0 s
    else pairWide p peer (fun s => changed p [] { s with
        pool := s.pool.map (fun q => { q with q := s.ddp.q + 1 })
        ddp := { s.ddp with
          grownQ := some (s.ddp.q + 1)
          fstate := if s.ddp.fstate = 1 then 1 else 3
          rebuilt := if s.ddp.fstate = 1 then s.ddp.rebuilt else 0 } }) s) s

/-- POOL_GROW_INDEX: n is one higher: the buckets are split in Recess; not at n = 36 (R190). -/
def execPoolGrowIndex (b : Binding) (tag : Nat) (peer : PeerAnswer) (s : State) : Host.Outcome State Fault Refusal :=
  onPacket b tag 0x0207 (fun p s =>
    if s.pool.isNone then noPool p s
    else if s.ddp.split.isSome then refuse p .objectBusy noDetail s
    else if 36 ≤ s.ddp.n then badParam p 0 s
    else pairWide p peer (fun s => changed p [] { s with
        pool := s.pool.map (fun q => { q with n := s.ddp.n + 1 })
        ddp := { s.ddp with split := some s.firstSplit } }) s) s

/-- EC_MEMBER of a bay (register at 0x0008 of I19's window). -/
def State.ecMember (s : State) (bay : Nat) : Nat :=
  ((s.ec.member bay).map (fun m => 2 ^ 60 * memberCode m.state + m.since % 2 ^ 58)).getD 0

/-- POOL_QUERY: the superblock, and EC_MEMBER of each bay. -/
def execPoolQuery (b : Binding) (tag : Nat) (s : State) : Host.Outcome State Fault Refusal :=
  onPacket b tag 0x0208 (fun p s =>
    match s.pool with
    | none => noPool p s
    | some q => answered p [] (superblockBytes q s.ec.members s.sys.slot 1 (s.systemKey 0x11 0) ++
        (List.range 64).flatMap (fun i => leBytes 8 (s.ecMember i))) s) s

/-- What a head keeps of a pool is gone: root key, lockers, staging, metadata, hosts' work. It answers control packets only
(R615). -/
def unbindPool (s : State) : State :=
  let s1 := s.hq.ctxs.foldl (fun t x => complete x nvmeInaccessible 0 [] t) s
  { s1 with
    pool := none
    pwr := { s1.pwr with stage := .control }
    trust := { s1.trust with rootKey := none, rootPool := zeros 16, seals := [] }
    ciph := { s1.ciph with lockers := [], counters := [], ctxs := [], digests := [], withdrawing := [] }
    stg := { s1.stg with versions := [], entries := [], marks := [], peerMarks := [], admitted := 0, images := [], restoring := [] }
    ftl := Ftl.reset
    ddp := Ddp.reset
    ec := { s1.ec with members := [], groups := [], rebuild := [], rebuildTriads := [], standbys := [] }
    saved := Saved.reset
    jobs := { s1.jobs with destages := [], reads := [] }
    tt := { s1.tt with active := none, pending := none, load := .none, armDay := 0, degraded := [], switches := [] } }

/-- POOL_ERASE: on the second of two signed packets both Prefects destroy the root key and the lockers, and every superblock
ring is erased; not while a sealed snapshot stands (R438, R522, Table 15-7). -/
def execPoolErase (b : Binding) (tag : Nat) (peer : PeerAnswer) (s : State) : Host.Outcome State Fault Refusal :=
  onPacket b tag 0x0209 (fun p s =>
    match s.pool with
    | none => noPool p s
    | some q =>
      if q.id ≠ slice p.params 0 16 then badParam p 0 s
      else
        match s.sealedUntil with
        | some t => refuseSealed p t s.clockUs s
        | none =>
          if s.awaitsAlone = true ∧ p.binding ≠ .peer then s
          else twiceSigned p (fun s => pairWide p peer (fun s =>
            let bays := s.ec.members.map (·.bay)
            let s1 := unbindPool s
            changed p [] (bays.foldl (fun t bay => (List.range 4).foldl (fun u n =>
              queueOp (blkOp 3 (blkKey bay 0 n) 0 0 0 .ring []) u)
                (setBay bay { t.bay.bayOf bay with class_ := .unformed, poolId := [], ring := 0 } t)) s1)) s) s) s

end Sys2Proof.Machine
end

