-- ==== Sys2Proof/Machine/Start.lean ====
section
/-! DEFINITION. Resets and start-up: what a reset reaches and keeps, the restore of vault images, the boot chain, training
(R41, R79, R162, R163, R254, R305, R322, R440, R513, R514, R517, R553, R575, R581, R590, R608, R611 to R616). -/

namespace Sys2Proof.Machine

/-! ### Images at a start (R162, R163) -/

/-- An image of a head is retired: its ID is at or below the retired field of its halves (R387). -/
def State.retired (s : State) (head id : Nat) : Bool :=
  s.pool.any (fun p => p.halves.any (fun v => v.head == head && id ≤ v.retired))

/-- This head's newest sealed image that is not retired. -/
def State.ownSealed (s : State) : Option VaultImage :=
  (sortBy (fun a b => a.id ≤ b.id) (s.stg.images.filter (fun v => !s.retired s.sys.slot v.id))).getLast?

/-- The peer's image as found, unless it is retired. -/
def State.peerFound (s : State) (env : StartEnv) : Option (PartImage × Bool) :=
  env.peer.filter (fun x => !s.retired (1 - s.sys.slot) x.1.image.id)

/-- The images available: sealed, not retired and readable (R162). -/
def State.available (s : State) (env : StartEnv) : List VaultImage :=
  s.ownSealed.toList ++ (match s.peerFound env with
    | some (p, true) => [p.image]
    | _ => [])

/-- Images that are not sealed (R163). -/
def State.unsealed (s : State) (env : StartEnv) : List PartImage :=
  (if s.ownSealed.isSome then [] else (env.own.filter (fun p => !s.retired s.sys.slot p.image.id)).toList) ++ (match s.peerFound env with
    | some (p, false) => [p]
    | _ => [])

/-- The bytes of an image that can be restored: the longest run of segments from segment 0 that are read and verify (R163). -/
def partReach (p : PartImage) : Nat := 65536 * (p.sound.takeWhile id).length

/-- The records of a part of an image that begins at an offset, as far as the bytes restored reach. -/
def readRecords (reach : Nat) : List JRec → Nat → List JRec
  | [], _ => []
  | r :: l, at_ => if at_ + r.bytes.length ≤ reach then r :: readRecords reach l (at_ + r.bytes.length) else []

/-- Where the block buffers of an image end, from an offset on, in descriptor order. -/
def bufferEnds : List Ver → Nat → List Nat
  | [], _ => []
  | x :: l, at_ =>
    let e := at_ + 4096 + 64 * flagBit x.hasPi
    e :: bufferEnds l e

/-- What can be restored of an image that is not sealed: the entries, descriptors, marks and records that lie whole in the bytes
restored; a block whose descriptor does and whose buffer does not is missing (R163, Tables 10-15 and 10-16). -/
def restorable (p : PartImage) : VaultImage :=
  let v := p.image
  let blocks := v.ordered
  let d0 := 256 + 72 * v.entries.length
  let m0 := d0 + 40 * blocks.length
  let t0 := m0 + 32 * 1048576
  let r0 := t0 + (v.tail.flatMap JRec.bytes).length
  let ends := bufferEnds blocks (r0 + (v.mirror.flatMap JRec.bytes).length)
  let entries := v.entries.take ((partReach p - 256) / 72)
  { v with
    entries := entries
    marks := v.marks.take ((partReach p - m0) / 32)
    tail := readRecords (partReach p) v.tail t0
    mirror := readRecords (partReach p) v.mirror r0
    versions := v.versions.filterMap (fun x =>
      if x.noBuffer then (if entries.any (fun e => e.vol == x.vol && e.grain == x.grain) then some x else none)
      else if partReach p < d0 + 40 * (v.buffer x + 1) then none
      else if partReach p < ends.getD (v.buffer x) 0 then some { x with lost := true, data := [], pi := [] }
      else some x) }

/-- The marks whose writes exist: those both available images hold, those the only one holds, or, with none, those of any
readable image (R162). -/
def existing (av parts : List VaultImage) : List CommitMark :=
  match av with
  | [] => (parts.flatMap (·.marks)).foldl (fun l m => if l.any (sameMark m) then l else l ++ [m]) []
  | a :: rest => a.marks.filter (fun m => rest.all (fun b => b.marks.any (sameMark m)))

/-- A version of a block belongs to a write that exists. -/
def marked (ms : List CommitMark) (v : Ver) : Bool :=
  ms.any (fun m => m.volume == v.vol && m.seq == v.seq && m.lba ≤ 4 * v.grain + v.quarter && 4 * v.grain + v.quarter < m.lba + m.count)

/-- The blocks a start restores: of writes that exist, from the available images first, then from the others; missing
where no image has them (R162, R163). -/
def restoredBlocks (av parts : List VaultImage) : List Ver :=
  let all := (av ++ parts).flatMap (·.versions) |>.filter (marked (existing av parts))
  let l := all.filter (fun v => !v.lost) ++ all.filter (·.lost)
  (l.foldl (fun acc v => if acc.any (fun w => w.at_ v.vol v.grain v.quarter && w.seq == v.seq) then acc else acc ++ [v]) []).map
    (fun v => { v with staged := true, readers := 0, released := false })

/-- The entries of the blocks restored. -/
def restoredEntries (av parts : List VaultImage) (vs : List Ver) : List Entry :=
  (((av ++ parts).flatMap (·.entries)).filter (fun e =>
      vs.any (fun v => v.vol == e.vol && v.grain == e.grain))).foldl (fun l e =>
    if l.any (fun x => x.vol == e.vol && x.grain == e.grain) then l else l ++ [{ e with destage := none }]) []

/-- Journal records in the order of their positions, each once. -/
def inOrder (l : List JRec) : List JRec := sortBy JRec.before (l.eraseDups)

/-- The last epoch a head's seal stands for in some records. -/
def lastSeal (head : Nat) (l : List JRec) : Nat :=
  ((l.filter (fun r => r.head == head && (match r.body with
    | .epochSeal .. => true
    | _ => false))).map (·.epoch)).foldl max 0

/-! ### What a reset keeps (Table 18-5) -/

/-- The trusted clock [µs] of the records of R517: the newest clock record and t_off of the available images. -/
def State.recordedClock (s : State) (env : StartEnv) : Nat := ((s.available env).map (·.tOff)).foldl max s.trust.clockRecord

/-- Counts since cold reset that a warm reset leaves (Tables 16-x, 17-4, 18-5 and the registers that say so). -/
def keepCounts (old s : State) : State :=
  { s with
    cpi := { s.cpi with
      lastStatus := old.cpi.lastStatus, lastOpcode := old.cpi.lastOpcode, lastTag := old.cpi.lastTag, slotSeq := old.cpi.slotSeq }
    tally := { s.tally with
      corrected := old.tally.corrected, ldpcRecovered := old.tally.ldpcRecovered, parityRecovered := old.tally.parityRecovered
      minutes := old.tally.minutes, chipHist := old.tally.chipHist, modules := old.tally.modules, warnings := old.tally.warnings
      inactive := old.tally.inactive, history := old.tally.history, hourUnc := old.tally.hourUnc, hourMiss := old.tally.hourMiss
      hourTemp := old.tally.hourTemp, energies := old.tally.energies, lastEval := old.tally.lastEval }
    ddp := { s.ddp with shed := old.ddp.shed, overflow := old.ddp.overflow }
    skx := old.skx
    ciph := { s.ciph with
      failStatus := old.ciph.failStatus, failLane := old.ciph.failLane, failLocker := old.ciph.failLocker
      failCount := old.ciph.failCount, skipped := old.ciph.skipped, digestLast := old.ciph.digestLast
      digestCount := old.ciph.digestCount, mrs := old.ciph.mrs, wrapInstance := old.ciph.wrapInstance }
    ec := { s.ec with mismatch := old.ec.mismatch, lost := old.ec.lost }
    bay := { s.bay with bays := old.bay.bays.map (fun (x : Nat × Bay) => (x.1, { Bay.rest with
      retrains := x.2.retrains, fenced := x.2.fenced, uncorr := x.2.uncorr, linkCorr := x.2.linkCorr })) }
    corr := { s.corr with retrains := old.corr.retrains, round := old.corr.round }
    stg := { s.stg with
      floor := old.stg.floor, vmin := old.stg.vmin, eff := old.stg.eff, pdimm := old.stg.pdimm, itest := old.stg.itest
      v0 := old.stg.v0 } }

/-- The state a reset leaves before anything starts: what it reaches is at its reset value; fuses, boot flash, sealed store,
what flash holds, the operator's configuration and, of a warm reset, PD00 and the counts since cold reset stand. -/
def resetState (cold aonLost : Bool) (env : StartEnv) (s : State) : State :=
  let clock := max (if aonLost then 0 else s.trust.clockNs) (if cold then 1000 * s.recordedClock env else 0)
  let t := s.trust
  let s1 : State := { State.reset with
    sys := s.sys
    pwr := if cold then { Pwr.reset with refsPresent := s.pwr.refsPresent }
      else { s.pwr with
        domains := Pwr.reset.domains, inRange := 0x1FF, trippedSinceStart := false, facultyMhz := Pwr.reset.facultyMhz
        restartDue := false, islandsInReset := [], failHighSince := none, avsSent := none }
    pins := if cold then { Pins.reset with
        heldFaults := s.pins.heldFaults
        pins := s.pins.pins.filter (fun (x : Nat × Pin) => s.pins.heldFaults.any (fun h => h.1 == x.1))
        hottest := s.pins.hottest, sensor := s.pins.sensor, alert := s.pins.alert, thermtrip := s.pins.thermtrip }
      else { s.pins with tempVault := false }
    trust := { Trust.reset with
      fuses := t.fuses, flash := env.flash.getD t.flash, clockNs := clock, clockRecord := t.clockRecord
      rootKey := t.rootKey, rootPool := t.rootPool, seals := t.seals
      oscNs := if aonLost then 0 else t.oscNs
      slewNs := if aonLost then 0 else t.slewNs
      slews := if aonLost then [] else t.slews
      holdEnd := if aonLost then none else t.holdEnd }
    tally := { Tally.reset with lastEval := clock / 1000 }
    tt := { Tt.reset with
      now := s.tt.now, active := s.tt.active, pending := s.tt.pending
      load := if s.tt.load = .armed then .armed else .none
      armDay := if s.tt.load = .armed then s.tt.armDay else 0 }
    stg := { Stg.reset with images := s.stg.images.filter (fun v => !s.retired s.sys.slot v.id) }
    ddp := { Ddp.reset with
      q := (s.pool.map (·.q)).getD 0, n := s.ddp.n, split := s.ddp.split, deltaBits := s.ddp.deltaBits
      fstate := if s.pool.isSome then 1 else 0
      peerHalf := s.ddp.peerHalf, nextCid := s.ddp.nextCid, freeCids := s.ddp.freeCids }
    ftl := { Ftl.reset with
      tailMib := s.ftl.tailMib, mpas := s.ftl.mpas, roots := s.ftl.roots, nextRoot := s.ftl.nextRoot, triadNext := s.ftl.triadNext
      spareState := s.ftl.spareState, sparePermille := s.ftl.sparePermille
      lostPages := s.ftl.lostPages, sealFault := s.ftl.sealFault, accrued := clock / 1000 }
    ec := { Ec.reset with
      members := s.ec.members, rebuild := s.ec.rebuild, rebuildTriads := s.ec.rebuildTriads, opened := s.ec.opened
      openedIn := s.ec.openedIn, patrolAt := s.ec.patrolAt, patrolDone := s.ec.patrolDone
      weak := s.ec.weak, standbys := s.ec.standbys, offline := s.ec.offline }
    pool := s.pool
    saved := s.saved
    ciph := { Ciph.reset with
      lockers := s.ciph.lockers.map (fun (x : Nat × Locker) => (x.1, { x.2 with granted := 0, change := none }))
      counters := s.ciph.counters }
    hq := { Hq.reset with
      modes := s.hq.modes, timeout := s.hq.timeout, subsystems := s.hq.subsystems, hosts := s.hq.hosts
      endpoints := s.hq.endpoints, fsn := s.hq.fsn, owners := s.hq.owners
      reservations := s.hq.reservations.filter (·.ptpl), nextCntlid := s.hq.nextCntlid }
    repl := s.repl
    out := s.out
    draws := s.draws
    pending := s.pending }
  if cold then s1 else keepCounts s s1

/-! ### Restore (R162, R163, R254, R299, R305, R581) -/

/-- Staging, the journal tails and the nonce counters as the images give them; then the journal is replayed. A head whose peer
serves takes staging and tail from it instead (R491). -/
def restore (clean : Bool) (env : StartEnv) (old s : State) : State :=
  let s0 := if clean then s else restartCounters s
  if s.pool.isNone then s0
  else
    let s1 := match env.media with
      | none => s0
      | some m => takeMedia m s0
    let av := if env.peerServes then [] else old.available env
    let parts := if env.peerServes then [] else (old.unsealed env).map restorable
    let vs := restoredBlocks av parts
    let all := av ++ parts
    let mine := all.flatMap (fun v => if v.head == s.sys.slot then v.tail else v.mirror)
    let theirs := all.flatMap (fun v => if v.head == s.sys.slot then v.mirror else v.tail)
    let seals := min (lastSeal 0 (mine ++ theirs)) (lastSeal 1 (mine ++ theirs))
    let durable := max s1.saved.flushed (if av = [] then seals else (av.map (·.durable)).foldl max 0)
    let s2 : State := { s1 with
      stg := { s1.stg with
        versions := vs
        entries := restoredEntries av parts vs
        marks := existing av parts
        restored := decide (vs = [] ∧ s1.stg.images = [])
        restoring := (vs.map (fun v => (v.vol, v.grain))).eraseDups }
      ftl := { s1.ftl with
        tail := inOrder mine, mirror := inOrder theirs, durable := durable, journalGap := env.gap } }
    let s3 := replay s2
    let e := max durable (s3.epoch - 1)
    replStart { s3 with ftl := { s3.ftl with
      durable := e, sealWritten := e, sealAcked := e, peerSealed := e, seqEpoch := s3.epoch, nextSeq := 0
      triage := 1, triageAt := s3.tt.now
      offAt := if old.available env = [] then s3.clockUs else ((old.available env).map (·.tOff)).foldl max 0 } }

/-- The Diary: the records of this head's sealed image, then START; faults found during cold reset follow (R581, R632). -/
def startDiary (cold : Bool) (old s : State) : State :=
  let l := ((old.ownSealed.map (·.diary)).getD []).filter (fun r => r.code != 0)
  let s1 : State := { s with diary := { Diary.reset with ring := l.reverse.take diaryRing, head := l.length } }
  let s2 := event 0x1001 0 (argOf ((0, if cold then 1 else 2) :: (List.range 4).map (fun i => (4 + i, l.length / 256 ^ i % 256)))) s1
  s2.pins.heldFaults.foldl (fun t h => pinFaultEvent h.1 h.2 t) { s2 with pins := { s2.pins with heldFaults := [] } }

/-! ### The day count (R40, R41) -/

/-- The day count of a start: from the trusted clock and the bell origin, and where that is not greater than the last day
recorded in the vault the day after it (R41); a warm start has its running day too and never repeats it. 0 at a cold reset before
any pool exists. -/
def startDay (cold : Bool) (env : StartEnv) (old s : State) : Nat :=
  if s.pool.isNone then (if cold then 0 else old.day + 1)
  else s.dayOf ((((old.available env).map (·.day)) ++ (if cold then [] else [old.day])).max?)

/-! ### The boot chain (R513 to R518) -/

/-- With Faculty running: bays are powered, SPD read, the Corridor trains; the head stands as its pool, its peer and its
DIMMs have it (Table 18-6, R554, R614, R615). -/
def bringHeadUp (env : StartEnv) (s : State) : State :=
  let s1 := powerIslands ([0, 1, 2, 3, 4, 9, 10, 20] ++ (List.range 11).map (· + 21)) s
  let s2 := (env.bays.filter (· < 64)).foldl (fun t b => powerUp b (setLevel (prsntPin b) false t)) s1
  let s3 := readSpd env.dimms { s2 with corr := { s2.corr with link := 1, beatDay := s2.day } }
  let none_ := s3.pool.isNone || s3.tt.active.isNone || decide (s3.dram.accepted.length < 8)
  let s4 : State := { s3 with tt := { s3.tt with degraded := [⟨5, s3.sys.slot, 0⟩] } }
  let s5 : State :=
    if none_ then s4
    else if env.peerServes then
      let d : Degradation := ⟨1, 1 - s4.sys.slot, 0⟩
      putSheet d { s4 with
        pwr := { s4.pwr with stage := .joining }
        tt := { s4.tt with degraded := [d] } }
    else { s4 with pwr := { s4.pwr with stage := .starting } }
  if s5.stg.vmin ≠ 0 ∧ s5.mayMeasure = true then ownMeasure .start env.sense s5 else s5

/-- Steps 4 and 5, and what follows: the AVS target, Faculty, training (R513, R601). -/
def bootFaculty (env : StartEnv) (s : State) : State :=
  let s0 := prefectStep s
  let s1 := if s0.pool.isSome ∧ s0.trust.seals ≠ [] then sealsRead env.sealSound s0 else s0
  let s2 := emit (.avsTarget Config.avsTarget) { s1 with pwr := { s1.pwr with
    stage := .control, avsSent := some Config.avsTarget, avsSentAt := s1.tt.now, avsDay := s1.day } }
  let s3 := runFaculty [] s2
  if s3.pwr.stage = .prefect then s3 else bringHeadUp env s3

/-- Steps 1 to 3: without a lifecycle that runs, or an image, the ROM runs recovery (R513, R514). A warm start begins at
step 3. -/
def bootPrefect (cold : Bool) (env : StartEnv) (s : State) : State :=
  let rom : State := { s with
    pwr := { s.pwr with stage := .recovery }
    trust := { s.trust with stage := 1 } }
  if cold ∧ (s.trust.fuses.lifecycle = 0 ∨ s.trust.fuses.lifecycle = 3) then rom
  else
    match s.trust.selectSlot 1 [] with
    | none => rom
    | some (n, b) => bootFaculty env (runPrefect (some n) b s)

/-! ### A start (R608, R611) -/

/-- The DRAM counts since cold reset that a warm reset leaves. -/
def keepDramCounts (old s : State) : State :=
  { s with dram := { s.dram with
    eccValid := old.dram.eccValid, eccHpa := old.dram.eccHpa
    channels := (List.range 16).map (fun i =>
      let a := old.dram.ch i
      { s.dram.ch i with
        retrains := a.retrains, lastDevice := a.lastDevice, lastRank := a.lastRank, uncorr := a.uncorr, corr := a.corr
        panics := a.panics, lastPort := a.lastPort }) } }

/-- The armed image whose day has passed is the one that runs (R79, R383). -/
def takeArmed (s : State) : State :=
  if s.tt.load = .armed ∧ s.tt.armDay ≤ s.day then
    { s with
      tt := { s.tt with active := s.tt.pending, pending := none, load := .none, armDay := 0 }
      pool := s.pool.map (fun q => { q with active := q.armed, armed := ⟨0, 0, 0, []⟩ }) }
  else s

/-- The head starts after a reset of some kind and cause. Its counters go on from a vault image sealed at the last Vault mode
entry (R254). -/
def startHead (cold aonLost : Bool) (cause : Nat) (env : StartEnv) (old : State) : State :=
  let s1 := resetState cold aonLost env old
  let s2 : State := { s1 with tt := { s1.tt with now := 1024 * startDay cold env old s1 } }
  let s3 : State := setLevel 256 true { s2 with pwr := { s2.pwr with
    resetKind := if cold then 1 else 2
    resetCause := cause
    resetWhen := s2.tt.now
    internalOsc := !bitAt 0 s2.pwr.refsPresent } }
  let s4 := if cold then drawn 1 { s3 with ciph := { s3.ciph with wrapInstance := s3.free % 2 ^ 64 } } else s3
  let s5 := takeArmed (startDiary cold old s4)
  let s6 := if cold then s5 else tallyAdd 0x00 2 1 s5
  let s7 := bootPrefect cold env (restore (old.stg.vault == 2 && old.ownSealed.any (fun v => v.id == old.stg.vaultAt)) env old s6)
  if cold then s7 else keepDramCounts old s7

end Sys2Proof.Machine
end

