-- ==== Sys2Proof/Machine/Power.lean ====
section
/-! DEFINITION. Rails, references, AVS, resets as commands, the seal of the vault image, full training, power states (R121 to
R125, R159, R160, R600 to R602, R607 to R609, R617, R619, R637). -/

namespace Sys2Proof.Machine

/-! ### Supplies and resets (R598 to R602, R608, R609) -/

/-- A head that finds nothing. -/
def StartEnv.none_ : StartEnv := ⟨[], none, [], false, none, none, none, false, true, 0⟩

/-- SUPPLIES_VALID: every rail is valid, cold reset is released and the head starts (R599, R611). -/
def execSuppliesValid (env : StartEnv) (s : State) : Host.Outcome State Fault Refusal :=
  whenDue (s.pwr.stage = .off ∨ s.pwr.stage = .aonOnly)
    (startHead true (s.pwr.stage == .off) 1 env s) s

/-- VDD_AON_ONLY: the other rails are gone: cold reset is held, and PD00 runs only the oscillator and the trusted clock (R600). -/
def execVddAonOnly (s : State) : Host.Outcome State Fault Refusal :=
  let t := resetState true false StartEnv.none_ s
  .next { t with
    pwr := { t.pwr with stage := .aonOnly, inRange := 4, domains := 1 }
    stg := { t.stg with vault := s.stg.vault, vaultAt := s.stg.vaultAt } }

/-- COLD_RESET: COLD_RST_N low for 1 µs, unless its pin is at fault or Vault mode is not sealed, or the loss of a rail (Table
18-5, R609, Table 19-6). -/
def execColdReset (cause : ColdCause) (env : StartEnv) (s : State) : Host.Outcome State Fault Refusal :=
  match cause with
  | .powerOn => .next (startHead true false 1 env s)
  | .aonLoss => .next (startHead true true 2 env s)
  | .pin => whenDue (s.pwr.stage ≠ .off ∧ s.pwr.stage ≠ .aonOnly ∧ s.pwr.stage ≠ .vault ∧ s.resetIgnored 261 = false)
      (setLevel 261 false (startHead true false 3 env s)) s

/-- WARM_RESET: WARM_RST_N low for 1 µs, or the warm start of a head that fenced itself for a dead DRAM channel (Table 18-5,
R574, R609). -/
def execWarmReset (env : StartEnv) (s : State) : Host.Outcome State Fault Refusal :=
  whenDue (s.pwr.stage ≠ .off ∧ s.pwr.stage ≠ .aonOnly ∧ s.pwr.stage ≠ .vault ∧
      (s.pwr.restartDue = true ∨ s.resetIgnored 262 = false))
    (if s.pwr.restartDue then startHead false false 6 env s else setLevel 262 false (startHead false false 4 env s)) s

/-- SUPPLY_TRIP: a rail has been outside its trip limits for 2 µs: its event, and Vault mode once (R602, R617). -/
def execSupplyTrip (rail : Nat) (high : Bool) (s : State) : Host.Outcome State Fault Refusal :=
  whenDue (rail < 9 ∧ s.pwr.stage ≠ .off ∧ s.pwr.stage ≠ .aonOnly)
    (powerFails (tallyAdd 0x11 2 1 (event 0x1002 0 rail { s with pwr := { s.pwr with
      inRange := if bitAt rail s.pwr.inRange then s.pwr.inRange - 2 ^ rail else s.pwr.inRange
      tripped := setBit rail s.pwr.tripped
      tripRail := rail
      tripHigh := high
      tripWhen := s.tt.now
      trippedSinceStart := true } }))) s

/-- THERMTRIP: PD00 asserts THERMTRIP_N while a sensor reads 125 °C or more (R637). -/
def execThermtrip (temp : Int) (island : Nat) (s : State) : Host.Outcome State Fault Refusal :=
  let t := noteHottest temp island s
  .next { t with pins := { t.pins with thermtrip := decide (125 ≤ temp) } }

/-! ### The seal and the way out of Vault mode (R159, R160, R609, R617, R637) -/

/-- The image is sealed: it lies in its half, the clock is recorded, VAULT_DONE goes to the peer, DRAM is in self-refresh (R159,
R517). Without a half there is no image to seal. -/
def sealImage (s : State) : State :=
  let half := s.pool.bind (fun p => p.nextHalf s.sys.slot)
  let s1 : State :=
    match half, s.stg.image with
    | some v, some img =>
      setHalf v.head v.half (fun w => { w with image := img.id, erased := false })
        { s with stg := { s.stg with images := s.stg.images ++ [img], image := none } }
    | _, _ => { s with stg := { s.stg with image := none } }
  let len := (s.stg.image.map (·.bodyLength)).getD 0
  let s2 : State := { s1 with
    pwr := { s1.pwr with stage := .sealed }
    stg := { s1.stg with vault := 2, sealedAt := s1.tt.now }
    trust := { s1.trust with clockRecord := max s1.trust.clockRecord s1.clockUs }
    dram := { s1.dram with channels := s1.dram.channels.map (fun c =>
      if c.state = .absent then c else { c with selfRefresh := true }) } }
  event 0x4004 10 2 (sendPeer (.vaultDone s2.tt.now len) s2)

/-- VAULT_SEAL: the trailer is written and verifies; a reset pin still low acts then, the cold one first (R159, R609). -/
def execVaultSeal (coldLow warmLow : Bool) (env : StartEnv) (s : State) : Host.Outcome State Fault Refusal :=
  whenDue (s.pwr.stage = .vault ∧ s.stg.trailer = true ∧ s.bay.flushing = false)
    (let t := sealImage s
     if coldLow ∧ s.resetIgnored 261 = false then setLevel 261 false (startHead true false 3 env t)
     else if warmLow ∧ s.resetIgnored 262 = false then setLevel 262 false (startHead false false 4 env t)
     else t) s

/-- The 100 ms of PWR_FAIL_N high are over, those after the seal too, and after a thermal entry the 60 s below 95 °C (R160,
R637). -/
def State.mayRestart (s : State) : Bool :=
  s.pwr.failHighSince.all (fun t =>
    decide (max t (if s.pwr.stage = .sealed then s.stg.sealedAt else 0) + ceilDiv 100000 16 ≤ s.tt.now)) &&
  (!s.pins.tempVault || s.pins.coolSince.any (fun t => decide (t + secBells 60 ≤ s.tt.now)))

/-- VAULT_WARM_START: after the seal, or the wait of R617, the head makes a warm start (R160, R617). -/
def execVaultWarmStart (env : StartEnv) (s : State) : Host.Outcome State Fault Refusal :=
  whenDue ((s.pwr.stage = .sealed ∨ s.pwr.stage = .earlyWait) ∧ s.mayRestart = true)
    (startHead false false 5 env s) s

/-! ### Reference clocks (R607, Table 18-4) -/

/-- The bit of a reference in CLK_REFS. -/
def refBit : RefClock → Nat
  | .xtal => 0
  | .refclk0 => 1
  | .refclk1 => 2
  | .ethref => 3

/-- The bays of a bay port group. -/
def groupBays (g : Nat) : List Nat := (List.range 16).map (16 * g + ·)

/-- A bay port group loses its reference: its links go down, and it is a trigger of Table 2-14. -/
def groupDown (g : Nat) (s : State) : State :=
  let s1 := (groupBays g).foldl (fun t b =>
    let st := (t.bay.bayOf b).state
    if st == .training || st == .up || st == .degraded then bayLost b t else t) s
  trigger true 4 g { s1 with bay := { s1.bay with
    groupsOut := if s1.bay.groupsOut.contains g then s1.bay.groupsOut else s1.bay.groupsOut ++ [g] } }

/-- A bay port group has its reference again: its links train, and its 64 days begin. -/
def groupUp (g : Nat) (s : State) : State :=
  let s1 := (groupBays g).foldl (fun t b =>
    if (t.bay.bayOf b).state == .down && (t.bay.bayOf b).pwren then bayTo b .training t else t) s
  beginReturn ⟨4, s1.sys.slot, g⟩ { s1 with bay := { s1.bay with groupsOut := s1.bay.groupsOut.filter (fun x => x != g) } }

/-- What the loss of a reference does (Table 18-4). -/
def refLost (ref : RefClock) (s : State) : State :=
  match ref with
  | .xtal => powerFails { s with pwr := { s.pwr with internalOsc := true } }
  | .refclk0 => groupDown 1 (groupDown 0 s)
  | .refclk1 =>
    let s1 := groupDown 3 (groupDown 2 s)
    corrEvent 1 { s1 with corr := { s1.corr with link := 0, lanes := 0 } }
  | .ethref =>
    let s1 := s.hq.controllers.foldl (fun t c => loseAssociation c.cntlid 4 t) s
    { s1 with hq := { s1.hq with linkUp := 0 } }

/-- The ports of every host port island come up. -/
def allPorts (s : State) : State := (List.range 4).foldl (fun t h => portLinks h true t) s

/-- What the return of a reference does: what its loss took down trains again; XTAL returns by a start only (R607). -/
def refBack (ref : RefClock) (s : State) : State :=
  match ref with
  | .xtal => s
  | .refclk0 => groupUp 1 (groupUp 0 s)
  | .refclk1 =>
    let s1 := groupUp 3 (groupUp 2 s)
    if s1.corr.link = 0 then
      tallyAdd 0x0D 3 1 { s1 with corr := { s1.corr with link := 1, retrains := min (s1.corr.retrains + 1) 65535 } }
    else s1
  | .ethref => if s.pwr.stage = .service then allPorts s else s

/-- REFCLK_LOST: no edge for 1 µs, or more than 1,000 ppm off for 1 ms (R607). -/
def execRefclkLost (ref : RefClock) (s : State) : Host.Outcome State Fault Refusal :=
  whenDue (bitAt (refBit ref) s.pwr.refsPresent = true)
    (refLost ref { s with pwr := { s.pwr with
      refsPresent := s.pwr.refsPresent - 2 ^ refBit ref
      refsLost := setBit (refBit ref) s.pwr.refsLost } }) s

/-- REFCLK_RESTORED: present and within tolerance for 1 s (R607). -/
def execRefclkRestored (ref : RefClock) (s : State) : Host.Outcome State Fault Refusal :=
  whenDue (bitAt (refBit ref) s.pwr.refsPresent = false)
    (refBack ref { s with pwr := { s.pwr with refsPresent := setBit (refBit ref) s.pwr.refsPresent } }) s

/-! ### AVS (R601) -/

/-- AVS_ADJUST: every 64 days the target moves toward the value the temperature asks for, by at most 10 mV, within its range. -/
def execAvsAdjust (targetMv measuredMv : Nat) (s : State) : Host.Outcome State Fault Refusal :=
  let now := s.pwr.avsTarget
  let want := max (now - 10) (min (now + 10) (max 650 (min 850 targetMv)))
  whenDue (s.pwr.avsSent = none ∧ s.pwr.avsDay + 64 ≤ s.day ∧ 2 ≤ s.trust.stage)
    (emit (.avsTarget want) { s with pwr := { s.pwr with
      avsSent := some want, avsSentAt := s.tt.now, avsDay := s.day, avsMeasured := measuredMv } }) s

/-- AVS_CONFIRM_TIMEOUT: without the regulator's answer for 1 ms the last confirmed target stands, and 64 days pass before the
next try. -/
def execAvsConfirmTimeout (s : State) : Host.Outcome State Fault Refusal :=
  whenDue (s.pwr.avsSent.isSome = true ∧ s.pwr.avsSentAt + msBells 1 ≤ s.tt.now)
    { s with pwr := { s.pwr with avsSent := none, avsDay := s.day } } s

/-- A target is confirmed when 1 ms and a bell have passed without a timeout. -/
def avsBell (s : State) : State :=
  match s.pwr.avsSent with
  | none => s
  | some v => if s.pwr.avsSentAt + msBells 1 + 2 ≤ s.tt.now then
      { s with pwr := { s.pwr with avsTarget := v, avsSent := none } } else s

/-! ### Full training (R619) -/

/-- Channels, bays, Corridor and restore are done (R554, R619). -/
def State.fullyTrained (s : State) : Bool :=
  !s.dram.bringUp && decide (15 ≤ s.dram.trained.length) && s.dram.othersDone &&
  s.bay.bays.all (fun x => x.2.state != .powering && x.2.state != .training) && s.corr.link != 1 && s.stg.restored

/-- FULL_TRAINING_COMPLETE: with the known-answer tests passed and the rest done, the head leaves Bring-up at the first day
boundary at least 2 periods on (R619, R81). -/
def execFullTrainingComplete (s : State) : Host.Outcome State Fault Refusal :=
  let d : Degradation := ⟨5, s.sys.slot, 0⟩
  whenDue (s.fullyTrained = true ∧ s.tt.degraded.contains d = true ∧
      s.tt.switches.any (fun x => x.what == d && !x.enter) = false)
    (trigger false 5 0 s) s

/-! ### Power states (R121 to R125) -/

/-- The head enters a power state: its event and count; the last operational state is remembered. -/
def toPs (n : Nat) (s : State) : State :=
  tallyAdd 0x11 1 1 (event 0x1004 0 (argOf [(0, s.hq.ps), (1, n)]) { s with hq := { s.hq with
    ps := n, lastPs := if n = 3 then s.hq.ps else n } })

/-- POWER_STATE_CHANGE: at the next bell after its Set Features a change among operational states takes effect, and its command
completes; out of PS3 it does so by way of the exit (R122, R124). -/
def execPowerStateChange (s : State) : Host.Outcome State Fault Refusal :=
  match s.hq.psNext with
  | [] => .next s
  | (n, cntlid, cid, at_) :: rest =>
    whenDue (at_ < s.tt.now)
      (let t : State := { s with hq := { s.hq with psNext := rest } }
       adminDone cntlid cid nvmeOk n []
        (if s.hq.ps = 3 then { t with hq := { t.hq with lastPs := n, ps3Exit := some (t.hq.ps3Exit.getD t.tt.now) } }
         else if s.hq.ps = n then t else toPs n t)) s

/-- Recess work is due within 1,000 µs: a waiting Recess operation, or a move, rebuild or patrol under way, whose form comes to a
Recess period in the next 62 periods (R123). -/
def State.recessDue (s : State) : Bool :=
  let soon := fun (f : Nat) => match s.tt.active with
    | none => false
    | some i => (List.range 63).any (fun n => classAdmits 4 1 (i.classOf (i.sheet s.tt.sheet) f ((s.period + n) % 1024)))
  s.bay.waiting.any (fun o => o.cls == 4 && (s.formAt o.bay o.die).any soon) ||
  (s.ftl.moves.flatMap (fun m => ((s.formAt (blkBay m.blk) (blkDie m.blk)).toList))).any soon

/-- A staging entry of this head awaits destage: a version of a volume it owns that is not released; copies that the peer destages
do not count (R123, R137). -/
def State.awaitsDestage (s : State) : Bool := s.stg.versions.any (fun v => !v.released && s.ownsNsid v.vol)

/-- Nothing keeps the head from PS3: no command in flight, nothing to destage, no Recess work due, no digest context Open or
Final, no engine at work (R123, R125). A command that the peer received and this head only orders is none of its own. -/
def State.quiet (s : State) : Bool :=
  s.hq.ctxs.all (fun x => x.forPeer && x.isWrite) && s.hq.queues.all (fun q => q.capsules.isEmpty) && !s.awaitsDestage &&
  !s.recessDue && s.ciph.digests.isEmpty && s.jobs.destages.isEmpty && s.jobs.reads.isEmpty

/-- Entry to PS3 at a bell: once the head is quiet, contexts are spilled and exact counters journalled; when quiet is lost, it
waits for it again (R123, R125). -/
def ps3Bell (s : State) : State :=
  match s.hq.ps3 with
  | none => s
  | some (t, cntlid, cid, none) =>
    if s.quiet then
      let s1 := (s.ciph.ctxs.filter (fun x => x.place == 1)).foldl (fun t x => spillCtx x t) s
      let s2 := journalCounters s1
      { s2 with hq := { s2.hq with ps3 := some (t, cntlid, cid, some s.epoch) } }
    else s
  | some (t, cntlid, cid, some _) =>
    if s.quiet then s else { s with hq := { s.hq with ps3 := some (t, cntlid, cid, none) } }

/-- PS3_ENTRY_COMPLETE: quiet, and the epoch of the exact counters durable: the head is in PS3 (R123, R125). -/
def execPs3EntryComplete (s : State) : Host.Outcome State Fault Refusal :=
  match s.hq.ps3 with
  | some (_, cntlid, cid, some e) =>
    whenDue (s.quiet = true ∧ e ≤ s.ftl.durable)
      (adminDone cntlid cid nvmeOk 3 [] (toPs 3 { s with hq := { s.hq with ps3 := none, ps3Exit := none } })) s
  | _ => .next s

/-- PS3_ENTRY_ABANDON: 100 ms after its Set Features an entry that has not finished is abandoned; Dword 0 names the state in
force (R123). -/
def execPs3EntryAbandon (s : State) : Host.Outcome State Fault Refusal :=
  match s.hq.ps3 with
  | some (t, cntlid, cid, _) =>
    whenDue (t + msBells 100 ≤ s.tt.now)
      (adminDone cntlid cid nvmeOk s.hq.ps [] { s with hq := { s.hq with ps3 := none } }) s
  | none => .next s

/-- Work that needs a gated island is there (R125). -/
def State.wantsEngines (s : State) : Bool :=
  !s.quiet || !s.ddp.queue.isEmpty || !s.cpi.accepted.isEmpty || !s.repl.sessions.isEmpty ||
  (s.tt.load == .armed && s.tt.armDay ≤ s.day + 1)

/-- In PS3 such work starts the exit. -/
def exitBell (s : State) : State :=
  if s.hq.ps = 3 ∧ s.hq.ps3Exit.isNone = true ∧ s.wantsEngines = true then
    { s with hq := { s.hq with ps3Exit := some s.tt.now } }
  else s

/-- The domains the sheet in force gives work are powered, the islands gated in PS3 and the channels refused or failed apart (R21, R569,
R604, Table 3-13). -/
def domainBell (s : State) : State :=
  match s.tt.active with
  | none => s
  | some i =>
    let m := (i.sheet s.tt.sheet).mask s.sys.slot
    let gated := if s.hq.ps = 3 then ([2, 3, 4] ++ (List.range 8).map (· + 12)).flatMap islandDomains else []
    let noDimm := fun (d : Nat) => 78 ≤ d && d ≤ 93 && (match (s.dram.ch (d - 78)).state with
      | .refused => true
      | .failed => true
      | _ => false)
    let want := maskOf ((List.range 96).filter (fun d => (bitAt d m || d == 0 || d == 1 || d == 95) && !gated.contains d && !noDimm d))
    if want = s.pwr.domains then s else setDomains want s

/-- PS3_EXIT: work that needs a gated island starts the exit; 2 ms on, the head is in its last operational state, its gated islands
powered: an island that is powered holds the keys that Prefect has installed, which is done before the first bell (R124, R125). -/
def execPs3Exit (s : State) : Host.Outcome State Fault Refusal :=
  whenDue (s.hq.ps = 3)
    (match s.hq.ps3Exit with
     | none => { s with hq := { s.hq with ps3Exit := some s.tt.now } }
     | some t => if t + msBells 2 ≤ s.tt.now then domainBell (toPs s.hq.lastPs { s with hq := { s.hq with ps3Exit := none } }) else s) s

end Sys2Proof.Machine
end

