-- ==== Sys2Proof/Machine/Bell.lean ====
section
/-! DEFINITION. The bell: what a period boundary does by itself (R38 to R43, R47, R52, R54, R130, R175, R176, R475, R565, R611,
R618, R619). Events the opcode table gives rows of their own stand with those rows. -/

namespace Sys2Proof.Machine

/-! ### Time (R38 to R43, R440) -/

/-- The oscillator and the trusted clock run on by a number of ns; a clock that has to catch up runs 1/1,000 fast; on the internal
oscillator it counts at the lower tolerance bound (R440, Table 18-4). -/
def runClock (ns : Nat) (s : State) : State :=
  let n := if s.pwr.internalOsc then ns * 98 / 100 else ns
  let slew := min s.trust.slewNs (n / 1000)
  { s with trust := { s.trust with
    clockNs := s.trust.clockNs + n + slew
    slewNs := s.trust.slewNs - slew
    oscNs := s.trust.oscNs + n } }

/-- The next period: of the next day where this one is over, and of a higher day where the pair's count or a pool's origin asks for
it (R39, R43). -/
def nextPeriod (s : State) : State :=
  let next := s.tt.now + 1
  let now := if next % 1024 = 0 then max next (1024 * (s.tt.raiseTo.getD 0)) else next
  let boundary := decide (next % 1024 = 0)
  { s with tt := { s.tt with
    now := now
    raiseTo := if boundary then none else s.tt.raiseTo
    phaseStep := s.tt.phaseStep && !boundary } }

/-- The counters that count periods (Table 17-3). -/
def countPeriod (s : State) : State :=
  let s1 := tallyAdd 0x00 0 1 s
  let s2 := if s1.period = 0 then tallyAdd 0x00 1 1 s1 else s1
  let s3 := if s2.tt.cycles ≠ 4000 then tallyAdd 0x03 2 1 s2 else s2
  if s3.through ∧ s3.pool.isSome then tallyAdd 0x05 4 1 s3 else s3

/-- What happens within a period and no command shows: correctable link errors, map lookups, cache misses, the Faculty clusters' clock
(Tables 1-1 and 17-3). Each is a free value. -/
def unseen (s : State) : State :=
  let n := s.freeAt
  let s1 : State := { s with
    bay := { s.bay with bays := s.bay.bays.map (fun (x : Nat × Bay) => (x.1, { x.2 with linkCorr := x.2.linkCorr + n x.1 })) }
    pwr := { s.pwr with facultyMhz := (List.range 4).map (fun i => 800 + 100 * (n (64 + i) % 17)) } }
  drawn 71 (tallyAdd 0x12 0 (n 68) (tallyAdd 0x0A 0 (n 69) (tallyAdd 0x0A 1 (n 70) s1)))

/-! ### Shares of a period (R52, R54, R565) -/

/-- A sheet reserves bursts on a channel in some period of the day. -/
def TtImage.usesChannel (i : TtImage) (x : TtSheet) (h c : Nat) : Bool :=
  (List.range 1024).any (fun p => (List.range 14).any (fun q => i.bursts x h c p q != 0))

/-- The channel of the windows that a channel serves: its own number; in a Bring-up sheet numbers are roles, and the n-th role
that has work is bound to the n-th channel in service (R83). -/
def State.channelRole (s : State) (i : TtImage) (x : TtSheet) (c : Nat) : Option Nat :=
  if x.kind = 5 then
    if (s.dram.ch c).up then
      ((List.range 16).filter (i.usesChannel x s.sys.slot))[((List.range c).filter (fun y => (s.dram.ch y).up)).length]?
    else none
  else some c

/-- The windows of each DRAM channel for the period (R565). -/
def windowsBell (s : State) : State :=
  match s.tt.active with
  | none => s
  | some i => { s with dram := { s.dram with channels := (List.range 16).map (fun c =>
      { s.dram.ch c with windows := (List.range 14).map (fun q =>
        (q, ((s.channelRole i (i.sheet s.tt.sheet) c).map (fun r => i.bursts (i.sheet s.tt.sheet) s.sys.slot r s.period q)).getD 0)) }) } }

/-- The Corridor shares of the period serve what was promised of them. -/
def sharesBell (s : State) : State :=
  { s with tt := { s.tt with
    mirrorUsed := s.tt.mirrorUsed - s.corridorShare 1
    returnUsed := s.tt.returnUsed - s.corridorShare 0 } }

/-- The shares of the service classes begin anew: the host-read share of each engine kind, the write share of the Corridor
(R55, R66). -/
def classBell (s : State) : State :=
  match s.tt.active with
  | none => { s with tt := { s.tt with
      classLeft := []
      classPool := [] } }
  | some i =>
    let x := i.sheet s.tt.sheet
    let cs := (List.range 256).filter (fun c => (i.serviceShare x c).isSome)
    let of := fun (write : Bool) (c : Nat) => ((i.serviceShare x c).map (fun h => if write then h.2 else h.1)).getD 0
    let s1 := engineKinds.foldl (fun t k => shareOut (resourceOf k) (t.capacityNow 1 k) (t.limitNow 1 k) (of false) cs t) s
    shareOut 5 (s1.corridorShare 1) (s1.corridorShare 1) (of true) cs s1

/-! ### The pair (R42, R130, R175, R176, R475) -/

/-- At the bell of period 0000 HEARTBEAT is sent (R475). -/
def heartbeatBell (s : State) : State :=
  if s.period = 0 ∧ s.corr.up = true ∧ s.pool.isSome = true then
    send (.heartbeat s.day ((s.tt.active.map (·.term)).getD 0) s.tt.sheet (rollCode s.corr.roll) (ceilDiv s.stg.dirty 1048576)
      s.tt.degraded.length) s
  else s

/-- The follower measures its offset every 64 periods (R42). -/
def syncBell (s : State) : State := if s.period % 64 = 0 ∧ s.paired = true ∧ s.leads = false then sendSync s else s

/-- The credit for the peer's next admissions (R130). -/
def creditBell (s : State) : State :=
  if s.paired then send (.credit s.creditNow ((s.tt.active.map (·.term)).getD 0)) s else s

/-- One batch of reference deltas for the CIDs the peer owns (R176). -/
def deltaBell (s : State) : State :=
  if s.paired ∧ s.ddp.deltas ≠ [] then
    send (.refDelta (s.ddp.deltas.take 253)) { s with ddp := { s.ddp with deltas := s.ddp.deltas.drop 253 } }
  else s

/-- Before its fourth period a RESOLVE of the peer whose outcome is not known is answered pending (R175). -/
def pendingBell (s : State) : State :=
  let due := fun (r : Resolution) => r.peer && !r.told && decide (r.at_ + 3 ≤ s.tt.now)
  let d := s.ddp
  let l := d.queue ++ d.blocked ++ d.indexing.map (·.1) ++ d.comparing.map (·.2.1) ++ d.inflight.flatMap (·.waiters)
  let mark := fun (r : Resolution) => if due r then { r with told := true } else r
  (l.filter due).foldl (fun t r => tellPending r t) { s with ddp := { d with
    queue := d.queue.map mark
    blocked := d.blocked.map mark
    indexing := d.indexing.map (fun x => (mark x.1, x.2))
    comparing := d.comparing.map (fun x => (x.1, (mark x.2.1, x.2.2)))
    inflight := d.inflight.map (fun e => { e with waiters := e.waiters.map mark }) } }

/-! ### The head's own service (R604, R611, R615, R618) -/

/-- The head enters service: the sheet for the degradations in force, and its host ports (Table 18-6). -/
def enterService (s : State) : State :=
  let s1 := if s.sheetFor = s.tt.sheetOf then s else putSheet s.sheetFor s
  let s2 : State := { s1 with
    pwr := { s1.pwr with stage := .service }
    stg := { s1.stg with vault := 0 }
    corr := { s1.corr with beatDay := s1.day, misses := 0 } }
  if bitAt 3 s2.pwr.refsPresent then allPorts s2 else s2

/-- The Bring-up sheet is in force at a day boundary once eight channels are in service; a head whose first term has taken effect
enters at once (Table 18-6, R554, R615). -/
def serviceBell (s : State) : State :=
  if s.pool.isSome ∧ s.tt.active.isSome ∧ 8 ≤ s.dram.trained.length ∧
      ((s.pwr.stage = .starting ∧ s.period = 0) ∨ s.pwr.stage = .control) then enterService s else s

/-- Host port islands leave the reset of SYS_ISLAND_RESET (R87). -/
def islandsBell (s : State) : State :=
  let up := s.pwr.islandsInReset.filter (fun i => 5 ≤ i && i ≤ 8)
  let s1 : State := { s with pwr := { s.pwr with islandsInReset := [] } }
  if s.pwr.stage = .service ∧ bitAt 3 s.pwr.refsPresent = true then up.foldl (fun t i => portLinks (i - 5) true t) s1 else s1

/-- The vault halves of this head: opened when it has none or new ones are due, erased when their images are retired, replaced
ones freed (R384, R387). -/
def halvesBell (s : State) : State :=
  let none_ := s.pool.any (fun p => p.halves.all (fun v => v.head != s.sys.slot || v.groups == 0))
  eraseHalves (freeOldHalves (if (none_ ∨ s.stg.halvesDue = true) ∧ s.tt.active.isSome then openHalves s else s))

/-- What a period boundary changes before the work of its period: the switches due, then the term whose day has come, then the
Vault sheet (R76, R81, R85). -/
def dayBell (s : State) : State :=
  let s1 := switchBell s
  let s2 := if s1.termDue then changeover s1 else s1
  if s2.vaultEntryDue then vaultSheet s2 else s2

/-- What a bell does on a head that serves. -/
def workBell (s : State) : State :=
  let s1 := diesBell (volumesAtBell s)
  let s2 := mergeStep (filterStep (splitStep (placeHomeless (placeWaiting (closeFull (closeWritten (pendingBell (deltaBell s1))))))))
  let s3 := startMoves (triageStep (spareBell (closeForThrough s2)))
  let s4 := retryGrants (halvesBell (throughBell (limitBell s3)))
  cacheBell (domainBell (exitBell (ps3Bell (if s4.handingOver then s4 else releaseHeld s4))))
where
  /-- members, lockers, replication and snapshots -/
  volumesAtBell (s : State) : State := replBell (lockerBell (memberBell s))

/-- What a bell does on a head whose supplies are valid, by stage. -/
def stageBell (s : State) : State :=
  match s.pwr.stage with
  | .off => s
  | .aonOnly => s
  | .recovery => s
  | .prefect => s
  | .control => heartbeatBell (postOps s)
  | .joining => syncBell (heartbeatBell (handoverBell (postOps s)))
  | .starting => heartbeatBell (postOps s)
  | .service => creditBell (syncBell (heartbeatBell (releaseBell (handoverEnds (handoverBell (armBell (postOps (workBell s))))))))
  | .earlyWait => s
  | .vault => writeTrailer (postOps s)
  | .sealed => s

/-- BELL_TICK: a new period starts (R38). With VDD_AON alone, or no supply, there is no bell; the oscillator alone runs on VDD_AON
(R600). -/
def execBellTick (s : State) : Host.Outcome State Fault Refusal :=
  match s.pwr.stage with
  | .off => .next s
  | .aonOnly => .next (runClock 16000 s)
  | _ =>
    let s1 := countPeriod (nextPeriod (runClock (4 * s.tt.cycles) (unseen s)))
    let s2 := boxBell (contextBell (classBell (sharesBell (dramBell (windowsBell (refillBuckets (dayBell (resetPinsBell { s1 with tally := s1.tally.zeroDue }))))))))
    .next (endCaptures (ledBell (avsBell (islandsBell (stageBell (loadBell (serviceBell s2)))))))

end Sys2Proof.Machine
end

