-- ==== Sys2Proof/Machine/Flags.lean ====
section
/-! DEFINITION. The registers of management BAR0 as a read returns them, and writes of registers (R14 to R17, Tables 0-4 and 0-5 and
the register tables of each chapter). -/

namespace Sys2Proof.Machine

/-! ### Packing -/

/-- A register from its fields: lowest bit, width, value. Bits not named read 0. -/
def packed (l : List (Nat × (Nat × Nat))) : Nat := sumNat (l.map (fun f => f.2.2 % 2 ^ f.2.1 * 2 ^ f.1))

/-- A field that saturates. -/
def sat (w v : Nat) : Nat := min v (2 ^ w - 1)

/-- A signed value in some bits. -/
def signed (w : Nat) (v : Int) : Nat := (v % (2 ^ w : Nat)).toNat

/-- The active lanes of a kind in service, or with a stand-in, as a mask; a lane group out of service, or whose power domain is
off (R21), takes its lanes along. -/
def State.lanesUp (s : State) (k : EngineKind) : Nat :=
  maskOf ((List.range (laneCount k).1).filter (fun n =>
    let l : LaneId := ⟨k, false, n⟩
    bitAt (groupDomain (laneGroup l)) s.pwr.domains && !s.lanes.groupsOut.contains (laneGroup l) && (s.lanes.out.filter (fun o => o.lane == l)).all (fun o => o.spare.isSome && decide (o.since ≤ s.tt.now))))

/-- The spares of a kind that stand in for a lane, as a mask. -/
def State.sparesBusy (s : State) (k : EngineKind) : Nat :=
  maskOf ((List.range (laneCount k).2).filter (fun n => s.lanes.out.any (fun o => o.spare == some ⟨k, true, n⟩ && decide (o.since ≤ s.tt.now))))

/-- Supplies are valid: outputs are driven and PLLs run (R599, R600). -/
def State.supplied (s : State) : Bool := !(s.pwr.stage == .off || s.pwr.stage == .aonOnly)

/-! ### Registers, by window -/

/-- TT_NOW, TT_TERM, TT_SHEET, TT_LOAD. -/
def readTt (s : State) (off : Nat) : Nat :=
  if off = 0x00 then s.ttNow else if off = 0x08 then s.ttTerm else if off = 0x10 then s.ttSheet else if off = 0x18 then s.ttLoad else 0

/-- HQ_PORT_MODE, HQ_DATA_TIMEOUT, HQ_INFLIGHT. -/
def readHq (s : State) (off : Nat) : Nat :=
  let m := fun (h : Nat) => s.hq.modes.getD h 0
  if off = 0x00 then packed [(16, (16, s.hq.linkUp)), (6, (2, m 3)), (4, (2, m 2)), (2, (2, m 1)), (0, (2, m 0))]
  else if off = 0x08 then s.hq.timeout % 2 ^ 16
  else if off = 0x10 then packed [(32, (23, s.hq.ctxs.length)), (0, (21, (s.hq.queues.filter (fun q => q.qid != 0)).length))]
  else 0

/-- STG_STATE, STG_DIRTY and the hold-up registers. -/
def readStg (s : State) (off : Nat) : Nat :=
  let t := s.stg
  if off = 0x00 then packed [(32, (8, (s.pool.map (·.stagingGib)).getD 0)), (4, (4, s.throughReason)), (2, (2, t.vault)),
    (1, (1, flagBit s.peerAbsent)), (0, (1, flagBit s.through))]
  else if off = 0x08 then packed [(32, (32, t.limitMib)), (0, (32, ceilDiv t.dirty 1048576))]
  else if off = 0x10 then t.measRegister
  else if off = 0x18 then t.when_ % 2 ^ 58
  else if off = 0x20 then packed [(48, (16, t.floor)), (32, (16, t.vmin)), (24, (8, t.eff)), (12, (12, t.pdimm)), (0, (12, t.itest))]
  else if off = 0x28 then packed [(32, (32, if s.tt.active.isSome then s.flushRate else 0)), (0, (16, t.v0))]
  else 0

/-- DDP_FILTER, DDP_INDEX, DDP_INFLIGHT, DDP_SHED, DDP_OVERFLOW. -/
def readDdp (s : State) (off : Nat) : Nat :=
  let d := s.ddp
  if off = 0x00 then packed [(48, (8, d.q)), (32, (16, sat 16 (1024 * d.filter.length / 2 ^ d.q))),
    (24, (8, if d.fstate = 0 then 0 else if d.fstate = 1 then min 0xFE (256 * d.rebuilt / (s.rebuildHalves.length * 2 ^ d.n)) else 0xFF)), (0, (2, d.fstate))]
  else if off = 0x08 then packed [(48, (8, d.n)), (15, (33, d.delta.length)),
    (0, (2, if d.split.isSome then 2 else if d.sweep.isSome then 1 else 0))]
  else if off = 0x10 then packed [(32, (17, d.inflight.length)), (0, (19, d.indexing.length))]
  else if off = 0x18 then sat 48 d.shed
  else if off = 0x20 then sat 48 d.overflow
  else 0

/-- Lanes and errors of the coding engines. -/
def readSkx (s : State) (off : Nat) : Nat :=
  if off = 0x00 then packed [(32, (2, s.sparesBusy .enc)), (0, (32, s.lanesUp .enc))]
  else if off = 0x08 then packed [(48, (4, s.sparesBusy .dec)), (0, (48, s.lanesUp .dec))]
  else if off = 0x10 then packed [(48, (16, s.skx.status)), (40, (8, s.skx.part)), (32, (8, s.skx.lane)), (0, (17, s.skx.offset))]
  else if off = 0x18 then s.skx.when_ % 2 ^ 58
  else if off = 0x20 then sat 48 s.skx.count
  else 0

/-- The lockers past 2^47, lowest number first. -/
def Ciph.warned (c : Ciph) : List Nat := sortBy (· ≤ ·) ((c.lockers.filter (fun x => x.2.warned)).map (·.1))

/-- Lanes, contexts, failures and keys of the cipher engine. -/
def readCiph (s : State) (off : Nat) : Nat :=
  let c := s.ciph
  if off = 0x00 then packed [(24, (2, s.sparesBusy .cip)), (0, (24, s.lanesUp .cip))]
  else if off = 0x08 then packed [(32, (17, c.spilled)), (16, (11, (c.storeOf 1).length)), (0, (11, (c.storeOf 0).length))]
  else if off = 0x10 then packed [(48, (16, c.failStatus)), (40, (8, c.failLane)), (28, (12, c.failLocker))]
  else if off = 0x18 then sat 48 c.failCount
  else if off = 0x20 then packed [(48, (12, c.warned.head?.getD 0)), (47, (1, flagBit (!c.warned.isEmpty))),
    (46, (1, flagBit (c.lockers.any (fun x => x.2.state == .exhausted)))),
    (0, (13, (c.lockers.filter (fun x => x.2.state == .isOpen || x.2.state == .exhausted)).length))]
  else if off = 0x28 then sat 48 c.skipped
  else 0

/-- Lanes, contexts and errors of the digest engine. -/
def readDgst (s : State) (off : Nat) : Nat :=
  let n := fun (a b : Nat) => (s.ciph.digests.filter (fun d => a ≤ d.number && d.number ≤ b)).length
  if off = 0x00 then packed [(24, (2, s.sparesBusy .dig)), (0, (24, s.lanesUp .dig))]
  else if off = 0x08 then packed [(32, (9, n 64 255)), (16, (6, n 26 63)), (0, (5, n 0 25))]
  else if off = 0x10 then packed [(48, (16, s.ciph.digestLast)), (0, (48, sat 48 s.ciph.digestCount))]
  else 0

/-- The blocks of this head's forms in a state; Free ones are those no ledger entry says otherwise of. -/
def State.blocksIn (s : State) (st : BlkState) : Nat :=
  let mine := (s.ftl.blocks.filter (fun e => s.ownsDie (blkBay e.1) (blkDie e.1)))
  if st = .free then
    match s.tt.active with
    | none => 0
    | some i => sumNat (s.ownForms.map (fun f => 16 * s.blocksPerDie (i.form f).bay)) - (mine.filter (fun e => e.2.state != .free)).length
  else (mine.filter (fun e => e.2.state == st)).length

/-- The registers of FTL and of the volume directory. -/
def readFtl (s : State) (off : Nat) : Nat :=
  let f := s.ftl
  if off = 0x00 then s.epoch % 2 ^ 64
  else if off = 0x08 then f.durable % 2 ^ 64
  else if off = 0x10 then packed [(32, (16, f.tailMib)), (16, (16, ceilDiv f.tailBytes 1048576)), (0, (2, f.checkpoint))]
  else if off = 0x18 then packed [(56, (2, f.spareState)), (48, (8, if s.pool.isSome then f.sparePermille / 10 else 0)),
    (40, (8, sat 8 (if s.pool.isSome then s.wearOf none else 0))), (0, (32, sat 32 (f.blocks.filter (fun e => e.2.state == .retired)).length))]
  else if off = 0x20 then packed [(32, (32, sat 32 (s.blocksIn .free))), (0, (32, sat 32 (s.blocksIn .pendingErase)))]
  else if off = 0x28 then packed [(62, (2, f.triage)), (0, (48, sat 48 (s.debtMib true)))]
  else if off = 0x30 then packed [
    (32, (17, (f.roots.filter (fun r => r.kind == .volume || r.kind == .clone || r.kind == .replica)).length)),
    (21, (8, sat 8 s.repl.groups.length)), (0, (21, (f.roots.filter (fun r => r.kind == .snapshot)).length))]
  else if off = 0x38 then packed [(23, (1, flagBit f.sealFault)),
    (22, (1, flagBit (s.trust.holdEnd.any (fun t => decide (s.trust.oscNs < t))))), (0, (21, s.trust.seals.length))]
  else 0

/-- The registers of the parity and stripe engine. -/
def readEc (s : State) (off : Nat) : Nat :=
  let e := s.ec
  if off = 0x00 then packed [(8, (4, ((e.member e.sel).map (·.misses)).getD 0)), (0, (6, e.sel))]
  else if off = 0x08 then s.ecMember e.sel % 2 ^ 64
  else if off = 0x10 then packed [(60, (4, s.rebuildClass)), (0, (48, sat 48 (e.rebuild.length + e.rebuildTriads.length)))]
  else if off = 0x18 then packed [(56, (8, if s.patrolList.isEmpty then 0 else min 100 (100 * e.patrolDone / s.patrolList.length))),
    (0, (48, sat 48 e.mismatch))]
  else if off = 0x20 then sat 48 e.lost
  else if off = 0x28 then packed [(32, (32, sat 32 (e.groups.filter (fun g => g.id / 2 ^ 63 == s.sys.slot)).length)), (0, (2, e.checkpoint))]
  else 0

/-- BAY_LINK.STATE. -/
def bayCode : BayState → Nat
  | .absent => 0
  | .powering => 1
  | .training => 2
  | .up => 3
  | .degraded => 4
  | .down => 5
  | .unused => 6
  | .taken => 7

/-- The registers of the bay ports. -/
def readBay (s : State) (off : Nat) : Nat :=
  let b := s.bay.sel
  let y := s.bay.bayOf b
  if off = 0x00 then b % 64
  else if off = 0x08 then packed [(28, (4, bayCode y.state)), (24, (4, y.width)), (20, (4, y.widthLoaded)), (16, (4, y.rate)), (0, (16, sat 16 y.retrains))]
  else if off = 0x10 then packed [(7, (1, flagBit (!(s.pins.pin (attnPin b)).level))), (6, (1, flagBit (s.present b))), (5, (1, flagBit (y.perst && s.supplied))),
    (4, (1, flagBit y.pwren)), (3, (1, flagBit (s.pins.faulty (attnPin b)))), (2, (1, flagBit (s.pins.faulty (perstPin b)))),
    (1, (1, flagBit (s.pins.faulty (pwrenPin b)))), (0, (1, flagBit (s.pins.faulty (prsntPin b))))]
  else if off = 0x18 then sumNat ((List.range 16).map (fun q => s.bay.quads.getD q 0 % 16 * 16 ^ q))
  else if off = 0x20 then packed [(48, (16, sat 16 y.fenced)), (24, (24, sat 24 y.uncorr)), (0, (24, sat 24 y.linkCorr))]
  else 0

/-- The registers of the Corridor. -/
def readCorr (s : State) (off : Nat) : Nat :=
  let c := s.corr
  if off = 0x00 then packed [(32, (32, c.inverted)), (28, (4, c.link)), (22, (6, c.lanes)), (21, (1, flagBit c.reversed)), (0, (16, sat 16 c.retrains))]
  else if off = 0x08 then s.corrRollcall
  else if off = 0x10 then s.corrArbRound
  else if off = 0x18 then s.corrArbResult
  else if off = 0x20 then packed [(32, (2, if s.tt.cycles = 3999 then 1 else if s.tt.cycles = 4001 then 2 else 0)), (0, (32, signed 32 s.tt.offset))]
  else if off = 0x28 then s.corrFed
  else 0

/-- A mailbox's status. -/
def readMbx (s : State) (b : Binding) (area : Option Nat) : Nat :=
  packed [(32, (7, (s.cpi.accepted.filter (fun p => p.binding == b)).length)), (0, (1, flagBit area.isSome))]

/-- The registers of Prefect. -/
def readPfm (s : State) (off : Nat) : Nat :=
  let t := s.trust
  if off = 0x00 then packed [(60, (4, t.fuses.lifecycle)), (56, (4, t.stage)), (3, (1, flagBit t.activation.isSome)),
    (1, (1, t.facultySlot)), (0, (1, t.prefectSlot))]
  else if off = 0x08 then packed [(48, (16, t.facultyRun)), (32, (16, t.prefectRun)), (16, (16, t.fuses.ctr1)), (0, (16, t.fuses.ctr0))]
  else if off = 0x10 then packed [(20, (20, t.fuses.revoked)), (0, (20, t.matched))]
  else if off = 0x20 then readMbx s .pfm s.cpi.pfmArea
  else 0

/-- The registers of the control packet interface. -/
def readCpi (s : State) (off : Nat) : Nat :=
  let c := s.cpi
  if off = 0x00 then readMbx s .cpi c.cpiArea
  else if off = 0x10 then packed [(48, (16, statusCode c.lastStatus)), (32, (16, c.lastOpcode)), (0, (32, c.lastTag))]
  else if off = 0x18 then packed [(32, (13, c.accepted.length + c.peerInflight)), (16, (16, (c.bindings.filter (fun r => r.lostAt.isNone)).length)), (0, (16, c.claims.length))]
  else 0

/-- The code of a DIMM kind. -/
def kindCode : DimmKind → Nat
  | .rdimm => 1
  | .mrdimm => 2
  | .other => 3

/-- The channel of the reference DIMM. -/
def Dram.refChannel (d : Dram) : Channel := (d.channels.find? (fun c => c.dimm.isSome)).getD Channel.reset

/-- The registers of the DRAM controller. -/
def readDram (s : State) (off : Nat) : Nat :=
  let d := s.dram
  let c := d.ch d.chSel
  let r := d.refChannel
  if off = 0x00 then packed [(24, (10, d.dimmGib)), (20, (4, if r.up then r.rate else 0)), (18, (2, (r.dimm.map (fun x => kindCode x.kind)).getD 0)),
    (16, (2, d.rateCap)), (15, (1, flagBit d.mapLock)), (8, (4, d.grain)), (0, (8, d.srIdle))]
  else if off = 0x08 then d.chSel % 16
  else if off = 0x10 then packed [(60, (4, channelCode c.state)), (56, (4, c.rate)), (48, (8, signed 8 c.temp)),
    (44, (4, (c.debts.map (·.2)).foldl max 0)), (43, (1, flagBit c.selfRefresh)), (42, (1, flagBit c.refsb)), (16, (16, sat 16 c.retrains))]
  else if off = 0x18 then packed [(58, (6, c.lastDevice)), (56, (2, c.lastRank)), (48, (8, sat 8 c.uncorr)), (0, (48, sat 48 c.corr))]
  else if off = 0x20 then packed [(63, (1, flagBit d.eccValid)), (0, (48, d.eccHpa))]
  else if off = 0x28 then packed [(60, (4, d.evacChannel)), (58, (2, match d.evacPhase with
    | .none => 0
    | .copyingOut => 1
    | .out => 2
    | .copyingHome => 3)), (0, (32, d.evacDone))]
  else if off = 0x30 then packed [(48, (4, c.lastPort)), (0, (48, sat 48 c.panics))]
  else 0

/-- The 64-bit word at an offset of DIARY_WINDOW: of the 128 records from the cursor onward (R587). -/
def State.diaryWindow (s : State) (off : Nat) : Nat :=
  let n := s.diary.cursor + (off - 0x1000) / 32
  if n < s.diary.oldest ∨ s.diary.head ≤ n then 0
  else
    match s.diary.ring[s.diary.head - 1 - n]? with
    | none => 0
    | some r => fieldAt r.bytes (off % 32 / 8 * 8) 8

/-- The registers of the Diary. -/
def readDiary (s : State) (off : Nat) : Nat :=
  let d := s.diary
  if off = 0x00 then d.head % 2 ^ 64
  else if off = 0x08 then d.oldest % 2 ^ 64
  else if off = 0x10 then d.cursor % 2 ^ 64
  else if off = 0x18 then packed [(32, (32, sat 32 d.missed)), (16, (13, d.pocket.length)), (0, (1, flagBit d.frozen))]
  else if 0x1000 ≤ off ∧ off < 0x2000 then s.diaryWindow off
  else 0

/-- The registers of the Tally. -/
def readTally (s : State) (off : Nat) : Nat :=
  let t := s.tally
  let w := (getKey t.bwSel t.windows).getD ⟨0, 0, 0, 0, 0, 0, 0, 0⟩
  if off = 0x00 then packed [(48, (16, sat 16 t.skew)), (0, (48, t.sweepNo))]
  else if off = 0x08 then t.bwSel % 16
  else if off = 0x10 then packed [(30, (2, w.state)), (16, (11, w.days)), (0, (8, w.port))]
  else if off = 0x18 then w.bytesIn % 2 ^ 64
  else if off = 0x20 then w.bytesOut % 2 ^ 64
  else if off = 0x28 then w.wait % 2 ^ 64
  else if off = 0x30 then w.start % 2 ^ 58
  else if off = 0x38 then (if w.state = 3 then w.stop % 2 ^ 58 else 0)
  else 0

/-- The registers of rails, domains, AVS and resets. -/
def readPwr (s : State) (off : Nat) : Nat :=
  let p := s.pwr
  if off = 0x00 then packed [(32, (9, p.tripped)), (0, (9, p.inRange))]
  else if off = 0x08 then packed [(60, (4, p.tripRail)), (59, (1, flagBit p.tripHigh)), (0, (58, p.tripWhen))]
  else if off = 0x10 then p.domains % 2 ^ 64
  else if off = 0x18 then p.domains / 2 ^ 64 % 2 ^ 32
  else if off = 0x20 then packed [(32, (16, p.avsMeasured)), (0, (16, p.avsTarget))]
  else if off = 0x28 then packed [(62, (2, p.resetKind)), (58, (4, p.resetCause)), (0, (58, p.resetWhen))]
  else 0

/-- The reference of an island (Table 18-3), as CLK_ISLAND.REF. -/
def islandRef (i : Nat) : Nat :=
  if 5 ≤ i ∧ i ≤ 8 then 3 else if i = 21 ∨ i = 22 then 1 else if 23 ≤ i ∧ i ≤ 25 then 2 else 0

/-- The clock of an island [MHz] (Table 1-1, R606). -/
def State.islandMhz (s : State) (i : Nat) : Nat :=
  if i = 0 then 1000
  else if i ≤ 4 then s.pwr.facultyMhz.getD (i - 1) 0
  else if i ≤ 8 then 1250
  else if i ≤ 20 then 1600
  else if i ≤ 25 then 1000
  else if i ≤ 29 then rateMts (((List.range 4).map (fun c => (s.dram.ch (4 * (i - 26) + c)).rate)).foldl max 0) / 8
  else if i = 30 then 800
  else 250

/-- The registers of references and island clocks. -/
def readClk (s : State) (off : Nat) : Nat :=
  let p := s.pwr
  let i := p.clkSel
  let on := s.islandOn i && s.supplied
  let source := bitAt (islandRef i) p.refsPresent || (islandRef i == 0 && p.internalOsc)
  if off = 0x00 then packed [(16, (1, flagBit p.internalOsc)), (8, (4, p.refsLost)), (0, (4, p.refsPresent))]
  else if off = 0x08 then i % 32
  else if off = 0x10 then packed [(48, (16, if on then s.islandMhz i else 0)), (46, (2, islandRef i)), (45, (1, flagBit (on && source))),
    (44, (1, flagBit (p.islandsInReset.contains i)))]
  else 0

/-- The registers of the protected bank and of temperature. -/
def readPins (s : State) (off : Nat) : Nat :=
  let p := s.pins
  let x := p.pin p.sel
  if off = 0x00 then p.sel % 512
  else if off = 0x08 then packed [(12, (4, faultCode x.fault)), (7, (1, flagBit (isLed p.sel && (s.cpi.holder (ledResource p.sel)).isSome))),
    (6, (1, flagBit (x.driven && x.high))), (5, (1, flagBit x.driven)), (4, (1, flagBit x.level))]
  else if off = 0x10 then packed [(32, (9, (p.pins.filter (fun y => y.2.fault != .sound)).length)), (28, (4, faultCode p.lastKind)), (0, (9, p.lastPin))]
  else if off = 0x18 then packed [(40, (8, signed 8 p.hottest)), (32, (5, p.sensor)), (2, (1, flagBit p.thermtrip)), (1, (1, flagBit p.thermVault)),
    (0, (1, flagBit p.alert))]
  else 0

/-- What a read of a register returns, by the number of its block window and its offset there; an unassigned window and an offset
without a register read 0 (R15, R17, Table 0-5). -/
def readReg (s : State) (window off : Nat) : Nat :=
  if window = 0x01 then readPfm s off
  else if window = 0x02 then readCpi s off
  else if window = 0x03 then readTt s off
  else if window = 0x04 then readHq s off
  else if window = 0x05 then readStg s off
  else if window = 0x06 then readDdp s off
  else if window = 0x07 then readSkx s off
  else if window = 0x08 then readCiph s off
  else if window = 0x09 then readDgst s off
  else if window = 0x0A then readFtl s off
  else if window = 0x0B then readEc s off
  else if window = 0x0C then readBay s off
  else if window = 0x0D then readCorr s off
  else if window = 0x0E then readDram s off
  else if window = 0x0F ∧ 0x1000 ≤ off ∧ off < 0x2000 then fieldAt s.diary.window (off - 0x1000) 8
  else if window = 0x0F then readDiary s off
  else if window = 0x10 then readTally s off
  else if window = 0x11 then readPwr s off
  else if window = 0x12 then readClk s off
  else if window = 0x13 then readPins s off
  else 0

/-! ### Writes (Table 0-4) -/

/-- DRAM_CFG: the rate cap, the interleave grain until it is locked, and the idle time; values a field ignores leave it. -/
def writeDramCfg (v : Nat) (s : State) : State :=
  let cap := bitField 17 16 v
  let g := bitField 11 8 v
  let idle := bitField 7 0 v
  { s with dram := { s.dram with
    rateCap := if cap = 0 then s.dram.rateCap else cap
    grain := if s.dram.mapLock || decide (8 < g) then s.dram.grain else g
    srIdle := if idle = 0 then s.dram.srIdle else idle } }

/-- A register's bits that are written 1 are cleared. -/
def cleared (bits written : Nat) (w : Nat) : Nat :=
  maskOf ((List.range w).filter (fun i => bitAt i bits && !bitAt i written))

/-- What a write of a register does: fields RW take the value, bits W1C written 1 are cleared, all else is ignored. -/
def writeReg (window off v : Nat) (s : State) : State :=
  if window = 0x0B ∧ off = 0x00 then { s with ec := { s.ec with sel := bitField 5 0 v } }
  else if window = 0x0C ∧ off = 0x00 then { s with bay := { s.bay with sel := bitField 5 0 v } }
  else if window = 0x0E ∧ off = 0x00 then writeDramCfg v s
  else if window = 0x0E ∧ off = 0x08 then { s with dram := { s.dram with chSel := bitField 3 0 v } }
  else if window = 0x0F ∧ off = 0x10 then { s with diary := { s.diary with cursor := v } }
  else if window = 0x0F ∧ off = 0x18 then (if bitAt 0 v then freezeDiary s else thawDiary 2 s)
  else if window = 0x10 ∧ off = 0x08 then { s with tally := { s.tally with bwSel := bitField 3 0 v } }
  else if window = 0x11 ∧ off = 0x00 then { s with pwr := { s.pwr with tripped := cleared s.pwr.tripped (v / 2 ^ 32) 9 } }
  else if window = 0x12 ∧ off = 0x00 then { s with pwr := { s.pwr with refsLost := cleared s.pwr.refsLost (v / 2 ^ 8) 4 } }
  else if window = 0x12 ∧ off = 0x08 then { s with pwr := { s.pwr with clkSel := bitField 4 0 v } }
  else if window = 0x13 ∧ off = 0x00 then { s with pins := { s.pins with sel := bitField 8 0 v } }
  else s

/-- REGISTER_WRITE: a 64-bit write at an offset of a block window of management BAR0 (R16, R17). The doorbells of the mailboxes have
rows of their own. -/
def execRegisterWrite (window offset : Nat) (value : Word64) (s : State) : Host.Outcome State Fault Refusal :=
  .next (writeReg window offset value.toNat s)

end Sys2Proof.Machine
end

