-- ==== Sys2Proof/Machine/Dispatch.lean ====
section
/-! DEFINITION. One arm per command: a direct call of its meaning. -/

namespace Sys2Proof.Machine

/-- The effect of a command on everything but the queue. -/
def exec (i : Instr) (s : State) : Host.Outcome State Fault Refusal :=
  match i with
  | .suppliesValid env => Sys2Proof.Machine.execSuppliesValid env s
  | .facultyChunkLoad chunk => Sys2Proof.Machine.execFacultyChunkLoad chunk s
  | .coldReset cause env => Sys2Proof.Machine.execColdReset cause env s
  | .warmReset env => Sys2Proof.Machine.execWarmReset env s
  | .vddAonOnly => Sys2Proof.Machine.execVddAonOnly s
  | .supplyTrip rail high => Sys2Proof.Machine.execSupplyTrip rail high s
  | .pwrFailNLow => Sys2Proof.Machine.execPwrFailNLow s
  | .vaultSheetEntry => Sys2Proof.Machine.execVaultSheetEntry s
  | .vaultSeal coldLow warmLow env => Sys2Proof.Machine.execVaultSeal coldLow warmLow env s
  | .vaultWarmStart env => Sys2Proof.Machine.execVaultWarmStart env s
  | .earlyPowerFail => Sys2Proof.Machine.execEarlyPowerFail s
  | .thermalVault temp island => Sys2Proof.Machine.execThermalVault temp island s
  | .thermtrip temp island => Sys2Proof.Machine.execThermtrip temp island s
  | .refclkLost ref => Sys2Proof.Machine.execRefclkLost ref s
  | .refclkRestored ref => Sys2Proof.Machine.execRefclkRestored ref s
  | .avsAdjust targetMv measuredMv => Sys2Proof.Machine.execAvsAdjust targetMv measuredMv s
  | .avsConfirmTimeout => Sys2Proof.Machine.execAvsConfirmTimeout s
  | .fullTrainingComplete => Sys2Proof.Machine.execFullTrainingComplete s
  | .vaultRestoreComplete => Sys2Proof.Machine.execVaultRestoreComplete s
  | .bellTick => Sys2Proof.Machine.execBellTick s
  | .epochEnd => Sys2Proof.Machine.execEpochEnd s
  | .epochSealWrite => Sys2Proof.Machine.execEpochSealWrite s
  | .termChangeover => Sys2Proof.Machine.execTermChangeover s
  | .sheetSwitch => Sys2Proof.Machine.execSheetSwitch s
  | .laneFault lane => Sys2Proof.Machine.execLaneFault lane s
  | .laneRotation lane => Sys2Proof.Machine.execLaneRotation lane s
  | .laneTestComplete lane pass => Sys2Proof.Machine.execLaneTestComplete lane pass s
  | .resourceReturnDue what => Sys2Proof.Machine.execResourceReturnDue what s
  | .ttStage b tag => Sys2Proof.Machine.execTtStage b tag s
  | .ttArm b tag peer => Sys2Proof.Machine.execTtArm b tag peer s
  | .ttDisarm b tag peer => Sys2Proof.Machine.execTtDisarm b tag peer s
  | .ttQuery b tag => Sys2Proof.Machine.execTtQuery b tag s
  | .capsuleReceive cntlid qid cid cap room => Sys2Proof.Machine.execCapsuleReceive cntlid qid cid cap room s
  | .capsuleFetch => Sys2Proof.Machine.execCapsuleFetch s
  | .metadataPagePrefetch cntlid qid => Sys2Proof.Machine.execMetadataPagePrefetch cntlid qid s
  | .fsnRequest number nsid tag cap host => Sys2Proof.Machine.execFsnRequest number nsid tag cap host s
  | .fsnGrant nsid tag seq => Sys2Proof.Machine.execFsnGrant nsid tag seq s
  | .writeDataArrival cntlid qid cid first data pi ok => Sys2Proof.Machine.execWriteDataArrival cntlid qid cid first data pi ok s
  | .dataInTimeout cntlid qid cid => Sys2Proof.Machine.execDataInTimeout cntlid qid cid s
  | .connectionError cntlid qid => Sys2Proof.Machine.execConnectionError cntlid qid s
  | .keepAliveExpiry cntlid => Sys2Proof.Machine.execKeepAliveExpiry cntlid s
  | .flush cntlid qid cid remoteDone => Sys2Proof.Machine.execFlush cntlid qid cid remoteDone s
  | .write cntlid qid cid => Sys2Proof.Machine.execWrite cntlid qid cid s
  | .read cntlid qid cid remote => Sys2Proof.Machine.execRead cntlid qid cid remote s
  | .compare cntlid qid cid remote => Sys2Proof.Machine.execCompare cntlid qid cid remote s
  | .compareAndWrite cntlid qid cid remote => Sys2Proof.Machine.execCompareAndWrite cntlid qid cid remote s
  | .writeZeroes cntlid qid cid => Sys2Proof.Machine.execWriteZeroes cntlid qid cid s
  | .datasetManagement cntlid qid cid => Sys2Proof.Machine.execDatasetManagement cntlid qid cid s
  | .verify cntlid qid cid remote => Sys2Proof.Machine.execVerify cntlid qid cid remote s
  | .reservationRegister cntlid qid cid => Sys2Proof.Machine.execReservationRegister cntlid qid cid s
  | .reservationReport cntlid qid cid => Sys2Proof.Machine.execReservationReport cntlid qid cid s
  | .reservationAcquire cntlid qid cid => Sys2Proof.Machine.execReservationAcquire cntlid qid cid s
  | .reservationRelease cntlid qid cid => Sys2Proof.Machine.execReservationRelease cntlid qid cid s
  | .getLogPage cntlid cid lid offset length peer => Sys2Proof.Machine.execGetLogPage cntlid cid lid offset length peer s
  | .identify cntlid cid cns nsid cntid => Sys2Proof.Machine.execIdentify cntlid cid cns nsid cntid s
  | .abort cntlid cid sqid target => Sys2Proof.Machine.execAbort cntlid cid sqid target s
  | .setFeatures cntlid cid fid nsid value data => Sys2Proof.Machine.execSetFeatures cntlid cid fid nsid value data s
  | .getFeatures cntlid cid fid nsid value => Sys2Proof.Machine.execGetFeatures cntlid cid fid nsid value s
  | .asyncEventRequest cntlid cid => Sys2Proof.Machine.execAsyncEventRequest cntlid cid s
  | .firmwareCommit cntlid cid slot action => Sys2Proof.Machine.execFirmwareCommit cntlid cid slot action s
  | .firmwareImageDownload cntlid cid offset data => Sys2Proof.Machine.execFirmwareImageDownload cntlid cid offset data s
  | .keepAlive cntlid cid => Sys2Proof.Machine.execKeepAlive cntlid cid s
  | .fabricsConnect port cntlid qid cid size kato hostNqn subNqn hostId => Sys2Proof.Machine.execFabricsConnect port cntlid qid cid size kato hostNqn subNqn hostId s
  | .propertyGet cntlid cid off => Sys2Proof.Machine.execPropertyGet cntlid cid off s
  | .propertySet cntlid cid off value => Sys2Proof.Machine.execPropertySet cntlid cid off value s
  | .disconnect cntlid cid => Sys2Proof.Machine.execDisconnect cntlid cid s
  | .controlReplyPoll cntlid cid tag => Sys2Proof.Machine.execControlReplyPoll cntlid cid tag s
  | .controlPacketSubmit cntlid cid data peerInflight => Sys2Proof.Machine.execControlPacketSubmit cntlid cid data peerInflight s
  | .controlReplyFetch cntlid cid tag => Sys2Proof.Machine.execControlReplyFetch cntlid cid tag s
  | .controlPayloadFetch cntlid cid tag offset length => Sys2Proof.Machine.execControlPayloadFetch cntlid cid tag offset length s
  | .powerStateChange => Sys2Proof.Machine.execPowerStateChange s
  | .ps3EntryComplete => Sys2Proof.Machine.execPs3EntryComplete s
  | .ps3EntryAbandon => Sys2Proof.Machine.execPs3EntryAbandon s
  | .ps3Exit => Sys2Proof.Machine.execPs3Exit s
  | .anaOwnershipMove group => Sys2Proof.Machine.execAnaOwnershipMove group s
  | .mirrorData number volume count flags seq lba blocks pi => Sys2Proof.Machine.execMirrorData number volume count flags seq lba blocks pi s
  | .mirrorAck number held => Sys2Proof.Machine.execMirrorAck number held s
  | .commit number mark => Sys2Proof.Machine.execCommit number mark s
  | .commitAck number => Sys2Proof.Machine.execCommitAck number s
  | .release l => Sys2Proof.Machine.execRelease l s
  | .credit blocks term through => Sys2Proof.Machine.execCredit blocks term through s
  | .vaultNotice time => Sys2Proof.Machine.execVaultNotice time s
  | .vaultDone time length => Sys2Proof.Machine.execVaultDone time length s
  | .vaultDoneTimeout => Sys2Proof.Machine.execVaultDoneTimeout s
  | .markList number marks => Sys2Proof.Machine.execMarkList number marks s
  | .withdraw number volume seq => Sys2Proof.Machine.execWithdraw number volume seq s
  | .messageResendTimeout number => Sys2Proof.Machine.execMessageResendTimeout number s
  | .destageAgeExpiry vol grain => Sys2Proof.Machine.execDestageAgeExpiry vol grain s
  | .destageStart vol grain => Sys2Proof.Machine.execDestageStart vol grain s
  | .fingerprintComplete job => Sys2Proof.Machine.execFingerprintComplete job s
  | .fingerprintResolve => Sys2Proof.Machine.execFingerprintResolve s
  | .resolve number domain verify through grain fp x => Sys2Proof.Machine.execResolve number domain verify through grain fp x s
  | .resolveAnswer grain cid outcome => Sys2Proof.Machine.execResolveAnswer grain cid outcome s
  | .resolvePendingTimeout grain => Sys2Proof.Machine.execResolvePendingTimeout grain s
  | .inflightWayFree => Sys2Proof.Machine.execInflightWayFree s
  | .indexReadComplete grain peer sound => Sys2Proof.Machine.execIndexReadComplete grain peer sound s
  | .mergeSweepStart => Sys2Proof.Machine.execMergeSweepStart s
  | .filterReplace => Sys2Proof.Machine.execFilterReplace s
  | .refDelta number l => Sys2Proof.Machine.execRefDelta number l s
  | .place number cid psa gen hasTail => Sys2Proof.Machine.execPlace number cid psa gen hasTail s
  | .encodeComplete job lane faulty => Sys2Proof.Machine.execEncodeComplete job lane faulty s
  | .decodeComplete job lane faulty => Sys2Proof.Machine.execDecodeComplete job lane faulty s
  | .slotDecryptComplete job lane sound => Sys2Proof.Machine.execSlotDecryptComplete job lane sound s
  | .slotEncryptComplete job lane => Sys2Proof.Machine.execSlotEncryptComplete job lane s
  | .usageGrantDraw locker => Sys2Proof.Machine.execUsageGrantDraw locker s
  | .hallPassEnd number start parts ended stored => Sys2Proof.Machine.execHallPassEnd number start parts ended stored s
  | .segmentVerify number start auth header seg => Sys2Proof.Machine.execSegmentVerify number start auth header seg s
  | .streamTagFail number => Sys2Proof.Machine.execStreamTagFail number s
  | .digestOpen prefect fn handle gen custom => Sys2Proof.Machine.execDigestOpen prefect fn handle gen custom s
  | .digestAbsorb number data => Sys2Proof.Machine.execDigestAbsorb number data s
  | .digestFinalise number => Sys2Proof.Machine.execDigestFinalise number s
  | .digestRead number length => Sys2Proof.Machine.execDigestRead number length s
  | .digestClose number => Sys2Proof.Machine.execDigestClose number s
  | .mrExtend faculty reg data => Sys2Proof.Machine.execMrExtend faculty reg data s
  | .lockerRotate b tag peer => Sys2Proof.Machine.execLockerRotate b tag peer s
  | .lockerWithdraw b tag peer => Sys2Proof.Machine.execLockerWithdraw b tag peer s
  | .lockerRestore b tag peer => Sys2Proof.Machine.execLockerRestore b tag peer s
  | .lockerQuery b tag => Sys2Proof.Machine.execLockerQuery b tag s
  | .checkpointStart => Sys2Proof.Machine.execCheckpointStart s
  | .checkpointPhase2 => Sys2Proof.Machine.execCheckpointPhase2 s
  | .sjCheckpointStart => Sys2Proof.Machine.execSjCheckpointStart s
  | .gcStart bay die => Sys2Proof.Machine.execGcStart bay die s
  | .blockEraseDue blk => Sys2Proof.Machine.execBlockEraseDue blk s
  | .psaResolveAgain job => Sys2Proof.Machine.execPsaResolveAgain job s
  | .retentionAccrue => Sys2Proof.Machine.execRetentionAccrue s
  | .calibrationDue blk page => Sys2Proof.Machine.execCalibrationDue blk page s
  | .refreshDue blk => Sys2Proof.Machine.execRefreshDue blk s
  | .timeTokenWaitExpiry => Sys2Proof.Machine.execTimeTokenWaitExpiry s
  | .spareStateChange => Sys2Proof.Machine.execSpareStateChange s
  | .stripeIdleClose group => Sys2Proof.Machine.execStripeIdleClose group s
  | .stripeExtend group => Sys2Proof.Machine.execStripeExtend group s
  | .groupOpen layout => Sys2Proof.Machine.execGroupOpen layout s
  | .reconstructionCombine job => Sys2Proof.Machine.execReconstructionCombine job s
  | .patrolStripe strips => Sys2Proof.Machine.execPatrolStripe strips s
  | .detentionProbe form die block page => Sys2Proof.Machine.execDetentionProbe form die block page s
  | .detentionTimeout bay => Sys2Proof.Machine.execDetentionTimeout bay s
  | .missingTimeout bay => Sys2Proof.Machine.execMissingTimeout bay s
  | .rebuildBlock sources => Sys2Proof.Machine.execRebuildBlock sources s
  | .lostSweep => Sys2Proof.Machine.execLostSweep s
  | .volumeOffline => Sys2Proof.Machine.execVolumeOffline s
  | .blpReadComplete d data tags => Sys2Proof.Machine.execBlpReadComplete d data tags s
  | .blpProgramComplete d => Sys2Proof.Machine.execBlpProgramComplete d s
  | .blpEraseComplete d => Sys2Proof.Machine.execBlpEraseComplete d s
  | .blpSuspendComplete d => Sys2Proof.Machine.execBlpSuspendComplete d s
  | .blpResumeComplete d => Sys2Proof.Machine.execBlpResumeComplete d s
  | .blpStatusComplete d record => Sys2Proof.Machine.execBlpStatusComplete d record s
  | .blpCalibrateComplete d offsets counts => Sys2Proof.Machine.execBlpCalibrateComplete d offsets counts s
  | .blpTelemetryComplete d page => Sys2Proof.Machine.execBlpTelemetryComplete d page s
  | .blpFenceComplete d => Sys2Proof.Machine.execBlpFenceComplete d s
  | .telemetryPoll => Sys2Proof.Machine.execTelemetryPoll s
  | .bayPresenceDetect bay => Sys2Proof.Machine.execBayPresenceDetect bay s
  | .bayPerstRelease bay => Sys2Proof.Machine.execBayPerstRelease bay s
  | .bayLinkUp bay width rate version => Sys2Proof.Machine.execBayLinkUp bay width rate version s
  | .bayLinkTrainTimeout bay => Sys2Proof.Machine.execBayLinkTrainTimeout bay s
  | .bayPresenceLost bay unplugged => Sys2Proof.Machine.execBayPresenceLost bay unplugged s
  | .bayPowerOffTimeout bay => Sys2Proof.Machine.execBayPowerOffTimeout bay s
  | .bayRetrainTimer bay => Sys2Proof.Machine.execBayRetrainTimer bay s
  | .bayLinkReturn bay width rate => Sys2Proof.Machine.execBayLinkReturn bay width rate s
  | .bayAttention bay cause => Sys2Proof.Machine.execBayAttention bay cause s
  | .bayLinkDegraded bay width rate => Sys2Proof.Machine.execBayLinkDegraded bay width rate s
  | .bayFullRetrain bay width rate => Sys2Proof.Machine.execBayFullRetrain bay width rate s
  | .witnessCasComplete bay old => Sys2Proof.Machine.execWitnessCasComplete bay old s
  | .corridorTrain own pool slot failed reversed inverted => Sys2Proof.Machine.execCorridorTrain own pool slot failed reversed inverted s
  | .corridorRefusedRetry => Sys2Proof.Machine.execCorridorRefusedRetry s
  | .corridorLinkDown => Sys2Proof.Machine.execCorridorLinkDown s
  | .heartbeat day term sheet state dirtyMib degradations => Sys2Proof.Machine.execHeartbeat day term sheet state dirtyMib degradations s
  | .heartbeatMissed => Sys2Proof.Machine.execHeartbeatMissed s
  | .arbitrationCount => Sys2Proof.Machine.execArbitrationCount s
  | .arbitrationRetry => Sys2Proof.Machine.execArbitrationRetry s
  | .failoverReplay => Sys2Proof.Machine.execFailoverReplay s
  | .failoverTakeover => Sys2Proof.Machine.execFailoverTakeover s
  | .bellSync day sendCycle echoed here => Sys2Proof.Machine.execBellSync day sendCycle echoed here s
  | .sheetTrigger number kind action index detected switchDay => Sys2Proof.Machine.execSheetTrigger number kind action index detected switchDay s
  | .snapFence number tag bell roots => Sys2Proof.Machine.execSnapFence number tag bell roots s
  | .ttImage number term offset bytes => Sys2Proof.Machine.execTtImage number term offset bytes s
  | .ttVerdict term status detail => Sys2Proof.Machine.execTtVerdict term status detail s
  | .sbChange number offset bytes => Sys2Proof.Machine.execSbChange number offset bytes s
  | .anaMove number group owner boundary next => Sys2Proof.Machine.execAnaMove number group owner boundary next s
  | .hello number record => Sys2Proof.Machine.execHello number record s
  | .releaseNotice time => Sys2Proof.Machine.execReleaseNotice time s
  | .resyncDone lastNumber epoch head seq => Sys2Proof.Machine.execResyncDone lastNumber epoch head seq s
  | .journal number l => Sys2Proof.Machine.execJournal number l s
  | .journalAck number => Sys2Proof.Machine.execJournalAck number s
  | .prefectRecord number record => Sys2Proof.Machine.execPrefectRecord number record s
  | .forbiddenPeerMessage => Sys2Proof.Machine.execForbiddenPeerMessage s
  | .fedHeartbeatSend => Sys2Proof.Machine.execFedHeartbeatSend s
  | .fedHeartbeat chip state rosterNo token => Sys2Proof.Machine.execFedHeartbeat chip state rosterNo token s
  | .fedUnreachable chip => Sys2Proof.Machine.execFedUnreachable chip s
  | .headAdopt b tag => Sys2Proof.Machine.execHeadAdopt b tag s
  | .headRelease b tag => Sys2Proof.Machine.execHeadRelease b tag s
  | .fedRosterLoad b tag => Sys2Proof.Machine.execFedRosterLoad b tag s
  | .fedTimeToken b tag => Sys2Proof.Machine.execFedTimeToken b tag s
  | .fedQuery b tag => Sys2Proof.Machine.execFedQuery b tag s
  | .clockRecordWrite => Sys2Proof.Machine.execClockRecordWrite s
  | .lockstepMismatch => Sys2Proof.Machine.execLockstepMismatch s
  | .keyEnroll b tag => Sys2Proof.Machine.execKeyEnroll b tag s
  | .keyRevoke b tag => Sys2Proof.Machine.execKeyRevoke b tag s
  | .quote b tag => Sys2Proof.Machine.execQuote b tag s
  | .mrRead b tag => Sys2Proof.Machine.execMrRead b tag s
  | .identityGet b tag => Sys2Proof.Machine.execIdentityGet b tag s
  | .escrowExport b tag => Sys2Proof.Machine.execEscrowExport b tag s
  | .rootImport b tag copy media => Sys2Proof.Machine.execRootImport b tag copy media s
  | .decommission b tag => Sys2Proof.Machine.execDecommission b tag s
  | .fwDownload b tag => Sys2Proof.Machine.execFwDownload b tag s
  | .fwActivate b tag => Sys2Proof.Machine.execFwActivate b tag s
  | .clusterReport island healthy => Sys2Proof.Machine.execClusterReport island healthy s
  | .clusterReportTimeout island => Sys2Proof.Machine.execClusterReportTimeout island s
  | .pfwDownload b tag => Sys2Proof.Machine.execPfwDownload b tag s
  | .pfwActivate b tag => Sys2Proof.Machine.execPfwActivate b tag s
  | .fwQuery b tag => Sys2Proof.Machine.execFwQuery b tag s
  | .cpiSubmit packet payload peerInflight => Sys2Proof.Machine.execCpiSubmit packet payload peerInflight s
  | .cpiAck => Sys2Proof.Machine.execCpiAck s
  | .pfmSubmit packet payload peerInflight => Sys2Proof.Machine.execPfmSubmit packet payload peerInflight s
  | .pfmAck => Sys2Proof.Machine.execPfmAck s
  | .mctpMessage endpoint length body peerInflight => Sys2Proof.Machine.execMctpMessage endpoint length body peerInflight s
  | .pieceTimeout b => Sys2Proof.Machine.execPieceTimeout b s
  | .replyRetentionExpiry b tag => Sys2Proof.Machine.execReplyRetentionExpiry b tag s
  | .claimBindingTimeout b => Sys2Proof.Machine.execClaimBindingTimeout b s
  | .sysInfo b tag => Sys2Proof.Machine.execSysInfo b tag s
  | .sysPortMode b tag => Sys2Proof.Machine.execSysPortMode b tag s
  | .sysBinding b tag peer => Sys2Proof.Machine.execSysBinding b tag peer s
  | .sysSubsystem b tag peer => Sys2Proof.Machine.execSysSubsystem b tag peer s
  | .sysDataTimeout b tag peer => Sys2Proof.Machine.execSysDataTimeout b tag peer s
  | .sysHoldupCfg b tag => Sys2Proof.Machine.execSysHoldupCfg b tag s
  | .sysHoldupMeasure b tag sense => Sys2Proof.Machine.execSysHoldupMeasure b tag sense s
  | .holdupMeasureScheduled sense => Sys2Proof.Machine.execHoldupMeasureScheduled sense s
  | .holdupMeasureComplete va v10 v5 v20 isOpen => Sys2Proof.Machine.execHoldupMeasureComplete va v10 v5 v20 isOpen s
  | .holdupRetryTimer sense => Sys2Proof.Machine.execHoldupRetryTimer sense s
  | .sysClaims b tag => Sys2Proof.Machine.execSysClaims b tag s
  | .sysIslandReset b tag => Sys2Proof.Machine.execSysIslandReset b tag s
  | .cpPayloadFetch b tag => Sys2Proof.Machine.execCpPayloadFetch b tag s
  | .poolForm b tag peer => Sys2Proof.Machine.execPoolForm b tag peer s
  | .poolExtend b tag peer => Sys2Proof.Machine.execPoolExtend b tag peer s
  | .memberFail b tag peer => Sys2Proof.Machine.execMemberFail b tag peer s
  | .bayWidthSet b tag => Sys2Proof.Machine.execBayWidthSet b tag s
  | .bayPower b tag => Sys2Proof.Machine.execBayPower b tag s
  | .poolGrowFilter b tag peer => Sys2Proof.Machine.execPoolGrowFilter b tag peer s
  | .poolGrowIndex b tag peer => Sys2Proof.Machine.execPoolGrowIndex b tag peer s
  | .poolQuery b tag => Sys2Proof.Machine.execPoolQuery b tag s
  | .poolErase b tag peer => Sys2Proof.Machine.execPoolErase b tag peer s
  | .moduleUnform b tag => Sys2Proof.Machine.execModuleUnform b tag s
  | .volCreate b tag peer => Sys2Proof.Machine.execVolCreate b tag peer s
  | .volDelete b tag peer => Sys2Proof.Machine.execVolDelete b tag peer s
  | .volResize b tag peer => Sys2Proof.Machine.execVolResize b tag peer s
  | .volSet b tag peer => Sys2Proof.Machine.execVolSet b tag peer s
  | .anaMoveGroup b tag => Sys2Proof.Machine.execAnaMoveGroup b tag s
  | .domainCreate b tag peer => Sys2Proof.Machine.execDomainCreate b tag peer s
  | .domainDelete b tag peer => Sys2Proof.Machine.execDomainDelete b tag peer s
  | .domainVerify b tag peer => Sys2Proof.Machine.execDomainVerify b tag peer s
  | .volQuery b tag => Sys2Proof.Machine.execVolQuery b tag s
  | .snapCreate b tag => Sys2Proof.Machine.execSnapCreate b tag s
  | .snapshotSettle tag peerReady => Sys2Proof.Machine.execSnapshotSettle tag peerReady s
  | .snapDelete b tag peer peerClock => Sys2Proof.Machine.execSnapDelete b tag peer peerClock s
  | .snapSeal b tag peer => Sys2Proof.Machine.execSnapSeal b tag peer s
  | .cloneCreate b tag peer => Sys2Proof.Machine.execCloneCreate b tag peer s
  | .snapQuery b tag => Sys2Proof.Machine.execSnapQuery b tag s
  | .replPartnerAdd b tag => Sys2Proof.Machine.execReplPartnerAdd b tag s
  | .replPartnerRemove b tag => Sys2Proof.Machine.execReplPartnerRemove b tag s
  | .replSessionOpen b tag => Sys2Proof.Machine.execReplSessionOpen b tag s
  | .replSessionClose b tag => Sys2Proof.Machine.execReplSessionClose b tag s
  | .replAsyncSend b tag => Sys2Proof.Machine.execReplAsyncSend b tag s
  | .replSyncSet b tag => Sys2Proof.Machine.execReplSyncSet b tag s
  | .migrateExport b tag => Sys2Proof.Machine.execMigrateExport b tag s
  | .migrateCutover b tag => Sys2Proof.Machine.execMigrateCutover b tag s
  | .replQuery b tag => Sys2Proof.Machine.execReplQuery b tag s
  | .offer port message => Sys2Proof.Machine.execOffer port message s
  | .accept reg message => Sys2Proof.Machine.execAccept reg message s
  | .prove reg message => Sys2Proof.Machine.execProve reg message s
  | .refuse reg status => Sys2Proof.Machine.execRefuse reg status s
  | .handshakeTimeout reg => Sys2Proof.Machine.execHandshakeTimeout reg s
  | .sessionRekey reg => Sys2Proof.Machine.execSessionRekey reg s
  | .segmentSendTimer reg => Sys2Proof.Machine.execSegmentSendTimer reg s
  | .beginTransfer session transfer root base snap fenceEpoch size domain flags until_ pool => Sys2Proof.Machine.execBeginTransfer session transfer root base snap fenceEpoch size domain flags until_ pool s
  | .fingerprints session transfer entries => Sys2Proof.Machine.execFingerprints session transfer entries s
  | .want session transfer grains => Sys2Proof.Machine.execWant session transfer grains s
  | .grain session transfer grain tier slot tail => Sys2Proof.Machine.execGrain session transfer grain tier slot tail s
  | .endTransfer session transfer entries digest => Sys2Proof.Machine.execEndTransfer session transfer entries digest s
  | .replCommit session transfer status snapshot digest => Sys2Proof.Machine.execReplCommit session transfer status snapshot digest s
  | .syncWrite session root count seq lba blocks pi => Sys2Proof.Machine.execSyncWrite session root count seq lba blocks pi s
  | .syncAck session root seq => Sys2Proof.Machine.execSyncAck session root seq s
  | .syncAckTimeout session root => Sys2Proof.Machine.execSyncAckTimeout session root s
  | .syncFence session snapshot bell listed => Sys2Proof.Machine.execSyncFence session snapshot bell listed s
  | .syncCheckpoint session => Sys2Proof.Machine.execSyncCheckpoint session s
  | .fractureResumeTimer session => Sys2Proof.Machine.execFractureResumeTimer session s
  | .migrateRepeatTimer session root => Sys2Proof.Machine.execMigrateRepeatTimer session root s
  | .keyAdopt session domain wrapped check => Sys2Proof.Machine.execKeyAdopt session domain wrapped check s
  | .replAbort session transfer status detail => Sys2Proof.Machine.execReplAbort session transfer status detail s
  | .diagDieOp b tag => Sys2Proof.Machine.execDiagDieOp b tag s
  | .diagLaneTest b tag => Sys2Proof.Machine.execDiagLaneTest b tag s
  | .diagLaneGroup b tag => Sys2Proof.Machine.execDiagLaneGroup b tag s
  | .diagDramChannel b tag => Sys2Proof.Machine.execDiagDramChannel b tag s
  | .diagBayGroup b tag => Sys2Proof.Machine.execDiagBayGroup b tag s
  | .diagDump b tag dump => Sys2Proof.Machine.execDiagDump b tag dump s
  | .diagPin b tag => Sys2Proof.Machine.execDiagPin b tag s
  | .diagCapture b tag => Sys2Proof.Machine.execDiagCapture b tag s
  | .diaryRead b tag => Sys2Proof.Machine.execDiaryRead b tag s
  | .diaryFreeze b tag => Sys2Proof.Machine.execDiaryFreeze b tag s
  | .diaryCtrlFreezeWrite bit => Sys2Proof.Machine.execDiaryCtrlFreezeWrite bit s
  | .diaryFreezeTimeout => Sys2Proof.Machine.execDiaryFreezeTimeout s
  | .diaryEvent code island arg => Sys2Proof.Machine.execDiaryEvent code island arg s
  | .tallyRead b tag => Sys2Proof.Machine.execTallyRead b tag s
  | .tallyConfig b tag => Sys2Proof.Machine.execTallyConfig b tag s
  | .tallySweep => Sys2Proof.Machine.execTallySweep s
  | .bwWindow b tag => Sys2Proof.Machine.execBwWindow b tag s
  | .bwWindowStart timer => Sys2Proof.Machine.execBwWindowStart timer s
  | .bwWindowEnd timer bytesIn bytesOut => Sys2Proof.Machine.execBwWindowEnd timer bytesIn bytesOut s
  | .reportCard b tag => Sys2Proof.Machine.execReportCard b tag s
  | .earlyWarningEval => Sys2Proof.Machine.execEarlyWarningEval s
  | .histogramMinute chip modules => Sys2Proof.Machine.execHistogramMinute chip modules s
  | .dramRefreshTick channel rank sub => Sys2Proof.Machine.execDramRefreshTick channel rank sub s
  | .dimmTempRead channel temp => Sys2Proof.Machine.execDimmTempRead channel temp s
  | .dramSelfRefreshIdle channel => Sys2Proof.Machine.execDramSelfRefreshIdle channel s
  | .dramCorrected channel rank device => Sys2Proof.Machine.execDramCorrected channel rank device s
  | .dramUncorrectable channel hpa data => Sys2Proof.Machine.execDramUncorrectable channel hpa data s
  | .dramScrub channel => Sys2Proof.Machine.execDramScrub channel s
  | .dramChannelOut channel => Sys2Proof.Machine.execDramChannelOut channel s
  | .dramChannelDead channel => Sys2Proof.Machine.execDramChannelDead channel s
  | .dramEvacCopyDone channel => Sys2Proof.Machine.execDramEvacCopyDone channel s
  | .dramTrainingDone channel pass => Sys2Proof.Machine.execDramTrainingDone channel pass s
  | .pinFaultDetect pin kind => Sys2Proof.Machine.execPinFaultDetect pin kind s
  | .pinOpenTest pin follows edge => Sys2Proof.Machine.execPinOpenTest pin follows edge s
  | .pinFaultClear pin => Sys2Proof.Machine.execPinFaultClear pin s
  | .fpLocate => Sys2Proof.Machine.execFpLocate s
  | .smbusRead reg => Sys2Proof.Machine.execSmbusRead reg s
  | .tapBypass => Sys2Proof.Machine.execTapBypass s
  | .tapIdcode => Sys2Proof.Machine.execTapIdcode s
  | .tapSamplePreload => Sys2Proof.Machine.execTapSamplePreload s
  | .tapExtest => Sys2Proof.Machine.execTapExtest s
  | .tapExtestPulse => Sys2Proof.Machine.execTapExtestPulse s
  | .tapExtestTrain => Sys2Proof.Machine.execTapExtestTrain s
  | .tapClamp => Sys2Proof.Machine.execTapClamp s
  | .tapHighz => Sys2Proof.Machine.execTapHighz s
  | .registerWrite window offset value => Sys2Proof.Machine.execRegisterWrite window offset value s
  | .cnpReceived cntlid qid => Sys2Proof.Machine.execCnpReceived cntlid qid s
  | .rosterReceived roster => Sys2Proof.Machine.execRosterReceived roster s
  | .keyAdoptWaitExpiry domain => Sys2Proof.Machine.execKeyAdoptWaitExpiry domain s
  | .deleteTicketHoldEnd => Sys2Proof.Machine.execDeleteTicketHoldEnd s
  | .pinDriveRestored pin => Sys2Proof.Machine.execPinDriveRestored pin s
  | .mgmtPerst => Sys2Proof.Machine.execMgmtPerst s
  | .corridorMessageDrop kind => Sys2Proof.Machine.execCorridorMessageDrop kind s

end Sys2Proof.Machine
end

