-- ==== Sys2Proof/Safety.lean ====
section
/-! DEFINITION. What every run keeps, whatever it is commanded: the waiting commands stay in order, a burned fuse stays
burned (R502), and the Diary stays within its ring and its side pocket (R580, R586). -/

namespace Sys2Proof.Machine

/-- Fuses only gain (R502): the life cycle and the counters do not go back, a revoked slot stays revoked, and a burned key
digest stays. -/
structure FusesGrow (a b : Fuses) : Prop where
  lifecycle : a.lifecycle ≤ b.lifecycle
  ctr0 : a.ctr0 ≤ b.ctr0
  ctr1 : a.ctr1 ≤ b.ctr1
  ctr2 : a.ctr2 ≤ b.ctr2
  ctr3 : a.ctr3 ≤ b.ctr3
  revoked : ∀ n, bitAt n a.revoked = true → bitAt n b.revoked = true
  digests : ∀ n d, getKey n a.digests = some d → getKey n b.digests = some d
  scanOff : a.scanOff = true → b.scanOff = true

/-- The Diary within its bounds: the ring holds the newest records, at most 1,048,576 of them and as many as were ever
written below that (R580); the side pocket holds at most 4,096, and outside a freeze nothing (R586). -/
structure DiaryOk (d : Diary) : Prop where
  ring : d.ring.length = min d.head diaryRing
  pocket : d.pocket.length ≤ diaryPocket
  thawed : d.frozen = false → d.pocket = [] ∧ d.missed = 0

/-- What holds between a state and one that commands have led to from it. -/
structure Keeps (s t : State) : Prop where
  pending : t.pending = s.pending
  fuses : FusesGrow s.trust.fuses t.trust.fuses
  diary : DiaryOk s.diary → DiaryOk t.diary

/-- The blocks of State a command may touch. -/
structure Touch where
  sys : Bool := false
  pwr : Bool := false
  pins : Bool := false
  dram : Bool := false
  trust : Bool := false
  cpi : Bool := false
  diary : Bool := false
  tally : Bool := false
  tt : Bool := false
  lanes : Bool := false
  stg : Bool := false
  ddp : Bool := false
  ftl : Bool := false
  ec : Bool := false
  bay : Bool := false
  pool : Bool := false
  saved : Bool := false
  ciph : Bool := false
  skx : Bool := false
  jobs : Bool := false
  hq : Bool := false
  repl : Bool := false
  corr : Bool := false
  out : Bool := false
  draws : Bool := false
  deriving DecidableEq, Repr

/-- Every block of State. -/
@[reducible] def Touch.all : Touch :=
  { sys := true, pwr := true, pins := true, dram := true, trust := true, cpi := true, diary := true, tally := true, tt := true, lanes := true, stg := true, ddp := true, ftl := true, ec := true, bay := true, pool := true, saved := true, ciph := true, skx := true, jobs := true, hq := true, repl := true, corr := true, out := true, draws := true }

/-- Every block of `P` is one of `Q`. -/
def Touch.within (P Q : Touch) : Bool :=
  (!P.sys || Q.sys) && ((!P.pwr || Q.pwr) && ((!P.pins || Q.pins) && ((!P.dram || Q.dram) && ((!P.trust || Q.trust) && ((!P.cpi || Q.cpi) && ((!P.diary || Q.diary) && ((!P.tally || Q.tally) && ((!P.tt || Q.tt) && ((!P.lanes || Q.lanes) && ((!P.stg || Q.stg) && ((!P.ddp || Q.ddp) && ((!P.ftl || Q.ftl) && ((!P.ec || Q.ec) && ((!P.bay || Q.bay) && ((!P.pool || Q.pool) && ((!P.saved || Q.saved) && ((!P.ciph || Q.ciph) && ((!P.skx || Q.skx) && ((!P.jobs || Q.jobs) && ((!P.hq || Q.hq) && ((!P.repl || Q.repl) && ((!P.corr || Q.corr) && ((!P.out || Q.out) && ((!P.draws || Q.draws)))))))))))))))))))))))))

/-- The frame of a command: the queue's rest stands, and every block of State that is not one of `P` is as it was. -/
structure OnlyChanges (P : Touch) (s t : State) : Prop where
  pending : t.pending = s.pending
  sys : P.sys = true ∨ t.sys = s.sys
  pwr : P.pwr = true ∨ t.pwr = s.pwr
  pins : P.pins = true ∨ t.pins = s.pins
  dram : P.dram = true ∨ t.dram = s.dram
  trust : P.trust = true ∨ t.trust = s.trust
  cpi : P.cpi = true ∨ t.cpi = s.cpi
  diary : P.diary = true ∨ t.diary = s.diary
  tally : P.tally = true ∨ t.tally = s.tally
  tt : P.tt = true ∨ t.tt = s.tt
  lanes : P.lanes = true ∨ t.lanes = s.lanes
  stg : P.stg = true ∨ t.stg = s.stg
  ddp : P.ddp = true ∨ t.ddp = s.ddp
  ftl : P.ftl = true ∨ t.ftl = s.ftl
  ec : P.ec = true ∨ t.ec = s.ec
  bay : P.bay = true ∨ t.bay = s.bay
  pool : P.pool = true ∨ t.pool = s.pool
  saved : P.saved = true ∨ t.saved = s.saved
  ciph : P.ciph = true ∨ t.ciph = s.ciph
  skx : P.skx = true ∨ t.skx = s.skx
  jobs : P.jobs = true ∨ t.jobs = s.jobs
  hq : P.hq = true ∨ t.hq = s.hq
  repl : P.repl = true ∨ t.repl = s.repl
  corr : P.corr = true ∨ t.corr = s.corr
  out : P.out = true ∨ t.out = s.out
  draws : P.draws = true ∨ t.draws = s.draws

/-- The blocks of State that each command may change, all its forms and all its ways of being answered together. -/
def footprint : Instr → Touch
  | .suppliesValid .. => Touch.all
  | .facultyChunkLoad .. => { pwr := true, trust := true, tally := true, ciph := true }
  | .coldReset .. => Touch.all
  | .warmReset .. => Touch.all
  | .vddAonOnly => Touch.all
  | .supplyTrip .. => { pwr := true, pins := true, dram := true, trust := true, cpi := true, diary := true, tally := true, tt := true, stg := true, ftl := true, bay := true, ciph := true, hq := true, corr := true, out := true }
  | .pwrFailNLow => { pwr := true, pins := true, dram := true, trust := true, cpi := true, diary := true, tally := true, tt := true, stg := true, ftl := true, bay := true, ciph := true, hq := true, corr := true, out := true }
  | .vaultSheetEntry => { pwr := true, trust := true, cpi := true, diary := true, tally := true, tt := true, stg := true, ftl := true, ec := true, bay := true, pool := true, ciph := true, skx := true, jobs := true, hq := true, repl := true, corr := true, out := true, draws := true }
  | .vaultSeal .. => Touch.all
  | .vaultWarmStart .. => Touch.all
  | .earlyPowerFail => { pwr := true, dram := true, cpi := true, bay := true, hq := true }
  | .thermalVault .. => { pwr := true, pins := true, dram := true, trust := true, cpi := true, diary := true, tally := true, tt := true, stg := true, ftl := true, bay := true, ciph := true, hq := true, corr := true, out := true }
  | .thermtrip .. => { pins := true }
  | .refclkLost .. => { pwr := true, pins := true, dram := true, trust := true, cpi := true, diary := true, tally := true, tt := true, stg := true, ddp := true, ftl := true, ec := true, bay := true, pool := true, ciph := true, jobs := true, hq := true, repl := true, corr := true, out := true, draws := true }
  | .refclkRestored .. => { pwr := true, tally := true, tt := true, bay := true, hq := true, corr := true }
  | .avsAdjust .. => { pwr := true, out := true }
  | .avsConfirmTimeout => { pwr := true }
  | .fullTrainingComplete => { trust := true, tally := true, tt := true, corr := true, out := true }
  | .vaultRestoreComplete => { trust := true, tally := true, stg := true, bay := true, pool := true, corr := true, out := true }
  | .bellTick => { pwr := true, pins := true, dram := true, trust := true, cpi := true, diary := true, tally := true, tt := true, lanes := true, stg := true, ddp := true, ftl := true, ec := true, bay := true, pool := true, ciph := true, skx := true, jobs := true, hq := true, repl := true, corr := true, out := true, draws := true }
  | .epochEnd => { ftl := true }
  | .epochSealWrite => { trust := true, diary := true, tally := true, stg := true, ddp := true, ftl := true, ec := true, bay := true, pool := true, saved := true, ciph := true, jobs := true, hq := true, corr := true, out := true }
  | .termChangeover => { trust := true, diary := true, tally := true, tt := true, stg := true, ftl := true, ec := true, bay := true, pool := true, corr := true, out := true }
  | .sheetSwitch => { dram := true, diary := true, tally := true, tt := true, lanes := true, ec := true, bay := true, corr := true }
  | .laneFault .. => { trust := true, diary := true, tally := true, tt := true, lanes := true, corr := true, out := true }
  | .laneRotation .. => { trust := true, diary := true, tally := true, tt := true, lanes := true, corr := true, out := true }
  | .laneTestComplete .. => { trust := true, cpi := true, diary := true, tally := true, tt := true, lanes := true, corr := true, out := true }
  | .resourceReturnDue .. => { trust := true, tally := true, tt := true, corr := true, out := true }
  | .ttStage .. => { trust := true, cpi := true, diary := true, tally := true, tt := true, corr := true, out := true }
  | .ttArm .. => { trust := true, cpi := true, diary := true, tally := true, tt := true, ftl := true, bay := true, pool := true, corr := true, out := true }
  | .ttDisarm .. => { trust := true, cpi := true, diary := true, tally := true, tt := true, ftl := true, bay := true, pool := true, corr := true, out := true }
  | .ttQuery .. => { trust := true, cpi := true, tally := true, corr := true, out := true }
  | .capsuleReceive .. => { trust := true, tally := true, stg := true, ftl := true, bay := true, jobs := true, hq := true, repl := true, corr := true, out := true, draws := true }
  | .capsuleFetch => { trust := true, tally := true, tt := true, stg := true, ftl := true, hq := true, corr := true, out := true }
  | .metadataPagePrefetch .. => { ftl := true, bay := true }
  | .fsnRequest .. => { trust := true, tally := true, tt := true, stg := true, ftl := true, hq := true, corr := true, out := true }
  | .fsnGrant .. => { trust := true, tally := true, stg := true, hq := true, corr := true, out := true }
  | .writeDataArrival .. => { trust := true, tally := true, stg := true, ftl := true, bay := true, ciph := true, jobs := true, hq := true, repl := true, corr := true, out := true, draws := true }
  | .dataInTimeout .. => { trust := true, diary := true, tally := true, stg := true, ftl := true, bay := true, jobs := true, hq := true, repl := true, corr := true, out := true, draws := true }
  | .connectionError .. => { trust := true, cpi := true, diary := true, tally := true, stg := true, ftl := true, bay := true, jobs := true, hq := true, repl := true, corr := true, out := true, draws := true }
  | .keepAliveExpiry .. => { trust := true, cpi := true, diary := true, tally := true, stg := true, ftl := true, bay := true, jobs := true, hq := true, repl := true, corr := true, out := true, draws := true }
  | .flush .. => { tally := true, stg := true, hq := true, out := true }
  | .write .. => { trust := true, tally := true, stg := true, ftl := true, bay := true, ciph := true, jobs := true, hq := true, repl := true, corr := true, out := true, draws := true }
  | .read .. => { trust := true, tally := true, stg := true, ftl := true, bay := true, jobs := true, hq := true, corr := true, out := true, draws := true }
  | .compare .. => { trust := true, tally := true, stg := true, ftl := true, bay := true, jobs := true, hq := true, corr := true, out := true, draws := true }
  | .compareAndWrite .. => { trust := true, tally := true, stg := true, ftl := true, bay := true, jobs := true, hq := true, corr := true, out := true, draws := true }
  | .writeZeroes .. => { trust := true, tally := true, stg := true, ftl := true, bay := true, ciph := true, jobs := true, hq := true, repl := true, corr := true, out := true, draws := true }
  | .datasetManagement .. => { trust := true, tally := true, stg := true, ftl := true, bay := true, ciph := true, jobs := true, hq := true, repl := true, corr := true, out := true, draws := true }
  | .verify .. => { trust := true, tally := true, stg := true, ftl := true, bay := true, jobs := true, hq := true, corr := true, out := true, draws := true }
  | .reservationRegister .. => { tally := true, stg := true, hq := true, out := true }
  | .reservationReport .. => { tally := true, stg := true, hq := true, out := true }
  | .reservationAcquire .. => { tally := true, stg := true, hq := true, out := true }
  | .reservationRelease .. => { tally := true, stg := true, hq := true, out := true }
  | .getLogPage .. => { tally := true, hq := true, out := true, draws := true }
  | .identify .. => { tally := true, hq := true, out := true, draws := true }
  | .abort .. => { tally := true, stg := true, hq := true, out := true }
  | .setFeatures .. => { tally := true, hq := true, out := true }
  | .getFeatures .. => { tally := true, hq := true, out := true }
  | .asyncEventRequest .. => { tally := true, hq := true, out := true }
  | .firmwareCommit .. => { trust := true, tally := true, ciph := true, hq := true, out := true }
  | .firmwareImageDownload .. => { trust := true, tally := true, hq := true, out := true }
  | .keepAlive .. => { tally := true, hq := true, out := true }
  | .fabricsConnect .. => { cpi := true, hq := true, out := true, draws := true }
  | .propertyGet .. => { tally := true, hq := true, out := true, draws := true }
  | .propertySet .. => { trust := true, diary := true, tally := true, stg := true, ftl := true, bay := true, jobs := true, hq := true, repl := true, corr := true, out := true, draws := true }
  | .disconnect .. => { trust := true, cpi := true, diary := true, tally := true, stg := true, ftl := true, bay := true, jobs := true, hq := true, repl := true, corr := true, out := true, draws := true }
  | .controlReplyPoll .. => { tally := true, hq := true, out := true }
  | .controlPacketSubmit .. => { trust := true, cpi := true, tally := true, hq := true, corr := true, out := true }
  | .controlReplyFetch .. => { cpi := true, tally := true, hq := true, out := true }
  | .controlPayloadFetch .. => { cpi := true, tally := true, hq := true, out := true }
  | .powerStateChange => { diary := true, tally := true, hq := true, out := true }
  | .ps3EntryComplete => { diary := true, tally := true, hq := true, out := true }
  | .ps3EntryAbandon => { tally := true, hq := true, out := true }
  | .ps3Exit => { pwr := true, diary := true, tally := true, ec := true, ciph := true, skx := true, hq := true }
  | .anaOwnershipMove .. => { trust := true, tally := true, corr := true, out := true }
  | .mirrorData .. => { trust := true, tally := true, stg := true, corr := true, out := true }
  | .mirrorAck .. => { trust := true, tally := true, stg := true, ftl := true, bay := true, ciph := true, jobs := true, hq := true, repl := true, corr := true, out := true, draws := true }
  | .commit .. => { trust := true, tally := true, stg := true, ftl := true, bay := true, ciph := true, jobs := true, hq := true, repl := true, corr := true, out := true, draws := true }
  | .commitAck .. => { trust := true, tally := true, stg := true, ftl := true, bay := true, jobs := true, hq := true, repl := true, corr := true, out := true, draws := true }
  | .release .. => { tally := true, stg := true }
  | .credit .. => { tally := true, stg := true }
  | .vaultNotice .. => { trust := true, cpi := true, diary := true, tally := true, tt := true, bay := true, hq := true, corr := true, out := true }
  | .vaultDone .. => { diary := true, tally := true, bay := true, corr := true }
  | .vaultDoneTimeout => { bay := true, corr := true }
  | .markList .. => { trust := true, tally := true, stg := true, corr := true, out := true }
  | .withdraw .. => { trust := true, tally := true, stg := true, ftl := true, bay := true, jobs := true, hq := true, corr := true, out := true, draws := true }
  | .messageResendTimeout .. => { trust := true, diary := true, tally := true, corr := true, out := true }
  | .destageAgeExpiry .. => { stg := true }
  | .destageStart .. => { trust := true, diary := true, tally := true, stg := true, ddp := true, ftl := true, bay := true, jobs := true, corr := true, out := true }
  | .fingerprintComplete .. => { trust := true, diary := true, tally := true, tt := true, ddp := true, ftl := true, jobs := true, corr := true, out := true }
  | .fingerprintResolve => { trust := true, diary := true, tally := true, ddp := true, ftl := true, bay := true, jobs := true, corr := true, out := true }
  | .resolve .. => { trust := true, tally := true, ddp := true, hq := true, corr := true, out := true }
  | .resolveAnswer .. => { trust := true, diary := true, tally := true, ddp := true, ftl := true, jobs := true, corr := true, out := true }
  | .resolvePendingTimeout .. => { tally := true, corr := true, out := true }
  | .inflightWayFree => { trust := true, diary := true, tally := true, ddp := true, ftl := true, bay := true, jobs := true, corr := true, out := true }
  | .indexReadComplete .. => { trust := true, diary := true, tally := true, ddp := true, ftl := true, bay := true, jobs := true, corr := true, out := true }
  | .mergeSweepStart => { ddp := true }
  | .filterReplace => { ddp := true }
  | .refDelta .. => { trust := true, diary := true, tally := true, ftl := true, hq := true, corr := true, out := true }
  | .place .. => { trust := true, tally := true, ddp := true, ftl := true, corr := true, out := true }
  | .encodeComplete .. => { trust := true, diary := true, tally := true, tt := true, lanes := true, jobs := true, corr := true, out := true }
  | .decodeComplete .. => { trust := true, diary := true, tally := true, tt := true, lanes := true, stg := true, ddp := true, ftl := true, ec := true, bay := true, skx := true, jobs := true, hq := true, corr := true, out := true, draws := true }
  | .slotDecryptComplete .. => { trust := true, diary := true, tally := true, tt := true, lanes := true, stg := true, ddp := true, ftl := true, ec := true, bay := true, ciph := true, jobs := true, hq := true, corr := true, out := true, draws := true }
  | .slotEncryptComplete .. => { trust := true, tally := true, tt := true, ftl := true, ec := true, bay := true, ciph := true, jobs := true, corr := true, out := true }
  | .usageGrantDraw .. => { trust := true, diary := true, tally := true, ftl := true, ciph := true, corr := true, out := true }
  | .hallPassEnd .. => { diary := true, tally := true, ciph := true, out := true }
  | .segmentVerify .. => { diary := true, tally := true, ciph := true, repl := true, out := true, draws := true }
  | .streamTagFail .. => { diary := true, tally := true, ciph := true, out := true }
  | .digestOpen .. => { tally := true, ciph := true, out := true, draws := true }
  | .digestAbsorb .. => { tally := true, ciph := true, out := true }
  | .digestFinalise .. => { ciph := true, out := true }
  | .digestRead .. => { ciph := true, out := true }
  | .digestClose .. => { ciph := true, out := true }
  | .mrExtend .. => { tally := true, ciph := true, out := true }
  | .lockerRotate .. => { trust := true, cpi := true, diary := true, tally := true, ciph := true, corr := true, out := true }
  | .lockerWithdraw .. => { trust := true, cpi := true, tally := true, ciph := true, corr := true, out := true }
  | .lockerRestore .. => { trust := true, cpi := true, diary := true, tally := true, ciph := true, corr := true, out := true }
  | .lockerQuery .. => { trust := true, cpi := true, tally := true, corr := true, out := true }
  | .checkpointStart => { trust := true, tally := true, ftl := true, saved := true, corr := true, out := true }
  | .checkpointPhase2 => { trust := true, tally := true, ftl := true, corr := true, out := true }
  | .sjCheckpointStart => { trust := true, tally := true, ftl := true, ec := true, bay := true, ciph := true, corr := true, out := true }
  | .gcStart .. => { trust := true, tally := true, ddp := true, ftl := true, ec := true, corr := true, out := true }
  | .blockEraseDue .. => { ftl := true, bay := true }
  | .psaResolveAgain .. => { ftl := true, bay := true, jobs := true }
  | .retentionAccrue => { trust := true, tally := true, ftl := true, corr := true, out := true }
  | .calibrationDue .. => { bay := true }
  | .refreshDue .. => { trust := true, tally := true, ddp := true, ftl := true, ec := true, corr := true, out := true }
  | .timeTokenWaitExpiry => { ftl := true, bay := true }
  | .spareStateChange => { ftl := true }
  | .stripeIdleClose .. => { trust := true, tally := true, ftl := true, ec := true, bay := true, jobs := true, corr := true, out := true }
  | .stripeExtend .. => { trust := true, tally := true, ftl := true, ec := true, bay := true, jobs := true, corr := true, out := true }
  | .groupOpen .. => { trust := true, tally := true, ftl := true, ec := true, corr := true, out := true }
  | .reconstructionCombine .. => { tt := true, jobs := true }
  | .patrolStripe .. => { diary := true, tally := true, tt := true, ec := true, ciph := true }
  | .detentionProbe .. => { ec := true, bay := true }
  | .detentionTimeout .. => { trust := true, diary := true, tally := true, ftl := true, ec := true, bay := true, pool := true, jobs := true, corr := true, out := true }
  | .missingTimeout .. => { trust := true, diary := true, tally := true, ftl := true, ec := true, bay := true, pool := true, jobs := true, corr := true, out := true }
  | .rebuildBlock .. => { trust := true, diary := true, tally := true, tt := true, ftl := true, ec := true, bay := true, corr := true, out := true }
  | .lostSweep => { trust := true, diary := true, tally := true, ddp := true, ftl := true, ec := true, corr := true, out := true }
  | .volumeOffline => { ec := true }
  | .blpReadComplete .. => { trust := true, diary := true, tally := true, stg := true, ddp := true, ftl := true, ec := true, bay := true, pool := true, ciph := true, jobs := true, hq := true, corr := true, out := true, draws := true }
  | .blpProgramComplete .. => { trust := true, diary := true, tally := true, ddp := true, ftl := true, ec := true, bay := true, pool := true, jobs := true, corr := true, out := true }
  | .blpEraseComplete .. => { trust := true, diary := true, tally := true, ftl := true, ec := true, bay := true, pool := true, jobs := true, corr := true, out := true }
  | .blpSuspendComplete .. => { trust := true, cpi := true, diary := true, tally := true, ftl := true, ec := true, bay := true, pool := true, jobs := true, corr := true, out := true }
  | .blpResumeComplete .. => { trust := true, cpi := true, diary := true, tally := true, ftl := true, ec := true, bay := true, pool := true, jobs := true, corr := true, out := true }
  | .blpStatusComplete .. => { trust := true, cpi := true, diary := true, tally := true, tt := true, stg := true, ftl := true, ec := true, bay := true, pool := true, jobs := true, hq := true, corr := true, out := true }
  | .blpCalibrateComplete .. => { trust := true, cpi := true, diary := true, tally := true, ftl := true, ec := true, bay := true, pool := true, jobs := true, corr := true, out := true }
  | .blpTelemetryComplete .. => { trust := true, cpi := true, diary := true, tally := true, ftl := true, ec := true, bay := true, pool := true, jobs := true, corr := true, out := true }
  | .blpFenceComplete .. => { trust := true, diary := true, tally := true, ftl := true, ec := true, bay := true, pool := true, jobs := true, corr := true, out := true }
  | .telemetryPoll => { bay := true }
  | .bayPresenceDetect .. => { pins := true, bay := true, out := true }
  | .bayPerstRelease .. => { pins := true, bay := true, out := true }
  | .bayLinkUp .. => { diary := true, tally := true, bay := true, out := true, draws := true }
  | .bayLinkTrainTimeout .. => { pins := true, diary := true, tally := true, bay := true, out := true }
  | .bayPresenceLost .. => { pins := true, trust := true, diary := true, tally := true, stg := true, ddp := true, ftl := true, ec := true, bay := true, pool := true, ciph := true, jobs := true, hq := true, corr := true, out := true }
  | .bayPowerOffTimeout .. => { pins := true, bay := true, out := true }
  | .bayRetrainTimer .. => { bay := true }
  | .bayLinkReturn .. => { diary := true, tally := true, bay := true, out := true }
  | .bayAttention .. => { pins := true, trust := true, diary := true, tally := true, stg := true, ddp := true, ftl := true, ec := true, bay := true, pool := true, ciph := true, jobs := true, hq := true, corr := true, out := true }
  | .bayLinkDegraded .. => { diary := true, tally := true, bay := true }
  | .bayFullRetrain .. => { diary := true, tally := true, bay := true, corr := true }
  | .witnessCasComplete .. => { bay := true, corr := true, out := true }
  | .corridorTrain .. => { trust := true, diary := true, tally := true, repl := true, corr := true, out := true, draws := true }
  | .corridorRefusedRetry => { tally := true, corr := true }
  | .corridorLinkDown => { diary := true, tally := true, corr := true }
  | .heartbeat .. => { pwr := true, trust := true, cpi := true, diary := true, tally := true, tt := true, stg := true, ddp := true, ftl := true, ec := true, bay := true, jobs := true, hq := true, corr := true, out := true }
  | .heartbeatMissed => { diary := true, tally := true, tt := true, stg := true, bay := true, hq := true, corr := true, out := true }
  | .arbitrationCount => { trust := true, cpi := true, diary := true, tally := true, tt := true, stg := true, bay := true, hq := true, corr := true, out := true }
  | .arbitrationRetry => { corr := true, out := true }
  | .failoverReplay => { trust := true, diary := true, tally := true, stg := true, ddp := true, ftl := true, ec := true, bay := true, pool := true, saved := true, ciph := true, jobs := true, hq := true, repl := true, corr := true, out := true, draws := true }
  | .failoverTakeover => { trust := true, diary := true, tally := true, stg := true, hq := true, corr := true, out := true }
  | .bellSync .. => { trust := true, diary := true, tally := true, tt := true, corr := true, out := true }
  | .sheetTrigger .. => { trust := true, tally := true, tt := true, corr := true, out := true }
  | .snapFence .. => { trust := true, tally := true, ftl := true, ciph := true, repl := true, corr := true, out := true }
  | .ttImage .. => { trust := true, diary := true, tally := true, tt := true, corr := true, out := true }
  | .ttVerdict .. => { trust := true, cpi := true, diary := true, tally := true, tt := true, corr := true, out := true }
  | .sbChange .. => { trust := true, tally := true, ec := true, bay := true, pool := true, corr := true, out := true }
  | .anaMove .. => { trust := true, cpi := true, diary := true, tally := true, stg := true, hq := true, corr := true, out := true }
  | .hello .. => { trust := true, diary := true, tally := true, bay := true, pool := true, corr := true, out := true }
  | .releaseNotice .. => { trust := true, cpi := true, diary := true, tally := true, tt := true, bay := true, hq := true, corr := true, out := true }
  | .resyncDone .. => { trust := true, tally := true, tt := true, corr := true, out := true }
  | .journal .. => { trust := true, diary := true, tally := true, stg := true, ddp := true, ftl := true, ec := true, bay := true, pool := true, saved := true, ciph := true, jobs := true, hq := true, corr := true, out := true }
  | .journalAck .. => { trust := true, diary := true, tally := true, stg := true, ddp := true, ftl := true, ec := true, bay := true, pool := true, saved := true, ciph := true, jobs := true, hq := true, corr := true, out := true }
  | .prefectRecord .. => { trust := true, tally := true, ciph := true, repl := true, corr := true, out := true, draws := true }
  | .forbiddenPeerMessage => { tally := true }
  | .fedHeartbeatSend => { corr := true, out := true }
  | .fedHeartbeat .. => { trust := true, diary := true, tally := true, ftl := true, bay := true, corr := true, out := true }
  | .fedUnreachable .. => { diary := true, tally := true, corr := true }
  | .headAdopt .. => { trust := true, cpi := true, diary := true, tally := true, corr := true, out := true }
  | .headRelease .. => { trust := true, cpi := true, tally := true, hq := true, corr := true, out := true }
  | .fedRosterLoad .. => { sys := true, trust := true, cpi := true, diary := true, tally := true, ciph := true, corr := true, out := true }
  | .fedTimeToken .. => { trust := true, cpi := true, diary := true, tally := true, ftl := true, bay := true, corr := true, out := true }
  | .fedQuery .. => { trust := true, cpi := true, tally := true, corr := true, out := true }
  | .clockRecordWrite => { trust := true }
  | .lockstepMismatch => { trust := true, diary := true, tally := true, ciph := true }
  | .keyEnroll .. => { trust := true, cpi := true, diary := true, tally := true, ciph := true, corr := true, out := true }
  | .keyRevoke .. => { trust := true, cpi := true, diary := true, tally := true, corr := true, out := true }
  | .quote .. => { trust := true, cpi := true, tally := true, corr := true, out := true }
  | .mrRead .. => { trust := true, cpi := true, tally := true, corr := true, out := true }
  | .identityGet .. => { trust := true, cpi := true, tally := true, corr := true, out := true }
  | .escrowExport .. => { trust := true, cpi := true, tally := true, ciph := true, corr := true, out := true, draws := true }
  | .rootImport .. => { pwr := true, trust := true, cpi := true, diary := true, tally := true, tt := true, stg := true, ddp := true, ftl := true, ec := true, pool := true, saved := true, ciph := true, jobs := true, corr := true, out := true }
  | .decommission .. => { trust := true, cpi := true, diary := true, tally := true, corr := true, out := true }
  | .fwDownload .. => { trust := true, cpi := true, diary := true, tally := true, corr := true, out := true }
  | .fwActivate .. => { trust := true, cpi := true, tally := true, ciph := true, hq := true, corr := true, out := true }
  | .clusterReport .. => { trust := true, cpi := true, diary := true, tally := true, hq := true, corr := true, out := true }
  | .clusterReportTimeout .. => { trust := true, cpi := true, diary := true, tally := true, ciph := true, hq := true, corr := true, out := true }
  | .pfwDownload .. => { pwr := true, dram := true, trust := true, cpi := true, diary := true, tally := true, ciph := true, corr := true, out := true }
  | .pfwActivate .. => { dram := true, trust := true, cpi := true, diary := true, tally := true, ciph := true, corr := true, out := true }
  | .fwQuery .. => { trust := true, cpi := true, tally := true, corr := true, out := true }
  | .cpiSubmit .. => { cpi := true, tally := true, out := true, draws := true }
  | .cpiAck => { cpi := true, tally := true }
  | .pfmSubmit .. => { cpi := true, tally := true, out := true, draws := true }
  | .pfmAck => { cpi := true, tally := true }
  | .mctpMessage .. => { cpi := true, diary := true, tally := true, out := true, draws := true }
  | .pieceTimeout .. => { cpi := true }
  | .replyRetentionExpiry .. => { cpi := true }
  | .claimBindingTimeout .. => { cpi := true }
  | .sysInfo .. => { trust := true, cpi := true, tally := true, corr := true, out := true }
  | .sysPortMode .. => { pwr := true, trust := true, cpi := true, diary := true, tally := true, stg := true, ftl := true, bay := true, jobs := true, hq := true, repl := true, corr := true, out := true, draws := true }
  | .sysBinding .. => { trust := true, cpi := true, diary := true, tally := true, hq := true, corr := true, out := true, draws := true }
  | .sysSubsystem .. => { trust := true, cpi := true, diary := true, tally := true, stg := true, ftl := true, bay := true, jobs := true, hq := true, repl := true, corr := true, out := true, draws := true }
  | .sysDataTimeout .. => { trust := true, cpi := true, diary := true, tally := true, hq := true, corr := true, out := true }
  | .sysHoldupCfg .. => { trust := true, cpi := true, diary := true, tally := true, stg := true, corr := true, out := true }
  | .sysHoldupMeasure .. => { pins := true, trust := true, cpi := true, diary := true, tally := true, stg := true, corr := true, out := true }
  | .holdupMeasureScheduled .. => { pins := true, cpi := true, diary := true, tally := true, stg := true }
  | .holdupMeasureComplete .. => { pins := true, trust := true, cpi := true, diary := true, tally := true, stg := true, corr := true, out := true }
  | .holdupRetryTimer .. => { pins := true, cpi := true, diary := true, tally := true, stg := true }
  | .sysClaims .. => { trust := true, cpi := true, tally := true, corr := true, out := true }
  | .sysIslandReset .. => { pwr := true, trust := true, cpi := true, diary := true, tally := true, stg := true, ftl := true, bay := true, jobs := true, hq := true, repl := true, corr := true, out := true, draws := true }
  | .cpPayloadFetch .. => { trust := true, cpi := true, tally := true, corr := true, out := true }
  | .poolForm .. => { trust := true, cpi := true, diary := true, tally := true, ddp := true, ftl := true, ec := true, bay := true, pool := true, saved := true, ciph := true, corr := true, out := true, draws := true }
  | .poolExtend .. => { trust := true, cpi := true, diary := true, tally := true, ec := true, bay := true, pool := true, corr := true, out := true }
  | .memberFail .. => { trust := true, cpi := true, diary := true, tally := true, ftl := true, ec := true, bay := true, pool := true, jobs := true, corr := true, out := true }
  | .bayWidthSet .. => { trust := true, cpi := true, diary := true, tally := true, bay := true, corr := true, out := true }
  | .bayPower .. => { pins := true, trust := true, cpi := true, diary := true, tally := true, stg := true, ddp := true, ftl := true, ec := true, bay := true, ciph := true, jobs := true, hq := true, corr := true, out := true }
  | .poolGrowFilter .. => { trust := true, cpi := true, diary := true, tally := true, ddp := true, pool := true, corr := true, out := true }
  | .poolGrowIndex .. => { trust := true, cpi := true, diary := true, tally := true, ddp := true, pool := true, corr := true, out := true }
  | .poolQuery .. => { trust := true, cpi := true, tally := true, corr := true, out := true }
  | .poolErase .. => { pwr := true, trust := true, cpi := true, diary := true, tally := true, tt := true, stg := true, ddp := true, ftl := true, ec := true, bay := true, pool := true, saved := true, ciph := true, jobs := true, hq := true, corr := true, out := true }
  | .moduleUnform .. => { trust := true, cpi := true, diary := true, tally := true, ec := true, bay := true, pool := true, corr := true, out := true }
  | .volCreate .. => { trust := true, cpi := true, diary := true, tally := true, ftl := true, hq := true, corr := true, out := true }
  | .volDelete .. => { trust := true, cpi := true, diary := true, tally := true, stg := true, ddp := true, ftl := true, bay := true, jobs := true, hq := true, repl := true, corr := true, out := true, draws := true }
  | .volResize .. => { trust := true, cpi := true, diary := true, tally := true, stg := true, ddp := true, ftl := true, hq := true, corr := true, out := true }
  | .volSet .. => { trust := true, cpi := true, diary := true, tally := true, ftl := true, corr := true, out := true }
  | .anaMoveGroup .. => { trust := true, cpi := true, diary := true, tally := true, hq := true, corr := true, out := true }
  | .domainCreate .. => { trust := true, cpi := true, diary := true, tally := true, ftl := true, ciph := true, repl := true, corr := true, out := true, draws := true }
  | .domainDelete .. => { trust := true, cpi := true, diary := true, tally := true, ddp := true, ftl := true, ciph := true, corr := true, out := true }
  | .domainVerify .. => { trust := true, cpi := true, diary := true, tally := true, ftl := true, corr := true, out := true }
  | .volQuery .. => { trust := true, cpi := true, tally := true, corr := true, out := true }
  | .snapCreate .. => { trust := true, cpi := true, tally := true, ftl := true, repl := true, corr := true, out := true }
  | .snapshotSettle .. => { trust := true, cpi := true, diary := true, tally := true, ddp := true, ftl := true, ciph := true, hq := true, repl := true, corr := true, out := true }
  | .snapDelete .. => { trust := true, cpi := true, diary := true, tally := true, ddp := true, ftl := true, corr := true, out := true }
  | .snapSeal .. => { trust := true, cpi := true, diary := true, tally := true, ftl := true, ciph := true, corr := true, out := true }
  | .cloneCreate .. => { trust := true, cpi := true, diary := true, tally := true, ftl := true, hq := true, corr := true, out := true }
  | .snapQuery .. => { trust := true, cpi := true, tally := true, corr := true, out := true }
  | .replPartnerAdd .. => { trust := true, cpi := true, diary := true, tally := true, repl := true, corr := true, out := true }
  | .replPartnerRemove .. => { trust := true, cpi := true, diary := true, tally := true, ftl := true, ciph := true, hq := true, repl := true, corr := true, out := true }
  | .replSessionOpen .. => { trust := true, cpi := true, tally := true, repl := true, corr := true, out := true, draws := true }
  | .replSessionClose .. => { trust := true, cpi := true, diary := true, tally := true, ftl := true, ciph := true, hq := true, repl := true, corr := true, out := true }
  | .replAsyncSend .. => { trust := true, cpi := true, tally := true, ftl := true, ciph := true, repl := true, corr := true, out := true }
  | .replSyncSet .. => { trust := true, cpi := true, diary := true, tally := true, stg := true, ftl := true, bay := true, jobs := true, hq := true, repl := true, corr := true, out := true, draws := true }
  | .migrateExport .. => { trust := true, cpi := true, diary := true, tally := true, ftl := true, ciph := true, repl := true, corr := true, out := true }
  | .migrateCutover .. => { trust := true, cpi := true, tally := true, ftl := true, hq := true, repl := true, corr := true, out := true }
  | .replQuery .. => { trust := true, cpi := true, tally := true, corr := true, out := true }
  | .offer .. => { repl := true, out := true, draws := true }
  | .accept .. => { trust := true, cpi := true, tally := true, hq := true, repl := true, corr := true, out := true }
  | .prove .. => { trust := true, cpi := true, diary := true, tally := true, ftl := true, ciph := true, hq := true, repl := true, corr := true, out := true }
  | .refuse .. => { trust := true, cpi := true, tally := true, hq := true, repl := true, corr := true, out := true }
  | .handshakeTimeout .. => { trust := true, cpi := true, tally := true, hq := true, repl := true, corr := true, out := true }
  | .sessionRekey .. => { repl := true, out := true, draws := true }
  | .segmentSendTimer .. => { trust := true, tally := true, ftl := true, ciph := true, repl := true, corr := true, out := true }
  | .beginTransfer .. => { trust := true, cpi := true, diary := true, tally := true, stg := true, ddp := true, ftl := true, ciph := true, hq := true, repl := true, corr := true, out := true }
  | .fingerprints .. => { trust := true, diary := true, tally := true, ddp := true, ftl := true, ciph := true, repl := true, corr := true, out := true }
  | .want .. => { trust := true, tally := true, ftl := true, bay := true, ciph := true, jobs := true, repl := true, corr := true, out := true }
  | .grain .. => { trust := true, cpi := true, tally := true, stg := true, ftl := true, bay := true, ciph := true, jobs := true, hq := true, repl := true, corr := true, out := true, draws := true }
  | .endTransfer .. => { trust := true, tally := true, ftl := true, ciph := true, repl := true, corr := true, out := true }
  | .replCommit .. => { trust := true, cpi := true, diary := true, tally := true, stg := true, ftl := true, ciph := true, hq := true, repl := true, corr := true, out := true }
  | .syncWrite .. => { trust := true, tally := true, stg := true, ftl := true, bay := true, ciph := true, jobs := true, hq := true, repl := true, corr := true, out := true, draws := true }
  | .syncAck .. => { trust := true, tally := true, stg := true, ftl := true, bay := true, jobs := true, hq := true, repl := true, corr := true, out := true, draws := true }
  | .syncAckTimeout .. => { trust := true, diary := true, tally := true, stg := true, ftl := true, bay := true, jobs := true, hq := true, repl := true, corr := true, out := true, draws := true }
  | .syncFence .. => { trust := true, tally := true, ftl := true, ciph := true, repl := true, corr := true, out := true }
  | .syncCheckpoint .. => { trust := true, tally := true, ftl := true, repl := true, corr := true, out := true }
  | .fractureResumeTimer .. => { trust := true, tally := true, ftl := true, repl := true, corr := true, out := true }
  | .migrateRepeatTimer .. => { trust := true, tally := true, ftl := true, ciph := true, repl := true, corr := true, out := true }
  | .keyAdopt .. => { trust := true, cpi := true, diary := true, tally := true, ftl := true, ciph := true, repl := true, corr := true, out := true, draws := true }
  | .replAbort .. => { trust := true, cpi := true, diary := true, tally := true, stg := true, ftl := true, ciph := true, hq := true, repl := true, corr := true, out := true }
  | .diagDieOp .. => { bay := true }
  | .diagLaneTest .. => { trust := true, cpi := true, diary := true, tally := true, tt := true, lanes := true, corr := true, out := true }
  | .diagLaneGroup .. => { trust := true, cpi := true, diary := true, tally := true, tt := true, lanes := true, corr := true, out := true }
  | .diagDramChannel .. => { dram := true, trust := true, cpi := true, diary := true, tally := true, tt := true, corr := true, out := true }
  | .diagBayGroup .. => { trust := true, cpi := true, diary := true, tally := true, tt := true, bay := true, corr := true, out := true }
  | .diagDump .. => { trust := true, cpi := true, tally := true, corr := true, out := true }
  | .diagPin .. => { pins := true, trust := true, cpi := true, diary := true, tally := true, corr := true, out := true }
  | .diagCapture .. => { trust := true, cpi := true, tally := true, corr := true, out := true }
  | .diaryRead .. => { trust := true, cpi := true, tally := true, corr := true, out := true }
  | .diaryFreeze .. => { trust := true, cpi := true, diary := true, tally := true, corr := true, out := true }
  | .diaryCtrlFreezeWrite .. => { diary := true, tally := true }
  | .diaryFreezeTimeout => { diary := true }
  | .diaryEvent .. => { diary := true, tally := true }
  | .tallyRead .. => { trust := true, cpi := true, tally := true, corr := true, out := true }
  | .tallyConfig .. => { trust := true, cpi := true, diary := true, tally := true, corr := true, out := true }
  | .tallySweep => { tally := true, draws := true }
  | .bwWindow .. => { trust := true, cpi := true, diary := true, tally := true, corr := true, out := true }
  | .bwWindowStart .. => { tally := true }
  | .bwWindowEnd .. => { cpi := true, tally := true }
  | .reportCard .. => { trust := true, cpi := true, tally := true, corr := true, out := true }
  | .earlyWarningEval => { diary := true, tally := true, hq := true, out := true }
  | .histogramMinute .. => { pins := true, tally := true }
  | .dramRefreshTick .. => { dram := true, tally := true, draws := true }
  | .dimmTempRead .. => { dram := true, diary := true, tally := true }
  | .dramSelfRefreshIdle .. => { dram := true }
  | .dramCorrected .. => { dram := true, tally := true }
  | .dramUncorrectable .. => { dram := true, trust := true, cpi := true, diary := true, tally := true, stg := true, ddp := true, ftl := true, bay := true, ciph := true, jobs := true, hq := true, repl := true, corr := true, out := true, draws := true }
  | .dramScrub .. => { dram := true }
  | .dramChannelOut .. => { dram := true, trust := true, tally := true, tt := true, corr := true, out := true }
  | .dramChannelDead .. => { pwr := true, pins := true, dram := true, trust := true, cpi := true, diary := true, tally := true, tt := true, stg := true, ftl := true, bay := true, ciph := true, hq := true, corr := true, out := true }
  | .dramEvacCopyDone .. => { dram := true, diary := true, tally := true, tt := true }
  | .dramTrainingDone .. => { dram := true, trust := true, diary := true, tally := true, tt := true, corr := true, out := true }
  | .pinFaultDetect .. => { pins := true, diary := true, tally := true, stg := true }
  | .pinOpenTest .. => { pins := true, diary := true, tally := true }
  | .pinFaultClear .. => { pins := true, stg := true }
  | .fpLocate => { pins := true }
  | .smbusRead .. => { out := true }
  | .tapBypass => { pins := true, out := true }
  | .tapIdcode => { pins := true, out := true }
  | .tapSamplePreload => { pins := true, out := true, draws := true }
  | .tapExtest => { pins := true, out := true }
  | .tapExtestPulse => { pins := true, out := true }
  | .tapExtestTrain => { pins := true, out := true }
  | .tapClamp => { pins := true, out := true }
  | .tapHighz => { pins := true, out := true }
  | .registerWrite .. => { pwr := true, pins := true, dram := true, diary := true, tally := true, ec := true, bay := true }
  | .cnpReceived .. => { hq := true, draws := true }
  | .rosterReceived .. => { sys := true, ciph := true, corr := true, out := true }
  | .keyAdoptWaitExpiry .. => { trust := true, cpi := true, tally := true, repl := true, corr := true, out := true }
  | .deleteTicketHoldEnd => { trust := true }
  | .pinDriveRestored .. => { pins := true }
  | .mgmtPerst => { cpi := true }
  | .corridorMessageDrop .. => { diary := true, tally := true }

/-- A command completes: it answers a next state in which its own effect holds, and of the blocks of State only those of `P` have changed. -/
def Completes (c : Instr) (s : State) (P : Touch) (effect : State → Prop) : Prop :=
  ∃ t, exec c s = .next t ∧ effect t ∧ OnlyChanges P s t

/-- A packet is answered: it is no longer one of the accepted packets, and its reply stands ready for its binding or has gone to its endpoint
(R533, R534, R535); the peer is told the status of one that it forwarded (R544). -/
def Replied (p : Packet) (st : Status) (params payload : Bytes) (t : State) : Prop :=
  t.cpi.packet p.binding p.tag p.opcode = none ∧
  (p.binding = .peer → ∃ detail, getKey p.tag t.corr.answered = some (.forwarded st detail)) ∧
  (p.binding ≠ .peer → ∃ r : Reply, r.binding = p.binding ∧ r.tag = p.tag ∧ r.status = st ∧ r.params = params ∧ r.payload = payload ∧
    (r ∈ t.cpi.replies ∨ ∃ e, p.binding = .mctp e ∧ .mctpReply e r.header r.params (r.payload.take 61440) ∈ t.out))

/-- What SQHD says once the entry at the front of a controller's admin queue is taken (R94). -/
def State.adminSqhd (s : State) (cntlid : Nat) : Nat := ((s.hq.queue cntlid 0).map (fun q => (q.sqhd + 1) % max q.size 1)).getD 0

/-- What a command of the whole pair leaves on the peer's answer. -/
def pairBase (p : Packet) (s : State) : State :=
  if s.paired = true ∧ p.binding ≠ .peer then settleNumber s.corr.nextNumber (send (.forward p.opcode p.cls p.params p.payload) s) else s

end Sys2Proof.Machine
end

