-- ==== Sys2Proof/Certificates/Slice0/Obligations.lean ====
section
/-! DEFINITION. The statements for the provers: what every step keeps, what the shared operations do, and what each
command of the opcode table leaves. A premise speaks of the state and the operands alone. -/

open Sys2Proof Sys2Proof.Machine

/-- For every command c, every queue rest and every state, step of the state whose queue is c followed by the rest is exec
of c on the state whose queue is the rest. (R38) -/
def Obligations.StepRunsFrontCommand : Prop :=
    ∀ (c : Instr) (rest : List Instr) (s : State),
      step { s with pending := c :: rest } = exec c { s with pending := rest }

/-- At reset the Diary is within its bounds and no command waits. That the Diary is empty and unfrozen at reset is the
value of the register tables; the rest is log entry 1. (R580, R586, R502) -/
def Obligations.ResetHoldsTheInvariant : Prop :=
    DiaryOk State.reset.diary ∧ State.reset.pending = []

/-- For every state whose Diary is within its bounds and every next state of a step: no fuse bit, counter, key digest or
revocation is undone; the ring still holds the newest min(head, 1,048,576) records and the side pocket at most 4,096,
and none outside a freeze; and the queue has lost exactly its front. It speaks of all commands and all states, not of
runs from reset. (R502, R580, R586, R585) -/
def Obligations.EveryStepKeepsFusesDiaryAndQueue : Prop :=
    ∀ s t : State, DiaryOk s.diary → step s = .next t →
      FusesGrow s.trust.fuses t.trust.fuses ∧ DiaryOk t.diary ∧ t.pending = s.pending.tail

/-- For every command of the table and every state, with no premise: exec answers a next state in which the queue is
unchanged and each block of State that `footprint` does not list for the command is unchanged; and no next state of
the command changes more. The footprint is the model's own table (log entry 66). (R502, R580) -/
def Obligations.CommandFootprints : Prop :=
    (∀ (c : Instr) (s : State), ∃ t, exec c s = .next t ∧ OnlyChanges (footprint c) s t) ∧
      (∀ (c : Instr) (s t : State), exec c s = .next t → OnlyChanges (footprint c) s t)

/-- For every state whose time is below 2^58: bits [63:58] of the time are zero, bits [57:10] are the day count, below
2^48, and bits [9:0] the period, below 1,024; the time is 1,024 times the day count plus the period. (R13) -/
def Obligations.Timestamps : Prop :=
    ∀ (s : State), s.tt.now < 2 ^ 58 →
      bitField 63 58 s.tt.now = 0 ∧ bitField 57 10 s.tt.now = s.day ∧ bitField 9 0 s.tt.now = s.period ∧
      s.day < 2 ^ 48 ∧ s.period < 1024 ∧ s.tt.now = 1024 * s.day + s.period

/-- Within a day the bell adds one period and leaves a pending day count. At the end of a day the next period is period 0
of a later day, the pending count is used up, and the day is the next one, or the pending count where that is higher.
(R38, R39, R43) -/
def Obligations.PeriodsAdvance : Prop :=
    ∀ s : State,
      (s.period ≠ 1023 → (nextPeriod s).tt.now = s.tt.now + 1 ∧ (nextPeriod s).tt.raiseTo = s.tt.raiseTo) ∧
      (s.period = 1023 →
        (nextPeriod s).period = 0 ∧ s.day < (nextPeriod s).day ∧ (nextPeriod s).tt.raiseTo = none ∧
        ((∀ d, s.tt.raiseTo = some d → d ≤ s.day + 1) → (nextPeriod s).day = s.day + 1) ∧
        (∀ d, s.tt.raiseTo = some d → s.day + 1 ≤ d → (nextPeriod s).day = d))

/-- For the windows 0x14 to 0xFF of management BAR0, every offset reads 0 in every state, and REGISTER_WRITE answers the
state unchanged. (R17, R15) -/
def Obligations.UnassignedWindows : Prop :=
    ∀ (s : State) (window offset : Nat) (value : Word64), 0x14 ≤ window → window ≤ 0xFF →
      readReg s window offset = 0 ∧ exec (.registerWrite window offset value) s = .next s

/-- For each register of the listed windows and offsets whose table gives reset values, the read at State.reset is the
value put together from the fields' reset values in that table (chapters 2 to 9, 11, 13 to 19). Registers whose reset
column gives no number are not listed. (R15, R17) -/
def Obligations.RegistersAtReset : Prop :=
    ∀ r ∈ ([
      (0x03, 0x00, 0), (0x03, 0x08, 0), (0x03, 0x10, 0), (0x03, 0x18, 0), (0x04, 0x00, 0), (0x04, 0x08, 0x4),
      (0x04, 0x10, 0), (0x05, 0x00, 0x51), (0x05, 0x08, 0), (0x05, 0x10, 0), (0x05, 0x18, 0), (0x05, 0x20, 0x25800005a000000),
      (0x05, 0x28, 0), (0x06, 0x00, 0), (0x06, 0x08, 0), (0x06, 0x10, 0), (0x06, 0x18, 0), (0x06, 0x20, 0),
      (0x07, 0x00, 0), (0x07, 0x08, 0), (0x07, 0x10, 0), (0x07, 0x18, 0), (0x07, 0x20, 0), (0x08, 0x00, 0),
      (0x08, 0x08, 0), (0x08, 0x10, 0), (0x08, 0x18, 0), (0x08, 0x20, 0), (0x08, 0x28, 0), (0x09, 0x00, 0),
      (0x09, 0x08, 0), (0x09, 0x10, 0), (0x0A, 0x00, 0), (0x0A, 0x08, 0), (0x0A, 0x10, 0), (0x0A, 0x18, 0),
      (0x0A, 0x20, 0), (0x0A, 0x28, 0), (0x0B, 0x00, 0), (0x0B, 0x08, 0), (0x0B, 0x10, 0), (0x0B, 0x18, 0),
      (0x0B, 0x20, 0), (0x0B, 0x28, 0), (0x0C, 0x00, 0), (0x0C, 0x08, 0), (0x0C, 0x10, 0), (0x0C, 0x18, 0),
      (0x0C, 0x20, 0), (0x0A, 0x30, 0), (0x0A, 0x38, 0), (0x0D, 0x00, 0), (0x0D, 0x08, 0x4000000000000000), (0x0D, 0x10, 0),
      (0x0D, 0x18, 0), (0x0D, 0x20, 0), (0x0D, 0x28, 0), (0x02, 0x00, 0), (0x02, 0x08, 0), (0x02, 0x10, 0),
      (0x02, 0x18, 0), (0x0E, 0x00, 0x30414), (0x0E, 0x08, 0), (0x0E, 0x10, 0), (0x0E, 0x18, 0), (0x0E, 0x20, 0),
      (0x0E, 0x28, 0), (0x0E, 0x30, 0), (0x0F, 0x00, 0), (0x0F, 0x08, 0), (0x0F, 0x10, 0), (0x0F, 0x18, 0),
      (0x10, 0x00, 0), (0x10, 0x08, 0), (0x10, 0x10, 0), (0x10, 0x18, 0), (0x10, 0x20, 0), (0x10, 0x28, 0),
      (0x10, 0x30, 0), (0x10, 0x38, 0), (0x11, 0x00, 0x1ff), (0x11, 0x08, 0xf000000000000000), (0x11, 0x10, 0x3), (0x11, 0x18, 0x80000000),
      (0x11, 0x20, 0x320), (0x12, 0x08, 0), (0x12, 0x10, 0), (0x13, 0x00, 0), (0x13, 0x10, 0), (0x13, 0x18, 0)] : List (Nat × Nat × Nat)),
      readReg State.reset r.1 r.2.1 = r.2.2

/-- For every module, die, block, page, quarter offset and tier 1 to 4 in range and every write epoch: the PSA is below
2^64; its bits are module [63:58], die [57:47], block [46:34], page [33:22], quarter offset [21:20], the tier field of
Table 6-1 [19:18], and bits [17:0] of the write epoch. (R279) -/
def Obligations.PhysicalSlotAddress : Prop :=
    ∀ module die block page quarter tier stamp : Nat,
      module < 64 → die < 2048 → block < 8192 → page < 4096 → quarter < 4 → 1 ≤ tier → tier ≤ 4 →
      psaOf (blkKey module die block) page quarter tier stamp < 2 ^ 64 ∧
      bitField 63 58 (psaOf (blkKey module die block) page quarter tier stamp) = module ∧
      bitField 57 47 (psaOf (blkKey module die block) page quarter tier stamp) = die ∧
      bitField 46 34 (psaOf (blkKey module die block) page quarter tier stamp) = block ∧
      bitField 33 22 (psaOf (blkKey module die block) page quarter tier stamp) = page ∧
      bitField 21 20 (psaOf (blkKey module die block) page quarter tier stamp) = quarter ∧
      bitField 19 18 (psaOf (blkKey module die block) page quarter tier stamp) = tier - 1 ∧
      bitField 17 0 (psaOf (blkKey module die block) page quarter tier stamp) = stamp % 2 ^ 18

/-- For every interleave grain and HPA: the home channel is below 16; the HPA is put together again from home channel and
channel offset as R556 takes it apart; and no other HPA has the same home channel and offset. (R556) -/
def Obligations.HeadPhysicalAddresses : Prop :=
    ∀ (d : Dram) (hpa : Nat),
      d.home hpa < 16 ∧
      hpa = (16 * (d.offset hpa / d.g) + d.home hpa) * d.g + d.offset hpa % d.g ∧
      ∀ other, d.home other = d.home hpa → d.offset other = d.offset hpa → other = hpa

/-- For every evacuated home channel h and every offset of its live region, with a capacity that 16 grains divide: the
unit goes to a channel below 16 other than h, at an offset from 15C/16 to below C; and two offsets never go to one
place. (R558) -/
def Obligations.EvacuatedUnits : Prop :=
    ∀ (d : Dram) (h off : Nat), h < 16 → 0 < d.capacity → d.capacity % (16 * d.g) = 0 → off < 15 * (d.capacity / 16) →
      (d.redirect h off).1 < 16 ∧ (d.redirect h off).1 ≠ h ∧
      15 * d.capacity / 16 ≤ (d.redirect h off).2 ∧ (d.redirect h off).2 < d.capacity ∧
      ∀ off', off' < 15 * (d.capacity / 16) → d.redirect h off' = d.redirect h off → off' = off

/-- Two nonces taken one after the other under one key, generation and lane, with a ceiling below 2^80, differ; the first
is writer ID and counter as Table 7-6 lays it out; the counter ends advanced by both counts and not above the
unchanged ceiling. A nonce is refused exactly where the advanced counter would pass the ceiling, and the counter then
keeps its value. (R251, R252, R253) -/
def Obligations.NoncesDoNotRepeat : Prop :=
    (∀ (s t u : State) (handle gen lane by1 by2 : Nat) (n m : Bytes),
      (s.ciph.counter handle gen lane).ceiling < 2 ^ 80 → 0 < by1 → 0 < by2 →
      takeNonce handle gen lane by1 s = (t, some n) → takeNonce handle gen lane by2 t = (u, some m) →
      n ≠ m ∧ n = nonceOf s.sys.chip lane (s.ciph.counter handle gen lane).value ∧
      (u.ciph.counter handle gen lane).value = (s.ciph.counter handle gen lane).value + by1 + by2 ∧
      (u.ciph.counter handle gen lane).value ≤ (s.ciph.counter handle gen lane).ceiling ∧
      (u.ciph.counter handle gen lane).ceiling = (s.ciph.counter handle gen lane).ceiling) ∧
    (∀ (s : State) (handle gen lane count : Nat),
      ((takeNonce handle gen lane count s).2 = none ↔
        (s.ciph.counter handle gen lane).ceiling < (s.ciph.counter handle gen lane).value + count) ∧
      ((takeNonce handle gen lane count s).2 = none →
        ((takeNonce handle gen lane count s).1.ciph.counter handle gen lane).value =
          (s.ciph.counter handle gen lane).value))

/-- For a CID with count 0, a change by −1 leaves the count 0, sets its flag [7] (not reclaimable), leaves every other
CID's record, and hands the Diary intake one METADATA_FAULT event that names the CID. Its argument code is that of
Table 17-2. (R200) -/
def Obligations.CountBelowZero : Prop :=
    ∀ (cid : Nat) (s : State) (r : CtRec), s.ftl.ctRec cid = some r → r.refs = 0 →
      (addRef cid (-1) s).ftl.ctRec cid = some { r with refs := 0, flags := setBit 7 r.flags } ∧
      bitAt 7 (setBit 7 r.flags) = true ∧
      (∀ other, other ≠ cid → (addRef cid (-1) s).ftl.ctRec other = s.ftl.ctRec other) ∧
      (addRef cid (-1) s).diary = (s.diary.intake ⟨0x7001, 0, 20, s.sys.slot % 2, s.tt.now, s.tt.now,
        argOf [(0, 3), (2, cid % 2 ^ 48)]⟩).1

/-- A change of a CID's count by any amount leaves every other CID's record, leaves the count at most 0xFFFF_FFFF, and
gives exactly the sum, with the flags unchanged, where the sum is in range. (R198, R200) -/
def Obligations.CountsStayInRange : Prop :=
    ∀ (cid other : Nat) (d : Int) (s : State) (r q : CtRec), s.ftl.ctRec cid = some r → s.ftl.ctRec other = some q →
      ∃ p, (addRef cid d s).ftl.ctRec other = some p ∧
        (other ≠ cid → p = q) ∧
        (other = cid → p.refs ≤ 0xFFFFFFFF ∧
          (0 ≤ r.refs + d → r.refs + d ≤ 0xFFFFFFFF → (p.refs : Int) = r.refs + d ∧ p.flags = r.flags))

/-- Outside a freeze, an event whose code, island, head slot and argument are those of the newest record raises its repeat
by 1, saturating at 0xFFFF, and sets its last time, and DIARY_HEAD stays; any other event becomes the newest of at
most 1,048,576 records and DIARY_HEAD rises by 1. (R580, R583) -/
def Obligations.EventsRepeatOrRecord : Prop :=
    ∀ (code island arg : Nat) (s : State), s.diary.frozen = false →
      ((∃ p rest, s.diary.ring = p :: rest ∧ p.code = code ∧ p.island = island ∧ p.flags % 2 = s.sys.slot % 2 ∧ p.arg = arg ∧
        (event code island arg s).diary.ring =
          { p with repeats := min (p.repeats + 1) 0xFFFF, last := s.tt.now } :: rest ∧
        (event code island arg s).diary.head = s.diary.head) ∨
      ((∀ p, s.diary.ring.head? = some p → ¬(p.code = code ∧ p.island = island ∧ p.flags % 2 = s.sys.slot % 2 ∧ p.arg = arg)) ∧
        (event code island arg s).diary.ring =
          (⟨code, 0, island, s.sys.slot % 2, s.tt.now, s.tt.now, arg⟩ :: s.diary.ring).take 1048576 ∧
        (event code island arg s).diary.head = s.diary.head + 1))

/-- While the Diary is frozen an event changes neither ring nor DIARY_HEAD, the freeze stays, a pocket within 4,096
records stays within them, and the missed count changes only by 1, with a full and unchanged pocket and the time of
the last missed event. (R585, R586) -/
def Obligations.FrozenDiaryKeepsItsRing : Prop :=
    ∀ (code island arg : Nat) (s : State), s.diary.frozen = true →
      (event code island arg s).diary.ring = s.diary.ring ∧ (event code island arg s).diary.head = s.diary.head ∧
      (event code island arg s).diary.frozen = true ∧
      (s.diary.pocket.length ≤ 4096 → (event code island arg s).diary.pocket.length ≤ 4096) ∧
      ((event code island arg s).diary.missed = s.diary.missed ∨
        (4096 ≤ s.diary.pocket.length ∧ (event code island arg s).diary.missed = s.diary.missed + 1 ∧
          (event code island arg s).diary.pocket = s.diary.pocket ∧ (event code island arg s).diary.missLast = s.tt.now))

/-- If the witnesses two heads hold are together at most M, head slots 0 and 1 do not both meet R481. (R481) -/
def Obligations.AtMostOneHeadContinues : Prop :=
    ∀ held0 held1 m : Nat, held0 + held1 ≤ m → ¬(meets 0 held0 m = true ∧ meets 1 held1 m = true)

/-- A block is accepted exactly when the slot is usable, the Ed448 and the ML-DSA-87 signatures of the places R67 gives
verify, and its reserved and trailing bytes are zero; the first failing of slot, Ed448 and ML-DSA-87 gives reason 3, 1
or 2. The verification functions are opaque (log entry 8). (R507, R67) -/
def Obligations.SignatureBlockChecks : Prop :=
    ∀ (usable : Bool) (keys : Bytes × Bytes) (msg ctx block : Bytes),
      (checkBlock usable keys msg ctx block = none ↔
        usable = true ∧ Config.ed448Verify keys.1 msg ctx (slice block 4 114) = true ∧
        Config.mldsaVerify keys.2 msg ctx (slice block 120 4627) = true ∧ sigClean block = true) ∧
      (usable = false → checkBlock usable keys msg ctx block = some 3) ∧
      (usable = true → Config.ed448Verify keys.1 msg ctx (slice block 4 114) = false →
        checkBlock usable keys msg ctx block = some 1) ∧
      (usable = true → Config.ed448Verify keys.1 msg ctx (slice block 4 114) = true →
        Config.mldsaVerify keys.2 msg ctx (slice block 120 4627) = false →
        checkBlock usable keys msg ctx block = some 2)

/-- Where a claim is blocked, the claim reported is that of a wanted resource, held by another feature, and no lower
wanted resource is so held; where none is reported, no wanted resource is held by another feature. (R547) -/
def Obligations.ClaimsAreAllOrNothing : Prop :=
    ∀ (c : Cpi) (res : List Nat) (mine : Claim → Bool),
      (∀ k, c.blocked res mine = some k →
        k.resource ∈ res ∧ c.holder k.resource = some k ∧ mine k = false ∧
        ∀ r ∈ res, ∀ j, c.holder r = some j → mine j = false → k.resource ≤ r) ∧
      (c.blocked res mine = none → ∀ r ∈ res, ∀ j, c.holder r = some j → mine j = true)

/-- After a claim of resources each is held by that claim and every other resource is held as before; after a release none
of them is held and every other is held as before. (R547, R548) -/
def Obligations.ClaimedResourcesAreHeld : Prop :=
    ∀ (res : List Nat) (opcode cls tag : Nat) (b : Option Binding) (s : State),
      (∀ r ∈ res, (claimAll res opcode cls tag b s).cpi.holder r = some ⟨r, opcode, cls, tag, b, s.tt.now⟩) ∧
      (∀ r, r ∉ res → (claimAll res opcode cls tag b s).cpi.holder r = s.cpi.holder r) ∧
      (∀ r, (releaseClaims res s).cpi.holder r = if r ∈ res then none else s.cpi.holder r)

/-- For every grain of 16,384 bytes: the encoder's tier is 1 to 4, its slot has the tier's size, and the decoder, asked
for the four quarters, reports no error and returns the grain. The encoder's candidates are opaque (log entry 9).
(R204, R205, R222, R223) -/
def Obligations.EncodedGrainsDecode : Prop :=
    ∀ grain : Bytes, grain.length = 16384 →
      1 ≤ (skxEncode grain).tier ∧ (skxEncode grain).tier ≤ 4 ∧
      (skxEncode grain).slot.length = tierSize (skxEncode grain).tier ∧
      skxDecode (skxEncode grain).slot (skxEncode grain).tier [0, 1, 2, 3] =
        ⟨[], [0, 1, 2, 3].map (fun q => (q, slice grain (4096 * q) 4096))⟩

/-- For every 32-byte key, 12-byte nonce, additional data and text: the ciphertext is as long as the text, the tag has 16
bytes, and opening the ciphertext under the same key, nonce and data with that tag returns the text. (R248, R267) -/
def Obligations.SealedTextOpens : Prop :=
    ∀ key nonce aad text : Bytes, key.length = 32 → nonce.length = 12 →
      (gcmSeal key nonce aad text).1.length = text.length ∧ (gcmSeal key nonce aad text).2.length = 16 ∧
      gcmOpen key nonce aad (gcmSeal key nonce aad text).1 (gcmSeal key nonce aad text).2 = some text

/-- Every coefficient times j ⊕ (4 + i) is 1, and the coefficients of Table 9-1 have its values. For up to 32 strips of
one length, the difference of parity strip j with and without data strip i, divided by c(j,i), is that strip. (R325,
R326) -/
def Obligations.ParityRestoresOneStrip : Prop :=
    ((∀ j i : Nat, j < 4 → i < 32 → parityMul (parityCoef j i) (BitVec.ofNat 8 j ^^^ BitVec.ofNat 8 (4 + i)) = 1) ∧
      parityCoef 0 0 = 0x47 ∧ parityCoef 0 4 = 0xAD ∧ parityCoef 0 12 = 0xD8 ∧ parityCoef 0 28 = 0x6C) ∧
    (∀ (n i k : Nat) (strips : List Bytes) (j : Nat), i < k → k ≤ 32 → j < 4 → strips.length = k →
      (∀ x ∈ strips, x.length = n) →
      scale (gfInv 0x1D (parityCoef j i))
        (xorBytes (paritySum j 0 n strips) (paritySum j 0 n (strips.set i (zeros n)))) = strips.getD i [])

/-- Supplies, resets, references, voltage and the start of a head: what each command leaves, for every state and operands
that meet the premises written with it. SUPPLIES_VALID (R611, R599), COLD_RESET (R608, R609), WARM_RESET (R608, R574,
R609), VDD_AON_ONLY (R600), SUPPLY_TRIP (R602, R617), REFCLK_LOST (R607), REFCLK_RESTORED (R607), AVS_ADJUST (R601),
AVS_CONFIRM_TIMEOUT (R601), FULL_TRAINING_COMPLETE (R619, R81). The model's own choices that bear on these commands
are log entries 23, 24, 25, 26, 27, 28, 29, 32, 45, 72, 74, 77, 90. -/
def Obligations.PowerAndResetCommands : Prop :=
    -- SUPPLIES_VALID
    (∀ (env : StartEnv) (s : State),
      (s.pwr.stage = .off ∨ s.pwr.stage = .aonOnly) →
      exec (.suppliesValid env) s = .next (startHead true (s.pwr.stage == .off) 1 env s)) ∧
    -- COLD_RESET
    (∀ (env : StartEnv) (s : State),
      s.pwr.stage ≠ .off →
      s.pwr.stage ≠ .aonOnly →
      s.pwr.stage ≠ .vault →
      s.resetIgnored 261 = false →
      exec (.coldReset .pin env) s = .next (setLevel 261 false (startHead true false 3 env s))) ∧
    -- COLD_RESET
    (∀ (env : StartEnv) (s : State),
      exec (.coldReset .powerOn env) s = .next (startHead true false 1 env s)) ∧
    -- COLD_RESET
    (∀ (env : StartEnv) (s : State),
      exec (.coldReset .aonLoss env) s = .next (startHead true true 2 env s)) ∧
    -- WARM_RESET
    (∀ (env : StartEnv) (s : State),
      s.pwr.stage ≠ .off →
      s.pwr.stage ≠ .aonOnly →
      s.pwr.stage ≠ .vault →
      s.pwr.restartDue = false →
      s.resetIgnored 262 = false →
      exec (.warmReset env) s = .next (setLevel 262 false (startHead false false 4 env s))) ∧
    -- WARM_RESET
    (∀ (env : StartEnv) (s : State),
      s.pwr.stage ≠ .off →
      s.pwr.stage ≠ .aonOnly →
      s.pwr.stage ≠ .vault →
      s.pwr.restartDue = true →
      exec (.warmReset env) s = .next (startHead false false 6 env s)) ∧
    -- VDD_AON_ONLY
    (∀ (s : State),
      Completes .vddAonOnly s Touch.all fun t =>
        t.pwr.stage = .aonOnly ∧
        t.pwr.domains = 1 ∧
        t.hq.controllers = [] ∧
        t.cpi.accepted = [] ∧
        t.stg.versions = [] ∧
        t.stg.vault = s.stg.vault ∧
        t.trust.fuses = s.trust.fuses ∧
        t.trust.clockNs = max s.trust.clockNs (1000 * s.recordedClock StartEnv.none_)) ∧
    -- SUPPLY_TRIP
    (∀ (rail : Nat) (high : Bool) (s : State),
      rail < 9 →
      s.pwr.stage ≠ .off →
      s.pwr.stage ≠ .aonOnly →
      Completes (.supplyTrip rail high) s { pwr := true, pins := true, dram := true, trust := true, cpi := true, diary := true, tally := true, tt := true, stg := true, ftl := true, bay := true, ciph := true, hq := true, corr := true, out := true } fun t =>
        t.pwr.tripRail = rail ∧
        t.pwr.tripHigh = high ∧
        t.pwr.tripWhen = s.tt.now ∧
        t.pwr.tripped = setBit rail s.pwr.tripped ∧
        t.pwr.stage = (if s.pwr.stage = .service then .vault else if s.pwr.stage.early = true then .earlyWait else s.pwr.stage)) ∧
    -- REFCLK_LOST
    (∀ (ref : RefClock) (s : State),
      bitAt (refBit ref) s.pwr.refsPresent = true →
      exec (.refclkLost ref) s = .next (refLost ref { s with pwr := { s.pwr with
            refsPresent := s.pwr.refsPresent - 2 ^ refBit ref, refsLost := setBit (refBit ref) s.pwr.refsLost } })) ∧
    -- REFCLK_RESTORED
    (∀ (ref : RefClock) (s : State),
      bitAt (refBit ref) s.pwr.refsPresent = false →
      exec (.refclkRestored ref) s = .next (refBack ref { s with pwr := { s.pwr with refsPresent := setBit (refBit ref) s.pwr.refsPresent } })) ∧
    -- AVS_ADJUST
    (∀ (targetMv : Nat) (measuredMv : Nat) (s : State),
      s.pwr.avsSent = none →
      s.pwr.avsDay + 64 ≤ s.day →
      2 ≤ s.trust.stage →
      Completes (.avsAdjust targetMv measuredMv) s { pwr := true, out := true } fun t =>
        (∃ mv, t.pwr.avsSent = some mv ∧ t.out = s.out ++ [.avsTarget mv] ∧
      mv ≤ s.pwr.avsTarget + 10 ∧ s.pwr.avsTarget ≤ mv + 10 ∧
      (s.pwr.avsTarget ≤ 850 → 650 ≤ s.pwr.avsTarget → 650 ≤ mv ∧ mv ≤ 850)) ∧
        t.pwr.avsTarget = s.pwr.avsTarget) ∧
    -- AVS_CONFIRM_TIMEOUT
    (∀ (s : State),
      s.pwr.avsSent.isSome = true →
      s.pwr.avsSentAt + msBells 1 ≤ s.tt.now →
      Completes .avsConfirmTimeout s { pwr := true } fun t =>
        t.pwr.avsSent = none ∧
        t.pwr.avsTarget = s.pwr.avsTarget ∧
        t.pwr.avsDay = s.day) ∧
    -- FULL_TRAINING_COMPLETE
    (∀ (s : State),
      s.fullyTrained = true →
      s.tt.degraded.contains ⟨5, s.sys.slot, 0⟩ = true →
      s.tt.switches.any (fun x => x.what == ⟨5, s.sys.slot, 0⟩ && !x.enter) = false →
      exec .fullTrainingComplete s = .next (trigger false 5 0 s))

/-- Power failure, the Vault image and the restart from it: what each command leaves, for every state and operands that
meet the premises written with it. PWR_FAIL_N_LOW (R156), EARLY_POWER_FAIL (R617), THERMAL_VAULT (R637, R627),
THERMTRIP (R637), VAULT_SHEET_ENTRY (R158, R85, R159), VAULT_SEAL (R159, R609), VAULT_WARM_START (R160, R617),
VAULT_RESTORE_COMPLETE (R616, R387), VAULT_NOTICE (R161, R477), VAULT_DONE (R161), VAULT_DONE_TIMEOUT (R161). The
model's own choices that bear on these commands are log entries 30, 31, 32, 33, 79, 83. -/
def Obligations.VaultCommands : Prop :=
    -- PWR_FAIL_N_LOW
    (∀ (s : State),
      (s.pins.pin 256).fault ≠ .isOpen →
      Completes .pwrFailNLow s { pwr := true, pins := true, dram := true, trust := true, cpi := true, diary := true, tally := true, tt := true, stg := true, ftl := true, bay := true, ciph := true, hq := true, corr := true, out := true } fun t =>
        (s.pwr.stage = .service → t.pwr.stage = .vault) ∧
        (s.pwr.stage.early = true → t.pwr.stage = .earlyWait) ∧
        t.pwr.failHighSince = some s.tt.now) ∧
    -- EARLY_POWER_FAIL
    (∀ (s : State),
      s.pwr.stage.early = true →
      Completes .earlyPowerFail s { pwr := true, dram := true, cpi := true, bay := true, hq := true } fun t =>
        t.pwr.stage = .earlyWait ∧
        t.hq.controllers = [] ∧
        t.hq.queues = [] ∧
        t.hq.ctxs = [] ∧
        t.hq.linkUp = 0 ∧
        t.bay.waiting = [] ∧
        t.bay.outstanding = [] ∧
        t.stg = s.stg) ∧
    -- THERMAL_VAULT
    (∀ (temp : Int) (island : Nat) (s : State),
      110 ≤ temp →
      Completes (.thermalVault temp island) s { pwr := true, pins := true, dram := true, trust := true, cpi := true, diary := true, tally := true, tt := true, stg := true, ftl := true, bay := true, ciph := true, hq := true, corr := true, out := true } fun t =>
        (s.pwr.stage = .service → t.pwr.stage = .vault ∧ t.pins.thermVault = true ∧ t.pins.tempVault = true) ∧
        (s.pwr.stage.early = true → t.pwr.stage = .earlyWait ∧ t.pins.thermVault = true ∧ t.pins.tempVault = true)) ∧
    -- THERMTRIP
    (∀ (temp : Int) (island : Nat) (s : State),
      Completes (.thermtrip temp island) s { pins := true } fun t =>
        t.pins.thermtrip = decide (125 ≤ temp) ∧
        t.pins.pins = s.pins.pins) ∧
    -- VAULT_SHEET_ENTRY
    (∀ (s : State),
      s.vaultEntryDue = true →
      Completes .vaultSheetEntry s { pwr := true, trust := true, cpi := true, diary := true, tally := true, tt := true, stg := true, ftl := true, ec := true, bay := true, pool := true, ciph := true, skx := true, jobs := true, hq := true, repl := true, corr := true, out := true, draws := true } fun t =>
        t.hq.linkUp = 0 ∧
        t.tt.vaultDue = false ∧
        t.tt.sheetOf = ⟨6, s.sys.slot, 0⟩) ∧
    -- VAULT_SEAL
    (∀ (env : StartEnv) (s : State),
      s.pwr.stage = .vault →
      s.stg.trailer = true →
      s.bay.flushing = false →
      Completes (.vaultSeal false false env) s Touch.all fun t =>
        t.pwr.stage = .sealed ∧
        t.stg.vault = 2 ∧
        t.stg.image = none ∧
        t.stg.sealedAt = s.tt.now) ∧
    -- VAULT_WARM_START
    (∀ (env : StartEnv) (s : State),
      (s.pwr.stage = .sealed ∨ s.pwr.stage = .earlyWait) →
      s.mayRestart = true →
      exec (.vaultWarmStart env) s = .next (startHead false false 5 env s)) ∧
    -- VAULT_RESTORE_COMPLETE
    (∀ (s : State),
      s.stg.restored = false →
      (s.pwr.stage = .service ∨ s.pwr.stage = .starting) →
      Completes .vaultRestoreComplete s { trust := true, tally := true, stg := true, bay := true, pool := true, corr := true, out := true } fun t =>
        t.stg.restored = true ∧
        t.stg.restoring = [] ∧
        t.stg.versions = s.stg.versions) ∧
    -- VAULT_NOTICE
    (∀ (time : Nat) (s : State),
      s.drops (.vaultNotice time) = false →
      Completes (.vaultNotice time) s { trust := true, cpi := true, diary := true, tally := true, tt := true, bay := true, hq := true, corr := true, out := true } fun t =>
        t.corr.notice = some s.tt.now ∧
        t.corr.peerImage = some time) ∧
    -- VAULT_DONE
    (∀ (time : Nat) (length : Nat) (s : State),
      s.drops (.vaultDone time length) = false →
      Completes (.vaultDone time length) s { diary := true, tally := true, bay := true, corr := true } fun t =>
        t.corr.notice = none) ∧
    -- VAULT_DONE_TIMEOUT
    (∀ (n : Nat) (s : State),
      s.corr.notice = some n →
      n + secBells 2 ≤ s.tt.now →
      Completes .vaultDoneTimeout s { bay := true, corr := true } fun t =>
        t.corr.notice = none)

/-- The bell, epochs, terms, sheets and timetable images: what each command leaves, for every state and operands that meet
the premises written with it. BELL_TICK (R38, R600), EPOCH_END (R296, R301), EPOCH_SEAL_WRITE (R297), TERM_CHANGEOVER
(R76), SHEET_SWITCH (R81), RESOURCE_RETURN_DUE (R81), SHEET_TRIGGER (R81), TT_STAGE (R73), TT_ARM (R74, R383),
TT_DISARM (R75, R383), TT_QUERY (R74), TT_VERDICT (R73), TT_IMAGE (R73). The model's own choices that bear on these
commands are log entries 8, 34, 45, 67, 68, 70, 71, 72, 73, 78, 87. -/
def Obligations.TimetableCommands : Prop :=
    -- BELL_TICK
    (∀ (s : State),
      s.pwr.stage = .aonOnly →
      exec .bellTick s = .next (runClock 16000 s)) ∧
    -- BELL_TICK
    (∀ (u : State) (s : State),
      s.pwr.stage ≠ .off →
      s.pwr.stage ≠ .aonOnly →
      u = countPeriod (nextPeriod (runClock (4 * s.tt.cycles) (unseen s))) →
      exec .bellTick s = .next (endCaptures (ledBell (avsBell (islandsBell (stageBell (loadBell (serviceBell (boxBell (contextBell (classBell
          (sharesBell (dramBell (windowsBell (refillBuckets (dayBell (resetPinsBell { u with tally := u.tally.zeroDue }))))))))))))))))) ∧
    -- EPOCH_END
    (∀ (s : State),
      s.tt.now % 8 = 0 →
      s.ftl.seqEpoch ≠ s.epoch →
      exec .epochEnd s = .next ({ s with ftl := { s.ftl with seqEpoch := s.epoch, nextSeq := 0 } })) ∧
    -- EPOCH_SEAL_WRITE
    (∀ (r : JRec) (s : State),
      r = ⟨s.sys.slot, (s.ftl.recordsOf s.sys.slot (s.ftl.sealWritten + 1)).length, s.ftl.sealWritten + 1,
      sealOf (s.ftl.recordsOf s.sys.slot (s.ftl.sealWritten + 1))⟩ →
      s.pool.isSome = true →
      r.epoch < s.epoch →
      (s.paired = true → s.ftl.unacked.all (fun u => r.epoch < u.2) = true) →
      exec .epochSealWrite s = .next (advanceDurable (tallyAdd 0x0A 3 1 (sendPeer (.journal [r])
          { s with ftl := { s.ftl with tail := s.ftl.tail ++ [r], sealWritten := r.epoch } })))) ∧
    -- TERM_CHANGEOVER
    (∀ (i : TtImage) (s : State),
      s.tt.pending = some i →
      s.termDue = true →
      Completes .termChangeover s { trust := true, diary := true, tally := true, tt := true, stg := true, ftl := true, ec := true, bay := true, pool := true, corr := true, out := true } fun t =>
        t.tt.active = some i ∧
        t.tt.pending = none ∧
        t.tt.load = .none ∧
        t.tt.armDay = 0) ∧
    -- SHEET_SWITCH
    (∀ (s : State),
      s.switchesDue ≠ [] →
      exec .sheetSwitch s = .next (handoverAgain s.switchesDue (s.switchesDue.foldl (fun t x => takeOut x t) (selectSheet (applySwitches s))))) ∧
    -- RESOURCE_RETURN_DUE
    (∀ (what : Degradation) (s : State),
      s.tt.returning.any (fun x => x.1 == what && x.2 + 64 ≤ s.day && what.head == s.sys.slot) = true →
      Completes (.resourceReturnDue what) s { trust := true, tally := true, tt := true, corr := true, out := true } fun t =>
        t.tt.returning = s.tt.returning.filter (fun x => x.1 != what) ∧
        (t.tt.switches.filter (fun y => y.what == ⟨what.kind, s.sys.slot, what.index⟩)).getLast?.any (fun y => y.enter == false) = true) ∧
    -- SHEET_TRIGGER
    (∀ (number : Nat) (kind : Nat) (action : Nat) (index : Nat) (detected : Nat) (switchDay : Nat) (s : State),
      s.drops (.sheetTrigger kind action index detected switchDay) = false →
      getKey number s.corr.answered = none →
      s.corr.answerOf (fun b => b == .sheetTrigger kind action index detected switchDay) = none →
      (action = 1 ∨ action = 2) →
      Completes (.sheetTrigger number kind action index detected switchDay) s { trust := true, tally := true, tt := true, corr := true, out := true } fun t =>
        (t.tt.switches.filter (fun y => y.what == ⟨kind, 1 - s.sys.slot, index⟩)).getLast?.any (fun y => y.enter == (action == 1)) = true ∧
        t.corr.answered = putKey number (.sheetTrigger kind action index detected switchDay) s.corr.answered) ∧
    -- TT_STAGE
    (∀ (b : Binding) (tag : Nat) (p : Packet) (i : TtImage) (s1 : State) (s : State),
      s.cpi.packet b tag 0x0601 = some p →
      s.tt.load = .none →
      takePiece p (p.param 8 8) (p.param 16 8) s = (s1, .whole i.bytes) →
      loadChecks i s1 = none →
      i.term = p.param 0 4 →
      s.paired = false →
      Completes (.ttStage b tag) s { trust := true, cpi := true, diary := true, tally := true, tt := true, corr := true, out := true } fun t =>
        t.tt.pending = some i ∧
        t.tt.load = .staged ∧
        t.tt.lastStatus = .ok) ∧
    -- TT_STAGE
    (∀ (b : Binding) (tag : Nat) (p : Packet) (s1 : State) (s : State),
      s.cpi.packet b tag 0x0601 = some p →
      s.tt.load = .none →
      takePiece p (p.param 8 8) (p.param 16 8) s = (s1, .more) →
      exec (.ttStage b tag) s = .next (answered p [] [] s1)) ∧
    -- TT_ARM
    (∀ (b : Binding) (tag : Nat) (peer : PeerAnswer) (p : Packet) (s : State),
      s.cpi.packet b tag 0x0602 = some p →
      s.tt.staged (p.param 0 4) = true →
      s.tt.tooLate = false →
      s.day + 2 ≤ p.param 8 8 →
      p.param 8 8 ≤ s.day + 65536 →
      (s.paired = true → peer.status = .ok) →
      s.awaitsAlone = false →
      Completes (.ttArm b tag peer) s { trust := true, cpi := true, diary := true, tally := true, tt := true, ftl := true, bay := true, pool := true, corr := true, out := true } fun t =>
        t.tt.load = .armed ∧
        t.tt.armDay = p.param 8 8 ∧
        (b = .peer → t.tt.lastStatus = .ok) ∧
        (b ≠ .peer → t.tt.arming = some (b, tag) ∨ t.tt.lastStatus = .ok)) ∧
    -- TT_DISARM
    (∀ (b : Binding) (tag : Nat) (peer : PeerAnswer) (p : Packet) (s : State),
      s.cpi.packet b tag 0x0603 = some p →
      s.tt.staged (p.param 0 4) = true →
      s.tt.tooLate = false →
      (s.paired = true → peer.status = .ok) →
      s.awaitsAlone = false →
      Completes (.ttDisarm b tag peer) s { trust := true, cpi := true, diary := true, tally := true, tt := true, ftl := true, bay := true, pool := true, corr := true, out := true } fun t =>
        t.tt.load = .none ∧
        t.tt.pending = none ∧
        t.tt.armDay = 0) ∧
    -- TT_QUERY
    (∀ (b : Binding) (tag : Nat) (p : Packet) (s : State),
      s.cpi.packet b tag 0x0604 = some p →
      Completes (.ttQuery b tag) s { trust := true, cpi := true, tally := true, corr := true, out := true } fun t =>
        Replied p .ok (fields [(8, s.ttNow), (8, s.ttTerm), (8, s.ttSheet), (8, s.ttLoad)] ++ fitBytes 16 s.tt.lastDetail) ([]) t) ∧
    -- TT_VERDICT
    (∀ (term : Nat) (detail : Bytes) (b : Binding) (tag : Nat) (i : TtImage) (p : Packet) (s : State),
      s.cpi.packet b tag 0x0601 = some p →
      s.drops (.ttVerdict term .ok detail) = false →
      s.tt.staging = some (b, tag) →
      s.tt.load = .checking →
      s.tt.pending = some i →
      i.term = term →
      Completes (.ttVerdict term .ok detail) s { trust := true, cpi := true, diary := true, tally := true, tt := true, corr := true, out := true } fun t =>
        t.tt.load = .staged ∧
        t.tt.staging = none ∧
        t.tt.lastStatus = .ok) ∧
    -- TT_IMAGE
    (∀ (number : Nat) (term : Nat) (offset : Nat) (bytes : Bytes) (l : Bytes) (s : State),
      s.drops (.ttImage term offset bytes.length bytes) = false →
      getKey number s.corr.answered = none →
      s.pwr.stage ≠ .joining →
      l = (if offset = 0 then [] else s.tt.incoming.take offset) ++ bytes →
      l.length < fieldAt l 0x10 4 →
      Completes (.ttImage number term offset bytes) s { trust := true, diary := true, tally := true, tt := true, corr := true, out := true } fun t =>
        t.tt.incoming = l)

/-- Capsules, their fetch, sequence numbers, data arrival and connections: what each command leaves, for every state and
operands that meet the premises written with it. CAPSULE_RECEIVE (R93, R95, R109), CAPSULE_FETCH (R99, R100),
METADATA_PAGE_PREFETCH (R295), FSN_REQUEST (R103, R124), FSN_GRANT (R103, R109, R106), WRITE_DATA_ARRIVAL (R101, R133,
R140), DATA_IN_TIMEOUT (R102), CONNECTION_ERROR (R117), KEEP_ALIVE_EXPIRY (R115). The model's own choices that bear on
these commands are log entries 15, 17, 18, 19, 80, 81, 82, 95. -/
def Obligations.CapsuleAndConnectionCommands : Prop :=
    -- CAPSULE_RECEIVE
    (∀ (cntlid : Nat) (qid : Nat) (cid : Nat) (cap : Capsule) (q : Queue) (s : State),
      cntlid ≠ 65536 →
      s.hq.queue cntlid qid = some q →
      q.qid ≠ 0 →
      q.capsules.length < q.size →
      s.hq.poolEmpty q.port = false →
      cap.tcp = false →
      exec (.capsuleReceive cntlid qid cid cap true) s = .next (acceptCapsule q cid cap s)) ∧
    -- CAPSULE_RECEIVE
    (∀ (cntlid : Nat) (qid : Nat) (cid : Nat) (cap : Capsule) (q : Queue) (s : State),
      cntlid ≠ 65536 →
      s.hq.queue cntlid qid = some q →
      q.qid ≠ 0 →
      q.capsules.length < q.size →
      s.hq.poolEmpty q.port = false →
      cap.tcp = true →
      cap.data.any (fun d => d.length + cap.pi.length != cap.sgl) = true →
      exec (.capsuleReceive cntlid qid cid cap true) s = .next (endConnection cntlid qid causeSequence s)) ∧
    -- CAPSULE_RECEIVE
    (∀ (cntlid : Nat) (qid : Nat) (cid : Nat) (cap : Capsule) (q : Queue) (s : State),
      cntlid ≠ 65536 →
      s.hq.queue cntlid qid = some q →
      q.qid ≠ 0 →
      q.capsules.length < q.size →
      cap.tcp = false →
      Completes (.capsuleReceive cntlid qid cid cap false) s { trust := true, tally := true, stg := true, ftl := true, bay := true, jobs := true, hq := true, repl := true, corr := true, out := true, draws := true } fun t =>
        t.out = s.out ++ [.rnrNak cntlid qid] ∧
        t.hq = s.hq) ∧
    -- CAPSULE_RECEIVE
    (∀ (qid : Nat) (cid : Nat) (cap : Capsule) (room : Bool) (r : Reservation) (s : State),
      cap.opcode = 0x0D →
      s.hq.reservation cap.nsid = r →
      cap.cdw10 = 0 →
      r.keyOf cap.pi = none →
      exec (.capsuleReceive 65536 qid cid cap room) s = .next (setReservation { r with gen := r.gen + 1, keys := r.keys.filter (fun k => k.1 != cap.pi) ++ [(cap.pi, resKey cap 8)] } s)) ∧
    -- CAPSULE_RECEIVE
    (∀ (qid : Nat) (cid : Nat) (cap : Capsule) (room : Bool) (r : Reservation) (s : State),
      cap.opcode = 0x11 →
      s.hq.reservation cap.nsid = r →
      r.keyOf cap.pi = some (resKey cap 0) →
      cap.cdw10 % 8 = 0 →
      1 ≤ bitField 15 8 cap.cdw10 →
      bitField 15 8 cap.cdw10 ≤ 6 →
      r.holder = none →
      exec (.capsuleReceive 65536 qid cid cap room) s = .next (setReservation { r with holder := some cap.pi, rtype := bitField 15 8 cap.cdw10 } s)) ∧
    -- CAPSULE_RECEIVE
    (∀ (qid : Nat) (cid : Nat) (cap : Capsule) (room : Bool) (r : Reservation) (s : State),
      cap.opcode = 0x15 →
      s.hq.reservation cap.nsid = r →
      r.keyOf cap.pi = some (resKey cap 0) →
      cap.cdw10 % 8 = 0 →
      r.holds cap.pi = true →
      bitField 15 8 cap.cdw10 = r.rtype →
      r.rtype < 3 →
      exec (.capsuleReceive 65536 qid cid cap room) s = .next (setReservation { r with holder := none, rtype := 0 } s)) ∧
    -- CAPSULE_FETCH
    (∀ (q : Queue) (u : State) (s : State),
      s.fetches = true →
      s.hq.queues[s.hq.turn]? = some q →
      s.hq.taken + 1 < q.weight →
      tryFetch q s = some (u, true) →
      (tryQueue s.hq.turn u).isSome = true →
      exec .capsuleFetch s = .next ({ u with hq := { u.hq with turn := s.hq.turn, taken := s.hq.taken + 1 } })) ∧
    -- CAPSULE_FETCH
    (∀ (q : Queue) (u : State) (s : State),
      s.fetches = true →
      s.hq.queues[s.hq.turn]? = some q →
      s.hq.taken + 1 = q.weight →
      tryFetch q s = some (u, true) →
      exec .capsuleFetch s = .next ({ u with hq := { u.hq with turn := s.hq.turn + 1, taken := 0 } })) ∧
    -- METADATA_PAGE_PREFETCH
    (∀ (cntlid : Nat) (qid : Nat) (q : Queue) (cid : Nat) (cap : Capsule) (at_ : Nat) (rest : List (Nat × (Capsule × Nat))) (root page : Nat) (s : State),
      s.hq.queue cntlid qid = some q →
      q.capsules = (cid, (cap, at_)) :: rest →
      readsData cap = true →
      s.fetches = true →
      (s.pagesFor cap).filter (fun p => s.ftl.absent.contains p && !s.ftl.lostPages.contains p) = [(root, page)] →
      (s.bay.waiting ++ s.bay.outstanding).any (fun o => o.use == .metadata root page) = false →
      s.metaAdmits (s.ftl.mpaOfPage root page) = true →
      exec (.metadataPagePrefetch cntlid qid) s = .next (fetchMeta root page (s.ftl.mpaOfPage root page) s)) ∧
    -- FSN_REQUEST
    (∀ (number : Nat) (nsid : Nat) (tag : Nat) (cap : Capsule) (host : Bytes) (t : State) (s : State),
      s.drops (.fsnRequest nsid tag) = false →
      getKey number s.corr.answered = none →
      s.hq.fsnWaits.any (fun f => f.1 == number) = false →
      s.hq.ps ≠ 3 →
      grantFsn number nsid tag cap host (tallyAdd 0x0D 1 1 s) = some t →
      exec (.fsnRequest number nsid tag cap host) s = .next (t)) ∧
    -- FSN_REQUEST
    (∀ (number : Nat) (nsid : Nat) (tag : Nat) (cap : Capsule) (host : Bytes) (s : State),
      s.drops (.fsnRequest nsid tag) = false →
      getKey number s.corr.answered = none →
      s.hq.fsnWaits.any (fun f => f.1 == number) = false →
      s.hq.ps ≠ 3 →
      grantFsn number nsid tag cap host (tallyAdd 0x0D 1 1 s) = none →
      Completes (.fsnRequest number nsid tag cap host) s { trust := true, tally := true, tt := true, stg := true, ftl := true, hq := true, corr := true, out := true } fun t =>
        t.hq.fsnWaits = s.hq.fsnWaits ++ [(number, (nsid, (tag, (cap, host))))] ∧
        t.corr.answered = s.corr.answered) ∧
    -- FSN_GRANT
    (∀ (nsid : Nat) (tag : Nat) (seq : Nat) (q : Queue) (c : Controller) (m : Sent) (u : State) (s : State),
      s.drops (.fsnGrant nsid tag seq) = false →
      s.corr.answerOf (fun b => b == .fsnRequest nsid tag) = some m →
      u = settleNumber m.number (tallyAdd 0x0D 1 1 s) →
      u.hq.queues.find? (fun q => q.asked == some tag) = some q →
      u.hq.controller q.cntlid = some c →
      seq ≠ 0 →
      exec (.fsnGrant nsid tag seq) s = .next (takeCapsule { q with granted := some seq } seq false c.hostId u)) ∧
    -- FSN_GRANT
    (∀ (nsid : Nat) (tag : Nat) (q : Queue) (m : Sent) (u : State) (s : State),
      s.drops (.fsnGrant nsid tag 0) = false →
      s.corr.answerOf (fun b => b == .fsnRequest nsid tag) = some m →
      u = settleNumber m.number (tallyAdd 0x0D 1 1 s) →
      u.hq.queues.find? (fun q => q.asked == some tag) = some q →
      exec (.fsnGrant nsid tag 0) s = .next (takeFailed { q with asked := none } nvmeReserved (unask q u))) ∧
    -- WRITE_DATA_ARRIVAL
    (∀ (cntlid : Nat) (qid : Nat) (cid : Nat) (first : Nat) (data : Bytes) (pi : Bytes) (x : Ctx) (u : State) (s : State),
      s.hq.ctx cntlid qid cid = some x →
      x.cap.opcode = 0x01 →
      x.state = .dataIn →
      x.committed = false →
      x.forPeer = false →
      x.overruns first data pi = false →
      x.blocks.any (fun b => first ≤ b.1 && b.1 < first + data.length / 4096) = false →
      u = writeProgress (placeData x first (data.take (4096 * (x.cap.nlb - first))) pi s).1 (placeData x first (data.take (4096 * (x.cap.nlb - first))) pi s).2 →
      u.hq.ctx cntlid qid cid = none →
      exec (.writeDataArrival cntlid qid cid first data pi true) s = .next (u)) ∧
    -- WRITE_DATA_ARRIVAL
    (∀ (cntlid : Nat) (qid : Nat) (cid : Nat) (first : Nat) (data : Bytes) (pi : Bytes) (x z : Ctx) (u : State) (s : State),
      s.hq.ctx cntlid qid cid = some x →
      x.cap.opcode = 0x01 →
      x.state = .dataIn →
      x.committed = false →
      x.forPeer = false →
      x.overruns first data pi = false →
      x.blocks.any (fun b => first ≤ b.1 && b.1 < first + data.length / 4096) = false →
      u = writeProgress (placeData x first (data.take (4096 * (x.cap.nlb - first))) pi s).1 (placeData x first (data.take (4096 * (x.cap.nlb - first))) pi s).2 →
      u.hq.ctx cntlid qid cid = some z →
      exec (.writeDataArrival cntlid qid cid first data pi true) s = .next (if z.state = .dataIn ∧ z.committed = false then askData z u else u)) ∧
    -- WRITE_DATA_ARRIVAL
    (∀ (cntlid : Nat) (qid : Nat) (cid : Nat) (first : Nat) (data : Bytes) (pi : Bytes) (ok : Bool) (x : Ctx) (s : State),
      s.hq.ctx cntlid qid cid = some x →
      x.cap.opcode = 0x01 →
      x.forPeer = false →
      x.cap.tcp = true →
      x.overruns first data pi = true →
      exec (.writeDataArrival cntlid qid cid first data pi ok) s = .next (endConnection cntlid qid causeRange s)) ∧
    -- WRITE_DATA_ARRIVAL
    (∀ (cntlid : Nat) (qid : Nat) (cid : Nat) (first : Nat) (data : Bytes) (pi : Bytes) (x : Ctx) (s : State),
      s.hq.ctx cntlid qid cid = some x →
      x.cap.opcode = 0x01 →
      x.state = .dataIn →
      x.committed = false →
      x.forPeer = false →
      x.cap.tcp = false →
      exec (.writeDataArrival cntlid qid cid first data pi false) s = .next (failWrite x nvmeTransfer s)) ∧
    -- DATA_IN_TIMEOUT
    (∀ (cntlid : Nat) (qid : Nat) (cid : Nat) (x : Ctx) (c : Controller) (s : State),
      s.hq.ctx cntlid qid cid = some x →
      x.forPeer = false →
      x.at_ + secBells s.hq.timeout ≤ s.tt.now →
      x.blocks.length < x.cap.nlb →
      x.cap.opcode = 0x01 →
      x.state = .dataIn →
      s.hq.controller x.cntlid = some c →
      exec (.dataInTimeout cntlid qid cid) s = .next (event 0x3003 9 (argOf [(0, c.number), (2, x.qid)]) (failWrite x nvmeTransfer s))) ∧
    -- CONNECTION_ERROR
    (∀ (cntlid : Nat) (c : Controller) (q : Queue) (s : State),
      s.hq.queue cntlid 0 = some q →
      exec (.connectionError cntlid 0) s = .next (loseAssociation cntlid 4 s)) ∧
    -- CONNECTION_ERROR
    (∀ (cntlid : Nat) (qid : Nat) (q : Queue) (s : State),
      s.hq.queue cntlid qid = some q →
      qid ≠ 0 →
      exec (.connectionError cntlid qid) s = .next (endQueue q s)) ∧
    -- KEEP_ALIVE_EXPIRY
    (∀ (cntlid : Nat) (c : Controller) (s : State),
      s.hq.controller cntlid = some c →
      c.kato ≠ 0 →
      c.alive + msBells c.kato ≤ s.tt.now →
      exec (.keepAliveExpiry cntlid) s = .next (loseAssociation cntlid 3 s))

/-- Reads, writes, compares, deallocation and flushes of a host: what each command leaves, for every state and operands
that meet the premises written with it. FLUSH (R111), WRITE (R140, R101), READ (R105, R106, R107), COMPARE (R105),
COMPARE_AND_WRITE (R104), WRITE_ZEROES (R136), DATASET_MANAGEMENT (R114), VERIFY (R107). The model's own choices that
bear on these commands are log entries 15, 18, 22, 71, 81, 84, 94. -/
def Obligations.HostDataCommands : Prop :=
    -- FLUSH
    (∀ (cntlid : Nat) (qid : Nat) (cid : Nat) (remoteDone : Bool) (x : Ctx) (q : Queue) (s : State),
      s.hq.ctx cntlid qid cid = some x →
      s.hq.queue x.cntlid x.qid = some q →
      x.cap.opcode = 0x00 →
      x.state = .fetched →
      s.flushWaits x = false →
      (s.ownsAll x = true ∨ remoteDone = true) →
      exec (.flush cntlid qid cid remoteDone) s = .next (emit (.completion x.cntlid x.qid x.cid 0 0 false 0 q.sqhd []) (unpin (dropCtx x s)))) ∧
    -- WRITE
    (∀ (cntlid : Nat) (qid : Nat) (cid : Nat) (x : Ctx) (s : State),
      s.hq.ctx cntlid qid cid = some x →
      x.cap.opcode = 0x01 →
      x.state = .fetched →
      s.hq.compareRuns x = false →
      x.cap.data = none →
      exec (.write cntlid qid cid) s = .next (startDataIn x s)) ∧
    -- WRITE
    (∀ (cntlid : Nat) (qid : Nat) (cid : Nat) (x : Ctx) (d : Bytes) (s : State),
      s.hq.ctx cntlid qid cid = some x →
      x.cap.opcode = 0x01 →
      x.state = .fetched →
      s.hq.compareRuns x = false →
      x.cap.data = some d →
      exec (.write cntlid qid cid) s = .next (writeProgress (placeData { x with state := .dataIn } 0 (d.take (4096 * x.cap.nlb)) x.cap.pi s).1 (placeData { x with state := .dataIn } 0 (d.take (4096 * x.cap.nlb)) x.cap.pi s).2)) ∧
    -- READ
    (∀ (cntlid : Nat) (qid : Nat) (cid : Nat) (remote : Option (Status × Bytes)) (x : Ctx) (s : State),
      s.hq.ctx cntlid qid cid = some x →
      x.cap.opcode = 0x02 →
      x.state = .fetched →
      (s.ftl.ofNsid x.cap.nsid).any (fun r => s.ownsGroup r.ana) = true →
      exec (.read cntlid qid cid remote) s = .next (readProgress { x with state := .resolved } (setCtx { x with state := .resolved } s))) ∧
    -- READ
    (∀ (cntlid : Nat) (qid : Nat) (cid : Nat) (x : Ctx) (d : Bytes) (s : State),
      s.hq.ctx cntlid qid cid = some x →
      x.cap.opcode = 0x02 →
      x.state = .fetched →
      (s.ftl.ofNsid x.cap.nsid).any (fun r => s.ownsGroup r.ana) = false →
      s.hasMeta x.cap.nsid = false →
      exec (.read cntlid qid cid (some (.ok, d))) s = .next (finishRead { x with state := .resolved, reads := (List.range x.cap.nlb).map (fun i => (Source.zero, some (slice d (4096 * i) 4096))) }
          (setCtx { x with state := .resolved } s))) ∧
    -- COMPARE
    (∀ (cntlid : Nat) (qid : Nat) (cid : Nat) (remote : Option (Status × Bytes)) (x : Ctx) (s : State),
      s.hq.ctx cntlid qid cid = some x →
      x.cap.opcode = 0x05 →
      x.cap.fused = 0 →
      x.state = .fetched →
      x.blocks ≠ [] →
      s.ownsNsid x.cap.nsid = true →
      (s.ftl.ofNsid x.cap.nsid).any (fun r => s.ownsGroup r.ana) = true →
      exec (.compare cntlid qid cid remote) s = .next (readProgress { x with state := .resolved } (setCtx { x with state := .resolved } s))) ∧
    -- COMPARE_AND_WRITE
    (∀ (cntlid : Nat) (qid : Nat) (cid : Nat) (remote : Option (Status × Bytes)) (x : Ctx) (s : State),
      s.hq.ctx cntlid qid cid = some x →
      x.cap.opcode = 0x05 →
      x.cap.fused = 1 →
      x.state = .fetched →
      x.blocks ≠ [] →
      s.ownsNsid x.cap.nsid = true →
      (s.ftl.ofNsid x.cap.nsid).any (fun r => s.ownsGroup r.ana) = true →
      exec (.compareAndWrite cntlid qid cid remote) s = .next (readProgress { x with state := .resolved } (setCtx { x with state := .resolved } s))) ∧
    -- WRITE_ZEROES
    (∀ (cntlid : Nat) (qid : Nat) (cid : Nat) (x : Ctx) (y : Ctx) (u : State) (s : State),
      s.hq.ctx cntlid qid cid = some x →
      x.cap.opcode = 0x08 →
      x.state = .fetched →
      placeZeros { x with state := .dataIn } (zeroPieces x.cap.slba x.cap.nlb false) s = (y, u) →
      exec (.writeZeroes cntlid qid cid) s = .next (writeProgress { y with blocks := (List.range (stagedBlocks x.cap)).map (fun i => (i, [])) } u)) ∧
    -- DATASET_MANAGEMENT
    (∀ (cntlid : Nat) (qid : Nat) (cid : Nat) (x : Ctx) (y : Ctx) (u : State) (s : State),
      s.hq.ctx cntlid qid cid = some x →
      x.cap.opcode = 0x09 →
      x.state = .fetched →
      bitAt 2 x.cap.cdw11 = true →
      placeZeros { x with state := .dataIn } (x.cap.ranges.flatMap (fun r => zeroPieces r.1 r.2 true)) s = (y, u) →
      exec (.datasetManagement cntlid qid cid) s = .next (writeProgress { y with blocks := (List.range (stagedBlocks x.cap)).map (fun i => (i, [])) } u)) ∧
    -- DATASET_MANAGEMENT
    (∀ (cntlid : Nat) (qid : Nat) (cid : Nat) (x : Ctx) (s : State),
      s.hq.ctx cntlid qid cid = some x →
      x.cap.opcode = 0x09 →
      x.state = .fetched →
      bitAt 2 x.cap.cdw11 = false →
      exec (.datasetManagement cntlid qid cid) s = .next (complete x nvmeOk 0 [] (unadmit x s))) ∧
    -- VERIFY
    (∀ (cntlid : Nat) (qid : Nat) (cid : Nat) (remote : Option (Status × Bytes)) (x : Ctx) (s : State),
      s.hq.ctx cntlid qid cid = some x →
      x.cap.opcode = 0x0C →
      x.state = .fetched →
      (s.ftl.ofNsid x.cap.nsid).any (fun r => s.ownsGroup r.ana) = true →
      exec (.verify cntlid qid cid remote) s = .next (readProgress { x with state := .resolved } (setCtx { x with state := .resolved } s)))

/-- Reservations of a namespace: what each command leaves, for every state and operands that meet the premises written
with it. RESERVATION_REGISTER (R109), RESERVATION_REPORT (R109), RESERVATION_ACQUIRE (R109), RESERVATION_RELEASE
(R109). The model's own choices that bear on these commands are log entries 16, 81. -/
def Obligations.ReservationCommands : Prop :=
    -- RESERVATION_REGISTER
    (∀ (cntlid : Nat) (qid : Nat) (cid : Nat) (x : Ctx) (q : Queue) (s : State),
      s.hq.ctx cntlid qid cid = some x →
      s.hq.queue x.cntlid x.qid = some q →
      x.cap.opcode = 0x0D →
      x.state = .fetched →
      x.decided = some nvmeOk →
      exec (.reservationRegister cntlid qid cid) s = .next (emit (.completion x.cntlid x.qid x.cid 0 0 false 0 q.sqhd []) (unpin (dropCtx x s)))) ∧
    -- RESERVATION_REGISTER
    (∀ (cntlid : Nat) (qid : Nat) (cid : Nat) (x : Ctx) (st : NvmeStatus) (s : State),
      s.hq.ctx cntlid qid cid = some x →
      x.cap.opcode = 0x0D →
      x.state = .fetched →
      x.decided = some st →
      exec (.reservationRegister cntlid qid cid) s = .next (complete x st 0 [] s)) ∧
    -- RESERVATION_REPORT
    (∀ (cntlid : Nat) (qid : Nat) (cid : Nat) (x : Ctx) (q : Queue) (s : State),
      s.hq.ctx cntlid qid cid = some x →
      s.hq.queue x.cntlid x.qid = some q →
      x.cap.opcode = 0x0E →
      x.state = .fetched →
      bitAt 0 x.cap.cdw11 = true →
      (s.hq.reservation x.cap.nsid).keys = [] →
      exec (.reservationReport cntlid qid cid) s = .next (emit (.completion x.cntlid x.qid x.cid 0 0 false 0 q.sqhd (fitBytes (4 * (x.cap.cdw10 + 1))
          (fields [(4, (s.hq.reservation x.cap.nsid).gen), (1, (s.hq.reservation x.cap.nsid).rtype), (2, 0), (2, 0),
            (1, flagBit (s.hq.reservation x.cap.nsid).ptpl), (14, 0)] ++ zeros 40))) (unpin (dropCtx x s)))) ∧
    -- RESERVATION_ACQUIRE
    (∀ (cntlid : Nat) (qid : Nat) (cid : Nat) (x : Ctx) (q : Queue) (s : State),
      s.hq.ctx cntlid qid cid = some x →
      s.hq.queue x.cntlid x.qid = some q →
      x.cap.opcode = 0x11 →
      x.state = .fetched →
      x.decided = some nvmeOk →
      exec (.reservationAcquire cntlid qid cid) s = .next (emit (.completion x.cntlid x.qid x.cid 0 0 false 0 q.sqhd []) (unpin (dropCtx x s)))) ∧
    -- RESERVATION_ACQUIRE
    (∀ (cntlid : Nat) (qid : Nat) (cid : Nat) (x : Ctx) (st : NvmeStatus) (s : State),
      s.hq.ctx cntlid qid cid = some x →
      x.cap.opcode = 0x11 →
      x.state = .fetched →
      x.decided = some st →
      exec (.reservationAcquire cntlid qid cid) s = .next (complete x st 0 [] s)) ∧
    -- RESERVATION_RELEASE
    (∀ (cntlid : Nat) (qid : Nat) (cid : Nat) (x : Ctx) (q : Queue) (s : State),
      s.hq.ctx cntlid qid cid = some x →
      s.hq.queue x.cntlid x.qid = some q →
      x.cap.opcode = 0x15 →
      x.state = .fetched →
      x.decided = some nvmeOk →
      exec (.reservationRelease cntlid qid cid) s = .next (emit (.completion x.cntlid x.qid x.cid 0 0 false 0 q.sqhd []) (unpin (dropCtx x s)))) ∧
    -- RESERVATION_RELEASE
    (∀ (cntlid : Nat) (qid : Nat) (cid : Nat) (x : Ctx) (st : NvmeStatus) (s : State),
      s.hq.ctx cntlid qid cid = some x →
      x.cap.opcode = 0x15 →
      x.state = .fetched →
      x.decided = some st →
      exec (.reservationRelease cntlid qid cid) s = .next (complete x st 0 [] s))

/-- Admin commands of a host: what each command leaves, for every state and operands that meet the premises written with
it. GET_LOG_PAGE (R98), IDENTIFY (R91), ABORT (R115), SET_FEATURES (R121, R122, R123, R91), GET_FEATURES (R121),
ASYNC_EVENT_REQUEST (R597), FIRMWARE_COMMIT (R116, R511), FIRMWARE_IMAGE_DOWNLOAD (R96), KEEP_ALIVE (R115). The
model's own choices that bear on these commands are log entries 15, 20, 21, 82. -/
def Obligations.AdminCommands : Prop :=
    -- GET_LOG_PAGE
    (∀ (cntlid : Nat) (cid : Nat) (lid : Nat) (offset : Nat) (length : Nat) (peer : Bytes) (c : Controller) (b : Bytes) (s : State),
      s.hq.controller cntlid = some c →
      s.logPage c lid peer = some b →
      s.handingOver = false →
      Completes (.getLogPage cntlid cid lid offset length peer) s { tally := true, hq := true, out := true, draws := true } fun t =>
        t.out = s.out ++ [.completion cntlid 0 cid 0 0 false 0 (s.adminSqhd cntlid) (slice b offset length)]) ∧
    -- GET_LOG_PAGE
    (∀ (cntlid : Nat) (cid : Nat) (lid : Nat) (offset : Nat) (length : Nat) (peer : Bytes) (c : Controller) (s : State),
      s.hq.controller cntlid = some c →
      s.logPage c lid peer = none →
      s.handingOver = false →
      Completes (.getLogPage cntlid cid lid offset length peer) s { tally := true, hq := true, out := true, draws := true } fun t =>
        t.out = s.out ++ [.completion cntlid 0 cid 1 9 true 0 (s.adminSqhd cntlid) []]) ∧
    -- IDENTIFY
    (∀ (cntlid : Nat) (cid : Nat) (cns : Nat) (nsid : Nat) (cntid : Nat) (c : Controller) (b : Bytes) (s : State),
      s.hq.controller cntlid = some c →
      s.identifyData c cns nsid cntid = some b →
      s.handingOver = false →
      Completes (.identify cntlid cid cns nsid cntid) s { tally := true, hq := true, out := true, draws := true } fun t =>
        t.out = s.out ++ [.completion cntlid 0 cid 0 0 false 0 (s.adminSqhd cntlid) b] ∧
        t.draws = s.draws + 4096) ∧
    -- ABORT
    (∀ (cntlid : Nat) (cid : Nat) (sqid : Nat) (target : Nat) (c : Controller) (q : Queue) (s : State),
      s.hq.controller cntlid = some c →
      (adminFetched cntlid s).hq.queue cntlid sqid = some q →
      q.capsules.any (fun c => c.1 == target) = true →
      exec (.abort cntlid cid sqid target) s = .next (adminDone cntlid cid nvmeOk 0 [] (endCapsules q (fun c => c.1 == target) nvmeAborted (adminFetched cntlid s)))) ∧
    -- ABORT
    (∀ (cntlid : Nat) (cid : Nat) (sqid : Nat) (target : Nat) (c : Controller) (q : Queue) (s : State),
      s.hq.controller cntlid = some c →
      (adminFetched cntlid s).hq.queue cntlid sqid = some q →
      q.capsules.any (fun c => c.1 == target) = false →
      s.handingOver = false →
      Completes (.abort cntlid cid sqid target) s { tally := true, stg := true, hq := true, out := true } fun t =>
        t.out = s.out ++ [.completion cntlid 0 cid 0 0 false 1 (s.adminSqhd cntlid) []] ∧
        t.hq = (adminFetched cntlid s).hq) ∧
    -- SET_FEATURES
    (∀ (cntlid : Nat) (cid : Nat) (nsid : Nat) (value : Nat) (data : Bytes) (c : Controller) (s : State),
      s.hq.controller cntlid = some c →
      1000 ≤ value →
      value ≤ 300000 →
      s.handingOver = false →
      Completes (.setFeatures cntlid cid 0x0F nsid value data) s { tally := true, hq := true, out := true } fun t =>
        t.hq = (setController { c with kato := value, alive := s.tt.now } (adminFetched cntlid s)).hq ∧
        t.out = s.out ++ [.completion cntlid 0 cid 0 0 false 0 (s.adminSqhd cntlid) []]) ∧
    -- SET_FEATURES
    (∀ (cntlid : Nat) (cid : Nat) (nsid : Nat) (value : Nat) (data : Bytes) (c : Controller) (m : Nat) (s : State),
      s.hq.controller cntlid = some c →
      s.hq.managed cntlid = some m →
      value % 32 < 3 →
      Completes (.setFeatures cntlid cid 0x02 nsid value data) s { tally := true, hq := true, out := true } fun t =>
        t.hq.psNext = s.hq.psNext ++ [(value % 32, (cntlid, (cid, s.tt.now)))]) ∧
    -- SET_FEATURES
    (∀ (cntlid : Nat) (cid : Nat) (nsid : Nat) (value : Nat) (data : Bytes) (c : Controller) (m : Nat) (s : State),
      s.hq.controller cntlid = some c →
      s.hq.managed cntlid = some m →
      value % 32 = 3 →
      s.hq.ps ≠ 3 →
      s.hq.ps3 = none →
      Completes (.setFeatures cntlid cid 0x02 nsid value data) s { tally := true, hq := true, out := true } fun t =>
        t.hq.ps3 = some (s.tt.now, (cntlid, (cid, none)))) ∧
    -- GET_FEATURES
    (∀ (cntlid : Nat) (cid : Nat) (nsid : Nat) (value : Nat) (c : Controller) (s : State),
      s.hq.controller cntlid = some c →
      s.handingOver = false →
      Completes (.getFeatures cntlid cid 0x02 nsid value) s { tally := true, hq := true, out := true } fun t =>
        t.out = s.out ++ [.completion cntlid 0 cid 0 0 false s.hq.ps (s.adminSqhd cntlid) []]) ∧
    -- GET_FEATURES
    (∀ (cntlid : Nat) (cid : Nat) (nsid : Nat) (value : Nat) (c : Controller) (s : State),
      s.hq.controller cntlid = some c →
      s.handingOver = false →
      Completes (.getFeatures cntlid cid 0x0F nsid value) s { tally := true, hq := true, out := true } fun t =>
        t.out = s.out ++ [.completion cntlid 0 cid 0 0 false c.kato (s.adminSqhd cntlid) []]) ∧
    -- ASYNC_EVENT_REQUEST
    (∀ (cntlid : Nat) (cid : Nat) (c : Controller) (s : State),
      s.hq.controller cntlid = some c →
      c.aers.length < 8 →
      Completes (.asyncEventRequest cntlid cid) s { tally := true, hq := true, out := true } fun t =>
        t.hq = (setController { c with aers := c.aers ++ [cid] } (adminFetched cntlid s)).hq) ∧
    -- ASYNC_EVENT_REQUEST
    (∀ (cntlid : Nat) (cid : Nat) (c : Controller) (s : State),
      s.hq.controller cntlid = some c →
      8 ≤ c.aers.length →
      s.handingOver = false →
      Completes (.asyncEventRequest cntlid cid) s { tally := true, hq := true, out := true } fun t =>
        t.out = s.out ++ [.completion cntlid 0 cid 1 5 true 0 (s.adminSqhd cntlid) []]) ∧
    -- FIRMWARE_COMMIT
    (∀ (cntlid : Nat) (cid : Nat) (slot : Nat) (c : Controller) (m : Nat) (u : State) (s : State),
      s.hq.controller cntlid = some c →
      s.hq.managed cntlid = some m →
      slot ≤ 7 →
      placeNvmeImage (adminFetched cntlid s) = .inl u →
      exec (.firmwareCommit cntlid cid slot 0) s = .next (adminDone cntlid cid nvmeOk 0 [] u)) ∧
    -- FIRMWARE_COMMIT
    (∀ (cntlid : Nat) (cid : Nat) (slot : Nat) (c : Controller) (m : Nat) (u w : State) (s : State),
      s.hq.controller cntlid = some c →
      s.hq.managed cntlid = some m →
      slot ≤ 7 →
      placeNvmeImage (adminFetched cntlid s) = .inl u →
      startActivation (.nvme cntlid cid) u = .inl w →
      exec (.firmwareCommit cntlid cid slot 3) s = .next (w)) ∧
    -- FIRMWARE_IMAGE_DOWNLOAD
    (∀ (cntlid : Nat) (cid : Nat) (offset : Nat) (data : Bytes) (c : Controller) (m : Nat) (s : State),
      s.hq.controller cntlid = some c →
      s.hq.managed cntlid = some m →
      s.handingOver = false →
      Completes (.firmwareImageDownload cntlid cid offset data) s { trust := true, tally := true, hq := true, out := true } fun t =>
        t.trust.nvmeImage = lay (fitBytes (max s.trust.nvmeImage.length offset) s.trust.nvmeImage) offset data ∧
        t.out = s.out ++ [.completion cntlid 0 cid 0 0 false 0 (s.adminSqhd cntlid) []]) ∧
    -- KEEP_ALIVE
    (∀ (cntlid : Nat) (cid : Nat) (c : Controller) (s : State),
      s.hq.controller cntlid = some c →
      s.handingOver = false →
      Completes (.keepAlive cntlid cid) s { tally := true, hq := true, out := true } fun t =>
        t.hq = (setController { c with alive := s.tt.now } (adminFetched cntlid s)).hq ∧
        t.out = s.out ++ [.completion cntlid 0 cid 0 0 false 0 (s.adminSqhd cntlid) []]) ∧
    -- KEEP_ALIVE
    (∀ (cntlid : Nat) (cid : Nat) (c : Controller) (s : State),
      s.hq.controller cntlid = some c →
      s.handingOver = true →
      Completes (.keepAlive cntlid cid) s { tally := true, hq := true, out := true } fun t =>
        t.hq.heldDone = s.hq.heldDone ++ [.completion cntlid 0 cid 0 0 false 0 (s.adminSqhd cntlid) []] ∧
        t.out = s.out)

/-- Fabrics commands, control packets in NVMe, and power states: what each command leaves, for every state and operands
that meet the premises written with it. FABRICS_CONNECT (R90, R91), PROPERTY_GET (R88), PROPERTY_SET (R115),
DISCONNECT (R115), CONTROL_REPLY_POLL (R95), CONTROL_PACKET_SUBMIT (R97, R544), CONTROL_REPLY_FETCH (R97, R534),
CONTROL_PAYLOAD_FETCH (R97, R126, R534), POWER_STATE_CHANGE (R122, R124), PS3_ENTRY_COMPLETE (R123, R125),
PS3_ENTRY_ABANDON (R123), PS3_EXIT (R124, R125), ANA_OWNERSHIP_MOVE (R119, R290). The model's own choices that bear on
these commands are log entries 29, 70, 82. -/
def Obligations.FabricsAndPowerStateCommands : Prop :=
    -- FABRICS_CONNECT
    (∀ (port : Nat) (cntlid : Nat) (cid : Nat) (size : Nat) (kato : Nat) (hostNqn : Bytes) (subNqn : Bytes) (hostId : Bytes) (n : Nat) (s : State),
      s.pwr.stage = .service →
      (portsOf s.hq.modes).contains port = true →
      subNqn ≠ [] →
      (s.hq.subsystems.find? (fun x => x.nqn == subNqn)).map (·.number) = some n →
      s.hq.hosts.any (fun h => h.nqn == hostNqn && (n == 0xFFFF || h.subsystem == n)) = true →
      s.controllerNames.length < 65536 →
      size ≤ 31 →
      1000 ≤ kato →
      kato ≤ 300000 →
      (s.hq.numbersOf n).length < s.cntlidRange.2 →
      Completes (.fabricsConnect port cntlid 0 cid size kato hostNqn subNqn hostId) s { cpi := true, hq := true, out := true, draws := true } fun t =>
        t.hq.controllers = s.hq.controllers ++ [s.createController n hostNqn hostId kato] ∧
        t.hq.queues = s.hq.queues ++ [newQueue s.newController 0 (size + 1) port (s.hq.weightOf hostNqn n)] ∧
        t.hq.nextCntlid = s.newCntlid n - s.cntlidRange.1 + 1 ∧
        (∃ sqhd, t.out = s.out ++ [.completion s.newController 0 cid 0 0 false (s.newCntlid n) sqhd []])) ∧
    -- FABRICS_CONNECT
    (∀ (port : Nat) (cntlid : Nat) (qid : Nat) (cid : Nat) (size : Nat) (kato : Nat) (hostNqn : Bytes) (subNqn : Bytes) (hostId : Bytes) (c : Controller) (s : State),
      s.pwr.stage = .service →
      (portsOf s.hq.modes).contains port = true →
      qid ≠ 0 →
      s.hq.controller cntlid = some c →
      c.ready = true →
      qid ≤ c.granted →
      size ≤ 1023 →
      s.hq.queue cntlid qid = none →
      c.nqn = hostNqn →
      s.hq.ioQueues < 1048576 →
      Completes (.fabricsConnect port cntlid qid cid size kato hostNqn subNqn hostId) s { cpi := true, hq := true, out := true, draws := true } fun t =>
        t.hq.queues = s.hq.queues ++ [newQueue cntlid qid (size + 1) port (s.hq.weightOf c.nqn c.subsystem)] ∧
        (∃ sqhd, t.out = s.out ++ [.completion cntlid qid cid 0 0 false c.number sqhd []])) ∧
    -- PROPERTY_GET
    (∀ (cntlid : Nat) (cid : Nat) (off : Nat) (c : Controller) (v : Nat) (s : State),
      s.hq.controller cntlid = some c →
      s.property c off = some v →
      s.handingOver = false →
      Completes (.propertyGet cntlid cid off) s { tally := true, hq := true, out := true, draws := true } fun t =>
        t.out = s.out ++ [.completion cntlid 0 cid 0 0 false v (s.adminSqhd cntlid) []]) ∧
    -- PROPERTY_SET
    (∀ (cntlid : Nat) (cid : Nat) (value : Nat) (c : Controller) (s : State),
      s.hq.controller cntlid = some c →
      c.enabled = false →
      s.handingOver = false →
      Completes (.propertySet cntlid cid 0x14 value) s { trust := true, diary := true, tally := true, stg := true, ftl := true, bay := true, jobs := true, hq := true, repl := true, corr := true, out := true, draws := true } fun t =>
        t.hq = (setController { c with cc := value % 2 ^ 32, enabled := bitAt 0 value, ready := bitAt 0 value } (adminFetched cntlid s)).hq ∧
        t.out = s.out ++ [.completion cntlid 0 cid 0 0 false 0 (s.adminSqhd cntlid) []]) ∧
    -- PROPERTY_SET
    (∀ (cntlid : Nat) (cid : Nat) (value : Nat) (c : Controller) (s : State),
      s.hq.controller cntlid = some c →
      c.enabled = true →
      bitAt 0 value = false →
      exec (.propertySet cntlid cid 0x14 value) s = .next (adminDone cntlid cid nvmeOk 0 [] (resetController { c with cc := value % 2 ^ 32 } (setController { c with cc := value % 2 ^ 32 } (adminFetched cntlid s))))) ∧
    -- DISCONNECT
    (∀ (cntlid : Nat) (cid : Nat) (c : Controller) (s : State),
      s.hq.controller cntlid = some c →
      s.handingOver = false →
      exec (.disconnect cntlid cid) s = .next (loseAssociation cntlid 2 (emit (.completion cntlid 0 cid 0 0 false 0 (s.adminSqhd cntlid) []) (adminFetched cntlid s)))) ∧
    -- CONTROL_REPLY_POLL
    (∀ (cntlid : Nat) (cid : Nat) (tag : Nat) (c : Controller) (m : Nat) (r : Reply) (s : State),
      s.hq.controller cntlid = some c →
      s.hq.managed cntlid = some m →
      s.cpi.replyOf (s.cpi.keeperOf (.nvme cntlid) tag) tag = some r →
      r.held = false →
      s.handingOver = false →
      Completes (.controlReplyPoll cntlid cid tag) s { tally := true, hq := true, out := true } fun t =>
        t.out = s.out ++ [.completion cntlid 0 cid 0 0 false (statusCode r.status + 65536) (s.adminSqhd cntlid) []]) ∧
    -- CONTROL_PACKET_SUBMIT
    (∀ (cntlid : Nat) (cid : Nat) (data : Bytes) (peerInflight : Nat) (c : Controller) (m : Nat) (s : State),
      cntlid ≠ 65536 →
      s.hq.controller cntlid = some c →
      s.hq.managed cntlid = some m →
      exec (.controlPacketSubmit cntlid cid data peerInflight) s = .next (adminDone cntlid cid nvmeOk 0 [] (submitPacket (.nvme cntlid) data (data.drop (packetParts data).base) peerInflight (adminFetched cntlid s)))) ∧
    -- CONTROL_PACKET_SUBMIT
    (∀ (cid : Nat) (data : Bytes) (peerInflight : Nat) (s : State),
      s.drops (.forward (fieldAt data 0 2) (fieldAt data 0x0A 1) (packetParts data).params (data.drop (packetParts data).base)) = false →
      getKey cid s.corr.answered = none →
      Completes (.controlPacketSubmit 65536 cid data peerInflight) s { trust := true, cpi := true, tally := true, hq := true, corr := true, out := true } fun t =>
        t.cpi.accepted = s.cpi.accepted ++ [⟨.peer, cid, fieldAt data 0 2, fieldAt data 0x0A 1, false, 0, 0, (packetParts data).params,
      data.drop (packetParts data).base, lockedObjects (fieldAt data 0 2) (packetParts data).params⟩]) ∧
    -- CONTROL_REPLY_FETCH
    (∀ (cntlid : Nat) (cid : Nat) (tag : Nat) (c : Controller) (m : Nat) (r : Reply) (s : State),
      s.hq.controller cntlid = some c →
      s.hq.managed cntlid = some m →
      s.cpi.replyOf (s.cpi.keeperOf (.nvme cntlid) tag) tag = some r →
      r.held = false →
      s.handingOver = false →
      Completes (.controlReplyFetch cntlid cid tag) s { cpi := true, tally := true, hq := true, out := true } fun t =>
        t.out = s.out ++ [.completion cntlid 0 cid 0 0 false 0 (s.adminSqhd cntlid) (r.header ++ r.params)] ∧
        (r.size = 0 → t.cpi = dropReply (s.cpi.keeperOf (.nvme cntlid) tag) tag s.cpi) ∧
        (r.size ≠ 0 → t.cpi = s.cpi)) ∧
    -- CONTROL_PAYLOAD_FETCH
    (∀ (cntlid : Nat) (cid : Nat) (tag : Nat) (offset : Nat) (length : Nat) (c : Controller) (m : Nat) (r : Reply) (s : State),
      s.hq.controller cntlid = some c →
      s.hq.managed cntlid = some m →
      s.cpi.replyOf (s.cpi.keeperOf (.nvme cntlid) tag) tag = some r →
      r.held = false →
      length ≤ 4194304 →
      min r.size (offset + length) ≤ (s.replyText r).length →
      s.handingOver = false →
      Completes (.controlPayloadFetch cntlid cid tag offset length) s { cpi := true, tally := true, hq := true, out := true } fun t =>
        t.out = s.out ++ [.completion cntlid 0 cid 0 0 false 0 (s.adminSqhd cntlid) (slice (s.replyText r) offset length)]) ∧
    -- POWER_STATE_CHANGE
    (∀ (n cntlid cid at_ : Nat) (rest : List (Nat × (Nat × (Nat × Nat)))) (s : State),
      s.hq.psNext = (n, (cntlid, (cid, at_))) :: rest →
      at_ < s.tt.now →
      s.hq.ps ≠ 3 →
      s.hq.ps ≠ n →
      exec .powerStateChange s = .next (adminDone cntlid cid nvmeOk n [] (toPs n { s with hq := { s.hq with psNext := rest } }))) ∧
    -- POWER_STATE_CHANGE
    (∀ (n cntlid cid at_ : Nat) (rest : List (Nat × (Nat × (Nat × Nat)))) (s : State),
      s.hq.psNext = (n, (cntlid, (cid, at_))) :: rest →
      at_ < s.tt.now →
      s.hq.ps ≠ 3 →
      s.hq.ps ≠ n →
      s.handingOver = false →
      Completes .powerStateChange s { diary := true, tally := true, hq := true, out := true } fun t =>
        t.hq.ps = n ∧
        t.hq.psNext = rest ∧
        (n ≠ 3 → t.hq.lastPs = n) ∧
        t.out = s.out ++ [.completion cntlid 0 cid 0 0 false n (((s.hq.queue cntlid 0).map (fun q => q.sqhd)).getD 0) []]) ∧
    -- PS3_ENTRY_COMPLETE
    (∀ (start cntlid cid e : Nat) (s : State),
      s.hq.ps3 = some (start, (cntlid, (cid, some e))) →
      s.quiet = true →
      e ≤ s.ftl.durable →
      s.handingOver = false →
      Completes .ps3EntryComplete s { diary := true, tally := true, hq := true, out := true } fun t =>
        t.hq.ps = 3 ∧
        t.hq.lastPs = s.hq.ps ∧
        t.hq.ps3 = none ∧
        t.hq.ps3Exit = none ∧
        t.out = s.out ++ [.completion cntlid 0 cid 0 0 false 3 (((s.hq.queue cntlid 0).map (fun q => q.sqhd)).getD 0) []]) ∧
    -- PS3_ENTRY_ABANDON
    (∀ (start cntlid cid : Nat) (e : Option Nat) (s : State),
      s.hq.ps3 = some (start, (cntlid, (cid, e))) →
      start + msBells 100 ≤ s.tt.now →
      s.handingOver = false →
      Completes .ps3EntryAbandon s { tally := true, hq := true, out := true } fun t =>
        t.hq.ps3 = none ∧
        t.hq.ps = s.hq.ps ∧
        t.out = s.out ++ [.completion cntlid 0 cid 0 0 false s.hq.ps (((s.hq.queue cntlid 0).map (fun q => q.sqhd)).getD 0) []]) ∧
    -- PS3_EXIT
    (∀ (start : Nat) (s : State),
      s.hq.ps = 3 →
      s.hq.ps3Exit = some start →
      start + msBells 2 ≤ s.tt.now →
      Completes .ps3Exit s { pwr := true, diary := true, tally := true, ec := true, ciph := true, skx := true, hq := true } fun t =>
        t.hq.ps = s.hq.lastPs ∧
        t.hq.ps3Exit = none) ∧
    -- PS3_EXIT
    (∀ (s : State),
      s.hq.ps = 3 →
      s.hq.ps3Exit = none →
      Completes .ps3Exit s { pwr := true, diary := true, tally := true, ec := true, ciph := true, skx := true, hq := true } fun t =>
        t.hq.ps = 3 ∧
        t.hq.ps3Exit = some s.tt.now) ∧
    -- ANA_OWNERSHIP_MOVE
    (∀ (group : Nat) (m : Nat × (Nat × Nat)) (s : State),
      s.hq.moving.find? (fun m => m.1 == group) = some m →
      m.2.2 ≤ s.epoch →
      s.groupBusy group = false →
      s.ownsGroup group = true →
      s.corr.unanswered.all (fun x => match x.body with | .anaMove g .. => g != group | _ => true) = true →
      s.paired = true →
      exec (.anaOwnershipMove group) s = .next (send (s.moveMessage m) s))

/-- The mirror of staging between the heads: what each command leaves, for every state and operands that meet the premises
written with it. MIRROR_DATA (R143), MIRROR_ACK (R140), COMMIT (R140), COMMIT_ACK (R140), RELEASE (R145), CREDIT
(R130, R155), MARK_LIST (R162, R491), WITHDRAW (R639), MESSAGE_RESEND_TIMEOUT (R144, R175). The model's own choices
that bear on these commands are log entries 83. -/
def Obligations.MirrorCommands : Prop :=
    -- MIRROR_DATA
    (∀ (number : Nat) (volume : Nat) (count : Nat) (flags : Nat) (seq : Nat) (lba : Nat) (blocks : Bytes) (pi : Bytes) (s : State),
      s.drops (.mirrorData volume count flags seq lba blocks pi) = false →
      getKey number s.corr.answered = none →
      exec (.mirrorData number volume count flags seq lba blocks pi) s = .next (reply number (.mirrorAck number count) ((writeVersions volume seq (1 - s.sys.slot) lba count flags blocks pi).foldl
          (fun t v => addVersion v t) (tallyAdd 0x05 1 1 (tallyAdd 0x0D 1 1 s))))) ∧
    -- MIRROR_ACK
    (∀ (number : Nat) (held : Nat) (x : Ctx) (m : Sent) (s : State),
      s.drops (.mirrorAck number held) = false →
      s.corr.awaiting number = some m →
      s.hq.ctxs.find? (fun x => x.mirrors.contains number) = some x →
      exec (.mirrorAck number held) s = .next (writeProgress { x with mirrors := x.mirrors.filter (· != number) } (settleNumber number (tallyAdd 0x0D 1 1 s)))) ∧
    -- COMMIT
    (∀ (number : Nat) (mark : Machine.CommitMark) (u : State) (s : State),
      s.drops (.commit mark) = false →
      getKey number s.corr.answered = none →
      (s.ftl.ofNsid mark.volume).any (fun r => s.ownsRoot r) = false →
      s.syncWaits mark.volume mark.seq = false →
      u = reply number (.commitAck number) (holdMark mark (tallyAdd 0x0D 1 1 s)) →
      u.stg.versions.any (fun v => v.vol == mark.volume && v.seq == mark.seq && !v.staged) = false →
      exec (.commit number mark) s = .next (peerWriteDone mark.volume mark.seq u)) ∧
    -- COMMIT_ACK
    (∀ (number : Nat) (m : Sent) (mark : CommitMark) (u : State) (s : State),
      s.drops (.commitAck number) = false →
      s.corr.awaiting number = some m →
      m.body = .commit mark →
      s.syncWaits mark.volume mark.seq = false →
      u = wakeReads (holdMark mark (settleNumber number (tallyAdd 0x0D 1 1 s))) →
      u.hq.ctxs.find? (fun x => x.commits.contains number) = none →
      exec (.commitAck number) s = .next (u)) ∧
    -- RELEASE
    (∀ (l : List Machine.RelEntry) (s : State),
      s.drops (.release l) = false →
      exec (.release l) s = .next (l.foldl (fun t e => releaseVersions e.volume e.grain e.seqs t) (tallyAdd 0x0D 1 1 s))) ∧
    -- CREDIT
    (∀ (blocks : Nat) (term : Nat) (through : Bool) (s : State),
      s.drops (.credit blocks term) = false →
      Completes (.credit blocks term through) s { tally := true, stg := true } fun t =>
        t.stg.credit = blocks ∧
        t.stg.peerThrough = through) ∧
    -- MARK_LIST
    (∀ (number : Nat) (marks : List Machine.CommitMark) (s : State),
      s.drops (.markList marks) = false →
      getKey number s.corr.answered = none →
      s.pwr.stage ≠ .service →
      s.pwr.stage ≠ .joining →
      127 ≤ marks.length →
      Completes (.markList number marks) s { trust := true, tally := true, stg := true, corr := true, out := true } fun t =>
        t.stg.peerMarks = s.stg.peerMarks ++ marks ∧
        t.corr.answered = putKey number (.mirrorAck number 0) s.corr.answered) ∧
    -- MARK_LIST
    (∀ (number : Nat) (marks : List Machine.CommitMark) (s : State),
      s.drops (.markList marks) = false →
      getKey number s.corr.answered = none →
      s.pwr.stage ≠ .service →
      s.pwr.stage ≠ .joining →
      marks.length < 127 →
      Completes (.markList number marks) s { trust := true, tally := true, stg := true, corr := true, out := true } fun t =>
        t.stg.marks = s.stg.marks.filter (fun m => (s.stg.peerMarks ++ marks).any (sameMark m)) ∧
        t.stg.peerMarks = [] ∧
        t.corr.answered = putKey number (.mirrorAck number 0) s.corr.answered) ∧
    -- MARK_LIST
    (∀ (number : Nat) (marks : List Machine.CommitMark) (u : State) (s : State),
      s.drops (.markList marks) = false →
      getKey number s.corr.answered = none →
      s.pwr.stage = .service →
      u = marks.foldl (fun t m => holdMark m t) (tallyAdd 0x0D 1 1 s) →
      exec (.markList number marks) s = .next (reply number (.mirrorAck number 0) { u with corr := { u.corr with step := s.corr.step } })) ∧
    -- WITHDRAW
    (∀ (number : Nat) (volume : Nat) (seq : Nat) (s : State),
      s.drops (.withdraw volume seq) = false →
      getKey number s.corr.answered = none →
      s.stg.marks.any (fun m => m.volume == volume && m.seq == seq) = true →
      s.stg.versions.any (fun v => v.vol == volume && v.seq == seq && !v.staged) = false →
      Completes (.withdraw number volume seq) s { trust := true, tally := true, stg := true, ftl := true, bay := true, jobs := true, hq := true, corr := true, out := true, draws := true } fun t =>
        t.stg = s.stg ∧
        t.corr.answered = putKey number (.mirrorAck number 0) s.corr.answered) ∧
    -- WITHDRAW
    (∀ (number : Nat) (volume : Nat) (seq : Nat) (s : State),
      s.drops (.withdraw volume seq) = false →
      getKey number s.corr.answered = none →
      s.stg.marks.any (fun m => m.volume == volume && m.seq == seq) = false →
      exec (.withdraw number volume seq) s = .next (reply number (.mirrorAck number 0) (peerWriteDone volume seq (dropWrite volume seq (tallyAdd 0x0D 1 1 s))))) ∧
    -- MESSAGE_RESEND_TIMEOUT
    (∀ (number : Nat) (m : Sent) (s : State),
      s.corr.awaiting number = some m →
      m.pending = false →
      m.at_ + 4 ≤ s.tt.now →
      s.corr.fault = false →
      3 ≤ m.resends →
      Completes (.messageResendTimeout number) s { trust := true, diary := true, tally := true, corr := true, out := true } fun t =>
        t.corr.fault = true ∧
        t.corr.link = 1 ∧
        t.corr.retrains = s.corr.retrains + 1) ∧
    -- MESSAGE_RESEND_TIMEOUT
    (∀ (number : Nat) (m : Sent) (s : State),
      s.corr.awaiting number = some m →
      m.pending = false →
      m.at_ + 4 ≤ s.tt.now →
      s.corr.fault = false →
      m.resends < 3 →
      exec (.messageResendTimeout number) s = .next (tallyAdd 0x05 2 1 (transmit number m.body { s with corr := { s.corr with
          unanswered := s.corr.unanswered.map (fun x => if x.number == number then { x with at_ := s.tt.now, resends := x.resends + 1 } else x) } })))

/-- Destaging, fingerprints, the dedup filter and index, and placement: what each command leaves, for every state and
operands that meet the premises written with it. DESTAGE_AGE_EXPIRY (R137), DESTAGE_START (R137, R138, R173),
FINGERPRINT_COMPLETE (R275, R169, R172, R173, R174, R175), FINGERPRINT_RESOLVE (R191), RESOLVE (R175), RESOLVE_ANSWER
(R175), RESOLVE_PENDING_TIMEOUT (R175), INFLIGHT_WAY_FREE (R178, R179), INDEX_READ_COMPLETE (R192), MERGE_SWEEP_START
(R188), FILTER_REPLACE (R183), REF_DELTA (R176), PLACE (R293, R175, R201). The model's own choices that bear on these
commands are log entries 9, 35, 36, 84, 85. -/
def Obligations.DestageAndDedupCommands : Prop :=
    -- DESTAGE_AGE_EXPIRY
    (∀ (vol : Nat) (grain : Nat) (e : Entry) (s : State),
      s.stg.entry vol grain = some e →
      e.lastWrite + 64 ≤ s.tt.now →
      exec (.destageAgeExpiry vol grain) s = .next (modEntry vol grain (fun x => { x with due := true }) s)) ∧
    -- DESTAGE_START
    (∀ (vol : Nat) (grain : Nat) (r : Root) (vs : List (Option Ver)) (taken : List Nat) (d : Destage) (s : State),
      s.ftl.ofNsid vol = some r →
      s.eligible vol grain = true →
      vs = (List.range 4).map (s.takes vol grain) →
      taken = vs.map (fun v => (v.map (·.seq)).getD 0) →
      d = ⟨s.jobs.next, vol, grain, taken, taken.foldl max 0, vs.map (fun v => (v.filter (fun x => !x.lost)).map Ver.bytes),
      vs.map (fun v => (v.map (fun x => fitBytes 64 x.pi)).getD []), r.format != 0 && vs.any (fun v => v.any (·.hasPi)),
      r.format != 0, r.domain, r.layout, 0, s.through, .fingerprint, none, [], 0, 0, 1, false, 0, 0, [], [], 0⟩ →
      vs.all (fun v => v.any (fun x => x.noBuffer && x.dealloc)) = true →
      exec (.destageStart vol grain) s = .next (mapPlain s.jobs.next none (modEntry vol grain (fun e => { e with destage := some s.jobs.next, due := false })
          { s with jobs := { s.jobs with next := s.jobs.next + 1, destages := s.jobs.destages ++ [d] } }))) ∧
    -- FINGERPRINT_COMPLETE
    (∀ (job : Nat) (d : Destage) (u : State) (s : State),
      s.jobs.destages.find? (fun d => d.job == job && d.stage == .fingerprint) = some d →
      s.canPayAll 2 [(.dig, 16384 + (if d.withMeta then 256 else 0))] = true →
      d.isZero = true →
      u = payAll 2 [(.dig, 16384 + (if d.withMeta then 256 else 0))] s →
      exec (.fingerprintComplete job) s = .next (mapPlain job (some 0) (tallyAdd 0x09 0 4 (modDestage job (fun x => { x with
          fp := (kmac256 (u.fpKey d.domain) d.content 32 (ascii "BIRCA-FP")).take 24
          stage := .resolving }) u)))) ∧
    -- FINGERPRINT_RESOLVE
    (∀ (r : Resolution) (q : List Resolution) (s : State),
      s.ddp.queue = r :: q →
      exec .fingerprintResolve s = .next (resolveOne r (tallyAdd 0x06 0 1 { s with ddp := { s.ddp with queue := q } }))) ∧
    -- RESOLVE
    (∀ (number : Nat) (domain : Nat) (verify : Bool) (through : Bool) (grain : Nat) (fp : Bytes) (x : Bytes) (r : Resolution) (u : State) (s : State),
      s.drops (.resolve domain verify through grain fp) = false →
      getKey number s.corr.answered = none →
      u = wake true (tallyAdd 0x0D 1 1 s) →
      (u.ddp.queue ++ u.ddp.blocked ++ u.ddp.indexing.map (·.1) ++ u.ddp.comparing.map (·.2.1) ++
      u.ddp.inflight.flatMap (·.waiters)).find? (fun r => r.peer && r.number == number) = some r →
      exec (.resolve number domain verify through grain fp x) s = .next (send (.resolveAnswer grain r.wcid 3) u)) ∧
    -- RESOLVE
    (∀ (number : Nat) (domain : Nat) (verify : Bool) (through : Bool) (grain : Nat) (fp : Bytes) (x : Bytes) (u : State) (s : State),
      s.drops (.resolve domain verify through grain fp) = false →
      getKey number s.corr.answered = none →
      u = wake true (tallyAdd 0x0D 1 1 s) →
      (u.ddp.queue ++ u.ddp.blocked ++ u.ddp.indexing.map (·.1) ++ u.ddp.comparing.map (·.2.1) ++
      u.ddp.inflight.flatMap (·.waiters)).find? (fun r => r.peer && r.number == number) = none →
      exec (.resolve number domain verify through grain fp x) s = .next (enqueue ⟨grain, true, domain, fp, verify, through, 0, number, x, u.tt.now, false⟩ u)) ∧
    -- RESOLVE_ANSWER
    (∀ (grain : Nat) (cid : Nat) (outcome : Nat) (m : Sent) (s : State),
      s.drops (.resolveAnswer grain cid outcome) = false →
      s.corr.resolveOf grain = some m →
      outcome ≠ 3 →
      exec (.resolveAnswer grain cid outcome) s = .next (takeOutcome grain outcome cid (settleNumber m.number (tallyAdd 0x0D 1 1 s)))) ∧
    -- RESOLVE_ANSWER
    (∀ (grain : Nat) (m : Sent) (s : State),
      s.drops (.resolveAnswer grain 0 3) = false →
      s.corr.resolveOf grain = some m →
      Completes (.resolveAnswer grain 0 3) s { trust := true, diary := true, tally := true, ddp := true, ftl := true, jobs := true, corr := true, out := true } fun t =>
        t.corr.unanswered = s.corr.unanswered.map (fun x => if x.number == m.number then { x with at_ := s.tt.now, resends := 0, pending := true } else x) ∧
        t.jobs = s.jobs) ∧
    -- RESOLVE_PENDING_TIMEOUT
    (∀ (grain : Nat) (m : Sent) (s : State),
      s.corr.resolveOf grain = some m →
      m.pending = true →
      m.at_ + 4 ≤ s.tt.now →
      Completes (.resolvePendingTimeout grain) s { tally := true, corr := true, out := true } fun t =>
        t.out = s.out ++ [.corridor m.number m.body] ∧
        t.corr.unanswered = s.corr.unanswered.map (fun x => if x.number == m.number then { x with at_ := s.tt.now, resends := 0, pending := false } else x)) ∧
    -- INFLIGHT_WAY_FREE
    (∀ (r : Resolution) (s : State),
      s.ddp.blocked.find? (fun r => match s.ddp.entry r.domain r.fp with
      | some e => e.pending || decide (e.waiters.length < 64)
      | none => decide ((s.ddp.inflight.filter (fun e => fpSet e.fp == fpSet r.fp)).length < 8)) = some r →
      exec .inflightWayFree s = .next (resolveOne r { s with
          ddp := { s.ddp with blocked := dropFirst (fun x => x.grain == r.grain && x.peer == r.peer) s.ddp.blocked } })) ∧
    -- INDEX_READ_COMPLETE
    (∀ (grain : Nat) (peer : Bool) (r : Resolution) (n : Nat) (s : State),
      s.ddp.indexing.find? (fun p => p.1.grain == grain && p.1.peer == peer) = some (r, n) →
      exec (.indexReadComplete grain peer true) s = .next (useRecord r (s.ddp.indexFind r.domain r.fp) { s with
          ddp := { s.ddp with indexing := dropFirst (fun p => p.1.grain == grain && p.1.peer == peer) s.ddp.indexing } })) ∧
    -- INDEX_READ_COMPLETE
    (∀ (grain : Nat) (peer : Bool) (r : Resolution) (n : Nat) (s : State),
      s.ddp.indexing.find? (fun p => p.1.grain == grain && p.1.peer == peer) = some (r, n) →
      7 ≤ n →
      exec (.indexReadComplete grain peer false) s = .next (useRecord r none (event 0x5004 11 (s.ddp.bucket r.fp % 2 ^ 40) { s with
          ddp := { s.ddp with indexing := dropFirst (fun p => p.1.grain == grain && p.1.peer == peer) s.ddp.indexing } }))) ∧
    -- INDEX_READ_COMPLETE
    (∀ (grain : Nat) (peer : Bool) (r : Resolution) (n mpa : Nat) (s : State),
      s.ddp.indexing.find? (fun p => p.1.grain == grain && p.1.peer == peer) = some (r, n) →
      n < 7 →
      mpa = (getKey (s.ddp.bucket r.fp) s.ddp.pages).getD 0 →
      exec (.indexReadComplete grain peer false) s = .next (readMeta mpa n (.index grain (s.triedNext mpa n)) { s with ddp := { s.ddp with
          indexing := s.ddp.indexing.map (fun p => if p.1.grain == grain && p.1.peer == peer then (r, s.triedNext mpa n) else p) } })) ∧
    -- MERGE_SWEEP_START
    (∀ (s : State),
      s.ddp.sweep = none →
      s.ddp.n ≠ 0 →
      2 ^ s.ddp.deltaBits ≤ 2 * s.ddp.delta.length →
      Completes .mergeSweepStart s { ddp := true } fun t =>
        t.ddp.sweep = some 0) ∧
    -- FILTER_REPLACE
    (∀ (q : Nat) (s : State),
      s.ddp.grownQ = some q →
      s.period = 0 →
      s.ddp.fstate = 3 →
      s.rebuildHalves.length * 2 ^ s.ddp.n ≤ s.ddp.rebuilt →
      Completes .filterReplace s { ddp := true } fun t =>
        t.ddp.q = q ∧
        t.ddp.grownQ = none ∧
        t.ddp.fstate = 2 ∧
        t.ddp.filter = s.ddp.records.map (fun r => fpG r.fp) ∧
        t.ddp.stopped = false) ∧
    -- REF_DELTA
    (∀ (number : Nat) (l : List (Nat × Int)) (s : State),
      s.drops (.refDelta l) = false →
      getKey number s.corr.answered = none →
      exec (.refDelta number l) s = .next (reply number (.journalAck number) (journal (.refDelta l) (l.foldl (fun t p => addRef p.1 p.2 t) (wake true (tallyAdd 0x0D 1 1 s)))))) ∧
    -- PLACE
    (∀ (number : Nat) (cid : Nat) (psa : Nat) (gen : Nat) (hasTail : Bool) (s : State),
      s.drops (.place cid psa gen hasTail) = false →
      getKey number s.corr.answered = none →
      exec (.place number cid psa gen hasTail) s = .next (reply number (.journalAck number) (recordPsa cid psa gen hasTail (((s.ftl.ctRec cid).filter (fun r => !r.lost)).map CtRec.mask |>.getD 0) (tallyAdd 0x0D 1 1 s))))

/-- Encoding, encryption, decryption and decoding of slots, and usage grants: what each command leaves, for every state
and operands that meet the premises written with it. ENCODE_COMPLETE (R221, R222, R223, R224, R225), DECODE_COMPLETE
(R226, R227, R228, R229, R230, R231, R232), SLOT_DECRYPT_COMPLETE (R250, R281, R370), SLOT_ENCRYPT_COMPLETE (R248,
R249, R250, R251, R252, R253, R254, R255, R256, R370, R371), USAGE_GRANT_DRAW (R255, R256). The model's own choices
that bear on these commands are log entries 37, 38, 93, 94. -/
def Obligations.SlotEngineCommands : Prop :=
    -- ENCODE_COMPLETE
    (∀ (job : Nat) (lane : Nat) (d : Destage) (s : State),
      s.jobs.destages.find? (fun d => d.job == job && d.stage == .encode) = some d →
      s.canPayAll 2 [(.enc, 16384)] = true →
      s.laneDelivers (laneOf .enc lane) = true →
      exec (.encodeComplete job lane false) s = .next (tallyAdd 0x07 (skxEncode (d.content.take 16384)).tier 1 (tallyAdd 0x07 0 1 (modDestage job (fun x => { x with
          tier := (skxEncode (d.content.take 16384)).tier
          slot := (skxEncode (d.content.take 16384)).slot
          stage := .encrypt }) (payAll 2 [(.enc, 16384)] s))))) ∧
    -- ENCODE_COMPLETE
    (∀ (job : Nat) (lane : Nat) (d : Destage) (s : State),
      s.jobs.destages.find? (fun d => d.job == job && d.stage == .encode) = some d →
      s.canPayAll 2 [(.enc, 16384)] = true →
      s.laneDelivers (laneOf .enc lane) = true →
      exec (.encodeComplete job lane true) s = .next (laneOut (laneOf .enc lane) .failed (payAll 2 [(.enc, 16384)] s))) ∧
    -- DECODE_COMPLETE
    (∀ (job : Nat) (lane : Nat) (r : SlotRead) (o : SkxResult) (s : State),
      s.jobs.read job = some r →
      r.stage = .decode →
      s.laneDelivers (laneOf .dec lane) = true →
      r.failLane = none →
      s.canPayAll (streamOf r.why) (slotCost r .dec (4096 * r.want.length)) = true →
      o = skxDecode (r.plain.take (4096 * psaTier r.psa)) (psaTier r.psa) r.want →
      errorKeys o.errors = [] →
      exec (.decodeComplete job lane none) s = .next (deliver r o.released (tallyAdd 0x07 5 r.want.length (payAll (streamOf r.why) (slotCost r .dec (4096 * r.want.length)) s)))) ∧
    -- SLOT_DECRYPT_COMPLETE
    (∀ (job : Nat) (lane : Nat) (sound : Bool) (r : SlotRead) (s : State),
      s.jobs.read job = some r →
      r.stage = .decrypt →
      s.laneDelivers (laneOf .cip lane) = true →
      otherIsland .cip r.failLane lane = true →
      s.canPayAll (streamOf r.why) (slotCost r .cip (s.slotText r).length) = true →
      envelopesOk r.envs = false →
      exec (.slotDecryptComplete job lane sound) s = .next (rebuildOrLose job 1 (setRead r (payAll (streamOf r.why) (slotCost r .cip (s.slotText r).length) s)))) ∧
    -- SLOT_DECRYPT_COMPLETE
    (∀ (job : Nat) (lane : Nat) (r : SlotRead) (e plain : Bytes) (u : State) (s : State),
      s.jobs.read job = some r →
      r.stage = .decrypt →
      s.laneDelivers (laneOf .cip lane) = true →
      otherIsland .cip r.failLane lane = true →
      s.canPayAll (streamOf r.why) (slotCost r .cip (s.slotText r).length) = true →
      envelopesOk r.envs = true →
      e = r.envs.headD [] →
      pointerOk e r.cid r.psa = true →
      u = useOlder (laneIsland (laneOf .cip lane)) (fieldAt e 4 2) (fieldAt e 6 2) (payAll (streamOf r.why) (slotCost r .cip (s.slotText r).length) s) →
      gcmOpen (u.dataKey (fieldAt e 4 2) (fieldAt e 6 2)) (slice e 0x18 12) (slotAad e) (s.slotText r) (slice e 0x24 16) = some plain →
      exec (.slotDecryptComplete job lane true) s = .next (slotOpened r plain u)) ∧
    -- SLOT_DECRYPT_COMPLETE
    (∀ (job : Nat) (lane : Nat) (r : SlotRead) (e : Bytes) (u : State) (s : State),
      s.jobs.read job = some r →
      r.stage = .decrypt →
      s.laneDelivers (laneOf .cip lane) = true →
      otherIsland .cip r.failLane lane = true →
      s.canPayAll (streamOf r.why) (slotCost r .cip (s.slotText r).length) = true →
      envelopesOk r.envs = true →
      e = r.envs.headD [] →
      pointerOk e r.cid r.psa = true →
      u = useOlder (laneIsland (laneOf .cip lane)) (fieldAt e 4 2) (fieldAt e 6 2) (payAll (streamOf r.why) (slotCost r .cip (s.slotText r).length) s) →
      gcmOpen (u.dataKey (fieldAt e 4 2) (fieldAt e 6 2)) (slice e 0x18 12) (slotAad e) (s.slotText r) (slice e 0x24 16) = none →
      exec (.slotDecryptComplete job lane true) s = .next (tagFailed r lane (fieldAt e 4 2) u)) ∧
    -- SLOT_ENCRYPT_COMPLETE
    (∀ (job : Nat) (lane : Nat) (d : Destage) (u : State) (l : Locker) (s : State),
      s.jobs.destages.find? (fun d => d.job == job && d.stage == .encrypt) = some d →
      l = s.ciph.locker d.domain →
      l.granted ≠ 0 →
      s.laneDelivers (laneOf .cip lane) = true →
      s.canPayAll 2 [(.cip, slotBytes d.tier d.withMeta)] = true →
      takeNonce (lockerHandle d.domain l) l.gen ((payAll 2 [(.cip, slotBytes d.tier d.withMeta)] s).writerLane lane) 1 (payAll 2 [(.cip, slotBytes d.tier d.withMeta)] s) = (u, none) →
      exec (.slotEncryptComplete job lane) s = .next (u)) ∧
    -- SLOT_ENCRYPT_COMPLETE
    (∀ (job : Nat) (lane : Nat) (d : Destage) (u : State) (l : Locker) (nonce env0 env ct tag : Bytes) (flags : Nat) (s : State),
      s.jobs.destages.find? (fun d => d.job == job && d.stage == .encrypt) = some d →
      l = s.ciph.locker d.domain →
      l.granted ≠ 0 →
      s.laneDelivers (laneOf .cip lane) = true →
      s.canPayAll 2 [(.cip, slotBytes d.tier d.withMeta)] = true →
      takeNonce (lockerHandle d.domain l) l.gen ((payAll 2 [(.cip, slotBytes d.tier d.withMeta)] s).writerLane lane) 1 (payAll 2 [(.cip, slotBytes d.tier d.withMeta)] s) = (u, some nonce) →
      d.withMeta = false →
      env0 = envelope 1 0 d.tier (flagBit (d.tier == 4) + 2 * flagBit d.withMeta) d.domain l.gen d.cid (payAll 2 [(.cip, slotBytes d.tier d.withMeta)] s).epoch nonce [] →
      gcmSeal ((payAll 2 [(.cip, slotBytes d.tier d.withMeta)] s).dataKey d.domain l.gen) nonce (slotAad env0) d.slot = (ct, tag) →
      env = envelope 1 0 d.tier (flagBit (d.tier == 4) + 2 * flagBit d.withMeta) d.domain l.gen d.cid (payAll 2 [(.cip, slotBytes d.tier d.withMeta)] s).epoch nonce tag →
      exec (.slotEncryptComplete job lane) s = .next (placeDestage job (modDestage job (fun x => { x with slot := ct.take (4096 * d.tier), env := env, gen := l.gen, stage := .place })
          (tallyAdd 0x08 0 1 (setLocker d.domain { l with granted := l.granted - 1 } u))))) ∧
    -- USAGE_GRANT_DRAW
    (∀ (locker : Nat) (s : State),
      (s.ciph.locker locker).state ≠ .unbound →
      (s.ciph.locker locker).usage < 2 ^ 48 →
      exec (.usageGrantDraw locker) s = .next (countGrant locker s))

/-- Cipher and digest contexts and measurement registers: what each command leaves, for every state and operands that meet
the premises written with it. HALL_PASS_END (R264, R265, R266, R267, R268), SEGMENT_VERIFY (R260, R261, R262),
STREAM_TAG_FAIL (R263), DIGEST_OPEN (R272, R247, R271), DIGEST_ABSORB (R272), DIGEST_FINALISE (R272), DIGEST_READ
(R273, R272), DIGEST_CLOSE (R272), MR_EXTEND (R276, R277). The model's own choices that bear on these commands are log
entries 37, 94. -/
def Obligations.HallPassAndDigestCommands : Prop :=
    -- HALL_PASS_END
    (∀ (number : Nat) (start : Option CtxStart) (parts : List PassPart) (stored : Option Bytes) (x : CipherCtx) (key : Bytes) (s : State),
      s.ciph.passCtx number start = some x →
      s.keyFor x.handle ((start.map (fun c => (c.gen, c.domain))).getD (0, 0)).1 ((start.map (fun c => (c.gen, c.domain))).getD (0, 0)).2 = .inr key →
      (tallyAdd 0x08 4 1 s).ciph.turn (parts.foldl (CipherCtx.absorb key) x) = none →
      x.stream = false →
      exec (.hallPassEnd number start parts false stored) s = .next (setCipherCtx { parts.foldl (CipherCtx.absorb key) x with place := 0 } (tallyAdd 0x08 4 1 s))) ∧
    -- HALL_PASS_END
    (∀ (number : Nat) (start : Option CtxStart) (parts : List PassPart) (ended : Bool) (stored : Option Bytes) (x : CipherCtx) (st : Status) (detail : Bytes) (s : State),
      s.ciph.passCtx number start = some x →
      s.keyFor x.handle ((start.map (fun c => (c.gen, c.domain))).getD (0, 0)).1 ((start.map (fun c => (c.gen, c.domain))).getD (0, 0)).2 = .inl (st, detail) →
      exec (.hallPassEnd number start parts ended stored) s = .next (emit (.engineReply (16 + x.island) number st detail []) (cipherStatus st x.lane (handleLocker x.handle) (dropCipherCtx number s)))) ∧
    -- SEGMENT_VERIFY
    (∀ (number : Nat) (start : CtxStart) (auth : StreamAuth) (header : Bytes) (seg : Option SegmentIn) (x : CipherCtx) (s : State),
      x = (s.ciph.ctx number).getD (startCtx start number) →
      streamHeaderOk header = false →
      exec (.segmentVerify number start auth header seg) s = .next (endMessage x .pktFormat noDetail s)) ∧
    -- SEGMENT_VERIFY
    (∀ (number : Nat) (start : CtxStart) (auth : StreamAuth) (header : Bytes) (seg : Option SegmentIn) (x : CipherCtx) (i : SegmentIn) (key : Bytes) (s : State),
      x = (s.ciph.ctx number).getD (startCtx start number) →
      streamHeaderOk header = true →
      fieldAt header 9 1 = 0 →
      s.keyFor x.handle (fieldAt header 0x0E 2) (fieldAt header 0x0C 2) = .inr key →
      seg = some i →
      exec (.segmentVerify number start auth header seg) s = .next (takeSegment { x with stream := false, segmented := true } key header i s)) ∧
    -- STREAM_TAG_FAIL
    (∀ (number : Nat) (x : CipherCtx) (s : State),
      s.ciph.ctx number = some x →
      x.stream = true →
      exec (.streamTagFail number) s = .next (Sys2Proof.Machine.streamTagFail x s)) ∧
    -- DIGEST_OPEN
    (∀ (prefect : Bool) (fn : DigestFn) (handle : Nat) (gen : Nat) (custom : Bytes) (n : Nat) (s : State),
      (digestRange prefect).find? (fun n => (s.ciph.digest n).isNone) = some n →
      fnKeyed fn = false →
      exec (.digestOpen prefect fn handle gen custom) s = .next (emit (.engineReply 18 n .ok noDetail []) (tallyAdd 0x09 1 1 (setDigest ⟨n, 1, fn, handle, gen, custom, [], 0⟩ s)))) ∧
    -- DIGEST_OPEN
    (∀ (prefect : Bool) (fn : DigestFn) (handle : Nat) (gen : Nat) (custom : Bytes) (s : State),
      (digestRange prefect).find? (fun n => (s.ciph.digest n).isNone) = none →
      exec (.digestOpen prefect fn handle gen custom) s = .next (digestError 0 .digestCtxFull (detailOf [(2, s.free % 65536)]) [] (drawn 1 s))) ∧
    -- DIGEST_ABSORB
    (∀ (number : Nat) (data : Bytes) (d : DigestCtx) (s : State),
      s.ciph.digest number = some d →
      d.state = 1 →
      exec (.digestAbsorb number data) s = .next (emit (.engineReply 18 number .ok noDetail [])
          (tallyAdd 0x09 0 ((d.data.length + data.length) / 4096 - d.data.length / 4096) (setDigest { d with data := d.data ++ data } s)))) ∧
    -- DIGEST_FINALISE
    (∀ (number : Nat) (d : DigestCtx) (s : State),
      s.ciph.digest number = some d →
      d.state = 1 →
      exec (.digestFinalise number) s = .next (emit (.engineReply 18 number .ok noDetail []) (setDigest { d with state := 2 } s))) ∧
    -- DIGEST_FINALISE
    (∀ (number : Nat) (d : DigestCtx) (s : State),
      s.ciph.digest number = some d →
      d.state ≠ 1 →
      exec (.digestFinalise number) s = .next (digestError number .digestNotOpen (detailOf [(1, number)]) [] s)) ∧
    -- DIGEST_READ
    (∀ (number : Nat) (length : Nat) (d : DigestCtx) (s : State),
      s.ciph.digest number = some d →
      d.state = 2 →
      fnKeyed d.fn = false →
      exec (.digestRead number length) s = .next (emit (.engineReply 18 number .ok noDetail (digestOutput d.fn [] d.custom d.data d.read length)) (setDigest { d with read := d.read + length } s))) ∧
    -- DIGEST_READ
    (∀ (number : Nat) (length : Nat) (d : DigestCtx) (s : State),
      s.ciph.digest number = some d →
      d.state ≠ 2 →
      exec (.digestRead number length) s = .next (digestError number .digestNotFinal (detailOf [(1, number)]) (zeros length) s)) ∧
    -- DIGEST_CLOSE
    (∀ (number : Nat) (s : State),
      Completes (.digestClose number) s { ciph := true, out := true } fun t =>
        t.ciph.digests = s.ciph.digests.filter (fun d => d.number != number) ∧
        t.out = s.out ++ [.engineReply 18 number .ok noDetail []]) ∧
    -- MR_EXTEND
    (∀ (reg : Nat) (data : Bytes) (s : State),
      (reg < 16 ∨ 31 < reg) →
      Completes (.mrExtend true reg data) s { tally := true, ciph := true, out := true } fun t =>
        t.trust = s.trust ∧
        t.out = s.out ++ [.engineReply 0 reg .mregDenied (detailOf [(1, reg)]) []]) ∧
    -- MR_EXTEND
    (∀ (faculty : Bool) (reg : Nat) (data : Bytes) (s : State),
      (faculty = false ∨ 16 ≤ reg) →
      reg < 32 →
      1 ≤ data.length →
      data.length ≤ 4096 →
      exec (.mrExtend faculty reg data) s = .next (emit (.engineReply 0 reg .ok noDetail []) (extendMr reg data s)))

/-- Lockers: rotation, withdrawal, restoration and their query: what each command leaves, for every state and operands
that meet the premises written with it. LOCKER_ROTATE (R243), LOCKER_WITHDRAW (R244), LOCKER_RESTORE (R244),
LOCKER_QUERY (R242). The model's own choices that bear on these commands are log entries 39. -/
def Obligations.LockerCommands : Prop :=
    -- LOCKER_ROTATE
    (∀ (b : Binding) (tag : Nat) (peer : PeerAnswer) (p : Packet) (gen : Nat) (s : State),
      s.cpi.packet b tag 0x0702 = some p →
      (s.ciph.locker (p.param 0 2)).ahead = (.isOpen, gen) →
      gen < 65535 →
      (s.paired = true → peer.status = .ok) →
      s.awaitsAlone = false →
      Completes (.lockerRotate b tag peer) s { trust := true, cpi := true, diary := true, tally := true, ciph := true, corr := true, out := true } fun t =>
        Replied p .ok (fields [(2, gen + 1), (6, 0)]) ([]) t ∧
        t.ciph = (changeLocker (p.param 0 2) .isOpen (gen + 1) (pairBase p s)).ciph) ∧
    -- LOCKER_ROTATE
    (∀ (b : Binding) (tag : Nat) (peer : PeerAnswer) (p : Packet) (gen : Nat) (s : State),
      s.cpi.packet b tag 0x0702 = some p →
      (s.ciph.locker (p.param 0 2)).ahead = (.unbound, gen) →
      exec (.lockerRotate b tag peer) s = .next (refuseLocker p .unbound s)) ∧
    -- LOCKER_WITHDRAW
    (∀ (b : Binding) (tag : Nat) (peer : PeerAnswer) (p : Packet) (gen : Nat) (s : State),
      s.cpi.packet b tag 0x0703 = some p →
      (s.ciph.locker (p.param 0 2)).ahead = (.isOpen, gen) →
      (s.paired = true → peer.status = .ok) →
      s.awaitsAlone = false →
      Completes (.lockerWithdraw b tag peer) s { trust := true, cpi := true, tally := true, ciph := true, corr := true, out := true } fun t =>
        t.ciph.withdrawing = s.ciph.withdrawing ++ [(p.param 0 2, (p.binding, p.tag))]) ∧
    -- LOCKER_RESTORE
    (∀ (b : Binding) (tag : Nat) (peer : PeerAnswer) (p : Packet) (gen : Nat) (s : State),
      s.cpi.packet b tag 0x0704 = some p →
      (s.ciph.locker (p.param 0 2)).ahead = (.withdrawn, gen) →
      s.ciph.withdrawing.any (fun w => w.1 == p.param 0 2) = false →
      (s.paired = true → peer.status = .ok) →
      s.awaitsAlone = false →
      Completes (.lockerRestore b tag peer) s { trust := true, cpi := true, diary := true, tally := true, ciph := true, corr := true, out := true } fun t =>
        Replied p .ok [] [] t ∧
        t.ciph = (changeLocker (p.param 0 2) .isOpen gen (pairBase p s)).ciph) ∧
    -- LOCKER_QUERY
    (∀ (b : Binding) (tag : Nat) (p : Packet) (s : State),
      s.cpi.packet b tag 0x0705 = some p →
      Completes (.lockerQuery b tag) s { trust := true, cpi := true, tally := true, corr := true, out := true } fun t =>
        Replied p .ok (fields [(1, lockerCode (s.ciph.locker (p.param 0 2)).state), (1, 0), (2, (s.ciph.locker (p.param 0 2)).gen), (4, 0), (8, (s.ciph.locker (p.param 0 2)).usage)]) ([]) t ∧
        t.ciph = s.ciph)

/-- Checkpoints, garbage collection, retention and spares: what each command leaves, for every state and operands that
meet the premises written with it. CHECKPOINT_START (R303), CHECKPOINT_PHASE2 (R303), SJ_CHECKPOINT_START (R345,
R378), GC_START (R311, R309, R310, R313), BLOCK_ERASE_DUE (R307), PSA_RESOLVE_AGAIN (R308), RETENTION_ACCRUE (R320),
CALIBRATION_DUE (R319, R404), REFRESH_DUE (R321), TIME_TOKEN_WAIT_EXPIRY (R322), SPARE_STATE_CHANGE (R316). The
model's own choices that bear on these commands are log entries 40, 86, 88, 89. -/
def Obligations.FlashBackgroundCommands : Prop :=
    -- CHECKPOINT_START
    (∀ (s : State),
      s.pool.isSome = true →
      s.ftl.checkpoint = 0 →
      (s.ftl.ckptLast + 4096 ≤ s.epoch ∨ s.ftl.tailHigh = true) →
      Completes .checkpointStart s { trust := true, tally := true, ftl := true, saved := true, corr := true, out := true } fun t =>
        t.ftl.checkpoint = 1 ∧
        t.ftl.ckptEpoch = s.epoch ∧
        t.ftl.ckptLast = s.epoch ∧
        t.ftl.ckptPages = 0 ∧
        t.ftl.ckptDir = none ∧
        t.saved.doing = some (journal (.checkpoint 1 0) s).metaImage) ∧
    -- CHECKPOINT_PHASE2
    (∀ (mpa : Nat) (s : State),
      s.ftl.ckptDir = some mpa →
      s.ftl.checkpoint = 1 →
      s.metaBusy = false →
      exec .checkpointPhase2 s = .next (afterDurable s.epoch .checkpoint (journal (.checkpoint 2 mpa) { s with ftl := { s.ftl with checkpoint := 2 } }))) ∧
    -- SJ_CHECKPOINT_START
    (∀ (u w : State) (gs : List Group) (mpa : Nat) (s : State),
      s.pool.isSome = true →
      s.ec.checkpoint = 0 →
      s.ec.ckptLast + 4096 ≤ s.epoch →
      gs = sortBy (fun a b => a.id ≤ b.id) (s.ec.groups.filter (fun g => g.id / 2 ^ 63 == s.sys.slot)) →
      u = journal (.sjCheckpoint 1 0 0) { s with ec := { s.ec with checkpoint := 2, ckptLast := s.epoch } } →
      writeGroups gs u = (w, mpa) →
      exec .sjCheckpointStart s = .next (afterDurable s.epoch .sjCheckpoint (journal (.sjCheckpoint 2 mpa gs.length) { w with ftl := { w.ftl with sjDir := some (mpa, gs.length) } }))) ∧
    -- GC_START
    (∀ (bay : Nat) (die : Nat) (blk : Nat) (s : State),
      (s.fullBlocks bay die).filter (fun b => s.refreshDue b || s.wearCandidate b) = [] →
      ((s.fullBlocks bay die).filter (fun b => (s.ftl.ledger b).live < s.blockUnits bay)).find? (fun b =>
      ((s.fullBlocks bay die).filter (fun b => (s.ftl.ledger b).live < s.blockUnits bay)).all (fun c => s.scoreGe b c)) = some blk →
      (s.dataForms bay).any (fun f => s.formAt bay die == some f) = true →
      (s.freeBlocks bay die (s.blocksPerDie bay)).length < 8 →
      s.ftl.moves.all (fun m => !(blkBay m.blk == bay && blkDie m.blk == die)) = true →
      exec (.gcStart bay die) s = .next (startMove blk 1 s)) ∧
    -- BLOCK_ERASE_DUE
    (∀ (blk : Nat) (s : State),
      s.ftl.erasable.any (fun e => e.1 == blk && e.2 ≤ s.tt.now) = true →
      s.ftl.pinned.all (fun p => p.1 != blk) = true →
      (s.ftl.ledger blk).state = .pendingErase →
      exec (.blockEraseDue blk) s = .next (queueOp (blkOp 3 blk 0 0 4 .erase []) { s with ftl := { s.ftl with erasable := s.ftl.erasable.filter (fun e => e.1 != blk) } })) ∧
    -- PSA_RESOLVE_AGAIN
    (∀ (job : Nat) (r : SlotRead) (psa : Nat) (mine : DieOp → Bool) (s : State),
      s.jobs.read job = some r →
      r.stage = .die →
      r.postBy ≤ s.tt.now →
      psa = ((s.ftl.ctRec r.cid).map (·.psa)).getD r.psa →
      mine = (fun o => match DieOp.use o with | .slot j _ => j == job | _ => false) →
      s.bay.waiting.any mine = true →
      exec (.psaResolveAgain job) s = .next (postRead { r with psa := psa, postBy := s.tt.now + 64 } (setRead { r with psa := psa, postBy := s.tt.now + 64 } { s with
          bay := { s.bay with waiting := s.bay.waiting.filter (fun o => !mine o) }
          ftl := { s.ftl with pinned := s.ftl.pinned.map (fun p => if p.2 == job then (psaBlk psa, job) else p) } }))) ∧
    -- RETENTION_ACCRUE
    (∀ (s : State),
      s.period = 0 →
      s.pool.isSome = true →
      exec .retentionAccrue s = .next (consume s.ownData (fun b => (s.clockUs - s.ftl.accrued) * accelFactor (s.meanTemp (blkBay b))) { s with
          ftl := { s.ftl with accrued := s.clockUs, temps := [] } })) ∧
    -- CALIBRATION_DUE
    (∀ (blk : Nat) (page : Nat) (s : State),
      s.calibrationDue blk = true →
      s.ownsDie (blkBay blk) (blkDie blk) = true →
      (s.bay.outstanding ++ s.bay.waiting).any (fun o => o.opcode == 7 && blkKey o.bay o.die o.block == blk) = false →
      exec (.calibrationDue blk page) s = .next (queueOp { blkOp 7 blk page 0 4 .calibrate [] with operand := (s.ftl.ledger blk).offsets } s)) ∧
    -- REFRESH_DUE
    (∀ (blk : Nat) (s : State),
      (s.fullBlocks (blkBay blk) (blkDie blk)).contains blk = true →
      s.ownsDie (blkBay blk) (blkDie blk) = true →
      s.refreshDue blk = true →
      exec (.refreshDue blk) s = .next (startMove blk 2 s)) ∧
    -- TIME_TOKEN_WAIT_EXPIRY
    (∀ (s : State),
      s.ftl.triage = 1 →
      s.ftl.triageAt + secBells 60 ≤ s.tt.now →
      exec .timeTokenWaitExpiry s = .next (triage true s)) ∧
    -- SPARE_STATE_CHANGE
    (∀ (s : State),
      Completes .spareStateChange s { ftl := true } fun t =>
        t.ftl.sparePermille = s.spareNow ∧
        t.ftl.spareState = s.ftl.spareState ∧
        t.ftl.spareNext = (if spareStateAfter s.ftl.spareState s.spareNow (decide (s.spareBlocks.1 ≤ 0))
      (decide (s.ftl.spareMembers < s.ec.members.length)) = s.ftl.spareState then none
      else some (spareStateAfter s.ftl.spareState s.spareNow (decide (s.spareBlocks.1 ≤ 0)) (decide (s.ftl.spareMembers < s.ec.members.length)))))

/-- Stripes, reconstruction, patrol, detention and rebuild: what each command leaves, for every state and operands that
meet the premises written with it. STRIPE_IDLE_CLOSE (R339), STRIPE_EXTEND (R341), GROUP_OPEN (R330),
RECONSTRUCTION_COMBINE (R348, R328), PATROL_STRIPE (R350, R351, R352), DETENTION_PROBE (R355), DETENTION_TIMEOUT
(R355, R357), MISSING_TIMEOUT (R357, R355), REBUILD_BLOCK (R359, R352, R360, R361, R362), LOST_SWEEP (R363),
VOLUME_OFFLINE (R358). The model's own choices that bear on these commands are log entries 89. -/
def Obligations.StripeAndMemberCommands : Prop :=
    -- STRIPE_IDLE_CLOSE
    (∀ (group : Nat) (g : Group) (s : State),
      s.ec.group group = some g →
      g.isOpen = true →
      g.lastSlot + 64 ≤ s.tt.now →
      (g.filling ≠ [] ∨ (g.cur.isSome = true ∧ 0 < g.posted)) →
      exec (.stripeIdleClose group) s = .next (closeEarly group s)) ∧
    -- STRIPE_EXTEND
    (∀ (group : Nat) (g : Group) (x : Stripe) (s : State),
      s.ec.group group = some g →
      g.stripes.getLast? = some x →
      g.isOpen = true →
      x.interim = true →
      x.final = false →
      x.a < g.k →
      g.cur = none →
      g.filling ≠ [] →
      g.accum ≠ [] →
      exec (.stripeExtend group) s = .next (postStrip group s)) ∧
    -- GROUP_OPEN
    (∀ (layout : Nat) (i : TtImage) (s : State),
      s.tt.active = some i →
      (i.layoutRec layout).purpose = 1 →
      s.openGroupOf layout = none →
      exec (.groupOpen layout) s = .next (openGroup layout s)) ∧
    -- RECONSTRUCTION_COMBINE
    (∀ (job : Nat) (r : SlotRead) (g : Group) (x : Stripe) (pos : Nat) (bytes : Bytes) (s : State),
      s.jobs.read job = some r →
      s.ec.stripeOf r.psa = some (g, (x, pos)) →
      r.stage = .reconstruct →
      r.sources.all (fun p => p.2.isSome) = true →
      r.sources ≠ [] →
      bytes = reconstruct g.k pos (r.sources.map (fun p => (p.1, p.2.getD []))) →
      exec (.reconstructionCombine job) s = .next (pay (streamOf r.why) .par (coveredLength (psaTier r.psa) * r.sources.length) (setRead { r with
          stage := .decrypt
          cipher := bytes.take (4096 * psaTier r.psa)
          envs := (List.range (psaTier r.psa)).map (fun i => slice bytes (4096 * psaTier r.psa + 56 * i) 56) } s))) ∧
    -- PATROL_STRIPE
    (∀ (strips : List (Nat × Bytes)) (id n at_ : Nat) (g : Group) (x : Stripe) (u : State) (got : List (Nat × Bytes)) (s : State),
      s.patrolNext = some (id, n) →
      s.ec.group id = some g →
      g.stripe n = some x →
      (s.patrolReads g x).any (fun i => (getKey i strips).isNone) = false →
      got = strips.filter (fun p => (s.patrolReads g x).contains p.1) →
      s.canPayAll 6 [(.par, 66432 * got.length)] = true →
      u = payAll 6 [(.par, 66432 * got.length)] s →
      at_ = u.patrolList.findIdx (fun p => p == (id, n)) + 1 →
      parityAgrees g x got = true →
      Completes (.patrolStripe strips) s { diary := true, tally := true, tt := true, ec := true, ciph := true } fun t =>
        t.ec.patrolAt = (id, n + 1) ∧
        t.ec.patrolDone = (if at_ = u.patrolList.length then 0 else at_) ∧
        t.ec.weak = s.ec.weak.filter (fun p => p != (id, n)) ∧
        t.ec.mismatch = s.ec.mismatch) ∧
    -- DETENTION_PROBE
    (∀ (form : Nat) (die : Nat) (block : Nat) (page : Nat) (i : TtImage) (s : State),
      s.tt.active = some i →
      (s.ec.member (i.form form).bay).any (fun m => m.state == .detention) = true →
      (s.bay.outstanding ++ s.bay.waiting).any (fun o => o.bay == (i.form form).bay && o.die / 16 == (i.form form).group && o.use == .probe) = false →
      s.formClass form = 4 →
      s.probeDie form (i.form form).bay (i.form form).group = some die →
      ((s.ftl.ledger (blkKey (i.form form).bay die block)).state = .isOpen ∨ (s.ftl.ledger (blkKey (i.form form).bay die block)).state = .full) →
      exec (.detentionProbe form die block page) s = .next (readOp (blkKey (i.form form).bay die block) page 0 4 .probe { s with ec := { s.ec with probed := putKey form die s.ec.probed } })) ∧
    -- DETENTION_TIMEOUT
    (∀ (bay : Nat) (s : State),
      (s.ec.member bay).any (fun m => m.state == .detention && m.since + secBells 30 ≤ s.tt.now) = true →
      exec (.detentionTimeout bay) s = .next (failIfAllowed bay s)) ∧
    -- MISSING_TIMEOUT
    (∀ (bay : Nat) (s : State),
      (s.ec.member bay).any (fun m => m.state == .missing && m.since + secBells 30 ≤ s.tt.now) = true →
      exec (.missingTimeout bay) s = .next (failIfAllowed bay s)) ∧
    -- REBUILD_BLOCK
    (∀ (sources : List (Nat × List (Nat × Bytes))) (id pos new : Nat) (s : State),
      s.ec.replacing = some (id, (pos, new)) →
      s.ec.serving (blkBay new) = true →
      s.rebuildBusy = false →
      exec (.rebuildBlock sources) s = .next (finishRebuild id pos new s)) ∧
    -- REBUILD_BLOCK
    (∀ (sources : List (Nat × List (Nat × Bytes))) (id pos new : Nat) (s : State),
      s.ec.replacing = some (id, (pos, new)) →
      s.ec.serving (blkBay new) = false →
      Completes (.rebuildBlock sources) s { trust := true, diary := true, tally := true, tt := true, ftl := true, ec := true, bay := true, corr := true, out := true } fun t =>
        t.ec.replacing = none) ∧
    -- REBUILD_BLOCK
    (∀ (sources : List (Nat × List (Nat × Bytes))) (id pos new : Nat) (g : Group) (u : State) (s : State),
      s.ec.replacing = none →
      (sortBy (fun a b => a.1 < b.1 || (a.1 == b.1 && a.2 ≤ b.2)) s.ec.rebuildTriads).find? (fun p => s.hasStandby p && s.triadClass p.1 == s.rebuildClass) = none →
      s.rebuildNext = some (id, pos) →
      s.ec.group id = some g →
      s.replacement g pos = some new →
      s.canPayAll (if s.ec.faulty.contains (id, pos) then 6 else 7) [(.par, 66432 * sumNat (sources.map (fun p => p.2.length)))] = true →
      u = payAll (if s.ec.faulty.contains (id, pos) then 6 else 7) [(.par, 66432 * sumNat (sources.map (fun p => p.2.length)))] s →
      exec (.rebuildBlock sources) s = .next (beginRebuild g pos new sources { u with ec := { u.ec with waits := none } })) ∧
    -- LOST_SWEEP
    (∀ (s : State),
      s.ec.sweepBy.isSome = true →
      exec .lostSweep s = .next ((s.ftl.ct.filter (fun c => s.ec.groups.any (fun g => g.lost.any (fun l =>
          c.2.live && g.blocks.getD l.1 0 == psaBlk c.2.psa && l.2.1 == psaPage c.2.psa)))).foldl (fun t c => loseCid c.1 1 t)
          { s with ec := { s.ec with sweepBy := none } })) ∧
    -- VOLUME_OFFLINE
    (∀ (s : State),
      exec .volumeOffline s = .next (goOffline s))

/-- Completions of the NAND bridges: what each command leaves, for every state and operands that meet the premises written
with it. BLP_READ_COMPLETE (R402, R405, R406), BLP_PROGRAM_COMPLETE (R401, R314, R344), BLP_ERASE_COMPLETE (R307,
R314), BLP_SUSPEND_COMPLETE (R398), BLP_RESUME_COMPLETE (R398), BLP_STATUS_COMPLETE (R478, R413),
BLP_CALIBRATE_COMPLETE (R404), BLP_TELEMETRY_COMPLETE (R408, R409, R416), BLP_FENCE_COMPLETE (R412, R413, R478). The
model's own choices that bear on these commands are log entries 41, 42, 69. -/
def Obligations.BridgeCompletionCommands : Prop :=
    -- BLP_READ_COMPLETE
    (∀ (d : BlpDone) (data : Bytes) (tags : Bytes) (op : DieOp) (job source : Nat) (r : SlotRead) (s : State),
      s.bay.find d.bay d.tag = some op →
      op.opcode = 1 →
      op.use = .slot job source →
      d.status = 0 →
      s.jobs.read job = some r →
      exec (.blpReadComplete d data tags) s = .next (slotArrived r source data tags (noteRead op d (takeDone op d s)))) ∧
    -- BLP_READ_COMPLETE
    (∀ (d : BlpDone) (data : Bytes) (tags : Bytes) (op : DieOp) (root page : Nat) (u : State) (s : State),
      s.bay.find d.bay d.tag = some op →
      op.opcode = 1 →
      op.use = .metadata root page →
      d.status = 0 →
      u = noteRead op d (takeDone op d s) →
      exec (.blpReadComplete d data tags) s = .next (metaArrived root page (u.openMeta (u.ftl.mpaOfPage root page) data tags) u)) ∧
    -- BLP_PROGRAM_COMPLETE
    (∀ (d : BlpDone) (op : DieOp) (s : State),
      s.bay.find d.bay d.tag = some op →
      op.opcode = 2 →
      d.status ≤ 4 →
      exec (.blpProgramComplete d) s = .next (programEnded op (d.status == 0) (takeDone op d s))) ∧
    -- BLP_ERASE_COMPLETE
    (∀ (d : BlpDone) (op : DieOp) (blk : Nat) (u : State) (s : State),
      s.bay.find d.bay d.tag = some op →
      op.opcode = 3 →
      op.use = .erase →
      d.status = 0 →
      blk = blkKey op.bay op.die op.block →
      u = takeDone op d s →
      exec (.blpEraseComplete d) s = .next (tallyAdd 0x0A 5 1 (setBlkState blk .free (setOwnLedger blk { u.ftl.ledger blk with pe := (u.ftl.ledger blk).pe + 1, live := 0 } u)))) ∧
    -- BLP_ERASE_COMPLETE
    (∀ (d : BlpDone) (op : DieOp) (s : State),
      s.bay.find d.bay d.tag = some op →
      op.opcode = 3 →
      op.use = .erase →
      d.status = 4 →
      exec (.blpEraseComplete d) s = .next (retireBlock (blkKey op.bay op.die op.block) 2 (takeDone op d s))) ∧
    -- BLP_SUSPEND_COMPLETE
    (∀ (d : BlpDone) (op : DieOp) (b : Binding) (tag : Nat) (s : State),
      s.bay.find d.bay d.tag = some op →
      op.opcode = 4 →
      d.status ≤ 4 →
      op.use = .diag b tag →
      exec (.blpSuspendComplete d) s = .next (answerDiag b tag [] [] (takeDone op d s))) ∧
    -- BLP_RESUME_COMPLETE
    (∀ (d : BlpDone) (op : DieOp) (b : Binding) (tag : Nat) (s : State),
      s.bay.find d.bay d.tag = some op →
      op.opcode = 5 →
      d.status ≤ 4 →
      op.use = .diag b tag →
      exec (.blpResumeComplete d) s = .next (answerDiag b tag [] [] (takeDone op d s))) ∧
    -- BLP_STATUS_COMPLETE
    (∀ (d : BlpDone) (record : Bytes) (op : DieOp) (f : Nat) (u : State) (s : State),
      s.bay.find d.bay d.tag = some op →
      op.opcode = 6 →
      d.status = 0 →
      op.use = .statusOf f →
      fieldAt record 2 1 = s.sys.slot →
      u = takeDone op d s →
      Completes (.blpStatusComplete d record) s { trust := true, cpi := true, diary := true, tally := true, tt := true, stg := true, ftl := true, ec := true, bay := true, pool := true, jobs := true, hq := true, corr := true, out := true } fun t =>
        t.bay.halted = u.bay.halted.filter (· != f) ∧
        t.bay.fences = putKey f (fieldAt record 8 8) u.bay.fences) ∧
    -- BLP_CALIBRATE_COMPLETE
    (∀ (d : BlpDone) (offsets : List Nat) (counts : List Nat) (op : DieOp) (u : State) (s : State),
      s.bay.find d.bay d.tag = some op →
      op.opcode = 7 →
      op.use = .calibrate →
      d.status = 0 →
      u = takeDone op d s →
      exec (.blpCalibrateComplete d offsets counts) s = .next (setLedger (blkKey op.bay op.die op.block) { u.ftl.ledger (blkKey op.bay op.die op.block) with
          offsets := (offsets ++ List.replicate 16 0).take 16
          calDay := u.day % 2 ^ 32
          ratio := 0 } { u with
          ftl := { u.ftl with
            fullDue := u.ftl.fullDue.filter (· != blkKey op.bay op.die op.block)
            calibrated := if u.ftl.calibrated.contains (blkKey op.bay op.die op.block) then u.ftl.calibrated
            else u.ftl.calibrated ++ [blkKey op.bay op.die op.block] } })) ∧
    -- BLP_TELEMETRY_COMPLETE
    (∀ (d : BlpDone) (page : Bytes) (op : DieOp) (u : State) (s : State),
      s.bay.find d.bay d.tag = some op →
      op.opcode = 8 →
      op.use = .telemetry →
      d.status = 0 →
      op.selector = 0 →
      identityOk page = true →
      u = takeDone op d s →
      exec (.blpTelemetryComplete d page) s = .next (queueOp (blkOp 1 (blkKey op.bay 0 0) 0 15 0 .ring [])
          (setBay op.bay { u.bay.bayOf op.bay with ident := some (identityOf page), found := none } u))) ∧
    -- BLP_TELEMETRY_COMPLETE
    (∀ (d : BlpDone) (page : Bytes) (op : DieOp) (s : State),
      s.bay.find d.bay d.tag = some op →
      op.opcode = 8 →
      op.use = .telemetry →
      d.status = 0 →
      op.selector = 0 →
      identityOk page = false →
      exec (.blpTelemetryComplete d page) s = .next (identityRefused op.bay (takeDone op d s))) ∧
    -- BLP_FENCE_COMPLETE
    (∀ (d : BlpDone) (op : DieOp) (forms : List Nat) (s : State),
      s.bay.find d.bay d.tag = some op →
      op.opcode = 9 →
      op.use = .fence forms →
      d.status = 0 →
      Completes (.blpFenceComplete d) s { trust := true, diary := true, tally := true, ftl := true, ec := true, bay := true, pool := true, jobs := true, corr := true, out := true } fun t =>
        t.bay.fences = forms.foldl (fun l f => putKey f op.fence l) (takeDone op d s).bay.fences) ∧
    -- BLP_FENCE_COMPLETE
    (∀ (d : BlpDone) (op : DieOp) (forms : List Nat) (s : State),
      s.bay.find d.bay d.tag = some op →
      op.opcode = 9 →
      op.use = .fence forms →
      d.status = 0x0A →
      exec (.blpFenceComplete d) s = .next (forms.foldl (fun t f => haltForm f t) (takeDone op d s)))

/-- Bays, their links and their modules: what each command leaves, for every state and operands that meet the premises
written with it. TELEMETRY_POLL (R409), BAY_PRESENCE_DETECT (R416, R390, R415), BAY_PERST_RELEASE (R416), BAY_LINK_UP
(R416, R413), BAY_LINK_TRAIN_TIMEOUT (R416), BAY_PRESENCE_LOST (R419), BAY_POWER_OFF_TIMEOUT (R419), BAY_RETRAIN_TIMER
(R419), BAY_LINK_RETURN (R420, R355), BAY_ATTENTION (R421), BAY_LINK_DEGRADED (R422), BAY_FULL_RETRAIN (R422, R470),
WITNESS_CAS_COMPLETE (R480). The model's own choices that bear on these commands are log entries 41, 48, 90, 92. -/
def Obligations.BayCommands : Prop :=
    -- TELEMETRY_POLL
    (∀ (s : State),
      s.bay.lastPoll + 64 ≤ s.day →
      exec .telemetryPoll s = .next ((s.bay.bays.filter (fun p => p.2.linkUp)).foldl (fun t p => queueOp (bayOp 8 p.1 1 0 [] 0 .telemetry) t)
          { s with bay := { s.bay with lastPoll := s.day } })) ∧
    -- BAY_PRESENCE_DETECT
    (∀ (bay : Nat) (s : State),
      bay < 64 →
      s.pins.faulty (prsntPin bay) = false →
      (s.bay.bayOf bay).state = .absent →
      exec (.bayPresenceDetect bay) s = .next (powerUp bay (setLevel (prsntPin bay) false s))) ∧
    -- BAY_PERST_RELEASE
    (∀ (bay : Nat) (s : State),
      (s.bay.bayOf bay).state = .powering →
      (s.bay.bayOf bay).since + msBells 100 ≤ s.tt.now →
      exec (.bayPerstRelease bay) s = .next (bayTo bay .training (driveReset bay false s))) ∧
    -- BAY_LINK_UP
    (∀ (bay : Nat) (width : Nat) (rate : Nat) (s : State),
      (s.bay.bayOf bay).state = .training →
      exec (.bayLinkUp bay width rate 1) s = .next (queueOp (bayOp 8 bay 0 0 [] 0 .telemetry) (fenceBay bay
          (drawn 1 (emitAll [.bridge bay 0 none, .bridge bay 0x200 (some s.free)] (linkAt bay width rate s)))))) ∧
    -- BAY_LINK_UP
    (∀ (bay : Nat) (width : Nat) (rate : Nat) (version : Nat) (s : State),
      (s.bay.bayOf bay).state = .training →
      version ≠ 1 →
      exec (.bayLinkUp bay width rate version) s = .next (identityRefused bay (drawn 1 (emitAll [.bridge bay 0 none, .bridge bay 0x200 (some s.free)] (linkAt bay width rate s))))) ∧
    -- BAY_LINK_TRAIN_TIMEOUT
    (∀ (bay : Nat) (s : State),
      (s.bay.bayOf bay).state = .training →
      (s.bay.bayOf bay).since + secBells 1 ≤ s.tt.now →
      (s.bay.bayOf bay).retried = false →
      exec (.bayLinkTrainTimeout bay) s = .next (bayTo bay .powering (driveReset bay true (setBay bay { s.bay.bayOf bay with retried := true } s)))) ∧
    -- BAY_LINK_TRAIN_TIMEOUT
    (∀ (bay : Nat) (s : State),
      (s.bay.bayOf bay).state = .training →
      (s.bay.bayOf bay).since + secBells 1 ≤ s.tt.now →
      (s.bay.bayOf bay).retried = true →
      exec (.bayLinkTrainTimeout bay) s = .next (event 0x9001 (bayIsland bay) (argOf [(0, bay), (1, 5)]) (bayTo bay .unused s))) ∧
    -- BAY_PRESENCE_LOST
    (∀ (bay : Nat) (s : State),
      bay < 64 →
      (s.bay.bayOf bay).state ≠ .absent →
      (s.bay.bayOf bay).state ≠ .taken →
      (s.bay.bayOf bay).state ≠ .down →
      s.pins.faulty (prsntPin bay) = false →
      exec (.bayPresenceLost bay true) s = .next (bayLost bay (setLevel (prsntPin bay) true s))) ∧
    -- BAY_POWER_OFF_TIMEOUT
    (∀ (bay : Nat) (s : State),
      (s.bay.bayOf bay).state = .down →
      s.present bay = false →
      (s.bay.bayOf bay).since + msBells 100 ≤ s.tt.now →
      exec (.bayPowerOffTimeout bay) s = .next (drivePower bay false (driveReset bay true (setBay bay { s.bay.bayOf bay with
          state := .absent, ident := none, class_ := .unknown, poolId := [], witness := 0, cqHead := 0, ring := 0 } s)))) ∧
    -- BAY_RETRAIN_TIMER
    (∀ (bay : Nat) (s : State),
      (s.bay.bayOf bay).state = .down →
      s.present bay = true →
      (s.bay.bayOf bay).since + secBells 1 ≤ s.tt.now →
      exec (.bayRetrainTimer bay) s = .next (setBay bay { s.bay.bayOf bay with retrains := min ((s.bay.bayOf bay).retrains + 1) 65535, since := s.tt.now } s)) ∧
    -- BAY_LINK_RETURN
    (∀ (bay : Nat) (width : Nat) (rate : Nat) (s : State),
      (s.bay.bayOf bay).state = .down →
      exec (.bayLinkReturn bay width rate) s = .next (queueOp (bayOp 8 bay 0 0 [] 0 .telemetry) (fenceBay bay
          (emitAll [.bridge bay (0x200000 + 32 * ((s.bay.bayOf bay).cqHead % 8192)) none,
            .bridge bay 0x208 (some ((s.bay.bayOf bay).cqHead % 2 ^ 32))] (linkAt bay width rate s))))) ∧
    -- BAY_ATTENTION
    (∀ (bay : Nat) (cause : Nat) (s : State),
      (s.bay.bayOf bay).linkUp = true →
      bitAt 0 cause = false →
      bitAt 1 cause = false →
      s.pins.isOpen (attnPin bay) = false →
      exec (.bayAttention bay cause) s = .next (event 0x9003 (bayIsland bay) (argOf [(0, bay), (1, cause % 256)]) (setBay bay { s.bay.bayOf bay with attnDay := s.day }
          (emitAll [.bridge bay 0x108 none, .bridge bay 0x108 (some cause)] s)))) ∧
    -- BAY_ATTENTION
    (∀ (bay : Nat) (s : State),
      (s.bay.bayOf bay).linkUp = true →
      s.pins.isOpen (attnPin bay) = true →
      (s.bay.bayOf bay).attnDay + 64 ≤ s.day →
      exec (.bayAttention bay 0) s = .next (setBay bay { s.bay.bayOf bay with attnDay := s.day } (emitAll [.bridge bay 0x108 none, .bridge bay 0x108 (some 0)] s))) ∧
    -- BAY_LINK_DEGRADED
    (∀ (bay : Nat) (width : Nat) (rate : Nat) (s : State),
      (s.bay.bayOf bay).linkUp = true →
      exec (.bayLinkDegraded bay width rate) s = .next (setBay bay { (linkAt bay width rate s).bay.bayOf bay with
          retrains := min (((linkAt bay width rate s).bay.bayOf bay).retrains + 1) 65535
          lastFull := s.day } (linkAt bay width rate s))) ∧
    -- BAY_FULL_RETRAIN
    (∀ (width : Nat) (rate : Nat) (s : State),
      s.corr.link = 3 →
      s.corr.lastFull + 1024 ≤ s.day →
      8 ≤ width →
      width ≤ 32 →
      width % 8 = 0 →
      Completes (.bayFullRetrain none width rate) s { diary := true, tally := true, bay := true, corr := true } fun t =>
        t.corr.lanes = width ∧
        t.corr.link = (if width = 32 then 2 else 3) ∧
        t.corr.lastFull = s.day ∧
        t.corr.retrains = min (s.corr.retrains + 1) 65535) ∧
    -- BAY_FULL_RETRAIN
    (∀ (width : Nat) (rate : Nat) (b : Nat) (s : State),
      (s.bay.bayOf b).state = .degraded →
      (s.bay.bayOf b).lastFull + 1024 ≤ s.day →
      s.tt.active = none →
      exec (.bayFullRetrain (some b) width rate) s = .next (setBay b { (linkAt b width rate s).bay.bayOf b with
          retrains := min (((linkAt b width rate s).bay.bayOf b).retrains + 1) 65535
          lastFull := s.day } (linkAt b width rate s))) ∧
    -- WITNESS_CAS_COMPLETE
    (∀ (bay : Nat) (old : Nat) (x : Nat × (Nat × Nat)) (s : State),
      s.corr.cas.find? (fun x => x.1 == bay) = some x →
      old = x.2.1 →
      x.2.2 ≠ s.claim →
      Completes (.witnessCasComplete bay old) s { bay := true, corr := true, out := true } fun t =>
        (t.bay.bayOf bay).witness = x.2.2 ∧
        t.corr.cas = s.corr.cas.filter (fun x => x.1 != bay))

/-- The Corridor, its messages and the alignment of the bells: what each command leaves, for every state and operands that
meet the premises written with it. CORRIDOR_TRAIN (R467, R468, R469, R470, R471), CORRIDOR_REFUSED_RETRY (R469),
CORRIDOR_LINK_DOWN (R471, R467), BELL_SYNC (R474, R42, R43), SNAP_FENCE (R427), FORBIDDEN_PEER_MESSAGE (R640), JOURNAL
(R297, R293), JOURNAL_ACK (R297, R293, R176), SB_CHANGE (R380), ANA_MOVE (R290, R119), RELEASE_NOTICE (R477, R490),
RESYNC_DONE (R491, R81), HELLO (R491), PREFECT_RECORD (R519, R520, R521). The model's own choices that bear on these
commands are log entries 48, 49, 51, 75, 86, 94. -/
def Obligations.HeadPairLinkCommands : Prop :=
    -- CORRIDOR_TRAIN
    (∀ (pool : Bytes) (slot : Nat) (failed : Nat) (reversed : Bool) (inverted : Nat) (s : State),
      s.corr.link ≤ 1 →
      failed ≤ 32 →
      exec (.corridorTrain true pool slot failed reversed inverted) s = .next (refuseLink 4 2 (sendToken s))) ∧
    -- CORRIDOR_TRAIN
    (∀ (pool : Bytes) (slot : Nat) (failed : Nat) (reversed : Bool) (inverted : Nat) (u : State) (s : State),
      s.corr.link ≤ 1 →
      25 ≤ failed →
      failed ≤ 32 →
      slot ≠ s.sys.slot →
      s.pool = none →
      u = sendToken s →
      exec (.corridorTrain false pool slot failed reversed inverted) s = .next (corrEvent 4 { u with
          corr := { u.corr with
            reversed := reversed
            inverted := inverted
            lanes := 0
            fault := false
            helloSeen := false
            daysKnown := false
            link := 0 } })) ∧
    -- CORRIDOR_TRAIN
    (∀ (pool : Bytes) (slot : Nat) (reversed : Bool) (inverted : Nat) (v u : State) (s : State),
      s.corr.link ≤ 1 →
      slot ≠ s.sys.slot →
      s.pool = none →
      v = sendToken s →
      u = resendAll { v with
      corr := { v.corr with
      reversed := reversed
      inverted := inverted
      lanes := 32
      fault := false
      helloSeen := false
      daysKnown := false
      link := 2
      lastFull := v.day } } →
      u.leads = true →
      u.pairOfferer = false →
      u.pwr.stage ≠ .joining →
      exec (.corridorTrain false pool slot 0 reversed inverted) s = .next (exchangeMarks u)) ∧
    -- CORRIDOR_REFUSED_RETRY
    (∀ (s : State),
      (s.corr.link = 4 ∨ s.corr.link = 5) →
      s.corr.refusedAt + secBells 1 ≤ s.tt.now →
      Completes .corridorRefusedRetry s { tally := true, corr := true } fun t =>
        t.corr.link = 1 ∧
        t.corr.retrains = min (s.corr.retrains + 1) 65535) ∧
    -- CORRIDOR_LINK_DOWN
    (∀ (s : State),
      s.corr.up = true →
      Completes .corridorLinkDown s { diary := true, tally := true, corr := true } fun t =>
        t.corr.link = 1 ∧
        t.corr.retrains = min (s.corr.retrains + 1) 65535) ∧
    -- BELL_SYNC
    (∀ (day : Nat) (sendCycle : Nat) (echoed : Nat) (here : Nat) (u : State) (s : State),
      s.drops (.bellSync day sendCycle echoed) = false →
      s.leads = true →
      u = { tallyAdd 0x0D 1 1 s with corr := { s.corr with daysKnown := true } } →
      exec (.bellSync day sendCycle echoed here) s = .next (send (.bellSync s.day (here % 4000) (here % 4000)) (compareDays day u))) ∧
    -- SNAP_FENCE
    (∀ (number : Nat) (tag : Nat) (bell : Nat) (roots : List Nat) (m : Sent) (g : SnapGroup) (u : State) (s : State),
      s.drops (.snapFence tag bell roots) = false →
      getKey number s.corr.answered = none →
      s.corr.answerOf (fun b => match b with | .snapFence t _ _ => t == tag | _ => false) = some m →
      u = settleNumber m.number (tallyAdd 0x0D 1 1 s) →
      u.repl.groups.find? (fun g => g.tag == tag) = some g →
      g.cut = false →
      exec (.snapFence number tag bell roots) s = .next (fenceBell (setGroupOf { g with fence := some bell } u))) ∧
    -- FORBIDDEN_PEER_MESSAGE
    (∀ (s : State),
      exec .forbiddenPeerMessage s = .next (tallyAdd 0x0D 1 1 s)) ∧
    -- JOURNAL
    (∀ (number : Nat) (r : JRec) (s : State),
      s.drops (.journal [r]) = false →
      getKey number s.corr.answered = none →
      (∀ n c, r.body ≠ .epochSeal n c) →
      exec (.journal number [r]) s = .next (advanceDurable (reply number (.journalAck number) (wake true (ownerActs r (applyRec r (dropLive r (bringForward r
          { tallyAdd 0x0D 1 1 s with ftl := { s.ftl with mirror := s.ftl.mirror ++ [r] } })))))))) ∧
    -- JOURNAL_ACK
    (∀ (number : Nat) (m : Sent) (l : List JRec) (s : State),
      s.drops (.journalAck number) = false →
      s.corr.awaiting number = some m →
      m.body = .journal [] →
      exec (.journalAck number) s = .next (advanceDurable (settleNumber number { tallyAdd 0x0D 1 1 s with
          ftl := { s.ftl with unacked := s.ftl.unacked.filter (fun u => u.1 != number) } }))) ∧
    -- SB_CHANGE
    (∀ (number : Nat) (offset : Nat) (bytes : Bytes) (m : Sent) (s : State),
      s.drops (.sbChange offset bytes) = false →
      getKey number s.corr.answered = none →
      s.corr.answerOf (fun b => b == .sbChange offset bytes) = some m →
      exec (.sbChange number offset bytes) s = .next (settleNumber m.number (tallyAdd 0x0D 1 1 s))) ∧
    -- ANA_MOVE
    (∀ (number : Nat) (group : Nat) (owner : Nat) (boundary : Nat) (next : List (Nat × Nat)) (m : Sent) (u : State) (s : State),
      s.drops (.anaMove group owner boundary next) = false →
      getKey number s.corr.answered = none →
      s.corr.answerOf (fun b => b == .anaMove group owner boundary next) = none →
      u = putOwner group owner { tallyAdd 0x0D 1 1 s with hq := { s.hq with fsn := next.foldl (fun l p => putKey p.1 p.2 l) s.hq.fsn } } →
      exec (.anaMove number group owner boundary next) s = .next (reply number (.anaMove group owner boundary next) (answerMoves group (bindTaken [group] u)))) ∧
    -- RELEASE_NOTICE
    (∀ (time : Nat) (s : State),
      s.drops (.releaseNotice time) = false →
      exec (.releaseNotice time) s = .next (presumeDown false (tallyAdd 0x0D 1 1 s))) ∧
    -- RESYNC_DONE
    (∀ (lastNumber : Nat) (epoch : Nat) (head : Nat) (seq : Nat) (s : State),
      s.drops (.resyncDone lastNumber epoch head seq) = false →
      s.corr.roll = .joining →
      s.corr.step = 7 →
      s.pwr.stage = .service →
      exec (.resyncDone lastNumber epoch head seq) s = .next (trigger false 1 0 { tallyAdd 0x0D 1 1 s with corr := { s.corr with step := 8 } })) ∧
    -- HELLO
    (∀ (number : Nat) (record : Bytes) (m : Sent) (s : State),
      s.drops (.hello record) = false →
      getKey number s.corr.answered = none →
      s.pwr.stage = .joining →
      s.corr.answerOf (fun b => match b with | .hello _ => true | _ => false) = some m →
      s.trust.identityOk record = true →
      s.knows (1 - s.sys.slot) (identityDigest record) = true →
      exec (.hello number record) s = .next (settleNumber m.number { tallyAdd 0x0D 1 1 s with corr := { s.corr with step := max 2 s.corr.step } })) ∧
    -- PREFECT_RECORD
    (∀ (number : Nat) (s : State),
      s.drops (.prefectRecord .resume) = false →
      getKey number s.corr.answered = none →
      s.corr.answerOf (fun b => b == .prefectRecord .resume) = none →
      s.trust.channel = none →
      exec (.prefectRecord number .resume) s = .next (tallyAdd 0x0D 1 1 s)) ∧
    -- PREFECT_RECORD
    (∀ (number : Nat) (c : PairChannel) (s : State),
      s.drops (.prefectRecord .resume) = false →
      getKey number s.corr.answered = none →
      s.corr.answerOf (fun b => b == .prefectRecord .resume) = none →
      s.trust.channel = some c →
      exec (.prefectRecord number .resume) s = .next (resendAll (reply number (.prefectRecord .resume) (takeRecord .resume { tallyAdd 0x0D 1 1 s with
          trust := { s.trust with channel := some { c with received := c.received + 1 } } }))))

/-- Roll call, arbitration, failover, adoption and release: what each command leaves, for every state and operands that
meet the premises written with it. HEARTBEAT (R475, R43, R476, R477, R478, R479, R485), HEARTBEAT_MISSED (R475, R476,
R486, R492), ARBITRATION_COUNT (R481, R482, R484), ARBITRATION_RETRY (R484), FAILOVER_REPLAY (R486, R141, R305, R346,
R387, R430, R487, R304), FAILOVER_TAKEOVER (R486, R488, R527), HEAD_ADOPT (R491), HEAD_RELEASE (R490). The model's own
choices that bear on these commands are log entries 50, 51, 75, 90. -/
def Obligations.RollcallAndArbitrationCommands : Prop :=
    -- HEARTBEAT
    (∀ (day : Nat) (term : Nat) (sheet : Nat) (dirtyMib : Nat) (degradations : Nat) (s : State),
      s.drops (.heartbeat day term sheet 2 dirtyMib degradations) = false →
      s.corr.roll ≠ .inService →
      day = s.day →
      s.period < 512 →
      s.corr.daysKnown = true →
      Completes (.heartbeat day term sheet 2 dirtyMib degradations) s { pwr := true, trust := true, cpi := true, diary := true, tally := true, tt := true, stg := true, ddp := true, ftl := true, ec := true, bay := true, jobs := true, hq := true, corr := true, out := true } fun t =>
        t.corr.lastBeat = s.tt.now ∧
        t.corr.beatDay = day ∧
        t.corr.misses = 0) ∧
    -- HEARTBEAT
    (∀ (day : Nat) (term : Nat) (sheet : Nat) (dirtyMib : Nat) (degradations : Nat) (u : State) (s : State),
      s.drops (.heartbeat day term sheet 1 dirtyMib degradations) = false →
      s.corr.roll = .inService →
      day ≠ s.day →
      s.pwr.stage ≠ .joining →
      u = { tallyAdd 0x0D 1 1 s with corr := { s.corr with lastBeat := s.tt.now } } →
      exec (.heartbeat day term sheet 1 dirtyMib degradations) s = .next (selfFence u)) ∧
    -- HEARTBEAT_MISSED
    (∀ (s : State),
      s.period = 512 →
      s.corr.beatDay ≠ s.day →
      s.corr.missDay ≠ some s.day →
      s.corr.misses < 2 →
      (s.corr.roll = .inService ∨ s.corr.roll = .joining ∨ (s.corr.roll = .noPeer ∧ s.pwr.stage = .service ∧ s.hasPeer = true)) →
      exec .heartbeatMissed s = .next (event 0xA001 25 (s.corr.misses + 1) { s with corr := { s.corr with misses := s.corr.misses + 1, missDay := some s.day } })) ∧
    -- HEARTBEAT_MISSED
    (∀ (u : State) (s : State),
      s.period = 512 →
      s.corr.beatDay ≠ s.day →
      s.corr.missDay ≠ some s.day →
      s.corr.misses = 2 →
      s.corr.roll = .inService →
      u = event 0xA001 25 3 { s with corr := { s.corr with misses := 3, missDay := some s.day } } →
      u.pwr.stage ≠ .joining →
      u.corr.roll ≠ .joining →
      exec .heartbeatMissed s = .next (startRound { u with hq := { u.hq with held := (u.hq.held ++ u.peerGroups).eraseDups } })) ∧
    -- ARBITRATION_COUNT
    (∀ (held peer unknown outcome m : Nat) (u : State) (s : State),
      s.corr.running = true →
      s.corr.round < s.tt.now →
      s.witnesses = (held, (peer, unknown)) →
      m = s.ec.members.length →
      meets s.sys.slot held m = true →
      u = event 0xA003 25 (argOf [(0, held), (1, m), (2, 1)]) { s with corr := { s.corr with running := false, outcome := 1, held := held, members := m } } →
      exec .arbitrationCount s = .next (presumeDown false { u with corr := { u.corr with roll := .inService } })) ∧
    -- ARBITRATION_COUNT
    (∀ (held peer unknown m : Nat) (u : State) (s : State),
      s.corr.running = true →
      s.corr.round < s.tt.now →
      s.witnesses = (held, (peer, unknown)) →
      m = s.ec.members.length →
      meets s.sys.slot held m = false →
      meets (1 - s.sys.slot) (peer + unknown) m = false →
      u = event 0xA003 25 (argOf [(0, held), (1, m), (2, 3)]) { s with corr := { s.corr with running := false, outcome := 3, held := held, members := m } } →
      u.corr.roll ≠ .selfFenced →
      exec .arbitrationCount s = .next (selfFence u)) ∧
    -- ARBITRATION_RETRY
    (∀ (s : State),
      s.corr.roll = .selfFenced →
      s.corr.outcome = 3 →
      s.corr.running = false →
      s.period = 512 →
      s.corr.round / 1024 < s.day →
      exec .arbitrationRetry s = .next (startRound s)) ∧
    -- FAILOVER_REPLAY
    (∀ (u w : State) (s : State),
      s.corr.roll = .presumedDown →
      s.peerAbsent = true →
      s.corr.failover = 0 →
      u = closeTorn (1 - s.sys.slot) (takeHalf (takeDeltas (takeResolutions (dropUnmarked (answersGone s))))) →
      w = cutAgain { u with
      ftl := { u.ftl with unacked := [] }
      hq := { u.hq with fsnWaits := [], queues := u.hq.queues.map (fun q => { q with asked := none }) }
      corr := { u.corr with failover := 1, unanswered := [] } } →
      w.corr.peerImage = none →
      exec .failoverReplay s = .next (advanceDurable w)) ∧
    -- FAILOVER_TAKEOVER
    (∀ (u : State) (s : State),
      s.corr.roll = .presumedDown →
      s.corr.failover = 1 →
      u = { s with
      hq := { s.hq with fsn := (s.peerGroups.flatMap s.groupNs).foldl (fun l n => putKey n (s.highestSeq n + 2 ^ 32) l) s.hq.fsn }
      corr := { s.corr with failover := 2, taken := s.peerGroups } } →
      exec .failoverTakeover s = .next (resumeActivation (bindTaken s.peerGroups (s.peerGroups.foldl (fun t g => putOwner g s.sys.slot t) u)))) ∧
    -- HEAD_ADOPT
    (∀ (b : Binding) (tag : Nat) (p : Packet) (s : State),
      s.cpi.packet b tag 0x0510 = some p →
      s.corr.adopt = none →
      s.corr.roll ≠ .joining →
      Completes (.headAdopt b tag) s { trust := true, cpi := true, diary := true, tally := true, corr := true, out := true } fun t =>
        Replied p .ok [] [] t ∧
        t.corr.adopt = some (slice p.params 0 32)) ∧
    -- HEAD_ADOPT
    (∀ (b : Binding) (tag : Nat) (p : Packet) (s : State),
      s.cpi.packet b tag 0x0510 = some p →
      s.corr.adopt.isSome = true →
      Completes (.headAdopt b tag) s { trust := true, cpi := true, diary := true, tally := true, corr := true, out := true } fun t =>
        Replied p .handoverBusy [] [] t ∧
        t.corr.adopt = s.corr.adopt) ∧
    -- HEAD_RELEASE
    (∀ (b : Binding) (tag : Nat) (p : Packet) (s : State),
      s.cpi.packet b tag 0x0511 = some p →
      s.paired = true →
      s.corr.step = 0 →
      s.corr.releasing = none →
      exec (.headRelease b tag) s = .next ((((s.ftl.roots.filter (fun r => r.nsid != 0 && s.ownsGroup r.ana)).map (·.ana)).eraseDups).foldl
          (fun t g => beginMove g (1 - s.sys.slot) t) { s with corr := { s.corr with releasing := some (b, tag) } })) ∧
    -- HEAD_RELEASE
    (∀ (b : Binding) (tag : Nat) (p : Packet) (s : State),
      s.cpi.packet b tag 0x0511 = some p →
      s.paired = false →
      Completes (.headRelease b tag) s { trust := true, cpi := true, tally := true, hq := true, corr := true, out := true } fun t =>
        Replied p .peerPresent [] [] t ∧
        (p.binding ≠ .peer → t.corr = s.corr))

/-- Federation, trusted time and lockstep faults: what each command leaves, for every state and operands that meet the
premises written with it. FED_HEARTBEAT_SEND (R495), FED_HEARTBEAT (R495, R496), FED_UNREACHABLE (R495),
FED_ROSTER_LOAD (R494), FED_TIME_TOKEN (R496), FED_QUERY (R499), CLOCK_RECORD_WRITE (R517), LOCKSTEP_MISMATCH (R501).
The model's own choices that bear on these commands are log entries 52, 53. -/
def Obligations.FederationAndFaultCommands : Prop :=
    -- FED_HEARTBEAT_SEND
    (∀ (s : State),
      s.corr.roster ≠ [] →
      s.corr.fedSent + 64 ≤ s.day →
      exec .fedHeartbeatSend s = .next (toChips s.fedBeat { s with corr := { s.corr with fedSent := s.day } })) ∧
    -- FED_HEARTBEAT
    (∀ (chip : Nat) (state : Nat) (rosterNo : Nat) (token : Bytes) (s : State),
      s.corr.chips.any (fun c => c.chip == chip) = true →
      state ≤ 4 →
      rosterNo ≤ s.corr.rosterNo →
      tokenFormOk token = false →
      Completes (.fedHeartbeat chip state rosterNo token) s { trust := true, diary := true, tally := true, ftl := true, bay := true, corr := true, out := true } fun t =>
        t.corr.chips = s.corr.chips.map (fun c => if c.chip == chip then { c with heard := s.tt.now, unreachable := false } else c)) ∧
    -- FED_UNREACHABLE
    (∀ (chip : Nat) (s : State),
      s.corr.chips.any (fun c => c.chip == chip && !c.unreachable && c.heard + 524288 ≤ s.tt.now) = true →
      exec (.fedUnreachable chip) s = .next (event 0xA005 25 (argOf [(0, chip)]) { s with
          corr := { s.corr with chips := s.corr.chips.map (fun c => if c.chip == chip then { c with unreachable := true } else c) } })) ∧
    -- FED_ROSTER_LOAD
    (∀ (b : Binding) (tag : Nat) (p : Packet) (s : State),
      s.cpi.packet b tag 0x0512 = some p →
      s.rosterRefusal p.payload = none →
      Completes (.fedRosterLoad b tag) s { sys := true, trust := true, cpi := true, diary := true, tally := true, ciph := true, corr := true, out := true } fun t =>
        Replied p .ok (leBytes 8 (fieldAt p.payload 32 8)) ([]) t) ∧
    -- FED_ROSTER_LOAD
    (∀ (b : Binding) (tag : Nat) (p : Packet) (s : State),
      s.cpi.packet b tag 0x0512 = some p →
      s.rosterRefusal p.payload = some 1 →
      Completes (.fedRosterLoad b tag) s { sys := true, trust := true, cpi := true, diary := true, tally := true, ciph := true, corr := true, out := true } fun t =>
        Replied p .rosterRefused [] [] t ∧
        (p.binding ≠ .peer → t.corr = s.corr)) ∧
    -- FED_TIME_TOKEN
    (∀ (b : Binding) (tag : Nat) (p : Packet) (s : State),
      s.cpi.packet b tag 0x0513 = some p →
      tokenFormOk p.payload = false →
      Completes (.fedTimeToken b tag) s { trust := true, cpi := true, diary := true, tally := true, ftl := true, bay := true, corr := true, out := true } fun t =>
        Replied p .tokenRefused [] [] t ∧
        t.tt = s.tt) ∧
    -- FED_TIME_TOKEN
    (∀ (b : Binding) (tag : Nat) (p : Packet) (s : State),
      s.cpi.packet b tag 0x0513 = some p →
      tokenFormOk p.payload = true →
      s.tokenRefusal p.payload = none →
      Completes (.fedTimeToken b tag) s { trust := true, cpi := true, diary := true, tally := true, ftl := true, bay := true, corr := true, out := true } fun t =>
        Replied p .ok (leBytes 8 (takeToken p.payload s).clockUs) ([]) t) ∧
    -- FED_QUERY
    (∀ (b : Binding) (tag : Nat) (p : Packet) (s : State),
      s.cpi.packet b tag 0x0514 = some p →
      Completes (.fedQuery b tag) s { trust := true, cpi := true, tally := true, corr := true, out := true } fun t =>
        Replied p .ok ([]) (s.corr.roster ++ fields [(8, s.corrRollcall), (8, s.corrArbRound), (8, s.corrArbResult), (8, s.corrFed)]) t ∧
        (p.binding ≠ .peer → t.corr = s.corr)) ∧
    -- CLOCK_RECORD_WRITE
    (∀ (s : State),
      s.trust.clockRecord + 3600000000 ≤ s.clockUs →
      2 ≤ s.trust.stage →
      Completes .clockRecordWrite s { trust := true } fun t =>
        t.trust.clockRecord = s.clockUs) ∧
    -- LOCKSTEP_MISMATCH
    (∀ (s : State),
      2 ≤ s.trust.stage →
      s.trust.bootable 1 s.trust.prefectSlot = none →
      exec .lockstepMismatch s = .next (event 0xB002 0 0 s))

/-- Key slots, quotes, measurement reads, escrow and the life cycle: what each command leaves, for every state and
operands that meet the premises written with it. KEY_ENROLL (R505), KEY_REVOKE (R506), QUOTE (R523), MR_READ (R523),
IDENTITY_GET (R530), ESCROW_EXPORT (R522, R518), ROOT_IMPORT (R522), DECOMMISSION (R530). The model's own choices that
bear on these commands are log entries 8, 38, 54, 91. -/
def Obligations.KeyAndTrustCommands : Prop :=
    -- KEY_ENROLL
    (∀ (b : Binding) (tag : Nat) (p : Packet) (s : State),
      s.cpi.packet b tag 0x0710 = some p →
      getKey (p.param 0 2) s.trust.fuses.digests = none →
      p.param 0 2 ≤ 19 →
      fieldAt (fitBytes 4096 p.payload) 0 2 = p.param 0 2 →
      fieldAt (fitBytes 4096 p.payload) 2 1 = slotKind (p.param 0 2) →
      Completes (.keyEnroll b tag) s { trust := true, cpi := true, diary := true, tally := true, ciph := true, corr := true, out := true } fun t =>
        Replied p .ok [] [] t ∧
        t.trust.fuses.digests = putKey (p.param 0 2) (keyRecordDigest (fitBytes 4096 p.payload)) s.trust.fuses.digests ∧
        t.trust.flash.records = putKey (p.param 0 2) (fitBytes 4096 p.payload) s.trust.flash.records ∧
        t.trust.fuses.lifecycle = max s.trust.fuses.lifecycle 2 ∧
        t.trust.matched = setBit (p.param 0 2) s.trust.matched) ∧
    -- KEY_ENROLL
    (∀ (b : Binding) (tag : Nat) (p : Packet) (s : State),
      s.cpi.packet b tag 0x0710 = some p →
      ((getKey (p.param 0 2) s.trust.fuses.digests).isSome = true ∨ 19 < p.param 0 2) →
      Completes (.keyEnroll b tag) s { trust := true, cpi := true, diary := true, tally := true, ciph := true, corr := true, out := true } fun t =>
        Replied p .keySlot [] [] t ∧
        t.trust = s.trust) ∧
    -- KEY_REVOKE
    (∀ (b : Binding) (tag : Nat) (p : Packet) (s : State),
      s.cpi.packet b tag 0x0711 = some p →
      s.trust.oemSlots.filter (· != p.param 0 2) ≠ [] →
      s.slotInUse (p.param 0 2) = none →
      Completes (.keyRevoke b tag) s { trust := true, cpi := true, diary := true, tally := true, corr := true, out := true } fun t =>
        Replied p .ok [] [] t ∧
        t.trust.fuses.revoked = setBit (p.param 0 2) s.trust.fuses.revoked) ∧
    -- KEY_REVOKE
    (∀ (b : Binding) (tag : Nat) (p : Packet) (s : State),
      s.cpi.packet b tag 0x0711 = some p →
      s.trust.oemSlots.filter (· != p.param 0 2) = [] →
      Completes (.keyRevoke b tag) s { trust := true, cpi := true, diary := true, tally := true, corr := true, out := true } fun t =>
        Replied p .keyLast [] [] t ∧
        t.trust = s.trust) ∧
    -- QUOTE
    (∀ (b : Binding) (tag : Nat) (p : Packet) (s : State),
      s.cpi.packet b tag 0x0712 = some p →
      s.trust.fuses.lifecycle < 3 →
      Completes (.quote b tag) s { trust := true, cpi := true, tally := true, corr := true, out := true } fun t =>
        Replied p .ok ([]) (s.quoteBody (p.param 0 4) (slice p.params 8 32) ++ identityBlock (s.quoteBody (p.param 0 4) (slice p.params 8 32)) "BIRCA-QUOTE") t) ∧
    -- MR_READ
    (∀ (b : Binding) (tag : Nat) (p : Packet) (s : State),
      s.cpi.packet b tag 0x0713 = some p →
      Completes (.mrRead b tag) s { trust := true, cpi := true, tally := true, corr := true, out := true } fun t =>
        Replied p .ok ([]) (s.registers (p.param 0 4)) t) ∧
    -- IDENTITY_GET
    (∀ (b : Binding) (tag : Nat) (p : Packet) (s : State),
      s.cpi.packet b tag 0x0714 = some p →
      Completes (.identityGet b tag) s { trust := true, cpi := true, tally := true, corr := true, out := true } fun t =>
        Replied p .ok ([]) (fitBytes 9152 s.trust.flash.identity) t) ∧
    -- ESCROW_EXPORT
    (∀ (b : Binding) (tag : Nat) (p : Packet) (root : Bytes) (slot at_ : Nat) (s : State),
      s.cpi.packet b tag 0x0715 = some p →
      16 ≤ p.param 0 2 →
      p.param 0 2 ≤ 19 →
      s.trust.slotUsable (p.param 0 2) = true →
      s.trust.rootKey = some root →
      getKey p.opcode s.cpi.firstSigned = some (p.params, (slot, at_)) →
      slot ≠ p.slot →
      s.clockSec ≤ at_ + 600 →
      Completes (.escrowExport b tag) s { trust := true, cpi := true, tally := true, ciph := true, corr := true, out := true, draws := true } fun t =>
        t.draws = s.draws + 88) ∧
    -- ROOT_IMPORT
    (∀ (b : Binding) (tag : Nat) (copy : Bytes) (media : Machine.PoolMedia) (p : Packet) (s : State),
      s.cpi.packet b tag 0x0716 = some p →
      s.pool.isSome = true →
      Completes (.rootImport b tag copy media) s { pwr := true, trust := true, cpi := true, diary := true, tally := true, tt := true, stg := true, ddp := true, ftl := true, ec := true, pool := true, saved := true, ciph := true, jobs := true, corr := true, out := true } fun t =>
        Replied p .importFail [] [] t ∧
        t.trust = s.trust) ∧
    -- ROOT_IMPORT
    (∀ (b : Binding) (tag : Nat) (copy : Bytes) (media : Machine.PoolMedia) (p : Packet) (x kem plain id : Bytes) (u w : State) (s : State),
      s.cpi.packet b tag 0x0716 = some p →
      s.pool = none →
      s.trust.rootKey = none →
      slice p.payload 0 8 = ascii "BRCESCRW" →
      fieldAt p.payload 8 1 = 1 →
      fieldAt p.payload 9 1 = 2 →
      slice p.payload 16 32 = s.identity →
      p.payload.length = 1704 + 65568 + 16 →
      x = Config.x448 identityX448 (slice p.payload 80 56) →
      kem = Config.mlkemDecaps identityKem (slice p.payload 136 1568) →
      gcmOpen (escrowKey x kem (p.payload.take 1704)) (zeros 12) (p.payload.take 1704) (slice p.payload 1704 65568) (slice p.payload 67272 16) = some plain →
      id = slice p.payload 48 16 →
      u = { s with trust := { s.trust with rootKey := some (plain.take 32), rootPool := id } } →
      superblockOk copy = true →
      slice copy 0x10 16 = id →
      superblockMacOk copy (u.systemKey 0x11 0) = true →
      w = adoptPool media (takeSuperblock copy (takeLockers (plain.drop 32) u)) →
      s.pwr.stage = .control →
      w.pwr.stage = .control →
      Completes (.rootImport b tag copy media) s { pwr := true, trust := true, cpi := true, diary := true, tally := true, tt := true, stg := true, ddp := true, ftl := true, ec := true, pool := true, saved := true, ciph := true, jobs := true, corr := true, out := true } fun t =>
        Replied p .ok (fitBytes 16 id) ([]) t ∧
        t.pwr.stage = .starting) ∧
    -- DECOMMISSION
    (∀ (b : Binding) (tag : Nat) (p : Packet) (slot at_ : Nat) (s : State),
      s.cpi.packet b tag 0x0717 = some p →
      s.pool = none →
      getKey p.opcode s.cpi.firstSigned = some (p.params, (slot, at_)) →
      slot ≠ p.slot →
      s.clockSec ≤ at_ + 600 →
      Completes (.decommission b tag) s { trust := true, cpi := true, diary := true, tally := true, corr := true, out := true } fun t =>
        Replied p .ok [] [] t ∧
        t.trust.fuses.lifecycle = max s.trust.fuses.lifecycle 3)

/-- Firmware images, their activation and their query: what each command leaves, for every state and operands that meet
the premises written with it. FACULTY_CHUNK_LOAD (R513, R511, R514), FW_DOWNLOAD (R511), FW_ACTIVATE (R525),
CLUSTER_REPORT (R525), CLUSTER_REPORT_TIMEOUT (R526), PFW_DOWNLOAD (R528, R511, R514), PFW_ACTIVATE (R528, R521,
R527), FW_QUERY (R530). The model's own choices that bear on these commands are log entries 8, 21, 76. -/
def Obligations.FirmwareCommands : Prop :=
    -- FACULTY_CHUNK_LOAD
    (∀ (chunk : Nat) (s : State),
      s.trust.stage = 3 →
      chunk < imageChunks s.trust.facultyImage →
      s.trust.chunks.contains chunk = false →
      chunkOk s.trust.facultyImage chunk = true →
      (s.trust.chunks ++ [chunk]).length ≠ imageChunks s.trust.facultyImage →
      Completes (.facultyChunkLoad chunk) s { pwr := true, trust := true, tally := true, ciph := true } fun t =>
        t.trust.chunks = s.trust.chunks ++ [chunk] ∧
        t.trust.stage = 3) ∧
    -- FACULTY_CHUNK_LOAD
    (∀ (chunk : Nat) (s : State),
      s.trust.stage = 3 →
      chunk < imageChunks s.trust.facultyImage →
      s.trust.chunks.contains chunk = false →
      chunkOk s.trust.facultyImage chunk = false →
      exec (.facultyChunkLoad chunk) s = .next (runFaculty [2 + s.trust.facultySlot] s)) ∧
    -- FW_DOWNLOAD
    (∀ (b : Binding) (tag : Nat) (p : Packet) (u : State) (data : Bytes) (s : State),
      s.cpi.packet b tag 0x0901 = some p →
      takePiece p (p.param 0 8) (p.param 8 8) s = (u, .whole data) →
      checkImage (setFwSlot (s.trust.otherSlot 2) { u.trust.fwSlot (s.trust.otherSlot 2) with image := some data } u).trust 2 data = none →
      Completes (.fwDownload b tag) s { trust := true, cpi := true, diary := true, tally := true, corr := true, out := true } fun t =>
        Replied p .ok [] [] t ∧
        t.trust.downloaded = true) ∧
    -- FW_DOWNLOAD
    (∀ (b : Binding) (tag : Nat) (p : Packet) (u : State) (s : State),
      s.cpi.packet b tag 0x0901 = some p →
      takePiece p (p.param 0 8) (p.param 8 8) s = (u, .broken) →
      Completes (.fwDownload b tag) s { trust := true, cpi := true, diary := true, tally := true, corr := true, out := true } fun t =>
        Replied p .pktPiece [] [] t ∧
        t.trust = u.trust) ∧
    -- FW_ACTIVATE
    (∀ (b : Binding) (tag : Nat) (p : Packet) (u : State) (s : State),
      s.cpi.packet b tag 0x0902 = some p →
      startActivation (.packet b tag) s = .inl u →
      exec (.fwActivate b tag) s = .next (u)) ∧
    -- FW_ACTIVATE
    (∀ (b : Binding) (tag : Nat) (p : Packet) (s : State),
      s.cpi.packet b tag 0x0902 = some p →
      s.trust.activation.isSome = true →
      Completes (.fwActivate b tag) s { trust := true, cpi := true, tally := true, ciph := true, hq := true, corr := true, out := true } fun t =>
        Replied p .fwBusy [] [] t ∧
        t.trust = s.trust) ∧
    -- CLUSTER_REPORT
    (∀ (island : Nat) (a : Activation) (s : State),
      s.trust.activation = some a →
      a.step = .emptying island →
      exec (.clusterReport island false) s = .next (setActivation (some { a with step := .starting island, since := s.tt.now }) (clusterReset island s))) ∧
    -- CLUSTER_REPORT
    (∀ (island : Nat) (a : Activation) (s : State),
      s.trust.activation = some a →
      a.step = .starting island →
      exec (.clusterReport island true) s = .next (clusterHealthy a island s)) ∧
    -- CLUSTER_REPORT_TIMEOUT
    (∀ (island : Nat) (a : Activation) (s : State),
      s.trust.activation = some a →
      a.step = .starting island →
      a.since + msBells 100 ≤ s.tt.now →
      exec (.clusterReportTimeout island) s = .next (endActivation a .fwActivateFail (detailOf [(1, island), (1, 2)]) (extendMr 2 (imageDigest s.trust.facultyImage)
          ((island :: a.moved.reverse).foldl (fun t i => clusterReset i t) s)))) ∧
    -- PFW_DOWNLOAD
    (∀ (b : Binding) (tag : Nat) (p : Packet) (u : State) (data : Bytes) (s : State),
      s.cpi.packet b tag 0x0903 = some p →
      s.pwr.stage = .recovery →
      takePiece p (p.param 0 8) (p.param 8 8) s = (u, .whole data) →
      checkWhole u.trust 1 data = none →
      exec (.pfwDownload b tag) s = .next (answered p [] [] (startRecovered data u))) ∧
    -- PFW_DOWNLOAD
    (∀ (b : Binding) (tag : Nat) (p : Packet) (u : State) (s : State),
      s.cpi.packet b tag 0x0903 = some p →
      s.pwr.stage ≠ .recovery →
      takePiece p (p.param 0 8) (p.param 8 8) s = (u, .broken) →
      Completes (.pfwDownload b tag) s { pwr := true, dram := true, trust := true, cpi := true, diary := true, tally := true, ciph := true, corr := true, out := true } fun t =>
        Replied p .pktPiece [] [] t) ∧
    -- PFW_ACTIVATE
    (∀ (b : Binding) (tag : Nat) (p : Packet) (image : Bytes) (u : State) (s : State),
      s.cpi.packet b tag 0x0904 = some p →
      s.trust.activation = none →
      (s.trust.fwSlot (s.trust.otherSlot 1)).image = some image →
      s.paired = false →
      checkWhole s.trust 1 image = none →
      u = programGuard (countActivation (s.trust.otherSlot 1) (runPrefect (some (s.trust.otherSlot 1)) image (sendPeer (.prefectRecord .pause) s))) →
      Completes (.pfwActivate b tag) s { dram := true, trust := true, cpi := true, diary := true, tally := true, ciph := true, corr := true, out := true } fun t =>
        Replied p .ok [] [] t ∧
        t.draws = u.draws) ∧
    -- FW_QUERY
    (∀ (b : Binding) (tag : Nat) (p : Packet) (s : State),
      s.cpi.packet b tag 0x0905 = some p →
      Completes (.fwQuery b tag) s { trust := true, cpi := true, tally := true, corr := true, out := true } fun t =>
        Replied p .ok ([]) ((List.range 4).flatMap (fun n => fitBytes 64 (((s.trust.fwSlot n).image).getD [])) ++ (List.range 4).flatMap (fun n => leBytes 8 (s.trust.fwSlot n).activation) ++ leBytes 8 s.pfmSvn) t ∧
        t.trust = s.trust)

/-- Mailboxes, MCTP and the retention of packets: what each command leaves, for every state and operands that meet the
premises written with it. CPI_SUBMIT (R541), CPI_ACK (R534), PFM_SUBMIT (R541), PFM_ACK (R534), MCTP_MESSAGE (R535),
PIECE_TIMEOUT (R537), REPLY_RETENTION_EXPIRY (R534), CLAIM_BINDING_TIMEOUT (R548, R545), CP_PAYLOAD_FETCH (R549,
R534). The model's own choices that bear on these commands are log entries 55, 70, 91, 93. -/
def Obligations.PacketBindingCommands : Prop :=
    -- CPI_SUBMIT
    (∀ (packet : Bytes) (payload : Bytes) (peerInflight : Nat) (s : State),
      exec (.cpiSubmit packet payload peerInflight) s = .next (submitPacket .cpi packet payload peerInflight (bindMailbox .cpi packet s))) ∧
    -- CPI_ACK
    (∀ (n : Nat) (s : State),
      s.cpi.cpiArea = some n →
      Completes .cpiAck s { cpi := true, tally := true } fun t =>
        t.cpi = Cpi.showReplies { ackMailbox .cpi n s.cpi with cpiArea := none }) ∧
    -- PFM_SUBMIT
    (∀ (packet : Bytes) (payload : Bytes) (peerInflight : Nat) (s : State),
      exec (.pfmSubmit packet payload peerInflight) s = .next (submitPacket .pfm packet payload peerInflight (bindMailbox .pfm packet s))) ∧
    -- PFM_ACK
    (∀ (n : Nat) (s : State),
      s.cpi.pfmArea = some n →
      Completes .pfmAck s { cpi := true, tally := true } fun t =>
        t.cpi = Cpi.showReplies { ackMailbox .pfm n s.cpi with pfmArea := none }) ∧
    -- MCTP_MESSAGE
    (∀ (endpoint : Nat) (length : Nat) (body : Bytes) (peerInflight : Nat) (s : State),
      65536 < length →
      exec (.mctpMessage endpoint length body peerInflight) s = .next (event 0xD003 9 (argOf [(0, endpoint % 256), (4, length % 2 ^ 32)]) s)) ∧
    -- MCTP_MESSAGE
    (∀ (endpoint : Nat) (length : Nat) (body : Bytes) (peerInflight : Nat) (s : State),
      length ≤ 65536 →
      s.cpi.bindings.any (fun r => r.id == .mctp endpoint) = true →
      exec (.mctpMessage endpoint length body peerInflight) s = .next (submitPacket (.mctp endpoint) body (body.drop (packetParts body).base) peerInflight s)) ∧
    -- PIECE_TIMEOUT
    (∀ (b : Binding) (s : State),
      Completes (.pieceTimeout b) s { cpi := true } fun t =>
        t.cpi.pieces = s.cpi.pieces.filter (fun o => !(o.binding == b && o.lastAt + secBells 60 ≤ s.tt.now))) ∧
    -- REPLY_RETENTION_EXPIRY
    (∀ (b : Binding) (tag : Nat) (r : Reply) (s : State),
      s.cpi.replyOf b tag = some r →
      r.held = false →
      r.readyAt + secBells 60 ≤ s.tt.now →
      Completes (.replyRetentionExpiry b tag) s { cpi := true } fun t =>
        t.cpi = Cpi.showReplies { dropReply b tag s.cpi with
      cpiArea := if b = .cpi ∧ s.cpi.cpiArea = some tag then none else s.cpi.cpiArea
      pfmArea := if b = .pfm ∧ s.cpi.pfmArea = some tag then none else s.cpi.pfmArea }) ∧
    -- CLAIM_BINDING_TIMEOUT
    (∀ (b : Binding) (r : BindingRec) (lost : Nat) (s : State),
      s.cpi.bindings.find? (fun r => r.id == b) = some r →
      r.lostAt = some lost →
      lost + secBells 60 ≤ s.tt.now →
      Completes (.claimBindingTimeout b) s { cpi := true } fun t =>
        t.cpi.claims = s.cpi.claims.filter (fun k => k.binding != some b) ∧
        t.cpi.bindings = s.cpi.bindings.filter (fun x => !(x.id == b) ||
      s.cpi.accepted.any (fun p => p.binding == b) || s.cpi.replies.any (fun y => y.binding == b))) ∧
    -- CP_PAYLOAD_FETCH
    (∀ (b : Binding) (tag : Nat) (p : Packet) (r : Reply) (s : State),
      s.cpi.packet b tag 0x010A = some p →
      s.cpi.replyOf (s.cpi.keeperOf b (p.param 0 4)) (p.param 0 4) = some r →
      min r.size (p.param 8 8 + p.param 16 4) ≤ (s.replyText r).length →
      Completes (.cpPayloadFetch b tag) s { trust := true, cpi := true, tally := true, corr := true, out := true } fun t =>
        Replied p .ok ([]) (slice (s.replyText r) (p.param 8 8) (p.param 16 4)) t) ∧
    -- CP_PAYLOAD_FETCH
    (∀ (b : Binding) (tag : Nat) (p : Packet) (r : Reply) (s : State),
      s.cpi.packet b tag 0x010A = some p →
      s.cpi.replyOf (s.cpi.keeperOf b (p.param 0 4)) (p.param 0 4) = some r →
      (s.replyText r).length < min r.size (p.param 8 8 + p.param 16 4) →
      Completes (.cpPayloadFetch b tag) s { trust := true, cpi := true, tally := true, corr := true, out := true } fun t =>
        Replied p .tagFail [] [] t) ∧
    -- CP_PAYLOAD_FETCH
    (∀ (b : Binding) (tag : Nat) (p : Packet) (s : State),
      s.cpi.packet b tag 0x010A = some p →
      s.cpi.replyOf (s.cpi.keeperOf b (p.param 0 4)) (p.param 0 4) = none →
      Completes (.cpPayloadFetch b tag) s { trust := true, cpi := true, tally := true, corr := true, out := true } fun t =>
        Replied p .pktParam [] [] t)

/-- System packets: what each command leaves, for every state and operands that meet the premises written with it.
SYS_INFO (R549), SYS_PORT_MODE (R87), SYS_BINDING (R96, R88, R100), SYS_SUBSYSTEM (R89), SYS_DATA_TIMEOUT (R102),
SYS_HOLDUP_CFG (R146), SYS_HOLDUP_MEASURE (R148), HOLDUP_MEASURE_SCHEDULED (R148), HOLDUP_MEASURE_COMPLETE (R147,
R149, R150, R151, R152, R153, R154), HOLDUP_RETRY_TIMER (R149, R150), SYS_CLAIMS (R548), SYS_ISLAND_RESET (R610,
R467). The model's own choices that bear on these commands are log entries 52, 56, 77, 91. -/
def Obligations.SystemPacketCommands : Prop :=
    -- SYS_INFO
    (∀ (b : Binding) (tag : Nat) (p : Packet) (s : State),
      s.cpi.packet b tag 0x0101 = some p →
      Completes (.sysInfo b tag) s { trust := true, cpi := true, tally := true, corr := true, out := true } fun t =>
        Replied p .ok (fitBytes 16 (ascii "BRC-DM2") ++ fields [(1, 0), (1, s.sys.slot), (2, s.sys.chip), (1, rollCode s.corr.roll), (1, s.trust.fuses.lifecycle), (1, sumNat ((List.range 4).map (fun i => s.hq.modes.getD i 0 % 4 * 4 ^ i))), (1, 0)] ++ fitBytes 16 (slice s.trust.flash.identity 0x10 16) ++ fitBytes 16 ((s.pool.map (·.id)).getD []) ++ fields [(4, (s.tt.active.map (·.term)).getD 0), (4, Config.enterpriseNumber)]) ([]) t) ∧
    -- SYS_PORT_MODE
    (∀ (b : Binding) (tag : Nat) (p : Packet) (s : State),
      s.cpi.packet b tag 0x0102 = some p →
      s.otherReset (5 + p.param 0 1) = false →
      Completes (.sysPortMode b tag) s { pwr := true, trust := true, cpi := true, diary := true, tally := true, stg := true, ftl := true, bay := true, jobs := true, hq := true, repl := true, corr := true, out := true, draws := true } fun t =>
        Replied p .ok [] [] t ∧
        t.hq = (resetPorts (p.param 0 1) { s with hq := { s.hq with modes := setAt (p.param 0 1) (p.param 1 1) s.hq.modes } }).hq) ∧
    -- SYS_PORT_MODE
    (∀ (b : Binding) (tag : Nat) (p : Packet) (s : State),
      s.cpi.packet b tag 0x0102 = some p →
      s.otherReset (5 + p.param 0 1) = true →
      Completes (.sysPortMode b tag) s { pwr := true, trust := true, cpi := true, diary := true, tally := true, stg := true, ftl := true, bay := true, jobs := true, hq := true, repl := true, corr := true, out := true, draws := true } fun t =>
        Replied p .objectBusy [] [] t ∧
        t.hq = s.hq) ∧
    -- SYS_BINDING
    (∀ (b : Binding) (tag : Nat) (peer : PeerAnswer) (p : Packet) (s : State),
      s.cpi.packet b tag 0x0103 = some p →
      p.param 0 1 = 1 →
      p.param 1 1 = 1 →
      (s.paired = true → peer.status = .ok) →
      s.awaitsAlone = false →
      Completes (.sysBinding b tag peer) s { trust := true, cpi := true, diary := true, tally := true, hq := true, corr := true, out := true, draws := true } fun t =>
        Replied p .ok [] [] t ∧
        t.hq.hosts = s.hq.hosts.filter (fun h => !(h.nqn == nqnOf (slice p.params 8 256) && h.subsystem == p.param 4 2)) ++
      [⟨nqnOf (slice p.params 8 256), p.param 4 2, p.param 2 1, p.param 3 1⟩]) ∧
    -- SYS_SUBSYSTEM
    (∀ (b : Binding) (tag : Nat) (peer : PeerAnswer) (p : Packet) (s : State),
      s.cpi.packet b tag 0x0104 = some p →
      p.param 2 1 = 1 →
      s.hq.subsystems.any (fun x => x.number == p.param 0 2) = false →
      s.hq.subsystems.length < 1024 →
      (s.paired = true → peer.status = .ok) →
      s.awaitsAlone = false →
      Completes (.sysSubsystem b tag peer) s { trust := true, cpi := true, diary := true, tally := true, stg := true, ftl := true, bay := true, jobs := true, hq := true, repl := true, corr := true, out := true, draws := true } fun t =>
        Replied p .ok [] [] t ∧
        t.hq.subsystems = s.hq.subsystems ++ [⟨p.param 0 2, nqnOf (slice p.params 8 256)⟩]) ∧
    -- SYS_DATA_TIMEOUT
    (∀ (b : Binding) (tag : Nat) (peer : PeerAnswer) (p : Packet) (s : State),
      s.cpi.packet b tag 0x0105 = some p →
      (s.paired = true → peer.status = .ok) →
      s.awaitsAlone = false →
      Completes (.sysDataTimeout b tag peer) s { trust := true, cpi := true, diary := true, tally := true, hq := true, corr := true, out := true } fun t =>
        Replied p .ok [] [] t ∧
        t.hq.timeout = p.param 0 2) ∧
    -- SYS_HOLDUP_CFG
    (∀ (b : Binding) (tag : Nat) (p : Packet) (s : State),
      s.cpi.packet b tag 0x0106 = some p →
      Completes (.sysHoldupCfg b tag) s { trust := true, cpi := true, diary := true, tally := true, stg := true, corr := true, out := true } fun t =>
        Replied p .ok [] [] t ∧
        t.stg.v0 = p.param 0 2 ∧
        t.stg.vmin = p.param 2 2 ∧
        t.stg.eff = p.param 4 1 ∧
        t.stg.itest = p.param 6 2 % 4096 ∧
        t.stg.pdimm = p.param 8 2 % 4096 ∧
        t.stg.floor = p.param 10 2 ∧
        t.stg.measureDue = some s.tt.now) ∧
    -- SYS_HOLDUP_MEASURE
    (∀ (b : Binding) (tag : Nat) (sense : Int) (p : Packet) (s : State),
      s.cpi.packet b tag 0x0107 = some p →
      s.cpi.holder holdupLoad = none →
      s.stg.lastAsk.any (fun t => s.tt.now < t + secBells 60) = false →
      s.pins.faulty 259 = false →
      s.pins.faulty 260 = false →
      -500 ≤ sense →
      exec (.sysHoldupMeasure b tag sense) s = .next (beginMeasure (.operator b tag) 0x0107 p.cls p.tag (some b) s)) ∧
    -- SYS_HOLDUP_MEASURE
    (∀ (b : Binding) (tag : Nat) (sense : Int) (p : Packet) (s : State),
      s.cpi.packet b tag 0x0107 = some p →
      s.cpi.holder holdupLoad = none →
      s.stg.lastAsk.any (fun t => s.tt.now < t + secBells 60) = true →
      Completes (.sysHoldupMeasure b tag sense) s { pins := true, trust := true, cpi := true, diary := true, tally := true, stg := true, corr := true, out := true } fun t =>
        Replied p .rateLimited [] [] t ∧
        t.stg = s.stg) ∧
    -- HOLDUP_MEASURE_SCHEDULED
    (∀ (sense : Int) (s : State),
      s.mayMeasure = true →
      s.stg.vmin ≠ 0 →
      s.period = 0 →
      s.stg.lastRun + 21600 ≤ s.clockSec →
      exec (.holdupMeasureScheduled sense) s = .next (ownMeasure .schedule sense s)) ∧
    -- HOLDUP_MEASURE_COMPLETE
    (∀ (va : List Int) (v10 : Int) (v5 : List Int) (v20 : List Int) (s : State),
      s.stg.measuring.isSome = true →
      s.stg.testLoad = true →
      s.stg.stepAt + msBells 20 ≤ s.tt.now →
      exec (.holdupMeasureComplete va v10 v5 v20 true) s = .next (answerMeasure s.stg.measuring (invalidMeasure 3 (endMeasure s)))) ∧
    -- HOLDUP_RETRY_TIMER
    (∀ (sense : Int) (t : Nat) (s : State),
      s.mayMeasure = true →
      s.stg.vmin ≠ 0 →
      s.stg.retryAt = some t →
      t ≤ s.tt.now →
      exec (.holdupRetryTimer sense) s = .next (ownMeasure .retry sense s)) ∧
    -- SYS_CLAIMS
    (∀ (b : Binding) (tag : Nat) (p : Packet) (s : State),
      s.cpi.packet b tag 0x0108 = some p →
      Completes (.sysClaims b tag) s { trust := true, cpi := true, tally := true, corr := true, out := true } fun t =>
        Replied p .ok (fields [(4, s.cpi.claims.length), (4, 0)] ++ ((s.cpi.claims.drop (p.param 0 4)).take 127).flatMap Claim.record) ([]) t ∧
        t.hq = s.hq) ∧
    -- SYS_ISLAND_RESET
    (∀ (b : Binding) (tag : Nat) (p : Packet) (s : State),
      s.cpi.packet b tag 0x0109 = some p →
      p.param 0 1 = 25 →
      Completes (.sysIslandReset b tag) s { pwr := true, trust := true, cpi := true, diary := true, tally := true, stg := true, ftl := true, bay := true, jobs := true, hq := true, repl := true, corr := true, out := true, draws := true } fun t =>
        Replied p .ok [] [] t ∧
        t.corr.link = 1 ∧
        t.corr.lanes = 0 ∧
        t.corr.retrains = min (s.corr.retrains + 1) 65535) ∧
    -- SYS_ISLAND_RESET
    (∀ (b : Binding) (tag : Nat) (p : Packet) (s : State),
      s.cpi.packet b tag 0x0109 = some p →
      p.param 0 1 ≠ 25 →
      s.otherReset (p.param 0 1) = false →
      Completes (.sysIslandReset b tag) s { pwr := true, trust := true, cpi := true, diary := true, tally := true, stg := true, ftl := true, bay := true, jobs := true, hq := true, repl := true, corr := true, out := true, draws := true } fun t =>
        Replied p .ok [] [] t ∧
        t.hq = (resetPorts (p.param 0 1 - 5) s).hq)

/-- Pool packets: what each command leaves, for every state and operands that meet the premises written with it. POOL_FORM
(R549, R294, R520, R577), POOL_EXTEND (R417), MEMBER_FAIL (R357, R438), BAY_WIDTH_SET (R391, R547), BAY_POWER (R421),
POOL_GROW_FILTER (R183), POOL_GROW_INDEX (R190), POOL_QUERY (R549), POOL_ERASE (R549, R438, R522), MODULE_UNFORM
(R418). The model's own choices that bear on these commands are log entries 57, 88. -/
def Obligations.PoolPacketCommands : Prop :=
    -- POOL_FORM
    (∀ (b : Binding) (tag : Nat) (peer : PeerAnswer) (p : Packet) (s : State),
      s.cpi.packet b tag 0x0201 = some p →
      s.pool = none →
      4 * p.param 1 1 ≤ s.dram.dimmGib →
      s.dram.gib ≤ 8 * p.param 10 2 →
      newMembers p 16 ≠ [] →
      (newMembers p 16).any (fun x => 63 < x.2.1) = false →
      s.notUnformed (newMembers p 16) = none →
      s.corr.up = false →
      Completes (.poolForm b tag peer) s { trust := true, cpi := true, diary := true, tally := true, ddp := true, ftl := true, ec := true, bay := true, pool := true, saved := true, ciph := true, corr := true, out := true, draws := true } fun t =>
        Replied p .ok (slice (s.randomBytes 48) 0 16) ([]) t) ∧
    -- POOL_FORM
    (∀ (b : Binding) (tag : Nat) (peer : PeerAnswer) (p : Packet) (s : State),
      s.cpi.packet b tag 0x0201 = some p →
      s.pool.isSome = true →
      Completes (.poolForm b tag peer) s { trust := true, cpi := true, diary := true, tally := true, ddp := true, ftl := true, ec := true, bay := true, pool := true, saved := true, ciph := true, corr := true, out := true, draws := true } fun t =>
        Replied p .poolState [] [] t ∧
        t.pool = s.pool) ∧
    -- POOL_EXTEND
    (∀ (b : Binding) (tag : Nat) (peer : PeerAnswer) (p : Packet) (s : State),
      s.cpi.packet b tag 0x0202 = some p →
      s.pool.isSome = true →
      (newMembers p 0).find? (fun x => 63 < x.2.1) = none →
      s.notUnformed (newMembers p 0) = none →
      (s.paired = true → peer.status = .ok) →
      s.awaitsAlone = false →
      exec (.poolExtend b tag peer) s = .next (changed p [] (configWrite (addMembers (newMembers p 0) (pairBase p s))))) ∧
    -- MEMBER_FAIL
    (∀ (b : Binding) (tag : Nat) (peer : PeerAnswer) (p : Packet) (m : Member) (s : State),
      s.cpi.packet b tag 0x0203 = some p →
      s.ec.member (p.param 0 1) = some m →
      m.state ≠ .failed →
      m.state ≠ .none →
      s.ec.mayFail (p.param 0 1) = true →
      (s.paired = true → peer.status = .ok) →
      s.awaitsAlone = false →
      exec (.memberFail b tag peer) s = .next (changed p [] (memberTo (p.param 0 1) .failed (pairBase p s)))) ∧
    -- MEMBER_FAIL
    (∀ (b : Binding) (tag : Nat) (peer : PeerAnswer) (p : Packet) (m : Member) (until_ : Nat) (s : State),
      s.cpi.packet b tag 0x0203 = some p →
      s.ec.member (p.param 0 1) = some m →
      m.state ≠ .failed →
      m.state ≠ .none →
      s.ec.mayFail (p.param 0 1) = false →
      s.sealedUntil = some until_ →
      Completes (.memberFail b tag peer) s { trust := true, cpi := true, diary := true, tally := true, ftl := true, ec := true, bay := true, pool := true, jobs := true, corr := true, out := true } fun t =>
        Replied p .snapshotSealed [] [] t ∧
        t.ec = s.ec) ∧
    -- BAY_WIDTH_SET
    (∀ (b : Binding) (tag : Nat) (p : Packet) (s : State),
      s.cpi.packet b tag 0x0204 = some p →
      ((List.range 4).map (· + 4 * p.param 0 1)).find? s.present = none →
      Completes (.bayWidthSet b tag) s { trust := true, cpi := true, diary := true, tally := true, bay := true, corr := true, out := true } fun t =>
        Replied p .ok [] [] t) ∧
    -- BAY_POWER
    (∀ (b : Binding) (tag : Nat) (p : Packet) (s : State),
      s.cpi.packet b tag 0x0205 = some p →
      (s.ec.member (p.param 0 1)).filter (fun m => m.state == .inService || m.state == .detention) = none →
      p.param 1 1 = 1 →
      exec (.bayPower b tag) s = .next (changed p [] (powerDown (p.param 0 1) s))) ∧
    -- BAY_POWER
    (∀ (b : Binding) (tag : Nat) (p : Packet) (m : Member) (s : State),
      s.cpi.packet b tag 0x0205 = some p →
      (s.ec.member (p.param 0 1)).filter (fun m => m.state == .inService || m.state == .detention) = some m →
      Completes (.bayPower b tag) s { pins := true, trust := true, cpi := true, diary := true, tally := true, stg := true, ddp := true, ftl := true, ec := true, bay := true, ciph := true, jobs := true, hq := true, corr := true, out := true } fun t =>
        Replied p .memberState [] [] t ∧
        t.bay = s.bay) ∧
    -- POOL_GROW_FILTER
    (∀ (b : Binding) (tag : Nat) (peer : PeerAnswer) (p : Packet) (s : State),
      s.cpi.packet b tag 0x0206 = some p →
      s.pool.isSome = true →
      s.ddp.grownQ = none →
      s.ddp.q < 41 →
      (s.paired = true → peer.status = .ok) →
      s.awaitsAlone = false →
      Completes (.poolGrowFilter b tag peer) s { trust := true, cpi := true, diary := true, tally := true, ddp := true, pool := true, corr := true, out := true } fun t =>
        Replied p .ok [] [] t ∧
        t.ddp.grownQ = some (s.ddp.q + 1) ∧
        t.ddp.q = s.ddp.q) ∧
    -- POOL_GROW_INDEX
    (∀ (b : Binding) (tag : Nat) (peer : PeerAnswer) (p : Packet) (s : State),
      s.cpi.packet b tag 0x0207 = some p →
      s.pool.isSome = true →
      s.ddp.split = none →
      s.ddp.n < 36 →
      (s.paired = true → peer.status = .ok) →
      s.awaitsAlone = false →
      Completes (.poolGrowIndex b tag peer) s { trust := true, cpi := true, diary := true, tally := true, ddp := true, pool := true, corr := true, out := true } fun t =>
        Replied p .ok [] [] t ∧
        t.ddp.split = some (pairBase p s).firstSplit ∧
        t.ddp.n = s.ddp.n) ∧
    -- POOL_QUERY
    (∀ (b : Binding) (tag : Nat) (p : Packet) (q : Pool) (s : State),
      s.cpi.packet b tag 0x0208 = some p →
      s.pool = some q →
      Completes (.poolQuery b tag) s { trust := true, cpi := true, tally := true, corr := true, out := true } fun t =>
        Replied p .ok ([]) (superblockBytes q s.ec.members s.sys.slot 1 (s.systemKey 0x11 0) ++ (List.range 64).flatMap (fun i => leBytes 8 (s.ecMember i))) t) ∧
    -- POOL_ERASE
    (∀ (b : Binding) (tag : Nat) (peer : PeerAnswer) (p : Packet) (q : Pool) (slot at_ : Nat) (s : State),
      s.cpi.packet b tag 0x0209 = some p →
      s.pool = some q →
      q.id = slice p.params 0 16 →
      s.sealedUntil = none →
      getKey p.opcode s.cpi.firstSigned = some (p.params, (slot, at_)) →
      slot ≠ p.slot →
      s.clockSec ≤ at_ + 600 →
      s.paired = false →
      s.awaitsAlone = false →
      Completes (.poolErase b tag peer) s { pwr := true, trust := true, cpi := true, diary := true, tally := true, tt := true, stg := true, ddp := true, ftl := true, ec := true, bay := true, pool := true, saved := true, ciph := true, jobs := true, hq := true, corr := true, out := true } fun t =>
        Replied p .ok [] [] t) ∧
    -- MODULE_UNFORM
    (∀ (b : Binding) (tag : Nat) (p : Packet) (s : State),
      s.cpi.packet b tag 0x020A = some p →
      (s.bay.bayOf (p.param 0 1)).poolId ≠ [] →
      (s.bay.bayOf (p.param 0 1)).poolId = slice p.params 8 16 →
      s.ec.member (p.param 0 1) = none →
      exec (.moduleUnform b tag) s = .next (changed p [] (event 0x9001 (bayIsland (p.param 0 1)) (argOf [(0, p.param 0 1), (1, 2)])
          ((List.range 4).foldl (fun u n => queueOp (blkOp 3 (blkKey (p.param 0 1) 0 n) 0 0 0 .ring []) u)
            (setBay (p.param 0 1) { s.bay.bayOf (p.param 0 1) with class_ := .unformed, poolId := [], ring := 0 } s)))))

/-- Volumes, namespaces, groups and domains: what each command leaves, for every state and operands that meet the premises
written with it. VOL_CREATE (R549), VOL_DELETE (R434), VOL_RESIZE (R549), VOL_SET (R549), ANA_MOVE_GROUP (R119),
DOMAIN_CREATE (R549, R456), DOMAIN_DELETE (R166, R246), DOMAIN_VERIFY (R194), VOL_QUERY (R549). The model's own
choices that bear on these commands are log entries 58. -/
def Obligations.VolumeAndDomainCommands : Prop :=
    -- VOL_CREATE
    (∀ (b : Binding) (tag : Nat) (peer : PeerAnswer) (p : Packet) (l : Nat) (r : Root) (u : State) (s : State),
      s.cpi.packet b tag 0x0301 = some p →
      s.pool.isSome = true →
      s.ftl.nsidUsed (p.param 0 4) = false →
      s.badNamespace (p.param 0 4) (p.param 4 2) (p.param 6 2) 0 4 6 = none →
      (s.ftl.domainRec (p.param 8 2)).isSome = true →
      s.layoutFor (p.param 0x0A 1) = some l →
      s.tt.active.any (fun i => i.serviceCount ≤ p.param 0x0B 1) = false →
      1 ≤ p.param 0x10 8 →
      p.param 0x10 8 ≤ 2 ^ 40 →
      s.ftl.volumes < 65536 →
      (s.paired = true → peer.status = .ok) →
      u = pairBase p s →
      r = { Root.blank u.ftl.nextRoot .volume with
      nsid := p.param 0 4, subsystem := p.param 4 2, ana := p.param 6 2, domain := p.param 8 2, layout := l
      service := p.param 0x0B 1, format := flagBit (p.param 0x0C 1 != 0), piType := p.param 0x0C 1, size := p.param 0x10 8
      quota := p.param 0x18 8, created := u.clockUs } →
      s.awaitsAlone = false →
      exec (.volCreate b tag peer) s = .next (changed p (fields [(4, r.id), (4, 0)]) (namespaceChanged (p.param 0 4) r.subsystem (volumeRecord r 1 u.epoch (addRoot r u))))) ∧
    -- VOL_CREATE
    (∀ (b : Binding) (tag : Nat) (peer : PeerAnswer) (p : Packet) (s : State),
      s.cpi.packet b tag 0x0301 = some p →
      s.pool.isSome = true →
      p.param 0 4 ≠ 0 →
      s.ftl.nsidUsed (p.param 0 4) = true →
      Completes (.volCreate b tag peer) s { trust := true, cpi := true, diary := true, tally := true, ftl := true, hq := true, corr := true, out := true } fun t =>
        Replied p .nsidInUse [] [] t ∧
        t.ftl = s.ftl) ∧
    -- VOL_DELETE
    (∀ (b : Binding) (tag : Nat) (peer : PeerAnswer) (p : Packet) (r : Root) (s : State),
      s.cpi.packet b tag 0x0302 = some p →
      s.ftl.rootOf (p.param 0 4) = some r →
      r.isVolume = true →
      (s.paired = true → peer.status = .ok) →
      r.nsid = 0 →
      s.awaitsAlone = false →
      exec (.volDelete b tag peer) s = .next (changed p [] (deleteRoot r (dropVolume r (pairBase p s))))) ∧
    -- VOL_RESIZE
    (∀ (b : Binding) (tag : Nat) (peer : PeerAnswer) (p : Packet) (r : Root) (s : State),
      s.cpi.packet b tag 0x0303 = some p →
      s.ftl.rootOf (p.param 0 4) = some r →
      r.kind ≠ .volume →
      r.kind ≠ .clone →
      Completes (.volResize b tag peer) s { trust := true, cpi := true, diary := true, tally := true, stg := true, ddp := true, ftl := true, hq := true, corr := true, out := true } fun t =>
        Replied p .rootKind [] [] t ∧
        t.ftl = s.ftl) ∧
    -- VOL_RESIZE
    (∀ (b : Binding) (tag : Nat) (peer : PeerAnswer) (p : Packet) (r q : Root) (u w : State) (s : State),
      s.cpi.packet b tag 0x0303 = some p →
      s.ftl.rootOf (p.param 0 4) = some r →
      r.kind = .volume →
      1 ≤ p.param 8 8 →
      p.param 8 8 ≤ 2 ^ 40 →
      (s.paired = true → peer.status = .ok) →
      u = (r.leaves.flatMap (fun l => (l.2.entries.map (fun e => 504 * l.1 + e.1)).filter (p.param 8 8 ≤ ·))).foldl
      (fun t g => setMap r.id g none 0 t) (pairBase p s) →
      w = { u with stg := { u.stg with
      versions := u.stg.versions.filter (fun v => !(v.vol == r.key && p.param 8 8 ≤ v.grain))
      entries := u.stg.entries.filter (fun e => !(e.vol == r.key && p.param 8 8 ≤ e.grain)) } } →
      w.ftl.root r.id = some q →
      s.awaitsAlone = false →
      exec (.volResize b tag peer) s = .next (changed p [] (namespaceChanged r.nsid r.subsystem
          (volumeRecord { q with size := p.param 8 8 } 3 w.epoch (setRoot { q with size := p.param 8 8 } w))))) ∧
    -- VOL_SET
    (∀ (b : Binding) (tag : Nat) (peer : PeerAnswer) (p : Packet) (r : Root) (s : State),
      s.cpi.packet b tag 0x0304 = some p →
      s.ftl.rootOf (p.param 0 4) = some r →
      r.isVolume = true →
      s.tt.active.any (fun i => i.serviceCount ≤ p.param 4 1) = false →
      (s.paired = true → peer.status = .ok) →
      s.awaitsAlone = false →
      Completes (.volSet b tag peer) s { trust := true, cpi := true, diary := true, tally := true, ftl := true, corr := true, out := true } fun t =>
        Replied p .ok [] [] t ∧
        t.ftl.roots = (setRoot { r with next := some (p.param 4 1, p.param 8 8) } s).ftl.roots) ∧
    -- ANA_MOVE_GROUP
    (∀ (b : Binding) (tag : Nat) (p : Packet) (s : State),
      s.cpi.packet b tag 0x0305 = some p →
      s.ownsGroup (p.param 0 2) = true →
      p.param 2 1 ≠ s.sys.slot →
      s.paired = true →
      exec (.anaMoveGroup b tag) s = .next (beginMove (p.param 0 2) (p.param 2 1) s)) ∧
    -- ANA_MOVE_GROUP
    (∀ (b : Binding) (tag : Nat) (p : Packet) (s : State),
      s.cpi.packet b tag 0x0305 = some p →
      s.ownsGroup (p.param 0 2) = true →
      p.param 2 1 = s.sys.slot →
      Completes (.anaMoveGroup b tag) s { trust := true, cpi := true, diary := true, tally := true, hq := true, corr := true, out := true } fun t =>
        Replied p .ok [] [] t ∧
        t.hq = s.hq) ∧
    -- DOMAIN_CREATE
    (∀ (b : Binding) (tag : Nat) (peer : PeerAnswer) (p : Packet) (s : State),
      s.cpi.packet b tag 0x0306 = some p →
      s.pool.isSome = true →
      p.param 0 2 < 4096 →
      (s.ftl.roots.filter (fun r => r.kind == .domain)).length < 4096 →
      s.ftl.domainRec (p.param 0 2) = none →
      s.repl.adoptions.any (fun a => a.domain == p.param 0 2) = false →
      bitAt 1 (p.param 2 2) = false →
      (s.paired = true → peer.status = .ok) →
      s.awaitsAlone = false →
      exec (.domainCreate b tag peer) s = .next (changed p [] (createDomain (p.param 0 2) (bitAt 0 (p.param 2 2)) none (pairBase p s)))) ∧
    -- DOMAIN_CREATE
    (∀ (b : Binding) (tag : Nat) (peer : PeerAnswer) (p : Packet) (s : State),
      s.cpi.packet b tag 0x0306 = some p →
      s.pool.isSome = true →
      4096 ≤ p.param 0 2 →
      Completes (.domainCreate b tag peer) s { trust := true, cpi := true, diary := true, tally := true, ftl := true, ciph := true, repl := true, corr := true, out := true, draws := true } fun t =>
        Replied p .domainLimit [] [] t ∧
        t.ftl = s.ftl) ∧
    -- DOMAIN_DELETE
    (∀ (b : Binding) (tag : Nat) (peer : PeerAnswer) (p : Packet) (q : Root) (u w : State) (s : State),
      s.cpi.packet b tag 0x0307 = some p →
      s.ftl.domainRec (p.param 0 2) = some q →
      s.ftl.roots.filter (fun r => r.kind != .domain && r.domain == p.param 0 2) = [] →
      (s.paired = true → peer.status = .ok) →
      u = pairBase p s →
      w = changeLocker (p.param 0 2) .unbound 0 (dropDomainIndex (p.param 0 2) (journal (.volume q.id 2 u.epoch 0 0 0) u)) →
      s.awaitsAlone = false →
      Completes (.domainDelete b tag peer) s { trust := true, cpi := true, diary := true, tally := true, ddp := true, ftl := true, ciph := true, corr := true, out := true } fun t =>
        Replied p .ok [] [] t ∧
        t.ftl.roots = w.ftl.roots.filter (fun r => !(r.kind == .domain && r.domain == p.param 0 2))) ∧
    -- DOMAIN_VERIFY
    (∀ (b : Binding) (tag : Nat) (peer : PeerAnswer) (p : Packet) (q : Root) (s : State),
      s.cpi.packet b tag 0x0308 = some p →
      s.ftl.domainRec (p.param 0 2) = some q →
      (s.paired = true → peer.status = .ok) →
      s.awaitsAlone = false →
      Completes (.domainVerify b tag peer) s { trust := true, cpi := true, diary := true, tally := true, ftl := true, corr := true, out := true } fun t =>
        Replied p .ok [] [] t ∧
        t.ftl.roots = s.ftl.roots.map (fun r => if r.kind == .domain && r.domain == p.param 0 2 then { r with verify := p.param 2 1 != 0 } else r)) ∧
    -- VOL_QUERY
    (∀ (b : Binding) (tag : Nat) (p : Packet) (r : Root) (s : State),
      s.cpi.packet b tag 0x0309 = some p →
      s.ftl.rootOf (p.param 0 4) = some r →
      Completes (.volQuery b tag) s { trust := true, cpi := true, tally := true, corr := true, out := true } fun t =>
        Replied p .ok (s.rootBytes r (s.treeRoot 1 r.id)) ([]) t ∧
        t.ftl = s.ftl) ∧
    -- VOL_QUERY
    (∀ (b : Binding) (tag : Nat) (p : Packet) (s : State),
      s.cpi.packet b tag 0x0309 = some p →
      s.ftl.rootOf (p.param 0 4) = none →
      Completes (.volQuery b tag) s { trust := true, cpi := true, tally := true, corr := true, out := true } fun t =>
        Replied p .pktParam [] [] t ∧
        t.ftl = s.ftl)

/-- Snapshots, seals and clones: what each command leaves, for every state and operands that meet the premises written
with it. SNAP_CREATE (R427, R428, R429, R430), SNAPSHOT_SETTLE (R429), SNAP_DELETE (R437, R435), SNAP_SEAL (R436),
CLONE_CREATE (R432), SNAP_QUERY (R465). The model's own choices that bear on these commands are log entries 58, 59. -/
def Obligations.SnapshotAndCloneCommands : Prop :=
    -- SNAP_CREATE
    (∀ (b : Binding) (tag : Nat) (p : Packet) (s : State),
      s.cpi.packet b tag 0x0401 = some p →
      bitAt 0 (p.param 2 2) = (p.param 8 8 == 0) →
      Completes (.snapCreate b tag) s { trust := true, cpi := true, tally := true, ftl := true, repl := true, corr := true, out := true } fun t =>
        Replied p .pktParam [] [] t ∧
        t.ftl = s.ftl) ∧
    -- SNAP_CREATE
    (∀ (b : Binding) (tag : Nat) (p : Packet) (roots : List Nat) (rs : List Root) (s : State),
      s.cpi.packet b tag 0x0401 = some p →
      roots = (List.range (p.param 0 2)).map (fun i => p.param (16 + 4 * i) 4) →
      bitAt 0 (p.param 2 2) ≠ (p.param 8 8 == 0) →
      p.param 0 2 ≤ 256 →
      twice [] roots = none →
      roots.findIdx? (fun r => (s.ftl.rootOf r).isNone) = none →
      rs = roots.filterMap s.ftl.rootOf →
      rs.find? (fun r => !r.isVolume) = none →
      rs.find? (fun r => s.ec.offline.contains r.layout) = none →
      rs.find? (fun r => 16384 ≤ s.ftl.snapshotsOf r.id) = none →
      s.ftl.snapshots + p.param 0 2 ≤ 1048576 →
      exec (.snapCreate b tag) s = .next (cutGroup (.packet b tag) roots (p.param 8 8) s)) ∧
    -- SNAPSHOT_SETTLE
    (∀ (tag : Nat) (peerReady : Bool) (g : SnapGroup) (s : State),
      s.repl.groups.find? (fun g => g.tag == tag) = some g →
      s.tt.now % 8 = 0 →
      s.groupReady g = true →
      (s.paired = true → peerReady = true) →
      exec (.snapshotSettle tag peerReady) s = .next (afterSettle g (settleGroup g s))) ∧
    -- SNAP_DELETE
    (∀ (b : Binding) (tag : Nat) (peer : PeerAnswer) (peerClock : Nat) (p : Packet) (r : Root) (s : State),
      s.cpi.packet b tag 0x0402 = some p →
      s.ftl.rootOf (p.param 0 4) = some r →
      r.kind = .snapshot →
      r.state = .active →
      r.sealed_ = true →
      s.ticketClock peerClock < r.until_ →
      Completes (.snapDelete b tag peer peerClock) s { trust := true, cpi := true, diary := true, tally := true, ddp := true, ftl := true, corr := true, out := true } fun t =>
        Replied p .snapshotSealed [] [] t ∧
        t.ftl = s.ftl ∧
        t.trust = s.trust) ∧
    -- SNAP_DELETE
    (∀ (b : Binding) (tag : Nat) (peer : PeerAnswer) (peerClock : Nat) (p : Packet) (r : Root) (u : State) (s : State),
      s.cpi.packet b tag 0x0402 = some p →
      s.ftl.rootOf (p.param 0 4) = some r →
      r.kind = .snapshot →
      r.state = .active →
      r.sealed_ = false →
      (s.paired = true → peer.status = .ok) →
      u = deleteRoot r (pairBase p s) →
      s.awaitsAlone = false →
      Completes (.snapDelete b tag peer peerClock) s { trust := true, cpi := true, diary := true, tally := true, ddp := true, ftl := true, corr := true, out := true } fun t =>
        Replied p .ok [] [] t ∧
        t.ftl = u.ftl ∧
        t.trust.seals = u.trust.seals.filter (fun x => x.root != r.id)) ∧
    -- SNAP_SEAL
    (∀ (b : Binding) (tag : Nat) (peer : PeerAnswer) (p : Packet) (r : Root) (s : State),
      s.cpi.packet b tag 0x0403 = some p →
      s.ftl.rootOf (p.param 0 4) = some r →
      r.kind = .snapshot →
      r.state = .active →
      r.sealed_ = true →
      p.param 8 8 < r.until_ →
      Completes (.snapSeal b tag peer) s { trust := true, cpi := true, diary := true, tally := true, ftl := true, ciph := true, corr := true, out := true } fun t =>
        Replied p .snapshotSealed [] [] t ∧
        t.ftl = s.ftl) ∧
    -- SNAP_SEAL
    (∀ (b : Binding) (tag : Nat) (peer : PeerAnswer) (p : Packet) (r : Root) (s : State),
      s.cpi.packet b tag 0x0403 = some p →
      s.ftl.rootOf (p.param 0 4) = some r →
      r.kind = .snapshot →
      r.state = .active →
      (r.sealed_ = false ∨ r.until_ ≤ p.param 8 8) →
      p.param 8 8 ≠ 0 →
      (s.paired = true → peer.status = .ok) →
      s.awaitsAlone = false →
      exec (.snapSeal b tag peer) s = .next (changed p [] (sealRoot r (p.param 8 8) (pairBase p s)))) ∧
    -- CLONE_CREATE
    (∀ (b : Binding) (tag : Nat) (peer : PeerAnswer) (p : Packet) (r c : Root) (u : State) (s : State),
      s.cpi.packet b tag 0x0404 = some p →
      s.ftl.rootOf (p.param 0 4) = some r →
      r.kind = .snapshot →
      r.state = .active →
      s.ftl.nsidUsed (p.param 4 4) = false →
      s.badNamespace (p.param 4 4) (p.param 8 2) (p.param 0x0A 2) 4 8 0x0A = none →
      s.ftl.volumes < 65536 →
      (s.paired = true → peer.status = .ok) →
      u = pairBase p s →
      c = { Root.blank u.ftl.nextRoot .clone with
      nsid := p.param 4 4, subsystem := p.param 8 2, ana := p.param 0x0A 2, domain := r.domain, layout := r.layout
      service := r.service, size := r.size, parent := r.id, fenceEpoch := u.epoch, created := u.clockUs
      format := r.format, piType := r.piType, leaves := r.leaves } →
      s.awaitsAlone = false →
      exec (.cloneCreate b tag peer) s = .next (changed p (fields [(4, c.id), (4, 0)]) (namespaceChanged (p.param 4 4) c.subsystem (volumeRecord c 5 u.epoch (addRoot c u))))) ∧
    -- CLONE_CREATE
    (∀ (b : Binding) (tag : Nat) (peer : PeerAnswer) (p : Packet) (r : Root) (s : State),
      s.cpi.packet b tag 0x0404 = some p →
      s.ftl.rootOf (p.param 0 4) = some r →
      r.kind ≠ .snapshot →
      Completes (.cloneCreate b tag peer) s { trust := true, cpi := true, diary := true, tally := true, ftl := true, hq := true, corr := true, out := true } fun t =>
        Replied p .rootKind [] [] t ∧
        t.ftl = s.ftl) ∧
    -- SNAP_QUERY
    (∀ (b : Binding) (tag : Nat) (p : Packet) (r : Root) (s : State),
      s.cpi.packet b tag 0x0405 = some p →
      s.ftl.rootOf (p.param 0 4) = some r →
      Completes (.snapQuery b tag) s { trust := true, cpi := true, tally := true, corr := true, out := true } fun t =>
        Replied p .ok (s.rootBytes r (s.treeRoot 1 r.id) ++ ((s.trust.seals.find? (fun x => x.root == r.id)).map Seal.bytes).getD (zeros 32)) ([]) t ∧
        t.ftl = s.ftl)

/-- Replication and migration packets: what each command leaves, for every state and operands that meet the premises
written with it. REPL_PARTNER_ADD (R442), REPL_PARTNER_REMOVE (R465), REPL_SESSION_OPEN (R443, R444, R445, R446),
REPL_SESSION_CLOSE (R465), REPL_ASYNC_SEND (R451), REPL_SYNC_SET (R457, R460), MIGRATE_EXPORT (R462, R456),
MIGRATE_CUTOVER (R463), REPL_QUERY (R465, R461). The model's own choices that bear on these commands are log entries
60. -/
def Obligations.ReplicationPacketCommands : Prop :=
    -- REPL_PARTNER_ADD
    (∀ (b : Binding) (tag : Nat) (p : Packet) (s : State),
      s.cpi.packet b tag 0x0501 = some p →
      (s.repl.partners.filter (fun x => x.chip != p.param 0 2)).length < 256 →
      Completes (.replPartnerAdd b tag) s { trust := true, cpi := true, diary := true, tally := true, repl := true, corr := true, out := true } fun t =>
        Replied p .ok [] [] t ∧
        t.repl.partners = s.repl.partners.filter (fun x => x.chip != p.param 0 2) ++ [⟨p.param 0 2, slice p.params 8 32⟩]) ∧
    -- REPL_PARTNER_ADD
    (∀ (b : Binding) (tag : Nat) (p : Packet) (s : State),
      s.cpi.packet b tag 0x0501 = some p →
      256 ≤ (s.repl.partners.filter (fun x => x.chip != p.param 0 2)).length →
      Completes (.replPartnerAdd b tag) s { trust := true, cpi := true, diary := true, tally := true, repl := true, corr := true, out := true } fun t =>
        Replied p .partnerLimit [] [] t ∧
        t.repl = s.repl) ∧
    -- REPL_PARTNER_REMOVE
    (∀ (b : Binding) (tag : Nat) (p : Packet) (u : State) (s : State),
      s.cpi.packet b tag 0x0502 = some p →
      s.repl.partners.any (fun x => x.chip == p.param 0 2) = true →
      u = { s with repl := { s.repl with partners := s.repl.partners.filter (fun x => x.chip != p.param 0 2) } } →
      exec (.replPartnerRemove b tag) s = .next (changed p [] ((u.repl.sessions.filter (fun x => x.peer == p.param 0 2)).foldl (fun t x => closeSession x t) u))) ∧
    -- REPL_SESSION_OPEN
    (∀ (b : Binding) (tag : Nat) (p : Packet) (reg : Nat) (s : State),
      s.cpi.packet b tag 0x0503 = some p →
      s.pool.isSome = true →
      s.repl.partners.any (fun x => x.chip == p.param 0 2) = true →
      s.repl.freeReg = some reg →
      exec (.replSessionOpen b tag) s = .next (offerSession reg (p.param 0 2) (if p.param 2 2 = 0 then 7451 else p.param 2 2) (some (b, tag)) none s)) ∧
    -- REPL_SESSION_CLOSE
    (∀ (b : Binding) (tag : Nat) (p : Packet) (x : Session) (s : State),
      s.cpi.packet b tag 0x0504 = some p →
      s.repl.session (p.param 0 2) = some x →
      x.step = .isOpen →
      exec (.replSessionClose b tag) s = .next (closeIdle (setSession { x with closing := true, who := some (b, tag) } s))) ∧
    -- REPL_ASYNC_SEND
    (∀ (b : Binding) (tag : Nat) (p : Packet) (x : Session) (r : Root) (s : State),
      s.cpi.packet b tag 0x0505 = some p →
      s.repl.session (p.param 0 2) = some x →
      s.ftl.rootOf (p.param 4 4) = some r →
      x.step = .isOpen →
      x.closing = false →
      r.kind = .snapshot →
      r.state = .active →
      p.param 8 4 = 0 →
      exec (.replAsyncSend b tag) s = .next (startTransfer x.reg (.packet b tag) r.id 0 r.domain 0 s)) ∧
    -- REPL_SYNC_SET
    (∀ (b : Binding) (tag : Nat) (p : Packet) (mine : List SyncRel) (s : State),
      s.cpi.packet b tag 0x0506 = some p →
      mine = s.repl.syncs.filter (fun y => y.source && y.session == p.param 0 2 && (syncEntries p == [] || y.roots.any (fun r => (syncEntries p).any (fun e => e.1 == r.1)))) →
      s.repl.sessions.any (fun x => x.reg == p.param 0 2 && x.step == .isOpen) = true →
      p.param 4 2 ≤ 1000 →
      p.param 2 1 = 3 →
      mine ≠ [] →
      exec (.replSyncSet b tag) s = .next (changed p [] (mine.foldl (fun t y => setSync y { y with
          timeout := if p.param 4 2 = 0 then 20 else p.param 4 2
          stall := p.param 3 1 == 1 } t) s))) ∧
    -- MIGRATE_EXPORT
    (∀ (b : Binding) (tag : Nat) (p : Packet) (x : Session) (r : Root) (s : State),
      s.cpi.packet b tag 0x0507 = some p →
      s.repl.session (p.param 0 2) = some x →
      s.ftl.rootOf (p.param 4 4) = some r →
      x.step = .isOpen →
      x.closing = false →
      p.param 2 2 < 4096 →
      r.kind = .volume →
      (sortBy (fun a c => a.fenceEpoch ≤ c.fenceEpoch) (s.ftl.roots.filter (fun q => q.kind == .snapshot && q.parent == r.id && q.state == .active))).map (·.id) = [] →
      Completes (.migrateExport b tag) s { trust := true, cpi := true, diary := true, tally := true, ftl := true, ciph := true, repl := true, corr := true, out := true } fun t =>
        Replied p .ok [] [] t) ∧
    -- MIGRATE_CUTOVER
    (∀ (b : Binding) (tag : Nat) (p : Packet) (m : Migration) (r : Root) (s : State),
      s.cpi.packet b tag 0x0508 = some p →
      s.repl.migrations.find? (fun m => m.session == p.param 0 2 && m.root == p.param 4 4) = some m →
      s.ftl.rootOf (p.param 4 4) = some r →
      p.param 2 2 < 1024 →
      s.ftl.roots.any (fun q => q.isVolume && q.nsid != 0 && q.id != p.param 4 4 && q.ana == p.param 2 2) = false →
      exec (.migrateCutover b tag) s = .next (cutGroup (.cutover m.session (p.param 4 4)) [p.param 4 4] 0 (setMigration { m with cutover := some (b, tag), transit := p.param 2 2 }
          { s with hq := { s.hq with heldNs := s.hq.heldNs ++ [r.nsid] } }))) ∧
    -- REPL_QUERY
    (∀ (b : Binding) (tag : Nat) (p : Packet) (y : SyncRel) (s : State),
      s.cpi.packet b tag 0x0509 = some p →
      (s.repl.syncs.filter (fun y => y.source && (p.param 0 2 == 0xFFFF || y.session == p.param 0 2))).find? (·.fractured) = some y →
      p.param 0 2 = 0xFFFF →
      Completes (.replQuery b tag) s { trust := true, cpi := true, tally := true, corr := true, out := true } fun t =>
        Replied p .replFractured [] [] t ∧
        t.repl = s.repl) ∧
    -- REPL_QUERY
    (∀ (b : Binding) (tag : Nat) (p : Packet) (s : State),
      s.cpi.packet b tag 0x0509 = some p →
      (s.repl.syncs.filter (fun y => y.source && (p.param 0 2 == 0xFFFF || y.session == p.param 0 2))).find? (·.fractured) = none →
      p.param 0 2 = 0xFFFF →
      Completes (.replQuery b tag) s { trust := true, cpi := true, tally := true, corr := true, out := true } fun t =>
        t.cpi.packet p.binding p.tag p.opcode = none ∧
        t.repl = s.repl)

/-- The handshake and the life of a replication session: what each command leaves, for every state and operands that meet
the premises written with it. OFFER (R445), ACCEPT (R445, R446), PROVE (R446), REFUSE (R444), HANDSHAKE_TIMEOUT
(R444), SESSION_REKEY (R448), SEGMENT_SEND_TIMER (R449). The model's own choices that bear on these commands are log
entries 60. -/
def Obligations.SessionCommands : Prop :=
    -- OFFER
    (∀ (port : Nat) (message : Bytes) (reg : Nat) (m h k : Bytes) (s : State),
      s.repl.freeReg = some reg →
      acceptOf "BIRCA-SESS" message s = some (m, (h, k)) →
      exec (.offer port message) s = .next (emit (.handshake reg 2 m) (drawn 120 { s with
          repl := { s.repl with sessions := s.repl.sessions ++ [{ newSession reg (fieldAt message 0x10 2) (fieldAt message 0x12 2) port false .accepted s.tt.now with
            offer := message, accept := m, hash := h, secret := k, pool := slice message 0x18 16 }] } }))) ∧
    -- OFFER
    (∀ (port : Nat) (message : Bytes) (s : State),
      s.repl.freeReg = none →
      Completes (.offer port message) s { repl := true, out := true, draws := true } fun t =>
        t.repl = s.repl ∧
        t.out = s.out ++ [.handshake 64 4 (hsMessage 4 (fields [(2, statusCode .sessionLimit), (6, 0)]))]) ∧
    -- ACCEPT
    (∀ (reg : Nat) (message : Bytes) (x : Session) (h k : Bytes) (s : State),
      s.repl.session reg = some x →
      x.step = .offered →
      acceptedOf "BIRCA-SESS" x.offer x.xPriv x.kem message = some (h, k) →
      fieldAt message 0x10 2 = x.peer →
      exec (.accept reg message) s = .next (emit (.handshake reg 3 (proveOf h "BIRCA-RP-O" s)) (setSession { x with
          accept := message, hash := h, secret := k, xPriv := [], kem := [], step := .proving, at_ := s.tt.now } s))) ∧
    -- ACCEPT
    (∀ (reg : Nat) (message : Bytes) (x : Session) (s : State),
      s.repl.session reg = some x →
      x.step = .offered →
      acceptedOf "BIRCA-SESS" x.offer x.xPriv x.kem message = none →
      exec (.accept reg message) s = .next (refuseSession x .pktFormat noDetail s)) ∧
    -- PROVE
    (∀ (reg : Nat) (message : Bytes) (x : Session) (s : State),
      s.repl.session reg = some x →
      x.offerer = true →
      x.step = .proving →
      sessionRefusal x message s = none →
      exec (.prove reg message) s = .next (openSession x s)) ∧
    -- PROVE
    (∀ (reg : Nat) (message : Bytes) (x : Session) (s : State),
      s.repl.session reg = some x →
      x.offerer = false →
      x.step = .accepted →
      sessionRefusal x message s = some 3 →
      exec (.prove reg message) s = .next (refuseSession x .sessionAuth (detailOf [(1, 3)]) s)) ∧
    -- REFUSE
    (∀ (reg : Nat) (status : Nat) (x : Session) (s : State),
      s.repl.session reg = some x →
      x.step ≠ .isOpen →
      exec (.refuse reg status) s = .next (endSession x .replPeerAbort (detailOf [(2, status)]) status s)) ∧
    -- HANDSHAKE_TIMEOUT
    (∀ (reg : Nat) (x : Session) (s : State),
      s.repl.session reg = some x →
      x.step ≠ .isOpen →
      x.at_ + secBells 2 ≤ s.tt.now →
      exec (.handshakeTimeout reg) s = .next (refuseSession x .replPeerAbort noDetail s)) ∧
    -- SESSION_REKEY
    (∀ (reg : Nat) (x : Session) (new : Nat) (s : State),
      s.repl.session reg = some x →
      s.repl.freeReg = some new →
      x.step = .isOpen →
      x.offerer = true →
      x.closing = false →
      s.repl.sessions.all (fun y => y.replaces != some reg) = true →
      (x.opened + 86400 ≤ s.clockSec ∨ 2 ^ 40 ≤ x.sent ∨ 2 ^ 40 ≤ x.received) →
      exec (.sessionRekey reg) s = .next (offerSession new x.peer x.port none (some reg) s)) ∧
    -- SEGMENT_SEND_TIMER
    (∀ (reg : Nat) (x : Session) (s : State),
      s.repl.session reg = some x →
      x.text ≠ [] →
      x.textAt.any (fun t => t + 1 ≤ s.tt.now) = true →
      x.text.length < 65536 →
      exec (.segmentSendTimer reg) s = .next (sendRecord reg 0 0 (zeros (if 16 ≤ 65536 - x.text.length then 65536 - x.text.length - 16 else 65536 - x.text.length + 65536 - 16)) s))

/-- Transfers of a snapshot between pairs: what each command leaves, for every state and operands that meet the premises
written with it. BEGIN (R451, R454), FINGERPRINTS (R452), WANT (R451), GRAIN (R452), END (R453), REPL_COMMIT (R453,
R455, R459, R463), REPL_ABORT (R450, R451), KEY_ADOPT (R456), KEY_ADOPT_WAIT_EXPIRY (R549). The model's own choices
that bear on these commands are log entries 61, 76. -/
def Obligations.TransferCommands : Prop :=
    -- BEGIN
    (∀ (session : Nat) (transfer : Nat) (root : Nat) (base : Nat) (snap : Nat) (fenceEpoch : Nat) (size : Nat) (domain : Nat) (flags : Nat) (until_ : Nat) (pool : Bytes) (x : Session) (t0 : Transfer) (u : State) (s : State),
      s.repl.session session = some x →
      x.step = .isOpen →
      t0 = ⟨session, transfer, false, .received, base, snap, 0, flags, until_, [], [], [], [], none, [], false⟩ →
      u = setSession { x with received := x.received + 80 } s →
      s.ftl.domainRec domain = none →
      exec (.beginTransfer session transfer root base snap fenceEpoch size domain flags until_ pool) s = .next (abortTransfer t0 .lockerUnbound noDetail u)) ∧
    -- FINGERPRINTS
    (∀ (session : Nat) (transfer : Nat) (entries : Bytes) (y : Transfer) (x : Session) (z : Transfer) (u : State) (dom : Nat) (s : State),
      s.repl.transfer session transfer false = some y →
      s.repl.session session = some x →
      dom = ((s.ftl.rootOf y.replica).map (·.domain)).getD 0 →
      ((List.range (entries.length / 32)).map (fun i => slice entries (32 * i) 32)).foldl (applyEntry y dom)
      ({ y with wants := [] }, setSession { x with received := x.received + entries.length + 24 } s) = (z, u) →
      exec (.fingerprints session transfer entries) s = .next (sendRecord session 3 transfer (fields ([(4, z.wants.length), (4, 0)] ++ z.wants.map (fun g => (8, g)))) (setTransfer z u))) ∧
    -- WANT
    (∀ (session : Nat) (transfer : Nat) (grains : List Nat) (y z : Transfer) (l : List Nat) (s : State),
      s.repl.transfer session transfer true = some y →
      s.ftl.rootOf y.snap = none →
      z = { y with asked := true, wants := y.wants ++ [] } →
      exec (.want session transfer grains) s = .next (sendEnd z (setTransfer z s))) ∧
    -- GRAIN
    (∀ (session : Nat) (transfer : Nat) (grain : Nat) (tier : Nat) (slot : Bytes) (tail : Bytes) (y : Transfer) (x : Session) (o : SkxResult) (u : State) (s : State),
      s.repl.transfer session transfer false = some y →
      s.repl.session session = some x →
      s.admitsWrite [(4 * grain, 4)] 4 = true →
      o = skxDecode (fitBytes (4096 * tier) slot) tier [0, 1, 2, 3] →
      u = setSession { x with received := x.received + 32 + slot.length + tail.length } s →
      o.errors = [] →
      o.released.length = 4 →
      exec (.grain session transfer grain tier slot tail) s = .next (setTransfer { y with staged := y.staged ++ [(grain, u.hq.nextFsn (2 ^ 32 + y.replica))] }
          (writeReplica y.replica session transfer (u.hq.nextFsn (2 ^ 32 + y.replica)) (4 * grain) 4 (o.released.flatMap (·.2)) tail u))) ∧
    -- END
    (∀ (session : Nat) (transfer : Nat) (entries : Nat) (digest : Bytes) (y : Transfer) (x : Session) (u : State) (w : State × SnapGroup) (s : State),
      s.repl.transfer session transfer false = some y →
      s.repl.session session = some x →
      u = setTransfer { y with ended := some (entries, digest) } (setSession { x with received := x.received + 56 } s) →
      w = startGroup (.replica session transfer) (2 ^ 63 * u.sys.slot + u.repl.nextGroup) [y.replica] 0
      { u with repl := { u.repl with nextGroup := u.repl.nextGroup + 1 } } →
      exec (.endTransfer session transfer entries digest) s = .next (fenceBell (setGroupOf { w.2 with fence := some w.1.tt.now } w.1))) ∧
    -- REPL_COMMIT
    (∀ (session : Nat) (transfer : Nat) (status : Nat) (snapshot : Nat) (digest : Bytes) (y : Transfer) (p : Packet) (b : Binding) (tag : Nat) (s : State),
      transfer ≠ 0 →
      s.repl.transfer session transfer true = some y →
      status = 0 →
      y.why = .packet b tag →
      (dropTransfer y s).cpi.packet b tag 0x0505 = some p →
      Completes (.replCommit session transfer status snapshot digest) s { trust := true, cpi := true, diary := true, tally := true, stg := true, ftl := true, ciph := true, hq := true, repl := true, corr := true, out := true } fun t =>
        Replied p .ok (fields [(4, snapshot), (4, y.number)]) [] t) ∧
    -- REPL_ABORT
    (∀ (session : Nat) (transfer : Nat) (status : Nat) (detail : Bytes) (y : Transfer) (s : State),
      transfer ≠ 0 →
      s.repl.transfer session transfer true = some y →
      status ≠ 0x0670 →
      exec (.replAbort session transfer status detail) s = .next (closeIdle (failTransfer y .replPeerAbort (detailOf [(2, status)]) s))) ∧
    -- REPL_ABORT
    (∀ (session : Nat) (transfer : Nat) (status : Nat) (detail : Bytes) (y : Transfer) (s : State),
      transfer ≠ 0 →
      s.repl.transfer session transfer true = none →
      s.repl.transfer session transfer false = some y →
      exec (.replAbort session transfer status detail) s = .next (failTransfer y .replPeerAbort (detailOf [(2, status)]) (dropStaged y s))) ∧
    -- KEY_ADOPT
    (∀ (session : Nat) (domain : Nat) (wrapped : Bytes) (check : Bytes) (x : Session) (s : State),
      s.repl.session session = some x →
      s.repl.adoptions.find? (fun a => a.domain == domain && a.session == session) = none →
      exec (.keyAdopt session domain wrapped check) s = .next (sendRecord session 0x0B 0 (fields [(2, statusCode .adoptFail), (6, 0)] ++ detailOf [(2, domain)]) s)) ∧
    -- KEY_ADOPT
    (∀ (session : Nat) (domain : Nat) (wrapped : Bytes) (check : Bytes) (x : Session) (a : Adoption) (u : State) (s : State),
      s.repl.session session = some x →
      s.repl.adoptions.find? (fun a => a.domain == domain && a.session == session) = some a →
      kmac256 x.secret (leBytes 2 domain ++ wrapped) 32 (ascii "BIRCA-ADOPT-C") = check →
      u = { s with repl := { s.repl with adoptions := s.repl.adoptions.filter (fun y => y.domain != domain) } } →
      u.cpi.packet a.who.1 a.who.2 0x0306 = none →
      exec (.keyAdopt session domain wrapped check) s = .next (createDomain domain a.verify (some (xorBytes wrapped (kmac256 x.secret (leBytes 2 domain ++ ascii "W") 32 (ascii "BIRCA-ADOPT")), x.pool)) u)) ∧
    -- KEY_ADOPT_WAIT_EXPIRY
    (∀ (domain : Nat) (a : Adoption) (p : Packet) (s : State),
      s.repl.adoptions.find? (fun a => a.domain == domain) = some a →
      a.since + secBells 60 ≤ s.tt.now →
      s.cpi.packet a.who.1 a.who.2 0x0306 = some p →
      Completes (.keyAdoptWaitExpiry domain) s { trust := true, cpi := true, tally := true, repl := true, corr := true, out := true } fun t =>
        Replied p .adoptFail [] [] t ∧
        t.repl.adoptions = s.repl.adoptions.filter (fun y => y.domain != domain))

/-- Synchronous replication and migration in progress: what each command leaves, for every state and operands that meet
the premises written with it. SYNC_WRITE (R458), SYNC_ACK (R457), SYNC_ACK_TIMEOUT (R460), SYNC_FENCE (R459),
SYNC_CHECKPOINT (R459), FRACTURE_RESUME_TIMER (R461), MIGRATE_REPEAT_TIMER (R462). The model's own choices that bear
on these commands are log entries 62. -/
def Obligations.SyncReplicationCommands : Prop :=
    -- SYNC_WRITE
    (∀ (session : Nat) (root : Nat) (count : Nat) (seq : Nat) (lba : Nat) (blocks : Bytes) (pi : Bytes) (x : Session) (r : Root) (rel : SyncRel) (u : State) (base : Nat) (s : State),
      s.repl.session session = some x →
      s.ftl.roots.find? (fun r => r.kind == .replica && r.sourceRoot == root) = some r →
      x.step = .isOpen →
      s.admitsWrite [(lba, count)] count = true →
      u = setSession { x with received := x.received + 40 + blocks.length + pi.length } s →
      u.repl.syncs.find? (fun y => !y.source && y.session == session) = some rel →
      rel.roots.any (fun p => p.1 == root) = true →
      getKey root rel.bases = some base →
      u.repl.replicas.contains r.id = true →
      u.repl.syncs.any (fun y => !y.source && y.session == session) = true →
      exec (.syncWrite session root count seq lba blocks pi) s = .next (ackSyncs (writeReplica r.id session 0 (base + seq) lba count blocks pi (setSync rel { rel with
          bases := putKey root base rel.bases
          waiting := rel.waiting ++ [⟨root, seq, base + seq, false, none⟩] } u)))) ∧
    -- SYNC_ACK
    (∀ (session : Nat) (root : Nat) (seq : Nat) (x : Session) (s : State),
      s.repl.session session = some x →
      exec (.syncAck session root seq) s = .next (syncAcked session root seq (setSession { x with received := x.received + 32 } s))) ∧
    -- SYNC_ACK_TIMEOUT
    (∀ (session : Nat) (root : Nat) (y : SyncRel) (s : State),
      s.repl.syncs.find? (fun y => y.source && y.session == session && !y.fractured && y.roots.any (fun p => p.1 == root)) = some y →
      y.stall = false →
      y.waiting.any (fun w => !w.acked && w.at_ + msBells y.timeout ≤ s.tt.now) = true →
      exec (.syncAckTimeout session root) s = .next (fracture y s)) ∧
    -- SYNC_FENCE
    (∀ (session : Nat) (snapshot : Nat) (bell : Nat) (y : SyncRel) (w : State × SnapGroup) (s : State),
      s.repl.syncs.find? (fun y => !y.source && y.session == session) = some y →
      y.roots = [] →
      w = startGroup (.checkpoint session false) (2 ^ 63 * s.sys.slot + s.repl.nextGroup) [] 0
      { s with repl := { s.repl with nextGroup := s.repl.nextGroup + 1 } } →
      exec (.syncFence session snapshot bell []) s = .next (setSync y { y with waiting := y.waiting.filter (fun w => !w.acked) } (fenceBell (setGroupOf { w.2 with fence := some w.1.tt.now } w.1)))) ∧
    -- SYNC_CHECKPOINT
    (∀ (session : Nat) (y : SyncRel) (s : State),
      s.repl.syncs.filter (fun y => y.source && y.session == session && !y.fractured && y.checkAt + secBells 60 ≤ s.tt.now &&
      !s.repl.groups.any (fun g => g.why == .checkpoint session true && g.roots == y.roots.map (·.1))) = [y] →
      exec (.syncCheckpoint session) s = .next (cutGroup (.checkpoint session true) (y.roots.map (·.1)) 0 (setSync y { y with checkAt := s.tt.now, seen := false, made := [] } s))) ∧
    -- FRACTURE_RESUME_TIMER
    (∀ (session : Nat) (y : SyncRel) (s : State),
      s.repl.syncs.filter (fun y => y.source && y.session == session && y.fractured && y.triedAt + secBells 60 ≤ s.tt.now &&
      s.repl.sessions.any (fun x => x.reg == session && x.step == .isOpen) && !s.repl.groups.any (fun g => g.why == .resume session) &&
      !s.repl.transfers.any (fun t => y.roots.any (fun p => t.why == .resume p.1))) = [y] →
      exec (.fractureResumeTimer session) s = .next (cutGroup (.resume session) (y.roots.map (·.1)) 0 (setSync y { y with triedAt := s.tt.now } s))) ∧
    -- MIGRATE_REPEAT_TIMER
    (∀ (session : Nat) (root : Nat) (m : Migration) (s : State),
      s.repl.migrations.find? (fun m => m.session == session && m.root == root) = some m →
      m.cutover = none →
      m.lastAt + secBells 60 ≤ s.tt.now →
      s.repl.sessions.any (fun x => x.reg == session && x.step == .isOpen) = true →
      s.repl.groups.all (fun g => g.why != .migration session root) = true →
      s.repl.transfers.all (fun t => t.why != .migration root) = true →
      m.queue = [] →
      exec (.migrateRepeatTimer session root) s = .next (cutGroup (.migration session root) [root] 0 (setMigration { m with lastAt := s.tt.now } s)))

/-- Diagnostic packets: what each command leaves, for every state and operands that meet the premises written with it.
DIAG_DIE_OP (R549, R410), DIAG_LANE_TEST (R529), DIAG_LANE_GROUP (R81), DIAG_DRAM_CHANNEL (R578), DIAG_BAY_GROUP
(R423), DIAG_DUMP (R549), DIAG_PIN (R632, R628), DIAG_CAPTURE (R549). The model's own choices that bear on these
commands are log entries 42, 69. -/
def Obligations.DiagnosticPacketCommands : Prop :=
    -- DIAG_DIE_OP
    (∀ (b : Binding) (tag : Nat) (p : Packet) (s : State),
      s.cpi.packet b tag 0x0801 = some p →
      p.param 1 1 ≠ 8 →
      exec (.diagDieOp b tag) s = .next (queueOp { blkOp (p.param 1 1) (blkKey (p.param 0 1) (p.param 2 2) (p.param 4 2)) (p.param 6 2) 0
          (if (s.formAt (p.param 0 1) (p.param 2 2)).isSome then 4 else 0) (.diag b tag) [] with selector := 0 } s)) ∧
    -- DIAG_LANE_TEST
    (∀ (b : Binding) (tag : Nat) (p : Packet) (s : State),
      s.cpi.packet b tag 0x0802 = some p →
      p.param 0 1 = 18 →
      p.param 1 1 = 0 →
      exec (.diagLaneTest b tag) s = .next (laneOut (laneOf .dig 0) .test s)) ∧
    -- DIAG_LANE_GROUP
    (∀ (b : Binding) (tag : Nat) (p : Packet) (s : State),
      s.cpi.packet b tag 0x0803 = some p →
      p.param 1 1 = 1 →
      exec (.diagLaneGroup b tag) s = .next (changed p (leBytes 8 s.switchDay) (trigger true 2 (p.param 0 1) s))) ∧
    -- DIAG_LANE_GROUP
    (∀ (b : Binding) (tag : Nat) (p : Packet) (s : State),
      s.cpi.packet b tag 0x0803 = some p →
      p.param 1 1 ≠ 1 →
      Completes (.diagLaneGroup b tag) s { trust := true, cpi := true, diary := true, tally := true, tt := true, lanes := true, corr := true, out := true } fun t =>
        Replied p .ok (leBytes 8 (s.day + 64)) ([]) t ∧
        t.lanes.groupsOut = s.lanes.groupsOut.filter (fun x => x != p.param 0 1)) ∧
    -- DIAG_DRAM_CHANNEL
    (∀ (b : Binding) (tag : Nat) (p : Packet) (s : State),
      s.cpi.packet b tag 0x0804 = some p →
      p.param 1 1 ≠ 3 →
      s.dram.evacPhase = .none →
      s.dram.evacNext = none →
      (s.dram.ch (p.param 0 1)).state = .inService →
      Completes (.diagDramChannel b tag) s { dram := true, trust := true, cpi := true, diary := true, tally := true, tt := true, corr := true, out := true } fun t =>
        Replied p .ok (leBytes 8 s.switchDay) ([]) t ∧
        t.dram.evacNext = some (p.param 0 1, p.param 1 1 == 1)) ∧
    -- DIAG_DRAM_CHANNEL
    (∀ (b : Binding) (tag : Nat) (p : Packet) (s : State),
      s.cpi.packet b tag 0x0804 = some p →
      p.param 1 1 ≠ 3 →
      s.dram.evacNext.isSome = true →
      Completes (.diagDramChannel b tag) s { dram := true, trust := true, cpi := true, diary := true, tally := true, tt := true, corr := true, out := true } fun t =>
        Replied p .objectBusy [] [] t ∧
        t.dram = s.dram) ∧
    -- DIAG_BAY_GROUP
    (∀ (b : Binding) (tag : Nat) (p : Packet) (s : State),
      s.cpi.packet b tag 0x0805 = some p →
      p.param 1 1 = 1 →
      exec (.diagBayGroup b tag) s = .next (changed p (leBytes 8 s.switchDay) (trigger true 4 (p.param 0 1) s))) ∧
    -- DIAG_BAY_GROUP
    (∀ (b : Binding) (tag : Nat) (p : Packet) (s : State),
      s.cpi.packet b tag 0x0805 = some p →
      p.param 1 1 ≠ 1 →
      Completes (.diagBayGroup b tag) s { trust := true, cpi := true, diary := true, tally := true, tt := true, bay := true, corr := true, out := true } fun t =>
        Replied p .ok (leBytes 8 (s.day + 64)) ([]) t ∧
        t.bay.groupsOut = s.bay.groupsOut.filter (fun x => x != p.param 0 1)) ∧
    -- DIAG_DUMP
    (∀ (b : Binding) (tag : Nat) (dump : Bytes) (p : Packet) (s : State),
      s.cpi.packet b tag 0x0806 = some p →
      s.cpi.blocked [0x03000000 + p.param 0 1] (fun _ => false) = none →
      Completes (.diagDump b tag dump) s { trust := true, cpi := true, tally := true, corr := true, out := true } fun t =>
        Replied p .ok ([]) (dump.take (min (p.param 4 4) 1048576)) t) ∧
    -- DIAG_DUMP
    (∀ (b : Binding) (tag : Nat) (dump : Bytes) (p : Packet) (k : Claim) (s : State),
      s.cpi.packet b tag 0x0806 = some p →
      s.cpi.blocked [0x03000000 + p.param 0 1] (fun _ => false) = some k →
      Completes (.diagDump b tag dump) s { trust := true, cpi := true, tally := true, corr := true, out := true } fun t =>
        Replied p .resourceClaimed [] [] t) ∧
    -- DIAG_PIN
    (∀ (b : Binding) (tag : Nat) (p : Packet) (s : State),
      s.cpi.packet b tag 0x0807 = some p →
      p.param 2 1 = 4 →
      Completes (.diagPin b tag) s { pins := true, trust := true, cpi := true, diary := true, tally := true, corr := true, out := true } fun t =>
        Replied p .ok (fields [(1, flagBit (s.pins.pin (p.param 0 2)).level), (1, faultCode (s.pins.pin (p.param 0 2)).fault), (6, 0)]) ([]) t ∧
        t.pins = s.pins) ∧
    -- DIAG_PIN
    (∀ (b : Binding) (tag : Nat) (p : Packet) (s : State),
      s.cpi.packet b tag 0x0807 = some p →
      p.param 2 1 = 2 →
      isLed (p.param 0 2) = true →
      s.cpi.blocked [ledResource (p.param 0 2)] (fun k => k.opcode == 0x0807) = none →
      Completes (.diagPin b tag) s { pins := true, trust := true, cpi := true, diary := true, tally := true, corr := true, out := true } fun t =>
        t.pins = (drivePin (p.param 0 2) true s).pins) ∧
    -- DIAG_CAPTURE
    (∀ (b : Binding) (tag : Nat) (p : Packet) (ctrs : List Nat) (s : State),
      s.cpi.packet b tag 0x0808 = some p →
      ctrs = (List.range (p.param 4 2)).map (fun i => p.param (16 + 4 * i) 4) →
      (List.range (p.param 4 2)).find? (fun i => ctrs.getD i 0 < 0x04000000 || 0x04000000 + 320 ≤ ctrs.getD i 0) = none →
      s.cpi.blocked ([0x03000000 + p.param 0 1, 0x02000000 + p.param 1 1] ++ ctrs) (fun _ => false) = none →
      Completes (.diagCapture b tag) s { trust := true, cpi := true, tally := true, corr := true, out := true } fun t =>
        t.tally.captures = s.tally.captures ++ [⟨b, tag, p.param 0 1, p.param 1 1, p.param 2 2, ctrs, s.tt.now + 1024 * p.param 8 4⟩] ∧
        t.cpi.accepted = s.cpi.accepted)

/-- The Diary, the Tally, bandwidth windows, report card and warnings: what each command leaves, for every state and
operands that meet the premises written with it. DIARY_READ (R587), DIARY_FREEZE (R585), DIARY_CTRL_FREEZE_WRITE
(R585), DIARY_FREEZE_TIMEOUT (R585), DIARY_EVENT (R583), TALLY_READ (R592, R593), TALLY_CONFIG (R589), TALLY_SWEEP
(R591), BW_WINDOW (R594), BW_WINDOW_START (R594), BW_WINDOW_END (R594), REPORT_CARD (R595), EARLY_WARNING_EVAL (R597),
HISTOGRAM_MINUTE (R596). The model's own choices that bear on these commands are log entries 46, 47, 74. -/
def Obligations.ObservabilityCommands : Prop :=
    -- DIARY_READ
    (∀ (b : Binding) (tag : Nat) (p : Packet) (s : State),
      s.cpi.packet b tag 0x0A01 = some p →
      Completes (.diaryRead b tag) s { trust := true, cpi := true, tally := true, corr := true, out := true } fun t =>
        Replied p .ok (leBytes 8 (s.diary.read (p.param 0 8) (p.param 8 4)).1) ((s.diary.read (p.param 0 8) (p.param 8 4)).2.flatMap DiaryRec.bytes) t ∧
        t.diary = s.diary) ∧
    -- DIARY_FREEZE
    (∀ (b : Binding) (tag : Nat) (p : Packet) (s : State),
      s.cpi.packet b tag 0x0A02 = some p →
      p.param 0 1 = 1 →
      exec (.diaryFreeze b tag) s = .next (changed p [] (freezeDiary s))) ∧
    -- DIARY_FREEZE
    (∀ (b : Binding) (tag : Nat) (p : Packet) (s : State),
      s.cpi.packet b tag 0x0A02 = some p →
      p.param 0 1 ≠ 1 →
      exec (.diaryFreeze b tag) s = .next (changed p [] (thawDiary 2 s))) ∧
    -- DIARY_CTRL_FREEZE_WRITE
    (∀ (s : State),
      exec (.diaryCtrlFreezeWrite true) s = .next (freezeDiary s)) ∧
    -- DIARY_CTRL_FREEZE_WRITE
    (∀ (s : State),
      exec (.diaryCtrlFreezeWrite false) s = .next (thawDiary 2 s)) ∧
    -- DIARY_FREEZE_TIMEOUT
    (∀ (s : State),
      s.diary.frozen = true →
      s.diary.frozenAt + secBells 60 ≤ s.tt.now →
      exec .diaryFreezeTimeout s = .next (thawDiary 3 s)) ∧
    -- DIARY_EVENT
    (∀ (code : Nat) (island : Nat) (arg : Nat) (s : State),
      code % 65536 ≠ 0 →
      exec (.diaryEvent code island arg) s = .next (event (code % 65536) (island % 32) (arg % 2 ^ 64) s)) ∧
    -- DIARY_EVENT
    (∀ (code : Nat) (island : Nat) (arg : Nat) (s : State),
      code % 65536 = 0 →
      exec (.diaryEvent code island arg) s = .next (s)) ∧
    -- TALLY_READ
    (∀ (b : Binding) (tag : Nat) (p : Packet) (s : State),
      s.cpi.packet b tag 0x0A03 = some p →
      p.cls ≠ 4 →
      Completes (.tallyRead b tag) s { trust := true, cpi := true, tally := true, corr := true, out := true } fun t =>
        Replied p .ok ([]) (fields [(8, s.tally.sweepNo), (4, s.tally.skew), (4, 0)] ++ (bitsOf 16 (p.param 2 2)).flatMap (fun c => ((s.tally.samples[16 * p.param 0 1 + c]?).map Sample.bytes).getD (fields [(6, 0), (1, 0), (1, c), (8, 0)]))) t) ∧
    -- TALLY_READ
    (∀ (b : Binding) (tag : Nat) (p : Packet) (s : State),
      s.cpi.packet b tag 0x0A03 = some p →
      p.cls = 4 →
      (bitsOf 16 (p.param 2 2)).any (fun c => !(compatCounters (p.param 0 1)).contains c) = true →
      Completes (.tallyRead b tag) s { trust := true, cpi := true, tally := true, corr := true, out := true } fun t =>
        Replied p .classDenied [] [] t) ∧
    -- TALLY_CONFIG
    (∀ (b : Binding) (tag : Nat) (p : Packet) (i : Nat) (s : State),
      s.cpi.packet b tag 0x0A04 = some p →
      i = 16 * p.param 0 1 + p.param 1 1 →
      tallyEventOk (p.param 0 1) (p.param 1 1) (p.param 2 2) = true →
      s.cpi.blocked [0x04000000 + i] (fun k => k.binding == some b && k.opcode == 0x0A04) = none →
      p.param 2 2 ≠ 0 →
      p.param 4 1 ≤ 1 →
      exec (.tallyConfig b tag) s = .next (changed p [] (claimAll [0x04000000 + i] 0x0A04 p.cls p.tag (some b) { s with
          tally := { s.tally with ctrs := putKey i { s.tally.ctr i with event := p.param 2 2, saturate := p.param 4 1 == 1, zeroDue := true } s.tally.ctrs } }))) ∧
    -- TALLY_SWEEP
    (∀ (s : State),
      s.tt.now % 4 = 0 →
      exec .tallySweep s = .next (tallyAdd 0x10 0 1 (sweep s))) ∧
    -- BW_WINDOW
    (∀ (b : Binding) (tag : Nat) (p : Packet) (s : State),
      s.cpi.packet b tag 0x0A05 = some p →
      s.cpi.blocked [0x02000000 + p.param 1 1] (fun _ => false) = none →
      Completes (.bwWindow b tag) s { trust := true, cpi := true, diary := true, tally := true, corr := true, out := true } fun t =>
        Replied p .ok [] [] t) ∧
    -- BW_WINDOW_START
    (∀ (timer : Nat) (w : BwWindow) (s : State),
      getKey timer s.tally.windows = some w →
      w.state = 1 →
      s.tt.now % 1024 = 0 →
      Completes (.bwWindowStart timer) s { tally := true } fun t =>
        t.tally.windows = putKey timer { w with state := 2, start := s.tt.now } s.tally.windows) ∧
    -- BW_WINDOW_END
    (∀ (timer : Nat) (bytesIn : Nat) (bytesOut : Nat) (w : BwWindow) (s : State),
      getKey timer s.tally.windows = some w →
      w.state = 2 →
      w.start + 1024 * w.days ≤ s.tt.now →
      Completes (.bwWindowEnd timer bytesIn bytesOut) s { cpi := true, tally := true } fun t =>
        t.tally.windows = putKey timer { w with state := 3, stop := s.tt.now, bytesIn := bytesIn % 2 ^ 64, bytesOut := bytesOut % 2 ^ 64 } s.tally.windows) ∧
    -- REPORT_CARD
    (∀ (b : Binding) (tag : Nat) (p : Packet) (s : State),
      s.cpi.packet b tag 0x0A06 = some p →
      Completes (.reportCard b tag) s { trust := true, cpi := true, tally := true, corr := true, out := true } fun t =>
        Replied p .ok ([]) (s.reportCard) t) ∧
    -- EARLY_WARNING_EVAL
    (∀ (bays : List (Nat × (Nat × (Nat × Int)))) (h : List WarnSample) (u : State) (s : State),
      s.tally.lastEval + 3600000000 ≤ s.clockUs →
      bays = s.ec.members.map (fun m => (m.bay, ((getKey m.bay s.tally.hourUnc).getD 0, ((getKey m.bay s.tally.hourMiss).getD 0,
      if ((getKey m.bay s.tally.hourTemp).getD (0, 0)).2 = 0 then (s.bay.bayOf m.bay).temp
      else ((getKey m.bay s.tally.hourTemp).getD (0, 0)).1 / ((getKey m.bay s.tally.hourTemp).getD (0, 0)).2)))) →
      h = ((⟨s.spareNow / 10, s.wearOf none, s.debtMib false, bays⟩ : WarnSample) :: s.tally.history).take 720 →
      u = { s with tally := { s.tally with history := h, hourUnc := [], hourMiss := [], hourTemp := [], lastEval := s.clockUs } } →
      (s.warnings h (s.clockSec / 3600)).all (fun w => !w.1) = true →
      exec .earlyWarningEval s = .next ((List.range 7).foldl (fun t bit => { t with
          tally := { t.tally with
            inactive := putKey bit ((getKey bit t.tally.inactive).getD 0 + 1) t.tally.inactive
            warnings := if 24 ≤ (getKey bit t.tally.inactive).getD 0 + 1 then clearBit bit t.tally.warnings else t.tally.warnings } }) u)) ∧
    -- HISTOGRAM_MINUTE
    (∀ (chip : Int) (s : State),
      Completes (.histogramMinute chip []) s { pins := true, tally := true } fun t =>
        t.tally.minutes = min (s.tally.minutes + 1) 0xFFFFFFFF ∧
        t.tally.chipHist = histAdd s.tally.chipHist (tempBin chip) ∧
        t.tally.modules = s.tally.modules)

/-- Engine lanes: faults, rotation and tests: what each command leaves, for every state and operands that meet the
premises written with it. LANE_FAULT (R26, R225), LANE_ROTATION (R529, R26), LANE_TEST_COMPLETE (R529). The model's
own choices that bear on these commands are log entries 14, 73. -/
def Obligations.LaneCommands : Prop :=
    -- LANE_FAULT
    (∀ (lane : LaneId) (s : State),
      laneOk lane = true →
      exec (.laneFault lane) s = .next (laneOut lane .failed s)) ∧
    -- LANE_ROTATION
    (∀ (lane : LaneId) (s : State),
      laneOk lane = true →
      s.lanes.turn (laneIsland lane) = lane →
      s.lanes.out.any (fun o => o.cause == .test && laneIsland o.lane == laneIsland lane) = false →
      (lane.spare = true ∨ s.lanes.freeSpares lane ≠ [] ∨ s.lanes.isOut lane = true) →
      exec (.laneRotation lane) s = .next (laneOut lane .test { s with
          lanes := { s.lanes with
            nextTest := putKey (laneIsland lane) ((getKey (laneIsland lane) s.lanes.nextTest).getD 0 + 1) s.lanes.nextTest
            lastTest := putKey (laneIsland lane) s.tt.now s.lanes.lastTest } })) ∧
    -- LANE_TEST_COMPLETE
    (∀ (lane : LaneId) (s : State),
      s.lanes.isOut lane = true →
      s.cpi.accepted.find? (fun p => p.opcode == 0x0802 && p.param 0 1 == laneIsland lane && laneOf lane.kind (p.param 1 1) == lane && s.lanes.isOut lane) = none →
      exec (.laneTestComplete lane true) s = .next (laneBack lane s)) ∧
    -- LANE_TEST_COMPLETE
    (∀ (lane : LaneId) (p : Packet) (s : State),
      s.lanes.isOut lane = true →
      s.cpi.accepted.find? (fun p => p.opcode == 0x0802 && p.param 0 1 == laneIsland lane && laneOf lane.kind (p.param 1 1) == lane && s.lanes.isOut lane) = some p →
      Completes (.laneTestComplete lane true) s { trust := true, cpi := true, diary := true, tally := true, tt := true, lanes := true, corr := true, out := true } fun t =>
        Replied p .ok (fields [(1, 0), (7, 0)]) [] t ∧
        t.lanes.out = s.lanes.out.filter (fun o => o.lane != lane))

/-- The DRAM controller: what each command leaves, for every state and operands that meet the premises written with it.
DRAM_REFRESH_TICK (R567, R564), DIMM_TEMP_READ (R568, R573), DRAM_SELF_REFRESH_IDLE (R569), DRAM_CORRECTED (R571,
R573), DRAM_UNCORRECTABLE (R572, R573), DRAM_SCRUB (R571), DRAM_CHANNEL_OUT (R573, R578), DRAM_CHANNEL_DEAD (R574),
DRAM_EVAC_COPY_DONE (R578), DRAM_TRAINING_DONE (R575, R554, R573, R576, R578). The model's own choices that bear on
these commands are log entries 44, 45, 87. -/
def Obligations.DramCommands : Prop :=
    -- DRAM_REFRESH_TICK
    (∀ (channel : Nat) (rank : Nat) (sub : Nat) (c : Channel) (debt after : Nat) (s : State),
      c = s.dram.ch channel →
      c.up = true →
      c.selfRefresh = false →
      debt = (getKey (rank * 2 + sub % 2) c.debts).getD 0 →
      after = debtAfter debt →
      exec (.dramRefreshTick channel rank sub) s = .next (serveSlots channel (tallyAdd 0x0E 3 (debt + 1 - after) (setChannel channel { c with
          debts := putKey (rank * 2 + sub % 2) after c.debts
          banks := if after = 4 ∧ debt = 7 then (c.refresh (rank * 2 + sub % 2)).banks else c.banks } s)))) ∧
    -- DIMM_TEMP_READ
    (∀ (channel : Nat) (temp : Int) (c : Channel) (s : State),
      c = s.dram.ch channel →
      c.up = true →
      s.tt.now % 64 = 0 →
      temp ≤ 85 →
      c.refsb = false →
      exec (.dimmTempRead channel temp) s = .next (setChannel channel { c with temp := temp } s)) ∧
    -- DRAM_SELF_REFRESH_IDLE
    (∀ (channel : Nat) (s : State),
      (s.dram.ch channel).state = .inService →
      (s.dram.ch channel).windows.all (fun w => w.2 == 0) = true →
      100 * s.dram.srIdle ≤ 16 * (s.tt.now - (s.dram.ch channel).lastUse) →
      (s.dram.ch channel).banks.all (fun b => b.2.bursts.isEmpty) = true →
      exec (.dramSelfRefreshIdle channel) s = .next (setChannel channel { s.dram.ch channel with selfRefresh := true } s)) ∧
    -- DRAM_CORRECTED
    (∀ (channel : Nat) (rank : Nat) (device : Nat) (c : Channel) (l : List Nat) (s : State),
      c = s.dram.ch channel →
      l = noteCorrected s.clockUs ((getKey (rank * 20 + device % 20) c.devices).getD []) →
      tooManyCorrected s.clockUs l = false →
      exec (.dramCorrected channel rank device) s = .next (tallyAdd 0x0E 4 1 (setChannel channel { c with
          corr := min (c.corr + 1) (2 ^ 48 - 1)
          lastDevice := device % 20
          lastRank := rank % 4
          devices := putKey (rank * 20 + device % 20) l c.devices } s))) ∧
    -- DRAM_UNCORRECTABLE
    (∀ (channel : Nat) (hpa : Nat) (s : State),
      exec (.dramUncorrectable channel hpa .other) s = .next (tallyAdd 0x0E 5 1 (event 0xC002 (channelIsland channel) (argOf [(0, hpa % 2 ^ 48)]) { setChannel channel { s.dram.ch channel with
          uncorr := min ((s.dram.ch channel).uncorr + 1) 255
          cause := if (s.dram.ch channel).state == .inService then some .uncorrectable else (s.dram.ch channel).cause
          outDue := (s.dram.ch channel).outDue || (s.dram.ch channel).state == .inService } s with
          dram := { (setChannel channel { s.dram.ch channel with
            uncorr := min ((s.dram.ch channel).uncorr + 1) 255
            cause := if (s.dram.ch channel).state == .inService then some .uncorrectable else (s.dram.ch channel).cause
            outDue := (s.dram.ch channel).outDue || (s.dram.ch channel).state == .inService } s).dram with
            eccValid := true
            eccHpa := hpa % 2 ^ 48 } }))) ∧
    -- DRAM_SCRUB
    (∀ (channel : Nat) (s : State),
      (s.dram.ch channel).up = true →
      (s.dram.ch channel).scrubbed + 86400 ≤ s.clockSec →
      exec (.dramScrub channel) s = .next (setChannel channel { s.dram.ch channel with scrubbed := s.clockSec } s)) ∧
    -- DRAM_CHANNEL_OUT
    (∀ (channel : Nat) (c : Channel) (u : State) (s : State),
      c = s.dram.ch channel →
      c.outDue = true →
      c.state = .inService →
      s.dram.evacPhase = .none →
      s.dram.evacNext = none →
      channel < 16 →
      c.cause ≠ c.lastCause →
      u = setChannel channel { c with outDue := false } s →
      exec (.dramChannelOut channel) s = .next (trigger true 3 channel { u with dram := { u.dram with evacNext := some (channel, true) } })) ∧
    -- DRAM_CHANNEL_DEAD
    (∀ (channel : Nat) (c : Channel) (u : State) (s : State),
      c = s.dram.ch channel →
      c.up = true →
      u = channelEvent channel (setChannel channel { c with state := .failed } s) →
      u.paired = false →
      u.pwr.stage ≠ .service →
      exec (.dramChannelDead channel) s = .next ({ u with pwr := { u.pwr with restartDue := true } })) ∧
    -- DRAM_EVAC_COPY_DONE
    (∀ (channel : Nat) (s : State),
      s.dram.evacChannel = channel →
      s.dram.evacPhase = .copyingOut →
      s.dram.evacRetrain = false →
      s.dram.copyUnits ≤ s.dram.evacDone →
      exec (.dramEvacCopyDone channel) s = .next (channelEvent channel (setChannel channel { s.dram.ch channel with state := .out, selfRefresh := true } { s with
          dram := { s.dram with evacPhase := .out } }))) ∧
    -- DRAM_EVAC_COPY_DONE
    (∀ (channel : Nat) (s : State),
      s.dram.evacChannel = channel →
      s.dram.evacPhase = .copyingHome →
      s.dram.copyUnits ≤ s.dram.evacDone →
      exec (.dramEvacCopyDone channel) s = .next (channelHome channel s)) ∧
    -- DRAM_TRAINING_DONE
    (∀ (channel : Nat) (s : State),
      (s.dram.ch channel).state = .training →
      s.dram.evacPhase ≠ .out →
      exec (.dramTrainingDone channel true) s = .next (bringUpProgress (channelEvent channel (setChannel channel { s.dram.ch channel with
          state := .inService, rate := s.dram.trainRate channel } s)))) ∧
    -- DRAM_TRAINING_DONE
    (∀ (channel : Nat) (s : State),
      (s.dram.ch channel).state = .training →
      s.dram.evacPhase = .out →
      s.dram.evacChannel = channel →
      exec (.dramTrainingDone channel true) s = .next (channelEvent channel (setChannel channel { s.dram.ch channel with state := .copyingHome, rate := s.dram.trainRate channel } { s with
          dram := { s.dram with evacPhase := .copyingHome, evacDone := 0 } })))

/-- Pins, LEDs, SMBus and the test port: what each command leaves, for every state and operands that meet the premises
written with it. PIN_FAULT_DETECT (R631, R632), PIN_OPEN_TEST (R631), PIN_FAULT_CLEAR (R631), PIN_DRIVE_RESTORED
(R631), FP_LOCATE (R630), SMBUS_READ (R627), TAP_BYPASS (R625), TAP_IDCODE (R625), TAP_SAMPLE_PRELOAD (R625),
TAP_EXTEST (R625), TAP_EXTEST_PULSE (R625), TAP_EXTEST_TRAIN (R625), TAP_CLAMP (R625), TAP_HIGHZ (R625). The model's
own choices that bear on these commands are log entries 43, 46, 77, 92. -/
def Obligations.PinAndTestPortCommands : Prop :=
    -- PIN_FAULT_DETECT
    (∀ (pin : Nat) (kind : PinFaultKind) (s : State),
      pin ≤ 330 →
      exec (.pinFaultDetect pin kind) s = .next (pinAction pin (pinFound pin kind s))) ∧
    -- PIN_OPEN_TEST
    (∀ (pin : Nat) (s : State),
      pin ≤ 330 →
      (s.pins.pin pin).driven = false →
      exec (.pinOpenTest pin true false) s = .next (pinFound pin .isOpen s)) ∧
    -- PIN_OPEN_TEST
    (∀ (pin : Nat) (s : State),
      pin ≤ 330 →
      (s.pins.pin pin).driven = false →
      exec (.pinOpenTest pin false false) s = .next (updPin pin { s.pins.pin pin with badTests := 0, goodTests := (s.pins.pin pin).goodTests + 1 } s)) ∧
    -- PIN_OPEN_TEST
    (∀ (pin : Nat) (follows : Bool) (s : State),
      exec (.pinOpenTest pin follows true) s = .next (s)) ∧
    -- PIN_FAULT_CLEAR
    (∀ (pin : Nat) (s : State),
      (s.pins.pin pin).fault = .isOpen →
      (s.pins.pin pin).clamped = false →
      64 ≤ (s.pins.pin pin).goodTests →
      pin ≠ 256 →
      exec (.pinFaultClear pin) s = .next (updPin pin { s.pins.pin pin with fault := .sound, badTests := 0, goodTests := 0, level := clearedLevel pin (s.pins.pin pin) } s)) ∧
    -- PIN_DRIVE_RESTORED
    (∀ (pin : Nat) (s : State),
      (s.pins.pin pin).clamped = true →
      exec (.pinDriveRestored pin) s = .next (updPin pin { s.pins.pin pin with clamped := false, driven := isOutputPin pin && !isLed pin, since := s.day } s)) ∧
    -- FP_LOCATE
    (∀ (s : State),
      s.pins.faulty 263 = false →
      Completes .fpLocate s { pins := true } fun t =>
        t.pins.locate = !s.pins.locate) ∧
    -- SMBUS_READ
    (∀ (reg : Nat) (s : State),
      s.pwr.stage ≠ .off →
      s.pwr.stage ≠ .aonOnly →
      Completes (.smbusRead reg) s { out := true } fun t =>
        t.out = s.out ++ [.smbusByte (smbusRegister reg s)]) ∧
    -- TAP_BYPASS
    (∀ (s : State),
      Completes .tapBypass s { pins := true, out := true } fun t =>
        t.pins.tap = .bypass ∧
        t.out = s.out ++ [.tapAnswer .bypass 0]) ∧
    -- TAP_IDCODE
    (∀ (s : State),
      Completes .tapIdcode s { pins := true, out := true } fun t =>
        t.pins.tap = .idcode ∧
        t.out = s.out ++ [.tapAnswer .idcode 0x0B2D6A3B]) ∧
    -- TAP_SAMPLE_PRELOAD
    (∀ (s : State),
      Completes .tapSamplePreload s { pins := true, out := true, draws := true } fun t =>
        t.pins.tap = .samplePreload ∧
        t.out = s.out ++ [.tapAnswer .samplePreload s.free]) ∧
    -- TAP_EXTEST
    (∀ (s : State),
      coldHeld s = true →
      Completes .tapExtest s { pins := true, out := true } fun t =>
        t.pins.tap = .extest ∧
        t.out = s.out ++ [.tapAnswer .extest 0]) ∧
    -- TAP_EXTEST
    (∀ (s : State),
      coldHeld s = false →
      Completes .tapExtest s { pins := true, out := true } fun t =>
        t.pins.tap = .bypass ∧
        t.out = s.out ++ [.tapAnswer .bypass 0]) ∧
    -- TAP_EXTEST_PULSE
    (∀ (s : State),
      coldHeld s = true →
      Completes .tapExtestPulse s { pins := true, out := true } fun t =>
        t.pins.tap = .extestPulse) ∧
    -- TAP_EXTEST_PULSE
    (∀ (s : State),
      coldHeld s = false →
      Completes .tapExtestPulse s { pins := true, out := true } fun t =>
        t.pins.tap = .bypass) ∧
    -- TAP_EXTEST_TRAIN
    (∀ (s : State),
      coldHeld s = true →
      Completes .tapExtestTrain s { pins := true, out := true } fun t =>
        t.pins.tap = .extestTrain) ∧
    -- TAP_CLAMP
    (∀ (s : State),
      coldHeld s = true →
      Completes .tapClamp s { pins := true, out := true } fun t =>
        t.pins.tap = .clamp) ∧
    -- TAP_HIGHZ
    (∀ (s : State),
      coldHeld s = true →
      Completes .tapHighz s { pins := true, out := true } fun t =>
        t.pins.tap = .highz) ∧
    -- TAP_HIGHZ
    (∀ (s : State),
      coldHeld s = false →
      Completes .tapHighz s { pins := true, out := true } fun t =>
        t.pins.tap = .bypass)

/-- Register writes and the commands of no other group: what each command leaves, for every state and operands that meet
the premises written with it. REGISTER_WRITE (R16, R17), CNP_RECEIVED (R88), ROSTER_RECEIVED (R494),
DELETE_TICKET_HOLD_END (R441), MGMT_PERST (R622), CORRIDOR_MESSAGE_DROP (R472, R143). The model's own choices that
bear on these commands are log entries 12, 13, 23. -/
def Obligations.RegisterAndOtherCommands : Prop :=
    -- REGISTER_WRITE
    (∀ (value : Word64) (s : State),
      Completes (.registerWrite 0x0B 0 value) s { pwr := true, pins := true, dram := true, diary := true, tally := true, ec := true, bay := true } fun t =>
        t.ec.sel = value.toNat % 64) ∧
    -- REGISTER_WRITE
    (∀ (value : Word64) (s : State),
      Completes (.registerWrite 0x0C 0 value) s { pwr := true, pins := true, dram := true, diary := true, tally := true, ec := true, bay := true } fun t =>
        t.bay.sel = value.toNat % 64) ∧
    -- REGISTER_WRITE
    (∀ (value : Word64) (s : State),
      Completes (.registerWrite 0x0E 0x08 value) s { pwr := true, pins := true, dram := true, diary := true, tally := true, ec := true, bay := true } fun t =>
        t.dram.chSel = value.toNat % 16) ∧
    -- REGISTER_WRITE
    (∀ (value : Word64) (s : State),
      Completes (.registerWrite 0x0F 0x10 value) s { pwr := true, pins := true, dram := true, diary := true, tally := true, ec := true, bay := true } fun t =>
        t.diary.cursor = value.toNat) ∧
    -- REGISTER_WRITE
    (∀ (value : Word64) (s : State),
      exec (.registerWrite 0x0F 0x18 value) s = .next (if bitAt 0 value.toNat then freezeDiary s else thawDiary 2 s)) ∧
    -- REGISTER_WRITE
    (∀ (value : Word64) (s : State),
      Completes (.registerWrite 0x10 0x08 value) s { pwr := true, pins := true, dram := true, diary := true, tally := true, ec := true, bay := true } fun t =>
        t.tally.bwSel = value.toNat % 16) ∧
    -- REGISTER_WRITE
    (∀ (value : Word64) (s : State),
      Completes (.registerWrite 0x11 0 value) s { pwr := true, pins := true, dram := true, diary := true, tally := true, ec := true, bay := true } fun t =>
        t.pwr.tripped = cleared s.pwr.tripped (value.toNat / 2 ^ 32) 9) ∧
    -- REGISTER_WRITE
    (∀ (value : Word64) (s : State),
      Completes (.registerWrite 0x12 0 value) s { pwr := true, pins := true, dram := true, diary := true, tally := true, ec := true, bay := true } fun t =>
        t.pwr.refsLost = cleared s.pwr.refsLost (value.toNat / 2 ^ 8) 4) ∧
    -- REGISTER_WRITE
    (∀ (value : Word64) (s : State),
      Completes (.registerWrite 0x12 0x08 value) s { pwr := true, pins := true, dram := true, diary := true, tally := true, ec := true, bay := true } fun t =>
        t.pwr.clkSel = value.toNat % 32) ∧
    -- REGISTER_WRITE
    (∀ (value : Word64) (s : State),
      Completes (.registerWrite 0x13 0 value) s { pwr := true, pins := true, dram := true, diary := true, tally := true, ec := true, bay := true } fun t =>
        t.pins.sel = value.toNat % 512) ∧
    -- REGISTER_WRITE
    (∀ (window : Nat) (value : Word64) (s : State),
      exec (.registerWrite window 0x20 value) s = .next (s)) ∧
    -- CNP_RECEIVED
    (∀ (cntlid : Nat) (qid : Nat) (q : Queue) (s : State),
      s.hq.queue cntlid qid = some q →
      Completes (.cnpReceived cntlid qid) s { hq := true, draws := true } fun t =>
        t.hq.cnps = s.hq.cnps.filter (fun c => !(c.1 == cntlid && c.2.1 == qid)) ++ [(cntlid, (qid, s.free % max 1 (s.hq.rateOf cntlid qid)))]) ∧
    -- ROSTER_RECEIVED
    (∀ (roster : Bytes) (s : State),
      s.rosterRefusal roster = none →
      exec (.rosterReceived roster) s = .next (adoptRoster roster s)) ∧
    -- DELETE_TICKET_HOLD_END
    (∀ (until_ : Nat) (s : State),
      s.trust.holdEnd = some until_ →
      until_ ≤ s.trust.oscNs →
      Completes .deleteTicketHoldEnd s { trust := true } fun t =>
        t.trust.holdEnd = none) ∧
    -- MGMT_PERST
    (∀ (s : State),
      Completes .mgmtPerst s { cpi := true } fun t =>
        t.cpi.cpiArea = none ∧
        t.cpi.pfmArea = none) ∧
    -- CORRIDOR_MESSAGE_DROP
    (∀ (k : Nat × Nat) (s : State),
      reservedMessage k.1 k.2 = true →
      exec (.corridorMessageDrop (some k)) s = .next (corrEvent 5 s)) ∧
    -- CORRIDOR_MESSAGE_DROP
    (∀ (s : State),
      exec (.corridorMessageDrop none) s = .next (tallyAdd 0x0D 2 1 s))
end

