-- ==== Sys2Proof/Laws/Frames.lean ====
section
/-! SUPPORT. The ledger of an operation: the fuses only gain, the Diary stays within its bounds, and of the blocks of State only
those named change. These are its laws: it composes, and every update of a record of State has one. -/

set_option Elab.async false
set_option linter.all false

namespace Sys2Proof.Machine

theorem FusesGrow.refl (a : Fuses) : FusesGrow a a :=
  ⟨Nat.le_refl _, Nat.le_refl _, Nat.le_refl _, Nat.le_refl _, Nat.le_refl _, fun _ h => h, fun _ _ h => h, fun h => h⟩

theorem FusesGrow.trans {a b c : Fuses} (h : FusesGrow a b) (g : FusesGrow b c) : FusesGrow a c :=
  ⟨Nat.le_trans h.1 g.1, Nat.le_trans h.2 g.2, Nat.le_trans h.3 g.3, Nat.le_trans h.4 g.4, Nat.le_trans h.5 g.5, fun n x => g.6 n (h.6 n x),
    fun n d x => g.7 n d (h.7 n d x), fun x => g.8 (h.8 x)⟩

/-- Everything that is told of a command or of an operation it is built from: from `s` to `t` the fuses only gain, the Diary
stays within its bounds, and only the blocks of `P` change. -/
structure Led (P : Touch) (s t : State) : Prop where
  fuses : FusesGrow s.trust.fuses t.trust.fuses
  diary : DiaryOk s.diary → DiaryOk t.diary
  only : OnlyChanges P s t

theorem either {α : Type} {b : Prop} {x y z : α} (h : b ∨ y = x) (g : b ∨ z = y) : b ∨ z = x := by
  rcases h with h | rfl
  · exact .inl h
  · exact g

theorem pick {α : Type} {b : Bool} {x y : α} (h : @Bool.rec (fun _ => α) x y b = y) : b = true ∨ x = y := by
  cases b
  · exact .inr h
  · exact .inl rfl

theorem wider {a b : Bool} {c : Prop} (w : (!a || b) = true) (h : a = true ∨ c) : b = true ∨ c := by
  rcases h with rfl | h
  · exact .inl w
  · exact .inr h

theorem wider2 {a b c : Bool} (h : (!a || b) = true) (g : (!b || c) = true) : (!a || c) = true := by
  revert h g; cases a <;> cases b <;> simp

theorem OnlyChanges.refl (P : Touch) (s : State) : OnlyChanges P s s :=
  ⟨rfl, .inr rfl, .inr rfl, .inr rfl, .inr rfl, .inr rfl, .inr rfl, .inr rfl, .inr rfl, .inr rfl, .inr rfl, .inr rfl, .inr rfl, .inr rfl, .inr rfl, .inr rfl, .inr rfl, .inr rfl, .inr rfl, .inr rfl, .inr rfl, .inr rfl, .inr rfl, .inr rfl, .inr rfl, .inr rfl⟩

theorem OnlyChanges.trans {P : Touch} {s t u : State} (h : OnlyChanges P s t) (g : OnlyChanges P t u) : OnlyChanges P s u :=
  ⟨g.pending.trans h.pending, either h.sys g.sys, either h.pwr g.pwr, either h.pins g.pins, either h.dram g.dram, either h.trust g.trust, either h.cpi g.cpi, either h.diary g.diary, either h.tally g.tally, either h.tt g.tt, either h.lanes g.lanes, either h.stg g.stg, either h.ddp g.ddp, either h.ftl g.ftl, either h.ec g.ec, either h.bay g.bay, either h.pool g.pool, either h.saved g.saved, either h.ciph g.ciph, either h.skx g.skx, either h.jobs g.jobs, either h.hq g.hq, either h.repl g.repl, either h.corr g.corr, either h.out g.out, either h.draws g.draws⟩

/-- What `Q` allows `P` allows, where `Q` is within `P`. -/
theorem OnlyChanges.mono {P Q : Touch} {s t : State} (h : OnlyChanges Q s t) (hw : Q.within P = true) : OnlyChanges P s t := by
  simp only [Touch.within, Bool.and_eq_true] at hw
  obtain ⟨wsys, wpwr, wpins, wdram, wtrust, wcpi, wdiary, wtally, wtt, wlanes, wstg, wddp, wftl, wec, wbay, wpool, wsaved, wciph, wskx, wjobs, whq, wrepl, wcorr, wout, wdraws⟩ := hw
  exact ⟨h.pending, wider wsys h.sys, wider wpwr h.pwr, wider wpins h.pins, wider wdram h.dram, wider wtrust h.trust, wider wcpi h.cpi, wider wdiary h.diary, wider wtally h.tally, wider wtt h.tt, wider wlanes h.lanes, wider wstg h.stg, wider wddp h.ddp, wider wftl h.ftl, wider wec h.ec, wider wbay h.bay, wider wpool h.pool, wider wsaved h.saved, wider wciph h.ciph, wider wskx h.skx, wider wjobs h.jobs, wider whq h.hq, wider wrepl h.repl, wider wcorr h.corr, wider wout h.out, wider wdraws h.draws⟩

theorem Touch.holds {P Q : Touch} (h : P.within Q = true) : P.within Q = true := h

theorem Touch.within_trans {P Q R : Touch} (h : P.within Q = true) (g : Q.within R = true) : P.within R = true := by
  simp only [Touch.within, Bool.and_eq_true] at *
  exact ⟨wider2 h.1 g.1, wider2 h.2.1 g.2.1, wider2 h.2.2.1 g.2.2.1, wider2 h.2.2.2.1 g.2.2.2.1, wider2 h.2.2.2.2.1 g.2.2.2.2.1, wider2 h.2.2.2.2.2.1 g.2.2.2.2.2.1, wider2 h.2.2.2.2.2.2.1 g.2.2.2.2.2.2.1, wider2 h.2.2.2.2.2.2.2.1 g.2.2.2.2.2.2.2.1, wider2 h.2.2.2.2.2.2.2.2.1 g.2.2.2.2.2.2.2.2.1, wider2 h.2.2.2.2.2.2.2.2.2.1 g.2.2.2.2.2.2.2.2.2.1, wider2 h.2.2.2.2.2.2.2.2.2.2.1 g.2.2.2.2.2.2.2.2.2.2.1, wider2 h.2.2.2.2.2.2.2.2.2.2.2.1 g.2.2.2.2.2.2.2.2.2.2.2.1, wider2 h.2.2.2.2.2.2.2.2.2.2.2.2.1 g.2.2.2.2.2.2.2.2.2.2.2.2.1, wider2 h.2.2.2.2.2.2.2.2.2.2.2.2.2.1 g.2.2.2.2.2.2.2.2.2.2.2.2.2.1, wider2 h.2.2.2.2.2.2.2.2.2.2.2.2.2.2.1 g.2.2.2.2.2.2.2.2.2.2.2.2.2.2.1, wider2 h.2.2.2.2.2.2.2.2.2.2.2.2.2.2.2.1 g.2.2.2.2.2.2.2.2.2.2.2.2.2.2.2.1, wider2 h.2.2.2.2.2.2.2.2.2.2.2.2.2.2.2.2.1 g.2.2.2.2.2.2.2.2.2.2.2.2.2.2.2.2.1, wider2 h.2.2.2.2.2.2.2.2.2.2.2.2.2.2.2.2.2.1 g.2.2.2.2.2.2.2.2.2.2.2.2.2.2.2.2.2.1, wider2 h.2.2.2.2.2.2.2.2.2.2.2.2.2.2.2.2.2.2.1 g.2.2.2.2.2.2.2.2.2.2.2.2.2.2.2.2.2.2.1, wider2 h.2.2.2.2.2.2.2.2.2.2.2.2.2.2.2.2.2.2.2.1 g.2.2.2.2.2.2.2.2.2.2.2.2.2.2.2.2.2.2.2.1, wider2 h.2.2.2.2.2.2.2.2.2.2.2.2.2.2.2.2.2.2.2.2.1 g.2.2.2.2.2.2.2.2.2.2.2.2.2.2.2.2.2.2.2.2.1, wider2 h.2.2.2.2.2.2.2.2.2.2.2.2.2.2.2.2.2.2.2.2.2.1 g.2.2.2.2.2.2.2.2.2.2.2.2.2.2.2.2.2.2.2.2.2.1, wider2 h.2.2.2.2.2.2.2.2.2.2.2.2.2.2.2.2.2.2.2.2.2.2.1 g.2.2.2.2.2.2.2.2.2.2.2.2.2.2.2.2.2.2.2.2.2.2.1, wider2 h.2.2.2.2.2.2.2.2.2.2.2.2.2.2.2.2.2.2.2.2.2.2.2.1 g.2.2.2.2.2.2.2.2.2.2.2.2.2.2.2.2.2.2.2.2.2.2.2.1, wider2 h.2.2.2.2.2.2.2.2.2.2.2.2.2.2.2.2.2.2.2.2.2.2.2.2 g.2.2.2.2.2.2.2.2.2.2.2.2.2.2.2.2.2.2.2.2.2.2.2.2⟩

theorem Led.refl (P : Touch) (s : State) : Led P s s := ⟨.refl _, id, .refl _ _⟩

theorem Led.trans {P : Touch} {s t u : State} (h : Led P s t) (g : Led P t u) : Led P s u :=
  ⟨h.fuses.trans g.fuses, fun x => g.diary (h.diary x), h.only.trans g.only⟩

theorem Led.mono {P Q : Touch} {s t : State} (h : Led Q s t) (hw : Q.within P = true) : Led P s t :=
  ⟨h.fuses, h.diary, h.only.mono hw⟩

/-- An operation that stays within `Q` leads on from whatever `P` has led to. -/
theorem Led.lift {P Q : Touch} {s t u : State} (h : Led P s t) (hw : Q.within P = true) (g : Led Q t u) : Led P s u :=
  h.trans (g.mono hw)

theorem Led.keeps {P : Touch} {s t : State} (h : Led P s t) : Keeps s t := ⟨h.only.pending, h.fuses, h.diary⟩

/-- The blocks of a record update: each is one of `P` or is as it was. -/
structure Framed (P : Touch) (t : State) (sys : Sys) (pwr : Pwr) (pins : Pins) (dram : Dram) (trust : Trust) (cpi : Cpi) (tally : Tally) (tt : Tt) (lanes : Lanes) (stg : Stg) (ddp : Ddp) (ftl : Ftl) (ec : Ec) (bay : Bays) (pool : Option Pool) (saved : Saved) (ciph : Ciph) (skx : Skx) (jobs : Jobs) (hq : Hq) (repl : Repl) (corr : Corr) (out : List Output) (draws : Nat) : Prop where
  wsys : @Bool.rec (fun _ => Sys) sys t.sys P.sys = t.sys
  wpwr : @Bool.rec (fun _ => Pwr) pwr t.pwr P.pwr = t.pwr
  wpins : @Bool.rec (fun _ => Pins) pins t.pins P.pins = t.pins
  wdram : @Bool.rec (fun _ => Dram) dram t.dram P.dram = t.dram
  wtrust : @Bool.rec (fun _ => Trust) trust t.trust P.trust = t.trust
  wcpi : @Bool.rec (fun _ => Cpi) cpi t.cpi P.cpi = t.cpi
  wtally : @Bool.rec (fun _ => Tally) tally t.tally P.tally = t.tally
  wtt : @Bool.rec (fun _ => Tt) tt t.tt P.tt = t.tt
  wlanes : @Bool.rec (fun _ => Lanes) lanes t.lanes P.lanes = t.lanes
  wstg : @Bool.rec (fun _ => Stg) stg t.stg P.stg = t.stg
  wddp : @Bool.rec (fun _ => Ddp) ddp t.ddp P.ddp = t.ddp
  wftl : @Bool.rec (fun _ => Ftl) ftl t.ftl P.ftl = t.ftl
  wec : @Bool.rec (fun _ => Ec) ec t.ec P.ec = t.ec
  wbay : @Bool.rec (fun _ => Bays) bay t.bay P.bay = t.bay
  wpool : @Bool.rec (fun _ => Option Pool) pool t.pool P.pool = t.pool
  wsaved : @Bool.rec (fun _ => Saved) saved t.saved P.saved = t.saved
  wciph : @Bool.rec (fun _ => Ciph) ciph t.ciph P.ciph = t.ciph
  wskx : @Bool.rec (fun _ => Skx) skx t.skx P.skx = t.skx
  wjobs : @Bool.rec (fun _ => Jobs) jobs t.jobs P.jobs = t.jobs
  whq : @Bool.rec (fun _ => Hq) hq t.hq P.hq = t.hq
  wrepl : @Bool.rec (fun _ => Repl) repl t.repl P.repl = t.repl
  wcorr : @Bool.rec (fun _ => Corr) corr t.corr P.corr = t.corr
  wout : @Bool.rec (fun _ => List Output) out t.out P.out = t.out
  wdraws : @Bool.rec (fun _ => Nat) draws t.draws P.draws = t.draws

/-- A record update within `P` that leaves the queue, the fuses and the Diary. -/
theorem Led.record {P : Touch} {s t : State} (h : Led P s t) {sys pwr pins dram trust cpi tally tt lanes stg ddp ftl ec bay pool saved ciph skx jobs hq repl corr out draws}
    (ht : trust.fuses = t.trust.fuses)
    (hp : Framed P t sys pwr pins dram trust cpi tally tt lanes stg ddp ftl ec bay pool saved ciph skx jobs hq repl corr out draws := by
      with_reducible exact ⟨rfl, rfl, rfl, rfl, rfl, rfl, rfl, rfl, rfl, rfl, rfl, rfl, rfl, rfl, rfl, rfl, rfl, rfl, rfl, rfl, rfl, rfl, rfl, rfl⟩) :
    Led P s ⟨sys, pwr, pins, dram, trust, cpi, t.diary, tally, tt, lanes, stg, ddp, ftl, ec, bay, pool, saved, ciph, skx, jobs, hq, repl, corr, out, draws, t.pending⟩ := by
  obtain ⟨psys, ppwr, ppins, pdram, ptrust, pcpi, ptally, ptt, planes, pstg, pddp, pftl, pec, pbay, ppool, psaved, pciph, pskx, pjobs, phq, prepl, pcorr, pout, pdraws⟩ := hp
  exact h.trans ⟨by simpa only [ht] using FusesGrow.refl _, id,
    ⟨rfl, pick psys, pick ppwr, pick ppins, pick pdram, pick ptrust, pick pcpi, .inr rfl, pick ptally, pick ptt, pick planes, pick pstg, pick pddp, pick pftl, pick pec, pick pbay, pick ppool, pick psaved, pick pciph, pick pskx, pick pjobs, pick phq, pick prepl, pick pcorr, pick pout, pick pdraws⟩⟩

/-- An outcome whose next state keeps. -/
def LedO (P : Touch) (s : State) (o : Host.Outcome State Fault Refusal) : Prop := ∀ u, o = .next u → Led P s u

/-- A state that may be there keeps. -/
def LedOpt (P : Touch) (s : State) (o : Option State) : Prop := ∀ u, o = some u → Led P s u

/-- A state beside a value that may be there keeps. -/
def LedPair {α : Type} (P : Touch) (s : State) (o : Option (State × α)) : Prop := ∀ p, o = some p → Led P s p.1

/-- A state or a refusal: the state keeps. -/
def LedSum {α : Type} (P : Touch) (s : State) (o : State ⊕ α) : Prop := ∀ u, o = .inl u → Led P s u

theorem LedO.next {P : Touch} {s t : State} (h : Led P s t) : LedO P s (.next t) := fun _ e => by cases e; exact h
theorem LedOpt.none {P : Touch} {s : State} : LedOpt P s .none := fun _ e => by cases e
theorem LedOpt.some {P : Touch} {s t : State} (h : Led P s t) : LedOpt P s (.some t) := fun _ e => by cases e; exact h
theorem LedPair.none {α : Type} {P : Touch} {s : State} : LedPair (α := α) P s .none := fun _ e => by cases e
theorem LedPair.some {α : Type} {P : Touch} {s : State} {p : State × α} (h : Led P s p.1) : LedPair P s (.some p) := fun _ e => by cases e; exact h
theorem LedSum.inl {α : Type} {P : Touch} {s t : State} (h : Led P s t) : LedSum (α := α) P s (.inl t) := fun _ e => by cases e; exact h
theorem LedSum.inr {α : Type} {P : Touch} {s : State} {a : α} : LedSum P s (.inr a) := fun _ e => by cases e
theorem Led.ofFst {α : Type} {P : Touch} {s u : State} {a : α} {p : State × α} (e : p = (u, a)) (h : Led P s p.1) : Led P s u := by subst e; exact h
theorem Led.ofSnd {α : Type} {P : Touch} {s u : State} {a : α} {p : α × State} (e : p = (a, u)) (h : Led P s p.2) : Led P s u := by subst e; exact h
theorem Led.ofSome {P : Touch} {s u : State} {o : Option State} (e : o = .some u) (h : LedOpt P s o) : Led P s u := h _ e
theorem Led.ofPair {α : Type} {P : Touch} {s u : State} {a : α} {o : Option (State × α)} (e : o = .some (u, a)) (h : LedPair P s o) : Led P s u := h _ e
theorem Led.ofInl {α : Type} {P : Touch} {s u : State} {o : State ⊕ α} (e : o = .inl u) (h : LedSum P s o) : Led P s u := h _ e

/-- A fold whose steps keep keeps. -/
theorem Led.foldl {α : Type} {P : Touch} {s t : State} {f : State → α → State} {l : List α} (h : Led P s t)
    (hf : ∀ u a, Led P s u → Led P s (f u a)) : Led P s (l.foldl f t) := by
  induction l generalizing t with
  | nil => exact h
  | cons a l ih => exact ih (hf _ _ h)

theorem Led.foldlFst {α β : Type} {P : Touch} {s : State} {p : State × β} {f : State × β → α → State × β} {l : List α} (h : Led P s p.1)
    (hf : ∀ u b a, Led P s u → Led P s (f (u, b) a).1) : Led P s (l.foldl f p).1 := by
  induction l generalizing p with
  | nil => exact h
  | cons a l ih => exact ih (hf _ _ _ h)

theorem Led.foldlSnd {α β : Type} {P : Touch} {s : State} {p : β × State} {f : β × State → α → β × State} {l : List α} (h : Led P s p.2)
    (hf : ∀ b u a, Led P s u → Led P s (f (b, u) a).2) : Led P s (l.foldl f p).2 := by
  induction l generalizing p with
  | nil => exact h
  | cons a l ih => exact ih (hf _ _ _ h)

theorem Led.getD {P : Touch} {s t : State} {o : Option State} (ho : LedOpt P s o) (h : Led P s t) : Led P s (o.getD t) := by
  cases o with
  | none => exact h
  | some u => exact ho u rfl

theorem LedOpt.bind {P : Touch} {s : State} {o : Option State} {f : State → Option State} (ho : LedOpt P s o)
    (hf : ∀ u, Led P s u → LedOpt P s (f u)) : LedOpt P s (o.bind f) := by
  cases o with
  | none => exact LedOpt.none
  | some u => exact hf u (ho u rfl)

theorem LedOpt.map {P : Touch} {s : State} {o : Option State} {f : State → State} (ho : LedOpt P s o)
    (hf : ∀ u, Led P s u → Led P s (f u)) : LedOpt P s (o.map f) := by
  cases o with
  | none => exact LedOpt.none
  | some u => exact LedOpt.some (hf u (ho u rfl))

theorem fst_mk {α β : Type} (a : α) (b : β) : (a, b).1 = a := rfl

theorem Led.ite {P : Touch} {s a b : State} {c : Prop} [Decidable c] (ha : c → Led P s a) (hb : ¬ c → Led P s b) : Led P s (if c then a else b) := by
  by_cases hc : c
  · rw [if_pos hc]; exact ha hc
  · rw [if_neg hc]; exact hb hc

theorem LedO.ite {P : Touch} {s : State} {a b : Host.Outcome State Fault Refusal} {c : Prop} [Decidable c] (ha : c → LedO P s a) (hb : ¬ c → LedO P s b) :
    LedO P s (if c then a else b) := by
  by_cases hc : c
  · rw [if_pos hc]; exact ha hc
  · rw [if_neg hc]; exact hb hc

theorem LedOpt.ite {P : Touch} {s : State} {a b : Option State} {c : Prop} [Decidable c] (ha : c → LedOpt P s a) (hb : ¬ c → LedOpt P s b) :
    LedOpt P s (if c then a else b) := by
  by_cases hc : c
  · rw [if_pos hc]; exact ha hc
  · rw [if_neg hc]; exact hb hc

theorem LedPair.ite {α : Type} {P : Touch} {s : State} {a b : Option (State × α)} {c : Prop} [Decidable c] (ha : c → LedPair P s a) (hb : ¬ c → LedPair P s b) :
    LedPair P s (if c then a else b) := by
  by_cases hc : c
  · rw [if_pos hc]; exact ha hc
  · rw [if_neg hc]; exact hb hc

theorem LedSum.ite {α : Type} {P : Touch} {s : State} {a b : State ⊕ α} {c : Prop} [Decidable c] (ha : c → LedSum P s a) (hb : ¬ c → LedSum P s b) :
    LedSum P s (if c then a else b) := by
  by_cases hc : c
  · rw [if_pos hc]; exact ha hc
  · rw [if_neg hc]; exact hb hc

theorem LedOpt.bindVal {α : Type} {P : Touch} {s : State} {o : Option α} {f : α → Option State} (hf : ∀ a, LedOpt P s (f a)) : LedOpt P s (o.bind f) := by
  cases o with
  | none => exact LedOpt.none
  | some u => exact hf u

/-- A change of Prefect's record that burns more fuses keeps. -/
theorem Led.burn {P : Touch} {s t : State} (h : Led P s t) (hp : P.trust = true) {v : Trust} (hv : FusesGrow t.trust.fuses v.fuses) :
    Led P s { t with trust := v } :=
  h.trans ⟨hv, id, { OnlyChanges.refl P t with trust := .inl hp }⟩

/-- A change of the Diary that leaves it within its bounds. -/
theorem Led.diaryChange {P : Touch} {s t : State} (h : Led P s t) (hp : P.diary = true) {d : Diary} (hd : DiaryOk t.diary → DiaryOk d) :
    Led P s { t with diary := d } :=
  h.trans ⟨.refl _, hd, { OnlyChanges.refl P t with diary := .inl hp }⟩

theorem bitAt_setBit {n m v : Nat} (h : bitAt n v = true) : bitAt n (setBit m v) = true := by
  unfold setBit
  split
  · exact h
  · rename_i hm
    simp only [bitAt, beq_iff_eq] at *
    have e : (v + 2 ^ m) / 2 ^ n % 2 = v / 2 ^ n % 2 := by
      rcases Nat.lt_trichotomy n m with hn | hn | hn
      · obtain ⟨k, rfl⟩ := Nat.exists_eq_add_of_lt hn
        have h2 : 2 ^ (n + k + 1) = 2 ^ n * (2 * 2 ^ k) := by rw [Nat.pow_succ, Nat.pow_add]; ring
        rw [h2, Nat.add_mul_div_left _ _ (Nat.two_pow_pos n)]
        omega
      · subst hn; exact absurd h hm
      · obtain ⟨k, rfl⟩ := Nat.exists_eq_add_of_lt hn
        have h2 : 2 ^ (m + k + 1) = 2 ^ m * (2 * 2 ^ k) := by rw [Nat.pow_succ, Nat.pow_add]; ring
        rw [h2, ← Nat.div_div_eq_div_mul, ← Nat.div_div_eq_div_mul, Nat.add_div_right _ (Nat.two_pow_pos m)]
        have h3 : v / 2 ^ m % 2 = 0 := by omega
        have h4 : (v / 2 ^ m + 1) / (2 * 2 ^ k) = v / 2 ^ m / (2 * 2 ^ k) := by
          rw [← Nat.div_div_eq_div_mul, ← Nat.div_div_eq_div_mul]
          congr 1
          omega
        first
          | rw [h4]
          | (simp only [← Nat.div_div_eq_div_mul] at h4 ⊢; rw [h4])
    rw [e]; exact h

theorem getKey_putKey {α : Type} {n m : Nat} {d a : α} {l : List (Nat × α)} (hm : getKey m l = none) (h : getKey n l = some d) :
    getKey n (putKey m a l) = some d := by
  induction l with
  | nil => cases h
  | cons p r ih =>
    obtain ⟨j, b⟩ := p
    unfold getKey at hm h
    unfold putKey
    by_cases hjm : j = m
    · rw [if_pos hjm] at hm; cases hm
    · rw [if_neg hjm] at hm
      rw [if_neg hjm]
      by_cases hjn : j = n
      · rw [if_pos hjn] at h
        split
        · unfold getKey; rw [if_neg (by omega)]; unfold getKey; rw [if_pos hjn]; exact h
        · unfold getKey; rw [if_pos hjn]; exact h
      · rw [if_neg hjn] at h
        split
        · unfold getKey
          by_cases hmn : m = n
          · subst hmn; rw [h] at hm; cases hm
          · rw [if_neg hmn]; unfold getKey; rw [if_neg hjn]; exact h
        · unfold getKey; rw [if_neg hjn]; exact ih hm h

theorem LedO.lift {P Q : Touch} {s t : State} {o} (h : Led P s t) (hw : Q.within P = true) (g : LedO Q t o) : LedO P s o :=
  fun u e => Led.lift h hw (g u e)
theorem LedOpt.lift {P Q : Touch} {s t : State} {o} (h : Led P s t) (hw : Q.within P = true) (g : LedOpt Q t o) : LedOpt P s o :=
  fun u e => Led.lift h hw (g u e)
theorem LedPair.lift {α : Type} {P Q : Touch} {s t : State} {o : Option (State × α)} (h : Led P s t) (hw : Q.within P = true) (g : LedPair Q t o) : LedPair P s o :=
  fun u e => Led.lift h hw (g u e)
theorem LedSum.lift {α : Type} {P Q : Touch} {s t : State} {o : State ⊕ α} (h : Led P s t) (hw : Q.within P = true) (g : LedSum Q t o) : LedSum P s o :=
  fun u e => Led.lift h hw (g u e)

end Sys2Proof.Machine
end

