-- ==== Sys2Proof/Laws/FramesShared.lean ====
section
/-! SUPPORT. One lemma for each operation and each command, saying once what the operations every family uses can do: emissions, counters, packets, the Diary, the staging admission, the module bridges, keys and media: the frame of each is the `Touch` it names. -/

set_option Elab.async false
set_option linter.all false

namespace Sys2Proof.Machine

theorem whenDue_led {P : Touch} {s t u : State} {c : Prop} [Decidable c] (hu : Led P s u) (h : Led P s t) : LedO P s (whenDue c u t) := by
  unfold whenDue
  exact LedO.next (by split <;> assumption)

theorem tallyAdd_led {P : Touch} {s t : State} (a0 a1 a2) (h : Led P s t) (hw : Touch.within { tally := true } P = true) :
    Led P s (tallyAdd a0 a1 a2 t) := by
  refine Led.lift h hw ?_
  unfold tallyAdd
  exact Led.record (.refl _ _) rfl

theorem emit_led {P : Touch} {s t : State} (a0) (h : Led P s t) (hw : Touch.within { out := true } P = true) :
    Led P s (emit a0 t) := by
  refine Led.lift h hw ?_
  unfold emit
  exact Led.record (.refl _ _) rfl

theorem transmit_led {P : Touch} {s t : State} (a0 a1) (h : Led P s t) (hw : Touch.within { trust := true, tally := true, out := true } P = true) :
    Led P s (transmit a0 a1 t) := by
  refine Led.lift h hw ?_
  unfold transmit
  with_reducible repeat' first | assumption | exact Led.refl _ _ | apply tallyAdd_led | apply emit_led | with_unfolding_all exact Touch.holds rfl | fail_if_no_progress refine Led.record ?_ rfl | split

theorem send_led {P : Touch} {s t : State} (a0) (h : Led P s t) (hw : Touch.within { trust := true, tally := true, corr := true, out := true } P = true) :
    Led P s (send a0 t) := by
  refine Led.lift h hw ?_
  unfold send
  with_reducible repeat' first | assumption | exact Led.refl _ _ | apply transmit_led | with_unfolding_all exact Touch.holds rfl | fail_if_no_progress refine Led.record ?_ rfl | split

theorem Diary.write_ok {d : Diary} (r : DiaryRec) (h : d.ring.length = min d.head diaryRing) :
    (d.write r).ring.length = min (d.write r).head diaryRing := by
  simp only [Diary.write, List.length_take, List.length_cons]
  unfold diaryRing at *
  omega

theorem Diary.intake_ok {d : Diary} (r : DiaryRec) (h : DiaryOk d) : DiaryOk (d.intake r).1 := by
  obtain ⟨h1, h2, h3⟩ := h
  unfold Diary.intake
  by_cases hf : d.frozen = true
  · rw [if_pos hf]
    split
    · rename_i p rest hp
      split
      · exact ⟨h1, by simpa [hp] using h2, fun x => by simp [hf] at x⟩
      · split
        · rename_i hl
          exact ⟨h1, by simpa using hl, fun x => by simp [hf] at x⟩
        · exact ⟨h1, h2, fun x => by simp [hf] at x⟩
    · exact ⟨h1, by simp [diaryPocket], fun x => by simp [hf] at x⟩
  · rw [if_neg hf]
    split
    · rename_i p rest hp
      split
      · exact ⟨by rw [hp] at h1; simpa using h1, h2, h3⟩
      · exact ⟨Diary.write_ok r h1, h2, h3⟩
    · exact ⟨Diary.write_ok r h1, h2, h3⟩

theorem event_led {P : Touch} {s t : State} (a0 a1 a2) (h : Led P s t) (hw : Touch.within { diary := true, tally := true } P = true) : Led P s (event a0 a1 a2 t) := by
  refine Led.lift h hw ?_
  unfold event
  dsimp only
  refine Led.record (tallyAdd_led _ _ _ ?_ rfl) rfl
  exact Led.diaryChange (.refl _ _) rfl (fun x => Diary.intake_ok _ x)

theorem reply_led {P : Touch} {s t : State} (a0 a1) (h : Led P s t) (hw : Touch.within { trust := true, tally := true, corr := true, out := true } P = true) :
    Led P s (reply a0 a1 t) := by
  refine Led.lift h hw ?_
  unfold reply
  with_reducible repeat' first | assumption | exact Led.refl _ _ | apply send_led | with_unfolding_all exact Touch.holds rfl | fail_if_no_progress refine Led.record ?_ rfl

theorem sendMctp_led {P : Touch} {s t : State} (a0) (h : Led P s t) (hw : Touch.within { cpi := true, tally := true, out := true } P = true) :
    Led P s (sendMctp a0 t) := by
  refine Led.lift h hw ?_
  unfold sendMctp
  with_reducible repeat' first | assumption | exact Led.refl _ _ | apply emit_led | apply tallyAdd_led | with_unfolding_all exact Touch.holds rfl | fail_if_no_progress refine Led.record ?_ rfl | split

theorem postReply_led {P : Touch} {s t : State} (a0) (h : Led P s t) (hw : Touch.within { cpi := true, tally := true, out := true } P = true) :
    Led P s (postReply a0 t) := by
  refine Led.lift h hw ?_
  unfold postReply
  with_reducible repeat' first | assumption | exact Led.refl _ _ | apply sendMctp_led | with_unfolding_all exact Touch.holds rfl | fail_if_no_progress refine Led.record ?_ rfl

theorem answer_led {P : Touch} {s t : State} (a0 a1 a2 a3 a4) (h : Led P s t) (hw : Touch.within { trust := true, cpi := true, tally := true, corr := true, out := true } P = true) :
    Led P s (answer a0 a1 a2 a3 a4 t) := by
  refine Led.lift h hw ?_
  unfold answer
  with_reducible repeat' first | assumption | exact Led.refl _ _ | apply tallyAdd_led | apply reply_led | apply postReply_led | with_unfolding_all exact Touch.holds rfl | fail_if_no_progress refine Led.record ?_ rfl | split

theorem answered_led {P : Touch} {s t : State} (a0 a1 a2) (h : Led P s t) (hw : Touch.within { trust := true, cpi := true, tally := true, corr := true, out := true } P = true) :
    Led P s (answered a0 a1 a2 t) := by
  refine Led.lift h hw ?_
  unfold answered
  with_reducible repeat' first | assumption | exact Led.refl _ _ | apply answer_led | with_unfolding_all exact Touch.holds rfl

theorem drawn_led {P : Touch} {s t : State} (a0) (h : Led P s t) (hw : Touch.within { draws := true } P = true) :
    Led P s (drawn a0 t) := by
  refine Led.lift h hw ?_
  unfold drawn
  exact Led.record (.refl _ _) rfl

theorem tallyDomain_led {P : Touch} {s t : State} (a0 a1) (h : Led P s t) (hw : Touch.within { tally := true } P = true) :
    Led P s (tallyDomain a0 a1 t) := by
  refine Led.lift h hw ?_
  unfold tallyDomain
  with_reducible repeat' first | assumption | exact Led.refl _ _ | apply tallyAdd_led | with_unfolding_all exact Touch.holds rfl | refine Led.ite ?_ ?_ | intro _

theorem onPacket_led {P : Touch} {s t : State} (a0 a1 a2 f3) (h : Led P s t) (hw : Touch.within {} P = true) (hf3 : ∀ x0 u, Led P s u → Led P s (f3 x0 u)) :
    LedO P s (onPacket a0 a1 a2 f3 t) := by
  unfold onPacket
  with_reducible repeat' first | assumption | exact Led.refl _ _ | apply hf3 | with_unfolding_all exact Touch.holds rfl | with_unfolding_all exact Touch.within_trans rfl ‹_› | apply LedO.next | split

theorem emitAll_led {P : Touch} {s t : State} (a0) (h : Led P s t) (hw : Touch.within { out := true } P = true) :
    Led P s (emitAll a0 t) := by
  refine Led.lift h hw ?_
  unfold emitAll
  exact Led.record (.refl _ _) rfl

theorem refuse_led {P : Touch} {s t : State} (a0 a1 a2) (h : Led P s t) (hw : Touch.within { trust := true, cpi := true, tally := true, corr := true, out := true } P = true) :
    Led P s (refuse a0 a1 a2 t) := by
  refine Led.lift h hw ?_
  unfold refuse
  with_reducible repeat' first | assumption | exact Led.refl _ _ | apply answer_led | with_unfolding_all exact Touch.holds rfl

theorem changed_led {P : Touch} {s t : State} (a0 a1) (h : Led P s t) (hw : Touch.within { trust := true, cpi := true, diary := true, tally := true, corr := true, out := true } P = true) :
    Led P s (changed a0 a1 t) := by
  refine Led.lift h hw ?_
  unfold changed
  with_reducible repeat' first | assumption | exact Led.refl _ _ | apply answer_led | apply event_led | with_unfolding_all exact Touch.holds rfl

theorem badParam_led {P : Touch} {s t : State} (a0 a1) (h : Led P s t) (hw : Touch.within { trust := true, cpi := true, tally := true, corr := true, out := true } P = true) :
    Led P s (badParam a0 a1 t) := by
  refine Led.lift h hw ?_
  unfold badParam
  with_reducible repeat' first | assumption | exact Led.refl _ _ | apply refuse_led | with_unfolding_all exact Touch.holds rfl

theorem claimAll_led {P : Touch} {s t : State} (a0 a1 a2 a3 a4) (h : Led P s t) (hw : Touch.within { cpi := true } P = true) :
    Led P s (claimAll a0 a1 a2 a3 a4 t) := by
  refine Led.lift h hw ?_
  unfold claimAll
  exact Led.record (.refl _ _) rfl

theorem releaseClaims_led {P : Touch} {s t : State} (a0) (h : Led P s t) (hw : Touch.within { cpi := true } P = true) :
    Led P s (releaseClaims a0 t) := by
  refine Led.lift h hw ?_
  unfold releaseClaims
  exact Led.record (.refl _ _) rfl

theorem sealsRead_led {P : Touch} {s t : State} (a0) (h : Led P s t) (hw : Touch.within { diary := true, tally := true, ftl := true } P = true) :
    Led P s (sealsRead a0 t) := by
  refine Led.lift h hw ?_
  unfold sealsRead
  with_reducible repeat' first | assumption | exact Led.refl _ _ | apply event_led | with_unfolding_all exact Touch.holds rfl | fail_if_no_progress refine Led.record ?_ rfl | split

theorem Diary.thaw_ok {d : Diary} (a b c : Nat) (h : DiaryOk d) : DiaryOk (d.thaw a b c) := by
  have hw : ∀ (l : List DiaryRec) (e : Diary), e.ring.length = min e.head diaryRing →
      (l.foldl (fun a r => a.write { r with flags := r.flags % 2 + 2 }) e).ring.length =
      min (l.foldl (fun a r => a.write { r with flags := r.flags % 2 + 2 }) e).head diaryRing := by
    intro l
    induction l with
    | nil => intro e he; exact he
    | cons r l ih => intro e he; exact ih _ (Diary.write_ok _ he)
  unfold Diary.thaw
  dsimp only
  refine ⟨?_, by simp, fun _ => ⟨rfl, rfl⟩⟩
  have h0 := hw d.pocket.reverse d h.ring
  have h1 : ∀ e : Diary, e.ring.length = min e.head diaryRing → (if d.missed = 0 then e
      else e.write ⟨0xF001, 0, 30, a, d.missFirst, d.missLast, d.missed⟩).ring.length = min (if d.missed = 0 then e
      else e.write ⟨0xF001, 0, 30, a, d.missFirst, d.missLast, d.missed⟩).head diaryRing := by
    intro e he
    split
    · exact he
    · exact Diary.write_ok _ he
  exact Diary.write_ok _ (h1 _ h0)

theorem thawDiary_led {P : Touch} {s t : State} (a0) (h : Led P s t) (hw : Touch.within { diary := true } P = true) : Led P s (thawDiary a0 t) := by
  refine Led.lift h hw ?_
  unfold thawDiary
  split
  · exact Led.diaryChange (.refl _ _) rfl (fun x => Diary.thaw_ok _ _ _ x)
  · exact .refl _ _

theorem freezeDiary_led {P : Touch} {s t : State} (h : Led P s t) (hw : Touch.within { diary := true, tally := true } P = true) : Led P s (freezeDiary t) := by
  refine Led.lift h hw ?_
  unfold freezeDiary
  split
  · exact .refl _ _
  · exact event_led _ _ _ (Led.diaryChange (.refl _ _) rfl (fun x => ⟨x.ring, x.pocket, fun y => by simp at y⟩)) rfl

theorem noteHottest_led {P : Touch} {s t : State} (a0 a1) (h : Led P s t) (hw : Touch.within { pins := true } P = true) :
    Led P s (noteHottest a0 a1 t) := by
  refine Led.lift h hw ?_
  unfold noteHottest
  exact Led.record (.refl _ _) rfl

theorem loseBinding_led {P : Touch} {s t : State} (a0) (h : Led P s t) (hw : Touch.within { cpi := true } P = true) :
    Led P s (loseBinding a0 t) := by
  refine Led.lift h hw ?_
  unfold loseBinding
  exact Led.record (.refl _ _) rfl

theorem takePiece_led {P : Touch} {s t : State} (a0 a1 a2) (h : Led P s t) (hw : Touch.within { cpi := true } P = true) :
    Led P s (takePiece a0 a1 a2 t).1 := by
  refine Led.lift h hw ?_
  unfold takePiece
  with_reducible repeat' first | assumption | exact Led.refl _ _ | with_unfolding_all exact Touch.holds rfl | fail_if_no_progress refine Led.record ?_ rfl | split | dsimp only

theorem bind_led {P : Touch} {s t : State} (a0 a1 a2) (h : Led P s t) (hw : Touch.within { cpi := true, draws := true } P = true) :
    Led P s (bind a0 a1 a2 t) := by
  refine Led.lift h hw ?_
  unfold bind
  with_reducible repeat' first | assumption | exact Led.refl _ _ | apply drawn_led | with_unfolding_all exact Touch.holds rfl | fail_if_no_progress refine Led.record ?_ rfl | split

theorem acceptForward_led {P : Touch} {s t : State} (a0 a1 a2 a3 a4) (h : Led P s t) (hw : Touch.within { cpi := true } P = true) :
    Led P s (acceptForward a0 a1 a2 a3 a4 t) := by
  refine Led.lift h hw ?_
  unfold acceptForward
  exact Led.record (.refl _ _) rfl

theorem refusePacket_led {P : Touch} {s t : State} (a0 a1 a2 a3) (h : Led P s t) (hw : Touch.within { cpi := true, tally := true, out := true } P = true) :
    Led P s (refusePacket a0 a1 a2 a3 t) := by
  refine Led.lift h hw ?_
  unfold refusePacket
  with_reducible repeat' first | assumption | exact Led.refl _ _ | apply tallyAdd_led | apply postReply_led | with_unfolding_all exact Touch.holds rfl | split

theorem acceptPacket_led {P : Touch} {s t : State} (a0 a1 a2) (h : Led P s t) (hw : Touch.within { cpi := true, tally := true } P = true) :
    Led P s (acceptPacket a0 a1 a2 t) := by
  refine Led.lift h hw ?_
  unfold acceptPacket
  with_reducible repeat' first | assumption | exact Led.refl _ _ | apply tallyAdd_led | with_unfolding_all exact Touch.holds rfl | fail_if_no_progress refine Led.record ?_ rfl | split | dsimp only

theorem submitPacket_led {P : Touch} {s t : State} (a0 a1 a2 a3) (h : Led P s t) (hw : Touch.within { cpi := true, tally := true, out := true } P = true) :
    Led P s (submitPacket a0 a1 a2 a3 t) := by
  refine Led.lift h hw ?_
  unfold submitPacket
  with_reducible repeat' first | assumption | exact Led.refl _ _ | apply refusePacket_led | apply acceptPacket_led | with_unfolding_all exact Touch.holds rfl | fail_if_no_progress refine Led.record ?_ rfl | split | dsimp only

theorem bindMailbox_led {P : Touch} {s t : State} (a0 a1) (h : Led P s t) (hw : Touch.within { cpi := true, draws := true } P = true) :
    Led P s (bindMailbox a0 a1 t) := by
  refine Led.lift h hw ?_
  unfold bindMailbox
  with_reducible repeat' first | assumption | exact Led.refl _ _ | apply bind_led | with_unfolding_all exact Touch.holds rfl | split

theorem execCpiSubmit_led {P : Touch} {s t : State} (a0 a1 a2) (h : Led P s t) (hw : Touch.within { cpi := true, tally := true, out := true, draws := true } P = true) :
    LedO P s (execCpiSubmit a0 a1 a2 t) := by
  refine LedO.lift h hw ?_
  unfold execCpiSubmit
  with_reducible repeat' first | assumption | exact Led.refl _ _ | apply submitPacket_led | apply bindMailbox_led | with_unfolding_all exact Touch.holds rfl | apply LedO.next

theorem execPfmSubmit_led {P : Touch} {s t : State} (a0 a1 a2) (h : Led P s t) (hw : Touch.within { cpi := true, tally := true, out := true, draws := true } P = true) :
    LedO P s (execPfmSubmit a0 a1 a2 t) := by
  refine LedO.lift h hw ?_
  unfold execPfmSubmit
  with_reducible repeat' first | assumption | exact Led.refl _ _ | apply submitPacket_led | apply bindMailbox_led | with_unfolding_all exact Touch.holds rfl | apply LedO.next

theorem execMctpMessage_led {P : Touch} {s t : State} (a0 a1 a2 a3) (h : Led P s t) (hw : Touch.within { cpi := true, diary := true, tally := true, out := true, draws := true } P = true) :
    LedO P s (execMctpMessage a0 a1 a2 a3 t) := by
  refine LedO.lift h hw ?_
  unfold execMctpMessage
  with_reducible repeat' first | assumption | exact Led.refl _ _ | apply event_led | apply bind_led | apply submitPacket_led | with_unfolding_all exact Touch.holds rfl | apply LedO.next | split

theorem execCpiAck_led {P : Touch} {s t : State} (h : Led P s t) (hw : Touch.within { cpi := true, tally := true } P = true) :
    LedO P s (execCpiAck t) := by
  refine LedO.lift h hw ?_
  unfold execCpiAck
  with_reducible repeat' first | assumption | exact Led.refl _ _ | apply tallyAdd_led | with_unfolding_all exact Touch.holds rfl | apply LedO.next | fail_if_no_progress refine Led.record ?_ rfl | split

theorem execPfmAck_led {P : Touch} {s t : State} (h : Led P s t) (hw : Touch.within { cpi := true, tally := true } P = true) :
    LedO P s (execPfmAck t) := by
  refine LedO.lift h hw ?_
  unfold execPfmAck
  with_reducible repeat' first | assumption | exact Led.refl _ _ | apply tallyAdd_led | with_unfolding_all exact Touch.holds rfl | apply LedO.next | fail_if_no_progress refine Led.record ?_ rfl | split

theorem execPieceTimeout_led {P : Touch} {s t : State} (a0) (h : Led P s t) (hw : Touch.within { cpi := true } P = true) :
    LedO P s (execPieceTimeout a0 t) := by
  refine LedO.lift h hw ?_
  unfold execPieceTimeout
  with_reducible repeat' first | assumption | exact Led.refl _ _ | with_unfolding_all exact Touch.holds rfl | apply LedO.next | fail_if_no_progress refine Led.record ?_ rfl

theorem execReplyRetentionExpiry_led {P : Touch} {s t : State} (a0 a1) (h : Led P s t) (hw : Touch.within { cpi := true } P = true) :
    LedO P s (execReplyRetentionExpiry a0 a1 t) := by
  refine LedO.lift h hw ?_
  unfold execReplyRetentionExpiry
  with_reducible repeat' first | assumption | exact Led.refl _ _ | apply whenDue_led | with_unfolding_all exact Touch.holds rfl | apply LedO.next | fail_if_no_progress refine Led.record ?_ rfl | split

theorem execClaimBindingTimeout_led {P : Touch} {s t : State} (a0) (h : Led P s t) (hw : Touch.within { cpi := true } P = true) :
    LedO P s (execClaimBindingTimeout a0 t) := by
  refine LedO.lift h hw ?_
  unfold execClaimBindingTimeout
  with_reducible repeat' first | assumption | exact Led.refl _ _ | apply whenDue_led | with_unfolding_all exact Touch.holds rfl | apply LedO.next | fail_if_no_progress refine Led.record ?_ rfl | split

theorem execSysClaims_led {P : Touch} {s t : State} (a0 a1) (h : Led P s t) (hw : Touch.within { trust := true, cpi := true, tally := true, corr := true, out := true } P = true) :
    LedO P s (execSysClaims a0 a1 t) := by
  refine LedO.lift h hw ?_
  unfold execSysClaims
  with_reducible repeat' first | assumption | exact Led.refl _ _ | apply onPacket_led | apply answered_led | with_unfolding_all exact Touch.holds rfl | apply LedO.next | refine LedO.ite ?_ ?_ | refine Led.ite ?_ ?_ | intro _

theorem endCapture_led {P : Touch} {s t : State} (a0) (h : Led P s t) (hw : Touch.within { trust := true, cpi := true, tally := true, corr := true, out := true, draws := true } P = true) :
    Led P s (endCapture a0 t) := by
  refine Led.lift h hw ?_
  unfold endCapture
  with_reducible repeat' first | assumption | exact Led.refl _ _ | apply releaseClaims_led | apply answered_led | apply drawn_led | with_unfolding_all exact Touch.holds rfl | split

theorem endCaptures_led {P : Touch} {s t : State} (h : Led P s t) (hw : Touch.within { trust := true, cpi := true, tally := true, corr := true, out := true, draws := true } P = true) :
    Led P s (endCaptures t) := by
  refine Led.lift h hw ?_
  unfold endCaptures
  with_reducible repeat' first | assumption | exact Led.refl _ _ | apply endCapture_led | with_unfolding_all exact Touch.holds rfl | (refine Led.foldl ?_ ?_; rotate_left; intro _ _ _) | fail_if_no_progress refine Led.record ?_ rfl | split

theorem execDiaryRead_led {P : Touch} {s t : State} (a0 a1) (h : Led P s t) (hw : Touch.within { trust := true, cpi := true, tally := true, corr := true, out := true } P = true) :
    LedO P s (execDiaryRead a0 a1 t) := by
  refine LedO.lift h hw ?_
  unfold execDiaryRead
  with_reducible repeat' first | assumption | exact Led.refl _ _ | apply onPacket_led | apply answered_led | with_unfolding_all exact Touch.holds rfl | apply LedO.next | refine LedO.ite ?_ ?_ | refine Led.ite ?_ ?_ | intro _

theorem execDiaryFreeze_led {P : Touch} {s t : State} (a0 a1) (h : Led P s t) (hw : Touch.within { trust := true, cpi := true, diary := true, tally := true, corr := true, out := true } P = true) :
    LedO P s (execDiaryFreeze a0 a1 t) := by
  refine LedO.lift h hw ?_
  unfold execDiaryFreeze
  with_reducible repeat' first | assumption | exact Led.refl _ _ | apply onPacket_led | apply changed_led | apply freezeDiary_led | apply thawDiary_led | with_unfolding_all exact Touch.holds rfl | apply LedO.next | refine LedO.ite ?_ ?_ | refine Led.ite ?_ ?_ | intro _

theorem execDiaryCtrlFreezeWrite_led {P : Touch} {s t : State} (a0) (h : Led P s t) (hw : Touch.within { diary := true, tally := true } P = true) :
    LedO P s (execDiaryCtrlFreezeWrite a0 t) := by
  refine LedO.lift h hw ?_
  unfold execDiaryCtrlFreezeWrite
  with_reducible repeat' first | assumption | exact Led.refl _ _ | apply freezeDiary_led | apply thawDiary_led | with_unfolding_all exact Touch.holds rfl | apply LedO.next | split

theorem execDiaryFreezeTimeout_led {P : Touch} {s t : State} (h : Led P s t) (hw : Touch.within { diary := true } P = true) :
    LedO P s (execDiaryFreezeTimeout t) := by
  refine LedO.lift h hw ?_
  unfold execDiaryFreezeTimeout
  with_reducible repeat' first | assumption | exact Led.refl _ _ | apply whenDue_led | apply thawDiary_led | with_unfolding_all exact Touch.holds rfl | apply LedO.next

theorem execDiaryEvent_led {P : Touch} {s t : State} (a0 a1 a2) (h : Led P s t) (hw : Touch.within { diary := true, tally := true } P = true) :
    LedO P s (execDiaryEvent a0 a1 a2 t) := by
  refine LedO.lift h hw ?_
  unfold execDiaryEvent
  with_reducible repeat' first | assumption | exact Led.refl _ _ | apply event_led | with_unfolding_all exact Touch.holds rfl | apply LedO.next | split

theorem sweep_led {P : Touch} {s t : State} (h : Led P s t) (hw : Touch.within { tally := true, draws := true } P = true) :
    Led P s (sweep t) := by
  refine Led.lift h hw ?_
  unfold sweep
  exact Led.record (.refl _ _) rfl

theorem execTallySweep_led {P : Touch} {s t : State} (h : Led P s t) (hw : Touch.within { tally := true, draws := true } P = true) :
    LedO P s (execTallySweep t) := by
  refine LedO.lift h hw ?_
  unfold execTallySweep
  with_reducible repeat' first | assumption | exact Led.refl _ _ | apply whenDue_led | apply tallyAdd_led | apply sweep_led | with_unfolding_all exact Touch.holds rfl | apply LedO.next

theorem execTallyRead_led {P : Touch} {s t : State} (a0 a1) (h : Led P s t) (hw : Touch.within { trust := true, cpi := true, tally := true, corr := true, out := true } P = true) :
    LedO P s (execTallyRead a0 a1 t) := by
  refine LedO.lift h hw ?_
  unfold execTallyRead
  with_reducible repeat' first | assumption | exact Led.refl _ _ | apply onPacket_led | apply refuse_led | apply answered_led | with_unfolding_all exact Touch.holds rfl | apply LedO.next | refine LedO.ite ?_ ?_ | refine Led.ite ?_ ?_ | intro _

theorem execTallyConfig_led {P : Touch} {s t : State} (a0 a1) (h : Led P s t) (hw : Touch.within { trust := true, cpi := true, diary := true, tally := true, corr := true, out := true } P = true) :
    LedO P s (execTallyConfig a0 a1 t) := by
  refine LedO.lift h hw ?_
  unfold execTallyConfig
  with_reducible repeat' first | assumption | exact Led.refl _ _ | apply onPacket_led | apply badParam_led | apply refuse_led | apply changed_led | apply releaseClaims_led | apply claimAll_led | with_unfolding_all exact Touch.holds rfl | apply LedO.next | refine LedO.ite ?_ ?_ | refine Led.ite ?_ ?_ | intro _ | fail_if_no_progress refine Led.record ?_ rfl | split

theorem execBwWindow_led {P : Touch} {s t : State} (a0 a1) (h : Led P s t) (hw : Touch.within { trust := true, cpi := true, diary := true, tally := true, corr := true, out := true } P = true) :
    LedO P s (execBwWindow a0 a1 t) := by
  refine LedO.lift h hw ?_
  unfold execBwWindow
  with_reducible repeat' first | assumption | exact Led.refl _ _ | apply onPacket_led | apply refuse_led | apply changed_led | apply claimAll_led | with_unfolding_all exact Touch.holds rfl | apply LedO.next | refine LedO.ite ?_ ?_ | refine Led.ite ?_ ?_ | intro _ | fail_if_no_progress refine Led.record ?_ rfl | split | dsimp only

theorem execBwWindowStart_led {P : Touch} {s t : State} (a0) (h : Led P s t) (hw : Touch.within { tally := true } P = true) :
    LedO P s (execBwWindowStart a0 t) := by
  refine LedO.lift h hw ?_
  unfold execBwWindowStart
  with_reducible repeat' first | assumption | exact Led.refl _ _ | apply whenDue_led | with_unfolding_all exact Touch.holds rfl | apply LedO.next | fail_if_no_progress refine Led.record ?_ rfl | split

theorem execBwWindowEnd_led {P : Touch} {s t : State} (a0 a1 a2) (h : Led P s t) (hw : Touch.within { cpi := true, tally := true } P = true) :
    LedO P s (execBwWindowEnd a0 a1 a2 t) := by
  refine LedO.lift h hw ?_
  unfold execBwWindowEnd
  with_reducible repeat' first | assumption | exact Led.refl _ _ | apply whenDue_led | apply releaseClaims_led | with_unfolding_all exact Touch.holds rfl | apply LedO.next | fail_if_no_progress refine Led.record ?_ rfl | split

theorem execHistogramMinute_led {P : Touch} {s t : State} (a0 a1) (h : Led P s t) (hw : Touch.within { pins := true, tally := true } P = true) :
    LedO P s (execHistogramMinute a0 a1 t) := by
  refine LedO.lift h hw ?_
  unfold execHistogramMinute
  with_reducible repeat' first | assumption | exact Led.refl _ _ | apply noteHottest_led | with_unfolding_all exact Touch.holds rfl | apply LedO.next | fail_if_no_progress refine Led.record ?_ rfl

theorem execDiagCapture_led {P : Touch} {s t : State} (a0 a1) (h : Led P s t) (hw : Touch.within { trust := true, cpi := true, tally := true, corr := true, out := true } P = true) :
    LedO P s (execDiagCapture a0 a1 t) := by
  refine LedO.lift h hw ?_
  unfold execDiagCapture
  with_reducible repeat' first | assumption | exact Led.refl _ _ | apply onPacket_led | apply badParam_led | apply refuse_led | apply claimAll_led | with_unfolding_all exact Touch.holds rfl | apply LedO.next | refine LedO.ite ?_ ?_ | refine Led.ite ?_ ?_ | intro _ | fail_if_no_progress refine Led.record ?_ rfl | split | dsimp only

theorem execDiagDump_led {P : Touch} {s t : State} (a0 a1 a2) (h : Led P s t) (hw : Touch.within { trust := true, cpi := true, tally := true, corr := true, out := true } P = true) :
    LedO P s (execDiagDump a0 a1 a2 t) := by
  refine LedO.lift h hw ?_
  unfold execDiagDump
  with_reducible repeat' first | assumption | exact Led.refl _ _ | apply onPacket_led | apply refuse_led | apply answered_led | with_unfolding_all exact Touch.holds rfl | apply LedO.next | refine LedO.ite ?_ ?_ | refine Led.ite ?_ ?_ | intro _ | fail_if_no_progress refine Led.record ?_ rfl | split

theorem sendPeer_led {P : Touch} {s t : State} (a0) (h : Led P s t) (hw : Touch.within { trust := true, tally := true, corr := true, out := true } P = true) :
    Led P s (sendPeer a0 t) := by
  refine Led.lift h hw ?_
  unfold sendPeer
  with_reducible repeat' first | assumption | exact Led.refl _ _ | apply send_led | with_unfolding_all exact Touch.holds rfl | split

theorem touchPages_led {P : Touch} {s t : State} (a0) (h : Led P s t) (hw : Touch.within { ftl := true } P = true) :
    Led P s (touchPages a0 t) := by
  refine Led.lift h hw ?_
  unfold touchPages
  exact Led.record (.refl _ _) rfl

theorem noteApplied_led {P : Touch} {s t : State} (a0) (h : Led P s t) (hw : Touch.within { ftl := true } P = true) :
    Led P s (noteApplied a0 t) := by
  refine Led.lift h hw ?_
  unfold noteApplied
  exact Led.record (.refl _ _) rfl

theorem journal_led {P : Touch} {s t : State} (a0) (h : Led P s t) (hw : Touch.within { trust := true, tally := true, ftl := true, corr := true, out := true } P = true) :
    Led P s (journal a0 t) := by
  refine Led.lift h hw ?_
  unfold journal
  with_reducible repeat' first | assumption | exact Led.refl _ _ | apply noteApplied_led | apply tallyAdd_led | apply send_led | apply sendPeer_led | with_unfolding_all exact Touch.holds rfl | fail_if_no_progress refine Led.record ?_ rfl | split

theorem afterDurable_led {P : Touch} {s t : State} (a0 a1) (h : Led P s t) (hw : Touch.within { ftl := true } P = true) :
    Led P s (afterDurable a0 a1 t) := by
  refine Led.lift h hw ?_
  unfold afterDurable
  exact Led.record (.refl _ _) rfl

theorem settleNumber_led {P : Touch} {s t : State} (a0) (h : Led P s t) (hw : Touch.within { corr := true } P = true) :
    Led P s (settleNumber a0 t) := by
  refine Led.lift h hw ?_
  unfold settleNumber
  exact Led.record (.refl _ _) rfl

theorem pairWide_led {P : Touch} {s t : State} (a0 a1 f2) (h : Led P s t) (hw : Touch.within { trust := true, cpi := true, tally := true, corr := true, out := true } P = true) (hf2 : ∀ u, Led P s u → Led P s (f2 u)) :
    Led P s (pairWide a0 a1 f2 t) := by
  unfold pairWide
  with_reducible repeat' first | assumption | exact Led.refl _ _ | apply hf2 | apply settleNumber_led | apply send_led | apply refuse_led | with_unfolding_all exact Touch.holds rfl | with_unfolding_all exact Touch.within_trans rfl ‹_› | split

theorem wake_led {P : Touch} {s t : State} (a0) (h : Led P s t) (hw : Touch.within { hq := true } P = true) :
    Led P s (wake a0 t) := by
  refine Led.lift h hw ?_
  unfold wake
  with_reducible repeat' first | assumption | exact Led.refl _ _ | with_unfolding_all exact Touch.holds rfl | fail_if_no_progress refine Led.record ?_ rfl | split

theorem onMessage_led {P : Touch} {s t : State} (a0 a1 f2) (h : Led P s t) (hw : Touch.within { trust := true, tally := true, corr := true, out := true } P = true) (hf2 : ∀ u, Led P s u → Led P s (f2 u)) :
    LedO P s (onMessage a0 a1 f2 t) := by
  unfold onMessage
  with_reducible repeat' first | assumption | exact Led.refl _ _ | apply hf2 | apply tallyAdd_led | apply send_led | with_unfolding_all exact Touch.holds rfl | with_unfolding_all exact Touch.within_trans rfl ‹_› | apply LedO.next | fail_if_no_progress refine Led.record ?_ rfl | split | dsimp only

theorem onWord_led {P : Touch} {s t : State} (a0 f1) (h : Led P s t) (hw : Touch.within { tally := true } P = true) (hf1 : ∀ u, Led P s u → Led P s (f1 u)) :
    LedO P s (onWord a0 f1 t) := by
  unfold onWord
  with_reducible repeat' first | assumption | exact Led.refl _ _ | apply hf1 | apply tallyAdd_led | with_unfolding_all exact Touch.holds rfl | with_unfolding_all exact Touch.within_trans rfl ‹_› | apply LedO.next | refine LedO.ite ?_ ?_ | refine Led.ite ?_ ?_ | intro _

theorem pay_led {P : Touch} {s t : State} (a0 a1 a2) (h : Led P s t) (hw : Touch.within { tt := true } P = true) :
    Led P s (pay a0 a1 a2 t) := by
  refine Led.lift h hw ?_
  unfold pay
  with_reducible repeat' first | assumption | exact Led.refl _ _ | with_unfolding_all exact Touch.holds rfl | fail_if_no_progress refine Led.record ?_ rfl | split

theorem payAll_led {P : Touch} {s t : State} (a0 a1) (h : Led P s t) (hw : Touch.within { tt := true } P = true) :
    Led P s (payAll a0 a1 t) := by
  refine Led.lift h hw ?_
  unfold payAll
  with_reducible repeat' first | assumption | exact Led.refl _ _ | apply pay_led | with_unfolding_all exact Touch.holds rfl | (refine Led.foldl ?_ ?_; rotate_left; intro _ _ _) | fail_if_no_progress refine Led.record ?_ rfl | split

theorem posted_led {P : Touch} {s t : State} (a0 a1 f2) (h : Led P s t) (hw : Touch.within { tt := true } P = true) (hf2 : ∀ u, Led P s u → Led P s (f2 u)) :
    LedO P s (posted a0 a1 f2 t) := by
  unfold posted
  with_reducible repeat' first | assumption | exact Led.refl _ _ | apply hf2 | apply whenDue_led | apply payAll_led | with_unfolding_all exact Touch.holds rfl | with_unfolding_all exact Touch.within_trans rfl ‹_› | apply LedO.next

theorem payClass_led {P : Touch} {s t : State} (a0 a1 a2) (h : Led P s t) (hw : Touch.within { tt := true } P = true) :
    Led P s (payClass a0 a1 a2 t) := by
  refine Led.lift h hw ?_
  unfold payClass
  with_reducible repeat' first | assumption | exact Led.refl _ _ | with_unfolding_all exact Touch.holds rfl | fail_if_no_progress refine Led.record ?_ rfl | split

theorem shareOut_led {P : Touch} {s t : State} (a0 a1 a2 a3 a4) (h : Led P s t) (hw : Touch.within { tt := true } P = true) :
    Led P s (shareOut a0 a1 a2 a3 a4 t) := by
  refine Led.lift h hw ?_
  unfold shareOut
  exact Led.record (.refl _ _) rfl

theorem refillBuckets_led {P : Touch} {s t : State} (h : Led P s t) (hw : Touch.within { tt := true } P = true) :
    Led P s (refillBuckets t) := by
  refine Led.lift h hw ?_
  unfold refillBuckets
  with_reducible repeat' first | assumption | exact Led.refl _ _ | with_unfolding_all exact Touch.holds rfl | (refine Led.foldl ?_ ?_; rotate_left; intro _ _ _) | fail_if_no_progress refine Led.record ?_ rfl | split

theorem putLedger_led {P : Touch} {s t : State} (a0 a1) (h : Led P s t) (hw : Touch.within { ftl := true } P = true) :
    Led P s (putLedger a0 a1 t) := by
  refine Led.lift h hw ?_
  unfold putLedger
  exact Led.record (.refl _ _) rfl

theorem setBlkState_led {P : Touch} {s t : State} (a0 a1) (h : Led P s t) (hw : Touch.within { trust := true, tally := true, ftl := true, corr := true, out := true } P = true) :
    Led P s (setBlkState a0 a1 t) := by
  refine Led.lift h hw ?_
  unfold setBlkState
  with_reducible repeat' first | assumption | exact Led.refl _ _ | apply journal_led | apply putLedger_led | with_unfolding_all exact Touch.holds rfl | fail_if_no_progress refine Led.record ?_ rfl

theorem setLedger_led {P : Touch} {s t : State} (a0 a1) (h : Led P s t) (hw : Touch.within { trust := true, tally := true, ftl := true, corr := true, out := true } P = true) :
    Led P s (setLedger a0 a1 t) := by
  refine Led.lift h hw ?_
  unfold setLedger
  with_reducible repeat' first | assumption | exact Led.refl _ _ | apply journal_led | apply putLedger_led | with_unfolding_all exact Touch.holds rfl

theorem setOwnLedger_led {P : Touch} {s t : State} (a0 a1) (h : Led P s t) (hw : Touch.within { trust := true, tally := true, ftl := true, corr := true, out := true } P = true) :
    Led P s (setOwnLedger a0 a1 t) := by
  refine Led.lift h hw ?_
  unfold setOwnLedger
  with_reducible repeat' first | assumption | exact Led.refl _ _ | apply setLedger_led | apply putLedger_led | with_unfolding_all exact Touch.holds rfl | split

theorem putRec_led {P : Touch} {s t : State} (a0 a1) (h : Led P s t) (hw : Touch.within { ftl := true } P = true) :
    Led P s (putRec a0 a1 t) := by
  refine Led.lift h hw ?_
  unfold putRec
  exact Led.record (.refl _ _) rfl

theorem reclaim_led {P : Touch} {s t : State} (a0 a1) (h : Led P s t) (hw : Touch.within { trust := true, tally := true, ddp := true, ftl := true, corr := true, out := true } P = true) :
    Led P s (reclaim a0 a1 t) := by
  refine Led.lift h hw ?_
  unfold reclaim
  with_reducible repeat' first | assumption | exact Led.refl _ _ | apply journal_led | apply putRec_led | with_unfolding_all exact Touch.holds rfl | fail_if_no_progress refine Led.record ?_ rfl | split

theorem retireBlock_led {P : Touch} {s t : State} (a0 a1) (h : Led P s t) (hw : Touch.within { trust := true, diary := true, tally := true, ftl := true, corr := true, out := true } P = true) :
    Led P s (retireBlock a0 a1 t) := by
  refine Led.lift h hw ?_
  unfold retireBlock
  with_reducible repeat' first | assumption | exact Led.refl _ _ | apply event_led | apply setBlkState_led | with_unfolding_all exact Touch.holds rfl | fail_if_no_progress refine Led.record ?_ rfl | split | dsimp only

theorem openBlock_led {P : Touch} {s t : State} (a0 a1) (h : Led P s t) (hw : Touch.within { trust := true, tally := true, ftl := true, corr := true, out := true } P = true) :
    Led P s (openBlock a0 a1 t) := by
  refine Led.lift h hw ?_
  unfold openBlock
  with_reducible repeat' first | assumption | exact Led.refl _ _ | apply setLedger_led | apply journal_led | with_unfolding_all exact Touch.holds rfl | fail_if_no_progress refine Led.record ?_ rfl

theorem moveCid_led {P : Touch} {s t : State} (a0 a1) (h : Led P s t) (hw : Touch.within { trust := true, tally := true, ftl := true, corr := true, out := true } P = true) :
    Led P s (moveCid a0 a1 t) := by
  refine Led.lift h hw ?_
  unfold moveCid
  with_reducible repeat' first | assumption | exact Led.refl _ _ | apply journal_led | apply putRec_led | with_unfolding_all exact Touch.holds rfl | split

theorem addRef_led {P : Touch} {s t : State} (a0 a1) (h : Led P s t) (hw : Touch.within { diary := true, tally := true, ftl := true } P = true) :
    Led P s (addRef a0 a1 t) := by
  refine Led.lift h hw ?_
  unfold addRef
  with_reducible repeat' first | assumption | exact Led.refl _ _ | apply event_led | apply putRec_led | with_unfolding_all exact Touch.holds rfl | fail_if_no_progress refine Led.record ?_ rfl | split | dsimp only

theorem refChange_led {P : Touch} {s t : State} (a0 a1) (h : Led P s t) (hw : Touch.within { trust := true, diary := true, tally := true, ddp := true, ftl := true, corr := true, out := true } P = true) :
    Led P s (refChange a0 a1 t) := by
  refine Led.lift h hw ?_
  unfold refChange
  with_reducible repeat' first | assumption | exact Led.refl _ _ | apply journal_led | apply addRef_led | with_unfolding_all exact Touch.holds rfl | fail_if_no_progress refine Led.record ?_ rfl | split

theorem setRoot_led {P : Touch} {s t : State} (a0) (h : Led P s t) (hw : Touch.within { ftl := true } P = true) :
    Led P s (setRoot a0 t) := by
  refine Led.lift h hw ?_
  unfold setRoot
  exact Led.record (.refl _ _) rfl

theorem ownLeaf_led {P : Touch} {s t : State} (a0 a1) (h : Led P s t) (hw : Touch.within { trust := true, diary := true, tally := true, ddp := true, ftl := true, corr := true, out := true } P = true) :
    Led P s (ownLeaf a0 a1 t).1 := by
  refine Led.lift h hw ?_
  unfold ownLeaf
  with_reducible repeat' first | assumption | exact Led.refl _ _ | apply refChange_led | with_unfolding_all exact Touch.holds rfl | (refine Led.foldl ?_ ?_; rotate_left; intro _ _ _) | fail_if_no_progress refine Led.record ?_ rfl | split

theorem setMap_led {P : Touch} {s t : State} (a0 a1 a2 a3) (h : Led P s t) (hw : Touch.within { trust := true, diary := true, tally := true, ddp := true, ftl := true, corr := true, out := true } P = true) :
    Led P s (setMap a0 a1 a2 a3 t) := by
  refine Led.lift h hw ?_
  unfold setMap
  with_reducible repeat' first | assumption | exact Led.refl _ _ | apply ownLeaf_led | apply setRoot_led | apply journal_led | apply refChange_led | with_unfolding_all exact Touch.holds rfl | refine Led.ite ?_ ?_ | intro _ | refine Led.ofFst ‹_ = (_, _)› ?_ | refine Led.ofSnd ‹_ = (_, _)› ?_ | refine Led.ofSome ‹_ = some _› ?_ | fail_if_no_progress refine Led.record ?_ rfl | split | dsimp only

theorem allocateCid_led {P : Touch} {s t : State} (h : Led P s t) (hw : Touch.within { ddp := true } P = true) :
    Led P s (allocateCid t).1 := by
  refine Led.lift h hw ?_
  unfold allocateCid
  with_reducible repeat' first | assumption | exact Led.refl _ _ | with_unfolding_all exact Touch.holds rfl | fail_if_no_progress refine Led.record ?_ rfl | split

theorem freeBlock_led {P : Touch} {s t : State} (a0) (h : Led P s t) (hw : Touch.within { trust := true, tally := true, ftl := true, corr := true, out := true } P = true) :
    Led P s (freeBlock a0 t) := by
  refine Led.lift h hw ?_
  unfold freeBlock
  with_reducible repeat' first | assumption | exact Led.refl _ _ | apply afterDurable_led | apply setBlkState_led | with_unfolding_all exact Touch.holds rfl

theorem diesBell_led {P : Touch} {s t : State} (h : Led P s t) (hw : Touch.within { ftl := true } P = true) :
    Led P s (diesBell t) := by
  refine Led.lift h hw ?_
  unfold diesBell
  with_reducible repeat' first | assumption | exact Led.refl _ _ | with_unfolding_all exact Touch.holds rfl | fail_if_no_progress refine Led.record ?_ rfl | split

theorem dropRoot_led {P : Touch} {s t : State} (a0) (h : Led P s t) (hw : Touch.within { ftl := true } P = true) :
    Led P s (dropRoot a0 t) := by
  refine Led.lift h hw ?_
  unfold dropRoot
  exact Led.record (.refl _ _) rfl

theorem addRoot_led {P : Touch} {s t : State} (a0) (h : Led P s t) (hw : Touch.within { ftl := true } P = true) :
    Led P s (addRoot a0 t) := by
  refine Led.lift h hw ?_
  unfold addRoot
  exact Led.record (.refl _ _) rfl

theorem freeMap_led {P : Touch} {s t : State} (a0) (h : Led P s t) (hw : Touch.within { trust := true, diary := true, tally := true, ddp := true, ftl := true, corr := true, out := true } P = true) :
    Led P s (freeMap a0 t) := by
  refine Led.lift h hw ?_
  unfold freeMap
  with_reducible repeat' first | assumption | exact Led.refl _ _ | apply refChange_led | with_unfolding_all exact Touch.holds rfl | (refine Led.foldl ?_ ?_; rotate_left; intro _ _ _) | fail_if_no_progress refine Led.record ?_ rfl | split

theorem setCounter_led {P : Touch} {s t : State} (a0) (h : Led P s t) (hw : Touch.within { ciph := true } P = true) :
    Led P s (setCounter a0 t) := by
  refine Led.lift h hw ?_
  unfold setCounter
  exact Led.record (.refl _ _) rfl

theorem raiseCeiling_led {P : Touch} {s t : State} (a0) (h : Led P s t) (hw : Touch.within { trust := true, tally := true, ftl := true, ciph := true, corr := true, out := true } P = true) :
    Led P s (raiseCeiling a0 t) := by
  refine Led.lift h hw ?_
  unfold raiseCeiling
  with_reducible repeat' first | assumption | exact Led.refl _ _ | apply afterDurable_led | apply journal_led | apply setCounter_led | with_unfolding_all exact Touch.holds rfl | refine Led.ite ?_ ?_ | intro _

theorem takeNonce_led {P : Touch} {s t : State} (a0 a1 a2 a3) (h : Led P s t) (hw : Touch.within { trust := true, tally := true, ftl := true, ciph := true, corr := true, out := true } P = true) :
    Led P s (takeNonce a0 a1 a2 a3 t).1 := by
  refine Led.lift h hw ?_
  unfold takeNonce
  with_reducible repeat' first | assumption | exact Led.refl _ _ | apply raiseCeiling_led | with_unfolding_all exact Touch.holds rfl | fail_if_no_progress refine Led.record ?_ rfl | split | dsimp only

theorem setLocker_led {P : Touch} {s t : State} (a0 a1) (h : Led P s t) (hw : Touch.within { ciph := true } P = true) :
    Led P s (setLocker a0 a1 t) := by
  refine Led.lift h hw ?_
  unfold setLocker
  exact Led.record (.refl _ _) rfl

theorem queueOp_led {P : Touch} {s t : State} (a0) (h : Led P s t) (hw : Touch.within { bay := true } P = true) :
    Led P s (queueOp a0 t) := by
  refine Led.lift h hw ?_
  unfold queueOp
  with_reducible repeat' first | assumption | exact Led.refl _ _ | with_unfolding_all exact Touch.holds rfl | fail_if_no_progress refine Led.record ?_ rfl | split

theorem readOp_led {P : Touch} {s t : State} (a0 a1 a2 a3 a4) (h : Led P s t) (hw : Touch.within { bay := true } P = true) :
    Led P s (readOp a0 a1 a2 a3 a4 t) := by
  refine Led.lift h hw ?_
  unfold readOp
  with_reducible repeat' first | assumption | exact Led.refl _ _ | apply queueOp_led | with_unfolding_all exact Touch.holds rfl

theorem setBay_led {P : Touch} {s t : State} (a0 a1) (h : Led P s t) (hw : Touch.within { bay := true } P = true) :
    Led P s (setBay a0 a1 t) := by
  refine Led.lift h hw ?_
  unfold setBay
  exact Led.record (.refl _ _) rfl

theorem dropOp_led {P : Touch} {s t : State} (a0) (h : Led P s t) (hw : Touch.within { bay := true } P = true) :
    Led P s (dropOp a0 t) := by
  refine Led.lift h hw ?_
  unfold dropOp
  exact Led.record (.refl _ _) rfl

theorem setMember_led {P : Touch} {s t : State} (a0) (h : Led P s t) (hw : Touch.within { ec := true } P = true) :
    Led P s (setMember a0 t) := by
  refine Led.lift h hw ?_
  unfold setMember
  exact Led.record (.refl _ _) rfl

theorem noteDeadline_led {P : Touch} {s t : State} (a0 a1) (h : Led P s t) (hw : Touch.within { tally := true, ec := true } P = true) :
    Led P s (noteDeadline a0 a1 t) := by
  refine Led.lift h hw ?_
  unfold noteDeadline
  with_reducible repeat' first | assumption | exact Led.refl _ _ | apply tallyAdd_led | apply setMember_led | with_unfolding_all exact Touch.holds rfl | fail_if_no_progress refine Led.record ?_ rfl | split

theorem dieFrees_led {P : Touch} {s t : State} (a0) (h : Led P s t) (hw : Touch.within { bay := true } P = true) :
    Led P s (dieFrees a0 t) := by
  refine Led.lift h hw ?_
  unfold dieFrees
  with_reducible repeat' first | assumption | exact Led.refl _ _ | with_unfolding_all exact Touch.holds rfl | fail_if_no_progress refine Led.record ?_ rfl | split

theorem takeDone_led {P : Touch} {s t : State} (a0 a1) (h : Led P s t) (hw : Touch.within { tally := true, ec := true, bay := true } P = true) :
    Led P s (takeDone a0 a1 t) := by
  refine Led.lift h hw ?_
  unfold takeDone
  with_reducible repeat' first | assumption | exact Led.refl _ _ | apply noteDeadline_led | apply setBay_led | apply dieFrees_led | apply dropOp_led | with_unfolding_all exact Touch.holds rfl

theorem ringWrite_led {P : Touch} {s t : State} (a0 a1) (h : Led P s t) (hw : Touch.within { bay := true } P = true) :
    Led P s (ringWrite a0 a1 t) := by
  refine Led.lift h hw ?_
  unfold ringWrite
  with_reducible repeat' first | assumption | exact Led.refl _ _ | apply queueOp_led | apply setBay_led | with_unfolding_all exact Touch.holds rfl | split

theorem configWrite_led {P : Touch} {s t : State} (h : Led P s t) (hw : Touch.within { trust := true, tally := true, bay := true, pool := true, corr := true, out := true } P = true) :
    Led P s (configWrite t) := by
  refine Led.lift h hw ?_
  unfold configWrite
  with_reducible repeat' first | assumption | exact Led.refl _ _ | apply ringWrite_led | apply sendPeer_led | with_unfolding_all exact Touch.holds rfl | (refine Led.foldl ?_ ?_; rotate_left; intro _ _ _) | fail_if_no_progress refine Led.record ?_ rfl | split

theorem fenceForms_led {P : Touch} {s t : State} (a0) (h : Led P s t) (hw : Touch.within { bay := true } P = true) :
    Led P s (fenceForms a0 t) := by
  refine Led.lift h hw ?_
  unfold fenceForms
  with_reducible repeat' first | assumption | exact Led.refl _ _ | apply queueOp_led | with_unfolding_all exact Touch.holds rfl | (refine Led.foldl ?_ ?_; rotate_left; intro _ _ _) | fail_if_no_progress refine Led.record ?_ rfl | split | dsimp only

theorem fenceOwned_led {P : Touch} {s t : State} (h : Led P s t) (hw : Touch.within { bay := true } P = true) :
    Led P s (fenceOwned t) := by
  refine Led.lift h hw ?_
  unfold fenceOwned
  with_reducible repeat' first | assumption | exact Led.refl _ _ | apply fenceForms_led | with_unfolding_all exact Touch.holds rfl

theorem carryStandbys_led {P : Touch} {s t : State} (a0) (h : Led P s t) (hw : Touch.within { ec := true } P = true) :
    Led P s (carryStandbys a0 t) := by
  refine Led.lift h hw ?_
  unfold carryStandbys
  with_reducible repeat' first | assumption | exact Led.refl _ _ | with_unfolding_all exact Touch.holds rfl | fail_if_no_progress refine Led.record ?_ rfl | split

theorem carryFences_led {P : Touch} {s t : State} (a0) (h : Led P s t) (hw : Touch.within { ec := true, bay := true } P = true) :
    Led P s (carryFences a0 t) := by
  refine Led.lift h hw ?_
  unfold carryFences
  with_reducible repeat' first | assumption | exact Led.refl _ _ | apply carryStandbys_led | with_unfolding_all exact Touch.holds rfl | fail_if_no_progress refine Led.record ?_ rfl | split

theorem refence_led {P : Touch} {s t : State} (a0) (h : Led P s t) (hw : Touch.within { ec := true, bay := true } P = true) :
    Led P s (refence a0 t) := by
  refine Led.lift h hw ?_
  unfold refence
  with_reducible repeat' first | assumption | exact Led.refl _ _ | apply carryFences_led | apply fenceOwned_led | with_unfolding_all exact Touch.holds rfl | fail_if_no_progress refine Led.record ?_ rfl

theorem postOp_led {P : Touch} {s t : State} (a0) (h : Led P s t) (hw : Touch.within { tally := true, tt := true, bay := true, out := true } P = true) :
    Led P s (postOp a0 t) := by
  refine Led.lift h hw ?_
  unfold postOp
  with_reducible repeat' first | assumption | exact Led.refl _ _ | apply emit_led | apply tallyAdd_led | apply pay_led | apply payAll_led | with_unfolding_all exact Touch.holds rfl | fail_if_no_progress refine Led.record ?_ rfl | split | dsimp only

theorem postOps_led {P : Touch} {s t : State} (h : Led P s t) (hw : Touch.within { tally := true, tt := true, bay := true, out := true } P = true) :
    Led P s (postOps t) := by
  refine Led.lift h hw ?_
  unfold postOps
  with_reducible repeat' first | assumption | exact Led.refl _ _ | apply postOp_led | with_unfolding_all exact Touch.holds rfl | (refine Led.foldl ?_ ?_; rotate_left; intro _ _ _) | fail_if_no_progress refine Led.record ?_ rfl | split

theorem anchorWrite_led {P : Touch} {s t : State} (h : Led P s t) (hw : Touch.within { trust := true, tally := true, bay := true, pool := true, corr := true, out := true } P = true) :
    Led P s (anchorWrite t) := by
  refine Led.lift h hw ?_
  unfold anchorWrite
  with_reducible repeat' first | assumption | exact Led.refl _ _ | apply ringWrite_led | apply sendPeer_led | with_unfolding_all exact Touch.holds rfl | (refine Led.foldl ?_ ?_; rotate_left; intro _ _ _) | fail_if_no_progress refine Led.record ?_ rfl | split

end Sys2Proof.Machine
end

