-- ==== Sys2Proof/Laws/FramesFlash.lean ====
section
/-! SUPPORT. One lemma for each operation and each command, saying once what the operations over stripes, reads, metadata pages, checkpoints, host commands, staging, deduplication, members and blocks can do: the frame of each is the `Touch` it names. -/

set_option Elab.async false
set_option linter.all false

namespace Sys2Proof.Machine

theorem setGroup_led {P : Touch} {s t : State} (a0) (h : Led P s t) (hw : Touch.within { ec := true } P = true) :
    Led P s (setGroup a0 t) := by
  refine Led.lift h hw ?_
  unfold setGroup
  exact Led.record (.refl _ _) rfl

theorem seekPlace_led {P : Touch} {s t : State} (a0 a1) (h : Led P s t) (hw : Touch.within { jobs := true } P = true) :
    Led P s (seekPlace a0 a1 t) := by
  refine Led.lift h hw ?_
  unfold seekPlace
  exact Led.record (.refl _ _) rfl

theorem closeGroup_led {P : Touch} {s t : State} (a0) (h : Led P s t) (hw : Touch.within { trust := true, tally := true, ftl := true, ec := true, jobs := true, corr := true, out := true } P = true) :
    Led P s (closeGroup a0 t) := by
  refine Led.lift h hw ?_
  unfold closeGroup
  with_reducible repeat' first | assumption | exact Led.refl _ _ | apply journal_led | apply setGroup_led | apply seekPlace_led | apply setBlkState_led | with_unfolding_all exact Touch.holds rfl | (refine Led.foldl ?_ ?_; rotate_left; intro _ _ _) | fail_if_no_progress refine Led.record ?_ rfl | split

theorem closeStripe_led {P : Touch} {s t : State} (a0 a1) (h : Led P s t) (hw : Touch.within { trust := true, tally := true, ftl := true, ec := true, bay := true, jobs := true, corr := true, out := true } P = true) :
    Led P s (closeStripe a0 a1 t) := by
  refine Led.lift h hw ?_
  unfold closeStripe
  with_reducible repeat' first | assumption | exact Led.refl _ _ | apply setGroup_led | apply journal_led | apply openBlock_led | apply tallyAdd_led | apply queueOp_led | apply closeGroup_led | with_unfolding_all exact Touch.holds rfl | (refine Led.foldl ?_ ?_; rotate_left; intro _ _ _) | fail_if_no_progress refine Led.record ?_ rfl | split | dsimp only

theorem postStrip_led {P : Touch} {s t : State} (a0) (h : Led P s t) (hw : Touch.within { trust := true, tally := true, ftl := true, ec := true, bay := true, jobs := true, corr := true, out := true } P = true) :
    Led P s (postStrip a0 t) := by
  refine Led.lift h hw ?_
  unfold postStrip
  with_reducible repeat' first | assumption | exact Led.refl _ _ | apply journal_led | apply setGroup_led | apply tallyAdd_led | apply queueOp_led | apply closeStripe_led | with_unfolding_all exact Touch.holds rfl | fail_if_no_progress refine Led.record ?_ rfl | split | dsimp only

theorem closeEarly_led {P : Touch} {s t : State} (a0) (h : Led P s t) (hw : Touch.within { trust := true, tally := true, ftl := true, ec := true, bay := true, jobs := true, corr := true, out := true } P = true) :
    Led P s (closeEarly a0 t) := by
  refine Led.lift h hw ?_
  unfold closeEarly
  with_reducible repeat' first | assumption | exact Led.refl _ _ | apply postStrip_led | apply closeStripe_led | with_unfolding_all exact Touch.holds rfl | split

theorem openGroup_led {P : Touch} {s t : State} (a0) (h : Led P s t) (hw : Touch.within { trust := true, tally := true, ftl := true, ec := true, corr := true, out := true } P = true) :
    Led P s (openGroup a0 t) := by
  refine Led.lift h hw ?_
  unfold openGroup
  with_reducible repeat' first | assumption | exact Led.refl _ _ | apply journal_led | apply afterDurable_led | apply openBlock_led | with_unfolding_all exact Touch.holds rfl | (refine Led.foldl ?_ ?_; rotate_left; intro _ _ _) | fail_if_no_progress refine Led.record ?_ rfl | split

theorem placeSlot_led {P : Touch} {s t : State} (a0 a1) (h : Led P s t) (hw : Touch.within { trust := true, tally := true, ftl := true, ec := true, bay := true, jobs := true, corr := true, out := true } P = true) :
    Led P s (placeSlot a0 a1 t).1 := by
  refine Led.lift h hw ?_
  unfold placeSlot
  with_reducible repeat' first | assumption | exact Led.refl _ _ | apply openGroup_led | apply postStrip_led | apply setGroup_led | with_unfolding_all exact Touch.holds rfl | fail_if_no_progress refine Led.record ?_ rfl | split | dsimp only

theorem placeMoved_led {P : Touch} {s t : State} (a0 a1) (h : Led P s t) (hw : Touch.within { trust := true, tally := true, ftl := true, ec := true, bay := true, jobs := true, corr := true, out := true } P = true) :
    Led P s (placeMoved a0 a1 t) := by
  refine Led.lift h hw ?_
  unfold placeMoved
  with_reducible repeat' first | assumption | exact Led.refl _ _ | apply placeSlot_led | apply seekPlace_led | with_unfolding_all exact Touch.holds rfl | refine Led.ite ?_ ?_ | intro _ | refine Led.ofFst ‹_ = (_, _)› ?_ | refine Led.ofSnd ‹_ = (_, _)› ?_ | refine Led.ofSome ‹_ = some _› ?_ | fail_if_no_progress refine Led.record ?_ rfl | split | dsimp only

theorem closeFull_led {P : Touch} {s t : State} (h : Led P s t) (hw : Touch.within { trust := true, tally := true, ftl := true, ec := true, bay := true, jobs := true, corr := true, out := true } P = true) :
    Led P s (closeFull t) := by
  refine Led.lift h hw ?_
  unfold closeFull
  with_reducible repeat' first | assumption | exact Led.refl _ _ | apply closeStripe_led | with_unfolding_all exact Touch.holds rfl | (refine Led.foldl ?_ ?_; rotate_left; intro _ _ _) | fail_if_no_progress refine Led.record ?_ rfl | split

theorem placeHomeless_led {P : Touch} {s t : State} (h : Led P s t) (hw : Touch.within { trust := true, tally := true, ftl := true, ec := true, bay := true, jobs := true, corr := true, out := true } P = true) :
    Led P s (placeHomeless t) := by
  refine Led.lift h hw ?_
  unfold placeHomeless
  with_reducible repeat' first | assumption | exact Led.refl _ _ | apply placeMoved_led | with_unfolding_all exact Touch.holds rfl | (refine Led.foldl ?_ ?_; rotate_left; intro _ _ _) | fail_if_no_progress refine Led.record ?_ rfl | split

theorem setRead_led {P : Touch} {s t : State} (a0) (h : Led P s t) (hw : Touch.within { jobs := true } P = true) :
    Led P s (setRead a0 t) := by
  refine Led.lift h hw ?_
  unfold setRead
  exact Led.record (.refl _ _) rfl

theorem postSource_led {P : Touch} {s t : State} (a0 a1 a2 a3) (h : Led P s t) (hw : Touch.within { bay := true } P = true) :
    Led P s (postSource a0 a1 a2 a3 t) := by
  refine Led.lift h hw ?_
  unfold postSource
  with_reducible repeat' first | assumption | exact Led.refl _ _ | apply readOp_led | with_unfolding_all exact Touch.holds rfl

theorem reconstructSlot_led {P : Touch} {s t : State} (a0) (h : Led P s t) (hw : Touch.within { bay := true, jobs := true } P = true) :
    LedOpt P s (reconstructSlot a0 t) := by
  refine LedOpt.lift h hw ?_
  unfold reconstructSlot
  with_reducible repeat' first | assumption | exact Led.refl _ _ | apply setRead_led | apply postSource_led | with_unfolding_all exact Touch.holds rfl | exact LedOpt.none | apply LedOpt.some | (refine Led.foldl ?_ ?_; rotate_left; intro _ _ _) | fail_if_no_progress refine Led.record ?_ rfl | split | dsimp only

theorem postRead_led {P : Touch} {s t : State} (a0) (h : Led P s t) (hw : Touch.within { bay := true, jobs := true } P = true) :
    Led P s (postRead a0 t) := by
  refine Led.lift h hw ?_
  unfold postRead
  repeat' first
    | with_reducible assumption | with_reducible exact Led.refl _ _ | with_reducible apply readOp_led | with_reducible apply reconstructSlot_led
    | with_reducible apply LedO.next | with_reducible exact LedOpt.none | with_reducible apply LedOpt.some
    | with_reducible exact LedPair.none | with_reducible apply LedPair.some | with_reducible apply LedSum.inl | with_reducible exact LedSum.inr
    | (with_reducible refine Led.foldl ?_ ?_; rotate_left; intro _ _ _)
    | (with_reducible refine Led.foldlFst ?_ ?_; rotate_left; intro _ _ _ _)
    | (with_reducible refine Led.foldlSnd ?_ ?_; rotate_left; intro _ _ _ _)
    | with_reducible intro _
    | with_reducible refine Led.ofFst ‹_ = (_, _)› ?_ | with_reducible refine Led.ofSnd ‹_ = (_, _)› ?_
    | with_reducible refine Led.ofSome ‹_ = some _› ?_ | with_reducible refine Led.ofInl ‹_ = Sum.inl _› ?_
    | with_reducible refine Led.ofPair ‹_ = some (_, _)› ?_
    | with_reducible refine Led.getD ?_ ?_ | with_reducible refine LedOpt.bind ?_ ?_ | with_reducible refine LedOpt.map ?_ ?_ | with_reducible refine LedOpt.bindVal ?_
    | with_reducible refine Led.ite ?_ ?_ | with_reducible refine LedO.ite ?_ ?_ | with_reducible refine LedOpt.ite ?_ ?_
    | with_reducible refine LedPair.ite ?_ ?_ | with_reducible refine LedSum.ite ?_ ?_
    | fail_if_no_progress (with_reducible refine Led.record ?_ rfl)
    | exact Touch.holds rfl | exact Touch.within_trans rfl ‹_› | split
    | dsimp only
    | dsimp only [id]

theorem startRead_led {P : Touch} {s t : State} (a0 a1 a2 a3) (h : Led P s t) (hw : Touch.within { ftl := true, bay := true, jobs := true } P = true) :
    Led P s (startRead a0 a1 a2 a3 t) := by
  refine Led.lift h hw ?_
  unfold startRead
  with_reducible repeat' first | assumption | exact Led.refl _ _ | apply postRead_led | with_unfolding_all exact Touch.holds rfl | fail_if_no_progress refine Led.record ?_ rfl

theorem dropRead_led {P : Touch} {s t : State} (a0) (h : Led P s t) (hw : Touch.within { jobs := true } P = true) :
    Led P s (dropRead a0 t) := by
  refine Led.lift h hw ?_
  unfold dropRead
  exact Led.record (.refl _ _) rfl

theorem unpinBlock_led {P : Touch} {s t : State} (a0) (h : Led P s t) (hw : Touch.within { ftl := true } P = true) :
    Led P s (unpinBlock a0 t) := by
  refine Led.lift h hw ?_
  unfold unpinBlock
  exact Led.record (.refl _ _) rfl

theorem endRead_led {P : Touch} {s t : State} (a0) (h : Led P s t) (hw : Touch.within { ftl := true, jobs := true } P = true) :
    Led P s (endRead a0 t) := by
  refine Led.lift h hw ?_
  unfold endRead
  exact Led.record (.refl _ _) rfl

theorem replaceSource_led {P : Touch} {s t : State} (a0 a1) (h : Led P s t) (hw : Touch.within { bay := true, jobs := true } P = true) :
    LedOpt P s (replaceSource a0 a1 t) := by
  refine LedOpt.lift h hw ?_
  unfold replaceSource
  with_reducible repeat' first | assumption | exact Led.refl _ _ | apply setRead_led | apply postSource_led | with_unfolding_all exact Touch.holds rfl | exact LedOpt.none | apply LedOpt.some | split

theorem sealMeta_led {P : Touch} {s t : State} (a0 a1) (h : Led P s t) (hw : Touch.within { trust := true, tally := true, ftl := true, ciph := true, corr := true, out := true } P = true) :
    Led P s (sealMeta a0 a1 t).1 := by
  refine Led.lift h hw ?_
  unfold sealMeta
  with_reducible repeat' first | assumption | exact Led.refl _ _ | apply takeNonce_led | with_unfolding_all exact Touch.holds rfl | refine Led.ite ?_ ?_ | intro _ | refine Led.ofFst ‹_ = (_, _)› ?_ | refine Led.ofSnd ‹_ = (_, _)› ?_ | refine Led.ofSome ‹_ = some _› ?_ | fail_if_no_progress refine Led.record ?_ rfl | split | dsimp only

theorem sealPages_led {P : Touch} {s t : State} (a0 a1 a2) (h : Led P s t) (hw : Touch.within { trust := true, tally := true, ftl := true, ciph := true, corr := true, out := true } P = true) :
    Led P s (sealPages a0 a1 a2 t).1 := by
  suffices H : ∀ s t, Led { trust := true, tally := true, ftl := true, ciph := true, corr := true, out := true } s t → Led { trust := true, tally := true, ftl := true, ciph := true, corr := true, out := true } s (sealPages a0 a1 a2 t).1 from Led.lift h hw (H _ _ (.refl _ _))
  clear h hw
  intro s t h
  induction a1 generalizing a0 a2 t with
  | nil =>
    unfold sealPages
    repeat' first
      | with_reducible assumption | with_reducible exact Led.refl _ _ | with_reducible apply sealMeta_led | with_reducible apply ih
      | with_reducible apply LedO.next | with_reducible exact LedOpt.none | with_reducible apply LedOpt.some
      | with_reducible exact LedPair.none | with_reducible apply LedPair.some | with_reducible apply LedSum.inl | with_reducible exact LedSum.inr
      | (with_reducible refine Led.foldl ?_ ?_; rotate_left; intro _ _ _)
      | (with_reducible refine Led.foldlFst ?_ ?_; rotate_left; intro _ _ _ _)
      | (with_reducible refine Led.foldlSnd ?_ ?_; rotate_left; intro _ _ _ _)
      | with_reducible intro _
      | with_reducible refine Led.ofFst ‹_ = (_, _)› ?_ | with_reducible refine Led.ofSnd ‹_ = (_, _)› ?_
      | with_reducible refine Led.ofSome ‹_ = some _› ?_ | with_reducible refine Led.ofInl ‹_ = Sum.inl _› ?_
      | with_reducible refine Led.ofPair ‹_ = some (_, _)› ?_
      | with_reducible refine Led.getD ?_ ?_ | with_reducible refine LedOpt.bind ?_ ?_ | with_reducible refine LedOpt.map ?_ ?_ | with_reducible refine LedOpt.bindVal ?_
      | with_reducible refine Led.ite ?_ ?_ | with_reducible refine LedO.ite ?_ ?_ | with_reducible refine LedOpt.ite ?_ ?_
      | with_reducible refine LedPair.ite ?_ ?_ | with_reducible refine LedSum.ite ?_ ?_
      | fail_if_no_progress (with_reducible refine Led.record ?_ rfl)
      | exact Touch.holds rfl | exact Touch.within_trans rfl ‹_› | split
      | dsimp only
      | dsimp only [id]
  | cons _ _ ih =>
    unfold sealPages
    repeat' first
      | with_reducible assumption | with_reducible exact Led.refl _ _ | with_reducible apply sealMeta_led | with_reducible apply ih
      | with_reducible apply LedO.next | with_reducible exact LedOpt.none | with_reducible apply LedOpt.some
      | with_reducible exact LedPair.none | with_reducible apply LedPair.some | with_reducible apply LedSum.inl | with_reducible exact LedSum.inr
      | (with_reducible refine Led.foldl ?_ ?_; rotate_left; intro _ _ _)
      | (with_reducible refine Led.foldlFst ?_ ?_; rotate_left; intro _ _ _ _)
      | (with_reducible refine Led.foldlSnd ?_ ?_; rotate_left; intro _ _ _ _)
      | with_reducible intro _
      | with_reducible refine Led.ofFst ‹_ = (_, _)› ?_ | with_reducible refine Led.ofSnd ‹_ = (_, _)› ?_
      | with_reducible refine Led.ofSome ‹_ = some _› ?_ | with_reducible refine Led.ofInl ‹_ = Sum.inl _› ?_
      | with_reducible refine Led.ofPair ‹_ = some (_, _)› ?_
      | with_reducible refine Led.getD ?_ ?_ | with_reducible refine LedOpt.bind ?_ ?_ | with_reducible refine LedOpt.map ?_ ?_ | with_reducible refine LedOpt.bindVal ?_
      | with_reducible refine Led.ite ?_ ?_ | with_reducible refine LedO.ite ?_ ?_ | with_reducible refine LedOpt.ite ?_ ?_
      | with_reducible refine LedPair.ite ?_ ?_ | with_reducible refine LedSum.ite ?_ ?_
      | fail_if_no_progress (with_reducible refine Led.record ?_ rfl)
      | exact Touch.holds rfl | exact Touch.within_trans rfl ‹_› | split
      | dsimp only
      | dsimp only [id]

theorem writeStrip_led {P : Touch} {s t : State} (a0 a1 a2) (h : Led P s t) (hw : Touch.within { trust := true, tally := true, ftl := true, bay := true, ciph := true, corr := true, out := true } P = true) :
    Led P s (writeStrip a0 a1 a2 t).1 := by
  refine Led.lift h hw ?_
  unfold writeStrip
  with_reducible repeat' first | assumption | exact Led.refl _ _ | apply sealPages_led | apply openBlock_led | apply queueOp_led | apply setBlkState_led | with_unfolding_all exact Touch.holds rfl | (refine Led.foldl ?_ ?_; rotate_left; intro _ _ _) | fail_if_no_progress refine Led.record ?_ rfl | split | dsimp only

theorem writePages_led {P : Touch} {s t : State} (a0 a1 a2 a3) (h : Led P s t) (hw : Touch.within { trust := true, tally := true, ftl := true, bay := true, ciph := true, corr := true, out := true } P = true) :
    Led P s (writePages a0 a1 a2 a3 t).1 := by
  suffices H : ∀ s t, Led { trust := true, tally := true, ftl := true, bay := true, ciph := true, corr := true, out := true } s t → Led { trust := true, tally := true, ftl := true, bay := true, ciph := true, corr := true, out := true } s (writePages a0 a1 a2 a3 t).1 from Led.lift h hw (H _ _ (.refl _ _))
  clear h hw
  intro s t h
  induction a2 generalizing a0 a1 a3 t with
  | zero =>
    unfold writePages
    repeat' first
      | with_reducible assumption | with_reducible exact Led.refl _ _ | with_reducible apply writeStrip_led | with_reducible apply ih
      | with_reducible apply LedO.next | with_reducible exact LedOpt.none | with_reducible apply LedOpt.some
      | with_reducible exact LedPair.none | with_reducible apply LedPair.some | with_reducible apply LedSum.inl | with_reducible exact LedSum.inr
      | (with_reducible refine Led.foldl ?_ ?_; rotate_left; intro _ _ _)
      | (with_reducible refine Led.foldlFst ?_ ?_; rotate_left; intro _ _ _ _)
      | (with_reducible refine Led.foldlSnd ?_ ?_; rotate_left; intro _ _ _ _)
      | with_reducible intro _
      | with_reducible refine Led.ofFst ‹_ = (_, _)› ?_ | with_reducible refine Led.ofSnd ‹_ = (_, _)› ?_
      | with_reducible refine Led.ofSome ‹_ = some _› ?_ | with_reducible refine Led.ofInl ‹_ = Sum.inl _› ?_
      | with_reducible refine Led.ofPair ‹_ = some (_, _)› ?_
      | with_reducible refine Led.getD ?_ ?_ | with_reducible refine LedOpt.bind ?_ ?_ | with_reducible refine LedOpt.map ?_ ?_ | with_reducible refine LedOpt.bindVal ?_
      | with_reducible refine Led.ite ?_ ?_ | with_reducible refine LedO.ite ?_ ?_ | with_reducible refine LedOpt.ite ?_ ?_
      | with_reducible refine LedPair.ite ?_ ?_ | with_reducible refine LedSum.ite ?_ ?_
      | fail_if_no_progress (with_reducible refine Led.record ?_ rfl)
      | exact Touch.holds rfl | exact Touch.within_trans rfl ‹_› | split
      | dsimp only
      | dsimp only [id]
  | succ _ ih =>
    unfold writePages
    repeat' first
      | with_reducible assumption | with_reducible exact Led.refl _ _ | with_reducible apply writeStrip_led | with_reducible apply ih
      | with_reducible apply LedO.next | with_reducible exact LedOpt.none | with_reducible apply LedOpt.some
      | with_reducible exact LedPair.none | with_reducible apply LedPair.some | with_reducible apply LedSum.inl | with_reducible exact LedSum.inr
      | (with_reducible refine Led.foldl ?_ ?_; rotate_left; intro _ _ _)
      | (with_reducible refine Led.foldlFst ?_ ?_; rotate_left; intro _ _ _ _)
      | (with_reducible refine Led.foldlSnd ?_ ?_; rotate_left; intro _ _ _ _)
      | with_reducible intro _
      | with_reducible refine Led.ofFst ‹_ = (_, _)› ?_ | with_reducible refine Led.ofSnd ‹_ = (_, _)› ?_
      | with_reducible refine Led.ofSome ‹_ = some _› ?_ | with_reducible refine Led.ofInl ‹_ = Sum.inl _› ?_
      | with_reducible refine Led.ofPair ‹_ = some (_, _)› ?_
      | with_reducible refine Led.getD ?_ ?_ | with_reducible refine LedOpt.bind ?_ ?_ | with_reducible refine LedOpt.map ?_ ?_ | with_reducible refine LedOpt.bindVal ?_
      | with_reducible refine Led.ite ?_ ?_ | with_reducible refine LedO.ite ?_ ?_ | with_reducible refine LedOpt.ite ?_ ?_
      | with_reducible refine LedPair.ite ?_ ?_ | with_reducible refine LedSum.ite ?_ ?_
      | fail_if_no_progress (with_reducible refine Led.record ?_ rfl)
      | exact Touch.holds rfl | exact Touch.within_trans rfl ‹_› | split
      | dsimp only
      | dsimp only [id]

theorem writeMetaAs_led {P : Touch} {s t : State} (a0 a1 a2) (h : Led P s t) (hw : Touch.within { trust := true, tally := true, ftl := true, bay := true, ciph := true, corr := true, out := true } P = true) :
    Led P s (writeMetaAs a0 a1 a2 t).1 := by
  refine Led.lift h hw ?_
  unfold writeMetaAs
  with_reducible repeat' first | assumption | exact Led.refl _ _ | apply writePages_led | with_unfolding_all exact Touch.holds rfl

theorem readMetaAs_led {P : Touch} {s t : State} (a0 a1 a2 a3) (h : Led P s t) (hw : Touch.within { bay := true } P = true) :
    Led P s (readMetaAs a0 a1 a2 a3 t) := by
  refine Led.lift h hw ?_
  unfold readMetaAs
  with_reducible repeat' first | assumption | exact Led.refl _ _ | apply readOp_led | with_unfolding_all exact Touch.holds rfl

theorem readMeta_led {P : Touch} {s t : State} (a0 a1 a2) (h : Led P s t) (hw : Touch.within { bay := true } P = true) :
    Led P s (readMeta a0 a1 a2 t) := by
  refine Led.lift h hw ?_
  unfold readMeta
  with_reducible repeat' first | assumption | exact Led.refl _ _ | apply readMetaAs_led | with_unfolding_all exact Touch.holds rfl

theorem fetchMeta_led {P : Touch} {s t : State} (a0 a1 a2) (h : Led P s t) (hw : Touch.within { ftl := true, bay := true } P = true) :
    Led P s (fetchMeta a0 a1 a2 t) := by
  refine Led.lift h hw ?_
  unfold fetchMeta
  with_reducible repeat' first | assumption | exact Led.refl _ _ | apply readMeta_led | with_unfolding_all exact Touch.holds rfl | fail_if_no_progress refine Led.record ?_ rfl

theorem writeMeta_led {P : Touch} {s t : State} (a0) (h : Led P s t) (hw : Touch.within { trust := true, tally := true, ftl := true, bay := true, ciph := true, corr := true, out := true } P = true) :
    Led P s (writeMeta a0 t).1 := by
  refine Led.lift h hw ?_
  unfold writeMeta
  with_reducible repeat' first | assumption | exact Led.refl _ _ | apply writeMetaAs_led | with_unfolding_all exact Touch.holds rfl

theorem cacheBell_led {P : Touch} {s t : State} (h : Led P s t) (hw : Touch.within { ftl := true, bay := true } P = true) :
    Led P s (cacheBell t) := by
  refine Led.lift h hw ?_
  unfold cacheBell
  with_reducible repeat' first | assumption | exact Led.refl _ _ | apply fetchMeta_led | with_unfolding_all exact Touch.holds rfl | (refine Led.foldl ?_ ?_; rotate_left; intro _ _ _) | fail_if_no_progress refine Led.record ?_ rfl | split | dsimp only

theorem writeLevel_led {P : Touch} {s t : State} (a0 a1) (h : Led P s t) (hw : Touch.within { trust := true, tally := true, ftl := true, bay := true, ciph := true, corr := true, out := true } P = true) :
    Led P s (writeLevel a0 a1 t) := by
  refine Led.lift h hw ?_
  unfold writeLevel
  with_reducible repeat' first | assumption | exact Led.refl _ _ | apply writeMeta_led | apply journal_led | apply setRoot_led | with_unfolding_all exact Touch.holds rfl | (refine Led.foldl ?_ ?_; rotate_left; intro _ _ _) | fail_if_no_progress refine Led.record ?_ rfl | split | dsimp only

theorem writeUp_led {P : Touch} {s t : State} (a0 a1 a2 a3) (h : Led P s t) (hw : Touch.within { trust := true, tally := true, ftl := true, bay := true, ciph := true, corr := true, out := true } P = true) :
    Led P s (writeUp a0 a1 a2 a3 t) := by
  suffices H : ∀ s t, Led { trust := true, tally := true, ftl := true, bay := true, ciph := true, corr := true, out := true } s t → Led { trust := true, tally := true, ftl := true, bay := true, ciph := true, corr := true, out := true } s (writeUp a0 a1 a2 a3 t) from Led.lift h hw (H _ _ (.refl _ _))
  clear h hw
  intro s t h
  induction a1 generalizing a0 a2 a3 t with
  | zero =>
    unfold writeUp
    repeat' first
      | with_reducible assumption | with_reducible exact Led.refl _ _ | with_reducible apply writeLevel_led | with_reducible apply ih
      | with_reducible apply LedO.next | with_reducible exact LedOpt.none | with_reducible apply LedOpt.some
      | with_reducible exact LedPair.none | with_reducible apply LedPair.some | with_reducible apply LedSum.inl | with_reducible exact LedSum.inr
      | (with_reducible refine Led.foldl ?_ ?_; rotate_left; intro _ _ _)
      | (with_reducible refine Led.foldlFst ?_ ?_; rotate_left; intro _ _ _ _)
      | (with_reducible refine Led.foldlSnd ?_ ?_; rotate_left; intro _ _ _ _)
      | with_reducible intro _
      | with_reducible refine Led.ofFst ‹_ = (_, _)› ?_ | with_reducible refine Led.ofSnd ‹_ = (_, _)› ?_
      | with_reducible refine Led.ofSome ‹_ = some _› ?_ | with_reducible refine Led.ofInl ‹_ = Sum.inl _› ?_
      | with_reducible refine Led.ofPair ‹_ = some (_, _)› ?_
      | with_reducible refine Led.getD ?_ ?_ | with_reducible refine LedOpt.bind ?_ ?_ | with_reducible refine LedOpt.map ?_ ?_ | with_reducible refine LedOpt.bindVal ?_
      | with_reducible refine Led.ite ?_ ?_ | with_reducible refine LedO.ite ?_ ?_ | with_reducible refine LedOpt.ite ?_ ?_
      | with_reducible refine LedPair.ite ?_ ?_ | with_reducible refine LedSum.ite ?_ ?_
      | fail_if_no_progress (with_reducible refine Led.record ?_ rfl)
      | exact Touch.holds rfl | exact Touch.within_trans rfl ‹_› | split
      | dsimp only
      | dsimp only [id]
  | succ _ ih =>
    unfold writeUp
    repeat' first
      | with_reducible assumption | with_reducible exact Led.refl _ _ | with_reducible apply writeLevel_led | with_reducible apply ih
      | with_reducible apply LedO.next | with_reducible exact LedOpt.none | with_reducible apply LedOpt.some
      | with_reducible exact LedPair.none | with_reducible apply LedPair.some | with_reducible apply LedSum.inl | with_reducible exact LedSum.inr
      | (with_reducible refine Led.foldl ?_ ?_; rotate_left; intro _ _ _)
      | (with_reducible refine Led.foldlFst ?_ ?_; rotate_left; intro _ _ _ _)
      | (with_reducible refine Led.foldlSnd ?_ ?_; rotate_left; intro _ _ _ _)
      | with_reducible intro _
      | with_reducible refine Led.ofFst ‹_ = (_, _)› ?_ | with_reducible refine Led.ofSnd ‹_ = (_, _)› ?_
      | with_reducible refine Led.ofSome ‹_ = some _› ?_ | with_reducible refine Led.ofInl ‹_ = Sum.inl _› ?_
      | with_reducible refine Led.ofPair ‹_ = some (_, _)› ?_
      | with_reducible refine Led.getD ?_ ?_ | with_reducible refine LedOpt.bind ?_ ?_ | with_reducible refine LedOpt.map ?_ ?_ | with_reducible refine LedOpt.bindVal ?_
      | with_reducible refine Led.ite ?_ ?_ | with_reducible refine LedO.ite ?_ ?_ | with_reducible refine LedOpt.ite ?_ ?_
      | with_reducible refine LedPair.ite ?_ ?_ | with_reducible refine LedSum.ite ?_ ?_
      | fail_if_no_progress (with_reducible refine Led.record ?_ rfl)
      | exact Touch.holds rfl | exact Touch.within_trans rfl ‹_› | split
      | dsimp only
      | dsimp only [id]

theorem execCheckpointStart_led {P : Touch} {s t : State} (h : Led P s t) (hw : Touch.within { trust := true, tally := true, ftl := true, saved := true, corr := true, out := true } P = true) :
    LedO P s (execCheckpointStart t) := by
  refine LedO.lift h hw ?_
  unfold execCheckpointStart
  with_reducible repeat' first | assumption | exact Led.refl _ _ | apply whenDue_led | apply journal_led | with_unfolding_all exact Touch.holds rfl | apply LedO.next | fail_if_no_progress refine Led.record ?_ rfl

theorem checkpointPages_led {P : Touch} {s t : State} (h : Led P s t) (hw : Touch.within { trust := true, tally := true, ftl := true, bay := true, ciph := true, corr := true, out := true } P = true) :
    Led P s (checkpointPages t) := by
  refine Led.lift h hw ?_
  unfold checkpointPages
  with_reducible repeat' first | assumption | exact Led.refl _ _ | apply writeUp_led | apply writeLevel_led | apply writeMeta_led | with_unfolding_all exact Touch.holds rfl | refine Led.ite ?_ ?_ | intro _ | refine Led.ofFst ‹_ = (_, _)› ?_ | refine Led.ofSnd ‹_ = (_, _)› ?_ | refine Led.ofSome ‹_ = some _› ?_ | fail_if_no_progress refine Led.record ?_ rfl | split | dsimp only

theorem execCheckpointPhase2_led {P : Touch} {s t : State} (h : Led P s t) (hw : Touch.within { trust := true, tally := true, ftl := true, corr := true, out := true } P = true) :
    LedO P s (execCheckpointPhase2 t) := by
  refine LedO.lift h hw ?_
  unfold execCheckpointPhase2
  with_reducible repeat' first | assumption | exact Led.refl _ _ | apply whenDue_led | apply afterDurable_led | apply journal_led | with_unfolding_all exact Touch.holds rfl | apply LedO.next | fail_if_no_progress refine Led.record ?_ rfl | split

theorem freeDead_led {P : Touch} {s t : State} (h : Led P s t) (hw : Touch.within { trust := true, tally := true, ftl := true, corr := true, out := true } P = true) :
    Led P s (freeDead t) := by
  refine Led.lift h hw ?_
  unfold freeDead
  with_reducible repeat' first | assumption | exact Led.refl _ _ | apply afterDurable_led | apply setBlkState_led | with_unfolding_all exact Touch.holds rfl | (refine Led.foldl ?_ ?_; rotate_left; intro _ _ _) | fail_if_no_progress refine Led.record ?_ rfl | split

theorem checkpointDone_led {P : Touch} {s t : State} (h : Led P s t) (hw : Touch.within { trust := true, tally := true, ftl := true, bay := true, pool := true, saved := true, corr := true, out := true } P = true) :
    Led P s (checkpointDone t) := by
  refine Led.lift h hw ?_
  unfold checkpointDone
  with_reducible repeat' first | assumption | exact Led.refl _ _ | apply freeDead_led | apply tallyAdd_led | apply anchorWrite_led | with_unfolding_all exact Touch.holds rfl | fail_if_no_progress refine Led.record ?_ rfl | split

theorem writeGroups_led {P : Touch} {s t : State} (a0) (h : Led P s t) (hw : Touch.within { trust := true, tally := true, ftl := true, bay := true, ciph := true, corr := true, out := true } P = true) :
    Led P s (writeGroups a0 t).1 := by
  suffices H : ∀ s t, Led { trust := true, tally := true, ftl := true, bay := true, ciph := true, corr := true, out := true } s t → Led { trust := true, tally := true, ftl := true, bay := true, ciph := true, corr := true, out := true } s (writeGroups a0 t).1 from Led.lift h hw (H _ _ (.refl _ _))
  clear h hw
  intro s t h
  induction a0 generalizing  t with
  | nil =>
    unfold writeGroups
    repeat' first
      | with_reducible assumption | with_reducible exact Led.refl _ _ | with_reducible apply writeMetaAs_led | with_reducible apply ih
      | with_reducible apply LedO.next | with_reducible exact LedOpt.none | with_reducible apply LedOpt.some
      | with_reducible exact LedPair.none | with_reducible apply LedPair.some | with_reducible apply LedSum.inl | with_reducible exact LedSum.inr
      | (with_reducible refine Led.foldl ?_ ?_; rotate_left; intro _ _ _)
      | (with_reducible refine Led.foldlFst ?_ ?_; rotate_left; intro _ _ _ _)
      | (with_reducible refine Led.foldlSnd ?_ ?_; rotate_left; intro _ _ _ _)
      | with_reducible intro _
      | with_reducible refine Led.ofFst ‹_ = (_, _)› ?_ | with_reducible refine Led.ofSnd ‹_ = (_, _)› ?_
      | with_reducible refine Led.ofSome ‹_ = some _› ?_ | with_reducible refine Led.ofInl ‹_ = Sum.inl _› ?_
      | with_reducible refine Led.ofPair ‹_ = some (_, _)› ?_
      | with_reducible refine Led.getD ?_ ?_ | with_reducible refine LedOpt.bind ?_ ?_ | with_reducible refine LedOpt.map ?_ ?_ | with_reducible refine LedOpt.bindVal ?_
      | with_reducible refine Led.ite ?_ ?_ | with_reducible refine LedO.ite ?_ ?_ | with_reducible refine LedOpt.ite ?_ ?_
      | with_reducible refine LedPair.ite ?_ ?_ | with_reducible refine LedSum.ite ?_ ?_
      | fail_if_no_progress (with_reducible refine Led.record ?_ rfl)
      | exact Touch.holds rfl | exact Touch.within_trans rfl ‹_› | split
      | dsimp only
      | dsimp only [id]
  | cons _ _ ih =>
    unfold writeGroups
    repeat' first
      | with_reducible assumption | with_reducible exact Led.refl _ _ | with_reducible apply writeMetaAs_led | with_reducible apply ih
      | with_reducible apply LedO.next | with_reducible exact LedOpt.none | with_reducible apply LedOpt.some
      | with_reducible exact LedPair.none | with_reducible apply LedPair.some | with_reducible apply LedSum.inl | with_reducible exact LedSum.inr
      | (with_reducible refine Led.foldl ?_ ?_; rotate_left; intro _ _ _)
      | (with_reducible refine Led.foldlFst ?_ ?_; rotate_left; intro _ _ _ _)
      | (with_reducible refine Led.foldlSnd ?_ ?_; rotate_left; intro _ _ _ _)
      | with_reducible intro _
      | with_reducible refine Led.ofFst ‹_ = (_, _)› ?_ | with_reducible refine Led.ofSnd ‹_ = (_, _)› ?_
      | with_reducible refine Led.ofSome ‹_ = some _› ?_ | with_reducible refine Led.ofInl ‹_ = Sum.inl _› ?_
      | with_reducible refine Led.ofPair ‹_ = some (_, _)› ?_
      | with_reducible refine Led.getD ?_ ?_ | with_reducible refine LedOpt.bind ?_ ?_ | with_reducible refine LedOpt.map ?_ ?_ | with_reducible refine LedOpt.bindVal ?_
      | with_reducible refine Led.ite ?_ ?_ | with_reducible refine LedO.ite ?_ ?_ | with_reducible refine LedOpt.ite ?_ ?_
      | with_reducible refine LedPair.ite ?_ ?_ | with_reducible refine LedSum.ite ?_ ?_
      | fail_if_no_progress (with_reducible refine Led.record ?_ rfl)
      | exact Touch.holds rfl | exact Touch.within_trans rfl ‹_› | split
      | dsimp only
      | dsimp only [id]

theorem execSjCheckpointStart_led {P : Touch} {s t : State} (h : Led P s t) (hw : Touch.within { trust := true, tally := true, ftl := true, ec := true, bay := true, ciph := true, corr := true, out := true } P = true) :
    LedO P s (execSjCheckpointStart t) := by
  refine LedO.lift h hw ?_
  unfold execSjCheckpointStart
  with_reducible repeat' first | assumption | exact Led.refl _ _ | apply whenDue_led | apply journal_led | apply writeGroups_led | apply afterDurable_led | with_unfolding_all exact Touch.holds rfl | apply LedO.next | fail_if_no_progress refine Led.record ?_ rfl

theorem sjCheckpointDone_led {P : Touch} {s t : State} (h : Led P s t) (hw : Touch.within { trust := true, tally := true, ftl := true, ec := true, bay := true, pool := true, corr := true, out := true } P = true) :
    Led P s (sjCheckpointDone t) := by
  refine Led.lift h hw ?_
  unfold sjCheckpointDone
  with_reducible repeat' first | assumption | exact Led.refl _ _ | apply anchorWrite_led | with_unfolding_all exact Touch.holds rfl | fail_if_no_progress refine Led.record ?_ rfl | split

theorem setCtx_led {P : Touch} {s t : State} (a0) (h : Led P s t) (hw : Touch.within { hq := true } P = true) :
    Led P s (setCtx a0 t) := by
  refine Led.lift h hw ?_
  unfold setCtx
  exact Led.record (.refl _ _) rfl

theorem dropCtx_led {P : Touch} {s t : State} (a0) (h : Led P s t) (hw : Touch.within { hq := true } P = true) :
    Led P s (dropCtx a0 t) := by
  refine Led.lift h hw ?_
  unfold dropCtx
  exact Led.record (.refl _ _) rfl

theorem noteReaders_led {P : Touch} {s t : State} (h : Led P s t) (hw : Touch.within { stg := true } P = true) :
    Led P s (noteReaders t) := by
  refine Led.lift h hw ?_
  unfold noteReaders
  exact Led.record (.refl _ _) rfl

theorem freeVersions_led {P : Touch} {s t : State} (h : Led P s t) (hw : Touch.within { stg := true } P = true) :
    Led P s (freeVersions t) := by
  refine Led.lift h hw ?_
  unfold freeVersions
  exact Led.record (.refl _ _) rfl

theorem unpin_led {P : Touch} {s t : State} (h : Led P s t) (hw : Touch.within { stg := true } P = true) :
    Led P s (unpin t) := by
  refine Led.lift h hw ?_
  unfold unpin
  exact Led.record (.refl _ _) rfl

theorem setController_led {P : Touch} {s t : State} (a0) (h : Led P s t) (hw : Touch.within { hq := true } P = true) :
    Led P s (setController a0 t) := by
  refine Led.lift h hw ?_
  unfold setController
  exact Led.record (.refl _ _) rfl

theorem logError_led {P : Touch} {s t : State} (a0 a1 a2 a3 a4 a5) (h : Led P s t) (hw : Touch.within { hq := true } P = true) :
    Led P s (logError a0 a1 a2 a3 a4 a5 t) := by
  refine Led.lift h hw ?_
  unfold logError
  with_reducible repeat' first | assumption | exact Led.refl _ _ | apply setController_led | with_unfolding_all exact Touch.holds rfl | split

theorem noteError_led {P : Touch} {s t : State} (a0 a1 a2 a3 a4 a5) (h : Led P s t) (hw : Touch.within { tally := true, hq := true } P = true) :
    Led P s (noteError a0 a1 a2 a3 a4 a5 t) := by
  refine Led.lift h hw ?_
  unfold noteError
  with_reducible repeat' first | assumption | exact Led.refl _ _ | apply tallyAdd_led | apply logError_led | with_unfolding_all exact Touch.holds rfl | split

theorem sendCompletion_led {P : Touch} {s t : State} (a0 a1 a2 a3 a4 a5 a6 a7) (h : Led P s t) (hw : Touch.within { tally := true, hq := true, out := true } P = true) :
    Led P s (sendCompletion a0 a1 a2 a3 a4 a5 a6 a7 t) := by
  refine Led.lift h hw ?_
  unfold sendCompletion
  with_reducible repeat' first | assumption | exact Led.refl _ _ | apply noteError_led | apply emit_led | with_unfolding_all exact Touch.holds rfl

theorem completeAt_led {P : Touch} {s t : State} (a0 a1 a2 a3 a4) (h : Led P s t) (hw : Touch.within { tally := true, stg := true, hq := true, out := true } P = true) :
    Led P s (completeAt a0 a1 a2 a3 a4 t) := by
  refine Led.lift h hw ?_
  unfold completeAt
  with_reducible repeat' first | assumption | exact Led.refl _ _ | apply unpin_led | apply dropCtx_led | apply emit_led | apply sendCompletion_led | with_unfolding_all exact Touch.holds rfl | fail_if_no_progress refine Led.record ?_ rfl | split | dsimp only

theorem complete_led {P : Touch} {s t : State} (a0 a1 a2 a3) (h : Led P s t) (hw : Touch.within { tally := true, stg := true, hq := true, out := true } P = true) :
    Led P s (complete a0 a1 a2 a3 t) := by
  refine Led.lift h hw ?_
  unfold complete
  with_reducible repeat' first | assumption | exact Led.refl _ _ | apply completeAt_led | with_unfolding_all exact Touch.holds rfl

theorem failCtx_led {P : Touch} {s t : State} (a0 a1) (h : Led P s t) (hw : Touch.within { tally := true, stg := true, hq := true, out := true } P = true) :
    Led P s (failCtx a0 a1 t) := by
  refine Led.lift h hw ?_
  unfold failCtx
  with_reducible repeat' first | assumption | exact Led.refl _ _ | apply complete_led | with_unfolding_all exact Touch.holds rfl

theorem openWindows_led {P : Touch} {s t : State} (h : Led P s t) (hw : Touch.within { hq := true, out := true } P = true) :
    Led P s (openWindows t) := by
  refine Led.lift h hw ?_
  unfold openWindows
  exact Led.record (.refl _ _) rfl

theorem ackWrite_led {P : Touch} {s t : State} (a0) (h : Led P s t) (hw : Touch.within { tally := true, stg := true, hq := true, out := true } P = true) :
    Led P s (ackWrite a0 t) := by
  refine Led.lift h hw ?_
  unfold ackWrite
  with_reducible repeat' first | assumption | exact Led.refl _ _ | apply complete_led | apply setController_led | apply tallyAdd_led | with_unfolding_all exact Touch.holds rfl | split

theorem setQueue_led {P : Touch} {s t : State} (a0) (h : Led P s t) (hw : Touch.within { hq := true } P = true) :
    Led P s (setQueue a0 t) := by
  refine Led.lift h hw ?_
  unfold setQueue
  exact Led.record (.refl _ _) rfl

theorem notify_led {P : Touch} {s t : State} (a0 a1 a2 a3) (h : Led P s t) (hw : Touch.within { hq := true, out := true } P = true) :
    Led P s (notify a0 a1 a2 a3 t) := by
  refine Led.lift h hw ?_
  unfold notify
  with_reducible repeat' first | assumption | exact Led.refl _ _ | apply emit_led | apply setController_led | with_unfolding_all exact Touch.holds rfl | split

theorem notifyAll_led {P : Touch} {s t : State} (a0 a1 a2) (h : Led P s t) (hw : Touch.within { hq := true, out := true } P = true) :
    Led P s (notifyAll a0 a1 a2 t) := by
  refine Led.lift h hw ?_
  unfold notifyAll
  with_reducible repeat' first | assumption | exact Led.refl _ _ | apply notify_led | with_unfolding_all exact Touch.holds rfl | (refine Led.foldl ?_ ?_; rotate_left; intro _ _ _) | fail_if_no_progress refine Led.record ?_ rfl | split

theorem dropWrite_led {P : Touch} {s t : State} (a0 a1) (h : Led P s t) (hw : Touch.within { stg := true } P = true) :
    Led P s (dropWrite a0 a1 t) := by
  refine Led.lift h hw ?_
  unfold dropWrite
  exact Led.record (.refl _ _) rfl

theorem holdMark_led {P : Touch} {s t : State} (a0) (h : Led P s t) (hw : Touch.within { tally := true, stg := true } P = true) :
    Led P s (holdMark a0 t) := by
  refine Led.lift h hw ?_
  unfold holdMark
  exact Led.record (.refl _ _) rfl

theorem modEntry_led {P : Touch} {s t : State} (a0 a1 a2) (h : Led P s t) (hw : Touch.within { stg := true } P = true) :
    Led P s (modEntry a0 a1 a2 t) := by
  refine Led.lift h hw ?_
  unfold modEntry
  exact Led.record (.refl _ _) rfl

theorem releaseVersions_led {P : Touch} {s t : State} (a0 a1 a2) (h : Led P s t) (hw : Touch.within { stg := true } P = true) :
    Led P s (releaseVersions a0 a1 a2 t) := by
  refine Led.lift h hw ?_
  unfold releaseVersions
  exact Led.record (.refl _ _) rfl

theorem addVersion_led {P : Touch} {s t : State} (a0) (h : Led P s t) (hw : Touch.within { stg := true } P = true) :
    Led P s (addVersion a0 t) := by
  refine Led.lift h hw ?_
  unfold addVersion
  exact Led.record (.refl _ _) rfl

theorem execMirrorData_led {P : Touch} {s t : State} (a0 a1 a2 a3 a4 a5 a6 a7) (h : Led P s t) (hw : Touch.within { trust := true, tally := true, stg := true, corr := true, out := true } P = true) :
    LedO P s (execMirrorData a0 a1 a2 a3 a4 a5 a6 a7 t) := by
  refine LedO.lift h hw ?_
  unfold execMirrorData
  with_reducible repeat' first | assumption | exact Led.refl _ _ | apply onMessage_led | apply reply_led | apply addVersion_led | apply tallyAdd_led | with_unfolding_all exact Touch.holds rfl | apply LedO.next | refine LedO.ite ?_ ?_ | refine Led.ite ?_ ?_ | intro _ | (refine Led.foldl ?_ ?_; rotate_left; intro _ _ _) | fail_if_no_progress refine Led.record ?_ rfl | split

theorem execRelease_led {P : Touch} {s t : State} (a0) (h : Led P s t) (hw : Touch.within { tally := true, stg := true } P = true) :
    LedO P s (execRelease a0 t) := by
  refine LedO.lift h hw ?_
  unfold execRelease
  with_reducible repeat' first | assumption | exact Led.refl _ _ | apply onWord_led | apply releaseVersions_led | with_unfolding_all exact Touch.holds rfl | apply LedO.next | refine LedO.ite ?_ ?_ | refine Led.ite ?_ ?_ | intro _ | (refine Led.foldl ?_ ?_; rotate_left; intro _ _ _) | fail_if_no_progress refine Led.record ?_ rfl | split

theorem execCredit_led {P : Touch} {s t : State} (a0 a1 a2) (h : Led P s t) (hw : Touch.within { tally := true, stg := true } P = true) :
    LedO P s (execCredit a0 a1 a2 t) := by
  refine LedO.lift h hw ?_
  unfold execCredit
  with_reducible repeat' first | assumption | exact Led.refl _ _ | apply onWord_led | with_unfolding_all exact Touch.holds rfl | apply LedO.next | refine LedO.ite ?_ ?_ | refine Led.ite ?_ ?_ | intro _ | fail_if_no_progress refine Led.record ?_ rfl

theorem settleMarks_led {P : Touch} {s t : State} (h : Led P s t) (hw : Touch.within { stg := true } P = true) :
    Led P s (settleMarks t) := by
  refine Led.lift h hw ?_
  unfold settleMarks
  exact Led.record (.refl _ _) rfl

theorem execMarkList_led {P : Touch} {s t : State} (a0 a1) (h : Led P s t) (hw : Touch.within { trust := true, tally := true, stg := true, corr := true, out := true } P = true) :
    LedO P s (execMarkList a0 a1 t) := by
  refine LedO.lift h hw ?_
  unfold execMarkList
  with_reducible repeat' first | assumption | exact Led.refl _ _ | apply onMessage_led | apply reply_led | apply holdMark_led | apply settleMarks_led | with_unfolding_all exact Touch.holds rfl | apply LedO.next | refine LedO.ite ?_ ?_ | refine Led.ite ?_ ?_ | intro _ | (refine Led.foldl ?_ ?_; rotate_left; intro _ _ _) | fail_if_no_progress refine Led.record ?_ rfl | split

theorem execMessageResendTimeout_led {P : Touch} {s t : State} (a0) (h : Led P s t) (hw : Touch.within { trust := true, diary := true, tally := true, corr := true, out := true } P = true) :
    LedO P s (execMessageResendTimeout a0 t) := by
  refine LedO.lift h hw ?_
  unfold execMessageResendTimeout
  with_reducible repeat' first | assumption | exact Led.refl _ _ | apply event_led | apply tallyAdd_led | apply transmit_led | with_unfolding_all exact Touch.holds rfl | apply LedO.next | fail_if_no_progress refine Led.record ?_ rfl | split

theorem execDestageAgeExpiry_led {P : Touch} {s t : State} (a0 a1) (h : Led P s t) (hw : Touch.within { stg := true } P = true) :
    LedO P s (execDestageAgeExpiry a0 a1 t) := by
  refine LedO.lift h hw ?_
  unfold execDestageAgeExpiry
  with_reducible repeat' first | assumption | exact Led.refl _ _ | apply whenDue_led | apply modEntry_led | with_unfolding_all exact Touch.holds rfl | apply LedO.next | split

theorem filterRemove_led {P : Touch} {s t : State} (a0) (h : Led P s t) (hw : Touch.within { ddp := true } P = true) :
    Led P s (filterRemove a0 t) := by
  refine Led.lift h hw ?_
  unfold filterRemove
  exact Led.record (.refl _ _) rfl

theorem indexChange_led {P : Touch} {s t : State} (a0 a1) (h : Led P s t) (hw : Touch.within { trust := true, tally := true, ddp := true, ftl := true, corr := true, out := true } P = true) :
    Led P s (indexChange a0 a1 t) := by
  refine Led.lift h hw ?_
  unfold indexChange
  with_reducible repeat' first | assumption | exact Led.refl _ _ | apply filterRemove_led | apply journal_led | with_unfolding_all exact Touch.holds rfl | fail_if_no_progress refine Led.record ?_ rfl | split

theorem modDestage_led {P : Touch} {s t : State} (a0 a1) (h : Led P s t) (hw : Touch.within { jobs := true } P = true) :
    Led P s (modDestage a0 a1 t) := by
  refine Led.lift h hw ?_
  unfold modDestage
  exact Led.record (.refl _ _) rfl

theorem mapGrain_led {P : Touch} {s t : State} (a0 a1) (h : Led P s t) (hw : Touch.within { trust := true, diary := true, tally := true, ddp := true, ftl := true, corr := true, out := true } P = true) :
    Led P s (mapGrain a0 a1 t) := by
  refine Led.lift h hw ?_
  unfold mapGrain
  with_reducible repeat' first | assumption | exact Led.refl _ _ | apply setMap_led | apply refChange_led | with_unfolding_all exact Touch.holds rfl | split

theorem moveMap_led {P : Touch} {s t : State} (a0 a1) (h : Led P s t) (hw : Touch.within { trust := true, diary := true, tally := true, ddp := true, ftl := true, corr := true, out := true } P = true) :
    Led P s (moveMap a0 a1 t) := by
  refine Led.lift h hw ?_
  unfold moveMap
  with_reducible repeat' first | assumption | exact Led.refl _ _ | apply mapGrain_led | apply refChange_led | with_unfolding_all exact Touch.holds rfl | split

theorem endSweep_led {P : Touch} {s t : State} (a0 a1) (h : Led P s t) (hw : Touch.within { ddp := true } P = true) :
    Led P s (endSweep a0 a1 t) := by
  refine Led.lift h hw ?_
  unfold endSweep
  exact Led.record (.refl _ _) rfl

theorem mergeOne_led {P : Touch} {s t : State} (a0) (h : Led P s t) (hw : Touch.within { trust := true, tally := true, ddp := true, ftl := true, bay := true, ciph := true, corr := true, out := true } P = true) :
    Led P s (mergeOne a0 t) := by
  refine Led.lift h hw ?_
  unfold mergeOne
  with_reducible repeat' first | assumption | exact Led.refl _ _ | apply writeMetaAs_led | apply endSweep_led | apply afterDurable_led | apply journal_led | with_unfolding_all exact Touch.holds rfl | refine Led.ite ?_ ?_ | intro _ | refine Led.ofFst ‹_ = (_, _)› ?_ | refine Led.ofSnd ‹_ = (_, _)› ?_ | refine Led.ofSome ‹_ = some _› ?_ | fail_if_no_progress refine Led.record ?_ rfl | split | dsimp only

theorem splitOne_led {P : Touch} {s t : State} (a0) (h : Led P s t) (hw : Touch.within { trust := true, tally := true, ddp := true, ftl := true, bay := true, ciph := true, corr := true, out := true } P = true) :
    Led P s (splitOne a0 t) := by
  refine Led.lift h hw ?_
  unfold splitOne
  with_reducible repeat' first | assumption | exact Led.refl _ _ | apply endSweep_led | apply writeMetaAs_led | apply afterDurable_led | apply journal_led | with_unfolding_all exact Touch.holds rfl | refine Led.ite ?_ ?_ | intro _ | refine Led.ofFst ‹_ = (_, _)› ?_ | refine Led.ofSnd ‹_ = (_, _)› ?_ | refine Led.ofSome ‹_ = some _› ?_ | fail_if_no_progress refine Led.record ?_ rfl | split | dsimp only

theorem takeSlot_led {P : Touch} {s t : State} (a0) (h : Led P s t) (hw : Touch.within { diary := true, tally := true, ddp := true } P = true) :
    Led P s (takeSlot a0 t) := by
  refine Led.lift h hw ?_
  unfold takeSlot
  with_reducible repeat' first | assumption | exact Led.refl _ _ | apply event_led | with_unfolding_all exact Touch.holds rfl | fail_if_no_progress refine Led.record ?_ rfl | split | dsimp only

theorem filterOne_led {P : Touch} {s t : State} (a0) (h : Led P s t) (hw : Touch.within { diary := true, tally := true, ddp := true } P = true) :
    Led P s (filterOne a0 t) := by
  refine Led.lift h hw ?_
  unfold filterOne
  with_reducible repeat' first | assumption | exact Led.refl _ _ | apply endSweep_led | apply takeSlot_led | with_unfolding_all exact Touch.holds rfl | (refine Led.foldl ?_ ?_; rotate_left; intro _ _ _) | fail_if_no_progress refine Led.record ?_ rfl | split

theorem sweepPage_led {P : Touch} {s t : State} (a0 a1) (h : Led P s t) (hw : Touch.within { trust := true, diary := true, tally := true, ddp := true, ftl := true, bay := true, ciph := true, corr := true, out := true } P = true) :
    Led P s (sweepPage a0 a1 t) := by
  refine Led.lift h hw ?_
  unfold sweepPage
  with_reducible repeat' first | assumption | exact Led.refl _ _ | apply filterOne_led | apply mergeOne_led | apply splitOne_led | with_unfolding_all exact Touch.holds rfl | split

theorem beginSweep_led {P : Touch} {s t : State} (a0 a1) (h : Led P s t) (hw : Touch.within { ddp := true } P = true) :
    Led P s (beginSweep a0 a1 t) := by
  refine Led.lift h hw ?_
  unfold beginSweep
  exact Led.record (.refl _ _) rfl

theorem askSweep_led {P : Touch} {s t : State} (a0 a1) (h : Led P s t) (hw : Touch.within { trust := true, diary := true, tally := true, ddp := true, ftl := true, bay := true, ciph := true, corr := true, out := true } P = true) :
    Led P s (askSweep a0 a1 t) := by
  refine Led.lift h hw ?_
  unfold askSweep
  with_reducible repeat' first | assumption | exact Led.refl _ _ | apply readMetaAs_led | apply beginSweep_led | apply sweepPage_led | with_unfolding_all exact Touch.holds rfl | split

theorem sweepArrived_led {P : Touch} {s t : State} (a0 a1 a2 a3) (h : Led P s t) (hw : Touch.within { trust := true, diary := true, tally := true, ddp := true, ftl := true, bay := true, ciph := true, corr := true, out := true } P = true) :
    Led P s (sweepArrived a0 a1 a2 a3 t) := by
  refine Led.lift h hw ?_
  unfold sweepArrived
  with_reducible repeat' first | assumption | exact Led.refl _ _ | apply readMetaAs_led | apply sweepPage_led | apply event_led | apply askSweep_led | apply endSweep_led | with_unfolding_all exact Touch.holds rfl | fail_if_no_progress refine Led.record ?_ rfl | split

theorem takeOutcome_led {P : Touch} {s t : State} (a0 a1 a2) (h : Led P s t) (hw : Touch.within { trust := true, diary := true, tally := true, ddp := true, ftl := true, jobs := true, corr := true, out := true } P = true) :
    Led P s (takeOutcome a0 a1 a2 t) := by
  refine Led.lift h hw ?_
  unfold takeOutcome
  with_reducible repeat' first | assumption | exact Led.refl _ _ | apply modDestage_led | apply moveMap_led | apply afterDurable_led | apply mapGrain_led | with_unfolding_all exact Touch.holds rfl | split

theorem tellOutcome_led {P : Touch} {s t : State} (a0 a1 a2) (h : Led P s t) (hw : Touch.within { trust := true, diary := true, tally := true, ddp := true, ftl := true, jobs := true, corr := true, out := true } P = true) :
    Led P s (tellOutcome a0 a1 a2 t) := by
  refine Led.lift h hw ?_
  unfold tellOutcome
  with_reducible repeat' first | assumption | exact Led.refl _ _ | apply reply_led | apply takeOutcome_led | with_unfolding_all exact Touch.holds rfl | split

theorem newRecord_led {P : Touch} {s t : State} (a0 a1 a2) (h : Led P s t) (hw : Touch.within { ddp := true, ftl := true } P = true) :
    Led P s (newRecord a0 a1 a2 t).1 := by
  refine Led.lift h hw ?_
  unfold newRecord
  with_reducible repeat' first | assumption | exact Led.refl _ _ | apply allocateCid_led | apply putRec_led | with_unfolding_all exact Touch.holds rfl

theorem setEntry_led {P : Touch} {s t : State} (a0) (h : Led P s t) (hw : Touch.within { ddp := true } P = true) :
    Led P s (setEntry a0 t) := by
  refine Led.lift h hw ?_
  unfold setEntry
  exact Led.record (.refl _ _) rfl

theorem newContent_led {P : Touch} {s t : State} (a0 a1 a2) (h : Led P s t) (hw : Touch.within { trust := true, diary := true, tally := true, ddp := true, ftl := true, jobs := true, corr := true, out := true } P = true) :
    Led P s (newContent a0 a1 a2 t) := by
  refine Led.lift h hw ?_
  unfold newContent
  with_reducible repeat' first | assumption | exact Led.refl _ _ | apply newRecord_led | apply putRec_led | apply setEntry_led | apply tellOutcome_led | apply tallyDomain_led | with_unfolding_all exact Touch.holds rfl | split

theorem enqueue_led {P : Touch} {s t : State} (a0) (h : Led P s t) (hw : Touch.within { ddp := true } P = true) :
    Led P s (enqueue a0 t) := by
  refine Led.lift h hw ?_
  unfold enqueue
  exact Led.record (.refl _ _) rfl

theorem addShare_led {P : Touch} {s t : State} (a0 a1) (h : Led P s t) (hw : Touch.within { trust := true, diary := true, tally := true, ddp := true, ftl := true, jobs := true, corr := true, out := true } P = true) :
    Led P s (addShare a0 a1 t) := by
  refine Led.lift h hw ?_
  unfold addShare
  with_reducible repeat' first | assumption | exact Led.refl _ _ | apply newContent_led | apply enqueue_led | apply reclaim_led | apply refChange_led | apply tellOutcome_led | apply tallyDomain_led | with_unfolding_all exact Touch.holds rfl | refine Led.ite ?_ ?_ | intro _

theorem differs_led {P : Touch} {s t : State} (a0 a1) (h : Led P s t) (hw : Touch.within { trust := true, diary := true, tally := true, ddp := true, ftl := true, jobs := true, corr := true, out := true } P = true) :
    Led P s (differs a0 a1 t) := by
  refine Led.lift h hw ?_
  unfold differs
  with_reducible repeat' first | assumption | exact Led.refl _ _ | apply event_led | apply tallyAdd_led | apply newContent_led | with_unfolding_all exact Touch.holds rfl

theorem dropEntry_led {P : Touch} {s t : State} (a0 a1) (h : Led P s t) (hw : Touch.within { ddp := true } P = true) :
    Led P s (dropEntry a0 a1 t) := by
  refine Led.lift h hw ?_
  unfold dropEntry
  exact Led.record (.refl _ _) rfl

theorem filterInsert_led {P : Touch} {s t : State} (a0) (h : Led P s t) (hw : Touch.within { diary := true, tally := true, ddp := true } P = true) :
    Led P s (filterInsert a0 t) := by
  refine Led.lift h hw ?_
  unfold filterInsert
  with_reducible repeat' first | assumption | exact Led.refl _ _ | apply takeSlot_led | with_unfolding_all exact Touch.holds rfl | split

theorem indexCid_led {P : Touch} {s t : State} (a0) (h : Led P s t) (hw : Touch.within { trust := true, diary := true, tally := true, ddp := true, ftl := true, corr := true, out := true } P = true) :
    Led P s (indexCid a0 t) := by
  refine Led.lift h hw ?_
  unfold indexCid
  with_reducible repeat' first | assumption | exact Led.refl _ _ | apply dropEntry_led | apply indexChange_led | apply filterInsert_led | with_unfolding_all exact Touch.holds rfl | split

theorem indexStored_led {P : Touch} {s t : State} (a0) (h : Led P s t) (hw : Touch.within { trust := true, diary := true, tally := true, ddp := true, ftl := true, corr := true, out := true } P = true) :
    Led P s (indexStored a0 t) := by
  refine Led.lift h hw ?_
  unfold indexStored
  with_reducible repeat' first | assumption | exact Led.refl _ _ | apply indexCid_led | with_unfolding_all exact Touch.holds rfl | split

theorem startVerify_led {P : Touch} {s t : State} (a0 a1) (h : Led P s t) (hw : Touch.within { ddp := true, ftl := true, bay := true, jobs := true } P = true) :
    Led P s (startVerify a0 a1 t) := by
  refine Led.lift h hw ?_
  unfold startVerify
  with_reducible repeat' first | assumption | exact Led.refl _ _ | apply startRead_led | with_unfolding_all exact Touch.holds rfl | fail_if_no_progress refine Led.record ?_ rfl

theorem share_led {P : Touch} {s t : State} (a0 a1 a2) (h : Led P s t) (hw : Touch.within { trust := true, diary := true, tally := true, ddp := true, ftl := true, bay := true, jobs := true, corr := true, out := true } P = true) :
    Led P s (share a0 a1 a2 t) := by
  refine Led.lift h hw ?_
  unfold share
  with_reducible repeat' first | assumption | exact Led.refl _ _ | apply addShare_led | apply differs_led | apply startVerify_led | with_unfolding_all exact Touch.holds rfl | split

theorem shareWaiter_led {P : Touch} {s t : State} (a0 a1) (h : Led P s t) (hw : Touch.within { trust := true, diary := true, tally := true, ddp := true, ftl := true, bay := true, jobs := true, corr := true, out := true } P = true) :
    Led P s (shareWaiter a0 a1 t) := by
  refine Led.lift h hw ?_
  unfold shareWaiter
  with_reducible repeat' first | assumption | exact Led.refl _ _ | apply share_led | with_unfolding_all exact Touch.holds rfl | split

theorem wakeWaiters_led {P : Touch} {s t : State} (a0 a1 a2) (h : Led P s t) (hw : Touch.within { trust := true, diary := true, tally := true, ddp := true, ftl := true, bay := true, jobs := true, corr := true, out := true } P = true) :
    Led P s (wakeWaiters a0 a1 a2 t) := by
  refine Led.lift h hw ?_
  unfold wakeWaiters
  with_reducible repeat' first | assumption | exact Led.refl _ _ | apply shareWaiter_led | apply setEntry_led | apply indexStored_led | apply dropEntry_led | with_unfolding_all exact Touch.holds rfl | (refine Led.foldl ?_ ?_; rotate_left; intro _ _ _) | fail_if_no_progress refine Led.record ?_ rfl | split | dsimp only

theorem compared_led {P : Touch} {s t : State} (a0 a1 a2) (h : Led P s t) (hw : Touch.within { trust := true, diary := true, tally := true, ddp := true, ftl := true, bay := true, jobs := true, corr := true, out := true } P = true) :
    Led P s (compared a0 a1 a2 t) := by
  refine Led.lift h hw ?_
  unfold compared
  with_reducible repeat' first | assumption | exact Led.refl _ _ | apply addShare_led | apply differs_led | apply wakeWaiters_led | with_unfolding_all exact Touch.holds rfl | split

theorem tellPending_led {P : Touch} {s t : State} (a0) (h : Led P s t) (hw : Touch.within { trust := true, tally := true, jobs := true, corr := true, out := true } P = true) :
    Led P s (tellPending a0 t) := by
  refine Led.lift h hw ?_
  unfold tellPending
  with_reducible repeat' first | assumption | exact Led.refl _ _ | apply send_led | apply modDestage_led | with_unfolding_all exact Touch.holds rfl | split

theorem mergeStep_led {P : Touch} {s t : State} (h : Led P s t) (hw : Touch.within { trust := true, diary := true, tally := true, ddp := true, ftl := true, bay := true, ciph := true, corr := true, out := true } P = true) :
    Led P s (mergeStep t) := by
  refine Led.lift h hw ?_
  unfold mergeStep
  with_reducible repeat' first | assumption | exact Led.refl _ _ | apply askSweep_led | with_unfolding_all exact Touch.holds rfl | fail_if_no_progress refine Led.record ?_ rfl | split

theorem filterStep_led {P : Touch} {s t : State} (h : Led P s t) (hw : Touch.within { trust := true, diary := true, tally := true, ddp := true, ftl := true, bay := true, ciph := true, corr := true, out := true } P = true) :
    Led P s (filterStep t) := by
  refine Led.lift h hw ?_
  unfold filterStep
  with_reducible repeat' first | assumption | exact Led.refl _ _ | apply askSweep_led | with_unfolding_all exact Touch.holds rfl | fail_if_no_progress refine Led.record ?_ rfl | split | dsimp only

theorem splitStep_led {P : Touch} {s t : State} (h : Led P s t) (hw : Touch.within { trust := true, diary := true, tally := true, ddp := true, ftl := true, bay := true, ciph := true, corr := true, out := true } P = true) :
    Led P s (splitStep t) := by
  refine Led.lift h hw ?_
  unfold splitStep
  with_reducible repeat' first | assumption | exact Led.refl _ _ | apply askSweep_led | with_unfolding_all exact Touch.holds rfl | fail_if_no_progress refine Led.record ?_ rfl | split

theorem heal_led {P : Touch} {s t : State} (a0 a1) (h : Led P s t) (hw : Touch.within { trust := true, diary := true, tally := true, ddp := true, ftl := true, bay := true, jobs := true, corr := true, out := true } P = true) :
    Led P s (heal a0 a1 t) := by
  refine Led.lift h hw ?_
  unfold heal
  with_reducible repeat' first | assumption | exact Led.refl _ _ | apply setEntry_led | apply event_led | apply refChange_led | apply wakeWaiters_led | apply tellOutcome_led | with_unfolding_all exact Touch.holds rfl | split

theorem useRecord_led {P : Touch} {s t : State} (a0 a1) (h : Led P s t) (hw : Touch.within { trust := true, diary := true, tally := true, ddp := true, ftl := true, bay := true, jobs := true, corr := true, out := true } P = true) :
    Led P s (useRecord a0 a1 t) := by
  refine Led.lift h hw ?_
  unfold useRecord
  with_reducible repeat' first | assumption | exact Led.refl _ _ | apply wakeWaiters_led | apply newContent_led | apply heal_led | apply share_led | with_unfolding_all exact Touch.holds rfl | split

theorem askIndex_led {P : Touch} {s t : State} (a0) (h : Led P s t) (hw : Touch.within { trust := true, diary := true, tally := true, ddp := true, ftl := true, bay := true, jobs := true, corr := true, out := true } P = true) :
    Led P s (askIndex a0 t) := by
  refine Led.lift h hw ?_
  unfold askIndex
  with_reducible repeat' first | assumption | exact Led.refl _ _ | apply useRecord_led | apply wakeWaiters_led | apply newContent_led | apply tallyAdd_led | apply readMeta_led | with_unfolding_all exact Touch.holds rfl | fail_if_no_progress refine Led.record ?_ rfl | split

theorem giveCid_led {P : Touch} {s t : State} (a0) (h : Led P s t) (hw : Touch.within { trust := true, tally := true, ddp := true, ftl := true, jobs := true, corr := true, out := true } P = true) :
    Led P s (giveCid a0 t).1 := by
  refine Led.lift h hw ?_
  unfold giveCid
  with_reducible repeat' first | assumption | exact Led.refl _ _ | apply newRecord_led | apply tellPending_led | with_unfolding_all exact Touch.holds rfl | split

theorem resolveOne_led {P : Touch} {s t : State} (a0) (h : Led P s t) (hw : Touch.within { trust := true, diary := true, tally := true, ddp := true, ftl := true, bay := true, jobs := true, corr := true, out := true } P = true) :
    Led P s (resolveOne a0 t) := by
  refine Led.lift h hw ?_
  unfold resolveOne
  with_reducible repeat' first | assumption | exact Led.refl _ _ | apply giveCid_led | apply share_led | apply setEntry_led | apply useRecord_led | apply askIndex_led | apply wakeWaiters_led | apply newContent_led | with_unfolding_all exact Touch.holds rfl | refine Led.ite ?_ ?_ | intro _ | refine Led.ofFst ‹_ = (_, _)› ?_ | refine Led.ofSnd ‹_ = (_, _)› ?_ | refine Led.ofSome ‹_ = some _› ?_ | fail_if_no_progress refine Led.record ?_ rfl | split | dsimp only

theorem execFingerprintResolve_led {P : Touch} {s t : State} (h : Led P s t) (hw : Touch.within { trust := true, diary := true, tally := true, ddp := true, ftl := true, bay := true, jobs := true, corr := true, out := true } P = true) :
    LedO P s (execFingerprintResolve t) := by
  refine LedO.lift h hw ?_
  unfold execFingerprintResolve
  with_reducible repeat' first | assumption | exact Led.refl _ _ | apply resolveOne_led | apply tallyAdd_led | with_unfolding_all exact Touch.holds rfl | apply LedO.next | fail_if_no_progress refine Led.record ?_ rfl | split

theorem execInflightWayFree_led {P : Touch} {s t : State} (h : Led P s t) (hw : Touch.within { trust := true, diary := true, tally := true, ddp := true, ftl := true, bay := true, jobs := true, corr := true, out := true } P = true) :
    LedO P s (execInflightWayFree t) := by
  refine LedO.lift h hw ?_
  unfold execInflightWayFree
  with_reducible repeat' first | assumption | exact Led.refl _ _ | apply resolveOne_led | with_unfolding_all exact Touch.holds rfl | apply LedO.next | fail_if_no_progress refine Led.record ?_ rfl | split | dsimp only

theorem execResolve_led {P : Touch} {s t : State} (a0 a1 a2 a3 a4 a5 a6) (h : Led P s t) (hw : Touch.within { trust := true, tally := true, ddp := true, hq := true, corr := true, out := true } P = true) :
    LedO P s (execResolve a0 a1 a2 a3 a4 a5 a6 t) := by
  refine LedO.lift h hw ?_
  unfold execResolve
  with_reducible repeat' first | assumption | exact Led.refl _ _ | apply onMessage_led | apply wake_led | apply send_led | apply enqueue_led | with_unfolding_all exact Touch.holds rfl | apply LedO.next | refine LedO.ite ?_ ?_ | refine Led.ite ?_ ?_ | intro _ | fail_if_no_progress refine Led.record ?_ rfl | split | dsimp only

theorem execResolveAnswer_led {P : Touch} {s t : State} (a0 a1 a2) (h : Led P s t) (hw : Touch.within { trust := true, diary := true, tally := true, ddp := true, ftl := true, jobs := true, corr := true, out := true } P = true) :
    LedO P s (execResolveAnswer a0 a1 a2 t) := by
  refine LedO.lift h hw ?_
  unfold execResolveAnswer
  with_reducible repeat' first | assumption | exact Led.refl _ _ | apply onWord_led | apply modDestage_led | apply takeOutcome_led | apply settleNumber_led | with_unfolding_all exact Touch.holds rfl | apply LedO.next | refine LedO.ite ?_ ?_ | refine Led.ite ?_ ?_ | intro _ | fail_if_no_progress refine Led.record ?_ rfl | split

theorem execResolvePendingTimeout_led {P : Touch} {s t : State} (a0) (h : Led P s t) (hw : Touch.within { tally := true, corr := true, out := true } P = true) :
    LedO P s (execResolvePendingTimeout a0 t) := by
  refine LedO.lift h hw ?_
  unfold execResolvePendingTimeout
  with_reducible repeat' first | assumption | exact Led.refl _ _ | apply whenDue_led | apply tallyAdd_led | apply emit_led | with_unfolding_all exact Touch.holds rfl | apply LedO.next | fail_if_no_progress refine Led.record ?_ rfl | split

theorem execIndexReadComplete_led {P : Touch} {s t : State} (a0 a1 a2) (h : Led P s t) (hw : Touch.within { trust := true, diary := true, tally := true, ddp := true, ftl := true, bay := true, jobs := true, corr := true, out := true } P = true) :
    LedO P s (execIndexReadComplete a0 a1 a2 t) := by
  refine LedO.lift h hw ?_
  unfold execIndexReadComplete
  with_reducible repeat' first | assumption | exact Led.refl _ _ | apply useRecord_led | apply readMeta_led | apply event_led | with_unfolding_all exact Touch.holds rfl | apply LedO.next | fail_if_no_progress refine Led.record ?_ rfl | split

theorem execRefDelta_led {P : Touch} {s t : State} (a0 a1) (h : Led P s t) (hw : Touch.within { trust := true, diary := true, tally := true, ftl := true, hq := true, corr := true, out := true } P = true) :
    LedO P s (execRefDelta a0 a1 t) := by
  refine LedO.lift h hw ?_
  unfold execRefDelta
  with_reducible repeat' first | assumption | exact Led.refl _ _ | apply onMessage_led | apply reply_led | apply journal_led | apply addRef_led | apply wake_led | with_unfolding_all exact Touch.holds rfl | apply LedO.next | refine LedO.ite ?_ ?_ | refine Led.ite ?_ ?_ | intro _ | (refine Led.foldl ?_ ?_; rotate_left; intro _ _ _) | fail_if_no_progress refine Led.record ?_ rfl | split

theorem mergeDone_led {P : Touch} {s t : State} (a0 a1) (h : Led P s t) (hw : Touch.within { ddp := true } P = true) :
    Led P s (mergeDone a0 a1 t) := by
  refine Led.lift h hw ?_
  unfold mergeDone
  exact Led.record (.refl _ _) rfl

theorem splitDone_led {P : Touch} {s t : State} (a0 a1 a2) (h : Led P s t) (hw : Touch.within { ddp := true } P = true) :
    Led P s (splitDone a0 a1 a2 t) := by
  refine Led.lift h hw ?_
  unfold splitDone
  exact Led.record (.refl _ _) rfl

theorem execMergeSweepStart_led {P : Touch} {s t : State} (h : Led P s t) (hw : Touch.within { ddp := true } P = true) :
    LedO P s (execMergeSweepStart t) := by
  refine LedO.lift h hw ?_
  unfold execMergeSweepStart
  with_reducible repeat' first | assumption | exact Led.refl _ _ | apply whenDue_led | with_unfolding_all exact Touch.holds rfl | apply LedO.next | fail_if_no_progress refine Led.record ?_ rfl

theorem execFilterReplace_led {P : Touch} {s t : State} (h : Led P s t) (hw : Touch.within { ddp := true } P = true) :
    LedO P s (execFilterReplace t) := by
  refine LedO.lift h hw ?_
  unfold execFilterReplace
  with_reducible repeat' first | assumption | exact Led.refl _ _ | apply whenDue_led | with_unfolding_all exact Touch.holds rfl | apply LedO.next | fail_if_no_progress refine Led.record ?_ rfl | split

theorem cutStripe_led {P : Touch} {s t : State} (a0 a1 a2) (h : Led P s t) (hw : Touch.within { trust := true, tally := true, ftl := true, ec := true, bay := true, jobs := true, corr := true, out := true } P = true) :
    Led P s (cutStripe a0 a1 a2 t) := by
  refine Led.lift h hw ?_
  unfold cutStripe
  with_reducible repeat' first | assumption | exact Led.refl _ _ | apply seekPlace_led | apply setGroup_led | apply closeStripe_led | with_unfolding_all exact Touch.holds rfl | fail_if_no_progress refine Led.record ?_ rfl | split | dsimp only

theorem dropParity_led {P : Touch} {s t : State} (a0) (h : Led P s t) (hw : Touch.within { ec := true, bay := true } P = true) :
    Led P s (dropParity a0 t) := by
  refine Led.lift h hw ?_
  unfold dropParity
  with_reducible repeat' first | assumption | exact Led.refl _ _ | apply setGroup_led | with_unfolding_all exact Touch.holds rfl | (refine Led.foldl ?_ ?_; rotate_left; intro _ _ _) | fail_if_no_progress refine Led.record ?_ rfl | split

theorem withdrawOn_led {P : Touch} {s t : State} (a0) (h : Led P s t) (hw : Touch.within { trust := true, tally := true, ftl := true, ec := true, bay := true, jobs := true, corr := true, out := true } P = true) :
    Led P s (withdrawOn a0 t) := by
  refine Led.lift h hw ?_
  unfold withdrawOn
  with_reducible repeat' first | assumption | exact Led.refl _ _ | apply dropParity_led | apply cutStripe_led | with_unfolding_all exact Touch.holds rfl | (refine Led.foldl ?_ ?_; rotate_left; intro _ _ _) | fail_if_no_progress refine Led.record ?_ rfl | split | dsimp only

theorem closeGroupsOn_led {P : Touch} {s t : State} (a0) (h : Led P s t) (hw : Touch.within { trust := true, tally := true, ftl := true, ec := true, bay := true, jobs := true, corr := true, out := true } P = true) :
    Led P s (closeGroupsOn a0 t) := by
  refine Led.lift h hw ?_
  unfold closeGroupsOn
  with_reducible repeat' first | assumption | exact Led.refl _ _ | apply closeGroup_led | apply closeEarly_led | with_unfolding_all exact Touch.holds rfl | (refine Led.foldl ?_ ?_; rotate_left; intro _ _ _) | fail_if_no_progress refine Led.record ?_ rfl | split

theorem goOffline_led {P : Touch} {s t : State} (h : Led P s t) (hw : Touch.within { ec := true } P = true) :
    Led P s (goOffline t) := by
  refine Led.lift h hw ?_
  unfold goOffline
  exact Led.record (.refl _ _) rfl

theorem memberTo_led {P : Touch} {s t : State} (a0 a1) (h : Led P s t) (hw : Touch.within { trust := true, diary := true, tally := true, ftl := true, ec := true, bay := true, pool := true, jobs := true, corr := true, out := true } P = true) :
    Led P s (memberTo a0 a1 t) := by
  refine Led.lift h hw ?_
  unfold memberTo
  with_reducible repeat' first | assumption | exact Led.refl _ _ | apply setMember_led | apply event_led | apply closeGroupsOn_led | apply withdrawOn_led | apply configWrite_led | apply goOffline_led | with_unfolding_all exact Touch.holds rfl | fail_if_no_progress refine Led.record ?_ rfl | split

theorem failIfAllowed_led {P : Touch} {s t : State} (a0) (h : Led P s t) (hw : Touch.within { trust := true, diary := true, tally := true, ftl := true, ec := true, bay := true, pool := true, jobs := true, corr := true, out := true } P = true) :
    Led P s (failIfAllowed a0 t) := by
  refine Led.lift h hw ?_
  unfold failIfAllowed
  with_reducible repeat' first | assumption | exact Led.refl _ _ | apply memberTo_led | apply event_led | with_unfolding_all exact Touch.holds rfl | fail_if_no_progress refine Led.record ?_ rfl | split

theorem bridgeFailed_led {P : Touch} {s t : State} (a0) (h : Led P s t) (hw : Touch.within { trust := true, diary := true, tally := true, ftl := true, ec := true, bay := true, pool := true, jobs := true, corr := true, out := true } P = true) :
    Led P s (bridgeFailed a0 t) := by
  refine Led.lift h hw ?_
  unfold bridgeFailed
  with_reducible repeat' first | assumption | exact Led.refl _ _ | apply memberTo_led | apply failIfAllowed_led | with_unfolding_all exact Touch.holds rfl | split

theorem memberBell_led {P : Touch} {s t : State} (h : Led P s t) (hw : Touch.within { trust := true, diary := true, tally := true, ftl := true, ec := true, bay := true, pool := true, jobs := true, corr := true, out := true } P = true) :
    Led P s (memberBell t) := by
  refine Led.lift h hw ?_
  unfold memberBell
  with_reducible repeat' first | assumption | exact Led.refl _ _ | apply memberTo_led | with_unfolding_all exact Touch.holds rfl | (refine Led.foldl ?_ ?_; rotate_left; intro _ _ _) | fail_if_no_progress refine Led.record ?_ rfl | split

theorem execDetentionProbe_led {P : Touch} {s t : State} (a0 a1 a2 a3) (h : Led P s t) (hw : Touch.within { ec := true, bay := true } P = true) :
    LedO P s (execDetentionProbe a0 a1 a2 a3 t) := by
  refine LedO.lift h hw ?_
  unfold execDetentionProbe
  with_reducible repeat' first | assumption | exact Led.refl _ _ | apply whenDue_led | apply readOp_led | with_unfolding_all exact Touch.holds rfl | apply LedO.next | fail_if_no_progress refine Led.record ?_ rfl | split

theorem execDetentionTimeout_led {P : Touch} {s t : State} (a0) (h : Led P s t) (hw : Touch.within { trust := true, diary := true, tally := true, ftl := true, ec := true, bay := true, pool := true, jobs := true, corr := true, out := true } P = true) :
    LedO P s (execDetentionTimeout a0 t) := by
  refine LedO.lift h hw ?_
  unfold execDetentionTimeout
  with_reducible repeat' first | assumption | exact Led.refl _ _ | apply whenDue_led | apply failIfAllowed_led | with_unfolding_all exact Touch.holds rfl | apply LedO.next

theorem execMissingTimeout_led {P : Touch} {s t : State} (a0) (h : Led P s t) (hw : Touch.within { trust := true, diary := true, tally := true, ftl := true, ec := true, bay := true, pool := true, jobs := true, corr := true, out := true } P = true) :
    LedO P s (execMissingTimeout a0 t) := by
  refine LedO.lift h hw ?_
  unfold execMissingTimeout
  with_reducible repeat' first | assumption | exact Led.refl _ _ | apply whenDue_led | apply failIfAllowed_led | with_unfolding_all exact Touch.holds rfl | apply LedO.next

theorem execVolumeOffline_led {P : Touch} {s t : State} (h : Led P s t) (hw : Touch.within { ec := true } P = true) :
    LedO P s (execVolumeOffline t) := by
  refine LedO.lift h hw ?_
  unfold execVolumeOffline
  with_reducible repeat' first | assumption | exact Led.refl _ _ | apply goOffline_led | with_unfolding_all exact Touch.holds rfl | apply LedO.next

theorem releaseGroup_led {P : Touch} {s t : State} (a0) (h : Led P s t) (hw : Touch.within { trust := true, tally := true, ftl := true, ec := true, corr := true, out := true } P = true) :
    Led P s (releaseGroup a0 t) := by
  refine Led.lift h hw ?_
  unfold releaseGroup
  with_reducible repeat' first | assumption | exact Led.refl _ _ | apply journal_led | apply setBlkState_led | apply afterDurable_led | with_unfolding_all exact Touch.holds rfl | (refine Led.foldl ?_ ?_; rotate_left; intro _ _ _) | fail_if_no_progress refine Led.record ?_ rfl | split

theorem settleBlock_led {P : Touch} {s t : State} (a0) (h : Led P s t) (hw : Touch.within { trust := true, tally := true, ftl := true, ec := true, corr := true, out := true } P = true) :
    Led P s (settleBlock a0 t) := by
  refine Led.lift h hw ?_
  unfold settleBlock
  with_reducible repeat' first | assumption | exact Led.refl _ _ | apply setBlkState_led | apply afterDurable_led | apply releaseGroup_led | with_unfolding_all exact Touch.holds rfl | fail_if_no_progress refine Led.record ?_ rfl | split | dsimp only

end Sys2Proof.Machine
end

