-- ==== Sys2Proof/Laws/FramesData.lean ====
section
/-! SUPPORT. One lemma for each operation and each command, saying once what the operations over the DRAM, the sheets, destage, durability, host reads, slots, background work, the superblock and the bays can do: the frame of each is the `Touch` it names. -/

set_option Elab.async false
set_option linter.all false

namespace Sys2Proof.Machine

theorem setChannel_led {P : Touch} {s t : State} (a0 a1) (h : Led P s t) (hw : Touch.within { dram := true } P = true) :
    Led P s (setChannel a0 a1 t) := by
  refine Led.lift h hw ?_
  unfold setChannel
  exact Led.record (.refl _ _) rfl

theorem tallySlot_led {P : Touch} {s t : State} (a0) (h : Led P s t) (hw : Touch.within { tally := true } P = true) :
    Led P s (tallySlot a0 t) := by
  refine Led.lift h hw ?_
  unfold tallySlot
  with_reducible repeat' first | assumption | exact Led.refl _ _ | apply tallyAdd_led | with_unfolding_all exact Touch.holds rfl | split

theorem serveSlots_led {P : Touch} {s t : State} (a0) (h : Led P s t) (hw : Touch.within { dram := true, tally := true, draws := true } P = true) :
    Led P s (serveSlots a0 t) := by
  refine Led.lift h hw ?_
  unfold serveSlots
  with_reducible repeat' first | assumption | exact Led.refl _ _ | apply tallySlot_led | apply setChannel_led | apply drawn_led | with_unfolding_all exact Touch.holds rfl | (refine Led.foldl ?_ ?_; rotate_left; intro _ _ _) | fail_if_no_progress refine Led.record ?_ rfl | split

theorem guardEvent_led {P : Touch} {s t : State} (a0 a1 a2) (h : Led P s t) (hw : Touch.within { diary := true, tally := true } P = true) :
    Led P s (guardEvent a0 a1 a2 t) := by
  refine Led.lift h hw ?_
  unfold guardEvent
  with_reducible repeat' first | assumption | exact Led.refl _ _ | apply event_led | with_unfolding_all exact Touch.holds rfl

theorem guardRequest_led {P : Touch} {s t : State} (a0) (h : Led P s t) (hw : Touch.within { diary := true, tally := true } P = true) :
    Led P s (guardRequest a0 t).1 := by
  refine Led.lift h hw ?_
  unfold guardRequest
  with_reducible repeat' first | assumption | exact Led.refl _ _ | apply guardEvent_led | with_unfolding_all exact Touch.holds rfl | split

theorem copyBell_led {P : Touch} {s t : State} (h : Led P s t) (hw : Touch.within { dram := true, draws := true } P = true) :
    Led P s (copyBell t) := by
  refine Led.lift h hw ?_
  unfold copyBell
  with_reducible repeat' first | assumption | exact Led.refl _ _ | apply drawn_led | with_unfolding_all exact Touch.holds rfl | fail_if_no_progress refine Led.record ?_ rfl | split | dsimp only

theorem dramBell_led {P : Touch} {s t : State} (h : Led P s t) (hw : Touch.within { dram := true, diary := true, tally := true, draws := true } P = true) :
    Led P s (dramBell t) := by
  refine Led.lift h hw ?_
  unfold dramBell
  with_reducible repeat' first | assumption | exact Led.refl _ _ | apply copyBell_led | apply guardRequest_led | apply drawn_led | apply serveSlots_led | with_unfolding_all exact Touch.holds rfl | refine Led.ite ?_ ?_ | intro _ | (refine Led.foldl ?_ ?_; rotate_left; intro _ _ _) | (refine Led.foldlFst ?_ ?_; rotate_left; intro _ _ _ _) | (refine Led.foldlSnd ?_ ?_; rotate_left; intro _ _ _ _) | fail_if_no_progress refine Led.record ?_ rfl | split | dsimp only

theorem programGuard_led {P : Touch} {s t : State} (h : Led P s t) (hw : Touch.within { dram := true } P = true) :
    Led P s (programGuard t) := by
  refine Led.lift h hw ?_
  unfold programGuard
  exact Led.record (.refl _ _) rfl

theorem returnCache_led {P : Touch} {s t : State} (h : Led P s t) (hw : Touch.within { dram := true, trust := true } P = true) :
    Led P s (returnCache t) := by
  refine Led.lift h hw ?_
  unfold returnCache
  with_reducible repeat' first | assumption | exact Led.refl _ _ | apply programGuard_led | with_unfolding_all exact Touch.holds rfl | fail_if_no_progress refine Led.record ?_ rfl | split

theorem channelEvent_led {P : Touch} {s t : State} (a0) (h : Led P s t) (hw : Touch.within { diary := true, tally := true } P = true) :
    Led P s (channelEvent a0 t) := by
  refine Led.lift h hw ?_
  unfold channelEvent
  with_reducible repeat' first | assumption | exact Led.refl _ _ | apply event_led | with_unfolding_all exact Touch.holds rfl

theorem execDramRefreshTick_led {P : Touch} {s t : State} (a0 a1 a2) (h : Led P s t) (hw : Touch.within { dram := true, tally := true, draws := true } P = true) :
    LedO P s (execDramRefreshTick a0 a1 a2 t) := by
  refine LedO.lift h hw ?_
  unfold execDramRefreshTick
  with_reducible repeat' first | assumption | exact Led.refl _ _ | apply whenDue_led | apply serveSlots_led | apply tallyAdd_led | apply setChannel_led | with_unfolding_all exact Touch.holds rfl | apply LedO.next

theorem execDimmTempRead_led {P : Touch} {s t : State} (a0 a1) (h : Led P s t) (hw : Touch.within { dram := true, diary := true, tally := true } P = true) :
    LedO P s (execDimmTempRead a0 a1 t) := by
  refine LedO.lift h hw ?_
  unfold execDimmTempRead
  with_reducible repeat' first | assumption | exact Led.refl _ _ | apply setChannel_led | apply event_led | apply channelEvent_led | apply whenDue_led | with_unfolding_all exact Touch.holds rfl | apply LedO.next | split

theorem execDramSelfRefreshIdle_led {P : Touch} {s t : State} (a0) (h : Led P s t) (hw : Touch.within { dram := true } P = true) :
    LedO P s (execDramSelfRefreshIdle a0 t) := by
  refine LedO.lift h hw ?_
  unfold execDramSelfRefreshIdle
  with_reducible repeat' first | assumption | exact Led.refl _ _ | apply whenDue_led | apply setChannel_led | with_unfolding_all exact Touch.holds rfl | apply LedO.next

theorem execDramCorrected_led {P : Touch} {s t : State} (a0 a1 a2) (h : Led P s t) (hw : Touch.within { dram := true, tally := true } P = true) :
    LedO P s (execDramCorrected a0 a1 a2 t) := by
  refine LedO.lift h hw ?_
  unfold execDramCorrected
  with_reducible repeat' first | assumption | exact Led.refl _ _ | apply tallyAdd_led | apply setChannel_led | with_unfolding_all exact Touch.holds rfl | apply LedO.next

theorem execDramScrub_led {P : Touch} {s t : State} (a0) (h : Led P s t) (hw : Touch.within { dram := true } P = true) :
    LedO P s (execDramScrub a0 t) := by
  refine LedO.lift h hw ?_
  unfold execDramScrub
  with_reducible repeat' first | assumption | exact Led.refl _ _ | apply whenDue_led | apply setChannel_led | with_unfolding_all exact Touch.holds rfl | apply LedO.next

theorem noteUncorrectable_led {P : Touch} {s t : State} (a0 a1) (h : Led P s t) (hw : Touch.within { dram := true, diary := true, tally := true } P = true) :
    Led P s (noteUncorrectable a0 a1 t) := by
  refine Led.lift h hw ?_
  unfold noteUncorrectable
  with_reducible repeat' first | assumption | exact Led.refl _ _ | apply setChannel_led | apply tallyAdd_led | apply event_led | with_unfolding_all exact Touch.holds rfl | fail_if_no_progress refine Led.record ?_ rfl

theorem nextBringUp_led {P : Touch} {s t : State} (h : Led P s t) (hw : Touch.within { dram := true } P = true) :
    Led P s (nextBringUp t) := by
  refine Led.lift h hw ?_
  unfold nextBringUp
  with_reducible repeat' first | assumption | exact Led.refl _ _ | apply setChannel_led | with_unfolding_all exact Touch.holds rfl | fail_if_no_progress refine Led.record ?_ rfl | split

theorem startTraining_led {P : Touch} {s t : State} (a0) (h : Led P s t) (hw : Touch.within { dram := true } P = true) :
    Led P s (startTraining a0 t) := by
  refine Led.lift h hw ?_
  unfold startTraining
  exact Led.record (.refl _ _) rfl

theorem bringUpReady_led {P : Touch} {s t : State} (h : Led P s t) (hw : Touch.within { dram := true, trust := true } P = true) :
    Led P s (bringUpReady t) := by
  refine Led.lift h hw ?_
  unfold bringUpReady
  with_reducible repeat' first | assumption | exact Led.refl _ _ | apply returnCache_led | apply startTraining_led | with_unfolding_all exact Touch.holds rfl | (refine Led.foldl ?_ ?_; rotate_left; intro _ _ _) | fail_if_no_progress refine Led.record ?_ rfl | split

theorem readSpd_led {P : Touch} {s t : State} (a0) (h : Led P s t) (hw : Touch.within { dram := true, diary := true, tally := true } P = true) :
    Led P s (readSpd a0 t) := by
  refine Led.lift h hw ?_
  unfold readSpd
  with_reducible repeat' first | assumption | exact Led.refl _ _ | apply channelEvent_led | apply startTraining_led | with_unfolding_all exact Touch.holds rfl | (refine Led.foldl ?_ ?_; rotate_left; intro _ _ _) | fail_if_no_progress refine Led.record ?_ rfl | split

theorem putSheet_led {P : Touch} {s t : State} (a0) (h : Led P s t) (hw : Touch.within { diary := true, tally := true, tt := true, ec := true, bay := true } P = true) :
    Led P s (putSheet a0 t) := by
  refine Led.lift h hw ?_
  unfold putSheet
  with_reducible repeat' first | assumption | exact Led.refl _ _ | apply refence_led | apply tallyAdd_led | apply event_led | with_unfolding_all exact Touch.holds rfl | fail_if_no_progress refine Led.record ?_ rfl

theorem selectSheet_led {P : Touch} {s t : State} (h : Led P s t) (hw : Touch.within { diary := true, tally := true, tt := true, ec := true, bay := true } P = true) :
    Led P s (selectSheet t) := by
  refine Led.lift h hw ?_
  unfold selectSheet
  with_reducible repeat' first | assumption | exact Led.refl _ _ | apply event_led | apply putSheet_led | with_unfolding_all exact Touch.holds rfl | refine Led.ite ?_ ?_ | intro _

theorem applySwitches_led {P : Touch} {s t : State} (h : Led P s t) (hw : Touch.within { tt := true } P = true) :
    Led P s (applySwitches t) := by
  refine Led.lift h hw ?_
  unfold applySwitches
  exact Led.record (.refl _ _) rfl

theorem takeOut_led {P : Touch} {s t : State} (a0) (h : Led P s t) (hw : Touch.within { dram := true, diary := true, tally := true, lanes := true, bay := true } P = true) :
    Led P s (takeOut a0 t) := by
  refine Led.lift h hw ?_
  unfold takeOut
  with_reducible repeat' first | assumption | exact Led.refl _ _ | apply channelEvent_led | apply setChannel_led | with_unfolding_all exact Touch.holds rfl | fail_if_no_progress refine Led.record ?_ rfl | split

theorem handoverAgain_led {P : Touch} {s t : State} (a0) (h : Led P s t) (hw : Touch.within { corr := true } P = true) :
    Led P s (handoverAgain a0 t) := by
  refine Led.lift h hw ?_
  unfold handoverAgain
  with_reducible repeat' first | assumption | exact Led.refl _ _ | with_unfolding_all exact Touch.holds rfl | fail_if_no_progress refine Led.record ?_ rfl | split

theorem switchBell_led {P : Touch} {s t : State} (h : Led P s t) (hw : Touch.within { dram := true, diary := true, tally := true, tt := true, lanes := true, ec := true, bay := true, corr := true } P = true) :
    Led P s (switchBell t) := by
  refine Led.lift h hw ?_
  unfold switchBell
  with_reducible repeat' first | assumption | exact Led.refl _ _ | apply handoverAgain_led | apply takeOut_led | apply selectSheet_led | apply applySwitches_led | with_unfolding_all exact Touch.holds rfl | (refine Led.foldl ?_ ?_; rotate_left; intro _ _ _) | fail_if_no_progress refine Led.record ?_ rfl | split | dsimp only

theorem laneEvent_led {P : Touch} {s t : State} (a0 a1) (h : Led P s t) (hw : Touch.within { diary := true, tally := true } P = true) :
    Led P s (laneEvent a0 a1 t) := by
  refine Led.lift h hw ?_
  unfold laneEvent
  with_reducible repeat' first | assumption | exact Led.refl _ _ | apply event_led | with_unfolding_all exact Touch.holds rfl

theorem addSwitch_led {P : Touch} {s t : State} (a0) (h : Led P s t) (hw : Touch.within { tt := true } P = true) :
    Led P s (addSwitch a0 t) := by
  refine Led.lift h hw ?_
  unfold addSwitch
  with_reducible repeat' first | assumption | exact Led.refl _ _ | with_unfolding_all exact Touch.holds rfl | fail_if_no_progress refine Led.record ?_ rfl | split

theorem tellBringUp_led {P : Touch} {s t : State} (a0) (h : Led P s t) (hw : Touch.within { trust := true, tally := true, corr := true, out := true } P = true) :
    Led P s (tellBringUp a0 t) := by
  refine Led.lift h hw ?_
  unfold tellBringUp
  with_reducible repeat' first | assumption | exact Led.refl _ _ | apply sendPeer_led | with_unfolding_all exact Touch.holds rfl | split

theorem trigger_led {P : Touch} {s t : State} (a0 a1 a2) (h : Led P s t) (hw : Touch.within { trust := true, tally := true, tt := true, corr := true, out := true } P = true) :
    Led P s (trigger a0 a1 a2 t) := by
  refine Led.lift h hw ?_
  unfold trigger
  with_reducible repeat' first | assumption | exact Led.refl _ _ | apply tellBringUp_led | apply sendPeer_led | apply addSwitch_led | with_unfolding_all exact Touch.holds rfl | fail_if_no_progress refine Led.record ?_ rfl | split | dsimp only

theorem groupOut_led {P : Touch} {s t : State} (a0) (h : Led P s t) (hw : Touch.within { trust := true, diary := true, tally := true, tt := true, lanes := true, corr := true, out := true } P = true) :
    Led P s (groupOut a0 t) := by
  refine Led.lift h hw ?_
  unfold groupOut
  with_reducible repeat' first | assumption | exact Led.refl _ _ | apply trigger_led | apply laneEvent_led | with_unfolding_all exact Touch.holds rfl | fail_if_no_progress refine Led.record ?_ rfl | split | dsimp only

theorem coverLane_led {P : Touch} {s t : State} (a0) (h : Led P s t) (hw : Touch.within { trust := true, diary := true, tally := true, tt := true, lanes := true, corr := true, out := true } P = true) :
    Led P s (coverLane a0 t) := by
  refine Led.lift h hw ?_
  unfold coverLane
  with_reducible repeat' first | assumption | exact Led.refl _ _ | apply groupOut_led | with_unfolding_all exact Touch.holds rfl | fail_if_no_progress refine Led.record ?_ rfl | split | dsimp only

theorem laneOut_led {P : Touch} {s t : State} (a0 a1) (h : Led P s t) (hw : Touch.within { trust := true, diary := true, tally := true, tt := true, lanes := true, corr := true, out := true } P = true) :
    Led P s (laneOut a0 a1 t) := by
  refine Led.lift h hw ?_
  unfold laneOut
  with_reducible repeat' first | assumption | exact Led.refl _ _ | apply laneEvent_led | apply coverLane_led | with_unfolding_all exact Touch.holds rfl | fail_if_no_progress refine Led.record ?_ rfl | split | dsimp only

theorem beginReturn_led {P : Touch} {s t : State} (a0) (h : Led P s t) (hw : Touch.within { tt := true } P = true) :
    Led P s (beginReturn a0 t) := by
  refine Led.lift h hw ?_
  unfold beginReturn
  exact Led.record (.refl _ _) rfl

theorem execSheetSwitch_led {P : Touch} {s t : State} (h : Led P s t) (hw : Touch.within { dram := true, diary := true, tally := true, tt := true, lanes := true, ec := true, bay := true, corr := true } P = true) :
    LedO P s (execSheetSwitch t) := by
  refine LedO.lift h hw ?_
  unfold execSheetSwitch
  with_reducible repeat' first | assumption | exact Led.refl _ _ | apply switchBell_led | with_unfolding_all exact Touch.holds rfl | apply LedO.next

theorem execSheetTrigger_led {P : Touch} {s t : State} (a0 a1 a2 a3 a4 a5) (h : Led P s t) (hw : Touch.within { trust := true, tally := true, tt := true, corr := true, out := true } P = true) :
    LedO P s (execSheetTrigger a0 a1 a2 a3 a4 a5 t) := by
  refine LedO.lift h hw ?_
  unfold execSheetTrigger
  with_reducible repeat' first | assumption | exact Led.refl _ _ | apply onMessage_led | apply settleNumber_led | apply reply_led | apply tellBringUp_led | apply addSwitch_led | with_unfolding_all exact Touch.holds rfl | apply LedO.next | refine LedO.ite ?_ ?_ | refine Led.ite ?_ ?_ | intro _ | fail_if_no_progress refine Led.record ?_ rfl | split

theorem execResourceReturnDue_led {P : Touch} {s t : State} (a0) (h : Led P s t) (hw : Touch.within { trust := true, tally := true, tt := true, corr := true, out := true } P = true) :
    LedO P s (execResourceReturnDue a0 t) := by
  refine LedO.lift h hw ?_
  unfold execResourceReturnDue
  with_reducible repeat' first | assumption | exact Led.refl _ _ | apply whenDue_led | apply trigger_led | with_unfolding_all exact Touch.holds rfl | apply LedO.next | fail_if_no_progress refine Led.record ?_ rfl

theorem execLaneFault_led {P : Touch} {s t : State} (a0) (h : Led P s t) (hw : Touch.within { trust := true, diary := true, tally := true, tt := true, lanes := true, corr := true, out := true } P = true) :
    LedO P s (execLaneFault a0 t) := by
  refine LedO.lift h hw ?_
  unfold execLaneFault
  with_reducible repeat' first | assumption | exact Led.refl _ _ | apply whenDue_led | apply laneOut_led | with_unfolding_all exact Touch.holds rfl | apply LedO.next

theorem execLaneRotation_led {P : Touch} {s t : State} (a0) (h : Led P s t) (hw : Touch.within { trust := true, diary := true, tally := true, tt := true, lanes := true, corr := true, out := true } P = true) :
    LedO P s (execLaneRotation a0 t) := by
  refine LedO.lift h hw ?_
  unfold execLaneRotation
  with_reducible repeat' first | assumption | exact Led.refl _ _ | apply whenDue_led | apply laneOut_led | with_unfolding_all exact Touch.holds rfl | apply LedO.next | fail_if_no_progress refine Led.record ?_ rfl

theorem laneBack_led {P : Touch} {s t : State} (a0) (h : Led P s t) (hw : Touch.within { lanes := true } P = true) :
    Led P s (laneBack a0 t) := by
  refine Led.lift h hw ?_
  unfold laneBack
  exact Led.record (.refl _ _) rfl

theorem testDone_led {P : Touch} {s t : State} (a0 a1) (h : Led P s t) (hw : Touch.within { trust := true, diary := true, tally := true, tt := true, lanes := true, corr := true, out := true } P = true) :
    Led P s (testDone a0 a1 t) := by
  refine Led.lift h hw ?_
  unfold testDone
  with_reducible repeat' first | assumption | exact Led.refl _ _ | apply laneBack_led | apply laneEvent_led | apply coverLane_led | with_unfolding_all exact Touch.holds rfl | fail_if_no_progress refine Led.record ?_ rfl | split | dsimp only

theorem execLaneTestComplete_led {P : Touch} {s t : State} (a0 a1) (h : Led P s t) (hw : Touch.within { trust := true, cpi := true, diary := true, tally := true, tt := true, lanes := true, corr := true, out := true } P = true) :
    LedO P s (execLaneTestComplete a0 a1 t) := by
  refine LedO.lift h hw ?_
  unfold execLaneTestComplete
  with_reducible repeat' first | assumption | exact Led.refl _ _ | apply testDone_led | apply changed_led | with_unfolding_all exact Touch.holds rfl | apply LedO.next | fail_if_no_progress refine Led.record ?_ rfl | split | dsimp only

theorem execDiagLaneTest_led {P : Touch} {s t : State} (a0 a1) (h : Led P s t) (hw : Touch.within { trust := true, cpi := true, diary := true, tally := true, tt := true, lanes := true, corr := true, out := true } P = true) :
    LedO P s (execDiagLaneTest a0 a1 t) := by
  refine LedO.lift h hw ?_
  unfold execDiagLaneTest
  with_reducible repeat' first | assumption | exact Led.refl _ _ | apply onPacket_led | apply badParam_led | apply laneOut_led | with_unfolding_all exact Touch.holds rfl | apply LedO.next | refine LedO.ite ?_ ?_ | refine Led.ite ?_ ?_ | intro _

theorem execDiagLaneGroup_led {P : Touch} {s t : State} (a0 a1) (h : Led P s t) (hw : Touch.within { trust := true, cpi := true, diary := true, tally := true, tt := true, lanes := true, corr := true, out := true } P = true) :
    LedO P s (execDiagLaneGroup a0 a1 t) := by
  refine LedO.lift h hw ?_
  unfold execDiagLaneGroup
  with_reducible repeat' first | assumption | exact Led.refl _ _ | apply onPacket_led | apply changed_led | apply trigger_led | apply beginReturn_led | with_unfolding_all exact Touch.holds rfl | apply LedO.next | refine LedO.ite ?_ ?_ | refine Led.ite ?_ ?_ | intro _ | fail_if_no_progress refine Led.record ?_ rfl

theorem execDiagBayGroup_led {P : Touch} {s t : State} (a0 a1) (h : Led P s t) (hw : Touch.within { trust := true, cpi := true, diary := true, tally := true, tt := true, bay := true, corr := true, out := true } P = true) :
    LedO P s (execDiagBayGroup a0 a1 t) := by
  refine LedO.lift h hw ?_
  unfold execDiagBayGroup
  with_reducible repeat' first | assumption | exact Led.refl _ _ | apply onPacket_led | apply changed_led | apply trigger_led | apply beginReturn_led | with_unfolding_all exact Touch.holds rfl | apply LedO.next | refine LedO.ite ?_ ?_ | refine Led.ite ?_ ?_ | intro _ | fail_if_no_progress refine Led.record ?_ rfl

theorem addLive_led {P : Touch} {s t : State} (a0 a1) (h : Led P s t) (hw : Touch.within { trust := true, tally := true, ftl := true, corr := true, out := true } P = true) :
    Led P s (addLive a0 a1 t) := by
  refine Led.lift h hw ?_
  unfold addLive
  with_reducible repeat' first | assumption | exact Led.refl _ _ | apply setOwnLedger_led | with_unfolding_all exact Touch.holds rfl

theorem dropCid_led {P : Touch} {s t : State} (a0) (h : Led P s t) (hw : Touch.within { trust := true, tally := true, ddp := true, ftl := true, corr := true, out := true } P = true) :
    Led P s (dropCid a0 t) := by
  refine Led.lift h hw ?_
  unfold dropCid
  with_reducible repeat' first | assumption | exact Led.refl _ _ | apply addLive_led | apply reclaim_led | apply indexChange_led | apply afterDurable_led | with_unfolding_all exact Touch.holds rfl | split

theorem mapDestage_led {P : Touch} {s t : State} (a0 a1) (h : Led P s t) (hw : Touch.within { trust := true, diary := true, tally := true, ddp := true, ftl := true, jobs := true, corr := true, out := true } P = true) :
    Led P s (mapDestage a0 a1 t) := by
  refine Led.lift h hw ?_
  unfold mapDestage
  with_reducible repeat' first | assumption | exact Led.refl _ _ | apply moveMap_led | apply mapGrain_led | apply modDestage_led | apply afterDurable_led | with_unfolding_all exact Touch.holds rfl | refine Led.ite ?_ ?_ | intro _

theorem recordPsa_led {P : Touch} {s t : State} (a0 a1 a2 a3 a4) (h : Led P s t) (hw : Touch.within { trust := true, tally := true, ddp := true, ftl := true, corr := true, out := true } P = true) :
    Led P s (recordPsa a0 a1 a2 a3 a4 t) := by
  refine Led.lift h hw ?_
  unfold recordPsa
  with_reducible repeat' first | assumption | exact Led.refl _ _ | apply afterDurable_led | apply journal_led | apply putRec_led | apply indexChange_led | apply sendPeer_led | with_unfolding_all exact Touch.holds rfl | fail_if_no_progress refine Led.record ?_ rfl | split | dsimp only

theorem recordSlot_led {P : Touch} {s t : State} (a0 a1) (h : Led P s t) (hw : Touch.within { trust := true, diary := true, tally := true, ddp := true, ftl := true, ec := true, jobs := true, corr := true, out := true } P = true) :
    Led P s (recordSlot a0 a1 t) := by
  refine Led.lift h hw ?_
  unfold recordSlot
  with_reducible repeat' first | assumption | exact Led.refl _ _ | apply addLive_led | apply settleBlock_led | apply moveCid_led | apply event_led | apply mapDestage_led | apply recordPsa_led | with_unfolding_all exact Touch.holds rfl | fail_if_no_progress refine Led.record ?_ rfl | split | dsimp only

theorem stripeClosed_led {P : Touch} {s t : State} (a0 a1) (h : Led P s t) (hw : Touch.within { trust := true, diary := true, tally := true, ddp := true, ftl := true, ec := true, jobs := true, corr := true, out := true } P = true) :
    Led P s (stripeClosed a0 a1 t) := by
  refine Led.lift h hw ?_
  unfold stripeClosed
  with_reducible repeat' first | assumption | exact Led.refl _ _ | apply journal_led | apply setGroup_led | apply recordSlot_led | with_unfolding_all exact Touch.holds rfl | (refine Led.foldl ?_ ?_; rotate_left; intro _ _ _) | fail_if_no_progress refine Led.record ?_ rfl | split

theorem stripDone_led {P : Touch} {s t : State} (a0 a1) (h : Led P s t) (hw : Touch.within { trust := true, diary := true, tally := true, ddp := true, ftl := true, ec := true, jobs := true, corr := true, out := true } P = true) :
    Led P s (stripDone a0 a1 t) := by
  refine Led.lift h hw ?_
  unfold stripDone
  with_reducible repeat' first | assumption | exact Led.refl _ _ | apply setGroup_led | apply stripeClosed_led | with_unfolding_all exact Touch.holds rfl | split

theorem contentReady_led {P : Touch} {s t : State} (a0) (h : Led P s t) (hw : Touch.within { ddp := true, ftl := true, jobs := true } P = true) :
    Led P s (contentReady a0 t) := by
  refine Led.lift h hw ?_
  unfold contentReady
  with_reducible repeat' first | assumption | exact Led.refl _ _ | apply newRecord_led | apply modDestage_led | with_unfolding_all exact Touch.holds rfl | split

theorem closeWritten_led {P : Touch} {s t : State} (h : Led P s t) (hw : Touch.within { trust := true, diary := true, tally := true, ddp := true, ftl := true, ec := true, jobs := true, corr := true, out := true } P = true) :
    Led P s (closeWritten t) := by
  refine Led.lift h hw ?_
  unfold closeWritten
  with_reducible repeat' first | assumption | exact Led.refl _ _ | apply stripeClosed_led | with_unfolding_all exact Touch.holds rfl | (refine Led.foldl ?_ ?_; rotate_left; intro _ _ _) | fail_if_no_progress refine Led.record ?_ rfl | split

theorem placeDestage_led {P : Touch} {s t : State} (a0) (h : Led P s t) (hw : Touch.within { trust := true, tally := true, ftl := true, ec := true, bay := true, jobs := true, corr := true, out := true } P = true) :
    Led P s (placeDestage a0 t) := by
  refine Led.lift h hw ?_
  unfold placeDestage
  with_reducible repeat' first | assumption | exact Led.refl _ _ | apply placeSlot_led | apply modDestage_led | with_unfolding_all exact Touch.holds rfl | refine Led.ite ?_ ?_ | intro _ | refine Led.ofFst ‹_ = (_, _)› ?_ | refine Led.ofSnd ‹_ = (_, _)› ?_ | refine Led.ofSome ‹_ = some _› ?_ | fail_if_no_progress refine Led.record ?_ rfl | split | dsimp only

theorem placeWaiting_led {P : Touch} {s t : State} (h : Led P s t) (hw : Touch.within { trust := true, tally := true, ftl := true, ec := true, bay := true, jobs := true, corr := true, out := true } P = true) :
    Led P s (placeWaiting t) := by
  refine Led.lift h hw ?_
  unfold placeWaiting
  with_reducible repeat' first | assumption | exact Led.refl _ _ | apply placeDestage_led | with_unfolding_all exact Touch.holds rfl | (refine Led.foldl ?_ ?_; rotate_left; intro _ _ _) | fail_if_no_progress refine Led.record ?_ rfl | split

theorem mapPlain_led {P : Touch} {s t : State} (a0 a1) (h : Led P s t) (hw : Touch.within { trust := true, diary := true, tally := true, ddp := true, ftl := true, jobs := true, corr := true, out := true } P = true) :
    Led P s (mapPlain a0 a1 t) := by
  refine Led.lift h hw ?_
  unfold mapPlain
  with_reducible repeat' first | assumption | exact Led.refl _ _ | apply mapDestage_led | apply modDestage_led | with_unfolding_all exact Touch.holds rfl | split

theorem execDestageStart_led {P : Touch} {s t : State} (a0 a1) (h : Led P s t) (hw : Touch.within { trust := true, diary := true, tally := true, stg := true, ddp := true, ftl := true, bay := true, jobs := true, corr := true, out := true } P = true) :
    LedO P s (execDestageStart a0 a1 t) := by
  refine LedO.lift h hw ?_
  unfold execDestageStart
  with_reducible repeat' first | assumption | exact Led.refl _ _ | apply modEntry_led | apply mapPlain_led | apply modDestage_led | apply contentReady_led | apply startRead_led | with_unfolding_all exact Touch.holds rfl | apply LedO.next | fail_if_no_progress refine Led.record ?_ rfl | split | dsimp only

theorem execFingerprintComplete_led {P : Touch} {s t : State} (a0) (h : Led P s t) (hw : Touch.within { trust := true, diary := true, tally := true, tt := true, ddp := true, ftl := true, jobs := true, corr := true, out := true } P = true) :
    LedO P s (execFingerprintComplete a0 t) := by
  refine LedO.lift h hw ?_
  unfold execFingerprintComplete
  with_reducible repeat' first | assumption | exact Led.refl _ _ | apply posted_led | apply tallyAdd_led | apply modDestage_led | apply mapPlain_led | apply enqueue_led | apply sendPeer_led | with_unfolding_all exact Touch.holds rfl | apply LedO.next | refine LedO.ite ?_ ?_ | refine Led.ite ?_ ?_ | intro _ | fail_if_no_progress refine Led.record ?_ rfl | split

theorem execEncodeComplete_led {P : Touch} {s t : State} (a0 a1 a2) (h : Led P s t) (hw : Touch.within { trust := true, diary := true, tally := true, tt := true, lanes := true, jobs := true, corr := true, out := true } P = true) :
    LedO P s (execEncodeComplete a0 a1 a2 t) := by
  refine LedO.lift h hw ?_
  unfold execEncodeComplete
  with_reducible repeat' first | assumption | exact Led.refl _ _ | apply posted_led | apply laneOut_led | apply tallyAdd_led | apply modDestage_led | with_unfolding_all exact Touch.holds rfl | apply LedO.next | refine LedO.ite ?_ ?_ | refine Led.ite ?_ ?_ | intro _ | fail_if_no_progress refine Led.record ?_ rfl | split

theorem writeTail_led {P : Touch} {s t : State} (a0 a1) (h : Led P s t) (hw : Touch.within { trust := true, tally := true, ftl := true, bay := true, ciph := true, corr := true, out := true } P = true) :
    Led P s (writeTail a0 a1 t) := by
  refine Led.lift h hw ?_
  unfold writeTail
  with_reducible repeat' first | assumption | exact Led.refl _ _ | apply writeMeta_led | apply journal_led | with_unfolding_all exact Touch.holds rfl | refine Led.ite ?_ ?_ | intro _ | refine Led.ofFst ‹_ = (_, _)› ?_ | refine Led.ofSnd ‹_ = (_, _)› ?_ | refine Led.ofSome ‹_ = some _› ?_ | fail_if_no_progress refine Led.record ?_ rfl | split | dsimp only

theorem execSlotEncryptComplete_led {P : Touch} {s t : State} (a0 a1) (h : Led P s t) (hw : Touch.within { trust := true, tally := true, tt := true, ftl := true, ec := true, bay := true, ciph := true, jobs := true, corr := true, out := true } P = true) :
    LedO P s (execSlotEncryptComplete a0 a1 t) := by
  refine LedO.lift h hw ?_
  unfold execSlotEncryptComplete
  with_reducible repeat' first | assumption | exact Led.refl _ _ | apply emit_led | apply posted_led | apply takeNonce_led | apply tallyAdd_led | apply setLocker_led | apply writeTail_led | apply placeDestage_led | apply modDestage_led | with_unfolding_all exact Touch.holds rfl | apply LedO.next | refine LedO.ite ?_ ?_ | refine Led.ite ?_ ?_ | intro _ | refine Led.ofFst ‹_ = (_, _)› ?_ | refine Led.ofSnd ‹_ = (_, _)› ?_ | refine Led.ofSome ‹_ = some _› ?_ | fail_if_no_progress refine Led.record ?_ rfl | split | dsimp only

theorem execPlace_led {P : Touch} {s t : State} (a0 a1 a2 a3 a4) (h : Led P s t) (hw : Touch.within { trust := true, tally := true, ddp := true, ftl := true, corr := true, out := true } P = true) :
    LedO P s (execPlace a0 a1 a2 a3 a4 t) := by
  refine LedO.lift h hw ?_
  unfold execPlace
  with_reducible repeat' first | assumption | exact Led.refl _ _ | apply onMessage_led | apply reply_led | apply recordPsa_led | with_unfolding_all exact Touch.holds rfl | apply LedO.next | refine LedO.ite ?_ ?_ | refine Led.ite ?_ ?_ | intro _

theorem ackThrough_led {P : Touch} {s t : State} (h : Led P s t) (hw : Touch.within { tally := true, stg := true, hq := true, out := true } P = true) :
    Led P s (ackThrough t) := by
  refine Led.lift h hw ?_
  unfold ackThrough
  with_reducible repeat' first | assumption | exact Led.refl _ _ | apply ackWrite_led | apply setCtx_led | with_unfolding_all exact Touch.holds rfl | (refine Led.foldl ?_ ?_; rotate_left; intro _ _ _) | fail_if_no_progress refine Led.record ?_ rfl | split | dsimp only

theorem releaseJob_led {P : Touch} {s t : State} (a0) (h : Led P s t) (hw : Touch.within { trust := true, tally := true, stg := true, ftl := true, jobs := true, corr := true, out := true } P = true) :
    Led P s (releaseJob a0 t) := by
  refine Led.lift h hw ?_
  unfold releaseJob
  with_reducible repeat' first | assumption | exact Led.refl _ _ | apply afterDurable_led | apply releaseVersions_led | apply modEntry_led | apply sendPeer_led | apply tallyAdd_led | with_unfolding_all exact Touch.holds rfl | fail_if_no_progress refine Led.record ?_ rfl | split | dsimp only

theorem runAfter_led {P : Touch} {s t : State} (a0) (h : Led P s t) (hw : Touch.within { trust := true, diary := true, tally := true, stg := true, ddp := true, ftl := true, ec := true, bay := true, pool := true, saved := true, ciph := true, jobs := true, corr := true, out := true } P = true) :
    Led P s (runAfter a0 t) := by
  refine Led.lift h hw ?_
  unfold runAfter
  with_reducible repeat' first | assumption | exact Led.refl _ _ | apply releaseJob_led | apply indexCid_led | apply mergeDone_led | apply splitDone_led | apply checkpointDone_led | apply sjCheckpointDone_led | apply afterDurable_led | apply reclaim_led | with_unfolding_all exact Touch.holds rfl | fail_if_no_progress refine Led.record ?_ rfl | split

theorem flushJournal_led {P : Touch} {s t : State} (a0) (h : Led P s t) (hw : Touch.within { trust := true, tally := true, ftl := true, bay := true, saved := true, ciph := true, corr := true, out := true } P = true) :
    Led P s (flushJournal a0 t) := by
  refine Led.lift h hw ?_
  unfold flushJournal
  with_reducible repeat' first | assumption | exact Led.refl _ _ | apply writeMetaAs_led | with_unfolding_all exact Touch.holds rfl | fail_if_no_progress refine Led.record ?_ rfl | split | dsimp only

theorem advanceDurable_led {P : Touch} {s t : State} (h : Led P s t) (hw : Touch.within { trust := true, diary := true, tally := true, stg := true, ddp := true, ftl := true, ec := true, bay := true, pool := true, saved := true, ciph := true, jobs := true, hq := true, corr := true, out := true } P = true) :
    Led P s (advanceDurable t) := by
  refine Led.lift h hw ?_
  unfold advanceDurable
  with_reducible repeat' first | assumption | exact Led.refl _ _ | apply ackThrough_led | apply checkpointPages_led | apply flushJournal_led | apply runAfter_led | with_unfolding_all exact Touch.holds rfl | (refine Led.foldl ?_ ?_; rotate_left; intro _ _ _) | fail_if_no_progress refine Led.record ?_ rfl | split | dsimp only

theorem execEpochSealWrite_led {P : Touch} {s t : State} (h : Led P s t) (hw : Touch.within { trust := true, diary := true, tally := true, stg := true, ddp := true, ftl := true, ec := true, bay := true, pool := true, saved := true, ciph := true, jobs := true, hq := true, corr := true, out := true } P = true) :
    LedO P s (execEpochSealWrite t) := by
  refine LedO.lift h hw ?_
  unfold execEpochSealWrite
  with_reducible repeat' first | assumption | exact Led.refl _ _ | apply whenDue_led | apply sendPeer_led | apply advanceDurable_led | apply tallyAdd_led | with_unfolding_all exact Touch.holds rfl | apply LedO.next | fail_if_no_progress refine Led.record ?_ rfl

theorem execEpochEnd_led {P : Touch} {s t : State} (h : Led P s t) (hw : Touch.within { ftl := true } P = true) :
    LedO P s (execEpochEnd t) := by
  refine LedO.lift h hw ?_
  unfold execEpochEnd
  with_reducible repeat' first | assumption | exact Led.refl _ _ | apply whenDue_led | with_unfolding_all exact Touch.holds rfl | apply LedO.next | fail_if_no_progress refine Led.record ?_ rfl

theorem applyDelta_led {P : Touch} {s t : State} (a0) (h : Led P s t) (hw : Touch.within { ftl := true } P = true) :
    Led P s (applyDelta a0 t) := by
  refine Led.lift h hw ?_
  unfold applyDelta
  with_reducible repeat' first | assumption | exact Led.refl _ _ | apply putRec_led | with_unfolding_all exact Touch.holds rfl | split

theorem applyGroup_led {P : Touch} {s t : State} (a0 a1) (h : Led P s t) (hw : Touch.within { ec := true } P = true) :
    Led P s (applyGroup a0 a1 t) := by
  refine Led.lift h hw ?_
  unfold applyGroup
  exact Led.record (.refl _ _) rfl

theorem movePage_led {P : Touch} {s t : State} (a0 a1 a2 a3 a4) (h : Led P s t) (hw : Touch.within { ddp := true, ftl := true } P = true) :
    Led P s (movePage a0 a1 a2 a3 a4 t) := by
  refine Led.lift h hw ?_
  unfold movePage
  with_reducible repeat' first | assumption | exact Led.refl _ _ | with_unfolding_all exact Touch.holds rfl | fail_if_no_progress refine Led.record ?_ rfl | split | dsimp only

theorem applyBody_led {P : Touch} {s t : State} (a0) (h : Led P s t) (hw : Touch.within { ddp := true, ftl := true, ec := true, ciph := true } P = true) :
    Led P s (applyBody a0 t) := by
  refine Led.lift h hw ?_
  unfold applyBody
  with_reducible repeat' first | assumption | exact Led.refl _ _ | apply setRoot_led | apply movePage_led | apply putRec_led | apply applyDelta_led | apply putLedger_led | apply setLocker_led | apply dropRoot_led | apply applyGroup_led | with_unfolding_all exact Touch.holds rfl | (refine Led.foldl ?_ ?_; rotate_left; intro _ _ _) | fail_if_no_progress refine Led.record ?_ rfl | split | dsimp only

theorem applyRec_led {P : Touch} {s t : State} (a0) (h : Led P s t) (hw : Touch.within { ddp := true, ftl := true, ec := true, ciph := true } P = true) :
    Led P s (applyRec a0 t) := by
  refine Led.lift h hw ?_
  unfold applyRec
  with_reducible repeat' first | assumption | exact Led.refl _ _ | apply noteApplied_led | apply applyBody_led | with_unfolding_all exact Touch.holds rfl | split

theorem withImage_led {P : Touch} {s t : State} (a0) (h : Led P s t) (hw : Touch.within { ddp := true, ftl := true, ec := true } P = true) :
    Led P s (withImage a0 t) := by
  refine Led.lift h hw ?_
  unfold withImage
  exact Led.record (.refl _ _) rfl

theorem bringForward_led {P : Touch} {s t : State} (a0) (h : Led P s t) (hw : Touch.within { ddp := true, ftl := true, ec := true, saved := true, ciph := true } P = true) :
    Led P s (bringForward a0 t) := by
  refine Led.lift h hw ?_
  unfold bringForward
  with_reducible repeat' first | assumption | exact Led.refl _ _ | apply applyRec_led | apply withImage_led | with_unfolding_all exact Touch.holds rfl | fail_if_no_progress refine Led.record ?_ rfl | split

theorem ownerActs_led {P : Touch} {s t : State} (a0) (h : Led P s t) (hw : Touch.within { trust := true, tally := true, ddp := true, ftl := true, corr := true, out := true } P = true) :
    Led P s (ownerActs a0 t) := by
  refine Led.lift h hw ?_
  unfold ownerActs
  with_reducible repeat' first | assumption | exact Led.refl _ _ | apply indexChange_led | apply dropCid_led | with_unfolding_all exact Touch.holds rfl | split

theorem dropLive_led {P : Touch} {s t : State} (a0) (h : Led P s t) (hw : Touch.within { trust := true, tally := true, ftl := true, corr := true, out := true } P = true) :
    Led P s (dropLive a0 t) := by
  refine Led.lift h hw ?_
  unfold dropLive
  with_reducible repeat' first | assumption | exact Led.refl _ _ | apply addLive_led | with_unfolding_all exact Touch.holds rfl | split

theorem execJournal_led {P : Touch} {s t : State} (a0 a1) (h : Led P s t) (hw : Touch.within { trust := true, diary := true, tally := true, stg := true, ddp := true, ftl := true, ec := true, bay := true, pool := true, saved := true, ciph := true, jobs := true, hq := true, corr := true, out := true } P = true) :
    LedO P s (execJournal a0 a1 t) := by
  refine LedO.lift h hw ?_
  unfold execJournal
  with_reducible repeat' first | assumption | exact Led.refl _ _ | apply onMessage_led | apply ownerActs_led | apply applyRec_led | apply dropLive_led | apply bringForward_led | apply advanceDurable_led | apply reply_led | apply wake_led | with_unfolding_all exact Touch.holds rfl | apply LedO.next | refine LedO.ite ?_ ?_ | refine Led.ite ?_ ?_ | intro _ | (refine Led.foldl ?_ ?_; rotate_left; intro _ _ _) | fail_if_no_progress refine Led.record ?_ rfl | split

theorem execJournalAck_led {P : Touch} {s t : State} (a0) (h : Led P s t) (hw : Touch.within { trust := true, diary := true, tally := true, stg := true, ddp := true, ftl := true, ec := true, bay := true, pool := true, saved := true, ciph := true, jobs := true, hq := true, corr := true, out := true } P = true) :
    LedO P s (execJournalAck a0 t) := by
  refine LedO.lift h hw ?_
  unfold execJournalAck
  with_reducible repeat' first | assumption | exact Led.refl _ _ | apply onWord_led | apply settleNumber_led | apply advanceDurable_led | with_unfolding_all exact Touch.holds rfl | apply LedO.next | refine LedO.ite ?_ ?_ | refine Led.ite ?_ ?_ | intro _ | (refine Led.foldl ?_ ?_; rotate_left; intro _ _ _) | fail_if_no_progress refine Led.record ?_ rfl | split

theorem closeTorn_led {P : Touch} {s t : State} (a0) (h : Led P s t) (hw : Touch.within { trust := true, tally := true, ftl := true, ec := true, corr := true, out := true } P = true) :
    Led P s (closeTorn a0 t) := by
  refine Led.lift h hw ?_
  unfold closeTorn
  with_reducible repeat' first | assumption | exact Led.refl _ _ | apply journal_led | apply applyGroup_led | with_unfolding_all exact Touch.holds rfl | (refine Led.foldl ?_ ?_; rotate_left; intro _ _ _) | fail_if_no_progress refine Led.record ?_ rfl | split

theorem replayDelta_led {P : Touch} {s t : State} (a0) (h : Led P s t) (hw : Touch.within { ddp := true } P = true) :
    Led P s (replayDelta a0 t) := by
  refine Led.lift h hw ?_
  unfold replayDelta
  with_reducible repeat' first | assumption | exact Led.refl _ _ | with_unfolding_all exact Touch.holds rfl | fail_if_no_progress refine Led.record ?_ rfl | split

theorem replay_led {P : Touch} {s t : State} (h : Led P s t) (hw : Touch.within { trust := true, tally := true, stg := true, ddp := true, ftl := true, ec := true, saved := true, ciph := true, jobs := true, corr := true, out := true } P = true) :
    Led P s (replay t) := by
  refine Led.lift h hw ?_
  unfold replay
  with_reducible repeat' first | assumption | exact Led.refl _ _ | apply replayDelta_led | apply applyRec_led | apply closeTorn_led | with_unfolding_all exact Touch.holds rfl | (refine Led.foldl ?_ ?_; rotate_left; intro _ _ _) | fail_if_no_progress refine Led.record ?_ rfl | split

theorem takeMedia_led {P : Touch} {s t : State} (a0) (h : Led P s t) (hw : Touch.within { tt := true, ftl := true, ec := true, saved := true } P = true) :
    Led P s (takeMedia a0 t) := by
  refine Led.lift h hw ?_
  unfold takeMedia
  exact Led.record (.refl _ _) rfl

theorem adoptPool_led {P : Touch} {s t : State} (a0) (h : Led P s t) (hw : Touch.within { trust := true, tally := true, tt := true, stg := true, ddp := true, ftl := true, ec := true, saved := true, ciph := true, jobs := true, corr := true, out := true } P = true) :
    Led P s (adoptPool a0 t) := by
  refine Led.lift h hw ?_
  unfold adoptPool
  with_reducible repeat' first | assumption | exact Led.refl _ _ | apply replay_led | apply takeMedia_led | with_unfolding_all exact Touch.holds rfl | fail_if_no_progress refine Led.record ?_ rfl

theorem hostBlock_led {P : Touch} {s t : State} (a0 a1 a2) (h : Led P s t) (hw : Touch.within { draws := true } P = true) :
    Led P s (hostBlock a0 a1 a2 t).2 := by
  refine Led.lift h hw ?_
  unfold hostBlock
  with_reducible repeat' first | assumption | exact Led.refl _ _ | apply drawn_led | with_unfolding_all exact Touch.holds rfl | split

theorem fillReads_led {P : Touch} {s t : State} (a0) (h : Led P s t) (hw : Touch.within { draws := true } P = true) :
    Led P s (fillReads a0 t).2 := by
  refine Led.lift h hw ?_
  unfold fillReads
  with_reducible repeat' first | assumption | exact Led.refl _ _ | apply hostBlock_led | with_unfolding_all exact Touch.holds rfl | refine Led.ite ?_ ?_ | intro _ | (refine Led.foldl ?_ ?_; rotate_left; intro _ _ _) | (refine Led.foldlFst ?_ ?_; rotate_left; intro _ _ _ _) | (refine Led.foldlSnd ?_ ?_; rotate_left; intro _ _ _ _) | refine Led.ofFst ‹_ = (_, _)› ?_ | refine Led.ofSnd ‹_ = (_, _)› ?_ | refine Led.ofSome ‹_ = some _› ?_ | fail_if_no_progress refine Led.record ?_ rfl | split | dsimp only

theorem startSlots_led {P : Touch} {s t : State} (a0) (h : Led P s t) (hw : Touch.within { ftl := true, bay := true, jobs := true } P = true) :
    Led P s (startSlots a0 t) := by
  refine Led.lift h hw ?_
  unfold startSlots
  with_reducible repeat' first | assumption | exact Led.refl _ _ | apply startRead_led | with_unfolding_all exact Touch.holds rfl | (refine Led.foldl ?_ ?_; rotate_left; intro _ _ _) | fail_if_no_progress refine Led.record ?_ rfl | split

theorem countRead_led {P : Touch} {s t : State} (a0) (h : Led P s t) (hw : Touch.within { tally := true, hq := true } P = true) :
    Led P s (countRead a0 t) := by
  refine Led.lift h hw ?_
  unfold countRead
  with_reducible repeat' first | assumption | exact Led.refl _ _ | apply setController_led | apply tallyAdd_led | with_unfolding_all exact Touch.holds rfl | split

theorem failHalf_led {P : Touch} {s t : State} (a0) (h : Led P s t) (hw : Touch.within { trust := true, tally := true, stg := true, hq := true, corr := true, out := true } P = true) :
    Led P s (failHalf a0 t) := by
  refine Led.lift h hw ?_
  unfold failHalf
  with_reducible repeat' first | assumption | exact Led.refl _ _ | apply failCtx_led | apply sendPeer_led | with_unfolding_all exact Touch.holds rfl | fail_if_no_progress refine Led.record ?_ rfl | split

theorem decideCompare_led {P : Touch} {s t : State} (a0 a1 a2) (h : Led P s t) (hw : Touch.within { trust := true, tally := true, stg := true, hq := true, corr := true, out := true } P = true) :
    Led P s (decideCompare a0 a1 a2 t) := by
  refine Led.lift h hw ?_
  unfold decideCompare
  with_reducible repeat' first | assumption | exact Led.refl _ _ | apply completeAt_led | apply failHalf_led | with_unfolding_all exact Touch.holds rfl | split

theorem finishCompare_led {P : Touch} {s t : State} (a0) (h : Led P s t) (hw : Touch.within { trust := true, tally := true, stg := true, hq := true, corr := true, out := true } P = true) :
    Led P s (finishCompare a0 t) := by
  refine Led.lift h hw ?_
  unfold finishCompare
  with_reducible repeat' first | assumption | exact Led.refl _ _ | apply decideCompare_led | with_unfolding_all exact Touch.holds rfl

theorem finishRead_led {P : Touch} {s t : State} (a0) (h : Led P s t) (hw : Touch.within { trust := true, tally := true, stg := true, hq := true, corr := true, out := true } P = true) :
    Led P s (finishRead a0 t) := by
  refine Led.lift h hw ?_
  unfold finishRead
  with_reducible repeat' first | assumption | exact Led.refl _ _ | apply setCtx_led | apply finishCompare_led | apply complete_led | apply countRead_led | with_unfolding_all exact Touch.holds rfl | split

theorem failRead_led {P : Touch} {s t : State} (a0 a1 a2) (h : Led P s t) (hw : Touch.within { trust := true, tally := true, stg := true, hq := true, corr := true, out := true } P = true) :
    Led P s (failRead a0 a1 a2 t) := by
  refine Led.lift h hw ?_
  unfold failRead
  with_reducible repeat' first | assumption | exact Led.refl _ _ | apply completeAt_led | apply failHalf_led | with_unfolding_all exact Touch.holds rfl | split

theorem readProgress_led {P : Touch} {s t : State} (a0) (h : Led P s t) (hw : Touch.within { trust := true, tally := true, stg := true, ftl := true, bay := true, jobs := true, hq := true, corr := true, out := true, draws := true } P = true) :
    Led P s (readProgress a0 t) := by
  refine Led.lift h hw ?_
  unfold readProgress
  with_reducible repeat' first | assumption | exact Led.refl _ _ | apply fillReads_led | apply failRead_led | apply finishRead_led | apply setCtx_led | apply startSlots_led | with_unfolding_all exact Touch.holds rfl | refine Led.ite ?_ ?_ | intro _ | refine Led.ofFst ‹_ = (_, _)› ?_ | refine Led.ofSnd ‹_ = (_, _)› ?_ | refine Led.ofSome ‹_ = some _› ?_ | fail_if_no_progress refine Led.record ?_ rfl | split | dsimp only

theorem hostQuarters_led {P : Touch} {s t : State} (a0 a1 a2) (h : Led P s t) (hw : Touch.within { trust := true, tally := true, stg := true, ftl := true, bay := true, jobs := true, hq := true, corr := true, out := true, draws := true } P = true) :
    Led P s (hostQuarters a0 a1 a2 t) := by
  refine Led.lift h hw ?_
  unfold hostQuarters
  with_reducible repeat' first | assumption | exact Led.refl _ _ | apply hostBlock_led | apply readProgress_led | apply setCtx_led | with_unfolding_all exact Touch.holds rfl | refine Led.ite ?_ ?_ | intro _ | (refine Led.foldl ?_ ?_; rotate_left; intro _ _ _) | (refine Led.foldlFst ?_ ?_; rotate_left; intro _ _ _ _) | (refine Led.foldlSnd ?_ ?_; rotate_left; intro _ _ _ _) | refine Led.ofFst ‹_ = (_, _)› ?_ | refine Led.ofSnd ‹_ = (_, _)› ?_ | refine Led.ofSome ‹_ = some _› ?_ | fail_if_no_progress refine Led.record ?_ rfl | split | dsimp only

theorem wakeReads_led {P : Touch} {s t : State} (h : Led P s t) (hw : Touch.within { trust := true, tally := true, stg := true, ftl := true, bay := true, jobs := true, hq := true, corr := true, out := true, draws := true } P = true) :
    Led P s (wakeReads t) := by
  refine Led.lift h hw ?_
  unfold wakeReads
  with_reducible repeat' first | assumption | exact Led.refl _ _ | apply readProgress_led | with_unfolding_all exact Touch.holds rfl | (refine Led.foldl ?_ ?_; rotate_left; intro _ _ _) | fail_if_no_progress refine Led.record ?_ rfl | split

theorem runRead_led {P : Touch} {s t : State} (a0 a1 a2 a3 a4) (h : Led P s t) (hw : Touch.within { trust := true, tally := true, stg := true, ftl := true, bay := true, jobs := true, hq := true, corr := true, out := true, draws := true } P = true) :
    Led P s (runRead a0 a1 a2 a3 a4 t) := by
  refine Led.lift h hw ?_
  unfold runRead
  with_reducible repeat' first | assumption | exact Led.refl _ _ | apply readProgress_led | apply setCtx_led | apply failRead_led | apply decideCompare_led | apply finishRead_led | with_unfolding_all exact Touch.holds rfl | fail_if_no_progress refine Led.record ?_ rfl | split | dsimp only

theorem execRead_led {P : Touch} {s t : State} (a0 a1 a2 a3) (h : Led P s t) (hw : Touch.within { trust := true, tally := true, stg := true, ftl := true, bay := true, jobs := true, hq := true, corr := true, out := true, draws := true } P = true) :
    LedO P s (execRead a0 a1 a2 a3 t) := by
  refine LedO.lift h hw ?_
  unfold execRead
  with_reducible repeat' first | assumption | exact Led.refl _ _ | apply runRead_led | with_unfolding_all exact Touch.holds rfl | apply LedO.next

theorem execVerify_led {P : Touch} {s t : State} (a0 a1 a2 a3) (h : Led P s t) (hw : Touch.within { trust := true, tally := true, stg := true, ftl := true, bay := true, jobs := true, hq := true, corr := true, out := true, draws := true } P = true) :
    LedO P s (execVerify a0 a1 a2 a3 t) := by
  refine LedO.lift h hw ?_
  unfold execVerify
  with_reducible repeat' first | assumption | exact Led.refl _ _ | apply runRead_led | with_unfolding_all exact Touch.holds rfl | apply LedO.next

theorem askData_led {P : Touch} {s t : State} (a0) (h : Led P s t) (hw : Touch.within { hq := true, out := true } P = true) :
    Led P s (askData a0 t) := by
  refine Led.lift h hw ?_
  unfold askData
  exact Led.record (.refl _ _) rfl

theorem pullCompare_led {P : Touch} {s t : State} (a0 a1 a2) (h : Led P s t) (hw : Touch.within { hq := true, out := true } P = true) :
    Led P s (pullCompare a0 a1 a2 t) := by
  refine Led.lift h hw ?_
  unfold pullCompare
  with_reducible repeat' first | assumption | exact Led.refl _ _ | apply askData_led | apply emit_led | apply setCtx_led | with_unfolding_all exact Touch.holds rfl | split

theorem execCompare_led {P : Touch} {s t : State} (a0 a1 a2 a3) (h : Led P s t) (hw : Touch.within { trust := true, tally := true, stg := true, ftl := true, bay := true, jobs := true, hq := true, corr := true, out := true, draws := true } P = true) :
    LedO P s (execCompare a0 a1 a2 a3 t) := by
  refine LedO.lift h hw ?_
  unfold execCompare
  with_reducible repeat' first | assumption | exact Led.refl _ _ | apply whenDue_led | apply runRead_led | apply pullCompare_led | with_unfolding_all exact Touch.holds rfl | apply LedO.next | split

theorem execCompareAndWrite_led {P : Touch} {s t : State} (a0 a1 a2 a3) (h : Led P s t) (hw : Touch.within { trust := true, tally := true, stg := true, ftl := true, bay := true, jobs := true, hq := true, corr := true, out := true, draws := true } P = true) :
    LedO P s (execCompareAndWrite a0 a1 a2 a3 t) := by
  refine LedO.lift h hw ?_
  unfold execCompareAndWrite
  with_reducible repeat' first | assumption | exact Led.refl _ _ | apply whenDue_led | apply runRead_led | apply pullCompare_led | with_unfolding_all exact Touch.holds rfl | apply LedO.next | split

theorem startDataIn_led {P : Touch} {s t : State} (a0) (h : Led P s t) (hw : Touch.within { hq := true, out := true } P = true) :
    Led P s (startDataIn a0 t) := by
  refine Led.lift h hw ?_
  unfold startDataIn
  exact Led.record (.refl _ _) rfl

theorem bridgeEvent_led {P : Touch} {s t : State} (a0 a1) (h : Led P s t) (hw : Touch.within { diary := true, tally := true } P = true) :
    Led P s (bridgeEvent a0 a1 t) := by
  refine Led.lift h hw ?_
  unfold bridgeEvent
  with_reducible repeat' first | assumption | exact Led.refl _ _ | apply event_led | with_unfolding_all exact Touch.holds rfl

theorem haltForm_led {P : Touch} {s t : State} (a0) (h : Led P s t) (hw : Touch.within { bay := true } P = true) :
    Led P s (haltForm a0 t) := by
  refine Led.lift h hw ?_
  unfold haltForm
  with_reducible repeat' first | assumption | exact Led.refl _ _ | apply queueOp_led | apply setBay_led | with_unfolding_all exact Touch.holds rfl | fail_if_no_progress refine Led.record ?_ rfl | split

theorem dieFault_led {P : Touch} {s t : State} (a0 a1) (h : Led P s t) (hw : Touch.within { trust := true, tally := true, ftl := true, ec := true, corr := true, out := true } P = true) :
    Led P s (dieFault a0 a1 t) := by
  refine Led.lift h hw ?_
  unfold dieFault
  with_reducible repeat' first | assumption | exact Led.refl _ _ | apply setBlkState_led | with_unfolding_all exact Touch.holds rfl | (refine Led.foldl ?_ ?_; rotate_left; intro _ _ _) | fail_if_no_progress refine Led.record ?_ rfl | split

theorem bridgeStatus_led {P : Touch} {s t : State} (a0 a1) (h : Led P s t) (hw : Touch.within { trust := true, diary := true, tally := true, ftl := true, ec := true, bay := true, pool := true, jobs := true, corr := true, out := true } P = true) :
    Led P s (bridgeStatus a0 a1 t).2 := by
  refine Led.lift h hw ?_
  unfold bridgeStatus
  with_reducible repeat' first | assumption | exact Led.refl _ _ | apply queueOp_led | apply haltForm_led | apply dieFault_led | apply bridgeEvent_led | apply bridgeFailed_led | with_unfolding_all exact Touch.holds rfl | split

theorem loseCid_led {P : Touch} {s t : State} (a0 a1) (h : Led P s t) (hw : Touch.within { trust := true, diary := true, tally := true, ddp := true, ftl := true, ec := true, corr := true, out := true } P = true) :
    Led P s (loseCid a0 a1 t) := by
  refine Led.lift h hw ?_
  unfold loseCid
  with_reducible repeat' first | assumption | exact Led.refl _ _ | apply journal_led | apply putRec_led | apply event_led | apply indexChange_led | with_unfolding_all exact Touch.holds rfl | fail_if_no_progress refine Led.record ?_ rfl | split | dsimp only

theorem noteRead_led {P : Touch} {s t : State} (a0 a1) (h : Led P s t) (hw : Touch.within { trust := true, tally := true, ftl := true, corr := true, out := true } P = true) :
    Led P s (noteRead a0 a1 t) := by
  refine Led.lift h hw ?_
  unfold noteRead
  with_reducible repeat' first | assumption | exact Led.refl _ _ | apply setLedger_led | apply tallyAdd_led | with_unfolding_all exact Touch.holds rfl | fail_if_no_progress refine Led.record ?_ rfl | split | dsimp only

theorem noteUncorrectablePage_led {P : Touch} {s t : State} (a0) (h : Led P s t) (hw : Touch.within { trust := true, diary := true, tally := true, ftl := true, bay := true, corr := true, out := true } P = true) :
    Led P s (noteUncorrectablePage a0 t) := by
  refine Led.lift h hw ?_
  unfold noteUncorrectablePage
  with_reducible repeat' first | assumption | exact Led.refl _ _ | apply tallyAdd_led | apply setBay_led | apply retireBlock_led | with_unfolding_all exact Touch.holds rfl | fail_if_no_progress refine Led.record ?_ rfl | split | dsimp only

theorem moveSlot_led {P : Touch} {s t : State} (a0) (h : Led P s t) (hw : Touch.within { trust := true, tally := true, ftl := true, ec := true, bay := true, jobs := true, corr := true, out := true } P = true) :
    Led P s (moveSlot a0 t) := by
  refine Led.lift h hw ?_
  unfold moveSlot
  with_reducible repeat' first | assumption | exact Led.refl _ _ | apply placeMoved_led | with_unfolding_all exact Touch.holds rfl

theorem deliver_led {P : Touch} {s t : State} (a0 a1) (h : Led P s t) (hw : Touch.within { trust := true, diary := true, tally := true, stg := true, ddp := true, ftl := true, ec := true, bay := true, jobs := true, hq := true, corr := true, out := true, draws := true } P = true) :
    Led P s (deliver a0 a1 t) := by
  refine Led.lift h hw ?_
  unfold deliver
  with_reducible repeat' first | assumption | exact Led.refl _ _ | apply endRead_led | apply moveSlot_led | apply hostQuarters_led | apply contentReady_led | apply modDestage_led | apply compared_led | apply tallyAdd_led | with_unfolding_all exact Touch.holds rfl | fail_if_no_progress refine Led.record ?_ rfl | split | dsimp only

theorem checkHeaderOf_led {P : Touch} {s t : State} (a0 a1) (h : Led P s t) (hw : Touch.within { diary := true, tally := true } P = true) :
    Led P s (checkHeaderOf a0 a1 t) := by
  refine Led.lift h hw ?_
  unfold checkHeaderOf
  with_reducible repeat' first | assumption | exact Led.refl _ _ | apply event_led | with_unfolding_all exact Touch.holds rfl | split

theorem slotArrived_led {P : Touch} {s t : State} (a0 a1 a2 a3) (h : Led P s t) (hw : Touch.within { trust := true, diary := true, tally := true, stg := true, ddp := true, ftl := true, ec := true, bay := true, jobs := true, hq := true, corr := true, out := true, draws := true } P = true) :
    Led P s (slotArrived a0 a1 a2 a3 t) := by
  refine Led.lift h hw ?_
  unfold slotArrived
  with_reducible repeat' first | assumption | exact Led.refl _ _ | apply setRead_led | apply checkHeaderOf_led | apply deliver_led | with_unfolding_all exact Touch.holds rfl | fail_if_no_progress refine Led.record ?_ rfl | split | dsimp only

theorem deliverLost_led {P : Touch} {s t : State} (a0 a1) (h : Led P s t) (hw : Touch.within { trust := true, diary := true, tally := true, stg := true, ddp := true, ftl := true, ec := true, bay := true, jobs := true, hq := true, corr := true, out := true } P = true) :
    Led P s (deliverLost a0 a1 t) := by
  refine Led.lift h hw ?_
  unfold deliverLost
  with_reducible repeat' first | assumption | exact Led.refl _ _ | apply loseCid_led | apply endRead_led | apply failRead_led | apply contentReady_led | apply modDestage_led | apply compared_led | with_unfolding_all exact Touch.holds rfl | fail_if_no_progress refine Led.record ?_ rfl | split | dsimp only

theorem rebuildOrLose_led {P : Touch} {s t : State} (a0 a1) (h : Led P s t) (hw : Touch.within { trust := true, diary := true, tally := true, stg := true, ddp := true, ftl := true, ec := true, bay := true, jobs := true, hq := true, corr := true, out := true } P = true) :
    Led P s (rebuildOrLose a0 a1 t) := by
  refine Led.lift h hw ?_
  unfold rebuildOrLose
  with_reducible repeat' first | assumption | exact Led.refl _ _ | apply reconstructSlot_led | apply tallyAdd_led | apply deliverLost_led | with_unfolding_all exact Touch.holds rfl | refine Led.ite ?_ ?_ | intro _ | refine Led.ofFst ‹_ = (_, _)› ?_ | refine Led.ofSnd ‹_ = (_, _)› ?_ | refine Led.ofSome ‹_ = some _› ?_ | fail_if_no_progress refine Led.record ?_ rfl | split | dsimp only

theorem slotUnread_led {P : Touch} {s t : State} (a0 a1 a2) (h : Led P s t) (hw : Touch.within { trust := true, diary := true, tally := true, stg := true, ddp := true, ftl := true, ec := true, bay := true, jobs := true, hq := true, corr := true, out := true } P = true) :
    Led P s (slotUnread a0 a1 a2 t) := by
  refine Led.lift h hw ?_
  unfold slotUnread
  with_reducible repeat' first | assumption | exact Led.refl _ _ | apply event_led | apply rebuildOrLose_led | apply replaceSource_led | apply deliverLost_led | with_unfolding_all exact Touch.holds rfl | refine Led.ite ?_ ?_ | intro _ | refine Led.ofFst ‹_ = (_, _)› ?_ | refine Led.ofSnd ‹_ = (_, _)› ?_ | refine Led.ofSome ‹_ = some _› ?_ | fail_if_no_progress refine Led.record ?_ rfl | split | dsimp only

theorem takeTails_led {P : Touch} {s t : State} (a0 a1 a2) (h : Led P s t) (hw : Touch.within { ftl := true } P = true) :
    Led P s (takeTails a0 a1 a2 t) := by
  refine Led.lift h hw ?_
  unfold takeTails
  with_reducible repeat' first | assumption | exact Led.refl _ _ | with_unfolding_all exact Touch.holds rfl | fail_if_no_progress refine Led.record ?_ rfl | split

theorem metaArrived_led {P : Touch} {s t : State} (a0 a1 a2) (h : Led P s t) (hw : Touch.within { diary := true, tally := true, ftl := true, bay := true } P = true) :
    Led P s (metaArrived a0 a1 a2 t) := by
  refine Led.lift h hw ?_
  unfold metaArrived
  with_reducible repeat' first | assumption | exact Led.refl _ _ | apply takeTails_led | apply touchPages_led | apply fetchMeta_led | apply event_led | with_unfolding_all exact Touch.holds rfl | fail_if_no_progress refine Led.record ?_ rfl | split | dsimp only

theorem execReconstructionCombine_led {P : Touch} {s t : State} (a0) (h : Led P s t) (hw : Touch.within { tt := true, jobs := true } P = true) :
    LedO P s (execReconstructionCombine a0 t) := by
  refine LedO.lift h hw ?_
  unfold execReconstructionCombine
  with_reducible repeat' first | assumption | exact Led.refl _ _ | apply whenDue_led | apply pay_led | apply setRead_led | with_unfolding_all exact Touch.holds rfl | apply LedO.next | split

theorem tagFailed_led {P : Touch} {s t : State} (a0 a1 a2) (h : Led P s t) (hw : Touch.within { trust := true, diary := true, tally := true, stg := true, ddp := true, ftl := true, ec := true, bay := true, ciph := true, jobs := true, hq := true, corr := true, out := true } P = true) :
    Led P s (tagFailed a0 a1 a2 t) := by
  refine Led.lift h hw ?_
  unfold tagFailed
  with_reducible repeat' first | assumption | exact Led.refl _ _ | apply event_led | apply tallyAdd_led | apply rebuildOrLose_led | apply setRead_led | with_unfolding_all exact Touch.holds rfl | fail_if_no_progress refine Led.record ?_ rfl | split

theorem slotOpened_led {P : Touch} {s t : State} (a0 a1) (h : Led P s t) (hw : Touch.within { trust := true, diary := true, tally := true, tt := true, lanes := true, stg := true, ddp := true, ftl := true, ec := true, bay := true, jobs := true, hq := true, corr := true, out := true, draws := true } P = true) :
    Led P s (slotOpened a0 a1 t) := by
  refine Led.lift h hw ?_
  unfold slotOpened
  with_reducible repeat' first | assumption | exact Led.refl _ _ | apply laneOut_led | apply tallyAdd_led | apply deliver_led | apply setRead_led | with_unfolding_all exact Touch.holds rfl | fail_if_no_progress refine Led.record ?_ rfl | split

theorem useOlder_led {P : Touch} {s t : State} (a0 a1 a2) (h : Led P s t) (hw : Touch.within { ciph := true } P = true) :
    Led P s (useOlder a0 a1 a2 t) := by
  refine Led.lift h hw ?_
  unfold useOlder
  with_reducible repeat' first | assumption | exact Led.refl _ _ | with_unfolding_all exact Touch.holds rfl | fail_if_no_progress refine Led.record ?_ rfl | split

theorem execSlotDecryptComplete_led {P : Touch} {s t : State} (a0 a1 a2) (h : Led P s t) (hw : Touch.within { trust := true, diary := true, tally := true, tt := true, lanes := true, stg := true, ddp := true, ftl := true, ec := true, bay := true, ciph := true, jobs := true, hq := true, corr := true, out := true, draws := true } P = true) :
    LedO P s (execSlotDecryptComplete a0 a1 a2 t) := by
  refine LedO.lift h hw ?_
  unfold execSlotDecryptComplete
  with_reducible repeat' first | assumption | exact Led.refl _ _ | apply posted_led | apply event_led | apply rebuildOrLose_led | apply setRead_led | apply useOlder_led | apply tagFailed_led | apply slotOpened_led | with_unfolding_all exact Touch.holds rfl | apply LedO.next | refine LedO.ite ?_ ?_ | refine Led.ite ?_ ?_ | intro _ | fail_if_no_progress refine Led.record ?_ rfl | split | dsimp only

theorem noteDecodeErrors_led {P : Touch} {s t : State} (a0 a1) (h : Led P s t) (hw : Touch.within { diary := true, tally := true, skx := true } P = true) :
    Led P s (noteDecodeErrors a0 a1 t) := by
  refine Led.lift h hw ?_
  unfold noteDecodeErrors
  with_reducible repeat' first | assumption | exact Led.refl _ _ | apply event_led | apply tallyAdd_led | with_unfolding_all exact Touch.holds rfl | (refine Led.foldl ?_ ?_; rotate_left; intro _ _ _) | fail_if_no_progress refine Led.record ?_ rfl | split

theorem execDecodeComplete_led {P : Touch} {s t : State} (a0 a1 a2) (h : Led P s t) (hw : Touch.within { trust := true, diary := true, tally := true, tt := true, lanes := true, stg := true, ddp := true, ftl := true, ec := true, bay := true, skx := true, jobs := true, hq := true, corr := true, out := true, draws := true } P = true) :
    LedO P s (execDecodeComplete a0 a1 a2 t) := by
  refine LedO.lift h hw ?_
  unfold execDecodeComplete
  with_reducible repeat' first | assumption | exact Led.refl _ _ | apply posted_led | apply laneOut_led | apply deliver_led | apply tallyAdd_led | apply noteDecodeErrors_led | apply event_led | apply setRead_led | apply deliverLost_led | apply rebuildOrLose_led | with_unfolding_all exact Touch.holds rfl | apply LedO.next | refine LedO.ite ?_ ?_ | refine Led.ite ?_ ?_ | intro _ | (refine Led.foldl ?_ ?_; rotate_left; intro _ _ _) | fail_if_no_progress refine Led.record ?_ rfl | split

theorem execPsaResolveAgain_led {P : Touch} {s t : State} (a0) (h : Led P s t) (hw : Touch.within { ftl := true, bay := true, jobs := true } P = true) :
    LedO P s (execPsaResolveAgain a0 t) := by
  refine LedO.lift h hw ?_
  unfold execPsaResolveAgain
  with_reducible repeat' first | assumption | exact Led.refl _ _ | apply whenDue_led | apply postRead_led | apply setRead_led | with_unfolding_all exact Touch.holds rfl | apply LedO.next | fail_if_no_progress refine Led.record ?_ rfl | split

theorem startMove_led {P : Touch} {s t : State} (a0 a1) (h : Led P s t) (hw : Touch.within { trust := true, tally := true, ddp := true, ftl := true, ec := true, corr := true, out := true } P = true) :
    Led P s (startMove a0 a1 t) := by
  refine Led.lift h hw ?_
  unfold startMove
  with_reducible repeat' first | assumption | exact Led.refl _ _ | apply dropCid_led | apply settleBlock_led | with_unfolding_all exact Touch.holds rfl | (refine Led.foldl ?_ ?_; rotate_left; intro _ _ _) | fail_if_no_progress refine Led.record ?_ rfl | split | dsimp only

theorem startMoves_led {P : Touch} {s t : State} (h : Led P s t) (hw : Touch.within { ftl := true, bay := true, jobs := true } P = true) :
    Led P s (startMoves t) := by
  refine Led.lift h hw ?_
  unfold startMoves
  with_reducible repeat' first | assumption | exact Led.refl _ _ | apply startRead_led | with_unfolding_all exact Touch.holds rfl | (refine Led.foldl ?_ ?_; rotate_left; intro _ _ _) | fail_if_no_progress refine Led.record ?_ rfl | split

theorem execGcStart_led {P : Touch} {s t : State} (a0 a1) (h : Led P s t) (hw : Touch.within { trust := true, tally := true, ddp := true, ftl := true, ec := true, corr := true, out := true } P = true) :
    LedO P s (execGcStart a0 a1 t) := by
  refine LedO.lift h hw ?_
  unfold execGcStart
  with_reducible repeat' first | assumption | exact Led.refl _ _ | apply whenDue_led | apply startMove_led | with_unfolding_all exact Touch.holds rfl | apply LedO.next | fail_if_no_progress refine Led.record ?_ rfl | split | dsimp only

theorem execRefreshDue_led {P : Touch} {s t : State} (a0) (h : Led P s t) (hw : Touch.within { trust := true, tally := true, ddp := true, ftl := true, ec := true, corr := true, out := true } P = true) :
    LedO P s (execRefreshDue a0 t) := by
  refine LedO.lift h hw ?_
  unfold execRefreshDue
  with_reducible repeat' first | assumption | exact Led.refl _ _ | apply whenDue_led | apply startMove_led | with_unfolding_all exact Touch.holds rfl | apply LedO.next

theorem execBlockEraseDue_led {P : Touch} {s t : State} (a0) (h : Led P s t) (hw : Touch.within { ftl := true, bay := true } P = true) :
    LedO P s (execBlockEraseDue a0 t) := by
  refine LedO.lift h hw ?_
  unfold execBlockEraseDue
  with_reducible repeat' first | assumption | exact Led.refl _ _ | apply whenDue_led | apply queueOp_led | with_unfolding_all exact Touch.holds rfl | apply LedO.next | fail_if_no_progress refine Led.record ?_ rfl

theorem execBlpEraseComplete_led {P : Touch} {s t : State} (a0) (h : Led P s t) (hw : Touch.within { trust := true, diary := true, tally := true, ftl := true, ec := true, bay := true, pool := true, jobs := true, corr := true, out := true } P = true) :
    LedO P s (execBlpEraseComplete a0 t) := by
  refine LedO.lift h hw ?_
  unfold execBlpEraseComplete
  with_reducible repeat' first | assumption | exact Led.refl _ _ | apply bridgeStatus_led | apply takeDone_led | apply tallyAdd_led | apply setBlkState_led | apply setOwnLedger_led | apply retireBlock_led | with_unfolding_all exact Touch.holds rfl | apply LedO.next | refine LedO.ite ?_ ?_ | refine Led.ite ?_ ?_ | intro _ | fail_if_no_progress refine Led.record ?_ rfl | split

theorem consume_led {P : Touch} {s t : State} (a0 a1) (h : Led P s t) (hw : Touch.within { trust := true, tally := true, ftl := true, corr := true, out := true } P = true) :
    Led P s (consume a0 a1 t) := by
  refine Led.lift h hw ?_
  unfold consume
  with_reducible repeat' first | assumption | exact Led.refl _ _ | apply setLedger_led | with_unfolding_all exact Touch.holds rfl | (refine Led.foldl ?_ ?_; rotate_left; intro _ _ _) | fail_if_no_progress refine Led.record ?_ rfl | split

theorem execRetentionAccrue_led {P : Touch} {s t : State} (h : Led P s t) (hw : Touch.within { trust := true, tally := true, ftl := true, corr := true, out := true } P = true) :
    LedO P s (execRetentionAccrue t) := by
  refine LedO.lift h hw ?_
  unfold execRetentionAccrue
  with_reducible repeat' first | assumption | exact Led.refl _ _ | apply whenDue_led | apply consume_led | with_unfolding_all exact Touch.holds rfl | apply LedO.next | fail_if_no_progress refine Led.record ?_ rfl

theorem execCalibrationDue_led {P : Touch} {s t : State} (a0 a1) (h : Led P s t) (hw : Touch.within { bay := true } P = true) :
    LedO P s (execCalibrationDue a0 a1 t) := by
  refine LedO.lift h hw ?_
  unfold execCalibrationDue
  with_reducible repeat' first | assumption | exact Led.refl _ _ | apply whenDue_led | apply queueOp_led | with_unfolding_all exact Touch.holds rfl | apply LedO.next

theorem execBlpCalibrateComplete_led {P : Touch} {s t : State} (a0 a1 a2) (h : Led P s t) (hw : Touch.within { trust := true, cpi := true, diary := true, tally := true, ftl := true, ec := true, bay := true, pool := true, jobs := true, corr := true, out := true } P = true) :
    LedO P s (execBlpCalibrateComplete a0 a1 a2 t) := by
  refine LedO.lift h hw ?_
  unfold execBlpCalibrateComplete
  with_reducible repeat' first | assumption | exact Led.refl _ _ | apply bridgeStatus_led | apply takeDone_led | apply answered_led | apply setLedger_led | with_unfolding_all exact Touch.holds rfl | apply LedO.next | refine LedO.ite ?_ ?_ | refine Led.ite ?_ ?_ | intro _ | fail_if_no_progress refine Led.record ?_ rfl | split

theorem triage_led {P : Touch} {s t : State} (a0) (h : Led P s t) (hw : Touch.within { ftl := true, bay := true } P = true) :
    Led P s (triage a0 t) := by
  refine Led.lift h hw ?_
  unfold triage
  with_reducible repeat' first | assumption | exact Led.refl _ _ | apply readOp_led | apply queueOp_led | with_unfolding_all exact Touch.holds rfl | (refine Led.foldl ?_ ?_; rotate_left; intro _ _ _) | fail_if_no_progress refine Led.record ?_ rfl | split

theorem triageWithGap_led {P : Touch} {s t : State} (a0) (h : Led P s t) (hw : Touch.within { trust := true, tally := true, ftl := true, bay := true, corr := true, out := true } P = true) :
    Led P s (triageWithGap a0 t) := by
  refine Led.lift h hw ?_
  unfold triageWithGap
  with_reducible repeat' first | assumption | exact Led.refl _ _ | apply triage_led | apply consume_led | with_unfolding_all exact Touch.holds rfl

theorem sampled_led {P : Touch} {s t : State} (a0) (h : Led P s t) (hw : Touch.within { ftl := true } P = true) :
    Led P s (sampled a0 t) := by
  refine Led.lift h hw ?_
  unfold sampled
  with_reducible repeat' first | assumption | exact Led.refl _ _ | with_unfolding_all exact Touch.holds rfl | fail_if_no_progress refine Led.record ?_ rfl | split

theorem triageStep_led {P : Touch} {s t : State} (h : Led P s t) (hw : Touch.within { trust := true, tally := true, ddp := true, ftl := true, ec := true, corr := true, out := true } P = true) :
    Led P s (triageStep t) := by
  refine Led.lift h hw ?_
  unfold triageStep
  with_reducible repeat' first | assumption | exact Led.refl _ _ | apply startMove_led | with_unfolding_all exact Touch.holds rfl | fail_if_no_progress refine Led.record ?_ rfl | split | dsimp only

theorem execTimeTokenWaitExpiry_led {P : Touch} {s t : State} (h : Led P s t) (hw : Touch.within { ftl := true, bay := true } P = true) :
    LedO P s (execTimeTokenWaitExpiry t) := by
  refine LedO.lift h hw ?_
  unfold execTimeTokenWaitExpiry
  with_reducible repeat' first | assumption | exact Led.refl _ _ | apply whenDue_led | apply triage_led | with_unfolding_all exact Touch.holds rfl | apply LedO.next

theorem execSpareStateChange_led {P : Touch} {s t : State} (h : Led P s t) (hw : Touch.within { ftl := true } P = true) :
    LedO P s (execSpareStateChange t) := by
  refine LedO.lift h hw ?_
  unfold execSpareStateChange
  with_reducible repeat' first | assumption | exact Led.refl _ _ | with_unfolding_all exact Touch.holds rfl | apply LedO.next | fail_if_no_progress refine Led.record ?_ rfl

theorem spareBell_led {P : Touch} {s t : State} (h : Led P s t) (hw : Touch.within { diary := true, tally := true, ftl := true } P = true) :
    Led P s (spareBell t) := by
  refine Led.lift h hw ?_
  unfold spareBell
  with_reducible repeat' first | assumption | exact Led.refl _ _ | apply event_led | with_unfolding_all exact Touch.holds rfl | fail_if_no_progress refine Led.record ?_ rfl | split

theorem execStripeIdleClose_led {P : Touch} {s t : State} (a0) (h : Led P s t) (hw : Touch.within { trust := true, tally := true, ftl := true, ec := true, bay := true, jobs := true, corr := true, out := true } P = true) :
    LedO P s (execStripeIdleClose a0 t) := by
  refine LedO.lift h hw ?_
  unfold execStripeIdleClose
  with_reducible repeat' first | assumption | exact Led.refl _ _ | apply whenDue_led | apply closeEarly_led | with_unfolding_all exact Touch.holds rfl | apply LedO.next | split

theorem closeForThrough_led {P : Touch} {s t : State} (h : Led P s t) (hw : Touch.within { trust := true, tally := true, ftl := true, ec := true, bay := true, jobs := true, corr := true, out := true } P = true) :
    Led P s (closeForThrough t) := by
  refine Led.lift h hw ?_
  unfold closeForThrough
  with_reducible repeat' first | assumption | exact Led.refl _ _ | apply closeEarly_led | with_unfolding_all exact Touch.holds rfl | (refine Led.foldl ?_ ?_; rotate_left; intro _ _ _) | fail_if_no_progress refine Led.record ?_ rfl | split

theorem readOldParity_led {P : Touch} {s t : State} (a0 a1) (h : Led P s t) (hw : Touch.within { bay := true } P = true) :
    Led P s (readOldParity a0 a1 t) := by
  refine Led.lift h hw ?_
  unfold readOldParity
  with_reducible repeat' first | assumption | exact Led.refl _ _ | apply readOp_led | with_unfolding_all exact Touch.holds rfl | (refine Led.foldl ?_ ?_; rotate_left; intro _ _ _) | fail_if_no_progress refine Led.record ?_ rfl | split

theorem execStripeExtend_led {P : Touch} {s t : State} (a0) (h : Led P s t) (hw : Touch.within { trust := true, tally := true, ftl := true, ec := true, bay := true, jobs := true, corr := true, out := true } P = true) :
    LedO P s (execStripeExtend a0 t) := by
  refine LedO.lift h hw ?_
  unfold execStripeExtend
  with_reducible repeat' first | assumption | exact Led.refl _ _ | apply postStrip_led | apply setGroup_led | apply readOldParity_led | with_unfolding_all exact Touch.holds rfl | apply LedO.next | fail_if_no_progress refine Led.record ?_ rfl | split | dsimp only

theorem execGroupOpen_led {P : Touch} {s t : State} (a0) (h : Led P s t) (hw : Touch.within { trust := true, tally := true, ftl := true, ec := true, corr := true, out := true } P = true) :
    LedO P s (execGroupOpen a0 t) := by
  refine LedO.lift h hw ?_
  unfold execGroupOpen
  with_reducible repeat' first | assumption | exact Led.refl _ _ | apply whenDue_led | apply openGroup_led | with_unfolding_all exact Touch.holds rfl | apply LedO.next | split

theorem execPatrolStripe_led {P : Touch} {s t : State} (a0) (h : Led P s t) (hw : Touch.within { diary := true, tally := true, tt := true, ec := true, ciph := true } P = true) :
    LedO P s (execPatrolStripe a0 t) := by
  refine LedO.lift h hw ?_
  unfold execPatrolStripe
  with_reducible repeat' first | assumption | exact Led.refl _ _ | apply posted_led | apply tallyAdd_led | apply event_led | with_unfolding_all exact Touch.holds rfl | apply LedO.next | refine LedO.ite ?_ ?_ | refine Led.ite ?_ ?_ | intro _ | fail_if_no_progress refine Led.record ?_ rfl | split

theorem beginRebuild_led {P : Touch} {s t : State} (a0 a1 a2 a3) (h : Led P s t) (hw : Touch.within { trust := true, tally := true, ftl := true, ec := true, bay := true, corr := true, out := true } P = true) :
    Led P s (beginRebuild a0 a1 a2 a3 t) := by
  refine Led.lift h hw ?_
  unfold beginRebuild
  with_reducible repeat' first | assumption | exact Led.refl _ _ | apply openBlock_led | apply journal_led | apply setGroup_led | apply queueOp_led | with_unfolding_all exact Touch.holds rfl | (refine Led.foldl ?_ ?_; rotate_left; intro _ _ _) | fail_if_no_progress refine Led.record ?_ rfl | split

theorem finishRebuild_led {P : Touch} {s t : State} (a0 a1 a2) (h : Led P s t) (hw : Touch.within { trust := true, tally := true, ftl := true, ec := true, corr := true, out := true } P = true) :
    Led P s (finishRebuild a0 a1 a2 t) := by
  refine Led.lift h hw ?_
  unfold finishRebuild
  with_reducible repeat' first | assumption | exact Led.refl _ _ | apply journal_led | apply setGroup_led | apply moveCid_led | apply setBlkState_led | apply putLedger_led | apply setMember_led | apply tallyAdd_led | apply afterDurable_led | with_unfolding_all exact Touch.holds rfl | refine Led.ite ?_ ?_ | intro _ | (refine Led.foldl ?_ ?_; rotate_left; intro _ _ _) | fail_if_no_progress refine Led.record ?_ rfl | split

theorem rebuildTriad_led {P : Touch} {s t : State} (a0 a1 a2) (h : Led P s t) (hw : Touch.within { trust := true, tally := true, ftl := true, ec := true, bay := true, corr := true, out := true } P = true) :
    Led P s (rebuildTriad a0 a1 a2 t) := by
  refine Led.lift h hw ?_
  unfold rebuildTriad
  with_reducible repeat' first | assumption | exact Led.refl _ _ | apply journal_led | apply openBlock_led | apply queueOp_led | with_unfolding_all exact Touch.holds rfl | (refine Led.foldl ?_ ?_; rotate_left; intro _ _ _) | fail_if_no_progress refine Led.record ?_ rfl | split | dsimp only

theorem execRebuildBlock_led {P : Touch} {s t : State} (a0) (h : Led P s t) (hw : Touch.within { trust := true, diary := true, tally := true, tt := true, ftl := true, ec := true, bay := true, corr := true, out := true } P = true) :
    LedO P s (execRebuildBlock a0 t) := by
  refine LedO.lift h hw ?_
  unfold execRebuildBlock
  with_reducible repeat' first | assumption | exact Led.refl _ _ | apply whenDue_led | apply finishRebuild_led | apply rebuildTriad_led | apply event_led | apply posted_led | apply beginRebuild_led | with_unfolding_all exact Touch.holds rfl | apply LedO.next | refine LedO.ite ?_ ?_ | refine Led.ite ?_ ?_ | intro _ | fail_if_no_progress refine Led.record ?_ rfl | split | dsimp only

theorem execLostSweep_led {P : Touch} {s t : State} (h : Led P s t) (hw : Touch.within { trust := true, diary := true, tally := true, ddp := true, ftl := true, ec := true, corr := true, out := true } P = true) :
    LedO P s (execLostSweep t) := by
  refine LedO.lift h hw ?_
  unfold execLostSweep
  with_reducible repeat' first | assumption | exact Led.refl _ _ | apply whenDue_led | apply loseCid_led | with_unfolding_all exact Touch.holds rfl | apply LedO.next | (refine Led.foldl ?_ ?_; rotate_left; intro _ _ _) | fail_if_no_progress refine Led.record ?_ rfl | split

theorem stripFailed_led {P : Touch} {s t : State} (a0 a1 a2 a3) (h : Led P s t) (hw : Touch.within { trust := true, diary := true, tally := true, ftl := true, ec := true, bay := true, jobs := true, corr := true, out := true } P = true) :
    Led P s (stripFailed a0 a1 a2 a3 t) := by
  refine Led.lift h hw ?_
  unfold stripFailed
  with_reducible repeat' first | assumption | exact Led.refl _ _ | apply retireBlock_led | apply setGroup_led | apply seekPlace_led | apply closeGroup_led | apply closeEarly_led | with_unfolding_all exact Touch.holds rfl | fail_if_no_progress refine Led.record ?_ rfl | split

theorem programEnded_led {P : Touch} {s t : State} (a0 a1) (h : Led P s t) (hw : Touch.within { trust := true, diary := true, tally := true, ddp := true, ftl := true, ec := true, bay := true, jobs := true, corr := true, out := true } P = true) :
    Led P s (programEnded a0 a1 t) := by
  refine Led.lift h hw ?_
  unfold programEnded
  with_reducible repeat' first | assumption | exact Led.refl _ _ | apply event_led | apply stripDone_led | apply stripFailed_led | apply retireBlock_led | with_unfolding_all exact Touch.holds rfl | fail_if_no_progress refine Led.record ?_ rfl | split

theorem execBlpProgramComplete_led {P : Touch} {s t : State} (a0) (h : Led P s t) (hw : Touch.within { trust := true, diary := true, tally := true, ddp := true, ftl := true, ec := true, bay := true, pool := true, jobs := true, corr := true, out := true } P = true) :
    LedO P s (execBlpProgramComplete a0 t) := by
  refine LedO.lift h hw ?_
  unfold execBlpProgramComplete
  with_reducible repeat' first | assumption | exact Led.refl _ _ | apply bridgeStatus_led | apply takeDone_led | apply programEnded_led | with_unfolding_all exact Touch.holds rfl | apply LedO.next | refine LedO.ite ?_ ?_ | refine Led.ite ?_ ?_ | intro _ | fail_if_no_progress refine Led.record ?_ rfl | split

theorem updPin_led {P : Touch} {s t : State} (a0 a1) (h : Led P s t) (hw : Touch.within { pins := true } P = true) :
    Led P s (updPin a0 a1 t) := by
  refine Led.lift h hw ?_
  unfold updPin
  exact Led.record (.refl _ _) rfl

theorem setLevel_led {P : Touch} {s t : State} (a0 a1) (h : Led P s t) (hw : Touch.within { pins := true } P = true) :
    Led P s (setLevel a0 a1 t) := by
  refine Led.lift h hw ?_
  unfold setLevel
  exact Led.record (.refl _ _) rfl

theorem drivePin_led {P : Touch} {s t : State} (a0 a1) (h : Led P s t) (hw : Touch.within { pins := true } P = true) :
    Led P s (drivePin a0 a1 t) := by
  refine Led.lift h hw ?_
  unfold drivePin
  exact Led.record (.refl _ _) rfl

theorem pinFaultEvent_led {P : Touch} {s t : State} (a0 a1) (h : Led P s t) (hw : Touch.within { diary := true, tally := true } P = true) :
    Led P s (pinFaultEvent a0 a1 t) := by
  refine Led.lift h hw ?_
  unfold pinFaultEvent
  with_reducible repeat' first | assumption | exact Led.refl _ _ | apply event_led | with_unfolding_all exact Touch.holds rfl

theorem classFault_led {P : Touch} {s t : State} (a0 a1) (h : Led P s t) (hw : Touch.within { pins := true, diary := true, tally := true } P = true) :
    Led P s (classFault a0 a1 t) := by
  refine Led.lift h hw ?_
  unfold classFault
  with_reducible repeat' first | assumption | exact Led.refl _ _ | apply tallyAdd_led | apply pinFaultEvent_led | with_unfolding_all exact Touch.holds rfl | fail_if_no_progress refine Led.record ?_ rfl | split

theorem pinFound_led {P : Touch} {s t : State} (a0 a1) (h : Led P s t) (hw : Touch.within { pins := true, diary := true, tally := true } P = true) :
    Led P s (pinFound a0 a1 t) := by
  refine Led.lift h hw ?_
  unfold pinFound
  with_reducible repeat' first | assumption | exact Led.refl _ _ | apply updPin_led | apply classFault_led | with_unfolding_all exact Touch.holds rfl | split

theorem resetPinsBell_led {P : Touch} {s t : State} (h : Led P s t) (hw : Touch.within { pins := true } P = true) :
    Led P s (resetPinsBell t) := by
  refine Led.lift h hw ?_
  unfold resetPinsBell
  with_reducible repeat' first | assumption | exact Led.refl _ _ | apply setLevel_led | with_unfolding_all exact Touch.holds rfl | (refine Led.foldl ?_ ?_; rotate_left; intro _ _ _) | fail_if_no_progress refine Led.record ?_ rfl | split

theorem execPinOpenTest_led {P : Touch} {s t : State} (a0 a1 a2) (h : Led P s t) (hw : Touch.within { pins := true, diary := true, tally := true } P = true) :
    LedO P s (execPinOpenTest a0 a1 a2 t) := by
  refine LedO.lift h hw ?_
  unfold execPinOpenTest
  with_reducible repeat' first | assumption | exact Led.refl _ _ | apply pinFound_led | apply updPin_led | with_unfolding_all exact Touch.holds rfl | apply LedO.next | split

theorem execPinDriveRestored_led {P : Touch} {s t : State} (a0) (h : Led P s t) (hw : Touch.within { pins := true } P = true) :
    LedO P s (execPinDriveRestored a0 t) := by
  refine LedO.lift h hw ?_
  unfold execPinDriveRestored
  with_reducible repeat' first | assumption | exact Led.refl _ _ | apply whenDue_led | apply updPin_led | with_unfolding_all exact Touch.holds rfl | apply LedO.next

theorem execFpLocate_led {P : Touch} {s t : State} (h : Led P s t) (hw : Touch.within { pins := true } P = true) :
    LedO P s (execFpLocate t) := by
  refine LedO.lift h hw ?_
  unfold execFpLocate
  with_reducible repeat' first | assumption | exact Led.refl _ _ | apply whenDue_led | with_unfolding_all exact Touch.holds rfl | apply LedO.next | fail_if_no_progress refine Led.record ?_ rfl

theorem execSmbusRead_led {P : Touch} {s t : State} (a0) (h : Led P s t) (hw : Touch.within { out := true } P = true) :
    LedO P s (execSmbusRead a0 t) := by
  refine LedO.lift h hw ?_
  unfold execSmbusRead
  with_reducible repeat' first | assumption | exact Led.refl _ _ | apply whenDue_led | apply emit_led | with_unfolding_all exact Touch.holds rfl | apply LedO.next

theorem tapTake_led {P : Touch} {s t : State} (a0 a1) (h : Led P s t) (hw : Touch.within { pins := true, out := true } P = true) :
    Led P s (tapTake a0 a1 t) := by
  refine Led.lift h hw ?_
  unfold tapTake
  exact Led.record (.refl _ _) rfl

theorem tapGated_led {P : Touch} {s t : State} (a0) (h : Led P s t) (hw : Touch.within { pins := true, out := true } P = true) :
    Led P s (tapGated a0 t) := by
  refine Led.lift h hw ?_
  unfold tapGated
  with_reducible repeat' first | assumption | exact Led.refl _ _ | apply tapTake_led | with_unfolding_all exact Touch.holds rfl | split

theorem execTapBypass_led {P : Touch} {s t : State} (h : Led P s t) (hw : Touch.within { pins := true, out := true } P = true) :
    LedO P s (execTapBypass t) := by
  refine LedO.lift h hw ?_
  unfold execTapBypass
  with_reducible repeat' first | assumption | exact Led.refl _ _ | apply tapTake_led | with_unfolding_all exact Touch.holds rfl | apply LedO.next

theorem execTapIdcode_led {P : Touch} {s t : State} (h : Led P s t) (hw : Touch.within { pins := true, out := true } P = true) :
    LedO P s (execTapIdcode t) := by
  refine LedO.lift h hw ?_
  unfold execTapIdcode
  with_reducible repeat' first | assumption | exact Led.refl _ _ | apply tapTake_led | with_unfolding_all exact Touch.holds rfl | apply LedO.next

theorem execTapSamplePreload_led {P : Touch} {s t : State} (h : Led P s t) (hw : Touch.within { pins := true, out := true, draws := true } P = true) :
    LedO P s (execTapSamplePreload t) := by
  refine LedO.lift h hw ?_
  unfold execTapSamplePreload
  with_reducible repeat' first | assumption | exact Led.refl _ _ | apply drawn_led | apply tapTake_led | with_unfolding_all exact Touch.holds rfl | apply LedO.next

theorem execTapExtest_led {P : Touch} {s t : State} (h : Led P s t) (hw : Touch.within { pins := true, out := true } P = true) :
    LedO P s (execTapExtest t) := by
  refine LedO.lift h hw ?_
  unfold execTapExtest
  with_reducible repeat' first | assumption | exact Led.refl _ _ | apply tapGated_led | with_unfolding_all exact Touch.holds rfl | apply LedO.next

theorem execTapExtestPulse_led {P : Touch} {s t : State} (h : Led P s t) (hw : Touch.within { pins := true, out := true } P = true) :
    LedO P s (execTapExtestPulse t) := by
  refine LedO.lift h hw ?_
  unfold execTapExtestPulse
  with_reducible repeat' first | assumption | exact Led.refl _ _ | apply tapGated_led | with_unfolding_all exact Touch.holds rfl | apply LedO.next

theorem execTapExtestTrain_led {P : Touch} {s t : State} (h : Led P s t) (hw : Touch.within { pins := true, out := true } P = true) :
    LedO P s (execTapExtestTrain t) := by
  refine LedO.lift h hw ?_
  unfold execTapExtestTrain
  with_reducible repeat' first | assumption | exact Led.refl _ _ | apply tapGated_led | with_unfolding_all exact Touch.holds rfl | apply LedO.next

theorem execTapClamp_led {P : Touch} {s t : State} (h : Led P s t) (hw : Touch.within { pins := true, out := true } P = true) :
    LedO P s (execTapClamp t) := by
  refine LedO.lift h hw ?_
  unfold execTapClamp
  with_reducible repeat' first | assumption | exact Led.refl _ _ | apply tapGated_led | with_unfolding_all exact Touch.holds rfl | apply LedO.next

theorem execTapHighz_led {P : Touch} {s t : State} (h : Led P s t) (hw : Touch.within { pins := true, out := true } P = true) :
    LedO P s (execTapHighz t) := by
  refine LedO.lift h hw ?_
  unfold execTapHighz
  with_reducible repeat' first | assumption | exact Led.refl _ _ | apply tapGated_led | with_unfolding_all exact Touch.holds rfl | apply LedO.next

theorem execMgmtPerst_led {P : Touch} {s t : State} (h : Led P s t) (hw : Touch.within { cpi := true } P = true) :
    LedO P s (execMgmtPerst t) := by
  refine LedO.lift h hw ?_
  unfold execMgmtPerst
  with_reducible repeat' first | assumption | exact Led.refl _ _ | with_unfolding_all exact Touch.holds rfl | apply LedO.next | fail_if_no_progress refine Led.record ?_ rfl

theorem takeSuperblock_led {P : Touch} {s t : State} (a0) (h : Led P s t) (hw : Touch.within { ec := true, pool := true } P = true) :
    Led P s (takeSuperblock a0 t) := by
  refine Led.lift h hw ?_
  unfold takeSuperblock
  exact Led.record (.refl _ _) rfl

theorem classModule_led {P : Touch} {s t : State} (a0) (h : Led P s t) (hw : Touch.within { trust := true, diary := true, tally := true, ftl := true, ec := true, bay := true, pool := true, jobs := true, corr := true, out := true } P = true) :
    Led P s (classModule a0 t) := by
  refine Led.lift h hw ?_
  unfold classModule
  with_reducible repeat' first | assumption | exact Led.refl _ _ | apply event_led | apply setBay_led | apply memberTo_led | with_unfolding_all exact Touch.holds rfl | fail_if_no_progress refine Led.record ?_ rfl | split | dsimp only

theorem ringNext_led {P : Touch} {s t : State} (a0 a1 a2 a3) (h : Led P s t) (hw : Touch.within { trust := true, diary := true, tally := true, ftl := true, ec := true, bay := true, pool := true, jobs := true, corr := true, out := true } P = true) :
    Led P s (ringNext a0 a1 a2 a3 t) := by
  refine Led.lift h hw ?_
  unfold ringNext
  with_reducible repeat' first | assumption | exact Led.refl _ _ | apply classModule_led | apply queueOp_led | with_unfolding_all exact Touch.holds rfl | refine Led.ite ?_ ?_ | intro _

theorem ringPage_led {P : Touch} {s t : State} (a0 a1 a2 a3) (h : Led P s t) (hw : Touch.within { diary := true, tally := true, ec := true, bay := true, pool := true } P = true) :
    Led P s (ringPage a0 a1 a2 a3 t) := by
  refine Led.lift h hw ?_
  unfold ringPage
  with_reducible repeat' first | assumption | exact Led.refl _ _ | apply event_led | apply setBay_led | apply takeSuperblock_led | with_unfolding_all exact Touch.holds rfl | refine Led.ite ?_ ?_ | intro _

theorem execBlpReadComplete_led {P : Touch} {s t : State} (a0 a1 a2) (h : Led P s t) (hw : Touch.within { trust := true, diary := true, tally := true, stg := true, ddp := true, ftl := true, ec := true, bay := true, pool := true, ciph := true, jobs := true, hq := true, corr := true, out := true, draws := true } P = true) :
    LedO P s (execBlpReadComplete a0 a1 a2 t) := by
  refine LedO.lift h hw ?_
  unfold execBlpReadComplete
  with_reducible repeat' first | assumption | exact Led.refl _ _ | apply noteRead_led | apply takeDone_led | apply noteUncorrectablePage_led | apply bridgeStatus_led | apply slotArrived_led | apply slotUnread_led | apply metaArrived_led | apply sweepArrived_led | apply sampled_led | apply ringNext_led | apply ringPage_led | with_unfolding_all exact Touch.holds rfl | apply LedO.next | fail_if_no_progress refine Led.record ?_ rfl | split | dsimp only

theorem identityRefused_led {P : Touch} {s t : State} (a0) (h : Led P s t) (hw : Touch.within { diary := true, tally := true, bay := true } P = true) :
    Led P s (identityRefused a0 t) := by
  refine Led.lift h hw ?_
  unfold identityRefused
  with_reducible repeat' first | assumption | exact Led.refl _ _ | apply event_led | apply setBay_led | with_unfolding_all exact Touch.holds rfl

theorem noteEnvironment_led {P : Touch} {s t : State} (a0 a1) (h : Led P s t) (hw : Touch.within { tally := true, ftl := true, bay := true } P = true) :
    Led P s (noteEnvironment a0 a1 t) := by
  refine Led.lift h hw ?_
  unfold noteEnvironment
  exact Led.record (.refl _ _) rfl

theorem answerDiag_led {P : Touch} {s t : State} (a0 a1 a2 a3) (h : Led P s t) (hw : Touch.within { trust := true, cpi := true, tally := true, corr := true, out := true } P = true) :
    Led P s (answerDiag a0 a1 a2 a3 t) := by
  refine Led.lift h hw ?_
  unfold answerDiag
  with_reducible repeat' first | assumption | exact Led.refl _ _ | apply answered_led | with_unfolding_all exact Touch.holds rfl | split

theorem onDone_led {P : Touch} {s t : State} (a0 a1 f2) (h : Led P s t) (hw : Touch.within { trust := true, diary := true, tally := true, ftl := true, ec := true, bay := true, pool := true, jobs := true, corr := true, out := true } P = true) (hf2 : ∀ x0 u, Led P s u → Led P s (f2 x0 u)) :
    LedO P s (onDone a0 a1 f2 t) := by
  unfold onDone
  with_reducible repeat' first | assumption | exact Led.refl _ _ | apply hf2 | apply bridgeStatus_led | apply takeDone_led | with_unfolding_all exact Touch.holds rfl | with_unfolding_all exact Touch.within_trans rfl ‹_› | apply LedO.next | split

theorem endDiag_led {P : Touch} {s t : State} (a0 a1 a2) (h : Led P s t) (hw : Touch.within { trust := true, cpi := true, tally := true, corr := true, out := true } P = true) :
    Led P s (endDiag a0 a1 a2 t) := by
  refine Led.lift h hw ?_
  unfold endDiag
  with_reducible repeat' first | assumption | exact Led.refl _ _ | apply answerDiag_led | with_unfolding_all exact Touch.holds rfl | split

theorem execBlpSuspendComplete_led {P : Touch} {s t : State} (a0) (h : Led P s t) (hw : Touch.within { trust := true, cpi := true, diary := true, tally := true, ftl := true, ec := true, bay := true, pool := true, jobs := true, corr := true, out := true } P = true) :
    LedO P s (execBlpSuspendComplete a0 t) := by
  refine LedO.lift h hw ?_
  unfold execBlpSuspendComplete
  with_reducible repeat' first | assumption | exact Led.refl _ _ | apply onDone_led | apply endDiag_led | with_unfolding_all exact Touch.holds rfl | apply LedO.next | refine LedO.ite ?_ ?_ | refine Led.ite ?_ ?_ | intro _

theorem execBlpResumeComplete_led {P : Touch} {s t : State} (a0) (h : Led P s t) (hw : Touch.within { trust := true, cpi := true, diary := true, tally := true, ftl := true, ec := true, bay := true, pool := true, jobs := true, corr := true, out := true } P = true) :
    LedO P s (execBlpResumeComplete a0 t) := by
  refine LedO.lift h hw ?_
  unfold execBlpResumeComplete
  with_reducible repeat' first | assumption | exact Led.refl _ _ | apply onDone_led | apply endDiag_led | with_unfolding_all exact Touch.holds rfl | apply LedO.next | refine LedO.ite ?_ ?_ | refine Led.ite ?_ ?_ | intro _

theorem execBlpTelemetryComplete_led {P : Touch} {s t : State} (a0 a1) (h : Led P s t) (hw : Touch.within { trust := true, cpi := true, diary := true, tally := true, ftl := true, ec := true, bay := true, pool := true, jobs := true, corr := true, out := true } P = true) :
    LedO P s (execBlpTelemetryComplete a0 a1 t) := by
  refine LedO.lift h hw ?_
  unfold execBlpTelemetryComplete
  with_reducible repeat' first | assumption | exact Led.refl _ _ | apply onDone_led | apply answerDiag_led | apply queueOp_led | apply setBay_led | apply identityRefused_led | apply noteEnvironment_led | with_unfolding_all exact Touch.holds rfl | apply LedO.next | refine LedO.ite ?_ ?_ | refine Led.ite ?_ ?_ | intro _ | fail_if_no_progress refine Led.record ?_ rfl | split

theorem execBlpFenceComplete_led {P : Touch} {s t : State} (a0) (h : Led P s t) (hw : Touch.within { trust := true, diary := true, tally := true, ftl := true, ec := true, bay := true, pool := true, jobs := true, corr := true, out := true } P = true) :
    LedO P s (execBlpFenceComplete a0 t) := by
  refine LedO.lift h hw ?_
  unfold execBlpFenceComplete
  with_reducible repeat' first | assumption | exact Led.refl _ _ | apply onDone_led | apply haltForm_led | with_unfolding_all exact Touch.holds rfl | apply LedO.next | refine LedO.ite ?_ ?_ | refine Led.ite ?_ ?_ | intro _ | (refine Led.foldl ?_ ?_; rotate_left; intro _ _ _) | fail_if_no_progress refine Led.record ?_ rfl | split

theorem execTelemetryPoll_led {P : Touch} {s t : State} (h : Led P s t) (hw : Touch.within { bay := true } P = true) :
    LedO P s (execTelemetryPoll t) := by
  refine LedO.lift h hw ?_
  unfold execTelemetryPoll
  with_reducible repeat' first | assumption | exact Led.refl _ _ | apply whenDue_led | apply queueOp_led | with_unfolding_all exact Touch.holds rfl | apply LedO.next | (refine Led.foldl ?_ ?_; rotate_left; intro _ _ _) | fail_if_no_progress refine Led.record ?_ rfl | split

theorem execDiagDieOp_led {P : Touch} {s t : State} (a0 a1) (h : Led P s t) (hw : Touch.within { bay := true } P = true) :
    LedO P s (execDiagDieOp a0 a1 t) := by
  refine LedO.lift h hw ?_
  unfold execDiagDieOp
  with_reducible repeat' first | assumption | exact Led.refl _ _ | apply onPacket_led | apply queueOp_led | with_unfolding_all exact Touch.holds rfl | apply LedO.next | refine LedO.ite ?_ ?_ | refine Led.ite ?_ ?_ | intro _

theorem bayTo_led {P : Touch} {s t : State} (a0 a1) (h : Led P s t) (hw : Touch.within { bay := true } P = true) :
    Led P s (bayTo a0 a1 t) := by
  refine Led.lift h hw ?_
  unfold bayTo
  exact Led.record (.refl _ _) rfl

theorem drivePower_led {P : Touch} {s t : State} (a0 a1) (h : Led P s t) (hw : Touch.within { pins := true, bay := true } P = true) :
    Led P s (drivePower a0 a1 t) := by
  refine Led.lift h hw ?_
  unfold drivePower
  exact Led.record (.refl _ _) rfl

theorem driveReset_led {P : Touch} {s t : State} (a0 a1) (h : Led P s t) (hw : Touch.within { pins := true, bay := true, out := true } P = true) :
    Led P s (driveReset a0 a1 t) := by
  refine Led.lift h hw ?_
  unfold driveReset
  with_reducible repeat' first | assumption | exact Led.refl _ _ | apply drivePin_led | apply setBay_led | apply emit_led | with_unfolding_all exact Touch.holds rfl | split

theorem powerUp_led {P : Touch} {s t : State} (a0) (h : Led P s t) (hw : Touch.within { pins := true, bay := true, out := true } P = true) :
    Led P s (powerUp a0 t) := by
  refine Led.lift h hw ?_
  unfold powerUp
  with_reducible repeat' first | assumption | exact Led.refl _ _ | apply bayTo_led | apply driveReset_led | apply drivePower_led | apply setBay_led | with_unfolding_all exact Touch.holds rfl

theorem execBayPresenceDetect_led {P : Touch} {s t : State} (a0) (h : Led P s t) (hw : Touch.within { pins := true, bay := true, out := true } P = true) :
    LedO P s (execBayPresenceDetect a0 t) := by
  refine LedO.lift h hw ?_
  unfold execBayPresenceDetect
  with_reducible repeat' first | assumption | exact Led.refl _ _ | apply whenDue_led | apply powerUp_led | apply setLevel_led | with_unfolding_all exact Touch.holds rfl | apply LedO.next

theorem execBayPerstRelease_led {P : Touch} {s t : State} (a0) (h : Led P s t) (hw : Touch.within { pins := true, bay := true, out := true } P = true) :
    LedO P s (execBayPerstRelease a0 t) := by
  refine LedO.lift h hw ?_
  unfold execBayPerstRelease
  with_reducible repeat' first | assumption | exact Led.refl _ _ | apply whenDue_led | apply bayTo_led | apply driveReset_led | with_unfolding_all exact Touch.holds rfl | apply LedO.next

theorem linkAt_led {P : Touch} {s t : State} (a0 a1 a2) (h : Led P s t) (hw : Touch.within { diary := true, tally := true, bay := true } P = true) :
    Led P s (linkAt a0 a1 a2 t) := by
  refine Led.lift h hw ?_
  unfold linkAt
  with_reducible repeat' first | assumption | exact Led.refl _ _ | apply setBay_led | apply event_led | with_unfolding_all exact Touch.holds rfl | refine Led.ite ?_ ?_ | intro _

theorem fenceBay_led {P : Touch} {s t : State} (a0) (h : Led P s t) (hw : Touch.within { bay := true } P = true) :
    Led P s (fenceBay a0 t) := by
  refine Led.lift h hw ?_
  unfold fenceBay
  with_reducible repeat' first | assumption | exact Led.refl _ _ | apply fenceOwned_led | with_unfolding_all exact Touch.holds rfl | fail_if_no_progress refine Led.record ?_ rfl

theorem execBayLinkUp_led {P : Touch} {s t : State} (a0 a1 a2 a3) (h : Led P s t) (hw : Touch.within { diary := true, tally := true, bay := true, out := true, draws := true } P = true) :
    LedO P s (execBayLinkUp a0 a1 a2 a3 t) := by
  refine LedO.lift h hw ?_
  unfold execBayLinkUp
  with_reducible repeat' first | assumption | exact Led.refl _ _ | apply whenDue_led | apply drawn_led | apply emitAll_led | apply linkAt_led | apply identityRefused_led | apply queueOp_led | apply fenceBay_led | with_unfolding_all exact Touch.holds rfl | apply LedO.next | split

theorem execBayLinkTrainTimeout_led {P : Touch} {s t : State} (a0) (h : Led P s t) (hw : Touch.within { pins := true, diary := true, tally := true, bay := true, out := true } P = true) :
    LedO P s (execBayLinkTrainTimeout a0 t) := by
  refine LedO.lift h hw ?_
  unfold execBayLinkTrainTimeout
  with_reducible repeat' first | assumption | exact Led.refl _ _ | apply whenDue_led | apply event_led | apply bayTo_led | apply driveReset_led | apply setBay_led | with_unfolding_all exact Touch.holds rfl | apply LedO.next | split

theorem writeOff_led {P : Touch} {s t : State} (a0) (h : Led P s t) (hw : Touch.within { trust := true, diary := true, tally := true, stg := true, ddp := true, ftl := true, ec := true, bay := true, ciph := true, jobs := true, hq := true, corr := true, out := true } P = true) :
    Led P s (writeOff a0 t) := by
  refine Led.lift h hw ?_
  unfold writeOff
  with_reducible repeat' first | assumption | exact Led.refl _ _ | apply slotUnread_led | apply metaArrived_led | apply sweepArrived_led | apply programEnded_led | apply queueOp_led | with_unfolding_all exact Touch.holds rfl | fail_if_no_progress refine Led.record ?_ rfl | split

theorem writeOffBay_led {P : Touch} {s t : State} (a0) (h : Led P s t) (hw : Touch.within { trust := true, diary := true, tally := true, stg := true, ddp := true, ftl := true, ec := true, bay := true, ciph := true, jobs := true, hq := true, corr := true, out := true } P = true) :
    Led P s (writeOffBay a0 t) := by
  refine Led.lift h hw ?_
  unfold writeOffBay
  with_reducible repeat' first | assumption | exact Led.refl _ _ | apply writeOff_led | with_unfolding_all exact Touch.holds rfl | (refine Led.foldl ?_ ?_; rotate_left; intro _ _ _) | fail_if_no_progress refine Led.record ?_ rfl | split

theorem bayLost_led {P : Touch} {s t : State} (a0) (h : Led P s t) (hw : Touch.within { trust := true, diary := true, tally := true, stg := true, ddp := true, ftl := true, ec := true, bay := true, pool := true, ciph := true, jobs := true, hq := true, corr := true, out := true } P = true) :
    Led P s (bayLost a0 t) := by
  refine Led.lift h hw ?_
  unfold bayLost
  with_reducible repeat' first | assumption | exact Led.refl _ _ | apply setBay_led | apply writeOffBay_led | apply memberTo_led | with_unfolding_all exact Touch.holds rfl | split

theorem execBayPresenceLost_led {P : Touch} {s t : State} (a0 a1) (h : Led P s t) (hw : Touch.within { pins := true, trust := true, diary := true, tally := true, stg := true, ddp := true, ftl := true, ec := true, bay := true, pool := true, ciph := true, jobs := true, hq := true, corr := true, out := true } P = true) :
    LedO P s (execBayPresenceLost a0 a1 t) := by
  refine LedO.lift h hw ?_
  unfold execBayPresenceLost
  with_reducible repeat' first | assumption | exact Led.refl _ _ | apply setLevel_led | apply whenDue_led | apply bayLost_led | with_unfolding_all exact Touch.holds rfl | apply LedO.next | split

theorem execBayPowerOffTimeout_led {P : Touch} {s t : State} (a0) (h : Led P s t) (hw : Touch.within { pins := true, bay := true, out := true } P = true) :
    LedO P s (execBayPowerOffTimeout a0 t) := by
  refine LedO.lift h hw ?_
  unfold execBayPowerOffTimeout
  with_reducible repeat' first | assumption | exact Led.refl _ _ | apply whenDue_led | apply drivePower_led | apply driveReset_led | apply setBay_led | with_unfolding_all exact Touch.holds rfl | apply LedO.next

theorem execBayRetrainTimer_led {P : Touch} {s t : State} (a0) (h : Led P s t) (hw : Touch.within { bay := true } P = true) :
    LedO P s (execBayRetrainTimer a0 t) := by
  refine LedO.lift h hw ?_
  unfold execBayRetrainTimer
  with_reducible repeat' first | assumption | exact Led.refl _ _ | apply whenDue_led | apply setBay_led | with_unfolding_all exact Touch.holds rfl | apply LedO.next

theorem execBayLinkReturn_led {P : Touch} {s t : State} (a0 a1 a2) (h : Led P s t) (hw : Touch.within { diary := true, tally := true, bay := true, out := true } P = true) :
    LedO P s (execBayLinkReturn a0 a1 a2 t) := by
  refine LedO.lift h hw ?_
  unfold execBayLinkReturn
  with_reducible repeat' first | assumption | exact Led.refl _ _ | apply whenDue_led | apply queueOp_led | apply fenceBay_led | apply emitAll_led | apply linkAt_led | with_unfolding_all exact Touch.holds rfl | apply LedO.next

theorem powerDown_led {P : Touch} {s t : State} (a0) (h : Led P s t) (hw : Touch.within { pins := true, trust := true, diary := true, tally := true, stg := true, ddp := true, ftl := true, ec := true, bay := true, ciph := true, jobs := true, hq := true, corr := true, out := true } P = true) :
    Led P s (powerDown a0 t) := by
  refine Led.lift h hw ?_
  unfold powerDown
  with_reducible repeat' first | assumption | exact Led.refl _ _ | apply writeOffBay_led | apply setBay_led | apply drivePower_led | apply driveReset_led | with_unfolding_all exact Touch.holds rfl

theorem execBayAttention_led {P : Touch} {s t : State} (a0 a1) (h : Led P s t) (hw : Touch.within { pins := true, trust := true, diary := true, tally := true, stg := true, ddp := true, ftl := true, ec := true, bay := true, pool := true, ciph := true, jobs := true, hq := true, corr := true, out := true } P = true) :
    LedO P s (execBayAttention a0 a1 t) := by
  refine LedO.lift h hw ?_
  unfold execBayAttention
  with_reducible repeat' first | assumption | exact Led.refl _ _ | apply whenDue_led | apply setBay_led | apply emitAll_led | apply event_led | apply bridgeFailed_led | apply powerDown_led | with_unfolding_all exact Touch.holds rfl | apply LedO.next | refine LedO.ite ?_ ?_ | refine Led.ite ?_ ?_ | intro _

theorem execBayLinkDegraded_led {P : Touch} {s t : State} (a0 a1 a2) (h : Led P s t) (hw : Touch.within { diary := true, tally := true, bay := true } P = true) :
    LedO P s (execBayLinkDegraded a0 a1 a2 t) := by
  refine LedO.lift h hw ?_
  unfold execBayLinkDegraded
  with_reducible repeat' first | assumption | exact Led.refl _ _ | apply whenDue_led | apply linkAt_led | apply setBay_led | with_unfolding_all exact Touch.holds rfl | apply LedO.next

theorem execBayFullRetrain_led {P : Touch} {s t : State} (a0 a1 a2) (h : Led P s t) (hw : Touch.within { diary := true, tally := true, bay := true, corr := true } P = true) :
    LedO P s (execBayFullRetrain a0 a1 a2 t) := by
  refine LedO.lift h hw ?_
  unfold execBayFullRetrain
  with_reducible repeat' first | assumption | exact Led.refl _ _ | apply whenDue_led | apply linkAt_led | apply setBay_led | with_unfolding_all exact Touch.holds rfl | apply LedO.next | fail_if_no_progress refine Led.record ?_ rfl | split

theorem execBayWidthSet_led {P : Touch} {s t : State} (a0 a1) (h : Led P s t) (hw : Touch.within { trust := true, cpi := true, diary := true, tally := true, bay := true, corr := true, out := true } P = true) :
    LedO P s (execBayWidthSet a0 a1 t) := by
  refine LedO.lift h hw ?_
  unfold execBayWidthSet
  with_reducible repeat' first | assumption | exact Led.refl _ _ | apply onPacket_led | apply refuse_led | apply setBay_led | apply changed_led | with_unfolding_all exact Touch.holds rfl | apply LedO.next | refine LedO.ite ?_ ?_ | refine Led.ite ?_ ?_ | intro _ | (refine Led.foldl ?_ ?_; rotate_left; intro _ _ _) | fail_if_no_progress refine Led.record ?_ rfl | split | dsimp only

theorem execBayPower_led {P : Touch} {s t : State} (a0 a1) (h : Led P s t) (hw : Touch.within { pins := true, trust := true, cpi := true, diary := true, tally := true, stg := true, ddp := true, ftl := true, ec := true, bay := true, ciph := true, jobs := true, hq := true, corr := true, out := true } P = true) :
    LedO P s (execBayPower a0 a1 t) := by
  refine LedO.lift h hw ?_
  unfold execBayPower
  with_reducible repeat' first | assumption | exact Led.refl _ _ | apply onPacket_led | apply refuse_led | apply changed_led | apply powerDown_led | apply powerUp_led | with_unfolding_all exact Touch.holds rfl | apply LedO.next | refine LedO.ite ?_ ?_ | refine Led.ite ?_ ?_ | intro _ | fail_if_no_progress refine Led.record ?_ rfl | split | dsimp only

theorem refuseSealed_led {P : Touch} {s t : State} (a0 a1 a2) (h : Led P s t) (hw : Touch.within { trust := true, cpi := true, tally := true, corr := true, out := true } P = true) :
    Led P s (refuseSealed a0 a1 a2 t) := by
  refine Led.lift h hw ?_
  unfold refuseSealed
  with_reducible repeat' first | assumption | exact Led.refl _ _ | apply refuse_led | with_unfolding_all exact Touch.holds rfl

theorem execMemberFail_led {P : Touch} {s t : State} (a0 a1 a2) (h : Led P s t) (hw : Touch.within { trust := true, cpi := true, diary := true, tally := true, ftl := true, ec := true, bay := true, pool := true, jobs := true, corr := true, out := true } P = true) :
    LedO P s (execMemberFail a0 a1 a2 t) := by
  refine LedO.lift h hw ?_
  unfold execMemberFail
  with_reducible repeat' first | assumption | exact Led.refl _ _ | apply onPacket_led | apply refuse_led | apply refuseSealed_led | apply pairWide_led | apply changed_led | apply memberTo_led | with_unfolding_all exact Touch.holds rfl | apply LedO.next | refine LedO.ite ?_ ?_ | refine Led.ite ?_ ?_ | intro _ | fail_if_no_progress refine Led.record ?_ rfl | split | dsimp only

theorem addMembers_led {P : Touch} {s t : State} (a0) (h : Led P s t) (hw : Touch.within { diary := true, tally := true, ec := true, bay := true } P = true) :
    Led P s (addMembers a0 t) := by
  refine Led.lift h hw ?_
  unfold addMembers
  with_reducible repeat' first | assumption | exact Led.refl _ _ | apply setBay_led | apply event_led | with_unfolding_all exact Touch.holds rfl | (refine Led.foldl ?_ ?_; rotate_left; intro _ _ _) | fail_if_no_progress refine Led.record ?_ rfl | split

theorem execPoolExtend_led {P : Touch} {s t : State} (a0 a1 a2) (h : Led P s t) (hw : Touch.within { trust := true, cpi := true, diary := true, tally := true, ec := true, bay := true, pool := true, corr := true, out := true } P = true) :
    LedO P s (execPoolExtend a0 a1 a2 t) := by
  refine LedO.lift h hw ?_
  unfold execPoolExtend
  with_reducible repeat' first | assumption | exact Led.refl _ _ | apply onPacket_led | apply refuse_led | apply badParam_led | apply pairWide_led | apply changed_led | apply configWrite_led | apply addMembers_led | with_unfolding_all exact Touch.holds rfl | apply LedO.next | refine LedO.ite ?_ ?_ | refine Led.ite ?_ ?_ | intro _ | fail_if_no_progress refine Led.record ?_ rfl | split

theorem execModuleUnform_led {P : Touch} {s t : State} (a0 a1) (h : Led P s t) (hw : Touch.within { trust := true, cpi := true, diary := true, tally := true, ec := true, bay := true, pool := true, corr := true, out := true } P = true) :
    LedO P s (execModuleUnform a0 a1 t) := by
  refine LedO.lift h hw ?_
  unfold execModuleUnform
  with_reducible repeat' first | assumption | exact Led.refl _ _ | apply onPacket_led | apply event_led | apply queueOp_led | apply setBay_led | apply badParam_led | apply changed_led | apply refuse_led | apply configWrite_led | with_unfolding_all exact Touch.holds rfl | apply LedO.next | refine LedO.ite ?_ ?_ | refine Led.ite ?_ ?_ | intro _ | (refine Led.foldl ?_ ?_; rotate_left; intro _ _ _) | fail_if_no_progress refine Led.record ?_ rfl | split

end Sys2Proof.Machine
end

