-- ==== Sys2Proof/Laws/FramesHost.lean ====
section
/-! SUPPORT. One lemma for each operation and each command, saying once what the operations over the Corridor, the cipher store, host writes, reservations, the fetch, the vault halves, the timetable, replies and host administration can do: the frame of each is the `Touch` it names. -/

set_option Elab.async false
set_option linter.all false

namespace Sys2Proof.Machine

theorem syncDone_led {P : Touch} {s t : State} (a0 a1) (h : Led P s t) (hw : Touch.within { repl := true } P = true) :
    Led P s (syncDone a0 a1 t) := by
  refine Led.lift h hw ?_
  unfold syncDone
  exact Led.record (.refl _ _) rfl

theorem setSession_led {P : Touch} {s t : State} (a0) (h : Led P s t) (hw : Touch.within { repl := true } P = true) :
    Led P s (setSession a0 t) := by
  refine Led.lift h hw ?_
  unfold setSession
  exact Led.record (.refl _ _) rfl

theorem startMessage_led {P : Touch} {s t : State} (a0 a1) (h : Led P s t) (hw : Touch.within { trust := true, tally := true, ftl := true, ciph := true, corr := true, out := true } P = true) : Led P s (startMessage a0 a1 t).1 := by
  refine Led.lift h hw ?_
  unfold startMessage
  split
  · rw [fst_mk]
    exact .refl _ _
  · rw [fst_mk]
    exact takeNonce_led _ _ _ _ (.refl _ _) rfl

theorem sendSegment_led {P : Touch} {s t : State} (a0 a1 a2) (h : Led P s t) (hw : Touch.within { trust := true, tally := true, ftl := true, ciph := true, repl := true, corr := true, out := true } P = true) :
    Led P s (sendSegment a0 a1 a2 t) := by
  refine Led.lift h hw ?_
  unfold sendSegment
  with_reducible repeat' first | assumption | exact Led.refl _ _ | apply startMessage_led | apply emit_led | apply setSession_led | with_unfolding_all exact Touch.holds rfl | refine Led.ite ?_ ?_ | intro _ | refine Led.ofFst ‹_ = (_, _)› ?_ | refine Led.ofSnd ‹_ = (_, _)› ?_ | refine Led.ofSome ‹_ = some _› ?_ | fail_if_no_progress refine Led.record ?_ rfl | split | dsimp only

theorem sendFull_led {P : Touch} {s t : State} (a0 a1) (h : Led P s t) (hw : Touch.within { trust := true, tally := true, ftl := true, ciph := true, repl := true, corr := true, out := true } P = true) :
    Led P s (sendFull a0 a1 t) := by
  suffices H : ∀ s t, Led { trust := true, tally := true, ftl := true, ciph := true, repl := true, corr := true, out := true } s t → Led { trust := true, tally := true, ftl := true, ciph := true, repl := true, corr := true, out := true } s (sendFull a0 a1 t) from Led.lift h hw (H _ _ (.refl _ _))
  clear h hw
  intro s t h
  induction a1 generalizing a0 t with
  | zero =>
    unfold sendFull
    repeat' first
      | with_reducible assumption | with_reducible exact Led.refl _ _ | with_reducible apply sendSegment_led | with_reducible apply ih
      | with_reducible apply LedO.next | with_reducible exact LedOpt.none | with_reducible apply LedOpt.some
      | with_reducible exact LedPair.none | with_reducible apply LedPair.some | with_reducible apply LedSum.inl | with_reducible exact LedSum.inr
      | (with_reducible refine Led.foldl ?_ ?_; rotate_left; intro _ _ _)
      | (with_reducible refine Led.foldlFst ?_ ?_; rotate_left; intro _ _ _ _)
      | (with_reducible refine Led.foldlSnd ?_ ?_; rotate_left; intro _ _ _ _)
      | with_reducible intro _
      | with_reducible refine Led.ofFst ‹_ = (_, _)› ?_ | with_reducible refine Led.ofSnd ‹_ = (_, _)› ?_
      | with_reducible refine Led.ofSome ‹_ = some _› ?_ | with_reducible refine Led.ofInl ‹_ = Sum.inl _› ?_
      | with_reducible refine Led.ofPair ‹_ = some (_, _)› ?_
      | with_reducible refine Led.getD ?_ ?_ | with_reducible refine LedOpt.bind ?_ ?_ | with_reducible refine LedOpt.map ?_ ?_ | with_reducible refine LedOpt.bindVal ?_
      | with_reducible refine Led.ite ?_ ?_ | with_reducible refine LedO.ite ?_ ?_ | with_reducible refine LedOpt.ite ?_ ?_
      | with_reducible refine LedPair.ite ?_ ?_ | with_reducible refine LedSum.ite ?_ ?_
      | fail_if_no_progress (with_reducible refine Led.record ?_ rfl)
      | exact Touch.holds rfl | exact Touch.within_trans rfl ‹_› | split
      | dsimp only
      | dsimp only [id]
  | succ _ ih =>
    unfold sendFull
    repeat' first
      | with_reducible assumption | with_reducible exact Led.refl _ _ | with_reducible apply sendSegment_led | with_reducible apply ih
      | with_reducible apply LedO.next | with_reducible exact LedOpt.none | with_reducible apply LedOpt.some
      | with_reducible exact LedPair.none | with_reducible apply LedPair.some | with_reducible apply LedSum.inl | with_reducible exact LedSum.inr
      | (with_reducible refine Led.foldl ?_ ?_; rotate_left; intro _ _ _)
      | (with_reducible refine Led.foldlFst ?_ ?_; rotate_left; intro _ _ _ _)
      | (with_reducible refine Led.foldlSnd ?_ ?_; rotate_left; intro _ _ _ _)
      | with_reducible intro _
      | with_reducible refine Led.ofFst ‹_ = (_, _)› ?_ | with_reducible refine Led.ofSnd ‹_ = (_, _)› ?_
      | with_reducible refine Led.ofSome ‹_ = some _› ?_ | with_reducible refine Led.ofInl ‹_ = Sum.inl _› ?_
      | with_reducible refine Led.ofPair ‹_ = some (_, _)› ?_
      | with_reducible refine Led.getD ?_ ?_ | with_reducible refine LedOpt.bind ?_ ?_ | with_reducible refine LedOpt.map ?_ ?_ | with_reducible refine LedOpt.bindVal ?_
      | with_reducible refine Led.ite ?_ ?_ | with_reducible refine LedO.ite ?_ ?_ | with_reducible refine LedOpt.ite ?_ ?_
      | with_reducible refine LedPair.ite ?_ ?_ | with_reducible refine LedSum.ite ?_ ?_
      | fail_if_no_progress (with_reducible refine Led.record ?_ rfl)
      | exact Touch.holds rfl | exact Touch.within_trans rfl ‹_› | split
      | dsimp only
      | dsimp only [id]

theorem sendRecord_led {P : Touch} {s t : State} (a0 a1 a2 a3) (h : Led P s t) (hw : Touch.within { trust := true, tally := true, ftl := true, ciph := true, repl := true, corr := true, out := true } P = true) :
    Led P s (sendRecord a0 a1 a2 a3 t) := by
  refine Led.lift h hw ?_
  unfold sendRecord
  with_reducible repeat' first | assumption | exact Led.refl _ _ | apply sendFull_led | apply setSession_led | with_unfolding_all exact Touch.holds rfl | split

theorem sendSyncWrite_led {P : Touch} {s t : State} (a0 a1 a2 a3) (h : Led P s t) (hw : Touch.within { trust := true, tally := true, ftl := true, ciph := true, repl := true, corr := true, out := true } P = true) :
    Led P s (sendSyncWrite a0 a1 a2 a3 t) := by
  refine Led.lift h hw ?_
  unfold sendSyncWrite
  with_reducible repeat' first | assumption | exact Led.refl _ _ | apply sendRecord_led | with_unfolding_all exact Touch.holds rfl | (refine Led.foldl ?_ ?_; rotate_left; intro _ _ _) | fail_if_no_progress refine Led.record ?_ rfl | split

theorem endWithdraw_led {P : Touch} {s t : State} (a0) (h : Led P s t) (hw : Touch.within { trust := true, cpi := true, diary := true, tally := true, ciph := true, corr := true, out := true } P = true) :
    Led P s (endWithdraw a0 t) := by
  refine Led.lift h hw ?_
  unfold endWithdraw
  with_reducible repeat' first | assumption | exact Led.refl _ _ | apply changed_led | with_unfolding_all exact Touch.holds rfl | fail_if_no_progress refine Led.record ?_ rfl | split | dsimp only

theorem lockerBell_led {P : Touch} {s t : State} (h : Led P s t) (hw : Touch.within { trust := true, cpi := true, diary := true, tally := true, ciph := true, corr := true, out := true } P = true) :
    Led P s (lockerBell t) := by
  refine Led.lift h hw ?_
  unfold lockerBell
  with_reducible repeat' first | assumption | exact Led.refl _ _ | apply endWithdraw_led | with_unfolding_all exact Touch.holds rfl | (refine Led.foldl ?_ ?_; rotate_left; intro _ _ _) | fail_if_no_progress refine Led.record ?_ rfl | split

theorem setCipherCtx_led {P : Touch} {s t : State} (a0) (h : Led P s t) (hw : Touch.within { ciph := true } P = true) :
    Led P s (setCipherCtx a0 t) := by
  refine Led.lift h hw ?_
  unfold setCipherCtx
  exact Led.record (.refl _ _) rfl

theorem spillCtx_led {P : Touch} {s t : State} (a0) (h : Led P s t) (hw : Touch.within { tally := true, ciph := true } P = true) :
    Led P s (spillCtx a0 t) := by
  refine Led.lift h hw ?_
  unfold spillCtx
  exact Led.record (.refl _ _) rfl

theorem spillOldest_led {P : Touch} {s t : State} (a0) (h : Led P s t) (hw : Touch.within { tally := true, ciph := true } P = true) :
    Led P s (spillOldest a0 t) := by
  refine Led.lift h hw ?_
  unfold spillOldest
  with_reducible repeat' first | assumption | exact Led.refl _ _ | apply spillCtx_led | with_unfolding_all exact Touch.holds rfl | split

theorem saveCtx_led {P : Touch} {s t : State} (a0) (h : Led P s t) (hw : Touch.within { tally := true, ciph := true } P = true) :
    Led P s (saveCtx a0 t) := by
  refine Led.lift h hw ?_
  unfold saveCtx
  with_reducible repeat' first | assumption | exact Led.refl _ _ | apply spillOldest_led | apply setCipherCtx_led | with_unfolding_all exact Touch.holds rfl | split

theorem saveAtBell_led {P : Touch} {s t : State} (h : Led P s t) (hw : Touch.within { tally := true, ciph := true } P = true) :
    Led P s (saveAtBell t) := by
  refine Led.lift h hw ?_
  unfold saveAtBell
  with_reducible repeat' first | assumption | exact Led.refl _ _ | apply saveCtx_led | with_unfolding_all exact Touch.holds rfl | (refine Led.foldl ?_ ?_; rotate_left; intro _ _ _) | fail_if_no_progress refine Led.record ?_ rfl | split

theorem cipherStatus_led {P : Touch} {s t : State} (a0 a1 a2) (h : Led P s t) (hw : Touch.within { ciph := true } P = true) :
    Led P s (cipherStatus a0 a1 a2 t) := by
  refine Led.lift h hw ?_
  unfold cipherStatus
  exact Led.record (.refl _ _) rfl

theorem dropCipherCtx_led {P : Touch} {s t : State} (a0) (h : Led P s t) (hw : Touch.within { ciph := true } P = true) :
    Led P s (dropCipherCtx a0 t) := by
  refine Led.lift h hw ?_
  unfold dropCipherCtx
  exact Led.record (.refl _ _) rfl

theorem resumeCtx_led {P : Touch} {s t : State} (a0 a1 a2) (h : Led P s t) (hw : Touch.within { diary := true, tally := true, ciph := true, out := true } P = true) :
    Led P s (resumeCtx a0 a1 a2 t) := by
  refine Led.lift h hw ?_
  unfold resumeCtx
  with_reducible repeat' first | assumption | exact Led.refl _ _ | apply emit_led | apply event_led | apply cipherStatus_led | apply dropCipherCtx_led | apply setCipherCtx_led | with_unfolding_all exact Touch.holds rfl | split

theorem resumeAtBell_led {P : Touch} {s t : State} (h : Led P s t) (hw : Touch.within { diary := true, tally := true, ciph := true, out := true } P = true) :
    Led P s (resumeAtBell t) := by
  refine Led.lift h hw ?_
  unfold resumeAtBell
  with_reducible repeat' first | assumption | exact Led.refl _ _ | apply resumeCtx_led | with_unfolding_all exact Touch.holds rfl | (refine Led.foldl ?_ ?_; rotate_left; intro _ _ _) | fail_if_no_progress refine Led.record ?_ rfl | split | dsimp only

theorem contextBell_led {P : Touch} {s t : State} (h : Led P s t) (hw : Touch.within { diary := true, tally := true, ciph := true, out := true } P = true) :
    Led P s (contextBell t) := by
  refine Led.lift h hw ?_
  unfold contextBell
  with_reducible repeat' first | assumption | exact Led.refl _ _ | apply resumeAtBell_led | apply saveAtBell_led | with_unfolding_all exact Touch.holds rfl

theorem laneTagFail_led {P : Touch} {s t : State} (a0 a1 a2) (h : Led P s t) (hw : Touch.within { diary := true, tally := true, ciph := true } P = true) :
    Led P s (laneTagFail a0 a1 a2 t) := by
  refine Led.lift h hw ?_
  unfold laneTagFail
  with_reducible repeat' first | assumption | exact Led.refl _ _ | apply event_led | apply tallyAdd_led | apply cipherStatus_led | with_unfolding_all exact Touch.holds rfl

theorem execHallPassEnd_led {P : Touch} {s t : State} (a0 a1 a2 a3 a4) (h : Led P s t) (hw : Touch.within { diary := true, tally := true, ciph := true, out := true } P = true) :
    LedO P s (execHallPassEnd a0 a1 a2 a3 a4 t) := by
  refine LedO.lift h hw ?_
  unfold execHallPassEnd
  with_reducible repeat' first | assumption | exact Led.refl _ _ | apply emit_led | apply cipherStatus_led | apply dropCipherCtx_led | apply tallyAdd_led | apply resumeCtx_led | apply setCipherCtx_led | apply saveCtx_led | with_unfolding_all exact Touch.holds rfl | apply LedO.next | fail_if_no_progress refine Led.record ?_ rfl | split | dsimp only

theorem endMessage_led {P : Touch} {s t : State} (a0 a1 a2) (h : Led P s t) (hw : Touch.within { ciph := true, repl := true, out := true } P = true) :
    Led P s (endMessage a0 a1 a2 t) := by
  refine Led.lift h hw ?_
  unfold endMessage
  repeat' first
    | with_reducible assumption | with_reducible exact Led.refl _ _ | with_reducible apply emit_led | with_reducible apply cipherStatus_led | with_reducible apply dropCipherCtx_led
    | with_reducible apply LedO.next | with_reducible exact LedOpt.none | with_reducible apply LedOpt.some
    | with_reducible exact LedPair.none | with_reducible apply LedPair.some | with_reducible apply LedSum.inl | with_reducible exact LedSum.inr
    | (with_reducible refine Led.foldl ?_ ?_; rotate_left; intro _ _ _)
    | (with_reducible refine Led.foldlFst ?_ ?_; rotate_left; intro _ _ _ _)
    | (with_reducible refine Led.foldlSnd ?_ ?_; rotate_left; intro _ _ _ _)
    | with_reducible intro _
    | with_reducible refine Led.ofFst ‹_ = (_, _)› ?_ | with_reducible refine Led.ofSnd ‹_ = (_, _)› ?_
    | with_reducible refine Led.ofSome ‹_ = some _› ?_ | with_reducible refine Led.ofInl ‹_ = Sum.inl _› ?_
    | with_reducible refine Led.ofPair ‹_ = some (_, _)› ?_
    | with_reducible refine Led.getD ?_ ?_ | with_reducible refine LedOpt.bind ?_ ?_ | with_reducible refine LedOpt.map ?_ ?_ | with_reducible refine LedOpt.bindVal ?_
    | with_reducible refine Led.ite ?_ ?_ | with_reducible refine LedO.ite ?_ ?_ | with_reducible refine LedOpt.ite ?_ ?_
    | with_reducible refine LedPair.ite ?_ ?_ | with_reducible refine LedSum.ite ?_ ?_
    | fail_if_no_progress (with_reducible refine Led.record ?_ rfl)
    | exact Touch.holds rfl | exact Touch.within_trans rfl ‹_› | split
    | dsimp only
    | dsimp only [id]

theorem streamTagFail_led {P : Touch} {s t : State} (a0) (h : Led P s t) (hw : Touch.within { diary := true, tally := true, ciph := true, out := true } P = true) :
    Led P s (streamTagFail a0 t) := by
  refine Led.lift h hw ?_
  unfold streamTagFail
  with_reducible repeat' first | assumption | exact Led.refl _ _ | apply emit_led | apply laneTagFail_led | apply dropCipherCtx_led | with_unfolding_all exact Touch.holds rfl

theorem takeSegment_led {P : Touch} {s t : State} (a0 a1 a2 a3) (h : Led P s t) (hw : Touch.within { diary := true, tally := true, ciph := true, repl := true, out := true } P = true) :
    Led P s (takeSegment a0 a1 a2 a3 t) := by
  refine Led.lift h hw ?_
  unfold takeSegment
  with_reducible repeat' first | assumption | exact Led.refl _ _ | apply endMessage_led | apply streamTagFail_led | apply emit_led | apply laneTagFail_led | apply dropCipherCtx_led | apply setCipherCtx_led | with_unfolding_all exact Touch.holds rfl | fail_if_no_progress refine Led.record ?_ rfl | split | dsimp only

theorem endInput_led {P : Touch} {s t : State} (a0) (h : Led P s t) (hw : Touch.within { ciph := true, repl := true, out := true, draws := true } P = true) :
    Led P s (endInput a0 t) := by
  refine Led.lift h hw ?_
  unfold endInput
  with_reducible repeat' first | assumption | exact Led.refl _ _ | apply endMessage_led | apply drawn_led | with_unfolding_all exact Touch.holds rfl | split

theorem execSegmentVerify_led {P : Touch} {s t : State} (a0 a1 a2 a3 a4) (h : Led P s t) (hw : Touch.within { diary := true, tally := true, ciph := true, repl := true, out := true, draws := true } P = true) :
    LedO P s (execSegmentVerify a0 a1 a2 a3 a4 t) := by
  refine LedO.lift h hw ?_
  unfold execSegmentVerify
  with_reducible repeat' first | assumption | exact Led.refl _ _ | apply endMessage_led | apply takeSegment_led | apply endInput_led | with_unfolding_all exact Touch.holds rfl | apply LedO.next | fail_if_no_progress refine Led.record ?_ rfl | split | dsimp only

theorem execStreamTagFail_led {P : Touch} {s t : State} (a0) (h : Led P s t) (hw : Touch.within { diary := true, tally := true, ciph := true, out := true } P = true) :
    LedO P s (execStreamTagFail a0 t) := by
  refine LedO.lift h hw ?_
  unfold execStreamTagFail
  with_reducible repeat' first | assumption | exact Led.refl _ _ | apply streamTagFail_led | with_unfolding_all exact Touch.holds rfl | apply LedO.next | split

theorem digestError_led {P : Touch} {s t : State} (a0 a1 a2 a3) (h : Led P s t) (hw : Touch.within { ciph := true, out := true } P = true) :
    Led P s (digestError a0 a1 a2 a3 t) := by
  refine Led.lift h hw ?_
  unfold digestError
  exact Led.record (.refl _ _) rfl

theorem setDigest_led {P : Touch} {s t : State} (a0) (h : Led P s t) (hw : Touch.within { ciph := true } P = true) :
    Led P s (setDigest a0 t) := by
  refine Led.lift h hw ?_
  unfold setDigest
  exact Led.record (.refl _ _) rfl

theorem execDigestOpen_led {P : Touch} {s t : State} (a0 a1 a2 a3 a4) (h : Led P s t) (hw : Touch.within { tally := true, ciph := true, out := true, draws := true } P = true) :
    LedO P s (execDigestOpen a0 a1 a2 a3 a4 t) := by
  refine LedO.lift h hw ?_
  unfold execDigestOpen
  with_reducible repeat' first | assumption | exact Led.refl _ _ | apply digestError_led | apply drawn_led | apply emit_led | apply tallyAdd_led | apply setDigest_led | with_unfolding_all exact Touch.holds rfl | apply LedO.next | split

theorem execDigestAbsorb_led {P : Touch} {s t : State} (a0 a1) (h : Led P s t) (hw : Touch.within { tally := true, ciph := true, out := true } P = true) :
    LedO P s (execDigestAbsorb a0 a1 t) := by
  refine LedO.lift h hw ?_
  unfold execDigestAbsorb
  with_reducible repeat' first | assumption | exact Led.refl _ _ | apply emit_led | apply tallyAdd_led | apply setDigest_led | apply digestError_led | with_unfolding_all exact Touch.holds rfl | apply LedO.next | split

theorem execDigestFinalise_led {P : Touch} {s t : State} (a0) (h : Led P s t) (hw : Touch.within { ciph := true, out := true } P = true) :
    LedO P s (execDigestFinalise a0 t) := by
  refine LedO.lift h hw ?_
  unfold execDigestFinalise
  with_reducible repeat' first | assumption | exact Led.refl _ _ | apply emit_led | apply setDigest_led | apply digestError_led | with_unfolding_all exact Touch.holds rfl | apply LedO.next | split

theorem execDigestRead_led {P : Touch} {s t : State} (a0 a1) (h : Led P s t) (hw : Touch.within { ciph := true, out := true } P = true) :
    LedO P s (execDigestRead a0 a1 t) := by
  refine LedO.lift h hw ?_
  unfold execDigestRead
  with_reducible repeat' first | assumption | exact Led.refl _ _ | apply emit_led | apply setDigest_led | apply digestError_led | with_unfolding_all exact Touch.holds rfl | apply LedO.next | split

theorem execDigestClose_led {P : Touch} {s t : State} (a0) (h : Led P s t) (hw : Touch.within { ciph := true, out := true } P = true) :
    LedO P s (execDigestClose a0 t) := by
  refine LedO.lift h hw ?_
  unfold execDigestClose
  with_reducible repeat' first | assumption | exact Led.refl _ _ | apply emit_led | with_unfolding_all exact Touch.holds rfl | apply LedO.next | fail_if_no_progress refine Led.record ?_ rfl

theorem extendMr_led {P : Touch} {s t : State} (a0 a1) (h : Led P s t) (hw : Touch.within { tally := true, ciph := true } P = true) :
    Led P s (extendMr a0 a1 t) := by
  refine Led.lift h hw ?_
  unfold extendMr
  exact Led.record (.refl _ _) rfl

theorem execMrExtend_led {P : Touch} {s t : State} (a0 a1 a2) (h : Led P s t) (hw : Touch.within { tally := true, ciph := true, out := true } P = true) :
    LedO P s (execMrExtend a0 a1 a2 t) := by
  refine LedO.lift h hw ?_
  unfold execMrExtend
  with_reducible repeat' first | assumption | exact Led.refl _ _ | apply emit_led | apply extendMr_led | with_unfolding_all exact Touch.holds rfl | apply LedO.next | split

theorem countGrant_led {P : Touch} {s t : State} (a0) (h : Led P s t) (hw : Touch.within { trust := true, diary := true, tally := true, ftl := true, ciph := true, corr := true, out := true } P = true) :
    Led P s (countGrant a0 t) := by
  refine Led.lift h hw ?_
  unfold countGrant
  with_reducible repeat' first | assumption | exact Led.refl _ _ | apply journal_led | apply setLocker_led | apply event_led | with_unfolding_all exact Touch.holds rfl | refine Led.ite ?_ ?_ | intro _

theorem execUsageGrantDraw_led {P : Touch} {s t : State} (a0) (h : Led P s t) (hw : Touch.within { trust := true, diary := true, tally := true, ftl := true, ciph := true, corr := true, out := true } P = true) :
    LedO P s (execUsageGrantDraw a0 t) := by
  refine LedO.lift h hw ?_
  unfold execUsageGrantDraw
  with_reducible repeat' first | assumption | exact Led.refl _ _ | apply whenDue_led | apply countGrant_led | with_unfolding_all exact Touch.holds rfl | apply LedO.next

theorem refuseLocker_led {P : Touch} {s t : State} (a0 a1) (h : Led P s t) (hw : Touch.within { trust := true, cpi := true, tally := true, corr := true, out := true } P = true) :
    Led P s (refuseLocker a0 a1 t) := by
  refine Led.lift h hw ?_
  unfold refuseLocker
  with_reducible repeat' first | assumption | exact Led.refl _ _ | apply refuse_led | with_unfolding_all exact Touch.holds rfl

theorem changeLocker_led {P : Touch} {s t : State} (a0 a1 a2) (h : Led P s t) (hw : Touch.within { ciph := true } P = true) :
    Led P s (changeLocker a0 a1 a2 t) := by
  refine Led.lift h hw ?_
  unfold changeLocker
  exact Led.record (.refl _ _) rfl

theorem execLockerRotate_led {P : Touch} {s t : State} (a0 a1 a2) (h : Led P s t) (hw : Touch.within { trust := true, cpi := true, diary := true, tally := true, ciph := true, corr := true, out := true } P = true) :
    LedO P s (execLockerRotate a0 a1 a2 t) := by
  refine LedO.lift h hw ?_
  unfold execLockerRotate
  with_reducible repeat' first | assumption | exact Led.refl _ _ | apply onPacket_led | apply refuseLocker_led | apply pairWide_led | apply changed_led | apply changeLocker_led | with_unfolding_all exact Touch.holds rfl | apply LedO.next | refine LedO.ite ?_ ?_ | refine Led.ite ?_ ?_ | intro _

theorem execLockerWithdraw_led {P : Touch} {s t : State} (a0 a1 a2) (h : Led P s t) (hw : Touch.within { trust := true, cpi := true, tally := true, ciph := true, corr := true, out := true } P = true) :
    LedO P s (execLockerWithdraw a0 a1 a2 t) := by
  refine LedO.lift h hw ?_
  unfold execLockerWithdraw
  with_reducible repeat' first | assumption | exact Led.refl _ _ | apply onPacket_led | apply refuseLocker_led | apply pairWide_led | apply changeLocker_led | with_unfolding_all exact Touch.holds rfl | apply LedO.next | refine LedO.ite ?_ ?_ | refine Led.ite ?_ ?_ | intro _ | fail_if_no_progress refine Led.record ?_ rfl

theorem execLockerRestore_led {P : Touch} {s t : State} (a0 a1 a2) (h : Led P s t) (hw : Touch.within { trust := true, cpi := true, diary := true, tally := true, ciph := true, corr := true, out := true } P = true) :
    LedO P s (execLockerRestore a0 a1 a2 t) := by
  refine LedO.lift h hw ?_
  unfold execLockerRestore
  with_reducible repeat' first | assumption | exact Led.refl _ _ | apply onPacket_led | apply refuseLocker_led | apply pairWide_led | apply changed_led | apply changeLocker_led | with_unfolding_all exact Touch.holds rfl | apply LedO.next | refine LedO.ite ?_ ?_ | refine Led.ite ?_ ?_ | intro _

theorem execLockerQuery_led {P : Touch} {s t : State} (a0 a1) (h : Led P s t) (hw : Touch.within { trust := true, cpi := true, tally := true, corr := true, out := true } P = true) :
    LedO P s (execLockerQuery a0 a1 t) := by
  refine LedO.lift h hw ?_
  unfold execLockerQuery
  with_reducible repeat' first | assumption | exact Led.refl _ _ | apply onPacket_led | apply answered_led | with_unfolding_all exact Touch.holds rfl | apply LedO.next | refine LedO.ite ?_ ?_ | refine Led.ite ?_ ?_ | intro _

theorem unadmit_led {P : Touch} {s t : State} (a0) (h : Led P s t) (hw : Touch.within { stg := true } P = true) :
    Led P s (unadmit a0 t) := by
  refine Led.lift h hw ?_
  unfold unadmit
  exact Led.record (.refl _ _) rfl

theorem withdrawWrite_led {P : Touch} {s t : State} (a0) (h : Led P s t) (hw : Touch.within { trust := true, tally := true, stg := true, repl := true, corr := true, out := true } P = true) :
    Led P s (withdrawWrite a0 t) := by
  refine Led.lift h hw ?_
  unfold withdrawWrite
  with_reducible repeat' first | assumption | exact Led.refl _ _ | apply sendPeer_led | apply unadmit_led | apply syncDone_led | apply dropWrite_led | with_unfolding_all exact Touch.holds rfl | split

theorem orphan_led {P : Touch} {s t : State} (a0) (h : Led P s t) (hw : Touch.within { hq := true } P = true) :
    Led P s (orphan a0 t).2 := by
  refine Led.lift h hw ?_
  unfold orphan
  exact Led.record (.refl _ _) rfl

theorem writeStaged_led {P : Touch} {s t : State} (a0) (h : Led P s t) (hw : Touch.within { trust := true, tally := true, stg := true, ftl := true, bay := true, jobs := true, hq := true, corr := true, out := true, draws := true } P = true) :
    Led P s (writeStaged a0 t) := by
  refine Led.lift h hw ?_
  unfold writeStaged
  with_reducible repeat' first | assumption | exact Led.refl _ _ | apply ackThrough_led | apply setCtx_led | apply ackWrite_led | apply wakeReads_led | with_unfolding_all exact Touch.holds rfl | split

theorem stageWrite_led {P : Touch} {s t : State} (a0) (h : Led P s t) (hw : Touch.within { trust := true, tally := true, stg := true, ftl := true, bay := true, jobs := true, hq := true, repl := true, corr := true, out := true, draws := true } P = true) :
    Led P s (stageWrite a0 t) := by
  refine Led.lift h hw ?_
  unfold stageWrite
  with_reducible repeat' first | assumption | exact Led.refl _ _ | apply writeStaged_led | apply syncDone_led | apply holdMark_led | with_unfolding_all exact Touch.holds rfl | (refine Led.foldl ?_ ?_; rotate_left; intro _ _ _) | fail_if_no_progress refine Led.record ?_ rfl | split

theorem partialCommit_led {P : Touch} {s t : State} (a0) (h : Led P s t) (hw : Touch.within { trust := true, tally := true, stg := true, ftl := true, bay := true, jobs := true, hq := true, repl := true, corr := true, out := true, draws := true } P = true) :
    Led P s (partialCommit a0 t) := by
  refine Led.lift h hw ?_
  unfold partialCommit
  with_reducible repeat' first | assumption | exact Led.refl _ _ | apply dropCtx_led | apply withdrawWrite_led | apply orphan_led | apply unadmit_led | apply setCtx_led | apply send_led | apply stageWrite_led | apply sendPeer_led | apply holdMark_led | with_unfolding_all exact Touch.holds rfl | (refine Led.foldl ?_ ?_; rotate_left; intro _ _ _) | fail_if_no_progress refine Led.record ?_ rfl | split | dsimp only

theorem discardCtx_led {P : Touch} {s t : State} (a0) (h : Led P s t) (hw : Touch.within { trust := true, tally := true, stg := true, ftl := true, bay := true, jobs := true, hq := true, repl := true, corr := true, out := true, draws := true } P = true) :
    Led P s (discardCtx a0 t) := by
  refine Led.lift h hw ?_
  unfold discardCtx
  with_reducible repeat' first | assumption | exact Led.refl _ _ | apply orphan_led | apply wakeReads_led | apply partialCommit_led | apply dropCtx_led | apply withdrawWrite_led | apply unpin_led | with_unfolding_all exact Touch.holds rfl | split

theorem unask_led {P : Touch} {s t : State} (a0) (h : Led P s t) (hw : Touch.within { stg := true, hq := true } P = true) :
    Led P s (unask a0 t) := by
  refine Led.lift h hw ?_
  unfold unask
  with_reducible repeat' first | assumption | exact Led.refl _ _ | apply setQueue_led | with_unfolding_all exact Touch.holds rfl | fail_if_no_progress refine Led.record ?_ rfl | split

theorem endQueue_led {P : Touch} {s t : State} (a0) (h : Led P s t) (hw : Touch.within { trust := true, tally := true, stg := true, ftl := true, bay := true, jobs := true, hq := true, repl := true, corr := true, out := true, draws := true } P = true) :
    Led P s (endQueue a0 t) := by
  refine Led.lift h hw ?_
  unfold endQueue
  with_reducible repeat' first | assumption | exact Led.refl _ _ | apply unask_led | apply openWindows_led | apply discardCtx_led | with_unfolding_all exact Touch.holds rfl | (refine Led.foldl ?_ ?_; rotate_left; intro _ _ _) | fail_if_no_progress refine Led.record ?_ rfl | split

theorem endConnection_led {P : Touch} {s t : State} (a0 a1 a2) (h : Led P s t) (hw : Touch.within { trust := true, tally := true, stg := true, ftl := true, bay := true, jobs := true, hq := true, repl := true, corr := true, out := true, draws := true } P = true) :
    Led P s (endConnection a0 a1 a2 t) := by
  refine Led.lift h hw ?_
  unfold endConnection
  with_reducible repeat' first | assumption | exact Led.refl _ _ | apply emit_led | apply endQueue_led | with_unfolding_all exact Touch.holds rfl | fail_if_no_progress refine Led.record ?_ rfl | split | dsimp only

theorem syncWrite_led {P : Touch} {s t : State} (a0) (h : Led P s t) (hw : Touch.within { trust := true, tally := true, ftl := true, ciph := true, repl := true, corr := true, out := true } P = true) :
    Led P s (syncWrite a0 t) := by
  refine Led.lift h hw ?_
  unfold syncWrite
  with_reducible repeat' first | assumption | exact Led.refl _ _ | apply sendSyncWrite_led | with_unfolding_all exact Touch.holds rfl | split

theorem commitWrite_led {P : Touch} {s t : State} (a0) (h : Led P s t) (hw : Touch.within { trust := true, tally := true, stg := true, ftl := true, bay := true, jobs := true, hq := true, repl := true, corr := true, out := true, draws := true } P = true) :
    Led P s (commitWrite a0 t) := by
  refine Led.lift h hw ?_
  unfold commitWrite
  with_reducible repeat' first | assumption | exact Led.refl _ _ | apply writeStaged_led | apply setCtx_led | apply send_led | apply stageWrite_led | apply sendPeer_led | apply holdMark_led | with_unfolding_all exact Touch.holds rfl | (refine Led.foldl ?_ ?_; rotate_left; intro _ _ _) | fail_if_no_progress refine Led.record ?_ rfl | split | dsimp only

theorem writeProgress_led {P : Touch} {s t : State} (a0) (h : Led P s t) (hw : Touch.within { trust := true, tally := true, stg := true, ftl := true, bay := true, ciph := true, jobs := true, hq := true, repl := true, corr := true, out := true, draws := true } P = true) :
    Led P s (writeProgress a0 t) := by
  refine Led.lift h hw ?_
  unfold writeProgress
  with_reducible repeat' first | assumption | exact Led.refl _ _ | apply setCtx_led | apply syncWrite_led | apply commitWrite_led | with_unfolding_all exact Touch.holds rfl | split

theorem mirrorAcked_led {P : Touch} {s t : State} (a0) (h : Led P s t) (hw : Touch.within { trust := true, tally := true, stg := true, ftl := true, bay := true, ciph := true, jobs := true, hq := true, repl := true, corr := true, out := true, draws := true } P = true) :
    Led P s (mirrorAcked a0 t) := by
  refine Led.lift h hw ?_
  unfold mirrorAcked
  with_reducible repeat' first | assumption | exact Led.refl _ _ | apply settleNumber_led | apply writeProgress_led | with_unfolding_all exact Touch.holds rfl | fail_if_no_progress refine Led.record ?_ rfl | split | dsimp only

theorem dropRest_led {P : Touch} {s t : State} (a0) (h : Led P s t) (hw : Touch.within { trust := true, tally := true, corr := true, out := true } P = true) :
    Led P s (dropRest a0 t) := by
  refine Led.lift h hw ?_
  unfold dropRest
  with_reducible repeat' first | assumption | exact Led.refl _ _ | apply sendPeer_led | with_unfolding_all exact Touch.holds rfl | split

theorem commitAcked_led {P : Touch} {s t : State} (a0) (h : Led P s t) (hw : Touch.within { trust := true, tally := true, stg := true, ftl := true, bay := true, jobs := true, hq := true, repl := true, corr := true, out := true, draws := true } P = true) :
    Led P s (commitAcked a0 t) := by
  refine Led.lift h hw ?_
  unfold commitAcked
  with_reducible repeat' first | assumption | exact Led.refl _ _ | apply settleNumber_led | apply setCtx_led | apply wakeReads_led | apply holdMark_led | apply dropRest_led | apply stageWrite_led | with_unfolding_all exact Touch.holds rfl | fail_if_no_progress refine Led.record ?_ rfl | split | dsimp only

theorem answersGone_led {P : Touch} {s t : State} (h : Led P s t) (hw : Touch.within { trust := true, tally := true, stg := true, ftl := true, bay := true, ciph := true, jobs := true, hq := true, repl := true, corr := true, out := true, draws := true } P = true) :
    Led P s (answersGone t) := by
  refine Led.lift h hw ?_
  unfold answersGone
  with_reducible repeat' first | assumption | exact Led.refl _ _ | apply mirrorAcked_led | apply commitAcked_led | apply settleNumber_led | with_unfolding_all exact Touch.holds rfl | (refine Led.foldl ?_ ?_; rotate_left; intro _ _ _) | fail_if_no_progress refine Led.record ?_ rfl | split

theorem placePiece_led {P : Touch} {s t : State} (a0 a1 a2 a3) (h : Led P s t) (hw : Touch.within { trust := true, tally := true, stg := true, corr := true, out := true } P = true) :
    Led P s (placePiece a0 a1 a2 a3 t).2 := by
  refine Led.lift h hw ?_
  unfold placePiece
  with_reducible repeat' first | assumption | exact Led.refl _ _ | apply addVersion_led | apply tallyAdd_led | apply send_led | apply sendPeer_led | with_unfolding_all exact Touch.holds rfl | (refine Led.foldl ?_ ?_; rotate_left; intro _ _ _) | fail_if_no_progress refine Led.record ?_ rfl | split | dsimp only

theorem placeData_led {P : Touch} {s t : State} (a0 a1 a2 a3) (h : Led P s t) (hw : Touch.within { trust := true, tally := true, stg := true, corr := true, out := true } P = true) :
    Led P s (placeData a0 a1 a2 a3 t).2 := by
  refine Led.lift h hw ?_
  unfold placeData
  with_reducible repeat' first | assumption | exact Led.refl _ _ | apply placePiece_led | with_unfolding_all exact Touch.holds rfl | refine Led.ite ?_ ?_ | intro _ | (refine Led.foldl ?_ ?_; rotate_left; intro _ _ _) | (refine Led.foldlFst ?_ ?_; rotate_left; intro _ _ _ _) | (refine Led.foldlSnd ?_ ?_; rotate_left; intro _ _ _ _) | fail_if_no_progress refine Led.record ?_ rfl | split | dsimp only

theorem execWrite_led {P : Touch} {s t : State} (a0 a1 a2) (h : Led P s t) (hw : Touch.within { trust := true, tally := true, stg := true, ftl := true, bay := true, ciph := true, jobs := true, hq := true, repl := true, corr := true, out := true, draws := true } P = true) :
    LedO P s (execWrite a0 a1 a2 t) := by
  refine LedO.lift h hw ?_
  unfold execWrite
  with_reducible repeat' first | assumption | exact Led.refl _ _ | apply whenDue_led | apply startDataIn_led | apply placeData_led | apply writeProgress_led | with_unfolding_all exact Touch.holds rfl | apply LedO.next | split

theorem failWrite_led {P : Touch} {s t : State} (a0 a1) (h : Led P s t) (hw : Touch.within { trust := true, tally := true, stg := true, ftl := true, bay := true, jobs := true, hq := true, repl := true, corr := true, out := true, draws := true } P = true) :
    Led P s (failWrite a0 a1 t) := by
  refine Led.lift h hw ?_
  unfold failWrite
  with_reducible repeat' first | assumption | exact Led.refl _ _ | apply wakeReads_led | apply failCtx_led | apply withdrawWrite_led | with_unfolding_all exact Touch.holds rfl | split

theorem failCompare_led {P : Touch} {s t : State} (a0) (h : Led P s t) (hw : Touch.within { trust := true, tally := true, stg := true, hq := true, corr := true, out := true } P = true) :
    Led P s (failCompare a0 t) := by
  refine Led.lift h hw ?_
  unfold failCompare
  with_reducible repeat' first | assumption | exact Led.refl _ _ | apply failCtx_led | apply failHalf_led | with_unfolding_all exact Touch.holds rfl | split

theorem compareData_led {P : Touch} {s t : State} (a0 a1 a2 a3) (h : Led P s t) (hw : Touch.within { trust := true, tally := true, stg := true, hq := true, corr := true, out := true } P = true) :
    Led P s (compareData a0 a1 a2 a3 t) := by
  refine Led.lift h hw ?_
  unfold compareData
  with_reducible repeat' first | assumption | exact Led.refl _ _ | apply askData_led | apply emit_led | apply setCtx_led | apply finishRead_led | with_unfolding_all exact Touch.holds rfl | refine Led.ite ?_ ?_ | intro _

theorem execWriteDataArrival_led {P : Touch} {s t : State} (a0 a1 a2 a3 a4 a5 a6) (h : Led P s t) (hw : Touch.within { trust := true, tally := true, stg := true, ftl := true, bay := true, ciph := true, jobs := true, hq := true, repl := true, corr := true, out := true, draws := true } P = true) :
    LedO P s (execWriteDataArrival a0 a1 a2 a3 a4 a5 a6 t) := by
  refine LedO.lift h hw ?_
  unfold execWriteDataArrival
  with_reducible repeat' first | assumption | exact Led.refl _ _ | apply endConnection_led | apply compareData_led | apply failCompare_led | apply failWrite_led | apply placeData_led | apply writeProgress_led | apply askData_led | with_unfolding_all exact Touch.holds rfl | apply LedO.next | refine LedO.ite ?_ ?_ | refine Led.ite ?_ ?_ | intro _ | refine Led.ofFst ‹_ = (_, _)› ?_ | refine Led.ofSnd ‹_ = (_, _)› ?_ | refine Led.ofSome ‹_ = some _› ?_ | fail_if_no_progress refine Led.record ?_ rfl | split | dsimp only

theorem execDataInTimeout_led {P : Touch} {s t : State} (a0 a1 a2) (h : Led P s t) (hw : Touch.within { trust := true, diary := true, tally := true, stg := true, ftl := true, bay := true, jobs := true, hq := true, repl := true, corr := true, out := true, draws := true } P = true) :
    LedO P s (execDataInTimeout a0 a1 a2 t) := by
  refine LedO.lift h hw ?_
  unfold execDataInTimeout
  with_reducible repeat' first | assumption | exact Led.refl _ _ | apply whenDue_led | apply event_led | apply failCompare_led | apply failWrite_led | with_unfolding_all exact Touch.holds rfl | apply LedO.next | split

theorem placeZeros_led {P : Touch} {s t : State} (a0 a1) (h : Led P s t) (hw : Touch.within { trust := true, tally := true, stg := true, corr := true, out := true } P = true) :
    Led P s (placeZeros a0 a1 t).2 := by
  refine Led.lift h hw ?_
  unfold placeZeros
  with_reducible repeat' first | assumption | exact Led.refl _ _ | apply placePiece_led | with_unfolding_all exact Touch.holds rfl | refine Led.ite ?_ ?_ | intro _ | (refine Led.foldl ?_ ?_; rotate_left; intro _ _ _) | (refine Led.foldlFst ?_ ?_; rotate_left; intro _ _ _ _) | (refine Led.foldlSnd ?_ ?_; rotate_left; intro _ _ _ _) | fail_if_no_progress refine Led.record ?_ rfl | split | dsimp only

theorem execWriteZeroes_led {P : Touch} {s t : State} (a0 a1 a2) (h : Led P s t) (hw : Touch.within { trust := true, tally := true, stg := true, ftl := true, bay := true, ciph := true, jobs := true, hq := true, repl := true, corr := true, out := true, draws := true } P = true) :
    LedO P s (execWriteZeroes a0 a1 a2 t) := by
  refine LedO.lift h hw ?_
  unfold execWriteZeroes
  with_reducible repeat' first | assumption | exact Led.refl _ _ | apply whenDue_led | apply placeZeros_led | apply writeProgress_led | with_unfolding_all exact Touch.holds rfl | apply LedO.next | split

theorem execDatasetManagement_led {P : Touch} {s t : State} (a0 a1 a2) (h : Led P s t) (hw : Touch.within { trust := true, tally := true, stg := true, ftl := true, bay := true, ciph := true, jobs := true, hq := true, repl := true, corr := true, out := true, draws := true } P = true) :
    LedO P s (execDatasetManagement a0 a1 a2 t) := by
  refine LedO.lift h hw ?_
  unfold execDatasetManagement
  with_reducible repeat' first | assumption | exact Led.refl _ _ | apply whenDue_led | apply placeZeros_led | apply writeProgress_led | apply complete_led | apply unadmit_led | with_unfolding_all exact Touch.holds rfl | apply LedO.next | split

theorem execFlush_led {P : Touch} {s t : State} (a0 a1 a2 a3) (h : Led P s t) (hw : Touch.within { tally := true, stg := true, hq := true, out := true } P = true) :
    LedO P s (execFlush a0 a1 a2 a3 t) := by
  refine LedO.lift h hw ?_
  unfold execFlush
  with_reducible repeat' first | assumption | exact Led.refl _ _ | apply whenDue_led | apply complete_led | with_unfolding_all exact Touch.holds rfl | apply LedO.next | split

theorem execMirrorAck_led {P : Touch} {s t : State} (a0 a1) (h : Led P s t) (hw : Touch.within { trust := true, tally := true, stg := true, ftl := true, bay := true, ciph := true, jobs := true, hq := true, repl := true, corr := true, out := true, draws := true } P = true) :
    LedO P s (execMirrorAck a0 a1 t) := by
  refine LedO.lift h hw ?_
  unfold execMirrorAck
  with_reducible repeat' first | assumption | exact Led.refl _ _ | apply onWord_led | apply mirrorAcked_led | with_unfolding_all exact Touch.holds rfl | apply LedO.next | refine LedO.ite ?_ ?_ | refine Led.ite ?_ ?_ | intro _

theorem execCommitAck_led {P : Touch} {s t : State} (a0) (h : Led P s t) (hw : Touch.within { trust := true, tally := true, stg := true, ftl := true, bay := true, jobs := true, hq := true, repl := true, corr := true, out := true, draws := true } P = true) :
    LedO P s (execCommitAck a0 t) := by
  refine LedO.lift h hw ?_
  unfold execCommitAck
  with_reducible repeat' first | assumption | exact Led.refl _ _ | apply onWord_led | apply commitAcked_led | with_unfolding_all exact Touch.holds rfl | apply LedO.next | refine LedO.ite ?_ ?_ | refine Led.ite ?_ ?_ | intro _

theorem peerWriteDone_led {P : Touch} {s t : State} (a0 a1) (h : Led P s t) (hw : Touch.within { trust := true, tally := true, stg := true, ftl := true, bay := true, jobs := true, hq := true, corr := true, out := true, draws := true } P = true) :
    Led P s (peerWriteDone a0 a1 t) := by
  refine Led.lift h hw ?_
  unfold peerWriteDone
  with_reducible repeat' first | assumption | exact Led.refl _ _ | apply wakeReads_led | apply dropCtx_led | with_unfolding_all exact Touch.holds rfl | split

theorem execCommit_led {P : Touch} {s t : State} (a0 a1) (h : Led P s t) (hw : Touch.within { trust := true, tally := true, stg := true, ftl := true, bay := true, ciph := true, jobs := true, hq := true, repl := true, corr := true, out := true, draws := true } P = true) :
    LedO P s (execCommit a0 a1 t) := by
  refine LedO.lift h hw ?_
  unfold execCommit
  with_reducible repeat' first | assumption | exact Led.refl _ _ | apply onMessage_led | apply sendSyncWrite_led | apply reply_led | apply holdMark_led | apply wakeReads_led | apply peerWriteDone_led | with_unfolding_all exact Touch.holds rfl | apply LedO.next | refine LedO.ite ?_ ?_ | refine Led.ite ?_ ?_ | intro _

theorem execWithdraw_led {P : Touch} {s t : State} (a0 a1 a2) (h : Led P s t) (hw : Touch.within { trust := true, tally := true, stg := true, ftl := true, bay := true, jobs := true, hq := true, corr := true, out := true, draws := true } P = true) :
    LedO P s (execWithdraw a0 a1 a2 t) := by
  refine LedO.lift h hw ?_
  unfold execWithdraw
  with_reducible repeat' first | assumption | exact Led.refl _ _ | apply onMessage_led | apply reply_led | apply peerWriteDone_led | apply dropWrite_led | with_unfolding_all exact Touch.holds rfl | apply LedO.next | refine LedO.ite ?_ ?_ | refine Led.ite ?_ ?_ | intro _

theorem syncAcked_led {P : Touch} {s t : State} (a0 a1 a2) (h : Led P s t) (hw : Touch.within { trust := true, tally := true, stg := true, ftl := true, bay := true, jobs := true, hq := true, repl := true, corr := true, out := true, draws := true } P = true) :
    Led P s (syncAcked a0 a1 a2 t) := by
  refine Led.lift h hw ?_
  unfold syncAcked
  with_reducible repeat' first | assumption | exact Led.refl _ _ | apply wakeReads_led | apply reply_led | apply holdMark_led | apply peerWriteDone_led | apply dropRest_led | apply stageWrite_led | with_unfolding_all exact Touch.holds rfl | (refine Led.foldl ?_ ?_; rotate_left; intro _ _ _) | fail_if_no_progress refine Led.record ?_ rfl | split | dsimp only

theorem setReservation_led {P : Touch} {s t : State} (a0) (h : Led P s t) (hw : Touch.within { hq := true } P = true) :
    Led P s (setReservation a0 t) := by
  refine Led.lift h hw ?_
  unfold setReservation
  exact Led.record (.refl _ _) rfl

theorem tellReservation_led {P : Touch} {s t : State} (a0 a1 a2) (h : Led P s t) (hw : Touch.within { hq := true, out := true } P = true) :
    Led P s (tellReservation a0 a1 a2 t) := by
  refine Led.lift h hw ?_
  unfold tellReservation
  with_reducible repeat' first | assumption | exact Led.refl _ _ | apply notify_led | apply setController_led | with_unfolding_all exact Touch.holds rfl | (refine Led.foldl ?_ ?_; rotate_left; intro _ _ _) | fail_if_no_progress refine Led.record ?_ rfl | split

theorem registerKey_led {P : Touch} {s t : State} (a0 a1) (h : Led P s t) (hw : Touch.within { hq := true, out := true } P = true) :
    Led P s (registerKey a0 a1 t).2 := by
  refine Led.lift h hw ?_
  unfold registerKey
  with_reducible repeat' first | assumption | exact Led.refl _ _ | apply setReservation_led | apply tellReservation_led | with_unfolding_all exact Touch.holds rfl | fail_if_no_progress refine Led.record ?_ rfl | split | dsimp only

theorem endCapsules_led {P : Touch} {s t : State} (a0 a1 a2) (h : Led P s t) (hw : Touch.within { tally := true, stg := true, hq := true, out := true } P = true) :
    Led P s (endCapsules a0 a1 a2 t) := by
  refine Led.lift h hw ?_
  unfold endCapsules
  with_reducible repeat' first | assumption | exact Led.refl _ _ | apply unask_led | apply openWindows_led | apply sendCompletion_led | apply setQueue_led | with_unfolding_all exact Touch.holds rfl | (refine Led.foldl ?_ ?_; rotate_left; intro _ _ _) | fail_if_no_progress refine Led.record ?_ rfl | split | dsimp only

theorem abortQueued_led {P : Touch} {s t : State} (a0 a1) (h : Led P s t) (hw : Touch.within { tally := true, stg := true, hq := true, out := true } P = true) :
    Led P s (abortQueued a0 a1 t) := by
  refine Led.lift h hw ?_
  unfold abortQueued
  with_reducible repeat' first | assumption | exact Led.refl _ _ | apply endCapsules_led | with_unfolding_all exact Touch.holds rfl | (refine Led.foldl ?_ ?_; rotate_left; intro _ _ _) | fail_if_no_progress refine Led.record ?_ rfl | split

theorem acquireReservation_led {P : Touch} {s t : State} (a0 a1) (h : Led P s t) (hw : Touch.within { tally := true, stg := true, hq := true, out := true } P = true) :
    Led P s (acquireReservation a0 a1 t).2 := by
  refine Led.lift h hw ?_
  unfold acquireReservation
  repeat' first
    | with_reducible assumption | with_reducible exact Led.refl _ _ | with_reducible apply setReservation_led | with_reducible apply tellReservation_led | with_reducible apply abortQueued_led
    | with_reducible apply LedO.next | with_reducible exact LedOpt.none | with_reducible apply LedOpt.some
    | with_reducible exact LedPair.none | with_reducible apply LedPair.some | with_reducible apply LedSum.inl | with_reducible exact LedSum.inr
    | (with_reducible refine Led.foldl ?_ ?_; rotate_left; intro _ _ _)
    | (with_reducible refine Led.foldlFst ?_ ?_; rotate_left; intro _ _ _ _)
    | (with_reducible refine Led.foldlSnd ?_ ?_; rotate_left; intro _ _ _ _)
    | with_reducible intro _
    | with_reducible refine Led.ofFst ‹_ = (_, _)› ?_ | with_reducible refine Led.ofSnd ‹_ = (_, _)› ?_
    | with_reducible refine Led.ofSome ‹_ = some _› ?_ | with_reducible refine Led.ofInl ‹_ = Sum.inl _› ?_
    | with_reducible refine Led.ofPair ‹_ = some (_, _)› ?_
    | with_reducible refine Led.getD ?_ ?_ | with_reducible refine LedOpt.bind ?_ ?_ | with_reducible refine LedOpt.map ?_ ?_ | with_reducible refine LedOpt.bindVal ?_
    | with_reducible refine Led.ite ?_ ?_ | with_reducible refine LedO.ite ?_ ?_ | with_reducible refine LedOpt.ite ?_ ?_
    | with_reducible refine LedPair.ite ?_ ?_ | with_reducible refine LedSum.ite ?_ ?_
    | fail_if_no_progress (with_reducible refine Led.record ?_ rfl)
    | exact Touch.holds rfl | exact Touch.within_trans rfl ‹_› | split
    | dsimp only
    | dsimp only [id]

theorem releaseReservation_led {P : Touch} {s t : State} (a0 a1) (h : Led P s t) (hw : Touch.within { hq := true, out := true } P = true) :
    Led P s (releaseReservation a0 a1 t).2 := by
  refine Led.lift h hw ?_
  unfold releaseReservation
  with_reducible repeat' first | assumption | exact Led.refl _ _ | apply setReservation_led | apply tellReservation_led | with_unfolding_all exact Touch.holds rfl | fail_if_no_progress refine Led.record ?_ rfl | split | dsimp only

theorem reserve_led {P : Touch} {s t : State} (a0 a1) (h : Led P s t) (hw : Touch.within { tally := true, stg := true, hq := true, out := true } P = true) :
    Led P s (reserve a0 a1 t).2 := by
  refine Led.lift h hw ?_
  unfold reserve
  with_reducible repeat' first | assumption | exact Led.refl _ _ | apply registerKey_led | apply acquireReservation_led | apply releaseReservation_led | with_unfolding_all exact Touch.holds rfl | split

theorem onReservation_led {P : Touch} {s t : State} (a0 a1 a2 a3 f4) (h : Led P s t) (hw : Touch.within {} P = true) (hf4 : ∀ x0 x1 u, Led P s u → Led P s (f4 x0 x1 u)) :
    LedO P s (onReservation a0 a1 a2 a3 f4 t) := by
  unfold onReservation
  with_reducible repeat' first | assumption | exact Led.refl _ _ | apply hf4 | apply whenDue_led | with_unfolding_all exact Touch.holds rfl | with_unfolding_all exact Touch.within_trans rfl ‹_› | apply LedO.next | split

theorem execReservationRegister_led {P : Touch} {s t : State} (a0 a1 a2) (h : Led P s t) (hw : Touch.within { tally := true, stg := true, hq := true, out := true } P = true) :
    LedO P s (execReservationRegister a0 a1 a2 t) := by
  refine LedO.lift h hw ?_
  unfold execReservationRegister
  with_reducible repeat' first | assumption | exact Led.refl _ _ | apply onReservation_led | apply complete_led | with_unfolding_all exact Touch.holds rfl | apply LedO.next | refine LedO.ite ?_ ?_ | refine Led.ite ?_ ?_ | intro _

theorem execReservationAcquire_led {P : Touch} {s t : State} (a0 a1 a2) (h : Led P s t) (hw : Touch.within { tally := true, stg := true, hq := true, out := true } P = true) :
    LedO P s (execReservationAcquire a0 a1 a2 t) := by
  refine LedO.lift h hw ?_
  unfold execReservationAcquire
  with_reducible repeat' first | assumption | exact Led.refl _ _ | apply onReservation_led | apply complete_led | with_unfolding_all exact Touch.holds rfl | apply LedO.next | refine LedO.ite ?_ ?_ | refine Led.ite ?_ ?_ | intro _

theorem execReservationRelease_led {P : Touch} {s t : State} (a0 a1 a2) (h : Led P s t) (hw : Touch.within { tally := true, stg := true, hq := true, out := true } P = true) :
    LedO P s (execReservationRelease a0 a1 a2 t) := by
  refine LedO.lift h hw ?_
  unfold execReservationRelease
  with_reducible repeat' first | assumption | exact Led.refl _ _ | apply onReservation_led | apply complete_led | with_unfolding_all exact Touch.holds rfl | apply LedO.next | refine LedO.ite ?_ ?_ | refine Led.ite ?_ ?_ | intro _

theorem execReservationReport_led {P : Touch} {s t : State} (a0 a1 a2) (h : Led P s t) (hw : Touch.within { tally := true, stg := true, hq := true, out := true } P = true) :
    LedO P s (execReservationReport a0 a1 a2 t) := by
  refine LedO.lift h hw ?_
  unfold execReservationReport
  with_reducible repeat' first | assumption | exact Led.refl _ _ | apply onReservation_led | apply complete_led | with_unfolding_all exact Touch.holds rfl | apply LedO.next | refine LedO.ite ?_ ?_ | refine Led.ite ?_ ?_ | intro _

theorem payRead_led {P : Touch} {s t : State} (a0 a1) (h : Led P s t) (hw : Touch.within { tt := true, ftl := true } P = true) :
    Led P s (payRead a0 a1 t) := by
  refine Led.lift h hw ?_
  unfold payRead
  with_reducible repeat' first | assumption | exact Led.refl _ _ | apply touchPages_led | apply payClass_led | apply payAll_led | with_unfolding_all exact Touch.holds rfl | (refine Led.foldl ?_ ?_; rotate_left; intro _ _ _) | fail_if_no_progress refine Led.record ?_ rfl | split

theorem useFsn_led {P : Touch} {s t : State} (a0) (h : Led P s t) (hw : Touch.within { hq := true } P = true) :
    Led P s (useFsn a0 t) := by
  refine Led.lift h hw ?_
  unfold useFsn
  exact Led.record (.refl _ _) rfl

theorem addCtxs_led {P : Touch} {s t : State} (a0) (h : Led P s t) (hw : Touch.within { stg := true, hq := true } P = true) :
    Led P s (addCtxs a0 t) := by
  refine Led.lift h hw ?_
  unfold addCtxs
  exact Led.record (.refl _ _) rfl

theorem grantFsn_led {P : Touch} {s t : State} (a0 a1 a2 a3 a4) (h : Led P s t) (hw : Touch.within { trust := true, tally := true, tt := true, stg := true, ftl := true, hq := true, corr := true, out := true } P = true) :
    LedOpt P s (grantFsn a0 a1 a2 a3 a4 t) := by
  refine LedOpt.lift h hw ?_
  unfold grantFsn
  with_reducible repeat' first | assumption | exact Led.refl _ _ | apply reply_led | apply useFsn_led | apply reserve_led | apply payRead_led | apply addCtxs_led | with_unfolding_all exact Touch.holds rfl | exact LedOpt.none | apply LedOpt.some | fail_if_no_progress refine Led.record ?_ rfl | split | dsimp only

theorem retryGrants_led {P : Touch} {s t : State} (h : Led P s t) (hw : Touch.within { trust := true, tally := true, tt := true, stg := true, ftl := true, hq := true, corr := true, out := true } P = true) :
    Led P s (retryGrants t) := by
  refine Led.lift h hw ?_
  unfold retryGrants
  repeat' first
    | with_reducible assumption | with_reducible exact Led.refl _ _ | with_reducible apply grantFsn_led
    | with_reducible apply LedO.next | with_reducible exact LedOpt.none | with_reducible apply LedOpt.some
    | with_reducible exact LedPair.none | with_reducible apply LedPair.some | with_reducible apply LedSum.inl | with_reducible exact LedSum.inr
    | (with_reducible refine Led.foldl ?_ ?_; rotate_left; intro _ _ _)
    | (with_reducible refine Led.foldlFst ?_ ?_; rotate_left; intro _ _ _ _)
    | (with_reducible refine Led.foldlSnd ?_ ?_; rotate_left; intro _ _ _ _)
    | with_reducible intro _
    | with_reducible refine Led.ofFst ‹_ = (_, _)› ?_ | with_reducible refine Led.ofSnd ‹_ = (_, _)› ?_
    | with_reducible refine Led.ofSome ‹_ = some _› ?_ | with_reducible refine Led.ofInl ‹_ = Sum.inl _› ?_
    | with_reducible refine Led.ofPair ‹_ = some (_, _)› ?_
    | with_reducible refine Led.getD ?_ ?_ | with_reducible refine LedOpt.bind ?_ ?_ | with_reducible refine LedOpt.map ?_ ?_ | with_reducible refine LedOpt.bindVal ?_
    | with_reducible refine Led.ite ?_ ?_ | with_reducible refine LedO.ite ?_ ?_ | with_reducible refine LedOpt.ite ?_ ?_
    | with_reducible refine LedPair.ite ?_ ?_ | with_reducible refine LedSum.ite ?_ ?_
    | fail_if_no_progress (with_reducible refine Led.record ?_ rfl)
    | exact Touch.holds rfl | exact Touch.within_trans rfl ‹_› | split
    | dsimp only
    | dsimp only [id]

theorem acceptCapsule_led {P : Touch} {s t : State} (a0 a1 a2) (h : Led P s t) (hw : Touch.within { hq := true, out := true } P = true) :
    Led P s (acceptCapsule a0 a1 a2 t) := by
  refine Led.lift h hw ?_
  unfold acceptCapsule
  with_reducible repeat' first | assumption | exact Led.refl _ _ | apply setQueue_led | apply emit_led | with_unfolding_all exact Touch.holds rfl | fail_if_no_progress refine Led.record ?_ rfl | split | dsimp only

theorem execCapsuleReceive_led {P : Touch} {s t : State} (a0 a1 a2 a3 a4) (h : Led P s t) (hw : Touch.within { trust := true, tally := true, stg := true, ftl := true, bay := true, jobs := true, hq := true, repl := true, corr := true, out := true, draws := true } P = true) :
    LedO P s (execCapsuleReceive a0 a1 a2 a3 a4 t) := by
  refine LedO.lift h hw ?_
  unfold execCapsuleReceive
  with_reducible repeat' first | assumption | exact Led.refl _ _ | apply reserve_led | apply sendCompletion_led | apply emit_led | apply endConnection_led | apply acceptCapsule_led | with_unfolding_all exact Touch.holds rfl | apply LedO.next | split

theorem payWrite_led {P : Touch} {s t : State} (a0) (h : Led P s t) (hw : Touch.within { tt := true, stg := true } P = true) :
    Led P s (payWrite a0 t) := by
  refine Led.lift h hw ?_
  unfold payWrite
  with_reducible repeat' first | assumption | exact Led.refl _ _ | apply payClass_led | with_unfolding_all exact Touch.holds rfl | fail_if_no_progress refine Led.record ?_ rfl | split

theorem leaveQueue_led {P : Touch} {s t : State} (a0 a1) (h : Led P s t) (hw : Touch.within { tally := true, hq := true, out := true } P = true) :
    Led P s (leaveQueue a0 a1 t) := by
  refine Led.lift h hw ?_
  unfold leaveQueue
  with_reducible repeat' first | assumption | exact Led.refl _ _ | apply openWindows_led | apply setQueue_led | apply tallyAdd_led | with_unfolding_all exact Touch.holds rfl | fail_if_no_progress refine Led.record ?_ rfl | split | dsimp only

theorem takeCapsule_led {P : Touch} {s t : State} (a0 a1 a2 a3) (h : Led P s t) (hw : Touch.within { tally := true, stg := true, hq := true, out := true } P = true) :
    Led P s (takeCapsule a0 a1 a2 a3 t) := by
  refine Led.lift h hw ?_
  unfold takeCapsule
  with_reducible repeat' first | assumption | exact Led.refl _ _ | apply leaveQueue_led | apply reserve_led | apply addCtxs_led | apply emit_led | with_unfolding_all exact Touch.holds rfl | split

theorem takeFailed_led {P : Touch} {s t : State} (a0 a1) (h : Led P s t) (hw : Touch.within { tally := true, hq := true, out := true } P = true) :
    Led P s (takeFailed a0 a1 t) := by
  refine Led.lift h hw ?_
  unfold takeFailed
  with_reducible repeat' first | assumption | exact Led.refl _ _ | apply sendCompletion_led | apply leaveQueue_led | with_unfolding_all exact Touch.holds rfl | split

theorem tryFetch_led {P : Touch} {s t : State} (a0) (h : Led P s t) (hw : Touch.within { trust := true, tally := true, tt := true, stg := true, ftl := true, hq := true, corr := true, out := true } P = true) :
    LedPair P s (tryFetch a0 t) := by
  refine LedPair.lift h hw ?_
  unfold tryFetch
  with_reducible repeat' first | assumption | exact Led.refl _ _ | apply takeFailed_led | apply takeCapsule_led | apply payRead_led | apply payWrite_led | apply useFsn_led | apply send_led | apply setQueue_led | with_unfolding_all exact Touch.holds rfl | exact LedPair.none | apply LedPair.some | refine LedPair.ite ?_ ?_ | refine Led.ite ?_ ?_ | intro _ | fail_if_no_progress refine Led.record ?_ rfl | split | dsimp only

theorem tryQueue_led {P : Touch} {s t : State} (a0) (h : Led P s t) (hw : Touch.within { trust := true, tally := true, tt := true, stg := true, ftl := true, hq := true, corr := true, out := true } P = true) : LedPair P s (tryQueue a0 t) := by
  refine LedPair.lift h hw ?_
  intro p hp
  obtain ⟨q, _, hq⟩ := Option.bind_eq_some_iff.mp hp
  exact tryFetch_led q (.refl _ _) rfl p hq

theorem dispatch_led {P : Touch} {s t : State} (h : Led P s t) (hw : Touch.within { trust := true, tally := true, tt := true, stg := true, ftl := true, hq := true, corr := true, out := true } P = true) : Led P s (dispatch t) := by
  refine Led.lift h hw ?_
  unfold dispatch
  dsimp only
  split
  · exact .refl _ _
  · rename_i k i u fetched tail heq
    have hm := List.mem_filterMap.mp (heq ▸ List.mem_cons_self : (k, i, u, fetched) ∈ _)
    have hu : Led { trust := true, tally := true, tt := true, stg := true, ftl := true, hq := true, corr := true, out := true } t u := by
      obtain ⟨j, _, hj⟩ := hm
      split at hj
      · cases hj
      · obtain ⟨p, hp, he⟩ := Option.map_eq_some_iff.mp hj
        cases he
        exact tryQueue_led _ (.refl _ _) rfl _ hp
    exact Led.record hu rfl

theorem execCapsuleFetch_led {P : Touch} {s t : State} (h : Led P s t) (hw : Touch.within { trust := true, tally := true, tt := true, stg := true, ftl := true, hq := true, corr := true, out := true } P = true) :
    LedO P s (execCapsuleFetch t) := by
  refine LedO.lift h hw ?_
  unfold execCapsuleFetch
  with_reducible repeat' first | assumption | exact Led.refl _ _ | apply whenDue_led | apply dispatch_led | with_unfolding_all exact Touch.holds rfl | apply LedO.next

theorem execMetadataPagePrefetch_led {P : Touch} {s t : State} (a0 a1) (h : Led P s t) (hw : Touch.within { ftl := true, bay := true } P = true) :
    LedO P s (execMetadataPagePrefetch a0 a1 t) := by
  refine LedO.lift h hw ?_
  unfold execMetadataPagePrefetch
  with_reducible repeat' first | assumption | exact Led.refl _ _ | apply whenDue_led | apply fetchMeta_led | with_unfolding_all exact Touch.holds rfl | apply LedO.next | (refine Led.foldl ?_ ?_; rotate_left; intro _ _ _) | fail_if_no_progress refine Led.record ?_ rfl | split | dsimp only

theorem execFsnRequest_led {P : Touch} {s t : State} (a0 a1 a2 a3 a4) (h : Led P s t) (hw : Touch.within { trust := true, tally := true, tt := true, stg := true, ftl := true, hq := true, corr := true, out := true } P = true) :
    LedO P s (execFsnRequest a0 a1 a2 a3 a4 t) := by
  refine LedO.lift h hw ?_
  unfold execFsnRequest
  with_reducible repeat' first | assumption | exact Led.refl _ _ | apply onMessage_led | apply grantFsn_led | with_unfolding_all exact Touch.holds rfl | apply LedO.next | refine LedO.ite ?_ ?_ | refine Led.ite ?_ ?_ | intro _ | refine Led.ofFst ‹_ = (_, _)› ?_ | refine Led.ofSnd ‹_ = (_, _)› ?_ | refine Led.ofSome ‹_ = some _› ?_ | fail_if_no_progress refine Led.record ?_ rfl | split | dsimp only

theorem execFsnGrant_led {P : Touch} {s t : State} (a0 a1 a2) (h : Led P s t) (hw : Touch.within { trust := true, tally := true, stg := true, hq := true, corr := true, out := true } P = true) :
    LedO P s (execFsnGrant a0 a1 a2 t) := by
  refine LedO.lift h hw ?_
  unfold execFsnGrant
  with_reducible repeat' first | assumption | exact Led.refl _ _ | apply onWord_led | apply settleNumber_led | apply sendPeer_led | apply takeFailed_led | apply unask_led | apply takeCapsule_led | with_unfolding_all exact Touch.holds rfl | apply LedO.next | refine LedO.ite ?_ ?_ | refine Led.ite ?_ ?_ | intro _ | fail_if_no_progress refine Led.record ?_ rfl | split | dsimp only

theorem freeOldHalves_led {P : Touch} {s t : State} (h : Led P s t) (hw : Touch.within { trust := true, tally := true, stg := true, ftl := true, corr := true, out := true } P = true) :
    Led P s (freeOldHalves t) := by
  refine Led.lift h hw ?_
  unfold freeOldHalves
  with_reducible repeat' first | assumption | exact Led.refl _ _ | apply freeBlock_led | with_unfolding_all exact Touch.holds rfl | (refine Led.foldl ?_ ?_; rotate_left; intro _ _ _) | fail_if_no_progress refine Led.record ?_ rfl | split

theorem openVaultGroup_led {P : Touch} {s t : State} (a0 a1) (h : Led P s t) (hw : Touch.within { trust := true, tally := true, ftl := true, ec := true, corr := true, out := true } P = true) :
    LedOpt P s (openVaultGroup a0 a1 t) := by
  refine LedOpt.lift h hw ?_
  unfold openVaultGroup
  with_reducible repeat' first | assumption | exact Led.refl _ _ | apply openBlock_led | apply journal_led | with_unfolding_all exact Touch.holds rfl | exact LedOpt.none | apply LedOpt.some | (refine Led.foldl ?_ ?_; rotate_left; intro _ _ _) | fail_if_no_progress refine Led.record ?_ rfl | split | dsimp only

theorem openVaultGroups_led {P : Touch} {s t : State} (a0 a1 a2) (h : Led P s t) (hw : Touch.within { trust := true, tally := true, ftl := true, ec := true, corr := true, out := true } P = true) :
    LedOpt P s (openVaultGroups a0 a1 a2 t) := by
  suffices H : ∀ s t, Led { trust := true, tally := true, ftl := true, ec := true, corr := true, out := true } s t → LedOpt { trust := true, tally := true, ftl := true, ec := true, corr := true, out := true } s (openVaultGroups a0 a1 a2 t) from LedOpt.lift h hw (H _ _ (.refl _ _))
  clear h hw
  intro s t h
  induction a2 generalizing a0 a1 t with
  | zero =>
    unfold openVaultGroups
    repeat' first
      | with_reducible assumption | with_reducible exact Led.refl _ _ | with_reducible apply openVaultGroup_led | with_reducible apply ih
      | with_reducible apply LedO.next | with_reducible exact LedOpt.none | with_reducible apply LedOpt.some
      | with_reducible exact LedPair.none | with_reducible apply LedPair.some | with_reducible apply LedSum.inl | with_reducible exact LedSum.inr
      | (with_reducible refine Led.foldl ?_ ?_; rotate_left; intro _ _ _)
      | (with_reducible refine Led.foldlFst ?_ ?_; rotate_left; intro _ _ _ _)
      | (with_reducible refine Led.foldlSnd ?_ ?_; rotate_left; intro _ _ _ _)
      | with_reducible intro _
      | with_reducible refine Led.ofFst ‹_ = (_, _)› ?_ | with_reducible refine Led.ofSnd ‹_ = (_, _)› ?_
      | with_reducible refine Led.ofSome ‹_ = some _› ?_ | with_reducible refine Led.ofInl ‹_ = Sum.inl _› ?_
      | with_reducible refine Led.ofPair ‹_ = some (_, _)› ?_
      | with_reducible refine Led.getD ?_ ?_ | with_reducible refine LedOpt.bind ?_ ?_ | with_reducible refine LedOpt.map ?_ ?_ | with_reducible refine LedOpt.bindVal ?_
      | with_reducible refine Led.ite ?_ ?_ | with_reducible refine LedO.ite ?_ ?_ | with_reducible refine LedOpt.ite ?_ ?_
      | with_reducible refine LedPair.ite ?_ ?_ | with_reducible refine LedSum.ite ?_ ?_
      | fail_if_no_progress (with_reducible refine Led.record ?_ rfl)
      | exact Touch.holds rfl | exact Touch.within_trans rfl ‹_› | split
      | dsimp only
      | dsimp only [id]
  | succ _ ih =>
    unfold openVaultGroups
    repeat' first
      | with_reducible assumption | with_reducible exact Led.refl _ _ | with_reducible apply openVaultGroup_led | with_reducible apply ih
      | with_reducible apply LedO.next | with_reducible exact LedOpt.none | with_reducible apply LedOpt.some
      | with_reducible exact LedPair.none | with_reducible apply LedPair.some | with_reducible apply LedSum.inl | with_reducible exact LedSum.inr
      | (with_reducible refine Led.foldl ?_ ?_; rotate_left; intro _ _ _)
      | (with_reducible refine Led.foldlFst ?_ ?_; rotate_left; intro _ _ _ _)
      | (with_reducible refine Led.foldlSnd ?_ ?_; rotate_left; intro _ _ _ _)
      | with_reducible intro _
      | with_reducible refine Led.ofFst ‹_ = (_, _)› ?_ | with_reducible refine Led.ofSnd ‹_ = (_, _)› ?_
      | with_reducible refine Led.ofSome ‹_ = some _› ?_ | with_reducible refine Led.ofInl ‹_ = Sum.inl _› ?_
      | with_reducible refine Led.ofPair ‹_ = some (_, _)› ?_
      | with_reducible refine Led.getD ?_ ?_ | with_reducible refine LedOpt.bind ?_ ?_ | with_reducible refine LedOpt.map ?_ ?_ | with_reducible refine LedOpt.bindVal ?_
      | with_reducible refine Led.ite ?_ ?_ | with_reducible refine LedO.ite ?_ ?_ | with_reducible refine LedOpt.ite ?_ ?_
      | with_reducible refine LedPair.ite ?_ ?_ | with_reducible refine LedSum.ite ?_ ?_
      | fail_if_no_progress (with_reducible refine Led.record ?_ rfl)
      | exact Touch.holds rfl | exact Touch.within_trans rfl ‹_› | split
      | dsimp only
      | dsimp only [id]

theorem halvesMoved_led {P : Touch} {s t : State} (a0 a1 a2 a3) (h : Led P s t) (hw : Touch.within { trust := true, tally := true, stg := true, ftl := true, bay := true, pool := true, corr := true, out := true } P = true) :
    Led P s (halvesMoved a0 a1 a2 a3 t) := by
  refine Led.lift h hw ?_
  unfold halvesMoved
  with_reducible repeat' first | assumption | exact Led.refl _ _ | apply configWrite_led | apply freeOldHalves_led | with_unfolding_all exact Touch.holds rfl | fail_if_no_progress refine Led.record ?_ rfl

theorem openHalves_led {P : Touch} {s t : State} (h : Led P s t) (hw : Touch.within { trust := true, tally := true, stg := true, ftl := true, ec := true, bay := true, pool := true, corr := true, out := true } P = true) :
    Led P s (openHalves t) := by
  refine Led.lift h hw ?_
  unfold openHalves
  repeat' first
    | with_reducible assumption | with_reducible exact Led.refl _ _ | with_reducible apply halvesMoved_led | with_reducible apply openVaultGroups_led
    | with_reducible apply LedO.next | with_reducible exact LedOpt.none | with_reducible apply LedOpt.some
    | with_reducible exact LedPair.none | with_reducible apply LedPair.some | with_reducible apply LedSum.inl | with_reducible exact LedSum.inr
    | (with_reducible refine Led.foldl ?_ ?_; rotate_left; intro _ _ _)
    | (with_reducible refine Led.foldlFst ?_ ?_; rotate_left; intro _ _ _ _)
    | (with_reducible refine Led.foldlSnd ?_ ?_; rotate_left; intro _ _ _ _)
    | with_reducible intro _
    | with_reducible refine Led.ofFst ‹_ = (_, _)› ?_ | with_reducible refine Led.ofSnd ‹_ = (_, _)› ?_
    | with_reducible refine Led.ofSome ‹_ = some _› ?_ | with_reducible refine Led.ofInl ‹_ = Sum.inl _› ?_
    | with_reducible refine Led.ofPair ‹_ = some (_, _)› ?_
    | with_reducible refine Led.getD ?_ ?_ | with_reducible refine LedOpt.bind ?_ ?_ | with_reducible refine LedOpt.map ?_ ?_ | with_reducible refine LedOpt.bindVal ?_
    | with_reducible refine Led.ite ?_ ?_ | with_reducible refine LedO.ite ?_ ?_ | with_reducible refine LedOpt.ite ?_ ?_
    | with_reducible refine LedPair.ite ?_ ?_ | with_reducible refine LedSum.ite ?_ ?_
    | fail_if_no_progress (with_reducible refine Led.record ?_ rfl)
    | exact Touch.holds rfl | exact Touch.within_trans rfl ‹_› | split
    | dsimp only
    | dsimp only [id]

theorem setHalf_led {P : Touch} {s t : State} (a0 a1 a2) (h : Led P s t) (hw : Touch.within { pool := true } P = true) :
    Led P s (setHalf a0 a1 a2 t) := by
  refine Led.lift h hw ?_
  unfold setHalf
  exact Led.record (.refl _ _) rfl

theorem eraseHalves_led {P : Touch} {s t : State} (h : Led P s t) (hw : Touch.within { bay := true, pool := true } P = true) :
    Led P s (eraseHalves t) := by
  refine Led.lift h hw ?_
  unfold eraseHalves
  with_reducible repeat' first | assumption | exact Led.refl _ _ | apply setHalf_led | apply queueOp_led | with_unfolding_all exact Touch.holds rfl | (refine Led.foldl ?_ ?_; rotate_left; intro _ _ _) | fail_if_no_progress refine Led.record ?_ rfl | split

theorem halvesFor_led {P : Touch} {s t : State} (a0) (h : Led P s t) (hw : Touch.within { trust := true, tally := true, stg := true, ftl := true, ec := true, bay := true, pool := true, corr := true, out := true } P = true) :
    Led P s (halvesFor a0 t) := by
  refine Led.lift h hw ?_
  unfold halvesFor
  with_reducible repeat' first | assumption | exact Led.refl _ _ | apply openHalves_led | with_unfolding_all exact Touch.holds rfl | fail_if_no_progress refine Led.record ?_ rfl | split

theorem retireImages_led {P : Touch} {s t : State} (a0 a1) (h : Led P s t) (hw : Touch.within { trust := true, tally := true, stg := true, bay := true, pool := true, corr := true, out := true } P = true) :
    Led P s (retireImages a0 a1 t) := by
  refine Led.lift h hw ?_
  unfold retireImages
  with_reducible repeat' first | assumption | exact Led.refl _ _ | apply configWrite_led | with_unfolding_all exact Touch.holds rfl | fail_if_no_progress refine Led.record ?_ rfl

theorem freeCopies_led {P : Touch} {s t : State} (a0) (h : Led P s t) (hw : Touch.within { trust := true, tally := true, ftl := true, corr := true, out := true } P = true) :
    Led P s (freeCopies a0 t) := by
  refine Led.lift h hw ?_
  unfold freeCopies
  with_reducible repeat' first | assumption | exact Led.refl _ _ | apply freeBlock_led | with_unfolding_all exact Touch.holds rfl | (refine Led.foldl ?_ ?_; rotate_left; intro _ _ _) | fail_if_no_progress refine Led.record ?_ rfl | split

theorem changeover_led {P : Touch} {s t : State} (h : Led P s t) (hw : Touch.within { trust := true, diary := true, tally := true, tt := true, stg := true, ftl := true, ec := true, bay := true, pool := true, corr := true, out := true } P = true) :
    Led P s (changeover t) := by
  refine Led.lift h hw ?_
  unfold changeover
  with_reducible repeat' first | assumption | exact Led.refl _ _ | apply putSheet_led | apply carryFences_led | apply event_led | apply halvesFor_led | apply freeCopies_led | apply configWrite_led | with_unfolding_all exact Touch.holds rfl | fail_if_no_progress refine Led.record ?_ rfl | split

theorem sendImage_led {P : Touch} {s t : State} (a0) (h : Led P s t) (hw : Touch.within { trust := true, tally := true, corr := true, out := true } P = true) :
    Led P s (sendImage a0 t) := by
  refine Led.lift h hw ?_
  unfold sendImage
  with_reducible repeat' first | assumption | exact Led.refl _ _ | apply send_led | with_unfolding_all exact Touch.holds rfl | (refine Led.foldl ?_ ?_; rotate_left; intro _ _ _) | fail_if_no_progress refine Led.record ?_ rfl | split

theorem noteLoad_led {P : Touch} {s t : State} (a0 a1) (h : Led P s t) (hw : Touch.within { tt := true } P = true) :
    Led P s (noteLoad a0 a1 t) := by
  refine Led.lift h hw ?_
  unfold noteLoad
  exact Led.record (.refl _ _) rfl

theorem armBell_led {P : Touch} {s t : State} (h : Led P s t) (hw : Touch.within { trust := true, cpi := true, diary := true, tally := true, tt := true, corr := true, out := true } P = true) :
    Led P s (armBell t) := by
  refine Led.lift h hw ?_
  unfold armBell
  with_reducible repeat' first | assumption | exact Led.refl _ _ | apply noteLoad_led | apply changed_led | with_unfolding_all exact Touch.holds rfl | fail_if_no_progress refine Led.record ?_ rfl | split | dsimp only

theorem refuseImage_led {P : Touch} {s t : State} (a0 a1) (h : Led P s t) (hw : Touch.within { diary := true, tally := true, tt := true } P = true) :
    Led P s (refuseImage a0 a1 t) := by
  refine Led.lift h hw ?_
  unfold refuseImage
  with_reducible repeat' first | assumption | exact Led.refl _ _ | apply noteLoad_led | apply tallyAdd_led | apply event_led | with_unfolding_all exact Touch.holds rfl | fail_if_no_progress refine Led.record ?_ rfl

theorem execTtStage_led {P : Touch} {s t : State} (a0 a1) (h : Led P s t) (hw : Touch.within { trust := true, cpi := true, diary := true, tally := true, tt := true, corr := true, out := true } P = true) :
    LedO P s (execTtStage a0 a1 t) := by
  refine LedO.lift h hw ?_
  unfold execTtStage
  with_reducible repeat' first | assumption | exact Led.refl _ _ | apply onPacket_led | apply noteLoad_led | apply refuse_led | apply takePiece_led | apply answered_led | apply refuseImage_led | apply badParam_led | apply sendImage_led | apply changed_led | with_unfolding_all exact Touch.holds rfl | apply LedO.next | refine LedO.ite ?_ ?_ | refine Led.ite ?_ ?_ | intro _ | refine Led.ofFst ‹_ = (_, _)› ?_ | refine Led.ofSnd ‹_ = (_, _)› ?_ | refine Led.ofSome ‹_ = some _› ?_ | fail_if_no_progress refine Led.record ?_ rfl | split | dsimp only

theorem joinerVerdict_led {P : Touch} {s t : State} (a0 a1) (h : Led P s t) (hw : Touch.within { corr := true } P = true) :
    Led P s (joinerVerdict a0 a1 t) := by
  refine Led.lift h hw ?_
  unfold joinerVerdict
  with_reducible repeat' first | assumption | exact Led.refl _ _ | with_unfolding_all exact Touch.holds rfl | fail_if_no_progress refine Led.record ?_ rfl | split

theorem execTtVerdict_led {P : Touch} {s t : State} (a0 a1 a2) (h : Led P s t) (hw : Touch.within { trust := true, cpi := true, diary := true, tally := true, tt := true, corr := true, out := true } P = true) :
    LedO P s (execTtVerdict a0 a1 a2 t) := by
  refine LedO.lift h hw ?_
  unfold execTtVerdict
  with_reducible repeat' first | assumption | exact Led.refl _ _ | apply onWord_led | apply noteLoad_led | apply changed_led | apply refuse_led | apply refuseImage_led | apply joinerVerdict_led | with_unfolding_all exact Touch.holds rfl | apply LedO.next | refine LedO.ite ?_ ?_ | refine Led.ite ?_ ?_ | intro _ | fail_if_no_progress refine Led.record ?_ rfl | split | dsimp only

theorem execTtImage_led {P : Touch} {s t : State} (a0 a1 a2 a3) (h : Led P s t) (hw : Touch.within { trust := true, diary := true, tally := true, tt := true, corr := true, out := true } P = true) :
    LedO P s (execTtImage a0 a1 a2 a3 t) := by
  refine LedO.lift h hw ?_
  unfold execTtImage
  with_reducible repeat' first | assumption | exact Led.refl _ _ | apply onMessage_led | apply reply_led | apply refuseImage_led | with_unfolding_all exact Touch.holds rfl | apply LedO.next | refine LedO.ite ?_ ?_ | refine Led.ite ?_ ?_ | intro _ | fail_if_no_progress refine Led.record ?_ rfl | split | dsimp only

theorem writeCopies_led {P : Touch} {s t : State} (a0 a1 a2) (h : Led P s t) (hw : Touch.within { trust := true, tally := true, ftl := true, bay := true, corr := true, out := true } P = true) :
    Led P s (writeCopies a0 a1 a2 t).1 := by
  refine Led.lift h hw ?_
  unfold writeCopies
  with_reducible repeat' first | assumption | exact Led.refl _ _ | apply openBlock_led | apply queueOp_led | with_unfolding_all exact Touch.holds rfl | refine Led.ite ?_ ?_ | intro _ | (refine Led.foldl ?_ ?_; rotate_left; intro _ _ _) | (refine Led.foldlFst ?_ ?_; rotate_left; intro _ _ _ _) | (refine Led.foldlSnd ?_ ?_; rotate_left; intro _ _ _ _) | fail_if_no_progress refine Led.record ?_ rfl | split | dsimp only

theorem armCopies_led {P : Touch} {s t : State} (a0 a1 a2) (h : Led P s t) (hw : Touch.within { trust := true, tally := true, ftl := true, bay := true, corr := true, out := true } P = true) :
    Led P s (armCopies a0 a1 a2 t).1 := by
  refine Led.lift h hw ?_
  unfold armCopies
  with_reducible repeat' first | assumption | exact Led.refl _ _ | apply writeCopies_led | with_unfolding_all exact Touch.holds rfl | refine Led.ite ?_ ?_ | intro _ | fail_if_no_progress refine Led.record ?_ rfl | split

theorem execTtArm_led {P : Touch} {s t : State} (a0 a1 a2) (h : Led P s t) (hw : Touch.within { trust := true, cpi := true, diary := true, tally := true, tt := true, ftl := true, bay := true, pool := true, corr := true, out := true } P = true) :
    LedO P s (execTtArm a0 a1 a2 t) := by
  refine LedO.lift h hw ?_
  unfold execTtArm
  with_reducible repeat' first | assumption | exact Led.refl _ _ | apply onPacket_led | apply noteLoad_led | apply refuse_led | apply pairWide_led | apply armCopies_led | apply changed_led | apply armBell_led | apply configWrite_led | with_unfolding_all exact Touch.holds rfl | apply LedO.next | refine LedO.ite ?_ ?_ | refine Led.ite ?_ ?_ | intro _ | fail_if_no_progress refine Led.record ?_ rfl

theorem execTtDisarm_led {P : Touch} {s t : State} (a0 a1 a2) (h : Led P s t) (hw : Touch.within { trust := true, cpi := true, diary := true, tally := true, tt := true, ftl := true, bay := true, pool := true, corr := true, out := true } P = true) :
    LedO P s (execTtDisarm a0 a1 a2 t) := by
  refine LedO.lift h hw ?_
  unfold execTtDisarm
  with_reducible repeat' first | assumption | exact Led.refl _ _ | apply onPacket_led | apply noteLoad_led | apply refuse_led | apply pairWide_led | apply freeCopies_led | apply changed_led | apply configWrite_led | with_unfolding_all exact Touch.holds rfl | apply LedO.next | refine LedO.ite ?_ ?_ | refine Led.ite ?_ ?_ | intro _ | fail_if_no_progress refine Led.record ?_ rfl

theorem execTtQuery_led {P : Touch} {s t : State} (a0 a1) (h : Led P s t) (hw : Touch.within { trust := true, cpi := true, tally := true, corr := true, out := true } P = true) :
    LedO P s (execTtQuery a0 a1 t) := by
  refine LedO.lift h hw ?_
  unfold execTtQuery
  with_reducible repeat' first | assumption | exact Led.refl _ _ | apply onPacket_led | apply answered_led | with_unfolding_all exact Touch.holds rfl | apply LedO.next | refine LedO.ite ?_ ?_ | refine Led.ite ?_ ?_ | intro _

theorem execTermChangeover_led {P : Touch} {s t : State} (h : Led P s t) (hw : Touch.within { trust := true, diary := true, tally := true, tt := true, stg := true, ftl := true, ec := true, bay := true, pool := true, corr := true, out := true } P = true) :
    LedO P s (execTermChangeover t) := by
  refine LedO.lift h hw ?_
  unfold execTermChangeover
  with_reducible repeat' first | assumption | exact Led.refl _ _ | apply whenDue_led | apply changeover_led | with_unfolding_all exact Touch.holds rfl | apply LedO.next

theorem execReportCard_led {P : Touch} {s t : State} (a0 a1) (h : Led P s t) (hw : Touch.within { trust := true, cpi := true, tally := true, corr := true, out := true } P = true) :
    LedO P s (execReportCard a0 a1 t) := by
  refine LedO.lift h hw ?_
  unfold execReportCard
  with_reducible repeat' first | assumption | exact Led.refl _ _ | apply onPacket_led | apply answered_led | with_unfolding_all exact Touch.holds rfl | apply LedO.next | refine LedO.ite ?_ ?_ | refine Led.ite ?_ ?_ | intro _

theorem raiseWarning_led {P : Touch} {s t : State} (a0 a1) (h : Led P s t) (hw : Touch.within { diary := true, tally := true, hq := true, out := true } P = true) :
    Led P s (raiseWarning a0 a1 t) := by
  refine Led.lift h hw ?_
  unfold raiseWarning
  with_reducible repeat' first | assumption | exact Led.refl _ _ | apply notify_led | apply event_led | with_unfolding_all exact Touch.holds rfl | (refine Led.foldl ?_ ?_; rotate_left; intro _ _ _) | fail_if_no_progress refine Led.record ?_ rfl | split

theorem execEarlyWarningEval_led {P : Touch} {s t : State} (h : Led P s t) (hw : Touch.within { diary := true, tally := true, hq := true, out := true } P = true) :
    LedO P s (execEarlyWarningEval t) := by
  refine LedO.lift h hw ?_
  unfold execEarlyWarningEval
  with_reducible repeat' first | assumption | exact Led.refl _ _ | apply whenDue_led | apply raiseWarning_led | with_unfolding_all exact Touch.holds rfl | apply LedO.next | (refine Led.foldl ?_ ?_; rotate_left; intro _ _ _) | fail_if_no_progress refine Led.record ?_ rfl | split

theorem boxReply_led {P : Touch} {s t : State} (a0) (h : Led P s t) (hw : Touch.within { trust := true, cpi := true, tally := true, ftl := true, ciph := true, corr := true, out := true } P = true) :
    Led P s (boxReply a0 t) := by
  refine Led.lift h hw ?_
  unfold boxReply
  with_reducible repeat' first | assumption | exact Led.refl _ _ | apply takeNonce_led | with_unfolding_all exact Touch.holds rfl | refine Led.ite ?_ ?_ | intro _ | refine Led.ofFst ‹_ = (_, _)› ?_ | refine Led.ofSnd ‹_ = (_, _)› ?_ | refine Led.ofSome ‹_ = some _› ?_ | fail_if_no_progress refine Led.record ?_ rfl | split | dsimp only

theorem boxBell_led {P : Touch} {s t : State} (h : Led P s t) (hw : Touch.within { trust := true, cpi := true, tally := true, ftl := true, ciph := true, corr := true, out := true } P = true) :
    Led P s (boxBell t) := by
  refine Led.lift h hw ?_
  unfold boxBell
  with_reducible repeat' first | assumption | exact Led.refl _ _ | apply boxReply_led | with_unfolding_all exact Touch.holds rfl | (refine Led.foldl ?_ ?_; rotate_left; intro _ _ _) | fail_if_no_progress refine Led.record ?_ rfl | split

theorem execCpPayloadFetch_led {P : Touch} {s t : State} (a0 a1) (h : Led P s t) (hw : Touch.within { trust := true, cpi := true, tally := true, corr := true, out := true } P = true) :
    LedO P s (execCpPayloadFetch a0 a1 t) := by
  refine LedO.lift h hw ?_
  unfold execCpPayloadFetch
  with_reducible repeat' first | assumption | exact Led.refl _ _ | apply onPacket_led | apply badParam_led | apply refuse_led | apply answered_led | with_unfolding_all exact Touch.holds rfl | apply LedO.next | refine LedO.ite ?_ ?_ | refine Led.ite ?_ ?_ | intro _ | fail_if_no_progress refine Led.record ?_ rfl | split | dsimp only

theorem loseAssociation_led {P : Touch} {s t : State} (a0 a1) (h : Led P s t) (hw : Touch.within { trust := true, cpi := true, diary := true, tally := true, stg := true, ftl := true, bay := true, jobs := true, hq := true, repl := true, corr := true, out := true, draws := true } P = true) :
    Led P s (loseAssociation a0 a1 t) := by
  refine Led.lift h hw ?_
  unfold loseAssociation
  with_reducible repeat' first | assumption | exact Led.refl _ _ | apply endQueue_led | apply event_led | apply loseBinding_led | with_unfolding_all exact Touch.holds rfl | (refine Led.foldl ?_ ?_; rotate_left; intro _ _ _) | fail_if_no_progress refine Led.record ?_ rfl | split

theorem releaseHeld_led {P : Touch} {s t : State} (h : Led P s t) (hw : Touch.within { hq := true, out := true } P = true) :
    Led P s (releaseHeld t) := by
  refine Led.lift h hw ?_
  unfold releaseHeld
  exact Led.record (.refl _ _) rfl

theorem adminDone_led {P : Touch} {s t : State} (a0 a1 a2 a3 a4) (h : Led P s t) (hw : Touch.within { tally := true, hq := true, out := true } P = true) :
    Led P s (adminDone a0 a1 a2 a3 a4 t) := by
  refine Led.lift h hw ?_
  unfold adminDone
  with_reducible repeat' first | assumption | exact Led.refl _ _ | apply noteError_led | apply emit_led | with_unfolding_all exact Touch.holds rfl | fail_if_no_progress refine Led.record ?_ rfl | split

theorem adminFetched_led {P : Touch} {s t : State} (a0) (h : Led P s t) (hw : Touch.within { hq := true } P = true) :
    Led P s (adminFetched a0 t) := by
  refine Led.lift h hw ?_
  unfold adminFetched
  with_reducible repeat' first | assumption | exact Led.refl _ _ | apply setQueue_led | with_unfolding_all exact Touch.holds rfl | split

theorem onController_led {P : Touch} {s t : State} (a0 f1) (h : Led P s t) (hw : Touch.within { hq := true } P = true) (hf1 : ∀ x0 u, Led P s u → Led P s (f1 x0 u)) :
    LedO P s (onController a0 f1 t) := by
  unfold onController
  with_reducible repeat' first | assumption | exact Led.refl _ _ | apply hf1 | apply adminFetched_led | with_unfolding_all exact Touch.holds rfl | with_unfolding_all exact Touch.within_trans rfl ‹_› | apply LedO.next | split

theorem managedOnly_led {P : Touch} {s t : State} (a0 a1 f2) (h : Led P s t) (hw : Touch.within { tally := true, hq := true, out := true } P = true) (hf2 : ∀ u, Led P s u → Led P s (f2 u)) :
    LedO P s (managedOnly a0 a1 f2 t) := by
  unfold managedOnly
  with_reducible repeat' first | assumption | exact Led.refl _ _ | apply hf2 | apply onController_led | apply adminDone_led | with_unfolding_all exact Touch.holds rfl | with_unfolding_all exact Touch.within_trans rfl ‹_› | apply LedO.next | refine LedO.ite ?_ ?_ | refine Led.ite ?_ ?_ | intro _

theorem readPage_led {P : Touch} {s t : State} (a0 a1) (h : Led P s t) (hw : Touch.within { hq := true } P = true) :
    Led P s (readPage a0 a1 t) := by
  refine Led.lift h hw ?_
  unfold readPage
  with_reducible repeat' first | assumption | exact Led.refl _ _ | apply setController_led | with_unfolding_all exact Touch.holds rfl | split

theorem execGetLogPage_led {P : Touch} {s t : State} (a0 a1 a2 a3 a4 a5) (h : Led P s t) (hw : Touch.within { tally := true, hq := true, out := true, draws := true } P = true) :
    LedO P s (execGetLogPage a0 a1 a2 a3 a4 a5 t) := by
  refine LedO.lift h hw ?_
  unfold execGetLogPage
  with_reducible repeat' first | assumption | exact Led.refl _ _ | apply onController_led | apply adminDone_led | apply drawn_led | apply readPage_led | with_unfolding_all exact Touch.holds rfl | apply LedO.next | refine LedO.ite ?_ ?_ | refine Led.ite ?_ ?_ | intro _ | fail_if_no_progress refine Led.record ?_ rfl | split

theorem execIdentify_led {P : Touch} {s t : State} (a0 a1 a2 a3 a4) (h : Led P s t) (hw : Touch.within { tally := true, hq := true, out := true, draws := true } P = true) :
    LedO P s (execIdentify a0 a1 a2 a3 a4 t) := by
  refine LedO.lift h hw ?_
  unfold execIdentify
  with_reducible repeat' first | assumption | exact Led.refl _ _ | apply onController_led | apply adminDone_led | apply drawn_led | with_unfolding_all exact Touch.holds rfl | apply LedO.next | refine LedO.ite ?_ ?_ | refine Led.ite ?_ ?_ | intro _ | fail_if_no_progress refine Led.record ?_ rfl | split

theorem execAbort_led {P : Touch} {s t : State} (a0 a1 a2 a3) (h : Led P s t) (hw : Touch.within { tally := true, stg := true, hq := true, out := true } P = true) :
    LedO P s (execAbort a0 a1 a2 a3 t) := by
  refine LedO.lift h hw ?_
  unfold execAbort
  with_reducible repeat' first | assumption | exact Led.refl _ _ | apply onController_led | apply adminDone_led | apply endCapsules_led | with_unfolding_all exact Touch.holds rfl | apply LedO.next | refine LedO.ite ?_ ?_ | refine Led.ite ?_ ?_ | intro _ | fail_if_no_progress refine Led.record ?_ rfl | split

theorem keepFeature_led {P : Touch} {s t : State} (a0 a1 a2) (h : Led P s t) (hw : Touch.within { hq := true } P = true) :
    Led P s (keepFeature a0 a1 a2 t) := by
  refine Led.lift h hw ?_
  unfold keepFeature
  exact Led.record (.refl _ _) rfl

theorem execSetFeatures_led {P : Touch} {s t : State} (a0 a1 a2 a3 a4 a5) (h : Led P s t) (hw : Touch.within { tally := true, hq := true, out := true } P = true) :
    LedO P s (execSetFeatures a0 a1 a2 a3 a4 a5 t) := by
  refine LedO.lift h hw ?_
  unfold execSetFeatures
  with_reducible repeat' first | assumption | exact Led.refl _ _ | apply onController_led | apply adminDone_led | apply keepFeature_led | apply setController_led | apply setReservation_led | with_unfolding_all exact Touch.holds rfl | apply LedO.next | refine LedO.ite ?_ ?_ | refine Led.ite ?_ ?_ | intro _ | fail_if_no_progress refine Led.record ?_ rfl

theorem execGetFeatures_led {P : Touch} {s t : State} (a0 a1 a2 a3 a4) (h : Led P s t) (hw : Touch.within { tally := true, hq := true, out := true } P = true) :
    LedO P s (execGetFeatures a0 a1 a2 a3 a4 t) := by
  refine LedO.lift h hw ?_
  unfold execGetFeatures
  with_reducible repeat' first | assumption | exact Led.refl _ _ | apply onController_led | apply adminDone_led | with_unfolding_all exact Touch.holds rfl | apply LedO.next | refine LedO.ite ?_ ?_ | refine Led.ite ?_ ?_ | intro _

theorem execAsyncEventRequest_led {P : Touch} {s t : State} (a0 a1) (h : Led P s t) (hw : Touch.within { tally := true, hq := true, out := true } P = true) :
    LedO P s (execAsyncEventRequest a0 a1 t) := by
  refine LedO.lift h hw ?_
  unfold execAsyncEventRequest
  with_reducible repeat' first | assumption | exact Led.refl _ _ | apply onController_led | apply adminDone_led | apply setController_led | with_unfolding_all exact Touch.holds rfl | apply LedO.next | refine LedO.ite ?_ ?_ | refine Led.ite ?_ ?_ | intro _

theorem execKeepAlive_led {P : Touch} {s t : State} (a0 a1) (h : Led P s t) (hw : Touch.within { tally := true, hq := true, out := true } P = true) :
    LedO P s (execKeepAlive a0 a1 t) := by
  refine LedO.lift h hw ?_
  unfold execKeepAlive
  with_reducible repeat' first | assumption | exact Led.refl _ _ | apply onController_led | apply adminDone_led | apply setController_led | with_unfolding_all exact Touch.holds rfl | apply LedO.next | refine LedO.ite ?_ ?_ | refine Led.ite ?_ ?_ | intro _

theorem execKeepAliveExpiry_led {P : Touch} {s t : State} (a0) (h : Led P s t) (hw : Touch.within { trust := true, cpi := true, diary := true, tally := true, stg := true, ftl := true, bay := true, jobs := true, hq := true, repl := true, corr := true, out := true, draws := true } P = true) :
    LedO P s (execKeepAliveExpiry a0 t) := by
  refine LedO.lift h hw ?_
  unfold execKeepAliveExpiry
  with_reducible repeat' first | assumption | exact Led.refl _ _ | apply whenDue_led | apply loseAssociation_led | with_unfolding_all exact Touch.holds rfl | apply LedO.next | split

theorem execConnectionError_led {P : Touch} {s t : State} (a0 a1) (h : Led P s t) (hw : Touch.within { trust := true, cpi := true, diary := true, tally := true, stg := true, ftl := true, bay := true, jobs := true, hq := true, repl := true, corr := true, out := true, draws := true } P = true) :
    LedO P s (execConnectionError a0 a1 t) := by
  refine LedO.lift h hw ?_
  unfold execConnectionError
  with_reducible repeat' first | assumption | exact Led.refl _ _ | apply loseAssociation_led | apply endQueue_led | with_unfolding_all exact Touch.holds rfl | apply LedO.next | split

theorem execDisconnect_led {P : Touch} {s t : State} (a0 a1) (h : Led P s t) (hw : Touch.within { trust := true, cpi := true, diary := true, tally := true, stg := true, ftl := true, bay := true, jobs := true, hq := true, repl := true, corr := true, out := true, draws := true } P = true) :
    LedO P s (execDisconnect a0 a1 t) := by
  refine LedO.lift h hw ?_
  unfold execDisconnect
  with_reducible repeat' first | assumption | exact Led.refl _ _ | apply onController_led | apply loseAssociation_led | apply adminDone_led | with_unfolding_all exact Touch.holds rfl | apply LedO.next | refine LedO.ite ?_ ?_ | refine Led.ite ?_ ?_ | intro _

theorem execFabricsConnect_led {P : Touch} {s t : State} (a0 a1 a2 a3 a4 a5 a6 a7 a8) (h : Led P s t) (hw : Touch.within { cpi := true, hq := true, out := true, draws := true } P = true) :
    LedO P s (execFabricsConnect a0 a1 a2 a3 a4 a5 a6 a7 a8 t) := by
  refine LedO.lift h hw ?_
  unfold execFabricsConnect
  with_reducible repeat' first | assumption | exact Led.refl _ _ | apply emit_led | apply bind_led | apply setController_led | with_unfolding_all exact Touch.holds rfl | apply LedO.next | fail_if_no_progress refine Led.record ?_ rfl | split | dsimp only

theorem execPropertyGet_led {P : Touch} {s t : State} (a0 a1 a2) (h : Led P s t) (hw : Touch.within { tally := true, hq := true, out := true, draws := true } P = true) :
    LedO P s (execPropertyGet a0 a1 a2 t) := by
  refine LedO.lift h hw ?_
  unfold execPropertyGet
  with_reducible repeat' first | assumption | exact Led.refl _ _ | apply onController_led | apply adminDone_led | apply drawn_led | with_unfolding_all exact Touch.holds rfl | apply LedO.next | refine LedO.ite ?_ ?_ | refine Led.ite ?_ ?_ | intro _ | fail_if_no_progress refine Led.record ?_ rfl | split

theorem resetController_led {P : Touch} {s t : State} (a0) (h : Led P s t) (hw : Touch.within { trust := true, diary := true, tally := true, stg := true, ftl := true, bay := true, jobs := true, hq := true, repl := true, corr := true, out := true, draws := true } P = true) :
    Led P s (resetController a0 t) := by
  refine Led.lift h hw ?_
  unfold resetController
  with_reducible repeat' first | assumption | exact Led.refl _ _ | apply endQueue_led | apply event_led | apply setController_led | with_unfolding_all exact Touch.holds rfl | (refine Led.foldl ?_ ?_; rotate_left; intro _ _ _) | fail_if_no_progress refine Led.record ?_ rfl | split

theorem execPropertySet_led {P : Touch} {s t : State} (a0 a1 a2 a3) (h : Led P s t) (hw : Touch.within { trust := true, diary := true, tally := true, stg := true, ftl := true, bay := true, jobs := true, hq := true, repl := true, corr := true, out := true, draws := true } P = true) :
    LedO P s (execPropertySet a0 a1 a2 a3 t) := by
  refine LedO.lift h hw ?_
  unfold execPropertySet
  with_reducible repeat' first | assumption | exact Led.refl _ _ | apply onController_led | apply adminDone_led | apply resetController_led | apply setController_led | with_unfolding_all exact Touch.holds rfl | apply LedO.next | refine LedO.ite ?_ ?_ | refine Led.ite ?_ ?_ | intro _

theorem execControlReplyPoll_led {P : Touch} {s t : State} (a0 a1 a2) (h : Led P s t) (hw : Touch.within { tally := true, hq := true, out := true } P = true) :
    LedO P s (execControlReplyPoll a0 a1 a2 t) := by
  refine LedO.lift h hw ?_
  unfold execControlReplyPoll
  with_reducible repeat' first | assumption | exact Led.refl _ _ | apply managedOnly_led | apply adminDone_led | with_unfolding_all exact Touch.holds rfl | apply LedO.next | refine LedO.ite ?_ ?_ | refine Led.ite ?_ ?_ | intro _ | fail_if_no_progress refine Led.record ?_ rfl | split

theorem execControlPacketSubmit_led {P : Touch} {s t : State} (a0 a1 a2 a3) (h : Led P s t) (hw : Touch.within { trust := true, cpi := true, tally := true, hq := true, corr := true, out := true } P = true) :
    LedO P s (execControlPacketSubmit a0 a1 a2 a3 t) := by
  refine LedO.lift h hw ?_
  unfold execControlPacketSubmit
  with_reducible repeat' first | assumption | exact Led.refl _ _ | apply onMessage_led | apply acceptForward_led | apply managedOnly_led | apply adminDone_led | apply submitPacket_led | with_unfolding_all exact Touch.holds rfl | apply LedO.next | refine LedO.ite ?_ ?_ | refine Led.ite ?_ ?_ | intro _

theorem execControlReplyFetch_led {P : Touch} {s t : State} (a0 a1 a2) (h : Led P s t) (hw : Touch.within { cpi := true, tally := true, hq := true, out := true } P = true) :
    LedO P s (execControlReplyFetch a0 a1 a2 t) := by
  refine LedO.lift h hw ?_
  unfold execControlReplyFetch
  with_reducible repeat' first | assumption | exact Led.refl _ _ | apply managedOnly_led | apply adminDone_led | apply tallyAdd_led | with_unfolding_all exact Touch.holds rfl | apply LedO.next | refine LedO.ite ?_ ?_ | refine Led.ite ?_ ?_ | intro _ | fail_if_no_progress refine Led.record ?_ rfl | split | dsimp only

theorem execControlPayloadFetch_led {P : Touch} {s t : State} (a0 a1 a2 a3 a4) (h : Led P s t) (hw : Touch.within { cpi := true, tally := true, hq := true, out := true } P = true) :
    LedO P s (execControlPayloadFetch a0 a1 a2 a3 a4 t) := by
  refine LedO.lift h hw ?_
  unfold execControlPayloadFetch
  with_reducible repeat' first | assumption | exact Led.refl _ _ | apply managedOnly_led | apply adminDone_led | with_unfolding_all exact Touch.holds rfl | apply LedO.next | refine LedO.ite ?_ ?_ | refine Led.ite ?_ ?_ | intro _ | fail_if_no_progress refine Led.record ?_ rfl | split | dsimp only

theorem execCnpReceived_led {P : Touch} {s t : State} (a0 a1) (h : Led P s t) (hw : Touch.within { hq := true, draws := true } P = true) :
    LedO P s (execCnpReceived a0 a1 t) := by
  refine LedO.lift h hw ?_
  unfold execCnpReceived
  with_reducible repeat' first | assumption | exact Led.refl _ _ | apply drawn_led | with_unfolding_all exact Touch.holds rfl | apply LedO.next | fail_if_no_progress refine Led.record ?_ rfl | split

end Sys2Proof.Machine
end

