-- ==== Sys2Proof/Laws/FramesService.lean ====
section
/-! SUPPORT. One lemma for each operation and each command, saying once what the operations over firmware, trust, snapshots, sessions, transfers and relations can do: the frame of each is the `Touch` it names. -/

set_option Elab.async false
set_option linter.all false

namespace Sys2Proof.Machine

theorem raiseCounter_led {P : Touch} {s t : State} (a0) (h : Led P s t) (hw : Touch.within { trust := true } P = true) : Led P s (raiseCounter a0 t) := by
  refine Led.lift h hw ?_
  unfold raiseCounter
  refine Led.burn (.refl _ _) rfl ?_
  dsimp only
  split
  · exact { FusesGrow.refl _ with ctr0 := Nat.le_max_left _ _ }
  · exact { FusesGrow.refl _ with ctr1 := Nat.le_max_left _ _ }

theorem runFaculty_led {P : Touch} {s t : State} (a0) (h : Led P s t) (hw : Touch.within { pwr := true, trust := true, tally := true, ciph := true } P = true) :
    Led P s (runFaculty a0 t) := by
  refine Led.lift h hw ?_
  unfold runFaculty
  with_reducible repeat' first | assumption | exact Led.refl _ _ | apply extendMr_led | apply raiseCounter_led | with_unfolding_all exact Touch.holds rfl | fail_if_no_progress refine Led.record ?_ rfl | split | dsimp only

theorem execFacultyChunkLoad_led {P : Touch} {s t : State} (a0) (h : Led P s t) (hw : Touch.within { pwr := true, trust := true, tally := true, ciph := true } P = true) :
    LedO P s (execFacultyChunkLoad a0 t) := by
  refine LedO.lift h hw ?_
  unfold execFacultyChunkLoad
  with_reducible repeat' first | assumption | exact Led.refl _ _ | apply whenDue_led | apply raiseCounter_led | apply runFaculty_led | with_unfolding_all exact Touch.holds rfl | apply LedO.next | fail_if_no_progress refine Led.record ?_ rfl | split | dsimp only

theorem setFwSlot_led {P : Touch} {s t : State} (a0 a1) (h : Led P s t) (hw : Touch.within { trust := true } P = true) :
    Led P s (setFwSlot a0 a1 t) := by
  refine Led.lift h hw ?_
  unfold setFwSlot
  exact Led.record (.refl _ _) rfl

theorem downloadPiece_led {P : Touch} {s t : State} (a0 a1) (h : Led P s t) (hw : Touch.within { trust := true, cpi := true, diary := true, tally := true, corr := true, out := true } P = true) :
    Led P s (downloadPiece a0 a1 t) := by
  refine Led.lift h hw ?_
  unfold downloadPiece
  with_reducible repeat' first | assumption | exact Led.refl _ _ | apply takePiece_led | apply answered_led | apply setFwSlot_led | apply refuse_led | apply tallyAdd_led | apply changed_led | with_unfolding_all exact Touch.holds rfl | refine Led.ite ?_ ?_ | intro _ | refine Led.ofFst ‹_ = (_, _)› ?_ | refine Led.ofSnd ‹_ = (_, _)› ?_ | refine Led.ofSome ‹_ = some _› ?_ | fail_if_no_progress refine Led.record ?_ rfl | split | dsimp only

theorem execFwDownload_led {P : Touch} {s t : State} (a0 a1) (h : Led P s t) (hw : Touch.within { trust := true, cpi := true, diary := true, tally := true, corr := true, out := true } P = true) :
    LedO P s (execFwDownload a0 a1 t) := by
  refine LedO.lift h hw ?_
  unfold execFwDownload
  with_reducible repeat' first | assumption | exact Led.refl _ _ | apply onPacket_led | apply downloadPiece_led | with_unfolding_all exact Touch.holds rfl | apply LedO.next | refine LedO.ite ?_ ?_ | refine Led.ite ?_ ?_ | intro _

theorem setActivation_led {P : Touch} {s t : State} (a0) (h : Led P s t) (hw : Touch.within { trust := true } P = true) :
    Led P s (setActivation a0 t) := by
  refine Led.lift h hw ?_
  unfold setActivation
  exact Led.record (.refl _ _) rfl

theorem startActivation_led {P : Touch} {s t : State} (a0) (h : Led P s t) (hw : Touch.within { trust := true, tally := true, ciph := true, hq := true, out := true } P = true) :
    LedSum P s (startActivation a0 t) := by
  refine LedSum.lift h hw ?_
  unfold startActivation
  with_reducible repeat' first | assumption | exact Led.refl _ _ | apply notifyAll_led | apply setActivation_led | apply extendMr_led | with_unfolding_all exact Touch.holds rfl | apply LedSum.inl | exact LedSum.inr | fail_if_no_progress refine Led.record ?_ rfl | split | dsimp only

theorem execFwActivate_led {P : Touch} {s t : State} (a0 a1) (h : Led P s t) (hw : Touch.within { trust := true, cpi := true, tally := true, ciph := true, hq := true, corr := true, out := true } P = true) :
    LedO P s (execFwActivate a0 a1 t) := by
  refine LedO.lift h hw ?_
  unfold execFwActivate
  repeat' first
    | with_reducible assumption | with_reducible exact Led.refl _ _ | with_reducible apply onPacket_led | with_reducible apply startActivation_led | with_reducible apply refuse_led
    | with_reducible apply LedO.next | with_reducible exact LedOpt.none | with_reducible apply LedOpt.some
    | with_reducible exact LedPair.none | with_reducible apply LedPair.some | with_reducible apply LedSum.inl | with_reducible exact LedSum.inr
    | (with_reducible refine Led.foldl ?_ ?_; rotate_left; intro _ _ _)
    | (with_reducible refine Led.foldlFst ?_ ?_; rotate_left; intro _ _ _ _)
    | (with_reducible refine Led.foldlSnd ?_ ?_; rotate_left; intro _ _ _ _)
    | with_reducible intro _
    | with_reducible refine Led.ofFst ‹_ = (_, _)› ?_ | with_reducible refine Led.ofSnd ‹_ = (_, _)› ?_
    | with_reducible refine Led.ofSome ‹_ = some _› ?_ | with_reducible refine Led.ofInl ‹_ = Sum.inl _› ?_
    | with_reducible refine Led.ofPair ‹_ = some (_, _)› ?_
    | with_reducible refine Led.getD ?_ ?_ | with_reducible refine LedOpt.bind ?_ ?_ | with_reducible refine LedOpt.map ?_ ?_ | with_reducible refine LedOpt.bindVal ?_
    | with_reducible refine Led.ite ?_ ?_ | with_reducible refine LedO.ite ?_ ?_ | with_reducible refine LedOpt.ite ?_ ?_
    | with_reducible refine LedPair.ite ?_ ?_ | with_reducible refine LedSum.ite ?_ ?_
    | fail_if_no_progress (with_reducible refine Led.record ?_ rfl)
    | exact Touch.holds rfl | exact Touch.within_trans rfl ‹_› | split
    | dsimp only
    | dsimp only [id]

theorem clusterReset_led {P : Touch} {s t : State} (a0) (h : Led P s t) (hw : Touch.within { diary := true, tally := true } P = true) :
    Led P s (clusterReset a0 t) := by
  refine Led.lift h hw ?_
  unfold clusterReset
  with_reducible repeat' first | assumption | exact Led.refl _ _ | apply event_led | apply tallyAdd_led | with_unfolding_all exact Touch.holds rfl

theorem countActivation_led {P : Touch} {s t : State} (a0) (h : Led P s t) (hw : Touch.within { trust := true } P = true) :
    Led P s (countActivation a0 t) := by
  refine Led.lift h hw ?_
  unfold countActivation
  exact Led.record (.refl _ _) rfl

theorem endActivation_led {P : Touch} {s t : State} (a0 a1 a2) (h : Led P s t) (hw : Touch.within { trust := true, cpi := true, diary := true, tally := true, hq := true, corr := true, out := true } P = true) :
    Led P s (endActivation a0 a1 a2 t) := by
  refine Led.lift h hw ?_
  unfold endActivation
  with_reducible repeat' first | assumption | exact Led.refl _ _ | apply releaseHeld_led | apply setActivation_led | apply changed_led | apply refuse_led | apply adminDone_led | with_unfolding_all exact Touch.holds rfl | fail_if_no_progress refine Led.record ?_ rfl | split | dsimp only

theorem clusterHealthy_led {P : Touch} {s t : State} (a0 a1) (h : Led P s t) (hw : Touch.within { trust := true, cpi := true, diary := true, tally := true, hq := true, corr := true, out := true } P = true) :
    Led P s (clusterHealthy a0 a1 t) := by
  refine Led.lift h hw ?_
  unfold clusterHealthy
  with_reducible repeat' first | assumption | exact Led.refl _ _ | apply setActivation_led | apply countActivation_led | apply endActivation_led | apply raiseCounter_led | with_unfolding_all exact Touch.holds rfl | fail_if_no_progress refine Led.record ?_ rfl | split

theorem execClusterReport_led {P : Touch} {s t : State} (a0 a1) (h : Led P s t) (hw : Touch.within { trust := true, cpi := true, diary := true, tally := true, hq := true, corr := true, out := true } P = true) :
    LedO P s (execClusterReport a0 a1 t) := by
  refine LedO.lift h hw ?_
  unfold execClusterReport
  with_reducible repeat' first | assumption | exact Led.refl _ _ | apply whenDue_led | apply setActivation_led | apply clusterReset_led | apply clusterHealthy_led | with_unfolding_all exact Touch.holds rfl | apply LedO.next | split

theorem execClusterReportTimeout_led {P : Touch} {s t : State} (a0) (h : Led P s t) (hw : Touch.within { trust := true, cpi := true, diary := true, tally := true, ciph := true, hq := true, corr := true, out := true } P = true) :
    LedO P s (execClusterReportTimeout a0 t) := by
  refine LedO.lift h hw ?_
  unfold execClusterReportTimeout
  with_reducible repeat' first | assumption | exact Led.refl _ _ | apply endActivation_led | apply extendMr_led | apply clusterReset_led | apply whenDue_led | with_unfolding_all exact Touch.holds rfl | apply LedO.next | (refine Led.foldl ?_ ?_; rotate_left; intro _ _ _) | fail_if_no_progress refine Led.record ?_ rfl | split

theorem execFirmwareImageDownload_led {P : Touch} {s t : State} (a0 a1 a2 a3) (h : Led P s t) (hw : Touch.within { trust := true, tally := true, hq := true, out := true } P = true) :
    LedO P s (execFirmwareImageDownload a0 a1 a2 a3 t) := by
  refine LedO.lift h hw ?_
  unfold execFirmwareImageDownload
  with_reducible repeat' first | assumption | exact Led.refl _ _ | apply managedOnly_led | apply adminDone_led | with_unfolding_all exact Touch.holds rfl | apply LedO.next | refine LedO.ite ?_ ?_ | refine Led.ite ?_ ?_ | intro _ | fail_if_no_progress refine Led.record ?_ rfl

theorem placeNvmeImage_led {P : Touch} {s t : State} (h : Led P s t) (hw : Touch.within { trust := true } P = true) :
    LedSum P s (placeNvmeImage t) := by
  refine LedSum.lift h hw ?_
  unfold placeNvmeImage
  with_reducible repeat' first | assumption | exact Led.refl _ _ | apply setFwSlot_led | with_unfolding_all exact Touch.holds rfl | apply LedSum.inl | exact LedSum.inr | fail_if_no_progress refine Led.record ?_ rfl | split | dsimp only

theorem execFirmwareCommit_led {P : Touch} {s t : State} (a0 a1 a2 a3) (h : Led P s t) (hw : Touch.within { trust := true, tally := true, ciph := true, hq := true, out := true } P = true) :
    LedO P s (execFirmwareCommit a0 a1 a2 a3 t) := by
  refine LedO.lift h hw ?_
  unfold execFirmwareCommit
  repeat' first
    | with_reducible assumption | with_reducible exact Led.refl _ _ | with_reducible apply managedOnly_led | with_reducible apply adminDone_led | with_reducible apply placeNvmeImage_led | with_reducible apply startActivation_led
    | with_reducible apply LedO.next | with_reducible exact LedOpt.none | with_reducible apply LedOpt.some
    | with_reducible exact LedPair.none | with_reducible apply LedPair.some | with_reducible apply LedSum.inl | with_reducible exact LedSum.inr
    | (with_reducible refine Led.foldl ?_ ?_; rotate_left; intro _ _ _)
    | (with_reducible refine Led.foldlFst ?_ ?_; rotate_left; intro _ _ _ _)
    | (with_reducible refine Led.foldlSnd ?_ ?_; rotate_left; intro _ _ _ _)
    | with_reducible intro _
    | with_reducible refine Led.ofFst ‹_ = (_, _)› ?_ | with_reducible refine Led.ofSnd ‹_ = (_, _)› ?_
    | with_reducible refine Led.ofSome ‹_ = some _› ?_ | with_reducible refine Led.ofInl ‹_ = Sum.inl _› ?_
    | with_reducible refine Led.ofPair ‹_ = some (_, _)› ?_
    | with_reducible refine Led.getD ?_ ?_ | with_reducible refine LedOpt.bind ?_ ?_ | with_reducible refine LedOpt.map ?_ ?_ | with_reducible refine LedOpt.bindVal ?_
    | with_reducible refine Led.ite ?_ ?_ | with_reducible refine LedO.ite ?_ ?_ | with_reducible refine LedOpt.ite ?_ ?_
    | with_reducible refine LedPair.ite ?_ ?_ | with_reducible refine LedSum.ite ?_ ?_
    | fail_if_no_progress (with_reducible refine Led.record ?_ rfl)
    | exact Touch.holds rfl | exact Touch.within_trans rfl ‹_› | split
    | dsimp only
    | dsimp only [id]

theorem runPrefect_led {P : Touch} {s t : State} (a0 a1) (h : Led P s t) (hw : Touch.within { trust := true, tally := true, ciph := true } P = true) :
    Led P s (runPrefect a0 a1 t) := by
  refine Led.lift h hw ?_
  unfold runPrefect
  exact Led.record (.refl _ _) rfl

theorem matchRecords_led {P : Touch} {s t : State} (h : Led P s t) (hw : Touch.within { trust := true, diary := true, tally := true } P = true) :
    Led P s (matchRecords t) := by
  refine Led.lift h hw ?_
  unfold matchRecords
  with_reducible repeat' first | assumption | exact Led.refl _ _ | apply event_led | with_unfolding_all exact Touch.holds rfl | (refine Led.foldl ?_ ?_; rotate_left; intro _ _ _) | fail_if_no_progress refine Led.record ?_ rfl | split

theorem prefectStep_led {P : Touch} {s t : State} (h : Led P s t) (hw : Touch.within { dram := true, trust := true, diary := true, tally := true, ciph := true } P = true) :
    Led P s (prefectStep t) := by
  refine Led.lift h hw ?_
  unfold prefectStep
  with_reducible repeat' first | assumption | exact Led.refl _ _ | apply programGuard_led | apply matchRecords_led | apply extendMr_led | apply raiseCounter_led | with_unfolding_all exact Touch.holds rfl | split

theorem startRecovered_led {P : Touch} {s t : State} (a0) (h : Led P s t) (hw : Touch.within { pwr := true, dram := true, trust := true, diary := true, tally := true, ciph := true } P = true) :
    Led P s (startRecovered a0 t) := by
  refine Led.lift h hw ?_
  unfold startRecovered
  with_reducible repeat' first | assumption | exact Led.refl _ _ | apply prefectStep_led | apply runPrefect_led | apply runFaculty_led | with_unfolding_all exact Touch.holds rfl | fail_if_no_progress refine Led.record ?_ rfl

theorem execPfwDownload_led {P : Touch} {s t : State} (a0 a1) (h : Led P s t) (hw : Touch.within { pwr := true, dram := true, trust := true, cpi := true, diary := true, tally := true, ciph := true, corr := true, out := true } P = true) :
    LedO P s (execPfwDownload a0 a1 t) := by
  refine LedO.lift h hw ?_
  unfold execPfwDownload
  with_reducible repeat' first | assumption | exact Led.refl _ _ | apply onPacket_led | apply downloadPiece_led | apply takePiece_led | apply answered_led | apply refuse_led | apply startRecovered_led | with_unfolding_all exact Touch.holds rfl | apply LedO.next | refine LedO.ite ?_ ?_ | refine Led.ite ?_ ?_ | intro _ | refine Led.ofFst ‹_ = (_, _)› ?_ | refine Led.ofSnd ‹_ = (_, _)› ?_ | refine Led.ofSome ‹_ = some _› ?_ | fail_if_no_progress refine Led.record ?_ rfl | split | dsimp only

theorem execPfwActivate_led {P : Touch} {s t : State} (a0 a1) (h : Led P s t) (hw : Touch.within { dram := true, trust := true, cpi := true, diary := true, tally := true, ciph := true, corr := true, out := true } P = true) :
    LedO P s (execPfwActivate a0 a1 t) := by
  refine LedO.lift h hw ?_
  unfold execPfwActivate
  with_reducible repeat' first | assumption | exact Led.refl _ _ | apply onPacket_led | apply refuse_led | apply programGuard_led | apply countActivation_led | apply runPrefect_led | apply sendPeer_led | apply changed_led | apply raiseCounter_led | with_unfolding_all exact Touch.holds rfl | apply LedO.next | refine LedO.ite ?_ ?_ | refine Led.ite ?_ ?_ | intro _ | fail_if_no_progress refine Led.record ?_ rfl | split

theorem execLockstepMismatch_led {P : Touch} {s t : State} (h : Led P s t) (hw : Touch.within { trust := true, diary := true, tally := true, ciph := true } P = true) :
    LedO P s (execLockstepMismatch t) := by
  refine LedO.lift h hw ?_
  unfold execLockstepMismatch
  with_reducible repeat' first | assumption | exact Led.refl _ _ | apply whenDue_led | apply event_led | apply runPrefect_led | with_unfolding_all exact Touch.holds rfl | apply LedO.next | fail_if_no_progress refine Led.record ?_ rfl | split

theorem execFwQuery_led {P : Touch} {s t : State} (a0 a1) (h : Led P s t) (hw : Touch.within { trust := true, cpi := true, tally := true, corr := true, out := true } P = true) :
    LedO P s (execFwQuery a0 a1 t) := by
  refine LedO.lift h hw ?_
  unfold execFwQuery
  with_reducible repeat' first | assumption | exact Led.refl _ _ | apply onPacket_led | apply answered_led | with_unfolding_all exact Touch.holds rfl | apply LedO.next | refine LedO.ite ?_ ?_ | refine Led.ite ?_ ?_ | intro _

theorem resumeActivation_led {P : Touch} {s t : State} (h : Led P s t) (hw : Touch.within { trust := true } P = true) :
    Led P s (resumeActivation t) := by
  refine Led.lift h hw ?_
  unfold resumeActivation
  with_reducible repeat' first | assumption | exact Led.refl _ _ | apply setActivation_led | with_unfolding_all exact Touch.holds rfl | split

theorem takeLockers_led {P : Touch} {s t : State} (a0) (h : Led P s t) (hw : Touch.within { ciph := true } P = true) :
    Led P s (takeLockers a0 t) := by
  refine Led.lift h hw ?_
  unfold takeLockers
  with_reducible repeat' first | assumption | exact Led.refl _ _ | apply setLocker_led | with_unfolding_all exact Touch.holds rfl | (refine Led.foldl ?_ ?_; rotate_left; intro _ _ _) | fail_if_no_progress refine Led.record ?_ rfl | split | dsimp only

theorem restartCounters_led {P : Touch} {s t : State} (h : Led P s t) (hw : Touch.within { ciph := true } P = true) :
    Led P s (restartCounters t) := by
  refine Led.lift h hw ?_
  unfold restartCounters
  exact Led.record (.refl _ _) rfl

theorem twiceSigned_keepFirst_led {P : Touch} {s t : State} (a0) (h : Led P s t) (hw : Touch.within { trust := true, cpi := true, tally := true, corr := true, out := true } P = true) :
    Led P s (twiceSigned.keepFirst a0 t) := by
  refine Led.lift h hw ?_
  unfold twiceSigned.keepFirst
  with_reducible repeat' first | assumption | exact Led.refl _ _ | apply answer_led | with_unfolding_all exact Touch.holds rfl | fail_if_no_progress refine Led.record ?_ rfl

theorem twiceSigned_led {P : Touch} {s t : State} (a0 f1) (h : Led P s t)
    (hw : Touch.within { trust := true, cpi := true, tally := true, corr := true, out := true } P = true) (hf1 : ∀ u, Led P s u → Led P s (f1 u)) :
    Led P s (twiceSigned a0 f1 t) := by
  unfold twiceSigned
  split
  · split
    · exact hf1 _ (h.lift hw (Led.record (.refl _ _) rfl))
    · exact twiceSigned_keepFirst_led _ h hw
  · exact twiceSigned_keepFirst_led _ h hw

theorem execKeyEnroll_led {P : Touch} {s t : State} (a0 a1) (h : Led P s t) (hw : Touch.within { trust := true, cpi := true, diary := true, tally := true, ciph := true, corr := true, out := true } P = true) : LedO P s (execKeyEnroll a0 a1 t) := by
  refine LedO.lift h hw ?_
  unfold execKeyEnroll
  refine onPacket_led _ _ _ _ (.refl _ _) rfl ?_
  intro p u hu
  dsimp only
  split
  · exact refuse_led _ _ _ hu rfl
  · rename_i hc
    simp only [not_or, Bool.not_eq_true, Option.isSome_eq_false_iff, Option.isNone_iff_eq_none] at hc
    refine changed_led _ _ (extendMr_led _ _ (Led.burn hu rfl ?_) rfl) rfl
    exact { FusesGrow.refl _ with
      lifecycle := Nat.le_max_left _ _
      digests := fun n d hd => getKey_putKey hc.1 hd }

theorem execKeyRevoke_led {P : Touch} {s t : State} (a0 a1) (h : Led P s t) (hw : Touch.within { trust := true, cpi := true, diary := true, tally := true, corr := true, out := true } P = true) : LedO P s (execKeyRevoke a0 a1 t) := by
  refine LedO.lift h hw ?_
  unfold execKeyRevoke
  refine onPacket_led _ _ _ _ (.refl _ _) rfl ?_
  intro p u hu
  dsimp only
  split
  · exact refuse_led _ _ _ hu rfl
  · split
    · exact refuse_led _ _ _ hu rfl
    · refine changed_led _ _ (Led.burn hu rfl ?_) rfl
      exact { FusesGrow.refl _ with revoked := fun n hn => bitAt_setBit hn }

theorem execQuote_led {P : Touch} {s t : State} (a0 a1) (h : Led P s t) (hw : Touch.within { trust := true, cpi := true, tally := true, corr := true, out := true } P = true) :
    LedO P s (execQuote a0 a1 t) := by
  refine LedO.lift h hw ?_
  unfold execQuote
  with_reducible repeat' first | assumption | exact Led.refl _ _ | apply onPacket_led | apply refuse_led | apply answered_led | apply tallyAdd_led | with_unfolding_all exact Touch.holds rfl | apply LedO.next | refine LedO.ite ?_ ?_ | refine Led.ite ?_ ?_ | intro _

theorem execMrRead_led {P : Touch} {s t : State} (a0 a1) (h : Led P s t) (hw : Touch.within { trust := true, cpi := true, tally := true, corr := true, out := true } P = true) :
    LedO P s (execMrRead a0 a1 t) := by
  refine LedO.lift h hw ?_
  unfold execMrRead
  with_reducible repeat' first | assumption | exact Led.refl _ _ | apply onPacket_led | apply answered_led | with_unfolding_all exact Touch.holds rfl | apply LedO.next | refine LedO.ite ?_ ?_ | refine Led.ite ?_ ?_ | intro _

theorem execIdentityGet_led {P : Touch} {s t : State} (a0 a1) (h : Led P s t) (hw : Touch.within { trust := true, cpi := true, tally := true, corr := true, out := true } P = true) :
    LedO P s (execIdentityGet a0 a1 t) := by
  refine LedO.lift h hw ?_
  unfold execIdentityGet
  with_reducible repeat' first | assumption | exact Led.refl _ _ | apply onPacket_led | apply answered_led | with_unfolding_all exact Touch.holds rfl | apply LedO.next | refine LedO.ite ?_ ?_ | refine Led.ite ?_ ?_ | intro _

theorem execEscrowExport_led {P : Touch} {s t : State} (a0 a1) (h : Led P s t) (hw : Touch.within { trust := true, cpi := true, tally := true, ciph := true, corr := true, out := true, draws := true } P = true) :
    LedO P s (execEscrowExport a0 a1 t) := by
  refine LedO.lift h hw ?_
  unfold execEscrowExport
  with_reducible repeat' first | assumption | exact Led.refl _ _ | apply onPacket_led | apply refuse_led | apply twiceSigned_led | apply drawn_led | apply answered_led | apply extendMr_led | with_unfolding_all exact Touch.holds rfl | apply LedO.next | refine LedO.ite ?_ ?_ | refine Led.ite ?_ ?_ | intro _ | fail_if_no_progress refine Led.record ?_ rfl | split

theorem execRootImport_led {P : Touch} {s t : State} (a0 a1 a2 a3) (h : Led P s t) (hw : Touch.within { pwr := true, trust := true, cpi := true, diary := true, tally := true, tt := true, stg := true, ddp := true, ftl := true, ec := true, pool := true, saved := true, ciph := true, jobs := true, corr := true, out := true } P = true) :
    LedO P s (execRootImport a0 a1 a2 a3 t) := by
  refine LedO.lift h hw ?_
  unfold execRootImport
  with_reducible repeat' first | assumption | exact Led.refl _ _ | apply onPacket_led | apply refuse_led | apply adoptPool_led | apply takeSuperblock_led | apply takeLockers_led | apply changed_led | apply extendMr_led | with_unfolding_all exact Touch.holds rfl | apply LedO.next | refine LedO.ite ?_ ?_ | refine Led.ite ?_ ?_ | intro _ | fail_if_no_progress refine Led.record ?_ rfl | split

theorem execDecommission_led {P : Touch} {s t : State} (a0 a1) (h : Led P s t) (hw : Touch.within { trust := true, cpi := true, diary := true, tally := true, corr := true, out := true } P = true) : LedO P s (execDecommission a0 a1 t) := by
  refine LedO.lift h hw ?_
  unfold execDecommission
  refine onPacket_led _ _ _ _ (.refl _ _) rfl ?_
  intro p u hu
  split
  · exact refuse_led _ _ _ hu rfl
  · refine twiceSigned_led _ _ hu rfl ?_
    intro v hv
    refine changed_led _ _ (Led.burn hv rfl ?_) rfl
    exact { FusesGrow.refl _ with lifecycle := Nat.le_max_left _ _ }

theorem execClockRecordWrite_led {P : Touch} {s t : State} (h : Led P s t) (hw : Touch.within { trust := true } P = true) :
    LedO P s (execClockRecordWrite t) := by
  refine LedO.lift h hw ?_
  unfold execClockRecordWrite
  with_reducible repeat' first | assumption | exact Led.refl _ _ | apply whenDue_led | with_unfolding_all exact Touch.holds rfl | apply LedO.next | fail_if_no_progress refine Led.record ?_ rfl

theorem execDeleteTicketHoldEnd_led {P : Touch} {s t : State} (h : Led P s t) (hw : Touch.within { trust := true } P = true) :
    LedO P s (execDeleteTicketHoldEnd t) := by
  refine LedO.lift h hw ?_
  unfold execDeleteTicketHoldEnd
  with_reducible repeat' first | assumption | exact Led.refl _ _ | apply whenDue_led | with_unfolding_all exact Touch.holds rfl | apply LedO.next | fail_if_no_progress refine Led.record ?_ rfl

theorem toChips_led {P : Touch} {s t : State} (a0) (h : Led P s t) (hw : Touch.within { out := true } P = true) :
    Led P s (toChips a0 t) := by
  refine Led.lift h hw ?_
  unfold toChips
  exact Led.record (.refl _ _) rfl

theorem adoptRoster_led {P : Touch} {s t : State} (a0) (h : Led P s t) (hw : Touch.within { sys := true, ciph := true, corr := true, out := true } P = true) :
    Led P s (adoptRoster a0 t) := by
  refine Led.lift h hw ?_
  unfold adoptRoster
  with_reducible repeat' first | assumption | exact Led.refl _ _ | apply toChips_led | apply restartCounters_led | with_unfolding_all exact Touch.holds rfl | fail_if_no_progress refine Led.record ?_ rfl | split

theorem execFedRosterLoad_led {P : Touch} {s t : State} (a0 a1) (h : Led P s t) (hw : Touch.within { sys := true, trust := true, cpi := true, diary := true, tally := true, ciph := true, corr := true, out := true } P = true) :
    LedO P s (execFedRosterLoad a0 a1 t) := by
  refine LedO.lift h hw ?_
  unfold execFedRosterLoad
  with_reducible repeat' first | assumption | exact Led.refl _ _ | apply onPacket_led | apply refuse_led | apply tallyAdd_led | apply changed_led | apply adoptRoster_led | with_unfolding_all exact Touch.holds rfl | apply LedO.next | refine LedO.ite ?_ ?_ | refine Led.ite ?_ ?_ | intro _ | fail_if_no_progress refine Led.record ?_ rfl | split

theorem execRosterReceived_led {P : Touch} {s t : State} (a0) (h : Led P s t) (hw : Touch.within { sys := true, ciph := true, corr := true, out := true } P = true) :
    LedO P s (execRosterReceived a0 t) := by
  refine LedO.lift h hw ?_
  unfold execRosterReceived
  with_reducible repeat' first | assumption | exact Led.refl _ _ | apply whenDue_led | apply adoptRoster_led | with_unfolding_all exact Touch.holds rfl | apply LedO.next

theorem holdTickets_led {P : Touch} {s t : State} (h : Led P s t) (hw : Touch.within { trust := true } P = true) :
    Led P s (holdTickets t) := by
  refine Led.lift h hw ?_
  unfold holdTickets
  exact Led.record (.refl _ _) rfl

theorem applyTime_led {P : Touch} {s t : State} (a0) (h : Led P s t) (hw : Touch.within { trust := true, diary := true, tally := true } P = true) :
    Led P s (applyTime a0 t) := by
  refine Led.lift h hw ?_
  unfold applyTime
  with_reducible repeat' first | assumption | exact Led.refl _ _ | apply event_led | apply holdTickets_led | with_unfolding_all exact Touch.holds rfl | fail_if_no_progress refine Led.record ?_ rfl | split | dsimp only

theorem takeToken_led {P : Touch} {s t : State} (a0) (h : Led P s t) (hw : Touch.within { trust := true, diary := true, tally := true, ftl := true, bay := true, corr := true, out := true } P = true) :
    Led P s (takeToken a0 t) := by
  refine Led.lift h hw ?_
  unfold takeToken
  with_reducible repeat' first | assumption | exact Led.refl _ _ | apply applyTime_led | apply triageWithGap_led | apply toChips_led | with_unfolding_all exact Touch.holds rfl | fail_if_no_progress refine Led.record ?_ rfl | split | dsimp only

theorem execFedTimeToken_led {P : Touch} {s t : State} (a0 a1) (h : Led P s t) (hw : Touch.within { trust := true, cpi := true, diary := true, tally := true, ftl := true, bay := true, corr := true, out := true } P = true) :
    LedO P s (execFedTimeToken a0 a1 t) := by
  refine LedO.lift h hw ?_
  unfold execFedTimeToken
  with_reducible repeat' first | assumption | exact Led.refl _ _ | apply onPacket_led | apply refuse_led | apply tallyAdd_led | apply takeToken_led | apply changed_led | with_unfolding_all exact Touch.holds rfl | apply LedO.next | refine LedO.ite ?_ ?_ | refine Led.ite ?_ ?_ | intro _ | fail_if_no_progress refine Led.record ?_ rfl | split

theorem execFedHeartbeatSend_led {P : Touch} {s t : State} (h : Led P s t) (hw : Touch.within { corr := true, out := true } P = true) :
    LedO P s (execFedHeartbeatSend t) := by
  refine LedO.lift h hw ?_
  unfold execFedHeartbeatSend
  with_reducible repeat' first | assumption | exact Led.refl _ _ | apply whenDue_led | apply toChips_led | with_unfolding_all exact Touch.holds rfl | apply LedO.next | fail_if_no_progress refine Led.record ?_ rfl

theorem execFedHeartbeat_led {P : Touch} {s t : State} (a0 a1 a2 a3) (h : Led P s t) (hw : Touch.within { trust := true, diary := true, tally := true, ftl := true, bay := true, corr := true, out := true } P = true) :
    LedO P s (execFedHeartbeat a0 a1 a2 a3 t) := by
  refine LedO.lift h hw ?_
  unfold execFedHeartbeat
  with_reducible repeat' first | assumption | exact Led.refl _ _ | apply whenDue_led | apply emit_led | apply takeToken_led | with_unfolding_all exact Touch.holds rfl | apply LedO.next | fail_if_no_progress refine Led.record ?_ rfl | split | dsimp only

theorem execFedUnreachable_led {P : Touch} {s t : State} (a0) (h : Led P s t) (hw : Touch.within { diary := true, tally := true, corr := true } P = true) :
    LedO P s (execFedUnreachable a0 t) := by
  refine LedO.lift h hw ?_
  unfold execFedUnreachable
  with_reducible repeat' first | assumption | exact Led.refl _ _ | apply whenDue_led | apply event_led | with_unfolding_all exact Touch.holds rfl | apply LedO.next | fail_if_no_progress refine Led.record ?_ rfl

theorem execFedQuery_led {P : Touch} {s t : State} (a0 a1) (h : Led P s t) (hw : Touch.within { trust := true, cpi := true, tally := true, corr := true, out := true } P = true) :
    LedO P s (execFedQuery a0 a1 t) := by
  refine LedO.lift h hw ?_
  unfold execFedQuery
  with_reducible repeat' first | assumption | exact Led.refl _ _ | apply onPacket_led | apply answered_led | with_unfolding_all exact Touch.holds rfl | apply LedO.next | refine LedO.ite ?_ ?_ | refine Led.ite ?_ ?_ | intro _

theorem volumeBell_led {P : Touch} {s t : State} (h : Led P s t) (hw : Touch.within { ftl := true } P = true) :
    Led P s (volumeBell t) := by
  refine Led.lift h hw ?_
  unfold volumeBell
  exact Led.record (.refl _ _) rfl

theorem setGroupOf_led {P : Touch} {s t : State} (a0) (h : Led P s t) (hw : Touch.within { repl := true } P = true) :
    Led P s (setGroupOf a0 t) := by
  refine Led.lift h hw ?_
  unfold setGroupOf
  exact Led.record (.refl _ _) rfl

theorem cutNow_led {P : Touch} {s t : State} (a0 a1) (h : Led P s t) (hw : Touch.within { trust := true, tally := true, ftl := true, ciph := true, repl := true, corr := true, out := true } P = true) :
    Led P s (cutNow a0 a1 t) := by
  refine Led.lift h hw ?_
  unfold cutNow
  with_reducible repeat' first | assumption | exact Led.refl _ _ | apply setRoot_led | apply setGroupOf_led | apply sendRecord_led | with_unfolding_all exact Touch.holds rfl | (refine Led.foldl ?_ ?_; rotate_left; intro _ _ _) | fail_if_no_progress refine Led.record ?_ rfl | split

theorem fenceBell_led {P : Touch} {s t : State} (h : Led P s t) (hw : Touch.within { trust := true, tally := true, ftl := true, ciph := true, repl := true, corr := true, out := true } P = true) :
    Led P s (fenceBell t) := by
  refine Led.lift h hw ?_
  unfold fenceBell
  with_reducible repeat' first | assumption | exact Led.refl _ _ | apply cutNow_led | with_unfolding_all exact Touch.holds rfl | (refine Led.foldl ?_ ?_; rotate_left; intro _ _ _) | fail_if_no_progress refine Led.record ?_ rfl | split

theorem cutAgain_led {P : Touch} {s t : State} (h : Led P s t) (hw : Touch.within { ftl := true, repl := true } P = true) :
    Led P s (cutAgain t) := by
  refine Led.lift h hw ?_
  unfold cutAgain
  exact Led.record (.refl _ _) rfl

theorem wrongKind_led {P : Touch} {s t : State} (a0 a1) (h : Led P s t) (hw : Touch.within { trust := true, cpi := true, tally := true, corr := true, out := true } P = true) :
    Led P s (wrongKind a0 a1 t) := by
  refine Led.lift h hw ?_
  unfold wrongKind
  with_reducible repeat' first | assumption | exact Led.refl _ _ | apply refuse_led | with_unfolding_all exact Touch.holds rfl

theorem agreeFence_led {P : Touch} {s t : State} (a0) (h : Led P s t) (hw : Touch.within { trust := true, tally := true, repl := true, corr := true, out := true } P = true) :
    Led P s (agreeFence a0 t) := by
  refine Led.lift h hw ?_
  unfold agreeFence
  with_reducible repeat' first | assumption | exact Led.refl _ _ | apply setGroupOf_led | apply send_led | with_unfolding_all exact Touch.holds rfl | split

theorem startGroup_led {P : Touch} {s t : State} (a0 a1 a2 a3) (h : Led P s t) (hw : Touch.within { ftl := true, repl := true } P = true) :
    Led P s (startGroup a0 a1 a2 a3 t).1 := by
  refine Led.lift h hw ?_
  unfold startGroup
  with_reducible repeat' first | assumption | exact Led.refl _ _ | apply addRoot_led | with_unfolding_all exact Touch.holds rfl | refine Led.ite ?_ ?_ | intro _ | (refine Led.foldl ?_ ?_; rotate_left; intro _ _ _) | (refine Led.foldlFst ?_ ?_; rotate_left; intro _ _ _ _) | (refine Led.foldlSnd ?_ ?_; rotate_left; intro _ _ _ _) | fail_if_no_progress refine Led.record ?_ rfl | split | dsimp only

theorem cutGroup_led {P : Touch} {s t : State} (a0 a1 a2) (h : Led P s t) (hw : Touch.within { trust := true, tally := true, ftl := true, repl := true, corr := true, out := true } P = true) :
    Led P s (cutGroup a0 a1 a2 t) := by
  refine Led.lift h hw ?_
  unfold cutGroup
  with_reducible repeat' first | assumption | exact Led.refl _ _ | apply startGroup_led | apply agreeFence_led | with_unfolding_all exact Touch.holds rfl | fail_if_no_progress refine Led.record ?_ rfl

theorem namespaceChanged_led {P : Touch} {s t : State} (a0 a1) (h : Led P s t) (hw : Touch.within { hq := true, out := true } P = true) :
    Led P s (namespaceChanged a0 a1 t) := by
  refine Led.lift h hw ?_
  unfold namespaceChanged
  with_reducible repeat' first | assumption | exact Led.refl _ _ | apply notify_led | apply setController_led | with_unfolding_all exact Touch.holds rfl | (refine Led.foldl ?_ ?_; rotate_left; intro _ _ _) | fail_if_no_progress refine Led.record ?_ rfl | split

theorem createDomain_led {P : Touch} {s t : State} (a0 a1 a2) (h : Led P s t) (hw : Touch.within { trust := true, tally := true, ftl := true, ciph := true, corr := true, out := true, draws := true } P = true) :
    Led P s (createDomain a0 a1 a2 t) := by
  refine Led.lift h hw ?_
  unfold createDomain
  with_reducible repeat' first | assumption | exact Led.refl _ _ | apply drawn_led | apply setLocker_led | apply journal_led | with_unfolding_all exact Touch.holds rfl | fail_if_no_progress refine Led.record ?_ rfl

theorem volumeRecord_led {P : Touch} {s t : State} (a0 a1 a2) (h : Led P s t) (hw : Touch.within { trust := true, tally := true, ftl := true, corr := true, out := true } P = true) :
    Led P s (volumeRecord a0 a1 a2 t) := by
  refine Led.lift h hw ?_
  unfold volumeRecord
  with_reducible repeat' first | assumption | exact Led.refl _ _ | apply journal_led | with_unfolding_all exact Touch.holds rfl

theorem deleteRoot_led {P : Touch} {s t : State} (a0) (h : Led P s t) (hw : Touch.within { trust := true, diary := true, tally := true, ddp := true, ftl := true, corr := true, out := true } P = true) :
    Led P s (deleteRoot a0 t) := by
  refine Led.lift h hw ?_
  unfold deleteRoot
  with_reducible repeat' first | assumption | exact Led.refl _ _ | apply dropRoot_led | apply volumeRecord_led | apply freeMap_led | with_unfolding_all exact Touch.holds rfl

theorem sealRoot_led {P : Touch} {s t : State} (a0 a1) (h : Led P s t) (hw : Touch.within { trust := true, tally := true, ftl := true, ciph := true, corr := true, out := true } P = true) :
    Led P s (sealRoot a0 a1 t) := by
  refine Led.lift h hw ?_
  unfold sealRoot
  with_reducible repeat' first | assumption | exact Led.refl _ _ | apply extendMr_led | apply sendPeer_led | apply volumeRecord_led | apply setRoot_led | with_unfolding_all exact Touch.holds rfl | fail_if_no_progress refine Led.record ?_ rfl

theorem settleSnap_led {P : Touch} {s t : State} (a0 a1 a2) (h : Led P s t) (hw : Touch.within { trust := true, tally := true, ftl := true, ciph := true, corr := true, out := true } P = true) :
    Led P s (settleSnap a0 a1 a2 t) := by
  refine Led.lift h hw ?_
  unfold settleSnap
  with_reducible repeat' first | assumption | exact Led.refl _ _ | apply setRoot_led | apply volumeRecord_led | apply sealRoot_led | with_unfolding_all exact Touch.holds rfl | split

theorem settleGroup_led {P : Touch} {s t : State} (a0) (h : Led P s t) (hw : Touch.within { trust := true, cpi := true, diary := true, tally := true, ftl := true, ciph := true, repl := true, corr := true, out := true } P = true) :
    Led P s (settleGroup a0 t) := by
  refine Led.lift h hw ?_
  unfold settleGroup
  with_reducible repeat' first | assumption | exact Led.refl _ _ | apply settleSnap_led | apply agreeFence_led | apply changed_led | with_unfolding_all exact Touch.holds rfl | (refine Led.foldl ?_ ?_; rotate_left; intro _ _ _) | fail_if_no_progress refine Led.record ?_ rfl | split | dsimp only

theorem noPool_led {P : Touch} {s t : State} (a0) (h : Led P s t) (hw : Touch.within { trust := true, cpi := true, tally := true, corr := true, out := true } P = true) :
    Led P s (noPool a0 t) := by
  refine Led.lift h hw ?_
  unfold noPool
  with_reducible repeat' first | assumption | exact Led.refl _ _ | apply refuse_led | with_unfolding_all exact Touch.holds rfl

theorem execVolCreate_led {P : Touch} {s t : State} (a0 a1 a2) (h : Led P s t) (hw : Touch.within { trust := true, cpi := true, diary := true, tally := true, ftl := true, hq := true, corr := true, out := true } P = true) :
    LedO P s (execVolCreate a0 a1 a2 t) := by
  refine LedO.lift h hw ?_
  unfold execVolCreate
  with_reducible repeat' first | assumption | exact Led.refl _ _ | apply onPacket_led | apply noPool_led | apply refuse_led | apply badParam_led | apply pairWide_led | apply changed_led | apply namespaceChanged_led | apply volumeRecord_led | apply addRoot_led | with_unfolding_all exact Touch.holds rfl | apply LedO.next | refine LedO.ite ?_ ?_ | refine Led.ite ?_ ?_ | intro _ | fail_if_no_progress refine Led.record ?_ rfl | split

theorem dropVolume_led {P : Touch} {s t : State} (a0) (h : Led P s t) (hw : Touch.within { trust := true, tally := true, stg := true, ftl := true, bay := true, jobs := true, hq := true, repl := true, corr := true, out := true, draws := true } P = true) :
    Led P s (dropVolume a0 t) := by
  refine Led.lift h hw ?_
  unfold dropVolume
  with_reducible repeat' first | assumption | exact Led.refl _ _ | apply failWrite_led | with_unfolding_all exact Touch.holds rfl | (refine Led.foldl ?_ ?_; rotate_left; intro _ _ _) | fail_if_no_progress refine Led.record ?_ rfl | split

theorem execVolDelete_led {P : Touch} {s t : State} (a0 a1 a2) (h : Led P s t) (hw : Touch.within { trust := true, cpi := true, diary := true, tally := true, stg := true, ddp := true, ftl := true, bay := true, jobs := true, hq := true, repl := true, corr := true, out := true, draws := true } P = true) :
    LedO P s (execVolDelete a0 a1 a2 t) := by
  refine LedO.lift h hw ?_
  unfold execVolDelete
  with_reducible repeat' first | assumption | exact Led.refl _ _ | apply onPacket_led | apply badParam_led | apply wrongKind_led | apply pairWide_led | apply deleteRoot_led | apply dropVolume_led | apply changed_led | apply namespaceChanged_led | with_unfolding_all exact Touch.holds rfl | apply LedO.next | refine LedO.ite ?_ ?_ | refine Led.ite ?_ ?_ | intro _ | fail_if_no_progress refine Led.record ?_ rfl | split

theorem execVolResize_led {P : Touch} {s t : State} (a0 a1 a2) (h : Led P s t) (hw : Touch.within { trust := true, cpi := true, diary := true, tally := true, stg := true, ddp := true, ftl := true, hq := true, corr := true, out := true } P = true) :
    LedO P s (execVolResize a0 a1 a2 t) := by
  refine LedO.lift h hw ?_
  unfold execVolResize
  with_reducible repeat' first | assumption | exact Led.refl _ _ | apply onPacket_led | apply badParam_led | apply wrongKind_led | apply pairWide_led | apply setMap_led | apply changed_led | apply namespaceChanged_led | apply volumeRecord_led | apply setRoot_led | with_unfolding_all exact Touch.holds rfl | apply LedO.next | refine LedO.ite ?_ ?_ | refine Led.ite ?_ ?_ | intro _ | (refine Led.foldl ?_ ?_; rotate_left; intro _ _ _) | fail_if_no_progress refine Led.record ?_ rfl | split | dsimp only

theorem execVolSet_led {P : Touch} {s t : State} (a0 a1 a2) (h : Led P s t) (hw : Touch.within { trust := true, cpi := true, diary := true, tally := true, ftl := true, corr := true, out := true } P = true) :
    LedO P s (execVolSet a0 a1 a2 t) := by
  refine LedO.lift h hw ?_
  unfold execVolSet
  with_reducible repeat' first | assumption | exact Led.refl _ _ | apply onPacket_led | apply badParam_led | apply wrongKind_led | apply pairWide_led | apply changed_led | apply setRoot_led | with_unfolding_all exact Touch.holds rfl | apply LedO.next | refine LedO.ite ?_ ?_ | refine Led.ite ?_ ?_ | intro _ | fail_if_no_progress refine Led.record ?_ rfl | split

theorem execVolQuery_led {P : Touch} {s t : State} (a0 a1) (h : Led P s t) (hw : Touch.within { trust := true, cpi := true, tally := true, corr := true, out := true } P = true) :
    LedO P s (execVolQuery a0 a1 t) := by
  refine LedO.lift h hw ?_
  unfold execVolQuery
  with_reducible repeat' first | assumption | exact Led.refl _ _ | apply onPacket_led | apply badParam_led | apply answered_led | with_unfolding_all exact Touch.holds rfl | apply LedO.next | refine LedO.ite ?_ ?_ | refine Led.ite ?_ ?_ | intro _ | fail_if_no_progress refine Led.record ?_ rfl | split

theorem execDomainCreate_led {P : Touch} {s t : State} (a0 a1 a2) (h : Led P s t) (hw : Touch.within { trust := true, cpi := true, diary := true, tally := true, ftl := true, ciph := true, repl := true, corr := true, out := true, draws := true } P = true) :
    LedO P s (execDomainCreate a0 a1 a2 t) := by
  refine LedO.lift h hw ?_
  unfold execDomainCreate
  with_reducible repeat' first | assumption | exact Led.refl _ _ | apply onPacket_led | apply noPool_led | apply refuse_led | apply badParam_led | apply pairWide_led | apply changed_led | apply createDomain_led | with_unfolding_all exact Touch.holds rfl | apply LedO.next | refine LedO.ite ?_ ?_ | refine Led.ite ?_ ?_ | intro _ | fail_if_no_progress refine Led.record ?_ rfl

theorem dropDomainIndex_led {P : Touch} {s t : State} (a0) (h : Led P s t) (hw : Touch.within { trust := true, tally := true, ddp := true, ftl := true, corr := true, out := true } P = true) :
    Led P s (dropDomainIndex a0 t) := by
  refine Led.lift h hw ?_
  unfold dropDomainIndex
  with_reducible repeat' first | assumption | exact Led.refl _ _ | apply indexChange_led | with_unfolding_all exact Touch.holds rfl | (refine Led.foldl ?_ ?_; rotate_left; intro _ _ _) | fail_if_no_progress refine Led.record ?_ rfl | split

theorem execDomainDelete_led {P : Touch} {s t : State} (a0 a1 a2) (h : Led P s t) (hw : Touch.within { trust := true, cpi := true, diary := true, tally := true, ddp := true, ftl := true, ciph := true, corr := true, out := true } P = true) :
    LedO P s (execDomainDelete a0 a1 a2 t) := by
  refine LedO.lift h hw ?_
  unfold execDomainDelete
  with_reducible repeat' first | assumption | exact Led.refl _ _ | apply onPacket_led | apply badParam_led | apply refuseSealed_led | apply refuse_led | apply pairWide_led | apply changeLocker_led | apply dropDomainIndex_led | apply journal_led | apply changed_led | with_unfolding_all exact Touch.holds rfl | apply LedO.next | refine LedO.ite ?_ ?_ | refine Led.ite ?_ ?_ | intro _ | fail_if_no_progress refine Led.record ?_ rfl | split | dsimp only

theorem execDomainVerify_led {P : Touch} {s t : State} (a0 a1 a2) (h : Led P s t) (hw : Touch.within { trust := true, cpi := true, diary := true, tally := true, ftl := true, corr := true, out := true } P = true) :
    LedO P s (execDomainVerify a0 a1 a2 t) := by
  refine LedO.lift h hw ?_
  unfold execDomainVerify
  with_reducible repeat' first | assumption | exact Led.refl _ _ | apply onPacket_led | apply badParam_led | apply pairWide_led | apply changed_led | with_unfolding_all exact Touch.holds rfl | apply LedO.next | refine LedO.ite ?_ ?_ | refine Led.ite ?_ ?_ | intro _ | fail_if_no_progress refine Led.record ?_ rfl | split

theorem execSnapSeal_led {P : Touch} {s t : State} (a0 a1 a2) (h : Led P s t) (hw : Touch.within { trust := true, cpi := true, diary := true, tally := true, ftl := true, ciph := true, corr := true, out := true } P = true) :
    LedO P s (execSnapSeal a0 a1 a2 t) := by
  refine LedO.lift h hw ?_
  unfold execSnapSeal
  with_reducible repeat' first | assumption | exact Led.refl _ _ | apply onPacket_led | apply badParam_led | apply wrongKind_led | apply refuse_led | apply refuseSealed_led | apply pairWide_led | apply changed_led | apply sealRoot_led | with_unfolding_all exact Touch.holds rfl | apply LedO.next | refine LedO.ite ?_ ?_ | refine Led.ite ?_ ?_ | intro _ | fail_if_no_progress refine Led.record ?_ rfl | split

theorem execSnapDelete_led {P : Touch} {s t : State} (a0 a1 a2 a3) (h : Led P s t) (hw : Touch.within { trust := true, cpi := true, diary := true, tally := true, ddp := true, ftl := true, corr := true, out := true } P = true) :
    LedO P s (execSnapDelete a0 a1 a2 a3 t) := by
  refine LedO.lift h hw ?_
  unfold execSnapDelete
  with_reducible repeat' first | assumption | exact Led.refl _ _ | apply onPacket_led | apply badParam_led | apply wrongKind_led | apply refuse_led | apply refuseSealed_led | apply pairWide_led | apply deleteRoot_led | apply changed_led | with_unfolding_all exact Touch.holds rfl | apply LedO.next | refine LedO.ite ?_ ?_ | refine Led.ite ?_ ?_ | intro _ | fail_if_no_progress refine Led.record ?_ rfl | split

theorem execSnapQuery_led {P : Touch} {s t : State} (a0 a1) (h : Led P s t) (hw : Touch.within { trust := true, cpi := true, tally := true, corr := true, out := true } P = true) :
    LedO P s (execSnapQuery a0 a1 t) := by
  refine LedO.lift h hw ?_
  unfold execSnapQuery
  with_reducible repeat' first | assumption | exact Led.refl _ _ | apply onPacket_led | apply badParam_led | apply answered_led | with_unfolding_all exact Touch.holds rfl | apply LedO.next | refine LedO.ite ?_ ?_ | refine Led.ite ?_ ?_ | intro _ | fail_if_no_progress refine Led.record ?_ rfl | split

theorem execCloneCreate_led {P : Touch} {s t : State} (a0 a1 a2) (h : Led P s t) (hw : Touch.within { trust := true, cpi := true, diary := true, tally := true, ftl := true, hq := true, corr := true, out := true } P = true) :
    LedO P s (execCloneCreate a0 a1 a2 t) := by
  refine LedO.lift h hw ?_
  unfold execCloneCreate
  with_reducible repeat' first | assumption | exact Led.refl _ _ | apply onPacket_led | apply badParam_led | apply wrongKind_led | apply refuse_led | apply pairWide_led | apply changed_led | apply namespaceChanged_led | apply volumeRecord_led | apply addRoot_led | with_unfolding_all exact Touch.holds rfl | apply LedO.next | refine LedO.ite ?_ ?_ | refine Led.ite ?_ ?_ | intro _ | fail_if_no_progress refine Led.record ?_ rfl | split

theorem execSnapCreate_led {P : Touch} {s t : State} (a0 a1) (h : Led P s t) (hw : Touch.within { trust := true, cpi := true, tally := true, ftl := true, repl := true, corr := true, out := true } P = true) :
    LedO P s (execSnapCreate a0 a1 t) := by
  refine LedO.lift h hw ?_
  unfold execSnapCreate
  with_reducible repeat' first | assumption | exact Led.refl _ _ | apply onPacket_led | apply badParam_led | apply refuse_led | apply wrongKind_led | apply cutGroup_led | with_unfolding_all exact Touch.holds rfl | apply LedO.next | refine LedO.ite ?_ ?_ | refine Led.ite ?_ ?_ | intro _ | fail_if_no_progress refine Led.record ?_ rfl | split | dsimp only

theorem execSnapFence_led {P : Touch} {s t : State} (a0 a1 a2 a3) (h : Led P s t) (hw : Touch.within { trust := true, tally := true, ftl := true, ciph := true, repl := true, corr := true, out := true } P = true) :
    LedO P s (execSnapFence a0 a1 a2 a3 t) := by
  refine LedO.lift h hw ?_
  unfold execSnapFence
  with_reducible repeat' first | assumption | exact Led.refl _ _ | apply onMessage_led | apply settleNumber_led | apply fenceBell_led | apply setGroupOf_led | apply startGroup_led | apply reply_led | with_unfolding_all exact Touch.holds rfl | apply LedO.next | refine LedO.ite ?_ ?_ | refine Led.ite ?_ ?_ | intro _ | fail_if_no_progress refine Led.record ?_ rfl | split | dsimp only

theorem releaseNs_led {P : Touch} {s t : State} (a0) (h : Led P s t) (hw : Touch.within { hq := true } P = true) :
    Led P s (releaseNs a0 t) := by
  refine Led.lift h hw ?_
  unfold releaseNs
  exact Led.record (.refl _ _) rfl

theorem setMigration_led {P : Touch} {s t : State} (a0) (h : Led P s t) (hw : Touch.within { repl := true } P = true) :
    Led P s (setMigration a0 t) := by
  refine Led.lift h hw ?_
  unfold setMigration
  exact Led.record (.refl _ _) rfl

theorem cutoverFails_led {P : Touch} {s t : State} (a0 a1 a2) (h : Led P s t) (hw : Touch.within { trust := true, cpi := true, tally := true, hq := true, repl := true, corr := true, out := true } P = true) :
    Led P s (cutoverFails a0 a1 a2 t) := by
  refine Led.lift h hw ?_
  unfold cutoverFails
  with_reducible repeat' first | assumption | exact Led.refl _ _ | apply releaseNs_led | apply setMigration_led | apply refuse_led | with_unfolding_all exact Touch.holds rfl | fail_if_no_progress refine Led.record ?_ rfl | split | dsimp only

theorem failTransfer_led {P : Touch} {s t : State} (a0 a1 a2) (h : Led P s t) (hw : Touch.within { trust := true, cpi := true, tally := true, hq := true, repl := true, corr := true, out := true } P = true) :
    Led P s (failTransfer a0 a1 a2 t) := by
  refine Led.lift h hw ?_
  unfold failTransfer
  with_reducible repeat' first | assumption | exact Led.refl _ _ | apply refuse_led | apply cutoverFails_led | apply releaseNs_led | with_unfolding_all exact Touch.holds rfl | (refine Led.foldl ?_ ?_; rotate_left; intro _ _ _) | fail_if_no_progress refine Led.record ?_ rfl | split | dsimp only

theorem failTransfers_led {P : Touch} {s t : State} (a0 a1) (h : Led P s t) (hw : Touch.within { trust := true, cpi := true, tally := true, hq := true, repl := true, corr := true, out := true } P = true) :
    Led P s (failTransfers a0 a1 t) := by
  refine Led.lift h hw ?_
  unfold failTransfers
  with_reducible repeat' first | assumption | exact Led.refl _ _ | apply failTransfer_led | with_unfolding_all exact Touch.holds rfl | (refine Led.foldl ?_ ?_; rotate_left; intro _ _ _) | fail_if_no_progress refine Led.record ?_ rfl | split

theorem dropSession_led {P : Touch} {s t : State} (a0) (h : Led P s t) (hw : Touch.within { repl := true } P = true) :
    Led P s (dropSession a0 t) := by
  refine Led.lift h hw ?_
  unfold dropSession
  with_reducible repeat' first | assumption | exact Led.refl _ _ | with_unfolding_all exact Touch.holds rfl | fail_if_no_progress refine Led.record ?_ rfl | split

theorem closeSession_led {P : Touch} {s t : State} (a0) (h : Led P s t) (hw : Touch.within { trust := true, cpi := true, diary := true, tally := true, ftl := true, ciph := true, hq := true, repl := true, corr := true, out := true } P = true) :
    Led P s (closeSession a0 t) := by
  refine Led.lift h hw ?_
  unfold closeSession
  with_reducible repeat' first | assumption | exact Led.refl _ _ | apply sendSegment_led | apply failTransfers_led | apply dropSession_led | apply changed_led | with_unfolding_all exact Touch.holds rfl | fail_if_no_progress refine Led.record ?_ rfl | split | dsimp only

theorem closeIdle_led {P : Touch} {s t : State} (h : Led P s t) (hw : Touch.within { trust := true, cpi := true, diary := true, tally := true, ftl := true, ciph := true, hq := true, repl := true, corr := true, out := true } P = true) :
    Led P s (closeIdle t) := by
  refine Led.lift h hw ?_
  unfold closeIdle
  with_reducible repeat' first | assumption | exact Led.refl _ _ | apply closeSession_led | with_unfolding_all exact Touch.holds rfl | (refine Led.foldl ?_ ?_; rotate_left; intro _ _ _) | fail_if_no_progress refine Led.record ?_ rfl | split

theorem endSession_led {P : Touch} {s t : State} (a0 a1 a2 a3) (h : Led P s t) (hw : Touch.within { trust := true, cpi := true, tally := true, hq := true, repl := true, corr := true, out := true } P = true) :
    Led P s (endSession a0 a1 a2 a3 t) := by
  refine Led.lift h hw ?_
  unfold endSession
  with_reducible repeat' first | assumption | exact Led.refl _ _ | apply failTransfers_led | apply dropSession_led | apply refuse_led | with_unfolding_all exact Touch.holds rfl | fail_if_no_progress refine Led.record ?_ rfl | split | dsimp only

theorem endFailed_led {P : Touch} {s t : State} (h : Led P s t) (hw : Touch.within { trust := true, cpi := true, tally := true, hq := true, repl := true, corr := true, out := true } P = true) :
    Led P s (endFailed t) := by
  refine Led.lift h hw ?_
  unfold endFailed
  with_reducible repeat' first | assumption | exact Led.refl _ _ | apply endSession_led | with_unfolding_all exact Touch.holds rfl | (refine Led.foldl ?_ ?_; rotate_left; intro _ _ _) | fail_if_no_progress refine Led.record ?_ rfl | split

theorem execReplPartnerAdd_led {P : Touch} {s t : State} (a0 a1) (h : Led P s t) (hw : Touch.within { trust := true, cpi := true, diary := true, tally := true, repl := true, corr := true, out := true } P = true) :
    LedO P s (execReplPartnerAdd a0 a1 t) := by
  refine LedO.lift h hw ?_
  unfold execReplPartnerAdd
  with_reducible repeat' first | assumption | exact Led.refl _ _ | apply onPacket_led | apply refuse_led | apply changed_led | with_unfolding_all exact Touch.holds rfl | apply LedO.next | refine LedO.ite ?_ ?_ | refine Led.ite ?_ ?_ | intro _ | fail_if_no_progress refine Led.record ?_ rfl

theorem execReplPartnerRemove_led {P : Touch} {s t : State} (a0 a1) (h : Led P s t) (hw : Touch.within { trust := true, cpi := true, diary := true, tally := true, ftl := true, ciph := true, hq := true, repl := true, corr := true, out := true } P = true) :
    LedO P s (execReplPartnerRemove a0 a1 t) := by
  refine LedO.lift h hw ?_
  unfold execReplPartnerRemove
  with_reducible repeat' first | assumption | exact Led.refl _ _ | apply onPacket_led | apply badParam_led | apply changed_led | apply closeSession_led | with_unfolding_all exact Touch.holds rfl | apply LedO.next | refine LedO.ite ?_ ?_ | refine Led.ite ?_ ?_ | intro _ | (refine Led.foldl ?_ ?_; rotate_left; intro _ _ _) | fail_if_no_progress refine Led.record ?_ rfl | split

theorem offerSession_led {P : Touch} {s t : State} (a0 a1 a2 a3 a4) (h : Led P s t) (hw : Touch.within { repl := true, out := true, draws := true } P = true) :
    Led P s (offerSession a0 a1 a2 a3 a4 t) := by
  refine Led.lift h hw ?_
  unfold offerSession
  exact Led.record (.refl _ _) rfl

theorem execReplSessionOpen_led {P : Touch} {s t : State} (a0 a1) (h : Led P s t) (hw : Touch.within { trust := true, cpi := true, tally := true, repl := true, corr := true, out := true, draws := true } P = true) :
    LedO P s (execReplSessionOpen a0 a1 t) := by
  refine LedO.lift h hw ?_
  unfold execReplSessionOpen
  with_reducible repeat' first | assumption | exact Led.refl _ _ | apply onPacket_led | apply noPool_led | apply badParam_led | apply refuse_led | apply offerSession_led | with_unfolding_all exact Touch.holds rfl | apply LedO.next | refine LedO.ite ?_ ?_ | refine Led.ite ?_ ?_ | intro _ | fail_if_no_progress refine Led.record ?_ rfl | split

theorem execOffer_led {P : Touch} {s t : State} (a0 a1) (h : Led P s t) (hw : Touch.within { repl := true, out := true, draws := true } P = true) :
    LedO P s (execOffer a0 a1 t) := by
  refine LedO.lift h hw ?_
  unfold execOffer
  with_reducible repeat' first | assumption | exact Led.refl _ _ | apply emit_led | apply drawn_led | with_unfolding_all exact Touch.holds rfl | apply LedO.next | fail_if_no_progress refine Led.record ?_ rfl | split

theorem refuseSession_led {P : Touch} {s t : State} (a0 a1 a2) (h : Led P s t) (hw : Touch.within { trust := true, cpi := true, tally := true, hq := true, repl := true, corr := true, out := true } P = true) :
    Led P s (refuseSession a0 a1 a2 t) := by
  refine Led.lift h hw ?_
  unfold refuseSession
  with_reducible repeat' first | assumption | exact Led.refl _ _ | apply endSession_led | apply emit_led | with_unfolding_all exact Touch.holds rfl

theorem execAccept_led {P : Touch} {s t : State} (a0 a1) (h : Led P s t) (hw : Touch.within { trust := true, cpi := true, tally := true, hq := true, repl := true, corr := true, out := true } P = true) :
    LedO P s (execAccept a0 a1 t) := by
  refine LedO.lift h hw ?_
  unfold execAccept
  with_reducible repeat' first | assumption | exact Led.refl _ _ | apply whenDue_led | apply refuseSession_led | apply emit_led | apply setSession_led | with_unfolding_all exact Touch.holds rfl | apply LedO.next | split

theorem openSession_led {P : Touch} {s t : State} (a0) (h : Led P s t) (hw : Touch.within { trust := true, cpi := true, diary := true, tally := true, ftl := true, ciph := true, hq := true, repl := true, corr := true, out := true } P = true) :
    Led P s (openSession a0 t) := by
  refine Led.lift h hw ?_
  unfold openSession
  with_reducible repeat' first | assumption | exact Led.refl _ _ | apply setSession_led | apply closeIdle_led | apply changed_led | with_unfolding_all exact Touch.holds rfl | fail_if_no_progress refine Led.record ?_ rfl | split | dsimp only

theorem execProve_led {P : Touch} {s t : State} (a0 a1) (h : Led P s t) (hw : Touch.within { trust := true, cpi := true, diary := true, tally := true, ftl := true, ciph := true, hq := true, repl := true, corr := true, out := true } P = true) :
    LedO P s (execProve a0 a1 t) := by
  refine LedO.lift h hw ?_
  unfold execProve
  with_reducible repeat' first | assumption | exact Led.refl _ _ | apply whenDue_led | apply refuseSession_led | apply tallyAdd_led | apply openSession_led | apply emit_led | with_unfolding_all exact Touch.holds rfl | apply LedO.next | split

theorem execRefuse_led {P : Touch} {s t : State} (a0 a1) (h : Led P s t) (hw : Touch.within { trust := true, cpi := true, tally := true, hq := true, repl := true, corr := true, out := true } P = true) :
    LedO P s (execRefuse a0 a1 t) := by
  refine LedO.lift h hw ?_
  unfold execRefuse
  with_reducible repeat' first | assumption | exact Led.refl _ _ | apply whenDue_led | apply endSession_led | with_unfolding_all exact Touch.holds rfl | apply LedO.next | split

theorem execHandshakeTimeout_led {P : Touch} {s t : State} (a0) (h : Led P s t) (hw : Touch.within { trust := true, cpi := true, tally := true, hq := true, repl := true, corr := true, out := true } P = true) :
    LedO P s (execHandshakeTimeout a0 t) := by
  refine LedO.lift h hw ?_
  unfold execHandshakeTimeout
  with_reducible repeat' first | assumption | exact Led.refl _ _ | apply whenDue_led | apply refuseSession_led | with_unfolding_all exact Touch.holds rfl | apply LedO.next | split

theorem execSessionRekey_led {P : Touch} {s t : State} (a0) (h : Led P s t) (hw : Touch.within { repl := true, out := true, draws := true } P = true) :
    LedO P s (execSessionRekey a0 t) := by
  refine LedO.lift h hw ?_
  unfold execSessionRekey
  with_reducible repeat' first | assumption | exact Led.refl _ _ | apply whenDue_led | apply offerSession_led | with_unfolding_all exact Touch.holds rfl | apply LedO.next | split

theorem execSegmentSendTimer_led {P : Touch} {s t : State} (a0) (h : Led P s t) (hw : Touch.within { trust := true, tally := true, ftl := true, ciph := true, repl := true, corr := true, out := true } P = true) :
    LedO P s (execSegmentSendTimer a0 t) := by
  refine LedO.lift h hw ?_
  unfold execSegmentSendTimer
  with_reducible repeat' first | assumption | exact Led.refl _ _ | apply whenDue_led | apply sendFull_led | apply sendRecord_led | with_unfolding_all exact Touch.holds rfl | apply LedO.next | split

theorem execReplSessionClose_led {P : Touch} {s t : State} (a0 a1) (h : Led P s t) (hw : Touch.within { trust := true, cpi := true, diary := true, tally := true, ftl := true, ciph := true, hq := true, repl := true, corr := true, out := true } P = true) :
    LedO P s (execReplSessionClose a0 a1 t) := by
  refine LedO.lift h hw ?_
  unfold execReplSessionClose
  with_reducible repeat' first | assumption | exact Led.refl _ _ | apply onPacket_led | apply badParam_led | apply closeIdle_led | apply setSession_led | with_unfolding_all exact Touch.holds rfl | apply LedO.next | refine LedO.ite ?_ ?_ | refine Led.ite ?_ ?_ | intro _ | fail_if_no_progress refine Led.record ?_ rfl | split

theorem setTransfer_led {P : Touch} {s t : State} (a0) (h : Led P s t) (hw : Touch.within { repl := true } P = true) :
    Led P s (setTransfer a0 t) := by
  refine Led.lift h hw ?_
  unfold setTransfer
  exact Led.record (.refl _ _) rfl

theorem abortTransfer_led {P : Touch} {s t : State} (a0 a1 a2) (h : Led P s t) (hw : Touch.within { trust := true, cpi := true, tally := true, ftl := true, ciph := true, hq := true, repl := true, corr := true, out := true } P = true) :
    Led P s (abortTransfer a0 a1 a2 t) := by
  refine Led.lift h hw ?_
  unfold abortTransfer
  with_reducible repeat' first | assumption | exact Led.refl _ _ | apply failTransfer_led | apply sendRecord_led | with_unfolding_all exact Touch.holds rfl

theorem sendEnd_led {P : Touch} {s t : State} (a0) (h : Led P s t) (hw : Touch.within { trust := true, tally := true, ftl := true, ciph := true, repl := true, corr := true, out := true } P = true) :
    Led P s (sendEnd a0 t) := by
  refine Led.lift h hw ?_
  unfold sendEnd
  with_reducible repeat' first | assumption | exact Led.refl _ _ | apply sendRecord_led | apply setTransfer_led | with_unfolding_all exact Touch.holds rfl | split

theorem serveGrain_led {P : Touch} {s t : State} (a0 a1 a2 a3) (h : Led P s t) (hw : Touch.within { trust := true, cpi := true, tally := true, ftl := true, bay := true, ciph := true, jobs := true, hq := true, repl := true, corr := true, out := true } P = true) :
    Led P s (serveGrain a0 a1 a2 a3 t) := by
  refine Led.lift h hw ?_
  unfold serveGrain
  repeat' first
    | with_reducible assumption | with_reducible exact Led.refl _ _ | with_reducible apply abortTransfer_led | with_reducible apply startRead_led | with_reducible apply setTransfer_led | with_reducible apply reconstructSlot_led | with_reducible apply sendRecord_led | with_reducible apply sendEnd_led
    | with_reducible apply LedO.next | with_reducible exact LedOpt.none | with_reducible apply LedOpt.some
    | with_reducible exact LedPair.none | with_reducible apply LedPair.some | with_reducible apply LedSum.inl | with_reducible exact LedSum.inr
    | (with_reducible refine Led.foldl ?_ ?_; rotate_left; intro _ _ _)
    | (with_reducible refine Led.foldlFst ?_ ?_; rotate_left; intro _ _ _ _)
    | (with_reducible refine Led.foldlSnd ?_ ?_; rotate_left; intro _ _ _ _)
    | with_reducible intro _
    | with_reducible refine Led.ofFst ‹_ = (_, _)› ?_ | with_reducible refine Led.ofSnd ‹_ = (_, _)› ?_
    | with_reducible refine Led.ofSome ‹_ = some _› ?_ | with_reducible refine Led.ofInl ‹_ = Sum.inl _› ?_
    | with_reducible refine Led.ofPair ‹_ = some (_, _)› ?_
    | with_reducible refine Led.getD ?_ ?_ | with_reducible refine LedOpt.bind ?_ ?_ | with_reducible refine LedOpt.map ?_ ?_ | with_reducible refine LedOpt.bindVal ?_
    | with_reducible refine Led.ite ?_ ?_ | with_reducible refine LedO.ite ?_ ?_ | with_reducible refine LedOpt.ite ?_ ?_
    | with_reducible refine LedPair.ite ?_ ?_ | with_reducible refine LedSum.ite ?_ ?_
    | fail_if_no_progress (with_reducible refine Led.record ?_ rfl)
    | exact Touch.holds rfl | exact Touch.within_trans rfl ‹_› | split
    | dsimp only
    | dsimp only [id]

theorem serveHanded_led {P : Touch} {s t : State} (a0) (h : Led P s t) (hw : Touch.within { trust := true, cpi := true, tally := true, ftl := true, bay := true, ciph := true, jobs := true, hq := true, repl := true, corr := true, out := true } P = true) :
    Led P s (serveHanded a0 t) := by
  suffices H : ∀ s t, Led { trust := true, cpi := true, tally := true, ftl := true, bay := true, ciph := true, jobs := true, hq := true, repl := true, corr := true, out := true } s t → Led { trust := true, cpi := true, tally := true, ftl := true, bay := true, ciph := true, jobs := true, hq := true, repl := true, corr := true, out := true } s (serveHanded a0 t) from Led.lift h hw (H _ _ (.refl _ _))
  clear h hw
  intro s t h
  induction a0 generalizing  t with
  | zero =>
    unfold serveHanded
    repeat' first
      | with_reducible assumption | with_reducible exact Led.refl _ _ | with_reducible apply serveGrain_led | with_reducible apply ih
      | with_reducible apply LedO.next | with_reducible exact LedOpt.none | with_reducible apply LedOpt.some
      | with_reducible exact LedPair.none | with_reducible apply LedPair.some | with_reducible apply LedSum.inl | with_reducible exact LedSum.inr
      | (with_reducible refine Led.foldl ?_ ?_; rotate_left; intro _ _ _)
      | (with_reducible refine Led.foldlFst ?_ ?_; rotate_left; intro _ _ _ _)
      | (with_reducible refine Led.foldlSnd ?_ ?_; rotate_left; intro _ _ _ _)
      | with_reducible intro _
      | with_reducible refine Led.ofFst ‹_ = (_, _)› ?_ | with_reducible refine Led.ofSnd ‹_ = (_, _)› ?_
      | with_reducible refine Led.ofSome ‹_ = some _› ?_ | with_reducible refine Led.ofInl ‹_ = Sum.inl _› ?_
      | with_reducible refine Led.ofPair ‹_ = some (_, _)› ?_
      | with_reducible refine Led.getD ?_ ?_ | with_reducible refine LedOpt.bind ?_ ?_ | with_reducible refine LedOpt.map ?_ ?_ | with_reducible refine LedOpt.bindVal ?_
      | with_reducible refine Led.ite ?_ ?_ | with_reducible refine LedO.ite ?_ ?_ | with_reducible refine LedOpt.ite ?_ ?_
      | with_reducible refine LedPair.ite ?_ ?_ | with_reducible refine LedSum.ite ?_ ?_
      | fail_if_no_progress (with_reducible refine Led.record ?_ rfl)
      | exact Touch.holds rfl | exact Touch.within_trans rfl ‹_› | split
      | dsimp only
      | dsimp only [id]
  | succ _ ih =>
    unfold serveHanded
    repeat' first
      | with_reducible assumption | with_reducible exact Led.refl _ _ | with_reducible apply serveGrain_led | with_reducible apply ih
      | with_reducible apply LedO.next | with_reducible exact LedOpt.none | with_reducible apply LedOpt.some
      | with_reducible exact LedPair.none | with_reducible apply LedPair.some | with_reducible apply LedSum.inl | with_reducible exact LedSum.inr
      | (with_reducible refine Led.foldl ?_ ?_; rotate_left; intro _ _ _)
      | (with_reducible refine Led.foldlFst ?_ ?_; rotate_left; intro _ _ _ _)
      | (with_reducible refine Led.foldlSnd ?_ ?_; rotate_left; intro _ _ _ _)
      | with_reducible intro _
      | with_reducible refine Led.ofFst ‹_ = (_, _)› ?_ | with_reducible refine Led.ofSnd ‹_ = (_, _)› ?_
      | with_reducible refine Led.ofSome ‹_ = some _› ?_ | with_reducible refine Led.ofInl ‹_ = Sum.inl _› ?_
      | with_reducible refine Led.ofPair ‹_ = some (_, _)› ?_
      | with_reducible refine Led.getD ?_ ?_ | with_reducible refine LedOpt.bind ?_ ?_ | with_reducible refine LedOpt.map ?_ ?_ | with_reducible refine LedOpt.bindVal ?_
      | with_reducible refine Led.ite ?_ ?_ | with_reducible refine LedO.ite ?_ ?_ | with_reducible refine LedOpt.ite ?_ ?_
      | with_reducible refine LedPair.ite ?_ ?_ | with_reducible refine LedSum.ite ?_ ?_
      | fail_if_no_progress (with_reducible refine Led.record ?_ rfl)
      | exact Touch.holds rfl | exact Touch.within_trans rfl ‹_› | split
      | dsimp only
      | dsimp only [id]

theorem dropHanded_led {P : Touch} {s t : State} (h : Led P s t) (hw : Touch.within { jobs := true } P = true) :
    Led P s (dropHanded t) := by
  refine Led.lift h hw ?_
  unfold dropHanded
  exact Led.record (.refl _ _) rfl

theorem dropStaged_led {P : Touch} {s t : State} (a0) (h : Led P s t) (hw : Touch.within { stg := true } P = true) :
    Led P s (dropStaged a0 t) := by
  refine Led.lift h hw ?_
  unfold dropStaged
  exact Led.record (.refl _ _) rfl

theorem checkReplicas_led {P : Touch} {s t : State} (h : Led P s t) (hw : Touch.within { trust := true, cpi := true, tally := true, stg := true, ftl := true, ciph := true, hq := true, repl := true, corr := true, out := true } P = true) :
    Led P s (checkReplicas t) := by
  refine Led.lift h hw ?_
  unfold checkReplicas
  with_reducible repeat' first | assumption | exact Led.refl _ _ | apply abortTransfer_led | apply dropStaged_led | with_unfolding_all exact Touch.holds rfl | (refine Led.foldl ?_ ?_; rotate_left; intro _ _ _) | fail_if_no_progress refine Led.record ?_ rfl | split | dsimp only

theorem writeReplica_led {P : Touch} {s t : State} (a0 a1 a2 a3 a4 a5 a6 a7) (h : Led P s t) (hw : Touch.within { trust := true, tally := true, stg := true, ftl := true, bay := true, ciph := true, jobs := true, hq := true, repl := true, corr := true, out := true, draws := true } P = true) :
    Led P s (writeReplica a0 a1 a2 a3 a4 a5 a6 a7 t) := by
  refine Led.lift h hw ?_
  unfold writeReplica
  with_reducible repeat' first | assumption | exact Led.refl _ _ | apply placeData_led | apply writeProgress_led | with_unfolding_all exact Touch.holds rfl | fail_if_no_progress refine Led.record ?_ rfl

theorem startTransfer_led {P : Touch} {s t : State} (a0 a1 a2 a3 a4 a5) (h : Led P s t) (hw : Touch.within { trust := true, tally := true, ftl := true, ciph := true, repl := true, corr := true, out := true } P = true) :
    Led P s (startTransfer a0 a1 a2 a3 a4 a5 t) := by
  refine Led.lift h hw ?_
  unfold startTransfer
  with_reducible repeat' first | assumption | exact Led.refl _ _ | apply sendRecord_led | with_unfolding_all exact Touch.holds rfl | fail_if_no_progress refine Led.record ?_ rfl | split

theorem dropTransfer_led {P : Touch} {s t : State} (a0) (h : Led P s t) (hw : Touch.within { trust := true, cpi := true, diary := true, tally := true, ftl := true, ciph := true, hq := true, repl := true, corr := true, out := true } P = true) :
    Led P s (dropTransfer a0 t) := by
  refine Led.lift h hw ?_
  unfold dropTransfer
  with_reducible repeat' first | assumption | exact Led.refl _ _ | apply closeIdle_led | with_unfolding_all exact Touch.holds rfl | fail_if_no_progress refine Led.record ?_ rfl

theorem attachReplica_led {P : Touch} {s t : State} (a0) (h : Led P s t) (hw : Touch.within { ftl := true, hq := true, out := true } P = true) :
    Led P s (attachReplica a0 t) := by
  refine Led.lift h hw ?_
  unfold attachReplica
  with_reducible repeat' first | assumption | exact Led.refl _ _ | apply notifyAll_led | apply namespaceChanged_led | apply setRoot_led | with_unfolding_all exact Touch.holds rfl | fail_if_no_progress refine Led.record ?_ rfl | split | dsimp only

theorem commitReplica_led {P : Touch} {s t : State} (a0 a1 a2) (h : Led P s t) (hw : Touch.within { trust := true, cpi := true, diary := true, tally := true, ddp := true, ftl := true, ciph := true, hq := true, repl := true, corr := true, out := true } P = true) :
    Led P s (commitReplica a0 a1 a2 t) := by
  refine Led.lift h hw ?_
  unfold commitReplica
  with_reducible repeat' first | assumption | exact Led.refl _ _ | apply setRoot_led | apply sealRoot_led | apply dropTransfer_led | apply sendRecord_led | apply volumeRecord_led | apply attachReplica_led | apply deleteRoot_led | with_unfolding_all exact Touch.holds rfl | split

theorem execReplAsyncSend_led {P : Touch} {s t : State} (a0 a1) (h : Led P s t) (hw : Touch.within { trust := true, cpi := true, tally := true, ftl := true, ciph := true, repl := true, corr := true, out := true } P = true) :
    LedO P s (execReplAsyncSend a0 a1 t) := by
  refine LedO.lift h hw ?_
  unfold execReplAsyncSend
  with_reducible repeat' first | assumption | exact Led.refl _ _ | apply onPacket_led | apply badParam_led | apply wrongKind_led | apply refuse_led | apply startTransfer_led | with_unfolding_all exact Touch.holds rfl | apply LedO.next | refine LedO.ite ?_ ?_ | refine Led.ite ?_ ?_ | intro _ | fail_if_no_progress refine Led.record ?_ rfl | split

theorem execWant_led {P : Touch} {s t : State} (a0 a1 a2) (h : Led P s t) (hw : Touch.within { trust := true, tally := true, ftl := true, bay := true, ciph := true, jobs := true, repl := true, corr := true, out := true } P = true) :
    LedO P s (execWant a0 a1 a2 t) := by
  refine LedO.lift h hw ?_
  unfold execWant
  with_reducible repeat' first | assumption | exact Led.refl _ _ | apply startRead_led | apply setTransfer_led | apply sendEnd_led | with_unfolding_all exact Touch.holds rfl | apply LedO.next | (refine Led.foldl ?_ ?_; rotate_left; intro _ _ _) | fail_if_no_progress refine Led.record ?_ rfl | split

theorem returnTree_led {P : Touch} {s t : State} (a0 a1) (h : Led P s t) (hw : Touch.within { trust := true, diary := true, tally := true, ddp := true, ftl := true, corr := true, out := true } P = true) :
    Led P s (returnTree a0 a1 t) := by
  refine Led.lift h hw ?_
  unfold returnTree
  with_reducible repeat' first | assumption | exact Led.refl _ _ | apply setRoot_led | apply refChange_led | with_unfolding_all exact Touch.holds rfl | (refine Led.foldl ?_ ?_; rotate_left; intro _ _ _) | fail_if_no_progress refine Led.record ?_ rfl | split

theorem execBeginTransfer_led {P : Touch} {s t : State} (a0 a1 a2 a3 a4 a5 a6 a7 a8 a9 a10) (h : Led P s t) (hw : Touch.within { trust := true, cpi := true, diary := true, tally := true, stg := true, ddp := true, ftl := true, ciph := true, hq := true, repl := true, corr := true, out := true } P = true) :
    LedO P s (execBeginTransfer a0 a1 a2 a3 a4 a5 a6 a7 a8 a9 a10 t) := by
  refine LedO.lift h hw ?_
  unfold execBeginTransfer
  with_reducible repeat' first | assumption | exact Led.refl _ _ | apply whenDue_led | apply setSession_led | apply abortTransfer_led | apply failTransfer_led | apply dropStaged_led | apply returnTree_led | apply volumeRecord_led | apply addRoot_led | apply setRoot_led | with_unfolding_all exact Touch.holds rfl | apply LedO.next | refine LedO.ite ?_ ?_ | refine Led.ite ?_ ?_ | intro _ | (refine Led.foldl ?_ ?_; rotate_left; intro _ _ _) | fail_if_no_progress refine Led.record ?_ rfl | split

theorem applyEntry_led {P : Touch} {s t : State} (a0 a1 b a3) (h : Led P s t) (hw : Touch.within { trust := true, diary := true, tally := true, ddp := true, ftl := true, corr := true, out := true } P = true) : Led P s (applyEntry a0 a1 (b, t) a3).2 := by
  refine Led.lift h hw ?_
  unfold applyEntry
  dsimp only
  by_cases h1 : fieldAt a3 6 1 = 1
  · rw [if_pos h1]; exact setMap_led _ _ _ _ (.refl _ _) rfl
  · rw [if_neg h1]
    by_cases h2 : fieldAt a3 6 1 = 2
    · rw [if_pos h2]; exact setMap_led _ _ _ _ (.refl _ _) rfl
    · rw [if_neg h2]
      split
      · exact setMap_led _ _ _ _ (tallyDomain_led _ _ (refChange_led _ _ (.refl _ _) rfl) rfl) rfl
      · exact .refl _ _

theorem execFingerprints_led {P : Touch} {s t : State} (a0 a1 a2) (h : Led P s t) (hw : Touch.within { trust := true, diary := true, tally := true, ddp := true, ftl := true, ciph := true, repl := true, corr := true, out := true } P = true) :
    LedO P s (execFingerprints a0 a1 a2 t) := by
  refine LedO.lift h hw ?_
  unfold execFingerprints
  with_reducible repeat' first | assumption | exact Led.refl _ _ | apply applyEntry_led | apply setSession_led | apply sendRecord_led | apply setTransfer_led | with_unfolding_all exact Touch.holds rfl | apply LedO.next | refine LedO.ite ?_ ?_ | refine Led.ite ?_ ?_ | intro _ | (refine Led.foldl ?_ ?_; rotate_left; intro _ _ _) | (refine Led.foldlFst ?_ ?_; rotate_left; intro _ _ _ _) | (refine Led.foldlSnd ?_ ?_; rotate_left; intro _ _ _ _) | fail_if_no_progress refine Led.record ?_ rfl | split | dsimp only

theorem execGrain_led {P : Touch} {s t : State} (a0 a1 a2 a3 a4 a5) (h : Led P s t) (hw : Touch.within { trust := true, cpi := true, tally := true, stg := true, ftl := true, bay := true, ciph := true, jobs := true, hq := true, repl := true, corr := true, out := true, draws := true } P = true) :
    LedO P s (execGrain a0 a1 a2 a3 a4 a5 t) := by
  refine LedO.lift h hw ?_
  unfold execGrain
  with_reducible repeat' first | assumption | exact Led.refl _ _ | apply whenDue_led | apply setSession_led | apply abortTransfer_led | apply dropStaged_led | apply setTransfer_led | apply writeReplica_led | with_unfolding_all exact Touch.holds rfl | apply LedO.next | fail_if_no_progress refine Led.record ?_ rfl | split | dsimp only

theorem execEndTransfer_led {P : Touch} {s t : State} (a0 a1 a2 a3) (h : Led P s t) (hw : Touch.within { trust := true, tally := true, ftl := true, ciph := true, repl := true, corr := true, out := true } P = true) :
    LedO P s (execEndTransfer a0 a1 a2 a3 t) := by
  refine LedO.lift h hw ?_
  unfold execEndTransfer
  with_reducible repeat' first | assumption | exact Led.refl _ _ | apply setTransfer_led | apply setSession_led | apply startGroup_led | apply fenceBell_led | apply setGroupOf_led | with_unfolding_all exact Touch.holds rfl | apply LedO.next | fail_if_no_progress refine Led.record ?_ rfl | split

theorem setSync_led {P : Touch} {s t : State} (a0 a1) (h : Led P s t) (hw : Touch.within { repl := true } P = true) :
    Led P s (setSync a0 a1 t) := by
  refine Led.lift h hw ?_
  unfold setSync
  exact Led.record (.refl _ _) rfl

theorem ackSyncs_led {P : Touch} {s t : State} (h : Led P s t) (hw : Touch.within { trust := true, tally := true, ftl := true, ciph := true, repl := true, corr := true, out := true } P = true) :
    Led P s (ackSyncs t) := by
  refine Led.lift h hw ?_
  unfold ackSyncs
  with_reducible repeat' first | assumption | exact Led.refl _ _ | apply sendRecord_led | apply setSync_led | with_unfolding_all exact Touch.holds rfl | (refine Led.foldl ?_ ?_; rotate_left; intro _ _ _) | fail_if_no_progress refine Led.record ?_ rfl | split | dsimp only

theorem replBell_led {P : Touch} {s t : State} (h : Led P s t) (hw : Touch.within { trust := true, cpi := true, diary := true, tally := true, stg := true, ftl := true, bay := true, ciph := true, jobs := true, hq := true, repl := true, corr := true, out := true } P = true) :
    Led P s (replBell t) := by
  refine Led.lift h hw ?_
  unfold replBell
  with_reducible repeat' first | assumption | exact Led.refl _ _ | apply closeIdle_led | apply endFailed_led | apply dropHanded_led | apply serveHanded_led | apply checkReplicas_led | apply ackSyncs_led | apply fenceBell_led | apply volumeBell_led | with_unfolding_all exact Touch.holds rfl

theorem replStart_led {P : Touch} {s t : State} (h : Led P s t) (hw : Touch.within { ftl := true, hq := true, repl := true } P = true) :
    Led P s (replStart t) := by
  refine Led.lift h hw ?_
  unfold replStart
  exact Led.record (.refl _ _) rfl

theorem markSources_led {P : Touch} {s t : State} (a0 a1) (h : Led P s t) (hw : Touch.within { ftl := true } P = true) :
    Led P s (markSources a0 a1 t) := by
  refine Led.lift h hw ?_
  unfold markSources
  exact Led.record (.refl _ _) rfl

theorem releaseWaits_led {P : Touch} {s t : State} (a0) (h : Led P s t) (hw : Touch.within { trust := true, tally := true, stg := true, ftl := true, bay := true, jobs := true, hq := true, repl := true, corr := true, out := true, draws := true } P = true) :
    Led P s (releaseWaits a0 t) := by
  refine Led.lift h hw ?_
  unfold releaseWaits
  with_reducible repeat' first | assumption | exact Led.refl _ _ | apply syncAcked_led | with_unfolding_all exact Touch.holds rfl | (refine Led.foldl ?_ ?_; rotate_left; intro _ _ _) | fail_if_no_progress refine Led.record ?_ rfl | split

theorem execReplSyncSet_led {P : Touch} {s t : State} (a0 a1) (h : Led P s t) (hw : Touch.within { trust := true, cpi := true, diary := true, tally := true, stg := true, ftl := true, bay := true, jobs := true, hq := true, repl := true, corr := true, out := true, draws := true } P = true) :
    LedO P s (execReplSyncSet a0 a1 t) := by
  refine LedO.lift h hw ?_
  unfold execReplSyncSet
  with_reducible repeat' first | assumption | exact Led.refl _ _ | apply onPacket_led | apply badParam_led | apply changed_led | apply markSources_led | apply releaseNs_led | apply releaseWaits_led | apply setSync_led | apply refuse_led | apply wrongKind_led | with_unfolding_all exact Touch.holds rfl | apply LedO.next | refine LedO.ite ?_ ?_ | refine Led.ite ?_ ?_ | intro _ | (refine Led.foldl ?_ ?_; rotate_left; intro _ _ _) | fail_if_no_progress refine Led.record ?_ rfl | split

theorem execSyncAck_led {P : Touch} {s t : State} (a0 a1 a2) (h : Led P s t) (hw : Touch.within { trust := true, tally := true, stg := true, ftl := true, bay := true, jobs := true, hq := true, repl := true, corr := true, out := true, draws := true } P = true) :
    LedO P s (execSyncAck a0 a1 a2 t) := by
  refine LedO.lift h hw ?_
  unfold execSyncAck
  with_reducible repeat' first | assumption | exact Led.refl _ _ | apply syncAcked_led | apply setSession_led | with_unfolding_all exact Touch.holds rfl | apply LedO.next | split

theorem fracture_led {P : Touch} {s t : State} (a0) (h : Led P s t) (hw : Touch.within { trust := true, diary := true, tally := true, stg := true, ftl := true, bay := true, jobs := true, hq := true, repl := true, corr := true, out := true, draws := true } P = true) :
    Led P s (fracture a0 t) := by
  refine Led.lift h hw ?_
  unfold fracture
  with_reducible repeat' first | assumption | exact Led.refl _ _ | apply releaseWaits_led | apply setSync_led | apply event_led | with_unfolding_all exact Touch.holds rfl | (refine Led.foldl ?_ ?_; rotate_left; intro _ _ _) | fail_if_no_progress refine Led.record ?_ rfl | split

theorem execSyncAckTimeout_led {P : Touch} {s t : State} (a0 a1) (h : Led P s t) (hw : Touch.within { trust := true, diary := true, tally := true, stg := true, ftl := true, bay := true, jobs := true, hq := true, repl := true, corr := true, out := true, draws := true } P = true) :
    LedO P s (execSyncAckTimeout a0 a1 t) := by
  refine LedO.lift h hw ?_
  unfold execSyncAckTimeout
  with_reducible repeat' first | assumption | exact Led.refl _ _ | apply whenDue_led | apply fracture_led | with_unfolding_all exact Touch.holds rfl | apply LedO.next | split

theorem execSyncCheckpoint_led {P : Touch} {s t : State} (a0) (h : Led P s t) (hw : Touch.within { trust := true, tally := true, ftl := true, repl := true, corr := true, out := true } P = true) :
    LedO P s (execSyncCheckpoint a0 t) := by
  refine LedO.lift h hw ?_
  unfold execSyncCheckpoint
  with_reducible repeat' first | assumption | exact Led.refl _ _ | apply cutGroup_led | apply setSync_led | with_unfolding_all exact Touch.holds rfl | apply LedO.next | (refine Led.foldl ?_ ?_; rotate_left; intro _ _ _) | fail_if_no_progress refine Led.record ?_ rfl | split

theorem execSyncWrite_led {P : Touch} {s t : State} (a0 a1 a2 a3 a4 a5 a6) (h : Led P s t) (hw : Touch.within { trust := true, tally := true, stg := true, ftl := true, bay := true, ciph := true, jobs := true, hq := true, repl := true, corr := true, out := true, draws := true } P = true) :
    LedO P s (execSyncWrite a0 a1 a2 a3 a4 a5 a6 t) := by
  refine LedO.lift h hw ?_
  unfold execSyncWrite
  with_reducible repeat' first | assumption | exact Led.refl _ _ | apply whenDue_led | apply setSession_led | apply setSync_led | apply ackSyncs_led | apply writeReplica_led | with_unfolding_all exact Touch.holds rfl | apply LedO.next | fail_if_no_progress refine Led.record ?_ rfl | split

theorem execSyncFence_led {P : Touch} {s t : State} (a0 a1 a2 a3) (h : Led P s t) (hw : Touch.within { trust := true, tally := true, ftl := true, ciph := true, repl := true, corr := true, out := true } P = true) :
    LedO P s (execSyncFence a0 a1 a2 a3 t) := by
  refine LedO.lift h hw ?_
  unfold execSyncFence
  with_reducible repeat' first | assumption | exact Led.refl _ _ | apply startGroup_led | apply fenceBell_led | apply setGroupOf_led | apply setRoot_led | apply setSync_led | with_unfolding_all exact Touch.holds rfl | apply LedO.next | (refine Led.foldl ?_ ?_; rotate_left; intro _ _ _) | fail_if_no_progress refine Led.record ?_ rfl | split

theorem execFractureResumeTimer_led {P : Touch} {s t : State} (a0) (h : Led P s t) (hw : Touch.within { trust := true, tally := true, ftl := true, repl := true, corr := true, out := true } P = true) :
    LedO P s (execFractureResumeTimer a0 t) := by
  refine LedO.lift h hw ?_
  unfold execFractureResumeTimer
  with_reducible repeat' first | assumption | exact Led.refl _ _ | apply cutGroup_led | apply setSync_led | with_unfolding_all exact Touch.holds rfl | apply LedO.next | (refine Led.foldl ?_ ?_; rotate_left; intro _ _ _) | fail_if_no_progress refine Led.record ?_ rfl | split

theorem nextMigration_led {P : Touch} {s t : State} (a0) (h : Led P s t) (hw : Touch.within { trust := true, tally := true, ftl := true, ciph := true, repl := true, corr := true, out := true } P = true) :
    Led P s (nextMigration a0 t) := by
  refine Led.lift h hw ?_
  unfold nextMigration
  with_reducible repeat' first | assumption | exact Led.refl _ _ | apply startTransfer_led | with_unfolding_all exact Touch.holds rfl | split

theorem execMigrateExport_led {P : Touch} {s t : State} (a0 a1) (h : Led P s t) (hw : Touch.within { trust := true, cpi := true, diary := true, tally := true, ftl := true, ciph := true, repl := true, corr := true, out := true } P = true) :
    LedO P s (execMigrateExport a0 a1 t) := by
  refine LedO.lift h hw ?_
  unfold execMigrateExport
  with_reducible repeat' first | assumption | exact Led.refl _ _ | apply onPacket_led | apply badParam_led | apply wrongKind_led | apply nextMigration_led | apply sendRecord_led | apply changed_led | with_unfolding_all exact Touch.holds rfl | apply LedO.next | refine LedO.ite ?_ ?_ | refine Led.ite ?_ ?_ | intro _ | fail_if_no_progress refine Led.record ?_ rfl | split

theorem execMigrateRepeatTimer_led {P : Touch} {s t : State} (a0 a1) (h : Led P s t) (hw : Touch.within { trust := true, tally := true, ftl := true, ciph := true, repl := true, corr := true, out := true } P = true) :
    LedO P s (execMigrateRepeatTimer a0 a1 t) := by
  refine LedO.lift h hw ?_
  unfold execMigrateRepeatTimer
  with_reducible repeat' first | assumption | exact Led.refl _ _ | apply whenDue_led | apply setMigration_led | apply nextMigration_led | apply cutGroup_led | with_unfolding_all exact Touch.holds rfl | apply LedO.next | split

theorem execMigrateCutover_led {P : Touch} {s t : State} (a0 a1) (h : Led P s t) (hw : Touch.within { trust := true, cpi := true, tally := true, ftl := true, hq := true, repl := true, corr := true, out := true } P = true) :
    LedO P s (execMigrateCutover a0 a1 t) := by
  refine LedO.lift h hw ?_
  unfold execMigrateCutover
  with_reducible repeat' first | assumption | exact Led.refl _ _ | apply onPacket_led | apply badParam_led | apply cutGroup_led | apply setMigration_led | with_unfolding_all exact Touch.holds rfl | apply LedO.next | refine LedO.ite ?_ ?_ | refine Led.ite ?_ ?_ | intro _ | fail_if_no_progress refine Led.record ?_ rfl | split | dsimp only

theorem caughtUp_led {P : Touch} {s t : State} (a0 a1) (h : Led P s t) (hw : Touch.within { trust := true, tally := true, ftl := true, hq := true, repl := true, corr := true, out := true } P = true) :
    Led P s (caughtUp a0 a1 t) := by
  refine Led.lift h hw ?_
  unfold caughtUp
  with_reducible repeat' first | assumption | exact Led.refl _ _ | apply setSync_led | apply releaseNs_led | apply cutGroup_led | with_unfolding_all exact Touch.holds rfl | fail_if_no_progress refine Led.record ?_ rfl | split | dsimp only

theorem failQueued_led {P : Touch} {s t : State} (a0 a1) (h : Led P s t) (hw : Touch.within { tally := true, stg := true, hq := true, out := true } P = true) :
    Led P s (failQueued a0 a1 t) := by
  refine Led.lift h hw ?_
  unfold failQueued
  with_reducible repeat' first | assumption | exact Led.refl _ _ | apply endCapsules_led | with_unfolding_all exact Touch.holds rfl | (refine Led.foldl ?_ ?_; rotate_left; intro _ _ _) | fail_if_no_progress refine Led.record ?_ rfl | split

theorem movePaths_led {P : Touch} {s t : State} (a0 a1) (h : Led P s t) (hw : Touch.within { tally := true, stg := true, ftl := true, hq := true, out := true } P = true) :
    Led P s (movePaths a0 a1 t) := by
  refine Led.lift h hw ?_
  unfold movePaths
  with_reducible repeat' first | assumption | exact Led.refl _ _ | apply notifyAll_led | apply namespaceChanged_led | apply setRoot_led | apply failQueued_led | apply releaseNs_led | with_unfolding_all exact Touch.holds rfl | fail_if_no_progress refine Led.record ?_ rfl | split

theorem execReplCommit_led {P : Touch} {s t : State} (a0 a1 a2 a3 a4) (h : Led P s t) (hw : Touch.within { trust := true, cpi := true, diary := true, tally := true, stg := true, ftl := true, ciph := true, hq := true, repl := true, corr := true, out := true } P = true) :
    LedO P s (execReplCommit a0 a1 a2 a3 a4 t) := by
  refine LedO.lift h hw ?_
  unfold execReplCommit
  with_reducible repeat' first | assumption | exact Led.refl _ _ | apply setSync_led | apply closeIdle_led | apply failTransfer_led | apply dropTransfer_led | apply changed_led | apply nextMigration_led | apply setMigration_led | apply movePaths_led | apply caughtUp_led | with_unfolding_all exact Touch.holds rfl | apply LedO.next | (refine Led.foldl ?_ ?_; rotate_left; intro _ _ _) | fail_if_no_progress refine Led.record ?_ rfl | split | dsimp only

theorem adoptFailed_led {P : Touch} {s t : State} (a0 a1) (h : Led P s t) (hw : Touch.within { trust := true, cpi := true, tally := true, repl := true, corr := true, out := true } P = true) :
    Led P s (adoptFailed a0 a1 t) := by
  refine Led.lift h hw ?_
  unfold adoptFailed
  with_reducible repeat' first | assumption | exact Led.refl _ _ | apply refuse_led | with_unfolding_all exact Touch.holds rfl | (refine Led.foldl ?_ ?_; rotate_left; intro _ _ _) | fail_if_no_progress refine Led.record ?_ rfl | split | dsimp only

theorem execReplAbort_led {P : Touch} {s t : State} (a0 a1 a2 a3) (h : Led P s t) (hw : Touch.within { trust := true, cpi := true, diary := true, tally := true, stg := true, ftl := true, ciph := true, hq := true, repl := true, corr := true, out := true } P = true) :
    LedO P s (execReplAbort a0 a1 a2 a3 t) := by
  refine LedO.lift h hw ?_
  unfold execReplAbort
  with_reducible repeat' first | assumption | exact Led.refl _ _ | apply adoptFailed_led | apply startTransfer_led | apply dropTransfer_led | apply closeIdle_led | apply failTransfer_led | apply dropStaged_led | with_unfolding_all exact Touch.holds rfl | apply LedO.next | split

theorem execKeyAdopt_led {P : Touch} {s t : State} (a0 a1 a2 a3) (h : Led P s t) (hw : Touch.within { trust := true, cpi := true, diary := true, tally := true, ftl := true, ciph := true, repl := true, corr := true, out := true, draws := true } P = true) :
    LedO P s (execKeyAdopt a0 a1 a2 a3 t) := by
  refine LedO.lift h hw ?_
  unfold execKeyAdopt
  with_reducible repeat' first | assumption | exact Led.refl _ _ | apply sendRecord_led | apply createDomain_led | apply changed_led | apply sendPeer_led | apply refuse_led | with_unfolding_all exact Touch.holds rfl | apply LedO.next | fail_if_no_progress refine Led.record ?_ rfl | split | dsimp only

theorem execKeyAdoptWaitExpiry_led {P : Touch} {s t : State} (a0) (h : Led P s t) (hw : Touch.within { trust := true, cpi := true, tally := true, repl := true, corr := true, out := true } P = true) :
    LedO P s (execKeyAdoptWaitExpiry a0 t) := by
  refine LedO.lift h hw ?_
  unfold execKeyAdoptWaitExpiry
  with_reducible repeat' first | assumption | exact Led.refl _ _ | apply whenDue_led | apply refuse_led | with_unfolding_all exact Touch.holds rfl | apply LedO.next | fail_if_no_progress refine Led.record ?_ rfl | split | dsimp only

theorem afterSettle_led {P : Touch} {s t : State} (a0) (h : Led P s t) (hw : Touch.within { trust := true, cpi := true, diary := true, tally := true, ddp := true, ftl := true, ciph := true, hq := true, repl := true, corr := true, out := true } P = true) :
    Led P s (afterSettle a0 t) := by
  refine Led.lift h hw ?_
  unfold afterSettle
  with_reducible repeat' first | assumption | exact Led.refl _ _ | apply commitReplica_led | apply setSync_led | apply volumeRecord_led | apply setRoot_led | apply sendRecord_led | apply startTransfer_led | apply nextMigration_led | apply setMigration_led | with_unfolding_all exact Touch.holds rfl | (refine Led.foldl ?_ ?_; rotate_left; intro _ _ _) | fail_if_no_progress refine Led.record ?_ rfl | split

theorem execSnapshotSettle_led {P : Touch} {s t : State} (a0 a1) (h : Led P s t) (hw : Touch.within { trust := true, cpi := true, diary := true, tally := true, ddp := true, ftl := true, ciph := true, hq := true, repl := true, corr := true, out := true } P = true) :
    LedO P s (execSnapshotSettle a0 a1 t) := by
  refine LedO.lift h hw ?_
  unfold execSnapshotSettle
  with_reducible repeat' first | assumption | exact Led.refl _ _ | apply whenDue_led | apply afterSettle_led | apply settleGroup_led | with_unfolding_all exact Touch.holds rfl | apply LedO.next | split

theorem execReplQuery_led {P : Touch} {s t : State} (a0 a1) (h : Led P s t) (hw : Touch.within { trust := true, cpi := true, tally := true, corr := true, out := true } P = true) :
    LedO P s (execReplQuery a0 a1 t) := by
  refine LedO.lift h hw ?_
  unfold execReplQuery
  with_reducible repeat' first | assumption | exact Led.refl _ _ | apply onPacket_led | apply badParam_led | apply refuse_led | apply answered_led | with_unfolding_all exact Touch.holds rfl | apply LedO.next | refine LedO.ite ?_ ?_ | refine Led.ite ?_ ?_ | intro _ | fail_if_no_progress refine Led.record ?_ rfl | split

end Sys2Proof.Machine
end

