-- ==== Sys2Proof/Laws/FramesMachine.lean ====
section
/-! SUPPORT. One lemma for each operation and each command, saying once what the operations over the rollcall, the hold-up bank, Vault mode, the head pair, faults, the pool, starts, power and the bell can do: the frame of each is the `Touch` it names. -/

set_option Elab.async false
set_option linter.all false

namespace Sys2Proof.Machine

theorem rollTo_led {P : Touch} {s t : State} (a0 a1) (h : Led P s t) (hw : Touch.within { diary := true, tally := true, corr := true } P = true) :
    Led P s (rollTo a0 a1 t) := by
  refine Led.lift h hw ?_
  unfold rollTo
  with_reducible repeat' first | assumption | exact Led.refl _ _ | apply event_led | with_unfolding_all exact Touch.holds rfl | fail_if_no_progress refine Led.record ?_ rfl | split

theorem selfFence_led {P : Touch} {s t : State} (h : Led P s t) (hw : Touch.within { diary := true, tally := true, tt := true, stg := true, bay := true, hq := true, corr := true, out := true } P = true) :
    Led P s (selfFence t) := by
  refine Led.lift h hw ?_
  unfold selfFence
  with_reducible repeat' first | assumption | exact Led.refl _ _ | apply complete_led | apply rollTo_led | with_unfolding_all exact Touch.holds rfl | (refine Led.foldl ?_ ?_; rotate_left; intro _ _ _) | fail_if_no_progress refine Led.record ?_ rfl | split

theorem endMoves_led {P : Touch} {s t : State} (h : Led P s t) (hw : Touch.within { trust := true, cpi := true, tally := true, hq := true, corr := true, out := true } P = true) :
    Led P s (endMoves t) := by
  refine Led.lift h hw ?_
  unfold endMoves
  with_reducible repeat' first | assumption | exact Led.refl _ _ | apply badParam_led | with_unfolding_all exact Touch.holds rfl | (refine Led.foldl ?_ ?_; rotate_left; intro _ _ _) | fail_if_no_progress refine Led.record ?_ rfl | split

theorem presumeDown_led {P : Touch} {s t : State} (a0) (h : Led P s t) (hw : Touch.within { trust := true, cpi := true, diary := true, tally := true, tt := true, bay := true, hq := true, corr := true, out := true } P = true) :
    Led P s (presumeDown a0 t) := by
  refine Led.lift h hw ?_
  unfold presumeDown
  with_reducible repeat' first | assumption | exact Led.refl _ _ | apply rollTo_led | apply fenceForms_led | apply trigger_led | apply endMoves_led | with_unfolding_all exact Touch.holds rfl | fail_if_no_progress refine Led.record ?_ rfl | split

theorem limitBell_led {P : Touch} {s t : State} (h : Led P s t) (hw : Touch.within { diary := true, tally := true, stg := true } P = true) :
    Led P s (limitBell t) := by
  refine Led.lift h hw ?_
  unfold limitBell
  with_reducible repeat' first | assumption | exact Led.refl _ _ | apply event_led | with_unfolding_all exact Touch.holds rfl | fail_if_no_progress refine Led.record ?_ rfl | split

theorem throughBell_led {P : Touch} {s t : State} (h : Led P s t) (hw : Touch.within { diary := true, tally := true, stg := true } P = true) :
    Led P s (throughBell t) := by
  refine Led.lift h hw ?_
  unfold throughBell
  with_reducible repeat' first | assumption | exact Led.refl _ _ | apply event_led | with_unfolding_all exact Touch.holds rfl | fail_if_no_progress refine Led.record ?_ rfl | split

theorem switchLoad_led {P : Touch} {s t : State} (a0) (h : Led P s t) (hw : Touch.within { pins := true, stg := true } P = true) :
    Led P s (switchLoad a0 t) := by
  refine Led.lift h hw ?_
  unfold switchLoad
  exact Led.record (.refl _ _) rfl

theorem holdCharger_led {P : Touch} {s t : State} (a0) (h : Led P s t) (hw : Touch.within { pins := true, stg := true } P = true) :
    Led P s (holdCharger a0 t) := by
  refine Led.lift h hw ?_
  unfold holdCharger
  exact Led.record (.refl _ _) rfl

theorem endMeasure_led {P : Touch} {s t : State} (h : Led P s t) (hw : Touch.within { pins := true, cpi := true, stg := true } P = true) :
    Led P s (endMeasure t) := by
  refine Led.lift h hw ?_
  unfold endMeasure
  with_reducible repeat' first | assumption | exact Led.refl _ _ | apply holdCharger_led | apply switchLoad_led | apply releaseClaims_led | with_unfolding_all exact Touch.holds rfl | fail_if_no_progress refine Led.record ?_ rfl | split

theorem invalidMeasure_led {P : Touch} {s t : State} (a0) (h : Led P s t) (hw : Touch.within { diary := true, tally := true, stg := true } P = true) :
    Led P s (invalidMeasure a0 t) := by
  refine Led.lift h hw ?_
  unfold invalidMeasure
  with_reducible repeat' first | assumption | exact Led.refl _ _ | apply event_led | with_unfolding_all exact Touch.holds rfl | fail_if_no_progress refine Led.record ?_ rfl

theorem answerMeasure_led {P : Touch} {s t : State} (a0) (h : Led P s t) (hw : Touch.within { trust := true, cpi := true, diary := true, tally := true, corr := true, out := true } P = true) :
    Led P s (answerMeasure a0 t) := by
  refine Led.lift h hw ?_
  unfold answerMeasure
  with_reducible repeat' first | assumption | exact Led.refl _ _ | apply changed_led | with_unfolding_all exact Touch.holds rfl | split

theorem loadBell_led {P : Touch} {s t : State} (h : Led P s t) (hw : Touch.within { pins := true, trust := true, cpi := true, diary := true, tally := true, stg := true, corr := true, out := true } P = true) :
    Led P s (loadBell t) := by
  refine Led.lift h hw ?_
  unfold loadBell
  with_reducible repeat' first | assumption | exact Led.refl _ _ | apply answerMeasure_led | apply invalidMeasure_led | apply endMeasure_led | apply switchLoad_led | with_unfolding_all exact Touch.holds rfl | split

theorem reversedBank_led {P : Touch} {s t : State} (h : Led P s t) (hw : Touch.within { diary := true, tally := true, stg := true } P = true) :
    Led P s (reversedBank t) := by
  refine Led.lift h hw ?_
  unfold reversedBank
  with_reducible repeat' first | assumption | exact Led.refl _ _ | apply event_led | with_unfolding_all exact Touch.holds rfl | fail_if_no_progress refine Led.record ?_ rfl

theorem beginMeasure_led {P : Touch} {s t : State} (a0 a1 a2 a3 a4) (h : Led P s t) (hw : Touch.within { pins := true, cpi := true, stg := true } P = true) :
    Led P s (beginMeasure a0 a1 a2 a3 a4 t) := by
  refine Led.lift h hw ?_
  unfold beginMeasure
  exact Led.record (.refl _ _) rfl

theorem ownMeasure_led {P : Touch} {s t : State} (a0 a1) (h : Led P s t) (hw : Touch.within { pins := true, cpi := true, diary := true, tally := true, stg := true } P = true) :
    Led P s (ownMeasure a0 a1 t) := by
  refine Led.lift h hw ?_
  unfold ownMeasure
  with_reducible repeat' first | assumption | exact Led.refl _ _ | apply event_led | apply invalidMeasure_led | apply reversedBank_led | apply beginMeasure_led | with_unfolding_all exact Touch.holds rfl | fail_if_no_progress refine Led.record ?_ rfl | split

theorem execHoldupMeasureScheduled_led {P : Touch} {s t : State} (a0) (h : Led P s t) (hw : Touch.within { pins := true, cpi := true, diary := true, tally := true, stg := true } P = true) :
    LedO P s (execHoldupMeasureScheduled a0 t) := by
  refine LedO.lift h hw ?_
  unfold execHoldupMeasureScheduled
  with_reducible repeat' first | assumption | exact Led.refl _ _ | apply whenDue_led | apply ownMeasure_led | with_unfolding_all exact Touch.holds rfl | apply LedO.next

theorem execHoldupRetryTimer_led {P : Touch} {s t : State} (a0) (h : Led P s t) (hw : Touch.within { pins := true, cpi := true, diary := true, tally := true, stg := true } P = true) :
    LedO P s (execHoldupRetryTimer a0 t) := by
  refine LedO.lift h hw ?_
  unfold execHoldupRetryTimer
  with_reducible repeat' first | assumption | exact Led.refl _ _ | apply whenDue_led | apply ownMeasure_led | with_unfolding_all exact Touch.holds rfl | apply LedO.next

theorem validMeasure_led {P : Touch} {s t : State} (a0 a1) (h : Led P s t) (hw : Touch.within { tally := true, stg := true } P = true) :
    Led P s (validMeasure a0 a1 t) := by
  refine Led.lift h hw ?_
  unfold validMeasure
  exact Led.record (.refl _ _) rfl

theorem execHoldupMeasureComplete_led {P : Touch} {s t : State} (a0 a1 a2 a3 a4) (h : Led P s t) (hw : Touch.within { pins := true, trust := true, cpi := true, diary := true, tally := true, stg := true, corr := true, out := true } P = true) :
    LedO P s (execHoldupMeasureComplete a0 a1 a2 a3 a4 t) := by
  refine LedO.lift h hw ?_
  unfold execHoldupMeasureComplete
  with_reducible repeat' first | assumption | exact Led.refl _ _ | apply whenDue_led | apply endMeasure_led | apply answerMeasure_led | apply invalidMeasure_led | apply validMeasure_led | with_unfolding_all exact Touch.holds rfl | apply LedO.next | split

theorem execSysHoldupCfg_led {P : Touch} {s t : State} (a0 a1) (h : Led P s t) (hw : Touch.within { trust := true, cpi := true, diary := true, tally := true, stg := true, corr := true, out := true } P = true) :
    LedO P s (execSysHoldupCfg a0 a1 t) := by
  refine LedO.lift h hw ?_
  unfold execSysHoldupCfg
  with_reducible repeat' first | assumption | exact Led.refl _ _ | apply onPacket_led | apply changed_led | with_unfolding_all exact Touch.holds rfl | apply LedO.next | refine LedO.ite ?_ ?_ | refine Led.ite ?_ ?_ | intro _ | fail_if_no_progress refine Led.record ?_ rfl

theorem execSysHoldupMeasure_led {P : Touch} {s t : State} (a0 a1 a2) (h : Led P s t) (hw : Touch.within { pins := true, trust := true, cpi := true, diary := true, tally := true, stg := true, corr := true, out := true } P = true) :
    LedO P s (execSysHoldupMeasure a0 a1 a2 t) := by
  refine LedO.lift h hw ?_
  unfold execSysHoldupMeasure
  with_reducible repeat' first | assumption | exact Led.refl _ _ | apply onPacket_led | apply refuse_led | apply answerMeasure_led | apply invalidMeasure_led | apply reversedBank_led | apply beginMeasure_led | with_unfolding_all exact Touch.holds rfl | apply LedO.next | refine LedO.ite ?_ ?_ | refine Led.ite ?_ ?_ | intro _ | fail_if_no_progress refine Led.record ?_ rfl | split

theorem islandLost_led {P : Touch} {s t : State} (a0) (h : Led P s t) (hw : Touch.within { tally := true, ec := true, ciph := true, skx := true } P = true) :
    Led P s (islandLost a0 t) := by
  refine Led.lift h hw ?_
  unfold islandLost
  exact Led.record (.refl _ _) rfl

theorem setDomains_led {P : Touch} {s t : State} (a0) (h : Led P s t) (hw : Touch.within { pwr := true, tally := true, ec := true, ciph := true, skx := true } P = true) :
    Led P s (setDomains a0 t) := by
  refine Led.lift h hw ?_
  unfold setDomains
  with_reducible repeat' first | assumption | exact Led.refl _ _ | apply tallyAdd_led | apply islandLost_led | with_unfolding_all exact Touch.holds rfl | (refine Led.foldl ?_ ?_; rotate_left; intro _ _ _) | fail_if_no_progress refine Led.record ?_ rfl | split

theorem powerIslands_led {P : Touch} {s t : State} (a0) (h : Led P s t) (hw : Touch.within { pwr := true, tally := true, ec := true, ciph := true, skx := true } P = true) :
    Led P s (powerIslands a0 t) := by
  refine Led.lift h hw ?_
  unfold powerIslands
  with_reducible repeat' first | assumption | exact Led.refl _ _ | apply setDomains_led | with_unfolding_all exact Touch.holds rfl

theorem queueImageOp_led {P : Touch} {s t : State} (a0) (h : Led P s t) (hw : Touch.within { bay := true } P = true) :
    Led P s (queueImageOp a0 t) := by
  refine Led.lift h hw ?_
  unfold queueImageOp
  with_reducible repeat' first | assumption | exact Led.refl _ _ | apply queueOp_led | with_unfolding_all exact Touch.holds rfl | split

theorem queueVaultStrip_led {P : Touch} {s t : State} (a0 a1 a2 a3 a4) (h : Led P s t) (hw : Touch.within { bay := true } P = true) :
    Led P s (queueVaultStrip a0 a1 a2 a3 a4 t) := by
  refine Led.lift h hw ?_
  unfold queueVaultStrip
  with_reducible repeat' first | assumption | exact Led.refl _ _ | apply queueImageOp_led | with_unfolding_all exact Touch.holds rfl | (refine Led.foldl ?_ ?_; rotate_left; intro _ _ _) | fail_if_no_progress refine Led.record ?_ rfl | split | dsimp only

theorem writeImage_led {P : Touch} {s t : State} (h : Led P s t) (hw : Touch.within { trust := true, tally := true, stg := true, ftl := true, bay := true, pool := true, ciph := true, corr := true, out := true } P = true) :
    Led P s (writeImage t) := by
  refine Led.lift h hw ?_
  unfold writeImage
  with_reducible repeat' first | assumption | exact Led.refl _ _ | apply takeNonce_led | apply setHalf_led | apply queueVaultStrip_led | with_unfolding_all exact Touch.holds rfl | refine Led.ite ?_ ?_ | intro _ | (refine Led.foldl ?_ ?_; rotate_left; intro _ _ _) | (refine Led.foldlFst ?_ ?_; rotate_left; intro _ _ _ _) | (refine Led.foldlSnd ?_ ?_; rotate_left; intro _ _ _ _) | refine Led.ofFst ‹_ = (_, _)› ?_ | refine Led.ofSnd ‹_ = (_, _)› ?_ | refine Led.ofSome ‹_ = some _› ?_ | fail_if_no_progress refine Led.record ?_ rfl | split | dsimp only

theorem vaultSheet_led {P : Touch} {s t : State} (h : Led P s t) (hw : Touch.within { pwr := true, trust := true, cpi := true, diary := true, tally := true, tt := true, stg := true, ftl := true, ec := true, bay := true, pool := true, ciph := true, skx := true, jobs := true, hq := true, repl := true, corr := true, out := true, draws := true } P = true) :
    Led P s (vaultSheet t) := by
  refine Led.lift h hw ?_
  unfold vaultSheet
  with_reducible repeat' first | assumption | exact Led.refl _ _ | apply loseAssociation_led | apply putSheet_led | apply writeImage_led | apply powerIslands_led | with_unfolding_all exact Touch.holds rfl | (refine Led.foldl ?_ ?_; rotate_left; intro _ _ _) | fail_if_no_progress refine Led.record ?_ rfl | split

theorem journalCounters_led {P : Touch} {s t : State} (h : Led P s t) (hw : Touch.within { trust := true, tally := true, ftl := true, corr := true, out := true } P = true) :
    Led P s (journalCounters t) := by
  refine Led.lift h hw ?_
  unfold journalCounters
  with_reducible repeat' first | assumption | exact Led.refl _ _ | apply journal_led | with_unfolding_all exact Touch.holds rfl | (refine Led.foldl ?_ ?_; rotate_left; intro _ _ _) | fail_if_no_progress refine Led.record ?_ rfl | split

theorem queueLastStrips_led {P : Touch} {s t : State} (a0 a1 a2 a3 a4) (h : Led P s t) (hw : Touch.within { bay := true } P = true) :
    Led P s (queueLastStrips a0 a1 a2 a3 a4 t) := by
  refine Led.lift h hw ?_
  unfold queueLastStrips
  with_reducible repeat' first | assumption | exact Led.refl _ _ | apply queueVaultStrip_led | with_unfolding_all exact Touch.holds rfl | (refine Led.foldl ?_ ?_; rotate_left; intro _ _ _) | fail_if_no_progress refine Led.record ?_ rfl | split

theorem writeTrailer_led {P : Touch} {s t : State} (h : Led P s t) (hw : Touch.within { stg := true, bay := true } P = true) :
    Led P s (writeTrailer t) := by
  refine Led.lift h hw ?_
  unfold writeTrailer
  with_reducible repeat' first | assumption | exact Led.refl _ _ | apply queueLastStrips_led | with_unfolding_all exact Touch.holds rfl | fail_if_no_progress refine Led.record ?_ rfl | split

theorem leaveForVault_led {P : Touch} {s t : State} (a0) (h : Led P s t) (hw : Touch.within { tally := true, stg := true, hq := true } P = true) :
    Led P s (leaveForVault a0 t) := by
  refine Led.lift h hw ?_
  unfold leaveForVault
  with_reducible repeat' first | assumption | exact Led.refl _ _ | apply unpin_led | apply dropCtx_led | apply holdMark_led | apply unadmit_led | apply dropWrite_led | with_unfolding_all exact Touch.holds rfl | (refine Led.foldl ?_ ?_; rotate_left; intro _ _ _) | fail_if_no_progress refine Led.record ?_ rfl | split

theorem enterVault_led {P : Touch} {s t : State} (h : Led P s t) (hw : Touch.within { pwr := true, pins := true, trust := true, cpi := true, diary := true, tally := true, tt := true, stg := true, ftl := true, ciph := true, hq := true, corr := true, out := true } P = true) :
    Led P s (enterVault t) := by
  refine Led.lift h hw ?_
  unfold enterVault
  with_reducible repeat' first | assumption | exact Led.refl _ _ | apply leaveForVault_led | apply thawDiary_led | apply endMeasure_led | apply event_led | apply sendPeer_led | apply journalCounters_led | with_unfolding_all exact Touch.holds rfl | (refine Led.foldl ?_ ?_; rotate_left; intro _ _ _) | fail_if_no_progress refine Led.record ?_ rfl | split

theorem earlyFail_led {P : Touch} {s t : State} (h : Led P s t) (hw : Touch.within { pwr := true, dram := true, cpi := true, bay := true, hq := true } P = true) :
    Led P s (earlyFail t) := by
  refine Led.lift h hw ?_
  unfold earlyFail
  exact Led.record (.refl _ _) rfl

theorem powerFails_led {P : Touch} {s t : State} (h : Led P s t) (hw : Touch.within { pwr := true, pins := true, dram := true, trust := true, cpi := true, diary := true, tally := true, tt := true, stg := true, ftl := true, bay := true, ciph := true, hq := true, corr := true, out := true } P = true) :
    Led P s (powerFails t) := by
  refine Led.lift h hw ?_
  unfold powerFails
  with_reducible repeat' first | assumption | exact Led.refl _ _ | apply enterVault_led | apply earlyFail_led | with_unfolding_all exact Touch.holds rfl | fail_if_no_progress refine Led.record ?_ rfl | split

theorem execPwrFailNLow_led {P : Touch} {s t : State} (h : Led P s t) (hw : Touch.within { pwr := true, pins := true, dram := true, trust := true, cpi := true, diary := true, tally := true, tt := true, stg := true, ftl := true, bay := true, ciph := true, hq := true, corr := true, out := true } P = true) :
    LedO P s (execPwrFailNLow t) := by
  refine LedO.lift h hw ?_
  unfold execPwrFailNLow
  with_reducible repeat' first | assumption | exact Led.refl _ _ | apply whenDue_led | apply powerFails_led | apply setLevel_led | with_unfolding_all exact Touch.holds rfl | apply LedO.next

theorem execEarlyPowerFail_led {P : Touch} {s t : State} (h : Led P s t) (hw : Touch.within { pwr := true, dram := true, cpi := true, bay := true, hq := true } P = true) :
    LedO P s (execEarlyPowerFail t) := by
  refine LedO.lift h hw ?_
  unfold execEarlyPowerFail
  with_reducible repeat' first | assumption | exact Led.refl _ _ | apply whenDue_led | apply earlyFail_led | with_unfolding_all exact Touch.holds rfl | apply LedO.next

theorem execThermalVault_led {P : Touch} {s t : State} (a0 a1) (h : Led P s t) (hw : Touch.within { pwr := true, pins := true, dram := true, trust := true, cpi := true, diary := true, tally := true, tt := true, stg := true, ftl := true, bay := true, ciph := true, hq := true, corr := true, out := true } P = true) :
    LedO P s (execThermalVault a0 a1 t) := by
  refine LedO.lift h hw ?_
  unfold execThermalVault
  with_reducible repeat' first | assumption | exact Led.refl _ _ | apply noteHottest_led | apply whenDue_led | apply powerFails_led | with_unfolding_all exact Touch.holds rfl | apply LedO.next | fail_if_no_progress refine Led.record ?_ rfl | split

theorem execVaultSheetEntry_led {P : Touch} {s t : State} (h : Led P s t) (hw : Touch.within { pwr := true, trust := true, cpi := true, diary := true, tally := true, tt := true, stg := true, ftl := true, ec := true, bay := true, pool := true, ciph := true, skx := true, jobs := true, hq := true, repl := true, corr := true, out := true, draws := true } P = true) :
    LedO P s (execVaultSheetEntry t) := by
  refine LedO.lift h hw ?_
  unfold execVaultSheetEntry
  with_reducible repeat' first | assumption | exact Led.refl _ _ | apply whenDue_led | apply vaultSheet_led | with_unfolding_all exact Touch.holds rfl | apply LedO.next

theorem execVaultNotice_led {P : Touch} {s t : State} (a0) (h : Led P s t) (hw : Touch.within { trust := true, cpi := true, diary := true, tally := true, tt := true, bay := true, hq := true, corr := true, out := true } P = true) :
    LedO P s (execVaultNotice a0 t) := by
  refine LedO.lift h hw ?_
  unfold execVaultNotice
  with_reducible repeat' first | assumption | exact Led.refl _ _ | apply onWord_led | apply event_led | apply presumeDown_led | with_unfolding_all exact Touch.holds rfl | apply LedO.next | refine LedO.ite ?_ ?_ | refine Led.ite ?_ ?_ | intro _ | fail_if_no_progress refine Led.record ?_ rfl

theorem fenceVaultForms_led {P : Touch} {s t : State} (h : Led P s t) (hw : Touch.within { bay := true, corr := true } P = true) :
    Led P s (fenceVaultForms t) := by
  refine Led.lift h hw ?_
  unfold fenceVaultForms
  with_reducible repeat' first | assumption | exact Led.refl _ _ | apply fenceForms_led | with_unfolding_all exact Touch.holds rfl | fail_if_no_progress refine Led.record ?_ rfl

theorem execVaultDone_led {P : Touch} {s t : State} (a0 a1) (h : Led P s t) (hw : Touch.within { diary := true, tally := true, bay := true, corr := true } P = true) :
    LedO P s (execVaultDone a0 a1 t) := by
  refine LedO.lift h hw ?_
  unfold execVaultDone
  with_reducible repeat' first | assumption | exact Led.refl _ _ | apply onWord_led | apply event_led | apply fenceVaultForms_led | with_unfolding_all exact Touch.holds rfl | apply LedO.next | refine LedO.ite ?_ ?_ | refine Led.ite ?_ ?_ | intro _

theorem execVaultDoneTimeout_led {P : Touch} {s t : State} (h : Led P s t) (hw : Touch.within { bay := true, corr := true } P = true) :
    LedO P s (execVaultDoneTimeout t) := by
  refine LedO.lift h hw ?_
  unfold execVaultDoneTimeout
  with_reducible repeat' first | assumption | exact Led.refl _ _ | apply whenDue_led | apply fenceVaultForms_led | with_unfolding_all exact Touch.holds rfl | apply LedO.next

theorem execVaultRestoreComplete_led {P : Touch} {s t : State} (h : Led P s t) (hw : Touch.within { trust := true, tally := true, stg := true, bay := true, pool := true, corr := true, out := true } P = true) :
    LedO P s (execVaultRestoreComplete t) := by
  refine LedO.lift h hw ?_
  unfold execVaultRestoreComplete
  with_reducible repeat' first | assumption | exact Led.refl _ _ | apply whenDue_led | apply retireImages_led | with_unfolding_all exact Touch.holds rfl | apply LedO.next | fail_if_no_progress refine Led.record ?_ rfl | split

theorem sendSync_led {P : Touch} {s t : State} (h : Led P s t) (hw : Touch.within { trust := true, tally := true, corr := true, out := true, draws := true } P = true) :
    Led P s (sendSync t) := by
  refine Led.lift h hw ?_
  unfold sendSync
  with_reducible repeat' first | assumption | exact Led.refl _ _ | apply send_led | apply drawn_led | with_unfolding_all exact Touch.holds rfl | fail_if_no_progress refine Led.record ?_ rfl

theorem beginMove_led {P : Touch} {s t : State} (a0 a1) (h : Led P s t) (hw : Touch.within { hq := true } P = true) :
    Led P s (beginMove a0 a1 t) := by
  refine Led.lift h hw ?_
  unfold beginMove
  with_reducible repeat' first | assumption | exact Led.refl _ _ | with_unfolding_all exact Touch.holds rfl | fail_if_no_progress refine Led.record ?_ rfl | split

theorem sendCopy_led {P : Touch} {s t : State} (h : Led P s t) (hw : Touch.within { trust := true, tally := true, corr := true, out := true } P = true) :
    Led P s (sendCopy t) := by
  refine Led.lift h hw ?_
  unfold sendCopy
  with_reducible repeat' first | assumption | exact Led.refl _ _ | apply send_led | with_unfolding_all exact Touch.holds rfl | (refine Led.foldl ?_ ?_; rotate_left; intro _ _ _) | fail_if_no_progress refine Led.record ?_ rfl | split

theorem handoverBell_led {P : Touch} {s t : State} (h : Led P s t) (hw : Touch.within { pwr := true, trust := true, diary := true, tally := true, hq := true, corr := true, out := true } P = true) :
    Led P s (handoverBell t) := by
  refine Led.lift h hw ?_
  unfold handoverBell
  with_reducible repeat' first | assumption | exact Led.refl _ _ | apply send_led | apply rollTo_led | apply sendImage_led | apply sendCopy_led | apply beginMove_led | with_unfolding_all exact Touch.holds rfl | (refine Led.foldl ?_ ?_; rotate_left; intro _ _ _) | fail_if_no_progress refine Led.record ?_ rfl | split | dsimp only

theorem postCas_led {P : Touch} {s t : State} (a0 a1) (h : Led P s t) (hw : Touch.within { corr := true, out := true } P = true) :
    Led P s (postCas a0 a1 t) := by
  refine Led.lift h hw ?_
  unfold postCas
  exact Led.record (.refl _ _) rfl

theorem handoverEnds_led {P : Touch} {s t : State} (h : Led P s t) (hw : Touch.within { corr := true, out := true } P = true) :
    Led P s (handoverEnds t) := by
  refine Led.lift h hw ?_
  unfold handoverEnds
  with_reducible repeat' first | assumption | exact Led.refl _ _ | apply postCas_led | with_unfolding_all exact Touch.holds rfl | (refine Led.foldl ?_ ?_; rotate_left; intro _ _ _) | fail_if_no_progress refine Led.record ?_ rfl | split

theorem releaseBell_led {P : Touch} {s t : State} (h : Led P s t) (hw : Touch.within { trust := true, cpi := true, diary := true, tally := true, tt := true, stg := true, bay := true, hq := true, corr := true, out := true } P = true) :
    Led P s (releaseBell t) := by
  refine Led.lift h hw ?_
  unfold releaseBell
  with_reducible repeat' first | assumption | exact Led.refl _ _ | apply selfFence_led | apply send_led | apply changed_led | with_unfolding_all exact Touch.holds rfl | fail_if_no_progress refine Led.record ?_ rfl | split | dsimp only

theorem corrEvent_led {P : Touch} {s t : State} (a0) (h : Led P s t) (hw : Touch.within { diary := true, tally := true } P = true) :
    Led P s (corrEvent a0 t) := by
  refine Led.lift h hw ?_
  unfold corrEvent
  with_reducible repeat' first | assumption | exact Led.refl _ _ | apply event_led | with_unfolding_all exact Touch.holds rfl

theorem refuseLink_led {P : Touch} {s t : State} (a0 a1) (h : Led P s t) (hw : Touch.within { diary := true, tally := true, corr := true } P = true) :
    Led P s (refuseLink a0 a1 t) := by
  refine Led.lift h hw ?_
  unfold refuseLink
  with_reducible repeat' first | assumption | exact Led.refl _ _ | apply corrEvent_led | with_unfolding_all exact Touch.holds rfl | fail_if_no_progress refine Led.record ?_ rfl

theorem sendHello_led {P : Touch} {s t : State} (h : Led P s t) (hw : Touch.within { trust := true, tally := true, corr := true, out := true } P = true) :
    Led P s (sendHello t) := by
  refine Led.lift h hw ?_
  unfold sendHello
  with_reducible repeat' first | assumption | exact Led.refl _ _ | apply send_led | with_unfolding_all exact Touch.holds rfl | fail_if_no_progress refine Led.record ?_ rfl

theorem openChannel_led {P : Touch} {s t : State} (h : Led P s t) (hw : Touch.within { trust := true, tally := true, repl := true, corr := true, out := true, draws := true } P = true) :
    Led P s (openChannel t) := by
  refine Led.lift h hw ?_
  unfold openChannel
  with_reducible repeat' first | assumption | exact Led.refl _ _ | apply send_led | apply drawn_led | with_unfolding_all exact Touch.holds rfl | fail_if_no_progress refine Led.record ?_ rfl

theorem resendAll_led {P : Touch} {s t : State} (h : Led P s t) (hw : Touch.within { trust := true, tally := true, corr := true, out := true } P = true) :
    Led P s (resendAll t) := by
  refine Led.lift h hw ?_
  unfold resendAll
  with_reducible repeat' first | assumption | exact Led.refl _ _ | apply tallyAdd_led | apply transmit_led | with_unfolding_all exact Touch.holds rfl | (refine Led.foldl ?_ ?_; rotate_left; intro _ _ _) | fail_if_no_progress refine Led.record ?_ rfl | split

theorem exchangeMarks_led {P : Touch} {s t : State} (h : Led P s t) (hw : Touch.within { trust := true, tally := true, corr := true, out := true } P = true) :
    Led P s (exchangeMarks t) := by
  refine Led.lift h hw ?_
  unfold exchangeMarks
  with_reducible repeat' first | assumption | exact Led.refl _ _ | apply send_led | with_unfolding_all exact Touch.holds rfl | (refine Led.foldl ?_ ?_; rotate_left; intro _ _ _) | fail_if_no_progress refine Led.record ?_ rfl | split

theorem sendToken_led {P : Touch} {s t : State} (h : Led P s t) (hw : Touch.within { out := true, draws := true } P = true) :
    Led P s (sendToken t) := by
  refine Led.lift h hw ?_
  unfold sendToken
  exact Led.record (.refl _ _) rfl

theorem execCorridorTrain_led {P : Touch} {s t : State} (a0 a1 a2 a3 a4 a5) (h : Led P s t) (hw : Touch.within { trust := true, diary := true, tally := true, repl := true, corr := true, out := true, draws := true } P = true) :
    LedO P s (execCorridorTrain a0 a1 a2 a3 a4 a5 t) := by
  refine LedO.lift h hw ?_
  unfold execCorridorTrain
  with_reducible repeat' first | assumption | exact Led.refl _ _ | apply whenDue_led | apply sendToken_led | apply refuseLink_led | apply corrEvent_led | apply resendAll_led | apply sendSync_led | apply openChannel_led | apply sendHello_led | apply exchangeMarks_led | with_unfolding_all exact Touch.holds rfl | apply LedO.next | refine LedO.ite ?_ ?_ | refine Led.ite ?_ ?_ | intro _ | fail_if_no_progress refine Led.record ?_ rfl

theorem execCorridorRefusedRetry_led {P : Touch} {s t : State} (h : Led P s t) (hw : Touch.within { tally := true, corr := true } P = true) :
    LedO P s (execCorridorRefusedRetry t) := by
  refine LedO.lift h hw ?_
  unfold execCorridorRefusedRetry
  with_reducible repeat' first | assumption | exact Led.refl _ _ | apply whenDue_led | apply tallyAdd_led | with_unfolding_all exact Touch.holds rfl | apply LedO.next | fail_if_no_progress refine Led.record ?_ rfl

theorem execCorridorLinkDown_led {P : Touch} {s t : State} (h : Led P s t) (hw : Touch.within { diary := true, tally := true, corr := true } P = true) :
    LedO P s (execCorridorLinkDown t) := by
  refine LedO.lift h hw ?_
  unfold execCorridorLinkDown
  with_reducible repeat' first | assumption | exact Led.refl _ _ | apply whenDue_led | apply tallyAdd_led | apply corrEvent_led | with_unfolding_all exact Touch.holds rfl | apply LedO.next | fail_if_no_progress refine Led.record ?_ rfl

theorem execCorridorMessageDrop_led {P : Touch} {s t : State} (a0) (h : Led P s t) (hw : Touch.within { diary := true, tally := true } P = true) :
    LedO P s (execCorridorMessageDrop a0 t) := by
  refine LedO.lift h hw ?_
  unfold execCorridorMessageDrop
  with_reducible repeat' first | assumption | exact Led.refl _ _ | apply tallyAdd_led | apply whenDue_led | apply corrEvent_led | with_unfolding_all exact Touch.holds rfl | apply LedO.next | split

theorem execForbiddenPeerMessage_led {P : Touch} {s t : State} (h : Led P s t) (hw : Touch.within { tally := true } P = true) :
    LedO P s (execForbiddenPeerMessage t) := by
  refine LedO.lift h hw ?_
  unfold execForbiddenPeerMessage
  with_reducible repeat' first | assumption | exact Led.refl _ _ | apply tallyAdd_led | with_unfolding_all exact Touch.holds rfl | apply LedO.next

theorem offsetEvent_led {P : Touch} {s t : State} (a0) (h : Led P s t) (hw : Touch.within { diary := true, tally := true } P = true) :
    Led P s (offsetEvent a0 t) := by
  refine Led.lift h hw ?_
  unfold offsetEvent
  with_reducible repeat' first | assumption | exact Led.refl _ _ | apply event_led | with_unfolding_all exact Touch.holds rfl

theorem compareDays_led {P : Touch} {s t : State} (a0) (h : Led P s t) (hw : Touch.within { diary := true, tally := true, tt := true } P = true) :
    Led P s (compareDays a0 t) := by
  refine Led.lift h hw ?_
  unfold compareDays
  with_reducible repeat' first | assumption | exact Led.refl _ _ | apply offsetEvent_led | with_unfolding_all exact Touch.holds rfl | fail_if_no_progress refine Led.record ?_ rfl | split

theorem execBellSync_led {P : Touch} {s t : State} (a0 a1 a2 a3) (h : Led P s t) (hw : Touch.within { trust := true, diary := true, tally := true, tt := true, corr := true, out := true } P = true) :
    LedO P s (execBellSync a0 a1 a2 a3 t) := by
  refine LedO.lift h hw ?_
  unfold execBellSync
  with_reducible repeat' first | assumption | exact Led.refl _ _ | apply onWord_led | apply send_led | apply compareDays_led | apply offsetEvent_led | with_unfolding_all exact Touch.holds rfl | apply LedO.next | refine LedO.ite ?_ ?_ | refine Led.ite ?_ ?_ | intro _ | fail_if_no_progress refine Led.record ?_ rfl

theorem execWitnessCasComplete_led {P : Touch} {s t : State} (a0 a1) (h : Led P s t) (hw : Touch.within { bay := true, corr := true, out := true } P = true) :
    LedO P s (execWitnessCasComplete a0 a1 t) := by
  refine LedO.lift h hw ?_
  unfold execWitnessCasComplete
  with_reducible repeat' first | assumption | exact Led.refl _ _ | apply setBay_led | apply postCas_led | with_unfolding_all exact Touch.holds rfl | apply LedO.next | fail_if_no_progress refine Led.record ?_ rfl | split | dsimp only

theorem execArbitrationCount_led {P : Touch} {s t : State} (h : Led P s t) (hw : Touch.within { trust := true, cpi := true, diary := true, tally := true, tt := true, stg := true, bay := true, hq := true, corr := true, out := true } P = true) :
    LedO P s (execArbitrationCount t) := by
  refine LedO.lift h hw ?_
  unfold execArbitrationCount
  with_reducible repeat' first | assumption | exact Led.refl _ _ | apply whenDue_led | apply event_led | apply presumeDown_led | apply selfFence_led | with_unfolding_all exact Touch.holds rfl | apply LedO.next | fail_if_no_progress refine Led.record ?_ rfl | split | dsimp only

theorem startRound_led {P : Touch} {s t : State} (h : Led P s t) (hw : Touch.within { corr := true, out := true } P = true) :
    Led P s (startRound t) := by
  refine Led.lift h hw ?_
  unfold startRound
  with_reducible repeat' first | assumption | exact Led.refl _ _ | apply postCas_led | with_unfolding_all exact Touch.holds rfl | (refine Led.foldl ?_ ?_; rotate_left; intro _ _ _) | fail_if_no_progress refine Led.record ?_ rfl | split

theorem execArbitrationRetry_led {P : Touch} {s t : State} (h : Led P s t) (hw : Touch.within { corr := true, out := true } P = true) :
    LedO P s (execArbitrationRetry t) := by
  refine LedO.lift h hw ?_
  unfold execArbitrationRetry
  with_reducible repeat' first | assumption | exact Led.refl _ _ | apply whenDue_led | apply startRound_led | with_unfolding_all exact Touch.holds rfl | apply LedO.next

theorem rejoin_led {P : Touch} {s t : State} (h : Led P s t) (hw : Touch.within { pwr := true, trust := true, diary := true, tally := true, tt := true, stg := true, ddp := true, ftl := true, ec := true, bay := true, jobs := true, corr := true, out := true } P = true) :
    Led P s (rejoin t) := by
  refine Led.lift h hw ?_
  unfold rejoin
  with_reducible repeat' first | assumption | exact Led.refl _ _ | apply rollTo_led | apply sendHello_led | apply putSheet_led | with_unfolding_all exact Touch.holds rfl | fail_if_no_progress refine Led.record ?_ rfl

theorem execHeartbeat_led {P : Touch} {s t : State} (a0 a1 a2 a3 a4 a5) (h : Led P s t) (hw : Touch.within { pwr := true, trust := true, cpi := true, diary := true, tally := true, tt := true, stg := true, ddp := true, ftl := true, ec := true, bay := true, jobs := true, hq := true, corr := true, out := true } P = true) :
    LedO P s (execHeartbeat a0 a1 a2 a3 a4 a5 t) := by
  refine LedO.lift h hw ?_
  unfold execHeartbeat
  with_reducible repeat' first | assumption | exact Led.refl _ _ | apply onWord_led | apply presumeDown_led | apply rollTo_led | apply selfFence_led | apply rejoin_led | with_unfolding_all exact Touch.holds rfl | apply LedO.next | refine LedO.ite ?_ ?_ | refine Led.ite ?_ ?_ | intro _ | fail_if_no_progress refine Led.record ?_ rfl

theorem execHeartbeatMissed_led {P : Touch} {s t : State} (h : Led P s t) (hw : Touch.within { diary := true, tally := true, tt := true, stg := true, bay := true, hq := true, corr := true, out := true } P = true) :
    LedO P s (execHeartbeatMissed t) := by
  refine LedO.lift h hw ?_
  unfold execHeartbeatMissed
  with_reducible repeat' first | assumption | exact Led.refl _ _ | apply whenDue_led | apply event_led | apply selfFence_led | apply rollTo_led | apply startRound_led | with_unfolding_all exact Touch.holds rfl | apply LedO.next | fail_if_no_progress refine Led.record ?_ rfl | split | dsimp only

theorem execReleaseNotice_led {P : Touch} {s t : State} (a0) (h : Led P s t) (hw : Touch.within { trust := true, cpi := true, diary := true, tally := true, tt := true, bay := true, hq := true, corr := true, out := true } P = true) :
    LedO P s (execReleaseNotice a0 t) := by
  refine LedO.lift h hw ?_
  unfold execReleaseNotice
  with_reducible repeat' first | assumption | exact Led.refl _ _ | apply onWord_led | apply presumeDown_led | with_unfolding_all exact Touch.holds rfl | apply LedO.next | refine LedO.ite ?_ ?_ | refine Led.ite ?_ ?_ | intro _

theorem execBlpStatusComplete_led {P : Touch} {s t : State} (a0 a1) (h : Led P s t) (hw : Touch.within { trust := true, cpi := true, diary := true, tally := true, tt := true, stg := true, ftl := true, ec := true, bay := true, pool := true, jobs := true, hq := true, corr := true, out := true } P = true) :
    LedO P s (execBlpStatusComplete a0 a1 t) := by
  refine LedO.lift h hw ?_
  unfold execBlpStatusComplete
  with_reducible repeat' first | assumption | exact Led.refl _ _ | apply onDone_led | apply endDiag_led | apply selfFence_led | apply fenceForms_led | with_unfolding_all exact Touch.holds rfl | apply LedO.next | refine LedO.ite ?_ ?_ | refine Led.ite ?_ ?_ | intro _ | fail_if_no_progress refine Led.record ?_ rfl | split

theorem dropUnmarked_led {P : Touch} {s t : State} (h : Led P s t) (hw : Touch.within { trust := true, tally := true, stg := true, ftl := true, bay := true, jobs := true, hq := true, corr := true, out := true, draws := true } P = true) :
    Led P s (dropUnmarked t) := by
  refine Led.lift h hw ?_
  unfold dropUnmarked
  with_reducible repeat' first | assumption | exact Led.refl _ _ | apply unpin_led | apply dropCtx_led | apply freeVersions_led | apply wakeReads_led | with_unfolding_all exact Touch.holds rfl | (refine Led.foldl ?_ ?_; rotate_left; intro _ _ _) | fail_if_no_progress refine Led.record ?_ rfl | split

theorem takeHalf_led {P : Touch} {s t : State} (h : Led P s t) (hw : Touch.within { ddp := true } P = true) :
    Led P s (takeHalf t) := by
  refine Led.lift h hw ?_
  unfold takeHalf
  exact Led.record (.refl _ _) rfl

theorem takeResolutions_led {P : Touch} {s t : State} (h : Led P s t) (hw : Touch.within { trust := true, tally := true, ddp := true, ftl := true, corr := true, out := true } P = true) :
    Led P s (takeResolutions t) := by
  refine Led.lift h hw ?_
  unfold takeResolutions
  with_reducible repeat' first | assumption | exact Led.refl _ _ | apply reclaim_led | with_unfolding_all exact Touch.holds rfl | (refine Led.foldl ?_ ?_; rotate_left; intro _ _ _) | fail_if_no_progress refine Led.record ?_ rfl | split

theorem takeDeltas_led {P : Touch} {s t : State} (h : Led P s t) (hw : Touch.within { diary := true, tally := true, ddp := true, ftl := true } P = true) :
    Led P s (takeDeltas t) := by
  refine Led.lift h hw ?_
  unfold takeDeltas
  with_reducible repeat' first | assumption | exact Led.refl _ _ | apply addRef_led | with_unfolding_all exact Touch.holds rfl | (refine Led.foldl ?_ ?_; rotate_left; intro _ _ _) | fail_if_no_progress refine Led.record ?_ rfl | split

theorem execFailoverReplay_led {P : Touch} {s t : State} (h : Led P s t) (hw : Touch.within { trust := true, diary := true, tally := true, stg := true, ddp := true, ftl := true, ec := true, bay := true, pool := true, saved := true, ciph := true, jobs := true, hq := true, repl := true, corr := true, out := true, draws := true } P = true) :
    LedO P s (execFailoverReplay t) := by
  refine LedO.lift h hw ?_
  unfold execFailoverReplay
  with_reducible repeat' first | assumption | exact Led.refl _ _ | apply whenDue_led | apply closeTorn_led | apply takeHalf_led | apply takeDeltas_led | apply takeResolutions_led | apply dropUnmarked_led | apply answersGone_led | apply cutAgain_led | apply advanceDurable_led | apply retireImages_led | with_unfolding_all exact Touch.holds rfl | apply LedO.next | fail_if_no_progress refine Led.record ?_ rfl | split | dsimp only

theorem bindTaken_led {P : Touch} {s t : State} (a0) (h : Led P s t) (hw : Touch.within { stg := true, hq := true } P = true) :
    Led P s (bindTaken a0 t) := by
  refine Led.lift h hw ?_
  unfold bindTaken
  with_reducible repeat' first | assumption | exact Led.refl _ _ | apply noteReaders_led | apply setCtx_led | with_unfolding_all exact Touch.holds rfl | (refine Led.foldl ?_ ?_; rotate_left; intro _ _ _) | fail_if_no_progress refine Led.record ?_ rfl | split

theorem putOwner_led {P : Touch} {s t : State} (a0 a1) (h : Led P s t) (hw : Touch.within { diary := true, tally := true, hq := true, out := true } P = true) :
    Led P s (putOwner a0 a1 t) := by
  refine Led.lift h hw ?_
  unfold putOwner
  with_reducible repeat' first | assumption | exact Led.refl _ _ | apply notifyAll_led | apply event_led | with_unfolding_all exact Touch.holds rfl | fail_if_no_progress refine Led.record ?_ rfl

theorem execFailoverTakeover_led {P : Touch} {s t : State} (h : Led P s t) (hw : Touch.within { trust := true, diary := true, tally := true, stg := true, hq := true, corr := true, out := true } P = true) :
    LedO P s (execFailoverTakeover t) := by
  refine LedO.lift h hw ?_
  unfold execFailoverTakeover
  with_reducible repeat' first | assumption | exact Led.refl _ _ | apply whenDue_led | apply resumeActivation_led | apply bindTaken_led | apply putOwner_led | with_unfolding_all exact Touch.holds rfl | apply LedO.next | (refine Led.foldl ?_ ?_; rotate_left; intro _ _ _) | fail_if_no_progress refine Led.record ?_ rfl | split

theorem execAnaOwnershipMove_led {P : Touch} {s t : State} (a0) (h : Led P s t) (hw : Touch.within { trust := true, tally := true, corr := true, out := true } P = true) :
    LedO P s (execAnaOwnershipMove a0 t) := by
  refine LedO.lift h hw ?_
  unfold execAnaOwnershipMove
  with_reducible repeat' first | assumption | exact Led.refl _ _ | apply whenDue_led | apply send_led | with_unfolding_all exact Touch.holds rfl | apply LedO.next | split

theorem answerMoves_led {P : Touch} {s t : State} (a0) (h : Led P s t) (hw : Touch.within { trust := true, cpi := true, diary := true, tally := true, corr := true, out := true } P = true) :
    Led P s (answerMoves a0 t) := by
  refine Led.lift h hw ?_
  unfold answerMoves
  with_reducible repeat' first | assumption | exact Led.refl _ _ | apply changed_led | with_unfolding_all exact Touch.holds rfl | (refine Led.foldl ?_ ?_; rotate_left; intro _ _ _) | fail_if_no_progress refine Led.record ?_ rfl | split

theorem execAnaMove_led {P : Touch} {s t : State} (a0 a1 a2 a3 a4) (h : Led P s t) (hw : Touch.within { trust := true, cpi := true, diary := true, tally := true, stg := true, hq := true, corr := true, out := true } P = true) :
    LedO P s (execAnaMove a0 a1 a2 a3 a4 t) := by
  refine LedO.lift h hw ?_
  unfold execAnaMove
  with_reducible repeat' first | assumption | exact Led.refl _ _ | apply onMessage_led | apply settleNumber_led | apply answerMoves_led | apply putOwner_led | apply reply_led | apply bindTaken_led | with_unfolding_all exact Touch.holds rfl | apply LedO.next | refine LedO.ite ?_ ?_ | refine Led.ite ?_ ?_ | intro _ | fail_if_no_progress refine Led.record ?_ rfl | split

theorem execAnaMoveGroup_led {P : Touch} {s t : State} (a0 a1) (h : Led P s t) (hw : Touch.within { trust := true, cpi := true, diary := true, tally := true, hq := true, corr := true, out := true } P = true) :
    LedO P s (execAnaMoveGroup a0 a1 t) := by
  refine LedO.lift h hw ?_
  unfold execAnaMoveGroup
  with_reducible repeat' first | assumption | exact Led.refl _ _ | apply onPacket_led | apply changed_led | apply badParam_led | apply beginMove_led | apply settleNumber_led | apply send_led | with_unfolding_all exact Touch.holds rfl | apply LedO.next | refine LedO.ite ?_ ?_ | refine Led.ite ?_ ?_ | intro _

theorem execSbChange_led {P : Touch} {s t : State} (a0 a1 a2) (h : Led P s t) (hw : Touch.within { trust := true, tally := true, ec := true, bay := true, pool := true, corr := true, out := true } P = true) :
    LedO P s (execSbChange a0 a1 a2 t) := by
  refine LedO.lift h hw ?_
  unfold execSbChange
  with_reducible repeat' first | assumption | exact Led.refl _ _ | apply onMessage_led | apply settleNumber_led | apply takeSuperblock_led | apply reply_led | apply anchorWrite_led | apply configWrite_led | with_unfolding_all exact Touch.holds rfl | apply LedO.next | refine LedO.ite ?_ ?_ | refine Led.ite ?_ ?_ | intro _ | fail_if_no_progress refine Led.record ?_ rfl | split

theorem bindHead_led {P : Touch} {s t : State} (a0 a1 a2) (h : Led P s t) (hw : Touch.within { trust := true, tally := true, bay := true, pool := true, corr := true, out := true } P = true) :
    Led P s (bindHead a0 a1 a2 t) := by
  refine Led.lift h hw ?_
  unfold bindHead
  with_reducible repeat' first | assumption | exact Led.refl _ _ | apply configWrite_led | with_unfolding_all exact Touch.holds rfl | fail_if_no_progress refine Led.record ?_ rfl

theorem execHello_led {P : Touch} {s t : State} (a0 a1) (h : Led P s t) (hw : Touch.within { trust := true, diary := true, tally := true, bay := true, pool := true, corr := true, out := true } P = true) :
    LedO P s (execHello a0 a1 t) := by
  refine LedO.lift h hw ?_
  unfold execHello
  with_reducible repeat' first | assumption | exact Led.refl _ _ | apply onMessage_led | apply settleNumber_led | apply bindHead_led | apply reply_led | apply rollTo_led | with_unfolding_all exact Touch.holds rfl | apply LedO.next | refine LedO.ite ?_ ?_ | refine Led.ite ?_ ?_ | intro _ | fail_if_no_progress refine Led.record ?_ rfl | split

theorem execResyncDone_led {P : Touch} {s t : State} (a0 a1 a2 a3) (h : Led P s t) (hw : Touch.within { trust := true, tally := true, tt := true, corr := true, out := true } P = true) :
    LedO P s (execResyncDone a0 a1 a2 a3 t) := by
  refine LedO.lift h hw ?_
  unfold execResyncDone
  with_reducible repeat' first | assumption | exact Led.refl _ _ | apply onWord_led | apply trigger_led | with_unfolding_all exact Touch.holds rfl | apply LedO.next | refine LedO.ite ?_ ?_ | refine Led.ite ?_ ?_ | intro _ | fail_if_no_progress refine Led.record ?_ rfl

theorem execHeadAdopt_led {P : Touch} {s t : State} (a0 a1) (h : Led P s t) (hw : Touch.within { trust := true, cpi := true, diary := true, tally := true, corr := true, out := true } P = true) :
    LedO P s (execHeadAdopt a0 a1 t) := by
  refine LedO.lift h hw ?_
  unfold execHeadAdopt
  with_reducible repeat' first | assumption | exact Led.refl _ _ | apply onPacket_led | apply refuse_led | apply changed_led | with_unfolding_all exact Touch.holds rfl | apply LedO.next | refine LedO.ite ?_ ?_ | refine Led.ite ?_ ?_ | intro _ | fail_if_no_progress refine Led.record ?_ rfl

theorem execHeadRelease_led {P : Touch} {s t : State} (a0 a1) (h : Led P s t) (hw : Touch.within { trust := true, cpi := true, tally := true, hq := true, corr := true, out := true } P = true) :
    LedO P s (execHeadRelease a0 a1 t) := by
  refine LedO.lift h hw ?_
  unfold execHeadRelease
  with_reducible repeat' first | assumption | exact Led.refl _ _ | apply onPacket_led | apply refuse_led | apply beginMove_led | with_unfolding_all exact Touch.holds rfl | apply LedO.next | refine LedO.ite ?_ ?_ | refine Led.ite ?_ ?_ | intro _ | (refine Led.foldl ?_ ?_; rotate_left; intro _ _ _) | fail_if_no_progress refine Led.record ?_ rfl | split

theorem standChannel_led {P : Touch} {s t : State} (a0 a1) (h : Led P s t) (hw : Touch.within { trust := true, tally := true, repl := true, out := true } P = true) :
    Led P s (standChannel a0 a1 t) := by
  refine Led.lift h hw ?_
  unfold standChannel
  with_reducible repeat' first | assumption | exact Led.refl _ _ | apply transmit_led | with_unfolding_all exact Touch.holds rfl | (refine Led.foldl ?_ ?_; rotate_left; intro _ _ _) | fail_if_no_progress refine Led.record ?_ rfl | split

theorem tellVersion_led {P : Touch} {s t : State} (h : Led P s t) (hw : Touch.within { trust := true, tally := true, corr := true, out := true } P = true) :
    Led P s (tellVersion t) := by
  refine Led.lift h hw ?_
  unfold tellVersion
  with_reducible repeat' first | assumption | exact Led.refl _ _ | apply send_led | with_unfolding_all exact Touch.holds rfl

theorem pairHandshake_led {P : Touch} {s t : State} (a0 a1) (h : Led P s t) (hw : Touch.within { trust := true, tally := true, repl := true, corr := true, out := true, draws := true } P = true) :
    Led P s (pairHandshake a0 a1 t) := by
  refine Led.lift h hw ?_
  unfold pairHandshake
  with_reducible repeat' first | assumption | exact Led.refl _ _ | apply settleNumber_led | apply reply_led | apply drawn_led | apply send_led | apply tellVersion_led | apply standChannel_led | with_unfolding_all exact Touch.holds rfl | fail_if_no_progress refine Led.record ?_ rfl | split | dsimp only

theorem takeRecord_led {P : Touch} {s t : State} (a0) (h : Led P s t) (hw : Touch.within { trust := true, tally := true, ciph := true, corr := true } P = true) :
    Led P s (takeRecord a0 t) := by
  refine Led.lift h hw ?_
  unfold takeRecord
  with_reducible repeat' first | assumption | exact Led.refl _ _ | apply takeLockers_led | apply extendMr_led | apply setLocker_led | with_unfolding_all exact Touch.holds rfl | fail_if_no_progress refine Led.record ?_ rfl | split

theorem recordAnswered_led {P : Touch} {s t : State} (a0) (h : Led P s t) (hw : Touch.within { corr := true } P = true) :
    Led P s (recordAnswered a0 t) := by
  refine Led.lift h hw ?_
  unfold recordAnswered
  with_reducible repeat' first | assumption | exact Led.refl _ _ | with_unfolding_all exact Touch.holds rfl | fail_if_no_progress refine Led.record ?_ rfl | split

theorem execPrefectRecord_led {P : Touch} {s t : State} (a0 a1) (h : Led P s t) (hw : Touch.within { trust := true, tally := true, ciph := true, repl := true, corr := true, out := true, draws := true } P = true) :
    LedO P s (execPrefectRecord a0 a1 t) := by
  refine LedO.lift h hw ?_
  unfold execPrefectRecord
  with_reducible repeat' first | assumption | exact Led.refl _ _ | apply onMessage_led | apply pairHandshake_led | apply recordAnswered_led | apply settleNumber_led | apply takeRecord_led | apply reply_led | apply resendAll_led | with_unfolding_all exact Touch.holds rfl | apply LedO.next | refine LedO.ite ?_ ?_ | refine Led.ite ?_ ?_ | intro _ | fail_if_no_progress refine Led.record ?_ rfl | split

theorem restLed_led {P : Touch} {s t : State} (a0) (h : Led P s t) (hw : Touch.within { pins := true } P = true) :
    Led P s (restLed a0 t) := by
  refine Led.lift h hw ?_
  unfold restLed
  exact Led.record (.refl _ _) rfl

theorem ledBell_led {P : Touch} {s t : State} (h : Led P s t) (hw : Touch.within { pins := true, cpi := true } P = true) :
    Led P s (ledBell t) := by
  refine Led.lift h hw ?_
  unfold ledBell
  with_reducible repeat' first | assumption | exact Led.refl _ _ | apply drivePin_led | apply restLed_led | apply releaseClaims_led | apply claimAll_led | with_unfolding_all exact Touch.holds rfl | (refine Led.foldl ?_ ?_; rotate_left; intro _ _ _) | fail_if_no_progress refine Led.record ?_ rfl | split | dsimp only

theorem loseVersion_led {P : Touch} {s t : State} (a0 a1 a2 a3) (h : Led P s t) (hw : Touch.within { stg := true } P = true) :
    Led P s (loseVersion a0 a1 a2 a3 t) := by
  refine Led.lift h hw ?_
  unfold loseVersion
  with_reducible repeat' first | assumption | exact Led.refl _ _ | with_unfolding_all exact Touch.holds rfl | fail_if_no_progress refine Led.record ?_ rfl | split

theorem refetchPage_led {P : Touch} {s t : State} (a0) (h : Led P s t) (hw : Touch.within { ftl := true, bay := true } P = true) :
    Led P s (refetchPage a0 t) := by
  refine Led.lift h hw ?_
  unfold refetchPage
  with_reducible repeat' first | assumption | exact Led.refl _ _ | apply fetchMeta_led | with_unfolding_all exact Touch.holds rfl | fail_if_no_progress refine Led.record ?_ rfl | split

theorem poisoned_led {P : Touch} {s t : State} (a0) (h : Led P s t) (hw : Touch.within { trust := true, cpi := true, diary := true, tally := true, stg := true, ddp := true, ftl := true, bay := true, ciph := true, jobs := true, hq := true, repl := true, corr := true, out := true, draws := true } P = true) :
    Led P s (poisoned a0 t) := by
  refine Led.lift h hw ?_
  unfold poisoned
  with_reducible repeat' first | assumption | exact Led.refl _ _ | apply loseVersion_led | apply refetchPage_led | apply loseAssociation_led | apply endConnection_led | apply sealsRead_led | with_unfolding_all exact Touch.holds rfl | fail_if_no_progress refine Led.record ?_ rfl | split

theorem execDramUncorrectable_led {P : Touch} {s t : State} (a0 a1 a2) (h : Led P s t) (hw : Touch.within { dram := true, trust := true, cpi := true, diary := true, tally := true, stg := true, ddp := true, ftl := true, bay := true, ciph := true, jobs := true, hq := true, repl := true, corr := true, out := true, draws := true } P = true) :
    LedO P s (execDramUncorrectable a0 a1 a2 t) := by
  refine LedO.lift h hw ?_
  unfold execDramUncorrectable
  with_reducible repeat' first | assumption | exact Led.refl _ _ | apply poisoned_led | apply noteUncorrectable_led | with_unfolding_all exact Touch.holds rfl | apply LedO.next

theorem execDramChannelOut_led {P : Touch} {s t : State} (a0) (h : Led P s t) (hw : Touch.within { dram := true, trust := true, tally := true, tt := true, corr := true, out := true } P = true) :
    LedO P s (execDramChannelOut a0 t) := by
  refine LedO.lift h hw ?_
  unfold execDramChannelOut
  with_reducible repeat' first | assumption | exact Led.refl _ _ | apply whenDue_led | apply setChannel_led | apply trigger_led | with_unfolding_all exact Touch.holds rfl | apply LedO.next | fail_if_no_progress refine Led.record ?_ rfl

theorem channelHome_led {P : Touch} {s t : State} (a0) (h : Led P s t) (hw : Touch.within { dram := true, diary := true, tally := true, tt := true } P = true) :
    Led P s (channelHome a0 t) := by
  refine Led.lift h hw ?_
  unfold channelHome
  with_reducible repeat' first | assumption | exact Led.refl _ _ | apply channelEvent_led | apply setChannel_led | apply nextBringUp_led | apply beginReturn_led | with_unfolding_all exact Touch.holds rfl | fail_if_no_progress refine Led.record ?_ rfl | split | dsimp only

theorem retrainChannel_led {P : Touch} {s t : State} (a0) (h : Led P s t) (hw : Touch.within { dram := true, diary := true, tally := true } P = true) :
    Led P s (retrainChannel a0 t) := by
  refine Led.lift h hw ?_
  unfold retrainChannel
  with_reducible repeat' first | assumption | exact Led.refl _ _ | apply channelEvent_led | apply setChannel_led | with_unfolding_all exact Touch.holds rfl | fail_if_no_progress refine Led.record ?_ rfl

theorem execDramEvacCopyDone_led {P : Touch} {s t : State} (a0) (h : Led P s t) (hw : Touch.within { dram := true, diary := true, tally := true, tt := true } P = true) :
    LedO P s (execDramEvacCopyDone a0 t) := by
  refine LedO.lift h hw ?_
  unfold execDramEvacCopyDone
  with_reducible repeat' first | assumption | exact Led.refl _ _ | apply retrainChannel_led | apply channelEvent_led | apply setChannel_led | apply channelHome_led | with_unfolding_all exact Touch.holds rfl | apply LedO.next | fail_if_no_progress refine Led.record ?_ rfl | split

theorem bringUpProgress_led {P : Touch} {s t : State} (h : Led P s t) (hw : Touch.within { dram := true, trust := true } P = true) :
    Led P s (bringUpProgress t) := by
  refine Led.lift h hw ?_
  unfold bringUpProgress
  with_reducible repeat' first | assumption | exact Led.refl _ _ | apply bringUpReady_led | apply nextBringUp_led | with_unfolding_all exact Touch.holds rfl | split

theorem nextAccepted_led {P : Touch} {s t : State} (h : Led P s t) (hw : Touch.within { dram := true } P = true) :
    Led P s (nextAccepted t) := by
  refine Led.lift h hw ?_
  unfold nextAccepted
  with_reducible repeat' first | assumption | exact Led.refl _ _ | apply startTraining_led | with_unfolding_all exact Touch.holds rfl | split

theorem execDramTrainingDone_led {P : Touch} {s t : State} (a0 a1) (h : Led P s t) (hw : Touch.within { dram := true, trust := true, diary := true, tally := true, tt := true, corr := true, out := true } P = true) :
    LedO P s (execDramTrainingDone a0 a1 t) := by
  refine LedO.lift h hw ?_
  unfold execDramTrainingDone
  with_reducible repeat' first | assumption | exact Led.refl _ _ | apply whenDue_led | apply channelEvent_led | apply setChannel_led | apply nextBringUp_led | apply bringUpProgress_led | apply trigger_led | apply nextAccepted_led | with_unfolding_all exact Touch.holds rfl | apply LedO.next | fail_if_no_progress refine Led.record ?_ rfl | split | dsimp only

theorem execDramChannelDead_led {P : Touch} {s t : State} (a0) (h : Led P s t) (hw : Touch.within { pwr := true, pins := true, dram := true, trust := true, cpi := true, diary := true, tally := true, tt := true, stg := true, ftl := true, bay := true, ciph := true, hq := true, corr := true, out := true } P = true) :
    LedO P s (execDramChannelDead a0 t) := by
  refine LedO.lift h hw ?_
  unfold execDramChannelDead
  with_reducible repeat' first | assumption | exact Led.refl _ _ | apply whenDue_led | apply channelEvent_led | apply setChannel_led | apply selfFence_led | apply send_led | apply enterVault_led | with_unfolding_all exact Touch.holds rfl | apply LedO.next | fail_if_no_progress refine Led.record ?_ rfl | split | dsimp only

theorem execDiagDramChannel_led {P : Touch} {s t : State} (a0 a1) (h : Led P s t) (hw : Touch.within { dram := true, trust := true, cpi := true, diary := true, tally := true, tt := true, corr := true, out := true } P = true) :
    LedO P s (execDiagDramChannel a0 a1 t) := by
  refine LedO.lift h hw ?_
  unfold execDiagDramChannel
  with_reducible repeat' first | assumption | exact Led.refl _ _ | apply onPacket_led | apply badParam_led | apply changed_led | apply retrainChannel_led | apply refuse_led | apply trigger_led | with_unfolding_all exact Touch.holds rfl | apply LedO.next | refine LedO.ite ?_ ?_ | refine Led.ite ?_ ?_ | intro _ | fail_if_no_progress refine Led.record ?_ rfl

theorem pinAction_led {P : Touch} {s t : State} (a0) (h : Led P s t) (hw : Touch.within { stg := true } P = true) :
    Led P s (pinAction a0 t) := by
  refine Led.lift h hw ?_
  unfold pinAction
  with_reducible repeat' first | assumption | exact Led.refl _ _ | with_unfolding_all exact Touch.holds rfl | fail_if_no_progress refine Led.record ?_ rfl | split

theorem execPinFaultDetect_led {P : Touch} {s t : State} (a0 a1) (h : Led P s t) (hw : Touch.within { pins := true, diary := true, tally := true, stg := true } P = true) :
    LedO P s (execPinFaultDetect a0 a1 t) := by
  refine LedO.lift h hw ?_
  unfold execPinFaultDetect
  with_reducible repeat' first | assumption | exact Led.refl _ _ | apply whenDue_led | apply pinAction_led | apply pinFound_led | with_unfolding_all exact Touch.holds rfl | apply LedO.next

theorem failPinSound_led {P : Touch} {s t : State} (h : Led P s t) (hw : Touch.within { stg := true } P = true) :
    Led P s (failPinSound t) := by
  refine Led.lift h hw ?_
  unfold failPinSound
  with_reducible repeat' first | assumption | exact Led.refl _ _ | with_unfolding_all exact Touch.holds rfl | fail_if_no_progress refine Led.record ?_ rfl | split

theorem execPinFaultClear_led {P : Touch} {s t : State} (a0) (h : Led P s t) (hw : Touch.within { pins := true, stg := true } P = true) :
    LedO P s (execPinFaultClear a0 t) := by
  refine LedO.lift h hw ?_
  unfold execPinFaultClear
  with_reducible repeat' first | assumption | exact Led.refl _ _ | apply whenDue_led | apply updPin_led | apply failPinSound_led | with_unfolding_all exact Touch.holds rfl | apply LedO.next | split

theorem execDiagPin_led {P : Touch} {s t : State} (a0 a1) (h : Led P s t) (hw : Touch.within { pins := true, trust := true, cpi := true, diary := true, tally := true, corr := true, out := true } P = true) :
    LedO P s (execDiagPin a0 a1 t) := by
  refine LedO.lift h hw ?_
  unfold execDiagPin
  with_reducible repeat' first | assumption | exact Led.refl _ _ | apply onPacket_led | apply answered_led | apply badParam_led | apply refuse_led | apply restLed_led | apply releaseClaims_led | apply changed_led | apply drivePin_led | apply claimAll_led | with_unfolding_all exact Touch.holds rfl | apply LedO.next | refine LedO.ite ?_ ?_ | refine Led.ite ?_ ?_ | intro _ | fail_if_no_progress refine Led.record ?_ rfl | split

theorem portLinks_led {P : Touch} {s t : State} (a0 a1) (h : Led P s t) (hw : Touch.within { hq := true } P = true) :
    Led P s (portLinks a0 a1 t) := by
  refine Led.lift h hw ?_
  unfold portLinks
  exact Led.record (.refl _ _) rfl

theorem execSysInfo_led {P : Touch} {s t : State} (a0 a1) (h : Led P s t) (hw : Touch.within { trust := true, cpi := true, tally := true, corr := true, out := true } P = true) :
    LedO P s (execSysInfo a0 a1 t) := by
  refine LedO.lift h hw ?_
  unfold execSysInfo
  with_reducible repeat' first | assumption | exact Led.refl _ _ | apply onPacket_led | apply answered_led | with_unfolding_all exact Touch.holds rfl | apply LedO.next | refine LedO.ite ?_ ?_ | refine Led.ite ?_ ?_ | intro _

theorem islandReset_led {P : Touch} {s t : State} (a0) (h : Led P s t) (hw : Touch.within { pwr := true, diary := true, tally := true } P = true) :
    Led P s (islandReset a0 t) := by
  refine Led.lift h hw ?_
  unfold islandReset
  with_reducible repeat' first | assumption | exact Led.refl _ _ | apply tallyAdd_led | apply event_led | with_unfolding_all exact Touch.holds rfl | fail_if_no_progress refine Led.record ?_ rfl | split

theorem resetPorts_led {P : Touch} {s t : State} (a0) (h : Led P s t) (hw : Touch.within { pwr := true, trust := true, cpi := true, diary := true, tally := true, stg := true, ftl := true, bay := true, jobs := true, hq := true, repl := true, corr := true, out := true, draws := true } P = true) :
    Led P s (resetPorts a0 t) := by
  refine Led.lift h hw ?_
  unfold resetPorts
  with_reducible repeat' first | assumption | exact Led.refl _ _ | apply endQueue_led | apply islandReset_led | apply portLinks_led | apply loseAssociation_led | with_unfolding_all exact Touch.holds rfl | (refine Led.foldl ?_ ?_; rotate_left; intro _ _ _) | fail_if_no_progress refine Led.record ?_ rfl | split

theorem execSysPortMode_led {P : Touch} {s t : State} (a0 a1) (h : Led P s t) (hw : Touch.within { pwr := true, trust := true, cpi := true, diary := true, tally := true, stg := true, ftl := true, bay := true, jobs := true, hq := true, repl := true, corr := true, out := true, draws := true } P = true) :
    LedO P s (execSysPortMode a0 a1 t) := by
  refine LedO.lift h hw ?_
  unfold execSysPortMode
  with_reducible repeat' first | assumption | exact Led.refl _ _ | apply onPacket_led | apply refuse_led | apply changed_led | apply resetPorts_led | with_unfolding_all exact Touch.holds rfl | apply LedO.next | refine LedO.ite ?_ ?_ | refine Led.ite ?_ ?_ | intro _ | fail_if_no_progress refine Led.record ?_ rfl

theorem execSysIslandReset_led {P : Touch} {s t : State} (a0 a1) (h : Led P s t) (hw : Touch.within { pwr := true, trust := true, cpi := true, diary := true, tally := true, stg := true, ftl := true, bay := true, jobs := true, hq := true, repl := true, corr := true, out := true, draws := true } P = true) :
    LedO P s (execSysIslandReset a0 a1 t) := by
  refine LedO.lift h hw ?_
  unfold execSysIslandReset
  with_reducible repeat' first | assumption | exact Led.refl _ _ | apply onPacket_led | apply changed_led | apply islandReset_led | apply refuse_led | apply resetPorts_led | with_unfolding_all exact Touch.holds rfl | apply LedO.next | refine LedO.ite ?_ ?_ | refine Led.ite ?_ ?_ | intro _ | fail_if_no_progress refine Led.record ?_ rfl

theorem rebindHost_led {P : Touch} {s t : State} (a0 a1) (h : Led P s t) (hw : Touch.within { cpi := true, hq := true, draws := true } P = true) :
    Led P s (rebindHost a0 a1 t) := by
  refine Led.lift h hw ?_
  unfold rebindHost
  with_reducible repeat' first | assumption | exact Led.refl _ _ | apply bind_led | apply loseBinding_led | with_unfolding_all exact Touch.holds rfl | (refine Led.foldl ?_ ?_; rotate_left; intro _ _ _) | fail_if_no_progress refine Led.record ?_ rfl | split

theorem execSysBinding_led {P : Touch} {s t : State} (a0 a1 a2) (h : Led P s t) (hw : Touch.within { trust := true, cpi := true, diary := true, tally := true, hq := true, corr := true, out := true, draws := true } P = true) :
    LedO P s (execSysBinding a0 a1 a2 t) := by
  refine LedO.lift h hw ?_
  unfold execSysBinding
  with_reducible repeat' first | assumption | exact Led.refl _ _ | apply onPacket_led | apply pairWide_led | apply changed_led | apply rebindHost_led | with_unfolding_all exact Touch.holds rfl | apply LedO.next | refine LedO.ite ?_ ?_ | refine Led.ite ?_ ?_ | intro _ | fail_if_no_progress refine Led.record ?_ rfl

theorem execSysSubsystem_led {P : Touch} {s t : State} (a0 a1 a2) (h : Led P s t) (hw : Touch.within { trust := true, cpi := true, diary := true, tally := true, stg := true, ftl := true, bay := true, jobs := true, hq := true, repl := true, corr := true, out := true, draws := true } P = true) :
    LedO P s (execSysSubsystem a0 a1 a2 t) := by
  refine LedO.lift h hw ?_
  unfold execSysSubsystem
  with_reducible repeat' first | assumption | exact Led.refl _ _ | apply onPacket_led | apply badParam_led | apply pairWide_led | apply changed_led | apply refuse_led | apply loseAssociation_led | with_unfolding_all exact Touch.holds rfl | apply LedO.next | refine LedO.ite ?_ ?_ | refine Led.ite ?_ ?_ | intro _ | (refine Led.foldl ?_ ?_; rotate_left; intro _ _ _) | fail_if_no_progress refine Led.record ?_ rfl | split

theorem execSysDataTimeout_led {P : Touch} {s t : State} (a0 a1 a2) (h : Led P s t) (hw : Touch.within { trust := true, cpi := true, diary := true, tally := true, hq := true, corr := true, out := true } P = true) :
    LedO P s (execSysDataTimeout a0 a1 a2 t) := by
  refine LedO.lift h hw ?_
  unfold execSysDataTimeout
  with_reducible repeat' first | assumption | exact Led.refl _ _ | apply onPacket_led | apply pairWide_led | apply changed_led | with_unfolding_all exact Touch.holds rfl | apply LedO.next | refine LedO.ite ?_ ?_ | refine Led.ite ?_ ?_ | intro _ | fail_if_no_progress refine Led.record ?_ rfl

theorem bindPool_led {P : Touch} {s t : State} (a0 a1 a2) (h : Led P s t) (hw : Touch.within { trust := true, tally := true, ddp := true, ftl := true, ec := true, pool := true, saved := true, ciph := true } P = true) :
    Led P s (bindPool a0 a1 a2 t) := by
  refine Led.lift h hw ?_
  unfold bindPool
  exact Led.record (.refl _ _) rfl

theorem execPoolForm_led {P : Touch} {s t : State} (a0 a1 a2) (h : Led P s t) (hw : Touch.within { trust := true, cpi := true, diary := true, tally := true, ddp := true, ftl := true, ec := true, bay := true, pool := true, saved := true, ciph := true, corr := true, out := true, draws := true } P = true) :
    LedO P s (execPoolForm a0 a1 a2 t) := by
  refine LedO.lift h hw ?_
  unfold execPoolForm
  with_reducible repeat' first | assumption | exact Led.refl _ _ | apply onPacket_led | apply refuse_led | apply badParam_led | apply bindPool_led | apply drawn_led | apply send_led | apply settleNumber_led | apply changed_led | apply configWrite_led | apply addMembers_led | with_unfolding_all exact Touch.holds rfl | apply LedO.next | refine LedO.ite ?_ ?_ | refine Led.ite ?_ ?_ | intro _ | fail_if_no_progress refine Led.record ?_ rfl | split

theorem execPoolGrowFilter_led {P : Touch} {s t : State} (a0 a1 a2) (h : Led P s t) (hw : Touch.within { trust := true, cpi := true, diary := true, tally := true, ddp := true, pool := true, corr := true, out := true } P = true) :
    LedO P s (execPoolGrowFilter a0 a1 a2 t) := by
  refine LedO.lift h hw ?_
  unfold execPoolGrowFilter
  with_reducible repeat' first | assumption | exact Led.refl _ _ | apply onPacket_led | apply noPool_led | apply refuse_led | apply badParam_led | apply pairWide_led | apply changed_led | with_unfolding_all exact Touch.holds rfl | apply LedO.next | refine LedO.ite ?_ ?_ | refine Led.ite ?_ ?_ | intro _ | fail_if_no_progress refine Led.record ?_ rfl

theorem execPoolGrowIndex_led {P : Touch} {s t : State} (a0 a1 a2) (h : Led P s t) (hw : Touch.within { trust := true, cpi := true, diary := true, tally := true, ddp := true, pool := true, corr := true, out := true } P = true) :
    LedO P s (execPoolGrowIndex a0 a1 a2 t) := by
  refine LedO.lift h hw ?_
  unfold execPoolGrowIndex
  with_reducible repeat' first | assumption | exact Led.refl _ _ | apply onPacket_led | apply noPool_led | apply refuse_led | apply badParam_led | apply pairWide_led | apply changed_led | with_unfolding_all exact Touch.holds rfl | apply LedO.next | refine LedO.ite ?_ ?_ | refine Led.ite ?_ ?_ | intro _ | fail_if_no_progress refine Led.record ?_ rfl

theorem execPoolQuery_led {P : Touch} {s t : State} (a0 a1) (h : Led P s t) (hw : Touch.within { trust := true, cpi := true, tally := true, corr := true, out := true } P = true) :
    LedO P s (execPoolQuery a0 a1 t) := by
  refine LedO.lift h hw ?_
  unfold execPoolQuery
  with_reducible repeat' first | assumption | exact Led.refl _ _ | apply onPacket_led | apply noPool_led | apply answered_led | with_unfolding_all exact Touch.holds rfl | apply LedO.next | refine LedO.ite ?_ ?_ | refine Led.ite ?_ ?_ | intro _ | fail_if_no_progress refine Led.record ?_ rfl | split

theorem unbindPool_led {P : Touch} {s t : State} (h : Led P s t) (hw : Touch.within { pwr := true, trust := true, tally := true, tt := true, stg := true, ddp := true, ftl := true, ec := true, pool := true, saved := true, ciph := true, jobs := true, hq := true, out := true } P = true) :
    Led P s (unbindPool t) := by
  refine Led.lift h hw ?_
  unfold unbindPool
  with_reducible repeat' first | assumption | exact Led.refl _ _ | apply complete_led | with_unfolding_all exact Touch.holds rfl | (refine Led.foldl ?_ ?_; rotate_left; intro _ _ _) | fail_if_no_progress refine Led.record ?_ rfl | split

theorem execPoolErase_led {P : Touch} {s t : State} (a0 a1 a2) (h : Led P s t) (hw : Touch.within { pwr := true, trust := true, cpi := true, diary := true, tally := true, tt := true, stg := true, ddp := true, ftl := true, ec := true, bay := true, pool := true, saved := true, ciph := true, jobs := true, hq := true, corr := true, out := true } P = true) :
    LedO P s (execPoolErase a0 a1 a2 t) := by
  refine LedO.lift h hw ?_
  unfold execPoolErase
  with_reducible repeat' first | assumption | exact Led.refl _ _ | apply onPacket_led | apply noPool_led | apply badParam_led | apply refuseSealed_led | apply twiceSigned_led | apply pairWide_led | apply unbindPool_led | apply changed_led | apply queueOp_led | apply setBay_led | with_unfolding_all exact Touch.holds rfl | apply LedO.next | refine LedO.ite ?_ ?_ | refine Led.ite ?_ ?_ | intro _ | (refine Led.foldl ?_ ?_; rotate_left; intro _ _ _) | fail_if_no_progress refine Led.record ?_ rfl | split

theorem keepCounts_led {P : Touch} {s t : State} (a0) (h : Led P s t) (hw : Touch.within { cpi := true, tally := true, stg := true, ddp := true, ec := true, bay := true, ciph := true, skx := true, corr := true } P = true) :
    Led P s (keepCounts a0 t) := by
  refine Led.lift h hw ?_
  unfold keepCounts
  exact Led.record (.refl _ _) rfl

theorem resetState_led {P : Touch} {s t : State} (a0 a1 a2) (h : Led P s t) (hw : Touch.within Touch.all P = true) : Led P s (resetState a0 a1 a2 t) := by
  refine Led.lift h hw ?_
  unfold resetState
  dsimp only
  refine Led.ite (fun _ => ?_) (fun _ => keepCounts_led _ ?_ rfl) <;>
    exact ⟨.refl _, fun _ => ⟨rfl, Nat.zero_le _, fun _ => ⟨rfl, rfl⟩⟩, by constructor <;> with_reducible first | rfl | exact .inl rfl | exact .inr rfl⟩

theorem restore_led {P : Touch} {s t : State} (a0 a1 a2) (h : Led P s t) (hw : Touch.within { trust := true, tally := true, tt := true, stg := true, ddp := true, ftl := true, ec := true, saved := true, ciph := true, jobs := true, hq := true, repl := true, corr := true, out := true } P = true) :
    Led P s (restore a0 a1 a2 t) := by
  refine Led.lift h hw ?_
  unfold restore
  with_reducible repeat' first | assumption | exact Led.refl _ _ | apply restartCounters_led | apply takeMedia_led | apply replay_led | apply replStart_led | with_unfolding_all exact Touch.holds rfl | fail_if_no_progress refine Led.record ?_ rfl | split

theorem startDiary_led {P : Touch} {s t : State} (a0 a1) (h : Led P s t) (hw : Touch.within { pins := true, diary := true, tally := true } P = true) : Led P s (startDiary a0 a1 t) := by
  refine Led.lift h hw ?_
  unfold startDiary
  dsimp only
  refine Led.foldl (Led.record (event_led _ _ _ (Led.diaryChange (.refl _ _) rfl ?_) rfl) rfl) ?_
  · intro _
    exact ⟨by simp [List.length_take, diaryRing, Nat.min_comm], Nat.zero_le _, fun _ => ⟨rfl, rfl⟩⟩
  · intro u x hu
    exact pinFaultEvent_led _ _ hu rfl

theorem bringHeadUp_led {P : Touch} {s t : State} (a0) (h : Led P s t) (hw : Touch.within { pwr := true, pins := true, dram := true, cpi := true, diary := true, tally := true, tt := true, stg := true, ec := true, bay := true, ciph := true, skx := true, corr := true, out := true } P = true) :
    Led P s (bringHeadUp a0 t) := by
  refine Led.lift h hw ?_
  unfold bringHeadUp
  with_reducible repeat' first | assumption | exact Led.refl _ _ | apply powerIslands_led | apply powerUp_led | apply setLevel_led | apply readSpd_led | apply putSheet_led | apply ownMeasure_led | with_unfolding_all exact Touch.holds rfl | (refine Led.foldl ?_ ?_; rotate_left; intro _ _ _) | fail_if_no_progress refine Led.record ?_ rfl | split | dsimp only

theorem bootFaculty_led {P : Touch} {s t : State} (a0) (h : Led P s t) (hw : Touch.within { pwr := true, pins := true, dram := true, trust := true, cpi := true, diary := true, tally := true, tt := true, stg := true, ftl := true, ec := true, bay := true, ciph := true, skx := true, corr := true, out := true } P = true) :
    Led P s (bootFaculty a0 t) := by
  refine Led.lift h hw ?_
  unfold bootFaculty
  with_reducible repeat' first | assumption | exact Led.refl _ _ | apply prefectStep_led | apply sealsRead_led | apply emit_led | apply runFaculty_led | apply bringHeadUp_led | with_unfolding_all exact Touch.holds rfl | fail_if_no_progress refine Led.record ?_ rfl | split | dsimp only

theorem bootPrefect_led {P : Touch} {s t : State} (a0 a1) (h : Led P s t) (hw : Touch.within { pwr := true, pins := true, dram := true, trust := true, cpi := true, diary := true, tally := true, tt := true, stg := true, ftl := true, ec := true, bay := true, ciph := true, skx := true, corr := true, out := true } P = true) :
    Led P s (bootPrefect a0 a1 t) := by
  refine Led.lift h hw ?_
  unfold bootPrefect
  with_reducible repeat' first | assumption | exact Led.refl _ _ | apply bootFaculty_led | apply runPrefect_led | with_unfolding_all exact Touch.holds rfl | fail_if_no_progress refine Led.record ?_ rfl | split

theorem keepDramCounts_led {P : Touch} {s t : State} (a0) (h : Led P s t) (hw : Touch.within { dram := true } P = true) :
    Led P s (keepDramCounts a0 t) := by
  refine Led.lift h hw ?_
  unfold keepDramCounts
  exact Led.record (.refl _ _) rfl

theorem takeArmed_led {P : Touch} {s t : State} (h : Led P s t) (hw : Touch.within { tt := true, pool := true } P = true) :
    Led P s (takeArmed t) := by
  refine Led.lift h hw ?_
  unfold takeArmed
  with_reducible repeat' first | assumption | exact Led.refl _ _ | with_unfolding_all exact Touch.holds rfl | fail_if_no_progress refine Led.record ?_ rfl | split

theorem startHead_led {P : Touch} {s t : State} (a0 a1 a2 a3) (h : Led P s t) (hw : Touch.within Touch.all P = true) :
    Led P s (startHead a0 a1 a2 a3 t) := by
  refine Led.lift h hw ?_
  unfold startHead
  with_reducible repeat' first | assumption | exact Led.refl _ _ | apply resetState_led | apply setLevel_led | apply drawn_led | apply takeArmed_led | apply startDiary_led | apply tallyAdd_led | apply bootPrefect_led | apply restore_led | apply keepDramCounts_led | with_unfolding_all exact Touch.holds rfl | fail_if_no_progress refine Led.record ?_ rfl | split

theorem allPorts_led {P : Touch} {s t : State} (h : Led P s t) (hw : Touch.within { hq := true } P = true) :
    Led P s (allPorts t) := by
  refine Led.lift h hw ?_
  unfold allPorts
  with_reducible repeat' first | assumption | exact Led.refl _ _ | apply portLinks_led | with_unfolding_all exact Touch.holds rfl | (refine Led.foldl ?_ ?_; rotate_left; intro _ _ _) | fail_if_no_progress refine Led.record ?_ rfl | split

theorem ps3Bell_led {P : Touch} {s t : State} (h : Led P s t) (hw : Touch.within { trust := true, tally := true, ftl := true, ciph := true, hq := true, corr := true, out := true } P = true) :
    Led P s (ps3Bell t) := by
  refine Led.lift h hw ?_
  unfold ps3Bell
  with_reducible repeat' first | assumption | exact Led.refl _ _ | apply spillCtx_led | apply journalCounters_led | with_unfolding_all exact Touch.holds rfl | (refine Led.foldl ?_ ?_; rotate_left; intro _ _ _) | fail_if_no_progress refine Led.record ?_ rfl | split

theorem exitBell_led {P : Touch} {s t : State} (h : Led P s t) (hw : Touch.within { hq := true } P = true) :
    Led P s (exitBell t) := by
  refine Led.lift h hw ?_
  unfold exitBell
  with_reducible repeat' first | assumption | exact Led.refl _ _ | with_unfolding_all exact Touch.holds rfl | fail_if_no_progress refine Led.record ?_ rfl | split

theorem domainBell_led {P : Touch} {s t : State} (h : Led P s t) (hw : Touch.within { pwr := true, tally := true, ec := true, ciph := true, skx := true } P = true) :
    Led P s (domainBell t) := by
  refine Led.lift h hw ?_
  unfold domainBell
  with_reducible repeat' first | assumption | exact Led.refl _ _ | apply setDomains_led | with_unfolding_all exact Touch.holds rfl | fail_if_no_progress refine Led.record ?_ rfl | split | dsimp only

theorem avsBell_led {P : Touch} {s t : State} (h : Led P s t) (hw : Touch.within { pwr := true } P = true) :
    Led P s (avsBell t) := by
  refine Led.lift h hw ?_
  unfold avsBell
  with_reducible repeat' first | assumption | exact Led.refl _ _ | with_unfolding_all exact Touch.holds rfl | fail_if_no_progress refine Led.record ?_ rfl | split

theorem execSuppliesValid_led {P : Touch} {s t : State} (a0) (h : Led P s t) (hw : Touch.within Touch.all P = true) :
    LedO P s (execSuppliesValid a0 t) := by
  refine LedO.lift h hw ?_
  unfold execSuppliesValid
  with_reducible repeat' first | assumption | exact Led.refl _ _ | apply whenDue_led | apply startHead_led | with_unfolding_all exact Touch.holds rfl | apply LedO.next

theorem execVddAonOnly_led {P : Touch} {s t : State} (h : Led P s t) (hw : Touch.within Touch.all P = true) :
    LedO P s (execVddAonOnly t) := by
  refine LedO.lift h hw ?_
  unfold execVddAonOnly
  with_reducible repeat' first | assumption | exact Led.refl _ _ | apply resetState_led | with_unfolding_all exact Touch.holds rfl | apply LedO.next | fail_if_no_progress refine Led.record ?_ rfl

theorem execColdReset_led {P : Touch} {s t : State} (a0 a1) (h : Led P s t) (hw : Touch.within Touch.all P = true) :
    LedO P s (execColdReset a0 a1 t) := by
  refine LedO.lift h hw ?_
  unfold execColdReset
  with_reducible repeat' first | assumption | exact Led.refl _ _ | apply startHead_led | apply whenDue_led | apply setLevel_led | with_unfolding_all exact Touch.holds rfl | apply LedO.next | split

theorem execWarmReset_led {P : Touch} {s t : State} (a0) (h : Led P s t) (hw : Touch.within Touch.all P = true) :
    LedO P s (execWarmReset a0 t) := by
  refine LedO.lift h hw ?_
  unfold execWarmReset
  with_reducible repeat' first | assumption | exact Led.refl _ _ | apply whenDue_led | apply startHead_led | apply setLevel_led | with_unfolding_all exact Touch.holds rfl | apply LedO.next | split

theorem execSupplyTrip_led {P : Touch} {s t : State} (a0 a1) (h : Led P s t) (hw : Touch.within { pwr := true, pins := true, dram := true, trust := true, cpi := true, diary := true, tally := true, tt := true, stg := true, ftl := true, bay := true, ciph := true, hq := true, corr := true, out := true } P = true) :
    LedO P s (execSupplyTrip a0 a1 t) := by
  refine LedO.lift h hw ?_
  unfold execSupplyTrip
  with_reducible repeat' first | assumption | exact Led.refl _ _ | apply whenDue_led | apply powerFails_led | apply tallyAdd_led | apply event_led | with_unfolding_all exact Touch.holds rfl | apply LedO.next | fail_if_no_progress refine Led.record ?_ rfl

theorem execThermtrip_led {P : Touch} {s t : State} (a0 a1) (h : Led P s t) (hw : Touch.within { pins := true } P = true) :
    LedO P s (execThermtrip a0 a1 t) := by
  refine LedO.lift h hw ?_
  unfold execThermtrip
  with_reducible repeat' first | assumption | exact Led.refl _ _ | apply noteHottest_led | with_unfolding_all exact Touch.holds rfl | apply LedO.next | fail_if_no_progress refine Led.record ?_ rfl

theorem sealImage_led {P : Touch} {s t : State} (h : Led P s t) (hw : Touch.within { pwr := true, dram := true, trust := true, diary := true, tally := true, stg := true, pool := true, corr := true, out := true } P = true) :
    Led P s (sealImage t) := by
  refine Led.lift h hw ?_
  unfold sealImage
  with_reducible repeat' first | assumption | exact Led.refl _ _ | apply setHalf_led | apply event_led | apply sendPeer_led | with_unfolding_all exact Touch.holds rfl | fail_if_no_progress refine Led.record ?_ rfl | split

theorem execVaultSeal_led {P : Touch} {s t : State} (a0 a1 a2) (h : Led P s t) (hw : Touch.within Touch.all P = true) :
    LedO P s (execVaultSeal a0 a1 a2 t) := by
  refine LedO.lift h hw ?_
  unfold execVaultSeal
  with_reducible repeat' first | assumption | exact Led.refl _ _ | apply whenDue_led | apply sealImage_led | apply setLevel_led | apply startHead_led | with_unfolding_all exact Touch.holds rfl | apply LedO.next | split

theorem execVaultWarmStart_led {P : Touch} {s t : State} (a0) (h : Led P s t) (hw : Touch.within Touch.all P = true) :
    LedO P s (execVaultWarmStart a0 t) := by
  refine LedO.lift h hw ?_
  unfold execVaultWarmStart
  with_reducible repeat' first | assumption | exact Led.refl _ _ | apply whenDue_led | apply startHead_led | with_unfolding_all exact Touch.holds rfl | apply LedO.next

theorem groupDown_led {P : Touch} {s t : State} (a0) (h : Led P s t) (hw : Touch.within { trust := true, diary := true, tally := true, tt := true, stg := true, ddp := true, ftl := true, ec := true, bay := true, pool := true, ciph := true, jobs := true, hq := true, corr := true, out := true } P = true) :
    Led P s (groupDown a0 t) := by
  refine Led.lift h hw ?_
  unfold groupDown
  with_reducible repeat' first | assumption | exact Led.refl _ _ | apply bayLost_led | apply trigger_led | with_unfolding_all exact Touch.holds rfl | (refine Led.foldl ?_ ?_; rotate_left; intro _ _ _) | fail_if_no_progress refine Led.record ?_ rfl | split | dsimp only

theorem refLost_led {P : Touch} {s t : State} (a0) (h : Led P s t) (hw : Touch.within { pwr := true, pins := true, dram := true, trust := true, cpi := true, diary := true, tally := true, tt := true, stg := true, ddp := true, ftl := true, ec := true, bay := true, pool := true, ciph := true, jobs := true, hq := true, repl := true, corr := true, out := true, draws := true } P = true) :
    Led P s (refLost a0 t) := by
  refine Led.lift h hw ?_
  unfold refLost
  with_reducible repeat' first | assumption | exact Led.refl _ _ | apply powerFails_led | apply groupDown_led | apply corrEvent_led | apply loseAssociation_led | with_unfolding_all exact Touch.holds rfl | (refine Led.foldl ?_ ?_; rotate_left; intro _ _ _) | fail_if_no_progress refine Led.record ?_ rfl | split

theorem execRefclkLost_led {P : Touch} {s t : State} (a0) (h : Led P s t) (hw : Touch.within { pwr := true, pins := true, dram := true, trust := true, cpi := true, diary := true, tally := true, tt := true, stg := true, ddp := true, ftl := true, ec := true, bay := true, pool := true, ciph := true, jobs := true, hq := true, repl := true, corr := true, out := true, draws := true } P = true) :
    LedO P s (execRefclkLost a0 t) := by
  refine LedO.lift h hw ?_
  unfold execRefclkLost
  with_reducible repeat' first | assumption | exact Led.refl _ _ | apply whenDue_led | apply refLost_led | with_unfolding_all exact Touch.holds rfl | apply LedO.next | fail_if_no_progress refine Led.record ?_ rfl

theorem groupUp_led {P : Touch} {s t : State} (a0) (h : Led P s t) (hw : Touch.within { tt := true, bay := true } P = true) :
    Led P s (groupUp a0 t) := by
  refine Led.lift h hw ?_
  unfold groupUp
  with_reducible repeat' first | assumption | exact Led.refl _ _ | apply bayTo_led | apply beginReturn_led | with_unfolding_all exact Touch.holds rfl | (refine Led.foldl ?_ ?_; rotate_left; intro _ _ _) | fail_if_no_progress refine Led.record ?_ rfl | split

theorem refBack_led {P : Touch} {s t : State} (a0) (h : Led P s t) (hw : Touch.within { tally := true, tt := true, bay := true, hq := true, corr := true } P = true) :
    Led P s (refBack a0 t) := by
  refine Led.lift h hw ?_
  unfold refBack
  with_reducible repeat' first | assumption | exact Led.refl _ _ | apply groupUp_led | apply tallyAdd_led | apply allPorts_led | with_unfolding_all exact Touch.holds rfl | fail_if_no_progress refine Led.record ?_ rfl | split | dsimp only

theorem execRefclkRestored_led {P : Touch} {s t : State} (a0) (h : Led P s t) (hw : Touch.within { pwr := true, tally := true, tt := true, bay := true, hq := true, corr := true } P = true) :
    LedO P s (execRefclkRestored a0 t) := by
  refine LedO.lift h hw ?_
  unfold execRefclkRestored
  with_reducible repeat' first | assumption | exact Led.refl _ _ | apply whenDue_led | apply refBack_led | with_unfolding_all exact Touch.holds rfl | apply LedO.next | fail_if_no_progress refine Led.record ?_ rfl

theorem execAvsAdjust_led {P : Touch} {s t : State} (a0 a1) (h : Led P s t) (hw : Touch.within { pwr := true, out := true } P = true) :
    LedO P s (execAvsAdjust a0 a1 t) := by
  refine LedO.lift h hw ?_
  unfold execAvsAdjust
  with_reducible repeat' first | assumption | exact Led.refl _ _ | apply whenDue_led | apply emit_led | with_unfolding_all exact Touch.holds rfl | apply LedO.next | fail_if_no_progress refine Led.record ?_ rfl

theorem execAvsConfirmTimeout_led {P : Touch} {s t : State} (h : Led P s t) (hw : Touch.within { pwr := true } P = true) :
    LedO P s (execAvsConfirmTimeout t) := by
  refine LedO.lift h hw ?_
  unfold execAvsConfirmTimeout
  with_reducible repeat' first | assumption | exact Led.refl _ _ | apply whenDue_led | with_unfolding_all exact Touch.holds rfl | apply LedO.next | fail_if_no_progress refine Led.record ?_ rfl

theorem execFullTrainingComplete_led {P : Touch} {s t : State} (h : Led P s t) (hw : Touch.within { trust := true, tally := true, tt := true, corr := true, out := true } P = true) :
    LedO P s (execFullTrainingComplete t) := by
  refine LedO.lift h hw ?_
  unfold execFullTrainingComplete
  with_reducible repeat' first | assumption | exact Led.refl _ _ | apply whenDue_led | apply trigger_led | with_unfolding_all exact Touch.holds rfl | apply LedO.next

theorem toPs_led {P : Touch} {s t : State} (a0) (h : Led P s t) (hw : Touch.within { diary := true, tally := true, hq := true } P = true) :
    Led P s (toPs a0 t) := by
  refine Led.lift h hw ?_
  unfold toPs
  with_reducible repeat' first | assumption | exact Led.refl _ _ | apply tallyAdd_led | apply event_led | with_unfolding_all exact Touch.holds rfl | fail_if_no_progress refine Led.record ?_ rfl

theorem execPowerStateChange_led {P : Touch} {s t : State} (h : Led P s t) (hw : Touch.within { diary := true, tally := true, hq := true, out := true } P = true) :
    LedO P s (execPowerStateChange t) := by
  refine LedO.lift h hw ?_
  unfold execPowerStateChange
  with_reducible repeat' first | assumption | exact Led.refl _ _ | apply whenDue_led | apply adminDone_led | apply toPs_led | with_unfolding_all exact Touch.holds rfl | apply LedO.next | fail_if_no_progress refine Led.record ?_ rfl | split

theorem execPs3EntryComplete_led {P : Touch} {s t : State} (h : Led P s t) (hw : Touch.within { diary := true, tally := true, hq := true, out := true } P = true) :
    LedO P s (execPs3EntryComplete t) := by
  refine LedO.lift h hw ?_
  unfold execPs3EntryComplete
  with_reducible repeat' first | assumption | exact Led.refl _ _ | apply whenDue_led | apply adminDone_led | apply toPs_led | with_unfolding_all exact Touch.holds rfl | apply LedO.next | fail_if_no_progress refine Led.record ?_ rfl | split

theorem execPs3EntryAbandon_led {P : Touch} {s t : State} (h : Led P s t) (hw : Touch.within { tally := true, hq := true, out := true } P = true) :
    LedO P s (execPs3EntryAbandon t) := by
  refine LedO.lift h hw ?_
  unfold execPs3EntryAbandon
  with_reducible repeat' first | assumption | exact Led.refl _ _ | apply whenDue_led | apply adminDone_led | with_unfolding_all exact Touch.holds rfl | apply LedO.next | fail_if_no_progress refine Led.record ?_ rfl | split

theorem execPs3Exit_led {P : Touch} {s t : State} (h : Led P s t) (hw : Touch.within { pwr := true, diary := true, tally := true, ec := true, ciph := true, skx := true, hq := true } P = true) :
    LedO P s (execPs3Exit t) := by
  refine LedO.lift h hw ?_
  unfold execPs3Exit
  with_reducible repeat' first | assumption | exact Led.refl _ _ | apply whenDue_led | apply domainBell_led | apply toPs_led | with_unfolding_all exact Touch.holds rfl | apply LedO.next | fail_if_no_progress refine Led.record ?_ rfl | split

theorem runClock_led {P : Touch} {s t : State} (a0) (h : Led P s t) (hw : Touch.within { trust := true } P = true) :
    Led P s (runClock a0 t) := by
  refine Led.lift h hw ?_
  unfold runClock
  exact Led.record (.refl _ _) rfl

theorem nextPeriod_led {P : Touch} {s t : State} (h : Led P s t) (hw : Touch.within { tt := true } P = true) :
    Led P s (nextPeriod t) := by
  refine Led.lift h hw ?_
  unfold nextPeriod
  exact Led.record (.refl _ _) rfl

theorem countPeriod_led {P : Touch} {s t : State} (h : Led P s t) (hw : Touch.within { tally := true } P = true) :
    Led P s (countPeriod t) := by
  refine Led.lift h hw ?_
  unfold countPeriod
  with_reducible repeat' first | assumption | exact Led.refl _ _ | apply tallyAdd_led | with_unfolding_all exact Touch.holds rfl | refine Led.ite ?_ ?_ | intro _

theorem unseen_led {P : Touch} {s t : State} (h : Led P s t) (hw : Touch.within { pwr := true, tally := true, bay := true, draws := true } P = true) :
    Led P s (unseen t) := by
  refine Led.lift h hw ?_
  unfold unseen
  exact Led.record (.refl _ _) rfl

theorem windowsBell_led {P : Touch} {s t : State} (h : Led P s t) (hw : Touch.within { dram := true } P = true) :
    Led P s (windowsBell t) := by
  refine Led.lift h hw ?_
  unfold windowsBell
  with_reducible repeat' first | assumption | exact Led.refl _ _ | with_unfolding_all exact Touch.holds rfl | fail_if_no_progress refine Led.record ?_ rfl | split

theorem sharesBell_led {P : Touch} {s t : State} (h : Led P s t) (hw : Touch.within { tt := true } P = true) :
    Led P s (sharesBell t) := by
  refine Led.lift h hw ?_
  unfold sharesBell
  exact Led.record (.refl _ _) rfl

theorem classBell_led {P : Touch} {s t : State} (h : Led P s t) (hw : Touch.within { tt := true } P = true) :
    Led P s (classBell t) := by
  refine Led.lift h hw ?_
  unfold classBell
  with_reducible repeat' first | assumption | exact Led.refl _ _ | apply shareOut_led | with_unfolding_all exact Touch.holds rfl | (refine Led.foldl ?_ ?_; rotate_left; intro _ _ _) | fail_if_no_progress refine Led.record ?_ rfl | split

theorem heartbeatBell_led {P : Touch} {s t : State} (h : Led P s t) (hw : Touch.within { trust := true, tally := true, corr := true, out := true } P = true) :
    Led P s (heartbeatBell t) := by
  refine Led.lift h hw ?_
  unfold heartbeatBell
  with_reducible repeat' first | assumption | exact Led.refl _ _ | apply send_led | with_unfolding_all exact Touch.holds rfl | split

theorem syncBell_led {P : Touch} {s t : State} (h : Led P s t) (hw : Touch.within { trust := true, tally := true, corr := true, out := true, draws := true } P = true) :
    Led P s (syncBell t) := by
  refine Led.lift h hw ?_
  unfold syncBell
  with_reducible repeat' first | assumption | exact Led.refl _ _ | apply sendSync_led | with_unfolding_all exact Touch.holds rfl | split

theorem creditBell_led {P : Touch} {s t : State} (h : Led P s t) (hw : Touch.within { trust := true, tally := true, corr := true, out := true } P = true) :
    Led P s (creditBell t) := by
  refine Led.lift h hw ?_
  unfold creditBell
  with_reducible repeat' first | assumption | exact Led.refl _ _ | apply send_led | with_unfolding_all exact Touch.holds rfl | split

theorem deltaBell_led {P : Touch} {s t : State} (h : Led P s t) (hw : Touch.within { trust := true, tally := true, ddp := true, corr := true, out := true } P = true) :
    Led P s (deltaBell t) := by
  refine Led.lift h hw ?_
  unfold deltaBell
  with_reducible repeat' first | assumption | exact Led.refl _ _ | apply send_led | with_unfolding_all exact Touch.holds rfl | fail_if_no_progress refine Led.record ?_ rfl | split

theorem pendingBell_led {P : Touch} {s t : State} (h : Led P s t) (hw : Touch.within { trust := true, tally := true, ddp := true, jobs := true, corr := true, out := true } P = true) :
    Led P s (pendingBell t) := by
  refine Led.lift h hw ?_
  unfold pendingBell
  with_reducible repeat' first | assumption | exact Led.refl _ _ | apply tellPending_led | with_unfolding_all exact Touch.holds rfl | (refine Led.foldl ?_ ?_; rotate_left; intro _ _ _) | fail_if_no_progress refine Led.record ?_ rfl | split

theorem enterService_led {P : Touch} {s t : State} (h : Led P s t) (hw : Touch.within { pwr := true, diary := true, tally := true, tt := true, stg := true, ec := true, bay := true, hq := true, corr := true } P = true) :
    Led P s (enterService t) := by
  refine Led.lift h hw ?_
  unfold enterService
  with_reducible repeat' first | assumption | exact Led.refl _ _ | apply putSheet_led | apply allPorts_led | with_unfolding_all exact Touch.holds rfl | fail_if_no_progress refine Led.record ?_ rfl | split | dsimp only

theorem serviceBell_led {P : Touch} {s t : State} (h : Led P s t) (hw : Touch.within { pwr := true, diary := true, tally := true, tt := true, stg := true, ec := true, bay := true, hq := true, corr := true } P = true) :
    Led P s (serviceBell t) := by
  refine Led.lift h hw ?_
  unfold serviceBell
  with_reducible repeat' first | assumption | exact Led.refl _ _ | apply enterService_led | with_unfolding_all exact Touch.holds rfl | split

theorem islandsBell_led {P : Touch} {s t : State} (h : Led P s t) (hw : Touch.within { pwr := true, hq := true } P = true) :
    Led P s (islandsBell t) := by
  refine Led.lift h hw ?_
  unfold islandsBell
  with_reducible repeat' first | assumption | exact Led.refl _ _ | apply portLinks_led | with_unfolding_all exact Touch.holds rfl | (refine Led.foldl ?_ ?_; rotate_left; intro _ _ _) | fail_if_no_progress refine Led.record ?_ rfl | split

theorem halvesBell_led {P : Touch} {s t : State} (h : Led P s t) (hw : Touch.within { trust := true, tally := true, stg := true, ftl := true, ec := true, bay := true, pool := true, corr := true, out := true } P = true) :
    Led P s (halvesBell t) := by
  refine Led.lift h hw ?_
  unfold halvesBell
  with_reducible repeat' first | assumption | exact Led.refl _ _ | apply eraseHalves_led | apply freeOldHalves_led | apply openHalves_led | with_unfolding_all exact Touch.holds rfl | split

theorem dayBell_led {P : Touch} {s t : State} (h : Led P s t) (hw : Touch.within { pwr := true, dram := true, trust := true, cpi := true, diary := true, tally := true, tt := true, lanes := true, stg := true, ftl := true, ec := true, bay := true, pool := true, ciph := true, skx := true, jobs := true, hq := true, repl := true, corr := true, out := true, draws := true } P = true) :
    Led P s (dayBell t) := by
  refine Led.lift h hw ?_
  unfold dayBell
  with_reducible repeat' first | assumption | exact Led.refl _ _ | apply switchBell_led | apply changeover_led | apply vaultSheet_led | with_unfolding_all exact Touch.holds rfl | refine Led.ite ?_ ?_ | intro _

theorem workBell_volumesAtBell_led {P : Touch} {s t : State} (h : Led P s t) (hw : Touch.within { trust := true, cpi := true, diary := true, tally := true, stg := true, ftl := true, ec := true, bay := true, pool := true, ciph := true, jobs := true, hq := true, repl := true, corr := true, out := true } P = true) :
    Led P s (workBell.volumesAtBell t) := by
  refine Led.lift h hw ?_
  unfold workBell.volumesAtBell
  with_reducible repeat' first | assumption | exact Led.refl _ _ | apply replBell_led | apply lockerBell_led | apply memberBell_led | with_unfolding_all exact Touch.holds rfl

theorem workBell_led {P : Touch} {s t : State} (h : Led P s t) (hw : Touch.within { pwr := true, trust := true, cpi := true, diary := true, tally := true, tt := true, stg := true, ddp := true, ftl := true, ec := true, bay := true, pool := true, ciph := true, skx := true, jobs := true, hq := true, repl := true, corr := true, out := true } P = true) :
    Led P s (workBell t) := by
  refine Led.lift h hw ?_
  unfold workBell
  with_reducible repeat' first | assumption | exact Led.refl _ _ | apply diesBell_led | apply workBell_volumesAtBell_led | apply mergeStep_led | apply filterStep_led | apply splitStep_led | apply placeHomeless_led | apply placeWaiting_led | apply closeFull_led | apply closeWritten_led | apply pendingBell_led | apply deltaBell_led | apply startMoves_led | apply triageStep_led | apply spareBell_led | apply closeForThrough_led | apply retryGrants_led | apply halvesBell_led | apply throughBell_led | apply limitBell_led | apply cacheBell_led | apply domainBell_led | apply exitBell_led | apply ps3Bell_led | apply releaseHeld_led | with_unfolding_all exact Touch.holds rfl | split

theorem stageBell_led {P : Touch} {s t : State} (h : Led P s t) (hw : Touch.within { pwr := true, trust := true, cpi := true, diary := true, tally := true, tt := true, stg := true, ddp := true, ftl := true, ec := true, bay := true, pool := true, ciph := true, skx := true, jobs := true, hq := true, repl := true, corr := true, out := true, draws := true } P = true) :
    Led P s (stageBell t) := by
  refine Led.lift h hw ?_
  unfold stageBell
  with_reducible repeat' first | assumption | exact Led.refl _ _ | apply heartbeatBell_led | apply postOps_led | apply syncBell_led | apply handoverBell_led | apply creditBell_led | apply releaseBell_led | apply handoverEnds_led | apply armBell_led | apply workBell_led | apply writeTrailer_led | with_unfolding_all exact Touch.holds rfl | split

theorem execBellTick_led {P : Touch} {s t : State} (h : Led P s t) (hw : Touch.within { pwr := true, pins := true, dram := true, trust := true, cpi := true, diary := true, tally := true, tt := true, lanes := true, stg := true, ddp := true, ftl := true, ec := true, bay := true, pool := true, ciph := true, skx := true, jobs := true, hq := true, repl := true, corr := true, out := true, draws := true } P = true) :
    LedO P s (execBellTick t) := by
  refine LedO.lift h hw ?_
  unfold execBellTick
  with_reducible repeat' first | assumption | exact Led.refl _ _ | apply runClock_led | apply countPeriod_led | apply nextPeriod_led | apply unseen_led | apply boxBell_led | apply contextBell_led | apply classBell_led | apply sharesBell_led | apply dramBell_led | apply windowsBell_led | apply refillBuckets_led | apply dayBell_led | apply resetPinsBell_led | apply endCaptures_led | apply ledBell_led | apply avsBell_led | apply islandsBell_led | apply stageBell_led | apply loadBell_led | apply serviceBell_led | with_unfolding_all exact Touch.holds rfl | apply LedO.next | fail_if_no_progress refine Led.record ?_ rfl | split

theorem writeDramCfg_led {P : Touch} {s t : State} (a0) (h : Led P s t) (hw : Touch.within { dram := true } P = true) :
    Led P s (writeDramCfg a0 t) := by
  refine Led.lift h hw ?_
  unfold writeDramCfg
  exact Led.record (.refl _ _) rfl

theorem writeReg_led {P : Touch} {s t : State} (a0 a1 a2) (h : Led P s t) (hw : Touch.within { pwr := true, pins := true, dram := true, diary := true, tally := true, ec := true, bay := true } P = true) :
    Led P s (writeReg a0 a1 a2 t) := by
  refine Led.lift h hw ?_
  unfold writeReg
  with_reducible repeat' first | exact Led.diaryChange (.refl _ _) rfl (fun x => ⟨x.ring, x.pocket, x.thawed⟩) | assumption | exact Led.refl _ _ | apply writeDramCfg_led | apply freezeDiary_led | apply thawDiary_led | with_unfolding_all exact Touch.holds rfl | refine Led.ite ?_ ?_ | intro _ | fail_if_no_progress refine Led.record ?_ rfl

theorem execRegisterWrite_led {P : Touch} {s t : State} (a0 a1 a2) (h : Led P s t) (hw : Touch.within { pwr := true, pins := true, dram := true, diary := true, tally := true, ec := true, bay := true } P = true) :
    LedO P s (execRegisterWrite a0 a1 a2 t) := by
  refine LedO.lift h hw ?_
  unfold execRegisterWrite
  with_reducible repeat' first | assumption | exact Led.refl _ _ | apply writeReg_led | with_unfolding_all exact Touch.holds rfl | apply LedO.next

end Sys2Proof.Machine
end

