-- ==== Sys2Proof/Laws/Projections.lean ====
section
/-! SUPPORT. What each shared operation leaves of each block of State, read off its frame: one equation for each block
the operation does not touch, so that no later proof unfolds the operation. -/

set_option Elab.async false
set_option linter.all false

namespace Sys2Proof.Machine

theorem Led.eq_sys {P : Touch} {s t : State} (h : Led P s t) (hp : P.sys = false) : t.sys = s.sys := by
  rcases h.only.sys with e | e
  · rw [hp] at e; cases e
  · exact e
theorem Led.eq_pwr {P : Touch} {s t : State} (h : Led P s t) (hp : P.pwr = false) : t.pwr = s.pwr := by
  rcases h.only.pwr with e | e
  · rw [hp] at e; cases e
  · exact e
theorem Led.eq_pins {P : Touch} {s t : State} (h : Led P s t) (hp : P.pins = false) : t.pins = s.pins := by
  rcases h.only.pins with e | e
  · rw [hp] at e; cases e
  · exact e
theorem Led.eq_dram {P : Touch} {s t : State} (h : Led P s t) (hp : P.dram = false) : t.dram = s.dram := by
  rcases h.only.dram with e | e
  · rw [hp] at e; cases e
  · exact e
theorem Led.eq_trust {P : Touch} {s t : State} (h : Led P s t) (hp : P.trust = false) : t.trust = s.trust := by
  rcases h.only.trust with e | e
  · rw [hp] at e; cases e
  · exact e
theorem Led.eq_cpi {P : Touch} {s t : State} (h : Led P s t) (hp : P.cpi = false) : t.cpi = s.cpi := by
  rcases h.only.cpi with e | e
  · rw [hp] at e; cases e
  · exact e
theorem Led.eq_diary {P : Touch} {s t : State} (h : Led P s t) (hp : P.diary = false) : t.diary = s.diary := by
  rcases h.only.diary with e | e
  · rw [hp] at e; cases e
  · exact e
theorem Led.eq_tally {P : Touch} {s t : State} (h : Led P s t) (hp : P.tally = false) : t.tally = s.tally := by
  rcases h.only.tally with e | e
  · rw [hp] at e; cases e
  · exact e
theorem Led.eq_tt {P : Touch} {s t : State} (h : Led P s t) (hp : P.tt = false) : t.tt = s.tt := by
  rcases h.only.tt with e | e
  · rw [hp] at e; cases e
  · exact e
theorem Led.eq_lanes {P : Touch} {s t : State} (h : Led P s t) (hp : P.lanes = false) : t.lanes = s.lanes := by
  rcases h.only.lanes with e | e
  · rw [hp] at e; cases e
  · exact e
theorem Led.eq_stg {P : Touch} {s t : State} (h : Led P s t) (hp : P.stg = false) : t.stg = s.stg := by
  rcases h.only.stg with e | e
  · rw [hp] at e; cases e
  · exact e
theorem Led.eq_ddp {P : Touch} {s t : State} (h : Led P s t) (hp : P.ddp = false) : t.ddp = s.ddp := by
  rcases h.only.ddp with e | e
  · rw [hp] at e; cases e
  · exact e
theorem Led.eq_ftl {P : Touch} {s t : State} (h : Led P s t) (hp : P.ftl = false) : t.ftl = s.ftl := by
  rcases h.only.ftl with e | e
  · rw [hp] at e; cases e
  · exact e
theorem Led.eq_ec {P : Touch} {s t : State} (h : Led P s t) (hp : P.ec = false) : t.ec = s.ec := by
  rcases h.only.ec with e | e
  · rw [hp] at e; cases e
  · exact e
theorem Led.eq_bay {P : Touch} {s t : State} (h : Led P s t) (hp : P.bay = false) : t.bay = s.bay := by
  rcases h.only.bay with e | e
  · rw [hp] at e; cases e
  · exact e
theorem Led.eq_pool {P : Touch} {s t : State} (h : Led P s t) (hp : P.pool = false) : t.pool = s.pool := by
  rcases h.only.pool with e | e
  · rw [hp] at e; cases e
  · exact e
theorem Led.eq_saved {P : Touch} {s t : State} (h : Led P s t) (hp : P.saved = false) : t.saved = s.saved := by
  rcases h.only.saved with e | e
  · rw [hp] at e; cases e
  · exact e
theorem Led.eq_ciph {P : Touch} {s t : State} (h : Led P s t) (hp : P.ciph = false) : t.ciph = s.ciph := by
  rcases h.only.ciph with e | e
  · rw [hp] at e; cases e
  · exact e
theorem Led.eq_skx {P : Touch} {s t : State} (h : Led P s t) (hp : P.skx = false) : t.skx = s.skx := by
  rcases h.only.skx with e | e
  · rw [hp] at e; cases e
  · exact e
theorem Led.eq_jobs {P : Touch} {s t : State} (h : Led P s t) (hp : P.jobs = false) : t.jobs = s.jobs := by
  rcases h.only.jobs with e | e
  · rw [hp] at e; cases e
  · exact e
theorem Led.eq_hq {P : Touch} {s t : State} (h : Led P s t) (hp : P.hq = false) : t.hq = s.hq := by
  rcases h.only.hq with e | e
  · rw [hp] at e; cases e
  · exact e
theorem Led.eq_repl {P : Touch} {s t : State} (h : Led P s t) (hp : P.repl = false) : t.repl = s.repl := by
  rcases h.only.repl with e | e
  · rw [hp] at e; cases e
  · exact e
theorem Led.eq_corr {P : Touch} {s t : State} (h : Led P s t) (hp : P.corr = false) : t.corr = s.corr := by
  rcases h.only.corr with e | e
  · rw [hp] at e; cases e
  · exact e
theorem Led.eq_out {P : Touch} {s t : State} (h : Led P s t) (hp : P.out = false) : t.out = s.out := by
  rcases h.only.out with e | e
  · rw [hp] at e; cases e
  · exact e
theorem Led.eq_draws {P : Touch} {s t : State} (h : Led P s t) (hp : P.draws = false) : t.draws = s.draws := by
  rcases h.only.draws with e | e
  · rw [hp] at e; cases e
  · exact e

@[simp] theorem payAll_sys {t : State} (a0 a1) : ((payAll a0 a1 t)).sys = t.sys := (payAll_led _ _ (.refl { tt := true } t) rfl).eq_sys rfl
@[simp] theorem payAll_pwr {t : State} (a0 a1) : ((payAll a0 a1 t)).pwr = t.pwr := (payAll_led _ _ (.refl { tt := true } t) rfl).eq_pwr rfl
@[simp] theorem payAll_pins {t : State} (a0 a1) : ((payAll a0 a1 t)).pins = t.pins := (payAll_led _ _ (.refl { tt := true } t) rfl).eq_pins rfl
@[simp] theorem payAll_dram {t : State} (a0 a1) : ((payAll a0 a1 t)).dram = t.dram := (payAll_led _ _ (.refl { tt := true } t) rfl).eq_dram rfl
@[simp] theorem payAll_trust {t : State} (a0 a1) : ((payAll a0 a1 t)).trust = t.trust := (payAll_led _ _ (.refl { tt := true } t) rfl).eq_trust rfl
@[simp] theorem payAll_cpi {t : State} (a0 a1) : ((payAll a0 a1 t)).cpi = t.cpi := (payAll_led _ _ (.refl { tt := true } t) rfl).eq_cpi rfl
@[simp] theorem payAll_diary {t : State} (a0 a1) : ((payAll a0 a1 t)).diary = t.diary := (payAll_led _ _ (.refl { tt := true } t) rfl).eq_diary rfl
@[simp] theorem payAll_tally {t : State} (a0 a1) : ((payAll a0 a1 t)).tally = t.tally := (payAll_led _ _ (.refl { tt := true } t) rfl).eq_tally rfl
@[simp] theorem payAll_lanes {t : State} (a0 a1) : ((payAll a0 a1 t)).lanes = t.lanes := (payAll_led _ _ (.refl { tt := true } t) rfl).eq_lanes rfl
@[simp] theorem payAll_stg {t : State} (a0 a1) : ((payAll a0 a1 t)).stg = t.stg := (payAll_led _ _ (.refl { tt := true } t) rfl).eq_stg rfl
@[simp] theorem payAll_ddp {t : State} (a0 a1) : ((payAll a0 a1 t)).ddp = t.ddp := (payAll_led _ _ (.refl { tt := true } t) rfl).eq_ddp rfl
@[simp] theorem payAll_ftl {t : State} (a0 a1) : ((payAll a0 a1 t)).ftl = t.ftl := (payAll_led _ _ (.refl { tt := true } t) rfl).eq_ftl rfl
@[simp] theorem payAll_ec {t : State} (a0 a1) : ((payAll a0 a1 t)).ec = t.ec := (payAll_led _ _ (.refl { tt := true } t) rfl).eq_ec rfl
@[simp] theorem payAll_bay {t : State} (a0 a1) : ((payAll a0 a1 t)).bay = t.bay := (payAll_led _ _ (.refl { tt := true } t) rfl).eq_bay rfl
@[simp] theorem payAll_pool {t : State} (a0 a1) : ((payAll a0 a1 t)).pool = t.pool := (payAll_led _ _ (.refl { tt := true } t) rfl).eq_pool rfl
@[simp] theorem payAll_saved {t : State} (a0 a1) : ((payAll a0 a1 t)).saved = t.saved := (payAll_led _ _ (.refl { tt := true } t) rfl).eq_saved rfl
@[simp] theorem payAll_ciph {t : State} (a0 a1) : ((payAll a0 a1 t)).ciph = t.ciph := (payAll_led _ _ (.refl { tt := true } t) rfl).eq_ciph rfl
@[simp] theorem payAll_skx {t : State} (a0 a1) : ((payAll a0 a1 t)).skx = t.skx := (payAll_led _ _ (.refl { tt := true } t) rfl).eq_skx rfl
@[simp] theorem payAll_jobs {t : State} (a0 a1) : ((payAll a0 a1 t)).jobs = t.jobs := (payAll_led _ _ (.refl { tt := true } t) rfl).eq_jobs rfl
@[simp] theorem payAll_hq {t : State} (a0 a1) : ((payAll a0 a1 t)).hq = t.hq := (payAll_led _ _ (.refl { tt := true } t) rfl).eq_hq rfl
@[simp] theorem payAll_repl {t : State} (a0 a1) : ((payAll a0 a1 t)).repl = t.repl := (payAll_led _ _ (.refl { tt := true } t) rfl).eq_repl rfl
@[simp] theorem payAll_corr {t : State} (a0 a1) : ((payAll a0 a1 t)).corr = t.corr := (payAll_led _ _ (.refl { tt := true } t) rfl).eq_corr rfl
@[simp] theorem payAll_out {t : State} (a0 a1) : ((payAll a0 a1 t)).out = t.out := (payAll_led _ _ (.refl { tt := true } t) rfl).eq_out rfl
@[simp] theorem payAll_draws {t : State} (a0 a1) : ((payAll a0 a1 t)).draws = t.draws := (payAll_led _ _ (.refl { tt := true } t) rfl).eq_draws rfl
@[simp] theorem tallyAdd_sys {t : State} (a0 a1 a2) : ((tallyAdd a0 a1 a2 t)).sys = t.sys := (tallyAdd_led _ _ _ (.refl { tally := true } t) rfl).eq_sys rfl
@[simp] theorem tallyAdd_pwr {t : State} (a0 a1 a2) : ((tallyAdd a0 a1 a2 t)).pwr = t.pwr := (tallyAdd_led _ _ _ (.refl { tally := true } t) rfl).eq_pwr rfl
@[simp] theorem tallyAdd_pins {t : State} (a0 a1 a2) : ((tallyAdd a0 a1 a2 t)).pins = t.pins := (tallyAdd_led _ _ _ (.refl { tally := true } t) rfl).eq_pins rfl
@[simp] theorem tallyAdd_dram {t : State} (a0 a1 a2) : ((tallyAdd a0 a1 a2 t)).dram = t.dram := (tallyAdd_led _ _ _ (.refl { tally := true } t) rfl).eq_dram rfl
@[simp] theorem tallyAdd_trust {t : State} (a0 a1 a2) : ((tallyAdd a0 a1 a2 t)).trust = t.trust := (tallyAdd_led _ _ _ (.refl { tally := true } t) rfl).eq_trust rfl
@[simp] theorem tallyAdd_cpi {t : State} (a0 a1 a2) : ((tallyAdd a0 a1 a2 t)).cpi = t.cpi := (tallyAdd_led _ _ _ (.refl { tally := true } t) rfl).eq_cpi rfl
@[simp] theorem tallyAdd_diary {t : State} (a0 a1 a2) : ((tallyAdd a0 a1 a2 t)).diary = t.diary := (tallyAdd_led _ _ _ (.refl { tally := true } t) rfl).eq_diary rfl
@[simp] theorem tallyAdd_tt {t : State} (a0 a1 a2) : ((tallyAdd a0 a1 a2 t)).tt = t.tt := (tallyAdd_led _ _ _ (.refl { tally := true } t) rfl).eq_tt rfl
@[simp] theorem tallyAdd_lanes {t : State} (a0 a1 a2) : ((tallyAdd a0 a1 a2 t)).lanes = t.lanes := (tallyAdd_led _ _ _ (.refl { tally := true } t) rfl).eq_lanes rfl
@[simp] theorem tallyAdd_stg {t : State} (a0 a1 a2) : ((tallyAdd a0 a1 a2 t)).stg = t.stg := (tallyAdd_led _ _ _ (.refl { tally := true } t) rfl).eq_stg rfl
@[simp] theorem tallyAdd_ddp {t : State} (a0 a1 a2) : ((tallyAdd a0 a1 a2 t)).ddp = t.ddp := (tallyAdd_led _ _ _ (.refl { tally := true } t) rfl).eq_ddp rfl
@[simp] theorem tallyAdd_ftl {t : State} (a0 a1 a2) : ((tallyAdd a0 a1 a2 t)).ftl = t.ftl := (tallyAdd_led _ _ _ (.refl { tally := true } t) rfl).eq_ftl rfl
@[simp] theorem tallyAdd_ec {t : State} (a0 a1 a2) : ((tallyAdd a0 a1 a2 t)).ec = t.ec := (tallyAdd_led _ _ _ (.refl { tally := true } t) rfl).eq_ec rfl
@[simp] theorem tallyAdd_bay {t : State} (a0 a1 a2) : ((tallyAdd a0 a1 a2 t)).bay = t.bay := (tallyAdd_led _ _ _ (.refl { tally := true } t) rfl).eq_bay rfl
@[simp] theorem tallyAdd_pool {t : State} (a0 a1 a2) : ((tallyAdd a0 a1 a2 t)).pool = t.pool := (tallyAdd_led _ _ _ (.refl { tally := true } t) rfl).eq_pool rfl
@[simp] theorem tallyAdd_saved {t : State} (a0 a1 a2) : ((tallyAdd a0 a1 a2 t)).saved = t.saved := (tallyAdd_led _ _ _ (.refl { tally := true } t) rfl).eq_saved rfl
@[simp] theorem tallyAdd_ciph {t : State} (a0 a1 a2) : ((tallyAdd a0 a1 a2 t)).ciph = t.ciph := (tallyAdd_led _ _ _ (.refl { tally := true } t) rfl).eq_ciph rfl
@[simp] theorem tallyAdd_skx {t : State} (a0 a1 a2) : ((tallyAdd a0 a1 a2 t)).skx = t.skx := (tallyAdd_led _ _ _ (.refl { tally := true } t) rfl).eq_skx rfl
@[simp] theorem tallyAdd_jobs {t : State} (a0 a1 a2) : ((tallyAdd a0 a1 a2 t)).jobs = t.jobs := (tallyAdd_led _ _ _ (.refl { tally := true } t) rfl).eq_jobs rfl
@[simp] theorem tallyAdd_hq {t : State} (a0 a1 a2) : ((tallyAdd a0 a1 a2 t)).hq = t.hq := (tallyAdd_led _ _ _ (.refl { tally := true } t) rfl).eq_hq rfl
@[simp] theorem tallyAdd_repl {t : State} (a0 a1 a2) : ((tallyAdd a0 a1 a2 t)).repl = t.repl := (tallyAdd_led _ _ _ (.refl { tally := true } t) rfl).eq_repl rfl
@[simp] theorem tallyAdd_corr {t : State} (a0 a1 a2) : ((tallyAdd a0 a1 a2 t)).corr = t.corr := (tallyAdd_led _ _ _ (.refl { tally := true } t) rfl).eq_corr rfl
@[simp] theorem tallyAdd_out {t : State} (a0 a1 a2) : ((tallyAdd a0 a1 a2 t)).out = t.out := (tallyAdd_led _ _ _ (.refl { tally := true } t) rfl).eq_out rfl
@[simp] theorem tallyAdd_draws {t : State} (a0 a1 a2) : ((tallyAdd a0 a1 a2 t)).draws = t.draws := (tallyAdd_led _ _ _ (.refl { tally := true } t) rfl).eq_draws rfl
@[simp] theorem sendPeer_sys {t : State} (a0) : ((sendPeer a0 t)).sys = t.sys := (sendPeer_led _ (.refl { trust := true, tally := true, corr := true, out := true } t) rfl).eq_sys rfl
@[simp] theorem sendPeer_pwr {t : State} (a0) : ((sendPeer a0 t)).pwr = t.pwr := (sendPeer_led _ (.refl { trust := true, tally := true, corr := true, out := true } t) rfl).eq_pwr rfl
@[simp] theorem sendPeer_pins {t : State} (a0) : ((sendPeer a0 t)).pins = t.pins := (sendPeer_led _ (.refl { trust := true, tally := true, corr := true, out := true } t) rfl).eq_pins rfl
@[simp] theorem sendPeer_dram {t : State} (a0) : ((sendPeer a0 t)).dram = t.dram := (sendPeer_led _ (.refl { trust := true, tally := true, corr := true, out := true } t) rfl).eq_dram rfl
@[simp] theorem sendPeer_cpi {t : State} (a0) : ((sendPeer a0 t)).cpi = t.cpi := (sendPeer_led _ (.refl { trust := true, tally := true, corr := true, out := true } t) rfl).eq_cpi rfl
@[simp] theorem sendPeer_diary {t : State} (a0) : ((sendPeer a0 t)).diary = t.diary := (sendPeer_led _ (.refl { trust := true, tally := true, corr := true, out := true } t) rfl).eq_diary rfl
@[simp] theorem sendPeer_tt {t : State} (a0) : ((sendPeer a0 t)).tt = t.tt := (sendPeer_led _ (.refl { trust := true, tally := true, corr := true, out := true } t) rfl).eq_tt rfl
@[simp] theorem sendPeer_lanes {t : State} (a0) : ((sendPeer a0 t)).lanes = t.lanes := (sendPeer_led _ (.refl { trust := true, tally := true, corr := true, out := true } t) rfl).eq_lanes rfl
@[simp] theorem sendPeer_stg {t : State} (a0) : ((sendPeer a0 t)).stg = t.stg := (sendPeer_led _ (.refl { trust := true, tally := true, corr := true, out := true } t) rfl).eq_stg rfl
@[simp] theorem sendPeer_ddp {t : State} (a0) : ((sendPeer a0 t)).ddp = t.ddp := (sendPeer_led _ (.refl { trust := true, tally := true, corr := true, out := true } t) rfl).eq_ddp rfl
@[simp] theorem sendPeer_ftl {t : State} (a0) : ((sendPeer a0 t)).ftl = t.ftl := (sendPeer_led _ (.refl { trust := true, tally := true, corr := true, out := true } t) rfl).eq_ftl rfl
@[simp] theorem sendPeer_ec {t : State} (a0) : ((sendPeer a0 t)).ec = t.ec := (sendPeer_led _ (.refl { trust := true, tally := true, corr := true, out := true } t) rfl).eq_ec rfl
@[simp] theorem sendPeer_bay {t : State} (a0) : ((sendPeer a0 t)).bay = t.bay := (sendPeer_led _ (.refl { trust := true, tally := true, corr := true, out := true } t) rfl).eq_bay rfl
@[simp] theorem sendPeer_pool {t : State} (a0) : ((sendPeer a0 t)).pool = t.pool := (sendPeer_led _ (.refl { trust := true, tally := true, corr := true, out := true } t) rfl).eq_pool rfl
@[simp] theorem sendPeer_saved {t : State} (a0) : ((sendPeer a0 t)).saved = t.saved := (sendPeer_led _ (.refl { trust := true, tally := true, corr := true, out := true } t) rfl).eq_saved rfl
@[simp] theorem sendPeer_ciph {t : State} (a0) : ((sendPeer a0 t)).ciph = t.ciph := (sendPeer_led _ (.refl { trust := true, tally := true, corr := true, out := true } t) rfl).eq_ciph rfl
@[simp] theorem sendPeer_skx {t : State} (a0) : ((sendPeer a0 t)).skx = t.skx := (sendPeer_led _ (.refl { trust := true, tally := true, corr := true, out := true } t) rfl).eq_skx rfl
@[simp] theorem sendPeer_jobs {t : State} (a0) : ((sendPeer a0 t)).jobs = t.jobs := (sendPeer_led _ (.refl { trust := true, tally := true, corr := true, out := true } t) rfl).eq_jobs rfl
@[simp] theorem sendPeer_hq {t : State} (a0) : ((sendPeer a0 t)).hq = t.hq := (sendPeer_led _ (.refl { trust := true, tally := true, corr := true, out := true } t) rfl).eq_hq rfl
@[simp] theorem sendPeer_repl {t : State} (a0) : ((sendPeer a0 t)).repl = t.repl := (sendPeer_led _ (.refl { trust := true, tally := true, corr := true, out := true } t) rfl).eq_repl rfl
@[simp] theorem sendPeer_draws {t : State} (a0) : ((sendPeer a0 t)).draws = t.draws := (sendPeer_led _ (.refl { trust := true, tally := true, corr := true, out := true } t) rfl).eq_draws rfl
@[simp] theorem journal_sys {t : State} (a0) : ((journal a0 t)).sys = t.sys := (journal_led _ (.refl { trust := true, tally := true, ftl := true, corr := true, out := true } t) rfl).eq_sys rfl
@[simp] theorem journal_pwr {t : State} (a0) : ((journal a0 t)).pwr = t.pwr := (journal_led _ (.refl { trust := true, tally := true, ftl := true, corr := true, out := true } t) rfl).eq_pwr rfl
@[simp] theorem journal_pins {t : State} (a0) : ((journal a0 t)).pins = t.pins := (journal_led _ (.refl { trust := true, tally := true, ftl := true, corr := true, out := true } t) rfl).eq_pins rfl
@[simp] theorem journal_dram {t : State} (a0) : ((journal a0 t)).dram = t.dram := (journal_led _ (.refl { trust := true, tally := true, ftl := true, corr := true, out := true } t) rfl).eq_dram rfl
@[simp] theorem journal_cpi {t : State} (a0) : ((journal a0 t)).cpi = t.cpi := (journal_led _ (.refl { trust := true, tally := true, ftl := true, corr := true, out := true } t) rfl).eq_cpi rfl
@[simp] theorem journal_diary {t : State} (a0) : ((journal a0 t)).diary = t.diary := (journal_led _ (.refl { trust := true, tally := true, ftl := true, corr := true, out := true } t) rfl).eq_diary rfl
@[simp] theorem journal_tt {t : State} (a0) : ((journal a0 t)).tt = t.tt := (journal_led _ (.refl { trust := true, tally := true, ftl := true, corr := true, out := true } t) rfl).eq_tt rfl
@[simp] theorem journal_lanes {t : State} (a0) : ((journal a0 t)).lanes = t.lanes := (journal_led _ (.refl { trust := true, tally := true, ftl := true, corr := true, out := true } t) rfl).eq_lanes rfl
@[simp] theorem journal_stg {t : State} (a0) : ((journal a0 t)).stg = t.stg := (journal_led _ (.refl { trust := true, tally := true, ftl := true, corr := true, out := true } t) rfl).eq_stg rfl
@[simp] theorem journal_ddp {t : State} (a0) : ((journal a0 t)).ddp = t.ddp := (journal_led _ (.refl { trust := true, tally := true, ftl := true, corr := true, out := true } t) rfl).eq_ddp rfl
@[simp] theorem journal_ec {t : State} (a0) : ((journal a0 t)).ec = t.ec := (journal_led _ (.refl { trust := true, tally := true, ftl := true, corr := true, out := true } t) rfl).eq_ec rfl
@[simp] theorem journal_bay {t : State} (a0) : ((journal a0 t)).bay = t.bay := (journal_led _ (.refl { trust := true, tally := true, ftl := true, corr := true, out := true } t) rfl).eq_bay rfl
@[simp] theorem journal_pool {t : State} (a0) : ((journal a0 t)).pool = t.pool := (journal_led _ (.refl { trust := true, tally := true, ftl := true, corr := true, out := true } t) rfl).eq_pool rfl
@[simp] theorem journal_saved {t : State} (a0) : ((journal a0 t)).saved = t.saved := (journal_led _ (.refl { trust := true, tally := true, ftl := true, corr := true, out := true } t) rfl).eq_saved rfl
@[simp] theorem journal_ciph {t : State} (a0) : ((journal a0 t)).ciph = t.ciph := (journal_led _ (.refl { trust := true, tally := true, ftl := true, corr := true, out := true } t) rfl).eq_ciph rfl
@[simp] theorem journal_skx {t : State} (a0) : ((journal a0 t)).skx = t.skx := (journal_led _ (.refl { trust := true, tally := true, ftl := true, corr := true, out := true } t) rfl).eq_skx rfl
@[simp] theorem journal_jobs {t : State} (a0) : ((journal a0 t)).jobs = t.jobs := (journal_led _ (.refl { trust := true, tally := true, ftl := true, corr := true, out := true } t) rfl).eq_jobs rfl
@[simp] theorem journal_hq {t : State} (a0) : ((journal a0 t)).hq = t.hq := (journal_led _ (.refl { trust := true, tally := true, ftl := true, corr := true, out := true } t) rfl).eq_hq rfl
@[simp] theorem journal_repl {t : State} (a0) : ((journal a0 t)).repl = t.repl := (journal_led _ (.refl { trust := true, tally := true, ftl := true, corr := true, out := true } t) rfl).eq_repl rfl
@[simp] theorem journal_draws {t : State} (a0) : ((journal a0 t)).draws = t.draws := (journal_led _ (.refl { trust := true, tally := true, ftl := true, corr := true, out := true } t) rfl).eq_draws rfl
@[simp] theorem event_sys {t : State} (a0 a1 a2) : ((event a0 a1 a2 t)).sys = t.sys := (event_led _ _ _ (.refl { diary := true, tally := true } t) rfl).eq_sys rfl
@[simp] theorem event_pwr {t : State} (a0 a1 a2) : ((event a0 a1 a2 t)).pwr = t.pwr := (event_led _ _ _ (.refl { diary := true, tally := true } t) rfl).eq_pwr rfl
@[simp] theorem event_pins {t : State} (a0 a1 a2) : ((event a0 a1 a2 t)).pins = t.pins := (event_led _ _ _ (.refl { diary := true, tally := true } t) rfl).eq_pins rfl
@[simp] theorem event_dram {t : State} (a0 a1 a2) : ((event a0 a1 a2 t)).dram = t.dram := (event_led _ _ _ (.refl { diary := true, tally := true } t) rfl).eq_dram rfl
@[simp] theorem event_trust {t : State} (a0 a1 a2) : ((event a0 a1 a2 t)).trust = t.trust := (event_led _ _ _ (.refl { diary := true, tally := true } t) rfl).eq_trust rfl
@[simp] theorem event_cpi {t : State} (a0 a1 a2) : ((event a0 a1 a2 t)).cpi = t.cpi := (event_led _ _ _ (.refl { diary := true, tally := true } t) rfl).eq_cpi rfl
@[simp] theorem event_tt {t : State} (a0 a1 a2) : ((event a0 a1 a2 t)).tt = t.tt := (event_led _ _ _ (.refl { diary := true, tally := true } t) rfl).eq_tt rfl
@[simp] theorem event_lanes {t : State} (a0 a1 a2) : ((event a0 a1 a2 t)).lanes = t.lanes := (event_led _ _ _ (.refl { diary := true, tally := true } t) rfl).eq_lanes rfl
@[simp] theorem event_stg {t : State} (a0 a1 a2) : ((event a0 a1 a2 t)).stg = t.stg := (event_led _ _ _ (.refl { diary := true, tally := true } t) rfl).eq_stg rfl
@[simp] theorem event_ddp {t : State} (a0 a1 a2) : ((event a0 a1 a2 t)).ddp = t.ddp := (event_led _ _ _ (.refl { diary := true, tally := true } t) rfl).eq_ddp rfl
@[simp] theorem event_ftl {t : State} (a0 a1 a2) : ((event a0 a1 a2 t)).ftl = t.ftl := (event_led _ _ _ (.refl { diary := true, tally := true } t) rfl).eq_ftl rfl
@[simp] theorem event_ec {t : State} (a0 a1 a2) : ((event a0 a1 a2 t)).ec = t.ec := (event_led _ _ _ (.refl { diary := true, tally := true } t) rfl).eq_ec rfl
@[simp] theorem event_bay {t : State} (a0 a1 a2) : ((event a0 a1 a2 t)).bay = t.bay := (event_led _ _ _ (.refl { diary := true, tally := true } t) rfl).eq_bay rfl
@[simp] theorem event_pool {t : State} (a0 a1 a2) : ((event a0 a1 a2 t)).pool = t.pool := (event_led _ _ _ (.refl { diary := true, tally := true } t) rfl).eq_pool rfl
@[simp] theorem event_saved {t : State} (a0 a1 a2) : ((event a0 a1 a2 t)).saved = t.saved := (event_led _ _ _ (.refl { diary := true, tally := true } t) rfl).eq_saved rfl
@[simp] theorem event_ciph {t : State} (a0 a1 a2) : ((event a0 a1 a2 t)).ciph = t.ciph := (event_led _ _ _ (.refl { diary := true, tally := true } t) rfl).eq_ciph rfl
@[simp] theorem event_skx {t : State} (a0 a1 a2) : ((event a0 a1 a2 t)).skx = t.skx := (event_led _ _ _ (.refl { diary := true, tally := true } t) rfl).eq_skx rfl
@[simp] theorem event_jobs {t : State} (a0 a1 a2) : ((event a0 a1 a2 t)).jobs = t.jobs := (event_led _ _ _ (.refl { diary := true, tally := true } t) rfl).eq_jobs rfl
@[simp] theorem event_hq {t : State} (a0 a1 a2) : ((event a0 a1 a2 t)).hq = t.hq := (event_led _ _ _ (.refl { diary := true, tally := true } t) rfl).eq_hq rfl
@[simp] theorem event_repl {t : State} (a0 a1 a2) : ((event a0 a1 a2 t)).repl = t.repl := (event_led _ _ _ (.refl { diary := true, tally := true } t) rfl).eq_repl rfl
@[simp] theorem event_corr {t : State} (a0 a1 a2) : ((event a0 a1 a2 t)).corr = t.corr := (event_led _ _ _ (.refl { diary := true, tally := true } t) rfl).eq_corr rfl
@[simp] theorem event_out {t : State} (a0 a1 a2) : ((event a0 a1 a2 t)).out = t.out := (event_led _ _ _ (.refl { diary := true, tally := true } t) rfl).eq_out rfl
@[simp] theorem event_draws {t : State} (a0 a1 a2) : ((event a0 a1 a2 t)).draws = t.draws := (event_led _ _ _ (.refl { diary := true, tally := true } t) rfl).eq_draws rfl
@[simp] theorem takeDone_sys {t : State} (a0 a1) : ((takeDone a0 a1 t)).sys = t.sys := (takeDone_led _ _ (.refl { tally := true, ec := true, bay := true } t) rfl).eq_sys rfl
@[simp] theorem takeDone_pwr {t : State} (a0 a1) : ((takeDone a0 a1 t)).pwr = t.pwr := (takeDone_led _ _ (.refl { tally := true, ec := true, bay := true } t) rfl).eq_pwr rfl
@[simp] theorem takeDone_pins {t : State} (a0 a1) : ((takeDone a0 a1 t)).pins = t.pins := (takeDone_led _ _ (.refl { tally := true, ec := true, bay := true } t) rfl).eq_pins rfl
@[simp] theorem takeDone_dram {t : State} (a0 a1) : ((takeDone a0 a1 t)).dram = t.dram := (takeDone_led _ _ (.refl { tally := true, ec := true, bay := true } t) rfl).eq_dram rfl
@[simp] theorem takeDone_trust {t : State} (a0 a1) : ((takeDone a0 a1 t)).trust = t.trust := (takeDone_led _ _ (.refl { tally := true, ec := true, bay := true } t) rfl).eq_trust rfl
@[simp] theorem takeDone_cpi {t : State} (a0 a1) : ((takeDone a0 a1 t)).cpi = t.cpi := (takeDone_led _ _ (.refl { tally := true, ec := true, bay := true } t) rfl).eq_cpi rfl
@[simp] theorem takeDone_diary {t : State} (a0 a1) : ((takeDone a0 a1 t)).diary = t.diary := (takeDone_led _ _ (.refl { tally := true, ec := true, bay := true } t) rfl).eq_diary rfl
@[simp] theorem takeDone_tt {t : State} (a0 a1) : ((takeDone a0 a1 t)).tt = t.tt := (takeDone_led _ _ (.refl { tally := true, ec := true, bay := true } t) rfl).eq_tt rfl
@[simp] theorem takeDone_lanes {t : State} (a0 a1) : ((takeDone a0 a1 t)).lanes = t.lanes := (takeDone_led _ _ (.refl { tally := true, ec := true, bay := true } t) rfl).eq_lanes rfl
@[simp] theorem takeDone_stg {t : State} (a0 a1) : ((takeDone a0 a1 t)).stg = t.stg := (takeDone_led _ _ (.refl { tally := true, ec := true, bay := true } t) rfl).eq_stg rfl
@[simp] theorem takeDone_ddp {t : State} (a0 a1) : ((takeDone a0 a1 t)).ddp = t.ddp := (takeDone_led _ _ (.refl { tally := true, ec := true, bay := true } t) rfl).eq_ddp rfl
@[simp] theorem takeDone_ftl {t : State} (a0 a1) : ((takeDone a0 a1 t)).ftl = t.ftl := (takeDone_led _ _ (.refl { tally := true, ec := true, bay := true } t) rfl).eq_ftl rfl
@[simp] theorem takeDone_pool {t : State} (a0 a1) : ((takeDone a0 a1 t)).pool = t.pool := (takeDone_led _ _ (.refl { tally := true, ec := true, bay := true } t) rfl).eq_pool rfl
@[simp] theorem takeDone_saved {t : State} (a0 a1) : ((takeDone a0 a1 t)).saved = t.saved := (takeDone_led _ _ (.refl { tally := true, ec := true, bay := true } t) rfl).eq_saved rfl
@[simp] theorem takeDone_ciph {t : State} (a0 a1) : ((takeDone a0 a1 t)).ciph = t.ciph := (takeDone_led _ _ (.refl { tally := true, ec := true, bay := true } t) rfl).eq_ciph rfl
@[simp] theorem takeDone_skx {t : State} (a0 a1) : ((takeDone a0 a1 t)).skx = t.skx := (takeDone_led _ _ (.refl { tally := true, ec := true, bay := true } t) rfl).eq_skx rfl
@[simp] theorem takeDone_jobs {t : State} (a0 a1) : ((takeDone a0 a1 t)).jobs = t.jobs := (takeDone_led _ _ (.refl { tally := true, ec := true, bay := true } t) rfl).eq_jobs rfl
@[simp] theorem takeDone_hq {t : State} (a0 a1) : ((takeDone a0 a1 t)).hq = t.hq := (takeDone_led _ _ (.refl { tally := true, ec := true, bay := true } t) rfl).eq_hq rfl
@[simp] theorem takeDone_repl {t : State} (a0 a1) : ((takeDone a0 a1 t)).repl = t.repl := (takeDone_led _ _ (.refl { tally := true, ec := true, bay := true } t) rfl).eq_repl rfl
@[simp] theorem takeDone_corr {t : State} (a0 a1) : ((takeDone a0 a1 t)).corr = t.corr := (takeDone_led _ _ (.refl { tally := true, ec := true, bay := true } t) rfl).eq_corr rfl
@[simp] theorem takeDone_out {t : State} (a0 a1) : ((takeDone a0 a1 t)).out = t.out := (takeDone_led _ _ (.refl { tally := true, ec := true, bay := true } t) rfl).eq_out rfl
@[simp] theorem takeDone_draws {t : State} (a0 a1) : ((takeDone a0 a1 t)).draws = t.draws := (takeDone_led _ _ (.refl { tally := true, ec := true, bay := true } t) rfl).eq_draws rfl
@[simp] theorem configWrite_sys {t : State} : ((configWrite t)).sys = t.sys := (configWrite_led  (.refl { trust := true, tally := true, bay := true, pool := true, corr := true, out := true } t) rfl).eq_sys rfl
@[simp] theorem configWrite_pwr {t : State} : ((configWrite t)).pwr = t.pwr := (configWrite_led  (.refl { trust := true, tally := true, bay := true, pool := true, corr := true, out := true } t) rfl).eq_pwr rfl
@[simp] theorem configWrite_pins {t : State} : ((configWrite t)).pins = t.pins := (configWrite_led  (.refl { trust := true, tally := true, bay := true, pool := true, corr := true, out := true } t) rfl).eq_pins rfl
@[simp] theorem configWrite_dram {t : State} : ((configWrite t)).dram = t.dram := (configWrite_led  (.refl { trust := true, tally := true, bay := true, pool := true, corr := true, out := true } t) rfl).eq_dram rfl
@[simp] theorem configWrite_cpi {t : State} : ((configWrite t)).cpi = t.cpi := (configWrite_led  (.refl { trust := true, tally := true, bay := true, pool := true, corr := true, out := true } t) rfl).eq_cpi rfl
@[simp] theorem configWrite_diary {t : State} : ((configWrite t)).diary = t.diary := (configWrite_led  (.refl { trust := true, tally := true, bay := true, pool := true, corr := true, out := true } t) rfl).eq_diary rfl
@[simp] theorem configWrite_tt {t : State} : ((configWrite t)).tt = t.tt := (configWrite_led  (.refl { trust := true, tally := true, bay := true, pool := true, corr := true, out := true } t) rfl).eq_tt rfl
@[simp] theorem configWrite_lanes {t : State} : ((configWrite t)).lanes = t.lanes := (configWrite_led  (.refl { trust := true, tally := true, bay := true, pool := true, corr := true, out := true } t) rfl).eq_lanes rfl
@[simp] theorem configWrite_stg {t : State} : ((configWrite t)).stg = t.stg := (configWrite_led  (.refl { trust := true, tally := true, bay := true, pool := true, corr := true, out := true } t) rfl).eq_stg rfl
@[simp] theorem configWrite_ddp {t : State} : ((configWrite t)).ddp = t.ddp := (configWrite_led  (.refl { trust := true, tally := true, bay := true, pool := true, corr := true, out := true } t) rfl).eq_ddp rfl
@[simp] theorem configWrite_ftl {t : State} : ((configWrite t)).ftl = t.ftl := (configWrite_led  (.refl { trust := true, tally := true, bay := true, pool := true, corr := true, out := true } t) rfl).eq_ftl rfl
@[simp] theorem configWrite_ec {t : State} : ((configWrite t)).ec = t.ec := (configWrite_led  (.refl { trust := true, tally := true, bay := true, pool := true, corr := true, out := true } t) rfl).eq_ec rfl
@[simp] theorem configWrite_saved {t : State} : ((configWrite t)).saved = t.saved := (configWrite_led  (.refl { trust := true, tally := true, bay := true, pool := true, corr := true, out := true } t) rfl).eq_saved rfl
@[simp] theorem configWrite_ciph {t : State} : ((configWrite t)).ciph = t.ciph := (configWrite_led  (.refl { trust := true, tally := true, bay := true, pool := true, corr := true, out := true } t) rfl).eq_ciph rfl
@[simp] theorem configWrite_skx {t : State} : ((configWrite t)).skx = t.skx := (configWrite_led  (.refl { trust := true, tally := true, bay := true, pool := true, corr := true, out := true } t) rfl).eq_skx rfl
@[simp] theorem configWrite_jobs {t : State} : ((configWrite t)).jobs = t.jobs := (configWrite_led  (.refl { trust := true, tally := true, bay := true, pool := true, corr := true, out := true } t) rfl).eq_jobs rfl
@[simp] theorem configWrite_hq {t : State} : ((configWrite t)).hq = t.hq := (configWrite_led  (.refl { trust := true, tally := true, bay := true, pool := true, corr := true, out := true } t) rfl).eq_hq rfl
@[simp] theorem configWrite_repl {t : State} : ((configWrite t)).repl = t.repl := (configWrite_led  (.refl { trust := true, tally := true, bay := true, pool := true, corr := true, out := true } t) rfl).eq_repl rfl
@[simp] theorem configWrite_draws {t : State} : ((configWrite t)).draws = t.draws := (configWrite_led  (.refl { trust := true, tally := true, bay := true, pool := true, corr := true, out := true } t) rfl).eq_draws rfl
@[simp] theorem reply_sys {t : State} (a0 a1) : ((reply a0 a1 t)).sys = t.sys := (reply_led _ _ (.refl { trust := true, tally := true, corr := true, out := true } t) rfl).eq_sys rfl
@[simp] theorem reply_pwr {t : State} (a0 a1) : ((reply a0 a1 t)).pwr = t.pwr := (reply_led _ _ (.refl { trust := true, tally := true, corr := true, out := true } t) rfl).eq_pwr rfl
@[simp] theorem reply_pins {t : State} (a0 a1) : ((reply a0 a1 t)).pins = t.pins := (reply_led _ _ (.refl { trust := true, tally := true, corr := true, out := true } t) rfl).eq_pins rfl
@[simp] theorem reply_dram {t : State} (a0 a1) : ((reply a0 a1 t)).dram = t.dram := (reply_led _ _ (.refl { trust := true, tally := true, corr := true, out := true } t) rfl).eq_dram rfl
@[simp] theorem reply_cpi {t : State} (a0 a1) : ((reply a0 a1 t)).cpi = t.cpi := (reply_led _ _ (.refl { trust := true, tally := true, corr := true, out := true } t) rfl).eq_cpi rfl
@[simp] theorem reply_diary {t : State} (a0 a1) : ((reply a0 a1 t)).diary = t.diary := (reply_led _ _ (.refl { trust := true, tally := true, corr := true, out := true } t) rfl).eq_diary rfl
@[simp] theorem reply_tt {t : State} (a0 a1) : ((reply a0 a1 t)).tt = t.tt := (reply_led _ _ (.refl { trust := true, tally := true, corr := true, out := true } t) rfl).eq_tt rfl
@[simp] theorem reply_lanes {t : State} (a0 a1) : ((reply a0 a1 t)).lanes = t.lanes := (reply_led _ _ (.refl { trust := true, tally := true, corr := true, out := true } t) rfl).eq_lanes rfl
@[simp] theorem reply_stg {t : State} (a0 a1) : ((reply a0 a1 t)).stg = t.stg := (reply_led _ _ (.refl { trust := true, tally := true, corr := true, out := true } t) rfl).eq_stg rfl
@[simp] theorem reply_ddp {t : State} (a0 a1) : ((reply a0 a1 t)).ddp = t.ddp := (reply_led _ _ (.refl { trust := true, tally := true, corr := true, out := true } t) rfl).eq_ddp rfl
@[simp] theorem reply_ftl {t : State} (a0 a1) : ((reply a0 a1 t)).ftl = t.ftl := (reply_led _ _ (.refl { trust := true, tally := true, corr := true, out := true } t) rfl).eq_ftl rfl
@[simp] theorem reply_ec {t : State} (a0 a1) : ((reply a0 a1 t)).ec = t.ec := (reply_led _ _ (.refl { trust := true, tally := true, corr := true, out := true } t) rfl).eq_ec rfl
@[simp] theorem reply_bay {t : State} (a0 a1) : ((reply a0 a1 t)).bay = t.bay := (reply_led _ _ (.refl { trust := true, tally := true, corr := true, out := true } t) rfl).eq_bay rfl
@[simp] theorem reply_pool {t : State} (a0 a1) : ((reply a0 a1 t)).pool = t.pool := (reply_led _ _ (.refl { trust := true, tally := true, corr := true, out := true } t) rfl).eq_pool rfl
@[simp] theorem reply_saved {t : State} (a0 a1) : ((reply a0 a1 t)).saved = t.saved := (reply_led _ _ (.refl { trust := true, tally := true, corr := true, out := true } t) rfl).eq_saved rfl
@[simp] theorem reply_ciph {t : State} (a0 a1) : ((reply a0 a1 t)).ciph = t.ciph := (reply_led _ _ (.refl { trust := true, tally := true, corr := true, out := true } t) rfl).eq_ciph rfl
@[simp] theorem reply_skx {t : State} (a0 a1) : ((reply a0 a1 t)).skx = t.skx := (reply_led _ _ (.refl { trust := true, tally := true, corr := true, out := true } t) rfl).eq_skx rfl
@[simp] theorem reply_jobs {t : State} (a0 a1) : ((reply a0 a1 t)).jobs = t.jobs := (reply_led _ _ (.refl { trust := true, tally := true, corr := true, out := true } t) rfl).eq_jobs rfl
@[simp] theorem reply_hq {t : State} (a0 a1) : ((reply a0 a1 t)).hq = t.hq := (reply_led _ _ (.refl { trust := true, tally := true, corr := true, out := true } t) rfl).eq_hq rfl
@[simp] theorem reply_repl {t : State} (a0 a1) : ((reply a0 a1 t)).repl = t.repl := (reply_led _ _ (.refl { trust := true, tally := true, corr := true, out := true } t) rfl).eq_repl rfl
@[simp] theorem reply_draws {t : State} (a0 a1) : ((reply a0 a1 t)).draws = t.draws := (reply_led _ _ (.refl { trust := true, tally := true, corr := true, out := true } t) rfl).eq_draws rfl
@[simp] theorem postReply_sys {t : State} (a0) : ((postReply a0 t)).sys = t.sys := (postReply_led _ (.refl { cpi := true, tally := true, out := true } t) rfl).eq_sys rfl
@[simp] theorem postReply_pwr {t : State} (a0) : ((postReply a0 t)).pwr = t.pwr := (postReply_led _ (.refl { cpi := true, tally := true, out := true } t) rfl).eq_pwr rfl
@[simp] theorem postReply_pins {t : State} (a0) : ((postReply a0 t)).pins = t.pins := (postReply_led _ (.refl { cpi := true, tally := true, out := true } t) rfl).eq_pins rfl
@[simp] theorem postReply_dram {t : State} (a0) : ((postReply a0 t)).dram = t.dram := (postReply_led _ (.refl { cpi := true, tally := true, out := true } t) rfl).eq_dram rfl
@[simp] theorem postReply_trust {t : State} (a0) : ((postReply a0 t)).trust = t.trust := (postReply_led _ (.refl { cpi := true, tally := true, out := true } t) rfl).eq_trust rfl
@[simp] theorem postReply_diary {t : State} (a0) : ((postReply a0 t)).diary = t.diary := (postReply_led _ (.refl { cpi := true, tally := true, out := true } t) rfl).eq_diary rfl
@[simp] theorem postReply_tt {t : State} (a0) : ((postReply a0 t)).tt = t.tt := (postReply_led _ (.refl { cpi := true, tally := true, out := true } t) rfl).eq_tt rfl
@[simp] theorem postReply_lanes {t : State} (a0) : ((postReply a0 t)).lanes = t.lanes := (postReply_led _ (.refl { cpi := true, tally := true, out := true } t) rfl).eq_lanes rfl
@[simp] theorem postReply_stg {t : State} (a0) : ((postReply a0 t)).stg = t.stg := (postReply_led _ (.refl { cpi := true, tally := true, out := true } t) rfl).eq_stg rfl
@[simp] theorem postReply_ddp {t : State} (a0) : ((postReply a0 t)).ddp = t.ddp := (postReply_led _ (.refl { cpi := true, tally := true, out := true } t) rfl).eq_ddp rfl
@[simp] theorem postReply_ftl {t : State} (a0) : ((postReply a0 t)).ftl = t.ftl := (postReply_led _ (.refl { cpi := true, tally := true, out := true } t) rfl).eq_ftl rfl
@[simp] theorem postReply_ec {t : State} (a0) : ((postReply a0 t)).ec = t.ec := (postReply_led _ (.refl { cpi := true, tally := true, out := true } t) rfl).eq_ec rfl
@[simp] theorem postReply_bay {t : State} (a0) : ((postReply a0 t)).bay = t.bay := (postReply_led _ (.refl { cpi := true, tally := true, out := true } t) rfl).eq_bay rfl
@[simp] theorem postReply_pool {t : State} (a0) : ((postReply a0 t)).pool = t.pool := (postReply_led _ (.refl { cpi := true, tally := true, out := true } t) rfl).eq_pool rfl
@[simp] theorem postReply_saved {t : State} (a0) : ((postReply a0 t)).saved = t.saved := (postReply_led _ (.refl { cpi := true, tally := true, out := true } t) rfl).eq_saved rfl
@[simp] theorem postReply_ciph {t : State} (a0) : ((postReply a0 t)).ciph = t.ciph := (postReply_led _ (.refl { cpi := true, tally := true, out := true } t) rfl).eq_ciph rfl
@[simp] theorem postReply_skx {t : State} (a0) : ((postReply a0 t)).skx = t.skx := (postReply_led _ (.refl { cpi := true, tally := true, out := true } t) rfl).eq_skx rfl
@[simp] theorem postReply_jobs {t : State} (a0) : ((postReply a0 t)).jobs = t.jobs := (postReply_led _ (.refl { cpi := true, tally := true, out := true } t) rfl).eq_jobs rfl
@[simp] theorem postReply_hq {t : State} (a0) : ((postReply a0 t)).hq = t.hq := (postReply_led _ (.refl { cpi := true, tally := true, out := true } t) rfl).eq_hq rfl
@[simp] theorem postReply_repl {t : State} (a0) : ((postReply a0 t)).repl = t.repl := (postReply_led _ (.refl { cpi := true, tally := true, out := true } t) rfl).eq_repl rfl
@[simp] theorem postReply_corr {t : State} (a0) : ((postReply a0 t)).corr = t.corr := (postReply_led _ (.refl { cpi := true, tally := true, out := true } t) rfl).eq_corr rfl
@[simp] theorem postReply_draws {t : State} (a0) : ((postReply a0 t)).draws = t.draws := (postReply_led _ (.refl { cpi := true, tally := true, out := true } t) rfl).eq_draws rfl
@[simp] theorem answered_sys {t : State} (a0 a1 a2) : ((answered a0 a1 a2 t)).sys = t.sys := (answered_led _ _ _ (.refl { trust := true, cpi := true, tally := true, corr := true, out := true } t) rfl).eq_sys rfl
@[simp] theorem answered_pwr {t : State} (a0 a1 a2) : ((answered a0 a1 a2 t)).pwr = t.pwr := (answered_led _ _ _ (.refl { trust := true, cpi := true, tally := true, corr := true, out := true } t) rfl).eq_pwr rfl
@[simp] theorem answered_pins {t : State} (a0 a1 a2) : ((answered a0 a1 a2 t)).pins = t.pins := (answered_led _ _ _ (.refl { trust := true, cpi := true, tally := true, corr := true, out := true } t) rfl).eq_pins rfl
@[simp] theorem answered_dram {t : State} (a0 a1 a2) : ((answered a0 a1 a2 t)).dram = t.dram := (answered_led _ _ _ (.refl { trust := true, cpi := true, tally := true, corr := true, out := true } t) rfl).eq_dram rfl
@[simp] theorem answered_diary {t : State} (a0 a1 a2) : ((answered a0 a1 a2 t)).diary = t.diary := (answered_led _ _ _ (.refl { trust := true, cpi := true, tally := true, corr := true, out := true } t) rfl).eq_diary rfl
@[simp] theorem answered_tt {t : State} (a0 a1 a2) : ((answered a0 a1 a2 t)).tt = t.tt := (answered_led _ _ _ (.refl { trust := true, cpi := true, tally := true, corr := true, out := true } t) rfl).eq_tt rfl
@[simp] theorem answered_lanes {t : State} (a0 a1 a2) : ((answered a0 a1 a2 t)).lanes = t.lanes := (answered_led _ _ _ (.refl { trust := true, cpi := true, tally := true, corr := true, out := true } t) rfl).eq_lanes rfl
@[simp] theorem answered_stg {t : State} (a0 a1 a2) : ((answered a0 a1 a2 t)).stg = t.stg := (answered_led _ _ _ (.refl { trust := true, cpi := true, tally := true, corr := true, out := true } t) rfl).eq_stg rfl
@[simp] theorem answered_ddp {t : State} (a0 a1 a2) : ((answered a0 a1 a2 t)).ddp = t.ddp := (answered_led _ _ _ (.refl { trust := true, cpi := true, tally := true, corr := true, out := true } t) rfl).eq_ddp rfl
@[simp] theorem answered_ftl {t : State} (a0 a1 a2) : ((answered a0 a1 a2 t)).ftl = t.ftl := (answered_led _ _ _ (.refl { trust := true, cpi := true, tally := true, corr := true, out := true } t) rfl).eq_ftl rfl
@[simp] theorem answered_ec {t : State} (a0 a1 a2) : ((answered a0 a1 a2 t)).ec = t.ec := (answered_led _ _ _ (.refl { trust := true, cpi := true, tally := true, corr := true, out := true } t) rfl).eq_ec rfl
@[simp] theorem answered_bay {t : State} (a0 a1 a2) : ((answered a0 a1 a2 t)).bay = t.bay := (answered_led _ _ _ (.refl { trust := true, cpi := true, tally := true, corr := true, out := true } t) rfl).eq_bay rfl
@[simp] theorem answered_pool {t : State} (a0 a1 a2) : ((answered a0 a1 a2 t)).pool = t.pool := (answered_led _ _ _ (.refl { trust := true, cpi := true, tally := true, corr := true, out := true } t) rfl).eq_pool rfl
@[simp] theorem answered_saved {t : State} (a0 a1 a2) : ((answered a0 a1 a2 t)).saved = t.saved := (answered_led _ _ _ (.refl { trust := true, cpi := true, tally := true, corr := true, out := true } t) rfl).eq_saved rfl
@[simp] theorem answered_ciph {t : State} (a0 a1 a2) : ((answered a0 a1 a2 t)).ciph = t.ciph := (answered_led _ _ _ (.refl { trust := true, cpi := true, tally := true, corr := true, out := true } t) rfl).eq_ciph rfl
@[simp] theorem answered_skx {t : State} (a0 a1 a2) : ((answered a0 a1 a2 t)).skx = t.skx := (answered_led _ _ _ (.refl { trust := true, cpi := true, tally := true, corr := true, out := true } t) rfl).eq_skx rfl
@[simp] theorem answered_jobs {t : State} (a0 a1 a2) : ((answered a0 a1 a2 t)).jobs = t.jobs := (answered_led _ _ _ (.refl { trust := true, cpi := true, tally := true, corr := true, out := true } t) rfl).eq_jobs rfl
@[simp] theorem answered_hq {t : State} (a0 a1 a2) : ((answered a0 a1 a2 t)).hq = t.hq := (answered_led _ _ _ (.refl { trust := true, cpi := true, tally := true, corr := true, out := true } t) rfl).eq_hq rfl
@[simp] theorem answered_repl {t : State} (a0 a1 a2) : ((answered a0 a1 a2 t)).repl = t.repl := (answered_led _ _ _ (.refl { trust := true, cpi := true, tally := true, corr := true, out := true } t) rfl).eq_repl rfl
@[simp] theorem answered_draws {t : State} (a0 a1 a2) : ((answered a0 a1 a2 t)).draws = t.draws := (answered_led _ _ _ (.refl { trust := true, cpi := true, tally := true, corr := true, out := true } t) rfl).eq_draws rfl
@[simp] theorem takeSuperblock_sys {t : State} (a0) : ((takeSuperblock a0 t)).sys = t.sys := (takeSuperblock_led _ (.refl { ec := true, pool := true } t) rfl).eq_sys rfl
@[simp] theorem takeSuperblock_pwr {t : State} (a0) : ((takeSuperblock a0 t)).pwr = t.pwr := (takeSuperblock_led _ (.refl { ec := true, pool := true } t) rfl).eq_pwr rfl
@[simp] theorem takeSuperblock_pins {t : State} (a0) : ((takeSuperblock a0 t)).pins = t.pins := (takeSuperblock_led _ (.refl { ec := true, pool := true } t) rfl).eq_pins rfl
@[simp] theorem takeSuperblock_dram {t : State} (a0) : ((takeSuperblock a0 t)).dram = t.dram := (takeSuperblock_led _ (.refl { ec := true, pool := true } t) rfl).eq_dram rfl
@[simp] theorem takeSuperblock_trust {t : State} (a0) : ((takeSuperblock a0 t)).trust = t.trust := (takeSuperblock_led _ (.refl { ec := true, pool := true } t) rfl).eq_trust rfl
@[simp] theorem takeSuperblock_cpi {t : State} (a0) : ((takeSuperblock a0 t)).cpi = t.cpi := (takeSuperblock_led _ (.refl { ec := true, pool := true } t) rfl).eq_cpi rfl
@[simp] theorem takeSuperblock_diary {t : State} (a0) : ((takeSuperblock a0 t)).diary = t.diary := (takeSuperblock_led _ (.refl { ec := true, pool := true } t) rfl).eq_diary rfl
@[simp] theorem takeSuperblock_tally {t : State} (a0) : ((takeSuperblock a0 t)).tally = t.tally := (takeSuperblock_led _ (.refl { ec := true, pool := true } t) rfl).eq_tally rfl
@[simp] theorem takeSuperblock_tt {t : State} (a0) : ((takeSuperblock a0 t)).tt = t.tt := (takeSuperblock_led _ (.refl { ec := true, pool := true } t) rfl).eq_tt rfl
@[simp] theorem takeSuperblock_lanes {t : State} (a0) : ((takeSuperblock a0 t)).lanes = t.lanes := (takeSuperblock_led _ (.refl { ec := true, pool := true } t) rfl).eq_lanes rfl
@[simp] theorem takeSuperblock_stg {t : State} (a0) : ((takeSuperblock a0 t)).stg = t.stg := (takeSuperblock_led _ (.refl { ec := true, pool := true } t) rfl).eq_stg rfl
@[simp] theorem takeSuperblock_ddp {t : State} (a0) : ((takeSuperblock a0 t)).ddp = t.ddp := (takeSuperblock_led _ (.refl { ec := true, pool := true } t) rfl).eq_ddp rfl
@[simp] theorem takeSuperblock_ftl {t : State} (a0) : ((takeSuperblock a0 t)).ftl = t.ftl := (takeSuperblock_led _ (.refl { ec := true, pool := true } t) rfl).eq_ftl rfl
@[simp] theorem takeSuperblock_bay {t : State} (a0) : ((takeSuperblock a0 t)).bay = t.bay := (takeSuperblock_led _ (.refl { ec := true, pool := true } t) rfl).eq_bay rfl
@[simp] theorem takeSuperblock_saved {t : State} (a0) : ((takeSuperblock a0 t)).saved = t.saved := (takeSuperblock_led _ (.refl { ec := true, pool := true } t) rfl).eq_saved rfl
@[simp] theorem takeSuperblock_ciph {t : State} (a0) : ((takeSuperblock a0 t)).ciph = t.ciph := (takeSuperblock_led _ (.refl { ec := true, pool := true } t) rfl).eq_ciph rfl
@[simp] theorem takeSuperblock_skx {t : State} (a0) : ((takeSuperblock a0 t)).skx = t.skx := (takeSuperblock_led _ (.refl { ec := true, pool := true } t) rfl).eq_skx rfl
@[simp] theorem takeSuperblock_jobs {t : State} (a0) : ((takeSuperblock a0 t)).jobs = t.jobs := (takeSuperblock_led _ (.refl { ec := true, pool := true } t) rfl).eq_jobs rfl
@[simp] theorem takeSuperblock_hq {t : State} (a0) : ((takeSuperblock a0 t)).hq = t.hq := (takeSuperblock_led _ (.refl { ec := true, pool := true } t) rfl).eq_hq rfl
@[simp] theorem takeSuperblock_repl {t : State} (a0) : ((takeSuperblock a0 t)).repl = t.repl := (takeSuperblock_led _ (.refl { ec := true, pool := true } t) rfl).eq_repl rfl
@[simp] theorem takeSuperblock_corr {t : State} (a0) : ((takeSuperblock a0 t)).corr = t.corr := (takeSuperblock_led _ (.refl { ec := true, pool := true } t) rfl).eq_corr rfl
@[simp] theorem takeSuperblock_out {t : State} (a0) : ((takeSuperblock a0 t)).out = t.out := (takeSuperblock_led _ (.refl { ec := true, pool := true } t) rfl).eq_out rfl
@[simp] theorem takeSuperblock_draws {t : State} (a0) : ((takeSuperblock a0 t)).draws = t.draws := (takeSuperblock_led _ (.refl { ec := true, pool := true } t) rfl).eq_draws rfl
@[simp] theorem noteRead_sys {t : State} (a0 a1) : ((noteRead a0 a1 t)).sys = t.sys := (noteRead_led _ _ (.refl { trust := true, tally := true, ftl := true, corr := true, out := true } t) rfl).eq_sys rfl
@[simp] theorem noteRead_pwr {t : State} (a0 a1) : ((noteRead a0 a1 t)).pwr = t.pwr := (noteRead_led _ _ (.refl { trust := true, tally := true, ftl := true, corr := true, out := true } t) rfl).eq_pwr rfl
@[simp] theorem noteRead_pins {t : State} (a0 a1) : ((noteRead a0 a1 t)).pins = t.pins := (noteRead_led _ _ (.refl { trust := true, tally := true, ftl := true, corr := true, out := true } t) rfl).eq_pins rfl
@[simp] theorem noteRead_dram {t : State} (a0 a1) : ((noteRead a0 a1 t)).dram = t.dram := (noteRead_led _ _ (.refl { trust := true, tally := true, ftl := true, corr := true, out := true } t) rfl).eq_dram rfl
@[simp] theorem noteRead_cpi {t : State} (a0 a1) : ((noteRead a0 a1 t)).cpi = t.cpi := (noteRead_led _ _ (.refl { trust := true, tally := true, ftl := true, corr := true, out := true } t) rfl).eq_cpi rfl
@[simp] theorem noteRead_diary {t : State} (a0 a1) : ((noteRead a0 a1 t)).diary = t.diary := (noteRead_led _ _ (.refl { trust := true, tally := true, ftl := true, corr := true, out := true } t) rfl).eq_diary rfl
@[simp] theorem noteRead_tt {t : State} (a0 a1) : ((noteRead a0 a1 t)).tt = t.tt := (noteRead_led _ _ (.refl { trust := true, tally := true, ftl := true, corr := true, out := true } t) rfl).eq_tt rfl
@[simp] theorem noteRead_lanes {t : State} (a0 a1) : ((noteRead a0 a1 t)).lanes = t.lanes := (noteRead_led _ _ (.refl { trust := true, tally := true, ftl := true, corr := true, out := true } t) rfl).eq_lanes rfl
@[simp] theorem noteRead_stg {t : State} (a0 a1) : ((noteRead a0 a1 t)).stg = t.stg := (noteRead_led _ _ (.refl { trust := true, tally := true, ftl := true, corr := true, out := true } t) rfl).eq_stg rfl
@[simp] theorem noteRead_ddp {t : State} (a0 a1) : ((noteRead a0 a1 t)).ddp = t.ddp := (noteRead_led _ _ (.refl { trust := true, tally := true, ftl := true, corr := true, out := true } t) rfl).eq_ddp rfl
@[simp] theorem noteRead_ec {t : State} (a0 a1) : ((noteRead a0 a1 t)).ec = t.ec := (noteRead_led _ _ (.refl { trust := true, tally := true, ftl := true, corr := true, out := true } t) rfl).eq_ec rfl
@[simp] theorem noteRead_bay {t : State} (a0 a1) : ((noteRead a0 a1 t)).bay = t.bay := (noteRead_led _ _ (.refl { trust := true, tally := true, ftl := true, corr := true, out := true } t) rfl).eq_bay rfl
@[simp] theorem noteRead_pool {t : State} (a0 a1) : ((noteRead a0 a1 t)).pool = t.pool := (noteRead_led _ _ (.refl { trust := true, tally := true, ftl := true, corr := true, out := true } t) rfl).eq_pool rfl
@[simp] theorem noteRead_saved {t : State} (a0 a1) : ((noteRead a0 a1 t)).saved = t.saved := (noteRead_led _ _ (.refl { trust := true, tally := true, ftl := true, corr := true, out := true } t) rfl).eq_saved rfl
@[simp] theorem noteRead_ciph {t : State} (a0 a1) : ((noteRead a0 a1 t)).ciph = t.ciph := (noteRead_led _ _ (.refl { trust := true, tally := true, ftl := true, corr := true, out := true } t) rfl).eq_ciph rfl
@[simp] theorem noteRead_skx {t : State} (a0 a1) : ((noteRead a0 a1 t)).skx = t.skx := (noteRead_led _ _ (.refl { trust := true, tally := true, ftl := true, corr := true, out := true } t) rfl).eq_skx rfl
@[simp] theorem noteRead_jobs {t : State} (a0 a1) : ((noteRead a0 a1 t)).jobs = t.jobs := (noteRead_led _ _ (.refl { trust := true, tally := true, ftl := true, corr := true, out := true } t) rfl).eq_jobs rfl
@[simp] theorem noteRead_hq {t : State} (a0 a1) : ((noteRead a0 a1 t)).hq = t.hq := (noteRead_led _ _ (.refl { trust := true, tally := true, ftl := true, corr := true, out := true } t) rfl).eq_hq rfl
@[simp] theorem noteRead_repl {t : State} (a0 a1) : ((noteRead a0 a1 t)).repl = t.repl := (noteRead_led _ _ (.refl { trust := true, tally := true, ftl := true, corr := true, out := true } t) rfl).eq_repl rfl
@[simp] theorem noteRead_draws {t : State} (a0 a1) : ((noteRead a0 a1 t)).draws = t.draws := (noteRead_led _ _ (.refl { trust := true, tally := true, ftl := true, corr := true, out := true } t) rfl).eq_draws rfl
@[simp] theorem dropCtx_sys {t : State} (a0) : ((dropCtx a0 t)).sys = t.sys := (dropCtx_led _ (.refl { hq := true } t) rfl).eq_sys rfl
@[simp] theorem dropCtx_pwr {t : State} (a0) : ((dropCtx a0 t)).pwr = t.pwr := (dropCtx_led _ (.refl { hq := true } t) rfl).eq_pwr rfl
@[simp] theorem dropCtx_pins {t : State} (a0) : ((dropCtx a0 t)).pins = t.pins := (dropCtx_led _ (.refl { hq := true } t) rfl).eq_pins rfl
@[simp] theorem dropCtx_dram {t : State} (a0) : ((dropCtx a0 t)).dram = t.dram := (dropCtx_led _ (.refl { hq := true } t) rfl).eq_dram rfl
@[simp] theorem dropCtx_trust {t : State} (a0) : ((dropCtx a0 t)).trust = t.trust := (dropCtx_led _ (.refl { hq := true } t) rfl).eq_trust rfl
@[simp] theorem dropCtx_cpi {t : State} (a0) : ((dropCtx a0 t)).cpi = t.cpi := (dropCtx_led _ (.refl { hq := true } t) rfl).eq_cpi rfl
@[simp] theorem dropCtx_diary {t : State} (a0) : ((dropCtx a0 t)).diary = t.diary := (dropCtx_led _ (.refl { hq := true } t) rfl).eq_diary rfl
@[simp] theorem dropCtx_tally {t : State} (a0) : ((dropCtx a0 t)).tally = t.tally := (dropCtx_led _ (.refl { hq := true } t) rfl).eq_tally rfl
@[simp] theorem dropCtx_tt {t : State} (a0) : ((dropCtx a0 t)).tt = t.tt := (dropCtx_led _ (.refl { hq := true } t) rfl).eq_tt rfl
@[simp] theorem dropCtx_lanes {t : State} (a0) : ((dropCtx a0 t)).lanes = t.lanes := (dropCtx_led _ (.refl { hq := true } t) rfl).eq_lanes rfl
@[simp] theorem dropCtx_stg {t : State} (a0) : ((dropCtx a0 t)).stg = t.stg := (dropCtx_led _ (.refl { hq := true } t) rfl).eq_stg rfl
@[simp] theorem dropCtx_ddp {t : State} (a0) : ((dropCtx a0 t)).ddp = t.ddp := (dropCtx_led _ (.refl { hq := true } t) rfl).eq_ddp rfl
@[simp] theorem dropCtx_ftl {t : State} (a0) : ((dropCtx a0 t)).ftl = t.ftl := (dropCtx_led _ (.refl { hq := true } t) rfl).eq_ftl rfl
@[simp] theorem dropCtx_ec {t : State} (a0) : ((dropCtx a0 t)).ec = t.ec := (dropCtx_led _ (.refl { hq := true } t) rfl).eq_ec rfl
@[simp] theorem dropCtx_bay {t : State} (a0) : ((dropCtx a0 t)).bay = t.bay := (dropCtx_led _ (.refl { hq := true } t) rfl).eq_bay rfl
@[simp] theorem dropCtx_pool {t : State} (a0) : ((dropCtx a0 t)).pool = t.pool := (dropCtx_led _ (.refl { hq := true } t) rfl).eq_pool rfl
@[simp] theorem dropCtx_saved {t : State} (a0) : ((dropCtx a0 t)).saved = t.saved := (dropCtx_led _ (.refl { hq := true } t) rfl).eq_saved rfl
@[simp] theorem dropCtx_ciph {t : State} (a0) : ((dropCtx a0 t)).ciph = t.ciph := (dropCtx_led _ (.refl { hq := true } t) rfl).eq_ciph rfl
@[simp] theorem dropCtx_skx {t : State} (a0) : ((dropCtx a0 t)).skx = t.skx := (dropCtx_led _ (.refl { hq := true } t) rfl).eq_skx rfl
@[simp] theorem dropCtx_jobs {t : State} (a0) : ((dropCtx a0 t)).jobs = t.jobs := (dropCtx_led _ (.refl { hq := true } t) rfl).eq_jobs rfl
@[simp] theorem dropCtx_repl {t : State} (a0) : ((dropCtx a0 t)).repl = t.repl := (dropCtx_led _ (.refl { hq := true } t) rfl).eq_repl rfl
@[simp] theorem dropCtx_corr {t : State} (a0) : ((dropCtx a0 t)).corr = t.corr := (dropCtx_led _ (.refl { hq := true } t) rfl).eq_corr rfl
@[simp] theorem dropCtx_out {t : State} (a0) : ((dropCtx a0 t)).out = t.out := (dropCtx_led _ (.refl { hq := true } t) rfl).eq_out rfl
@[simp] theorem dropCtx_draws {t : State} (a0) : ((dropCtx a0 t)).draws = t.draws := (dropCtx_led _ (.refl { hq := true } t) rfl).eq_draws rfl
@[simp] theorem unpin_sys {t : State} : ((unpin t)).sys = t.sys := (unpin_led  (.refl { stg := true } t) rfl).eq_sys rfl
@[simp] theorem unpin_pwr {t : State} : ((unpin t)).pwr = t.pwr := (unpin_led  (.refl { stg := true } t) rfl).eq_pwr rfl
@[simp] theorem unpin_pins {t : State} : ((unpin t)).pins = t.pins := (unpin_led  (.refl { stg := true } t) rfl).eq_pins rfl
@[simp] theorem unpin_dram {t : State} : ((unpin t)).dram = t.dram := (unpin_led  (.refl { stg := true } t) rfl).eq_dram rfl
@[simp] theorem unpin_trust {t : State} : ((unpin t)).trust = t.trust := (unpin_led  (.refl { stg := true } t) rfl).eq_trust rfl
@[simp] theorem unpin_cpi {t : State} : ((unpin t)).cpi = t.cpi := (unpin_led  (.refl { stg := true } t) rfl).eq_cpi rfl
@[simp] theorem unpin_diary {t : State} : ((unpin t)).diary = t.diary := (unpin_led  (.refl { stg := true } t) rfl).eq_diary rfl
@[simp] theorem unpin_tally {t : State} : ((unpin t)).tally = t.tally := (unpin_led  (.refl { stg := true } t) rfl).eq_tally rfl
@[simp] theorem unpin_tt {t : State} : ((unpin t)).tt = t.tt := (unpin_led  (.refl { stg := true } t) rfl).eq_tt rfl
@[simp] theorem unpin_lanes {t : State} : ((unpin t)).lanes = t.lanes := (unpin_led  (.refl { stg := true } t) rfl).eq_lanes rfl
@[simp] theorem unpin_ddp {t : State} : ((unpin t)).ddp = t.ddp := (unpin_led  (.refl { stg := true } t) rfl).eq_ddp rfl
@[simp] theorem unpin_ftl {t : State} : ((unpin t)).ftl = t.ftl := (unpin_led  (.refl { stg := true } t) rfl).eq_ftl rfl
@[simp] theorem unpin_ec {t : State} : ((unpin t)).ec = t.ec := (unpin_led  (.refl { stg := true } t) rfl).eq_ec rfl
@[simp] theorem unpin_bay {t : State} : ((unpin t)).bay = t.bay := (unpin_led  (.refl { stg := true } t) rfl).eq_bay rfl
@[simp] theorem unpin_pool {t : State} : ((unpin t)).pool = t.pool := (unpin_led  (.refl { stg := true } t) rfl).eq_pool rfl
@[simp] theorem unpin_saved {t : State} : ((unpin t)).saved = t.saved := (unpin_led  (.refl { stg := true } t) rfl).eq_saved rfl
@[simp] theorem unpin_ciph {t : State} : ((unpin t)).ciph = t.ciph := (unpin_led  (.refl { stg := true } t) rfl).eq_ciph rfl
@[simp] theorem unpin_skx {t : State} : ((unpin t)).skx = t.skx := (unpin_led  (.refl { stg := true } t) rfl).eq_skx rfl
@[simp] theorem unpin_jobs {t : State} : ((unpin t)).jobs = t.jobs := (unpin_led  (.refl { stg := true } t) rfl).eq_jobs rfl
@[simp] theorem unpin_hq {t : State} : ((unpin t)).hq = t.hq := (unpin_led  (.refl { stg := true } t) rfl).eq_hq rfl
@[simp] theorem unpin_repl {t : State} : ((unpin t)).repl = t.repl := (unpin_led  (.refl { stg := true } t) rfl).eq_repl rfl
@[simp] theorem unpin_corr {t : State} : ((unpin t)).corr = t.corr := (unpin_led  (.refl { stg := true } t) rfl).eq_corr rfl
@[simp] theorem unpin_out {t : State} : ((unpin t)).out = t.out := (unpin_led  (.refl { stg := true } t) rfl).eq_out rfl
@[simp] theorem unpin_draws {t : State} : ((unpin t)).draws = t.draws := (unpin_led  (.refl { stg := true } t) rfl).eq_draws rfl
@[simp] theorem logError_sys {t : State} (a0 a1 a2 a3 a4 a5) : ((logError a0 a1 a2 a3 a4 a5 t)).sys = t.sys := (logError_led _ _ _ _ _ _ (.refl { hq := true } t) rfl).eq_sys rfl
@[simp] theorem logError_pwr {t : State} (a0 a1 a2 a3 a4 a5) : ((logError a0 a1 a2 a3 a4 a5 t)).pwr = t.pwr := (logError_led _ _ _ _ _ _ (.refl { hq := true } t) rfl).eq_pwr rfl
@[simp] theorem logError_pins {t : State} (a0 a1 a2 a3 a4 a5) : ((logError a0 a1 a2 a3 a4 a5 t)).pins = t.pins := (logError_led _ _ _ _ _ _ (.refl { hq := true } t) rfl).eq_pins rfl
@[simp] theorem logError_dram {t : State} (a0 a1 a2 a3 a4 a5) : ((logError a0 a1 a2 a3 a4 a5 t)).dram = t.dram := (logError_led _ _ _ _ _ _ (.refl { hq := true } t) rfl).eq_dram rfl
@[simp] theorem logError_trust {t : State} (a0 a1 a2 a3 a4 a5) : ((logError a0 a1 a2 a3 a4 a5 t)).trust = t.trust := (logError_led _ _ _ _ _ _ (.refl { hq := true } t) rfl).eq_trust rfl
@[simp] theorem logError_cpi {t : State} (a0 a1 a2 a3 a4 a5) : ((logError a0 a1 a2 a3 a4 a5 t)).cpi = t.cpi := (logError_led _ _ _ _ _ _ (.refl { hq := true } t) rfl).eq_cpi rfl
@[simp] theorem logError_diary {t : State} (a0 a1 a2 a3 a4 a5) : ((logError a0 a1 a2 a3 a4 a5 t)).diary = t.diary := (logError_led _ _ _ _ _ _ (.refl { hq := true } t) rfl).eq_diary rfl
@[simp] theorem logError_tally {t : State} (a0 a1 a2 a3 a4 a5) : ((logError a0 a1 a2 a3 a4 a5 t)).tally = t.tally := (logError_led _ _ _ _ _ _ (.refl { hq := true } t) rfl).eq_tally rfl
@[simp] theorem logError_tt {t : State} (a0 a1 a2 a3 a4 a5) : ((logError a0 a1 a2 a3 a4 a5 t)).tt = t.tt := (logError_led _ _ _ _ _ _ (.refl { hq := true } t) rfl).eq_tt rfl
@[simp] theorem logError_lanes {t : State} (a0 a1 a2 a3 a4 a5) : ((logError a0 a1 a2 a3 a4 a5 t)).lanes = t.lanes := (logError_led _ _ _ _ _ _ (.refl { hq := true } t) rfl).eq_lanes rfl
@[simp] theorem logError_stg {t : State} (a0 a1 a2 a3 a4 a5) : ((logError a0 a1 a2 a3 a4 a5 t)).stg = t.stg := (logError_led _ _ _ _ _ _ (.refl { hq := true } t) rfl).eq_stg rfl
@[simp] theorem logError_ddp {t : State} (a0 a1 a2 a3 a4 a5) : ((logError a0 a1 a2 a3 a4 a5 t)).ddp = t.ddp := (logError_led _ _ _ _ _ _ (.refl { hq := true } t) rfl).eq_ddp rfl
@[simp] theorem logError_ftl {t : State} (a0 a1 a2 a3 a4 a5) : ((logError a0 a1 a2 a3 a4 a5 t)).ftl = t.ftl := (logError_led _ _ _ _ _ _ (.refl { hq := true } t) rfl).eq_ftl rfl
@[simp] theorem logError_ec {t : State} (a0 a1 a2 a3 a4 a5) : ((logError a0 a1 a2 a3 a4 a5 t)).ec = t.ec := (logError_led _ _ _ _ _ _ (.refl { hq := true } t) rfl).eq_ec rfl
@[simp] theorem logError_bay {t : State} (a0 a1 a2 a3 a4 a5) : ((logError a0 a1 a2 a3 a4 a5 t)).bay = t.bay := (logError_led _ _ _ _ _ _ (.refl { hq := true } t) rfl).eq_bay rfl
@[simp] theorem logError_pool {t : State} (a0 a1 a2 a3 a4 a5) : ((logError a0 a1 a2 a3 a4 a5 t)).pool = t.pool := (logError_led _ _ _ _ _ _ (.refl { hq := true } t) rfl).eq_pool rfl
@[simp] theorem logError_saved {t : State} (a0 a1 a2 a3 a4 a5) : ((logError a0 a1 a2 a3 a4 a5 t)).saved = t.saved := (logError_led _ _ _ _ _ _ (.refl { hq := true } t) rfl).eq_saved rfl
@[simp] theorem logError_ciph {t : State} (a0 a1 a2 a3 a4 a5) : ((logError a0 a1 a2 a3 a4 a5 t)).ciph = t.ciph := (logError_led _ _ _ _ _ _ (.refl { hq := true } t) rfl).eq_ciph rfl
@[simp] theorem logError_skx {t : State} (a0 a1 a2 a3 a4 a5) : ((logError a0 a1 a2 a3 a4 a5 t)).skx = t.skx := (logError_led _ _ _ _ _ _ (.refl { hq := true } t) rfl).eq_skx rfl
@[simp] theorem logError_jobs {t : State} (a0 a1 a2 a3 a4 a5) : ((logError a0 a1 a2 a3 a4 a5 t)).jobs = t.jobs := (logError_led _ _ _ _ _ _ (.refl { hq := true } t) rfl).eq_jobs rfl
@[simp] theorem logError_repl {t : State} (a0 a1 a2 a3 a4 a5) : ((logError a0 a1 a2 a3 a4 a5 t)).repl = t.repl := (logError_led _ _ _ _ _ _ (.refl { hq := true } t) rfl).eq_repl rfl
@[simp] theorem logError_corr {t : State} (a0 a1 a2 a3 a4 a5) : ((logError a0 a1 a2 a3 a4 a5 t)).corr = t.corr := (logError_led _ _ _ _ _ _ (.refl { hq := true } t) rfl).eq_corr rfl
@[simp] theorem logError_out {t : State} (a0 a1 a2 a3 a4 a5) : ((logError a0 a1 a2 a3 a4 a5 t)).out = t.out := (logError_led _ _ _ _ _ _ (.refl { hq := true } t) rfl).eq_out rfl
@[simp] theorem logError_draws {t : State} (a0 a1 a2 a3 a4 a5) : ((logError a0 a1 a2 a3 a4 a5 t)).draws = t.draws := (logError_led _ _ _ _ _ _ (.refl { hq := true } t) rfl).eq_draws rfl
@[simp] theorem linkAt_sys {t : State} (a0 a1 a2) : ((linkAt a0 a1 a2 t)).sys = t.sys := (linkAt_led _ _ _ (.refl { diary := true, tally := true, bay := true } t) rfl).eq_sys rfl
@[simp] theorem linkAt_pwr {t : State} (a0 a1 a2) : ((linkAt a0 a1 a2 t)).pwr = t.pwr := (linkAt_led _ _ _ (.refl { diary := true, tally := true, bay := true } t) rfl).eq_pwr rfl
@[simp] theorem linkAt_pins {t : State} (a0 a1 a2) : ((linkAt a0 a1 a2 t)).pins = t.pins := (linkAt_led _ _ _ (.refl { diary := true, tally := true, bay := true } t) rfl).eq_pins rfl
@[simp] theorem linkAt_dram {t : State} (a0 a1 a2) : ((linkAt a0 a1 a2 t)).dram = t.dram := (linkAt_led _ _ _ (.refl { diary := true, tally := true, bay := true } t) rfl).eq_dram rfl
@[simp] theorem linkAt_trust {t : State} (a0 a1 a2) : ((linkAt a0 a1 a2 t)).trust = t.trust := (linkAt_led _ _ _ (.refl { diary := true, tally := true, bay := true } t) rfl).eq_trust rfl
@[simp] theorem linkAt_cpi {t : State} (a0 a1 a2) : ((linkAt a0 a1 a2 t)).cpi = t.cpi := (linkAt_led _ _ _ (.refl { diary := true, tally := true, bay := true } t) rfl).eq_cpi rfl
@[simp] theorem linkAt_tt {t : State} (a0 a1 a2) : ((linkAt a0 a1 a2 t)).tt = t.tt := (linkAt_led _ _ _ (.refl { diary := true, tally := true, bay := true } t) rfl).eq_tt rfl
@[simp] theorem linkAt_lanes {t : State} (a0 a1 a2) : ((linkAt a0 a1 a2 t)).lanes = t.lanes := (linkAt_led _ _ _ (.refl { diary := true, tally := true, bay := true } t) rfl).eq_lanes rfl
@[simp] theorem linkAt_stg {t : State} (a0 a1 a2) : ((linkAt a0 a1 a2 t)).stg = t.stg := (linkAt_led _ _ _ (.refl { diary := true, tally := true, bay := true } t) rfl).eq_stg rfl
@[simp] theorem linkAt_ddp {t : State} (a0 a1 a2) : ((linkAt a0 a1 a2 t)).ddp = t.ddp := (linkAt_led _ _ _ (.refl { diary := true, tally := true, bay := true } t) rfl).eq_ddp rfl
@[simp] theorem linkAt_ftl {t : State} (a0 a1 a2) : ((linkAt a0 a1 a2 t)).ftl = t.ftl := (linkAt_led _ _ _ (.refl { diary := true, tally := true, bay := true } t) rfl).eq_ftl rfl
@[simp] theorem linkAt_ec {t : State} (a0 a1 a2) : ((linkAt a0 a1 a2 t)).ec = t.ec := (linkAt_led _ _ _ (.refl { diary := true, tally := true, bay := true } t) rfl).eq_ec rfl
@[simp] theorem linkAt_pool {t : State} (a0 a1 a2) : ((linkAt a0 a1 a2 t)).pool = t.pool := (linkAt_led _ _ _ (.refl { diary := true, tally := true, bay := true } t) rfl).eq_pool rfl
@[simp] theorem linkAt_saved {t : State} (a0 a1 a2) : ((linkAt a0 a1 a2 t)).saved = t.saved := (linkAt_led _ _ _ (.refl { diary := true, tally := true, bay := true } t) rfl).eq_saved rfl
@[simp] theorem linkAt_ciph {t : State} (a0 a1 a2) : ((linkAt a0 a1 a2 t)).ciph = t.ciph := (linkAt_led _ _ _ (.refl { diary := true, tally := true, bay := true } t) rfl).eq_ciph rfl
@[simp] theorem linkAt_skx {t : State} (a0 a1 a2) : ((linkAt a0 a1 a2 t)).skx = t.skx := (linkAt_led _ _ _ (.refl { diary := true, tally := true, bay := true } t) rfl).eq_skx rfl
@[simp] theorem linkAt_jobs {t : State} (a0 a1 a2) : ((linkAt a0 a1 a2 t)).jobs = t.jobs := (linkAt_led _ _ _ (.refl { diary := true, tally := true, bay := true } t) rfl).eq_jobs rfl
@[simp] theorem linkAt_hq {t : State} (a0 a1 a2) : ((linkAt a0 a1 a2 t)).hq = t.hq := (linkAt_led _ _ _ (.refl { diary := true, tally := true, bay := true } t) rfl).eq_hq rfl
@[simp] theorem linkAt_repl {t : State} (a0 a1 a2) : ((linkAt a0 a1 a2 t)).repl = t.repl := (linkAt_led _ _ _ (.refl { diary := true, tally := true, bay := true } t) rfl).eq_repl rfl
@[simp] theorem linkAt_corr {t : State} (a0 a1 a2) : ((linkAt a0 a1 a2 t)).corr = t.corr := (linkAt_led _ _ _ (.refl { diary := true, tally := true, bay := true } t) rfl).eq_corr rfl
@[simp] theorem linkAt_out {t : State} (a0 a1 a2) : ((linkAt a0 a1 a2 t)).out = t.out := (linkAt_led _ _ _ (.refl { diary := true, tally := true, bay := true } t) rfl).eq_out rfl
@[simp] theorem linkAt_draws {t : State} (a0 a1 a2) : ((linkAt a0 a1 a2 t)).draws = t.draws := (linkAt_led _ _ _ (.refl { diary := true, tally := true, bay := true } t) rfl).eq_draws rfl
@[simp] theorem fenceForms_sys {t : State} (a0) : ((fenceForms a0 t)).sys = t.sys := (fenceForms_led _ (.refl { bay := true } t) rfl).eq_sys rfl
@[simp] theorem fenceForms_pwr {t : State} (a0) : ((fenceForms a0 t)).pwr = t.pwr := (fenceForms_led _ (.refl { bay := true } t) rfl).eq_pwr rfl
@[simp] theorem fenceForms_pins {t : State} (a0) : ((fenceForms a0 t)).pins = t.pins := (fenceForms_led _ (.refl { bay := true } t) rfl).eq_pins rfl
@[simp] theorem fenceForms_dram {t : State} (a0) : ((fenceForms a0 t)).dram = t.dram := (fenceForms_led _ (.refl { bay := true } t) rfl).eq_dram rfl
@[simp] theorem fenceForms_trust {t : State} (a0) : ((fenceForms a0 t)).trust = t.trust := (fenceForms_led _ (.refl { bay := true } t) rfl).eq_trust rfl
@[simp] theorem fenceForms_cpi {t : State} (a0) : ((fenceForms a0 t)).cpi = t.cpi := (fenceForms_led _ (.refl { bay := true } t) rfl).eq_cpi rfl
@[simp] theorem fenceForms_diary {t : State} (a0) : ((fenceForms a0 t)).diary = t.diary := (fenceForms_led _ (.refl { bay := true } t) rfl).eq_diary rfl
@[simp] theorem fenceForms_tally {t : State} (a0) : ((fenceForms a0 t)).tally = t.tally := (fenceForms_led _ (.refl { bay := true } t) rfl).eq_tally rfl
@[simp] theorem fenceForms_tt {t : State} (a0) : ((fenceForms a0 t)).tt = t.tt := (fenceForms_led _ (.refl { bay := true } t) rfl).eq_tt rfl
@[simp] theorem fenceForms_lanes {t : State} (a0) : ((fenceForms a0 t)).lanes = t.lanes := (fenceForms_led _ (.refl { bay := true } t) rfl).eq_lanes rfl
@[simp] theorem fenceForms_stg {t : State} (a0) : ((fenceForms a0 t)).stg = t.stg := (fenceForms_led _ (.refl { bay := true } t) rfl).eq_stg rfl
@[simp] theorem fenceForms_ddp {t : State} (a0) : ((fenceForms a0 t)).ddp = t.ddp := (fenceForms_led _ (.refl { bay := true } t) rfl).eq_ddp rfl
@[simp] theorem fenceForms_ftl {t : State} (a0) : ((fenceForms a0 t)).ftl = t.ftl := (fenceForms_led _ (.refl { bay := true } t) rfl).eq_ftl rfl
@[simp] theorem fenceForms_ec {t : State} (a0) : ((fenceForms a0 t)).ec = t.ec := (fenceForms_led _ (.refl { bay := true } t) rfl).eq_ec rfl
@[simp] theorem fenceForms_pool {t : State} (a0) : ((fenceForms a0 t)).pool = t.pool := (fenceForms_led _ (.refl { bay := true } t) rfl).eq_pool rfl
@[simp] theorem fenceForms_saved {t : State} (a0) : ((fenceForms a0 t)).saved = t.saved := (fenceForms_led _ (.refl { bay := true } t) rfl).eq_saved rfl
@[simp] theorem fenceForms_ciph {t : State} (a0) : ((fenceForms a0 t)).ciph = t.ciph := (fenceForms_led _ (.refl { bay := true } t) rfl).eq_ciph rfl
@[simp] theorem fenceForms_skx {t : State} (a0) : ((fenceForms a0 t)).skx = t.skx := (fenceForms_led _ (.refl { bay := true } t) rfl).eq_skx rfl
@[simp] theorem fenceForms_jobs {t : State} (a0) : ((fenceForms a0 t)).jobs = t.jobs := (fenceForms_led _ (.refl { bay := true } t) rfl).eq_jobs rfl
@[simp] theorem fenceForms_hq {t : State} (a0) : ((fenceForms a0 t)).hq = t.hq := (fenceForms_led _ (.refl { bay := true } t) rfl).eq_hq rfl
@[simp] theorem fenceForms_repl {t : State} (a0) : ((fenceForms a0 t)).repl = t.repl := (fenceForms_led _ (.refl { bay := true } t) rfl).eq_repl rfl
@[simp] theorem fenceForms_corr {t : State} (a0) : ((fenceForms a0 t)).corr = t.corr := (fenceForms_led _ (.refl { bay := true } t) rfl).eq_corr rfl
@[simp] theorem fenceForms_out {t : State} (a0) : ((fenceForms a0 t)).out = t.out := (fenceForms_led _ (.refl { bay := true } t) rfl).eq_out rfl
@[simp] theorem fenceForms_draws {t : State} (a0) : ((fenceForms a0 t)).draws = t.draws := (fenceForms_led _ (.refl { bay := true } t) rfl).eq_draws rfl
@[simp] theorem refuse_sys {t : State} (a0 a1 a2) : ((refuse a0 a1 a2 t)).sys = t.sys := (refuse_led _ _ _ (.refl { trust := true, cpi := true, tally := true, corr := true, out := true } t) rfl).eq_sys rfl
@[simp] theorem refuse_pwr {t : State} (a0 a1 a2) : ((refuse a0 a1 a2 t)).pwr = t.pwr := (refuse_led _ _ _ (.refl { trust := true, cpi := true, tally := true, corr := true, out := true } t) rfl).eq_pwr rfl
@[simp] theorem refuse_pins {t : State} (a0 a1 a2) : ((refuse a0 a1 a2 t)).pins = t.pins := (refuse_led _ _ _ (.refl { trust := true, cpi := true, tally := true, corr := true, out := true } t) rfl).eq_pins rfl
@[simp] theorem refuse_dram {t : State} (a0 a1 a2) : ((refuse a0 a1 a2 t)).dram = t.dram := (refuse_led _ _ _ (.refl { trust := true, cpi := true, tally := true, corr := true, out := true } t) rfl).eq_dram rfl
@[simp] theorem refuse_diary {t : State} (a0 a1 a2) : ((refuse a0 a1 a2 t)).diary = t.diary := (refuse_led _ _ _ (.refl { trust := true, cpi := true, tally := true, corr := true, out := true } t) rfl).eq_diary rfl
@[simp] theorem refuse_tt {t : State} (a0 a1 a2) : ((refuse a0 a1 a2 t)).tt = t.tt := (refuse_led _ _ _ (.refl { trust := true, cpi := true, tally := true, corr := true, out := true } t) rfl).eq_tt rfl
@[simp] theorem refuse_lanes {t : State} (a0 a1 a2) : ((refuse a0 a1 a2 t)).lanes = t.lanes := (refuse_led _ _ _ (.refl { trust := true, cpi := true, tally := true, corr := true, out := true } t) rfl).eq_lanes rfl
@[simp] theorem refuse_stg {t : State} (a0 a1 a2) : ((refuse a0 a1 a2 t)).stg = t.stg := (refuse_led _ _ _ (.refl { trust := true, cpi := true, tally := true, corr := true, out := true } t) rfl).eq_stg rfl
@[simp] theorem refuse_ddp {t : State} (a0 a1 a2) : ((refuse a0 a1 a2 t)).ddp = t.ddp := (refuse_led _ _ _ (.refl { trust := true, cpi := true, tally := true, corr := true, out := true } t) rfl).eq_ddp rfl
@[simp] theorem refuse_ftl {t : State} (a0 a1 a2) : ((refuse a0 a1 a2 t)).ftl = t.ftl := (refuse_led _ _ _ (.refl { trust := true, cpi := true, tally := true, corr := true, out := true } t) rfl).eq_ftl rfl
@[simp] theorem refuse_ec {t : State} (a0 a1 a2) : ((refuse a0 a1 a2 t)).ec = t.ec := (refuse_led _ _ _ (.refl { trust := true, cpi := true, tally := true, corr := true, out := true } t) rfl).eq_ec rfl
@[simp] theorem refuse_bay {t : State} (a0 a1 a2) : ((refuse a0 a1 a2 t)).bay = t.bay := (refuse_led _ _ _ (.refl { trust := true, cpi := true, tally := true, corr := true, out := true } t) rfl).eq_bay rfl
@[simp] theorem refuse_pool {t : State} (a0 a1 a2) : ((refuse a0 a1 a2 t)).pool = t.pool := (refuse_led _ _ _ (.refl { trust := true, cpi := true, tally := true, corr := true, out := true } t) rfl).eq_pool rfl
@[simp] theorem refuse_saved {t : State} (a0 a1 a2) : ((refuse a0 a1 a2 t)).saved = t.saved := (refuse_led _ _ _ (.refl { trust := true, cpi := true, tally := true, corr := true, out := true } t) rfl).eq_saved rfl
@[simp] theorem refuse_ciph {t : State} (a0 a1 a2) : ((refuse a0 a1 a2 t)).ciph = t.ciph := (refuse_led _ _ _ (.refl { trust := true, cpi := true, tally := true, corr := true, out := true } t) rfl).eq_ciph rfl
@[simp] theorem refuse_skx {t : State} (a0 a1 a2) : ((refuse a0 a1 a2 t)).skx = t.skx := (refuse_led _ _ _ (.refl { trust := true, cpi := true, tally := true, corr := true, out := true } t) rfl).eq_skx rfl
@[simp] theorem refuse_jobs {t : State} (a0 a1 a2) : ((refuse a0 a1 a2 t)).jobs = t.jobs := (refuse_led _ _ _ (.refl { trust := true, cpi := true, tally := true, corr := true, out := true } t) rfl).eq_jobs rfl
@[simp] theorem refuse_hq {t : State} (a0 a1 a2) : ((refuse a0 a1 a2 t)).hq = t.hq := (refuse_led _ _ _ (.refl { trust := true, cpi := true, tally := true, corr := true, out := true } t) rfl).eq_hq rfl
@[simp] theorem refuse_repl {t : State} (a0 a1 a2) : ((refuse a0 a1 a2 t)).repl = t.repl := (refuse_led _ _ _ (.refl { trust := true, cpi := true, tally := true, corr := true, out := true } t) rfl).eq_repl rfl
@[simp] theorem refuse_draws {t : State} (a0 a1 a2) : ((refuse a0 a1 a2 t)).draws = t.draws := (refuse_led _ _ _ (.refl { trust := true, cpi := true, tally := true, corr := true, out := true } t) rfl).eq_draws rfl
@[simp] theorem changed_sys {t : State} (a0 a1) : ((changed a0 a1 t)).sys = t.sys := (changed_led _ _ (.refl { trust := true, cpi := true, diary := true, tally := true, corr := true, out := true } t) rfl).eq_sys rfl
@[simp] theorem changed_pwr {t : State} (a0 a1) : ((changed a0 a1 t)).pwr = t.pwr := (changed_led _ _ (.refl { trust := true, cpi := true, diary := true, tally := true, corr := true, out := true } t) rfl).eq_pwr rfl
@[simp] theorem changed_pins {t : State} (a0 a1) : ((changed a0 a1 t)).pins = t.pins := (changed_led _ _ (.refl { trust := true, cpi := true, diary := true, tally := true, corr := true, out := true } t) rfl).eq_pins rfl
@[simp] theorem changed_dram {t : State} (a0 a1) : ((changed a0 a1 t)).dram = t.dram := (changed_led _ _ (.refl { trust := true, cpi := true, diary := true, tally := true, corr := true, out := true } t) rfl).eq_dram rfl
@[simp] theorem changed_tt {t : State} (a0 a1) : ((changed a0 a1 t)).tt = t.tt := (changed_led _ _ (.refl { trust := true, cpi := true, diary := true, tally := true, corr := true, out := true } t) rfl).eq_tt rfl
@[simp] theorem changed_lanes {t : State} (a0 a1) : ((changed a0 a1 t)).lanes = t.lanes := (changed_led _ _ (.refl { trust := true, cpi := true, diary := true, tally := true, corr := true, out := true } t) rfl).eq_lanes rfl
@[simp] theorem changed_stg {t : State} (a0 a1) : ((changed a0 a1 t)).stg = t.stg := (changed_led _ _ (.refl { trust := true, cpi := true, diary := true, tally := true, corr := true, out := true } t) rfl).eq_stg rfl
@[simp] theorem changed_ddp {t : State} (a0 a1) : ((changed a0 a1 t)).ddp = t.ddp := (changed_led _ _ (.refl { trust := true, cpi := true, diary := true, tally := true, corr := true, out := true } t) rfl).eq_ddp rfl
@[simp] theorem changed_ftl {t : State} (a0 a1) : ((changed a0 a1 t)).ftl = t.ftl := (changed_led _ _ (.refl { trust := true, cpi := true, diary := true, tally := true, corr := true, out := true } t) rfl).eq_ftl rfl
@[simp] theorem changed_ec {t : State} (a0 a1) : ((changed a0 a1 t)).ec = t.ec := (changed_led _ _ (.refl { trust := true, cpi := true, diary := true, tally := true, corr := true, out := true } t) rfl).eq_ec rfl
@[simp] theorem changed_bay {t : State} (a0 a1) : ((changed a0 a1 t)).bay = t.bay := (changed_led _ _ (.refl { trust := true, cpi := true, diary := true, tally := true, corr := true, out := true } t) rfl).eq_bay rfl
@[simp] theorem changed_pool {t : State} (a0 a1) : ((changed a0 a1 t)).pool = t.pool := (changed_led _ _ (.refl { trust := true, cpi := true, diary := true, tally := true, corr := true, out := true } t) rfl).eq_pool rfl
@[simp] theorem changed_saved {t : State} (a0 a1) : ((changed a0 a1 t)).saved = t.saved := (changed_led _ _ (.refl { trust := true, cpi := true, diary := true, tally := true, corr := true, out := true } t) rfl).eq_saved rfl
@[simp] theorem changed_ciph {t : State} (a0 a1) : ((changed a0 a1 t)).ciph = t.ciph := (changed_led _ _ (.refl { trust := true, cpi := true, diary := true, tally := true, corr := true, out := true } t) rfl).eq_ciph rfl
@[simp] theorem changed_skx {t : State} (a0 a1) : ((changed a0 a1 t)).skx = t.skx := (changed_led _ _ (.refl { trust := true, cpi := true, diary := true, tally := true, corr := true, out := true } t) rfl).eq_skx rfl
@[simp] theorem changed_jobs {t : State} (a0 a1) : ((changed a0 a1 t)).jobs = t.jobs := (changed_led _ _ (.refl { trust := true, cpi := true, diary := true, tally := true, corr := true, out := true } t) rfl).eq_jobs rfl
@[simp] theorem changed_hq {t : State} (a0 a1) : ((changed a0 a1 t)).hq = t.hq := (changed_led _ _ (.refl { trust := true, cpi := true, diary := true, tally := true, corr := true, out := true } t) rfl).eq_hq rfl
@[simp] theorem changed_repl {t : State} (a0 a1) : ((changed a0 a1 t)).repl = t.repl := (changed_led _ _ (.refl { trust := true, cpi := true, diary := true, tally := true, corr := true, out := true } t) rfl).eq_repl rfl
@[simp] theorem changed_draws {t : State} (a0 a1) : ((changed a0 a1 t)).draws = t.draws := (changed_led _ _ (.refl { trust := true, cpi := true, diary := true, tally := true, corr := true, out := true } t) rfl).eq_draws rfl
@[simp] theorem runClock_sys {t : State} (a0) : ((runClock a0 t)).sys = t.sys := (runClock_led _ (.refl { trust := true } t) rfl).eq_sys rfl
@[simp] theorem runClock_pwr {t : State} (a0) : ((runClock a0 t)).pwr = t.pwr := (runClock_led _ (.refl { trust := true } t) rfl).eq_pwr rfl
@[simp] theorem runClock_pins {t : State} (a0) : ((runClock a0 t)).pins = t.pins := (runClock_led _ (.refl { trust := true } t) rfl).eq_pins rfl
@[simp] theorem runClock_dram {t : State} (a0) : ((runClock a0 t)).dram = t.dram := (runClock_led _ (.refl { trust := true } t) rfl).eq_dram rfl
@[simp] theorem runClock_cpi {t : State} (a0) : ((runClock a0 t)).cpi = t.cpi := (runClock_led _ (.refl { trust := true } t) rfl).eq_cpi rfl
@[simp] theorem runClock_diary {t : State} (a0) : ((runClock a0 t)).diary = t.diary := (runClock_led _ (.refl { trust := true } t) rfl).eq_diary rfl
@[simp] theorem runClock_tally {t : State} (a0) : ((runClock a0 t)).tally = t.tally := (runClock_led _ (.refl { trust := true } t) rfl).eq_tally rfl
@[simp] theorem runClock_tt {t : State} (a0) : ((runClock a0 t)).tt = t.tt := (runClock_led _ (.refl { trust := true } t) rfl).eq_tt rfl
@[simp] theorem runClock_lanes {t : State} (a0) : ((runClock a0 t)).lanes = t.lanes := (runClock_led _ (.refl { trust := true } t) rfl).eq_lanes rfl
@[simp] theorem runClock_stg {t : State} (a0) : ((runClock a0 t)).stg = t.stg := (runClock_led _ (.refl { trust := true } t) rfl).eq_stg rfl
@[simp] theorem runClock_ddp {t : State} (a0) : ((runClock a0 t)).ddp = t.ddp := (runClock_led _ (.refl { trust := true } t) rfl).eq_ddp rfl
@[simp] theorem runClock_ftl {t : State} (a0) : ((runClock a0 t)).ftl = t.ftl := (runClock_led _ (.refl { trust := true } t) rfl).eq_ftl rfl
@[simp] theorem runClock_ec {t : State} (a0) : ((runClock a0 t)).ec = t.ec := (runClock_led _ (.refl { trust := true } t) rfl).eq_ec rfl
@[simp] theorem runClock_bay {t : State} (a0) : ((runClock a0 t)).bay = t.bay := (runClock_led _ (.refl { trust := true } t) rfl).eq_bay rfl
@[simp] theorem runClock_pool {t : State} (a0) : ((runClock a0 t)).pool = t.pool := (runClock_led _ (.refl { trust := true } t) rfl).eq_pool rfl
@[simp] theorem runClock_saved {t : State} (a0) : ((runClock a0 t)).saved = t.saved := (runClock_led _ (.refl { trust := true } t) rfl).eq_saved rfl
@[simp] theorem runClock_ciph {t : State} (a0) : ((runClock a0 t)).ciph = t.ciph := (runClock_led _ (.refl { trust := true } t) rfl).eq_ciph rfl
@[simp] theorem runClock_skx {t : State} (a0) : ((runClock a0 t)).skx = t.skx := (runClock_led _ (.refl { trust := true } t) rfl).eq_skx rfl
@[simp] theorem runClock_jobs {t : State} (a0) : ((runClock a0 t)).jobs = t.jobs := (runClock_led _ (.refl { trust := true } t) rfl).eq_jobs rfl
@[simp] theorem runClock_hq {t : State} (a0) : ((runClock a0 t)).hq = t.hq := (runClock_led _ (.refl { trust := true } t) rfl).eq_hq rfl
@[simp] theorem runClock_repl {t : State} (a0) : ((runClock a0 t)).repl = t.repl := (runClock_led _ (.refl { trust := true } t) rfl).eq_repl rfl
@[simp] theorem runClock_corr {t : State} (a0) : ((runClock a0 t)).corr = t.corr := (runClock_led _ (.refl { trust := true } t) rfl).eq_corr rfl
@[simp] theorem runClock_out {t : State} (a0) : ((runClock a0 t)).out = t.out := (runClock_led _ (.refl { trust := true } t) rfl).eq_out rfl
@[simp] theorem runClock_draws {t : State} (a0) : ((runClock a0 t)).draws = t.draws := (runClock_led _ (.refl { trust := true } t) rfl).eq_draws rfl
@[simp] theorem nextPeriod_sys {t : State} : ((nextPeriod t)).sys = t.sys := (nextPeriod_led  (.refl { tt := true } t) rfl).eq_sys rfl
@[simp] theorem nextPeriod_pwr {t : State} : ((nextPeriod t)).pwr = t.pwr := (nextPeriod_led  (.refl { tt := true } t) rfl).eq_pwr rfl
@[simp] theorem nextPeriod_pins {t : State} : ((nextPeriod t)).pins = t.pins := (nextPeriod_led  (.refl { tt := true } t) rfl).eq_pins rfl
@[simp] theorem nextPeriod_dram {t : State} : ((nextPeriod t)).dram = t.dram := (nextPeriod_led  (.refl { tt := true } t) rfl).eq_dram rfl
@[simp] theorem nextPeriod_trust {t : State} : ((nextPeriod t)).trust = t.trust := (nextPeriod_led  (.refl { tt := true } t) rfl).eq_trust rfl
@[simp] theorem nextPeriod_cpi {t : State} : ((nextPeriod t)).cpi = t.cpi := (nextPeriod_led  (.refl { tt := true } t) rfl).eq_cpi rfl
@[simp] theorem nextPeriod_diary {t : State} : ((nextPeriod t)).diary = t.diary := (nextPeriod_led  (.refl { tt := true } t) rfl).eq_diary rfl
@[simp] theorem nextPeriod_tally {t : State} : ((nextPeriod t)).tally = t.tally := (nextPeriod_led  (.refl { tt := true } t) rfl).eq_tally rfl
@[simp] theorem nextPeriod_lanes {t : State} : ((nextPeriod t)).lanes = t.lanes := (nextPeriod_led  (.refl { tt := true } t) rfl).eq_lanes rfl
@[simp] theorem nextPeriod_stg {t : State} : ((nextPeriod t)).stg = t.stg := (nextPeriod_led  (.refl { tt := true } t) rfl).eq_stg rfl
@[simp] theorem nextPeriod_ddp {t : State} : ((nextPeriod t)).ddp = t.ddp := (nextPeriod_led  (.refl { tt := true } t) rfl).eq_ddp rfl
@[simp] theorem nextPeriod_ftl {t : State} : ((nextPeriod t)).ftl = t.ftl := (nextPeriod_led  (.refl { tt := true } t) rfl).eq_ftl rfl
@[simp] theorem nextPeriod_ec {t : State} : ((nextPeriod t)).ec = t.ec := (nextPeriod_led  (.refl { tt := true } t) rfl).eq_ec rfl
@[simp] theorem nextPeriod_bay {t : State} : ((nextPeriod t)).bay = t.bay := (nextPeriod_led  (.refl { tt := true } t) rfl).eq_bay rfl
@[simp] theorem nextPeriod_pool {t : State} : ((nextPeriod t)).pool = t.pool := (nextPeriod_led  (.refl { tt := true } t) rfl).eq_pool rfl
@[simp] theorem nextPeriod_saved {t : State} : ((nextPeriod t)).saved = t.saved := (nextPeriod_led  (.refl { tt := true } t) rfl).eq_saved rfl
@[simp] theorem nextPeriod_ciph {t : State} : ((nextPeriod t)).ciph = t.ciph := (nextPeriod_led  (.refl { tt := true } t) rfl).eq_ciph rfl
@[simp] theorem nextPeriod_skx {t : State} : ((nextPeriod t)).skx = t.skx := (nextPeriod_led  (.refl { tt := true } t) rfl).eq_skx rfl
@[simp] theorem nextPeriod_jobs {t : State} : ((nextPeriod t)).jobs = t.jobs := (nextPeriod_led  (.refl { tt := true } t) rfl).eq_jobs rfl
@[simp] theorem nextPeriod_hq {t : State} : ((nextPeriod t)).hq = t.hq := (nextPeriod_led  (.refl { tt := true } t) rfl).eq_hq rfl
@[simp] theorem nextPeriod_repl {t : State} : ((nextPeriod t)).repl = t.repl := (nextPeriod_led  (.refl { tt := true } t) rfl).eq_repl rfl
@[simp] theorem nextPeriod_corr {t : State} : ((nextPeriod t)).corr = t.corr := (nextPeriod_led  (.refl { tt := true } t) rfl).eq_corr rfl
@[simp] theorem nextPeriod_out {t : State} : ((nextPeriod t)).out = t.out := (nextPeriod_led  (.refl { tt := true } t) rfl).eq_out rfl
@[simp] theorem nextPeriod_draws {t : State} : ((nextPeriod t)).draws = t.draws := (nextPeriod_led  (.refl { tt := true } t) rfl).eq_draws rfl
@[simp] theorem countPeriod_sys {t : State} : ((countPeriod t)).sys = t.sys := (countPeriod_led  (.refl { tally := true } t) rfl).eq_sys rfl
@[simp] theorem countPeriod_pwr {t : State} : ((countPeriod t)).pwr = t.pwr := (countPeriod_led  (.refl { tally := true } t) rfl).eq_pwr rfl
@[simp] theorem countPeriod_pins {t : State} : ((countPeriod t)).pins = t.pins := (countPeriod_led  (.refl { tally := true } t) rfl).eq_pins rfl
@[simp] theorem countPeriod_dram {t : State} : ((countPeriod t)).dram = t.dram := (countPeriod_led  (.refl { tally := true } t) rfl).eq_dram rfl
@[simp] theorem countPeriod_trust {t : State} : ((countPeriod t)).trust = t.trust := (countPeriod_led  (.refl { tally := true } t) rfl).eq_trust rfl
@[simp] theorem countPeriod_cpi {t : State} : ((countPeriod t)).cpi = t.cpi := (countPeriod_led  (.refl { tally := true } t) rfl).eq_cpi rfl
@[simp] theorem countPeriod_diary {t : State} : ((countPeriod t)).diary = t.diary := (countPeriod_led  (.refl { tally := true } t) rfl).eq_diary rfl
@[simp] theorem countPeriod_tt {t : State} : ((countPeriod t)).tt = t.tt := (countPeriod_led  (.refl { tally := true } t) rfl).eq_tt rfl
@[simp] theorem countPeriod_lanes {t : State} : ((countPeriod t)).lanes = t.lanes := (countPeriod_led  (.refl { tally := true } t) rfl).eq_lanes rfl
@[simp] theorem countPeriod_stg {t : State} : ((countPeriod t)).stg = t.stg := (countPeriod_led  (.refl { tally := true } t) rfl).eq_stg rfl
@[simp] theorem countPeriod_ddp {t : State} : ((countPeriod t)).ddp = t.ddp := (countPeriod_led  (.refl { tally := true } t) rfl).eq_ddp rfl
@[simp] theorem countPeriod_ftl {t : State} : ((countPeriod t)).ftl = t.ftl := (countPeriod_led  (.refl { tally := true } t) rfl).eq_ftl rfl
@[simp] theorem countPeriod_ec {t : State} : ((countPeriod t)).ec = t.ec := (countPeriod_led  (.refl { tally := true } t) rfl).eq_ec rfl
@[simp] theorem countPeriod_bay {t : State} : ((countPeriod t)).bay = t.bay := (countPeriod_led  (.refl { tally := true } t) rfl).eq_bay rfl
@[simp] theorem countPeriod_pool {t : State} : ((countPeriod t)).pool = t.pool := (countPeriod_led  (.refl { tally := true } t) rfl).eq_pool rfl
@[simp] theorem countPeriod_saved {t : State} : ((countPeriod t)).saved = t.saved := (countPeriod_led  (.refl { tally := true } t) rfl).eq_saved rfl
@[simp] theorem countPeriod_ciph {t : State} : ((countPeriod t)).ciph = t.ciph := (countPeriod_led  (.refl { tally := true } t) rfl).eq_ciph rfl
@[simp] theorem countPeriod_skx {t : State} : ((countPeriod t)).skx = t.skx := (countPeriod_led  (.refl { tally := true } t) rfl).eq_skx rfl
@[simp] theorem countPeriod_jobs {t : State} : ((countPeriod t)).jobs = t.jobs := (countPeriod_led  (.refl { tally := true } t) rfl).eq_jobs rfl
@[simp] theorem countPeriod_hq {t : State} : ((countPeriod t)).hq = t.hq := (countPeriod_led  (.refl { tally := true } t) rfl).eq_hq rfl
@[simp] theorem countPeriod_repl {t : State} : ((countPeriod t)).repl = t.repl := (countPeriod_led  (.refl { tally := true } t) rfl).eq_repl rfl
@[simp] theorem countPeriod_corr {t : State} : ((countPeriod t)).corr = t.corr := (countPeriod_led  (.refl { tally := true } t) rfl).eq_corr rfl
@[simp] theorem countPeriod_out {t : State} : ((countPeriod t)).out = t.out := (countPeriod_led  (.refl { tally := true } t) rfl).eq_out rfl
@[simp] theorem countPeriod_draws {t : State} : ((countPeriod t)).draws = t.draws := (countPeriod_led  (.refl { tally := true } t) rfl).eq_draws rfl
@[simp] theorem unseen_sys {t : State} : ((unseen t)).sys = t.sys := (unseen_led  (.refl { pwr := true, tally := true, bay := true, draws := true } t) rfl).eq_sys rfl
@[simp] theorem unseen_pins {t : State} : ((unseen t)).pins = t.pins := (unseen_led  (.refl { pwr := true, tally := true, bay := true, draws := true } t) rfl).eq_pins rfl
@[simp] theorem unseen_dram {t : State} : ((unseen t)).dram = t.dram := (unseen_led  (.refl { pwr := true, tally := true, bay := true, draws := true } t) rfl).eq_dram rfl
@[simp] theorem unseen_trust {t : State} : ((unseen t)).trust = t.trust := (unseen_led  (.refl { pwr := true, tally := true, bay := true, draws := true } t) rfl).eq_trust rfl
@[simp] theorem unseen_cpi {t : State} : ((unseen t)).cpi = t.cpi := (unseen_led  (.refl { pwr := true, tally := true, bay := true, draws := true } t) rfl).eq_cpi rfl
@[simp] theorem unseen_diary {t : State} : ((unseen t)).diary = t.diary := (unseen_led  (.refl { pwr := true, tally := true, bay := true, draws := true } t) rfl).eq_diary rfl
@[simp] theorem unseen_tt {t : State} : ((unseen t)).tt = t.tt := (unseen_led  (.refl { pwr := true, tally := true, bay := true, draws := true } t) rfl).eq_tt rfl
@[simp] theorem unseen_lanes {t : State} : ((unseen t)).lanes = t.lanes := (unseen_led  (.refl { pwr := true, tally := true, bay := true, draws := true } t) rfl).eq_lanes rfl
@[simp] theorem unseen_stg {t : State} : ((unseen t)).stg = t.stg := (unseen_led  (.refl { pwr := true, tally := true, bay := true, draws := true } t) rfl).eq_stg rfl
@[simp] theorem unseen_ddp {t : State} : ((unseen t)).ddp = t.ddp := (unseen_led  (.refl { pwr := true, tally := true, bay := true, draws := true } t) rfl).eq_ddp rfl
@[simp] theorem unseen_ftl {t : State} : ((unseen t)).ftl = t.ftl := (unseen_led  (.refl { pwr := true, tally := true, bay := true, draws := true } t) rfl).eq_ftl rfl
@[simp] theorem unseen_ec {t : State} : ((unseen t)).ec = t.ec := (unseen_led  (.refl { pwr := true, tally := true, bay := true, draws := true } t) rfl).eq_ec rfl
@[simp] theorem unseen_pool {t : State} : ((unseen t)).pool = t.pool := (unseen_led  (.refl { pwr := true, tally := true, bay := true, draws := true } t) rfl).eq_pool rfl
@[simp] theorem unseen_saved {t : State} : ((unseen t)).saved = t.saved := (unseen_led  (.refl { pwr := true, tally := true, bay := true, draws := true } t) rfl).eq_saved rfl
@[simp] theorem unseen_ciph {t : State} : ((unseen t)).ciph = t.ciph := (unseen_led  (.refl { pwr := true, tally := true, bay := true, draws := true } t) rfl).eq_ciph rfl
@[simp] theorem unseen_skx {t : State} : ((unseen t)).skx = t.skx := (unseen_led  (.refl { pwr := true, tally := true, bay := true, draws := true } t) rfl).eq_skx rfl
@[simp] theorem unseen_jobs {t : State} : ((unseen t)).jobs = t.jobs := (unseen_led  (.refl { pwr := true, tally := true, bay := true, draws := true } t) rfl).eq_jobs rfl
@[simp] theorem unseen_hq {t : State} : ((unseen t)).hq = t.hq := (unseen_led  (.refl { pwr := true, tally := true, bay := true, draws := true } t) rfl).eq_hq rfl
@[simp] theorem unseen_repl {t : State} : ((unseen t)).repl = t.repl := (unseen_led  (.refl { pwr := true, tally := true, bay := true, draws := true } t) rfl).eq_repl rfl
@[simp] theorem unseen_corr {t : State} : ((unseen t)).corr = t.corr := (unseen_led  (.refl { pwr := true, tally := true, bay := true, draws := true } t) rfl).eq_corr rfl
@[simp] theorem unseen_out {t : State} : ((unseen t)).out = t.out := (unseen_led  (.refl { pwr := true, tally := true, bay := true, draws := true } t) rfl).eq_out rfl
@[simp] theorem carryFences_sys {t : State} (a0) : ((carryFences a0 t)).sys = t.sys := (carryFences_led _ (.refl { ec := true, bay := true } t) rfl).eq_sys rfl
@[simp] theorem carryFences_pwr {t : State} (a0) : ((carryFences a0 t)).pwr = t.pwr := (carryFences_led _ (.refl { ec := true, bay := true } t) rfl).eq_pwr rfl
@[simp] theorem carryFences_pins {t : State} (a0) : ((carryFences a0 t)).pins = t.pins := (carryFences_led _ (.refl { ec := true, bay := true } t) rfl).eq_pins rfl
@[simp] theorem carryFences_dram {t : State} (a0) : ((carryFences a0 t)).dram = t.dram := (carryFences_led _ (.refl { ec := true, bay := true } t) rfl).eq_dram rfl
@[simp] theorem carryFences_trust {t : State} (a0) : ((carryFences a0 t)).trust = t.trust := (carryFences_led _ (.refl { ec := true, bay := true } t) rfl).eq_trust rfl
@[simp] theorem carryFences_cpi {t : State} (a0) : ((carryFences a0 t)).cpi = t.cpi := (carryFences_led _ (.refl { ec := true, bay := true } t) rfl).eq_cpi rfl
@[simp] theorem carryFences_diary {t : State} (a0) : ((carryFences a0 t)).diary = t.diary := (carryFences_led _ (.refl { ec := true, bay := true } t) rfl).eq_diary rfl
@[simp] theorem carryFences_tally {t : State} (a0) : ((carryFences a0 t)).tally = t.tally := (carryFences_led _ (.refl { ec := true, bay := true } t) rfl).eq_tally rfl
@[simp] theorem carryFences_tt {t : State} (a0) : ((carryFences a0 t)).tt = t.tt := (carryFences_led _ (.refl { ec := true, bay := true } t) rfl).eq_tt rfl
@[simp] theorem carryFences_lanes {t : State} (a0) : ((carryFences a0 t)).lanes = t.lanes := (carryFences_led _ (.refl { ec := true, bay := true } t) rfl).eq_lanes rfl
@[simp] theorem carryFences_stg {t : State} (a0) : ((carryFences a0 t)).stg = t.stg := (carryFences_led _ (.refl { ec := true, bay := true } t) rfl).eq_stg rfl
@[simp] theorem carryFences_ddp {t : State} (a0) : ((carryFences a0 t)).ddp = t.ddp := (carryFences_led _ (.refl { ec := true, bay := true } t) rfl).eq_ddp rfl
@[simp] theorem carryFences_ftl {t : State} (a0) : ((carryFences a0 t)).ftl = t.ftl := (carryFences_led _ (.refl { ec := true, bay := true } t) rfl).eq_ftl rfl
@[simp] theorem carryFences_pool {t : State} (a0) : ((carryFences a0 t)).pool = t.pool := (carryFences_led _ (.refl { ec := true, bay := true } t) rfl).eq_pool rfl
@[simp] theorem carryFences_saved {t : State} (a0) : ((carryFences a0 t)).saved = t.saved := (carryFences_led _ (.refl { ec := true, bay := true } t) rfl).eq_saved rfl
@[simp] theorem carryFences_ciph {t : State} (a0) : ((carryFences a0 t)).ciph = t.ciph := (carryFences_led _ (.refl { ec := true, bay := true } t) rfl).eq_ciph rfl
@[simp] theorem carryFences_skx {t : State} (a0) : ((carryFences a0 t)).skx = t.skx := (carryFences_led _ (.refl { ec := true, bay := true } t) rfl).eq_skx rfl
@[simp] theorem carryFences_jobs {t : State} (a0) : ((carryFences a0 t)).jobs = t.jobs := (carryFences_led _ (.refl { ec := true, bay := true } t) rfl).eq_jobs rfl
@[simp] theorem carryFences_hq {t : State} (a0) : ((carryFences a0 t)).hq = t.hq := (carryFences_led _ (.refl { ec := true, bay := true } t) rfl).eq_hq rfl
@[simp] theorem carryFences_repl {t : State} (a0) : ((carryFences a0 t)).repl = t.repl := (carryFences_led _ (.refl { ec := true, bay := true } t) rfl).eq_repl rfl
@[simp] theorem carryFences_corr {t : State} (a0) : ((carryFences a0 t)).corr = t.corr := (carryFences_led _ (.refl { ec := true, bay := true } t) rfl).eq_corr rfl
@[simp] theorem carryFences_out {t : State} (a0) : ((carryFences a0 t)).out = t.out := (carryFences_led _ (.refl { ec := true, bay := true } t) rfl).eq_out rfl
@[simp] theorem carryFences_draws {t : State} (a0) : ((carryFences a0 t)).draws = t.draws := (carryFences_led _ (.refl { ec := true, bay := true } t) rfl).eq_draws rfl
@[simp] theorem refence_sys {t : State} (a0) : ((refence a0 t)).sys = t.sys := (refence_led _ (.refl { ec := true, bay := true } t) rfl).eq_sys rfl
@[simp] theorem refence_pwr {t : State} (a0) : ((refence a0 t)).pwr = t.pwr := (refence_led _ (.refl { ec := true, bay := true } t) rfl).eq_pwr rfl
@[simp] theorem refence_pins {t : State} (a0) : ((refence a0 t)).pins = t.pins := (refence_led _ (.refl { ec := true, bay := true } t) rfl).eq_pins rfl
@[simp] theorem refence_dram {t : State} (a0) : ((refence a0 t)).dram = t.dram := (refence_led _ (.refl { ec := true, bay := true } t) rfl).eq_dram rfl
@[simp] theorem refence_trust {t : State} (a0) : ((refence a0 t)).trust = t.trust := (refence_led _ (.refl { ec := true, bay := true } t) rfl).eq_trust rfl
@[simp] theorem refence_cpi {t : State} (a0) : ((refence a0 t)).cpi = t.cpi := (refence_led _ (.refl { ec := true, bay := true } t) rfl).eq_cpi rfl
@[simp] theorem refence_diary {t : State} (a0) : ((refence a0 t)).diary = t.diary := (refence_led _ (.refl { ec := true, bay := true } t) rfl).eq_diary rfl
@[simp] theorem refence_tally {t : State} (a0) : ((refence a0 t)).tally = t.tally := (refence_led _ (.refl { ec := true, bay := true } t) rfl).eq_tally rfl
@[simp] theorem refence_tt {t : State} (a0) : ((refence a0 t)).tt = t.tt := (refence_led _ (.refl { ec := true, bay := true } t) rfl).eq_tt rfl
@[simp] theorem refence_lanes {t : State} (a0) : ((refence a0 t)).lanes = t.lanes := (refence_led _ (.refl { ec := true, bay := true } t) rfl).eq_lanes rfl
@[simp] theorem refence_stg {t : State} (a0) : ((refence a0 t)).stg = t.stg := (refence_led _ (.refl { ec := true, bay := true } t) rfl).eq_stg rfl
@[simp] theorem refence_ddp {t : State} (a0) : ((refence a0 t)).ddp = t.ddp := (refence_led _ (.refl { ec := true, bay := true } t) rfl).eq_ddp rfl
@[simp] theorem refence_ftl {t : State} (a0) : ((refence a0 t)).ftl = t.ftl := (refence_led _ (.refl { ec := true, bay := true } t) rfl).eq_ftl rfl
@[simp] theorem refence_pool {t : State} (a0) : ((refence a0 t)).pool = t.pool := (refence_led _ (.refl { ec := true, bay := true } t) rfl).eq_pool rfl
@[simp] theorem refence_saved {t : State} (a0) : ((refence a0 t)).saved = t.saved := (refence_led _ (.refl { ec := true, bay := true } t) rfl).eq_saved rfl
@[simp] theorem refence_ciph {t : State} (a0) : ((refence a0 t)).ciph = t.ciph := (refence_led _ (.refl { ec := true, bay := true } t) rfl).eq_ciph rfl
@[simp] theorem refence_skx {t : State} (a0) : ((refence a0 t)).skx = t.skx := (refence_led _ (.refl { ec := true, bay := true } t) rfl).eq_skx rfl
@[simp] theorem refence_jobs {t : State} (a0) : ((refence a0 t)).jobs = t.jobs := (refence_led _ (.refl { ec := true, bay := true } t) rfl).eq_jobs rfl
@[simp] theorem refence_hq {t : State} (a0) : ((refence a0 t)).hq = t.hq := (refence_led _ (.refl { ec := true, bay := true } t) rfl).eq_hq rfl
@[simp] theorem refence_repl {t : State} (a0) : ((refence a0 t)).repl = t.repl := (refence_led _ (.refl { ec := true, bay := true } t) rfl).eq_repl rfl
@[simp] theorem refence_corr {t : State} (a0) : ((refence a0 t)).corr = t.corr := (refence_led _ (.refl { ec := true, bay := true } t) rfl).eq_corr rfl
@[simp] theorem refence_out {t : State} (a0) : ((refence a0 t)).out = t.out := (refence_led _ (.refl { ec := true, bay := true } t) rfl).eq_out rfl
@[simp] theorem refence_draws {t : State} (a0) : ((refence a0 t)).draws = t.draws := (refence_led _ (.refl { ec := true, bay := true } t) rfl).eq_draws rfl
@[simp] theorem halvesFor_sys {t : State} (a0) : ((halvesFor a0 t)).sys = t.sys := (halvesFor_led _ (.refl { trust := true, tally := true, stg := true, ftl := true, ec := true, bay := true, pool := true, corr := true, out := true } t) rfl).eq_sys rfl
@[simp] theorem halvesFor_pwr {t : State} (a0) : ((halvesFor a0 t)).pwr = t.pwr := (halvesFor_led _ (.refl { trust := true, tally := true, stg := true, ftl := true, ec := true, bay := true, pool := true, corr := true, out := true } t) rfl).eq_pwr rfl
@[simp] theorem halvesFor_pins {t : State} (a0) : ((halvesFor a0 t)).pins = t.pins := (halvesFor_led _ (.refl { trust := true, tally := true, stg := true, ftl := true, ec := true, bay := true, pool := true, corr := true, out := true } t) rfl).eq_pins rfl
@[simp] theorem halvesFor_dram {t : State} (a0) : ((halvesFor a0 t)).dram = t.dram := (halvesFor_led _ (.refl { trust := true, tally := true, stg := true, ftl := true, ec := true, bay := true, pool := true, corr := true, out := true } t) rfl).eq_dram rfl
@[simp] theorem halvesFor_cpi {t : State} (a0) : ((halvesFor a0 t)).cpi = t.cpi := (halvesFor_led _ (.refl { trust := true, tally := true, stg := true, ftl := true, ec := true, bay := true, pool := true, corr := true, out := true } t) rfl).eq_cpi rfl
@[simp] theorem halvesFor_diary {t : State} (a0) : ((halvesFor a0 t)).diary = t.diary := (halvesFor_led _ (.refl { trust := true, tally := true, stg := true, ftl := true, ec := true, bay := true, pool := true, corr := true, out := true } t) rfl).eq_diary rfl
@[simp] theorem halvesFor_tt {t : State} (a0) : ((halvesFor a0 t)).tt = t.tt := (halvesFor_led _ (.refl { trust := true, tally := true, stg := true, ftl := true, ec := true, bay := true, pool := true, corr := true, out := true } t) rfl).eq_tt rfl
@[simp] theorem halvesFor_lanes {t : State} (a0) : ((halvesFor a0 t)).lanes = t.lanes := (halvesFor_led _ (.refl { trust := true, tally := true, stg := true, ftl := true, ec := true, bay := true, pool := true, corr := true, out := true } t) rfl).eq_lanes rfl
@[simp] theorem halvesFor_ddp {t : State} (a0) : ((halvesFor a0 t)).ddp = t.ddp := (halvesFor_led _ (.refl { trust := true, tally := true, stg := true, ftl := true, ec := true, bay := true, pool := true, corr := true, out := true } t) rfl).eq_ddp rfl
@[simp] theorem halvesFor_saved {t : State} (a0) : ((halvesFor a0 t)).saved = t.saved := (halvesFor_led _ (.refl { trust := true, tally := true, stg := true, ftl := true, ec := true, bay := true, pool := true, corr := true, out := true } t) rfl).eq_saved rfl
@[simp] theorem halvesFor_ciph {t : State} (a0) : ((halvesFor a0 t)).ciph = t.ciph := (halvesFor_led _ (.refl { trust := true, tally := true, stg := true, ftl := true, ec := true, bay := true, pool := true, corr := true, out := true } t) rfl).eq_ciph rfl
@[simp] theorem halvesFor_skx {t : State} (a0) : ((halvesFor a0 t)).skx = t.skx := (halvesFor_led _ (.refl { trust := true, tally := true, stg := true, ftl := true, ec := true, bay := true, pool := true, corr := true, out := true } t) rfl).eq_skx rfl
@[simp] theorem halvesFor_jobs {t : State} (a0) : ((halvesFor a0 t)).jobs = t.jobs := (halvesFor_led _ (.refl { trust := true, tally := true, stg := true, ftl := true, ec := true, bay := true, pool := true, corr := true, out := true } t) rfl).eq_jobs rfl
@[simp] theorem halvesFor_hq {t : State} (a0) : ((halvesFor a0 t)).hq = t.hq := (halvesFor_led _ (.refl { trust := true, tally := true, stg := true, ftl := true, ec := true, bay := true, pool := true, corr := true, out := true } t) rfl).eq_hq rfl
@[simp] theorem halvesFor_repl {t : State} (a0) : ((halvesFor a0 t)).repl = t.repl := (halvesFor_led _ (.refl { trust := true, tally := true, stg := true, ftl := true, ec := true, bay := true, pool := true, corr := true, out := true } t) rfl).eq_repl rfl
@[simp] theorem halvesFor_draws {t : State} (a0) : ((halvesFor a0 t)).draws = t.draws := (halvesFor_led _ (.refl { trust := true, tally := true, stg := true, ftl := true, ec := true, bay := true, pool := true, corr := true, out := true } t) rfl).eq_draws rfl
@[simp] theorem freeCopies_sys {t : State} (a0) : ((freeCopies a0 t)).sys = t.sys := (freeCopies_led _ (.refl { trust := true, tally := true, ftl := true, corr := true, out := true } t) rfl).eq_sys rfl
@[simp] theorem freeCopies_pwr {t : State} (a0) : ((freeCopies a0 t)).pwr = t.pwr := (freeCopies_led _ (.refl { trust := true, tally := true, ftl := true, corr := true, out := true } t) rfl).eq_pwr rfl
@[simp] theorem freeCopies_pins {t : State} (a0) : ((freeCopies a0 t)).pins = t.pins := (freeCopies_led _ (.refl { trust := true, tally := true, ftl := true, corr := true, out := true } t) rfl).eq_pins rfl
@[simp] theorem freeCopies_dram {t : State} (a0) : ((freeCopies a0 t)).dram = t.dram := (freeCopies_led _ (.refl { trust := true, tally := true, ftl := true, corr := true, out := true } t) rfl).eq_dram rfl
@[simp] theorem freeCopies_cpi {t : State} (a0) : ((freeCopies a0 t)).cpi = t.cpi := (freeCopies_led _ (.refl { trust := true, tally := true, ftl := true, corr := true, out := true } t) rfl).eq_cpi rfl
@[simp] theorem freeCopies_diary {t : State} (a0) : ((freeCopies a0 t)).diary = t.diary := (freeCopies_led _ (.refl { trust := true, tally := true, ftl := true, corr := true, out := true } t) rfl).eq_diary rfl
@[simp] theorem freeCopies_tt {t : State} (a0) : ((freeCopies a0 t)).tt = t.tt := (freeCopies_led _ (.refl { trust := true, tally := true, ftl := true, corr := true, out := true } t) rfl).eq_tt rfl
@[simp] theorem freeCopies_lanes {t : State} (a0) : ((freeCopies a0 t)).lanes = t.lanes := (freeCopies_led _ (.refl { trust := true, tally := true, ftl := true, corr := true, out := true } t) rfl).eq_lanes rfl
@[simp] theorem freeCopies_stg {t : State} (a0) : ((freeCopies a0 t)).stg = t.stg := (freeCopies_led _ (.refl { trust := true, tally := true, ftl := true, corr := true, out := true } t) rfl).eq_stg rfl
@[simp] theorem freeCopies_ddp {t : State} (a0) : ((freeCopies a0 t)).ddp = t.ddp := (freeCopies_led _ (.refl { trust := true, tally := true, ftl := true, corr := true, out := true } t) rfl).eq_ddp rfl
@[simp] theorem freeCopies_ec {t : State} (a0) : ((freeCopies a0 t)).ec = t.ec := (freeCopies_led _ (.refl { trust := true, tally := true, ftl := true, corr := true, out := true } t) rfl).eq_ec rfl
@[simp] theorem freeCopies_bay {t : State} (a0) : ((freeCopies a0 t)).bay = t.bay := (freeCopies_led _ (.refl { trust := true, tally := true, ftl := true, corr := true, out := true } t) rfl).eq_bay rfl
@[simp] theorem freeCopies_pool {t : State} (a0) : ((freeCopies a0 t)).pool = t.pool := (freeCopies_led _ (.refl { trust := true, tally := true, ftl := true, corr := true, out := true } t) rfl).eq_pool rfl
@[simp] theorem freeCopies_saved {t : State} (a0) : ((freeCopies a0 t)).saved = t.saved := (freeCopies_led _ (.refl { trust := true, tally := true, ftl := true, corr := true, out := true } t) rfl).eq_saved rfl
@[simp] theorem freeCopies_ciph {t : State} (a0) : ((freeCopies a0 t)).ciph = t.ciph := (freeCopies_led _ (.refl { trust := true, tally := true, ftl := true, corr := true, out := true } t) rfl).eq_ciph rfl
@[simp] theorem freeCopies_skx {t : State} (a0) : ((freeCopies a0 t)).skx = t.skx := (freeCopies_led _ (.refl { trust := true, tally := true, ftl := true, corr := true, out := true } t) rfl).eq_skx rfl
@[simp] theorem freeCopies_jobs {t : State} (a0) : ((freeCopies a0 t)).jobs = t.jobs := (freeCopies_led _ (.refl { trust := true, tally := true, ftl := true, corr := true, out := true } t) rfl).eq_jobs rfl
@[simp] theorem freeCopies_hq {t : State} (a0) : ((freeCopies a0 t)).hq = t.hq := (freeCopies_led _ (.refl { trust := true, tally := true, ftl := true, corr := true, out := true } t) rfl).eq_hq rfl
@[simp] theorem freeCopies_repl {t : State} (a0) : ((freeCopies a0 t)).repl = t.repl := (freeCopies_led _ (.refl { trust := true, tally := true, ftl := true, corr := true, out := true } t) rfl).eq_repl rfl
@[simp] theorem freeCopies_draws {t : State} (a0) : ((freeCopies a0 t)).draws = t.draws := (freeCopies_led _ (.refl { trust := true, tally := true, ftl := true, corr := true, out := true } t) rfl).eq_draws rfl
@[simp] theorem loseAssociation_sys {t : State} (a0 a1) : ((loseAssociation a0 a1 t)).sys = t.sys := (loseAssociation_led _ _ (.refl { trust := true, cpi := true, diary := true, tally := true, stg := true, ftl := true, bay := true, jobs := true, hq := true, repl := true, corr := true, out := true, draws := true } t) rfl).eq_sys rfl
@[simp] theorem loseAssociation_pwr {t : State} (a0 a1) : ((loseAssociation a0 a1 t)).pwr = t.pwr := (loseAssociation_led _ _ (.refl { trust := true, cpi := true, diary := true, tally := true, stg := true, ftl := true, bay := true, jobs := true, hq := true, repl := true, corr := true, out := true, draws := true } t) rfl).eq_pwr rfl
@[simp] theorem loseAssociation_pins {t : State} (a0 a1) : ((loseAssociation a0 a1 t)).pins = t.pins := (loseAssociation_led _ _ (.refl { trust := true, cpi := true, diary := true, tally := true, stg := true, ftl := true, bay := true, jobs := true, hq := true, repl := true, corr := true, out := true, draws := true } t) rfl).eq_pins rfl
@[simp] theorem loseAssociation_dram {t : State} (a0 a1) : ((loseAssociation a0 a1 t)).dram = t.dram := (loseAssociation_led _ _ (.refl { trust := true, cpi := true, diary := true, tally := true, stg := true, ftl := true, bay := true, jobs := true, hq := true, repl := true, corr := true, out := true, draws := true } t) rfl).eq_dram rfl
@[simp] theorem loseAssociation_tt {t : State} (a0 a1) : ((loseAssociation a0 a1 t)).tt = t.tt := (loseAssociation_led _ _ (.refl { trust := true, cpi := true, diary := true, tally := true, stg := true, ftl := true, bay := true, jobs := true, hq := true, repl := true, corr := true, out := true, draws := true } t) rfl).eq_tt rfl
@[simp] theorem loseAssociation_lanes {t : State} (a0 a1) : ((loseAssociation a0 a1 t)).lanes = t.lanes := (loseAssociation_led _ _ (.refl { trust := true, cpi := true, diary := true, tally := true, stg := true, ftl := true, bay := true, jobs := true, hq := true, repl := true, corr := true, out := true, draws := true } t) rfl).eq_lanes rfl
@[simp] theorem loseAssociation_ddp {t : State} (a0 a1) : ((loseAssociation a0 a1 t)).ddp = t.ddp := (loseAssociation_led _ _ (.refl { trust := true, cpi := true, diary := true, tally := true, stg := true, ftl := true, bay := true, jobs := true, hq := true, repl := true, corr := true, out := true, draws := true } t) rfl).eq_ddp rfl
@[simp] theorem loseAssociation_ec {t : State} (a0 a1) : ((loseAssociation a0 a1 t)).ec = t.ec := (loseAssociation_led _ _ (.refl { trust := true, cpi := true, diary := true, tally := true, stg := true, ftl := true, bay := true, jobs := true, hq := true, repl := true, corr := true, out := true, draws := true } t) rfl).eq_ec rfl
@[simp] theorem loseAssociation_pool {t : State} (a0 a1) : ((loseAssociation a0 a1 t)).pool = t.pool := (loseAssociation_led _ _ (.refl { trust := true, cpi := true, diary := true, tally := true, stg := true, ftl := true, bay := true, jobs := true, hq := true, repl := true, corr := true, out := true, draws := true } t) rfl).eq_pool rfl
@[simp] theorem loseAssociation_saved {t : State} (a0 a1) : ((loseAssociation a0 a1 t)).saved = t.saved := (loseAssociation_led _ _ (.refl { trust := true, cpi := true, diary := true, tally := true, stg := true, ftl := true, bay := true, jobs := true, hq := true, repl := true, corr := true, out := true, draws := true } t) rfl).eq_saved rfl
@[simp] theorem loseAssociation_ciph {t : State} (a0 a1) : ((loseAssociation a0 a1 t)).ciph = t.ciph := (loseAssociation_led _ _ (.refl { trust := true, cpi := true, diary := true, tally := true, stg := true, ftl := true, bay := true, jobs := true, hq := true, repl := true, corr := true, out := true, draws := true } t) rfl).eq_ciph rfl
@[simp] theorem loseAssociation_skx {t : State} (a0 a1) : ((loseAssociation a0 a1 t)).skx = t.skx := (loseAssociation_led _ _ (.refl { trust := true, cpi := true, diary := true, tally := true, stg := true, ftl := true, bay := true, jobs := true, hq := true, repl := true, corr := true, out := true, draws := true } t) rfl).eq_skx rfl
@[simp] theorem powerIslands_sys {t : State} (a0) : ((powerIslands a0 t)).sys = t.sys := (powerIslands_led _ (.refl { pwr := true, tally := true, ec := true, ciph := true, skx := true } t) rfl).eq_sys rfl
@[simp] theorem powerIslands_pins {t : State} (a0) : ((powerIslands a0 t)).pins = t.pins := (powerIslands_led _ (.refl { pwr := true, tally := true, ec := true, ciph := true, skx := true } t) rfl).eq_pins rfl
@[simp] theorem powerIslands_dram {t : State} (a0) : ((powerIslands a0 t)).dram = t.dram := (powerIslands_led _ (.refl { pwr := true, tally := true, ec := true, ciph := true, skx := true } t) rfl).eq_dram rfl
@[simp] theorem powerIslands_trust {t : State} (a0) : ((powerIslands a0 t)).trust = t.trust := (powerIslands_led _ (.refl { pwr := true, tally := true, ec := true, ciph := true, skx := true } t) rfl).eq_trust rfl
@[simp] theorem powerIslands_cpi {t : State} (a0) : ((powerIslands a0 t)).cpi = t.cpi := (powerIslands_led _ (.refl { pwr := true, tally := true, ec := true, ciph := true, skx := true } t) rfl).eq_cpi rfl
@[simp] theorem powerIslands_diary {t : State} (a0) : ((powerIslands a0 t)).diary = t.diary := (powerIslands_led _ (.refl { pwr := true, tally := true, ec := true, ciph := true, skx := true } t) rfl).eq_diary rfl
@[simp] theorem powerIslands_tt {t : State} (a0) : ((powerIslands a0 t)).tt = t.tt := (powerIslands_led _ (.refl { pwr := true, tally := true, ec := true, ciph := true, skx := true } t) rfl).eq_tt rfl
@[simp] theorem powerIslands_lanes {t : State} (a0) : ((powerIslands a0 t)).lanes = t.lanes := (powerIslands_led _ (.refl { pwr := true, tally := true, ec := true, ciph := true, skx := true } t) rfl).eq_lanes rfl
@[simp] theorem powerIslands_stg {t : State} (a0) : ((powerIslands a0 t)).stg = t.stg := (powerIslands_led _ (.refl { pwr := true, tally := true, ec := true, ciph := true, skx := true } t) rfl).eq_stg rfl
@[simp] theorem powerIslands_ddp {t : State} (a0) : ((powerIslands a0 t)).ddp = t.ddp := (powerIslands_led _ (.refl { pwr := true, tally := true, ec := true, ciph := true, skx := true } t) rfl).eq_ddp rfl
@[simp] theorem powerIslands_ftl {t : State} (a0) : ((powerIslands a0 t)).ftl = t.ftl := (powerIslands_led _ (.refl { pwr := true, tally := true, ec := true, ciph := true, skx := true } t) rfl).eq_ftl rfl
@[simp] theorem powerIslands_bay {t : State} (a0) : ((powerIslands a0 t)).bay = t.bay := (powerIslands_led _ (.refl { pwr := true, tally := true, ec := true, ciph := true, skx := true } t) rfl).eq_bay rfl
@[simp] theorem powerIslands_pool {t : State} (a0) : ((powerIslands a0 t)).pool = t.pool := (powerIslands_led _ (.refl { pwr := true, tally := true, ec := true, ciph := true, skx := true } t) rfl).eq_pool rfl
@[simp] theorem powerIslands_saved {t : State} (a0) : ((powerIslands a0 t)).saved = t.saved := (powerIslands_led _ (.refl { pwr := true, tally := true, ec := true, ciph := true, skx := true } t) rfl).eq_saved rfl
@[simp] theorem powerIslands_jobs {t : State} (a0) : ((powerIslands a0 t)).jobs = t.jobs := (powerIslands_led _ (.refl { pwr := true, tally := true, ec := true, ciph := true, skx := true } t) rfl).eq_jobs rfl
@[simp] theorem powerIslands_hq {t : State} (a0) : ((powerIslands a0 t)).hq = t.hq := (powerIslands_led _ (.refl { pwr := true, tally := true, ec := true, ciph := true, skx := true } t) rfl).eq_hq rfl
@[simp] theorem powerIslands_repl {t : State} (a0) : ((powerIslands a0 t)).repl = t.repl := (powerIslands_led _ (.refl { pwr := true, tally := true, ec := true, ciph := true, skx := true } t) rfl).eq_repl rfl
@[simp] theorem powerIslands_corr {t : State} (a0) : ((powerIslands a0 t)).corr = t.corr := (powerIslands_led _ (.refl { pwr := true, tally := true, ec := true, ciph := true, skx := true } t) rfl).eq_corr rfl
@[simp] theorem powerIslands_out {t : State} (a0) : ((powerIslands a0 t)).out = t.out := (powerIslands_led _ (.refl { pwr := true, tally := true, ec := true, ciph := true, skx := true } t) rfl).eq_out rfl
@[simp] theorem powerIslands_draws {t : State} (a0) : ((powerIslands a0 t)).draws = t.draws := (powerIslands_led _ (.refl { pwr := true, tally := true, ec := true, ciph := true, skx := true } t) rfl).eq_draws rfl
@[simp] theorem writeImage_sys {t : State} : ((writeImage t)).sys = t.sys := (writeImage_led  (.refl { trust := true, tally := true, stg := true, ftl := true, bay := true, pool := true, ciph := true, corr := true, out := true } t) rfl).eq_sys rfl
@[simp] theorem writeImage_pwr {t : State} : ((writeImage t)).pwr = t.pwr := (writeImage_led  (.refl { trust := true, tally := true, stg := true, ftl := true, bay := true, pool := true, ciph := true, corr := true, out := true } t) rfl).eq_pwr rfl
@[simp] theorem writeImage_pins {t : State} : ((writeImage t)).pins = t.pins := (writeImage_led  (.refl { trust := true, tally := true, stg := true, ftl := true, bay := true, pool := true, ciph := true, corr := true, out := true } t) rfl).eq_pins rfl
@[simp] theorem writeImage_dram {t : State} : ((writeImage t)).dram = t.dram := (writeImage_led  (.refl { trust := true, tally := true, stg := true, ftl := true, bay := true, pool := true, ciph := true, corr := true, out := true } t) rfl).eq_dram rfl
@[simp] theorem writeImage_cpi {t : State} : ((writeImage t)).cpi = t.cpi := (writeImage_led  (.refl { trust := true, tally := true, stg := true, ftl := true, bay := true, pool := true, ciph := true, corr := true, out := true } t) rfl).eq_cpi rfl
@[simp] theorem writeImage_diary {t : State} : ((writeImage t)).diary = t.diary := (writeImage_led  (.refl { trust := true, tally := true, stg := true, ftl := true, bay := true, pool := true, ciph := true, corr := true, out := true } t) rfl).eq_diary rfl
@[simp] theorem writeImage_tt {t : State} : ((writeImage t)).tt = t.tt := (writeImage_led  (.refl { trust := true, tally := true, stg := true, ftl := true, bay := true, pool := true, ciph := true, corr := true, out := true } t) rfl).eq_tt rfl
@[simp] theorem writeImage_lanes {t : State} : ((writeImage t)).lanes = t.lanes := (writeImage_led  (.refl { trust := true, tally := true, stg := true, ftl := true, bay := true, pool := true, ciph := true, corr := true, out := true } t) rfl).eq_lanes rfl
@[simp] theorem writeImage_ddp {t : State} : ((writeImage t)).ddp = t.ddp := (writeImage_led  (.refl { trust := true, tally := true, stg := true, ftl := true, bay := true, pool := true, ciph := true, corr := true, out := true } t) rfl).eq_ddp rfl
@[simp] theorem writeImage_ec {t : State} : ((writeImage t)).ec = t.ec := (writeImage_led  (.refl { trust := true, tally := true, stg := true, ftl := true, bay := true, pool := true, ciph := true, corr := true, out := true } t) rfl).eq_ec rfl
@[simp] theorem writeImage_saved {t : State} : ((writeImage t)).saved = t.saved := (writeImage_led  (.refl { trust := true, tally := true, stg := true, ftl := true, bay := true, pool := true, ciph := true, corr := true, out := true } t) rfl).eq_saved rfl
@[simp] theorem writeImage_skx {t : State} : ((writeImage t)).skx = t.skx := (writeImage_led  (.refl { trust := true, tally := true, stg := true, ftl := true, bay := true, pool := true, ciph := true, corr := true, out := true } t) rfl).eq_skx rfl
@[simp] theorem writeImage_jobs {t : State} : ((writeImage t)).jobs = t.jobs := (writeImage_led  (.refl { trust := true, tally := true, stg := true, ftl := true, bay := true, pool := true, ciph := true, corr := true, out := true } t) rfl).eq_jobs rfl
@[simp] theorem writeImage_hq {t : State} : ((writeImage t)).hq = t.hq := (writeImage_led  (.refl { trust := true, tally := true, stg := true, ftl := true, bay := true, pool := true, ciph := true, corr := true, out := true } t) rfl).eq_hq rfl
@[simp] theorem writeImage_repl {t : State} : ((writeImage t)).repl = t.repl := (writeImage_led  (.refl { trust := true, tally := true, stg := true, ftl := true, bay := true, pool := true, ciph := true, corr := true, out := true } t) rfl).eq_repl rfl
@[simp] theorem writeImage_draws {t : State} : ((writeImage t)).draws = t.draws := (writeImage_led  (.refl { trust := true, tally := true, stg := true, ftl := true, bay := true, pool := true, ciph := true, corr := true, out := true } t) rfl).eq_draws rfl
@[simp] theorem journalCounters_sys {t : State} : ((journalCounters t)).sys = t.sys := (journalCounters_led  (.refl { trust := true, tally := true, ftl := true, corr := true, out := true } t) rfl).eq_sys rfl
@[simp] theorem journalCounters_pwr {t : State} : ((journalCounters t)).pwr = t.pwr := (journalCounters_led  (.refl { trust := true, tally := true, ftl := true, corr := true, out := true } t) rfl).eq_pwr rfl
@[simp] theorem journalCounters_pins {t : State} : ((journalCounters t)).pins = t.pins := (journalCounters_led  (.refl { trust := true, tally := true, ftl := true, corr := true, out := true } t) rfl).eq_pins rfl
@[simp] theorem journalCounters_dram {t : State} : ((journalCounters t)).dram = t.dram := (journalCounters_led  (.refl { trust := true, tally := true, ftl := true, corr := true, out := true } t) rfl).eq_dram rfl
@[simp] theorem journalCounters_cpi {t : State} : ((journalCounters t)).cpi = t.cpi := (journalCounters_led  (.refl { trust := true, tally := true, ftl := true, corr := true, out := true } t) rfl).eq_cpi rfl
@[simp] theorem journalCounters_diary {t : State} : ((journalCounters t)).diary = t.diary := (journalCounters_led  (.refl { trust := true, tally := true, ftl := true, corr := true, out := true } t) rfl).eq_diary rfl
@[simp] theorem journalCounters_tt {t : State} : ((journalCounters t)).tt = t.tt := (journalCounters_led  (.refl { trust := true, tally := true, ftl := true, corr := true, out := true } t) rfl).eq_tt rfl
@[simp] theorem journalCounters_lanes {t : State} : ((journalCounters t)).lanes = t.lanes := (journalCounters_led  (.refl { trust := true, tally := true, ftl := true, corr := true, out := true } t) rfl).eq_lanes rfl
@[simp] theorem journalCounters_stg {t : State} : ((journalCounters t)).stg = t.stg := (journalCounters_led  (.refl { trust := true, tally := true, ftl := true, corr := true, out := true } t) rfl).eq_stg rfl
@[simp] theorem journalCounters_ddp {t : State} : ((journalCounters t)).ddp = t.ddp := (journalCounters_led  (.refl { trust := true, tally := true, ftl := true, corr := true, out := true } t) rfl).eq_ddp rfl
@[simp] theorem journalCounters_ec {t : State} : ((journalCounters t)).ec = t.ec := (journalCounters_led  (.refl { trust := true, tally := true, ftl := true, corr := true, out := true } t) rfl).eq_ec rfl
@[simp] theorem journalCounters_bay {t : State} : ((journalCounters t)).bay = t.bay := (journalCounters_led  (.refl { trust := true, tally := true, ftl := true, corr := true, out := true } t) rfl).eq_bay rfl
@[simp] theorem journalCounters_pool {t : State} : ((journalCounters t)).pool = t.pool := (journalCounters_led  (.refl { trust := true, tally := true, ftl := true, corr := true, out := true } t) rfl).eq_pool rfl
@[simp] theorem journalCounters_saved {t : State} : ((journalCounters t)).saved = t.saved := (journalCounters_led  (.refl { trust := true, tally := true, ftl := true, corr := true, out := true } t) rfl).eq_saved rfl
@[simp] theorem journalCounters_ciph {t : State} : ((journalCounters t)).ciph = t.ciph := (journalCounters_led  (.refl { trust := true, tally := true, ftl := true, corr := true, out := true } t) rfl).eq_ciph rfl
@[simp] theorem journalCounters_skx {t : State} : ((journalCounters t)).skx = t.skx := (journalCounters_led  (.refl { trust := true, tally := true, ftl := true, corr := true, out := true } t) rfl).eq_skx rfl
@[simp] theorem journalCounters_jobs {t : State} : ((journalCounters t)).jobs = t.jobs := (journalCounters_led  (.refl { trust := true, tally := true, ftl := true, corr := true, out := true } t) rfl).eq_jobs rfl
@[simp] theorem journalCounters_hq {t : State} : ((journalCounters t)).hq = t.hq := (journalCounters_led  (.refl { trust := true, tally := true, ftl := true, corr := true, out := true } t) rfl).eq_hq rfl
@[simp] theorem journalCounters_repl {t : State} : ((journalCounters t)).repl = t.repl := (journalCounters_led  (.refl { trust := true, tally := true, ftl := true, corr := true, out := true } t) rfl).eq_repl rfl
@[simp] theorem journalCounters_draws {t : State} : ((journalCounters t)).draws = t.draws := (journalCounters_led  (.refl { trust := true, tally := true, ftl := true, corr := true, out := true } t) rfl).eq_draws rfl
@[simp] theorem domainBell_sys {t : State} : ((domainBell t)).sys = t.sys := (domainBell_led  (.refl { pwr := true, tally := true, ec := true, ciph := true, skx := true } t) rfl).eq_sys rfl
@[simp] theorem domainBell_pins {t : State} : ((domainBell t)).pins = t.pins := (domainBell_led  (.refl { pwr := true, tally := true, ec := true, ciph := true, skx := true } t) rfl).eq_pins rfl
@[simp] theorem domainBell_dram {t : State} : ((domainBell t)).dram = t.dram := (domainBell_led  (.refl { pwr := true, tally := true, ec := true, ciph := true, skx := true } t) rfl).eq_dram rfl
@[simp] theorem domainBell_trust {t : State} : ((domainBell t)).trust = t.trust := (domainBell_led  (.refl { pwr := true, tally := true, ec := true, ciph := true, skx := true } t) rfl).eq_trust rfl
@[simp] theorem domainBell_cpi {t : State} : ((domainBell t)).cpi = t.cpi := (domainBell_led  (.refl { pwr := true, tally := true, ec := true, ciph := true, skx := true } t) rfl).eq_cpi rfl
@[simp] theorem domainBell_diary {t : State} : ((domainBell t)).diary = t.diary := (domainBell_led  (.refl { pwr := true, tally := true, ec := true, ciph := true, skx := true } t) rfl).eq_diary rfl
@[simp] theorem domainBell_tt {t : State} : ((domainBell t)).tt = t.tt := (domainBell_led  (.refl { pwr := true, tally := true, ec := true, ciph := true, skx := true } t) rfl).eq_tt rfl
@[simp] theorem domainBell_lanes {t : State} : ((domainBell t)).lanes = t.lanes := (domainBell_led  (.refl { pwr := true, tally := true, ec := true, ciph := true, skx := true } t) rfl).eq_lanes rfl
@[simp] theorem domainBell_stg {t : State} : ((domainBell t)).stg = t.stg := (domainBell_led  (.refl { pwr := true, tally := true, ec := true, ciph := true, skx := true } t) rfl).eq_stg rfl
@[simp] theorem domainBell_ddp {t : State} : ((domainBell t)).ddp = t.ddp := (domainBell_led  (.refl { pwr := true, tally := true, ec := true, ciph := true, skx := true } t) rfl).eq_ddp rfl
@[simp] theorem domainBell_ftl {t : State} : ((domainBell t)).ftl = t.ftl := (domainBell_led  (.refl { pwr := true, tally := true, ec := true, ciph := true, skx := true } t) rfl).eq_ftl rfl
@[simp] theorem domainBell_bay {t : State} : ((domainBell t)).bay = t.bay := (domainBell_led  (.refl { pwr := true, tally := true, ec := true, ciph := true, skx := true } t) rfl).eq_bay rfl
@[simp] theorem domainBell_pool {t : State} : ((domainBell t)).pool = t.pool := (domainBell_led  (.refl { pwr := true, tally := true, ec := true, ciph := true, skx := true } t) rfl).eq_pool rfl
@[simp] theorem domainBell_saved {t : State} : ((domainBell t)).saved = t.saved := (domainBell_led  (.refl { pwr := true, tally := true, ec := true, ciph := true, skx := true } t) rfl).eq_saved rfl
@[simp] theorem domainBell_jobs {t : State} : ((domainBell t)).jobs = t.jobs := (domainBell_led  (.refl { pwr := true, tally := true, ec := true, ciph := true, skx := true } t) rfl).eq_jobs rfl
@[simp] theorem domainBell_hq {t : State} : ((domainBell t)).hq = t.hq := (domainBell_led  (.refl { pwr := true, tally := true, ec := true, ciph := true, skx := true } t) rfl).eq_hq rfl
@[simp] theorem domainBell_repl {t : State} : ((domainBell t)).repl = t.repl := (domainBell_led  (.refl { pwr := true, tally := true, ec := true, ciph := true, skx := true } t) rfl).eq_repl rfl
@[simp] theorem domainBell_corr {t : State} : ((domainBell t)).corr = t.corr := (domainBell_led  (.refl { pwr := true, tally := true, ec := true, ciph := true, skx := true } t) rfl).eq_corr rfl
@[simp] theorem domainBell_out {t : State} : ((domainBell t)).out = t.out := (domainBell_led  (.refl { pwr := true, tally := true, ec := true, ciph := true, skx := true } t) rfl).eq_out rfl
@[simp] theorem domainBell_draws {t : State} : ((domainBell t)).draws = t.draws := (domainBell_led  (.refl { pwr := true, tally := true, ec := true, ciph := true, skx := true } t) rfl).eq_draws rfl
@[simp] theorem endMeasure_sys {t : State} : ((endMeasure t)).sys = t.sys := (endMeasure_led  (.refl { pins := true, cpi := true, stg := true } t) rfl).eq_sys rfl
@[simp] theorem endMeasure_pwr {t : State} : ((endMeasure t)).pwr = t.pwr := (endMeasure_led  (.refl { pins := true, cpi := true, stg := true } t) rfl).eq_pwr rfl
@[simp] theorem endMeasure_dram {t : State} : ((endMeasure t)).dram = t.dram := (endMeasure_led  (.refl { pins := true, cpi := true, stg := true } t) rfl).eq_dram rfl
@[simp] theorem endMeasure_trust {t : State} : ((endMeasure t)).trust = t.trust := (endMeasure_led  (.refl { pins := true, cpi := true, stg := true } t) rfl).eq_trust rfl
@[simp] theorem endMeasure_diary {t : State} : ((endMeasure t)).diary = t.diary := (endMeasure_led  (.refl { pins := true, cpi := true, stg := true } t) rfl).eq_diary rfl
@[simp] theorem endMeasure_tally {t : State} : ((endMeasure t)).tally = t.tally := (endMeasure_led  (.refl { pins := true, cpi := true, stg := true } t) rfl).eq_tally rfl
@[simp] theorem endMeasure_tt {t : State} : ((endMeasure t)).tt = t.tt := (endMeasure_led  (.refl { pins := true, cpi := true, stg := true } t) rfl).eq_tt rfl
@[simp] theorem endMeasure_lanes {t : State} : ((endMeasure t)).lanes = t.lanes := (endMeasure_led  (.refl { pins := true, cpi := true, stg := true } t) rfl).eq_lanes rfl
@[simp] theorem endMeasure_ddp {t : State} : ((endMeasure t)).ddp = t.ddp := (endMeasure_led  (.refl { pins := true, cpi := true, stg := true } t) rfl).eq_ddp rfl
@[simp] theorem endMeasure_ftl {t : State} : ((endMeasure t)).ftl = t.ftl := (endMeasure_led  (.refl { pins := true, cpi := true, stg := true } t) rfl).eq_ftl rfl
@[simp] theorem endMeasure_ec {t : State} : ((endMeasure t)).ec = t.ec := (endMeasure_led  (.refl { pins := true, cpi := true, stg := true } t) rfl).eq_ec rfl
@[simp] theorem endMeasure_bay {t : State} : ((endMeasure t)).bay = t.bay := (endMeasure_led  (.refl { pins := true, cpi := true, stg := true } t) rfl).eq_bay rfl
@[simp] theorem endMeasure_pool {t : State} : ((endMeasure t)).pool = t.pool := (endMeasure_led  (.refl { pins := true, cpi := true, stg := true } t) rfl).eq_pool rfl
@[simp] theorem endMeasure_saved {t : State} : ((endMeasure t)).saved = t.saved := (endMeasure_led  (.refl { pins := true, cpi := true, stg := true } t) rfl).eq_saved rfl
@[simp] theorem endMeasure_ciph {t : State} : ((endMeasure t)).ciph = t.ciph := (endMeasure_led  (.refl { pins := true, cpi := true, stg := true } t) rfl).eq_ciph rfl
@[simp] theorem endMeasure_skx {t : State} : ((endMeasure t)).skx = t.skx := (endMeasure_led  (.refl { pins := true, cpi := true, stg := true } t) rfl).eq_skx rfl
@[simp] theorem endMeasure_jobs {t : State} : ((endMeasure t)).jobs = t.jobs := (endMeasure_led  (.refl { pins := true, cpi := true, stg := true } t) rfl).eq_jobs rfl
@[simp] theorem endMeasure_hq {t : State} : ((endMeasure t)).hq = t.hq := (endMeasure_led  (.refl { pins := true, cpi := true, stg := true } t) rfl).eq_hq rfl
@[simp] theorem endMeasure_repl {t : State} : ((endMeasure t)).repl = t.repl := (endMeasure_led  (.refl { pins := true, cpi := true, stg := true } t) rfl).eq_repl rfl
@[simp] theorem endMeasure_corr {t : State} : ((endMeasure t)).corr = t.corr := (endMeasure_led  (.refl { pins := true, cpi := true, stg := true } t) rfl).eq_corr rfl
@[simp] theorem endMeasure_out {t : State} : ((endMeasure t)).out = t.out := (endMeasure_led  (.refl { pins := true, cpi := true, stg := true } t) rfl).eq_out rfl
@[simp] theorem endMeasure_draws {t : State} : ((endMeasure t)).draws = t.draws := (endMeasure_led  (.refl { pins := true, cpi := true, stg := true } t) rfl).eq_draws rfl
@[simp] theorem changeLocker_sys {t : State} (a0 a1 a2) : ((changeLocker a0 a1 a2 t)).sys = t.sys := (changeLocker_led _ _ _ (.refl { ciph := true } t) rfl).eq_sys rfl
@[simp] theorem changeLocker_pwr {t : State} (a0 a1 a2) : ((changeLocker a0 a1 a2 t)).pwr = t.pwr := (changeLocker_led _ _ _ (.refl { ciph := true } t) rfl).eq_pwr rfl
@[simp] theorem changeLocker_pins {t : State} (a0 a1 a2) : ((changeLocker a0 a1 a2 t)).pins = t.pins := (changeLocker_led _ _ _ (.refl { ciph := true } t) rfl).eq_pins rfl
@[simp] theorem changeLocker_dram {t : State} (a0 a1 a2) : ((changeLocker a0 a1 a2 t)).dram = t.dram := (changeLocker_led _ _ _ (.refl { ciph := true } t) rfl).eq_dram rfl
@[simp] theorem changeLocker_trust {t : State} (a0 a1 a2) : ((changeLocker a0 a1 a2 t)).trust = t.trust := (changeLocker_led _ _ _ (.refl { ciph := true } t) rfl).eq_trust rfl
@[simp] theorem changeLocker_cpi {t : State} (a0 a1 a2) : ((changeLocker a0 a1 a2 t)).cpi = t.cpi := (changeLocker_led _ _ _ (.refl { ciph := true } t) rfl).eq_cpi rfl
@[simp] theorem changeLocker_diary {t : State} (a0 a1 a2) : ((changeLocker a0 a1 a2 t)).diary = t.diary := (changeLocker_led _ _ _ (.refl { ciph := true } t) rfl).eq_diary rfl
@[simp] theorem changeLocker_tally {t : State} (a0 a1 a2) : ((changeLocker a0 a1 a2 t)).tally = t.tally := (changeLocker_led _ _ _ (.refl { ciph := true } t) rfl).eq_tally rfl
@[simp] theorem changeLocker_tt {t : State} (a0 a1 a2) : ((changeLocker a0 a1 a2 t)).tt = t.tt := (changeLocker_led _ _ _ (.refl { ciph := true } t) rfl).eq_tt rfl
@[simp] theorem changeLocker_lanes {t : State} (a0 a1 a2) : ((changeLocker a0 a1 a2 t)).lanes = t.lanes := (changeLocker_led _ _ _ (.refl { ciph := true } t) rfl).eq_lanes rfl
@[simp] theorem changeLocker_stg {t : State} (a0 a1 a2) : ((changeLocker a0 a1 a2 t)).stg = t.stg := (changeLocker_led _ _ _ (.refl { ciph := true } t) rfl).eq_stg rfl
@[simp] theorem changeLocker_ddp {t : State} (a0 a1 a2) : ((changeLocker a0 a1 a2 t)).ddp = t.ddp := (changeLocker_led _ _ _ (.refl { ciph := true } t) rfl).eq_ddp rfl
@[simp] theorem changeLocker_ftl {t : State} (a0 a1 a2) : ((changeLocker a0 a1 a2 t)).ftl = t.ftl := (changeLocker_led _ _ _ (.refl { ciph := true } t) rfl).eq_ftl rfl
@[simp] theorem changeLocker_ec {t : State} (a0 a1 a2) : ((changeLocker a0 a1 a2 t)).ec = t.ec := (changeLocker_led _ _ _ (.refl { ciph := true } t) rfl).eq_ec rfl
@[simp] theorem changeLocker_bay {t : State} (a0 a1 a2) : ((changeLocker a0 a1 a2 t)).bay = t.bay := (changeLocker_led _ _ _ (.refl { ciph := true } t) rfl).eq_bay rfl
@[simp] theorem changeLocker_pool {t : State} (a0 a1 a2) : ((changeLocker a0 a1 a2 t)).pool = t.pool := (changeLocker_led _ _ _ (.refl { ciph := true } t) rfl).eq_pool rfl
@[simp] theorem changeLocker_saved {t : State} (a0 a1 a2) : ((changeLocker a0 a1 a2 t)).saved = t.saved := (changeLocker_led _ _ _ (.refl { ciph := true } t) rfl).eq_saved rfl
@[simp] theorem changeLocker_skx {t : State} (a0 a1 a2) : ((changeLocker a0 a1 a2 t)).skx = t.skx := (changeLocker_led _ _ _ (.refl { ciph := true } t) rfl).eq_skx rfl
@[simp] theorem changeLocker_jobs {t : State} (a0 a1 a2) : ((changeLocker a0 a1 a2 t)).jobs = t.jobs := (changeLocker_led _ _ _ (.refl { ciph := true } t) rfl).eq_jobs rfl
@[simp] theorem changeLocker_hq {t : State} (a0 a1 a2) : ((changeLocker a0 a1 a2 t)).hq = t.hq := (changeLocker_led _ _ _ (.refl { ciph := true } t) rfl).eq_hq rfl
@[simp] theorem changeLocker_repl {t : State} (a0 a1 a2) : ((changeLocker a0 a1 a2 t)).repl = t.repl := (changeLocker_led _ _ _ (.refl { ciph := true } t) rfl).eq_repl rfl
@[simp] theorem changeLocker_corr {t : State} (a0 a1 a2) : ((changeLocker a0 a1 a2 t)).corr = t.corr := (changeLocker_led _ _ _ (.refl { ciph := true } t) rfl).eq_corr rfl
@[simp] theorem changeLocker_out {t : State} (a0 a1 a2) : ((changeLocker a0 a1 a2 t)).out = t.out := (changeLocker_led _ _ _ (.refl { ciph := true } t) rfl).eq_out rfl
@[simp] theorem changeLocker_draws {t : State} (a0 a1 a2) : ((changeLocker a0 a1 a2 t)).draws = t.draws := (changeLocker_led _ _ _ (.refl { ciph := true } t) rfl).eq_draws rfl
@[simp] theorem tellBringUp_sys {t : State} (a0) : ((tellBringUp a0 t)).sys = t.sys := (tellBringUp_led _ (.refl { trust := true, tally := true, corr := true, out := true } t) rfl).eq_sys rfl
@[simp] theorem tellBringUp_pwr {t : State} (a0) : ((tellBringUp a0 t)).pwr = t.pwr := (tellBringUp_led _ (.refl { trust := true, tally := true, corr := true, out := true } t) rfl).eq_pwr rfl
@[simp] theorem tellBringUp_pins {t : State} (a0) : ((tellBringUp a0 t)).pins = t.pins := (tellBringUp_led _ (.refl { trust := true, tally := true, corr := true, out := true } t) rfl).eq_pins rfl
@[simp] theorem tellBringUp_dram {t : State} (a0) : ((tellBringUp a0 t)).dram = t.dram := (tellBringUp_led _ (.refl { trust := true, tally := true, corr := true, out := true } t) rfl).eq_dram rfl
@[simp] theorem tellBringUp_cpi {t : State} (a0) : ((tellBringUp a0 t)).cpi = t.cpi := (tellBringUp_led _ (.refl { trust := true, tally := true, corr := true, out := true } t) rfl).eq_cpi rfl
@[simp] theorem tellBringUp_diary {t : State} (a0) : ((tellBringUp a0 t)).diary = t.diary := (tellBringUp_led _ (.refl { trust := true, tally := true, corr := true, out := true } t) rfl).eq_diary rfl
@[simp] theorem tellBringUp_tt {t : State} (a0) : ((tellBringUp a0 t)).tt = t.tt := (tellBringUp_led _ (.refl { trust := true, tally := true, corr := true, out := true } t) rfl).eq_tt rfl
@[simp] theorem tellBringUp_lanes {t : State} (a0) : ((tellBringUp a0 t)).lanes = t.lanes := (tellBringUp_led _ (.refl { trust := true, tally := true, corr := true, out := true } t) rfl).eq_lanes rfl
@[simp] theorem tellBringUp_stg {t : State} (a0) : ((tellBringUp a0 t)).stg = t.stg := (tellBringUp_led _ (.refl { trust := true, tally := true, corr := true, out := true } t) rfl).eq_stg rfl
@[simp] theorem tellBringUp_ddp {t : State} (a0) : ((tellBringUp a0 t)).ddp = t.ddp := (tellBringUp_led _ (.refl { trust := true, tally := true, corr := true, out := true } t) rfl).eq_ddp rfl
@[simp] theorem tellBringUp_ftl {t : State} (a0) : ((tellBringUp a0 t)).ftl = t.ftl := (tellBringUp_led _ (.refl { trust := true, tally := true, corr := true, out := true } t) rfl).eq_ftl rfl
@[simp] theorem tellBringUp_ec {t : State} (a0) : ((tellBringUp a0 t)).ec = t.ec := (tellBringUp_led _ (.refl { trust := true, tally := true, corr := true, out := true } t) rfl).eq_ec rfl
@[simp] theorem tellBringUp_bay {t : State} (a0) : ((tellBringUp a0 t)).bay = t.bay := (tellBringUp_led _ (.refl { trust := true, tally := true, corr := true, out := true } t) rfl).eq_bay rfl
@[simp] theorem tellBringUp_pool {t : State} (a0) : ((tellBringUp a0 t)).pool = t.pool := (tellBringUp_led _ (.refl { trust := true, tally := true, corr := true, out := true } t) rfl).eq_pool rfl
@[simp] theorem tellBringUp_saved {t : State} (a0) : ((tellBringUp a0 t)).saved = t.saved := (tellBringUp_led _ (.refl { trust := true, tally := true, corr := true, out := true } t) rfl).eq_saved rfl
@[simp] theorem tellBringUp_ciph {t : State} (a0) : ((tellBringUp a0 t)).ciph = t.ciph := (tellBringUp_led _ (.refl { trust := true, tally := true, corr := true, out := true } t) rfl).eq_ciph rfl
@[simp] theorem tellBringUp_skx {t : State} (a0) : ((tellBringUp a0 t)).skx = t.skx := (tellBringUp_led _ (.refl { trust := true, tally := true, corr := true, out := true } t) rfl).eq_skx rfl
@[simp] theorem tellBringUp_jobs {t : State} (a0) : ((tellBringUp a0 t)).jobs = t.jobs := (tellBringUp_led _ (.refl { trust := true, tally := true, corr := true, out := true } t) rfl).eq_jobs rfl
@[simp] theorem tellBringUp_hq {t : State} (a0) : ((tellBringUp a0 t)).hq = t.hq := (tellBringUp_led _ (.refl { trust := true, tally := true, corr := true, out := true } t) rfl).eq_hq rfl
@[simp] theorem tellBringUp_repl {t : State} (a0) : ((tellBringUp a0 t)).repl = t.repl := (tellBringUp_led _ (.refl { trust := true, tally := true, corr := true, out := true } t) rfl).eq_repl rfl
@[simp] theorem tellBringUp_draws {t : State} (a0) : ((tellBringUp a0 t)).draws = t.draws := (tellBringUp_led _ (.refl { trust := true, tally := true, corr := true, out := true } t) rfl).eq_draws rfl
@[simp] theorem trigger_sys {t : State} (a0 a1 a2) : ((trigger a0 a1 a2 t)).sys = t.sys := (trigger_led _ _ _ (.refl { trust := true, tally := true, tt := true, corr := true, out := true } t) rfl).eq_sys rfl
@[simp] theorem trigger_pwr {t : State} (a0 a1 a2) : ((trigger a0 a1 a2 t)).pwr = t.pwr := (trigger_led _ _ _ (.refl { trust := true, tally := true, tt := true, corr := true, out := true } t) rfl).eq_pwr rfl
@[simp] theorem trigger_pins {t : State} (a0 a1 a2) : ((trigger a0 a1 a2 t)).pins = t.pins := (trigger_led _ _ _ (.refl { trust := true, tally := true, tt := true, corr := true, out := true } t) rfl).eq_pins rfl
@[simp] theorem trigger_dram {t : State} (a0 a1 a2) : ((trigger a0 a1 a2 t)).dram = t.dram := (trigger_led _ _ _ (.refl { trust := true, tally := true, tt := true, corr := true, out := true } t) rfl).eq_dram rfl
@[simp] theorem trigger_cpi {t : State} (a0 a1 a2) : ((trigger a0 a1 a2 t)).cpi = t.cpi := (trigger_led _ _ _ (.refl { trust := true, tally := true, tt := true, corr := true, out := true } t) rfl).eq_cpi rfl
@[simp] theorem trigger_diary {t : State} (a0 a1 a2) : ((trigger a0 a1 a2 t)).diary = t.diary := (trigger_led _ _ _ (.refl { trust := true, tally := true, tt := true, corr := true, out := true } t) rfl).eq_diary rfl
@[simp] theorem trigger_lanes {t : State} (a0 a1 a2) : ((trigger a0 a1 a2 t)).lanes = t.lanes := (trigger_led _ _ _ (.refl { trust := true, tally := true, tt := true, corr := true, out := true } t) rfl).eq_lanes rfl
@[simp] theorem trigger_stg {t : State} (a0 a1 a2) : ((trigger a0 a1 a2 t)).stg = t.stg := (trigger_led _ _ _ (.refl { trust := true, tally := true, tt := true, corr := true, out := true } t) rfl).eq_stg rfl
@[simp] theorem trigger_ddp {t : State} (a0 a1 a2) : ((trigger a0 a1 a2 t)).ddp = t.ddp := (trigger_led _ _ _ (.refl { trust := true, tally := true, tt := true, corr := true, out := true } t) rfl).eq_ddp rfl
@[simp] theorem trigger_ftl {t : State} (a0 a1 a2) : ((trigger a0 a1 a2 t)).ftl = t.ftl := (trigger_led _ _ _ (.refl { trust := true, tally := true, tt := true, corr := true, out := true } t) rfl).eq_ftl rfl
@[simp] theorem trigger_ec {t : State} (a0 a1 a2) : ((trigger a0 a1 a2 t)).ec = t.ec := (trigger_led _ _ _ (.refl { trust := true, tally := true, tt := true, corr := true, out := true } t) rfl).eq_ec rfl
@[simp] theorem trigger_bay {t : State} (a0 a1 a2) : ((trigger a0 a1 a2 t)).bay = t.bay := (trigger_led _ _ _ (.refl { trust := true, tally := true, tt := true, corr := true, out := true } t) rfl).eq_bay rfl
@[simp] theorem trigger_pool {t : State} (a0 a1 a2) : ((trigger a0 a1 a2 t)).pool = t.pool := (trigger_led _ _ _ (.refl { trust := true, tally := true, tt := true, corr := true, out := true } t) rfl).eq_pool rfl
@[simp] theorem trigger_saved {t : State} (a0 a1 a2) : ((trigger a0 a1 a2 t)).saved = t.saved := (trigger_led _ _ _ (.refl { trust := true, tally := true, tt := true, corr := true, out := true } t) rfl).eq_saved rfl
@[simp] theorem trigger_ciph {t : State} (a0 a1 a2) : ((trigger a0 a1 a2 t)).ciph = t.ciph := (trigger_led _ _ _ (.refl { trust := true, tally := true, tt := true, corr := true, out := true } t) rfl).eq_ciph rfl
@[simp] theorem trigger_skx {t : State} (a0 a1 a2) : ((trigger a0 a1 a2 t)).skx = t.skx := (trigger_led _ _ _ (.refl { trust := true, tally := true, tt := true, corr := true, out := true } t) rfl).eq_skx rfl
@[simp] theorem trigger_jobs {t : State} (a0 a1 a2) : ((trigger a0 a1 a2 t)).jobs = t.jobs := (trigger_led _ _ _ (.refl { trust := true, tally := true, tt := true, corr := true, out := true } t) rfl).eq_jobs rfl
@[simp] theorem trigger_hq {t : State} (a0 a1 a2) : ((trigger a0 a1 a2 t)).hq = t.hq := (trigger_led _ _ _ (.refl { trust := true, tally := true, tt := true, corr := true, out := true } t) rfl).eq_hq rfl
@[simp] theorem trigger_repl {t : State} (a0 a1 a2) : ((trigger a0 a1 a2 t)).repl = t.repl := (trigger_led _ _ _ (.refl { trust := true, tally := true, tt := true, corr := true, out := true } t) rfl).eq_repl rfl
@[simp] theorem trigger_draws {t : State} (a0 a1 a2) : ((trigger a0 a1 a2 t)).draws = t.draws := (trigger_led _ _ _ (.refl { trust := true, tally := true, tt := true, corr := true, out := true } t) rfl).eq_draws rfl
@[simp] theorem programGuard_sys {t : State} : ((programGuard t)).sys = t.sys := (programGuard_led  (.refl { dram := true } t) rfl).eq_sys rfl
@[simp] theorem programGuard_pwr {t : State} : ((programGuard t)).pwr = t.pwr := (programGuard_led  (.refl { dram := true } t) rfl).eq_pwr rfl
@[simp] theorem programGuard_pins {t : State} : ((programGuard t)).pins = t.pins := (programGuard_led  (.refl { dram := true } t) rfl).eq_pins rfl
@[simp] theorem programGuard_trust {t : State} : ((programGuard t)).trust = t.trust := (programGuard_led  (.refl { dram := true } t) rfl).eq_trust rfl
@[simp] theorem programGuard_cpi {t : State} : ((programGuard t)).cpi = t.cpi := (programGuard_led  (.refl { dram := true } t) rfl).eq_cpi rfl
@[simp] theorem programGuard_diary {t : State} : ((programGuard t)).diary = t.diary := (programGuard_led  (.refl { dram := true } t) rfl).eq_diary rfl
@[simp] theorem programGuard_tally {t : State} : ((programGuard t)).tally = t.tally := (programGuard_led  (.refl { dram := true } t) rfl).eq_tally rfl
@[simp] theorem programGuard_tt {t : State} : ((programGuard t)).tt = t.tt := (programGuard_led  (.refl { dram := true } t) rfl).eq_tt rfl
@[simp] theorem programGuard_lanes {t : State} : ((programGuard t)).lanes = t.lanes := (programGuard_led  (.refl { dram := true } t) rfl).eq_lanes rfl
@[simp] theorem programGuard_stg {t : State} : ((programGuard t)).stg = t.stg := (programGuard_led  (.refl { dram := true } t) rfl).eq_stg rfl
@[simp] theorem programGuard_ddp {t : State} : ((programGuard t)).ddp = t.ddp := (programGuard_led  (.refl { dram := true } t) rfl).eq_ddp rfl
@[simp] theorem programGuard_ftl {t : State} : ((programGuard t)).ftl = t.ftl := (programGuard_led  (.refl { dram := true } t) rfl).eq_ftl rfl
@[simp] theorem programGuard_ec {t : State} : ((programGuard t)).ec = t.ec := (programGuard_led  (.refl { dram := true } t) rfl).eq_ec rfl
@[simp] theorem programGuard_bay {t : State} : ((programGuard t)).bay = t.bay := (programGuard_led  (.refl { dram := true } t) rfl).eq_bay rfl
@[simp] theorem programGuard_pool {t : State} : ((programGuard t)).pool = t.pool := (programGuard_led  (.refl { dram := true } t) rfl).eq_pool rfl
@[simp] theorem programGuard_saved {t : State} : ((programGuard t)).saved = t.saved := (programGuard_led  (.refl { dram := true } t) rfl).eq_saved rfl
@[simp] theorem programGuard_ciph {t : State} : ((programGuard t)).ciph = t.ciph := (programGuard_led  (.refl { dram := true } t) rfl).eq_ciph rfl
@[simp] theorem programGuard_skx {t : State} : ((programGuard t)).skx = t.skx := (programGuard_led  (.refl { dram := true } t) rfl).eq_skx rfl
@[simp] theorem programGuard_jobs {t : State} : ((programGuard t)).jobs = t.jobs := (programGuard_led  (.refl { dram := true } t) rfl).eq_jobs rfl
@[simp] theorem programGuard_hq {t : State} : ((programGuard t)).hq = t.hq := (programGuard_led  (.refl { dram := true } t) rfl).eq_hq rfl
@[simp] theorem programGuard_repl {t : State} : ((programGuard t)).repl = t.repl := (programGuard_led  (.refl { dram := true } t) rfl).eq_repl rfl
@[simp] theorem programGuard_corr {t : State} : ((programGuard t)).corr = t.corr := (programGuard_led  (.refl { dram := true } t) rfl).eq_corr rfl
@[simp] theorem programGuard_out {t : State} : ((programGuard t)).out = t.out := (programGuard_led  (.refl { dram := true } t) rfl).eq_out rfl
@[simp] theorem programGuard_draws {t : State} : ((programGuard t)).draws = t.draws := (programGuard_led  (.refl { dram := true } t) rfl).eq_draws rfl
@[simp] theorem thawDiary_sys {t : State} (a0) : ((thawDiary a0 t)).sys = t.sys := (thawDiary_led _ (.refl { diary := true } t) rfl).eq_sys rfl
@[simp] theorem thawDiary_pwr {t : State} (a0) : ((thawDiary a0 t)).pwr = t.pwr := (thawDiary_led _ (.refl { diary := true } t) rfl).eq_pwr rfl
@[simp] theorem thawDiary_pins {t : State} (a0) : ((thawDiary a0 t)).pins = t.pins := (thawDiary_led _ (.refl { diary := true } t) rfl).eq_pins rfl
@[simp] theorem thawDiary_dram {t : State} (a0) : ((thawDiary a0 t)).dram = t.dram := (thawDiary_led _ (.refl { diary := true } t) rfl).eq_dram rfl
@[simp] theorem thawDiary_trust {t : State} (a0) : ((thawDiary a0 t)).trust = t.trust := (thawDiary_led _ (.refl { diary := true } t) rfl).eq_trust rfl
@[simp] theorem thawDiary_cpi {t : State} (a0) : ((thawDiary a0 t)).cpi = t.cpi := (thawDiary_led _ (.refl { diary := true } t) rfl).eq_cpi rfl
@[simp] theorem thawDiary_tally {t : State} (a0) : ((thawDiary a0 t)).tally = t.tally := (thawDiary_led _ (.refl { diary := true } t) rfl).eq_tally rfl
@[simp] theorem thawDiary_tt {t : State} (a0) : ((thawDiary a0 t)).tt = t.tt := (thawDiary_led _ (.refl { diary := true } t) rfl).eq_tt rfl
@[simp] theorem thawDiary_lanes {t : State} (a0) : ((thawDiary a0 t)).lanes = t.lanes := (thawDiary_led _ (.refl { diary := true } t) rfl).eq_lanes rfl
@[simp] theorem thawDiary_stg {t : State} (a0) : ((thawDiary a0 t)).stg = t.stg := (thawDiary_led _ (.refl { diary := true } t) rfl).eq_stg rfl
@[simp] theorem thawDiary_ddp {t : State} (a0) : ((thawDiary a0 t)).ddp = t.ddp := (thawDiary_led _ (.refl { diary := true } t) rfl).eq_ddp rfl
@[simp] theorem thawDiary_ftl {t : State} (a0) : ((thawDiary a0 t)).ftl = t.ftl := (thawDiary_led _ (.refl { diary := true } t) rfl).eq_ftl rfl
@[simp] theorem thawDiary_ec {t : State} (a0) : ((thawDiary a0 t)).ec = t.ec := (thawDiary_led _ (.refl { diary := true } t) rfl).eq_ec rfl
@[simp] theorem thawDiary_bay {t : State} (a0) : ((thawDiary a0 t)).bay = t.bay := (thawDiary_led _ (.refl { diary := true } t) rfl).eq_bay rfl
@[simp] theorem thawDiary_pool {t : State} (a0) : ((thawDiary a0 t)).pool = t.pool := (thawDiary_led _ (.refl { diary := true } t) rfl).eq_pool rfl
@[simp] theorem thawDiary_saved {t : State} (a0) : ((thawDiary a0 t)).saved = t.saved := (thawDiary_led _ (.refl { diary := true } t) rfl).eq_saved rfl
@[simp] theorem thawDiary_ciph {t : State} (a0) : ((thawDiary a0 t)).ciph = t.ciph := (thawDiary_led _ (.refl { diary := true } t) rfl).eq_ciph rfl
@[simp] theorem thawDiary_skx {t : State} (a0) : ((thawDiary a0 t)).skx = t.skx := (thawDiary_led _ (.refl { diary := true } t) rfl).eq_skx rfl
@[simp] theorem thawDiary_jobs {t : State} (a0) : ((thawDiary a0 t)).jobs = t.jobs := (thawDiary_led _ (.refl { diary := true } t) rfl).eq_jobs rfl
@[simp] theorem thawDiary_hq {t : State} (a0) : ((thawDiary a0 t)).hq = t.hq := (thawDiary_led _ (.refl { diary := true } t) rfl).eq_hq rfl
@[simp] theorem thawDiary_repl {t : State} (a0) : ((thawDiary a0 t)).repl = t.repl := (thawDiary_led _ (.refl { diary := true } t) rfl).eq_repl rfl
@[simp] theorem thawDiary_corr {t : State} (a0) : ((thawDiary a0 t)).corr = t.corr := (thawDiary_led _ (.refl { diary := true } t) rfl).eq_corr rfl
@[simp] theorem thawDiary_out {t : State} (a0) : ((thawDiary a0 t)).out = t.out := (thawDiary_led _ (.refl { diary := true } t) rfl).eq_out rfl
@[simp] theorem thawDiary_draws {t : State} (a0) : ((thawDiary a0 t)).draws = t.draws := (thawDiary_led _ (.refl { diary := true } t) rfl).eq_draws rfl
@[simp] theorem leaveForVault_sys {t : State} (a0) : ((leaveForVault a0 t)).sys = t.sys := (leaveForVault_led _ (.refl { tally := true, stg := true, hq := true } t) rfl).eq_sys rfl
@[simp] theorem leaveForVault_pwr {t : State} (a0) : ((leaveForVault a0 t)).pwr = t.pwr := (leaveForVault_led _ (.refl { tally := true, stg := true, hq := true } t) rfl).eq_pwr rfl
@[simp] theorem leaveForVault_pins {t : State} (a0) : ((leaveForVault a0 t)).pins = t.pins := (leaveForVault_led _ (.refl { tally := true, stg := true, hq := true } t) rfl).eq_pins rfl
@[simp] theorem leaveForVault_dram {t : State} (a0) : ((leaveForVault a0 t)).dram = t.dram := (leaveForVault_led _ (.refl { tally := true, stg := true, hq := true } t) rfl).eq_dram rfl
@[simp] theorem leaveForVault_trust {t : State} (a0) : ((leaveForVault a0 t)).trust = t.trust := (leaveForVault_led _ (.refl { tally := true, stg := true, hq := true } t) rfl).eq_trust rfl
@[simp] theorem leaveForVault_cpi {t : State} (a0) : ((leaveForVault a0 t)).cpi = t.cpi := (leaveForVault_led _ (.refl { tally := true, stg := true, hq := true } t) rfl).eq_cpi rfl
@[simp] theorem leaveForVault_diary {t : State} (a0) : ((leaveForVault a0 t)).diary = t.diary := (leaveForVault_led _ (.refl { tally := true, stg := true, hq := true } t) rfl).eq_diary rfl
@[simp] theorem leaveForVault_tt {t : State} (a0) : ((leaveForVault a0 t)).tt = t.tt := (leaveForVault_led _ (.refl { tally := true, stg := true, hq := true } t) rfl).eq_tt rfl
@[simp] theorem leaveForVault_lanes {t : State} (a0) : ((leaveForVault a0 t)).lanes = t.lanes := (leaveForVault_led _ (.refl { tally := true, stg := true, hq := true } t) rfl).eq_lanes rfl
@[simp] theorem leaveForVault_ddp {t : State} (a0) : ((leaveForVault a0 t)).ddp = t.ddp := (leaveForVault_led _ (.refl { tally := true, stg := true, hq := true } t) rfl).eq_ddp rfl
@[simp] theorem leaveForVault_ftl {t : State} (a0) : ((leaveForVault a0 t)).ftl = t.ftl := (leaveForVault_led _ (.refl { tally := true, stg := true, hq := true } t) rfl).eq_ftl rfl
@[simp] theorem leaveForVault_ec {t : State} (a0) : ((leaveForVault a0 t)).ec = t.ec := (leaveForVault_led _ (.refl { tally := true, stg := true, hq := true } t) rfl).eq_ec rfl
@[simp] theorem leaveForVault_bay {t : State} (a0) : ((leaveForVault a0 t)).bay = t.bay := (leaveForVault_led _ (.refl { tally := true, stg := true, hq := true } t) rfl).eq_bay rfl
@[simp] theorem leaveForVault_pool {t : State} (a0) : ((leaveForVault a0 t)).pool = t.pool := (leaveForVault_led _ (.refl { tally := true, stg := true, hq := true } t) rfl).eq_pool rfl
@[simp] theorem leaveForVault_saved {t : State} (a0) : ((leaveForVault a0 t)).saved = t.saved := (leaveForVault_led _ (.refl { tally := true, stg := true, hq := true } t) rfl).eq_saved rfl
@[simp] theorem leaveForVault_ciph {t : State} (a0) : ((leaveForVault a0 t)).ciph = t.ciph := (leaveForVault_led _ (.refl { tally := true, stg := true, hq := true } t) rfl).eq_ciph rfl
@[simp] theorem leaveForVault_skx {t : State} (a0) : ((leaveForVault a0 t)).skx = t.skx := (leaveForVault_led _ (.refl { tally := true, stg := true, hq := true } t) rfl).eq_skx rfl
@[simp] theorem leaveForVault_jobs {t : State} (a0) : ((leaveForVault a0 t)).jobs = t.jobs := (leaveForVault_led _ (.refl { tally := true, stg := true, hq := true } t) rfl).eq_jobs rfl
@[simp] theorem leaveForVault_repl {t : State} (a0) : ((leaveForVault a0 t)).repl = t.repl := (leaveForVault_led _ (.refl { tally := true, stg := true, hq := true } t) rfl).eq_repl rfl
@[simp] theorem leaveForVault_corr {t : State} (a0) : ((leaveForVault a0 t)).corr = t.corr := (leaveForVault_led _ (.refl { tally := true, stg := true, hq := true } t) rfl).eq_corr rfl
@[simp] theorem leaveForVault_out {t : State} (a0) : ((leaveForVault a0 t)).out = t.out := (leaveForVault_led _ (.refl { tally := true, stg := true, hq := true } t) rfl).eq_out rfl
@[simp] theorem leaveForVault_draws {t : State} (a0) : ((leaveForVault a0 t)).draws = t.draws := (leaveForVault_led _ (.refl { tally := true, stg := true, hq := true } t) rfl).eq_draws rfl
@[simp] theorem raiseCounter_sys {t : State} (a0) : ((raiseCounter a0 t)).sys = t.sys := (raiseCounter_led _ (.refl { trust := true } t) rfl).eq_sys rfl
@[simp] theorem raiseCounter_pwr {t : State} (a0) : ((raiseCounter a0 t)).pwr = t.pwr := (raiseCounter_led _ (.refl { trust := true } t) rfl).eq_pwr rfl
@[simp] theorem raiseCounter_pins {t : State} (a0) : ((raiseCounter a0 t)).pins = t.pins := (raiseCounter_led _ (.refl { trust := true } t) rfl).eq_pins rfl
@[simp] theorem raiseCounter_dram {t : State} (a0) : ((raiseCounter a0 t)).dram = t.dram := (raiseCounter_led _ (.refl { trust := true } t) rfl).eq_dram rfl
@[simp] theorem raiseCounter_cpi {t : State} (a0) : ((raiseCounter a0 t)).cpi = t.cpi := (raiseCounter_led _ (.refl { trust := true } t) rfl).eq_cpi rfl
@[simp] theorem raiseCounter_diary {t : State} (a0) : ((raiseCounter a0 t)).diary = t.diary := (raiseCounter_led _ (.refl { trust := true } t) rfl).eq_diary rfl
@[simp] theorem raiseCounter_tally {t : State} (a0) : ((raiseCounter a0 t)).tally = t.tally := (raiseCounter_led _ (.refl { trust := true } t) rfl).eq_tally rfl
@[simp] theorem raiseCounter_tt {t : State} (a0) : ((raiseCounter a0 t)).tt = t.tt := (raiseCounter_led _ (.refl { trust := true } t) rfl).eq_tt rfl
@[simp] theorem raiseCounter_lanes {t : State} (a0) : ((raiseCounter a0 t)).lanes = t.lanes := (raiseCounter_led _ (.refl { trust := true } t) rfl).eq_lanes rfl
@[simp] theorem raiseCounter_stg {t : State} (a0) : ((raiseCounter a0 t)).stg = t.stg := (raiseCounter_led _ (.refl { trust := true } t) rfl).eq_stg rfl
@[simp] theorem raiseCounter_ddp {t : State} (a0) : ((raiseCounter a0 t)).ddp = t.ddp := (raiseCounter_led _ (.refl { trust := true } t) rfl).eq_ddp rfl
@[simp] theorem raiseCounter_ftl {t : State} (a0) : ((raiseCounter a0 t)).ftl = t.ftl := (raiseCounter_led _ (.refl { trust := true } t) rfl).eq_ftl rfl
@[simp] theorem raiseCounter_ec {t : State} (a0) : ((raiseCounter a0 t)).ec = t.ec := (raiseCounter_led _ (.refl { trust := true } t) rfl).eq_ec rfl
@[simp] theorem raiseCounter_bay {t : State} (a0) : ((raiseCounter a0 t)).bay = t.bay := (raiseCounter_led _ (.refl { trust := true } t) rfl).eq_bay rfl
@[simp] theorem raiseCounter_pool {t : State} (a0) : ((raiseCounter a0 t)).pool = t.pool := (raiseCounter_led _ (.refl { trust := true } t) rfl).eq_pool rfl
@[simp] theorem raiseCounter_saved {t : State} (a0) : ((raiseCounter a0 t)).saved = t.saved := (raiseCounter_led _ (.refl { trust := true } t) rfl).eq_saved rfl
@[simp] theorem raiseCounter_ciph {t : State} (a0) : ((raiseCounter a0 t)).ciph = t.ciph := (raiseCounter_led _ (.refl { trust := true } t) rfl).eq_ciph rfl
@[simp] theorem raiseCounter_skx {t : State} (a0) : ((raiseCounter a0 t)).skx = t.skx := (raiseCounter_led _ (.refl { trust := true } t) rfl).eq_skx rfl
@[simp] theorem raiseCounter_jobs {t : State} (a0) : ((raiseCounter a0 t)).jobs = t.jobs := (raiseCounter_led _ (.refl { trust := true } t) rfl).eq_jobs rfl
@[simp] theorem raiseCounter_hq {t : State} (a0) : ((raiseCounter a0 t)).hq = t.hq := (raiseCounter_led _ (.refl { trust := true } t) rfl).eq_hq rfl
@[simp] theorem raiseCounter_repl {t : State} (a0) : ((raiseCounter a0 t)).repl = t.repl := (raiseCounter_led _ (.refl { trust := true } t) rfl).eq_repl rfl
@[simp] theorem raiseCounter_corr {t : State} (a0) : ((raiseCounter a0 t)).corr = t.corr := (raiseCounter_led _ (.refl { trust := true } t) rfl).eq_corr rfl
@[simp] theorem raiseCounter_out {t : State} (a0) : ((raiseCounter a0 t)).out = t.out := (raiseCounter_led _ (.refl { trust := true } t) rfl).eq_out rfl
@[simp] theorem raiseCounter_draws {t : State} (a0) : ((raiseCounter a0 t)).draws = t.draws := (raiseCounter_led _ (.refl { trust := true } t) rfl).eq_draws rfl
@[simp] theorem setFwSlot_sys {t : State} (a0 a1) : ((setFwSlot a0 a1 t)).sys = t.sys := (setFwSlot_led _ _ (.refl { trust := true } t) rfl).eq_sys rfl
@[simp] theorem setFwSlot_pwr {t : State} (a0 a1) : ((setFwSlot a0 a1 t)).pwr = t.pwr := (setFwSlot_led _ _ (.refl { trust := true } t) rfl).eq_pwr rfl
@[simp] theorem setFwSlot_pins {t : State} (a0 a1) : ((setFwSlot a0 a1 t)).pins = t.pins := (setFwSlot_led _ _ (.refl { trust := true } t) rfl).eq_pins rfl
@[simp] theorem setFwSlot_dram {t : State} (a0 a1) : ((setFwSlot a0 a1 t)).dram = t.dram := (setFwSlot_led _ _ (.refl { trust := true } t) rfl).eq_dram rfl
@[simp] theorem setFwSlot_cpi {t : State} (a0 a1) : ((setFwSlot a0 a1 t)).cpi = t.cpi := (setFwSlot_led _ _ (.refl { trust := true } t) rfl).eq_cpi rfl
@[simp] theorem setFwSlot_diary {t : State} (a0 a1) : ((setFwSlot a0 a1 t)).diary = t.diary := (setFwSlot_led _ _ (.refl { trust := true } t) rfl).eq_diary rfl
@[simp] theorem setFwSlot_tally {t : State} (a0 a1) : ((setFwSlot a0 a1 t)).tally = t.tally := (setFwSlot_led _ _ (.refl { trust := true } t) rfl).eq_tally rfl
@[simp] theorem setFwSlot_tt {t : State} (a0 a1) : ((setFwSlot a0 a1 t)).tt = t.tt := (setFwSlot_led _ _ (.refl { trust := true } t) rfl).eq_tt rfl
@[simp] theorem setFwSlot_lanes {t : State} (a0 a1) : ((setFwSlot a0 a1 t)).lanes = t.lanes := (setFwSlot_led _ _ (.refl { trust := true } t) rfl).eq_lanes rfl
@[simp] theorem setFwSlot_stg {t : State} (a0 a1) : ((setFwSlot a0 a1 t)).stg = t.stg := (setFwSlot_led _ _ (.refl { trust := true } t) rfl).eq_stg rfl
@[simp] theorem setFwSlot_ddp {t : State} (a0 a1) : ((setFwSlot a0 a1 t)).ddp = t.ddp := (setFwSlot_led _ _ (.refl { trust := true } t) rfl).eq_ddp rfl
@[simp] theorem setFwSlot_ftl {t : State} (a0 a1) : ((setFwSlot a0 a1 t)).ftl = t.ftl := (setFwSlot_led _ _ (.refl { trust := true } t) rfl).eq_ftl rfl
@[simp] theorem setFwSlot_ec {t : State} (a0 a1) : ((setFwSlot a0 a1 t)).ec = t.ec := (setFwSlot_led _ _ (.refl { trust := true } t) rfl).eq_ec rfl
@[simp] theorem setFwSlot_bay {t : State} (a0 a1) : ((setFwSlot a0 a1 t)).bay = t.bay := (setFwSlot_led _ _ (.refl { trust := true } t) rfl).eq_bay rfl
@[simp] theorem setFwSlot_pool {t : State} (a0 a1) : ((setFwSlot a0 a1 t)).pool = t.pool := (setFwSlot_led _ _ (.refl { trust := true } t) rfl).eq_pool rfl
@[simp] theorem setFwSlot_saved {t : State} (a0 a1) : ((setFwSlot a0 a1 t)).saved = t.saved := (setFwSlot_led _ _ (.refl { trust := true } t) rfl).eq_saved rfl
@[simp] theorem setFwSlot_ciph {t : State} (a0 a1) : ((setFwSlot a0 a1 t)).ciph = t.ciph := (setFwSlot_led _ _ (.refl { trust := true } t) rfl).eq_ciph rfl
@[simp] theorem setFwSlot_skx {t : State} (a0 a1) : ((setFwSlot a0 a1 t)).skx = t.skx := (setFwSlot_led _ _ (.refl { trust := true } t) rfl).eq_skx rfl
@[simp] theorem setFwSlot_jobs {t : State} (a0 a1) : ((setFwSlot a0 a1 t)).jobs = t.jobs := (setFwSlot_led _ _ (.refl { trust := true } t) rfl).eq_jobs rfl
@[simp] theorem setFwSlot_hq {t : State} (a0 a1) : ((setFwSlot a0 a1 t)).hq = t.hq := (setFwSlot_led _ _ (.refl { trust := true } t) rfl).eq_hq rfl
@[simp] theorem setFwSlot_repl {t : State} (a0 a1) : ((setFwSlot a0 a1 t)).repl = t.repl := (setFwSlot_led _ _ (.refl { trust := true } t) rfl).eq_repl rfl
@[simp] theorem setFwSlot_corr {t : State} (a0 a1) : ((setFwSlot a0 a1 t)).corr = t.corr := (setFwSlot_led _ _ (.refl { trust := true } t) rfl).eq_corr rfl
@[simp] theorem setFwSlot_out {t : State} (a0 a1) : ((setFwSlot a0 a1 t)).out = t.out := (setFwSlot_led _ _ (.refl { trust := true } t) rfl).eq_out rfl
@[simp] theorem setFwSlot_draws {t : State} (a0 a1) : ((setFwSlot a0 a1 t)).draws = t.draws := (setFwSlot_led _ _ (.refl { trust := true } t) rfl).eq_draws rfl
@[simp] theorem countActivation_sys {t : State} (a0) : ((countActivation a0 t)).sys = t.sys := (countActivation_led _ (.refl { trust := true } t) rfl).eq_sys rfl
@[simp] theorem countActivation_pwr {t : State} (a0) : ((countActivation a0 t)).pwr = t.pwr := (countActivation_led _ (.refl { trust := true } t) rfl).eq_pwr rfl
@[simp] theorem countActivation_pins {t : State} (a0) : ((countActivation a0 t)).pins = t.pins := (countActivation_led _ (.refl { trust := true } t) rfl).eq_pins rfl
@[simp] theorem countActivation_dram {t : State} (a0) : ((countActivation a0 t)).dram = t.dram := (countActivation_led _ (.refl { trust := true } t) rfl).eq_dram rfl
@[simp] theorem countActivation_cpi {t : State} (a0) : ((countActivation a0 t)).cpi = t.cpi := (countActivation_led _ (.refl { trust := true } t) rfl).eq_cpi rfl
@[simp] theorem countActivation_diary {t : State} (a0) : ((countActivation a0 t)).diary = t.diary := (countActivation_led _ (.refl { trust := true } t) rfl).eq_diary rfl
@[simp] theorem countActivation_tally {t : State} (a0) : ((countActivation a0 t)).tally = t.tally := (countActivation_led _ (.refl { trust := true } t) rfl).eq_tally rfl
@[simp] theorem countActivation_tt {t : State} (a0) : ((countActivation a0 t)).tt = t.tt := (countActivation_led _ (.refl { trust := true } t) rfl).eq_tt rfl
@[simp] theorem countActivation_lanes {t : State} (a0) : ((countActivation a0 t)).lanes = t.lanes := (countActivation_led _ (.refl { trust := true } t) rfl).eq_lanes rfl
@[simp] theorem countActivation_stg {t : State} (a0) : ((countActivation a0 t)).stg = t.stg := (countActivation_led _ (.refl { trust := true } t) rfl).eq_stg rfl
@[simp] theorem countActivation_ddp {t : State} (a0) : ((countActivation a0 t)).ddp = t.ddp := (countActivation_led _ (.refl { trust := true } t) rfl).eq_ddp rfl
@[simp] theorem countActivation_ftl {t : State} (a0) : ((countActivation a0 t)).ftl = t.ftl := (countActivation_led _ (.refl { trust := true } t) rfl).eq_ftl rfl
@[simp] theorem countActivation_ec {t : State} (a0) : ((countActivation a0 t)).ec = t.ec := (countActivation_led _ (.refl { trust := true } t) rfl).eq_ec rfl
@[simp] theorem countActivation_bay {t : State} (a0) : ((countActivation a0 t)).bay = t.bay := (countActivation_led _ (.refl { trust := true } t) rfl).eq_bay rfl
@[simp] theorem countActivation_pool {t : State} (a0) : ((countActivation a0 t)).pool = t.pool := (countActivation_led _ (.refl { trust := true } t) rfl).eq_pool rfl
@[simp] theorem countActivation_saved {t : State} (a0) : ((countActivation a0 t)).saved = t.saved := (countActivation_led _ (.refl { trust := true } t) rfl).eq_saved rfl
@[simp] theorem countActivation_ciph {t : State} (a0) : ((countActivation a0 t)).ciph = t.ciph := (countActivation_led _ (.refl { trust := true } t) rfl).eq_ciph rfl
@[simp] theorem countActivation_skx {t : State} (a0) : ((countActivation a0 t)).skx = t.skx := (countActivation_led _ (.refl { trust := true } t) rfl).eq_skx rfl
@[simp] theorem countActivation_jobs {t : State} (a0) : ((countActivation a0 t)).jobs = t.jobs := (countActivation_led _ (.refl { trust := true } t) rfl).eq_jobs rfl
@[simp] theorem countActivation_hq {t : State} (a0) : ((countActivation a0 t)).hq = t.hq := (countActivation_led _ (.refl { trust := true } t) rfl).eq_hq rfl
@[simp] theorem countActivation_repl {t : State} (a0) : ((countActivation a0 t)).repl = t.repl := (countActivation_led _ (.refl { trust := true } t) rfl).eq_repl rfl
@[simp] theorem countActivation_corr {t : State} (a0) : ((countActivation a0 t)).corr = t.corr := (countActivation_led _ (.refl { trust := true } t) rfl).eq_corr rfl
@[simp] theorem countActivation_out {t : State} (a0) : ((countActivation a0 t)).out = t.out := (countActivation_led _ (.refl { trust := true } t) rfl).eq_out rfl
@[simp] theorem countActivation_draws {t : State} (a0) : ((countActivation a0 t)).draws = t.draws := (countActivation_led _ (.refl { trust := true } t) rfl).eq_draws rfl
@[simp] theorem adminFetched_sys {t : State} (a0) : ((adminFetched a0 t)).sys = t.sys := (adminFetched_led _ (.refl { hq := true } t) rfl).eq_sys rfl
@[simp] theorem adminFetched_pwr {t : State} (a0) : ((adminFetched a0 t)).pwr = t.pwr := (adminFetched_led _ (.refl { hq := true } t) rfl).eq_pwr rfl
@[simp] theorem adminFetched_pins {t : State} (a0) : ((adminFetched a0 t)).pins = t.pins := (adminFetched_led _ (.refl { hq := true } t) rfl).eq_pins rfl
@[simp] theorem adminFetched_dram {t : State} (a0) : ((adminFetched a0 t)).dram = t.dram := (adminFetched_led _ (.refl { hq := true } t) rfl).eq_dram rfl
@[simp] theorem adminFetched_trust {t : State} (a0) : ((adminFetched a0 t)).trust = t.trust := (adminFetched_led _ (.refl { hq := true } t) rfl).eq_trust rfl
@[simp] theorem adminFetched_cpi {t : State} (a0) : ((adminFetched a0 t)).cpi = t.cpi := (adminFetched_led _ (.refl { hq := true } t) rfl).eq_cpi rfl
@[simp] theorem adminFetched_diary {t : State} (a0) : ((adminFetched a0 t)).diary = t.diary := (adminFetched_led _ (.refl { hq := true } t) rfl).eq_diary rfl
@[simp] theorem adminFetched_tally {t : State} (a0) : ((adminFetched a0 t)).tally = t.tally := (adminFetched_led _ (.refl { hq := true } t) rfl).eq_tally rfl
@[simp] theorem adminFetched_tt {t : State} (a0) : ((adminFetched a0 t)).tt = t.tt := (adminFetched_led _ (.refl { hq := true } t) rfl).eq_tt rfl
@[simp] theorem adminFetched_lanes {t : State} (a0) : ((adminFetched a0 t)).lanes = t.lanes := (adminFetched_led _ (.refl { hq := true } t) rfl).eq_lanes rfl
@[simp] theorem adminFetched_stg {t : State} (a0) : ((adminFetched a0 t)).stg = t.stg := (adminFetched_led _ (.refl { hq := true } t) rfl).eq_stg rfl
@[simp] theorem adminFetched_ddp {t : State} (a0) : ((adminFetched a0 t)).ddp = t.ddp := (adminFetched_led _ (.refl { hq := true } t) rfl).eq_ddp rfl
@[simp] theorem adminFetched_ftl {t : State} (a0) : ((adminFetched a0 t)).ftl = t.ftl := (adminFetched_led _ (.refl { hq := true } t) rfl).eq_ftl rfl
@[simp] theorem adminFetched_ec {t : State} (a0) : ((adminFetched a0 t)).ec = t.ec := (adminFetched_led _ (.refl { hq := true } t) rfl).eq_ec rfl
@[simp] theorem adminFetched_bay {t : State} (a0) : ((adminFetched a0 t)).bay = t.bay := (adminFetched_led _ (.refl { hq := true } t) rfl).eq_bay rfl
@[simp] theorem adminFetched_pool {t : State} (a0) : ((adminFetched a0 t)).pool = t.pool := (adminFetched_led _ (.refl { hq := true } t) rfl).eq_pool rfl
@[simp] theorem adminFetched_saved {t : State} (a0) : ((adminFetched a0 t)).saved = t.saved := (adminFetched_led _ (.refl { hq := true } t) rfl).eq_saved rfl
@[simp] theorem adminFetched_ciph {t : State} (a0) : ((adminFetched a0 t)).ciph = t.ciph := (adminFetched_led _ (.refl { hq := true } t) rfl).eq_ciph rfl
@[simp] theorem adminFetched_skx {t : State} (a0) : ((adminFetched a0 t)).skx = t.skx := (adminFetched_led _ (.refl { hq := true } t) rfl).eq_skx rfl
@[simp] theorem adminFetched_jobs {t : State} (a0) : ((adminFetched a0 t)).jobs = t.jobs := (adminFetched_led _ (.refl { hq := true } t) rfl).eq_jobs rfl
@[simp] theorem adminFetched_repl {t : State} (a0) : ((adminFetched a0 t)).repl = t.repl := (adminFetched_led _ (.refl { hq := true } t) rfl).eq_repl rfl
@[simp] theorem adminFetched_corr {t : State} (a0) : ((adminFetched a0 t)).corr = t.corr := (adminFetched_led _ (.refl { hq := true } t) rfl).eq_corr rfl
@[simp] theorem adminFetched_out {t : State} (a0) : ((adminFetched a0 t)).out = t.out := (adminFetched_led _ (.refl { hq := true } t) rfl).eq_out rfl
@[simp] theorem adminFetched_draws {t : State} (a0) : ((adminFetched a0 t)).draws = t.draws := (adminFetched_led _ (.refl { hq := true } t) rfl).eq_draws rfl
@[simp] theorem runPrefect_sys {t : State} (a0 a1) : ((runPrefect a0 a1 t)).sys = t.sys := (runPrefect_led _ _ (.refl { trust := true, tally := true, ciph := true } t) rfl).eq_sys rfl
@[simp] theorem runPrefect_pwr {t : State} (a0 a1) : ((runPrefect a0 a1 t)).pwr = t.pwr := (runPrefect_led _ _ (.refl { trust := true, tally := true, ciph := true } t) rfl).eq_pwr rfl
@[simp] theorem runPrefect_pins {t : State} (a0 a1) : ((runPrefect a0 a1 t)).pins = t.pins := (runPrefect_led _ _ (.refl { trust := true, tally := true, ciph := true } t) rfl).eq_pins rfl
@[simp] theorem runPrefect_dram {t : State} (a0 a1) : ((runPrefect a0 a1 t)).dram = t.dram := (runPrefect_led _ _ (.refl { trust := true, tally := true, ciph := true } t) rfl).eq_dram rfl
@[simp] theorem runPrefect_cpi {t : State} (a0 a1) : ((runPrefect a0 a1 t)).cpi = t.cpi := (runPrefect_led _ _ (.refl { trust := true, tally := true, ciph := true } t) rfl).eq_cpi rfl
@[simp] theorem runPrefect_diary {t : State} (a0 a1) : ((runPrefect a0 a1 t)).diary = t.diary := (runPrefect_led _ _ (.refl { trust := true, tally := true, ciph := true } t) rfl).eq_diary rfl
@[simp] theorem runPrefect_tt {t : State} (a0 a1) : ((runPrefect a0 a1 t)).tt = t.tt := (runPrefect_led _ _ (.refl { trust := true, tally := true, ciph := true } t) rfl).eq_tt rfl
@[simp] theorem runPrefect_lanes {t : State} (a0 a1) : ((runPrefect a0 a1 t)).lanes = t.lanes := (runPrefect_led _ _ (.refl { trust := true, tally := true, ciph := true } t) rfl).eq_lanes rfl
@[simp] theorem runPrefect_stg {t : State} (a0 a1) : ((runPrefect a0 a1 t)).stg = t.stg := (runPrefect_led _ _ (.refl { trust := true, tally := true, ciph := true } t) rfl).eq_stg rfl
@[simp] theorem runPrefect_ddp {t : State} (a0 a1) : ((runPrefect a0 a1 t)).ddp = t.ddp := (runPrefect_led _ _ (.refl { trust := true, tally := true, ciph := true } t) rfl).eq_ddp rfl
@[simp] theorem runPrefect_ftl {t : State} (a0 a1) : ((runPrefect a0 a1 t)).ftl = t.ftl := (runPrefect_led _ _ (.refl { trust := true, tally := true, ciph := true } t) rfl).eq_ftl rfl
@[simp] theorem runPrefect_ec {t : State} (a0 a1) : ((runPrefect a0 a1 t)).ec = t.ec := (runPrefect_led _ _ (.refl { trust := true, tally := true, ciph := true } t) rfl).eq_ec rfl
@[simp] theorem runPrefect_bay {t : State} (a0 a1) : ((runPrefect a0 a1 t)).bay = t.bay := (runPrefect_led _ _ (.refl { trust := true, tally := true, ciph := true } t) rfl).eq_bay rfl
@[simp] theorem runPrefect_pool {t : State} (a0 a1) : ((runPrefect a0 a1 t)).pool = t.pool := (runPrefect_led _ _ (.refl { trust := true, tally := true, ciph := true } t) rfl).eq_pool rfl
@[simp] theorem runPrefect_saved {t : State} (a0 a1) : ((runPrefect a0 a1 t)).saved = t.saved := (runPrefect_led _ _ (.refl { trust := true, tally := true, ciph := true } t) rfl).eq_saved rfl
@[simp] theorem runPrefect_skx {t : State} (a0 a1) : ((runPrefect a0 a1 t)).skx = t.skx := (runPrefect_led _ _ (.refl { trust := true, tally := true, ciph := true } t) rfl).eq_skx rfl
@[simp] theorem runPrefect_jobs {t : State} (a0 a1) : ((runPrefect a0 a1 t)).jobs = t.jobs := (runPrefect_led _ _ (.refl { trust := true, tally := true, ciph := true } t) rfl).eq_jobs rfl
@[simp] theorem runPrefect_hq {t : State} (a0 a1) : ((runPrefect a0 a1 t)).hq = t.hq := (runPrefect_led _ _ (.refl { trust := true, tally := true, ciph := true } t) rfl).eq_hq rfl
@[simp] theorem runPrefect_repl {t : State} (a0 a1) : ((runPrefect a0 a1 t)).repl = t.repl := (runPrefect_led _ _ (.refl { trust := true, tally := true, ciph := true } t) rfl).eq_repl rfl
@[simp] theorem runPrefect_corr {t : State} (a0 a1) : ((runPrefect a0 a1 t)).corr = t.corr := (runPrefect_led _ _ (.refl { trust := true, tally := true, ciph := true } t) rfl).eq_corr rfl
@[simp] theorem runPrefect_out {t : State} (a0 a1) : ((runPrefect a0 a1 t)).out = t.out := (runPrefect_led _ _ (.refl { trust := true, tally := true, ciph := true } t) rfl).eq_out rfl
@[simp] theorem runPrefect_draws {t : State} (a0 a1) : ((runPrefect a0 a1 t)).draws = t.draws := (runPrefect_led _ _ (.refl { trust := true, tally := true, ciph := true } t) rfl).eq_draws rfl
@[simp] theorem sendToken_sys {t : State} : ((sendToken t)).sys = t.sys := (sendToken_led  (.refl { out := true, draws := true } t) rfl).eq_sys rfl
@[simp] theorem sendToken_pwr {t : State} : ((sendToken t)).pwr = t.pwr := (sendToken_led  (.refl { out := true, draws := true } t) rfl).eq_pwr rfl
@[simp] theorem sendToken_pins {t : State} : ((sendToken t)).pins = t.pins := (sendToken_led  (.refl { out := true, draws := true } t) rfl).eq_pins rfl
@[simp] theorem sendToken_dram {t : State} : ((sendToken t)).dram = t.dram := (sendToken_led  (.refl { out := true, draws := true } t) rfl).eq_dram rfl
@[simp] theorem sendToken_trust {t : State} : ((sendToken t)).trust = t.trust := (sendToken_led  (.refl { out := true, draws := true } t) rfl).eq_trust rfl
@[simp] theorem sendToken_cpi {t : State} : ((sendToken t)).cpi = t.cpi := (sendToken_led  (.refl { out := true, draws := true } t) rfl).eq_cpi rfl
@[simp] theorem sendToken_diary {t : State} : ((sendToken t)).diary = t.diary := (sendToken_led  (.refl { out := true, draws := true } t) rfl).eq_diary rfl
@[simp] theorem sendToken_tally {t : State} : ((sendToken t)).tally = t.tally := (sendToken_led  (.refl { out := true, draws := true } t) rfl).eq_tally rfl
@[simp] theorem sendToken_tt {t : State} : ((sendToken t)).tt = t.tt := (sendToken_led  (.refl { out := true, draws := true } t) rfl).eq_tt rfl
@[simp] theorem sendToken_lanes {t : State} : ((sendToken t)).lanes = t.lanes := (sendToken_led  (.refl { out := true, draws := true } t) rfl).eq_lanes rfl
@[simp] theorem sendToken_stg {t : State} : ((sendToken t)).stg = t.stg := (sendToken_led  (.refl { out := true, draws := true } t) rfl).eq_stg rfl
@[simp] theorem sendToken_ddp {t : State} : ((sendToken t)).ddp = t.ddp := (sendToken_led  (.refl { out := true, draws := true } t) rfl).eq_ddp rfl
@[simp] theorem sendToken_ftl {t : State} : ((sendToken t)).ftl = t.ftl := (sendToken_led  (.refl { out := true, draws := true } t) rfl).eq_ftl rfl
@[simp] theorem sendToken_ec {t : State} : ((sendToken t)).ec = t.ec := (sendToken_led  (.refl { out := true, draws := true } t) rfl).eq_ec rfl
@[simp] theorem sendToken_bay {t : State} : ((sendToken t)).bay = t.bay := (sendToken_led  (.refl { out := true, draws := true } t) rfl).eq_bay rfl
@[simp] theorem sendToken_pool {t : State} : ((sendToken t)).pool = t.pool := (sendToken_led  (.refl { out := true, draws := true } t) rfl).eq_pool rfl
@[simp] theorem sendToken_saved {t : State} : ((sendToken t)).saved = t.saved := (sendToken_led  (.refl { out := true, draws := true } t) rfl).eq_saved rfl
@[simp] theorem sendToken_ciph {t : State} : ((sendToken t)).ciph = t.ciph := (sendToken_led  (.refl { out := true, draws := true } t) rfl).eq_ciph rfl
@[simp] theorem sendToken_skx {t : State} : ((sendToken t)).skx = t.skx := (sendToken_led  (.refl { out := true, draws := true } t) rfl).eq_skx rfl
@[simp] theorem sendToken_jobs {t : State} : ((sendToken t)).jobs = t.jobs := (sendToken_led  (.refl { out := true, draws := true } t) rfl).eq_jobs rfl
@[simp] theorem sendToken_hq {t : State} : ((sendToken t)).hq = t.hq := (sendToken_led  (.refl { out := true, draws := true } t) rfl).eq_hq rfl
@[simp] theorem sendToken_repl {t : State} : ((sendToken t)).repl = t.repl := (sendToken_led  (.refl { out := true, draws := true } t) rfl).eq_repl rfl
@[simp] theorem sendToken_corr {t : State} : ((sendToken t)).corr = t.corr := (sendToken_led  (.refl { out := true, draws := true } t) rfl).eq_corr rfl
@[simp] theorem presumeDown_sys {t : State} (a0) : ((presumeDown a0 t)).sys = t.sys := (presumeDown_led _ (.refl { trust := true, cpi := true, diary := true, tally := true, tt := true, bay := true, hq := true, corr := true, out := true } t) rfl).eq_sys rfl
@[simp] theorem presumeDown_pwr {t : State} (a0) : ((presumeDown a0 t)).pwr = t.pwr := (presumeDown_led _ (.refl { trust := true, cpi := true, diary := true, tally := true, tt := true, bay := true, hq := true, corr := true, out := true } t) rfl).eq_pwr rfl
@[simp] theorem presumeDown_pins {t : State} (a0) : ((presumeDown a0 t)).pins = t.pins := (presumeDown_led _ (.refl { trust := true, cpi := true, diary := true, tally := true, tt := true, bay := true, hq := true, corr := true, out := true } t) rfl).eq_pins rfl
@[simp] theorem presumeDown_dram {t : State} (a0) : ((presumeDown a0 t)).dram = t.dram := (presumeDown_led _ (.refl { trust := true, cpi := true, diary := true, tally := true, tt := true, bay := true, hq := true, corr := true, out := true } t) rfl).eq_dram rfl
@[simp] theorem presumeDown_lanes {t : State} (a0) : ((presumeDown a0 t)).lanes = t.lanes := (presumeDown_led _ (.refl { trust := true, cpi := true, diary := true, tally := true, tt := true, bay := true, hq := true, corr := true, out := true } t) rfl).eq_lanes rfl
@[simp] theorem presumeDown_stg {t : State} (a0) : ((presumeDown a0 t)).stg = t.stg := (presumeDown_led _ (.refl { trust := true, cpi := true, diary := true, tally := true, tt := true, bay := true, hq := true, corr := true, out := true } t) rfl).eq_stg rfl
@[simp] theorem presumeDown_ddp {t : State} (a0) : ((presumeDown a0 t)).ddp = t.ddp := (presumeDown_led _ (.refl { trust := true, cpi := true, diary := true, tally := true, tt := true, bay := true, hq := true, corr := true, out := true } t) rfl).eq_ddp rfl
@[simp] theorem presumeDown_ftl {t : State} (a0) : ((presumeDown a0 t)).ftl = t.ftl := (presumeDown_led _ (.refl { trust := true, cpi := true, diary := true, tally := true, tt := true, bay := true, hq := true, corr := true, out := true } t) rfl).eq_ftl rfl
@[simp] theorem presumeDown_ec {t : State} (a0) : ((presumeDown a0 t)).ec = t.ec := (presumeDown_led _ (.refl { trust := true, cpi := true, diary := true, tally := true, tt := true, bay := true, hq := true, corr := true, out := true } t) rfl).eq_ec rfl
@[simp] theorem presumeDown_pool {t : State} (a0) : ((presumeDown a0 t)).pool = t.pool := (presumeDown_led _ (.refl { trust := true, cpi := true, diary := true, tally := true, tt := true, bay := true, hq := true, corr := true, out := true } t) rfl).eq_pool rfl
@[simp] theorem presumeDown_saved {t : State} (a0) : ((presumeDown a0 t)).saved = t.saved := (presumeDown_led _ (.refl { trust := true, cpi := true, diary := true, tally := true, tt := true, bay := true, hq := true, corr := true, out := true } t) rfl).eq_saved rfl
@[simp] theorem presumeDown_ciph {t : State} (a0) : ((presumeDown a0 t)).ciph = t.ciph := (presumeDown_led _ (.refl { trust := true, cpi := true, diary := true, tally := true, tt := true, bay := true, hq := true, corr := true, out := true } t) rfl).eq_ciph rfl
@[simp] theorem presumeDown_skx {t : State} (a0) : ((presumeDown a0 t)).skx = t.skx := (presumeDown_led _ (.refl { trust := true, cpi := true, diary := true, tally := true, tt := true, bay := true, hq := true, corr := true, out := true } t) rfl).eq_skx rfl
@[simp] theorem presumeDown_jobs {t : State} (a0) : ((presumeDown a0 t)).jobs = t.jobs := (presumeDown_led _ (.refl { trust := true, cpi := true, diary := true, tally := true, tt := true, bay := true, hq := true, corr := true, out := true } t) rfl).eq_jobs rfl
@[simp] theorem presumeDown_repl {t : State} (a0) : ((presumeDown a0 t)).repl = t.repl := (presumeDown_led _ (.refl { trust := true, cpi := true, diary := true, tally := true, tt := true, bay := true, hq := true, corr := true, out := true } t) rfl).eq_repl rfl
@[simp] theorem presumeDown_draws {t : State} (a0) : ((presumeDown a0 t)).draws = t.draws := (presumeDown_led _ (.refl { trust := true, cpi := true, diary := true, tally := true, tt := true, bay := true, hq := true, corr := true, out := true } t) rfl).eq_draws rfl
@[simp] theorem takeLockers_sys {t : State} (a0) : ((takeLockers a0 t)).sys = t.sys := (takeLockers_led _ (.refl { ciph := true } t) rfl).eq_sys rfl
@[simp] theorem takeLockers_pwr {t : State} (a0) : ((takeLockers a0 t)).pwr = t.pwr := (takeLockers_led _ (.refl { ciph := true } t) rfl).eq_pwr rfl
@[simp] theorem takeLockers_pins {t : State} (a0) : ((takeLockers a0 t)).pins = t.pins := (takeLockers_led _ (.refl { ciph := true } t) rfl).eq_pins rfl
@[simp] theorem takeLockers_dram {t : State} (a0) : ((takeLockers a0 t)).dram = t.dram := (takeLockers_led _ (.refl { ciph := true } t) rfl).eq_dram rfl
@[simp] theorem takeLockers_trust {t : State} (a0) : ((takeLockers a0 t)).trust = t.trust := (takeLockers_led _ (.refl { ciph := true } t) rfl).eq_trust rfl
@[simp] theorem takeLockers_cpi {t : State} (a0) : ((takeLockers a0 t)).cpi = t.cpi := (takeLockers_led _ (.refl { ciph := true } t) rfl).eq_cpi rfl
@[simp] theorem takeLockers_diary {t : State} (a0) : ((takeLockers a0 t)).diary = t.diary := (takeLockers_led _ (.refl { ciph := true } t) rfl).eq_diary rfl
@[simp] theorem takeLockers_tally {t : State} (a0) : ((takeLockers a0 t)).tally = t.tally := (takeLockers_led _ (.refl { ciph := true } t) rfl).eq_tally rfl
@[simp] theorem takeLockers_tt {t : State} (a0) : ((takeLockers a0 t)).tt = t.tt := (takeLockers_led _ (.refl { ciph := true } t) rfl).eq_tt rfl
@[simp] theorem takeLockers_lanes {t : State} (a0) : ((takeLockers a0 t)).lanes = t.lanes := (takeLockers_led _ (.refl { ciph := true } t) rfl).eq_lanes rfl
@[simp] theorem takeLockers_stg {t : State} (a0) : ((takeLockers a0 t)).stg = t.stg := (takeLockers_led _ (.refl { ciph := true } t) rfl).eq_stg rfl
@[simp] theorem takeLockers_ddp {t : State} (a0) : ((takeLockers a0 t)).ddp = t.ddp := (takeLockers_led _ (.refl { ciph := true } t) rfl).eq_ddp rfl
@[simp] theorem takeLockers_ftl {t : State} (a0) : ((takeLockers a0 t)).ftl = t.ftl := (takeLockers_led _ (.refl { ciph := true } t) rfl).eq_ftl rfl
@[simp] theorem takeLockers_ec {t : State} (a0) : ((takeLockers a0 t)).ec = t.ec := (takeLockers_led _ (.refl { ciph := true } t) rfl).eq_ec rfl
@[simp] theorem takeLockers_bay {t : State} (a0) : ((takeLockers a0 t)).bay = t.bay := (takeLockers_led _ (.refl { ciph := true } t) rfl).eq_bay rfl
@[simp] theorem takeLockers_pool {t : State} (a0) : ((takeLockers a0 t)).pool = t.pool := (takeLockers_led _ (.refl { ciph := true } t) rfl).eq_pool rfl
@[simp] theorem takeLockers_saved {t : State} (a0) : ((takeLockers a0 t)).saved = t.saved := (takeLockers_led _ (.refl { ciph := true } t) rfl).eq_saved rfl
@[simp] theorem takeLockers_skx {t : State} (a0) : ((takeLockers a0 t)).skx = t.skx := (takeLockers_led _ (.refl { ciph := true } t) rfl).eq_skx rfl
@[simp] theorem takeLockers_jobs {t : State} (a0) : ((takeLockers a0 t)).jobs = t.jobs := (takeLockers_led _ (.refl { ciph := true } t) rfl).eq_jobs rfl
@[simp] theorem takeLockers_hq {t : State} (a0) : ((takeLockers a0 t)).hq = t.hq := (takeLockers_led _ (.refl { ciph := true } t) rfl).eq_hq rfl
@[simp] theorem takeLockers_repl {t : State} (a0) : ((takeLockers a0 t)).repl = t.repl := (takeLockers_led _ (.refl { ciph := true } t) rfl).eq_repl rfl
@[simp] theorem takeLockers_corr {t : State} (a0) : ((takeLockers a0 t)).corr = t.corr := (takeLockers_led _ (.refl { ciph := true } t) rfl).eq_corr rfl
@[simp] theorem takeLockers_out {t : State} (a0) : ((takeLockers a0 t)).out = t.out := (takeLockers_led _ (.refl { ciph := true } t) rfl).eq_out rfl
@[simp] theorem takeLockers_draws {t : State} (a0) : ((takeLockers a0 t)).draws = t.draws := (takeLockers_led _ (.refl { ciph := true } t) rfl).eq_draws rfl
@[simp] theorem bind_sys {t : State} (a0 a1 a2) : ((bind a0 a1 a2 t)).sys = t.sys := (bind_led _ _ _ (.refl { cpi := true, draws := true } t) rfl).eq_sys rfl
@[simp] theorem bind_pwr {t : State} (a0 a1 a2) : ((bind a0 a1 a2 t)).pwr = t.pwr := (bind_led _ _ _ (.refl { cpi := true, draws := true } t) rfl).eq_pwr rfl
@[simp] theorem bind_pins {t : State} (a0 a1 a2) : ((bind a0 a1 a2 t)).pins = t.pins := (bind_led _ _ _ (.refl { cpi := true, draws := true } t) rfl).eq_pins rfl
@[simp] theorem bind_dram {t : State} (a0 a1 a2) : ((bind a0 a1 a2 t)).dram = t.dram := (bind_led _ _ _ (.refl { cpi := true, draws := true } t) rfl).eq_dram rfl
@[simp] theorem bind_trust {t : State} (a0 a1 a2) : ((bind a0 a1 a2 t)).trust = t.trust := (bind_led _ _ _ (.refl { cpi := true, draws := true } t) rfl).eq_trust rfl
@[simp] theorem bind_diary {t : State} (a0 a1 a2) : ((bind a0 a1 a2 t)).diary = t.diary := (bind_led _ _ _ (.refl { cpi := true, draws := true } t) rfl).eq_diary rfl
@[simp] theorem bind_tally {t : State} (a0 a1 a2) : ((bind a0 a1 a2 t)).tally = t.tally := (bind_led _ _ _ (.refl { cpi := true, draws := true } t) rfl).eq_tally rfl
@[simp] theorem bind_tt {t : State} (a0 a1 a2) : ((bind a0 a1 a2 t)).tt = t.tt := (bind_led _ _ _ (.refl { cpi := true, draws := true } t) rfl).eq_tt rfl
@[simp] theorem bind_lanes {t : State} (a0 a1 a2) : ((bind a0 a1 a2 t)).lanes = t.lanes := (bind_led _ _ _ (.refl { cpi := true, draws := true } t) rfl).eq_lanes rfl
@[simp] theorem bind_stg {t : State} (a0 a1 a2) : ((bind a0 a1 a2 t)).stg = t.stg := (bind_led _ _ _ (.refl { cpi := true, draws := true } t) rfl).eq_stg rfl
@[simp] theorem bind_ddp {t : State} (a0 a1 a2) : ((bind a0 a1 a2 t)).ddp = t.ddp := (bind_led _ _ _ (.refl { cpi := true, draws := true } t) rfl).eq_ddp rfl
@[simp] theorem bind_ftl {t : State} (a0 a1 a2) : ((bind a0 a1 a2 t)).ftl = t.ftl := (bind_led _ _ _ (.refl { cpi := true, draws := true } t) rfl).eq_ftl rfl
@[simp] theorem bind_ec {t : State} (a0 a1 a2) : ((bind a0 a1 a2 t)).ec = t.ec := (bind_led _ _ _ (.refl { cpi := true, draws := true } t) rfl).eq_ec rfl
@[simp] theorem bind_bay {t : State} (a0 a1 a2) : ((bind a0 a1 a2 t)).bay = t.bay := (bind_led _ _ _ (.refl { cpi := true, draws := true } t) rfl).eq_bay rfl
@[simp] theorem bind_pool {t : State} (a0 a1 a2) : ((bind a0 a1 a2 t)).pool = t.pool := (bind_led _ _ _ (.refl { cpi := true, draws := true } t) rfl).eq_pool rfl
@[simp] theorem bind_saved {t : State} (a0 a1 a2) : ((bind a0 a1 a2 t)).saved = t.saved := (bind_led _ _ _ (.refl { cpi := true, draws := true } t) rfl).eq_saved rfl
@[simp] theorem bind_ciph {t : State} (a0 a1 a2) : ((bind a0 a1 a2 t)).ciph = t.ciph := (bind_led _ _ _ (.refl { cpi := true, draws := true } t) rfl).eq_ciph rfl
@[simp] theorem bind_skx {t : State} (a0 a1 a2) : ((bind a0 a1 a2 t)).skx = t.skx := (bind_led _ _ _ (.refl { cpi := true, draws := true } t) rfl).eq_skx rfl
@[simp] theorem bind_jobs {t : State} (a0 a1 a2) : ((bind a0 a1 a2 t)).jobs = t.jobs := (bind_led _ _ _ (.refl { cpi := true, draws := true } t) rfl).eq_jobs rfl
@[simp] theorem bind_hq {t : State} (a0 a1 a2) : ((bind a0 a1 a2 t)).hq = t.hq := (bind_led _ _ _ (.refl { cpi := true, draws := true } t) rfl).eq_hq rfl
@[simp] theorem bind_repl {t : State} (a0 a1 a2) : ((bind a0 a1 a2 t)).repl = t.repl := (bind_led _ _ _ (.refl { cpi := true, draws := true } t) rfl).eq_repl rfl
@[simp] theorem bind_corr {t : State} (a0 a1 a2) : ((bind a0 a1 a2 t)).corr = t.corr := (bind_led _ _ _ (.refl { cpi := true, draws := true } t) rfl).eq_corr rfl
@[simp] theorem bind_out {t : State} (a0 a1 a2) : ((bind a0 a1 a2 t)).out = t.out := (bind_led _ _ _ (.refl { cpi := true, draws := true } t) rfl).eq_out rfl
@[simp] theorem noteHottest_sys {t : State} (a0 a1) : ((noteHottest a0 a1 t)).sys = t.sys := (noteHottest_led _ _ (.refl { pins := true } t) rfl).eq_sys rfl
@[simp] theorem noteHottest_pwr {t : State} (a0 a1) : ((noteHottest a0 a1 t)).pwr = t.pwr := (noteHottest_led _ _ (.refl { pins := true } t) rfl).eq_pwr rfl
@[simp] theorem noteHottest_dram {t : State} (a0 a1) : ((noteHottest a0 a1 t)).dram = t.dram := (noteHottest_led _ _ (.refl { pins := true } t) rfl).eq_dram rfl
@[simp] theorem noteHottest_trust {t : State} (a0 a1) : ((noteHottest a0 a1 t)).trust = t.trust := (noteHottest_led _ _ (.refl { pins := true } t) rfl).eq_trust rfl
@[simp] theorem noteHottest_cpi {t : State} (a0 a1) : ((noteHottest a0 a1 t)).cpi = t.cpi := (noteHottest_led _ _ (.refl { pins := true } t) rfl).eq_cpi rfl
@[simp] theorem noteHottest_diary {t : State} (a0 a1) : ((noteHottest a0 a1 t)).diary = t.diary := (noteHottest_led _ _ (.refl { pins := true } t) rfl).eq_diary rfl
@[simp] theorem noteHottest_tally {t : State} (a0 a1) : ((noteHottest a0 a1 t)).tally = t.tally := (noteHottest_led _ _ (.refl { pins := true } t) rfl).eq_tally rfl
@[simp] theorem noteHottest_tt {t : State} (a0 a1) : ((noteHottest a0 a1 t)).tt = t.tt := (noteHottest_led _ _ (.refl { pins := true } t) rfl).eq_tt rfl
@[simp] theorem noteHottest_lanes {t : State} (a0 a1) : ((noteHottest a0 a1 t)).lanes = t.lanes := (noteHottest_led _ _ (.refl { pins := true } t) rfl).eq_lanes rfl
@[simp] theorem noteHottest_stg {t : State} (a0 a1) : ((noteHottest a0 a1 t)).stg = t.stg := (noteHottest_led _ _ (.refl { pins := true } t) rfl).eq_stg rfl
@[simp] theorem noteHottest_ddp {t : State} (a0 a1) : ((noteHottest a0 a1 t)).ddp = t.ddp := (noteHottest_led _ _ (.refl { pins := true } t) rfl).eq_ddp rfl
@[simp] theorem noteHottest_ftl {t : State} (a0 a1) : ((noteHottest a0 a1 t)).ftl = t.ftl := (noteHottest_led _ _ (.refl { pins := true } t) rfl).eq_ftl rfl
@[simp] theorem noteHottest_ec {t : State} (a0 a1) : ((noteHottest a0 a1 t)).ec = t.ec := (noteHottest_led _ _ (.refl { pins := true } t) rfl).eq_ec rfl
@[simp] theorem noteHottest_bay {t : State} (a0 a1) : ((noteHottest a0 a1 t)).bay = t.bay := (noteHottest_led _ _ (.refl { pins := true } t) rfl).eq_bay rfl
@[simp] theorem noteHottest_pool {t : State} (a0 a1) : ((noteHottest a0 a1 t)).pool = t.pool := (noteHottest_led _ _ (.refl { pins := true } t) rfl).eq_pool rfl
@[simp] theorem noteHottest_saved {t : State} (a0 a1) : ((noteHottest a0 a1 t)).saved = t.saved := (noteHottest_led _ _ (.refl { pins := true } t) rfl).eq_saved rfl
@[simp] theorem noteHottest_ciph {t : State} (a0 a1) : ((noteHottest a0 a1 t)).ciph = t.ciph := (noteHottest_led _ _ (.refl { pins := true } t) rfl).eq_ciph rfl
@[simp] theorem noteHottest_skx {t : State} (a0 a1) : ((noteHottest a0 a1 t)).skx = t.skx := (noteHottest_led _ _ (.refl { pins := true } t) rfl).eq_skx rfl
@[simp] theorem noteHottest_jobs {t : State} (a0 a1) : ((noteHottest a0 a1 t)).jobs = t.jobs := (noteHottest_led _ _ (.refl { pins := true } t) rfl).eq_jobs rfl
@[simp] theorem noteHottest_hq {t : State} (a0 a1) : ((noteHottest a0 a1 t)).hq = t.hq := (noteHottest_led _ _ (.refl { pins := true } t) rfl).eq_hq rfl
@[simp] theorem noteHottest_repl {t : State} (a0 a1) : ((noteHottest a0 a1 t)).repl = t.repl := (noteHottest_led _ _ (.refl { pins := true } t) rfl).eq_repl rfl
@[simp] theorem noteHottest_corr {t : State} (a0 a1) : ((noteHottest a0 a1 t)).corr = t.corr := (noteHottest_led _ _ (.refl { pins := true } t) rfl).eq_corr rfl
@[simp] theorem noteHottest_out {t : State} (a0 a1) : ((noteHottest a0 a1 t)).out = t.out := (noteHottest_led _ _ (.refl { pins := true } t) rfl).eq_out rfl
@[simp] theorem noteHottest_draws {t : State} (a0 a1) : ((noteHottest a0 a1 t)).draws = t.draws := (noteHottest_led _ _ (.refl { pins := true } t) rfl).eq_draws rfl
@[simp] theorem powerFails_sys {t : State} : ((powerFails t)).sys = t.sys := (powerFails_led  (.refl { pwr := true, pins := true, dram := true, trust := true, cpi := true, diary := true, tally := true, tt := true, stg := true, ftl := true, bay := true, ciph := true, hq := true, corr := true, out := true } t) rfl).eq_sys rfl
@[simp] theorem powerFails_lanes {t : State} : ((powerFails t)).lanes = t.lanes := (powerFails_led  (.refl { pwr := true, pins := true, dram := true, trust := true, cpi := true, diary := true, tally := true, tt := true, stg := true, ftl := true, bay := true, ciph := true, hq := true, corr := true, out := true } t) rfl).eq_lanes rfl
@[simp] theorem powerFails_ddp {t : State} : ((powerFails t)).ddp = t.ddp := (powerFails_led  (.refl { pwr := true, pins := true, dram := true, trust := true, cpi := true, diary := true, tally := true, tt := true, stg := true, ftl := true, bay := true, ciph := true, hq := true, corr := true, out := true } t) rfl).eq_ddp rfl
@[simp] theorem powerFails_ec {t : State} : ((powerFails t)).ec = t.ec := (powerFails_led  (.refl { pwr := true, pins := true, dram := true, trust := true, cpi := true, diary := true, tally := true, tt := true, stg := true, ftl := true, bay := true, ciph := true, hq := true, corr := true, out := true } t) rfl).eq_ec rfl
@[simp] theorem powerFails_pool {t : State} : ((powerFails t)).pool = t.pool := (powerFails_led  (.refl { pwr := true, pins := true, dram := true, trust := true, cpi := true, diary := true, tally := true, tt := true, stg := true, ftl := true, bay := true, ciph := true, hq := true, corr := true, out := true } t) rfl).eq_pool rfl
@[simp] theorem powerFails_saved {t : State} : ((powerFails t)).saved = t.saved := (powerFails_led  (.refl { pwr := true, pins := true, dram := true, trust := true, cpi := true, diary := true, tally := true, tt := true, stg := true, ftl := true, bay := true, ciph := true, hq := true, corr := true, out := true } t) rfl).eq_saved rfl
@[simp] theorem powerFails_skx {t : State} : ((powerFails t)).skx = t.skx := (powerFails_led  (.refl { pwr := true, pins := true, dram := true, trust := true, cpi := true, diary := true, tally := true, tt := true, stg := true, ftl := true, bay := true, ciph := true, hq := true, corr := true, out := true } t) rfl).eq_skx rfl
@[simp] theorem powerFails_jobs {t : State} : ((powerFails t)).jobs = t.jobs := (powerFails_led  (.refl { pwr := true, pins := true, dram := true, trust := true, cpi := true, diary := true, tally := true, tt := true, stg := true, ftl := true, bay := true, ciph := true, hq := true, corr := true, out := true } t) rfl).eq_jobs rfl
@[simp] theorem powerFails_repl {t : State} : ((powerFails t)).repl = t.repl := (powerFails_led  (.refl { pwr := true, pins := true, dram := true, trust := true, cpi := true, diary := true, tally := true, tt := true, stg := true, ftl := true, bay := true, ciph := true, hq := true, corr := true, out := true } t) rfl).eq_repl rfl
@[simp] theorem powerFails_draws {t : State} : ((powerFails t)).draws = t.draws := (powerFails_led  (.refl { pwr := true, pins := true, dram := true, trust := true, cpi := true, diary := true, tally := true, tt := true, stg := true, ftl := true, bay := true, ciph := true, hq := true, corr := true, out := true } t) rfl).eq_draws rfl
@[simp] theorem deleteRoot_sys {t : State} (a0) : ((deleteRoot a0 t)).sys = t.sys := (deleteRoot_led _ (.refl { trust := true, diary := true, tally := true, ddp := true, ftl := true, corr := true, out := true } t) rfl).eq_sys rfl
@[simp] theorem deleteRoot_pwr {t : State} (a0) : ((deleteRoot a0 t)).pwr = t.pwr := (deleteRoot_led _ (.refl { trust := true, diary := true, tally := true, ddp := true, ftl := true, corr := true, out := true } t) rfl).eq_pwr rfl
@[simp] theorem deleteRoot_pins {t : State} (a0) : ((deleteRoot a0 t)).pins = t.pins := (deleteRoot_led _ (.refl { trust := true, diary := true, tally := true, ddp := true, ftl := true, corr := true, out := true } t) rfl).eq_pins rfl
@[simp] theorem deleteRoot_dram {t : State} (a0) : ((deleteRoot a0 t)).dram = t.dram := (deleteRoot_led _ (.refl { trust := true, diary := true, tally := true, ddp := true, ftl := true, corr := true, out := true } t) rfl).eq_dram rfl
@[simp] theorem deleteRoot_cpi {t : State} (a0) : ((deleteRoot a0 t)).cpi = t.cpi := (deleteRoot_led _ (.refl { trust := true, diary := true, tally := true, ddp := true, ftl := true, corr := true, out := true } t) rfl).eq_cpi rfl
@[simp] theorem deleteRoot_tt {t : State} (a0) : ((deleteRoot a0 t)).tt = t.tt := (deleteRoot_led _ (.refl { trust := true, diary := true, tally := true, ddp := true, ftl := true, corr := true, out := true } t) rfl).eq_tt rfl
@[simp] theorem deleteRoot_lanes {t : State} (a0) : ((deleteRoot a0 t)).lanes = t.lanes := (deleteRoot_led _ (.refl { trust := true, diary := true, tally := true, ddp := true, ftl := true, corr := true, out := true } t) rfl).eq_lanes rfl
@[simp] theorem deleteRoot_stg {t : State} (a0) : ((deleteRoot a0 t)).stg = t.stg := (deleteRoot_led _ (.refl { trust := true, diary := true, tally := true, ddp := true, ftl := true, corr := true, out := true } t) rfl).eq_stg rfl
@[simp] theorem deleteRoot_ec {t : State} (a0) : ((deleteRoot a0 t)).ec = t.ec := (deleteRoot_led _ (.refl { trust := true, diary := true, tally := true, ddp := true, ftl := true, corr := true, out := true } t) rfl).eq_ec rfl
@[simp] theorem deleteRoot_bay {t : State} (a0) : ((deleteRoot a0 t)).bay = t.bay := (deleteRoot_led _ (.refl { trust := true, diary := true, tally := true, ddp := true, ftl := true, corr := true, out := true } t) rfl).eq_bay rfl
@[simp] theorem deleteRoot_pool {t : State} (a0) : ((deleteRoot a0 t)).pool = t.pool := (deleteRoot_led _ (.refl { trust := true, diary := true, tally := true, ddp := true, ftl := true, corr := true, out := true } t) rfl).eq_pool rfl
@[simp] theorem deleteRoot_saved {t : State} (a0) : ((deleteRoot a0 t)).saved = t.saved := (deleteRoot_led _ (.refl { trust := true, diary := true, tally := true, ddp := true, ftl := true, corr := true, out := true } t) rfl).eq_saved rfl
@[simp] theorem deleteRoot_ciph {t : State} (a0) : ((deleteRoot a0 t)).ciph = t.ciph := (deleteRoot_led _ (.refl { trust := true, diary := true, tally := true, ddp := true, ftl := true, corr := true, out := true } t) rfl).eq_ciph rfl
@[simp] theorem deleteRoot_skx {t : State} (a0) : ((deleteRoot a0 t)).skx = t.skx := (deleteRoot_led _ (.refl { trust := true, diary := true, tally := true, ddp := true, ftl := true, corr := true, out := true } t) rfl).eq_skx rfl
@[simp] theorem deleteRoot_jobs {t : State} (a0) : ((deleteRoot a0 t)).jobs = t.jobs := (deleteRoot_led _ (.refl { trust := true, diary := true, tally := true, ddp := true, ftl := true, corr := true, out := true } t) rfl).eq_jobs rfl
@[simp] theorem deleteRoot_hq {t : State} (a0) : ((deleteRoot a0 t)).hq = t.hq := (deleteRoot_led _ (.refl { trust := true, diary := true, tally := true, ddp := true, ftl := true, corr := true, out := true } t) rfl).eq_hq rfl
@[simp] theorem deleteRoot_repl {t : State} (a0) : ((deleteRoot a0 t)).repl = t.repl := (deleteRoot_led _ (.refl { trust := true, diary := true, tally := true, ddp := true, ftl := true, corr := true, out := true } t) rfl).eq_repl rfl
@[simp] theorem deleteRoot_draws {t : State} (a0) : ((deleteRoot a0 t)).draws = t.draws := (deleteRoot_led _ (.refl { trust := true, diary := true, tally := true, ddp := true, ftl := true, corr := true, out := true } t) rfl).eq_draws rfl
@[simp] theorem dropDomainIndex_sys {t : State} (a0) : ((dropDomainIndex a0 t)).sys = t.sys := (dropDomainIndex_led _ (.refl { trust := true, tally := true, ddp := true, ftl := true, corr := true, out := true } t) rfl).eq_sys rfl
@[simp] theorem dropDomainIndex_pwr {t : State} (a0) : ((dropDomainIndex a0 t)).pwr = t.pwr := (dropDomainIndex_led _ (.refl { trust := true, tally := true, ddp := true, ftl := true, corr := true, out := true } t) rfl).eq_pwr rfl
@[simp] theorem dropDomainIndex_pins {t : State} (a0) : ((dropDomainIndex a0 t)).pins = t.pins := (dropDomainIndex_led _ (.refl { trust := true, tally := true, ddp := true, ftl := true, corr := true, out := true } t) rfl).eq_pins rfl
@[simp] theorem dropDomainIndex_dram {t : State} (a0) : ((dropDomainIndex a0 t)).dram = t.dram := (dropDomainIndex_led _ (.refl { trust := true, tally := true, ddp := true, ftl := true, corr := true, out := true } t) rfl).eq_dram rfl
@[simp] theorem dropDomainIndex_cpi {t : State} (a0) : ((dropDomainIndex a0 t)).cpi = t.cpi := (dropDomainIndex_led _ (.refl { trust := true, tally := true, ddp := true, ftl := true, corr := true, out := true } t) rfl).eq_cpi rfl
@[simp] theorem dropDomainIndex_diary {t : State} (a0) : ((dropDomainIndex a0 t)).diary = t.diary := (dropDomainIndex_led _ (.refl { trust := true, tally := true, ddp := true, ftl := true, corr := true, out := true } t) rfl).eq_diary rfl
@[simp] theorem dropDomainIndex_tt {t : State} (a0) : ((dropDomainIndex a0 t)).tt = t.tt := (dropDomainIndex_led _ (.refl { trust := true, tally := true, ddp := true, ftl := true, corr := true, out := true } t) rfl).eq_tt rfl
@[simp] theorem dropDomainIndex_lanes {t : State} (a0) : ((dropDomainIndex a0 t)).lanes = t.lanes := (dropDomainIndex_led _ (.refl { trust := true, tally := true, ddp := true, ftl := true, corr := true, out := true } t) rfl).eq_lanes rfl
@[simp] theorem dropDomainIndex_stg {t : State} (a0) : ((dropDomainIndex a0 t)).stg = t.stg := (dropDomainIndex_led _ (.refl { trust := true, tally := true, ddp := true, ftl := true, corr := true, out := true } t) rfl).eq_stg rfl
@[simp] theorem dropDomainIndex_ec {t : State} (a0) : ((dropDomainIndex a0 t)).ec = t.ec := (dropDomainIndex_led _ (.refl { trust := true, tally := true, ddp := true, ftl := true, corr := true, out := true } t) rfl).eq_ec rfl
@[simp] theorem dropDomainIndex_bay {t : State} (a0) : ((dropDomainIndex a0 t)).bay = t.bay := (dropDomainIndex_led _ (.refl { trust := true, tally := true, ddp := true, ftl := true, corr := true, out := true } t) rfl).eq_bay rfl
@[simp] theorem dropDomainIndex_pool {t : State} (a0) : ((dropDomainIndex a0 t)).pool = t.pool := (dropDomainIndex_led _ (.refl { trust := true, tally := true, ddp := true, ftl := true, corr := true, out := true } t) rfl).eq_pool rfl
@[simp] theorem dropDomainIndex_saved {t : State} (a0) : ((dropDomainIndex a0 t)).saved = t.saved := (dropDomainIndex_led _ (.refl { trust := true, tally := true, ddp := true, ftl := true, corr := true, out := true } t) rfl).eq_saved rfl
@[simp] theorem dropDomainIndex_ciph {t : State} (a0) : ((dropDomainIndex a0 t)).ciph = t.ciph := (dropDomainIndex_led _ (.refl { trust := true, tally := true, ddp := true, ftl := true, corr := true, out := true } t) rfl).eq_ciph rfl
@[simp] theorem dropDomainIndex_skx {t : State} (a0) : ((dropDomainIndex a0 t)).skx = t.skx := (dropDomainIndex_led _ (.refl { trust := true, tally := true, ddp := true, ftl := true, corr := true, out := true } t) rfl).eq_skx rfl
@[simp] theorem dropDomainIndex_jobs {t : State} (a0) : ((dropDomainIndex a0 t)).jobs = t.jobs := (dropDomainIndex_led _ (.refl { trust := true, tally := true, ddp := true, ftl := true, corr := true, out := true } t) rfl).eq_jobs rfl
@[simp] theorem dropDomainIndex_hq {t : State} (a0) : ((dropDomainIndex a0 t)).hq = t.hq := (dropDomainIndex_led _ (.refl { trust := true, tally := true, ddp := true, ftl := true, corr := true, out := true } t) rfl).eq_hq rfl
@[simp] theorem dropDomainIndex_repl {t : State} (a0) : ((dropDomainIndex a0 t)).repl = t.repl := (dropDomainIndex_led _ (.refl { trust := true, tally := true, ddp := true, ftl := true, corr := true, out := true } t) rfl).eq_repl rfl
@[simp] theorem dropDomainIndex_draws {t : State} (a0) : ((dropDomainIndex a0 t)).draws = t.draws := (dropDomainIndex_led _ (.refl { trust := true, tally := true, ddp := true, ftl := true, corr := true, out := true } t) rfl).eq_draws rfl
@[simp] theorem armCopies_sys {t : State} (a0 a1 a2) : ((armCopies a0 a1 a2 t).1).sys = t.sys := (armCopies_led _ _ _ (.refl { trust := true, tally := true, ftl := true, bay := true, corr := true, out := true } t) rfl).eq_sys rfl
@[simp] theorem armCopies_pwr {t : State} (a0 a1 a2) : ((armCopies a0 a1 a2 t).1).pwr = t.pwr := (armCopies_led _ _ _ (.refl { trust := true, tally := true, ftl := true, bay := true, corr := true, out := true } t) rfl).eq_pwr rfl
@[simp] theorem armCopies_pins {t : State} (a0 a1 a2) : ((armCopies a0 a1 a2 t).1).pins = t.pins := (armCopies_led _ _ _ (.refl { trust := true, tally := true, ftl := true, bay := true, corr := true, out := true } t) rfl).eq_pins rfl
@[simp] theorem armCopies_dram {t : State} (a0 a1 a2) : ((armCopies a0 a1 a2 t).1).dram = t.dram := (armCopies_led _ _ _ (.refl { trust := true, tally := true, ftl := true, bay := true, corr := true, out := true } t) rfl).eq_dram rfl
@[simp] theorem armCopies_cpi {t : State} (a0 a1 a2) : ((armCopies a0 a1 a2 t).1).cpi = t.cpi := (armCopies_led _ _ _ (.refl { trust := true, tally := true, ftl := true, bay := true, corr := true, out := true } t) rfl).eq_cpi rfl
@[simp] theorem armCopies_diary {t : State} (a0 a1 a2) : ((armCopies a0 a1 a2 t).1).diary = t.diary := (armCopies_led _ _ _ (.refl { trust := true, tally := true, ftl := true, bay := true, corr := true, out := true } t) rfl).eq_diary rfl
@[simp] theorem armCopies_tt {t : State} (a0 a1 a2) : ((armCopies a0 a1 a2 t).1).tt = t.tt := (armCopies_led _ _ _ (.refl { trust := true, tally := true, ftl := true, bay := true, corr := true, out := true } t) rfl).eq_tt rfl
@[simp] theorem armCopies_lanes {t : State} (a0 a1 a2) : ((armCopies a0 a1 a2 t).1).lanes = t.lanes := (armCopies_led _ _ _ (.refl { trust := true, tally := true, ftl := true, bay := true, corr := true, out := true } t) rfl).eq_lanes rfl
@[simp] theorem armCopies_stg {t : State} (a0 a1 a2) : ((armCopies a0 a1 a2 t).1).stg = t.stg := (armCopies_led _ _ _ (.refl { trust := true, tally := true, ftl := true, bay := true, corr := true, out := true } t) rfl).eq_stg rfl
@[simp] theorem armCopies_ddp {t : State} (a0 a1 a2) : ((armCopies a0 a1 a2 t).1).ddp = t.ddp := (armCopies_led _ _ _ (.refl { trust := true, tally := true, ftl := true, bay := true, corr := true, out := true } t) rfl).eq_ddp rfl
@[simp] theorem armCopies_ec {t : State} (a0 a1 a2) : ((armCopies a0 a1 a2 t).1).ec = t.ec := (armCopies_led _ _ _ (.refl { trust := true, tally := true, ftl := true, bay := true, corr := true, out := true } t) rfl).eq_ec rfl
@[simp] theorem armCopies_pool {t : State} (a0 a1 a2) : ((armCopies a0 a1 a2 t).1).pool = t.pool := (armCopies_led _ _ _ (.refl { trust := true, tally := true, ftl := true, bay := true, corr := true, out := true } t) rfl).eq_pool rfl
@[simp] theorem armCopies_saved {t : State} (a0 a1 a2) : ((armCopies a0 a1 a2 t).1).saved = t.saved := (armCopies_led _ _ _ (.refl { trust := true, tally := true, ftl := true, bay := true, corr := true, out := true } t) rfl).eq_saved rfl
@[simp] theorem armCopies_ciph {t : State} (a0 a1 a2) : ((armCopies a0 a1 a2 t).1).ciph = t.ciph := (armCopies_led _ _ _ (.refl { trust := true, tally := true, ftl := true, bay := true, corr := true, out := true } t) rfl).eq_ciph rfl
@[simp] theorem armCopies_skx {t : State} (a0 a1 a2) : ((armCopies a0 a1 a2 t).1).skx = t.skx := (armCopies_led _ _ _ (.refl { trust := true, tally := true, ftl := true, bay := true, corr := true, out := true } t) rfl).eq_skx rfl
@[simp] theorem armCopies_jobs {t : State} (a0 a1 a2) : ((armCopies a0 a1 a2 t).1).jobs = t.jobs := (armCopies_led _ _ _ (.refl { trust := true, tally := true, ftl := true, bay := true, corr := true, out := true } t) rfl).eq_jobs rfl
@[simp] theorem armCopies_hq {t : State} (a0 a1 a2) : ((armCopies a0 a1 a2 t).1).hq = t.hq := (armCopies_led _ _ _ (.refl { trust := true, tally := true, ftl := true, bay := true, corr := true, out := true } t) rfl).eq_hq rfl
@[simp] theorem armCopies_repl {t : State} (a0 a1 a2) : ((armCopies a0 a1 a2 t).1).repl = t.repl := (armCopies_led _ _ _ (.refl { trust := true, tally := true, ftl := true, bay := true, corr := true, out := true } t) rfl).eq_repl rfl
@[simp] theorem armCopies_draws {t : State} (a0 a1 a2) : ((armCopies a0 a1 a2 t).1).draws = t.draws := (armCopies_led _ _ _ (.refl { trust := true, tally := true, ftl := true, bay := true, corr := true, out := true } t) rfl).eq_draws rfl
@[simp] theorem adoptPool_sys {t : State} (a0) : ((adoptPool a0 t)).sys = t.sys := (adoptPool_led _ (.refl { trust := true, tally := true, tt := true, stg := true, ddp := true, ftl := true, ec := true, saved := true, ciph := true, jobs := true, corr := true, out := true } t) rfl).eq_sys rfl
@[simp] theorem adoptPool_pwr {t : State} (a0) : ((adoptPool a0 t)).pwr = t.pwr := (adoptPool_led _ (.refl { trust := true, tally := true, tt := true, stg := true, ddp := true, ftl := true, ec := true, saved := true, ciph := true, jobs := true, corr := true, out := true } t) rfl).eq_pwr rfl
@[simp] theorem adoptPool_pins {t : State} (a0) : ((adoptPool a0 t)).pins = t.pins := (adoptPool_led _ (.refl { trust := true, tally := true, tt := true, stg := true, ddp := true, ftl := true, ec := true, saved := true, ciph := true, jobs := true, corr := true, out := true } t) rfl).eq_pins rfl
@[simp] theorem adoptPool_dram {t : State} (a0) : ((adoptPool a0 t)).dram = t.dram := (adoptPool_led _ (.refl { trust := true, tally := true, tt := true, stg := true, ddp := true, ftl := true, ec := true, saved := true, ciph := true, jobs := true, corr := true, out := true } t) rfl).eq_dram rfl
@[simp] theorem adoptPool_cpi {t : State} (a0) : ((adoptPool a0 t)).cpi = t.cpi := (adoptPool_led _ (.refl { trust := true, tally := true, tt := true, stg := true, ddp := true, ftl := true, ec := true, saved := true, ciph := true, jobs := true, corr := true, out := true } t) rfl).eq_cpi rfl
@[simp] theorem adoptPool_diary {t : State} (a0) : ((adoptPool a0 t)).diary = t.diary := (adoptPool_led _ (.refl { trust := true, tally := true, tt := true, stg := true, ddp := true, ftl := true, ec := true, saved := true, ciph := true, jobs := true, corr := true, out := true } t) rfl).eq_diary rfl
@[simp] theorem adoptPool_lanes {t : State} (a0) : ((adoptPool a0 t)).lanes = t.lanes := (adoptPool_led _ (.refl { trust := true, tally := true, tt := true, stg := true, ddp := true, ftl := true, ec := true, saved := true, ciph := true, jobs := true, corr := true, out := true } t) rfl).eq_lanes rfl
@[simp] theorem adoptPool_bay {t : State} (a0) : ((adoptPool a0 t)).bay = t.bay := (adoptPool_led _ (.refl { trust := true, tally := true, tt := true, stg := true, ddp := true, ftl := true, ec := true, saved := true, ciph := true, jobs := true, corr := true, out := true } t) rfl).eq_bay rfl
@[simp] theorem adoptPool_pool {t : State} (a0) : ((adoptPool a0 t)).pool = t.pool := (adoptPool_led _ (.refl { trust := true, tally := true, tt := true, stg := true, ddp := true, ftl := true, ec := true, saved := true, ciph := true, jobs := true, corr := true, out := true } t) rfl).eq_pool rfl
@[simp] theorem adoptPool_skx {t : State} (a0) : ((adoptPool a0 t)).skx = t.skx := (adoptPool_led _ (.refl { trust := true, tally := true, tt := true, stg := true, ddp := true, ftl := true, ec := true, saved := true, ciph := true, jobs := true, corr := true, out := true } t) rfl).eq_skx rfl
@[simp] theorem adoptPool_hq {t : State} (a0) : ((adoptPool a0 t)).hq = t.hq := (adoptPool_led _ (.refl { trust := true, tally := true, tt := true, stg := true, ddp := true, ftl := true, ec := true, saved := true, ciph := true, jobs := true, corr := true, out := true } t) rfl).eq_hq rfl
@[simp] theorem adoptPool_repl {t : State} (a0) : ((adoptPool a0 t)).repl = t.repl := (adoptPool_led _ (.refl { trust := true, tally := true, tt := true, stg := true, ddp := true, ftl := true, ec := true, saved := true, ciph := true, jobs := true, corr := true, out := true } t) rfl).eq_repl rfl
@[simp] theorem adoptPool_draws {t : State} (a0) : ((adoptPool a0 t)).draws = t.draws := (adoptPool_led _ (.refl { trust := true, tally := true, tt := true, stg := true, ddp := true, ftl := true, ec := true, saved := true, ciph := true, jobs := true, corr := true, out := true } t) rfl).eq_draws rfl

end Sys2Proof.Machine
end

