-- ==== Sys2Proof/Laws/Commands.lean ====
section
/-! SUPPORT. What the ways a command answers can do, said once: a command that waits until it is due, a packet's answer
and its refusal, a word of the Corridor, a command of the whole pair, a bay's completion. -/

set_option Elab.async false
set_option linter.all false

namespace Sys2Proof.Machine


theorem whenDue_pos {c : Prop} [Decidable c] {t s : State} (h : c) : whenDue c t s = .next t := by unfold whenDue; rw [if_pos h]

theorem Completes.of {c : Instr} {s : State} {P : Touch} {e : State → Prop} (hl : LedO P s (exec c s)) (h : ∃ t, exec c s = .next t ∧ e t) :
    Completes c s P e := by
  obtain ⟨t, h1, h2⟩ := h
  exact ⟨t, h1, h2, (hl t h1).only⟩

theorem showReplies_accepted (c : Cpi) : c.showReplies.accepted = c.accepted := rfl
theorem showReplies_replies (c : Cpi) : c.showReplies.replies = c.replies := rfl

theorem packet_filter (c : Cpi) (p : Packet) (l : List Packet) : ({ c with accepted := l.filter (fun q => !(q.binding == p.binding && q.tag == p.tag)) } : Cpi).packet p.binding p.tag p.opcode = none := by
  unfold Cpi.packet
  rw [List.find?_eq_none]
  intro x hx
  have := (List.mem_filter.mp hx).2
  revert this
  cases (x.binding == p.binding) <;> cases (x.tag == p.tag) <;> simp

theorem postReply_accepted (r : Reply) (s : State) : (postReply r s).cpi.accepted = s.cpi.accepted := by
  unfold postReply sendMctp
  dsimp only
  split
  · split
    · rfl
    · split <;> rfl
  · rfl

theorem postReply_stands (r : Reply) (s : State) :
    r ∈ (postReply r s).cpi.replies ∨ ∃ e, r.binding = .mctp e ∧ Output.mctpReply e r.header r.params (r.payload.take 61440) ∈ (postReply r s).out := by
  unfold postReply sendMctp
  dsimp only
  split
  · rename_i e he
    split
    · exact .inl (by simp [showReplies_replies])
    · split
      · exact .inr ⟨e, he, by simp [tallyAdd, emit]⟩
      · exact .inl (by simp [showReplies_replies, emit])
  · exact .inl (by simp [showReplies_replies])

theorem getKey_putKey_self {α : Type} (k : Nat) (a : α) (l : List (Nat × α)) : getKey k (putKey k a l) = some a := by
  induction l with
  | nil => simp [putKey, getKey]
  | cons p l ih =>
    obtain ⟨j, b⟩ := p
    unfold putKey
    split
    · simp [getKey]
    · split
      · simp [getKey]
      · simp [getKey, ih, *]

@[simp] theorem transmit_corr' (n : Nat) (b : CorrBody) (s : State) : (transmit n b s).corr = s.corr := by
  unfold transmit; split <;> (try split) <;> rfl
@[simp] theorem send_answered (b : CorrBody) (s : State) : (send b s).corr.answered = s.corr.answered := by
  unfold send; dsimp only; split
  · rw [transmit_corr']
  · rfl
@[simp] theorem reply_answered (n : Nat) (b : CorrBody) (s : State) : (reply n b s).corr.answered = putKey n b s.corr.answered := by
  simp [reply]

theorem answer_replied (p : Packet) (st : Status) (d params payload : Bytes) (s : State) :
    Replied p st (if st = .ok then params else []) (if st = .ok then payload else []) (answer p st d params payload s) := by
  have hf := packet_filter s.cpi p s.cpi.accepted
  unfold Cpi.packet at hf
  unfold answer
  dsimp only
  by_cases hp : p.binding = .peer
  · rw [if_pos hp]
    refine ⟨?_, fun _ => ⟨_, by rw [reply_answered]; exact getKey_putKey_self _ _ _⟩, fun h => absurd hp h⟩
    unfold Cpi.packet
    simp only [reply_cpi]
    exact hf
  · rw [if_neg hp]
    refine ⟨?_, fun h => absurd h hp, fun _ => ⟨_, rfl, rfl, rfl, rfl, rfl, postReply_stands _ _⟩⟩
    unfold Cpi.packet
    rw [postReply_accepted]
    split <;> exact hf

@[simp] theorem changed_replied (p : Packet) (params : Bytes) (s : State) : Replied p .ok params [] (changed p params s) := answer_replied p .ok _ params [] _
@[simp] theorem answered_replied (p : Packet) (params payload : Bytes) (s : State) : Replied p .ok params payload (answered p params payload s) :=
  answer_replied p .ok _ params payload _
@[simp] theorem refuse_replied (p : Packet) (st : Status) (d : Bytes) (s : State) : Replied p st [] [] (refuse p st d s) := by
  have := answer_replied p st d [] [] s
  unfold refuse
  simpa using this
end Sys2Proof.Machine
namespace Sys2Proof.Machine

theorem onWord_next {b : CorrBody} {f : State → State} {s : State} (h : s.drops b = false) : onWord b f s = .next (f (tallyAdd 0x0D 1 1 s)) := by
  have : (tallyAdd 0x0D 1 1 s).drops b = false := by simpa [State.drops] using h
  unfold onWord
  simp only [this]
  rfl

theorem onMessage_next {n : Nat} {b : CorrBody} {f : State → State} {s : State} (h : s.drops b = false) (h2 : getKey n s.corr.answered = none) :
    onMessage n b f s = .next (f (tallyAdd 0x0D 1 1 s)) := by
  have : (tallyAdd 0x0D 1 1 s).drops b = false := by simpa [State.drops] using h
  unfold onMessage
  simp [this, h2]

theorem pairWide_ok {p : Packet} {peer : PeerAnswer} {f : State → State} {s : State} (h : s.paired = true → peer.status = .ok)
    (ha : s.awaitsAlone = false := by assumption) : pairWide p peer f s = f (pairBase p s) := by
  unfold pairWide pairBase
  dsimp only
  split
  · rename_i hp; rw [if_pos (h hp.1)]
  · rw [if_neg (by simp [ha])]

theorem pairBase_led {P : Touch} {s t : State} (p : Packet) (h : Led P s t) (hw : Touch.within { trust := true, tally := true, corr := true, out := true } P = true) :
    Led P s (pairBase p t) := by
  refine Led.lift h hw ?_
  unfold pairBase
  refine Led.ite (fun _ => settleNumber_led _ (send_led _ (.refl _ _) rfl) rfl) (fun _ => .refl _ _)

theorem posted_next {n : Nat} {l : List (EngineKind × Nat)} {f : State → State} {s : State} (h : s.canPayAll n l = true) :
    posted n l f s = .next (f (payAll n l s)) := whenDue_pos h
@[simp] theorem pairBase_sys {t : State} (p) : (pairBase p t).sys = t.sys := (pairBase_led p (.refl { trust := true, tally := true, corr := true, out := true } t) rfl).eq_sys rfl
@[simp] theorem pairBase_pwr {t : State} (p) : (pairBase p t).pwr = t.pwr := (pairBase_led p (.refl { trust := true, tally := true, corr := true, out := true } t) rfl).eq_pwr rfl
@[simp] theorem pairBase_pins {t : State} (p) : (pairBase p t).pins = t.pins := (pairBase_led p (.refl { trust := true, tally := true, corr := true, out := true } t) rfl).eq_pins rfl
@[simp] theorem pairBase_dram {t : State} (p) : (pairBase p t).dram = t.dram := (pairBase_led p (.refl { trust := true, tally := true, corr := true, out := true } t) rfl).eq_dram rfl
@[simp] theorem pairBase_cpi {t : State} (p) : (pairBase p t).cpi = t.cpi := (pairBase_led p (.refl { trust := true, tally := true, corr := true, out := true } t) rfl).eq_cpi rfl
@[simp] theorem pairBase_diary {t : State} (p) : (pairBase p t).diary = t.diary := (pairBase_led p (.refl { trust := true, tally := true, corr := true, out := true } t) rfl).eq_diary rfl
@[simp] theorem pairBase_tt {t : State} (p) : (pairBase p t).tt = t.tt := (pairBase_led p (.refl { trust := true, tally := true, corr := true, out := true } t) rfl).eq_tt rfl
@[simp] theorem pairBase_lanes {t : State} (p) : (pairBase p t).lanes = t.lanes := (pairBase_led p (.refl { trust := true, tally := true, corr := true, out := true } t) rfl).eq_lanes rfl
@[simp] theorem pairBase_stg {t : State} (p) : (pairBase p t).stg = t.stg := (pairBase_led p (.refl { trust := true, tally := true, corr := true, out := true } t) rfl).eq_stg rfl
@[simp] theorem pairBase_ddp {t : State} (p) : (pairBase p t).ddp = t.ddp := (pairBase_led p (.refl { trust := true, tally := true, corr := true, out := true } t) rfl).eq_ddp rfl
@[simp] theorem pairBase_ftl {t : State} (p) : (pairBase p t).ftl = t.ftl := (pairBase_led p (.refl { trust := true, tally := true, corr := true, out := true } t) rfl).eq_ftl rfl
@[simp] theorem pairBase_ec {t : State} (p) : (pairBase p t).ec = t.ec := (pairBase_led p (.refl { trust := true, tally := true, corr := true, out := true } t) rfl).eq_ec rfl
@[simp] theorem pairBase_bay {t : State} (p) : (pairBase p t).bay = t.bay := (pairBase_led p (.refl { trust := true, tally := true, corr := true, out := true } t) rfl).eq_bay rfl
@[simp] theorem pairBase_pool {t : State} (p) : (pairBase p t).pool = t.pool := (pairBase_led p (.refl { trust := true, tally := true, corr := true, out := true } t) rfl).eq_pool rfl
@[simp] theorem pairBase_saved {t : State} (p) : (pairBase p t).saved = t.saved := (pairBase_led p (.refl { trust := true, tally := true, corr := true, out := true } t) rfl).eq_saved rfl
@[simp] theorem pairBase_ciph {t : State} (p) : (pairBase p t).ciph = t.ciph := (pairBase_led p (.refl { trust := true, tally := true, corr := true, out := true } t) rfl).eq_ciph rfl
@[simp] theorem pairBase_skx {t : State} (p) : (pairBase p t).skx = t.skx := (pairBase_led p (.refl { trust := true, tally := true, corr := true, out := true } t) rfl).eq_skx rfl
@[simp] theorem pairBase_jobs {t : State} (p) : (pairBase p t).jobs = t.jobs := (pairBase_led p (.refl { trust := true, tally := true, corr := true, out := true } t) rfl).eq_jobs rfl
@[simp] theorem pairBase_hq {t : State} (p) : (pairBase p t).hq = t.hq := (pairBase_led p (.refl { trust := true, tally := true, corr := true, out := true } t) rfl).eq_hq rfl
@[simp] theorem pairBase_repl {t : State} (p) : (pairBase p t).repl = t.repl := (pairBase_led p (.refl { trust := true, tally := true, corr := true, out := true } t) rfl).eq_repl rfl
@[simp] theorem pairBase_draws {t : State} (p) : (pairBase p t).draws = t.draws := (pairBase_led p (.refl { trust := true, tally := true, corr := true, out := true } t) rfl).eq_draws rfl

@[simp] theorem queue_of_ctxs (h : Hq) (l : List Ctx) (a b : Nat) : ({ h with ctxs := l } : Hq).queue a b = h.queue a b := rfl
@[simp] theorem queue_of_reservations (h : Hq) (l : List Reservation) (a b : Nat) : ({ h with reservations := l } : Hq).queue a b = h.queue a b := rfl
@[simp] theorem queue_of_controllers (h : Hq) (l : List Controller) (a b : Nat) : ({ h with controllers := l } : Hq).queue a b = h.queue a b := rfl
@[simp] theorem controller_of_reservations (h : Hq) (l : List Reservation) (a : Nat) : ({ h with reservations := l } : Hq).controller a = h.controller a := rfl
@[simp] theorem controller_of_ctxs (h : Hq) (l : List Ctx) (a : Nat) : ({ h with ctxs := l } : Hq).controller a = h.controller a := rfl
theorem complete_ok {x : Ctx} {s : State} {q : Queue} {d : Nat} {b : Bytes} (h : s.hq.queue x.cntlid x.qid = some q) :
    complete x nvmeOk d b s = emit (.completion x.cntlid x.qid x.cid 0 0 false d q.sqhd b) (unpin (dropCtx x s)) := by
  have h2 : (unpin (dropCtx x s)).hq.queue x.cntlid x.qid = some q := by simpa [dropCtx] using h
  unfold complete completeAt
  simp only [h2]
  simp only [unpin_hq] at h2
  simp [h2, sendCompletion, noteError, nvmeOk, State.completionOf]
theorem queue_set (h : Hq) (a b : Nat) (q : Queue) (hq : h.queue a b = some q) (n : Nat) :
    (h.queues.map (fun y => if y.cntlid == q.cntlid && y.qid == q.qid then { q with sqhd := n } else y)).find?
      (fun q => q.cntlid == a && q.qid == b) = some { q with sqhd := n } := by
  unfold Hq.queue at hq
  have hp := List.find?_some hq
  obtain ⟨rfl, rfl⟩ : q.cntlid = a ∧ q.qid = b := by simpa using hp
  generalize h.queues = l at hq
  induction l with
  | nil => cases hq
  | cons y l ih =>
    by_cases hy : (y.cntlid == q.cntlid && y.qid == q.qid) = true
    · rw [List.map_cons, if_pos hy]; simp
    · rw [List.find?_cons_of_neg (p := fun z : Queue => z.cntlid == q.cntlid && z.qid == q.qid) hy] at hq
      rw [List.map_cons, if_neg hy, List.find?_cons_of_neg (p := fun z : Queue => z.cntlid == q.cntlid && z.qid == q.qid) hy]
      exact ih hq
@[simp] theorem adminFetched_sqhd (s : State) (a : Nat) :
    (((adminFetched a s).hq.queue a 0).map (·.sqhd)).getD 0 = s.adminSqhd a := by
  unfold adminFetched State.adminSqhd
  cases h : s.hq.queue a 0 with
  | none => simp [h]
  | some q =>
    have := queue_set s.hq a 0 q h ((q.sqhd + 1) % max q.size 1)
    simp only [Hq.queue, setQueue] at this ⊢
    rw [this]; rfl
@[simp] theorem adminFetched_hq_modes (a : Nat) (s : State) : (adminFetched a s).hq.modes = s.hq.modes := by unfold adminFetched; split <;> rfl
@[simp] theorem adminFetched_hq_linkUp (a : Nat) (s : State) : (adminFetched a s).hq.linkUp = s.hq.linkUp := by unfold adminFetched; split <;> rfl
@[simp] theorem adminFetched_hq_timeout (a : Nat) (s : State) : (adminFetched a s).hq.timeout = s.hq.timeout := by unfold adminFetched; split <;> rfl
@[simp] theorem adminFetched_hq_subsystems (a : Nat) (s : State) : (adminFetched a s).hq.subsystems = s.hq.subsystems := by unfold adminFetched; split <;> rfl
@[simp] theorem adminFetched_hq_hosts (a : Nat) (s : State) : (adminFetched a s).hq.hosts = s.hq.hosts := by unfold adminFetched; split <;> rfl
@[simp] theorem adminFetched_hq_endpoints (a : Nat) (s : State) : (adminFetched a s).hq.endpoints = s.hq.endpoints := by unfold adminFetched; split <;> rfl
@[simp] theorem adminFetched_hq_controllers (a : Nat) (s : State) : (adminFetched a s).hq.controllers = s.hq.controllers := by unfold adminFetched; split <;> rfl
@[simp] theorem adminFetched_hq_ctxs (a : Nat) (s : State) : (adminFetched a s).hq.ctxs = s.hq.ctxs := by unfold adminFetched; split <;> rfl
@[simp] theorem adminFetched_hq_fsn (a : Nat) (s : State) : (adminFetched a s).hq.fsn = s.hq.fsn := by unfold adminFetched; split <;> rfl
@[simp] theorem adminFetched_hq_owners (a : Nat) (s : State) : (adminFetched a s).hq.owners = s.hq.owners := by unfold adminFetched; split <;> rfl
@[simp] theorem adminFetched_hq_held (a : Nat) (s : State) : (adminFetched a s).hq.held = s.hq.held := by unfold adminFetched; split <;> rfl
@[simp] theorem adminFetched_hq_moving (a : Nat) (s : State) : (adminFetched a s).hq.moving = s.hq.moving := by unfold adminFetched; split <;> rfl
@[simp] theorem adminFetched_hq_heldNs (a : Nat) (s : State) : (adminFetched a s).hq.heldNs = s.hq.heldNs := by unfold adminFetched; split <;> rfl
@[simp] theorem adminFetched_hq_reservations (a : Nat) (s : State) : (adminFetched a s).hq.reservations = s.hq.reservations := by unfold adminFetched; split <;> rfl
@[simp] theorem adminFetched_hq_turn (a : Nat) (s : State) : (adminFetched a s).hq.turn = s.hq.turn := by unfold adminFetched; split <;> rfl
@[simp] theorem adminFetched_hq_taken (a : Nat) (s : State) : (adminFetched a s).hq.taken = s.hq.taken := by unfold adminFetched; split <;> rfl
@[simp] theorem adminFetched_hq_closed (a : Nat) (s : State) : (adminFetched a s).hq.closed = s.hq.closed := by unfold adminFetched; split <;> rfl
@[simp] theorem adminFetched_hq_heldDone (a : Nat) (s : State) : (adminFetched a s).hq.heldDone = s.hq.heldDone := by unfold adminFetched; split <;> rfl
@[simp] theorem adminFetched_hq_nextTag (a : Nat) (s : State) : (adminFetched a s).hq.nextTag = s.hq.nextTag := by unfold adminFetched; split <;> rfl
@[simp] theorem adminFetched_hq_cnps (a : Nat) (s : State) : (adminFetched a s).hq.cnps = s.hq.cnps := by unfold adminFetched; split <;> rfl
@[simp] theorem adminFetched_hq_fsnWaits (a : Nat) (s : State) : (adminFetched a s).hq.fsnWaits = s.hq.fsnWaits := by unfold adminFetched; split <;> rfl
@[simp] theorem adminFetched_hq_ps (a : Nat) (s : State) : (adminFetched a s).hq.ps = s.hq.ps := by unfold adminFetched; split <;> rfl
@[simp] theorem adminFetched_hq_lastPs (a : Nat) (s : State) : (adminFetched a s).hq.lastPs = s.hq.lastPs := by unfold adminFetched; split <;> rfl
@[simp] theorem adminFetched_hq_psNext (a : Nat) (s : State) : (adminFetched a s).hq.psNext = s.hq.psNext := by unfold adminFetched; split <;> rfl
@[simp] theorem adminFetched_hq_ps3 (a : Nat) (s : State) : (adminFetched a s).hq.ps3 = s.hq.ps3 := by unfold adminFetched; split <;> rfl
@[simp] theorem adminFetched_hq_ps3Exit (a : Nat) (s : State) : (adminFetched a s).hq.ps3Exit = s.hq.ps3Exit := by unfold adminFetched; split <;> rfl
@[simp] theorem adminFetched_hq_nextCntlid (a : Nat) (s : State) : (adminFetched a s).hq.nextCntlid = s.hq.nextCntlid := by unfold adminFetched; split <;> rfl
@[simp] theorem adminFetched_controller (a b : Nat) (s : State) : (adminFetched a s).hq.controller b = s.hq.controller b := by simp [Hq.controller]
@[simp] theorem adminFetched_managed (a b : Nat) (s : State) : (adminFetched a s).hq.managed b = s.hq.managed b := by simp [Hq.managed]
@[simp] theorem adminFetched_handingOver (a : Nat) (s : State) : (adminFetched a s).handingOver = s.handingOver := by simp [State.handingOver]
theorem adminDone_sends {a c d : Nat} {b : Bytes} {s : State} (h : s.handingOver = false) :
    adminDone a c nvmeOk d b s = emit (s.completionOf a 0 c nvmeOk d b) s := by
  unfold adminDone; simp [h, noteError, nvmeOk]
theorem adminDone_holds {a c d : Nat} {b : Bytes} {s : State} (h : s.handingOver = true) :
    adminDone a c nvmeOk d b s = { s with hq := { s.hq with heldDone := s.hq.heldDone ++ [s.completionOf a 0 c nvmeOk d b] } } := by
  unfold adminDone; simp [h, noteError, nvmeOk]
@[simp] theorem tallyAdd_syncWaits (a b c n q : Nat) (s : State) : (tallyAdd a b c s).syncWaits n q = s.syncWaits n q := rfl
@[simp] theorem tallyAdd_ownsRoot (a b c : Nat) (s : State) (r : Root) : (tallyAdd a b c s).ownsRoot r = s.ownsRoot r := rfl
@[simp] theorem tallyAdd_ownsGroup (a b c : Nat) (s : State) (r : Nat) : (tallyAdd a b c s).ownsGroup r = s.ownsGroup r := rfl
@[simp] theorem tallyAdd_day (a b c : Nat) (s : State) : (tallyAdd a b c s).day = s.day := rfl
@[simp] theorem tallyAdd_paired (a b c : Nat) (s : State) : (tallyAdd a b c s).paired = s.paired := rfl
theorem bridgeStatus_low (op : DieOp) (n : Nat) (s : State) (h : n ≤ 4) : bridgeStatus op n s = (false, s) := by
  unfold bridgeStatus
  rw [if_neg (by omega), if_neg (by omega), if_neg (by omega), if_pos (.inl h)]
theorem onDone_next {d : BlpDone} {n : Nat} {f : DieOp → State → State} {s : State} {op : DieOp} (h1 : s.bay.find d.bay d.tag = some op)
    (h2 : op.opcode = n) (h3 : d.status ≤ 4) : onDone d n f s = .next (f op (takeDone op d s)) := by
  simp [onDone, h1, h2, bridgeStatus_low op d.status _ h3]
@[simp] theorem bayOf_put (b : Bays) (n : Nat) (x : Bay) : ({ b with bays := putKey n x b.bays } : Bays).bayOf n = x := by
  simp [Bays.bayOf, getKey_putKey_self]
theorem twiceSigned_second {p : Packet} {act : State → State} {s : State} {slot at_ : Nat}
    (h1 : getKey p.opcode s.cpi.firstSigned = some (p.params, (slot, at_))) (h2 : slot ≠ p.slot) (h3 : s.clockSec ≤ at_ + 600) :
    twiceSigned p act s = act { s with cpi := { s.cpi with firstSigned := delKey p.opcode s.cpi.firstSigned } } := by
  simp [twiceSigned, h1, h2, h3]
theorem addSwitch_agrees (x : SheetSwitch) (s : State) :
    ((addSwitch x s).tt.switches.filter (fun y => y.what == x.what)).getLast?.any (fun y => y.enter == x.enter) = true := by
  unfold addSwitch
  split
  · assumption
  · simp
theorem addSwitch_returning (x : SheetSwitch) (s : State) : (addSwitch x s).tt.returning = s.tt.returning := by
  unfold addSwitch; split <;> rfl
@[simp] theorem sendPeer_answered (b : CorrBody) (s : State) : (sendPeer b s).corr.answered = s.corr.answered := by
  unfold sendPeer; split <;> simp
@[simp] theorem tellBringUp_answered (w : Bool) (s : State) : (tellBringUp w s).corr.answered = s.corr.answered := by
  unfold tellBringUp; split <;> simp
theorem armBell_load (s : State) : (armBell s).tt.load = s.tt.load := by
  unfold armBell; split
  · rfl
  · split
    · rfl
    · dsimp only; split <;> simp [noteLoad]
theorem armBell_armDay (s : State) : (armBell s).tt.armDay = s.tt.armDay := by
  unfold armBell; split
  · rfl
  · split
    · rfl
    · dsimp only; split <;> simp [noteLoad]
theorem armBell_arming {b : Binding} {tag : Nat} {s : State} {p : Packet} (h : s.tt.arming = some (b, tag))
    (hp : s.cpi.packet b tag 0x0602 = some p) : (armBell s).tt.arming = some (b, tag) ∨ (armBell s).tt.lastStatus = .ok := by
  unfold armBell; rw [h]; dsimp only; split
  · exact .inl h
  · rw [hp]; exact .inr rfl
theorem adminFetched_find (h : Hq) (a : Nat) (s : State) (hq : h.queues = (adminFetched a s).hq.queues) :
    ((h.queue a 0).map (fun q => q.sqhd)).getD 0 = s.adminSqhd a := by
  have := adminFetched_sqhd s a
  unfold Hq.queue at this ⊢
  rw [hq]; exact this
theorem adminFetched_eq (a : Nat) (s : State) : ∃ l, adminFetched a s = { s with hq := { s.hq with queues := l } } := by
  unfold adminFetched; split
  · exact ⟨s.hq.queues, rfl⟩
  · exact ⟨_, rfl⟩
@[simp] theorem adminFetched_logPage (a : Nat) (s : State) (c : Controller) (lid : Nat) (peer : Bytes) :
    (adminFetched a s).logPage c lid peer = s.logPage c lid peer := by
  obtain ⟨l, h⟩ := adminFetched_eq a s; rw [h]; rfl
@[simp] theorem adminFetched_identifyData (a : Nat) (s : State) (c : Controller) (n m k : Nat) :
    (adminFetched a s).identifyData c n m k = s.identifyData c n m k := by
  obtain ⟨l, h⟩ := adminFetched_eq a s; rw [h]; rfl
@[simp] theorem adminFetched_property (a : Nat) (s : State) (c : Controller) (n : Nat) :
    (adminFetched a s).property c n = s.property c n := by
  obtain ⟨l, h⟩ := adminFetched_eq a s; rw [h]; rfl
@[simp] theorem adminFetched_replyText (a : Nat) (s : State) (r : Reply) : (adminFetched a s).replyText r = s.replyText r := by
  obtain ⟨l, h⟩ := adminFetched_eq a s; rw [h]; rfl
theorem readPage_handingOver (c : Controller) (lid n : Nat) (s : State) : (drawn n (readPage c lid s)).handingOver = s.handingOver := by
  unfold readPage; split
  · rfl
  · split <;> rfl
theorem reply_forwarded (n : Nat) (st : Status) (d : Bytes) (s : State) :
    (reply n (.forwarded st d) s).trust = s.trust ∧
    (reply n (.forwarded st d) s).corr = { s.corr with answered := putKey n (.forwarded st d) s.corr.answered, nextNumber := s.corr.nextNumber + 1 } := by
  unfold reply send transmit needsAnswer; dsimp only; split <;> exact ⟨rfl, rfl⟩
@[simp] theorem answer_trust (p : Packet) (st : Status) (d x y : Bytes) (s : State) : (answer p st d x y s).trust = s.trust := by
  unfold answer; dsimp only; split
  · exact (reply_forwarded _ _ _ _).1
  · by_cases hr : st = .resourceClaimed <;> simp [hr]
theorem answer_corr (p : Packet) (st : Status) (d x y : Bytes) (s : State) (h : p.binding ≠ .peer) : (answer p st d x y s).corr = s.corr := by
  unfold answer; dsimp only; rw [if_neg h]; by_cases hr : st = .resourceClaimed <;> simp [hr]
@[simp] theorem refuse_trust (p : Packet) (st : Status) (d : Bytes) (s : State) : (refuse p st d s).trust = s.trust := answer_trust _ _ _ _ _ _
@[simp] theorem badParam_trust (p : Packet) (n : Nat) (s : State) : (badParam p n s).trust = s.trust := answer_trust _ _ _ _ _ _
@[simp] theorem answered_trust (p : Packet) (x y : Bytes) (s : State) : (answered p x y s).trust = s.trust := answer_trust _ _ _ _ _ _
@[simp] theorem changed_trust (p : Packet) (x : Bytes) (s : State) : (changed p x s).trust = s.trust := by unfold changed; simp
theorem refuse_corr (p : Packet) (st : Status) (d : Bytes) (s : State) (h : p.binding ≠ .peer) : (refuse p st d s).corr = s.corr := answer_corr _ _ _ _ _ _ h
theorem answered_corr (p : Packet) (x y : Bytes) (s : State) (h : p.binding ≠ .peer) : (answered p x y s).corr = s.corr := answer_corr _ _ _ _ _ _ h
theorem changed_corr (p : Packet) (x : Bytes) (s : State) (h : p.binding ≠ .peer) : (changed p x s).corr = s.corr := by
  unfold changed; rw [answer_corr _ _ _ _ _ _ h]; simp
@[simp] theorem answer_corr_adopt (p : Packet) (st : Status) (d x y : Bytes) (s : State) : (answer p st d x y s).corr.adopt = s.corr.adopt := by
  unfold answer; dsimp only; split
  · rw [(reply_forwarded _ _ _ _).2]
  · by_cases hr : st = .resourceClaimed <;> simp [hr]
@[simp] theorem changed_corr_adopt (p : Packet) (x : Bytes) (s : State) : (changed p x s).corr.adopt = s.corr.adopt := by unfold changed; simp
@[simp] theorem refuse_corr_adopt (p : Packet) (st : Status) (d : Bytes) (s : State) : (refuse p st d s).corr.adopt = s.corr.adopt := answer_corr_adopt _ _ _ _ _ _
@[simp] theorem answer_corr_link (p : Packet) (st : Status) (d x y : Bytes) (s : State) : (answer p st d x y s).corr.link = s.corr.link := by
  unfold answer; dsimp only; split
  · rw [(reply_forwarded _ _ _ _).2]
  · by_cases hr : st = .resourceClaimed <;> simp [hr]
@[simp] theorem changed_corr_link (p : Packet) (x : Bytes) (s : State) : (changed p x s).corr.link = s.corr.link := by unfold changed; simp
@[simp] theorem answer_corr_lanes (p : Packet) (st : Status) (d x y : Bytes) (s : State) : (answer p st d x y s).corr.lanes = s.corr.lanes := by
  unfold answer; dsimp only; split
  · rw [(reply_forwarded _ _ _ _).2]
  · by_cases hr : st = .resourceClaimed <;> simp [hr]
@[simp] theorem changed_corr_lanes (p : Packet) (x : Bytes) (s : State) : (changed p x s).corr.lanes = s.corr.lanes := by unfold changed; simp
@[simp] theorem answer_corr_retrains (p : Packet) (st : Status) (d x y : Bytes) (s : State) : (answer p st d x y s).corr.retrains = s.corr.retrains := by
  unfold answer; dsimp only; split
  · rw [(reply_forwarded _ _ _ _).2]
  · by_cases hr : st = .resourceClaimed <;> simp [hr]
@[simp] theorem changed_corr_retrains (p : Packet) (x : Bytes) (s : State) : (changed p x s).corr.retrains = s.corr.retrains := by unfold changed; simp
/-- A new class and weight of a host leave the list of hosts as SYS_BINDING has written it. -/
@[simp] theorem rebindHost_hosts (nqn : Bytes) (n : Nat) (s : State) : (rebindHost nqn n s).hq.hosts = s.hq.hosts := by
  have k : Led { cpi := true, draws := true } { s with hq := { s.hq with queues := s.hq.queues.map (fun q =>
      if (s.hq.controllers.filter (fun c => c.nqn == nqn && c.subsystem == n)).any (fun c => c.cntlid == q.cntlid) then
        { q with weight := s.hq.weightOf nqn n } else q) } } (rebindHost nqn n s) := by
    unfold rebindHost
    refine Led.foldl ?_ ?_
    · exact .refl _ _
    · intro t c h
      split
      · exact bind_led _ _ _ h rfl
      · exact loseBinding_led _ h rfl
  rw [k.eq_hq rfl]

end Sys2Proof.Machine
end

