-- ==== Sys2Proof/Laws/State.lean ====
section
/-! SUPPORT. One lemma per field per update of the state, each true by rfl, so that no proof
unfolds a record update. -/

set_option Elab.async false
set_option linter.all false

namespace Sys2Proof.Machine

variable (s : State)

@[simp] theorem State.with_sys_sys (v : Sys) : State.sys { s with sys := v } = v := rfl
@[simp] theorem State.with_sys_pwr (v : Sys) : State.pwr { s with sys := v } = s.pwr := rfl
@[simp] theorem State.with_sys_pins (v : Sys) : State.pins { s with sys := v } = s.pins := rfl
@[simp] theorem State.with_sys_dram (v : Sys) : State.dram { s with sys := v } = s.dram := rfl
@[simp] theorem State.with_sys_trust (v : Sys) : State.trust { s with sys := v } = s.trust := rfl
@[simp] theorem State.with_sys_cpi (v : Sys) : State.cpi { s with sys := v } = s.cpi := rfl
@[simp] theorem State.with_sys_diary (v : Sys) : State.diary { s with sys := v } = s.diary := rfl
@[simp] theorem State.with_sys_tally (v : Sys) : State.tally { s with sys := v } = s.tally := rfl
@[simp] theorem State.with_sys_tt (v : Sys) : State.tt { s with sys := v } = s.tt := rfl
@[simp] theorem State.with_sys_lanes (v : Sys) : State.lanes { s with sys := v } = s.lanes := rfl
@[simp] theorem State.with_sys_stg (v : Sys) : State.stg { s with sys := v } = s.stg := rfl
@[simp] theorem State.with_sys_ddp (v : Sys) : State.ddp { s with sys := v } = s.ddp := rfl
@[simp] theorem State.with_sys_ftl (v : Sys) : State.ftl { s with sys := v } = s.ftl := rfl
@[simp] theorem State.with_sys_ec (v : Sys) : State.ec { s with sys := v } = s.ec := rfl
@[simp] theorem State.with_sys_bay (v : Sys) : State.bay { s with sys := v } = s.bay := rfl
@[simp] theorem State.with_sys_pool (v : Sys) : State.pool { s with sys := v } = s.pool := rfl
@[simp] theorem State.with_sys_saved (v : Sys) : State.saved { s with sys := v } = s.saved := rfl
@[simp] theorem State.with_sys_ciph (v : Sys) : State.ciph { s with sys := v } = s.ciph := rfl
@[simp] theorem State.with_sys_skx (v : Sys) : State.skx { s with sys := v } = s.skx := rfl
@[simp] theorem State.with_sys_jobs (v : Sys) : State.jobs { s with sys := v } = s.jobs := rfl
@[simp] theorem State.with_sys_hq (v : Sys) : State.hq { s with sys := v } = s.hq := rfl
@[simp] theorem State.with_sys_repl (v : Sys) : State.repl { s with sys := v } = s.repl := rfl
@[simp] theorem State.with_sys_corr (v : Sys) : State.corr { s with sys := v } = s.corr := rfl
@[simp] theorem State.with_sys_out (v : Sys) : State.out { s with sys := v } = s.out := rfl
@[simp] theorem State.with_sys_draws (v : Sys) : State.draws { s with sys := v } = s.draws := rfl
@[simp] theorem State.with_sys_pending (v : Sys) : State.pending { s with sys := v } = s.pending := rfl
@[simp] theorem State.with_pwr_sys (v : Pwr) : State.sys { s with pwr := v } = s.sys := rfl
@[simp] theorem State.with_pwr_pwr (v : Pwr) : State.pwr { s with pwr := v } = v := rfl
@[simp] theorem State.with_pwr_pins (v : Pwr) : State.pins { s with pwr := v } = s.pins := rfl
@[simp] theorem State.with_pwr_dram (v : Pwr) : State.dram { s with pwr := v } = s.dram := rfl
@[simp] theorem State.with_pwr_trust (v : Pwr) : State.trust { s with pwr := v } = s.trust := rfl
@[simp] theorem State.with_pwr_cpi (v : Pwr) : State.cpi { s with pwr := v } = s.cpi := rfl
@[simp] theorem State.with_pwr_diary (v : Pwr) : State.diary { s with pwr := v } = s.diary := rfl
@[simp] theorem State.with_pwr_tally (v : Pwr) : State.tally { s with pwr := v } = s.tally := rfl
@[simp] theorem State.with_pwr_tt (v : Pwr) : State.tt { s with pwr := v } = s.tt := rfl
@[simp] theorem State.with_pwr_lanes (v : Pwr) : State.lanes { s with pwr := v } = s.lanes := rfl
@[simp] theorem State.with_pwr_stg (v : Pwr) : State.stg { s with pwr := v } = s.stg := rfl
@[simp] theorem State.with_pwr_ddp (v : Pwr) : State.ddp { s with pwr := v } = s.ddp := rfl
@[simp] theorem State.with_pwr_ftl (v : Pwr) : State.ftl { s with pwr := v } = s.ftl := rfl
@[simp] theorem State.with_pwr_ec (v : Pwr) : State.ec { s with pwr := v } = s.ec := rfl
@[simp] theorem State.with_pwr_bay (v : Pwr) : State.bay { s with pwr := v } = s.bay := rfl
@[simp] theorem State.with_pwr_pool (v : Pwr) : State.pool { s with pwr := v } = s.pool := rfl
@[simp] theorem State.with_pwr_saved (v : Pwr) : State.saved { s with pwr := v } = s.saved := rfl
@[simp] theorem State.with_pwr_ciph (v : Pwr) : State.ciph { s with pwr := v } = s.ciph := rfl
@[simp] theorem State.with_pwr_skx (v : Pwr) : State.skx { s with pwr := v } = s.skx := rfl
@[simp] theorem State.with_pwr_jobs (v : Pwr) : State.jobs { s with pwr := v } = s.jobs := rfl
@[simp] theorem State.with_pwr_hq (v : Pwr) : State.hq { s with pwr := v } = s.hq := rfl
@[simp] theorem State.with_pwr_repl (v : Pwr) : State.repl { s with pwr := v } = s.repl := rfl
@[simp] theorem State.with_pwr_corr (v : Pwr) : State.corr { s with pwr := v } = s.corr := rfl
@[simp] theorem State.with_pwr_out (v : Pwr) : State.out { s with pwr := v } = s.out := rfl
@[simp] theorem State.with_pwr_draws (v : Pwr) : State.draws { s with pwr := v } = s.draws := rfl
@[simp] theorem State.with_pwr_pending (v : Pwr) : State.pending { s with pwr := v } = s.pending := rfl
@[simp] theorem State.with_pins_sys (v : Pins) : State.sys { s with pins := v } = s.sys := rfl
@[simp] theorem State.with_pins_pwr (v : Pins) : State.pwr { s with pins := v } = s.pwr := rfl
@[simp] theorem State.with_pins_pins (v : Pins) : State.pins { s with pins := v } = v := rfl
@[simp] theorem State.with_pins_dram (v : Pins) : State.dram { s with pins := v } = s.dram := rfl
@[simp] theorem State.with_pins_trust (v : Pins) : State.trust { s with pins := v } = s.trust := rfl
@[simp] theorem State.with_pins_cpi (v : Pins) : State.cpi { s with pins := v } = s.cpi := rfl
@[simp] theorem State.with_pins_diary (v : Pins) : State.diary { s with pins := v } = s.diary := rfl
@[simp] theorem State.with_pins_tally (v : Pins) : State.tally { s with pins := v } = s.tally := rfl
@[simp] theorem State.with_pins_tt (v : Pins) : State.tt { s with pins := v } = s.tt := rfl
@[simp] theorem State.with_pins_lanes (v : Pins) : State.lanes { s with pins := v } = s.lanes := rfl
@[simp] theorem State.with_pins_stg (v : Pins) : State.stg { s with pins := v } = s.stg := rfl
@[simp] theorem State.with_pins_ddp (v : Pins) : State.ddp { s with pins := v } = s.ddp := rfl
@[simp] theorem State.with_pins_ftl (v : Pins) : State.ftl { s with pins := v } = s.ftl := rfl
@[simp] theorem State.with_pins_ec (v : Pins) : State.ec { s with pins := v } = s.ec := rfl
@[simp] theorem State.with_pins_bay (v : Pins) : State.bay { s with pins := v } = s.bay := rfl
@[simp] theorem State.with_pins_pool (v : Pins) : State.pool { s with pins := v } = s.pool := rfl
@[simp] theorem State.with_pins_saved (v : Pins) : State.saved { s with pins := v } = s.saved := rfl
@[simp] theorem State.with_pins_ciph (v : Pins) : State.ciph { s with pins := v } = s.ciph := rfl
@[simp] theorem State.with_pins_skx (v : Pins) : State.skx { s with pins := v } = s.skx := rfl
@[simp] theorem State.with_pins_jobs (v : Pins) : State.jobs { s with pins := v } = s.jobs := rfl
@[simp] theorem State.with_pins_hq (v : Pins) : State.hq { s with pins := v } = s.hq := rfl
@[simp] theorem State.with_pins_repl (v : Pins) : State.repl { s with pins := v } = s.repl := rfl
@[simp] theorem State.with_pins_corr (v : Pins) : State.corr { s with pins := v } = s.corr := rfl
@[simp] theorem State.with_pins_out (v : Pins) : State.out { s with pins := v } = s.out := rfl
@[simp] theorem State.with_pins_draws (v : Pins) : State.draws { s with pins := v } = s.draws := rfl
@[simp] theorem State.with_pins_pending (v : Pins) : State.pending { s with pins := v } = s.pending := rfl
@[simp] theorem State.with_dram_sys (v : Dram) : State.sys { s with dram := v } = s.sys := rfl
@[simp] theorem State.with_dram_pwr (v : Dram) : State.pwr { s with dram := v } = s.pwr := rfl
@[simp] theorem State.with_dram_pins (v : Dram) : State.pins { s with dram := v } = s.pins := rfl
@[simp] theorem State.with_dram_dram (v : Dram) : State.dram { s with dram := v } = v := rfl
@[simp] theorem State.with_dram_trust (v : Dram) : State.trust { s with dram := v } = s.trust := rfl
@[simp] theorem State.with_dram_cpi (v : Dram) : State.cpi { s with dram := v } = s.cpi := rfl
@[simp] theorem State.with_dram_diary (v : Dram) : State.diary { s with dram := v } = s.diary := rfl
@[simp] theorem State.with_dram_tally (v : Dram) : State.tally { s with dram := v } = s.tally := rfl
@[simp] theorem State.with_dram_tt (v : Dram) : State.tt { s with dram := v } = s.tt := rfl
@[simp] theorem State.with_dram_lanes (v : Dram) : State.lanes { s with dram := v } = s.lanes := rfl
@[simp] theorem State.with_dram_stg (v : Dram) : State.stg { s with dram := v } = s.stg := rfl
@[simp] theorem State.with_dram_ddp (v : Dram) : State.ddp { s with dram := v } = s.ddp := rfl
@[simp] theorem State.with_dram_ftl (v : Dram) : State.ftl { s with dram := v } = s.ftl := rfl
@[simp] theorem State.with_dram_ec (v : Dram) : State.ec { s with dram := v } = s.ec := rfl
@[simp] theorem State.with_dram_bay (v : Dram) : State.bay { s with dram := v } = s.bay := rfl
@[simp] theorem State.with_dram_pool (v : Dram) : State.pool { s with dram := v } = s.pool := rfl
@[simp] theorem State.with_dram_saved (v : Dram) : State.saved { s with dram := v } = s.saved := rfl
@[simp] theorem State.with_dram_ciph (v : Dram) : State.ciph { s with dram := v } = s.ciph := rfl
@[simp] theorem State.with_dram_skx (v : Dram) : State.skx { s with dram := v } = s.skx := rfl
@[simp] theorem State.with_dram_jobs (v : Dram) : State.jobs { s with dram := v } = s.jobs := rfl
@[simp] theorem State.with_dram_hq (v : Dram) : State.hq { s with dram := v } = s.hq := rfl
@[simp] theorem State.with_dram_repl (v : Dram) : State.repl { s with dram := v } = s.repl := rfl
@[simp] theorem State.with_dram_corr (v : Dram) : State.corr { s with dram := v } = s.corr := rfl
@[simp] theorem State.with_dram_out (v : Dram) : State.out { s with dram := v } = s.out := rfl
@[simp] theorem State.with_dram_draws (v : Dram) : State.draws { s with dram := v } = s.draws := rfl
@[simp] theorem State.with_dram_pending (v : Dram) : State.pending { s with dram := v } = s.pending := rfl
@[simp] theorem State.with_trust_sys (v : Trust) : State.sys { s with trust := v } = s.sys := rfl
@[simp] theorem State.with_trust_pwr (v : Trust) : State.pwr { s with trust := v } = s.pwr := rfl
@[simp] theorem State.with_trust_pins (v : Trust) : State.pins { s with trust := v } = s.pins := rfl
@[simp] theorem State.with_trust_dram (v : Trust) : State.dram { s with trust := v } = s.dram := rfl
@[simp] theorem State.with_trust_trust (v : Trust) : State.trust { s with trust := v } = v := rfl
@[simp] theorem State.with_trust_cpi (v : Trust) : State.cpi { s with trust := v } = s.cpi := rfl
@[simp] theorem State.with_trust_diary (v : Trust) : State.diary { s with trust := v } = s.diary := rfl
@[simp] theorem State.with_trust_tally (v : Trust) : State.tally { s with trust := v } = s.tally := rfl
@[simp] theorem State.with_trust_tt (v : Trust) : State.tt { s with trust := v } = s.tt := rfl
@[simp] theorem State.with_trust_lanes (v : Trust) : State.lanes { s with trust := v } = s.lanes := rfl
@[simp] theorem State.with_trust_stg (v : Trust) : State.stg { s with trust := v } = s.stg := rfl
@[simp] theorem State.with_trust_ddp (v : Trust) : State.ddp { s with trust := v } = s.ddp := rfl
@[simp] theorem State.with_trust_ftl (v : Trust) : State.ftl { s with trust := v } = s.ftl := rfl
@[simp] theorem State.with_trust_ec (v : Trust) : State.ec { s with trust := v } = s.ec := rfl
@[simp] theorem State.with_trust_bay (v : Trust) : State.bay { s with trust := v } = s.bay := rfl
@[simp] theorem State.with_trust_pool (v : Trust) : State.pool { s with trust := v } = s.pool := rfl
@[simp] theorem State.with_trust_saved (v : Trust) : State.saved { s with trust := v } = s.saved := rfl
@[simp] theorem State.with_trust_ciph (v : Trust) : State.ciph { s with trust := v } = s.ciph := rfl
@[simp] theorem State.with_trust_skx (v : Trust) : State.skx { s with trust := v } = s.skx := rfl
@[simp] theorem State.with_trust_jobs (v : Trust) : State.jobs { s with trust := v } = s.jobs := rfl
@[simp] theorem State.with_trust_hq (v : Trust) : State.hq { s with trust := v } = s.hq := rfl
@[simp] theorem State.with_trust_repl (v : Trust) : State.repl { s with trust := v } = s.repl := rfl
@[simp] theorem State.with_trust_corr (v : Trust) : State.corr { s with trust := v } = s.corr := rfl
@[simp] theorem State.with_trust_out (v : Trust) : State.out { s with trust := v } = s.out := rfl
@[simp] theorem State.with_trust_draws (v : Trust) : State.draws { s with trust := v } = s.draws := rfl
@[simp] theorem State.with_trust_pending (v : Trust) : State.pending { s with trust := v } = s.pending := rfl
@[simp] theorem State.with_cpi_sys (v : Cpi) : State.sys { s with cpi := v } = s.sys := rfl
@[simp] theorem State.with_cpi_pwr (v : Cpi) : State.pwr { s with cpi := v } = s.pwr := rfl
@[simp] theorem State.with_cpi_pins (v : Cpi) : State.pins { s with cpi := v } = s.pins := rfl
@[simp] theorem State.with_cpi_dram (v : Cpi) : State.dram { s with cpi := v } = s.dram := rfl
@[simp] theorem State.with_cpi_trust (v : Cpi) : State.trust { s with cpi := v } = s.trust := rfl
@[simp] theorem State.with_cpi_cpi (v : Cpi) : State.cpi { s with cpi := v } = v := rfl
@[simp] theorem State.with_cpi_diary (v : Cpi) : State.diary { s with cpi := v } = s.diary := rfl
@[simp] theorem State.with_cpi_tally (v : Cpi) : State.tally { s with cpi := v } = s.tally := rfl
@[simp] theorem State.with_cpi_tt (v : Cpi) : State.tt { s with cpi := v } = s.tt := rfl
@[simp] theorem State.with_cpi_lanes (v : Cpi) : State.lanes { s with cpi := v } = s.lanes := rfl
@[simp] theorem State.with_cpi_stg (v : Cpi) : State.stg { s with cpi := v } = s.stg := rfl
@[simp] theorem State.with_cpi_ddp (v : Cpi) : State.ddp { s with cpi := v } = s.ddp := rfl
@[simp] theorem State.with_cpi_ftl (v : Cpi) : State.ftl { s with cpi := v } = s.ftl := rfl
@[simp] theorem State.with_cpi_ec (v : Cpi) : State.ec { s with cpi := v } = s.ec := rfl
@[simp] theorem State.with_cpi_bay (v : Cpi) : State.bay { s with cpi := v } = s.bay := rfl
@[simp] theorem State.with_cpi_pool (v : Cpi) : State.pool { s with cpi := v } = s.pool := rfl
@[simp] theorem State.with_cpi_saved (v : Cpi) : State.saved { s with cpi := v } = s.saved := rfl
@[simp] theorem State.with_cpi_ciph (v : Cpi) : State.ciph { s with cpi := v } = s.ciph := rfl
@[simp] theorem State.with_cpi_skx (v : Cpi) : State.skx { s with cpi := v } = s.skx := rfl
@[simp] theorem State.with_cpi_jobs (v : Cpi) : State.jobs { s with cpi := v } = s.jobs := rfl
@[simp] theorem State.with_cpi_hq (v : Cpi) : State.hq { s with cpi := v } = s.hq := rfl
@[simp] theorem State.with_cpi_repl (v : Cpi) : State.repl { s with cpi := v } = s.repl := rfl
@[simp] theorem State.with_cpi_corr (v : Cpi) : State.corr { s with cpi := v } = s.corr := rfl
@[simp] theorem State.with_cpi_out (v : Cpi) : State.out { s with cpi := v } = s.out := rfl
@[simp] theorem State.with_cpi_draws (v : Cpi) : State.draws { s with cpi := v } = s.draws := rfl
@[simp] theorem State.with_cpi_pending (v : Cpi) : State.pending { s with cpi := v } = s.pending := rfl
@[simp] theorem State.with_diary_sys (v : Diary) : State.sys { s with diary := v } = s.sys := rfl
@[simp] theorem State.with_diary_pwr (v : Diary) : State.pwr { s with diary := v } = s.pwr := rfl
@[simp] theorem State.with_diary_pins (v : Diary) : State.pins { s with diary := v } = s.pins := rfl
@[simp] theorem State.with_diary_dram (v : Diary) : State.dram { s with diary := v } = s.dram := rfl
@[simp] theorem State.with_diary_trust (v : Diary) : State.trust { s with diary := v } = s.trust := rfl
@[simp] theorem State.with_diary_cpi (v : Diary) : State.cpi { s with diary := v } = s.cpi := rfl
@[simp] theorem State.with_diary_diary (v : Diary) : State.diary { s with diary := v } = v := rfl
@[simp] theorem State.with_diary_tally (v : Diary) : State.tally { s with diary := v } = s.tally := rfl
@[simp] theorem State.with_diary_tt (v : Diary) : State.tt { s with diary := v } = s.tt := rfl
@[simp] theorem State.with_diary_lanes (v : Diary) : State.lanes { s with diary := v } = s.lanes := rfl
@[simp] theorem State.with_diary_stg (v : Diary) : State.stg { s with diary := v } = s.stg := rfl
@[simp] theorem State.with_diary_ddp (v : Diary) : State.ddp { s with diary := v } = s.ddp := rfl
@[simp] theorem State.with_diary_ftl (v : Diary) : State.ftl { s with diary := v } = s.ftl := rfl
@[simp] theorem State.with_diary_ec (v : Diary) : State.ec { s with diary := v } = s.ec := rfl
@[simp] theorem State.with_diary_bay (v : Diary) : State.bay { s with diary := v } = s.bay := rfl
@[simp] theorem State.with_diary_pool (v : Diary) : State.pool { s with diary := v } = s.pool := rfl
@[simp] theorem State.with_diary_saved (v : Diary) : State.saved { s with diary := v } = s.saved := rfl
@[simp] theorem State.with_diary_ciph (v : Diary) : State.ciph { s with diary := v } = s.ciph := rfl
@[simp] theorem State.with_diary_skx (v : Diary) : State.skx { s with diary := v } = s.skx := rfl
@[simp] theorem State.with_diary_jobs (v : Diary) : State.jobs { s with diary := v } = s.jobs := rfl
@[simp] theorem State.with_diary_hq (v : Diary) : State.hq { s with diary := v } = s.hq := rfl
@[simp] theorem State.with_diary_repl (v : Diary) : State.repl { s with diary := v } = s.repl := rfl
@[simp] theorem State.with_diary_corr (v : Diary) : State.corr { s with diary := v } = s.corr := rfl
@[simp] theorem State.with_diary_out (v : Diary) : State.out { s with diary := v } = s.out := rfl
@[simp] theorem State.with_diary_draws (v : Diary) : State.draws { s with diary := v } = s.draws := rfl
@[simp] theorem State.with_diary_pending (v : Diary) : State.pending { s with diary := v } = s.pending := rfl
@[simp] theorem State.with_tally_sys (v : Tally) : State.sys { s with tally := v } = s.sys := rfl
@[simp] theorem State.with_tally_pwr (v : Tally) : State.pwr { s with tally := v } = s.pwr := rfl
@[simp] theorem State.with_tally_pins (v : Tally) : State.pins { s with tally := v } = s.pins := rfl
@[simp] theorem State.with_tally_dram (v : Tally) : State.dram { s with tally := v } = s.dram := rfl
@[simp] theorem State.with_tally_trust (v : Tally) : State.trust { s with tally := v } = s.trust := rfl
@[simp] theorem State.with_tally_cpi (v : Tally) : State.cpi { s with tally := v } = s.cpi := rfl
@[simp] theorem State.with_tally_diary (v : Tally) : State.diary { s with tally := v } = s.diary := rfl
@[simp] theorem State.with_tally_tally (v : Tally) : State.tally { s with tally := v } = v := rfl
@[simp] theorem State.with_tally_tt (v : Tally) : State.tt { s with tally := v } = s.tt := rfl
@[simp] theorem State.with_tally_lanes (v : Tally) : State.lanes { s with tally := v } = s.lanes := rfl
@[simp] theorem State.with_tally_stg (v : Tally) : State.stg { s with tally := v } = s.stg := rfl
@[simp] theorem State.with_tally_ddp (v : Tally) : State.ddp { s with tally := v } = s.ddp := rfl
@[simp] theorem State.with_tally_ftl (v : Tally) : State.ftl { s with tally := v } = s.ftl := rfl
@[simp] theorem State.with_tally_ec (v : Tally) : State.ec { s with tally := v } = s.ec := rfl
@[simp] theorem State.with_tally_bay (v : Tally) : State.bay { s with tally := v } = s.bay := rfl
@[simp] theorem State.with_tally_pool (v : Tally) : State.pool { s with tally := v } = s.pool := rfl
@[simp] theorem State.with_tally_saved (v : Tally) : State.saved { s with tally := v } = s.saved := rfl
@[simp] theorem State.with_tally_ciph (v : Tally) : State.ciph { s with tally := v } = s.ciph := rfl
@[simp] theorem State.with_tally_skx (v : Tally) : State.skx { s with tally := v } = s.skx := rfl
@[simp] theorem State.with_tally_jobs (v : Tally) : State.jobs { s with tally := v } = s.jobs := rfl
@[simp] theorem State.with_tally_hq (v : Tally) : State.hq { s with tally := v } = s.hq := rfl
@[simp] theorem State.with_tally_repl (v : Tally) : State.repl { s with tally := v } = s.repl := rfl
@[simp] theorem State.with_tally_corr (v : Tally) : State.corr { s with tally := v } = s.corr := rfl
@[simp] theorem State.with_tally_out (v : Tally) : State.out { s with tally := v } = s.out := rfl
@[simp] theorem State.with_tally_draws (v : Tally) : State.draws { s with tally := v } = s.draws := rfl
@[simp] theorem State.with_tally_pending (v : Tally) : State.pending { s with tally := v } = s.pending := rfl
@[simp] theorem State.with_tt_sys (v : Tt) : State.sys { s with tt := v } = s.sys := rfl
@[simp] theorem State.with_tt_pwr (v : Tt) : State.pwr { s with tt := v } = s.pwr := rfl
@[simp] theorem State.with_tt_pins (v : Tt) : State.pins { s with tt := v } = s.pins := rfl
@[simp] theorem State.with_tt_dram (v : Tt) : State.dram { s with tt := v } = s.dram := rfl
@[simp] theorem State.with_tt_trust (v : Tt) : State.trust { s with tt := v } = s.trust := rfl
@[simp] theorem State.with_tt_cpi (v : Tt) : State.cpi { s with tt := v } = s.cpi := rfl
@[simp] theorem State.with_tt_diary (v : Tt) : State.diary { s with tt := v } = s.diary := rfl
@[simp] theorem State.with_tt_tally (v : Tt) : State.tally { s with tt := v } = s.tally := rfl
@[simp] theorem State.with_tt_tt (v : Tt) : State.tt { s with tt := v } = v := rfl
@[simp] theorem State.with_tt_lanes (v : Tt) : State.lanes { s with tt := v } = s.lanes := rfl
@[simp] theorem State.with_tt_stg (v : Tt) : State.stg { s with tt := v } = s.stg := rfl
@[simp] theorem State.with_tt_ddp (v : Tt) : State.ddp { s with tt := v } = s.ddp := rfl
@[simp] theorem State.with_tt_ftl (v : Tt) : State.ftl { s with tt := v } = s.ftl := rfl
@[simp] theorem State.with_tt_ec (v : Tt) : State.ec { s with tt := v } = s.ec := rfl
@[simp] theorem State.with_tt_bay (v : Tt) : State.bay { s with tt := v } = s.bay := rfl
@[simp] theorem State.with_tt_pool (v : Tt) : State.pool { s with tt := v } = s.pool := rfl
@[simp] theorem State.with_tt_saved (v : Tt) : State.saved { s with tt := v } = s.saved := rfl
@[simp] theorem State.with_tt_ciph (v : Tt) : State.ciph { s with tt := v } = s.ciph := rfl
@[simp] theorem State.with_tt_skx (v : Tt) : State.skx { s with tt := v } = s.skx := rfl
@[simp] theorem State.with_tt_jobs (v : Tt) : State.jobs { s with tt := v } = s.jobs := rfl
@[simp] theorem State.with_tt_hq (v : Tt) : State.hq { s with tt := v } = s.hq := rfl
@[simp] theorem State.with_tt_repl (v : Tt) : State.repl { s with tt := v } = s.repl := rfl
@[simp] theorem State.with_tt_corr (v : Tt) : State.corr { s with tt := v } = s.corr := rfl
@[simp] theorem State.with_tt_out (v : Tt) : State.out { s with tt := v } = s.out := rfl
@[simp] theorem State.with_tt_draws (v : Tt) : State.draws { s with tt := v } = s.draws := rfl
@[simp] theorem State.with_tt_pending (v : Tt) : State.pending { s with tt := v } = s.pending := rfl
@[simp] theorem State.with_lanes_sys (v : Lanes) : State.sys { s with lanes := v } = s.sys := rfl
@[simp] theorem State.with_lanes_pwr (v : Lanes) : State.pwr { s with lanes := v } = s.pwr := rfl
@[simp] theorem State.with_lanes_pins (v : Lanes) : State.pins { s with lanes := v } = s.pins := rfl
@[simp] theorem State.with_lanes_dram (v : Lanes) : State.dram { s with lanes := v } = s.dram := rfl
@[simp] theorem State.with_lanes_trust (v : Lanes) : State.trust { s with lanes := v } = s.trust := rfl
@[simp] theorem State.with_lanes_cpi (v : Lanes) : State.cpi { s with lanes := v } = s.cpi := rfl
@[simp] theorem State.with_lanes_diary (v : Lanes) : State.diary { s with lanes := v } = s.diary := rfl
@[simp] theorem State.with_lanes_tally (v : Lanes) : State.tally { s with lanes := v } = s.tally := rfl
@[simp] theorem State.with_lanes_tt (v : Lanes) : State.tt { s with lanes := v } = s.tt := rfl
@[simp] theorem State.with_lanes_lanes (v : Lanes) : State.lanes { s with lanes := v } = v := rfl
@[simp] theorem State.with_lanes_stg (v : Lanes) : State.stg { s with lanes := v } = s.stg := rfl
@[simp] theorem State.with_lanes_ddp (v : Lanes) : State.ddp { s with lanes := v } = s.ddp := rfl
@[simp] theorem State.with_lanes_ftl (v : Lanes) : State.ftl { s with lanes := v } = s.ftl := rfl
@[simp] theorem State.with_lanes_ec (v : Lanes) : State.ec { s with lanes := v } = s.ec := rfl
@[simp] theorem State.with_lanes_bay (v : Lanes) : State.bay { s with lanes := v } = s.bay := rfl
@[simp] theorem State.with_lanes_pool (v : Lanes) : State.pool { s with lanes := v } = s.pool := rfl
@[simp] theorem State.with_lanes_saved (v : Lanes) : State.saved { s with lanes := v } = s.saved := rfl
@[simp] theorem State.with_lanes_ciph (v : Lanes) : State.ciph { s with lanes := v } = s.ciph := rfl
@[simp] theorem State.with_lanes_skx (v : Lanes) : State.skx { s with lanes := v } = s.skx := rfl
@[simp] theorem State.with_lanes_jobs (v : Lanes) : State.jobs { s with lanes := v } = s.jobs := rfl
@[simp] theorem State.with_lanes_hq (v : Lanes) : State.hq { s with lanes := v } = s.hq := rfl
@[simp] theorem State.with_lanes_repl (v : Lanes) : State.repl { s with lanes := v } = s.repl := rfl
@[simp] theorem State.with_lanes_corr (v : Lanes) : State.corr { s with lanes := v } = s.corr := rfl
@[simp] theorem State.with_lanes_out (v : Lanes) : State.out { s with lanes := v } = s.out := rfl
@[simp] theorem State.with_lanes_draws (v : Lanes) : State.draws { s with lanes := v } = s.draws := rfl
@[simp] theorem State.with_lanes_pending (v : Lanes) : State.pending { s with lanes := v } = s.pending := rfl
@[simp] theorem State.with_stg_sys (v : Stg) : State.sys { s with stg := v } = s.sys := rfl
@[simp] theorem State.with_stg_pwr (v : Stg) : State.pwr { s with stg := v } = s.pwr := rfl
@[simp] theorem State.with_stg_pins (v : Stg) : State.pins { s with stg := v } = s.pins := rfl
@[simp] theorem State.with_stg_dram (v : Stg) : State.dram { s with stg := v } = s.dram := rfl
@[simp] theorem State.with_stg_trust (v : Stg) : State.trust { s with stg := v } = s.trust := rfl
@[simp] theorem State.with_stg_cpi (v : Stg) : State.cpi { s with stg := v } = s.cpi := rfl
@[simp] theorem State.with_stg_diary (v : Stg) : State.diary { s with stg := v } = s.diary := rfl
@[simp] theorem State.with_stg_tally (v : Stg) : State.tally { s with stg := v } = s.tally := rfl
@[simp] theorem State.with_stg_tt (v : Stg) : State.tt { s with stg := v } = s.tt := rfl
@[simp] theorem State.with_stg_lanes (v : Stg) : State.lanes { s with stg := v } = s.lanes := rfl
@[simp] theorem State.with_stg_stg (v : Stg) : State.stg { s with stg := v } = v := rfl
@[simp] theorem State.with_stg_ddp (v : Stg) : State.ddp { s with stg := v } = s.ddp := rfl
@[simp] theorem State.with_stg_ftl (v : Stg) : State.ftl { s with stg := v } = s.ftl := rfl
@[simp] theorem State.with_stg_ec (v : Stg) : State.ec { s with stg := v } = s.ec := rfl
@[simp] theorem State.with_stg_bay (v : Stg) : State.bay { s with stg := v } = s.bay := rfl
@[simp] theorem State.with_stg_pool (v : Stg) : State.pool { s with stg := v } = s.pool := rfl
@[simp] theorem State.with_stg_saved (v : Stg) : State.saved { s with stg := v } = s.saved := rfl
@[simp] theorem State.with_stg_ciph (v : Stg) : State.ciph { s with stg := v } = s.ciph := rfl
@[simp] theorem State.with_stg_skx (v : Stg) : State.skx { s with stg := v } = s.skx := rfl
@[simp] theorem State.with_stg_jobs (v : Stg) : State.jobs { s with stg := v } = s.jobs := rfl
@[simp] theorem State.with_stg_hq (v : Stg) : State.hq { s with stg := v } = s.hq := rfl
@[simp] theorem State.with_stg_repl (v : Stg) : State.repl { s with stg := v } = s.repl := rfl
@[simp] theorem State.with_stg_corr (v : Stg) : State.corr { s with stg := v } = s.corr := rfl
@[simp] theorem State.with_stg_out (v : Stg) : State.out { s with stg := v } = s.out := rfl
@[simp] theorem State.with_stg_draws (v : Stg) : State.draws { s with stg := v } = s.draws := rfl
@[simp] theorem State.with_stg_pending (v : Stg) : State.pending { s with stg := v } = s.pending := rfl
@[simp] theorem State.with_ddp_sys (v : Ddp) : State.sys { s with ddp := v } = s.sys := rfl
@[simp] theorem State.with_ddp_pwr (v : Ddp) : State.pwr { s with ddp := v } = s.pwr := rfl
@[simp] theorem State.with_ddp_pins (v : Ddp) : State.pins { s with ddp := v } = s.pins := rfl
@[simp] theorem State.with_ddp_dram (v : Ddp) : State.dram { s with ddp := v } = s.dram := rfl
@[simp] theorem State.with_ddp_trust (v : Ddp) : State.trust { s with ddp := v } = s.trust := rfl
@[simp] theorem State.with_ddp_cpi (v : Ddp) : State.cpi { s with ddp := v } = s.cpi := rfl
@[simp] theorem State.with_ddp_diary (v : Ddp) : State.diary { s with ddp := v } = s.diary := rfl
@[simp] theorem State.with_ddp_tally (v : Ddp) : State.tally { s with ddp := v } = s.tally := rfl
@[simp] theorem State.with_ddp_tt (v : Ddp) : State.tt { s with ddp := v } = s.tt := rfl
@[simp] theorem State.with_ddp_lanes (v : Ddp) : State.lanes { s with ddp := v } = s.lanes := rfl
@[simp] theorem State.with_ddp_stg (v : Ddp) : State.stg { s with ddp := v } = s.stg := rfl
@[simp] theorem State.with_ddp_ddp (v : Ddp) : State.ddp { s with ddp := v } = v := rfl
@[simp] theorem State.with_ddp_ftl (v : Ddp) : State.ftl { s with ddp := v } = s.ftl := rfl
@[simp] theorem State.with_ddp_ec (v : Ddp) : State.ec { s with ddp := v } = s.ec := rfl
@[simp] theorem State.with_ddp_bay (v : Ddp) : State.bay { s with ddp := v } = s.bay := rfl
@[simp] theorem State.with_ddp_pool (v : Ddp) : State.pool { s with ddp := v } = s.pool := rfl
@[simp] theorem State.with_ddp_saved (v : Ddp) : State.saved { s with ddp := v } = s.saved := rfl
@[simp] theorem State.with_ddp_ciph (v : Ddp) : State.ciph { s with ddp := v } = s.ciph := rfl
@[simp] theorem State.with_ddp_skx (v : Ddp) : State.skx { s with ddp := v } = s.skx := rfl
@[simp] theorem State.with_ddp_jobs (v : Ddp) : State.jobs { s with ddp := v } = s.jobs := rfl
@[simp] theorem State.with_ddp_hq (v : Ddp) : State.hq { s with ddp := v } = s.hq := rfl
@[simp] theorem State.with_ddp_repl (v : Ddp) : State.repl { s with ddp := v } = s.repl := rfl
@[simp] theorem State.with_ddp_corr (v : Ddp) : State.corr { s with ddp := v } = s.corr := rfl
@[simp] theorem State.with_ddp_out (v : Ddp) : State.out { s with ddp := v } = s.out := rfl
@[simp] theorem State.with_ddp_draws (v : Ddp) : State.draws { s with ddp := v } = s.draws := rfl
@[simp] theorem State.with_ddp_pending (v : Ddp) : State.pending { s with ddp := v } = s.pending := rfl
@[simp] theorem State.with_ftl_sys (v : Ftl) : State.sys { s with ftl := v } = s.sys := rfl
@[simp] theorem State.with_ftl_pwr (v : Ftl) : State.pwr { s with ftl := v } = s.pwr := rfl
@[simp] theorem State.with_ftl_pins (v : Ftl) : State.pins { s with ftl := v } = s.pins := rfl
@[simp] theorem State.with_ftl_dram (v : Ftl) : State.dram { s with ftl := v } = s.dram := rfl
@[simp] theorem State.with_ftl_trust (v : Ftl) : State.trust { s with ftl := v } = s.trust := rfl
@[simp] theorem State.with_ftl_cpi (v : Ftl) : State.cpi { s with ftl := v } = s.cpi := rfl
@[simp] theorem State.with_ftl_diary (v : Ftl) : State.diary { s with ftl := v } = s.diary := rfl
@[simp] theorem State.with_ftl_tally (v : Ftl) : State.tally { s with ftl := v } = s.tally := rfl
@[simp] theorem State.with_ftl_tt (v : Ftl) : State.tt { s with ftl := v } = s.tt := rfl
@[simp] theorem State.with_ftl_lanes (v : Ftl) : State.lanes { s with ftl := v } = s.lanes := rfl
@[simp] theorem State.with_ftl_stg (v : Ftl) : State.stg { s with ftl := v } = s.stg := rfl
@[simp] theorem State.with_ftl_ddp (v : Ftl) : State.ddp { s with ftl := v } = s.ddp := rfl
@[simp] theorem State.with_ftl_ftl (v : Ftl) : State.ftl { s with ftl := v } = v := rfl
@[simp] theorem State.with_ftl_ec (v : Ftl) : State.ec { s with ftl := v } = s.ec := rfl
@[simp] theorem State.with_ftl_bay (v : Ftl) : State.bay { s with ftl := v } = s.bay := rfl
@[simp] theorem State.with_ftl_pool (v : Ftl) : State.pool { s with ftl := v } = s.pool := rfl
@[simp] theorem State.with_ftl_saved (v : Ftl) : State.saved { s with ftl := v } = s.saved := rfl
@[simp] theorem State.with_ftl_ciph (v : Ftl) : State.ciph { s with ftl := v } = s.ciph := rfl
@[simp] theorem State.with_ftl_skx (v : Ftl) : State.skx { s with ftl := v } = s.skx := rfl
@[simp] theorem State.with_ftl_jobs (v : Ftl) : State.jobs { s with ftl := v } = s.jobs := rfl
@[simp] theorem State.with_ftl_hq (v : Ftl) : State.hq { s with ftl := v } = s.hq := rfl
@[simp] theorem State.with_ftl_repl (v : Ftl) : State.repl { s with ftl := v } = s.repl := rfl
@[simp] theorem State.with_ftl_corr (v : Ftl) : State.corr { s with ftl := v } = s.corr := rfl
@[simp] theorem State.with_ftl_out (v : Ftl) : State.out { s with ftl := v } = s.out := rfl
@[simp] theorem State.with_ftl_draws (v : Ftl) : State.draws { s with ftl := v } = s.draws := rfl
@[simp] theorem State.with_ftl_pending (v : Ftl) : State.pending { s with ftl := v } = s.pending := rfl
@[simp] theorem State.with_ec_sys (v : Ec) : State.sys { s with ec := v } = s.sys := rfl
@[simp] theorem State.with_ec_pwr (v : Ec) : State.pwr { s with ec := v } = s.pwr := rfl
@[simp] theorem State.with_ec_pins (v : Ec) : State.pins { s with ec := v } = s.pins := rfl
@[simp] theorem State.with_ec_dram (v : Ec) : State.dram { s with ec := v } = s.dram := rfl
@[simp] theorem State.with_ec_trust (v : Ec) : State.trust { s with ec := v } = s.trust := rfl
@[simp] theorem State.with_ec_cpi (v : Ec) : State.cpi { s with ec := v } = s.cpi := rfl
@[simp] theorem State.with_ec_diary (v : Ec) : State.diary { s with ec := v } = s.diary := rfl
@[simp] theorem State.with_ec_tally (v : Ec) : State.tally { s with ec := v } = s.tally := rfl
@[simp] theorem State.with_ec_tt (v : Ec) : State.tt { s with ec := v } = s.tt := rfl
@[simp] theorem State.with_ec_lanes (v : Ec) : State.lanes { s with ec := v } = s.lanes := rfl
@[simp] theorem State.with_ec_stg (v : Ec) : State.stg { s with ec := v } = s.stg := rfl
@[simp] theorem State.with_ec_ddp (v : Ec) : State.ddp { s with ec := v } = s.ddp := rfl
@[simp] theorem State.with_ec_ftl (v : Ec) : State.ftl { s with ec := v } = s.ftl := rfl
@[simp] theorem State.with_ec_ec (v : Ec) : State.ec { s with ec := v } = v := rfl
@[simp] theorem State.with_ec_bay (v : Ec) : State.bay { s with ec := v } = s.bay := rfl
@[simp] theorem State.with_ec_pool (v : Ec) : State.pool { s with ec := v } = s.pool := rfl
@[simp] theorem State.with_ec_saved (v : Ec) : State.saved { s with ec := v } = s.saved := rfl
@[simp] theorem State.with_ec_ciph (v : Ec) : State.ciph { s with ec := v } = s.ciph := rfl
@[simp] theorem State.with_ec_skx (v : Ec) : State.skx { s with ec := v } = s.skx := rfl
@[simp] theorem State.with_ec_jobs (v : Ec) : State.jobs { s with ec := v } = s.jobs := rfl
@[simp] theorem State.with_ec_hq (v : Ec) : State.hq { s with ec := v } = s.hq := rfl
@[simp] theorem State.with_ec_repl (v : Ec) : State.repl { s with ec := v } = s.repl := rfl
@[simp] theorem State.with_ec_corr (v : Ec) : State.corr { s with ec := v } = s.corr := rfl
@[simp] theorem State.with_ec_out (v : Ec) : State.out { s with ec := v } = s.out := rfl
@[simp] theorem State.with_ec_draws (v : Ec) : State.draws { s with ec := v } = s.draws := rfl
@[simp] theorem State.with_ec_pending (v : Ec) : State.pending { s with ec := v } = s.pending := rfl
@[simp] theorem State.with_bay_sys (v : Bays) : State.sys { s with bay := v } = s.sys := rfl
@[simp] theorem State.with_bay_pwr (v : Bays) : State.pwr { s with bay := v } = s.pwr := rfl
@[simp] theorem State.with_bay_pins (v : Bays) : State.pins { s with bay := v } = s.pins := rfl
@[simp] theorem State.with_bay_dram (v : Bays) : State.dram { s with bay := v } = s.dram := rfl
@[simp] theorem State.with_bay_trust (v : Bays) : State.trust { s with bay := v } = s.trust := rfl
@[simp] theorem State.with_bay_cpi (v : Bays) : State.cpi { s with bay := v } = s.cpi := rfl
@[simp] theorem State.with_bay_diary (v : Bays) : State.diary { s with bay := v } = s.diary := rfl
@[simp] theorem State.with_bay_tally (v : Bays) : State.tally { s with bay := v } = s.tally := rfl
@[simp] theorem State.with_bay_tt (v : Bays) : State.tt { s with bay := v } = s.tt := rfl
@[simp] theorem State.with_bay_lanes (v : Bays) : State.lanes { s with bay := v } = s.lanes := rfl
@[simp] theorem State.with_bay_stg (v : Bays) : State.stg { s with bay := v } = s.stg := rfl
@[simp] theorem State.with_bay_ddp (v : Bays) : State.ddp { s with bay := v } = s.ddp := rfl
@[simp] theorem State.with_bay_ftl (v : Bays) : State.ftl { s with bay := v } = s.ftl := rfl
@[simp] theorem State.with_bay_ec (v : Bays) : State.ec { s with bay := v } = s.ec := rfl
@[simp] theorem State.with_bay_bay (v : Bays) : State.bay { s with bay := v } = v := rfl
@[simp] theorem State.with_bay_pool (v : Bays) : State.pool { s with bay := v } = s.pool := rfl
@[simp] theorem State.with_bay_saved (v : Bays) : State.saved { s with bay := v } = s.saved := rfl
@[simp] theorem State.with_bay_ciph (v : Bays) : State.ciph { s with bay := v } = s.ciph := rfl
@[simp] theorem State.with_bay_skx (v : Bays) : State.skx { s with bay := v } = s.skx := rfl
@[simp] theorem State.with_bay_jobs (v : Bays) : State.jobs { s with bay := v } = s.jobs := rfl
@[simp] theorem State.with_bay_hq (v : Bays) : State.hq { s with bay := v } = s.hq := rfl
@[simp] theorem State.with_bay_repl (v : Bays) : State.repl { s with bay := v } = s.repl := rfl
@[simp] theorem State.with_bay_corr (v : Bays) : State.corr { s with bay := v } = s.corr := rfl
@[simp] theorem State.with_bay_out (v : Bays) : State.out { s with bay := v } = s.out := rfl
@[simp] theorem State.with_bay_draws (v : Bays) : State.draws { s with bay := v } = s.draws := rfl
@[simp] theorem State.with_bay_pending (v : Bays) : State.pending { s with bay := v } = s.pending := rfl
@[simp] theorem State.with_pool_sys (v : Option Pool) : State.sys { s with pool := v } = s.sys := rfl
@[simp] theorem State.with_pool_pwr (v : Option Pool) : State.pwr { s with pool := v } = s.pwr := rfl
@[simp] theorem State.with_pool_pins (v : Option Pool) : State.pins { s with pool := v } = s.pins := rfl
@[simp] theorem State.with_pool_dram (v : Option Pool) : State.dram { s with pool := v } = s.dram := rfl
@[simp] theorem State.with_pool_trust (v : Option Pool) : State.trust { s with pool := v } = s.trust := rfl
@[simp] theorem State.with_pool_cpi (v : Option Pool) : State.cpi { s with pool := v } = s.cpi := rfl
@[simp] theorem State.with_pool_diary (v : Option Pool) : State.diary { s with pool := v } = s.diary := rfl
@[simp] theorem State.with_pool_tally (v : Option Pool) : State.tally { s with pool := v } = s.tally := rfl
@[simp] theorem State.with_pool_tt (v : Option Pool) : State.tt { s with pool := v } = s.tt := rfl
@[simp] theorem State.with_pool_lanes (v : Option Pool) : State.lanes { s with pool := v } = s.lanes := rfl
@[simp] theorem State.with_pool_stg (v : Option Pool) : State.stg { s with pool := v } = s.stg := rfl
@[simp] theorem State.with_pool_ddp (v : Option Pool) : State.ddp { s with pool := v } = s.ddp := rfl
@[simp] theorem State.with_pool_ftl (v : Option Pool) : State.ftl { s with pool := v } = s.ftl := rfl
@[simp] theorem State.with_pool_ec (v : Option Pool) : State.ec { s with pool := v } = s.ec := rfl
@[simp] theorem State.with_pool_bay (v : Option Pool) : State.bay { s with pool := v } = s.bay := rfl
@[simp] theorem State.with_pool_pool (v : Option Pool) : State.pool { s with pool := v } = v := rfl
@[simp] theorem State.with_pool_saved (v : Option Pool) : State.saved { s with pool := v } = s.saved := rfl
@[simp] theorem State.with_pool_ciph (v : Option Pool) : State.ciph { s with pool := v } = s.ciph := rfl
@[simp] theorem State.with_pool_skx (v : Option Pool) : State.skx { s with pool := v } = s.skx := rfl
@[simp] theorem State.with_pool_jobs (v : Option Pool) : State.jobs { s with pool := v } = s.jobs := rfl
@[simp] theorem State.with_pool_hq (v : Option Pool) : State.hq { s with pool := v } = s.hq := rfl
@[simp] theorem State.with_pool_repl (v : Option Pool) : State.repl { s with pool := v } = s.repl := rfl
@[simp] theorem State.with_pool_corr (v : Option Pool) : State.corr { s with pool := v } = s.corr := rfl
@[simp] theorem State.with_pool_out (v : Option Pool) : State.out { s with pool := v } = s.out := rfl
@[simp] theorem State.with_pool_draws (v : Option Pool) : State.draws { s with pool := v } = s.draws := rfl
@[simp] theorem State.with_pool_pending (v : Option Pool) : State.pending { s with pool := v } = s.pending := rfl
@[simp] theorem State.with_saved_sys (v : Saved) : State.sys { s with saved := v } = s.sys := rfl
@[simp] theorem State.with_saved_pwr (v : Saved) : State.pwr { s with saved := v } = s.pwr := rfl
@[simp] theorem State.with_saved_pins (v : Saved) : State.pins { s with saved := v } = s.pins := rfl
@[simp] theorem State.with_saved_dram (v : Saved) : State.dram { s with saved := v } = s.dram := rfl
@[simp] theorem State.with_saved_trust (v : Saved) : State.trust { s with saved := v } = s.trust := rfl
@[simp] theorem State.with_saved_cpi (v : Saved) : State.cpi { s with saved := v } = s.cpi := rfl
@[simp] theorem State.with_saved_diary (v : Saved) : State.diary { s with saved := v } = s.diary := rfl
@[simp] theorem State.with_saved_tally (v : Saved) : State.tally { s with saved := v } = s.tally := rfl
@[simp] theorem State.with_saved_tt (v : Saved) : State.tt { s with saved := v } = s.tt := rfl
@[simp] theorem State.with_saved_lanes (v : Saved) : State.lanes { s with saved := v } = s.lanes := rfl
@[simp] theorem State.with_saved_stg (v : Saved) : State.stg { s with saved := v } = s.stg := rfl
@[simp] theorem State.with_saved_ddp (v : Saved) : State.ddp { s with saved := v } = s.ddp := rfl
@[simp] theorem State.with_saved_ftl (v : Saved) : State.ftl { s with saved := v } = s.ftl := rfl
@[simp] theorem State.with_saved_ec (v : Saved) : State.ec { s with saved := v } = s.ec := rfl
@[simp] theorem State.with_saved_bay (v : Saved) : State.bay { s with saved := v } = s.bay := rfl
@[simp] theorem State.with_saved_pool (v : Saved) : State.pool { s with saved := v } = s.pool := rfl
@[simp] theorem State.with_saved_saved (v : Saved) : State.saved { s with saved := v } = v := rfl
@[simp] theorem State.with_saved_ciph (v : Saved) : State.ciph { s with saved := v } = s.ciph := rfl
@[simp] theorem State.with_saved_skx (v : Saved) : State.skx { s with saved := v } = s.skx := rfl
@[simp] theorem State.with_saved_jobs (v : Saved) : State.jobs { s with saved := v } = s.jobs := rfl
@[simp] theorem State.with_saved_hq (v : Saved) : State.hq { s with saved := v } = s.hq := rfl
@[simp] theorem State.with_saved_repl (v : Saved) : State.repl { s with saved := v } = s.repl := rfl
@[simp] theorem State.with_saved_corr (v : Saved) : State.corr { s with saved := v } = s.corr := rfl
@[simp] theorem State.with_saved_out (v : Saved) : State.out { s with saved := v } = s.out := rfl
@[simp] theorem State.with_saved_draws (v : Saved) : State.draws { s with saved := v } = s.draws := rfl
@[simp] theorem State.with_saved_pending (v : Saved) : State.pending { s with saved := v } = s.pending := rfl
@[simp] theorem State.with_ciph_sys (v : Ciph) : State.sys { s with ciph := v } = s.sys := rfl
@[simp] theorem State.with_ciph_pwr (v : Ciph) : State.pwr { s with ciph := v } = s.pwr := rfl
@[simp] theorem State.with_ciph_pins (v : Ciph) : State.pins { s with ciph := v } = s.pins := rfl
@[simp] theorem State.with_ciph_dram (v : Ciph) : State.dram { s with ciph := v } = s.dram := rfl
@[simp] theorem State.with_ciph_trust (v : Ciph) : State.trust { s with ciph := v } = s.trust := rfl
@[simp] theorem State.with_ciph_cpi (v : Ciph) : State.cpi { s with ciph := v } = s.cpi := rfl
@[simp] theorem State.with_ciph_diary (v : Ciph) : State.diary { s with ciph := v } = s.diary := rfl
@[simp] theorem State.with_ciph_tally (v : Ciph) : State.tally { s with ciph := v } = s.tally := rfl
@[simp] theorem State.with_ciph_tt (v : Ciph) : State.tt { s with ciph := v } = s.tt := rfl
@[simp] theorem State.with_ciph_lanes (v : Ciph) : State.lanes { s with ciph := v } = s.lanes := rfl
@[simp] theorem State.with_ciph_stg (v : Ciph) : State.stg { s with ciph := v } = s.stg := rfl
@[simp] theorem State.with_ciph_ddp (v : Ciph) : State.ddp { s with ciph := v } = s.ddp := rfl
@[simp] theorem State.with_ciph_ftl (v : Ciph) : State.ftl { s with ciph := v } = s.ftl := rfl
@[simp] theorem State.with_ciph_ec (v : Ciph) : State.ec { s with ciph := v } = s.ec := rfl
@[simp] theorem State.with_ciph_bay (v : Ciph) : State.bay { s with ciph := v } = s.bay := rfl
@[simp] theorem State.with_ciph_pool (v : Ciph) : State.pool { s with ciph := v } = s.pool := rfl
@[simp] theorem State.with_ciph_saved (v : Ciph) : State.saved { s with ciph := v } = s.saved := rfl
@[simp] theorem State.with_ciph_ciph (v : Ciph) : State.ciph { s with ciph := v } = v := rfl
@[simp] theorem State.with_ciph_skx (v : Ciph) : State.skx { s with ciph := v } = s.skx := rfl
@[simp] theorem State.with_ciph_jobs (v : Ciph) : State.jobs { s with ciph := v } = s.jobs := rfl
@[simp] theorem State.with_ciph_hq (v : Ciph) : State.hq { s with ciph := v } = s.hq := rfl
@[simp] theorem State.with_ciph_repl (v : Ciph) : State.repl { s with ciph := v } = s.repl := rfl
@[simp] theorem State.with_ciph_corr (v : Ciph) : State.corr { s with ciph := v } = s.corr := rfl
@[simp] theorem State.with_ciph_out (v : Ciph) : State.out { s with ciph := v } = s.out := rfl
@[simp] theorem State.with_ciph_draws (v : Ciph) : State.draws { s with ciph := v } = s.draws := rfl
@[simp] theorem State.with_ciph_pending (v : Ciph) : State.pending { s with ciph := v } = s.pending := rfl
@[simp] theorem State.with_skx_sys (v : Skx) : State.sys { s with skx := v } = s.sys := rfl
@[simp] theorem State.with_skx_pwr (v : Skx) : State.pwr { s with skx := v } = s.pwr := rfl
@[simp] theorem State.with_skx_pins (v : Skx) : State.pins { s with skx := v } = s.pins := rfl
@[simp] theorem State.with_skx_dram (v : Skx) : State.dram { s with skx := v } = s.dram := rfl
@[simp] theorem State.with_skx_trust (v : Skx) : State.trust { s with skx := v } = s.trust := rfl
@[simp] theorem State.with_skx_cpi (v : Skx) : State.cpi { s with skx := v } = s.cpi := rfl
@[simp] theorem State.with_skx_diary (v : Skx) : State.diary { s with skx := v } = s.diary := rfl
@[simp] theorem State.with_skx_tally (v : Skx) : State.tally { s with skx := v } = s.tally := rfl
@[simp] theorem State.with_skx_tt (v : Skx) : State.tt { s with skx := v } = s.tt := rfl
@[simp] theorem State.with_skx_lanes (v : Skx) : State.lanes { s with skx := v } = s.lanes := rfl
@[simp] theorem State.with_skx_stg (v : Skx) : State.stg { s with skx := v } = s.stg := rfl
@[simp] theorem State.with_skx_ddp (v : Skx) : State.ddp { s with skx := v } = s.ddp := rfl
@[simp] theorem State.with_skx_ftl (v : Skx) : State.ftl { s with skx := v } = s.ftl := rfl
@[simp] theorem State.with_skx_ec (v : Skx) : State.ec { s with skx := v } = s.ec := rfl
@[simp] theorem State.with_skx_bay (v : Skx) : State.bay { s with skx := v } = s.bay := rfl
@[simp] theorem State.with_skx_pool (v : Skx) : State.pool { s with skx := v } = s.pool := rfl
@[simp] theorem State.with_skx_saved (v : Skx) : State.saved { s with skx := v } = s.saved := rfl
@[simp] theorem State.with_skx_ciph (v : Skx) : State.ciph { s with skx := v } = s.ciph := rfl
@[simp] theorem State.with_skx_skx (v : Skx) : State.skx { s with skx := v } = v := rfl
@[simp] theorem State.with_skx_jobs (v : Skx) : State.jobs { s with skx := v } = s.jobs := rfl
@[simp] theorem State.with_skx_hq (v : Skx) : State.hq { s with skx := v } = s.hq := rfl
@[simp] theorem State.with_skx_repl (v : Skx) : State.repl { s with skx := v } = s.repl := rfl
@[simp] theorem State.with_skx_corr (v : Skx) : State.corr { s with skx := v } = s.corr := rfl
@[simp] theorem State.with_skx_out (v : Skx) : State.out { s with skx := v } = s.out := rfl
@[simp] theorem State.with_skx_draws (v : Skx) : State.draws { s with skx := v } = s.draws := rfl
@[simp] theorem State.with_skx_pending (v : Skx) : State.pending { s with skx := v } = s.pending := rfl
@[simp] theorem State.with_jobs_sys (v : Jobs) : State.sys { s with jobs := v } = s.sys := rfl
@[simp] theorem State.with_jobs_pwr (v : Jobs) : State.pwr { s with jobs := v } = s.pwr := rfl
@[simp] theorem State.with_jobs_pins (v : Jobs) : State.pins { s with jobs := v } = s.pins := rfl
@[simp] theorem State.with_jobs_dram (v : Jobs) : State.dram { s with jobs := v } = s.dram := rfl
@[simp] theorem State.with_jobs_trust (v : Jobs) : State.trust { s with jobs := v } = s.trust := rfl
@[simp] theorem State.with_jobs_cpi (v : Jobs) : State.cpi { s with jobs := v } = s.cpi := rfl
@[simp] theorem State.with_jobs_diary (v : Jobs) : State.diary { s with jobs := v } = s.diary := rfl
@[simp] theorem State.with_jobs_tally (v : Jobs) : State.tally { s with jobs := v } = s.tally := rfl
@[simp] theorem State.with_jobs_tt (v : Jobs) : State.tt { s with jobs := v } = s.tt := rfl
@[simp] theorem State.with_jobs_lanes (v : Jobs) : State.lanes { s with jobs := v } = s.lanes := rfl
@[simp] theorem State.with_jobs_stg (v : Jobs) : State.stg { s with jobs := v } = s.stg := rfl
@[simp] theorem State.with_jobs_ddp (v : Jobs) : State.ddp { s with jobs := v } = s.ddp := rfl
@[simp] theorem State.with_jobs_ftl (v : Jobs) : State.ftl { s with jobs := v } = s.ftl := rfl
@[simp] theorem State.with_jobs_ec (v : Jobs) : State.ec { s with jobs := v } = s.ec := rfl
@[simp] theorem State.with_jobs_bay (v : Jobs) : State.bay { s with jobs := v } = s.bay := rfl
@[simp] theorem State.with_jobs_pool (v : Jobs) : State.pool { s with jobs := v } = s.pool := rfl
@[simp] theorem State.with_jobs_saved (v : Jobs) : State.saved { s with jobs := v } = s.saved := rfl
@[simp] theorem State.with_jobs_ciph (v : Jobs) : State.ciph { s with jobs := v } = s.ciph := rfl
@[simp] theorem State.with_jobs_skx (v : Jobs) : State.skx { s with jobs := v } = s.skx := rfl
@[simp] theorem State.with_jobs_jobs (v : Jobs) : State.jobs { s with jobs := v } = v := rfl
@[simp] theorem State.with_jobs_hq (v : Jobs) : State.hq { s with jobs := v } = s.hq := rfl
@[simp] theorem State.with_jobs_repl (v : Jobs) : State.repl { s with jobs := v } = s.repl := rfl
@[simp] theorem State.with_jobs_corr (v : Jobs) : State.corr { s with jobs := v } = s.corr := rfl
@[simp] theorem State.with_jobs_out (v : Jobs) : State.out { s with jobs := v } = s.out := rfl
@[simp] theorem State.with_jobs_draws (v : Jobs) : State.draws { s with jobs := v } = s.draws := rfl
@[simp] theorem State.with_jobs_pending (v : Jobs) : State.pending { s with jobs := v } = s.pending := rfl
@[simp] theorem State.with_hq_sys (v : Hq) : State.sys { s with hq := v } = s.sys := rfl
@[simp] theorem State.with_hq_pwr (v : Hq) : State.pwr { s with hq := v } = s.pwr := rfl
@[simp] theorem State.with_hq_pins (v : Hq) : State.pins { s with hq := v } = s.pins := rfl
@[simp] theorem State.with_hq_dram (v : Hq) : State.dram { s with hq := v } = s.dram := rfl
@[simp] theorem State.with_hq_trust (v : Hq) : State.trust { s with hq := v } = s.trust := rfl
@[simp] theorem State.with_hq_cpi (v : Hq) : State.cpi { s with hq := v } = s.cpi := rfl
@[simp] theorem State.with_hq_diary (v : Hq) : State.diary { s with hq := v } = s.diary := rfl
@[simp] theorem State.with_hq_tally (v : Hq) : State.tally { s with hq := v } = s.tally := rfl
@[simp] theorem State.with_hq_tt (v : Hq) : State.tt { s with hq := v } = s.tt := rfl
@[simp] theorem State.with_hq_lanes (v : Hq) : State.lanes { s with hq := v } = s.lanes := rfl
@[simp] theorem State.with_hq_stg (v : Hq) : State.stg { s with hq := v } = s.stg := rfl
@[simp] theorem State.with_hq_ddp (v : Hq) : State.ddp { s with hq := v } = s.ddp := rfl
@[simp] theorem State.with_hq_ftl (v : Hq) : State.ftl { s with hq := v } = s.ftl := rfl
@[simp] theorem State.with_hq_ec (v : Hq) : State.ec { s with hq := v } = s.ec := rfl
@[simp] theorem State.with_hq_bay (v : Hq) : State.bay { s with hq := v } = s.bay := rfl
@[simp] theorem State.with_hq_pool (v : Hq) : State.pool { s with hq := v } = s.pool := rfl
@[simp] theorem State.with_hq_saved (v : Hq) : State.saved { s with hq := v } = s.saved := rfl
@[simp] theorem State.with_hq_ciph (v : Hq) : State.ciph { s with hq := v } = s.ciph := rfl
@[simp] theorem State.with_hq_skx (v : Hq) : State.skx { s with hq := v } = s.skx := rfl
@[simp] theorem State.with_hq_jobs (v : Hq) : State.jobs { s with hq := v } = s.jobs := rfl
@[simp] theorem State.with_hq_hq (v : Hq) : State.hq { s with hq := v } = v := rfl
@[simp] theorem State.with_hq_repl (v : Hq) : State.repl { s with hq := v } = s.repl := rfl
@[simp] theorem State.with_hq_corr (v : Hq) : State.corr { s with hq := v } = s.corr := rfl
@[simp] theorem State.with_hq_out (v : Hq) : State.out { s with hq := v } = s.out := rfl
@[simp] theorem State.with_hq_draws (v : Hq) : State.draws { s with hq := v } = s.draws := rfl
@[simp] theorem State.with_hq_pending (v : Hq) : State.pending { s with hq := v } = s.pending := rfl
@[simp] theorem State.with_repl_sys (v : Repl) : State.sys { s with repl := v } = s.sys := rfl
@[simp] theorem State.with_repl_pwr (v : Repl) : State.pwr { s with repl := v } = s.pwr := rfl
@[simp] theorem State.with_repl_pins (v : Repl) : State.pins { s with repl := v } = s.pins := rfl
@[simp] theorem State.with_repl_dram (v : Repl) : State.dram { s with repl := v } = s.dram := rfl
@[simp] theorem State.with_repl_trust (v : Repl) : State.trust { s with repl := v } = s.trust := rfl
@[simp] theorem State.with_repl_cpi (v : Repl) : State.cpi { s with repl := v } = s.cpi := rfl
@[simp] theorem State.with_repl_diary (v : Repl) : State.diary { s with repl := v } = s.diary := rfl
@[simp] theorem State.with_repl_tally (v : Repl) : State.tally { s with repl := v } = s.tally := rfl
@[simp] theorem State.with_repl_tt (v : Repl) : State.tt { s with repl := v } = s.tt := rfl
@[simp] theorem State.with_repl_lanes (v : Repl) : State.lanes { s with repl := v } = s.lanes := rfl
@[simp] theorem State.with_repl_stg (v : Repl) : State.stg { s with repl := v } = s.stg := rfl
@[simp] theorem State.with_repl_ddp (v : Repl) : State.ddp { s with repl := v } = s.ddp := rfl
@[simp] theorem State.with_repl_ftl (v : Repl) : State.ftl { s with repl := v } = s.ftl := rfl
@[simp] theorem State.with_repl_ec (v : Repl) : State.ec { s with repl := v } = s.ec := rfl
@[simp] theorem State.with_repl_bay (v : Repl) : State.bay { s with repl := v } = s.bay := rfl
@[simp] theorem State.with_repl_pool (v : Repl) : State.pool { s with repl := v } = s.pool := rfl
@[simp] theorem State.with_repl_saved (v : Repl) : State.saved { s with repl := v } = s.saved := rfl
@[simp] theorem State.with_repl_ciph (v : Repl) : State.ciph { s with repl := v } = s.ciph := rfl
@[simp] theorem State.with_repl_skx (v : Repl) : State.skx { s with repl := v } = s.skx := rfl
@[simp] theorem State.with_repl_jobs (v : Repl) : State.jobs { s with repl := v } = s.jobs := rfl
@[simp] theorem State.with_repl_hq (v : Repl) : State.hq { s with repl := v } = s.hq := rfl
@[simp] theorem State.with_repl_repl (v : Repl) : State.repl { s with repl := v } = v := rfl
@[simp] theorem State.with_repl_corr (v : Repl) : State.corr { s with repl := v } = s.corr := rfl
@[simp] theorem State.with_repl_out (v : Repl) : State.out { s with repl := v } = s.out := rfl
@[simp] theorem State.with_repl_draws (v : Repl) : State.draws { s with repl := v } = s.draws := rfl
@[simp] theorem State.with_repl_pending (v : Repl) : State.pending { s with repl := v } = s.pending := rfl
@[simp] theorem State.with_corr_sys (v : Corr) : State.sys { s with corr := v } = s.sys := rfl
@[simp] theorem State.with_corr_pwr (v : Corr) : State.pwr { s with corr := v } = s.pwr := rfl
@[simp] theorem State.with_corr_pins (v : Corr) : State.pins { s with corr := v } = s.pins := rfl
@[simp] theorem State.with_corr_dram (v : Corr) : State.dram { s with corr := v } = s.dram := rfl
@[simp] theorem State.with_corr_trust (v : Corr) : State.trust { s with corr := v } = s.trust := rfl
@[simp] theorem State.with_corr_cpi (v : Corr) : State.cpi { s with corr := v } = s.cpi := rfl
@[simp] theorem State.with_corr_diary (v : Corr) : State.diary { s with corr := v } = s.diary := rfl
@[simp] theorem State.with_corr_tally (v : Corr) : State.tally { s with corr := v } = s.tally := rfl
@[simp] theorem State.with_corr_tt (v : Corr) : State.tt { s with corr := v } = s.tt := rfl
@[simp] theorem State.with_corr_lanes (v : Corr) : State.lanes { s with corr := v } = s.lanes := rfl
@[simp] theorem State.with_corr_stg (v : Corr) : State.stg { s with corr := v } = s.stg := rfl
@[simp] theorem State.with_corr_ddp (v : Corr) : State.ddp { s with corr := v } = s.ddp := rfl
@[simp] theorem State.with_corr_ftl (v : Corr) : State.ftl { s with corr := v } = s.ftl := rfl
@[simp] theorem State.with_corr_ec (v : Corr) : State.ec { s with corr := v } = s.ec := rfl
@[simp] theorem State.with_corr_bay (v : Corr) : State.bay { s with corr := v } = s.bay := rfl
@[simp] theorem State.with_corr_pool (v : Corr) : State.pool { s with corr := v } = s.pool := rfl
@[simp] theorem State.with_corr_saved (v : Corr) : State.saved { s with corr := v } = s.saved := rfl
@[simp] theorem State.with_corr_ciph (v : Corr) : State.ciph { s with corr := v } = s.ciph := rfl
@[simp] theorem State.with_corr_skx (v : Corr) : State.skx { s with corr := v } = s.skx := rfl
@[simp] theorem State.with_corr_jobs (v : Corr) : State.jobs { s with corr := v } = s.jobs := rfl
@[simp] theorem State.with_corr_hq (v : Corr) : State.hq { s with corr := v } = s.hq := rfl
@[simp] theorem State.with_corr_repl (v : Corr) : State.repl { s with corr := v } = s.repl := rfl
@[simp] theorem State.with_corr_corr (v : Corr) : State.corr { s with corr := v } = v := rfl
@[simp] theorem State.with_corr_out (v : Corr) : State.out { s with corr := v } = s.out := rfl
@[simp] theorem State.with_corr_draws (v : Corr) : State.draws { s with corr := v } = s.draws := rfl
@[simp] theorem State.with_corr_pending (v : Corr) : State.pending { s with corr := v } = s.pending := rfl
@[simp] theorem State.with_out_sys (v : List Output) : State.sys { s with out := v } = s.sys := rfl
@[simp] theorem State.with_out_pwr (v : List Output) : State.pwr { s with out := v } = s.pwr := rfl
@[simp] theorem State.with_out_pins (v : List Output) : State.pins { s with out := v } = s.pins := rfl
@[simp] theorem State.with_out_dram (v : List Output) : State.dram { s with out := v } = s.dram := rfl
@[simp] theorem State.with_out_trust (v : List Output) : State.trust { s with out := v } = s.trust := rfl
@[simp] theorem State.with_out_cpi (v : List Output) : State.cpi { s with out := v } = s.cpi := rfl
@[simp] theorem State.with_out_diary (v : List Output) : State.diary { s with out := v } = s.diary := rfl
@[simp] theorem State.with_out_tally (v : List Output) : State.tally { s with out := v } = s.tally := rfl
@[simp] theorem State.with_out_tt (v : List Output) : State.tt { s with out := v } = s.tt := rfl
@[simp] theorem State.with_out_lanes (v : List Output) : State.lanes { s with out := v } = s.lanes := rfl
@[simp] theorem State.with_out_stg (v : List Output) : State.stg { s with out := v } = s.stg := rfl
@[simp] theorem State.with_out_ddp (v : List Output) : State.ddp { s with out := v } = s.ddp := rfl
@[simp] theorem State.with_out_ftl (v : List Output) : State.ftl { s with out := v } = s.ftl := rfl
@[simp] theorem State.with_out_ec (v : List Output) : State.ec { s with out := v } = s.ec := rfl
@[simp] theorem State.with_out_bay (v : List Output) : State.bay { s with out := v } = s.bay := rfl
@[simp] theorem State.with_out_pool (v : List Output) : State.pool { s with out := v } = s.pool := rfl
@[simp] theorem State.with_out_saved (v : List Output) : State.saved { s with out := v } = s.saved := rfl
@[simp] theorem State.with_out_ciph (v : List Output) : State.ciph { s with out := v } = s.ciph := rfl
@[simp] theorem State.with_out_skx (v : List Output) : State.skx { s with out := v } = s.skx := rfl
@[simp] theorem State.with_out_jobs (v : List Output) : State.jobs { s with out := v } = s.jobs := rfl
@[simp] theorem State.with_out_hq (v : List Output) : State.hq { s with out := v } = s.hq := rfl
@[simp] theorem State.with_out_repl (v : List Output) : State.repl { s with out := v } = s.repl := rfl
@[simp] theorem State.with_out_corr (v : List Output) : State.corr { s with out := v } = s.corr := rfl
@[simp] theorem State.with_out_out (v : List Output) : State.out { s with out := v } = v := rfl
@[simp] theorem State.with_out_draws (v : List Output) : State.draws { s with out := v } = s.draws := rfl
@[simp] theorem State.with_out_pending (v : List Output) : State.pending { s with out := v } = s.pending := rfl
@[simp] theorem State.with_draws_sys (v : Nat) : State.sys { s with draws := v } = s.sys := rfl
@[simp] theorem State.with_draws_pwr (v : Nat) : State.pwr { s with draws := v } = s.pwr := rfl
@[simp] theorem State.with_draws_pins (v : Nat) : State.pins { s with draws := v } = s.pins := rfl
@[simp] theorem State.with_draws_dram (v : Nat) : State.dram { s with draws := v } = s.dram := rfl
@[simp] theorem State.with_draws_trust (v : Nat) : State.trust { s with draws := v } = s.trust := rfl
@[simp] theorem State.with_draws_cpi (v : Nat) : State.cpi { s with draws := v } = s.cpi := rfl
@[simp] theorem State.with_draws_diary (v : Nat) : State.diary { s with draws := v } = s.diary := rfl
@[simp] theorem State.with_draws_tally (v : Nat) : State.tally { s with draws := v } = s.tally := rfl
@[simp] theorem State.with_draws_tt (v : Nat) : State.tt { s with draws := v } = s.tt := rfl
@[simp] theorem State.with_draws_lanes (v : Nat) : State.lanes { s with draws := v } = s.lanes := rfl
@[simp] theorem State.with_draws_stg (v : Nat) : State.stg { s with draws := v } = s.stg := rfl
@[simp] theorem State.with_draws_ddp (v : Nat) : State.ddp { s with draws := v } = s.ddp := rfl
@[simp] theorem State.with_draws_ftl (v : Nat) : State.ftl { s with draws := v } = s.ftl := rfl
@[simp] theorem State.with_draws_ec (v : Nat) : State.ec { s with draws := v } = s.ec := rfl
@[simp] theorem State.with_draws_bay (v : Nat) : State.bay { s with draws := v } = s.bay := rfl
@[simp] theorem State.with_draws_pool (v : Nat) : State.pool { s with draws := v } = s.pool := rfl
@[simp] theorem State.with_draws_saved (v : Nat) : State.saved { s with draws := v } = s.saved := rfl
@[simp] theorem State.with_draws_ciph (v : Nat) : State.ciph { s with draws := v } = s.ciph := rfl
@[simp] theorem State.with_draws_skx (v : Nat) : State.skx { s with draws := v } = s.skx := rfl
@[simp] theorem State.with_draws_jobs (v : Nat) : State.jobs { s with draws := v } = s.jobs := rfl
@[simp] theorem State.with_draws_hq (v : Nat) : State.hq { s with draws := v } = s.hq := rfl
@[simp] theorem State.with_draws_repl (v : Nat) : State.repl { s with draws := v } = s.repl := rfl
@[simp] theorem State.with_draws_corr (v : Nat) : State.corr { s with draws := v } = s.corr := rfl
@[simp] theorem State.with_draws_out (v : Nat) : State.out { s with draws := v } = s.out := rfl
@[simp] theorem State.with_draws_draws (v : Nat) : State.draws { s with draws := v } = v := rfl
@[simp] theorem State.with_draws_pending (v : Nat) : State.pending { s with draws := v } = s.pending := rfl
@[simp] theorem State.with_pending_sys (v : List Instr) : State.sys { s with pending := v } = s.sys := rfl
@[simp] theorem State.with_pending_pwr (v : List Instr) : State.pwr { s with pending := v } = s.pwr := rfl
@[simp] theorem State.with_pending_pins (v : List Instr) : State.pins { s with pending := v } = s.pins := rfl
@[simp] theorem State.with_pending_dram (v : List Instr) : State.dram { s with pending := v } = s.dram := rfl
@[simp] theorem State.with_pending_trust (v : List Instr) : State.trust { s with pending := v } = s.trust := rfl
@[simp] theorem State.with_pending_cpi (v : List Instr) : State.cpi { s with pending := v } = s.cpi := rfl
@[simp] theorem State.with_pending_diary (v : List Instr) : State.diary { s with pending := v } = s.diary := rfl
@[simp] theorem State.with_pending_tally (v : List Instr) : State.tally { s with pending := v } = s.tally := rfl
@[simp] theorem State.with_pending_tt (v : List Instr) : State.tt { s with pending := v } = s.tt := rfl
@[simp] theorem State.with_pending_lanes (v : List Instr) : State.lanes { s with pending := v } = s.lanes := rfl
@[simp] theorem State.with_pending_stg (v : List Instr) : State.stg { s with pending := v } = s.stg := rfl
@[simp] theorem State.with_pending_ddp (v : List Instr) : State.ddp { s with pending := v } = s.ddp := rfl
@[simp] theorem State.with_pending_ftl (v : List Instr) : State.ftl { s with pending := v } = s.ftl := rfl
@[simp] theorem State.with_pending_ec (v : List Instr) : State.ec { s with pending := v } = s.ec := rfl
@[simp] theorem State.with_pending_bay (v : List Instr) : State.bay { s with pending := v } = s.bay := rfl
@[simp] theorem State.with_pending_pool (v : List Instr) : State.pool { s with pending := v } = s.pool := rfl
@[simp] theorem State.with_pending_saved (v : List Instr) : State.saved { s with pending := v } = s.saved := rfl
@[simp] theorem State.with_pending_ciph (v : List Instr) : State.ciph { s with pending := v } = s.ciph := rfl
@[simp] theorem State.with_pending_skx (v : List Instr) : State.skx { s with pending := v } = s.skx := rfl
@[simp] theorem State.with_pending_jobs (v : List Instr) : State.jobs { s with pending := v } = s.jobs := rfl
@[simp] theorem State.with_pending_hq (v : List Instr) : State.hq { s with pending := v } = s.hq := rfl
@[simp] theorem State.with_pending_repl (v : List Instr) : State.repl { s with pending := v } = s.repl := rfl
@[simp] theorem State.with_pending_corr (v : List Instr) : State.corr { s with pending := v } = s.corr := rfl
@[simp] theorem State.with_pending_out (v : List Instr) : State.out { s with pending := v } = s.out := rfl
@[simp] theorem State.with_pending_draws (v : List Instr) : State.draws { s with pending := v } = s.draws := rfl
@[simp] theorem State.with_pending_pending (v : List Instr) : State.pending { s with pending := v } = v := rfl

end Sys2Proof.Machine
end

