-- ==== Sys2Proof/Tests/Witnesses.lean ====
section
/-! SUPPORT. For each command of the statements, states and operands that meet all the premises of its clauses together:
no clause is empty. One theorem stands for a few clauses of a group, in their order. -/

set_option Elab.async false
set_option linter.all false

set_option maxRecDepth 4000

namespace Sys2Proof.Machine

def aBay : Bay :=
  ⟨.absent, 0, 0, 0, 0, 0, false, false, false, none, .unknown, [], 0, 0, 0, 0, 0, 0, 0, 0, 0, 0, 0, none⟩
def aIdentity : Identity :=
  ⟨0, 0, 0, 0, 0, [], []⟩
def aLedger : Ledger :=
  ⟨.free, 0, 0, 0, 0, 0, 0, 0, 0, []⟩
def aRoot : Root :=
  ⟨0, .volume, .active, false, false, false, false, 0, 0, 0, 0, 0, 0, 0, 0, 0, 0, 0, 0, 0, [], 0, 0, 0, 0, none, 0, [], []⟩
def aController : Controller :=
  ⟨0, 0, 0, [], [], 0, false, false, 0, 0, 0, [], [], [], 0, [], [], 0, 0⟩
def aTtImage : TtImage :=
  ⟨[]⟩
def aHeadSlot : HeadSlot :=
  ⟨0, false, [], 0⟩
def aTtCopy : TtCopy :=
  ⟨0, 0, 0, []⟩
def aPool : Pool :=
  ⟨[], 0, 0, 0, 0, 0, 0, 0, 0, 0, 0, 0, 0, 0, 0, 0, 0, 0, [], aTtCopy, aTtCopy, [], 0⟩
def aMember : Member :=
  ⟨0, .none, 0, 0, 0, 0, 0, [], 0, 0, 0, false, false⟩
def aGroup : Group :=
  ⟨0, 0, 0, 0, 0, [], [], false, false, [], 0, none, 0, [], [], [], 0, []⟩
def aStartEnv : StartEnv :=
  ⟨[], none, [], false, none, none, none, false, false, 0⟩
def aChannel : Channel :=
  ⟨.absent, none, 0, 0, [], false, false, 0, 0, 0, 0, 0, [], 0, 0, none, none, false, none, false, 0, [], [], [], [], [], [], 0⟩
def aPacket : Packet :=
  ⟨.cpi, 0, 0, 0, false, 0, 0, [], [], []⟩
def aPeerAnswer : PeerAnswer :=
  ⟨.ok, []⟩
def aQueue : Queue :=
  ⟨0, 0, 0, 0, 0, [], none, none, 0⟩
def aCapsule : Capsule :=
  ⟨0, 0, 0, 0, 0, 0, 0, 0, 0, false, none, [], []⟩
def aReservation : Reservation :=
  ⟨0, 0, [], none, 0, false⟩
def aCtx : Ctx :=
  ⟨0, 0, 0, aCapsule, [], .queued, 0, 0, [], [], [], false, [], [], false, 0, none⟩
def aReply : Reply :=
  ⟨.cpi, 0, 0, .ok, false, [], [], [], 0, [], 0, false, false, 0⟩
def aSent : Sent :=
  ⟨0, (.mirrorData 0 0 0 0 0 [] []), 0, 0, false⟩
def aCommitMark : CommitMark :=
  ⟨0, 0, 0, 0, 0⟩
def aEntry : Entry :=
  ⟨0, 0, 0, none, false, false⟩
def aVer : Ver :=
  ⟨0, 0, 0, 0, 0, false, false, false, false, false, [], [], 0, false, false⟩
def aDestage : Destage :=
  ⟨0, 0, 0, [], 0, [], [], false, false, 0, 0, 0, false, .completing, none, [], 0, 0, 0, false, 0, 0, [], [], 0⟩
def aResolution : Resolution :=
  ⟨0, false, 0, [], false, false, 0, 0, [], 0, false⟩
def aSlotRead : SlotRead :=
  ⟨0, .patrol, 0, 0, 0, [], .die, [], [], [], [], 0, false, none, [], 0, false⟩
def aLocker : Locker :=
  ⟨.unbound, 0, 0, 0, 0, 0, false, none, none⟩
def aCipherCtx : CipherCtx :=
  ⟨0, 0, 0, 0, 0, false, false, false, 0, 0, 0, 0, [], false, [], 0, 0, 0, 0, 0, [], 0⟩
def aCtxStart : CtxStart :=
  ⟨0, 0, 0, 0, 0, 0, [], 0, false, false⟩
def aSegmentIn : SegmentIn :=
  ⟨[], [], []⟩
def aDigestCtx : DigestCtx :=
  ⟨0, 0, .sha3x256, 0, 0, [], [], 0⟩
def aDieOp : DieOp :=
  ⟨0, 0, 0, 0, 0, 0, 0, 0, 0, 0, [], 0, .erase, [], none, 0, false, 0, 0⟩
def aPlaced : Placed :=
  ⟨0, 0, 0, 0, 0, [], [], 0, 0⟩
def aStripe : Stripe :=
  ⟨0, 0, false, false, none, 0, none, []⟩
def aBlpDone : BlpDone :=
  ⟨0, 0, 0, 0, 0, 0, 0, 0⟩
def aPin : Pin :=
  ⟨.sound, false, false, false, false, 0, 0, 0⟩
def aSnapGroup : SnapGroup :=
  ⟨.peer, 0, [], [], none, 0, false, false⟩
def aJRec : JRec :=
  ⟨0, 0, 0, (.mapSet 0 0 0 0 0)⟩
def aPairChannel : PairChannel :=
  ⟨[], [], 0, 0⟩
def aFedChip : FedChip :=
  ⟨0, 0, false⟩
def aMetaImage : MetaImage :=
  ⟨0, 0, [], 0, [], [], [], [], [], 0, [], [], []⟩
def aPoolMedia : PoolMedia :=
  ⟨[], aMetaImage, [], 0⟩
def aActivation : Activation :=
  ⟨(.emptying 0), 0, [], (.packet .cpi 0), 0, 0⟩
def aSeal : Seal :=
  ⟨0, 0, 0, 0⟩
def aSession : Session :=
  ⟨0, 0, 0, 0, false, .offered, 0, [], [], [], [], [], [], [], 0, 0, 0, 0, 0, [], [], [], none, none, false, false, none⟩
def aSyncRel : SyncRel :=
  ⟨0, false, [], 0, false, false, 0, [], 0, [], [], false, [], 0, false, 0⟩
def aMigration : Migration :=
  ⟨0, 0, 0, [], 0, 0, none, none, 0⟩
def aTransfer : Transfer :=
  ⟨0, 0, false, .received, 0, 0, 0, 0, 0, [], [], [], [], none, [], false⟩
def aAdoption : Adoption :=
  ⟨0, 0, false, 0, (.cpi, 0)⟩
def aClaim : Claim :=
  ⟨0, 0, 0, 0, none, 0⟩
def aBwWindow : BwWindow :=
  ⟨0, 0, 0, 0, 0, 0, 0, 0⟩
def aLaneId : LaneId :=
  ⟨.enc, false, 0⟩
def ws : State := { State.reset with
    pwr := { State.reset.pwr with stage := .service }
    corr := { State.reset.corr with link := 2 }
    tt := { State.reset.tt with now := 1024 * 1048576 } }
def wm : State := { ws with
    hq := { ws.hq with controllers := [aController], hosts := [⟨[], 0, 1, 0⟩] } }
def wr : State := { ws with ftl := { ws.ftl with roots := [{ aRoot with id := 1, nsid := 1 }] } }
def wp : State := { ws with corr := { ws.corr with roll := .inService } }
def wb : State := { ws with
    tt := { ws.tt with buckets := (List.range 12).flatMap (fun i => [EngineKind.enc, .dec, .cip, .dig, .par].map (fun k => ⟨i, k, 1048576⟩)) } }
def wi : TtImage := ⟨zeros 0x14 ++ leBytes 2 4 ++ leBytes 2 1 ++ leBytes 2 1 ++ [1] ++ zeros 0xE5 ++
  fields [(2, 1), (2, 0), (4, 0x140), (8, 48), (2, 2), (2, 0), (4, 0x170), (8, 8), (2, 3), (2, 0), (4, 0x180), (8, 512),
    (2, 9), (2, 0), (4, 0x380), (8, 0x700)] ++
  fields [(2, 0), (1, 0), (1, 0xFF), (2, 0), (2, 8800), (2, 2)] ++ zeros 38 ++ fields [(4, 0), (1, 1), (11, 0)] ++
  List.replicate 512 0x44 ++ zeros 0x440 ++ fields [(1, 1), (1, 1), (1, 0)]⟩
def wt : State := { ws with tt := { ws.tt with active := some wi } }
def wf : State := { wt with
    bay := { wt.bay with bays := [(0, { aBay with ident := some { aIdentity with blocks := 8, pages := 1024, retention := [(1000, 720)], endurance := 3000 } })] }
    ec := { wt.ec with groups := [{ aGroup with k := 1, blocks := [blkKey 0 0 5] }] }
    ftl := { wt.ftl with blocks := [(blkKey 0 0 5, { aLedger with state := .full })] } }

theorem meets_PowerAndResetCommands_1 :
    (∃ (env : StartEnv) (s : State),
    (s.pwr.stage = .off ∨ s.pwr.stage = .aonOnly)) ∧
    (∃ (env : StartEnv) (s : State),
    s.pwr.stage ≠ .off ∧
    s.pwr.stage ≠ .aonOnly ∧
    s.pwr.stage ≠ .vault ∧
    s.resetIgnored 261 = false) ∧
    (∃ (env : StartEnv) (s : State),
    s.pwr.stage ≠ .off ∧
    s.pwr.stage ≠ .aonOnly ∧
    s.pwr.stage ≠ .vault ∧
    s.pwr.restartDue = false ∧
    s.resetIgnored 262 = false) ∧
    (∃ (env : StartEnv) (s : State),
    s.pwr.stage ≠ .off ∧
    s.pwr.stage ≠ .aonOnly ∧
    s.pwr.stage ≠ .vault ∧
    s.pwr.restartDue = true) ∧
    (∃ (rail : Nat) (high : Bool) (s : State),
    rail < 9 ∧
    s.pwr.stage ≠ .off ∧
    s.pwr.stage ≠ .aonOnly) :=
  ⟨⟨aStartEnv, { ws with pwr := { ws.pwr with stage := .off } },
    by first | decide | rfl⟩,
   ⟨aStartEnv, ws,
    by first | decide | rfl,
    by first | decide | rfl,
    by first | decide | rfl,
    by first | decide | rfl⟩,
   ⟨aStartEnv, { ws with pwr := { ws.pwr with restartDue := false } },
    by first | decide | rfl,
    by first | decide | rfl,
    by first | decide | rfl,
    by first | decide | rfl,
    by first | decide | rfl⟩,
   ⟨aStartEnv, { ws with pwr := { ws.pwr with restartDue := true } },
    by first | decide | rfl,
    by first | decide | rfl,
    by first | decide | rfl,
    by first | decide | rfl⟩,
   ⟨0, false, ws,
    by first | decide | rfl,
    by first | decide | rfl,
    by first | decide | rfl⟩⟩

theorem meets_PowerAndResetCommands_2 :
    (∃ (ref : RefClock) (s : State),
    bitAt (refBit ref) s.pwr.refsPresent = true) ∧
    (∃ (ref : RefClock) (s : State),
    bitAt (refBit ref) s.pwr.refsPresent = false) ∧
    (∃ (targetMv : Nat) (measuredMv : Nat) (s : State),
    s.pwr.avsSent = none ∧
    s.pwr.avsDay + 64 ≤ s.day ∧
    2 ≤ s.trust.stage) ∧
    (∃ (s : State),
    s.pwr.avsSent.isSome = true ∧
    s.pwr.avsSentAt + msBells 1 ≤ s.tt.now) ∧
    (∃ (s : State),
    s.fullyTrained = true ∧
    s.tt.degraded.contains ⟨5, s.sys.slot, 0⟩ = true ∧
    s.tt.switches.any (fun x => x.what == ⟨5, s.sys.slot, 0⟩ && !x.enter) = false) :=
  ⟨⟨.xtal, ws,
    by first | decide | rfl⟩,
   ⟨.xtal, { ws with pwr := { ws.pwr with refsPresent := 0 } },
    by first | decide | rfl⟩,
   ⟨0, 0, { ws with pwr := { ws.pwr with avsSent := none }, trust := { ws.trust with stage := 2 } },
    by first | decide | rfl,
    by first | decide | rfl,
    by first | decide | rfl⟩,
   ⟨{ ws with pwr := { ws.pwr with avsSent := some 850 } },
    by first | decide | rfl,
    by first | decide | rfl⟩,
   ⟨{ ws with dram := { ws.dram with bringUp := false, channels := (List.range 15).map (fun _ => { aChannel with state := .inService }) }, stg := { ws.stg with restored := true }, tt := { ws.tt with degraded := [⟨5, 0, 0⟩] } },
    by first | decide | rfl,
    by first | decide | rfl,
    by first | decide | rfl⟩⟩

theorem meets_VaultCommands_1 :
    (∃ (s : State),
    (s.pins.pin 256).fault ≠ .isOpen) ∧
    (∃ (s : State),
    s.pwr.stage.early = true) ∧
    (∃ (temp : Int) (island : Nat) (s : State),
    110 ≤ temp) ∧
    (∃ (s : State),
    s.vaultEntryDue = true) ∧
    (∃ (env : StartEnv) (s : State),
    s.pwr.stage = .vault ∧
    s.stg.trailer = true ∧
    s.bay.flushing = false) :=
  ⟨⟨ws,
    by first | decide | rfl⟩,
   ⟨{ ws with pwr := { ws.pwr with stage := .control } },
    by first | decide | rfl⟩,
   ⟨110, 0, ws,
    by first | decide | rfl⟩,
   ⟨{ ws with pwr := { ws.pwr with stage := .vault }, tt := { ws.tt with vaultDue := true }, stg := { ws.stg with vaultAt := 0 } },
    by first | decide | rfl⟩,
   ⟨aStartEnv, { ws with pwr := { ws.pwr with stage := .vault }, stg := { ws.stg with trailer := true } },
    by first | decide | rfl,
    by first | decide | rfl,
    by first | decide | rfl⟩⟩

theorem meets_VaultCommands_2 :
    (∃ (env : StartEnv) (s : State),
    (s.pwr.stage = .sealed ∨ s.pwr.stage = .earlyWait) ∧
    s.mayRestart = true) ∧
    (∃ (s : State),
    s.stg.restored = false ∧
    (s.pwr.stage = .service ∨ s.pwr.stage = .starting)) ∧
    (∃ (time : Nat) (s : State),
    s.drops (.vaultNotice time) = false) ∧
    (∃ (time : Nat) (length : Nat) (s : State),
    s.drops (.vaultDone time length) = false) ∧
    (∃ (s : State),
    ∃ n : Nat, s.corr.notice = some n ∧
    n + secBells 2 ≤ s.tt.now) :=
  ⟨⟨aStartEnv, { ws with pwr := { ws.pwr with stage := .sealed } },
    by first | decide | rfl,
    by first | decide | rfl⟩,
   ⟨{ ws with stg := { ws.stg with restored := false } },
    by first | decide | rfl,
    by first | decide | rfl⟩,
   ⟨0, ws,
    by first | decide | rfl⟩,
   ⟨0, 0, ws,
    by first | decide | rfl⟩,
   ⟨{ ws with corr := { ws.corr with notice := some 5 } },
    _, rfl,
    by first | decide | rfl⟩⟩

theorem meets_TimetableCommands_1 :
    (∃ (s : State),
    s.pwr.stage = .aonOnly) ∧
    (∃ (s : State),
    s.pwr.stage ≠ .off ∧
    s.pwr.stage ≠ .aonOnly ∧
    ∃ u : State, u = countPeriod (nextPeriod (runClock (4 * s.tt.cycles) (unseen s)))) ∧
    (∃ (s : State),
    s.tt.now % 8 = 0 ∧
    s.ftl.seqEpoch ≠ s.epoch) ∧
    (∃ (s : State),
    ∃ r : JRec, r = ⟨s.sys.slot, (s.ftl.recordsOf s.sys.slot (s.ftl.sealWritten + 1)).length, s.ftl.sealWritten + 1,
      sealOf (s.ftl.recordsOf s.sys.slot (s.ftl.sealWritten + 1))⟩ ∧
    s.pool.isSome = true ∧
    r.epoch < s.epoch ∧
    (s.paired = true → s.ftl.unacked.all (fun u => r.epoch < u.2) = true)) ∧
    (∃ (s : State),
    ∃ i : TtImage, s.tt.pending = some i ∧
    s.termDue = true) :=
  ⟨⟨{ ws with pwr := { ws.pwr with stage := .aonOnly } },
    by first | decide | rfl⟩,
   ⟨ws,
    by first | decide | rfl,
    by first | decide | rfl,
    _, rfl⟩,
   ⟨ws,
    by first | decide | rfl,
    by first | decide | rfl⟩,
   ⟨{ ws with pool := some aPool },
    _, rfl,
    by first | decide | rfl,
    by first | decide | rfl,
    by first | decide | exact fun _ _ => nofun | exact nofun⟩,
   ⟨{ ws with tt := { ws.tt with load := .armed, pending := some aTtImage } },
    _, rfl,
    by first | decide | rfl⟩⟩

theorem meets_TimetableCommands_2 :
    (∃ (s : State),
    s.switchesDue ≠ []) ∧
    (∃ (what : Degradation) (s : State),
    s.tt.returning.any (fun x => x.1 == what && x.2 + 64 ≤ s.day && what.head == s.sys.slot) = true) ∧
    (∃ (number : Nat) (kind : Nat) (action : Nat) (index : Nat) (detected : Nat) (switchDay : Nat) (s : State),
    s.drops (.sheetTrigger kind action index detected switchDay) = false ∧
    getKey number s.corr.answered = none ∧
    s.corr.answerOf (fun b => b == .sheetTrigger kind action index detected switchDay) = none ∧
    (action = 1 ∨ action = 2)) ∧
    (∃ (b : Binding) (tag : Nat) (s : State),
    ∃ p : Packet, s.cpi.packet b tag 0x0601 = some p ∧
    s.tt.load = .none ∧
    ∃ s1 : State, takePiece p (p.param 8 8) (p.param 16 8) s = (s1, .more)) ∧
    (∃ (b : Binding) (tag : Nat) (peer : PeerAnswer) (s : State),
    ∃ p : Packet, s.cpi.packet b tag 0x0602 = some p ∧
    s.tt.staged (p.param 0 4) = true ∧
    s.tt.tooLate = false ∧
    s.day + 2 ≤ p.param 8 8 ∧
    p.param 8 8 ≤ s.day + 65536 ∧
    (s.paired = true → peer.status = .ok) ∧
    s.awaitsAlone = false) :=
  ⟨⟨{ ws with tt := { ws.tt with switches := [⟨1048576, true, ⟨1, 1, 0⟩⟩] } },
    by first | decide | rfl⟩,
   ⟨⟨2, 0, 3⟩, { ws with tt := { ws.tt with returning := [(⟨2, 0, 3⟩, 1048512)] } },
    by first | decide | rfl⟩,
   ⟨0, 0, 1, 0, 0, 0, ws,
    by first | decide | rfl,
    by first | decide | rfl,
    by first | decide | rfl,
    by first | decide | rfl⟩,
   ⟨.cpi, 0, { ws with tt := { ws.tt with load := .none }, cpi := { ws.cpi with accepted := [{ aPacket with opcode := 0x0601, payload := [1], params := [0, 0, 0, 0, 0, 0, 0, 0, 0, 0, 0, 0, 0, 0, 0, 0, 2, 0, 0, 0, 0, 0, 0, 0] }] } },
    _, rfl,
    by first | decide | rfl,
    _, rfl⟩,
   ⟨.cpi, 0, aPeerAnswer, { ws with tt := { ws.tt with load := .staged, pending := some aTtImage }, cpi := { ws.cpi with accepted := [{ aPacket with opcode := 0x0602, params := [0, 0, 0, 0, 0, 0, 0, 0, 2, 0, 16, 0, 0, 0, 0, 0] }] } },
    _, rfl,
    by first | decide | rfl,
    by first | decide | rfl,
    by first | decide | rfl,
    by first | decide | rfl,
    by first | decide | exact fun _ _ => nofun | exact nofun,
    by first | decide | rfl⟩⟩

theorem meets_TimetableCommands_3 :
    (∃ (b : Binding) (tag : Nat) (peer : PeerAnswer) (s : State),
    ∃ p : Packet, s.cpi.packet b tag 0x0603 = some p ∧
    s.tt.staged (p.param 0 4) = true ∧
    s.tt.tooLate = false ∧
    (s.paired = true → peer.status = .ok) ∧
    s.awaitsAlone = false) ∧
    (∃ (b : Binding) (tag : Nat) (s : State),
    ∃ p : Packet, s.cpi.packet b tag 0x0604 = some p) ∧
    (∃ (term : Nat) (detail : Bytes) (b : Binding) (tag : Nat) (s : State),
    ∃ p : Packet, s.cpi.packet b tag 0x0601 = some p ∧
    s.drops (.ttVerdict term .ok detail) = false ∧
    s.tt.staging = some (b, tag) ∧
    s.tt.load = .checking ∧
    ∃ i : TtImage, s.tt.pending = some i ∧
    i.term = term) ∧
    (∃ (number : Nat) (term : Nat) (offset : Nat) (bytes : Bytes) (s : State),
    s.drops (.ttImage term offset bytes.length bytes) = false ∧
    getKey number s.corr.answered = none ∧
    s.pwr.stage ≠ .joining ∧
    ∃ l : Bytes, l = (if offset = 0 then [] else s.tt.incoming.take offset) ++ bytes ∧
    l.length < fieldAt l 0x10 4) :=
  ⟨⟨.cpi, 0, aPeerAnswer, { ws with tt := { ws.tt with load := .staged, pending := some aTtImage }, cpi := { ws.cpi with accepted := [{ aPacket with opcode := 0x0603 }] } },
    _, rfl,
    by first | decide | rfl,
    by first | decide | rfl,
    by first | decide | exact fun _ _ => nofun | exact nofun,
    by first | decide | rfl⟩,
   ⟨.cpi, 0, { ws with cpi := { ws.cpi with accepted := [{ aPacket with opcode := 0x0604 }] } },
    _, rfl⟩,
   ⟨0, [], .cpi, 0, { ws with tt := { ws.tt with load := .checking, pending := some aTtImage, staging := some (.cpi, 0) }, cpi := { ws.cpi with accepted := [{ aPacket with opcode := 0x0601, binding := .cpi }] } },
    _, rfl,
    by first | decide | rfl,
    by first | decide | rfl,
    by first | decide | rfl,
    _, rfl,
    by first | decide | rfl⟩,
   ⟨0, 0, 0, zeros 16 ++ [32, 0], ws,
    by first | decide | rfl,
    by first | decide | rfl,
    by first | decide | rfl,
    _, rfl,
    by first | decide | rfl⟩⟩

theorem meets_CapsuleAndConnectionCommands_1 :
    (∃ (cntlid : Nat) (qid : Nat) (cid : Nat) (cap : Capsule) (s : State),
    cntlid ≠ 65536 ∧
    ∃ q : Queue, s.hq.queue cntlid qid = some q ∧
    q.qid ≠ 0 ∧
    q.capsules.length < q.size ∧
    s.hq.poolEmpty q.port = false ∧
    cap.tcp = false) ∧
    (∃ (cntlid : Nat) (qid : Nat) (cid : Nat) (cap : Capsule) (s : State),
    cntlid ≠ 65536 ∧
    ∃ q : Queue, s.hq.queue cntlid qid = some q ∧
    q.qid ≠ 0 ∧
    q.capsules.length < q.size ∧
    s.hq.poolEmpty q.port = false ∧
    cap.tcp = true ∧
    cap.data.any (fun d => d.length + cap.pi.length != cap.sgl) = true) ∧
    (∃ (cntlid : Nat) (qid : Nat) (cid : Nat) (cap : Capsule) (s : State),
    cntlid ≠ 65536 ∧
    ∃ q : Queue, s.hq.queue cntlid qid = some q ∧
    q.qid ≠ 0 ∧
    q.capsules.length < q.size ∧
    cap.tcp = false) ∧
    (∃ (qid : Nat) (cid : Nat) (cap : Capsule) (room : Bool) (s : State),
    cap.opcode = 0x0D ∧
    ∃ r : Reservation, s.hq.reservation cap.nsid = r ∧
    cap.cdw10 = 0 ∧
    r.keyOf cap.pi = none) ∧
    (∃ (qid : Nat) (cid : Nat) (cap : Capsule) (room : Bool) (s : State),
    cap.opcode = 0x11 ∧
    ∃ r : Reservation, s.hq.reservation cap.nsid = r ∧
    r.keyOf cap.pi = some (resKey cap 0) ∧
    cap.cdw10 % 8 = 0 ∧
    1 ≤ bitField 15 8 cap.cdw10 ∧
    bitField 15 8 cap.cdw10 ≤ 6 ∧
    r.holder = none) :=
  ⟨⟨0, 1, 0, aCapsule, { ws with hq := { ws.hq with queues := [{ aQueue with qid := 1, size := 2 }] } },
    by first | decide | rfl,
    _, rfl,
    by first | decide | rfl,
    by first | decide | rfl,
    by first | decide | rfl,
    by first | decide | rfl⟩,
   ⟨0, 1, 0, { aCapsule with tcp := true, sgl := 1, data := some [] }, { ws with hq := { ws.hq with queues := [{ aQueue with qid := 1, size := 2 }] } },
    by first | decide | rfl,
    _, rfl,
    by first | decide | rfl,
    by first | decide | rfl,
    by first | decide | rfl,
    by first | decide | rfl,
    by first | decide | rfl⟩,
   ⟨0, 1, 0, aCapsule, { ws with hq := { ws.hq with queues := [{ aQueue with qid := 1, size := 2 }] } },
    by first | decide | rfl,
    _, rfl,
    by first | decide | rfl,
    by first | decide | rfl,
    by first | decide | rfl⟩,
   ⟨0, 0, { aCapsule with opcode := 13 }, false, ws,
    by first | decide | rfl,
    _, rfl,
    by first | decide | rfl,
    by first | decide | rfl⟩,
   ⟨0, 0, { aCapsule with opcode := 0x11, cdw10 := 0x600 }, false, { ws with hq := { ws.hq with reservations := [{ aReservation with keys := [([], 0)] }] } },
    by first | decide | rfl,
    _, rfl,
    by first | decide | rfl,
    by first | decide | rfl,
    by first | decide | rfl,
    by first | decide | rfl,
    by first | decide | rfl⟩⟩

theorem meets_CapsuleAndConnectionCommands_2 :
    (∃ (qid : Nat) (cid : Nat) (cap : Capsule) (room : Bool) (s : State),
    cap.opcode = 0x15 ∧
    ∃ r : Reservation, s.hq.reservation cap.nsid = r ∧
    r.keyOf cap.pi = some (resKey cap 0) ∧
    cap.cdw10 % 8 = 0 ∧
    r.holds cap.pi = true ∧
    bitField 15 8 cap.cdw10 = r.rtype ∧
    r.rtype < 3) ∧
    (∃ (s : State),
    s.fetches = true ∧
    ∃ q : Queue, s.hq.queues[s.hq.turn]? = some q ∧
    s.hq.taken + 1 < q.weight ∧
    ∃ u : State, tryFetch q s = some (u, true) ∧
    (tryQueue s.hq.turn u).isSome = true) ∧
    (∃ (s : State),
    s.fetches = true ∧
    ∃ q : Queue, s.hq.queues[s.hq.turn]? = some q ∧
    s.hq.taken + 1 = q.weight ∧
    ∃ u : State, tryFetch q s = some (u, true)) ∧
    (∃ (cntlid : Nat) (qid : Nat) (cid : Nat) (cap : Capsule) (at_ : Nat) (rest : List (Nat × (Capsule × Nat))) (root : Nat) (page : Nat) (s : State),
    ∃ q : Queue, s.hq.queue cntlid qid = some q ∧
    q.capsules = (cid, (cap, at_)) :: rest ∧
    readsData cap = true ∧
    s.fetches = true ∧
    (s.pagesFor cap).filter (fun p => s.ftl.absent.contains p && !s.ftl.lostPages.contains p) = [(root, page)] ∧
    (s.bay.waiting ++ s.bay.outstanding).any (fun o => o.use == .metadata root page) = false ∧
    s.metaAdmits (s.ftl.mpaOfPage root page) = true) ∧
    (∃ (number : Nat) (nsid : Nat) (tag : Nat) (cap : Capsule) (host : Bytes) (s : State),
    s.drops (.fsnRequest nsid tag) = false ∧
    getKey number s.corr.answered = none ∧
    s.hq.fsnWaits.any (fun f => f.1 == number) = false ∧
    s.hq.ps ≠ 3 ∧
    ∃ t : State, grantFsn number nsid tag cap host (tallyAdd 0x0D 1 1 s) = some t) :=
  ⟨⟨0, 0, { aCapsule with opcode := 0x15, cdw10 := 0x200 }, false, { ws with hq := { ws.hq with reservations := [{ aReservation with keys := [([], 0)], holder := some [], rtype := 2 }] } },
    by first | decide | rfl,
    _, rfl,
    by first | decide | rfl,
    by first | decide | rfl,
    by first | decide | rfl,
    by first | decide | rfl,
    by first | decide | rfl⟩,
   ⟨{ wr with hq := { wr.hq with queues := [{ aQueue with qid := 1, weight := 4, capsules := [(7, { aCapsule with opcode := 2, nsid := 1, nlb := 1 }, 0), (8, { aCapsule with opcode := 2, nsid := 1, nlb := 1 }, 0)] }] } },
    by first | decide | rfl,
    _, rfl,
    by first | decide | rfl,
    _, rfl,
    by first | decide | rfl⟩,
   ⟨{ wr with hq := { wr.hq with queues := [{ aQueue with qid := 1, weight := 1, capsules := [(7, { aCapsule with opcode := 2, nsid := 1, nlb := 1 }, 0)] }] } },
    by first | decide | rfl,
    _, rfl,
    by first | decide | rfl,
    _, rfl⟩,
   ⟨0, 0, 7, { aCapsule with opcode := 2, nsid := 1, nlb := 1 }, 0, [], 1, 0, { wr with ftl := { wr.ftl with absent := [(1, 0)] }, hq := { wr.hq with queues := [{ aQueue with capsules := [(7, { aCapsule with opcode := 2, nsid := 1, nlb := 1 }, 0)] }] } },
    _, rfl,
    by first | decide | rfl,
    by first | decide | rfl,
    by first | decide | rfl,
    by first | decide | rfl,
    by first | decide | rfl,
    by first | decide | rfl⟩,
   ⟨0, 1, 0, { aCapsule with nsid := 1 }, [], wr,
    by first | decide | rfl,
    by first | decide | rfl,
    by first | decide | rfl,
    by first | decide | rfl,
    _, rfl⟩⟩

theorem meets_CapsuleAndConnectionCommands_3 :
    (∃ (number : Nat) (nsid : Nat) (tag : Nat) (cap : Capsule) (host : Bytes) (s : State),
    s.drops (.fsnRequest nsid tag) = false ∧
    getKey number s.corr.answered = none ∧
    s.hq.fsnWaits.any (fun f => f.1 == number) = false ∧
    s.hq.ps ≠ 3 ∧
    grantFsn number nsid tag cap host (tallyAdd 0x0D 1 1 s) = none) ∧
    (∃ (nsid : Nat) (tag : Nat) (seq : Nat) (q : Queue) (s : State),
    s.drops (.fsnGrant nsid tag seq) = false ∧
    ∃ m : Sent, s.corr.answerOf (fun b => b == .fsnRequest nsid tag) = some m ∧
    ∃ u : State, u = settleNumber m.number (tallyAdd 0x0D 1 1 s) ∧
    u.hq.queues.find? (fun q => q.asked == some tag) = some q ∧
    ∃ c : Controller, u.hq.controller q.cntlid = some c ∧
    seq ≠ 0) ∧
    (∃ (nsid : Nat) (tag : Nat) (q : Queue) (s : State),
    s.drops (.fsnGrant nsid tag 0) = false ∧
    ∃ m : Sent, s.corr.answerOf (fun b => b == .fsnRequest nsid tag) = some m ∧
    ∃ u : State, u = settleNumber m.number (tallyAdd 0x0D 1 1 s) ∧
    u.hq.queues.find? (fun q => q.asked == some tag) = some q) ∧
    (∃ (cntlid : Nat) (qid : Nat) (cid : Nat) (first : Nat) (data : Bytes) (pi : Bytes) (s : State),
    ∃ x : Ctx, s.hq.ctx cntlid qid cid = some x ∧
    x.cap.opcode = 0x01 ∧
    x.state = .dataIn ∧
    x.committed = false ∧
    x.forPeer = false ∧
    x.overruns first data pi = false ∧
    x.blocks.any (fun b => first ≤ b.1 && b.1 < first + data.length / 4096) = false ∧
    ∃ u : State, u = writeProgress (placeData x first (data.take (4096 * (x.cap.nlb - first))) pi s).1 (placeData x first (data.take (4096 * (x.cap.nlb - first))) pi s).2 ∧
    u.hq.ctx cntlid qid cid = none) ∧
    (∃ (cntlid : Nat) (qid : Nat) (cid : Nat) (first : Nat) (data : Bytes) (pi : Bytes) (s : State),
    ∃ x : Ctx, s.hq.ctx cntlid qid cid = some x ∧
    x.cap.opcode = 0x01 ∧
    x.state = .dataIn ∧
    x.committed = false ∧
    x.forPeer = false ∧
    x.overruns first data pi = false ∧
    x.blocks.any (fun b => first ≤ b.1 && b.1 < first + data.length / 4096) = false ∧
    ∃ u : State, u = writeProgress (placeData x first (data.take (4096 * (x.cap.nlb - first))) pi s).1 (placeData x first (data.take (4096 * (x.cap.nlb - first))) pi s).2 ∧
    ∃ z : Ctx, u.hq.ctx cntlid qid cid = some z) :=
  ⟨⟨0, 0, 0, aCapsule, [], ws,
    by first | decide | rfl,
    by first | decide | rfl,
    by first | decide | rfl,
    by first | decide | rfl,
    by first | decide | rfl⟩,
   ⟨0, 3, 1, { aQueue with asked := some 3 }, { ws with corr := { ws.corr with unanswered := [⟨9, .fsnRequest 0 3, 0, 0, false⟩] }, hq := { ws.hq with queues := [{ aQueue with asked := some 3 }], controllers := [aController] } },
    by first | decide | rfl,
    _, rfl,
    _, rfl,
    by first | decide | rfl,
    _, rfl,
    by first | decide | rfl⟩,
   ⟨0, 3, { aQueue with asked := some 3 }, { ws with corr := { ws.corr with unanswered := [⟨9, .fsnRequest 0 3, 0, 0, false⟩] }, hq := { ws.hq with queues := [{ aQueue with asked := some 3 }] } },
    by first | decide | rfl,
    _, rfl,
    _, rfl,
    by first | decide | rfl⟩,
   ⟨0, 0, 0, 1, [], [], { ws with hq := { ws.hq with queues := [{ aQueue with qid := 1 }], ctxs := [{ aCtx with cap := { aCtx.cap with opcode := 0x01, nlb := 1 }, state := .dataIn, committed := false, blocks := [(0, [])] }] } },
    _, rfl,
    by first | decide | rfl,
    by first | decide | rfl,
    by first | decide | rfl,
    by first | decide | rfl,
    by first | decide | rfl,
    by first | decide | rfl,
    _, rfl,
    by first | decide | rfl⟩,
   ⟨0, 0, 0, 0, [], [], { ws with hq := { ws.hq with queues := [{ aQueue with qid := 1 }], ctxs := [{ aCtx with cap := { aCtx.cap with opcode := 0x01, nlb := 1 }, state := .dataIn, committed := false }] } },
    _, rfl,
    by first | decide | rfl,
    by first | decide | rfl,
    by first | decide | rfl,
    by first | decide | rfl,
    by first | decide | rfl,
    by first | decide | rfl,
    _, rfl,
    _, rfl⟩⟩

theorem meets_CapsuleAndConnectionCommands_4 :
    (∃ (cntlid : Nat) (qid : Nat) (cid : Nat) (first : Nat) (data : Bytes) (pi : Bytes) (ok : Bool) (s : State),
    ∃ x : Ctx, s.hq.ctx cntlid qid cid = some x ∧
    x.cap.opcode = 0x01 ∧
    x.forPeer = false ∧
    x.cap.tcp = true ∧
    x.overruns first data pi = true) ∧
    (∃ (cntlid : Nat) (qid : Nat) (cid : Nat) (first : Nat) (data : Bytes) (pi : Bytes) (s : State),
    ∃ x : Ctx, s.hq.ctx cntlid qid cid = some x ∧
    x.cap.opcode = 0x01 ∧
    x.state = .dataIn ∧
    x.committed = false ∧
    x.forPeer = false ∧
    x.cap.tcp = false) ∧
    (∃ (cntlid : Nat) (qid : Nat) (cid : Nat) (s : State),
    ∃ x : Ctx, s.hq.ctx cntlid qid cid = some x ∧
    x.forPeer = false ∧
    x.at_ + secBells s.hq.timeout ≤ s.tt.now ∧
    x.blocks.length < x.cap.nlb ∧
    x.cap.opcode = 0x01 ∧
    x.state = .dataIn ∧
    ∃ c : Controller, s.hq.controller x.cntlid = some c) ∧
    (∃ (cntlid : Nat) (c : Controller) (s : State),
    ∃ q : Queue, s.hq.queue cntlid 0 = some q) ∧
    (∃ (cntlid : Nat) (qid : Nat) (s : State),
    ∃ q : Queue, s.hq.queue cntlid qid = some q ∧
    qid ≠ 0) :=
  ⟨⟨0, 0, 0, 0, [], [0], false, { ws with hq := { ws.hq with ctxs := [{ aCtx with cap := { aCtx.cap with opcode := 0x01, tcp := true } }] } },
    _, rfl,
    by first | decide | rfl,
    by first | decide | rfl,
    by first | decide | rfl,
    by first | decide | rfl⟩,
   ⟨0, 0, 0, 0, [], [], { ws with hq := { ws.hq with ctxs := [{ aCtx with cap := { aCtx.cap with opcode := 0x01, tcp := false }, state := .dataIn, committed := false }] } },
    _, rfl,
    by first | decide | rfl,
    by first | decide | rfl,
    by first | decide | rfl,
    by first | decide | rfl,
    by first | decide | rfl⟩,
   ⟨0, 0, 0, { ws with hq := { ws.hq with ctxs := [{ aCtx with cap := { aCtx.cap with opcode := 0x01, nlb := 1 }, state := .dataIn }], controllers := [aController] } },
    _, rfl,
    by first | decide | rfl,
    by first | decide | rfl,
    by first | decide | rfl,
    by first | decide | rfl,
    by first | decide | rfl,
    _, rfl⟩,
   ⟨0, aController, { ws with hq := { ws.hq with queues := [aQueue] } },
    _, rfl⟩,
   ⟨0, 1, { ws with hq := { ws.hq with queues := [{ aQueue with qid := 1 }] } },
    _, rfl,
    by first | decide | rfl⟩⟩

theorem meets_CapsuleAndConnectionCommands_5 :
    ∃ (cntlid : Nat) (s : State),
    ∃ c : Controller, s.hq.controller cntlid = some c ∧
    c.kato ≠ 0 ∧
    c.alive + msBells c.kato ≤ s.tt.now :=
  ⟨0, { ws with hq := { ws.hq with controllers := [{ aController with kato := 1000 }] } },
    _, rfl,
    by first | decide | rfl,
    by first | decide | rfl⟩

theorem meets_HostDataCommands_1 :
    (∃ (cntlid : Nat) (qid : Nat) (cid : Nat) (remoteDone : Bool) (s : State),
    ∃ x : Ctx, s.hq.ctx cntlid qid cid = some x ∧
    ∃ q : Queue, s.hq.queue x.cntlid x.qid = some q ∧
    x.cap.opcode = 0x00 ∧
    x.state = .fetched ∧
    s.flushWaits x = false ∧
    (s.ownsAll x = true ∨ remoteDone = true)) ∧
    (∃ (cntlid : Nat) (qid : Nat) (cid : Nat) (s : State),
    ∃ x : Ctx, s.hq.ctx cntlid qid cid = some x ∧
    x.cap.opcode = 0x01 ∧
    x.state = .fetched ∧
    s.hq.compareRuns x = false ∧
    x.cap.data = none) ∧
    (∃ (cntlid : Nat) (qid : Nat) (cid : Nat) (s : State),
    ∃ x : Ctx, s.hq.ctx cntlid qid cid = some x ∧
    x.cap.opcode = 0x01 ∧
    x.state = .fetched ∧
    s.hq.compareRuns x = false ∧
    ∃ d : Bytes, x.cap.data = some d) ∧
    (∃ (cntlid : Nat) (qid : Nat) (cid : Nat) (remote : Option (Status × Bytes)) (s : State),
    ∃ x : Ctx, s.hq.ctx cntlid qid cid = some x ∧
    x.cap.opcode = 0x02 ∧
    x.state = .fetched ∧
    (s.ftl.ofNsid x.cap.nsid).any (fun r => s.ownsGroup r.ana) = true) ∧
    (∃ (cntlid : Nat) (qid : Nat) (cid : Nat) (d : Bytes) (s : State),
    ∃ x : Ctx, s.hq.ctx cntlid qid cid = some x ∧
    x.cap.opcode = 0x02 ∧
    x.state = .fetched ∧
    (s.ftl.ofNsid x.cap.nsid).any (fun r => s.ownsGroup r.ana) = false ∧
    s.hasMeta x.cap.nsid = false) :=
  ⟨⟨0, 0, 0, true, { ws with hq := { ws.hq with ctxs := [{ aCtx with cap := { aCtx.cap with opcode := 0x00 }, state := .fetched }], queues := [aQueue] } },
    _, rfl,
    _, rfl,
    by first | decide | rfl,
    by first | decide | rfl,
    by first | decide | rfl,
    by first | decide | rfl⟩,
   ⟨0, 0, 0, { ws with hq := { ws.hq with ctxs := [{ aCtx with cap := { aCtx.cap with opcode := 0x01, data := none }, state := .fetched }] } },
    _, rfl,
    by first | decide | rfl,
    by first | decide | rfl,
    by first | decide | rfl,
    by first | decide | rfl⟩,
   ⟨0, 0, 0, { ws with hq := { ws.hq with ctxs := [{ aCtx with cap := { aCtx.cap with opcode := 0x01, data := some [] }, state := .fetched }] } },
    _, rfl,
    by first | decide | rfl,
    by first | decide | rfl,
    by first | decide | rfl,
    _, rfl⟩,
   ⟨0, 0, 0, none, { wr with ftl := { wr.ftl with roots := [{ aRoot with id := 1, nsid := 1 }] }, hq := { wr.hq with ctxs := [{ aCtx with cap := { aCtx.cap with opcode := 0x02, nsid := 1 }, state := .fetched }] } },
    _, rfl,
    by first | decide | rfl,
    by first | decide | rfl,
    by first | decide | rfl⟩,
   ⟨0, 0, 0, [], { wr with ftl := { wr.ftl with roots := [] }, hq := { wr.hq with ctxs := [{ aCtx with cap := { aCtx.cap with opcode := 0x02, nsid := 1 }, state := .fetched }] } },
    _, rfl,
    by first | decide | rfl,
    by first | decide | rfl,
    by first | decide | rfl,
    by first | decide | rfl⟩⟩

theorem meets_HostDataCommands_2 :
    (∃ (cntlid : Nat) (qid : Nat) (cid : Nat) (remote : Option (Status × Bytes)) (s : State),
    ∃ x : Ctx, s.hq.ctx cntlid qid cid = some x ∧
    x.cap.opcode = 0x05 ∧
    x.cap.fused = 0 ∧
    x.state = .fetched ∧
    x.blocks ≠ [] ∧
    s.ownsNsid x.cap.nsid = true ∧
    (s.ftl.ofNsid x.cap.nsid).any (fun r => s.ownsGroup r.ana) = true) ∧
    (∃ (cntlid : Nat) (qid : Nat) (cid : Nat) (remote : Option (Status × Bytes)) (s : State),
    ∃ x : Ctx, s.hq.ctx cntlid qid cid = some x ∧
    x.cap.opcode = 0x05 ∧
    x.cap.fused = 1 ∧
    x.state = .fetched ∧
    x.blocks ≠ [] ∧
    s.ownsNsid x.cap.nsid = true ∧
    (s.ftl.ofNsid x.cap.nsid).any (fun r => s.ownsGroup r.ana) = true) ∧
    (∃ (cntlid : Nat) (qid : Nat) (cid : Nat) (s : State),
    ∃ x : Ctx, s.hq.ctx cntlid qid cid = some x ∧
    x.cap.opcode = 0x08 ∧
    x.state = .fetched ∧
    ∃ y : Ctx, ∃ u : State, placeZeros { x with state := .dataIn } (zeroPieces x.cap.slba x.cap.nlb false) s = (y, u)) ∧
    (∃ (cntlid : Nat) (qid : Nat) (cid : Nat) (s : State),
    ∃ x : Ctx, s.hq.ctx cntlid qid cid = some x ∧
    x.cap.opcode = 0x09 ∧
    x.state = .fetched ∧
    bitAt 2 x.cap.cdw11 = true ∧
    ∃ y : Ctx, ∃ u : State, placeZeros { x with state := .dataIn } (x.cap.ranges.flatMap (fun r => zeroPieces r.1 r.2 true)) s = (y, u)) ∧
    (∃ (cntlid : Nat) (qid : Nat) (cid : Nat) (s : State),
    ∃ x : Ctx, s.hq.ctx cntlid qid cid = some x ∧
    x.cap.opcode = 0x09 ∧
    x.state = .fetched ∧
    bitAt 2 x.cap.cdw11 = false) :=
  ⟨⟨0, 0, 0, none, { wr with hq := { wr.hq with ctxs := [{ aCtx with cap := { aCtx.cap with opcode := 0x05, fused := 0, nsid := 1 }, state := .fetched, blocks := [(0, [])] }] } },
    _, rfl,
    by first | decide | rfl,
    by first | decide | rfl,
    by first | decide | rfl,
    by first | decide | rfl,
    by first | decide | rfl,
    by first | decide | rfl⟩,
   ⟨0, 0, 0, none, { wr with hq := { wr.hq with ctxs := [{ aCtx with cap := { aCtx.cap with opcode := 0x05, fused := 1, nsid := 1 }, state := .fetched, blocks := [(0, [])] }] } },
    _, rfl,
    by first | decide | rfl,
    by first | decide | rfl,
    by first | decide | rfl,
    by first | decide | rfl,
    by first | decide | rfl,
    by first | decide | rfl⟩,
   ⟨0, 0, 0, { ws with hq := { ws.hq with ctxs := [{ aCtx with cap := { aCtx.cap with opcode := 0x08 }, state := .fetched }] } },
    _, rfl,
    by first | decide | rfl,
    by first | decide | rfl,
    _, _, rfl⟩,
   ⟨0, 0, 0, { ws with hq := { ws.hq with ctxs := [{ aCtx with cap := { aCtx.cap with opcode := 0x09, cdw11 := 4 }, state := .fetched }] } },
    _, rfl,
    by first | decide | rfl,
    by first | decide | rfl,
    by first | decide | rfl,
    _, _, rfl⟩,
   ⟨0, 0, 0, { ws with hq := { ws.hq with ctxs := [{ aCtx with cap := { aCtx.cap with opcode := 0x09 }, state := .fetched }] } },
    _, rfl,
    by first | decide | rfl,
    by first | decide | rfl,
    by first | decide | rfl⟩⟩

theorem meets_HostDataCommands_3 :
    ∃ (cntlid : Nat) (qid : Nat) (cid : Nat) (remote : Option (Status × Bytes)) (s : State),
    ∃ x : Ctx, s.hq.ctx cntlid qid cid = some x ∧
    x.cap.opcode = 0x0C ∧
    x.state = .fetched ∧
    (s.ftl.ofNsid x.cap.nsid).any (fun r => s.ownsGroup r.ana) = true :=
  ⟨0, 0, 0, none, { wr with hq := { wr.hq with ctxs := [{ aCtx with cap := { aCtx.cap with opcode := 0x0C, nsid := 1 }, state := .fetched }] } },
    _, rfl,
    by first | decide | rfl,
    by first | decide | rfl,
    by first | decide | rfl⟩

theorem meets_ReservationCommands_1 :
    (∃ (cntlid : Nat) (qid : Nat) (cid : Nat) (s : State),
    ∃ x : Ctx, s.hq.ctx cntlid qid cid = some x ∧
    ∃ q : Queue, s.hq.queue x.cntlid x.qid = some q ∧
    x.cap.opcode = 0x0D ∧
    x.state = .fetched ∧
    x.decided = some nvmeOk) ∧
    (∃ (cntlid : Nat) (qid : Nat) (cid : Nat) (s : State),
    ∃ x : Ctx, s.hq.ctx cntlid qid cid = some x ∧
    x.cap.opcode = 0x0D ∧
    x.state = .fetched ∧
    ∃ st : NvmeStatus, x.decided = some st) ∧
    (∃ (cntlid : Nat) (qid : Nat) (cid : Nat) (s : State),
    ∃ x : Ctx, s.hq.ctx cntlid qid cid = some x ∧
    ∃ q : Queue, s.hq.queue x.cntlid x.qid = some q ∧
    x.cap.opcode = 0x0E ∧
    x.state = .fetched ∧
    bitAt 0 x.cap.cdw11 = true ∧
    (s.hq.reservation x.cap.nsid).keys = []) ∧
    (∃ (cntlid : Nat) (qid : Nat) (cid : Nat) (s : State),
    ∃ x : Ctx, s.hq.ctx cntlid qid cid = some x ∧
    ∃ q : Queue, s.hq.queue x.cntlid x.qid = some q ∧
    x.cap.opcode = 0x11 ∧
    x.state = .fetched ∧
    x.decided = some nvmeOk) ∧
    (∃ (cntlid : Nat) (qid : Nat) (cid : Nat) (s : State),
    ∃ x : Ctx, s.hq.ctx cntlid qid cid = some x ∧
    x.cap.opcode = 0x11 ∧
    x.state = .fetched ∧
    ∃ st : NvmeStatus, x.decided = some st) :=
  ⟨⟨0, 0, 0, { ws with hq := { ws.hq with ctxs := [{ aCtx with cap := { aCtx.cap with opcode := 0x0D }, state := .fetched, decided := some nvmeOk }], queues := [aQueue] } },
    _, rfl,
    _, rfl,
    by first | decide | rfl,
    by first | decide | rfl,
    by first | decide | rfl⟩,
   ⟨0, 0, 0, { ws with hq := { ws.hq with ctxs := [{ aCtx with cap := { aCtx.cap with opcode := 0x0D }, state := .fetched, decided := some nvmeReserved }] } },
    _, rfl,
    by first | decide | rfl,
    by first | decide | rfl,
    _, rfl⟩,
   ⟨0, 0, 0, { ws with hq := { ws.hq with ctxs := [{ aCtx with cap := { aCtx.cap with opcode := 0x0E, cdw11 := 1 }, state := .fetched }], queues := [aQueue] } },
    _, rfl,
    _, rfl,
    by first | decide | rfl,
    by first | decide | rfl,
    by first | decide | rfl,
    by first | decide | rfl⟩,
   ⟨0, 0, 0, { ws with hq := { ws.hq with ctxs := [{ aCtx with cap := { aCtx.cap with opcode := 0x11 }, state := .fetched, decided := some nvmeOk }], queues := [aQueue] } },
    _, rfl,
    _, rfl,
    by first | decide | rfl,
    by first | decide | rfl,
    by first | decide | rfl⟩,
   ⟨0, 0, 0, { ws with hq := { ws.hq with ctxs := [{ aCtx with cap := { aCtx.cap with opcode := 0x11 }, state := .fetched, decided := some nvmeReserved }] } },
    _, rfl,
    by first | decide | rfl,
    by first | decide | rfl,
    _, rfl⟩⟩

theorem meets_ReservationCommands_2 :
    (∃ (cntlid : Nat) (qid : Nat) (cid : Nat) (s : State),
    ∃ x : Ctx, s.hq.ctx cntlid qid cid = some x ∧
    ∃ q : Queue, s.hq.queue x.cntlid x.qid = some q ∧
    x.cap.opcode = 0x15 ∧
    x.state = .fetched ∧
    x.decided = some nvmeOk) ∧
    (∃ (cntlid : Nat) (qid : Nat) (cid : Nat) (s : State),
    ∃ x : Ctx, s.hq.ctx cntlid qid cid = some x ∧
    x.cap.opcode = 0x15 ∧
    x.state = .fetched ∧
    ∃ st : NvmeStatus, x.decided = some st) :=
  ⟨⟨0, 0, 0, { ws with hq := { ws.hq with ctxs := [{ aCtx with cap := { aCtx.cap with opcode := 0x15 }, state := .fetched, decided := some nvmeOk }], queues := [aQueue] } },
    _, rfl,
    _, rfl,
    by first | decide | rfl,
    by first | decide | rfl,
    by first | decide | rfl⟩,
   ⟨0, 0, 0, { ws with hq := { ws.hq with ctxs := [{ aCtx with cap := { aCtx.cap with opcode := 0x15 }, state := .fetched, decided := some nvmeReserved }] } },
    _, rfl,
    by first | decide | rfl,
    by first | decide | rfl,
    _, rfl⟩⟩

theorem meets_AdminCommands_1 :
    (∃ (cntlid : Nat) (cid : Nat) (lid : Nat) (offset : Nat) (length : Nat) (peer : Bytes) (s : State),
    ∃ c : Controller, s.hq.controller cntlid = some c ∧
    ∃ b : Bytes, s.logPage c lid peer = some b ∧
    s.handingOver = false) ∧
    (∃ (cntlid : Nat) (cid : Nat) (lid : Nat) (offset : Nat) (length : Nat) (peer : Bytes) (s : State),
    ∃ c : Controller, s.hq.controller cntlid = some c ∧
    s.logPage c lid peer = none ∧
    s.handingOver = false) ∧
    (∃ (cntlid : Nat) (cid : Nat) (cns : Nat) (nsid : Nat) (cntid : Nat) (s : State),
    ∃ c : Controller, s.hq.controller cntlid = some c ∧
    ∃ b : Bytes, s.identifyData c cns nsid cntid = some b ∧
    s.handingOver = false) ∧
    (∃ (cntlid : Nat) (cid : Nat) (sqid : Nat) (target : Nat) (s : State),
    ∃ c : Controller, s.hq.controller cntlid = some c ∧
    ∃ q : Queue, (adminFetched cntlid s).hq.queue cntlid sqid = some q ∧
    q.capsules.any (fun c => c.1 == target) = true) ∧
    (∃ (cntlid : Nat) (cid : Nat) (sqid : Nat) (target : Nat) (s : State),
    ∃ c : Controller, s.hq.controller cntlid = some c ∧
    ∃ q : Queue, (adminFetched cntlid s).hq.queue cntlid sqid = some q ∧
    q.capsules.any (fun c => c.1 == target) = false ∧
    s.handingOver = false) :=
  ⟨⟨0, 0, 0, 0, 0, [], { ws with hq := { ws.hq with controllers := [aController] } },
    _, rfl,
    _, rfl,
    by first | decide | rfl⟩,
   ⟨0, 0, 0x7F, 0, 0, [], { ws with hq := { ws.hq with controllers := [aController] } },
    _, rfl,
    by first | decide | rfl,
    by first | decide | rfl⟩,
   ⟨0, 0, 0x06, 0, 0, { ws with hq := { ws.hq with controllers := [aController] } },
    _, rfl,
    _, rfl,
    by first | decide | rfl⟩,
   ⟨0, 0, 1, 0, { ws with hq := { ws.hq with queues := [{ aQueue with qid := 1, capsules := [(0, aCapsule, 0)] }], controllers := [aController] } },
    _, rfl,
    _, rfl,
    by first | decide | rfl⟩,
   ⟨0, 0, 1, 0, { ws with hq := { ws.hq with queues := [{ aQueue with qid := 1 }], controllers := [aController] } },
    _, rfl,
    _, rfl,
    by first | decide | rfl,
    by first | decide | rfl⟩⟩

theorem meets_AdminCommands_2 :
    (∃ (cntlid : Nat) (cid : Nat) (nsid : Nat) (value : Nat) (data : Bytes) (s : State),
    ∃ c : Controller, s.hq.controller cntlid = some c ∧
    1000 ≤ value ∧
    value ≤ 300000 ∧
    s.handingOver = false) ∧
    (∃ (cntlid : Nat) (cid : Nat) (nsid : Nat) (value : Nat) (data : Bytes) (s : State),
    ∃ c : Controller, s.hq.controller cntlid = some c ∧
    ∃ m : Nat, s.hq.managed cntlid = some m ∧
    value % 32 < 3) ∧
    (∃ (cntlid : Nat) (cid : Nat) (nsid : Nat) (value : Nat) (data : Bytes) (s : State),
    ∃ c : Controller, s.hq.controller cntlid = some c ∧
    ∃ m : Nat, s.hq.managed cntlid = some m ∧
    value % 32 = 3 ∧
    s.hq.ps ≠ 3 ∧
    s.hq.ps3 = none) ∧
    (∃ (cntlid : Nat) (cid : Nat) (nsid : Nat) (value : Nat) (s : State),
    ∃ c : Controller, s.hq.controller cntlid = some c ∧
    s.handingOver = false) ∧
    (∃ (cntlid : Nat) (cid : Nat) (nsid : Nat) (value : Nat) (s : State),
    ∃ c : Controller, s.hq.controller cntlid = some c ∧
    s.handingOver = false) :=
  ⟨⟨0, 0, 0, 300000, [], { ws with hq := { ws.hq with controllers := [aController] } },
    _, rfl,
    by first | decide | rfl,
    by first | decide | rfl,
    by first | decide | rfl⟩,
   ⟨0, 0, 0, 0, [], { wm with hq := { wm.hq with controllers := [aController] } },
    _, rfl,
    _, rfl,
    by first | decide | rfl⟩,
   ⟨0, 0, 0, 3, [], { wm with hq := { wm.hq with ps3 := none, controllers := [aController] } },
    _, rfl,
    _, rfl,
    by first | decide | rfl,
    by first | decide | rfl,
    by first | decide | rfl⟩,
   ⟨0, 0, 0, 0, { ws with hq := { ws.hq with controllers := [aController] } },
    _, rfl,
    by first | decide | rfl⟩,
   ⟨0, 0, 0, 0, { ws with hq := { ws.hq with controllers := [aController] } },
    _, rfl,
    by first | decide | rfl⟩⟩

theorem meets_AdminCommands_3 :
    (∃ (cntlid : Nat) (cid : Nat) (s : State),
    ∃ c : Controller, s.hq.controller cntlid = some c ∧
    c.aers.length < 8) ∧
    (∃ (cntlid : Nat) (cid : Nat) (s : State),
    ∃ c : Controller, s.hq.controller cntlid = some c ∧
    8 ≤ c.aers.length ∧
    s.handingOver = false) ∧
    (∃ (cntlid : Nat) (cid : Nat) (slot : Nat) (s : State),
    ∃ c : Controller, s.hq.controller cntlid = some c ∧
    ∃ m : Nat, s.hq.managed cntlid = some m ∧
    slot ≤ 7 ∧
    ∃ u : State, placeNvmeImage (adminFetched cntlid s) = .inl u) ∧
    (∃ (cntlid : Nat) (cid : Nat) (offset : Nat) (data : Bytes) (s : State),
    ∃ c : Controller, s.hq.controller cntlid = some c ∧
    ∃ m : Nat, s.hq.managed cntlid = some m ∧
    s.handingOver = false) ∧
    (∃ (cntlid : Nat) (cid : Nat) (s : State),
    ∃ c : Controller, s.hq.controller cntlid = some c ∧
    s.handingOver = false) :=
  ⟨⟨0, 0, { ws with hq := { ws.hq with controllers := [aController] } },
    _, rfl,
    by first | decide | rfl⟩,
   ⟨0, 0, { ws with hq := { ws.hq with controllers := [{ aController with aers := [0, 1, 2, 3, 4, 5, 6, 7] }] } },
    _, rfl,
    by first | decide | rfl,
    by first | decide | rfl⟩,
   ⟨0, 0, 0, { wm with hq := { wm.hq with controllers := [aController] } },
    _, rfl,
    _, rfl,
    by first | decide | rfl,
    _, rfl⟩,
   ⟨0, 0, 0, [], { wm with hq := { wm.hq with controllers := [aController] } },
    _, rfl,
    _, rfl,
    by first | decide | rfl⟩,
   ⟨0, 0, { ws with hq := { ws.hq with controllers := [aController] } },
    _, rfl,
    by first | decide | rfl⟩⟩

theorem meets_AdminCommands_4 :
    ∃ (cntlid : Nat) (cid : Nat) (s : State),
    ∃ c : Controller, s.hq.controller cntlid = some c ∧
    s.handingOver = true :=
  ⟨0, 0, { ws with trust := { ws.trust with activation := some ⟨.starting 1, 1073741824, [], .nvme 0 0, 1, 0⟩ }, hq := { ws.hq with controllers := [aController] } },
    _, rfl,
    by first | decide | rfl⟩

theorem meets_FabricsAndPowerStateCommands_1 :
    (∃ (port : Nat) (cntlid : Nat) (cid : Nat) (size : Nat) (kato : Nat) (hostNqn : Bytes) (subNqn : Bytes) (hostId : Bytes) (s : State),
    s.pwr.stage = .service ∧
    (portsOf s.hq.modes).contains port = true ∧
    subNqn ≠ [] ∧
    ∃ n : Nat, (s.hq.subsystems.find? (fun x => x.nqn == subNqn)).map (·.number) = some n ∧
    s.hq.hosts.any (fun h => h.nqn == hostNqn && (n == 0xFFFF || h.subsystem == n)) = true ∧
    s.controllerNames.length < 65536 ∧
    size ≤ 31 ∧
    1000 ≤ kato ∧
    kato ≤ 300000 ∧
    (s.hq.numbersOf n).length < s.cntlidRange.2) ∧
    (∃ (port : Nat) (cntlid : Nat) (qid : Nat) (cid : Nat) (size : Nat) (kato : Nat) (hostNqn : Bytes) (subNqn : Bytes) (hostId : Bytes) (s : State),
    s.pwr.stage = .service ∧
    (portsOf s.hq.modes).contains port = true ∧
    qid ≠ 0 ∧
    ∃ c : Controller, s.hq.controller cntlid = some c ∧
    c.ready = true ∧
    qid ≤ c.granted ∧
    size ≤ 1023 ∧
    s.hq.queue cntlid qid = none ∧
    c.nqn = hostNqn ∧
    s.hq.ioQueues < 1048576) ∧
    (∃ (cntlid : Nat) (cid : Nat) (off : Nat) (s : State),
    ∃ c : Controller, s.hq.controller cntlid = some c ∧
    ∃ v : Nat, s.property c off = some v ∧
    s.handingOver = false) ∧
    (∃ (cntlid : Nat) (cid : Nat) (value : Nat) (s : State),
    ∃ c : Controller, s.hq.controller cntlid = some c ∧
    c.enabled = false ∧
    s.handingOver = false) ∧
    (∃ (cntlid : Nat) (cid : Nat) (value : Nat) (s : State),
    ∃ c : Controller, s.hq.controller cntlid = some c ∧
    c.enabled = true ∧
    bitAt 0 value = false) :=
  ⟨⟨0, 0, 0, 0, 2000, [], [1], [], { ws with pwr := { ws.pwr with stage := .service }, hq := { ws.hq with subsystems := [⟨0, [1]⟩], hosts := [⟨[], 0, 0, 4⟩] } },
    by first | decide | rfl,
    by first | decide | rfl,
    by first | decide | rfl,
    _, rfl,
    by first | decide | rfl,
    by first | decide | rfl,
    by first | decide | rfl,
    by first | decide | rfl,
    by first | decide | rfl,
    by first | decide | rfl⟩,
   ⟨0, 0, 1, 0, 0, 0, [], [], [], { ws with pwr := { ws.pwr with stage := .service }, hq := { ws.hq with controllers := [{ aController with ready := true }] } },
    by first | decide | rfl,
    by first | decide | rfl,
    by first | decide | rfl,
    _, rfl,
    by first | decide | rfl,
    by first | decide | rfl,
    by first | decide | rfl,
    by first | decide | rfl,
    by first | decide | rfl,
    by first | decide | rfl⟩,
   ⟨0, 0, 0, { ws with hq := { ws.hq with controllers := [aController] } },
    _, rfl,
    _, rfl,
    by first | decide | rfl⟩,
   ⟨0, 0, 0, { ws with hq := { ws.hq with controllers := [{ aController with enabled := false }] } },
    _, rfl,
    by first | decide | rfl,
    by first | decide | rfl⟩,
   ⟨0, 0, 0, { ws with hq := { ws.hq with controllers := [{ aController with enabled := true }] } },
    _, rfl,
    by first | decide | rfl,
    by first | decide | rfl⟩⟩

theorem meets_FabricsAndPowerStateCommands_2 :
    (∃ (cntlid : Nat) (cid : Nat) (s : State),
    ∃ c : Controller, s.hq.controller cntlid = some c ∧
    s.handingOver = false) ∧
    (∃ (cntlid : Nat) (cid : Nat) (tag : Nat) (s : State),
    ∃ c : Controller, s.hq.controller cntlid = some c ∧
    ∃ m : Nat, s.hq.managed cntlid = some m ∧
    ∃ r : Reply, s.cpi.replyOf (s.cpi.keeperOf (.nvme cntlid) tag) tag = some r ∧
    r.held = false ∧
    s.handingOver = false) ∧
    (∃ (cntlid : Nat) (cid : Nat) (data : Bytes) (peerInflight : Nat) (s : State),
    cntlid ≠ 65536 ∧
    ∃ c : Controller, s.hq.controller cntlid = some c ∧
    ∃ m : Nat, s.hq.managed cntlid = some m) ∧
    (∃ (cid : Nat) (data : Bytes) (peerInflight : Nat) (s : State),
    s.drops (.forward (fieldAt data 0 2) (fieldAt data 0x0A 1) (packetParts data).params (data.drop (packetParts data).base)) = false ∧
    getKey cid s.corr.answered = none) ∧
    (∃ (cntlid : Nat) (cid : Nat) (tag : Nat) (s : State),
    ∃ c : Controller, s.hq.controller cntlid = some c ∧
    ∃ m : Nat, s.hq.managed cntlid = some m ∧
    ∃ r : Reply, s.cpi.replyOf (s.cpi.keeperOf (.nvme cntlid) tag) tag = some r ∧
    r.held = false ∧
    s.handingOver = false) :=
  ⟨⟨0, 0, { ws with hq := { ws.hq with controllers := [aController] } },
    _, rfl,
    by first | decide | rfl⟩,
   ⟨0, 0, 0, { wm with hq := { wm.hq with controllers := [aController] }, cpi := { wm.cpi with replies := [{ aReply with held := false, binding := .nvme 0 }] } },
    _, rfl,
    _, rfl,
    _, rfl,
    by first | decide | rfl,
    by first | decide | rfl⟩,
   ⟨0, 0, [], 0, { wm with hq := { wm.hq with controllers := [aController] } },
    by first | decide | rfl,
    _, rfl,
    _, rfl⟩,
   ⟨0, [], 0, ws,
    by first | decide | rfl,
    by first | decide | rfl⟩,
   ⟨0, 0, 0, { wm with hq := { wm.hq with controllers := [aController] }, cpi := { wm.cpi with replies := [{ aReply with held := false, binding := .nvme 0 }] } },
    _, rfl,
    _, rfl,
    _, rfl,
    by first | decide | rfl,
    by first | decide | rfl⟩⟩

theorem meets_FabricsAndPowerStateCommands_3 :
    (∃ (cntlid : Nat) (cid : Nat) (tag : Nat) (offset : Nat) (length : Nat) (s : State),
    ∃ c : Controller, s.hq.controller cntlid = some c ∧
    ∃ m : Nat, s.hq.managed cntlid = some m ∧
    ∃ r : Reply, s.cpi.replyOf (s.cpi.keeperOf (.nvme cntlid) tag) tag = some r ∧
    r.held = false ∧
    length ≤ 4194304 ∧
    min r.size (offset + length) ≤ (s.replyText r).length ∧
    s.handingOver = false) ∧
    (∃ (n : Nat) (cntlid : Nat) (cid : Nat) (at_ : Nat) (rest : List (Nat × (Nat × (Nat × Nat)))) (s : State),
    s.hq.psNext = (n, (cntlid, (cid, at_))) :: rest ∧
    at_ < s.tt.now ∧
    s.hq.ps ≠ 3 ∧
    s.hq.ps ≠ n) ∧
    (∃ (n : Nat) (cntlid : Nat) (cid : Nat) (at_ : Nat) (rest : List (Nat × (Nat × (Nat × Nat)))) (s : State),
    s.hq.psNext = (n, (cntlid, (cid, at_))) :: rest ∧
    at_ < s.tt.now ∧
    s.hq.ps ≠ 3 ∧
    s.hq.ps ≠ n ∧
    s.handingOver = false) ∧
    (∃ (s : State),
    ∃ start : Nat, ∃ cntlid : Nat, ∃ cid : Nat, ∃ e : Nat, s.hq.ps3 = some (start, (cntlid, (cid, some e))) ∧
    s.quiet = true ∧
    e ≤ s.ftl.durable ∧
    s.handingOver = false) ∧
    (∃ (s : State),
    ∃ start : Nat, ∃ cntlid : Nat, ∃ cid : Nat, ∃ e : Option Nat, s.hq.ps3 = some (start, (cntlid, (cid, e))) ∧
    start + msBells 100 ≤ s.tt.now ∧
    s.handingOver = false) :=
  ⟨⟨0, 0, 0, 0, 4194304, { wm with hq := { wm.hq with controllers := [aController] }, cpi := { wm.cpi with replies := [{ aReply with held := false, binding := .nvme 0 }] } },
    _, rfl,
    _, rfl,
    _, rfl,
    by first | decide | rfl,
    by first | decide | rfl,
    by first | decide | rfl,
    by first | decide | rfl⟩,
   ⟨1, 0, 0, 0, [], { ws with hq := { ws.hq with psNext := [(1, (0, (0, 0)))] } },
    by first | decide | rfl,
    by first | decide | rfl,
    by first | decide | rfl,
    by first | decide | rfl⟩,
   ⟨1, 0, 0, 0, [], { ws with hq := { ws.hq with psNext := [(1, (0, (0, 0)))] } },
    by first | decide | rfl,
    by first | decide | rfl,
    by first | decide | rfl,
    by first | decide | rfl,
    by first | decide | rfl⟩,
   ⟨{ ws with hq := { ws.hq with ps3 := some (0, (0, (0, some 0))) } },
    _, _, _, _, rfl,
    by first | decide | rfl,
    by first | decide | rfl,
    by first | decide | rfl⟩,
   ⟨{ ws with hq := { ws.hq with ps3 := some (0, (0, (0, none))) } },
    _, _, _, _, rfl,
    by first | decide | rfl,
    by first | decide | rfl⟩⟩

theorem meets_FabricsAndPowerStateCommands_4 :
    (∃ (s : State),
    s.hq.ps = 3 ∧
    ∃ start : Nat, s.hq.ps3Exit = some start ∧
    start + msBells 2 ≤ s.tt.now) ∧
    (∃ (s : State),
    s.hq.ps = 3 ∧
    s.hq.ps3Exit = none) ∧
    (∃ (group : Nat) (m : Nat × (Nat × Nat)) (s : State),
    s.hq.moving.find? (fun m => m.1 == group) = some m ∧
    m.2.2 ≤ s.epoch ∧
    s.groupBusy group = false ∧
    s.ownsGroup group = true ∧
    s.corr.unanswered.all (fun x => match x.body with | .anaMove g .. => g != group | _ => true) = true ∧
    s.paired = true) :=
  ⟨⟨{ ws with hq := { ws.hq with ps := 3, ps3Exit := some 0 } },
    by first | decide | rfl,
    _, rfl,
    by first | decide | rfl⟩,
   ⟨{ ws with hq := { ws.hq with ps := 3, ps3Exit := none } },
    by first | decide | rfl,
    by first | decide | rfl⟩,
   ⟨5, (5, (1, 0)), { wp with hq := { wp.hq with moving := [(5, (1, 0))], owners := [(5, 0)] } },
    by first | decide | rfl,
    by first | decide | rfl,
    by first | decide | rfl,
    by first | decide | rfl,
    by first | decide | rfl,
    by first | decide | rfl⟩⟩

theorem meets_MirrorCommands_1 :
    (∃ (number : Nat) (volume : Nat) (count : Nat) (flags : Nat) (seq : Nat) (lba : Nat) (blocks : Bytes) (pi : Bytes) (s : State),
    s.drops (.mirrorData volume count flags seq lba blocks pi) = false ∧
    getKey number s.corr.answered = none) ∧
    (∃ (number : Nat) (held : Nat) (x : Ctx) (s : State),
    s.drops (.mirrorAck number held) = false ∧
    ∃ m : Sent, s.corr.awaiting number = some m ∧
    s.hq.ctxs.find? (fun x => x.mirrors.contains number) = some x) ∧
    (∃ (number : Nat) (mark : Machine.CommitMark) (s : State),
    s.drops (.commit mark) = false ∧
    getKey number s.corr.answered = none ∧
    (s.ftl.ofNsid mark.volume).any (fun r => s.ownsRoot r) = false ∧
    s.syncWaits mark.volume mark.seq = false ∧
    ∃ u : State, u = reply number (.commitAck number) (holdMark mark (tallyAdd 0x0D 1 1 s)) ∧
    u.stg.versions.any (fun v => v.vol == mark.volume && v.seq == mark.seq && !v.staged) = false) ∧
    (∃ (number : Nat) (mark : CommitMark) (s : State),
    s.drops (.commitAck number) = false ∧
    ∃ m : Sent, s.corr.awaiting number = some m ∧
    m.body = .commit mark ∧
    s.syncWaits mark.volume mark.seq = false ∧
    ∃ u : State, u = wakeReads (holdMark mark (settleNumber number (tallyAdd 0x0D 1 1 s))) ∧
    u.hq.ctxs.find? (fun x => x.commits.contains number) = none) ∧
    (∃ (l : List Machine.RelEntry) (s : State),
    s.drops (.release l) = false) :=
  ⟨⟨0, 0, 0, 0, 0, 0, [], [], ws,
    by first | decide | rfl,
    by first | decide | rfl⟩,
   ⟨7, 0, { aCtx with mirrors := [7] }, { ws with hq := { ws.hq with ctxs := [{ aCtx with mirrors := [7] }] }, corr := { ws.corr with unanswered := [{ aSent with number := 7 }] } },
    by first | decide | rfl,
    _, rfl,
    by first | decide | rfl⟩,
   ⟨0, aCommitMark, ws,
    by first | decide | rfl,
    by first | decide | rfl,
    by first | decide | rfl,
    by first | decide | rfl,
    _, rfl,
    by first | decide | rfl⟩,
   ⟨0, aCommitMark, { ws with corr := { ws.corr with unanswered := [{ aSent with body := .commit aCommitMark }] } },
    by first | decide | rfl,
    _, rfl,
    by first | decide | rfl,
    by first | decide | rfl,
    _, rfl,
    by first | decide | rfl⟩,
   ⟨[], ws,
    by first | decide | rfl⟩⟩

theorem meets_MirrorCommands_2 :
    (∃ (blocks : Nat) (term : Nat) (through : Bool) (s : State),
    s.drops (.credit blocks term) = false) ∧
    (∃ (number : Nat) (marks : List Machine.CommitMark) (s : State),
    s.drops (.markList marks) = false ∧
    getKey number s.corr.answered = none ∧
    s.pwr.stage ≠ .service ∧
    s.pwr.stage ≠ .joining ∧
    127 ≤ marks.length) ∧
    (∃ (number : Nat) (marks : List Machine.CommitMark) (s : State),
    s.drops (.markList marks) = false ∧
    getKey number s.corr.answered = none ∧
    s.pwr.stage ≠ .service ∧
    s.pwr.stage ≠ .joining ∧
    marks.length < 127) ∧
    (∃ (number : Nat) (marks : List Machine.CommitMark) (s : State),
    s.drops (.markList marks) = false ∧
    getKey number s.corr.answered = none ∧
    s.pwr.stage = .service ∧
    ∃ u : State, u = marks.foldl (fun t m => holdMark m t) (tallyAdd 0x0D 1 1 s)) ∧
    (∃ (number : Nat) (volume : Nat) (seq : Nat) (s : State),
    s.drops (.withdraw volume seq) = false ∧
    getKey number s.corr.answered = none ∧
    s.stg.marks.any (fun m => m.volume == volume && m.seq == seq) = true ∧
    s.stg.versions.any (fun v => v.vol == volume && v.seq == seq && !v.staged) = false) :=
  ⟨⟨0, 0, false, ws,
    by first | decide | rfl⟩,
   ⟨0, List.replicate 127 aCommitMark, { ws with pwr := { ws.pwr with stage := .starting } },
    by first | decide | rfl,
    by first | decide | rfl,
    by first | decide | rfl,
    by first | decide | rfl,
    by first | decide | rfl⟩,
   ⟨0, [], { ws with pwr := { ws.pwr with stage := .starting } },
    by first | decide | rfl,
    by first | decide | rfl,
    by first | decide | rfl,
    by first | decide | rfl,
    by first | decide | rfl⟩,
   ⟨0, [], { ws with pwr := { ws.pwr with stage := .service } },
    by first | decide | rfl,
    by first | decide | rfl,
    by first | decide | rfl,
    _, rfl⟩,
   ⟨0, 0, 0, { ws with stg := { ws.stg with marks := [aCommitMark] } },
    by first | decide | rfl,
    by first | decide | rfl,
    by first | decide | rfl,
    by first | decide | rfl⟩⟩

theorem meets_MirrorCommands_3 :
    (∃ (number : Nat) (volume : Nat) (seq : Nat) (s : State),
    s.drops (.withdraw volume seq) = false ∧
    getKey number s.corr.answered = none ∧
    s.stg.marks.any (fun m => m.volume == volume && m.seq == seq) = false) ∧
    (∃ (number : Nat) (s : State),
    ∃ m : Sent, s.corr.awaiting number = some m ∧
    m.pending = false ∧
    m.at_ + 4 ≤ s.tt.now ∧
    s.corr.fault = false ∧
    3 ≤ m.resends) ∧
    (∃ (number : Nat) (s : State),
    ∃ m : Sent, s.corr.awaiting number = some m ∧
    m.pending = false ∧
    m.at_ + 4 ≤ s.tt.now ∧
    s.corr.fault = false ∧
    m.resends < 3) :=
  ⟨⟨0, 0, 0, ws,
    by first | decide | rfl,
    by first | decide | rfl,
    by first | decide | rfl⟩,
   ⟨0, { ws with corr := { ws.corr with fault := false, unanswered := [{ aSent with pending := false, resends := 3 }] } },
    _, rfl,
    by first | decide | rfl,
    by first | decide | rfl,
    by first | decide | rfl,
    by first | decide | rfl⟩,
   ⟨0, { ws with corr := { ws.corr with fault := false, unanswered := [{ aSent with pending := false }] } },
    _, rfl,
    by first | decide | rfl,
    by first | decide | rfl,
    by first | decide | rfl,
    by first | decide | rfl⟩⟩

theorem meets_DestageAndDedupCommands_1 :
    (∃ (vol : Nat) (grain : Nat) (s : State),
    ∃ e : Entry, s.stg.entry vol grain = some e ∧
    e.lastWrite + 64 ≤ s.tt.now) ∧
    (∃ (vol : Nat) (grain : Nat) (s : State),
    ∃ r : Root, s.ftl.ofNsid vol = some r ∧
    s.eligible vol grain = true ∧
    ∃ vs : List (Option Ver), vs = (List.range 4).map (s.takes vol grain) ∧
    ∃ taken : List Nat, taken = vs.map (fun v => (v.map (·.seq)).getD 0) ∧
    ∃ d : Destage, d = ⟨s.jobs.next, vol, grain, taken, taken.foldl max 0, vs.map (fun v => (v.filter (fun x => !x.lost)).map Ver.bytes),
      vs.map (fun v => (v.map (fun x => fitBytes 64 x.pi)).getD []), r.format != 0 && vs.any (fun v => v.any (·.hasPi)),
      r.format != 0, r.domain, r.layout, 0, s.through, .fingerprint, none, [], 0, 0, 1, false, 0, 0, [], [], 0⟩ ∧
    vs.all (fun v => v.any (fun x => x.noBuffer && x.dealloc)) = true) ∧
    (∃ (job : Nat) (d : Destage) (s : State),
    s.jobs.destages.find? (fun d => d.job == job && d.stage == .fingerprint) = some d ∧
    s.canPayAll 2 [(.dig, 16384 + (if d.withMeta then 256 else 0))] = true ∧
    d.isZero = true ∧
    ∃ u : State, u = payAll 2 [(.dig, 16384 + (if d.withMeta then 256 else 0))] s) ∧
    (∃ (s : State),
    ∃ r : Resolution, ∃ q : List Resolution, s.ddp.queue = r :: q) ∧
    (∃ (number : Nat) (domain : Nat) (verify : Bool) (through : Bool) (grain : Nat) (fp : Bytes) (x : Bytes) (r : Resolution) (s : State),
    s.drops (.resolve domain verify through grain fp) = false ∧
    getKey number s.corr.answered = none ∧
    ∃ u : State, u = wake true (tallyAdd 0x0D 1 1 s) ∧
    (u.ddp.queue ++ u.ddp.blocked ++ u.ddp.indexing.map (·.1) ++ u.ddp.comparing.map (·.2.1) ++
      u.ddp.inflight.flatMap (·.waiters)).find? (fun r => r.peer && r.number == number) = some r) :=
  ⟨⟨0, 0, { ws with stg := { ws.stg with entries := [aEntry] } },
    _, rfl,
    by first | decide | rfl⟩,
   ⟨1, 0, { wr with stg := { wr.stg with entries := [{ aEntry with vol := 1 }], versions := (List.range 4).map (fun q => { aVer with vol := 1, quarter := q, staged := true, dealloc := true, noBuffer := true }) }, ftl := { wr.ftl with roots := [{ aRoot with id := 1, nsid := 1 }] } },
    _, rfl,
    by first | decide | rfl,
    _, rfl,
    _, rfl,
    _, rfl,
    by first | decide | rfl⟩,
   ⟨0, { aDestage with stage := .fingerprint }, { wb with jobs := { wb.jobs with destages := [{ aDestage with stage := .fingerprint }] } },
    by first | decide | rfl,
    by first | decide | rfl,
    by first | decide | rfl,
    _, rfl⟩,
   ⟨{ ws with ddp := { ws.ddp with queue := [aResolution] } },
    _, _, rfl⟩,
   ⟨0, 0, false, false, 0, [], [], { aResolution with peer := true }, { ws with ddp := { ws.ddp with queue := [{ aResolution with peer := true }] } },
    by first | decide | rfl,
    by first | decide | rfl,
    _, rfl,
    by first | decide | rfl⟩⟩

theorem meets_DestageAndDedupCommands_2 :
    (∃ (number : Nat) (domain : Nat) (verify : Bool) (through : Bool) (grain : Nat) (fp : Bytes) (x : Bytes) (s : State),
    s.drops (.resolve domain verify through grain fp) = false ∧
    getKey number s.corr.answered = none ∧
    ∃ u : State, u = wake true (tallyAdd 0x0D 1 1 s) ∧
    (u.ddp.queue ++ u.ddp.blocked ++ u.ddp.indexing.map (·.1) ++ u.ddp.comparing.map (·.2.1) ++
      u.ddp.inflight.flatMap (·.waiters)).find? (fun r => r.peer && r.number == number) = none) ∧
    (∃ (grain : Nat) (cid : Nat) (outcome : Nat) (s : State),
    s.drops (.resolveAnswer grain cid outcome) = false ∧
    ∃ m : Sent, s.corr.resolveOf grain = some m ∧
    outcome ≠ 3) ∧
    (∃ (grain : Nat) (s : State),
    s.drops (.resolveAnswer grain 0 3) = false ∧
    ∃ m : Sent, s.corr.resolveOf grain = some m) ∧
    (∃ (grain : Nat) (s : State),
    ∃ m : Sent, s.corr.resolveOf grain = some m ∧
    m.pending = true ∧
    m.at_ + 4 ≤ s.tt.now) ∧
    (∃ (r : Resolution) (s : State),
    s.ddp.blocked.find? (fun r => match s.ddp.entry r.domain r.fp with
      | some e => e.pending || decide (e.waiters.length < 64)
      | none => decide ((s.ddp.inflight.filter (fun e => fpSet e.fp == fpSet r.fp)).length < 8)) = some r) :=
  ⟨⟨0, 0, false, false, 0, [], [], ws,
    by first | decide | rfl,
    by first | decide | rfl,
    _, rfl,
    by first | decide | rfl⟩,
   ⟨0, 0, 0, { ws with corr := { ws.corr with unanswered := [{ aSent with body := .resolve 0 false false 0 [] }] } },
    by first | decide | rfl,
    _, rfl,
    by first | decide | rfl⟩,
   ⟨0, { ws with corr := { ws.corr with unanswered := [{ aSent with body := .resolve 0 false false 0 [] }] } },
    by first | decide | rfl,
    _, rfl⟩,
   ⟨0, { ws with corr := { ws.corr with unanswered := [{ aSent with body := .resolve 0 false false 0 [], pending := true }] } },
    _, rfl,
    by first | decide | rfl,
    by first | decide | rfl⟩,
   ⟨aResolution, { ws with ddp := { ws.ddp with blocked := [aResolution] } },
    by first | decide | rfl⟩⟩

theorem meets_DestageAndDedupCommands_3 :
    (∃ (grain : Nat) (peer : Bool) (s : State),
    ∃ r : Resolution, ∃ n : Nat, s.ddp.indexing.find? (fun p => p.1.grain == grain && p.1.peer == peer) = some (r, n)) ∧
    (∃ (grain : Nat) (peer : Bool) (s : State),
    ∃ r : Resolution, ∃ n : Nat, s.ddp.indexing.find? (fun p => p.1.grain == grain && p.1.peer == peer) = some (r, n) ∧
    7 ≤ n) ∧
    (∃ (grain : Nat) (peer : Bool) (s : State),
    ∃ r : Resolution, ∃ n : Nat, s.ddp.indexing.find? (fun p => p.1.grain == grain && p.1.peer == peer) = some (r, n) ∧
    n < 7 ∧
    ∃ mpa : Nat, mpa = (getKey (s.ddp.bucket r.fp) s.ddp.pages).getD 0) ∧
    (∃ (s : State),
    s.ddp.sweep = none ∧
    s.ddp.n ≠ 0 ∧
    2 ^ s.ddp.deltaBits ≤ 2 * s.ddp.delta.length) ∧
    (∃ (s : State),
    ∃ q : Nat, s.ddp.grownQ = some q ∧
    s.period = 0 ∧
    s.ddp.fstate = 3 ∧
    s.rebuildHalves.length * 2 ^ s.ddp.n ≤ s.ddp.rebuilt) :=
  ⟨⟨0, false, { ws with ddp := { ws.ddp with indexing := [(aResolution, 0)] } },
    _, _, rfl⟩,
   ⟨0, false, { ws with ddp := { ws.ddp with indexing := [(aResolution, 7)] } },
    _, _, rfl,
    by first | decide | rfl⟩,
   ⟨0, false, { ws with ddp := { ws.ddp with indexing := [(aResolution, 0)] } },
    _, _, rfl,
    by first | decide | rfl,
    _, rfl⟩,
   ⟨{ ws with ddp := { ws.ddp with sweep := none, n := 1, deltaBits := 1, delta := [⟨0, ⟨0, [], 0, false⟩, false⟩] } },
    by first | decide | rfl,
    by first | decide | rfl,
    by first | decide | rfl⟩,
   ⟨{ ws with ddp := { ws.ddp with fstate := 3, grownQ := some 25, rebuilt := 2 } },
    _, rfl,
    by first | decide | rfl,
    by first | decide | rfl,
    by first | decide | rfl⟩⟩

theorem meets_DestageAndDedupCommands_4 :
    (∃ (number : Nat) (l : List (Nat × Int)) (s : State),
    s.drops (.refDelta l) = false ∧
    getKey number s.corr.answered = none) ∧
    (∃ (number : Nat) (cid : Nat) (psa : Nat) (gen : Nat) (hasTail : Bool) (s : State),
    s.drops (.place cid psa gen hasTail) = false ∧
    getKey number s.corr.answered = none) :=
  ⟨⟨0, [], ws,
    by first | decide | rfl,
    by first | decide | rfl⟩,
   ⟨0, 0, 0, 0, false, ws,
    by first | decide | rfl,
    by first | decide | rfl⟩⟩

theorem meets_SlotEngineCommands_1 :
    (∃ (job : Nat) (lane : Nat) (d : Destage) (s : State),
    s.jobs.destages.find? (fun d => d.job == job && d.stage == .encode) = some d ∧
    s.canPayAll 2 [(.enc, 16384)] = true ∧
    s.laneDelivers (laneOf .enc lane) = true) ∧
    (∃ (job : Nat) (lane : Nat) (d : Destage) (s : State),
    s.jobs.destages.find? (fun d => d.job == job && d.stage == .encode) = some d ∧
    s.canPayAll 2 [(.enc, 16384)] = true ∧
    s.laneDelivers (laneOf .enc lane) = true) ∧
    (∃ (job : Nat) (lane : Nat) (s : State),
    ∃ r : SlotRead, s.jobs.read job = some r ∧
    r.stage = .decode ∧
    s.laneDelivers (laneOf .dec lane) = true ∧
    r.failLane = none ∧
    s.canPayAll (streamOf r.why) (slotCost r .dec (4096 * r.want.length)) = true ∧
    ∃ o : SkxResult, o = skxDecode (r.plain.take (4096 * psaTier r.psa)) (psaTier r.psa) r.want ∧
    errorKeys o.errors = []) ∧
    (∃ (job : Nat) (lane : Nat) (sound : Bool) (s : State),
    ∃ r : SlotRead, s.jobs.read job = some r ∧
    r.stage = .decrypt ∧
    s.laneDelivers (laneOf .cip lane) = true ∧
    otherIsland .cip r.failLane lane = true ∧
    s.canPayAll (streamOf r.why) (slotCost r .cip (s.slotText r).length) = true ∧
    envelopesOk r.envs = false) ∧
    (∃ (job : Nat) (lane : Nat) (d : Destage) (s : State),
    s.jobs.destages.find? (fun d => d.job == job && d.stage == .encrypt) = some d ∧
    ∃ l : Locker, l = s.ciph.locker d.domain ∧
    l.granted ≠ 0 ∧
    s.laneDelivers (laneOf .cip lane) = true ∧
    s.canPayAll 2 [(.cip, slotBytes d.tier d.withMeta)] = true ∧
    ∃ u : State, takeNonce (lockerHandle d.domain l) l.gen ((payAll 2 [(.cip, slotBytes d.tier d.withMeta)] s).writerLane lane) 1 (payAll 2 [(.cip, slotBytes d.tier d.withMeta)] s) = (u, none)) :=
  ⟨⟨0, 0, { aDestage with stage := .encode }, { wb with jobs := { wb.jobs with destages := [{ aDestage with stage := .encode }] } },
    by first | decide | rfl,
    by first | decide | rfl,
    by first | decide | rfl⟩,
   ⟨0, 0, { aDestage with stage := .encode }, { wb with jobs := { wb.jobs with destages := [{ aDestage with stage := .encode }] } },
    by first | decide | rfl,
    by first | decide | rfl,
    by first | decide | rfl⟩,
   ⟨0, 0, { wb with jobs := { wb.jobs with reads := [{ aSlotRead with stage := .decode, failLane := none, psa := 786432 }] } },
    _, rfl,
    by first | decide | rfl,
    by first | decide | rfl,
    by first | decide | rfl,
    by first | decide | rfl,
    _, rfl,
    by first | decide | rfl⟩,
   ⟨0, 0, false, { ws with jobs := { ws.jobs with reads := [{ aSlotRead with stage := .decrypt }] } },
    _, rfl,
    by first | decide | rfl,
    by first | decide | rfl,
    by first | decide | rfl,
    by first | decide | rfl,
    by first | decide | rfl⟩,
   ⟨0, 0, { aDestage with stage := .encrypt }, { wb with jobs := { wb.jobs with destages := [{ aDestage with stage := .encrypt }] }, ciph := { wb.ciph with lockers := [(0, { aLocker with state := .isOpen, gen := 1, granted := 1 })] } },
    by first | decide | rfl,
    _, rfl,
    by first | decide | rfl,
    by first | decide | rfl,
    by first | decide | rfl,
    _, rfl⟩⟩

theorem meets_SlotEngineCommands_2 :
    (∃ (job : Nat) (lane : Nat) (d : Destage) (flags : Nat) (s : State),
    s.jobs.destages.find? (fun d => d.job == job && d.stage == .encrypt) = some d ∧
    ∃ l : Locker, l = s.ciph.locker d.domain ∧
    l.granted ≠ 0 ∧
    s.laneDelivers (laneOf .cip lane) = true ∧
    s.canPayAll 2 [(.cip, slotBytes d.tier d.withMeta)] = true ∧
    ∃ u : State, ∃ nonce : Bytes, takeNonce (lockerHandle d.domain l) l.gen ((payAll 2 [(.cip, slotBytes d.tier d.withMeta)] s).writerLane lane) 1 (payAll 2 [(.cip, slotBytes d.tier d.withMeta)] s) = (u, some nonce) ∧
    d.withMeta = false ∧
    ∃ env0 : Bytes, env0 = envelope 1 0 d.tier (flagBit (d.tier == 4) + 2 * flagBit d.withMeta) d.domain l.gen d.cid (payAll 2 [(.cip, slotBytes d.tier d.withMeta)] s).epoch nonce [] ∧
    ∃ ct : Bytes, ∃ tag : Bytes, gcmSeal ((payAll 2 [(.cip, slotBytes d.tier d.withMeta)] s).dataKey d.domain l.gen) nonce (slotAad env0) d.slot = (ct, tag) ∧
    ∃ env : Bytes, env = envelope 1 0 d.tier (flagBit (d.tier == 4) + 2 * flagBit d.withMeta) d.domain l.gen d.cid (payAll 2 [(.cip, slotBytes d.tier d.withMeta)] s).epoch nonce tag) ∧
    (∃ (locker : Nat) (s : State),
    (s.ciph.locker locker).state ≠ .unbound ∧
    (s.ciph.locker locker).usage < 2 ^ 48) :=
  ⟨⟨0, 0, { aDestage with stage := .encrypt }, 0, { wb with jobs := { wb.jobs with destages := [{ aDestage with stage := .encrypt }] }, ciph := { wb.ciph with lockers := [(0, { aLocker with state := .isOpen, gen := 1, granted := 1 })], counters := [⟨lockerHandle 0 { aLocker with state := .isOpen, gen := 1, granted := 1 }, 1, 0, 0, 1, none⟩] } },
    by first | decide | rfl,
    _, rfl,
    by first | decide | rfl,
    by first | decide | rfl,
    by first | decide | rfl,
    _, _, rfl,
    by first | decide | rfl,
    _, rfl,
    _, _, rfl,
    _, rfl⟩,
   ⟨0, { ws with ciph := { ws.ciph with lockers := [(0, { aLocker with state := .isOpen })] } },
    by first | decide | rfl,
    by first | decide | rfl⟩⟩

theorem meets_HallPassAndDigestCommands_1 :
    (∃ (number : Nat) (start : Option CtxStart) (parts : List PassPart) (stored : Option Bytes) (s : State),
    ∃ x : CipherCtx, s.ciph.passCtx number start = some x ∧
    ∃ key : Bytes, s.keyFor x.handle ((start.map (fun c => (c.gen, c.domain))).getD (0, 0)).1 ((start.map (fun c => (c.gen, c.domain))).getD (0, 0)).2 = .inr key ∧
    (tallyAdd 0x08 4 1 s).ciph.turn (parts.foldl (CipherCtx.absorb key) x) = none ∧
    x.stream = false) ∧
    (∃ (number : Nat) (start : Option CtxStart) (parts : List PassPart) (ended : Bool) (stored : Option Bytes) (s : State),
    ∃ x : CipherCtx, s.ciph.passCtx number start = some x ∧
    ∃ st : Status, ∃ detail : Bytes, s.keyFor x.handle ((start.map (fun c => (c.gen, c.domain))).getD (0, 0)).1 ((start.map (fun c => (c.gen, c.domain))).getD (0, 0)).2 = .inl (st, detail)) ∧
    (∃ (number : Nat) (start : CtxStart) (auth : StreamAuth) (header : Bytes) (seg : Option SegmentIn) (s : State),
    ∃ x : CipherCtx, x = (s.ciph.ctx number).getD (startCtx start number) ∧
    streamHeaderOk header = false) ∧
    (∃ (number : Nat) (start : CtxStart) (auth : StreamAuth) (header : Bytes) (seg : Option SegmentIn) (s : State),
    ∃ x : CipherCtx, x = (s.ciph.ctx number).getD (startCtx start number) ∧
    streamHeaderOk header = true ∧
    fieldAt header 9 1 = 0 ∧
    ∃ key : Bytes, s.keyFor x.handle (fieldAt header 0x0E 2) (fieldAt header 0x0C 2) = .inr key ∧
    ∃ i : SegmentIn, seg = some i) ∧
    (∃ (number : Nat) (s : State),
    ∃ x : CipherCtx, s.ciph.ctx number = some x ∧
    x.stream = true) :=
  ⟨⟨0, none, [], none, { ws with ciph := { ws.ciph with ctxs := [{ aCipherCtx with handle := 3 * 2 ^ 24 }] } },
    _, rfl,
    _, rfl,
    by first | decide | rfl,
    by first | decide | rfl⟩,
   ⟨0, none, [], false, none, { ws with ciph := { ws.ciph with ctxs := [{ aCipherCtx with handle := 2 ^ 24 }] } },
    _, rfl,
    _, _, rfl⟩,
   ⟨0, aCtxStart, .prefect, [], none, ws,
    _, rfl,
    by first | decide | rfl⟩,
   ⟨0, aCtxStart, .prefect, ascii "BRCSAEAD" ++ [1] ++ zeros 55, some aSegmentIn, { ws with ciph := { ws.ciph with ctxs := [{ aCipherCtx with handle := 3 * 2 ^ 24 }] } },
    _, rfl,
    by first | decide | rfl,
    by first | decide | rfl,
    _, rfl,
    _, rfl⟩,
   ⟨0, { ws with ciph := { ws.ciph with ctxs := [{ aCipherCtx with stream := true }] } },
    _, rfl,
    by first | decide | rfl⟩⟩

theorem meets_HallPassAndDigestCommands_2 :
    (∃ (prefect : Bool) (fn : DigestFn) (handle : Nat) (gen : Nat) (custom : Bytes) (n : Nat) (s : State),
    (digestRange prefect).find? (fun n => (s.ciph.digest n).isNone) = some n ∧
    fnKeyed fn = false) ∧
    (∃ (prefect : Bool) (fn : DigestFn) (handle : Nat) (gen : Nat) (custom : Bytes) (s : State),
    (digestRange prefect).find? (fun n => (s.ciph.digest n).isNone) = none) ∧
    (∃ (number : Nat) (data : Bytes) (s : State),
    ∃ d : DigestCtx, s.ciph.digest number = some d ∧
    d.state = 1) ∧
    (∃ (number : Nat) (s : State),
    ∃ d : DigestCtx, s.ciph.digest number = some d ∧
    d.state = 1) ∧
    (∃ (number : Nat) (s : State),
    ∃ d : DigestCtx, s.ciph.digest number = some d ∧
    d.state ≠ 1) :=
  ⟨⟨false, .sha3x256, 0, 0, [], ((digestRange false).head?).getD 0, ws,
    by first | decide | rfl,
    by first | decide | rfl⟩,
   ⟨false, .sha3x256, 0, 0, [], { ws with ciph := { ws.ciph with digests := (digestRange false).map (fun n => { aDigestCtx with number := n }) } },
    by first | decide | rfl⟩,
   ⟨0, [], { ws with ciph := { ws.ciph with digests := [{ aDigestCtx with state := 1 }] } },
    _, rfl,
    by first | decide | rfl⟩,
   ⟨0, { ws with ciph := { ws.ciph with digests := [{ aDigestCtx with state := 1 }] } },
    _, rfl,
    by first | decide | rfl⟩,
   ⟨0, { ws with ciph := { ws.ciph with digests := [aDigestCtx] } },
    _, rfl,
    by first | decide | rfl⟩⟩

theorem meets_HallPassAndDigestCommands_3 :
    (∃ (number : Nat) (length : Nat) (s : State),
    ∃ d : DigestCtx, s.ciph.digest number = some d ∧
    d.state = 2 ∧
    fnKeyed d.fn = false) ∧
    (∃ (number : Nat) (length : Nat) (s : State),
    ∃ d : DigestCtx, s.ciph.digest number = some d ∧
    d.state ≠ 2) ∧
    (∃ (reg : Nat) (data : Bytes) (s : State),
    (reg < 16 ∨ 31 < reg)) ∧
    (∃ (faculty : Bool) (reg : Nat) (data : Bytes) (s : State),
    (faculty = false ∨ 16 ≤ reg) ∧
    reg < 32 ∧
    1 ≤ data.length ∧
    data.length ≤ 4096) :=
  ⟨⟨0, 0, { ws with ciph := { ws.ciph with digests := [{ aDigestCtx with state := 2 }] } },
    _, rfl,
    by first | decide | rfl,
    by first | decide | rfl⟩,
   ⟨0, 0, { ws with ciph := { ws.ciph with digests := [aDigestCtx] } },
    _, rfl,
    by first | decide | rfl⟩,
   ⟨0, [], ws,
    by first | decide | rfl⟩,
   ⟨false, 0, [1], ws,
    by first | decide | rfl,
    by first | decide | rfl,
    by first | decide | rfl,
    by first | decide | rfl⟩⟩

theorem meets_LockerCommands :
    (∃ (b : Binding) (tag : Nat) (peer : PeerAnswer) (gen : Nat) (s : State),
    ∃ p : Packet, s.cpi.packet b tag 0x0702 = some p ∧
    (s.ciph.locker (p.param 0 2)).ahead = (.isOpen, gen) ∧
    gen < 65535 ∧
    (s.paired = true → peer.status = .ok) ∧
    s.awaitsAlone = false) ∧
    (∃ (b : Binding) (tag : Nat) (peer : PeerAnswer) (gen : Nat) (s : State),
    ∃ p : Packet, s.cpi.packet b tag 0x0702 = some p ∧
    (s.ciph.locker (p.param 0 2)).ahead = (.unbound, gen)) ∧
    (∃ (b : Binding) (tag : Nat) (peer : PeerAnswer) (gen : Nat) (s : State),
    ∃ p : Packet, s.cpi.packet b tag 0x0703 = some p ∧
    (s.ciph.locker (p.param 0 2)).ahead = (.isOpen, gen) ∧
    (s.paired = true → peer.status = .ok) ∧
    s.awaitsAlone = false) ∧
    (∃ (b : Binding) (tag : Nat) (peer : PeerAnswer) (gen : Nat) (s : State),
    ∃ p : Packet, s.cpi.packet b tag 0x0704 = some p ∧
    (s.ciph.locker (p.param 0 2)).ahead = (.withdrawn, gen) ∧
    s.ciph.withdrawing.any (fun w => w.1 == p.param 0 2) = false ∧
    (s.paired = true → peer.status = .ok) ∧
    s.awaitsAlone = false) ∧
    (∃ (b : Binding) (tag : Nat) (s : State),
    ∃ p : Packet, s.cpi.packet b tag 0x0705 = some p) :=
  ⟨⟨.cpi, 0, aPeerAnswer, 65534, { ws with ciph := { ws.ciph with lockers := [(0, { aLocker with state := .isOpen, gen := 65534 })] }, cpi := { ws.cpi with accepted := [{ aPacket with opcode := 0x0702 }] } },
    _, rfl,
    by first | decide | rfl,
    by first | decide | rfl,
    by first | decide | exact fun _ _ => nofun | exact nofun,
    by first | decide | rfl⟩,
   ⟨.cpi, 0, aPeerAnswer, 0, { ws with cpi := { ws.cpi with accepted := [{ aPacket with opcode := 0x0702 }] } },
    _, rfl,
    by first | decide | rfl⟩,
   ⟨.cpi, 0, aPeerAnswer, 1, { ws with ciph := { ws.ciph with lockers := [(0, { aLocker with state := .isOpen, gen := 1 })] }, cpi := { ws.cpi with accepted := [{ aPacket with opcode := 0x0703 }] } },
    _, rfl,
    by first | decide | rfl,
    by first | decide | exact fun _ _ => nofun | exact nofun,
    by first | decide | rfl⟩,
   ⟨.cpi, 0, aPeerAnswer, 1, { ws with ciph := { ws.ciph with lockers := [(0, { aLocker with state := .withdrawn, gen := 1 })] }, cpi := { ws.cpi with accepted := [{ aPacket with opcode := 0x0704 }] } },
    _, rfl,
    by first | decide | rfl,
    by first | decide | rfl,
    by first | decide | exact fun _ _ => nofun | exact nofun,
    by first | decide | rfl⟩,
   ⟨.cpi, 0, { ws with cpi := { ws.cpi with accepted := [{ aPacket with opcode := 0x0705 }] } },
    _, rfl⟩⟩

theorem meets_FlashBackgroundCommands_1 :
    (∃ (s : State),
    s.pool.isSome = true ∧
    s.ftl.checkpoint = 0 ∧
    (s.ftl.ckptLast + 4096 ≤ s.epoch ∨ s.ftl.tailHigh = true)) ∧
    (∃ (s : State),
    ∃ mpa : Nat, s.ftl.ckptDir = some mpa ∧
    s.ftl.checkpoint = 1 ∧
    s.metaBusy = false) ∧
    (∃ (s : State),
    s.pool.isSome = true ∧
    s.ec.checkpoint = 0 ∧
    s.ec.ckptLast + 4096 ≤ s.epoch ∧
    ∃ gs : List Group, gs = sortBy (fun a b => a.id ≤ b.id) (s.ec.groups.filter (fun g => g.id / 2 ^ 63 == s.sys.slot)) ∧
    ∃ u : State, u = journal (.sjCheckpoint 1 0 0) { s with ec := { s.ec with checkpoint := 2, ckptLast := s.epoch } } ∧
    ∃ w : State, ∃ mpa : Nat, writeGroups gs u = (w, mpa)) ∧
    (∃ (bay : Nat) (die : Nat) (blk : Nat) (s : State),
    (s.fullBlocks bay die).filter (fun b => s.refreshDue b || s.wearCandidate b) = [] ∧
    ((s.fullBlocks bay die).filter (fun b => (s.ftl.ledger b).live < s.blockUnits bay)).find? (fun b =>
      ((s.fullBlocks bay die).filter (fun b => (s.ftl.ledger b).live < s.blockUnits bay)).all (fun c => s.scoreGe b c)) = some blk ∧
    (s.dataForms bay).any (fun f => s.formAt bay die == some f) = true ∧
    (s.freeBlocks bay die (s.blocksPerDie bay)).length < 8 ∧
    s.ftl.moves.all (fun m => !(blkBay m.blk == bay && blkDie m.blk == die)) = true) ∧
    (∃ (blk : Nat) (s : State),
    s.ftl.erasable.any (fun e => e.1 == blk && e.2 ≤ s.tt.now) = true ∧
    s.ftl.pinned.all (fun p => p.1 != blk) = true ∧
    (s.ftl.ledger blk).state = .pendingErase) :=
  ⟨⟨{ ws with ftl := { ws.ftl with checkpoint := 0 }, pool := some aPool },
    by first | decide | rfl,
    by first | decide | rfl,
    by first | decide | rfl⟩,
   ⟨{ ws with ftl := { ws.ftl with checkpoint := 1, ckptDir := some 4 } },
    _, rfl,
    by first | decide | rfl,
    by first | decide | rfl⟩,
   ⟨{ ws with ec := { ws.ec with checkpoint := 0 }, pool := some aPool },
    by first | decide | rfl,
    by first | decide | rfl,
    by first | decide | rfl,
    _, rfl,
    _, rfl,
    _, _, rfl⟩,
   ⟨0, 0, blkKey 0 0 5, wf,
    by first | decide | rfl,
    by first | decide | rfl,
    by first | decide | rfl,
    by first | decide | rfl,
    by first | decide | rfl⟩,
   ⟨5, { ws with ftl := { ws.ftl with erasable := [(5, 0)], blocks := [(5, { aLedger with state := .pendingErase })] } },
    by first | decide | rfl,
    by first | decide | rfl,
    by first | decide | rfl⟩⟩

theorem meets_FlashBackgroundCommands_2 :
    (∃ (job : Nat) (psa : Nat) (s : State),
    ∃ r : SlotRead, s.jobs.read job = some r ∧
    r.stage = .die ∧
    r.postBy ≤ s.tt.now ∧
    psa = ((s.ftl.ctRec r.cid).map (·.psa)).getD r.psa ∧
    ∃ mine : DieOp → Bool, mine = (fun o => match DieOp.use o with | .slot j _ => j == job | _ => false) ∧
    s.bay.waiting.any mine = true) ∧
    (∃ (s : State),
    s.period = 0 ∧
    s.pool.isSome = true) ∧
    (∃ (blk : Nat) (page : Nat) (s : State),
    s.calibrationDue blk = true ∧
    s.ownsDie (blkBay blk) (blkDie blk) = true ∧
    (s.bay.outstanding ++ s.bay.waiting).any (fun o => o.opcode == 7 && blkKey o.bay o.die o.block == blk) = false) ∧
    (∃ (blk : Nat) (s : State),
    (s.fullBlocks (blkBay blk) (blkDie blk)).contains blk = true ∧
    s.ownsDie (blkBay blk) (blkDie blk) = true ∧
    s.refreshDue blk = true) ∧
    (∃ (s : State),
    s.ftl.triage = 1 ∧
    s.ftl.triageAt + secBells 60 ≤ s.tt.now) :=
  ⟨⟨0, 0, { ws with bay := { ws.bay with waiting := [{ aDieOp with use := .slot 0 0 }] }, jobs := { ws.jobs with reads := [{ aSlotRead with stage := .die }] } },
    _, rfl,
    by first | decide | rfl,
    by first | decide | rfl,
    by first | rfl | decide,
    _, rfl,
    by first | decide | rfl⟩,
   ⟨{ ws with pool := some aPool },
    by first | decide | rfl,
    by first | decide | rfl⟩,
   ⟨blkKey 0 0 5, 0, { wf with ftl := { wf.ftl with fullDue := [blkKey 0 0 5] } },
    by first | decide | rfl,
    by first | decide | rfl,
    by first | decide | rfl⟩,
   ⟨blkKey 0 0 5, { wf with ftl := { wf.ftl with blocks := [(blkKey 0 0 5, { aLedger with state := .full, ratio := 768 })] } },
    by first | decide | rfl,
    by first | decide | rfl,
    by first | decide | rfl⟩,
   ⟨{ ws with ftl := { ws.ftl with triage := 1 } },
    by first | decide | rfl,
    by first | decide | rfl⟩⟩

theorem meets_StripeAndMemberCommands_1 :
    (∃ (group : Nat) (s : State),
    ∃ g : Group, s.ec.group group = some g ∧
    g.isOpen = true ∧
    g.lastSlot + 64 ≤ s.tt.now ∧
    (g.filling ≠ [] ∨ (g.cur.isSome = true ∧ 0 < g.posted))) ∧
    (∃ (group : Nat) (s : State),
    ∃ g : Group, s.ec.group group = some g ∧
    ∃ x : Stripe, g.stripes.getLast? = some x ∧
    g.isOpen = true ∧
    x.interim = true ∧
    x.final = false ∧
    x.a < g.k ∧
    g.cur = none ∧
    g.filling ≠ [] ∧
    g.accum ≠ []) ∧
    (∃ (layout : Nat) (s : State),
    ∃ i : TtImage, s.tt.active = some i ∧
    (i.layoutRec layout).purpose = 1 ∧
    s.openGroupOf layout = none) ∧
    (∃ (strips : List (Nat × Bytes)) (s : State),
    ∃ id : Nat, ∃ n : Nat, s.patrolNext = some (id, n) ∧
    ∃ g : Group, s.ec.group id = some g ∧
    ∃ x : Stripe, g.stripe n = some x ∧
    (s.patrolReads g x).any (fun i => (getKey i strips).isNone) = false ∧
    ∃ got : List (Nat × Bytes), got = strips.filter (fun p => (s.patrolReads g x).contains p.1) ∧
    s.canPayAll 6 [(.par, 66432 * got.length)] = true ∧
    ∃ u : State, u = payAll 6 [(.par, 66432 * got.length)] s ∧
    ∃ at_ : Nat, at_ = u.patrolList.findIdx (fun p => p == (id, n)) + 1 ∧
    parityAgrees g x got = true) ∧
    (∃ (form : Nat) (die : Nat) (block : Nat) (page : Nat) (s : State),
    ∃ i : TtImage, s.tt.active = some i ∧
    (s.ec.member (i.form form).bay).any (fun m => m.state == .detention) = true ∧
    (s.bay.outstanding ++ s.bay.waiting).any (fun o => o.bay == (i.form form).bay && o.die / 16 == (i.form form).group && o.use == .probe) = false ∧
    s.formClass form = 4 ∧
    s.probeDie form (i.form form).bay (i.form form).group = some die ∧
    ((s.ftl.ledger (blkKey (i.form form).bay die block)).state = .isOpen ∨ (s.ftl.ledger (blkKey (i.form form).bay die block)).state = .full)) :=
  ⟨⟨0, { ws with ec := { ws.ec with groups := [{ aGroup with isOpen := true, filling := [aPlaced] }] } },
    _, rfl,
    by first | decide | rfl,
    by first | decide | rfl,
    by first | decide | rfl⟩,
   ⟨0, { ws with ec := { ws.ec with groups := [{ aGroup with isOpen := true, cur := none, k := 1, filling := [aPlaced], accum := [[]], stripes := [{ aStripe with interim := true }] }] } },
    _, rfl,
    _, rfl,
    by first | decide | rfl,
    by first | decide | rfl,
    by first | decide | rfl,
    by first | decide | rfl,
    by first | decide | rfl,
    by first | decide | rfl,
    by first | decide | rfl⟩,
   ⟨0, wt,
    _, rfl,
    by first | decide | rfl,
    by first | decide | rfl⟩,
   ⟨[], { wb with ec := { wb.ec with groups := [{ aGroup with stripes := [{ aStripe with pointer := some 0 }] }] } },
    _, _, rfl,
    _, rfl,
    _, rfl,
    by first | decide | rfl,
    _, rfl,
    by first | decide | rfl,
    _, rfl,
    _, rfl,
    by first | decide | rfl⟩,
   ⟨0, 0, 5, 0, { wt with ec := { wt.ec with members := [{ aMember with state := .detention }] }, ftl := { wt.ftl with blocks := [(blkKey 0 0 5, { aLedger with state := .full })] } },
    _, rfl,
    by first | decide | rfl,
    by first | decide | rfl,
    by first | decide | rfl,
    by first | decide | rfl,
    by first | decide | rfl⟩⟩

theorem meets_StripeAndMemberCommands_2 :
    (∃ (bay : Nat) (s : State),
    (s.ec.member bay).any (fun m => m.state == .detention && m.since + secBells 30 ≤ s.tt.now) = true) ∧
    (∃ (bay : Nat) (s : State),
    (s.ec.member bay).any (fun m => m.state == .missing && m.since + secBells 30 ≤ s.tt.now) = true) ∧
    (∃ (sources : List (Nat × List (Nat × Bytes))) (s : State),
    ∃ id : Nat, ∃ pos : Nat, ∃ new : Nat, s.ec.replacing = some (id, (pos, new)) ∧
    s.ec.serving (blkBay new) = true ∧
    s.rebuildBusy = false) ∧
    (∃ (sources : List (Nat × List (Nat × Bytes))) (s : State),
    ∃ id : Nat, ∃ pos : Nat, ∃ new : Nat, s.ec.replacing = some (id, (pos, new)) ∧
    s.ec.serving (blkBay new) = false) ∧
    (∃ (sources : List (Nat × List (Nat × Bytes))) (s : State),
    s.ec.replacing = none ∧
    (sortBy (fun a b => a.1 < b.1 || (a.1 == b.1 && a.2 ≤ b.2)) s.ec.rebuildTriads).find? (fun p => s.hasStandby p && s.triadClass p.1 == s.rebuildClass) = none ∧
    ∃ id : Nat, ∃ pos : Nat, s.rebuildNext = some (id, pos) ∧
    ∃ g : Group, s.ec.group id = some g ∧
    ∃ new : Nat, s.replacement g pos = some new ∧
    s.canPayAll (if s.ec.faulty.contains (id, pos) then 6 else 7) [(.par, 66432 * sumNat (sources.map (fun p => p.2.length)))] = true ∧
    ∃ u : State, u = payAll (if s.ec.faulty.contains (id, pos) then 6 else 7) [(.par, 66432 * sumNat (sources.map (fun p => p.2.length)))] s) :=
  ⟨⟨0, { ws with ec := { ws.ec with members := [{ aMember with state := .detention }] } },
    by first | decide | rfl⟩,
   ⟨0, { ws with ec := { ws.ec with members := [{ aMember with state := .missing }] } },
    by first | decide | rfl⟩,
   ⟨[], { ws with ec := { ws.ec with replacing := some (0, (0, 0)), members := [{ aMember with state := .inService }] } },
    _, _, _, rfl,
    by first | decide | rfl,
    by first | decide | rfl⟩,
   ⟨[], { ws with ec := { ws.ec with replacing := some (0, (0, 0)) } },
    _, _, _, rfl,
    by first | decide | rfl⟩,
   ⟨[], { wf with ec := { wf.ec with replacing := none, members := [{ aMember with state := .inService }], groups := [{ aGroup with k := 1, blocks := [blkKey 1 0 5] }], rebuild := [(0, 0)] }, bay := { wf.bay with bays := [(0, { aBay with ident := some { aIdentity with blocks := 16 } })] } },
    by first | decide | rfl,
    by first | decide | rfl,
    _, _, rfl,
    _, rfl,
    _, rfl,
    by first | decide | rfl,
    _, rfl⟩⟩

theorem meets_StripeAndMemberCommands_3 :
    ∃ (s : State),
    s.ec.sweepBy.isSome = true :=
  ⟨{ ws with ec := { ws.ec with sweepBy := some 0 } },
    by first | decide | rfl⟩

theorem meets_BridgeCompletionCommands_1 :
    (∃ (d : BlpDone) (data : Bytes) (tags : Bytes) (job : Nat) (source : Nat) (s : State),
    ∃ op : DieOp, s.bay.find d.bay d.tag = some op ∧
    op.opcode = 1 ∧
    op.use = .slot job source ∧
    d.status = 0 ∧
    ∃ r : SlotRead, s.jobs.read job = some r) ∧
    (∃ (d : BlpDone) (data : Bytes) (tags : Bytes) (root : Nat) (page : Nat) (s : State),
    ∃ op : DieOp, s.bay.find d.bay d.tag = some op ∧
    op.opcode = 1 ∧
    op.use = .metadata root page ∧
    d.status = 0 ∧
    ∃ u : State, u = noteRead op d (takeDone op d s)) ∧
    (∃ (d : BlpDone) (s : State),
    ∃ op : DieOp, s.bay.find d.bay d.tag = some op ∧
    op.opcode = 2 ∧
    d.status ≤ 4) ∧
    (∃ (d : BlpDone) (s : State),
    ∃ op : DieOp, s.bay.find d.bay d.tag = some op ∧
    op.opcode = 3 ∧
    op.use = .erase ∧
    d.status = 0 ∧
    ∃ blk : Nat, blk = blkKey op.bay op.die op.block ∧
    ∃ u : State, u = takeDone op d s) ∧
    (∃ (d : BlpDone) (s : State),
    ∃ op : DieOp, s.bay.find d.bay d.tag = some op ∧
    op.opcode = 3 ∧
    op.use = .erase ∧
    d.status = 4) :=
  ⟨⟨aBlpDone, [], [], 0, 0, { ws with bay := { ws.bay with outstanding := [{ aDieOp with opcode := 1, use := .slot 0 0 }] }, jobs := { ws.jobs with reads := [aSlotRead] } },
    _, rfl,
    by first | decide | rfl,
    by first | decide | rfl,
    by first | decide | rfl,
    _, rfl⟩,
   ⟨aBlpDone, [], [], 0, 0, { ws with bay := { ws.bay with outstanding := [{ aDieOp with opcode := 1, use := .metadata 0 0 }] } },
    _, rfl,
    by first | decide | rfl,
    by first | decide | rfl,
    by first | decide | rfl,
    _, rfl⟩,
   ⟨aBlpDone, { ws with bay := { ws.bay with outstanding := [{ aDieOp with opcode := 2 }] } },
    _, rfl,
    by first | decide | rfl,
    by first | decide | rfl⟩,
   ⟨aBlpDone, { ws with bay := { ws.bay with outstanding := [{ aDieOp with opcode := 3, use := .erase }] } },
    _, rfl,
    by first | decide | rfl,
    by first | decide | rfl,
    by first | decide | rfl,
    _, rfl,
    _, rfl⟩,
   ⟨{ aBlpDone with status := 4 }, { ws with bay := { ws.bay with outstanding := [{ aDieOp with opcode := 3, use := .erase }] } },
    _, rfl,
    by first | decide | rfl,
    by first | decide | rfl,
    by first | decide | rfl⟩⟩

theorem meets_BridgeCompletionCommands_2 :
    (∃ (d : BlpDone) (b : Binding) (tag : Nat) (s : State),
    ∃ op : DieOp, s.bay.find d.bay d.tag = some op ∧
    op.opcode = 4 ∧
    d.status ≤ 4 ∧
    op.use = .diag b tag) ∧
    (∃ (d : BlpDone) (b : Binding) (tag : Nat) (s : State),
    ∃ op : DieOp, s.bay.find d.bay d.tag = some op ∧
    op.opcode = 5 ∧
    d.status ≤ 4 ∧
    op.use = .diag b tag) ∧
    (∃ (d : BlpDone) (record : Bytes) (f : Nat) (s : State),
    ∃ op : DieOp, s.bay.find d.bay d.tag = some op ∧
    op.opcode = 6 ∧
    d.status = 0 ∧
    op.use = .statusOf f ∧
    fieldAt record 2 1 = s.sys.slot ∧
    ∃ u : State, u = takeDone op d s) ∧
    (∃ (d : BlpDone) (offsets : List Nat) (counts : List Nat) (s : State),
    ∃ op : DieOp, s.bay.find d.bay d.tag = some op ∧
    op.opcode = 7 ∧
    op.use = .calibrate ∧
    d.status = 0 ∧
    ∃ u : State, u = takeDone op d s) ∧
    (∃ (d : BlpDone) (page : Bytes) (s : State),
    ∃ op : DieOp, s.bay.find d.bay d.tag = some op ∧
    op.opcode = 8 ∧
    op.use = .telemetry ∧
    d.status = 0 ∧
    op.selector = 0 ∧
    identityOk page = true ∧
    ∃ u : State, u = takeDone op d s) :=
  ⟨⟨aBlpDone, .cpi, 0, { ws with bay := { ws.bay with outstanding := [{ aDieOp with opcode := 4, use := .diag .cpi 0 }] } },
    _, rfl,
    by first | decide | rfl,
    by first | decide | rfl,
    by first | decide | rfl⟩,
   ⟨aBlpDone, .cpi, 0, { ws with bay := { ws.bay with outstanding := [{ aDieOp with opcode := 5, use := .diag .cpi 0 }] } },
    _, rfl,
    by first | decide | rfl,
    by first | decide | rfl,
    by first | decide | rfl⟩,
   ⟨aBlpDone, [], 0, { ws with bay := { ws.bay with outstanding := [{ aDieOp with opcode := 6, use := .statusOf 0 }] } },
    _, rfl,
    by first | decide | rfl,
    by first | decide | rfl,
    by first | decide | rfl,
    by first | decide | rfl,
    _, rfl⟩,
   ⟨aBlpDone, [], [], { ws with bay := { ws.bay with outstanding := [{ aDieOp with opcode := 7, use := .calibrate }] } },
    _, rfl,
    by first | decide | rfl,
    by first | decide | rfl,
    by first | decide | rfl,
    _, rfl⟩,
   ⟨aBlpDone, fields [(2, 1), (2, 16), (2, 8192), (2, 4), (2, 0), (1, 16)], { ws with bay := { ws.bay with outstanding := [{ aDieOp with opcode := 8, use := .telemetry, selector := 0 }] } },
    _, rfl,
    by first | decide | rfl,
    by first | decide | rfl,
    by first | decide | rfl,
    by first | decide | rfl,
    by first | decide | rfl,
    _, rfl⟩⟩

theorem meets_BridgeCompletionCommands_3 :
    (∃ (d : BlpDone) (page : Bytes) (s : State),
    ∃ op : DieOp, s.bay.find d.bay d.tag = some op ∧
    op.opcode = 8 ∧
    op.use = .telemetry ∧
    d.status = 0 ∧
    op.selector = 0 ∧
    identityOk page = false) ∧
    (∃ (d : BlpDone) (forms : List Nat) (s : State),
    ∃ op : DieOp, s.bay.find d.bay d.tag = some op ∧
    op.opcode = 9 ∧
    op.use = .fence forms ∧
    d.status = 0) ∧
    (∃ (d : BlpDone) (forms : List Nat) (s : State),
    ∃ op : DieOp, s.bay.find d.bay d.tag = some op ∧
    op.opcode = 9 ∧
    op.use = .fence forms ∧
    d.status = 0x0A) :=
  ⟨⟨aBlpDone, [], { ws with bay := { ws.bay with outstanding := [{ aDieOp with opcode := 8, use := .telemetry, selector := 0 }] } },
    _, rfl,
    by first | decide | rfl,
    by first | decide | rfl,
    by first | decide | rfl,
    by first | decide | rfl,
    by first | decide | rfl⟩,
   ⟨aBlpDone, [], { ws with bay := { ws.bay with outstanding := [{ aDieOp with opcode := 9, use := .fence [] }] } },
    _, rfl,
    by first | decide | rfl,
    by first | decide | rfl,
    by first | decide | rfl⟩,
   ⟨{ aBlpDone with status := 10 }, [], { ws with bay := { ws.bay with outstanding := [{ aDieOp with opcode := 9, use := .fence [] }] } },
    _, rfl,
    by first | decide | rfl,
    by first | decide | rfl,
    by first | decide | rfl⟩⟩

theorem meets_BayCommands_1 :
    (∃ (s : State),
    s.bay.lastPoll + 64 ≤ s.day) ∧
    (∃ (bay : Nat) (s : State),
    bay < 64 ∧
    s.pins.faulty (prsntPin bay) = false ∧
    (s.bay.bayOf bay).state = .absent) ∧
    (∃ (bay : Nat) (s : State),
    (s.bay.bayOf bay).state = .powering ∧
    (s.bay.bayOf bay).since + msBells 100 ≤ s.tt.now) ∧
    (∃ (bay : Nat) (width : Nat) (rate : Nat) (s : State),
    (s.bay.bayOf bay).state = .training) ∧
    (∃ (bay : Nat) (width : Nat) (rate : Nat) (version : Nat) (s : State),
    (s.bay.bayOf bay).state = .training ∧
    version ≠ 1) :=
  ⟨⟨ws,
    by first | decide | rfl⟩,
   ⟨0, ws,
    by first | decide | rfl,
    by first | decide | rfl,
    by first | decide | rfl⟩,
   ⟨0, { ws with bay := { ws.bay with bays := [(0, { aBay with state := .powering })] } },
    by first | decide | rfl,
    by first | decide | rfl⟩,
   ⟨0, 0, 0, { ws with bay := { ws.bay with bays := [(0, { aBay with state := .training })] } },
    by first | decide | rfl⟩,
   ⟨0, 0, 0, 0, { ws with bay := { ws.bay with bays := [(0, { aBay with state := .training })] } },
    by first | decide | rfl,
    by first | decide | rfl⟩⟩

theorem meets_BayCommands_2 :
    (∃ (bay : Nat) (s : State),
    (s.bay.bayOf bay).state = .training ∧
    (s.bay.bayOf bay).since + secBells 1 ≤ s.tt.now ∧
    (s.bay.bayOf bay).retried = false) ∧
    (∃ (bay : Nat) (s : State),
    (s.bay.bayOf bay).state = .training ∧
    (s.bay.bayOf bay).since + secBells 1 ≤ s.tt.now ∧
    (s.bay.bayOf bay).retried = true) ∧
    (∃ (bay : Nat) (s : State),
    bay < 64 ∧
    (s.bay.bayOf bay).state ≠ .absent ∧
    (s.bay.bayOf bay).state ≠ .taken ∧
    (s.bay.bayOf bay).state ≠ .down ∧
    s.pins.faulty (prsntPin bay) = false) ∧
    (∃ (bay : Nat) (s : State),
    (s.bay.bayOf bay).state = .down ∧
    s.present bay = false ∧
    (s.bay.bayOf bay).since + msBells 100 ≤ s.tt.now) ∧
    (∃ (bay : Nat) (s : State),
    (s.bay.bayOf bay).state = .down ∧
    s.present bay = true ∧
    (s.bay.bayOf bay).since + secBells 1 ≤ s.tt.now) :=
  ⟨⟨0, { ws with bay := { ws.bay with bays := [(0, { aBay with state := .training })] } },
    by first | decide | rfl,
    by first | decide | rfl,
    by first | decide | rfl⟩,
   ⟨0, { ws with bay := { ws.bay with bays := [(0, { aBay with state := .training, retried := true })] } },
    by first | decide | rfl,
    by first | decide | rfl,
    by first | decide | rfl⟩,
   ⟨63, { ws with bay := { ws.bay with bays := [(63, { aBay with state := .up })] } },
    by first | decide | rfl,
    by first | decide | rfl,
    by first | decide | rfl,
    by first | decide | rfl,
    by first | decide | rfl⟩,
   ⟨0, { ws with bay := { ws.bay with bays := [(0, { aBay with state := .down })] } },
    by first | decide | rfl,
    by first | decide | rfl,
    by first | decide | rfl⟩,
   ⟨0, { ws with bay := { ws.bay with bays := [(0, { aBay with state := .down })] }, pins := { ws.pins with pins := [(0, { aPin with level := false })] } },
    by first | decide | rfl,
    by first | decide | rfl,
    by first | decide | rfl⟩⟩

theorem meets_BayCommands_3 :
    (∃ (bay : Nat) (width : Nat) (rate : Nat) (s : State),
    (s.bay.bayOf bay).state = .down) ∧
    (∃ (bay : Nat) (cause : Nat) (s : State),
    (s.bay.bayOf bay).linkUp = true ∧
    bitAt 0 cause = false ∧
    bitAt 1 cause = false ∧
    s.pins.isOpen (attnPin bay) = false) ∧
    (∃ (bay : Nat) (s : State),
    (s.bay.bayOf bay).linkUp = true ∧
    s.pins.isOpen (attnPin bay) = true ∧
    (s.bay.bayOf bay).attnDay + 64 ≤ s.day) ∧
    (∃ (bay : Nat) (width : Nat) (rate : Nat) (s : State),
    (s.bay.bayOf bay).linkUp = true) ∧
    (∃ (width : Nat) (rate : Nat) (s : State),
    s.corr.link = 3 ∧
    s.corr.lastFull + 1024 ≤ s.day ∧
    8 ≤ width ∧
    width ≤ 32 ∧
    width % 8 = 0) :=
  ⟨⟨0, 0, 0, { ws with bay := { ws.bay with bays := [(0, { aBay with state := .down })] } },
    by first | decide | rfl⟩,
   ⟨0, 0, { ws with bay := { ws.bay with bays := [(0, { aBay with state := .up })] } },
    by first | decide | rfl,
    by first | decide | rfl,
    by first | decide | rfl,
    by first | decide | rfl⟩,
   ⟨0, { ws with bay := { ws.bay with bays := [(0, { aBay with state := .up })] }, pins := { ws.pins with pins := [(3, { aPin with fault := .isOpen })] } },
    by first | decide | rfl,
    by first | decide | rfl,
    by first | decide | rfl⟩,
   ⟨0, 0, 0, { ws with bay := { ws.bay with bays := [(0, { aBay with state := .degraded })] } },
    by first | decide | rfl⟩,
   ⟨32, 0, { ws with corr := { ws.corr with link := 3 } },
    by first | decide | rfl,
    by first | decide | rfl,
    by first | decide | rfl,
    by first | decide | rfl,
    by first | decide | rfl⟩⟩

theorem meets_BayCommands_4 :
    (∃ (width : Nat) (rate : Nat) (b : Nat) (s : State),
    (s.bay.bayOf b).state = .degraded ∧
    (s.bay.bayOf b).lastFull + 1024 ≤ s.day ∧
    s.tt.active = none) ∧
    (∃ (bay : Nat) (old : Nat) (x : Nat × (Nat × Nat)) (s : State),
    s.corr.cas.find? (fun x => x.1 == bay) = some x ∧
    old = x.2.1 ∧
    x.2.2 ≠ s.claim) :=
  ⟨⟨0, 0, 0, { ws with tt := { ws.tt with active := none }, bay := { ws.bay with bays := [(0, { aBay with state := .degraded })] } },
    by first | decide | rfl,
    by first | decide | rfl,
    by first | decide | rfl⟩,
   ⟨0, 0, (0, (0, 0)), { ws with corr := { ws.corr with cas := [(0, (0, 0))] } },
    by first | decide | rfl,
    by first | decide | rfl,
    by first | decide | rfl⟩⟩

theorem meets_HeadPairLinkCommands_1 :
    (∃ (pool : Bytes) (slot : Nat) (failed : Nat) (reversed : Bool) (inverted : Nat) (s : State),
    s.corr.link ≤ 1 ∧
    failed ≤ 32) ∧
    (∃ (pool : Bytes) (slot : Nat) (failed : Nat) (reversed : Bool) (inverted : Nat) (s : State),
    s.corr.link ≤ 1 ∧
    25 ≤ failed ∧
    failed ≤ 32 ∧
    slot ≠ s.sys.slot ∧
    s.pool = none ∧
    ∃ u : State, u = sendToken s) ∧
    (∃ (pool : Bytes) (slot : Nat) (reversed : Bool) (inverted : Nat) (s : State),
    s.corr.link ≤ 1 ∧
    slot ≠ s.sys.slot ∧
    s.pool = none ∧
    ∃ v : State, v = sendToken s ∧
    ∃ u : State, u = resendAll { v with
      corr := { v.corr with
      reversed := reversed
      inverted := inverted
      lanes := 32
      fault := false
      helloSeen := false
      daysKnown := false
      link := 2
      lastFull := v.day } } ∧
    u.leads = true ∧
    u.pairOfferer = false ∧
    u.pwr.stage ≠ .joining) ∧
    (∃ (s : State),
    (s.corr.link = 4 ∨ s.corr.link = 5) ∧
    s.corr.refusedAt + secBells 1 ≤ s.tt.now) ∧
    (∃ (s : State),
    s.corr.up = true) :=
  ⟨⟨[], 0, 32, false, 0, { ws with corr := { ws.corr with link := 1 } },
    by first | decide | rfl,
    by first | decide | rfl⟩,
   ⟨[], 1, 25, false, 0, { ws with pool := none, corr := { ws.corr with link := 1 } },
    by first | decide | rfl,
    by first | decide | rfl,
    by first | decide | rfl,
    by first | decide | rfl,
    by first | decide | rfl,
    _, rfl⟩,
   ⟨[], 1, false, 0, { ws with pool := none, corr := { ws.corr with link := 1 } },
    by first | decide | rfl,
    by first | decide | rfl,
    by first | decide | rfl,
    _, rfl,
    _, rfl,
    by first | decide | rfl,
    by first | decide | rfl,
    by first | decide | rfl⟩,
   ⟨{ ws with corr := { ws.corr with link := 4 } },
    by first | decide | rfl,
    by first | decide | rfl⟩,
   ⟨ws,
    by first | decide | rfl⟩⟩

theorem meets_HeadPairLinkCommands_2 :
    (∃ (day : Nat) (sendCycle : Nat) (echoed : Nat) (here : Nat) (s : State),
    s.drops (.bellSync day sendCycle echoed) = false ∧
    s.leads = true ∧
    ∃ u : State, u = { tallyAdd 0x0D 1 1 s with corr := { s.corr with daysKnown := true } }) ∧
    (∃ (number : Nat) (tag : Nat) (bell : Nat) (roots : List Nat) (g : SnapGroup) (s : State),
    s.drops (.snapFence tag bell roots) = false ∧
    getKey number s.corr.answered = none ∧
    ∃ m : Sent, s.corr.answerOf (fun b => match b with | .snapFence t _ _ => t == tag | _ => false) = some m ∧
    ∃ u : State, u = settleNumber m.number (tallyAdd 0x0D 1 1 s) ∧
    u.repl.groups.find? (fun g => g.tag == tag) = some g ∧
    g.cut = false) ∧
    (∃ (number : Nat) (r : JRec) (s : State),
    s.drops (.journal [r]) = false ∧
    getKey number s.corr.answered = none ∧
    (∀ n c, r.body ≠ .epochSeal n c)) ∧
    (∃ (number : Nat) (l : List JRec) (s : State),
    s.drops (.journalAck number) = false ∧
    ∃ m : Sent, s.corr.awaiting number = some m ∧
    m.body = .journal []) ∧
    (∃ (number : Nat) (offset : Nat) (bytes : Bytes) (s : State),
    s.drops (.sbChange offset bytes) = false ∧
    getKey number s.corr.answered = none ∧
    ∃ m : Sent, s.corr.answerOf (fun b => b == .sbChange offset bytes) = some m) :=
  ⟨⟨0, 0, 0, 0, ws,
    by first | decide | rfl,
    by first | decide | rfl,
    _, rfl⟩,
   ⟨0, 0, 0, [], aSnapGroup, { ws with corr := { ws.corr with unanswered := [{ aSent with body := .snapFence 0 0 [] }] }, repl := { ws.repl with groups := [aSnapGroup] } },
    by first | decide | rfl,
    by first | decide | rfl,
    _, rfl,
    _, rfl,
    by first | decide | rfl,
    by first | decide | rfl⟩,
   ⟨0, aJRec, ws,
    by first | decide | rfl,
    by first | decide | rfl,
    by first | decide | exact fun _ _ => nofun | exact nofun⟩,
   ⟨0, [], { ws with corr := { ws.corr with unanswered := [{ aSent with body := .journal [] }] } },
    by first | decide | rfl,
    _, rfl,
    by first | decide | rfl⟩,
   ⟨0, 0, [], { ws with corr := { ws.corr with unanswered := [{ aSent with body := .sbChange 0 [] }] } },
    by first | decide | rfl,
    by first | decide | rfl,
    _, rfl⟩⟩

theorem meets_HeadPairLinkCommands_3 :
    (∃ (number : Nat) (group : Nat) (owner : Nat) (boundary : Nat) (next : List (Nat × Nat)) (m : Sent) (s : State),
    s.drops (.anaMove group owner boundary next) = false ∧
    getKey number s.corr.answered = none ∧
    s.corr.answerOf (fun b => b == .anaMove group owner boundary next) = none ∧
    ∃ u : State, u = putOwner group owner { tallyAdd 0x0D 1 1 s with hq := { s.hq with fsn := next.foldl (fun l p => putKey p.1 p.2 l) s.hq.fsn } }) ∧
    (∃ (time : Nat) (s : State),
    s.drops (.releaseNotice time) = false) ∧
    (∃ (lastNumber : Nat) (epoch : Nat) (head : Nat) (seq : Nat) (s : State),
    s.drops (.resyncDone lastNumber epoch head seq) = false ∧
    s.corr.roll = .joining ∧
    s.corr.step = 7 ∧
    s.pwr.stage = .service) ∧
    (∃ (number : Nat) (s : State),
    s.drops (.prefectRecord .resume) = false ∧
    getKey number s.corr.answered = none ∧
    s.corr.answerOf (fun b => b == .prefectRecord .resume) = none ∧
    s.trust.channel = none) ∧
    (∃ (number : Nat) (s : State),
    s.drops (.prefectRecord .resume) = false ∧
    getKey number s.corr.answered = none ∧
    s.corr.answerOf (fun b => b == .prefectRecord .resume) = none ∧
    ∃ c : PairChannel, s.trust.channel = some c) :=
  ⟨⟨0, 0, 0, 0, [], aSent, ws,
    by first | decide | rfl,
    by first | decide | rfl,
    by first | decide | rfl,
    _, rfl⟩,
   ⟨0, ws,
    by first | decide | rfl⟩,
   ⟨0, 0, 0, 0, { ws with corr := { ws.corr with roll := .joining, step := 7 }, pwr := { ws.pwr with stage := .service } },
    by first | decide | rfl,
    by first | decide | rfl,
    by first | decide | rfl,
    by first | decide | rfl⟩,
   ⟨0, { ws with trust := { ws.trust with channel := none } },
    by first | decide | rfl,
    by first | decide | rfl,
    by first | decide | rfl,
    by first | decide | rfl⟩,
   ⟨0, { ws with trust := { ws.trust with channel := some aPairChannel } },
    by first | decide | rfl,
    by first | decide | rfl,
    by first | decide | rfl,
    _, rfl⟩⟩

theorem meets_RollcallAndArbitrationCommands_1 :
    (∃ (day : Nat) (term : Nat) (sheet : Nat) (dirtyMib : Nat) (degradations : Nat) (s : State),
    s.drops (.heartbeat day term sheet 2 dirtyMib degradations) = false ∧
    s.corr.roll ≠ .inService ∧
    day = s.day ∧
    s.period < 512 ∧
    s.corr.daysKnown = true) ∧
    (∃ (day : Nat) (term : Nat) (sheet : Nat) (dirtyMib : Nat) (degradations : Nat) (s : State),
    s.drops (.heartbeat day term sheet 1 dirtyMib degradations) = false ∧
    s.corr.roll = .inService ∧
    day ≠ s.day ∧
    s.pwr.stage ≠ .joining ∧
    ∃ u : State, u = { tallyAdd 0x0D 1 1 s with corr := { s.corr with lastBeat := s.tt.now } }) ∧
    (∃ (s : State),
    s.period = 512 ∧
    s.corr.beatDay ≠ s.day ∧
    s.corr.missDay ≠ some s.day ∧
    s.corr.misses < 2 ∧
    (s.corr.roll = .inService ∨ s.corr.roll = .joining ∨ (s.corr.roll = .noPeer ∧ s.pwr.stage = .service ∧ s.hasPeer = true))) ∧
    (∃ (s : State),
    s.period = 512 ∧
    s.corr.beatDay ≠ s.day ∧
    s.corr.missDay ≠ some s.day ∧
    s.corr.misses = 2 ∧
    s.corr.roll = .inService ∧
    ∃ u : State, u = event 0xA001 25 3 { s with corr := { s.corr with misses := 3, missDay := some s.day } } ∧
    u.pwr.stage ≠ .joining ∧
    u.corr.roll ≠ .joining) ∧
    (∃ (outcome : Nat) (s : State),
    s.corr.running = true ∧
    s.corr.round < s.tt.now ∧
    ∃ held : Nat, ∃ peer : Nat, ∃ unknown : Nat, s.witnesses = (held, (peer, unknown)) ∧
    ∃ m : Nat, m = s.ec.members.length ∧
    meets s.sys.slot held m = true ∧
    ∃ u : State, u = event 0xA003 25 (argOf [(0, held), (1, m), (2, 1)]) { s with corr := { s.corr with running := false, outcome := 1, held := held, members := m } }) :=
  ⟨⟨1048576, 0, 0, 0, 0, { ws with corr := { ws.corr with daysKnown := true } },
    by first | decide | rfl,
    by first | decide | rfl,
    by first | decide | rfl,
    by first | decide | rfl,
    by first | decide | rfl⟩,
   ⟨0, 0, 0, 0, 0, { ws with corr := { ws.corr with roll := .inService } },
    by first | decide | rfl,
    by first | decide | rfl,
    by first | decide | rfl,
    by first | decide | rfl,
    _, rfl⟩,
   ⟨{ ws with tt := { ws.tt with now := 1024 * 1048576 + 512 }, corr := { ws.corr with roll := .joining, misses := 1 } },
    by first | decide | rfl,
    by first | decide | rfl,
    by first | decide | rfl,
    by first | decide | rfl,
    by first | decide | rfl⟩,
   ⟨{ ws with corr := { ws.corr with misses := 2, roll := .inService }, tt := { ws.tt with now := 1024 * 1048576 + 512 } },
    by first | decide | rfl,
    by first | decide | rfl,
    by first | decide | rfl,
    by first | decide | rfl,
    by first | decide | rfl,
    _, rfl,
    by first | decide | rfl,
    by first | decide | rfl⟩,
   ⟨0, { ws with corr := { ws.corr with running := true } },
    by first | decide | rfl,
    by first | decide | rfl,
    _, _, _, rfl,
    _, rfl,
    by first | decide | rfl,
    _, rfl⟩⟩

theorem meets_RollcallAndArbitrationCommands_2 :
    (∃ (s : State),
    s.corr.running = true ∧
    s.corr.round < s.tt.now ∧
    ∃ held : Nat, ∃ peer : Nat, ∃ unknown : Nat, s.witnesses = (held, (peer, unknown)) ∧
    ∃ m : Nat, m = s.ec.members.length ∧
    meets s.sys.slot held m = false ∧
    meets (1 - s.sys.slot) (peer + unknown) m = false ∧
    ∃ u : State, u = event 0xA003 25 (argOf [(0, held), (1, m), (2, 3)]) { s with corr := { s.corr with running := false, outcome := 3, held := held, members := m } } ∧
    u.corr.roll ≠ .selfFenced) ∧
    (∃ (s : State),
    s.corr.roll = .selfFenced ∧
    s.corr.outcome = 3 ∧
    s.corr.running = false ∧
    s.period = 512 ∧
    s.corr.round / 1024 < s.day) ∧
    (∃ (s : State),
    s.corr.roll = .presumedDown ∧
    s.peerAbsent = true ∧
    s.corr.failover = 0 ∧
    ∃ u : State, u = closeTorn (1 - s.sys.slot) (takeHalf (takeDeltas (takeResolutions (dropUnmarked (answersGone s))))) ∧
    ∃ w : State, w = cutAgain { u with
      ftl := { u.ftl with unacked := [] }
      hq := { u.hq with fsnWaits := [], queues := u.hq.queues.map (fun q => { q with asked := none }) }
      corr := { u.corr with failover := 1, unanswered := [] } } ∧
    w.corr.peerImage = none) ∧
    (∃ (s : State),
    s.corr.roll = .presumedDown ∧
    s.corr.failover = 1 ∧
    ∃ u : State, u = { s with
      hq := { s.hq with fsn := (s.peerGroups.flatMap s.groupNs).foldl (fun l n => putKey n (s.highestSeq n + 2 ^ 32) l) s.hq.fsn }
      corr := { s.corr with failover := 2, taken := s.peerGroups } }) ∧
    (∃ (b : Binding) (tag : Nat) (s : State),
    ∃ p : Packet, s.cpi.packet b tag 0x0510 = some p ∧
    s.corr.adopt = none ∧
    s.corr.roll ≠ .joining) :=
  ⟨⟨{ ws with corr := { ws.corr with running := true, learned := [0] }, ec := { ws.ec with members := [aMember] } },
    by first | decide | rfl,
    by first | decide | rfl,
    _, _, _, rfl,
    _, rfl,
    by first | decide | rfl,
    by first | decide | rfl,
    _, rfl,
    by first | decide | rfl⟩,
   ⟨{ ws with corr := { ws.corr with roll := .selfFenced, outcome := 3, running := false }, tt := { ws.tt with now := 1024 * 1048576 + 512 } },
    by first | decide | rfl,
    by first | decide | rfl,
    by first | decide | rfl,
    by first | decide | rfl,
    by first | decide | rfl⟩,
   ⟨{ ws with corr := { ws.corr with roll := .presumedDown, failover := 0 }, tt := { ws.tt with sheetOf := ⟨1, 0, 0⟩ } },
    by first | decide | rfl,
    by first | decide | rfl,
    by first | decide | rfl,
    _, rfl,
    _, rfl,
    by first | decide | rfl⟩,
   ⟨{ ws with corr := { ws.corr with roll := .presumedDown, failover := 1 } },
    by first | decide | rfl,
    by first | decide | rfl,
    _, rfl⟩,
   ⟨.cpi, 0, { ws with corr := { ws.corr with adopt := none }, cpi := { ws.cpi with accepted := [{ aPacket with opcode := 0x0510 }] } },
    _, rfl,
    by first | decide | rfl,
    by first | decide | rfl⟩⟩

theorem meets_RollcallAndArbitrationCommands_3 :
    (∃ (b : Binding) (tag : Nat) (s : State),
    ∃ p : Packet, s.cpi.packet b tag 0x0510 = some p ∧
    s.corr.adopt.isSome = true) ∧
    (∃ (b : Binding) (tag : Nat) (s : State),
    ∃ p : Packet, s.cpi.packet b tag 0x0511 = some p ∧
    s.paired = true ∧
    s.corr.step = 0 ∧
    s.corr.releasing = none) ∧
    (∃ (b : Binding) (tag : Nat) (s : State),
    ∃ p : Packet, s.cpi.packet b tag 0x0511 = some p ∧
    s.paired = false) :=
  ⟨⟨.cpi, 0, { ws with corr := { ws.corr with adopt := some [] }, cpi := { ws.cpi with accepted := [{ aPacket with opcode := 0x0510 }] } },
    _, rfl,
    by first | decide | rfl⟩,
   ⟨.cpi, 0, { wp with corr := { wp.corr with step := 0, releasing := none }, cpi := { wp.cpi with accepted := [{ aPacket with opcode := 0x0511 }] } },
    _, rfl,
    by first | decide | rfl,
    by first | decide | rfl,
    by first | decide | rfl⟩,
   ⟨.cpi, 0, { ws with cpi := { ws.cpi with accepted := [{ aPacket with opcode := 0x0511 }] } },
    _, rfl,
    by first | decide | rfl⟩⟩

theorem meets_FederationAndFaultCommands_1 :
    (∃ (s : State),
    s.corr.roster ≠ [] ∧
    s.corr.fedSent + 64 ≤ s.day) ∧
    (∃ (chip : Nat) (state : Nat) (rosterNo : Nat) (token : Bytes) (s : State),
    s.corr.chips.any (fun c => c.chip == chip) = true ∧
    state ≤ 4 ∧
    rosterNo ≤ s.corr.rosterNo ∧
    tokenFormOk token = false) ∧
    (∃ (chip : Nat) (s : State),
    s.corr.chips.any (fun c => c.chip == chip && !c.unreachable && c.heard + 524288 ≤ s.tt.now) = true) ∧
    (∃ (b : Binding) (tag : Nat) (s : State),
    ∃ p : Packet, s.cpi.packet b tag 0x0512 = some p ∧
    s.rosterRefusal p.payload = some 1) ∧
    (∃ (b : Binding) (tag : Nat) (s : State),
    ∃ p : Packet, s.cpi.packet b tag 0x0513 = some p ∧
    tokenFormOk p.payload = false) :=
  ⟨⟨{ ws with corr := { ws.corr with roster := [0] } },
    by first | decide | rfl,
    by first | decide | rfl⟩,
   ⟨0, 4, 0, [], { ws with corr := { ws.corr with chips := [aFedChip] } },
    by first | decide | rfl,
    by first | decide | rfl,
    by first | decide | rfl,
    by first | decide | rfl⟩,
   ⟨0, { ws with corr := { ws.corr with chips := [aFedChip] } },
    by first | decide | rfl⟩,
   ⟨.cpi, 0, { ws with cpi := { ws.cpi with accepted := [{ aPacket with opcode := 0x0512 }] } },
    _, rfl,
    by first | decide | rfl⟩,
   ⟨.cpi, 0, { ws with cpi := { ws.cpi with accepted := [{ aPacket with opcode := 0x0513 }] } },
    _, rfl,
    by first | decide | rfl⟩⟩

theorem meets_FederationAndFaultCommands_2 :
    (∃ (b : Binding) (tag : Nat) (s : State),
    ∃ p : Packet, s.cpi.packet b tag 0x0514 = some p) ∧
    (∃ (s : State),
    s.trust.clockRecord + 3600000000 ≤ s.clockUs ∧
    2 ≤ s.trust.stage) ∧
    (∃ (s : State),
    2 ≤ s.trust.stage ∧
    s.trust.bootable 1 s.trust.prefectSlot = none) :=
  ⟨⟨.cpi, 0, { ws with cpi := { ws.cpi with accepted := [{ aPacket with opcode := 0x0514 }] } },
    _, rfl⟩,
   ⟨{ ws with trust := { ws.trust with clockNs := 3600000000000, stage := 2 } },
    by first | decide | rfl,
    by first | decide | rfl⟩,
   ⟨{ ws with trust := { ws.trust with stage := 2 } },
    by first | decide | rfl,
    by first | decide | rfl⟩⟩

theorem meets_KeyAndTrustCommands_1 :
    (∃ (b : Binding) (tag : Nat) (s : State),
    ∃ p : Packet, s.cpi.packet b tag 0x0710 = some p ∧
    getKey (p.param 0 2) s.trust.fuses.digests = none ∧
    p.param 0 2 ≤ 19 ∧
    fieldAt (fitBytes 4096 p.payload) 0 2 = p.param 0 2 ∧
    fieldAt (fitBytes 4096 p.payload) 2 1 = slotKind (p.param 0 2)) ∧
    (∃ (b : Binding) (tag : Nat) (s : State),
    ∃ p : Packet, s.cpi.packet b tag 0x0710 = some p ∧
    ((getKey (p.param 0 2) s.trust.fuses.digests).isSome = true ∨ 19 < p.param 0 2)) ∧
    (∃ (b : Binding) (tag : Nat) (s : State),
    ∃ p : Packet, s.cpi.packet b tag 0x0711 = some p ∧
    s.trust.oemSlots.filter (· != p.param 0 2) ≠ [] ∧
    s.slotInUse (p.param 0 2) = none) ∧
    (∃ (b : Binding) (tag : Nat) (s : State),
    ∃ p : Packet, s.cpi.packet b tag 0x0711 = some p ∧
    s.trust.oemSlots.filter (· != p.param 0 2) = []) ∧
    (∃ (b : Binding) (tag : Nat) (s : State),
    ∃ p : Packet, s.cpi.packet b tag 0x0712 = some p ∧
    s.trust.fuses.lifecycle < 3) :=
  ⟨⟨.cpi, 0, { ws with cpi := { ws.cpi with accepted := [{ aPacket with opcode := 0x0710, payload := [0, 0, 1] }] } },
    _, rfl,
    by first | decide | rfl,
    by first | decide | rfl,
    by first | decide | rfl,
    by first | decide | rfl⟩,
   ⟨.cpi, 0, { ws with cpi := { ws.cpi with accepted := [{ aPacket with opcode := 0x0710, params := [20, 0] }] } },
    _, rfl,
    by first | decide | rfl⟩,
   ⟨.cpi, 0, { ws with trust := { ws.trust with fuses := { ws.trust.fuses with digests := [(0, []), (1, [])] } }, cpi := { ws.cpi with accepted := [{ aPacket with opcode := 0x0711 }] } },
    _, rfl,
    by first | decide | rfl,
    by first | decide | rfl⟩,
   ⟨.cpi, 0, { ws with cpi := { ws.cpi with accepted := [{ aPacket with opcode := 0x0711 }] } },
    _, rfl,
    by first | decide | rfl⟩,
   ⟨.cpi, 0, { ws with cpi := { ws.cpi with accepted := [{ aPacket with opcode := 0x0712 }] } },
    _, rfl,
    by first | decide | rfl⟩⟩

theorem meets_KeyAndTrustCommands_2 :
    (∃ (b : Binding) (tag : Nat) (s : State),
    ∃ p : Packet, s.cpi.packet b tag 0x0713 = some p) ∧
    (∃ (b : Binding) (tag : Nat) (s : State),
    ∃ p : Packet, s.cpi.packet b tag 0x0714 = some p) ∧
    (∃ (b : Binding) (tag : Nat) (s : State),
    ∃ p : Packet, s.cpi.packet b tag 0x0715 = some p ∧
    16 ≤ p.param 0 2 ∧
    p.param 0 2 ≤ 19 ∧
    s.trust.slotUsable (p.param 0 2) = true ∧
    ∃ root : Bytes, s.trust.rootKey = some root ∧
    ∃ slot : Nat, ∃ at_ : Nat, getKey p.opcode s.cpi.firstSigned = some (p.params, (slot, at_)) ∧
    slot ≠ p.slot ∧
    s.clockSec ≤ at_ + 600) ∧
    (∃ (b : Binding) (tag : Nat) (copy : Bytes) (media : Machine.PoolMedia) (s : State),
    ∃ p : Packet, s.cpi.packet b tag 0x0716 = some p ∧
    s.pool.isSome = true) ∧
    (∃ (b : Binding) (tag : Nat) (s : State),
    ∃ p : Packet, s.cpi.packet b tag 0x0717 = some p ∧
    s.pool = none ∧
    ∃ slot : Nat, ∃ at_ : Nat, getKey p.opcode s.cpi.firstSigned = some (p.params, (slot, at_)) ∧
    slot ≠ p.slot ∧
    s.clockSec ≤ at_ + 600) :=
  ⟨⟨.cpi, 0, { ws with cpi := { ws.cpi with accepted := [{ aPacket with opcode := 0x0713 }] } },
    _, rfl⟩,
   ⟨.cpi, 0, { ws with cpi := { ws.cpi with accepted := [{ aPacket with opcode := 0x0714 }] } },
    _, rfl⟩,
   ⟨.cpi, 0, { ws with trust := { ws.trust with matched := 65536, rootKey := some [] }, cpi := { ws.cpi with firstSigned := [(0x0715, ([16, 0], (1, 0)))], accepted := [{ aPacket with opcode := 0x0715, params := [16, 0] }] } },
    _, rfl,
    by first | decide | rfl,
    by first | decide | rfl,
    by first | decide | rfl,
    _, rfl,
    _, _, rfl,
    by first | decide | rfl,
    by first | decide | rfl⟩,
   ⟨.cpi, 0, [], aPoolMedia, { ws with pool := some aPool, cpi := { ws.cpi with accepted := [{ aPacket with opcode := 0x0716 }] } },
    _, rfl,
    by first | decide | rfl⟩,
   ⟨.cpi, 0, { ws with pool := none, cpi := { ws.cpi with firstSigned := [(0x0717, ([], (1, 0)))], accepted := [{ aPacket with opcode := 0x0717 }] } },
    _, rfl,
    by first | decide | rfl,
    _, _, rfl,
    by first | decide | rfl,
    by first | decide | rfl⟩⟩

theorem meets_FirmwareCommands_1 :
    (∃ (chunk : Nat) (s : State),
    s.trust.stage = 3 ∧
    chunk < imageChunks s.trust.facultyImage ∧
    s.trust.chunks.contains chunk = false ∧
    chunkOk s.trust.facultyImage chunk = true ∧
    (s.trust.chunks ++ [chunk]).length ≠ imageChunks s.trust.facultyImage) ∧
    (∃ (chunk : Nat) (s : State),
    s.trust.stage = 3 ∧
    chunk < imageChunks s.trust.facultyImage ∧
    s.trust.chunks.contains chunk = false ∧
    chunkOk s.trust.facultyImage chunk = false) ∧
    (∃ (b : Binding) (tag : Nat) (s : State),
    ∃ p : Packet, s.cpi.packet b tag 0x0901 = some p ∧
    ∃ u : State, takePiece p (p.param 0 8) (p.param 8 8) s = (u, .broken)) ∧
    (∃ (b : Binding) (tag : Nat) (s : State),
    ∃ p : Packet, s.cpi.packet b tag 0x0902 = some p ∧
    s.trust.activation.isSome = true) ∧
    (∃ (island : Nat) (s : State),
    ∃ a : Activation, s.trust.activation = some a ∧
    a.step = .emptying island) :=
  ⟨⟨0, { ws with trust := { ws.trust with stage := 3, flash := { ws.trust.flash with slotF0 := ⟨some (zeros 14 ++ [2] ++ zeros 49 ++ zeros 32 ++ sha3_256 [] ++ zeros 64), 0⟩ } } },
    by first | decide | rfl,
    by first | decide | rfl,
    by first | decide | rfl,
    by first | decide | rfl,
    by first | decide | rfl⟩,
   ⟨0, { ws with trust := { ws.trust with stage := 3, flash := { ws.trust.flash with slotF0 := ⟨some (zeros 14 ++ [2] ++ zeros 49 ++ zeros 128), 0⟩ } } },
    by first | decide | rfl,
    by first | decide | rfl,
    by first | decide | rfl,
    by first | decide | rfl⟩,
   ⟨.cpi, 0, { ws with cpi := { ws.cpi with accepted := [{ aPacket with opcode := 0x0901 }] } },
    _, rfl,
    _, rfl⟩,
   ⟨.cpi, 0, { ws with trust := { ws.trust with activation := some aActivation }, cpi := { ws.cpi with accepted := [{ aPacket with opcode := 0x0902 }] } },
    _, rfl,
    by first | decide | rfl⟩,
   ⟨0, { ws with trust := { ws.trust with activation := some { aActivation with step := .emptying 0 } } },
    _, rfl,
    by first | decide | rfl⟩⟩

theorem meets_FirmwareCommands_2 :
    (∃ (island : Nat) (s : State),
    ∃ a : Activation, s.trust.activation = some a ∧
    a.step = .starting island) ∧
    (∃ (island : Nat) (s : State),
    ∃ a : Activation, s.trust.activation = some a ∧
    a.step = .starting island ∧
    a.since + msBells 100 ≤ s.tt.now) ∧
    (∃ (b : Binding) (tag : Nat) (s : State),
    ∃ p : Packet, s.cpi.packet b tag 0x0903 = some p ∧
    s.pwr.stage ≠ .recovery ∧
    ∃ u : State, takePiece p (p.param 0 8) (p.param 8 8) s = (u, .broken)) ∧
    (∃ (b : Binding) (tag : Nat) (s : State),
    ∃ p : Packet, s.cpi.packet b tag 0x0905 = some p) :=
  ⟨⟨0, { ws with trust := { ws.trust with activation := some { aActivation with step := .starting 0 } } },
    _, rfl,
    by first | decide | rfl⟩,
   ⟨0, { ws with trust := { ws.trust with activation := some { aActivation with step := .starting 0 } } },
    _, rfl,
    by first | decide | rfl,
    by first | decide | rfl⟩,
   ⟨.cpi, 0, { ws with cpi := { ws.cpi with accepted := [{ aPacket with opcode := 0x0903 }] } },
    _, rfl,
    by first | decide | rfl,
    _, rfl⟩,
   ⟨.cpi, 0, { ws with cpi := { ws.cpi with accepted := [{ aPacket with opcode := 0x0905 }] } },
    _, rfl⟩⟩

theorem meets_PacketBindingCommands_1 :
    (∃ (s : State),
    ∃ n : Nat, s.cpi.cpiArea = some n) ∧
    (∃ (s : State),
    ∃ n : Nat, s.cpi.pfmArea = some n) ∧
    (∃ (endpoint : Nat) (length : Nat) (body : Bytes) (peerInflight : Nat) (s : State),
    65536 < length) ∧
    (∃ (endpoint : Nat) (length : Nat) (body : Bytes) (peerInflight : Nat) (s : State),
    length ≤ 65536 ∧
    s.cpi.bindings.any (fun r => r.id == .mctp endpoint) = true) ∧
    (∃ (b : Binding) (tag : Nat) (s : State),
    ∃ r : Reply, s.cpi.replyOf b tag = some r ∧
    r.held = false ∧
    r.readyAt + secBells 60 ≤ s.tt.now) :=
  ⟨⟨{ ws with cpi := { ws.cpi with cpiArea := some 0 } },
    _, rfl⟩,
   ⟨{ ws with cpi := { ws.cpi with pfmArea := some 0 } },
    _, rfl⟩,
   ⟨0, 65537, [], 0, ws,
    by first | decide | rfl⟩,
   ⟨0, 65536, [], 0, { ws with cpi := { ws.cpi with bindings := [⟨.mctp 0, 0, 0, [], none⟩] } },
    by first | decide | rfl,
    by first | decide | rfl⟩,
   ⟨.cpi, 0, { ws with cpi := { ws.cpi with replies := [{ aReply with held := false }] } },
    _, rfl,
    by first | decide | rfl,
    by first | decide | rfl⟩⟩

theorem meets_PacketBindingCommands_2 :
    (∃ (b : Binding) (r : BindingRec) (s : State),
    s.cpi.bindings.find? (fun r => r.id == b) = some r ∧
    ∃ lost : Nat, r.lostAt = some lost ∧
    lost + secBells 60 ≤ s.tt.now) ∧
    (∃ (b : Binding) (tag : Nat) (s : State),
    ∃ p : Packet, s.cpi.packet b tag 0x010A = some p ∧
    ∃ r : Reply, s.cpi.replyOf (s.cpi.keeperOf b (p.param 0 4)) (p.param 0 4) = some r ∧
    min r.size (p.param 8 8 + p.param 16 4) ≤ (s.replyText r).length) ∧
    (∃ (b : Binding) (tag : Nat) (s : State),
    ∃ p : Packet, s.cpi.packet b tag 0x010A = some p ∧
    ∃ r : Reply, s.cpi.replyOf (s.cpi.keeperOf b (p.param 0 4)) (p.param 0 4) = some r ∧
    (s.replyText r).length < min r.size (p.param 8 8 + p.param 16 4)) ∧
    (∃ (b : Binding) (tag : Nat) (s : State),
    ∃ p : Packet, s.cpi.packet b tag 0x010A = some p ∧
    s.cpi.replyOf (s.cpi.keeperOf b (p.param 0 4)) (p.param 0 4) = none) :=
  ⟨⟨.cpi, ⟨.cpi, 0, 0, [], some 0⟩, { ws with cpi := { ws.cpi with bindings := [⟨.cpi, 0, 0, [], some 0⟩] } },
    by first | decide | rfl,
    _, rfl,
    by first | decide | rfl⟩,
   ⟨.cpi, 0, { ws with cpi := { ws.cpi with accepted := [{ aPacket with opcode := 0x010A }], replies := [aReply] } },
    _, rfl,
    _, rfl,
    by first | decide | rfl⟩,
   ⟨.cpi, 0, { ws with cpi := { ws.cpi with accepted := [{ aPacket with opcode := 0x010A, params := [0, 0, 0, 0, 0, 0, 0, 0, 0, 0, 0, 0, 0, 0, 0, 0, 5, 0, 0, 0] }], replies := [{ aReply with size := 5 }] } },
    _, rfl,
    _, rfl,
    by first | decide | rfl⟩,
   ⟨.cpi, 0, { ws with cpi := { ws.cpi with accepted := [{ aPacket with opcode := 0x010A }] } },
    _, rfl,
    by first | decide | rfl⟩⟩

theorem meets_SystemPacketCommands_1 :
    (∃ (b : Binding) (tag : Nat) (s : State),
    ∃ p : Packet, s.cpi.packet b tag 0x0101 = some p) ∧
    (∃ (b : Binding) (tag : Nat) (s : State),
    ∃ p : Packet, s.cpi.packet b tag 0x0102 = some p ∧
    s.otherReset (5 + p.param 0 1) = false) ∧
    (∃ (b : Binding) (tag : Nat) (s : State),
    ∃ p : Packet, s.cpi.packet b tag 0x0102 = some p ∧
    s.otherReset (5 + p.param 0 1) = true) ∧
    (∃ (b : Binding) (tag : Nat) (peer : PeerAnswer) (s : State),
    ∃ p : Packet, s.cpi.packet b tag 0x0103 = some p ∧
    p.param 0 1 = 1 ∧
    p.param 1 1 = 1 ∧
    (s.paired = true → peer.status = .ok) ∧
    s.awaitsAlone = false) ∧
    (∃ (b : Binding) (tag : Nat) (peer : PeerAnswer) (s : State),
    ∃ p : Packet, s.cpi.packet b tag 0x0104 = some p ∧
    p.param 2 1 = 1 ∧
    s.hq.subsystems.any (fun x => x.number == p.param 0 2) = false ∧
    s.hq.subsystems.length < 1024 ∧
    (s.paired = true → peer.status = .ok) ∧
    s.awaitsAlone = false) :=
  ⟨⟨.cpi, 0, { ws with cpi := { ws.cpi with accepted := [{ aPacket with opcode := 0x0101 }] } },
    _, rfl⟩,
   ⟨.cpi, 0, { ws with cpi := { ws.cpi with accepted := [{ aPacket with opcode := 0x0102 }] } },
    _, rfl,
    by first | decide | rfl⟩,
   ⟨.cpi, 0, { ws with pwr := { ws.pwr with islandsInReset := [5] }, cpi := { ws.cpi with accepted := [{ aPacket with opcode := 0x0102, params := [1] }] } },
    _, rfl,
    by first | decide | rfl⟩,
   ⟨.cpi, 0, aPeerAnswer, { ws with cpi := { ws.cpi with accepted := [{ aPacket with opcode := 0x0103, params := [1, 1] }] } },
    _, rfl,
    by first | decide | rfl,
    by first | decide | rfl,
    by first | decide | exact fun _ _ => nofun | exact nofun,
    by first | decide | rfl⟩,
   ⟨.cpi, 0, aPeerAnswer, { ws with cpi := { ws.cpi with accepted := [{ aPacket with opcode := 0x0104, params := [0, 0, 1] }] } },
    _, rfl,
    by first | decide | rfl,
    by first | decide | rfl,
    by first | decide | rfl,
    by first | decide | exact fun _ _ => nofun | exact nofun,
    by first | decide | rfl⟩⟩

theorem meets_SystemPacketCommands_2 :
    (∃ (b : Binding) (tag : Nat) (peer : PeerAnswer) (s : State),
    ∃ p : Packet, s.cpi.packet b tag 0x0105 = some p ∧
    (s.paired = true → peer.status = .ok) ∧
    s.awaitsAlone = false) ∧
    (∃ (b : Binding) (tag : Nat) (s : State),
    ∃ p : Packet, s.cpi.packet b tag 0x0106 = some p) ∧
    (∃ (b : Binding) (tag : Nat) (sense : Int) (s : State),
    ∃ p : Packet, s.cpi.packet b tag 0x0107 = some p ∧
    s.cpi.holder holdupLoad = none ∧
    s.stg.lastAsk.any (fun t => s.tt.now < t + secBells 60) = false ∧
    s.pins.faulty 259 = false ∧
    s.pins.faulty 260 = false ∧
    -500 ≤ sense) ∧
    (∃ (b : Binding) (tag : Nat) (sense : Int) (s : State),
    ∃ p : Packet, s.cpi.packet b tag 0x0107 = some p ∧
    s.cpi.holder holdupLoad = none ∧
    s.stg.lastAsk.any (fun t => s.tt.now < t + secBells 60) = true) ∧
    (∃ (sense : Int) (s : State),
    s.mayMeasure = true ∧
    s.stg.vmin ≠ 0 ∧
    s.period = 0 ∧
    s.stg.lastRun + 21600 ≤ s.clockSec) :=
  ⟨⟨.cpi, 0, aPeerAnswer, { ws with cpi := { ws.cpi with accepted := [{ aPacket with opcode := 0x0105 }] } },
    _, rfl,
    by first | decide | exact fun _ _ => nofun | exact nofun,
    by first | decide | rfl⟩,
   ⟨.cpi, 0, { ws with cpi := { ws.cpi with accepted := [{ aPacket with opcode := 0x0106 }] } },
    _, rfl⟩,
   ⟨.cpi, 0, 0, { ws with cpi := { ws.cpi with accepted := [{ aPacket with opcode := 0x0107 }] } },
    _, rfl,
    by first | decide | rfl,
    by first | decide | rfl,
    by first | decide | rfl,
    by first | decide | rfl,
    by first | decide | rfl⟩,
   ⟨.cpi, 0, 0, { ws with stg := { ws.stg with lastAsk := some (1024 * 1048576 - 3749999) }, cpi := { ws.cpi with accepted := [{ aPacket with opcode := 0x0107 }] } },
    _, rfl,
    by first | decide | rfl,
    by first | decide | rfl⟩,
   ⟨0, { ws with stg := { ws.stg with vmin := 6000 }, trust := { ws.trust with clockNs := 21600000000000 } },
    by first | decide | rfl,
    by first | decide | rfl,
    by first | decide | rfl,
    by first | decide | rfl⟩⟩

theorem meets_SystemPacketCommands_3 :
    (∃ (va : List Int) (v10 : Int) (v5 : List Int) (v20 : List Int) (s : State),
    s.stg.measuring.isSome = true ∧
    s.stg.testLoad = true ∧
    s.stg.stepAt + msBells 20 ≤ s.tt.now) ∧
    (∃ (sense : Int) (s : State),
    s.mayMeasure = true ∧
    s.stg.vmin ≠ 0 ∧
    ∃ t : Nat, s.stg.retryAt = some t ∧
    t ≤ s.tt.now) ∧
    (∃ (b : Binding) (tag : Nat) (s : State),
    ∃ p : Packet, s.cpi.packet b tag 0x0108 = some p) ∧
    (∃ (b : Binding) (tag : Nat) (s : State),
    ∃ p : Packet, s.cpi.packet b tag 0x0109 = some p ∧
    p.param 0 1 = 25) ∧
    (∃ (b : Binding) (tag : Nat) (s : State),
    ∃ p : Packet, s.cpi.packet b tag 0x0109 = some p ∧
    p.param 0 1 ≠ 25 ∧
    s.otherReset (p.param 0 1) = false) :=
  ⟨⟨[], 0, [], [], { ws with stg := { ws.stg with testLoad := true, measuring := some .start } },
    by first | decide | rfl,
    by first | decide | rfl,
    by first | decide | rfl⟩,
   ⟨0, { ws with stg := { ws.stg with vmin := 6000, retryAt := some 5 } },
    by first | decide | rfl,
    by first | decide | rfl,
    _, rfl,
    by first | decide | rfl⟩,
   ⟨.cpi, 0, { ws with cpi := { ws.cpi with accepted := [{ aPacket with opcode := 0x0108 }] } },
    _, rfl⟩,
   ⟨.cpi, 0, { ws with cpi := { ws.cpi with accepted := [{ aPacket with opcode := 0x0109, params := [25] }] } },
    _, rfl,
    by first | decide | rfl⟩,
   ⟨.cpi, 0, { ws with cpi := { ws.cpi with accepted := [{ aPacket with opcode := 0x0109 }] } },
    _, rfl,
    by first | decide | rfl,
    by first | decide | rfl⟩⟩

theorem meets_PoolPacketCommands_1 :
    (∃ (b : Binding) (tag : Nat) (peer : PeerAnswer) (s : State),
    ∃ p : Packet, s.cpi.packet b tag 0x0201 = some p ∧
    s.pool = none ∧
    4 * p.param 1 1 ≤ s.dram.dimmGib ∧
    s.dram.gib ≤ 8 * p.param 10 2 ∧
    newMembers p 16 ≠ [] ∧
    (newMembers p 16).any (fun x => 63 < x.2.1) = false ∧
    s.notUnformed (newMembers p 16) = none ∧
    s.corr.up = false) ∧
    (∃ (b : Binding) (tag : Nat) (peer : PeerAnswer) (s : State),
    ∃ p : Packet, s.cpi.packet b tag 0x0201 = some p ∧
    s.pool.isSome = true) ∧
    (∃ (b : Binding) (tag : Nat) (peer : PeerAnswer) (s : State),
    ∃ p : Packet, s.cpi.packet b tag 0x0202 = some p ∧
    s.pool.isSome = true ∧
    (newMembers p 0).find? (fun x => 63 < x.2.1) = none ∧
    s.notUnformed (newMembers p 0) = none ∧
    (s.paired = true → peer.status = .ok) ∧
    s.awaitsAlone = false) ∧
    (∃ (b : Binding) (tag : Nat) (peer : PeerAnswer) (s : State),
    ∃ p : Packet, s.cpi.packet b tag 0x0203 = some p ∧
    ∃ m : Member, s.ec.member (p.param 0 1) = some m ∧
    m.state ≠ .failed ∧
    m.state ≠ .none ∧
    s.ec.mayFail (p.param 0 1) = true ∧
    (s.paired = true → peer.status = .ok) ∧
    s.awaitsAlone = false) ∧
    (∃ (b : Binding) (tag : Nat) (peer : PeerAnswer) (s : State),
    ∃ p : Packet, s.cpi.packet b tag 0x0203 = some p ∧
    ∃ m : Member, s.ec.member (p.param 0 1) = some m ∧
    m.state ≠ .failed ∧
    m.state ≠ .none ∧
    s.ec.mayFail (p.param 0 1) = false ∧
    ∃ until_ : Nat, s.sealedUntil = some until_) :=
  ⟨⟨.cpi, 0, aPeerAnswer, { ws with pool := none, corr := { ws.corr with link := 0 }, bay := { ws.bay with bays := [(0, { aBay with class_ := .unformed, state := .up })] }, cpi := { ws.cpi with accepted := [{ aPacket with opcode := 0x0201, params := [0, 0, 0, 0, 0, 0, 0, 0, 0, 0, 0, 0, 0, 0, 0, 0, 1, 0, 0, 0, 0, 0, 0, 0, 63, 0, 0, 0] }] } },
    _, rfl,
    by first | decide | rfl,
    by first | decide | rfl,
    by first | decide | rfl,
    by first | decide | rfl,
    by first | decide | rfl,
    by first | decide | rfl,
    by first | decide | rfl⟩,
   ⟨.cpi, 0, aPeerAnswer, { ws with pool := some aPool, cpi := { ws.cpi with accepted := [{ aPacket with opcode := 0x0201 }] } },
    _, rfl,
    by first | decide | rfl⟩,
   ⟨.cpi, 0, aPeerAnswer, { ws with pool := some aPool, cpi := { ws.cpi with accepted := [{ aPacket with opcode := 0x0202 }] } },
    _, rfl,
    by first | decide | rfl,
    by first | decide | rfl,
    by first | decide | rfl,
    by first | decide | exact fun _ _ => nofun | exact nofun,
    by first | decide | rfl⟩,
   ⟨.cpi, 0, aPeerAnswer, { ws with cpi := { ws.cpi with accepted := [{ aPacket with opcode := 0x0203 }] }, ec := { ws.ec with members := [{ aMember with state := .missing }] } },
    _, rfl,
    _, rfl,
    by first | decide | rfl,
    by first | decide | rfl,
    by first | decide | rfl,
    by first | decide | exact fun _ _ => nofun | exact nofun,
    by first | decide | rfl⟩,
   ⟨.cpi, 0, aPeerAnswer, { ws with ec := { ws.ec with groups := [{ aGroup with k := 1, blocks := [0] }], members := [{ aMember with state := .inService }] }, trust := { ws.trust with seals := [{ aSeal with until_ := 1 }] }, cpi := { ws.cpi with accepted := [{ aPacket with opcode := 0x0203 }] } },
    _, rfl,
    _, rfl,
    by first | decide | rfl,
    by first | decide | rfl,
    by first | decide | rfl,
    _, rfl⟩⟩

theorem meets_PoolPacketCommands_2 :
    (∃ (b : Binding) (tag : Nat) (s : State),
    ∃ p : Packet, s.cpi.packet b tag 0x0204 = some p ∧
    ((List.range 4).map (· + 4 * p.param 0 1)).find? s.present = none) ∧
    (∃ (b : Binding) (tag : Nat) (s : State),
    ∃ p : Packet, s.cpi.packet b tag 0x0205 = some p ∧
    (s.ec.member (p.param 0 1)).filter (fun m => m.state == .inService || m.state == .detention) = none ∧
    p.param 1 1 = 1) ∧
    (∃ (b : Binding) (tag : Nat) (m : Member) (s : State),
    ∃ p : Packet, s.cpi.packet b tag 0x0205 = some p ∧
    (s.ec.member (p.param 0 1)).filter (fun m => m.state == .inService || m.state == .detention) = some m) ∧
    (∃ (b : Binding) (tag : Nat) (peer : PeerAnswer) (s : State),
    ∃ p : Packet, s.cpi.packet b tag 0x0206 = some p ∧
    s.pool.isSome = true ∧
    s.ddp.grownQ = none ∧
    s.ddp.q < 41 ∧
    (s.paired = true → peer.status = .ok) ∧
    s.awaitsAlone = false) ∧
    (∃ (b : Binding) (tag : Nat) (peer : PeerAnswer) (s : State),
    ∃ p : Packet, s.cpi.packet b tag 0x0207 = some p ∧
    s.pool.isSome = true ∧
    s.ddp.split = none ∧
    s.ddp.n < 36 ∧
    (s.paired = true → peer.status = .ok) ∧
    s.awaitsAlone = false) :=
  ⟨⟨.cpi, 0, { ws with cpi := { ws.cpi with accepted := [{ aPacket with opcode := 0x0204 }] } },
    _, rfl,
    by first | decide | rfl⟩,
   ⟨.cpi, 0, { ws with cpi := { ws.cpi with accepted := [{ aPacket with opcode := 0x0205, params := [0, 1] }] } },
    _, rfl,
    by first | decide | rfl,
    by first | decide | rfl⟩,
   ⟨.cpi, 0, { aMember with state := .detention }, { ws with ec := { ws.ec with members := [{ aMember with state := .detention }] }, cpi := { ws.cpi with accepted := [{ aPacket with opcode := 0x0205 }] } },
    _, rfl,
    by first | decide | rfl⟩,
   ⟨.cpi, 0, aPeerAnswer, { ws with ddp := { ws.ddp with grownQ := none, q := 40 }, pool := some aPool, cpi := { ws.cpi with accepted := [{ aPacket with opcode := 0x0206 }] } },
    _, rfl,
    by first | decide | rfl,
    by first | decide | rfl,
    by first | decide | rfl,
    by first | decide | exact fun _ _ => nofun | exact nofun,
    by first | decide | rfl⟩,
   ⟨.cpi, 0, aPeerAnswer, { ws with ddp := { ws.ddp with split := none, n := 35 }, pool := some aPool, cpi := { ws.cpi with accepted := [{ aPacket with opcode := 0x0207 }] } },
    _, rfl,
    by first | decide | rfl,
    by first | decide | rfl,
    by first | decide | rfl,
    by first | decide | exact fun _ _ => nofun | exact nofun,
    by first | decide | rfl⟩⟩

theorem meets_PoolPacketCommands_3 :
    (∃ (b : Binding) (tag : Nat) (s : State),
    ∃ p : Packet, s.cpi.packet b tag 0x0208 = some p ∧
    ∃ q : Pool, s.pool = some q) ∧
    (∃ (b : Binding) (tag : Nat) (peer : PeerAnswer) (s : State),
    ∃ p : Packet, s.cpi.packet b tag 0x0209 = some p ∧
    ∃ q : Pool, s.pool = some q ∧
    q.id = slice p.params 0 16 ∧
    s.sealedUntil = none ∧
    ∃ slot : Nat, ∃ at_ : Nat, getKey p.opcode s.cpi.firstSigned = some (p.params, (slot, at_)) ∧
    slot ≠ p.slot ∧
    s.clockSec ≤ at_ + 600 ∧
    s.paired = false ∧
    s.awaitsAlone = false) ∧
    (∃ (b : Binding) (tag : Nat) (s : State),
    ∃ p : Packet, s.cpi.packet b tag 0x020A = some p ∧
    (s.bay.bayOf (p.param 0 1)).poolId ≠ [] ∧
    (s.bay.bayOf (p.param 0 1)).poolId = slice p.params 8 16 ∧
    s.ec.member (p.param 0 1) = none) :=
  ⟨⟨.cpi, 0, { ws with pool := some aPool, cpi := { ws.cpi with accepted := [{ aPacket with opcode := 0x0208 }] } },
    _, rfl,
    _, rfl⟩,
   ⟨.cpi, 0, aPeerAnswer, { ws with pool := some { aPool with id := slice [] 0 16 }, cpi := { ws.cpi with firstSigned := [(0x0209, ([], (1, 0)))], accepted := [{ aPacket with opcode := 0x0209 }] } },
    _, rfl,
    _, rfl,
    by first | decide | rfl,
    by first | decide | rfl,
    _, _, rfl,
    by first | decide | rfl,
    by first | decide | rfl,
    by first | decide | rfl,
    by first | decide | rfl⟩,
   ⟨.cpi, 0, { ws with bay := { ws.bay with bays := [(0, { aBay with poolId := slice ([0, 0, 0, 0, 0, 0, 0, 0, 7] ++ zeros 7) 8 16 })] }, cpi := { ws.cpi with accepted := [{ aPacket with opcode := 0x020A, params := [0, 0, 0, 0, 0, 0, 0, 0, 7, 0, 0, 0, 0, 0, 0, 0] }] } },
    _, rfl,
    by first | decide | rfl,
    by first | decide | rfl,
    by first | decide | rfl⟩⟩

theorem meets_VolumeAndDomainCommands_1 :
    (∃ (b : Binding) (tag : Nat) (peer : PeerAnswer) (s : State),
    ∃ p : Packet, s.cpi.packet b tag 0x0301 = some p ∧
    s.pool.isSome = true ∧
    s.ftl.nsidUsed (p.param 0 4) = false ∧
    s.badNamespace (p.param 0 4) (p.param 4 2) (p.param 6 2) 0 4 6 = none ∧
    (s.ftl.domainRec (p.param 8 2)).isSome = true ∧
    ∃ l : Nat, s.layoutFor (p.param 0x0A 1) = some l ∧
    s.tt.active.any (fun i => i.serviceCount ≤ p.param 0x0B 1) = false ∧
    1 ≤ p.param 0x10 8 ∧
    p.param 0x10 8 ≤ 2 ^ 40 ∧
    s.ftl.volumes < 65536 ∧
    (s.paired = true → peer.status = .ok) ∧
    ∃ u : State, u = pairBase p s ∧
    ∃ r : Root, r = { Root.blank u.ftl.nextRoot .volume with
      nsid := p.param 0 4, subsystem := p.param 4 2, ana := p.param 6 2, domain := p.param 8 2, layout := l
      service := p.param 0x0B 1, format := flagBit (p.param 0x0C 1 != 0), piType := p.param 0x0C 1, size := p.param 0x10 8
      quota := p.param 0x18 8, created := u.clockUs } ∧
    s.awaitsAlone = false) ∧
    (∃ (b : Binding) (tag : Nat) (peer : PeerAnswer) (s : State),
    ∃ p : Packet, s.cpi.packet b tag 0x0301 = some p ∧
    s.pool.isSome = true ∧
    p.param 0 4 ≠ 0 ∧
    s.ftl.nsidUsed (p.param 0 4) = true) ∧
    (∃ (b : Binding) (tag : Nat) (peer : PeerAnswer) (s : State),
    ∃ p : Packet, s.cpi.packet b tag 0x0302 = some p ∧
    ∃ r : Root, s.ftl.rootOf (p.param 0 4) = some r ∧
    r.isVolume = true ∧
    (s.paired = true → peer.status = .ok) ∧
    r.nsid = 0 ∧
    s.awaitsAlone = false) ∧
    (∃ (b : Binding) (tag : Nat) (peer : PeerAnswer) (s : State),
    ∃ p : Packet, s.cpi.packet b tag 0x0303 = some p ∧
    ∃ r : Root, s.ftl.rootOf (p.param 0 4) = some r ∧
    r.kind ≠ .volume ∧
    r.kind ≠ .clone) ∧
    (∃ (b : Binding) (tag : Nat) (peer : PeerAnswer) (s : State),
    ∃ p : Packet, s.cpi.packet b tag 0x0303 = some p ∧
    ∃ r : Root, s.ftl.rootOf (p.param 0 4) = some r ∧
    r.kind = .volume ∧
    1 ≤ p.param 8 8 ∧
    p.param 8 8 ≤ 2 ^ 40 ∧
    (s.paired = true → peer.status = .ok) ∧
    ∃ u : State, u = (r.leaves.flatMap (fun l => (l.2.entries.map (fun e => 504 * l.1 + e.1)).filter (p.param 8 8 ≤ ·))).foldl
      (fun t g => setMap r.id g none 0 t) (pairBase p s) ∧
    ∃ w : State, w = { u with stg := { u.stg with
      versions := u.stg.versions.filter (fun v => !(v.vol == r.key && p.param 8 8 ≤ v.grain))
      entries := u.stg.entries.filter (fun e => !(e.vol == r.key && p.param 8 8 ≤ e.grain)) } } ∧
    ∃ q : Root, w.ftl.root r.id = some q ∧
    s.awaitsAlone = false) :=
  ⟨⟨.cpi, 0, aPeerAnswer, { ws with pool := some aPool, hq := { ws.hq with subsystems := [⟨0, []⟩] }, ftl := { ws.ftl with roots := [{ aRoot with kind := .domain }] }, cpi := { ws.cpi with accepted := [{ aPacket with opcode := 0x0301, params := [1, 0, 0, 0, 0, 0, 0, 0, 0, 0, 255, 0, 0, 0, 0, 0, 0, 0, 0, 0, 0, 1, 0, 0] }] } },
    _, rfl,
    by first | decide | rfl,
    by first | decide | rfl,
    by first | decide | rfl,
    by first | decide | rfl,
    _, rfl,
    by first | decide | rfl,
    by first | decide | rfl,
    by first | decide | rfl,
    by first | decide | rfl,
    by first | decide | exact fun _ _ => nofun | exact nofun,
    _, rfl,
    _, rfl,
    by first | decide | rfl⟩,
   ⟨.cpi, 0, aPeerAnswer, { ws with pool := some aPool, ftl := { ws.ftl with roots := [{ aRoot with nsid := 1 }] }, cpi := { ws.cpi with accepted := [{ aPacket with opcode := 0x0301, params := [1, 0, 0, 0] }] } },
    _, rfl,
    by first | decide | rfl,
    by first | decide | rfl,
    by first | decide | rfl⟩,
   ⟨.cpi, 0, aPeerAnswer, { ws with cpi := { ws.cpi with accepted := [{ aPacket with opcode := 0x0302 }] }, ftl := { ws.ftl with roots := [{ aRoot with nsid := 0 }] } },
    _, rfl,
    _, rfl,
    by first | decide | rfl,
    by first | decide | exact fun _ _ => nofun | exact nofun,
    by first | decide | rfl,
    by first | decide | rfl⟩,
   ⟨.cpi, 0, aPeerAnswer, { ws with cpi := { ws.cpi with accepted := [{ aPacket with opcode := 0x0303 }] }, ftl := { ws.ftl with roots := [{ aRoot with kind := .snapshot }] } },
    _, rfl,
    _, rfl,
    by first | decide | rfl,
    by first | decide | rfl⟩,
   ⟨.cpi, 0, aPeerAnswer, { ws with cpi := { ws.cpi with accepted := [{ aPacket with opcode := 0x0303, params := [0, 0, 0, 0, 0, 0, 0, 0, 0, 0, 0, 0, 0, 1, 0, 0] }] }, ftl := { ws.ftl with roots := [{ aRoot with kind := .volume }] } },
    _, rfl,
    _, rfl,
    by first | decide | rfl,
    by first | decide | rfl,
    by first | decide | rfl,
    by first | decide | exact fun _ _ => nofun | exact nofun,
    _, rfl,
    _, rfl,
    _, rfl,
    by first | decide | rfl⟩⟩

theorem meets_VolumeAndDomainCommands_2 :
    (∃ (b : Binding) (tag : Nat) (peer : PeerAnswer) (s : State),
    ∃ p : Packet, s.cpi.packet b tag 0x0304 = some p ∧
    ∃ r : Root, s.ftl.rootOf (p.param 0 4) = some r ∧
    r.isVolume = true ∧
    s.tt.active.any (fun i => i.serviceCount ≤ p.param 4 1) = false ∧
    (s.paired = true → peer.status = .ok) ∧
    s.awaitsAlone = false) ∧
    (∃ (b : Binding) (tag : Nat) (s : State),
    ∃ p : Packet, s.cpi.packet b tag 0x0305 = some p ∧
    s.ownsGroup (p.param 0 2) = true ∧
    p.param 2 1 ≠ s.sys.slot ∧
    s.paired = true) ∧
    (∃ (b : Binding) (tag : Nat) (s : State),
    ∃ p : Packet, s.cpi.packet b tag 0x0305 = some p ∧
    s.ownsGroup (p.param 0 2) = true ∧
    p.param 2 1 = s.sys.slot) ∧
    (∃ (b : Binding) (tag : Nat) (peer : PeerAnswer) (s : State),
    ∃ p : Packet, s.cpi.packet b tag 0x0306 = some p ∧
    s.pool.isSome = true ∧
    p.param 0 2 < 4096 ∧
    (s.ftl.roots.filter (fun r => r.kind == .domain)).length < 4096 ∧
    s.ftl.domainRec (p.param 0 2) = none ∧
    s.repl.adoptions.any (fun a => a.domain == p.param 0 2) = false ∧
    bitAt 1 (p.param 2 2) = false ∧
    (s.paired = true → peer.status = .ok) ∧
    s.awaitsAlone = false) ∧
    (∃ (b : Binding) (tag : Nat) (peer : PeerAnswer) (s : State),
    ∃ p : Packet, s.cpi.packet b tag 0x0306 = some p ∧
    s.pool.isSome = true ∧
    4096 ≤ p.param 0 2) :=
  ⟨⟨.cpi, 0, aPeerAnswer, { ws with cpi := { ws.cpi with accepted := [{ aPacket with opcode := 0x0304 }] }, ftl := { ws.ftl with roots := [aRoot] } },
    _, rfl,
    _, rfl,
    by first | decide | rfl,
    by first | decide | rfl,
    by first | decide | exact fun _ _ => nofun | exact nofun,
    by first | decide | rfl⟩,
   ⟨.cpi, 0, { wp with cpi := { wp.cpi with accepted := [{ aPacket with opcode := 0x0305, params := [0, 0, 1] }] } },
    _, rfl,
    by first | decide | rfl,
    by first | decide | rfl,
    by first | decide | rfl⟩,
   ⟨.cpi, 0, { ws with cpi := { ws.cpi with accepted := [{ aPacket with opcode := 0x0305 }] } },
    _, rfl,
    by first | decide | rfl,
    by first | decide | rfl⟩,
   ⟨.cpi, 0, aPeerAnswer, { ws with pool := some aPool, cpi := { ws.cpi with accepted := [{ aPacket with opcode := 0x0306, params := [255, 15] }] } },
    _, rfl,
    by first | decide | rfl,
    by first | decide | rfl,
    by first | decide | rfl,
    by first | decide | rfl,
    by first | decide | rfl,
    by first | decide | rfl,
    by first | decide | exact fun _ _ => nofun | exact nofun,
    by first | decide | rfl⟩,
   ⟨.cpi, 0, aPeerAnswer, { ws with pool := some aPool, cpi := { ws.cpi with accepted := [{ aPacket with opcode := 0x0306, params := [0, 16] }] } },
    _, rfl,
    by first | decide | rfl,
    by first | decide | rfl⟩⟩

theorem meets_VolumeAndDomainCommands_3 :
    (∃ (b : Binding) (tag : Nat) (peer : PeerAnswer) (s : State),
    ∃ p : Packet, s.cpi.packet b tag 0x0307 = some p ∧
    ∃ q : Root, s.ftl.domainRec (p.param 0 2) = some q ∧
    s.ftl.roots.filter (fun r => r.kind != .domain && r.domain == p.param 0 2) = [] ∧
    (s.paired = true → peer.status = .ok) ∧
    ∃ u : State, u = pairBase p s ∧
    ∃ w : State, w = changeLocker (p.param 0 2) .unbound 0 (dropDomainIndex (p.param 0 2) (journal (.volume q.id 2 u.epoch 0 0 0) u)) ∧
    s.awaitsAlone = false) ∧
    (∃ (b : Binding) (tag : Nat) (peer : PeerAnswer) (s : State),
    ∃ p : Packet, s.cpi.packet b tag 0x0308 = some p ∧
    ∃ q : Root, s.ftl.domainRec (p.param 0 2) = some q ∧
    (s.paired = true → peer.status = .ok) ∧
    s.awaitsAlone = false) ∧
    (∃ (b : Binding) (tag : Nat) (s : State),
    ∃ p : Packet, s.cpi.packet b tag 0x0309 = some p ∧
    ∃ r : Root, s.ftl.rootOf (p.param 0 4) = some r) ∧
    (∃ (b : Binding) (tag : Nat) (s : State),
    ∃ p : Packet, s.cpi.packet b tag 0x0309 = some p ∧
    s.ftl.rootOf (p.param 0 4) = none) :=
  ⟨⟨.cpi, 0, aPeerAnswer, { ws with ftl := { ws.ftl with roots := [{ aRoot with kind := .domain }] }, cpi := { ws.cpi with accepted := [{ aPacket with opcode := 0x0307 }] } },
    _, rfl,
    _, rfl,
    by first | decide | rfl,
    by first | decide | exact fun _ _ => nofun | exact nofun,
    _, rfl,
    _, rfl,
    by first | decide | rfl⟩,
   ⟨.cpi, 0, aPeerAnswer, { ws with ftl := { ws.ftl with roots := [{ aRoot with kind := .domain }] }, cpi := { ws.cpi with accepted := [{ aPacket with opcode := 0x0308 }] } },
    _, rfl,
    _, rfl,
    by first | decide | exact fun _ _ => nofun | exact nofun,
    by first | decide | rfl⟩,
   ⟨.cpi, 0, { ws with cpi := { ws.cpi with accepted := [{ aPacket with opcode := 0x0309 }] }, ftl := { ws.ftl with roots := [aRoot] } },
    _, rfl,
    _, rfl⟩,
   ⟨.cpi, 0, { ws with cpi := { ws.cpi with accepted := [{ aPacket with opcode := 0x0309 }] } },
    _, rfl,
    by first | decide | rfl⟩⟩

theorem meets_SnapshotAndCloneCommands_1 :
    (∃ (b : Binding) (tag : Nat) (s : State),
    ∃ p : Packet, s.cpi.packet b tag 0x0401 = some p ∧
    bitAt 0 (p.param 2 2) = (p.param 8 8 == 0)) ∧
    (∃ (b : Binding) (tag : Nat) (s : State),
    ∃ p : Packet, s.cpi.packet b tag 0x0401 = some p ∧
    ∃ roots : List Nat, roots = (List.range (p.param 0 2)).map (fun i => p.param (16 + 4 * i) 4) ∧
    bitAt 0 (p.param 2 2) ≠ (p.param 8 8 == 0) ∧
    p.param 0 2 ≤ 256 ∧
    twice [] roots = none ∧
    roots.findIdx? (fun r => (s.ftl.rootOf r).isNone) = none ∧
    ∃ rs : List Root, rs = roots.filterMap s.ftl.rootOf ∧
    rs.find? (fun r => !r.isVolume) = none ∧
    rs.find? (fun r => s.ec.offline.contains r.layout) = none ∧
    rs.find? (fun r => 16384 ≤ s.ftl.snapshotsOf r.id) = none ∧
    s.ftl.snapshots + p.param 0 2 ≤ 1048576) ∧
    (∃ (tag : Nat) (peerReady : Bool) (g : SnapGroup) (s : State),
    s.repl.groups.find? (fun g => g.tag == tag) = some g ∧
    s.tt.now % 8 = 0 ∧
    s.groupReady g = true ∧
    (s.paired = true → peerReady = true)) ∧
    (∃ (b : Binding) (tag : Nat) (peer : PeerAnswer) (peerClock : Nat) (s : State),
    ∃ p : Packet, s.cpi.packet b tag 0x0402 = some p ∧
    ∃ r : Root, s.ftl.rootOf (p.param 0 4) = some r ∧
    r.kind = .snapshot ∧
    r.state = .active ∧
    r.sealed_ = true ∧
    s.ticketClock peerClock < r.until_) ∧
    (∃ (b : Binding) (tag : Nat) (peer : PeerAnswer) (peerClock : Nat) (s : State),
    ∃ p : Packet, s.cpi.packet b tag 0x0402 = some p ∧
    ∃ r : Root, s.ftl.rootOf (p.param 0 4) = some r ∧
    r.kind = .snapshot ∧
    r.state = .active ∧
    r.sealed_ = false ∧
    (s.paired = true → peer.status = .ok) ∧
    ∃ u : State, u = deleteRoot r (pairBase p s) ∧
    s.awaitsAlone = false) :=
  ⟨⟨.cpi, 0, { ws with cpi := { ws.cpi with accepted := [{ aPacket with opcode := 0x0401, params := [0, 0, 0, 0, 0, 0, 0, 0, 1, 0, 0, 0, 0, 0, 0, 0] }] } },
    _, rfl,
    by first | decide | rfl⟩,
   ⟨.cpi, 0, { ws with cpi := { ws.cpi with accepted := [{ aPacket with opcode := 0x0401 }] } },
    _, rfl,
    _, rfl,
    by first | decide | rfl,
    by first | decide | rfl,
    by first | decide | rfl,
    by first | decide | rfl,
    _, rfl,
    by first | decide | rfl,
    by first | decide | rfl,
    by first | decide | rfl,
    by first | decide | rfl⟩,
   ⟨0, false, { aSnapGroup with cut := true }, { ws with repl := { ws.repl with groups := [{ aSnapGroup with cut := true }] } },
    by first | decide | rfl,
    by first | decide | rfl,
    by first | decide | rfl,
    by first | decide | exact fun _ _ => nofun | exact nofun⟩,
   ⟨.cpi, 0, aPeerAnswer, 0, { ws with cpi := { ws.cpi with accepted := [{ aPacket with opcode := 0x0402 }] }, ftl := { ws.ftl with roots := [{ aRoot with kind := .snapshot, state := .active, sealed_ := true, until_ := 1 }] } },
    _, rfl,
    _, rfl,
    by first | decide | rfl,
    by first | decide | rfl,
    by first | decide | rfl,
    by first | decide | rfl⟩,
   ⟨.cpi, 0, aPeerAnswer, 0, { ws with cpi := { ws.cpi with accepted := [{ aPacket with opcode := 0x0402 }] }, ftl := { ws.ftl with roots := [{ aRoot with kind := .snapshot, state := .active, sealed_ := false }] } },
    _, rfl,
    _, rfl,
    by first | decide | rfl,
    by first | decide | rfl,
    by first | decide | rfl,
    by first | decide | exact fun _ _ => nofun | exact nofun,
    _, rfl,
    by first | decide | rfl⟩⟩

theorem meets_SnapshotAndCloneCommands_2 :
    (∃ (b : Binding) (tag : Nat) (peer : PeerAnswer) (s : State),
    ∃ p : Packet, s.cpi.packet b tag 0x0403 = some p ∧
    ∃ r : Root, s.ftl.rootOf (p.param 0 4) = some r ∧
    r.kind = .snapshot ∧
    r.state = .active ∧
    r.sealed_ = true ∧
    p.param 8 8 < r.until_) ∧
    (∃ (b : Binding) (tag : Nat) (peer : PeerAnswer) (s : State),
    ∃ p : Packet, s.cpi.packet b tag 0x0403 = some p ∧
    ∃ r : Root, s.ftl.rootOf (p.param 0 4) = some r ∧
    r.kind = .snapshot ∧
    r.state = .active ∧
    (r.sealed_ = false ∨ r.until_ ≤ p.param 8 8) ∧
    p.param 8 8 ≠ 0 ∧
    (s.paired = true → peer.status = .ok) ∧
    s.awaitsAlone = false) ∧
    (∃ (b : Binding) (tag : Nat) (peer : PeerAnswer) (s : State),
    ∃ p : Packet, s.cpi.packet b tag 0x0404 = some p ∧
    ∃ r : Root, s.ftl.rootOf (p.param 0 4) = some r ∧
    r.kind = .snapshot ∧
    r.state = .active ∧
    s.ftl.nsidUsed (p.param 4 4) = false ∧
    s.badNamespace (p.param 4 4) (p.param 8 2) (p.param 0x0A 2) 4 8 0x0A = none ∧
    s.ftl.volumes < 65536 ∧
    (s.paired = true → peer.status = .ok) ∧
    ∃ u : State, u = pairBase p s ∧
    ∃ c : Root, c = { Root.blank u.ftl.nextRoot .clone with
      nsid := p.param 4 4, subsystem := p.param 8 2, ana := p.param 0x0A 2, domain := r.domain, layout := r.layout
      service := r.service, size := r.size, parent := r.id, fenceEpoch := u.epoch, created := u.clockUs
      format := r.format, piType := r.piType, leaves := r.leaves } ∧
    s.awaitsAlone = false) ∧
    (∃ (b : Binding) (tag : Nat) (peer : PeerAnswer) (s : State),
    ∃ p : Packet, s.cpi.packet b tag 0x0404 = some p ∧
    ∃ r : Root, s.ftl.rootOf (p.param 0 4) = some r ∧
    r.kind ≠ .snapshot) ∧
    (∃ (b : Binding) (tag : Nat) (s : State),
    ∃ p : Packet, s.cpi.packet b tag 0x0405 = some p ∧
    ∃ r : Root, s.ftl.rootOf (p.param 0 4) = some r) :=
  ⟨⟨.cpi, 0, aPeerAnswer, { ws with cpi := { ws.cpi with accepted := [{ aPacket with opcode := 0x0403 }] }, ftl := { ws.ftl with roots := [{ aRoot with kind := .snapshot, state := .active, sealed_ := true, until_ := 1 }] } },
    _, rfl,
    _, rfl,
    by first | decide | rfl,
    by first | decide | rfl,
    by first | decide | rfl,
    by first | decide | rfl⟩,
   ⟨.cpi, 0, aPeerAnswer, { ws with cpi := { ws.cpi with accepted := [{ aPacket with opcode := 0x0403, params := [0, 0, 0, 0, 0, 0, 0, 0, 5, 0, 0, 0, 0, 0, 0, 0] }] }, ftl := { ws.ftl with roots := [{ aRoot with kind := .snapshot, state := .active }] } },
    _, rfl,
    _, rfl,
    by first | decide | rfl,
    by first | decide | rfl,
    by first | decide | rfl,
    by first | decide | rfl,
    by first | decide | exact fun _ _ => nofun | exact nofun,
    by first | decide | rfl⟩,
   ⟨.cpi, 0, aPeerAnswer, { ws with hq := { ws.hq with subsystems := [⟨0, []⟩] }, cpi := { ws.cpi with accepted := [{ aPacket with opcode := 0x0404, params := [0, 0, 0, 0, 1, 0, 0, 0] }] }, ftl := { ws.ftl with roots := [{ aRoot with kind := .snapshot, state := .active }] } },
    _, rfl,
    _, rfl,
    by first | decide | rfl,
    by first | decide | rfl,
    by first | decide | rfl,
    by first | decide | rfl,
    by first | decide | rfl,
    by first | decide | exact fun _ _ => nofun | exact nofun,
    _, rfl,
    _, rfl,
    by first | decide | rfl⟩,
   ⟨.cpi, 0, aPeerAnswer, { ws with cpi := { ws.cpi with accepted := [{ aPacket with opcode := 0x0404 }] }, ftl := { ws.ftl with roots := [aRoot] } },
    _, rfl,
    _, rfl,
    by first | decide | rfl⟩,
   ⟨.cpi, 0, { ws with cpi := { ws.cpi with accepted := [{ aPacket with opcode := 0x0405 }] }, ftl := { ws.ftl with roots := [aRoot] } },
    _, rfl,
    _, rfl⟩⟩

theorem meets_ReplicationPacketCommands_1 :
    (∃ (b : Binding) (tag : Nat) (s : State),
    ∃ p : Packet, s.cpi.packet b tag 0x0501 = some p ∧
    (s.repl.partners.filter (fun x => x.chip != p.param 0 2)).length < 256) ∧
    (∃ (b : Binding) (tag : Nat) (s : State),
    ∃ p : Packet, s.cpi.packet b tag 0x0501 = some p ∧
    256 ≤ (s.repl.partners.filter (fun x => x.chip != p.param 0 2)).length) ∧
    (∃ (b : Binding) (tag : Nat) (s : State),
    ∃ p : Packet, s.cpi.packet b tag 0x0502 = some p ∧
    s.repl.partners.any (fun x => x.chip == p.param 0 2) = true ∧
    ∃ u : State, u = { s with repl := { s.repl with partners := s.repl.partners.filter (fun x => x.chip != p.param 0 2) } }) ∧
    (∃ (b : Binding) (tag : Nat) (s : State),
    ∃ p : Packet, s.cpi.packet b tag 0x0503 = some p ∧
    s.pool.isSome = true ∧
    s.repl.partners.any (fun x => x.chip == p.param 0 2) = true ∧
    ∃ reg : Nat, s.repl.freeReg = some reg) ∧
    (∃ (b : Binding) (tag : Nat) (s : State),
    ∃ p : Packet, s.cpi.packet b tag 0x0504 = some p ∧
    ∃ x : Session, s.repl.session (p.param 0 2) = some x ∧
    x.step = .isOpen) :=
  ⟨⟨.cpi, 0, { ws with cpi := { ws.cpi with accepted := [{ aPacket with opcode := 0x0501 }] } },
    _, rfl,
    by first | decide | rfl⟩,
   ⟨.cpi, 0, { ws with repl := { ws.repl with partners := List.replicate 256 ⟨1, []⟩ }, cpi := { ws.cpi with accepted := [{ aPacket with opcode := 0x0501 }] } },
    _, rfl,
    by first | decide | rfl⟩,
   ⟨.cpi, 0, { ws with repl := { ws.repl with partners := [⟨0, []⟩] }, cpi := { ws.cpi with accepted := [{ aPacket with opcode := 0x0502 }] } },
    _, rfl,
    by first | decide | rfl,
    _, rfl⟩,
   ⟨.cpi, 0, { ws with pool := some aPool, repl := { ws.repl with partners := [⟨0, []⟩] }, cpi := { ws.cpi with accepted := [{ aPacket with opcode := 0x0503 }] } },
    _, rfl,
    by first | decide | rfl,
    by first | decide | rfl,
    _, rfl⟩,
   ⟨.cpi, 0, { ws with cpi := { ws.cpi with accepted := [{ aPacket with opcode := 0x0504 }] }, repl := { ws.repl with sessions := [{ aSession with step := .isOpen }] } },
    _, rfl,
    _, rfl,
    by first | decide | rfl⟩⟩

theorem meets_ReplicationPacketCommands_2 :
    (∃ (b : Binding) (tag : Nat) (s : State),
    ∃ p : Packet, s.cpi.packet b tag 0x0505 = some p ∧
    ∃ x : Session, s.repl.session (p.param 0 2) = some x ∧
    ∃ r : Root, s.ftl.rootOf (p.param 4 4) = some r ∧
    x.step = .isOpen ∧
    x.closing = false ∧
    r.kind = .snapshot ∧
    r.state = .active ∧
    p.param 8 4 = 0) ∧
    (∃ (b : Binding) (tag : Nat) (s : State),
    ∃ p : Packet, s.cpi.packet b tag 0x0506 = some p ∧
    ∃ mine : List SyncRel, mine = s.repl.syncs.filter (fun y => y.source && y.session == p.param 0 2 && (syncEntries p == [] || y.roots.any (fun r => (syncEntries p).any (fun e => e.1 == r.1)))) ∧
    s.repl.sessions.any (fun x => x.reg == p.param 0 2 && x.step == .isOpen) = true ∧
    p.param 4 2 ≤ 1000 ∧
    p.param 2 1 = 3 ∧
    mine ≠ []) ∧
    (∃ (b : Binding) (tag : Nat) (s : State),
    ∃ p : Packet, s.cpi.packet b tag 0x0507 = some p ∧
    ∃ x : Session, s.repl.session (p.param 0 2) = some x ∧
    ∃ r : Root, s.ftl.rootOf (p.param 4 4) = some r ∧
    x.step = .isOpen ∧
    x.closing = false ∧
    p.param 2 2 < 4096 ∧
    r.kind = .volume ∧
    (sortBy (fun a c => a.fenceEpoch ≤ c.fenceEpoch) (s.ftl.roots.filter (fun q => q.kind == .snapshot && q.parent == r.id && q.state == .active))).map (·.id) = []) ∧
    (∃ (b : Binding) (tag : Nat) (m : Migration) (s : State),
    ∃ p : Packet, s.cpi.packet b tag 0x0508 = some p ∧
    s.repl.migrations.find? (fun m => m.session == p.param 0 2 && m.root == p.param 4 4) = some m ∧
    ∃ r : Root, s.ftl.rootOf (p.param 4 4) = some r ∧
    p.param 2 2 < 1024 ∧
    s.ftl.roots.any (fun q => q.isVolume && q.nsid != 0 && q.id != p.param 4 4 && q.ana == p.param 2 2) = false) ∧
    (∃ (b : Binding) (tag : Nat) (y : SyncRel) (s : State),
    ∃ p : Packet, s.cpi.packet b tag 0x0509 = some p ∧
    (s.repl.syncs.filter (fun y => y.source && (p.param 0 2 == 0xFFFF || y.session == p.param 0 2))).find? (·.fractured) = some y ∧
    p.param 0 2 = 0xFFFF) :=
  ⟨⟨.cpi, 0, { ws with cpi := { ws.cpi with accepted := [{ aPacket with opcode := 0x0505, params := [0, 0, 0, 0, 0, 0, 0, 0, 0, 0, 0, 0] }] }, repl := { ws.repl with sessions := [{ aSession with step := .isOpen, closing := false }] }, ftl := { ws.ftl with roots := [{ aRoot with kind := .snapshot, state := .active }] } },
    _, rfl,
    _, rfl,
    _, rfl,
    by first | decide | rfl,
    by first | decide | rfl,
    by first | decide | rfl,
    by first | decide | rfl,
    by first | decide | rfl⟩,
   ⟨.cpi, 0, { ws with repl := { ws.repl with syncs := [{ aSyncRel with source := true }], sessions := [{ aSession with step := .isOpen }] }, cpi := { ws.cpi with accepted := [{ aPacket with opcode := 0x0506, params := [0, 0, 3, 0, 232, 3] }] } },
    _, rfl,
    _, rfl,
    by first | decide | rfl,
    by first | decide | rfl,
    by first | decide | rfl,
    by first | decide | rfl⟩,
   ⟨.cpi, 0, { ws with cpi := { ws.cpi with accepted := [{ aPacket with opcode := 0x0507 }] }, repl := { ws.repl with sessions := [{ aSession with step := .isOpen, closing := false }] }, ftl := { ws.ftl with roots := [{ aRoot with kind := .volume }] } },
    _, rfl,
    _, rfl,
    _, rfl,
    by first | decide | rfl,
    by first | decide | rfl,
    by first | decide | rfl,
    by first | decide | rfl,
    by first | decide | rfl⟩,
   ⟨.cpi, 0, aMigration, { ws with repl := { ws.repl with migrations := [aMigration] }, cpi := { ws.cpi with accepted := [{ aPacket with opcode := 0x0508, params := [0, 0, 255, 3] }] }, ftl := { ws.ftl with roots := [aRoot] } },
    _, rfl,
    by first | decide | rfl,
    _, rfl,
    by first | decide | rfl,
    by first | decide | rfl⟩,
   ⟨.cpi, 0, { aSyncRel with source := true, fractured := true }, { ws with repl := { ws.repl with syncs := [{ aSyncRel with source := true, fractured := true }] }, cpi := { ws.cpi with accepted := [{ aPacket with opcode := 0x0509, params := [255, 255] }] } },
    _, rfl,
    by first | decide | rfl,
    by first | decide | rfl⟩⟩

theorem meets_ReplicationPacketCommands_3 :
    ∃ (b : Binding) (tag : Nat) (s : State),
    ∃ p : Packet, s.cpi.packet b tag 0x0509 = some p ∧
    (s.repl.syncs.filter (fun y => y.source && (p.param 0 2 == 0xFFFF || y.session == p.param 0 2))).find? (·.fractured) = none ∧
    p.param 0 2 = 0xFFFF :=
  ⟨.cpi, 0, { ws with cpi := { ws.cpi with accepted := [{ aPacket with opcode := 0x0509, params := [255, 255] }] } },
    _, rfl,
    by first | decide | rfl,
    by first | decide | rfl⟩

theorem meets_SessionCommands_1 :
    (∃ (port : Nat) (message : Bytes) (s : State),
    s.repl.freeReg = none) ∧
    (∃ (reg : Nat) (message : Bytes) (s : State),
    ∃ x : Session, s.repl.session reg = some x ∧
    x.step = .offered ∧
    acceptedOf "BIRCA-SESS" x.offer x.xPriv x.kem message = none) ∧
    (∃ (reg : Nat) (message : Bytes) (s : State),
    ∃ x : Session, s.repl.session reg = some x ∧
    x.offerer = false ∧
    x.step = .accepted ∧
    sessionRefusal x message s = some 3) ∧
    (∃ (reg : Nat) (status : Nat) (s : State),
    ∃ x : Session, s.repl.session reg = some x ∧
    x.step ≠ .isOpen) ∧
    (∃ (reg : Nat) (s : State),
    ∃ x : Session, s.repl.session reg = some x ∧
    x.step ≠ .isOpen ∧
    x.at_ + secBells 2 ≤ s.tt.now) :=
  ⟨⟨0, [], { ws with repl := { ws.repl with sessions := (List.range 64).map (fun i => { aSession with reg := i }) } },
    by first | decide | rfl⟩,
   ⟨0, [], { ws with repl := { ws.repl with sessions := [{ aSession with step := .offered }] } },
    _, rfl,
    by first | decide | rfl,
    by first | decide | rfl⟩,
   ⟨0, [], { ws with repl := { ws.repl with sessions := [{ aSession with offerer := false, step := .accepted }] } },
    _, rfl,
    by first | decide | rfl,
    by first | decide | rfl,
    by first | decide | rfl⟩,
   ⟨0, 0, { ws with repl := { ws.repl with sessions := [aSession] } },
    _, rfl,
    by first | decide | rfl⟩,
   ⟨0, { ws with repl := { ws.repl with sessions := [aSession] } },
    _, rfl,
    by first | decide | rfl,
    by first | decide | rfl⟩⟩

theorem meets_SessionCommands_2 :
    (∃ (reg : Nat) (s : State),
    ∃ x : Session, s.repl.session reg = some x ∧
    ∃ new : Nat, s.repl.freeReg = some new ∧
    x.step = .isOpen ∧
    x.offerer = true ∧
    x.closing = false ∧
    s.repl.sessions.all (fun y => y.replaces != some reg) = true ∧
    (x.opened + 86400 ≤ s.clockSec ∨ 2 ^ 40 ≤ x.sent ∨ 2 ^ 40 ≤ x.received)) ∧
    (∃ (reg : Nat) (s : State),
    ∃ x : Session, s.repl.session reg = some x ∧
    x.text ≠ [] ∧
    x.textAt.any (fun t => t + 1 ≤ s.tt.now) = true ∧
    x.text.length < 65536) :=
  ⟨⟨0, { ws with trust := { ws.trust with clockNs := 86400000000000 }, repl := { ws.repl with sessions := [{ aSession with step := .isOpen, offerer := true, closing := false }] } },
    _, rfl,
    _, rfl,
    by first | decide | rfl,
    by first | decide | rfl,
    by first | decide | rfl,
    by first | decide | rfl,
    by first | decide | rfl⟩,
   ⟨0, { ws with repl := { ws.repl with sessions := [{ aSession with text := [0], textAt := some 0 }] } },
    _, rfl,
    by first | decide | rfl,
    by first | decide | rfl,
    by first | decide | rfl⟩⟩

theorem meets_TransferCommands_1 :
    (∃ (session : Nat) (transfer : Nat) (root : Nat) (base : Nat) (snap : Nat) (fenceEpoch : Nat) (size : Nat) (domain : Nat) (flags : Nat) (until_ : Nat) (pool : Bytes) (s : State),
    ∃ x : Session, s.repl.session session = some x ∧
    x.step = .isOpen ∧
    ∃ t0 : Transfer, t0 = ⟨session, transfer, false, .received, base, snap, 0, flags, until_, [], [], [], [], none, [], false⟩ ∧
    ∃ u : State, u = setSession { x with received := x.received + 80 } s ∧
    s.ftl.domainRec domain = none) ∧
    (∃ (session : Nat) (transfer : Nat) (entries : Bytes) (s : State),
    ∃ y : Transfer, s.repl.transfer session transfer false = some y ∧
    ∃ x : Session, s.repl.session session = some x ∧
    ∃ dom : Nat, dom = ((s.ftl.rootOf y.replica).map (·.domain)).getD 0 ∧
    ∃ z : Transfer, ∃ u : State, ((List.range (entries.length / 32)).map (fun i => slice entries (32 * i) 32)).foldl (applyEntry y dom)
      ({ y with wants := [] }, setSession { x with received := x.received + entries.length + 24 } s) = (z, u)) ∧
    (∃ (session : Nat) (transfer : Nat) (grains : List Nat) (l : List Nat) (s : State),
    ∃ y : Transfer, s.repl.transfer session transfer true = some y ∧
    s.ftl.rootOf y.snap = none ∧
    ∃ z : Transfer, z = { y with asked := true, wants := y.wants ++ [] }) ∧
    (∃ (session : Nat) (transfer : Nat) (grain : Nat) (tier : Nat) (slot : Bytes) (tail : Bytes) (s : State),
    ∃ y : Transfer, s.repl.transfer session transfer false = some y ∧
    ∃ x : Session, s.repl.session session = some x ∧
    s.admitsWrite [(4 * grain, 4)] 4 = true ∧
    ∃ o : SkxResult, o = skxDecode (fitBytes (4096 * tier) slot) tier [0, 1, 2, 3] ∧
    ∃ u : State, u = setSession { x with received := x.received + 32 + slot.length + tail.length } s ∧
    o.errors = [] ∧
    o.released.length = 4) ∧
    (∃ (session : Nat) (transfer : Nat) (entries : Nat) (digest : Bytes) (s : State),
    ∃ y : Transfer, s.repl.transfer session transfer false = some y ∧
    ∃ x : Session, s.repl.session session = some x ∧
    ∃ u : State, u = setTransfer { y with ended := some (entries, digest) } (setSession { x with received := x.received + 56 } s) ∧
    ∃ w : State × SnapGroup, w = startGroup (.replica session transfer) (2 ^ 63 * u.sys.slot + u.repl.nextGroup) [y.replica] 0
      { u with repl := { u.repl with nextGroup := u.repl.nextGroup + 1 } }) :=
  ⟨⟨0, 0, 0, 0, 0, 0, 0, 0, 0, 0, [], { ws with repl := { ws.repl with sessions := [{ aSession with step := .isOpen }] } },
    _, rfl,
    by first | decide | rfl,
    _, rfl,
    _, rfl,
    by first | decide | rfl⟩,
   ⟨0, 0, [], { ws with repl := { ws.repl with transfers := [aTransfer], sessions := [aSession] } },
    _, rfl,
    _, rfl,
    _, rfl,
    _, _, rfl⟩,
   ⟨0, 0, [], [], { ws with repl := { ws.repl with transfers := [{ aTransfer with source := true }] } },
    _, rfl,
    by first | decide | rfl,
    _, rfl⟩,
   ⟨0, 0, 0, 4, [], [], { ws with pool := some { aPool with stagingGib := 1 }, repl := { ws.repl with transfers := [aTransfer], sessions := [aSession] } },
    _, rfl,
    _, rfl,
    by first | decide | rfl,
    _, rfl,
    _, rfl,
    by first | decide | rfl,
    by first | decide | rfl⟩,
   ⟨0, 0, 0, [], { ws with repl := { ws.repl with transfers := [aTransfer], sessions := [aSession] } },
    _, rfl,
    _, rfl,
    _, rfl,
    _, rfl⟩⟩

theorem meets_TransferCommands_2 :
    (∃ (session : Nat) (transfer : Nat) (status : Nat) (snapshot : Nat) (digest : Bytes) (b : Binding) (tag : Nat) (s : State),
    transfer ≠ 0 ∧
    ∃ y : Transfer, s.repl.transfer session transfer true = some y ∧
    status = 0 ∧
    y.why = .packet b tag ∧
    ∃ p : Packet, (dropTransfer y s).cpi.packet b tag 0x0505 = some p) ∧
    (∃ (session : Nat) (transfer : Nat) (status : Nat) (detail : Bytes) (s : State),
    transfer ≠ 0 ∧
    ∃ y : Transfer, s.repl.transfer session transfer true = some y ∧
    status ≠ 0x0670) ∧
    (∃ (session : Nat) (transfer : Nat) (status : Nat) (detail : Bytes) (s : State),
    transfer ≠ 0 ∧
    s.repl.transfer session transfer true = none ∧
    ∃ y : Transfer, s.repl.transfer session transfer false = some y) ∧
    (∃ (session : Nat) (domain : Nat) (wrapped : Bytes) (check : Bytes) (s : State),
    ∃ x : Session, s.repl.session session = some x ∧
    s.repl.adoptions.find? (fun a => a.domain == domain && a.session == session) = none) ∧
    (∃ (session : Nat) (domain : Nat) (wrapped : Bytes) (check : Bytes) (a : Adoption) (s : State),
    ∃ x : Session, s.repl.session session = some x ∧
    s.repl.adoptions.find? (fun a => a.domain == domain && a.session == session) = some a ∧
    kmac256 x.secret (leBytes 2 domain ++ wrapped) 32 (ascii "BIRCA-ADOPT-C") = check ∧
    ∃ u : State, u = { s with repl := { s.repl with adoptions := s.repl.adoptions.filter (fun y => y.domain != domain) } } ∧
    u.cpi.packet a.who.1 a.who.2 0x0306 = none) :=
  ⟨⟨0, 1, 0, 0, [], .cpi, 0, { ws with repl := { ws.repl with transfers := [{ aTransfer with source := true, number := 1, why := .packet .cpi 0 }] }, cpi := { ws.cpi with accepted := [{ aPacket with opcode := 0x0505 }] } },
    by first | decide | rfl,
    _, rfl,
    by first | decide | rfl,
    by first | decide | rfl,
    _, rfl⟩,
   ⟨0, 1, 0, [], { ws with repl := { ws.repl with transfers := [{ aTransfer with source := true, number := 1 }] } },
    by first | decide | rfl,
    _, rfl,
    by first | decide | rfl⟩,
   ⟨0, 1, 0, [], { ws with repl := { ws.repl with transfers := [{ aTransfer with number := 1 }] } },
    by first | decide | rfl,
    by first | decide | rfl,
    _, rfl⟩,
   ⟨0, 0, [], [], { ws with repl := { ws.repl with sessions := [aSession] } },
    _, rfl,
    by first | decide | rfl⟩,
   ⟨0, 0, [], kmac256 [] (leBytes 2 0 ++ []) 32 (ascii "BIRCA-ADOPT-C"), aAdoption, { ws with repl := { ws.repl with adoptions := [aAdoption], sessions := [aSession] } },
    _, rfl,
    by first | decide | rfl,
    by first | decide | rfl,
    _, rfl,
    by first | decide | rfl⟩⟩

theorem meets_TransferCommands_3 :
    ∃ (domain : Nat) (a : Adoption) (s : State),
    s.repl.adoptions.find? (fun a => a.domain == domain) = some a ∧
    a.since + secBells 60 ≤ s.tt.now ∧
    ∃ p : Packet, s.cpi.packet a.who.1 a.who.2 0x0306 = some p :=
  ⟨0, aAdoption, { ws with repl := { ws.repl with adoptions := [aAdoption] }, cpi := { ws.cpi with accepted := [{ aPacket with opcode := 0x0306 }] } },
    by first | decide | rfl,
    by first | decide | rfl,
    _, rfl⟩

theorem meets_SyncReplicationCommands_1 :
    (∃ (session : Nat) (root : Nat) (count : Nat) (seq : Nat) (lba : Nat) (blocks : Bytes) (pi : Bytes) (r : Root) (s : State),
    ∃ x : Session, s.repl.session session = some x ∧
    s.ftl.roots.find? (fun r => r.kind == .replica && r.sourceRoot == root) = some r ∧
    x.step = .isOpen ∧
    s.admitsWrite [(lba, count)] count = true ∧
    ∃ u : State, u = setSession { x with received := x.received + 40 + blocks.length + pi.length } s ∧
    ∃ rel : SyncRel, u.repl.syncs.find? (fun y => !y.source && y.session == session) = some rel ∧
    rel.roots.any (fun p => p.1 == root) = true ∧
    ∃ base : Nat, getKey root rel.bases = some base ∧
    u.repl.replicas.contains r.id = true ∧
    u.repl.syncs.any (fun y => !y.source && y.session == session) = true) ∧
    (∃ (session : Nat) (root : Nat) (seq : Nat) (s : State),
    ∃ x : Session, s.repl.session session = some x) ∧
    (∃ (session : Nat) (root : Nat) (y : SyncRel) (s : State),
    s.repl.syncs.find? (fun y => y.source && y.session == session && !y.fractured && y.roots.any (fun p => p.1 == root)) = some y ∧
    y.stall = false ∧
    y.waiting.any (fun w => !w.acked && w.at_ + msBells y.timeout ≤ s.tt.now) = true) ∧
    (∃ (session : Nat) (snapshot : Nat) (bell : Nat) (y : SyncRel) (s : State),
    s.repl.syncs.find? (fun y => !y.source && y.session == session) = some y ∧
    y.roots = [] ∧
    ∃ w : State × SnapGroup, w = startGroup (.checkpoint session false) (2 ^ 63 * s.sys.slot + s.repl.nextGroup) [] 0
      { s with repl := { s.repl with nextGroup := s.repl.nextGroup + 1 } }) ∧
    (∃ (session : Nat) (y : SyncRel) (s : State),
    s.repl.syncs.filter (fun y => y.source && y.session == session && !y.fractured && y.checkAt + secBells 60 ≤ s.tt.now &&
      !s.repl.groups.any (fun g => g.why == .checkpoint session true && g.roots == y.roots.map (·.1))) = [y]) :=
  ⟨⟨0, 0, 0, 0, 0, [], [], { aRoot with kind := .replica }, { ws with ftl := { ws.ftl with roots := [{ aRoot with kind := .replica }] }, repl := { ws.repl with syncs := [{ aSyncRel with roots := [(0, 0)], bases := [(0, 5)] }], replicas := [0], sessions := [{ aSession with step := .isOpen }] } },
    _, rfl,
    by first | decide | rfl,
    by first | decide | rfl,
    by first | decide | rfl,
    _, rfl,
    _, rfl,
    by first | decide | rfl,
    _, rfl,
    by first | decide | rfl,
    by first | decide | rfl⟩,
   ⟨0, 0, 0, { ws with repl := { ws.repl with sessions := [aSession] } },
    _, rfl⟩,
   ⟨0, 0, { aSyncRel with source := true, roots := [(0, 0)], waiting := [⟨0, 0, 0, false, none⟩] }, { ws with repl := { ws.repl with syncs := [{ aSyncRel with source := true, roots := [(0, 0)], waiting := [⟨0, 0, 0, false, none⟩] }] } },
    by first | decide | rfl,
    by first | decide | rfl,
    by first | decide | rfl⟩,
   ⟨0, 0, 0, aSyncRel, { ws with repl := { ws.repl with syncs := [aSyncRel] } },
    by first | decide | rfl,
    by first | decide | rfl,
    _, rfl⟩,
   ⟨0, { aSyncRel with source := true }, { ws with repl := { ws.repl with syncs := [{ aSyncRel with source := true }] } },
    by first | decide | rfl⟩⟩

theorem meets_SyncReplicationCommands_2 :
    (∃ (session : Nat) (y : SyncRel) (s : State),
    s.repl.syncs.filter (fun y => y.source && y.session == session && y.fractured && y.triedAt + secBells 60 ≤ s.tt.now &&
      s.repl.sessions.any (fun x => x.reg == session && x.step == .isOpen) && !s.repl.groups.any (fun g => g.why == .resume session) &&
      !s.repl.transfers.any (fun t => y.roots.any (fun p => t.why == .resume p.1))) = [y]) ∧
    (∃ (session : Nat) (root : Nat) (m : Migration) (s : State),
    s.repl.migrations.find? (fun m => m.session == session && m.root == root) = some m ∧
    m.cutover = none ∧
    m.lastAt + secBells 60 ≤ s.tt.now ∧
    s.repl.sessions.any (fun x => x.reg == session && x.step == .isOpen) = true ∧
    s.repl.groups.all (fun g => g.why != .migration session root) = true ∧
    s.repl.transfers.all (fun t => t.why != .migration root) = true ∧
    m.queue = []) :=
  ⟨⟨0, { aSyncRel with source := true, fractured := true }, { ws with repl := { ws.repl with syncs := [{ aSyncRel with source := true, fractured := true }], sessions := [{ aSession with step := .isOpen }] } },
    by first | decide | rfl⟩,
   ⟨0, 0, aMigration, { ws with repl := { ws.repl with migrations := [aMigration], sessions := [{ aSession with step := .isOpen }] } },
    by first | decide | rfl,
    by first | decide | rfl,
    by first | decide | rfl,
    by first | decide | rfl,
    by first | decide | rfl,
    by first | decide | rfl,
    by first | decide | rfl⟩⟩

theorem meets_DiagnosticPacketCommands_1 :
    (∃ (b : Binding) (tag : Nat) (s : State),
    ∃ p : Packet, s.cpi.packet b tag 0x0801 = some p ∧
    p.param 1 1 ≠ 8) ∧
    (∃ (b : Binding) (tag : Nat) (s : State),
    ∃ p : Packet, s.cpi.packet b tag 0x0802 = some p ∧
    p.param 0 1 = 18 ∧
    p.param 1 1 = 0) ∧
    (∃ (b : Binding) (tag : Nat) (s : State),
    ∃ p : Packet, s.cpi.packet b tag 0x0803 = some p ∧
    p.param 1 1 = 1) ∧
    (∃ (b : Binding) (tag : Nat) (s : State),
    ∃ p : Packet, s.cpi.packet b tag 0x0803 = some p ∧
    p.param 1 1 ≠ 1) ∧
    (∃ (b : Binding) (tag : Nat) (s : State),
    ∃ p : Packet, s.cpi.packet b tag 0x0804 = some p ∧
    p.param 1 1 ≠ 3 ∧
    s.dram.evacPhase = .none ∧
    s.dram.evacNext = none ∧
    (s.dram.ch (p.param 0 1)).state = .inService) :=
  ⟨⟨.cpi, 0, { ws with cpi := { ws.cpi with accepted := [{ aPacket with opcode := 0x0801 }] } },
    _, rfl,
    by first | decide | rfl⟩,
   ⟨.cpi, 0, { ws with cpi := { ws.cpi with accepted := [{ aPacket with opcode := 0x0802, params := [18, 0] }] } },
    _, rfl,
    by first | decide | rfl,
    by first | decide | rfl⟩,
   ⟨.cpi, 0, { ws with cpi := { ws.cpi with accepted := [{ aPacket with opcode := 0x0803, params := [0, 1] }] } },
    _, rfl,
    by first | decide | rfl⟩,
   ⟨.cpi, 0, { ws with cpi := { ws.cpi with accepted := [{ aPacket with opcode := 0x0803 }] } },
    _, rfl,
    by first | decide | rfl⟩,
   ⟨.cpi, 0, { ws with dram := { ws.dram with evacPhase := .none, evacNext := none, channels := [{ aChannel with state := .inService }] }, cpi := { ws.cpi with accepted := [{ aPacket with opcode := 0x0804, params := [0, 1] }] } },
    _, rfl,
    by first | decide | rfl,
    by first | decide | rfl,
    by first | decide | rfl,
    by first | decide | rfl⟩⟩

theorem meets_DiagnosticPacketCommands_2 :
    (∃ (b : Binding) (tag : Nat) (s : State),
    ∃ p : Packet, s.cpi.packet b tag 0x0804 = some p ∧
    p.param 1 1 ≠ 3 ∧
    s.dram.evacNext.isSome = true) ∧
    (∃ (b : Binding) (tag : Nat) (s : State),
    ∃ p : Packet, s.cpi.packet b tag 0x0805 = some p ∧
    p.param 1 1 = 1) ∧
    (∃ (b : Binding) (tag : Nat) (s : State),
    ∃ p : Packet, s.cpi.packet b tag 0x0805 = some p ∧
    p.param 1 1 ≠ 1) ∧
    (∃ (b : Binding) (tag : Nat) (dump : Bytes) (s : State),
    ∃ p : Packet, s.cpi.packet b tag 0x0806 = some p ∧
    s.cpi.blocked [0x03000000 + p.param 0 1] (fun _ => false) = none) ∧
    (∃ (b : Binding) (tag : Nat) (dump : Bytes) (s : State),
    ∃ p : Packet, s.cpi.packet b tag 0x0806 = some p ∧
    ∃ k : Claim, s.cpi.blocked [0x03000000 + p.param 0 1] (fun _ => false) = some k) :=
  ⟨⟨.cpi, 0, { ws with dram := { ws.dram with evacNext := some (0, true) }, cpi := { ws.cpi with accepted := [{ aPacket with opcode := 0x0804 }] } },
    _, rfl,
    by first | decide | rfl,
    by first | decide | rfl⟩,
   ⟨.cpi, 0, { ws with cpi := { ws.cpi with accepted := [{ aPacket with opcode := 0x0805, params := [0, 1] }] } },
    _, rfl,
    by first | decide | rfl⟩,
   ⟨.cpi, 0, { ws with cpi := { ws.cpi with accepted := [{ aPacket with opcode := 0x0805 }] } },
    _, rfl,
    by first | decide | rfl⟩,
   ⟨.cpi, 0, [], { ws with cpi := { ws.cpi with accepted := [{ aPacket with opcode := 0x0806 }] } },
    _, rfl,
    by first | decide | rfl⟩,
   ⟨.cpi, 0, [], { ws with cpi := { ws.cpi with claims := [{ aClaim with resource := 0x03000000 }], accepted := [{ aPacket with opcode := 0x0806 }] } },
    _, rfl,
    _, rfl⟩⟩

theorem meets_DiagnosticPacketCommands_3 :
    (∃ (b : Binding) (tag : Nat) (s : State),
    ∃ p : Packet, s.cpi.packet b tag 0x0807 = some p ∧
    p.param 2 1 = 4) ∧
    (∃ (b : Binding) (tag : Nat) (s : State),
    ∃ p : Packet, s.cpi.packet b tag 0x0807 = some p ∧
    p.param 2 1 = 2 ∧
    isLed (p.param 0 2) = true ∧
    s.cpi.blocked [ledResource (p.param 0 2)] (fun k => k.opcode == 0x0807) = none) ∧
    (∃ (b : Binding) (tag : Nat) (s : State),
    ∃ p : Packet, s.cpi.packet b tag 0x0808 = some p ∧
    ∃ ctrs : List Nat, ctrs = (List.range (p.param 4 2)).map (fun i => p.param (16 + 4 * i) 4) ∧
    (List.range (p.param 4 2)).find? (fun i => ctrs.getD i 0 < 0x04000000 || 0x04000000 + 320 ≤ ctrs.getD i 0) = none ∧
    s.cpi.blocked ([0x03000000 + p.param 0 1, 0x02000000 + p.param 1 1] ++ ctrs) (fun _ => false) = none) :=
  ⟨⟨.cpi, 0, { ws with cpi := { ws.cpi with accepted := [{ aPacket with opcode := 0x0807, params := [0, 0, 4] }] } },
    _, rfl,
    by first | decide | rfl⟩,
   ⟨.cpi, 0, { ws with cpi := { ws.cpi with accepted := [{ aPacket with opcode := 0x0807, params := [74, 1, 2] }] } },
    _, rfl,
    by first | decide | rfl,
    by first | decide | rfl,
    by first | decide | rfl⟩,
   ⟨.cpi, 0, { ws with cpi := { ws.cpi with accepted := [{ aPacket with opcode := 0x0808 }] } },
    _, rfl,
    _, rfl,
    by first | decide | rfl,
    by first | decide | rfl⟩⟩

theorem meets_ObservabilityCommands_1 :
    (∃ (b : Binding) (tag : Nat) (s : State),
    ∃ p : Packet, s.cpi.packet b tag 0x0A01 = some p) ∧
    (∃ (b : Binding) (tag : Nat) (s : State),
    ∃ p : Packet, s.cpi.packet b tag 0x0A02 = some p ∧
    p.param 0 1 = 1) ∧
    (∃ (b : Binding) (tag : Nat) (s : State),
    ∃ p : Packet, s.cpi.packet b tag 0x0A02 = some p ∧
    p.param 0 1 ≠ 1) ∧
    (∃ (s : State),
    s.diary.frozen = true ∧
    s.diary.frozenAt + secBells 60 ≤ s.tt.now) ∧
    (∃ (code : Nat) (island : Nat) (arg : Nat) (s : State),
    code % 65536 ≠ 0) :=
  ⟨⟨.cpi, 0, { ws with cpi := { ws.cpi with accepted := [{ aPacket with opcode := 0x0A01 }] } },
    _, rfl⟩,
   ⟨.cpi, 0, { ws with cpi := { ws.cpi with accepted := [{ aPacket with opcode := 0x0A02, params := [1] }] } },
    _, rfl,
    by first | decide | rfl⟩,
   ⟨.cpi, 0, { ws with cpi := { ws.cpi with accepted := [{ aPacket with opcode := 0x0A02 }] } },
    _, rfl,
    by first | decide | rfl⟩,
   ⟨{ ws with diary := { ws.diary with frozen := true } },
    by first | decide | rfl,
    by first | decide | rfl⟩,
   ⟨1, 0, 0, ws,
    by first | decide | rfl⟩⟩

theorem meets_ObservabilityCommands_2 :
    (∃ (code : Nat) (island : Nat) (arg : Nat) (s : State),
    code % 65536 = 0) ∧
    (∃ (b : Binding) (tag : Nat) (s : State),
    ∃ p : Packet, s.cpi.packet b tag 0x0A03 = some p ∧
    p.cls ≠ 4) ∧
    (∃ (b : Binding) (tag : Nat) (s : State),
    ∃ p : Packet, s.cpi.packet b tag 0x0A03 = some p ∧
    p.cls = 4 ∧
    (bitsOf 16 (p.param 2 2)).any (fun c => !(compatCounters (p.param 0 1)).contains c) = true) ∧
    (∃ (b : Binding) (tag : Nat) (s : State),
    ∃ p : Packet, s.cpi.packet b tag 0x0A04 = some p ∧
    ∃ i : Nat, i = 16 * p.param 0 1 + p.param 1 1 ∧
    tallyEventOk (p.param 0 1) (p.param 1 1) (p.param 2 2) = true ∧
    s.cpi.blocked [0x04000000 + i] (fun k => k.binding == some b && k.opcode == 0x0A04) = none ∧
    p.param 2 2 ≠ 0 ∧
    p.param 4 1 ≤ 1) ∧
    (∃ (s : State),
    s.tt.now % 4 = 0) :=
  ⟨⟨0, 0, 0, ws,
    by first | decide | rfl⟩,
   ⟨.cpi, 0, { ws with cpi := { ws.cpi with accepted := [{ aPacket with opcode := 0x0A03 }] } },
    _, rfl,
    by first | decide | rfl⟩,
   ⟨.cpi, 0, { ws with cpi := { ws.cpi with accepted := [{ aPacket with opcode := 0x0A03, cls := 4, params := [0, 0, 1, 0] }] } },
    _, rfl,
    by first | decide | rfl,
    by first | decide | rfl⟩,
   ⟨.cpi, 0, { ws with cpi := { ws.cpi with accepted := [{ aPacket with opcode := 0x0A04, params := [0, 15, 255, 255, 1] }] } },
    _, rfl,
    _, rfl,
    by first | decide | rfl,
    by first | decide | rfl,
    by first | decide | rfl,
    by first | decide | rfl⟩,
   ⟨ws,
    by first | decide | rfl⟩⟩

theorem meets_ObservabilityCommands_3 :
    (∃ (b : Binding) (tag : Nat) (s : State),
    ∃ p : Packet, s.cpi.packet b tag 0x0A05 = some p ∧
    s.cpi.blocked [0x02000000 + p.param 1 1] (fun _ => false) = none) ∧
    (∃ (timer : Nat) (s : State),
    ∃ w : BwWindow, getKey timer s.tally.windows = some w ∧
    w.state = 1 ∧
    s.tt.now % 1024 = 0) ∧
    (∃ (timer : Nat) (bytesIn : Nat) (bytesOut : Nat) (s : State),
    ∃ w : BwWindow, getKey timer s.tally.windows = some w ∧
    w.state = 2 ∧
    w.start + 1024 * w.days ≤ s.tt.now) ∧
    (∃ (b : Binding) (tag : Nat) (s : State),
    ∃ p : Packet, s.cpi.packet b tag 0x0A06 = some p) ∧
    (∃ (s : State),
    s.tally.lastEval + 3600000000 ≤ s.clockUs ∧
    ∃ bays : List (Nat × (Nat × (Nat × Int))), bays = s.ec.members.map (fun m => (m.bay, ((getKey m.bay s.tally.hourUnc).getD 0, ((getKey m.bay s.tally.hourMiss).getD 0,
      if ((getKey m.bay s.tally.hourTemp).getD (0, 0)).2 = 0 then (s.bay.bayOf m.bay).temp
      else ((getKey m.bay s.tally.hourTemp).getD (0, 0)).1 / ((getKey m.bay s.tally.hourTemp).getD (0, 0)).2)))) ∧
    ∃ h : List WarnSample, h = ((⟨s.spareNow / 10, s.wearOf none, s.debtMib false, bays⟩ : WarnSample) :: s.tally.history).take 720 ∧
    ∃ u : State, u = { s with tally := { s.tally with history := h, hourUnc := [], hourMiss := [], hourTemp := [], lastEval := s.clockUs } } ∧
    (s.warnings h (s.clockSec / 3600)).all (fun w => !w.1) = true) :=
  ⟨⟨.cpi, 0, { ws with cpi := { ws.cpi with accepted := [{ aPacket with opcode := 0x0A05 }] } },
    _, rfl,
    by first | decide | rfl⟩,
   ⟨0, { ws with tally := { ws.tally with windows := [(0, { aBwWindow with state := 1 })] } },
    _, rfl,
    by first | decide | rfl,
    by first | decide | rfl⟩,
   ⟨0, 0, 0, { ws with tally := { ws.tally with windows := [(0, { aBwWindow with state := 2 })] } },
    _, rfl,
    by first | decide | rfl,
    by first | decide | rfl⟩,
   ⟨.cpi, 0, { ws with cpi := { ws.cpi with accepted := [{ aPacket with opcode := 0x0A06 }] } },
    _, rfl⟩,
   ⟨{ ws with trust := { ws.trust with clockNs := 3600000000000 } },
    by first | decide | rfl,
    _, rfl,
    _, rfl,
    _, rfl,
    by first | decide | rfl⟩⟩

theorem meets_LaneCommands :
    (∃ (lane : LaneId) (s : State),
    laneOk lane = true) ∧
    (∃ (lane : LaneId) (s : State),
    laneOk lane = true ∧
    s.lanes.turn (laneIsland lane) = lane ∧
    s.lanes.out.any (fun o => o.cause == .test && laneIsland o.lane == laneIsland lane) = false ∧
    (lane.spare = true ∨ s.lanes.freeSpares lane ≠ [] ∨ s.lanes.isOut lane = true)) ∧
    (∃ (lane : LaneId) (s : State),
    s.lanes.isOut lane = true ∧
    s.cpi.accepted.find? (fun p => p.opcode == 0x0802 && p.param 0 1 == laneIsland lane && laneOf lane.kind (p.param 1 1) == lane && s.lanes.isOut lane) = none) ∧
    (∃ (lane : LaneId) (p : Packet) (s : State),
    s.lanes.isOut lane = true ∧
    s.cpi.accepted.find? (fun p => p.opcode == 0x0802 && p.param 0 1 == laneIsland lane && laneOf lane.kind (p.param 1 1) == lane && s.lanes.isOut lane) = some p) :=
  ⟨⟨aLaneId, ws,
    by first | decide | rfl⟩,
   ⟨aLaneId, ws,
    by first | decide | rfl,
    by first | decide | rfl,
    by first | decide | rfl,
    by first | decide | rfl⟩,
   ⟨aLaneId, { ws with lanes := { ws.lanes with out := [⟨⟨.enc, false, 0⟩, .test, none, 0⟩] } },
    by first | decide | rfl,
    by first | decide | rfl⟩,
   ⟨aLaneId, { aPacket with opcode := 0x0802, params := [12, 0] }, { ws with lanes := { ws.lanes with out := [⟨⟨.enc, false, 0⟩, .test, none, 0⟩] }, cpi := { ws.cpi with accepted := [{ aPacket with opcode := 0x0802, params := [12, 0] }] } },
    by first | decide | rfl,
    by first | decide | rfl⟩⟩

theorem meets_DramCommands_1 :
    (∃ (channel : Nat) (rank : Nat) (sub : Nat) (s : State),
    ∃ c : Channel, c = s.dram.ch channel ∧
    c.up = true ∧
    c.selfRefresh = false ∧
    ∃ debt : Nat, debt = (getKey (rank * 2 + sub % 2) c.debts).getD 0 ∧
    ∃ after : Nat, after = debtAfter debt) ∧
    (∃ (channel : Nat) (temp : Int) (s : State),
    ∃ c : Channel, c = s.dram.ch channel ∧
    c.up = true ∧
    s.tt.now % 64 = 0 ∧
    temp ≤ 85 ∧
    c.refsb = false) ∧
    (∃ (channel : Nat) (s : State),
    (s.dram.ch channel).state = .inService ∧
    (s.dram.ch channel).windows.all (fun w => w.2 == 0) = true ∧
    100 * s.dram.srIdle ≤ 16 * (s.tt.now - (s.dram.ch channel).lastUse) ∧
    (s.dram.ch channel).banks.all (fun b => b.2.bursts.isEmpty) = true) ∧
    (∃ (channel : Nat) (rank : Nat) (device : Nat) (s : State),
    ∃ c : Channel, c = s.dram.ch channel ∧
    ∃ l : List Nat, l = noteCorrected s.clockUs ((getKey (rank * 20 + device % 20) c.devices).getD []) ∧
    tooManyCorrected s.clockUs l = false) ∧
    (∃ (channel : Nat) (s : State),
    (s.dram.ch channel).up = true ∧
    (s.dram.ch channel).scrubbed + 86400 ≤ s.clockSec) :=
  ⟨⟨0, 0, 0, { ws with dram := { ws.dram with channels := [{ aChannel with state := .inService }] } },
    _, rfl,
    by first | decide | rfl,
    by first | decide | rfl,
    _, rfl,
    _, rfl⟩,
   ⟨0, 85, { ws with dram := { ws.dram with channels := [{ aChannel with state := .inService }] } },
    _, rfl,
    by first | decide | rfl,
    by first | decide | rfl,
    by first | decide | rfl,
    by first | decide | rfl⟩,
   ⟨0, { ws with dram := { ws.dram with channels := [{ aChannel with state := .inService }] } },
    by first | decide | rfl,
    by first | decide | rfl,
    by first | decide | rfl,
    by first | decide | rfl⟩,
   ⟨0, 0, 0, ws,
    _, rfl,
    _, rfl,
    by first | decide | rfl⟩,
   ⟨0, { ws with dram := { ws.dram with channels := [{ aChannel with state := .inService }] }, trust := { ws.trust with clockNs := 86400000000000 } },
    by first | decide | rfl,
    by first | decide | rfl⟩⟩

theorem meets_DramCommands_2 :
    (∃ (channel : Nat) (s : State),
    ∃ c : Channel, c = s.dram.ch channel ∧
    c.outDue = true ∧
    c.state = .inService ∧
    s.dram.evacPhase = .none ∧
    s.dram.evacNext = none ∧
    channel < 16 ∧
    c.cause ≠ c.lastCause ∧
    ∃ u : State, u = setChannel channel { c with outDue := false } s) ∧
    (∃ (channel : Nat) (s : State),
    ∃ c : Channel, c = s.dram.ch channel ∧
    c.up = true ∧
    ∃ u : State, u = channelEvent channel (setChannel channel { c with state := .failed } s) ∧
    u.paired = false ∧
    u.pwr.stage ≠ .service) ∧
    (∃ (channel : Nat) (s : State),
    s.dram.evacChannel = channel ∧
    s.dram.evacPhase = .copyingOut ∧
    s.dram.evacRetrain = false ∧
    s.dram.copyUnits ≤ s.dram.evacDone) ∧
    (∃ (channel : Nat) (s : State),
    s.dram.evacChannel = channel ∧
    s.dram.evacPhase = .copyingHome ∧
    s.dram.copyUnits ≤ s.dram.evacDone) ∧
    (∃ (channel : Nat) (s : State),
    (s.dram.ch channel).state = .training ∧
    s.dram.evacPhase ≠ .out) :=
  ⟨⟨0, { ws with dram := { ws.dram with evacPhase := .none, evacNext := none, channels := [{ aChannel with state := .inService, outDue := true, cause := some .corrected }] } },
    _, rfl,
    by first | decide | rfl,
    by first | decide | rfl,
    by first | decide | rfl,
    by first | decide | rfl,
    by first | decide | rfl,
    by first | decide | rfl,
    _, rfl⟩,
   ⟨0, { ws with dram := { ws.dram with channels := [{ aChannel with state := .inService }] }, pwr := { ws.pwr with stage := .starting } },
    _, rfl,
    by first | decide | rfl,
    _, rfl,
    by first | decide | rfl,
    by first | decide | rfl⟩,
   ⟨0, { ws with dram := { ws.dram with evacPhase := .copyingOut, evacRetrain := false } },
    by first | decide | rfl,
    by first | decide | rfl,
    by first | decide | rfl,
    by first | decide | rfl⟩,
   ⟨0, { ws with dram := { ws.dram with evacPhase := .copyingHome } },
    by first | decide | rfl,
    by first | decide | rfl,
    by first | decide | rfl⟩,
   ⟨0, { ws with dram := { ws.dram with channels := [{ aChannel with state := .training }] } },
    by first | decide | rfl,
    by first | decide | rfl⟩⟩

theorem meets_DramCommands_3 :
    ∃ (channel : Nat) (s : State),
    (s.dram.ch channel).state = .training ∧
    s.dram.evacPhase = .out ∧
    s.dram.evacChannel = channel :=
  ⟨0, { ws with dram := { ws.dram with evacPhase := .out, channels := [{ aChannel with state := .training }] } },
    by first | decide | rfl,
    by first | decide | rfl,
    by first | decide | rfl⟩

theorem meets_PinAndTestPortCommands_1 :
    (∃ (pin : Nat) (kind : PinFaultKind) (s : State),
    pin ≤ 330) ∧
    (∃ (pin : Nat) (s : State),
    pin ≤ 330 ∧
    (s.pins.pin pin).driven = false) ∧
    (∃ (pin : Nat) (s : State),
    pin ≤ 330 ∧
    (s.pins.pin pin).driven = false) ∧
    (∃ (pin : Nat) (s : State),
    (s.pins.pin pin).fault = .isOpen ∧
    (s.pins.pin pin).clamped = false ∧
    64 ≤ (s.pins.pin pin).goodTests ∧
    pin ≠ 256) ∧
    (∃ (pin : Nat) (s : State),
    (s.pins.pin pin).clamped = true) :=
  ⟨⟨0, .isOpen, ws,
    by first | decide | rfl⟩,
   ⟨0, ws,
    by first | decide | rfl,
    by first | decide | rfl⟩,
   ⟨0, ws,
    by first | decide | rfl,
    by first | decide | rfl⟩,
   ⟨0, { ws with pins := { ws.pins with pins := [(0, { aPin with fault := .isOpen, goodTests := 64 })] } },
    by first | decide | rfl,
    by first | decide | rfl,
    by first | decide | rfl,
    by first | decide | rfl⟩,
   ⟨0, { ws with pins := { ws.pins with pins := [(0, { aPin with clamped := true })] } },
    by first | decide | rfl⟩⟩

theorem meets_PinAndTestPortCommands_2 :
    (∃ (s : State),
    s.pins.faulty 263 = false) ∧
    (∃ (reg : Nat) (s : State),
    s.pwr.stage ≠ .off ∧
    s.pwr.stage ≠ .aonOnly) ∧
    (∃ (s : State),
    coldHeld s = true) ∧
    (∃ (s : State),
    coldHeld s = false) ∧
    (∃ (s : State),
    coldHeld s = true) :=
  ⟨⟨ws,
    by first | decide | rfl⟩,
   ⟨0, ws,
    by first | decide | rfl,
    by first | decide | rfl⟩,
   ⟨{ ws with pins := { ws.pins with pins := [(261, { aPin with level := false })] } },
    by first | decide | rfl⟩,
   ⟨ws,
    by first | decide | rfl⟩,
   ⟨{ ws with pins := { ws.pins with pins := [(261, { aPin with level := false })] } },
    by first | decide | rfl⟩⟩

theorem meets_PinAndTestPortCommands_3 :
    (∃ (s : State),
    coldHeld s = false) ∧
    (∃ (s : State),
    coldHeld s = true) ∧
    (∃ (s : State),
    coldHeld s = true) ∧
    (∃ (s : State),
    coldHeld s = true) ∧
    (∃ (s : State),
    coldHeld s = false) :=
  ⟨⟨ws,
    by first | decide | rfl⟩,
   ⟨{ ws with pins := { ws.pins with pins := [(261, { aPin with level := false })] } },
    by first | decide | rfl⟩,
   ⟨{ ws with pins := { ws.pins with pins := [(261, { aPin with level := false })] } },
    by first | decide | rfl⟩,
   ⟨{ ws with pins := { ws.pins with pins := [(261, { aPin with level := false })] } },
    by first | decide | rfl⟩,
   ⟨ws,
    by first | decide | rfl⟩⟩

theorem meets_RegisterAndOtherCommands :
    (∃ (cntlid : Nat) (qid : Nat) (s : State),
    ∃ q : Queue, s.hq.queue cntlid qid = some q) ∧
    (∃ (s : State),
    ∃ until_ : Nat, s.trust.holdEnd = some until_ ∧
    until_ ≤ s.trust.oscNs) ∧
    (∃ (k : Nat × Nat) (s : State),
    reservedMessage k.1 k.2 = true) :=
  ⟨⟨0, 0, { ws with hq := { ws.hq with queues := [aQueue] } },
    _, rfl⟩,
   ⟨{ ws with trust := { ws.trust with holdEnd := some 0 } },
    _, rfl,
    by first | decide | rfl⟩,
   ⟨(0, 0), ws,
    by first | decide | rfl⟩⟩

end Sys2Proof.Machine
end

