-- ==== Sys2Proof/WellFormed.lean ====
section
/-! DEFINITION. Well-formed commands: the widths and bounds of the operands that the spec's fields and tables give them. -/

namespace Sys2Proof

/-- A number fits a field of n bits. -/
def fits (n v : Nat) : Bool := decide (v < 2 ^ n)

/-- A binding exists: CNTLIDs have 16 bits, MCTP endpoint IDs 8 (ch. 15, Table 15-2). -/
def Binding.ok : Binding → Bool
  | .nvme c => fits 16 c
  | .cpi => true
  | .pfm => true
  | .mctp e => fits 8 e
  | .peer => true

/-- Active lanes and spares of each engine kind (Table 1-2). -/
def EngineKind.lanes : EngineKind → Nat × Nat
  | .enc => (32, 2)
  | .dec => (48, 4)
  | .cip => (24, 2)
  | .dig => (24, 2)
  | .par => (8, 1)

/-- A lane of Table 1-2. -/
def LaneId.ok (l : LaneId) : Bool :=
  decide (l.index < if l.spare then l.kind.lanes.2 else l.kind.lanes.1)

/-- A bridge completion names a bay of the head and a tag of 32 bits; the bytes and halfwords of Table 11-5. -/
def BlpDone.ok (d : BlpDone) : Bool := decide (d.bay < 64) && fits 32 d.tag && fits 8 d.status &&
  fits 16 d.corrected && fits 8 d.suspends && fits 8 d.retry && fits 8 d.flags

/-- A capsule: byte and 32-bit fields in range, FUSE 0 to 2 (ch. 3). -/
def Capsule.ok (c : Capsule) : Bool :=
  fits 8 c.opcode && fits 32 c.nsid && fits 64 c.slba && decide (c.fused < 3) && fits 32 c.cdw10 && fits 32 c.cdw11 && fits 32 c.cdw12 &&
    c.ranges.all (fun r => fits 64 r.1 && fits 32 r.2)

/-- A cipher context starts on a lane of I16 or I17, with a nonce of 12 bytes (R249). -/
def CtxStart.ok (c : CtxStart) : Bool := decide (c.island < 2) && decide (c.lane < 12) && decide (c.nonce.length = 12)

/-- What a head finds at a start: 16 DIMM positions, bays of the head. -/
def StartEnv.ok (e : StartEnv) : Bool := decide (e.dimms.length = 16) && e.bays.all (fun b => decide (b < 64))

/-- A commit mark covers 1 to 512 blocks; its origin is a head slot (Table 4-4). -/
def markOk (m : Machine.CommitMark) : Bool :=
  decide (1 ≤ m.count) && decide (m.count ≤ 512) && decide (m.origin < 2) && fits 64 m.seq && fits 32 m.volume && fits 64 m.lba

/-- RELEASE carries 1 to 64 entries of four quarters each (Table 4-5). -/
def releaseOk (l : List Machine.RelEntry) : Bool :=
  decide (1 ≤ l.length) && decide (l.length ≤ 64) && l.all (fun e => decide (e.seqs.length = 4))

/-- Detail of a reply has 16 bytes (R533). -/
def fitsDetail (b : Bytes) : Bool := decide (b.length ≤ 16)

/-- Whether a command's operands fit the fields that carry them. -/
def wellFormed : Instr → Bool
  | .suppliesValid env => env.ok
  | .facultyChunkLoad _ => true
  | .coldReset _ env => env.ok
  | .warmReset env => env.ok
  | .vddAonOnly => true
  | .supplyTrip rail _ => fits 8 rail
  | .pwrFailNLow => true
  | .vaultSheetEntry => true
  | .vaultSeal _ _ env => env.ok
  | .vaultWarmStart env => env.ok
  | .earlyPowerFail => true
  | .thermalVault _ island => decide (island < 32)
  | .thermtrip _ island => decide (island < 32)
  | .refclkLost _ => true
  | .refclkRestored _ => true
  | .avsAdjust _ _ => true
  | .avsConfirmTimeout => true
  | .fullTrainingComplete => true
  | .vaultRestoreComplete => true
  | .bellTick => true
  | .epochEnd => true
  | .epochSealWrite => true
  | .termChangeover => true
  | .sheetSwitch => true
  | .laneFault lane => lane.ok
  | .laneRotation lane => lane.ok
  | .laneTestComplete lane _ => lane.ok
  | .resourceReturnDue what => decide (what.head < 2)
  | .ttStage b tag => b.ok && fits 32 tag
  | .ttArm b tag peer => b.ok && fits 32 tag && fitsDetail peer.detail
  | .ttDisarm b tag peer => b.ok && fits 32 tag && fitsDetail peer.detail
  | .ttQuery b tag => b.ok && fits 32 tag
  | .capsuleReceive cntlid qid cid cap _ => fits 16 cntlid && fits 16 qid && fits 16 cid && cap.ok
  | .capsuleFetch => true
  | .metadataPagePrefetch cntlid qid => fits 16 cntlid && fits 16 qid
  | .fsnRequest number nsid tag cap _ => fits 64 number && fits 32 nsid && fits 64 tag && cap.ok
  | .fsnGrant nsid tag seq => fits 32 nsid && fits 64 tag && fits 64 seq
  | .writeDataArrival cntlid qid cid first _ _ _ => decide (cntlid ≤ 65537) && fits 16 qid && fits 16 cid && fits 64 first
  | .dataInTimeout cntlid qid cid => decide (cntlid ≤ 65537) && fits 16 qid && fits 16 cid
  | .connectionError cntlid qid => fits 16 cntlid && fits 16 qid
  | .keepAliveExpiry cntlid => fits 16 cntlid
  | .flush cntlid qid cid _ => decide (cntlid ≤ 65537) && fits 16 qid && fits 16 cid
  | .write cntlid qid cid => decide (cntlid ≤ 65537) && fits 16 qid && fits 16 cid
  | .read cntlid qid cid _ => decide (cntlid ≤ 65537) && fits 16 qid && fits 16 cid
  | .compare cntlid qid cid _ => decide (cntlid ≤ 65537) && fits 16 qid && fits 16 cid
  | .compareAndWrite cntlid qid cid _ => decide (cntlid ≤ 65537) && fits 16 qid && fits 16 cid
  | .writeZeroes cntlid qid cid => decide (cntlid ≤ 65537) && fits 16 qid && fits 16 cid
  | .datasetManagement cntlid qid cid => decide (cntlid ≤ 65537) && fits 16 qid && fits 16 cid
  | .verify cntlid qid cid _ => decide (cntlid ≤ 65537) && fits 16 qid && fits 16 cid
  | .reservationRegister cntlid qid cid => decide (cntlid ≤ 65537) && fits 16 qid && fits 16 cid
  | .reservationReport cntlid qid cid => decide (cntlid ≤ 65537) && fits 16 qid && fits 16 cid
  | .reservationAcquire cntlid qid cid => decide (cntlid ≤ 65537) && fits 16 qid && fits 16 cid
  | .reservationRelease cntlid qid cid => decide (cntlid ≤ 65537) && fits 16 qid && fits 16 cid
  | .getLogPage cntlid cid lid offset length _ => fits 16 cntlid && fits 16 cid && fits 8 lid && fits 64 offset && fits 64 length
  | .identify cntlid cid cns nsid cntid => fits 16 cntlid && fits 16 cid && fits 8 cns && fits 32 nsid && fits 16 cntid
  | .abort cntlid cid sqid target => fits 16 cntlid && fits 16 cid && fits 16 sqid && fits 16 target
  | .setFeatures cntlid cid fid nsid _ _ => fits 16 cntlid && fits 16 cid && fits 8 fid && fits 32 nsid
  | .getFeatures cntlid cid fid nsid _ => fits 16 cntlid && fits 16 cid && fits 8 fid && fits 32 nsid
  | .asyncEventRequest cntlid cid => fits 16 cntlid && fits 16 cid
  | .firmwareCommit cntlid cid _ _ => fits 16 cntlid && fits 16 cid
  | .firmwareImageDownload cntlid cid offset _ => fits 16 cntlid && fits 16 cid && fits 64 offset
  | .keepAlive cntlid cid => fits 16 cntlid && fits 16 cid
  | .fabricsConnect port cntlid qid cid _ _ _ _ _ => decide (port < 16) && fits 16 cntlid && fits 16 qid && fits 16 cid
  | .propertyGet cntlid cid _ => fits 16 cntlid && fits 16 cid
  | .propertySet cntlid cid _ _ => fits 16 cntlid && fits 16 cid
  | .disconnect cntlid cid => fits 16 cntlid && fits 16 cid
  | .controlReplyPoll cntlid cid tag => fits 16 cntlid && fits 16 cid && fits 32 tag
  | .controlPacketSubmit cntlid cid _ _ => decide (cntlid ≤ 65537) && fits 16 cid
  | .controlReplyFetch cntlid cid tag => fits 16 cntlid && fits 16 cid && fits 32 tag
  | .controlPayloadFetch cntlid cid tag offset length => fits 16 cntlid && fits 16 cid && fits 32 tag && fits 64 offset && fits 64 length
  | .powerStateChange => true
  | .ps3EntryComplete => true
  | .ps3EntryAbandon => true
  | .ps3Exit => true
  | .anaOwnershipMove group => decide (group < 1024)
  | .mirrorData number volume count _ seq lba blocks _ => fits 64 number && fits 32 volume && (decide (1 ≤ count) && decide (count ≤ 512)) && fits 64 seq && fits 64 lba && (decide (blocks.length = 4096 * count))
  | .mirrorAck number _ => fits 64 number
  | .commit number mark => fits 64 number && markOk mark
  | .commitAck number => fits 64 number
  | .release l => releaseOk l
  | .credit _ term _ => fits 32 term
  | .vaultNotice time => fits 64 time
  | .vaultDone time length => fits 64 time && fits 64 length
  | .vaultDoneTimeout => true
  | .markList number marks => fits 64 number && (decide (marks.length ≤ 127) && marks.all markOk)
  | .withdraw number volume seq => fits 64 number && fits 32 volume && fits 64 seq
  | .messageResendTimeout number => fits 64 number
  | .destageAgeExpiry vol grain => fits 32 vol && fits 64 grain
  | .destageStart vol grain => fits 32 vol && fits 64 grain
  | .fingerprintComplete job => fits 32 job
  | .fingerprintResolve => true
  | .resolve number domain _ _ grain _ _ => fits 64 number && fits 32 domain && fits 64 grain
  | .resolveAnswer grain cid outcome => fits 64 grain && fits 64 cid && decide (outcome ≤ 4)
  | .resolvePendingTimeout grain => fits 64 grain
  | .inflightWayFree => true
  | .indexReadComplete grain _ _ => fits 64 grain
  | .mergeSweepStart => true
  | .filterReplace => true
  | .refDelta number _ => fits 64 number
  | .place number cid _ _ _ => fits 64 number && fits 64 cid
  | .encodeComplete job _ _ => fits 32 job
  | .decodeComplete job _ _ => fits 32 job
  | .slotDecryptComplete job _ _ => fits 32 job
  | .slotEncryptComplete job _ => fits 32 job
  | .usageGrantDraw locker => fits 32 locker
  | .hallPassEnd number start _ _ _ => fits 64 number && start.all CtxStart.ok
  | .segmentVerify number start _ _ _ => fits 64 number && start.ok
  | .streamTagFail number => fits 64 number
  | .digestOpen _ _ handle _ _ => fits 16 handle
  | .digestAbsorb number _ => fits 64 number
  | .digestFinalise number => fits 64 number
  | .digestRead number length => fits 64 number && fits 64 length
  | .digestClose number => fits 64 number
  | .mrExtend _ reg _ => fits 16 reg
  | .lockerRotate b tag peer => b.ok && fits 32 tag && fitsDetail peer.detail
  | .lockerWithdraw b tag peer => b.ok && fits 32 tag && fitsDetail peer.detail
  | .lockerRestore b tag peer => b.ok && fits 32 tag && fitsDetail peer.detail
  | .lockerQuery b tag => b.ok && fits 32 tag
  | .checkpointStart => true
  | .checkpointPhase2 => true
  | .sjCheckpointStart => true
  | .gcStart bay die => decide (bay < 64) && decide (die < 2048)
  | .blockEraseDue _ => true
  | .psaResolveAgain job => fits 32 job
  | .retentionAccrue => true
  | .calibrationDue _ page => decide (page < 4096)
  | .refreshDue _ => true
  | .timeTokenWaitExpiry => true
  | .spareStateChange => true
  | .stripeIdleClose group => fits 32 group
  | .stripeExtend group => fits 32 group
  | .groupOpen layout => fits 32 layout
  | .reconstructionCombine job => fits 32 job
  | .patrolStripe _ => true
  | .detentionProbe _ die block page => decide (die < 2048) && decide (block < 8192) && decide (page < 4096)
  | .detentionTimeout bay => decide (bay < 64)
  | .missingTimeout bay => decide (bay < 64)
  | .rebuildBlock _ => true
  | .lostSweep => true
  | .volumeOffline => true
  | .blpReadComplete d _ _ => d.ok
  | .blpProgramComplete d => d.ok
  | .blpEraseComplete d => d.ok
  | .blpSuspendComplete d => d.ok
  | .blpResumeComplete d => d.ok
  | .blpStatusComplete d _ => d.ok
  | .blpCalibrateComplete d _ _ => d.ok
  | .blpTelemetryComplete d _ => d.ok
  | .blpFenceComplete d => d.ok
  | .telemetryPoll => true
  | .bayPresenceDetect bay => decide (bay < 64)
  | .bayPerstRelease bay => decide (bay < 64)
  | .bayLinkUp bay _ _ _ => decide (bay < 64)
  | .bayLinkTrainTimeout bay => decide (bay < 64)
  | .bayPresenceLost bay _ => decide (bay < 64)
  | .bayPowerOffTimeout bay => decide (bay < 64)
  | .bayRetrainTimer bay => decide (bay < 64)
  | .bayLinkReturn bay _ _ => decide (bay < 64)
  | .bayAttention bay _ => decide (bay < 64)
  | .bayLinkDegraded bay _ _ => decide (bay < 64)
  | .bayFullRetrain bay _ _ => bay.all (fun b => decide (b < 64))
  | .witnessCasComplete bay _ => decide (bay < 64)
  | .corridorTrain _ _ _ _ _ _ => true
  | .corridorRefusedRetry => true
  | .corridorLinkDown => true
  | .heartbeat _ term _ _ _ _ => fits 32 term
  | .heartbeatMissed => true
  | .arbitrationCount => true
  | .arbitrationRetry => true
  | .failoverReplay => true
  | .failoverTakeover => true
  | .bellSync _ _ _ _ => true
  | .sheetTrigger number _ _ _ _ _ => fits 64 number
  | .snapFence number tag bell _ => fits 64 number && fits 32 tag && fits 64 bell
  | .ttImage number term offset _ => fits 64 number && fits 32 term && fits 64 offset
  | .ttVerdict term _ detail => fits 32 term && fitsDetail detail
  | .sbChange number offset _ => fits 64 number && fits 64 offset
  | .anaMove number group owner _ _ => fits 64 number && decide (group < 1024) && decide (owner < 2)
  | .hello number _ => fits 64 number
  | .releaseNotice time => fits 64 time
  | .resyncDone lastNumber epoch head seq => fits 64 lastNumber && fits 64 epoch && decide (head < 2) && fits 64 seq
  | .journal number _ => fits 64 number
  | .journalAck number => fits 64 number
  | .prefectRecord number _ => fits 64 number
  | .forbiddenPeerMessage => true
  | .fedHeartbeatSend => true
  | .fedHeartbeat chip _ _ _ => fits 11 chip
  | .fedUnreachable chip => fits 11 chip
  | .headAdopt b tag => b.ok && fits 32 tag
  | .headRelease b tag => b.ok && fits 32 tag
  | .fedRosterLoad b tag => b.ok && fits 32 tag
  | .fedTimeToken b tag => b.ok && fits 32 tag
  | .fedQuery b tag => b.ok && fits 32 tag
  | .clockRecordWrite => true
  | .lockstepMismatch => true
  | .keyEnroll b tag => b.ok && fits 32 tag
  | .keyRevoke b tag => b.ok && fits 32 tag
  | .quote b tag => b.ok && fits 32 tag
  | .mrRead b tag => b.ok && fits 32 tag
  | .identityGet b tag => b.ok && fits 32 tag
  | .escrowExport b tag => b.ok && fits 32 tag
  | .rootImport b tag _ _ => b.ok && fits 32 tag
  | .decommission b tag => b.ok && fits 32 tag
  | .fwDownload b tag => b.ok && fits 32 tag
  | .fwActivate b tag => b.ok && fits 32 tag
  | .clusterReport island _ => decide (island < 32)
  | .clusterReportTimeout island => decide (island < 32)
  | .pfwDownload b tag => b.ok && fits 32 tag
  | .pfwActivate b tag => b.ok && fits 32 tag
  | .fwQuery b tag => b.ok && fits 32 tag
  | .cpiSubmit _ _ _ => true
  | .cpiAck => true
  | .pfmSubmit _ _ _ => true
  | .pfmAck => true
  | .mctpMessage endpoint length _ _ => fits 8 endpoint && fits 64 length
  | .pieceTimeout b => b.ok
  | .replyRetentionExpiry b tag => b.ok && fits 32 tag
  | .claimBindingTimeout b => b.ok
  | .sysInfo b tag => b.ok && fits 32 tag
  | .sysPortMode b tag => b.ok && fits 32 tag
  | .sysBinding b tag peer => b.ok && fits 32 tag && fitsDetail peer.detail
  | .sysSubsystem b tag peer => b.ok && fits 32 tag && fitsDetail peer.detail
  | .sysDataTimeout b tag peer => b.ok && fits 32 tag && fitsDetail peer.detail
  | .sysHoldupCfg b tag => b.ok && fits 32 tag
  | .sysHoldupMeasure b tag _ => b.ok && fits 32 tag
  | .holdupMeasureScheduled _ => true
  | .holdupMeasureComplete _ _ _ _ _ => true
  | .holdupRetryTimer _ => true
  | .sysClaims b tag => b.ok && fits 32 tag
  | .sysIslandReset b tag => b.ok && fits 32 tag
  | .cpPayloadFetch b tag => b.ok && fits 32 tag
  | .poolForm b tag peer => b.ok && fits 32 tag && fitsDetail peer.detail
  | .poolExtend b tag peer => b.ok && fits 32 tag && fitsDetail peer.detail
  | .memberFail b tag peer => b.ok && fits 32 tag && fitsDetail peer.detail
  | .bayWidthSet b tag => b.ok && fits 32 tag
  | .bayPower b tag => b.ok && fits 32 tag
  | .poolGrowFilter b tag peer => b.ok && fits 32 tag && fitsDetail peer.detail
  | .poolGrowIndex b tag peer => b.ok && fits 32 tag && fitsDetail peer.detail
  | .poolQuery b tag => b.ok && fits 32 tag
  | .poolErase b tag peer => b.ok && fits 32 tag && fitsDetail peer.detail
  | .moduleUnform b tag => b.ok && fits 32 tag
  | .volCreate b tag peer => b.ok && fits 32 tag && fitsDetail peer.detail
  | .volDelete b tag peer => b.ok && fits 32 tag && fitsDetail peer.detail
  | .volResize b tag peer => b.ok && fits 32 tag && fitsDetail peer.detail
  | .volSet b tag peer => b.ok && fits 32 tag && fitsDetail peer.detail
  | .anaMoveGroup b tag => b.ok && fits 32 tag
  | .domainCreate b tag peer => b.ok && fits 32 tag && fitsDetail peer.detail
  | .domainDelete b tag peer => b.ok && fits 32 tag && fitsDetail peer.detail
  | .domainVerify b tag peer => b.ok && fits 32 tag && fitsDetail peer.detail
  | .volQuery b tag => b.ok && fits 32 tag
  | .snapCreate b tag => b.ok && fits 32 tag
  | .snapshotSettle tag _ => fits 32 tag
  | .snapDelete b tag peer peerClock => b.ok && fits 32 tag && fitsDetail peer.detail && fits 64 peerClock
  | .snapSeal b tag peer => b.ok && fits 32 tag && fitsDetail peer.detail
  | .cloneCreate b tag peer => b.ok && fits 32 tag && fitsDetail peer.detail
  | .snapQuery b tag => b.ok && fits 32 tag
  | .replPartnerAdd b tag => b.ok && fits 32 tag
  | .replPartnerRemove b tag => b.ok && fits 32 tag
  | .replSessionOpen b tag => b.ok && fits 32 tag
  | .replSessionClose b tag => b.ok && fits 32 tag
  | .replAsyncSend b tag => b.ok && fits 32 tag
  | .replSyncSet b tag => b.ok && fits 32 tag
  | .migrateExport b tag => b.ok && fits 32 tag
  | .migrateCutover b tag => b.ok && fits 32 tag
  | .replQuery b tag => b.ok && fits 32 tag
  | .offer _ _ => true
  | .accept reg _ => fits 16 reg
  | .prove reg _ => fits 16 reg
  | .refuse reg _ => fits 16 reg
  | .handshakeTimeout reg => fits 16 reg
  | .sessionRekey reg => fits 16 reg
  | .segmentSendTimer reg => fits 16 reg
  | .beginTransfer session transfer root base snap fenceEpoch _ domain _ until_ _ => fits 16 session && fits 32 transfer && fits 32 root && fits 32 base && fits 32 snap && fits 64 fenceEpoch && fits 32 domain && fits 64 until_
  | .fingerprints session transfer _ => fits 16 session && fits 32 transfer
  | .want session transfer _ => fits 16 session && fits 32 transfer
  | .grain session transfer grain _ _ _ => fits 16 session && fits 32 transfer && fits 64 grain
  | .endTransfer session transfer _ _ => fits 16 session && fits 32 transfer
  | .replCommit session transfer _ snapshot _ => fits 16 session && fits 32 transfer && fits 32 snapshot
  | .syncWrite session root count seq lba blocks _ => fits 16 session && fits 32 root && (decide (1 ≤ count) && decide (count ≤ 512)) && fits 64 seq && fits 64 lba && (decide (blocks.length = 4096 * count))
  | .syncAck session root seq => fits 16 session && fits 32 root && fits 64 seq
  | .syncAckTimeout session root => fits 16 session && fits 32 root
  | .syncFence session snapshot bell _ => fits 16 session && fits 32 snapshot && fits 64 bell
  | .syncCheckpoint session => fits 16 session
  | .fractureResumeTimer session => fits 16 session
  | .migrateRepeatTimer session root => fits 16 session && fits 32 root
  | .keyAdopt session domain _ _ => fits 16 session && fits 32 domain
  | .replAbort session transfer _ detail => fits 16 session && fits 32 transfer && fitsDetail detail
  | .diagDieOp b tag => b.ok && fits 32 tag
  | .diagLaneTest b tag => b.ok && fits 32 tag
  | .diagLaneGroup b tag => b.ok && fits 32 tag
  | .diagDramChannel b tag => b.ok && fits 32 tag
  | .diagBayGroup b tag => b.ok && fits 32 tag
  | .diagDump b tag _ => b.ok && fits 32 tag
  | .diagPin b tag => b.ok && fits 32 tag
  | .diagCapture b tag => b.ok && fits 32 tag
  | .diaryRead b tag => b.ok && fits 32 tag
  | .diaryFreeze b tag => b.ok && fits 32 tag
  | .diaryCtrlFreezeWrite _ => true
  | .diaryFreezeTimeout => true
  | .diaryEvent code island _ => fits 16 code && decide (island < 32)
  | .tallyRead b tag => b.ok && fits 32 tag
  | .tallyConfig b tag => b.ok && fits 32 tag
  | .tallySweep => true
  | .bwWindow b tag => b.ok && fits 32 tag
  | .bwWindowStart _ => true
  | .bwWindowEnd _ _ _ => true
  | .reportCard b tag => b.ok && fits 32 tag
  | .earlyWarningEval => true
  | .histogramMinute _ _ => true
  | .dramRefreshTick channel rank sub => decide (channel < 16) && fits 8 rank && decide (sub < 2)
  | .dimmTempRead channel _ => decide (channel < 16)
  | .dramSelfRefreshIdle channel => decide (channel < 16)
  | .dramCorrected channel rank device => decide (channel < 16) && fits 8 rank && fits 16 device
  | .dramUncorrectable channel _ _ => decide (channel < 16)
  | .dramScrub channel => decide (channel < 16)
  | .dramChannelOut channel => decide (channel < 16)
  | .dramChannelDead channel => decide (channel < 16)
  | .dramEvacCopyDone channel => decide (channel < 16)
  | .dramTrainingDone channel _ => decide (channel < 16)
  | .pinFaultDetect pin _ => fits 9 pin
  | .pinOpenTest pin _ _ => fits 9 pin
  | .pinFaultClear pin => fits 9 pin
  | .fpLocate => true
  | .smbusRead reg => fits 16 reg
  | .tapBypass => true
  | .tapIdcode => true
  | .tapSamplePreload => true
  | .tapExtest => true
  | .tapExtestPulse => true
  | .tapExtestTrain => true
  | .tapClamp => true
  | .tapHighz => true
  | .registerWrite _ offset _ => fits 64 offset
  | .cnpReceived cntlid qid => fits 16 cntlid && fits 16 qid
  | .rosterReceived _ => true
  | .keyAdoptWaitExpiry domain => fits 32 domain
  | .deleteTicketHoldEnd => true
  | .pinDriveRestored pin => fits 9 pin
  | .mgmtPerst => true
  | .corridorMessageDrop _ => true

end Sys2Proof
end

