-- ==== Sys2Proof/Tests/Slice0.lean ====
section
/-! SUPPORT. Own tests: ill-formed commands are refused by the checks of WellFormed, the worked examples of the spec, and
the premises of the statements about shared operations. -/

set_option Elab.async false
set_option linter.all false

set_option maxRecDepth 8000

namespace Sys2Proof.Machine


/-! ### WellFormed -/

/-- A start that finds no DIMM and no module. -/
def goodEnv : StartEnv := { aStartEnv with dimms := List.replicate 16 none }
/-- A context start with a nonce of 12 bytes. -/
def goodStart : CtxStart := { aCtxStart with nonce := zeros 12 }
/-- A commit mark of one block. -/
def goodMark : CommitMark := { aCommitMark with count := 1 }

theorem test_ill_formed_1 : ([
    .suppliesValid ({ goodEnv with bays := [64] }), .coldReset .powerOn ({ goodEnv with bays := [64] }),
    .warmReset ({ goodEnv with bays := [64] }), .supplyTrip (2 ^ 8) false,
    .vaultSeal false false ({ goodEnv with bays := [64] }), .vaultWarmStart ({ goodEnv with bays := [64] }),
    .thermalVault 0 32, .thermtrip 0 32, .laneFault (⟨.par, false, 8⟩), .laneRotation (⟨.par, false, 8⟩),
    .laneTestComplete (⟨.par, false, 8⟩) false, .resourceReturnDue (⟨0, 2, 0⟩), .ttStage .cpi (2 ^ 32),
    .ttArm (.mctp 256) 0 aPeerAnswer, .ttDisarm .cpi 0 ({ aPeerAnswer with detail := zeros 17 }), .ttQuery (.mctp 256) 0,
    .capsuleReceive (2 ^ 16) 0 0 aCapsule false, .metadataPagePrefetch 0 (2 ^ 16), .fsnRequest 0 0 (2 ^ 64) aCapsule [],
    .fsnGrant 0 (2 ^ 64) 0, .writeDataArrival 0 (2 ^ 16) 0 0 [] [] false, .dataInTimeout 0 (2 ^ 16) 0,
    .connectionError (2 ^ 16) 0, .keepAliveExpiry (2 ^ 16), .flush 0 (2 ^ 16) 0 false, .write 0 0 (2 ^ 16),
    .read 65538 0 0 none, .compare 0 (2 ^ 16) 0 none, .compareAndWrite 0 0 (2 ^ 16) none, .writeZeroes 65538 0 0,
    .datasetManagement 0 (2 ^ 16) 0, .verify 0 0 (2 ^ 16) none, .reservationRegister 65538 0 0,
    .reservationReport 0 (2 ^ 16) 0, .reservationAcquire 0 0 (2 ^ 16), .reservationRelease 65538 0 0,
    .getLogPage 0 (2 ^ 16) 0 0 0 [], .identify 0 0 (2 ^ 8) 0 0, .abort 0 0 (2 ^ 16) 0, .setFeatures 0 0 0 (2 ^ 32) 0 [],
    .getFeatures (2 ^ 16) 0 0 0 0, .asyncEventRequest 0 (2 ^ 16), .firmwareCommit (2 ^ 16) 0 0 0,
    .firmwareImageDownload 0 (2 ^ 16) 0 [], .keepAlive (2 ^ 16) 0, .fabricsConnect 0 0 (2 ^ 16) 0 0 0 [] [] [],
    .propertyGet (2 ^ 16) 0 0, .propertySet 0 (2 ^ 16) 0 0, .disconnect (2 ^ 16) 0, .controlReplyPoll 0 (2 ^ 16) 0,
    .controlPacketSubmit 0 (2 ^ 16) [] 0, .controlReplyFetch (2 ^ 16) 0 0] : List Instr).all (fun c => !wellFormed c) = true := by decide

theorem test_ill_formed_2 : ([
    .controlPayloadFetch 0 0 (2 ^ 32) 0 0, .anaOwnershipMove 1024, .mirrorData 0 0 513 0 0 0 [] [], .mirrorAck (2 ^ 64) 0,
    .commit (2 ^ 64) aCommitMark, .commitAck (2 ^ 64), .release [], .credit 0 (2 ^ 32) false, .vaultNotice (2 ^ 64),
    .vaultDone 0 (2 ^ 64), .markList (2 ^ 64) [], .withdraw (2 ^ 64) 0 0, .messageResendTimeout (2 ^ 64),
    .destageAgeExpiry 0 (2 ^ 64), .destageStart (2 ^ 32) 0, .fingerprintComplete (2 ^ 32),
    .resolve 0 0 false false (2 ^ 64) [] [], .resolveAnswer (2 ^ 64) 0 0, .resolvePendingTimeout (2 ^ 64),
    .indexReadComplete (2 ^ 64) false false, .refDelta (2 ^ 64) [], .place 0 (2 ^ 64) 0 0 false,
    .encodeComplete (2 ^ 32) 0 false, .slotDecryptComplete (2 ^ 32) 0 false, .slotEncryptComplete (2 ^ 32) 0,
    .usageGrantDraw (2 ^ 32), .hallPassEnd (2 ^ 64) none [] false none,
    .segmentVerify 0 ({ goodStart with lane := 12 }) .prefect [] none, .streamTagFail (2 ^ 64),
    .digestOpen false .sha3x256 (2 ^ 16) 0 [], .digestAbsorb (2 ^ 64) [], .digestFinalise (2 ^ 64), .digestRead (2 ^ 64) 0,
    .digestClose (2 ^ 64), .mrExtend false (2 ^ 16) [], .lockerRotate .cpi (2 ^ 32) aPeerAnswer,
    .lockerWithdraw (.mctp 256) 0 aPeerAnswer, .lockerRestore .cpi 0 ({ aPeerAnswer with detail := zeros 17 }),
    .lockerQuery .cpi (2 ^ 32), .gcStart 0 2048, .psaResolveAgain (2 ^ 32), .calibrationDue 0 4096, .stripeIdleClose (2 ^ 32),
    .stripeExtend (2 ^ 32), .groupOpen (2 ^ 32), .reconstructionCombine (2 ^ 32), .detentionProbe 0 0 0 4096,
    .detentionTimeout 64, .missingTimeout 64, .blpReadComplete ({ aBlpDone with bay := 64 }) [] [],
    .blpProgramComplete ({ aBlpDone with bay := 64 }), .blpEraseComplete ({ aBlpDone with bay := 64 })] : List Instr).all (fun c => !wellFormed c) = true := by decide

theorem test_ill_formed_3 : ([
    .blpSuspendComplete ({ aBlpDone with bay := 64 }), .blpResumeComplete ({ aBlpDone with bay := 64 }),
    .blpStatusComplete ({ aBlpDone with bay := 64 }) [], .blpCalibrateComplete ({ aBlpDone with bay := 64 }) [] [],
    .blpTelemetryComplete ({ aBlpDone with bay := 64 }) [], .blpFenceComplete ({ aBlpDone with bay := 64 }),
    .bayPresenceDetect 64, .bayPerstRelease 64, .bayLinkUp 64 0 0 0, .bayLinkTrainTimeout 64, .bayPresenceLost 64 false,
    .bayPowerOffTimeout 64, .bayRetrainTimer 64, .bayLinkReturn 64 0 0, .bayAttention 64 0, .bayLinkDegraded 64 0 0,
    .bayFullRetrain (some 64) 0 0, .witnessCasComplete 64 0, .heartbeat 0 (2 ^ 32) 0 0 0 0, .sheetTrigger (2 ^ 64) 0 0 0 0 0,
    .snapFence 0 (2 ^ 32) 0 [], .ttImage 0 0 (2 ^ 64) [], .ttVerdict (2 ^ 32) .ok [], .sbChange 0 (2 ^ 64) [],
    .anaMove 0 0 2 0 [], .hello (2 ^ 64) [], .releaseNotice (2 ^ 64), .resyncDone 0 0 2 0, .journal (2 ^ 64) [],
    .journalAck (2 ^ 64), .prefectRecord (2 ^ 64) .pause, .fedHeartbeat (2 ^ 11) 0 0 [], .fedUnreachable (2 ^ 11),
    .headAdopt (.mctp 256) 0, .headRelease .cpi (2 ^ 32), .fedRosterLoad (.mctp 256) 0, .fedTimeToken .cpi (2 ^ 32),
    .fedQuery (.mctp 256) 0, .keyEnroll .cpi (2 ^ 32), .keyRevoke (.mctp 256) 0, .quote .cpi (2 ^ 32), .mrRead (.mctp 256) 0,
    .identityGet .cpi (2 ^ 32), .escrowExport (.mctp 256) 0, .rootImport .cpi (2 ^ 32) [] aPoolMedia,
    .decommission (.mctp 256) 0, .fwDownload .cpi (2 ^ 32), .fwActivate (.mctp 256) 0, .clusterReport 32 false,
    .clusterReportTimeout 32, .pfwDownload .cpi (2 ^ 32), .pfwActivate (.mctp 256) 0] : List Instr).all (fun c => !wellFormed c) = true := by decide

theorem test_ill_formed_4 : ([
    .fwQuery .cpi (2 ^ 32), .mctpMessage 0 (2 ^ 64) [] 0, .pieceTimeout (.mctp 256), .replyRetentionExpiry (.mctp 256) 0,
    .claimBindingTimeout (.mctp 256), .sysInfo (.mctp 256) 0, .sysPortMode .cpi (2 ^ 32),
    .sysBinding (.mctp 256) 0 aPeerAnswer, .sysSubsystem .cpi 0 ({ aPeerAnswer with detail := zeros 17 }),
    .sysDataTimeout .cpi (2 ^ 32) aPeerAnswer, .sysHoldupCfg .cpi (2 ^ 32), .sysHoldupMeasure (.mctp 256) 0 0,
    .sysClaims .cpi (2 ^ 32), .sysIslandReset (.mctp 256) 0, .cpPayloadFetch .cpi (2 ^ 32),
    .poolForm .cpi (2 ^ 32) aPeerAnswer, .poolExtend (.mctp 256) 0 aPeerAnswer,
    .memberFail .cpi 0 ({ aPeerAnswer with detail := zeros 17 }), .bayWidthSet .cpi (2 ^ 32), .bayPower (.mctp 256) 0,
    .poolGrowFilter .cpi 0 ({ aPeerAnswer with detail := zeros 17 }), .poolGrowIndex .cpi (2 ^ 32) aPeerAnswer,
    .poolQuery .cpi (2 ^ 32), .poolErase .cpi 0 ({ aPeerAnswer with detail := zeros 17 }), .moduleUnform .cpi (2 ^ 32),
    .volCreate (.mctp 256) 0 aPeerAnswer, .volDelete .cpi 0 ({ aPeerAnswer with detail := zeros 17 }),
    .volResize .cpi (2 ^ 32) aPeerAnswer, .volSet (.mctp 256) 0 aPeerAnswer, .anaMoveGroup (.mctp 256) 0,
    .domainCreate .cpi (2 ^ 32) aPeerAnswer, .domainDelete (.mctp 256) 0 aPeerAnswer,
    .domainVerify .cpi 0 ({ aPeerAnswer with detail := zeros 17 }), .volQuery (.mctp 256) 0, .snapCreate .cpi (2 ^ 32),
    .snapshotSettle (2 ^ 32) false, .snapDelete .cpi (2 ^ 32) aPeerAnswer 0, .snapSeal (.mctp 256) 0 aPeerAnswer,
    .cloneCreate .cpi 0 ({ aPeerAnswer with detail := zeros 17 }), .snapQuery (.mctp 256) 0, .replPartnerAdd .cpi (2 ^ 32),
    .replPartnerRemove (.mctp 256) 0, .replSessionOpen .cpi (2 ^ 32), .replSessionClose (.mctp 256) 0,
    .replAsyncSend .cpi (2 ^ 32), .replSyncSet (.mctp 256) 0, .migrateExport .cpi (2 ^ 32), .migrateCutover (.mctp 256) 0,
    .replQuery .cpi (2 ^ 32), .accept (2 ^ 16) [], .prove (2 ^ 16) [], .refuse (2 ^ 16) 0] : List Instr).all (fun c => !wellFormed c) = true := by decide

theorem test_ill_formed_5 : ([
    .handshakeTimeout (2 ^ 16), .sessionRekey (2 ^ 16), .segmentSendTimer (2 ^ 16),
    .beginTransfer 0 0 0 (2 ^ 32) 0 0 0 0 0 0 [], .fingerprints (2 ^ 16) 0 [], .want 0 (2 ^ 32) [],
    .grain 0 (2 ^ 32) 0 0 [] [], .endTransfer 0 (2 ^ 32) 0 [], .replCommit (2 ^ 16) 0 0 0 [],
    .syncWrite 0 0 0 (2 ^ 64) 0 [] [], .syncAck 0 0 (2 ^ 64), .syncAckTimeout 0 (2 ^ 32), .syncFence 0 (2 ^ 32) 0 [],
    .syncCheckpoint (2 ^ 16), .fractureResumeTimer (2 ^ 16), .migrateRepeatTimer 0 (2 ^ 32), .keyAdopt (2 ^ 16) 0 [] [],
    .replAbort (2 ^ 16) 0 0 [], .diagDieOp .cpi (2 ^ 32), .diagLaneTest (.mctp 256) 0, .diagLaneGroup .cpi (2 ^ 32),
    .diagDramChannel (.mctp 256) 0, .diagBayGroup .cpi (2 ^ 32), .diagDump (.mctp 256) 0 [], .diagPin .cpi (2 ^ 32),
    .diagCapture (.mctp 256) 0, .diaryRead .cpi (2 ^ 32), .diaryFreeze (.mctp 256) 0, .diaryEvent (2 ^ 16) 0 0,
    .tallyRead (.mctp 256) 0, .tallyConfig .cpi (2 ^ 32), .bwWindow (.mctp 256) 0, .reportCard .cpi (2 ^ 32),
    .dramRefreshTick 16 0 0, .dimmTempRead 16 0, .dramSelfRefreshIdle 16, .dramCorrected 0 0 (2 ^ 16),
    .dramUncorrectable 16 0 .journal, .dramScrub 16, .dramChannelOut 16, .dramChannelDead 16, .dramEvacCopyDone 16,
    .dramTrainingDone 16 false, .pinFaultDetect (2 ^ 9) .isOpen, .pinOpenTest (2 ^ 9) false false, .pinFaultClear (2 ^ 9),
    .smbusRead (2 ^ 16), .registerWrite 0 (2 ^ 64) 0, .cnpReceived (2 ^ 16) 0, .keyAdoptWaitExpiry (2 ^ 32),
    .pinDriveRestored (2 ^ 9)] : List Instr).all (fun c => !wellFormed c) = true := by decide

theorem test_ill_formed_operands :
    (!(Binding.nvme 65536).ok && !(LaneId.mk .enc true 2).ok && !(LaneId.mk .dig false 24).ok &&
     !({ aBlpDone with tag := 2 ^ 32 } : BlpDone).ok && !({ aBlpDone with status := 256 } : BlpDone).ok &&
     !({ aCapsule with opcode := 256 } : Capsule).ok && !({ aCapsule with slba := 2 ^ 64 } : Capsule).ok &&
     !({ goodStart with nonce := zeros 11 } : CtxStart).ok && !({ goodEnv with dimms := [] } : StartEnv).ok &&
     !markOk { goodMark with count := 513 } && !markOk { goodMark with origin := 2 } &&
     !releaseOk [⟨0, 0, [0, 0, 0]⟩] && !releaseOk (List.replicate 65 ⟨0, 0, [0, 0, 0, 0]⟩) && !fitsDetail (zeros 17)) = true := by decide

theorem test_well_formed :
    ([.suppliesValid goodEnv, .laneFault ⟨.par, false, 7⟩, .commit 1 goodMark,
      .blpProgramComplete { aBlpDone with bay := 25 }, .anaOwnershipMove 1023, .dramScrub 15, .keyEnroll (.mctp 255) 4294967295,
      .gcStart 25 2047, .pinFaultClear 511] : List Instr).all wellFormed = true := by decide

/-! ### Worked examples of the spec -/

/-- R13: 4117:0316 is stored as 0x0040_553C. -/
theorem test_timestamp : bitField 57 10 0x0040553C = 4117 ∧ bitField 9 0 0x0040553C = 316 := by decide

/-- The PSA of chapter 8's example. -/
theorem test_psa : psaOf (blkKey 9 1203 4410) 2047 1 3 527015 = 0x2659C4E9FFD80AA7 := by decide

/-- Table 9-1. -/
theorem test_parity : parityCoef 0 0 = 0x47 ∧ parityCoef 0 4 = 0xAD ∧ parityCoef 0 28 = 0x6C ∧ parityMul (parityCoef 0 4) 2 = 0x47 := by
  decide +kernel

/-- The HPA of chapter 16's example, G of 4 KiB. -/
theorem test_hpa : ({ Dram.reset with grain := 4 } : Dram).home 0x001234567AC0 = 7 ∧
    ({ Dram.reset with grain := 4 } : Dram).offset 0x001234567AC0 = 0x123456AC0 ∧
    offsetFields 2 0x123456AC0 = [1, 5, 90, 2, 0, 0x1234] := by decide

/-- Chapter 4's example: the dirty limit for 149.3 J. -/
theorem test_dirty_limit : dirtyLimit 1493 1 3240 200000 10000000 65536 = 63154 := by decide

/-- R217: the fixed-mode lengths are valid. -/
theorem test_fixed_lengths : lengthsOk fixedLengths = true := by decide +kernel

/-- The grain of Table 6-10. -/
def coded : Bytes := [0x01, 0, 0, 0, 0x15, 0, 0x01, 0x40, 0, 0x10, 0, 0, 0x41, 0, 0, 0] ++ zeros 16 ++
  [0xD5, 0xCA, 0x16, 0x4C, 0x5B, 0xA6, 0x68, 0x91, 0xE2, 0x45, 0x2B, 0xA5, 0xCD, 0x98, 0x33, 0x43,
   0xF6, 0x04, 0x3E, 0xF9, 0x3E, 0x01, 0xFC, 0xF9, 0x01, 0x01, 0xFC, 0xF9, 0x01, 0x01, 0xFC, 0xF9, 0x01] ++ zeros 4031

/-- Its header holds as the example reads it. -/
theorem test_skx_header : headerFault coded 1 = none ∧ (skxHeader coded).lens = [21, 4, 4, 4] ∧ (skxHeader coded).total = 65 := by
  decide +kernel

/-- The example's fault: padding bit 166 of quarter 0 set. -/
theorem test_skx_trailing : (match decodeQuarter (canonical (fixedLengths.take 288)) (canonical (fixedLengths.drop 288))
    [0xD5, 0xCA, 0x16, 0x4C, 0x5B, 0xA6, 0x68, 0x91, 0xE2, 0x45, 0x2B, 0xA5, 0xCD, 0x98, 0x33, 0x43, 0xF6, 0x04, 0x3E, 0xF9, 0x7E] with
    | .error e => some e
    | .ok _ => none) = some ⟨.skxTrailing, 166⟩ := by decide +kernel

/-- The GCM vector of a zero key, nonce and empty text, published with the mode. -/
theorem test_gcm : gcmSeal (zeros 32) (zeros 12) [] [] =
    ([], [0x53, 0x0F, 0x8A, 0xFB, 0xC7, 0x45, 0x36, 0xB9, 0xA9, 0x63, 0xB4, 0xF1, 0xC4, 0xCB, 0x73, 0x8B]) := by decide +kernel

/-! ### Steps -/

/-- A bell starts the next period (R38). -/
theorem test_next_period : (nextPeriod { ws with tt := { ws.tt with now := 1023, raiseTo := some 7 } }).tt.now = 7 * 1024 := by decide

/-- An event of the newest record's kind repeats it (R583). -/
theorem test_repeat : ((event 0x2001 1 5 (event 0x2001 1 5 ws)).diary.ring.map (·.repeats)) = [1] := by decide

/-- A claim held by another feature blocks, the lowest first (R547). -/
theorem test_blocked : ((claimAll [9, 4] 0x0A01 2 7 none ws).cpi.blocked [9, 4, 1] (fun _ => false)).map (·.resource) = some 4 := by decide

/-- With an empty queue the block idles. -/
theorem test_idle : step State.reset = .next State.reset := rfl

/-! ### Premises of the statements about shared operations -/

theorem meets_invariant : DiaryOk ws.diary ∧ ∃ t, step { ws with pending := [.mgmtPerst] } = .next t :=
  ⟨⟨rfl, by decide, fun _ => ⟨rfl, rfl⟩⟩, _, rfl⟩

theorem meets_times : ws.tt.now < 2 ^ 58 ∧ ws.period ≠ 1023 ∧
    ∃ s : State, s.period = 1023 ∧ s.tt.raiseTo = some 9 ∧ s.day + 1 ≤ 9 :=
  ⟨by decide, by decide, { ws with tt := { ws.tt with now := 1023, raiseTo := some 9 } }, by decide, rfl, by decide⟩

theorem meets_windows : (0x14 ≤ 0x14 ∧ 0x14 ≤ 0xFF) ∧ (0x14 ≤ 0xFF ∧ 0xFF ≤ 0xFF) := by decide

theorem meets_address : 63 < 64 ∧ 2047 < 2048 ∧ 8191 < 8192 ∧ 4095 < 4096 ∧ 3 < 4 ∧ 1 ≤ 4 ∧ 4 ≤ 4 := by decide

theorem meets_evacuation : ∃ (d : Dram) (h off : Nat), h < 16 ∧ 0 < d.capacity ∧ d.capacity % (16 * d.g) = 0 ∧
    off < 15 * (d.capacity / 16) :=
  ⟨{ Dram.reset with channels := [{ Channel.reset with dimm := some ⟨.rdimm, 0, 0, 64, 2, 0⟩ }] }, 15, 0, by decide, by decide, by decide, by decide⟩

theorem meets_nonces : ∃ (s t u : State) (n m : Bytes), (s.ciph.counter 0 0 0).ceiling < 2 ^ 80 ∧
    takeNonce 0 0 0 1 s = (t, some n) ∧ takeNonce 0 0 0 1 t = (u, some m) :=
  ⟨{ ws with ciph := { ws.ciph with counters := [⟨0, 0, 0, 5, 2 ^ 40, none⟩] } }, _, _, _, _, by decide, rfl, rfl⟩

theorem meets_counts : ∃ (s : State) (r q : CtRec), s.ftl.ctRec 1 = some r ∧ r.refs = 0 ∧ s.ftl.ctRec 2 = some q ∧
    0 ≤ (r.refs : Int) + 3 ∧ (r.refs : Int) + 3 ≤ 0xFFFFFFFF :=
  ⟨{ ws with ftl := { ws.ftl with ct := [(1, ⟨0, 0, 0, 0, 0, 1, 0⟩), (2, ⟨0, 1, 0, 0, 0, 1, 0⟩)] } }, _, _, rfl, rfl, rfl, by decide, by decide⟩

theorem meets_diary : ws.diary.frozen = false ∧ (freezeDiary ws).diary.frozen = true ∧ (freezeDiary ws).diary.pocket.length ≤ 4096 := by decide

theorem meets_arbitration : 3 + 3 ≤ 6 ∧ meets 0 3 6 = true ∧ meets 1 3 6 = false := by decide

theorem meets_claims : ∃ (c : Cpi) (k : Claim), c.blocked [1] (fun _ => false) = some k ∧ c.blocked [2] (fun _ => false) = none :=
  ⟨(claimAll [1] 0x0A01 2 7 none ws).cpi, _, rfl, rfl⟩

theorem meets_grain : (zeros 16384).length = 16384 ∧ (zeros 32).length = 32 ∧ (zeros 12).length = 12 :=
  ⟨List.length_replicate, List.length_replicate, List.length_replicate⟩

theorem meets_strips : ∃ strips : List Bytes, 1 < 2 ∧ 2 ≤ 32 ∧ 3 < 4 ∧ strips.length = 2 ∧ ∀ x ∈ strips, x.length = 1 :=
  ⟨[[5], [7]], by decide⟩

/-! ### Premises that an opaque verification takes part in: met where it accepts -/

theorem meets_reconstructionCombine : ∃ (r : SlotRead) (g : Group) (x : Stripe) (pos : Nat) (bytes : Bytes) (s : State),
    s.jobs.read 0 = some r ∧ s.ec.stripeOf r.psa = some (g, (x, pos)) ∧ r.stage = .reconstruct ∧
    r.sources.all (fun p => p.2.isSome) = true ∧ r.sources ≠ [] ∧
    bytes = reconstruct g.k pos (r.sources.map (fun p => (p.1, p.2.getD []))) :=
  ⟨{ aSlotRead with stage := .reconstruct, psa := psaOf (blkKey 0 0 5) 0 0 1 0, sources := [(1, some [])] },
   { aGroup with k := 1, blocks := [blkKey 0 0 5], stripes := [aStripe] }, aStripe, 0, _,
   { ws with
     jobs := { ws.jobs with reads := [{ aSlotRead with stage := .reconstruct, psa := psaOf (blkKey 0 0 5) 0 0 1 0, sources := [(1, some [])] }] }
     ec := { ws.ec with groups := [{ aGroup with k := 1, blocks := [blkKey 0 0 5], stripes := [aStripe] }] } },
   rfl, rfl, rfl, rfl, nofun, rfl⟩

/-- A roster of two chips, this one the second. -/
def aRoster : Bytes := ascii "BRCFEDRS" ++ [1, 0, 0, 0] ++ leBytes 4 2 ++ zeros 16 ++ leBytes 8 1 ++ zeros 24 ++ zeros 64 ++
  leBytes 4 1 ++ zeros 4 ++ sha3_256 [] ++ zeros 24 ++ zeros 4741

theorem meets_rosterReceived (ed : ∀ k m c s, Config.ed448Verify k m c s = true) (ml : ∀ k m c s, Config.mldsaVerify k m c s = true) :
    ∃ s : State, s.rosterRefusal aRoster = none := by
  refine ⟨{ ws with trust := { ws.trust with matched := 256 } }, ?_⟩
  have h1 : rosterFormOk aRoster = true := by decide +kernel
  have h2 : ({ ws.trust with matched := 256 } : Trust).slotUsable 8 = true := by decide
  have h3 : fieldAt aRoster 32 8 = 1 := by decide +kernel
  have h4 : (rosterEntries aRoster).any (fun e => e.2.2 == ({ ws with trust := { ws.trust with matched := 256 } } : State).identity) = true := by decide +kernel
  have h5 : ws.corr.rosterNo = 0 := rfl
  unfold State.rosterRefusal
  simp only [h1, h3, h4, h5]
  simp [Trust.checkAny, ed, ml, h2, List.range, List.range.loop]

/-- A signature block of manufacturing slot 24. -/
def makerBlock : Bytes := leBytes 2 24 ++ zeros 4798

theorem maker_accepts (t : Trust) (msg : Bytes) (ctx : String) (rom : Config.romKeyDigests[0]? = some (keyRecordDigest []))
    (ed : ∀ k m c s, Config.ed448Verify k m c s = true) (ml : ∀ k m c s, Config.mldsaVerify k m c s = true)
    (h : getKey 24 t.flash.records = some []) : t.checkMaker msg ctx makerBlock = none := by
  have h1 : sigSlot makerBlock = 24 := by decide +kernel
  have h2 : sigClean makerBlock = true := by decide +kernel
  simp [Trust.checkMaker, checkBlock, Trust.romKeyOk, h1, h2, h, ed, ml, rom]

/-- An identity record under manufacturing slot 24. -/
def aRecord : Bytes := ascii "BRCIDREC" ++ [1] ++ zeros 0x10F7 ++ makerBlock

theorem meets_hello (rom : Config.romKeyDigests[0]? = some (keyRecordDigest []))
    (ed : ∀ k m c s, Config.ed448Verify k m c s = true) (ml : ∀ k m c s, Config.mldsaVerify k m c s = true) :
    ∃ (m : Sent) (s : State), s.drops (.hello aRecord) = false ∧ getKey 0 s.corr.answered = none ∧ s.pwr.stage = .joining ∧
      s.corr.answerOf (fun b => match b with | .hello _ => true | _ => false) = some m ∧
      s.trust.identityOk aRecord = true ∧ s.knows (1 - s.sys.slot) (identityDigest aRecord) = true := by
  refine ⟨⟨0, .hello [], 0, 0, false⟩, { ws with
    pwr := { ws.pwr with stage := .joining }
    corr := { ws.corr with unanswered := [⟨0, .hello [], 0, 0, false⟩] }
    trust := { ws.trust with flash := { ws.trust.flash with records := [(24, [])] } } }, rfl, rfl, rfl, rfl, ?_, rfl⟩
  have h : slice aRecord 0x1100 4800 = makerBlock := by decide +kernel
  have h1 : (slice aRecord 0 8 == ascii "BRCIDREC" && fieldAt aRecord 8 1 == 1 && allZero (slice aRecord 0x0A 6) &&
    allZero (slice aRecord 0x28 24) && allZero (slice aRecord 0x79 7) && allZero (slice aRecord 0xAD8 8)) = true := by decide +kernel
  unfold Trust.identityOk
  rw [h, maker_accepts _ _ _ rom ed ml rfl, h1]
  rfl

/-- A Prefect image of one empty chunk. -/
def anImage : Bytes := ascii "BRCFWIMG" ++ [1, 1, 0, 0] ++ leBytes 2 1 ++ leBytes 2 1 ++ zeros 16 ++ leBytes 4 8192 ++ zeros 28 ++
  leBytes 4 8192 ++ zeros 28 ++ sha3_256 [] ++ makerBlock ++ zeros 3264

theorem anImage_accepted (t : Trust) (rom : Config.romKeyDigests[0]? = some (keyRecordDigest []))
    (ed : ∀ k m c s, Config.ed448Verify k m c s = true) (ml : ∀ k m c s, Config.mldsaVerify k m c s = true)
    (h : getKey 24 t.flash.records = some []) (hc : t.counterOf 1 = 0) : checkWhole t 1 anImage = none := by
  have h1 : imageFormatOk anImage = true := by decide +kernel
  have h2 : imageKind anImage = 1 := by decide +kernel
  have h3 : slice anImage (imageHead anImage) 4800 = makerBlock := by decide +kernel
  have h4 : fieldAt anImage 0x0A 1 = 0 := by decide +kernel
  have h6 : checkChunks anImage (List.range (imageChunks anImage)) = none := by decide +kernel
  simp [checkWhole, checkImage, imageSigned, h1, h2, h3, h4, h6, hc, maker_accepts t _ _ rom ed ml h]

theorem meets_pfwActivate (rom : Config.romKeyDigests[0]? = some (keyRecordDigest []))
    (ed : ∀ k m c s, Config.ed448Verify k m c s = true) (ml : ∀ k m c s, Config.mldsaVerify k m c s = true) :
    ∃ (p : Packet) (image : Bytes) (u s : State), s.cpi.packet .cpi 0 0x0904 = some p ∧ s.trust.activation = none ∧
      (s.trust.fwSlot (s.trust.otherSlot 1)).image = some image ∧ s.paired = false ∧ checkWhole s.trust 1 image = none ∧
      u = programGuard (countActivation (s.trust.otherSlot 1) (runPrefect (some (s.trust.otherSlot 1)) image (sendPeer (.prefectRecord .pause) s))) :=
  ⟨{ aPacket with opcode := 0x0904 }, anImage, _, { ws with
    cpi := { ws.cpi with accepted := [{ aPacket with opcode := 0x0904 }] }
    trust := { ws.trust with flash := { ws.trust.flash with
      records := [(24, [])]
      slotB := { ws.trust.flash.slotB with image := some anImage } } } }, rfl, rfl, rfl, rfl,
    anImage_accepted _ rom ed ml rfl rfl, rfl⟩

end Sys2Proof.Machine
end

