-- ==== Sys2Proof/Proofs/Scope.lean ====
section
/-! SUPPORT. Timestamps, the register file and the commands of no other group: what a field of bits of a bounded number
is, what a write of each selector and flag register leaves, and that an offset without a writable field ignores it. -/

namespace Sys2Proof.Machine

/-! ### Fields of bits -/

/-- A field from bit 0 is the remainder. -/
theorem bitField_from_zero (hi v : Nat) : bitField hi 0 v = v % 2 ^ (hi + 1) := by simp [bitField]

/-- Where nothing stands above the field, cutting it out is the shift alone. -/
theorem bitField_top {hi lo v : Nat} (hlo : lo ≤ hi) (hv : v < 2 ^ (hi + 1)) : bitField hi lo v = v / 2 ^ lo := by
  refine Nat.mod_eq_of_lt (Nat.div_lt_of_lt_mul ?_)
  rwa [← pow_add, show lo + (hi - lo + 1) = hi + 1 by omega]

/-- A field above a bound of the number is zero. -/
theorem bitField_above {hi lo v : Nat} (hv : v < 2 ^ lo) : bitField hi lo v = 0 := by
  rw [bitField, Nat.div_eq_of_lt hv, Nat.zero_mod]

/-! ### Timestamps (R13) -/

theorem day_lt {s : State} (h : s.tt.now < 2 ^ 58) : s.day < 2 ^ 48 :=
  Nat.div_lt_of_lt_mul h

theorem period_lt (s : State) : s.period < 1024 := Nat.mod_lt _ (by decide)

theorem now_eq_day_period (s : State) : s.tt.now = 1024 * s.day + s.period := (Nat.div_add_mod s.tt.now 1024).symm

/-- Settles O5: the day count is the quotient of the time by 1,024 and the period its remainder, and below 2^58 the
quotient fits the 48 bits of its field. -/
theorem timestamps : Obligations.Timestamps := fun s h =>
  ⟨bitField_above h, bitField_top (by decide) h, bitField_from_zero 9 _, day_lt h, period_lt s, now_eq_day_period s⟩

/-! ### What a register write does (Table 0-4) -/

/-- The registers with a field RW or W1C: EC_MEMBER_SEL, BAY_SEL, DRAM_CFG, DRAM_CH_SEL, DIARY_CURSOR, DIARY_CTRL,
TALLY_BW_SEL, PWR_RAILS, CLK_REFS, CLK_ISLAND_SEL and PINS_SEL, each with its window and its offset. -/
def writableRegs : List (Nat × Nat) :=
  [(0x0B, 0x00), (0x0C, 0x00), (0x0E, 0x00), (0x0E, 0x08), (0x0F, 0x10), (0x0F, 0x18), (0x10, 0x08), (0x11, 0x00),
    (0x12, 0x00), (0x12, 0x08), (0x13, 0x00)]

/-- A write that meets no writable register is ignored. -/
theorem writeReg_ignored {window off : Nat} (h : (window, off) ∉ writableRegs) (v : Nat) (s : State) :
    writeReg window off v s = s := by
  simp only [writableRegs, List.mem_cons, Prod.mk.injEq, List.not_mem_nil, or_false, not_or] at h
  obtain ⟨hec, hbay, hcfg, hch, hcursor, hctrl, hbw, hrails, hrefs, hclk, hpins⟩ := h
  rw [writeReg, if_neg hec, if_neg hbay, if_neg hcfg, if_neg hch, if_neg hcursor, if_neg hctrl, if_neg hbw, if_neg hrails,
    if_neg hrefs, if_neg hclk, if_neg hpins]

section
variable (v : Nat) (s : State)

@[simp] theorem writeReg_ecMemberSel : writeReg 0x0B 0x00 v s = { s with ec := { s.ec with sel := v % 64 } } := by
  simp [writeReg, bitField_from_zero]

@[simp] theorem writeReg_baySel : writeReg 0x0C 0x00 v s = { s with bay := { s.bay with sel := v % 64 } } := by
  simp [writeReg, bitField_from_zero]

@[simp] theorem writeReg_dramChSel : writeReg 0x0E 0x08 v s = { s with dram := { s.dram with chSel := v % 16 } } := by
  simp [writeReg, bitField_from_zero]

@[simp] theorem writeReg_diaryCursor : writeReg 0x0F 0x10 v s = { s with diary := { s.diary with cursor := v } } := rfl

@[simp] theorem writeReg_diaryCtrl : writeReg 0x0F 0x18 v s = if bitAt 0 v then freezeDiary s else thawDiary 2 s := rfl

@[simp] theorem writeReg_tallyBwSel : writeReg 0x10 0x08 v s = { s with tally := { s.tally with bwSel := v % 16 } } := by
  simp [writeReg, bitField_from_zero]

@[simp] theorem writeReg_pwrRails :
    writeReg 0x11 0x00 v s = { s with pwr := { s.pwr with tripped := cleared s.pwr.tripped (v / 2 ^ 32) 9 } } := rfl

@[simp] theorem writeReg_clkRefs :
    writeReg 0x12 0x00 v s = { s with pwr := { s.pwr with refsLost := cleared s.pwr.refsLost (v / 2 ^ 8) 4 } } := rfl

@[simp] theorem writeReg_clkIslandSel : writeReg 0x12 0x08 v s = { s with pwr := { s.pwr with clkSel := v % 32 } } := by
  simp [writeReg, bitField_from_zero]

@[simp] theorem writeReg_pinsSel : writeReg 0x13 0x00 v s = { s with pins := { s.pins with sel := v % 512 } } := by
  simp [writeReg, bitField_from_zero]

end

/-- REGISTER_WRITE answers the state its write leaves. -/
theorem exec_registerWrite (window off : Nat) (value : Word64) (s : State) :
    exec (.registerWrite window off value) s = .next (writeReg window off value.toNat s) := rfl

/-- A register write completes with whatever its write leaves, within the blocks that hold writable registers. -/
theorem registerWrite_completes {window off : Nat} {value : Word64} {s : State} {effect : State → Prop}
    (h : effect (writeReg window off value.toNat s)) :
    Completes (.registerWrite window off value) s (footprint (.registerWrite window off value)) effect :=
  .of (execRegisterWrite_led window off value (.refl _ s) rfl) ⟨_, exec_registerWrite window off value s, h⟩

/-! ### The windows of Table 0-5 -/

/-- No writable register stands in an unassigned window. -/
theorem not_mem_writableRegs_of_unassigned {window off : Nat} (h : 0x14 ≤ window) : (window, off) ∉ writableRegs := by
  simp only [writableRegs, List.mem_cons, Prod.mk.injEq, List.not_mem_nil, or_false]
  omega

/-- No writable register stands at offset 0x20 of any window. -/
theorem not_mem_writableRegs_at_0x20 (window : Nat) : (window, 0x20) ∉ writableRegs := by simp [writableRegs]

/-- A read past the last assigned window meets none of the windows of Table 0-5. -/
theorem readReg_unassigned {window : Nat} (h : 0x14 ≤ window) (off : Nat) (s : State) : readReg s window off = 0 := by
  unfold readReg
  simp (disch := omega) only [if_neg]

/-- Settles O7: an unassigned window is none of those that `readReg` reads, and holds no writable register. -/
theorem unassignedWindows : Obligations.UnassignedWindows := fun s window off value h _ =>
  ⟨readReg_unassigned h off s, by
    rw [exec_registerWrite, writeReg_ignored (not_mem_writableRegs_of_unassigned h)]⟩

/-- Settles O8: every register of the list is a closed term at `State.reset`, so the list is evaluated entry by entry. -/
theorem registersAtReset : Obligations.RegistersAtReset := by
  unfold Obligations.RegistersAtReset
  decide

/-! ### The commands of no other group -/

/-- A CNP of a queue pair leaves it a rate below the one it had, by a free value (R88, log entry 82). -/
theorem exec_cnpReceived {cntlid qid : Nat} {q : Queue} {s : State} (h : s.hq.queue cntlid qid = some q) :
    exec (.cnpReceived cntlid qid) s = .next (drawn 1 { s with hq := { s.hq with
      cnps := s.hq.cnps.filter (fun c => !(c.1 == cntlid && c.2.1 == qid)) ++
        [(cntlid, (qid, s.free % max 1 (s.hq.rateOf cntlid qid)))] } }) := by
  change execCnpReceived cntlid qid s = _
  simp only [execCnpReceived, h]

/-- The hold on delete tickets ends once its time of the oscillator has come (R441). -/
theorem exec_deleteTicketHoldEnd {until_ : Nat} {s : State} (h : s.trust.holdEnd = some until_)
    (due : until_ ≤ s.trust.oscNs) :
    exec .deleteTicketHoldEnd s = .next { s with trust := { s.trust with holdEnd := none } } :=
  whenDue_pos ⟨until_, h, due⟩

/-- Settles O60: a register's write is read off its equation, a write where no register is writable is ignored, and each
other command answers what it does where it is due; the frames are those of `Laws/`. -/
theorem registerAndOtherCommands : Obligations.RegisterAndOtherCommands := by
  unfold Obligations.RegisterAndOtherCommands
  refine ⟨?ecMemberSel, ?baySel, ?dramChSel, ?diaryCursor, ?diaryCtrl, ?tallyBwSel, ?pwrRails, ?clkRefs, ?clkIslandSel,
    ?pinsSel, ?ignored, ?cnpReceived, ?rosterReceived, ?deleteTicketHoldEnd, ?mgmtPerst, ?messageReserved, ?messageCrc⟩
  case ecMemberSel => exact fun v s => registerWrite_completes (by simp)
  case baySel => exact fun v s => registerWrite_completes (by simp)
  case dramChSel => exact fun v s => registerWrite_completes (by simp)
  case diaryCursor => exact fun v s => registerWrite_completes (by simp)
  case diaryCtrl => exact fun v s => by rw [exec_registerWrite, writeReg_diaryCtrl]
  case tallyBwSel => exact fun v s => registerWrite_completes (by simp)
  case pwrRails => exact fun v s => registerWrite_completes (by simp)
  case clkRefs => exact fun v s => registerWrite_completes (by simp)
  case clkIslandSel => exact fun v s => registerWrite_completes (by simp)
  case pinsSel => exact fun v s => registerWrite_completes (by simp)
  case ignored =>
    intro window v s
    rw [exec_registerWrite, writeReg_ignored (not_mem_writableRegs_at_0x20 window)]
  case cnpReceived =>
    exact fun cntlid qid q s hq => .of (execCnpReceived_led cntlid qid (.refl _ s) rfl) ⟨_, exec_cnpReceived hq, rfl⟩
  case rosterReceived => exact fun roster s ok => whenDue_pos ok
  case deleteTicketHoldEnd =>
    exact fun until_ s hold due => .of (execDeleteTicketHoldEnd_led (.refl _ s) rfl) ⟨_, exec_deleteTicketHoldEnd hold due, rfl⟩
  case mgmtPerst => exact fun s => .of (execMgmtPerst_led (.refl _ s) rfl) ⟨_, rfl, rfl, rfl⟩
  case messageReserved => exact fun k s reserved => whenDue_pos reserved
  case messageCrc => exact fun s => rfl

end Sys2Proof.Machine
end

namespace Sys2Proof.Machine

/-! ### Engine lanes (R26, R225, R529)

SUPPORT. LANE_FAULT and LANE_ROTATION act once they are due, so `whenDue_pos` says what they leave. LANE_TEST_COMPLETE
settles the lane's test (`testDone`) and then answers the DIAG_LANE_TEST that waits on it, if there is one. -/

/-- The DIAG_LANE_TEST that waits on a lane that is out (R529, Table 15-13), as LANE_TEST_COMPLETE looks it up. -/
def State.askedLaneTest (s : State) (lane : LaneId) : Option Packet :=
  s.cpi.accepted.find? (fun p => p.opcode == 0x0802 && p.param 0 1 == laneIsland lane &&
    laneOf lane.kind (p.param 1 1) == lane && s.lanes.isOut lane)

/-- What LANE_TEST_COMPLETE does to the lane does not depend on whether a packet waits on it (R529). -/
theorem exec_laneTestComplete (lane : LaneId) (pass : Bool) (s : State) :
    exec (.laneTestComplete lane pass) s = .next ((s.askedLaneTest lane).elim (testDone lane pass s)
      (fun p => changed p (fields [(1, flagBit (!pass)), (7, 0)]) (testDone lane pass s))) := by
  change execLaneTestComplete lane pass s = _
  unfold execLaneTestComplete State.askedLaneTest
  dsimp only
  split
  next unasked => rw [unasked]; rfl
  next p asked => rw [asked]; rfl

section
variable {lane : LaneId} {s : State}

/-- A lane that is out and passes its test returns (R529). -/
theorem testDone_pass (out : s.lanes.isOut lane = true) : testDone lane true s = laneBack lane s := by
  simp [testDone, out]

@[simp] theorem laneBack_out : (laneBack lane s).lanes.out = s.lanes.out.filter (fun o => o.lane != lane) := rfl

/-- The island's own rotation asks for no answer (R529). -/
theorem exec_laneTestComplete_unasked (out : s.lanes.isOut lane = true) (unasked : s.askedLaneTest lane = none) :
    exec (.laneTestComplete lane true) s = .next (laneBack lane s) := by
  rw [exec_laneTestComplete, unasked, testDone_pass out]
  rfl

/-- A test on demand is answered with result 0 for a pass (Table 15-13). -/
theorem exec_laneTestComplete_asked {p : Packet} (out : s.lanes.isOut lane = true) (asked : s.askedLaneTest lane = some p) :
    exec (.laneTestComplete lane true) s = .next (changed p (fields [(1, 0), (7, 0)]) (laneBack lane s)) := by
  rw [exec_laneTestComplete, asked, testDone_pass out]
  rfl

end

/-- Settles O57: LANE_FAULT and LANE_ROTATION are due under their premises; a passed test puts the lane back, and of the
answer to the packet that asked for it the lanes take no notice. -/
theorem laneCommands : Obligations.LaneCommands := by
  unfold Obligations.LaneCommands
  refine ⟨?laneFault, ?laneRotation, ?testUnasked, ?testAsked⟩
  case laneFault => exact fun lane s exists_ => whenDue_pos exists_
  case laneRotation => exact fun lane s exists_ turn alone cover => whenDue_pos ⟨exists_, turn, alone, cover⟩
  case testUnasked => exact fun _ _ => exec_laneTestComplete_unasked
  case testAsked =>
    exact fun lane p s out asked => .of (execLaneTestComplete_led lane true (.refl _ s) rfl)
      ⟨_, exec_laneTestComplete_asked out asked, changed_replied .., by rw [changed_lanes, laneBack_out]⟩

end Sys2Proof.Machine

namespace Sys2Proof.Machine

/-- Settles O1: `step` takes the queue apart. -/
theorem stepRunsFrontCommand : Obligations.StepRunsFrontCommand := fun _ _ _ => rfl

/-! ### The period after this one (R38, R39, R43) -/

section
variable {s : State}

/-- Period 1,023 is the last of its day. -/
theorem dayEnd_iff : (s.tt.now + 1) % 1024 = 0 ↔ s.period = 1023 := by
  unfold State.period
  omega

/-- Within a day the time rises by one. -/
theorem nextPeriod_now_within_day (h : s.period ≠ 1023) : (nextPeriod s).tt.now = s.tt.now + 1 := by
  simp [nextPeriod, dayEnd_iff, h]

theorem nextPeriod_raiseTo_within_day (h : s.period ≠ 1023) : (nextPeriod s).tt.raiseTo = s.tt.raiseTo := by
  simp [nextPeriod, dayEnd_iff, h]

/-- The day that follows a day: the next one, or the pending count where that is higher. -/
def State.dayAfter (s : State) : Nat := max (s.day + 1) (s.tt.raiseTo.getD 0)

/-- At the end of a day the time is that of period 0 of the day that follows. -/
theorem nextPeriod_now_at_dayEnd (h : s.period = 1023) : (nextPeriod s).tt.now = 1024 * s.dayAfter := by
  have next : s.tt.now + 1 = 1024 * (s.day + 1) := by rw [now_eq_day_period, h]; ring
  simp only [nextPeriod, dayEnd_iff, h, if_true]
  rw [next, State.dayAfter, Nat.mul_max_mul_left]

theorem nextPeriod_raiseTo_at_dayEnd (h : s.period = 1023) : (nextPeriod s).tt.raiseTo = none := by
  simp [nextPeriod, dayEnd_iff, h]

theorem nextPeriod_period_at_dayEnd (h : s.period = 1023) : (nextPeriod s).period = 0 := by
  rw [State.period, nextPeriod_now_at_dayEnd h, Nat.mul_mod_right]

theorem nextPeriod_day_at_dayEnd (h : s.period = 1023) : (nextPeriod s).day = s.dayAfter := by
  rw [State.day, nextPeriod_now_at_dayEnd h, Nat.mul_div_cancel_left _ (by decide)]

theorem day_lt_dayAfter (s : State) : s.day < s.dayAfter := Nat.lt_of_lt_of_le (Nat.lt_succ_self _) (Nat.le_max_left ..)

/-- Without a higher pending count the next day follows. -/
theorem dayAfter_eq_succ (h : ∀ d, s.tt.raiseTo = some d → d ≤ s.day + 1) : s.dayAfter = s.day + 1 := by
  refine Nat.max_eq_left ?_
  cases raise : s.tt.raiseTo with
  | none => exact Nat.zero_le _
  | some d => exact h d raise

/-- A pending count that is higher is the day that follows. -/
theorem dayAfter_eq_raiseTo {d : Nat} (raise : s.tt.raiseTo = some d) (h : s.day + 1 ≤ d) : s.dayAfter = d := by
  rw [State.dayAfter, raise]
  exact Nat.max_eq_right h

end

/-- Settles O6: within a day the time rises by one; at its end it is that of period 0 of the day that follows. -/
theorem periodsAdvance : Obligations.PeriodsAdvance := by
  refine fun s => ⟨fun within => ⟨nextPeriod_now_within_day within, nextPeriod_raiseTo_within_day within⟩, fun atEnd => ?_⟩
  rw [nextPeriod_day_at_dayEnd atEnd]
  exact ⟨nextPeriod_period_at_dayEnd atEnd, day_lt_dayAfter s, nextPeriod_raiseTo_at_dayEnd atEnd, dayAfter_eq_succ,
    fun _ => dayAfter_eq_raiseTo⟩

end Sys2Proof.Machine


namespace Sys2Proof.Machine

/-! ### The row of an accepted packet -/

/-- A packet's row runs on the accepted packet that its operands name. -/
theorem onPacket_next {b : Binding} {tag opcode : Nat} {f : Packet → State → State} {s : State} {p : Packet}
    (h : s.cpi.packet b tag opcode = some p) : onPacket b tag opcode f s = .next (f p s) := by
  simp only [onPacket, h]

/-! ### Diagnostic packets (R81, R410, R423, R529, R549, R578, R628, R632) -/

section
variable {b : Binding} {tag : Nat} {p : Packet} {s : State}

/-- An operation other than TELEMETRY is posted without a selector (Table 15-12). -/
theorem exec_diagDieOp (h : s.cpi.packet b tag 0x0801 = some p) (op : p.param 1 1 ≠ 8) :
    exec (.diagDieOp b tag) s = .next (queueOp { blkOp (p.param 1 1) (blkKey (p.param 0 1) (p.param 2 2) (p.param 4 2))
      (p.param 6 2) 0 (if (s.formAt (p.param 0 1) (p.param 2 2)).isSome then 4 else 0) (.diag b tag) [] with selector := 0 } s) := by
  refine (onPacket_next h : execDiagDieOp b tag s = _).trans ?_
  rw [if_neg op]

/-- Lane 0 of the digest island exists and lies there (Table 1-2), so its test starts (R529). -/
theorem exec_diagLaneTest_dig (h : s.cpi.packet b tag 0x0802 = some p) (island : p.param 0 1 = 18) (lane : p.param 1 1 = 0) :
    exec (.diagLaneTest b tag) s = .next (laneOut (laneOf .dig 0) .test s) := by
  refine (onPacket_next h : execDiagLaneTest b tag s = _).trans ?_
  rw [island, lane]
  rfl

/-- A lane group leaves by planned removal (R81). -/
theorem exec_diagLaneGroup_remove (h : s.cpi.packet b tag 0x0803 = some p) (act : p.param 1 1 = 1) :
    exec (.diagLaneGroup b tag) s = .next (changed p (leBytes 8 s.switchDay) (trigger true 2 (p.param 0 1) s)) := by
  refine (onPacket_next h : execDiagLaneGroup b tag s = _).trans ?_
  rw [if_pos act]

/-- A lane group is put back and begins its 64 days (R81). -/
theorem exec_diagLaneGroup_return (h : s.cpi.packet b tag 0x0803 = some p) (act : p.param 1 1 ≠ 1) :
    exec (.diagLaneGroup b tag) s = .next (changed p (leBytes 8 (s.day + 64)) (beginReturn ⟨2, s.sys.slot, p.param 0 1⟩
      { s with lanes := { s.lanes with groupsOut := s.lanes.groupsOut.filter (fun x => x != p.param 0 1) } })) := by
  refine (onPacket_next h : execDiagLaneGroup b tag s = _).trans ?_
  rw [if_neg act]

/-- A channel in service is taken out at the switch day while no other is under way (R578). -/
theorem exec_diagDramChannel_remove (h : s.cpi.packet b tag 0x0804 = some p) (act : p.param 1 1 ≠ 3)
    (idle : s.dram.evacPhase = .none) (free : s.dram.evacNext = none) (serves : (s.dram.ch (p.param 0 1)).state = .inService) :
    exec (.diagDramChannel b tag) s = .next (changed p (leBytes 8 s.switchDay) (trigger true 3 (p.param 0 1)
      { s with dram := { s.dram with evacNext := some (p.param 0 1, p.param 1 1 == 1) } })) := by
  refine (onPacket_next h : execDiagDramChannel b tag s = _).trans ?_
  simp only [act, idle, free, serves]
  rfl

/-- A second evacuation is refused while one is due (R578). -/
theorem exec_diagDramChannel_busy (h : s.cpi.packet b tag 0x0804 = some p) (act : p.param 1 1 ≠ 3)
    (due : s.dram.evacNext.isSome = true) :
    exec (.diagDramChannel b tag) s = .next (refuse p .objectBusy noDetail s) := by
  refine (onPacket_next h : execDiagDramChannel b tag s = _).trans ?_
  rw [if_neg act, if_pos (.inr due)]

/-- A bay port group leaves by planned removal (R423). -/
theorem exec_diagBayGroup_remove (h : s.cpi.packet b tag 0x0805 = some p) (act : p.param 1 1 = 1) :
    exec (.diagBayGroup b tag) s = .next (changed p (leBytes 8 s.switchDay) (trigger true 4 (p.param 0 1) s)) := by
  refine (onPacket_next h : execDiagBayGroup b tag s = _).trans ?_
  rw [if_pos act]

/-- A bay port group is put back and begins its 64 days (R423). -/
theorem exec_diagBayGroup_return (h : s.cpi.packet b tag 0x0805 = some p) (act : p.param 1 1 ≠ 1) :
    exec (.diagBayGroup b tag) s = .next (changed p (leBytes 8 (s.day + 64)) (beginReturn ⟨4, s.sys.slot, p.param 0 1⟩
      { s with bay := { s.bay with groupsOut := s.bay.groupsOut.filter (fun x => x != p.param 0 1) } })) := by
  refine (onPacket_next h : execDiagBayGroup b tag s = _).trans ?_
  rw [if_neg act]

/-- A dump whose capture buffer is free is answered with the source's bytes (R549). -/
theorem exec_diagDump_free {dump : Bytes} (h : s.cpi.packet b tag 0x0806 = some p)
    (free : s.cpi.blocked [0x03000000 + p.param 0 1] (fun _ => false) = none) :
    exec (.diagDump b tag dump) s = .next (answered p [] (dump.take (min (p.param 4 4) 1048576)) s) := by
  refine (onPacket_next h : execDiagDump b tag dump s = _).trans ?_
  rw [free]

/-- A dump is refused while its capture buffer is claimed (R549). -/
theorem exec_diagDump_claimed {dump : Bytes} {k : Claim} (h : s.cpi.packet b tag 0x0806 = some p)
    (held : s.cpi.blocked [0x03000000 + p.param 0 1] (fun _ => false) = some k) :
    exec (.diagDump b tag dump) s = .next (refuse p .resourceClaimed k.detail s) := by
  refine (onPacket_next h : execDiagDump b tag dump s = _).trans ?_
  rw [held]

/-- What the reply of DIAG_PIN tells of a pin: its level and the monitor's class of it (Table 15-13). -/
def pinTold (pin : Nat) (s : State) : Bytes :=
  fields [(1, flagBit (s.pins.pin pin).level), (1, faultCode (s.pins.pin pin).fault), (6, 0)]

/-- A read of a pin is answered (R632). -/
theorem exec_diagPin_read (h : s.cpi.packet b tag 0x0807 = some p) (act : p.param 2 1 = 4) :
    exec (.diagPin b tag) s = .next (answered p (pinTold (p.param 0 2) s) [] s) := by
  refine (onPacket_next h : execDiagPin b tag s = _).trans ?_
  rw [if_pos act]
  rfl

/-- An LED pin whose resource no other feature holds is claimed and driven high (R628). -/
theorem exec_diagPin_high {t : State} (h : s.cpi.packet b tag 0x0807 = some p) (act : p.param 2 1 = 2)
    (led : isLed (p.param 0 2) = true)
    (free : s.cpi.blocked [ledResource (p.param 0 2)] (fun k => k.opcode == 0x0807) = none)
    (driven : t = drivePin (p.param 0 2) true (claimAll [ledResource (p.param 0 2)] 0x0807 p.cls p.tag (some b) s)) :
    exec (.diagPin b tag) s = .next (changed p (pinTold (p.param 0 2) t) t) := by
  refine (onPacket_next h : execDiagPin b tag s = _).trans ?_
  subst driven
  simp only [act, led, free]
  rfl

/-- Driving a pin reads and changes the pins alone. -/
theorem drivePin_pins_congr {s t : State} (h : s.pins = t.pins) (pin : Nat) (high : Bool) :
    (drivePin pin high s).pins = (drivePin pin high t).pins := by
  unfold drivePin updPin
  rw [h]

/-- A capture whose resources are free and whose counters exist claims them and runs for its days (R549). -/
theorem exec_diagCapture {ctrs : List Nat} (h : s.cpi.packet b tag 0x0808 = some p)
    (named : ctrs = (List.range (p.param 4 2)).map (fun i => p.param (16 + 4 * i) 4))
    (known : (List.range (p.param 4 2)).find? (fun i => ctrs.getD i 0 < 0x04000000 || 0x04000000 + 320 ≤ ctrs.getD i 0) = none)
    (free : s.cpi.blocked ([0x03000000 + p.param 0 1, 0x02000000 + p.param 1 1] ++ ctrs) (fun _ => false) = none) :
    exec (.diagCapture b tag) s = .next (claimAll ([0x03000000 + p.param 0 1, 0x02000000 + p.param 1 1] ++ ctrs) 0x0808 p.cls
      p.tag (some b) { s with tally := { s.tally with captures := s.tally.captures ++
        [⟨b, tag, p.param 0 1, p.param 1 1, p.param 2 2, ctrs, s.tt.now + 1024 * p.param 8 4⟩] } }) := by
  refine (onPacket_next h : execDiagCapture b tag s = _).trans ?_
  simp only [← named, known, free]

end

/-- Settles O55: each packet's row answers what its act asks for; the replies and the frames are those of `Laws/`. -/
theorem diagnosticPacketCommands : Obligations.DiagnosticPacketCommands := by
  unfold Obligations.DiagnosticPacketCommands
  refine ⟨?dieOp, ?laneTest, ?laneGroupRemove, ?laneGroupReturn, ?channelRemove, ?channelBusy, ?bayGroupRemove, ?bayGroupReturn,
    ?dumpFree, ?dumpClaimed, ?pinRead, ?pinHigh, ?capture⟩
  case dieOp => exact fun _ _ _ _ => exec_diagDieOp
  case laneTest => exact fun _ _ _ _ => exec_diagLaneTest_dig
  case laneGroupRemove => exact fun _ _ _ _ => exec_diagLaneGroup_remove
  case laneGroupReturn =>
    exact fun b tag p s h act => .of (execDiagLaneGroup_led b tag (.refl _ s) rfl)
      ⟨_, exec_diagLaneGroup_return h act, changed_replied .., by rw [changed_lanes]; rfl⟩
  case channelRemove =>
    exact fun b tag p s h act idle free serves => .of (execDiagDramChannel_led b tag (.refl _ s) rfl)
      ⟨_, exec_diagDramChannel_remove h act idle free serves, changed_replied .., by rw [changed_dram, trigger_dram]⟩
  case channelBusy =>
    exact fun b tag p s h act due => .of (execDiagDramChannel_led b tag (.refl _ s) rfl)
      ⟨_, exec_diagDramChannel_busy h act due, refuse_replied .., refuse_dram ..⟩
  case bayGroupRemove => exact fun _ _ _ _ => exec_diagBayGroup_remove
  case bayGroupReturn =>
    exact fun b tag p s h act => .of (execDiagBayGroup_led b tag (.refl _ s) rfl)
      ⟨_, exec_diagBayGroup_return h act, changed_replied .., by rw [changed_bay]; rfl⟩
  case dumpFree =>
    exact fun b tag dump p s h free => .of (execDiagDump_led b tag dump (.refl _ s) rfl)
      ⟨_, exec_diagDump_free h free, answered_replied ..⟩
  case dumpClaimed =>
    exact fun b tag dump p k s h held => .of (execDiagDump_led b tag dump (.refl _ s) rfl)
      ⟨_, exec_diagDump_claimed h held, refuse_replied ..⟩
  case pinRead =>
    exact fun b tag p s h act => .of (execDiagPin_led b tag (.refl _ s) rfl)
      ⟨_, exec_diagPin_read h act, answered_replied .., answered_pins ..⟩
  case pinHigh =>
    exact fun b tag p s h act led free => .of (execDiagPin_led b tag (.refl _ s) rfl)
      ⟨_, exec_diagPin_high h act led free rfl, by rw [changed_pins]; exact drivePin_pins_congr rfl ..⟩
  case capture =>
    exact fun b tag p ctrs s h named known free => .of (execDiagCapture_led b tag (.refl _ s) rfl)
      ⟨_, exec_diagCapture h named known free, rfl, rfl⟩

end Sys2Proof.Machine


namespace Sys2Proof.Machine

/-! ### Roll call (R43, R475 to R479, R486, R492) -/

/-- What a heartbeat leaves of itself: when it came and, of one of this day in the first half of it, that the day has one. -/
def heartbeatNoted (day : Nat) (s : State) : State :=
  let s1 : State := { s with corr := { s.corr with lastBeat := s.tt.now } }
  if day = s.day ∧ s.period < 512 ∧ s.corr.daysKnown = true then { s1 with corr := { s1.corr with beatDay := day, misses := 0 } }
  else s1

section
variable {day term sheet dirtyMib degradations : Nat} {s : State}

/-- A heartbeat in time is the day's, and ends the misses (R476). -/
theorem heartbeatNoted_in_time (today : day = s.day) (early : s.period < 512) (known : s.corr.daysKnown = true) :
    (heartbeatNoted day s).corr = { s.corr with lastBeat := s.tt.now, beatDay := day, misses := 0 } := by
  rw [heartbeatNoted, if_pos ⟨today, early, known⟩]

/-- Of a heartbeat of another day only its time is noted (R476). -/
theorem heartbeatNoted_other_day (other : day ≠ s.day) :
    heartbeatNoted day s = { s with corr := { s.corr with lastBeat := s.tt.now } } := by
  rw [heartbeatNoted, if_neg (fun h => other h.1)]

/-- Noting a heartbeat leaves the roll call's state. -/
theorem heartbeatNoted_roll (day : Nat) (s : State) : (heartbeatNoted day s).corr.roll = s.corr.roll := by
  unfold heartbeatNoted
  split <;> rfl

/-- Noting a heartbeat leaves the head's stage. -/
theorem heartbeatNoted_pwr (day : Nat) (s : State) : (heartbeatNoted day s).pwr = s.pwr := by
  unfold heartbeatNoted
  split <;> rfl

/-- A self-fenced peer's heartbeat changes nothing more on a head to which it is not in service (R478). -/
theorem exec_heartbeat_selfFenced (taken : s.drops (.heartbeat day term sheet 2 dirtyMib degradations) = false)
    (apart : s.corr.roll ≠ .inService) :
    exec (.heartbeat day term sheet 2 dirtyMib degradations) s = .next (heartbeatNoted day (tallyAdd 0x0D 1 1 s)) := by
  refine (onWord_next taken : execHeartbeat day term sheet 2 dirtyMib degradations s = _).trans (congrArg _ ?_)
  refine (if_pos rfl).trans (if_neg (c := (heartbeatNoted day (tallyAdd 0x0D 1 1 s)).corr.roll = .inService ∧ _) ?_)
  rw [heartbeatNoted_roll]
  exact fun h => apart h.1

/-- A heartbeat of a peer that presumes this head down makes it fence itself (R477). -/
theorem exec_heartbeat_presumedDown (taken : s.drops (.heartbeat day term sheet 1 dirtyMib degradations) = false)
    (paired : s.corr.roll = .inService) (stage : s.pwr.stage ≠ .joining) (other : day ≠ s.day) :
    exec (.heartbeat day term sheet 1 dirtyMib degradations) s =
      .next (selfFence { tallyAdd 0x0D 1 1 s with corr := { s.corr with lastBeat := s.tt.now } }) := by
  refine (onWord_next taken : execHeartbeat day term sheet 1 dirtyMib degradations s = _).trans (congrArg _ ?_)
  have noted : heartbeatNoted day (tallyAdd 0x0D 1 1 s) = { tallyAdd 0x0D 1 1 s with corr := { s.corr with lastBeat := s.tt.now } } :=
    heartbeatNoted_other_day other
  have roll : (heartbeatNoted day (tallyAdd 0x0D 1 1 s)).corr.roll = .inService := (heartbeatNoted_roll ..).trans paired
  have serves : (heartbeatNoted day (tallyAdd 0x0D 1 1 s)).pwr.stage ≠ .joining := by rwa [heartbeatNoted_pwr, tallyAdd_pwr]
  refine (if_neg (by decide)).trans ((if_neg ?_).trans ((if_pos ⟨rfl, serves⟩).trans ((if_pos (.inl roll)).trans
    (congrArg selfFence noted))))
  exact fun h => nomatch roll.symm.trans h.1

/-- A miss that is not the third is counted, with its event (R476). -/
theorem exec_heartbeatMissed_counted (half : s.period = 512) (none_ : s.corr.beatDay ≠ s.day) (once : s.corr.missDay ≠ some s.day)
    (few : s.corr.misses < 2) (awaits : s.corr.roll = .inService ∨ s.corr.roll = .joining ∨
      (s.corr.roll = .noPeer ∧ s.pwr.stage = .service ∧ s.hasPeer = true)) :
    exec .heartbeatMissed s = .next (event 0xA001 25 (s.corr.misses + 1)
      { s with corr := { s.corr with misses := s.corr.misses + 1, missDay := some s.day } }) := by
  refine (whenDue_pos ⟨half, none_, once, by omega, awaits⟩ : execHeartbeatMissed s = _).trans ?_
  rw [if_pos (by omega)]

/-- The third miss in a row starts a round and holds the commands of the peer's groups (R476, R486). -/
theorem exec_heartbeatMissed_third {u : State} (half : s.period = 512) (none_ : s.corr.beatDay ≠ s.day)
    (once : s.corr.missDay ≠ some s.day) (two : s.corr.misses = 2) (paired : s.corr.roll = .inService)
    (counted : u = event 0xA001 25 3 { s with corr := { s.corr with misses := 3, missDay := some s.day } })
    (stage : u.pwr.stage ≠ .joining) (roll : u.corr.roll ≠ .joining) :
    exec .heartbeatMissed s = .next (startRound { u with hq := { u.hq with held := (u.hq.held ++ u.peerGroups).eraseDups } }) := by
  refine (whenDue_pos ⟨half, none_, once, by omega, .inl paired⟩ : execHeartbeatMissed s = _).trans ?_
  simp only [two, ← counted, if_neg stage, if_neg roll]
  rfl

end

/-! ### Arbitration (R481, R482, R484) -/

section
variable {held peer unknown : Nat} {s u : State}

/-- A head with enough witnesses continues and presumes the peer down (R481, R482). -/
theorem exec_arbitrationCount_continues {m : Nat} (running : s.corr.running = true) (later : s.corr.round < s.tt.now)
    (counts : s.witnesses = (held, (peer, unknown))) (size : m = s.ec.members.length) (wins : meets s.sys.slot held m = true)
    (told : u = event 0xA003 25 (argOf [(0, held), (1, m), (2, 1)])
      { s with corr := { s.corr with running := false, outcome := 1, held := held, members := m } }) :
    exec .arbitrationCount s = .next (presumeDown false { u with corr := { u.corr with roll := .inService } }) := by
  refine (whenDue_pos ⟨running, later⟩ : execArbitrationCount s = _).trans ?_
  subst size
  simp only [counts, wins, told]
  rfl

/-- A head that neither continues nor can be sure that the peer does fences itself, undecided (R482, R484). -/
theorem exec_arbitrationCount_undecided {m : Nat} (running : s.corr.running = true) (later : s.corr.round < s.tt.now)
    (counts : s.witnesses = (held, (peer, unknown))) (size : m = s.ec.members.length) (loses : meets s.sys.slot held m = false)
    (peerLoses : meets (1 - s.sys.slot) (peer + unknown) m = false)
    (told : u = event 0xA003 25 (argOf [(0, held), (1, m), (2, 3)])
      { s with corr := { s.corr with running := false, outcome := 3, held := held, members := m } })
    (roll : u.corr.roll ≠ .selfFenced) :
    exec .arbitrationCount s = .next (selfFence u) := by
  refine (whenDue_pos ⟨running, later⟩ : execArbitrationCount s = _).trans ?_
  subst size
  simp only [counts, loses, peerLoses, Bool.false_eq_true, if_false, ← told, if_neg roll]
  rfl

/-! ### Failover (R141, R305, R346, R387, R430, R486 to R488, R527) -/

/-- The replay of a peer that left no vault image (R486 step 5). -/
theorem exec_failoverReplay_without_image {w : State} (down : s.corr.roll = .presumedDown) (alone : s.peerAbsent = true)
    (first : s.corr.failover = 0)
    (taken : u = closeTorn (1 - s.sys.slot) (takeHalf (takeDeltas (takeResolutions (dropUnmarked (answersGone s))))))
    (cut : w = cutAgain { u with
      ftl := { u.ftl with unacked := [] }
      hq := { u.hq with fsnWaits := [], queues := u.hq.queues.map (fun q => { q with asked := none }) }
      corr := { u.corr with failover := 1, unanswered := [] } })
    (noImage : w.corr.peerImage = none) :
    exec .failoverReplay s = .next (advanceDurable w) := by
  refine (whenDue_pos ⟨down, alone, first⟩ : execFailoverReplay s = _).trans ?_
  subst taken
  simp only [← cut, noImage]

end

/-! ### Adoption and release (R490, R491) -/

section
variable {b : Binding} {tag : Nat} {p : Packet} {s : State}

/-- A replacement head is accepted by its identity digest (R491; the status is log entry 52's). -/
theorem exec_headAdopt_accepted (h : s.cpi.packet b tag 0x0510 = some p) (free : s.corr.adopt = none)
    (apart : s.corr.roll ≠ .joining) :
    exec (.headAdopt b tag) s =
      .next (changed p [] { s with corr := { s.corr with adopt := some (slice p.params 0 32) } }) := by
  refine (onPacket_next h : execHeadAdopt b tag s = _).trans ?_
  rw [free, if_neg (by decide), if_neg (fun joins => apart joins.1)]

/-- A second adoption is refused while one is pending (R491; the status is log entry 52's). -/
theorem exec_headAdopt_busy (h : s.cpi.packet b tag 0x0510 = some p) (pending : s.corr.adopt.isSome = true) :
    exec (.headAdopt b tag) s = .next (refuse p .handoverBusy noDetail s) := by
  refine (onPacket_next h : execHeadAdopt b tag s = _).trans ?_
  rw [if_pos pending]

/-- A release begins with the moves of this head's groups to the peer (R490). -/
theorem exec_headRelease_begins (h : s.cpi.packet b tag 0x0511 = some p) (paired : s.paired = true) (steps : s.corr.step = 0)
    (free : s.corr.releasing = none) :
    exec (.headRelease b tag) s = .next ((((s.ftl.roots.filter (fun r => r.nsid != 0 && s.ownsGroup r.ana)).map (·.ana)).eraseDups).foldl
      (fun t g => beginMove g (1 - s.sys.slot) t) { s with corr := { s.corr with releasing := some (b, tag) } }) := by
  refine (onPacket_next h : execHeadRelease b tag s = _).trans ?_
  rw [if_neg (by simp [paired, steps, free])]

/-- A head without a peer in service is not released (R490). -/
theorem exec_headRelease_alone (h : s.cpi.packet b tag 0x0511 = some p) (alone : s.paired = false) :
    exec (.headRelease b tag) s = .next (refuse p .peerPresent noDetail s) := by
  refine (onPacket_next h : execHeadRelease b tag s = _).trans ?_
  rw [if_pos (.inl (by simp [alone]))]

end

/-- Settles O42: each event of the roll call is due under its premises and answers what it then does; the replies and the
frames are those of `Laws/`. -/
theorem rollcallAndArbitrationCommands : Obligations.RollcallAndArbitrationCommands := by
  unfold Obligations.RollcallAndArbitrationCommands
  refine ⟨?selfFencedPeer, ?presumedDown, ?missed, ?thirdMiss, ?continues, ?undecided, ?retry, ?replay, ?takeover, ?adopted,
    ?adoptBusy, ?release, ?releaseAlone⟩
  case selfFencedPeer =>
    intro day term sheet dirtyMib degradations s taken apart today early known
    have noted := heartbeatNoted_in_time (s := tallyAdd 0x0D 1 1 s) today early known
    exact .of (execHeartbeat_led day term sheet 2 dirtyMib degradations (.refl _ s) rfl)
      ⟨_, exec_heartbeat_selfFenced taken apart, by rw [noted, tallyAdd_tt], by rw [noted], by rw [noted]⟩
  case presumedDown =>
    intro day term sheet dirtyMib degradations u s taken paired other stage noted
    rw [noted]
    exact exec_heartbeat_presumedDown taken paired stage other
  case missed => exact fun _ => exec_heartbeatMissed_counted
  case thirdMiss => exact fun _ _ => exec_heartbeatMissed_third
  case continues =>
    exact fun _ _ _ _ _ _ _ => exec_arbitrationCount_continues
  case undecided => exact fun _ _ _ _ _ _ => exec_arbitrationCount_undecided
  case retry => exact fun s fenced open_ idle half later => whenDue_pos ⟨fenced, open_, idle, half, later⟩
  case replay => exact fun _ _ _ => exec_failoverReplay_without_image
  case takeover =>
    intro u s down replayed owns
    subst owns
    exact whenDue_pos ⟨down, replayed⟩
  case adopted =>
    exact fun b tag p s h free apart => .of (execHeadAdopt_led b tag (.refl _ s) rfl)
      ⟨_, exec_headAdopt_accepted h free apart, changed_replied .., by rw [changed_corr_adopt]⟩
  case adoptBusy =>
    exact fun b tag p s h pending => .of (execHeadAdopt_led b tag (.refl _ s) rfl)
      ⟨_, exec_headAdopt_busy h pending, refuse_replied .., refuse_corr_adopt ..⟩
  case release => exact fun _ _ _ _ => exec_headRelease_begins
  case releaseAlone =>
    exact fun b tag p s h alone => .of (execHeadRelease_led b tag (.refl _ s) rfl)
      ⟨_, exec_headRelease_alone h alone, refuse_replied .., fun host => refuse_corr _ _ _ _ host⟩

end Sys2Proof.Machine


namespace Sys2Proof.Machine

/-! ### What a power failure does (R156, R602, R617) -/

/-- What is left of the fetched commands at Vault mode entry does not change the power block. -/
theorem foldl_leaveForVault_pwr (l : List Ctx) (s : State) : (l.foldl (fun t x => leaveForVault x t) s).pwr = s.pwr :=
  (Led.foldl (.refl { tally := true, stg := true, hq := true } s) (fun _ x h => leaveForVault_led x h rfl)).eq_pwr rfl

theorem enterVault_pwr (s : State) :
    (enterVault s).pwr = { s.pwr with stage := .vault, failHighSince := some s.tt.now } := by
  simp [enterVault, foldl_leaveForVault_pwr]

/-- The stage a power failure leads to: Vault mode from service, the wait of R617 before it. -/
def Stage.failed (x : Stage) : Stage := if x = .service then .vault else if x.early = true then .earlyWait else x

/-- A power failure changes the stage and starts the 100 ms of PWR_FAIL_N; it leaves the rest of the power block. -/
theorem powerFails_pwr (s : State) :
    (powerFails s).pwr = { s.pwr with stage := s.pwr.stage.failed, failHighSince := some s.tt.now } := by
  unfold powerFails Stage.failed
  split
  · exact enterVault_pwr s
  · split <;> rfl

theorem Stage.failed_service {x : Stage} (h : x = .service) : x.failed = .vault := if_pos h

theorem Stage.failed_early {x : Stage} (h : x.early = true) : x.failed = .earlyWait := by
  have before : x ≠ .service := by rintro rfl; cases h
  rw [Stage.failed, if_neg before, if_pos h]

/-! ### Supplies, resets and references (R599 to R602, R607 to R609) -/

section
variable {s : State}

/-- With VDD_AON alone the head is at its cold reset values, but for its rail, its domain and what stands of the vault image (R600). -/
theorem exec_vddAonOnly (s : State) : exec .vddAonOnly s = .next
    { resetState true false StartEnv.none_ s with
      pwr := { (resetState true false StartEnv.none_ s).pwr with stage := .aonOnly, inRange := 4, domains := 1 }
      stg := { (resetState true false StartEnv.none_ s).stg with vault := s.stg.vault, vaultAt := s.stg.vaultAt } } := rfl

/-- The record of a rail outside its trip limits (R602). -/
def Pwr.tripNoted (w : Pwr) (rail : Nat) (high : Bool) (now : Nat) : Pwr :=
  { w with
    inRange := if bitAt rail w.inRange then w.inRange - 2 ^ rail else w.inRange
    tripped := setBit rail w.tripped
    tripRail := rail
    tripHigh := high
    tripWhen := now
    trippedSinceStart := true }

/-- A rail outside its trip limits is noted, with its event and count, and power has failed (R602, R617). -/
theorem exec_supplyTrip {rail : Nat} {high : Bool} (known : rail < 9) (on : s.pwr.stage ≠ .off) (full : s.pwr.stage ≠ .aonOnly) :
    exec (.supplyTrip rail high) s = .next (powerFails (tallyAdd 0x11 2 1
      (event 0x1002 0 rail { s with pwr := s.pwr.tripNoted rail high s.tt.now }))) :=
  whenDue_pos ⟨known, on, full⟩

/-- A warm reset by its pin (R608, R609). -/
theorem exec_warmReset_pin {env : StartEnv} (on : s.pwr.stage ≠ .off) (full : s.pwr.stage ≠ .aonOnly) (open_ : s.pwr.stage ≠ .vault)
    (own : s.pwr.restartDue = false) (sound : s.resetIgnored 262 = false) :
    exec (.warmReset env) s = .next (setLevel 262 false (startHead false false 4 env s)) := by
  refine (whenDue_pos ⟨on, full, open_, .inr sound⟩ : execWarmReset env s = _).trans ?_
  rw [if_neg (by simp [own])]

/-- The warm start of a head that fenced itself for a dead DRAM channel (R574). -/
theorem exec_warmReset_own {env : StartEnv} (on : s.pwr.stage ≠ .off) (full : s.pwr.stage ≠ .aonOnly) (open_ : s.pwr.stage ≠ .vault)
    (own : s.pwr.restartDue = true) :
    exec (.warmReset env) s = .next (startHead false false 6 env s) := by
  refine (whenDue_pos ⟨on, full, open_, .inl own⟩ : execWarmReset env s = _).trans ?_
  rw [if_pos own]

/-! ### AVS (R601) -/

/-- The target a step of AVS asks for: toward the one asked, within the range, by at most 10 mV. -/
def avsStep (now asked : Nat) : Nat := max (now - 10) (min (now + 10) (max 650 (min 850 asked)))

theorem avsStep_le (now asked : Nat) : avsStep now asked ≤ now + 10 := by unfold avsStep; omega

theorem le_avsStep (now asked : Nat) : now ≤ avsStep now asked + 10 := by unfold avsStep; omega

/-- A step from within the range stays there. -/
theorem avsStep_in_range {now asked : Nat} (high : now ≤ 850) (low : 650 ≤ now) :
    650 ≤ avsStep now asked ∧ avsStep now asked ≤ 850 := by
  unfold avsStep
  omega

/-- After 64 days the next step is sent, and waits for its answer (R601). -/
theorem exec_avsAdjust {targetMv measuredMv : Nat} (free : s.pwr.avsSent = none) (days : s.pwr.avsDay + 64 ≤ s.day)
    (prefect : 2 ≤ s.trust.stage) :
    exec (.avsAdjust targetMv measuredMv) s = .next (emit (.avsTarget (avsStep s.pwr.avsTarget targetMv))
      { s with pwr := { s.pwr with avsSent := some (avsStep s.pwr.avsTarget targetMv), avsSentAt := s.tt.now, avsDay := s.day,
                                   avsMeasured := measuredMv } }) :=
  whenDue_pos ⟨free, days, prefect⟩

/-- Without an answer for 1 ms the last confirmed target stands, and 64 days begin (R601). -/
theorem exec_avsConfirmTimeout (sent : s.pwr.avsSent.isSome = true) (late : s.pwr.avsSentAt + msBells 1 ≤ s.tt.now) :
    exec .avsConfirmTimeout s = .next { s with pwr := { s.pwr with avsSent := none, avsDay := s.day } } :=
  whenDue_pos ⟨sent, late⟩

end

/-- Settles O24: each command is due under its premises; a trip's effect is read off the power block that a power failure
leaves, a step of AVS off its bounds. -/
theorem powerAndResetCommands : Obligations.PowerAndResetCommands := by
  unfold Obligations.PowerAndResetCommands
  refine ⟨?suppliesValid, ?coldPin, ?coldPowerOn, ?coldAonLoss, ?warmPin, ?warmOwn, ?aonOnly, ?trip, ?refLost, ?refBack, ?avsAdjust,
    ?avsTimeout, ?trained⟩
  case suppliesValid => exact fun env s off => whenDue_pos off
  case coldPin => exact fun env s on full open_ sound => whenDue_pos ⟨on, full, open_, sound⟩
  case coldPowerOn => exact fun env s => rfl
  case coldAonLoss => exact fun env s => rfl
  case warmPin => exact fun _ _ => exec_warmReset_pin
  case warmOwn => exact fun _ _ => exec_warmReset_own
  case aonOnly =>
    exact fun s => .of (execVddAonOnly_led (.refl _ s) rfl)
      ⟨_, exec_vddAonOnly s, rfl, rfl, rfl, rfl, rfl, rfl, rfl, rfl⟩
  case trip =>
    intro rail high s known on full
    refine .of (execSupplyTrip_led rail high (.refl _ s) rfl) ⟨_, exec_supplyTrip known on full, ?_⟩
    rw [powerFails_pwr, tallyAdd_pwr, event_pwr]
    exact ⟨rfl, rfl, rfl, rfl, rfl⟩
  case refLost => exact fun ref s present => whenDue_pos present
  case refBack => exact fun ref s absent => whenDue_pos absent
  case avsAdjust =>
    exact fun targetMv measuredMv s free days prefect => .of (execAvsAdjust_led targetMv measuredMv (.refl _ s) rfl)
      ⟨_, exec_avsAdjust free days prefect,
        ⟨_, rfl, rfl, avsStep_le .., le_avsStep .., fun high low => avsStep_in_range high low⟩, rfl⟩
  case avsTimeout =>
    exact fun s sent late => .of (execAvsConfirmTimeout_led (.refl _ s) rfl) ⟨_, exec_avsConfirmTimeout sent late, rfl, rfl, rfl⟩
  case trained => exact fun s done_ bringUp first => whenDue_pos ⟨done_, bringUp, first⟩

end Sys2Proof.Machine


namespace Sys2Proof.Machine

/-! ### Vault mode (R85, R156 to R161, R609, R616, R617, R627, R637) -/

section
variable {s : State}

/-- PWR_FAIL_N low on a pin that is not open is a power failure (R156). -/
theorem exec_pwrFailNLow (sound : (s.pins.pin 256).fault ≠ .isOpen) :
    exec .pwrFailNLow s = .next (powerFails (setLevel 256 false s)) := whenDue_pos sound

/-- At 110 °C or more power has failed, and where that leads to Vault mode the cause is kept for the restart (R637). -/
theorem exec_thermalVault {temp : Int} {island : Nat} (hot : 110 ≤ temp) :
    exec (.thermalVault temp island) s = .next (
      let t := powerFails (noteHottest temp island s)
      if s.pwr.stage = .service ∨ s.pwr.stage.early = true then
        { t with pins := { t.pins with thermVault := true, tempVault := true } }
      else t) :=
  whenDue_pos hot

theorem putSheet_tt (d : Degradation) (s : State) :
    (putSheet d s).tt = { s.tt with sheet := s.sheetNumber d, sheetOf := d } := by simp [putSheet]

theorem putSheet_hq (d : Degradation) (s : State) : (putSheet d s).hq = s.hq := by simp [putSheet]

/-- The Vault sheet is in force and no longer due; the image that is then written leaves the timetable (R85, R158). -/
theorem vaultSheet_tt (s : State) : (vaultSheet s).tt.vaultDue = false ∧ (vaultSheet s).tt.sheetOf = ⟨6, s.sys.slot, 0⟩ := by
  simp [vaultSheet, putSheet_tt]

/-- The host port links are down (R158). -/
theorem vaultSheet_linkUp (s : State) : (vaultSheet s).hq.linkUp = 0 := by simp [vaultSheet, putSheet_hq]

/-- The seal ends Vault mode (R159). -/
theorem sealImage_stage (s : State) : (sealImage s).pwr.stage = .sealed := by simp [sealImage]

/-- No image is being written any more, and the time of the seal is kept (R159). -/
theorem sealImage_stg (s : State) :
    (sealImage s).stg.vault = 2 ∧ (sealImage s).stg.image = none ∧ (sealImage s).stg.sealedAt = s.tt.now := by
  simp only [sealImage, event_stg, sendPeer_stg]
  split
  next => simp [setHalf]
  next => simp

/-- With both reset pins high the seal alone happens (R159, R609). -/
theorem exec_vaultSeal_high {env : StartEnv} (stage : s.pwr.stage = .vault) (trailer : s.stg.trailer = true)
    (quiet : s.bay.flushing = false) : exec (.vaultSeal false false env) s = .next (sealImage s) :=
  whenDue_pos ⟨stage, trailer, quiet⟩

/-- Retiring images changes staging in its images alone. -/
theorem retireImages_stg (head upTo : Nat) (s : State) :
    (retireImages head upTo s).stg = { s.stg with images := (retireImages head upTo s).stg.images } := by simp [retireImages]

/-- The state once the block buffers of the vault images are back (R387, R616). -/
def restoreDone (s : State) : State :=
  let t : State := { s with stg := { s.stg with restored := true, restoring := [] } }
  match (s.stg.images.map (·.id)).max? with
  | none => t
  | some id => retireImages s.sys.slot id t

/-- The grains of the images are admissible, and no version changes. -/
theorem restoreDone_stg (s : State) : (restoreDone s).stg.restored = true ∧ (restoreDone s).stg.restoring = [] ∧
    (restoreDone s).stg.versions = s.stg.versions := by
  unfold restoreDone
  split
  next => exact ⟨rfl, rfl, rfl⟩
  next => rw [retireImages_stg]; exact ⟨rfl, rfl, rfl⟩

/-- The restore ends once, in service or on the way to it (R616). -/
theorem exec_vaultRestoreComplete (todo : s.stg.restored = false) (stage : s.pwr.stage = .service ∨ s.pwr.stage = .starting) :
    exec .vaultRestoreComplete s = .next (restoreDone s) :=
  whenDue_pos ⟨todo, stage⟩

/-- The peer's notice presumes it down, keeping its vault-area forms, and waits for its image (R161, R477). -/
theorem exec_vaultNotice {time : Nat} (taken : s.drops (.vaultNotice time) = false) :
    exec (.vaultNotice time) s = .next (event 0x4004 10 3 { presumeDown true (tallyAdd 0x0D 1 1 s) with
      corr := { (presumeDown true (tallyAdd 0x0D 1 1 s)).corr with
        notice := some (tallyAdd 0x0D 1 1 s).tt.now, peerImage := some time } }) :=
  (onWord_next taken : execVaultNotice time s = _)

/-- No notice waits once the peer's vault-area forms are fenced. -/
theorem fenceVaultForms_notice (s : State) : (fenceVaultForms s).corr.notice = none := by simp [fenceVaultForms]

/-- The peer's seal ends the notice that waits for it (R161). -/
theorem exec_vaultDone {time length : Nat} (taken : s.drops (.vaultDone time length) = false) :
    exec (.vaultDone time length) s = .next (event 0x4004 10 4
      (if s.corr.notice.isSome then fenceVaultForms (tallyAdd 0x0D 1 1 s) else tallyAdd 0x0D 1 1 s)) :=
  (onWord_next taken : execVaultDone time length s = _)

/-- A notice 2 s old without its seal ends as with it (R161). -/
theorem exec_vaultDoneTimeout {n : Nat} (waits : s.corr.notice = some n) (late : n + secBells 2 ≤ s.tt.now) :
    exec .vaultDoneTimeout s = .next (fenceVaultForms s) :=
  whenDue_pos ⟨n, waits, late⟩

end

/-- Settles O25: a power failure's stage is read off the power block it leaves; the sheet, the seal, the restore and the
peer's notices each leave the fields named. -/
theorem vaultCommands : Obligations.VaultCommands := by
  unfold Obligations.VaultCommands
  refine ⟨?pwrFail, ?earlyFail, ?thermal, ?thermtrip, ?sheetEntry, ?sealed, ?warmStart, ?restored, ?notice, ?done_, ?timeout⟩
  case pwrFail =>
    intro s sound
    refine .of (execPwrFailNLow_led (.refl _ s) rfl) ⟨_, exec_pwrFailNLow sound, ?_⟩
    rw [powerFails_pwr]
    exact ⟨Stage.failed_service, Stage.failed_early, rfl⟩
  case earlyFail =>
    exact fun s early => .of (execEarlyPowerFail_led (.refl _ s) rfl) ⟨_, whenDue_pos early, rfl, rfl, rfl, rfl, rfl, rfl, rfl, rfl⟩
  case thermal =>
    refine fun temp island s hot => .of (execThermalVault_led temp island (.refl _ s) rfl) ⟨_, exec_thermalVault hot, ?_⟩
    split
    next =>
      rw [powerFails_pwr, noteHottest_pwr]
      exact ⟨fun service => ⟨Stage.failed_service service, rfl, rfl⟩, fun early => ⟨Stage.failed_early early, rfl, rfl⟩⟩
    next idle => exact ⟨fun service => absurd (.inl service) idle, fun early => absurd (.inr early) idle⟩
  case thermtrip => exact fun temp island s => .of (execThermtrip_led temp island (.refl _ s) rfl) ⟨_, rfl, rfl, rfl⟩
  case sheetEntry =>
    exact fun s due => .of (execVaultSheetEntry_led (.refl _ s) rfl)
      ⟨_, whenDue_pos due, vaultSheet_linkUp s, vaultSheet_tt s⟩
  case sealed =>
    exact fun env s stage trailer quiet => .of (execVaultSeal_led false false env (.refl _ s) rfl)
      ⟨_, exec_vaultSeal_high stage trailer quiet, sealImage_stage s, sealImage_stg s⟩
  case warmStart => exact fun env s stage may => whenDue_pos ⟨stage, may⟩
  case restored =>
    exact fun s todo stage => .of (execVaultRestoreComplete_led (.refl _ s) rfl)
      ⟨_, exec_vaultRestoreComplete todo stage, restoreDone_stg s⟩
  case notice =>
    refine fun time s taken => .of (execVaultNotice_led time (.refl _ s) rfl) ⟨_, exec_vaultNotice taken, ?_⟩
    rw [event_corr]
    exact ⟨by rw [tallyAdd_tt], rfl⟩
  case done_ =>
    refine fun time length s taken => .of (execVaultDone_led time length (.refl _ s) rfl) ⟨_, exec_vaultDone taken, ?_⟩
    rw [event_corr]
    split
    next => exact fenceVaultForms_notice _
    next waits => simpa using waits
  case timeout =>
    exact fun n s waits late => .of (execVaultDoneTimeout_led (.refl _ s) rfl)
      ⟨_, exec_vaultDoneTimeout waits late, fenceVaultForms_notice s⟩

end Sys2Proof.Machine


namespace Sys2Proof.Machine

/-! ### The bell, epochs and terms (R38, R76, R81, R296, R297, R600) -/

section
variable {s : State}

/-- With VDD_AON alone the bell is the oscillator's (R600). -/
theorem exec_bellTick_aonOnly (h : s.pwr.stage = .aonOnly) : exec .bellTick s = .next (runClock 16000 s) := by
  change execBellTick s = _
  rw [execBellTick, h]

/-- With its supplies a head starts a new period and does the period boundary's work (R38). -/
theorem exec_bellTick_supplied {u : State} (on : s.pwr.stage ≠ .off) (full : s.pwr.stage ≠ .aonOnly)
    (counted : u = countPeriod (nextPeriod (runClock (4 * s.tt.cycles) (unseen s)))) :
    exec .bellTick s = .next (endCaptures (ledBell (avsBell (islandsBell (stageBell (loadBell (serviceBell (boxBell (contextBell
      (classBell (sharesBell (dramBell (windowsBell (refillBuckets (dayBell (resetPinsBell
        { u with tally := u.tally.zeroDue })))))))))))))))) := by
  change execBellTick s = _
  subst counted
  unfold execBellTick
  split
  next off => exact absurd off on
  next aonOnly => exact absurd aonOnly full
  next => rfl

/-- The oldest ended epoch without a seal is sealed: its record goes to the tail and to the peer (R297). -/
theorem exec_epochSealWrite {r : JRec} (record : r = ⟨s.sys.slot, (s.ftl.recordsOf s.sys.slot (s.ftl.sealWritten + 1)).length,
      s.ftl.sealWritten + 1, sealOf (s.ftl.recordsOf s.sys.slot (s.ftl.sealWritten + 1))⟩)
    (pool : s.pool.isSome = true) (ended : r.epoch < s.epoch)
    (acked : s.paired = true → s.ftl.unacked.all (fun u => r.epoch < u.2) = true) :
    exec .epochSealWrite s = .next (advanceDurable (tallyAdd 0x0A 3 1 (sendPeer (.journal [r])
      { s with ftl := { s.ftl with tail := s.ftl.tail ++ [r], sealWritten := r.epoch } }))) := by
  subst record
  exact whenDue_pos ⟨pool, ended, acked⟩

/-- When an armed term takes effect its image is the active one and nothing is loaded (R76). -/
theorem changeover_tt {i : TtImage} (armed : s.tt.pending = some i) :
    (changeover s).tt.active = some i ∧ (changeover s).tt.pending = none ∧ (changeover s).tt.load = .none ∧
      (changeover s).tt.armDay = 0 := by
  simp [changeover, armed, putSheet_tt]

/-! ### Switches and triggers (R81, R83) -/

/-- The switches due are made before the period's work (R81). -/
theorem exec_sheetSwitch (due : s.switchesDue ≠ []) : exec .sheetSwitch s = .next
    (handoverAgain s.switchesDue (s.switchesDue.foldl (fun t x => takeOut x t) (selectSheet (applySwitches s)))) :=
  congrArg Host.Outcome.next (if_neg due)

/-- A return that is announced changes the timetable block by its switch alone. -/
theorem trigger_return_tt (kind index : Nat) (s : State) :
    (trigger false kind index s).tt = (addSwitch ⟨s.switchDay, false, ⟨kind, s.sys.slot, index⟩⟩ s).tt := by
  simp [trigger]

/-- 64 days in service end with the announcement of the return (R81). -/
theorem exec_resourceReturnDue {what : Degradation}
    (due : s.tt.returning.any (fun x => x.1 == what && x.2 + 64 ≤ s.day && what.head == s.sys.slot) = true) :
    exec (.resourceReturnDue what) s = .next (trigger false what.kind what.index
      { s with tt := { s.tt with returning := s.tt.returning.filter (fun x => x.1 != what) } }) :=
  whenDue_pos due

theorem addSwitch_corr (x : SheetSwitch) (s : State) : (addSwitch x s).corr = s.corr :=
  (addSwitch_led x (.refl { tt := true } s) rfl).eq_corr rfl

/-- A degradation or a return that the peer names is agreed, and the same message answers it (R81). -/
theorem exec_sheetTrigger_agreed {number kind action index detected switchDay : Nat}
    (taken : s.drops (.sheetTrigger kind action index detected switchDay) = false)
    (new : getKey number s.corr.answered = none)
    (unasked : s.corr.answerOf (fun b => b == .sheetTrigger kind action index detected switchDay) = none)
    (known : action = 1 ∨ action = 2) :
    exec (.sheetTrigger number kind action index detected switchDay) s =
      .next (reply number (.sheetTrigger kind action index detected switchDay)
        (tellBringUp (tallyAdd 0x0D 1 1 s).towardsBringUp
          (addSwitch ⟨switchDay, action == 1, ⟨kind, 1 - s.sys.slot, index⟩⟩ (tallyAdd 0x0D 1 1 s)))) := by
  refine (onMessage_next taken new : execSheetTrigger number kind action index detected switchDay s = _).trans ?_
  rw [tallyAdd_corr, unasked, if_pos known, tallyAdd_sys]

end

/-! ### Timetable images (R73 to R75, R383) -/

/-- The last load command went well; the detail of the last refusal stays. -/
theorem noteLoad_ok_tt (detail : Bytes) (s : State) : (noteLoad .ok detail s).tt = { s.tt with lastStatus := .ok } := rfl

section
variable {b : Binding} {tag : Nat} {p : Packet} {s : State}

/-- A piece that is not the last is answered (R73). -/
theorem exec_ttStage_more {s1 : State} (h : s.cpi.packet b tag 0x0601 = some p) (idle : s.tt.load = .none)
    (piece : takePiece p (p.param 8 8) (p.param 16 8) s = (s1, .more)) :
    exec (.ttStage b tag) s = .next (answered p [] [] s1) := by
  refine (onPacket_next h : execTtStage b tag s = _).trans ?_
  rw [if_neg (not_not_intro idle), piece]

/-- A whole image that passes this head's checks is staged where no peer has to pass it (R73). -/
theorem exec_ttStage_alone {i : TtImage} {s1 : State} (h : s.cpi.packet b tag 0x0601 = some p) (idle : s.tt.load = .none)
    (piece : takePiece p (p.param 8 8) (p.param 16 8) s = (s1, .whole i.bytes)) (passes : loadChecks i s1 = none)
    (term : i.term = p.param 0 4) (alone : s.paired = false) :
    exec (.ttStage b tag) s = .next (noteLoad .ok [] (changed p []
      { s1 with tt := { s1.tt with pending := some i, load := .staged, staging := none } })) := by
  refine (onPacket_next h : execTtStage b tag s = _).trans ?_
  rw [if_neg (not_not_intro idle), piece]
  dsimp only
  rw [passes]
  dsimp only
  rw [if_neg (not_not_intro term), if_neg (by simp [alone])]

/-- The image and the day that TT_ARM records, with the copies it programmes (R74, R383). -/
def armRecorded (b : Binding) (p : Packet) (s : State) : State :=
  let bytes := (s.tt.pending.map (·.bytes)).getD []
  let (s1, copies) := armCopies b bytes (p.param 0 4) s
  { s1 with
    tt := { s1.tt with load := .armed, armDay := p.param 8 8 }
    pool := s1.pool.map (fun q => { q with armed := ⟨p.param 0 4, bytes.length, p.param 8 8, copies⟩ }) }

theorem armRecorded_tt (b : Binding) (p : Packet) (s : State) :
    (armRecorded b p s).tt = { s.tt with load := .armed, armDay := p.param 8 8 } := by simp [armRecorded]

theorem armRecorded_cpi (b : Binding) (p : Packet) (s : State) : (armRecorded b p s).cpi = s.cpi := by simp [armRecorded]

/-- TT_ARM with a day in range records the image and the day; of a packet of its own the head answers once both heads have
recorded them (R74). -/
theorem exec_ttArm {peer : PeerAnswer} (h : s.cpi.packet b tag 0x0602 = some p) (staged : s.tt.staged (p.param 0 4) = true)
    (early : s.tt.tooLate = false) (first : s.day + 2 ≤ p.param 8 8) (last : p.param 8 8 ≤ s.day + 65536)
    (agrees : s.paired = true → peer.status = .ok) (awaited : s.awaitsAlone = false) :
    exec (.ttArm b tag peer) s = .next (
      if b = .peer then noteLoad .ok [] (changed p [] (armRecorded b p (pairBase p s)))
      else armBell (configWrite { armRecorded b p (pairBase p s) with
        tt := { (armRecorded b p (pairBase p s)).tt with arming := some (b, tag) } })) := by
  refine (onPacket_next h : execTtArm b tag peer s = _).trans (congrArg _ ?_)
  rw [if_neg (by simp [staged]), if_neg (by simp [early]), if_neg (by omega), pairWide_ok agrees awaited]
  rfl

/-- TT_DISARM discards the image and its record (R75, R383). -/
def disarmed (s : State) : State :=
  freeCopies ((s.pool.map (·.armed)).getD ⟨0, 0, 0, []⟩) { s with
    tt := { s.tt with load := .none, pending := none, armDay := 0 }
    pool := s.pool.map (fun q => { q with armed := ⟨0, 0, 0, []⟩ }) }

theorem disarmed_tt (s : State) : (disarmed s).tt = { s.tt with load := .none, pending := none, armDay := 0 } := by
  simp [disarmed]

theorem exec_ttDisarm {peer : PeerAnswer} (h : s.cpi.packet b tag 0x0603 = some p) (staged : s.tt.staged (p.param 0 4) = true)
    (early : s.tt.tooLate = false) (agrees : s.paired = true → peer.status = .ok) (awaited : s.awaitsAlone = false) :
    exec (.ttDisarm b tag peer) s = .next (noteLoad .ok [] (changed p []
      (if (pairBase p s).tt.load = .armed ∧ b ≠ .peer then configWrite (disarmed (pairBase p s)) else disarmed (pairBase p s)))) := by
  refine (onPacket_next h : execTtDisarm b tag peer s = _).trans (congrArg _ ?_)
  rw [if_neg (by simp [staged]), if_neg (by simp [early]), pairWide_ok agrees awaited]
  rfl

/-- TT_QUERY is answered with the four registers and the last refusal's detail (Table 15-11). -/
theorem exec_ttQuery (h : s.cpi.packet b tag 0x0604 = some p) :
    exec (.ttQuery b tag) s = .next (answered p
      (fields [(8, s.ttNow), (8, s.ttTerm), (8, s.ttSheet), (8, s.ttLoad)] ++ fitBytes 16 s.tt.lastDetail) [] s) :=
  (onPacket_next h : execTtQuery b tag s = _)

/-- A verdict of the peer answers the chunks of the image (R73). -/
def chunksAnswered (s : State) : State :=
  { s with corr := { s.corr with unanswered := s.corr.unanswered.filter (fun m =>
      match m.body with
      | .ttImage .. => false
      | _ => true) } }

/-- The peer's pass of the image being checked stages it, and the packet that waits is answered (R73). -/
theorem exec_ttVerdict_passed {term : Nat} {detail : Bytes} {i : TtImage} (h : s.cpi.packet b tag 0x0601 = some p)
    (taken : s.drops (.ttVerdict term .ok detail) = false) (asked : s.tt.staging = some (b, tag)) (checking : s.tt.load = .checking)
    (pending : s.tt.pending = some i) (its : i.term = term) :
    exec (.ttVerdict term .ok detail) s = .next (noteLoad .ok [] (changed p [] { chunksAnswered (tallyAdd 0x0D 1 1 s) with
      tt := { s.tt with load := .staged, staging := none } })) := by
  refine (onWord_next taken : execTtVerdict term .ok detail s = _).trans ?_
  simp only [tallyAdd_tt, asked, checking, pending, tallyAdd_cpi, h, Option.map_some, its, ne_eq, not_true_eq_false, if_false]
  rfl

/-- A chunk of an image that is not complete is kept (R73). -/
theorem exec_ttImage_more {number term offset : Nat} {bytes l : Bytes}
    (taken : s.drops (.ttImage term offset bytes.length bytes) = false) (new : getKey number s.corr.answered = none)
    (serves : s.pwr.stage ≠ .joining) (held : l = (if offset = 0 then [] else s.tt.incoming.take offset) ++ bytes)
    (more : l.length < fieldAt l 0x10 4) :
    exec (.ttImage number term offset bytes) s = .next { tallyAdd 0x0D 1 1 s with tt := { s.tt with incoming := l } } := by
  refine (onMessage_next taken new : execTtImage number term offset bytes s = _).trans ?_
  have joins : ((tallyAdd 0x0D 1 1 s).pwr.stage == Stage.joining) = false := by simpa using serves
  simp only [joins, Bool.false_eq_true, if_false, tallyAdd_tt, ← held, if_pos more]

end

/-- Settles O26: each row is due under its premises; what is left of the timetable block is said once for each operation. -/
theorem timetableCommands : Obligations.TimetableCommands := by
  unfold Obligations.TimetableCommands
  refine ⟨?bellAon, ?bell, ?epochEnd, ?epochSeal, ?changeover, ?switch, ?returnDue, ?trigger, ?stageWhole, ?stageMore, ?arm, ?disarm,
    ?query, ?verdict, ?image⟩
  case bellAon => exact fun _ => exec_bellTick_aonOnly
  case bell => exact fun _ _ => exec_bellTick_supplied
  case epochEnd => exact fun s boundary old => whenDue_pos ⟨boundary, old⟩
  case epochSeal => exact fun _ _ => exec_epochSealWrite
  case changeover =>
    exact fun i s armed due => .of (execTermChangeover_led (.refl _ s) rfl)
      ⟨_, whenDue_pos due, changeover_tt armed⟩
  case switch => exact fun _ => exec_sheetSwitch
  case returnDue =>
    refine fun what s due => .of (execResourceReturnDue_led what (.refl _ s) rfl) ⟨_, exec_resourceReturnDue due, ?_⟩
    rw [trigger_return_tt]
    exact ⟨addSwitch_returning .., addSwitch_agrees ⟨_, false, ⟨what.kind, s.sys.slot, what.index⟩⟩ _⟩
  case trigger =>
    refine fun number kind action index detected switchDay s taken new unasked known =>
      .of (execSheetTrigger_led number kind action index detected switchDay (.refl _ s) rfl)
        ⟨_, exec_sheetTrigger_agreed taken new unasked known, ?_, ?_⟩
    · rw [reply_tt, tellBringUp_tt]
      exact addSwitch_agrees ⟨switchDay, action == 1, ⟨kind, 1 - s.sys.slot, index⟩⟩ _
    · rw [reply_answered, tellBringUp_answered, addSwitch_corr, tallyAdd_corr]
  case stageWhole =>
    refine fun b tag p i s1 s h idle piece passes term alone => .of (execTtStage_led b tag (.refl _ s) rfl)
      ⟨_, exec_ttStage_alone h idle piece passes term alone, ?_⟩
    rw [noteLoad_ok_tt, changed_tt]
    exact ⟨rfl, rfl, rfl⟩
  case stageMore => exact fun _ _ _ _ _ => exec_ttStage_more
  case arm =>
    refine fun b tag peer p s h staged early first last agrees awaited => .of (execTtArm_led b tag peer (.refl _ s) rfl)
      ⟨_, exec_ttArm h staged early first last agrees awaited, ?_⟩
    split
    next forwarded =>
      rw [noteLoad_ok_tt, changed_tt, armRecorded_tt]
      exact ⟨rfl, rfl, fun _ => rfl, fun own => absurd forwarded own⟩
    next own =>
      refine ⟨by rw [armBell_load, configWrite_tt, armRecorded_tt], by rw [armBell_armDay, configWrite_tt, armRecorded_tt],
        fun forwarded => absurd forwarded own, fun _ => armBell_arming (p := p) (by rw [configWrite_tt]) ?_⟩
      rw [configWrite_cpi]
      exact (congrArg (·.packet b tag 0x0602) ((armRecorded_cpi ..).trans (pairBase_cpi ..))).trans h
  case disarm =>
    refine fun b tag peer p s h staged early agrees awaited => .of (execTtDisarm_led b tag peer (.refl _ s) rfl)
      ⟨_, exec_ttDisarm h staged early agrees awaited, ?_⟩
    rw [noteLoad_ok_tt, changed_tt, apply_ite State.tt, configWrite_tt, ite_self, disarmed_tt]
    exact ⟨rfl, rfl, rfl⟩
  case query =>
    exact fun b tag p s h => .of (execTtQuery_led b tag (.refl _ s) rfl) ⟨_, exec_ttQuery h, answered_replied ..⟩
  case verdict =>
    refine fun term detail b tag i p s h taken asked checking pending its =>
      .of (execTtVerdict_led term .ok detail (.refl _ s) rfl) ⟨_, exec_ttVerdict_passed h taken asked checking pending its, ?_⟩
    rw [noteLoad_ok_tt, changed_tt]
    exact ⟨rfl, rfl, rfl⟩
  case image =>
    exact fun number term offset bytes l s taken new serves held more =>
      .of (execTtImage_led number term offset bytes (.refl _ s) rfl) ⟨_, exec_ttImage_more taken new serves held more, rfl⟩

end Sys2Proof.Machine

namespace Sys2Proof.Machine

/-! ### Capsules and the Dispatcher (R93, R95, R99, R100, R109, R295) -/

section
variable {cntlid qid cid : Nat} {cap : Capsule} {q : Queue} {s : State}

/-- A capsule of an I/O queue with a free entry: without a buffer it is refused, with in-capsule data of a wrong length it ends its
NVMe/TCP connection, else it takes the entry (R93, Table 3-12). -/
theorem exec_capsuleReceive_io {room : Bool} (host : cntlid ≠ 65536) (h : s.hq.queue cntlid qid = some q) (io : q.qid ≠ 0)
    (entry : q.capsules.length < q.size) : exec (.capsuleReceive cntlid qid cid cap room) s = .next (
      if room = false ∨ s.hq.poolEmpty q.port = true then (if cap.tcp then s else emit (.rnrNak cntlid qid) s)
      else if cap.tcp ∧ cap.data.any (fun d => d.length + cap.pi.length != cap.sgl) then endConnection cntlid qid causeSequence s
      else acceptCapsule q cid cap s) := by
  change execCapsuleReceive cntlid qid cid cap room s = _
  unfold execCapsuleReceive
  rw [if_neg host, h]
  dsimp only
  rw [if_neg io, if_neg (by omega)]

/-- A RoCEv2 capsule with an entry and a buffer is accepted (R93). -/
theorem exec_capsuleReceive_accepted (host : cntlid ≠ 65536) (h : s.hq.queue cntlid qid = some q) (io : q.qid ≠ 0)
    (entry : q.capsules.length < q.size) (buffer : s.hq.poolEmpty q.port = false) (rdma : cap.tcp = false) :
    exec (.capsuleReceive cntlid qid cid cap true) s = .next (acceptCapsule q cid cap s) := by
  rw [exec_capsuleReceive_io host h io entry, if_neg (by simp [buffer]), if_neg (by simp [rdma])]

/-- In-capsule data of another length than the SGL's ends an NVMe/TCP connection (Table 3-12). -/
theorem exec_capsuleReceive_badLength (host : cntlid ≠ 65536) (h : s.hq.queue cntlid qid = some q) (io : q.qid ≠ 0)
    (entry : q.capsules.length < q.size) (buffer : s.hq.poolEmpty q.port = false) (tcp : cap.tcp = true)
    (differs : cap.data.any (fun d => d.length + cap.pi.length != cap.sgl) = true) :
    exec (.capsuleReceive cntlid qid cid cap true) s = .next (endConnection cntlid qid causeSequence s) := by
  rw [exec_capsuleReceive_io host h io entry, if_neg (by simp [buffer]), if_pos ⟨tcp, differs⟩]

/-- A RoCEv2 Send without a buffer is answered with RNR NAK (R93). -/
theorem exec_capsuleReceive_noBuffer (host : cntlid ≠ 65536) (h : s.hq.queue cntlid qid = some q) (io : q.qid ≠ 0)
    (entry : q.capsules.length < q.size) (rdma : cap.tcp = false) :
    exec (.capsuleReceive cntlid qid cid cap false) s = .next (emit (.rnrNak cntlid qid) s) := by
  rw [exec_capsuleReceive_io host h io entry, if_pos (.inl rfl), if_neg (by simp [rdma])]

/-- What the peer tells of a reservation command takes effect here (R109). -/
theorem exec_capsuleReceive_peer {room : Bool} :
    exec (.capsuleReceive 65536 qid cid cap room) s = .next (reserve cap cap.pi s).2 := rfl

/-- Register without a flag of a host that has no key registers its key (R109). -/
theorem reserve_register_new {host : Bytes} (code : cap.opcode = 0x0D) (act : cap.cdw10 = 0)
    (new : (s.hq.reservation cap.nsid).keyOf host = none) :
    reserve cap host s = (nvmeOk, setReservation { s.hq.reservation cap.nsid with
      gen := (s.hq.reservation cap.nsid).gen + 1
      keys := (s.hq.reservation cap.nsid).keys.filter (fun k => k.1 != host) ++ [(host, resKey cap 8)] } s) := by
  rw [reserve, if_pos code]
  simp [registerKey, act, new, bitField]

/-- Acquire of a registrant where no host holds the namespace makes it the holder (R109). -/
theorem reserve_acquire_free {host : Bytes} (code : cap.opcode = 0x11)
    (mine : (s.hq.reservation cap.nsid).keyOf host = some (resKey cap 0)) (act : cap.cdw10 % 8 = 0)
    (low : 1 ≤ bitField 15 8 cap.cdw10) (high : bitField 15 8 cap.cdw10 ≤ 6) (free : (s.hq.reservation cap.nsid).holder = none) :
    reserve cap host s = (nvmeOk, setReservation { s.hq.reservation cap.nsid with
      holder := some host, rtype := bitField 15 8 cap.cdw10 } s) := by
  rw [reserve, if_neg (by omega), if_pos code]
  have known : ¬ (bitField 15 8 cap.cdw10 = 0 ∨ 6 < bitField 15 8 cap.cdw10 ∨ 2 < cap.cdw10 % 8) := by omega
  simp only [acquireReservation, if_neg (not_not_intro mine), if_neg known, if_pos act, free, Option.isNone_none, if_true]

/-- Release of a holder under a type without registrants' rights: no host is told (R109). -/
theorem reserve_release_plain {host : Bytes} (code : cap.opcode = 0x15)
    (mine : (s.hq.reservation cap.nsid).keyOf host = some (resKey cap 0)) (act : cap.cdw10 % 8 = 0)
    (holds : (s.hq.reservation cap.nsid).holds host = true) (same : bitField 15 8 cap.cdw10 = (s.hq.reservation cap.nsid).rtype)
    (plain : (s.hq.reservation cap.nsid).rtype < 3) :
    reserve cap host s = (nvmeOk, setReservation { s.hq.reservation cap.nsid with holder := none, rtype := 0 } s) := by
  rw [reserve, if_neg (by omega), if_neg (by omega), if_pos code]
  simp only [releaseReservation, if_neg (not_not_intro mine), if_pos act, if_neg (not_not_intro holds),
    if_neg (not_not_intro same), if_neg (show ¬ 3 ≤ (s.hq.reservation cap.nsid).rtype by omega)]

/-- The Dispatcher's act while the connection granted has weight left and fetches: it stays where weight and a further fetch remain
(R100). -/
theorem dispatch_granted {u : State} {stays : Bool} (turn : s.hq.queues[s.hq.turn]? = some q) (left : s.hq.taken < q.weight)
    (fetched : tryFetch q s = some (u, true))
    (goesOn : (decide (s.hq.taken + 1 < q.weight) && (tryQueue s.hq.turn u).isSome) = stays) :
    dispatch s = { u with hq := { u.hq with
      turn := if stays then s.hq.turn else s.hq.turn + 1, taken := if stays then s.hq.taken + 1 else 0 } } := by
  have there : s.hq.turn < s.hq.queues.length := (List.getElem?_eq_some_iff.mp turn).1
  have tried : tryQueue s.hq.turn s = some (u, true) := by rw [tryQueue, turn, Option.bind_some, fetched]
  unfold dispatch
  simp only [List.range_succ_eq_map, List.filterMap_cons, Nat.add_zero, Nat.mod_eq_of_lt there, turn, Option.map_some,
    Option.getD_some, true_and, if_neg (Nat.not_le.mpr left), tried, if_true, Bool.true_and, goesOn]

/-- The page that the read at the head of a connection misses is read (R295). -/
theorem exec_metadataPagePrefetch_one {at_ root page : Nat} {rest : List (Nat × (Capsule × Nat))} (h : s.hq.queue cntlid qid = some q)
    (head : q.capsules = (cid, (cap, at_)) :: rest) (reads : readsData cap = true) (fetches : s.fetches = true)
    (missing : (s.pagesFor cap).filter (fun p => s.ftl.absent.contains p && !s.ftl.lostPages.contains p) = [(root, page)])
    (unread : (s.bay.waiting ++ s.bay.outstanding).any (fun o => o.use == .metadata root page) = false)
    (admits : s.metaAdmits (s.ftl.mpaOfPage root page) = true) :
    exec (.metadataPagePrefetch cntlid qid) s = .next (fetchMeta root page (s.ftl.mpaOfPage root page) s) := by
  change execMetadataPagePrefetch cntlid qid s = _
  unfold execMetadataPagePrefetch
  rw [h]
  dsimp only
  rw [head]
  dsimp only
  rw [whenDue_pos ⟨reads, fetches⟩, missing]
  simp only [List.foldl_cons, List.foldl_nil, unread, admits, Bool.not_true, Bool.false_eq_true, if_false]

end

/-! ### Fetch sequence numbers of the peer (R103, R106, R109, R124) -/

section
variable {nsid tag : Nat} {s : State}

/-- A request of the peer outside PS3 is granted, or waits (R103). -/
theorem exec_fsnRequest {number : Nat} {cap : Capsule} {host : Bytes} (taken : s.drops (.fsnRequest nsid tag) = false)
    (new : getKey number s.corr.answered = none) (first : s.hq.fsnWaits.any (fun f => f.1 == number) = false)
    (awake : s.hq.ps ≠ 3) :
    exec (.fsnRequest number nsid tag cap host) s = .next ((grantFsn number nsid tag cap host (tallyAdd 0x0D 1 1 s)).getD
      { tallyAdd 0x0D 1 1 s with hq := { s.hq with fsnWaits := s.hq.fsnWaits ++ [(number, (nsid, (tag, (cap, host))))] } }) := by
  refine (onMessage_next taken new : execFsnRequest number nsid tag cap host s = _).trans ?_
  have stays : ¬ (readsData cap = true ∧ (tallyAdd 0x0D 1 1 s).hq.ps = 3 ∧ (tallyAdd 0x0D 1 1 s).hq.ps3Exit.isNone = true) :=
    fun exits => awake exits.2.1
  dsimp only
  rw [if_neg stays, if_neg (by simp [first])]
  cases grantFsn number nsid tag cap host (tallyAdd 0x0D 1 1 s) <;> rfl

/-- The peer's answer to a request whose capsule still waits (R103, R109). -/
theorem exec_fsnGrant {seq : Nat} {q : Queue} {m : Sent} {u : State} (taken : s.drops (.fsnGrant nsid tag seq) = false)
    (asked : s.corr.answerOf (fun b => b == .fsnRequest nsid tag) = some m) (settled : u = settleNumber m.number (tallyAdd 0x0D 1 1 s))
    (waits : u.hq.queues.find? (fun q => q.asked == some tag) = some q) :
    exec (.fsnGrant nsid tag seq) s = .next (
      if seq = 0 then takeFailed { q with asked := none } nvmeReserved (unask q u)
      else takeCapsule { q with granted := some seq } seq false (((u.hq.controller q.cntlid).map (·.hostId)).getD []) u) := by
  subst settled
  refine (onWord_next taken : execFsnGrant nsid tag seq s = _).trans ?_
  simp only [tallyAdd_corr, asked, waits]

end

/-! ### Data of writes (R101, R102, R133, R140) -/

section
variable {cntlid qid cid first : Nat} {data pi : Bytes} {x : Ctx} {s : State}

/-- Data that a write waits for is placed; a write that waits for more asks for it (R101, R133, R140). -/
theorem exec_writeDataArrival_placed {u : State} (h : s.hq.ctx cntlid qid cid = some x) (code : x.cap.opcode = 0x01)
    (state : x.state = .dataIn) (open_ : x.committed = false) (own : x.forPeer = false) (fits : x.overruns first data pi = false)
    (new : x.blocks.any (fun b => first ≤ b.1 && b.1 < first + data.length / 4096) = false)
    (placed : u = writeProgress (placeData x first (data.take (4096 * (x.cap.nlb - first))) pi s).1
      (placeData x first (data.take (4096 * (x.cap.nlb - first))) pi s).2) :
    exec (.writeDataArrival cntlid qid cid first data pi true) s = .next ((u.hq.ctx cntlid qid cid).elim u
      (fun z => if z.state = .dataIn ∧ z.committed = false then askData z u else u)) := by
  subst placed
  change execWriteDataArrival cntlid qid cid first data pi true s = _
  unfold execWriteDataArrival
  rw [h]
  dsimp only
  rw [if_neg (by simp [code, own]), if_neg (by simp [fits]), if_neg (by simp [code]), if_neg (by simp [state, open_]),
    if_neg (by simp), if_neg (by simp [new])]
  split
  next gone => rw [gone]; rfl
  next z there => rw [there, Option.elim_some]; simp only [Bool.not_eq_true]

/-- Data beyond a write's transfer length ends its NVMe/TCP connection (Table 3-12). -/
theorem exec_writeDataArrival_overrun {ok : Bool} (h : s.hq.ctx cntlid qid cid = some x) (code : x.cap.opcode = 0x01)
    (own : x.forPeer = false) (tcp : x.cap.tcp = true) (beyond : x.overruns first data pi = true) :
    exec (.writeDataArrival cntlid qid cid first data pi ok) s = .next (endConnection cntlid qid causeRange s) := by
  change execWriteDataArrival cntlid qid cid first data pi ok s = _
  unfold execWriteDataArrival
  rw [h]
  dsimp only
  rw [if_neg (by simp [code, own]), if_pos ⟨tcp, beyond⟩]

/-- A failed RDMA Read fails the write (Table 3-12). -/
theorem exec_writeDataArrival_failed (h : s.hq.ctx cntlid qid cid = some x) (code : x.cap.opcode = 0x01)
    (state : x.state = .dataIn) (open_ : x.committed = false) (own : x.forPeer = false) (rdma : x.cap.tcp = false) :
    exec (.writeDataArrival cntlid qid cid first data pi false) s = .next (failWrite x nvmeTransfer s) := by
  change execWriteDataArrival cntlid qid cid first data pi false s = _
  unfold execWriteDataArrival
  rw [h]
  dsimp only
  rw [if_neg (by simp [code, own]), if_neg (by simp [rdma]), if_neg (by simp [code]), if_neg (by simp [state, open_]),
    if_pos (by simp)]

/-- A write without all its data when its time is over fails, with its event (R102). -/
theorem exec_dataInTimeout_write {c : Controller} (h : s.hq.ctx cntlid qid cid = some x) (own : x.forPeer = false)
    (late : x.at_ + secBells s.hq.timeout ≤ s.tt.now) (lacks : x.blocks.length < x.cap.nlb) (code : x.cap.opcode = 0x01)
    (state : x.state = .dataIn) (its : s.hq.controller x.cntlid = some c) :
    exec (.dataInTimeout cntlid qid cid) s =
      .next (event 0x3003 9 (argOf [(0, c.number), (2, x.qid)]) (failWrite x nvmeTransfer s)) := by
  change execDataInTimeout cntlid qid cid s = _
  unfold execDataInTimeout
  rw [h]
  dsimp only
  rw [whenDue_pos ⟨own, late, lacks, .inl ⟨code, state⟩⟩, its, if_neg (by omega)]
  rfl

/-! ### Connections (R115, R117) -/

/-- A fatal transport error ends the queue, or the association whose admin queue it is (R117). -/
theorem exec_connectionError {q : Queue} (h : s.hq.queue cntlid qid = some q) :
    exec (.connectionError cntlid qid) s = .next (if qid = 0 then loseAssociation cntlid 4 s else endQueue q s) := by
  change execConnectionError cntlid qid s = _
  simp only [execConnectionError, h]

/-- An association whose keep-alive timer is over is lost (R115). -/
theorem exec_keepAliveExpiry {c : Controller} (h : s.hq.controller cntlid = some c) (runs : c.kato ≠ 0)
    (ended : c.alive + msBells c.kato ≤ s.tt.now) :
    exec (.keepAliveExpiry cntlid) s = .next (loseAssociation cntlid 3 s) := by
  change execKeepAliveExpiry cntlid s = _
  unfold execKeepAliveExpiry
  rw [h]
  exact whenDue_pos ⟨runs, ended⟩

end

/-- Settles O27: a capsule takes its entry or is refused by its buffer, the Dispatcher's act is read off the connection granted, and
numbers, data and connections each take the branch of their premises. -/
theorem capsuleAndConnectionCommands : Obligations.CapsuleAndConnectionCommands := by
  unfold Obligations.CapsuleAndConnectionCommands
  refine ⟨?accepted, ?badLength, ?noBuffer, ?register, ?acquire, ?release, ?fetchStays, ?fetchLast, ?prefetch, ?requestGranted,
    ?requestWaits, ?granted, ?refused, ?dataDone, ?dataMore, ?overrun, ?failed, ?timeout, ?associationError, ?queueError, ?expiry⟩
  case accepted => exact fun _ _ _ _ _ _ => exec_capsuleReceive_accepted
  case badLength => exact fun _ _ _ _ _ _ => exec_capsuleReceive_badLength
  case noBuffer =>
    exact fun cntlid qid cid cap q s host h io entry rdma => .of (execCapsuleReceive_led cntlid qid cid cap false (.refl _ s) rfl)
      ⟨_, exec_capsuleReceive_noBuffer host h io entry rdma, rfl, rfl⟩
  case register =>
    intro qid cid cap room r s code its act new
    subst its
    rw [exec_capsuleReceive_peer, reserve_register_new code act new]
  case acquire =>
    intro qid cid cap room r s code its mine act low high free
    subst its
    rw [exec_capsuleReceive_peer, reserve_acquire_free code mine act low high free]
  case release =>
    intro qid cid cap room r s code its mine act holds same plain
    subst its
    rw [exec_capsuleReceive_peer, reserve_release_plain code mine act holds same plain]
  case fetchStays =>
    exact fun q u s fetches turn left fetched further => (whenDue_pos fetches : execCapsuleFetch s = _).trans
      (congrArg _ (dispatch_granted (stays := true) turn (by omega) fetched (by simp [left, further])))
  case fetchLast =>
    exact fun q u s fetches turn last fetched => (whenDue_pos fetches : execCapsuleFetch s = _).trans
      (congrArg _ (dispatch_granted (stays := false) turn (by omega) fetched (by simp [last])))
  case prefetch => exact fun _ _ _ _ _ _ _ _ _ _ => exec_metadataPagePrefetch_one
  case requestGranted =>
    intro number nsid tag cap host t s taken new first awake grant
    rw [exec_fsnRequest taken new first awake, grant]
    rfl
  case requestWaits =>
    intro number nsid tag cap host s taken new first awake waits
    refine .of (execFsnRequest_led number nsid tag cap host (.refl _ s) rfl) ⟨_, exec_fsnRequest taken new first awake, ?_⟩
    rw [waits]
    exact ⟨rfl, rfl⟩
  case granted =>
    intro nsid tag seq q c m u s taken asked settled waits its number
    rw [exec_fsnGrant taken asked settled waits, if_neg number, its]
    rfl
  case refused =>
    intro nsid tag q m u s taken asked settled waits
    rw [exec_fsnGrant taken asked settled waits, if_pos rfl]
  case dataDone =>
    intro cntlid qid cid first data pi x u s h code state open_ own fits new placed gone
    rw [exec_writeDataArrival_placed h code state open_ own fits new placed, gone]
    rfl
  case dataMore =>
    intro cntlid qid cid first data pi x z u s h code state open_ own fits new placed there
    rw [exec_writeDataArrival_placed h code state open_ own fits new placed, there]
    rfl
  case overrun => exact fun _ _ _ _ _ _ _ _ _ => exec_writeDataArrival_overrun
  case failed => exact fun _ _ _ _ _ _ _ _ => exec_writeDataArrival_failed
  case timeout => exact fun _ _ _ _ _ _ => exec_dataInTimeout_write
  case associationError => exact fun cntlid c q s h => by rw [exec_connectionError h, if_pos rfl]
  case queueError => exact fun cntlid qid q s h io => by rw [exec_connectionError h, if_neg io]
  case expiry => exact fun _ _ _ => exec_keepAliveExpiry

end Sys2Proof.Machine

namespace Sys2Proof.Machine

/-! ### Data commands of a host (R101, R104 to R107, R111, R114, R136, R140) -/

section
variable {cntlid qid cid : Nat} {remote : Option (Status × Bytes)} {x : Ctx} {s : State}

/-- A Flush that no earlier write holds back completes (R111). -/
theorem exec_flush {remoteDone : Bool} (h : s.hq.ctx cntlid qid cid = some x) (code : x.cap.opcode = 0x00)
    (state : x.state = .fetched) (free : s.flushWaits x = false) (owner : s.ownsAll x = true ∨ remoteDone = true) :
    exec (.flush cntlid qid cid remoteDone) s = .next (complete x nvmeOk 0 [] s) := by
  change execFlush cntlid qid cid remoteDone s = _
  unfold execFlush
  rw [h]
  exact whenDue_pos ⟨code, state, free, owner⟩

/-- A Write asks for its blocks, or stages at once those that its capsule carries (R101, R140). -/
theorem exec_write (h : s.hq.ctx cntlid qid cid = some x) (code : x.cap.opcode = 0x01) (state : x.state = .fetched)
    (alone : s.hq.compareRuns x = false) :
    exec (.write cntlid qid cid) s = .next (x.cap.data.elim (startDataIn x s) (fun d =>
      writeProgress (placeData { x with state := .dataIn } 0 (d.take (4096 * x.cap.nlb)) x.cap.pi s).1
        (placeData { x with state := .dataIn } 0 (d.take (4096 * x.cap.nlb)) x.cap.pi s).2)) := by
  change execWrite cntlid qid cid s = _
  unfold execWrite
  rw [h]
  dsimp only
  rw [whenDue_pos ⟨code, state, alone⟩]
  cases x.cap.data <;> rfl

/-- A read of a namespace that this head owns starts (R105 to R107). -/
theorem runRead_owned {opcode : Nat} (h : s.hq.ctx cntlid qid cid = some x) (code : x.cap.opcode = opcode)
    (state : x.state = .fetched) (owned : (s.ftl.ofNsid x.cap.nsid).any (fun r => s.ownsGroup r.ana) = true) :
    runRead opcode cntlid qid cid remote s =
      readProgress { x with state := .resolved } (setCtx { x with state := .resolved } s) := by
  unfold runRead
  rw [h]
  dsimp only
  rw [if_neg (by simp [code, state]), if_pos owned]

/-- A read on a Non-Optimized path ends with what the owning head answers (R120). -/
theorem runRead_remote {d : Bytes} (h : s.hq.ctx cntlid qid cid = some x) (code : x.cap.opcode = 0x02)
    (state : x.state = .fetched) (other : (s.ftl.ofNsid x.cap.nsid).any (fun r => s.ownsGroup r.ana) = false)
    (plain : s.hasMeta x.cap.nsid = false) :
    runRead 0x02 cntlid qid cid (some (.ok, d)) s = finishRead { x with
        state := .resolved, reads := (List.range x.cap.nlb).map (fun i => (Source.zero, some (slice d (4096 * i) 4096))) }
      (setCtx { x with state := .resolved } s) := by
  unfold runRead
  rw [h]
  dsimp only
  rw [if_neg (by simp [code, state]), if_neg (by simp [other]), if_neg (by simp), if_neg (by decide)]
  simp [plain]

/-- A Compare that has its host data, on the head that owns its namespace, asks for nothing (R120). -/
theorem pullCompare_held (h : s.hq.ctx cntlid qid cid = some x) (held : x.blocks ≠ []) (owns : s.ownsNsid x.cap.nsid = true) :
    pullCompare cntlid qid cid s = s := by
  unfold pullCompare
  rw [h]
  dsimp only
  rw [if_neg held, if_pos owns, ite_self]

/-- A Compare by itself that has its host data reads its range (R105). -/
theorem exec_compare_held (h : s.hq.ctx cntlid qid cid = some x) (code : x.cap.opcode = 0x05) (single : x.cap.fused = 0)
    (state : x.state = .fetched) (held : x.blocks ≠ []) (owns : s.ownsNsid x.cap.nsid = true)
    (owned : (s.ftl.ofNsid x.cap.nsid).any (fun r => s.ownsGroup r.ana) = true) :
    exec (.compare cntlid qid cid remote) s =
      .next (readProgress { x with state := .resolved } (setCtx { x with state := .resolved } s)) := by
  change execCompare cntlid qid cid remote s = _
  unfold execCompare
  rw [h]
  dsimp only
  rw [whenDue_pos single, pullCompare_held h held owns, runRead_owned h code state owned]

/-- So does the Compare half of a fused pair (R104). -/
theorem exec_compareAndWrite_held (h : s.hq.ctx cntlid qid cid = some x) (code : x.cap.opcode = 0x05) (first : x.cap.fused = 1)
    (state : x.state = .fetched) (held : x.blocks ≠ []) (owns : s.ownsNsid x.cap.nsid = true)
    (owned : (s.ftl.ofNsid x.cap.nsid).any (fun r => s.ownsGroup r.ana) = true) :
    exec (.compareAndWrite cntlid qid cid remote) s =
      .next (readProgress { x with state := .resolved } (setCtx { x with state := .resolved } s)) := by
  change execCompareAndWrite cntlid qid cid remote s = _
  unfold execCompareAndWrite
  rw [h]
  dsimp only
  rw [whenDue_pos first, pullCompare_held h held owns, runRead_owned h code state owned]

/-- Write Zeroes stages its range as zeros (R136). -/
theorem exec_writeZeroes {y : Ctx} {u : State} (h : s.hq.ctx cntlid qid cid = some x) (code : x.cap.opcode = 0x08)
    (state : x.state = .fetched)
    (placed : placeZeros { x with state := .dataIn } (zeroPieces x.cap.slba x.cap.nlb false) s = (y, u)) :
    exec (.writeZeroes cntlid qid cid) s =
      .next (writeProgress { y with blocks := (List.range (stagedBlocks x.cap)).map (fun i => (i, [])) } u) := by
  change execWriteZeroes cntlid qid cid s = _
  unfold execWriteZeroes
  rw [h]
  dsimp only
  rw [whenDue_pos ⟨code, state⟩, placed]

/-- Dataset Management with AD set deallocates its ranges (R114). -/
theorem exec_datasetManagement_deallocate {y : Ctx} {u : State} (h : s.hq.ctx cntlid qid cid = some x) (code : x.cap.opcode = 0x09)
    (state : x.state = .fetched) (ad : bitAt 2 x.cap.cdw11 = true)
    (placed : placeZeros { x with state := .dataIn } (x.cap.ranges.flatMap (fun r => zeroPieces r.1 r.2 true)) s = (y, u)) :
    exec (.datasetManagement cntlid qid cid) s =
      .next (writeProgress { y with blocks := (List.range (stagedBlocks x.cap)).map (fun i => (i, [])) } u) := by
  change execDatasetManagement cntlid qid cid s = _
  unfold execDatasetManagement
  rw [h]
  dsimp only
  rw [whenDue_pos ⟨code, state⟩, if_pos ad, placed]

/-- Without it the command completes and changes no block (Table 3-5). -/
theorem exec_datasetManagement_other (h : s.hq.ctx cntlid qid cid = some x) (code : x.cap.opcode = 0x09)
    (state : x.state = .fetched) (ad : bitAt 2 x.cap.cdw11 = false) :
    exec (.datasetManagement cntlid qid cid) s = .next (complete x nvmeOk 0 [] (unadmit x s)) := by
  change execDatasetManagement cntlid qid cid s = _
  unfold execDatasetManagement
  rw [h]
  dsimp only
  rw [whenDue_pos ⟨code, state⟩, if_neg (by simp [ad])]

end

/-- Settles O28: each command is due under its premises; reads, compares and verifies of an owned namespace share one start. -/
theorem hostDataCommands : Obligations.HostDataCommands := by
  unfold Obligations.HostDataCommands
  refine ⟨?flush, ?write, ?writeInCapsule, ?read, ?readRemote, ?compare, ?compareAndWrite, ?zeroes, ?deallocate, ?otherManagement,
    ?verify⟩
  case flush =>
    intro cntlid qid cid remoteDone x q s h its code state free owner
    rw [exec_flush h code state free owner, complete_ok its]
  case write =>
    intro cntlid qid cid x s h code state alone bare
    rw [exec_write h code state alone, bare]
    rfl
  case writeInCapsule =>
    intro cntlid qid cid x d s h code state alone carried
    rw [exec_write h code state alone, carried]
    rfl
  case read => exact fun cntlid qid cid remote x s h code state owned => congrArg _ (runRead_owned h code state owned)
  case readRemote =>
    exact fun cntlid qid cid x d s h code state other plain => congrArg _ (runRead_remote h code state other plain)
  case compare => exact fun _ _ _ _ _ _ => exec_compare_held
  case compareAndWrite => exact fun _ _ _ _ _ _ => exec_compareAndWrite_held
  case zeroes => exact fun _ _ _ _ _ _ _ => exec_writeZeroes
  case deallocate => exact fun _ _ _ _ _ _ _ => exec_datasetManagement_deallocate
  case otherManagement => exact fun _ _ _ _ _ => exec_datasetManagement_other
  case verify => exact fun cntlid qid cid remote x s h code state owned => congrArg _ (runRead_owned h code state owned)

end Sys2Proof.Machine

namespace Sys2Proof.Machine

/-! ### Reservation commands once fetched (R109) -/

section
variable {cntlid qid cid opcode : Nat} {x : Ctx} {s : State}

/-- The fetched reservation command of an opcode runs on its namespace's record. -/
theorem onReservation_next {f : Ctx → Reservation → State → State} (h : s.hq.ctx cntlid qid cid = some x)
    (code : x.cap.opcode = opcode) (state : x.state = .fetched) :
    onReservation opcode cntlid qid cid f s = .next (f x (s.hq.reservation x.cap.nsid) s) := by
  unfold onReservation
  rw [h]
  exact whenDue_pos ⟨code, state⟩

/-- A reservation command completes with what its fetch decided (R109). -/
theorem onReservation_decided {st : NvmeStatus} (h : s.hq.ctx cntlid qid cid = some x) (code : x.cap.opcode = opcode)
    (state : x.state = .fetched) (decided : x.decided = some st) :
    onReservation opcode cntlid qid cid (fun x _ s => complete x (x.decided.getD nvmeOk) 0 [] s) s = .next (complete x st 0 [] s) := by
  rw [onReservation_next h code state, decided]
  rfl

/-- A command whose fetch decided success completes without data (R109). -/
theorem onReservation_decided_ok {q : Queue} (h : s.hq.ctx cntlid qid cid = some x) (its : s.hq.queue x.cntlid x.qid = some q)
    (code : x.cap.opcode = opcode) (state : x.state = .fetched) (decided : x.decided = some nvmeOk) :
    onReservation opcode cntlid qid cid (fun x _ s => complete x (x.decided.getD nvmeOk) 0 [] s) s =
      .next (emit (.completion x.cntlid x.qid x.cid 0 0 false 0 q.sqhd []) (unpin (dropCtx x s))) := by
  rw [onReservation_decided h code state decided, complete_ok its]

/-- The extended data structure of a namespace without registrants is its header alone (Table 3-5). -/
theorem exec_reservationReport_empty {q : Queue} (h : s.hq.ctx cntlid qid cid = some x) (its : s.hq.queue x.cntlid x.qid = some q)
    (code : x.cap.opcode = 0x0E) (state : x.state = .fetched) (extended : bitAt 0 x.cap.cdw11 = true)
    (bare : (s.hq.reservation x.cap.nsid).keys = []) :
    exec (.reservationReport cntlid qid cid) s = .next (emit (.completion x.cntlid x.qid x.cid 0 0 false 0 q.sqhd
      (fitBytes (4 * (x.cap.cdw10 + 1)) (fields [(4, (s.hq.reservation x.cap.nsid).gen), (1, (s.hq.reservation x.cap.nsid).rtype),
        (2, 0), (2, 0), (1, flagBit (s.hq.reservation x.cap.nsid).ptpl), (14, 0)] ++ zeros 40))) (unpin (dropCtx x s))) := by
  refine (onReservation_next h code state : execReservationReport cntlid qid cid s = _).trans ?_
  rw [if_neg (not_not_intro extended), complete_ok its, bare]
  simp only [List.length_nil, List.flatMap_nil, List.append_nil]

end

/-- Settles O29: the three commands that change a reservation complete alike, with what their fetch decided. -/
theorem reservationCommands : Obligations.ReservationCommands := by
  unfold Obligations.ReservationCommands
  refine ⟨?registerOk, ?register, ?report, ?acquireOk, ?acquire, ?releaseOk, ?release⟩
  case registerOk => exact fun _ _ _ _ _ _ => onReservation_decided_ok
  case register => exact fun _ _ _ _ _ _ => onReservation_decided
  case report => exact fun _ _ _ _ _ _ => exec_reservationReport_empty
  case acquireOk => exact fun _ _ _ _ _ _ => onReservation_decided_ok
  case acquire => exact fun _ _ _ _ _ _ => onReservation_decided
  case releaseOk => exact fun _ _ _ _ _ _ => onReservation_decided_ok
  case release => exact fun _ _ _ _ _ _ => onReservation_decided

end Sys2Proof.Machine

namespace Sys2Proof.Machine

/-! ### Admin commands: the controller, the entry taken and the completion (R94, R96, R116) -/

section
variable {cntlid cid dw0 : Nat} {b : Bytes} {c : Controller} {s t : State}

/-- An admin command of a controller that exists runs once its entry is taken. -/
theorem onController_next {f : Controller → State → State} (h : s.hq.controller cntlid = some c) :
    onController cntlid f s = .next (f c (adminFetched cntlid s)) := by
  simp only [onController, h]

/-- A command for management-capable controllers runs on one (R96). -/
theorem managedOnly_next {f : State → State} {m : Nat} (h : s.hq.controller cntlid = some c) (managed : s.hq.managed cntlid = some m) :
    managedOnly cntlid cid f s = .next (f (adminFetched cntlid s)) := by
  refine (onController_next h).trans ?_
  rw [adminFetched_managed, managed, if_neg (by simp)]

/-- While the queues are as the entry's taking has left them, a completion carries the SQHD that follows (R94). -/
theorem completionOf_fetched {st : NvmeStatus} (queues : t.hq.queues = (adminFetched cntlid s).hq.queues) :
    t.completionOf cntlid 0 cid st dw0 b = .completion cntlid 0 cid st.1 st.2.1 st.2.2.1 dw0 (s.adminSqhd cntlid) b := by
  rw [State.completionOf, adminFetched_find _ cntlid s queues]

/-- Outside the final handover step a successful completion is sent at once (R116). -/
theorem adminDone_fetched (queues : t.hq.queues = (adminFetched cntlid s).hq.queues) (free : t.handingOver = false) :
    adminDone cntlid cid nvmeOk dw0 b t = emit (.completion cntlid 0 cid 0 0 false dw0 (s.adminSqhd cntlid) b) t := by
  rw [adminDone_sends free, completionOf_fetched queues]
  rfl

/-- A command that ends so completes with what the sent completion leaves. -/
theorem completes_fetched {i : Instr} {P : Touch} {effect : State → Prop} (led : LedO P s (exec i s))
    (runs : exec i s = .next (adminDone cntlid cid nvmeOk dw0 b t)) (queues : t.hq.queues = (adminFetched cntlid s).hq.queues)
    (free : t.handingOver = false)
    (h : effect (emit (.completion cntlid 0 cid 0 0 false dw0 (s.adminSqhd cntlid) b) t)) : Completes i s P effect :=
  .of led ⟨_, runs.trans (congrArg _ (adminDone_fetched queues free)), h⟩

/-- So is one with an error, which is also noted. -/
theorem adminDone_fetched_out {st : NvmeStatus} (queues : t.hq.queues = (adminFetched cntlid s).hq.queues)
    (free : t.handingOver = false) : (adminDone cntlid cid st dw0 b t).out =
      t.out ++ [.completion cntlid 0 cid st.1 st.2.1 st.2.2.1 dw0 (s.adminSqhd cntlid) b] := by
  have sent : (adminDone cntlid cid st dw0 b t).out = (emit (t.completionOf cntlid 0 cid st dw0 b) t).out := by
    unfold adminDone noteError
    simp only [free, Bool.false_eq_true, if_false]
    split
    · rfl
    · rw [tallyAdd_out, logError_out]
  rw [sent, completionOf_fetched queues]
  rfl

end

/-! ### The admin commands of Tables 3-3 and 3-4 -/

section
variable {cntlid cid : Nat} {c : Controller} {s : State}

theorem readPage_queues (c : Controller) (lid : Nat) (s : State) : (readPage c lid s).hq.queues = s.hq.queues := by
  unfold readPage
  split
  · rfl
  · split <;> rfl

theorem readPage_out (c : Controller) (lid : Nat) (s : State) : (readPage c lid s).out = s.out := by
  unfold readPage
  split
  · rfl
  · split <;> rfl

/-- A page of Table 3-7 is read. -/
theorem exec_getLogPage_page {lid offset length : Nat} {peer b : Bytes} (h : s.hq.controller cntlid = some c)
    (page : s.logPage c lid peer = some b) : exec (.getLogPage cntlid cid lid offset length peer) s = .next
      (adminDone cntlid cid nvmeOk 0 (slice b offset length) (drawn 8192 (readPage c lid (adminFetched cntlid s)))) := by
  refine (onController_next h : execGetLogPage cntlid cid lid offset length peer s = _).trans ?_
  rw [adminFetched_logPage, page]

/-- A page that is not supported is Invalid Log Page. -/
theorem exec_getLogPage_unknown {lid offset length : Nat} {peer : Bytes} (h : s.hq.controller cntlid = some c)
    (page : s.logPage c lid peer = none) : exec (.getLogPage cntlid cid lid offset length peer) s = .next
      (adminDone cntlid cid nvmeBadLog 0 [] (adminFetched cntlid s)) := by
  refine (onController_next h : execGetLogPage cntlid cid lid offset length peer s = _).trans ?_
  rw [adminFetched_logPage, page]

/-- Identify data of a supported CNS (R91). -/
theorem exec_identify {cns nsid cntid : Nat} {b : Bytes} (h : s.hq.controller cntlid = some c)
    (known : s.identifyData c cns nsid cntid = some b) : exec (.identify cntlid cid cns nsid cntid) s = .next
      (adminDone cntlid cid nvmeOk 0 b (drawn 4096 (adminFetched cntlid s))) := by
  refine (onController_next h : execIdentify cntlid cid cns nsid cntid s = _).trans ?_
  rw [adminFetched_identifyData, known]

/-- A capsule that waits in its queue is aborted (Table 3-4). -/
theorem exec_abort_waiting {sqid target : Nat} {q : Queue} (h : s.hq.controller cntlid = some c)
    (there : (adminFetched cntlid s).hq.queue cntlid sqid = some q) (waits : q.capsules.any (fun c => c.1 == target) = true) :
    exec (.abort cntlid cid sqid target) s = .next
      (adminDone cntlid cid nvmeOk 0 [] (endCapsules q (fun c => c.1 == target) nvmeAborted (adminFetched cntlid s))) := by
  refine (onController_next h : execAbort cntlid cid sqid target s = _).trans ?_
  rw [there]
  dsimp only
  rw [if_pos waits]

/-- A command that waits in no entry is not aborted, and Dword 0 says so (Table 3-4). -/
theorem exec_abort_fetched {sqid target : Nat} {q : Queue} (h : s.hq.controller cntlid = some c)
    (there : (adminFetched cntlid s).hq.queue cntlid sqid = some q) (gone : q.capsules.any (fun c => c.1 == target) = false) :
    exec (.abort cntlid cid sqid target) s = .next (adminDone cntlid cid nvmeOk 1 [] (adminFetched cntlid s)) := by
  refine (onController_next h : execAbort cntlid cid sqid target s = _).trans ?_
  rw [there]
  dsimp only
  rw [if_neg (by simp [gone])]

/-- A keep-alive timeout in range is taken and the timer starts again (Table 3-6). -/
theorem exec_setFeatures_keepAlive {nsid value : Nat} {data : Bytes} (h : s.hq.controller cntlid = some c) (low : 1000 ≤ value)
    (high : value ≤ 300000) : exec (.setFeatures cntlid cid 0x0F nsid value data) s = .next (adminDone cntlid cid nvmeOk 0 []
      (setController { c with kato := value, alive := s.tt.now } (adminFetched cntlid s))) := by
  refine (onController_next h : execSetFeatures cntlid cid 0x0F nsid value data s = _).trans ?_
  simp [low, high]

/-- An operational power state waits for the next bell (R122). -/
theorem exec_setFeatures_operational {nsid value m : Nat} {data : Bytes} (h : s.hq.controller cntlid = some c)
    (managed : s.hq.managed cntlid = some m) (state : value % 32 < 3) :
    exec (.setFeatures cntlid cid 0x02 nsid value data) s = .next { adminFetched cntlid s with
      hq := { (adminFetched cntlid s).hq with
        psNext := (adminFetched cntlid s).hq.psNext ++ [(value % 32, (cntlid, (cid, (adminFetched cntlid s).tt.now)))] } } := by
  refine (onController_next h : execSetFeatures cntlid cid 0x02 nsid value data s = _).trans ?_
  rw [if_pos rfl, adminFetched_managed, managed, if_neg (by simp), if_neg (by omega), if_neg (by omega)]

/-- An entry to PS3 begins outside PS3 (R123). -/
theorem exec_setFeatures_ps3 {nsid value m : Nat} {data : Bytes} (h : s.hq.controller cntlid = some c)
    (managed : s.hq.managed cntlid = some m) (state : value % 32 = 3) (outside : s.hq.ps ≠ 3) (idle : s.hq.ps3 = none) :
    exec (.setFeatures cntlid cid 0x02 nsid value data) s = .next { adminFetched cntlid s with
      hq := { (adminFetched cntlid s).hq with ps3 := some ((adminFetched cntlid s).tt.now, (cntlid, (cid, none))) } } := by
  refine (onController_next h : execSetFeatures cntlid cid 0x02 nsid value data s = _).trans ?_
  rw [if_pos rfl, adminFetched_managed, managed, if_neg (by simp), if_neg (by omega), if_pos state, adminFetched_hq_ps,
    if_neg outside, adminFetched_hq_ps3, idle, if_neg (by simp)]

/-- Power Management reads the state in force (R121). -/
theorem exec_getFeatures_power {nsid value : Nat} (h : s.hq.controller cntlid = some c) :
    exec (.getFeatures cntlid cid 0x02 nsid value) s = .next (adminDone cntlid cid nvmeOk s.hq.ps [] (adminFetched cntlid s)) := by
  refine (onController_next h : execGetFeatures cntlid cid 0x02 nsid value s = _).trans ?_
  rw [if_pos rfl, adminFetched_hq_ps]

theorem exec_getFeatures_keepAlive {nsid value : Nat} (h : s.hq.controller cntlid = some c) :
    exec (.getFeatures cntlid cid 0x0F nsid value) s = .next (adminDone cntlid cid nvmeOk c.kato [] (adminFetched cntlid s)) :=
  (onController_next h : execGetFeatures cntlid cid 0x0F nsid value s = _)

/-- Up to 8 requests wait for an event (Table 3-4). -/
theorem exec_asyncEventRequest_waits (h : s.hq.controller cntlid = some c) (few : c.aers.length < 8) :
    exec (.asyncEventRequest cntlid cid) s = .next (setController { c with aers := c.aers ++ [cid] } (adminFetched cntlid s)) := by
  refine (onController_next h : execAsyncEventRequest cntlid cid s = _).trans ?_
  rw [if_neg (by omega)]

theorem exec_asyncEventRequest_full (h : s.hq.controller cntlid = some c) (full : 8 ≤ c.aers.length) :
    exec (.asyncEventRequest cntlid cid) s = .next (adminDone cntlid cid (1, 5, true, 0) 0 [] (adminFetched cntlid s)) := by
  refine (onController_next h : execAsyncEventRequest cntlid cid s = _).trans ?_
  rw [if_pos full]

/-- Action 000b places the downloaded image (R116). -/
theorem exec_firmwareCommit_place {slot m : Nat} {u : State} (h : s.hq.controller cntlid = some c)
    (managed : s.hq.managed cntlid = some m) (known : slot ≤ 7) (placed : placeNvmeImage (adminFetched cntlid s) = .inl u) :
    exec (.firmwareCommit cntlid cid slot 0) s = .next (adminDone cntlid cid nvmeOk 0 [] u) := by
  refine (managedOnly_next h managed : execFirmwareCommit cntlid cid slot 0 s = _).trans ?_
  rw [if_neg (by omega), placed]
  rfl

/-- Action 011b activates it live; the activation's end answers (R116, R525). -/
theorem exec_firmwareCommit_activate {slot m : Nat} {u w : State} (h : s.hq.controller cntlid = some c)
    (managed : s.hq.managed cntlid = some m) (known : slot ≤ 7) (placed : placeNvmeImage (adminFetched cntlid s) = .inl u)
    (started : startActivation (.nvme cntlid cid) u = .inl w) :
    exec (.firmwareCommit cntlid cid slot 3) s = .next w := by
  refine (managedOnly_next h managed : execFirmwareCommit cntlid cid slot 3 s = _).trans ?_
  rw [if_neg (by omega), placed]
  dsimp only
  rw [if_neg (by decide), started]

/-- A piece of an image is kept at its offset (R96). -/
theorem exec_firmwareImageDownload {offset m : Nat} {data : Bytes} (h : s.hq.controller cntlid = some c)
    (managed : s.hq.managed cntlid = some m) :
    exec (.firmwareImageDownload cntlid cid offset data) s = .next (adminDone cntlid cid nvmeOk 0 [] { adminFetched cntlid s with
      trust := { s.trust with nvmeImage := lay (fitBytes (max s.trust.nvmeImage.length offset) s.trust.nvmeImage) offset data } }) := by
  refine (managedOnly_next h managed : execFirmwareImageDownload cntlid cid offset data s = _).trans ?_
  rw [adminFetched_trust]

/-- The keep-alive timer starts again (R115). -/
theorem exec_keepAlive (h : s.hq.controller cntlid = some c) : exec (.keepAlive cntlid cid) s =
    .next (adminDone cntlid cid nvmeOk 0 [] (setController { c with alive := s.tt.now } (adminFetched cntlid s))) := by
  refine (onController_next h : execKeepAlive cntlid cid s = _).trans ?_
  rw [adminFetched_tt]

end

/-- Settles O30: each command runs on the state its entry's taking leaves, and its completion carries the SQHD that follows, sent at
once or, in the final handover step, held. -/
theorem adminCommands : Obligations.AdminCommands := by
  unfold Obligations.AdminCommands
  refine ⟨?page, ?noPage, ?identify, ?abort, ?abortFetched, ?setKeepAlive, ?setPower, ?setPs3, ?getPower, ?getKeepAlive, ?event,
    ?eventFull, ?place, ?activate, ?download, ?alive, ?aliveHeld⟩
  case page =>
    exact fun cntlid cid lid offset length peer c b s h page free =>
      completes_fetched (execGetLogPage_led cntlid cid lid offset length peer (.refl _ s) rfl) (exec_getLogPage_page h page)
        (readPage_queues ..) ((readPage_handingOver ..).trans ((adminFetched_handingOver ..).trans free))
        (congrArg (· ++ _) ((readPage_out ..).trans (adminFetched_out ..)))
  case noPage =>
    intro cntlid cid lid offset length peer c s h page free
    refine .of (execGetLogPage_led cntlid cid lid offset length peer (.refl _ s) rfl) ⟨_, exec_getLogPage_unknown h page, ?_⟩
    rw [adminDone_fetched_out rfl ((adminFetched_handingOver ..).trans free), adminFetched_out]
    rfl
  case identify =>
    exact fun cntlid cid cns nsid cntid c b s h known free =>
      completes_fetched (execIdentify_led cntlid cid cns nsid cntid (.refl _ s) rfl) (exec_identify h known) rfl
        ((adminFetched_handingOver ..).trans free)
        ⟨congrArg (· ++ _) (adminFetched_out ..), congrArg (· + 4096) (adminFetched_draws ..)⟩
  case abort => exact fun _ _ _ _ _ _ _ => exec_abort_waiting
  case abortFetched =>
    exact fun cntlid cid sqid target c q s h there gone free =>
      completes_fetched (execAbort_led cntlid cid sqid target (.refl _ s) rfl) (exec_abort_fetched h there gone) rfl
        ((adminFetched_handingOver ..).trans free) ⟨congrArg (· ++ _) (adminFetched_out ..), rfl⟩
  case setKeepAlive =>
    exact fun cntlid cid nsid value data c s h low high free =>
      completes_fetched (execSetFeatures_led cntlid cid 0x0F nsid value data (.refl _ s) rfl)
        (exec_setFeatures_keepAlive h low high) rfl ((adminFetched_handingOver ..).trans free)
        ⟨rfl, congrArg (· ++ _) (adminFetched_out ..)⟩
  case setPower =>
    exact fun cntlid cid nsid value data c m s h managed state =>
      .of (execSetFeatures_led cntlid cid 0x02 nsid value data (.refl _ s) rfl)
        ⟨_, exec_setFeatures_operational h managed state, by simp only [adminFetched_hq_psNext, adminFetched_tt]⟩
  case setPs3 =>
    exact fun cntlid cid nsid value data c m s h managed state outside idle =>
      .of (execSetFeatures_led cntlid cid 0x02 nsid value data (.refl _ s) rfl)
        ⟨_, exec_setFeatures_ps3 h managed state outside idle, by simp only [adminFetched_tt]⟩
  case getPower =>
    exact fun cntlid cid nsid value c s h free =>
      completes_fetched (execGetFeatures_led cntlid cid 0x02 nsid value (.refl _ s) rfl) (exec_getFeatures_power h) rfl
        ((adminFetched_handingOver ..).trans free) (congrArg (· ++ _) (adminFetched_out ..))
  case getKeepAlive =>
    exact fun cntlid cid nsid value c s h free =>
      completes_fetched (execGetFeatures_led cntlid cid 0x0F nsid value (.refl _ s) rfl) (exec_getFeatures_keepAlive h) rfl
        ((adminFetched_handingOver ..).trans free) (congrArg (· ++ _) (adminFetched_out ..))
  case event =>
    exact fun cntlid cid c s h few => .of (execAsyncEventRequest_led cntlid cid (.refl _ s) rfl)
      ⟨_, exec_asyncEventRequest_waits h few, rfl⟩
  case eventFull =>
    intro cntlid cid c s h full free
    refine .of (execAsyncEventRequest_led cntlid cid (.refl _ s) rfl) ⟨_, exec_asyncEventRequest_full h full, ?_⟩
    rw [adminDone_fetched_out rfl ((adminFetched_handingOver ..).trans free), adminFetched_out]
  case place => exact fun _ _ _ _ _ _ _ => exec_firmwareCommit_place
  case activate => exact fun _ _ _ _ _ _ _ _ => exec_firmwareCommit_activate
  case download =>
    exact fun cntlid cid offset data c m s h managed free =>
      completes_fetched (execFirmwareImageDownload_led cntlid cid offset data (.refl _ s) rfl) (exec_firmwareImageDownload h managed)
        rfl (by simpa [State.handingOver] using free) ⟨rfl, congrArg (· ++ _) (adminFetched_out ..)⟩
  case alive =>
    exact fun cntlid cid c s h free =>
      completes_fetched (execKeepAlive_led cntlid cid (.refl _ s) rfl) (exec_keepAlive h) rfl
        ((adminFetched_handingOver ..).trans free) ⟨rfl, congrArg (· ++ _) (adminFetched_out ..)⟩
  case aliveHeld =>
    intro cntlid cid c s h handing
    refine .of (execKeepAlive_led cntlid cid (.refl _ s) rfl) ⟨_, exec_keepAlive h, ?_⟩
    rw [adminDone_holds]
    · exact ⟨congrArg₂ (fun held o => held ++ [o]) (adminFetched_hq_heldDone ..) (completionOf_fetched rfl), adminFetched_out ..⟩
    · exact (adminFetched_handingOver ..).trans handing

end Sys2Proof.Machine

namespace Sys2Proof.Machine

/-! ### Connecting a host (R90, R91) -/

/-- A new controller of the head with its admin queue (R90). -/
def State.withAdminQueue (s : State) (subsystem size port kato : Nat) (hostNqn hostId : Bytes) : State :=
  { s with hq := { s.hq with
    controllers := s.hq.controllers ++ [s.createController subsystem hostNqn hostId kato]
    queues := s.hq.queues ++ [newQueue s.newController 0 (size + 1) port (s.hq.weightOf hostNqn subsystem)]
    nextCntlid := s.newCntlid subsystem - s.cntlidRange.1 + 1 } }

/-- A management-capable controller has a binding of its host's class (R96). -/
def bindHost (cntlid : Nat) (hostNqn : Bytes) (s : State) : State :=
  match s.hq.managed cntlid with
  | none => s
  | some cls => bind (.nvme cntlid) cls hostNqn s

theorem bindHost_hq (cntlid : Nat) (hostNqn : Bytes) (s : State) : (bindHost cntlid hostNqn s).hq = s.hq := by
  unfold bindHost
  split
  · rfl
  · exact bind_hq ..

theorem bindHost_out (cntlid : Nat) (hostNqn : Bytes) (s : State) : (bindHost cntlid hostNqn s).out = s.out := by
  unfold bindHost
  split
  · rfl
  · exact bind_out ..

section
variable {port cntlid cid size kato : Nat} {hostNqn subNqn hostId : Bytes} {s : State}

/-- The Connect of an admin queue, by a host on the allow list of a subsystem, creates a controller (R90, R91). -/
theorem exec_fabricsConnect_admin {n : Nat} {t : State} (service : s.pwr.stage = .service)
    (known : (portsOf s.hq.modes).contains port = true) (named : subNqn ≠ [])
    (subsystem : (s.hq.subsystems.find? (fun x => x.nqn == subNqn)).map (·.number) = some n)
    (allowed : s.hq.hosts.any (fun h => h.nqn == hostNqn && (n == 0xFFFF || h.subsystem == n)) = true)
    (names : s.controllerNames.length < 65536) (entries : size ≤ 31) (low : 1000 ≤ kato) (high : kato ≤ 300000)
    (numbers : (s.hq.numbersOf n).length < s.cntlidRange.2)
    (made : t = bindHost s.newController hostNqn (s.withAdminQueue n size port kato hostNqn hostId)) :
    exec (.fabricsConnect port cntlid 0 cid size kato hostNqn subNqn hostId) s =
      .next (emit (t.completionOf s.newController 0 cid nvmeOk (s.newCntlid n) []) t) := by
  subst made
  change execFabricsConnect port cntlid 0 cid size kato hostNqn subNqn hostId s = _
  unfold execFabricsConnect
  dsimp only
  rw [if_neg (not_not_intro service), if_neg (not_not_intro known), if_pos rfl, if_neg named, subsystem]
  dsimp only
  rw [if_neg (not_not_intro allowed), if_neg (by omega)]
  rfl

/-- A queue added to a controller (R91). -/
def State.withIoQueue (s : State) (c : Controller) (cntlid qid size port : Nat) : State :=
  setController { c with queues := c.queues + 1 } { s with hq := { s.hq with
    queues := s.hq.queues ++ [newQueue cntlid qid (size + 1) port (s.hq.weightOf c.nqn c.subsystem)] } }

/-- The Connect of an I/O queue adds it to its controller, within the grant (R91). -/
theorem exec_fabricsConnect_io {qid : Nat} {c : Controller} (service : s.pwr.stage = .service)
    (known : (portsOf s.hq.modes).contains port = true) (io : qid ≠ 0) (h : s.hq.controller cntlid = some c)
    (ready : c.ready = true) (granted : qid ≤ c.granted) (entries : size ≤ 1023) (new : s.hq.queue cntlid qid = none)
    (same : c.nqn = hostNqn) (room : s.hq.ioQueues < 1048576) :
    exec (.fabricsConnect port cntlid qid cid size kato hostNqn subNqn hostId) s =
      .next (emit ((s.withIoQueue c cntlid qid size port).completionOf cntlid qid cid nvmeOk c.number [])
        (s.withIoQueue c cntlid qid size port)) := by
  change execFabricsConnect port cntlid qid cid size kato hostNqn subNqn hostId s = _
  unfold execFabricsConnect
  dsimp only
  rw [if_neg (not_not_intro service), if_neg (not_not_intro known), if_neg io, h]
  dsimp only
  have fits : ¬ (¬ c.ready = true ∨ c.granted < qid ∨ 1023 < size ∨ (s.hq.queue cntlid qid).isSome = true ∨ c.nqn ≠ hostNqn ∨
      1048576 ≤ s.hq.ioQueues) := by
    simp only [ready, new, same, Option.isSome_none, not_true_eq_false, Bool.false_eq_true, ne_eq, false_or]
    omega
  rw [if_neg fits]
  rfl

end

/-! ### Properties and the end of an association (R88, R115) -/

section
variable {cntlid cid : Nat} {c : Controller} {s : State}

/-- A property is read; its free bits are drawn (R88). -/
theorem exec_propertyGet {off v : Nat} (h : s.hq.controller cntlid = some c) (known : s.property c off = some v) :
    exec (.propertyGet cntlid cid off) s = .next (adminDone cntlid cid nvmeOk v [] (drawn 1 (adminFetched cntlid s))) := by
  refine (onController_next h : execPropertyGet cntlid cid off s = _).trans ?_
  rw [adminFetched_property, known]

/-- CC of a controller that is not enabled (R115). -/
theorem exec_propertySet_disabled {value : Nat} (h : s.hq.controller cntlid = some c) (off : c.enabled = false) :
    exec (.propertySet cntlid cid 0x14 value) s = .next (adminDone cntlid cid nvmeOk 0 [] (setController
      { c with cc := value % 2 ^ 32, enabled := bitAt 0 value, ready := bitAt 0 value } (adminFetched cntlid s))) := by
  refine (onController_next h : execPropertySet cntlid cid 0x14 value s = _).trans ?_
  rw [if_neg (by decide)]
  dsimp only
  rw [if_neg (by simp [off])]

/-- CC.EN from 1 to 0 resets the controller (R115). -/
theorem exec_propertySet_reset {value : Nat} (h : s.hq.controller cntlid = some c) (on : c.enabled = true)
    (off : bitAt 0 value = false) :
    exec (.propertySet cntlid cid 0x14 value) s = .next (adminDone cntlid cid nvmeOk 0 []
      (resetController { c with cc := value % 2 ^ 32 } (setController { c with cc := value % 2 ^ 32 } (adminFetched cntlid s)))) := by
  refine (onController_next h : execPropertySet cntlid cid 0x14 value s = _).trans ?_
  rw [if_neg (by decide)]
  dsimp only
  rw [if_pos ⟨on, by simp [off]⟩]

/-- A Disconnect completes and its association is lost (R115). -/
theorem exec_disconnect (h : s.hq.controller cntlid = some c) (free : s.handingOver = false) :
    exec (.disconnect cntlid cid) s = .next (loseAssociation cntlid 2
      (emit (.completion cntlid 0 cid 0 0 false 0 (s.adminSqhd cntlid) []) (adminFetched cntlid s))) := by
  refine (onController_next h : execDisconnect cntlid cid s = _).trans ?_
  rw [adminDone_fetched rfl ((adminFetched_handingOver ..).trans free)]

/-! ### Control packets over NVMe (R95 to R97, R126, R534, R544) -/

/-- A reply that is ready is told by its status and bit 16 (R95). -/
theorem exec_controlReplyPoll_ready {tag m : Nat} {r : Reply} (h : s.hq.controller cntlid = some c)
    (managed : s.hq.managed cntlid = some m) (there : s.cpi.replyOf (s.cpi.keeperOf (.nvme cntlid) tag) tag = some r)
    (ready : r.held = false) : exec (.controlReplyPoll cntlid cid tag) s =
      .next (adminDone cntlid cid nvmeOk (statusCode r.status + 65536) [] (adminFetched cntlid s)) := by
  refine (managedOnly_next h managed : execControlReplyPoll cntlid cid tag s = _).trans ?_
  rw [adminFetched_cpi, there]
  dsimp only
  rw [if_neg (by simp [ready])]

/-- A packet of a host goes to the intake, and its command completes (R97). -/
theorem exec_controlPacketSubmit_host {data : Bytes} {peerInflight m : Nat} (host : cntlid ≠ 65536)
    (h : s.hq.controller cntlid = some c) (managed : s.hq.managed cntlid = some m) :
    exec (.controlPacketSubmit cntlid cid data peerInflight) s = .next (adminDone cntlid cid nvmeOk 0 []
      (submitPacket (.nvme cntlid) data (data.drop (packetParts data).base) peerInflight (adminFetched cntlid s))) := by
  change execControlPacketSubmit cntlid cid data peerInflight s = _
  rw [execControlPacketSubmit, if_neg host, managedOnly_next h managed]

/-- A packet that the peer forwards is taken as it is (R544). -/
theorem exec_controlPacketSubmit_peer {data : Bytes} {peerInflight : Nat} (taken : s.drops (.forward (fieldAt data 0 2)
      (fieldAt data 0x0A 1) (packetParts data).params (data.drop (packetParts data).base)) = false)
    (new : getKey cid s.corr.answered = none) :
    exec (.controlPacketSubmit 65536 cid data peerInflight) s = .next (acceptForward cid (fieldAt data 0 2) (fieldAt data 0x0A 1)
      (packetParts data).params (data.drop (packetParts data).base) (tallyAdd 0x0D 1 1 s)) :=
  onMessage_next taken new

/-- A reply that is ready is fetched, and discarded where it has no payload (R97, R534). -/
theorem exec_controlReplyFetch_ready {tag m : Nat} {r : Reply} (h : s.hq.controller cntlid = some c)
    (managed : s.hq.managed cntlid = some m) (there : s.cpi.replyOf (s.cpi.keeperOf (.nvme cntlid) tag) tag = some r)
    (ready : r.held = false) :
    exec (.controlReplyFetch cntlid cid tag) s = .next (adminDone cntlid cid nvmeOk 0 (r.header ++ r.params)
      (tallyAdd 0x02 2 1 { adminFetched cntlid s with
        cpi := if r.size = 0 then dropReply (s.cpi.keeperOf (.nvme cntlid) tag) tag s.cpi else s.cpi })) := by
  refine (managedOnly_next h managed : execControlReplyFetch cntlid cid tag s = _).trans ?_
  rw [adminFetched_cpi]
  dsimp only
  rw [there]
  dsimp only
  rw [if_neg (by simp [ready])]

/-- Bytes of a payload that its verified segments reach are fetched (R97, R126, R534). -/
theorem exec_controlPayloadFetch_ready {tag offset length m : Nat} {r : Reply} (h : s.hq.controller cntlid = some c)
    (managed : s.hq.managed cntlid = some m) (there : s.cpi.replyOf (s.cpi.keeperOf (.nvme cntlid) tag) tag = some r)
    (ready : r.held = false) (short : length ≤ 4194304) (reached : min r.size (offset + length) ≤ (s.replyText r).length) :
    exec (.controlPayloadFetch cntlid cid tag offset length) s = .next (adminDone cntlid cid nvmeOk 0
      (slice (s.replyText r) offset length) { adminFetched cntlid s with
        cpi := noteFetched (s.cpi.keeperOf (.nvme cntlid) tag) tag (offset + (slice (s.replyText r) offset length).length) s.cpi }) := by
  refine (managedOnly_next h managed : execControlPayloadFetch cntlid cid tag offset length s = _).trans ?_
  rw [adminFetched_cpi]
  dsimp only
  rw [there]
  dsimp only
  rw [adminFetched_replyText, if_neg (by simp [ready, short]), if_neg (by omega)]

end

/-! ### Power states (R122 to R125) -/

section
variable {cntlid cid : Nat} {s : State}

/-- A power state is entered; the last operational one is remembered (R124). -/
theorem toPs_hq (n : Nat) (s : State) : (toPs n s).hq = { s.hq with ps := n, lastPs := if n = 3 then s.hq.ps else n } := by
  rw [toPs, tallyAdd_hq, event_hq]

theorem toPs_out (n : Nat) (s : State) : (toPs n s).out = s.out := by rw [toPs, tallyAdd_out, event_out]

theorem toPs_handingOver (n : Nat) (s : State) : (toPs n s).handingOver = s.handingOver := by
  rw [toPs, State.handingOver, tallyAdd_trust, event_trust, tallyAdd_tt, event_tt]
  rfl

/-- A command that waited for a power state completes with its queue's SQHD as it stands. -/
theorem adminDone_waited {dw0 : Nat} {t : State} (queues : t.hq.queues = s.hq.queues) (out : t.out = s.out)
    (free : t.handingOver = false) : (adminDone cntlid cid nvmeOk dw0 [] t).hq = t.hq ∧
      (adminDone cntlid cid nvmeOk dw0 [] t).out =
        s.out ++ [.completion cntlid 0 cid 0 0 false dw0 (((s.hq.queue cntlid 0).map (fun q => q.sqhd)).getD 0) []] := by
  rw [adminDone_sends free]
  refine ⟨rfl, ?_⟩
  rw [emit, out, State.completionOf, Hq.queue, queues]
  rfl

/-- A change among operational states takes effect at the bell after its Set Features (R122). -/
theorem exec_powerStateChange {n at_ : Nat} {rest : List (Nat × (Nat × (Nat × Nat)))}
    (next : s.hq.psNext = (n, (cntlid, (cid, at_))) :: rest) (due : at_ < s.tt.now) (awake : s.hq.ps ≠ 3) (other : s.hq.ps ≠ n) :
    exec .powerStateChange s =
      .next (adminDone cntlid cid nvmeOk n [] (toPs n { s with hq := { s.hq with psNext := rest } })) := by
  change execPowerStateChange s = _
  unfold execPowerStateChange
  rw [next]
  dsimp only
  rw [whenDue_pos due, if_neg awake, if_neg other]

/-- A quiet head whose exact counters are durable is in PS3 (R123, R125). -/
theorem exec_ps3EntryComplete {start e : Nat} (entry : s.hq.ps3 = some (start, (cntlid, (cid, some e)))) (quiet : s.quiet = true)
    (durable : e ≤ s.ftl.durable) :
    exec .ps3EntryComplete s =
      .next (adminDone cntlid cid nvmeOk 3 [] (toPs 3 { s with hq := { s.hq with ps3 := none, ps3Exit := none } })) := by
  change execPs3EntryComplete s = _
  unfold execPs3EntryComplete
  rw [entry]
  exact whenDue_pos ⟨quiet, durable⟩

/-- An entry that has not finished in 100 ms is abandoned (R123). -/
theorem exec_ps3EntryAbandon {start : Nat} {e : Option Nat} (entry : s.hq.ps3 = some (start, (cntlid, (cid, e))))
    (late : start + msBells 100 ≤ s.tt.now) :
    exec .ps3EntryAbandon s = .next (adminDone cntlid cid nvmeOk s.hq.ps [] { s with hq := { s.hq with ps3 := none } }) := by
  change execPs3EntryAbandon s = _
  unfold execPs3EntryAbandon
  rw [entry]
  exact whenDue_pos late

/-- 2 ms after its start an exit is in the last operational state, its islands powered (R124, R125). -/
theorem exec_ps3Exit_ends {start : Nat} (asleep : s.hq.ps = 3) (exits : s.hq.ps3Exit = some start)
    (due : start + msBells 2 ≤ s.tt.now) :
    exec .ps3Exit s = .next (domainBell (toPs s.hq.lastPs { s with hq := { s.hq with ps3Exit := none } })) := by
  refine (whenDue_pos asleep : execPs3Exit s = _).trans ?_
  rw [exits]
  dsimp only
  rw [if_pos due]

/-- Work that needs a gated island starts the exit (R124). -/
theorem exec_ps3Exit_starts (asleep : s.hq.ps = 3) (none_ : s.hq.ps3Exit = none) :
    exec .ps3Exit s = .next { s with hq := { s.hq with ps3Exit := some s.tt.now } } := by
  refine (whenDue_pos asleep : execPs3Exit s = _).trans ?_
  rw [none_]

end

/-! ### Moves of groups (R119, R290) -/

/-- At its boundary an idle group's move goes to the peer, once (R119, R290). -/
theorem exec_anaOwnershipMove {group : Nat} {m : Nat × (Nat × Nat)} {s : State}
    (moving : s.hq.moving.find? (fun m => m.1 == group) = some m) (boundary : m.2.2 ≤ s.epoch) (idle : s.groupBusy group = false)
    (owns : s.ownsGroup group = true)
    (unsent : s.corr.unanswered.all (fun x => match x.body with | .anaMove g .. => g != group | _ => true) = true)
    (paired : s.paired = true) :
    exec (.anaOwnershipMove group) s = .next (send (s.moveMessage m) s) := by
  change execAnaOwnershipMove group s = _
  unfold execAnaOwnershipMove
  rw [moving]
  refine whenDue_pos ⟨boundary, idle, owns, ?_, paired⟩
  rw [List.any_eq_false]
  intro x waits
  have other := List.all_eq_true.mp unsent x waits
  revert other
  cases x.body <;> simp

/-- Settles O31: each command takes the branch of its premises; a completion is read off the queues that it leaves as they were, and a
power state off the block that entering it leaves. -/
theorem fabricsAndPowerStateCommands : Obligations.FabricsAndPowerStateCommands := by
  unfold Obligations.FabricsAndPowerStateCommands
  refine ⟨?connectAdmin, ?connectIo, ?propertyGet, ?propertySet, ?reset, ?disconnect, ?poll, ?submit, ?forwarded, ?replyFetch,
    ?payloadFetch, ?stateChange, ?stateChangeSent, ?ps3Entry, ?ps3Abandon, ?exitEnds, ?exitStarts, ?move⟩
  case connectAdmin =>
    intro port cntlid cid size kato hostNqn subNqn hostId n s service known named subsystem allowed names entries low high numbers
    refine .of (execFabricsConnect_led port cntlid 0 cid size kato hostNqn subNqn hostId (.refl _ s) rfl)
      ⟨_, exec_fabricsConnect_admin service known named subsystem allowed names entries low high numbers rfl, ?_, ?_, ?_, ?_⟩
    · exact congrArg Hq.controllers (bindHost_hq ..)
    · exact congrArg Hq.queues (bindHost_hq ..)
    · exact congrArg Hq.nextCntlid (bindHost_hq ..)
    · exact ⟨_, congrArg (· ++ _) (bindHost_out ..)⟩
  case connectIo =>
    exact fun port cntlid qid cid size kato hostNqn subNqn hostId c s service known io h ready granted entries new same room =>
      .of (execFabricsConnect_led port cntlid qid cid size kato hostNqn subNqn hostId (.refl _ s) rfl)
        ⟨_, exec_fabricsConnect_io service known io h ready granted entries new same room, rfl, _, rfl⟩
  case propertyGet =>
    exact fun cntlid cid off c v s h known free =>
      completes_fetched (execPropertyGet_led cntlid cid off (.refl _ s) rfl) (exec_propertyGet h known) rfl
        ((adminFetched_handingOver ..).trans free) (congrArg (· ++ _) (adminFetched_out ..))
  case propertySet =>
    exact fun cntlid cid value c s h off free =>
      completes_fetched (execPropertySet_led cntlid cid 0x14 value (.refl _ s) rfl) (exec_propertySet_disabled h off) rfl
        ((adminFetched_handingOver ..).trans free) ⟨rfl, congrArg (· ++ _) (adminFetched_out ..)⟩
  case reset => exact fun _ _ _ _ _ => exec_propertySet_reset
  case disconnect => exact fun _ _ _ _ => exec_disconnect
  case poll =>
    exact fun cntlid cid tag c m r s h managed there ready free =>
      completes_fetched (execControlReplyPoll_led cntlid cid tag (.refl _ s) rfl)
        (exec_controlReplyPoll_ready h managed there ready) rfl ((adminFetched_handingOver ..).trans free)
        (congrArg (· ++ _) (adminFetched_out ..))
  case submit => exact fun _ _ _ _ _ _ _ => exec_controlPacketSubmit_host
  case forwarded =>
    exact fun cid data peerInflight s taken new => .of (execControlPacketSubmit_led 65536 cid data peerInflight (.refl _ s) rfl)
      ⟨_, exec_controlPacketSubmit_peer taken new, rfl⟩
  case replyFetch =>
    exact fun cntlid cid tag c m r s h managed there ready free =>
      completes_fetched (execControlReplyFetch_led cntlid cid tag (.refl _ s) rfl)
        (exec_controlReplyFetch_ready h managed there ready) rfl ((adminFetched_handingOver ..).trans free)
        ⟨congrArg (· ++ _) (adminFetched_out ..), fun bare => if_pos bare, fun loaded => if_neg loaded⟩
  case payloadFetch =>
    exact fun cntlid cid tag offset length c m r s h managed there ready short reached free =>
      completes_fetched (execControlPayloadFetch_led cntlid cid tag offset length (.refl _ s) rfl)
        (exec_controlPayloadFetch_ready h managed there ready short reached) rfl ((adminFetched_handingOver ..).trans free)
        (congrArg (· ++ _) (adminFetched_out ..))
  case stateChange => exact fun _ _ _ _ _ _ => exec_powerStateChange
  case stateChangeSent =>
    intro n cntlid cid at_ rest s next due awake other free
    refine .of (execPowerStateChange_led (.refl _ s) rfl) ⟨_, exec_powerStateChange next due awake other, ?_⟩
    obtain ⟨hq, out⟩ := adminDone_waited (s := s) (cntlid := cntlid) (cid := cid) (dw0 := n)
      (t := toPs n { s with hq := { s.hq with psNext := rest } }) (by rw [toPs_hq]) (toPs_out ..)
      ((toPs_handingOver ..).trans free)
    rw [hq, out, toPs_hq]
    exact ⟨rfl, rfl, fun operational => if_neg operational, rfl⟩
  case ps3Entry =>
    intro start cntlid cid e s entry quiet durable free
    refine .of (execPs3EntryComplete_led (.refl _ s) rfl) ⟨_, exec_ps3EntryComplete entry quiet durable, ?_⟩
    obtain ⟨hq, out⟩ := adminDone_waited (s := s) (cntlid := cntlid) (cid := cid) (dw0 := 3)
      (t := toPs 3 { s with hq := { s.hq with ps3 := none, ps3Exit := none } }) (by rw [toPs_hq]) (toPs_out ..)
      ((toPs_handingOver ..).trans free)
    rw [hq, out, toPs_hq]
    exact ⟨rfl, rfl, rfl, rfl, rfl⟩
  case ps3Abandon =>
    intro start cntlid cid e s entry late free
    refine .of (execPs3EntryAbandon_led (.refl _ s) rfl) ⟨_, exec_ps3EntryAbandon entry late, ?_⟩
    obtain ⟨hq, out⟩ := adminDone_waited (s := s) (cntlid := cntlid) (cid := cid) (dw0 := s.hq.ps)
      (t := { s with hq := { s.hq with ps3 := none } }) rfl rfl free
    rw [hq, out]
    exact ⟨rfl, rfl, rfl⟩
  case exitEnds =>
    intro start s asleep exits due
    refine .of (execPs3Exit_led (.refl _ s) rfl) ⟨_, exec_ps3Exit_ends asleep exits due, ?_⟩
    rw [domainBell_hq, toPs_hq]
    exact ⟨rfl, rfl⟩
  case exitStarts =>
    exact fun s asleep none_ => .of (execPs3Exit_led (.refl _ s) rfl) ⟨_, exec_ps3Exit_starts asleep none_, asleep, rfl⟩
  case move => exact fun _ _ _ => exec_anaOwnershipMove

end Sys2Proof.Machine

namespace Sys2Proof.Machine

/-! ### System packets (R87 to R89, R96, R102, R146 to R150, R467, R548, R610) -/

section
variable {b : Binding} {tag : Nat} {p : Packet} {s : State}

/-- The mode of a host port island changes through its reset (R87). -/
theorem exec_sysPortMode (h : s.cpi.packet b tag 0x0102 = some p) (free : s.otherReset (5 + p.param 0 1) = false) :
    exec (.sysPortMode b tag) s = .next (changed p [] (resetPorts (p.param 0 1)
      { s with hq := { s.hq with modes := setAt (p.param 0 1) (p.param 1 1) s.hq.modes } })) := by
  refine (onPacket_next h : execSysPortMode b tag s = _).trans ?_
  rw [if_neg (by simp [free])]

/-- One island at a time (R87). -/
theorem exec_sysPortMode_busy (h : s.cpi.packet b tag 0x0102 = some p) (busy : s.otherReset (5 + p.param 0 1) = true) :
    exec (.sysPortMode b tag) s = .next (refuse p .objectBusy noDetail s) := by
  refine (onPacket_next h : execSysPortMode b tag s = _).trans ?_
  rw [if_pos busy]

/-- A host NQN is allowed to a subsystem, with its class and weight, in place of what stood of it there (R88, R96, R100). -/
theorem exec_sysBinding_allow {peer : PeerAnswer} (h : s.cpi.packet b tag 0x0103 = some p) (host : p.param 0 1 = 1)
    (add : p.param 1 1 = 1) (agrees : s.paired = true → peer.status = .ok) (awaited : s.awaitsAlone = false) :
    exec (.sysBinding b tag peer) s = .next (changed p [] (rebindHost (nqnOf (slice p.params 8 256)) (p.param 4 2)
      { pairBase p s with hq := { s.hq with
        hosts := s.hq.hosts.filter (fun h => !(h.nqn == nqnOf (slice p.params 8 256) && h.subsystem == p.param 4 2)) ++
          [⟨nqnOf (slice p.params 8 256), p.param 4 2, p.param 2 1, p.param 3 1⟩] } })) := by
  refine (onPacket_next h : execSysBinding b tag peer s = _).trans (congrArg _ ?_)
  rw [pairWide_ok agrees awaited, if_pos host]
  dsimp only
  rw [if_pos add, pairBase_hq]

/-- A subsystem with a new number is created (R89). -/
theorem exec_sysSubsystem_create {peer : PeerAnswer} (h : s.cpi.packet b tag 0x0104 = some p) (create : p.param 2 1 = 1)
    (new : s.hq.subsystems.any (fun x => x.number == p.param 0 2) = false) (room : s.hq.subsystems.length < 1024)
    (agrees : s.paired = true → peer.status = .ok) (awaited : s.awaitsAlone = false) :
    exec (.sysSubsystem b tag peer) s = .next (changed p [] { pairBase p s with
      hq := { s.hq with subsystems := s.hq.subsystems ++ [⟨p.param 0 2, nqnOf (slice p.params 8 256)⟩] } }) := by
  refine (onPacket_next h : execSysSubsystem b tag peer s = _).trans (congrArg _ ?_)
  rw [if_pos create, if_neg (by simpa [new] using room), pairWide_ok agrees awaited, pairBase_hq]

/-- The Data-In timeout of both heads (R102). -/
theorem exec_sysDataTimeout {peer : PeerAnswer} (h : s.cpi.packet b tag 0x0105 = some p)
    (agrees : s.paired = true → peer.status = .ok) (awaited : s.awaitsAlone = false) :
    exec (.sysDataTimeout b tag peer) s = .next (changed p [] { pairBase p s with hq := { s.hq with timeout := p.param 0 2 } }) := by
  refine (onPacket_next h : execSysDataTimeout b tag peer s = _).trans (congrArg _ ?_)
  rw [pairWide_ok agrees awaited, pairBase_hq]

/-! ### The capacitor bank -/

/-- A measurement on request starts where none runs, 60 s after the last request, with sound pins and the right polarity (R148,
R150). -/
theorem exec_sysHoldupMeasure_begins {sense : Int} (h : s.cpi.packet b tag 0x0107 = some p) (idle : s.cpi.holder holdupLoad = none)
    (rested : s.stg.lastAsk.any (fun t => s.tt.now < t + secBells 60) = false) (load : s.pins.faulty 259 = false)
    (charger : s.pins.faulty 260 = false) (polarity : -500 ≤ sense) :
    exec (.sysHoldupMeasure b tag sense) s = .next (beginMeasure (.operator b tag) 0x0107 p.cls p.tag (some b) s) := by
  refine (onPacket_next h : execSysHoldupMeasure b tag sense s = _).trans ?_
  rw [idle]
  dsimp only
  rw [if_neg (by simp [rested]), if_neg (by simp [load, charger]), if_neg (by omega)]

/-- A second request within 60 s is refused (R148). -/
theorem exec_sysHoldupMeasure_limited {sense : Int} (h : s.cpi.packet b tag 0x0107 = some p) (idle : s.cpi.holder holdupLoad = none)
    (soon : s.stg.lastAsk.any (fun t => s.tt.now < t + secBells 60) = true) :
    exec (.sysHoldupMeasure b tag sense) s = .next (refuse p .rateLimited noDetail s) := by
  refine (onPacket_next h : execSysHoldupMeasure b tag sense s = _).trans ?_
  rw [idle]
  dsimp only
  rw [if_pos soon]

/-- A measurement of a bank that is open is invalid and answers the packet that asked for it (R149). -/
theorem exec_holdupMeasureComplete_open {va v5 v20 : List Int} {v10 : Int} (runs : s.stg.measuring.isSome = true)
    (load : s.stg.testLoad = true) (ended : s.stg.stepAt + msBells 20 ≤ s.tt.now) :
    exec (.holdupMeasureComplete va v10 v5 v20 true) s =
      .next (answerMeasure s.stg.measuring (invalidMeasure 3 (endMeasure s))) := by
  refine (whenDue_pos ⟨runs, load, ended⟩ : execHoldupMeasureComplete va v10 v5 v20 true s = _).trans (congrArg _ ?_)
  dsimp only
  rw [if_pos (.inl rfl)]

/-! ### Island resets -/

/-- A reset of an island changes nothing of the Corridor's state but through its counters (R590, R610). -/
theorem islandReset_corr (island : Nat) (s : State) : (islandReset island s).corr = s.corr := by
  unfold islandReset
  split <;> simp

/-- The Corridor's island trains again after its reset (R467). -/
theorem exec_sysIslandReset_corridor (h : s.cpi.packet b tag 0x0109 = some p) (corridor : p.param 0 1 = 25) :
    exec (.sysIslandReset b tag) s = .next (changed p [] (islandReset 25 { s with corr := { s.corr with
      link := 1, lanes := 0, reversed := false, inverted := 0, retrains := min (s.corr.retrains + 1) 65535 } })) := by
  refine (onPacket_next h : execSysIslandReset b tag s = _).trans ?_
  rw [if_pos corridor]

/-- A host port island is reset while no other is (R610). -/
theorem exec_sysIslandReset_port (h : s.cpi.packet b tag 0x0109 = some p) (port : p.param 0 1 ≠ 25)
    (free : s.otherReset (p.param 0 1) = false) :
    exec (.sysIslandReset b tag) s = .next (changed p [] (resetPorts (p.param 0 1 - 5) s)) := by
  refine (onPacket_next h : execSysIslandReset b tag s = _).trans ?_
  rw [if_neg port, if_neg (by simp [free])]

end

/-- Settles O47: each packet's row answers what it asks for; what it leaves of a block is read off its own change, which the answer
keeps. -/
theorem systemPacketCommands : Obligations.SystemPacketCommands := by
  unfold Obligations.SystemPacketCommands
  refine ⟨?info, ?portMode, ?portBusy, ?binding, ?subsystem, ?timeout, ?holdupCfg, ?measure, ?limited, ?scheduled, ?complete, ?retry,
    ?claims, ?corridorReset, ?portReset⟩
  case info =>
    exact fun b tag p s h => .of (execSysInfo_led b tag (.refl _ s) rfl)
      ⟨_, (onPacket_next h : execSysInfo b tag s = _), answered_replied ..⟩
  case portMode =>
    exact fun b tag p s h free => .of (execSysPortMode_led b tag (.refl _ s) rfl)
      ⟨_, exec_sysPortMode h free, changed_replied .., changed_hq ..⟩
  case portBusy =>
    exact fun b tag p s h busy => .of (execSysPortMode_led b tag (.refl _ s) rfl)
      ⟨_, exec_sysPortMode_busy h busy, refuse_replied .., refuse_hq ..⟩
  case binding =>
    exact fun b tag peer p s h host add agrees awaited => .of (execSysBinding_led b tag peer (.refl _ s) rfl)
      ⟨_, exec_sysBinding_allow h host add agrees awaited, changed_replied ..,
        (congrArg Hq.hosts (changed_hq ..)).trans (rebindHost_hosts ..)⟩
  case subsystem =>
    exact fun b tag peer p s h create new room agrees awaited => .of (execSysSubsystem_led b tag peer (.refl _ s) rfl)
      ⟨_, exec_sysSubsystem_create h create new room agrees awaited, changed_replied .., by rw [changed_hq]⟩
  case timeout =>
    exact fun b tag peer p s h agrees awaited => .of (execSysDataTimeout_led b tag peer (.refl _ s) rfl)
      ⟨_, exec_sysDataTimeout h agrees awaited, changed_replied .., by rw [changed_hq]⟩
  case holdupCfg =>
    refine fun b tag p s h => .of (execSysHoldupCfg_led b tag (.refl _ s) rfl)
      ⟨_, (onPacket_next h : execSysHoldupCfg b tag s = _), changed_replied .., ?_⟩
    rw [changed_stg]
    exact ⟨rfl, rfl, rfl, rfl, rfl, rfl, rfl⟩
  case measure => exact fun _ _ _ _ _ => exec_sysHoldupMeasure_begins
  case limited =>
    exact fun b tag sense p s h idle soon => .of (execSysHoldupMeasure_led b tag sense (.refl _ s) rfl)
      ⟨_, exec_sysHoldupMeasure_limited h idle soon, refuse_replied .., refuse_stg ..⟩
  case scheduled => exact fun sense s may set day late => whenDue_pos ⟨may, set, .inr ⟨day, late⟩⟩
  case complete => exact fun _ _ _ _ _ => exec_holdupMeasureComplete_open
  case retry => exact fun sense t s may set at_ due => whenDue_pos ⟨may, set, t, at_, due⟩
  case claims =>
    exact fun b tag p s h => .of (execSysClaims_led b tag (.refl _ s) rfl)
      ⟨_, (onPacket_next h : execSysClaims b tag s = _), answered_replied .., answered_hq ..⟩
  case corridorReset =>
    refine fun b tag p s h corridor => .of (execSysIslandReset_led b tag (.refl _ s) rfl)
      ⟨_, exec_sysIslandReset_corridor h corridor, changed_replied .., ?_⟩
    rw [changed_corr_link, changed_corr_lanes, changed_corr_retrains, islandReset_corr]
    exact ⟨rfl, rfl, rfl⟩
  case portReset =>
    exact fun b tag p s h port free => .of (execSysIslandReset_led b tag (.refl _ s) rfl)
      ⟨_, exec_sysIslandReset_port h port free, changed_replied .., changed_hq ..⟩

end Sys2Proof.Machine

namespace Sys2Proof.Machine

/-! ### Volumes (Table 15-8, R434, R549) -/

section
variable {b : Binding} {tag : Nat} {peer : PeerAnswer} {p : Packet} {r : Root} {s : State}

/-- A volume whose checks pass is created on both heads, with its record (R549). -/
theorem exec_volCreate {l : Nat} {u : State} (h : s.cpi.packet b tag 0x0301 = some p) (pool : s.pool.isSome = true)
    (new : s.ftl.nsidUsed (p.param 0 4) = false) (named : s.badNamespace (p.param 0 4) (p.param 4 2) (p.param 6 2) 0 4 6 = none)
    (domain : (s.ftl.domainRec (p.param 8 2)).isSome = true) (layout : s.layoutFor (p.param 0x0A 1) = some l)
    (service : s.tt.active.any (fun i => i.serviceCount ≤ p.param 0x0B 1) = false) (low : 1 ≤ p.param 0x10 8)
    (high : p.param 0x10 8 ≤ 2 ^ 40) (room : s.ftl.volumes < 65536) (agrees : s.paired = true → peer.status = .ok)
    (base : u = pairBase p s)
    (made : r = { Root.blank u.ftl.nextRoot .volume with
      nsid := p.param 0 4, subsystem := p.param 4 2, ana := p.param 6 2, domain := p.param 8 2, layout := l
      service := p.param 0x0B 1, format := flagBit (p.param 0x0C 1 != 0), piType := p.param 0x0C 1, size := p.param 0x10 8
      quota := p.param 0x18 8, created := u.clockUs }) (awaited : s.awaitsAlone = false) :
    exec (.volCreate b tag peer) s = .next (changed p (fields [(4, r.id), (4, 0)])
      (namespaceChanged (p.param 0 4) r.subsystem (volumeRecord r 1 u.epoch (addRoot r u)))) := by
  subst base
  subst made
  refine (onPacket_next h : execVolCreate b tag peer s = _).trans (congrArg _ ?_)
  rw [if_neg (by simp [← Option.not_isSome, pool]), if_neg (by simp [new]), named, layout]
  dsimp only
  rw [if_neg (by simp [← Option.not_isSome, domain]), if_neg (by simp [service]), if_neg (by omega), if_neg (by omega),
    pairWide_ok agrees awaited]

/-- An NSID that some namespace has is not given again (R549). -/
theorem exec_volCreate_used (h : s.cpi.packet b tag 0x0301 = some p) (pool : s.pool.isSome = true) (named : p.param 0 4 ≠ 0)
    (used : s.ftl.nsidUsed (p.param 0 4) = true) :
    exec (.volCreate b tag peer) s = .next (refuse p .nsidInUse (detailOf [(4, p.param 0 4)]) s) := by
  refine (onPacket_next h : execVolCreate b tag peer s = _).trans (congrArg _ ?_)
  rw [if_neg (by simp [← Option.not_isSome, pool]), if_pos ⟨named, used⟩]

/-- A volume without a namespace is deleted (R434). -/
theorem exec_volDelete_plain (h : s.cpi.packet b tag 0x0302 = some p) (there : s.ftl.rootOf (p.param 0 4) = some r)
    (volume : r.isVolume = true) (agrees : s.paired = true → peer.status = .ok) (plain : r.nsid = 0)
    (awaited : s.awaitsAlone = false) :
    exec (.volDelete b tag peer) s = .next (changed p [] (deleteRoot r (dropVolume r (pairBase p s)))) := by
  refine (onPacket_next h : execVolDelete b tag peer s = _).trans (congrArg _ ?_)
  rw [there]
  dsimp only
  rw [if_neg (not_not_intro volume), pairWide_ok agrees awaited, if_pos plain]

/-- A root that is neither a volume nor a clone has no size to set. -/
theorem exec_volResize_kind (h : s.cpi.packet b tag 0x0303 = some p) (there : s.ftl.rootOf (p.param 0 4) = some r)
    (volume : r.kind ≠ .volume) (clone : r.kind ≠ .clone) : exec (.volResize b tag peer) s = .next (wrongKind p r s) := by
  refine (onPacket_next h : execVolResize b tag peer s = _).trans (congrArg _ ?_)
  rw [there]
  dsimp only
  rw [if_pos ⟨volume, clone⟩]

/-- A smaller size unmaps the grains beyond it, in the map and in staging, and the record has the size (R549). -/
theorem exec_volResize {q : Root} {u w : State} (h : s.cpi.packet b tag 0x0303 = some p)
    (there : s.ftl.rootOf (p.param 0 4) = some r) (volume : r.kind = .volume) (low : 1 ≤ p.param 8 8) (high : p.param 8 8 ≤ 2 ^ 40)
    (agrees : s.paired = true → peer.status = .ok)
    (unmapped : u = (r.leaves.flatMap (fun l => (l.2.entries.map (fun e => 504 * l.1 + e.1)).filter (p.param 8 8 ≤ ·))).foldl
      (fun t g => setMap r.id g none 0 t) (pairBase p s))
    (unstaged : w = { u with stg := { u.stg with
      versions := u.stg.versions.filter (fun v => !(v.vol == r.key && p.param 8 8 ≤ v.grain))
      entries := u.stg.entries.filter (fun e => !(e.vol == r.key && p.param 8 8 ≤ e.grain)) } })
    (kept : w.ftl.root r.id = some q) (awaited : s.awaitsAlone = false) :
    exec (.volResize b tag peer) s = .next (changed p [] (namespaceChanged r.nsid r.subsystem
      (volumeRecord { q with size := p.param 8 8 } 3 w.epoch (setRoot { q with size := p.param 8 8 } w)))) := by
  refine (onPacket_next h : execVolResize b tag peer s = _).trans (congrArg _ ?_)
  rw [there]
  dsimp only
  have root : u.ftl.root r.id = some q := by rw [← kept, unstaged]
  rw [if_neg (fun other => other.1 volume), if_neg (by omega), pairWide_ok agrees awaited, ← unmapped, ← unstaged, root]

/-- The service class and the quota that VOL_SET names wait for the next bell (Table 15-8). -/
theorem exec_volSet (h : s.cpi.packet b tag 0x0304 = some p) (there : s.ftl.rootOf (p.param 0 4) = some r)
    (volume : r.isVolume = true) (service : s.tt.active.any (fun i => i.serviceCount ≤ p.param 4 1) = false)
    (agrees : s.paired = true → peer.status = .ok) (awaited : s.awaitsAlone = false) :
    exec (.volSet b tag peer) s =
      .next (changed p [] (setRoot { r with next := some (p.param 4 1, p.param 8 8) } (pairBase p s))) := by
  refine (onPacket_next h : execVolSet b tag peer s = _).trans (congrArg _ ?_)
  rw [there]
  dsimp only
  rw [if_neg (not_not_intro volume), if_neg (by simp [service]), pairWide_ok agrees awaited]

/-- Replacing a root reads and changes the roots alone. -/
theorem setRoot_roots_congr {t : State} (same : s.ftl = t.ftl) : (setRoot r s).ftl.roots = (setRoot r t).ftl.roots := by
  unfold setRoot
  rw [same]

/-- A root is told by its record (R549). -/
theorem exec_volQuery (h : s.cpi.packet b tag 0x0309 = some p) (there : s.ftl.rootOf (p.param 0 4) = some r) :
    exec (.volQuery b tag) s = .next (answered p (s.rootBytes r (s.treeRoot 1 r.id)) [] s) := by
  refine (onPacket_next h : execVolQuery b tag s = _).trans (congrArg _ ?_)
  rw [there]

theorem exec_volQuery_unknown (h : s.cpi.packet b tag 0x0309 = some p) (none_ : s.ftl.rootOf (p.param 0 4) = none) :
    exec (.volQuery b tag) s = .next (badParam p 0 s) := by
  refine (onPacket_next h : execVolQuery b tag s = _).trans (congrArg _ ?_)
  rw [none_]

/-! ### Groups (R119) -/

/-- A group of this head begins its move to the peer (R119). -/
theorem exec_anaMoveGroup_begins (h : s.cpi.packet b tag 0x0305 = some p) (owns : s.ownsGroup (p.param 0 2) = true)
    (away : p.param 2 1 ≠ s.sys.slot) (paired : s.paired = true) :
    exec (.anaMoveGroup b tag) s = .next (beginMove (p.param 0 2) (p.param 2 1) s) := by
  refine (onPacket_next h : execAnaMoveGroup b tag s = _).trans (congrArg _ ?_)
  rw [if_neg (by simp [owns, away]), if_neg (not_not_intro paired), if_pos owns]

/-- A group that is where it shall be is answered at once (R119). -/
theorem exec_anaMoveGroup_there (h : s.cpi.packet b tag 0x0305 = some p) (owns : s.ownsGroup (p.param 0 2) = true)
    (here : p.param 2 1 = s.sys.slot) : exec (.anaMoveGroup b tag) s = .next (changed p [] s) := by
  refine (onPacket_next h : execAnaMoveGroup b tag s = _).trans (congrArg _ ?_)
  rw [if_pos (by simp [owns, here])]

/-! ### Domains (R166, R194, R246, R456) -/

/-- A domain with a new number and no adoption is created on both heads (R456). -/
theorem exec_domainCreate (h : s.cpi.packet b tag 0x0306 = some p) (pool : s.pool.isSome = true) (number : p.param 0 2 < 4096)
    (room : (s.ftl.roots.filter (fun r => r.kind == .domain)).length < 4096) (new : s.ftl.domainRec (p.param 0 2) = none)
    (free : s.repl.adoptions.any (fun a => a.domain == p.param 0 2) = false) (own : bitAt 1 (p.param 2 2) = false)
    (agrees : s.paired = true → peer.status = .ok) (awaited : s.awaitsAlone = false) :
    exec (.domainCreate b tag peer) s =
      .next (changed p [] (createDomain (p.param 0 2) (bitAt 0 (p.param 2 2)) none (pairBase p s))) := by
  refine (onPacket_next h : execDomainCreate b tag peer s = _).trans (congrArg _ ?_)
  rw [if_neg (by simp [← Option.not_isSome, pool]), if_neg (by omega), if_neg (by simp [new, free]), if_neg (by simp [own]),
    pairWide_ok agrees awaited]

/-- There are 4,096 domains (R549). -/
theorem exec_domainCreate_limit (h : s.cpi.packet b tag 0x0306 = some p) (pool : s.pool.isSome = true) (number : 4096 ≤ p.param 0 2) :
    exec (.domainCreate b tag peer) s = .next (refuse p .domainLimit noDetail s) := by
  refine (onPacket_next h : execDomainCreate b tag peer s = _).trans (congrArg _ ?_)
  rw [if_neg (by simp [← Option.not_isSome, pool]), if_pos (.inl number)]

/-- An empty domain is deleted: its index records and its locker go, then its record (R166, R246). -/
theorem exec_domainDelete {q : Root} {u w : State} (h : s.cpi.packet b tag 0x0307 = some p)
    (there : s.ftl.domainRec (p.param 0 2) = some q)
    (empty : s.ftl.roots.filter (fun r => r.kind != .domain && r.domain == p.param 0 2) = [])
    (agrees : s.paired = true → peer.status = .ok) (base : u = pairBase p s)
    (cleared : w = changeLocker (p.param 0 2) .unbound 0 (dropDomainIndex (p.param 0 2) (journal (.volume q.id 2 u.epoch 0 0 0) u)))
    (awaited : s.awaitsAlone = false) :
    exec (.domainDelete b tag peer) s = .next (changed p [] { w with ftl := { w.ftl with
      roots := w.ftl.roots.filter (fun r => !(r.kind == .domain && r.domain == p.param 0 2)) } }) := by
  subst base
  subst cleared
  refine (onPacket_next h : execDomainDelete b tag peer s = _).trans (congrArg _ ?_)
  dsimp only
  rw [there, empty]
  dsimp only [List.filter_nil, List.head?_nil]
  rw [if_neg (not_not_intro rfl), pairWide_ok agrees awaited]

/-- Verify mode of a domain (R194). -/
theorem exec_domainVerify {q : Root} (h : s.cpi.packet b tag 0x0308 = some p) (there : s.ftl.domainRec (p.param 0 2) = some q)
    (agrees : s.paired = true → peer.status = .ok) (awaited : s.awaitsAlone = false) :
    exec (.domainVerify b tag peer) s = .next (changed p [] { pairBase p s with ftl := { s.ftl with
      roots := s.ftl.roots.map (fun r =>
        if r.kind == .domain && r.domain == p.param 0 2 then { r with verify := p.param 2 1 != 0 } else r) } }) := by
  refine (onPacket_next h : execDomainVerify b tag peer s = _).trans (congrArg _ ?_)
  rw [there]
  dsimp only
  rw [pairWide_ok agrees awaited, pairBase_ftl]

end

/-- Settles O49: each packet's row passes its checks under its premises and acts on the state both heads have agreed on; a refused
one leaves the translation as it is. -/
theorem volumeAndDomainCommands : Obligations.VolumeAndDomainCommands := by
  unfold Obligations.VolumeAndDomainCommands
  refine ⟨?create, ?createUsed, ?delete, ?resizeKind, ?resize, ?set, ?moveBegins, ?moveThere, ?domainCreate, ?domainLimit,
    ?domainDelete, ?domainVerify, ?query, ?queryUnknown⟩
  case create => exact fun _ _ _ _ _ _ _ _ => exec_volCreate
  case createUsed =>
    exact fun b tag peer p s h pool named used => .of (execVolCreate_led b tag peer (.refl _ s) rfl)
      ⟨_, exec_volCreate_used h pool named used, refuse_replied .., refuse_ftl ..⟩
  case delete => exact fun _ _ _ _ _ _ => exec_volDelete_plain
  case resizeKind =>
    exact fun b tag peer p r s h there volume clone => .of (execVolResize_led b tag peer (.refl _ s) rfl)
      ⟨_, exec_volResize_kind h there volume clone, refuse_replied .., refuse_ftl ..⟩
  case resize => exact fun _ _ _ _ _ _ _ _ _ => exec_volResize
  case set =>
    exact fun b tag peer p r s h there volume service agrees awaited => .of (execVolSet_led b tag peer (.refl _ s) rfl)
      ⟨_, exec_volSet h there volume service agrees awaited, changed_replied ..,
        by rw [changed_ftl]; exact setRoot_roots_congr (pairBase_ftl _)⟩
  case moveBegins => exact fun _ _ _ _ => exec_anaMoveGroup_begins
  case moveThere =>
    exact fun b tag p s h owns here => .of (execAnaMoveGroup_led b tag (.refl _ s) rfl)
      ⟨_, exec_anaMoveGroup_there h owns here, changed_replied .., changed_hq ..⟩
  case domainCreate => exact fun _ _ _ _ _ => exec_domainCreate
  case domainLimit =>
    exact fun b tag peer p s h pool number => .of (execDomainCreate_led b tag peer (.refl _ s) rfl)
      ⟨_, exec_domainCreate_limit h pool number, refuse_replied .., refuse_ftl ..⟩
  case domainDelete =>
    exact fun b tag peer p q u w s h there empty agrees base cleared awaited => .of (execDomainDelete_led b tag peer (.refl _ s) rfl)
      ⟨_, exec_domainDelete h there empty agrees base cleared awaited, changed_replied .., by rw [changed_ftl]⟩
  case domainVerify =>
    exact fun b tag peer p q s h there agrees awaited => .of (execDomainVerify_led b tag peer (.refl _ s) rfl)
      ⟨_, exec_domainVerify h there agrees awaited, changed_replied .., by rw [changed_ftl]⟩
  case query =>
    exact fun b tag p r s h there => .of (execVolQuery_led b tag (.refl _ s) rfl)
      ⟨_, exec_volQuery h there, answered_replied .., answered_ftl ..⟩
  case queryUnknown =>
    exact fun b tag p s h none_ => .of (execVolQuery_led b tag (.refl _ s) rfl)
      ⟨_, exec_volQuery_unknown h none_, refuse_replied .., refuse_ftl ..⟩

end Sys2Proof.Machine

namespace Sys2Proof.Machine

/-! ### The mirror of staging between the heads (R140, R143 to R145, R162, R491, R639) -/

section
variable {number volume seq : Nat} {x : Ctx} {m : Sent} {mark : CommitMark} {marks : List CommitMark} {s : State}

/-- The peer's blocks take their places here, and are acknowledged (R143). -/
theorem exec_mirrorData {count flags lba : Nat} {blocks pi : Bytes}
    (taken : s.drops (.mirrorData volume count flags seq lba blocks pi) = false) (new : getKey number s.corr.answered = none) :
    exec (.mirrorData number volume count flags seq lba blocks pi) s = .next (reply number (.mirrorAck number count)
      ((writeVersions volume seq (1 - s.sys.slot) lba count flags blocks pi).foldl (fun t v => addVersion v t)
        (tallyAdd 0x05 1 1 (tallyAdd 0x0D 1 1 s)))) := by
  refine (onMessage_next taken new : execMirrorData number volume count flags seq lba blocks pi s = _).trans ?_
  rw [tallyAdd_sys]

/-- The write that an acknowledged message belongs to goes on without waiting for it (R140). -/
theorem mirrorAcked_write (awaits : s.corr.awaiting number = some m)
    (its : s.hq.ctxs.find? (fun x => x.mirrors.contains number) = some x) :
    mirrorAcked number s = writeProgress { x with mirrors := x.mirrors.filter (· != number) } (settleNumber number s) := by
  have settled : (settleNumber number s).hq.ctxs.find? (fun x => x.mirrors.contains number) = some x := its
  simp only [mirrorAcked, awaits, settled]

/-- A COMMIT of a root that this head does not own is answered, and as the last of its write frees the context that stands for the write
(R103, R106, R140). -/
theorem exec_commit_last {u : State} (taken : s.drops (.commit mark) = false) (new : getKey number s.corr.answered = none)
    (other : (s.ftl.ofNsid mark.volume).any (fun r => s.ownsRoot r) = false) (free : s.syncWaits mark.volume mark.seq = false)
    (held : u = reply number (.commitAck number) (holdMark mark (tallyAdd 0x0D 1 1 s)))
    (last : u.stg.versions.any (fun v => v.vol == mark.volume && v.seq == mark.seq && !v.staged) = false) :
    exec (.commit number mark) s = .next (peerWriteDone mark.volume mark.seq u) := by
  refine (onMessage_next taken new : execCommit number mark s = _).trans (congrArg _ ?_)
  subst held
  simp only [tallyAdd_ftl, tallyAdd_ownsRoot, other, Bool.false_eq_true, if_false, tallyAdd_syncWaits, free, last]

/-- The answer to a COMMIT that no write waits for makes this head's own mark Held (R140). -/
theorem commitAcked_alone {u : State} (awaits : s.corr.awaiting number = some m) (body : m.body = .commit mark)
    (free : s.syncWaits mark.volume mark.seq = false) (held : u = wakeReads (holdMark mark (settleNumber number s)))
    (alone : u.hq.ctxs.find? (fun x => x.commits.contains number) = none) :
    commitAcked number s = u := by
  subst held
  simp only [commitAcked, awaits, body, free, Bool.false_eq_true, if_false, alone]

/-- The marks that the peer's image is known to hold (R162). -/
def notePeerMarks (marks : List CommitMark) (s : State) : State :=
  { s with stg := { s.stg with peerMarks := s.stg.peerMarks ++ marks } }

/-- Settling which writes exist changes staging alone. -/
theorem settleMarks_corr (s : State) : (settleMarks s).corr = s.corr := rfl

/-- At a start the marks are noted, and with the last list it is settled which writes exist (R162). -/
theorem exec_markList_start (taken : s.drops (.markList marks) = false) (new : getKey number s.corr.answered = none)
    (apart : s.pwr.stage ≠ .service) (alone : s.pwr.stage ≠ .joining) :
    exec (.markList number marks) s = .next (reply number (.mirrorAck number 0)
      (if marks.length < 127 then settleMarks (notePeerMarks marks (tallyAdd 0x0D 1 1 s))
       else notePeerMarks marks (tallyAdd 0x0D 1 1 s))) := by
  refine (onMessage_next taken new : execMarkList number marks s = _).trans ?_
  simp only [tallyAdd_pwr, apart, alone, or_self, if_false, decide_eq_true_eq, notePeerMarks]

/-- In service the marks of the blocks copied here are Held (R491). -/
theorem exec_markList_service {u : State} (taken : s.drops (.markList marks) = false) (new : getKey number s.corr.answered = none)
    (serves : s.pwr.stage = .service) (held : u = marks.foldl (fun t m => holdMark m t) (tallyAdd 0x0D 1 1 s)) :
    exec (.markList number marks) s = .next (reply number (.mirrorAck number 0) { u with corr := { u.corr with step := s.corr.step } }) := by
  refine (onMessage_next taken new : execMarkList number marks s = _).trans ?_
  subst held
  simp [serves]

/-- A write whose marks are all Held stays as it is; of any other the blocks go (R639). -/
theorem exec_withdraw (taken : s.drops (.withdraw volume seq) = false) (new : getKey number s.corr.answered = none) :
    exec (.withdraw number volume seq) s = .next (reply number (.mirrorAck number 0)
      (if s.stg.marks.any (fun m => m.volume == volume && m.seq == seq) &&
          !s.stg.versions.any (fun v => v.vol == volume && v.seq == seq && !v.staged) then tallyAdd 0x0D 1 1 s
       else peerWriteDone volume seq (dropWrite volume seq (tallyAdd 0x0D 1 1 s)))) := by
  refine (onMessage_next taken new : execWithdraw number volume seq s = _).trans ?_
  rw [tallyAdd_stg]

/-- After three resends without an answer the Corridor is at fault and trains again (R144). -/
theorem exec_messageResendTimeout_fault (awaits : s.corr.awaiting number = some m) (open_ : m.pending = false)
    (late : m.at_ + 4 ≤ s.tt.now) (sound : s.corr.fault = false) (thrice : 3 ≤ m.resends) :
    exec (.messageResendTimeout number) s = .next (event 0xA004 25 (argOf [(0, 1), (1, s.corr.lanes)])
      { s with corr := { s.corr with fault := true, link := 1, retrains := s.corr.retrains + 1 } }) := by
  change execMessageResendTimeout number s = _
  unfold execMessageResendTimeout
  rw [awaits]
  dsimp only
  rw [if_neg (by simp [open_, sound, late]), if_pos thrice]

/-- Before that the message goes out again with its number (R144). -/
theorem exec_messageResendTimeout_resend (awaits : s.corr.awaiting number = some m) (open_ : m.pending = false)
    (late : m.at_ + 4 ≤ s.tt.now) (sound : s.corr.fault = false) (few : m.resends < 3) :
    exec (.messageResendTimeout number) s = .next (tallyAdd 0x05 2 1 (transmit number m.body { s with corr := { s.corr with
      unanswered := s.corr.unanswered.map (fun x =>
        if x.number == number then { x with at_ := s.tt.now, resends := x.resends + 1 } else x) } })) := by
  change execMessageResendTimeout number s = _
  unfold execMessageResendTimeout
  rw [awaits]
  dsimp only
  rw [if_neg (by simp [open_, sound, late]), if_neg (by omega)]

end

/-- Settles O32: each message, once taken, has the effect of its row, which its premises choose; an answer leaves staging as the
row has left it. -/
theorem mirrorCommands : Obligations.MirrorCommands := by
  unfold Obligations.MirrorCommands
  refine ⟨?data, ?ack, ?commit, ?commitAck, ?release, ?credit, ?marksMore, ?marksLast, ?marksService, ?withdrawHeld, ?withdraw,
    ?resendFault, ?resend⟩
  case data => exact fun _ _ _ _ _ _ _ _ _ => exec_mirrorData
  case ack =>
    exact fun number held x m s taken awaits its =>
      (onWord_next taken : execMirrorAck number held s = _).trans (congrArg _ (mirrorAcked_write awaits its))
  case commit => exact fun _ _ _ _ => exec_commit_last
  case commitAck =>
    exact fun number m mark u s taken awaits body free held alone =>
      (onWord_next taken : execCommitAck number s = _).trans (congrArg _ (commitAcked_alone awaits body free held alone))
  case release => exact fun l s taken => (onWord_next taken : execRelease l s = _)
  case credit =>
    exact fun blocks term through s taken => .of (execCredit_led blocks term through (.refl _ s) rfl)
      ⟨_, (onWord_next taken : execCredit blocks term through s = _), rfl, rfl⟩
  case marksMore =>
    intro number marks s taken new apart alone more
    refine .of (execMarkList_led number marks (.refl _ s) rfl) ⟨_, exec_markList_start taken new apart alone, ?_⟩
    rw [if_neg (by omega), reply_stg, reply_answered]
    exact ⟨rfl, rfl⟩
  case marksLast =>
    intro number marks s taken new apart alone last
    refine .of (execMarkList_led number marks (.refl _ s) rfl) ⟨_, exec_markList_start taken new apart alone, ?_⟩
    rw [if_pos last, reply_stg, reply_answered, settleMarks_corr]
    exact ⟨rfl, rfl, rfl⟩
  case marksService => exact fun _ _ _ _ => exec_markList_service
  case withdrawHeld =>
    intro number volume seq s taken new held staged
    refine .of (execWithdraw_led number volume seq (.refl _ s) rfl) ⟨_, exec_withdraw taken new, ?_⟩
    rw [held, staged, if_pos (by decide), reply_stg, reply_answered]
    exact ⟨rfl, rfl⟩
  case withdraw =>
    intro number volume seq s taken new none_
    rw [exec_withdraw taken new, none_, if_neg (by simp)]
  case resendFault =>
    exact fun number m s awaits open_ late sound thrice => .of (execMessageResendTimeout_led number (.refl _ s) rfl)
      ⟨_, exec_messageResendTimeout_fault awaits open_ late sound thrice, by rw [event_corr], by rw [event_corr], by rw [event_corr]⟩
  case resend => exact fun _ _ _ => exec_messageResendTimeout_resend

end Sys2Proof.Machine

namespace Sys2Proof.Machine

/-! ### Destaging and fingerprints (R137, R138, R169, R172 to R175, R275) -/

section
variable {vol grain job : Nat} {s : State}

/-- 64 periods after its last write an entry is due (R137). -/
theorem exec_destageAgeExpiry {e : Entry} (there : s.stg.entry vol grain = some e) (old : e.lastWrite + 64 ≤ s.tt.now) :
    exec (.destageAgeExpiry vol grain) s = .next (modEntry vol grain (fun x => { x with due := true }) s) := by
  change execDestageAgeExpiry vol grain s = _
  unfold execDestageAgeExpiry
  rw [there]
  exact whenDue_pos old

/-- The destage of a grain of a root as it begins, with the version that it takes of each quarter (R138). -/
def State.destageOf (s : State) (r : Root) (vol grain : Nat) (vs : List (Option Ver)) : Destage :=
  let taken := vs.map (fun v => (v.map (·.seq)).getD 0)
  ⟨s.jobs.next, vol, grain, taken, taken.foldl max 0, vs.map (fun v => (v.filter (fun x => !x.lost)).map Ver.bytes),
    vs.map (fun v => (v.map (fun x => fitBytes 64 x.pi)).getD []), r.format != 0 && vs.any (fun v => v.any (·.hasPi)),
    r.format != 0, r.domain, r.layout, 0, s.through, .fingerprint, none, [], 0, 0, 1, false, 0, 0, [], [], 0⟩

/-- A grain whose four quarters are deallocated is unmapped at once (R138). -/
theorem exec_destageStart_deallocated {r : Root} {vs : List (Option Ver)} (root : s.ftl.ofNsid vol = some r)
    (eligible : s.eligible vol grain = true) (takes : vs = (List.range 4).map (s.takes vol grain))
    (gone : vs.all (fun v => v.any (fun x => x.noBuffer && x.dealloc)) = true) :
    exec (.destageStart vol grain) s =
      .next (mapPlain s.jobs.next none (modEntry vol grain (fun e => { e with destage := some s.jobs.next, due := false })
        { s with jobs := { s.jobs with next := s.jobs.next + 1, destages := s.jobs.destages ++ [s.destageOf r vol grain vs] } })) := by
  subst takes
  change execDestageStart vol grain s = _
  unfold execDestageStart
  rw [root]
  dsimp only
  rw [if_neg (by simp [eligible]), if_pos gone]
  rfl

/-- The zero grain maps to CID 0 once its fingerprint is taken (R169, R172). -/
theorem exec_fingerprintComplete_zero {d : Destage} {u : State}
    (there : s.jobs.destages.find? (fun d => d.job == job && d.stage == .fingerprint) = some d)
    (pays : s.canPayAll 2 [(.dig, 16384 + (if d.withMeta then 256 else 0))] = true) (zero : d.isZero = true)
    (paid : u = payAll 2 [(.dig, 16384 + (if d.withMeta then 256 else 0))] s) :
    exec (.fingerprintComplete job) s = .next (mapPlain job (some 0) (tallyAdd 0x09 0 4 (modDestage job (fun x => { x with
      fp := (kmac256 (u.fpKey d.domain) d.content 32 (ascii "BIRCA-FP")).take 24
      stage := .resolving }) u))) := by
  subst paid
  change execFingerprintComplete job s = _
  unfold execFingerprintComplete
  rw [there]
  refine (posted_next pays).trans ?_
  rw [if_pos zero]

end

/-! ### Resolution, the in-flight table and the index (R175 to R179, R183, R188, R191, R192) -/

section
variable {grain number : Nat} {m : Sent} {r : Resolution} {s : State}

/-- The front of the resolution queue is resolved (R191). -/
theorem exec_fingerprintResolve {q : List Resolution} (front : s.ddp.queue = r :: q) :
    exec .fingerprintResolve s = .next (resolveOne r (tallyAdd 0x06 0 1 { s with ddp := { s.ddp with queue := q } })) := by
  change execFingerprintResolve s = _
  unfold execFingerprintResolve
  rw [front]

/-- The resolutions under way, of this head's grains and of the peer's, wherever they wait (R175). -/
def Ddp.resolutions (d : Ddp) : List Resolution :=
  d.queue ++ d.blocked ++ d.indexing.map (·.1) ++ d.comparing.map (·.2.1) ++ d.inflight.flatMap (·.waiters)

/-- The peer's fingerprint enters the queue unless its number is under way here; then the answer is pending (R175). -/
theorem exec_resolve {domain : Nat} {verify through : Bool} {fp x : Bytes} {u : State}
    (taken : s.drops (.resolve domain verify through grain fp) = false) (new : getKey number s.corr.answered = none)
    (awake : u = wake true (tallyAdd 0x0D 1 1 s)) :
    exec (.resolve number domain verify through grain fp x) s =
      .next ((u.ddp.resolutions.find? (fun r => r.peer && r.number == number)).elim
        (enqueue ⟨grain, true, domain, fp, verify, through, 0, number, x, u.tt.now, false⟩ u)
        (fun r => send (.resolveAnswer grain r.wcid 3) u)) := by
  subst awake
  change execResolve number domain verify through grain fp x s = _
  unfold execResolve
  refine (onMessage_next taken new).trans (congrArg _ ?_)
  dsimp only [Ddp.resolutions]
  generalize List.find? (fun r : Resolution => r.peer && r.number == number) _ = known
  cases known <;> rfl

/-- An outcome settles the RESOLVE and is taken (R175). -/
theorem exec_resolveAnswer_outcome {cid outcome : Nat} (taken : s.drops (.resolveAnswer grain cid outcome) = false)
    (asked : s.corr.resolveOf grain = some m) (known : outcome ≠ 3) :
    exec (.resolveAnswer grain cid outcome) s =
      .next (takeOutcome grain outcome cid (settleNumber m.number (tallyAdd 0x0D 1 1 s))) := by
  refine (onWord_next taken : execResolveAnswer grain cid outcome s = _).trans (congrArg _ ?_)
  simp only [tallyAdd_corr, asked, known, if_false]

/-- A pending answer without a CID restarts the count of resends (R175). -/
theorem exec_resolveAnswer_pending (taken : s.drops (.resolveAnswer grain 0 3) = false) (asked : s.corr.resolveOf grain = some m) :
    exec (.resolveAnswer grain 0 3) s = .next { tallyAdd 0x0D 1 1 s with corr := { s.corr with
      unanswered := s.corr.unanswered.map (fun x =>
        if x.number == m.number then { x with at_ := s.tt.now, resends := 0, pending := true } else x) } } := by
  refine (onWord_next taken : execResolveAnswer grain 0 3 s = _).trans (congrArg _ ?_)
  simp only [tallyAdd_corr, tallyAdd_tt, asked, if_true]

/-- 4 periods after a pending answer the RESOLVE goes out again with its number (R175). -/
theorem exec_resolvePendingTimeout (asked : s.corr.resolveOf grain = some m) (waits : m.pending = true) (late : m.at_ + 4 ≤ s.tt.now) :
    exec (.resolvePendingTimeout grain) s = .next (tallyAdd 0x05 2 1 (emit (.corridor m.number m.body) { s with corr := { s.corr with
      unanswered := s.corr.unanswered.map (fun x =>
        if x.number == m.number then { x with at_ := s.tt.now, resends := 0, pending := false } else x) } })) := by
  change execResolvePendingTimeout grain s = _
  unfold execResolvePendingTimeout
  rw [asked]
  exact whenDue_pos ⟨waits, late⟩

/-- A waiting grain may go on: its in-flight entry has a place, or its set has a way (R178, R179). -/
def Ddp.goesOn (d : Ddp) (r : Resolution) : Bool :=
  match d.entry r.domain r.fp with
  | some e => e.pending || decide (e.waiters.length < 64)
  | none => decide ((d.inflight.filter (fun e => fpSet e.fp == fpSet r.fp)).length < 8)

/-- The first waiting grain that may go on does (R178, R179). -/
theorem exec_inflightWayFree (first : s.ddp.blocked.find? s.ddp.goesOn = some r) :
    exec .inflightWayFree s = .next (resolveOne r { s with
      ddp := { s.ddp with blocked := dropFirst (fun x => x.grain == r.grain && x.peer == r.peer) s.ddp.blocked } }) := by
  change execInflightWayFree s = _
  unfold execInflightWayFree
  dsimp only
  split
  next none_ => cases first.symm.trans none_
  next r' found => cases first.symm.trans found; rfl

end

section
variable {grain n : Nat} {peer : Bool} {r : Resolution} {s : State}

/-- The lookup of a grain is done with the index (R192). -/
def indexDone (grain : Nat) (peer : Bool) (s : State) : State :=
  { s with ddp := { s.ddp with indexing := dropFirst (fun p => p.1.grain == grain && p.1.peer == peer) s.ddp.indexing } }

/-- A sound copy of the page gives the lookup its record (R192). -/
theorem exec_indexReadComplete_sound
    (looks : s.ddp.indexing.find? (fun p => p.1.grain == grain && p.1.peer == peer) = some (r, n)) :
    exec (.indexReadComplete grain peer true) s = .next (useRecord r (s.ddp.indexFind r.domain r.fp) (indexDone grain peer s)) := by
  change execIndexReadComplete grain peer true s = _
  unfold execIndexReadComplete
  rw [looks]
  rfl

/-- After three bad copies the lookup finds nothing, with the media event (R192). -/
theorem exec_indexReadComplete_lost
    (looks : s.ddp.indexing.find? (fun p => p.1.grain == grain && p.1.peer == peer) = some (r, n)) (all : 7 ≤ n) :
    exec (.indexReadComplete grain peer false) s =
      .next (useRecord r none (event 0x5004 11 (s.ddp.bucket r.fp % 2 ^ 40) (indexDone grain peer s))) := by
  change execIndexReadComplete grain peer false s = _
  unfold execIndexReadComplete
  rw [looks]
  exact if_neg (Nat.not_lt.mpr all)

/-- After a bad copy the lookup reads the next one (R192). -/
theorem exec_indexReadComplete_next {mpa : Nat}
    (looks : s.ddp.indexing.find? (fun p => p.1.grain == grain && p.1.peer == peer) = some (r, n)) (more : n < 7)
    (page : mpa = (getKey (s.ddp.bucket r.fp) s.ddp.pages).getD 0) :
    exec (.indexReadComplete grain peer false) s = .next (readMeta mpa n (.index grain (s.triedNext mpa n)) { s with ddp := { s.ddp with
      indexing := s.ddp.indexing.map (fun p => if p.1.grain == grain && p.1.peer == peer then (r, s.triedNext mpa n) else p) } }) := by
  subst page
  change execIndexReadComplete grain peer false s = _
  unfold execIndexReadComplete
  rw [looks]
  exact if_pos more

/-- At a day boundary the grown filter, once complete, replaces the old one (R183). -/
theorem exec_filterReplace {q : Nat} (grown : s.ddp.grownQ = some q) (boundary : s.period = 0) (growing : s.ddp.fstate = 3)
    (complete : s.rebuildHalves.length * 2 ^ s.ddp.n ≤ s.ddp.rebuilt) :
    exec .filterReplace s = .next { s with ddp := { s.ddp with
      q := q, grownQ := none, fstate := 2, filter := s.ddp.records.map (fun r => fpG r.fp), stopped := false } } := by
  change execFilterReplace s = _
  unfold execFilterReplace
  rw [grown]
  exact whenDue_pos ⟨boundary, growing, complete⟩

end

/-- Settles O33: each command is due, or its message taken, under its premises, which choose the branch of its row; the frames are
those of `Laws/`. -/
theorem destageAndDedupCommands : Obligations.DestageAndDedupCommands := by
  unfold Obligations.DestageAndDedupCommands
  refine ⟨?age, ?start, ?fingerprint, ?front, ?resolveKnown, ?resolveNew, ?outcome, ?pending, ?resend, ?wayFree, ?indexSound,
    ?indexLost, ?indexNext, ?sweep, ?filter, ?counts, ?place⟩
  case age => exact fun _ _ _ _ => exec_destageAgeExpiry
  case start =>
    intro vol grain r vs taken d s root eligible takes quarters begun gone
    subst quarters begun
    exact exec_destageStart_deallocated root eligible takes gone
  case fingerprint => exact fun _ _ _ _ => exec_fingerprintComplete_zero
  case front => exact fun _ _ _ => exec_fingerprintResolve
  case resolveKnown =>
    intro number domain verify through grain fp x r u s taken new awake known
    rw [exec_resolve taken new awake, Ddp.resolutions, known]
    rfl
  case resolveNew =>
    intro number domain verify through grain fp x u s taken new awake unknown
    rw [exec_resolve taken new awake, Ddp.resolutions, unknown]
    rfl
  case outcome => exact fun _ _ _ _ _ => exec_resolveAnswer_outcome
  case pending =>
    exact fun grain m s taken asked => .of (execResolveAnswer_led grain 0 3 (.refl _ s) rfl)
      ⟨_, exec_resolveAnswer_pending taken asked, rfl, rfl⟩
  case resend =>
    exact fun grain m s asked waits late => .of (execResolvePendingTimeout_led grain (.refl _ s) rfl)
      ⟨_, exec_resolvePendingTimeout asked waits late, rfl, rfl⟩
  case wayFree => exact fun _ _ => exec_inflightWayFree
  case indexSound => exact fun _ _ _ _ _ => exec_indexReadComplete_sound
  case indexLost => exact fun _ _ _ _ _ => exec_indexReadComplete_lost
  case indexNext => exact fun _ _ _ _ _ _ => exec_indexReadComplete_next
  case sweep =>
    exact fun s idle split half => .of (execMergeSweepStart_led (.refl _ s) rfl) ⟨_, whenDue_pos ⟨idle, split, half⟩, rfl⟩
  case filter =>
    exact fun q s grown boundary growing complete => .of (execFilterReplace_led (.refl _ s) rfl)
      ⟨_, exec_filterReplace grown boundary growing complete, rfl, rfl, rfl, rfl, rfl⟩
  case counts => exact fun number l s taken new => (onMessage_next taken new : execRefDelta number l s = _)
  case place => exact fun number cid psa gen hasTail s taken new =>
    (onMessage_next taken new : execPlace number cid psa gen hasTail s = _)

end Sys2Proof.Machine

namespace Sys2Proof.Machine

/-! ### Reference counts (R198, R200) -/

/-- A value set under one key is not seen under another. -/
theorem getKey_putKey_ne {α : Type} {n m : Nat} (ne : n ≠ m) (a : α) (l : List (Nat × α)) :
    getKey n (putKey m a l) = getKey n l := by
  have skip (r : List (Nat × α)) : getKey n ((m, a) :: r) = getKey n r := if_neg ne.symm
  induction l with
  | nil => exact skip []
  | cons p r ih =>
    obtain ⟨j, b⟩ := p
    unfold putKey
    split
    next same => rw [skip, getKey, if_neg (same ▸ ne.symm)]
    next =>
      split
      · exact skip _
      · simp only [getKey, ih]

/-- A bit that has been set is set. -/
@[simp] theorem bitAt_setBit_self (n v : Nat) : bitAt n (setBit n v) = true := by
  unfold setBit
  split
  next set => exact set
  next clear =>
    have even : v / 2 ^ n % 2 ≠ 1 := by simpa [bitAt] using clear
    rw [bitAt, Nat.add_div_right _ (Nat.two_pow_pos n), beq_iff_eq]
    omega

section
variable {cid other : Nat} {d : Int} {r q : CtRec} {s : State}

@[simp] theorem putRec_ctRec_self (cid : Nat) (r : CtRec) (s : State) : (putRec cid r s).ftl.ctRec cid = some r :=
  getKey_putKey_self ..

theorem putRec_ctRec_ne (ne : other ≠ cid) : (putRec cid r s).ftl.ctRec other = s.ftl.ctRec other := getKey_putKey_ne ne ..

/-- An event is one record of its code, island and argument for the Diary intake (R580). -/
theorem event_diary (code island arg : Nat) (s : State) : (event code island arg s).diary =
    (s.diary.intake ⟨code, 0, island, s.sys.slot % 2, s.tt.now, s.tt.now, arg⟩).1 := rfl

/-- Below 0 the count stops at 0, with flag [7] and the metadata fault (R200). -/
theorem addRef_below (there : s.ftl.ctRec cid = some r) (below : r.refs + d < 0) :
    addRef cid d s = event 0x7001 20 (argOf [(0, 3), (2, cid % 2 ^ 48)])
      (putRec cid { r with refs := 0, flags := setBit 7 r.flags } s) := by
  simp only [addRef, there, if_pos below]

/-- From 0 on the count is the sum, which stops at 0xFFFF_FFFF (R198). -/
theorem addRef_above (there : s.ftl.ctRec cid = some r) (above : 0 ≤ r.refs + d) :
    addRef cid d s = putRec cid { r with refs := min (r.refs + d).toNat 0xFFFFFFFF } s := by
  simp only [addRef, there, if_neg (Int.not_lt.mpr above)]

/-- A change of one count leaves every other record. -/
theorem addRef_ctRec_ne (there : s.ftl.ctRec cid = some r) (ne : other ≠ cid) :
    (addRef cid d s).ftl.ctRec other = s.ftl.ctRec other := by
  rcases Int.lt_or_le (r.refs + d) 0 with below | above
  · rw [addRef_below there below, event_ftl, putRec_ctRec_ne ne]
  · rw [addRef_above there above, putRec_ctRec_ne ne]

/-- What a change leaves of the CID's own record: a count in range, and exactly the sum where that is in range. -/
theorem addRef_ctRec_self (there : s.ftl.ctRec cid = some r) :
    ∃ p, (addRef cid d s).ftl.ctRec cid = some p ∧ p.refs ≤ 0xFFFFFFFF ∧
      (0 ≤ r.refs + d → r.refs + d ≤ 0xFFFFFFFF → (p.refs : Int) = r.refs + d ∧ p.flags = r.flags) := by
  rcases Int.lt_or_le (r.refs + d) 0 with below | above
  · rw [addRef_below there below, event_ftl, putRec_ctRec_self]
    exact ⟨_, rfl, Nat.zero_le _, fun inRange => absurd below (Int.not_lt.mpr inRange)⟩
  · rw [addRef_above there above, putRec_ctRec_self]
    refine ⟨_, rfl, Nat.min_le_right .., fun _ fits => ⟨?_, rfl⟩⟩
    dsimp only
    omega

end

/-- Settles O13: a count of 0 less 1 is below 0, and the record of the event reaches the intake. -/
theorem countBelowZero : Obligations.CountBelowZero := by
  intro cid s r there zero
  have below : (r.refs : Int) + -1 < 0 := by omega
  refine ⟨?_, bitAt_setBit_self .., fun other ne => addRef_ctRec_ne there ne, ?_⟩
  · rw [addRef_below there below, event_ftl, putRec_ctRec_self]
  · rw [addRef_below there below, event_diary]
    rfl

/-- Settles O14: the record asked for is another one, or the changed one itself. -/
theorem countsStayInRange : Obligations.CountsStayInRange := by
  intro cid other d s r q there known
  by_cases same : other = cid
  · subst same
    obtain ⟨p, changed, range, sum⟩ := addRef_ctRec_self (d := d) there
    exact ⟨p, changed, fun ne => absurd rfl ne, fun _ => ⟨range, sum⟩⟩
  · exact ⟨q, (addRef_ctRec_ne there same).trans known, fun _ => rfl, fun eq => absurd eq same⟩

end Sys2Proof.Machine

namespace Sys2Proof.Machine

/-! ### Pool packets (R183, R190, R357, R391, R417, R418, R421, R438, R520, R522, R549) -/

section
variable {b : Binding} {tag : Nat} {peer : PeerAnswer} {p : Packet} {q : Pool} {m : Member} {s : State}

/-- A head without a Corridor forms a pool of the modules named and answers with its identifier (R520, R549). -/
theorem exec_poolForm_alone (h : s.cpi.packet b tag 0x0201 = some p) (none_ : s.pool = none)
    (staging : 4 * p.param 1 1 ≤ s.dram.dimmGib) (cache : s.dram.gib ≤ 8 * p.param 10 2) (members : newMembers p 16 ≠ [])
    (domains : (newMembers p 16).any (fun x => 63 < x.2.1) = false) (unformed : s.notUnformed (newMembers p 16) = none)
    (alone : s.corr.up = false) :
    exec (.poolForm b tag peer) s = .next (changed p (slice (s.randomBytes 48) 0 16) (configWrite (addMembers (newMembers p 16)
      (bindPool (newPool p (slice (s.randomBytes 48) 0 16) ((s.trust.channel.map (·.peer)).getD []) s)
        (slice (s.randomBytes 48) 16 32) 1 (drawn 48 s))))) := by
  refine (onPacket_next h : execPoolForm b tag peer s = _).trans (congrArg _ ?_)
  dsimp only
  rw [if_neg (by simp [none_]), if_neg (by omega), if_neg (by omega), if_neg (by simp [members, domains]), unformed]
  dsimp only
  rw [if_neg (by simp [alone]), if_neg (by simp [alone])]

/-- There is one pool (R549). -/
theorem exec_poolForm_formed (h : s.cpi.packet b tag 0x0201 = some p) (formed : s.pool.isSome = true) :
    exec (.poolForm b tag peer) s = .next (refuse p .poolState (detailOf [(1, 2)]) s) := by
  refine (onPacket_next h : execPoolForm b tag peer s = _).trans (congrArg _ ?_)
  exact if_pos formed

/-- Unformed modules join the pool on both heads (R417). -/
theorem exec_poolExtend (h : s.cpi.packet b tag 0x0202 = some p) (pool : s.pool.isSome = true)
    (domains : (newMembers p 0).find? (fun x => 63 < x.2.1) = none) (unformed : s.notUnformed (newMembers p 0) = none)
    (agrees : s.paired = true → peer.status = .ok) (awaited : s.awaitsAlone = false) :
    exec (.poolExtend b tag peer) s = .next (changed p [] (configWrite (addMembers (newMembers p 0) (pairBase p s)))) := by
  refine (onPacket_next h : execPoolExtend b tag peer s = _).trans (congrArg _ ?_)
  dsimp only
  rw [if_neg (by simp [← Option.not_isSome, pool]), domains, unformed]
  exact pairWide_ok agrees awaited

/-- A member that the redundancy spares is Failed on both heads (R357). -/
theorem exec_memberFail (h : s.cpi.packet b tag 0x0203 = some p) (member : s.ec.member (p.param 0 1) = some m)
    (works : m.state ≠ .failed) (joined : m.state ≠ .none) (spared : s.ec.mayFail (p.param 0 1) = true)
    (agrees : s.paired = true → peer.status = .ok) (awaited : s.awaitsAlone = false) :
    exec (.memberFail b tag peer) s = .next (changed p [] (memberTo (p.param 0 1) .failed (pairBase p s))) := by
  refine (onPacket_next h : execMemberFail b tag peer s = _).trans (congrArg _ ?_)
  dsimp only
  rw [member]
  dsimp only
  rw [if_neg (by simp [works, joined]), if_pos spared]
  exact pairWide_ok agrees awaited

/-- While a sealed snapshot stands no member beyond the redundancy is Failed (R438). -/
theorem exec_memberFail_sealed {until_ : Nat} (h : s.cpi.packet b tag 0x0203 = some p)
    (member : s.ec.member (p.param 0 1) = some m) (works : m.state ≠ .failed) (joined : m.state ≠ .none)
    (needed : s.ec.mayFail (p.param 0 1) = false) (stands : s.sealedUntil = some until_) :
    exec (.memberFail b tag peer) s = .next (refuseSealed p until_ s.clockUs s) := by
  refine (onPacket_next h : execMemberFail b tag peer s = _).trans (congrArg _ ?_)
  dsimp only
  rw [member]
  dsimp only
  rw [if_neg (by simp [works, joined]), if_neg (by simp [needed]), stands]

/-- A quad with a width code: each of its bays is Absent, or Taken by a wider neighbour (R391). -/
def setQuad (quad code : Nat) (s : State) : State :=
  let t := ((List.range 4).map (· + 4 * quad)).foldl (fun t n =>
    setBay n { t.bay.bayOf n with state := if (takenBays quad code).contains n then .taken else .absent } t) s
  { t with bay := { t.bay with quads := setAt quad code t.bay.quads } }

/-- An empty quad takes its width (R391). -/
theorem exec_bayWidthSet_empty (h : s.cpi.packet b tag 0x0204 = some p)
    (empty : ((List.range 4).map (· + 4 * p.param 0 1)).find? s.present = none) :
    exec (.bayWidthSet b tag) s = .next (changed p [] (setQuad (p.param 0 1) (p.param 1 1) s)) := by
  refine (onPacket_next h : execBayWidthSet b tag s = _).trans (congrArg _ ?_)
  dsimp only
  rw [empty]
  rfl

/-- A module that serves no pool is powered down (R421). -/
theorem exec_bayPower_off (h : s.cpi.packet b tag 0x0205 = some p)
    (idle : (s.ec.member (p.param 0 1)).filter (fun m => m.state == .inService || m.state == .detention) = none)
    (off : p.param 1 1 = 1) : exec (.bayPower b tag) s = .next (changed p [] (powerDown (p.param 0 1) s)) := by
  refine (onPacket_next h : execBayPower b tag s = _).trans (congrArg _ ?_)
  dsimp only
  rw [idle]
  exact congrArg (changed p []) (if_pos off)

/-- The power of a member In service or in Detention stays (R421). -/
theorem exec_bayPower_member (h : s.cpi.packet b tag 0x0205 = some p)
    (serves : (s.ec.member (p.param 0 1)).filter (fun m => m.state == .inService || m.state == .detention) = some m) :
    exec (.bayPower b tag) s =
      .next (refuse p .memberState (detailOf [(1, p.param 0 1), (1, memberCode m.state)]) s) := by
  refine (onPacket_next h : execBayPower b tag s = _).trans (congrArg _ ?_)
  dsimp only
  rw [serves]

/-- A larger filter begins to grow beside the one in use (R183). -/
theorem exec_poolGrowFilter (h : s.cpi.packet b tag 0x0206 = some p) (pool : s.pool.isSome = true)
    (grown : s.ddp.grownQ = none) (room : s.ddp.q < 41) (agrees : s.paired = true → peer.status = .ok)
    (awaited : s.awaitsAlone = false) :
    exec (.poolGrowFilter b tag peer) s = .next (changed p [] { pairBase p s with
      pool := s.pool.map (fun q => { q with q := s.ddp.q + 1 })
      ddp := { s.ddp with
        grownQ := some (s.ddp.q + 1)
        fstate := if s.ddp.fstate = 1 then 1 else 3
        rebuilt := if s.ddp.fstate = 1 then s.ddp.rebuilt else 0 } }) := by
  refine (onPacket_next h : execPoolGrowFilter b tag peer s = _).trans (congrArg _ ?_)
  rw [if_neg (by simp [← Option.not_isSome, pool]), if_neg (by simp [grown]), if_neg (by omega), pairWide_ok agrees awaited,
    pairBase_pool, pairBase_ddp]

/-- The buckets of the index begin to split (R190). -/
theorem exec_poolGrowIndex (h : s.cpi.packet b tag 0x0207 = some p) (pool : s.pool.isSome = true)
    (whole : s.ddp.split = none) (room : s.ddp.n < 36) (agrees : s.paired = true → peer.status = .ok)
    (awaited : s.awaitsAlone = false) :
    exec (.poolGrowIndex b tag peer) s = .next (changed p [] { pairBase p s with
      pool := s.pool.map (fun q => { q with n := s.ddp.n + 1 })
      ddp := { s.ddp with split := some (pairBase p s).firstSplit } }) := by
  refine (onPacket_next h : execPoolGrowIndex b tag peer s = _).trans (congrArg _ ?_)
  rw [if_neg (by simp [← Option.not_isSome, pool]), if_neg (by simp [whole]), if_neg (by omega), pairWide_ok agrees awaited,
    pairBase_pool, pairBase_ddp]

/-- A pool is told by its superblock and the member of each bay (R549). -/
theorem exec_poolQuery (h : s.cpi.packet b tag 0x0208 = some p) (pool : s.pool = some q) :
    exec (.poolQuery b tag) s =
      .next (answered p [] (superblockBytes q s.ec.members s.sys.slot 1 (s.systemKey 0x11 0) ++
        (List.range 64).flatMap (fun i => leBytes 8 (s.ecMember i))) s) := by
  refine (onPacket_next h : execPoolQuery b tag s = _).trans (congrArg _ ?_)
  rw [pool]

/-- A module is Unformed and the four blocks of its superblock ring are to be erased (R418, R522). -/
def unform (bay : Nat) (y : Bay) (s : State) : State :=
  (List.range 4).foldl (fun u n => queueOp (blkOp 3 (blkKey bay 0 n) 0 0 0 .ring []) u)
    (setBay bay { y with class_ := .unformed, poolId := [], ring := 0 } s)

/-- A pool with its members is gone (R522). -/
def erasePool (s : State) : State :=
  (s.ec.members.map (·.bay)).foldl (fun t bay => unform bay (t.bay.bayOf bay) t) (unbindPool s)

/-- A command of the whole pair acts at once on a head that is not paired and awaits no sheet (R544). -/
theorem pairWide_alone {f : State → State} (alone : s.paired = false) (awaited : s.awaitsAlone = false) :
    pairWide p peer f s = f s := by
  rw [pairWide, if_neg (by simp [alone]), if_neg (by simp [awaited])]

/-- The second of two signed packets erases the pool of a head alone (R522). -/
theorem exec_poolErase_second {slot at_ : Nat} {u : State} (h : s.cpi.packet b tag 0x0209 = some p) (pool : s.pool = some q)
    (named : q.id = slice p.params 0 16) (open_ : s.sealedUntil = none)
    (first : getKey p.opcode s.cpi.firstSigned = some (p.params, (slot, at_))) (distinct : slot ≠ p.slot)
    (soon : s.clockSec ≤ at_ + 600) (alone : s.paired = false) (awaited : s.awaitsAlone = false)
    (taken : u = { s with cpi := { s.cpi with firstSigned := delKey p.opcode s.cpi.firstSigned } }) :
    exec (.poolErase b tag peer) s = .next (changed p [] (erasePool u)) := by
  refine (onPacket_next h : execPoolErase b tag peer s = _).trans (congrArg _ ?_)
  rw [pool]
  dsimp only
  rw [if_neg (not_not_intro named), open_]
  dsimp only
  rw [if_neg (by simp [awaited]), twiceSigned_second first distinct soon]
  subst taken
  exact pairWide_alone alone awaited

/-- A module of another pool becomes Unformed (R418). -/
theorem exec_moduleUnform (h : s.cpi.packet b tag 0x020A = some p) (formed : (s.bay.bayOf (p.param 0 1)).poolId ≠ [])
    (named : (s.bay.bayOf (p.param 0 1)).poolId = slice p.params 8 16) (none_ : s.ec.member (p.param 0 1) = none) :
    exec (.moduleUnform b tag) s =
      .next (changed p [] (event 0x9001 (bayIsland (p.param 0 1)) (argOf [(0, p.param 0 1), (1, 2)])
        (unform (p.param 0 1) (s.bay.bayOf (p.param 0 1)) s))) := by
  refine (onPacket_next h : execModuleUnform b tag s = _).trans (congrArg _ ?_)
  dsimp only
  rw [if_neg (by simp [formed, ← named]), none_, ite_self]
  rfl

end

/-- Settles O48: each packet's row passes its checks under its premises and acts on the state both heads have agreed on; a refused
one leaves the pool, its members and its bays as they are. -/
theorem poolPacketCommands : Obligations.PoolPacketCommands := by
  unfold Obligations.PoolPacketCommands
  refine ⟨?form, ?formed, ?extend, ?fail, ?failSealed, ?width, ?powerOff, ?powerMember, ?growFilter, ?growIndex, ?query, ?erase,
    ?unform⟩
  case form =>
    exact fun b tag peer p s h none_ staging cache members domains unformed alone =>
      .of (execPoolForm_led b tag peer (.refl _ s) rfl)
        ⟨_, exec_poolForm_alone h none_ staging cache members domains unformed alone, changed_replied ..⟩
  case formed =>
    exact fun b tag peer p s h formed => .of (execPoolForm_led b tag peer (.refl _ s) rfl)
      ⟨_, exec_poolForm_formed h formed, refuse_replied .., refuse_pool ..⟩
  case extend => exact fun _ _ _ _ _ => exec_poolExtend
  case fail => exact fun _ _ _ _ _ _ => exec_memberFail
  case failSealed =>
    exact fun b tag peer p m until_ s h member works joined needed stands => .of (execMemberFail_led b tag peer (.refl _ s) rfl)
      ⟨_, exec_memberFail_sealed h member works joined needed stands, refuse_replied .., refuse_ec ..⟩
  case width =>
    exact fun b tag p s h empty => .of (execBayWidthSet_led b tag (.refl _ s) rfl)
      ⟨_, exec_bayWidthSet_empty h empty, changed_replied ..⟩
  case powerOff => exact fun _ _ _ _ => exec_bayPower_off
  case powerMember =>
    exact fun b tag p m s h serves => .of (execBayPower_led b tag (.refl _ s) rfl)
      ⟨_, exec_bayPower_member h serves, refuse_replied .., refuse_bay ..⟩
  case growFilter =>
    refine fun b tag peer p s h pool grown room agrees awaited => .of (execPoolGrowFilter_led b tag peer (.refl _ s) rfl)
      ⟨_, exec_poolGrowFilter h pool grown room agrees awaited, changed_replied .., ?_⟩
    rw [changed_ddp]
    exact ⟨rfl, rfl⟩
  case growIndex =>
    refine fun b tag peer p s h pool whole room agrees awaited => .of (execPoolGrowIndex_led b tag peer (.refl _ s) rfl)
      ⟨_, exec_poolGrowIndex h pool whole room agrees awaited, changed_replied .., ?_⟩
    rw [changed_ddp]
    exact ⟨rfl, rfl⟩
  case query =>
    exact fun b tag p q s h pool => .of (execPoolQuery_led b tag (.refl _ s) rfl)
      ⟨_, exec_poolQuery h pool, answered_replied ..⟩
  case erase =>
    exact fun b tag peer p q slot at_ s h pool named open_ first distinct soon alone awaited =>
      .of (execPoolErase_led b tag peer (.refl _ s) rfl)
        ⟨_, exec_poolErase_second h pool named open_ first distinct soon alone awaited rfl, changed_replied ..⟩
  case unform => exact fun _ _ _ _ => exec_moduleUnform

end Sys2Proof.Machine

namespace Sys2Proof.Machine

/-! ### The encoder (R204, R205, R222, R223) -/

@[simp] theorem length_fitBytes (n : Nat) (b : Bytes) : (fitBytes n b).length = n := by
  simp only [fitBytes, zeros, List.length_append, List.length_take, List.length_replicate]
  omega

/-- A byte string of the size asked for is neither cut nor padded. -/
theorem fitBytes_of_length {n : Nat} {b : Bytes} (h : b.length = n) : fitBytes n b = b := by
  subst h
  simp [fitBytes, zeros]

theorem tierOf_bounds (size : Nat) : 1 ≤ tierOf size ∧ tierOf size ≤ 4 := by
  unfold tierOf
  split_ifs <;> decide

/-- A candidate that may be emitted, padded to its tier, decodes to the quarters of the grain (R223). -/
theorem candidateOk_decodes {coded : Bool} {grain cand : Bytes} {tier : Nat} (ok : candidateOk coded grain cand tier = true) :
    skxDecode (fitBytes (tierSize tier) cand) tier [0, 1, 2, 3] =
      ⟨[], [0, 1, 2, 3].map (fun q => (q, slice grain (4096 * q) 4096))⟩ := by
  rw [candidateOk, Bool.and_eq_true] at ok
  exact eq_of_beq ok.2

/-- The encoder emits a candidate that may be emitted, padded to its tier, or the grain RAW (R204, R222). -/
theorem skxEncode_cases (grain : Bytes) :
    (∃ coded cand size, candidateOk coded grain cand (tierOf size) = true ∧
      skxEncode grain = ⟨tierOf size, fitBytes (tierSize (tierOf size)) cand⟩) ∨
    skxEncode grain = ⟨4, fitBytes 16384 grain⟩ := by
  unfold skxEncode
  extract_lets c0 c1 tier coded pick
  split
  next => exact .inr rfl
  next emitted =>
    rw [not_or, Bool.not_eq_true', Bool.not_eq_false] at emitted
    exact .inl ⟨_, _, _, emitted.2, rfl⟩

/-- Settles O21: an emitted candidate has passed the decoder; a RAW slot is the grain itself. -/
theorem encodedGrainsDecode : Obligations.EncodedGrainsDecode := by
  intro grain size
  rcases skxEncode_cases grain with ⟨coded, cand, least, ok, emitted⟩ | raw
  · rw [emitted]
    exact ⟨(tierOf_bounds least).1, (tierOf_bounds least).2, length_fitBytes .., candidateOk_decodes ok⟩
  · rw [raw, fitBytes_of_length size]
    exact ⟨Nat.le_add_left .., Nat.le_refl _, size, rfl⟩

end Sys2Proof.Machine

namespace Sys2Proof.Machine

/-! ### Encoding and decoding of slots (R221, R222, R225 to R228) -/

section
variable {job lane : Nat} {s : State}

/-- What a lane that works has coded is kept; what a faulty one has coded is discarded, and the lane goes out (R221, R222, R225). -/
theorem exec_encodeComplete {d : Destage} (faulty : Bool)
    (there : s.jobs.destages.find? (fun d => d.job == job && d.stage == .encode) = some d)
    (pays : s.canPayAll 2 [(.enc, 16384)] = true) (delivers : s.laneDelivers (laneOf .enc lane) = true) :
    exec (.encodeComplete job lane faulty) s = .next (bif faulty then laneOut (laneOf .enc lane) .failed (payAll 2 [(.enc, 16384)] s)
      else tallyAdd 0x07 (skxEncode (d.content.take 16384)).tier 1 (tallyAdd 0x07 0 1 (modDestage job (fun x => { x with
        tier := (skxEncode (d.content.take 16384)).tier
        slot := (skxEncode (d.content.take 16384)).slot
        stage := .encrypt }) (payAll 2 [(.enc, 16384)] s)))) := by
  change execEncodeComplete job lane faulty s = _
  unfold execEncodeComplete
  rw [there]
  dsimp only
  rw [if_neg (by simp [delivers]), posted_next pays]
  cases faulty <;> rfl

/-- A decode without error delivers the quarters it has released (R226 to R228). -/
theorem exec_decodeComplete_sound {r : SlotRead} (there : s.jobs.read job = some r) (stage : r.stage = .decode)
    (delivers : s.laneDelivers (laneOf .dec lane) = true) (first : r.failLane = none)
    (pays : s.canPayAll (streamOf r.why) (slotCost r .dec (4096 * r.want.length)) = true)
    (sound : errorKeys (skxDecode (r.plain.take (4096 * psaTier r.psa)) (psaTier r.psa) r.want).errors = []) :
    exec (.decodeComplete job lane none) s =
      .next (deliver r (skxDecode (r.plain.take (4096 * psaTier r.psa)) (psaTier r.psa) r.want).released
        (tallyAdd 0x07 5 r.want.length (payAll (streamOf r.why) (slotCost r .dec (4096 * r.want.length)) s))) := by
  change execDecodeComplete job lane none s = _
  unfold execDecodeComplete
  rw [there]
  dsimp only
  rw [if_neg (by simp [stage, delivers, first, otherIsland]), posted_next pays]
  rw [if_pos sound, first]

end

/-! ### Decryption of slots (R250, R281) -/

section
variable {job lane : Nat} {sound : Bool} {r : SlotRead} {s : State} (there : s.jobs.read job = some r)
  (stage : r.stage = .decrypt) (delivers : s.laneDelivers (laneOf .cip lane) = true)
  (other : otherIsland .cip r.failLane lane = true)
  (pays : s.canPayAll (streamOf r.why) (slotCost r .cip (s.slotText r).length) = true)
include there stage delivers other pays

/-- A slot whose envelopes are not sound is reconstructed or Lost (R281). -/
theorem exec_slotDecryptComplete_badEnvelopes (bad : envelopesOk r.envs = false) :
    exec (.slotDecryptComplete job lane sound) s = .next (rebuildOrLose job 1 (setRead r
      (payAll (streamOf r.why) (slotCost r .cip (s.slotText r).length) s))) := by
  change execSlotDecryptComplete job lane sound s = _
  unfold execSlotDecryptComplete
  rw [there]
  dsimp only
  rw [if_neg (by simp [stage, delivers, other]), posted_next pays]
  simp [bad]

/-- A slot whose envelopes and pointer agree is opened under its domain's key, or fails its tag (R250). -/
theorem exec_slotDecryptComplete_agreed {e : Bytes} {u : State} (agree : envelopesOk r.envs = true) (head : e = r.envs.headD [])
    (pointer : pointerOk e r.cid r.psa = true)
    (keyed : u = useOlder (laneIsland (laneOf .cip lane)) (fieldAt e 4 2) (fieldAt e 6 2)
      (payAll (streamOf r.why) (slotCost r .cip (s.slotText r).length) s)) :
    exec (.slotDecryptComplete job lane true) s =
      .next ((gcmOpen (u.dataKey (fieldAt e 4 2) (fieldAt e 6 2)) (slice e 0x18 12) (slotAad e) (s.slotText r) (slice e 0x24 16)).elim
        (tagFailed r lane (fieldAt e 4 2) u) (fun plain => slotOpened r plain u)) := by
  subst head keyed
  change execSlotDecryptComplete job lane true s = _
  unfold execSlotDecryptComplete
  rw [there]
  dsimp only
  rw [if_neg (by simp [stage, delivers, other]), posted_next pays]
  rw [if_neg (by rw [agree, pointer]; decide), if_pos rfl]
  generalize gcmOpen _ _ _ _ _ = opened
  cases opened <;> rfl

end

/-! ### Encryption of slots (R248 to R256) -/

section
variable {job lane : Nat} {d : Destage} {l : Locker} {u t : State} {s : State}
  (there : s.jobs.destages.find? (fun d => d.job == job && d.stage == .encrypt) = some d)
  (locker : l = s.ciph.locker d.domain) (granted : l.granted ≠ 0) (delivers : s.laneDelivers (laneOf .cip lane) = true)
  (pays : s.canPayAll 2 [(.cip, slotBytes d.tier d.withMeta)] = true)
  (paid : t = payAll 2 [(.cip, slotBytes d.tier d.withMeta)] s)
include there locker granted delivers pays paid

/-- Without a nonce below a durable ceiling the slot waits (R253). -/
theorem exec_slotEncryptComplete_waits
    (noNonce : takeNonce (lockerHandle d.domain l) l.gen (t.writerLane lane) 1 t = (u, none)) :
    exec (.slotEncryptComplete job lane) s = .next u := by
  subst locker paid
  change execSlotEncryptComplete job lane s = _
  unfold execSlotEncryptComplete
  rw [there]
  dsimp only
  rw [if_neg (by simp [delivers]), if_neg granted, posted_next pays]
  rw [noNonce]

/-- The slot of a grain without metadata is sealed under a nonce of the lane, its envelope carries the tag, and it seeks its place
(R248 to R251, R255). -/
theorem exec_slotEncryptComplete_sealed {nonce env0 env ct tag : Bytes}
    (nonced : takeNonce (lockerHandle d.domain l) l.gen (t.writerLane lane) 1 t = (u, some nonce)) (plain : d.withMeta = false)
    (untagged : env0 = envelope 1 0 d.tier (flagBit (d.tier == 4) + 2 * flagBit d.withMeta) d.domain l.gen d.cid t.epoch nonce [])
    (sealed : gcmSeal (t.dataKey d.domain l.gen) nonce (slotAad env0) d.slot = (ct, tag))
    (tagged : env = envelope 1 0 d.tier (flagBit (d.tier == 4) + 2 * flagBit d.withMeta) d.domain l.gen d.cid t.epoch nonce tag) :
    exec (.slotEncryptComplete job lane) s = .next (placeDestage job (modDestage job (fun x => { x with
      slot := ct.take (4096 * d.tier), env := env, gen := l.gen, stage := .place })
        (tallyAdd 0x08 0 1 (setLocker d.domain { l with granted := l.granted - 1 } u)))) := by
  have text : d.slot ++ (if d.withMeta then d.pis.flatMap (fitBytes 64) else []) = d.slot := by simp [plain]
  subst locker paid untagged tagged
  change execSlotEncryptComplete job lane s = _
  unfold execSlotEncryptComplete
  rw [there]
  dsimp only
  rw [if_neg (by simp [delivers]), if_neg granted, posted_next pays]
  rw [nonced]
  dsimp only
  rw [text, sealed]
  dsimp only
  rw [if_neg (by simp [plain])]

end

/-- Settles O34: each command is due under its premises, which choose the branch of its row; a decryption and its failure share one
equation, as do the outcomes of an encoding. -/
theorem slotEngineCommands : Obligations.SlotEngineCommands := by
  unfold Obligations.SlotEngineCommands
  refine ⟨?encode, ?encodeFaulty, ?decode, ?badEnvelopes, ?opened, ?tagFailed, ?waits, ?sealed, ?grant⟩
  case encode => exact fun _ _ _ _ => exec_encodeComplete false
  case encodeFaulty => exact fun _ _ _ _ => exec_encodeComplete true
  case decode =>
    intro job lane r o s there stage delivers first pays decoded sound
    subst decoded
    exact exec_decodeComplete_sound there stage delivers first pays sound
  case badEnvelopes => exact fun _ _ _ _ _ => exec_slotDecryptComplete_badEnvelopes
  case opened =>
    intro job lane r e plain u s there stage delivers other pays agree head pointer keyed opens
    rw [exec_slotDecryptComplete_agreed there stage delivers other pays agree head pointer keyed, opens]
    rfl
  case tagFailed =>
    intro job lane r e u s there stage delivers other pays agree head pointer keyed fails
    rw [exec_slotDecryptComplete_agreed there stage delivers other pays agree head pointer keyed, fails]
    rfl
  case waits =>
    exact fun job lane d u l s there locker granted delivers pays noNonce =>
      exec_slotEncryptComplete_waits there locker granted delivers pays rfl noNonce
  case sealed =>
    exact fun job lane d u l nonce env0 env ct tag flags s there locker granted delivers pays nonced plain untagged sealed tagged =>
      exec_slotEncryptComplete_sealed there locker granted delivers pays rfl nonced plain untagged sealed tagged
  case grant => exact fun locker s bound below => whenDue_pos ⟨bound, below⟩

end Sys2Proof.Machine

namespace Sys2Proof.Machine

/-! ### Numbers as bytes (R11) -/

@[simp] theorem length_leBytes (n v : Nat) : (leBytes n v).length = n := by
  induction n generalizing v with
  | zero => rfl
  | succ n ih => simp [leBytes, ih]

@[simp] theorem length_beBytes (n v : Nat) : (beBytes n v).length = n := by simp [beBytes]

/-- The bytes of a number are those of its residue. -/
theorem leNat_leBytes (n v : Nat) : leNat (leBytes n v) = v % 256 ^ n := by
  induction n generalizing v with
  | zero => simp [leBytes, leNat, Nat.mod_one]
  | succ n ih =>
    rw [leBytes, leNat, ih, BitVec.toNat_ofNat, pow_succ' 256 n]
    exact (Nat.mod_mul (a := 256)).symm

/-- Two numbers below 2^(8n) with the same n bytes are equal. -/
theorem beBytes_inj {n v w : Nat} (hv : v < 256 ^ n) (hw : w < 256 ^ n) (h : beBytes n v = beBytes n w) : v = w := by
  have bytes : leBytes n v = leBytes n w := List.reverse_injective h
  rw [← Nat.mod_eq_of_lt hv, ← leNat_leBytes, bytes, leNat_leBytes, Nat.mod_eq_of_lt hw]

/-! ### Nonces (R251 to R253) -/

/-- Nonces of one writer or of two have the same counter where they are equal (Table 7-6). -/
theorem nonceOf_value_inj {chip chip' lane lane' v w : Nat} (hv : v < 2 ^ 80) (hw : w < 2 ^ 80)
    (h : nonceOf chip lane v = nonceOf chip' lane' w) : v = w :=
  beBytes_inj (n := 10) hv hw (List.append_inj h (by simp)).2

/-- The counter of a key, generation and lane is filed under them. -/
theorem counter_filed (c : Ciph) (handle gen lane : Nat) :
    (c.counter handle gen lane).handle = handle ∧ (c.counter handle gen lane).gen = gen ∧
      (c.counter handle gen lane).lane = lane := by
  unfold Ciph.counter
  cases found : c.counters.find? (fun x => x.handle == handle && x.gen == gen && x.lane == lane) with
  | none => exact ⟨rfl, rfl, rfl⟩
  | some n => simpa [and_assoc] using List.find?_some found

theorem counter_setCounter {n : NonceCtr} {handle gen lane : Nat}
    (filed : n.handle = handle ∧ n.gen = gen ∧ n.lane = lane) (s : State) :
    (setCounter n s).ciph.counter handle gen lane = n := by
  obtain ⟨rfl, rfl, rfl⟩ := filed
  have others : (s.ciph.counters.filter (fun x => !(x.handle == n.handle && x.gen == n.gen && x.lane == n.lane))).find?
      (fun x => x.handle == n.handle && x.gen == n.gen && x.lane == n.lane) = none :=
    List.find?_eq_none.mpr fun x mem => by simpa only [Bool.not_eq_true, Bool.not_eq_true'] using (List.mem_filter.mp mem).2
  rw [Ciph.counter, setCounter, List.find?_append, others]
  simp

/-- What is to be done once an epoch is durable leaves the cipher store. -/
theorem afterDurable_ciph (epoch : Nat) (a : After) (s : State) : (afterDurable epoch a s).ciph = s.ciph := rfl

/-- Asking for a higher ceiling leaves the counter's value, and its ceiling until the journal is durable (R253). -/
theorem counter_raiseCeiling {n : NonceCtr} {handle gen lane : Nat}
    (filed : n.handle = handle ∧ n.gen = gen ∧ n.lane = lane) (s : State) :
    ((raiseCeiling n s).ciph.counter handle gen lane).value = n.value ∧
      ((raiseCeiling n s).ciph.counter handle gen lane).ceiling = n.ceiling := by
  have asked (next : Option Nat) : (setCounter { n with next := next } s).ciph.counter handle gen lane = { n with next := next } :=
    counter_setCounter (n := { n with next := next }) filed s
  unfold raiseCeiling
  dsimp only
  split
  · rw [afterDurable_ciph, journal_ciph, asked]
    exact ⟨rfl, rfl⟩
  · rw [counter_setCounter filed]
    exact ⟨rfl, rfl⟩

section
variable {handle gen lane count : Nat} {s : State}

/-- A nonce is taken where the advanced counter stays within the ceiling (R252, R253). -/
theorem takeNonce_within
    (within : (s.ciph.counter handle gen lane).value + count ≤ (s.ciph.counter handle gen lane).ceiling) :
    takeNonce handle gen lane count s =
      (raiseCeiling { s.ciph.counter handle gen lane with value := count + (s.ciph.counter handle gen lane).value } s,
        some (nonceOf s.sys.chip lane (s.ciph.counter handle gen lane).value)) := by
  unfold takeNonce
  exact if_neg (by omega)

/-- A nonce is refused where the advanced counter would pass the ceiling (R253). -/
theorem takeNonce_beyond
    (beyond : (s.ciph.counter handle gen lane).ceiling < (s.ciph.counter handle gen lane).value + count) :
    takeNonce handle gen lane count s = (raiseCeiling (s.ciph.counter handle gen lane) s, none) := by
  unfold takeNonce
  exact if_pos (by omega)

theorem takeNonce_none_iff : (takeNonce handle gen lane count s).2 = none ↔
    (s.ciph.counter handle gen lane).ceiling < (s.ciph.counter handle gen lane).value + count := by
  by_cases beyond : (s.ciph.counter handle gen lane).ceiling < (s.ciph.counter handle gen lane).value + count
  · simp [takeNonce_beyond beyond, beyond]
  · simp [takeNonce_within (Nat.le_of_not_lt beyond), beyond]

/-- A refused nonce leaves the counter's value (R253). -/
theorem takeNonce_none_value (refused : (takeNonce handle gen lane count s).2 = none) :
    ((takeNonce handle gen lane count s).1.ciph.counter handle gen lane).value =
      (s.ciph.counter handle gen lane).value := by
  rw [takeNonce_beyond (takeNonce_none_iff.mp refused)]
  exact (counter_raiseCeiling (counter_filed ..) s).1

/-- A nonce that is taken carries the counter, which advances within its unchanged ceiling (R251 to R253). -/
theorem takeNonce_some {t : State} {n : Bytes} (taken : takeNonce handle gen lane count s = (t, some n)) :
    n = nonceOf s.sys.chip lane (s.ciph.counter handle gen lane).value ∧
      (t.ciph.counter handle gen lane).value = (s.ciph.counter handle gen lane).value + count ∧
      (t.ciph.counter handle gen lane).ceiling = (s.ciph.counter handle gen lane).ceiling ∧
      (s.ciph.counter handle gen lane).value + count ≤ (s.ciph.counter handle gen lane).ceiling := by
  have within : (s.ciph.counter handle gen lane).value + count ≤ (s.ciph.counter handle gen lane).ceiling := by
    refine Nat.le_of_not_lt fun beyond => ?_
    simp [takeNonce_beyond beyond] at taken
  rw [takeNonce_within within] at taken
  cases taken
  obtain ⟨value, ceiling⟩ := counter_raiseCeiling
    (n := { s.ciph.counter handle gen lane with value := count + (s.ciph.counter handle gen lane).value })
    (counter_filed ..) s
  exact ⟨rfl, value.trans (Nat.add_comm ..), ceiling, within⟩

end

/-- Settles O12: each nonce taken carries the counter before it, which stays below 2^80, so the ten bytes of two counters tell their
nonces apart. -/
theorem noncesDoNotRepeat : Obligations.NoncesDoNotRepeat := by
  refine ⟨fun s t u handle gen lane by1 by2 n m low pos1 pos2 first second => ?_,
    fun s handle gen lane count => ⟨takeNonce_none_iff, takeNonce_none_value⟩⟩
  obtain ⟨nonce1, value1, ceiling1, within1⟩ := takeNonce_some first
  obtain ⟨nonce2, value2, ceiling2, within2⟩ := takeNonce_some second
  refine ⟨fun same => ?_, nonce1, by omega, by omega, by omega⟩
  have counters := nonceOf_value_inj (by omega) (by omega) (nonce1.symm.trans (same.trans nonce2))
  omega

end Sys2Proof.Machine

namespace Sys2Proof.Machine

/-! ### Exclusive or of byte strings -/

@[simp] theorem length_xorBytes (a b : Bytes) : (xorBytes a b).length = min a.length b.length := List.length_zipWith

/-- A key stream as long as the text, applied twice, gives the text. -/
theorem xorBytes_cancel {text key : Bytes} (h : text.length ≤ key.length) : xorBytes (xorBytes text key) key = text := by
  refine List.ext_getElem (by simp [h]) fun i _ _ => ?_
  simp [xorBytes]

/-- Exclusive or with a key of two parts, the first of n bytes, splits the text after n bytes. -/
theorem xorBytes_append {n : Nat} (text : Bytes) {key : Bytes} (more : Bytes) (h : key.length = n) :
    xorBytes text (key ++ more) = xorBytes (text.take n) key ++ xorBytes (text.drop n) more := by
  subst h
  simp only [xorBytes]
  rw [← List.take_append_drop key.length (List.zipWith _ text (key ++ more)), List.take_zipWith, List.drop_zipWith]
  simp

/-! ### The key schedule and the block cipher of AES-256 -/

/-- A word of the schedule has the four bytes of the words that it comes from (FIPS 197). -/
theorem length_aesWord {prev back : Bytes} (i : Nat) (hp : prev.length = 4) (hb : back.length = 4) :
    (aesWord i prev back).length = 4 := by
  unfold aesWord
  extract_lets sub t
  have rotated : t.length = 4 := by
    simp only [t, sub]
    split_ifs <;> simp [hp]
  simp [rotated, hb]

/-- A schedule of i + 8 words with its next word, as `aesKeys` pushes it. -/
def nextWord (l : Array Bytes) (i : Nat) : Array Bytes := l.push (aesWord (i + 8) (l.getD (i + 7) []) (l.getD i []))

/-- A schedule of n words, each of four bytes. -/
def WordsOk (n : Nat) (l : Array Bytes) : Prop := l.size = n ∧ ∀ k, k < n → (l.getD k []).length = 4

theorem nextWord_ok {i : Nat} {l : Array Bytes} (h : WordsOk (i + 8) l) : WordsOk (i + 9) (nextWord l i) := by
  obtain ⟨size, words⟩ := h
  refine ⟨by simp [nextWord, size], fun k hk => ?_⟩
  rcases Nat.lt_or_eq_of_le (Nat.le_of_lt_succ hk) with old | rfl
  · have same : (nextWord l i).getD k [] = l.getD k [] := by
      simp [nextWord, Array.getD_eq_getD_getElem?, Array.getElem?_push, size, Nat.ne_of_lt old]
    rw [same]
    exact words k old
  · have new : (nextWord l i).getD (i + 8) [] = aesWord (i + 8) (l.getD (i + 7) []) (l.getD i []) := by
      rw [nextWord, Array.getD_eq_getD_getElem?, Array.getElem?_push, if_pos size.symm, Option.getD_some]
    rw [new]
    exact length_aesWord _ (words _ (by omega)) (words _ (by omega))

theorem nextWord_foldl_ok {l : Array Bytes} (h : WordsOk 8 l) (n : Nat) :
    WordsOk (n + 8) ((List.range n).foldl nextWord l) := by
  induction n with
  | zero => exact h
  | succ n ih =>
    rw [List.range_succ, List.foldl_append]
    exact nextWord_ok ih

/-- The eight words of a 32-byte key begin its schedule. -/
theorem keyWords_ok {key : Bytes} (h : key.length = 32) :
    WordsOk 8 ((List.range 8).map (fun i => slice key (4 * i) 4)).toArray := by
  refine ⟨by simp, fun k hk => ?_⟩
  simp [Array.getD_eq_getD_getElem?, hk, slice, h]
  omega

/-- Each of the 15 round keys of a 32-byte key has 16 bytes. -/
theorem length_aesKeys_getD {key : Bytes} (h : key.length = 32) {r : Nat} (hr : r < 15) :
    ((aesKeys key).getD r []).length = 16 := by
  have words := (nextWord_foldl_ok (keyWords_ok h) 52).2
  generalize schedule : (List.range 52).foldl nextWord _ = ws at words
  have column : (aesKeys key).getD r [] = ((List.range 4).map (fun i => ws.getD (4 * r + i) [])).flatten := by
    subst schedule
    simp only [aesKeys, List.getD_eq_getElem?_getD, List.getElem?_map, List.getElem?_range hr, Option.map_some,
      Option.getD_some]
    rfl
  have sizes : ∀ i ∈ List.range 4, (ws.getD (4 * r + i) []).length = 4 := fun i hi =>
    words _ (by have := List.mem_range.mp hi; omega)
  simp only [column, List.length_flatten, List.map_map, Function.comp_def, List.map_congr_left sizes]
  rfl

@[simp] theorem length_aesShift (back : Bool) (b : Bytes) : (aesShift back b).length = 16 := by simp [aesShift]

/-- A block is as long as the last round key makes it, up to 16 bytes. -/
theorem length_aesEnc (keys : List Bytes) (blk : Bytes) : (aesEnc keys blk).length = min 16 (keys.getD 14 []).length := by
  unfold aesEnc
  rw [List.range_succ, List.foldl_append]
  simp only [List.foldl_cons, List.foldl_nil, if_true, length_xorBytes, length_aesShift]

/-! ### GCM (R248, R267) -/

/-- Texts combined with a stream block by block are combined with the whole stream. -/
theorem xorBytes_blocks (n : Nat) (stream : Nat → Bytes) (h : ∀ i, (stream i).length = 16) (text : Bytes) :
    ((List.range n).map (fun i => xorBytes (slice text (16 * i) 16) (stream i))).flatten =
      xorBytes text ((List.range n).map stream).flatten := by
  induction n generalizing stream text with
  | zero => simp [xorBytes]
  | succ n ih =>
    have rest := ih (fun i => stream (i + 1)) (fun i => h (i + 1)) (text.drop 16)
    have later : ∀ i, slice text (16 * (i + 1)) 16 = slice (text.drop 16) (16 * i) 16 := fun i => by
      simp [slice, Nat.mul_add, Nat.add_comm]
    simp only [List.range_succ_eq_map, List.map_cons, List.map_map, List.flatten_cons, Function.comp_def,
      Nat.succ_eq_add_one, later]
    rw [rest, xorBytes_append text _ (h 0)]
    rfl

/-- The key stream of a nonce for a text of n bytes: its whole blocks, the counter from 2 on. -/
def gcmStream (keys : List Bytes) (nonce : Bytes) (n : Nat) : Bytes :=
  ((List.range (ceilDiv n 16)).map (fun i => aesEnc keys (nonce ++ beBytes 4 (i + 2)))).flatten

section
variable {keys : List Bytes} (blocks : ∀ b, (aesEnc keys b).length = 16)
include blocks

theorem gcmCrypt_eq (nonce text : Bytes) : gcmCrypt keys nonce text = xorBytes text (gcmStream keys nonce text.length) :=
  xorBytes_blocks _ _ (fun _ => blocks _) text

theorem le_length_gcmStream (nonce : Bytes) (n : Nat) : n ≤ (gcmStream keys nonce n).length := by
  have whole : (gcmStream keys nonce n).length = ceilDiv n 16 * 16 := by
    simp [gcmStream, List.length_flatten, Function.comp_def, blocks]
  rw [whole, ceilDiv]
  omega

theorem length_gcmCrypt (nonce text : Bytes) : (gcmCrypt keys nonce text).length = text.length := by
  rw [gcmCrypt_eq blocks, length_xorBytes, Nat.min_eq_left (le_length_gcmStream blocks nonce _)]

/-- Counter mode undoes itself. -/
theorem gcmCrypt_gcmCrypt (nonce text : Bytes) : gcmCrypt keys nonce (gcmCrypt keys nonce text) = text := by
  rw [gcmCrypt_eq blocks nonce (gcmCrypt keys nonce text), length_gcmCrypt blocks, gcmCrypt_eq blocks,
    xorBytes_cancel (le_length_gcmStream blocks nonce _)]

theorem length_gcmTag (nonce aad ct : Bytes) : (gcmTag keys nonce aad ct).length = 16 := by
  simp [gcmTag, blocks]

end

theorem gcmSeal_eq (key nonce aad text : Bytes) : gcmSeal key nonce aad text =
    (gcmCrypt (aesKeys key) nonce text, gcmTag (aesKeys key) nonce aad (gcmCrypt (aesKeys key) nonce text)) := by
  rw [gcmSeal]

theorem gcmOpen_tagged (key nonce aad ct : Bytes) :
    gcmOpen key nonce aad ct (gcmTag (aesKeys key) nonce aad ct) = some (gcmCrypt (aesKeys key) nonce ct) := by
  simp only [gcmOpen, if_true]

/-- Settles O22: the schedule of a 32-byte key makes every block of the stream whole, so counter mode keeps lengths and undoes itself,
and the tag is the one that opening computes. -/
theorem sealedTextOpens : Obligations.SealedTextOpens := by
  intro key nonce aad text size _
  have blocks : ∀ b, (aesEnc (aesKeys key) b).length = 16 := fun b => by
    rw [length_aesEnc, length_aesKeys_getD size (by decide), Nat.min_self]
  rw [gcmSeal_eq]
  dsimp only
  refine ⟨length_gcmCrypt blocks nonce text, length_gcmTag blocks nonce aad _, ?_⟩
  rw [gcmOpen_tagged, gcmCrypt_gcmCrypt blocks]

end Sys2Proof.Machine

namespace Sys2Proof.Machine

/-! ### Hall passes (R264 to R268) -/

section
variable {number : Nat} {start : Option CtxStart} {parts : List PassPart} {stored : Option Bytes} {x : CipherCtx} {s : State}

/-- A running context that no other waits behind keeps its lane (R264, R266). -/
theorem exec_hallPassEnd_keeps {key : Bytes} (there : s.ciph.passCtx number start = some x)
    (keyed : s.keyFor x.handle ((start.map (fun c => (c.gen, c.domain))).getD (0, 0)).1
      ((start.map (fun c => (c.gen, c.domain))).getD (0, 0)).2 = .inr key)
    (alone : (tallyAdd 0x08 4 1 s).ciph.turn (parts.foldl (CipherCtx.absorb key) x) = none) (message : x.stream = false) :
    exec (.hallPassEnd number start parts false stored) s =
      .next (setCipherCtx { parts.foldl (CipherCtx.absorb key) x with place := 0 } (tallyAdd 0x08 4 1 s)) := by
  change execHallPassEnd number start parts false stored s = _
  unfold execHallPassEnd
  rw [there]
  dsimp only
  rw [keyed]
  dsimp only
  rw [if_neg (by simp), if_neg (by simp [message]), alone]

/-- A message whose key is refused ends with that status (R247, R264). -/
theorem exec_hallPassEnd_refused {ended : Bool} {st : Status} {detail : Bytes} (there : s.ciph.passCtx number start = some x)
    (refused : s.keyFor x.handle ((start.map (fun c => (c.gen, c.domain))).getD (0, 0)).1
      ((start.map (fun c => (c.gen, c.domain))).getD (0, 0)).2 = .inl (st, detail)) :
    exec (.hallPassEnd number start parts ended stored) s = .next (emit (.engineReply (16 + x.island) number st detail [])
      (cipherStatus st x.lane (handleLocker x.handle) (dropCipherCtx number s))) := by
  change execHallPassEnd number start parts ended stored s = _
  unfold execHallPassEnd
  rw [there]
  dsimp only
  rw [refused]

end

/-! ### Segments and streams (R260 to R263) -/

section
variable {number : Nat} {start : CtxStart} {auth : StreamAuth} {header : Bytes} {s : State}

/-- A stream header that its check refuses ends the message (R260). -/
theorem exec_segmentVerify_badHeader {seg : Option SegmentIn} (bad : streamHeaderOk header = false) :
    exec (.segmentVerify number start auth header seg) s =
      .next (endMessage ((s.ciph.ctx number).getD (startCtx start number)) .pktFormat noDetail s) :=
  congrArg Host.Outcome.next (if_pos (by simp [bad]))

/-- A segment of a segmented message is taken under the key that its handle names (R260, R261). -/
theorem exec_segmentVerify_segmented {i : SegmentIn} {key : Bytes} (sound : streamHeaderOk header = true)
    (mode : fieldAt header 9 1 = 0)
    (keyed : s.keyFor ((s.ciph.ctx number).getD (startCtx start number)).handle (fieldAt header 0x0E 2)
      (fieldAt header 0x0C 2) = .inr key) :
    exec (.segmentVerify number start auth header (some i)) s =
      .next (takeSegment { (s.ciph.ctx number).getD (startCtx start number) with stream := false, segmented := true }
        key header i s) := by
  change execSegmentVerify number start auth header (some i) s = _
  unfold execSegmentVerify
  dsimp only
  rw [if_neg (by simp [sound]), if_neg (by simp [mode]), keyed, mode]
  rfl

/-- The tag of a message in stream mode fails (R263). -/
theorem exec_streamTagFail {x : CipherCtx} (there : s.ciph.ctx number = some x) (stream : x.stream = true) :
    exec (.streamTagFail number) s = .next (streamTagFail x s) := by
  change execStreamTagFail number s = _
  unfold execStreamTagFail
  rw [there]
  exact congrArg _ (if_pos stream)

end

/-! ### Digest contexts (R271 to R273) -/

section
variable {number : Nat} {d : DigestCtx} {s : State}

/-- The lowest free context of the requester's range becomes Open with a function that takes no key (R271, R272). -/
theorem exec_digestOpen_unkeyed {prefect : Bool} {fn : DigestFn} {handle gen n : Nat} {custom : Bytes}
    (free : (digestRange prefect).find? (fun n => (s.ciph.digest n).isNone) = some n) (unkeyed : fnKeyed fn = false) :
    exec (.digestOpen prefect fn handle gen custom) s = .next (emit (.engineReply 18 n .ok noDetail [])
      (tallyAdd 0x09 1 1 (setDigest ⟨n, 1, fn, handle, gen, custom, [], 0⟩ s))) := by
  change execDigestOpen prefect fn handle gen custom s = _
  unfold execDigestOpen
  rw [free, unkeyed]
  rfl

/-- No context of the requester's range is free (R272). -/
theorem exec_digestOpen_full {prefect : Bool} {fn : DigestFn} {handle gen : Nat} {custom : Bytes}
    (full : (digestRange prefect).find? (fun n => (s.ciph.digest n).isNone) = none) :
    exec (.digestOpen prefect fn handle gen custom) s =
      .next (digestError 0 .digestCtxFull (detailOf [(2, s.free % 65536)]) [] (drawn 1 s)) := by
  change execDigestOpen prefect fn handle gen custom s = _
  unfold execDigestOpen
  rw [full]

/-- An Open context absorbs data, counted in pages (R272). -/
theorem exec_digestAbsorb_open {data : Bytes} (there : s.ciph.digest number = some d) (isOpen : d.state = 1) :
    exec (.digestAbsorb number data) s = .next (emit (.engineReply 18 number .ok noDetail [])
      (tallyAdd 0x09 0 ((d.data.length + data.length) / 4096 - d.data.length / 4096)
        (setDigest { d with data := d.data ++ data } s))) := by
  change execDigestAbsorb number data s = _
  unfold execDigestAbsorb
  rw [there]
  exact congrArg _ (if_pos isOpen)

/-- An Open context becomes Final (R272). -/
theorem exec_digestFinalise_open (there : s.ciph.digest number = some d) (isOpen : d.state = 1) :
    exec (.digestFinalise number) s =
      .next (emit (.engineReply 18 number .ok noDetail []) (setDigest { d with state := 2 } s)) := by
  change execDigestFinalise number s = _
  unfold execDigestFinalise
  rw [there]
  exact congrArg _ (if_pos isOpen)

/-- A context that is not Open is not finalised (R272). -/
theorem exec_digestFinalise_notOpen (there : s.ciph.digest number = some d) (other : d.state ≠ 1) :
    exec (.digestFinalise number) s = .next (digestError number .digestNotOpen (detailOf [(1, number)]) [] s) := by
  change execDigestFinalise number s = _
  unfold execDigestFinalise
  rw [there]
  exact congrArg _ (if_neg other)

/-- A Final context of a function that takes no key gives output and reads on (R272, R273). -/
theorem exec_digestRead_final {length : Nat} (there : s.ciph.digest number = some d) (final : d.state = 2)
    (unkeyed : fnKeyed d.fn = false) :
    exec (.digestRead number length) s = .next (emit (.engineReply 18 number .ok noDetail
      (digestOutput d.fn [] d.custom d.data d.read length)) (setDigest { d with read := d.read + length } s)) := by
  change execDigestRead number length s = _
  unfold execDigestRead
  rw [there]
  dsimp only
  rw [if_pos final, unkeyed]
  rfl

/-- A context that is not Final gives zeros (R272). -/
theorem exec_digestRead_notFinal {length : Nat} (there : s.ciph.digest number = some d) (other : d.state ≠ 2) :
    exec (.digestRead number length) s =
      .next (digestError number .digestNotFinal (detailOf [(1, number)]) (zeros length) s) := by
  change execDigestRead number length s = _
  unfold execDigestRead
  rw [there]
  exact congrArg _ (if_neg other)

end

/-! ### Measurement registers (R276, R277) -/

section
variable {reg : Nat} {data : Bytes} {s : State}

/-- Faculty's request outside its range is denied (R277). -/
theorem exec_mrExtend_denied (outside : reg < 16 ∨ 31 < reg) :
    exec (.mrExtend true reg data) s = .next (emit (.engineReply 0 reg .mregDenied (detailOf [(1, reg)]) []) s) :=
  congrArg Host.Outcome.next (if_pos ⟨rfl, outside⟩)

/-- A register in the requester's range is extended by 1 to 4,096 bytes (R276). -/
theorem exec_mrExtend {faculty : Bool} (range : faculty = false ∨ 16 ≤ reg) (below : reg < 32) (some_ : 1 ≤ data.length)
    (most : data.length ≤ 4096) :
    exec (.mrExtend faculty reg data) s = .next (emit (.engineReply 0 reg .ok noDetail []) (extendMr reg data s)) := by
  have allowed : ¬(faculty = true ∧ (reg < 16 ∨ 31 < reg)) := by
    rintro ⟨rfl, outside⟩
    simp only [Bool.true_eq_false, false_or] at range
    omega
  exact congrArg Host.Outcome.next ((if_neg allowed).trans (if_pos ⟨below, some_, most⟩))

end

/-- Settles O35: each command's row, its context looked up and its checks passed or failed as the premises say. -/
theorem hallPassAndDigestCommands : Obligations.HallPassAndDigestCommands := by
  unfold Obligations.HallPassAndDigestCommands
  refine ⟨?keeps, ?keyRefused, ?badHeader, ?segment, ?tagFail, ?opens, ?full, ?absorb, ?finalise, ?notOpen, ?read, ?notFinal, ?close,
    ?denied, ?extend⟩
  case keeps => exact fun _ _ _ _ _ _ _ => exec_hallPassEnd_keeps
  case keyRefused => exact fun _ _ _ _ _ _ _ _ _ => exec_hallPassEnd_refused
  case badHeader =>
    intro number start auth header seg x s ctx bad
    subst ctx
    exact exec_segmentVerify_badHeader bad
  case segment =>
    intro number start auth header seg x i key s ctx sound mode keyed given
    subst ctx given
    exact exec_segmentVerify_segmented sound mode keyed
  case tagFail => exact fun _ _ _ => exec_streamTagFail
  case opens => exact fun _ _ _ _ _ _ _ => exec_digestOpen_unkeyed
  case full => exact fun _ _ _ _ _ _ => exec_digestOpen_full
  case absorb => exact fun _ _ _ _ => exec_digestAbsorb_open
  case finalise => exact fun _ _ _ => exec_digestFinalise_open
  case notOpen => exact fun _ _ _ => exec_digestFinalise_notOpen
  case read => exact fun _ _ _ _ => exec_digestRead_final
  case notFinal => exact fun _ _ _ _ => exec_digestRead_notFinal
  case close => exact fun number s => .of (execDigestClose_led number (.refl _ s) rfl) ⟨_, rfl, rfl, rfl⟩
  case denied =>
    exact fun reg data s outside => .of (execMrExtend_led true reg data (.refl _ s) rfl)
      ⟨_, exec_mrExtend_denied outside, rfl, rfl⟩
  case extend => exact fun _ _ _ _ => exec_mrExtend

end Sys2Proof.Machine

namespace Sys2Proof.Machine

/-! ### Lockers (R234, R242 to R244) -/

section
variable {b : Binding} {tag gen : Nat} {peer : PeerAnswer} {p : Packet} {s : State}

/-- A locker that is or will be Open has a new generation from the change bell (R243). -/
theorem exec_lockerRotate_open (h : s.cpi.packet b tag 0x0702 = some p)
    (ahead : (s.ciph.locker (p.param 0 2)).ahead = (.isOpen, gen)) (room : gen < 65535)
    (agrees : s.paired = true → peer.status = .ok) (awaited : s.awaitsAlone = false) :
    exec (.lockerRotate b tag peer) s = .next (changed p (fields [(2, gen + 1), (6, 0)])
      (changeLocker (p.param 0 2) .isOpen (gen + 1) (pairBase p s))) := by
  refine (onPacket_next h : execLockerRotate b tag peer s = _).trans (congrArg _ ?_)
  dsimp only
  rw [ahead]
  dsimp only
  rw [if_neg (by simp; omega), pairWide_ok agrees awaited]

/-- A locker that is Unbound has no generation to raise (R243). -/
theorem exec_lockerRotate_unbound (h : s.cpi.packet b tag 0x0702 = some p)
    (ahead : (s.ciph.locker (p.param 0 2)).ahead = (.unbound, gen)) :
    exec (.lockerRotate b tag peer) s = .next (refuseLocker p .unbound s) := by
  refine (onPacket_next h : execLockerRotate b tag peer s = _).trans (congrArg _ ?_)
  dsimp only
  rw [ahead]
  exact if_pos (by simp)

/-- The withdrawal of an Open locker is noted with its packet, whose reply waits (R244). -/
theorem exec_lockerWithdraw_open {t : State} (h : s.cpi.packet b tag 0x0703 = some p)
    (ahead : (s.ciph.locker (p.param 0 2)).ahead = (.isOpen, gen)) (agrees : s.paired = true → peer.status = .ok)
    (awaited : s.awaitsAlone = false) (closed : t = changeLocker (p.param 0 2) .withdrawn gen (pairBase p s)) :
    exec (.lockerWithdraw b tag peer) s = .next { t with ciph := { t.ciph with
      withdrawing := t.ciph.withdrawing ++ [(p.param 0 2, (p.binding, p.tag))] } } := by
  subst closed
  refine (onPacket_next h : execLockerWithdraw b tag peer s = _).trans (congrArg _ ?_)
  dsimp only
  rw [ahead]
  dsimp only
  rw [if_neg (by simp), pairWide_ok agrees awaited]

/-- The change of a locker at the next bell leaves the withdrawals that wait. -/
theorem changeLocker_withdrawing (d : Nat) (st : LockerState) (gen : Nat) (s : State) :
    (changeLocker d st gen s).ciph.withdrawing = s.ciph.withdrawing := rfl

/-- A Withdrawn locker whose withdrawal has ended is Open again from the change bell (R244). -/
theorem exec_lockerRestore_withdrawn (h : s.cpi.packet b tag 0x0704 = some p)
    (ahead : (s.ciph.locker (p.param 0 2)).ahead = (.withdrawn, gen))
    (ended : s.ciph.withdrawing.any (fun w => w.1 == p.param 0 2) = false) (agrees : s.paired = true → peer.status = .ok)
    (awaited : s.awaitsAlone = false) :
    exec (.lockerRestore b tag peer) s =
      .next (changed p [] (changeLocker (p.param 0 2) .isOpen gen (pairBase p s))) := by
  refine (onPacket_next h : execLockerRestore b tag peer s = _).trans (congrArg _ ?_)
  dsimp only
  rw [ahead]
  dsimp only
  rw [if_neg (by simp [ended]), pairWide_ok agrees awaited]

end

/-- Settles O36: a change of a locker follows the state that it is about to have, and is made once both heads have agreed on it. -/
theorem lockerCommands : Obligations.LockerCommands := by
  unfold Obligations.LockerCommands
  refine ⟨?rotate, ?rotateUnbound, ?withdraw, ?restore, ?query⟩
  case rotate =>
    exact fun b tag peer p gen s h ahead room agrees awaited => .of (execLockerRotate_led b tag peer (.refl _ s) rfl)
      ⟨_, exec_lockerRotate_open h ahead room agrees awaited, changed_replied .., changed_ciph ..⟩
  case rotateUnbound => exact fun _ _ _ _ _ _ => exec_lockerRotate_unbound
  case withdraw =>
    refine fun b tag peer p gen s h ahead agrees awaited => .of (execLockerWithdraw_led b tag peer (.refl _ s) rfl)
      ⟨_, exec_lockerWithdraw_open h ahead agrees awaited rfl, ?_⟩
    rw [State.with_ciph_ciph, changeLocker_withdrawing, pairBase_ciph]
  case restore =>
    exact fun b tag peer p gen s h ahead ended agrees awaited => .of (execLockerRestore_led b tag peer (.refl _ s) rfl)
      ⟨_, exec_lockerRestore_withdrawn h ahead ended agrees awaited, changed_replied .., changed_ciph ..⟩
  case query =>
    exact fun b tag p s h => .of (execLockerQuery_led b tag (.refl _ s) rfl)
      ⟨_, (onPacket_next h : execLockerQuery b tag s = _), answered_replied .., answered_ciph ..⟩

end Sys2Proof.Machine

namespace Sys2Proof.Machine

/-! ### Physical slot addresses (R279) -/

section
variable {bay die block : Nat}

@[simp] theorem blkBay_blkKey (hd : die < 2048) (hb : block < 8192) : blkBay (blkKey bay die block) = bay := by
  unfold blkBay blkKey
  omega

@[simp] theorem blkDie_blkKey (hd : die < 2048) (hb : block < 8192) : blkDie (blkKey bay die block) = die := by
  unfold blkDie blkKey
  omega

@[simp] theorem blkNo_blkKey (hb : block < 8192) : blkNo (blkKey bay die block) = block := by
  unfold blkNo blkKey
  omega

/-- The fields of Table 8-1 in their places. -/
theorem psaOf_blkKey {page quarter tier stamp : Nat} (hd : die < 2048) (hb : block < 8192) :
    psaOf (blkKey bay die block) page quarter tier stamp = 2 ^ 58 * bay + 2 ^ 47 * die + 2 ^ 34 * block + 2 ^ 22 * page +
      2 ^ 20 * quarter + 2 ^ 18 * (tier - 1) + stamp % 2 ^ 18 := by
  rw [psaOf, blkBay_blkKey hd hb, blkDie_blkKey hd hb, blkNo_blkKey hb]

end

/-- Settles O9: the PSA is a sum of fields in their places, each below the next one's place. -/
theorem physicalSlotAddress : Obligations.PhysicalSlotAddress := by
  intro module die block page quarter tier stamp hm hd hb hp hq _ ht
  rw [psaOf_blkKey hd hb]
  refine ⟨by omega, ?_, ?_, ?_, ?_, ?_, ?_, bitField_from_zero 17 _ |>.trans (by omega)⟩
  all_goals rw [bitField]; omega

end Sys2Proof.Machine

namespace Sys2Proof.Machine

/-! ### Checkpoints, garbage collection and reads that resolve again (R303, R308 to R311, R345) -/

section
variable {s : State}

/-- Once the directory is written and no programme of a metadata page is under way, phase 2 is recorded (R303). -/
theorem exec_checkpointPhase2 {mpa : Nat} (dir : s.ftl.ckptDir = some mpa) (first : s.ftl.checkpoint = 1) (idle : s.metaBusy = false) :
    exec .checkpointPhase2 s = .next (afterDurable s.epoch .checkpoint
      (journal (.checkpoint 2 mpa) { s with ftl := { s.ftl with checkpoint := 2 } })) := by
  change execCheckpointPhase2 s = _
  unfold execCheckpointPhase2
  rw [dir]
  exact whenDue_pos ⟨first, idle⟩

/-- With no block to refresh and none to level, the victim is the Full block of the highest score (R309, R310). -/
theorem exec_gcStart_score {bay die blk : Nat}
    (none_ : (s.fullBlocks bay die).filter (fun b => s.refreshDue b || s.wearCandidate b) = [])
    (best : ((s.fullBlocks bay die).filter (fun b => (s.ftl.ledger b).live < s.blockUnits bay)).find? (fun b =>
      ((s.fullBlocks bay die).filter (fun b => (s.ftl.ledger b).live < s.blockUnits bay)).all (fun c => s.scoreGe b c)) = some blk)
    (mine : (s.dataForms bay).any (fun f => s.formAt bay die == some f) = true)
    (few : (s.freeBlocks bay die (s.blocksPerDie bay)).length < 8)
    (still : s.ftl.moves.all (fun m => !(blkBay m.blk == bay && blkDie m.blk == die)) = true) :
    exec (.gcStart bay die) s = .next (startMove blk 1 s) := by
  change execGcStart bay die s = _
  unfold execGcStart
  dsimp only
  rw [none_, if_pos rfl, best]
  exact whenDue_pos ⟨mine, few, still⟩

/-- A read whose die read still waits is posted anew, for the place that its slot has now (R308). -/
theorem exec_psaResolveAgain {job psa : Nat} {r : SlotRead} {mine : DieOp → Bool} (there : s.jobs.read job = some r)
    (reads : r.stage = .die) (late : r.postBy ≤ s.tt.now) (now : psa = ((s.ftl.ctRec r.cid).map (·.psa)).getD r.psa)
    (its : mine = (fun o => match DieOp.use o with | .slot j _ => j == job | _ => false)) (waits : s.bay.waiting.any mine = true) :
    exec (.psaResolveAgain job) s = .next (postRead { r with psa := psa, postBy := s.tt.now + 64 }
      (setRead { r with psa := psa, postBy := s.tt.now + 64 } { s with
        bay := { s.bay with waiting := s.bay.waiting.filter (fun o => !mine o) }
        ftl := { s.ftl with pinned := s.ftl.pinned.map (fun p => if p.2 == job then (psaBlk psa, job) else p) } })) := by
  subst now its
  change execPsaResolveAgain job s = _
  unfold execPsaResolveAgain
  rw [there]
  exact whenDue_pos ⟨reads, late, waits⟩

end

/-- Settles O37: each event is due under its premises, and answers what it then does. -/
theorem flashBackgroundCommands : Obligations.FlashBackgroundCommands := by
  unfold Obligations.FlashBackgroundCommands
  refine ⟨?start, ?phase2, ?stripes, ?collect, ?erase, ?resolve, ?retention, ?calibrate, ?refresh, ?token, ?spare⟩
  case start =>
    exact fun s pool idle due => .of (execCheckpointStart_led (.refl _ s) rfl)
      ⟨_, whenDue_pos ⟨pool, idle, due⟩, rfl, rfl, rfl, rfl, rfl, rfl⟩
  case phase2 => exact fun _ _ => exec_checkpointPhase2
  case stripes =>
    intro u w gs mpa s pool idle late groups begun written
    subst groups begun
    refine (whenDue_pos ⟨pool, idle, late⟩ : execSjCheckpointStart s = _).trans ?_
    dsimp only at written ⊢
    rw [written]
  case collect => exact fun _ _ _ _ => exec_gcStart_score
  case erase => exact fun _ s listed unpinned pending => whenDue_pos ⟨listed, unpinned, pending⟩
  case resolve => exact fun _ _ _ _ _ => exec_psaResolveAgain
  case retention => exact fun s boundary pool => whenDue_pos ⟨boundary, pool⟩
  case calibrate => exact fun _ _ s due own idle => whenDue_pos ⟨due, own, idle⟩
  case refresh => exact fun _ s full own due => whenDue_pos ⟨full, own, due⟩
  case token => exact fun s waits late => whenDue_pos ⟨waits, late⟩
  case spare => exact fun s => .of (execSpareStateChange_led (.refl _ s) rfl) ⟨_, rfl, rfl, rfl, rfl⟩

end Sys2Proof.Machine

namespace Sys2Proof.Machine

/-! ### Completions of the bridges (R307, R314, R398, R401, R402, R404, R408, R412, R413, R478) -/

section
variable {d : BlpDone} {op : DieOp} {data tags : Bytes} {s : State}

/-- FENCE_STALE asks for nothing but what its own operation does (Table 11-6). -/
theorem onDone_stale {n : Nat} {f : DieOp → State → State} (there : s.bay.find d.bay d.tag = some op) (its : op.opcode = n)
    (stale : d.status = 0x0A) : onDone d n f s = .next (f op (takeDone op d s)) := by
  have again : bridgeStatus op 0x0A (takeDone op d s) = (false, takeDone op d s) := rfl
  simp [onDone, there, its, stale, again]

/-- The data of a slot's quarters come to the read that waits for them (R402). -/
theorem exec_blpReadComplete_slot {job source : Nat} {r : SlotRead} (there : s.bay.find d.bay d.tag = some op) (reads : op.opcode = 1)
    (use_ : op.use = .slot job source) (ok : d.status = 0) (waits : s.jobs.read job = some r) :
    exec (.blpReadComplete d data tags) s = .next (slotArrived r source data tags (noteRead op d (takeDone op d s))) := by
  change execBlpReadComplete d data tags s = _
  unfold execBlpReadComplete
  rw [there]
  simp [reads, ok, bridgeStatus_low, use_, waits]

/-- A metadata page that was read is opened (R402). -/
theorem exec_blpReadComplete_metadata {root page : Nat} {u : State} (there : s.bay.find d.bay d.tag = some op) (reads : op.opcode = 1)
    (use_ : op.use = .metadata root page) (ok : d.status = 0) (noted : u = noteRead op d (takeDone op d s)) :
    exec (.blpReadComplete d data tags) s =
      .next (metaArrived root page (u.openMeta (u.ftl.mpaOfPage root page) data tags) u) := by
  subst noted
  change execBlpReadComplete d data tags s = _
  unfold execBlpReadComplete
  rw [there]
  simp [reads, ok, bridgeStatus_low, use_]

/-- A programme that its bridge took ends, well or not (R314, R401). -/
theorem exec_blpProgramComplete (there : s.bay.find d.bay d.tag = some op) (writes : op.opcode = 2) (low : d.status ≤ 4) :
    exec (.blpProgramComplete d) s = .next (programEnded op (d.status == 0) (takeDone op d s)) := by
  change execBlpProgramComplete d s = _
  unfold execBlpProgramComplete
  rw [there]
  simp [writes, bridgeStatus_low _ _ _ low]

/-- An erased block is Free, with one more erasure (R307); one whose erase did not verify is retired (R314). -/
theorem exec_blpEraseComplete (there : s.bay.find d.bay d.tag = some op) (erases : op.opcode = 3) (use_ : op.use = .erase)
    (low : d.status ≤ 4) {blk : Nat} {u : State} (its : blk = blkKey op.bay op.die op.block) (taken : u = takeDone op d s) :
    exec (.blpEraseComplete d) s = .next (
      if d.status = 0 then
        tallyAdd 0x0A 5 1 (setBlkState blk .free (setOwnLedger blk { u.ftl.ledger blk with pe := (u.ftl.ledger blk).pe + 1, live := 0 } u))
      else if d.status = 4 then retireBlock blk 2 u
      else { u with ftl := { u.ftl with erasable := u.ftl.erasable ++ [(blk, u.tt.now)] } }) := by
  subst its taken
  change execBlpEraseComplete d s = _
  unfold execBlpEraseComplete
  rw [there]
  dsimp only
  rw [if_neg (not_not.mpr erases), bridgeStatus_low _ _ _ low, if_neg Bool.false_ne_true, use_]
  dsimp only
  rw [← apply_ite Host.Outcome.next, ← apply_ite Host.Outcome.next]

/-- The result of a calibration goes to the block's ledger entry, and the block is due no more (R404). -/
theorem exec_blpCalibrateComplete {offsets counts : List Nat} {u : State} (there : s.bay.find d.bay d.tag = some op)
    (calibrates : op.opcode = 7) (use_ : op.use = .calibrate) (ok : d.status = 0) (taken : u = takeDone op d s) :
    exec (.blpCalibrateComplete d offsets counts) s =
      .next (setLedger (blkKey op.bay op.die op.block) { u.ftl.ledger (blkKey op.bay op.die op.block) with
          offsets := (offsets ++ List.replicate 16 0).take 16
          calDay := u.day % 2 ^ 32
          ratio := 0 } { u with
        ftl := { u.ftl with
          fullDue := u.ftl.fullDue.filter (· != blkKey op.bay op.die op.block)
          calibrated := if u.ftl.calibrated.contains (blkKey op.bay op.die op.block) then u.ftl.calibrated
            else u.ftl.calibrated ++ [blkKey op.bay op.die op.block] } }) := by
  subst taken
  change execBlpCalibrateComplete d offsets counts s = _
  unfold execBlpCalibrateComplete
  rw [there]
  simp [calibrates, bridgeStatus_low, use_, ok]

/-- A diagnostic operation answers its packet (R398). -/
theorem endDiag_diag {b : Binding} {tag : Nat} {result payload : Bytes} (use_ : op.use = .diag b tag) :
    endDiag result payload op s = answerDiag b tag result payload s := by
  simp only [endDiag, use_]

/-- A telemetry page 0 gives the bay its identity and asks for its superblock ring, or is refused (R408, R416). -/
theorem exec_blpTelemetryComplete_identity {page : Bytes} {u : State} (there : s.bay.find d.bay d.tag = some op) (asks : op.opcode = 8)
    (use_ : op.use = .telemetry) (ok : d.status = 0) (first : op.selector = 0) (taken : u = takeDone op d s) :
    exec (.blpTelemetryComplete d page) s = .next (
      if identityOk page then queueOp (blkOp 1 (blkKey op.bay 0 0) 0 15 0 .ring [])
        (setBay op.bay { u.bay.bayOf op.bay with ident := some (identityOf page), found := none } u)
      else identityRefused op.bay u) := by
  subst taken
  refine (onDone_next there asks (by omega) : execBlpTelemetryComplete d page s = _).trans ?_
  simp only [use_, ok, first, ne_eq, not_true_eq_false, if_false, if_true]

/-- Under this head's port the form goes on, under the epoch that its status shows (R413, R478). -/
theorem exec_blpStatusComplete_own {record : Bytes} {f : Nat} {u : State} (there : s.bay.find d.bay d.tag = some op)
    (asks : op.opcode = 6) (ok : d.status = 0) (use_ : op.use = .statusOf f) (own : fieldAt record 2 1 = s.sys.slot)
    (taken : u = takeDone op d s) :
    exec (.blpStatusComplete d record) s = .next { u with bay := { u.bay with
      halted := u.bay.halted.filter (· != f)
      fences := putKey f (fieldAt record 8 8) u.bay.fences
      waiting := u.bay.waiting.map (fun o =>
        if u.formAt o.bay o.die == some f && o.opcode != 9 then { o with fence := fieldAt record 8 8 } else o) } } := by
  subst taken
  refine (onDone_next there asks (by omega) : execBlpStatusComplete d record s = _).trans ?_
  simp only [use_, ok, takeDone_sys, own, ne_eq, not_true_eq_false, if_false, if_true]
  rfl

/-- The forms carry the epoch that a FENCE has set (R412). -/
theorem exec_blpFenceComplete_set {forms : List Nat} {u : State} (there : s.bay.find d.bay d.tag = some op) (fences : op.opcode = 9)
    (use_ : op.use = .fence forms) (ok : d.status = 0) (taken : u = takeDone op d s) :
    exec (.blpFenceComplete d) s = .next { u with bay := { u.bay with
      fences := forms.foldl (fun l f => putKey f op.fence l) u.bay.fences } } := by
  subst taken
  refine (onDone_next there fences (by omega) : execBlpFenceComplete d s = _).trans ?_
  simp only [use_, ok, if_true]

/-- A stale FENCE halts each of its forms (R413, R478). -/
theorem exec_blpFenceComplete_stale {forms : List Nat} (there : s.bay.find d.bay d.tag = some op) (fences : op.opcode = 9)
    (use_ : op.use = .fence forms) (stale : d.status = 0x0A) :
    exec (.blpFenceComplete d) s = .next (forms.foldl (fun t f => haltForm f t) (takeDone op d s)) := by
  refine (onDone_stale there fences stale : execBlpFenceComplete d s = _).trans ?_
  simp [use_, stale]

end

/-- Settles O39: a completion in good order is taken from the ring and comes to what its operation was for; the frames are those of
`Laws/`. -/
theorem bridgeCompletionCommands : Obligations.BridgeCompletionCommands := by
  unfold Obligations.BridgeCompletionCommands
  refine ⟨?slot, ?metadata, ?program, ?erased, ?worn, ?suspend, ?resume, ?status, ?calibrate, ?identity, ?unknown, ?fence, ?stale⟩
  case slot => exact fun _ _ _ _ _ _ _ _ => exec_blpReadComplete_slot
  case metadata => exact fun _ _ _ _ _ _ _ _ => exec_blpReadComplete_metadata
  case program => exact fun _ _ _ => exec_blpProgramComplete
  case erased =>
    intro d op blk u s there erases use_ ok its taken
    rw [exec_blpEraseComplete there erases use_ (by omega) its taken, if_pos ok]
  case worn =>
    intro d op s there erases use_ failed
    rw [exec_blpEraseComplete there erases use_ (by omega) rfl rfl, if_neg (by omega), if_pos failed]
  case suspend =>
    exact fun d op b tag s there asks low use_ =>
      (onDone_next there asks low : execBlpSuspendComplete d s = _).trans (congrArg _ (endDiag_diag use_))
  case resume =>
    exact fun d op b tag s there asks low use_ =>
      (onDone_next there asks low : execBlpResumeComplete d s = _).trans (congrArg _ (endDiag_diag use_))
  case status =>
    exact fun d record op f u s there asks ok use_ own taken => .of (execBlpStatusComplete_led d record (.refl _ s) rfl)
      ⟨_, exec_blpStatusComplete_own there asks ok use_ own taken, rfl, rfl⟩
  case calibrate => exact fun _ _ _ _ _ _ => exec_blpCalibrateComplete
  case identity =>
    intro d page op u s there asks use_ ok first known taken
    rw [exec_blpTelemetryComplete_identity there asks use_ ok first taken, if_pos known]
  case unknown =>
    intro d page op s there asks use_ ok first unknown
    rw [exec_blpTelemetryComplete_identity there asks use_ ok first rfl, unknown, if_neg Bool.false_ne_true]
  case fence =>
    exact fun d op forms s there fences use_ ok => .of (execBlpFenceComplete_led d (.refl _ s) rfl)
      ⟨_, exec_blpFenceComplete_set there fences use_ ok rfl, rfl⟩
  case stale => exact fun _ _ _ _ => exec_blpFenceComplete_stale

end Sys2Proof.Machine

namespace Sys2Proof.Machine

/-! ### The Corridor's link (R467 to R471, R474) -/

section
variable {pool : Bytes} {slot failed inverted : Nat} {reversed : Bool} {s : State}

/-- A link that leads back to this head's own port is refused (R468). -/
theorem exec_corridorTrain_own (down : s.corr.link ≤ 1) (lanes : failed ≤ 32) :
    exec (.corridorTrain true pool slot failed reversed inverted) s = .next (refuseLink 4 2 (sendToken s)) :=
  (whenDue_pos ⟨down, lanes⟩ : execCorridorTrain true pool slot failed reversed inverted s = _)

/-- With no group of 8 lanes whole the link stays down (R471). -/
theorem exec_corridorTrain_dead {u : State} (down : s.corr.link ≤ 1) (dead : 25 ≤ failed) (lanes : failed ≤ 32)
    (other : slot ≠ s.sys.slot) (noPool : s.pool = none) (sent : u = sendToken s) :
    exec (.corridorTrain false pool slot failed reversed inverted) s = .next (corrEvent 4 { u with corr := { u.corr with
      reversed := reversed, inverted := inverted, lanes := 0, fault := false, helloSeen := false, daysKnown := false, link := 0 } }) := by
  subst sent
  have none_ : 32 - 8 * ceilDiv failed 8 = 0 := by unfold ceilDiv; omega
  refine (whenDue_pos ⟨down, lanes⟩ : execCorridorTrain false pool slot failed reversed inverted s = _).trans ?_
  simp only [Bool.false_eq_true, if_false, sendToken_pool, noPool, Option.any_none, sendToken_sys, other, or_self, none_, if_true]

/-- With all lanes whole the link is up: what waits is sent again, and a leader that offers no channel exchanges its marks (R467, R474). -/
theorem exec_corridorTrain_whole {u v : State} (down : s.corr.link ≤ 1) (other : slot ≠ s.sys.slot) (noPool : s.pool = none)
    (sent : v = sendToken s)
    (up : u = resendAll { v with corr := { v.corr with
      reversed := reversed, inverted := inverted, lanes := 32, fault := false, helloSeen := false, daysKnown := false, link := 2
      lastFull := v.day } })
    (leads : u.leads = true) (offers : u.pairOfferer = false) (serves : u.pwr.stage ≠ .joining) :
    exec (.corridorTrain false pool slot 0 reversed inverted) s = .next (exchangeMarks u) := by
  subst sent
  refine (whenDue_pos ⟨down, Nat.zero_le 32⟩ : execCorridorTrain false pool slot 0 reversed inverted s = _).trans ?_
  have all_ : 32 - 8 * ceilDiv 0 8 = 32 := rfl
  dsimp only at up ⊢
  rw [if_neg Bool.false_ne_true, if_neg (by simp [noPool, other])]
  simp only [all_, OfNat.ofNat_ne_zero, Nat.lt_irrefl, if_false, if_true]
  rw [← up, if_pos leads, offers, if_neg Bool.false_ne_true, if_neg serves]

/-- The head that leads answers with its own day and cycle, once it has compared the day counts (R42, R474). -/
theorem exec_bellSync_leader {day sendCycle echoed here : Nat} {u : State} (taken : s.drops (.bellSync day sendCycle echoed) = false)
    (leads : s.leads = true) (known : u = { tallyAdd 0x0D 1 1 s with corr := { s.corr with daysKnown := true } }) :
    exec (.bellSync day sendCycle echoed here) s =
      .next (send (.bellSync s.day (here % 4000) (here % 4000)) (compareDays day u)) := by
  subst known
  exact (onWord_next taken : execBellSync day sendCycle echoed here s = _).trans (congrArg _ (if_pos leads))

end

/-! ### Messages between the heads (R119, R290, R293, R297, R380, R427, R491, R519 to R521) -/

section
variable {number : Nat} {m : Sent} {u s : State}

/-- The peer's answer to this head's fence of a snapshot group gives it the bell to cut at (R427). -/
theorem exec_snapFence_answer {tag bell : Nat} {roots : List Nat} {g : SnapGroup} (taken : s.drops (.snapFence tag bell roots) = false)
    (new : getKey number s.corr.answered = none)
    (asked : s.corr.answerOf (fun b => match b with | .snapFence t _ _ => t == tag | _ => false) = some m)
    (settled : u = settleNumber m.number (tallyAdd 0x0D 1 1 s)) (there : u.repl.groups.find? (fun g => g.tag == tag) = some g)
    (waits : g.cut = false) :
    exec (.snapFence number tag bell roots) s = .next (fenceBell (setGroupOf { g with fence := some bell } u)) := by
  subst settled
  refine (onMessage_next taken new : execSnapFence number tag bell roots s = _).trans (congrArg _ ?_)
  rw [tallyAdd_corr]
  split
  next m' found =>
    cases asked.symm.trans found
    dsimp only
    rw [there]
    exact if_neg (by simp [waits])
  next unasked => cases asked.symm.trans unasked

/-- A record of the peer's journal that seals no epoch goes to the mirror and takes effect here, and is acknowledged (R293, R297). -/
theorem exec_journal_record {r : JRec} (taken : s.drops (.journal [r]) = false) (new : getKey number s.corr.answered = none)
    (open_ : ∀ n c, r.body ≠ .epochSeal n c) :
    exec (.journal number [r]) s = .next (advanceDurable (reply number (.journalAck number) (wake true (ownerActs r (applyRec r
      (dropLive r (bringForward r { tallyAdd 0x0D 1 1 s with ftl := { s.ftl with mirror := s.ftl.mirror ++ [r] } }))))))) := by
  refine (onMessage_next taken new : execJournal number [r] s = _).trans ?_
  cases body : r.body with
  | epochSeal n c => exact absurd body (open_ n c)
  | _ => simp [body]

/-- An acknowledged message of no records is settled (R297). -/
theorem exec_journalAck_empty (taken : s.drops (.journalAck number) = false) (waits : s.corr.awaiting number = some m)
    (body : m.body = .journal []) :
    exec (.journalAck number) s = .next (advanceDurable (settleNumber number { tallyAdd 0x0D 1 1 s with
      ftl := { s.ftl with unacked := s.ftl.unacked.filter (fun u => u.1 != number) } })) := by
  refine (onWord_next taken : execJournalAck number s = _).trans (congrArg _ ?_)
  simp only [tallyAdd_corr, waits, body, List.foldl_nil, tallyAdd_ftl]

/-- The peer's echo of this head's change of the superblock settles it (R380). -/
theorem exec_sbChange_answer {offset : Nat} {bytes : Bytes} (taken : s.drops (.sbChange offset bytes) = false)
    (new : getKey number s.corr.answered = none) (asked : s.corr.answerOf (fun b => b == .sbChange offset bytes) = some m) :
    exec (.sbChange number offset bytes) s = .next (settleNumber m.number (tallyAdd 0x0D 1 1 s)) := by
  refine (onMessage_next taken new : execSbChange number offset bytes s = _).trans (congrArg _ ?_)
  rw [tallyAdd_corr, asked]

/-- The new owner of a group takes it and the numbers of its namespaces, and answers (R119, R290). -/
theorem exec_anaMove_owner {group owner boundary : Nat} {next : List (Nat × Nat)}
    (taken : s.drops (.anaMove group owner boundary next) = false) (new : getKey number s.corr.answered = none)
    (unasked : s.corr.answerOf (fun b => b == .anaMove group owner boundary next) = none)
    (moved : u = putOwner group owner { tallyAdd 0x0D 1 1 s with
      hq := { s.hq with fsn := next.foldl (fun l p => putKey p.1 p.2 l) s.hq.fsn } }) :
    exec (.anaMove number group owner boundary next) s =
      .next (reply number (.anaMove group owner boundary next) (answerMoves group (bindTaken [group] u))) := by
  subst moved
  refine (onMessage_next taken new : execAnaMove number group owner boundary next s = _).trans (congrArg _ ?_)
  rw [tallyAdd_corr, unasked]
  rfl

/-- The survivor announces the end of the Peer-absent sheet, once the joiner has the copy (R81, R491). -/
theorem exec_resyncDone {lastNumber epoch head seq : Nat} (taken : s.drops (.resyncDone lastNumber epoch head seq) = false)
    (joins : s.corr.roll = .joining) (copies : s.corr.step = 7) (serves : s.pwr.stage = .service) :
    exec (.resyncDone lastNumber epoch head seq) s =
      .next (trigger false 1 0 { tallyAdd 0x0D 1 1 s with corr := { s.corr with step := 8 } }) :=
  (onWord_next taken : execResyncDone lastNumber epoch head seq s = _).trans (congrArg _ (if_pos ⟨joins, copies, serves⟩))

/-- The joiner accepts the survivor, whose record is sound and whose digest it knows (R491). -/
theorem exec_hello_joiner {record : Bytes} (taken : s.drops (.hello record) = false) (new : getKey number s.corr.answered = none)
    (joins : s.pwr.stage = .joining)
    (asked : s.corr.answerOf (fun b => match b with | .hello _ => true | _ => false) = some m)
    (sound : s.trust.identityOk record = true) (known : s.knows (1 - s.sys.slot) (identityDigest record) = true) :
    exec (.hello number record) s = .next (settleNumber m.number
      { tallyAdd 0x0D 1 1 s with corr := { s.corr with step := max 2 s.corr.step } }) := by
  refine (onMessage_next taken new : execHello number record s = _).trans (congrArg _ ?_)
  dsimp only
  rw [tallyAdd_pwr, if_pos joins, tallyAdd_corr]
  split
  next unasked => cases asked.symm.trans unasked
  next m' found =>
    cases asked.symm.trans found
    exact if_pos (Bool.and_eq_true_iff.mpr ⟨sound, known⟩)

/-- A record of the pair channel has no effect while the channel does not stand (R519). -/
theorem exec_prefectRecord_closed (taken : s.drops (.prefectRecord .resume) = false) (new : getKey number s.corr.answered = none)
    (unasked : s.corr.answerOf (fun b => b == .prefectRecord .resume) = none) (closed : s.trust.channel = none) :
    exec (.prefectRecord number .resume) s = .next (tallyAdd 0x0D 1 1 s) := by
  refine (onMessage_next taken new : execPrefectRecord number .resume s = _).trans (congrArg _ ?_)
  simp only [tallyAdd_corr, unasked, tallyAdd_trust, closed, Option.isNone_none, if_true]

/-- On a standing channel the peer's Prefect goes on: the record is counted and answered, and what waited is sent (R520, R521). -/
theorem exec_prefectRecord_resume {c : PairChannel} (taken : s.drops (.prefectRecord .resume) = false)
    (new : getKey number s.corr.answered = none) (unasked : s.corr.answerOf (fun b => b == .prefectRecord .resume) = none)
    (stands : s.trust.channel = some c) :
    exec (.prefectRecord number .resume) s = .next (resendAll (reply number (.prefectRecord .resume) (takeRecord .resume
      { tallyAdd 0x0D 1 1 s with trust := { s.trust with channel := some { c with received := c.received + 1 } } }))) := by
  refine (onMessage_next taken new : execPrefectRecord number .resume s = _).trans (congrArg _ ?_)
  simp only [tallyAdd_corr, unasked, tallyAdd_trust, stands, Option.isNone_some, Bool.false_eq_true, if_false, Option.map_some]

end

/-- Settles O41: the link's events are due, and each message taken, under its premises, which choose the branch of its row; the frames
are those of `Laws/`. -/
theorem headPairLinkCommands : Obligations.HeadPairLinkCommands := by
  unfold Obligations.HeadPairLinkCommands
  refine ⟨?trainOwn, ?trainDead, ?trainWhole, ?retry, ?down, ?bells, ?fence, ?forbidden, ?journal, ?journalAck, ?superblock, ?move,
    ?release, ?resync, ?hello, ?recordClosed, ?recordResume⟩
  case trainOwn => exact fun _ _ _ _ _ _ => exec_corridorTrain_own
  case trainDead => exact fun _ _ _ _ _ _ _ => exec_corridorTrain_dead
  case trainWhole => exact fun _ _ _ _ _ _ _ => exec_corridorTrain_whole
  case retry =>
    exact fun s refused late => .of (execCorridorRefusedRetry_led (.refl _ s) rfl) ⟨_, whenDue_pos ⟨refused, late⟩, rfl, rfl⟩
  case down => exact fun s up => .of (execCorridorLinkDown_led (.refl _ s) rfl) ⟨_, whenDue_pos up, rfl, rfl⟩
  case bells => exact fun _ _ _ _ _ _ => exec_bellSync_leader
  case fence => exact fun _ _ _ _ _ _ _ _ => exec_snapFence_answer
  case forbidden => exact fun _ => rfl
  case journal => exact fun _ _ _ => exec_journal_record
  case journalAck => exact fun _ _ _ _ => exec_journalAck_empty
  case superblock => exact fun _ _ _ _ _ => exec_sbChange_answer
  case move => exact fun _ _ _ _ _ _ _ _ => exec_anaMove_owner
  case release => exact fun time s taken => (onWord_next taken : execReleaseNotice time s = _)
  case resync => exact fun _ _ _ _ _ => exec_resyncDone
  case hello => exact fun _ _ _ _ => exec_hello_joiner
  case recordClosed => exact fun _ _ => exec_prefectRecord_closed
  case recordResume => exact fun _ _ _ => exec_prefectRecord_resume

end Sys2Proof.Machine

namespace Sys2Proof.Machine

/-! ### The field of the parity code (R325)

SUPPORT. Multiplication by a byte keeps sums, so two multiplications in a row are known from what they make of the eight
powers of x. -/

/-- The loop of a product keeps sums of its second factor and of what it has gathered. -/
theorem gfMulLoop_xor (poly : Byte) (n : Nat) (a b c acc acc' : Byte) :
    gfMulLoop poly n a (b ^^^ c) (acc ^^^ acc') = gfMulLoop poly n a b acc ^^^ gfMulLoop poly n a c acc' := by
  induction n generalizing a b c acc acc' with
  | zero => rfl
  | succ n ih =>
    have gathered : (if (b ^^^ c).getLsbD 0 then acc ^^^ acc' ^^^ a else acc ^^^ acc') =
        (if b.getLsbD 0 then acc ^^^ a else acc) ^^^ (if c.getLsbD 0 then acc' ^^^ a else acc') := by
      rw [BitVec.getLsbD_xor]
      cases b.getLsbD 0 <;> cases c.getLsbD 0
      · rfl
      · exact BitVec.xor_assoc ..
      · change acc ^^^ acc' ^^^ a = acc ^^^ a ^^^ acc'
        ac_rfl
      · calc acc ^^^ acc' = acc ^^^ acc' ^^^ (a ^^^ a) := by simp
          _ = acc ^^^ a ^^^ (acc' ^^^ a) := by ac_rfl
    simp only [gfMulLoop, gathered, BitVec.ushiftRight_xor_distrib, ih]

/-- The product distributes over the sum. -/
theorem parityMul_xor (a b c : Byte) : parityMul a (b ^^^ c) = parityMul a b ^^^ parityMul a c :=
  gfMulLoop_xor 0x1D 8 a b c 0 0

@[simp] theorem parityMul_zero (a : Byte) : parityMul a 0 = 0 := by
  have twice := parityMul_xor a 0 0
  simpa using twice

/-- The sum of the powers of x below n that a byte holds. -/
def lowBits (x : Byte) : Nat → Byte
  | 0 => 0
  | n + 1 => lowBits x n ^^^ (if x.getLsbD n then BitVec.twoPow 8 n else 0)

theorem getLsbD_lowBits (x : Byte) (n i : Nat) : (lowBits x n).getLsbD i = (decide (i < n) && x.getLsbD i) := by
  induction n with
  | zero => simp [lowBits]
  | succ n ih =>
    rw [lowBits, BitVec.getLsbD_xor, ih]
    rcases Nat.lt_trichotomy i n with below | rfl | above
    · split <;> simp [below, Nat.lt_succ_of_lt below, Nat.ne_of_gt below]
    · by_cases h : x.getLsbD i
      · simp [h, BitVec.lt_of_getLsbD h]
      · simp [h]
    · split <;> simp [Nat.not_lt_of_gt above, Nat.not_le_of_gt above, Nat.ne_of_lt above]

/-- A byte is the sum of its powers of x. -/
theorem lowBits_eight (x : Byte) : lowBits x 8 = x :=
  BitVec.eq_of_getLsbD_eq fun i hi => by rw [getLsbD_lowBits, decide_eq_true hi, Bool.true_and]

/-- A map that keeps sums and the eight powers of x is the identity. -/
theorem eq_self_of_additive {f : Byte → Byte} (sum : ∀ x y, f (x ^^^ y) = f x ^^^ f y)
    (powers : ∀ k < 8, f (BitVec.twoPow 8 k) = BitVec.twoPow 8 k) (x : Byte) : f x = x := by
  have zero : f 0 = 0 := by simpa using sum 0 0
  have below : ∀ n ≤ 8, f (lowBits x n) = lowBits x n := by
    intro n hn
    induction n with
    | zero => exact zero
    | succ n ih =>
      rw [lowBits, sum, ih (by omega)]
      split
      · rw [powers n hn]
      · rw [zero]
  simpa [lowBits_eight] using below 8 le_rfl

/-! ### The coefficients (R326)

Every j ⊕ (4 + i) is one of the 32 bytes from 4 to 35, so what is said of all coefficients is evaluated at these. -/

theorem parityIndex_bounds : ∀ j < 4, ∀ i < 32, 4 ≤ j ^^^ (4 + i) ∧ j ^^^ (4 + i) < 36 := by decide

theorem gfInv_mul_self : ∀ v < 36, 4 ≤ v → parityMul (gfInv 0x1D (BitVec.ofNat 8 v)) (BitVec.ofNat 8 v) = 1 := by
  decide +kernel

theorem gfInv_gfInv : ∀ v < 36, 4 ≤ v → gfInv 0x1D (gfInv 0x1D (BitVec.ofNat 8 v)) = BitVec.ofNat 8 v := by
  decide +kernel

theorem mul_gfInv_mul_power : ∀ v < 36, 4 ≤ v → ∀ k < 8,
    parityMul (BitVec.ofNat 8 v) (parityMul (gfInv 0x1D (BitVec.ofNat 8 v)) (BitVec.twoPow 8 k)) = BitVec.twoPow 8 k := by
  decide +kernel

section
variable {j i : Nat} (hj : j < 4) (hi : i < 32)
include hj hi

theorem parityCoef_mul : parityMul (parityCoef j i) (BitVec.ofNat 8 j ^^^ BitVec.ofNat 8 (4 + i)) = 1 := by
  obtain ⟨low, high⟩ := parityIndex_bounds j hj i hi
  rw [parityCoef, ← BitVec.ofNat_xor]
  exact gfInv_mul_self _ high low

/-- Division by a coefficient undoes the multiplication by it. -/
theorem parityCoef_div_mul (x : Byte) : parityMul (gfInv 0x1D (parityCoef j i)) (parityMul (parityCoef j i) x) = x := by
  obtain ⟨low, high⟩ := parityIndex_bounds j hj i hi
  rw [parityCoef, ← BitVec.ofNat_xor, gfInv_gfInv _ high low]
  exact eq_self_of_additive (f := fun x => parityMul _ (parityMul _ x)) (fun x y => by simp only [parityMul_xor])
    (mul_gfInv_mul_power _ high low) x

end

/-! ### Strips and their sums (R326, R328) -/

section
variable {n : Nat}

/-- Sums of sums are taken strip by strip. -/
theorem xorBytes_xorBytes_comm (a b c d : Bytes) :
    xorBytes (xorBytes a b) (xorBytes c d) = xorBytes (xorBytes a c) (xorBytes b d) := by
  refine List.ext_getElem (by simp; omega) fun k _ _ => ?_
  simp only [xorBytes, List.getElem_zipWith]
  ac_rfl

theorem xorBytes_self {a : Bytes} (h : a.length = n) : xorBytes a a = zeros n :=
  List.ext_getElem (by simp [zeros, h]) fun k _ _ => by simp [xorBytes, zeros]

theorem xorBytes_zeros {a : Bytes} (h : a.length = n) : xorBytes a (zeros n) = a :=
  List.ext_getElem (by simp [zeros, h]) fun k _ _ => by simp [xorBytes, zeros]

theorem zeros_xorBytes {a : Bytes} (h : a.length = n) : xorBytes (zeros n) a = a :=
  List.ext_getElem (by simp [zeros, h]) fun k _ _ => by simp [xorBytes, zeros]

@[simp] theorem length_scale (c : Byte) (b : Bytes) : (scale c b).length = b.length := List.length_map _

theorem scale_zeros (c : Byte) : scale c (zeros n) = zeros n := by
  simp only [scale, zeros, List.map_replicate, parityMul_zero]

/-- The sum of the first m of a row of strips, as `paritySum` takes it. -/
def xorSum (n : Nat) (strip : Nat → Bytes) (m : Nat) : Bytes :=
  (List.range m).foldl (fun acc i => xorBytes acc (strip i)) (zeros n)

theorem xorSum_succ (strip : Nat → Bytes) (m : Nat) : xorSum n strip (m + 1) = xorBytes (xorSum n strip m) (strip m) := by
  simp [xorSum, List.range_succ]

/-- Two rows that differ in strip i alone, which the second has as zeros, have sums that differ by that strip. -/
theorem xorSum_difference {f g : Nat → Bytes} {i : Nat} (size : ∀ l, (f l).length = n) (same : ∀ l, l ≠ i → g l = f l)
    (gone : g i = zeros n) (m : Nat) : xorBytes (xorSum n f m) (xorSum n g m) = if i < m then f i else zeros n := by
  have zeros_length : (zeros n).length = n := List.length_replicate
  induction m with
  | zero => exact xorBytes_self zeros_length
  | succ m ih =>
    rw [xorSum_succ, xorSum_succ, xorBytes_xorBytes_comm, ih]
    rcases Nat.lt_trichotomy i m with before | rfl | after
    · rw [same m (Nat.ne_of_gt before), xorBytes_self (size m), if_pos before, if_pos (by omega), xorBytes_zeros (size i)]
    · rw [gone, if_neg (lt_irrefl i), if_pos (by omega), xorBytes_zeros (size i), zeros_xorBytes (size i)]
    · rw [same m (Nat.ne_of_lt after), xorBytes_self (size m), if_neg (by omega), if_neg (by omega), xorBytes_self zeros_length]

/-- What data strip i adds to parity strip j (R326). -/
def parityTerm (j n : Nat) (strips : List Bytes) (i : Nat) : Bytes :=
  fitBytes n (scale (parityCoef j (0 + i)) (strips.getD i []))

theorem length_parityTerm (j : Nat) (strips : List Bytes) (i : Nat) : (parityTerm j n strips i).length = n :=
  length_fitBytes n _

theorem paritySum_eq (j : Nat) (strips : List Bytes) :
    paritySum j 0 n strips = xorSum n (parityTerm j n strips) strips.length := rfl

theorem parityTerm_of_length {j i : Nat} {strips : List Bytes} (h : (strips.getD i []).length = n) :
    parityTerm j n strips i = scale (parityCoef j i) (strips.getD i []) := by
  rw [parityTerm, Nat.zero_add, fitBytes_of_length ((length_scale ..).trans h)]

/-- Without data strip i, parity strip j is less by that strip times its coefficient. -/
theorem paritySum_difference {j i : Nat} {strips : List Bytes} (here : i < strips.length)
    (size : (strips.getD i []).length = n) :
    xorBytes (paritySum j 0 n strips) (paritySum j 0 n (strips.set i (zeros n))) = scale (parityCoef j i) (strips.getD i []) := by
  have erased : (strips.set i (zeros n)).getD i [] = zeros n := by simp [here]
  have others : ∀ l, l ≠ i → parityTerm j n (strips.set i (zeros n)) l = parityTerm j n strips l := fun l hl => by
    simp only [parityTerm, List.getD_eq_getElem?_getD, List.getElem?_set_ne hl.symm]
  have gone : parityTerm j n (strips.set i (zeros n)) i = zeros n := by
    rw [parityTerm_of_length (by rw [erased, zeros, List.length_replicate]), erased, scale_zeros]
  rw [paritySum_eq, paritySum_eq, List.length_set, xorSum_difference (length_parityTerm j strips) others gone, if_pos here,
    parityTerm_of_length size]

/-- Division by a coefficient returns the strip that was scaled by it. -/
theorem scale_div_scale {j i : Nat} (hj : j < 4) (hi : i < 32) (strip : Bytes) :
    scale (gfInv 0x1D (parityCoef j i)) (scale (parityCoef j i) strip) = strip := by
  simp only [scale, List.map_map, Function.comp_def, parityCoef_div_mul hj hi, List.map_id']

end

/-- Settles O23: the sum with a strip and the sum without it differ by the strip times its coefficient alone, and division
by the coefficient undoes that. -/
theorem parityRestoresOneStrip : Obligations.ParityRestoresOneStrip := by
  refine ⟨⟨fun j i => parityCoef_mul, ?table⟩, ?restores⟩
  case table => decide +kernel
  case restores =>
    intro n i k strips j hi hk hj count sizes
    have here : i < strips.length := count ▸ hi
    have size : (strips.getD i []).length = n := by
      rw [List.getD_eq_getElem _ _ here]
      exact sizes _ (List.getElem_mem here)
    rw [paritySum_difference here size, scale_div_scale hj (by omega)]

end Sys2Proof.Machine

namespace Sys2Proof.Machine

/-! ### Stripes and reconstruction (R328, R330, R339, R341, R348, R350 to R352) -/

section
variable {s : State}

/-- A stripe that has received no slot for 64 periods closes early (R339). -/
theorem exec_stripeIdleClose {group : Nat} {g : Group} (there : s.ec.group group = some g) (fills : g.isOpen = true)
    (idle : g.lastSlot + 64 ≤ s.tt.now) (begun : g.filling ≠ [] ∨ (g.cur.isSome = true ∧ 0 < g.posted)) :
    exec (.stripeIdleClose group) s = .next (closeEarly group s) := by
  change execStripeIdleClose group s = _
  simp only [execStripeIdleClose, there]
  exact whenDue_pos ⟨fills, idle, begun⟩

/-- Data for a group whose latest stripe is interim extends it, where its parity is still in the accumulators (R341). -/
theorem exec_stripeExtend {group : Nat} {g : Group} {x : Stripe} (there : s.ec.group group = some g)
    (latest : g.stripes.getLast? = some x) (fills : g.isOpen = true) (interim : x.interim = true) (goesOn : x.final = false)
    (room : x.a < g.k) (noStripe : g.cur = none) (data : g.filling ≠ []) (held : g.accum ≠ []) :
    exec (.stripeExtend group) s = .next (postStrip group s) := by
  change execStripeExtend group s = _
  simp only [execStripeExtend, there, latest]
  rw [if_neg (by simp [fills, interim, goesOn, room, noStripe, data]), if_pos held]

/-- A group opens in a data layout in which this head fills none (R330). -/
theorem exec_groupOpen {layout : Nat} {i : TtImage} (active : s.tt.active = some i) (data : (i.layoutRec layout).purpose = 1)
    (none_ : s.openGroupOf layout = none) : exec (.groupOpen layout) s = .next (openGroup layout s) := by
  change execGroupOpen layout s = _
  simp only [execGroupOpen, active]
  exact whenDue_pos ⟨data, Option.isNone_iff_eq_none.mpr none_⟩

/-- The sources of a reconstruction, once all have returned, combine to the slot that goes to its tag check (R328, R348). -/
theorem exec_reconstructionCombine {job pos : Nat} {r : SlotRead} {g : Group} {x : Stripe} {bytes : Bytes}
    (there : s.jobs.read job = some r) (stripe : s.ec.stripeOf r.psa = some (g, (x, pos))) (stage : r.stage = .reconstruct)
    (returned : r.sources.all (fun p => p.2.isSome) = true) (some_ : r.sources ≠ [])
    (combined : bytes = reconstruct g.k pos (r.sources.map (fun p => (p.1, p.2.getD [])))) :
    exec (.reconstructionCombine job) s = .next (pay (streamOf r.why) .par (coveredLength (psaTier r.psa) * r.sources.length)
      (setRead { r with
        stage := .decrypt
        cipher := bytes.take (4096 * psaTier r.psa)
        envs := (List.range (psaTier r.psa)).map (fun i => slice bytes (4096 * psaTier r.psa + 56 * i) 56) } s)) := by
  subst combined
  change execReconstructionCombine job s = _
  simp only [execReconstructionCombine, there, stripe]
  exact whenDue_pos ⟨stage, returned, some_⟩

/-- A stripe whose strips agree with its parity is passed and is not weak (R350, R351). -/
theorem exec_patrolStripe_agrees {strips got : List (Nat × Bytes)} {id n at_ : Nat} {g : Group} {x : Stripe} {u : State}
    (turn : s.patrolNext = some (id, n)) (there : s.ec.group id = some g) (stripe : g.stripe n = some x)
    (given : (s.patrolReads g x).any (fun i => (getKey i strips).isNone) = false)
    (read : got = strips.filter (fun p => (s.patrolReads g x).contains p.1))
    (pays : s.canPayAll 6 [(.par, 66432 * got.length)] = true) (paid : u = payAll 6 [(.par, 66432 * got.length)] s)
    (place : at_ = u.patrolList.findIdx (fun p => p == (id, n)) + 1) (agrees : parityAgrees g x got = true) :
    exec (.patrolStripe strips) s = .next (tallyAdd 0x0B 4 1 { u with ec := { u.ec with
      patrolAt := (id, n + 1)
      patrolDone := if at_ = u.patrolList.length then 0 else at_
      weak := u.ec.weak.filter (fun p => p != (id, n)) } }) := by
  subst read paid place
  change execPatrolStripe strips s = _
  simp only [execPatrolStripe, turn, there, stripe, Option.bind_some, Option.map_some]
  rw [if_neg (by simp [given])]
  exact (posted_next pays).trans (congrArg _ (if_pos agrees))

end

/-! ### Members: Detention, Missing, rebuild (R355, R357 to R363) -/

section
variable {s : State}

/-- In Recess a READ of a written page of a form in Detention is posted as its probe (R355). -/
theorem exec_detentionProbe {form die block page : Nat} {i : TtImage} (active : s.tt.active = some i)
    (detained : (s.ec.member (i.form form).bay).any (fun m => m.state == .detention) = true)
    (idle : (s.bay.outstanding ++ s.bay.waiting).any (fun o =>
      o.bay == (i.form form).bay && o.die / 16 == (i.form form).group && o.use == .probe) = false)
    (recess : s.formClass form = 4) (turn : s.probeDie form (i.form form).bay (i.form form).group = some die)
    (written : (s.ftl.ledger (blkKey (i.form form).bay die block)).state = .isOpen ∨
      (s.ftl.ledger (blkKey (i.form form).bay die block)).state = .full) :
    exec (.detentionProbe form die block page) s = .next (readOp (blkKey (i.form form).bay die block) page 0 4 .probe
      { s with ec := { s.ec with probed := putKey form die s.ec.probed } }) := by
  change execDetentionProbe form die block page s = _
  simp only [execDetentionProbe, active]
  exact whenDue_pos ⟨detained, idle, recess, turn, written⟩

section
variable {sources : List (Nat × List (Nat × Bytes))} {id pos new : Nat}

/-- A replaced block whose programmes are complete ends its rebuild (R359). -/
theorem exec_rebuildBlock_ends (replaces : s.ec.replacing = some (id, (pos, new))) (serves : s.ec.serving (blkBay new) = true)
    (complete_ : s.rebuildBusy = false) : exec (.rebuildBlock sources) s = .next (finishRebuild id pos new s) := by
  change execRebuildBlock sources s = _
  simp only [execRebuildBlock, replaces, serves]
  exact whenDue_pos complete_

/-- A replacement whose member serves no more is abandoned (R362). -/
theorem exec_rebuildBlock_abandoned (replaces : s.ec.replacing = some (id, (pos, new))) (lost : s.ec.serving (blkBay new) = false) :
    exec (.rebuildBlock sources) s = .next { s with ec := { s.ec with replacing := none } } := by
  change execRebuildBlock sources s = _
  simp only [execRebuildBlock, replaces, lost]
  rfl

/-- The next block of a group is rebuilt onto its replacement, in the stream class of what found it (R352, R359, R361). -/
theorem exec_rebuildBlock_begins {g : Group} {u : State} (idle : s.ec.replacing = none)
    (noTriad : (sortBy (fun a b => a.1 < b.1 || (a.1 == b.1 && a.2 ≤ b.2)) s.ec.rebuildTriads).find?
      (fun p => s.hasStandby p && s.triadClass p.1 == s.rebuildClass) = none)
    (turn : s.rebuildNext = some (id, pos)) (there : s.ec.group id = some g) (free : s.replacement g pos = some new)
    (pays : s.canPayAll (if s.ec.faulty.contains (id, pos) then 6 else 7)
      [(.par, 66432 * sumNat (sources.map (fun p => p.2.length)))] = true)
    (paid : u = payAll (if s.ec.faulty.contains (id, pos) then 6 else 7)
      [(.par, 66432 * sumNat (sources.map (fun p => p.2.length)))] s) :
    exec (.rebuildBlock sources) s = .next (beginRebuild g pos new sources { u with ec := { u.ec with waits := none } }) := by
  subst paid
  change execRebuildBlock sources s = _
  simp only [execRebuildBlock, idle, noTriad, turn, there, free]
  exact posted_next pays

end

end

/-- Settles O38: a stripe, a member or a rebuild that is found and due comes to the one branch that its premises choose; the frames are
those of `Laws/`. -/
theorem stripeAndMemberCommands : Obligations.StripeAndMemberCommands := by
  unfold Obligations.StripeAndMemberCommands
  refine ⟨?idleClose, ?extend, ?groupOpen, ?combine, ?patrol, ?probe, ?detention, ?missing, ?rebuildEnds, ?rebuildLost, ?rebuildBegins,
    ?sweep, ?offline⟩
  case idleClose => exact fun _ _ _ => exec_stripeIdleClose
  case extend => exact fun _ _ _ _ => exec_stripeExtend
  case groupOpen => exact fun _ _ _ => exec_groupOpen
  case combine => exact fun _ _ _ _ _ _ _ => exec_reconstructionCombine
  case patrol =>
    intro strips id n at_ g x u got s turn there stripe given read pays paid place agrees
    exact .of (execPatrolStripe_led strips (.refl _ s) rfl)
      ⟨_, exec_patrolStripe_agrees turn there stripe given read pays paid place agrees, by simp [paid]⟩
  case probe => exact fun _ _ _ _ _ _ => exec_detentionProbe
  case detention => exact fun bay s late => whenDue_pos late
  case missing => exact fun bay s late => whenDue_pos late
  case rebuildEnds => exact fun _ _ _ _ _ => exec_rebuildBlock_ends
  case rebuildLost =>
    exact fun sources id pos new s replaces lost => .of (execRebuildBlock_led sources (.refl _ s) rfl)
      ⟨_, exec_rebuildBlock_abandoned replaces lost, rfl⟩
  case rebuildBegins => exact fun _ _ _ _ _ _ _ => exec_rebuildBlock_begins
  case sweep => exact fun s due => whenDue_pos due
  case offline => exact fun _ => rfl

end Sys2Proof.Machine

namespace Sys2Proof.Machine

/-! ### Bays and their links (R409, R413, R416, R419 to R422, R470, R480) -/

section
variable {bay width rate : Nat} {s : State}

/-- A module of the version that this head speaks is fenced and asked for its identity (R413, R416). -/
theorem exec_bayLinkUp (training : (s.bay.bayOf bay).state = .training) (version : Nat) :
    exec (.bayLinkUp bay width rate version) s = .next (
      if version ≠ 1 then identityRefused bay
        (drawn 1 (emitAll [.bridge bay 0 none, .bridge bay 0x200 (some s.free)] (linkAt bay width rate s)))
      else queueOp (bayOp 8 bay 0 0 [] 0 .telemetry) (fenceBay bay
        (drawn 1 (emitAll [.bridge bay 0 none, .bridge bay 0x200 (some s.free)] (linkAt bay width rate s))))) :=
  (whenDue_pos training : execBayLinkUp bay width rate version s = _)

/-- A link that has not trained within 1 s gets one more reset pulse, then its bay is unused (R416). -/
theorem exec_bayLinkTrainTimeout (training : (s.bay.bayOf bay).state = .training)
    (late : (s.bay.bayOf bay).since + secBells 1 ≤ s.tt.now) :
    exec (.bayLinkTrainTimeout bay) s = .next (
      if (s.bay.bayOf bay).retried then event 0x9001 (bayIsland bay) (argOf [(0, bay), (1, 5)]) (bayTo bay .unused s)
      else bayTo bay .powering (driveReset bay true (setBay bay { s.bay.bayOf bay with retried := true } s))) :=
  (whenDue_pos ⟨training, late⟩ : execBayLinkTrainTimeout bay s = _)

/-- A module that is unplugged is lost (R419). -/
theorem exec_bayPresenceLost_unplugged (exists_ : bay < 64) (present : (s.bay.bayOf bay).state ≠ .absent)
    (own : (s.bay.bayOf bay).state ≠ .taken) (up : (s.bay.bayOf bay).state ≠ .down)
    (sound : s.pins.faulty (prsntPin bay) = false) :
    exec (.bayPresenceLost bay true) s = .next (bayLost bay (setLevel (prsntPin bay) true s)) :=
  (whenDue_pos ⟨exists_, present, own, fun _ => sound⟩ : execBayPresenceLost bay true s = _).trans (congrArg _ (if_neg up))

/-- The cause of an attention that is neither fatal nor a removal request is read, cleared and reported (R421). -/
theorem exec_bayAttention {cause : Nat} (up : (s.bay.bayOf bay).linkUp = true) (stays : bitAt 0 cause = false)
    (works : bitAt 1 cause = false) (sound : s.pins.isOpen (attnPin bay) = false) :
    exec (.bayAttention bay cause) s = .next (event 0x9003 (bayIsland bay) (argOf [(0, bay), (1, cause % 256)])
      (setBay bay { s.bay.bayOf bay with attnDay := s.day }
        (emitAll [.bridge bay 0x108 none, .bridge bay 0x108 (some cause)] s))) := by
  refine (whenDue_pos ⟨up, by simp [sound]⟩ : execBayAttention bay cause s = _).trans (congrArg _ ?_)
  simp [stays, works, sound]

/-- While the pin is open the cause is read every 64 days; where it shows none, nothing is reported (R421, log entry 92). -/
theorem exec_bayAttention_open (up : (s.bay.bayOf bay).linkUp = true) (open_ : s.pins.isOpen (attnPin bay) = true)
    (due : (s.bay.bayOf bay).attnDay + 64 ≤ s.day) :
    exec (.bayAttention bay 0) s = .next (setBay bay { s.bay.bayOf bay with attnDay := s.day }
      (emitAll [.bridge bay 0x108 none, .bridge bay 0x108 (some 0)] s)) := by
  have noBit : ∀ n, bitAt n 0 = false := fun n => by simp [bitAt]
  refine (whenDue_pos ⟨up, fun _ => due⟩ : execBayAttention bay 0 s = _).trans (congrArg _ ?_)
  simp [noBit, open_]

/-- A Degraded bay is fully retrained; without an active image no row keeps it out of Recess (R422). -/
theorem exec_bayFullRetrain_bay (degraded : (s.bay.bayOf bay).state = .degraded)
    (due : (s.bay.bayOf bay).lastFull + 1024 ≤ s.day) (noImage : s.tt.active = none) :
    exec (.bayFullRetrain (some bay) width rate) s = .next (setBay bay { (linkAt bay width rate s).bay.bayOf bay with
      retrains := min (((linkAt bay width rate s).bay.bayOf bay).retrains + 1) 65535
      lastFull := s.day } (linkAt bay width rate s)) := by
  change execBayFullRetrain (some bay) width rate s = _
  simp only [execBayFullRetrain, noImage]
  exact whenDue_pos ⟨degraded, due, trivial⟩

/-- A compare-and-swap that found what it expected leaves its new value in the witness register and waits no more; one that does not
claim the round for this head teaches it nothing (R480). -/
theorem exec_witnessCasComplete_won {old : Nat} {x : Nat × (Nat × Nat)} (asked : s.corr.cas.find? (fun x => x.1 == bay) = some x)
    (won : old = x.2.1) (other : x.2.2 ≠ s.claim) :
    exec (.witnessCasComplete bay old) s = .next (setBay bay { s.bay.bayOf bay with witness := x.2.2 }
      { s with corr := { s.corr with cas := s.corr.cas.filter (fun x => x.1 != bay) } }) := by
  subst won
  obtain ⟨y, expected, new⟩ := x
  change execWitnessCasComplete bay expected s = _
  simp only [execWitnessCasComplete, asked]
  rw [if_neg (by simp), if_neg (by simp [other])]
  simp

end

/-- Settles O40: each command of a bay is due under its premises, which choose the branch of its row; the frames are those of `Laws/`. -/
theorem bayCommands : Obligations.BayCommands := by
  unfold Obligations.BayCommands
  refine ⟨?poll, ?detect, ?release, ?linkUp, ?otherVersion, ?retry, ?unused, ?lost, ?powerOff, ?retrain, ?linkReturn, ?attention,
    ?openAttention, ?degraded, ?corridor, ?fullRetrain, ?witness⟩
  case poll => exact fun s due => whenDue_pos due
  case detect => exact fun bay s exists_ sound absent => whenDue_pos ⟨exists_, sound, absent⟩
  case release => exact fun bay s powers late => whenDue_pos ⟨powers, late⟩
  case linkUp => exact fun bay width rate s training => exec_bayLinkUp training 1
  case otherVersion =>
    intro bay width rate version s training other
    rw [exec_bayLinkUp training, if_pos other]
  case retry =>
    intro bay s training late first
    rw [exec_bayLinkTrainTimeout training late, first, if_neg Bool.false_ne_true]
  case unused =>
    intro bay s training late again
    rw [exec_bayLinkTrainTimeout training late, if_pos again]
  case lost => exact fun _ _ => exec_bayPresenceLost_unplugged
  case powerOff => exact fun bay s down gone late => whenDue_pos ⟨down, gone, late⟩
  case retrain => exact fun bay s down present late => whenDue_pos ⟨down, present, late⟩
  case linkReturn => exact fun bay width rate s down => whenDue_pos down
  case attention => exact fun _ _ _ => exec_bayAttention
  case openAttention => exact fun _ _ => exec_bayAttention_open
  case degraded => exact fun bay width rate s up => whenDue_pos up
  case corridor =>
    exact fun width rate s reduced late low high whole => .of (execBayFullRetrain_led none width rate (.refl _ s) rfl)
      ⟨_, whenDue_pos ⟨reduced, late, low, high, whole⟩, rfl, rfl, rfl, rfl⟩
  case fullRetrain => exact fun _ _ _ _ => exec_bayFullRetrain_bay
  case witness =>
    exact fun bay old x s asked won other => .of (execWitnessCasComplete_led bay old (.refl _ s) rfl)
      ⟨_, exec_witnessCasComplete_won asked won other, by rw [setBay, bayOf_put], rfl⟩

end Sys2Proof.Machine

namespace Sys2Proof.Machine

/-! ### Snapshots, seals and clones (R427 to R430, R432, R435 to R437, R465) -/

section
variable {b : Binding} {tag : Nat} {peer : PeerAnswer} {p : Packet} {r : Root} {s : State}

/-- The seal flag and the time T of SNAP_CREATE must agree (R436, log entry 59). -/
theorem exec_snapCreate_disagrees (h : s.cpi.packet b tag 0x0401 = some p) (disagrees : bitAt 0 (p.param 2 2) = (p.param 8 8 == 0)) :
    exec (.snapCreate b tag) s = .next (badParam p 8 s) := by
  refine (onPacket_next h : execSnapCreate b tag s = _).trans (congrArg _ ?_)
  exact if_pos disagrees

/-- A group of distinct volumes in service, with room for their snapshots, is cut (R427, R428, R430). -/
theorem exec_snapCreate {roots : List Nat} {rs : List Root} (h : s.cpi.packet b tag 0x0401 = some p)
    (named : roots = (List.range (p.param 0 2)).map (fun i => p.param (16 + 4 * i) 4))
    (agrees : bitAt 0 (p.param 2 2) ≠ (p.param 8 8 == 0)) (size : p.param 0 2 ≤ 256) (distinct : twice [] roots = none)
    (known : roots.findIdx? (fun r => (s.ftl.rootOf r).isNone) = none) (found : rs = roots.filterMap s.ftl.rootOf)
    (volumes : rs.find? (fun r => !r.isVolume) = none) (online : rs.find? (fun r => s.ec.offline.contains r.layout) = none)
    (room : rs.find? (fun r => 16384 ≤ s.ftl.snapshotsOf r.id) = none) (total : s.ftl.snapshots + p.param 0 2 ≤ 1048576) :
    exec (.snapCreate b tag) s = .next (cutGroup (.packet b tag) roots (p.param 8 8) s) := by
  subst found
  refine (onPacket_next h : execSnapCreate b tag s = _).trans (congrArg _ ?_)
  dsimp only
  rw [← named, if_neg agrees, if_neg (by omega), distinct]
  dsimp only
  rw [known]
  dsimp only
  rw [volumes, online, room]
  exact if_neg (by omega)

/-- A group that is ready on the heads in service settles at a bell of its period (R429). -/
theorem exec_snapshotSettle {peerReady : Bool} {g : SnapGroup} (there : s.repl.groups.find? (fun g => g.tag == tag) = some g)
    (bell : s.tt.now % 8 = 0) (ready : s.groupReady g = true) (peers : s.paired = true → peerReady = true) :
    exec (.snapshotSettle tag peerReady) s = .next (afterSettle g (settleGroup g s)) := by
  change execSnapshotSettle tag peerReady s = _
  rw [execSnapshotSettle, there]
  exact whenDue_pos ⟨bell, ready, peers⟩

/-- A sealed snapshot stands until its time has come on the clock that the heads agree on (R437). -/
theorem exec_snapDelete_sealed {peerClock : Nat} (h : s.cpi.packet b tag 0x0402 = some p)
    (there : s.ftl.rootOf (p.param 0 4) = some r) (kind : r.kind = .snapshot) (settled : r.state = .active)
    (isSealed : r.sealed_ = true) (early : s.ticketClock peerClock < r.until_) :
    exec (.snapDelete b tag peer peerClock) s = .next (refuseSealed p r.until_ (s.ticketClock peerClock) s) := by
  refine (onPacket_next h : execSnapDelete b tag peer peerClock s = _).trans (congrArg _ ?_)
  rw [there]
  dsimp only
  rw [if_neg (not_not_intro kind), if_neg (not_not_intro settled), if_pos ⟨isSealed, .inl early⟩]

/-- A snapshot without a seal is deleted on both heads, with what was sealed of it (R435). -/
theorem exec_snapDelete {peerClock : Nat} {u : State} (h : s.cpi.packet b tag 0x0402 = some p)
    (there : s.ftl.rootOf (p.param 0 4) = some r) (kind : r.kind = .snapshot) (settled : r.state = .active)
    (open_ : r.sealed_ = false) (agrees : s.paired = true → peer.status = .ok) (deleted : u = deleteRoot r (pairBase p s))
    (awaited : s.awaitsAlone = false) :
    exec (.snapDelete b tag peer peerClock) s = .next (changed p [] { u with
      trust := { u.trust with seals := u.trust.seals.filter (fun x => x.root != r.id) } }) := by
  subst deleted
  refine (onPacket_next h : execSnapDelete b tag peer peerClock s = _).trans (congrArg _ ?_)
  rw [there]
  dsimp only
  rw [if_neg (not_not_intro kind), if_neg (not_not_intro settled), if_neg (by simp [open_]), pairWide_ok agrees awaited]

/-- A seal is never shortened (R436). -/
theorem exec_snapSeal_shorter (h : s.cpi.packet b tag 0x0403 = some p) (there : s.ftl.rootOf (p.param 0 4) = some r)
    (kind : r.kind = .snapshot) (settled : r.state = .active) (isSealed : r.sealed_ = true) (earlier : p.param 8 8 < r.until_) :
    exec (.snapSeal b tag peer) s = .next (refuseSealed p r.until_ s.clockUs s) := by
  refine (onPacket_next h : execSnapSeal b tag peer s = _).trans (congrArg _ ?_)
  rw [there]
  dsimp only
  rw [if_neg (not_not_intro kind), if_neg (not_not_intro settled), if_pos ⟨isSealed, earlier⟩]

/-- A snapshot is sealed for the first time, or its seal is prolonged, on both heads (R436). -/
theorem exec_snapSeal (h : s.cpi.packet b tag 0x0403 = some p) (there : s.ftl.rootOf (p.param 0 4) = some r)
    (kind : r.kind = .snapshot) (settled : r.state = .active) (later : r.sealed_ = false ∨ r.until_ ≤ p.param 8 8)
    (given : p.param 8 8 ≠ 0) (agrees : s.paired = true → peer.status = .ok) (awaited : s.awaitsAlone = false) :
    exec (.snapSeal b tag peer) s = .next (changed p [] (sealRoot r (p.param 8 8) (pairBase p s))) := by
  have notShorter : ¬(r.sealed_ = true ∧ p.param 8 8 < r.until_) := fun ⟨isSealed, earlier⟩ =>
    later.elim (fun open_ => by simp [open_] at isSealed) (fun late => by omega)
  refine (onPacket_next h : execSnapSeal b tag peer s = _).trans (congrArg _ ?_)
  rw [there]
  dsimp only
  rw [if_neg (not_not_intro kind), if_neg (not_not_intro settled), if_neg notShorter, if_neg given, pairWide_ok agrees awaited]

/-- A clone of a settled snapshot starts with the snapshot's tree, on both heads (R432). -/
theorem exec_cloneCreate {c : Root} {u : State} (h : s.cpi.packet b tag 0x0404 = some p)
    (there : s.ftl.rootOf (p.param 0 4) = some r) (kind : r.kind = .snapshot) (settled : r.state = .active)
    (new : s.ftl.nsidUsed (p.param 4 4) = false)
    (named : s.badNamespace (p.param 4 4) (p.param 8 2) (p.param 0x0A 2) 4 8 0x0A = none) (room : s.ftl.volumes < 65536)
    (agrees : s.paired = true → peer.status = .ok) (base : u = pairBase p s)
    (made : c = { Root.blank u.ftl.nextRoot .clone with
      nsid := p.param 4 4, subsystem := p.param 8 2, ana := p.param 0x0A 2, domain := r.domain, layout := r.layout
      service := r.service, size := r.size, parent := r.id, fenceEpoch := u.epoch, created := u.clockUs
      format := r.format, piType := r.piType, leaves := r.leaves })
    (awaited : s.awaitsAlone = false) :
    exec (.cloneCreate b tag peer) s = .next (changed p (fields [(4, c.id), (4, 0)])
      (namespaceChanged (p.param 4 4) c.subsystem (volumeRecord c 5 u.epoch (addRoot c u)))) := by
  subst base
  subst made
  refine (onPacket_next h : execCloneCreate b tag peer s = _).trans (congrArg _ ?_)
  dsimp only
  rw [there]
  dsimp only
  rw [if_neg (not_not_intro kind), if_neg (not_not_intro settled), if_neg (by simp [new]), named]
  dsimp only
  rw [if_neg (by omega), pairWide_ok agrees awaited]

/-- Only a snapshot is cloned (R432). -/
theorem exec_cloneCreate_kind (h : s.cpi.packet b tag 0x0404 = some p) (there : s.ftl.rootOf (p.param 0 4) = some r)
    (kind : r.kind ≠ .snapshot) : exec (.cloneCreate b tag peer) s = .next (wrongKind p r s) := by
  refine (onPacket_next h : execCloneCreate b tag peer s = _).trans (congrArg _ ?_)
  dsimp only
  rw [there]
  exact if_pos kind

/-- A snapshot is told by its record and its seal's (R465). -/
theorem exec_snapQuery (h : s.cpi.packet b tag 0x0405 = some p) (there : s.ftl.rootOf (p.param 0 4) = some r) :
    exec (.snapQuery b tag) s = .next (answered p (s.rootBytes r (s.treeRoot 1 r.id) ++
      ((s.trust.seals.find? (fun x => x.root == r.id)).map Seal.bytes).getD (zeros 32)) [] s) := by
  refine (onPacket_next h : execSnapQuery b tag s = _).trans (congrArg _ ?_)
  rw [there]

end

/-- Settles O50: each packet's row passes its checks under its premises and acts on the state both heads have agreed on; a refused
one leaves the translation as it is. -/
theorem snapshotAndCloneCommands : Obligations.SnapshotAndCloneCommands := by
  unfold Obligations.SnapshotAndCloneCommands
  refine ⟨?createSeal, ?create, ?settle, ?deleteSealed, ?delete, ?sealShorter, ?sealOrProlong, ?clone, ?cloneKind, ?query⟩
  case createSeal =>
    exact fun b tag p s h disagrees => .of (execSnapCreate_led b tag (.refl _ s) rfl)
      ⟨_, exec_snapCreate_disagrees h disagrees, refuse_replied .., refuse_ftl ..⟩
  case create => exact fun _ _ _ _ _ _ => exec_snapCreate
  case settle => exact fun _ _ _ _ => exec_snapshotSettle
  case deleteSealed =>
    exact fun b tag peer peerClock p r s h there kind settled isSealed early =>
      .of (execSnapDelete_led b tag peer peerClock (.refl _ s) rfl)
        ⟨_, exec_snapDelete_sealed h there kind settled isSealed early, refuse_replied .., refuse_ftl .., refuse_trust ..⟩
  case delete =>
    exact fun b tag peer peerClock p r u s h there kind settled open_ agrees deleted awaited =>
      .of (execSnapDelete_led b tag peer peerClock (.refl _ s) rfl)
        ⟨_, exec_snapDelete h there kind settled open_ agrees deleted awaited, changed_replied .., changed_ftl .., by
          rw [changed_trust]⟩
  case sealShorter =>
    exact fun b tag peer p r s h there kind settled isSealed earlier => .of (execSnapSeal_led b tag peer (.refl _ s) rfl)
      ⟨_, exec_snapSeal_shorter h there kind settled isSealed earlier, refuse_replied .., refuse_ftl ..⟩
  case sealOrProlong => exact fun _ _ _ _ _ _ => exec_snapSeal
  case clone => exact fun _ _ _ _ _ _ _ _ => exec_cloneCreate
  case cloneKind =>
    exact fun b tag peer p r s h there kind => .of (execCloneCreate_led b tag peer (.refl _ s) rfl)
      ⟨_, exec_cloneCreate_kind h there kind, refuse_replied .., refuse_ftl ..⟩
  case query =>
    exact fun b tag p r s h there => .of (execSnapQuery_led b tag (.refl _ s) rfl)
      ⟨_, exec_snapQuery h there, answered_replied .., answered_ftl ..⟩

end Sys2Proof.Machine

namespace Sys2Proof.Machine

/-! ### Partners and sessions by packet (R442, R443, R465) -/

section
variable {b : Binding} {tag : Nat} {p : Packet} {s : State}

/-- A partner is enrolled in the place of the one its chip had (R442). -/
theorem exec_replPartnerAdd (h : s.cpi.packet b tag 0x0501 = some p)
    (room : (s.repl.partners.filter (fun x => x.chip != p.param 0 2)).length < 256) :
    exec (.replPartnerAdd b tag) s = .next (changed p [] { s with repl := { s.repl with
      partners := s.repl.partners.filter (fun x => x.chip != p.param 0 2) ++ [⟨p.param 0 2, slice p.params 8 32⟩] } }) := by
  refine (onPacket_next h : execReplPartnerAdd b tag s = _).trans (congrArg _ ?_)
  exact if_neg (by omega)

/-- A head holds at most 256 partners (R442). -/
theorem exec_replPartnerAdd_limit (h : s.cpi.packet b tag 0x0501 = some p)
    (full : 256 ≤ (s.repl.partners.filter (fun x => x.chip != p.param 0 2)).length) :
    exec (.replPartnerAdd b tag) s = .next (refuse p .partnerLimit noDetail s) := by
  refine (onPacket_next h : execReplPartnerAdd b tag s = _).trans (congrArg _ ?_)
  exact if_pos full

/-- A partner goes with its sessions (R465, log entry 60). -/
theorem exec_replPartnerRemove {u : State} (h : s.cpi.packet b tag 0x0502 = some p)
    (enrolled : s.repl.partners.any (fun x => x.chip == p.param 0 2) = true)
    (removed : u = { s with repl := { s.repl with partners := s.repl.partners.filter (fun x => x.chip != p.param 0 2) } }) :
    exec (.replPartnerRemove b tag) s = .next (changed p []
      ((u.repl.sessions.filter (fun x => x.peer == p.param 0 2)).foldl (fun t x => closeSession x t) u)) := by
  subst removed
  refine (onPacket_next h : execReplPartnerRemove b tag s = _).trans (congrArg _ ?_)
  exact if_neg (by simp [enrolled])

/-- A session with a partner is offered on a free register, to the port named or to 7451 (R443). -/
theorem exec_replSessionOpen {reg : Nat} (h : s.cpi.packet b tag 0x0503 = some p) (pool : s.pool.isSome = true)
    (enrolled : s.repl.partners.any (fun x => x.chip == p.param 0 2) = true) (free : s.repl.freeReg = some reg) :
    exec (.replSessionOpen b tag) s =
      .next (offerSession reg (p.param 0 2) (if p.param 2 2 = 0 then 7451 else p.param 2 2) (some (b, tag)) none s) := by
  refine (onPacket_next h : execReplSessionOpen b tag s = _).trans (congrArg _ ?_)
  rw [if_neg (by simp [← Option.not_isSome, pool]), if_neg (by simp [enrolled]), free]

/-- An open session closes once nothing runs on it (R465). -/
theorem exec_replSessionClose {x : Session} (h : s.cpi.packet b tag 0x0504 = some p)
    (there : s.repl.session (p.param 0 2) = some x) (opened : x.step = .isOpen) :
    exec (.replSessionClose b tag) s = .next (closeIdle (setSession { x with closing := true, who := some (b, tag) } s)) := by
  refine (onPacket_next h : execReplSessionClose b tag s = _).trans (congrArg _ ?_)
  rw [there]
  exact if_neg (not_not_intro opened)

/-! ### Transfers, relations and migrations by packet (R451, R456, R457, R460 to R463) -/

/-- A full transfer of a settled snapshot starts on an open session (R451). -/
theorem exec_replAsyncSend_full {x : Session} {r : Root} (h : s.cpi.packet b tag 0x0505 = some p)
    (there : s.repl.session (p.param 0 2) = some x) (known : s.ftl.rootOf (p.param 4 4) = some r) (opened : x.step = .isOpen)
    (stays : x.closing = false) (kind : r.kind = .snapshot) (settled : r.state = .active) (full : p.param 8 4 = 0) :
    exec (.replAsyncSend b tag) s = .next (startTransfer x.reg (.packet b tag) r.id 0 r.domain 0 s) := by
  refine (onPacket_next h : execReplAsyncSend b tag s = _).trans (congrArg _ ?_)
  dsimp only
  rw [there, known, full]
  dsimp only
  rw [if_neg (by simp [opened, stays]), if_neg (not_not_intro kind), if_neg (not_not_intro settled), if_neg (fun based => based.1 rfl)]

/-- The timeout and the policy of the relations named are set; a timeout of 0 is 20 ms (R460, log entry 62). -/
theorem exec_replSyncSet_set {mine : List SyncRel} (h : s.cpi.packet b tag 0x0506 = some p)
    (named : mine = s.repl.syncs.filter (fun y => y.source && y.session == p.param 0 2 &&
      (syncEntries p == [] || y.roots.any (fun r => (syncEntries p).any (fun e => e.1 == r.1)))))
    (opened : s.repl.sessions.any (fun x => x.reg == p.param 0 2 && x.step == .isOpen) = true) (timeout : p.param 4 2 ≤ 1000)
    (sets : p.param 2 1 = 3) (bound : mine ≠ []) :
    exec (.replSyncSet b tag) s = .next (changed p [] (mine.foldl (fun t y => setSync y { y with
      timeout := if p.param 4 2 = 0 then 20 else p.param 4 2
      stall := p.param 3 1 == 1 } t) s)) := by
  refine (onPacket_next h : execReplSyncSet b tag s = _).trans (congrArg _ ?_)
  dsimp only
  rw [← named, if_neg (by simp [opened]), if_neg (by omega), if_neg (by omega), if_pos sets, if_neg bound]

/-- The migration of a root without snapshots, to a domain of the receiving pair. -/
def newMigration (x : Session) (r : Root) (domain : Nat) (s : State) : Migration := ⟨x.reg, r.id, domain, [], 0, s.tt.now, none, none, 0⟩

/-- A domain's fingerprint key as it goes to the receiving pair's `domain`: wrapped under the session's secret (R456). -/
def wrappedKey (x : Session) (r : Root) (domain : Nat) (s : State) : Bytes :=
  xorBytes (s.fpKey r.domain) (kmac256 x.secret (leBytes 2 domain ++ ascii "W") 32 (ascii "BIRCA-ADOPT"))

/-- MIGRATE_EXPORT of a volume without snapshots waits for no transfer: the key goes out, and the packet is answered (R456, R462). -/
theorem exec_migrateExport_bare {x : Session} {r : Root} (h : s.cpi.packet b tag 0x0507 = some p)
    (there : s.repl.session (p.param 0 2) = some x) (known : s.ftl.rootOf (p.param 4 4) = some r) (opened : x.step = .isOpen)
    (stays : x.closing = false) (domain : p.param 2 2 < 4096) (kind : r.kind = .volume)
    (bare : (sortBy (fun a c => a.fenceEpoch ≤ c.fenceEpoch)
      (s.ftl.roots.filter (fun q => q.kind == .snapshot && q.parent == r.id && q.state == .active))).map (·.id) = []) :
    exec (.migrateExport b tag) s = .next (changed p [] (nextMigration r.id (sendRecord x.reg 0x0A 0
      (fields [(2, p.param 2 2), (6, 0)] ++ wrappedKey x r (p.param 2 2) s ++
        kmac256 x.secret (leBytes 2 (p.param 2 2) ++ wrappedKey x r (p.param 2 2) s) 32 (ascii "BIRCA-ADOPT-C"))
      { s with repl := { s.repl with
        migrations := s.repl.migrations.filter (fun y => y.root != r.id) ++ [newMigration x r (p.param 2 2) s] } }))) := by
  refine (onPacket_next h : execMigrateExport b tag s = _).trans (congrArg _ ?_)
  rw [there, known]
  dsimp only
  rw [if_neg (by simp [opened, stays]), if_neg (by omega), if_neg (fun other => other.1 kind), bare]
  rfl

/-- A cutover holds the namespace's fetch and cuts the final snapshot (R463). -/
theorem exec_migrateCutover {m : Migration} {r : Root} (h : s.cpi.packet b tag 0x0508 = some p)
    (migrates : s.repl.migrations.find? (fun m => m.session == p.param 0 2 && m.root == p.param 4 4) = some m)
    (known : s.ftl.rootOf (p.param 4 4) = some r) (transit : p.param 2 2 < 1024)
    (unused : s.ftl.roots.any (fun q => q.isVolume && q.nsid != 0 && q.id != p.param 4 4 && q.ana == p.param 2 2) = false) :
    exec (.migrateCutover b tag) s = .next (cutGroup (.cutover m.session (p.param 4 4)) [p.param 4 4] 0
      (setMigration { m with cutover := some (b, tag), transit := p.param 2 2 }
        { s with hq := { s.hq with heldNs := s.hq.heldNs ++ [r.nsid] } })) := by
  refine (onPacket_next h : execMigrateCutover b tag s = _).trans (congrArg _ ?_)
  dsimp only
  rw [migrates, known]
  exact if_neg (by simp [unused, transit])

/-- A query over all sessions fails while a relation is fractured (R461). -/
theorem exec_replQuery_fractured {y : SyncRel} (h : s.cpi.packet b tag 0x0509 = some p)
    (fractured : (s.repl.syncs.filter (fun y => y.source && (p.param 0 2 == 0xFFFF || y.session == p.param 0 2))).find?
      (·.fractured) = some y)
    (all_ : p.param 0 2 = 0xFFFF) :
    exec (.replQuery b tag) s = .next (refuse p .replFractured (detailOf [(4, (y.roots.headD (0, 0)).1)]) s) := by
  refine (onPacket_next h : execReplQuery b tag s = _).trans (congrArg _ ?_)
  dsimp only
  rw [if_neg (fun one => one.1 all_), fractured]

/-- A query over all sessions is answered while no relation is fractured (R465). -/
theorem exec_replQuery (h : s.cpi.packet b tag 0x0509 = some p)
    (whole : (s.repl.syncs.filter (fun y => y.source && (p.param 0 2 == 0xFFFF || y.session == p.param 0 2))).find?
      (·.fractured) = none)
    (all_ : p.param 0 2 = 0xFFFF) : ∃ payload, exec (.replQuery b tag) s = .next (answered p [] payload s) := by
  have row : execReplQuery b tag s = _ := onPacket_next h
  dsimp only at row
  rw [if_neg (fun one => one.1 all_), whole] at row
  exact ⟨_, row⟩

end

/-- Settles O51: each packet's row passes its checks under its premises; a refused one, and a query, leave replication as it is. -/
theorem replicationPacketCommands : Obligations.ReplicationPacketCommands := by
  unfold Obligations.ReplicationPacketCommands
  refine ⟨?add, ?addLimit, ?remove, ?sessionOpen, ?sessionClose, ?send, ?set, ?migrate, ?cutover, ?queryFractured, ?query⟩
  case add =>
    exact fun b tag p s h room => .of (execReplPartnerAdd_led b tag (.refl _ s) rfl)
      ⟨_, exec_replPartnerAdd h room, changed_replied .., by rw [changed_repl]⟩
  case addLimit =>
    exact fun b tag p s h full => .of (execReplPartnerAdd_led b tag (.refl _ s) rfl)
      ⟨_, exec_replPartnerAdd_limit h full, refuse_replied .., refuse_repl ..⟩
  case remove => exact fun _ _ _ _ _ => exec_replPartnerRemove
  case sessionOpen => exact fun _ _ _ _ _ => exec_replSessionOpen
  case sessionClose => exact fun _ _ _ _ _ => exec_replSessionClose
  case send => exact fun _ _ _ _ _ _ => exec_replAsyncSend_full
  case set => exact fun _ _ _ _ _ => exec_replSyncSet_set
  case migrate =>
    exact fun b tag p x r s h there known opened stays domain kind bare => .of (execMigrateExport_led b tag (.refl _ s) rfl)
      ⟨_, exec_migrateExport_bare h there known opened stays domain kind bare, changed_replied ..⟩
  case cutover => exact fun _ _ _ _ _ _ => exec_migrateCutover
  case queryFractured =>
    exact fun b tag p y s h fractured all_ => .of (execReplQuery_led b tag (.refl _ s) rfl)
      ⟨_, exec_replQuery_fractured h fractured all_, refuse_replied .., refuse_repl ..⟩
  case query =>
    intro b tag p s h whole all_
    obtain ⟨payload, run⟩ := exec_replQuery h whole all_
    obtain ⟨gone, -, -⟩ := answered_replied p [] payload s
    exact .of (execReplQuery_led b tag (.refl _ s) rfl) ⟨_, run, gone, answered_repl ..⟩

end Sys2Proof.Machine

namespace Sys2Proof.Machine

/-! ### The handshake (R443 to R446) -/

section
variable {reg : Nat} {message : Bytes} {x : Session} {s : State}

/-- A sound OFFER is accepted on a free register (R445). -/
theorem exec_offer {port : Nat} {m h k : Bytes} (free : s.repl.freeReg = some reg)
    (sound : acceptOf "BIRCA-SESS" message s = some (m, (h, k))) :
    exec (.offer port message) s = .next (emit (.handshake reg 2 m) (drawn 120 { s with repl := { s.repl with
      sessions := s.repl.sessions ++ [{ newSession reg (fieldAt message 0x10 2) (fieldAt message 0x12 2) port false .accepted s.tt.now with
        offer := message, accept := m, hash := h, secret := k, pool := slice message 0x18 16 }] } })) := by
  change execOffer port message s = _
  rw [execOffer, free, sound]

/-- An OFFER beyond 64 sessions is refused on register 64 (R443, log entry 60). -/
theorem exec_offer_limit {port : Nat} (full : s.repl.freeReg = none) :
    exec (.offer port message) s =
      .next (emit (.handshake 64 4 (hsMessage 4 (fields [(2, statusCode .sessionLimit), (6, 0)]))) s) := by
  change execOffer port message s = _
  rw [execOffer, full]

/-- A sound ACCEPT of the head that was offered the session is answered by this head's PROVE (R445, R446). -/
theorem exec_accept_sound {h k : Bytes} (there : s.repl.session reg = some x) (offered : x.step = .offered)
    (sound : acceptedOf "BIRCA-SESS" x.offer x.xPriv x.kem message = some (h, k)) (named : fieldAt message 0x10 2 = x.peer) :
    exec (.accept reg message) s = .next (emit (.handshake reg 3 (proveOf h "BIRCA-RP-O" s)) (setSession { x with
      accept := message, hash := h, secret := k, xPriv := [], kem := [], step := .proving, at_ := s.tt.now } s)) := by
  change execAccept reg message s = _
  rw [execAccept, there]
  refine (whenDue_pos offered).trans (congrArg _ ?_)
  rw [sound]
  exact if_neg (not_not_intro named)

/-- An ACCEPT that is malformed, or whose X448 result is zero, ends the session (R445, log entry 60). -/
theorem exec_accept_unsound (there : s.repl.session reg = some x) (offered : x.step = .offered)
    (unsound : acceptedOf "BIRCA-SESS" x.offer x.xPriv x.kem message = none) :
    exec (.accept reg message) s = .next (refuseSession x .pktFormat noDetail s) := by
  change execAccept reg message s = _
  rw [execAccept, there]
  refine (whenDue_pos offered).trans (congrArg _ ?_)
  rw [unsound]

/-- The acceptor's PROVE, once accepted, opens the offerer's session (R446). -/
theorem exec_prove_offerer (there : s.repl.session reg = some x) (offers : x.offerer = true) (proving : x.step = .proving)
    (proved : sessionRefusal x message s = none) : exec (.prove reg message) s = .next (openSession x s) := by
  change execProve reg message s = _
  rw [execProve, there]
  refine (whenDue_pos (.inl ⟨offers, proving⟩)).trans (congrArg _ ?_)
  rw [proved]
  exact congrArg (openSession x) (if_pos offers)

/-- A PROVE whose identity record fails its checks ends the session with SESSION_AUTH, reason 3 (R446). -/
theorem exec_prove_identity (there : s.repl.session reg = some x) (accepts : x.offerer = false) (accepted : x.step = .accepted)
    (refused : sessionRefusal x message s = some 3) :
    exec (.prove reg message) s = .next (refuseSession x .sessionAuth (detailOf [(1, 3)]) s) := by
  change execProve reg message s = _
  rw [execProve, there]
  refine (whenDue_pos (.inr ⟨accepts, accepted⟩)).trans (congrArg _ ?_)
  rw [refused]
  exact congrArg (refuseSession x _ _) (if_neg (by decide))

/-- A REFUSE ends a session that is not open (R444). -/
theorem exec_refuse {status : Nat} (there : s.repl.session reg = some x) (closed : x.step ≠ .isOpen) :
    exec (.refuse reg status) s = .next (endSession x .replPeerAbort (detailOf [(2, status)]) status s) := by
  change execRefuse reg status s = _
  rw [execRefuse, there]
  exact whenDue_pos closed

/-- A handshake that stands still for 2 s is refused (R444). -/
theorem exec_handshakeTimeout (there : s.repl.session reg = some x) (closed : x.step ≠ .isOpen)
    (late : x.at_ + secBells 2 ≤ s.tt.now) :
    exec (.handshakeTimeout reg) s = .next (refuseSession x .replPeerAbort noDetail s) := by
  change execHandshakeTimeout reg s = _
  rw [execHandshakeTimeout, there]
  exact whenDue_pos ⟨closed, late⟩

/-! ### The life of an open session (R448, R449) -/

/-- The offerer offers the session's successor after a day or 2^40 bytes (R448). -/
theorem exec_sessionRekey {new : Nat} (there : s.repl.session reg = some x) (free : s.repl.freeReg = some new)
    (opened : x.step = .isOpen) (offers : x.offerer = true) (stays : x.closing = false)
    (first : s.repl.sessions.all (fun y => y.replaces != some reg) = true)
    (worn : x.opened + 86400 ≤ s.clockSec ∨ 2 ^ 40 ≤ x.sent ∨ 2 ^ 40 ≤ x.received) :
    exec (.sessionRekey reg) s = .next (offerSession new x.peer x.port none (some reg) s) := by
  change execSessionRekey reg s = _
  rw [execSessionRekey, there, free]
  exact whenDue_pos ⟨opened, offers, stays, first, worn⟩

/-- Text that has waited for a bell is padded to a segment by an empty record (R449). -/
theorem exec_segmentSendTimer (there : s.repl.session reg = some x) (waits : x.text ≠ [])
    (late : x.textAt.any (fun t => t + 1 ≤ s.tt.now) = true) (short : x.text.length < 65536) :
    exec (.segmentSendTimer reg) s = .next (sendRecord reg 0 0 (zeros (if 16 ≤ 65536 - x.text.length
      then 65536 - x.text.length - 16 else 65536 - x.text.length + 65536 - 16)) s) := by
  change execSegmentSendTimer reg s = _
  rw [execSegmentSendTimer, there]
  exact (whenDue_pos ⟨waits, late⟩).trans (congrArg _ (if_neg (by omega)))

end

/-- Settles O52: each event finds its session in the state it waits in, and the message's checks choose what follows. -/
theorem sessionCommands : Obligations.SessionCommands := by
  unfold Obligations.SessionCommands
  refine ⟨?offer, ?offerLimit, ?accept, ?acceptUnsound, ?prove, ?proveIdentity, ?refused, ?timeout, ?rekey, ?segment⟩
  case offer => exact fun _ _ _ _ _ _ _ => exec_offer
  case offerLimit =>
    exact fun port message s full => .of (execOffer_led port message (.refl _ s) rfl) ⟨_, exec_offer_limit full, rfl, rfl⟩
  case accept => exact fun _ _ _ _ _ _ => exec_accept_sound
  case acceptUnsound => exact fun _ _ _ _ => exec_accept_unsound
  case prove => exact fun _ _ _ _ => exec_prove_offerer
  case proveIdentity => exact fun _ _ _ _ => exec_prove_identity
  case refused => exact fun _ _ _ _ => exec_refuse
  case timeout => exact fun _ _ _ => exec_handshakeTimeout
  case rekey => exact fun _ _ _ _ => exec_sessionRekey
  case segment => exact fun _ _ _ => exec_segmentSendTimer

end Sys2Proof.Machine

namespace Sys2Proof.Machine

/-! ### What the receiver does with a transfer (R451 to R455) -/

section
variable {session transfer : Nat} {x : Session} {y : Transfer} {u s : State}

/-- A transfer of a domain that this pair does not know is aborted (log entry 61). -/
theorem exec_beginTransfer_unbound {root base snap fenceEpoch size domain flags until_ : Nat} {pool : Bytes}
    (there : s.repl.session session = some x) (opened : x.step = .isOpen)
    (begun : y = ⟨session, transfer, false, .received, base, snap, 0, flags, until_, [], [], [], [], none, [], false⟩)
    (counted : u = setSession { x with received := x.received + 80 } s) (unbound : s.ftl.domainRec domain = none) :
    exec (.beginTransfer session transfer root base snap fenceEpoch size domain flags until_ pool) s =
      .next (abortTransfer y .lockerUnbound noDetail u) := by
  subst begun
  subst counted
  change execBeginTransfer session transfer root base snap fenceEpoch size domain flags until_ pool s = _
  rw [execBeginTransfer, there]
  refine (whenDue_pos opened).trans (congrArg _ (if_pos ?_))
  exact Option.isNone_iff_eq_none.mpr unbound

/-- FINGERPRINTS are applied in order, and one WANT names the grains that did not match (R452, log entry 61). -/
theorem exec_fingerprints {entries : Bytes} {z : Transfer} {dom : Nat} (open_ : s.repl.transfer session transfer false = some y)
    (there : s.repl.session session = some x) (domain : dom = ((s.ftl.rootOf y.replica).map (·.domain)).getD 0)
    (applied : ((List.range (entries.length / 32)).map (fun i => slice entries (32 * i) 32)).foldl (applyEntry y dom)
      ({ y with wants := [] }, setSession { x with received := x.received + entries.length + 24 } s) = (z, u)) :
    exec (.fingerprints session transfer entries) s = .next (sendRecord session 3 transfer
      (fields ([(4, z.wants.length), (4, 0)] ++ z.wants.map (fun g => (8, g)))) (setTransfer z u)) := by
  subst domain
  change execFingerprints session transfer entries s = _
  rw [execFingerprints, open_, there]
  dsimp only
  rw [applied]

/-- A grain that decodes whole is staged as a version of the replica (R452). -/
theorem exec_grain {grain tier : Nat} {slot tail : Bytes} {o : SkxResult} (open_ : s.repl.transfer session transfer false = some y)
    (there : s.repl.session session = some x) (room : s.admitsWrite [(4 * grain, 4)] 4 = true)
    (decoded : o = skxDecode (fitBytes (4096 * tier) slot) tier [0, 1, 2, 3])
    (counted : u = setSession { x with received := x.received + 32 + slot.length + tail.length } s) (sound : o.errors = [])
    (whole : o.released.length = 4) :
    exec (.grain session transfer grain tier slot tail) s =
      .next (setTransfer { y with staged := y.staged ++ [(grain, u.hq.nextFsn (2 ^ 32 + y.replica))] }
        (writeReplica y.replica session transfer (u.hq.nextFsn (2 ^ 32 + y.replica)) (4 * grain) 4 (o.released.flatMap (·.2)) tail u)) := by
  subst decoded
  subst counted
  change execGrain session transfer grain tier slot tail s = _
  rw [execGrain, open_, there]
  refine (whenDue_pos room).trans (congrArg _ ?_)
  exact if_neg (by simp [sound, whole])

/-- On END the replica's snapshot is asked for, with its fence at this bell (R453). -/
theorem exec_endTransfer {entries : Nat} {digest : Bytes} {w : State × SnapGroup}
    (open_ : s.repl.transfer session transfer false = some y) (there : s.repl.session session = some x)
    (ended : u = setTransfer { y with ended := some (entries, digest) } (setSession { x with received := x.received + 56 } s))
    (started : w = startGroup (.replica session transfer) (2 ^ 63 * u.sys.slot + u.repl.nextGroup) [y.replica] 0
      { u with repl := { u.repl with nextGroup := u.repl.nextGroup + 1 } }) :
    exec (.endTransfer session transfer entries digest) s =
      .next (fenceBell (setGroupOf { w.2 with fence := some w.1.tt.now } w.1)) := by
  subst ended
  subst started
  change execEndTransfer session transfer entries digest s = _
  rw [execEndTransfer, open_, there]

/-! ### What the sender does with a transfer (R450, R451, R453) -/

/-- Of a snapshot that is gone no grain is read (R451 step 4). -/
theorem exec_want_gone {grains : List Nat} {z : Transfer} (open_ : s.repl.transfer session transfer true = some y)
    (gone : s.ftl.rootOf y.snap = none) (asked : z = { y with asked := true, wants := y.wants ++ [] }) :
    exec (.want session transfer grains) s = .next (sendEnd z (setTransfer z s)) := by
  have noGrain : grains.filter (fun g => ((none : Option Root).bind (fun r => r.cidOf g)).any (· != 0)) = [] := by simp
  subst asked
  change execWant session transfer grains s = _
  rw [execWant, open_]
  dsimp only
  rw [gone, noGrain]
  rfl

/-- COMMIT answers the packet that asked for the transfer, with the replica's snapshot (R453). -/
theorem exec_replCommit_packet {snapshot tag : Nat} {digest : Bytes} {b : Binding} {p : Packet} (numbered : transfer ≠ 0)
    (open_ : s.repl.transfer session transfer true = some y) (why : y.why = .packet b tag)
    (accepted : (dropTransfer y s).cpi.packet b tag 0x0505 = some p) :
    exec (.replCommit session transfer 0 snapshot digest) s =
      .next (changed p (fields [(4, snapshot), (4, y.number)]) (dropTransfer y s)) := by
  change execReplCommit session transfer 0 snapshot digest s = _
  rw [execReplCommit, if_neg numbered, open_]
  dsimp only
  rw [if_neg (not_not_intro rfl), why]
  dsimp only
  rw [accepted]

/-- An ABORT other than for a missing base fails the transfer (R450, R451). -/
theorem exec_replAbort_sender {status : Nat} {detail : Bytes} (numbered : transfer ≠ 0)
    (open_ : s.repl.transfer session transfer true = some y) (other : status ≠ 0x0670) :
    exec (.replAbort session transfer status detail) s =
      .next (closeIdle (failTransfer y .replPeerAbort (detailOf [(2, status)]) s)) := by
  change execReplAbort session transfer status detail s = _
  rw [execReplAbort, if_neg numbered, open_]
  exact congrArg _ (if_neg (fun missing => other missing.1))

/-- An ABORT of a transfer that is received discards what is staged of it (R450, R454). -/
theorem exec_replAbort_receiver {status : Nat} {detail : Bytes} (numbered : transfer ≠ 0)
    (unsent : s.repl.transfer session transfer true = none) (open_ : s.repl.transfer session transfer false = some y) :
    exec (.replAbort session transfer status detail) s =
      .next (failTransfer y .replPeerAbort (detailOf [(2, status)]) (dropStaged y s)) := by
  change execReplAbort session transfer status detail s = _
  rw [execReplAbort, if_neg numbered, unsent, open_]

end

/-! ### The adoption of a key (R456, R549) -/

section
variable {session domain : Nat} {wrapped check : Bytes} {x : Session} {a : Adoption} {s : State}

/-- A key that no domain awaits on this session is not adopted (R456). -/
theorem exec_keyAdopt_unasked (there : s.repl.session session = some x)
    (unasked : s.repl.adoptions.find? (fun a => a.domain == domain && a.session == session) = none) :
    exec (.keyAdopt session domain wrapped check) s =
      .next (sendRecord session 0x0B 0 (fields [(2, statusCode .adoptFail), (6, 0)] ++ detailOf [(2, domain)]) s) := by
  change execKeyAdopt session domain wrapped check s = _
  rw [execKeyAdopt, there]
  dsimp only
  rw [unasked]

/-- A key whose check holds is the domain's, even where the packet that asked for it is gone (R456). -/
theorem exec_keyAdopt_unanswered {u : State} (there : s.repl.session session = some x)
    (asked : s.repl.adoptions.find? (fun a => a.domain == domain && a.session == session) = some a)
    (sound : kmac256 x.secret (leBytes 2 domain ++ wrapped) 32 (ascii "BIRCA-ADOPT-C") = check)
    (taken : u = { s with repl := { s.repl with adoptions := s.repl.adoptions.filter (fun y => y.domain != domain) } })
    (gone : u.cpi.packet a.who.1 a.who.2 0x0306 = none) :
    exec (.keyAdopt session domain wrapped check) s = .next (createDomain domain a.verify
      (some (xorBytes wrapped (kmac256 x.secret (leBytes 2 domain ++ ascii "W") 32 (ascii "BIRCA-ADOPT")), x.pool)) u) := by
  subst taken
  change execKeyAdopt session domain wrapped check s = _
  rw [execKeyAdopt, there]
  dsimp only
  rw [asked]
  dsimp only
  rw [if_pos sound, gone]

/-- A domain whose key has not come within 60 s is not created (R549). -/
theorem exec_keyAdoptWaitExpiry {p : Packet} (asked : s.repl.adoptions.find? (fun a => a.domain == domain) = some a)
    (late : a.since + secBells 60 ≤ s.tt.now) (accepted : s.cpi.packet a.who.1 a.who.2 0x0306 = some p) :
    exec (.keyAdoptWaitExpiry domain) s = .next (refuse p .adoptFail (detailOf [(2, domain)])
      { s with repl := { s.repl with adoptions := s.repl.adoptions.filter (fun y => y.domain != domain) } }) := by
  change execKeyAdoptWaitExpiry domain s = _
  rw [execKeyAdoptWaitExpiry, asked]
  refine (whenDue_pos late).trans (congrArg _ ?_)
  dsimp only
  rw [accepted]

end

/-- Settles O53: each record finds its session and its transfer, and the premises choose the branch of its row; the frames are those
of `Laws/`. -/
theorem transferCommands : Obligations.TransferCommands := by
  unfold Obligations.TransferCommands
  refine ⟨?begin, ?fingerprints, ?want, ?grain, ?finish, ?commit, ?abortSender, ?abortReceiver, ?adoptUnasked, ?adopt, ?adoptLate⟩
  case begin => exact fun _ _ _ _ _ _ _ _ _ _ _ _ _ _ _ => exec_beginTransfer_unbound
  case fingerprints => exact fun _ _ _ _ _ _ _ _ _ => exec_fingerprints
  case want => exact fun _ _ _ _ _ _ _ => exec_want_gone
  case grain => exact fun _ _ _ _ _ _ _ _ _ _ _ => exec_grain
  case finish => exact fun _ _ _ _ _ _ _ _ _ => exec_endTransfer
  case commit =>
    intro session transfer status snapshot digest y p b tag s numbered open_ ok why accepted
    subst ok
    exact .of (execReplCommit_led session transfer 0 snapshot digest (.refl _ s) rfl)
      ⟨_, exec_replCommit_packet numbered open_ why accepted, changed_replied ..⟩
  case abortSender => exact fun _ _ _ _ _ _ => exec_replAbort_sender
  case abortReceiver => exact fun _ _ _ _ _ _ => exec_replAbort_receiver
  case adoptUnasked => exact fun _ _ _ _ _ _ => exec_keyAdopt_unasked
  case adopt => exact fun _ _ _ _ _ _ _ _ => exec_keyAdopt_unanswered
  case adoptLate =>
    exact fun domain a p s asked late accepted => .of (execKeyAdoptWaitExpiry_led domain (.refl _ s) rfl)
      ⟨_, exec_keyAdoptWaitExpiry asked late accepted, refuse_replied .., by rw [refuse_repl]⟩

end Sys2Proof.Machine

namespace Sys2Proof.Machine

/-! ### Relations of synchronous replication (R457 to R461) -/

section
variable {session root : Nat} {x : Session} {y : SyncRel} {u s : State}

/-- A SYNC_WRITE of a volume that its relation knows is staged on the replica, under the relation's base plus the source's number
(R458, log entry 62). -/
theorem exec_syncWrite_known {count seq lba base : Nat} {blocks pi : Bytes} {r : Root} (there : s.repl.session session = some x)
    (replica : s.ftl.roots.find? (fun r => r.kind == .replica && r.sourceRoot == root) = some r) (opened : x.step = .isOpen)
    (room : s.admitsWrite [(lba, count)] count = true)
    (counted : u = setSession { x with received := x.received + 40 + blocks.length + pi.length } s)
    (related : u.repl.syncs.find? (fun y => !y.source && y.session == session) = some y)
    (bound : y.roots.any (fun p => p.1 == root) = true) (based : getKey root y.bases = some base)
    (live : u.repl.replicas.contains r.id = true) (any_ : u.repl.syncs.any (fun y => !y.source && y.session == session) = true) :
    exec (.syncWrite session root count seq lba blocks pi) s =
      .next (ackSyncs (writeReplica r.id session 0 (base + seq) lba count blocks pi (setSync y { y with
        bases := putKey root base y.bases
        waiting := y.waiting ++ [⟨root, seq, base + seq, false, none⟩] } u))) := by
  change execSyncWrite session root count seq lba blocks pi s = _
  rw [execSyncWrite, there, replica]
  refine (whenDue_pos ⟨opened, room⟩).trans (congrArg _ ?_)
  dsimp only
  rw [← counted, related, if_pos any_, Option.getD_some, based, if_pos bound, if_pos live]
  rfl

/-- A SYNC_ACK releases the writes up to its number (R457). -/
theorem exec_syncAck {seq : Nat} (there : s.repl.session session = some x) :
    exec (.syncAck session root seq) s =
      .next (syncAcked session root seq (setSession { x with received := x.received + 32 } s)) := by
  change execSyncAck session root seq s = _
  rw [execSyncAck, there]

/-- A relation with the policy Fracture is fractured when a SYNC_ACK is missing after its timeout (R460). -/
theorem exec_syncAckTimeout
    (bound : s.repl.syncs.find? (fun y => y.source && y.session == session && !y.fractured && y.roots.any (fun p => p.1 == root)) = some y)
    (fractures : y.stall = false) (late : y.waiting.any (fun w => !w.acked && w.at_ + msBells y.timeout ≤ s.tt.now) = true) :
    exec (.syncAckTimeout session root) s = .next (fracture y s) := by
  change execSyncAckTimeout session root s = _
  rw [execSyncAckTimeout, bound]
  exact whenDue_pos ⟨fractures, late⟩

/-- A SYNC_FENCE of a relation that has no replica yet cuts an empty checkpoint, and the answered writes wait no more (R459). -/
theorem exec_syncFence_empty {snapshot bell : Nat} {w : State × SnapGroup}
    (bound : s.repl.syncs.find? (fun y => !y.source && y.session == session) = some y) (empty : y.roots = [])
    (started : w = startGroup (.checkpoint session false) (2 ^ 63 * s.sys.slot + s.repl.nextGroup) [] 0
      { s with repl := { s.repl with nextGroup := s.repl.nextGroup + 1 } }) :
    exec (.syncFence session snapshot bell []) s = .next (setSync y { y with waiting := y.waiting.filter (fun w => !w.acked) }
      (fenceBell (setGroupOf { w.2 with fence := some w.1.tt.now } w.1))) := by
  subst started
  change execSyncFence session snapshot bell [] s = _
  rw [execSyncFence, bound]
  simp only [empty, List.map_nil, List.zip_nil_left, List.foldl_nil, List.contains_nil, Bool.or_false]

/-- Every 60 s the source cuts a checkpoint of a relation that has none under way (R459). -/
theorem exec_syncCheckpoint_one
    (due : s.repl.syncs.filter (fun y => y.source && y.session == session && !y.fractured && y.checkAt + secBells 60 ≤ s.tt.now &&
      !s.repl.groups.any (fun g => g.why == .checkpoint session true && g.roots == y.roots.map (·.1))) = [y]) :
    exec (.syncCheckpoint session) s = .next (cutGroup (.checkpoint session true) (y.roots.map (·.1)) 0
      (setSync y { y with checkAt := s.tt.now, seen := false, made := [] } s)) := by
  change execSyncCheckpoint session s = _
  rw [execSyncCheckpoint, due]
  rfl

/-- Every 60 s a fractured relation with an open session and no catch-up under way tries one (R461). -/
theorem exec_fractureResumeTimer_one
    (due : s.repl.syncs.filter (fun y => y.source && y.session == session && y.fractured && y.triedAt + secBells 60 ≤ s.tt.now &&
      s.repl.sessions.any (fun x => x.reg == session && x.step == .isOpen) && !s.repl.groups.any (fun g => g.why == .resume session) &&
      !s.repl.transfers.any (fun t => y.roots.any (fun p => t.why == .resume p.1))) = [y]) :
    exec (.fractureResumeTimer session) s = .next (cutGroup (.resume session) (y.roots.map (·.1)) 0
      (setSync y { y with triedAt := s.tt.now } s)) := by
  change execFractureResumeTimer session s = _
  rw [execFractureResumeTimer, due]
  rfl

/-! ### Migrations in progress (R462) -/

/-- Every 60 s a migration that has sent all its snapshots cuts a fresh one (R462). -/
theorem exec_migrateRepeatTimer_cuts {m : Migration}
    (there : s.repl.migrations.find? (fun m => m.session == session && m.root == root) = some m) (stays : m.cutover = none)
    (late : m.lastAt + secBells 60 ≤ s.tt.now)
    (opened : s.repl.sessions.any (fun x => x.reg == session && x.step == .isOpen) = true)
    (uncut : s.repl.groups.all (fun g => g.why != .migration session root) = true)
    (unsent : s.repl.transfers.all (fun t => t.why != .migration root) = true) (sent : m.queue = []) :
    exec (.migrateRepeatTimer session root) s = .next (cutGroup (.migration session root) [root] 0
      (setMigration { m with lastAt := s.tt.now } s)) := by
  change execMigrateRepeatTimer session root s = _
  rw [execMigrateRepeatTimer, there]
  refine (whenDue_pos ⟨Option.isNone_iff_eq_none.mpr stays, late, opened, uncut, unsent⟩).trans (congrArg _ ?_)
  exact if_neg (not_not_intro sent)

end

/-- Settles O54: each record and each timer finds its relation or its migration, and is due under its premises. -/
theorem syncReplicationCommands : Obligations.SyncReplicationCommands := by
  unfold Obligations.SyncReplicationCommands
  refine ⟨?write, ?ack, ?timeout, ?fence, ?checkpoint, ?resume, ?repeat_⟩
  case write => exact fun _ _ _ _ _ _ _ _ _ _ _ _ _ => exec_syncWrite_known
  case ack => exact fun _ _ _ _ _ => exec_syncAck
  case timeout => exact fun _ _ _ _ => exec_syncAckTimeout
  case fence => exact fun _ _ _ _ _ _ => exec_syncFence_empty
  case checkpoint => exact fun _ _ _ => exec_syncCheckpoint_one
  case resume => exact fun _ _ _ => exec_fractureResumeTimer_one
  case repeat_ => exact fun _ _ _ _ => exec_migrateRepeatTimer_cuts

end Sys2Proof.Machine

namespace Sys2Proof.Machine

/-! ### The reset state (R580, R586) -/

/-- Settles O2: the ring and the pocket are empty at reset, and nothing waits. -/
theorem resetHoldsTheInvariant : Obligations.ResetHoldsTheInvariant :=
  ⟨⟨rfl, Nat.zero_le _, fun _ => ⟨rfl, rfl⟩⟩, rfl⟩

/-! ### Arbitration (R481) -/

/-- Settles O17: a head that meets the rule holds at least half of the witnesses, and head slot 1 more than half. -/
theorem atMostOneHeadContinues : Obligations.AtMostOneHeadContinues := by
  rintro held0 held1 m total ⟨zero, one⟩
  simp only [meets, Bool.or_eq_true, Bool.and_eq_true, beq_iff_eq, decide_eq_true_eq] at zero one
  omega

/-! ### Signature blocks (R67, R507) -/

/-- Settles O18: the four checks are the branches of `checkBlock`, in their order. -/
theorem signatureBlockChecks : Obligations.SignatureBlockChecks := by
  intro usable keys msg ctx block
  cases slot : usable with
  | false => simp [checkBlock]
  | true =>
    cases ed : Config.ed448Verify keys.1 msg ctx (slice block 4 114) with
    | false => simp [checkBlock, sigEd, ed]
    | true =>
      cases ml : Config.mldsaVerify keys.2 msg ctx (slice block 120 4627) with
      | false => simp [checkBlock, sigEd, sigMl, ed, ml]
      | true => cases clean : sigClean block <;> simp [checkBlock, sigEd, sigMl, ed, ml, clean]

/-! ### Claims (R546 to R548) -/

theorem mem_insertBy {α : Type} {le : α → α → Bool} {a x : α} {l : List α} : x ∈ insertBy le a l ↔ x = a ∨ x ∈ l := by
  induction l with
  | nil => simp [insertBy]
  | cons b r ih =>
    unfold insertBy
    split
    · simp
    · simp [ih, or_left_comm]

theorem mem_sortBy {α : Type} {le : α → α → Bool} {x : α} {l : List α} : x ∈ sortBy le l ↔ x ∈ l := by
  induction l with
  | nil => simp [sortBy]
  | cons a r ih =>
    show x ∈ insertBy le a (sortBy le r) ↔ _
    rw [mem_insertBy, ih, List.mem_cons]

theorem insertBy_ascending {a : Nat} {l : List Nat} (h : l.Pairwise (· ≤ ·)) : (insertBy (· ≤ ·) a l).Pairwise (· ≤ ·) := by
  induction l with
  | nil => simp [insertBy]
  | cons b r ih =>
    obtain ⟨least, rest⟩ := List.pairwise_cons.mp h
    unfold insertBy
    split
    next le =>
      have ab : a ≤ b := of_decide_eq_true le
      exact List.pairwise_cons.mpr ⟨fun x hx => (List.mem_cons.mp hx).elim (· ▸ ab) (fun hx => ab.trans (least x hx)), h⟩
    next gt =>
      have ba : b ≤ a := by simpa using Nat.le_of_lt (by simpa using gt)
      exact List.pairwise_cons.mpr ⟨fun x hx => (mem_insertBy.mp hx).elim (· ▸ ba) (least x), ih rest⟩

theorem sortBy_ascending (l : List Nat) : (sortBy (· ≤ ·) l).Pairwise (· ≤ ·) := by
  induction l with
  | nil => exact List.Pairwise.nil
  | cons a r ih => exact insertBy_ascending ih

/-- The first value found in an ascending list stands at the lowest element that has one. -/
theorem findSome?_lowest {α : Type} {f : Nat → Option α} {l : List Nat} {a : α} (ascending : l.Pairwise (· ≤ ·))
    (found : l.findSome? f = some a) : ∃ r ∈ l, f r = some a ∧ ∀ q ∈ l, f q ≠ none → r ≤ q := by
  induction l with
  | nil => cases found
  | cons b l ih =>
    obtain ⟨least, rest⟩ := List.pairwise_cons.mp ascending
    rw [List.findSome?_cons] at found
    cases here : f b with
    | some c =>
      rw [here] at found
      cases found
      exact ⟨b, List.mem_cons_self, here, fun q hq _ => (List.mem_cons.mp hq).elim (fun e => e ▸ le_rfl) (least q)⟩
    | none =>
      rw [here] at found
      obtain ⟨r, mem, val, low⟩ := ih rest found
      refine ⟨r, List.mem_cons_of_mem _ mem, val, fun q hq some_ => ?_⟩
      rcases List.mem_cons.mp hq with rfl | hq
      · exact absurd here some_
      · exact low q hq some_

/-- What blocks a claim of one resource: its holder, where that is another feature. -/
def Cpi.blocker (c : Cpi) (mine : Claim → Bool) (r : Nat) : Option Claim := (c.holder r).bind (fun k => if mine k then none else some k)

theorem blocked_eq (c : Cpi) (res : List Nat) (mine : Claim → Bool) :
    c.blocked res mine = (sortBy (· ≤ ·) res).findSome? (c.blocker mine) := rfl

theorem blocker_eq_some {c : Cpi} {mine : Claim → Bool} {r : Nat} {k : Claim} :
    c.blocker mine r = some k ↔ c.holder r = some k ∧ mine k = false := by
  unfold Cpi.blocker
  cases held : c.holder r with
  | none => simp
  | some j =>
    cases own : mine j <;> simp [own]
    · rintro rfl; exact own
    · rintro rfl; exact own

/-- The claim that holds a resource names it. -/
theorem holder_resource {c : Cpi} {r : Nat} {k : Claim} (h : c.holder r = some k) : k.resource = r := by
  simpa using List.find?_some h

/-- Settles O19: a claim is blocked at the first resource of the ascending list that another feature holds. -/
theorem claimsAreAllOrNothing : Obligations.ClaimsAreAllOrNothing := by
  intro c res mine
  rw [blocked_eq]
  refine ⟨fun k found => ?_, fun none_ r wanted j held => ?_⟩
  · obtain ⟨r, mem, val, low⟩ := findSome?_lowest (sortBy_ascending res) found
    obtain ⟨held, other⟩ := blocker_eq_some.mp val
    obtain rfl := holder_resource held
    refine ⟨mem_sortBy.mp mem, held, other, fun q wanted j qHeld qOther => low q (mem_sortBy.mpr wanted) ?_⟩
    rw [blocker_eq_some.mpr ⟨qHeld, qOther⟩]
    exact Option.some_ne_none j
  · have free : c.blocker mine r = none := List.findSome?_eq_none_iff.mp none_ r (mem_sortBy.mpr wanted)
    by_contra other
    rw [blocker_eq_some.mpr ⟨held, by simpa using other⟩] at free
    cases free

/-- Claims without those on some resources: those resources are free, the others are held as before. -/
theorem find?_claims_without (res : List Nat) (l : List Claim) (r : Nat) :
    (l.filter (fun k => !res.contains k.resource)).find? (fun k => k.resource == r) =
      if r ∈ res then none else l.find? (fun k => k.resource == r) := by
  rw [List.find?_filter]
  split
  next mem =>
    rw [List.find?_eq_none]
    rintro k - hk
    obtain ⟨free, rfl⟩ : k.resource ∉ res ∧ k.resource = r := by simpa using hk
    exact free mem
  next free =>
    congr 1
    funext k
    by_cases e : k.resource = r
    · subst e; simp [free]
    · simp [e]

/-- Among the claims on some resources a listed resource has its own. -/
theorem find?_claims_of (f : Nat → Claim) (names : ∀ r, (f r).resource = r) (res : List Nat) (r : Nat) :
    (res.map f).find? (fun k => k.resource == r) = if r ∈ res then some (f r) else none := by
  induction res with
  | nil => rfl
  | cons q l ih =>
    rw [List.map_cons, List.find?_cons, ih, names]
    by_cases e : q = r
    · subst e; simp
    · simp [beq_false_of_ne e, Ne.symm e]

theorem holder_claimAll (res : List Nat) (opcode cls tag : Nat) (b : Option Binding) (s : State) (r : Nat) :
    (claimAll res opcode cls tag b s).cpi.holder r =
      if r ∈ res then some ⟨r, opcode, cls, tag, b, s.tt.now⟩ else s.cpi.holder r := by
  unfold claimAll Cpi.holder
  rw [List.find?_append, find?_claims_without, find?_claims_of (fun r => ⟨r, opcode, cls, tag, b, s.tt.now⟩) (fun _ => rfl)]
  split <;> simp

theorem holder_releaseClaims (res : List Nat) (s : State) (r : Nat) :
    (releaseClaims res s).cpi.holder r = if r ∈ res then none else s.cpi.holder r := find?_claims_without ..

/-- Settles O20: the holder after a claim and after a release. -/
theorem claimedResourcesAreHeld : Obligations.ClaimedResourcesAreHeld := fun res opcode cls tag b s =>
  ⟨fun r mem => by rw [holder_claimAll, if_pos mem], fun r free => by rw [holder_claimAll, if_neg free],
    holder_releaseClaims res s⟩

/-! ### Addresses of the DRAM (R556, R558) -/

section
variable (d : Dram)

theorem Dram.g_pos : 0 < d.g := Nat.two_pow_pos _

/-- The unit of a channel offset is that of the HPA, shared out over 16 channels (R556). -/
theorem Dram.offset_unit (hpa : Nat) : d.offset hpa / d.g = hpa / d.g / 16 := by
  rw [Dram.offset, Nat.mul_comm, Nat.mul_add_div d.g_pos, Nat.div_eq_of_lt (Nat.mod_lt _ d.g_pos), Nat.add_zero]

/-- Within its unit a byte keeps its place (R556). -/
theorem Dram.offset_byte (hpa : Nat) : d.offset hpa % d.g = hpa % d.g := by
  rw [Dram.offset, Nat.mul_add_mod_self_right, Nat.mod_mod]

theorem Dram.hpa_eq (hpa : Nat) : hpa = (16 * (d.offset hpa / d.g) + d.home hpa) * d.g + d.offset hpa % d.g := by
  rw [d.offset_unit, d.offset_byte, Dram.home, Nat.div_add_mod, Nat.div_add_mod']

/-- The channel and the offset of a unit of an evacuated channel, by its number among those of the other 15 channels (R558). -/
theorem Dram.redirect_fst (h off : Nat) :
    (d.redirect h off).1 = if off / d.g % 15 < h then off / d.g % 15 else off / d.g % 15 + 1 := rfl

theorem Dram.redirect_snd (h off : Nat) :
    (d.redirect h off).2 = 15 * d.capacity / 16 + (off / d.g / 15 * d.g + off % d.g) := Nat.add_assoc ..

end

/-- Settles O10: home channel and offset give the HPA back. -/
theorem headPhysicalAddresses : Obligations.HeadPhysicalAddresses := by
  refine fun d hpa => ⟨Nat.mod_lt _ (by decide), d.hpa_eq hpa, fun other home offset => ?_⟩
  rw [d.hpa_eq other, home, offset, ← d.hpa_eq hpa]

/-- A place in one sixteenth of a channel's units is put together from a quotient by 15 and a byte of the unit. -/
theorem redirect_unit_lt {g k off : Nat} (pos : 0 < g) (live : off < 15 * (g * k)) : off / g / 15 * g + off % g < g * k := by
  have unit : off / g < 15 * k := Nat.div_lt_of_lt_mul (by rw [Nat.mul_left_comm]; exact live)
  have quot : off / g / 15 + 1 ≤ k := by omega
  calc off / g / 15 * g + off % g < (off / g / 15 + 1) * g := by rw [Nat.succ_mul]; exact Nat.add_lt_add_left (Nat.mod_lt _ pos) _
    _ ≤ g * k := by rw [Nat.mul_comm g]; exact Nat.mul_le_mul_right g quot

/-- The place of a byte in a channel's reserve tells the quotient and the byte. -/
theorem redirect_unit_inj {g q q' b b' : Nat} (hb : b < g) (hb' : b' < g) (e : q' * g + b' = q * g + b) : q' = q ∧ b' = b := by
  have pos : 0 < g := Nat.zero_lt_of_lt hb
  have hq := congrArg (· / g) e
  have hr := congrArg (· % g) e
  simp only [Nat.mul_comm _ g, Nat.mul_add_div pos, Nat.mul_add_mod, Nat.div_eq_of_lt hb, Nat.div_eq_of_lt hb',
    Nat.mod_eq_of_lt hb, Nat.mod_eq_of_lt hb'] at hq hr
  exact ⟨hq, hr⟩

/-- Settles O11: the 15 other channels take the units in turn, each into its reserve of one sixteenth. -/
theorem evacuatedUnits : Obligations.EvacuatedUnits := by
  intro d h off home pos whole live
  obtain ⟨k, hk⟩ := Nat.dvd_of_mod_eq_zero whole
  have cap : d.capacity / 16 = d.g * k := by rw [hk, Nat.mul_assoc, Nat.mul_div_cancel_left _ (by decide)]
  have reserve : 15 * d.capacity / 16 = 15 * (d.g * k) := by
    rw [hk, show 15 * (16 * d.g * k) = 16 * (15 * (d.g * k)) by ring, Nat.mul_div_cancel_left _ (by decide)]
  have total : d.capacity = 16 * (d.g * k) := by rw [hk, Nat.mul_assoc]
  rw [cap] at live ⊢
  have place := redirect_unit_lt d.g_pos live
  refine ⟨?channel, ?other, ?above, ?below, ?alone⟩
  case channel => rw [Dram.redirect_fst]; split <;> omega
  case other => rw [Dram.redirect_fst]; split <;> omega
  case above => rw [Dram.redirect_snd]; exact Nat.le_add_right ..
  case below => rw [Dram.redirect_snd, reserve]; omega
  case alone =>
    intro off' _ same
    have channel := congrArg Prod.fst same
    have place := congrArg Prod.snd same
    rw [Dram.redirect_fst, Dram.redirect_fst] at channel
    rw [Dram.redirect_snd, Dram.redirect_snd, Nat.add_left_cancel_iff] at place
    obtain ⟨quot, byte⟩ := redirect_unit_inj (Nat.mod_lt _ d.g_pos) (Nat.mod_lt _ d.g_pos) place
    have turn : off' / d.g % 15 = off / d.g % 15 := by split at channel <;> split at channel <;> omega
    have unit : off' / d.g = off / d.g := by omega
    rw [← Nat.div_add_mod off' d.g, unit, byte, Nat.div_add_mod]

/-! ### The Diary intake (R580, R583, R585, R586) -/

section
variable {code island arg : Nat} {s : State}

/-- An event of a head repeats a record where the fields of R583 agree. -/
theorem same_iff {p : DiaryRec} {first last : Nat} : p.same ⟨code, 0, island, s.sys.slot % 2, first, last, arg⟩ = true ↔
    p.code = code ∧ p.island = island ∧ p.flags % 2 = s.sys.slot % 2 ∧ p.arg = arg := by
  simp [DiaryRec.same, and_assoc]

/-- Outside a freeze an event that repeats the newest record counts there (R583). -/
theorem intake_repeat {d : Diary} {p r : DiaryRec} {rest : List DiaryRec} (thawed : d.frozen = false) (ring : d.ring = p :: rest)
    (same : p.same r = true) : (d.intake r).1 = { d with ring := p.again r.first :: rest } := by
  simp [Diary.intake, thawed, ring, same]

/-- Outside a freeze an event that repeats no newest record is written (R580). -/
theorem intake_write {d : Diary} {r : DiaryRec} (thawed : d.frozen = false)
    (differs : ∀ p, d.ring.head? = some p → p.same r = false) : (d.intake r).1 = d.write r := by
  cases ring : d.ring with
  | nil => simp [Diary.intake, thawed, ring]
  | cons p rest => simp [Diary.intake, thawed, ring, differs p (by rw [ring]; rfl)]

end

/-- Settles O15: the newest record, where there is one, either is the event's or is not. -/
theorem eventsRepeatOrRecord : Obligations.EventsRepeatOrRecord := by
  intro code island arg s thawed
  rw [event_diary]
  by_cases repeats : ∃ p, s.diary.ring.head? = some p ∧ p.same ⟨code, 0, island, s.sys.slot % 2, s.tt.now, s.tt.now, arg⟩ = true
  · obtain ⟨p, newest, same⟩ := repeats
    obtain ⟨rest, ring⟩ := List.head?_eq_some_iff.mp newest
    obtain ⟨c, i, f, a⟩ := same_iff.mp same
    rw [intake_repeat thawed ring same]
    exact .inl ⟨p, rest, ring, c, i, f, a, rfl, rfl⟩
  · push Not at repeats
    rw [intake_write thawed (fun p newest => by simpa using repeats p newest)]
    exact .inr ⟨fun p newest same => repeats p newest (same_iff.mpr same), rfl, rfl⟩

/-- What an event does to a frozen Diary: it repeats the newest record of the pocket, or it goes there, or a full pocket counts it
as missed (R586). -/
theorem intake_frozen {d : Diary} (r : DiaryRec) (frozen : d.frozen = true) :
    (∃ p rest, d.pocket = p :: rest ∧ (d.intake r).1 = { d with pocket := p.again r.first :: rest }) ∨
    (d.pocket.length < diaryPocket ∧ (d.intake r).1 = { d with pocket := r :: d.pocket }) ∨
    (diaryPocket ≤ d.pocket.length ∧ ∃ first, (d.intake r).1 = { d with
      missed := d.missed + 1, missFirst := first, missLast := r.first }) := by
  cases pocket : d.pocket with
  | nil => exact .inr (.inl ⟨by decide, by simp [Diary.intake, frozen, pocket]⟩)
  | cons p rest =>
    by_cases same : p.same r = true
    · exact .inl ⟨p, rest, rfl, by simp [Diary.intake, frozen, pocket, same]⟩
    · by_cases room : (p :: rest).length < diaryPocket
      · exact .inr (.inl ⟨room, by simp [Diary.intake, frozen, pocket, same, List.length_cons ▸ room]⟩)
      · exact .inr (.inr ⟨Nat.le_of_not_lt room, _, by simp [Diary.intake, frozen, pocket, same, List.length_cons ▸ room]; rfl⟩)

/-- Settles O16: of the three ways of a frozen intake only the last counts an event as missed. -/
theorem frozenDiaryKeepsItsRing : Obligations.FrozenDiaryKeepsItsRing := by
  intro code island arg s frozen
  rw [event_diary]
  rcases intake_frozen _ frozen with ⟨p, rest, pocket, e⟩ | ⟨room, e⟩ | ⟨full, first, e⟩
  · rw [e]
    exact ⟨rfl, rfl, frozen, fun h => by simpa [pocket] using h, .inl rfl⟩
  · rw [e]
    exact ⟨rfl, rfl, frozen, fun _ => room, .inl rfl⟩
  · rw [e]
    exact ⟨rfl, rfl, frozen, id, .inr ⟨full, rfl, rfl, rfl⟩⟩

end Sys2Proof.Machine

namespace Sys2Proof.Machine

/-! ### The federation and the trusted clock (R494 to R496, R499, R501, R517) -/

section
variable {b : Binding} {tag : Nat} {p : Packet} {s : State}

/-- A heartbeat with a roster number that is not newer and no time token leaves its chip heard alone (R495). -/
theorem exec_fedHeartbeat_heard {chip state rosterNo : Nat} {token : Bytes}
    (named : s.corr.chips.any (fun c => c.chip == chip) = true) (valid : state ≤ 4) (older : rosterNo ≤ s.corr.rosterNo)
    (unformed : tokenFormOk token = false) :
    exec (.fedHeartbeat chip state rosterNo token) s = .next { s with corr := { s.corr with
      chips := s.corr.chips.map (fun c => if c.chip == chip then { c with heard := s.tt.now, unreachable := false } else c) } } := by
  refine (whenDue_pos ⟨named, valid⟩ : execFedHeartbeat chip state rosterNo token s = _).trans (congrArg _ ?_)
  dsimp only
  rw [if_neg (Nat.not_lt.mpr older), if_neg (by simp [unformed])]

/-- A roster that passes the checks is adopted (R494). -/
theorem exec_fedRosterLoad_adopts (h : s.cpi.packet b tag 0x0512 = some p) (sound : s.rosterRefusal p.payload = none) :
    exec (.fedRosterLoad b tag) s = .next (changed p (leBytes 8 (fieldAt p.payload 32 8)) (adoptRoster p.payload s)) := by
  refine (onPacket_next h : execFedRosterLoad b tag s = _).trans ?_
  rw [sound]

/-- A roster whose form or signatures fail is refused, and PREFECT counts it (R494). -/
theorem exec_fedRosterLoad_unsigned (h : s.cpi.packet b tag 0x0512 = some p) (bad : s.rosterRefusal p.payload = some 1) :
    exec (.fedRosterLoad b tag) s = .next (refuse p .rosterRefused (detailOf [(1, 1)]) (tallyAdd 0x01 3 1 s)) := by
  refine (onPacket_next h : execFedRosterLoad b tag s = _).trans ?_
  rw [bad]
  rfl

/-- A token that has not the form of Table 13-4 is refused (log 53). -/
theorem exec_fedTimeToken_unformed (h : s.cpi.packet b tag 0x0513 = some p) (bad : tokenFormOk p.payload = false) :
    exec (.fedTimeToken b tag) s = .next (refuse p .tokenRefused (detailOf [(1, 1)]) s) := by
  refine (onPacket_next h : execFedTimeToken b tag s = _).trans ?_
  rw [bad, if_pos Bool.false_ne_true]

/-- A token that verifies acts on the clock, and the reply tells the clock (R496). -/
theorem exec_fedTimeToken_taken (h : s.cpi.packet b tag 0x0513 = some p) (formed : tokenFormOk p.payload = true)
    (sound : s.tokenRefusal p.payload = none) :
    exec (.fedTimeToken b tag) s = .next (changed p (leBytes 8 (takeToken p.payload s).clockUs) (takeToken p.payload s)) := by
  refine (onPacket_next h : execFedTimeToken b tag s = _).trans ?_
  rw [if_neg (not_not_intro formed), sound]

/-- FED_QUERY tells the roster and the four registers (R499). -/
theorem exec_fedQuery (h : s.cpi.packet b tag 0x0514 = some p) :
    exec (.fedQuery b tag) s = .next (answered p [] (s.corr.roster ++
      fields [(8, s.corrRollcall), (8, s.corrArbRound), (8, s.corrArbResult), (8, s.corrFed)]) s) :=
  (onPacket_next h : execFedQuery b tag s = _)

/-- Without a bootable image in its running slot Prefect stays stopped after its security event (R501). -/
theorem exec_lockstepMismatch_stops (runs : 2 ≤ s.trust.stage) (lost : s.trust.bootable 1 s.trust.prefectSlot = none) :
    exec .lockstepMismatch s = .next (event 0xB002 0 0 s) := by
  refine (whenDue_pos runs : execLockstepMismatch s = _).trans ?_
  rw [lost]

end

/-- Settles O43: the timers are due and each packet's row takes the branch of its premises. -/
theorem federationAndFaultCommands : Obligations.FederationAndFaultCommands := by
  unfold Obligations.FederationAndFaultCommands
  refine ⟨?beatSend, ?beat, ?unreachable, ?rosterAdopted, ?rosterUnsigned, ?tokenUnformed, ?tokenTaken, ?query, ?clockRecord, ?lockstep⟩
  case beatSend => exact fun s roster late => whenDue_pos ⟨roster, late⟩
  case beat =>
    exact fun chip state rosterNo token s named valid older unformed => .of (execFedHeartbeat_led chip state rosterNo token (.refl _ s) rfl)
      ⟨_, exec_fedHeartbeat_heard named valid older unformed, rfl⟩
  case unreachable => exact fun chip s silent => whenDue_pos silent
  case rosterAdopted =>
    exact fun b tag p s h sound => .of (execFedRosterLoad_led b tag (.refl _ s) rfl)
      ⟨_, exec_fedRosterLoad_adopts h sound, changed_replied ..⟩
  case rosterUnsigned =>
    exact fun b tag p s h bad => .of (execFedRosterLoad_led b tag (.refl _ s) rfl)
      ⟨_, exec_fedRosterLoad_unsigned h bad, refuse_replied .., fun own => by rw [refuse_corr _ _ _ _ own, tallyAdd_corr]⟩
  case tokenUnformed =>
    exact fun b tag p s h bad => .of (execFedTimeToken_led b tag (.refl _ s) rfl)
      ⟨_, exec_fedTimeToken_unformed h bad, refuse_replied .., refuse_tt ..⟩
  case tokenTaken =>
    exact fun b tag p s h formed sound => .of (execFedTimeToken_led b tag (.refl _ s) rfl)
      ⟨_, exec_fedTimeToken_taken h formed sound, changed_replied ..⟩
  case query =>
    exact fun b tag p s h => .of (execFedQuery_led b tag (.refl _ s) rfl)
      ⟨_, exec_fedQuery h, answered_replied .., answered_corr _ _ _ _⟩
  case clockRecord =>
    exact fun s late runs => .of (execClockRecordWrite_led (.refl _ s) rfl) ⟨_, whenDue_pos ⟨late, runs⟩, rfl⟩
  case lockstep => exact fun _ => exec_lockstepMismatch_stops

/-! ### Key slots, quotes, escrow and the life cycle (R505, R506, R518, R522, R523, R530) -/

section
variable {b : Binding} {tag : Nat} {p : Packet} {s : State}

/-- An extension of a measurement register leaves Prefect's own record (R276). -/
@[simp] theorem extendMr_trust (reg : Nat) (data : Bytes) (s : State) : (extendMr reg data s).trust = s.trust := rfl

/-- Prefect's record once a key record is enrolled in a slot (R505). -/
def Trust.enrolled (t : Trust) (slot : Nat) (r : Bytes) : Trust :=
  { t with
    fuses := { t.fuses with digests := putKey slot (keyRecordDigest r) t.fuses.digests, lifecycle := max t.fuses.lifecycle 2 }
    flash := { t.flash with records := putKey slot r t.flash.records }
    matched := setBit slot t.matched }

/-- A key record that names its empty slot and the slot's kind is enrolled there (R505). -/
theorem exec_keyEnroll (h : s.cpi.packet b tag 0x0710 = some p) (empty : getKey (p.param 0 2) s.trust.fuses.digests = none)
    (range : p.param 0 2 ≤ 19) (names : fieldAt (fitBytes 4096 p.payload) 0 2 = p.param 0 2)
    (kind : fieldAt (fitBytes 4096 p.payload) 2 1 = slotKind (p.param 0 2)) :
    exec (.keyEnroll b tag) s = .next (changed p [] (extendMr 1 (keyRecordDigest (fitBytes 4096 p.payload))
      { s with trust := s.trust.enrolled (p.param 0 2) (fitBytes 4096 p.payload) })) := by
  refine (onPacket_next h : execKeyEnroll b tag s = _).trans ?_
  dsimp only
  rw [if_neg (by simp [empty, names, kind, range])]
  rfl

/-- A burned slot, or one that no key has, is refused (R505). -/
theorem exec_keyEnroll_refused (h : s.cpi.packet b tag 0x0710 = some p)
    (bad : (getKey (p.param 0 2) s.trust.fuses.digests).isSome = true ∨ 19 < p.param 0 2) :
    exec (.keyEnroll b tag) s = .next (refuse p .keySlot (detailOf [(1, p.param 0 2)]) s) := by
  refine (onPacket_next h : execKeyEnroll b tag s = _).trans ?_
  exact congrArg _ (if_pos (bad.imp_right .inl))

/-- A slot that nothing uses is revoked while another OEM slot is left (R506). -/
theorem exec_keyRevoke (h : s.cpi.packet b tag 0x0711 = some p) (left_ : s.trust.oemSlots.filter (· != p.param 0 2) ≠ [])
    (unused : s.slotInUse (p.param 0 2) = none) :
    exec (.keyRevoke b tag) s = .next (changed p [] { s with trust := { s.trust with
      fuses := { s.trust.fuses with revoked := setBit (p.param 0 2) s.trust.fuses.revoked } } }) := by
  refine (onPacket_next h : execKeyRevoke b tag s = _).trans ?_
  dsimp only
  rw [if_neg left_, unused]

/-- The last OEM slot is not revoked (R506). -/
theorem exec_keyRevoke_last (h : s.cpi.packet b tag 0x0711 = some p) (last : s.trust.oemSlots.filter (· != p.param 0 2) = []) :
    exec (.keyRevoke b tag) s = .next (refuse p .keyLast noDetail s) := by
  refine (onPacket_next h : execKeyRevoke b tag s = _).trans ?_
  exact congrArg _ (if_pos last)

/-- A chip that is not decommissioned signs the registers asked for (R523). -/
theorem exec_quote (h : s.cpi.packet b tag 0x0712 = some p) (live : s.trust.fuses.lifecycle < 3) :
    exec (.quote b tag) s = .next (answered p [] (s.quoteBody (p.param 0 4) (slice p.params 8 32) ++
      identityBlock (s.quoteBody (p.param 0 4) (slice p.params 8 32)) "BIRCA-QUOTE") (tallyAdd 0x01 1 1 s)) := by
  refine (onPacket_next h : execQuote b tag s = _).trans ?_
  exact congrArg _ (if_neg (Nat.not_le.mpr live))

/-- The state in which the second of two signed packets acts: the first is no longer kept (R522). -/
def State.unsigned (s : State) (opcode : Nat) : State :=
  { s with cpi := { s.cpi with firstSigned := delKey opcode s.cpi.firstSigned } }

/-- The package that ESCROW_EXPORT makes in a state (R522): the head for the holder of the escrow slot, and the root key and the
locker table sealed under it. -/
def State.escrowPackage (s : State) (slot : Nat) (root : Bytes) : Bytes :=
  let r := (getKey slot s.trust.flash.records).getD []
  let priv := s.randomBytes 56
  let enc := Config.mlkemEncaps (slice r 0x48 1568) ((drawn 56 s).randomBytes 32)
  let head := escrowHead 1 slot (keyRecordDigest r) s.trust.rootPool s.clockUs (Config.x448Public priv) enc.1
  let box := gcmSeal (escrowKey (Config.x448 priv (slice r 8 56)) enc.2 head) (zeros 12) head (root ++ s.lockerTable)
  head ++ box.1 ++ box.2

/-- The second of two signed packets exports: MR4 is extended, and the key exchange takes its draws (R518, R522). -/
theorem exec_escrowExport {root : Bytes} {slot at_ : Nat} (h : s.cpi.packet b tag 0x0715 = some p) (low : 16 ≤ p.param 0 2)
    (high : p.param 0 2 ≤ 19) (usable : s.trust.slotUsable (p.param 0 2) = true) (rooted : s.trust.rootKey = some root)
    (first : getKey p.opcode s.cpi.firstSigned = some (p.params, (slot, at_))) (distinct_ : slot ≠ p.slot)
    (fresh : s.clockSec ≤ at_ + 600) :
    exec (.escrowExport b tag) s = .next (answered p [] ((s.unsigned p.opcode).escrowPackage (p.param 0 2) root)
      (extendMr 4 (fitBytes 16 s.trust.rootPool ++ leBytes 1 5) (drawn 88 (s.unsigned p.opcode)))) := by
  refine (onPacket_next h : execEscrowExport b tag s = _).trans (congrArg _ ?_)
  dsimp only
  rw [if_neg (by simp [low, high, usable]), rooted]
  exact twiceSigned_second first distinct_ fresh

/-- A head with a bound pool imports none (R522). -/
theorem exec_rootImport_bound {copy : Bytes} {media : PoolMedia} (h : s.cpi.packet b tag 0x0716 = some p)
    (bound : s.pool.isSome = true) :
    exec (.rootImport b tag copy media) s = .next (refuse p .importFail (detailOf [(1, 1)]) s) := by
  refine (onPacket_next h : execRootImport b tag copy media s = _).trans ?_
  exact congrArg _ (if_pos (.inl bound))

/-- Without a pool the second of two signed packets decommissions the chip (R530). -/
theorem exec_decommission {slot at_ : Nat} (h : s.cpi.packet b tag 0x0717 = some p) (free : s.pool = none)
    (first : getKey p.opcode s.cpi.firstSigned = some (p.params, (slot, at_))) (distinct_ : slot ≠ p.slot)
    (fresh : s.clockSec ≤ at_ + 600) :
    exec (.decommission b tag) s = .next (changed p [] { s.unsigned p.opcode with trust := { s.trust with
      fuses := { s.trust.fuses with lifecycle := max s.trust.fuses.lifecycle 3 } } }) := by
  refine (onPacket_next h : execDecommission b tag s = _).trans (congrArg _ ?_)
  dsimp only
  rw [if_neg (by simp [free])]
  exact twiceSigned_second first distinct_ fresh

end

/-- An escrow package for this chip, of the pool that the superblock copy names and its key verifies, is imported, and a head that
waited for a pool starts (R522). -/
theorem exec_rootImport {b : Binding} {tag : Nat} {copy : Bytes} {media : PoolMedia} {p : Packet} {plain id : Bytes} {u w s : State}
    (h : s.cpi.packet b tag 0x0716 = some p) (free : s.pool = none) (rootless : s.trust.rootKey = none)
    (magic : slice p.payload 0 8 = ascii "BRCESCRW") (version : fieldAt p.payload 8 1 = 1) (kind : fieldAt p.payload 9 1 = 2)
    (mine : slice p.payload 16 32 = s.identity) (whole : p.payload.length = 1704 + 65568 + 16)
    (opens : gcmOpen (escrowKey (Config.x448 identityX448 (slice p.payload 80 56))
      (Config.mlkemDecaps identityKem (slice p.payload 136 1568)) (p.payload.take 1704)) (zeros 12) (p.payload.take 1704)
      (slice p.payload 1704 65568) (slice p.payload 67272 16) = some plain)
    (named : id = slice p.payload 48 16)
    (rooted : u = { s with trust := { s.trust with rootKey := some (plain.take 32), rootPool := id } })
    (sound : superblockOk copy = true) (same : slice copy 0x10 16 = id) (verifies : superblockMacOk copy (u.systemKey 0x11 0) = true)
    (bound : w = adoptPool media (takeSuperblock copy (takeLockers (plain.drop 32) u))) (waits : w.pwr.stage = .control) :
    exec (.rootImport b tag copy media) s = .next (changed p (fitBytes 16 id) (extendMr 4 (fitBytes 16 id ++ leBytes 1 2)
      { w with pwr := { w.pwr with stage := .starting } })) := by
  refine (onPacket_next h : execRootImport b tag copy media s = _).trans (congrArg _ ?_)
  dsimp only
  rw [if_neg (by simp [free, rootless]), if_neg (by simp [magic, version, kind, mine, whole]), opens]
  dsimp only
  rw [← named, ← rooted, if_neg (by simp [sound, same]), if_neg (by simp [verifies]), ← bound, if_pos waits]

/-- Settles O44: each packet's row passes its checks, or fails the one named, as the premises say. -/
theorem keyAndTrustCommands : Obligations.KeyAndTrustCommands := by
  unfold Obligations.KeyAndTrustCommands
  refine ⟨?enroll, ?enrollRefused, ?revoke, ?revokeLast, ?quote, ?read, ?identity, ?export_, ?importBound, ?import_, ?decommission⟩
  case enroll =>
    intro b tag p s h empty range names kind
    refine .of (execKeyEnroll_led b tag (.refl _ s) rfl) ⟨_, exec_keyEnroll h empty range names kind, changed_replied .., ?_⟩
    rw [changed_trust, extendMr_trust]
    exact ⟨rfl, rfl, rfl, rfl⟩
  case enrollRefused =>
    exact fun b tag p s h bad => .of (execKeyEnroll_led b tag (.refl _ s) rfl)
      ⟨_, exec_keyEnroll_refused h bad, refuse_replied .., refuse_trust ..⟩
  case revoke =>
    exact fun b tag p s h left_ unused => .of (execKeyRevoke_led b tag (.refl _ s) rfl)
      ⟨_, exec_keyRevoke h left_ unused, changed_replied .., by rw [changed_trust]⟩
  case revokeLast =>
    exact fun b tag p s h last => .of (execKeyRevoke_led b tag (.refl _ s) rfl)
      ⟨_, exec_keyRevoke_last h last, refuse_replied .., refuse_trust ..⟩
  case quote =>
    exact fun b tag p s h live => .of (execQuote_led b tag (.refl _ s) rfl) ⟨_, exec_quote h live, answered_replied ..⟩
  case read =>
    exact fun b tag p s h => .of (execMrRead_led b tag (.refl _ s) rfl) ⟨_, onPacket_next h, answered_replied ..⟩
  case identity =>
    exact fun b tag p s h => .of (execIdentityGet_led b tag (.refl _ s) rfl) ⟨_, onPacket_next h, answered_replied ..⟩
  case export_ =>
    exact fun b tag p root slot at_ s h low high usable rooted first distinct_ fresh => .of (execEscrowExport_led b tag (.refl _ s) rfl)
      ⟨_, exec_escrowExport h low high usable rooted first distinct_ fresh, by rw [answered_draws]; rfl⟩
  case importBound =>
    exact fun b tag copy media p s h bound => .of (execRootImport_led b tag copy media (.refl _ s) rfl)
      ⟨_, exec_rootImport_bound h bound, refuse_replied .., refuse_trust ..⟩
  case import_ =>
    intro b tag copy media p x kem plain id u w s h free rootless magic version kind mine whole given givenKem opens named rooted sound
      same verifies bound _ waits
    subst given givenKem
    exact .of (execRootImport_led b tag copy media (.refl _ s) rfl) ⟨_, exec_rootImport h free rootless magic version kind mine whole
      opens named rooted sound same verifies bound waits, changed_replied .., by rw [changed_pwr]; rfl⟩
  case decommission =>
    exact fun b tag p slot at_ s h free first distinct_ fresh => .of (execDecommission_led b tag (.refl _ s) rfl)
      ⟨_, exec_decommission h free first distinct_ fresh, changed_replied .., by rw [changed_trust]⟩

end Sys2Proof.Machine

namespace Sys2Proof.Machine

/-! ### Firmware (R511, R513, R514, R521, R525 to R528, R530) -/

section
variable {b : Binding} {tag : Nat} {p : Packet} {s u : State} {data : Bytes}

/-- A chunk that matches its digest becomes executable; before the last one the image is not whole (R513). -/
theorem exec_facultyChunkLoad_more {chunk : Nat} (loading : s.trust.stage = 3) (named : chunk < imageChunks s.trust.facultyImage)
    (new : s.trust.chunks.contains chunk = false) (sound : chunkOk s.trust.facultyImage chunk = true)
    (more : (s.trust.chunks ++ [chunk]).length ≠ imageChunks s.trust.facultyImage) :
    exec (.facultyChunkLoad chunk) s = .next { s with trust := { s.trust with chunks := s.trust.chunks ++ [chunk], stage := 3 } } := by
  refine (whenDue_pos ⟨loading, named, new⟩ : execFacultyChunkLoad chunk s = _).trans (congrArg _ ?_)
  dsimp only
  rw [if_pos sound, if_neg more, if_neg (by decide)]

/-- An image with a chunk that does not match its digest is passed over for the other slot (R514). -/
theorem exec_facultyChunkLoad_bad {chunk : Nat} (loading : s.trust.stage = 3) (named : chunk < imageChunks s.trust.facultyImage)
    (new : s.trust.chunks.contains chunk = false) (bad : chunkOk s.trust.facultyImage chunk = false) :
    exec (.facultyChunkLoad chunk) s = .next (runFaculty [2 + s.trust.facultySlot] s) := by
  refine (whenDue_pos ⟨loading, named, new⟩ : execFacultyChunkLoad chunk s = _).trans (congrArg _ ?_)
  rw [bad, if_neg Bool.false_ne_true]

/-- A piece that breaks the rules of R537 ends its download (Table 15-14). -/
theorem downloadPiece_broken {kind : Nat} (piece : takePiece p (p.param 0 8) (p.param 8 8) s = (u, .broken)) :
    downloadPiece kind p s = refuse p .pktPiece noDetail u := by
  rw [downloadPiece, piece]

/-- The state with a whole image in the Faculty slot that is not running. -/
def State.withFaculty (data : Bytes) (n : Nat) (u : State) : State := setFwSlot n { u.trust.fwSlot n with image := some data } u

/-- A whole Faculty image that passes the checks of R511 stands ready for its activation (Table 15-14). -/
theorem downloadPiece_faculty (piece : takePiece p (p.param 0 8) (p.param 8 8) s = (u, .whole data))
    (sound : checkImage (u.withFaculty data (s.trust.otherSlot 2)).trust 2 data = none) :
    downloadPiece 2 p s = changed p [] { u.withFaculty data (s.trust.otherSlot 2) with
      trust := { (u.withFaculty data (s.trust.otherSlot 2)).trust with downloaded := true } } := by
  rw [downloadPiece, piece]
  dsimp only
  rw [show checkImage (setFwSlot _ _ u).trust 2 data = none from sound]
  rfl

theorem exec_fwDownload (h : s.cpi.packet b tag 0x0901 = some p) : exec (.fwDownload b tag) s = .next (downloadPiece 2 p s) :=
  (onPacket_next h : execFwDownload b tag s = _)

/-- An activation that nothing refuses starts (R525). -/
theorem exec_fwActivate_starts (h : s.cpi.packet b tag 0x0902 = some p) (starts : startActivation (.packet b tag) s = .inl u) :
    exec (.fwActivate b tag) s = .next u := by
  refine (onPacket_next h : execFwActivate b tag s = _).trans ?_
  rw [starts]

/-- A second activation is refused while one is under way (R525). -/
theorem exec_fwActivate_busy (h : s.cpi.packet b tag 0x0902 = some p) (busy : s.trust.activation.isSome = true) :
    exec (.fwActivate b tag) s = .next (refuse p .fwBusy noDetail s) := by
  refine (onPacket_next h : execFwActivate b tag s = _).trans ?_
  rw [startActivation, if_pos busy]

section
variable {island : Nat} {a : Activation} (running : s.trust.activation = some a)
include running

/-- A cluster that reports itself empty is reset onto the new image (R525). -/
theorem exec_clusterReport_empty (step : a.step = .emptying island) :
    exec (.clusterReport island false) s = .next (setActivation (some { a with step := .starting island, since := s.tt.now })
      (clusterReset island s)) := by
  change execClusterReport island false s = _
  rw [execClusterReport, running]
  dsimp only
  rw [step]
  exact whenDue_pos ⟨rfl, rfl⟩

/-- A cluster that reports itself healthy hands the activation on (R525). -/
theorem exec_clusterReport_healthy (step : a.step = .starting island) :
    exec (.clusterReport island true) s = .next (clusterHealthy a island s) := by
  change execClusterReport island true s = _
  rw [execClusterReport, running]
  dsimp only
  rw [step]
  exact whenDue_pos ⟨rfl, rfl⟩

/-- A cluster that is not healthy within 100 ms takes every moved cluster back to the old image (R526). -/
theorem exec_clusterReportTimeout_starting (step : a.step = .starting island) (late : a.since + msBells 100 ≤ s.tt.now) :
    exec (.clusterReportTimeout island) s = .next (endActivation a .fwActivateFail (detailOf [(1, island), (1, 2)])
      (extendMr 2 (imageDigest s.trust.facultyImage) ((island :: a.moved.reverse).foldl (fun t i => clusterReset i t) s))) := by
  change execClusterReportTimeout island s = _
  rw [execClusterReportTimeout, running]
  dsimp only
  rw [step]
  exact whenDue_pos ⟨rfl, late⟩

end

/-- In ROM recovery a whole Prefect image that passes R511 starts (R514). -/
theorem exec_pfwDownload_recovers (h : s.cpi.packet b tag 0x0903 = some p) (recovery : s.pwr.stage = .recovery)
    (piece : takePiece p (p.param 0 8) (p.param 8 8) s = (u, .whole data)) (sound : checkWhole u.trust 1 data = none) :
    exec (.pfwDownload b tag) s = .next (answered p [] [] (startRecovered data u)) := by
  refine (onPacket_next h : execPfwDownload b tag s = _).trans (congrArg _ ?_)
  rw [if_neg (not_not_intro recovery), piece]
  dsimp only
  rw [sound]

/-- Outside ROM recovery a Prefect image comes piece by piece to the slot not running (R528). -/
theorem exec_pfwDownload_piece (h : s.cpi.packet b tag 0x0903 = some p) (runs : s.pwr.stage ≠ .recovery) :
    exec (.pfwDownload b tag) s = .next (downloadPiece 1 p s) := by
  refine (onPacket_next h : execPfwDownload b tag s = _).trans (congrArg _ ?_)
  rw [if_pos runs]

/-- Without a peer an image that passes R511 takes over, its pair versions and the end of the pause sent, the counter raised last
(R521, R528). -/
theorem exec_pfwActivate {image : Bytes} (h : s.cpi.packet b tag 0x0904 = some p) (idle : s.trust.activation = none)
    (held : (s.trust.fwSlot (s.trust.otherSlot 1)).image = some image) (alone : s.paired = false)
    (sound : checkWhole s.trust 1 image = none)
    (runs : u = programGuard (countActivation (s.trust.otherSlot 1) (runPrefect (some (s.trust.otherSlot 1)) image
      (sendPeer (.prefectRecord .pause) s)))) :
    exec (.pfwActivate b tag) s = .next (changed p [] (raiseCounter 1
      (sendPeer (.prefectRecord (.version u.trust.pairVersion u.trust.oldestPair)) (sendPeer (.prefectRecord .resume) u)))) := by
  refine (onPacket_next h : execPfwActivate b tag s = _).trans (congrArg _ ?_)
  dsimp only
  rw [if_neg (by simp [idle]), held]
  dsimp only
  rw [if_neg (by simp [alone]), sound, runs]

/-- FW_QUERY tells of the four slots and of the security versions (R530). -/
theorem exec_fwQuery (h : s.cpi.packet b tag 0x0905 = some p) :
    exec (.fwQuery b tag) s = .next (answered p [] ((List.range 4).flatMap (fun n => fitBytes 64 (((s.trust.fwSlot n).image).getD [])) ++
      (List.range 4).flatMap (fun n => leBytes 8 (s.trust.fwSlot n).activation) ++ leBytes 8 s.pfmSvn) s) :=
  (onPacket_next h : execFwQuery b tag s = _)

end

/-- Settles O45: each download, activation and report takes the branch of its premises. -/
theorem firmwareCommands : Obligations.FirmwareCommands := by
  unfold Obligations.FirmwareCommands
  refine ⟨?chunk, ?chunkBad, ?faculty, ?facultyBroken, ?activate, ?activateBusy, ?empty, ?healthy, ?timeout, ?recovers, ?prefectBroken,
    ?handover, ?query⟩
  case chunk =>
    exact fun chunk s loading named new sound more => .of (execFacultyChunkLoad_led chunk (.refl _ s) rfl)
      ⟨_, exec_facultyChunkLoad_more loading named new sound more, rfl, rfl⟩
  case chunkBad => exact fun _ _ => exec_facultyChunkLoad_bad
  case faculty =>
    exact fun b tag p u data s h piece sound => .of (execFwDownload_led b tag (.refl _ s) rfl)
      ⟨_, exec_fwDownload h, by rw [downloadPiece_faculty piece sound]; exact changed_replied .., by
        rw [downloadPiece_faculty piece sound, changed_trust]⟩
  case facultyBroken =>
    exact fun b tag p u s h piece => .of (execFwDownload_led b tag (.refl _ s) rfl)
      ⟨_, exec_fwDownload h, by rw [downloadPiece_broken piece]; exact refuse_replied .., by
        rw [downloadPiece_broken piece, refuse_trust]⟩
  case activate => exact fun _ _ _ _ _ => exec_fwActivate_starts
  case activateBusy =>
    exact fun b tag p s h busy => .of (execFwActivate_led b tag (.refl _ s) rfl)
      ⟨_, exec_fwActivate_busy h busy, refuse_replied .., refuse_trust ..⟩
  case empty => exact fun _ _ _ => exec_clusterReport_empty
  case healthy => exact fun _ _ _ => exec_clusterReport_healthy
  case timeout => exact fun _ _ _ => exec_clusterReportTimeout_starting
  case recovers => exact fun _ _ _ _ _ _ => exec_pfwDownload_recovers
  case prefectBroken =>
    exact fun b tag p u s h runs piece => .of (execPfwDownload_led b tag (.refl _ s) rfl)
      ⟨_, exec_pfwDownload_piece h runs, by rw [downloadPiece_broken piece]; exact refuse_replied ..⟩
  case handover =>
    exact fun b tag p image u s h idle held alone sound runs => .of (execPfwActivate_led b tag (.refl _ s) rfl)
      ⟨_, exec_pfwActivate h idle held alone sound runs, changed_replied .., by
        rw [changed_draws, raiseCounter_draws, sendPeer_draws, sendPeer_draws]⟩
  case query =>
    exact fun b tag p s h => .of (execFwQuery_led b tag (.refl _ s) rfl) ⟨_, exec_fwQuery h, answered_replied .., answered_trust ..⟩

/-! ### Mailboxes, MCTP and retention (R534, R535, R537, R541, R545, R548, R549) -/

section
variable {b : Binding} {tag : Nat} {s : State}

/-- ACK frees the CPI reply area (R534). -/
theorem exec_cpiAck {n : Nat} (shown : s.cpi.cpiArea = some n) :
    exec .cpiAck s = .next (tallyAdd 0x02 2 1 { s with cpi := Cpi.showReplies { ackMailbox .cpi n s.cpi with cpiArea := none } }) := by
  change execCpiAck s = _
  rw [execCpiAck, shown]

/-- ACK frees the PFM reply area (R534). -/
theorem exec_pfmAck {n : Nat} (shown : s.cpi.pfmArea = some n) :
    exec .pfmAck s = .next (tallyAdd 0x02 2 1 { s with cpi := Cpi.showReplies { ackMailbox .pfm n s.cpi with pfmArea := none } }) := by
  change execPfmAck s = _
  rw [execPfmAck, shown]

/-- An MCTP message of an endpoint that is bound is taken as a packet (R535). -/
theorem exec_mctpMessage_bound {endpoint length peerInflight : Nat} {body : Bytes} (fits : length ≤ 65536)
    (bound : s.cpi.bindings.any (fun r => r.id == .mctp endpoint) = true) :
    exec (.mctpMessage endpoint length body peerInflight) s =
      .next (submitPacket (.mctp endpoint) body (body.drop (packetParts body).base) peerInflight s) := by
  change execMctpMessage endpoint length body peerInflight s = _
  rw [execMctpMessage, if_neg (Nat.not_lt.mpr fits), if_pos bound]

/-- A reply that has stood ready for 60 s leaves its area and is discarded (R534). -/
theorem exec_replyRetentionExpiry {r : Reply} (there : s.cpi.replyOf b tag = some r) (ready : r.held = false)
    (late : r.readyAt + secBells 60 ≤ s.tt.now) :
    exec (.replyRetentionExpiry b tag) s = .next { s with cpi := Cpi.showReplies { dropReply b tag s.cpi with
      cpiArea := if b = .cpi ∧ s.cpi.cpiArea = some tag then none else s.cpi.cpiArea
      pfmArea := if b = .pfm ∧ s.cpi.pfmArea = some tag then none else s.cpi.pfmArea } } := by
  change execReplyRetentionExpiry b tag s = _
  rw [execReplyRetentionExpiry, there]
  exact whenDue_pos ⟨ready, late⟩

/-- 60 s after its loss a binding's claims are released, and its record goes with its last packet and reply (R545, R548). -/
theorem exec_claimBindingTimeout {r : BindingRec} {lost : Nat} (there : s.cpi.bindings.find? (fun r => r.id == b) = some r)
    (gone : r.lostAt = some lost) (late : lost + secBells 60 ≤ s.tt.now) :
    exec (.claimBindingTimeout b) s = .next { s with cpi := { s.cpi with
      claims := s.cpi.claims.filter (fun k => k.binding != some b)
      bindings := s.cpi.bindings.filter (fun x => !(x.id == b) ||
        s.cpi.accepted.any (fun p => p.binding == b) || s.cpi.replies.any (fun y => y.binding == b)) } } := by
  change execClaimBindingTimeout b s = _
  rw [execClaimBindingTimeout, there]
  dsimp only
  rw [gone]
  exact whenDue_pos late

section
variable {p : Packet} {r : Reply} (h : s.cpi.packet b tag 0x010A = some p)
include h

/-- Bytes that the verified segments of a payload reach are given out, and the reply notes how far (R534). -/
theorem exec_cpPayloadFetch (there : s.cpi.replyOf (s.cpi.keeperOf b (p.param 0 4)) (p.param 0 4) = some r)
    (reaches : min r.size (p.param 8 8 + p.param 16 4) ≤ (s.replyText r).length) :
    exec (.cpPayloadFetch b tag) s = .next (answered p [] (slice (s.replyText r) (p.param 8 8) (p.param 16 4)) { s with
      cpi := noteFetched (s.cpi.keeperOf b (p.param 0 4)) (p.param 0 4)
        (p.param 8 8 + (slice (s.replyText r) (p.param 8 8) (p.param 16 4)).length) s.cpi }) := by
  refine (onPacket_next h : execCpPayloadFetch b tag s = _).trans (congrArg _ ?_)
  dsimp only
  rw [there]
  exact if_neg (Nat.not_lt.mpr reaches)

/-- A range that the verified segments do not reach fails (R534). -/
theorem exec_cpPayloadFetch_short (there : s.cpi.replyOf (s.cpi.keeperOf b (p.param 0 4)) (p.param 0 4) = some r)
    (short : (s.replyText r).length < min r.size (p.param 8 8 + p.param 16 4)) :
    exec (.cpPayloadFetch b tag) s = .next (refuse p .tagFail noDetail s) := by
  refine (onPacket_next h : execCpPayloadFetch b tag s = _).trans (congrArg _ ?_)
  dsimp only
  rw [there]
  exact if_pos short

/-- A tag without a reply is unknown (R549). -/
theorem exec_cpPayloadFetch_unknown (none_ : s.cpi.replyOf (s.cpi.keeperOf b (p.param 0 4)) (p.param 0 4) = none) :
    exec (.cpPayloadFetch b tag) s = .next (badParam p 0 s) := by
  refine (onPacket_next h : execCpPayloadFetch b tag s = _).trans (congrArg _ ?_)
  dsimp only
  rw [none_]

end

end

/-- Settles O46: a mailbox's row is one call of the intake; the others find the reply, the binding or the packet named. -/
theorem packetBindingCommands : Obligations.PacketBindingCommands := by
  unfold Obligations.PacketBindingCommands
  refine ⟨?cpiSubmit, ?cpiAck, ?pfmSubmit, ?pfmAck, ?mctpLong, ?mctp, ?pieces, ?retention, ?binding, ?fetch, ?fetchShort, ?fetchUnknown⟩
  case cpiSubmit => exact fun _ _ _ _ => rfl
  case cpiAck => exact fun n s shown => .of (execCpiAck_led (.refl _ s) rfl) ⟨_, exec_cpiAck shown, rfl⟩
  case pfmSubmit => exact fun _ _ _ _ => rfl
  case pfmAck => exact fun n s shown => .of (execPfmAck_led (.refl _ s) rfl) ⟨_, exec_pfmAck shown, rfl⟩
  case mctpLong => exact fun _ _ _ _ _ long => if_pos long
  case mctp => exact fun _ _ _ _ _ => exec_mctpMessage_bound
  case pieces => exact fun b s => .of (execPieceTimeout_led b (.refl _ s) rfl) ⟨_, rfl, rfl⟩
  case retention =>
    exact fun b tag r s there ready late => .of (execReplyRetentionExpiry_led b tag (.refl _ s) rfl)
      ⟨_, exec_replyRetentionExpiry there ready late, rfl⟩
  case binding =>
    exact fun b r lost s there gone late => .of (execClaimBindingTimeout_led b (.refl _ s) rfl)
      ⟨_, exec_claimBindingTimeout there gone late, rfl, rfl⟩
  case fetch =>
    exact fun b tag p r s h there reaches => .of (execCpPayloadFetch_led b tag (.refl _ s) rfl)
      ⟨_, exec_cpPayloadFetch h there reaches, answered_replied ..⟩
  case fetchShort =>
    exact fun b tag p r s h there short => .of (execCpPayloadFetch_led b tag (.refl _ s) rfl)
      ⟨_, exec_cpPayloadFetch_short h there short, refuse_replied ..⟩
  case fetchUnknown =>
    exact fun b tag p s h none_ => .of (execCpPayloadFetch_led b tag (.refl _ s) rfl)
      ⟨_, exec_cpPayloadFetch_unknown h none_, refuse_replied ..⟩

end Sys2Proof.Machine

namespace Sys2Proof.Machine

/-! ### The DRAM controller (R554, R564, R567 to R569, R571 to R576, R578) -/

section
variable {channel : Nat} {s u : State}

/-- A DIMM at 85 °C or below that was so at its last reading changes nothing but its reading (R568). -/
theorem exec_dimmTempRead_cool {temp : Int} (up : (s.dram.ch channel).up = true) (due : s.tt.now % 64 = 0) (cool : temp ≤ 85)
    (was : (s.dram.ch channel).refsb = false) :
    exec (.dimmTempRead channel temp) s = .next (setChannel channel { s.dram.ch channel with temp := temp } s) := by
  refine (whenDue_pos ⟨due, up⟩ : execDimmTempRead channel temp s = _).trans (congrArg _ ?_)
  have warm : decide (85 < temp) = false := decide_eq_false (by omega)
  have hot : decide (95 < temp) = false := decide_eq_false (by omega)
  simp only [warm, hot, was, Bool.false_and, Bool.or_false, if_true, Bool.false_eq_true, if_false]

/-- Below the rate of R573 a corrected burst is counted against its device and takes no channel out (R571). -/
theorem exec_dramCorrected_few {rank device : Nat} {l : List Nat}
    (noted : l = noteCorrected s.clockUs ((getKey (rank * 20 + device % 20) (s.dram.ch channel).devices).getD []))
    (few : tooManyCorrected s.clockUs l = false) :
    exec (.dramCorrected channel rank device) s = .next (tallyAdd 0x0E 4 1 (setChannel channel { s.dram.ch channel with
      corr := min ((s.dram.ch channel).corr + 1) (2 ^ 48 - 1)
      lastDevice := device % 20
      lastRank := rank % 4
      devices := putKey (rank * 20 + device % 20) l (s.dram.ch channel).devices } s)) := by
  subst noted
  change execDramCorrected channel rank device s = _
  simp only [execDramCorrected, few, Bool.false_and, Bool.or_false, Bool.false_eq_true, if_false]

/-- A cause other than the last one takes the channel out and lets it return (R573, R578). -/
theorem exec_dramChannelOut_returns (due : (s.dram.ch channel).outDue = true) (serves : (s.dram.ch channel).state = .inService)
    (idle : s.dram.evacPhase = .none) (free : s.dram.evacNext = none) (exists_ : channel < 16)
    (differs : (s.dram.ch channel).cause ≠ (s.dram.ch channel).lastCause)
    (noted : u = setChannel channel { s.dram.ch channel with outDue := false } s) :
    exec (.dramChannelOut channel) s =
      .next (trigger true 3 channel { u with dram := { u.dram with evacNext := some (channel, true) } }) := by
  refine (whenDue_pos ⟨due, serves, idle, free, exists_⟩ : execDramChannelOut channel s = _).trans (congrArg _ ?_)
  subst noted
  simp only [beq_eq_false_iff_ne.mpr differs, Bool.and_false, Bool.false_and, Bool.or_false, Bool.not_false]

/-- A head without a peer that is not in service restarts when a channel dies (R574). -/
theorem exec_dramChannelDead_restarts (up : (s.dram.ch channel).up = true)
    (failed : u = channelEvent channel (setChannel channel { s.dram.ch channel with state := .failed } s)) (alone : u.paired = false)
    (stage : u.pwr.stage ≠ .service) :
    exec (.dramChannelDead channel) s = .next { u with pwr := { u.pwr with restartDue := true } } := by
  refine (whenDue_pos up : execDramChannelDead channel s = _).trans (congrArg _ ?_)
  dsimp only
  rw [← failed, if_neg (by simp [alone]), if_neg stage]

section
variable (mine : s.dram.evacChannel = channel)
include mine

/-- Once every unit is copied out the channel is out and in self-refresh (R578). -/
theorem exec_dramEvacCopyDone_out (phase : s.dram.evacPhase = .copyingOut) (stays : s.dram.evacRetrain = false)
    (copied : s.dram.copyUnits ≤ s.dram.evacDone) :
    exec (.dramEvacCopyDone channel) s = .next (channelEvent channel (setChannel channel { s.dram.ch channel with
      state := .out, selfRefresh := true } { s with dram := { s.dram with evacPhase := .out } })) := by
  refine congrArg Host.Outcome.next ((if_neg ?_).trans ((if_pos phase).trans ?_))
  · exact not_or.mpr ⟨not_not_intro mine, Nat.not_lt.mpr copied⟩
  · rw [stays, if_neg Bool.false_ne_true]

/-- Once every unit is copied home the channel serves (R578). -/
theorem exec_dramEvacCopyDone_home (phase : s.dram.evacPhase = .copyingHome) (copied : s.dram.copyUnits ≤ s.dram.evacDone) :
    exec (.dramEvacCopyDone channel) s = .next (channelHome channel s) := by
  refine congrArg Host.Outcome.next ((if_neg ?_).trans ((if_neg ?_).trans (if_pos phase)))
  · exact not_or.mpr ⟨not_not_intro mine, Nat.not_lt.mpr copied⟩
  · rw [phase]
    decide

end

section
variable (trains : (s.dram.ch channel).state = .training)
include trains

/-- A training that passes at start-up puts the channel in service at its rate (R575, R576). -/
theorem exec_dramTrainingDone_serves (phase : s.dram.evacPhase ≠ .out) :
    exec (.dramTrainingDone channel true) s = .next (bringUpProgress (channelEvent channel (setChannel channel { s.dram.ch channel with
      state := .inService, rate := s.dram.trainRate channel } s))) := by
  refine (whenDue_pos trains : execDramTrainingDone channel true s = _).trans (congrArg _ ?_)
  exact (if_neg (fun c => phase c.1)).trans (if_pos rfl)

/-- A retraining that passes has the channel's units copied home (R578). -/
theorem exec_dramTrainingDone_home (phase : s.dram.evacPhase = .out) (mine : s.dram.evacChannel = channel) :
    exec (.dramTrainingDone channel true) s = .next (channelEvent channel (setChannel channel { s.dram.ch channel with
      state := .copyingHome, rate := s.dram.trainRate channel }
      { s with dram := { s.dram with evacPhase := .copyingHome, evacDone := 0 } })) := by
  refine (whenDue_pos trains : execDramTrainingDone channel true s = _).trans (congrArg _ ?_)
  exact (if_pos ⟨phase, mine⟩).trans (if_pos rfl)

end

end

/-- Settles O58: the timed rows are due under their premises, and the others take the branch that they choose. -/
theorem dramCommands : Obligations.DramCommands := by
  unfold Obligations.DramCommands
  refine ⟨?refresh, ?temp, ?selfRefresh, ?corrected, ?uncorrectable, ?scrub, ?out_, ?dead, ?copiedOut, ?copiedHome, ?serves, ?home⟩
  case refresh =>
    intro channel rank sub c debt after s channelIs up awake debtIs afterIs
    subst channelIs debtIs afterIs
    exact whenDue_pos ⟨up, awake⟩
  case temp =>
    intro channel temp c s channelIs up due cool was
    subst channelIs
    exact exec_dimmTempRead_cool up due cool was
  case selfRefresh => exact fun channel s serves unused idle empty => whenDue_pos ⟨serves, unused, idle, empty⟩
  case corrected =>
    intro channel rank device c l s channelIs noted few
    subst channelIs
    exact exec_dramCorrected_few noted few
  case uncorrectable => exact fun _ _ _ => rfl
  case scrub => exact fun channel s up late => whenDue_pos ⟨up, late⟩
  case out_ =>
    intro channel c u s channelIs due serves idle free exists_ differs noted
    subst channelIs
    exact exec_dramChannelOut_returns due serves idle free exists_ differs noted
  case dead =>
    intro channel c u s channelIs up failed alone stage
    subst channelIs
    exact exec_dramChannelDead_restarts up failed alone stage
  case copiedOut => exact fun _ _ => exec_dramEvacCopyDone_out
  case copiedHome => exact fun _ _ => exec_dramEvacCopyDone_home
  case serves => exact fun _ _ => exec_dramTrainingDone_serves
  case home => exact fun _ _ => exec_dramTrainingDone_home

/-! ### The Diary, the Tally and the warnings by command (R583, R585, R587, R589, R591 to R597) -/

section
variable {b : Binding} {tag : Nat} {p : Packet} {s : State}

/-- DIARY_READ tells the next cursor and the records (R587). -/
theorem exec_diaryRead (h : s.cpi.packet b tag 0x0A01 = some p) :
    exec (.diaryRead b tag) s = .next (answered p (leBytes 8 (s.diary.read (p.param 0 8) (p.param 8 4)).1)
      ((s.diary.read (p.param 0 8) (p.param 8 4)).2.flatMap DiaryRec.bytes) s) :=
  (onPacket_next h : execDiaryRead b tag s = _)

/-- Action 1 freezes the Diary (R585). -/
theorem exec_diaryFreeze_on (h : s.cpi.packet b tag 0x0A02 = some p) (act : p.param 0 1 = 1) :
    exec (.diaryFreeze b tag) s = .next (changed p [] (freezeDiary s)) := by
  refine (onPacket_next h : execDiaryFreeze b tag s = _).trans ?_
  rw [if_pos act]

/-- Action 2 ends a freeze (R585). -/
theorem exec_diaryFreeze_off (h : s.cpi.packet b tag 0x0A02 = some p) (act : p.param 0 1 ≠ 1) :
    exec (.diaryFreeze b tag) s = .next (changed p [] (thawDiary 2 s)) := by
  refine (onPacket_next h : execDiaryFreeze b tag s = _).trans ?_
  rw [if_neg act]

/-- A caller above Compat-User reads the samples of any counter (R592, R593). -/
theorem exec_tallyRead (h : s.cpi.packet b tag 0x0A03 = some p) (cls : p.cls ≠ 4) :
    exec (.tallyRead b tag) s = .next (answered p [] (fields [(8, s.tally.sweepNo), (4, s.tally.skew), (4, 0)] ++
      (bitsOf 16 (p.param 2 2)).flatMap (fun c => ((s.tally.samples[16 * p.param 0 1 + c]?).map Sample.bytes).getD
        (fields [(6, 0), (1, 0), (1, c), (8, 0)]))) s) := by
  refine (onPacket_next h : execTallyRead b tag s = _).trans (congrArg _ ?_)
  exact if_neg (fun c => cls c.1)

/-- A Compat-User is denied the counters outside its subset (R593). -/
theorem exec_tallyRead_denied (h : s.cpi.packet b tag 0x0A03 = some p) (cls : p.cls = 4)
    (outside : (bitsOf 16 (p.param 2 2)).any (fun c => !(compatCounters (p.param 0 1)).contains c) = true) :
    exec (.tallyRead b tag) s = .next (refuse p .classDenied (detailOf [(1, 3)]) s) := by
  refine (onPacket_next h : execTallyRead b tag s = _).trans (congrArg _ ?_)
  exact if_pos ⟨cls, outside⟩

/-- A counter that no other feature holds takes its event and is claimed (R589). -/
theorem exec_tallyConfig {i : Nat} (h : s.cpi.packet b tag 0x0A04 = some p) (counter : i = 16 * p.param 0 1 + p.param 1 1)
    (valid : tallyEventOk (p.param 0 1) (p.param 1 1) (p.param 2 2) = true)
    (free : s.cpi.blocked [0x04000000 + i] (fun k => k.binding == some b && k.opcode == 0x0A04) = none) (some_ : p.param 2 2 ≠ 0) :
    exec (.tallyConfig b tag) s = .next (changed p [] (claimAll [0x04000000 + i] 0x0A04 p.cls p.tag (some b) { s with
      tally := { s.tally with ctrs := putKey i { s.tally.ctr i with
        event := p.param 2 2, saturate := p.param 4 1 == 1, zeroDue := true } s.tally.ctrs } })) := by
  subst counter
  refine (onPacket_next h : execTallyConfig b tag s = _).trans (congrArg _ ?_)
  dsimp only
  rw [if_neg (by simp [valid]), free]
  dsimp only
  rw [if_neg (fun c => some_ c.1)]

/-- A window whose timer is free is set up and claims it (R594). -/
theorem exec_bwWindow (h : s.cpi.packet b tag 0x0A05 = some p)
    (free : s.cpi.blocked [0x02000000 + p.param 1 1] (fun _ => false) = none) :
    exec (.bwWindow b tag) s = .next (changed p [] (claimAll [0x02000000 + p.param 1 1] 0x0A05 p.cls p.tag (some b) { s with
      tally := { s.tally with windows := putKey (p.param 1 1) ⟨1, p.param 0 1, p.param 2 2, 0, 0, 0, 0, 0⟩ s.tally.windows } })) := by
  refine (onPacket_next h : execBwWindow b tag s = _).trans (congrArg _ ?_)
  dsimp only
  rw [free]

section
variable {timer : Nat} {w : BwWindow} (there : getKey timer s.tally.windows = some w)
include there

/-- A window that waits starts at a day boundary (R594). -/
theorem exec_bwWindowStart (waits : w.state = 1) (boundary : s.tt.now % 1024 = 0) :
    exec (.bwWindowStart timer) s = .next { s with tally := { s.tally with
      windows := putKey timer { w with state := 2, start := s.tt.now } s.tally.windows } } := by
  change execBwWindowStart timer s = _
  rw [execBwWindowStart, there]
  exact whenDue_pos ⟨waits, boundary⟩

/-- A window ends after its days, and its timer is free (R594). -/
theorem exec_bwWindowEnd {bytesIn bytesOut : Nat} (runs : w.state = 2) (late : w.start + 1024 * w.days ≤ s.tt.now) :
    exec (.bwWindowEnd timer bytesIn bytesOut) s = .next (releaseClaims [0x02000000 + timer] { s with tally := { s.tally with
      windows := putKey timer { w with state := 3, stop := s.tt.now, bytesIn := bytesIn % 2 ^ 64, bytesOut := bytesOut % 2 ^ 64 }
        s.tally.windows } }) := by
  change execBwWindowEnd timer bytesIn bytesOut s = _
  rw [execBwWindowEnd, there]
  exact whenDue_pos ⟨runs, late⟩

end

/-- REPORT_CARD tells the card (R595). -/
theorem exec_reportCard (h : s.cpi.packet b tag 0x0A06 = some p) :
    exec (.reportCard b tag) s = .next (answered p [] s.reportCard s) :=
  (onPacket_next h : execReportCard b tag s = _)

/-- Of conditions that are all inactive, and beyond the last one, none is active. -/
theorem getD_inactive {w : List (Bool × Nat)} (quiet : w.all (fun x => !x.1) = true) (bit : Nat) :
    (w.getD bit (false, 0xFF)).1 = false := by
  rw [List.getD_eq_getElem?_getD]
  cases at_ : w[bit]? with
  | none => rfl
  | some x => simpa using List.all_eq_true.mp quiet x (List.mem_of_getElem? at_)

/-- One more inactive evaluation of a condition: after 24 in a row its bit is cleared (R597). -/
def calmWarning (t : State) (bit : Nat) : State :=
  { t with tally := { t.tally with
    inactive := putKey bit ((getKey bit t.tally.inactive).getD 0 + 1) t.tally.inactive
    warnings := if 24 ≤ (getKey bit t.tally.inactive).getD 0 + 1 then clearBit bit t.tally.warnings else t.tally.warnings } }

/-- An evaluation that finds no condition active counts one inactive evaluation of each (R597). -/
theorem exec_earlyWarningEval_calm {bays : List (Nat × (Nat × (Nat × Int)))} {h : List WarnSample}
    (late : s.tally.lastEval + 3600000000 ≤ s.clockUs)
    (members : bays = s.ec.members.map (fun m => (m.bay, ((getKey m.bay s.tally.hourUnc).getD 0, ((getKey m.bay s.tally.hourMiss).getD 0,
      if ((getKey m.bay s.tally.hourTemp).getD (0, 0)).2 = 0 then (s.bay.bayOf m.bay).temp
      else ((getKey m.bay s.tally.hourTemp).getD (0, 0)).1 / ((getKey m.bay s.tally.hourTemp).getD (0, 0)).2)))))
    (history : h = ((⟨s.spareNow / 10, s.wearOf none, s.debtMib false, bays⟩ : WarnSample) :: s.tally.history).take 720)
    (quiet : (s.warnings h (s.clockSec / 3600)).all (fun w => !w.1) = true) :
    exec .earlyWarningEval s = .next ((List.range 7).foldl calmWarning { s with tally := { s.tally with
      history := h, hourUnc := [], hourMiss := [], hourTemp := [], lastEval := s.clockUs } }) := by
  subst members history
  refine (whenDue_pos late : execEarlyWarningEval s = _).trans (congrArg _ ?_)
  refine List.foldl_ext _ _ _ (fun t bit _ => ?_)
  exact if_neg (ne_true_of_eq_false (getD_inactive quiet bit))

end

/-- Settles O56: the timers are due and each packet's row takes the branch of its premises. -/
theorem observabilityCommands : Obligations.ObservabilityCommands := by
  unfold Obligations.ObservabilityCommands
  refine ⟨?read, ?freeze, ?thaw, ?freezeWrite, ?thawWrite, ?freezeEnds, ?event_, ?noEvent, ?tallyRead, ?tallyDenied, ?tallyConfig, ?sweep,
    ?window, ?windowStarts, ?windowEnds, ?reportCard, ?warnings, ?histogram⟩
  case read =>
    exact fun b tag p s h => .of (execDiaryRead_led b tag (.refl _ s) rfl) ⟨_, exec_diaryRead h, answered_replied .., answered_diary ..⟩
  case freeze => exact fun _ _ _ _ => exec_diaryFreeze_on
  case thaw => exact fun _ _ _ _ => exec_diaryFreeze_off
  case freezeWrite => exact fun _ => rfl
  case thawWrite => exact fun _ => rfl
  case freezeEnds => exact fun s frozen late => whenDue_pos ⟨frozen, late⟩
  case event_ => exact fun code island arg s some_ => congrArg Host.Outcome.next (if_neg some_)
  case noEvent => exact fun code island arg s zero => congrArg Host.Outcome.next (if_pos zero)
  case tallyRead =>
    exact fun b tag p s h cls => .of (execTallyRead_led b tag (.refl _ s) rfl) ⟨_, exec_tallyRead h cls, answered_replied ..⟩
  case tallyDenied =>
    exact fun b tag p s h cls outside => .of (execTallyRead_led b tag (.refl _ s) rfl)
      ⟨_, exec_tallyRead_denied h cls outside, refuse_replied ..⟩
  case tallyConfig => exact fun b tag p i s h counter valid free some_ _ => exec_tallyConfig h counter valid free some_
  case sweep => exact fun s fourth => whenDue_pos fourth
  case window =>
    exact fun b tag p s h free => .of (execBwWindow_led b tag (.refl _ s) rfl) ⟨_, exec_bwWindow h free, changed_replied ..⟩
  case windowStarts =>
    exact fun timer w s there waits boundary => .of (execBwWindowStart_led timer (.refl _ s) rfl)
      ⟨_, exec_bwWindowStart there waits boundary, rfl⟩
  case windowEnds =>
    exact fun timer bytesIn bytesOut w s there runs late => .of (execBwWindowEnd_led timer bytesIn bytesOut (.refl _ s) rfl)
      ⟨_, exec_bwWindowEnd there runs late, rfl⟩
  case reportCard =>
    exact fun b tag p s h => .of (execReportCard_led b tag (.refl _ s) rfl) ⟨_, exec_reportCard h, answered_replied ..⟩
  case warnings =>
    intro bays h u s late members history kept quiet
    subst kept
    exact exec_earlyWarningEval_calm late members history quiet
  case histogram =>
    exact fun chip s => .of (execHistogramMinute_led chip [] (.refl _ s) rfl) ⟨_, rfl, rfl, rfl, rfl⟩

/-! ### Pins, SMBus and the test port (R625, R627, R630, R631) -/

section
variable {pin : Nat} {s : State}

/-- An edge discards the test's result (R631). -/
theorem exec_pinOpenTest_edge {follows : Bool} : exec (.pinOpenTest pin follows true) s = .next s :=
  (if_pos (.inl rfl) : execPinOpenTest pin follows true s = _)

/-- A pin without a driver that follows both pulls is found open (R631). -/
theorem exec_pinOpenTest_follows (exists_ : pin ≤ 330) (undriven : (s.pins.pin pin).driven = false) :
    exec (.pinOpenTest pin true false) s = .next (pinFound pin .isOpen s) :=
  (if_neg (by simp [exists_, undriven])).trans (if_pos rfl)

/-- A pin that does not follow them has passed one more test (R631). -/
theorem exec_pinOpenTest_sound (exists_ : pin ≤ 330) (undriven : (s.pins.pin pin).driven = false) :
    exec (.pinOpenTest pin false false) s = .next (updPin pin { s.pins.pin pin with
      badTests := 0, goodTests := (s.pins.pin pin).goodTests + 1 } s) :=
  (if_neg (by simp [exists_, undriven])).trans (if_neg Bool.false_ne_true)

/-- An open pin other than PWR_FAIL_N is sound after 64 sound tests (R631). -/
theorem exec_pinFaultClear_open (fault : (s.pins.pin pin).fault = .isOpen) (unclamped : (s.pins.pin pin).clamped = false)
    (tests : 64 ≤ (s.pins.pin pin).goodTests) (other : pin ≠ 256) :
    exec (.pinFaultClear pin) s = .next (updPin pin { s.pins.pin pin with
      fault := .sound, badTests := 0, goodTests := 0, level := clearedLevel pin (s.pins.pin pin) } s) := by
  refine (whenDue_pos ⟨by simp [fault], unclamped, by rw [if_pos fault]; exact tests⟩ : execPinFaultClear pin s = _).trans
    (congrArg _ ?_)
  exact if_neg (fun c => other c.1)

/-- While COLD_RST_N is held low the test port takes an instruction as itself (R625). -/
theorem tapGated_held {i : TapInstr} (held : coldHeld s = true) : tapGated i s = tapTake i 0 s := if_pos held

/-- Else it takes one that moves pins as BYPASS (R625). -/
theorem tapGated_released {i : TapInstr} (released : coldHeld s = false) : tapGated i s = tapTake .bypass 0 s :=
  if_neg (by simp [released])

@[simp] theorem tapTake_tap (i : TapInstr) (v : Nat) (s : State) : (tapTake i v s).pins.tap = i := rfl
@[simp] theorem tapTake_out (i : TapInstr) (v : Nat) (s : State) : (tapTake i v s).out = s.out ++ [.tapAnswer i v] := rfl

end

/-- Settles O59: a test of a pin takes the branch of its premises, and the test port's gated instructions that of COLD_RST_N. -/
theorem pinAndTestPortCommands : Obligations.PinAndTestPortCommands := by
  unfold Obligations.PinAndTestPortCommands
  refine ⟨?detect, ?open_, ?sound, ?edge, ?clear, ?restored, ?locate, ?smbus, ?bypass, ?idcode, ?sample, ?extest, ?extestGated,
    ?pulse, ?pulseGated, ?train, ?clamp, ?highz, ?highzGated⟩
  case detect => exact fun pin kind s exists_ => whenDue_pos exists_
  case open_ => exact fun _ _ => exec_pinOpenTest_follows
  case sound => exact fun _ _ => exec_pinOpenTest_sound
  case edge => exact fun _ _ _ => exec_pinOpenTest_edge
  case clear => exact fun _ _ => exec_pinFaultClear_open
  case restored => exact fun pin s clamped => whenDue_pos clamped
  case locate => exact fun s sound => .of (execFpLocate_led (.refl _ s) rfl) ⟨_, whenDue_pos sound, rfl⟩
  case smbus => exact fun reg s off aon => .of (execSmbusRead_led reg (.refl _ s) rfl) ⟨_, whenDue_pos ⟨off, aon⟩, rfl⟩
  case bypass => exact fun s => .of (execTapBypass_led (.refl _ s) rfl) ⟨_, rfl, rfl, rfl⟩
  case idcode => exact fun s => .of (execTapIdcode_led (.refl _ s) rfl) ⟨_, rfl, rfl, rfl⟩
  case sample => exact fun s => .of (execTapSamplePreload_led (.refl _ s) rfl) ⟨_, rfl, rfl, rfl⟩
  case extest => exact fun s held => .of (execTapExtest_led (.refl _ s) rfl) ⟨_, rfl, by simp [tapGated_held held]⟩
  case extestGated => exact fun s free => .of (execTapExtest_led (.refl _ s) rfl) ⟨_, rfl, by simp [tapGated_released free]⟩
  case pulse => exact fun s held => .of (execTapExtestPulse_led (.refl _ s) rfl) ⟨_, rfl, by simp [tapGated_held held]⟩
  case pulseGated => exact fun s free => .of (execTapExtestPulse_led (.refl _ s) rfl) ⟨_, rfl, by simp [tapGated_released free]⟩
  case train => exact fun s held => .of (execTapExtestTrain_led (.refl _ s) rfl) ⟨_, rfl, by simp [tapGated_held held]⟩
  case clamp => exact fun s held => .of (execTapClamp_led (.refl _ s) rfl) ⟨_, rfl, by simp [tapGated_held held]⟩
  case highz => exact fun s held => .of (execTapHighz_led (.refl _ s) rfl) ⟨_, rfl, by simp [tapGated_held held]⟩
  case highzGated => exact fun s free => .of (execTapHighz_led (.refl _ s) rfl) ⟨_, rfl, by simp [tapGated_released free]⟩

end Sys2Proof.Machine

namespace Sys2Proof.Machine

/-! ### What every command and every step keeps (log 2, log 5) -/

/-- An outcome that is a next state, neither a fault nor a refusal. -/
def Answers (o : Host.Outcome State Fault Refusal) : Prop := ∃ t, o = .next t

section
variable {s : State}

theorem onPacket_answers (b : Binding) (tag opcode : Nat) (f : Packet → State → State) :
    Answers (onPacket b tag opcode f s) := by
  unfold onPacket
  split <;> exact ⟨_, rfl⟩

theorem onController_answers (cntlid : Nat) (f : Controller → State → State) : Answers (onController cntlid f s) := by
  unfold onController
  split <;> exact ⟨_, rfl⟩

theorem onDone_answers (d : BlpDone) (opcode : Nat) (f : DieOp → State → State) : Answers (onDone d opcode f s) := by
  unfold onDone
  split
  · exact ⟨_, rfl⟩
  · split <;> exact ⟨_, rfl⟩

theorem onReservation_answers (opcode cntlid qid cid : Nat) (f : Ctx → Reservation → State → State) :
    Answers (onReservation opcode cntlid qid cid f s) := by
  unfold onReservation
  split <;> exact ⟨_, rfl⟩

theorem Answers.next (t : State) : Answers (.next t) := ⟨t, rfl⟩

theorem managedOnly_answers (cntlid cid : Nat) (f : State → State) : Answers (managedOnly cntlid cid f s) := by
  unfold managedOnly
  exact onController_answers ..

theorem execColdReset_answers (cause : ColdCause) (env : StartEnv) : Answers (execColdReset cause env s) := by
  unfold execColdReset
  split <;> exact .next _

theorem execBellTick_answers : Answers (execBellTick s) := by
  unfold execBellTick
  split <;> exact .next _

theorem execLaneTestComplete_answers (lane : LaneId) (pass : Bool) : Answers (execLaneTestComplete lane pass s) := by
  unfold execLaneTestComplete
  dsimp only
  repeat' split
  all_goals exact .next _

theorem execCapsuleReceive_answers (cntlid qid cid : Nat) (cap : Capsule) (room : Bool) :
    Answers (execCapsuleReceive cntlid qid cid cap room s) := by
  unfold execCapsuleReceive
  repeat' split
  all_goals exact .next _

theorem execMetadataPagePrefetch_answers (cntlid qid : Nat) : Answers (execMetadataPagePrefetch cntlid qid s) := by
  unfold execMetadataPagePrefetch
  repeat' split
  all_goals exact .next _

theorem execWriteDataArrival_answers (cntlid qid cid first : Nat) (data pi : Bytes) (ok : Bool) :
    Answers (execWriteDataArrival cntlid qid cid first data pi ok s) := by
  unfold execWriteDataArrival
  split <;> exact .next _

theorem execDataInTimeout_answers (cntlid qid cid : Nat) : Answers (execDataInTimeout cntlid qid cid s) := by
  unfold execDataInTimeout
  split <;> exact .next _

theorem execConnectionError_answers (cntlid qid : Nat) : Answers (execConnectionError cntlid qid s) := by
  unfold execConnectionError
  split <;> exact .next _

theorem execKeepAliveExpiry_answers (cntlid : Nat) : Answers (execKeepAliveExpiry cntlid s) := by
  unfold execKeepAliveExpiry
  split <;> exact .next _

theorem execFlush_answers (cntlid qid cid : Nat) (remoteDone : Bool) : Answers (execFlush cntlid qid cid remoteDone s) := by
  unfold execFlush
  split <;> exact .next _

theorem execWrite_answers (cntlid qid cid : Nat) : Answers (execWrite cntlid qid cid s) := by
  unfold execWrite
  split <;> exact .next _

theorem execCompare_answers (cntlid qid cid : Nat) (remote : Option (Status × Bytes)) :
    Answers (execCompare cntlid qid cid remote s) := by
  unfold execCompare
  split <;> exact .next _

theorem execCompareAndWrite_answers (cntlid qid cid : Nat) (remote : Option (Status × Bytes)) :
    Answers (execCompareAndWrite cntlid qid cid remote s) := by
  unfold execCompareAndWrite
  split <;> exact .next _

theorem execWriteZeroes_answers (cntlid qid cid : Nat) : Answers (execWriteZeroes cntlid qid cid s) := by
  unfold execWriteZeroes
  split <;> exact .next _

theorem execDatasetManagement_answers (cntlid qid cid : Nat) : Answers (execDatasetManagement cntlid qid cid s) := by
  unfold execDatasetManagement
  split <;> exact .next _

theorem execFabricsConnect_answers (port cntlid qid cid size kato : Nat) (hostNqn subNqn hostId : Bytes) :
    Answers (execFabricsConnect port cntlid qid cid size kato hostNqn subNqn hostId s) := by
  unfold execFabricsConnect
  dsimp only
  repeat' split
  all_goals exact .next _

theorem execPowerStateChange_answers : Answers (execPowerStateChange s) := by
  unfold execPowerStateChange
  split <;> exact .next _

theorem execPs3EntryComplete_answers : Answers (execPs3EntryComplete s) := by
  unfold execPs3EntryComplete
  split <;> exact .next _

theorem execPs3EntryAbandon_answers : Answers (execPs3EntryAbandon s) := by
  unfold execPs3EntryAbandon
  split <;> exact .next _

theorem execAnaOwnershipMove_answers (group : Nat) : Answers (execAnaOwnershipMove group s) := by
  unfold execAnaOwnershipMove
  split <;> exact .next _

theorem execMessageResendTimeout_answers (number : Nat) : Answers (execMessageResendTimeout number s) := by
  unfold execMessageResendTimeout
  repeat' split
  all_goals exact .next _

theorem execDestageAgeExpiry_answers (vol grain : Nat) : Answers (execDestageAgeExpiry vol grain s) := by
  unfold execDestageAgeExpiry
  split <;> exact .next _

theorem execDestageStart_answers (vol grain : Nat) : Answers (execDestageStart vol grain s) := by
  unfold execDestageStart
  dsimp only
  repeat' split
  all_goals exact .next _

theorem execFingerprintComplete_answers (job : Nat) : Answers (execFingerprintComplete job s) := by
  unfold execFingerprintComplete
  split <;> exact .next _

theorem execFingerprintResolve_answers : Answers (execFingerprintResolve s) := by
  unfold execFingerprintResolve
  split <;> exact .next _

theorem execResolvePendingTimeout_answers (grain : Nat) : Answers (execResolvePendingTimeout grain s) := by
  unfold execResolvePendingTimeout
  split <;> exact .next _

theorem execInflightWayFree_answers : Answers (execInflightWayFree s) := by
  unfold execInflightWayFree
  dsimp only
  split <;> exact .next _

theorem execIndexReadComplete_answers (grain : Nat) (peer sound : Bool) :
    Answers (execIndexReadComplete grain peer sound s) := by
  unfold execIndexReadComplete
  repeat' split
  all_goals exact .next _

theorem execFilterReplace_answers : Answers (execFilterReplace s) := by
  unfold execFilterReplace
  split <;> exact .next _

theorem execEncodeComplete_answers (job lane : Nat) (faulty : Bool) : Answers (execEncodeComplete job lane faulty s) := by
  unfold execEncodeComplete
  repeat' split
  all_goals exact .next _

theorem execDecodeComplete_answers (job lane : Nat) (faulty : Option (List (Nat × (Nat × Nat)))) :
    Answers (execDecodeComplete job lane faulty s) := by
  unfold execDecodeComplete
  repeat' split
  all_goals exact .next _

theorem execSlotDecryptComplete_answers (job lane : Nat) (sound : Bool) :
    Answers (execSlotDecryptComplete job lane sound s) := by
  unfold execSlotDecryptComplete
  repeat' split
  all_goals exact .next _

theorem execSlotEncryptComplete_answers (job lane : Nat) : Answers (execSlotEncryptComplete job lane s) := by
  unfold execSlotEncryptComplete
  dsimp only
  repeat' split
  all_goals exact .next _

theorem execCheckpointPhase2_answers : Answers (execCheckpointPhase2 s) := by
  unfold execCheckpointPhase2
  split <;> exact .next _

theorem execGcStart_answers (bay die : Nat) : Answers (execGcStart bay die s) := by
  unfold execGcStart
  dsimp only
  repeat' split
  all_goals exact .next _

theorem execPsaResolveAgain_answers (job : Nat) : Answers (execPsaResolveAgain job s) := by
  unfold execPsaResolveAgain
  split <;> exact .next _

theorem execStripeIdleClose_answers (group : Nat) : Answers (execStripeIdleClose group s) := by
  unfold execStripeIdleClose
  split <;> exact .next _

theorem execStripeExtend_answers (group : Nat) : Answers (execStripeExtend group s) := by
  unfold execStripeExtend
  dsimp only
  repeat' split
  all_goals exact .next _

theorem execGroupOpen_answers (layout : Nat) : Answers (execGroupOpen layout s) := by
  unfold execGroupOpen
  split <;> exact .next _

theorem execReconstructionCombine_answers (job : Nat) : Answers (execReconstructionCombine job s) := by
  unfold execReconstructionCombine
  repeat' split
  all_goals exact .next _

theorem execPatrolStripe_answers (given : List (Nat × Bytes)) : Answers (execPatrolStripe given s) := by
  unfold execPatrolStripe
  repeat' split
  all_goals exact .next _

theorem execDetentionProbe_answers (form die block page : Nat) : Answers (execDetentionProbe form die block page s) := by
  unfold execDetentionProbe
  split <;> exact .next _

theorem execRebuildBlock_answers (sources : List (Nat × List (Nat × Bytes))) : Answers (execRebuildBlock sources s) := by
  unfold execRebuildBlock
  dsimp only
  repeat' split
  all_goals exact .next _

theorem execBlpReadComplete_answers (d : BlpDone) (data tags : Bytes) : Answers (execBlpReadComplete d data tags s) := by
  unfold execBlpReadComplete
  dsimp only
  repeat' split
  all_goals exact .next _

theorem execBlpProgramComplete_answers (d : BlpDone) : Answers (execBlpProgramComplete d s) := by
  unfold execBlpProgramComplete
  repeat' split
  all_goals exact .next _

theorem execBlpEraseComplete_answers (d : BlpDone) : Answers (execBlpEraseComplete d s) := by
  unfold execBlpEraseComplete
  repeat' split
  all_goals exact .next _

theorem execBlpCalibrateComplete_answers (d : BlpDone) (offsets counts : List Nat) :
    Answers (execBlpCalibrateComplete d offsets counts s) := by
  unfold execBlpCalibrateComplete
  repeat' split
  all_goals exact .next _

theorem execBayFullRetrain_answers (bay : Option Nat) (width rate : Nat) :
    Answers (execBayFullRetrain bay width rate s) := by
  unfold execBayFullRetrain
  split <;> exact .next _

theorem execWitnessCasComplete_answers (bay old : Nat) : Answers (execWitnessCasComplete bay old s) := by
  unfold execWitnessCasComplete
  dsimp only
  repeat' split
  all_goals exact .next _

theorem execClusterReport_answers (island : Nat) (healthy : Bool) : Answers (execClusterReport island healthy s) := by
  unfold execClusterReport
  repeat' split
  all_goals exact .next _

theorem execClusterReportTimeout_answers (island : Nat) : Answers (execClusterReportTimeout island s) := by
  unfold execClusterReportTimeout
  repeat' split
  all_goals exact .next _

theorem execCpiAck_answers : Answers (execCpiAck s) := by
  unfold execCpiAck
  split <;> exact .next _

theorem execPfmAck_answers : Answers (execPfmAck s) := by
  unfold execPfmAck
  split <;> exact .next _

theorem execMctpMessage_answers (endpoint length : Nat) (body : Bytes) (peerInflight : Nat) :
    Answers (execMctpMessage endpoint length body peerInflight s) := by
  unfold execMctpMessage
  split <;> exact .next _

theorem execReplyRetentionExpiry_answers (b : Binding) (tag : Nat) : Answers (execReplyRetentionExpiry b tag s) := by
  unfold execReplyRetentionExpiry
  split <;> exact .next _

theorem execClaimBindingTimeout_answers (b : Binding) : Answers (execClaimBindingTimeout b s) := by
  unfold execClaimBindingTimeout
  repeat' split
  all_goals exact .next _

theorem execSnapshotSettle_answers (tag : Nat) (peerReady : Bool) : Answers (execSnapshotSettle tag peerReady s) := by
  unfold execSnapshotSettle
  split <;> exact .next _

theorem execAccept_answers (reg : Nat) (message : Bytes) : Answers (execAccept reg message s) := by
  unfold execAccept
  split <;> exact .next _

theorem execProve_answers (reg : Nat) (message : Bytes) : Answers (execProve reg message s) := by
  unfold execProve
  split <;> exact .next _

theorem execRefuse_answers (reg status : Nat) : Answers (execRefuse reg status s) := by
  unfold execRefuse
  split <;> exact .next _

theorem execHandshakeTimeout_answers (reg : Nat) : Answers (execHandshakeTimeout reg s) := by
  unfold execHandshakeTimeout
  split <;> exact .next _

theorem execSessionRekey_answers (reg : Nat) : Answers (execSessionRekey reg s) := by
  unfold execSessionRekey
  split <;> exact .next _

theorem execSegmentSendTimer_answers (reg : Nat) : Answers (execSegmentSendTimer reg s) := by
  unfold execSegmentSendTimer
  split <;> exact .next _

theorem execBeginTransfer_answers (session transfer root base snap _fenceEpoch size domain flags until_ : Nat) (pool : Bytes) :
    Answers (execBeginTransfer session transfer root base snap _fenceEpoch size domain flags until_ pool s) := by
  unfold execBeginTransfer
  split <;> exact .next _

theorem execFingerprints_answers (session transfer : Nat) (entries : Bytes) :
    Answers (execFingerprints session transfer entries s) := by
  unfold execFingerprints
  split <;> exact .next _

theorem execWant_answers (session transfer : Nat) (grains : List Nat) : Answers (execWant session transfer grains s) := by
  unfold execWant
  split <;> exact .next _

theorem execGrain_answers (session transfer grain tier : Nat) (slot tail : Bytes) :
    Answers (execGrain session transfer grain tier slot tail s) := by
  unfold execGrain
  split <;> exact .next _

theorem execEndTransfer_answers (session transfer entries : Nat) (digest : Bytes) :
    Answers (execEndTransfer session transfer entries digest s) := by
  unfold execEndTransfer
  split <;> exact .next _

theorem execSyncWrite_answers (session root count seq lba : Nat) (blocks pi : Bytes) :
    Answers (execSyncWrite session root count seq lba blocks pi s) := by
  unfold execSyncWrite
  split <;> exact .next _

theorem execSyncAck_answers (session root seq : Nat) : Answers (execSyncAck session root seq s) := by
  unfold execSyncAck
  split <;> exact .next _

theorem execSyncAckTimeout_answers (session root : Nat) : Answers (execSyncAckTimeout session root s) := by
  unfold execSyncAckTimeout
  split <;> exact .next _

theorem execSyncFence_answers (session snapshot bell : Nat) (listed : List (Nat × Nat)) :
    Answers (execSyncFence session snapshot bell listed s) := by
  unfold execSyncFence
  split <;> exact .next _

theorem execMigrateRepeatTimer_answers (session root : Nat) : Answers (execMigrateRepeatTimer session root s) := by
  unfold execMigrateRepeatTimer
  split <;> exact .next _

theorem execKeyAdopt_answers (session domain : Nat) (wrapped check : Bytes) :
    Answers (execKeyAdopt session domain wrapped check s) := by
  unfold execKeyAdopt
  split <;> exact .next _

theorem execBwWindowStart_answers (timer : Nat) : Answers (execBwWindowStart timer s) := by
  unfold execBwWindowStart
  split <;> exact .next _

theorem execBwWindowEnd_answers (timer bytesIn bytesOut : Nat) : Answers (execBwWindowEnd timer bytesIn bytesOut s) := by
  unfold execBwWindowEnd
  split <;> exact .next _

theorem execPinOpenTest_answers (pin : Nat) (follows edge : Bool) : Answers (execPinOpenTest pin follows edge s) := by
  unfold execPinOpenTest
  repeat' split
  all_goals exact .next _

theorem execCnpReceived_answers (cntlid qid : Nat) : Answers (execCnpReceived cntlid qid s) := by
  unfold execCnpReceived
  split <;> exact .next _

theorem execKeyAdoptWaitExpiry_answers (domain : Nat) : Answers (execKeyAdoptWaitExpiry domain s) := by
  unfold execKeyAdoptWaitExpiry
  split <;> exact .next _

theorem execCorridorMessageDrop_answers (kind : Option (Nat × Nat)) : Answers (execCorridorMessageDrop kind s) := by
  unfold execCorridorMessageDrop
  split <;> exact .next _

theorem execReservationRegister_answers (cntlid qid cid : Nat) :
    Answers (execReservationRegister cntlid qid cid s) := by
  unfold execReservationRegister
  exact onReservation_answers ..

theorem execReservationReport_answers (cntlid qid cid : Nat) :
    Answers (execReservationReport cntlid qid cid s) := by
  unfold execReservationReport
  exact onReservation_answers ..

theorem execReservationAcquire_answers (cntlid qid cid : Nat) :
    Answers (execReservationAcquire cntlid qid cid s) := by
  unfold execReservationAcquire
  exact onReservation_answers ..

theorem execReservationRelease_answers (cntlid qid cid : Nat) :
    Answers (execReservationRelease cntlid qid cid s) := by
  unfold execReservationRelease
  exact onReservation_answers ..

theorem execGetLogPage_answers (cntlid cid lid offset length : Nat) (peer : Bytes) :
    Answers (execGetLogPage cntlid cid lid offset length peer s) := by
  unfold execGetLogPage
  exact onController_answers ..

theorem execIdentify_answers (cntlid cid cns nsid cntid : Nat) :
    Answers (execIdentify cntlid cid cns nsid cntid s) := by
  unfold execIdentify
  exact onController_answers ..

theorem execAbort_answers (cntlid cid sqid target : Nat) :
    Answers (execAbort cntlid cid sqid target s) := by
  unfold execAbort
  exact onController_answers ..

theorem execSetFeatures_answers (cntlid cid fid nsid value : Nat) (data : Bytes) :
    Answers (execSetFeatures cntlid cid fid nsid value data s) := by
  unfold execSetFeatures
  exact onController_answers ..

theorem execGetFeatures_answers (cntlid cid fid nsid value : Nat) :
    Answers (execGetFeatures cntlid cid fid nsid value s) := by
  unfold execGetFeatures
  exact onController_answers ..

theorem execAsyncEventRequest_answers (cntlid cid : Nat) :
    Answers (execAsyncEventRequest cntlid cid s) := by
  unfold execAsyncEventRequest
  exact onController_answers ..

theorem execFirmwareCommit_answers (cntlid cid slot action : Nat) :
    Answers (execFirmwareCommit cntlid cid slot action s) := by
  unfold execFirmwareCommit
  exact managedOnly_answers ..

theorem execFirmwareImageDownload_answers (cntlid cid offset : Nat) (data : Bytes) :
    Answers (execFirmwareImageDownload cntlid cid offset data s) := by
  unfold execFirmwareImageDownload
  exact managedOnly_answers ..

theorem execKeepAlive_answers (cntlid cid : Nat) :
    Answers (execKeepAlive cntlid cid s) := by
  unfold execKeepAlive
  exact onController_answers ..

theorem execPropertyGet_answers (cntlid cid off : Nat) :
    Answers (execPropertyGet cntlid cid off s) := by
  unfold execPropertyGet
  exact onController_answers ..

theorem execPropertySet_answers (cntlid cid off value : Nat) :
    Answers (execPropertySet cntlid cid off value s) := by
  unfold execPropertySet
  exact onController_answers ..

theorem execDisconnect_answers (cntlid cid : Nat) :
    Answers (execDisconnect cntlid cid s) := by
  unfold execDisconnect
  exact onController_answers ..

theorem execControlReplyPoll_answers (cntlid cid tag : Nat) :
    Answers (execControlReplyPoll cntlid cid tag s) := by
  unfold execControlReplyPoll
  exact managedOnly_answers ..

theorem execControlReplyFetch_answers (cntlid cid tag : Nat) :
    Answers (execControlReplyFetch cntlid cid tag s) := by
  unfold execControlReplyFetch
  exact managedOnly_answers ..

theorem execControlPayloadFetch_answers (cntlid cid tag offset length : Nat) :
    Answers (execControlPayloadFetch cntlid cid tag offset length s) := by
  unfold execControlPayloadFetch
  exact managedOnly_answers ..

theorem execBlpSuspendComplete_answers (d : BlpDone) :
    Answers (execBlpSuspendComplete d s) := by
  unfold execBlpSuspendComplete
  exact onDone_answers ..

theorem execBlpResumeComplete_answers (d : BlpDone) :
    Answers (execBlpResumeComplete d s) := by
  unfold execBlpResumeComplete
  exact onDone_answers ..

theorem execBlpStatusComplete_answers (d : BlpDone) (record : Bytes) :
    Answers (execBlpStatusComplete d record s) := by
  unfold execBlpStatusComplete
  exact onDone_answers ..

theorem execBlpTelemetryComplete_answers (d : BlpDone) (page : Bytes) :
    Answers (execBlpTelemetryComplete d page s) := by
  unfold execBlpTelemetryComplete
  exact onDone_answers ..

theorem execBlpFenceComplete_answers (d : BlpDone) :
    Answers (execBlpFenceComplete d s) := by
  unfold execBlpFenceComplete
  exact onDone_answers ..

theorem execControlPacketSubmit_answers (cntlid cid : Nat) (data : Bytes) (peerInflight : Nat) :
    Answers (execControlPacketSubmit cntlid cid data peerInflight s) := by
  unfold execControlPacketSubmit
  split
  · exact .next _
  · exact managedOnly_answers ..

end

/-- Every command answers a next state, whatever its operands and the state (log 5): none is a fault or a refusal. -/
theorem exec_answers (c : Instr) (s : State) : Answers (exec c s) := by
  cases c with
  | ttStage | ttArm | ttDisarm | ttQuery | lockerRotate | lockerWithdraw | lockerRestore | lockerQuery | headAdopt
  | headRelease | fedRosterLoad | fedTimeToken | fedQuery | keyEnroll | keyRevoke | quote | mrRead | identityGet
  | escrowExport | rootImport | decommission | fwDownload | fwActivate | pfwDownload | pfwActivate | fwQuery | sysInfo
  | sysPortMode | sysBinding | sysSubsystem | sysDataTimeout | sysHoldupCfg | sysHoldupMeasure | sysClaims | sysIslandReset
  | cpPayloadFetch | poolForm | poolExtend | memberFail | bayWidthSet | bayPower | poolGrowFilter | poolGrowIndex
  | poolQuery | poolErase | moduleUnform | volCreate | volDelete | volResize | volSet | anaMoveGroup | domainCreate
  | domainDelete | domainVerify | volQuery | snapCreate | snapDelete | snapSeal | cloneCreate | snapQuery | replPartnerAdd
  | replPartnerRemove | replSessionOpen | replSessionClose | replAsyncSend | replSyncSet | migrateExport | migrateCutover
  | replQuery | diagDieOp | diagLaneTest | diagLaneGroup | diagDramChannel | diagBayGroup | diagDump | diagPin | diagCapture
  | diaryRead | diaryFreeze | tallyRead | tallyConfig | bwWindow | reportCard => apply onPacket_answers
  | coldReset => exact execColdReset_answers ..
  | bellTick => exact execBellTick_answers ..
  | laneTestComplete => exact execLaneTestComplete_answers ..
  | capsuleReceive => exact execCapsuleReceive_answers ..
  | metadataPagePrefetch => exact execMetadataPagePrefetch_answers ..
  | writeDataArrival => exact execWriteDataArrival_answers ..
  | dataInTimeout => exact execDataInTimeout_answers ..
  | connectionError => exact execConnectionError_answers ..
  | keepAliveExpiry => exact execKeepAliveExpiry_answers ..
  | flush => exact execFlush_answers ..
  | write => exact execWrite_answers ..
  | compare => exact execCompare_answers ..
  | compareAndWrite => exact execCompareAndWrite_answers ..
  | writeZeroes => exact execWriteZeroes_answers ..
  | datasetManagement => exact execDatasetManagement_answers ..
  | reservationRegister => exact execReservationRegister_answers ..
  | reservationReport => exact execReservationReport_answers ..
  | reservationAcquire => exact execReservationAcquire_answers ..
  | reservationRelease => exact execReservationRelease_answers ..
  | getLogPage => exact execGetLogPage_answers ..
  | identify => exact execIdentify_answers ..
  | abort => exact execAbort_answers ..
  | setFeatures => exact execSetFeatures_answers ..
  | getFeatures => exact execGetFeatures_answers ..
  | asyncEventRequest => exact execAsyncEventRequest_answers ..
  | firmwareCommit => exact execFirmwareCommit_answers ..
  | firmwareImageDownload => exact execFirmwareImageDownload_answers ..
  | keepAlive => exact execKeepAlive_answers ..
  | fabricsConnect => exact execFabricsConnect_answers ..
  | propertyGet => exact execPropertyGet_answers ..
  | propertySet => exact execPropertySet_answers ..
  | disconnect => exact execDisconnect_answers ..
  | controlReplyPoll => exact execControlReplyPoll_answers ..
  | controlPacketSubmit => exact execControlPacketSubmit_answers ..
  | controlReplyFetch => exact execControlReplyFetch_answers ..
  | controlPayloadFetch => exact execControlPayloadFetch_answers ..
  | powerStateChange => exact execPowerStateChange_answers ..
  | ps3EntryComplete => exact execPs3EntryComplete_answers ..
  | ps3EntryAbandon => exact execPs3EntryAbandon_answers ..
  | anaOwnershipMove => exact execAnaOwnershipMove_answers ..
  | messageResendTimeout => exact execMessageResendTimeout_answers ..
  | destageAgeExpiry => exact execDestageAgeExpiry_answers ..
  | destageStart => exact execDestageStart_answers ..
  | fingerprintComplete => exact execFingerprintComplete_answers ..
  | fingerprintResolve => exact execFingerprintResolve_answers ..
  | resolvePendingTimeout => exact execResolvePendingTimeout_answers ..
  | inflightWayFree => exact execInflightWayFree_answers ..
  | indexReadComplete => exact execIndexReadComplete_answers ..
  | filterReplace => exact execFilterReplace_answers ..
  | encodeComplete => exact execEncodeComplete_answers ..
  | decodeComplete => exact execDecodeComplete_answers ..
  | slotDecryptComplete => exact execSlotDecryptComplete_answers ..
  | slotEncryptComplete => exact execSlotEncryptComplete_answers ..
  | checkpointPhase2 => exact execCheckpointPhase2_answers ..
  | gcStart => exact execGcStart_answers ..
  | psaResolveAgain => exact execPsaResolveAgain_answers ..
  | stripeIdleClose => exact execStripeIdleClose_answers ..
  | stripeExtend => exact execStripeExtend_answers ..
  | groupOpen => exact execGroupOpen_answers ..
  | reconstructionCombine => exact execReconstructionCombine_answers ..
  | patrolStripe => exact execPatrolStripe_answers ..
  | detentionProbe => exact execDetentionProbe_answers ..
  | rebuildBlock => exact execRebuildBlock_answers ..
  | blpReadComplete => exact execBlpReadComplete_answers ..
  | blpProgramComplete => exact execBlpProgramComplete_answers ..
  | blpEraseComplete => exact execBlpEraseComplete_answers ..
  | blpSuspendComplete => exact execBlpSuspendComplete_answers ..
  | blpResumeComplete => exact execBlpResumeComplete_answers ..
  | blpStatusComplete => exact execBlpStatusComplete_answers ..
  | blpCalibrateComplete => exact execBlpCalibrateComplete_answers ..
  | blpTelemetryComplete => exact execBlpTelemetryComplete_answers ..
  | blpFenceComplete => exact execBlpFenceComplete_answers ..
  | bayFullRetrain => exact execBayFullRetrain_answers ..
  | witnessCasComplete => exact execWitnessCasComplete_answers ..
  | clusterReport => exact execClusterReport_answers ..
  | clusterReportTimeout => exact execClusterReportTimeout_answers ..
  | cpiAck => exact execCpiAck_answers ..
  | pfmAck => exact execPfmAck_answers ..
  | mctpMessage => exact execMctpMessage_answers ..
  | replyRetentionExpiry => exact execReplyRetentionExpiry_answers ..
  | claimBindingTimeout => exact execClaimBindingTimeout_answers ..
  | snapshotSettle => exact execSnapshotSettle_answers ..
  | accept => exact execAccept_answers ..
  | prove => exact execProve_answers ..
  | refuse => exact execRefuse_answers ..
  | handshakeTimeout => exact execHandshakeTimeout_answers ..
  | sessionRekey => exact execSessionRekey_answers ..
  | segmentSendTimer => exact execSegmentSendTimer_answers ..
  | beginTransfer session transfer root base snap fenceEpoch size domain flags until_ pool =>
    exact execBeginTransfer_answers session transfer root base snap fenceEpoch size domain flags until_ pool
  | fingerprints => exact execFingerprints_answers ..
  | want => exact execWant_answers ..
  | grain => exact execGrain_answers ..
  | endTransfer => exact execEndTransfer_answers ..
  | syncWrite => exact execSyncWrite_answers ..
  | syncAck => exact execSyncAck_answers ..
  | syncAckTimeout => exact execSyncAckTimeout_answers ..
  | syncFence => exact execSyncFence_answers ..
  | migrateRepeatTimer => exact execMigrateRepeatTimer_answers ..
  | keyAdopt => exact execKeyAdopt_answers ..
  | bwWindowStart => exact execBwWindowStart_answers ..
  | bwWindowEnd => exact execBwWindowEnd_answers ..
  | pinOpenTest => exact execPinOpenTest_answers ..
  | cnpReceived => exact execCnpReceived_answers ..
  | keyAdoptWaitExpiry => exact execKeyAdoptWaitExpiry_answers ..
  | corridorMessageDrop => exact execCorridorMessageDrop_answers ..
  | _ => exact ⟨_, rfl⟩

/-- Each command stays within its footprint, keeps the burned fuses and the bounds of the Diary. -/
theorem exec_led (c : Instr) (s : State) : LedO (footprint c) s (exec c s) := by
  cases c with
  | suppliesValid env => exact execSuppliesValid_led env (.refl _ s) rfl
  | facultyChunkLoad chunk => exact execFacultyChunkLoad_led chunk (.refl _ s) rfl
  | coldReset cause env => exact execColdReset_led cause env (.refl _ s) rfl
  | warmReset env => exact execWarmReset_led env (.refl _ s) rfl
  | vddAonOnly => exact execVddAonOnly_led (.refl _ s) rfl
  | supplyTrip rail high => exact execSupplyTrip_led rail high (.refl _ s) rfl
  | pwrFailNLow => exact execPwrFailNLow_led (.refl _ s) rfl
  | vaultSheetEntry => exact execVaultSheetEntry_led (.refl _ s) rfl
  | vaultSeal coldLow warmLow env => exact execVaultSeal_led coldLow warmLow env (.refl _ s) rfl
  | vaultWarmStart env => exact execVaultWarmStart_led env (.refl _ s) rfl
  | earlyPowerFail => exact execEarlyPowerFail_led (.refl _ s) rfl
  | thermalVault temp island => exact execThermalVault_led temp island (.refl _ s) rfl
  | thermtrip temp island => exact execThermtrip_led temp island (.refl _ s) rfl
  | refclkLost ref => exact execRefclkLost_led ref (.refl _ s) rfl
  | refclkRestored ref => exact execRefclkRestored_led ref (.refl _ s) rfl
  | avsAdjust targetMv measuredMv => exact execAvsAdjust_led targetMv measuredMv (.refl _ s) rfl
  | avsConfirmTimeout => exact execAvsConfirmTimeout_led (.refl _ s) rfl
  | fullTrainingComplete => exact execFullTrainingComplete_led (.refl _ s) rfl
  | vaultRestoreComplete => exact execVaultRestoreComplete_led (.refl _ s) rfl
  | bellTick => exact execBellTick_led (.refl _ s) rfl
  | epochEnd => exact execEpochEnd_led (.refl _ s) rfl
  | epochSealWrite => exact execEpochSealWrite_led (.refl _ s) rfl
  | termChangeover => exact execTermChangeover_led (.refl _ s) rfl
  | sheetSwitch => exact execSheetSwitch_led (.refl _ s) rfl
  | laneFault lane => exact execLaneFault_led lane (.refl _ s) rfl
  | laneRotation lane => exact execLaneRotation_led lane (.refl _ s) rfl
  | laneTestComplete lane pass => exact execLaneTestComplete_led lane pass (.refl _ s) rfl
  | resourceReturnDue what => exact execResourceReturnDue_led what (.refl _ s) rfl
  | ttStage b tag => exact execTtStage_led b tag (.refl _ s) rfl
  | ttArm b tag peer => exact execTtArm_led b tag peer (.refl _ s) rfl
  | ttDisarm b tag peer => exact execTtDisarm_led b tag peer (.refl _ s) rfl
  | ttQuery b tag => exact execTtQuery_led b tag (.refl _ s) rfl
  | capsuleReceive cntlid qid cid cap room => exact execCapsuleReceive_led cntlid qid cid cap room (.refl _ s) rfl
  | capsuleFetch => exact execCapsuleFetch_led (.refl _ s) rfl
  | metadataPagePrefetch cntlid qid => exact execMetadataPagePrefetch_led cntlid qid (.refl _ s) rfl
  | fsnRequest number nsid tag cap host => exact execFsnRequest_led number nsid tag cap host (.refl _ s) rfl
  | fsnGrant nsid tag seq => exact execFsnGrant_led nsid tag seq (.refl _ s) rfl
  | writeDataArrival cntlid qid cid first data pi ok =>
    exact execWriteDataArrival_led cntlid qid cid first data pi ok (.refl _ s) rfl
  | dataInTimeout cntlid qid cid => exact execDataInTimeout_led cntlid qid cid (.refl _ s) rfl
  | connectionError cntlid qid => exact execConnectionError_led cntlid qid (.refl _ s) rfl
  | keepAliveExpiry cntlid => exact execKeepAliveExpiry_led cntlid (.refl _ s) rfl
  | flush cntlid qid cid remoteDone => exact execFlush_led cntlid qid cid remoteDone (.refl _ s) rfl
  | write cntlid qid cid => exact execWrite_led cntlid qid cid (.refl _ s) rfl
  | read cntlid qid cid remote => exact execRead_led cntlid qid cid remote (.refl _ s) rfl
  | compare cntlid qid cid remote => exact execCompare_led cntlid qid cid remote (.refl _ s) rfl
  | compareAndWrite cntlid qid cid remote => exact execCompareAndWrite_led cntlid qid cid remote (.refl _ s) rfl
  | writeZeroes cntlid qid cid => exact execWriteZeroes_led cntlid qid cid (.refl _ s) rfl
  | datasetManagement cntlid qid cid => exact execDatasetManagement_led cntlid qid cid (.refl _ s) rfl
  | verify cntlid qid cid remote => exact execVerify_led cntlid qid cid remote (.refl _ s) rfl
  | reservationRegister cntlid qid cid => exact execReservationRegister_led cntlid qid cid (.refl _ s) rfl
  | reservationReport cntlid qid cid => exact execReservationReport_led cntlid qid cid (.refl _ s) rfl
  | reservationAcquire cntlid qid cid => exact execReservationAcquire_led cntlid qid cid (.refl _ s) rfl
  | reservationRelease cntlid qid cid => exact execReservationRelease_led cntlid qid cid (.refl _ s) rfl
  | getLogPage cntlid cid lid offset length peer =>
    exact execGetLogPage_led cntlid cid lid offset length peer (.refl _ s) rfl
  | identify cntlid cid cns nsid cntid => exact execIdentify_led cntlid cid cns nsid cntid (.refl _ s) rfl
  | abort cntlid cid sqid target => exact execAbort_led cntlid cid sqid target (.refl _ s) rfl
  | setFeatures cntlid cid fid nsid value data => exact execSetFeatures_led cntlid cid fid nsid value data (.refl _ s) rfl
  | getFeatures cntlid cid fid nsid value => exact execGetFeatures_led cntlid cid fid nsid value (.refl _ s) rfl
  | asyncEventRequest cntlid cid => exact execAsyncEventRequest_led cntlid cid (.refl _ s) rfl
  | firmwareCommit cntlid cid slot action => exact execFirmwareCommit_led cntlid cid slot action (.refl _ s) rfl
  | firmwareImageDownload cntlid cid offset data =>
    exact execFirmwareImageDownload_led cntlid cid offset data (.refl _ s) rfl
  | keepAlive cntlid cid => exact execKeepAlive_led cntlid cid (.refl _ s) rfl
  | fabricsConnect port cntlid qid cid size kato hostNqn subNqn hostId =>
    exact execFabricsConnect_led port cntlid qid cid size kato hostNqn subNqn hostId (.refl _ s) rfl
  | propertyGet cntlid cid off => exact execPropertyGet_led cntlid cid off (.refl _ s) rfl
  | propertySet cntlid cid off value => exact execPropertySet_led cntlid cid off value (.refl _ s) rfl
  | disconnect cntlid cid => exact execDisconnect_led cntlid cid (.refl _ s) rfl
  | controlReplyPoll cntlid cid tag => exact execControlReplyPoll_led cntlid cid tag (.refl _ s) rfl
  | controlPacketSubmit cntlid cid data peerInflight =>
    exact execControlPacketSubmit_led cntlid cid data peerInflight (.refl _ s) rfl
  | controlReplyFetch cntlid cid tag => exact execControlReplyFetch_led cntlid cid tag (.refl _ s) rfl
  | controlPayloadFetch cntlid cid tag offset length =>
    exact execControlPayloadFetch_led cntlid cid tag offset length (.refl _ s) rfl
  | powerStateChange => exact execPowerStateChange_led (.refl _ s) rfl
  | ps3EntryComplete => exact execPs3EntryComplete_led (.refl _ s) rfl
  | ps3EntryAbandon => exact execPs3EntryAbandon_led (.refl _ s) rfl
  | ps3Exit => exact execPs3Exit_led (.refl _ s) rfl
  | anaOwnershipMove group => exact execAnaOwnershipMove_led group (.refl _ s) rfl
  | mirrorData number volume count flags seq lba blocks pi =>
    exact execMirrorData_led number volume count flags seq lba blocks pi (.refl _ s) rfl
  | mirrorAck number held => exact execMirrorAck_led number held (.refl _ s) rfl
  | commit number mark => exact execCommit_led number mark (.refl _ s) rfl
  | commitAck number => exact execCommitAck_led number (.refl _ s) rfl
  | release l => exact execRelease_led l (.refl _ s) rfl
  | credit blocks term through => exact execCredit_led blocks term through (.refl _ s) rfl
  | vaultNotice time => exact execVaultNotice_led time (.refl _ s) rfl
  | vaultDone time length => exact execVaultDone_led time length (.refl _ s) rfl
  | vaultDoneTimeout => exact execVaultDoneTimeout_led (.refl _ s) rfl
  | markList number marks => exact execMarkList_led number marks (.refl _ s) rfl
  | withdraw number volume seq => exact execWithdraw_led number volume seq (.refl _ s) rfl
  | messageResendTimeout number => exact execMessageResendTimeout_led number (.refl _ s) rfl
  | destageAgeExpiry vol grain => exact execDestageAgeExpiry_led vol grain (.refl _ s) rfl
  | destageStart vol grain => exact execDestageStart_led vol grain (.refl _ s) rfl
  | fingerprintComplete job => exact execFingerprintComplete_led job (.refl _ s) rfl
  | fingerprintResolve => exact execFingerprintResolve_led (.refl _ s) rfl
  | resolve number domain verify through grain fp x =>
    exact execResolve_led number domain verify through grain fp x (.refl _ s) rfl
  | resolveAnswer grain cid outcome => exact execResolveAnswer_led grain cid outcome (.refl _ s) rfl
  | resolvePendingTimeout grain => exact execResolvePendingTimeout_led grain (.refl _ s) rfl
  | inflightWayFree => exact execInflightWayFree_led (.refl _ s) rfl
  | indexReadComplete grain peer sound => exact execIndexReadComplete_led grain peer sound (.refl _ s) rfl
  | mergeSweepStart => exact execMergeSweepStart_led (.refl _ s) rfl
  | filterReplace => exact execFilterReplace_led (.refl _ s) rfl
  | refDelta number l => exact execRefDelta_led number l (.refl _ s) rfl
  | place number cid psa gen hasTail => exact execPlace_led number cid psa gen hasTail (.refl _ s) rfl
  | encodeComplete job lane faulty => exact execEncodeComplete_led job lane faulty (.refl _ s) rfl
  | decodeComplete job lane faulty => exact execDecodeComplete_led job lane faulty (.refl _ s) rfl
  | slotDecryptComplete job lane sound => exact execSlotDecryptComplete_led job lane sound (.refl _ s) rfl
  | slotEncryptComplete job lane => exact execSlotEncryptComplete_led job lane (.refl _ s) rfl
  | usageGrantDraw locker => exact execUsageGrantDraw_led locker (.refl _ s) rfl
  | hallPassEnd number start parts ended stored => exact execHallPassEnd_led number start parts ended stored (.refl _ s) rfl
  | segmentVerify number start auth header seg => exact execSegmentVerify_led number start auth header seg (.refl _ s) rfl
  | streamTagFail number => exact execStreamTagFail_led number (.refl _ s) rfl
  | digestOpen prefect fn handle gen custom => exact execDigestOpen_led prefect fn handle gen custom (.refl _ s) rfl
  | digestAbsorb number data => exact execDigestAbsorb_led number data (.refl _ s) rfl
  | digestFinalise number => exact execDigestFinalise_led number (.refl _ s) rfl
  | digestRead number length => exact execDigestRead_led number length (.refl _ s) rfl
  | digestClose number => exact execDigestClose_led number (.refl _ s) rfl
  | mrExtend faculty reg data => exact execMrExtend_led faculty reg data (.refl _ s) rfl
  | lockerRotate b tag peer => exact execLockerRotate_led b tag peer (.refl _ s) rfl
  | lockerWithdraw b tag peer => exact execLockerWithdraw_led b tag peer (.refl _ s) rfl
  | lockerRestore b tag peer => exact execLockerRestore_led b tag peer (.refl _ s) rfl
  | lockerQuery b tag => exact execLockerQuery_led b tag (.refl _ s) rfl
  | checkpointStart => exact execCheckpointStart_led (.refl _ s) rfl
  | checkpointPhase2 => exact execCheckpointPhase2_led (.refl _ s) rfl
  | sjCheckpointStart => exact execSjCheckpointStart_led (.refl _ s) rfl
  | gcStart bay die => exact execGcStart_led bay die (.refl _ s) rfl
  | blockEraseDue blk => exact execBlockEraseDue_led blk (.refl _ s) rfl
  | psaResolveAgain job => exact execPsaResolveAgain_led job (.refl _ s) rfl
  | retentionAccrue => exact execRetentionAccrue_led (.refl _ s) rfl
  | calibrationDue blk page => exact execCalibrationDue_led blk page (.refl _ s) rfl
  | refreshDue blk => exact execRefreshDue_led blk (.refl _ s) rfl
  | timeTokenWaitExpiry => exact execTimeTokenWaitExpiry_led (.refl _ s) rfl
  | spareStateChange => exact execSpareStateChange_led (.refl _ s) rfl
  | stripeIdleClose group => exact execStripeIdleClose_led group (.refl _ s) rfl
  | stripeExtend group => exact execStripeExtend_led group (.refl _ s) rfl
  | groupOpen layout => exact execGroupOpen_led layout (.refl _ s) rfl
  | reconstructionCombine job => exact execReconstructionCombine_led job (.refl _ s) rfl
  | patrolStripe strips => exact execPatrolStripe_led strips (.refl _ s) rfl
  | detentionProbe form die block page => exact execDetentionProbe_led form die block page (.refl _ s) rfl
  | detentionTimeout bay => exact execDetentionTimeout_led bay (.refl _ s) rfl
  | missingTimeout bay => exact execMissingTimeout_led bay (.refl _ s) rfl
  | rebuildBlock sources => exact execRebuildBlock_led sources (.refl _ s) rfl
  | lostSweep => exact execLostSweep_led (.refl _ s) rfl
  | volumeOffline => exact execVolumeOffline_led (.refl _ s) rfl
  | blpReadComplete d data tags => exact execBlpReadComplete_led d data tags (.refl _ s) rfl
  | blpProgramComplete d => exact execBlpProgramComplete_led d (.refl _ s) rfl
  | blpEraseComplete d => exact execBlpEraseComplete_led d (.refl _ s) rfl
  | blpSuspendComplete d => exact execBlpSuspendComplete_led d (.refl _ s) rfl
  | blpResumeComplete d => exact execBlpResumeComplete_led d (.refl _ s) rfl
  | blpStatusComplete d record => exact execBlpStatusComplete_led d record (.refl _ s) rfl
  | blpCalibrateComplete d offsets counts => exact execBlpCalibrateComplete_led d offsets counts (.refl _ s) rfl
  | blpTelemetryComplete d page => exact execBlpTelemetryComplete_led d page (.refl _ s) rfl
  | blpFenceComplete d => exact execBlpFenceComplete_led d (.refl _ s) rfl
  | telemetryPoll => exact execTelemetryPoll_led (.refl _ s) rfl
  | bayPresenceDetect bay => exact execBayPresenceDetect_led bay (.refl _ s) rfl
  | bayPerstRelease bay => exact execBayPerstRelease_led bay (.refl _ s) rfl
  | bayLinkUp bay width rate version => exact execBayLinkUp_led bay width rate version (.refl _ s) rfl
  | bayLinkTrainTimeout bay => exact execBayLinkTrainTimeout_led bay (.refl _ s) rfl
  | bayPresenceLost bay unplugged => exact execBayPresenceLost_led bay unplugged (.refl _ s) rfl
  | bayPowerOffTimeout bay => exact execBayPowerOffTimeout_led bay (.refl _ s) rfl
  | bayRetrainTimer bay => exact execBayRetrainTimer_led bay (.refl _ s) rfl
  | bayLinkReturn bay width rate => exact execBayLinkReturn_led bay width rate (.refl _ s) rfl
  | bayAttention bay cause => exact execBayAttention_led bay cause (.refl _ s) rfl
  | bayLinkDegraded bay width rate => exact execBayLinkDegraded_led bay width rate (.refl _ s) rfl
  | bayFullRetrain bay width rate => exact execBayFullRetrain_led bay width rate (.refl _ s) rfl
  | witnessCasComplete bay old => exact execWitnessCasComplete_led bay old (.refl _ s) rfl
  | corridorTrain own pool slot failed reversed inverted =>
    exact execCorridorTrain_led own pool slot failed reversed inverted (.refl _ s) rfl
  | corridorRefusedRetry => exact execCorridorRefusedRetry_led (.refl _ s) rfl
  | corridorLinkDown => exact execCorridorLinkDown_led (.refl _ s) rfl
  | heartbeat day term sheet state dirtyMib degradations =>
    exact execHeartbeat_led day term sheet state dirtyMib degradations (.refl _ s) rfl
  | heartbeatMissed => exact execHeartbeatMissed_led (.refl _ s) rfl
  | arbitrationCount => exact execArbitrationCount_led (.refl _ s) rfl
  | arbitrationRetry => exact execArbitrationRetry_led (.refl _ s) rfl
  | failoverReplay => apply execFailoverReplay_led (.refl _ s) rfl
  | failoverTakeover => exact execFailoverTakeover_led (.refl _ s) rfl
  | bellSync day sendCycle echoed here => exact execBellSync_led day sendCycle echoed here (.refl _ s) rfl
  | sheetTrigger number kind action index detected switchDay =>
    exact execSheetTrigger_led number kind action index detected switchDay (.refl _ s) rfl
  | snapFence number tag bell roots => exact execSnapFence_led number tag bell roots (.refl _ s) rfl
  | ttImage number term offset bytes => exact execTtImage_led number term offset bytes (.refl _ s) rfl
  | ttVerdict term status detail => exact execTtVerdict_led term status detail (.refl _ s) rfl
  | sbChange number offset bytes => exact execSbChange_led number offset bytes (.refl _ s) rfl
  | anaMove number group owner boundary next => exact execAnaMove_led number group owner boundary next (.refl _ s) rfl
  | hello number record => exact execHello_led number record (.refl _ s) rfl
  | releaseNotice time => exact execReleaseNotice_led time (.refl _ s) rfl
  | resyncDone lastNumber epoch head seq => exact execResyncDone_led lastNumber epoch head seq (.refl _ s) rfl
  | journal number l => exact execJournal_led number l (.refl _ s) rfl
  | journalAck number => exact execJournalAck_led number (.refl _ s) rfl
  | prefectRecord number record => exact execPrefectRecord_led number record (.refl _ s) rfl
  | forbiddenPeerMessage => exact execForbiddenPeerMessage_led (.refl _ s) rfl
  | fedHeartbeatSend => exact execFedHeartbeatSend_led (.refl _ s) rfl
  | fedHeartbeat chip state rosterNo token => exact execFedHeartbeat_led chip state rosterNo token (.refl _ s) rfl
  | fedUnreachable chip => exact execFedUnreachable_led chip (.refl _ s) rfl
  | headAdopt b tag => exact execHeadAdopt_led b tag (.refl _ s) rfl
  | headRelease b tag => exact execHeadRelease_led b tag (.refl _ s) rfl
  | fedRosterLoad b tag => exact execFedRosterLoad_led b tag (.refl _ s) rfl
  | fedTimeToken b tag => exact execFedTimeToken_led b tag (.refl _ s) rfl
  | fedQuery b tag => exact execFedQuery_led b tag (.refl _ s) rfl
  | clockRecordWrite => exact execClockRecordWrite_led (.refl _ s) rfl
  | lockstepMismatch => exact execLockstepMismatch_led (.refl _ s) rfl
  | keyEnroll b tag => exact execKeyEnroll_led b tag (.refl _ s) rfl
  | keyRevoke b tag => exact execKeyRevoke_led b tag (.refl _ s) rfl
  | quote b tag => exact execQuote_led b tag (.refl _ s) rfl
  | mrRead b tag => exact execMrRead_led b tag (.refl _ s) rfl
  | identityGet b tag => exact execIdentityGet_led b tag (.refl _ s) rfl
  | escrowExport b tag => exact execEscrowExport_led b tag (.refl _ s) rfl
  | rootImport b tag copy media => exact execRootImport_led b tag copy media (.refl _ s) rfl
  | decommission b tag => exact execDecommission_led b tag (.refl _ s) rfl
  | fwDownload b tag => exact execFwDownload_led b tag (.refl _ s) rfl
  | fwActivate b tag => exact execFwActivate_led b tag (.refl _ s) rfl
  | clusterReport island healthy => exact execClusterReport_led island healthy (.refl _ s) rfl
  | clusterReportTimeout island => exact execClusterReportTimeout_led island (.refl _ s) rfl
  | pfwDownload b tag => exact execPfwDownload_led b tag (.refl _ s) rfl
  | pfwActivate b tag => exact execPfwActivate_led b tag (.refl _ s) rfl
  | fwQuery b tag => exact execFwQuery_led b tag (.refl _ s) rfl
  | cpiSubmit packet payload peerInflight => exact execCpiSubmit_led packet payload peerInflight (.refl _ s) rfl
  | cpiAck => exact execCpiAck_led (.refl _ s) rfl
  | pfmSubmit packet payload peerInflight => exact execPfmSubmit_led packet payload peerInflight (.refl _ s) rfl
  | pfmAck => exact execPfmAck_led (.refl _ s) rfl
  | mctpMessage endpoint length body peerInflight =>
    exact execMctpMessage_led endpoint length body peerInflight (.refl _ s) rfl
  | pieceTimeout b => exact execPieceTimeout_led b (.refl _ s) rfl
  | replyRetentionExpiry b tag => exact execReplyRetentionExpiry_led b tag (.refl _ s) rfl
  | claimBindingTimeout b => exact execClaimBindingTimeout_led b (.refl _ s) rfl
  | sysInfo b tag => exact execSysInfo_led b tag (.refl _ s) rfl
  | sysPortMode b tag => exact execSysPortMode_led b tag (.refl _ s) rfl
  | sysBinding b tag peer => exact execSysBinding_led b tag peer (.refl _ s) rfl
  | sysSubsystem b tag peer => exact execSysSubsystem_led b tag peer (.refl _ s) rfl
  | sysDataTimeout b tag peer => exact execSysDataTimeout_led b tag peer (.refl _ s) rfl
  | sysHoldupCfg b tag => exact execSysHoldupCfg_led b tag (.refl _ s) rfl
  | sysHoldupMeasure b tag sense => exact execSysHoldupMeasure_led b tag sense (.refl _ s) rfl
  | holdupMeasureScheduled sense => exact execHoldupMeasureScheduled_led sense (.refl _ s) rfl
  | holdupMeasureComplete va v10 v5 v20 isOpen => exact execHoldupMeasureComplete_led va v10 v5 v20 isOpen (.refl _ s) rfl
  | holdupRetryTimer sense => exact execHoldupRetryTimer_led sense (.refl _ s) rfl
  | sysClaims b tag => exact execSysClaims_led b tag (.refl _ s) rfl
  | sysIslandReset b tag => exact execSysIslandReset_led b tag (.refl _ s) rfl
  | cpPayloadFetch b tag => exact execCpPayloadFetch_led b tag (.refl _ s) rfl
  | poolForm b tag peer => exact execPoolForm_led b tag peer (.refl _ s) rfl
  | poolExtend b tag peer => exact execPoolExtend_led b tag peer (.refl _ s) rfl
  | memberFail b tag peer => exact execMemberFail_led b tag peer (.refl _ s) rfl
  | bayWidthSet b tag => exact execBayWidthSet_led b tag (.refl _ s) rfl
  | bayPower b tag => exact execBayPower_led b tag (.refl _ s) rfl
  | poolGrowFilter b tag peer => exact execPoolGrowFilter_led b tag peer (.refl _ s) rfl
  | poolGrowIndex b tag peer => exact execPoolGrowIndex_led b tag peer (.refl _ s) rfl
  | poolQuery b tag => exact execPoolQuery_led b tag (.refl _ s) rfl
  | poolErase b tag peer => exact execPoolErase_led b tag peer (.refl _ s) rfl
  | moduleUnform b tag => exact execModuleUnform_led b tag (.refl _ s) rfl
  | volCreate b tag peer => exact execVolCreate_led b tag peer (.refl _ s) rfl
  | volDelete b tag peer => exact execVolDelete_led b tag peer (.refl _ s) rfl
  | volResize b tag peer => exact execVolResize_led b tag peer (.refl _ s) rfl
  | volSet b tag peer => exact execVolSet_led b tag peer (.refl _ s) rfl
  | anaMoveGroup b tag => exact execAnaMoveGroup_led b tag (.refl _ s) rfl
  | domainCreate b tag peer => exact execDomainCreate_led b tag peer (.refl _ s) rfl
  | domainDelete b tag peer => exact execDomainDelete_led b tag peer (.refl _ s) rfl
  | domainVerify b tag peer => exact execDomainVerify_led b tag peer (.refl _ s) rfl
  | volQuery b tag => exact execVolQuery_led b tag (.refl _ s) rfl
  | snapCreate b tag => exact execSnapCreate_led b tag (.refl _ s) rfl
  | snapshotSettle tag peerReady => exact execSnapshotSettle_led tag peerReady (.refl _ s) rfl
  | snapDelete b tag peer peerClock => exact execSnapDelete_led b tag peer peerClock (.refl _ s) rfl
  | snapSeal b tag peer => exact execSnapSeal_led b tag peer (.refl _ s) rfl
  | cloneCreate b tag peer => exact execCloneCreate_led b tag peer (.refl _ s) rfl
  | snapQuery b tag => exact execSnapQuery_led b tag (.refl _ s) rfl
  | replPartnerAdd b tag => exact execReplPartnerAdd_led b tag (.refl _ s) rfl
  | replPartnerRemove b tag => exact execReplPartnerRemove_led b tag (.refl _ s) rfl
  | replSessionOpen b tag => exact execReplSessionOpen_led b tag (.refl _ s) rfl
  | replSessionClose b tag => exact execReplSessionClose_led b tag (.refl _ s) rfl
  | replAsyncSend b tag => exact execReplAsyncSend_led b tag (.refl _ s) rfl
  | replSyncSet b tag => exact execReplSyncSet_led b tag (.refl _ s) rfl
  | migrateExport b tag => exact execMigrateExport_led b tag (.refl _ s) rfl
  | migrateCutover b tag => exact execMigrateCutover_led b tag (.refl _ s) rfl
  | replQuery b tag => exact execReplQuery_led b tag (.refl _ s) rfl
  | offer port message => exact execOffer_led port message (.refl _ s) rfl
  | accept reg message => exact execAccept_led reg message (.refl _ s) rfl
  | prove reg message => exact execProve_led reg message (.refl _ s) rfl
  | refuse reg status => exact execRefuse_led reg status (.refl _ s) rfl
  | handshakeTimeout reg => exact execHandshakeTimeout_led reg (.refl _ s) rfl
  | sessionRekey reg => exact execSessionRekey_led reg (.refl _ s) rfl
  | segmentSendTimer reg => exact execSegmentSendTimer_led reg (.refl _ s) rfl
  | beginTransfer session transfer root base snap fenceEpoch size domain flags until_ pool =>
    exact execBeginTransfer_led session transfer root base snap fenceEpoch size domain flags until_ pool (.refl _ s) rfl
  | fingerprints session transfer entries => exact execFingerprints_led session transfer entries (.refl _ s) rfl
  | want session transfer grains => exact execWant_led session transfer grains (.refl _ s) rfl
  | grain session transfer grain tier slot tail => exact execGrain_led session transfer grain tier slot tail (.refl _ s) rfl
  | endTransfer session transfer entries digest => exact execEndTransfer_led session transfer entries digest (.refl _ s) rfl
  | replCommit session transfer status snapshot digest =>
    exact execReplCommit_led session transfer status snapshot digest (.refl _ s) rfl
  | syncWrite session root count seq lba blocks pi =>
    exact execSyncWrite_led session root count seq lba blocks pi (.refl _ s) rfl
  | syncAck session root seq => exact execSyncAck_led session root seq (.refl _ s) rfl
  | syncAckTimeout session root => exact execSyncAckTimeout_led session root (.refl _ s) rfl
  | syncFence session snapshot bell listed => exact execSyncFence_led session snapshot bell listed (.refl _ s) rfl
  | syncCheckpoint session => exact execSyncCheckpoint_led session (.refl _ s) rfl
  | fractureResumeTimer session => exact execFractureResumeTimer_led session (.refl _ s) rfl
  | migrateRepeatTimer session root => exact execMigrateRepeatTimer_led session root (.refl _ s) rfl
  | keyAdopt session domain wrapped check => exact execKeyAdopt_led session domain wrapped check (.refl _ s) rfl
  | replAbort session transfer status detail => exact execReplAbort_led session transfer status detail (.refl _ s) rfl
  | diagDieOp b tag => exact execDiagDieOp_led b tag (.refl _ s) rfl
  | diagLaneTest b tag => exact execDiagLaneTest_led b tag (.refl _ s) rfl
  | diagLaneGroup b tag => exact execDiagLaneGroup_led b tag (.refl _ s) rfl
  | diagDramChannel b tag => exact execDiagDramChannel_led b tag (.refl _ s) rfl
  | diagBayGroup b tag => exact execDiagBayGroup_led b tag (.refl _ s) rfl
  | diagDump b tag dump => exact execDiagDump_led b tag dump (.refl _ s) rfl
  | diagPin b tag => exact execDiagPin_led b tag (.refl _ s) rfl
  | diagCapture b tag => exact execDiagCapture_led b tag (.refl _ s) rfl
  | diaryRead b tag => exact execDiaryRead_led b tag (.refl _ s) rfl
  | diaryFreeze b tag => exact execDiaryFreeze_led b tag (.refl _ s) rfl
  | diaryCtrlFreezeWrite bit => exact execDiaryCtrlFreezeWrite_led bit (.refl _ s) rfl
  | diaryFreezeTimeout => exact execDiaryFreezeTimeout_led (.refl _ s) rfl
  | diaryEvent code island arg => exact execDiaryEvent_led code island arg (.refl _ s) rfl
  | tallyRead b tag => exact execTallyRead_led b tag (.refl _ s) rfl
  | tallyConfig b tag => exact execTallyConfig_led b tag (.refl _ s) rfl
  | tallySweep => exact execTallySweep_led (.refl _ s) rfl
  | bwWindow b tag => exact execBwWindow_led b tag (.refl _ s) rfl
  | bwWindowStart timer => exact execBwWindowStart_led timer (.refl _ s) rfl
  | bwWindowEnd timer bytesIn bytesOut => exact execBwWindowEnd_led timer bytesIn bytesOut (.refl _ s) rfl
  | reportCard b tag => exact execReportCard_led b tag (.refl _ s) rfl
  | earlyWarningEval => exact execEarlyWarningEval_led (.refl _ s) rfl
  | histogramMinute chip modules => exact execHistogramMinute_led chip modules (.refl _ s) rfl
  | dramRefreshTick channel rank sub => exact execDramRefreshTick_led channel rank sub (.refl _ s) rfl
  | dimmTempRead channel temp => exact execDimmTempRead_led channel temp (.refl _ s) rfl
  | dramSelfRefreshIdle channel => exact execDramSelfRefreshIdle_led channel (.refl _ s) rfl
  | dramCorrected channel rank device => exact execDramCorrected_led channel rank device (.refl _ s) rfl
  | dramUncorrectable channel hpa data => exact execDramUncorrectable_led channel hpa data (.refl _ s) rfl
  | dramScrub channel => exact execDramScrub_led channel (.refl _ s) rfl
  | dramChannelOut channel => exact execDramChannelOut_led channel (.refl _ s) rfl
  | dramChannelDead channel => exact execDramChannelDead_led channel (.refl _ s) rfl
  | dramEvacCopyDone channel => exact execDramEvacCopyDone_led channel (.refl _ s) rfl
  | dramTrainingDone channel pass => exact execDramTrainingDone_led channel pass (.refl _ s) rfl
  | pinFaultDetect pin kind => exact execPinFaultDetect_led pin kind (.refl _ s) rfl
  | pinOpenTest pin follows edge => exact execPinOpenTest_led pin follows edge (.refl _ s) rfl
  | pinFaultClear pin => exact execPinFaultClear_led pin (.refl _ s) rfl
  | fpLocate => exact execFpLocate_led (.refl _ s) rfl
  | smbusRead reg => exact execSmbusRead_led reg (.refl _ s) rfl
  | tapBypass => exact execTapBypass_led (.refl _ s) rfl
  | tapIdcode => exact execTapIdcode_led (.refl _ s) rfl
  | tapSamplePreload => exact execTapSamplePreload_led (.refl _ s) rfl
  | tapExtest => exact execTapExtest_led (.refl _ s) rfl
  | tapExtestPulse => exact execTapExtestPulse_led (.refl _ s) rfl
  | tapExtestTrain => exact execTapExtestTrain_led (.refl _ s) rfl
  | tapClamp => exact execTapClamp_led (.refl _ s) rfl
  | tapHighz => exact execTapHighz_led (.refl _ s) rfl
  | registerWrite window offset value => exact execRegisterWrite_led window offset value (.refl _ s) rfl
  | cnpReceived cntlid qid => exact execCnpReceived_led cntlid qid (.refl _ s) rfl
  | rosterReceived roster => exact execRosterReceived_led roster (.refl _ s) rfl
  | keyAdoptWaitExpiry domain => exact execKeyAdoptWaitExpiry_led domain (.refl _ s) rfl
  | deleteTicketHoldEnd => exact execDeleteTicketHoldEnd_led (.refl _ s) rfl
  | pinDriveRestored pin => exact execPinDriveRestored_led pin (.refl _ s) rfl
  | mgmtPerst => exact execMgmtPerst_led (.refl _ s) rfl
  | corridorMessageDrop kind => exact execCorridorMessageDrop_led kind (.refl _ s) rfl

/-- A step takes the front of the queue, and the rest of the queue waits (log 2). -/
theorem step_eq (s : State) : step s = .next s ∧ s.pending = [] ∨
    ∃ c rest, s.pending = c :: rest ∧ step s = exec c { s with pending := rest } := by
  cases queue : s.pending with
  | nil => exact .inl ⟨by rw [step, queue], rfl⟩
  | cons c rest => exact .inr ⟨c, rest, rfl, by rw [step, queue]⟩

/-- Settles O3: an idle step changes nothing, and every command's row keeps what the ledger says. -/
theorem everyStepKeepsFusesDiaryAndQueue : Obligations.EveryStepKeepsFusesDiaryAndQueue := by
  intro s t ok stepped
  rcases step_eq s with ⟨idle, empty⟩ | ⟨c, rest, queue, runs⟩
  · obtain rfl : s = t := Host.Outcome.next.inj (idle.symm.trans stepped)
    exact ⟨.refl _, ok, by rw [empty]; rfl⟩
  · obtain ⟨fuses, diary, only⟩ := exec_led c { s with pending := rest } t (runs.symm.trans stepped)
    exact ⟨fuses, diary ok, by rw [queue]; exact only.pending⟩

/-- Settles O4: every command answers a next state, and whatever it answers stays within its footprint. -/
theorem commandFootprints : Obligations.CommandFootprints := by
  refine ⟨fun c s => ?_, fun c s t next => (exec_led c s t next).only⟩
  obtain ⟨t, next⟩ := exec_answers c s
  exact ⟨t, next, (exec_led c s t next).only⟩

end Sys2Proof.Machine
